-- ==== Sys2Proof/Word.lean ====
section
/-! DEFINITION. The word types of the ELV-X1152: 32-bit registers (chapter 00, "Register conventions"), bytes, and the
sparse table in which every large array of the device is held. -/

namespace Sys2Proof

/-- A register word: registers are 32 bits wide (chapter 00). -/
abbrev Word := BitVec 32

/-- A byte of an addressed memory. -/
abbrev Byte := BitVec 8

/-- A sparse table: pairs of a key and a value in canonical form, keys strictly rising and no entry equal to what an
unlisted key reads as. -/
abbrev Tab (α : Type) := List (Nat × α)

end Sys2Proof
end

