-- ==== Sys2Proof/Syntax.lean ====
section
/-! DEFINITION. The commands of the block: one constructor per row of the command table, with the row's operands. Every instant `t` is
in picoseconds; `n` is a tiller, `m` a mailbox master, `e` an Ethernet port, as the row's meaning says. -/

namespace Sys2Proof

/-- The registers of the PCIe configuration space that the spec gives (R389, R390, R437): identity, Command, class code, the low and
high halves of the two 64-bit BARs, Subsystem IDs, MSI-X Message Control; any other register, of which the spec says nothing. -/
inductive CfgReg where
  | ident | command | classCode | bar0 | bar1 | bar2 | bar3 | subsystem | msixControl | msixTable | msixPba | deviceCap | deviceControl
  | linkCap | linkControl | powerControl | other
  deriving DecidableEq, Repr

/-- A command. -/
inductive Instr where
  /-- RESET_N_LOW (R30): RESET_N is driven low and the device enters RESET, staying there while the pin is low. -/
  | resetNLow
  /-- RESET_END (R30): After RESET_N rises, the PLLs lock and the fuse shadow loads, and RESET ends into RECOVERY, STANDBY or SAFE-STOP. -/
  | resetEnd (recov : Bool) (merId : Fin 8) (t : Nat)
  /-- CORE_RESET (R457): A core supply falls below its internal reset threshold and the device acts as if RESET_N were low. -/
  | coreReset
  /-- HEDGE_POWER_ON (R248): The hedge power-on resets the whole hedge and the retained registers, reads the seal straps and loads the fused limit rows. -/
  | hedgePowerOn (straps : Fin 64) (floats : Fin 64)
  /-- MAIN_PLL_LOCK_LOSS (R25): The main PLL loses lock outside a REF_SEL relock, raising SYS_CLK_FAULT and making the hedge force SAFE-STOP. -/
  | mainPllLockLoss
  /-- TILLER_PLL_LOCK_LOSS (R105): The tiller PLL loses lock; running tillers halt with HALT_CAUSE 6 and an orderly stop begins. -/
  | tillerPllLockLoss
  /-- MANAGEMENT_PLL_LOCK_LOSS (R410): The management PLL loses lock, forcing RESET followed by a cold start with cause 0x5. -/
  | managementPllLockLoss
  /-- LOCKSTEP_MISMATCH (R418): The two cores of the management core disagree, forcing a cold start that counts as a failed start before BOOT_DONE. -/
  | lockstepMismatch (t : Nat)
  /-- REF_SEL_CHANGE (R26): A write of SYS_CLK_CFG.REF_SEL in STANDBY puts DRAM in self-refresh and starts a PLL relock; in other modes it is rejected. -/
  | refSelChange (sel : Fin 4) (present : Bool)
  /-- PLL_RELOCK_COMPLETE (R26): The PLLs relock after an accepted REF_SEL change, the stopped domains restart and DRAM leaves self-refresh. -/
  | pllRelockComplete
  /-- REGISTER_ACCESS_TIMEOUT (R27): A register access to a block with a stopped clock completes after 10 µs, reading 0 or discarding the write, and raises SYS_ACCESS_TIMEOUT. -/
  | registerAccessTimeout (a : BitVec 26)
  /-- REGISTER_WRITE (R24): A register write without a row of its own is checked under R12, R13, R28 and R29 and takes effect in the target block within 3 target cycles. -/
  | registerWrite (m : Fin 4) (a : BitVec 26) (w : Word) (t : Nat)
  /-- RC_READ (R9): A read of a read-to-clear field returns its value and then clears it. -/
  | rcRead (a : BitVec 26)
  /-- PF_N_FALL (R43): PF_N goes low; fuse burns are refused and flash records already in progress complete. -/
  | pfNFall
  /-- SYS_PF (R43): PF_N has been low for 10 µs, raising SYS_PF and starting an orderly stop. -/
  | sysPf
  /-- PF_N_RISE (R342): PF_N returns high and a journal save waiting with PENDING starts. -/
  | pfNRise
  /-- ORDERLY_STOP_COMPLETE (R32): An orderly stop finishes its point cycle, flushes blocks and starts braking, then enters STANDBY and carries out a pending MODE_SCAN. -/
  | orderlyStopComplete
  /-- SPIN_TIMEOUT (R43): SPIN-UP exceeds SYS_MODE_CFG.SPIN_TIMEOUT; the device returns to STANDBY, answers TIMEOUT and raises SYS_SPIN_TIMEOUT. -/
  | spinTimeout
  /-- SPIN_UP_LOCK_ACHIEVED (R240): With the helm LOCKED and the hedge releasing LI_N, the device passes from SPIN-UP to SCAN. -/
  | spinUpLockAchieved
  /-- MODE_STANDBY (R32): The MODE_STANDBY command starts an orderly stop to STANDBY, optionally putting DRAM in self-refresh. -/
  | modeStandby (m : Fin 4) (tag : Byte)
  /-- MODE_SCAN (R37): The MODE_SCAN command enters SPIN-UP from STANDBY, or is latched PENDING during an orderly stop. -/
  | modeScan (m : Fin 4) (tag : Byte)
  /-- MODE_CALIBRATE (R328): The MODE_CALIBRATE command enters CALIBRATE and runs the calibration plan named in ARG. -/
  | modeCalibrate (m : Fin 4) (tag : Byte)
  /-- DERATE_ENTER (R36): The DERATE_ENTER command sets the host derate source and enters DERATED. -/
  | derateEnter (m : Fin 4) (tag : Byte)
  /-- DERATE_RELEASE (R36): The DERATE_RELEASE command clears the host derate source. -/
  | derateRelease (m : Fin 4) (tag : Byte)
  /-- RESET_WARM (R411): The RESET_WARM command lets running flash records complete, puts DRAM in self-refresh and forces RESET for a warm start. -/
  | resetWarm (m : Fin 4) (tag : Byte)
  /-- RESET_COLD (R411): The RESET_COLD command lets running flash records complete and forces RESET for a cold start. -/
  | resetCold (m : Fin 4) (tag : Byte)
  /-- ENTER_RECOVERY (R36): The ENTER_RECOVERY command enters RECOVERY from STANDBY. -/
  | enterRecovery (m : Fin 4) (tag : Byte)
  /-- MODE_QUERY (R36): The MODE_QUERY command copies SYS_MODE to SYS_MBOX_DATA. -/
  | modeQuery (m : Fin 4) (tag : Byte)
  /-- MASK_COMMIT (R46): A write of DET_CTRL.MASK_COMMIT requests that shadow masks and trims be copied, setting COMMIT_PENDING. -/
  | maskCommit
  /-- MASK_COMMIT_COPY (R46): The pending mask and trim copy takes effect at the boundary or within 1 µs, and silence is re-evaluated. -/
  | maskCommitCopy
  /-- PROBE_START (R60): A write of PROBE_START opens the probe gate on the selected SPAD. -/
  | probeStart
  /-- PROBE_GATE_END (R60): The probe gate ends, latching DET_PROBE_COUNT and raising DET_PROBE_DONE. -/
  | probeGateEnd
  /-- BIAS_ENABLE (R57): Setting BIAS_EN starts a slew-limited ramp of the bias target from the measured VSPAD. -/
  | biasEnable
  /-- BIAS_DISABLE (R57): Clearing BIAS_EN drives VHV_SET to 0 V, quenches all SPADs and clears BIAS_SETTLED and the unlatched monitor bits. -/
  | biasDisable
  /-- BIAS_SETTLED (R57): VSPAD has stayed within 100 mV of the target for 1 ms, so the SPADs go live and DET_BIAS_SETTLED is raised. -/
  | biasSettled
  /-- BIAS_LOOP_UPDATE (R57): Every 100 µs the loop integrates the error between the slew-limited target and the mean VSPAD into VHV_SET. -/
  | biasLoopUpdate (meas : Nat)
  /-- BIAS_TARGET_RECOMPUTE (R55): Every 10 ms the bias target is recomputed from T_det and clamped, raising DET_BIAS_LIMIT on entry to clamping. -/
  | biasTargetRecompute
  /-- TEMP_STALE (R56): Too few detector sensors are valid, or no reading has arrived for 50 ms, so tracking holds T_det and DET_TEMP_STALE is raised. -/
  | tempStale
  /-- BIAS_MONITOR_ENTRY (R58): The bias error has exceeded TOL for DWELL, setting BIAS_HIGH or BIAS_LOW and possibly the flapping latch. -/
  | biasMonitorEntry (high : Bool) (t : Nat)
  /-- BIAS_MONITOR_CLEAR (R58): The bias error has stayed below TOL minus HYST for DWELL and the monitor bit clears. -/
  | biasMonitorClear (high : Bool)
  /-- BIAS_FLAP_RELEASE (R58): A write of 1 to BIAS_FLAP releases the bias flapping latch and restarts its count. -/
  | biasFlapRelease
  /-- SPAD_FIRING (R48): An enabled SPAD fires and the coincidence detector may emit an event edge delayed by W. -/
  | spadFiring (c : Fin 1152) (p : Fin 16) (t : Nat)
  /-- TDC_EDGE (R63): An edge reaches a channel's TDC and is converted into a code or marker and queued to the fabric, or lost to dead time. -/
  | tdcEdge (c : Fin 1152) (t : Nat) (rawCoarse : Fin 8192) (rawPhase : Fin 16)
  /-- DLL_UNLOCK (R70): A column DLL loses lock; its edges are discarded, invalid markers go out and TDC_DLL_UNLOCK is raised. -/
  | dllUnlock (col : Fin 16)
  /-- DLL_RELOCK (R70): A column DLL regains lock without host action. -/
  | dllRelock (col : Fin 16)
  /-- DLL_RELOCK_RETRY (R70): A DLL still unlocked after 1 ms, and every 1 ms after that, raises TDC_DLL_UNLOCK again. -/
  | dllRelockRetry (col : Fin 16)
  /-- DLL_TRIM_LIMIT (R71): A DLL control voltage comes within 5 % of its range end, raising TDC_DLL_TRIM_LIMIT. -/
  | dllTrimLimit (col : Fin 16)
  /-- TDC_COMMIT (R64): A write of TDC_CTRL.COMMIT requests that remap, skew and zone shadows be copied. -/
  | tdcCommit
  /-- TDC_COMMIT_COPY (R64): The pending TDC commit checks monotonicity and copies the whole set, or rejects it and raises TDC_COMMIT_REJECT. -/
  | tdcCommitCopy
  /-- TEST_SOURCE_SELECT (R72): A write of TDC_TEST_CFG.SRC selects the detector or the internal oscillator as edge source, with the oscillator allowed only in STANDBY and CALIBRATE. -/
  | testSourceSelect (src : Fin 4)
  /-- SNOOP_ARM (R73): A write of TDC_SNOOP_CFG with ARM clears the snoop buffer and starts recording the selected channel. -/
  | snoopArm (channel : Fin 2048) (kindAll : Bool)
  /-- COUNTER_CLEAR_ALL (R77): TDC_CNT_CLR.ALL clears the three TDC counters of every channel. -/
  | counterClearAll
  /-- COUNTER_CLEAR_SEL (R77): TDC_CNT_CLR.SEL clears the three TDC counters of the selected channel. -/
  | counterClearSel
  /-- EVENT_WORD (R79): An event word reaches the fabric and is binned, tallied or discarded as late for the slot its SLOT_TAG names. -/
  | eventWord (f : Fin 192) (t : Nat)
  /-- POINT_CYCLES_START (R99): Point cycles become due and the first boundary is established at least 1 µs after the transition or at an EPOCH application. -/
  | pointCyclesStart (t : Nat)
  /-- SLOT_PREPARE (R212): Before a plough or harrow slot opens, the sequencer draws dither, sets the effective masks, drives the lines and posts the entry to the hedge and fabric. -/
  | slotPrepare
  /-- SHOT_SLOT_OPEN (R18): A plough or harrow slot opens, the LFSR has stepped and the seed-map pointer advances. -/
  | shotSlotOpen (t : Nat)
  /-- FALLOW_SLOT_OPEN (R20): The fallow slot opens: ambient counting and the candidate finders start, the live page clears and stale candidates are removed. -/
  | fallowSlotOpen (t : Nat)
  /-- LANE_PUBLICATION (R85): A finder publishes a lane's candidates, posts candidate messages and sets default harrow windows. -/
  | lanePublication (f : Fin 192)
  /-- HARROW_DEADLINE (R90): The harrow deadline passes; later tiller writes for the point cycle are discarded as LATE. -/
  | harrowDeadline
  /-- WINDOW_WRITE (R90): A tiller's harrow window write reaches the fabric and is accepted, marked LATE or discarded as invalid. -/
  | windowWrite (n : Fin 192)
  /-- DEPTH_WRITE (R50): A tiller's coincidence depth write reaches the fabric and is accepted for the next boundary, marked LATE or discarded. -/
  | depthWrite (n : Fin 192)
  /-- HARROW_BANK_SWAP (R21): The last harrow slot closes: the banks swap, settings are sampled, depths and masks apply, and missed blocks are emitted DROPPED. -/
  | harrowBankSwap (t : Nat)
  /-- BANK_FREEZE (R93): 60 ns after the swap the fabric freezes the bank and posts its bank-ready message to the tiller. -/
  | bankFreeze
  /-- BANK_CLEAR_COMPLETE (R93): The clear of the bank taken back at the swap completes with fresh check bits. -/
  | bankClearComplete
  /-- RUN (R126): The RUN command resumes a halted tiller at TIL_PC. -/
  | run (n : Fin 192)
  /-- HALT (R126): The HALT command asks a tiller to stop at its next instruction boundary. -/
  | halt (n : Fin 192)
  /-- HALT_AT_BOUNDARY (R126): A requested halt takes effect at an instruction boundary, abandoning stalled receives, sends and emits. -/
  | haltAtBoundary (n : Fin 192)
  /-- STEP (R126): The STEP command executes one instruction and halts with HALT_CAUSE 2. -/
  | step (n : Fin 192) (t : Nat)
  /-- MEM_INIT (R114): The MEM_INIT command zeroes a halted tiller's memories, with STATE INIT meanwhile. -/
  | memInit (n : Fin 192)
  /-- MEM_INIT_COMPLETE (R114): The tiller memory initialisation finishes and the tiller enters HALTED. -/
  | memInitComplete (n : Fin 192)
  /-- GROUP_RUN (R127): TIL_GROUP_CTRL.RUN runs every selected tiller in the same cycle. -/
  | groupRun
  /-- GROUP_HALT (R127): TIL_GROUP_CTRL.HALT halts every selected tiller in the same cycle. -/
  | groupHalt
  /-- TIL_PC_WRITE (R128): A write of TIL_PC in HALTED sets the next instruction and clears IN_TRAP and IN_ATTN. -/
  | tilPcWrite (n : Fin 192) (w : Word)
  /-- BREAKPOINT (R127): A tiller reaching TIL_BKPT.WORD halts with HALT_CAUSE 2 before executing it. -/
  | breakpoint (n : Fin 192)
  /-- TILLER_MEMORY_WRITE (R113): A host write to a tiller's DMEM or IMEM through the memory window is applied with fresh check fields, or rejected for IMEM of a running tiller. -/
  | tillerMemoryWrite (n : Fin 192) (ofs : Nat) (bytes : Nat) (data : BitVec 64)
  /-- TILLER_MEMORY_READ (R113): A host read of tiller memory returns the stored data and counts uncorrectable words. -/
  | tillerMemoryRead (n : Fin 192) (ofs : Nat) (bytes : Nat)
  /-- BROADCAST_WRITE (R125): With BCAST set, a host write to tiller 0's stride is applied to every selected tiller. -/
  | broadcastWrite (ofs : Nat) (bytes : Nat) (data : BitVec 64)
  /-- SCRUB_READ (R110): The tiller patrol scrubber reads its next word, correcting single-bit errors and counting fresh uncorrectable ones. -/
  | scrubRead (n : Fin 192) (found : Fin 3)
  /-- ATTENTION (R119): At an instruction boundary the tiller diverts to TIL_ATTN_VEC for pending MSG or DL_ALARM sources. -/
  | attention (n : Fin 192) (t : Nat)
  /-- DL_ALARM (R119): DL_REMAIN falls to DL_ALARM, making the deadline alarm source pending once per point cycle. -/
  | dlAlarm (n : Fin 192)
  /-- OWNERSHIP_END (R115): Ownership of a work bank ends at the instant the next swap would have fallen when no swap follows. -/
  | ownershipEnd
  /-- EMIT_ADMISSION (R123): A waiting record-emit is admitted by the output queue in round-robin order and its transfer starts. -/
  | emitAdmission (waited : Nat)
  /-- BLOCK_ACCEPTED (R122): The last byte of an emitted block is taken, the CRC-32C is appended, EMITTED sets and the result ACCEPTED is written. -/
  | blockAccepted
  /-- STAGING_RECORD (R365): The output queue writes a released block into the staging ring as a record, or discards it when the ring is full or unavailable. -/
  | stagingRecord (bad : Bool)
  /-- ILLEGAL_INSTRUCTION (R140): A fetched word that is not a defined instruction raises the ILLEGAL trap. -/
  | illegalInstruction (n : Fin 192)
  /-- IMEM_UE_FETCH (R111): An uncorrectable instruction fetch halts the tiller with HALT_CAUSE 4 and sets HALT_UE. -/
  | imemUeFetch (n : Fin 192)
  /-- ADD (R142): ADD writes ra plus rb to rd. -/
  | add (n : Fin 192) (rd : Fin 32) (ra : Fin 32) (rb : Fin 32)
  /-- SUB (R142): SUB writes ra minus rb to rd. -/
  | sub (n : Fin 192) (rd : Fin 32) (ra : Fin 32) (rb : Fin 32)
  /-- AND (R142): AND writes the bitwise AND of ra and rb. -/
  | and (n : Fin 192) (rd : Fin 32) (ra : Fin 32) (rb : Fin 32)
  /-- OR (R142): OR writes the bitwise OR of ra and rb. -/
  | or (n : Fin 192) (rd : Fin 32) (ra : Fin 32) (rb : Fin 32)
  /-- XOR (R142): XOR writes the bitwise XOR of ra and rb. -/
  | xor (n : Fin 192) (rd : Fin 32) (ra : Fin 32) (rb : Fin 32)
  /-- SLL (R142): SLL shifts ra left by rb[4:0]. -/
  | sll (n : Fin 192) (rd : Fin 32) (ra : Fin 32) (rb : Fin 32)
  /-- SRL (R142): SRL shifts ra right logically by rb[4:0]. -/
  | srl (n : Fin 192) (rd : Fin 32) (ra : Fin 32) (rb : Fin 32)
  /-- SRA (R142): SRA shifts ra right arithmetically by rb[4:0]. -/
  | sra (n : Fin 192) (rd : Fin 32) (ra : Fin 32) (rb : Fin 32)
  /-- SLT (R142): SLT writes 1 if ra is below rb signed. -/
  | slt (n : Fin 192) (rd : Fin 32) (ra : Fin 32) (rb : Fin 32)
  /-- SLTU (R142): SLTU writes 1 if ra is below rb unsigned. -/
  | sltu (n : Fin 192) (rd : Fin 32) (ra : Fin 32) (rb : Fin 32)
  /-- MIN (R142): MIN writes the signed minimum of ra and rb. -/
  | min (n : Fin 192) (rd : Fin 32) (ra : Fin 32) (rb : Fin 32)
  /-- MAX (R142): MAX writes the signed maximum of ra and rb. -/
  | max (n : Fin 192) (rd : Fin 32) (ra : Fin 32) (rb : Fin 32)
  /-- MINU (R142): MINU writes the unsigned minimum of ra and rb. -/
  | minu (n : Fin 192) (rd : Fin 32) (ra : Fin 32) (rb : Fin 32)
  /-- MAXU (R142): MAXU writes the unsigned maximum of ra and rb. -/
  | maxu (n : Fin 192) (rd : Fin 32) (ra : Fin 32) (rb : Fin 32)
  /-- MUL (R142): MUL writes the low 32 bits of the product. -/
  | mul (n : Fin 192) (rd : Fin 32) (ra : Fin 32) (rb : Fin 32)
  /-- MULH (R142): MULH writes the high 32 bits of the signed product. -/
  | mulh (n : Fin 192) (rd : Fin 32) (ra : Fin 32) (rb : Fin 32)
  /-- MULHU (R142): MULHU writes the high 32 bits of the unsigned product. -/
  | mulhu (n : Fin 192) (rd : Fin 32) (ra : Fin 32) (rb : Fin 32)
  /-- DIVU (R142): DIVU writes the truncated unsigned quotient, all ones for a zero divisor. -/
  | divu (n : Fin 192) (rd : Fin 32) (ra : Fin 32) (rb : Fin 32)
  /-- REMU (R142): REMU writes the unsigned remainder, ra for a zero divisor. -/
  | remu (n : Fin 192) (rd : Fin 32) (ra : Fin 32) (rb : Fin 32)
  /-- CMP (R144): CMP sets Z, N, C and V from ra minus rb. -/
  | cmp (n : Fin 192) (ra : Fin 32) (rb : Fin 32)
  /-- TST (R142): TST sets Z and N from ra AND rb and clears C and V. -/
  | tst (n : Fin 192) (ra : Fin 32) (rb : Fin 32)
  /-- SLLI (R143): SLLI shifts ra left by an immediate count. -/
  | slli (til : Fin 192) (rd : Fin 32) (ra : Fin 32) (n : Fin 32)
  /-- SRLI (R143): SRLI shifts ra right logically by an immediate count. -/
  | srli (til : Fin 192) (rd : Fin 32) (ra : Fin 32) (n : Fin 32)
  /-- SRAI (R143): SRAI shifts ra right arithmetically by an immediate count. -/
  | srai (til : Fin 192) (rd : Fin 32) (ra : Fin 32) (n : Fin 32)
  /-- EXTU (R143): EXTU extracts an unsigned bit field of ra given by immediate position and width. -/
  | extu (n : Fin 192) (rd : Fin 32) (ra : Fin 32) (pos : Fin 32) (width : Fin 32)
  /-- CLZ (R142): CLZ writes the count of leading zeros of ra. -/
  | clz (n : Fin 192) (rd : Fin 32) (ra : Fin 32)
  /-- POPC (R142): POPC writes the number of 1 bits in ra. -/
  | popc (n : Fin 192) (rd : Fin 32) (ra : Fin 32)
  /-- ADDS (R142): ADDS writes the clipped signed sum and sets S on a clip. -/
  | adds (n : Fin 192) (rd : Fin 32) (ra : Fin 32) (rb : Fin 32)
  /-- SUBS (R142): SUBS writes the clipped signed difference and sets S on a clip. -/
  | subs (n : Fin 192) (rd : Fin 32) (ra : Fin 32) (rb : Fin 32)
  /-- ADDI (R142): ADDI writes ra plus a sign-extended immediate. -/
  | addi (n : Fin 192) (rd : Fin 32) (ra : Fin 32) (imm : BitVec 16)
  /-- ANDI (R142): ANDI writes ra AND a zero-extended immediate. -/
  | andi (n : Fin 192) (rd : Fin 32) (ra : Fin 32) (imm : BitVec 16)
  /-- ORI (R142): ORI writes ra OR a zero-extended immediate. -/
  | ori (n : Fin 192) (rd : Fin 32) (ra : Fin 32) (imm : BitVec 16)
  /-- XORI (R142): XORI writes ra XOR a zero-extended immediate. -/
  | xori (n : Fin 192) (rd : Fin 32) (ra : Fin 32) (imm : BitVec 16)
  /-- LUI (R142): LUI writes the immediate shifted left by 16. -/
  | lui (n : Fin 192) (rd : Fin 32) (imm : BitVec 16)
  /-- CMPI (R144): CMPI sets Z, N, C and V from ra minus a sign-extended immediate. -/
  | cmpi (n : Fin 192) (ra : Fin 32) (imm : BitVec 16)
  /-- SLTI (R142): SLTI writes 1 if ra is below the signed immediate. -/
  | slti (n : Fin 192) (rd : Fin 32) (ra : Fin 32) (imm : BitVec 16)
  /-- LW (R145): LW loads a 32-bit word from a permitted aligned address, trapping on access, alignment or poison faults. -/
  | lw (n : Fin 192) (rd : Fin 32) (ra : Fin 32) (imm : BitVec 16) (t : Nat)
  /-- SW (R145): SW stores a 32-bit word to a permitted aligned address. -/
  | sw (n : Fin 192) (rs : Fin 32) (ra : Fin 32) (imm : BitVec 16)
  /-- VLD (R145): VLD loads 128 bits from a permitted 16-byte-aligned address. -/
  | vld (n : Fin 192) (vd : Fin 32) (ra : Fin 32) (imm : BitVec 16)
  /-- VST (R145): VST stores 128 bits to DMEM at a 16-byte-aligned address. -/
  | vst (n : Fin 192) (vs : Fin 32) (ra : Fin 32) (imm : BitVec 16)
  /-- VBWL (R149): VBWL loads eight consecutive bins from any index, reading 0 outside the limit. -/
  | vbwl (n : Fin 192) (vd : Fin 32) (ra : Fin 32) (rb : Fin 32)
  /-- BC (R147): BC branches relative to PC when its flag condition holds. -/
  | bc (n : Fin 192) (cond : Fin 16) (off : BitVec 22)
  /-- JAL (R147): JAL writes the return address and jumps relative to PC. -/
  | jal (n : Fin 192) (rd : Fin 32) (off : BitVec 21)
  /-- JALR (R147): JALR writes the return address and jumps to ra plus an immediate. -/
  | jalr (n : Fin 192) (rd : Fin 32) (ra : Fin 32) (imm : BitVec 16)
  /-- VADD (R148): VADD adds lanes with wrap. -/
  | vadd (n : Fin 192) (w : Bool) (vd : Fin 32) (va : Fin 32) (vb : Fin 32)
  /-- VSUB (R148): VSUB subtracts lanes with wrap. -/
  | vsub (n : Fin 192) (w : Bool) (vd : Fin 32) (va : Fin 32) (vb : Fin 32)
  /-- VADDSU (R148): VADDSU adds lanes unsigned with saturation, setting S on a clip. -/
  | vaddsu (n : Fin 192) (w : Bool) (vd : Fin 32) (va : Fin 32) (vb : Fin 32)
  /-- VSUBSU (R148): VSUBSU subtracts lanes unsigned clipped at 0, setting S on a clip. -/
  | vsubsu (n : Fin 192) (w : Bool) (vd : Fin 32) (va : Fin 32) (vb : Fin 32)
  /-- VADDS (R148): VADDS adds lanes signed with saturation. -/
  | vadds (n : Fin 192) (w : Bool) (vd : Fin 32) (va : Fin 32) (vb : Fin 32)
  /-- VSUBS (R148): VSUBS subtracts lanes signed with saturation. -/
  | vsubs (n : Fin 192) (w : Bool) (vd : Fin 32) (va : Fin 32) (vb : Fin 32)
  /-- VMUL (R148): VMUL writes the low half of each lane product. -/
  | vmul (n : Fin 192) (w : Bool) (vd : Fin 32) (va : Fin 32) (vb : Fin 32)
  /-- VMIN (R148): VMIN writes the unsigned lane minimum. -/
  | vmin (n : Fin 192) (w : Bool) (vd : Fin 32) (va : Fin 32) (vb : Fin 32)
  /-- VMAX (R148): VMAX writes the unsigned lane maximum. -/
  | vmax (n : Fin 192) (w : Bool) (vd : Fin 32) (va : Fin 32) (vb : Fin 32)
  /-- VMINS (R148): VMINS writes the signed lane minimum. -/
  | vmins (n : Fin 192) (w : Bool) (vd : Fin 32) (va : Fin 32) (vb : Fin 32)
  /-- VMAXS (R148): VMAXS writes the signed lane maximum. -/
  | vmaxs (n : Fin 192) (w : Bool) (vd : Fin 32) (va : Fin 32) (vb : Fin 32)
  /-- VAND (R148): VAND writes the bitwise AND of two vectors. -/
  | vand (n : Fin 192) (w : Bool) (vd : Fin 32) (va : Fin 32) (vb : Fin 32)
  /-- VOR (R148): VOR writes the bitwise OR of two vectors. -/
  | vor (n : Fin 192) (w : Bool) (vd : Fin 32) (va : Fin 32) (vb : Fin 32)
  /-- VXOR (R148): VXOR writes the bitwise XOR of two vectors. -/
  | vxor (n : Fin 192) (w : Bool) (vd : Fin 32) (va : Fin 32) (vb : Fin 32)
  /-- VCMPEQ (R148): VCMPEQ writes all ones in lanes that are equal. -/
  | vcmpeq (n : Fin 192) (w : Bool) (vd : Fin 32) (va : Fin 32) (vb : Fin 32)
  /-- VCMPGTU (R148): VCMPGTU writes all ones in lanes where va exceeds vb unsigned. -/
  | vcmpgtu (n : Fin 192) (w : Bool) (vd : Fin 32) (va : Fin 32) (vb : Fin 32)
  /-- VCMPGT (R148): VCMPGT writes all ones in lanes where va exceeds vb signed. -/
  | vcmpgt (n : Fin 192) (w : Bool) (vd : Fin 32) (va : Fin 32) (vb : Fin 32)
  /-- VSEL (R148): VSEL selects bits of va or vb under the mask held in vd. -/
  | vsel (n : Fin 192) (vd : Fin 32) (va : Fin 32) (vb : Fin 32)
  /-- VSLLI (R148): VSLLI shifts each lane left by an immediate. -/
  | vslli (til : Fin 192) (w : Bool) (vd : Fin 32) (va : Fin 32) (n : Fin 32)
  /-- VSRLI (R148): VSRLI shifts each lane right logically by an immediate. -/
  | vsrli (til : Fin 192) (w : Bool) (vd : Fin 32) (va : Fin 32) (n : Fin 32)
  /-- VSRAI (R148): VSRAI shifts each lane right arithmetically by an immediate. -/
  | vsrai (til : Fin 192) (w : Bool) (vd : Fin 32) (va : Fin 32) (n : Fin 32)
  /-- VZXL (R148): VZXL zero-extends the low four 16-bit lanes to 32 bits. -/
  | vzxl (n : Fin 192) (vd : Fin 32) (va : Fin 32)
  /-- VZXH (R148): VZXH zero-extends the high four 16-bit lanes to 32 bits. -/
  | vzxh (n : Fin 192) (vd : Fin 32) (va : Fin 32)
  /-- VNARS (R148): VNARS narrows two vectors of 32-bit lanes to 16 bits with saturation. -/
  | vnars (n : Fin 192) (vd : Fin 32) (va : Fin 32) (vb : Fin 32)
  /-- VSPLAT (R148): VSPLAT copies ra into every lane. -/
  | vsplat (n : Fin 192) (w : Bool) (vd : Fin 32) (ra : Fin 32)
  /-- VEXT (R148): VEXT writes one lane of va to rd, zero-extended. -/
  | vext (n : Fin 192) (w : Bool) (rd : Fin 32) (va : Fin 32) (lane : Fin 8)
  /-- VINS (R148): VINS writes ra into one lane of vd. -/
  | vins (n : Fin 192) (w : Bool) (vd : Fin 32) (ra : Fin 32) (lane : Fin 8)
  /-- VRSUM (R148): VRSUM writes the unsigned sum of all lanes. -/
  | vrsum (n : Fin 192) (w : Bool) (rd : Fin 32) (va : Fin 32)
  /-- VRMAXU (R148): VRMAXU writes the largest lane, unsigned. -/
  | vrmaxu (n : Fin 192) (w : Bool) (rd : Fin 32) (va : Fin 32)
  /-- VMACC (R150): VMACC accumulates four positions of an 8-tap matched filter with one clip. -/
  | vmacc (n : Fin 192) (vd : Fin 32) (va : Fin 32) (vb : Fin 32) (p : Fin 2)
  /-- VPIDX (R151): VPIDX updates a running peak value and bin index. -/
  | vpidx (n : Fin 192) (rd : Fin 32) (va : Fin 32) (rb : Fin 32)
  /-- VCENT (R152): VCENT computes a background-subtracted centroid and sets Z when it is empty. -/
  | vcent (n : Fin 192) (rd : Fin 32) (va : Fin 32) (rb : Fin 32)
  /-- VCOAT (R153): VCOAT applies Coates pile-up correction to eight bins and updates the live-exposure state. -/
  | vcoat (n : Fin 192) (vd : Fin 32) (va : Fin 32) (rb : Fin 32)
  /-- FSEND (R154): FSEND pushes a fabric write word into the tiller's fabric write queue, stalling while it is full. -/
  | fsend (n : Fin 192) (ra : Fin 32)
  /-- FSEND_STALL_END (R117): An entry frees in the fabric write queue and a stalled FSEND pushes its word. -/
  | fsendStallEnd (n : Fin 192)
  /-- FRECV_N (R154): FRECV.N takes the oldest message or returns EMPTY at once. -/
  | frecvN (n : Fin 192) (rd : Fin 32)
  /-- FRECV_W (R154): FRECV.W takes the oldest message, stalling until one is present. -/
  | frecvW (n : Fin 192) (rd : Fin 32)
  /-- FRECV_W_COMPLETE (R120): A message arrives and a stalled waiting receive completes with it. -/
  | frecvWComplete (n : Fin 192)
  /-- EMIT (R155): EMIT checks a block's format and ownership and queues it for output-queue admission. -/
  | emit (n : Fin 192) (rd : Fin 32) (ra : Fin 32) (rb : Fin 32)
  /-- NOP (R156): NOP does nothing. -/
  | nop (n : Fin 192)
  /-- TRAP (R156): TRAP raises the SOFT trap. -/
  | trap (n : Fin 192)
  /-- TRET (R156): TRET clears IN_TRAP and resumes at EPC or the next instruction for SOFT. -/
  | tret (n : Fin 192)
  /-- ARET (R156): ARET restores FLAGS, clears IN_ATTN and resumes at ATTN_PC. -/
  | aret (n : Fin 192)
  /-- FENCE (R156): FENCE issues nothing further until every earlier load has returned. -/
  | fence (n : Fin 192)
  /-- RDFL (R156): RDFL writes FLAGS to rd. -/
  | rdfl (n : Fin 192) (rd : Fin 32)
  /-- WRFL (R156): WRFL writes FLAGS from ra[4:0]. -/
  | wrfl (n : Fin 192) (ra : Fin 32)
  /-- PROGRAM_BANK_PROCESS (R181): The reference program takes a bank-ready message, processes the bank into returns and emits the block. -/
  | programBankProcess (n : Fin 192) (t : Nat)
  /-- T_NOW_UPDATE (R176): Every 10 ms the management firmware writes the range-zero temperature into T_NOW. -/
  | tNowUpdate
  /-- EMITTER_ENABLE (R217): Setting EMI_CTRL.EN enables the emitter, entering WAIT, or latching PENDING_ENABLE during discharge. -/
  | emitterEnable
  /-- EMITTER_DISABLE (R218): Clearing EMI_CTRL.EN stops EM_FIRE at once and starts discharge. -/
  | emitterDisable
  /-- FAULT_CLR (R220): A write of EMI_CTRL.FAULT_CLR leaves FAULT when every recorded cause has cleared. -/
  | faultClr
  /-- SHORT_TEST (R214): A write of SHORT_TEST starts one commanded line-test pass while no point cycles run. -/
  | shortTest
  /-- LINE_TEST_STEP (R214): One line-test step drives one line and compares EM_SENSE, marking it OPEN or SHORT. -/
  | lineTestStep (sense : Nat)
  /-- LINE_TEST_PASS_END (R214): A commanded line-test pass ends and raises EMI_TEST_DONE. -/
  | lineTestPassEnd
  /-- CURVE_COMMIT (R207): A write of CURVE_COMMIT requests that the power-curve shadow be copied. -/
  | curveCommit
  /-- CURVE_COMMIT_COPY (R207): The pending curve commit checks monotonicity and copies the table or rejects it. -/
  | curveCommitCopy
  /-- SEED_MAP_WRITE (R201): A host write to a seed-map word is applied, or rejected if it targets the active buffer while point cycles run. -/
  | seedMapWrite (b : Fin 2) (e : Fin 8192) (hi : Bool) (w : Word)
  /-- SWEEP_SYNC (R22): A sweep sync arrives, requesting a seed-map swap at the next boundary and advancing the tilt reference. -/
  | sweepSync (t : Nat)
  /-- CHARGE_CHECK (R208): The EM_FB conversion at t_f minus 40 ns is compared with the setpoint, suppressing an overcharged shot or counting an undercharged one. -/
  | chargeCheck (fb : Fin 4096)
  /-- EM_FIRE_EDGE (R204): An EM_FIRE rising edge fires a pulse, opens a monitor window and is audited by the hedge. -/
  | emFireEdge (t : Nat) (late : Bool)
  /-- DAC_UPDATE (R205): 50 ns after a shot's last edge EM_DAC takes the curve value of the next firing slot. -/
  | dacUpdate
  /-- MONITOR_EDGE (R211): A monitor photodiode edge confirms a pulse inside a window, or counts as rogue outside every window. -/
  | monitorEdge (t : Nat)
  /-- MONITOR_WINDOW_CLOSE (R210): A first-pulse monitor window closes unconfirmed; the shot counts as missed and may fault the emitter. -/
  | monitorWindowClose
  /-- DISCHARGE_COMPLETE (R218): EM_FB falls to the discharge level and the emitter goes to OFF or WAIT. -/
  | dischargeComplete (fb : Fin 4096)
  /-- DIS_TIMEOUT (R218): Discharge has not completed within 2 ms, so the emitter enters FAULT and drops a pending enable. -/
  | disTimeout
  /-- LB_WATCH_ENABLE (R216): Setting EMI_LB_CFG.EN starts the laser-board watch at NORMAL. -/
  | lbWatchEnable
  /-- LB_WATCH_DISABLE (R216): Clearing EMI_LB_CFG.EN stops the watch, returns the stage to NORMAL and clears the LB fault causes. -/
  | lbWatchDisable
  /-- LB_STAGE_RISE (R216): N has stood on the hot side of a threshold for DWELL and the stage rises to WARM or HOT. -/
  | lbStageRise (t : Nat)
  /-- LB_STAGE_FALL (R216): N has stood on the cool side by more than HYST for DWELL and the stage falls one step. -/
  | lbStageFall (t : Nat)
  /-- LB_STALE (R216): No valid thermistor sample for 100 ms sets the stage to HOT with cause LB_STALE. -/
  | lbStale (t : Nat)
  /-- HELM_TICK (R223): Every 25 µs the helm latches inputs, runs the laws and loads the PWM compare shadows. -/
  | helmTick (t : Nat) (hall : Fin 8) (faultLow : Bool)
  /-- ENCODER_TRANSITION (R224): A quadrature transition on HLM_ENC_A or B moves the count, or counts as illegal. -/
  | encoderTransition (a : Bool) (b : Bool) (t : Nat)
  /-- ENCODER_INDEX (R224): A rising edge of HLM_ENC_Z sets or checks the count zero. -/
  | encoderIndex
  /-- FACET_CROSSING (R227): The interpolated spindle angle crosses a facet boundary forward, producing a local sweep sync while LOCKED. -/
  | facetCrossing (t : Nat)
  /-- HELM_ENABLE (R235): Setting HLM_CTRL.EN enables the helm, or latches PENDING_ENABLE during braking. -/
  | helmEnable
  /-- HELM_DISABLE (R235): Clearing HLM_CTRL.EN ends the run condition and starts braking. -/
  | helmDisable
  /-- LAW_COMMIT (R231): A write of LAW_COMMIT requests that the law pages be copied before the next tick. -/
  | lawCommit
  /-- HELM_FAULT_CLEAR (R242): A write of HLM_CTRL.FAULT_CLR clears every fault cause whose condition has cleared. -/
  | helmFaultClear
  /-- TRACE_ARM (R245): A write of TRACE_ARM clears the helm trace buffer and starts recording. -/
  | traceArm
  /-- TRACE_FORCE (R245): A write of TRACE_FORCE triggers the helm trace. -/
  | traceForce
  /-- SPEED_REF_WRITE (R237): A write of TARGET moves ω_ref on, and in LOCKED hands over to L0 and enters SPIN_UP. -/
  | speedRefWrite (w : Word)
  /-- CATCH_MEASURE_END (R236): The 10 ms catch measurement ends and the spindle enters SPIN_UP or brakes a backward spin. -/
  | catchMeasureEnd
  /-- LOCK_ATTEMPT (R238): After LOCK_DWELL passing samples the helm accepts the lock and enters LOCKED, or refuses it and sets a pull. -/
  | lockAttempt
  /-- UNLOCK (R240): Phase error beyond the unlock bound for 16 samples hands over to L0 and returns to LOCKING. -/
  | unlock (t : Nat)
  /-- LOCK_FLAP_RELEASE (R240): A write of 1 to LOCK_FLAP releases the unlock flapping latch. -/
  | lockFlapRelease
  /-- HANDOVER_END (R239): A hand-over's 64 slew-limited samples elapse and HO_ACTIVE clears. -/
  | handoverEnd
  /-- STANDSTILL (R241): Braking reaches standstill for 100 ms; outputs are released, the spindle enters OFF and a pending enable starts SPIN_UP. -/
  | standstill
  /-- BRAKE_TIMEOUT (R241): Braking times out; outputs are released and the spindle coasts in OFF. -/
  | brakeTimeout
  /-- STALL (R237): No encoder edge for 200 ms under at least 25 % drive causes a STALL fault. -/
  | stall
  /-- BRIDGE_FAULT (R242): HLM_FAULT_N low for 1 µs releases all helm outputs and faults spindle and tilt. -/
  | bridgeFault
  /-- HALL_FAULT (R242): Two consecutive judged invalid Hall samples fault the spindle. -/
  | hallFault
  /-- TILT_SENSE (R243): Four consecutive invalid tilt samples fault the tilt. -/
  | tiltSense
  /-- TILT_TRACK (R243): Tracking error above TRACK_TOL for TRACK_DWELL ticks faults the tilt. -/
  | tiltTrack
  /-- HEDGE_ENCODER_COUNT (R256): A quadrature count on the hedge's own encoder inputs updates the frame count and the direction counter. -/
  | hedgeEncoderCount (a : Bool) (b : Bool)
  /-- SPEED_FRAME_END (R255): A 1 ms hedge speed frame completes and speed, encoder cross-check and oscillator checks are evaluated. -/
  | speedFrameEnd (err : Int)
  /-- HEDGE_RELEASE (R252): Release conditions have held for 50 frames, so the hedge enters RELEASED and raises LI_N. -/
  | hedgeRelease
  /-- HEDGE_REQUEST_CHANGE (R252): The release or inhibit request changes and the hedge moves between IDLE and ARMING. -/
  | hedgeRequestChange
  /-- HEDGE_TILT_CONVERSION (R257): Every 10 µs the hedge converts AIN[15] and checks position and field-of-view limits. -/
  | hedgeTiltConversion (code : Fin 1024)
  /-- FOV_DWELL_EXPIRY (R257): The hedge has stayed BLANKED longer than FOV_DWELL and trips FOV. -/
  | fovDwellExpiry
  /-- POWER_CODE_ENTRY (R258): A power-code queue entry arrives and books energy to every zone of its rectangle, tripping ENERGY on excess. -/
  | powerCodeEntry
  /-- CORRECTION_ENTRY (R259): A correction entry reverses the booking of the suppressed shot it corrects. -/
  | correctionEntry
  /-- ENERGY_BUCKET_ROLL (R258): Every 1 ms the current energy bucket completes and the oldest drops out of the window. -/
  | energyBucketRoll
  /-- LI_READBACK (R251): LI_N drive and readback disagree for 2 µs, a diagnostic trip cause. -/
  | liReadback (level : Bool)
  /-- HEDGE_CHANNEL_MISMATCH (R248): The two hedge channels disagree, giving the INTERNAL cause. -/
  | hedgeChannelMismatch
  /-- PWM_GATE (R263): 500 ms after a trip without sufficient braking the hedge gates the helm PWM pads. -/
  | pwmGate
  /-- STRAP_REREAD (R265): Every second the hedge rereads the seal straps and raises STRAP on a float or change. -/
  | strapReread (straps : Fin 64) (floats : Fin 64)
  /-- LIMIT_RECHECK (R266): Every 100 ms the hedge rechecks the CRCs of its limit rows. -/
  | limitRecheck (upset : Bool)
  /-- SEAL_LOCK (R268): A write of HDG_CTRL.LOCK, or the first entry to SPIN-UP, latches the seal lock and makes RWL fields read-only. -/
  | sealLock
  /-- SAFE_RST_LOW_REGISTERED (R270): A filtered low on SAFE_RST_N registers and may start a press or void a release. -/
  | safeRstLowRegistered (t : Nat)
  /-- SAFE_RST_HIGH_REGISTERED (R270): A filtered high on SAFE_RST_N registers and may start a release or end a stuck press. -/
  | safeRstHighRegistered (t : Nat)
  /-- SAFE_RST_STUCK (R270): A press lasts beyond 4 s, so RST_PHASE reads STUCK and the press arms nothing. -/
  | safeRstStuck
  /-- RESET_PAIR_COMPLETE (R270): A release reaches 20 ms, so the latch clears and SAFE-STOP is left if CLEAR holds, or the pair is refused. -/
  | resetPairComplete
  /-- MERIDIAN_ENABLE (R282): Setting MER_CTRL.EN starts the meridian bus, a master listening 10 ms for a conflict. -/
  | meridianEnable
  /-- LISTEN_END (R282): The master's 10 ms listen ends, entering MASTER or ID_CONFLICT. -/
  | listenEnd (t : Nat)
  /-- RT_RESTART (R282): A write of RT_RESTART on the master clears conflicts and restarts ranging. -/
  | rtRestart
  /-- TRIG_SEND (R277): A write of MER_CTRL.TRIG makes a TRIG frame due on the master. -/
  | trigSend
  /-- EPOCH_DUE (R285): An EPOCH frame falls due on the master at its period. -/
  | epochDue (t : Nat)
  /-- PING_DUE (R279): A PING to the next unit falls due every PING_INT. -/
  | pingDue
  /-- FRAME_LAUNCH (R277): A due frame is launched on MER_SYNC when the line is free, in priority order. -/
  | frameLaunch (t : Nat) (a : Nat)
  /-- SWEEP_FRAME (R284): A SWEEP frame is received and scheduled for application. -/
  | sweepFrame (b : Nat)
  /-- EPOCH_FRAME (R285): An EPOCH frame is received and scheduled for application. -/
  | epochFrame (b : Nat)
  /-- PING_FRAME (R279): A slave receives a PING addressed to it and timestamps its edge. -/
  | pingFrame (unit : Fin 8) (b : Nat)
  /-- PONG_LAUNCH (R279): A slave launches its PONG at the first coarse edge at least 1 µs after the PING. -/
  | pongLaunch
  /-- PONG_FRAME (R279): The master receives a PONG, computes the round trip and checks the seed. -/
  | pongFrame (unit : Fin 8) (seed : BitVec 16) (r : BitVec 16) (d : Nat)
  /-- PONG_TIMEOUT (R279): No PONG arrives within 3.5 µs and the round trip is not counted. -/
  | pongTimeout
  /-- DELAY_COMPUTE (R279): After 64 valid PONGs the master computes D16 and sends a DELAY frame. -/
  | delayCompute
  /-- DELAY_FRAME (R280): A slave receives its DELAY frame and starts alignment in RANGING. -/
  | delayFrame (unit : Fin 8) (d16 : BitVec 24) (b : Nat)
  /-- TRIG_FRAME (R278): A TRIG frame is received and scheduled for application. -/
  | trigFrame (b : Nat)
  /-- BAD_FRAME (R276): A frame with a bad CRC or reserved TYPE is discarded and counted. -/
  | badFrame
  /-- FRAME_APPLICATION (R278): At the common application instant a SWEEP, EPOCH or TRIG frame takes effect on each unit. -/
  | frameApplication (t : Nat)
  /-- ALIGNMENT_AVERAGE (R280): A slave completes a 16-frame phase average, schedules phase steps and may enter ALIGNED. -/
  | alignmentAverage
  /-- PHASE_STEP (R280): A slave makes one main PLL phase step toward alignment. -/
  | phaseStep
  /-- MERIDIAN_LOST (R281): No valid master frame for 8 ping intervals puts a slave in LOST. -/
  | meridianLost
  /-- CAPTURE_ENABLE (R296): Setting MER_CAP_CTRL.EN arms the capture engine, or latches PENDING_ENABLE during shutdown. -/
  | captureEnable
  /-- CAPTURE_DISABLE (R296): Clearing EN starts the capture shutdown, discarding the open record. -/
  | captureDisable
  /-- CAPTURE_SHUTDOWN_COMPLETE (R296): Complete records have drained and the capture engine reads disarmed or restarts armed. -/
  | captureShutdownComplete
  /-- CAPTURE_ARM (R296): A write of ARM rearms the capture engine after DONE. -/
  | captureArm
  /-- CAPTURE_FORCE (R288): A write of FORCE is a host capture trigger. -/
  | captureForce (t : Nat)
  /-- CAPTURE_RECORD_COMPLETE (R295): A record is complete and its last byte is written to the ring, raising CAP_RECORD. -/
  | captureRecordComplete
  /-- SEXTANT_ENABLE (R302): Setting SXT_CTRL.EN enables the sextant, or latches PENDING_ENABLE during shutdown. -/
  | sextantEnable
  /-- SEXTANT_DISABLE (R302): Clearing SXT_CTRL.EN aborts the running set and starts the sextant shutdown. -/
  | sextantDisable
  /-- SEXTANT_ARM (R298): A write of SXT_CTRL.ARM arms a measurement set. -/
  | sextantArm
  /-- SEXTANT_START_EDGE (R298): An admitted start edge begins a measurement. -/
  | sextantStartEdge (coarse : Nat) (f : Fin 128) (t : Nat)
  /-- SEXTANT_STOP_EDGE (R300): A stop edge at least 2.5 ns after the start ends a measurement and computes t. -/
  | sextantStopEdge (coarse : Nat) (f : Fin 128) (t : Nat)
  /-- SEXTANT_MEASUREMENT_TIMEOUT (R298): A measurement's stop has not come within SXT_TIMEOUT and it counts as missing. -/
  | sextantMeasurementTimeout
  /-- SEXTANT_SET_COMPLETE (R298): Valid and missing measurements reach N; results latch and SXT_DONE is raised. -/
  | sextantSetComplete
  /-- SXT_GATE_EDGE (R299): An SXT_GATE edge opens or closes the start gate or arms a set. -/
  | sxtGateEdge (level : Bool) (t : Nat)
  /-- CDT_RUN (R300): A write of CDT_RUN builds both sextant tables from the ring oscillator. -/
  | cdtRun
  /-- CDT_RUN_COMPLETE (R300): The table build completes, committing the tables or raising SXT_CDT_REJECT. -/
  | cdtRunComplete (hitsStart : List Nat) (hitsStop : List Nat)
  /-- CDT_COMMIT (R300): A write of CDT_COMMIT copies monotonic shadow tables or rejects them. -/
  | cdtCommit
  /-- ADC_ENABLE (R314): Setting ADC_CTRL.EN starts scan round 0 and restarts every front end. -/
  | adcEnable
  /-- ADC_DISABLE (R314): Clearing ADC_CTRL.EN stops the converter, turns off excitation and clears settle timers. -/
  | adcDisable
  /-- ADC_SAMPLE (R311): A scan entry's conversion is delivered as a sample word to every consumer, with ranging decisions and discard rules applied. `half`: the pin voltage in
  1/128 of a code, before the front end's gain. -/
  | adcSample (half : Int) (t : Nat)
  /-- HOST_URGENT_REQUEST (R313): A write of ADC_URGENT.GO issues a host urgent request. -/
  | hostUrgentRequest (input : Fin 32)
  /-- URGENT_SAMPLE (R312): An urgent request preempts the scan and its sample is delivered to the requester. `half`: as for ADC_SAMPLE. -/
  | urgentSample (half : Int) (t : Nat)
  /-- FE_CONFIG_WRITE (R315): A write of a front end's configuration changes its connection or excitation and restarts its settle timer. -/
  | feConfigWrite (fe : Fin 8) (r : Fin 3) (w : Word) (t : Nat)
  /-- SETTLE_END (R317): A front end's settle timer expires and its samples no longer carry SETTLING. -/
  | settleEnd (fe : Fin 8)
  /-- EXCITATION_PULSE_ON (R316): Pulsed excitation turns on, restarting the settle timer and swapping phase if enabled. -/
  | excitationPulseOn (fe : Fin 8)
  /-- EXCITATION_PULSE_OFF (R316): Pulsed excitation turns off and the sampling window closes. -/
  | excitationPulseOff (fe : Fin 8)
  /-- CURRENT_SWAP (R318): Every SWAP_INT ms continuous excitation swaps its pins and sense polarity. -/
  | currentSwap (fe : Fin 8)
  /-- RANGE_FLAP_RELEASE (R321): A write of 1 to a front end's ADC_FLAP_STATUS bit releases its range latch. -/
  | rangeFlapRelease (fe : Fin 8)
  /-- EXCITATION_FAULT_ENTRY (R322): An excitation pin above 2.55 V for 1 ms enters the fault. -/
  | excitationFaultEntry (fe : Fin 8) (t : Nat)
  /-- EXCITATION_FAULT_CLEAR (R322): An excitation pin below 2.45 V for 1 ms clears the fault. -/
  | excitationFaultClear (fe : Fin 8)
  /-- EXC_FLAP_RELEASE (R322): A write of 1 to EXC_FLAP releases the excitation fault latch. -/
  | excFlapRelease (fe : Fin 8)
  /-- CODE_DENSITY_ITEM (R330): Code-density collection ends and passing channels' new tables are committed. -/
  | codeDensityItem
  /-- RANGE_ZERO_ITEM (R332): After its point cycles the range-zero item computes new bearing offsets and the reference latency. -/
  | rangeZeroItem
  /-- SPAD_SURVEY (R334): The survey completes and masks hot SPADs, or is rejected whole if the module is not dark. -/
  | spadSurvey
  /-- PLAN_END (R328): A calibration plan ends or is aborted; the journal is saved, CAL_DONE is raised and the mode returns. -/
  | planEnd (t : Nat)
  /-- CLR_FIELD (R334): A write of CLR_FIELD in STANDBY discards field mask additions and reloads the fused map. -/
  | clrField
  /-- RZ_DRIFT_ENTRY (R333): |ΔL| above DRIFT_MAX for 1 s raises CAL_RZ_DRIFT and sets RERUN_PENDING. -/
  | rzDriftEntry (t : Nat)
  /-- RZ_DRIFT_CLEAR (R333): |ΔL| below 3/4 of DRIFT_MAX for 1 s clears the drift condition. -/
  | rzDriftClear
  /-- RZ_FLAP_RELEASE (R333): A write of 1 to RZ_FLAP releases the drift flapping latch. -/
  | rzFlapRelease
  /-- RERUN_DUE (R335): A temperature-triggered rerun falls due, starting plan 0x4 or waiting. -/
  | rerunDue
  /-- LEGACY_COMMIT (R336): A write of CAL_LEG_CTRL.COMMIT checks and takes the legacy set in the window. -/
  | legacyCommit
  /-- LEGACY_INTERPOLATION (R337): Every 10 ms the legacy interpolator updates bearing offsets and skew. -/
  | legacyInterpolation
  /-- FUSE_BURN (R340): A write of CAL_FUSE_CTRL with BURN and KEY starts a fuse row burn when permitted. -/
  | fuseBurn (key : Fin 65536)
  /-- FUSE_BURN_COMPLETE (R340): A fuse burn ends OK, SPARE_USED, NO_SPARE or ABORTED_PF. -/
  | fuseBurnComplete (bad : Nat)
  /-- JOURNAL_SAVE (R342): A write of CAL_JRN_CTRL.SAVE starts a journal save, or waits while PF_N is low. -/
  | journalSave
  /-- JOURNAL_SAVE_COMPLETE (R342): A journal save commits or fails its check. -/
  | journalSaveComplete (ok : Bool)
  /-- SENSOR_CONVERSION (R343): A temperature sensor is read in the slow round or fast polling, including periodic test conversions. -/
  | sensorConversion (k : Fin 24) (v : Int)
  /-- SENSOR_FAIL (R344): A sensor fails STUCK, RANGE or DISAGREE and its used reading becomes CRITICAL plus 1 °C. -/
  | sensorFail (k : Fin 24) (cause : Fin 3)
  /-- READMIT (R344): THM_SNS_CTRL.READMIT in STANDBY or SAFE-STOP readmits a failed sensor. -/
  | readmit (k : Fin 32)
  /-- RETIRE (R345): THM_SNS_CTRL.RETIRE in STANDBY or SAFE-STOP retires a sensor. -/
  | retire (k : Fin 32)
  /-- THERMAL_INDICATOR_ENTRY (R347): The stage temperature at a threshold for DWELL enters WARM, HOT or CRITICAL with its action. -/
  | thermalIndicatorEntry (inds : Fin 8) (t : Nat)
  /-- THERMAL_INDICATOR_EXIT (R347): The stage temperature below threshold minus HYST for DWELL exits an indicator. -/
  | thermalIndicatorExit (inds : Fin 8)
  /-- THM_FLAP_RELEASE (R347): A write of 1 to THM_STATUS.FLAP releases every latched indicator and rail monitor. -/
  | thmFlapRelease
  /-- THERMAL_TRIP (R349): Three consecutive reads at or above TRIP record the sensor and force RESET. -/
  | thermalTrip (k : Fin 24)
  /-- THERMAL_TRIP_RELEASE (R349): Every compared sensor below CRITICAL minus HYST for DWELL releases the TRIP RESET. -/
  | thermalTripRelease
  /-- COMPENSATION_UPDATE (R350): Every 10 ms temperature compensation updates its trims, clamping as needed. -/
  | compensationUpdate (rings : List Nat) (rails : List Nat)
  /-- RAIL_MONITOR_ENTRY (R351): A rail more than 5 % off nominal for 1 ms sets UV or OV. -/
  | railMonitorEntry (r : Fin 6) (mv : Nat) (t : Nat)
  /-- RAIL_MONITOR_CLEAR (R351): A rail within 4 % of nominal for 1 ms clears UV or OV. -/
  | railMonitorClear (r : Fin 6) (mv : Nat)
  /-- SHADOW_PARITY_CHECK (R413): The fuse shadow parity is checked and SHADOW_OK clears on an error. -/
  | shadowParityCheck (error : Bool)
  /-- MEMORY_ENABLE (R373): Setting MEM_CTRL.EN enables the memory controller with the configured or retained values. -/
  | memoryEnable
  /-- SELF_REFRESH_ENTRY (R371): Writing SR to 1 drains ports, closes banks and enters self-refresh. -/
  | selfRefreshEntry
  /-- SELF_REFRESH_EXIT (R371): Writing SR to 0, or a port request, starts self-refresh exit. -/
  | selfRefreshExit
  /-- SELF_REFRESH_ENTRY_COMPLETE (R371): Self-refresh entry completes, and a pending exit follows at once. -/
  | selfRefreshEntryComplete
  /-- SELF_REFRESH_EXIT_COMPLETE (R371): Self-refresh exit completes with catch-up refreshes and waiting requests proceed. -/
  | selfRefreshExitComplete
  /-- INIT (R375): A write of MEM_CTRL.INIT starts filling local DRAM with zeros and valid checks. -/
  | init
  /-- INIT_COMPLETE (R375): DRAM initialisation completes and INIT_BUSY clears. -/
  | initComplete
  /-- MEMORY_REQUEST_SERVED (R361): A command slot serves a port request by the arbitration order, reporting address errors and ECC outcomes. -/
  | memoryRequestServed (p : Fin 8) (idx : Nat) (link : Fin 4) (found : Fin 3)
  /-- REQUEST_URGENT (R362): A request has waited LAT_TGT and becomes urgent. -/
  | requestUrgent (p : Fin 8) (idx : Nat)
  /-- PANIC_ENTRY (R363): A port's queue or age condition held for 8 CK cycles puts it in panic. -/
  | panicEntry (p : Fin 8) (t : Nat)
  /-- PANIC_EXIT (R363): A port's relief condition held for 8 CK cycles takes it out of panic. -/
  | panicExit (p : Fin 8)
  /-- REFRESH (R369): A refresh falls due and is issued, postponed or forced. -/
  | refresh (ch : Fin 4) (bank : Fin 16) (panicWaits : Bool)
  /-- REFRESH_RATE_POLL (R370): Every POLL ms each channel's refresh-rate report is read and TEMP_HI updated. -/
  | refreshRatePoll (ch : Fin 4) (code : Fin 16) (rate : Nat) (t : Nat)
  /-- HOTSPOT_WINDOW (R384): A window of 65,536 activates ends and the bank share updates the HOTSPOT state. -/
  | hotspotWindow (ch : Fin 4) (bank : Fin 16) (share : Nat) (t : Nat)
  /-- SCRUB_PASS_READ (R378): The DRAM patrol scrubber reads the next 64-byte unit. -/
  | scrubPassRead (found : Fin 3)
  /-- MR_COMMAND (R379): A write of MEM_MR_CMD.GO issues a mode-register write or read. -/
  | mrCommand (read : Bool) (ch : Fin 4) (rank : Bool) (ma : Byte) (op : Byte)
  /-- MR_COMMAND_COMPLETE (R379): A mode-register command completes and BUSY clears. -/
  | mrCommandComplete (data : Byte)
  /-- TRAINING_SWEEP (R380): A write of MEM_TRN_CTRL.GO runs a delay sweep. -/
  | trainingSweep
  /-- TRAINING_SWEEP_COMPLETE (R380): A training sweep completes with its pass masks and raises MEM_TRAIN_DONE. -/
  | trainingSweepComplete (masks : List (BitVec 16))
  /-- CONFIG_REQUEST (R390): A PCIe configuration request is answered. -/
  | configRequest (write : Bool) (r : CfgReg) (w : Word)
  /-- BAR0_REQUEST (R391): A PCIe request to BAR0 becomes register accesses or is aborted. -/
  | bar0Request (write : Bool) (a : BitVec 26) (len : Nat) (data : List Byte) (ep : Bool) (t : Nat)
  /-- BAR2_REQUEST (R392): A PCIe request to BAR2 accesses local DRAM through port HOST_IN. -/
  | bar2Request (write : Bool) (o : Nat) (len : Nat) (data : List Byte) (ep : Bool)
  /-- PCIE_RESET (R390): A Hot Reset, link down or Function Level Reset returns the configuration space to reset. -/
  | pcieReset (down : Bool)
  /-- LINK_CHANGE (R409): PCIE_UP or a port's UP changes. -/
  | linkChange (who : Fin 3) (up : Bool) (width : Fin 8) (speed : Fin 4)
  /-- ETH_FRAME_RECEIVED (R394): An Ethernet frame is received, timestamped if 802.1AS, passed to firmware or discarded. -/
  | ethFrameReceived (e : Fin 2) (f : List Byte) (fcsBad : Bool) (t : Nat)
  /-- PACKETISER_RECORD (R395): The packetiser reads the next staging record and adds it to a packet or discards it. -/
  | packetiserRecord (bad : Bool)
  /-- PACKET_SEND (R396): A point packet is sent when the next entry would not fit, or on a failing block. -/
  | packetSend (e : Fin 2)
  /-- FLUSH_TIMER (R396): FLUSH µs after its first entry a point packet is sent. -/
  | flushTimer (e : Fin 2)
  /-- PTP_STEP (R398): A write of LNK_PTP_STEP steps the 802.1AS clock or starts slewing. -/
  | ptpStep (step : Word) (t : Nat)
  /-- PTP_RATE (R398): A write of LNK_PTP_RATE sets the 802.1AS clock rate. -/
  | ptpRate (rate : Word) (t : Nat)
  /-- SYNC_SET (R399): A write of SYNC_SET sets SYNCED. -/
  | syncSet
  /-- SYNC_HOLDOVER (R399): No RATE or STEP write for HOLD clears SYNCED and enters holdover. -/
  | syncHoldover
  /-- PTP_SNAP (R408): A write of LNK_PTP_CTRL.SNAP latches the clock into LNK_PTP_TIME. -/
  | ptpSnap (t : Nat)
  /-- PTP_TS_READ (R400): A read of LNK_PTP_TS_INFO removes the head timestamp. -/
  | ptpTsRead
  /-- LOS_ENTRY (R401): Received amplitude below 60 mV for 1 µs enters LOS. -/
  | losEntry (l : Fin 4) (idle : Bool) (t : Nat)
  /-- LOS_EXIT (R401): Received amplitude above 90 mV for 10 µs exits LOS. -/
  | losExit (l : Fin 4)
  /-- LOL_ENTRY (R401): CDR unlock or frequency error for 4 µs enters LOL. -/
  | lolEntry (l : Fin 4) (t : Nat)
  /-- LOL_EXIT (R401): CDR locked for 100 µs exits LOL. -/
  | lolExit (l : Fin 4)
  /-- LANE_FLAP_RELEASE (R401): A write of 1 to a lane's FLAP releases its monitor latch. -/
  | laneFlapRelease (l : Fin 4)
  /-- LOOPBACK_SELECT (R402): A write of LNK_LANE_TEST selects a loopback and PRBS while the lane's user is disabled. -/
  | loopbackSelect (l : Fin 4) (loop : Fin 8) (prbs : Fin 4)
  /-- TX_ENABLE (R403): Setting TX_EN starts the transmit half, or latches a pending request during shutdown. -/
  | txEnable (e : Fin 2)
  /-- TX_DISABLE (R403): Clearing TX_EN finishes the frame in flight and powers the transmitter down. -/
  | txDisable (e : Fin 2)
  /-- RX_ENABLE (R403): Setting RX_EN starts the receive half, or latches a pending request. -/
  | rxEnable (e : Fin 2)
  /-- RX_DISABLE (R403): Clearing RX_EN powers the receiver down. -/
  | rxDisable (e : Fin 2)
  /-- LANE_SHUTDOWN_COMPLETE (R403): A lane half reaches its sleep state and a pending enable restarts it. -/
  | laneShutdownComplete (e : Fin 2) (k : Fin 2)
  /-- LPI_ENTRY (R403): A transmit direction idle for 10 µs enters Low Power Idle. -/
  | lpiEntry (e : Fin 2) (k : Fin 2)
  /-- LPI_WAKE (R403): A direction in LPI wakes for a queued frame. -/
  | lpiWake (e : Fin 2) (k : Fin 2)
  /-- MAILBOX_CLAIM (R404): A write of LNK_MBOX_OWNER claims or releases the mailbox. -/
  | mailboxClaim (m : Fin 4) (v : Word)
  /-- MAILBOX_OWNERSHIP_LAPSE (R404): Ownership lapses 10 s after the owner's last access, or at a PCIe link down. -/
  | mailboxOwnershipLapse
  /-- MAILBOX_DATAGRAM (R405): A UDP mailbox request is claimed, run and answered by the firmware. -/
  | mailboxDatagram (e : Fin 2) (cmd : Word) (arg : Word) (buf : List Byte) (t : Nat)
  /-- FW_VERSION (R405): FW_VERSION returns the running image version. -/
  | fwVersion (m : Fin 4) (tag : Byte)
  /-- SERIAL_LO (R405): SERIAL_LO returns the low half of the unit serial. -/
  | serialLo (m : Fin 4) (tag : Byte)
  /-- SERIAL_HI (R405): SERIAL_HI returns the high half of the unit serial. -/
  | serialHi (m : Fin 4) (tag : Byte)
  /-- FLASH_READ (R405): FLASH_READ copies 4 KiB of flash into LNK_MBOX_BUF. -/
  | flashRead (m : Fin 4) (tag : Byte)
  /-- UPDATE_BEGIN (R421): UPDATE_BEGIN opens an update session staging at BOOT_STAGE_BASE. -/
  | updateBegin (m : Fin 4) (tag : Byte)
  /-- UPDATE_DATA (R421): UPDATE_DATA copies buffer bytes into staging at the expected offset. -/
  | updateData (m : Fin 4) (tag : Byte)
  /-- UPDATE_END (R421): UPDATE_END checks the staged image and starts the slot write. -/
  | updateEnd (m : Fin 4) (tag : Byte) (t : Nat)
  /-- UPDATE_CONFIRM (R424): UPDATE_CONFIRM ends the settings freeze and sets the update record CONFIRMED. -/
  | updateConfirm (m : Fin 4) (tag : Byte) (t : Nat)
  /-- I2C_XFER (R407): I2C_XFER starts a write-then-read I2C transfer through the buffer. -/
  | i2cXfer (m : Fin 4) (tag : Byte)
  /-- I2C_TRANSFER_COMPLETE (R407): An I2C transfer ends with its result. -/
  | i2cTransferComplete (result : Fin 5) (index : BitVec 16) (data : List Byte)
  /-- LOG_READ (R432): LOG_READ copies 64 logbook entries into LNK_MBOX_BUF. -/
  | logRead (m : Fin 4) (tag : Byte)
  /-- SETTINGS_SAVE (R430): SETTINGS_SAVE stores the settings table and options as a settings record. -/
  | settingsSave (m : Fin 4) (tag : Byte)
  /-- SPI_WRITE (R406): A WRITE frame on the management SPI queues a register write. -/
  | spiWrite (ofs : BitVec 16) (d : Word) (crc : Byte) (t : Nat)
  /-- SPI_READ (R406): A READ frame on the management SPI returns a register value. -/
  | spiRead (ofs : BitVec 16)
  /-- SPI_WINDOW (R406): A WINDOW frame sets the SPI register window. -/
  | spiWindow (win : BitVec 16) (crc : Byte)
  /-- SPI_STATUS (R406): A STATUS frame returns the SPI slave status. -/
  | spiStatus
  /-- SPI_BAD_FRAME (R406): A SPI frame with a bad CRC, offset or opcode is discarded when CS_N rises. -/
  | spiBadFrame
  /-- START_WATCHDOG (R417): Step 0xA not reached within 8 s forces a reset with cause 0x7. -/
  | startWatchdog (t : Nat)
  /-- FAIL_COUNT_EXPIRY (R418): A failed start leaves BOOT_FAIL.COUNT 10 minutes after it occurred. -/
  | failCountExpiry (t : Nat)
  /-- CD_DUE_RERUN (R415): With CD_DUE set, the code-density plan runs again once STANDBY is free of forced conditions. -/
  | cdDueRerun
  /-- SLOT_WRITE_COMPLETE (R423): The loader finishes writing and verifying the image slot and sets the update record UNCONFIRMED. -/
  | slotWriteComplete (verified : Bool) (t : Nat)
  /-- HEADLAND_SEND (R427): A write of BOOT_HDL_CTRL.SEND starts sending the staged image downstream. -/
  | headlandSend
  /-- HEADLAND_CONFIRM (R429): A write of BOOT_HDL_CTRL.CONFIRM confirms locally and sends a CONFIRM packet downstream. -/
  | headlandConfirm (t : Nat)
  /-- HEADLAND_OFFER (R428): A received OFFER starts receiving an image, or is answered ABORT. -/
  | headlandOffer (good : Bool) (hops : Fin 8) (total : Word)
  /-- HEADLAND_DATA (R428): A received DATA packet is staged, acknowledged and relayed. -/
  | headlandData (good : Bool) (q : BitVec 16) (ofs : Word) (payload : List Byte)
  /-- HEADLAND_END (R428): A received END completes the transfer, checks the image and starts the slot write. -/
  | headlandEnd (good : Bool) (q : BitVec 16) (t : Nat)
  /-- HEADLAND_ACK (R427): A received ACK frees the sender's window. -/
  | headlandAck (q : BitVec 16)
  /-- HEADLAND_NAK (R427): A received NAK makes the sender resend from the expected packet. -/
  | headlandNak (q : BitVec 16)
  /-- HEADLAND_ABORT (R427): A received ABORT ends the transfer with failure. -/
  | headlandAbort (downstream : Bool)
  /-- HEADLAND_RESULT (R428): A received RESULT packet is recorded or forwarded upstream. -/
  | headlandResult (h : Byte) (result : Byte)
  /-- HEADLAND_CONFIRM_PACKET (R429): A received CONFIRM packet carries out UPDATE_CONFIRM and is relayed. -/
  | headlandConfirmPacket (hops : Fin 8) (t : Nat)
  /-- HEADLAND_RESEND_TIMEOUT (R427): A packet unacknowledged for 1 ms is resent, or the transfer aborts after eight resends. -/
  | headlandResendTimeout
  /-- HEADLAND_AUTO_START (R429): With AUTO_START, a unit whose slot was written cold-starts once its transfers have ended. -/
  | headlandAutoStart
  /-- LOGBOOK_ENTRY_PROGRAM (R432): The next queued logbook entry is programmed into flash, erasing a sector first when needed. -/
  | logbookEntryProgram
  /-- EVENT_RAISE (R436): A source's raise reaches the event controller, setting its pending bit and queuing logbook and trace records. -/
  | eventRaise (t : Nat)
  /-- PENDING_CLEAR (R437): A write of EVT_PEND clears pending bits and reposts a message for a vector still active. -/
  | pendingClear (j : Fin 16) (w : Word)
  /-- EVENT_FORCE (R438): A write of EVT_FORCE.GO raises the named event as if its source had. -/
  | eventForce (e : Fin 512)
  /-- COUNTER_CONFIG_WRITE (R443): A write of OBS_CNT_CFG changing EVT_NUM or INST clears the counter and selects its new event. -/
  | counterConfigWrite (k : Fin 1024) (w : Word)
  /-- COUNTER_LIVE_READ (R444): A read of OBS_CNT_LIVE_LO returns the low bits and latches the high bits. -/
  | counterLiveRead (k : Fin 1024)
  /-- CLEAR_ALL (R450): A write of OBS_CTRL.CLEAR_ALL clears every counter and OBS_SAT. -/
  | clearAll
  /-- SNAP (R445): A write of OBS_CTRL.SNAP requests a snapshot of all counters. -/
  | snap (t : Nat)
  /-- SNAPSHOT_PERIOD (R445): The periodic snapshot timer requests a snapshot. -/
  | snapshotPeriod (t : Nat)
  /-- SNAPSHOT_COPY (R446): The central reader finishes copying the latched values into OBS_CNT_SNAP and raises OBS_SNAPSHOT. -/
  | snapshotCopy
  /-- PRECISE_SAMPLE (R447): A tiller's sample count reaches 0 and the retiring instruction is sampled. -/
  | preciseSample (n : Fin 192) (pc : BitVec 15) (word : Word) (wait : Nat) (lat : Nat) (cycle : Word)
  /-- TRACE_RECORD (R448): A trace record is written to its routed destination or dropped. -/
  | traceRecord
  /-- TRACE_CLR (R449): A write of OBS_TRC_CFG.CLR empties the on-chip trace buffer. -/
  | traceClr
  /-- TEST_EN_HIGH (R459): TEST_EN high holds the device in RESET and the hedge in IDLE. -/
  | testEnHigh
  /-- BYPASS (R459): The JTAG BYPASS instruction. -/
  | bypass
  /-- IDCODE (R459): The JTAG IDCODE instruction returns the identification code. -/
  | idcode
  /-- SAMPLE_PRELOAD (R459): The JTAG SAMPLE/PRELOAD instruction. -/
  | samplePreload
  /-- EXTEST (R459): The JTAG EXTEST instruction, with the hedge holding LI_N low. -/
  | extest
  /-- EXTEST_PULSE (R459): The JTAG EXTEST_PULSE instruction on the lane pins. -/
  | extestPulse
  /-- EXTEST_TRAIN (R459): The JTAG EXTEST_TRAIN instruction on the lane pins. -/
  | extestTrain
  /-- CLAMP (R459): The JTAG CLAMP instruction. -/
  | clamp
  /-- HIGHZ (R459): The JTAG HIGHZ instruction. -/
  | highz
  /-- MAIN_PLL_RELOCK (R261): The main PLL regains lock after a lock loss that was not a REF_SEL relock, ending the hedge CLOCK cause and restarting the stopped domains. -/
  | mainPllRelock
  /-- TILLER_PLL_RELOCK (R105): The tiller PLL regains lock and TIL_LOCK reads 1 again, with the tillers staying halted until the host restarts them. -/
  | tillerPllRelock
  /-- RELOCK_TIMEOUT (R26): The PLLs have not relocked within 200 µs of an accepted REF_SEL change, which counts as a lock loss under Table AR-3 and R25. -/
  | relockTimeout (main : Bool) (tiller : Bool)
  /-- LINE_FAULT_CLEAR (R215): A W1C write to EMI_ROW_SHORT, EMI_ROW_OPEN or EMI_COL_FAULT clears line fault bits, returning shorted lines to the masks and ending the emitter fault derate source when none remain. -/
  | lineFaultClear (r : Fin 3) (w : Word)
  /-- LB_FLAP_RELEASE (R216): A write of 1 to EMI_STATUS.LB_FLAP releases the laser-board flapping latch, after which the stage follows its ordinary rules again. -/
  | lbFlapRelease
  /-- PANIC_FLAP_RELEASE (R363): A write of 1 to a port's MEM_PORT_STATUS.FLAP releases its latched panic, after which the port follows its panic entry and exit rules again. -/
  | panicFlapRelease (p : Fin 8)
  /-- TEMP_FLAP_RELEASE (R370): A write of 1 to MEM_STATUS.TEMP_FLAP releases the held TEMP_HI bits and the held faster refresh rate. -/
  | tempFlapRelease
  /-- HOT_FLAP_RELEASE (R384): A write of 1 to MEM_STATUS.HOT_FLAP releases the held HOTSPOT bits. -/
  | hotFlapRelease
  /-- PWM_PERIOD_START (R234): A helm PWM counter reaches 0, and the compare shadows loaded by the tick take effect at the bridge pins. -/
  | pwmPeriodStart (tilt : Bool)
  /-- START_STEP_COMPLETE (R413): A timed step of the start sequence (loader or image check, BIST, load, journal apply) completes or fails, and the sequence moves to its next step or to its failure path. -/
  | startStepComplete (ok : Bool) (failing : BitVec 4) (nominal : Bool) (t : Nat)
  /-- FRAME_LEFT_PORT (R395): A point packet frame has left its Ethernet port, and the packetiser advances MEM_PB_RPTR past the records it carried. -/
  | frameLeftPort (e : Fin 2) (marked : Bool) (seqId : BitVec 16) (t : Nat)
  /-- PCIE_COMPLETION (R376): A PCIe completion arrives for a read of a host-memory window, delivering the data, poisoned when the completion carries the EP bit. -/
  | pcieCompletion (data : List Byte) (ep : Bool)
  /-- SETTINGS_SAVE_COMPLETE (R424): A settings record save finishes its erase, write, check and commit, and the DONE response for SETTINGS_SAVE is posted. -/
  | settingsSaveComplete (ok : Bool)
  deriving DecidableEq, Repr

end Sys2Proof
end

