-- ==== Sys2Proof/Decode.lean ====
section
/-! DEFINITION. Words that spell commands. No row of the command table gives bits: the block has no encoding of its commands, which
reach it as bus accesses, frames, pin changes and completions. -/

namespace Sys2Proof

/-- The command that the `nbits` low bits of `w` spell: none, since no row gives bits. -/
def decodeTableWord (_nbits _w : Nat) : Option Instr := none

end Sys2Proof
end

