-- ==== Sys2Proof/Config.lean ====
section
/-! DEFINITION. What the spec leaves to the part or leaves open: free values, with no body, so that nothing can be proved
about which value they take. Each is named in the assumption log. -/

namespace Sys2Proof

/-- The stream of free values: the value the device shows where the spec leaves it open, drawn afresh with the counter
`State.freeIx`, reduced by the reader to the width the spec gives it. -/
opaque Config.freeValue : Nat → Nat

/-- The byte that DRAM address `a` holds after the `k`-th loss of its contents (R372): nothing constrains it. -/
opaque Config.lostByte : Nat → Nat → Byte

/-- Whether the inline check of that 64-bit word fails (R372). -/
opaque Config.lostCheck : Nat → Nat → Bool

/-- JTAG identification bits [11:1], the manufacturer code (R459): the spec does not give them. -/
opaque Config.jtagManufacturer : BitVec 11

/-- The level that boundary cell `k` drives after the `n`-th SAMPLE/PRELOAD (R459): no command carries what is shifted in. -/
opaque Config.boundaryCell : Nat → Nat → Bool

/-- The ROM's public key `k` of four, a point of P-256 (chapter 15, Table BU-4): the spec does not give them. -/
opaque Config.romKey : Nat → Nat × Nat

/-- Bytes of management SRAM, the limit of a section's extent (R420): the spec does not give it. -/
opaque Config.mgmtSram : Nat

/-- The settings migration section of an image (R424): its bytes, and the format, table and options of the record it converts;
none where the section does not name the format. The spec does not give the section's form. -/
opaque Config.migrate : List Byte → Nat → List (Nat × Word) → Word → Option (List (Nat × Word) × Word)

/-- The fused curvature trim of the bandgap: coefficients of its quadratic in T − 25 °C, T in 0.1 °C, least power first, and the least
and greatest code (Table CT-5): the fuse rows' layout and the trim's range are not given. -/
opaque Config.bandgapCoef : Nat → Int
opaque Config.bandgapMin : Int
opaque Config.bandgapMax : Int

/-- The fused trim of the calibration oscillator at a range-zero temperature in 0.1 °C, before its clamp, and its range (Table CT-5): not
given. -/
opaque Config.oscTrim : Int → Int
opaque Config.oscMin : Int
opaque Config.oscMax : Int

/-- Vendor ID, Subsystem IDs and Revision ID of the PCIe function (R389): the fuse identity rows' layout is not given. -/
opaque Config.vendorId : BitVec 16
opaque Config.subsystemIds : BitVec 32
opaque Config.revisionId : BitVec 8

/-- The unit's serial and the MAC address of Ethernet port `e`, as the fuse identity rows give them (Tables CT-3, BU-10, LK-7): the
rows' layout is not given. -/
opaque Config.unitSerial : BitVec 64
opaque Config.ethMac : Nat → BitVec 48

end Sys2Proof
end

