-- ==== Sys2Proof/Machine/Fields.lean ====
section
/-! DEFINITION. Names for the registers and fields of the spec's register tables: `R.<REGISTER>` is an address,
`F.<REGISTER>_<FIELD>` an address with a bit range. Array registers take their index, which wraps
at the array's length, so that an indexed name stays inside its array. -/

namespace Sys2Proof.Machine

/-- A field: byte address of its register and its bits [hi:lo]. -/
structure Fld where
  addr : Nat
  hi : Nat
  lo : Nat
  deriving DecidableEq, Repr

/-- SYS_ID (00, Table SC-3). -/
def R.SYS_ID : Nat := 0
def F.SYS_ID_HW_TYPE : Fld := ⟨R.SYS_ID, 31, 0⟩
/-- SYS_STEPPING (00, Table SC-3). -/
def R.SYS_STEPPING : Nat := 4
def F.SYS_STEPPING_MAJOR : Fld := ⟨R.SYS_STEPPING, 7, 4⟩
def F.SYS_STEPPING_MINOR : Fld := ⟨R.SYS_STEPPING, 3, 0⟩
/-- SYS_MODE (01, Table AR-9). -/
def R.SYS_MODE : Nat := 0x10
def F.SYS_MODE_WARM : Fld := ⟨R.SYS_MODE, 15, 15⟩
def F.SYS_MODE_BOOT_DONE : Fld := ⟨R.SYS_MODE, 14, 14⟩
def F.SYS_MODE_STOPPING : Fld := ⟨R.SYS_MODE, 13, 13⟩
def F.SYS_MODE_CAUSE : Fld := ⟨R.SYS_MODE, 12, 8⟩
def F.SYS_MODE_PREV_MODE : Fld := ⟨R.SYS_MODE, 7, 4⟩
def F.SYS_MODE_MODE : Fld := ⟨R.SYS_MODE, 3, 0⟩
/-- SYS_MODE_CFG (01, Table AR-9). -/
def R.SYS_MODE_CFG : Nat := 0x14
def F.SYS_MODE_CFG_DERATE_TIL : Fld := ⟨R.SYS_MODE_CFG, 10, 10⟩
def F.SYS_MODE_CFG_DERATE_EMI : Fld := ⟨R.SYS_MODE_CFG, 9, 9⟩
def F.SYS_MODE_CFG_AUTO_RECAL : Fld := ⟨R.SYS_MODE_CFG, 8, 8⟩
def F.SYS_MODE_CFG_SPIN_TIMEOUT : Fld := ⟨R.SYS_MODE_CFG, 7, 0⟩
/-- SYS_CLK_CFG (01, Table AR-5). -/
def R.SYS_CLK_CFG : Nat := 0x20
def F.SYS_CLK_CFG_REF_SEL : Fld := ⟨R.SYS_CLK_CFG, 1, 0⟩
/-- SYS_CLK_STATUS (01, Table AR-5). -/
def R.SYS_CLK_STATUS : Nat := 0x24
def F.SYS_CLK_STATUS_HDG_XCHK_OK : Fld := ⟨R.SYS_CLK_STATUS, 4, 4⟩
def F.SYS_CLK_STATUS_REF_PRESENT : Fld := ⟨R.SYS_CLK_STATUS, 3, 3⟩
def F.SYS_CLK_STATUS_MGMT_LOCK : Fld := ⟨R.SYS_CLK_STATUS, 2, 2⟩
def F.SYS_CLK_STATUS_TIL_LOCK : Fld := ⟨R.SYS_CLK_STATUS, 1, 1⟩
def F.SYS_CLK_STATUS_MAIN_LOCK : Fld := ⟨R.SYS_CLK_STATUS, 0, 0⟩
/-- SYS_PEND_STATUS (01, Table AR-17). -/
def R.SYS_PEND_STATUS : Nat := 0x30
def F.SYS_PEND_STATUS_MODE_SCAN : Fld := ⟨R.SYS_PEND_STATUS, 7, 7⟩
def F.SYS_PEND_STATUS_SXT : Fld := ⟨R.SYS_PEND_STATUS, 6, 6⟩
def F.SYS_PEND_STATUS_CAPTURE : Fld := ⟨R.SYS_PEND_STATUS, 5, 5⟩
def F.SYS_PEND_STATUS_MEM_SR : Fld := ⟨R.SYS_PEND_STATUS, 4, 4⟩
def F.SYS_PEND_STATUS_LNK_RX : Fld := ⟨R.SYS_PEND_STATUS, 3, 3⟩
def F.SYS_PEND_STATUS_LNK_TX : Fld := ⟨R.SYS_PEND_STATUS, 2, 2⟩
def F.SYS_PEND_STATUS_HLM : Fld := ⟨R.SYS_PEND_STATUS, 1, 1⟩
def F.SYS_PEND_STATUS_EMI : Fld := ⟨R.SYS_PEND_STATUS, 0, 0⟩
/-- SYS_PB_CFG (06, Table EP-7). -/
def R.SYS_PB_CFG : Nat := 0x40
def F.SYS_PB_CFG_TIME_SRC : Fld := ⟨R.SYS_PB_CFG, 0, 0⟩
/-- SYS_MBOX_CMD (01, Table AR-12). -/
def R.SYS_MBOX_CMD : Nat := 0x100
def F.SYS_MBOX_CMD_TAG : Fld := ⟨R.SYS_MBOX_CMD, 23, 16⟩
def F.SYS_MBOX_CMD_GROUP : Fld := ⟨R.SYS_MBOX_CMD, 15, 8⟩
def F.SYS_MBOX_CMD_CODE : Fld := ⟨R.SYS_MBOX_CMD, 7, 0⟩
/-- SYS_MBOX_ARG (01, Table AR-12). -/
def R.SYS_MBOX_ARG : Nat := 0x104
def F.SYS_MBOX_ARG_ARG : Fld := ⟨R.SYS_MBOX_ARG, 31, 0⟩
/-- SYS_MBOX_RESP (01, Table AR-12). -/
def R.SYS_MBOX_RESP : Nat := 0x108
def F.SYS_MBOX_RESP_TAG : Fld := ⟨R.SYS_MBOX_RESP, 23, 16⟩
def F.SYS_MBOX_RESP_STATUS : Fld := ⟨R.SYS_MBOX_RESP, 15, 12⟩
def F.SYS_MBOX_RESP_MODE : Fld := ⟨R.SYS_MBOX_RESP, 11, 8⟩
def F.SYS_MBOX_RESP_DETAIL : Fld := ⟨R.SYS_MBOX_RESP, 7, 0⟩
/-- SYS_MBOX_DATA (01, Table AR-12). -/
def R.SYS_MBOX_DATA : Nat := 0x10c
def F.SYS_MBOX_DATA_DATA : Fld := ⟨R.SYS_MBOX_DATA, 31, 0⟩
/-- EVT_CFG (16, Table EV-3). -/
def R.EVT_CFG (i : Nat) : Nat := 0x10000 + 4 * (i % 512)
def F.EVT_CFG_LOG (i : Nat) : Fld := ⟨R.EVT_CFG i, 31, 31⟩
def F.EVT_CFG_TRACE (i : Nat) : Fld := ⟨R.EVT_CFG i, 30, 30⟩
def F.EVT_CFG_FAULT (i : Nat) : Fld := ⟨R.EVT_CFG i, 29, 29⟩
def F.EVT_CFG_EN (i : Nat) : Fld := ⟨R.EVT_CFG i, 28, 28⟩
def F.EVT_CFG_ROUTE (i : Nat) : Fld := ⟨R.EVT_CFG i, 5, 0⟩
/-- EVT_PEND (16, Table EV-3). -/
def R.EVT_PEND (i : Nat) : Nat := 0x10800 + 4 * (i % 16)
def F.EVT_PEND_PEND (i : Nat) : Fld := ⟨R.EVT_PEND i, 31, 0⟩
/-- EVT_ACTIVE (16, Table EV-3). -/
def R.EVT_ACTIVE (i : Nat) : Nat := 0x10840 + 4 * (i % 16)
def F.EVT_ACTIVE_ACTIVE (i : Nat) : Fld := ⟨R.EVT_ACTIVE i, 31, 0⟩
/-- EVT_VEC_STATUS (16, Table EV-3). -/
def R.EVT_VEC_STATUS : Nat := 0x10880
def F.EVT_VEC_STATUS_SUM : Fld := ⟨R.EVT_VEC_STATUS, 31, 0⟩
/-- EVT_PIN_STATUS (16, Table EV-3). -/
def R.EVT_PIN_STATUS : Nat := 0x10884
def F.EVT_PIN_STATUS_FAULT : Fld := ⟨R.EVT_PIN_STATUS, 2, 2⟩
def F.EVT_PIN_STATUS_IRQ1 : Fld := ⟨R.EVT_PIN_STATUS, 1, 1⟩
def F.EVT_PIN_STATUS_IRQ0 : Fld := ⟨R.EVT_PIN_STATUS, 0, 0⟩
/-- EVT_FORCE (16, Table EV-3). -/
def R.EVT_FORCE : Nat := 0x10888
def F.EVT_FORCE_GO : Fld := ⟨R.EVT_FORCE, 31, 31⟩
def F.EVT_FORCE_EVENT : Fld := ⟨R.EVT_FORCE, 8, 0⟩
/-- EVT_NEXT (16, Table EV-3). -/
def R.EVT_NEXT : Nat := 0x1088c
def F.EVT_NEXT_VALID : Fld := ⟨R.EVT_NEXT, 31, 31⟩
def F.EVT_NEXT_EVENT : Fld := ⟨R.EVT_NEXT, 8, 0⟩
/-- DET_CTRL (02, Table DT-7). -/
def R.DET_CTRL : Nat := 0x100000
def F.DET_CTRL_MASK_COMMIT : Fld := ⟨R.DET_CTRL, 2, 2⟩
def F.DET_CTRL_PROBE_START : Fld := ⟨R.DET_CTRL, 1, 1⟩
def F.DET_CTRL_BIAS_EN : Fld := ⟨R.DET_CTRL, 0, 0⟩
/-- DET_STATUS (02, Table DT-7). -/
def R.DET_STATUS : Nat := 0x100004
def F.DET_STATUS_BIAS_FLAP : Fld := ⟨R.DET_STATUS, 7, 7⟩
def F.DET_STATUS_TEMP_STALE : Fld := ⟨R.DET_STATUS, 6, 6⟩
def F.DET_STATUS_BIAS_LIMIT : Fld := ⟨R.DET_STATUS, 5, 5⟩
def F.DET_STATUS_BIAS_HIGH : Fld := ⟨R.DET_STATUS, 4, 4⟩
def F.DET_STATUS_BIAS_LOW : Fld := ⟨R.DET_STATUS, 3, 3⟩
def F.DET_STATUS_BIAS_SETTLED : Fld := ⟨R.DET_STATUS, 2, 2⟩
def F.DET_STATUS_COMMIT_PENDING : Fld := ⟨R.DET_STATUS, 1, 1⟩
def F.DET_STATUS_PROBE_BUSY : Fld := ⟨R.DET_STATUS, 0, 0⟩
/-- DET_SILENT_CNT (02, Table DT-7). -/
def R.DET_SILENT_CNT : Nat := 0x100008
def F.DET_SILENT_CNT_COUNT : Fld := ⟨R.DET_SILENT_CNT, 10, 0⟩
/-- DET_QUENCH_CFG (02, Table DT-7). -/
def R.DET_QUENCH_CFG : Nat := 0x100010
def F.DET_QUENCH_CFG_DEAD_TIME : Fld := ⟨R.DET_QUENCH_CFG, 5, 0⟩
/-- DET_COINC_CFG (02, Table DT-7). -/
def R.DET_COINC_CFG : Nat := 0x100014
def F.DET_COINC_CFG_WINDOW : Fld := ⟨R.DET_COINC_CFG, 1, 0⟩
/-- DET_BIAS_CFG (02, Table DT-7). -/
def R.DET_BIAS_CFG : Nat := 0x100020
def F.DET_BIAS_CFG_SLEW : Fld := ⟨R.DET_BIAS_CFG, 20, 17⟩
def F.DET_BIAS_CFG_TRACK_EN : Fld := ⟨R.DET_BIAS_CFG, 16, 16⟩
def F.DET_BIAS_CFG_VEX : Fld := ⟨R.DET_BIAS_CFG, 15, 8⟩
/-- DET_BIAS_TC (02, Table DT-7). -/
def R.DET_BIAS_TC : Nat := 0x100024
def F.DET_BIAS_TC_TC : Fld := ⟨R.DET_BIAS_TC, 15, 0⟩
/-- DET_BIAS_LIM (02, Table DT-7). -/
def R.DET_BIAS_LIM : Nat := 0x100028
def F.DET_BIAS_LIM_VMAX : Fld := ⟨R.DET_BIAS_LIM, 25, 16⟩
def F.DET_BIAS_LIM_VMIN : Fld := ⟨R.DET_BIAS_LIM, 9, 0⟩
/-- DET_BIAS_STATUS (02, Table DT-7). -/
def R.DET_BIAS_STATUS : Nat := 0x10002c
def F.DET_BIAS_STATUS_VHV_SET_CODE : Fld := ⟨R.DET_BIAS_STATUS, 27, 16⟩
def F.DET_BIAS_STATUS_VSPAD_MEAS : Fld := ⟨R.DET_BIAS_STATUS, 15, 0⟩
/-- DET_BIAS_TARGET (02, Table DT-7). -/
def R.DET_BIAS_TARGET : Nat := 0x100030
def F.DET_BIAS_TARGET_TDET : Fld := ⟨R.DET_BIAS_TARGET, 31, 16⟩
def F.DET_BIAS_TARGET_TARGET : Fld := ⟨R.DET_BIAS_TARGET, 15, 0⟩
/-- DET_BIAS_VBD (02, Table DT-7). -/
def R.DET_BIAS_VBD : Nat := 0x100034
def F.DET_BIAS_VBD_VBD0 : Fld := ⟨R.DET_BIAS_VBD, 15, 0⟩
/-- DET_BIAS_MON_CFG (02, Table DT-7). -/
def R.DET_BIAS_MON_CFG : Nat := 0x100038
def F.DET_BIAS_MON_CFG_DWELL : Fld := ⟨R.DET_BIAS_MON_CFG, 23, 16⟩
def F.DET_BIAS_MON_CFG_HYST : Fld := ⟨R.DET_BIAS_MON_CFG, 15, 8⟩
def F.DET_BIAS_MON_CFG_TOL : Fld := ⟨R.DET_BIAS_MON_CFG, 7, 0⟩
/-- DET_PROBE_CFG (02, Table DT-8). -/
def R.DET_PROBE_CFG : Nat := 0x100040
def F.DET_PROBE_CFG_CHANNEL : Fld := ⟨R.DET_PROBE_CFG, 26, 16⟩
def F.DET_PROBE_CFG_SPAD : Fld := ⟨R.DET_PROBE_CFG, 15, 12⟩
def F.DET_PROBE_CFG_GATE : Fld := ⟨R.DET_PROBE_CFG, 11, 0⟩
/-- DET_PROBE_COUNT (02, Table DT-8). -/
def R.DET_PROBE_COUNT : Nat := 0x100044
def F.DET_PROBE_COUNT_COUNT : Fld := ⟨R.DET_PROBE_COUNT, 31, 0⟩
/-- DET_CH_CFG (02, Table DT-9). -/
def R.DET_CH_CFG (i : Nat) : Nat := 0x101000 + 4 * (i % 1152)
def F.DET_CH_CFG_TRIM_ACT (i : Nat) : Fld := ⟨R.DET_CH_CFG i, 31, 28⟩
def F.DET_CH_CFG_SPAD_CNT (i : Nat) : Fld := ⟨R.DET_CH_CFG i, 24, 20⟩
def F.DET_CH_CFG_SILENT (i : Nat) : Fld := ⟨R.DET_CH_CFG i, 19, 19⟩
def F.DET_CH_CFG_K_EFF (i : Nat) : Fld := ⟨R.DET_CH_CFG i, 18, 16⟩
def F.DET_CH_CFG_TRIM (i : Nat) : Fld := ⟨R.DET_CH_CFG i, 11, 8⟩
def F.DET_CH_CFG_K_MODE (i : Nat) : Fld := ⟨R.DET_CH_CFG i, 4, 4⟩
def F.DET_CH_CFG_K_HOST (i : Nat) : Fld := ⟨R.DET_CH_CFG i, 2, 0⟩
/-- DET_SPAD_MASK (02, Table DT-9). -/
def R.DET_SPAD_MASK (i : Nat) : Nat := 0x104000 + 4 * (i % 576)
def F.DET_SPAD_MASK_MASK_HI (i : Nat) : Fld := ⟨R.DET_SPAD_MASK i, 31, 16⟩
def F.DET_SPAD_MASK_MASK_LO (i : Nat) : Fld := ⟨R.DET_SPAD_MASK i, 15, 0⟩
/-- DET_SPAD_MASK_ACT (02, Table DT-9). -/
def R.DET_SPAD_MASK_ACT (i : Nat) : Nat := 0x105000 + 4 * (i % 576)
def F.DET_SPAD_MASK_ACT_MASK_HI (i : Nat) : Fld := ⟨R.DET_SPAD_MASK_ACT i, 31, 16⟩
def F.DET_SPAD_MASK_ACT_MASK_LO (i : Nat) : Fld := ⟨R.DET_SPAD_MASK_ACT i, 15, 0⟩
/-- TDC_CTRL (02, Table DT-10). -/
def R.TDC_CTRL : Nat := 0x200000
def F.TDC_CTRL_COMMIT : Fld := ⟨R.TDC_CTRL, 1, 1⟩
def F.TDC_CTRL_ENABLE : Fld := ⟨R.TDC_CTRL, 0, 0⟩
/-- TDC_STATUS (02, Table DT-10). -/
def R.TDC_STATUS : Nat := 0x200004
def F.TDC_STATUS_REJECT_CH : Fld := ⟨R.TDC_STATUS, 28, 18⟩
def F.TDC_STATUS_COMMIT_PENDING : Fld := ⟨R.TDC_STATUS, 17, 17⟩
def F.TDC_STATUS_TEST_ACTIVE : Fld := ⟨R.TDC_STATUS, 16, 16⟩
def F.TDC_STATUS_DLL_LOCK : Fld := ⟨R.TDC_STATUS, 15, 0⟩
/-- TDC_EPOCH_CFG (02, Table DT-10). -/
def R.TDC_EPOCH_CFG : Nat := 0x200010
def F.TDC_EPOCH_CFG_EPOCH_OFS : Fld := ⟨R.TDC_EPOCH_CFG, 5, 0⟩
/-- TDC_TEST_CFG (02, Table DT-10). -/
def R.TDC_TEST_CFG : Nat := 0x200014
def F.TDC_TEST_CFG_SRC : Fld := ⟨R.TDC_TEST_CFG, 1, 0⟩
/-- TDC_CNT_SEL (02, Table DT-10). -/
def R.TDC_CNT_SEL : Nat := 0x200020
def F.TDC_CNT_SEL_CHANNEL : Fld := ⟨R.TDC_CNT_SEL, 10, 0⟩
/-- TDC_CNT_LOST (02, Table DT-10). -/
def R.TDC_CNT_LOST : Nat := 0x200024
def F.TDC_CNT_LOST_COUNT : Fld := ⟨R.TDC_CNT_LOST, 31, 0⟩
/-- TDC_CNT_OVF (02, Table DT-10). -/
def R.TDC_CNT_OVF : Nat := 0x200028
def F.TDC_CNT_OVF_COUNT : Fld := ⟨R.TDC_CNT_OVF, 31, 0⟩
/-- TDC_CNT_EARLY (02, Table DT-10). -/
def R.TDC_CNT_EARLY : Nat := 0x20002c
def F.TDC_CNT_EARLY_COUNT : Fld := ⟨R.TDC_CNT_EARLY, 31, 0⟩
/-- TDC_CNT_CLR (02, Table DT-10). -/
def R.TDC_CNT_CLR : Nat := 0x200030
def F.TDC_CNT_CLR_ALL : Fld := ⟨R.TDC_CNT_CLR, 1, 1⟩
def F.TDC_CNT_CLR_SEL : Fld := ⟨R.TDC_CNT_CLR, 0, 0⟩
/-- TDC_SNOOP_CFG (02, Table DT-10). -/
def R.TDC_SNOOP_CFG : Nat := 0x200040
def F.TDC_SNOOP_CFG_ARM : Fld := ⟨R.TDC_SNOOP_CFG, 16, 16⟩
def F.TDC_SNOOP_CFG_KIND_ALL : Fld := ⟨R.TDC_SNOOP_CFG, 12, 12⟩
def F.TDC_SNOOP_CFG_CHANNEL : Fld := ⟨R.TDC_SNOOP_CFG, 10, 0⟩
/-- TDC_SNOOP_STATUS (02, Table DT-10). -/
def R.TDC_SNOOP_STATUS : Nat := 0x200044
def F.TDC_SNOOP_STATUS_FULL : Fld := ⟨R.TDC_SNOOP_STATUS, 9, 9⟩
def F.TDC_SNOOP_STATUS_COUNT : Fld := ⟨R.TDC_SNOOP_STATUS, 8, 0⟩
/-- TDC_DLL_TRIM (02, Table DT-10). -/
def R.TDC_DLL_TRIM (i : Nat) : Nat := 0x200100 + 4 * (i % 16)
def F.TDC_DLL_TRIM_TRIM (i : Nat) : Fld := ⟨R.TDC_DLL_TRIM i, 7, 0⟩
/-- TDC_QDROP (02, Table DT-10). -/
def R.TDC_QDROP (i : Nat) : Nat := 0x200400 + 4 * (i % 192)
def F.TDC_QDROP_COUNT (i : Nat) : Fld := ⟨R.TDC_QDROP i, 31, 0⟩
/-- TDC_CH_CFG (02, Table DT-11). -/
def R.TDC_CH_CFG (i : Nat) : Nat := 0x201000 + 4 * (i % 1152)
def F.TDC_CH_CFG_ZONE (i : Nat) : Fld := ⟨R.TDC_CH_CFG i, 24, 16⟩
def F.TDC_CH_CFG_SKEW (i : Nat) : Fld := ⟨R.TDC_CH_CFG i, 7, 0⟩
/-- TDC_SNOOP_WORD (02, Table DT-11). -/
def R.TDC_SNOOP_WORD (i : Nat) : Nat := 0x204000 + 8 * (i % 256)
def F.TDC_SNOOP_WORD_WORD (i : Nat) : Fld := ⟨R.TDC_SNOOP_WORD i, 31, 0⟩
/-- TDC_SNOOP_RAW (02, Table DT-11). -/
def R.TDC_SNOOP_RAW (i : Nat) : Nat := 0x204004 + 8 * (i % 256)
def F.TDC_SNOOP_RAW_RAW (i : Nat) : Fld := ⟨R.TDC_SNOOP_RAW i, 31, 0⟩
/-- TDC_LUT (02, Table DT-11). -/
def R.TDC_LUT (i : Nat) (j : Nat) : Nat := 0x208000 + 0x10 * (i % 1152) + 4 * (j % 4)
def F.TDC_LUT_E3 (i : Nat) (j : Nat) : Fld := ⟨R.TDC_LUT i j, 28, 24⟩
def F.TDC_LUT_E2 (i : Nat) (j : Nat) : Fld := ⟨R.TDC_LUT i j, 20, 16⟩
def F.TDC_LUT_E1 (i : Nat) (j : Nat) : Fld := ⟨R.TDC_LUT i j, 12, 8⟩
def F.TDC_LUT_E0 (i : Nat) (j : Nat) : Fld := ⟨R.TDC_LUT i j, 4, 0⟩
/-- HIS_STATUS (03, Table HF-8). -/
def R.HIS_STATUS : Nat := 0x300000
def F.HIS_STATUS_SETTINGS_PENDING : Fld := ⟨R.HIS_STATUS, 26, 26⟩
def F.HIS_STATUS_RUNNING : Fld := ⟨R.HIS_STATUS, 25, 25⟩
def F.HIS_STATUS_CAL_RECIPE : Fld := ⟨R.HIS_STATUS, 24, 24⟩
def F.HIS_STATUS_PC_INDEX : Fld := ⟨R.HIS_STATUS, 23, 0⟩
/-- HIS_RECIPE (03, Table HF-8). -/
def R.HIS_RECIPE : Nat := 0x300010
def F.HIS_RECIPE_H : Fld := ⟨R.HIS_RECIPE, 14, 8⟩
def F.HIS_RECIPE_P : Fld := ⟨R.HIS_RECIPE, 7, 0⟩
/-- HIS_RECIPE_CAL (03, Table HF-8). -/
def R.HIS_RECIPE_CAL : Nat := 0x300014
def F.HIS_RECIPE_CAL_FIRE : Fld := ⟨R.HIS_RECIPE_CAL, 16, 16⟩
def F.HIS_RECIPE_CAL_H : Fld := ⟨R.HIS_RECIPE_CAL, 14, 8⟩
def F.HIS_RECIPE_CAL_P : Fld := ⟨R.HIS_RECIPE_CAL, 7, 0⟩
/-- HIS_KERNEL_W (03, Table HF-8). -/
def R.HIS_KERNEL_W : Nat := 0x300020
def F.HIS_KERNEL_W_W7 : Fld := ⟨R.HIS_KERNEL_W, 31, 0⟩
/-- HIS_KERNEL_CFG (03, Table HF-8). -/
def R.HIS_KERNEL_CFG : Nat := 0x300024
def F.HIS_KERNEL_CFG_CENTRE : Fld := ⟨R.HIS_KERNEL_CFG, 15, 8⟩
def F.HIS_KERNEL_CFG_LEN : Fld := ⟨R.HIS_KERNEL_CFG, 3, 0⟩
/-- HIS_THR_CFG (03, Table HF-8). -/
def R.HIS_THR_CFG : Nat := 0x300028
def F.HIS_THR_CFG_ACOEF : Fld := ⟨R.HIS_THR_CFG, 27, 16⟩
def F.HIS_THR_CFG_B : Fld := ⟨R.HIS_THR_CFG, 15, 0⟩
/-- HIS_FIND_CFG (03, Table HF-8). -/
def R.HIS_FIND_CFG : Nat := 0x30002c
def F.HIS_FIND_CFG_FIXWIN : Fld := ⟨R.HIS_FIND_CFG, 16, 16⟩
def F.HIS_FIND_CFG_BLANK : Fld := ⟨R.HIS_FIND_CFG, 15, 8⟩
def F.HIS_FIND_CFG_MINSEP : Fld := ⟨R.HIS_FIND_CFG, 3, 0⟩
/-- HIS_FIXWIN (03, Table HF-8). -/
def R.HIS_FIXWIN (i : Nat) : Nat := 0x300030 + 4 * (i % 3)
def F.HIS_FIXWIN_EN (i : Nat) : Fld := ⟨R.HIS_FIXWIN i, 16, 16⟩
def F.HIS_FIXWIN_START (i : Nat) : Fld := ⟨R.HIS_FIXWIN i, 15, 0⟩
/-- HIS_VIEW (03, Table HF-8). -/
def R.HIS_VIEW : Nat := 0x300040
def F.HIS_VIEW_FURROW : Fld := ⟨R.HIS_VIEW, 7, 0⟩
/-- HIS_ECC_CE_CNT (03, Table HF-8). -/
def R.HIS_ECC_CE_CNT : Nat := 0x300050
def F.HIS_ECC_CE_CNT_COUNT : Fld := ⟨R.HIS_ECC_CE_CNT, 31, 0⟩
/-- HIS_ECC_CE_THR (03, Table HF-8). -/
def R.HIS_ECC_CE_THR : Nat := 0x300054
def F.HIS_ECC_CE_THR_LIMIT : Fld := ⟨R.HIS_ECC_CE_THR, 15, 0⟩
/-- HIS_ECC_UE_CNT (03, Table HF-8). -/
def R.HIS_ECC_UE_CNT : Nat := 0x300058
def F.HIS_ECC_UE_CNT_COUNT : Fld := ⟨R.HIS_ECC_UE_CNT, 31, 0⟩
/-- HIS_LATE_CNT (03, Table HF-8). -/
def R.HIS_LATE_CNT : Nat := 0x300060
def F.HIS_LATE_CNT_COUNT : Fld := ⟨R.HIS_LATE_CNT, 31, 0⟩
/-- HIS_LATE_WORD_CNT (03, Table HF-8). -/
def R.HIS_LATE_WORD_CNT : Nat := 0x300064
def F.HIS_LATE_WORD_CNT_COUNT : Fld := ⟨R.HIS_LATE_WORD_CNT, 31, 0⟩
/-- HIS_LAST_LATE (03, Table HF-8). -/
def R.HIS_LAST_LATE : Nat := 0x300068
def F.HIS_LAST_LATE_CHANNEL : Fld := ⟨R.HIS_LAST_LATE, 10, 0⟩
/-- HIS_FURROW_VIEW (03, Table HF-8). -/
def R.HIS_FURROW_VIEW (i : Nat) : Nat := 0x380000 + 4 * (i % 8192)
def F.HIS_FURROW_VIEW_WORD (i : Nat) : Fld := ⟨R.HIS_FURROW_VIEW i, 31, 0⟩
/-- TIL_CTRL (04, Table TA-10). -/
def R.TIL_CTRL (i : Nat) : Nat := 0x400000 + 0x1000 * (i % 192)
def F.TIL_CTRL_MEM_INIT (i : Nat) : Fld := ⟨R.TIL_CTRL i, 3, 3⟩
def F.TIL_CTRL_STEP (i : Nat) : Fld := ⟨R.TIL_CTRL i, 2, 2⟩
def F.TIL_CTRL_HALT (i : Nat) : Fld := ⟨R.TIL_CTRL i, 1, 1⟩
def F.TIL_CTRL_RUN (i : Nat) : Fld := ⟨R.TIL_CTRL i, 0, 0⟩
/-- TIL_STATUS (04, Table TA-10). -/
def R.TIL_STATUS (i : Nat) : Nat := 0x400004 + 0x1000 * (i % 192)
def F.TIL_STATUS_HALT_CAUSE (i : Nat) : Fld := ⟨R.TIL_STATUS i, 18, 16⟩
def F.TIL_STATUS_IN_TRAP (i : Nat) : Fld := ⟨R.TIL_STATUS i, 8, 8⟩
def F.TIL_STATUS_IN_ATTN (i : Nat) : Fld := ⟨R.TIL_STATUS i, 7, 7⟩
def F.TIL_STATUS_POISON_SEEN (i : Nat) : Fld := ⟨R.TIL_STATUS i, 6, 6⟩
def F.TIL_STATUS_EMITTED (i : Nat) : Fld := ⟨R.TIL_STATUS i, 5, 5⟩
def F.TIL_STATUS_OWN_BANK (i : Nat) : Fld := ⟨R.TIL_STATUS i, 4, 4⟩
def F.TIL_STATUS_STATE (i : Nat) : Fld := ⟨R.TIL_STATUS i, 2, 0⟩
/-- TIL_CFG (04, Table TA-10). -/
def R.TIL_CFG (i : Nat) : Nat := 0x400008 + 0x1000 * (i % 192)
def F.TIL_CFG_SAMPLE_EN (i : Nat) : Fld := ⟨R.TIL_CFG i, 3, 3⟩
def F.TIL_CFG_MSG_ATTN (i : Nat) : Fld := ⟨R.TIL_CFG i, 2, 2⟩
def F.TIL_CFG_POISON_ZERO (i : Nat) : Fld := ⟨R.TIL_CFG i, 1, 1⟩
def F.TIL_CFG_TRAP_MODE (i : Nat) : Fld := ⟨R.TIL_CFG i, 0, 0⟩
/-- TIL_PC (04, Table TA-10). -/
def R.TIL_PC (i : Nat) : Nat := 0x40000c + 0x1000 * (i % 192)
def F.TIL_PC_WORD (i : Nat) : Fld := ⟨R.TIL_PC i, 14, 2⟩
/-- TIL_TRAP_VEC (04, Table TA-10). -/
def R.TIL_TRAP_VEC (i : Nat) : Nat := 0x400010 + 0x1000 * (i % 192)
def F.TIL_TRAP_VEC_WORD (i : Nat) : Fld := ⟨R.TIL_TRAP_VEC i, 14, 2⟩
/-- TIL_ATTN_VEC (04, Table TA-10). -/
def R.TIL_ATTN_VEC (i : Nat) : Nat := 0x400014 + 0x1000 * (i % 192)
def F.TIL_ATTN_VEC_WORD (i : Nat) : Fld := ⟨R.TIL_ATTN_VEC i, 14, 2⟩
/-- TIL_ATTN_CFG (04, Table TA-10). -/
def R.TIL_ATTN_CFG (i : Nat) : Nat := 0x400018 + 0x1000 * (i % 192)
def F.TIL_ATTN_CFG_DL_ALARM (i : Nat) : Fld := ⟨R.TIL_ATTN_CFG i, 15, 0⟩
/-- TIL_TRAP_CAUSE (04, Table TA-10). -/
def R.TIL_TRAP_CAUSE (i : Nat) : Nat := 0x400020 + 0x1000 * (i % 192)
def F.TIL_TRAP_CAUSE_CAUSE (i : Nat) : Fld := ⟨R.TIL_TRAP_CAUSE i, 4, 0⟩
/-- TIL_EPC (04, Table TA-10). -/
def R.TIL_EPC (i : Nat) : Nat := 0x400024 + 0x1000 * (i % 192)
def F.TIL_EPC_PC (i : Nat) : Fld := ⟨R.TIL_EPC i, 31, 0⟩
/-- TIL_TRAP_ADDR (04, Table TA-10). -/
def R.TIL_TRAP_ADDR (i : Nat) : Nat := 0x400028 + 0x1000 * (i % 192)
def F.TIL_TRAP_ADDR_ADDR (i : Nat) : Fld := ⟨R.TIL_TRAP_ADDR i, 31, 0⟩
/-- TIL_BKPT (04, Table TA-10). -/
def R.TIL_BKPT (i : Nat) : Nat := 0x400030 + 0x1000 * (i % 192)
def F.TIL_BKPT_EN (i : Nat) : Fld := ⟨R.TIL_BKPT i, 31, 31⟩
def F.TIL_BKPT_WORD (i : Nat) : Fld := ⟨R.TIL_BKPT i, 14, 2⟩
/-- TIL_EVT_CAUSE (04, Table TA-10). -/
def R.TIL_EVT_CAUSE (i : Nat) : Nat := 0x400040 + 0x1000 * (i % 192)
def F.TIL_EVT_CAUSE_CAUSE (i : Nat) : Fld := ⟨R.TIL_EVT_CAUSE i, 7, 0⟩
/-- TIL_EVT_EN (04, Table TA-10). -/
def R.TIL_EVT_EN (i : Nat) : Nat := 0x400044 + 0x1000 * (i % 192)
def F.TIL_EVT_EN_EN (i : Nat) : Fld := ⟨R.TIL_EVT_EN i, 7, 0⟩
/-- TIL_CNT_DROPPED (04, Table TA-10). -/
def R.TIL_CNT_DROPPED (i : Nat) : Nat := 0x400050 + 0x1000 * (i % 192)
def F.TIL_CNT_DROPPED_COUNT (i : Nat) : Fld := ⟨R.TIL_CNT_DROPPED i, 31, 0⟩
/-- TIL_CNT_EMIT (04, Table TA-10). -/
def R.TIL_CNT_EMIT (i : Nat) : Nat := 0x400054 + 0x1000 * (i % 192)
def F.TIL_CNT_EMIT_COUNT (i : Nat) : Fld := ⟨R.TIL_CNT_EMIT i, 31, 0⟩
/-- TIL_CNT_STALE_EMIT (04, Table TA-10). -/
def R.TIL_CNT_STALE_EMIT (i : Nat) : Nat := 0x400058 + 0x1000 * (i % 192)
def F.TIL_CNT_STALE_EMIT_COUNT (i : Nat) : Fld := ⟨R.TIL_CNT_STALE_EMIT i, 31, 0⟩
/-- TIL_CNT_FWQ_REJ (04, Table TA-10). -/
def R.TIL_CNT_FWQ_REJ (i : Nat) : Nat := 0x40005c + 0x1000 * (i % 192)
def F.TIL_CNT_FWQ_REJ_COUNT (i : Nat) : Fld := ⟨R.TIL_CNT_FWQ_REJ i, 31, 0⟩
/-- TIL_CNT_CAND_STALE (04, Table TA-10). -/
def R.TIL_CNT_CAND_STALE (i : Nat) : Nat := 0x400060 + 0x1000 * (i % 192)
def F.TIL_CNT_CAND_STALE_COUNT (i : Nat) : Fld := ⟨R.TIL_CNT_CAND_STALE i, 31, 0⟩
/-- TIL_ECC_CE_CNT (04, Table TA-10). -/
def R.TIL_ECC_CE_CNT (i : Nat) : Nat := 0x400064 + 0x1000 * (i % 192)
def F.TIL_ECC_CE_CNT_COUNT (i : Nat) : Fld := ⟨R.TIL_ECC_CE_CNT i, 31, 0⟩
/-- TIL_ECC_UE_CNT (04, Table TA-10). -/
def R.TIL_ECC_UE_CNT (i : Nat) : Nat := 0x400068 + 0x1000 * (i % 192)
def F.TIL_ECC_UE_CNT_COUNT (i : Nat) : Fld := ⟨R.TIL_ECC_UE_CNT i, 31, 0⟩
/-- TIL_LOAD_CFG (04, Table TA-11). -/
def R.TIL_LOAD_CFG : Nat := 0x4c0000
def F.TIL_LOAD_CFG_BCAST : Fld := ⟨R.TIL_LOAD_CFG, 0, 0⟩
/-- TIL_SEL (04, Table TA-11). -/
def R.TIL_SEL (i : Nat) : Nat := 0x4c0010 + 4 * (i % 6)
def F.TIL_SEL_SEL (i : Nat) : Fld := ⟨R.TIL_SEL i, 31, 0⟩
/-- TIL_GROUP_CTRL (04, Table TA-11). -/
def R.TIL_GROUP_CTRL : Nat := 0x4c0030
def F.TIL_GROUP_CTRL_HALT : Fld := ⟨R.TIL_GROUP_CTRL, 1, 1⟩
def F.TIL_GROUP_CTRL_RUN : Fld := ⟨R.TIL_GROUP_CTRL, 0, 0⟩
/-- TIL_ECC_CE_THR (04, Table TA-11). -/
def R.TIL_ECC_CE_THR : Nat := 0x4c0040
def F.TIL_ECC_CE_THR_LIMIT : Fld := ⟨R.TIL_ECC_CE_THR, 15, 0⟩
/-- TIL_HALTED (04, Table TA-11). -/
def R.TIL_HALTED (i : Nat) : Nat := 0x4c0050 + 4 * (i % 6)
def F.TIL_HALTED_NOT_RUN (i : Nat) : Fld := ⟨R.TIL_HALTED i, 31, 0⟩
/-- TIL_OQ_STATUS (04, Table TA-11). -/
def R.TIL_OQ_STATUS : Nat := 0x4c0070
def F.TIL_OQ_STATUS_FREE : Fld := ⟨R.TIL_OQ_STATUS, 16, 0⟩
/-- TIL_OQ_STALL_CNT (04, Table TA-11). -/
def R.TIL_OQ_STALL_CNT : Nat := 0x4c0074
def F.TIL_OQ_STALL_CNT_COUNT : Fld := ⟨R.TIL_OQ_STALL_CNT, 31, 0⟩
/-- EMI_CTRL (07, Table EM-6). -/
def R.EMI_CTRL : Nat := 0x600000
def F.EMI_CTRL_SHORT_TEST : Fld := ⟨R.EMI_CTRL, 3, 3⟩
def F.EMI_CTRL_CURVE_COMMIT : Fld := ⟨R.EMI_CTRL, 2, 2⟩
def F.EMI_CTRL_FAULT_CLR : Fld := ⟨R.EMI_CTRL, 1, 1⟩
def F.EMI_CTRL_EN : Fld := ⟨R.EMI_CTRL, 0, 0⟩
/-- EMI_STATUS (07, Table EM-6). -/
def R.EMI_STATUS : Nat := 0x600004
def F.EMI_STATUS_REJ_P : Fld := ⟨R.EMI_STATUS, 31, 24⟩
def F.EMI_STATUS_REJ_VALID : Fld := ⟨R.EMI_STATUS, 23, 23⟩
def F.EMI_STATUS_PTR : Fld := ⟨R.EMI_STATUS, 22, 10⟩
def F.EMI_STATUS_LB_FLAP : Fld := ⟨R.EMI_STATUS, 9, 9⟩
def F.EMI_STATUS_LB_STAGE : Fld := ⟨R.EMI_STATUS, 8, 7⟩
def F.EMI_STATUS_THROTTLE : Fld := ⟨R.EMI_STATUS, 6, 6⟩
def F.EMI_STATUS_COMMIT_PENDING : Fld := ⟨R.EMI_STATUS, 5, 5⟩
def F.EMI_STATUS_PENDING_ENABLE : Fld := ⟨R.EMI_STATUS, 4, 4⟩
def F.EMI_STATUS_ACTIVE_BUF : Fld := ⟨R.EMI_STATUS, 3, 3⟩
def F.EMI_STATUS_STATE : Fld := ⟨R.EMI_STATUS, 2, 0⟩
/-- EMI_FAULT_CAUSE (07, Table EM-6). -/
def R.EMI_FAULT_CAUSE : Nat := 0x600008
def F.EMI_FAULT_CAUSE_SENSE_BASE : Fld := ⟨R.EMI_FAULT_CAUSE, 5, 5⟩
def F.EMI_FAULT_CAUSE_LB_STALE : Fld := ⟨R.EMI_FAULT_CAUSE, 4, 4⟩
def F.EMI_FAULT_CAUSE_LB_HOT : Fld := ⟨R.EMI_FAULT_CAUSE, 3, 3⟩
def F.EMI_FAULT_CAUSE_DIS_TIMEOUT : Fld := ⟨R.EMI_FAULT_CAUSE, 2, 2⟩
def F.EMI_FAULT_CAUSE_ROGUE : Fld := ⟨R.EMI_FAULT_CAUSE, 1, 1⟩
def F.EMI_FAULT_CAUSE_MON_MISS : Fld := ⟨R.EMI_FAULT_CAUSE, 0, 0⟩
/-- EMI_SLOT_CFG (07, Table EM-6). -/
def R.EMI_SLOT_CFG : Nat := 0x600010
def F.EMI_SLOT_CFG_DEPTH_THR : Fld := ⟨R.EMI_SLOT_CFG, 26, 16⟩
def F.EMI_SLOT_CFG_DEPTH : Fld := ⟨R.EMI_SLOT_CFG, 10, 0⟩
/-- EMI_FIRE_CFG (07, Table EM-6). -/
def R.EMI_FIRE_CFG : Nat := 0x600014
def F.EMI_FIRE_CFG_WIDTH : Fld := ⟨R.EMI_FIRE_CFG, 10, 8⟩
def F.EMI_FIRE_CFG_FIRE_OFS : Fld := ⟨R.EMI_FIRE_CFG, 5, 0⟩
/-- EMI_PWR_CFG (07, Table EM-6). -/
def R.EMI_PWR_CFG : Nat := 0x600018
def F.EMI_PWR_CFG_LB_DROP : Fld := ⟨R.EMI_PWR_CFG, 23, 16⟩
def F.EMI_PWR_CFG_DERATE_DROP : Fld := ⟨R.EMI_PWR_CFG, 15, 8⟩
def F.EMI_PWR_CFG_MAX : Fld := ⟨R.EMI_PWR_CFG, 7, 0⟩
/-- EMI_CHG_CFG (07, Table EM-6). -/
def R.EMI_CHG_CFG : Nat := 0x60001c
def F.EMI_CHG_CFG_DIS_LEVEL : Fld := ⟨R.EMI_CHG_CFG, 23, 16⟩
def F.EMI_CHG_CFG_TOL_HI : Fld := ⟨R.EMI_CHG_CFG, 15, 8⟩
def F.EMI_CHG_CFG_TOL_LO : Fld := ⟨R.EMI_CHG_CFG, 7, 0⟩
/-- EMI_MON_CFG (07, Table EM-6). -/
def R.EMI_MON_CFG : Nat := 0x600020
def F.EMI_MON_CFG_MON_EN : Fld := ⟨R.EMI_MON_CFG, 24, 24⟩
def F.EMI_MON_CFG_MISS_LIMIT : Fld := ⟨R.EMI_MON_CFG, 23, 16⟩
def F.EMI_MON_CFG_MON_WIN : Fld := ⟨R.EMI_MON_CFG, 7, 0⟩
/-- EMI_SIG_CFG (07, Table EM-6). -/
def R.EMI_SIG_CFG : Nat := 0x600024
def F.EMI_SIG_CFG_SEED : Fld := ⟨R.EMI_SIG_CFG, 15, 0⟩
/-- EMI_PCODE (07, Table EM-6). -/
def R.EMI_PCODE (i : Nat) : Nat := 0x600030 + 4 * (i % 8)
def F.EMI_PCODE_COUNT (i : Nat) : Fld := ⟨R.EMI_PCODE i, 16, 15⟩
def F.EMI_PCODE_SP3 (i : Nat) : Fld := ⟨R.EMI_PCODE i, 14, 10⟩
def F.EMI_PCODE_SP2 (i : Nat) : Fld := ⟨R.EMI_PCODE i, 9, 5⟩
def F.EMI_PCODE_SP1 (i : Nat) : Fld := ⟨R.EMI_PCODE i, 4, 0⟩
/-- EMI_LB_CFG (07, Table EM-6). -/
def R.EMI_LB_CFG : Nat := 0x600050
def F.EMI_LB_CFG_EN : Fld := ⟨R.EMI_LB_CFG, 31, 31⟩
def F.EMI_LB_CFG_DIR : Fld := ⟨R.EMI_LB_CFG, 30, 30⟩
def F.EMI_LB_CFG_AUX : Fld := ⟨R.EMI_LB_CFG, 26, 24⟩
def F.EMI_LB_CFG_DWELL : Fld := ⟨R.EMI_LB_CFG, 23, 16⟩
def F.EMI_LB_CFG_HYST : Fld := ⟨R.EMI_LB_CFG, 15, 0⟩
/-- EMI_LB_WARM (07, Table EM-6). -/
def R.EMI_LB_WARM : Nat := 0x600054
def F.EMI_LB_WARM_N : Fld := ⟨R.EMI_LB_WARM, 19, 0⟩
/-- EMI_LB_HOT (07, Table EM-6). -/
def R.EMI_LB_HOT : Nat := 0x600058
def F.EMI_LB_HOT_N : Fld := ⟨R.EMI_LB_HOT, 19, 0⟩
/-- EMI_LB_VAL (07, Table EM-6). -/
def R.EMI_LB_VAL : Nat := 0x60005c
def F.EMI_LB_VAL_VALID : Fld := ⟨R.EMI_LB_VAL, 20, 20⟩
def F.EMI_LB_VAL_N : Fld := ⟨R.EMI_LB_VAL, 19, 0⟩
/-- EMI_TEST_CFG (07, Table EM-6). -/
def R.EMI_TEST_CFG : Nat := 0x600060
def F.EMI_TEST_CFG_AUTO : Fld := ⟨R.EMI_TEST_CFG, 16, 16⟩
def F.EMI_TEST_CFG_SENSE_HI : Fld := ⟨R.EMI_TEST_CFG, 15, 8⟩
def F.EMI_TEST_CFG_SENSE_LO : Fld := ⟨R.EMI_TEST_CFG, 7, 0⟩
/-- EMI_ROW_SHORT (07, Table EM-6). -/
def R.EMI_ROW_SHORT : Nat := 0x600064
def F.EMI_ROW_SHORT_SHORT : Fld := ⟨R.EMI_ROW_SHORT, 17, 0⟩
/-- EMI_ROW_OPEN (07, Table EM-6). -/
def R.EMI_ROW_OPEN : Nat := 0x600068
def F.EMI_ROW_OPEN_OPEN : Fld := ⟨R.EMI_ROW_OPEN, 17, 0⟩
/-- EMI_COL_FAULT (07, Table EM-6). -/
def R.EMI_COL_FAULT : Nat := 0x60006c
def F.EMI_COL_FAULT_OPEN : Fld := ⟨R.EMI_COL_FAULT, 31, 16⟩
def F.EMI_COL_FAULT_SHORT : Fld := ⟨R.EMI_COL_FAULT, 15, 0⟩
/-- EMI_CHG_STATUS (07, Table EM-6). -/
def R.EMI_CHG_STATUS : Nat := 0x600070
def F.EMI_CHG_STATUS_FB_MEAS : Fld := ⟨R.EMI_CHG_STATUS, 27, 16⟩
def F.EMI_CHG_STATUS_DAC_CODE : Fld := ⟨R.EMI_CHG_STATUS, 11, 0⟩
/-- EMI_CNT_SHOTS (07, Table EM-7). -/
def R.EMI_CNT_SHOTS : Nat := 0x600080
def F.EMI_CNT_SHOTS_COUNT : Fld := ⟨R.EMI_CNT_SHOTS, 31, 0⟩
/-- EMI_CNT_SUPPRESS (07, Table EM-7). -/
def R.EMI_CNT_SUPPRESS : Nat := 0x600084
def F.EMI_CNT_SUPPRESS_COUNT : Fld := ⟨R.EMI_CNT_SUPPRESS, 31, 0⟩
/-- EMI_CNT_UNDER (07, Table EM-7). -/
def R.EMI_CNT_UNDER : Nat := 0x600088
def F.EMI_CNT_UNDER_COUNT : Fld := ⟨R.EMI_CNT_UNDER, 31, 0⟩
/-- EMI_CNT_MON_MISS (07, Table EM-7). -/
def R.EMI_CNT_MON_MISS : Nat := 0x60008c
def F.EMI_CNT_MON_MISS_COUNT : Fld := ⟨R.EMI_CNT_MON_MISS, 31, 0⟩
/-- EMI_CNT_ROGUE (07, Table EM-7). -/
def R.EMI_CNT_ROGUE : Nat := 0x600090
def F.EMI_CNT_ROGUE_COUNT : Fld := ⟨R.EMI_CNT_ROGUE, 31, 0⟩
/-- EMI_CNT_CLAMP (07, Table EM-7). -/
def R.EMI_CNT_CLAMP : Nat := 0x600094
def F.EMI_CNT_CLAMP_COUNT : Fld := ⟨R.EMI_CNT_CLAMP, 31, 0⟩
/-- EMI_CURVE (07, Table EM-7). -/
def R.EMI_CURVE (i : Nat) : Nat := 0x600400 + 4 * (i % 256)
def F.EMI_CURVE_DAC (i : Nat) : Fld := ⟨R.EMI_CURVE i, 11, 0⟩
/-- EMI_CURVE_ACT (07, Table EM-7). -/
def R.EMI_CURVE_ACT (i : Nat) : Nat := 0x600800 + 4 * (i % 256)
def F.EMI_CURVE_ACT_DAC (i : Nat) : Fld := ⟨R.EMI_CURVE_ACT i, 11, 0⟩
/-- EMI_SEED_MAP (07, Table EM-1). -/
def R.EMI_SEED_MAP (i : Nat) (j : Nat) : Nat := 0x610000 + 0x10000 * (i % 2) + 4 * (j % 16384)
def F.EMI_SEED_MAP_WORD (i : Nat) (j : Nat) : Fld := ⟨R.EMI_SEED_MAP i j, 31, 0⟩
/-- HLM_CTRL (08, Table HL-8). -/
def R.HLM_CTRL : Nat := 0x700000
def F.HLM_CTRL_TRACE_FORCE : Fld := ⟨R.HLM_CTRL, 4, 4⟩
def F.HLM_CTRL_TRACE_ARM : Fld := ⟨R.HLM_CTRL, 3, 3⟩
def F.HLM_CTRL_FAULT_CLR : Fld := ⟨R.HLM_CTRL, 2, 2⟩
def F.HLM_CTRL_LAW_COMMIT : Fld := ⟨R.HLM_CTRL, 1, 1⟩
def F.HLM_CTRL_EN : Fld := ⟨R.HLM_CTRL, 0, 0⟩
/-- HLM_STATUS (08, Table HL-8). -/
def R.HLM_STATUS : Nat := 0x700004
def F.HLM_STATUS_FACET : Fld := ⟨R.HLM_STATUS, 19, 16⟩
def F.HLM_STATUS_LOCK_FLAP : Fld := ⟨R.HLM_STATUS, 15, 15⟩
def F.HLM_STATUS_INDEX_SEEN : Fld := ⟨R.HLM_STATUS, 14, 14⟩
def F.HLM_STATUS_PENDING_ENABLE : Fld := ⟨R.HLM_STATUS, 13, 13⟩
def F.HLM_STATUS_HO_ACTIVE : Fld := ⟨R.HLM_STATUS, 12, 12⟩
def F.HLM_STATUS_COMMIT_PENDING : Fld := ⟨R.HLM_STATUS, 11, 11⟩
def F.HLM_STATUS_SP_STATE : Fld := ⟨R.HLM_STATUS, 10, 8⟩
def F.HLM_STATUS_TL_STATE : Fld := ⟨R.HLM_STATUS, 5, 4⟩
def F.HLM_STATUS_LAW_SAT : Fld := ⟨R.HLM_STATUS, 3, 0⟩
/-- HLM_FAULT_CAUSE (08, Table HL-8). -/
def R.HLM_FAULT_CAUSE : Nat := 0x700008
def F.HLM_FAULT_CAUSE_CAUSE : Fld := ⟨R.HLM_FAULT_CAUSE, 5, 0⟩
/-- HLM_SP_CFG (08, Table HL-8). -/
def R.HLM_SP_CFG : Nat := 0x700010
def F.HLM_SP_CFG_POLE_PAIRS : Fld := ⟨R.HLM_SP_CFG, 23, 20⟩
def F.HLM_SP_CFG_N_FACET : Fld := ⟨R.HLM_SP_CFG, 19, 16⟩
def F.HLM_SP_CFG_COG_EN : Fld := ⟨R.HLM_SP_CFG, 10, 10⟩
def F.HLM_SP_CFG_COMM_ENC : Fld := ⟨R.HLM_SP_CFG, 9, 9⟩
def F.HLM_SP_CFG_DIR : Fld := ⟨R.HLM_SP_CFG, 8, 8⟩
/-- HLM_COMM_OFS (08, Table HL-8). -/
def R.HLM_COMM_OFS : Nat := 0x700014
def F.HLM_COMM_OFS_OFS : Fld := ⟨R.HLM_COMM_OFS, 31, 0⟩
/-- HLM_ENC_CFG (08, Table HL-8). -/
def R.HLM_ENC_CFG : Nat := 0x700018
def F.HLM_ENC_CFG_INDEX_EN : Fld := ⟨R.HLM_ENC_CFG, 15, 15⟩
def F.HLM_ENC_CFG_CPR : Fld := ⟨R.HLM_ENC_CFG, 14, 0⟩
/-- HLM_SPEED_REF (08, Table HL-8). -/
def R.HLM_SPEED_REF : Nat := 0x70001c
def F.HLM_SPEED_REF_TARGET : Fld := ⟨R.HLM_SPEED_REF, 31, 0⟩
/-- HLM_SP_RAMP (08, Table HL-8). -/
def R.HLM_SP_RAMP : Nat := 0x700020
def F.HLM_SP_RAMP_RAMP : Fld := ⟨R.HLM_SP_RAMP, 23, 0⟩
/-- HLM_SP_LIM (08, Table HL-8). -/
def R.HLM_SP_LIM : Nat := 0x700024
def F.HLM_SP_LIM_MAX : Fld := ⟨R.HLM_SP_LIM, 31, 0⟩
/-- HLM_LOCK_CFG (08, Table HL-8). -/
def R.HLM_LOCK_CFG : Nat := 0x700028
def F.HLM_LOCK_CFG_LOCK_DWELL : Fld := ⟨R.HLM_LOCK_CFG, 31, 24⟩
def F.HLM_LOCK_CFG_PULL : Fld := ⟨R.HLM_LOCK_CFG, 20, 16⟩
def F.HLM_LOCK_CFG_UNLOCK : Fld := ⟨R.HLM_LOCK_CFG, 15, 8⟩
def F.HLM_LOCK_CFG_LOCK_TOL : Fld := ⟨R.HLM_LOCK_CFG, 7, 0⟩
/-- HLM_PHASE_OFS (08, Table HL-8). -/
def R.HLM_PHASE_OFS : Nat := 0x70002c
def F.HLM_PHASE_OFS_OFS : Fld := ⟨R.HLM_PHASE_OFS, 31, 0⟩
/-- HLM_SWEEP_CFG (08, Table HL-8). -/
def R.HLM_SWEEP_CFG : Nat := 0x700030
def F.HLM_SWEEP_CFG_REF_SRC : Fld := ⟨R.HLM_SWEEP_CFG, 3, 3⟩
def F.HLM_SWEEP_CFG_SRC : Fld := ⟨R.HLM_SWEEP_CFG, 1, 0⟩
/-- HLM_FACET_OFS (08, Table HL-8). -/
def R.HLM_FACET_OFS : Nat := 0x700034
def F.HLM_FACET_OFS_OFS : Fld := ⟨R.HLM_FACET_OFS, 31, 0⟩
/-- HLM_BRAKE_CFG (08, Table HL-8). -/
def R.HLM_BRAKE_CFG : Nat := 0x700038
def F.HLM_BRAKE_CFG_TIMEOUT : Fld := ⟨R.HLM_BRAKE_CFG, 31, 24⟩
def F.HLM_BRAKE_CFG_BRAKE_RAMP : Fld := ⟨R.HLM_BRAKE_CFG, 23, 0⟩
/-- HLM_BRAKE_LIM (08, Table HL-8). -/
def R.HLM_BRAKE_LIM : Nat := 0x70003c
def F.HLM_BRAKE_LIM_BRAKE_MAX : Fld := ⟨R.HLM_BRAKE_LIM, 31, 16⟩
def F.HLM_BRAKE_LIM_STOP_SPD : Fld := ⟨R.HLM_BRAKE_LIM, 15, 0⟩
/-- HLM_HO_CFG (08, Table HL-8). -/
def R.HLM_HO_CFG : Nat := 0x700040
def F.HLM_HO_CFG_HO_SLEW : Fld := ⟨R.HLM_HO_CFG, 31, 0⟩
/-- HLM_TILT_CFG (08, Table HL-8). -/
def R.HLM_TILT_CFG : Nat := 0x700050
def F.HLM_TILT_CFG_STEPS : Fld := ⟨R.HLM_TILT_CFG, 31, 24⟩
def F.HLM_TILT_CFG_AIN : Fld := ⟨R.HLM_TILT_CFG, 19, 16⟩
def F.HLM_TILT_CFG_URGENT : Fld := ⟨R.HLM_TILT_CFG, 8, 8⟩
def F.HLM_TILT_CFG_FRIC_EN : Fld := ⟨R.HLM_TILT_CFG, 7, 7⟩
/-- HLM_TILT_CAL (08, Table HL-8). -/
def R.HLM_TILT_CAL : Nat := 0x700054
def F.HLM_TILT_CAL_SCALE : Fld := ⟨R.HLM_TILT_CAL, 31, 16⟩
def F.HLM_TILT_CAL_ZERO : Fld := ⟨R.HLM_TILT_CAL, 13, 0⟩
/-- HLM_TILT_LIM (08, Table HL-8). -/
def R.HLM_TILT_LIM : Nat := 0x700058
def F.HLM_TILT_LIM_MAX : Fld := ⟨R.HLM_TILT_LIM, 31, 16⟩
def F.HLM_TILT_LIM_MIN : Fld := ⟨R.HLM_TILT_LIM, 15, 0⟩
/-- HLM_TILT_SLEW (08, Table HL-8). -/
def R.HLM_TILT_SLEW : Nat := 0x70005c
def F.HLM_TILT_SLEW_PARK : Fld := ⟨R.HLM_TILT_SLEW, 31, 16⟩
def F.HLM_TILT_SLEW_SLEW : Fld := ⟨R.HLM_TILT_SLEW, 15, 0⟩
/-- HLM_TILT_MON (08, Table HL-8). -/
def R.HLM_TILT_MON : Nat := 0x700060
def F.HLM_TILT_MON_TRACK_DWELL : Fld := ⟨R.HLM_TILT_MON, 31, 24⟩
def F.HLM_TILT_MON_FRIC_DB : Fld := ⟨R.HLM_TILT_MON, 23, 16⟩
def F.HLM_TILT_MON_TRACK_TOL : Fld := ⟨R.HLM_TILT_MON, 15, 0⟩
/-- HLM_PWM_CFG (08, Table HL-8). -/
def R.HLM_PWM_CFG : Nat := 0x700064
def F.HLM_PWM_CFG_TL_PERIOD : Fld := ⟨R.HLM_PWM_CFG, 31, 16⟩
def F.HLM_PWM_CFG_SP_PERIOD : Fld := ⟨R.HLM_PWM_CFG, 15, 0⟩
/-- HLM_MEAS_ANGLE (08, Table HL-8). -/
def R.HLM_MEAS_ANGLE : Nat := 0x700070
def F.HLM_MEAS_ANGLE_THETA : Fld := ⟨R.HLM_MEAS_ANGLE, 31, 0⟩
/-- HLM_MEAS_SPEED (08, Table HL-8). -/
def R.HLM_MEAS_SPEED : Nat := 0x700074
def F.HLM_MEAS_SPEED_OMEGA : Fld := ⟨R.HLM_MEAS_SPEED, 31, 0⟩
/-- HLM_MEAS_PHASE (08, Table HL-8). -/
def R.HLM_MEAS_PHASE : Nat := 0x700078
def F.HLM_MEAS_PHASE_E_PH : Fld := ⟨R.HLM_MEAS_PHASE, 31, 0⟩
/-- HLM_MEAS_TILT (08, Table HL-8). -/
def R.HLM_MEAS_TILT : Nat := 0x70007c
def F.HLM_MEAS_TILT_REF : Fld := ⟨R.HLM_MEAS_TILT, 31, 16⟩
def F.HLM_MEAS_TILT_POS : Fld := ⟨R.HLM_MEAS_TILT, 15, 0⟩
/-- HLM_ENC_COUNT (08, Table HL-8). -/
def R.HLM_ENC_COUNT : Nat := 0x700080
def F.HLM_ENC_COUNT_COUNT : Fld := ⟨R.HLM_ENC_COUNT, 15, 0⟩
/-- HLM_CNT_LOCK_REF (08, Table HL-8). -/
def R.HLM_CNT_LOCK_REF : Nat := 0x700090
def F.HLM_CNT_LOCK_REF_COUNT : Fld := ⟨R.HLM_CNT_LOCK_REF, 31, 0⟩
/-- HLM_CNT_UNLOCK (08, Table HL-8). -/
def R.HLM_CNT_UNLOCK : Nat := 0x700094
def F.HLM_CNT_UNLOCK_COUNT : Fld := ⟨R.HLM_CNT_UNLOCK, 31, 0⟩
/-- HLM_CNT_ENC_ERR (08, Table HL-8). -/
def R.HLM_CNT_ENC_ERR : Nat := 0x700098
def F.HLM_CNT_ENC_ERR_COUNT : Fld := ⟨R.HLM_CNT_ENC_ERR, 31, 0⟩
/-- HLM_TRACE_CFG (08, Table HL-8). -/
def R.HLM_TRACE_CFG : Nat := 0x7000a0
def F.HLM_TRACE_CFG_PRE : Fld := ⟨R.HLM_TRACE_CFG, 31, 20⟩
def F.HLM_TRACE_CFG_DEC : Fld := ⟨R.HLM_TRACE_CFG, 19, 12⟩
def F.HLM_TRACE_CFG_TRIG : Fld := ⟨R.HLM_TRACE_CFG, 2, 0⟩
/-- HLM_TRACE_SEL0 (08, Table HL-8). -/
def R.HLM_TRACE_SEL0 : Nat := 0x7000a4
def F.HLM_TRACE_SEL0_NODE3 : Fld := ⟨R.HLM_TRACE_SEL0, 29, 24⟩
def F.HLM_TRACE_SEL0_NODE2 : Fld := ⟨R.HLM_TRACE_SEL0, 21, 16⟩
def F.HLM_TRACE_SEL0_NODE1 : Fld := ⟨R.HLM_TRACE_SEL0, 13, 8⟩
def F.HLM_TRACE_SEL0_NODE0 : Fld := ⟨R.HLM_TRACE_SEL0, 5, 0⟩
/-- HLM_TRACE_SEL1 (08, Table HL-8). -/
def R.HLM_TRACE_SEL1 : Nat := 0x7000a8
def F.HLM_TRACE_SEL1_NODE7 : Fld := ⟨R.HLM_TRACE_SEL1, 29, 24⟩
def F.HLM_TRACE_SEL1_NODE6 : Fld := ⟨R.HLM_TRACE_SEL1, 21, 16⟩
def F.HLM_TRACE_SEL1_NODE5 : Fld := ⟨R.HLM_TRACE_SEL1, 13, 8⟩
def F.HLM_TRACE_SEL1_NODE4 : Fld := ⟨R.HLM_TRACE_SEL1, 5, 0⟩
/-- HLM_TRACE_LEVEL (08, Table HL-8). -/
def R.HLM_TRACE_LEVEL : Nat := 0x7000ac
def F.HLM_TRACE_LEVEL_LEVEL : Fld := ⟨R.HLM_TRACE_LEVEL, 31, 0⟩
/-- HLM_TRACE_STATUS (08, Table HL-8). -/
def R.HLM_TRACE_STATUS : Nat := 0x7000b0
def F.HLM_TRACE_STATUS_DONE : Fld := ⟨R.HLM_TRACE_STATUS, 13, 13⟩
def F.HLM_TRACE_STATUS_RECORDING : Fld := ⟨R.HLM_TRACE_STATUS, 12, 12⟩
def F.HLM_TRACE_STATUS_OLDEST : Fld := ⟨R.HLM_TRACE_STATUS, 11, 0⟩
/-- HLM_LAW_CFG (08, Table HL-9). -/
def R.HLM_LAW_CFG (i : Nat) : Nat := 0x700100 + 0x40 * (i % 4)
def F.HLM_LAW_CFG_ORDER (i : Nat) : Fld := ⟨R.HLM_LAW_CFG i, 1, 0⟩
/-- HLM_LAW_B0 (08, Table HL-9). -/
def R.HLM_LAW_B0 (i : Nat) : Nat := 0x700104 + 0x40 * (i % 4)
def F.HLM_LAW_B0_B (i : Nat) : Fld := ⟨R.HLM_LAW_B0 i, 31, 0⟩
/-- HLM_LAW_B1 (08, Table HL-9). -/
def R.HLM_LAW_B1 (i : Nat) : Nat := 0x700108 + 0x40 * (i % 4)
def F.HLM_LAW_B1_B (i : Nat) : Fld := ⟨R.HLM_LAW_B1 i, 31, 0⟩
/-- HLM_LAW_B2 (08, Table HL-9). -/
def R.HLM_LAW_B2 (i : Nat) : Nat := 0x70010c + 0x40 * (i % 4)
def F.HLM_LAW_B2_B (i : Nat) : Fld := ⟨R.HLM_LAW_B2 i, 31, 0⟩
/-- HLM_LAW_B3 (08, Table HL-9). -/
def R.HLM_LAW_B3 (i : Nat) : Nat := 0x700110 + 0x40 * (i % 4)
def F.HLM_LAW_B3_B (i : Nat) : Fld := ⟨R.HLM_LAW_B3 i, 31, 0⟩
/-- HLM_LAW_A1 (08, Table HL-9). -/
def R.HLM_LAW_A1 (i : Nat) : Nat := 0x700114 + 0x40 * (i % 4)
def F.HLM_LAW_A1_A (i : Nat) : Fld := ⟨R.HLM_LAW_A1 i, 31, 0⟩
/-- HLM_LAW_A2 (08, Table HL-9). -/
def R.HLM_LAW_A2 (i : Nat) : Nat := 0x700118 + 0x40 * (i % 4)
def F.HLM_LAW_A2_A (i : Nat) : Fld := ⟨R.HLM_LAW_A2 i, 31, 0⟩
/-- HLM_LAW_A3 (08, Table HL-9). -/
def R.HLM_LAW_A3 (i : Nat) : Nat := 0x70011c + 0x40 * (i % 4)
def F.HLM_LAW_A3_A (i : Nat) : Fld := ⟨R.HLM_LAW_A3 i, 31, 0⟩
/-- HLM_LAW_SHIFT_B (08, Table HL-9). -/
def R.HLM_LAW_SHIFT_B (i : Nat) : Nat := 0x700120 + 0x40 * (i % 4)
def F.HLM_LAW_SHIFT_B_SB3 (i : Nat) : Fld := ⟨R.HLM_LAW_SHIFT_B i, 28, 24⟩
def F.HLM_LAW_SHIFT_B_SB2 (i : Nat) : Fld := ⟨R.HLM_LAW_SHIFT_B i, 20, 16⟩
def F.HLM_LAW_SHIFT_B_SB1 (i : Nat) : Fld := ⟨R.HLM_LAW_SHIFT_B i, 12, 8⟩
def F.HLM_LAW_SHIFT_B_SB0 (i : Nat) : Fld := ⟨R.HLM_LAW_SHIFT_B i, 4, 0⟩
/-- HLM_LAW_SHIFT_A (08, Table HL-9). -/
def R.HLM_LAW_SHIFT_A (i : Nat) : Nat := 0x700124 + 0x40 * (i % 4)
def F.HLM_LAW_SHIFT_A_SA3 (i : Nat) : Fld := ⟨R.HLM_LAW_SHIFT_A i, 20, 16⟩
def F.HLM_LAW_SHIFT_A_SA2 (i : Nat) : Fld := ⟨R.HLM_LAW_SHIFT_A i, 12, 8⟩
def F.HLM_LAW_SHIFT_A_SA1 (i : Nat) : Fld := ⟨R.HLM_LAW_SHIFT_A i, 4, 0⟩
/-- HLM_LAW_OUT_MAX (08, Table HL-9). -/
def R.HLM_LAW_OUT_MAX (i : Nat) : Nat := 0x700128 + 0x40 * (i % 4)
def F.HLM_LAW_OUT_MAX_MAX (i : Nat) : Fld := ⟨R.HLM_LAW_OUT_MAX i, 31, 0⟩
/-- HLM_LAW_OUT_MIN (08, Table HL-9). -/
def R.HLM_LAW_OUT_MIN (i : Nat) : Nat := 0x70012c + 0x40 * (i % 4)
def F.HLM_LAW_OUT_MIN_MIN (i : Nat) : Fld := ⟨R.HLM_LAW_OUT_MIN i, 31, 0⟩
/-- HLM_TILT_REF (08, Table HL-9). -/
def R.HLM_TILT_REF (i : Nat) : Nat := 0x700200 + 4 * (i % 64)
def F.HLM_TILT_REF_REF (i : Nat) : Fld := ⟨R.HLM_TILT_REF i, 15, 0⟩
/-- HLM_COG (08, Table HL-9). -/
def R.HLM_COG (i : Nat) : Nat := 0x710000 + 4 * (i % 1024)
def F.HLM_COG_VALUE (i : Nat) : Fld := ⟨R.HLM_COG i, 15, 0⟩
/-- HLM_FRIC (08, Table HL-9). -/
def R.HLM_FRIC (i : Nat) : Nat := 0x711000 + 4 * (i % 256)
def F.HLM_FRIC_VALUE (i : Nat) : Fld := ⟨R.HLM_FRIC i, 15, 0⟩
/-- HLM_TRACE_BUF (08, Table HL-9). -/
def R.HLM_TRACE_BUF (i : Nat) (j : Nat) : Nat := 0x740000 + 0x4000 * (i % 8) + 4 * (j % 4096)
def F.HLM_TRACE_BUF_SAMPLE (i : Nat) (j : Nat) : Fld := ⟨R.HLM_TRACE_BUF i j, 31, 0⟩
/-- HDG_CTRL (09, Table HG-6). -/
def R.HDG_CTRL : Nat := 0x780000
def F.HDG_CTRL_LOCK : Fld := ⟨R.HDG_CTRL, 0, 0⟩
/-- HDG_STATUS (09, Table HG-6). -/
def R.HDG_STATUS : Nat := 0x780004
def F.HDG_STATUS_PWM_GATE : Fld := ⟨R.HDG_STATUS, 12, 12⟩
def F.HDG_STATUS_RST_PHASE : Fld := ⟨R.HDG_STATUS, 11, 10⟩
def F.HDG_STATUS_CLEAR : Fld := ⟨R.HDG_STATUS, 9, 9⟩
def F.HDG_STATUS_SEAL_LOCK : Fld := ⟨R.HDG_STATUS, 8, 8⟩
def F.HDG_STATUS_LATCH : Fld := ⟨R.HDG_STATUS, 7, 7⟩
def F.HDG_STATUS_LI_LEVEL : Fld := ⟨R.HDG_STATUS, 6, 6⟩
def F.HDG_STATUS_REQ : Fld := ⟨R.HDG_STATUS, 5, 5⟩
def F.HDG_STATUS_STATE : Fld := ⟨R.HDG_STATUS, 2, 0⟩
/-- HDG_TRIP_CAUSE (09, Table HG-6). -/
def R.HDG_TRIP_CAUSE : Nat := 0x780008
def F.HDG_TRIP_CAUSE_FIRST : Fld := ⟨R.HDG_TRIP_CAUSE, 20, 16⟩
def F.HDG_TRIP_CAUSE_CAUSE : Fld := ⟨R.HDG_TRIP_CAUSE, 15, 0⟩
/-- HDG_PRESENT (09, Table HG-6). -/
def R.HDG_PRESENT : Nat := 0x78000c
def F.HDG_PRESENT_CAUSE : Fld := ⟨R.HDG_PRESENT, 15, 0⟩
/-- HDG_STRAPS (09, Table HG-6). -/
def R.HDG_STRAPS : Nat := 0x780010
def F.HDG_STRAPS_FLOAT : Fld := ⟨R.HDG_STRAPS, 13, 8⟩
def F.HDG_STRAPS_SEAL : Fld := ⟨R.HDG_STRAPS, 5, 0⟩
/-- HDG_LIM_SPEED (09, Table HG-6). -/
def R.HDG_LIM_SPEED : Nat := 0x780020
def F.HDG_LIM_SPEED_MAX : Fld := ⟨R.HDG_LIM_SPEED, 31, 16⟩
def F.HDG_LIM_SPEED_MIN : Fld := ⟨R.HDG_LIM_SPEED, 15, 0⟩
/-- HDG_LIM_BUDGET (09, Table HG-6). -/
def R.HDG_LIM_BUDGET : Nat := 0x780024
def F.HDG_LIM_BUDGET_BUDGET : Fld := ⟨R.HDG_LIM_BUDGET, 31, 0⟩
/-- HDG_LIM_POS (09, Table HG-6). -/
def R.HDG_LIM_POS : Nat := 0x780028
def F.HDG_LIM_POS_MAX : Fld := ⟨R.HDG_LIM_POS, 25, 16⟩
def F.HDG_LIM_POS_MIN : Fld := ⟨R.HDG_LIM_POS, 9, 0⟩
/-- HDG_LIM_FOV (09, Table HG-6). -/
def R.HDG_LIM_FOV : Nat := 0x78002c
def F.HDG_LIM_FOV_MAX : Fld := ⟨R.HDG_LIM_FOV, 25, 16⟩
def F.HDG_LIM_FOV_MIN : Fld := ⟨R.HDG_LIM_FOV, 9, 0⟩
/-- HDG_LIM_MISC (09, Table HG-6). -/
def R.HDG_LIM_MISC : Nat := 0x780030
def F.HDG_LIM_MISC_DIR : Fld := ⟨R.HDG_LIM_MISC, 16, 16⟩
def F.HDG_LIM_MISC_FOV_DWELL : Fld := ⟨R.HDG_LIM_MISC, 15, 8⟩
def F.HDG_LIM_MISC_DIR_LIMIT : Fld := ⟨R.HDG_LIM_MISC, 7, 0⟩
/-- HDG_HOST_SPEED (09, Table HG-6). -/
def R.HDG_HOST_SPEED : Nat := 0x780040
def F.HDG_HOST_SPEED_MAX_H : Fld := ⟨R.HDG_HOST_SPEED, 31, 16⟩
def F.HDG_HOST_SPEED_MIN_H : Fld := ⟨R.HDG_HOST_SPEED, 15, 0⟩
/-- HDG_HOST_BUDGET (09, Table HG-6). -/
def R.HDG_HOST_BUDGET : Nat := 0x780044
def F.HDG_HOST_BUDGET_BUDGET_H : Fld := ⟨R.HDG_HOST_BUDGET, 31, 0⟩
/-- HDG_MEAS_SPEED (09, Table HG-6). -/
def R.HDG_MEAS_SPEED : Nat := 0x780050
def F.HDG_MEAS_SPEED_COUNT : Fld := ⟨R.HDG_MEAS_SPEED, 15, 0⟩
/-- HDG_MEAS_TILT (09, Table HG-6). -/
def R.HDG_MEAS_TILT : Nat := 0x780054
def F.HDG_MEAS_TILT_CODE : Fld := ⟨R.HDG_MEAS_TILT, 9, 0⟩
/-- HDG_MEAS_RC (09, Table HG-6). -/
def R.HDG_MEAS_RC : Nat := 0x780058
def F.HDG_MEAS_RC_ERR : Fld := ⟨R.HDG_MEAS_RC, 15, 0⟩
/-- HDG_ENERGY_SEL (09, Table HG-6). -/
def R.HDG_ENERGY_SEL : Nat := 0x780060
def F.HDG_ENERGY_SEL_ZONE : Fld := ⟨R.HDG_ENERGY_SEL, 8, 0⟩
/-- HDG_ENERGY (09, Table HG-6). -/
def R.HDG_ENERGY : Nat := 0x780064
def F.HDG_ENERGY_SUM : Fld := ⟨R.HDG_ENERGY, 31, 0⟩
/-- HDG_ENERGY_MAX (09, Table HG-6). -/
def R.HDG_ENERGY_MAX : Nat := 0x780068
def F.HDG_ENERGY_MAX_SUM : Fld := ⟨R.HDG_ENERGY_MAX, 31, 0⟩
/-- HDG_CNT_TRIP (09, Table HG-6). -/
def R.HDG_CNT_TRIP : Nat := 0x780080
def F.HDG_CNT_TRIP_COUNT : Fld := ⟨R.HDG_CNT_TRIP, 31, 0⟩
/-- HDG_CNT_BLANK (09, Table HG-6). -/
def R.HDG_CNT_BLANK : Nat := 0x780084
def F.HDG_CNT_BLANK_COUNT : Fld := ⟨R.HDG_CNT_BLANK, 31, 0⟩
/-- HDG_CNT_RST_REF (09, Table HG-6). -/
def R.HDG_CNT_RST_REF : Nat := 0x780088
def F.HDG_CNT_RST_REF_COUNT : Fld := ⟨R.HDG_CNT_RST_REF, 31, 0⟩
/-- HDG_CNT_ENC_ERR (09, Table HG-6). -/
def R.HDG_CNT_ENC_ERR : Nat := 0x78008c
def F.HDG_CNT_ENC_ERR_COUNT : Fld := ⟨R.HDG_CNT_ENC_ERR, 31, 0⟩
/-- MER_CTRL (10, Table MS-5). -/
def R.MER_CTRL : Nat := 0x800000
def F.MER_CTRL_TRIG : Fld := ⟨R.MER_CTRL, 2, 2⟩
def F.MER_CTRL_RT_RESTART : Fld := ⟨R.MER_CTRL, 1, 1⟩
def F.MER_CTRL_EN : Fld := ⟨R.MER_CTRL, 0, 0⟩
/-- MER_STATUS (10, Table MS-5). -/
def R.MER_STATUS : Nat := 0x800004
def F.MER_STATUS_UNITS_OK : Fld := ⟨R.MER_STATUS, 31, 24⟩
def F.MER_STATUS_PC_WAIT : Fld := ⟨R.MER_STATUS, 13, 13⟩
def F.MER_STATUS_AS_HOLD : Fld := ⟨R.MER_STATUS, 12, 12⟩
def F.MER_STATUS_ID_CONFLICT : Fld := ⟨R.MER_STATUS, 11, 11⟩
def F.MER_STATUS_MASTER : Fld := ⟨R.MER_STATUS, 10, 10⟩
def F.MER_STATUS_ID : Fld := ⟨R.MER_STATUS, 9, 7⟩
def F.MER_STATUS_STATE : Fld := ⟨R.MER_STATUS, 2, 0⟩
/-- MER_CFG (10, Table MS-5). -/
def R.MER_CFG : Nat := 0x800008
def F.MER_CFG_UNITS : Fld := ⟨R.MER_CFG, 31, 24⟩
def F.MER_CFG_PC_ALIGN : Fld := ⟨R.MER_CFG, 16, 16⟩
def F.MER_CFG_PING_INT : Fld := ⟨R.MER_CFG, 15, 8⟩
/-- MER_LAT (10, Table MS-5). -/
def R.MER_LAT : Nat := 0x80000c
def F.MER_LAT_LAT : Fld := ⟨R.MER_LAT, 15, 0⟩
/-- MER_EPOCH_CFG (10, Table MS-5). -/
def R.MER_EPOCH_CFG : Nat := 0x800010
def F.MER_EPOCH_CFG_SRC : Fld := ⟨R.MER_EPOCH_CFG, 31, 31⟩
def F.MER_EPOCH_CFG_PERIOD : Fld := ⟨R.MER_EPOCH_CFG, 23, 0⟩
/-- MER_EPOCH_PHASE (10, Table MS-5). -/
def R.MER_EPOCH_PHASE : Nat := 0x800014
def F.MER_EPOCH_PHASE_PHASE : Fld := ⟨R.MER_EPOCH_PHASE, 31, 0⟩
/-- MER_DELAY (10, Table MS-5). -/
def R.MER_DELAY : Nat := 0x800018
def F.MER_DELAY_D16 : Fld := ⟨R.MER_DELAY, 23, 0⟩
/-- MER_PHASE (10, Table MS-5). -/
def R.MER_PHASE : Nat := 0x80001c
def F.MER_PHASE_STEPS : Fld := ⟨R.MER_PHASE, 31, 16⟩
def F.MER_PHASE_PHI : Fld := ⟨R.MER_PHASE, 15, 0⟩
/-- MER_RT (10, Table MS-5). -/
def R.MER_RT (i : Nat) : Nat := 0x800020 + 4 * (i % 8)
def F.MER_RT_VALID (i : Nat) : Fld := ⟨R.MER_RT i, 31, 31⟩
def F.MER_RT_D16 (i : Nat) : Fld := ⟨R.MER_RT i, 23, 0⟩
/-- MER_CNT_FRAME_ERR (10, Table MS-5). -/
def R.MER_CNT_FRAME_ERR : Nat := 0x800040
def F.MER_CNT_FRAME_ERR_COUNT : Fld := ⟨R.MER_CNT_FRAME_ERR, 31, 0⟩
/-- MER_CNT_LATE (10, Table MS-5). -/
def R.MER_CNT_LATE : Nat := 0x800044
def F.MER_CNT_LATE_COUNT : Fld := ⟨R.MER_CNT_LATE, 31, 0⟩
/-- MER_CAP_CTRL (10, Table MS-5). -/
def R.MER_CAP_CTRL : Nat := 0x801000
def F.MER_CAP_CTRL_FORCE : Fld := ⟨R.MER_CAP_CTRL, 3, 3⟩
def F.MER_CAP_CTRL_ARM : Fld := ⟨R.MER_CAP_CTRL, 2, 2⟩
def F.MER_CAP_CTRL_CONT : Fld := ⟨R.MER_CAP_CTRL, 1, 1⟩
def F.MER_CAP_CTRL_EN : Fld := ⟨R.MER_CAP_CTRL, 0, 0⟩
/-- MER_CAP_STATUS (10, Table MS-5). -/
def R.MER_CAP_STATUS : Nat := 0x801004
def F.MER_CAP_STATUS_PENDING_ENABLE : Fld := ⟨R.MER_CAP_STATUS, 18, 18⟩
def F.MER_CAP_STATUS_DONE : Fld := ⟨R.MER_CAP_STATUS, 17, 17⟩
def F.MER_CAP_STATUS_ARMED : Fld := ⟨R.MER_CAP_STATUS, 16, 16⟩
def F.MER_CAP_STATUS_SEG : Fld := ⟨R.MER_CAP_STATUS, 8, 0⟩
/-- MER_CAP_SRC (10, Table MS-5). -/
def R.MER_CAP_SRC : Nat := 0x801008
def F.MER_CAP_SRC_KIND : Fld := ⟨R.MER_CAP_SRC, 31, 28⟩
def F.MER_CAP_SRC_FURROW : Fld := ⟨R.MER_CAP_SRC, 23, 16⟩
def F.MER_CAP_SRC_LANES : Fld := ⟨R.MER_CAP_SRC, 13, 8⟩
def F.MER_CAP_SRC_AIN : Fld := ⟨R.MER_CAP_SRC, 4, 0⟩
/-- MER_CAP_TRIG (10, Table MS-5). -/
def R.MER_CAP_TRIG : Nat := 0x80100c
def F.MER_CAP_TRIG_EVENT : Fld := ⟨R.MER_CAP_TRIG, 31, 23⟩
def F.MER_CAP_TRIG_SLOT : Fld := ⟨R.MER_CAP_TRIG, 22, 14⟩
def F.MER_CAP_TRIG_GATE : Fld := ⟨R.MER_CAP_TRIG, 11, 10⟩
def F.MER_CAP_TRIG_PLACE : Fld := ⟨R.MER_CAP_TRIG, 9, 9⟩
def F.MER_CAP_TRIG_SRC : Fld := ⟨R.MER_CAP_TRIG, 2, 0⟩
/-- MER_CAP_LEVEL (10, Table MS-5). -/
def R.MER_CAP_LEVEL : Nat := 0x801010
def F.MER_CAP_LEVEL_TH : Fld := ⟨R.MER_CAP_LEVEL, 29, 16⟩
def F.MER_CAP_LEVEL_DWELL : Fld := ⟨R.MER_CAP_LEVEL, 15, 8⟩
def F.MER_CAP_LEVEL_HYST : Fld := ⟨R.MER_CAP_LEVEL, 7, 0⟩
/-- MER_CAP_LEN (10, Table MS-5). -/
def R.MER_CAP_LEN : Nat := 0x801014
def F.MER_CAP_LEN_PRE : Fld := ⟨R.MER_CAP_LEN, 27, 16⟩
def F.MER_CAP_LEN_POST : Fld := ⟨R.MER_CAP_LEN, 12, 0⟩
/-- MER_CAP_AVG (10, Table MS-5). -/
def R.MER_CAP_AVG : Nat := 0x801018
def F.MER_CAP_AVG_M : Fld := ⟨R.MER_CAP_AVG, 8, 0⟩
/-- MER_CAP_BASE_LO (10, Table MS-5). -/
def R.MER_CAP_BASE_LO : Nat := 0x801020
def F.MER_CAP_BASE_LO_BASE : Fld := ⟨R.MER_CAP_BASE_LO, 31, 16⟩
/-- MER_CAP_BASE_HI (10, Table MS-5). -/
def R.MER_CAP_BASE_HI : Nat := 0x801024
def F.MER_CAP_BASE_HI_BASE : Fld := ⟨R.MER_CAP_BASE_HI, 8, 0⟩
/-- MER_CAP_SIZE (10, Table MS-5). -/
def R.MER_CAP_SIZE : Nat := 0x801028
def F.MER_CAP_SIZE_SIZE : Fld := ⟨R.MER_CAP_SIZE, 31, 16⟩
/-- MER_CAP_WPTR (10, Table MS-5). -/
def R.MER_CAP_WPTR : Nat := 0x80102c
def F.MER_CAP_WPTR_OFS : Fld := ⟨R.MER_CAP_WPTR, 31, 0⟩
/-- MER_CAP_RPTR (10, Table MS-5). -/
def R.MER_CAP_RPTR : Nat := 0x801030
def F.MER_CAP_RPTR_OFS : Fld := ⟨R.MER_CAP_RPTR, 31, 0⟩
/-- MER_CAPTURE_DROP (10, Table MS-5). -/
def R.MER_CAPTURE_DROP : Nat := 0x801034
def F.MER_CAPTURE_DROP_COUNT : Fld := ⟨R.MER_CAPTURE_DROP, 31, 0⟩
/-- MER_CAP_DROP_CAUSE (10, Table MS-5). -/
def R.MER_CAP_DROP_CAUSE : Nat := 0x801038
def F.MER_CAP_DROP_CAUSE_SHUTDOWN : Fld := ⟨R.MER_CAP_DROP_CAUSE, 2, 2⟩
def F.MER_CAP_DROP_CAUSE_RING : Fld := ⟨R.MER_CAP_DROP_CAUSE, 1, 1⟩
def F.MER_CAP_DROP_CAUSE_QUEUE : Fld := ⟨R.MER_CAP_DROP_CAUSE, 0, 0⟩
/-- MER_CAP_REJ_SEG (10, Table MS-5). -/
def R.MER_CAP_REJ_SEG : Nat := 0x80103c
def F.MER_CAP_REJ_SEG_COUNT : Fld := ⟨R.MER_CAP_REJ_SEG, 31, 0⟩
/-- MER_CAP_RECORDS (10, Table MS-5). -/
def R.MER_CAP_RECORDS : Nat := 0x801040
def F.MER_CAP_RECORDS_COUNT : Fld := ⟨R.MER_CAP_RECORDS, 31, 0⟩
/-- SXT_CTRL (10, Table MS-6). -/
def R.SXT_CTRL : Nat := 0x880000
def F.SXT_CTRL_CDT_RUN : Fld := ⟨R.SXT_CTRL, 3, 3⟩
def F.SXT_CTRL_CDT_COMMIT : Fld := ⟨R.SXT_CTRL, 2, 2⟩
def F.SXT_CTRL_ARM : Fld := ⟨R.SXT_CTRL, 1, 1⟩
def F.SXT_CTRL_EN : Fld := ⟨R.SXT_CTRL, 0, 0⟩
/-- SXT_STATUS (10, Table MS-6). -/
def R.SXT_STATUS : Nat := 0x880004
def F.SXT_STATUS_CDT_BUSY : Fld := ⟨R.SXT_STATUS, 9, 9⟩
def F.SXT_STATUS_PENDING_ENABLE : Fld := ⟨R.SXT_STATUS, 8, 8⟩
def F.SXT_STATUS_GATE_EDGE : Fld := ⟨R.SXT_STATUS, 7, 7⟩
def F.SXT_STATUS_DONE : Fld := ⟨R.SXT_STATUS, 6, 6⟩
def F.SXT_STATUS_ARMED : Fld := ⟨R.SXT_STATUS, 5, 5⟩
def F.SXT_STATUS_BUSY : Fld := ⟨R.SXT_STATUS, 4, 4⟩
/-- SXT_CFG (10, Table MS-6). -/
def R.SXT_CFG : Nat := 0x880008
def F.SXT_CFG_CONT : Fld := ⟨R.SXT_CFG, 31, 31⟩
def F.SXT_CFG_PRE_STOP : Fld := ⟨R.SXT_CFG, 19, 16⟩
def F.SXT_CFG_PRE_START : Fld := ⟨R.SXT_CFG, 15, 12⟩
def F.SXT_CFG_GATE_SRC : Fld := ⟨R.SXT_CFG, 9, 8⟩
def F.SXT_CFG_STOP_SRC : Fld := ⟨R.SXT_CFG, 5, 4⟩
def F.SXT_CFG_START_SRC : Fld := ⟨R.SXT_CFG, 1, 0⟩
/-- SXT_N (10, Table MS-6). -/
def R.SXT_N : Nat := 0x88000c
def F.SXT_N_N : Fld := ⟨R.SXT_N, 15, 0⟩
/-- SXT_TIMEOUT (10, Table MS-6). -/
def R.SXT_TIMEOUT : Nat := 0x880010
def F.SXT_TIMEOUT_T : Fld := ⟨R.SXT_TIMEOUT, 7, 0⟩
/-- SXT_OFS (10, Table MS-6). -/
def R.SXT_OFS : Nat := 0x880014
def F.SXT_OFS_OFS : Fld := ⟨R.SXT_OFS, 31, 0⟩
/-- SXT_COUNT (10, Table MS-6). -/
def R.SXT_COUNT : Nat := 0x880020
def F.SXT_COUNT_MISS : Fld := ⟨R.SXT_COUNT, 31, 16⟩
def F.SXT_COUNT_VALID : Fld := ⟨R.SXT_COUNT, 15, 0⟩
/-- SXT_MEAN_LO (10, Table MS-6). -/
def R.SXT_MEAN_LO : Nat := 0x880024
def F.SXT_MEAN_LO_MEAN : Fld := ⟨R.SXT_MEAN_LO, 31, 0⟩
/-- SXT_MEAN_HI (10, Table MS-6). -/
def R.SXT_MEAN_HI : Nat := 0x880028
def F.SXT_MEAN_HI_MEAN : Fld := ⟨R.SXT_MEAN_HI, 7, 0⟩
/-- SXT_SD (10, Table MS-6). -/
def R.SXT_SD : Nat := 0x88002c
def F.SXT_SD_SD : Fld := ⟨R.SXT_SD, 31, 0⟩
/-- SXT_MIN (10, Table MS-6). -/
def R.SXT_MIN : Nat := 0x880030
def F.SXT_MIN_MIN : Fld := ⟨R.SXT_MIN, 31, 0⟩
/-- SXT_MAX (10, Table MS-6). -/
def R.SXT_MAX : Nat := 0x880034
def F.SXT_MAX_MAX : Fld := ⟨R.SXT_MAX, 31, 0⟩
/-- SXT_LAST (10, Table MS-6). -/
def R.SXT_LAST : Nat := 0x880038
def F.SXT_LAST_T : Fld := ⟨R.SXT_LAST, 31, 0⟩
/-- SXT_CDT_START (10, Table MS-6). -/
def R.SXT_CDT_START (i : Nat) : Nat := 0x880100 + 4 * (i % 32)
def F.SXT_CDT_START_E3 (i : Nat) : Fld := ⟨R.SXT_CDT_START i, 31, 24⟩
def F.SXT_CDT_START_E2 (i : Nat) : Fld := ⟨R.SXT_CDT_START i, 23, 16⟩
def F.SXT_CDT_START_E1 (i : Nat) : Fld := ⟨R.SXT_CDT_START i, 15, 8⟩
def F.SXT_CDT_START_E0 (i : Nat) : Fld := ⟨R.SXT_CDT_START i, 7, 0⟩
/-- SXT_CDT_STOP (10, Table MS-6). -/
def R.SXT_CDT_STOP (i : Nat) : Nat := 0x880180 + 4 * (i % 32)
def F.SXT_CDT_STOP_E3 (i : Nat) : Fld := ⟨R.SXT_CDT_STOP i, 31, 24⟩
def F.SXT_CDT_STOP_E2 (i : Nat) : Fld := ⟨R.SXT_CDT_STOP i, 23, 16⟩
def F.SXT_CDT_STOP_E1 (i : Nat) : Fld := ⟨R.SXT_CDT_STOP i, 15, 8⟩
def F.SXT_CDT_STOP_E0 (i : Nat) : Fld := ⟨R.SXT_CDT_STOP i, 7, 0⟩
/-- ADC_CTRL (11, Table AA-4). -/
def R.ADC_CTRL : Nat := 0x900000
def F.ADC_CTRL_EN : Fld := ⟨R.ADC_CTRL, 0, 0⟩
/-- ADC_STATUS (11, Table AA-4). -/
def R.ADC_STATUS : Nat := 0x900004
def F.ADC_STATUS_HOST_URG_DONE : Fld := ⟨R.ADC_STATUS, 10, 10⟩
def F.ADC_STATUS_HOST_URG_BUSY : Fld := ⟨R.ADC_STATUS, 9, 9⟩
def F.ADC_STATUS_RUNNING : Fld := ⟨R.ADC_STATUS, 8, 8⟩
def F.ADC_STATUS_ENTRY : Fld := ⟨R.ADC_STATUS, 4, 0⟩
/-- ADC_SCAN_MASK (11, Table AA-4). -/
def R.ADC_SCAN_MASK : Nat := 0x900010
def F.ADC_SCAN_MASK_MASK : Fld := ⟨R.ADC_SCAN_MASK, 23, 0⟩
/-- ADC_CFG (11, Table AA-4). -/
def R.ADC_CFG : Nat := 0x900014
def F.ADC_CFG_KEEP_TRANSIENT : Fld := ⟨R.ADC_CFG, 1, 1⟩
def F.ADC_CFG_KEEP_SETTLING : Fld := ⟨R.ADC_CFG, 0, 0⟩
/-- ADC_URGENT (11, Table AA-4). -/
def R.ADC_URGENT : Nat := 0x900018
def F.ADC_URGENT_GO : Fld := ⟨R.ADC_URGENT, 8, 8⟩
def F.ADC_URGENT_INPUT : Fld := ⟨R.ADC_URGENT, 4, 0⟩
/-- ADC_URG_RESULT (11, Table AA-4). -/
def R.ADC_URG_RESULT : Nat := 0x90001c
def F.ADC_URG_RESULT_SAMPLE : Fld := ⟨R.ADC_URG_RESULT, 31, 0⟩
/-- ADC_OVR_STATUS (11, Table AA-4). -/
def R.ADC_OVR_STATUS : Nat := 0x900020
def F.ADC_OVR_STATUS_OVR : Fld := ⟨R.ADC_OVR_STATUS, 23, 0⟩
/-- ADC_FLAP_STATUS (11, Table AA-4). -/
def R.ADC_FLAP_STATUS : Nat := 0x900024
def F.ADC_FLAP_STATUS_FLAP : Fld := ⟨R.ADC_FLAP_STATUS, 7, 0⟩
/-- ADC_EXC_STATUS (11, Table AA-4). -/
def R.ADC_EXC_STATUS : Nat := 0x900028
def F.ADC_EXC_STATUS_FAULT : Fld := ⟨R.ADC_EXC_STATUS, 7, 0⟩
/-- ADC_CNT_DISCARD (11, Table AA-4). -/
def R.ADC_CNT_DISCARD : Nat := 0x90002c
def F.ADC_CNT_DISCARD_COUNT : Fld := ⟨R.ADC_CNT_DISCARD, 31, 0⟩
/-- ADC_IN_CFG (11, Table AA-4). -/
def R.ADC_IN_CFG (i : Nat) : Nat := 0x900100 + 4 * (i % 24)
def F.ADC_IN_CFG_EVERY (i : Nat) : Fld := ⟨R.ADC_IN_CFG i, 19, 16⟩
def F.ADC_IN_CFG_ACQ (i : Nat) : Fld := ⟨R.ADC_IN_CFG i, 3, 0⟩
/-- ADC_LAST (11, Table AA-4). -/
def R.ADC_LAST (i : Nat) : Nat := 0x900200 + 4 * (i % 24)
def F.ADC_LAST_SAMPLE (i : Nat) : Fld := ⟨R.ADC_LAST i, 31, 0⟩
/-- ADC_FE_CFG (11, Table AA-4). -/
def R.ADC_FE_CFG (i : Nat) : Nat := 0x900400 + 0x10 * (i % 8)
def F.ADC_FE_CFG_AUTO (i : Nat) : Fld := ⟨R.ADC_FE_CFG i, 31, 31⟩
def F.ADC_FE_CFG_FIXED (i : Nat) : Fld := ⟨R.ADC_FE_CFG i, 29, 28⟩
def F.ADC_FE_CFG_MODE (i : Nat) : Fld := ⟨R.ADC_FE_CFG i, 26, 24⟩
def F.ADC_FE_CFG_CUR (i : Nat) : Fld := ⟨R.ADC_FE_CFG i, 22, 16⟩
def F.ADC_FE_CFG_SETTLE (i : Nat) : Fld := ⟨R.ADC_FE_CFG i, 15, 0⟩
/-- ADC_FE_PULSE (11, Table AA-4). -/
def R.ADC_FE_PULSE (i : Nat) : Nat := 0x900404 + 0x10 * (i % 8)
def F.ADC_FE_PULSE_PERIOD (i : Nat) : Fld := ⟨R.ADC_FE_PULSE i, 31, 16⟩
def F.ADC_FE_PULSE_ON (i : Nat) : Fld := ⟨R.ADC_FE_PULSE i, 15, 0⟩
/-- ADC_FE_SWAP (11, Table AA-4). -/
def R.ADC_FE_SWAP (i : Nat) : Nat := 0x900408 + 0x10 * (i % 8)
def F.ADC_FE_SWAP_SWAP_EN (i : Nat) : Fld := ⟨R.ADC_FE_SWAP i, 8, 8⟩
def F.ADC_FE_SWAP_SWAP_INT (i : Nat) : Fld := ⟨R.ADC_FE_SWAP i, 7, 0⟩
/-- ADC_FE_STATUS (11, Table AA-4). -/
def R.ADC_FE_STATUS (i : Nat) : Nat := 0x90040c + 0x10 * (i % 8)
def F.ADC_FE_STATUS_EXC_FLAP (i : Nat) : Fld := ⟨R.ADC_FE_STATUS i, 8, 8⟩
def F.ADC_FE_STATUS_IN_WINDOW (i : Nat) : Fld := ⟨R.ADC_FE_STATUS i, 7, 7⟩
def F.ADC_FE_STATUS_SWAP (i : Nat) : Fld := ⟨R.ADC_FE_STATUS i, 6, 6⟩
def F.ADC_FE_STATUS_RANGE_FLAP (i : Nat) : Fld := ⟨R.ADC_FE_STATUS i, 5, 5⟩
def F.ADC_FE_STATUS_EXC_FAULT (i : Nat) : Fld := ⟨R.ADC_FE_STATUS i, 4, 4⟩
def F.ADC_FE_STATUS_NO_WINDOW (i : Nat) : Fld := ⟨R.ADC_FE_STATUS i, 3, 3⟩
def F.ADC_FE_STATUS_SETTLING (i : Nat) : Fld := ⟨R.ADC_FE_STATUS i, 2, 2⟩
def F.ADC_FE_STATUS_RANGE (i : Nat) : Fld := ⟨R.ADC_FE_STATUS i, 1, 0⟩
/-- CAL_STATUS (12, Table CT-6). -/
def R.CAL_STATUS : Nat := 0xa00000
def F.CAL_STATUS_RZ_FLAP : Fld := ⟨R.CAL_STATUS, 16, 16⟩
def F.CAL_STATUS_LEG_ACTIVE : Fld := ⟨R.CAL_STATUS, 15, 15⟩
def F.CAL_STATUS_SHADOW_OK : Fld := ⟨R.CAL_STATUS, 14, 14⟩
def F.CAL_STATUS_RERUN_PENDING : Fld := ⟨R.CAL_STATUS, 13, 13⟩
def F.CAL_STATUS_JRN_BUSY : Fld := ⟨R.CAL_STATUS, 12, 12⟩
def F.CAL_STATUS_BUSY : Fld := ⟨R.CAL_STATUS, 11, 11⟩
def F.CAL_STATUS_ITEM : Fld := ⟨R.CAL_STATUS, 10, 8⟩
def F.CAL_STATUS_PLAN : Fld := ⟨R.CAL_STATUS, 3, 0⟩
/-- CAL_CTRL (12, Table CT-6). -/
def R.CAL_CTRL : Nat := 0xa00004
def F.CAL_CTRL_CLR_FIELD : Fld := ⟨R.CAL_CTRL, 0, 0⟩
/-- CAL_CFG (12, Table CT-6). -/
def R.CAL_CFG : Nat := 0xa00008
def F.CAL_CFG_RECAL_DT : Fld := ⟨R.CAL_CFG, 31, 24⟩
def F.CAL_CFG_RECAL_MIN : Fld := ⟨R.CAL_CFG, 23, 16⟩
def F.CAL_CFG_LEG_EN : Fld := ⟨R.CAL_CFG, 1, 1⟩
def F.CAL_CFG_CD_SRC : Fld := ⟨R.CAL_CFG, 0, 0⟩
/-- CAL_CD_CFG (12, Table CT-6). -/
def R.CAL_CD_CFG : Nat := 0xa0000c
def F.CAL_CD_CFG_TIMEOUT : Fld := ⟨R.CAL_CD_CFG, 31, 24⟩
def F.CAL_CD_CFG_MIN_HITS : Fld := ⟨R.CAL_CD_CFG, 23, 16⟩
def F.CAL_CD_CFG_CHI_MAX : Fld := ⟨R.CAL_CD_CFG, 15, 0⟩
/-- CAL_RZ_CFG (12, Table CT-6). -/
def R.CAL_RZ_CFG : Nat := 0xa00010
def F.CAL_RZ_CFG_REF_MM : Fld := ⟨R.CAL_RZ_CFG, 31, 16⟩
def F.CAL_RZ_CFG_SNR_MIN : Fld := ⟨R.CAL_RZ_CFG, 15, 8⟩
def F.CAL_RZ_CFG_CYCLES : Fld := ⟨R.CAL_RZ_CFG, 7, 0⟩
/-- CAL_RZ_DRIFT (12, Table CT-6). -/
def R.CAL_RZ_DRIFT : Nat := 0xa00014
def F.CAL_RZ_DRIFT_DRIFT_MAX : Fld := ⟨R.CAL_RZ_DRIFT, 15, 0⟩
/-- CAL_RZ_LAT (12, Table CT-6). -/
def R.CAL_RZ_LAT : Nat := 0xa00018
def F.CAL_RZ_LAT_LAT0 : Fld := ⟨R.CAL_RZ_LAT, 31, 0⟩
/-- CAL_SURVEY_CFG (12, Table CT-6). -/
def R.CAL_SURVEY_CFG : Nat := 0xa0001c
def F.CAL_SURVEY_CFG_HOT_RATE : Fld := ⟨R.CAL_SURVEY_CFG, 23, 16⟩
def F.CAL_SURVEY_CFG_DARK_MAX : Fld := ⟨R.CAL_SURVEY_CFG, 15, 8⟩
def F.CAL_SURVEY_CFG_MAX_ADD : Fld := ⟨R.CAL_SURVEY_CFG, 2, 0⟩
/-- CAL_RESULT (12, Table CT-6). -/
def R.CAL_RESULT : Nat := 0xa00020
def F.CAL_RESULT_QUALITY : Fld := ⟨R.CAL_RESULT, 31, 24⟩
def F.CAL_RESULT_ITEM : Fld := ⟨R.CAL_RESULT, 23, 21⟩
def F.CAL_RESULT_REJECTS : Fld := ⟨R.CAL_RESULT, 20, 11⟩
def F.CAL_RESULT_FIRST : Fld := ⟨R.CAL_RESULT, 10, 0⟩
/-- CAL_LAST_CD (12, Table CT-6). -/
def R.CAL_LAST_CD : Nat := 0xa00024
def F.CAL_LAST_CD_AGE : Fld := ⟨R.CAL_LAST_CD, 31, 16⟩
def F.CAL_LAST_CD_TEMP : Fld := ⟨R.CAL_LAST_CD, 15, 0⟩
/-- CAL_LAST_RZ (12, Table CT-6). -/
def R.CAL_LAST_RZ : Nat := 0xa00028
def F.CAL_LAST_RZ_AGE : Fld := ⟨R.CAL_LAST_RZ, 31, 16⟩
def F.CAL_LAST_RZ_TEMP : Fld := ⟨R.CAL_LAST_RZ, 15, 0⟩
/-- CAL_JRN_CTRL (12, Table CT-6). -/
def R.CAL_JRN_CTRL : Nat := 0xa00030
def F.CAL_JRN_CTRL_SAVE : Fld := ⟨R.CAL_JRN_CTRL, 0, 0⟩
/-- CAL_JRN_STATUS (12, Table CT-6). -/
def R.CAL_JRN_STATUS : Nat := 0xa00034
def F.CAL_JRN_STATUS_SEQ : Fld := ⟨R.CAL_JRN_STATUS, 31, 8⟩
def F.CAL_JRN_STATUS_PENDING : Fld := ⟨R.CAL_JRN_STATUS, 3, 3⟩
def F.CAL_JRN_STATUS_FAIL : Fld := ⟨R.CAL_JRN_STATUS, 2, 2⟩
def F.CAL_JRN_STATUS_SLOT : Fld := ⟨R.CAL_JRN_STATUS, 1, 1⟩
def F.CAL_JRN_STATUS_VALID : Fld := ⟨R.CAL_JRN_STATUS, 0, 0⟩
/-- CAL_LEG_SEL (12, Table CT-6). -/
def R.CAL_LEG_SEL : Nat := 0xa00040
def F.CAL_LEG_SEL_TEMP : Fld := ⟨R.CAL_LEG_SEL, 3, 2⟩
def F.CAL_LEG_SEL_QUARTER : Fld := ⟨R.CAL_LEG_SEL, 1, 0⟩
/-- CAL_LEG_CTRL (12, Table CT-6). -/
def R.CAL_LEG_CTRL : Nat := 0xa00044
def F.CAL_LEG_CTRL_COMMIT : Fld := ⟨R.CAL_LEG_CTRL, 0, 0⟩
/-- CAL_LEG_TEMP (12, Table CT-6). -/
def R.CAL_LEG_TEMP (i : Nat) : Nat := 0xa00048 + 4 * (i % 4)
def F.CAL_LEG_TEMP_TEMP (i : Nat) : Fld := ⟨R.CAL_LEG_TEMP i, 15, 0⟩
/-- CAL_LEG_STATUS (12, Table CT-6). -/
def R.CAL_LEG_STATUS : Nat := 0xa00058
def F.CAL_LEG_STATUS_LOADED : Fld := ⟨R.CAL_LEG_STATUS, 15, 0⟩
/-- CAL_FUSE_ROW (12, Table CT-6). -/
def R.CAL_FUSE_ROW : Nat := 0xa00060
def F.CAL_FUSE_ROW_ROW : Fld := ⟨R.CAL_FUSE_ROW, 11, 0⟩
/-- CAL_FUSE_DATA_LO (12, Table CT-6). -/
def R.CAL_FUSE_DATA_LO : Nat := 0xa00064
def F.CAL_FUSE_DATA_LO_DATA : Fld := ⟨R.CAL_FUSE_DATA_LO, 31, 0⟩
/-- CAL_FUSE_DATA_HI (12, Table CT-6). -/
def R.CAL_FUSE_DATA_HI : Nat := 0xa00068
def F.CAL_FUSE_DATA_HI_DATA : Fld := ⟨R.CAL_FUSE_DATA_HI, 7, 0⟩
/-- CAL_FUSE_CTRL (12, Table CT-6). -/
def R.CAL_FUSE_CTRL : Nat := 0xa0006c
def F.CAL_FUSE_CTRL_KEY : Fld := ⟨R.CAL_FUSE_CTRL, 31, 16⟩
def F.CAL_FUSE_CTRL_BURN : Fld := ⟨R.CAL_FUSE_CTRL, 0, 0⟩
/-- CAL_FUSE_STATUS (12, Table CT-6). -/
def R.CAL_FUSE_STATUS : Nat := 0xa00070
def F.CAL_FUSE_STATUS_SPARES_FREE : Fld := ⟨R.CAL_FUSE_STATUS, 11, 8⟩
def F.CAL_FUSE_STATUS_RESULT : Fld := ⟨R.CAL_FUSE_STATUS, 2, 1⟩
def F.CAL_FUSE_STATUS_BUSY : Fld := ⟨R.CAL_FUSE_STATUS, 0, 0⟩
/-- CAL_LEG_WIN (12, Table CT-6). -/
def R.CAL_LEG_WIN (i : Nat) : Nat := 0xa01000 + 4 * (i % 581)
def F.CAL_LEG_WIN_WORD (i : Nat) : Fld := ⟨R.CAL_LEG_WIN i, 31, 0⟩
/-- CAL_LEG_BOFS (12, Table CT-6). -/
def R.CAL_LEG_BOFS (i : Nat) : Nat := 0xa04000 + 4 * (i % 1152)
def F.CAL_LEG_BOFS_BOFS (i : Nat) : Fld := ⟨R.CAL_LEG_BOFS i, 31, 0⟩
/-- CAL_FUSE_VIEW (12, Table CT-6). -/
def R.CAL_FUSE_VIEW (i : Nat) : Nat := 0xa08000 + 4 * (i % 8192)
def F.CAL_FUSE_VIEW_ROW (i : Nat) : Fld := ⟨R.CAL_FUSE_VIEW i, 31, 0⟩
/-- THM_STATUS (12, Table CT-7). -/
def R.THM_STATUS : Nat := 0xa80000
def F.THM_STATUS_HOTTEST : Fld := ⟨R.THM_STATUS, 20, 16⟩
def F.THM_STATUS_FLAP : Fld := ⟨R.THM_STATUS, 11, 11⟩
def F.THM_STATUS_RZ_STALE : Fld := ⟨R.THM_STATUS, 10, 10⟩
def F.THM_STATUS_THROTTLE : Fld := ⟨R.THM_STATUS, 9, 9⟩
def F.THM_STATUS_DERATE_SRC : Fld := ⟨R.THM_STATUS, 8, 8⟩
def F.THM_STATUS_IND : Fld := ⟨R.THM_STATUS, 6, 4⟩
def F.THM_STATUS_STAGE : Fld := ⟨R.THM_STATUS, 2, 0⟩
/-- THM_T_STAGE (12, Table CT-7). -/
def R.THM_T_STAGE : Nat := 0xa80004
def F.THM_T_STAGE_T_RZ : Fld := ⟨R.THM_T_STAGE, 31, 16⟩
def F.THM_T_STAGE_T_STAGE : Fld := ⟨R.THM_T_STAGE, 15, 0⟩
/-- THM_THR (12, Table CT-7). -/
def R.THM_THR : Nat := 0xa80008
def F.THM_THR_TRIP : Fld := ⟨R.THM_THR, 31, 24⟩
def F.THM_THR_CRITICAL : Fld := ⟨R.THM_THR, 23, 16⟩
def F.THM_THR_HOT : Fld := ⟨R.THM_THR, 15, 8⟩
def F.THM_THR_WARM : Fld := ⟨R.THM_THR, 7, 0⟩
/-- THM_HYST (12, Table CT-7). -/
def R.THM_HYST : Nat := 0xa8000c
def F.THM_HYST_DWELL : Fld := ⟨R.THM_HYST, 15, 8⟩
def F.THM_HYST_HYST : Fld := ⟨R.THM_HYST, 3, 0⟩
/-- THM_DERATE_CFG (12, Table CT-7). -/
def R.THM_DERATE_CFG : Nat := 0xa80010
def F.THM_DERATE_CFG_THROTTLE_DER : Fld := ⟨R.THM_DERATE_CFG, 0, 0⟩
/-- THM_DERATE_GATE (12, Table CT-7). -/
def R.THM_DERATE_GATE (i : Nat) : Nat := 0xa80014 + 4 * (i % 6)
def F.THM_DERATE_GATE_GATE (i : Nat) : Fld := ⟨R.THM_DERATE_GATE i, 31, 0⟩
/-- THM_COMP_CFG (12, Table CT-7). -/
def R.THM_COMP_CFG : Nat := 0xa80030
def F.THM_COMP_CFG_DLL_SLOPE : Fld := ⟨R.THM_COMP_CFG, 31, 16⟩
def F.THM_COMP_CFG_DLL_EN : Fld := ⟨R.THM_COMP_CFG, 0, 0⟩
/-- THM_SNS_CTRL (12, Table CT-7). -/
def R.THM_SNS_CTRL : Nat := 0xa80034
def F.THM_SNS_CTRL_READMIT : Fld := ⟨R.THM_SNS_CTRL, 9, 9⟩
def F.THM_SNS_CTRL_RETIRE : Fld := ⟨R.THM_SNS_CTRL, 8, 8⟩
def F.THM_SNS_CTRL_SENSOR : Fld := ⟨R.THM_SNS_CTRL, 4, 0⟩
/-- THM_RETIRED (12, Table CT-7). -/
def R.THM_RETIRED : Nat := 0xa80038
def F.THM_RETIRED_MASK : Fld := ⟨R.THM_RETIRED, 23, 0⟩
/-- THM_TRIP_REC (12, Table CT-7). -/
def R.THM_TRIP_REC : Nat := 0xa8003c
def F.THM_TRIP_REC_VALID : Fld := ⟨R.THM_TRIP_REC, 31, 31⟩
def F.THM_TRIP_REC_SENSOR : Fld := ⟨R.THM_TRIP_REC, 20, 16⟩
def F.THM_TRIP_REC_TEMP : Fld := ⟨R.THM_TRIP_REC, 15, 0⟩
/-- THM_SNS_T (12, Table CT-7). -/
def R.THM_SNS_T (i : Nat) : Nat := 0xa80100 + 8 * (i % 24)
def F.THM_SNS_T_USED (i : Nat) : Fld := ⟨R.THM_SNS_T i, 31, 16⟩
def F.THM_SNS_T_RAW (i : Nat) : Fld := ⟨R.THM_SNS_T i, 15, 0⟩
/-- THM_SNS_ST (12, Table CT-7). -/
def R.THM_SNS_ST (i : Nat) : Nat := 0xa80104 + 8 * (i % 24)
def F.THM_SNS_ST_STATE (i : Nat) : Fld := ⟨R.THM_SNS_ST i, 5, 4⟩
def F.THM_SNS_ST_FAST (i : Nat) : Fld := ⟨R.THM_SNS_ST i, 3, 3⟩
def F.THM_SNS_ST_CAUSE (i : Nat) : Fld := ⟨R.THM_SNS_ST i, 2, 0⟩
/-- THM_RAIL (12, Table CT-7). -/
def R.THM_RAIL (i : Nat) : Nat := 0xa80200 + 4 * (i % 6)
def F.THM_RAIL_MEAS (i : Nat) : Fld := ⟨R.THM_RAIL i, 31, 16⟩
def F.THM_RAIL_OV (i : Nat) : Fld := ⟨R.THM_RAIL i, 1, 1⟩
def F.THM_RAIL_UV (i : Nat) : Fld := ⟨R.THM_RAIL i, 0, 0⟩
/-- THM_RO (12, Table CT-7). -/
def R.THM_RO (i : Nat) : Nat := 0xa80280 + 4 * (i % 8)
def F.THM_RO_REF (i : Nat) : Fld := ⟨R.THM_RO i, 31, 16⟩
def F.THM_RO_COUNT (i : Nat) : Fld := ⟨R.THM_RO i, 15, 0⟩
/-- MEM_CTRL (13, Table MC-7). -/
def R.MEM_CTRL : Nat := 0xb00000
def F.MEM_CTRL_INIT : Fld := ⟨R.MEM_CTRL, 2, 2⟩
def F.MEM_CTRL_SR : Fld := ⟨R.MEM_CTRL, 1, 1⟩
def F.MEM_CTRL_EN : Fld := ⟨R.MEM_CTRL, 0, 0⟩
/-- MEM_STATUS (13, Table MC-7). -/
def R.MEM_STATUS : Nat := 0xb00004
def F.MEM_STATUS_TEMP_HI : Fld := ⟨R.MEM_STATUS, 19, 16⟩
def F.MEM_STATUS_HOTSPOT : Fld := ⟨R.MEM_STATUS, 15, 12⟩
def F.MEM_STATUS_TEMP_FLAP : Fld := ⟨R.MEM_STATUS, 11, 11⟩
def F.MEM_STATUS_HOT_FLAP : Fld := ⟨R.MEM_STATUS, 10, 10⟩
def F.MEM_STATUS_PENDING_ENABLE : Fld := ⟨R.MEM_STATUS, 9, 9⟩
def F.MEM_STATUS_INIT_BUSY : Fld := ⟨R.MEM_STATUS, 8, 8⟩
def F.MEM_STATUS_STATE : Fld := ⟨R.MEM_STATUS, 2, 0⟩
/-- MEM_CFG (13, Table MC-7). -/
def R.MEM_CFG : Nat := 0xb00008
def F.MEM_CFG_INLINE : Fld := ⟨R.MEM_CFG, 12, 12⟩
def F.MEM_CFG_LINK_ECC : Fld := ⟨R.MEM_CFG, 11, 11⟩
def F.MEM_CFG_LPDDR5X : Fld := ⟨R.MEM_CFG, 10, 10⟩
def F.MEM_CFG_BYTE_MODE : Fld := ⟨R.MEM_CFG, 9, 9⟩
def F.MEM_CFG_DENSITY : Fld := ⟨R.MEM_CFG, 8, 6⟩
def F.MEM_CFG_RANKS : Fld := ⟨R.MEM_CFG, 5, 5⟩
def F.MEM_CFG_ORDER : Fld := ⟨R.MEM_CFG, 4, 3⟩
def F.MEM_CFG_RATE : Fld := ⟨R.MEM_CFG, 2, 0⟩
/-- MEM_SIZE (13, Table MC-7). -/
def R.MEM_SIZE : Nat := 0xb0000c
def F.MEM_SIZE_MIB : Fld := ⟨R.MEM_SIZE, 31, 0⟩
/-- MEM_WIN_CFG (13, Table MC-7). -/
def R.MEM_WIN_CFG (i : Nat) : Nat := 0xb00100 + 0x10 * (i % 8)
def F.MEM_WIN_CFG_SIZE (i : Nat) : Fld := ⟨R.MEM_WIN_CFG i, 5, 1⟩
def F.MEM_WIN_CFG_EN (i : Nat) : Fld := ⟨R.MEM_WIN_CFG i, 0, 0⟩
/-- MEM_WIN_BASE (13, Table MC-7). -/
def R.MEM_WIN_BASE (i : Nat) : Nat := 0xb00104 + 0x10 * (i % 8)
def F.MEM_WIN_BASE_BASE (i : Nat) : Fld := ⟨R.MEM_WIN_BASE i, 20, 0⟩
/-- MEM_WIN_HOST_LO (13, Table MC-7). -/
def R.MEM_WIN_HOST_LO (i : Nat) : Nat := 0xb00108 + 0x10 * (i % 8)
def F.MEM_WIN_HOST_LO_HOST (i : Nat) : Fld := ⟨R.MEM_WIN_HOST_LO i, 31, 20⟩
/-- MEM_WIN_HOST_HI (13, Table MC-7). -/
def R.MEM_WIN_HOST_HI (i : Nat) : Nat := 0xb0010c + 0x10 * (i % 8)
def F.MEM_WIN_HOST_HI_HOST (i : Nat) : Fld := ⟨R.MEM_WIN_HOST_HI i, 31, 0⟩
/-- MEM_PORT_CFG (13, Table MC-7). -/
def R.MEM_PORT_CFG (i : Nat) : Nat := 0xb00200 + 0x10 * (i % 8)
def F.MEM_PORT_CFG_WEIGHT (i : Nat) : Fld := ⟨R.MEM_PORT_CFG i, 31, 24⟩
def F.MEM_PORT_CFG_LAT_TGT (i : Nat) : Fld := ⟨R.MEM_PORT_CFG i, 23, 8⟩
def F.MEM_PORT_CFG_PANIC_EN (i : Nat) : Fld := ⟨R.MEM_PORT_CFG i, 7, 7⟩
/-- MEM_PORT_PANIC (13, Table MC-7). -/
def R.MEM_PORT_PANIC (i : Nat) : Nat := 0xb00204 + 0x10 * (i % 8)
def F.MEM_PORT_PANIC_PANIC_HI (i : Nat) : Fld := ⟨R.MEM_PORT_PANIC i, 15, 8⟩
def F.MEM_PORT_PANIC_PANIC_LO (i : Nat) : Fld := ⟨R.MEM_PORT_PANIC i, 7, 0⟩
/-- MEM_PORT_STATUS (13, Table MC-7). -/
def R.MEM_PORT_STATUS (i : Nat) : Nat := 0xb00208 + 0x10 * (i % 8)
def F.MEM_PORT_STATUS_FLAP (i : Nat) : Fld := ⟨R.MEM_PORT_STATUS i, 2, 2⟩
def F.MEM_PORT_STATUS_URGENT (i : Nat) : Fld := ⟨R.MEM_PORT_STATUS i, 1, 1⟩
def F.MEM_PORT_STATUS_PANIC (i : Nat) : Fld := ⟨R.MEM_PORT_STATUS i, 0, 0⟩
/-- MEM_PORT_CNT (13, Table MC-7). -/
def R.MEM_PORT_CNT (i : Nat) : Nat := 0xb0020c + 0x10 * (i % 8)
def F.MEM_PORT_CNT_BURSTS (i : Nat) : Fld := ⟨R.MEM_PORT_CNT i, 31, 0⟩
/-- MEM_REF_CFG (13, Table MC-7). -/
def R.MEM_REF_CFG : Nat := 0xb00300
def F.MEM_REF_CFG_POLL : Fld := ⟨R.MEM_REF_CFG, 15, 8⟩
def F.MEM_REF_CFG_POSTPONE : Fld := ⟨R.MEM_REF_CFG, 7, 4⟩
def F.MEM_REF_CFG_PB : Fld := ⟨R.MEM_REF_CFG, 0, 0⟩
/-- MEM_CNT_REF_FORCED (13, Table MC-7). -/
def R.MEM_CNT_REF_FORCED : Nat := 0xb00304
def F.MEM_CNT_REF_FORCED_COUNT : Fld := ⟨R.MEM_CNT_REF_FORCED, 31, 0⟩
/-- MEM_DRAM_RATE (13, Table MC-7). -/
def R.MEM_DRAM_RATE : Nat := 0xb00308
def F.MEM_DRAM_RATE_CODE : Fld := ⟨R.MEM_DRAM_RATE, 15, 0⟩
/-- MEM_PASR (13, Table MC-7). -/
def R.MEM_PASR (i : Nat) : Nat := 0xb00310 + 4 * (i % 4)
def F.MEM_PASR_SEG_MASK (i : Nat) : Fld := ⟨R.MEM_PASR i, 7, 0⟩
/-- MEM_HOT_CFG (13, Table MC-7). -/
def R.MEM_HOT_CFG : Nat := 0xb00320
def F.MEM_HOT_CFG_DWELL : Fld := ⟨R.MEM_HOT_CFG, 15, 8⟩
def F.MEM_HOT_CFG_HOT_SHARE : Fld := ⟨R.MEM_HOT_CFG, 7, 0⟩
/-- MEM_HOT_BANK (13, Table MC-7). -/
def R.MEM_HOT_BANK : Nat := 0xb00324
def F.MEM_HOT_BANK_LAST : Fld := ⟨R.MEM_HOT_BANK, 31, 0⟩
/-- MEM_ECC_CE_CNT (13, Table MC-7). -/
def R.MEM_ECC_CE_CNT : Nat := 0xb00330
def F.MEM_ECC_CE_CNT_COUNT : Fld := ⟨R.MEM_ECC_CE_CNT, 31, 0⟩
/-- MEM_ECC_CE_THR (13, Table MC-7). -/
def R.MEM_ECC_CE_THR : Nat := 0xb00334
def F.MEM_ECC_CE_THR_LIMIT : Fld := ⟨R.MEM_ECC_CE_THR, 15, 0⟩
/-- MEM_ECC_UE_CNT (13, Table MC-7). -/
def R.MEM_ECC_UE_CNT : Nat := 0xb00338
def F.MEM_ECC_UE_CNT_COUNT : Fld := ⟨R.MEM_ECC_UE_CNT, 31, 0⟩
/-- MEM_ECC_ADDR_LO (13, Table MC-7). -/
def R.MEM_ECC_ADDR_LO : Nat := 0xb0033c
def F.MEM_ECC_ADDR_LO_ADDR : Fld := ⟨R.MEM_ECC_ADDR_LO, 31, 0⟩
/-- MEM_ECC_ADDR_HI (13, Table MC-7). -/
def R.MEM_ECC_ADDR_HI : Nat := 0xb00340
def F.MEM_ECC_ADDR_HI_ADDR : Fld := ⟨R.MEM_ECC_ADDR_HI, 8, 0⟩
/-- MEM_CNT_LINK_RETRY (13, Table MC-7). -/
def R.MEM_CNT_LINK_RETRY : Nat := 0xb00344
def F.MEM_CNT_LINK_RETRY_COUNT : Fld := ⟨R.MEM_CNT_LINK_RETRY, 31, 0⟩
/-- MEM_SCRUB_CFG (13, Table MC-7). -/
def R.MEM_SCRUB_CFG : Nat := 0xb00348
def F.MEM_SCRUB_CFG_PERIOD : Fld := ⟨R.MEM_SCRUB_CFG, 15, 8⟩
def F.MEM_SCRUB_CFG_EN : Fld := ⟨R.MEM_SCRUB_CFG, 0, 0⟩
/-- MEM_ADDR_ERR_ADDR (13, Table MC-7). -/
def R.MEM_ADDR_ERR_ADDR : Nat := 0xb00350
def F.MEM_ADDR_ERR_ADDR_ADDR : Fld := ⟨R.MEM_ADDR_ERR_ADDR, 31, 0⟩
/-- MEM_ADDR_ERR_INFO (13, Table MC-7). -/
def R.MEM_ADDR_ERR_INFO : Nat := 0xb00354
def F.MEM_ADDR_ERR_INFO_CAUSE : Fld := ⟨R.MEM_ADDR_ERR_INFO, 19, 16⟩
def F.MEM_ADDR_ERR_INFO_PORT : Fld := ⟨R.MEM_ADDR_ERR_INFO, 11, 9⟩
def F.MEM_ADDR_ERR_INFO_ADDR : Fld := ⟨R.MEM_ADDR_ERR_INFO, 8, 0⟩
/-- MEM_PB_BASE_LO (13, Table MC-7). -/
def R.MEM_PB_BASE_LO : Nat := 0xb00400
def F.MEM_PB_BASE_LO_BASE : Fld := ⟨R.MEM_PB_BASE_LO, 31, 16⟩
/-- MEM_PB_BASE_HI (13, Table MC-7). -/
def R.MEM_PB_BASE_HI : Nat := 0xb00404
def F.MEM_PB_BASE_HI_BASE : Fld := ⟨R.MEM_PB_BASE_HI, 8, 0⟩
/-- MEM_PB_SIZE (13, Table MC-7). -/
def R.MEM_PB_SIZE : Nat := 0xb00408
def F.MEM_PB_SIZE_SIZE : Fld := ⟨R.MEM_PB_SIZE, 31, 16⟩
/-- MEM_PB_WPTR (13, Table MC-7). -/
def R.MEM_PB_WPTR : Nat := 0xb0040c
def F.MEM_PB_WPTR_OFS : Fld := ⟨R.MEM_PB_WPTR, 31, 0⟩
/-- MEM_PB_RPTR (13, Table MC-7). -/
def R.MEM_PB_RPTR : Nat := 0xb00410
def F.MEM_PB_RPTR_OFS : Fld := ⟨R.MEM_PB_RPTR, 31, 0⟩
/-- MEM_PB_CFG (13, Table MC-7). -/
def R.MEM_PB_CFG : Nat := 0xb00414
def F.MEM_PB_CFG_CONSUMER : Fld := ⟨R.MEM_PB_CFG, 0, 0⟩
/-- MEM_PB_OVF_CNT (13, Table MC-7). -/
def R.MEM_PB_OVF_CNT : Nat := 0xb00418
def F.MEM_PB_OVF_CNT_COUNT : Fld := ⟨R.MEM_PB_OVF_CNT, 31, 0⟩
/-- MEM_PB_OVF_CAUSE (13, Table MC-7). -/
def R.MEM_PB_OVF_CAUSE : Nat := 0xb0041c
def F.MEM_PB_OVF_CAUSE_WINDOW : Fld := ⟨R.MEM_PB_OVF_CAUSE, 1, 1⟩
def F.MEM_PB_OVF_CAUSE_FULL : Fld := ⟨R.MEM_PB_OVF_CAUSE, 0, 0⟩
/-- MEM_MR_CMD (13, Table MC-7). -/
def R.MEM_MR_CMD : Nat := 0xb00500
def F.MEM_MR_CMD_GO : Fld := ⟨R.MEM_MR_CMD, 31, 31⟩
def F.MEM_MR_CMD_BUSY : Fld := ⟨R.MEM_MR_CMD, 30, 30⟩
def F.MEM_MR_CMD_READ : Fld := ⟨R.MEM_MR_CMD, 29, 29⟩
def F.MEM_MR_CMD_CH : Fld := ⟨R.MEM_MR_CMD, 28, 27⟩
def F.MEM_MR_CMD_RANK : Fld := ⟨R.MEM_MR_CMD, 26, 26⟩
def F.MEM_MR_CMD_MA : Fld := ⟨R.MEM_MR_CMD, 15, 8⟩
def F.MEM_MR_CMD_OP : Fld := ⟨R.MEM_MR_CMD, 7, 0⟩
/-- MEM_MR_DATA (13, Table MC-7). -/
def R.MEM_MR_DATA : Nat := 0xb00504
def F.MEM_MR_DATA_DATA : Fld := ⟨R.MEM_MR_DATA, 7, 0⟩
/-- MEM_TRN_CTRL (13, Table MC-7). -/
def R.MEM_TRN_CTRL : Nat := 0xb00510
def F.MEM_TRN_CTRL_BUSY : Fld := ⟨R.MEM_TRN_CTRL, 1, 1⟩
def F.MEM_TRN_CTRL_GO : Fld := ⟨R.MEM_TRN_CTRL, 0, 0⟩
/-- MEM_TRN_CFG (13, Table MC-7). -/
def R.MEM_TRN_CFG : Nat := 0xb00514
def F.MEM_TRN_CFG_BURSTS : Fld := ⟨R.MEM_TRN_CFG, 31, 24⟩
def F.MEM_TRN_CFG_STEPS : Fld := ⟨R.MEM_TRN_CFG, 21, 16⟩
def F.MEM_TRN_CFG_START : Fld := ⟨R.MEM_TRN_CFG, 15, 8⟩
def F.MEM_TRN_CFG_BANK : Fld := ⟨R.MEM_TRN_CFG, 7, 4⟩
def F.MEM_TRN_CFG_DIR : Fld := ⟨R.MEM_TRN_CFG, 3, 3⟩
def F.MEM_TRN_CFG_PAT : Fld := ⟨R.MEM_TRN_CFG, 2, 1⟩
def F.MEM_TRN_CFG_RANK : Fld := ⟨R.MEM_TRN_CFG, 0, 0⟩
/-- MEM_TRN_ADDR (13, Table MC-7). -/
def R.MEM_TRN_ADDR : Nat := 0xb00518
def F.MEM_TRN_ADDR_CH : Fld := ⟨R.MEM_TRN_ADDR, 31, 30⟩
def F.MEM_TRN_ADDR_ROW : Fld := ⟨R.MEM_TRN_ADDR, 29, 5⟩
def F.MEM_TRN_ADDR_COL : Fld := ⟨R.MEM_TRN_ADDR, 4, 0⟩
/-- MEM_TRN_USER_LO (13, Table MC-7). -/
def R.MEM_TRN_USER_LO : Nat := 0xb0051c
def F.MEM_TRN_USER_LO_PATTERN : Fld := ⟨R.MEM_TRN_USER_LO, 31, 0⟩
/-- MEM_TRN_USER_HI (13, Table MC-7). -/
def R.MEM_TRN_USER_HI : Nat := 0xb00520
def F.MEM_TRN_USER_HI_PATTERN : Fld := ⟨R.MEM_TRN_USER_HI, 31, 0⟩
/-- MEM_TRN_STATE (13, Table MC-7). -/
def R.MEM_TRN_STATE : Nat := 0xb00524
def F.MEM_TRN_STATE_VALID : Fld := ⟨R.MEM_TRN_STATE, 4, 4⟩
def F.MEM_TRN_STATE_FAIL : Fld := ⟨R.MEM_TRN_STATE, 3, 0⟩
/-- MEM_TRN_MASK (13, Table MC-7). -/
def R.MEM_TRN_MASK (i : Nat) : Nat := 0xb00600 + 4 * (i % 64)
def F.MEM_TRN_MASK_PASS (i : Nat) : Fld := ⟨R.MEM_TRN_MASK i, 15, 0⟩
/-- MEM_DLY (13, Table MC-7). -/
def R.MEM_DLY (i : Nat) (j : Nat) : Nat := 0xb00800 + 0x100 * (i % 4) + 4 * (j % 16)
def F.MEM_DLY_WR (i : Nat) (j : Nat) : Fld := ⟨R.MEM_DLY i j, 22, 16⟩
def F.MEM_DLY_RD (i : Nat) (j : Nat) : Fld := ⟨R.MEM_DLY i j, 6, 0⟩
/-- LNK_CTRL (14, Table LK-7). -/
def R.LNK_CTRL : Nat := 0xc00000
def F.LNK_CTRL_ETH1_EN : Fld := ⟨R.LNK_CTRL, 2, 2⟩
def F.LNK_CTRL_ETH0_EN : Fld := ⟨R.LNK_CTRL, 1, 1⟩
def F.LNK_CTRL_PCIE_EN : Fld := ⟨R.LNK_CTRL, 0, 0⟩
/-- LNK_CFG (14, Table LK-7). -/
def R.LNK_CFG : Nat := 0xc00004
def F.LNK_CFG_PCIE_SPEED : Fld := ⟨R.LNK_CFG, 5, 4⟩
def F.LNK_CFG_LANE_MAP : Fld := ⟨R.LNK_CFG, 2, 0⟩
/-- LNK_STATUS (14, Table LK-7). -/
def R.LNK_STATUS : Nat := 0xc00008
def F.LNK_STATUS_ETH1_UP : Fld := ⟨R.LNK_STATUS, 21, 21⟩
def F.LNK_STATUS_ETH0_UP : Fld := ⟨R.LNK_STATUS, 20, 20⟩
def F.LNK_STATUS_BME : Fld := ⟨R.LNK_STATUS, 16, 16⟩
def F.LNK_STATUS_WIDTH : Fld := ⟨R.LNK_STATUS, 12, 10⟩
def F.LNK_STATUS_SPEED : Fld := ⟨R.LNK_STATUS, 9, 8⟩
def F.LNK_STATUS_PCIE_UP : Fld := ⟨R.LNK_STATUS, 7, 7⟩
/-- LNK_PCIE_CFG (14, Table LK-7). -/
def R.LNK_PCIE_CFG : Nat := 0xc0000c
def F.LNK_PCIE_CFG_L1_SUP : Fld := ⟨R.LNK_PCIE_CFG, 9, 9⟩
def F.LNK_PCIE_CFG_L0S_SUP : Fld := ⟨R.LNK_PCIE_CFG, 8, 8⟩
def F.LNK_PCIE_CFG_BAR2_SIZE : Fld := ⟨R.LNK_PCIE_CFG, 5, 0⟩
/-- LNK_LANE_ST (14, Table LK-7). -/
def R.LNK_LANE_ST (i : Nat) : Nat := 0xc00020 + 4 * (i % 4)
def F.LNK_LANE_ST_FLAP (i : Nat) : Fld := ⟨R.LNK_LANE_ST i, 5, 5⟩
def F.LNK_LANE_ST_LOL (i : Nat) : Fld := ⟨R.LNK_LANE_ST i, 4, 4⟩
def F.LNK_LANE_ST_LOS (i : Nat) : Fld := ⟨R.LNK_LANE_ST i, 3, 3⟩
def F.LNK_LANE_ST_USE (i : Nat) : Fld := ⟨R.LNK_LANE_ST i, 1, 0⟩
/-- LNK_LANE_TEST (14, Table LK-7). -/
def R.LNK_LANE_TEST (i : Nat) : Nat := 0xc00030 + 4 * (i % 4)
def F.LNK_LANE_TEST_PRBS (i : Nat) : Fld := ⟨R.LNK_LANE_TEST i, 5, 4⟩
def F.LNK_LANE_TEST_LOOP (i : Nat) : Fld := ⟨R.LNK_LANE_TEST i, 2, 0⟩
/-- LNK_PRBS_ERR (14, Table LK-7). -/
def R.LNK_PRBS_ERR (i : Nat) : Nat := 0xc00040 + 4 * (i % 4)
def F.LNK_PRBS_ERR_COUNT (i : Nat) : Fld := ⟨R.LNK_PRBS_ERR i, 31, 0⟩
/-- LNK_PKT_CFG (14, Table LK-7). -/
def R.LNK_PKT_CFG : Nat := 0xc00060
def F.LNK_PKT_CFG_UDP_CSUM : Fld := ⟨R.LNK_PKT_CFG, 31, 31⟩
def F.LNK_PKT_CFG_JUMBO : Fld := ⟨R.LNK_PKT_CFG, 30, 30⟩
def F.LNK_PKT_CFG_PORT_SEL : Fld := ⟨R.LNK_PKT_CFG, 29, 28⟩
def F.LNK_PKT_CFG_FLUSH : Fld := ⟨R.LNK_PKT_CFG, 15, 0⟩
/-- LNK_PKT_DROP (14, Table LK-7). -/
def R.LNK_PKT_DROP : Nat := 0xc00064
def F.LNK_PKT_DROP_COUNT : Fld := ⟨R.LNK_PKT_DROP, 31, 0⟩
/-- LNK_ETH_CTRL (14, Table LK-7). -/
def R.LNK_ETH_CTRL (i : Nat) : Nat := 0xc00100 + 0x80 * (i % 2)
def F.LNK_ETH_CTRL_PKT_EN (i : Nat) : Fld := ⟨R.LNK_ETH_CTRL i, 4, 4⟩
def F.LNK_ETH_CTRL_VLAN_EN (i : Nat) : Fld := ⟨R.LNK_ETH_CTRL i, 3, 3⟩
def F.LNK_ETH_CTRL_LPI_EN (i : Nat) : Fld := ⟨R.LNK_ETH_CTRL i, 2, 2⟩
def F.LNK_ETH_CTRL_RX_EN (i : Nat) : Fld := ⟨R.LNK_ETH_CTRL i, 1, 1⟩
def F.LNK_ETH_CTRL_TX_EN (i : Nat) : Fld := ⟨R.LNK_ETH_CTRL i, 0, 0⟩
/-- LNK_ETH_STATUS (14, Table LK-7). -/
def R.LNK_ETH_STATUS (i : Nat) : Nat := 0xc00104 + 0x80 * (i % 2)
def F.LNK_ETH_STATUS_RX_PENDING (i : Nat) : Fld := ⟨R.LNK_ETH_STATUS i, 5, 5⟩
def F.LNK_ETH_STATUS_TX_PENDING (i : Nat) : Fld := ⟨R.LNK_ETH_STATUS i, 4, 4⟩
def F.LNK_ETH_STATUS_RX_LPI (i : Nat) : Fld := ⟨R.LNK_ETH_STATUS i, 3, 3⟩
def F.LNK_ETH_STATUS_TX_LPI (i : Nat) : Fld := ⟨R.LNK_ETH_STATUS i, 2, 2⟩
def F.LNK_ETH_STATUS_BLOCK_LOCK (i : Nat) : Fld := ⟨R.LNK_ETH_STATUS i, 1, 1⟩
def F.LNK_ETH_STATUS_UP (i : Nat) : Fld := ⟨R.LNK_ETH_STATUS i, 0, 0⟩
/-- LNK_ETH_SMAC_LO (14, Table LK-7). -/
def R.LNK_ETH_SMAC_LO (i : Nat) : Nat := 0xc00108 + 0x80 * (i % 2)
def F.LNK_ETH_SMAC_LO_MAC (i : Nat) : Fld := ⟨R.LNK_ETH_SMAC_LO i, 31, 0⟩
/-- LNK_ETH_SMAC_HI (14, Table LK-7). -/
def R.LNK_ETH_SMAC_HI (i : Nat) : Nat := 0xc0010c + 0x80 * (i % 2)
def F.LNK_ETH_SMAC_HI_MAC (i : Nat) : Fld := ⟨R.LNK_ETH_SMAC_HI i, 15, 0⟩
/-- LNK_ETH_DMAC_LO (14, Table LK-7). -/
def R.LNK_ETH_DMAC_LO (i : Nat) : Nat := 0xc00110 + 0x80 * (i % 2)
def F.LNK_ETH_DMAC_LO_MAC (i : Nat) : Fld := ⟨R.LNK_ETH_DMAC_LO i, 31, 0⟩
/-- LNK_ETH_DMAC_HI (14, Table LK-7). -/
def R.LNK_ETH_DMAC_HI (i : Nat) : Nat := 0xc00114 + 0x80 * (i % 2)
def F.LNK_ETH_DMAC_HI_MAC (i : Nat) : Fld := ⟨R.LNK_ETH_DMAC_HI i, 15, 0⟩
/-- LNK_ETH_SIP (14, Table LK-7). -/
def R.LNK_ETH_SIP (i : Nat) : Nat := 0xc00118 + 0x80 * (i % 2)
def F.LNK_ETH_SIP_IP (i : Nat) : Fld := ⟨R.LNK_ETH_SIP i, 31, 0⟩
/-- LNK_ETH_DIP (14, Table LK-7). -/
def R.LNK_ETH_DIP (i : Nat) : Nat := 0xc0011c + 0x80 * (i % 2)
def F.LNK_ETH_DIP_IP (i : Nat) : Fld := ⟨R.LNK_ETH_DIP i, 31, 0⟩
/-- LNK_ETH_UDP (14, Table LK-7). -/
def R.LNK_ETH_UDP (i : Nat) : Nat := 0xc00120 + 0x80 * (i % 2)
def F.LNK_ETH_UDP_SPORT (i : Nat) : Fld := ⟨R.LNK_ETH_UDP i, 31, 16⟩
def F.LNK_ETH_UDP_DPORT (i : Nat) : Fld := ⟨R.LNK_ETH_UDP i, 15, 0⟩
/-- LNK_ETH_IP_CFG (14, Table LK-7). -/
def R.LNK_ETH_IP_CFG (i : Nat) : Nat := 0xc00124 + 0x80 * (i % 2)
def F.LNK_ETH_IP_CFG_PCP (i : Nat) : Fld := ⟨R.LNK_ETH_IP_CFG i, 31, 29⟩
def F.LNK_ETH_IP_CFG_VID (i : Nat) : Fld := ⟨R.LNK_ETH_IP_CFG i, 27, 16⟩
def F.LNK_ETH_IP_CFG_TTL (i : Nat) : Fld := ⟨R.LNK_ETH_IP_CFG i, 15, 8⟩
def F.LNK_ETH_IP_CFG_DSCP (i : Nat) : Fld := ⟨R.LNK_ETH_IP_CFG i, 7, 2⟩
/-- LNK_ETH_MBOX (14, Table LK-7). -/
def R.LNK_ETH_MBOX (i : Nat) : Nat := 0xc00128 + 0x80 * (i % 2)
def F.LNK_ETH_MBOX_MBOX_PORT (i : Nat) : Fld := ⟨R.LNK_ETH_MBOX i, 15, 0⟩
/-- LNK_ETH_FRAMES_TX (14, Table LK-7). -/
def R.LNK_ETH_FRAMES_TX (i : Nat) : Nat := 0xc00140 + 0x80 * (i % 2)
def F.LNK_ETH_FRAMES_TX_COUNT (i : Nat) : Fld := ⟨R.LNK_ETH_FRAMES_TX i, 31, 0⟩
/-- LNK_ETH_PKTS_TX (14, Table LK-7). -/
def R.LNK_ETH_PKTS_TX (i : Nat) : Nat := 0xc00144 + 0x80 * (i % 2)
def F.LNK_ETH_PKTS_TX_COUNT (i : Nat) : Fld := ⟨R.LNK_ETH_PKTS_TX i, 31, 0⟩
/-- LNK_ETH_FRAMES_RX (14, Table LK-7). -/
def R.LNK_ETH_FRAMES_RX (i : Nat) : Nat := 0xc00148 + 0x80 * (i % 2)
def F.LNK_ETH_FRAMES_RX_COUNT (i : Nat) : Fld := ⟨R.LNK_ETH_FRAMES_RX i, 31, 0⟩
/-- LNK_ETH_FCS_ERR_RX (14, Table LK-7). -/
def R.LNK_ETH_FCS_ERR_RX (i : Nat) : Nat := 0xc0014c + 0x80 * (i % 2)
def F.LNK_ETH_FCS_ERR_RX_COUNT (i : Nat) : Fld := ⟨R.LNK_ETH_FCS_ERR_RX i, 31, 0⟩
/-- LNK_ETH_DISCARD_RX (14, Table LK-7). -/
def R.LNK_ETH_DISCARD_RX (i : Nat) : Nat := 0xc00150 + 0x80 * (i % 2)
def F.LNK_ETH_DISCARD_RX_COUNT (i : Nat) : Fld := ⟨R.LNK_ETH_DISCARD_RX i, 31, 0⟩
/-- LNK_ETH_PKT_SEQ (14, Table LK-7). -/
def R.LNK_ETH_PKT_SEQ (i : Nat) : Nat := 0xc00154 + 0x80 * (i % 2)
def F.LNK_ETH_PKT_SEQ_SEQ (i : Nat) : Fld := ⟨R.LNK_ETH_PKT_SEQ i, 31, 0⟩
/-- LNK_PTP_CTRL (14, Table LK-7). -/
def R.LNK_PTP_CTRL : Nat := 0xc00300
def F.LNK_PTP_CTRL_SNAP : Fld := ⟨R.LNK_PTP_CTRL, 2, 2⟩
def F.LNK_PTP_CTRL_SYNC_SET : Fld := ⟨R.LNK_PTP_CTRL, 1, 1⟩
def F.LNK_PTP_CTRL_EN : Fld := ⟨R.LNK_PTP_CTRL, 0, 0⟩
/-- LNK_PTP_STATUS (14, Table LK-7). -/
def R.LNK_PTP_STATUS : Nat := 0xc00304
def F.LNK_PTP_STATUS_SLEWING : Fld := ⟨R.LNK_PTP_STATUS, 2, 2⟩
def F.LNK_PTP_STATUS_TS_AVAIL : Fld := ⟨R.LNK_PTP_STATUS, 1, 1⟩
def F.LNK_PTP_STATUS_SYNCED : Fld := ⟨R.LNK_PTP_STATUS, 0, 0⟩
/-- LNK_PTP_TIME_LO (14, Table LK-7). -/
def R.LNK_PTP_TIME_LO : Nat := 0xc00308
def F.LNK_PTP_TIME_LO_NS : Fld := ⟨R.LNK_PTP_TIME_LO, 31, 0⟩
/-- LNK_PTP_TIME_HI (14, Table LK-7). -/
def R.LNK_PTP_TIME_HI : Nat := 0xc0030c
def F.LNK_PTP_TIME_HI_NS : Fld := ⟨R.LNK_PTP_TIME_HI, 31, 0⟩
/-- LNK_PTP_RATE (14, Table LK-7). -/
def R.LNK_PTP_RATE : Nat := 0xc00310
def F.LNK_PTP_RATE_RATE : Fld := ⟨R.LNK_PTP_RATE, 31, 0⟩
/-- LNK_PTP_STEP (14, Table LK-7). -/
def R.LNK_PTP_STEP : Nat := 0xc00314
def F.LNK_PTP_STEP_STEP : Fld := ⟨R.LNK_PTP_STEP, 31, 0⟩
/-- LNK_PTP_HOLD (14, Table LK-7). -/
def R.LNK_PTP_HOLD : Nat := 0xc00318
def F.LNK_PTP_HOLD_HOLD : Fld := ⟨R.LNK_PTP_HOLD, 7, 0⟩
/-- LNK_PTP_TS_LO (14, Table LK-7). -/
def R.LNK_PTP_TS_LO : Nat := 0xc00320
def F.LNK_PTP_TS_LO_NS : Fld := ⟨R.LNK_PTP_TS_LO, 31, 0⟩
/-- LNK_PTP_TS_HI (14, Table LK-7). -/
def R.LNK_PTP_TS_HI : Nat := 0xc00324
def F.LNK_PTP_TS_HI_NS : Fld := ⟨R.LNK_PTP_TS_HI, 31, 0⟩
/-- LNK_PTP_TS_INFO (14, Table LK-7). -/
def R.LNK_PTP_TS_INFO : Nat := 0xc00328
def F.LNK_PTP_TS_INFO_VALID : Fld := ⟨R.LNK_PTP_TS_INFO, 31, 31⟩
def F.LNK_PTP_TS_INFO_DIR : Fld := ⟨R.LNK_PTP_TS_INFO, 30, 30⟩
def F.LNK_PTP_TS_INFO_PORT : Fld := ⟨R.LNK_PTP_TS_INFO, 29, 29⟩
def F.LNK_PTP_TS_INFO_SEQ_ID : Fld := ⟨R.LNK_PTP_TS_INFO, 15, 0⟩
/-- LNK_MBOX_OWNER (14, Table LK-7). -/
def R.LNK_MBOX_OWNER : Nat := 0xc00400
def F.LNK_MBOX_OWNER_OWNER : Fld := ⟨R.LNK_MBOX_OWNER, 1, 0⟩
/-- LNK_MSPI_CRC_CNT (14, Table LK-7). -/
def R.LNK_MSPI_CRC_CNT : Nat := 0xc00408
def F.LNK_MSPI_CRC_CNT_COUNT : Fld := ⟨R.LNK_MSPI_CRC_CNT, 31, 0⟩
/-- LNK_MSPI_WIN (14, Table LK-7). -/
def R.LNK_MSPI_WIN : Nat := 0xc0040c
def F.LNK_MSPI_WIN_WIN : Fld := ⟨R.LNK_MSPI_WIN, 9, 0⟩
/-- LNK_I2C_CFG (14, Table LK-7). -/
def R.LNK_I2C_CFG : Nat := 0xc00410
def F.LNK_I2C_CFG_STRETCH : Fld := ⟨R.LNK_I2C_CFG, 15, 8⟩
def F.LNK_I2C_CFG_SPEED : Fld := ⟨R.LNK_I2C_CFG, 1, 0⟩
/-- LNK_I2C_STATUS (14, Table LK-7). -/
def R.LNK_I2C_STATUS : Nat := 0xc00414
def F.LNK_I2C_STATUS_BUSY : Fld := ⟨R.LNK_I2C_STATUS, 1, 1⟩
def F.LNK_I2C_STATUS_STUCK : Fld := ⟨R.LNK_I2C_STATUS, 0, 0⟩
/-- LNK_MBOX_BUF (14, Table LK-7). -/
def R.LNK_MBOX_BUF (i : Nat) : Nat := 0xc04000 + 4 * (i % 1024)
def F.LNK_MBOX_BUF_WORD (i : Nat) : Fld := ⟨R.LNK_MBOX_BUF i, 31, 0⟩
/-- LNK_MSIX_TABLE (14, Table LK-7). -/
def R.LNK_MSIX_TABLE (i : Nat) : Nat := 0xc08000 + 4 * (i % 128)
def F.LNK_MSIX_TABLE_WORD (i : Nat) : Fld := ⟨R.LNK_MSIX_TABLE i, 31, 0⟩
/-- LNK_MSIX_PBA (14, Table LK-7). -/
def R.LNK_MSIX_PBA (i : Nat) : Nat := 0xc09000 + 4 * (i % 2)
def F.LNK_MSIX_PBA_PBA (i : Nat) : Fld := ⟨R.LNK_MSIX_PBA i, 31, 0⟩
/-- BOOT_STATUS (15, Table BU-10). -/
def R.BOOT_STATUS : Nat := 0xd00000
def F.BOOT_STATUS_SET_REJ : Fld := ⟨R.BOOT_STATUS, 23, 16⟩
def F.BOOT_STATUS_CD_DUE : Fld := ⟨R.BOOT_STATUS, 15, 15⟩
def F.BOOT_STATUS_SLOT_WRITE : Fld := ⟨R.BOOT_STATUS, 14, 14⟩
def F.BOOT_STATUS_IMAGE_VALID : Fld := ⟨R.BOOT_STATUS, 13, 13⟩
def F.BOOT_STATUS_LOADER_VALID : Fld := ⟨R.BOOT_STATUS, 12, 12⟩
def F.BOOT_STATUS_UPD_STATE : Fld := ⟨R.BOOT_STATUS, 11, 10⟩
def F.BOOT_STATUS_SESSION : Fld := ⟨R.BOOT_STATUS, 9, 9⟩
def F.BOOT_STATUS_FUSE_KEPT : Fld := ⟨R.BOOT_STATUS, 7, 7⟩
def F.BOOT_STATUS_BIST_SKIPPED : Fld := ⟨R.BOOT_STATUS, 6, 6⟩
def F.BOOT_STATUS_TRAIN_SKIPPED : Fld := ⟨R.BOOT_STATUS, 5, 5⟩
def F.BOOT_STATUS_CD_SKIPPED : Fld := ⟨R.BOOT_STATUS, 4, 4⟩
def F.BOOT_STATUS_STEP : Fld := ⟨R.BOOT_STATUS, 3, 0⟩
/-- BOOT_LAST_RESET (15, Table BU-10). -/
def R.BOOT_LAST_RESET : Nat := 0xd00004
def F.BOOT_LAST_RESET_FAIL_STEP : Fld := ⟨R.BOOT_LAST_RESET, 11, 8⟩
def F.BOOT_LAST_RESET_CAUSE : Fld := ⟨R.BOOT_LAST_RESET, 3, 0⟩
/-- BOOT_FAIL (15, Table BU-10). -/
def R.BOOT_FAIL : Nat := 0xd00008
def F.BOOT_FAIL_COUNT : Fld := ⟨R.BOOT_FAIL, 1, 0⟩
/-- BOOT_IMAGE_VER (15, Table BU-10). -/
def R.BOOT_IMAGE_VER : Nat := 0xd00010
def F.BOOT_IMAGE_VER_VERSION : Fld := ⟨R.BOOT_IMAGE_VER, 31, 0⟩
/-- BOOT_IMAGE_INFO (15, Table BU-10). -/
def R.BOOT_IMAGE_INFO : Nat := 0xd00014
def F.BOOT_IMAGE_INFO_SETTINGS_FMT : Fld := ⟨R.BOOT_IMAGE_INFO, 31, 16⟩
def F.BOOT_IMAGE_INFO_SERIAL_BOUND : Fld := ⟨R.BOOT_IMAGE_INFO, 9, 9⟩
def F.BOOT_IMAGE_INFO_KEY_ID : Fld := ⟨R.BOOT_IMAGE_INFO, 7, 0⟩
/-- BOOT_SERIAL_LO (15, Table BU-10). -/
def R.BOOT_SERIAL_LO : Nat := 0xd00018
def F.BOOT_SERIAL_LO_SERIAL : Fld := ⟨R.BOOT_SERIAL_LO, 31, 0⟩
/-- BOOT_SERIAL_HI (15, Table BU-10). -/
def R.BOOT_SERIAL_HI : Nat := 0xd0001c
def F.BOOT_SERIAL_HI_SERIAL : Fld := ⟨R.BOOT_SERIAL_HI, 31, 0⟩
/-- BOOT_UPD_RESULT (15, Table BU-10). -/
def R.BOOT_UPD_RESULT : Nat := 0xd00020
def F.BOOT_UPD_RESULT_RESULT : Fld := ⟨R.BOOT_UPD_RESULT, 7, 0⟩
/-- BOOT_STAGE_BASE_LO (15, Table BU-10). -/
def R.BOOT_STAGE_BASE_LO : Nat := 0xd00024
def F.BOOT_STAGE_BASE_LO_BASE : Fld := ⟨R.BOOT_STAGE_BASE_LO, 31, 23⟩
/-- BOOT_STAGE_BASE_HI (15, Table BU-10). -/
def R.BOOT_STAGE_BASE_HI : Nat := 0xd00028
def F.BOOT_STAGE_BASE_HI_BASE : Fld := ⟨R.BOOT_STAGE_BASE_HI, 7, 0⟩
/-- BOOT_SET_OPT (15, Table BU-10). -/
def R.BOOT_SET_OPT : Nat := 0xd00030
def F.BOOT_SET_OPT_AUTO_SCAN : Fld := ⟨R.BOOT_SET_OPT, 0, 0⟩
/-- BOOT_HDL_CTRL (15, Table BU-10). -/
def R.BOOT_HDL_CTRL : Nat := 0xd00040
def F.BOOT_HDL_CTRL_CONFIRM : Fld := ⟨R.BOOT_HDL_CTRL, 1, 1⟩
def F.BOOT_HDL_CTRL_SEND : Fld := ⟨R.BOOT_HDL_CTRL, 0, 0⟩
/-- BOOT_HDL_CFG (15, Table BU-10). -/
def R.BOOT_HDL_CFG : Nat := 0xd00044
def F.BOOT_HDL_CFG_AUTO_START : Fld := ⟨R.BOOT_HDL_CFG, 2, 2⟩
def F.BOOT_HDL_CFG_RELAY : Fld := ⟨R.BOOT_HDL_CFG, 1, 1⟩
def F.BOOT_HDL_CFG_ACCEPT : Fld := ⟨R.BOOT_HDL_CFG, 0, 0⟩
/-- BOOT_HDL_STATUS (15, Table BU-10). -/
def R.BOOT_HDL_STATUS : Nat := 0xd00048
def F.BOOT_HDL_STATUS_RESULT : Fld := ⟨R.BOOT_HDL_STATUS, 15, 8⟩
def F.BOOT_HDL_STATUS_RX_BUSY : Fld := ⟨R.BOOT_HDL_STATUS, 1, 1⟩
def F.BOOT_HDL_STATUS_TX_BUSY : Fld := ⟨R.BOOT_HDL_STATUS, 0, 0⟩
/-- BOOT_HDL_RES (15, Table BU-10). -/
def R.BOOT_HDL_RES (i : Nat) : Nat := 0xd00050 + 4 * (i % 8)
def F.BOOT_HDL_RES_VALID (i : Nat) : Fld := ⟨R.BOOT_HDL_RES i, 8, 8⟩
def F.BOOT_HDL_RES_RESULT (i : Nat) : Fld := ⟨R.BOOT_HDL_RES i, 7, 0⟩
/-- BOOT_LOG_INDEX (15, Table BU-10). -/
def R.BOOT_LOG_INDEX : Nat := 0xd00070
def F.BOOT_LOG_INDEX_NEXT : Fld := ⟨R.BOOT_LOG_INDEX, 31, 0⟩
/-- BOOT_LOG_DROP (15, Table BU-10). -/
def R.BOOT_LOG_DROP : Nat := 0xd00074
def F.BOOT_LOG_DROP_COUNT : Fld := ⟨R.BOOT_LOG_DROP, 31, 0⟩
/-- BOOT_SET_ADDR (15, Table BU-10). -/
def R.BOOT_SET_ADDR (i : Nat) : Nat := 0xd01000 + 8 * (i % 256)
def F.BOOT_SET_ADDR_ADDR (i : Nat) : Fld := ⟨R.BOOT_SET_ADDR i, 31, 0⟩
/-- BOOT_SET_VALUE (15, Table BU-10). -/
def R.BOOT_SET_VALUE (i : Nat) : Nat := 0xd01004 + 8 * (i % 256)
def F.BOOT_SET_VALUE_VALUE (i : Nat) : Fld := ⟨R.BOOT_SET_VALUE i, 31, 0⟩
/-- OBS_CTRL (16, Table EV-7). -/
def R.OBS_CTRL : Nat := 0xe00000
def F.OBS_CTRL_CLEAR_ALL : Fld := ⟨R.OBS_CTRL, 2, 2⟩
def F.OBS_CTRL_SNAP : Fld := ⟨R.OBS_CTRL, 1, 1⟩
def F.OBS_CTRL_RUN : Fld := ⟨R.OBS_CTRL, 0, 0⟩
/-- OBS_STATUS (16, Table EV-7). -/
def R.OBS_STATUS : Nat := 0xe00004
def F.OBS_STATUS_STALE : Fld := ⟨R.OBS_STATUS, 11, 2⟩
def F.OBS_STATUS_FULL : Fld := ⟨R.OBS_STATUS, 1, 1⟩
def F.OBS_STATUS_SNAP_BUSY : Fld := ⟨R.OBS_STATUS, 0, 0⟩
/-- OBS_SNAP_CFG (16, Table EV-7). -/
def R.OBS_SNAP_CFG : Nat := 0xe00008
def F.OBS_SNAP_CFG_TRIG : Fld := ⟨R.OBS_SNAP_CFG, 31, 30⟩
def F.OBS_SNAP_CFG_PERIOD : Fld := ⟨R.OBS_SNAP_CFG, 23, 0⟩
/-- OBS_SNAP_SEQ (16, Table EV-7). -/
def R.OBS_SNAP_SEQ : Nat := 0xe0000c
def F.OBS_SNAP_SEQ_SEQ : Fld := ⟨R.OBS_SNAP_SEQ, 31, 0⟩
/-- OBS_SNAP_MISS (16, Table EV-7). -/
def R.OBS_SNAP_MISS : Nat := 0xe00010
def F.OBS_SNAP_MISS_COUNT : Fld := ⟨R.OBS_SNAP_MISS, 31, 0⟩
/-- OBS_SNAP_TS_LO (16, Table EV-7). -/
def R.OBS_SNAP_TS_LO : Nat := 0xe00014
def F.OBS_SNAP_TS_LO_NS : Fld := ⟨R.OBS_SNAP_TS_LO, 31, 0⟩
/-- OBS_SNAP_TS_HI (16, Table EV-7). -/
def R.OBS_SNAP_TS_HI : Nat := 0xe00018
def F.OBS_SNAP_TS_HI_NS : Fld := ⟨R.OBS_SNAP_TS_HI, 31, 0⟩
/-- OBS_SAT (16, Table EV-7). -/
def R.OBS_SAT (i : Nat) : Nat := 0xe00040 + 4 * (i % 32)
def F.OBS_SAT_SAT (i : Nat) : Fld := ⟨R.OBS_SAT i, 31, 0⟩
/-- OBS_SMP_CFG (16, Table EV-7). -/
def R.OBS_SMP_CFG : Nat := 0xe00100
def F.OBS_SMP_CFG_INTERVAL : Fld := ⟨R.OBS_SMP_CFG, 31, 16⟩
def F.OBS_SMP_CFG_JITTER : Fld := ⟨R.OBS_SMP_CFG, 7, 0⟩
/-- OBS_SMP_DROP (16, Table EV-7). -/
def R.OBS_SMP_DROP : Nat := 0xe00104
def F.OBS_SMP_DROP_COUNT : Fld := ⟨R.OBS_SMP_DROP, 31, 0⟩
/-- OBS_TRC_ROUTE (16, Table EV-7). -/
def R.OBS_TRC_ROUTE : Nat := 0xe00200
def F.OBS_TRC_ROUTE_SNAP : Fld := ⟨R.OBS_TRC_ROUTE, 5, 4⟩
def F.OBS_TRC_ROUTE_EVT : Fld := ⟨R.OBS_TRC_ROUTE, 3, 2⟩
def F.OBS_TRC_ROUTE_SMP : Fld := ⟨R.OBS_TRC_ROUTE, 1, 0⟩
/-- OBS_TRC_CFG (16, Table EV-7). -/
def R.OBS_TRC_CFG : Nat := 0xe00204
def F.OBS_TRC_CFG_CLR : Fld := ⟨R.OBS_TRC_CFG, 8, 8⟩
def F.OBS_TRC_CFG_THRESH : Fld := ⟨R.OBS_TRC_CFG, 7, 2⟩
def F.OBS_TRC_CFG_WRAP : Fld := ⟨R.OBS_TRC_CFG, 0, 0⟩
/-- OBS_TRC_WPTR (16, Table EV-7). -/
def R.OBS_TRC_WPTR : Nat := 0xe00208
def F.OBS_TRC_WPTR_OFS : Fld := ⟨R.OBS_TRC_WPTR, 15, 0⟩
/-- OBS_TRC_RPTR (16, Table EV-7). -/
def R.OBS_TRC_RPTR : Nat := 0xe0020c
def F.OBS_TRC_RPTR_OFS : Fld := ⟨R.OBS_TRC_RPTR, 15, 0⟩
/-- OBS_TRC_BASE_LO (16, Table EV-7). -/
def R.OBS_TRC_BASE_LO : Nat := 0xe00210
def F.OBS_TRC_BASE_LO_BASE : Fld := ⟨R.OBS_TRC_BASE_LO, 31, 16⟩
/-- OBS_TRC_BASE_HI (16, Table EV-7). -/
def R.OBS_TRC_BASE_HI : Nat := 0xe00214
def F.OBS_TRC_BASE_HI_BASE : Fld := ⟨R.OBS_TRC_BASE_HI, 8, 0⟩
/-- OBS_TRC_SIZE (16, Table EV-7). -/
def R.OBS_TRC_SIZE : Nat := 0xe00218
def F.OBS_TRC_SIZE_SIZE : Fld := ⟨R.OBS_TRC_SIZE, 31, 16⟩
/-- OBS_TRC_RING_WPTR (16, Table EV-7). -/
def R.OBS_TRC_RING_WPTR : Nat := 0xe0021c
def F.OBS_TRC_RING_WPTR_OFS : Fld := ⟨R.OBS_TRC_RING_WPTR, 31, 0⟩
/-- OBS_TRC_RING_RPTR (16, Table EV-7). -/
def R.OBS_TRC_RING_RPTR : Nat := 0xe00220
def F.OBS_TRC_RING_RPTR_OFS : Fld := ⟨R.OBS_TRC_RING_RPTR, 31, 0⟩
/-- OBS_TRC_DROP (16, Table EV-7). -/
def R.OBS_TRC_DROP : Nat := 0xe00224
def F.OBS_TRC_DROP_COUNT : Fld := ⟨R.OBS_TRC_DROP, 31, 0⟩
/-- OBS_CNT_CFG (16, Table EV-7). -/
def R.OBS_CNT_CFG (i : Nat) : Nat := 0xe01000 + 4 * (i % 1024)
def F.OBS_CNT_CFG_EN (i : Nat) : Fld := ⟨R.OBS_CNT_CFG i, 31, 31⟩
def F.OBS_CNT_CFG_SNAP_REC (i : Nat) : Fld := ⟨R.OBS_CNT_CFG i, 30, 30⟩
def F.OBS_CNT_CFG_INST (i : Nat) : Fld := ⟨R.OBS_CNT_CFG i, 23, 16⟩
def F.OBS_CNT_CFG_EVT_NUM (i : Nat) : Fld := ⟨R.OBS_CNT_CFG i, 11, 0⟩
/-- OBS_CNT_LIVE_LO (16, Table EV-7). -/
def R.OBS_CNT_LIVE_LO (i : Nat) : Nat := 0xe02000 + 8 * (i % 1024)
def F.OBS_CNT_LIVE_LO_VALUE (i : Nat) : Fld := ⟨R.OBS_CNT_LIVE_LO i, 31, 0⟩
/-- OBS_CNT_LIVE_HI (16, Table EV-7). -/
def R.OBS_CNT_LIVE_HI (i : Nat) : Nat := 0xe02004 + 8 * (i % 1024)
def F.OBS_CNT_LIVE_HI_VALUE (i : Nat) : Fld := ⟨R.OBS_CNT_LIVE_HI i, 15, 0⟩
/-- OBS_CNT_SNAP_LO (16, Table EV-7). -/
def R.OBS_CNT_SNAP_LO (i : Nat) : Nat := 0xe04000 + 8 * (i % 1024)
def F.OBS_CNT_SNAP_LO_VALUE (i : Nat) : Fld := ⟨R.OBS_CNT_SNAP_LO i, 31, 0⟩
/-- OBS_CNT_SNAP_HI (16, Table EV-7). -/
def R.OBS_CNT_SNAP_HI (i : Nat) : Nat := 0xe04004 + 8 * (i % 1024)
def F.OBS_CNT_SNAP_HI_VALUE (i : Nat) : Fld := ⟨R.OBS_CNT_SNAP_HI i, 15, 0⟩
/-- OBS_TRC_BUF (16, Table EV-7). -/
def R.OBS_TRC_BUF (i : Nat) : Nat := 0xe10000 + 4 * (i % 16384)
def F.OBS_TRC_BUF_WORD (i : Nat) : Fld := ⟨R.OBS_TRC_BUF i, 31, 0⟩

end Sys2Proof.Machine
end

