-- ==== Sys2Proof/Machine/RegTable.lean ====
section
/-! DEFINITION. The register tables of the spec (the tables "Register | Bits | Field | Access | Reset | Meaning" of chapters
00 to 16), written out field by field: address, bits, access code (Table SC-7), reset value and reserved encodings. -/

namespace Sys2Proof.Machine

/-- Access codes of Table SC-7 (R9). -/
inductive Acc where
  | rw | ro | wo | w1c | rc | rwl | rws
  deriving DecidableEq, Repr

/-- One field of a register: bits, access code, reset value, and the inclusive ranges of its reserved encodings (R12). -/
structure FieldSpec where
  hi : Nat
  lo : Nat
  acc : Acc
  reset : Nat
  bad : List (Nat × Nat)
  deriving DecidableEq, Repr

/-- One register, or an array of `n` by `n2` registers with byte strides `st` and `st2`. -/
structure RegSpec where
  base : Nat
  n : Nat
  st : Nat
  n2 : Nat
  st2 : Nat
  fields : List FieldSpec
  deriving DecidableEq, Repr

/-- Registers of block SYS, part 0: Table AR-12, Table AR-17, Table AR-5, Table AR-9, Table EP-7, Table SC-3. -/
def regsSYS0 : List RegSpec := [
  -- SYS_ID
  ⟨0, 1, 4, 1, 4, [⟨31, 0, .ro, 0x4c581152, []⟩]⟩,
  -- SYS_STEPPING
  ⟨4, 1, 4, 1, 4, [⟨7, 4, .ro, 1, []⟩, ⟨3, 0, .ro, 0, []⟩]⟩,
  -- SYS_MODE
  ⟨0x10, 1, 4, 1, 4, [⟨15, 15, .ro, 0, []⟩, ⟨14, 14, .ro, 0, []⟩, ⟨13, 13, .ro, 0, []⟩, ⟨12, 8, .ro, 0, []⟩, ⟨7, 4, .ro, 0, []⟩, ⟨3, 0, .ro, 0, []⟩]⟩,
  -- SYS_MODE_CFG
  ⟨0x14, 1, 4, 1, 4, [⟨10, 10, .rw, 1, []⟩, ⟨9, 9, .rw, 1, []⟩, ⟨8, 8, .rw, 1, []⟩, ⟨7, 0, .rw, 0x64, [(0, 0)]⟩]⟩,
  -- SYS_CLK_CFG
  ⟨0x20, 1, 4, 1, 4, [⟨1, 0, .rw, 0, [(3, 3)]⟩]⟩,
  -- SYS_CLK_STATUS
  ⟨0x24, 1, 4, 1, 4, [⟨4, 4, .ro, 0, []⟩, ⟨3, 3, .ro, 0, []⟩, ⟨2, 2, .ro, 0, []⟩, ⟨1, 1, .ro, 0, []⟩, ⟨0, 0, .ro, 0, []⟩]⟩,
  -- SYS_PEND_STATUS
  ⟨0x30, 1, 4, 1, 4, [⟨7, 7, .ro, 0, []⟩, ⟨6, 6, .ro, 0, []⟩, ⟨5, 5, .ro, 0, []⟩, ⟨4, 4, .ro, 0, []⟩, ⟨3, 3, .ro, 0, []⟩, ⟨2, 2, .ro, 0, []⟩, ⟨1, 1, .ro, 0, []⟩, ⟨0, 0, .ro, 0, []⟩]⟩,
  -- SYS_PB_CFG
  ⟨0x40, 1, 4, 1, 4, [⟨0, 0, .rw, 0, []⟩]⟩,
  -- SYS_MBOX_CMD
  ⟨0x100, 1, 4, 1, 4, [⟨23, 16, .rw, 0, []⟩, ⟨15, 8, .rw, 0, []⟩, ⟨7, 0, .rw, 0, []⟩]⟩,
  -- SYS_MBOX_ARG
  ⟨0x104, 1, 4, 1, 4, [⟨31, 0, .rw, 0, []⟩]⟩,
  -- SYS_MBOX_RESP
  ⟨0x108, 1, 4, 1, 4, [⟨23, 16, .ro, 0, []⟩, ⟨15, 12, .ro, 0, []⟩, ⟨11, 8, .ro, 0, []⟩, ⟨7, 0, .ro, 0, []⟩]⟩,
  -- SYS_MBOX_DATA
  ⟨0x10c, 1, 4, 1, 4, [⟨31, 0, .ro, 0, []⟩]⟩]

/-- Registers of block EVT, part 0: Table EV-3. -/
def regsEVT0 : List RegSpec := [
  -- EVT_CFG
  ⟨0x10000, 512, 4, 1, 4, [⟨31, 31, .rw, 0, []⟩, ⟨30, 30, .rw, 0, []⟩, ⟨29, 29, .rw, 0, []⟩, ⟨28, 28, .rw, 0, []⟩, ⟨5, 0, .rw, 0x3f, [(34, 62)]⟩]⟩,
  -- EVT_PEND
  ⟨0x10800, 16, 4, 1, 4, [⟨31, 0, .w1c, 0, []⟩]⟩,
  -- EVT_ACTIVE
  ⟨0x10840, 16, 4, 1, 4, [⟨31, 0, .ro, 0, []⟩]⟩,
  -- EVT_VEC_STATUS
  ⟨0x10880, 1, 4, 1, 4, [⟨31, 0, .ro, 0, []⟩]⟩,
  -- EVT_PIN_STATUS
  ⟨0x10884, 1, 4, 1, 4, [⟨2, 2, .ro, 0, []⟩, ⟨1, 1, .ro, 0, []⟩, ⟨0, 0, .ro, 0, []⟩]⟩,
  -- EVT_FORCE
  ⟨0x10888, 1, 4, 1, 4, [⟨31, 31, .wo, 0, []⟩, ⟨8, 0, .wo, 0, []⟩]⟩,
  -- EVT_NEXT
  ⟨0x1088c, 1, 4, 1, 4, [⟨31, 31, .ro, 0, []⟩, ⟨8, 0, .ro, 0, []⟩]⟩]

/-- Registers of block DET, part 0: Table DT-7, Table DT-8, Table DT-9. -/
def regsDET0 : List RegSpec := [
  -- DET_CTRL
  ⟨0x100000, 1, 4, 1, 4, [⟨2, 2, .wo, 0, []⟩, ⟨1, 1, .wo, 0, []⟩, ⟨0, 0, .rw, 0, []⟩]⟩,
  -- DET_STATUS
  ⟨0x100004, 1, 4, 1, 4, [⟨7, 7, .w1c, 0, []⟩, ⟨6, 6, .ro, 0, []⟩, ⟨5, 5, .ro, 0, []⟩, ⟨4, 4, .ro, 0, []⟩, ⟨3, 3, .ro, 0, []⟩, ⟨2, 2, .ro, 0, []⟩, ⟨1, 1, .ro, 0, []⟩, ⟨0, 0, .ro, 0, []⟩]⟩,
  -- DET_SILENT_CNT
  ⟨0x100008, 1, 4, 1, 4, [⟨10, 0, .ro, 0, []⟩]⟩,
  -- DET_QUENCH_CFG
  ⟨0x100010, 1, 4, 1, 4, [⟨5, 0, .rw, 0xa, [(35, 63)]⟩]⟩,
  -- DET_COINC_CFG
  ⟨0x100014, 1, 4, 1, 4, [⟨1, 0, .rw, 1, []⟩]⟩,
  -- DET_BIAS_CFG
  ⟨0x100020, 1, 4, 1, 4, [⟨20, 17, .rw, 2, [(0, 0), (9, 15)]⟩, ⟨16, 16, .rw, 1, []⟩, ⟨15, 8, .rw, 0x96, [(0, 24), (251, 255)]⟩]⟩,
  -- DET_BIAS_TC
  ⟨0x100024, 1, 4, 1, 4, [⟨15, 0, .rw, 0xdc, [(1001, 65535)]⟩]⟩,
  -- DET_BIAS_LIM
  ⟨0x100028, 1, 4, 1, 4, [⟨25, 16, .rw, 0x320, [(0, 399), (801, 1023)]⟩, ⟨9, 0, .rw, 0x190, [(0, 399), (801, 1023)]⟩]⟩,
  -- DET_BIAS_STATUS
  ⟨0x10002c, 1, 4, 1, 4, [⟨27, 16, .ro, 0, []⟩, ⟨15, 0, .ro, 0, []⟩]⟩,
  -- DET_BIAS_TARGET
  ⟨0x100030, 1, 4, 1, 4, [⟨31, 16, .ro, 0, []⟩, ⟨15, 0, .ro, 0, []⟩]⟩,
  -- DET_BIAS_VBD
  ⟨0x100034, 1, 4, 1, 4, [⟨15, 0, .rw, 0x6018, [(0, 19999), (40001, 65535)]⟩]⟩,
  -- DET_BIAS_MON_CFG
  ⟨0x100038, 1, 4, 1, 4, [⟨23, 16, .rw, 0xa, [(0, 0)]⟩, ⟨15, 8, .rw, 5, [(0, 0), (255, 255)]⟩, ⟨7, 0, .rw, 0x19, [(0, 0), (1, 1)]⟩]⟩,
  -- DET_PROBE_CFG
  ⟨0x100040, 1, 4, 1, 4, [⟨26, 16, .rw, 0, [(1152, 2047)]⟩, ⟨15, 12, .rw, 0, []⟩, ⟨11, 0, .rw, 0x64, [(0, 0)]⟩]⟩,
  -- DET_PROBE_COUNT
  ⟨0x100044, 1, 4, 1, 4, [⟨31, 0, .ro, 0, []⟩]⟩,
  -- DET_CH_CFG
  ⟨0x101000, 1152, 4, 1, 4, [⟨31, 28, .ro, 0, []⟩, ⟨24, 20, .ro, 0, []⟩, ⟨19, 19, .ro, 0, []⟩, ⟨18, 16, .ro, 2, []⟩, ⟨11, 8, .rw, 0, []⟩, ⟨4, 4, .rw, 1, []⟩, ⟨2, 0, .rw, 2, [(0, 0), (7, 7)]⟩]⟩,
  -- DET_SPAD_MASK
  ⟨0x104000, 576, 4, 1, 4, [⟨31, 16, .rw, 0xffff, []⟩, ⟨15, 0, .rw, 0xffff, []⟩]⟩,
  -- DET_SPAD_MASK_ACT
  ⟨0x105000, 576, 4, 1, 4, [⟨31, 16, .ro, 0xffff, []⟩, ⟨15, 0, .ro, 0xffff, []⟩]⟩]

/-- Registers of block TDC, part 0: Table DT-10, Table DT-11. -/
def regsTDC0 : List RegSpec := [
  -- TDC_CTRL
  ⟨0x200000, 1, 4, 1, 4, [⟨1, 1, .wo, 0, []⟩, ⟨0, 0, .rw, 1, []⟩]⟩,
  -- TDC_STATUS
  ⟨0x200004, 1, 4, 1, 4, [⟨28, 18, .ro, 0x7ff, []⟩, ⟨17, 17, .ro, 0, []⟩, ⟨16, 16, .ro, 0, []⟩, ⟨15, 0, .ro, 0, []⟩]⟩,
  -- TDC_EPOCH_CFG
  ⟨0x200010, 1, 4, 1, 4, [⟨5, 0, .rw, 0, []⟩]⟩,
  -- TDC_TEST_CFG
  ⟨0x200014, 1, 4, 1, 4, [⟨1, 0, .rw, 0, [(2, 2), (3, 3)]⟩]⟩,
  -- TDC_CNT_SEL
  ⟨0x200020, 1, 4, 1, 4, [⟨10, 0, .rw, 0, [(1152, 2047)]⟩]⟩,
  -- TDC_CNT_LOST
  ⟨0x200024, 1, 4, 1, 4, [⟨31, 0, .ro, 0, []⟩]⟩,
  -- TDC_CNT_OVF
  ⟨0x200028, 1, 4, 1, 4, [⟨31, 0, .ro, 0, []⟩]⟩,
  -- TDC_CNT_EARLY
  ⟨0x20002c, 1, 4, 1, 4, [⟨31, 0, .ro, 0, []⟩]⟩,
  -- TDC_CNT_CLR
  ⟨0x200030, 1, 4, 1, 4, [⟨1, 1, .wo, 0, []⟩, ⟨0, 0, .wo, 0, []⟩]⟩,
  -- TDC_SNOOP_CFG
  ⟨0x200040, 1, 4, 1, 4, [⟨16, 16, .wo, 0, []⟩, ⟨12, 12, .rw, 0, []⟩, ⟨10, 0, .rw, 0, [(1152, 2047)]⟩]⟩,
  -- TDC_SNOOP_STATUS
  ⟨0x200044, 1, 4, 1, 4, [⟨9, 9, .ro, 0, []⟩, ⟨8, 0, .ro, 0, []⟩]⟩,
  -- TDC_DLL_TRIM
  ⟨0x200100, 16, 4, 1, 4, [⟨7, 0, .rw, 0x80, []⟩]⟩,
  -- TDC_QDROP
  ⟨0x200400, 192, 4, 1, 4, [⟨31, 0, .rc, 0, []⟩]⟩,
  -- TDC_CH_CFG
  ⟨0x201000, 1152, 4, 1, 4, [⟨24, 16, .rw, 0, []⟩, ⟨7, 0, .rw, 0, []⟩]⟩,
  -- TDC_SNOOP_WORD
  ⟨0x204000, 256, 8, 1, 4, [⟨31, 0, .ro, 0, []⟩]⟩,
  -- TDC_SNOOP_RAW
  ⟨0x204004, 256, 8, 1, 4, [⟨31, 0, .ro, 0, []⟩]⟩,
  -- TDC_LUT
  ⟨0x208000, 1152, 0x10, 4, 4, [⟨28, 24, .rw, 0, [(17, 31)]⟩, ⟨20, 16, .rw, 0, [(17, 31)]⟩, ⟨12, 8, .rw, 0, [(17, 31)]⟩, ⟨4, 0, .rw, 0, [(17, 31)]⟩]⟩]

/-- Registers of block HIS, part 0: Table HF-8. -/
def regsHIS0 : List RegSpec := [
  -- HIS_STATUS
  ⟨0x300000, 1, 4, 1, 4, [⟨26, 26, .ro, 0, []⟩, ⟨25, 25, .ro, 0, []⟩, ⟨24, 24, .ro, 0, []⟩, ⟨23, 0, .ro, 0, []⟩]⟩,
  -- HIS_RECIPE
  ⟨0x300010, 1, 4, 1, 4, [⟨14, 8, .rw, 4, [(0, 0), (65, 127)]⟩, ⟨7, 0, .rw, 8, [(0, 0)]⟩]⟩,
  -- HIS_RECIPE_CAL
  ⟨0x300014, 1, 4, 1, 4, [⟨16, 16, .rw, 0, []⟩, ⟨14, 8, .rw, 1, [(0, 0), (65, 127)]⟩, ⟨7, 0, .rw, 8, [(0, 0)]⟩]⟩,
  -- HIS_KERNEL_W
  ⟨0x300020, 1, 4, 1, 4, [⟨31, 0, .rw, 0x484, []⟩]⟩,
  -- HIS_KERNEL_CFG
  ⟨0x300024, 1, 4, 1, 4, [⟨15, 8, .rw, 0x30, []⟩, ⟨3, 0, .rw, 3, [(0, 0), (9, 15)]⟩]⟩,
  -- HIS_THR_CFG
  ⟨0x300028, 1, 4, 1, 4, [⟨27, 16, .rw, 0x20, []⟩, ⟨15, 0, .rw, 0x28, []⟩]⟩,
  -- HIS_FIND_CFG
  ⟨0x30002c, 1, 4, 1, 4, [⟨16, 16, .rw, 0, []⟩, ⟨15, 8, .rw, 4, []⟩, ⟨3, 0, .rw, 2, []⟩]⟩,
  -- HIS_FIXWIN
  ⟨0x300030, 3, 4, 1, 4, [⟨16, 16, .rw, 0, []⟩, ⟨15, 0, .rw, 0, [(65473, 65535)]⟩]⟩,
  -- HIS_VIEW
  ⟨0x300040, 1, 4, 1, 4, [⟨7, 0, .rw, 0, [(192, 255)]⟩]⟩,
  -- HIS_ECC_CE_CNT
  ⟨0x300050, 1, 4, 1, 4, [⟨31, 0, .rc, 0, []⟩]⟩,
  -- HIS_ECC_CE_THR
  ⟨0x300054, 1, 4, 1, 4, [⟨15, 0, .rw, 0x100, [(0, 0)]⟩]⟩,
  -- HIS_ECC_UE_CNT
  ⟨0x300058, 1, 4, 1, 4, [⟨31, 0, .rc, 0, []⟩]⟩,
  -- HIS_LATE_CNT
  ⟨0x300060, 1, 4, 1, 4, [⟨31, 0, .rc, 0, []⟩]⟩,
  -- HIS_LATE_WORD_CNT
  ⟨0x300064, 1, 4, 1, 4, [⟨31, 0, .rc, 0, []⟩]⟩,
  -- HIS_LAST_LATE
  ⟨0x300068, 1, 4, 1, 4, [⟨10, 0, .ro, 0x7ff, []⟩]⟩,
  -- HIS_FURROW_VIEW
  ⟨0x380000, 8192, 4, 1, 4, [⟨31, 0, .ro, 0, []⟩]⟩]

/-- Registers of block TIL, part 0: Table TA-10, Table TA-11. -/
def regsTIL0 : List RegSpec := [
  -- TIL_CTRL
  ⟨0x400000, 192, 0x1000, 1, 4, [⟨3, 3, .wo, 0, []⟩, ⟨2, 2, .wo, 0, []⟩, ⟨1, 1, .wo, 0, []⟩, ⟨0, 0, .wo, 0, []⟩]⟩,
  -- TIL_STATUS
  ⟨0x400004, 192, 0x1000, 1, 4, [⟨18, 16, .ro, 0, []⟩, ⟨8, 8, .ro, 0, []⟩, ⟨7, 7, .ro, 0, []⟩, ⟨6, 6, .ro, 0, []⟩, ⟨5, 5, .ro, 0, []⟩, ⟨4, 4, .ro, 0, []⟩, ⟨2, 0, .ro, 4, []⟩]⟩,
  -- TIL_CFG
  ⟨0x400008, 192, 0x1000, 1, 4, [⟨3, 3, .rw, 0, []⟩, ⟨2, 2, .rw, 0, []⟩, ⟨1, 1, .rw, 1, []⟩, ⟨0, 0, .rw, 0, []⟩]⟩,
  -- TIL_PC
  ⟨0x40000c, 192, 0x1000, 1, 4, [⟨14, 2, .rw, 0, []⟩]⟩,
  -- TIL_TRAP_VEC
  ⟨0x400010, 192, 0x1000, 1, 4, [⟨14, 2, .rw, 0, []⟩]⟩,
  -- TIL_ATTN_VEC
  ⟨0x400014, 192, 0x1000, 1, 4, [⟨14, 2, .rw, 0, []⟩]⟩,
  -- TIL_ATTN_CFG
  ⟨0x400018, 192, 0x1000, 1, 4, [⟨15, 0, .rw, 0, []⟩]⟩,
  -- TIL_TRAP_CAUSE
  ⟨0x400020, 192, 0x1000, 1, 4, [⟨4, 0, .ro, 0, []⟩]⟩,
  -- TIL_EPC
  ⟨0x400024, 192, 0x1000, 1, 4, [⟨31, 0, .ro, 0, []⟩]⟩,
  -- TIL_TRAP_ADDR
  ⟨0x400028, 192, 0x1000, 1, 4, [⟨31, 0, .ro, 0, []⟩]⟩,
  -- TIL_BKPT
  ⟨0x400030, 192, 0x1000, 1, 4, [⟨31, 31, .rw, 0, []⟩, ⟨14, 2, .rw, 0, []⟩]⟩,
  -- TIL_EVT_CAUSE
  ⟨0x400040, 192, 0x1000, 1, 4, [⟨7, 0, .w1c, 0, []⟩]⟩,
  -- TIL_EVT_EN
  ⟨0x400044, 192, 0x1000, 1, 4, [⟨7, 0, .rw, 0xff, []⟩]⟩,
  -- TIL_CNT_DROPPED
  ⟨0x400050, 192, 0x1000, 1, 4, [⟨31, 0, .rc, 0, []⟩]⟩,
  -- TIL_CNT_EMIT
  ⟨0x400054, 192, 0x1000, 1, 4, [⟨31, 0, .rc, 0, []⟩]⟩,
  -- TIL_CNT_STALE_EMIT
  ⟨0x400058, 192, 0x1000, 1, 4, [⟨31, 0, .rc, 0, []⟩]⟩,
  -- TIL_CNT_FWQ_REJ
  ⟨0x40005c, 192, 0x1000, 1, 4, [⟨31, 0, .rc, 0, []⟩]⟩,
  -- TIL_CNT_CAND_STALE
  ⟨0x400060, 192, 0x1000, 1, 4, [⟨31, 0, .rc, 0, []⟩]⟩,
  -- TIL_ECC_CE_CNT
  ⟨0x400064, 192, 0x1000, 1, 4, [⟨31, 0, .rc, 0, []⟩]⟩,
  -- TIL_ECC_UE_CNT
  ⟨0x400068, 192, 0x1000, 1, 4, [⟨31, 0, .rc, 0, []⟩]⟩,
  -- TIL_LOAD_CFG
  ⟨0x4c0000, 1, 4, 1, 4, [⟨0, 0, .rw, 0, []⟩]⟩,
  -- TIL_SEL
  ⟨0x4c0010, 6, 4, 1, 4, [⟨31, 0, .rw, 0, []⟩]⟩,
  -- TIL_GROUP_CTRL
  ⟨0x4c0030, 1, 4, 1, 4, [⟨1, 1, .wo, 0, []⟩, ⟨0, 0, .wo, 0, []⟩]⟩,
  -- TIL_ECC_CE_THR
  ⟨0x4c0040, 1, 4, 1, 4, [⟨15, 0, .rw, 0x40, [(0, 0)]⟩]⟩,
  -- TIL_HALTED
  ⟨0x4c0050, 6, 4, 1, 4, [⟨31, 0, .ro, 0xffffffff, []⟩]⟩]

/-- Registers of block TIL, part 1: Table TA-11. -/
def regsTIL1 : List RegSpec := [
  -- TIL_OQ_STATUS
  ⟨0x4c0070, 1, 4, 1, 4, [⟨16, 0, .ro, 0x10000, []⟩]⟩,
  -- TIL_OQ_STALL_CNT
  ⟨0x4c0074, 1, 4, 1, 4, [⟨31, 0, .rc, 0, []⟩]⟩]

/-- Registers of block EMI, part 0: Table EM-6, Table EM-7. -/
def regsEMI0 : List RegSpec := [
  -- EMI_CTRL
  ⟨0x600000, 1, 4, 1, 4, [⟨3, 3, .wo, 0, []⟩, ⟨2, 2, .wo, 0, []⟩, ⟨1, 1, .wo, 0, []⟩, ⟨0, 0, .rw, 0, []⟩]⟩,
  -- EMI_STATUS
  ⟨0x600004, 1, 4, 1, 4, [⟨31, 24, .ro, 0, []⟩, ⟨23, 23, .ro, 0, []⟩, ⟨22, 10, .ro, 0, []⟩, ⟨9, 9, .w1c, 0, []⟩, ⟨8, 7, .ro, 0, []⟩, ⟨6, 6, .ro, 0, []⟩, ⟨5, 5, .ro, 0, []⟩, ⟨4, 4, .ro, 0, []⟩, ⟨3, 3, .ro, 0, []⟩, ⟨2, 0, .ro, 0, []⟩]⟩,
  -- EMI_FAULT_CAUSE
  ⟨0x600008, 1, 4, 1, 4, [⟨5, 5, .ro, 0, []⟩, ⟨4, 4, .ro, 0, []⟩, ⟨3, 3, .ro, 0, []⟩, ⟨2, 2, .ro, 0, []⟩, ⟨1, 1, .ro, 0, []⟩, ⟨0, 0, .ro, 0, []⟩]⟩,
  -- EMI_SLOT_CFG
  ⟨0x600010, 1, 4, 1, 4, [⟨26, 16, .rw, 0xff, [(0, 30)]⟩, ⟨10, 0, .rw, 0x1f, [(0, 30)]⟩]⟩,
  -- EMI_FIRE_CFG
  ⟨0x600014, 1, 4, 1, 4, [⟨10, 8, .rw, 1, []⟩, ⟨5, 0, .rw, 0, []⟩]⟩,
  -- EMI_PWR_CFG
  ⟨0x600018, 1, 4, 1, 4, [⟨23, 16, .rw, 0x18, []⟩, ⟨15, 8, .rw, 0x18, []⟩, ⟨7, 0, .rw, 0xff, []⟩]⟩,
  -- EMI_CHG_CFG
  ⟨0x60001c, 1, 4, 1, 4, [⟨23, 16, .rw, 5, [(0, 0)]⟩, ⟨15, 8, .rw, 0xa, [(0, 0)]⟩, ⟨7, 0, .rw, 0x14, [(0, 0)]⟩]⟩,
  -- EMI_MON_CFG
  ⟨0x600020, 1, 4, 1, 4, [⟨24, 24, .rw, 0, []⟩, ⟨23, 16, .rw, 0x10, [(0, 0)]⟩, ⟨7, 0, .rw, 0x28, [(0, 0)]⟩]⟩,
  -- EMI_SIG_CFG
  ⟨0x600024, 1, 4, 1, 4, [⟨15, 0, .rw, 0, [(0, 0)]⟩]⟩,
  -- EMI_PCODE
  ⟨0x600030, 8, 4, 1, 4, [⟨16, 15, .rw, 0, []⟩, ⟨14, 10, .rw, 0, []⟩, ⟨9, 5, .rw, 0, []⟩, ⟨4, 0, .rw, 0, []⟩]⟩,
  -- EMI_LB_CFG
  ⟨0x600050, 1, 4, 1, 4, [⟨31, 31, .rw, 0, []⟩, ⟨30, 30, .rw, 0, []⟩, ⟨26, 24, .rw, 0, []⟩, ⟨23, 16, .rw, 0x32, [(0, 0)]⟩, ⟨15, 0, .rw, 0x800, [(0, 0)]⟩]⟩,
  -- EMI_LB_WARM
  ⟨0x600054, 1, 4, 1, 4, [⟨19, 0, .rw, 0, []⟩]⟩,
  -- EMI_LB_HOT
  ⟨0x600058, 1, 4, 1, 4, [⟨19, 0, .rw, 0, []⟩]⟩,
  -- EMI_LB_VAL
  ⟨0x60005c, 1, 4, 1, 4, [⟨20, 20, .ro, 0, []⟩, ⟨19, 0, .ro, 0, []⟩]⟩,
  -- EMI_TEST_CFG
  ⟨0x600060, 1, 4, 1, 4, [⟨16, 16, .rw, 1, []⟩, ⟨15, 8, .rw, 0x3c, []⟩, ⟨7, 0, .rw, 0x14, [(0, 0), (255, 255)]⟩]⟩,
  -- EMI_ROW_SHORT
  ⟨0x600064, 1, 4, 1, 4, [⟨17, 0, .w1c, 0, []⟩]⟩,
  -- EMI_ROW_OPEN
  ⟨0x600068, 1, 4, 1, 4, [⟨17, 0, .w1c, 0, []⟩]⟩,
  -- EMI_COL_FAULT
  ⟨0x60006c, 1, 4, 1, 4, [⟨31, 16, .w1c, 0, []⟩, ⟨15, 0, .w1c, 0, []⟩]⟩,
  -- EMI_CHG_STATUS
  ⟨0x600070, 1, 4, 1, 4, [⟨27, 16, .ro, 0, []⟩, ⟨11, 0, .ro, 0, []⟩]⟩,
  -- EMI_CNT_SHOTS
  ⟨0x600080, 1, 4, 1, 4, [⟨31, 0, .rc, 0, []⟩]⟩,
  -- EMI_CNT_SUPPRESS
  ⟨0x600084, 1, 4, 1, 4, [⟨31, 0, .rc, 0, []⟩]⟩,
  -- EMI_CNT_UNDER
  ⟨0x600088, 1, 4, 1, 4, [⟨31, 0, .rc, 0, []⟩]⟩,
  -- EMI_CNT_MON_MISS
  ⟨0x60008c, 1, 4, 1, 4, [⟨31, 0, .rc, 0, []⟩]⟩,
  -- EMI_CNT_ROGUE
  ⟨0x600090, 1, 4, 1, 4, [⟨31, 0, .rc, 0, []⟩]⟩,
  -- EMI_CNT_CLAMP
  ⟨0x600094, 1, 4, 1, 4, [⟨31, 0, .rc, 0, []⟩]⟩]

/-- Registers of block EMI, part 1: Table EM-7. -/
def regsEMI1 : List RegSpec := [
  -- EMI_CURVE
  ⟨0x600400, 256, 4, 1, 4, [⟨11, 0, .rw, 0, []⟩]⟩,
  -- EMI_CURVE_ACT
  ⟨0x600800, 256, 4, 1, 4, [⟨11, 0, .ro, 0, []⟩]⟩]

/-- Registers of block SEED, part 0: Table EM-1. -/
def regsSEED0 : List RegSpec := [
  -- EMI_SEED_MAP
  ⟨0x610000, 2, 0x10000, 16384, 4, [⟨31, 0, .rw, 0, []⟩]⟩]

/-- Registers of block HLM, part 0: Table HL-8. -/
def regsHLM0 : List RegSpec := [
  -- HLM_CTRL
  ⟨0x700000, 1, 4, 1, 4, [⟨4, 4, .wo, 0, []⟩, ⟨3, 3, .wo, 0, []⟩, ⟨2, 2, .wo, 0, []⟩, ⟨1, 1, .wo, 0, []⟩, ⟨0, 0, .rw, 0, []⟩]⟩,
  -- HLM_STATUS
  ⟨0x700004, 1, 4, 1, 4, [⟨19, 16, .ro, 0, []⟩, ⟨15, 15, .w1c, 0, []⟩, ⟨14, 14, .ro, 0, []⟩, ⟨13, 13, .ro, 0, []⟩, ⟨12, 12, .ro, 0, []⟩, ⟨11, 11, .ro, 0, []⟩, ⟨10, 8, .ro, 0, []⟩, ⟨5, 4, .ro, 0, []⟩, ⟨3, 0, .w1c, 0, []⟩]⟩,
  -- HLM_FAULT_CAUSE
  ⟨0x700008, 1, 4, 1, 4, [⟨5, 0, .ro, 0, []⟩]⟩,
  -- HLM_SP_CFG
  ⟨0x700010, 1, 4, 1, 4, [⟨23, 20, .rw, 4, [(0, 0), (9, 15)]⟩, ⟨19, 16, .rw, 4, [(0, 0), (1, 1)]⟩, ⟨10, 10, .rw, 0, []⟩, ⟨9, 9, .rw, 1, []⟩, ⟨8, 8, .rw, 0, []⟩]⟩,
  -- HLM_COMM_OFS
  ⟨0x700014, 1, 4, 1, 4, [⟨31, 0, .rw, 0, []⟩]⟩,
  -- HLM_ENC_CFG
  ⟨0x700018, 1, 4, 1, 4, [⟨15, 15, .rw, 1, []⟩, ⟨14, 0, .rw, 0x1000, [(0, 255), (16385, 32767)]⟩]⟩,
  -- HLM_SPEED_REF
  ⟨0x70001c, 1, 4, 1, 4, [⟨31, 0, .rw, 0, []⟩]⟩,
  -- HLM_SP_RAMP
  ⟨0x700020, 1, 4, 1, 4, [⟨23, 0, .rw, 0x219, [(0, 0)]⟩]⟩,
  -- HLM_SP_LIM
  ⟨0x700024, 1, 4, 1, 4, [⟨31, 0, .rwl, 0x10624dd, []⟩]⟩,
  -- HLM_LOCK_CFG
  ⟨0x700028, 1, 4, 1, 4, [⟨31, 24, .rw, 0x10, [(0, 0)]⟩, ⟨20, 16, .rw, 6, [(0, 3), (17, 31)]⟩, ⟨15, 8, .rw, 0x60, [(0, 64), (129, 255)]⟩, ⟨7, 0, .rw, 8, [(0, 0)]⟩]⟩,
  -- HLM_PHASE_OFS
  ⟨0x70002c, 1, 4, 1, 4, [⟨31, 0, .rw, 0, []⟩]⟩,
  -- HLM_SWEEP_CFG
  ⟨0x700030, 1, 4, 1, 4, [⟨3, 3, .rw, 0, []⟩, ⟨1, 0, .rw, 1, [(3, 3)]⟩]⟩,
  -- HLM_FACET_OFS
  ⟨0x700034, 1, 4, 1, 4, [⟨31, 0, .rw, 0, []⟩]⟩,
  -- HLM_BRAKE_CFG
  ⟨0x700038, 1, 4, 1, 4, [⟨31, 24, .rw, 0x64, [(0, 0)]⟩, ⟨23, 0, .rw, 0x432, [(0, 0)]⟩]⟩,
  -- HLM_BRAKE_LIM
  ⟨0x70003c, 1, 4, 1, 4, [⟨31, 16, .rw, 0x4000, []⟩, ⟨15, 0, .rw, 0xa8, [(0, 0)]⟩]⟩,
  -- HLM_HO_CFG
  ⟨0x700040, 1, 4, 1, 4, [⟨31, 0, .rw, 0x800000, [(0, 0), (2147483648, 4294967295)]⟩]⟩,
  -- HLM_TILT_CFG
  ⟨0x700050, 1, 4, 1, 4, [⟨31, 24, .rw, 1, [(0, 0), (65, 255)]⟩, ⟨19, 16, .rw, 0, []⟩, ⟨8, 8, .rw, 1, []⟩, ⟨7, 7, .rw, 0, []⟩]⟩,
  -- HLM_TILT_CAL
  ⟨0x700054, 1, 4, 1, 4, [⟨31, 16, .rw, 0x4000, []⟩, ⟨13, 0, .rw, 0x2000, []⟩]⟩,
  -- HLM_TILT_LIM
  ⟨0x700058, 1, 4, 1, 4, [⟨31, 16, .rwl, 0x6000, []⟩, ⟨15, 0, .rwl, 0xa000, []⟩]⟩,
  -- HLM_TILT_SLEW
  ⟨0x70005c, 1, 4, 1, 4, [⟨31, 16, .rw, 0, []⟩, ⟨15, 0, .rw, 0x100, [(0, 0)]⟩]⟩,
  -- HLM_TILT_MON
  ⟨0x700060, 1, 4, 1, 4, [⟨31, 24, .rw, 0x28, [(0, 0)]⟩, ⟨23, 16, .rw, 0x10, []⟩, ⟨15, 0, .rw, 0x800, [(0, 0)]⟩]⟩,
  -- HLM_PWM_CFG
  ⟨0x700064, 1, 4, 1, 4, [⟨31, 16, .rw, 0x4e2, [(0, 499), (20001, 65535)]⟩, ⟨15, 0, .rw, 0x1388, [(0, 499), (20001, 65535)]⟩]⟩,
  -- HLM_MEAS_ANGLE
  ⟨0x700070, 1, 4, 1, 4, [⟨31, 0, .ro, 0, []⟩]⟩,
  -- HLM_MEAS_SPEED
  ⟨0x700074, 1, 4, 1, 4, [⟨31, 0, .ro, 0, []⟩]⟩,
  -- HLM_MEAS_PHASE
  ⟨0x700078, 1, 4, 1, 4, [⟨31, 0, .ro, 0, []⟩]⟩]

/-- Registers of block HLM, part 1: Table HL-8, Table HL-9. -/
def regsHLM1 : List RegSpec := [
  -- HLM_MEAS_TILT
  ⟨0x70007c, 1, 4, 1, 4, [⟨31, 16, .ro, 0, []⟩, ⟨15, 0, .ro, 0, []⟩]⟩,
  -- HLM_ENC_COUNT
  ⟨0x700080, 1, 4, 1, 4, [⟨15, 0, .ro, 0, []⟩]⟩,
  -- HLM_CNT_LOCK_REF
  ⟨0x700090, 1, 4, 1, 4, [⟨31, 0, .rc, 0, []⟩]⟩,
  -- HLM_CNT_UNLOCK
  ⟨0x700094, 1, 4, 1, 4, [⟨31, 0, .rc, 0, []⟩]⟩,
  -- HLM_CNT_ENC_ERR
  ⟨0x700098, 1, 4, 1, 4, [⟨31, 0, .rc, 0, []⟩]⟩,
  -- HLM_TRACE_CFG
  ⟨0x7000a0, 1, 4, 1, 4, [⟨31, 20, .rw, 0x200, []⟩, ⟨19, 12, .rw, 1, [(0, 0)]⟩, ⟨2, 0, .rw, 0, [(5, 7)]⟩]⟩,
  -- HLM_TRACE_SEL0
  ⟨0x7000a4, 1, 4, 1, 4, [⟨29, 24, .rw, 0, []⟩, ⟨21, 16, .rw, 0, []⟩, ⟨13, 8, .rw, 0, []⟩, ⟨5, 0, .rw, 0, []⟩]⟩,
  -- HLM_TRACE_SEL1
  ⟨0x7000a8, 1, 4, 1, 4, [⟨29, 24, .rw, 0, []⟩, ⟨21, 16, .rw, 0, []⟩, ⟨13, 8, .rw, 0, []⟩, ⟨5, 0, .rw, 0, []⟩]⟩,
  -- HLM_TRACE_LEVEL
  ⟨0x7000ac, 1, 4, 1, 4, [⟨31, 0, .rw, 0, []⟩]⟩,
  -- HLM_TRACE_STATUS
  ⟨0x7000b0, 1, 4, 1, 4, [⟨13, 13, .ro, 0, []⟩, ⟨12, 12, .ro, 0, []⟩, ⟨11, 0, .ro, 0, []⟩]⟩,
  -- HLM_LAW_CFG
  ⟨0x700100, 4, 0x40, 1, 4, [⟨1, 0, .rw, 0, [(3, 3)]⟩]⟩,
  -- HLM_LAW_B0
  ⟨0x700104, 4, 0x40, 1, 4, [⟨31, 0, .rw, 0, []⟩]⟩,
  -- HLM_LAW_B1
  ⟨0x700108, 4, 0x40, 1, 4, [⟨31, 0, .rw, 0, []⟩]⟩,
  -- HLM_LAW_B2
  ⟨0x70010c, 4, 0x40, 1, 4, [⟨31, 0, .rw, 0, []⟩]⟩,
  -- HLM_LAW_B3
  ⟨0x700110, 4, 0x40, 1, 4, [⟨31, 0, .rw, 0, []⟩]⟩,
  -- HLM_LAW_A1
  ⟨0x700114, 4, 0x40, 1, 4, [⟨31, 0, .rw, 0, []⟩]⟩,
  -- HLM_LAW_A2
  ⟨0x700118, 4, 0x40, 1, 4, [⟨31, 0, .rw, 0, []⟩]⟩,
  -- HLM_LAW_A3
  ⟨0x70011c, 4, 0x40, 1, 4, [⟨31, 0, .rw, 0, []⟩]⟩,
  -- HLM_LAW_SHIFT_B
  ⟨0x700120, 4, 0x40, 1, 4, [⟨28, 24, .rw, 0, []⟩, ⟨20, 16, .rw, 0, []⟩, ⟨12, 8, .rw, 0, []⟩, ⟨4, 0, .rw, 0, []⟩]⟩,
  -- HLM_LAW_SHIFT_A
  ⟨0x700124, 4, 0x40, 1, 4, [⟨20, 16, .rw, 0, []⟩, ⟨12, 8, .rw, 0, []⟩, ⟨4, 0, .rw, 0, []⟩]⟩,
  -- HLM_LAW_OUT_MAX
  ⟨0x700128, 4, 0x40, 1, 4, [⟨31, 0, .rw, 0x7fffffff, []⟩]⟩,
  -- HLM_LAW_OUT_MIN
  ⟨0x70012c, 4, 0x40, 1, 4, [⟨31, 0, .rw, 0x80000000, []⟩]⟩,
  -- HLM_TILT_REF
  ⟨0x700200, 64, 4, 1, 4, [⟨15, 0, .rw, 0, []⟩]⟩,
  -- HLM_COG
  ⟨0x710000, 1024, 4, 1, 4, [⟨15, 0, .rw, 0, []⟩]⟩,
  -- HLM_FRIC
  ⟨0x711000, 256, 4, 1, 4, [⟨15, 0, .rw, 0, []⟩]⟩]

/-- Registers of block HLM, part 2: Table HL-9. -/
def regsHLM2 : List RegSpec := [
  -- HLM_TRACE_BUF
  ⟨0x740000, 8, 0x4000, 4096, 4, [⟨31, 0, .ro, 0, []⟩]⟩]

/-- Registers of block HDG, part 0: Table HG-6. -/
def regsHDG0 : List RegSpec := [
  -- HDG_CTRL
  ⟨0x780000, 1, 4, 1, 4, [⟨0, 0, .wo, 0, []⟩]⟩,
  -- HDG_STATUS
  ⟨0x780004, 1, 4, 1, 4, [⟨12, 12, .ro, 0, []⟩, ⟨11, 10, .ro, 0, []⟩, ⟨9, 9, .ro, 0, []⟩, ⟨8, 8, .ro, 0, []⟩, ⟨7, 7, .ro, 0, []⟩, ⟨6, 6, .ro, 0, []⟩, ⟨5, 5, .ro, 0, []⟩, ⟨2, 0, .ro, 0, []⟩]⟩,
  -- HDG_TRIP_CAUSE
  ⟨0x780008, 1, 4, 1, 4, [⟨20, 16, .ro, 0x1f, []⟩, ⟨15, 0, .ro, 0, []⟩]⟩,
  -- HDG_PRESENT
  ⟨0x78000c, 1, 4, 1, 4, [⟨15, 0, .ro, 0, []⟩]⟩,
  -- HDG_STRAPS
  ⟨0x780010, 1, 4, 1, 4, [⟨13, 8, .ro, 0, []⟩, ⟨5, 0, .ro, 0, []⟩]⟩,
  -- HDG_LIM_SPEED
  ⟨0x780020, 1, 4, 1, 4, [⟨31, 16, .ro, 0, []⟩, ⟨15, 0, .ro, 0, []⟩]⟩,
  -- HDG_LIM_BUDGET
  ⟨0x780024, 1, 4, 1, 4, [⟨31, 0, .ro, 0, []⟩]⟩,
  -- HDG_LIM_POS
  ⟨0x780028, 1, 4, 1, 4, [⟨25, 16, .ro, 0, []⟩, ⟨9, 0, .ro, 0, []⟩]⟩,
  -- HDG_LIM_FOV
  ⟨0x78002c, 1, 4, 1, 4, [⟨25, 16, .ro, 0, []⟩, ⟨9, 0, .ro, 0, []⟩]⟩,
  -- HDG_LIM_MISC
  ⟨0x780030, 1, 4, 1, 4, [⟨16, 16, .ro, 0, []⟩, ⟨15, 8, .ro, 0, []⟩, ⟨7, 0, .ro, 0, []⟩]⟩,
  -- HDG_HOST_SPEED
  ⟨0x780040, 1, 4, 1, 4, [⟨31, 16, .rwl, 0xffff, []⟩, ⟨15, 0, .rwl, 0, []⟩]⟩,
  -- HDG_HOST_BUDGET
  ⟨0x780044, 1, 4, 1, 4, [⟨31, 0, .rwl, 0xffffffff, [(0, 0)]⟩]⟩,
  -- HDG_MEAS_SPEED
  ⟨0x780050, 1, 4, 1, 4, [⟨15, 0, .ro, 0, []⟩]⟩,
  -- HDG_MEAS_TILT
  ⟨0x780054, 1, 4, 1, 4, [⟨9, 0, .ro, 0, []⟩]⟩,
  -- HDG_MEAS_RC
  ⟨0x780058, 1, 4, 1, 4, [⟨15, 0, .ro, 0, []⟩]⟩,
  -- HDG_ENERGY_SEL
  ⟨0x780060, 1, 4, 1, 4, [⟨8, 0, .rw, 0, [(288, 511)]⟩]⟩,
  -- HDG_ENERGY
  ⟨0x780064, 1, 4, 1, 4, [⟨31, 0, .ro, 0, []⟩]⟩,
  -- HDG_ENERGY_MAX
  ⟨0x780068, 1, 4, 1, 4, [⟨31, 0, .rc, 0, []⟩]⟩,
  -- HDG_CNT_TRIP
  ⟨0x780080, 1, 4, 1, 4, [⟨31, 0, .rc, 0, []⟩]⟩,
  -- HDG_CNT_BLANK
  ⟨0x780084, 1, 4, 1, 4, [⟨31, 0, .rc, 0, []⟩]⟩,
  -- HDG_CNT_RST_REF
  ⟨0x780088, 1, 4, 1, 4, [⟨31, 0, .rc, 0, []⟩]⟩,
  -- HDG_CNT_ENC_ERR
  ⟨0x78008c, 1, 4, 1, 4, [⟨31, 0, .rc, 0, []⟩]⟩]

/-- Registers of block MER, part 0: Table MS-5. -/
def regsMER0 : List RegSpec := [
  -- MER_CTRL
  ⟨0x800000, 1, 4, 1, 4, [⟨2, 2, .wo, 0, []⟩, ⟨1, 1, .wo, 0, []⟩, ⟨0, 0, .rw, 0, []⟩]⟩,
  -- MER_STATUS
  ⟨0x800004, 1, 4, 1, 4, [⟨31, 24, .ro, 0, []⟩, ⟨13, 13, .ro, 0, []⟩, ⟨12, 12, .ro, 0, []⟩, ⟨11, 11, .ro, 0, []⟩, ⟨10, 10, .ro, 0, []⟩, ⟨9, 7, .ro, 0, []⟩, ⟨2, 0, .ro, 0, []⟩]⟩,
  -- MER_CFG
  ⟨0x800008, 1, 4, 1, 4, [⟨31, 24, .rw, 0, []⟩, ⟨16, 16, .rw, 1, []⟩, ⟨15, 8, .rw, 0xa, [(0, 4)]⟩]⟩,
  -- MER_LAT
  ⟨0x80000c, 1, 4, 1, 4, [⟨15, 0, .rw, 0xc80, [(0, 1599)]⟩]⟩,
  -- MER_EPOCH_CFG
  ⟨0x800010, 1, 4, 1, 4, [⟨31, 31, .rw, 0, []⟩, ⟨23, 0, .rw, 0x9c40, [(0, 999)]⟩]⟩,
  -- MER_EPOCH_PHASE
  ⟨0x800014, 1, 4, 1, 4, [⟨31, 0, .rw, 0, []⟩]⟩,
  -- MER_DELAY
  ⟨0x800018, 1, 4, 1, 4, [⟨23, 0, .ro, 0, []⟩]⟩,
  -- MER_PHASE
  ⟨0x80001c, 1, 4, 1, 4, [⟨31, 16, .ro, 0, []⟩, ⟨15, 0, .ro, 0, []⟩]⟩,
  -- MER_RT
  ⟨0x800020, 8, 4, 1, 4, [⟨31, 31, .ro, 0, []⟩, ⟨23, 0, .ro, 0, []⟩]⟩,
  -- MER_CNT_FRAME_ERR
  ⟨0x800040, 1, 4, 1, 4, [⟨31, 0, .rc, 0, []⟩]⟩,
  -- MER_CNT_LATE
  ⟨0x800044, 1, 4, 1, 4, [⟨31, 0, .rc, 0, []⟩]⟩,
  -- MER_CAP_CTRL
  ⟨0x801000, 1, 4, 1, 4, [⟨3, 3, .wo, 0, []⟩, ⟨2, 2, .wo, 0, []⟩, ⟨1, 1, .rw, 0, []⟩, ⟨0, 0, .rw, 0, []⟩]⟩,
  -- MER_CAP_STATUS
  ⟨0x801004, 1, 4, 1, 4, [⟨18, 18, .ro, 0, []⟩, ⟨17, 17, .ro, 0, []⟩, ⟨16, 16, .ro, 0, []⟩, ⟨8, 0, .ro, 0, []⟩]⟩,
  -- MER_CAP_SRC
  ⟨0x801008, 1, 4, 1, 4, [⟨31, 28, .rw, 0, [(3, 15)]⟩, ⟨23, 16, .rw, 0, [(192, 255)]⟩, ⟨13, 8, .rw, 1, []⟩, ⟨4, 0, .rw, 0, [(24, 31)]⟩]⟩,
  -- MER_CAP_TRIG
  ⟨0x80100c, 1, 4, 1, 4, [⟨31, 23, .rw, 0, []⟩, ⟨22, 14, .rw, 0, [(320, 511)]⟩, ⟨11, 10, .rw, 0, [(3, 3)]⟩, ⟨9, 9, .rw, 0, []⟩, ⟨2, 0, .rw, 0, [(7, 7)]⟩]⟩,
  -- MER_CAP_LEVEL
  ⟨0x801010, 1, 4, 1, 4, [⟨29, 16, .rw, 0x2000, []⟩, ⟨15, 8, .rw, 2, [(0, 0)]⟩, ⟨7, 0, .rw, 0x10, [(0, 0)]⟩]⟩,
  -- MER_CAP_LEN
  ⟨0x801014, 1, 4, 1, 4, [⟨27, 16, .rw, 0x200, [(2049, 4095)]⟩, ⟨12, 0, .rw, 0x600, [(0, 0), (4097, 8191)]⟩]⟩,
  -- MER_CAP_AVG
  ⟨0x801018, 1, 4, 1, 4, [⟨8, 0, .rw, 1, [(0, 0), (257, 511)]⟩]⟩,
  -- MER_CAP_BASE_LO
  ⟨0x801020, 1, 4, 1, 4, [⟨31, 16, .rw, 0, []⟩]⟩,
  -- MER_CAP_BASE_HI
  ⟨0x801024, 1, 4, 1, 4, [⟨8, 0, .rw, 0, []⟩]⟩,
  -- MER_CAP_SIZE
  ⟨0x801028, 1, 4, 1, 4, [⟨31, 16, .rw, 0x10, [(0, 0)]⟩]⟩,
  -- MER_CAP_WPTR
  ⟨0x80102c, 1, 4, 1, 4, [⟨31, 0, .ro, 0, []⟩]⟩,
  -- MER_CAP_RPTR
  ⟨0x801030, 1, 4, 1, 4, [⟨31, 0, .rw, 0, []⟩]⟩,
  -- MER_CAPTURE_DROP
  ⟨0x801034, 1, 4, 1, 4, [⟨31, 0, .rc, 0, []⟩]⟩,
  -- MER_CAP_DROP_CAUSE
  ⟨0x801038, 1, 4, 1, 4, [⟨2, 2, .w1c, 0, []⟩, ⟨1, 1, .w1c, 0, []⟩, ⟨0, 0, .w1c, 0, []⟩]⟩]

/-- Registers of block MER, part 1: Table MS-5. -/
def regsMER1 : List RegSpec := [
  -- MER_CAP_REJ_SEG
  ⟨0x80103c, 1, 4, 1, 4, [⟨31, 0, .rc, 0, []⟩]⟩,
  -- MER_CAP_RECORDS
  ⟨0x801040, 1, 4, 1, 4, [⟨31, 0, .rc, 0, []⟩]⟩]

/-- Registers of block SXT, part 0: Table MS-6. -/
def regsSXT0 : List RegSpec := [
  -- SXT_CTRL
  ⟨0x880000, 1, 4, 1, 4, [⟨3, 3, .wo, 0, []⟩, ⟨2, 2, .wo, 0, []⟩, ⟨1, 1, .wo, 0, []⟩, ⟨0, 0, .rw, 0, []⟩]⟩,
  -- SXT_STATUS
  ⟨0x880004, 1, 4, 1, 4, [⟨9, 9, .ro, 0, []⟩, ⟨8, 8, .ro, 0, []⟩, ⟨7, 7, .ro, 0, []⟩, ⟨6, 6, .ro, 0, []⟩, ⟨5, 5, .ro, 0, []⟩, ⟨4, 4, .ro, 0, []⟩]⟩,
  -- SXT_CFG
  ⟨0x880008, 1, 4, 1, 4, [⟨31, 31, .rw, 0, []⟩, ⟨19, 16, .rw, 0, [(9, 15)]⟩, ⟨15, 12, .rw, 0, [(9, 15)]⟩, ⟨9, 8, .rw, 2, [(3, 3)]⟩, ⟨5, 4, .rw, 1, [(3, 3)]⟩, ⟨1, 0, .rw, 1, [(2, 3)]⟩]⟩,
  -- SXT_N
  ⟨0x88000c, 1, 4, 1, 4, [⟨15, 0, .rw, 0x400, [(0, 0)]⟩]⟩,
  -- SXT_TIMEOUT
  ⟨0x880010, 1, 4, 1, 4, [⟨7, 0, .rw, 0xa, [(0, 0)]⟩]⟩,
  -- SXT_OFS
  ⟨0x880014, 1, 4, 1, 4, [⟨31, 0, .rw, 0, []⟩]⟩,
  -- SXT_COUNT
  ⟨0x880020, 1, 4, 1, 4, [⟨31, 16, .ro, 0, []⟩, ⟨15, 0, .ro, 0, []⟩]⟩,
  -- SXT_MEAN_LO
  ⟨0x880024, 1, 4, 1, 4, [⟨31, 0, .ro, 0, []⟩]⟩,
  -- SXT_MEAN_HI
  ⟨0x880028, 1, 4, 1, 4, [⟨7, 0, .ro, 0, []⟩]⟩,
  -- SXT_SD
  ⟨0x88002c, 1, 4, 1, 4, [⟨31, 0, .ro, 0, []⟩]⟩,
  -- SXT_MIN
  ⟨0x880030, 1, 4, 1, 4, [⟨31, 0, .ro, 0x7fffffff, []⟩]⟩,
  -- SXT_MAX
  ⟨0x880034, 1, 4, 1, 4, [⟨31, 0, .ro, 0x80000000, []⟩]⟩,
  -- SXT_LAST
  ⟨0x880038, 1, 4, 1, 4, [⟨31, 0, .ro, 0, []⟩]⟩,
  -- SXT_CDT_START
  ⟨0x880100, 32, 4, 1, 4, [⟨31, 24, .rw, 0, [(129, 255)]⟩, ⟨23, 16, .rw, 0, [(129, 255)]⟩, ⟨15, 8, .rw, 0, [(129, 255)]⟩, ⟨7, 0, .rw, 0, [(129, 255)]⟩]⟩,
  -- SXT_CDT_STOP
  ⟨0x880180, 32, 4, 1, 4, [⟨31, 24, .rw, 0, [(129, 255)]⟩, ⟨23, 16, .rw, 0, [(129, 255)]⟩, ⟨15, 8, .rw, 0, [(129, 255)]⟩, ⟨7, 0, .rw, 0, [(129, 255)]⟩]⟩]

/-- Registers of block ADC, part 0: Table AA-4. -/
def regsADC0 : List RegSpec := [
  -- ADC_CTRL
  ⟨0x900000, 1, 4, 1, 4, [⟨0, 0, .rw, 0, []⟩]⟩,
  -- ADC_STATUS
  ⟨0x900004, 1, 4, 1, 4, [⟨10, 10, .w1c, 0, []⟩, ⟨9, 9, .ro, 0, []⟩, ⟨8, 8, .ro, 0, []⟩, ⟨4, 0, .ro, 0, []⟩]⟩,
  -- ADC_SCAN_MASK
  ⟨0x900010, 1, 4, 1, 4, [⟨23, 0, .rw, 0, []⟩]⟩,
  -- ADC_CFG
  ⟨0x900014, 1, 4, 1, 4, [⟨1, 1, .rw, 0, []⟩, ⟨0, 0, .rw, 0, []⟩]⟩,
  -- ADC_URGENT
  ⟨0x900018, 1, 4, 1, 4, [⟨8, 8, .wo, 0, []⟩, ⟨4, 0, .rw, 0, [(24, 31)]⟩]⟩,
  -- ADC_URG_RESULT
  ⟨0x90001c, 1, 4, 1, 4, [⟨31, 0, .ro, 0, []⟩]⟩,
  -- ADC_OVR_STATUS
  ⟨0x900020, 1, 4, 1, 4, [⟨23, 0, .w1c, 0, []⟩]⟩,
  -- ADC_FLAP_STATUS
  ⟨0x900024, 1, 4, 1, 4, [⟨7, 0, .w1c, 0, []⟩]⟩,
  -- ADC_EXC_STATUS
  ⟨0x900028, 1, 4, 1, 4, [⟨7, 0, .ro, 0, []⟩]⟩,
  -- ADC_CNT_DISCARD
  ⟨0x90002c, 1, 4, 1, 4, [⟨31, 0, .rc, 0, []⟩]⟩,
  -- ADC_IN_CFG
  ⟨0x900100, 24, 4, 1, 4, [⟨19, 16, .rw, 0, []⟩, ⟨3, 0, .rw, 4, [(0, 0)]⟩]⟩,
  -- ADC_LAST
  ⟨0x900200, 24, 4, 1, 4, [⟨31, 0, .ro, 0, []⟩]⟩,
  -- ADC_FE_CFG
  ⟨0x900400, 8, 0x10, 1, 4, [⟨31, 31, .rw, 1, []⟩, ⟨29, 28, .rw, 0, []⟩, ⟨26, 24, .rw, 0, []⟩, ⟨22, 16, .rw, 0xa, [(101, 127)]⟩, ⟨15, 0, .rw, 0x3e8, [(0, 0)]⟩]⟩,
  -- ADC_FE_PULSE
  ⟨0x900404, 8, 0x10, 1, 4, [⟨31, 16, .rw, 0, []⟩, ⟨15, 0, .rw, 0, []⟩]⟩,
  -- ADC_FE_SWAP
  ⟨0x900408, 8, 0x10, 1, 4, [⟨8, 8, .rw, 0, []⟩, ⟨7, 0, .rw, 0xa, [(0, 0)]⟩]⟩,
  -- ADC_FE_STATUS
  ⟨0x90040c, 8, 0x10, 1, 4, [⟨8, 8, .w1c, 0, []⟩, ⟨7, 7, .ro, 0, []⟩, ⟨6, 6, .ro, 0, []⟩, ⟨5, 5, .ro, 0, []⟩, ⟨4, 4, .ro, 0, []⟩, ⟨3, 3, .ro, 0, []⟩, ⟨2, 2, .ro, 0, []⟩, ⟨1, 0, .ro, 0, []⟩]⟩]

/-- Registers of block CAL, part 0: Table CT-6. -/
def regsCAL0 : List RegSpec := [
  -- CAL_STATUS
  ⟨0xa00000, 1, 4, 1, 4, [⟨16, 16, .w1c, 0, []⟩, ⟨15, 15, .ro, 0, []⟩, ⟨14, 14, .ro, 0, []⟩, ⟨13, 13, .ro, 0, []⟩, ⟨12, 12, .ro, 0, []⟩, ⟨11, 11, .ro, 0, []⟩, ⟨10, 8, .ro, 0, []⟩, ⟨3, 0, .ro, 0, []⟩]⟩,
  -- CAL_CTRL
  ⟨0xa00004, 1, 4, 1, 4, [⟨0, 0, .wo, 0, []⟩]⟩,
  -- CAL_CFG
  ⟨0xa00008, 1, 4, 1, 4, [⟨31, 24, .rw, 0x50, [(0, 9)]⟩, ⟨23, 16, .rw, 0x3c, [(0, 9)]⟩, ⟨1, 1, .rw, 0, []⟩, ⟨0, 0, .rw, 0, []⟩]⟩,
  -- CAL_CD_CFG
  ⟨0xa0000c, 1, 4, 1, 4, [⟨31, 24, .rw, 0xc8, [(0, 0)]⟩, ⟨23, 16, .rw, 0x10, [(0, 0)]⟩, ⟨15, 0, .rw, 0x78, [(0, 0)]⟩]⟩,
  -- CAL_RZ_CFG
  ⟨0xa00010, 1, 4, 1, 4, [⟨31, 16, .rw, 0x3e8, [(0, 0)]⟩, ⟨15, 8, .rw, 0x14, [(0, 0)]⟩, ⟨7, 0, .rw, 0x10, [(0, 0)]⟩]⟩,
  -- CAL_RZ_DRIFT
  ⟨0xa00014, 1, 4, 1, 4, [⟨15, 0, .rw, 0x300, [(0, 0)]⟩]⟩,
  -- CAL_RZ_LAT
  ⟨0xa00018, 1, 4, 1, 4, [⟨31, 0, .ro, 0, []⟩]⟩,
  -- CAL_SURVEY_CFG
  ⟨0xa0001c, 1, 4, 1, 4, [⟨23, 16, .rw, 0x64, [(0, 0)]⟩, ⟨15, 8, .rw, 0x14, [(0, 0)]⟩, ⟨2, 0, .rw, 2, [(0, 0), (5, 7)]⟩]⟩,
  -- CAL_RESULT
  ⟨0xa00020, 1, 4, 1, 4, [⟨31, 24, .ro, 0, []⟩, ⟨23, 21, .ro, 0, []⟩, ⟨20, 11, .ro, 0, []⟩, ⟨10, 0, .ro, 0x7ff, []⟩]⟩,
  -- CAL_LAST_CD
  ⟨0xa00024, 1, 4, 1, 4, [⟨31, 16, .rws, 0xffff, []⟩, ⟨15, 0, .rws, 0, []⟩]⟩,
  -- CAL_LAST_RZ
  ⟨0xa00028, 1, 4, 1, 4, [⟨31, 16, .rws, 0xffff, []⟩, ⟨15, 0, .rws, 0, []⟩]⟩,
  -- CAL_JRN_CTRL
  ⟨0xa00030, 1, 4, 1, 4, [⟨0, 0, .wo, 0, []⟩]⟩,
  -- CAL_JRN_STATUS
  ⟨0xa00034, 1, 4, 1, 4, [⟨31, 8, .ro, 0, []⟩, ⟨3, 3, .ro, 0, []⟩, ⟨2, 2, .ro, 0, []⟩, ⟨1, 1, .ro, 0, []⟩, ⟨0, 0, .ro, 0, []⟩]⟩,
  -- CAL_LEG_SEL
  ⟨0xa00040, 1, 4, 1, 4, [⟨3, 2, .rw, 0, []⟩, ⟨1, 0, .rw, 0, []⟩]⟩,
  -- CAL_LEG_CTRL
  ⟨0xa00044, 1, 4, 1, 4, [⟨0, 0, .wo, 0, []⟩]⟩,
  -- CAL_LEG_TEMP
  ⟨0xa00048, 4, 4, 1, 4, [⟨15, 0, .ro, 0, []⟩]⟩,
  -- CAL_LEG_STATUS
  ⟨0xa00058, 1, 4, 1, 4, [⟨15, 0, .ro, 0, []⟩]⟩,
  -- CAL_FUSE_ROW
  ⟨0xa00060, 1, 4, 1, 4, [⟨11, 0, .rw, 0, []⟩]⟩,
  -- CAL_FUSE_DATA_LO
  ⟨0xa00064, 1, 4, 1, 4, [⟨31, 0, .rw, 0, []⟩]⟩,
  -- CAL_FUSE_DATA_HI
  ⟨0xa00068, 1, 4, 1, 4, [⟨7, 0, .rw, 0, []⟩]⟩,
  -- CAL_FUSE_CTRL
  ⟨0xa0006c, 1, 4, 1, 4, [⟨31, 16, .wo, 0, []⟩, ⟨0, 0, .wo, 0, []⟩]⟩,
  -- CAL_FUSE_STATUS
  ⟨0xa00070, 1, 4, 1, 4, [⟨11, 8, .ro, 8, []⟩, ⟨2, 1, .ro, 0, []⟩, ⟨0, 0, .ro, 0, []⟩]⟩,
  -- CAL_LEG_WIN
  ⟨0xa01000, 581, 4, 1, 4, [⟨31, 0, .rw, 0, []⟩]⟩,
  -- CAL_LEG_BOFS
  ⟨0xa04000, 1152, 4, 1, 4, [⟨31, 0, .ro, 0, []⟩]⟩,
  -- CAL_FUSE_VIEW
  ⟨0xa08000, 8192, 4, 1, 4, [⟨31, 0, .ro, 0, []⟩]⟩]

/-- Registers of block THM, part 0: Table CT-7. -/
def regsTHM0 : List RegSpec := [
  -- THM_STATUS
  ⟨0xa80000, 1, 4, 1, 4, [⟨20, 16, .ro, 0, []⟩, ⟨11, 11, .w1c, 0, []⟩, ⟨10, 10, .ro, 0, []⟩, ⟨9, 9, .ro, 0, []⟩, ⟨8, 8, .ro, 0, []⟩, ⟨6, 4, .ro, 0, []⟩, ⟨2, 0, .ro, 0, []⟩]⟩,
  -- THM_T_STAGE
  ⟨0xa80004, 1, 4, 1, 4, [⟨31, 16, .ro, 0, []⟩, ⟨15, 0, .ro, 0, []⟩]⟩,
  -- THM_THR
  ⟨0xa80008, 1, 4, 1, 4, [⟨31, 24, .rwl, 0x82, [(0, 109), (131, 255)]⟩, ⟨23, 16, .rw, 0x7a, []⟩, ⟨15, 8, .rw, 0x73, []⟩, ⟨7, 0, .rw, 0x69, []⟩]⟩,
  -- THM_HYST
  ⟨0xa8000c, 1, 4, 1, 4, [⟨15, 8, .rw, 0x32, [(0, 0)]⟩, ⟨3, 0, .rw, 3, [(0, 0), (11, 15)]⟩]⟩,
  -- THM_DERATE_CFG
  ⟨0xa80010, 1, 4, 1, 4, [⟨0, 0, .rw, 0, []⟩]⟩,
  -- THM_DERATE_GATE
  ⟨0xa80014, 6, 4, 1, 4, [⟨31, 0, .rw, 0xaaaaaaaa, []⟩]⟩,
  -- THM_COMP_CFG
  ⟨0xa80030, 1, 4, 1, 4, [⟨31, 16, .rw, 0, []⟩, ⟨0, 0, .rw, 1, []⟩]⟩,
  -- THM_SNS_CTRL
  ⟨0xa80034, 1, 4, 1, 4, [⟨9, 9, .wo, 0, []⟩, ⟨8, 8, .wo, 0, []⟩, ⟨4, 0, .rw, 0, [(24, 31)]⟩]⟩,
  -- THM_RETIRED
  ⟨0xa80038, 1, 4, 1, 4, [⟨23, 0, .rws, 0, []⟩]⟩,
  -- THM_TRIP_REC
  ⟨0xa8003c, 1, 4, 1, 4, [⟨31, 31, .w1c, 0, []⟩, ⟨20, 16, .ro, 0, []⟩, ⟨15, 0, .ro, 0, []⟩]⟩,
  -- THM_SNS_T
  ⟨0xa80100, 24, 8, 1, 4, [⟨31, 16, .ro, 0, []⟩, ⟨15, 0, .ro, 0, []⟩]⟩,
  -- THM_SNS_ST
  ⟨0xa80104, 24, 8, 1, 4, [⟨5, 4, .ro, 0, []⟩, ⟨3, 3, .ro, 0, []⟩, ⟨2, 0, .ro, 0, []⟩]⟩,
  -- THM_RAIL
  ⟨0xa80200, 6, 4, 1, 4, [⟨31, 16, .ro, 0, []⟩, ⟨1, 1, .ro, 0, []⟩, ⟨0, 0, .ro, 0, []⟩]⟩,
  -- THM_RO
  ⟨0xa80280, 8, 4, 1, 4, [⟨31, 16, .ro, 0, []⟩, ⟨15, 0, .ro, 0, []⟩]⟩]

/-- Registers of block MEM, part 0: Table MC-7. -/
def regsMEM0 : List RegSpec := [
  -- MEM_CTRL
  ⟨0xb00000, 1, 4, 1, 4, [⟨2, 2, .wo, 0, []⟩, ⟨1, 1, .rw, 0, []⟩, ⟨0, 0, .rw, 0, []⟩]⟩,
  -- MEM_STATUS
  ⟨0xb00004, 1, 4, 1, 4, [⟨19, 16, .ro, 0, []⟩, ⟨15, 12, .ro, 0, []⟩, ⟨11, 11, .w1c, 0, []⟩, ⟨10, 10, .w1c, 0, []⟩, ⟨9, 9, .ro, 0, []⟩, ⟨8, 8, .ro, 0, []⟩, ⟨2, 0, .ro, 0, []⟩]⟩,
  -- MEM_CFG
  ⟨0xb00008, 1, 4, 1, 4, [⟨12, 12, .rws, 0, []⟩, ⟨11, 11, .rws, 1, []⟩, ⟨10, 10, .rws, 0, []⟩, ⟨9, 9, .rws, 0, []⟩, ⟨8, 6, .rws, 2, [(5, 7)]⟩, ⟨5, 5, .rws, 0, []⟩, ⟨4, 3, .rws, 0, []⟩, ⟨2, 0, .rws, 0, []⟩]⟩,
  -- MEM_SIZE
  ⟨0xb0000c, 1, 4, 1, 4, [⟨31, 0, .ro, 0, []⟩]⟩,
  -- MEM_WIN_CFG
  ⟨0xb00100, 8, 0x10, 1, 4, [⟨5, 1, .rw, 0x14, [(0, 19)]⟩, ⟨0, 0, .rw, 0, []⟩]⟩,
  -- MEM_WIN_BASE
  ⟨0xb00104, 8, 0x10, 1, 4, [⟨20, 0, .rw, 0x100000, []⟩]⟩,
  -- MEM_WIN_HOST_LO
  ⟨0xb00108, 8, 0x10, 1, 4, [⟨31, 20, .rw, 0, []⟩]⟩,
  -- MEM_WIN_HOST_HI
  ⟨0xb0010c, 8, 0x10, 1, 4, [⟨31, 0, .rw, 0, []⟩]⟩,
  -- MEM_PORT_CFG
  ⟨0xb00200, 8, 0x10, 1, 4, [⟨31, 24, .rw, 0, [(0, 0)]⟩, ⟨23, 8, .rw, 0, [(0, 0)]⟩, ⟨7, 7, .rw, 0, []⟩]⟩,
  -- MEM_PORT_PANIC
  ⟨0xb00204, 8, 0x10, 1, 4, [⟨15, 8, .rw, 0x18, [(0, 1), (33, 255)]⟩, ⟨7, 0, .rw, 8, []⟩]⟩,
  -- MEM_PORT_STATUS
  ⟨0xb00208, 8, 0x10, 1, 4, [⟨2, 2, .w1c, 0, []⟩, ⟨1, 1, .ro, 0, []⟩, ⟨0, 0, .ro, 0, []⟩]⟩,
  -- MEM_PORT_CNT
  ⟨0xb0020c, 8, 0x10, 1, 4, [⟨31, 0, .rc, 0, []⟩]⟩,
  -- MEM_REF_CFG
  ⟨0xb00300, 1, 4, 1, 4, [⟨15, 8, .rw, 0x10, [(0, 0)]⟩, ⟨7, 4, .rw, 8, [(0, 0), (9, 15)]⟩, ⟨0, 0, .rw, 1, []⟩]⟩,
  -- MEM_CNT_REF_FORCED
  ⟨0xb00304, 1, 4, 1, 4, [⟨31, 0, .rc, 0, []⟩]⟩,
  -- MEM_DRAM_RATE
  ⟨0xb00308, 1, 4, 1, 4, [⟨15, 0, .ro, 0, []⟩]⟩,
  -- MEM_PASR
  ⟨0xb00310, 4, 4, 1, 4, [⟨7, 0, .rw, 0, []⟩]⟩,
  -- MEM_HOT_CFG
  ⟨0xb00320, 1, 4, 1, 4, [⟨15, 8, .rw, 4, [(0, 0)]⟩, ⟨7, 0, .rw, 0x40, [(0, 47)]⟩]⟩,
  -- MEM_HOT_BANK
  ⟨0xb00324, 1, 4, 1, 4, [⟨31, 0, .ro, 0, []⟩]⟩,
  -- MEM_ECC_CE_CNT
  ⟨0xb00330, 1, 4, 1, 4, [⟨31, 0, .rc, 0, []⟩]⟩,
  -- MEM_ECC_CE_THR
  ⟨0xb00334, 1, 4, 1, 4, [⟨15, 0, .rw, 0x100, [(0, 0)]⟩]⟩,
  -- MEM_ECC_UE_CNT
  ⟨0xb00338, 1, 4, 1, 4, [⟨31, 0, .rc, 0, []⟩]⟩,
  -- MEM_ECC_ADDR_LO
  ⟨0xb0033c, 1, 4, 1, 4, [⟨31, 0, .ro, 0, []⟩]⟩,
  -- MEM_ECC_ADDR_HI
  ⟨0xb00340, 1, 4, 1, 4, [⟨8, 0, .ro, 0, []⟩]⟩,
  -- MEM_CNT_LINK_RETRY
  ⟨0xb00344, 1, 4, 1, 4, [⟨31, 0, .rc, 0, []⟩]⟩,
  -- MEM_SCRUB_CFG
  ⟨0xb00348, 1, 4, 1, 4, [⟨15, 8, .rw, 0x18, [(0, 0)]⟩, ⟨0, 0, .rw, 0, []⟩]⟩]

/-- Registers of block MEM, part 1: Table MC-7. -/
def regsMEM1 : List RegSpec := [
  -- MEM_ADDR_ERR_ADDR
  ⟨0xb00350, 1, 4, 1, 4, [⟨31, 0, .ro, 0, []⟩]⟩,
  -- MEM_ADDR_ERR_INFO
  ⟨0xb00354, 1, 4, 1, 4, [⟨19, 16, .rc, 0, []⟩, ⟨11, 9, .rc, 0, []⟩, ⟨8, 0, .rc, 0, []⟩]⟩,
  -- MEM_PB_BASE_LO
  ⟨0xb00400, 1, 4, 1, 4, [⟨31, 16, .rw, 0, []⟩]⟩,
  -- MEM_PB_BASE_HI
  ⟨0xb00404, 1, 4, 1, 4, [⟨8, 0, .rw, 0, []⟩]⟩,
  -- MEM_PB_SIZE
  ⟨0xb00408, 1, 4, 1, 4, [⟨31, 16, .rw, 0x100, [(0, 0)]⟩]⟩,
  -- MEM_PB_WPTR
  ⟨0xb0040c, 1, 4, 1, 4, [⟨31, 0, .ro, 0, []⟩]⟩,
  -- MEM_PB_RPTR
  ⟨0xb00410, 1, 4, 1, 4, [⟨31, 0, .rw, 0, []⟩]⟩,
  -- MEM_PB_CFG
  ⟨0xb00414, 1, 4, 1, 4, [⟨0, 0, .rw, 0, []⟩]⟩,
  -- MEM_PB_OVF_CNT
  ⟨0xb00418, 1, 4, 1, 4, [⟨31, 0, .rc, 0, []⟩]⟩,
  -- MEM_PB_OVF_CAUSE
  ⟨0xb0041c, 1, 4, 1, 4, [⟨1, 1, .w1c, 0, []⟩, ⟨0, 0, .w1c, 0, []⟩]⟩,
  -- MEM_MR_CMD
  ⟨0xb00500, 1, 4, 1, 4, [⟨31, 31, .wo, 0, []⟩, ⟨30, 30, .ro, 0, []⟩, ⟨29, 29, .rw, 0, []⟩, ⟨28, 27, .rw, 0, []⟩, ⟨26, 26, .rw, 0, []⟩, ⟨15, 8, .rw, 0, []⟩, ⟨7, 0, .rw, 0, []⟩]⟩,
  -- MEM_MR_DATA
  ⟨0xb00504, 1, 4, 1, 4, [⟨7, 0, .ro, 0, []⟩]⟩,
  -- MEM_TRN_CTRL
  ⟨0xb00510, 1, 4, 1, 4, [⟨1, 1, .ro, 0, []⟩, ⟨0, 0, .wo, 0, []⟩]⟩,
  -- MEM_TRN_CFG
  ⟨0xb00514, 1, 4, 1, 4, [⟨31, 24, .rw, 4, [(0, 0)]⟩, ⟨21, 16, .rw, 0x3f, []⟩, ⟨15, 8, .rw, 0, []⟩, ⟨7, 4, .rw, 0, []⟩, ⟨3, 3, .rw, 0, []⟩, ⟨2, 1, .rw, 1, [(3, 3)]⟩, ⟨0, 0, .rw, 0, []⟩]⟩,
  -- MEM_TRN_ADDR
  ⟨0xb00518, 1, 4, 1, 4, [⟨31, 30, .rw, 0, []⟩, ⟨29, 5, .rw, 0, []⟩, ⟨4, 0, .rw, 0, []⟩]⟩,
  -- MEM_TRN_USER_LO
  ⟨0xb0051c, 1, 4, 1, 4, [⟨31, 0, .rw, 0, []⟩]⟩,
  -- MEM_TRN_USER_HI
  ⟨0xb00520, 1, 4, 1, 4, [⟨31, 0, .rw, 0, []⟩]⟩,
  -- MEM_TRN_STATE
  ⟨0xb00524, 1, 4, 1, 4, [⟨4, 4, .rws, 0, []⟩, ⟨3, 0, .rws, 0, []⟩]⟩,
  -- MEM_TRN_MASK
  ⟨0xb00600, 64, 4, 1, 4, [⟨15, 0, .ro, 0, []⟩]⟩,
  -- MEM_DLY
  ⟨0xb00800, 4, 0x100, 16, 4, [⟨22, 16, .rws, 0x40, []⟩, ⟨6, 0, .rws, 0x40, []⟩]⟩]

/-- Registers of block LNK, part 0: Table LK-7. -/
def regsLNK0 : List RegSpec := [
  -- LNK_CTRL
  ⟨0xc00000, 1, 4, 1, 4, [⟨2, 2, .rw, 0, []⟩, ⟨1, 1, .rw, 0, []⟩, ⟨0, 0, .rw, 1, []⟩]⟩,
  -- LNK_CFG
  ⟨0xc00004, 1, 4, 1, 4, [⟨5, 4, .rw, 3, []⟩, ⟨2, 0, .rw, 0, []⟩]⟩,
  -- LNK_STATUS
  ⟨0xc00008, 1, 4, 1, 4, [⟨21, 21, .ro, 0, []⟩, ⟨20, 20, .ro, 0, []⟩, ⟨16, 16, .ro, 0, []⟩, ⟨12, 10, .ro, 0, []⟩, ⟨9, 8, .ro, 0, []⟩, ⟨7, 7, .ro, 0, []⟩]⟩,
  -- LNK_PCIE_CFG
  ⟨0xc0000c, 1, 4, 1, 4, [⟨9, 9, .rw, 1, []⟩, ⟨8, 8, .rw, 1, []⟩, ⟨5, 0, .rw, 0x20, [(1, 29), (37, 63)]⟩]⟩,
  -- LNK_LANE_ST
  ⟨0xc00020, 4, 4, 1, 4, [⟨5, 5, .w1c, 0, []⟩, ⟨4, 4, .ro, 0, []⟩, ⟨3, 3, .ro, 0, []⟩, ⟨1, 0, .ro, 1, []⟩]⟩,
  -- LNK_LANE_TEST
  ⟨0xc00030, 4, 4, 1, 4, [⟨5, 4, .rw, 0, [(3, 3)]⟩, ⟨2, 0, .rw, 0, [(4, 7)]⟩]⟩,
  -- LNK_PRBS_ERR
  ⟨0xc00040, 4, 4, 1, 4, [⟨31, 0, .rc, 0, []⟩]⟩,
  -- LNK_PKT_CFG
  ⟨0xc00060, 1, 4, 1, 4, [⟨31, 31, .rw, 1, []⟩, ⟨30, 30, .rw, 0, []⟩, ⟨29, 28, .rw, 0, [(3, 3)]⟩, ⟨15, 0, .rw, 0x28, [(0, 0)]⟩]⟩,
  -- LNK_PKT_DROP
  ⟨0xc00064, 1, 4, 1, 4, [⟨31, 0, .rc, 0, []⟩]⟩,
  -- LNK_ETH_CTRL
  ⟨0xc00100, 2, 0x80, 1, 4, [⟨4, 4, .rw, 0, []⟩, ⟨3, 3, .rw, 0, []⟩, ⟨2, 2, .rw, 0, []⟩, ⟨1, 1, .rw, 0, []⟩, ⟨0, 0, .rw, 0, []⟩]⟩,
  -- LNK_ETH_STATUS
  ⟨0xc00104, 2, 0x80, 1, 4, [⟨5, 5, .ro, 0, []⟩, ⟨4, 4, .ro, 0, []⟩, ⟨3, 3, .ro, 0, []⟩, ⟨2, 2, .ro, 0, []⟩, ⟨1, 1, .ro, 0, []⟩, ⟨0, 0, .ro, 0, []⟩]⟩,
  -- LNK_ETH_SMAC_LO
  ⟨0xc00108, 2, 0x80, 1, 4, [⟨31, 0, .rw, 0, []⟩]⟩,
  -- LNK_ETH_SMAC_HI
  ⟨0xc0010c, 2, 0x80, 1, 4, [⟨15, 0, .rw, 0, []⟩]⟩,
  -- LNK_ETH_DMAC_LO
  ⟨0xc00110, 2, 0x80, 1, 4, [⟨31, 0, .rw, 0, []⟩]⟩,
  -- LNK_ETH_DMAC_HI
  ⟨0xc00114, 2, 0x80, 1, 4, [⟨15, 0, .rw, 0, []⟩]⟩,
  -- LNK_ETH_SIP
  ⟨0xc00118, 2, 0x80, 1, 4, [⟨31, 0, .rw, 0, []⟩]⟩,
  -- LNK_ETH_DIP
  ⟨0xc0011c, 2, 0x80, 1, 4, [⟨31, 0, .rw, 0, []⟩]⟩,
  -- LNK_ETH_UDP
  ⟨0xc00120, 2, 0x80, 1, 4, [⟨31, 16, .rw, 0xc7d0, []⟩, ⟨15, 0, .rw, 0xc7d0, []⟩]⟩,
  -- LNK_ETH_IP_CFG
  ⟨0xc00124, 2, 0x80, 1, 4, [⟨31, 29, .rw, 0, []⟩, ⟨27, 16, .rw, 1, [(0, 0), (4095, 4095)]⟩, ⟨15, 8, .rw, 0x40, [(0, 0)]⟩, ⟨7, 2, .rw, 0, []⟩]⟩,
  -- LNK_ETH_MBOX
  ⟨0xc00128, 2, 0x80, 1, 4, [⟨15, 0, .rw, 0xc7d1, []⟩]⟩,
  -- LNK_ETH_FRAMES_TX
  ⟨0xc00140, 2, 0x80, 1, 4, [⟨31, 0, .rc, 0, []⟩]⟩,
  -- LNK_ETH_PKTS_TX
  ⟨0xc00144, 2, 0x80, 1, 4, [⟨31, 0, .rc, 0, []⟩]⟩,
  -- LNK_ETH_FRAMES_RX
  ⟨0xc00148, 2, 0x80, 1, 4, [⟨31, 0, .rc, 0, []⟩]⟩,
  -- LNK_ETH_FCS_ERR_RX
  ⟨0xc0014c, 2, 0x80, 1, 4, [⟨31, 0, .rc, 0, []⟩]⟩,
  -- LNK_ETH_DISCARD_RX
  ⟨0xc00150, 2, 0x80, 1, 4, [⟨31, 0, .rc, 0, []⟩]⟩]

/-- Registers of block LNK, part 1: Table LK-7. -/
def regsLNK1 : List RegSpec := [
  -- LNK_ETH_PKT_SEQ
  ⟨0xc00154, 2, 0x80, 1, 4, [⟨31, 0, .ro, 0, []⟩]⟩,
  -- LNK_PTP_CTRL
  ⟨0xc00300, 1, 4, 1, 4, [⟨2, 2, .wo, 0, []⟩, ⟨1, 1, .wo, 0, []⟩, ⟨0, 0, .rw, 1, []⟩]⟩,
  -- LNK_PTP_STATUS
  ⟨0xc00304, 1, 4, 1, 4, [⟨2, 2, .ro, 0, []⟩, ⟨1, 1, .ro, 0, []⟩, ⟨0, 0, .ro, 0, []⟩]⟩,
  -- LNK_PTP_TIME_LO
  ⟨0xc00308, 1, 4, 1, 4, [⟨31, 0, .ro, 0, []⟩]⟩,
  -- LNK_PTP_TIME_HI
  ⟨0xc0030c, 1, 4, 1, 4, [⟨31, 0, .ro, 0, []⟩]⟩,
  -- LNK_PTP_RATE
  ⟨0xc00310, 1, 4, 1, 4, [⟨31, 0, .rw, 0, []⟩]⟩,
  -- LNK_PTP_STEP
  ⟨0xc00314, 1, 4, 1, 4, [⟨31, 0, .wo, 0, []⟩]⟩,
  -- LNK_PTP_HOLD
  ⟨0xc00318, 1, 4, 1, 4, [⟨7, 0, .rw, 0x1e, [(0, 0)]⟩]⟩,
  -- LNK_PTP_TS_LO
  ⟨0xc00320, 1, 4, 1, 4, [⟨31, 0, .ro, 0, []⟩]⟩,
  -- LNK_PTP_TS_HI
  ⟨0xc00324, 1, 4, 1, 4, [⟨31, 0, .ro, 0, []⟩]⟩,
  -- LNK_PTP_TS_INFO
  ⟨0xc00328, 1, 4, 1, 4, [⟨31, 31, .rc, 0, []⟩, ⟨30, 30, .rc, 0, []⟩, ⟨29, 29, .rc, 0, []⟩, ⟨15, 0, .rc, 0, []⟩]⟩,
  -- LNK_MBOX_OWNER
  ⟨0xc00400, 1, 4, 1, 4, [⟨1, 0, .rw, 0, []⟩]⟩,
  -- LNK_MSPI_CRC_CNT
  ⟨0xc00408, 1, 4, 1, 4, [⟨31, 0, .rc, 0, []⟩]⟩,
  -- LNK_MSPI_WIN
  ⟨0xc0040c, 1, 4, 1, 4, [⟨9, 0, .ro, 0, []⟩]⟩,
  -- LNK_I2C_CFG
  ⟨0xc00410, 1, 4, 1, 4, [⟨15, 8, .rw, 0xa, [(0, 0)]⟩, ⟨1, 0, .rw, 1, [(3, 3)]⟩]⟩,
  -- LNK_I2C_STATUS
  ⟨0xc00414, 1, 4, 1, 4, [⟨1, 1, .ro, 0, []⟩, ⟨0, 0, .w1c, 0, []⟩]⟩,
  -- LNK_MBOX_BUF
  ⟨0xc04000, 1024, 4, 1, 4, [⟨31, 0, .rw, 0, []⟩]⟩,
  -- LNK_MSIX_TABLE
  ⟨0xc08000, 128, 4, 1, 4, [⟨31, 0, .rw, 0, []⟩]⟩,
  -- LNK_MSIX_PBA
  ⟨0xc09000, 2, 4, 1, 4, [⟨31, 0, .ro, 0, []⟩]⟩]

/-- Registers of block BOOT, part 0: Table BU-10. -/
def regsBOOT0 : List RegSpec := [
  -- BOOT_STATUS
  ⟨0xd00000, 1, 4, 1, 4, [⟨23, 16, .ro, 0, []⟩, ⟨15, 15, .ro, 0, []⟩, ⟨14, 14, .ro, 0, []⟩, ⟨13, 13, .ro, 0, []⟩, ⟨12, 12, .ro, 0, []⟩, ⟨11, 10, .ro, 0, []⟩, ⟨9, 9, .ro, 0, []⟩, ⟨7, 7, .ro, 0, []⟩, ⟨6, 6, .ro, 0, []⟩, ⟨5, 5, .ro, 0, []⟩, ⟨4, 4, .ro, 0, []⟩, ⟨3, 0, .ro, 0, []⟩]⟩,
  -- BOOT_LAST_RESET
  ⟨0xd00004, 1, 4, 1, 4, [⟨11, 8, .ro, 0, []⟩, ⟨3, 0, .ro, 0, []⟩]⟩,
  -- BOOT_FAIL
  ⟨0xd00008, 1, 4, 1, 4, [⟨1, 0, .ro, 0, []⟩]⟩,
  -- BOOT_IMAGE_VER
  ⟨0xd00010, 1, 4, 1, 4, [⟨31, 0, .ro, 0, []⟩]⟩,
  -- BOOT_IMAGE_INFO
  ⟨0xd00014, 1, 4, 1, 4, [⟨31, 16, .ro, 0, []⟩, ⟨9, 9, .ro, 0, []⟩, ⟨7, 0, .ro, 0, []⟩]⟩,
  -- BOOT_SERIAL_LO
  ⟨0xd00018, 1, 4, 1, 4, [⟨31, 0, .ro, 0, []⟩]⟩,
  -- BOOT_SERIAL_HI
  ⟨0xd0001c, 1, 4, 1, 4, [⟨31, 0, .ro, 0, []⟩]⟩,
  -- BOOT_UPD_RESULT
  ⟨0xd00020, 1, 4, 1, 4, [⟨7, 0, .ro, 0, []⟩]⟩,
  -- BOOT_STAGE_BASE_LO
  ⟨0xd00024, 1, 4, 1, 4, [⟨31, 23, .rw, 0, []⟩]⟩,
  -- BOOT_STAGE_BASE_HI
  ⟨0xd00028, 1, 4, 1, 4, [⟨7, 0, .rw, 0, []⟩]⟩,
  -- BOOT_SET_OPT
  ⟨0xd00030, 1, 4, 1, 4, [⟨0, 0, .rw, 0, []⟩]⟩,
  -- BOOT_HDL_CTRL
  ⟨0xd00040, 1, 4, 1, 4, [⟨1, 1, .wo, 0, []⟩, ⟨0, 0, .wo, 0, []⟩]⟩,
  -- BOOT_HDL_CFG
  ⟨0xd00044, 1, 4, 1, 4, [⟨2, 2, .rw, 0, []⟩, ⟨1, 1, .rw, 1, []⟩, ⟨0, 0, .rw, 1, []⟩]⟩,
  -- BOOT_HDL_STATUS
  ⟨0xd00048, 1, 4, 1, 4, [⟨15, 8, .ro, 0, []⟩, ⟨1, 1, .ro, 0, []⟩, ⟨0, 0, .ro, 0, []⟩]⟩,
  -- BOOT_HDL_RES
  ⟨0xd00054, 7, 4, 1, 4, [⟨8, 8, .ro, 0, []⟩, ⟨7, 0, .ro, 0, []⟩]⟩,
  -- BOOT_LOG_INDEX
  ⟨0xd00070, 1, 4, 1, 4, [⟨31, 0, .ro, 0, []⟩]⟩,
  -- BOOT_LOG_DROP
  ⟨0xd00074, 1, 4, 1, 4, [⟨31, 0, .rc, 0, []⟩]⟩,
  -- BOOT_SET_ADDR
  ⟨0xd01000, 256, 8, 1, 4, [⟨31, 0, .rw, 0xffffffff, []⟩]⟩,
  -- BOOT_SET_VALUE
  ⟨0xd01004, 256, 8, 1, 4, [⟨31, 0, .rw, 0, []⟩]⟩]

/-- Registers of block OBS, part 0: Table EV-7. -/
def regsOBS0 : List RegSpec := [
  -- OBS_CTRL
  ⟨0xe00000, 1, 4, 1, 4, [⟨2, 2, .wo, 0, []⟩, ⟨1, 1, .wo, 0, []⟩, ⟨0, 0, .rw, 1, []⟩]⟩,
  -- OBS_STATUS
  ⟨0xe00004, 1, 4, 1, 4, [⟨11, 2, .ro, 0, []⟩, ⟨1, 1, .ro, 0, []⟩, ⟨0, 0, .ro, 0, []⟩]⟩,
  -- OBS_SNAP_CFG
  ⟨0xe00008, 1, 4, 1, 4, [⟨31, 30, .rw, 0, []⟩, ⟨23, 0, .rw, 0x3e8, [(0, 9)]⟩]⟩,
  -- OBS_SNAP_SEQ
  ⟨0xe0000c, 1, 4, 1, 4, [⟨31, 0, .ro, 0, []⟩]⟩,
  -- OBS_SNAP_MISS
  ⟨0xe00010, 1, 4, 1, 4, [⟨31, 0, .rc, 0, []⟩]⟩,
  -- OBS_SNAP_TS_LO
  ⟨0xe00014, 1, 4, 1, 4, [⟨31, 0, .ro, 0, []⟩]⟩,
  -- OBS_SNAP_TS_HI
  ⟨0xe00018, 1, 4, 1, 4, [⟨31, 0, .ro, 0, []⟩]⟩,
  -- OBS_SAT
  ⟨0xe00040, 32, 4, 1, 4, [⟨31, 0, .w1c, 0, []⟩]⟩,
  -- OBS_SMP_CFG
  ⟨0xe00100, 1, 4, 1, 4, [⟨31, 16, .rw, 0x400, [(0, 15)]⟩, ⟨7, 0, .rw, 0xf, []⟩]⟩,
  -- OBS_SMP_DROP
  ⟨0xe00104, 1, 4, 1, 4, [⟨31, 0, .rc, 0, []⟩]⟩,
  -- OBS_TRC_ROUTE
  ⟨0xe00200, 1, 4, 1, 4, [⟨5, 4, .rw, 0, [(3, 3)]⟩, ⟨3, 2, .rw, 0, [(3, 3)]⟩, ⟨1, 0, .rw, 0, [(3, 3)]⟩]⟩,
  -- OBS_TRC_CFG
  ⟨0xe00204, 1, 4, 1, 4, [⟨8, 8, .wo, 0, []⟩, ⟨7, 2, .rw, 0x30, [(0, 0)]⟩, ⟨0, 0, .rw, 1, []⟩]⟩,
  -- OBS_TRC_WPTR
  ⟨0xe00208, 1, 4, 1, 4, [⟨15, 0, .ro, 0, []⟩]⟩,
  -- OBS_TRC_RPTR
  ⟨0xe0020c, 1, 4, 1, 4, [⟨15, 0, .rw, 0, []⟩]⟩,
  -- OBS_TRC_BASE_LO
  ⟨0xe00210, 1, 4, 1, 4, [⟨31, 16, .rw, 0, []⟩]⟩,
  -- OBS_TRC_BASE_HI
  ⟨0xe00214, 1, 4, 1, 4, [⟨8, 0, .rw, 0, []⟩]⟩,
  -- OBS_TRC_SIZE
  ⟨0xe00218, 1, 4, 1, 4, [⟨31, 16, .rw, 0x10, [(0, 0)]⟩]⟩,
  -- OBS_TRC_RING_WPTR
  ⟨0xe0021c, 1, 4, 1, 4, [⟨31, 0, .ro, 0, []⟩]⟩,
  -- OBS_TRC_RING_RPTR
  ⟨0xe00220, 1, 4, 1, 4, [⟨31, 0, .rw, 0, []⟩]⟩,
  -- OBS_TRC_DROP
  ⟨0xe00224, 1, 4, 1, 4, [⟨31, 0, .rc, 0, []⟩]⟩,
  -- OBS_CNT_CFG
  ⟨0xe01000, 1024, 4, 1, 4, [⟨31, 31, .rw, 0, []⟩, ⟨30, 30, .rw, 0, []⟩, ⟨23, 16, .rw, 0, []⟩, ⟨11, 0, .rw, 0, []⟩]⟩,
  -- OBS_CNT_LIVE_LO
  ⟨0xe02000, 1024, 8, 1, 4, [⟨31, 0, .ro, 0, []⟩]⟩,
  -- OBS_CNT_LIVE_HI
  ⟨0xe02004, 1024, 8, 1, 4, [⟨15, 0, .ro, 0, []⟩]⟩,
  -- OBS_CNT_SNAP_LO
  ⟨0xe04000, 1024, 8, 1, 4, [⟨31, 0, .ro, 0, []⟩]⟩,
  -- OBS_CNT_SNAP_HI
  ⟨0xe04004, 1024, 8, 1, 4, [⟨15, 0, .ro, 0, []⟩]⟩]

/-- Registers of block OBS, part 1: Table EV-7. -/
def regsOBS1 : List RegSpec := [
  -- OBS_TRC_BUF
  ⟨0xe10000, 16384, 4, 1, 4, [⟨31, 0, .ro, 0, []⟩]⟩]

/-- The blocks of Table AR-6 (all but the tiller memory window): first address, last address, registers. -/
def regBlocks : List (Nat × Nat × List RegSpec) := [
  (0, 0xffff, regsSYS0),
  (0x10000, 0xfffff, regsEVT0),
  (0x100000, 0x1fffff, regsDET0),
  (0x200000, 0x2fffff, regsTDC0),
  (0x300000, 0x3fffff, regsHIS0),
  (0x400000, 0x5fffff, regsTIL0 ++ regsTIL1),
  (0x600000, 0x60ffff, regsEMI0 ++ regsEMI1),
  (0x610000, 0x6fffff, regsSEED0),
  (0x700000, 0x77ffff, regsHLM0 ++ regsHLM1 ++ regsHLM2),
  (0x780000, 0x7fffff, regsHDG0),
  (0x800000, 0x87ffff, regsMER0 ++ regsMER1),
  (0x880000, 0x8fffff, regsSXT0),
  (0x900000, 0x9fffff, regsADC0),
  (0xa00000, 0xa7ffff, regsCAL0),
  (0xa80000, 0xafffff, regsTHM0),
  (0xb00000, 0xbfffff, regsMEM0 ++ regsMEM1),
  (0xc00000, 0xcfffff, regsLNK0 ++ regsLNK1),
  (0xd00000, 0xdfffff, regsBOOT0),
  (0xe00000, 0xefffff, regsOBS0 ++ regsOBS1)]

end Sys2Proof.Machine
end

