-- ==== Sys2Proof/Machine/State.lean ====
section
/-! DEFINITION. The state of the ELV-X1152 as plain data. Every register-visible bit lives in `State.regs`, the sparse register map
keyed by byte address (unlisted words read their reset value); what the spec gives the machine beside its registers
lives in one structure per block. The default of each field is its value at reset. -/

namespace Sys2Proof.Machine

/-- The condition of a protected word: clean, one bit wrong, uncorrectable, or poisoned (R38, R39, R95, R109). -/
inductive Cond where
  | ok | ce | ue | poison
  deriving DecidableEq, Repr

/-! ### Detector and timing front end (chapter 02) -/

/-- The detector tier's state beside its registers. -/
structure Det where
  /-- Dead time code in force, taken from DET_QUENCH_CFG at a boundary (R47). -/
  deadTime : Nat := 10
  /-- Coincidence window code in force, taken from DET_COINC_CFG at a boundary (R49). -/
  window : Nat := 1
  /-- Channels whose K_HOST a host write changed in the point cycle in progress (R50). -/
  kHostChanged : List Nat := []
  /-- Depth writes the fabric accepted for the ending point cycle: channel to k, 0 none (R50). -/
  tillerDepth : Tab Nat := []
  /-- Pending firings of each macropixel's coincidence detector, as instants in ps (R48). -/
  pendingFirings : Tab (List Nat) := []
  /-- Last firing of each SPAD, key 16 × channel + SPAD: instant in ps plus 1, 0 none (R47). -/
  lastFiring : Tab Nat := []
  /-- Furrows gated by the derating profile in force, bit f (R52, R348). -/
  gated : Nat := 0
  /-- V_target in mV, as last computed and clamped (R55). -/
  vTarget : Nat := 0
  /-- No new temperature reading has arrived for 50 ms (R56). -/
  tempOld : Bool := false
  /-- A start ramp runs: BIAS_EN was set and BIAS_SETTLED has not read 1 since (R57). -/
  ramping : Bool := false
  /-- The monitor bits held by the flapping latch: bit 0 LOW, bit 1 HIGH (R58). -/
  latched : Nat := 0
  /-- Instants of monitor entries within the last 60 s (R58, R470). -/
  entries : List Nat := []
  /-- Event edges on their way to the TDC: channel and instant in ps (R48, R49). -/
  edges : List (Nat × Nat) := []
  /-- Firings counted in the open probe gate (R60). -/
  probeCount : Nat := 0
  /-- BIAS_LOW or BIAS_HIGH has read 1 in the point cycle in progress (R59). -/
  faultSeen : Bool := false
  deriving DecidableEq, Repr

/-- The timing front end's state beside its registers. -/
structure Tdc where
  /-- Active remap tables, key 16 × channel + phase, identity where unlisted (R64). -/
  lut : Tab Nat := []
  /-- Active skew codes of 8 bits (R64). -/
  skew : Tab Nat := []
  /-- Active zone of each channel plus 1; 0 where unlisted: the reset map (R64, R69). -/
  zone : Tab Nat := []
  /-- The source of edges in force while a plan's write of TDC_TEST_CFG.SRC waits for a boundary (R329). -/
  srcHeld : Option Nat := none
  /-- Epoch offset in force (R62). -/
  epochOfs : Nat := 0
  /-- LOST counter of each channel (R66). -/
  lost : Tab Nat := []
  /-- Overflow counter of each channel (R65). -/
  ovf : Tab Nat := []
  /-- Early counter of each channel (R65). -/
  early : Tab Nat := []
  /-- Last converted edge of each channel: instant in ps plus 1, 0 none (R66). -/
  lastEdge : Tab Nat := []
  /-- The event queue of each furrow, oldest first, at most 16 words (R68). -/
  queues : Tab (List Word) := []
  /-- By furrow: the TDC cycle of the newest words of its queue, as the instant (ps) of its clock edge, and how many of them entered in
  it (R68); (0, 0) none. -/
  entered : Tab (Nat × Nat) := []
  /-- DLL trim of each column in force (R71). -/
  dllTrim : Tab Nat := []
  /-- TDC_QUEUE_OVF has been raised in the point cycle in progress (R68). -/
  ovfRaised : Bool := false
  /-- Slot sequence number, counted from the first slot after leaving STANDBY (R67). -/
  slotSeq : Nat := 0
  /-- The snoop buffer records (R73). -/
  snooping : Bool := false
  /-- Recorded entries of the snoop buffer, oldest first: word 0 and word 1 (R73). -/
  snoop : List (Word × Word) := []
  deriving DecidableEq, Repr

/-! ### Histogram fabric (chapter 03) -/

/-- A candidate (Table HF-1); the lane is the record's place. -/
structure Cand where
  centre : Nat
  fval : Nat
  width : Nat
  edge : Bool
  last : Bool
  deriving DecidableEq, Repr

/-- A harrow window (window word of Table HF-6): first code, enable, source and exposure. -/
structure Win where
  start : Nat := 0
  en : Bool := false
  src : Nat := 0
  exposure : Nat := 0
  deriving DecidableEq, Repr

/-- The lane header of one channel in a bank (Table HF-6). -/
structure Lane where
  litHarrow : Nat := 0
  litPlough : Nat := 0
  /-- CH_FLAGS of Table HF-2. -/
  flags : Nat := 0
  blankSum : Nat := 0
  fallowAmb : Nat := 0
  unlitAmb : Nat := 0
  harrowOut : Nat := 0
  kUsed : Nat := 0
  unlitSlots : Nat := 0
  early : Nat := 0
  ovf : Nat := 0
  prefire : Nat := 0
  cands : List Cand := []
  win0 : Win := {}
  win1 : Win := {}
  win2 : Win := {}
  deriving DecidableEq, Repr

/-- A harrow bank of all furrows: the common header of Table HF-5, lane headers by channel, bins by
(channel × 3 + window) × 64 + bin, and the conditions of its words by the same key (R93, R95). Which bins share one protected SRAM
word is not stated: each bin is a word of its own (DESIGN CHOICE, log entry 180). -/
structure Bank where
  pcIndex : Nat := 0
  dmax : Nat := 0
  h : Nat := 0
  p : Nat := 0
  fallowTs : Nat := 0
  tilt : Nat := 0
  azimuth : Nat := 0
  cal : Bool := false
  /-- The recipe of its point cycle is the calibration recipe with FIRE = 1 (R332). -/
  fire : Bool := false
  /-- The run of its point cycle, as `His.run`. -/
  run : Nat := 0
  lanes : Tab Lane := []
  bins : Tab Nat := []
  cond : Tab Cond := []
  /-- Conditions of the header words: word i of the lane header of channel c by 16 c + i, word i of furrow f's header by
  18432 + 16 f + i (R95). -/
  hcond : Tab Cond := []
  deriving DecidableEq, Repr

/-- The kinds of shot slot (chapter 03, "Slot assignment"). -/
inductive SlotKind where
  | plough | fallow | harrow
  deriving DecidableEq, Repr

/-- The fired rectangle of a slot: the product of a row mask and a column mask (R195); both 0 where the slot is silent. -/
structure Rect where
  rows : Nat := 0
  cols : Nat := 0
  deriving DecidableEq, Repr

/-- What the sequencer tells the fabric of one slot: sequence number, kind, position, fired rectangle, dither, and when it opens
and closes (ps). -/
structure Slot where
  seq : Nat := 0
  kind : SlotKind := .plough
  index : Nat := 0
  rect : Rect := {}
  d : Nat := 0
  openAt : Nat := 0
  closeAt : Nat := 0
  bank : Nat := 0
  /-- Window epoch, in ps (R62). -/
  epochAt : Nat := 0
  /-- Columns whose invalid markers have gone out in this slot, bit c (R70). -/
  marked : Nat := 0
  deriving DecidableEq, Repr

/-- The live page of one lane (Table HF-4). -/
structure LiveLane where
  cands : List Cand := []
  win0 : Win := {}
  win1 : Win := {}
  win2 : Win := {}
  fallowPrev : Nat := 0
  deriving DecidableEq, Repr

/-- The fabric's state beside its registers. -/
structure His where
  /-- The settings set in force, sampled at a boundary: the words of HIS_RECIPE, HIS_RECIPE_CAL, HIS_KERNEL_W, HIS_KERNEL_CFG,
  HIS_THR_CFG, HIS_FIND_CFG, HIS_FIXWIN[0..2] (R97). -/
  recipe : Word := 0x00000408
  recipeCal : Word := 0x00000108
  kernelW : Word := 0x00000484
  kernelCfg : Word := 0x00003003
  thrCfg : Word := 0x00200028
  findCfg : Word := 0x00000402
  fixwin0 : Word := 0
  fixwin1 : Word := 0
  fixwin2 : Word := 0
  /-- Point cycles are due: a running mode was entered and the first boundary has not come (R99). -/
  due : Bool := false
  /-- An EPOCH has been applied since they became due (R286). -/
  epoch : Bool := false
  /-- The slot in progress and the slot before it (R79). -/
  cur : Option Slot := none
  prev : Option Slot := none
  /-- The two slots before those, the later first (R79). -/
  older : List Slot := []
  /-- The run of point cycles in progress, counted modulo 2 (R167). -/
  run : Nat := 0
  /-- The bank of the point cycle in progress, 0 or 1 (R93). -/
  active : Nat := 0
  /-- Harrow bank A. -/
  bank0 : Bank := {}
  /-- Harrow bank B. -/
  bank1 : Bank := {}
  /-- Plough bins, key channel × 2048 + bin, 12 bits (R81, R82). -/
  plough : Tab Nat := []
  /-- Conditions of the plough words, key as the bins (R82, R95). -/
  ploughCond : Tab Cond := []
  /-- Counts that came into a plough bin in the fabric cycle in which the finder reads it, or later, key as the bins (R85). -/
  unseen : Tab Nat := []
  /-- Conditions of the words of the live pages, key 112 × furrow + word (R95). -/
  liveCond : Tab Cond := []
  /-- FALLOW_AMB of the previous point cycle, by channel (R86). -/
  fallowPrev : Tab Nat := []
  /-- Live page of each lane, by channel (Table HF-4). -/
  live : Tab LiveLane := []
  /-- Lanes published so far in the point cycle, by furrow (Table HF-4). -/
  lanesDone : Tab Nat := []
  /-- Windows a tiller write was accepted for in the point cycle in progress, channel × 3 + window (R90). -/
  overridden : List Nat := []
  /-- The fallow slot of the point cycle in progress has opened. -/
  fallowOpen : Bool := false
  /-- DEADLINE_PASSED of the point cycle in progress (Table HF-4). -/
  deadlinePassed : Bool := false
  /-- Harrow deadline of the point cycle in progress, in ps (R20). -/
  deadlineAt : Nat := 0
  /-- Start and length of the point cycle in progress, in ps (R19). -/
  pcStart : Nat := 0
  pcLen : Nat := 0
  /-- HIS_LATE has been raised in the point cycle in progress (R90). -/
  lateRaised : Bool := false
  /-- Channels for which HIS_INTEGRITY has been raised in the point cycle in progress (R95). -/
  integrity : List Nat := []
  /-- A swapped bank waits for its freeze: bank number, FINAL (R93, R115). -/
  freezing : Option (Nat × Bool) := none
  /-- No further point cycle starts after the one in progress: orderly stop or end of a calibration run (R99). -/
  last : Bool := false
  /-- HIS_ECC_CE has been raised since HIS_ECC_CE_CNT was last read (R95). -/
  ceRaised : Bool := false
  deriving DecidableEq, Repr

/-! ### Tillers (chapters 04 and 05) -/

/-- STATE of a tiller (Table TA-10); RESET is read while the mode is RESET or RECOVERY (R129). -/
inductive TilState where
  | halted | running | stalled | init
  deriving DecidableEq, Repr

/-- What a stalled tiller waits for: room for an FSEND word, a message for FRECV.W rd, or the output queue for an EMIT of a
block of `len` bytes at `addr` with its result to rd (R117, R120, R121). -/
inductive Stall where
  | fsend (w : Word)
  | frecv (rd : Nat)
  | emit (rd addr len : Nat)
  deriving DecidableEq, Repr

/-- What the reference echo program keeps for one lane (Table EP-10 and chapter 06). -/
structure RefLane where
  kNow : Nat := 0
  kLatch : Bool := false
  soiled : Bool := false
  soilLatch : Bool := false
  aPrev : Nat := 0
  winSkip : Nat := 0
  soilAvg : Nat := 0
  count : Nat := 0
  kChg : Nat := 0
  upRun : Nat := 0
  dnRun : Nat := 0
  soilRun : Nat := 0
  /-- Instants of depth changes within the last 60 s (R179). -/
  kHist : List Nat := []
  /-- Instants of soiling entries within the last 60 s (R194). -/
  soilHist : List Nat := []
  /-- A depth write decided and not yet sent: k, 0 none (R178). -/
  held : Nat := 0
  deriving DecidableEq, Repr

/-- One tiller: the architectural state of Table KI-1, its memories, its queues and its handler states. -/
structure Tiller where
  /-- Instruction memory, 32 KiB (Table TA-1); zero where unlisted (R114). -/
  imem : Tab Byte := []
  /-- Data memory, 64 KiB, by offset from 0x1_0000. -/
  dmem : Tab Byte := []
  /-- Conditions of IMEM words by word index (R109). -/
  imemCond : Tab Cond := []
  /-- Conditions of DMEM words by word index (R109). -/
  dmemCond : Tab Cond := []
  /-- Scalar registers s1 to s31 (Table KI-1); s0 is never listed (R136). -/
  sreg : Tab Word := []
  /-- Vector registers v0 to v31 (Table KI-1). -/
  vreg : Tab (BitVec 128) := []
  /-- Registers that hold a work-bank word which a load met as uncorrectable or poisoned and returned as 0: scalar registers, and
  of vector registers a mask of 32-bit lanes. A store of such a word to DMEM writes its check poisoned (R38, R39; log entry 185). -/
  badS : Tab Bool := []
  badV : Tab Nat := []
  /-- FLAGS, laid out as Table KI-2. -/
  flags : Nat := 0
  /-- PC (Table KI-1). -/
  pc : Nat := 0
  inTrap : Bool := false
  inAttn : Bool := false
  /-- FLAGS saved by an attention (R119). -/
  savedFlags : Nat := 0
  attnPc : Nat := 0
  epc : Nat := 0
  trapCause : Nat := 0
  trapAddr : Nat := 0
  /-- ATTN_SRC (Table TA-2). -/
  attnSrc : Nat := 0
  /-- CYCLE_HI as latched by the last read of CYCLE_LO. -/
  cycleHi : Nat := 0
  poisonSeen : Bool := false
  state : TilState := .halted
  haltCause : Nat := 0
  /-- A HALT waits for the next instruction boundary (R126). -/
  haltReq : Bool := false
  /-- The tiller runs one instruction for STEP (R126). -/
  stepping : Bool := false
  /-- The next instruction is the first that a RUN or STEP executes: it is not checked against the breakpoint (R127). -/
  fresh : Bool := false
  /-- What the tiller is stalled on, while STATE is STALLED. -/
  stall : Option Stall := none
  /-- The stalled EMIT has been admitted and its transfer runs (R121, R123). -/
  transferring : Bool := false
  /-- Candidate queue, oldest message first (R116). -/
  candQ : List (BitVec 64) := []
  /-- Fabric write queue, oldest word first, at most 32 (R117). -/
  fwq : List Word := []
  /-- Point-cycle index and run of the candidate messages in the queue: R116 leaves those of one point cycle only. -/
  candPc : Nat := 0
  candRun : Nat := 0
  /-- The owned work bank: bank number and point-cycle index (R115). -/
  own : Option (Nat × Nat) := none
  /-- The owned bank's block has left (Table TA-2). -/
  emitted : Bool := false
  /-- Instant by which the owned bank's block is due, ps (R118). -/
  blockDue : Nat := 0
  /-- Attention sources pending (R119). -/
  pendMsg : Bool := false
  pendDl : Bool := false
  /-- The deadline alarm has fired in the point cycle in progress (R119). -/
  dlFired : Bool := false
  /-- Patrol scrubber's next word: 0 to 8191 IMEM, 8192 to 24575 DMEM (R110). -/
  scrub : Nat := 0
  /-- Instructions left until the next precise sample, and the sampler's LFSR (R447). -/
  sampleLeft : Nat := 0
  /-- IN_ATTN and IN_TRAP of the instruction that retired last, before it took effect (R447, Table EV-6). -/
  retAttn : Bool := false
  retTrap : Bool := false
  sampleLfsr : Nat := 0
  /-- The reference echo program is in this tiller's IMEM (R172). -/
  refRuns : Bool := false
  /-- The reference program starts afresh when it next runs: loaded, or TIL_PC written with 0 (R172). -/
  refFresh : Bool := false
  /-- The parameter page in force of the reference program (R174). -/
  refPage : List Word := []
  /-- The page in force, 0 A or 1 B, and whether the last selected page was rejected, as the program keeps them (R174, R176). -/
  refActive : Nat := 0
  refRej : Bool := false
  /-- Length of the block of an EMIT that a halt abandoned and the program executes again when it resumes (R172). -/
  refRedo : Option Nat := none
  /-- Lane states of the reference program, by lane. -/
  refLanes : Tab RefLane := []
  /-- Plough counts the reference program read for its candidates (R186): key 36 × PC_INDEX + 18 × run + 3 × lane + index, the sum
  plus 1. -/
  refSn : Tab Nat := []
  /-- Lanes of which a load of plough bins met an uncorrectable or poisoned word (R165): key 12 × PC_INDEX + 6 × run + lane. -/
  refBad : Tab Bool := []
  deriving DecidableEq, Repr

/-- A block in the output queue: furrow, bytes with the CRC-32C, and whether its check is poisoned (R122, R124). -/
structure Block where
  furrow : Nat
  bytes : List Byte
  poisoned : Bool
  deriving DecidableEq, Repr

/-- The shared output queue (R121 to R123). -/
structure OutQ where
  /-- Released blocks, oldest first. -/
  blocks : List Block := []
  /-- The tiller last served by admission (R123). -/
  lastServed : Nat := 191
  /-- The tiller whose block is being transferred. -/
  transfer : Option Nat := none
  deriving DecidableEq, Repr

/-! ### System control (chapter 01) -/

/-- A mailbox command in progress: its TAG, GROUP, CODE and argument (Table AR-12). -/
structure MboxCmd where
  tag : Nat
  group : Nat
  code : Nat
  arg : Nat
  deriving DecidableEq, Repr

/-- The instruction in the JTAG port (R459). -/
inductive Jtag where
  | bypass | idcode | samplePreload | extest | extestPulse | extestTrain | clamp | highz
  deriving DecidableEq, Repr

/-- The mode machine and the mailbox beside their registers. -/
structure Sys where
  /-- The command that is BUSY (R36). -/
  cmd : Option MboxCmd := none
  /-- TAG of a MODE_SCAN answered PENDING during an orderly stop (R37). -/
  pendScan : Option Nat := none
  /-- TAG of a MODE_SCAN carried out after its stop, whose second response is due (R37). -/
  scanTag : Option Nat := none
  /-- The host derate source (Table AR-13, DERATE_ENTER). -/
  hostDerate : Bool := false
  /-- CAUSE of the orderly stop in progress, while SYS_MODE.STOPPING reads 1 (R32, R35). -/
  stopCause : Nat := 0
  /-- The stop puts DRAM in self-refresh when it reaches STANDBY (MODE_STANDBY ARG[0], Table AR-13). -/
  stopSR : Bool := false
  /-- The mode CALIBRATE was entered from and returns to (Table AR-8). -/
  calFrom : Nat := 2
  /-- A relock after an accepted REF_SEL change runs (R26). -/
  relock : Bool := false
  /-- The relock put DRAM into self-refresh, which it leaves afterwards (R26). -/
  relockSR : Bool := false
  /-- The DRAM PLL's domain is stopped: set with the main PLL's (R26, Table AR-3). -/
  dramStopped : Bool := false
  /-- Instant at which RESET last ended, ps (CYCLE_LO counts from it, Table TA-2). -/
  resetEnd : Nat := 0
  /-- The next RESET_END is a warm start: a RESET_WARM or another warm RESET led to it (R411). -/
  warm : Bool := false
  /-- The RECOV_N strap was low when RESET ended with the latch set: its request is kept (R30). -/
  recovKept : Bool := false
  /-- PF_N is low (R43). -/
  pfLow : Bool := false
  /-- RESET_N, or the core reset that acts as it, holds RESET (R30, R457). -/
  pinLow : Bool := true
  /-- TEST_EN is high (R459). -/
  testEn : Bool := false
  /-- JTAG instruction loaded, and what its data register last captured (R459). -/
  jtag : Jtag := .bypass
  tdo : Nat := 0
  /-- How often SAMPLE/PRELOAD has loaded the boundary cells (R459; Config.boundaryCell). -/
  cells : Nat := 0
  /-- Data of the last register, memory or configuration read: what the reading master received. -/
  rdata : Nat := 0
  /-- The data of the last memory read came poisoned (R376). -/
  rbad : Bool := false
  deriving DecidableEq, Repr

/-! ### Emitter sequencer (chapter 07) -/

/-- A slot the sequencer has prepared: its place in the point cycle, effective masks, dither, effective power code and pulse
count (R212). -/
structure Prep where
  kind : SlotKind := .plough
  index : Nat := 0
  rect : Rect := {}
  d : Nat := 0
  power : Nat := 0
  pulses : Nat := 0
  /-- Spacings between its pulses, in 1.25 ns (R205). -/
  gaps : List Nat := []
  /-- Number of its power-code queue entry (R212). -/
  id : Nat := 0
  deriving DecidableEq, Repr

/-- The shot of the slot in progress (or of the prepared slot, whose charge check may come first). -/
structure Shot where
  /-- Pulses the slot fires; 0 for a slot that does not fire. -/
  pulses : Nat := 0
  /-- The pulses of the open slot: the instants, in ps, at which each rises and ends (R204, R205). -/
  train : List (Nat × Nat) := []
  /-- Number of the slot's power-code queue entry (R212). -/
  id : Nat := 0
  /-- EM_FIRE edges so far. -/
  fired : Nat := 0
  /-- Suppressed by the charge check (R208). -/
  suppressed : Bool := false
  /-- The first pulse was confirmed by the monitor (R210). -/
  confirmed : Bool := false
  deriving DecidableEq, Repr

/-- The emitter's state beside its registers. -/
structure Emi where
  /-- The signature LFSR (R198). -/
  lfsr : Nat := 0xACE1
  /-- SEED was written while point cycles run: it is reloaded at the next boundary (R198). -/
  seedReload : Bool := false
  /-- Pointer and repeat count of the seed map (R202). -/
  ptr : Nat := 0
  rep : Nat := 0
  /-- A sweep sync has requested a buffer swap (R22, R203). -/
  swapReq : Bool := false
  /-- EMI_SLOT_CFG, EMI_FIRE_CFG, EMI_PWR_CFG and EMI_PCODE[i] in force (R221). -/
  slotCfg : Word := 0x00FF001F
  fireCfg : Word := 0x00000100
  pwrCfg : Word := 0x001818FF
  pcode : Tab Word := []
  /-- The prepared slot, until it opens. -/
  prep : Option Prep := none
  /-- The shot in hand. -/
  shot : Shot := {}
  /-- Open monitor windows: opening instant (ps), whether it is a first pulse's, whether confirmed (R210). -/
  windows : List (Nat × Bool × Bool) := []
  /-- Run of consecutive missed shots (R210). -/
  missRun : Nat := 0
  /-- Instants of rogue edges within the last 50 us (R211). -/
  rogue : List Nat := []
  /-- EMI_PWR_CLAMP, EMI_CHARGE_HIGH, EMI_CHARGE_LOW raised in the point cycle in progress. -/
  clampRaised : Bool := false
  highRaised : Bool := false
  lowRaised : Bool := false
  /-- Next step of the line test: 0 baseline, 1 to 18 rows, 19 to 34 columns (R214). -/
  testStep : Nat := 0
  /-- A commanded pass runs (R214). -/
  testCmd : Bool := false
  /-- SHORT lines removed from the masks, taken at the boundary (R215). -/
  shortRows : Nat := 0
  shortCols : Nat := 0
  /-- Instants of laser-board stage entries within the last 60 s (R216). -/
  lbHist : List Nat := []
  /-- Instants since when N has stood on the hot side of WARM and of HOT, and on the cool side of each by more than HYST; and the
  instant of the last valid sample (R216). -/
  lbHotWarm : Option Nat := none
  lbHotHot : Option Nat := none
  lbCoolWarm : Option Nat := none
  lbCoolHot : Option Nat := none
  lbAt : Nat := 0
  /-- The lines as driven: row and column masks (R195). -/
  rowsOut : Nat := 0
  colsOut : Nat := 0
  deriving DecidableEq, Repr

/-! ### Memory controller (chapter 13) -/

/-- A request that waits in a port queue (R361): a write of `data`, or a read of `len` bytes; `poison` marks data that arrived
with the EP bit; `urgent` is R362's state. -/
structure Req where
  write : Bool
  addr : Nat
  len : Nat
  data : List Byte
  poison : Bool
  urgent : Bool
  deriving DecidableEq, Repr

/-- The memory controller's state beside its registers. -/
structure Mem where
  /-- Local DRAM, byte by byte; an unlisted byte reads 0 (DESIGN CHOICE, log entry 10). -/
  dram : Tab Byte := []
  /-- Conditions of 64-bit words under inline ECC, by address div 8 (R375). -/
  cond : Tab Cond := []
  /-- Byte ranges [lo, hi) whose data is undefined after self-refresh, with the free value that stands for it (R372). -/
  lost : List (Nat × Nat × Nat) := []
  /-- Port queues, oldest request first (R361). -/
  queues : Tab (List Req) := []
  /-- Blocks released by the output queue so far, modulo 2^32: SEQ of the next record (Table MC-5). -/
  seq : Nat := 0
  /-- Instants of panic entries of each port within the last 60 s (R363). -/
  panicHist : Tab (List Nat) := []
  /-- Consecutive postponements of each bank's (or channel's) refresh, key 16 × channel + bank (R369). -/
  postponed : Tab Nat := []
  /-- Refresh rate in force on each channel, as the device's report codes it (R370). -/
  rate : Tab Nat := []
  /-- Consecutive polls above nominal, at nominal, and reporting a rate slower than the one in force, by channel (R370). -/
  aboveRun : Tab Nat := []
  nominalRun : Tab Nat := []
  slowerRun : Tab Nat := []
  /-- Instants of TEMP_HI entries within the last 60 s (R370). -/
  tempHist : List Nat := []
  /-- Consecutive windows at or above HOT_SHARE, and below HOT_SHARE − 16, by channel (R384). -/
  hotRun : Tab Nat := []
  coolRun : Tab Nat := []
  /-- Instants of HOTSPOT entries within the last 60 s, by channel (R384). -/
  hotHist : Tab (List Nat) := []
  /-- The channels whose HOTSPOT bit the flapping latch holds. -/
  hotHeld : Nat := 0
  /-- Activates of each bank in the present window, key 16 × channel + bank, and the windows completed and not yet judged, by channel:
  1024 × largest bank + share (R384). -/
  acts : Tab Nat := []
  windows : Tab (List Nat) := []
  /-- The scrubber's read waits (R378). -/
  scrubWaits : Bool := false
  /-- Records of each engine's port that self-refresh entry still drains, by port (R371). -/
  drain : Tab Nat := []
  /-- The delay that the last sweep set on a channel: channel, direction, taps (R380). -/
  swept : Option (Nat × Nat × Nat) := none
  /-- MEM_ECC_CE has been raised since MEM_ECC_CE_CNT was last read (R375). -/
  ceRaised : Bool := false
  /-- Next unit of the patrol scrubber, as an address (R378). -/
  scrub : Nat := 0
  /-- Channels retained in self-refresh through a warm RESET (R373). -/
  retained : Bool := false
  /-- The rate slower than the one in force that a channel's last poll reported (R370). -/
  slowRate : Tab Nat := []
  /-- The row open in each bank, plus 1; key 32 × channel + 16 × rank + bank, 0 for a closed bank (R361). -/
  openRow : Tab Nat := []
  /-- Bursts served in the present round of the weighted round robin; key 8 × channel + port (R361). -/
  turns : Tab Nat := []
  /-- How many of the oldest requests that an engine's port holds are urgent, by port (R362). -/
  late : Tab Nat := []
  /-- What the link checks of the reads to come find, oldest first: 1 corrected, 2 good at the reissue, 3 failed again; where nothing
  is listed a read is good (R374; log entry 197). -/
  linkNext : List Nat := []
  /-- SR was written to 1 while self-refresh could not be entered: it is entered as soon as it can be (R371). -/
  srDue : Bool := false
  /-- INIT was written while the controller was not ACTIVE: it starts as soon as it is (R371, R375). -/
  initDue : Bool := false
  deriving DecidableEq, Repr

/-! ### Host link and board interfaces (chapter 14) -/

/-- A PCIe memory write that left for host memory: address, data, EP bit (R358, R393). -/
structure Tlp where
  addr : Nat
  data : List Byte
  ep : Bool
  deriving DecidableEq, Repr

/-- A point packet: the port, its entries as (SEQ, block with CRC), and whether its FCS is inverted (R396, R397). -/
structure Pkt where
  entries : List (Nat × List Byte) := []
  bad : Bool := false
  deriving DecidableEq, Repr

/-- A timestamp of the shared queue (R400). -/
structure Stamp where
  ns : Nat
  tx : Bool
  port : Nat
  seqId : Nat
  deriving DecidableEq, Repr

/-- A transfer of the I2C master (R407), with the bytes it sends. -/
structure I2c where
  tag : Nat
  addr : Nat
  w : Nat
  r : Nat
  out : List Byte
  deriving DecidableEq, Repr

/-- What the I2C master puts on the bus or takes from it (R407): the 9 clocks that free SDA, a START or repeated START, an address with its
direction, a byte each way, the last of a read being answered by a NACK, a STOP. -/
inductive I2cSym where
  | clear | start | addr (a : Nat) (read : Bool) | sent (b : Byte) | got (b : Byte) (nack : Bool) | stop
  deriving DecidableEq, Repr

/-- A mailbox datagram whose command runs: the port, the sender's addresses and UDP port, and the bytes of buffer data that the command
returns (R405). -/
structure UdpWait where
  port : Nat
  peer : List Byte
  len : Nat
  deriving DecidableEq, Repr

/-- The answer to a mailbox datagram: where it goes, RESP, DATA and buffer data (R405). -/
structure UdpAnswer where
  port : Nat
  peer : List Byte
  resp : Word
  data : Word
  buf : List Byte
  deriving DecidableEq, Repr

/-- The host link's state beside its registers. -/
structure Lnk where
  /-- PCIe configuration space: memory space enable, MSI-X enable and function mask, BAR0 and BAR2 as assigned (R389, R390). -/
  memEn : Bool := false
  msixEn : Bool := false
  msixMask : Bool := false
  /-- Max payload and max read request codes, ASPM control, and the function stands in D3hot (Table LK-2; log entry 231). -/
  maxPayload : Nat := 0
  maxRead : Nat := 2
  aspm : Nat := 0
  d3 : Bool := false
  bar0 : Nat := 0
  bar2 : Nat := 0
  /-- MSI-X messages sent to the host, oldest first (R437). -/
  msgs : List Nat := []
  /-- Memory writes that left over PCIe, oldest first. -/
  tlps : List Tlp := []
  /-- Window reads that wait for their completion: port, address in the window, host address, length (R376). -/
  reads : List (Nat × Nat × Nat × Nat) := []
  /-- The packet under construction of each port (R396). -/
  pkt0 : Pkt := {}
  pkt1 : Pkt := {}
  /-- Frames queued to leave each port, oldest first: the frame's bytes and the SEQs it carries. -/
  out0 : List (List Byte × List Nat) := []
  out1 : List (List Byte × List Nat) := []
  /-- IPv4 identification of the next datagram of each port. -/
  ident0 : Nat := 0
  ident1 : Nat := 0
  /-- Records read and not yet passed by MEM_PB_RPTR: SEQ, offset after the record, finished (R395). -/
  taken : List (Nat × Nat × Bool) := []
  /-- The 802.1AS clock at `ptpAt`, in units of 2^-40 fs (R398). -/
  ptp : Nat := 0
  /-- Instant of the main reference, in ps, to which `ptp` refers. -/
  ptpAt : Nat := 0
  /-- Part of a step still to be absorbed by slewing, in the same units (R398). -/
  slew : Int := 0
  /-- Timestamp queue, at most 16 (R400). -/
  stamps : List Stamp := []
  /-- Instants of LOS and LOL entries within the last 60 s, key 2 × lane + monitor (R401). -/
  laneHist : Tab (List Nat) := []
  /-- Monitor bits held by the lane latch, key 2 × lane + monitor: 1 held. -/
  laneHeld : Tab Nat := []
  /-- Halves in their shutdown: bit 2e transmit, bit 2e + 1 receive of port e (R403). -/
  closing : Nat := 0
  /-- The last SPI frame was discarded (Table LK-5). -/
  spiBad : Bool := false
  /-- Completions to the host of its BAR reads, oldest first: data and EP bit (R391, R392). -/
  comps : List (List Byte × Bool) := []
  /-- Byte stream the SPI slave returned for the last frame (Table LK-5). -/
  spiOut : List Byte := []
  /-- Frames passed to the management firmware: port, EtherType or UDP payload. -/
  toFw : List (Nat × List Byte) := []
  /-- Answer of the last mailbox datagram, or none (R405). -/
  udpAnswer : Option UdpAnswer := none
  /-- A mailbox datagram's command runs: its response answers the sender (R405). -/
  udpWait : Option UdpWait := none
  /-- Sender of the last mailbox datagram that each port received: MAC address, IPv4 address, UDP port; empty before the first. -/
  peer0 : List Byte := []
  peer1 : List Byte := []
  /-- The I2C transfer in progress, and what passed on the bus in the last one (R407). -/
  i2c : Option I2c := none
  i2cBus : List I2cSym := []
  deriving DecidableEq, Repr

/-! ### Helm (chapter 08) -/

/-- Histories of a control law: e[n − 1] to e[n − 3] and y[n − 1] to y[n − 3] (R230). -/
structure LawHist where
  e : List Int := [0, 0, 0]
  y : List Int := [0, 0, 0]
  deriving DecidableEq, Repr

/-- The helm beside its registers. -/
structure Hlm where
  /-- Levels of HLM_ENC_A and HLM_ENC_B as last decoded (R224). -/
  encA : Bool := false
  encB : Bool := false
  /-- Instants (ps) plus 1 of the last two counted edges, 0 none, and the direction of the last (R225). -/
  lastEdge : Nat := 0
  prevEdge : Nat := 0
  forward : Bool := true
  /-- Net counted transitions, forward positive, never reset to 0 by the index (Table HG-3). -/
  travel : Int := 0
  /-- Transitions decoded so far, and which of the latest 4 × CPR were illegal (R224). -/
  trans : Nat := 0
  illegal : List Nat := []
  /-- Consecutive index errors (R224). -/
  indexErrs : Nat := 0
  /-- Index of the next tick (R223). -/
  tick : Nat := 0
  /-- θ at the last spindle sample (R225). -/
  theta : Nat := 0
  /-- ω_ref and the pull in force (R237, R238). -/
  wRef : Int := 0
  pull : Int := 0
  /-- θref, and that an epoch marker has come since the last spindle sample (Phase reference and lock). -/
  thetaRef : Nat := 0
  epoch : Bool := false
  /-- HLM_SWEEP_CFG.SRC in force (R227). -/
  src : Nat := 1
  /-- Consecutive passing samples; no attempt made, and a refusal raised, in this stay in LOCKING (R238). -/
  dwell : Nat := 0
  first : Bool := true
  refused : Bool := false
  /-- Consecutive samples beyond the unlock bound, and instants of unlocks within the last 60 s (R240). -/
  unlockRun : Nat := 0
  unlockHist : List Nat := []
  /-- The active law pages, keyed as the shadow registers (R231). -/
  act : Tab Word := []
  /-- Histories of the four laws (R230). -/
  hist : Tab LawHist := []
  /-- The spindle law in force: 0 or 1; none while the outputs are released. -/
  law : Option Nat := none
  /-- The law output applied in the last spindle sample (R239). -/
  ySp : Int := 0
  /-- The next spindle sample is a switching sample; samples left under the hand-over slew (R239). -/
  skip : Bool := false
  ho : Nat := 0
  /-- The spindle sample waits for its lock attempt or unlock; the tilt sample waits for its latch (Table HL-1). -/
  waitSp : Bool := false
  waitTl : Bool := false
  /-- The instant (ps) at which the tick latches its tilt sample, from an urgent request where `tiltUrg` (Table HL-1). -/
  tiltDue : Option Nat := none
  tiltUrg : Bool := false
  /-- An urgent result that came after its tick's latch: code and over-range, used at the next tick (R223). -/
  tiltLate : Option (Nat × Bool) := none
  /-- Instant (ps) of the last tick. -/
  tickAt : Nat := 0
  /-- The catch drives a backward spindle to standstill (R236). -/
  catchBrake : Bool := false
  /-- Final drives and feedforward terms (R232). -/
  uSp : Int := 0
  uTl : Int := 0
  cog : Int := 0
  fric : Int := 0
  /-- Outputs of the laws at their last samples. -/
  y0 : Int := 0
  y1 : Int := 0
  y2 : Int := 0
  y3 : Int := 0
  /-- HLM_HALL as latched, consecutive judged invalid samples, HLM_FAULT_N low (R234, R242). -/
  hall : Nat := 0
  hallBad : Nat := 0
  faultLow : Bool := false
  /-- Latest sample of the tilt input: code, over-range, instant (ps) (R243). -/
  tiltCode : Nat := 0
  tiltOver : Bool := false
  tiltAt : Option Nat := none
  /-- Consecutive invalid tilt samples, consecutive ticks beyond TRACK_TOL, step k of the tilt table (R243). -/
  tiltBad : Nat := 0
  trackRun : Nat := 0
  step : Nat := 0
  /-- PWM compare shadows and compares in force of HLM_PWM[0] to [7]; an enable holds 0 or 1 (R233, R234). -/
  shadow : List Nat := [0, 0, 0, 0, 0, 0, 0, 0]
  pins : List Nat := [0, 0, 0, 0, 0, 0, 0, 0]
  /-- Sweep syncs produced or forwarded that have not reached their users (R227). -/
  syncs : Nat := 0
  /-- Trace: ticks until the next sample, samples recorded, samples left after the trigger, node 0's last sample, and the states and
  faults at the last tick (R245). -/
  trDec : Nat := 0
  trN : Nat := 0
  trLeft : Option Nat := none
  trPrev : Int := 0
  trLast : Nat := 0
  deriving DecidableEq, Repr

/-! ### Hedge (chapter 09) -/

/-- A booking of shot energy (R258): its number, the age in buckets (0 the current one, at most 100), the rectangle and the energy
booked to each of its zones. -/
structure Book where
  id : Nat
  age : Nat := 0
  rows : Nat
  cols : Nat
  energy : Nat
  deriving DecidableEq, Repr

/-- An entry of the power-code queue (R212): rectangle, effective power code and pulse count, or the correction of entry `id`. -/
inductive PowerEntry where
  | shot (id rows cols power pulses : Nat)
  | correction (id : Nat)
  deriving DecidableEq, Repr

/-- What HDG_OK shows (R271): a square wave at 1 kHz or at 250 Hz, or a static low. -/
inductive HdgOk where
  | khz1 | hz250 | low
  deriving DecidableEq, Repr

/-- The hedge beside its registers. -/
structure Hdg where
  /-- What HDG_OK shows (R271); low until the hedge's power-on is over. -/
  okPin : HdgOk := .low
  /-- Levels of HDG_ENC_A and HDG_ENC_B as last decoded (R255). -/
  encA : Bool := false
  encB : Bool := false
  /-- Count of the frame in progress, positive in the permitted direction, and its illegal transitions (R255, Table HG-3). -/
  frame : Int := 0
  illegal : Nat := 0
  /-- Direction counter (R256). -/
  dirCount : Nat := 0
  /-- Consecutive frames in which every release condition held, 0 to 50 (R252). -/
  good : Nat := 0
  /-- A tilt code outside the window, or a reverse count or a diagnostic, has come in the frame in progress (R252). -/
  spoiled : Bool := false
  /-- Consecutive frames outside the speed window, conversions outside the position limits, codes inside the field of view while
  BLANKED (R254, R257). -/
  speedOut : Nat := 0
  posOut : Nat := 0
  fovIn : Nat := 0
  /-- Consecutive frames that failed the encoder and the oscillator cross-checks; deviation above 3 % (R261). -/
  encBad : Nat := 0
  rcBad : Nat := 0
  rcDrift : Bool := false
  /-- The helm's net count at the last frame end (Table HG-3). -/
  helmLast : Int := 0
  /-- Frames for which the oscillator cross-check is still suspended after a relock (R26). -/
  suspended : Nat := 0
  /-- Bookings within the window, oldest first, and the number of the next entry (R258, R259). -/
  books : List Book := []
  nextId : Nat := 0
  /-- The power-code queue, oldest entry first, at most 8 (Table AR-4). -/
  queue : List PowerEntry := []
  /-- The latest entry's number, its pulse allowance, and the edges counted against it (R260). -/
  lastId : Nat := 0
  allowance : Nat := 0
  edges : Nat := 0
  /-- Frames left of each cause detected at an instant, by cause bit (R261). -/
  timed : Tab Nat := []
  /-- LI_N drive and pad readback disagree (R251). -/
  liBad : Bool := false
  /-- A strap floats or differs from its power-on value (R265). -/
  strapBad : Bool := false
  /-- Consecutive frames without a diagnostic cause, and at standstill, 0 to 100 (R269). -/
  quiet : Nat := 0
  /-- A diagnostic cause has been present since the last frame end. -/
  unquiet : Bool := false
  still : Nat := 0
  /-- Magnitude of the frame count in the trip frame, and that it has since fallen below 90 % of it (R263). -/
  tripMag : Option Nat := none
  fell : Bool := false
  /-- Contents of the selected speed, tilt and common rows in the hedge's own shadow; none where a fuse row is not valid (R266,
  R339). -/
  speedRow : Option Nat := none
  tiltRow : Option Nat := none
  commonRow : Option Nat := none
  /-- The selected rows failed their check; cleared by a hedge power-on only (R266). -/
  limitBad : Bool := true
  /-- Registered level of SAFE_RST_N, and instant (ps) of the registered edge that began the press or release (R270). -/
  button : Bool := true
  edgeAt : Nat := 0
  deriving DecidableEq, Repr

/-! ### Meridian bus, capture engine, sextant (chapter 10) -/

/-- Frames of the meridian bus (Table MS-1). -/
inductive MerKind where
  | sweep | epoch | ping | pong | delay | trig
  deriving DecidableEq, Repr

/-- A frame that has fallen due at the master and waits for the line: its kind, target unit, payload, and the instant it fell
due (ps). -/
structure MerDue where
  kind : MerKind
  unit : Nat
  payload : Nat
  deriving DecidableEq, Repr

/-- The meridian bus beside its registers. -/
structure Mer where
  /-- Frames that wait for the line, in the order they fell due (R277). -/
  due : List MerDue := []
  /-- Sweep, epoch and trigger counts of 40 bits (Table MS-1). -/
  sweeps : Nat := 0
  epochs : Nat := 0
  trigs : Nat := 0
  /-- Sum of RT and number of valid PONGs of each unit since its last DELAY (R279). -/
  sumRT : Tab Int := []
  pongs : Tab Nat := []
  /-- Seed of the first valid PONG of each unit, plus 1 (R282). -/
  seeds : Tab Nat := []
  /-- Run of bad PONGs of each unit (R282). -/
  badRun : Tab Nat := []
  /-- Units in conflict, bit n (R282). -/
  conflicts : Nat := 0
  /-- The unit last pinged (R279). -/
  lastPing : Nat := 0
  /-- The outstanding PING: unit and launch instant in codes (R277, R279). -/
  ping : Option (Nat × Nat) := none
  /-- A slave's PING to answer: B in codes (R279). -/
  pingAt : Option Nat := none
  /-- Frames that wait for their application instant (R278). -/
  apply : List (MerKind × Nat) := []
  /-- Sum and number of phases in the average in progress (R280). -/
  phiSum : Int := 0
  phiN : Nat := 0
  /-- Phase steps still to be made (R280). -/
  steps : Int := 0
  /-- Consecutive averages within ±2 (R280). -/
  good : Nat := 0
  /-- A DELAY frame has been received (R280). -/
  haveD16 : Bool := false
  /-- Instant (ps) at which the last EPOCH fell due (R285). -/
  lastEpoch : Option Nat := none
  /-- A phase step has been made in the fallow slot in progress (R280). -/
  stepped : Bool := false
  /-- The last frame launched, as the 55 bits after its start bit; 0 none (R275). -/
  sent : Nat := 0
  deriving DecidableEq, Repr

/-- A capture record under construction (R290 to R294). -/
structure CapRec where
  kind : Nat
  /-- RECORD of Table MS-3. -/
  number : Nat
  slot : Nat := 0
  noPc : Bool := false
  pcIndex : Nat := 0
  ts : Nat := 0
  gateEdge : Bool := false
  irreg : Bool := false
  dropBefore : Bool := false
  /-- Segments rejected in this record. -/
  rej : Nat := 0
  /-- Instants (ps) of its accepted triggers, oldest first. -/
  triggers : List Nat := []
  /-- Range tag of its first segment. -/
  range : Option Nat := none
  /-- Sums of codes, or the sample words when M = 1. -/
  sums : List Nat := []
  deriving DecidableEq, Repr

/-- A segment being taken: its trigger instant, its samples so far (word, instant), oldest first, and how many it needs. -/
structure CapSeg where
  trig : Nat
  /-- Leading samples that the input had not delivered: free values, without an instant (log entry 3). -/
  pads : Nat
  taken : List (Word × Nat)
  need : Nat
  gateEdge : Bool
  deriving DecidableEq, Repr

/-- What holds at a trigger instant (ps): its gate, that an edge of the gate shares its synchroniser cycle (R291), the number and the
opening of the slot that contains it, and its point cycle (R290, Table MS-3). -/
structure CapMark where
  instant : Nat := 0
  gate : Bool := true
  edge : Bool := false
  slot : Option (Nat × Nat) := none
  inPc : Bool := false
  pcIndex : Nat := 0
  deriving DecidableEq, Repr

/-- The capture engine beside its registers. -/
structure Cap where
  /-- Samples of the record's input, newest first: word and instant (ps), at most 4,096. -/
  hist : List (Word × Nat) := []
  /-- The level trigger is armed; length of its run, what held at its first sample, the trigger instant, and the interpolated instant of
  the crossing, in ps (R289, R293). -/
  levelArmed : Bool := false
  run : Nat := 0
  runMark : CapMark := {}
  runCross : Nat := 0
  /-- Instant of the last accepted trigger (R293). -/
  lastTrig : Option Nat := none
  /-- The open record and the segment in progress. -/
  cur : Option CapRec := none
  seg : Option CapSeg := none
  /-- Complete records in the capture queue, oldest first (R295). -/
  queue : List (List Byte) := []
  /-- Records admitted or dropped so far, modulo 2^24 (RECORD of Table MS-3). -/
  number : Nat := 0
  /-- A record was dropped since the last one written. -/
  dropped : Bool := false
  /-- The shutdown runs (R296). -/
  closing : Bool := false
  /-- Instant (ps) of the last trigger that counted, and of the last change of HIS_STATUS.RUNNING at a boundary (R291). -/
  trigAt : Option Nat := none
  runEdge : Option Nat := none
  deriving DecidableEq, Repr

/-- The sextant beside its registers. -/
structure Sxt where
  /-- Active tables CDT_START and CDT_STOP, entry f, the identity where unlisted (R300). -/
  cdtStart : Tab Nat := []
  cdtStop : Tab Nat := []
  /-- Level of SXT_GATE and the instant (ps) of its last edge (R297, R299). -/
  gate : Bool := false
  gateAt : Nat := 0
  /-- A gate edge has armed the set (GATE_SRC 0b01). -/
  edgeArmed : Bool := false
  /-- Instant (ps) plus 1 of the last start edge on which the gate decided, 0 none (R299). -/
  decidedAt : Nat := 0
  /-- Edges counted by the prescalers since the set was armed (R297). -/
  preStart : Nat := 0
  preStop : Nat := 0
  /-- The measurement in progress: coarse count, phase and instant (ps) of its start (R298). -/
  start : Option (Nat × Nat × Nat) := none
  /-- Instant (ps) at which the last measurement ended (R298). -/
  endedAt : Option Nat := none
  /-- Statistics of the set: valid and missing measurements, sums, least and greatest (R301). -/
  n : Nat := 0
  miss : Nat := 0
  sum : Int := 0
  sumSq : Int := 0
  least : Int := 0x7FFFFFFF
  greatest : Int := -0x80000000
  /-- The shutdown runs (R302). -/
  closing : Bool := false
  deriving DecidableEq, Repr

/-! ### Analog acquisition (chapter 11) -/

/-- One auxiliary front end beside its registers. -/
structure Fe where
  /-- Gain in force, 0 to 3 for ×1 to ×64, ranged or fixed (R319). -/
  gain : Nat := 0
  /-- Down-count (Table AA-3). -/
  down : Nat := 0
  /-- Instants (ps) and new gains of gain changes within the last 60 s (R321). -/
  changes : List (Nat × Nat) := []
  /-- The gain before the oldest of those changes. -/
  before : Nat := 0
  /-- The next sample is the switching sample, or instant (ps) of the switching (R320). -/
  switching : Bool := false
  changedAt : Option Nat := none
  /-- Excitation is on: continuous, or in a pulse (R316). -/
  on : Bool := false
  /-- Instant (ps) at which the mode was written, from which pulses count; the number of the next pulse; the on-edge of the latest one
  (R316). -/
  modeAt : Option Nat := none
  pulse : Nat := 0
  onAt : Option Nat := none
  /-- Pins that stand out of regulation: bit 0 its own, bit 1 its partner's in 3-wire and 4-wire (R322). -/
  excPins : Nat := 0
  /-- Excitation faults entered within the last 60 s (R322). -/
  excHist : List Nat := []
  deriving DecidableEq, Repr

/-- The converter beside its registers. -/
structure Adc where
  fe : Tab Fe := []
  /-- Scan round number, modulo 2^16 (R311); for an entry behind skipped rounds the earliest round that it can be in. -/
  round : Nat := 0
  /-- The round of the last entry and the instant (ps) from which every entry has been skipped, 12.5 ns a round (R311). -/
  skipped : Option (Nat × Nat) := none
  /-- The input last sampled in this round, plus 1; 0 at its start (R311). -/
  last : Nat := 0
  /-- The helm's urgent request waits (R313). -/
  helmUrgent : Bool := false
  /-- The input that the host's outstanding request names (R313). -/
  hostInput : Nat := 0
  /-- The host's request is being served (R313). -/
  hostServed : Bool := false
  /-- The input of the entry in progress (R311, R314). -/
  entry : Option Nat := none
  /-- The latest instant (ps) that a sample or a register write gave. -/
  lastAt : Nat := 0
  deriving DecidableEq, Repr

/-! ### Calibration, fuses, temperatures (chapter 12) -/

/-- What a journal record holds (R341): SEQ, code-density tables, sextant tables, BOFS and T_CAL per channel, field mask additions,
emitter curve, legacy sets, CAL_LAST_CD and CAL_LAST_RZ. -/
structure JrnRec where
  seq : Nat
  lut : Tab Nat
  cdtStart : Tab Nat
  cdtStop : Tab Nat
  bofs : Tab Int
  tCal : Tab Int
  field : Tab Nat
  curve : List Nat
  legTemp : Tab Int
  legSkew : Tab Int
  legBofs : Tab Int
  loaded : Nat
  lastCd : Word
  lastRz : Word
  deriving DecidableEq, Repr

/-- Calibration beside its registers. -/
structure Cal where
  /-- The OTP array by row, 64 bits each; an unlisted row is 0, unburned (DESIGN CHOICE, log entry 12). -/
  fuse : Tab Nat := []
  /-- The burn in progress: row and DATA, and whether PF_N fell during it (R340). -/
  burn : Option (Nat × Nat) := none
  burnCut : Bool := false
  /-- Items of the plan still to run, the one in progress first: 1 code density, 2 sextant, 3 range zero, 4 survey (R328). -/
  items : List Nat := []
  /-- An item of the plan was accepted (R328). -/
  accepted : Bool := false
  /-- The rerun that RERUN_PENDING shows, or one beside it, fell due by temperature (R335). -/
  rerunTemp : Bool := false
  /-- The plan belongs to the start sequence, or to its repetition (R415). -/
  internal : Bool := false
  /-- The registers the plan writes, as they were before it: address and word (R329). -/
  saved : List (Nat × Word) := []
  /-- Code-density counts: key 16 × channel + raw phase, and 64 × channel + time group (R330). -/
  cdPhase : Tab Nat := []
  cdGroup : Tab Nat := []
  /-- Range-zero sums: bins by 192 × channel + bin, exposures and fallow counts by channel; channels whose status was not VALID in
  some point cycle; point cycles summed (R332). -/
  rzBins : Tab Nat := []
  rzExp : Tab Nat := []
  rzAmb : Tab Nat := []
  rzBad : Tab Nat := []
  rzCycles : Nat := 0
  /-- The range-zero item has been computed and accepted; the sextant set that ends it runs (R332). -/
  rzSet : Bool := false
  /-- The offsets and T_CAL that range zero has computed, not yet applied (R326, R332). -/
  rzNew : Option (Tab Int × Tab Int) := none
  /-- Counts of the survey by SPAD (R334). -/
  probes : Tab Nat := []
  /-- The SPAD that the survey probes, 16 × channel + SPAD; 18432 when all have been; none before the first (R334). -/
  surveyAt : Option Nat := none
  /-- Field mask additions of each channel, 16 bits (R334). -/
  field : Tab Nat := []
  /-- BOFS of each channel as calibrated, and the T_CAL they belong to (R332). -/
  bofs : Tab Int := []
  tCal : Tab Int := []
  /-- ΔL of the last completed sextant set, the drift condition and its entries within the last 60 s (R333). -/
  dL : Int := 0
  drift : Bool := false
  driftHist : List Nat := []
  /-- Legacy sets: temperature by 4 × k + quarter; skew and offset by 1152 × k + channel (R336). -/
  legTemp : Tab Int := []
  legSkew : Tab Int := []
  legBofs : Tab Int := []
  /-- Interpolations since the pages were last written, offsets as last written, and run of evaluations in which a channel's skew
  lay more than 0.75 code off (R337). -/
  legWait : Nat := 10
  legWritten : Tab Int := []
  legRun : Tab Nat := []
  /-- The records of journal slots A and B (R341). -/
  jrnA : Option JrnRec := none
  jrnB : Option JrnRec := none
  /-- 10 ms beats since AGE last counted (Table CT-6). -/
  beats : Nat := 0
  deriving DecidableEq, Repr

/-- Temperature sensors, stages, rails and compensation beside their registers. -/
structure Thm where
  /-- Last reading of each sensor, 0.1 °C (R343, R349). -/
  last : Tab Int := []
  /-- Conversions of each sensor modulo 16, and run of test conversions that failed (R343, R344). -/
  conv : Tab Nat := []
  testRun : Tab Nat := []
  /-- Run of readings at or above TRIP (R349). -/
  tripRun : Tab Nat := []
  /-- TRIP holds RESET (R349). -/
  tripHold : Bool := false
  /-- Entries within the last 60 s: key 0 WARM, 1 HOT, 2 CRITICAL, 3 + r rail r (R347, R351). -/
  hist : Tab (List Nat) := []
  /-- The indicators and rails that the flapping latch holds, by the same keys. -/
  latched : Nat := 0
  /-- A compensation trim has clamped since RESET (R350). -/
  compRaised : Bool := false
  /-- The bandgap curvature trim and the calibration oscillator's trim in force (Table CT-5). -/
  bandTrim : Int := 0
  oscTrim : Int := 0
  /-- Run of 10 ms evaluations in which a column's DLL trim lay 2 or more off (R350). -/
  dllRun : Tab Nat := []
  deriving DecidableEq, Repr

/-! ### Start, flash, update, headland relay (chapter 15) -/

/-- A logbook entry that waits to be programmed (R432): KIND, MODE, EVENT, TIMESTAMP and DETAIL of Table BU-9. -/
structure LogEntry where
  kind : Nat
  mode : Nat
  event : Nat
  ts : Nat
  detail : List Word
  deriving DecidableEq, Repr

/-- The update record (chapter 15, "Flash layout"): state as UPD_STATE codes it, VERSION and SETTINGS_FMT of the newest slot
write, and the settings format of the image before it, whose record is frozen while UNCONFIRMED (R424); the half of its flash region it stands in. -/
structure UpdRec where
  state : Nat := 0
  version : Nat := 0
  fmt : Nat := 0
  prevFmt : Nat := 0
  half : Nat := 1
  deriving DecidableEq, Repr

/-- A settings record (R424): SEQ, FORMAT, the settings table (register address by 2 × entry, value by 2 × entry + 1) and
BOOT_SET_OPT. -/
structure SetRec where
  seq : Nat
  fmt : Nat
  table : List (Nat × Word)
  opt : Word
  deriving DecidableEq, Repr

/-- A headland transfer being received (R428): staging address, TOTAL, bytes staged, next SEQ, links travelled, and whether
END has come. -/
structure HdlRx where
  stage : Nat
  total : Nat
  got : Nat
  seq : Nat
  hops : Nat
  ended : Bool
  deriving DecidableEq, Repr

/-- A headland transfer being sent (R427): staging address, TOTAL, oldest unacknowledged SEQ, next SEQ to send, resends of the oldest,
whether this unit relays (R428) or started it, the links travelled, and for a relay the payload of the OFFER received. -/
structure HdlTx where
  stage : Nat
  total : Nat
  base : Nat
  next : Nat
  resends : Nat
  relay : Bool
  hops : Nat
  head : List Byte
  deriving DecidableEq, Repr

/-- A headland packet that left on a link (Table BU-8). -/
structure HdlPkt where
  type : Nat
  hops : Nat
  seq : Nat
  offset : Nat
  total : Nat
  payload : List Byte
  deriving DecidableEq, Repr

/-- What the firmware waits to do with DRAM (R371): a mailbox command of instant `t`, a DATA packet, a transfer's END. -/
inductive MemJob where
  | cmd (c : MboxCmd) (t : Nat)
  | data (q ofs : Nat) (payload : List Byte)
  | fin (q t : Nat)
  deriving DecidableEq, Repr

/-- The job is not a mailbox command's. -/
def MemJob.ofLink (j : MemJob) : Bool :=
  match j with
  | .cmd _ _ => false
  | _ => true

/-- What the management core, its flash and its retained memory hold beside the registers. -/
structure Boot where
  /-- The flash, byte by byte; an unlisted byte reads 0xFF, erased (DESIGN CHOICE, log entry 11). -/
  flash : Tab Byte := []
  upd : UpdRec := {}
  /-- Logbook queue in management memory, oldest first, at most 64 (R432). -/
  log : List LogEntry := []
  /-- Entries lost since the last one queued (R431). -/
  lost : Nat := 0
  /-- Starts recorded (START_SEQ, Table BU-9). -/
  starts : Nat := 0
  /-- An update session: announced length and bytes received (R421). -/
  sessLen : Nat := 0
  sessGot : Nat := 0
  /-- Length of the image in staging that passed R420 in the current session; 0 none (R427). -/
  checked : Nat := 0
  /-- The slot write in progress: the image's bytes, and whether a headland transfer brought it (R423, R429). -/
  writing : Option (List Byte × Bool) := none
  /-- A RESET_WARM or RESET_COLD that waits for flash work to end: TAG and warm (R411). -/
  heldReset : Option (Nat × Bool) := none
  /-- Instants (ps) of the failed starts within the last 10 minutes (R418). -/
  fails : List Nat := []
  /-- A start sequence runs (R413). -/
  starting : Bool := false
  /-- The start is warm (R410). -/
  warmStart : Bool := false
  /-- A settings save runs: the target slot, 0 A or 1 B (R424). -/
  saving : Option Nat := none
  /-- The settings records of slots A and B (R424). -/
  setA : Option SetRec := none
  setB : Option SetRec := none
  /-- A settings save waits for PF_N (R342). -/
  saveDue : Bool := false
  rx : Option HdlRx := none
  tx : Option HdlTx := none
  /-- What waits for DRAM to serve requests, oldest first (R371). -/
  memJobs : List MemJob := []
  /-- The last headland transfer of this unit was started by SEND: it records the RESULTs (R428). -/
  sent : Bool := false
  /-- Packets that left downstream and upstream, oldest first. -/
  hdlDn : List HdlPkt := []
  hdlUp : List HdlPkt := []
  /-- The slot that a headland transfer wrote starts once its transfers have ended (R429). -/
  autoStart : Bool := false
  deriving DecidableEq, Repr

/-! ### Observability (chapter 16) -/

/-- Which stream a trace record belongs to (R448). -/
inductive Stream where
  | smp | evt | snap
  deriving DecidableEq, Repr

/-- Performance counters and trace beside their registers. -/
structure Obs where
  /-- The 1024 counters of 48 bits (R443). -/
  cnt : Tab Nat := []
  /-- Values latched by a snapshot that the reader copies (R445, R446). -/
  snapCnt : Tab Nat := []
  /-- t_s of that snapshot, in ns. -/
  snapTs : Nat := 0
  /-- Records formed and not yet written, oldest first (R448). -/
  queue : List (Stream × List Byte) := []
  /-- Bytes of the on-chip buffer not yet read (R449). -/
  unread : Nat := 0
  /-- OBS_TRACE_LEVEL has been raised since the buffer last held less than THRESH. -/
  levelRaised : Bool := false
  /-- Without WRAP, records have filled the buffer to its last byte (R448). -/
  atEnd : Bool := false
  /-- Raises of each event since its previous logbook entry (R440). -/
  raises : Tab Nat := []
  deriving DecidableEq, Repr

/-! ### The whole state -/

/-- The state of the device. -/
structure State where
  /-- Commands that wait, first in, first out. -/
  pending : List Instr := []
  /-- The register map by byte address (chapter 00, "Register conventions"); unlisted words hold their reset value. -/
  regs : Tab Word := []
  /-- Events raised in their own domains and not yet delivered to the event controller, oldest first, each with SYS_MODE at the raise
  (R436, R440). -/
  raises : List (Nat × Word) := []
  /-- The model's own: how many free values have been drawn (DESIGN CHOICE, log entry 3). -/
  freeIx : Nat := 0
  sys : Sys := {}
  det : Det := {}
  tdc : Tdc := {}
  his : His := {}
  /-- The 192 tillers. -/
  til : Tab Tiller := []
  oq : OutQ := {}
  emi : Emi := {}
  mem : Mem := {}
  lnk : Lnk := {}
  hlm : Hlm := {}
  hdg : Hdg := {}
  mer : Mer := {}
  cap : Cap := {}
  sxt : Sxt := {}
  adc : Adc := {}
  cal : Cal := {}
  thm : Thm := {}
  boot : Boot := {}
  obs : Obs := {}
  deriving DecidableEq, Repr

/-- The events on their way to the event controller. -/
def State.raised (s : State) : List Nat := s.raises.map Prod.fst

/-- The machine right after reset (R10, R30): every register at its reset value, mode RESET, nothing pending. -/
def State.reset : State := {}

/-- Why a command stops the machine. No command of this device does: its spec gives every row an effect. -/
inductive Fault where
  /-- Never raised. -/
  | unused
  deriving DecidableEq, Repr

/-- Why a command has no meaning. -/
inductive Refusal where
  /-- Raised by the arm of a command whose meaning is not written yet; safe. -/
  | notModelled (mnemonic : String)
  deriving DecidableEq, Repr

end Sys2Proof.Machine
end

