-- ==== Sys2Proof/Machine/Ops.lean ====
section
/-! DEFINITION. The named operations over the device's state: sparse tables, register words and their fields, event raises,
performance counts, free values. Every chapter's meanings are written over these. -/

namespace Sys2Proof.Machine

/-! ### Sparse tables -/

/-- What key `k` reads as: the listed value, or the unlisted value `d k`. -/
def Tab.get {α : Type} (d : Nat → α) : Tab α → Nat → α
  | [], k => d k
  | (j, v) :: r, k => if j = k then v else Tab.get d r k

/-- Puts `v` at key `k` before the first greater key. -/
def Tab.insert {α : Type} : Tab α → Nat → α → Tab α
  | [], k, v => [(k, v)]
  | (j, w) :: r, k, v => if k < j then (k, v) :: (j, w) :: r else (j, w) :: Tab.insert r k v

/-- Writes `v` at key `k`, keeping the keys rising and listing nothing that equals the unlisted value. -/
def Tab.set {α : Type} [DecidableEq α] (d : Nat → α) (t : Tab α) (k : Nat) (v : α) : Tab α :=
  let u := t.filter fun e => e.1 != k
  if v = d k then u else Tab.insert u k v

/-- The canonical form: keys strictly rising, no entry equal to what an unlisted key reads as. -/
def Tab.wf {α : Type} [DecidableEq α] (d : Nat → α) : Tab α → Bool
  | [] => true
  | [(k, v)] => decide (v ≠ d k)
  | (k, v) :: (k', v') :: r => decide (v ≠ d k) && decide (k < k') && Tab.wf d ((k', v') :: r)

/-- Removes every entry whose key lies in [lo, hi): those keys read as unlisted again. -/
def Tab.clear {α : Type} (t : Tab α) (lo hi : Nat) : Tab α :=
  t.filter fun e => !(decide (lo ≤ e.1) && decide (e.1 < hi))

/-- The entries whose key lies in [lo, hi). -/
def Tab.range {α : Type} (t : Tab α) (lo hi : Nat) : Tab α :=
  t.filter fun e => decide (lo ≤ e.1) && decide (e.1 < hi)

/-! ### Words and their fields -/

/-- Bits [hi:lo] of a word as a number. -/
def Word.field (w : Word) (hi lo : Nat) : Nat := (w >>> lo).toNat % 2 ^ (hi + 1 - lo)

/-- The word with bits [hi:lo] replaced by the low bits of `v`. -/
def Word.setField (w : Word) (hi lo v : Nat) : Word :=
  (w &&& ~~~(BitVec.ofNat 32 ((2 ^ (hi + 1 - lo) - 1) <<< lo)))
    ||| BitVec.ofNat 32 ((v % 2 ^ (hi + 1 - lo)) <<< lo)

/-- Two's complement value of the `n`-bit number `v`. -/
def signed (n v : Nat) : Int := if v % 2 ^ n < 2 ^ (n - 1) then (v % 2 ^ n : Nat) else (v % 2 ^ n : Nat) - (2 ^ n : Nat)

/-- The `n`-bit two's complement code of `v`. -/
def unsigned (n : Nat) (v : Int) : Nat := (v % (2 ^ n : Nat)).toNat

/-- `v` clipped to [lo, hi]. -/
def clip (lo hi v : Int) : Int := if v < lo then lo else if hi < v then hi else v

/-- Bits [hi:lo] of a number. -/
def bits (n hi lo : Nat) : Nat := n / 2 ^ lo % 2 ^ (hi + 1 - lo)

/-- Bit `i` of `n`. -/
def bitOf (n i : Nat) : Bool := n.testBit i

/-- `n` with bit `i` set to `b`. -/
def withBit (n i : Nat) (b : Bool) : Nat := if n.testBit i then (if b then n else n - 2 ^ i) else (if b then n + 2 ^ i else n)

/-- Arithmetic shift right of an integer. -/
def sar (v : Int) (k : Nat) : Int := v / (2 ^ k : Nat)

/-- Bytes of a word, the least significant first (registers and memories are little-endian, chapter 00). -/
def bytesOf : Nat → Nat → List Byte
  | 0, _ => []
  | k + 1, v => BitVec.ofNat 8 v :: bytesOf k (v / 256)

/-- The number that bytes spell, the least significant first. -/
def ofBytes : List Byte → Nat
  | [] => 0
  | b :: r => b.toNat + 256 * ofBytes r

/-- An access of `k` bytes at address `a` is aligned (R29): one of three bytes where its register is (DEDUCED, log entry 213). -/
def aligned (a k : Nat) : Bool := k != 0 && a % (if k = 3 then 4 else k) == 0

/-! ### The register map -/

/-- The index pair of address `a` in register `r`, when `a` is one of its words. -/
def RegSpec.find (r : RegSpec) (a : Nat) : Option (Nat × Nat) :=
  if r.base ≤ a then
    let k := a - r.base
    let q := k % r.st
    if k / r.st < r.n ∧ q % r.st2 = 0 ∧ q / r.st2 < r.n2 then some (k / r.st, q / r.st2) else none
  else none

/-- The first register of a list that holds address `a`. -/
def findIn (a : Nat) : List RegSpec → Option (RegSpec × Nat × Nat)
  | [] => none
  | r :: rs => match r.find a with
    | some (i, j) => some (r, i, j)
    | none => findIn a rs

/-- The block of Table AR-6 that holds address `a` (the tiller memory window apart). -/
def findBlock (a : Nat) : List (Nat × Nat × List RegSpec) → Option (List RegSpec)
  | [] => none
  | (lo, hi, rs) :: bs => if lo ≤ a ∧ a ≤ hi then some rs else findBlock a bs

/-- The register at word address `a`, with its array indices. -/
def findReg (a : Nat) : Option (RegSpec × Nat × Nat) :=
  match findBlock a regBlocks with
  | some rs => findIn a rs
  | none => none

/-- The word that a field list's reset values spell. -/
def resetOf : List FieldSpec → Word
  | [] => 0
  | f :: fs => Word.setField (resetOf fs) f.hi f.lo f.reset

/-- The events that are reserved (R435). -/
def reservedEvent (e : Nat) : Bool :=
  (8 ≤ e ∧ e ≤ 15) ∨ e = 24 ∨ (27 ≤ e ∧ e ≤ 63) ∨ (72 ≤ e ∧ e ≤ 95) ∨ (101 ≤ e ∧ e ≤ 127) ∨ (133 ≤ e ∧ e ≤ 191)
    ∨ (397 ≤ e ∧ e ≤ 415) ∨ e = 431 ∨ (440 ≤ e ∧ e ≤ 447) ∨ (461 ≤ e ∧ e ≤ 463) ∨ (467 ≤ e ∧ e ≤ 479) ∨ 511 < e

/-- Events whose LOG bit resets to 1 (Table EV-3). -/
def logByDefault (e : Nat) : Bool :=
  e = 2 ∨ e = 4 ∨ (16 ≤ e ∧ e ≤ 23) ∨ e = 26 ∨ e = 64 ∨ e = 65 ∨ e = 96 ∨ e = 128 ∨ (385 ≤ e ∧ e ≤ 389)
    ∨ (420 ≤ e ∧ e ≤ 428) ∨ e = 432 ∨ (435 ≤ e ∧ e ≤ 439) ∨ e = 449 ∨ e = 452 ∨ e = 481 ∨ e = 483 ∨ e = 485 ∨ e = 487
    ∨ e = 488 ∨ e = 490 ∨ e = 495 ∨ e = 496 ∨ (498 ≤ e ∧ e ≤ 500)

/-- Events whose FAULT bit resets to 1 (Table EV-3). -/
def faultByDefault (e : Nat) : Bool := e = 2 ∨ e = 128 ∨ e = 420 ∨ e = 432 ∨ e = 488

/-- The counter group of performance counter `k` (Table EV-4). -/
def counterGroup (k : Nat) : Nat :=
  if k < 32 then 0 else if k < 96 then 1 else if k < 192 then 2 else if k < 576 then 3 else if k < 608 then 4
  else if k < 624 then 5 else if k < 656 then 6 else if k < 848 then 7 else if k < 976 then 8 else 9

/-- Reset values of MEM_PORT_CFG[p]: WEIGHT, LAT_TGT and PANIC_EN of Table MC-4. -/
def portReset (p : Nat) : Nat :=
  let row (w l e : Nat) := w * 2 ^ 24 + l * 2 ^ 8 + e * 2 ^ 7
  match p with
  | 0 => row 32 2000 1
  | 1 => row 32 2000 1
  | 2 => row 16 10000 0
  | 3 => row 16 20000 0
  | 4 => row 8 5000 0
  | 5 => row 4 50000 0
  | _ => row 1 65535 0

/-- The word that the register at address `a` holds after reset (R10): the tables' values, and the values that depend on the
index (Tables DT-9, DT-11, EV-3, EV-7, MS-6, MC-4). Reads 0 where no register stands. -/
def resetWord (a : Nat) : Word :=
  if 0x10000 ≤ a ∧ a < 0x10800 then
    let e := (a - 0x10000) / 4
    if reservedEvent e then 0
    else BitVec.ofNat 32 (0x3F + (if logByDefault e then 2 ^ 31 else 0) + (if faultByDefault e then 2 ^ 29 else 0))
  else if 0x101000 ≤ a ∧ a < 0x102200 then BitVec.ofNat 32 (16 * 2 ^ 20 + 2 * 2 ^ 16 + 2 ^ 4 + 2)
  else if 0x201000 ≤ a ∧ a < 0x202200 then
    let c := (a - 0x201000) / 4
    BitVec.ofNat 32 ((c / 72 * 18 + c % 72 / 4) * 2 ^ 16)
  else if 0x208000 ≤ a ∧ a < 0x20C800 then
    let q := (a - 0x208000) / 4 % 4
    BitVec.ofNat 32 (4 * q + (4 * q + 1) * 2 ^ 8 + (4 * q + 2) * 2 ^ 16 + (4 * q + 3) * 2 ^ 24)
  else if 0x880100 ≤ a ∧ a < 0x880200 then
    let q := (a - 0x880100) / 4 % 32
    BitVec.ofNat 32 (4 * q + (4 * q + 1) * 2 ^ 8 + (4 * q + 2) * 2 ^ 16 + (4 * q + 3) * 2 ^ 24)
  else if 0xB00200 ≤ a ∧ a < 0xB00280 ∧ a % 16 = 0 then BitVec.ofNat 32 (portReset ((a - 0xB00200) / 16))
  else if 0xC08000 ≤ a ∧ a < 0xC08200 then (if a % 16 = 12 then 1 else 0)
  else if 0xE01000 ≤ a ∧ a < 0xE02000 then BitVec.ofNat 32 (counterGroup ((a - 0xE01000) / 4) * 2 ^ 8)
  else if a = 0x600024 then 0xACE1
  else match findReg a with
    | some (r, _, _) => resetOf r.fields
    | none => 0

/-- The register word at byte address `a`. -/
def State.reg (s : State) (a : Nat) : Word := Tab.get resetWord s.regs a

/-- Puts `w` into the register word at byte address `a` (the hardware's own write: no access code applies). -/
def State.setReg (s : State) (a : Nat) (w : Word) : State := { s with regs := Tab.set resetWord s.regs a w }

/-- Reads a field as a number. -/
def State.rd (s : State) (f : Fld) : Nat := Word.field (s.reg f.addr) f.hi f.lo

/-- Reads a one-bit field as a Boolean. -/
def State.on (s : State) (f : Fld) : Bool := s.rd f != 0

/-- Reads a two's complement field. -/
def State.rdS (s : State) (f : Fld) : Int := signed (f.hi + 1 - f.lo) (s.rd f)

/-- Writes a field (the hardware's own write). -/
def State.wr (s : State) (f : Fld) (v : Nat) : State := s.setReg f.addr (Word.setField (s.reg f.addr) f.hi f.lo v)

/-- Writes a one-bit field. -/
def State.put (s : State) (f : Fld) (b : Bool) : State := s.wr f b.toNat

/-- Writes a field in two's complement. -/
def State.wrS (s : State) (f : Fld) (v : Int) : State := s.wr f (unsigned (f.hi + 1 - f.lo) v)

/-- Adds `k` to a counter field, which saturates at its highest code. -/
def State.bump (s : State) (f : Fld) (k : Nat) : State :=
  s.wr f (min (s.rd f + k) (2 ^ (f.hi + 1 - f.lo) - 1))

/-- Restores the reset value of every register in [lo, hi). -/
def State.resetRegs (s : State) (lo hi : Nat) : State := { s with regs := Tab.clear s.regs lo hi }

/-! ### Events, counts, free values -/

/-- A source raises event `e` in its own domain; EVENT_RAISE delivers it to the event controller (R436). No event is recorded
in RESET (R439). -/
def State.raise (s : State) (e : Nat) : State :=
  if s.rd F.SYS_MODE_MODE = 0 ∨ reservedEvent e then s else { s with raises := s.raises ++ [(e, s.reg R.SYS_MODE)] }

/-- Raises `e` when `b` holds. -/
def State.raiseIf (s : State) (b : Bool) (e : Nat) : State := if b then s.raise e else s

/-- Applies `f` when `b` holds. -/
def State.when (s : State) (b : Bool) (f : State → State) : State := if b then f s else s

/-- Folds a step over the numbers `0 … n - 1`. -/
def State.forN (s : State) (n : Nat) (f : Nat → State → State) : State := (List.range n).foldl (fun s i => f i s) s

/-- A free value below `2 ^ w`: drawn from the stream at the counter, which advances. -/
def State.drawFree (s : State) (w : Nat) : Nat × State :=
  (Config.freeValue s.freeIx % 2 ^ w, { s with freeIx := s.freeIx + 1 })

/-- The performance counters that an event of group `g`, low byte `lo`, instance `inst` adds to: those listed with EN = 1 and
this EVT_NUM, with INST equal to the instance, to 0xFF or, where the group has no instances, 0 (R442, R443). Only words of
OBS_CNT_CFG that differ from reset can have EN = 1. -/
def State.countersOf (s : State) (g lo inst : Nat) : List Nat :=
  ((Tab.range s.regs 0xE01000 0xE02000).filter fun e =>
    Word.field e.2 31 31 = 1 ∧ Word.field e.2 11 0 = g * 256 + lo
      ∧ (Word.field e.2 23 16 = inst ∨ Word.field e.2 23 16 = 0xFF)).map fun e => (e.1 - 0xE01000) / 4

/-- Adds `n` to counter `k`, saturating at 2^48 - 1 with its OBS_SAT bit and OBS_CNT_SAT (R443). -/
def State.addCounter (s : State) (k n : Nat) : State :=
  let old := Tab.get (fun _ => 0) s.obs.cnt k
  let v := min (old + n) (2 ^ 48 - 1)
  let s1 := { s with obs := { s.obs with cnt := Tab.set (fun _ => 0) s.obs.cnt k v } }
  if old < 2 ^ 48 - 1 ∧ v = 2 ^ 48 - 1 then
    (s1.setReg (R.OBS_SAT (k / 32)) (BitVec.ofNat 32 (withBit (s1.reg (R.OBS_SAT (k / 32))).toNat (k % 32) true))).raise 510
  else s1

/-- The domains derived from the main PLL are stopped while it is unlocked (R26, Table AR-3). -/
def State.mainStopped (s : State) : Bool := !s.on F.SYS_CLK_STATUS_MAIN_LOCK

/-- The clock of counter group `g` is stopped (Tables AR-3 and EV-4, R443): the management PLL, from which the helm's clock comes, runs
through a relock (R26). -/
def State.groupStopped (s : State) (g : Nat) : Bool :=
  match g with
  | 0 => false
  | 3 => !s.on F.SYS_CLK_STATUS_TIL_LOCK
  | 5 => false
  | 7 => s.sys.dramStopped
  | 8 => false
  | 9 => !s.on F.SYS_CLK_STATUS_TIL_LOCK
  | _ => s.mainStopped

/-- Counts `n` events of a group while OBS_CTRL.RUN = 1 and the group's clock runs (R443). -/
def State.count (s : State) (g lo inst n : Nat) : State :=
  if s.on F.OBS_CTRL_RUN && !s.groupStopped g then (s.countersOf g lo inst).foldl (fun s k => s.addCounter k n) s else s

/-- Counts an event of tiller `n`'s own counters 192 + 2n and 193 + 2n (R442). -/
def State.countTil (s : State) (n lo k : Nat) : State :=
  if s.on F.OBS_CTRL_RUN && !s.groupStopped 3 then
    (((s.countersOf 3 lo 0).filter fun c => c = 192 + 2 * n ∨ c = 193 + 2 * n)).foldl (fun s c => s.addCounter c k) s
  else s

/-! ### Modes -/

/-- The operating mode (Table AR-10), as SYS_MODE.MODE codes it. -/
def State.mode (s : State) : Nat := s.rd F.SYS_MODE_MODE

/-- Table AR-10's codes. -/
def mRESET : Nat := 0
def mRECOVERY : Nat := 1
def mSTANDBY : Nat := 2
def mSPINUP : Nat := 3
def mSCAN : Nat := 4
def mCALIBRATE : Nat := 5
def mDERATED : Nat := 6
def mSAFESTOP : Nat := 7

/-- Drops the instants that lie more than 60 s before `t` (R470), all times in ps. -/
def recent (t : Nat) (h : List Nat) : List Nat := h.filter fun u => decide (t < u + 60000000000000)

/-- The configuration reject event SYS_CFG_REJECT (R12, R13). -/
def State.cfgReject (s : State) : State := s.raise 3

end Sys2Proof.Machine
end

