-- ==== Sys2Proof/Machine/Datagram.lean ====
section
/-! DEFINITION. Frames that leave an Ethernet port (R394, R396, R405): the bytes of UDP datagrams, and the answers to mailbox
datagrams. -/

namespace Sys2Proof.Machine

/-! ### Bytes in network order -/

/-- Bytes of a number, the most significant first (network order). -/
def netBytes (k v : Nat) : List Byte := (bytesOf k v).reverse

/-- One bit, and one byte, of the reflected CRC-32 of IEEE 802.3. -/
def fcsBit (c : Nat) : Nat := if c % 2 = 1 then c / 2 ^^^ 0xEDB88320 else c / 2
def fcsByte (c : Nat) (b : Byte) : Nat := Nat.iterate fcsBit 8 (c ^^^ b.toNat)

/-- The frame check sequence. -/
def fcs (l : List Byte) : Nat := (l.foldl fcsByte 0xFFFFFFFF) ^^^ 0xFFFFFFFF

/-- The one's complement sum of 16-bit words in network order (RFC 1071), complemented. -/
def netSum : List Byte → Nat
  | [] => 0
  | [a] => a.toNat * 256
  | a :: b :: r => a.toNat * 256 + b.toNat + netSum r
def netCheck (l : List Byte) : Nat :=
  let x := netSum l
  let x := x % 65536 + x / 65536
  0xFFFF - (x % 65536 + x / 65536)

/-! ### Frames -/

/-- Frames queued to leave port `e`. -/
def State.outOf (s : State) (e : Nat) : List (List Byte × List Nat) := if e = 0 then s.lnk.out0 else s.lnk.out1
def State.setOut (s : State) (e : Nat) (q : List (List Byte × List Nat)) : State :=
  { s with lnk := if e = 0 then { s.lnk with out0 := q } else { s.lnk with out1 := q } }

/-- Bytes of UDP payload a packet may hold (R396). -/
def State.payloadMax (s : State) : Nat := if s.on F.LNK_PKT_CFG_JUMBO then 8972 else 1472

/-- Where a frame goes: the destination's MAC and IPv4 addresses, and the two UDP ports. -/
structure Dest where
  mac : Nat
  ip : Nat
  sport : Nat
  dport : Nat
  deriving DecidableEq, Repr

/-- Where the point packets of port `e` go (R396). -/
def State.pktDest (s : State) (e : Nat) : Dest :=
  ⟨s.rd (F.LNK_ETH_DMAC_HI_MAC e) * 2 ^ 32 + s.rd (F.LNK_ETH_DMAC_LO_MAC e), s.rd (F.LNK_ETH_DIP_IP e), s.rd (F.LNK_ETH_UDP_SPORT e),
    s.rd (F.LNK_ETH_UDP_DPORT e)⟩

/-- The UDP datagram that carries `data` from port `e` (R396). -/
def State.udpBytes (s : State) (e : Nat) (dst : Dest) (data : List Byte) : List Byte :=
  let sip := s.rd (F.LNK_ETH_SIP_IP e)
  let head := netBytes 2 dst.sport ++ netBytes 2 dst.dport ++ netBytes 2 (8 + data.length)
  let sum := netCheck (netBytes 4 sip ++ netBytes 4 dst.ip ++ netBytes 2 17 ++ netBytes 2 (8 + data.length) ++ head ++ [0, 0] ++ data)
  head ++ netBytes 2 (if s.on F.LNK_PKT_CFG_UDP_CSUM then (if sum = 0 then 0xFFFF else sum) else 0) ++ data

/-- The IPv4 header before a datagram of `len` bytes (R396). -/
def State.ipBytes (s : State) (e : Nat) (dst : Dest) (len id : Nat) : List Byte :=
  let a := [0x45, BitVec.ofNat 8 (s.rd (F.LNK_ETH_IP_CFG_DSCP e) * 4)] ++ netBytes 2 (20 + len) ++ netBytes 2 (id % 65536)
    ++ netBytes 2 0x4000 ++ [BitVec.ofNat 8 (s.rd (F.LNK_ETH_IP_CFG_TTL e)), 17]
  let b := netBytes 4 (s.rd (F.LNK_ETH_SIP_IP e)) ++ netBytes 4 dst.ip
  a ++ netBytes 2 (netCheck (a ++ [0, 0] ++ b)) ++ b

/-- The Ethernet frame around an IPv4 packet (R394), with its FCS, inverted where `bad`. -/
def State.frameBytes (s : State) (e : Nat) (dst : Dest) (ip : List Byte) (bad : Bool) : List Byte :=
  let tag := if s.on (F.LNK_ETH_CTRL_VLAN_EN e) then
      netBytes 2 0x8100 ++ netBytes 2 (2 ^ 13 * s.rd (F.LNK_ETH_IP_CFG_PCP e) + s.rd (F.LNK_ETH_IP_CFG_VID e)) else []
  let body := netBytes 6 dst.mac
    ++ netBytes 6 (s.rd (F.LNK_ETH_SMAC_HI_MAC e) * 2 ^ 32 + s.rd (F.LNK_ETH_SMAC_LO_MAC e)) ++ tag ++ netBytes 2 0x0800 ++ ip
  let body := body ++ List.replicate (60 - body.length) 0
  body ++ bytesOf 4 (if bad then 0xFFFFFFFF - fcs body else fcs body)

/-- The IPv4 identification of the next datagram of port `e`. -/
def State.ident (s : State) (e : Nat) : Nat := if e = 0 then s.lnk.ident0 else s.lnk.ident1

/-- A frame with `data` for `to` joins the frames of port `e`: `seqs` are the SEQs of the records it carries. -/
def State.udpQueue (s : State) (e : Nat) (dst : Dest) (data : List Byte) (bad : Bool) (seqs : List Nat) : State :=
  let id := s.ident e
  let udp := s.udpBytes e dst data
  let s := s.setOut e (s.outOf e ++ [(s.frameBytes e dst (s.ipBytes e dst udp.length id ++ udp) bad, seqs)])
  { s with lnk := if e = 0 then { s.lnk with ident0 := (id + 1) % 65536 } else { s.lnk with ident1 := (id + 1) % 65536 } }

/-! ### Answers to mailbox datagrams (R405) -/

/-- Bytes of LNK_MBOX_BUF. -/
def State.mboxBytes (s : State) (n : Nat) : List Byte :=
  (((List.range ((n + 3) / 4)).map fun i => bytesOf 4 (s.reg (R.LNK_MBOX_BUF i)).toNat).flatten).take n

/-- The sender of a datagram that port `e` answers: its MAC and IPv4 addresses and its UDP port, as 12 bytes. -/
def State.peerDest (s : State) (e : Nat) (peer : List Byte) : Dest :=
  ⟨ofBytes (peer.take 6).reverse, ofBytes ((peer.drop 6).take 4).reverse, s.rd (F.LNK_ETH_MBOX_MBOX_PORT e),
    ofBytes ((peer.drop 10).take 2).reverse⟩

/-- The answer leaves for the sender: RESP, DATA and buffer data. How the firmware splits an answer that fits no frame is not stated: no
frame of it is queued (log entry 233). -/
def State.udpSend (s : State) (e : Nat) (peer : List Byte) (resp data : Word) (buf : List Byte) : State :=
  let d := bytesOf 4 resp.toNat ++ bytesOf 4 data.toNat ++ buf
  let s := { s with lnk := { s.lnk with udpAnswer := some ⟨e, peer, resp, data, buf⟩ } }
  if s.payloadMax < d.length then s else s.udpQueue e (s.peerDest e peer) d false []

/-- A response answers the datagram whose command it is; a command that is done returns the buffer data it produced. -/
def State.udpReply (s : State) (status : Nat) : State :=
  match s.lnk.udpWait with
  | some w =>
    State.udpSend { s with lnk := { s.lnk with udpWait := none } } w.port w.peer (s.reg R.SYS_MBOX_RESP) (s.reg R.SYS_MBOX_DATA) (if status = 2 then s.mboxBytes w.len else [])
  | none => s

end Sys2Proof.Machine
end

