-- ==== Sys2Proof/Machine/Modes.lean ====
section
/-! DEFINITION. Mode transitions, derate sources and mailbox responses (chapter 01). -/

namespace Sys2Proof.Machine

/-- Point cycles run (HIS_STATUS.RUNNING, R99). -/
def State.running (s : State) : Bool := s.on F.HIS_STATUS_RUNNING

/-- The tillers are held with STATE RESET in RESET and RECOVERY (R129). -/
def State.tilHeld (s : State) : Bool := s.mode == mRESET || s.mode == mRECOVERY

/-- A tiller halted by an uncorrectable error (R111, R131). -/
def Tiller.haltUE (t : Tiller) : Bool :=
  t.state == .halted && (t.haltCause == 4 || ((t.haltCause == 3 || t.haltCause == 5) && t.trapCause == 3))

/-- A tiller halted by an uncorrectable error is present, as an enabled fault derate source (SYS_MODE_CFG.DERATE_TIL). -/
def State.derateTil (s : State) : Bool :=
  s.on F.SYS_MODE_CFG_DERATE_TIL && !s.tilHeld && s.til.any fun e => e.2.haltUE

/-- A line fault or the emitter's FAULT state, as an enabled fault derate source (R215, R220). -/
def State.derateEmi (s : State) : Bool :=
  s.on F.SYS_MODE_CFG_DERATE_EMI &&
    (s.rd F.EMI_ROW_SHORT_SHORT != 0 || s.rd F.EMI_ROW_OPEN_OPEN != 0 || s.rd F.EMI_COL_FAULT_OPEN != 0
      || s.rd F.EMI_COL_FAULT_SHORT != 0 || s.rd F.EMI_STATUS_STATE == 4)

/-- Any derate source is present: thermal, fault or host (Table AR-8). -/
def State.derated (s : State) : Bool :=
  s.on F.THM_STATUS_DERATE_SRC || s.derateTil || s.derateEmi || s.sys.hostDerate

/-- Posts a mailbox response for `tag`; each response posted raises SYS_MBOX_RESP (R36), and answers the datagram whose command it
is (R405). -/
def State.respond (s : State) (tag status detail : Nat) : State :=
  let s := ((((s.wr F.SYS_MBOX_RESP_TAG tag).wr F.SYS_MBOX_RESP_STATUS status).wr F.SYS_MBOX_RESP_MODE s.mode).wr
    F.SYS_MBOX_RESP_DETAIL detail).raise 1
  s.udpReply status

/-- Answers the command that is BUSY, if one is. -/
def State.answer (s : State) (status detail : Nat) : State :=
  match s.sys.cmd with
  | some c => { s with sys := { s.sys with cmd := none } }.respond c.tag status detail
  | none => s

/-- Whether reaching mode `m` completes the mode command `code` that is BUSY (Table AR-13). -/
def modeDone (code m : Nat) : Bool :=
  (code == 1 && m == mSTANDBY) || (code == 2 && (m == mSCAN || m == mDERATED)) || (code == 4 && m == mDERATED)
    || (code == 8 && m == mRECOVERY)

/-- Whether a transition cause is a trigger that supersedes a command in progress (R35, ranks 1 to 6). -/
def supersedes (cause : Nat) : Bool :=
  [0x06, 0x07, 0x08, 0x09, 0x0A, 0x0E, 0x11, 0x12, 0x14].contains cause

/-- Settles the BUSY mode command at a transition to `m`: DONE where Table AR-13 says so, ABORTED with the winning trigger's
cause where a higher trigger took the device elsewhere (R35); so too a MODE_SCAN carried out after an orderly stop (R37). -/
def State.settle (s : State) (m cause : Nat) : State :=
  let s := match s.sys.scanTag with
    | some tag =>
      if m = mSCAN ∨ m = mDERATED then { s with sys := { s.sys with scanTag := none } }.respond tag 2 0
      else if supersedes cause then { s with sys := { s.sys with scanTag := none } }.respond tag 6 cause
      else s
    | none => s
  match s.sys.cmd with
  | some c =>
    if c.group = 1 then
      if c.code = 3 ∧ cause = 0x0F then s.answer 2 0
      else if modeDone c.code m then s.answer 2 0
      else if supersedes cause then s.answer 6 cause
      else s
    else s
  | none => s

/-- The throttle is held: an indicator is set, or DERATED with THROTTLE_DER = 1 (Table CT-4, R348). -/
def State.throttleHeld (s : State) : Bool :=
  s.rd F.THM_STATUS_IND != 0 || (s.on F.THM_DERATE_CFG_THROTTLE_DER && s.mode == mDERATED)

/-- The status bits that show whether the throttle is held (R197, Table CT-4). -/
def State.showThrottle (s : State) : State :=
  (s.put F.THM_STATUS_THROTTLE s.throttleHeld).put F.EMI_STATUS_THROTTLE s.throttleHeld

/-! ### Emission power, which the mode decides too (R200 to R207) -/

/-- EMI_STATUS.STATE WAIT (Table EM-5). -/
def eWAIT : Nat := 1

/-- EMI_STATUS.STATE. -/
def State.emiState (s : State) : Nat := s.rd F.EMI_STATUS_STATE

/-- Entry `e` of seed-map buffer `b` (Table EM-1). -/
def State.seedEntry (s : State) (b e : Nat) : Nat :=
  (s.reg (0x610000 + 0x10000 * b + 8 * e)).toNat + (s.reg (0x610000 + 0x10000 * b + 8 * e + 4)).toNat * 2 ^ 32

/-- The code after the clamp to MAX (R206). -/
def State.clampCode (s : State) (p : Nat) : Nat := min p (Word.field s.emi.pwrCfg 7 0)

/-- The effective power code (R206). -/
def State.effCode (s : State) (p : Nat) : Nat :=
  let p := s.clampCode p
  let p := if s.mode = mDERATED then p - Word.field s.emi.pwrCfg 15 8 else p
  if s.rd F.EMI_STATUS_LB_STAGE ≠ 0 then p - Word.field s.emi.pwrCfg 23 16 else p

/-- EM_DAC code of seed-map entry `x`. -/
def State.dacOf (s : State) (x : Nat) : Nat := s.rd (F.EMI_CURVE_ACT_DAC (s.effCode (bits x 29 22)))

/-- Sets EM_DAC. -/
def State.setDac (s : State) (v : Nat) : State := s.wr F.EMI_CHG_STATUS_DAC_CODE v

/-- In WAIT, EM_DAC holds the curve value of the first entry of the active buffer, whatever changes it (Table EM-5). -/
def State.waitDac (s : State) : State :=
  if s.emiState = eWAIT then s.setDac (s.dacOf (s.seedEntry (s.rd F.EMI_STATUS_ACTIVE_BUF) 0)) else s

/-- A slave that is not ALIGNED holds point cycles that become due: PC_WAIT reads 1, MER_PC_WAIT is raised once per wait (R286). -/
def State.merWait (s : State) : State :=
  let st := s.rd F.MER_STATUS_STATE
  if s.on F.MER_CTRL_EN && s.on F.MER_CFG_PC_ALIGN && s.rd F.MER_STATUS_ID != 0 && (st == 1 || st == 2 || st == 4)
    && !s.on F.MER_STATUS_PC_WAIT then (s.wr F.MER_STATUS_PC_WAIT 1).raise 460
  else s

/-! ### The re-enable rule (R41) -/

/-- An enable that arrives during a shutdown is latched in the block's own bit and in SYS_PEND_STATUS; the first latch raises
SYS_PENDING_ENABLE (R41). -/
def State.latchPend (s : State) (own sys : Fld) : State := if s.on own then s else ((s.wr own 1).wr sys 1).raise 6

/-- The pending request is cleared (R41, R42). -/
def State.dropPend (s : State) (own sys : Fld) : State := (s.wr own 0).wr sys 0

/-! ### The DRAM controller's state, which the mode decides too (R371, Table AR-7) -/

/-- MEM_STATUS.STATE: OFF 0, INIT 1, ACTIVE 2, SR_ENTRY 3, SELF_REFRESH 4, SR_EXIT 5. -/
def State.memState (s : State) : Nat := s.rd F.MEM_STATUS_STATE

/-- Requests are served: ACTIVE, no INIT, no sweep, the DRAM clock running. -/
def State.memReady (s : State) : Bool :=
  s.memState == 2 && !s.on F.MEM_STATUS_INIT_BUSY && !s.on F.MEM_TRN_CTRL_BUSY && !s.sys.dramStopped

/-- A self-refresh exit is requested: it starts, or is latched while entry runs (R371). -/
def State.memWake (s : State) : State :=
  if s.memState = 4 then s.wr F.MEM_STATUS_STATE 5
  else if s.memState = 3 then s.latchPend F.MEM_STATUS_PENDING_ENABLE F.SYS_PEND_STATUS_MEM_SR
  else s

/-! ### Arming the sextant, which the mode decides too (R297, R298, R302, R333) -/

/-- Applies `f` to the sextant's state. -/
def State.sx (s : State) (f : Sxt → Sxt) : State := { s with sxt := f s.sxt }

/-- The statistics of a set and its prescalers start afresh (R297, R298). -/
def Sxt.cleared (x : Sxt) : Sxt :=
  { x with preStart := 0, preStop := 0, start := none, endedAt := none, n := 0, miss := 0, sum := 0, sumSq := 0
           least := 0x7FFFFFFF, greatest := -0x80000000 }

/-- Arms a set (R298): its own statistics clear; with GATE_SRC = 0b01 starts wait for a rising edge unless `edge`. -/
def State.sxtArm (s : State) (edge : Bool) : State :=
  ((s.wr F.SXT_STATUS_ARMED 1).wr F.SXT_STATUS_GATE_EDGE 0).wr F.SXT_STATUS_BUSY 0 |>.sx fun x => { x.cleared with edgeArmed := edge }

/-- The running set is aborted and its partial statistics are discarded. -/
def State.sxtAbort (s : State) : State :=
  (s.wr F.SXT_STATUS_ARMED 0).wr F.SXT_STATUS_BUSY 0 |>.sx fun x => { x.cleared with edgeArmed := false }

/-- EN is set (R302): armed, statistics cleared, but that with GATE_SRC = 0b01 a set waits for the rising edge of SXT_GATE that arms it
(R297); pending while the shutdown runs. In RESET and RECOVERY the bit alone is kept. -/
def State.sxtEnable (s : State) : State :=
  if s.sxt.closing then (s.wr F.SXT_CTRL_EN 1).latchPend F.SXT_STATUS_PENDING_ENABLE F.SYS_PEND_STATUS_SXT
  else if s.on F.SXT_CTRL_EN then s
  else if s.tilHeld then s.wr F.SXT_CTRL_EN 1
  else
    let s := (s.wr F.SXT_CTRL_EN 1).wr F.SXT_STATUS_DONE 0
    if s.rd F.SXT_CFG_GATE_SRC = 1 then s.sxtAbort else s.sxtArm false

/-- In SCAN and DERATED the firmware keeps a set of the firing latency armed (R333). It lets a set that is armed run to its end before it
takes the sources over, and enables a sextant that is off; a host's disable stands until the next entry to a mode or the next completed
set (DESIGN CHOICE, log entry 195). -/
def State.sxtKeep (s : State) : State :=
  if (s.mode ≠ mSCAN ∧ s.mode ≠ mDERATED) ∨ s.on F.SXT_STATUS_ARMED then s
  else
    let s := ((s.wr F.SXT_CFG_START_SRC 1).wr F.SXT_CFG_STOP_SRC 1).wr F.SXT_CFG_GATE_SRC 2
    if s.on F.SXT_CTRL_EN && !s.sxt.closing then s.sxtArm false else s.sxtEnable

/-! ### Transitions -/

/-- A mode transition: MODE, PREV_MODE and CAUSE in the same write, then SYS_MODE_CHANGE (R31). The host derate source clears
outside SCAN and DERATED (Table AR-13); the test source returns to the detector on entry to SPIN-UP, SCAN or DERATED (R72);
point cycles become due on entry to a running mode, a last cycle that still runs coming to its end first (R99); the derating profile
gates nothing outside the running modes (R52); DRAM is active from SPIN-UP to SAFE-STOP (Table AR-7); slot tags count from leaving STANDBY (R67), which discards an update session
(R421); the firmware arms the sextant (R333). -/
def State.transition (s : State) (m cause : Nat) : State :=
  let old := s.mode
  let runs (k : Nat) := k = mSCAN ∨ k = mCALIBRATE ∨ k = mDERATED
  let s := ((((s.wr F.SYS_MODE_MODE m).wr F.SYS_MODE_PREV_MODE old).wr F.SYS_MODE_CAUSE cause)).raise 0
  let s := if m = mSCAN ∨ m = mDERATED then s else { s with sys := { s.sys with hostDerate := false } }
  let s := if m = mSPINUP ∨ m = mSCAN ∨ m = mDERATED then
      { (s.wr F.TDC_TEST_CFG_SRC 0).wr F.TDC_STATUS_TEST_ACTIVE 0 with tdc := { s.tdc with srcHeld := none } } else s
  let s : State := if old = mSTANDBY ∧ m ≠ mSTANDBY then
      { s.wr F.BOOT_STATUS_SESSION 0 with
        tdc := { s.tdc with slotSeq := 0 }, boot := { s.boot with sessLen := 0, sessGot := 0, checked := 0 } }
    else s
  let s := if runs m then
      (if runs old then s else { s with his := { s.his with due := true, epoch := false, last := s.his.last && s.running } }.merWait)
    else { s.wr F.MER_STATUS_PC_WAIT 0 with his := { s.his with due := false }, det := { s.det with gated := 0 } }
  let s := if runs m ∨ m = mSPINUP ∨ m = mSAFESTOP then s.memWake else s
  s.showThrottle.waitDac.sxtKeep.settle m cause

/-- An orderly stop, or a MODE_SCAN waiting for its end, is superseded by a trigger with `cause` (R35, R37): STOPPING clears with what
the stop was to do in STANDBY, and the pending command is answered ABORTED. -/
def State.stopSuperseded (s : State) (cause : Nat) : State :=
  let s := { s.wr F.SYS_MODE_STOPPING 0 with sys := { s.sys with stopSR := false } }
  match s.sys.pendScan with
  | some tag => { s.wr F.SYS_PEND_STATUS_MODE_SCAN 0 with sys := { s.sys with pendScan := none } }.respond tag 6 cause
  | none => s

/-- A trigger of rank 6 outranks the orderly stop that a host command began (R35): the stop is given up and point cycles go on. -/
def State.stopGivenUp (s : State) (cause : Nat) : State :=
  if !s.on F.SYS_MODE_STOPPING then s
  else
    let s := s.stopSuperseded cause
    let s : State := { s with his := { s.his with last := false, due := !s.running } }
    if s.running then s else s.merWait

/-- CAUSE of an entry to DERATED (Table AR-11). -/
def State.derateCause (s : State) : Nat :=
  if s.on F.THM_STATUS_DERATE_SRC then 0x07 else if s.derateTil || s.derateEmi then 0x0E else 0x13

/-- A trigger of rank 6 may act: no orderly stop is in progress, or one of rank 7, which a host command began (R35). -/
def State.outranksStop (s : State) : Bool := !s.on F.SYS_MODE_STOPPING || s.sys.stopCause == 0x01

/-- SCAN enters DERATED while a derate source is present, and DERATED returns to SCAN when every source has cleared (Table
AR-8). Of an orderly stop in progress, a host command's gives way to a thermal or fault source, and to nothing else (R35). -/
def State.derateCheck (s : State) : State :=
  if s.mode = mSCAN ∧ s.derated ∧ (!s.on F.SYS_MODE_STOPPING ∨ (s.outranksStop ∧ s.derateCause ≠ 0x13)) then
    (s.stopGivenUp s.derateCause).transition mDERATED s.derateCause
  else if s.mode = mDERATED ∧ !s.derated ∧ !s.on F.SYS_MODE_STOPPING then s.transition mSCAN 0x0D
  else s

/-- The point cycle in progress becomes the last (R99). -/
def State.lastCycle (s : State) : State := if s.running then { s with his := { s.his with last := true } } else s

/-- Begins an orderly stop for `cause` (R32): MODE keeps the old mode and STOPPING reads 1; a trigger that arrives while one
runs joins it (R35): one of rank 5 takes a stop over that a host command began, whose command is answered ABORTED; of triggers of one
rank the stop keeps the cause of the first (DESIGN CHOICE, log entry 176). The point cycle in progress becomes the last. -/
def State.orderlyStop (s : State) (cause : Nat) : State :=
  if s.on F.SYS_MODE_STOPPING then
    if supersedes cause && s.outranksStop then
      State.answer { s with sys := { s.sys with stopCause := cause, stopSR := false } } 6 cause
    else s
  else if s.mode = mSPINUP ∨ s.mode = mSCAN ∨ s.mode = mCALIBRATE ∨ s.mode = mDERATED then
    let s := (s.wr F.SYS_MODE_STOPPING 1).wr F.MER_STATUS_PC_WAIT 0
    let s := { s with sys := { s.sys with stopCause := cause }, his := { s.his with last := true, due := false } }
    if supersedes cause then s.answer 6 cause else s
  else s

end Sys2Proof.Machine
end

