-- ==== Sys2Proof/Machine/Tillers.lean ====
section
/-! DEFINITION. One tiller's state and what every instruction shares: registers, local memories and their conditions, the furrow
view, the local registers, causes, traps and halts (chapter 04; the view's layout from chapter 03). -/

namespace Sys2Proof.Machine

/-! ### A tiller's registers and memories -/

/-- Tiller `n`. -/
def State.tiller (s : State) (n : Nat) : Tiller := Tab.get (fun _ => {}) s.til n

/-- Puts tiller `n`. -/
def State.setTiller (s : State) (n : Nat) (t : Tiller) : State := { s with til := Tab.set (fun _ => {}) s.til n t }

/-- Changes tiller `n`. -/
def State.onTiller (s : State) (n : Nat) (f : Tiller → Tiller) : State := s.setTiller n (f (s.tiller n))

/-- Scalar register `r`; s0 reads 0 (R136). -/
def Tiller.s (t : Tiller) (r : Nat) : Word := if r = 0 then 0 else Tab.get (fun _ => 0) t.sreg r

/-- Writes scalar register `r`; a write to s0 is discarded (R136). -/
def Tiller.setS (t : Tiller) (r : Nat) (w : Word) : Tiller :=
  if r = 0 then t else { t with sreg := Tab.set (fun _ => 0) t.sreg r w, badS := Tab.set (fun _ => false) t.badS r false }

/-- Vector register `r`. -/
def Tiller.v (t : Tiller) (r : Nat) : BitVec 128 := Tab.get (fun _ => 0) t.vreg r

/-- Writes vector register `r`. -/
def Tiller.setV (t : Tiller) (r : Nat) (w : BitVec 128) : Tiller :=
  { t with vreg := Tab.set (fun _ => 0) t.vreg r w, badV := Tab.set (fun _ => 0) t.badV r 0 }

/-- Marks scalar register `r` as holding a failed work-bank word. -/
def Tiller.markS (t : Tiller) (r : Nat) (bad : Bool) : Tiller :=
  if r = 0 then t else { t with badS := Tab.set (fun _ => false) t.badS r bad }

/-- Marks the 32-bit lanes of vector register `r` that hold a failed work-bank word. -/
def Tiller.markV (t : Tiller) (r mask : Nat) : Tiller := { t with badV := Tab.set (fun _ => 0) t.badV r mask }

/-- The `k` bytes of a byte memory from address `a`, as a number; unlisted bytes read `d`. -/
def Mem.load (d : Byte) (m : Tab Byte) (a : Nat) : Nat → Nat
  | 0 => 0
  | k + 1 => (Tab.get (fun _ => d) m a).toNat + 256 * Mem.load d m (a + 1) k

/-- Stores bytes from address `a` on. -/
def Mem.store (d : Byte) (m : Tab Byte) (a : Nat) : List Byte → Tab Byte
  | [] => m
  | b :: bs => Mem.store d (Tab.set (fun _ => d) m a b) (a + 1) bs

/-- Bytes `a` to `a + k - 1` of a byte memory. -/
def Mem.bytes (d : Byte) (m : Tab Byte) (a k : Nat) : List Byte := (List.range k).map fun i => Tab.get (fun _ => d) m (a + i)

/-- The 32-bit word `i` of data memory. -/
def Tiller.dword (t : Tiller) (i : Nat) : Word := BitVec.ofNat 32 (Mem.load 0 t.dmem (4 * i) 4)

/-- The 32-bit word `i` of instruction memory. -/
def Tiller.iword (t : Tiller) (i : Nat) : Word := BitVec.ofNat 32 (Mem.load 0 t.imem (4 * i) 4)

/-- Stores a word of data memory with a fresh check field (R113). -/
def Tiller.setDword (t : Tiller) (i : Nat) (w : Word) : Tiller :=
  { t with dmem := Mem.store 0 t.dmem (4 * i) (bytesOf 4 w.toNat), dmemCond := Tab.set (fun _ => .ok) t.dmemCond i .ok }

/-- Stores a word of data memory; the check is poisoned where the word is a work-bank word that failed (R38, R39, R112). -/
def Tiller.storeDword (t : Tiller) (i : Nat) (w : Word) (bad : Bool) : Tiller :=
  let t := t.setDword i w
  if bad then { t with dmemCond := Tab.set (fun _ => .ok) t.dmemCond i .poison } else t

/-- Stores a word of instruction memory with a fresh check field (R113). -/
def Tiller.setIword (t : Tiller) (i : Nat) (w : Word) : Tiller :=
  { t with imem := Mem.store 0 t.imem (4 * i) (bytesOf 4 w.toNat), imemCond := Tab.set (fun _ => .ok) t.imemCond i .ok }

/-! ### Causes, counts, halts and traps -/

/-- Sets bit `b` of TIL_EVT_CAUSE; event 192 + n is raised when an enabled bit changes from 0 to 1 (R134). -/
def State.tilCause (s : State) (n b : Nat) : State :=
  let old := s.rd (F.TIL_EVT_CAUSE_CAUSE n)
  if old.testBit b then s
  else (s.wr (F.TIL_EVT_CAUSE_CAUSE n) (old + 2 ^ b)).raiseIf ((s.rd (F.TIL_EVT_EN_EN n)).testBit b) (192 + n)

/-- Counts a corrected error; reaching TIL_ECC_CE_THR.LIMIT sets CE_LIMIT (R110). A count that stood at LIMIT or above when LIMIT was
written reaches it no more before a read clears it (DESIGN CHOICE, log entry 217). -/
def State.tilCE (s : State) (n : Nat) : State :=
  let old := s.rd (F.TIL_ECC_CE_CNT_COUNT n)
  let s' := s.bump (F.TIL_ECC_CE_CNT_COUNT n) 1
  let lim := s.rd F.TIL_ECC_CE_THR_LIMIT
  if old < lim ∧ lim ≤ s'.rd (F.TIL_ECC_CE_CNT_COUNT n) then s'.tilCause n 7 else s'

/-- Counts a fresh uncorrectable error in TIL_ECC_UE_CNT. -/
def State.tilUE (s : State) (n : Nat) : State := s.bump (F.TIL_ECC_UE_CNT_COUNT n) 1

/-- What the reference program has to execute again when it resumes after a halt: the EMIT it was stalled on (R172). -/
def Tiller.redo (t : Tiller) : Option Nat :=
  match t.stall with
  | some (.emit _ _ l) => if t.refRuns then some l else none
  | _ => none

/-- The tiller stops; whatever it was stalled on is abandoned (R126). -/
def Tiller.halted (t : Tiller) (cause : Nat) : Tiller :=
  { t with state := .halted, haltCause := cause, haltReq := false, stepping := false, stall := none, transferring := false,
           refRedo := t.redo }

/-- Halts tiller `n` with a HALT_CAUSE. A halt by an uncorrectable error sets HALT_UE and is a fault derate source (R111, R131). -/
def State.tilHalt (s : State) (n cause : Nat) : State :=
  let s := s.onTiller n fun t => t.halted cause
  if (s.tiller n).haltUE then (s.tilCause n 2).derateCheck else s

/-- A trap of tiller `n` (R130, R160): TRAP_CAUSE, EPC and, where the cause has one, TRAP_ADDR; cause TRAP; then a halt (trap
inside a trap, or TRAP_MODE = 0) or the handler at TIL_TRAP_VEC. -/
def State.trap (s : State) (n cause : Nat) (addr : Option Nat) : State :=
  let t := s.tiller n
  let s := s.setTiller n { t with trapCause := cause, epc := t.pc, trapAddr := addr.getD t.trapAddr }
  let s := (s.tilCause n 3).countTil n 9 1
  if t.inTrap then s.tilHalt n 5
  else if s.rd (F.TIL_CFG_TRAP_MODE n) = 0 then s.tilHalt n 3
  else s.onTiller n fun t => { t with inTrap := true, pc := 4 * s.rd (F.TIL_TRAP_VEC_WORD n) }

/-! ### The furrow view (R96, Tables HF-3 to HF-6) -/

/-- Bank `b`, 0 or 1. -/
def State.bank (s : State) (b : Nat) : Bank := if b = 0 then s.his.bank0 else s.his.bank1

/-- Puts bank `b`. -/
def State.setBank (s : State) (b : Nat) (k : Bank) : State :=
  if b = 0 then { s with his := { s.his with bank0 := k } } else { s with his := { s.his with bank1 := k } }

/-- Lane header of channel `c` in a bank. -/
def Bank.lane (k : Bank) (c : Nat) : Lane := Tab.get (fun _ => {}) k.lanes c

/-- Puts a lane header. -/
def Bank.setLane (k : Bank) (c : Nat) (l : Lane) : Bank := { k with lanes := Tab.set (fun _ => {}) k.lanes c l }

/-- Window `w` of a lane header. -/
def Lane.win (l : Lane) (w : Nat) : Win := if w = 0 then l.win0 else if w = 1 then l.win1 else l.win2

/-- Puts window `w`. -/
def Lane.setWin (l : Lane) (w : Nat) (x : Win) : Lane :=
  if w = 0 then { l with win0 := x } else if w = 1 then { l with win1 := x } else { l with win2 := x }

/-- Key of harrow bin `i` of window `w` of channel `c`. -/
def binKey (c w i : Nat) : Nat := (c * 3 + w) * 64 + i

/-- Harrow bin `i` of window `w` of channel `c`. -/
def Bank.bin (k : Bank) (c w i : Nat) : Nat := Tab.get (fun _ => 0) k.bins (binKey c w i)

/-- The window word of Table HF-6. -/
def Win.word (x : Win) : Nat := x.src * 2 ^ 24 + x.en.toNat * 2 ^ 23 + x.exposure * 2 ^ 16 + x.start

/-- The candidate record of Table HF-1 for candidate `i` of `n` of lane `l`. -/
def Cand.record (x : Cand) (l i n : Nat) : Nat :=
  x.centre * 2 ^ 48 + x.fval * 2 ^ 32 + x.width * 2 ^ 24 + l * 2 ^ 21 + i * 2 ^ 19 + n * 2 ^ 17 + x.last.toNat * 2 ^ 16
    + x.edge.toNat * 2 ^ 15

/-- Record `i` of a list of candidates; 0 where there is none. -/
def candRecord (cs : List Cand) (l i : Nat) : Nat :=
  match cs[i]? with
  | some x => x.record l i cs.length
  | none => 0

/-- The word at offset `o` (0 to 0x3C) of a lane header (Table HF-6). -/
def Lane.word (x : Lane) (l o : Nat) : Nat :=
  if o = 0x00 then x.litHarrow * 2 ^ 24 + x.litPlough * 2 ^ 16 + x.flags
  else if o = 0x04 then x.blankSum * 2 ^ 16 + x.fallowAmb
  else if o = 0x08 then x.unlitAmb
  else if o = 0x0C then x.harrowOut * 2 ^ 16 + x.kUsed * 2 ^ 12 + x.unlitSlots
  else if o = 0x10 then x.early * 2 ^ 16 + x.ovf
  else if o = 0x14 then x.cands.length * 2 ^ 16 + x.prefire
  else if o < 0x30 then
    let r := candRecord x.cands l ((o - 0x18) / 8)
    if o % 8 = 0 then r % 2 ^ 32 else r / 2 ^ 32
  else if o = 0x30 then x.win0.word else if o = 0x34 then x.win1.word else if o = 0x38 then x.win2.word
  else 0

/-- The word of a bank at work-bank offset `o` (0x000 to 0xAFC from 0x7000) of furrow `f` (Table HF-5). -/
def Bank.word (k : Bank) (f o : Nat) : Nat :=
  if o = 0x0 then k.pcIndex
  else if o = 0x4 then k.dmax * 2 ^ 16 + k.h * 2 ^ 8 + k.p
  else if o = 0x8 then k.fallowTs % 2 ^ 32
  else if o = 0xC then k.fallowTs / 2 ^ 32 % 2 ^ 32
  else if o = 0x10 then k.tilt * 2 ^ 16 + k.azimuth
  else if 0x40 ≤ o ∧ o < 0x1C0 then
    let l := (o - 0x40) / 0x40
    (k.lane (6 * f + l)).word l ((o - 0x40) % 0x40)
  else if 0x200 ≤ o ∧ o < 0xB00 then
    let l := (o - 0x200) / 0x180
    let w := (o - 0x200) % 0x180 / 0x80
    let i := (o - 0x200) % 0x80 / 2
    k.bin (6 * f + l) w i + 2 ^ 16 * k.bin (6 * f + l) w (i + 1)
  else 0

/-- Live page of channel `c`. -/
def State.liveLane (s : State) (c : Nat) : LiveLane := Tab.get (fun _ => {}) s.his.live c

/-- A window word as the live page shows it: EXPOSURE reads 0 there (Table HF-6). -/
def Win.liveWord (x : Win) : Nat := ({ x with exposure := 0 } : Win).word

/-- The word at offset `o` (0 to 0x1BC from 0x6000) of the live page of furrow `f` (Table HF-4). -/
def State.liveWord (s : State) (f o : Nat) : Nat :=
  if o = 0 then
    (s.running && s.his.deadlinePassed).toNat * 2 ^ 31 + Tab.get (fun _ => 0) s.his.lanesDone f * 2 ^ 28
      + s.rd F.HIS_STATUS_PC_INDEX
  else if o < 0x40 then 0
  else
    let l := (o - 0x40) / 0x40
    let q := (o - 0x40) % 0x40
    let x := s.liveLane (6 * f + l)
    if q < 0x18 then
      let r := candRecord x.cands l (q / 8)
      if q % 8 = 0 then r % 2 ^ 32 else r / 2 ^ 32
    else if q = 0x18 then x.win0.liveWord else if q = 0x1C then x.win1.liveWord else if q = 0x20 then x.win2.liveWord
    else if q = 0x24 then x.cands.length * 2 ^ 16 + x.fallowPrev
    else 0

/-- Plough bin `k` of channel `c`. -/
def State.ploughBin (s : State) (c k : Nat) : Nat := Tab.get (fun _ => 0) s.his.plough (c * 2048 + k)

/-- The word at offset `o` of the view of furrow `f`; `own` is the work bank shown, if one is owned (R96, R115). -/
def State.viewWord (s : State) (f : Nat) (own : Option Nat) (o : Nat) : Word :=
  BitVec.ofNat 32 <|
    if o < 0x6000 then
      let c := 6 * f + o / 0x1000
      let k := o % 0x1000 / 2
      s.ploughBin c k + 2 ^ 16 * s.ploughBin c (k + 1)
    else if o < 0x61C0 then s.liveWord f (o - 0x6000)
    else if 0x7000 ≤ o ∧ o < 0x7B00 then
      match own with
      | some b => (s.bank b).word f (o - 0x7000)
      | none => 0
    else 0

/-- The worse of two conditions. -/
def Cond.join (a b : Cond) : Cond :=
  match a, b with
  | .ue, _ => .ue | _, .ue => .ue
  | .poison, _ => .poison | _, .poison => .poison
  | .ce, _ => .ce | _, .ce => .ce
  | .ok, .ok => .ok

/-- The unlisted condition of a protected word. -/
def okCond (_ : Nat) : Cond := .ok

/-- Condition of header word `key` of a bank. -/
def Bank.headCond (k : Bank) (key : Nat) : Cond := Tab.get okCond k.hcond key

/-- Puts the condition of a header word of bank `b`. -/
def State.setHead (s : State) (b key : Nat) (x : Cond) : State :=
  let k := s.bank b
  s.setBank b { k with hcond := Tab.set okCond k.hcond key x }

/-- Key of the header word at view offset `o` (0x7000 to 0x71FC) of furrow `f`: the furrow's own, or a lane header's. -/
def headKey (f o : Nat) : Nat := if o < 0x7040 then 18432 + 16 * f + (o - 0x7000) / 4 else 96 * f + (o - 0x7040) / 4

/-- Key of the word at view offset `o` of the live page of furrow `f`. -/
def liveKey (f o : Nat) : Nat := 112 * f + (o - 0x6000) / 4

/-- Key of the first of the two harrow bins in the word at view offset `o` (0x7200 to 0x7AFC) of furrow `f`. -/
def viewBin (f o : Nat) : Nat := binKey (6 * f + (o - 0x7200) / 0x180) ((o - 0x7200) % 0x180 / 0x80) ((o - 0x7200) % 0x80 / 2)

/-- The channel that the word at offset `o` of the view of furrow `f` belongs to; a word of all lanes counts for lane 0 (R95; DESIGN
CHOICE, log entry 180). -/
def viewChannel (f o : Nat) : Nat :=
  if o < 0x6000 then 6 * f + o / 0x1000
  else if 0x6040 ≤ o ∧ o < 0x61C0 then 6 * f + (o - 0x6040) / 0x40
  else if 0x7040 ≤ o ∧ o < 0x71C0 then 6 * f + (o - 0x7040) / 0x40
  else if 0x7200 ≤ o ∧ o < 0x7B00 then 6 * f + (o - 0x7200) / 0x180
  else 6 * f

/-- Key of the first of the two plough bins in the word at view offset `o` of furrow `f`. -/
def viewPlough (f o : Nat) : Nat := (6 * f + o / 0x1000) * 2048 + o % 0x1000 / 2

/-- The condition of the word at offset `o` of the view of furrow `f` (R95). -/
def State.viewCond (s : State) (f : Nat) (own : Option Nat) (o : Nat) : Cond :=
  if o < 0x6000 then
    Cond.join (Tab.get okCond s.his.ploughCond (viewPlough f o)) (Tab.get okCond s.his.ploughCond (viewPlough f o + 1))
  else if o < 0x61C0 then Tab.get okCond s.his.liveCond (liveKey f o)
  else if 0x7000 ≤ o ∧ o < 0x7B00 then
    match own with
    | some b =>
      if o < 0x7200 then (s.bank b).headCond (headKey f o)
      else Cond.join (Tab.get okCond (s.bank b).cond (viewBin f o)) (Tab.get okCond (s.bank b).cond (viewBin f o + 1))
    | none => .ok
  else .ok

/-- The conditions of the protected words behind the view word at offset `o` of furrow `f`: two for a pair of bins (R95). -/
def State.viewConds (s : State) (f : Nat) (own : Option Nat) (o : Nat) : List Cond :=
  let pair (t : Tab Cond) (k : Nat) : List Cond := [Tab.get okCond t k, Tab.get okCond t (k + 1)]
  if o < 0x6000 then pair s.his.ploughCond (viewPlough f o)
  else match own with
    | some b => if 0x7200 ≤ o ∧ o < 0x7B00 then pair (s.bank b).cond (viewBin f o) else [s.viewCond f own o]
    | none => [s.viewCond f own o]

/-- Protected word `i` of those behind the view word at offset `o` of furrow `f` is written back corrected (R95). -/
def State.cleanView (s : State) (f : Nat) (own : Option Nat) (o i : Nat) : State :=
  if o < 0x6000 then { s with his := { s.his with ploughCond := Tab.set okCond s.his.ploughCond (viewPlough f o + i) .ok } }
  else if o < 0x61C0 then { s with his := { s.his with liveCond := Tab.set okCond s.his.liveCond (liveKey f o) .ok } }
  else match own with
    | some b =>
      if o < 0x7200 then s.setHead b (headKey f o) .ok
      else
        let k := s.bank b
        s.setBank b { k with cond := Tab.set okCond k.cond (viewBin f o + i) .ok }
    | none => s

/-- Counts corrected errors of the fabric; HIS_ECC_CE is raised when the counter reaches LIMIT, and again only after a read has
cleared it (R95). -/
def State.hisCE (s : State) : State :=
  let s := s.bump F.HIS_ECC_CE_CNT_COUNT 1
  if s.rd F.HIS_ECC_CE_THR_LIMIT ≤ s.rd F.HIS_ECC_CE_CNT_COUNT ∧ !s.his.ceRaised then
    { s with his := { s.his with ceRaised := true } }.raise 129 else s

/-- Sets a bit of CH_FLAGS of channel `c` in bank `b` (Table HF-2). -/
def State.flagLane (s : State) (b c bit : Nat) : State :=
  let k := s.bank b
  let l := k.lane c
  s.setBank b (k.setLane c { l with flags := withBit l.flags bit true })

/-- A fresh uncorrectable error of the fabric in channel `c`: counted, FABRIC_ECC set in the lane of bank `b`, HIS_INTEGRITY at
most once per lane per point cycle (R95). -/
def State.hisUE (s : State) (b c : Nat) : State :=
  let s := (s.bump F.HIS_ECC_UE_CNT_COUNT 1).flagLane b c 6
  if s.his.integrity.contains c then s
  else { s with his := { s.his with integrity := c :: s.his.integrity } }.raise 128

/-- A read of a view word by tiller or host: its data, its condition, and the state after the error handling of R95 (each
correctable word behind it is corrected and written back; an uncorrectable one stays as it stands). -/
def State.readView (s : State) (f : Nat) (own : Option Nat) (o : Nat) : Word × Cond × State :=
  let c := match s.viewCond f own o with
    | .ce => .ok
    | c => c
  (s.viewWord f own o, c, (s.viewConds f own o).zipIdx.foldl (fun s e =>
    match e.1 with
    | .ce => (s.cleanView f own o e.2).hisCE
    | .ue => s.hisUE (if o < 0x7000 then s.his.active else own.getD s.his.active) (viewChannel f o)
    | _ => s) s)

/-! ### Local registers (Table TA-2) -/

/-- Tiller cycles from instant `t` to `u` (1.0 GHz, R104). -/
def cyclesTo (t u : Nat) : Nat := (u - t) / 1000

/-- A countdown register: at most 5 cycles below the true number of cycles left, never above it (R118); the exact value is a
free value. -/
def State.countdown (s : State) (t u : Nat) : Nat × State :=
  let (x, s') := s.drawFree 8
  (cyclesTo t u - x % 6, s')

/-- LSTATUS of tiller `n`. -/
def State.lstatus (s : State) (n : Nat) : Nat :=
  let t := s.tiller n
  (s.on F.HIS_STATUS_CAL_RECIPE && s.running).toNat * 2 ^ 19 + s.running.toNat * 2 ^ 18
    + (s.running && s.his.deadlinePassed).toNat * 2 ^ 17 + t.poisonSeen.toNat * 2 ^ 16 + t.own.isSome.toNat * 2 ^ 15
    + (t.own.isSome && t.emitted).toNat * 2 ^ 14 + (32 - t.fwq.length) * 2 ^ 8 + t.candQ.length

/-- Bytes in the output queue: released blocks and the one being transferred. -/
def State.oqUsed (s : State) : Nat :=
  (s.oq.blocks.map fun b => b.bytes.length).sum +
    match s.oq.transfer with
    | some n => match (s.tiller n).stall with
      | some (.emit _ _ len) => len + 4
      | _ => 0
    | none => 0

/-- Free bytes of the output queue, the DROPPED reserve included (Table TA-11). -/
def State.oqFree (s : State) : Nat := 65536 - s.oqUsed

/-- A load of local register `a` (0x3_0000 to 0x3_003C) by tiller `n` at instant `t`. -/
def State.localReg (s : State) (n a t : Nat) : Word × State :=
  let x := s.tiller n
  let cyc := cyclesTo s.sys.resetEnd t
  let pure (v : Nat) : Word × State := (BitVec.ofNat 32 v, s)
  if a = 0x30000 then pure (s.lstatus n)
  else if a = 0x30004 then
    match x.own with
    | some (_, i) => pure (2 ^ 31 + i)
    | none => pure 0
  else if a = 0x30008 then
    if s.running ∧ !s.his.deadlinePassed then
      let (v, s') := s.countdown t s.his.deadlineAt
      (BitVec.ofNat 32 v, s')
    else pure 0
  else if a = 0x3000C then
    if x.own.isSome then
      let (v, s') := s.countdown t x.blockDue
      (BitVec.ofNat 32 v, s')
    else pure 0
  else if a = 0x30010 then (BitVec.ofNat 32 cyc, s.setTiller n { x with cycleHi := cyc / 2 ^ 32 % 2 ^ 32 })
  else if a = 0x30014 then pure x.cycleHi
  else if a = 0x30018 then pure n
  else if a = 0x3001C then pure s.oqFree
  else if a = 0x30020 then pure x.trapCause
  else if a = 0x30024 then pure x.epc
  else if a = 0x30028 then pure x.trapAddr
  else if a = 0x3002C then pure x.attnPc
  else if a = 0x30030 then pure x.attnSrc
  else pure 0

/-! ### One word of the local address space -/

/-- A read of DMEM word `i` by tiller `n`'s load: a single-bit error is corrected, written back and counted (R110); a fresh
uncorrectable word is counted and sets DMEM_UE (R112). -/
def State.readDmem (s : State) (n i : Nat) : Word × Cond × State :=
  let t := s.tiller n
  match Tab.get (fun _ => Cond.ok) t.dmemCond i with
  | .ok => (t.dword i, .ok, s)
  | .ce => (t.dword i, .ok, (s.setTiller n { t with dmemCond := Tab.set (fun _ => .ok) t.dmemCond i .ok }).tilCE n)
  | .ue => (t.dword i, .ue, (s.tilUE n).tilCause n 5)
  | .poison => (t.dword i, .poison, s)

/-- Which part of Table TA-1 an address lies in, for loads. -/
inductive Region where
  | dmem | view | local | none
  deriving DecidableEq, Repr

/-- The region of a local address (Table TA-1). -/
def regionOf (a : Nat) : Region :=
  if 0x10000 ≤ a ∧ a < 0x20000 then .dmem
  else if 0x20000 ≤ a ∧ a < 0x28000 then .view
  else if 0x30000 ≤ a ∧ a < 0x30040 then .local
  else .none

/-- Reads the aligned word at local address `a` in DMEM or the furrow view. -/
def State.readWord (s : State) (n a : Nat) : Word × Cond × State :=
  match regionOf a with
  | .dmem => s.readDmem n ((a - 0x10000) / 4)
  | .view => s.readView n ((s.tiller n).own.map Prod.fst) (a - 0x20000)
  | _ => (0, .ok, s)

/-- Reads `k` aligned words from local address `a` on; the conditions are listed with the data. -/
def State.readWords (s : State) (n a : Nat) : Nat → List (Word × Cond) × State
  | 0 => ([], s)
  | k + 1 =>
    let (w, c, s1) := s.readWord n a
    let (r, s2) := s1.readWords n (a + 4) k
    ((w, c) :: r, s2)

/-- Whether a word was returned as uncorrectable or poisoned. -/
def Cond.bad : Cond → Bool
  | .ue => true
  | .poison => true
  | _ => false

end Sys2Proof.Machine
end

