-- ==== Sys2Proof/Machine/Operands.lean ====
section
/-! DEFINITION. Krytold instructions as the tillers decode them: the operand forms of Tables KI-3 to KI-8 and the decoding of
instruction words (R140, R141). -/

namespace Sys2Proof.Machine

/-- Scalar ALU operations with two register operands (Table KI-5). -/
inductive Alu where
  | add | sub | and | or | xor | sll | srl | sra | slt | sltu | min | max | minu | maxu | mul | mulh | mulhu | divu | remu
  | adds | subs
  deriving DecidableEq, Repr

/-- Vector operations per lane (Table KI-6, FN 0x00 to 0x10). -/
inductive Valu where
  | add | sub | addsu | subsu | adds | subs | mul | min | max | mins | maxs | and | or | xor | cmpeq | cmpgtu | cmpgt
  deriving DecidableEq, Repr

/-- A Krytold instruction with its fields. Registers are numbers 0 to 31; `imm` is the 16-bit field, `off` the branch field as
encoded; `w` is the lane width bit of vector operations. -/
inductive KOp where
  | alu (op : Alu) (rd ra rb : Nat)
  | cmp (ra rb : Nat)
  | tst (ra rb : Nat)
  | slli (rd ra n : Nat)
  | srli (rd ra n : Nat)
  | srai (rd ra n : Nat)
  | extu (rd ra pos width : Nat)
  | clz (rd ra : Nat)
  | popc (rd ra : Nat)
  | addi (rd ra imm : Nat)
  | andi (rd ra imm : Nat)
  | ori (rd ra imm : Nat)
  | xori (rd ra imm : Nat)
  | lui (rd imm : Nat)
  | cmpi (ra imm : Nat)
  | slti (rd ra imm : Nat)
  | lw (rd ra imm : Nat)
  | sw (rs ra imm : Nat)
  | vld (vd ra imm : Nat)
  | vst (vs ra imm : Nat)
  | vbwl (vd ra rb : Nat)
  | bc (cond off : Nat)
  | jal (rd off : Nat)
  | jalr (rd ra imm : Nat)
  | valu (op : Valu) (w : Bool) (vd va vb : Nat)
  | vsel (vd va vb : Nat)
  | vslli (w : Bool) (vd va n : Nat)
  | vsrli (w : Bool) (vd va n : Nat)
  | vsrai (w : Bool) (vd va n : Nat)
  | vzxl (vd va : Nat)
  | vzxh (vd va : Nat)
  | vnars (vd va vb : Nat)
  | vsplat (w : Bool) (vd ra : Nat)
  | vext (w : Bool) (rd va lane : Nat)
  | vins (w : Bool) (vd ra lane : Nat)
  | vrsum (w : Bool) (rd va : Nat)
  | vrmaxu (w : Bool) (rd va : Nat)
  | vmacc (vd va vb p : Nat)
  | vpidx (rd va rb : Nat)
  | vcent (rd va rb : Nat)
  | vcoat (vd va rb : Nat)
  | fsend (ra : Nat)
  | frecvN (rd : Nat)
  | frecvW (rd : Nat)
  | emit (rd ra rb : Nat)
  | nop
  | trap
  | tret
  | aret
  | fence
  | rdfl (rd : Nat)
  | wrfl (ra : Nat)
  deriving DecidableEq, Repr

/-- The two-register ALU operation of FN (Table KI-5). -/
def aluOf : Nat → Option Alu
  | 0x00 => some .add | 0x01 => some .sub | 0x02 => some .and | 0x03 => some .or | 0x04 => some .xor | 0x05 => some .sll
  | 0x06 => some .srl | 0x07 => some .sra | 0x08 => some .slt | 0x09 => some .sltu | 0x0A => some .min | 0x0B => some .max
  | 0x0C => some .minu | 0x0D => some .maxu | 0x0E => some .mul | 0x0F => some .mulh | 0x10 => some .mulhu
  | 0x11 => some .divu | 0x12 => some .remu | 0x1B => some .adds | 0x1C => some .subs
  | _ => none

/-- The lane operation of FN (Table KI-6). -/
def valuOf : Nat → Option Valu
  | 0x00 => some .add | 0x01 => some .sub | 0x02 => some .addsu | 0x03 => some .subsu | 0x04 => some .adds | 0x05 => some .subs
  | 0x06 => some .mul | 0x07 => some .min | 0x08 => some .max | 0x09 => some .mins | 0x0A => some .maxs | 0x0B => some .and
  | 0x0C => some .or | 0x0D => some .xor | 0x0E => some .cmpeq | 0x0F => some .cmpgtu | 0x10 => some .cmpgt
  | _ => none

/-- `x` when `b` holds. -/
def guarded {α : Type} (b : Bool) (x : Option α) : Option α := if b then x else none

/-- The ALU group (OP = 0x01, Table KI-5). -/
def decodeAlu (rd ra rb x fn : Nat) : Option KOp :=
  match aluOf fn with
  | some op => guarded (x == 0) (some (.alu op rd ra rb))
  | none => match fn with
    | 0x13 => guarded (rd == 0 && x == 0) (some (.cmp ra rb))
    | 0x14 => guarded (rd == 0 && x == 0) (some (.tst ra rb))
    | 0x15 => guarded (rb == 0) (some (.slli rd ra x))
    | 0x16 => guarded (rb == 0) (some (.srli rd ra x))
    | 0x17 => guarded (rb == 0) (some (.srai rd ra x))
    | 0x18 => some (.extu rd ra x rb)
    | 0x19 => guarded (rb == 0 && x == 0) (some (.clz rd ra))
    | 0x1A => guarded (rb == 0 && x == 0) (some (.popc rd ra))
    | _ => none

/-- The VALU group (OP = 0x20, Table KI-6): X[10] is the lane width, X[9:6] must be 0. -/
def decodeValu (vd va vb x fn : Nat) : Option KOp :=
  let w := x / 16 == 1
  guarded (x % 16 == 0) <|
    match valuOf fn with
    | some op => some (.valu op w vd va vb)
    | none => match fn with
      | 0x11 => some (.vsel vd va vb)
      | 0x12 => guarded (vb < (if w then 32 else 16)) (some (.vslli w vd va vb))
      | 0x13 => guarded (vb < (if w then 32 else 16)) (some (.vsrli w vd va vb))
      | 0x14 => guarded (vb < (if w then 32 else 16)) (some (.vsrai w vd va vb))
      | 0x15 => guarded (vb == 0 && !w) (some (.vzxl vd va))
      | 0x16 => guarded (vb == 0 && !w) (some (.vzxh vd va))
      | 0x17 => guarded (!w) (some (.vnars vd va vb))
      | _ => none

/-- The VXFER group (OP = 0x21, Table KI-7): X[10] = W, X[9] must be 0, X[8:6] = LANE. -/
def decodeVxfer (d a b x fn : Nat) : Option KOp :=
  let w := x / 16 == 1
  let lane := x % 8
  guarded (x / 8 % 2 == 0 && b == 0) <|
    match fn with
    | 0x00 => guarded (lane == 0) (some (.vsplat w d a))
    | 0x01 => guarded (!(w && 3 < lane)) (some (.vext w d a lane))
    | 0x02 => guarded (!(w && 3 < lane)) (some (.vins w d a lane))
    | 0x03 => guarded (lane == 0) (some (.vrsum w d a))
    | 0x04 => guarded (lane == 0) (some (.vrmaxu w d a))
    | _ => none

/-- The FMSG group (OP = 0x30, R154): FRECV names an even register other than s0 (R141). -/
def decodeFmsg (d a b x fn : Nat) : Option KOp :=
  match fn with
  | 0x00 => guarded (d == 0 && b == 0 && x == 0) (some (.fsend a))
  | 0x01 => guarded (a == 0 && b == 0 && x == 0 && d % 2 == 0 && d != 0) (some (.frecvN d))
  | 0x02 => guarded (a == 0 && b == 0 && x == 0 && d % 2 == 0 && d != 0) (some (.frecvW d))
  | _ => none

/-- The SYS group (OP = 0x3F, Table KI-8). -/
def decodeSys (d a b x fn : Nat) : Option KOp :=
  let bare := d == 0 && a == 0 && b == 0 && x == 0
  match fn with
  | 0x00 => guarded bare (some .nop)
  | 0x01 => guarded bare (some .trap)
  | 0x02 => guarded bare (some .tret)
  | 0x03 => guarded bare (some .aret)
  | 0x04 => guarded bare (some .fence)
  | 0x05 => guarded (a == 0 && b == 0 && x == 0) (some (.rdfl d))
  | 0x06 => guarded (d == 0 && b == 0 && x == 0) (some (.wrfl a))
  | _ => none

/-- The Krytold instruction that a 32-bit word encodes (Tables KI-3, KI-4); none where the word is ILLEGAL by its encoding
(R140, R141). TRET and ARET out of place are ILLEGAL by the tiller's state, which their meanings check. -/
def decodeKrytold (w : Word) : Option KOp :=
  let f (hi lo : Nat) := Word.field w hi lo
  let d := f 25 21
  let a := f 20 16
  let b := f 15 11
  let x := f 10 6
  let fn := f 5 0
  let imm := f 15 0
  match f 31 26 with
  | 0x01 => decodeAlu d a b x fn
  | 0x02 => some (.addi d a imm)
  | 0x03 => some (.andi d a imm)
  | 0x04 => some (.ori d a imm)
  | 0x05 => some (.xori d a imm)
  | 0x06 => guarded (a == 0) (some (.lui d imm))
  | 0x07 => guarded (d == 0) (some (.cmpi a imm))
  | 0x08 => some (.slti d a imm)
  | 0x09 => some (.lw d a imm)
  | 0x0A => some (.sw d a imm)
  | 0x0B => some (.vld d a imm)
  | 0x0C => some (.vst d a imm)
  | 0x0D => guarded (x == 0 && fn == 0) (some (.vbwl d a b))
  | 0x10 => guarded (!(12 ≤ f 25 22 && f 25 22 ≤ 14)) (some (.bc (f 25 22) (f 21 0)))
  | 0x11 => some (.jal d (f 20 0))
  | 0x12 => some (.jalr d a imm)
  | 0x20 => decodeValu d a b x fn
  | 0x21 => decodeVxfer d a b x fn
  | 0x28 => guarded (x / 2 == 0 && fn == 0 && a % 2 == 0) (some (.vmacc d a b (x % 2)))
  | 0x29 => guarded (x == 0 && fn == 0) (some (.vpidx d a b))
  | 0x2A => guarded (x == 0 && fn == 0) (some (.vcent d a b))
  | 0x2B => guarded (x == 0 && fn == 0) (some (.vcoat d a b))
  | 0x30 => decodeFmsg d a b x fn
  | 0x31 => guarded (x == 0 && fn == 0) (some (.emit d a b))
  | 0x3F => decodeSys d a b x fn
  | _ => none

/-- The sign-extended 16-bit immediate. -/
def simm (imm : Nat) : Word := BitVec.ofInt 32 (signed 16 imm)

/-- The zero-extended 16-bit immediate. -/
def uimm (imm : Nat) : Word := BitVec.ofNat 32 (imm % 2 ^ 16)

/-! ### Vector lanes (R139, R148) -/

/-- The lanes of a vector as numbers, lane 0 first: `n` lanes of `w` bits. -/
def lanesOf (w n : Nat) (v : BitVec 128) : List Nat := (List.range n).map fun i => v.toNat / 2 ^ (w * i) % 2 ^ w

/-- The vector that lanes of `w` bits spell, lane 0 first. -/
def packLanes (w : Nat) : List Nat → Nat
  | [] => 0
  | x :: xs => x % 2 ^ w + 2 ^ w * packLanes w xs

/-- The eight 16-bit lanes. -/
def halves (v : BitVec 128) : List Nat := lanesOf 16 8 v

/-- The four 32-bit lanes. -/
def words (v : BitVec 128) : List Nat := lanesOf 32 4 v

/-- A vector from eight 16-bit lanes. -/
def ofHalves (l : List Nat) : BitVec 128 := BitVec.ofNat 128 (packLanes 16 l)

/-- A vector from four 32-bit lanes. -/
def ofWords (l : List Nat) : BitVec 128 := BitVec.ofNat 128 (packLanes 32 l)

/-- The lanes at width bit `w`: 0 eight 16-bit, 1 four 32-bit (R148). -/
def lanesW (w : Bool) (v : BitVec 128) : List Nat := if w then words v else halves v

/-- A vector from lanes at width bit `w`. -/
def ofLanesW (w : Bool) (l : List Nat) : BitVec 128 := if w then ofWords l else ofHalves l

/-- Bits of a lane at width bit `w`. -/
def laneBits (w : Bool) : Nat := if w then 32 else 16

end Sys2Proof.Machine
end

