-- ==== Sys2Proof/Machine/Flags.lean ====
section
/-! DEFINITION. The tillers' flags (Table KI-2): the computations of Z, N, C, V and the sticky S, and the branch conditions of
Table KI-9. -/

namespace Sys2Proof.Machine

/-- FLAGS from its five bits, keeping the order of Table KI-2. -/
def flagsOf (z n c v s : Bool) : Nat := z.toNat + 2 * n.toNat + 4 * c.toNat + 8 * v.toNat + 16 * s.toNat

def fZ (f : Nat) : Bool := f.testBit 0
def fN (f : Nat) : Bool := f.testBit 1
def fC (f : Nat) : Bool := f.testBit 2
def fV (f : Nat) : Bool := f.testBit 3
def fS (f : Nat) : Bool := f.testBit 4

/-- Flags of a compare a − b (R144): Z, N of the 32-bit difference, C the unsigned borrow, V the signed overflow; S is kept. -/
def cmpFlags (f : Nat) (a b : Word) : Nat :=
  let t := a - b
  flagsOf (t == 0) t.msb (decide (a.toNat < b.toNat)) (decide (a.toInt - b.toInt ≠ t.toInt)) (fS f)

/-- Flags of TST (Table KI-5): Z and N of a AND b, C and V 0; S is kept. -/
def tstFlags (f : Nat) (a b : Word) : Nat :=
  let t := a &&& b
  flagsOf (t == 0) t.msb false false (fS f)

/-- FLAGS with Z set to `b` (R152, R154). -/
def setZ (f : Nat) (b : Bool) : Nat := flagsOf b (fN f) (fC f) (fV f) (fS f)

/-- FLAGS with S set when `clip` holds; S is sticky (R137). -/
def setSat (f : Nat) (clipped : Bool) : Nat := flagsOf (fZ f) (fN f) (fC f) (fV f) (fS f || clipped)

/-- Whether branch condition `cond` holds (Table KI-9). -/
def condHolds (cond f : Nat) : Bool :=
  match cond with
  | 0x0 => fZ f
  | 0x1 => !fZ f
  | 0x2 => fN f != fV f
  | 0x3 => fN f == fV f
  | 0x4 => !fZ f && fN f == fV f
  | 0x5 => fZ f || fN f != fV f
  | 0x6 => fC f
  | 0x7 => !fC f
  | 0x8 => !fC f && !fZ f
  | 0x9 => fC f || fZ f
  | 0xA => fS f
  | 0xB => !fS f
  | 0xF => true
  | _ => false

end Sys2Proof.Machine
end

