-- ==== Sys2Proof/Machine/Krytold.lean ====
section
/-! DEFINITION. The Krytold instructions: what each does to its tiller (chapter 05). Every meaning goes through `issue` or
`simple`, which hold what all instructions share. -/

namespace Sys2Proof.Machine

/-! ### Issue -/

/-- A STEP ends when its instruction has completed: the tiller halts with HALT_CAUSE 2 (R126). -/
def State.stepDone (s : State) (n : Nat) : State :=
  let t := s.tiller n
  if t.stepping && t.state == .running then s.tilHalt n 2 else s

/-- The tillers' clock is stopped or the tillers are held (R26, R129). -/
def State.tilStopped (s : State) : Bool := s.tilHeld || !s.on F.SYS_CLK_STATUS_TIL_LOCK

/-- An attention source of tiller `n` is pending and not held off (R119, R120). -/
def State.attnDue (s : State) (n : Nat) : Bool :=
  let t := s.tiller n
  s.on (F.TIL_CFG_MSG_ATTN n) && (t.pendMsg || t.pendDl) && !t.inAttn && !t.inTrap

/-- A cause for leaving the instruction stream waits for tiller `n`'s next boundary, so that nothing further issues (R159): a HALT
or an attention. -/
def State.diverts (s : State) (n : Nat) : Bool := (s.tiller n).haltReq || s.attnDue n

/-- An uncorrectable instruction fetch at PC (R111): counted, HALT_CAUSE 4, TRAP_CAUSE IMEM_UE, EPC; never vectored. -/
def State.imemUE (s : State) (n : Nat) : State :=
  (((s.onTiller n fun t => { t with trapCause := 2, epc := t.pc }).tilUE n)).tilHalt n 4

/-- The fetch of the word at PC, then `f`: a single-bit error is corrected and counted (R110); an uncorrectable word halts the tiller
(R111), and so does a poisoned one, which is not counted (R39). -/
def State.fetched (s : State) (n : Nat) (f : State → State) : State :=
  let t := s.tiller n
  let i := t.pc / 4
  match Tab.get okCond t.imemCond i with
  | .ok => f s
  | .ce => f ((s.setTiller n { t with imemCond := Tab.set okCond t.imemCond i .ok }).tilCE n)
  | .ue => s.imemUE n
  | .poison => (s.setTiller n { t with trapCause := 2, epc := t.pc }).tilHalt n 4

/-- Tiller `n` issues its next instruction, whose effect is `f`. Nothing issues unless STATE is RUNNING (and the tillers are not
held, R129), nor while a cause for diverting waits (R159); a fetch from 0x0_8000 raises ACCESS (R147); an armed breakpoint halts
before the instruction, except for the first one after a RUN or STEP (R127). -/
def State.issue (s : State) (n : Nat) (f : State → State) : State :=
  let t := s.tiller n
  if s.tilStopped || t.state != .running || s.diverts n then s
  else if !t.fresh && s.on (F.TIL_BKPT_EN n) && t.pc == 4 * s.rd (F.TIL_BKPT_WORD n) then s.tilHalt n 2
  else
    let s := s.setTiller n { t with fresh := false }
    (if 0x8000 ≤ t.pc then s.trap n 5 (some t.pc) else s.fetched n f).stepDone n

/-- Retires the instruction: PC moves on by 4, the tiller's instruction counter counts (Table EV-4) and so does the precise
sampler's count (R447). -/
def State.retire (s : State) (n : Nat) (f : Tiller → Tiller) : State :=
  (s.onTiller n fun t =>
    let u := f t
    { u with pc := u.pc + 4, sampleLeft := u.sampleLeft - 1, retAttn := t.inAttn, retTrap := t.inTrap }).countTil n 2 1

/-- An instruction that only changes its tiller's registers and flags, and cannot trap. -/
def State.simple (s : State) (n : Nat) (f : Tiller → Tiller) : State := s.issue n fun s => s.retire n f

/-- Retires an instruction that set PC itself. -/
def State.retireTo (s : State) (n pc : Nat) (f : Tiller → Tiller) : State :=
  (s.onTiller n fun t =>
    { f t with pc := pc, sampleLeft := t.sampleLeft - 1, retAttn := t.inAttn, retTrap := t.inTrap }).countTil n 2 1

/-! ### Scalar instructions (R142 to R144) -/

/-- The result of a two-register ALU operation, and whether it clipped (Table KI-5). -/
def aluResult (op : Alu) (a b : Word) : Word × Bool :=
  let sh := b.toNat % 32
  let clipped (v : Int) : Word × Bool :=
    let c := clip (-(2 ^ 31)) (2 ^ 31 - 1) v
    (BitVec.ofInt 32 c, decide (c ≠ v))
  match op with
  | .add => (a + b, false)
  | .sub => (a - b, false)
  | .and => (a &&& b, false)
  | .or => (a ||| b, false)
  | .xor => (a ^^^ b, false)
  | .sll => (a <<< sh, false)
  | .srl => (a >>> sh, false)
  | .sra => (a.sshiftRight sh, false)
  | .slt => (if a.toInt < b.toInt then 1 else 0, false)
  | .sltu => (if a.toNat < b.toNat then 1 else 0, false)
  | .min => (if a.toInt < b.toInt then a else b, false)
  | .max => (if a.toInt < b.toInt then b else a, false)
  | .minu => (if a.toNat < b.toNat then a else b, false)
  | .maxu => (if a.toNat < b.toNat then b else a, false)
  | .mul => (a * b, false)
  | .mulh => (BitVec.ofInt 32 ((a.toInt * b.toInt) / 2 ^ 32), false)
  | .mulhu => (BitVec.ofNat 32 (a.toNat * b.toNat / 2 ^ 32), false)
  | .divu => (if b = 0 then 0xFFFFFFFF else BitVec.ofNat 32 (a.toNat / b.toNat), false)
  | .remu => (if b = 0 then a else BitVec.ofNat 32 (a.toNat % b.toNat), false)
  | .adds => clipped (a.toInt + b.toInt)
  | .subs => clipped (a.toInt - b.toInt)

/-- An ALU operation on two registers. -/
def opAlu (op : Alu) (rd ra rb : Nat) (t : Tiller) : Tiller :=
  let (r, c) := aluResult op (t.s ra) (t.s rb)
  { t.setS rd r with flags := setSat t.flags c }

def opCmp (ra rb : Nat) (t : Tiller) : Tiller := { t with flags := cmpFlags t.flags (t.s ra) (t.s rb) }
def opTst (ra rb : Nat) (t : Tiller) : Tiller := { t with flags := tstFlags t.flags (t.s ra) (t.s rb) }
def opSlli (rd ra n : Nat) (t : Tiller) : Tiller := t.setS rd (t.s ra <<< (n % 32))
def opSrli (rd ra n : Nat) (t : Tiller) : Tiller := t.setS rd (t.s ra >>> (n % 32))
def opSrai (rd ra n : Nat) (t : Tiller) : Tiller := t.setS rd ((t.s ra).sshiftRight (n % 32))

/-- EXTU: width = field + 1 bits from `pos`; bits beyond bit 31 read 0 (Table KI-5). -/
def opExtu (rd ra pos width : Nat) (t : Tiller) : Tiller :=
  t.setS rd (BitVec.ofNat 32 ((t.s ra).toNat / 2 ^ (pos % 32) % 2 ^ (width % 32 + 1)))

/-- Leading zeros of a word, 0 to 32. -/
def clzWord (w : Word) : Nat := if w = 0 then 32 else 31 - Nat.log2 w.toNat

/-- Number of 1 bits. -/
def popWord (w : Word) : Nat := ((List.range 32).filter fun i => w.toNat.testBit i).length

def opClz (rd ra : Nat) (t : Tiller) : Tiller := t.setS rd (BitVec.ofNat 32 (clzWord (t.s ra)))
def opPopc (rd ra : Nat) (t : Tiller) : Tiller := t.setS rd (BitVec.ofNat 32 (popWord (t.s ra)))
def opAddi (rd ra imm : Nat) (t : Tiller) : Tiller := t.setS rd (t.s ra + simm imm)
def opAndi (rd ra imm : Nat) (t : Tiller) : Tiller := t.setS rd (t.s ra &&& uimm imm)
def opOri (rd ra imm : Nat) (t : Tiller) : Tiller := t.setS rd (t.s ra ||| uimm imm)
def opXori (rd ra imm : Nat) (t : Tiller) : Tiller := t.setS rd (t.s ra ^^^ uimm imm)
def opLui (rd imm : Nat) (t : Tiller) : Tiller := t.setS rd (uimm imm <<< 16)
def opCmpi (ra imm : Nat) (t : Tiller) : Tiller := { t with flags := cmpFlags t.flags (t.s ra) (simm imm) }
def opSlti (rd ra imm : Nat) (t : Tiller) : Tiller := t.setS rd (if (t.s ra).toInt < (simm imm).toInt then 1 else 0)

/-! ### Loads and stores (R145, R106 to R108, R112) -/

/-- The address `ra + simm` of a load, store or jump. -/
def Tiller.ea (t : Tiller) (ra imm : Nat) : Nat := (t.s ra + simm imm).toNat

/-- Word address `a` lies in the work bank of the furrow view (Table HF-3). -/
def inWorkBank (a : Nat) : Bool := decide (0x27000 ≤ a) && decide (a < 0x27B00)

/-- The words of `ws`, loaded from address `a` on, that failed and came from the work bank, as a mask (R38, R112). -/
def failedMask (a : Nat) (ws : List (Word × Cond)) : Nat :=
  ((List.range ws.length).map fun i =>
    if inWorkBank (a + 4 * i) && ((ws.map Prod.snd).getD i .ok).bad then 2 ^ i else 0).sum

/-- What a load does with the words it read from address `a` on: with POISON_ZERO = 1 an uncorrectable or poisoned word returns 0
and sets POISON_SEEN; with POISON_ZERO = 0 it raises DMEM_UE with TRAP_ADDR at the first such word (R112). -/
def State.deliver (s : State) (n a : Nat) (ws : List (Word × Cond)) (put : List Word → Tiller → Tiller) : State :=
  if ws.any fun x => x.2.bad then
    if s.on (F.TIL_CFG_POISON_ZERO n) then
      s.retire n fun t => put (ws.map fun x => if x.2.bad then 0 else x.1) { t with poisonSeen := true }
    else s.trap n 3 (some (a + 4 * (ws.findIdx fun x => x.2.bad)))
  else s.retire n (put (ws.map Prod.fst))

/-- LW rd, simm(ra) at instant `t`, which the timing registers read (R145, R146). -/
def opLw (n rd ra imm t : Nat) (s : State) : State :=
  let a := (s.tiller n).ea ra imm
  match regionOf a with
  | .none => s.trap n 5 (some a)
  | .local =>
    if a % 4 ≠ 0 then s.trap n 4 (some a)
    else
      let (w, s) := s.localReg n a t
      s.retire n fun x => x.setS rd w
  | _ =>
    if a % 4 ≠ 0 then s.trap n 4 (some a)
    else
      let (ws, s) := s.readWords n a 1
      s.deliver n a ws fun l x => (x.setS rd (l.headD 0)).markS rd (failedMask a ws != 0)

/-- SW rs, simm(ra): DMEM, or a clearing write to LSTATUS.POISON_SEEN; a store to any other field of the local registers traps
(R106, R108). A store to LSTATUS is one to POISON_SEEN, whatever its other bits hold (DESIGN CHOICE, log entry 220). -/
def opSw (n rs ra imm : Nat) (s : State) : State :=
  let t := s.tiller n
  let a := t.ea ra imm
  match regionOf a with
  | .dmem => if a % 4 ≠ 0 then s.trap n 4 (some a) else s.retire n fun t =>
      t.storeDword ((a - 0x10000) / 4) (t.s rs) (Tab.get (fun _ => false) t.badS rs)
  | .local =>
    if 0x30000 ≤ a ∧ a < 0x30004 then
      if a % 4 ≠ 0 then s.trap n 4 (some a)
      else s.retire n fun t => if (t.s rs).toNat.testBit 16 then { t with poisonSeen := false } else t
    else s.trap n 5 (some a)
  | _ => s.trap n 5 (some a)

/-- VLD vd, simm(ra): 128-bit loads from DMEM or the furrow view (Table TA-1). -/
def opVld (n vd ra imm : Nat) (s : State) : State :=
  let a := (s.tiller n).ea ra imm
  match regionOf a with
  | .dmem | .view =>
    if a % 16 ≠ 0 then s.trap n 4 (some a)
    else
      let (ws, s) := s.readWords n a 4
      s.deliver n a ws fun l x => (x.setV vd (ofWords (l.map BitVec.toNat))).markV vd (failedMask a ws)
  | _ => s.trap n 5 (some a)

/-- VST vs, simm(ra): 128-bit stores to DMEM. A misaligned access is judged by where its first byte lies, as every load and store here
(DESIGN CHOICE, log entry 221). -/
def opVst (n vs ra imm : Nat) (s : State) : State :=
  let a := (s.tiller n).ea ra imm
  match regionOf a with
  | .dmem =>
    if a % 16 ≠ 0 then s.trap n 4 (some a)
    else s.retire n fun t =>
      let w := words (t.v vs)
      let i := (a - 0x10000) / 4
      let m := Tab.get (fun _ => 0) t.badV vs
      (((t.storeDword i (BitVec.ofNat 32 (w.getD 0 0)) (m.testBit 0)).storeDword (i + 1) (BitVec.ofNat 32 (w.getD 1 0))
        (m.testBit 1)).storeDword (i + 2) (BitVec.ofNat 32 (w.getD 2 0)) (m.testBit 2)).storeDword (i + 3)
        (BitVec.ofNat 32 (w.getD 3 0)) (m.testBit 3)
  | _ => s.trap n 5 (some a)

/-- VBWL vd, ra, rb (R149): eight bins from any index, 0 outside [0, LIM). Only the aligned groups that hold in-range lanes are
read, and each must lie in the region of ra. -/
def opVbwl (n vd ra rb : Nat) (s : State) : State :=
  let t := s.tiller n
  let a := (t.s ra).toNat
  let idx := signed 16 ((t.s rb).toNat % 2 ^ 16)
  let lim : Nat := (t.s rb).toNat / 2 ^ 16
  let inRange (j : Nat) : Bool := decide (0 ≤ idx + j) && decide (idx + j < (lim : Int))
  let lanes := (List.range 8).filter fun j => inRange j
  let groups := (lanes.map fun j => (a + 2 * (idx + j).toNat) / 16 * 16).dedup
  let rg := regionOf a
  if rg ≠ .dmem ∧ rg ≠ .view then s.trap n 5 (some a)
  else match groups.find? fun g => regionOf g ≠ rg with
    | some g => s.trap n 5 (some g)
    | none =>
      if a % 16 ≠ 0 then s.trap n 4 (some a)
      else
        let (gw, s) := groups.foldl (fun (acc : List (Nat × List (Word × Cond)) × State) g =>
          let (ws, s') := acc.2.readWords n g 4
          (acc.1 ++ [(g, ws)], s')) ([], s)
        let half (ws : List (Nat × List Word)) (x : Nat) : Nat :=
          match ws.find? fun e => e.1 == x / 16 * 16 with
          | some e => (e.2.getD (x % 16 / 4) 0).toNat / 2 ^ (8 * (x % 4)) % 2 ^ 16
          | none => 0
        -- the failed words of the groups, by group address, and the 32-bit lanes of the result that hold part of one
        let failed : List (Nat × Nat) := gw.map fun x => (x.1, failedMask x.1 x.2)
        let hit (j : Nat) : Bool :=
          let x := a + 2 * (idx + j).toNat
          inRange j && failed.any fun e => e.1 == x / 16 * 16 && e.2.testBit (x % 16 / 4)
        let marks := ((List.range 4).map fun q => if hit (2 * q) || hit (2 * q + 1) then 2 ^ q else 0).sum
        let put (clean : List (Nat × List Word)) (t : Tiller) : Tiller :=
          (t.setV vd (ofHalves ((List.range 8).map fun j => if inRange j then half clean (a + 2 * (idx + j).toNat) else 0))).markV
            vd marks
        match gw with
        | [] => s.retire n (put [])
        | [(g, ws)] => s.deliver n g ws fun l => put [(g, l)]
        | (g, ws) :: (h, xs) :: _ =>
          -- two groups, consecutive in memory
          s.deliver n g (ws ++ xs) fun l => put [(g, l.take 4), (h, l.drop 4)]

/-! ### Control transfer (R147) -/

/-- A taken branch or jump to `target`: outside IMEM it raises ACCESS, not 4-byte aligned it raises MISALIGN; otherwise `f` and
the new PC apply. -/
def State.jump (s : State) (n : Nat) (target : Int) (f : Tiller → Tiller) : State :=
  let tw := (unsigned 32 target)
  if target < 0 ∨ 0x7FFF < target then s.trap n 5 (some tw)
  else if tw % 4 ≠ 0 then s.trap n 4 (some tw)
  else s.retireTo n tw f

/-- BC cond, label: targets PC + 4 × OFF. -/
def opBc (n cond off : Nat) (s : State) : State :=
  let t := s.tiller n
  if condHolds cond t.flags then s.jump n (t.pc + 4 * signed 22 off) id else s.retire n id

/-- JAL rd, label. -/
def opJal (n rd off : Nat) (s : State) : State :=
  let t := s.tiller n
  s.jump n (t.pc + 4 * signed 21 off) fun x => x.setS rd (BitVec.ofNat 32 (t.pc + 4))

/-- JALR rd, ra, simm: ra is read before rd is written; the target is a 32-bit sum. -/
def opJalr (n rd ra imm : Nat) (s : State) : State :=
  let t := s.tiller n
  s.jump n ((t.ea ra imm : Nat) : Int) fun x => x.setS rd (BitVec.ofNat 32 (t.pc + 4))

/-! ### Vector instructions (R148) -/

/-- One lane of a lane operation, of `k` bits, and whether it clipped (Table KI-6). -/
def laneResult (op : Valu) (k a b : Nat) : Nat × Bool :=
  let m := 2 ^ k
  let ones := m - 1
  let sa := signed k a
  let sb := signed k b
  let sat (v : Int) : Nat × Bool :=
    let c := clip (-((2 ^ (k - 1) : Nat) : Int)) (((2 ^ (k - 1) : Nat) : Int) - 1) v
    (unsigned k c, decide (c ≠ v))
  match op with
  | .add => ((a + b) % m, false)
  | .sub => ((a + (m - b % m)) % m, false)
  | .addsu => (min (a + b) ones, decide (ones < a + b))
  | .subsu => (a - b, decide (a < b))
  | .adds => sat (sa + sb)
  | .subs => sat (sa - sb)
  | .mul => (a * b % m, false)
  | .min => (min a b, false)
  | .max => (max a b, false)
  | .mins => (if sa < sb then a else b, false)
  | .maxs => (if sa < sb then b else a, false)
  | .and => (a &&& b, false)
  | .or => (a ||| b, false)
  | .xor => (a ^^^ b, false)
  | .cmpeq => (if a = b then ones else 0, false)
  | .cmpgtu => (if b < a then ones else 0, false)
  | .cmpgt => (if sb < sa then ones else 0, false)

/-- A lane operation on two vectors. -/
def opValu (op : Valu) (w : Bool) (vd va vb : Nat) (t : Tiller) : Tiller :=
  let r := List.zipWith (laneResult op (laneBits w)) (lanesW w (t.v va)) (lanesW w (t.v vb))
  { t.setV vd (ofLanesW w (r.map Prod.fst)) with flags := setSat t.flags (r.any Prod.snd) }

def opVsel (vd va vb : Nat) (t : Tiller) : Tiller :=
  t.setV vd ((t.v va &&& t.v vd) ||| (t.v vb &&& ~~~(t.v vd)))

def opVslli (w : Bool) (vd va n : Nat) (t : Tiller) : Tiller :=
  t.setV vd (ofLanesW w ((lanesW w (t.v va)).map fun x => x * 2 ^ n))

def opVsrli (w : Bool) (vd va n : Nat) (t : Tiller) : Tiller :=
  t.setV vd (ofLanesW w ((lanesW w (t.v va)).map fun x => x / 2 ^ n))

def opVsrai (w : Bool) (vd va n : Nat) (t : Tiller) : Tiller :=
  t.setV vd (ofLanesW w ((lanesW w (t.v va)).map fun x => unsigned (laneBits w) (sar (signed (laneBits w) x) n)))

def opVzxl (vd va : Nat) (t : Tiller) : Tiller := t.setV vd (ofWords ((halves (t.v va)).take 4))
def opVzxh (vd va : Nat) (t : Tiller) : Tiller := t.setV vd (ofWords ((halves (t.v va)).drop 4))

/-- VNARS: narrows two vectors of 32-bit lanes, clipping at 65,535 (Table KI-6). -/
def opVnars (vd va vb : Nat) (t : Tiller) : Tiller :=
  let l := words (t.v va) ++ words (t.v vb)
  { t.setV vd (ofHalves (l.map fun x => min x 65535)) with flags := setSat t.flags (l.any fun x => decide (65535 < x)) }

def opVsplat (w : Bool) (vd ra : Nat) (t : Tiller) : Tiller :=
  t.setV vd (ofLanesW w (List.replicate (if w then 4 else 8) (t.s ra).toNat))

def opVext (w : Bool) (rd va lane : Nat) (t : Tiller) : Tiller :=
  t.setS rd (BitVec.ofNat 32 ((lanesW w (t.v va)).getD lane 0))

def opVins (w : Bool) (vd ra lane : Nat) (t : Tiller) : Tiller :=
  t.setV vd (ofLanesW w ((lanesW w (t.v vd)).set lane (t.s ra).toNat))

def opVrsum (w : Bool) (rd va : Nat) (t : Tiller) : Tiller := t.setS rd (BitVec.ofNat 32 ((lanesW w (t.v va)).sum))
def opVrmaxu (w : Bool) (rd va : Nat) (t : Tiller) : Tiller :=
  t.setS rd (BitVec.ofNat 32 ((lanesW w (t.v va)).foldl max 0))

/-! ### Histogram instructions (R150 to R153) -/

/-- VMACC vd, va, vb, p (R150): four positions of an 8-tap matched filter, each sum exact and clipped once. -/
def opVmacc (vd va vb p : Nat) (t : Tiller) : Tiller :=
  let bins := halves (t.v va) ++ halves (t.v (va + 1))
  let wt := (halves (t.v vb)).map fun x => signed 16 x
  let sumAt (i : Nat) : Int :=
    (signed 32 ((words (t.v vd)).getD i 0)) +
      ((List.range 8).map fun j => ((bins.getD (4 * p + i + j) 0 : Nat) : Int) * wt.getD j 0).sum
  let r := (List.range 4).map fun i => (clip (-(2 ^ 31)) (2 ^ 31 - 1) (sumAt i), sumAt i)
  { t.setV vd (ofWords (r.map fun x => unsigned 32 x.1)) with flags := setSat t.flags (r.any fun x => decide (x.1 ≠ x.2)) }

/-- VPIDX rd, va, rb (R151): the running peak; the first maximum stays. -/
def opVpidx (rd va rb : Nat) (t : Tiller) : Tiller :=
  let h := halves (t.v va)
  let r := (List.range 8).foldl (fun (acc : Nat × Nat) j =>
    if acc.1 < h.getD j 0 then (h.getD j 0, ((t.s rb).toNat + j) % 2 ^ 16) else acc)
    ((t.s rd).toNat / 2 ^ 16, (t.s rd).toNat % 2 ^ 16)
  t.setS rd (BitVec.ofNat 32 (r.1 * 2 ^ 16 + r.2))

/-- The centroid of R152 over lanes, background, LO and HI: none when nothing lies above the background. -/
def centroid (h : List Nat) (bg lo hi : Nat) : Option Nat :=
  let js := (List.range 8).filter fun j => decide (lo ≤ j) && decide (j ≤ hi)
  let num := (js.map fun j => (h.getD j 0 - bg) * j).sum
  let den := (js.map fun j => h.getD j 0 - bg).sum
  if den = 0 then none else some (num * 256 / den)

/-- VCENT rd, va, rb (R152). -/
def opVcent (rd va rb : Nat) (t : Tiller) : Tiller :=
  let b := (t.s rb).toNat
  match centroid (halves (t.v va)) (b / 2 ^ 16) (b % 8) (b / 16 % 8) with
  | none => { t.setS rd 0xFFFFFFFF with flags := setZ t.flags true }
  | some r => { t.setS rd (BitVec.ofNat 32 r) with flags := setZ t.flags false }

/-- Terms of 2^80 · atanh z = z + z³/3 + z⁵/5 + …, for `term` = 2^80 · z^(2i+1) and `z2` = 2^80 · z². -/
def atanhSum (z2 : Nat) : Nat → Nat → Nat → Nat
  | 0, _, _ => 0
  | k + 1, i, term => term / (2 * i + 1) + atanhSum z2 k (i + 1) (term * z2 / 2 ^ 80)

/-- 2^80 · 2 · atanh (z / 2^80), for z at most a third of 2^80. -/
def twoAtanh (z : Nat) : Nat := 2 * atanhSum (z * z / 2 ^ 80) 26 0 z

/-- round(−ln(1 − q / 65536) · 65536) for q from 1 to 65,535 (R153): with m = 65536 − q = 2^k · y, it is
(16 − k) · ln 2 − ln y, each logarithm as 2 · atanh, to 80 fraction bits. -/
def coatesLog (q : Nat) : Nat :=
  let m := 65536 - q
  let k := Nat.log2 m
  let l := (16 - k) * twoAtanh (2 ^ 80 / 3) - twoAtanh ((m - 2 ^ k) * 2 ^ 80 / (m + 2 ^ k))
  (l * 65536 + 2 ^ 79) / 2 ^ 80

/-- Coates correction of one bin: output, LIVE afterwards, and whether S is set (R153). -/
def coatesBin (nTot live n : Nat) : Nat × Nat × Bool :=
  let left := live - n
  if n = 0 then (0, left, false)
  else if live ≤ n then (0xFFFF, left, true)
  else
    let out := (nTot * coatesLog (n * 65536 / live) + 2048) / 2 ^ 12
    if 0xFFFF < out then (0xFFFF, left, true) else (out, left, false)

/-- Coates correction of bins in ascending order. -/
def coates (nTot : Nat) : Nat → List Nat → List Nat × Nat × Bool
  | live, [] => ([], live, false)
  | live, n :: ns =>
    let (o, l, c) := coatesBin nTot live n
    let (os, l', c') := coates nTot l ns
    (o :: os, l', c || c')

/-- VCOAT vd, va, rb (R153): rb names the state register, read and written. -/
def opVcoat (vd va rb : Nat) (t : Tiller) : Tiller :=
  let st := (t.s rb).toNat
  let nTot := st / 2 ^ 16
  let (os, live, c) := coates nTot (st % 2 ^ 16) (halves (t.v va))
  let t' := (t.setV vd (ofHalves os)).setS rb (BitVec.ofNat 32 (nTot * 2 ^ 16 + live))
  { t' with flags := setSat t.flags c }

/-! ### Fabric messages (R154, R117, R120) -/

/-- Puts a message into rd and rd + 1 and Z for EMPTY (R154). -/
def Tiller.takeMsg (t : Tiller) (rd : Nat) (m : BitVec 64) (empty : Bool) : Tiller :=
  let t := (t.setS rd (BitVec.ofNat 32 m.toNat)).setS (rd + 1) (BitVec.ofNat 32 (m.toNat / 2 ^ 32))
  { t with flags := setZ t.flags empty }

/-- Stalls the tiller (STATE STALLED). -/
def State.stallOn (s : State) (n : Nat) (x : Stall) : State :=
  s.onTiller n fun t => { t with state := .stalled, stall := some x }

/-- FSEND ra: pushes a fabric write word, or stalls while the queue holds 32 (R117). -/
def opFsend (n ra : Nat) (s : State) : State :=
  let t := s.tiller n
  if t.fwq.length < 32 then s.retire n fun t => { t with fwq := t.fwq ++ [t.s ra] }
  else (s.stallOn n (.fsend (t.s ra))).countTil n 5 1

/-- FRECV.N rd: the oldest message, or EMPTY at once. -/
def opFrecvN (n rd : Nat) (s : State) : State :=
  s.retire n fun t => match t.candQ with
    | [] => t.takeMsg rd 7 true
    | m :: q => { t with candQ := q }.takeMsg rd m false

/-- FRECV.W rd: the oldest message, or a stall until one is present. -/
def opFrecvW (n rd : Nat) (s : State) : State :=
  match (s.tiller n).candQ with
  | [] => (s.stallOn n (.frecv rd)).countTil n 6 1
  | m :: q => s.retire n fun t => { t with candQ := q }.takeMsg rd m false

/-! ### Record emit (R121, R155) -/

/-- Word `i` of a block in DMEM at local address `a`. -/
def Tiller.blockWord (t : Tiller) (a i : Nat) : Nat := (t.dword ((a - 0x10000) / 4 + i)).toNat

/-- L = 32 + 8r for r = 0 to 18 (R121). -/
def emitLength (l : Nat) : Bool := decide (32 ≤ l) && decide (l ≤ 176) && l % 8 == 0

/-- The check of a block's header word at local address `a` reads it: a single-bit error is corrected, written back and counted (R110). -/
def State.headRead (s : State) (n a : Nat) : State :=
  let i := (a - 0x10000) / 4 + 2
  if Tab.get (fun _ => Cond.ok) (s.tiller n).dmemCond i = .ce then
    (s.onTiller n fun t => { t with dmemCond := Tab.set (fun _ => .ok) t.dmemCond i .ok }).tilCE n
  else s

/-- EMIT rd, ra, rb: the format check, then ownership, then a stall until the output queue admits the block (R121). The header's
furrow field and point-cycle index lie as Table EP-1 states. A header word that is uncorrectable or poisoned is checked as it is stored
(DESIGN CHOICE, log entry 219). -/
def opEmit (n rd ra rb : Nat) (s : State) : State :=
  let t := s.tiller n
  let a := (t.s ra).toNat
  let l := (t.s rb).toNat
  if !(emitLength l && a % 16 == 0 && decide (0x10000 ≤ a) && decide (a + l ≤ 0x20000)) then s.trap n 6 none
  else
    let s := s.headRead n a
    if t.blockWord a 2 % 2 ^ 8 ≠ n then s.trap n 6 none
    else
    let ix := t.blockWord a 2 / 2 ^ 8
    let stale := match t.own with
      | none => true
      | some (_, i) => t.emitted || i != ix
    if stale then ((s.bump (F.TIL_CNT_STALE_EMIT_COUNT n) 1).tilCause n 1).retire n fun t => t.setS rd 1
    else (s.stallOn n (.emit rd a l)).countTil n 7 1

/-! ### System instructions (R156) -/

def opTrap (n : Nat) (s : State) : State := s.trap n 7 none

/-- TRET: ILLEGAL unless IN_TRAP; resumes at EPC, or EPC + 4 for SOFT (Table KI-8). -/
def opTret (n : Nat) (s : State) : State :=
  let t := s.tiller n
  if !t.inTrap then s.trap n 1 none
  else s.retireTo n (if t.trapCause = 7 then t.epc + 4 else t.epc) fun t => { t with inTrap := false }

/-- ARET: ILLEGAL unless IN_ATTN and not IN_TRAP; restores FLAGS and resumes at ATTN_PC (Table KI-8). -/
def opAret (n : Nat) (s : State) : State :=
  let t := s.tiller n
  if !t.inAttn || t.inTrap then s.trap n 1 none
  else s.retireTo n t.attnPc fun t => { t with inAttn := false, flags := t.savedFlags }

def opRdfl (rd : Nat) (t : Tiller) : Tiller := t.setS rd (BitVec.ofNat 32 t.flags)
def opWrfl (ra : Nat) (t : Tiller) : Tiller := { t with flags := (t.s ra).toNat % 32 }

/-! ### Any instruction -/

/-- The effect of a decoded instruction on tiller `n` at instant `t`, once it issues. -/
def runOp (n t : Nat) (k : KOp) (s : State) : State :=
  match k with
  | .alu op rd ra rb => s.retire n (opAlu op rd ra rb)
  | .cmp ra rb => s.retire n (opCmp ra rb)
  | .tst ra rb => s.retire n (opTst ra rb)
  | .slli rd ra i => s.retire n (opSlli rd ra i)
  | .srli rd ra i => s.retire n (opSrli rd ra i)
  | .srai rd ra i => s.retire n (opSrai rd ra i)
  | .extu rd ra p w => s.retire n (opExtu rd ra p w)
  | .clz rd ra => s.retire n (opClz rd ra)
  | .popc rd ra => s.retire n (opPopc rd ra)
  | .addi rd ra i => s.retire n (opAddi rd ra i)
  | .andi rd ra i => s.retire n (opAndi rd ra i)
  | .ori rd ra i => s.retire n (opOri rd ra i)
  | .xori rd ra i => s.retire n (opXori rd ra i)
  | .lui rd i => s.retire n (opLui rd i)
  | .cmpi ra i => s.retire n (opCmpi ra i)
  | .slti rd ra i => s.retire n (opSlti rd ra i)
  | .lw rd ra i => opLw n rd ra i t s
  | .sw rs ra i => opSw n rs ra i s
  | .vld vd ra i => opVld n vd ra i s
  | .vst vs ra i => opVst n vs ra i s
  | .vbwl vd ra rb => opVbwl n vd ra rb s
  | .bc c o => opBc n c o s
  | .jal rd o => opJal n rd o s
  | .jalr rd ra i => opJalr n rd ra i s
  | .valu op w vd va vb => s.retire n (opValu op w vd va vb)
  | .vsel vd va vb => s.retire n (opVsel vd va vb)
  | .vslli w vd va i => s.retire n (opVslli w vd va i)
  | .vsrli w vd va i => s.retire n (opVsrli w vd va i)
  | .vsrai w vd va i => s.retire n (opVsrai w vd va i)
  | .vzxl vd va => s.retire n (opVzxl vd va)
  | .vzxh vd va => s.retire n (opVzxh vd va)
  | .vnars vd va vb => s.retire n (opVnars vd va vb)
  | .vsplat w vd ra => s.retire n (opVsplat w vd ra)
  | .vext w rd va l => s.retire n (opVext w rd va l)
  | .vins w vd ra l => s.retire n (opVins w vd ra l)
  | .vrsum w rd va => s.retire n (opVrsum w rd va)
  | .vrmaxu w rd va => s.retire n (opVrmaxu w rd va)
  | .vmacc vd va vb p => (s.retire n (opVmacc vd va vb p)).countTil n 10 1
  | .vpidx rd va rb => (s.retire n (opVpidx rd va rb)).countTil n 10 1
  | .vcent rd va rb => (s.retire n (opVcent rd va rb)).countTil n 10 1
  | .vcoat vd va rb => (s.retire n (opVcoat vd va rb)).countTil n 10 1
  | .fsend ra => opFsend n ra s
  | .frecvN rd => opFrecvN n rd s
  | .frecvW rd => opFrecvW n rd s
  | .emit rd ra rb => opEmit n rd ra rb s
  | .nop => s.retire n id
  | .trap => opTrap n s
  | .tret => opTret n s
  | .aret => opAret n s
  | .fence => s.retire n id
  | .rdfl rd => s.retire n (opRdfl rd)
  | .wrfl ra => s.retire n (opWrfl ra)

end Sys2Proof.Machine
end

