-- ==== Sys2Proof/Machine/TillerCtl.lean ====
section
/-! DEFINITION. Loading, starting and stopping tillers, attention, the shared output queue and the tiller memory window
(chapter 04, and the blocks of chapter 06 that the output queue builds). -/

namespace Sys2Proof.Machine

/-! ### Register accesses and stopped clocks (R27) -/

/-- A register access times out: a read returns 0, a write is discarded, SYS_ACCESS_TIMEOUT is raised (R27). -/
def State.accessTimeout (s : State) : State :=
  let s := (s.count 0 3 0 1).raise 7
  { s with sys := { s.sys with rdata := 0 } }

/-- A register access that reaches a block: `f` is its effect unless the block's clock is `stopped` (R27). In RESET no access
reaches any register. -/
def State.access (s : State) (stopped : Bool) (f : State → State) : State :=
  if s.mode = mRESET then s
  else
    let s := s.count 0 2 0 1
    if stopped then s.accessTimeout else f s

/-! ### CRC-32C and the blocks the output queue builds (R163, R169) -/

/-- One bit of the reflected CRC-32C with polynomial 0x1EDC_6F41. -/
def crcBit (c : Nat) : Nat := if c % 2 = 1 then (c / 2) ^^^ 0x82F63B78 else c / 2

/-- One byte of the reflected CRC-32C. -/
def crcByte (c : Nat) (b : Byte) : Nat := Nat.iterate crcBit 8 (c ^^^ b.toNat)

/-- CRC-32C: initial value and final XOR 0xFFFF_FFFF (R163). -/
def crc32c (l : List Byte) : Nat := (l.foldl crcByte 0xFFFFFFFF) ^^^ 0xFFFFFFFF

/-- The DROPPED block of furrow `f` for a bank header (R169), without its CRC. -/
def droppedBytes (k : Bank) (f : Nat) (abandoned : Bool) : List Byte :=
  bytesOf 8 k.fallowTs ++ bytesOf 4 (k.pcIndex * 2 ^ 8 + f) ++ bytesOf 4 (k.tilt * 2 ^ 16 + k.azimuth)
    ++ (List.replicate 6 (bytesOf 2 (if abandoned then 0x34FF else 0x33FF))).flatten
    ++ bytesOf 4 (if abandoned then 0x1000C000 else 0x10008000)

/-- The output queue emits furrow `f`'s DROPPED block for bank `k`: counted, cause DROPPED set (R122). -/
def State.dropBlock (s : State) (f : Nat) (k : Bank) (abandoned : Bool) : State :=
  let b := droppedBytes k f abandoned
  let s := { s with oq := { s.oq with blocks := s.oq.blocks ++ [(Block.mk f (b ++ bytesOf 4 (crc32c b)) false)] } }
  ((s.bump (F.TIL_CNT_DROPPED_COUNT f) 1).tilCause f 0).count 9 3 0 1

/-! ### Stalled instructions that end -/

/-- A stalled instruction of tiller `n` completes: `f` is its effect, PC moves on, the tiller runs again (a STEP then halts). -/
def State.resume (s : State) (n : Nat) (f : Tiller → Tiller) : State :=
  (s.retire n fun t => { f t with state := .running, stall := none, transferring := false }).stepDone n

/-- A stalled EMIT of tiller `n` ends with `result` in its register (Table TA-6). -/
def State.emitEnds (s : State) (n result : Nat) : State :=
  match (s.tiller n).stall with
  | some (.emit rd _ _) =>
    let s := if s.oq.transfer = some n then { s with oq := { s.oq with transfer := none } } else s
    s.resume n fun t => t.setS rd (BitVec.ofNat 32 result)
  | _ => s

/-- A block of range zero that leaves DROPPED: its lanes' status was not VALID (R332). -/
def State.rzMissed (s : State) (n b : Nat) : State :=
  if s.rd F.CAL_STATUS_ITEM = 3 && (s.bank b).fire then
    { s with cal := { s.cal with rzBad := (List.range 6).foldl (fun t l => Tab.set (fun _ => 0) t (6 * n + l) 1) s.cal.rzBad } }
  else s

/-- Ownership of tiller `n`'s work bank ends at a swap or at the instant one would have fallen (R115): a block not yet emitted
leaves as DROPPED (R122), and a stalled EMIT gets the result DROPPED. -/
def State.endOwnership (s : State) (n : Nat) : State :=
  match (s.tiller n).own with
  | some (b, _) =>
    let missed := !(s.tiller n).emitted
    let s := if missed then (s.dropBlock n (s.bank b) false).rzMissed n b else s
    let s := s.onTiller n fun t => { t with own := none, emitted := false }
    if missed then s.emitEnds n 2 else s
  | none => s

/-- The row OWNERSHIP_END (R115): with no swap to follow, the banks still owned are given up at the instant it would have
fallen, in ascending furrow order (R168). -/
def execOwnershipEnd (s : State) : Host.Outcome State Fault Refusal :=
  .next (if s.running then s else s.forN 192 fun n s => s.endOwnership n)

/-- FSEND_STALL_END (R117): an entry has freed and the stalled FSEND pushes its word. A held tiller stays where it is (R129). -/
def execFsendStallEnd (n : Fin 192) (s : State) : Host.Outcome State Fault Refusal :=
  .next <| match (s.tiller n).stall with
    | some (.fsend w) =>
      if (s.tiller n).fwq.length < 32 ∧ !s.tilStopped then s.resume n fun t => { t with fwq := t.fwq ++ [w] } else s
    | _ => s

/-- A candidate message (Table TA-3). -/
def isCandidate (m : BitVec 64) : Bool := m.toNat % 8 == 0

/-- FRECV_W_COMPLETE (R120): the stalled receive takes the oldest message and its MSG source; the source stays pending only if
a candidate message still waits. A held tiller stays where it is (R129). -/
def execFrecvWComplete (n : Fin 192) (s : State) : Host.Outcome State Fault Refusal :=
  .next <| match (s.tiller n).stall, (s.tiller n).candQ with
    | some (.frecv rd), m :: q =>
      if s.tilStopped then s
      else s.resume n fun t => { t with candQ := q, pendMsg := t.pendMsg && q.any isCandidate }.takeMsg rd m false
    | _, _ => s

/-! ### Output queue admission (R121 to R124) -/

/-- Tiller `n` waits for admission of its EMIT: length of the block, if so. -/
def Tiller.waitsEmit (t : Tiller) : Option Nat :=
  match t.stall with
  | some (.emit _ _ l) => if t.transferring then none else some l
  | _ => none

/-- The next requester in round-robin order from the tiller after the one last served (R123). -/
def State.nextEmit (s : State) : Option Nat :=
  (List.range 192).findSome? fun i =>
    let n := (s.oq.lastServed + 1 + i) % 192
    if (s.tiller n).waitsEmit.isSome then some n else none

/-- EMIT_ADMISSION (R123): the next requester is admitted when its L + 4 bytes are free beside the 8 KiB that only DROPPED
blocks may use; `waited` cycles were spent with an emit waiting for space. Held tillers are not served (R129). -/
def execEmitAdmission (waited : Nat) (s : State) : Host.Outcome State Fault Refusal :=
  .next <| if s.tilStopped then s else
  let s := (s.bump F.TIL_OQ_STALL_CNT_COUNT waited).count 9 5 0 waited
  match s.oq.transfer, s.nextEmit with
    | none, some n =>
      match (s.tiller n).waitsEmit with
      | some l =>
        if l + 4 + 8192 ≤ s.oqFree then
          { s.onTiller n fun t => { t with transferring := true } with oq := { s.oq with transfer := some n, lastServed := n } }
        else s
      | none => s
    | _, _ => s

/-- The conditions of a block's words in DMEM. -/
def Tiller.blockConds (t : Tiller) (a len : Nat) : List Cond :=
  (List.range (len / 4)).map fun i => Tab.get (fun _ => .ok) t.dmemCond ((a - 0x10000) / 4 + i)

/-- BLOCK_ACCEPTED (R122, R124): the last byte is taken. The CRC-32C is appended, inverted when a word is uncorrectable (cause
EMIT_POISON) or poisoned; single-bit errors are corrected and counted. A held tiller's transfer stands still (R129). -/
def execBlockAccepted (s : State) : Host.Outcome State Fault Refusal :=
  .next <| if s.tilStopped then s else match s.oq.transfer with
    | none => s
    | some n =>
      match (s.tiller n).stall with
      | some (.emit _ a len) =>
        let t := s.tiller n
        let conds := t.blockConds a len
        let bad := conds.any Cond.bad
        let bytes := Mem.bytes 0 t.dmem (a - 0x10000) len
        let crc := crc32c bytes
        let s := if conds.contains .ue then s.tilCause n 6 else s
        let s := (List.range (len / 4)).foldl (fun s i =>
          if conds.getD i .ok = .ce then
            (s.onTiller n fun t => { t with dmemCond := Tab.set (fun _ => .ok) t.dmemCond ((a - 0x10000) / 4 + i) .ok }).tilCE n
          else s) s
        let blk := Block.mk n (bytes ++ bytesOf 4 (if bad then 0xFFFFFFFF - crc else crc)) bad
        let s := { s with oq := { s.oq with blocks := s.oq.blocks ++ [blk], transfer := none } }
        let s := ((s.bump (F.TIL_CNT_EMIT_COUNT n) 1).count 9 2 0 1).count 9 4 0 len
        (s.onTiller n fun t => { t with emitted := true }).emitEnds n 0
      | _ => s

/-! ### Commands of the control page (R126 to R128) -/

/-- The reset values of a parameter page of the reference program (Table EP-9). -/
def refPageReset : List Word :=
  [0x40020401, 0x00C00018, 0x00000308, 0x40800C64, 0x00040407, 0x02000180, 0x00000800, 0x00FA0000] ++ List.replicate 24 0

/-- Writes consecutive words of data memory from local address `a` on. -/
def Tiller.putWords (t : Tiller) (a : Nat) (ws : List Word) : Tiller :=
  (List.range ws.length).foldl (fun t i => t.setDword ((a - 0x10000) / 4 + i) (ws.getD i 0)) t

/-- The reference program starts afresh (R172, R174): both pages, the common area and the lane registers at their reset values. -/
def Tiller.refStart (t : Tiller) : Tiller :=
  { (((t.putWords 0x1E000 [0, 250, 0, 0]).putWords 0x1E080 refPageReset).putWords 0x1E100 refPageReset).putWords 0x1E200
      (List.replicate 24 0) with
    refFresh := false, refPage := refPageReset, refActive := 0, refRej := false, refRedo := none, refLanes := [], refSn := [], refBad := [] }

/-- The reference program emits the block of `len` bytes in its buffer: STALE where its bank is not owned or has its block already,
else a wait for admission (R121, R155). -/
def State.refIssueEmit (s : State) (n len : Nat) : State :=
  let s := s.headRead n 0x10000
  let t := s.tiller n
  let stale := match t.own with
    | none => true
    | some (_, i) => t.emitted || i != t.blockWord 0x10000 2 / 2 ^ 8
  if stale then (s.bump (F.TIL_CNT_STALE_EMIT_COUNT n) 1).tilCause n 1
  else (s.stallOn n (.emit 0 0x10000 len)).countTil n 7 1

/-- RUN of tiller `n`, accepted only in HALTED. The reference program executes again the EMIT that its halt abandoned (R172). A tiller
that an uncorrectable error had halted is a derate source no longer. -/
def State.tilRun (s : State) (n : Nat) : State :=
  if (s.tiller n).state = .halted then
    let s := s.onTiller n fun t =>
      let t := if t.refRuns && t.refFresh then t.refStart else t
      { t with state := .running, stepping := false, fresh := true }
    let s := match (s.tiller n).refRedo with
      | some len => (s.onTiller n fun t => { t with refRedo := none }).refIssueEmit n len
      | none => s
    s.derateCheck
  else s.cfgReject

/-- HALT of tiller `n`: a request that takes effect at the next instruction boundary; no effect in HALTED. -/
def State.tilHaltReq (s : State) (n : Nat) : State :=
  match (s.tiller n).state with
  | .halted => s
  | .init => s.cfgReject
  | _ => s.onTiller n fun t => { t with haltReq := true }

/-- HALT (R126). -/
def execHalt (n : Fin 192) (s : State) : Host.Outcome State Fault Refusal :=
  .next (s.access s.tilStopped fun s => s.tilHaltReq n)

/-- HALT_AT_BOUNDARY (R126): the requested halt takes effect; a stalled receive, send or emit is abandoned, but a transfer in
progress completes first. Held tillers stay where they are (R129). -/
def execHaltAtBoundary (n : Fin 192) (s : State) : Host.Outcome State Fault Refusal :=
  let t := s.tiller n
  .next (if !s.tilStopped && t.haltReq && !t.transferring && (t.state == .running || t.state == .stalled) then s.tilHalt n 1 else s)

/-- Runs the instruction in the word at PC (R140). -/
def State.fetchRun (s : State) (n t : Nat) : State :=
  let x := s.tiller n
  match decodeKrytold (x.iword (x.pc / 4)) with
  | some k => runOp n t k s
  | none => s.trap n 1 none

/-- MEM_INIT of tiller `n`, accepted only in HALTED (R114). -/
def State.tilInit (s : State) (n : Nat) : State :=
  if (s.tiller n).state = .halted then (s.onTiller n fun t => { t with state := .init, refRuns := false }).derateCheck
  else s.cfgReject

/-- Both memories zeroed with valid check fields, registers and FLAGS 0, HALTED with HALT_CAUSE 0 and TIL_PC 0; the scrubber starts
again (R114, R138, R110). -/
def Tiller.zeroed (t : Tiller) : Tiller :=
  { t with imem := [], dmem := [], imemCond := [], dmemCond := [], sreg := [], vreg := [], badS := [], badV := [], flags := 0,
           state := .halted, haltCause := 0, pc := 0, scrub := 0, haltReq := false, refRedo := none }

/-- MEM_INIT_COMPLETE (R114). A held tiller's MEM_INIT stands still (R129). A word that the host wrote while MEM_INIT ran is zero too
(DESIGN CHOICE, log entry 218). -/
def execMemInitComplete (n : Fin 192) (s : State) : Host.Outcome State Fault Refusal :=
  .next (if (s.tiller n).state = .init ∧ !s.tilStopped then s.onTiller n Tiller.zeroed else s)

/-- Tiller `n` is selected by TIL_SEL. -/
def State.selected (s : State) (n : Nat) : Bool := (s.rd (F.TIL_SEL_SEL (n / 32))).testBit (n % 32)

/-- RUN of every selected tiller in HALTED; one SYS_CFG_REJECT if any other ignored it (R127). -/
def State.groupRun (s : State) : State :=
  let bad := (List.range 192).any fun n => s.selected n && (s.tiller n).state != .halted
  let s' := s.forN 192 fun n s => if s.selected n && (s.tiller n).state == .halted then s.tilRun n else s
  if bad then s'.cfgReject else s'

/-- HALT of every selected tiller; one SYS_CFG_REJECT if any ignored it (R127). -/
def State.groupHalt (s : State) : State :=
  let bad := (List.range 192).any fun n => s.selected n && (s.tiller n).state == .init
  let s' := s.forN 192 fun n s => if s.selected n && (s.tiller n).state != .init then s.tilHaltReq n else s
  if bad then s'.cfgReject else s'

/-- GROUP_HALT (R127). -/
def execGroupHalt (s : State) : Host.Outcome State Fault Refusal := .next (s.access s.tilStopped State.groupHalt)

/-- A write of TIL_PC (R128): only in HALTED; it clears IN_TRAP and IN_ATTN. Bits that must be 0 make the code reserved. A write
of 0 makes the reference program start afresh (R172). -/
def State.writePc (s : State) (n : Nat) (w : Word) : State :=
  if w.toNat % 4 ≠ 0 ∨ 0x8000 ≤ w.toNat then s.cfgReject
  else if (s.tiller n).state = .halted then
    s.onTiller n fun t => { t with pc := w.toNat, inTrap := false, inAttn := false, refFresh := t.refFresh || w == 0, refRedo := none }
  else s.cfgReject

/-- TIL_PC_WRITE (R128). -/
def execTilPcWrite (n : Fin 192) (w : Word) (s : State) : Host.Outcome State Fault Refusal :=
  .next (s.access s.tilStopped fun s => s.writePc n w)

/-- BREAKPOINT (R127): the tiller reaches TIL_BKPT.WORD and halts before executing it. -/
def execBreakpoint (n : Fin 192) (s : State) : Host.Outcome State Fault Refusal :=
  let t := s.tiller n
  .next (if !s.tilStopped && t.state == .running && !s.diverts n && !t.fresh && s.on (F.TIL_BKPT_EN n) && t.pc == 4 * s.rd (F.TIL_BKPT_WORD n)
    then s.tilHalt n 2 else s)

/-! ### The tiller memory window (R113, R125, R29) -/

/-- A host write of `k` words at offset `ofs` of tiller `n`'s memories; `none` where it is rejected (R113). -/
def Tiller.hostWrite (t : Tiller) (ofs : Nat) (ws : List Word) : Option Tiller :=
  if 0x10000 ≤ ofs then
    some ((List.range ws.length).foldl (fun t i => t.setDword ((ofs - 0x10000) / 4 + i) (ws.getD i 0)) t)
  else if t.state = .halted then
    some { (List.range ws.length).foldl (fun t i => t.setIword (ofs / 4 + i) (ws.getD i 0)) t with refRuns := false }
  else none

/-- The 32-bit words of a write of `bytes` = 4 or 8. -/
def wordsOf (bytes : Nat) (data : BitVec 64) : List Word :=
  if bytes = 8 then [BitVec.ofNat 32 data.toNat, BitVec.ofNat 32 (data.toNat / 2 ^ 32)] else [BitVec.ofNat 32 data.toNat]

/-- An aligned access of 4 or 8 bytes. -/
def aligned48 (ofs bytes : Nat) : Bool := (bytes == 4 || bytes == 8) && ofs % bytes == 0

/-- Offsets of a stride that hold memory (Table AR-6). -/
def windowOffset (ofs : Nat) : Bool := decide (ofs < 0x8000) || (decide (0x10000 ≤ ofs) && decide (ofs < 0x20000))

/-- A host write through the window to the tillers that `sel` names: rejected once if any of them rejects it (R125). -/
def State.windowWrite (s : State) (sel : List Nat) (ofs bytes : Nat) (data : BitVec 64) : State :=
  if !(aligned48 ofs bytes) || !(windowOffset ofs) then s.cfgReject
  else
    let bad := sel.any fun n => ((s.tiller n).hostWrite ofs (wordsOf bytes data)).isNone
    let s' := sel.foldl (fun s n => match (s.tiller n).hostWrite ofs (wordsOf bytes data) with
      | some t => s.setTiller n t
      | none => s) s
    if bad then s'.cfgReject else s'

/-- The tillers a write to tiller `n`'s stride is applied to (R125). -/
def State.windowTargets (s : State) (n : Nat) : List Nat :=
  if n = 0 ∧ s.on F.TIL_LOAD_CFG_BCAST then (List.range 192).filter fun m => s.selected m else [n]

/-- TILLER_MEMORY_WRITE (R113): `bytes` bytes at offset `ofs` of tiller `n`'s stride. -/
def execTillerMemoryWrite (n : Fin 192) (ofs bytes : Nat) (data : BitVec 64) (s : State) : Host.Outcome State Fault Refusal :=
  .next (s.access s.tilStopped fun s => s.windowWrite (s.windowTargets n) ofs bytes data)

/-- BROADCAST_WRITE (R125): a write to tiller 0's stride, broadcast while BCAST = 1. -/
def execBroadcastWrite (ofs bytes : Nat) (data : BitVec 64) (s : State) : Host.Outcome State Fault Refusal :=
  .next (s.access s.tilStopped fun s => s.windowWrite (s.windowTargets 0) ofs bytes data)

/-- One word read by the host: a single-bit error is corrected and counted, a fresh uncorrectable word counted, without trap or
cause (R113). While MEM_INIT runs the word may already read 0: which is a free choice. -/
def State.windowWord (s : State) (n ofs : Nat) : Word × State :=
  let t := s.tiller n
  let d := decide (0x10000 ≤ ofs)
  let i := if d then (ofs - 0x10000) / 4 else ofs / 4
  let w := if d then t.dword i else t.iword i
  let (zeroed, s) : Bool × State := if t.state = .init then (let (x, s) := s.drawFree 1; (x != 0, s)) else (false, s)
  if zeroed then (0, s)
  else
    match Tab.get (fun _ => Cond.ok) (if d then t.dmemCond else t.imemCond) i with
    | .ce =>
      let f (c : Tab Cond) : Tab Cond := Tab.set (fun _ => .ok) c i .ok
      (w, (s.setTiller n (if d then { t with dmemCond := f t.dmemCond } else { t with imemCond := f t.imemCond })).tilCE n)
    | .ue => (w, s.tilUE n)
    | _ => (w, s)

/-- Puts the data a read returned to its master. -/
def State.answerRead (s : State) (v : Nat) : State := { s with sys := { s.sys with rdata := v } }

/-- A host read of `bytes` bytes through the window (R29, R113). R29 states narrower aligned reads of registers only: of the window
they return the addressed bytes (DESIGN CHOICE, log entry 187). -/
def State.windowRead (s : State) (n ofs bytes : Nat) : State :=
  if !aligned ofs bytes then (s.answerRead 0).cfgReject
  else if !windowOffset ofs then (s.answerRead 0).cfgReject
  else if bytes = 8 then
    let (a, s) := s.windowWord n ofs
    let (b, s) := s.windowWord n (ofs + 4)
    s.answerRead (a.toNat + 2 ^ 32 * b.toNat)
  else
    let (a, s) := s.windowWord n (ofs / 4 * 4)
    s.answerRead (a.toNat / 2 ^ (8 * (ofs % 4)) % 2 ^ (8 * bytes))

/-- TILLER_MEMORY_READ (R113). -/
def execTillerMemoryRead (n : Fin 192) (ofs bytes : Nat) (s : State) : Host.Outcome State Fault Refusal :=
  .next (s.access s.tilStopped fun s => s.windowRead n ofs bytes)

/-- SCRUB_READ (R110): the scrubber reads its next word and finds it clean, with one bit wrong, or uncorrectable (`found` 0, 1,
2) where the word was clean until now. -/
def execScrubRead (n : Fin 192) (found : Fin 3) (s : State) : Host.Outcome State Fault Refusal :=
  .next <|
    if s.tilStopped then s
    else
      let t := s.tiller n
      let k := t.scrub
      let d := decide (8192 ≤ k)
      let i := if d then k - 8192 else k
      let put (c : Cond) (t : Tiller) : Tiller :=
        if d then { t with dmemCond := Tab.set (fun _ => .ok) t.dmemCond i c }
        else { t with imemCond := Tab.set (fun _ => .ok) t.imemCond i c }
      let was := Tab.get (fun _ => Cond.ok) (if d then t.dmemCond else t.imemCond) i
      let now := if was = .ok then (match found with | 0 => Cond.ok | 1 => .ce | 2 => .ue) else was
      let s := s.setTiller n { put now t with scrub := (k + 1) % 24576 }
      match now with
      | .ce => (s.onTiller n (put .ok)).tilCE n
      | .ue => (s.tilUE n).tilCause n 5
      | _ => s

/-! ### Attention (R119, R120) -/

/-- DL_ALARM: DL_REMAIN has fallen to TIL_ATTN_CFG.DL_ALARM or below; the alarm fires at most once per point cycle. -/
def execDlAlarm (n : Fin 192) (s : State) : Host.Outcome State Fault Refusal :=
  .next (if s.running && s.on (F.TIL_CFG_MSG_ATTN n) && s.rd (F.TIL_ATTN_CFG_DL_ALARM n) != 0 && !(s.tiller n).dlFired then
      s.onTiller n fun t => { t with pendDl := true, dlFired := true }
    else s)

/-- ILLEGAL_INSTRUCTION (R140): the word fetched at PC is no defined instruction. -/
def execIllegalInstruction (n : Fin 192) (s : State) : Host.Outcome State Fault Refusal :=
  .next (s.issue n fun s => s.trap n 1 none)

/-- IMEM_UE_FETCH (R111): the fetch at PC finds the word uncorrectable; the word stays so. -/
def execImemUeFetch (n : Fin 192) (s : State) : Host.Outcome State Fault Refusal :=
  .next (s.issue n fun s =>
    (s.onTiller n fun t => { t with imemCond := Tab.set (fun _ => .ok) t.imemCond (t.pc / 4) .ue }).imemUE n)

end Sys2Proof.Machine
end

