-- ==== Sys2Proof/Machine/Memory.lean ====
section
/-! DEFINITION. The memory controller (chapter 13): the 41-bit address space, accesses with their checks, the staging ring, refresh,
self-refresh, panic, hotspots and training; and the time base of timestamps (R171, R398), which many blocks read. -/

namespace Sys2Proof.Machine

/-! ### Time base (R171, R398) -/

/-- One nanosecond of the 802.1AS clock in the model's units of 2^-40 fs. -/
def ptpUnit : Int := 1000000 * 2 ^ 40

/-- The 802.1AS clock and the step still to absorb at instant `t` (ps): it runs at 1 + RATE × 2^-40, 0.1 % fast or slow while a
step is absorbed, and stands while LNK_PTP_CTRL.EN = 0 (R398). -/
def State.ptpAtTime (s : State) (t : Nat) : Int × Int :=
  let dt : Int := ((t - s.lnk.ptpAt : Nat) : Int)
  if s.on F.LNK_PTP_CTRL_EN then
    let slew := s.lnk.slew
    let d := clip (-(dt * 2 ^ 40)) (dt * 2 ^ 40) slew
    (s.lnk.ptp + dt * 1000 * (2 ^ 40 + s.rdS F.LNK_PTP_RATE_RATE) + d, slew - d)
  else (s.lnk.ptp, s.lnk.slew)

/-- The 802.1AS clock in ns, 64 bits, at instant `t`. -/
def State.ptpNs (s : State) (t : Nat) : Nat := ((s.ptpAtTime t).1 / ptpUnit % 2 ^ 64).toNat

/-- The point-block time base at instant `t`, in ns (R171). -/
def State.pbTime (s : State) (t : Nat) : Nat :=
  if s.on F.SYS_PB_CFG_TIME_SRC then s.ptpNs t else (t - s.sys.resetEnd) / 1000 % 2 ^ 64

/-! ### Addresses (R357 to R360) -/

/-- Where a 41-bit address leads: a local byte, a host address, or nowhere with the CAUSE of MEM_ADDR_ERR_INFO. -/
inductive Place where
  | loc (a : Nat)
  | host (a : Nat)
  | bad (cause : Nat)
  deriving DecidableEq, Repr

/-- Usable local bytes (MEM_SIZE). -/
def State.localSize (s : State) : Nat := 2 ^ 20 * s.rd F.MEM_SIZE_MIB

/-- MEM_SIZE in MiB as MEM_CFG gives it (R356). -/
def State.cfgSize (s : State) : Nat :=
  let m := 4 * (1 + s.rd F.MEM_CFG_RANKS) * (512 * 2 ^ s.rd F.MEM_CFG_DENSITY)
  if s.on F.MEM_CFG_INLINE then m - m / 8 else m

/-- The PCIe link is up and bus mastering is enabled (R359); a function in D3hot makes no request (PRESUMED, log entry 231). -/
def State.hostReachable (s : State) : Bool := s.on F.LNK_STATUS_PCIE_UP && s.on F.LNK_STATUS_BME && !s.lnk.d3

/-- The lowest-numbered enabled window that holds address `a` (R358). -/
def State.windowOf (s : State) (a : Nat) : Option Nat :=
  (List.range 8).find? fun w =>
    let base := 2 ^ 20 * s.rd (F.MEM_WIN_BASE_BASE w)
    s.on (F.MEM_WIN_CFG_EN w) && decide (base ≤ a) && decide (a < base + 2 ^ s.rd (F.MEM_WIN_CFG_SIZE w))

/-- Where port `p`'s access to address `a` leads (R357 to R359). -/
def State.place (s : State) (p a : Nat) : Place :=
  if a < s.localSize then .loc a
  else if a < 2 ^ 40 then .bad 1
  else match s.windowOf a with
    | none => .bad 1
    | some w =>
      if p = 2 then .bad 3
      else if !s.hostReachable then .bad 2
      else .host (2 ^ 32 * s.rd (F.MEM_WIN_HOST_HI_HOST w) + 2 ^ 20 * s.rd (F.MEM_WIN_HOST_LO_HOST w)
        + (a - 2 ^ 20 * s.rd (F.MEM_WIN_BASE_BASE w)))

/-- A read of a window waits: 64 non-posted requests are outstanding (Table LK-2). -/
def State.readsFull (s : State) (p a : Nat) : Bool :=
  match s.place p a with
  | .host _ => decide (64 ≤ s.lnk.reads.length)
  | _ => false

/-- Records a faulty access, the first since MEM_ADDR_ERR_INFO was read (R359). -/
def State.addrErr (s : State) (p cause a : Nat) : State :=
  if s.rd F.MEM_ADDR_ERR_INFO_CAUSE = 0 then
    ((((s.wr F.MEM_ADDR_ERR_ADDR_ADDR a).wr F.MEM_ADDR_ERR_INFO_CAUSE cause).wr F.MEM_ADDR_ERR_INFO_PORT p).wr
      F.MEM_ADDR_ERR_INFO_ADDR (a / 2 ^ 32)).raise 491
  else s

/-- Channel, bank, column in bursts, rank and row of local address `a` under ORDER (R360, Table MC-3). -/
def State.dramMap (s : State) (a : Nat) : Nat × Nat × Nat × Nat × Nat :=
  let two := s.on F.MEM_CFG_RANKS
  let q := s.localSize / 4
  match s.rd F.MEM_CFG_ORDER with
  | 0 => (bits a 9 8 ^^^ bits a 23 22 ^^^ bits a 31 30, bits a 13 10 ^^^ bits a 21 18 ^^^ bits a 29 26,
      bits a 16 14 * 4 + bits a 7 6, if two then bits a 17 17 else 0, if two then a / 2 ^ 18 else a / 2 ^ 17)
  | 1 => (bits a 7 6, bits a 11 8 ^^^ bits a 21 18, bits a 16 12, if two then bits a 17 17 else 0,
      if two then a / 2 ^ 18 else a / 2 ^ 17)
  | _ =>
    let o := a % q
    (a / q, bits o 14 11, bits o 10 6, if two then o / (q / 2) else 0, (if two then o % (q / 2) else o) / 2 ^ 15)

/-- The local address of a burst (the inverse of Table MC-3). -/
def State.dramUnmap (s : State) (ch bank col rank row : Nat) : Nat :=
  let two := s.on F.MEM_CFG_RANKS
  let q := s.localSize / 4
  let up := if two then row * 2 ^ 18 + rank * 2 ^ 17 else row * 2 ^ 17
  match s.rd F.MEM_CFG_ORDER with
  | 0 => up + col / 4 * 2 ^ 14 + (bank ^^^ bits up 21 18 ^^^ bits up 29 26) * 2 ^ 10
      + (ch ^^^ bits up 23 22 ^^^ bits up 31 30) * 2 ^ 8 + col % 4 * 2 ^ 6
  | 1 => up + col * 2 ^ 12 + (bank ^^^ bits up 21 18) * 2 ^ 8 + ch * 2 ^ 6
  | _ => ch * q + (if two then rank * (q / 2) else 0) + row * 2 ^ 15 + bank * 2 ^ 11 + col * 2 ^ 6

/-! ### Local DRAM and its checks (R372, R374 to R376) -/

/-- The loss that covers local address `a`, if its contents are lost. -/
def State.lostAt (s : State) (a : Nat) : Option Nat :=
  (s.mem.lost.find? fun r => decide (r.1 ≤ a) && decide (a < r.2.1)).map fun r => r.2.2

/-- The byte at local address `a`. -/
def State.dramByte (s : State) (a : Nat) : Byte :=
  match s.lostAt a with
  | some k => Config.lostByte k a
  | none => Tab.get (fun _ => 0) s.mem.dram a

/-- The condition of the 64-bit word `i` under inline ECC; without it no check covers the word. -/
def State.dramCond (s : State) (i : Nat) : Cond :=
  if !s.on F.MEM_CFG_INLINE then .ok
  else match s.lostAt (8 * i) with
    | some k => if Config.lostCheck k i then .ue else .ok
    | none => Tab.get (fun _ => .ok) s.mem.cond i

/-- The contents of [lo, hi) become undefined (R372): a free value stands for each byte. -/
def State.lose (s : State) (lo hi : Nat) : State :=
  if lo < hi then
    { s with mem := { s.mem with lost := (lo, hi, s.freeIx) :: s.mem.lost }, freeIx := s.freeIx + 1 }
  else s

/-- The parts of lost ranges that a write of [lo, hi) leaves lost. -/
def cutLost (lo hi : Nat) (l : List (Nat × Nat × Nat)) : List (Nat × Nat × Nat) :=
  l.flatMap fun (a, b, k) =>
    if b ≤ lo ∨ hi ≤ a then [(a, b, k)]
    else (if a < lo then [(a, lo, k)] else []) ++ (if hi < b then [(hi, b, k)] else [])

/-- A corrected error (R375): MEM_ECC_CE is raised when the count reaches LIMIT, again only after a read has cleared it. -/
def State.memCE (s : State) : State :=
  let s := s.bump F.MEM_ECC_CE_CNT_COUNT 1
  if s.rd F.MEM_ECC_CE_THR_LIMIT ≤ s.rd F.MEM_ECC_CE_CNT_COUNT ∧ !s.mem.ceRaised then
    { s with mem := { s.mem with ceRaised := true } }.raise 489
  else s

/-- A fresh uncorrectable read at address `a` (R376). -/
def State.memUE (s : State) (a : Nat) : State :=
  (((s.bump F.MEM_ECC_UE_CNT_COUNT 1).wr F.MEM_ECC_ADDR_LO_ADDR a).wr F.MEM_ECC_ADDR_HI_ADDR (a / 2 ^ 32)).raise 488

/-- A fresh uncorrectable read of port `p` at address `a`: data that goes to the host link or to Ethernet fails at that crossing too
(Table AR-15). -/
def State.portUE (s : State) (p a : Nat) : State := (s.memUE a).raiseIf (p == 1 || p == 2) 496

/-- Reads the checks of `n` words from word `i` for port `p`: single-bit errors are corrected, written back and counted,
uncorrectable ones counted and recorded; answers whether any word is uncorrectable or poisoned. -/
def State.checkWords (s : State) (p i n : Nat) : Bool × State :=
  (List.range n).foldl (fun (x : Bool × State) j =>
    match x.2.dramCond (i + j) with
    | .ok => x
    | .ce => (x.1, { x.2 with mem := { x.2.mem with cond := Tab.set (fun _ => .ok) x.2.mem.cond (i + j) .ok } }.memCE)
    | .ue => (true, x.2.portUE p (8 * (i + j)))
    | .poison => (true, x.2)) (false, s)

/-- The link check of one read of port `p` at address `a` (R374): a corrected error is counted, an uncorrectable one reissues the read,
and a second failure makes the read uncorrectable; answers whether it is. -/
def State.linkCheck (s : State) (p a : Nat) : Bool × State :=
  if !s.on F.MEM_CFG_LINK_ECC then (false, s)
  else
    let k := s.mem.linkNext.headD 0
    let s : State := { s with mem := { s.mem with linkNext := s.mem.linkNext.drop 1 } }
    let s := if k = 1 then s.memCE else s
    let s := if 2 ≤ k then s.bump F.MEM_CNT_LINK_RETRY_COUNT 1 else s
    if k = 3 then (true, s.portUE p a) else (false, s)

/-- Words touched by the bytes [a, a + len). -/
def wordSpan (a len : Nat) : Nat × Nat := (a / 8, (a + len + 7) / 8 - a / 8)

/-- The key of the bank of rank `rank` of channel `ch` in the table of open rows. -/
def bankKey (ch rank bank : Nat) : Nat := 32 * ch + 16 * rank + bank

/-- Bursts that port `p` has been served on channel `ch` in the present round (R361). -/
def State.turn (s : State) (ch p : Nat) : Nat := Tab.get (fun _ => 0) s.mem.turns (8 * ch + p)

/-- The round robin counts a burst of port `p` on channel `ch`: a port that has used up its WEIGHT begins the next round (DESIGN CHOICE,
log entry 196). -/
def State.takeTurn (s : State) (ch p : Nat) : State :=
  let t := if s.turn ch p < s.rd (F.MEM_PORT_CFG_WEIGHT p) then s.mem.turns else s.mem.turns.filter fun e => e.1 / 8 != ch
  { s with mem := { s.mem with turns := Tab.set (fun _ => 0) t (8 * ch + p) (Tab.get (fun _ => 0) t (8 * ch + p) + 1) } }

/-- Requests of an engine's port have been served: the oldest urgent ones are the first to go (R362). -/
def State.lateServed (s : State) (p n : Nat) : State :=
  let k := Tab.get (fun _ => 0) s.mem.late p
  if k = 0 then s
  else ({ s with mem := { s.mem with late := Tab.set (fun _ => 0) s.mem.late p (k - n) } } : State).put (F.MEM_PORT_STATUS_URGENT p)
    (decide (n < k))

/-- A bank of channel `ch` is activated (R384): the channel's counts grow, ranks together; at 65,536 a window is complete with its largest
bank, the lowest of equals, and its share, and the counts start again. -/
def State.activate (s : State) (ch bank : Nat) : State :=
  let n (b : Nat) : Nat := Tab.get (fun _ => 0) s.mem.acts (16 * ch + b) + (if b = bank then 1 else 0)
  let all := (List.range 16).map n
  if all.sum < 65536 then { s with mem := { s.mem with acts := Tab.set (fun _ => 0) s.mem.acts (16 * ch + bank) (n bank) } }
  else
    let big := all.foldl max 0
    { s with mem := { s.mem with
      acts := s.mem.acts.filter fun e => e.1 / 16 != ch
      windows := Tab.set (fun _ => []) s.mem.windows ch
        (Tab.get (fun _ => []) s.mem.windows ch ++ [((List.range 16).find? fun b => n b == big).getD 0 * 1024 + big / 256]) } }

/-- A burst of port `p` at local address `a` is served: it is counted (MEM_PORT_CNT, Table EV-4), with the activate
that a row not open yet takes, and its row stays open. -/
def State.countBursts (s : State) (p a lo : Nat) : State :=
  let (ch, bank, _, rank, row) := s.dramMap a
  let s := (s.bump (F.MEM_PORT_CNT_BURSTS p) 1).count 7 lo ch 1
  let s := if Tab.get (fun _ => 0) s.mem.openRow (bankKey ch rank bank) = row + 1 then s
    else (s.count 7 2 ch 1).activate ch bank
  ({ s with mem := { s.mem with openRow := Tab.set (fun _ => 0) s.mem.openRow (bankKey ch rank bank) (row + 1) } } : State).takeTurn ch p
    |>.lateServed p 1

/-- A read of up to 64 local bytes. -/
def State.readLocal (s : State) (p a len : Nat) : List Byte × Bool × State :=
  let w := wordSpan a len
  let (bad, s) := s.checkWords p w.1 w.2
  let (lost, s) := s.linkCheck p a
  ((List.range len).map fun i => s.dramByte (a + i), bad || lost, s.countBursts p a 3)

/-- The read of a read-modify-write of the 64-byte burst at local address `a` (R375): its words are checked, corrected and counted, and
what cannot be corrected, or the whole burst where the link check fails again, goes back poisoned (R38). Answers the bad words. -/
def State.readBurst (s : State) (a : Nat) : List Nat × State :=
  let i0 := a / 64 * 8
  let (bad, s) := (List.range 8).foldl (fun (x : List Nat × State) j =>
    let (b, s) := x.2.checkWords 7 (i0 + j) 1
    (if b then (i0 + j) :: x.1 else x.1, s)) ([], s)
  let (lost, s) := s.linkCheck 7 (64 * (a / 64))
  (if lost then (List.range 8).map (i0 + ·) else bad, s)

/-- A write of up to 64 local bytes (R375): under inline ECC one shorter than a burst reads and writes back the whole burst. A bad word
that it does not cover whole stays poisoned (R38); the checks are written inverted where `poison` says so (R39). -/
def State.writeLocal (s : State) (p a : Nat) (data : List Byte) (poison : Bool) : State :=
  let len := data.length
  let w := wordSpan a len
  let short := decide (len < 64) && s.on F.MEM_CFG_INLINE
  let (bad, s) := if short then s.readBurst a else ([], s)
  let whole (i : Nat) : Bool := decide (a ≤ 8 * i) && decide (8 * i + 8 ≤ a + len)
  let kept := bad.filter fun i => !whole i
  let cond (i : Nat) : Cond := if poison || kept.contains i then .poison else .ok
  let conds := if s.on F.MEM_CFG_INLINE then
      kept.foldl (fun c i => Tab.set (fun _ => .ok) c i .poison)
        ((List.range w.2).foldl (fun c j => Tab.set (fun _ => .ok) c (w.1 + j) (cond (w.1 + j))) s.mem.cond)
    else s.mem.cond
  { s with mem := { s.mem with
      dram := Mem.store 0 s.mem.dram a data
      cond := conds
      lost := cutLost a (a + len) s.mem.lost } }.countBursts p a 4

/-! ### Accesses -/

/-- A memory write leaves for host memory as a posted TLP (R358, R393). -/
def State.postWrite (s : State) (a : Nat) (data : List Byte) (ep : Bool) : State :=
  { s with lnk := { s.lnk with tlps := s.lnk.tlps ++ [Tlp.mk a data ep] } }.count 8 2 0 1

/-- A write of one request of up to 64 bytes. -/
def State.memWrite1 (s : State) (p a : Nat) (data : List Byte) (poison : Bool) : State :=
  match s.place p a with
  | .loc a => s.writeLocal p a data poison
  | .host h => (s.postWrite h data poison).lateServed p 1
  | .bad c => s.addrErr p c a

/-- A write of any length, in requests that stay within one 64-byte unit. -/
def State.memWrite (fuel : Nat) (s : State) (p a : Nat) (data : List Byte) (poison : Bool) : State :=
  match fuel with
  | 0 => s
  | k + 1 =>
    if data.isEmpty then s
    else
      let n := 64 - a % 64
      State.memWrite k (s.memWrite1 p a (data.take n) poison) p (a + n) (data.drop n) poison

/-- A write of a byte list. -/
def State.memStore (s : State) (p a : Nat) (data : List Byte) (poison : Bool) : State :=
  s.memWrite (data.length + 1) p a data poison

/-- A read of one request of up to 64 bytes from local DRAM; an access that goes wrong answers ones with poison (R359). -/
def State.memRead1 (s : State) (p a len : Nat) : List Byte × Bool × State :=
  match s.place p a with
  | .loc a => s.readLocal p a len
  | .host _ => (List.replicate len 0xFF, true, s)
  | .bad c => (List.replicate len 0xFF, true, s.addrErr p c a)

/-- A read of any length, in requests that stay within one 64-byte unit. -/
def State.memRead (fuel : Nat) (s : State) (p a len : Nat) : List Byte × Bool × State :=
  match fuel with
  | 0 => ([], false, s)
  | k + 1 =>
    if len = 0 then ([], false, s)
    else
      let n := min len (64 - a % 64)
      let (d, b, s) := s.memRead1 p a n
      let (d', b', s) := State.memRead k s p (a + n) (len - n)
      (d ++ d', b || b', s)

/-- A read of `len` bytes. -/
def State.memLoad (s : State) (p a len : Nat) : List Byte × Bool × State := s.memRead (len + 1) p a len

/-! ### Requests that wait (R361, R371) -/

/-- An access to DRAM waits: the controller is enabled and serves nothing now. -/
def State.memBlocked (s : State) : Bool := !s.memReady && s.memState != 0

/-! ### Port queues (R361 to R364) -/

/-- Cuts a request at the 64-byte bursts of the memory controller. -/
def cutRequest : Nat → Nat → Nat → List (Nat × Nat × Nat)
  | 0, _, _ => []
  | fuel + 1, o, n =>
    if n = 0 then []
    else
      let k := min n (64 - o % 64)
      (o, k, 0) :: (cutRequest fuel (o + k) (n - k)).map fun x => (x.1, x.2.1, x.2.2 + k)

/-- The requests of port `p`, oldest first: the first 32 stand in its queue, the rest is held back at the link (R361). -/
def State.port (s : State) (p : Nat) : List Req := Tab.get (fun _ => []) s.mem.queues p

/-- Puts the queue of port `p`, keeping MEM_PORT_STATUS.URGENT. -/
def State.setPort (s : State) (p : Nat) (q : List Req) : State :=
  { s with mem := { s.mem with queues := Tab.set (fun _ => []) s.mem.queues p q } }.put (F.MEM_PORT_STATUS_URGENT p)
    (q.any Req.urgent)

/-- The channel, bank, rank and row a request goes to, when it goes to local DRAM. -/
def State.reqBank (s : State) (p : Nat) (r : Req) : Option (Nat × Nat × Nat × Nat) :=
  match s.place p r.addr with
  | .loc a => let (ch, bank, _, rank, row) := s.dramMap a; some (ch, bank, rank, row)
  | _ => none

/-- The channel a request goes to, when it goes to local DRAM. -/
def State.reqChannel (s : State) (p : Nat) (r : Req) : Option Nat := (s.reqBank p r).map fun b => b.1

/-! ### Requests of the engines, and turns (R361) -/

/-- The capture ring: base and size in bytes (R295). -/
def State.capBase (s : State) : Nat := 2 ^ 32 * s.rd F.MER_CAP_BASE_HI_BASE + 2 ^ 16 * s.rd F.MER_CAP_BASE_LO_BASE
def State.capRing (s : State) : Nat := 2 ^ 16 * s.rd F.MER_CAP_SIZE_SIZE

/-- The trace ring: base and size (R448). -/
def State.trcBase (s : State) : Nat := 2 ^ 32 * s.rd F.OBS_TRC_BASE_HI_BASE + 2 ^ 16 * s.rd F.OBS_TRC_BASE_LO_BASE
def State.trcSize (s : State) : Nat := 2 ^ 16 * s.rd F.OBS_TRC_SIZE_SIZE

/-- The offset from which the packetiser reads its next record. -/
def State.pktOfs (s : State) : Nat :=
  match s.lnk.taken.getLast? with
  | some x => x.2.1
  | none => s.rd F.MEM_PB_RPTR_OFS

/-- Where an image is staged: BOOT_STAGE_BASE, or local address 0 in RECOVERY. -/
def State.stageBase (s : State) : Nat :=
  if s.mode = mRECOVERY then 0 else 2 ^ 32 * s.rd F.BOOT_STAGE_BASE_HI_BASE + 2 ^ 23 * s.rd F.BOOT_STAGE_BASE_LO_BASE

/-- Destination of a stream (OBS_TRC_ROUTE). -/
def State.route (s : State) (x : Stream) : Nat :=
  match x with
  | .smp => s.rd F.OBS_TRC_ROUTE_SMP
  | .evt => s.rd F.OBS_TRC_ROUTE_EVT
  | .snap => s.rd F.OBS_TRC_ROUTE_SNAP

/-- Base address of the staging ring and its size in bytes (R366). -/
def State.pbBase (s : State) : Nat := 2 ^ 32 * s.rd F.MEM_PB_BASE_HI_BASE + 2 ^ 16 * s.rd F.MEM_PB_BASE_LO_BASE
def State.pbSize (s : State) : Nat := 2 ^ 16 * s.rd F.MEM_PB_SIZE_SIZE

/-- Writes of `n` bytes from offset `w` of a ring at `base`, cut at 64-byte units. -/
def ringReqs (base w n : Nat) : List Req := (cutRequest ((n + 63) / 64 + 1) (base + w) n).map fun x => ⟨true, x.1, x.2.1, [], false, false⟩

/-- The records of the staging engine's next writes, as requests. -/
def State.stagingRecs (s : State) : List (List Req) :=
  (s.oq.blocks.foldl (fun (x : Nat × List (List Req)) b =>
    let n := (16 + b.bytes.length + 31) / 32 * 32
    let w := if x.1 + n ≤ s.pbSize then x.1 else 0
    (w + n, x.2 ++ [ringReqs s.pbBase w n])) (s.rd F.MEM_PB_WPTR_OFS, [])).2

/-- The address of a burst of the row that a sweep uses (R380). -/
def State.sweepAddr (s : State) (col : Nat) : Nat :=
  s.dramUnmap (s.rd F.MEM_TRN_ADDR_CH) (s.rd F.MEM_TRN_CFG_BANK) col (s.rd F.MEM_TRN_CFG_RANK) (s.rd F.MEM_TRN_ADDR_ROW)

/-- What the engine behind port `p` waits to have served, record by record: the staging of released blocks, the packetiser's next record,
capture records, the firmware's accesses, trace records, a sweep, the scrubber's read (Table MC-4). -/
def State.engineRecs (s : State) (p : Nat) : List (List Req) :=
  match p with
  | 0 => s.stagingRecs
  | 1 => if s.on F.MEM_PB_CFG_CONSUMER && s.pktOfs != s.rd F.MEM_PB_WPTR_OFS then [ringReqs s.pbBase s.pktOfs 16] else []
  | 3 => s.cap.queue.map fun r => ringReqs s.capBase (s.rd F.MER_CAP_WPTR_OFS) r.length
  | 4 => s.boot.memJobs.map fun _ => [⟨true, s.stageBase, 64, [], false, false⟩]
  | 5 => (s.obs.queue.filter fun x => s.route x.1 == 2).map fun x => ringReqs s.trcBase (s.rd F.OBS_TRC_RING_WPTR_OFS) x.2.length
  | 6 => if s.on F.MEM_TRN_CTRL_BUSY then [[⟨true, s.sweepAddr (s.rd F.MEM_TRN_ADDR_COL), 64, [], false, false⟩]] else []
  | 7 => if s.mem.scrubWaits then [[⟨false, s.mem.scrub % s.localSize, 64, [], false, false⟩]] else []
  | _ => []

/-- The requests of the engine behind port `p`, the oldest urgent as R362 has made them. -/
def State.engineReqs (s : State) (p : Nat) : List Req :=
  let k := Tab.get (fun _ => 0) s.mem.late p
  (s.engineRecs p).flatten.zipIdx.map fun (x : Req × Nat) => { x.1 with urgent := decide (x.2 < k) }

/-- The queue of port `p`: at most 32 requests, the oldest first (R361); those of an engine stand in its own records. -/
def State.queued (s : State) (p : Nat) : List Req := (s.port p ++ s.engineReqs p).take 32

/-- Records of the engine behind port `p` whose first request stands in the port's queue. -/
def State.queuedRecs (s : State) (p : Nat) : Nat :=
  ((s.engineRecs p).foldl (fun (x : Nat × Nat) r => if x.1 < 32 then (x.1 + r.length, x.2 + 1) else x) ((s.port p).length, 0)).2

/-- The class of a request of port `p`, lowest served first (R361). A refresh has the classes 1, forced, and 3, due. -/
def State.reqClass (s : State) (p : Nat) (r : Req) : Nat := if s.on (F.MEM_PORT_STATUS_PANIC p) then 2 else if r.urgent then 4 else 5

/-- No request of a higher class waits for channel `ch`, and within the class port `p`'s turn has come (R361). -/
def State.turnOf (s : State) (p ch cls : Nat) : Bool :=
  (List.range 8).all fun q =>
    let waits (k : Nat → Bool) := (s.queued q).any fun o => s.reqChannel q o == some ch && k (s.reqClass q o)
    !waits (fun c => decide (c < cls)) &&
      (q == p || decide (s.turn ch p < s.rd (F.MEM_PORT_CFG_WEIGHT p)) || decide (s.rd (F.MEM_PORT_CFG_WEIGHT q) ≤ s.turn ch q)
        || !waits (fun c => c == cls))

/-- The turn of the engine behind port `p` has come, for the first request that it waits with (R361); its record then goes as one
(log entry 196). -/
def State.engineTurn (s : State) (p : Nat) : Bool :=
  match (s.engineReqs p).head? with
  | none => true
  | some r => match s.reqChannel p r with
    | some ch => s.turnOf p ch (s.reqClass p r)
    | none => true

/-- The engine behind port `p` runs `f` when the controller serves requests and its turn has come; otherwise its request waits, waking
the controller from self-refresh (R361, R371). What it had queued when self-refresh entry began is served during the entry. -/
def State.whenMemory (s : State) (p : Nat) (f : State → State) : State :=
  if s.memBlocked then
    let k := Tab.get (fun _ => 0) s.mem.drain p
    if s.memState = 3 ∧ k ≠ 0 then f { s with mem := { s.mem with drain := Tab.set (fun _ => 0) s.mem.drain p (k - 1) } } else s.memWake
  else if s.engineTurn p then f s
  else s

/-- An access of the firmware to local address `a` waits: DRAM serves nothing now, or other requests go first (R361, R371). -/
def State.mgmtWaits (s : State) (a : Nat) : Bool :=
  s.memBlocked || match s.reqChannel 4 ⟨true, a, 64, [], false, false⟩ with
    | some ch => !s.turnOf 4 ch (if s.on (F.MEM_PORT_STATUS_PANIC 4) then 2 else 5)
    | none => false

/-- Serves a request: a read of a window waits for its PCIe completion (R376); a host read completes with its data. -/
def State.serve (s : State) (p : Nat) (r : Req) : State :=
  if r.write then s.memWrite1 p r.addr r.data r.poison
  else match s.place p r.addr with
    | .host h => { s with lnk := { s.lnk with reads := s.lnk.reads ++ [(p, r.addr, h, r.len)] } }
    | _ =>
      let (d, b, s) := s.memRead1 p r.addr r.len
      if p = 2 then { s with lnk := { s.lnk with comps := s.lnk.comps ++ [(d, b)] } }.count 8 2 0 1
      else { s with sys := { s.sys with rdata := ofBytes d, rbad := b } }

/-- Serves everything that waits in the port queues, port by port, oldest first, and closes every bank; the records that the engines have
queued are marked for their own commands to drain (R371). -/
def State.drainPorts (s : State) : State :=
  let d := (List.range 8).foldl (fun t p => Tab.set (fun _ => 0) t p (s.queuedRecs p)) []
  let s := s.forN 8 fun p s => ((s.port p).foldl (fun s r => s.serve p r) s).setPort p []
  { s with mem := { s.mem with openRow := [], drain := d } }

/-- What the access finds in DRAM: a single-bit (1) or uncorrectable (2) error in the word at `a`, where inline ECC covers it. -/
def State.upset (s : State) (a found : Nat) : State :=
  if found = 0 ∨ !s.on F.MEM_CFG_INLINE then s
  else { s with mem := { s.mem with cond := Tab.set (fun _ => .ok) s.mem.cond (a / 8) (if found = 1 then .ce else .ue) } }

/-- Releases port `p`'s panic latch (R363, R470). -/
def State.panicFlapRelease (s : State) (p : Nat) : State :=
  { s.wr (F.MEM_PORT_STATUS_FLAP p) 0 with mem := { s.mem with panicHist := Tab.set (fun _ => []) s.mem.panicHist p [] } }

/-- PANIC_FLAP_RELEASE (R363). -/
def execPanicFlapRelease (p : Fin 8) (s : State) : Host.Outcome State Fault Refusal :=
  .next (s.access s.sys.dramStopped fun s => s.panicFlapRelease p)

/-! ### Enable, self-refresh, INIT (R371 to R375) -/

/-- EN is set (R373): the configured size shows in MEM_SIZE; channels retained through a warm RESET leave self-refresh. -/
def State.memEnable (s : State) : State :=
  if s.on F.MEM_CTRL_EN then s
  else
    let s := (s.wr F.MEM_CTRL_EN 1).wr F.MEM_SIZE_MIB s.cfgSize
    { s.wr F.MEM_STATUS_STATE (if s.mem.retained then 5 else 2) with mem := { s.mem with retained := false } }

/-- EN is cleared: the controller is OFF, refreshes nothing, and what DRAM holds is undefined afterwards. -/
def State.memDisable (s : State) : State :=
  if s.on F.MEM_CTRL_EN then
    let s := s.lose 0 s.localSize
    let s := (((s.wr F.MEM_CTRL_EN 0).wr F.MEM_STATUS_STATE 0).wr F.MEM_SIZE_MIB 0).wr F.MEM_STATUS_INIT_BUSY 0
    ({ s with mem := { s.mem with openRow := [], srDue := false, initDue := false } } : State).dropPend F.MEM_STATUS_PENDING_ENABLE
      F.SYS_PEND_STATUS_MEM_SR
  else s

/-- Self-refresh entry (R371): the port queues drain; during SR_ENTRY it clears a latched exit (R41); during SR_EXIT, INIT or a sweep it
waits until the controller is ACTIVE. -/
def State.srEnter (s : State) : State :=
  let due (s : State) (b : Bool) : State := { s with mem := { s.mem with srDue := b } }
  if s.memState = 2 ∧ !s.on F.MEM_TRN_CTRL_BUSY then ((due s false).drainPorts).wr F.MEM_STATUS_STATE 3
  else if s.memState = 3 then s.dropPend F.MEM_STATUS_PENDING_ENABLE F.SYS_PEND_STATUS_MEM_SR
  else if s.memState = 0 ∨ s.memState = 4 then s
  else due s true

/-- SR is written to 0 (R371): self-refresh is left, and an entry that waits is given up. -/
def State.srLeave (s : State) : State := ({ s with mem := { s.mem with srDue := false } } : State).memWake

/-- SELF_REFRESH_ENTRY: SR is written to 1 (R371). -/
def execSelfRefreshEntry (s : State) : Host.Outcome State Fault Refusal :=
  .next (s.access s.sys.dramStopped fun s => (s.wr F.MEM_CTRL_SR 1).srEnter)

/-- SELF_REFRESH_EXIT: SR is written to 0 (R371). -/
def execSelfRefreshExit (s : State) : Host.Outcome State Fault Refusal :=
  .next (s.access s.sys.dramStopped fun s => (s.wr F.MEM_CTRL_SR 0).srLeave)

/-- The segments that MEM_PASR excludes lose their contents (R372). -/
def State.loseSegments (s : State) : State :=
  if s.rd F.MEM_CFG_ORDER ≠ 2 then s
  else
    let q := s.localSize / 4
    s.forN 4 fun k s => s.forN 8 fun g s =>
      if (s.rd (F.MEM_PASR_SEG_MASK k)).testBit g then s.lose (k * q + g * q / 8) (k * q + (g + 1) * q / 8) else s

/-- SELF_REFRESH_ENTRY_COMPLETE (R371): a latched exit follows at once. -/
def execSelfRefreshEntryComplete (s : State) : Host.Outcome State Fault Refusal :=
  .next <|
    if s.memState ≠ 3 then s
    else
      let s := ({ s.loseSegments with mem := { s.loseSegments.mem with drain := [] } } : State).wr F.MEM_STATUS_STATE 4
      if s.on F.MEM_STATUS_PENDING_ENABLE then
        (s.dropPend F.MEM_STATUS_PENDING_ENABLE F.SYS_PEND_STATUS_MEM_SR).wr F.MEM_STATUS_STATE 5
      else s

/-- A write of MEM_CTRL.INIT (R375): a controller in self-refresh is woken, and INIT starts when it is ACTIVE (R371). -/
def State.memInit (s : State) : State :=
  if (s.mode = mSTANDBY ∨ s.mode = mRECOVERY) ∧ !s.running ∧ !s.on F.MER_CAP_CTRL_EN ∧ !s.cap.closing then
    if s.memReady then (s.wr F.MEM_STATUS_INIT_BUSY 1).wr F.MEM_STATUS_STATE 1
    else if s.memState = 0 ∨ s.on F.MEM_STATUS_INIT_BUSY then s
    else ({ s with mem := { s.mem with initDue := true } } : State).memWake
  else s.cfgReject

/-- INIT (R375). -/
def execInit (s : State) : Host.Outcome State Fault Refusal := .next (s.access s.sys.dramStopped State.memInit)

/-- The controller is ACTIVE: an INIT that waits for it starts, then a self-refresh entry that waits (R371, R375). -/
def State.memActive (s : State) : State :=
  if !s.memReady then s
  else if s.mem.initDue then
    ({ s with mem := { s.mem with initDue := false } } : State).wr F.MEM_STATUS_INIT_BUSY 1 |>.wr F.MEM_STATUS_STATE 1
  else if s.mem.srDue then s.srEnter
  else s

/-! ### Refresh, temperature, hotspots, scrubber (R369, R370, R378, R384) -/

/-- The nominal refresh rate, in eighths of it. -/
def nominalRate : Nat := 8

/-- A run counter of a table: grows when `b` holds, else starts again. -/
def runOf (t : Tab Nat) (k : Nat) (b : Bool) : Tab Nat := Tab.set (fun _ => 0) t k (if b then Tab.get (fun _ => 0) t k + 1 else 0)

/-- REFRESH_RATE_POLL (R370): channel `ch` reports `code`, which stands for `rate` eighths of the nominal refresh rate. A slower rate
applies once three polls in a row have reported it. -/
def execRefreshRatePoll (ch : Fin 4) (code : Fin 16) (rate t : Nat) (s : State) : Host.Outcome State Fault Refusal :=
  .next <|
    let s := s.wr F.MEM_DRAM_RATE_CODE
      (s.rd F.MEM_DRAM_RATE_CODE - bits (s.rd F.MEM_DRAM_RATE_CODE) (4 * ch + 3) (4 * ch) * 2 ^ (4 * ch.val) + code.val * 2 ^ (4 * ch.val))
    let force := Tab.get (fun _ => nominalRate) s.mem.rate ch
    let again := decide (rate = Tab.get (fun _ => 0) s.mem.slowRate ch)
    let run := if force ≤ rate then 0 else if again then Tab.get (fun _ => 0) s.mem.slowerRun ch + 1 else 1
    let held := s.on F.MEM_STATUS_TEMP_FLAP
    let adopt := decide (3 ≤ run) && !held
    let now := if force < rate ∨ adopt then rate else force
    let above := runOf s.mem.aboveRun ch (decide (nominalRate < rate))
    let nominal := runOf s.mem.nominalRun ch (decide (rate ≤ nominalRate))
    let s := { s with mem := { s.mem with
      rate := Tab.set (fun _ => nominalRate) s.mem.rate ch now
      slowerRun := Tab.set (fun _ => 0) s.mem.slowerRun ch (if adopt then 0 else run)
      slowRate := Tab.set (fun _ => 0) s.mem.slowRate ch rate
      aboveRun := above
      nominalRun := nominal } }
    let hi := s.rd F.MEM_STATUS_TEMP_HI
    if 2 ≤ Tab.get (fun _ => 0) above ch ∧ !hi.testBit ch then
      let h := recent t (s.mem.tempHist ++ [t])
      let s := ({ s with mem := { s.mem with tempHist := h } }.wr F.MEM_STATUS_TEMP_HI (withBit hi ch true)).raise 495
      if 8 < h.length then s.wr F.MEM_STATUS_TEMP_FLAP 1 else s
    else if 3 ≤ Tab.get (fun _ => 0) nominal ch ∧ !held then s.wr F.MEM_STATUS_TEMP_HI (withBit hi ch false)
    else s

/-- Releases the temperature latch (R370): the polls that leave TEMP_HI and the faster rate count from the release (R470). -/
def State.tempFlapRelease (s : State) : State :=
  { s.wr F.MEM_STATUS_TEMP_FLAP 0 with mem := { s.mem with tempHist := [], nominalRun := [], slowerRun := [] } }

/-- TEMP_FLAP_RELEASE (R370). -/
def execTempFlapRelease (s : State) : Host.Outcome State Fault Refusal :=
  .next (s.access s.sys.dramStopped State.tempFlapRelease)

/-- HOTSPOT_WINDOW (R384) at instant `t`: a window of channel `ch` ends: the oldest that the activates counted have completed; where they
have completed none, one with the bank and share (in 1/256) that the command reports (DESIGN CHOICE, log entry 230). -/
def execHotspotWindow (ch : Fin 4) (bank : Fin 16) (share t : Nat) (s : State) : Host.Outcome State Fault Refusal :=
  .next <|
    let (bank, share, s) : Nat × Nat × State := match Tab.get (fun _ => []) s.mem.windows ch with
      | w :: rest => (w / 1024, w % 1024, { s with mem := { s.mem with windows := Tab.set (fun _ => []) s.mem.windows ch rest } })
      | [] => (bank.val, share, { s with mem := { s.mem with acts := s.mem.acts.filter fun e => e.1 / 16 != ch.val } })
    let lim := s.rd F.MEM_HOT_CFG_HOT_SHARE
    let dwell := s.rd F.MEM_HOT_CFG_DWELL
    let hot := runOf s.mem.hotRun ch (decide (lim ≤ share))
    let cool := runOf s.mem.coolRun ch (decide (share + 16 < lim))
    let s := { s with mem := { s.mem with hotRun := hot, coolRun := cool } }
    let b := s.rd F.MEM_STATUS_HOTSPOT
    if dwell ≤ Tab.get (fun _ => 0) hot ch ∧ !b.testBit ch then
      let h := recent t (Tab.get (fun _ => []) s.mem.hotHist ch ++ [t])
      let last := s.rd F.MEM_HOT_BANK_LAST
      let v := bank * 16 + min 15 ((share - 16) / 16)
      let s := (s.wr F.MEM_STATUS_HOTSPOT (withBit b ch true)).wr F.MEM_HOT_BANK_LAST
        (last - bits last (8 * ch + 7) (8 * ch) * 2 ^ (8 * ch.val) + v * 2 ^ (8 * ch.val))
      let s := { s with mem := { s.mem with hotHist := Tab.set (fun _ => []) s.mem.hotHist ch h } }.raise 490
      if 8 < h.length then
        { s.wr F.MEM_STATUS_HOT_FLAP 1 with mem := { s.mem with hotHeld := withBit s.mem.hotHeld ch true } }
      else s
    else if dwell ≤ Tab.get (fun _ => 0) cool ch ∧ !s.mem.hotHeld.testBit ch then
      s.wr F.MEM_STATUS_HOTSPOT (withBit b ch false)
    else s

/-- Releases the hotspot latch (R384): the windows that leave HOTSPOT count from the release (R470). -/
def State.hotFlapRelease (s : State) : State :=
  { s.wr F.MEM_STATUS_HOT_FLAP 0 with mem := { s.mem with hotHist := [], hotHeld := 0, coolRun := [] } }

/-- HOT_FLAP_RELEASE (R384). -/
def execHotFlapRelease (s : State) : Host.Outcome State Fault Refusal :=
  .next (s.access s.sys.dramStopped State.hotFlapRelease)

/-- SCRUB_PASS_READ (R378): the patrol scrubber reads the next 64-byte unit; `found` is what the check of its first word finds. -/
def execScrubPassRead (found : Fin 3) (s : State) : Host.Outcome State Fault Refusal :=
  .next <|
    if !s.on F.MEM_SCRUB_CFG_EN || !s.on F.MEM_CFG_INLINE || s.localSize = 0 then s
    else State.whenMemory { s with mem := { s.mem with scrubWaits := true } } 7 fun s =>
      let a := s.mem.scrub % s.localSize
      let (_, _, s) := (s.upset a found).readLocal 7 a 64
      { s with mem := { s.mem with scrub := (a + 64) % s.localSize, scrubWaits := false } }

/-! ### Training (R379, R380) -/

/-- A write of MEM_MR_CMD with GO = 1 (R379). -/
def State.mrCommand (s : State) (read : Bool) (ch : Nat) (rank : Bool) (ma op : Nat) : State :=
  if s.on F.MEM_MR_CMD_BUSY || (rank && !s.on F.MEM_CFG_RANKS) then s.cfgReject
  else (((((s.put F.MEM_MR_CMD_READ read).wr F.MEM_MR_CMD_CH ch).put F.MEM_MR_CMD_RANK rank).wr F.MEM_MR_CMD_MA ma).wr
    F.MEM_MR_CMD_OP op).wr F.MEM_MR_CMD_BUSY 1

/-- MR_COMMAND (R379). -/
def execMrCommand (read : Bool) (ch : Fin 4) (rank : Bool) (ma op : Byte) (s : State) : Host.Outcome State Fault Refusal :=
  .next (s.access s.sys.dramStopped fun s => s.mrCommand read ch rank ma.toNat op.toNat)

/-- MR_COMMAND_COMPLETE (R379): a read leaves the device's value in MEM_MR_DATA. -/
def execMrCommandComplete (data : Byte) (s : State) : Host.Outcome State Fault Refusal :=
  .next (if s.on F.MEM_MR_CMD_BUSY then
    (if s.on F.MEM_MR_CMD_READ then s.wr F.MEM_MR_DATA_DATA data.toNat else s).wr F.MEM_MR_CMD_BUSY 0 else s)

/-- The delay that step `t` of a sweep sets on every DQ bit of its channel (R380): channel, direction (1 write), taps. MEM_DLY, which holds
the trained values, keeps them (DESIGN CHOICE, log entry 229). -/
def State.sweepDelay (s : State) (t : Nat) : Option (Nat × Nat × Nat) :=
  some (s.rd F.MEM_TRN_ADDR_CH, s.rd F.MEM_TRN_CFG_DIR, s.rd F.MEM_TRN_CFG_START + t)

/-- A write of MEM_TRN_CTRL.GO (R380): the sweep runs only while the controller is ACTIVE. -/
def State.sweepGo (s : State) : State :=
  if s.on F.MEM_TRN_CTRL_BUSY then s.cfgReject
  else if s.memReady then { s.wr F.MEM_TRN_CTRL_BUSY 1 with mem := { s.mem with swept := s.sweepDelay 0 } }
  else s

/-- TRAINING_SWEEP (R380). -/
def execTrainingSweep (s : State) : Host.Outcome State Fault Refusal := .next (s.access s.sys.dramStopped State.sweepGo)

/-! ### Point-block staging (R365 to R367, R377) -/

/-- The bytes of a staging record (Table MC-5): descriptor, block with its CRC, padding to a multiple of 32. -/
def stagingRecord (seq : Nat) (furrow : Nat) (block : List Byte) : List Byte :=
  let l := block.length - 4
  let pc := ofBytes ((block.drop 9).take 3)
  let body := bytesOf 4 (2 ^ 28 + l) ++ bytesOf 4 seq ++ bytesOf 4 (pc * 256 + furrow) ++ bytesOf 4 0 ++ block
  body ++ List.replicate ((32 - body.length % 32) % 32) 0

/-- A wrap marker of `n` bytes: FORMAT 0xF, the rest zero (R366). -/
def wrapMarker (n : Nat) : List Byte := bytesOf 4 0xF0000000 ++ List.replicate (n - 4) 0

/-- Where a record of `len` bytes goes in a ring of `size` bytes with the pointers `w` and `r` and `gap` bytes never filled:
offset of the record, whether a wrap marker precedes it; `none` when it does not fit. -/
def ringPlace (size w r gap len : Nat) : Option (Nat × Bool) :=
  let free := (r + 2 * size - w - gap) % size
  if w + len ≤ size then (if len ≤ free then some (w, false) else none)
  else if size - w + len ≤ free then some (0, true) else none

/-- A block is discarded whole (R366): counted, its cause recorded, the first since MEM_PB_OVF_CNT was read raised. -/
def State.pbDiscard (s : State) (window : Bool) : State :=
  let first := s.rd F.MEM_PB_OVF_CNT_COUNT == 0
  ((s.bump F.MEM_PB_OVF_CNT_COUNT 1).wr (if window then F.MEM_PB_OVF_CAUSE_WINDOW else F.MEM_PB_OVF_CAUSE_FULL) 1).raiseIf first 492

/-- The CRC field of a block and whether it is right or inverted (R377). -/
def blockCrc (b : List Byte) : Nat × Nat := (ofBytes (b.drop (b.length - 4)), crc32c (b.take (b.length - 4)))

/-- The inline checks of the words that [a, a + n) touches are written inverted (R39, R377). -/
def State.invertChecks (s : State) (a n : Nat) : State :=
  let w := wordSpan a n
  if s.on F.MEM_CFG_INLINE ∧ a + n ≤ s.localSize then
    { s with mem := { s.mem with cond := (List.range w.2).foldl (fun c j => Tab.set (fun _ => .ok) c (w.1 + j) .poison) s.mem.cond } }
  else s

/-- The record of block `b` goes to the staging ring; `rest` waits behind it, `window` tells that the ring lies in a window, where the
crossing is the one to PCIe (Table AR-15), and `lost` that the ring cannot be written. -/
def State.stagingStore (s : State) (b : Block) (rest : List Block) (bad window lost : Bool) : State :=
  let seq := s.mem.seq
  let s := { s with oq := { s.oq with blocks := rest }, mem := { s.mem with seq := (seq + 1) % 2 ^ 32 } }
  let crc := blockCrc b.bytes
  let fresh := decide (crc.1 ≠ 0xFFFFFFFF - crc.2) && (bad || decide (crc.1 ≠ crc.2))
  let s := s.raiseIf fresh (if window then 496 else 488)
  let bytes := if fresh then b.bytes.take (b.bytes.length - 4) ++ bytesOf 4 (0xFFFFFFFF - crc.2) else b.bytes
  let poison := window && (fresh || decide (crc.1 = 0xFFFFFFFF - crc.2))
  let record := stagingRecord seq b.furrow bytes
  let w := s.rd F.MEM_PB_WPTR_OFS
  if lost then s.pbDiscard true
  else match ringPlace s.pbSize w (s.rd F.MEM_PB_RPTR_OFS) 32 record.length with
    | none => s.pbDiscard false
    | some (o, wrap) =>
      let s := if wrap then s.memStore 0 (s.pbBase + w) (wrapMarker 32) false else s
      let s := s.memStore 0 (s.pbBase + o) record poison
      let s := if fresh && !window then s.invertChecks (s.pbBase + o + 16) b.bytes.length else s
      s.wr F.MEM_PB_WPTR_OFS ((o + record.length) % s.pbSize)

/-- STAGING_RECORD (R365 to R367, R377): the output queue's oldest block goes to the ring. `bad` says that the check of the block
as taken finds a fresh mismatch. -/
def execStagingRecord (bad : Bool) (s : State) : Host.Outcome State Fault Refusal :=
  .next <| match s.oq.blocks with
    | [] => s
    | b :: rest =>
      match s.place 0 (s.pbBase + s.rd F.MEM_PB_WPTR_OFS) with
      | .loc _ => s.whenMemory 0 fun s => s.stagingStore b rest bad false false
      | .bad 2 => s.stagingStore b rest bad true true
      | .host _ => s.stagingStore b rest bad true false
      | _ => s.stagingStore b rest bad false false

end Sys2Proof.Machine
end

