-- ==== Sys2Proof/Machine/Logbook.lean ====
section
/-! DEFINITION. The logbook (R431, R432): its queue, what programming an entry does to flash, and reading entries back. -/

namespace Sys2Proof.Machine

/-- Flash byte `a`; erased bytes read 0xFF. -/
def State.flashByte (s : State) (a : Nat) : Byte := Tab.get (fun _ => 0xFF) s.boot.flash a

/-- `k` flash bytes from offset `a`. -/
def State.flashBytes (s : State) (a k : Nat) : List Byte := Mem.bytes 0xFF s.boot.flash a k

/-- Programs bytes at flash offset `a`. -/
def State.flashWrite (s : State) (a : Nat) (data : List Byte) : State :=
  { s with boot := { s.boot with flash := Mem.store 0xFF s.boot.flash a data } }

/-- Erases flash bytes [lo, hi). -/
def State.flashErase (s : State) (lo hi : Nat) : State :=
  { s with boot := { s.boot with flash := Tab.clear s.boot.flash lo hi } }

/-- The logbook region and its sectors (Table BU-3, R432). -/
def logBase : Nat := 0x900000

/-- Flash offset of entry `i`. -/
def logSlot (i : Nat) : Nat := logBase + i % 16384 * 64

/-- The 64 bytes of entry number `i` (Table BU-9). -/
def LogEntry.bytes (e : LogEntry) (i starts : Nat) : List Byte :=
  let d := (List.range 10).flatMap fun k => bytesOf 4 (e.detail.getD k 0).toNat
  let b := bytesOf 4 (2 ^ 28 + e.kind * 2 ^ 24 + e.mode * 2 ^ 20 + e.event) ++ bytesOf 4 i ++ bytesOf 8 e.ts ++ bytesOf 4 starts ++ d
  b ++ bytesOf 4 (crc32c b)

/-- An entry whose CRC holds: its INDEX. -/
def entryIndex (b : List Byte) : Option Nat :=
  if ofBytes (b.drop 60) = crc32c (b.take 60) then some (ofBytes ((b.drop 4).take 4)) else none

/-- An entry finds room in the queue of 64, or is dropped (R432): the first drop since BOOT_LOG_DROP was read is raised. -/
def State.logQueue (s : State) (e : LogEntry) (front : Bool) : State :=
  if s.boot.log.length < 64 then
    { s with boot := { s.boot with log := if front then e :: s.boot.log else s.boot.log ++ [e] } }
  else
    let first := s.rd F.BOOT_LOG_DROP_COUNT == 0
    ({ s with boot := { s.boot with lost := s.boot.lost + 1 } }.bump F.BOOT_LOG_DROP_COUNT 1).raiseIf first 507

/-- Queues an entry (R431): the first after lost ones follows an OVERRUN entry with their number. No entry is written in RESET or
RECOVERY (R432). -/
def State.logEntry (s : State) (e : LogEntry) (front : Bool) : State :=
  if s.tilHeld then s
  else
    let s := if s.boot.lost ≠ 0 ∧ s.boot.log.length < 64 then
        { s with boot := { s.boot with lost := 0 } }.logQueue
          ⟨4, s.mode, 0, e.ts, [BitVec.ofNat 32 (min s.boot.lost 0xFFFFFFFF)]⟩ false
      else s
    s.logQueue e front

/-- Writes `k` bytes whose values the spec does not give at flash offset `a`. -/
def State.flashFree (s : State) (a k : Nat) : State :=
  { s.flashWrite a ((List.range k).map fun i => BitVec.ofNat 8 (Config.freeValue (s.freeIx + i))) with freeIx := s.freeIx + k }

/-- A change of the update record (chapter 15, "Flash layout") is written to the other half of its region, logged (R431, Table
BU-9) and raises BOOT_UPDATE when UPD_STATE changes (R434). -/
def State.setUpd (s : State) (u : UpdRec) (result t : Nat) : State :=
  let h := 1 - s.boot.upd.half
  let changed := decide (u.state ≠ s.rd F.BOOT_STATUS_UPD_STATE)
  let s := (s.flashErase (0x50000 + 0x8000 * h) (0x58000 + 0x8000 * h)).flashFree (0x50000 + 0x8000 * h) 16
  let s := ({ s with boot := { s.boot with upd := { u with half := h } } }.wr F.BOOT_STATUS_UPD_STATE u.state).raiseIf changed 505
  s.logEntry ⟨3, s.mode, 0, s.pbTime t, [BitVec.ofNat 32 u.state, BitVec.ofNat 32 u.version, BitVec.ofNat 32 result]⟩ false

/-- LOGBOOK_ENTRY_PROGRAM (R432): the oldest queued entry is programmed; the first of a sector erases it, which does not start
while PF_N is low. Nothing is programmed before BOOT_DONE, nor in RESET or RECOVERY. -/
def execLogbookEntryProgram (s : State) : Host.Outcome State Fault Refusal :=
  .next <| match s.boot.log with
    | [] => s
    | e :: rest =>
      let i := s.rd F.BOOT_LOG_INDEX_NEXT
      let fresh := decide (i % 1024 = 0)
      if s.tilHeld || !s.on F.SYS_MODE_BOOT_DONE || (fresh && s.sys.pfLow) then s
      else
        let s := if fresh then s.flashErase (logSlot i) (logSlot i + 0x10000) else s
        let s := s.flashWrite (logSlot i) (e.bytes i s.boot.starts)
        let s := { s with boot := { s.boot with log := rest, starts := if e.kind = 2 then s.boot.starts + 1 else s.boot.starts } }
        (s.wr F.BOOT_LOG_INDEX_NEXT (i + 1)).count 0 5 0 1

/-- Entry `i` as LOG_READ places it: zeros where it was overwritten, torn or never written (R432). -/
def State.logRead (s : State) (i : Nat) : List Byte :=
  let b := s.flashBytes (logSlot i) 64
  if entryIndex b = some i then b else List.replicate 64 0

/-- At a start (R432): the firmware goes on above the highest INDEX whose CRC holds, and takes up START_SEQ from that entry. -/
def State.logScan (s : State) : State :=
  let slots := (((Tab.range s.boot.flash logBase (logBase + 0x100000)).map fun e => (e.1 - logBase) / 64).dedup)
  let found := slots.filterMap fun k =>
    let b := s.flashBytes (logBase + 64 * k) 64
    (entryIndex b).map fun i => (i, ofBytes ((b.drop 16).take 4), bits (ofBytes (b.take 4)) 27 24)
  match found.foldl (fun (m : Option (Nat × Nat × Nat)) e => match m with
      | none => some e
      | some x => if x.1 < e.1 then some e else some x) none with
  | none => { s.wr F.BOOT_LOG_INDEX_NEXT 0 with boot := { s.boot with starts := 0 } }
  | some (i, q, k) =>
    { s.wr F.BOOT_LOG_INDEX_NEXT (i + 1) with boot := { s.boot with starts := if k = 2 then q + 1 else q } }

end Sys2Proof.Machine
end

