-- ==== Sys2Proof/Machine/Detector.lean ====
section
/-! DEFINITION. The detector tier: masks, coincidence, depth, bias and its monitor, and the SPAD probe (chapter 02). -/

namespace Sys2Proof.Machine

/-- Column of channel `c` (R14). -/
def chCol (c : Nat) : Nat := c / 72

/-- Furrow of channel `c` (R15). -/
def chFurrow (c : Nat) : Nat := c / 6

/-! ### Masks, depth and silence (R45, R46, R50, R52) -/

/-- Active SPAD mask of channel `c`. -/
def State.maskAct (s : State) (c : Nat) : Nat :=
  if c % 2 = 1 then s.rd (F.DET_SPAD_MASK_ACT_MASK_HI (c / 2)) else s.rd (F.DET_SPAD_MASK_ACT_MASK_LO (c / 2))

/-- Number of 1 bits of a 16-bit mask. -/
def pop16 (m : Nat) : Nat := ((List.range 16).filter fun i => m.testBit i).length

/-- Copies the shadow masks into the active set, with the enabled SPADs of each channel (R45). -/
def State.copySpads (s : State) : State :=
  let s := s.forN 576 fun m s => s.setReg (R.DET_SPAD_MASK_ACT m) (s.reg (R.DET_SPAD_MASK m))
  s.forN 1152 fun c s => s.wr (F.DET_CH_CFG_SPAD_CNT c) (pop16 (s.maskAct c))

/-- Copies the shadow masks and trims into the active set: the commit is done (R46). -/
def State.copyMasks (s : State) : State :=
  let s := s.copySpads.forN 1152 fun c s => s.wr (F.DET_CH_CFG_TRIM_ACT c) (s.rd (F.DET_CH_CFG_TRIM c))
  s.wr F.DET_STATUS_COMMIT_PENDING 0

/-- Whether channel `c` has fewer enabled SPADs than its depth (R52). -/
def State.tooFew (s : State) (c : Nat) : Bool := decide (s.rd (F.DET_CH_CFG_SPAD_CNT c) < s.rd (F.DET_CH_CFG_K_EFF c))

/-- Evaluates SILENT of every channel; DET_CH_SILENT when at least one becomes silent (R52). -/
def State.evalSilence (s : State) : State :=
  let fresh := (List.range 1152).any fun c => s.tooFew c && !s.on (F.DET_CH_CFG_SILENT c)
  let n := ((List.range 1152).filter fun c => s.tooFew c).length
  let s := s.forN 1152 fun c s => s.put (F.DET_CH_CFG_SILENT c) (s.tooFew c)
  (s.wr F.DET_SILENT_CNT_COUNT n).raiseIf fresh 69

/-- The depth of channel `c` that a boundary puts in force (R50). -/
def State.nextDepth (s : State) (c : Nat) : Nat :=
  if !s.on (F.DET_CH_CFG_K_MODE c) then s.rd (F.DET_CH_CFG_K_HOST c)
  else
    let k := Tab.get (fun _ => 0) s.det.tillerDepth c
    if k ≠ 0 then k
    else if s.det.kHostChanged.contains c then s.rd (F.DET_CH_CFG_K_HOST c)
    else s.rd (F.DET_CH_CFG_K_EFF c)

/-- The furrows that the derating profile of the present mode gates, bit f (R52, R348). -/
def State.gateMask (s : State) : Nat :=
  if s.mode = mDERATED then
    ((List.range 6).map fun i => s.rd (F.THM_DERATE_GATE_GATE i) * 2 ^ (32 * i)).sum
  else 0

/-- Channel `c` is gated (R52). -/
def State.isGated (s : State) (c : Nat) : Bool := s.det.gated.testBit (chFurrow c)

/-- The values of the registers that are in force from a boundary on (R47, R48, R52). -/
def State.detSample (s : State) : State :=
  { s with det := { s.det with deadTime := s.rd F.DET_QUENCH_CFG_DEAD_TIME, window := s.rd F.DET_COINC_CFG_WINDOW
                               gated := s.gateMask, tillerDepth := [], kHostChanged := [] } }

/-- What a boundary changes in the detector: a pending mask commit, dead time, window, depths, gates, silence (R46, R47, R49,
R50, R52). -/
def State.detBoundary (s : State) : State :=
  let s := if s.on F.DET_STATUS_COMMIT_PENDING then s.copyMasks else s
  let s := s.forN 1152 fun c s => s.wr (F.DET_CH_CFG_K_EFF c) (s.nextDepth c)
  s.detSample.evalSilence

/-- MASK_COMMIT (R46): a commit is requested; a second one joins it. -/
def execMaskCommit (s : State) : Host.Outcome State Fault Refusal :=
  .next (s.access s.mainStopped fun s => s.wr F.DET_STATUS_COMMIT_PENDING 1)

/-- MASK_COMMIT_COPY (R46, R52): the pending copy, then silence; while point cycles run the copy is the boundary's. -/
def execMaskCommitCopy (s : State) : Host.Outcome State Fault Refusal :=
  .next (if s.on F.DET_STATUS_COMMIT_PENDING && !s.running then s.copyMasks.evalSilence else s)

/-! ### Coincidence (R45 to R49) -/

/-- The SPADs are live: bias settled, in a mode other than RESET and RECOVERY (R57, Table DT-6). -/
def State.spadsLive (s : State) : Bool := s.on F.DET_STATUS_BIAS_SETTLED && !s.tilHeld

/-- Length W of the coincidence window in ps: 0.625 ns × m. -/
def State.coincW (s : State) : Nat := 625 * (s.det.window + 1)

/-- The probed SPAD fires while the gate is open (R60). -/
def State.probeHit (s : State) (c p : Nat) : State :=
  if s.on F.DET_STATUS_PROBE_BUSY && s.rd F.DET_PROBE_CFG_CHANNEL == c && s.rd F.DET_PROBE_CFG_SPAD == p then
    { s with det := { s.det with probeCount := min (s.det.probeCount + 1) 0xFFFFFFFF } }
  else s

/-- The internal oscillator replaces every channel's detector edge (R72); a plan's write of SRC waits for a boundary (R329). -/
def State.oscillator (s : State) : Bool := s.tdc.srcHeld.getD (s.rd F.TDC_TEST_CFG_SRC) == 1

/-- The coincidence detector of channel `c` on a firing at instant `t` (R48): firings of a group are used once, and the edge
leaves W after the first of them (R49), unless the oscillator stands in its place (R72). Of the decision tolerance of 60 ps the model
takes none: firings closer than W coincide (DESIGN CHOICE, log entry 178). -/
def State.coincide (s : State) (c t : Nat) : State :=
  let w := s.coincW
  let p := ((Tab.get (fun _ => []) s.det.pendingFirings c).filter fun u => decide (t < u + w)) ++ [t]
  if s.rd (F.DET_CH_CFG_K_EFF c) ≤ p.length then
    let out := if s.oscillator then [] else [(c, p.headD t + w)]
    { s with det := { s.det with pendingFirings := Tab.set (fun _ => []) s.det.pendingFirings c [], edges := s.det.edges ++ out } }
  else { s with det := { s.det with pendingFirings := Tab.set (fun _ => []) s.det.pendingFirings c p } }

/-- SPAD_FIRING (R45, R47, R48): SPAD `p` of channel `c` at instant `t` (ps). A firing within the dead time is not counted; of its
tolerance of 0.3 ns the model takes the nominal 3.0 ns + 0.5 ns × code (DESIGN CHOICE, log entry 178). A masked SPAD is enabled only
for its own probe gate. -/
def execSpadFiring (c : Fin 1152) (p : Fin 16) (t : Nat) (s : State) : Host.Outcome State Fault Refusal :=
  .next <|
    let key := 16 * c.val + p.val
    let last := Tab.get (fun _ => 0) s.det.lastFiring key
    let enabled := (s.maskAct c).testBit p
    let probed := s.on F.DET_STATUS_PROBE_BUSY && s.rd F.DET_PROBE_CFG_CHANNEL == c.val && s.rd F.DET_PROBE_CFG_SPAD == p.val
    if !s.spadsLive || !(enabled || probed) then s
    else if last ≠ 0 ∧ t < last - 1 + 3000 + 500 * s.det.deadTime then s
    else
      let s := { s with det := { s.det with lastFiring := Tab.set (fun _ => 0) s.det.lastFiring key (t + 1) } }
      let s := s.probeHit c p
      if enabled && !s.isGated c && !s.on (F.DET_CH_CFG_SILENT c) then s.coincide c t else s

/-! ### Probe (R60) -/

/-- A write of 1 to DET_CTRL.PROBE_START (R60). -/
def State.probeStart (s : State) : State :=
  if s.on F.DET_STATUS_PROBE_BUSY then s.cfgReject
  else { s.wr F.DET_STATUS_PROBE_BUSY 1 with det := { s.det with probeCount := 0 } }

/-- PROBE_START (R60). -/
def execProbeStart (s : State) : Host.Outcome State Fault Refusal := .next (s.access s.mainStopped State.probeStart)

/-- The survey probes SPAD `k`, or has probed them all (R334). -/
def State.surveyProbe (s : State) (k : Nat) : State :=
  let s : State := { s with cal := { s.cal with surveyAt := some k } }
  if k < 18432 then ((s.wr F.DET_PROBE_CFG_CHANNEL (k / 16)).wr F.DET_PROBE_CFG_SPAD (k % 16)).probeStart else s

/-- The survey keeps the count of the SPAD it has probed and goes on to the next; a probe of the host's own, which it waits for, counts
for nothing (R334). -/
def State.surveyNext (s : State) : State :=
  if s.rd F.CAL_STATUS_ITEM ≠ 4 then s
  else match s.cal.surveyAt with
    | none => s.surveyProbe 0
    | some k =>
      if k < 18432 then
        let probes := Tab.set (fun _ => 0) s.cal.probes k (s.rd F.DET_PROBE_COUNT_COUNT)
        State.surveyProbe { s with cal := { s.cal with probes := probes } } (k + 1)
      else s

/-- The survey begins with SPAD 0, as soon as no probe runs (R334). -/
def State.surveyBegin (s : State) : State :=
  let s : State := { s with cal := { s.cal with probes := [], surveyAt := none } }
  if s.on F.DET_STATUS_PROBE_BUSY then s else s.surveyProbe 0

/-- PROBE_GATE_END (R60): the count is latched; 0 unless the SPADs are live. A survey goes on to its next SPAD. -/
def execProbeGateEnd (s : State) : Host.Outcome State Fault Refusal :=
  .next (if s.on F.DET_STATUS_PROBE_BUSY then
      ((s.wr F.DET_STATUS_PROBE_BUSY 0).wr F.DET_PROBE_COUNT_COUNT
        (if s.spadsLive then s.det.probeCount else 0)).raise 70 |>.surveyNext
    else s)

/-! ### Bias (R54 to R59) -/

/-- RECOVERY holds VHV_SET at 0 V and the SPADs quenched (R57, Table DT-6); with BIAS_EN kept at 1 the mode that follows begins a new
ramp (DESIGN CHOICE, log entry 179). -/
def State.biasHeld (s : State) : State :=
  let s := ((s.wr F.DET_BIAS_STATUS_VHV_SET_CODE 0).wr F.DET_STATUS_BIAS_SETTLED 0).wr F.DET_BIAS_TARGET_TARGET
    (s.rd F.DET_BIAS_STATUS_VSPAD_MEAS)
  { s with det := { s.det with ramping := s.on F.DET_CTRL_BIAS_EN } }

/-- Clears BIAS_HIGH and BIAS_LOW but for a bit the flapping latch holds (R58). -/
def State.clearMonitor (s : State) : State :=
  (s.put F.DET_STATUS_BIAS_LOW (s.on F.DET_STATUS_BIAS_LOW && s.det.latched.testBit 0)).put F.DET_STATUS_BIAS_HIGH
    (s.on F.DET_STATUS_BIAS_HIGH && s.det.latched.testBit 1)

/-- Setting BIAS_EN (R57): a ramp of the target starts from the measured VSPAD; the SPADs stay quenched until it settles. In
RESET and RECOVERY VHV_SET stays at 0 V. -/
def State.biasEnable (s : State) : State :=
  if s.on F.DET_CTRL_BIAS_EN then s
  else
    let s := ((s.wr F.DET_CTRL_BIAS_EN 1).wr F.DET_STATUS_BIAS_SETTLED 0).wr F.DET_BIAS_TARGET_TARGET
      (s.rd F.DET_BIAS_STATUS_VSPAD_MEAS)
    { s with det := { s.det with ramping := true } }

/-- Clearing BIAS_EN (R57, R58): VHV_SET 0 V, SPADs quenched, BIAS_SETTLED and the monitor bits not latched clear. -/
def State.biasDisable (s : State) : State :=
  let s := ((s.wr F.DET_CTRL_BIAS_EN 0).wr F.DET_BIAS_STATUS_VHV_SET_CODE 0).wr F.DET_STATUS_BIAS_SETTLED 0
  { s with det := { s.det with ramping := false } }.clearMonitor

/-- BIAS_ENABLE (R57). -/
def execBiasEnable (s : State) : Host.Outcome State Fault Refusal := .next (s.access s.mainStopped State.biasEnable)

/-- BIAS_DISABLE (R57). -/
def execBiasDisable (s : State) : Host.Outcome State Fault Refusal := .next (s.access s.mainStopped State.biasDisable)

/-- VSPAD as measured, in mV, less `v`. -/
def State.vspadOver (s : State) (v : Nat) : Int := (s.rd F.DET_BIAS_STATUS_VSPAD_MEAS : Int) - v

/-- BIAS_SETTLED (R57): VSPAD lies within 100 mV of V_target and has for 1 ms; the ramp ends and the SPADs go live. -/
def execBiasSettled (s : State) : Host.Outcome State Fault Refusal :=
  .next (if s.on F.DET_CTRL_BIAS_EN && s.det.ramping && !s.tilHeld && decide ((s.vspadOver s.det.vTarget).natAbs ≤ 100) then
      { s.wr F.DET_STATUS_BIAS_SETTLED 1 with det := { s.det with ramping := false } }.raise 71
    else s)

/-- Division rounded to nearest, halves away from zero. -/
def divRound (a : Int) (b : Nat) : Int :=
  if 0 ≤ a then (2 * a + b) / (2 * b) else -((2 * (-a) + b) / (2 * b))

/-- BIAS_LOOP_UPDATE (R57): `meas` is the mean of the last 10 samples of VSPAD in mV. The target moves by at most
0.5 V/ms × SLEW, 50 mV × SLEW per 100 us. -/
def execBiasLoopUpdate (meas : Nat) (s : State) : Host.Outcome State Fault Refusal :=
  .next <|
    let s := s.wr F.DET_BIAS_STATUS_VSPAD_MEAS meas
    if s.on F.DET_CTRL_BIAS_EN && !s.tilHeld then
      let step : Int := 50 * s.rd F.DET_BIAS_CFG_SLEW
      let old : Int := s.rd F.DET_BIAS_TARGET_TARGET
      let tgt := old + clip (-step) step (s.det.vTarget - old)
      let code := clip 0 4095 (s.rd F.DET_BIAS_STATUS_VHV_SET_CODE + divRound (tgt - s.rd F.DET_BIAS_STATUS_VSPAD_MEAS) 16)
      (s.wrS F.DET_BIAS_TARGET_TARGET tgt).wr F.DET_BIAS_STATUS_VHV_SET_CODE code.toNat
    else s

/-- Sorted insertion. -/
def insertInt (x : Int) : List Int → List Int
  | [] => [x]
  | y :: ys => if x ≤ y then x :: y :: ys else y :: insertInt x ys

/-- Median of readings in 0.1 °C; with an even count the mean of the two middle ones, a half rounded up (R56, R346). -/
def median (l : List Int) : Int :=
  let v := l.foldr insertInt []
  let k := v.length / 2
  if v.length % 2 = 1 then v.getD k 0 else (v.getD (k - 1) 0 + v.getD k 0 + 1) / 2

/-- Raw readings of the sensors in [lo, lo + n) whose STATE is OK. -/
def State.okReadings (s : State) (lo n : Nat) : List Int :=
  ((List.range n).filter fun i => s.rd (F.THM_SNS_ST_STATE (lo + i)) == 0).map fun i => s.rdS (F.THM_SNS_T_RAW (lo + i))

/-- A compensation trim that would leave its range is clamped; the first clamp is raised (R350). -/
def State.trimClamped (s : State) (c : Bool) : State :=
  if c && !s.thm.compRaised then State.raise { s with thm := { s.thm with compRaised := true } } 25 else s

/-- BIAS_TARGET_RECOMPUTE (R55, R56, R350): T_det, the target and its clamp. -/
def execBiasTargetRecompute (s : State) : Host.Outcome State Fault Refusal :=
  .next <|
    let ok := s.okReadings 0 8
    let stale := decide (ok.length < 3) || s.det.tempOld
    let s := (s.put F.DET_STATUS_TEMP_STALE stale).raiseIf (stale && !s.on F.DET_STATUS_TEMP_STALE) 68
    let s := if stale then s else s.wrS F.DET_BIAS_TARGET_TDET (median ok)
    let drift : Int := if s.on F.DET_BIAS_CFG_TRACK_EN then
        divRound (s.rd F.DET_BIAS_TC_TC * (s.rdS F.DET_BIAS_TARGET_TDET - 250)) 100 else 0
    let v : Int := s.rd F.DET_BIAS_VBD_VBD0 + drift + 20 * s.rd F.DET_BIAS_CFG_VEX
    let c := clip (50 * s.rd F.DET_BIAS_LIM_VMIN) (50 * s.rd F.DET_BIAS_LIM_VMAX) v
    let lim := decide (c ≠ v)
    let s := ((s.put F.DET_STATUS_BIAS_LIMIT lim).raiseIf (lim && !s.on F.DET_STATUS_BIAS_LIMIT) 66).trimClamped lim
    { s with det := { s.det with vTarget := c.toNat } }

/-- TEMP_STALE (R56): no new reading for 50 ms, or fewer than three valid sensors: tracking holds T_det. -/
def execTempStale (s : State) : Host.Outcome State Fault Refusal :=
  .next <|
    let s := if (s.okReadings 0 8).length < 3 then s else { s with det := { s.det with tempOld := true } }
    (s.wr F.DET_STATUS_TEMP_STALE 1).raiseIf (!s.on F.DET_STATUS_TEMP_STALE) 68

/-- The error that one bit of the bias monitor watches, in mV (R58): how far VSPAD lies above the slew-limited target, or below it. -/
def State.biasError (s : State) (high : Bool) : Int :=
  let e := s.vspadOver (s.rd F.DET_BIAS_TARGET_TARGET)
  if high then e else -e

/-- BIAS_MONITOR_ENTRY (R58, R59): VSPAD has lain more than TOL above or below the target for DWELL: BIAS_HIGH or BIAS_LOW sets at
instant `t`; the ninth entry within 60 s latches it. The monitor is inactive until BIAS_SETTLED reads 1. -/
def execBiasMonitorEntry (high : Bool) (t : Nat) (s : State) : Host.Outcome State Fault Refusal :=
  .next <|
    let f := if high then F.DET_STATUS_BIAS_HIGH else F.DET_STATUS_BIAS_LOW
    if !s.on F.DET_STATUS_BIAS_SETTLED || s.on f || decide (s.biasError high ≤ 10 * s.rd F.DET_BIAS_MON_CFG_TOL) then s
    else
      let h := recent t (s.det.entries ++ [t])
      let s := { (s.wr f 1).raise (if high then 65 else 64) with det := { s.det with entries := h, faultSeen := true } }
      if 8 < h.length ∧ !s.on F.DET_STATUS_BIAS_FLAP then
        { (s.wr F.DET_STATUS_BIAS_FLAP 1).raise 67 with det := { s.det with latched := if high then 2 else 1 } }
      else s

/-- BIAS_MONITOR_CLEAR (R58): the bit's error has stayed below TOL − HYST for DWELL; a bit that the flapping latch does not hold
clears, unless the monitor is inactive. -/
def execBiasMonitorClear (high : Bool) (s : State) : Host.Outcome State Fault Refusal :=
  .next (if !s.on F.DET_STATUS_BIAS_SETTLED || s.det.latched.testBit high.toNat
      || decide (10 * ((s.rd F.DET_BIAS_MON_CFG_TOL : Int) - s.rd F.DET_BIAS_MON_CFG_HYST) ≤ s.biasError high) then s
    else s.wr (if high then F.DET_STATUS_BIAS_HIGH else F.DET_STATUS_BIAS_LOW) 0)

/-- Release of the bias flapping latch (R58, R470): the history empties; while the monitor is inactive the held bit clears too. -/
def State.biasFlapRelease (s : State) : State :=
  let s := { s.wr F.DET_STATUS_BIAS_FLAP 0 with det := { s.det with latched := 0, entries := [] } }
  if s.on F.DET_STATUS_BIAS_SETTLED then s else s.clearMonitor

/-- BIAS_FLAP_RELEASE (R58). -/
def execBiasFlapRelease (s : State) : Host.Outcome State Fault Refusal :=
  .next (s.access s.mainStopped State.biasFlapRelease)

end Sys2Proof.Machine
end

