-- ==== Sys2Proof/Machine/Timing.lean ====
section
/-! DEFINITION. The timing front end: conversion, code formation, event words and queues, commits, DLLs, the test source and the
snoop buffer (chapter 02). -/

namespace Sys2Proof.Machine

/-! ### Active tables (R64, R69) -/

/-- Active remap entry of channel `c` for raw phase `p`; the identity where unlisted. -/
def State.lutAct (s : State) (c p : Nat) : Nat := Tab.get (fun k => k % 16) s.tdc.lut (16 * c + p)

/-- Active skew of channel `c`. -/
def State.skewAct (s : State) (c : Nat) : Int := signed 8 (Tab.get (fun _ => 0) s.tdc.skew c)

/-- Zone of channel `c` in the reset zone map: column × 18 + row div 4. -/
def resetZone (c : Nat) : Nat := c / 72 * 18 + c % 72 / 4

/-- Active zone of channel `c`. -/
def State.zoneAct (s : State) (c : Nat) : Nat :=
  let z := Tab.get (fun _ => 0) s.tdc.zone c
  if z = 0 then resetZone c else z - 1

/-- Channel `c` is lit in a slot whose fired rectangle is `r` (R69). -/
def State.litIn (s : State) (r : Rect) (c : Nat) : Bool :=
  let z := s.zoneAct c
  decide (z < 288) && r.cols.testBit (z / 18) && r.rows.testBit (z % 18)

/-- Shadow remap entry of channel `c` for raw phase `p`. -/
def State.lutShadow (s : State) (c p : Nat) : Nat := Word.field (s.reg (R.TDC_LUT c (p / 4))) (8 * (p % 4) + 4) (8 * (p % 4))

/-- The lowest channel whose shadow table is not monotonic (R64). -/
def State.lutBad (s : State) : Option Nat :=
  (List.range 1152).find? fun c => (List.range 15).any fun p => decide (s.lutShadow c (p + 1) < s.lutShadow c p)

/-- Copies the remap, skew and zone shadows, or rejects the whole set (R64). -/
def State.tdcCopy (s : State) : State :=
  let s := s.wr F.TDC_STATUS_COMMIT_PENDING 0
  match s.lutBad with
  | some c => (s.wr F.TDC_STATUS_REJECT_CH c).raise 98
  | none =>
    let ks (n : Nat) (d : Nat → Nat) (f : Nat → Nat) : Tab Nat :=
      (List.range n).filterMap fun k => if f k = d k then none else some (k, f k)
    { s with tdc := { s.tdc with
        lut := ks 18432 (fun k => k % 16) fun k => s.lutShadow (k / 16) (k % 16)
        skew := ks 1152 (fun _ => 0) fun c => s.rd (F.TDC_CH_CFG_SKEW c)
        zone := ks 1152 (fun _ => 0) fun c => if s.rd (F.TDC_CH_CFG_ZONE c) = resetZone c then 0 else s.rd (F.TDC_CH_CFG_ZONE c) + 1 } }

/-- TDC_COMMIT (R64). -/
def execTdcCommit (s : State) : Host.Outcome State Fault Refusal :=
  .next (s.access s.mainStopped fun s => s.wr F.TDC_STATUS_COMMIT_PENDING 1)

/-- TDC_COMMIT_COPY (R64): while point cycles run the copy is the boundary's. -/
def execTdcCommitCopy (s : State) : Host.Outcome State Fault Refusal :=
  .next (if s.on F.TDC_STATUS_COMMIT_PENDING && !s.running then s.tdcCopy else s)

/-- The DLL trim of column `col` in force (R71). -/
def State.trimAct (s : State) (col : Nat) : Nat := Tab.get (fun _ => 0x80) s.tdc.dllTrim col

/-- The DLL trims as written come into force (R71); 0x80 where unlisted. -/
def State.trimTake (s : State) : State :=
  let trims : Tab Nat := (List.range 16).filterMap fun c =>
    if s.rd (F.TDC_DLL_TRIM_TRIM c) = 0x80 then none else some (c, s.rd (F.TDC_DLL_TRIM_TRIM c))
  { s with tdc := { s.tdc with dllTrim := trims } }

/-- What a boundary changes in the timing front end (R62, R64, R71). -/
def State.tdcBoundary (s : State) : State :=
  let s := (if s.on F.TDC_STATUS_COMMIT_PENDING then s.tdcCopy else s).trimTake
  { s with tdc := { s.tdc with epochOfs := s.rd F.TDC_EPOCH_CFG_EPOCH_OFS, ovfRaised := false, srcHeld := none } }

/-! ### Event words (R67, R68, R73) -/

/-- The event word of Table DT-4. -/
def eventWord (kind lane tag code : Nat) : Word :=
  BitVec.ofNat 32 (kind * 2 ^ 30 + lane * 2 ^ 27 + tag % 4 * 2 ^ 25 + code)

/-- The snoop buffer records a word of channel `c` (R73). -/
def State.snoopWord (s : State) (c : Nat) (w raw : Word) : State :=
  if s.tdc.snooping && s.rd F.TDC_SNOOP_CFG_CHANNEL == c && (s.on F.TDC_SNOOP_CFG_KIND_ALL || Word.field w 31 30 == 0) then
    let l := s.tdc.snoop ++ [(w, raw)]
    let full := decide (256 ≤ l.length)
    let s := (s.wr F.TDC_SNOOP_STATUS_COUNT l.length).put F.TDC_SNOOP_STATUS_FULL full
    { s with tdc := { s.tdc with snoop := l, snooping := !full } }.raiseIf full 100
  else s

/-- Lane of an event word (Table DT-4). -/
def laneOf (w : Word) : Nat := Word.field w 29 27

/-- A word takes its place among the words of its TDC cycle, lowest lane first (R68). -/
def insertLane (w : Word) : List Word → List Word
  | [] => [w]
  | v :: r => if laneOf w < laneOf v then w :: v :: r else v :: insertLane w r

/-- The queue of furrow `f` once word `w` has entered in TDC cycle `cyc`, beside the words that entered in the same cycle (R68); cycle
0 is one of its own. -/
def State.arbitrate (s : State) (f : Nat) (w : Word) (cyc : Nat) : List Word :=
  let q := Tab.get (fun _ => []) s.tdc.queues f
  let e := Tab.get (fun _ => (0, 0)) s.tdc.entered f
  let k := if cyc ≠ 0 ∧ e.1 = cyc then e.2 else 0
  q.take (q.length - k) ++ insertLane w (q.drop (q.length - k))

/-- How many words of furrow `f`'s queue entered in TDC cycle `cyc` once one more has come; a full queue takes none more. -/
def State.enteredNow (s : State) (f cyc : Nat) : Nat × Nat :=
  let e := Tab.get (fun _ => (0, 0)) s.tdc.entered f
  let k := if cyc ≠ 0 ∧ e.1 = cyc then e.2 else 0
  (cyc, if (Tab.get (fun _ => []) s.tdc.queues f).length < 16 then min 16 (k + 1) else k)

/-- A word enters the queue of its furrow, in lane order among the words of its TDC cycle `cyc`. A full queue discards the newest word:
counted, QUEUE_DROP set in its lane, TDC_QUEUE_OVF at most once per point cycle (R68, R84). Which point cycle QUEUE_DROP belongs to
when the word's slot is of the cycle just swapped is not stated: the flag goes into the lane of the active bank (DESIGN CHOICE, log
entry 181). -/
def State.pushWord (s : State) (c : Nat) (w : Word) (cyc : Nat) : State :=
  let f := chFurrow c
  let q := s.arbitrate f w cyc
  let s := { s with tdc := { s.tdc with queues := Tab.set (fun _ => []) s.tdc.queues f (q.take 16)
                                        entered := Tab.set (fun _ => (0, 0)) s.tdc.entered f (s.enteredNow f cyc) } }
  if q.length ≤ 16 then s
  else
    let s := ((s.bump (F.TDC_QDROP_COUNT f) 1).count 1 6 f 1).flagLane s.his.active (6 * f + laneOf (q.getD 16 0)) 3
    if s.tdc.ovfRaised then s else { s with tdc := { s.tdc with ovfRaised := true } }.raise 97

/-- The slot whose epoch was the last to pass at instant `t` (R62, R65). -/
def State.slotAt (s : State) (t : Nat) : Option Slot :=
  match s.his.cur with
  | some c => if c.epochAt ≤ t then some c else s.his.prev
  | none => s.his.prev

/-- Coarse periods from the slot's epoch to instant `t`, as the 13-bit counter holds them (R62). -/
def Slot.coarseAt (x : Slot) (t : Nat) : Nat := min ((t - x.epochAt) / 625) 8191

/-- The TDC clock edge that begins the cycle of instant `t`. -/
def Slot.cycleAt (x : Slot) (t : Nat) : Nat := t - (t - x.epochAt) % 625

/-- A column's invalid markers for the slot in progress: once per channel and slot (R70), and TIMING_INVALID in its lanes (Table HF-2).
What word 1 of a snooped marker holds is a free value. -/
def State.sendInvalid (s : State) (col : Nat) : State :=
  match s.his.cur with
  | some x =>
    if x.marked.testBit col then s
    else
      let s : State := { s with his := { s.his with cur := some { x with marked := withBit x.marked col true } } }
      s.forN 72 fun r s =>
        let c := 72 * col + r
        let w := eventWord 3 (c % 6) x.seq 0
        let (raw, s) := s.drawFree 17
        let s := if s.on F.TDC_CTRL_ENABLE then (s.snoopWord c w (BitVec.ofNat 32 raw)).pushWord c w 0 else s
        s.flagLane s.his.active c 2
  | none => s

/-- Slots run and conversions are enabled (Table DT-6, TDC_CTRL.ENABLE). -/
def State.converts (s : State) : Bool := s.running && s.his.cur.isSome && s.on F.TDC_CTRL_ENABLE && !s.mainStopped

/-- Kind and code of a converted edge (R63): 0 code, 1 overflow, 2 early. -/
def State.formCode (s : State) (c rawCoarse rawPhase : Nat) : Nat × Nat :=
  let code : Int := (rawCoarse * 16 + s.lutAct c rawPhase : Nat) - (16 * (s.det.window + 1) : Nat) + s.skewAct c
  if rawCoarse = 8191 then (1, 0xFFFF)
  else if code < 0 then (2, 0)
  else if 65536 ≤ code then (1, 0xFFFF)
  else (0, code.toNat)

/-- A 32-bit counter of a sparse table counts. -/
def tabBump (t : Tab Nat) (k : Nat) : Tab Nat := Tab.set (fun _ => 0) t k (min (Tab.get (fun _ => 0) t k + 1) 0xFFFFFFFF)

/-- The code-density item counts an edge of channel `c` (R330): with CD_SRC = 1 only in-window codes of slots in which the channel is
unlit; the start sequence's own plan uses the oscillator whatever CD_SRC holds (R415). -/
def State.cdCount (s : State) (c rawCoarse rawPhase kind : Nat) (x : Slot) : State :=
  if s.rd F.CAL_STATUS_ITEM ≠ 1 ∨ (s.on F.CAL_CFG_CD_SRC ∧ !s.cal.internal ∧ (kind ≠ 0 ∨ s.litIn x.rect c)) then s
  else { s with cal := { s.cal with cdPhase := tabBump s.cal.cdPhase (16 * c + rawPhase)
                                    cdGroup := if rawCoarse < 4096 then tabBump s.cal.cdGroup (64 * c + rawCoarse / 64)
                                      else s.cal.cdGroup } }

/-- The edge of channel `c` at instant `t` exists: the oscillator gives it, or the channel's coincidence detector did (R48, R72); and
`raw` is the coarse count of that instant (R62). -/
def State.edgeStands (s : State) (c t raw : Nat) : Bool :=
  (s.oscillator || s.det.edges.contains (c, t)) &&
    match s.slotAt t with
    | some x => raw == x.coarseAt t
    | none => true

/-- TDC_EDGE (R63): an edge of channel `c` at instant `t` with its raw conversion. Edges of a column whose DLL is unlocked are
discarded and not counted as LOST (R70). An edge of the first slot of a run before its epoch follows no slot's window and no epoch: it
starts the dead time and gives no word (DESIGN CHOICE, log entry 215). -/
def execTdcEdge (c : Fin 1152) (t : Nat) (rawCoarse : Fin 8192) (rawPhase : Fin 16) (s : State) :
    Host.Outcome State Fault Refusal :=
  .next <|
    let stands := s.edgeStands c t rawCoarse
    let s := { s with det := { s.det with edges := s.det.edges.erase (c.val, t) } }
    if !s.converts || !stands then s
    else
      let f := chFurrow c
      let locked := (s.rd F.TDC_STATUS_DLL_LOCK).testBit (chCol c)
      let last := Tab.get (fun _ => 0) s.tdc.lastEdge c
      if last ≠ 0 ∧ t < last - 1 + 2500 then
        if locked then { s with tdc := { s.tdc with lost := tabBump s.tdc.lost c } }.count 1 5 f 1 else s
      else
        let s := { s with tdc := { s.tdc with lastEdge := Tab.set (fun _ => 0) s.tdc.lastEdge c (t + 1) } }
        if !locked then s
        else match s.slotAt t with
          | none => s
          | some x =>
            let (kind, code) := s.formCode c rawCoarse rawPhase
            let w := eventWord kind (c % 6) x.seq code
            let s := match kind with
              | 0 => s.count 1 2 f 1
              | 1 => { s with tdc := { s.tdc with ovf := tabBump s.tdc.ovf c } }.count 1 3 f 1
              | _ => { s with tdc := { s.tdc with early := tabBump s.tdc.early c } }.count 1 4 f 1
            ((s.cdCount c rawCoarse rawPhase kind x).snoopWord c w (BitVec.ofNat 32 (rawCoarse * 16 + rawPhase))).pushWord c w
              (x.cycleAt t)

/-! ### DLLs (R70, R71) -/

/-- DLL_UNLOCK (R70): the column's edges are discarded from now on; its markers go out in the slot in progress. -/
def execDllUnlock (col : Fin 16) (s : State) : Host.Outcome State Fault Refusal :=
  .next (((s.wr F.TDC_STATUS_DLL_LOCK (withBit (s.rd F.TDC_STATUS_DLL_LOCK) col false)).raise 96).sendInvalid col)

/-- DLL_RELOCK (R70). -/
def execDllRelock (col : Fin 16) (s : State) : Host.Outcome State Fault Refusal :=
  .next (s.wr F.TDC_STATUS_DLL_LOCK (withBit (s.rd F.TDC_STATUS_DLL_LOCK) col true))

/-- DLL_RELOCK_RETRY (R70): still unlocked, the event is raised again. -/
def execDllRelockRetry (col : Fin 16) (s : State) : Host.Outcome State Fault Refusal :=
  .next (s.raiseIf (!(s.rd F.TDC_STATUS_DLL_LOCK).testBit col) 96)

/-- DLL_TRIM_LIMIT (R71): event 99 is the only indication. -/
def execDllTrimLimit (_col : Fin 16) (s : State) : Host.Outcome State Fault Refusal := .next (s.raise 99)

/-- The invalid markers of every unlocked column at the opening of a slot (R70). -/
def State.invalidMarkers (s : State) : State :=
  s.forN 16 fun col s => if (s.rd F.TDC_STATUS_DLL_LOCK).testBit col then s else s.sendInvalid col

/-! ### Test source, snoop arming, counters (R72, R73, R77) -/

/-- A write of TDC_TEST_CFG.SRC (R72): codes 2 and 3 are reserved; the oscillator only in STANDBY and CALIBRATE. -/
def State.testSource (s : State) (src : Nat) : State :=
  if 2 ≤ src then s.cfgReject
  else if src = 1 ∧ s.mode ≠ mSTANDBY ∧ s.mode ≠ mCALIBRATE then s.cfgReject
  else { (s.wr F.TDC_TEST_CFG_SRC src).wr F.TDC_STATUS_TEST_ACTIVE src with tdc := { s.tdc with srcHeld := none } }

/-- TEST_SOURCE_SELECT (R72). -/
def execTestSourceSelect (src : Fin 4) (s : State) : Host.Outcome State Fault Refusal :=
  .next (s.access s.mainStopped fun s => s.testSource src)

/-- A write of TDC_SNOOP_CFG with ARM = 1 (R73). In RESET and RECOVERY the snoop is unavailable (R75): ARM does nothing. -/
def State.snoopArm (s : State) (channel : Nat) (kindAll : Bool) : State :=
  if 1152 ≤ channel then s.cfgReject
  else if s.tilHeld then (s.wr F.TDC_SNOOP_CFG_CHANNEL channel).put F.TDC_SNOOP_CFG_KIND_ALL kindAll
  else
    let s := (((s.wr F.TDC_SNOOP_CFG_CHANNEL channel).put F.TDC_SNOOP_CFG_KIND_ALL kindAll).wr F.TDC_SNOOP_STATUS_COUNT 0).wr
      F.TDC_SNOOP_STATUS_FULL 0
    { s with tdc := { s.tdc with snoop := [], snooping := true } }

/-- SNOOP_ARM (R73). -/
def execSnoopArm (channel : Fin 2048) (kindAll : Bool) (s : State) : Host.Outcome State Fault Refusal :=
  .next (s.access s.mainStopped fun s => s.snoopArm channel kindAll)

/-- COUNTER_CLEAR_ALL (R77). -/
def execCounterClearAll (s : State) : Host.Outcome State Fault Refusal :=
  .next (s.access s.mainStopped fun s => { s with tdc := { s.tdc with lost := [], ovf := [], early := [] } })

/-- Clears the three counters of one channel. -/
def State.clearTdcSel (s : State) : State :=
  let c := s.rd F.TDC_CNT_SEL_CHANNEL
  let z (t : Tab Nat) : Tab Nat := Tab.set (fun _ => 0) t c 0
  { s with tdc := { s.tdc with lost := z s.tdc.lost, ovf := z s.tdc.ovf, early := z s.tdc.early } }

/-- COUNTER_CLEAR_SEL (R77): the channel that TDC_CNT_SEL names. -/
def execCounterClearSel (s : State) : Host.Outcome State Fault Refusal :=
  .next (s.access s.mainStopped State.clearTdcSel)

end Sys2Proof.Machine
end

