-- ==== Sys2Proof/Machine/Capture.lean ====
section
/-! DEFINITION. The capture engine (R287 to R296). -/

namespace Sys2Proof.Machine

/-! ### Lengths and room (R294, R295) -/

/-- Payload bytes of a record of the configured kind. -/
def State.capPayload (s : State) : Nat :=
  let lanes := pop16 (s.rd F.MER_CAP_SRC_LANES)
  match s.rd F.MER_CAP_SRC_KIND with
  | 0 => 4 * (s.rd F.MER_CAP_LEN_PRE + s.rd F.MER_CAP_LEN_POST)
  | 1 => 4096 * lanes
  | _ => 448 * lanes

/-- `n` rounded up to a multiple of 64. -/
def pad64 (n : Nat) : Nat := (n + 63) / 64 * 64

/-- Bytes of a whole record as configured. -/
def State.capSize (s : State) : Nat := pad64 (48 + s.capPayload)

/-- The write pointer once every record in the queue has been written. -/
def State.capAhead (s : State) : Nat :=
  s.cap.queue.foldl (fun w r => match ringPlace s.capRing w (s.rd F.MER_CAP_RPTR_OFS) 64 r.length with
    | some (o, _) => (o + r.length) % s.capRing
    | none => w) (s.rd F.MER_CAP_WPTR_OFS)

/-- A record is dropped whole (R295, R296): counted, its cause recorded, the first since the count was read raised. -/
def State.capDrop (s : State) (cause : Fld) : State :=
  let first := s.rd F.MER_CAPTURE_DROP_COUNT == 0
  let s := ((s.bump F.MER_CAPTURE_DROP_COUNT 1).wr cause 1).raiseIf first 455
  { s with cap := { s.cap with dropped := true } }

/-! ### Completing a record (R292 to R294) -/

/-- `a` divided by `b`, rounded to nearest. -/
def nearest (a b : Nat) : Nat := (2 * a + b) / (2 * b)

/-- PERIOD of Table MS-3 in 1/256 of 12.5 ns, for `k` intervals that span `d` ps (R293). -/
def capPeriod (d k : Nat) : Nat :=
  if k = 0 then 0xFFFFFFFF
  else
    let v := nearest (d * 256) (12500 * k)
    if 0xFFFFFFFF < v then 0xFFFFFFFF else v

/-- MEAN and AMPL of the values `vs` over `m` segments, in 1/256 (R293). -/
def capStats (vs : List Nat) (m : Nat) : Nat × Nat :=
  let hi := vs.foldl max 0
  let lo := vs.foldl min hi
  if vs.isEmpty then (0, 0) else (nearest (256 * vs.sum) (vs.length * m), nearest (256 * (hi - lo)) m)

/-- The 48-byte header (Table MS-3) and the payload, padded. -/
def CapRec.bytes (r : CapRec) (drop : Bool) (m count period mean ampl : Nat) (payload : List Byte) : List Byte :=
  let b := bytesOf 4 (2 ^ 28 + r.kind * 2 ^ 24 + r.number)
    ++ bytesOf 4 (r.slot * 2 ^ 23 + r.noPc.toNat * 2 ^ 22 + r.irreg.toNat * 2 ^ 18 + r.gateEdge.toNat * 2 ^ 17
      + drop.toNat * 2 ^ 16 + (48 + payload.length))
    ++ bytesOf 8 r.ts ++ bytesOf 4 r.pcIndex ++ bytesOf 4 (m * 2 ^ 16 + count) ++ bytesOf 4 period ++ bytesOf 4 mean
    ++ bytesOf 4 ampl ++ bytesOf 4 r.rej ++ List.replicate 8 0 ++ payload
  b ++ List.replicate (pad64 b.length - b.length) 0

/-- The record is complete and enters the capture queue; with CONT = 1 the engine waits for the next trigger (R296). -/
def State.capFinish (s : State) (bytes : List Byte) : State :=
  let s := { s with cap := { s.cap with
    queue := s.cap.queue ++ [bytes], cur := none, seg := none, dropped := false } }
  (s.put F.MER_CAP_STATUS_ARMED (s.on F.MER_CAP_CTRL_CONT)).wr F.MER_CAP_STATUS_SEG 0

/-- An ADC record with all its segments is complete. -/
def State.capFinishAdc (s : State) (r : CapRec) : State :=
  let m := s.rd F.MER_CAP_AVG_M
  let vals := if m = 1 then r.sums.map fun w => w % 2 ^ 14 else r.sums
  let (mean, ampl) := capStats vals m
  let first := r.triggers.headD 0
  let last := r.triggers.getLastD 0
  let period := if m = 1 then (match s.cap.lastTrig with
      | some p => capPeriod (last - p) 1
      | none => 0xFFFFFFFF)
    else capPeriod (last - first) (r.triggers.length - 1)
  let payload := r.sums.flatMap fun w => bytesOf 4 w
  { s with cap := { s.cap with lastTrig := some last } }.capFinish
    (r.bytes s.cap.dropped r.triggers.length r.sums.length period mean ampl payload)

/-- A histogram record is complete: payload of bins, values for MEAN and AMPL, bins per lane. -/
def State.capFinishHist (s : State) (r : CapRec) (payload : List Byte) (vals : List Nat) (count : Nat) : State :=
  let (mean, ampl) := capStats vals 1
  s.capFinish (r.bytes s.cap.dropped 1 count 0xFFFFFFFF mean ampl payload)

/-- Any of a segment's samples carries over-range, SETTLING or RANGE_TRANSIENT (R292). -/
def flaggedSample (w : Word) : Bool := Word.field w 25 23 != 0

/-- Range tag of a sample word. -/
def rangeTag (w : Word) : Nat := Word.field w 21 20

/-- Consecutive intervals between the instants of a list are unequal (IRREG, R290). -/
def irregular : List Nat → Bool
  | a :: b :: c :: r => decide (b - a ≠ c - b) || irregular (b :: c :: r)
  | _ => false

/-- A segment is complete: accepted into the record or, when averaging, rejected (R292). -/
def State.capSegment (s : State) (r : CapRec) (g : CapSeg) : State :=
  let m := s.rd F.MER_CAP_AVG_M
  let ws := g.taken.map fun x => x.1
  let tag := rangeTag (ws.headD 0)
  let bad := decide (1 < m) && (ws.any flaggedSample || ws.any (fun w => rangeTag w != r.range.getD tag))
  let s := { s with cap := { s.cap with seg := none } }
  if bad then
    { s with cap := { s.cap with cur := some { r with rej := r.rej + 1 } } }.bump F.MER_CAP_REJ_SEG_COUNT 1
  else
    let vals := if m = 1 then ws.map fun w => w.toNat else ws.map fun w => Word.field w 13 0
    let sums := if r.sums.isEmpty then vals else List.zipWith (· + ·) r.sums vals
    let r := { r with
      sums := sums, range := some (r.range.getD tag), triggers := r.triggers ++ [g.trig], gateEdge := r.gateEdge || g.gateEdge
      irreg := r.irreg || irregular ((g.taken.drop g.pads).map fun x => x.2) }
    let s := { s with cap := { s.cap with cur := some r } }.wr F.MER_CAP_STATUS_SEG r.triggers.length
    if m ≤ r.triggers.length then s.capFinishAdc r else s

/-! ### Triggers (R288 to R291) -/

/-- The gate of MER_CAP_TRIG is open (R291). -/
def State.capGate (s : State) : Bool :=
  match s.rd F.MER_CAP_TRIG_GATE with
  | 1 => s.sxt.gate
  | 2 => s.running
  | _ => true

/-- A slot's number counted from plough slot 0. -/
def Slot.number (x : Slot) (p : Nat) : Nat :=
  match x.kind with
  | .plough => x.index
  | .fallow => p
  | .harrow => p + 1 + x.index

/-- Closes the segment in progress when it holds all its samples. -/
def State.capClose (s : State) : State :=
  match s.cap.cur, s.cap.seg with
  | some r, some g => if g.need = 0 then s.capSegment r g else s
  | _, _ => s

/-- The slot that holds instant `t`, of those in progress or just closed (R290). -/
def State.slotHolding (s : State) (t : Nat) : Option Slot :=
  (s.his.cur.toList ++ s.his.prev.toList ++ s.his.older).find? fun x => decide (x.openAt ≤ t) && decide (t < x.closeAt)

/-- Point cycles ran at instant `t`, which lies in slot `x` or in none (NO_PC, Table MS-3). -/
def State.inCycles (s : State) (x : Option Slot) (t : Nat) : Bool := x.isSome || (s.running && decide (s.his.pcStart ≤ t))

/-- A gate edge and a trigger share one synchroniser cycle of 625 ps (R291). -/
def sameCycle (a : Option Nat) (t : Nat) : Bool := a.any fun u => u / 625 == t / 625

/-- A trigger at instant `t` falls in the cycle of an edge of its gate (R291). -/
def State.gateRace (s : State) (t : Nat) : Bool :=
  match s.rd F.MER_CAP_TRIG_GATE with
  | 1 => s.sxt.gateAt != 0 && sameCycle (some s.sxt.gateAt) t
  | 2 => sameCycle s.cap.runEdge t
  | _ => false

/-- An edge of the gate that GATE = `src` selects shares its synchroniser cycle with the triggers `same` tells: a record whose trigger
it is carries GATE_EDGE, and so does one that a level run of that first sample will trigger (R291). -/
def State.capEdge (s : State) (src : Nat) (same : Nat → Bool) : State :=
  if s.rd F.MER_CAP_TRIG_GATE = src then
    let c := s.cap
    { s with cap := { c with
      cur := if c.trigAt.any same then c.cur.map fun r => { r with gateEdge := true } else c.cur
      runMark := { c.runMark with edge := c.runMark.edge || (decide (c.run ≠ 0) && same c.runMark.instant) } } }
  else s

/-- An edge of the gate that GATE = `src` selects, at instant `t`. -/
def State.capGateEdge (s : State) (src t : Nat) : State := s.capEdge src fun u => sameCycle (some t) u

/-- HIS_STATUS.RUNNING changes at instant `t`. -/
def State.runEdgeAt (s : State) (t : Nat) : State := State.capGateEdge { s with cap := { s.cap with runEdge := some t } } 2 t

/-- HIS_STATUS.RUNNING falls at a hedge trip, whose instant no command gives: whether the edge shares its cycle with the last trigger is a
free value (log entry 226). -/
def State.runEdgeTrip (s : State) : State :=
  let (x, s) := s.drawFree 1
  State.capEdge { s with cap := { s.cap with runEdge := none } } 2 fun _ => x != 0

/-- What holds at a trigger instant `t` that is now. -/
def State.capMark (s : State) (t : Nat) : CapMark :=
  let hold := s.slotHolding t
  let k := s.bank ((hold.map fun x => x.bank).getD s.his.active)
  { instant := t, gate := s.capGate, edge := s.gateRace t, slot := hold.map fun x => (x.number k.p, x.openAt)
    inPc := s.inCycles hold t, pcIndex := k.pcIndex }

/-- The engine is stopped: RESET and RECOVERY, or its clock (R296, R26). -/
def State.capStopped (s : State) : Bool := s.mainStopped || s.tilHeld

/-- The engine runs: enabled, not in its shutdown, and not stopped (R296). -/
def State.capRuns (s : State) : Bool := s.on F.MER_CAP_CTRL_EN && !s.cap.closing && !s.capStopped

/-- Opens a segment at placement instant `place` (R290): the samples already taken at or after it, the PRE samples before it, and
free values where the input had delivered fewer. -/
def State.capOpenSeg (s : State) (trig place : Nat) (edge : Bool) : State :=
  let pre := s.rd F.MER_CAP_LEN_PRE
  let post := (s.cap.hist.takeWhile fun x => decide (place ≤ x.2)).reverse
  let old := ((s.cap.hist.dropWhile fun x => decide (place ≤ x.2)).take pre).reverse
  let miss := pre - old.length
  let pad := (List.range miss).map fun i => (BitVec.ofNat 32 (Config.freeValue (s.freeIx + i)), (0 : Nat))
  let s := { s with freeIx := s.freeIx + miss }
  let taken := pad ++ old ++ post.take (s.rd F.MER_CAP_LEN_POST)
  let g : CapSeg := ⟨trig, miss, taken, pre + s.rd F.MER_CAP_LEN_POST - taken.length, edge⟩
  State.capClose { s with cap := { s.cap with seg := some g } }

/-- A capture trigger at whose instant `m` held, with `cross` the instant that counts for PERIOD (R288, R291, R293, R295): a record is
admitted at its first trigger, or dropped whole. -/
def State.capTrigger (s : State) (m : CapMark) (cross : Nat) : State :=
  if !s.capRuns || !s.on F.MER_CAP_STATUS_ARMED || !m.gate || s.cap.seg.isSome then s
  else
    let kind := s.rd F.MER_CAP_SRC_KIND
    let place := match m.slot with
      | some x => if s.on F.MER_CAP_TRIG_PLACE then x.2 else m.instant
      | none => m.instant
    let s := { s with cap := { s.cap with trigAt := some m.instant } }
    match s.cap.cur with
    | some _ => if kind = 0 then s.capOpenSeg cross place m.edge else s
    | none =>
      let number := s.cap.number
      let s := { s with cap := { s.cap with number := (number + 1) % 2 ^ 24 } }
      let used : Nat := (s.cap.queue.map fun r => r.length).sum
      if 32768 < used + s.capSize then s.capDrop F.MER_CAP_DROP_CAUSE_QUEUE
      else if (ringPlace s.capRing s.capAhead (s.rd F.MER_CAP_RPTR_OFS) 64 s.capSize).isNone then
        s.capDrop F.MER_CAP_DROP_CAUSE_RING
      else
        let r : CapRec :=
          { kind := kind, number := number, noPc := !m.inPc, pcIndex := if m.inPc then m.pcIndex else 0, ts := s.pbTime m.instant
            gateEdge := m.edge
            slot := match m.slot with
              | some x => if kind = 0 then x.1 else 0
              | none => 0 }
        let s := { s with cap := { s.cap with cur := some r } }
        if kind = 0 then s.capOpenSeg cross place m.edge else s

/-- A trigger of source `src` (Table MS-2) at instant `t`. -/
def State.capEvent (s : State) (src t : Nat) : State := if s.rd F.MER_CAP_TRIG_SRC = src then s.capTrigger (s.capMark t) t else s

/-- The level trigger sees a sample (R289): `w` at instant `t`, after it has entered the history. It goes on while a segment is open;
a crossing whose run completes then is ignored (R292). -/
def State.capLevel (s : State) (w : Word) (t : Nat) : State :=
  let src := s.rd F.MER_CAP_TRIG_SRC
  if (src ≠ 1 ∧ src ≠ 2) ∨ flaggedSample w then s
  else
    let up := src = 1
    let th := s.rd F.MER_CAP_LEVEL_TH
    let hy := s.rd F.MER_CAP_LEVEL_HYST
    let c := Word.field w 13 0
    let beyond := if up then th ≤ c else c ≤ th
    let arms := if up then c + hy ≤ th else th + hy ≤ c
    if beyond ∧ s.cap.levelArmed then
      let first := s.cap.run = 0
      let cross := match s.cap.hist.tail.head? with
        | some (v, u) =>
          let d := Word.field v 13 0
          let span := if up then c - d else d - c
          let part := if up then th - d else d - th
          if span = 0 then t else u + (t - u) * part / span
        | none => t
      let m := if first then s.capMark t else s.cap.runMark
      let cr := if first then cross else s.cap.runCross
      let n := s.cap.run + 1
      if s.rd F.MER_CAP_LEVEL_DWELL ≤ n then
        { s with cap := { s.cap with run := 0, levelArmed := false } }.capTrigger m cr
      else { s with cap := { s.cap with run := n, runMark := m, runCross := cr } }
    else
      { s with cap := { s.cap with run := 0, levelArmed := s.cap.levelArmed || decide arms } }

/-- The engine takes a delivered sample of its input (R287, R289, R290). -/
def State.capSample (s : State) (w : Word) (t : Nat) : State :=
  if !s.capRuns || s.rd F.MER_CAP_SRC_KIND ≠ 0 || Word.field w 31 27 ≠ s.rd F.MER_CAP_SRC_AIN then s
  else
    let s := { s with cap := { s.cap with
      hist := ((w, t) :: s.cap.hist).take 4096
      seg := s.cap.seg.map fun (g : CapSeg) => { g with taken := g.taken ++ [(w, t)], need := g.need - 1 } } }
    (s.capLevel w t).capClose

/-- Lanes selected by MER_CAP_SRC, as channels of its furrow. -/
def State.capLanes (s : State) : List Nat :=
  ((List.range 6).filter fun l => (s.rd F.MER_CAP_SRC_LANES).testBit l).map fun l => 6 * s.rd F.MER_CAP_SRC_FURROW + l

/-- The fallow slot opens: an open PLOUGH record takes the complete bins (R287). -/
def State.capFallow (s : State) : State :=
  match s.cap.cur with
  | some r =>
    if r.kind = 1 then
      let vals := s.capLanes.flatMap fun c => (List.range 2048).map fun k => s.ploughBin c k
      let r := { r with noPc := false, pcIndex := (s.bank s.his.active).pcIndex }
      s.capFinishHist r (vals.flatMap fun v => bytesOf 2 v) vals 2048
    else s
  | none => s

/-- A bank freezes: an open HARROW record takes the lane headers and bins of its furrow (R287). -/
def State.capFreeze (s : State) (b : Nat) : State :=
  match s.cap.cur with
  | some r =>
    if r.kind = 2 then
      let k := s.bank b
      let bins (c : Nat) : List Nat := (List.range 192).map fun i => k.bin c (i / 64) (i % 64)
      let payload := s.capLanes.flatMap fun c =>
        ((List.range 16).flatMap fun o => bytesOf 4 ((k.lane c).word (c % 6) (4 * o))) ++ ((bins c).flatMap fun v => bytesOf 2 v)
      s.capFinishHist { r with noPc := false, pcIndex := k.pcIndex } payload (s.capLanes.flatMap bins) 192
    else s
  | none => s

/-! ### Commands -/

/-- EN is set (R296): armed, or pending while the shutdown runs (R41). -/
def State.capEnable (s : State) : State :=
  if s.cap.closing then (s.wr F.MER_CAP_CTRL_EN 1).latchPend F.MER_CAP_STATUS_PENDING_ENABLE F.SYS_PEND_STATUS_CAPTURE
  else if s.on F.MER_CAP_CTRL_EN then s
  else
    { ((s.wr F.MER_CAP_CTRL_EN 1).wr F.MER_CAP_STATUS_ARMED 1).wr F.MER_CAP_STATUS_DONE 0 with
      cap := { s.cap with hist := [], levelArmed := false, run := 0, lastTrig := none } }

/-- EN is cleared (R296): the open record is discarded and counted, complete ones drain. -/
def State.capDisable (s : State) : State :=
  let s := s.dropPend F.MER_CAP_STATUS_PENDING_ENABLE F.SYS_PEND_STATUS_CAPTURE
  if s.on F.MER_CAP_CTRL_EN ∧ !s.cap.closing then
    let s := if s.cap.cur.isSome then s.capDrop F.MER_CAP_DROP_CAUSE_SHUTDOWN else s
    { (s.wr F.MER_CAP_CTRL_EN 0).wr F.MER_CAP_STATUS_SEG 0 with cap := { s.cap with cur := none, seg := none, closing := true } }
  else s.wr F.MER_CAP_CTRL_EN 0

/-- CAPTURE_ENABLE (R296). -/
def execCaptureEnable (s : State) : Host.Outcome State Fault Refusal :=
  .next (s.access s.mainStopped fun s => if s.tilHeld then s.wr F.MER_CAP_CTRL_EN 1 else s.capEnable)

/-- CAPTURE_DISABLE (R296). -/
def execCaptureDisable (s : State) : Host.Outcome State Fault Refusal := .next (s.access s.mainStopped State.capDisable)

/-- CAPTURE_SHUTDOWN_COMPLETE (R296, R41): the queue has drained; a pending enable restarts the engine armed. -/
def execCaptureShutdownComplete (s : State) : Host.Outcome State Fault Refusal :=
  .next <|
    if !s.cap.closing || !s.cap.queue.isEmpty || s.capStopped then s
    else
      let s := { s.wr F.MER_CAP_STATUS_ARMED 0 with cap := { s.cap with closing := false } }
      if s.on F.MER_CAP_STATUS_PENDING_ENABLE then
        ((s.dropPend F.MER_CAP_STATUS_PENDING_ENABLE F.SYS_PEND_STATUS_CAPTURE).wr F.MER_CAP_CTRL_EN 0).capEnable
      else s

/-- A write of MER_CAP_CTRL.ARM: rearms after DONE (R296). -/
def State.capArm (s : State) : State :=
  if s.on F.MER_CAP_CTRL_EN && s.on F.MER_CAP_STATUS_DONE && !s.cap.closing && !s.capStopped then
    (s.wr F.MER_CAP_STATUS_DONE 0).wr F.MER_CAP_STATUS_ARMED 1
  else s

/-- CAPTURE_ARM (R296). -/
def execCaptureArm (s : State) : Host.Outcome State Fault Refusal := .next (s.access s.mainStopped State.capArm)

/-- CAPTURE_FORCE (R288): the host's trigger at instant `t`. -/
def execCaptureForce (t : Nat) (s : State) : Host.Outcome State Fault Refusal :=
  .next (s.access s.mainStopped fun s => s.capEvent 0 t)

/-- Record `r` is stored at ring offset `o`, after a wrap marker at `w` where it wraps; `rest` waits behind it. -/
def State.captureStore (s : State) (r : List Byte) (rest : List (List Byte)) (w o : Nat) (wrap : Bool) : State :=
  let s := { s with cap := { s.cap with queue := rest } }
  let s := if wrap then s.memStore 3 (s.capBase + w) (bytesOf 4 0x1F000000 ++ List.replicate 60 0) false else s
  let s := (s.memStore 3 (s.capBase + o) r false).wr F.MER_CAP_WPTR_OFS ((o + r.length) % s.capRing)
  let s := (s.bump F.MER_CAP_RECORDS_COUNT 1).raise 454
  if s.on F.MER_CAP_CTRL_CONT || s.cap.closing then s else s.wr F.MER_CAP_STATUS_DONE 1

/-- CAPTURE_RECORD_COMPLETE (R295): the oldest complete record goes to the ring; its last byte written, it is counted. -/
def execCaptureRecordComplete (s : State) : Host.Outcome State Fault Refusal :=
  .next <| if s.capStopped then s else match s.cap.queue with
    | [] => s
    | r :: rest =>
      let w := s.rd F.MER_CAP_WPTR_OFS
      match ringPlace s.capRing w (s.rd F.MER_CAP_RPTR_OFS) 64 r.length with
      | none => s
      | some (o, wrap) =>
        match s.place 3 (s.capBase + w) with
        | .loc _ => s.whenMemory 3 fun s => s.captureStore r rest w o wrap
        | _ => s.captureStore r rest w o wrap

end Sys2Proof.Machine
end

