-- ==== Sys2Proof/Machine/Events.lean ====
section
/-! DEFINITION. The event controller (R435 to R441): pending bits, routes, MSI-X posting, logbook and trace records of raises. -/

namespace Sys2Proof.Machine

/-! ### Trace records (R440, R446 to R448) -/

/-- A record is formed; a stream that is off discards it (R448). -/
def State.traceForm (s : State) (x : Stream) (b : List Byte) : State :=
  if s.route x = 0 then s else { s with obs := { s.obs with queue := s.obs.queue ++ [(x, b)] } }

/-! ### Pending bits and summaries (R436, R437) -/

/-- Event `e` is pending. -/
def State.isPending (s : State) (e : Nat) : Bool := (s.rd (F.EVT_PEND_PEND (e / 32))).testBit (e % 32)

/-- Event `e` is active: pending and enabled (R437). -/
def State.isActive (s : State) (e : Nat) : Bool := s.isPending e && s.on (F.EVT_CFG_EN e)

/-- The summary of route target `r` (R437). Only events whose EVT_CFG word differs from reset can be enabled. -/
def State.summary (s : State) (r : Nat) : Bool :=
  (Tab.range s.regs 0x10000 0x10800).any fun x =>
    Word.field x.2 28 28 == 1 && Word.field x.2 5 0 == r && s.isPending ((x.1 - 0x10000) / 4)

/-- FAULT_N is driven low (R437). -/
def State.faultPin (s : State) : Bool := (List.range 512).any fun e => s.isPending e && s.on (F.EVT_CFG_FAULT e)

/-- The lowest-numbered active event (EVT_NEXT). -/
def State.nextActive (s : State) : Option Nat := (List.range 512).find? fun e => s.isActive e

/-! ### MSI-X (R437, Table LK-2) -/

/-- Word `k` of MSI-X table entry `v`. -/
def State.msixWord (s : State) (v k : Nat) : Word := s.reg (0xC08000 + 16 * v + 4 * k)

/-- Vector `v` may send: MSI-X enabled, neither masked, bus mastering enabled (R437), the function in D0. -/
def State.msixOpen (s : State) (v : Nat) : Bool :=
  s.lnk.msixEn && !s.lnk.msixMask && !(s.msixWord v 3).toNat.testBit 0 && s.on F.LNK_STATUS_BME && !s.lnk.d3

/-- Puts bit `v` of the pending bit array. -/
def State.setPba (s : State) (v : Nat) (b : Bool) : State :=
  s.setReg 0xC09000 (BitVec.ofNat 32 (withBit (s.reg 0xC09000).toNat v b))

/-- A message of vector `v` is posted, or held in the pending bit array (R437). -/
def State.postMsix (s : State) (v : Nat) : State :=
  if s.msixOpen v then
    ({ s with lnk := { s.lnk with msgs := s.lnk.msgs ++ [v] } }).postWrite
      ((s.msixWord v 1).toNat * 2 ^ 32 + (s.msixWord v 0).toNat) (bytesOf 4 (s.msixWord v 2).toNat) false
  else s.setPba v true

/-- Messages held in the pending bit array leave once their vector may send. -/
def State.flushMsix (s : State) : State :=
  s.forN 32 fun v s => if (s.reg 0xC09000).toNat.testBit v && s.msixOpen v then (s.setPba v false).postMsix v else s

/-- Runs a change of the controller's registers; a vector whose summary rises posts a message, and one whose summary falls holds none in
the pending bit array any more (R437). -/
def State.risingMsix (s : State) (f : State → State) : State :=
  let old := (List.range 32).filter fun v => s.summary v
  let s := f s
  s.forN 32 fun v s =>
    if s.summary v then (if old.contains v then s else s.postMsix v)
    else if old.contains v then s.setPba v false
    else s

/-! ### Raising (R436, R440) -/

/-- The cause word of Table EV-2 for event `e`. -/
def State.causeWord (s : State) (e : Nat) : Word :=
  if e < 16 then s.reg R.SYS_MODE_CFG
  else if e < 64 then s.reg R.THM_STATUS
  else if e < 128 then s.reg R.DET_STATUS
  else if e < 192 then s.reg R.HIS_STATUS
  else if e < 384 then s.reg (R.TIL_EVT_CAUSE (e - 192))
  else if e < 416 then s.reg R.EMI_FAULT_CAUSE
  else if e < 432 then s.reg R.HLM_FAULT_CAUSE
  else if e < 448 then s.reg R.HDG_TRIP_CAUSE
  else if e < 464 then s.reg R.MER_STATUS
  else if e < 480 then s.reg R.ADC_EXC_STATUS
  else if e < 488 then s.reg R.CAL_RESULT
  else 0

/-- An entry that is queued now finds room, behind an OVERRUN entry where one is due (R431, R432). -/
def State.logRoom (s : State) : Bool := decide (s.boot.log.length + (if s.boot.lost = 0 then 0 else 1) < 64) && !s.tilHeld

/-- The logbook entry of a raise of event `e` with SYS_MODE `w` at instant `t` (R440): DETAIL[0] counts the raises since its previous
entry. -/
def State.logRaise (s : State) (e : Nat) (w : Word) (t : Nat) : State :=
  let n := min (Tab.get (fun _ => 0) s.obs.raises e + 1) 0xFFFFFFFF
  let keep := if s.on (F.EVT_CFG_LOG e) && s.logRoom then 0 else n
  let s' := { s with obs := { s.obs with raises := Tab.set (fun _ => 0) s.obs.raises e keep } }
  if s.on (F.EVT_CFG_LOG e) then
    s'.logEntry ⟨1, s.mode, e, s.pbTime t, [BitVec.ofNat 32 n, w, s.causeWord e]⟩ false
  else s'

/-- Delivers a raise of event `e` with SYS_MODE `w` at instant `t`. -/
def State.deliverRaise (s : State) (e : Nat) (w : Word) (t : Nat) : State :=
  let was := s.isPending e
  let i := e / 32
  let s := s.risingMsix fun s => s.wr (F.EVT_PEND_PEND i) (withBit (s.rd (F.EVT_PEND_PEND i)) (e % 32) true)
  let s := s.logRaise e w t
  let s := if s.on (F.EVT_CFG_TRACE e) then
      s.traceForm .evt (bytesOf 4 (0x20000000 + e) ++ bytesOf 4 w.toNat ++ bytesOf 8 (s.pbTime t))
    else s
  if !was && s.rd F.MER_CAP_TRIG_EVENT == e then s.capEvent 5 t else s

/-- EVENT_RAISE (R436): the oldest raise on its way reaches the event controller at instant `t`. -/
def execEventRaise (t : Nat) (s : State) : Host.Outcome State Fault Refusal :=
  .next <| match s.raises with
    | [] => s
    | (e, w) :: rest => { s with raises := rest }.deliverRaise e w t

/-- A write of EVT_PEND[i] (R437): the bits clear, every vector whose summary still reads 1 posts a message, and one whose summary falls holds
none any more. -/
def State.pendClear (s : State) (i : Nat) (w : Word) : State :=
  let old := (List.range 32).filter fun v => s.summary v
  let s := s.setReg (R.EVT_PEND i) (s.reg (R.EVT_PEND i) &&& ~~~w)
  s.forN 32 fun v s => if s.summary v then s.postMsix v else if old.contains v then s.setPba v false else s

/-- PENDING_CLEAR (R437). -/
def execPendingClear (i : Fin 16) (w : Word) (s : State) : Host.Outcome State Fault Refusal :=
  .next (s.access false fun s => s.pendClear i w)

/-- A write of EVT_FORCE with GO = 1 (R438). -/
def State.forceEvent (s : State) (e : Nat) : State := if reservedEvent e then s.cfgReject else s.raise e

/-- EVENT_FORCE (R438). -/
def execEventForce (e : Fin 512) (s : State) : Host.Outcome State Fault Refusal := .next (s.access false fun s => s.forceEvent e)

end Sys2Proof.Machine
end

