-- ==== Sys2Proof/Machine/Observe.lean ====
section
/-! DEFINITION. Observability (R442 to R451): performance counters, snapshots, precise samples, the trace buffer and ring. -/

namespace Sys2Proof.Machine

/-! ### Counters (R442 to R444) -/

/-- Highest event low byte of counter group `g` (Table EV-4). -/
def lastLow (g : Nat) : Nat :=
  match g with
  | 0 => 5
  | 1 => 6
  | 2 => 7
  | 3 => 0xA
  | 4 => 5
  | 5 => 3
  | 6 => 4
  | 7 => 6
  | _ => 5

/-- Number of instances of event `lo` of group `g`; 0 where INST must be 0 (Table EV-4). -/
def instances (g lo : Nat) : Nat :=
  match g with
  | 1 => 192
  | 2 => 192
  | 5 => 4
  | 6 => 24
  | 7 => if lo = 6 then 8 else 4
  | 8 => if lo = 4 then 2 else 0
  | _ => 0

/-- An OBS_CNT_CFG word is not reserved for counter `k` (R442). -/
def counterWordOk (k : Nat) (w : Word) : Bool :=
  let g := Word.field w 11 8
  let lo := Word.field w 7 0
  let inst := Word.field w 23 16
  let n := instances g lo
  g == counterGroup k && decide (lo ≤ lastLow g) && (if n = 0 then inst == 0 else decide (inst < n) || inst == 0xFF)

/-- A write of OBS_CNT_CFG[k] (R442, R443): a change of EVT_NUM or INST clears the counter. -/
def State.counterConfig (s : State) (k : Nat) (w : Word) : State :=
  if !counterWordOk k w then s.cfgReject
  else
    let a := R.OBS_CNT_CFG k
    let old := s.reg a
    let new := w &&& 0xC0FF0FFF
    let s' := s.setReg a new
    if Word.field old 23 16 = Word.field new 23 16 ∧ Word.field old 11 0 = Word.field new 11 0 then s'
    else { s' with obs := { s'.obs with cnt := Tab.set (fun _ => 0) s'.obs.cnt k 0 } }

/-- COUNTER_CONFIG_WRITE (R443). -/
def execCounterConfigWrite (k : Fin 1024) (w : Word) (s : State) : Host.Outcome State Fault Refusal :=
  .next (s.access false fun s => s.counterConfig k w)

/-- A read of OBS_CNT_LIVE_LO[k] (R444): the low bits, the high bits latched. -/
def State.counterLive (s : State) (k : Nat) : State :=
  let v := Tab.get (fun _ => 0) s.obs.cnt k
  (s.wr (F.OBS_CNT_LIVE_HI_VALUE k) (v / 2 ^ 32)).answerRead (v % 2 ^ 32)

/-- COUNTER_LIVE_READ (R444). -/
def execCounterLiveRead (k : Fin 1024) (s : State) : Host.Outcome State Fault Refusal :=
  .next (s.access (s.groupStopped (counterGroup k)) fun s => s.counterLive k)

/-- Every counter and OBS_SAT clear (OBS_CTRL.CLEAR_ALL). -/
def State.clearCounters (s : State) : State := { s.resetRegs 0xE00040 0xE000C0 with obs := { s.obs with cnt := [] } }

/-- CLEAR_ALL (R450). -/
def execClearAll (s : State) : Host.Outcome State Fault Refusal := .next (s.access false State.clearCounters)

/-! ### Snapshots (R445, R446) -/

/-- A snapshot request at instant `t`: every group latches; one that arrives while the reader copies is discarded. -/
def State.snapRequest (s : State) (t : Nat) : State :=
  if s.on F.OBS_STATUS_SNAP_BUSY then s.bump F.OBS_SNAP_MISS_COUNT 1
  else
    let stale := ((List.range 10).filter fun g => s.groupStopped g).foldl (fun m g => m + 2 ^ g) 0
    { (s.wr F.OBS_STATUS_SNAP_BUSY 1).wr F.OBS_STATUS_STALE stale with
      obs := { s.obs with snapCnt := s.obs.cnt, snapTs := s.pbTime t } }

/-- SNAP: a write of OBS_CTRL.SNAP (R445). -/
def execSnap (t : Nat) (s : State) : Host.Outcome State Fault Refusal := .next (s.access false fun s => s.snapRequest t)

/-- A snapshot trigger other than the host's (OBS_SNAP_CFG.TRIG). -/
def State.snapOn (s : State) (trig t : Nat) : State := if s.rd F.OBS_SNAP_CFG_TRIG = trig then s.snapRequest t else s

/-- SNAPSHOT_PERIOD (R445). -/
def execSnapshotPeriod (t : Nat) (s : State) : Host.Outcome State Fault Refusal :=
  .next (if s.mode = mRESET then s else s.snapOn 1 t)

/-- The snapshot record (Table EV-5): the counters with SNAP_REC = 1, ascending. -/
def State.snapRecord (s : State) : List Byte :=
  let ks := ((Tab.range s.regs 0xE01000 0xE02000).filter fun e => Word.field e.2 30 30 == 1).map fun e => (e.1 - 0xE01000) / 4
  let b := bytesOf 4 (0x30000000 + 2 ^ 16 * s.rd F.OBS_STATUS_STALE + ks.length)
    ++ bytesOf 4 (s.rd F.OBS_SNAP_SEQ_SEQ) ++ bytesOf 8 s.obs.snapTs
    ++ ks.flatMap fun k => bytesOf 8 (k * 2 ^ 48 + Tab.get (fun _ => 0) s.obs.snapCnt k)
  b ++ List.replicate ((16 - b.length % 16) % 16) 0

/-- SNAPSHOT_COPY (R446): the latched values stand in OBS_CNT_SNAP. -/
def execSnapshotCopy (s : State) : Host.Outcome State Fault Refusal :=
  .next <|
    if !s.on F.OBS_STATUS_SNAP_BUSY then s
    else
      let s := s.resetRegs 0xE04000 0xE06000
      let s := s.obs.snapCnt.foldl (fun s e =>
        (s.wr (F.OBS_CNT_SNAP_LO_VALUE e.1) (e.2 % 2 ^ 32)).wr (F.OBS_CNT_SNAP_HI_VALUE e.1) (e.2 / 2 ^ 32)) s
      let s := s.bump F.OBS_SNAP_SEQ_SEQ 1
      let s := (s.wr F.OBS_SNAP_TS_LO_NS (s.obs.snapTs % 2 ^ 32)).wr F.OBS_SNAP_TS_HI_NS (s.obs.snapTs / 2 ^ 32)
      ((s.wr F.OBS_STATUS_SNAP_BUSY 0).traceForm .snap s.snapRecord).raise 508

/-! ### Precise sampling (R447) -/

/-- The reload of a tiller's sample count: 64 × INTERVAL + 64 × (draw mod (JITTER + 1)), the draw a free value. -/
def State.sampleReload (s : State) : Nat × State :=
  let (d, s) := s.drawFree 32
  (64 * s.rd F.OBS_SMP_CFG_INTERVAL + 64 * (d % (s.rd F.OBS_SMP_CFG_JITTER + 1)), s)

/-- PRECISE_SAMPLE (R447): tiller `n`'s count is 0; the instruction that retired is sampled: its address, word, cycles waited at
issue, latency, the tiller's CYCLE_LO, and the handler it retired in. -/
def execPreciseSample (n : Fin 192) (pc : BitVec 15) (word : Word) (wait lat : Nat) (cycle : Word) (s : State) :
    Host.Outcome State Fault Refusal :=
  .next <|
    let t := s.tiller n
    if !s.on (F.TIL_CFG_SAMPLE_EN n) || t.sampleLeft ≠ 0 || s.tilHeld then s
    else
      let (v, s) := s.sampleReload
      let s := s.onTiller n fun t => { t with sampleLeft := v }
      let waiting := (s.obs.queue.filter fun x => x.1 == .smp).length
      if s.rd F.OBS_TRC_ROUTE_SMP = 0 then s
      else if 64 ≤ waiting then s.bump F.OBS_SMP_DROP_COUNT 1
      else s.traceForm .smp
        (bytesOf 4 (0x10000000 + n.val * 2 ^ 20 + t.retAttn.toNat * 2 ^ 19 + t.retTrap.toNat * 2 ^ 18 + min wait 0xFFFF)
          ++ bytesOf 4 (min lat 0xFFFF * 2 ^ 16 + pc.toNat / 4 * 4) ++ bytesOf 4 word.toNat ++ bytesOf 4 cycle.toNat)

/-! ### The trace buffer and ring (R448, R449) -/

/-- A record is dropped (R448): counted, the first since OBS_TRC_DROP was read raised. -/
def State.traceDrop (s : State) : State :=
  let first := s.rd F.OBS_TRC_DROP_COUNT == 0
  (s.bump F.OBS_TRC_DROP_COUNT 1).raiseIf first 511

/-- Writes bytes into the on-chip buffer from word-aligned offset `o`, wrapping at 64 KiB. -/
def State.traceBytes (s : State) (o : Nat) : List Byte → State
  | a :: b :: c :: d :: r =>
    State.traceBytes (s.setReg (0xE10000 + o % 65536) (BitVec.ofNat 32 (ofBytes [a, b, c, d]))) (o + 4) r
  | _ => s

/-- OBS_TRACE_LEVEL: raised when the unread bytes reach THRESH KiB (R449). -/
def State.traceLevel (s : State) : State :=
  let reached := decide (s.rd F.OBS_TRC_CFG_THRESH * 1024 ≤ s.obs.unread)
  { s.raiseIf (reached && !s.obs.levelRaised) 509 with obs := { s.obs with levelRaised := reached } }

/-- A record goes to the on-chip buffer (R448). -/
def State.traceOnChip (s : State) (b : List Byte) : State :=
  let w := s.rd F.OBS_TRC_WPTR_OFS
  let wrap := s.on F.OBS_TRC_CFG_WRAP
  if !wrap && (s.on F.OBS_STATUS_FULL || s.obs.atEnd || decide (65536 < w + b.length)) then
    (s.wr F.OBS_STATUS_FULL 1).traceDrop
  else
    let s := (s.traceBytes w b).wr F.OBS_TRC_WPTR_OFS ((w + b.length) % 65536)
    { s with obs := { s.obs with
      unread := min 65536 (s.obs.unread + b.length), atEnd := !wrap && decide (w + b.length = 65536) } }.traceLevel

/-- A record goes to the DRAM ring through port TRACE, or is dropped whole (R448). -/
def State.traceRing (s : State) (b : List Byte) : State :=
  let w := s.rd F.OBS_TRC_RING_WPTR_OFS
  match ringPlace s.trcSize w (s.rd F.OBS_TRC_RING_RPTR_OFS) 16 b.length with
  | none => s.traceDrop
  | some (o, wrap) =>
    let s := if wrap then s.memStore 5 (s.trcBase + w) (wrapMarker 16) false else s
    (s.memStore 5 (s.trcBase + o) b false).wr F.OBS_TRC_RING_WPTR_OFS ((o + b.length) % s.trcSize)

/-- TRACE_RECORD (R448): the oldest formed record is written where its stream goes, or dropped. -/
def execTraceRecord (s : State) : Host.Outcome State Fault Refusal :=
  .next <| match s.obs.queue with
    | [] => s
    | (x, b) :: rest =>
      let next (s : State) : State := { s with obs := { s.obs with queue := rest } }
      match s.route x with
      | 1 => (next s).traceOnChip b
      | 2 => s.whenMemory 5 fun s => (next s).traceRing b
      | _ => next s

/-- OBS_TRC_CFG.CLR empties the on-chip buffer; the level test starts again (R449). -/
def State.traceClear (s : State) : State :=
  { ((s.wr F.OBS_TRC_WPTR_OFS 0).wr F.OBS_TRC_RPTR_OFS 0).wr F.OBS_STATUS_FULL 0 with
    obs := { s.obs with unread := 0, levelRaised := false, atEnd := false } }

/-- A stream routes to the DRAM ring: its registers are not written (R448). -/
def State.ringRouted (s : State) : Bool :=
  s.route .snap == 2 || s.route .evt == 2 || s.route .smp == 2

/-- TRACE_CLR (R449): a write of OBS_TRC_CFG, ignored while a stream routes to the ring (R448). -/
def execTraceClr (s : State) : Host.Outcome State Fault Refusal :=
  .next (s.access false fun s => if s.ringRouted then s.cfgReject else s.traceClear)

end Sys2Proof.Machine
end

