-- ==== Sys2Proof/Machine/Emitter.lean ====
section
/-! DEFINITION. The emitter sequencer's own state (chapter 07): power, curve, seed map, charge, monitor, line test, laser-board watch,
enable, discharge and fault. What it does at each slot stands with the fabric. -/

namespace Sys2Proof.Machine

/-! ### States (Table EM-5) -/

def eOFF : Nat := 0
def eFIRING : Nat := 2
def eDISCHARGING : Nat := 3
def eFAULT : Nat := 4
def eINHIBITED : Nat := 5

/-- The SAFE-STOP latch is set. -/
def State.latched (s : State) : Bool := s.on F.HDG_STATUS_LATCH

/-- The hedge has released LI_N (HDG_STATUS.STATE = RELEASED, R252). -/
def State.released (s : State) : Bool := s.rd F.HDG_STATUS_STATE == 2

/-- The mode permits firing: SCAN, DERATED, or CALIBRATE with FIRE = 1 in the set in force (R217, R97). -/
def State.mayFire (s : State) : Bool :=
  s.mode == mSCAN || s.mode == mDERATED || (s.mode == mCALIBRATE && Word.field s.his.recipeCal 16 16 == 1)

/-! ### Power and the seed map (R200 to R207) -/

/-- The pointer and repeat count after a slot of the entry at the pointer (R202). -/
def nextPtr (entry ptr rep : Nat) : Nat × Nat :=
  if rep < bits entry 18 15 then (ptr, rep + 1)
  else if bits entry 13 13 = 1 ∨ ptr = 8191 then (0, 0) else (ptr + 1, 0)

/-- Entry `x` fires nothing under the masks that `rows` and `cols` leave of SHORT lines (R198). -/
def silentEntry (x rows cols : Nat) : Bool :=
  bits x 63 46 &&& ((2 ^ 18 - 1) ^^^ rows) == 0 || bits x 45 30 &&& ((2 ^ 16 - 1) ^^^ cols) == 0

/-- The next entry of buffer `b` that fires among the next `left` slots, from the pointer and repeat count on (R202); else the pointer
and count after those slots. -/
def State.nextFiring (s : State) (b rows cols : Nat) : Nat → Nat → Nat → Nat → Nat ⊕ Nat × Nat
  | 0, _, ptr, rep => .inr (ptr, rep)
  | k + 1, left, ptr, rep =>
    let x := s.seedEntry b ptr
    if left = 0 then .inr (ptr, rep)
    else if !silentEntry x rows cols then .inl x
    else if left + rep ≤ bits x 18 15 then .inr (ptr, rep + left)
    else State.nextFiring s b rows cols k (left - (bits x 18 15 + 1 - rep)) (if bits x 13 13 = 1 ∨ ptr = 8191 then 0 else ptr + 1) 0

/-- The entry of the next slot that will fire (Table EM-2): first among the slots left of the point cycle, under its effective masks;
then past the boundary, in the other buffer where a swap is requested, under the SHORT lines of the registers. -/
def State.nextShot (s : State) : Option Nat :=
  let b := s.rd F.EMI_STATUS_ACTIVE_BUF
  let k := s.bank s.his.active
  let left := match s.his.cur with
    | some x => (match x.kind with
      | .plough => k.p - 1 - x.index + k.h
      | .fallow => k.h
      | .harrow => k.h - 1 - x.index)
    | none => 0
  match s.nextFiring b s.emi.shortRows s.emi.shortCols 8192 left s.emi.ptr s.emi.rep with
  | .inl x => some x
  | .inr (ptr, rep) =>
    let after := if s.emi.swapReq then s.nextFiring (1 - b) (s.rd F.EMI_ROW_SHORT_SHORT) (s.rd F.EMI_COL_FAULT_SHORT) 8192 (8192 * 16) 0 0
      else s.nextFiring b (s.rd F.EMI_ROW_SHORT_SHORT) (s.rd F.EMI_COL_FAULT_SHORT) 8192 (8192 * 16) ptr rep
    match after with
    | .inl x => some x
    | .inr _ => none

/-- Lines, EM_FIRE and EM_DAC idle (Table EM-5). -/
def State.emiIdle (s : State) : State :=
  let s := s.setDac 0
  { s with emi := { s.emi with rowsOut := 0, colsOut := 0, prep := s.emi.prep.map fun p => { p with rect := {}, pulses := 0 }
                               shot := { s.emi.shot with pulses := s.emi.shot.fired } } }

/-- WAIT: EM_DAC holds the curve value of the first entry (Table EM-5). -/
def State.emiWait (s : State) : State :=
  (s.wr F.EMI_STATUS_STATE eWAIT).waitDac

/-- DISCHARGING begins (R218). -/
def State.emiDischarge (s : State) : State := (s.wr F.EMI_STATUS_STATE eDISCHARGING).emiIdle

/-- The hedge is BLANKED (R257). -/
def State.blanked (s : State) : Bool := s.rd F.HDG_STATUS_STATE == 3

/-- The state follows EN, the mode, the hedge and the recorded causes (R217 to R220). FIRING begins at a boundary only. INHIBITED with
EN at 0 is what a trip left: it reads OFF once SAFE-STOP is left (R219). -/
def State.emiSettle (s : State) : State :=
  let st := s.emiState
  if s.latched then (s.wr F.EMI_STATUS_STATE eINHIBITED).emiIdle
  else if s.reg R.EMI_FAULT_CAUSE ≠ 0 then (s.wr F.EMI_STATUS_STATE eFAULT).emiIdle
  else if st = eDISCHARGING then s
  else if !s.on F.EMI_CTRL_EN then
    (if st = eWAIT ∨ st = eFIRING then s.emiDischarge else (s.wr F.EMI_STATUS_STATE eOFF).emiIdle)
  else if s.blanked || (s.mayFire && !s.released) then
    (if st = eINHIBITED then s else (s.wr F.EMI_STATUS_STATE eINHIBITED).emiIdle)
  else if st = eFIRING then (if s.mayFire then s else s.emiDischarge)
  else s.emiWait

/-- The emitter enters FAULT with cause bit `b` (R220); a shutdown that ends so drops a pending enable (R41). -/
def State.emiFault (s : State) (b : Nat) : State :=
  let s := if s.emiState = eDISCHARGING then s.dropPend F.EMI_STATUS_PENDING_ENABLE F.SYS_PEND_STATUS_EMI else s
  let w := (s.reg R.EMI_FAULT_CAUSE).toNat
  ((s.setReg R.EMI_FAULT_CAUSE (BitVec.ofNat 32 (withBit w b true))).emiSettle).derateCheck

/-! ### Enable, disable, fault clearing (R217 to R220) -/

/-- EN is set: ignored in SAFE-STOP (R219), pending during discharge (R41). -/
def State.emiEnable (s : State) : State :=
  if s.mode = mSAFESTOP ∨ s.latched then s.cfgReject
  else if s.on F.EMI_CTRL_EN then s
  else
    let s := s.wr F.EMI_CTRL_EN 1
    if s.emiState = eDISCHARGING then s.latchPend F.EMI_STATUS_PENDING_ENABLE F.SYS_PEND_STATUS_EMI else s.emiSettle

/-- EN is cleared (R218): an enabled emitter that the hedge inhibits discharges too. -/
def State.emiDisable (s : State) : State :=
  let was := s.on F.EMI_CTRL_EN && s.emiState == eINHIBITED && !s.latched
  let s := (s.dropPend F.EMI_STATUS_PENDING_ENABLE F.SYS_PEND_STATUS_EMI).wr F.EMI_CTRL_EN 0
  if was then s.emiDischarge else s.emiSettle

/-- EMITTER_ENABLE (R217). -/
def execEmitterEnable (s : State) : Host.Outcome State Fault Refusal := .next (s.access s.mainStopped State.emiEnable)

/-- EMITTER_DISABLE (R218). -/
def execEmitterDisable (s : State) : Host.Outcome State Fault Refusal := .next (s.access s.mainStopped State.emiDisable)

/-- A write of EMI_CTRL.FAULT_CLR (R220). -/
def State.faultClr (s : State) : State :=
  let hot := s.on F.EMI_LB_CFG_EN && s.rd F.EMI_STATUS_LB_STAGE == 2
  if (s.on F.EMI_FAULT_CAUSE_LB_HOT || s.on F.EMI_FAULT_CAUSE_LB_STALE) && hot then s.cfgReject
  else if s.reg R.EMI_FAULT_CAUSE = 0 then s
  else ((s.setReg R.EMI_FAULT_CAUSE 0).emiSettle).derateCheck

/-- DISCHARGE_COMPLETE (R218): EM_FB reads `fb`. -/
def execDischargeComplete (fb : Fin 4096) (s : State) : Host.Outcome State Fault Refusal :=
  .next <|
    let s := s.wr F.EMI_CHG_STATUS_FB_MEAS fb
    if s.emiState ≠ eDISCHARGING ∨ 16 * s.rd F.EMI_CHG_CFG_DIS_LEVEL < fb.val then s
    else
      let s := s.dropPend F.EMI_STATUS_PENDING_ENABLE F.SYS_PEND_STATUS_EMI
      (s.wr F.EMI_STATUS_STATE eOFF).emiSettle

/-- DIS_TIMEOUT (R218). -/
def execDisTimeout (s : State) : Host.Outcome State Fault Refusal :=
  .next (if s.emiState = eDISCHARGING then (s.raise 389).emiFault 2 else s)

/-! ### Curve and seed map (R201, R207) -/

/-- CURVE_COMMIT (R207). -/
def execCurveCommit (s : State) : Host.Outcome State Fault Refusal :=
  .next (s.access s.mainStopped fun s => s.wr F.EMI_STATUS_COMMIT_PENDING 1)

/-- The pending curve is copied, or rejected with the lowest failing entry (R207). -/
def State.curveCopy (s : State) : State :=
  let s := s.wr F.EMI_STATUS_COMMIT_PENDING 0
  match (List.range 255).find? fun p => decide (s.rd (F.EMI_CURVE_DAC (p + 1)) < s.rd (F.EMI_CURVE_DAC p)) with
  | some p => ((s.wr F.EMI_STATUS_REJ_P p).wr F.EMI_STATUS_REJ_VALID 1).raise 394
  | none =>
    ((s.forN 256 fun p s => s.wr (F.EMI_CURVE_ACT_DAC p) (s.rd (F.EMI_CURVE_DAC p))).wr F.EMI_STATUS_REJ_VALID 0).waitDac

/-- CURVE_COMMIT_COPY (R207): while point cycles run the copy is the boundary's (R471). -/
def execCurveCommitCopy (s : State) : Host.Outcome State Fault Refusal :=
  .next (if s.on F.EMI_STATUS_COMMIT_PENDING && !s.running then s.curveCopy else s)

/-- A host write of word `hi` of entry `e` of buffer `b` (R200, R201). -/
def State.seedWrite (s : State) (b e : Nat) (hi : Bool) (w : Word) : State :=
  if !hi && Word.field w 12 0 != 0 then s.cfgReject
  else if s.running && s.rd F.EMI_STATUS_ACTIVE_BUF == b then s.cfgReject
  else (s.setReg (0x610000 + 0x10000 * b + 8 * e + 4 * hi.toNat) w).waitDac

/-- SEED_MAP_WRITE (R201). -/
def execSeedMapWrite (b : Fin 2) (e : Fin 8192) (hi : Bool) (w : Word) (s : State) : Host.Outcome State Fault Refusal :=
  .next (s.access s.mainStopped fun s => s.seedWrite b e hi w)

/-- DAC_UPDATE (R205): EM_DAC takes the curve value of the next slot that will fire. -/
def execDacUpdate (s : State) : Host.Outcome State Fault Refusal :=
  .next <|
    if s.emiState ≠ eFIRING then s
    else match s.nextShot with
      | some x => s.setDac (s.dacOf x)
      | none => s

/-! ### Monitor photodiode (R210, R211) -/

/-- MONITOR_EDGE (R210, R211): an edge at instant `t` confirms the pulses whose windows hold it, or is rogue; the fourth rogue edge
within any 50 µs faults the emitter, and so does each further one with three within the 50 µs before it. -/
def execMonitorEdge (t : Nat) (s : State) : Host.Outcome State Fault Refusal :=
  .next <|
    if !s.on F.EMI_MON_CFG_MON_EN || s.tilHeld then s
    else
      let inside (w : Nat × Bool × Bool) : Bool := decide (w.1 ≤ t) && decide (t < w.1 + 1250 * s.rd F.EMI_MON_CFG_MON_WIN)
      if s.emi.windows.any inside then
        let first := s.emi.windows.any fun w => inside w && w.2.1
        { s with emi := { s.emi with
          windows := s.emi.windows.map fun w => if inside w then (w.1, w.2.1, true) else w
          missRun := if first then 0 else s.emi.missRun
          shot := if first then { s.emi.shot with confirmed := true } else s.emi.shot } }
      else
        let h := (s.emi.rogue ++ [t]).filter fun u => decide (t < u + 50000000)
        let s := { s.bump F.EMI_CNT_ROGUE_COUNT 1 with emi := { s.emi with rogue := h } }
        if 4 ≤ h.length then (s.raise 388).emiFault 1 else s

/-- MONITOR_WINDOW_CLOSE (R210): the oldest window closes; a first pulse left unconfirmed is a missed shot. -/
def execMonitorWindowClose (s : State) : Host.Outcome State Fault Refusal :=
  .next <| match s.emi.windows with
    | [] => s
    | (_, first, ok) :: rest =>
      let s : State := { s with emi := { s.emi with windows := rest } }
      if first && !ok then
        let s : State := { s.bump F.EMI_CNT_MON_MISS_COUNT 1 with emi := { s.emi with missRun := s.emi.missRun + 1 } }
        if s.rd F.EMI_MON_CFG_MISS_LIMIT ≤ s.emi.missRun then (s.raise 387).emiFault 0 else s
      else s

/-! ### Line test (R214, R215) -/

/-- A write of EMI_CTRL.SHORT_TEST (R214). A second one during a commanded pass changes nothing and raises no event, and a commanded pass
that still runs when point cycles start goes on with its steps (DESIGN CHOICE, log entry 224). -/
def State.shortTest (s : State) : State :=
  if s.running || s.emiState == eDISCHARGING then s.cfgReject
  else if s.emi.testCmd then s
  else { s with emi := { s.emi with testCmd := true, testStep := 0 } }

/-- SHORT_TEST (R214). -/
def execShortTest (s : State) : Host.Outcome State Fault Refusal := .next (s.access s.mainStopped State.shortTest)

/-- Sets bit `b` of a line-fault field; its first detection is raised (R215). -/
def State.lineFault (s : State) (f : Fld) (b : Nat) : State :=
  let old := s.rd f
  if old.testBit b then s else ((s.wr f (withBit old b true)).raise 384).derateCheck

/-- LINE_TEST_STEP (R214): one step of a commanded pass, or of the automatic pass in a fallow slot; `sense` is EM_SENSE in mV. -/
def execLineTestStep (sense : Nat) (s : State) : Host.Outcome State Fault Refusal :=
  .next <|
    let auto := s.running && s.on F.EMI_TEST_CFG_AUTO && s.his.cur.any fun x => x.kind == .fallow
    let k := s.emi.testStep
    if !(s.emi.testCmd || auto) || 35 ≤ k then s
    else
      let lo := decide (sense < 10 * s.rd F.EMI_TEST_CFG_SENSE_LO)
      let hi := decide (10 * s.rd F.EMI_TEST_CFG_SENSE_HI ≤ sense)
      let next (s : State) (j : Nat) : State :=
        { s with emi := { s.emi with testStep := if 35 ≤ j && !s.emi.testCmd then 0 else j } }
      if k = 0 then (if lo then next s 1 else (next s 35).emiFault 5)
      else if k ≤ 18 then
        next (if lo then s.lineFault F.EMI_ROW_OPEN_OPEN (k - 1) else if hi then s.lineFault F.EMI_ROW_SHORT_SHORT (k - 1) else s) (k + 1)
      else
        next (if lo then s.lineFault F.EMI_COL_FAULT_OPEN (k - 19) else if hi then s.lineFault F.EMI_COL_FAULT_SHORT (k - 19) else s)
          (k + 1)

/-- LINE_TEST_PASS_END (R214). -/
def execLineTestPassEnd (s : State) : Host.Outcome State Fault Refusal :=
  .next (if s.emi.testCmd && s.emi.testStep == 35 then
    { s.raise 395 with emi := { s.emi with testCmd := false, testStep := 0 } } else s)

/-- A W1C write of a line-fault register (R215): `r` 0 EMI_ROW_SHORT, 1 EMI_ROW_OPEN, 2 EMI_COL_FAULT. -/
def State.lineClear (s : State) (r : Nat) (w : Word) : State :=
  let a := if r = 0 then R.EMI_ROW_SHORT else if r = 1 then R.EMI_ROW_OPEN else R.EMI_COL_FAULT
  (s.setReg a (s.reg a &&& ~~~w)).derateCheck

/-! ### Laser-board watch (R216) -/

/-- `n` lies on the hot side of threshold `th`. -/
def State.lbHot (s : State) (n th : Nat) : Bool := if s.on F.EMI_LB_CFG_DIR then decide (th < n) else decide (n < th)

/-- `n` lies on the cool side of threshold `th` by more than HYST. -/
def State.lbCool (s : State) (n th : Nat) : Bool :=
  let h := s.rd F.EMI_LB_CFG_HYST
  if s.on F.EMI_LB_CFG_DIR then decide (n + h < th) else decide (th + h < n)

/-- The stage becomes `stage`, which decides LB_DROP (R206). -/
def State.setStage (s : State) (stage : Nat) : State := (s.wr F.EMI_STATUS_LB_STAGE stage).waitDac

/-- A stage entry at instant `t` (R216): more than 8 within 60 s set the latch, which holds the higher of the two stages. -/
def State.lbEnter (s : State) (stage t : Nat) : State :=
  let h := recent t (s.emi.lbHist ++ [t])
  let latches := decide (8 < h.length) && !s.on F.EMI_STATUS_LB_FLAP
  let falls := decide (stage < s.rd F.EMI_STATUS_LB_STAGE)
  let s := { s with emi := { s.emi with lbHist := h } }
  let s := if latches && falls then s else (s.setStage stage).raise (if stage = 1 then 390 else 391)
  if latches then (s.wr F.EMI_STATUS_LB_FLAP 1).raise 393 else s

/-- Since when N stands on each side of each threshold, after a sample, or a write of a threshold, at instant `t` (R216). -/
def State.lbStand (s : State) (t : Nat) : State :=
  let n := s.rd F.EMI_LB_VAL_N
  let warm := s.rd F.EMI_LB_WARM_N
  let hot := s.rd F.EMI_LB_HOT_N
  let since (b : Bool) (old : Option Nat) : Option Nat := if b then some (old.getD t) else none
  { s with emi := { s.emi with
    lbHotWarm := since (s.lbHot n warm) s.emi.lbHotWarm, lbHotHot := since (s.lbHot n hot) s.emi.lbHotHot
    lbCoolWarm := since (s.lbCool n warm) s.emi.lbCoolWarm, lbCoolHot := since (s.lbCool n hot) s.emi.lbCoolHot, lbAt := t } }

/-- A write changed a threshold, DIR or HYST: N is compared anew, as at the last sample (DESIGN CHOICE, log entry 188). -/
def State.lbRecheck (s : State) : State :=
  if s.on F.EMI_LB_CFG_EN && s.on F.EMI_LB_VAL_VALID then s.lbStand s.emi.lbAt else s

/-- The watch forgets since when N stands where it does. -/
def State.lbForget (s : State) : State :=
  { s with emi := { s.emi with lbHotWarm := none, lbHotHot := none, lbCoolWarm := none, lbCoolHot := none } }

/-- What has held since `since` has held for DWELL at instant `t`. -/
def State.lbDwelt (s : State) (since : Option Nat) (t : Nat) : Bool :=
  since.any fun u => decide (u + 1000000000 * s.rd F.EMI_LB_CFG_DWELL ≤ t)

/-- A delivered sample of the watched front end at instant `t` shows in EMI_LB_VAL unless flagged (R216); N = code × 64 / gain. -/
def State.lbSample (s : State) (w : Word) (t : Nat) : State :=
  if !s.on F.EMI_LB_CFG_EN || Word.field w 31 27 != 16 + s.rd F.EMI_LB_CFG_AUX || Word.field w 24 23 != 0 then s
  else
    ((s.wr F.EMI_LB_VAL_N (Word.field w 13 0 * 2 ^ (6 - 2 * Word.field w 21 20))).wr F.EMI_LB_VAL_VALID 1).lbStand t

/-- LB_STAGE_RISE (R216): N has stood on the hot side of a threshold above the stage for DWELL. -/
def execLbStageRise (t : Nat) (s : State) : Host.Outcome State Fault Refusal :=
  .next <|
    let stage := s.rd F.EMI_STATUS_LB_STAGE
    if !s.on F.EMI_LB_CFG_EN || !s.on F.EMI_LB_VAL_VALID then s
    else if s.lbDwelt s.emi.lbHotHot t ∧ stage < 2 then (s.lbEnter 2 t).emiFault 3
    else if s.lbDwelt s.emi.lbHotWarm t ∧ stage < 1 then s.lbEnter 1 t
    else s

/-- LB_STAGE_FALL (R216): one stage, unless the flapping latch holds it. A fall into WARM is an entry into WARM. -/
def execLbStageFall (t : Nat) (s : State) : Host.Outcome State Fault Refusal :=
  .next <|
    let stage := s.rd F.EMI_STATUS_LB_STAGE
    if !s.on F.EMI_LB_CFG_EN || !s.on F.EMI_LB_VAL_VALID || s.on F.EMI_STATUS_LB_FLAP then s
    else if stage = 2 ∧ s.lbDwelt s.emi.lbCoolHot t then s.lbEnter 1 t
    else if stage = 1 ∧ s.lbDwelt s.emi.lbCoolWarm t then s.setStage 0
    else s

/-- LB_STALE (R216). -/
def execLbStale (t : Nat) (s : State) : Host.Outcome State Fault Refusal :=
  .next <|
    if !s.on F.EMI_LB_CFG_EN then s
    else
      let s := (s.wr F.EMI_LB_VAL_VALID 0).raise 392
      let s := if s.rd F.EMI_STATUS_LB_STAGE = 2 then s else s.lbEnter 2 t
      s.emiFault 4

/-- EMI_LB_CFG.EN is set: the watch starts at NORMAL. -/
def State.lbEnable (s : State) : State :=
  if s.on F.EMI_LB_CFG_EN then s else ((s.wr F.EMI_LB_CFG_EN 1).setStage 0).lbForget

/-- EMI_LB_CFG.EN is cleared. -/
def State.lbDisable (s : State) : State :=
  (((s.wr F.EMI_LB_CFG_EN 0).setStage 0).wr F.EMI_LB_VAL_VALID 0).lbForget

/-- LB_WATCH_ENABLE (R216). -/
def execLbWatchEnable (s : State) : Host.Outcome State Fault Refusal := .next (s.access s.mainStopped State.lbEnable)

/-- LB_WATCH_DISABLE (R216). -/
def execLbWatchDisable (s : State) : Host.Outcome State Fault Refusal := .next (s.access s.mainStopped State.lbDisable)

/-- Releases the laser-board latch (R216, R470). A held stage leaves by its exit's dwell from the release on: the command has no instant,
and the dwell counts from the next sample (DESIGN CHOICE, log entry 211). -/
def State.lbFlapRelease (s : State) : State :=
  { s.wr F.EMI_STATUS_LB_FLAP 0 with emi := { s.emi with lbHist := [], lbCoolWarm := none, lbCoolHot := none } }

/-- LB_FLAP_RELEASE (R216). -/
def execLbFlapRelease (s : State) : Host.Outcome State Fault Refusal := .next (s.access s.mainStopped State.lbFlapRelease)

end Sys2Proof.Machine
end

