-- ==== Sys2Proof/Machine/Helm.lean ====
section
/-! DEFINITION. The helm (chapter 08): encoder and angle, the control laws, the output stage, the spindle states, the tilt, its faults
and its trace. -/

namespace Sys2Proof.Machine

/-- Changes the helm's own state. -/
def State.hl (s : State) (f : Hlm → Hlm) : State := { s with hlm := f s.hlm }

/-! ### States (Table HL-4) -/

def hOFF : Nat := 0
def hCATCH : Nat := 1
def hSPIN_UP : Nat := 2
def hLOCKING : Nat := 3
def hLOCKED : Nat := 4
def hBRAKING : Nat := 5
def hFAULT : Nat := 6

/-- HLM_STATUS.SP_STATE. -/
def State.sp (s : State) : Nat := s.rd F.HLM_STATUS_SP_STATE

/-- HLM_STATUS.TL_STATE: 0 OFF, 1 PARKING, 2 TRACKING, 3 FAULT. -/
def State.tl (s : State) : Nat := s.rd F.HLM_STATUS_TL_STATE

/-- Writes TL_STATE; an entry to TRACKING restarts the tilt table; OFF and FAULT release the tilt outputs (R243). -/
def State.setTl (s : State) (v : Nat) : State :=
  let s := if v = 2 ∧ s.tl ≠ 2 then s.hl fun h => { h with step := 0 } else s
  let s := s.wr F.HLM_STATUS_TL_STATE v
  if v = 0 ∨ v = 3 then
    s.hl fun h => { h with uTl := 0, trackRun := 0, shadow := h.shadow.take 6 ++ [0, 0], pins := h.pins.take 6 ++ [0, 0] }
  else s

/-- TL_STATE follows the spindle; FAULT holds (R243). -/
def State.tiltFollow (s : State) : State :=
  if s.tl = 3 then s
  else
    let p := s.sp
    s.setTl (if p = hSPIN_UP ∨ p = hLOCKING ∨ p = hLOCKED then 2 else if p = hCATCH ∨ p = hBRAKING then 1 else 0)

/-- Writes SP_STATE. -/
def State.setSp (s : State) (v : Nat) : State := (s.wr F.HLM_STATUS_SP_STATE v).tiltFollow

/-- The spindle outputs are released: all six pins low (R233). A hand-over in progress ends with the drive, and a sample that waits
for its lock attempt or unlock waits no longer. -/
def State.releaseSp (s : State) : State :=
  (s.wr F.HLM_STATUS_HO_ACTIVE 0).hl fun h =>
    { h with law := none, ySp := 0, uSp := 0, cog := 0, skip := false, ho := 0, waitSp := false, hallBad := 0
             shadow := List.replicate 6 0 ++ h.shadow.drop 6, pins := List.replicate 6 0 ++ h.pins.drop 6 }

/-! ### Encoder and angle (R224 to R226) -/

/-- Four counts per encoder line. -/
def State.counts (s : State) : Nat := 4 * s.rd F.HLM_ENC_CFG_CPR

/-- Angle of the last counted edge, in 2^-32 revolution. -/
def State.thetaEdge (s : State) : Nat := 2 ^ 32 * s.rd F.HLM_ENC_COUNT_COUNT / s.counts

/-- The interpolated angle θ at instant `t` in ps (R225). -/
def State.thetaAt (s : State) (t : Nat) : Nat :=
  let h := s.hlm
  let base := s.thetaEdge
  if h.prevEdge ≠ 0 ∧ h.prevEdge < h.lastEdge ∧ t < h.prevEdge + 10000000000 then
    let most : Int := (2 ^ 32 + s.counts - 1) / s.counts - 1
    let d : Int := (2 ^ 32 * (t + 1 - h.lastEdge) : Nat) / (s.counts * (h.lastEdge - h.prevEdge) : Nat)
    unsigned 32 (base + (if h.forward then min d most else -(min d most)))
  else base % 2 ^ 32

/-- The facet angle F (R226). -/
def State.facetAngle (s : State) : Nat := 2 ^ 32 / s.rd F.HLM_SP_CFG_N_FACET

/-- The facet that contains angle `a`; 0 until the index has been seen (R226). -/
def State.facetOf (s : State) (a : Nat) : Nat :=
  if s.on F.HLM_STATUS_INDEX_SEEN then
    min ((a + 2 ^ 32 - s.rd F.HLM_FACET_OFS_OFS) % 2 ^ 32 / s.facetAngle) (s.rd F.HLM_SP_CFG_N_FACET - 1)
  else 0

/-- The count is set to 0, and θ[n − 1] moves by the same step (R225). -/
def State.zeroCount (s : State) : State :=
  let a := s.thetaEdge
  (s.wr F.HLM_ENC_COUNT_COUNT 0).hl fun h => { h with theta := (h.theta + 2 ^ 32 - a % 2 ^ 32) % 2 ^ 32 }

/-! ### The end of a tick: the trace (R245) -/

/-- Histories of law `l`. -/
def State.lawHist (s : State) (l : Nat) : LawHist := Tab.get (fun _ => {}) s.hlm.hist l

/-- What a change of state or a fault triggers the trace on (R245). -/
def State.traceState (s : State) : Nat := s.sp + 8 * s.tl + 32 * s.rd F.HLM_FAULT_CAUSE_CAUSE

/-- The value of a trace node (Table HL-7), sign-extended from the node's own width (R245); the packed node 0x12 is unsigned (DEDUCED,
log entry 190). -/
def State.traceNode (s : State) (code : Nat) : Int :=
  let h := s.hlm
  match code with
  | 0x01 => h.theta
  | 0x02 => s.rdS F.HLM_MEAS_SPEED_OMEGA
  | 0x03 => h.wRef + h.pull
  | 0x04 => h.thetaRef
  | 0x05 => s.rdS F.HLM_MEAS_PHASE_E_PH
  | 0x06 => h.uSp
  | 0x07 => h.y0
  | 0x08 => h.y1
  | 0x09 => s.rdS F.HLM_MEAS_TILT_POS
  | 0x0A => s.rdS F.HLM_MEAS_TILT_REF
  | 0x0B => h.y2
  | 0x0C => h.y3
  | 0x0D => h.uTl
  | 0x0E => h.cog
  | 0x0F => h.fric
  | 0x10 => signed 14 h.tiltCode
  | 0x11 => signed 16 (s.rd F.HLM_ENC_COUNT_COUNT)
  | 0x12 => (s.sp * 256 + (s.on F.HLM_STATUS_INDEX_SEEN).toNat * 128 + s.tl * 16 + h.hall : Nat)
  | _ => 0

/-- Node code of node `j` (HLM_TRACE_SEL0 and 1). -/
def State.nodeCode (s : State) (j : Nat) : Nat :=
  Word.field (s.reg (if j < 4 then R.HLM_TRACE_SEL0 else R.HLM_TRACE_SEL1)) (8 * (j % 4) + 5) (8 * (j % 4))

/-- The trace is triggered, once at least PRE samples have been recorded (R245). -/
def State.traceTrigger (s : State) : State :=
  if s.on F.HLM_TRACE_STATUS_RECORDING && s.hlm.trLeft.isNone && decide (s.rd F.HLM_TRACE_CFG_PRE ≤ s.hlm.trN) then
    s.hl fun h => { h with trLeft := some (4096 - s.rd F.HLM_TRACE_CFG_PRE) }
  else s

/-- One sample per node is recorded; recording stops when the samples after the trigger are in (R245). -/
def State.traceRecord (s : State) : State :=
  let i := s.hlm.trN % 4096
  let s := s.forN 8 fun j s => s.setReg (R.HLM_TRACE_BUF j i) (BitVec.ofInt 32 (s.traceNode (s.nodeCode j)))
  let s := s.hl fun h => { h with trN := h.trN + 1, trDec := s.rd F.HLM_TRACE_CFG_DEC - 1, trLeft := h.trLeft.map (· - 1) }
  let s := s.wr F.HLM_TRACE_STATUS_OLDEST (if s.hlm.trN < 4096 then 0 else s.hlm.trN % 4096)
  if s.hlm.trLeft = some 0 then ((s.wr F.HLM_TRACE_STATUS_RECORDING 0).wr F.HLM_TRACE_STATUS_DONE 1).raise 429 else s

/-- The tick ends: the trace takes its sample and judges its trigger (R245). -/
def State.tickEnd (s : State) : State :=
  let now := s.traceState
  let last := s.hlm.trLast
  let s := s.hl fun h => { h with trLast := now }
  if !s.on F.HLM_TRACE_STATUS_RECORDING then s
  else
    let trig := s.rd F.HLM_TRACE_CFG_TRIG
    let s := if (trig = 1 ∧ now % 32 ≠ last % 32) ∨ (trig = 2 ∧ (List.range 6).any fun b => (now / 32).testBit b && !(last / 32).testBit b)
      then s.traceTrigger else s
    if s.hlm.trDec ≠ 0 then s.hl fun h => { h with trDec := h.trDec - 1 }
    else
      let v := signed 32 (unsigned 32 (s.traceNode (s.nodeCode 0)))
      let p := s.hlm.trPrev
      let lv := s.rdS F.HLM_TRACE_LEVEL_LEVEL
      let cross := s.hlm.trN ≠ 0 ∧ ((trig = 3 ∧ p < lv ∧ lv ≤ v) ∨ (trig = 4 ∧ lv < p ∧ v ≤ lv))
      let s := if cross then s.traceTrigger else s
      (s.hl fun h => { h with trPrev := v }).traceRecord

/-- The tick ends once neither the spindle nor the tilt sample waits. -/
def State.tickDone (s : State) : State := if s.hlm.waitSp || s.hlm.waitTl then s else s.tickEnd

/-! ### Faults (R242) -/

/-- Records cause bit `b`, raises its event. -/
def State.helmCause (s : State) (b e : Nat) : State :=
  (s.wr F.HLM_FAULT_CAUSE_CAUSE (withBit (s.rd F.HLM_FAULT_CAUSE_CAUSE) b true)).raise e

/-- A spindle fault: outputs released, SP_STATE FAULT, a pending request dropped (R241, R242). -/
def State.spindleFault (s : State) (b e : Nat) : State :=
  let waited := s.hlm.waitSp
  let s := (s.dropPend F.HLM_STATUS_PENDING_ENABLE F.SYS_PEND_STATUS_HLM).releaseSp
  let s := (s.setSp hFAULT).helmCause b e
  if waited then s.tickDone else s

/-- The ENC fault: INDEX_SEEN clears, and FACET reads 0 with it (R224, R226, Table HL-5). -/
def State.encFault (s : State) : State :=
  (((s.wr F.HLM_STATUS_INDEX_SEEN 0).wr F.HLM_STATUS_FACET 0).hl fun h => { h with illegal := [], indexErrs := 0 }).spindleFault 1 421

/-- Quadrature decoding of levels (a, b) to (a', b'): none no change, some 0 illegal, some 1 forward (A leads B), some 2
backward. -/
def quad (a b a' b' : Bool) : Option Nat :=
  if a = a' ∧ b = b' then none
  else if a ≠ a' ∧ b ≠ b' then some 0
  else if a ≠ a' then some (if a' = b then 2 else 1)
  else some (if b' = a then 1 else 2)

/-- One decoded transition of the helm's encoder at instant `t` (R224). -/
def State.helmCount (s : State) (k t : Nat) : State :=
  let n := s.hlm.trans + 1
  let ill := (s.hlm.illegal ++ (if k = 0 then [n] else [])).filter fun i => decide (n < i + s.counts)
  let s := s.hl fun h => { h with trans := n, illegal := ill }
  if k = 0 then
    let s := s.bump F.HLM_CNT_ENC_ERR_COUNT 1
    if 4 ≤ ill.length then s.encFault else s
  else
    let c := s.rd F.HLM_ENC_COUNT_COUNT
    let s := s.wr F.HLM_ENC_COUNT_COUNT ((if k = 1 then c + 1 else c + s.counts - 1) % s.counts)
    s.hl fun h => { h with prevEdge := h.lastEdge, lastEdge := t + 1, forward := k == 1
                           travel := if k = 1 then h.travel + 1 else h.travel - 1 }

/-- ENCODER_TRANSITION (R224): HLM_ENC_A and HLM_ENC_B take the levels `a` and `b` at instant `t` (ps). -/
def execEncoderTransition (a b : Bool) (t : Nat) (s : State) : Host.Outcome State Fault Refusal :=
  .next <|
    if s.mode = mRESET then s
    else match quad s.hlm.encA s.hlm.encB a b with
      | none => s
      | some k => (s.hl fun h => { h with encA := a, encB := b }).helmCount k t

/-- FACET shows the facet of the angle that the count gives (R226). -/
def State.showFacet (s : State) : State := s.wr F.HLM_STATUS_FACET (s.facetOf s.thetaEdge)

/-- ENCODER_INDEX (R224): a rising edge of HLM_ENC_Z. -/
def execEncoderIndex (s : State) : Host.Outcome State Fault Refusal :=
  .next <|
    if s.mode = mRESET ∨ !s.on F.HLM_ENC_CFG_INDEX_EN then s
    else if !s.on F.HLM_STATUS_INDEX_SEEN then (s.zeroCount.wr F.HLM_STATUS_INDEX_SEEN 1).showFacet
    else
      let c := s.rd F.HLM_ENC_COUNT_COUNT
      if c ≤ 2 ∨ s.counts ≤ c + 2 then s.hl fun h => { h with indexErrs := 0 }
      else
        let s := ((s.bump F.HLM_CNT_ENC_ERR_COUNT 1).raise 422).zeroCount.showFacet
        let s := s.hl fun h => { h with indexErrs := h.indexErrs + 1 }
        if 3 ≤ s.hlm.indexErrs then s.encFault else s

/-! ### Control laws (R229 to R231) -/

/-- The word at offset `o` of the active page of law `l` (R231). -/
def State.page (s : State) (l o : Nat) : Word := Tab.get resetWord s.hlm.act (0x700100 + 0x40 * l + o)

/-- Replaces the histories of law `l`. -/
def State.setHist (s : State) (l : Nat) (h : LawHist) : State :=
  s.hl fun x => { x with hist := Tab.set (fun _ => {}) x.hist l h }

/-- One term of R230: the product rounded and shifted. -/
def lawTerm (c : Int) (sh : Nat) (v : Int) : Int := sar (c * v + (if sh = 0 then 0 else 2 ^ (sh - 1))) sh

/-- Saturation to 64 bits. -/
def sat64 (v : Int) : Int := clip (-(2 ^ 63)) (2 ^ 63 - 1) v

/-- Saturation to 32 bits. -/
def sat32 (v : Int) : Int := clip (-(2 ^ 31)) (2 ^ 31 - 1) v

/-- The sum of a law before its bounds (R230): `m` is 2 or 3. -/
def State.lawSum (s : State) (l m : Nat) (e : Int) : Int :=
  let h := s.lawHist l
  let acc := (List.range (m + 1)).foldl (fun acc i =>
    sat64 (acc + lawTerm (s.page l (4 + 4 * i)).toInt (Word.field (s.page l 0x20) (8 * i + 4) (8 * i)) ((e :: h.e).getD i 0))) 0
  (List.range m).foldl (fun acc i =>
    sat64 (acc - lawTerm (s.page l (0x14 + 4 * i)).toInt (Word.field (s.page l 0x24) (8 * i + 4) (8 * i)) (h.y.getD i 0))) acc

/-- LAW_SAT of law `l` sets on a clip (R230). -/
def State.lawClip (s : State) (l : Nat) (clipped : Bool) : State :=
  let w := s.rd F.HLM_STATUS_LAW_SAT
  if clipped && !w.testBit l then (s.wr F.HLM_STATUS_LAW_SAT (withBit w l true)).raise 430 else s

/-- Law `l` on input `e`, its lower bound raised to `low`, its output moved by at most `slew` from `u` where given; the law
remembers what was applied (R229, R230, R239, R241). An off law answers `off`; under a hand-over it, too, remembers what was applied,
and its error history stays zero (DESIGN CHOICE, log entry 225). -/
def State.runLaw (s : State) (l : Nat) (e off : Int) (low : Int) (slew : Option (Int × Int)) : Int × State :=
  let m := Word.field (s.page l 0) 1 0 + 1
  if m = 1 then
    match slew with
    | some (u, d) =>
      let y := clip (u - d) (u + d) off
      let h := s.lawHist l
      (y, s.setHist l { h with y := y :: h.y.take 2 })
    | none => (off, s)
  else
    let acc := s.lawSum l m e
    let y := min (max acc (max low (s.page l 0x2C).toInt)) (s.page l 0x28).toInt
    let s := (s.lawClip l (y != acc)).count 5 3 l (y != acc).toNat
    let y := match slew with | some (u, d) => clip (u - d) (u + d) y | none => y
    let h := s.lawHist l
    (y, s.setHist l { e := e :: h.e.take 2, y := y :: h.y.take 2 })

/-- The law pages are copied to the active set before the next tick's computation; a law that becomes off loses its histories
(R231). -/
def State.lawCopy (s : State) : State :=
  let s := (s.wr F.HLM_STATUS_COMMIT_PENDING 0).hl fun h => { h with act := Tab.range s.regs 0x700100 0x700200 }
  s.forN 4 fun l s => if Word.field (s.page l 0) 1 0 = 0 then s.setHist l {} else s

/-- LAW_COMMIT (R231). -/
def execLawCommit (s : State) : Host.Outcome State Fault Refusal :=
  .next (s.access false fun s => s.wr F.HLM_STATUS_COMMIT_PENDING 1)

/-! ### Output stage (R232 to R234) -/

/-- The phases (high, low) of a sector for positive drive (Table HL-3); U, V, W are 0, 1, 2. -/
def sectorPhases : Nat → Nat × Nat
  | 0 => (0, 1)
  | 1 => (0, 2)
  | 2 => (1, 2)
  | 3 => (1, 0)
  | 4 => (2, 0)
  | _ => (2, 1)

/-- The sector of a Hall code (Table HL-3). -/
def hallSector : Nat → Option Nat
  | 5 => some 0
  | 4 => some 1
  | 6 => some 2
  | 2 => some 3
  | 3 => some 4
  | 1 => some 5
  | _ => none

/-- The sector comes from the encoder (R234). -/
def State.byEncoder (s : State) : Bool := s.on F.HLM_SP_CFG_COMM_ENC && s.on F.HLM_STATUS_INDEX_SEEN

/-- The sector in force for the latched angle and Hall code (R234). -/
def State.sector (s : State) : Option Nat :=
  if s.byEncoder then
    some ((s.rd F.HLM_MEAS_ANGLE_THETA * s.rd F.HLM_SP_CFG_POLE_PAIRS + s.rd F.HLM_COMM_OFS_OFS) % 2 ^ 32 * 6 / 2 ^ 32)
  else hallSector s.hlm.hall

/-- Compares and enables of the six spindle pins for drive `u` (R233, R234). -/
def spindlePins (u : Int) (period : Nat) (sector : Option Nat) : List Nat :=
  match sector with
  | none => List.replicate 6 0
  | some k =>
    let (hi, lo) := if 0 ≤ u then sectorPhases k else ((sectorPhases k).2, (sectorPhases k).1)
    let c := u.natAbs * period / 2 ^ 31
    ((List.range 3).map fun p => if p = hi then c else 0) ++ (List.range 3).map fun p => if p = hi ∨ p = lo then 1 else 0

/-- The commutation of the spindle drive in force, for the sector of this tick, into the compare shadows: at every tick (Table HL-1,
R234). -/
def State.commutate (s : State) : State :=
  if s.hlm.law.isNone then s
  else
    let v := if s.on F.HLM_SP_CFG_DIR then -s.hlm.uSp else s.hlm.uSp
    let pins := spindlePins v (s.rd F.HLM_PWM_CFG_SP_PERIOD) s.sector
    s.hl fun h => { h with shadow := pins ++ h.shadow.drop 6 }

/-- Applies spindle law output `y`: cogging, drive, commutation and compare shadows (R232, R234). -/
def State.applySp (s : State) (y : Int) : State :=
  let cog : Int := if s.on F.HLM_SP_CFG_COG_EN && s.on F.HLM_STATUS_INDEX_SEEN then
      s.rdS (F.HLM_COG_VALUE (s.rd F.HLM_MEAS_ANGLE_THETA / 2 ^ 22)) * 2 ^ 16 else 0
  let u := sat32 (y + cog)
  (s.hl fun h => { h with ySp := y, cog := cog, uSp := u }).commutate

/-- A hand-over to law `l` with output `u` in force (R239). -/
def State.handover (s : State) (l : Nat) (u : Int) (skip : Bool) : State :=
  ((s.setHist l { e := [0, 0, 0], y := [u, u, u] }).wr F.HLM_STATUS_HO_ACTIVE 1).hl fun h =>
    { h with law := some l, ySp := u, ho := 64, skip := skip }

/-- One spindle sample of the law in force with input `e`: the switching sample applies the output in force (R239). -/
def State.driveSp (s : State) (e low : Int) : State :=
  match s.hlm.law with
  | none => s
  | some l =>
    if s.hlm.skip then (s.hl fun h => { h with skip := false }).applySp s.hlm.ySp
    else
      let slew := if s.hlm.ho = 0 then none else some (s.hlm.ySp, (s.rd F.HLM_HO_CFG_HO_SLEW : Int))
      let (y, s) := s.runLaw l e 0 low slew
      (s.hl fun h => { h with ho := h.ho - 1, y0 := if l = 0 then y else h.y0, y1 := if l = 0 then h.y1 else y }).applySp y

/-- No bound beyond the page's own. -/
def noLow : Int := -(2 ^ 31)

/-- L0's input: ω_ref with the pull, less ω (Table HL-2). -/
def State.speedError (s : State) : Int := s.hlm.wRef + s.hlm.pull - s.rdS F.HLM_MEAS_SPEED_OMEGA

/-- `v` moved toward `goal` by at most `d`. -/
def toward (v goal : Int) (d : Nat) : Int := if v < goal then min (v + d) goal else max (v - d) goal

/-! ### Spindle states (R235 to R241) -/

/-- The run condition (R235). -/
def State.helmRuns (s : State) : Bool :=
  s.on F.HLM_CTRL_EN && (s.mode == mSPINUP || s.mode == mSCAN || s.mode == mDERATED || (s.mode == mCALIBRATE && s.sys.calFrom == mSCAN))

/-- SPIN_UP from rest: ω_ref is 0 and L0 drives. -/
def State.spinUp (s : State) : State :=
  (s.hl fun h => { h with wRef := 0, pull := 0, law := some 0, ySp := 0, catchBrake := false }).setSp hSPIN_UP

/-- CATCH begins: outputs released (R236). -/
def State.enterCatch (s : State) : State := s.releaseSp.setSp hCATCH

/-- A stay in LOCKING begins (R238). -/
def State.enterLocking (s : State) : State :=
  (s.hl fun h => { h with pull := 0, dwell := 0, first := true, refused := false }).setSp hLOCKING

/-- BRAKING begins from a driven state or CATCH (R235, R241): L1 hands over to L0; drive out of the released part of CATCH starts by a
hand-over from 0 at the measured speed. `trip` ends a hand-over in progress first. A sample that waited for its lock attempt or
unlock ends its tick. -/
def State.brake (s : State) (trip : Bool) : State :=
  let p := s.sp
  if p = hOFF ∨ p = hFAULT then s
  else
    let s := if trip then (s.wr F.HLM_STATUS_HO_ACTIVE 0).hl fun h => { h with ho := 0, skip := false } else s
    if p = hBRAKING then s
    else
      let waited := s.hlm.waitSp
      let s := (s.hl fun h => { h with catchBrake := false, waitSp := false })
      let s := if p = hCATCH ∧ s.hlm.law.isNone then (s.hl fun h => { h with wRef := s.rdS F.HLM_MEAS_SPEED_OMEGA }).handover 0 0 true
        else if p = hLOCKED then s.handover 0 s.hlm.ySp true
        else s.hl fun h => { h with wRef := h.wRef + h.pull }
      let s := (s.hl fun h => { h with pull := 0 }).setSp hBRAKING
      if waited then s.tickDone else s

/-- The run condition takes the spindle out of OFF: CATCH if an edge was counted within the 50 ms before instant `t` (R235). -/
def State.helmStart (s : State) (t : Nat) : State :=
  if s.helmRuns ∧ s.sp = hOFF then
    (if s.hlm.lastEdge ≠ 0 ∧ t < s.hlm.lastEdge - 1 + 50000000000 then s.enterCatch else s.spinUp)
  else s

/-- The spindle follows the run condition (R235, R241). A command without an instant comes at the last tick's, as far as the 50 ms are
concerned (DESIGN CHOICE, log entry 191). A pending request lasts while EN = 1. -/
def State.helmSettle (s : State) : State :=
  if s.helmRuns then
    (if s.sp = hBRAKING then s.latchPend F.HLM_STATUS_PENDING_ENABLE F.SYS_PEND_STATUS_HLM else s.helmStart s.hlm.tickAt)
  else
    let s := if s.on F.HLM_CTRL_EN then s else s.dropPend F.HLM_STATUS_PENDING_ENABLE F.SYS_PEND_STATUS_HLM
    (s.brake false).hl fun h => { h with catchBrake := false }

/-- EN is set (R235); during BRAKING the request is pending, whatever the mode (R241). -/
def State.helmEnable (s : State) : State :=
  if s.mode = mSAFESTOP then s.cfgReject
  else if s.on F.HLM_CTRL_EN then s
  else
    let s := s.wr F.HLM_CTRL_EN 1
    if s.sp = hBRAKING then s.latchPend F.HLM_STATUS_PENDING_ENABLE F.SYS_PEND_STATUS_HLM else s.helmSettle

/-- EN is cleared (R235). -/
def State.helmDisable (s : State) : State := if s.on F.HLM_CTRL_EN then (s.wr F.HLM_CTRL_EN 0).helmSettle else s

/-- HELM_ENABLE (R235). -/
def execHelmEnable (s : State) : Host.Outcome State Fault Refusal := .next (s.access false State.helmEnable)

/-- HELM_DISABLE (R235). -/
def execHelmDisable (s : State) : Host.Outcome State Fault Refusal := .next (s.access false State.helmDisable)

/-- The hedge's trip at the helm (R235, R42): EN and a pending request clear, braking is forced. -/
def State.helmTrip (s : State) : State :=
  (((s.wr F.HLM_CTRL_EN 0).dropPend F.HLM_STATUS_PENDING_ENABLE F.SYS_PEND_STATUS_HLM).brake true).hl fun h =>
    { h with catchBrake := false }

/-- A write of HLM_SPEED_REF.TARGET (R237, R244). -/
def State.speedRef (s : State) (w : Nat) : State :=
  if s.rd F.HLM_SP_LIM_MAX < w then s.cfgReject
  else
    let s := s.wr F.HLM_SPEED_REF_TARGET w
    if s.sp = hLOCKED then (s.handover 0 s.hlm.ySp true).setSp hSPIN_UP else s

/-- SPEED_REF_WRITE (R237). -/
def execSpeedRefWrite (w : Word) (s : State) : Host.Outcome State Fault Refusal :=
  .next (s.access false fun s => s.speedRef w.toNat)

/-- CATCH_MEASURE_END (R236): the 10 ms measurement ends; the drive starts by a hand-over from 0. A backward spindle is braked to
standstill within CATCH, by L0 (Tables HL-2, HL-4). -/
def execCatchMeasureEnd (s : State) : Host.Outcome State Fault Refusal :=
  .next <|
    if s.sp ≠ hCATCH ∨ s.hlm.law.isSome then s
    else
      let w := s.rdS F.HLM_MEAS_SPEED_OMEGA
      let stop : Int := 256 * s.rd F.HLM_BRAKE_LIM_STOP_SPD
      if stop ≤ w then ((s.hl fun h => { h with wRef := w, pull := 0 }).handover 0 0 false).setSp hSPIN_UP
      else if w ≤ -stop then
        (s.hl fun h => { h with wRef := w, pull := 0, catchBrake := true }).handover 0 0 false
      else s.spinUp.handover 0 0 false

/-- Conditions of a lock attempt (R238). -/
def State.mayAttempt (s : State) : Bool :=
  s.sp == hLOCKING && decide (s.rd F.HLM_LOCK_CFG_LOCK_DWELL ≤ s.hlm.dwell) && s.on F.HLM_STATUS_INDEX_SEEN
    && Word.field (s.page 1 0) 1 0 != 0 && !s.on F.HLM_STATUS_LOCK_FLAP

/-- e_ph from θref and θ (Phase reference and lock): wrapped to 32 bits and brought into [−F/2, F/2). -/
def State.phaseError (s : State) : Int :=
  let f : Int := s.facetAngle
  let d : Int := signed 32 (s.hlm.thetaRef + 2 ^ 32 - s.hlm.theta)
  let r := d % f
  if 2 * r < f then r else r - f

/-- LOCK_ATTEMPT (R238): the sample whose dwell is complete waits for it. -/
def execLockAttempt (s : State) : Host.Outcome State Fault Refusal :=
  .next <|
    if !s.mayAttempt then s
    else
      let waited := s.hlm.waitSp
      let s := s.hl fun h => { h with waitSp := false }
      let s := if s.hlm.first && !s.on F.HLM_SWEEP_CFG_REF_SRC then
          (s.hl fun h => { h with thetaRef := h.theta }).wr F.HLM_MEAS_PHASE_E_PH 0 else s
      let s := s.hl fun h => { h with first := false }
      let e := s.rdS F.HLM_MEAS_PHASE_E_PH
      let s :=
        if e.natAbs ≤ s.facetAngle / 4 then
          let s := (s.hl fun h => { h with pull := 0, unlockRun := 0 }).handover 1 s.hlm.ySp false
          ((s.applySp s.hlm.ySp).setSp hLOCKED).raise 416
        else
          let s := (s.bump F.HLM_CNT_LOCK_REF_COUNT 1).raiseIf (!s.hlm.refused) 417
          let p : Int := s.rd F.HLM_SPEED_REF_TARGET / 2 ^ s.rd F.HLM_LOCK_CFG_PULL
          let s := s.hl fun h => { h with refused := true, dwell := 0, pull := if 0 < e then p else -p }
          if waited then s.driveSp s.speedError noLow else s
      if waited then s.tickDone else s

/-- UNLOCK (R240): at instant `t` (ps). -/
def execUnlock (t : Nat) (s : State) : Host.Outcome State Fault Refusal :=
  .next <|
    if s.sp ≠ hLOCKED ∨ s.hlm.unlockRun < 16 then s
    else
      let waited := s.hlm.waitSp
      let h' := recent t (s.hlm.unlockHist ++ [t])
      let s := s.hl fun h => { h with waitSp := false, wRef := s.rd F.HLM_SPEED_REF_TARGET, unlockRun := 0, unlockHist := h' }
      let s := (s.handover 0 s.hlm.ySp false).applySp s.hlm.ySp
      let s := (s.enterLocking.bump F.HLM_CNT_UNLOCK_COUNT 1).raise 418
      let s := if 8 < h'.length ∧ !s.on F.HLM_STATUS_LOCK_FLAP then (s.wr F.HLM_STATUS_LOCK_FLAP 1).raise 419 else s
      if waited then s.tickDone else s

/-- Release of the unlock latch (R240, R470): the lock's dwell counts from here. -/
def State.lockFlapRelease (s : State) : State := (s.wr F.HLM_STATUS_LOCK_FLAP 0).hl fun h => { h with unlockHist := [], dwell := 0 }

/-- LOCK_FLAP_RELEASE (R240). -/
def execLockFlapRelease (s : State) : Host.Outcome State Fault Refusal := .next (s.access false State.lockFlapRelease)

/-- HANDOVER_END (R239). -/
def execHandoverEnd (s : State) : Host.Outcome State Fault Refusal :=
  .next (if s.hlm.ho = 0 then s.wr F.HLM_STATUS_HO_ACTIVE 0 else s)

/-- The end of braking (R241): outputs released and OFF; a pending request is consumed. -/
def State.brakeEnd (s : State) : State := (s.dropPend F.HLM_STATUS_PENDING_ENABLE F.SYS_PEND_STATUS_HLM).releaseSp.setSp hOFF

/-- The spindle is being braked to standstill: BRAKING, or the driven part of the catch of a backward spindle (R236, R241). -/
def State.slowing (s : State) : Bool := s.sp == hBRAKING || (s.sp == hCATCH && s.hlm.catchBrake)

/-- STANDSTILL (R241, R236). A pending request starts the spindle where the run condition holds. -/
def execStandstill (s : State) : Host.Outcome State Fault Refusal :=
  .next <|
    if !s.slowing ∨ 256 * s.rd F.HLM_BRAKE_LIM_STOP_SPD ≤ (s.rdS F.HLM_MEAS_SPEED_OMEGA).natAbs then s
    else if s.hlm.catchBrake then s.releaseSp.spinUp
    else
      let pend := s.on F.HLM_STATUS_PENDING_ENABLE
      let s := s.brakeEnd.raise 428
      if pend && s.helmRuns then s.spinUp else s

/-- BRAKE_TIMEOUT (R241). -/
def execBrakeTimeout (s : State) : Host.Outcome State Fault Refusal :=
  .next <|
    if !s.slowing then s
    else
      let again := (s.on F.HLM_STATUS_PENDING_ENABLE && s.helmRuns) || s.hlm.catchBrake
      let s := (s.brakeEnd.hl fun h => { h with catchBrake := false }).raise 427
      if again then s.enterCatch else s

/-- STALL (R237): no edge for 200 ms under at least 25 % drive. -/
def execStall (s : State) : Host.Outcome State Fault Refusal :=
  .next (if (s.sp = hCATCH ∨ s.sp = hSPIN_UP) ∧ 2 ^ 29 ≤ s.hlm.uSp.natAbs then s.spindleFault 3 424 else s)

/-- BRIDGE_FAULT (R242): HLM_FAULT_N low for 1 µs. -/
def execBridgeFault (s : State) : Host.Outcome State Fault Refusal :=
  .next <|
    if s.mode = mRESET then s
    else
      let s := s.hl fun h => { h with faultLow := true }
      (s.spindleFault 0 420).setTl 3

/-- HALL_FAULT (R242): two consecutive judged invalid samples. -/
def execHallFault (s : State) : Host.Outcome State Fault Refusal :=
  .next (if s.hlm.hallBad < 2 then s else s.spindleFault 2 423)

/-- TILT_SENSE (R243): four consecutive invalid samples. -/
def execTiltSense (s : State) : Host.Outcome State Fault Refusal :=
  .next (if s.hlm.tiltBad < 4 ∨ s.on F.HLM_FAULT_CAUSE_CAUSE && (s.rd F.HLM_FAULT_CAUSE_CAUSE).testBit 4 then s
    else (s.setTl 3).helmCause 4 425)

/-- TILT_TRACK (R243). -/
def execTiltTrack (s : State) : Host.Outcome State Fault Refusal :=
  .next (if s.hlm.trackRun < s.rd F.HLM_TILT_MON_TRACK_DWELL then s else (s.setTl 3).helmCause 5 426)

/-- A write of FAULT_CLR (R242). -/
def State.helmFaultClear (s : State) : State :=
  let w := s.rd F.HLM_FAULT_CAUSE_CAUSE
  if w.testBit 0 && s.hlm.faultLow then s.cfgReject
  else
    let keep := if w.testBit 4 ∧ 4 ≤ s.hlm.tiltBad then 16 else 0
    let s := s.wr F.HLM_FAULT_CAUSE_CAUSE keep
    let s := if s.sp = hFAULT then s.wr F.HLM_STATUS_SP_STATE hOFF else s
    let s := if s.tl = 3 ∧ keep = 0 then s.wr F.HLM_STATUS_TL_STATE 0 else s
    s.tiltFollow.helmSettle

/-- HELM_FAULT_CLEAR (R242). -/
def execHelmFaultClear (s : State) : Host.Outcome State Fault Refusal := .next (s.access false State.helmFaultClear)

/-! ### Tilt (R243) -/

/-- The tilt sample is latched: an invalid one leaves tilt_pos unchanged (R243). -/
def State.latchTilt (s : State) (bad : Bool) : State :=
  if bad then s.hl fun h => { h with tiltBad := h.tiltBad + 1 }
  else
    let p := clip (-32768) 32767
      (sar (((s.hlm.tiltCode : Int) - s.rd F.HLM_TILT_CAL_ZERO) * s.rdS F.HLM_TILT_CAL_SCALE) 12)
    (s.wrS F.HLM_MEAS_TILT_POS p).hl fun h => { h with tiltBad := 0 }

/-- The clamped tilt target (R243). -/
def State.tiltTarget (s : State) : Int :=
  clip (s.rdS F.HLM_TILT_LIM_MIN) (s.rdS F.HLM_TILT_LIM_MAX)
    (if s.tl = 2 then s.rdS (F.HLM_TILT_REF_REF (s.hlm.step % 64)) else s.rdS F.HLM_TILT_SLEW_PARK)

/-- The tilt's laws, friction term, compares and tracking test at a tick (R229, R232, R234, R243). -/
def State.tiltLaws (s : State) : State :=
  if s.tl = 0 ∨ s.tl = 3 then s
  else
    let old := s.rdS F.HLM_MEAS_TILT_REF
    let tgt := s.tiltTarget
    let ref := toward old tgt (s.rd F.HLM_TILT_SLEW_SLEW)
    let s := s.wrS F.HLM_MEAS_TILT_REF ref
    let pos := s.rdS F.HLM_MEAS_TILT_POS
    let e := ref - pos
    let (y2, s) := s.runLaw 2 e 0 noLow none
    let (y3, s) := s.runLaw 3 y2 y2 noLow none
    let sg : Int := if ref ≠ old then (ref - old).sign else if s.rd F.HLM_TILT_MON_FRIC_DB < e.natAbs then e.sign else 0
    let fric : Int := if s.on F.HLM_TILT_CFG_FRIC_EN then
        s.rd (F.HLM_FRIC_VALUE (sar pos 8 + 128).toNat) * 2 ^ 15 * sg else 0
    let u := sat32 (y3 + fric)
    let c := u.natAbs * s.rd F.HLM_PWM_CFG_TL_PERIOD / 2 ^ 31
    let far := decide (ref = tgt) && decide (s.rd F.HLM_TILT_MON_TRACK_TOL < e.natAbs)
    s.hl fun h => { h with y2 := y2, y3 := y3, fric := fric, uTl := u, trackRun := if far then h.trackRun + 1 else 0
                           shadow := h.shadow.take 6 ++ (if 0 ≤ u then [c, 0] else [0, c]) }

/-- The tilt part of a tick. -/
def State.tiltTick (s : State) (bad : Bool) : State :=
  ((s.hl fun h => { h with waitTl := false, tiltDue := none, tiltLate := none }).latchTilt bad).tiltLaws

/-- The answer to the helm's urgent request ends the tick's tilt part (Table HL-1); after the latch it waits for the next tick (R223). -/
def State.helmUrgent (s : State) : State :=
  if s.hlm.waitTl && s.hlm.tiltUrg then (s.tiltTick s.hlm.tiltOver).tickDone
  else s.hl fun h => { h with tiltLate := some (h.tiltCode, h.tiltOver) }

/-- The latest scan sample is invalid at the latch of instant `u`: over range, or older than 2 µs (R243). -/
def State.scanBad (s : State) (u : Nat) : Bool :=
  s.hlm.tiltOver || match s.hlm.tiltAt with
    | some v => decide (v + 2000000 < u)
    | none => true

/-- The tilt sample that the latch of instant `u` takes when no urgent result came in time (Table HL-1): the latest scan sample, or
under URGENT a result that an earlier tick's latch was too early for (R223); without one it is invalid (log entry 106). -/
def State.tiltMissed (s : State) (u : Nat) : State :=
  if !s.hlm.tiltUrg then s.tiltTick (s.scanBad u)
  else match s.hlm.tiltLate with
    | some (code, ovr) => (s.hl fun h => { h with tiltCode := code, tiltOver := ovr }).tiltTick ovr
    | none => s.tiltTick true

/-- The tick latches its tilt sample 0.4 µs after it began (Table HL-1): whatever comes after that, at instant `t`, finds the latch
made. -/
def State.helmNow (s : State) (t : Nat) : State :=
  match s.hlm.tiltDue with
  | some u => if u < t then (s.tiltMissed u).tickDone else s
  | none => s

/-- A delivered sample of the tilt input at instant `t`, after the latch where that is past. -/
def State.helmSample (s : State) (w : Word) (t : Nat) : State :=
  let s := s.helmNow t
  if Word.field w 31 27 = s.rd F.HLM_TILT_CFG_AIN then
    s.hl fun h => { h with tiltCode := Word.field w 13 0, tiltOver := Word.field w 25 25 == 1, tiltAt := some t }
  else s

/-! ### The tick (R223) -/

/-- The spindle sample's drive by state. A sample whose lock attempt or unlock is due leaves its drive to that command. -/
def State.sampleSp (s : State) : State :=
  let target : Int := s.rd F.HLM_SPEED_REF_TARGET
  let w := s.rdS F.HLM_MEAS_SPEED_OMEGA
  let p := s.sp
  if p = hSPIN_UP then
    let s := s.hl fun h => { h with wRef := toward h.wRef target (s.rd F.HLM_SP_RAMP_RAMP) }
    let s := s.driveSp s.speedError noLow
    if s.hlm.wRef = target then s.enterLocking else s
  else if p = hLOCKING then
    let s := s.hl fun h => { h with wRef := toward h.wRef target (s.rd F.HLM_SP_RAMP_RAMP) }
    let tol : Int := target * s.rd F.HLM_LOCK_CFG_LOCK_TOL / 1024
    let pass := decide ((w - (target + s.hlm.pull)).natAbs ≤ tol.toNat)
    let s := s.hl fun h => { h with dwell := if pass then h.dwell + 1 else 0 }
    if s.mayAttempt then s.hl fun h => { h with waitSp := true } else s.driveSp s.speedError noLow
  else if p = hLOCKED then
    let far := decide (s.facetAngle * s.rd F.HLM_LOCK_CFG_UNLOCK / 256 < (s.rdS F.HLM_MEAS_PHASE_E_PH).natAbs)
    let s := s.hl fun h => { h with unlockRun := if far then h.unlockRun + 1 else 0 }
    if 16 ≤ s.hlm.unlockRun then s.hl fun h => { h with waitSp := true } else s.driveSp (s.rdS F.HLM_MEAS_PHASE_E_PH) noLow
  else if p = hBRAKING ∨ (p = hCATCH ∧ s.hlm.law.isSome) then
    let s := s.hl fun h => { h with wRef := toward h.wRef 0 (s.rd F.HLM_BRAKE_CFG_BRAKE_RAMP) }
    s.driveSp s.speedError (-(2 ^ 15 * s.rd F.HLM_BRAKE_LIM_BRAKE_MAX : Nat))
  else s

/-- The outputs are driven and the sector comes from the Hall code: an invalid code is judged (Table HL-5). -/
def State.judgeHall (s : State) : State :=
  if s.hlm.law.isSome && !s.byEncoder && (hallSector s.hlm.hall).isNone then s.hl fun h => { h with hallBad := h.hallBad + 1 }
  else s.hl fun h => { h with hallBad := 0 }

/-- A spindle sample (R225, R227, R232 to R241). -/
def State.spindleSample (s : State) : State :=
  let th := s.rd F.HLM_MEAS_ANGLE_THETA
  let s := s.wrS F.HLM_MEAS_SPEED_OMEGA (signed 32 (th + 2 ^ 32 - s.hlm.theta))
  let ref := if s.hlm.epoch && s.on F.HLM_SWEEP_CFG_REF_SRC then s.rd F.HLM_PHASE_OFS_OFS
    else (s.hlm.thetaRef + s.rd F.HLM_SPEED_REF_TARGET) % 2 ^ 32
  let s := s.hl fun h => { h with theta := th, thetaRef := ref, epoch := false, src := s.rd F.HLM_SWEEP_CFG_SRC }
  let s := s.wrS F.HLM_MEAS_PHASE_E_PH s.phaseError
  (s.count 5 2 0 1).judgeHall.sampleSp

/-- What an unfinished tick still owes when the next one begins: its tilt latch, and the spindle sample, driven as its state says. -/
def State.finishTick (s : State) : State :=
  if s.hlm.waitSp || s.hlm.waitTl then
    let s := if s.hlm.waitTl then s.tiltMissed (s.hlm.tiltDue.getD 0) else s
    let s := if s.hlm.waitSp then
        (s.hl fun h => { h with waitSp := false }).driveSp
          (if s.sp = hLOCKED then s.rdS F.HLM_MEAS_PHASE_E_PH else s.speedError) noLow else s
    s.tickEnd
  else s

/-- HELM_TICK (R223, Table HL-1) at instant `t` (ps), with HLM_HALL reading `hall` and HLM_FAULT_N low when `faultLow`. Its tilt part
waits for the latch 0.4 µs later. -/
def execHelmTick (t : Nat) (hall : Fin 8) (faultLow : Bool) (s : State) : Host.Outcome State Fault Refusal :=
  .next <|
    if s.mode = mRESET then s
    else
      let s := s.finishTick
      let s := if s.on F.HLM_STATUS_COMMIT_PENDING then s.lawCopy else s
      let j := s.hlm.tick
      let s := (s.helmStart t).hl fun h => { h with tick := j + 1, tickAt := t, hall := hall, faultLow := faultLow }
      let th := s.thetaAt t
      let s := (s.wr F.HLM_MEAS_ANGLE_THETA th).wr F.HLM_STATUS_FACET (s.facetOf th)
      let s := if j % 4 = 0 then s.spindleSample else s.commutate
      let urg := s.on F.HLM_TILT_CFG_URGENT
      { (s.hl fun h => { h with waitTl := true, tiltDue := some (t + 400000), tiltUrg := urg }) with
        adc := { s.adc with helmUrgent := s.adc.helmUrgent || urg } }

/-- FACET_CROSSING (R226, R227): a forward crossing at instant `t` (ps) while LOCKED makes a local sweep sync; on a meridian master a
SWEEP frame falls due at it (R284). -/
def execFacetCrossing (t : Nat) (s : State) : Host.Outcome State Fault Refusal :=
  .next <|
    let s := s.wr F.HLM_STATUS_FACET (s.facetOf (s.thetaAt t))
    let s := if s.sp = hLOCKED ∧ s.rd F.MER_STATUS_STATE = 5 then
        let n := (s.mer.sweeps + 1) % 2 ^ 40
        { s with mer := { s.mer with sweeps := n, due := s.mer.due ++ [⟨.sweep, 0, n⟩] } }
      else s
    if s.sp = hLOCKED ∧ s.hlm.src = 1 then s.hl fun h => { h with syncs := h.syncs + 1 } else s

/-- SWEEP_SYNC (R22, R243): a sweep sync in use reaches the emitter sequencer and the tilt reference at instant `t` (ps). It is a
trigger source of the capture engine and of the counter snapshot. -/
def execSweepSync (t : Nat) (s : State) : Host.Outcome State Fault Refusal :=
  .next <|
    let s := s.helmNow t
    if s.hlm.syncs = 0 then s
    else
      let steps := s.rd F.HLM_TILT_CFG_STEPS
      let s := s.hl fun h => { h with syncs := h.syncs - 1, step := if s.tl = 2 then (h.step + 1) % steps else h.step }
      let s := if s.running then { s with emi := { s.emi with swapReq := true } } else s
      (s.capEvent 4 t).snapOn 3 t

/-! ### PWM and trace -/

/-- PWM_PERIOD_START (R234): the counter of the spindle or tilt group is at 0 and its compare shadows load. The latch of a scan sample
is past by then (DESIGN CHOICE, log entry 192). While the hedge gates the pads nothing reaches them (R263). -/
def execPwmPeriodStart (tilt : Bool) (s : State) : Host.Outcome State Fault Refusal :=
  .next <|
    let s := match s.hlm.tiltDue with
      | some u => if s.hlm.tiltUrg then s else s.helmNow (u + 1)
      | none => s
    if s.on F.HDG_STATUS_PWM_GATE then s
    else s.hl fun h => { h with
      pins := if tilt then h.pins.take 6 ++ h.shadow.drop 6 else h.shadow.take 6 ++ h.pins.drop 6 }

/-- TRACE_ARM is written (R245). -/
def State.traceArm (s : State) : State :=
  let s := (s.resetRegs 0x740000 0x760000).wr F.HLM_TRACE_STATUS_DONE 0
  ((s.wr F.HLM_TRACE_STATUS_RECORDING 1).wr F.HLM_TRACE_STATUS_OLDEST 0).hl fun h =>
    { h with trDec := 0, trN := 0, trLeft := none, trPrev := 0 }

/-- TRACE_ARM (R245). -/
def execTraceArm (s : State) : Host.Outcome State Fault Refusal := .next (s.access false State.traceArm)

/-- TRACE_FORCE (R245). -/
def execTraceForce (s : State) : Host.Outcome State Fault Refusal := .next (s.access false State.traceTrigger)

end Sys2Proof.Machine
end

