-- ==== Sys2Proof/Machine/Fabric.lean ====
section
/-! DEFINITION. What the histogram fabric does at the edges of slots and point cycles (chapter 03): closing a slot, the settings sample,
the start and the end of a point cycle, the hand-over of a bank, and abandonment. -/

namespace Sys2Proof.Machine

/-- Changes the fabric's own state. -/
def State.hs (s : State) (f : His → His) : State := { s with his := f s.his }

/-- Changes the emitter's own state. -/
def State.em (s : State) (f : Emi → Emi) : State := { s with emi := f s.emi }

/-- The table that lists `f k` for k < n wherever it differs from the unlisted value `d k`. -/
def tabOf {α : Type} [DecidableEq α] (d : Nat → α) (n : Nat) (f : Nat → α) : Tab α :=
  (List.range n).filterMap fun k => if f k = d k then none else some (k, f k)

/-- Applies `f` to every listed entry, dropping those that then equal the unlisted value. -/
def Tab.mapVal {α : Type} [DecidableEq α] (d : Nat → α) (f : α → α) (t : Tab α) : Tab α :=
  t.filterMap fun e => if f e.2 = d e.1 then none else some (e.1, f e.2)

/-- `v + k`, saturating in `n` bits. -/
def satAdd (n v k : Nat) : Nat := min (v + k) (2 ^ n - 1)

/-- Applies `f` to every lane of bank `b`. -/
def State.mapLanes (s : State) (b : Nat) (f : Nat → Lane → Lane) : State :=
  let k := s.bank b
  s.setBank b { k with lanes := tabOf (fun _ => {}) 1152 fun c => f c (k.lane c) }

/-- Applies `f` to the lane of channel `c` in bank `b`. -/
def State.onLane (s : State) (b c : Nat) (f : Lane → Lane) : State :=
  let k := s.bank b
  s.setBank b (k.setLane c (f (k.lane c)))

/-! ### Recipe and slot timing -/

/-- Plough and harrow slots of the point cycle in progress. -/
def State.pcP (s : State) : Nat := (s.bank s.his.active).p
def State.pcH (s : State) : Nat := (s.bank s.his.active).h

/-- The slot period in ps (R18, R197). -/
def State.slotPeriod (s : State) : Nat := s.his.pcLen / (s.pcP + 1 + s.pcH)

/-- The depth code in force at a boundary (R197). -/
def State.depthNow (s : State) : Nat :=
  let d := Word.field s.emi.slotCfg 10 0
  if s.on F.EMI_STATUS_THROTTLE then max d (Word.field s.emi.slotCfg 26 16) else d

/-- The kind and index of the slot after the one in progress; none while the bank swap or nothing is due. -/
def State.nextSlot (s : State) : Option (SlotKind × Nat) :=
  match s.his.cur with
  | none => some (.plough, 0)
  | some x => match x.kind with
    | .plough => if x.index + 1 < s.pcP then some (.plough, x.index + 1) else some (.fallow, 0)
    | .fallow => some (.harrow, 0)
    | .harrow => if x.index + 1 < s.pcH then some (.harrow, x.index + 1) else none

/-- Counts one closed slot in a lane (R81, R92): lit slots, exposures of the enabled windows, unlit slots. `k` counts in `n` bits in
header word `i`: not where that word is uncorrectable or poisoned (R95). -/
def Lane.close (l : Lane) (x : Slot) (lit : Bool) (bad : Nat → Bool) : Lane :=
  let add (n i k : Nat) : Nat := if bad i then k else satAdd n k 1
  let expose (i : Nat) (w : Win) : Win :=
    if w.en && decide (w.start + 64 + 32 * x.d ≤ 65536) then { w with exposure := add 7 i w.exposure } else w
  match x.kind, lit with
  | .fallow, _ => l
  | .plough, true => { l with litPlough := add 8 0 l.litPlough }
  | .harrow, true =>
    { l with litHarrow := add 8 0 l.litHarrow, win0 := expose 12 l.win0, win1 := expose 13 l.win1, win2 := expose 14 l.win2 }
  | _, false => { l with unlitSlots := add 9 3 l.unlitSlots }

/-- The header words of a lane that a closing slot counts in (R81, R92). -/
def Lane.closeWords (l : Lane) (x : Slot) (lit : Bool) : List Nat :=
  let exposed (i : Nat) (w : Win) : List Nat := if w.en && decide (w.start + 64 + 32 * x.d ≤ 65536) then [i] else []
  match x.kind, lit with
  | .fallow, _ => []
  | .plough, true => [0]
  | .harrow, true => 0 :: exposed 12 l.win0 ++ exposed 13 l.win1 ++ exposed 14 l.win2
  | _, false => [3]

/-- The counts of the closing slot `x` meet the errors of the lane header words they go into (R95). -/
def State.closeErrors (s : State) (b : Nat) (x : Slot) : State :=
  ((s.bank b).hcond.filter fun e =>
    decide (e.1 < 18432) && (((s.bank b).lane (e.1 / 16)).closeWords x (s.litIn x.rect (e.1 / 16))).contains (e.1 % 16)).foldl (fun s e =>
    match e.2 with
    | .ce => (s.setHead b e.1 .ok).hisCE
    | .ue => (s.setHead b e.1 .poison).hisUE b (e.1 / 16)
    | _ => s) s

/-- The slot in progress closes at instant `t`: its lit and unlit counts go into the lanes, and it becomes the slot before. -/
def State.closeSlot (s : State) (t : Nat) : State :=
  match s.his.cur with
  | none => s
  | some x =>
    let s := s.closeErrors x.bank x
    (s.mapLanes x.bank fun c l => l.close x (s.litIn x.rect c) fun i => ((s.bank x.bank).headCond (16 * c + i)).bad).hs fun h =>
      { h with prev := some { x with closeAt := t }, cur := none, older := (h.prev.toList ++ h.older).take 2 }

/-! ### The settings sample (R97, R221) -/

/-- The words that the fabric samples as one set. -/
def State.hisSettings (s : State) : List Word :=
  [s.reg R.HIS_RECIPE, s.reg R.HIS_RECIPE_CAL, s.reg R.HIS_KERNEL_W, s.reg R.HIS_KERNEL_CFG, s.reg R.HIS_THR_CFG,
    s.reg R.HIS_FIND_CFG, s.reg (R.HIS_FIXWIN 0), s.reg (R.HIS_FIXWIN 1), s.reg (R.HIS_FIXWIN 2)]

/-- The set in force. -/
def His.settings (h : His) : List Word :=
  [h.recipe, h.recipeCal, h.kernelW, h.kernelCfg, h.thrCfg, h.findCfg, h.fixwin0, h.fixwin1, h.fixwin2]

/-- Takes the set into force without an event; nothing is pending from then on. -/
def State.hisTake (s : State) : State :=
  (s.wr F.HIS_STATUS_SETTINGS_PENDING 0).hs fun h => { h with
    recipe := s.reg R.HIS_RECIPE, recipeCal := s.reg R.HIS_RECIPE_CAL, kernelW := s.reg R.HIS_KERNEL_W
    kernelCfg := s.reg R.HIS_KERNEL_CFG, thrCfg := s.reg R.HIS_THR_CFG, findCfg := s.reg R.HIS_FIND_CFG
    fixwin0 := s.reg (R.HIS_FIXWIN 0), fixwin1 := s.reg (R.HIS_FIXWIN 1), fixwin2 := s.reg (R.HIS_FIXWIN 2) }

/-- The boundary sample of the fabric's settings (R97). -/
def State.hisSample (s : State) : State :=
  let changed := s.hisSettings != s.his.settings
  s.hisTake.raiseIf changed 132

/-- The boundary sample of the emitter's settings (R221). -/
def State.emiSample (s : State) : State :=
  (s.em fun e => { e with
    slotCfg := s.reg R.EMI_SLOT_CFG, fireCfg := s.reg R.EMI_FIRE_CFG, pwrCfg := s.reg R.EMI_PWR_CFG
    pcode := (List.range 8).filterMap fun i =>
      if s.reg (R.EMI_PCODE i) = 0 then none else some (i, s.reg (R.EMI_PCODE i)) }).waitDac

/-- FIXWIN of the set in force (R91). -/
def State.fixwin (s : State) : Bool := Word.field s.his.findCfg 16 16 == 1

/-! ### Start and end of a point cycle -/

/-- A sweep sync's swap of the seed-map buffers at a boundary (R22, R203). -/
def State.bufSwap (s : State) : State :=
  if s.emi.swapReq then
    (s.wr F.EMI_STATUS_ACTIVE_BUF (1 - s.rd F.EMI_STATUS_ACTIVE_BUF)).em fun e => { e with ptr := 0, rep := 0, swapReq := false }
  else s

/-- The emitter's part of a boundary: a pending curve, a seed reload, the short lines, a requested buffer swap, the start of firing
(R198, R202, R203, R207, R215, R217). -/
def State.emiBoundary (s : State) (first : Bool) : State :=
  let s := s.emiSample
  let s := if s.on F.EMI_STATUS_COMMIT_PENDING then s.curveCopy else s
  let s := if first || s.emi.seedReload then
      s.em fun e => { e with lfsr := s.rd F.EMI_SIG_CFG_SEED, seedReload := false } else s
  let s := s.bufSwap
  let s := if first then s.em fun e => { e with ptr := 0, rep := 0, testStep := if e.testCmd then e.testStep else 0 } else s
  let s := s.em fun e => { e with
    shortRows := s.rd F.EMI_ROW_SHORT_SHORT, shortCols := s.rd F.EMI_COL_FAULT_SHORT
    clampRaised := false, highRaised := false, lowRaised := false, prep := none }
  let s := s.emiSettle
  if s.emiState = eWAIT ∧ s.on F.EMI_CTRL_EN ∧ s.mayFire ∧ s.released then
    (s.wr F.EMI_STATUS_STATE eFIRING).em fun e => { e with ptr := 0, rep := 0 }
  else s

/-- The bank of the point cycle that begins: its header, and empty lanes (R93, R98, Table HF-5). CAL_RECIPE and PC_INDEX change here
only, and keep the last point cycle's values after a run (DESIGN CHOICE, log entry 216). -/
def State.newBank (s : State) (index : Nat) : State :=
  let cal := s.mode == mCALIBRATE
  let r := if cal then s.his.recipeCal else s.his.recipe
  let s := (s.put F.HIS_STATUS_CAL_RECIPE cal).wr F.HIS_STATUS_PC_INDEX index
  let k := s.bank s.his.active
  s.setBank s.his.active { k with pcIndex := index, dmax := 0, h := Word.field r 14 8, p := Word.field r 7 0, fallowTs := 0
                                  tilt := 0, azimuth := 0, cal := cal
                                  fire := cal && Word.field s.his.recipeCal 16 16 == 1, run := s.his.run, lanes := [], hcond := [] }

/-- A point cycle begins at instant `t` (ps) with index `index` (R97, R99, R100). -/
def State.startCycle (s : State) (t index : Nat) (first : Bool) : State :=
  let s := (s.hisSample.emiBoundary first).tdcBoundary.detBoundary
  let s := s.newBank index
  let period := 2560000 + 1250 * (s.depthNow + 1)
  let s := s.hs fun h => { h with
    pcStart := t, pcLen := (s.pcP + 1 + s.pcH) * period, deadlineAt := t + (s.pcP + 1) * period - 200000
    fallowOpen := false, deadlinePassed := false, lateRaised := false, integrity := [], lanesDone := [], overridden := [] }
  let s := { s with det := { s.det with faultSeen := s.on F.DET_STATUS_BIAS_LOW || s.on F.DET_STATUS_BIAS_HIGH }
                    til := Tab.mapVal (fun _ => {}) (fun t : Tiller => { t with dlFired := false }) s.til }
  (s.count 2 7 0 1).snapOn 2 t

/-- Point cycles come to an end: what waits for a boundary takes effect, since none starts another (R46, R47, R50, R64, R97, R198, R207,
R221, R471). -/
def State.cyclesStop (s : State) : State :=
  let s := s.hisSample.emiSample
  let s := if s.on F.EMI_STATUS_COMMIT_PENDING then s.curveCopy else s
  let s := if s.emi.seedReload then s.em fun e => { e with lfsr := s.rd F.EMI_SIG_CFG_SEED, seedReload := false } else s
  s.tdcBoundary.detBoundary

/-- The flags and K_USED that a lane gets when its point cycle ends (Table HF-2). -/
def State.finalLane (s : State) (c : Nat) (l : Lane) : Lane :=
  let f := l.flags
  let f := if s.det.faultSeen then withBit f 1 true else f
  let f := if s.on (F.DET_CH_CFG_SILENT c) then withBit f 4 true else f
  let f := if s.isGated c then withBit f 5 true else f
  let f := if l.litPlough = 0 then withBit f 7 true else f
  let f := if s.fixwin then withBit f 8 true else f
  { l with flags := f, kUsed := s.rd (F.DET_CH_CFG_K_EFF c) }

/-- The bank-ready message of Table TA-4. -/
def bankReady (k : Bank) (abandoned superseded final : Bool) : BitVec 64 :=
  BitVec.ofNat 64 (k.pcIndex * 2 ^ 40 + k.cal.toNat * 2 ^ 35 + abandoned.toNat * 2 ^ 34 + superseded.toNat * 2 ^ 33
    + final.toNat * 2 ^ 32 + 1)

/-- Posts bank `b`'s bank-ready message to every tiller; one still queued is removed and SUPERSEDED set (R116). `own` passes the
ownership (R115). -/
def State.postReady (s : State) (b : Nat) (abandoned final own : Bool) : State :=
  s.forN 192 fun n s => s.onTiller n fun t =>
    let old := t.candQ.any fun m => !isCandidate m
    let q := (t.candQ.filter isCandidate) ++ [bankReady (s.bank b) abandoned old final]
    if own then { t with candQ := q, own := some (b, (s.bank b).pcIndex), emitted := false, blockDue := s.his.pcStart + s.his.pcLen }
    else { t with candQ := q }

/-- A hedge trip abandons the point cycle in progress (R99, R122): every lane ABANDONED, the bank frozen as it stands, its DROPPED
blocks leave at once, and bank-ready is posted without passing ownership. What waited for a boundary takes effect (R471). -/
def State.abandon (s : State) : State :=
  let s := s.hs fun h => { h with due := false }
  if !s.running then s
  else
    let b := s.his.active
    let s := s.mapLanes b fun c l =>
      let l := s.finalLane c l
      { l with flags := withBit l.flags 10 true }
    let s := s.forN 192 fun n s => s.dropBlock n (s.bank b) true
    let s := (s.postReady b true false false).capFreeze b
    let s := (s.wr F.HIS_STATUS_RUNNING 0).hs fun h => { h with
      cur := none, prev := none, older := [], last := false, active := 1 - b, deadlinePassed := false }
    s.hisTake.cyclesStop.runEdgeTrip

end Sys2Proof.Machine
end

