-- ==== Sys2Proof/Machine/Fuse.lean ====
section
/-! DEFINITION. The OTP array: rows, spares and the hedge's logical rows (R338, R339). -/

namespace Sys2Proof.Machine

/-- One bit of the CRC-8 with polynomial 0x07 (R276). -/
def crc8Bit (c : Nat) (b : Bool) : Nat :=
  let d := 2 * c % 256
  if c.testBit 7 != b then d ^^^ 7 else d

/-- CRC-8 of R276 over the `n` low bits of `v`, the most significant first. -/
def crc8 (n v : Nat) : Nat := ((List.range n).map fun i => v.testBit (n - 1 - i)).foldl crc8Bit 0

/-- Raw fuse row `r` (R338). -/
def State.fuseRow (s : State) (r : Nat) : Nat := Tab.get (fun _ => 0) s.cal.fuse r

/-- A row is valid: VALID = 0b11 and its CRC holds (R338). -/
def fuseValid (v : Nat) : Bool := v / 2 ^ 62 == 3 && v % 256 == crc8 52 (v / 256 % 2 ^ 52)

/-- TAG and DATA of a row (R338). -/
def fuseTag (v : Nat) : Nat := v / 2 ^ 48 % 2 ^ 12
def fuseData (v : Nat) : Nat := v / 2 ^ 8 % 2 ^ 40

/-- DATA of logical row `r`: the highest valid spare that names it, else the row itself; none where it reads as unburned (R338). -/
def State.fuseGet (s : State) (r : Nat) : Option Nat :=
  let spare := (List.range 8).reverse.findSome? fun i =>
    let v := s.fuseRow (4088 + i)
    if fuseValid v && fuseTag v == r + 1 && decide (r < 3200) then some (fuseData v) else none
  match spare with
  | some d => some d
  | none => if fuseValid (s.fuseRow r) then some (fuseData (s.fuseRow r)) else none

/-- Content of `n` fuse rows from `r` on, low bits first; none unless all are valid (R339). -/
def State.fuseRows (s : State) (r : Nat) : Nat → Option Nat
  | 0 => some 0
  | n + 1 => match s.fuseGet r, State.fuseRows s (r + 1) n with
    | some d, some k => some (d + 2 ^ 40 * k)
    | _, _ => none

/-- The content of a logical row whose fields fill `n` bytes holds its CRC-32C (R339). -/
def rowOk (n v : Nat) : Bool := crc32c (bytesOf n v) == v / 2 ^ (8 * n) % 2 ^ 32

end Sys2Proof.Machine
end

