-- ==== Sys2Proof/Machine/Hedge.lean ====
section
/-! DEFINITION. The hedge (chapter 09): limits, measurements, release, trips, the energy budget, the fire audit and the reset button. -/

namespace Sys2Proof.Machine

/-- Changes the hedge's own state. -/
def State.hd (s : State) (f : Hdg → Hdg) : State := { s with hdg := f s.hdg }

/-! ### States (Table HG-1) -/

def gIDLE : Nat := 0
def gARMING : Nat := 1
def gRELEASED : Nat := 2
def gBLANKED : Nat := 3
def gTRIPPED : Nat := 4

/-- HDG_STATUS.STATE. -/
def State.gst (s : State) : Nat := s.rd F.HDG_STATUS_STATE

/-- A limit function breaks only in RELEASED and BLANKED (R253). -/
def State.armed (s : State) : Bool := s.gst == gRELEASED || s.gst == gBLANKED

/-- A JTAG instruction is loaded under which the hedge holds LI_N low (R459). -/
def State.jtagHold (s : State) : Bool :=
  match s.sys.jtag with
  | .extest | .extestPulse | .extestTrain | .clamp | .highz => true
  | _ => false

/-! ### Limits (R266, R267) -/

/-- Effective speed window and budget: the tighter of fused and host limits. -/
def State.speedMax (s : State) : Nat := min (s.rd F.HDG_LIM_SPEED_MAX) (s.rd F.HDG_HOST_SPEED_MAX_H)
def State.speedMin (s : State) : Nat := max (s.rd F.HDG_LIM_SPEED_MIN) (s.rd F.HDG_HOST_SPEED_MIN_H)
def State.budget (s : State) : Nat := min (s.rd F.HDG_LIM_BUDGET_BUDGET) (s.rd F.HDG_HOST_BUDGET_BUDGET_H)

/-- The measured frame count lies inside the effective speed window. -/
def State.speedInside (s : State) : Bool :=
  let c := s.rdS F.HDG_MEAS_SPEED_COUNT
  decide ((s.speedMin : Int) ≤ c) && decide (c ≤ (s.speedMax : Int))

/-- A tilt code lies inside the field-of-view window, or inside the position limits. -/
def State.fovInside (s : State) (c : Nat) : Bool := decide (s.rd F.HDG_LIM_FOV_MIN ≤ c) && decide (c ≤ s.rd F.HDG_LIM_FOV_MAX)
def State.posInside (s : State) (c : Nat) : Bool := decide (s.rd F.HDG_LIM_POS_MIN ≤ c) && decide (c ≤ s.rd F.HDG_LIM_POS_MAX)

/-! ### Diagnostic causes (R261) -/

/-- Diagnostic cause `c` is present now (R261). -/
def State.present (s : State) (c : Nat) : Bool :=
  match c with
  | 8 => !s.on F.SYS_CLK_STATUS_MAIN_LOCK && !s.sys.relock && !s.tilHeld
  | 9 => decide (2 ≤ s.hdg.rcBad)
  | 11 => s.hdg.strapBad
  | 12 => s.hdg.limitBad
  | 14 => s.hdg.liBad
  | _ => Tab.get (fun _ => 0) s.hdg.timed c != 0

/-- The diagnostic causes present now, as bits 6 to 14. -/
def State.presentMask (s : State) : Nat := ((List.range 9).map fun i => if s.present (6 + i) then 2 ^ (6 + i) else 0).sum

/-- HDG_OK with the causes `m` present (R271): low for RC_XCHK, INTERNAL and LI_READBACK, else by the latch. -/
def State.okOf (s : State) (m : Nat) : HdgOk :=
  if m.testBit 9 || m.testBit 13 || m.testBit 14 then .low else if s.latched then .hz250 else .khz1

/-- HDG_PRESENT, CLEAR and HDG_OK follow the conditions (R261, R269, R271); a cause restarts the quiet interval. -/
def State.hedgeShow (s : State) : State :=
  let m := s.presentMask
  let s := (s.wr F.HDG_PRESENT_CAUSE m).hd fun h => { h with okPin := s.okOf m }
  let s := if m = 0 then s else s.hd fun h => { h with quiet := 0, unquiet := true }
  s.put F.HDG_STATUS_CLEAR (s.hdg.quiet == 100 && s.hdg.still == 100 && s.hdg.books.isEmpty)

/-! ### LI_N -/

/-- LI_N is driven to `v`: the pad follows unless it disagrees already (R251). -/
def State.setLi (s : State) (v : Bool) : State :=
  let v := v && !s.jtagHold
  if s.hdg.liBad then (s.hd fun h => { h with liBad := s.on F.HDG_STATUS_LI_LEVEL != v }).hedgeShow else s.put F.HDG_STATUS_LI_LEVEL v

/-- Enters hedge state `v`; LI_N is high in RELEASED only (Table HG-1). TEST_EN high holds the hedge in IDLE (R459). -/
def State.setGst (s : State) (v : Nat) : State :=
  let v := if s.sys.testEn then gIDLE else v
  (s.wr F.HDG_STATUS_STATE v).setLi (v == gRELEASED)

/-! ### Modes as every chapter sees them -/

/-- Latches the seal lock (R268). -/
def State.sealLock (s : State) : State := if s.on F.HDG_STATUS_SEAL_LOCK then s else (s.wr F.HDG_STATUS_SEAL_LOCK 1).raise 438

/-- Enters mode `m` with `cause`: the transition itself, the emitter, the helm, and the seal lock at an entry to SPIN-UP. -/
def State.goMode (s : State) (m cause : Nat) : State :=
  let s := (s.transition m cause).emiSettle.helmSettle
  if m = mSPINUP then s.sealLock else s

/-! ### The trip (R262) -/

/-- A press or release in progress is void (R270); STUCK stays. A low registered now starts nothing until a high has registered,
since a press starts at a low edge only. -/
def State.voidPair (s : State) : State :=
  if s.rd F.HDG_STATUS_RST_PHASE = 3 then s else s.wr F.HDG_STATUS_RST_PHASE 0

/-- Records cause `c`. -/
def State.addCause (s : State) (c : Nat) : State :=
  s.wr F.HDG_TRIP_CAUSE_CAUSE (withBit (s.rd F.HDG_TRIP_CAUSE_CAUSE) c true)

/-- The trip at the emitter (R219, R42). -/
def State.emiTrip (s : State) : State :=
  ((s.dropPend F.EMI_STATUS_PENDING_ENABLE F.SYS_PEND_STATUS_EMI).wr F.EMI_CTRL_EN 0).emiSettle

/-- A relay that cannot go on ends with an ABORT downstream (R427, R428). -/
def State.hdlRelayCut (s : State) : State :=
  match s.boot.tx with
  | some x =>
    if x.relay then
      { s.wr F.BOOT_HDL_STATUS_TX_BUSY 0 with
        boot := { s.boot with tx := none, hdlDn := s.boot.hdlDn ++ [⟨6, x.hops, x.next, 0, x.total, []⟩] } }
    else s
  | none => s

/-- The transfer that this unit receives is broken off, and its relay with it (R428); the result code shown is not stated. -/
def State.hdlRxAbort (s : State) : State :=
  let (v, s) := s.drawFree 8
  let s := (s.wr F.BOOT_HDL_STATUS_RX_BUSY 0).wr F.BOOT_HDL_STATUS_RESULT v
  ({ s with boot := { s.boot with rx := none } }.raise 506).hdlRelayCut

/-- A transfer being received ends here, or a relay that outlived it. -/
def State.hdlRxCut (s : State) : State := if s.boot.rx.isSome then s.hdlRxAbort else s.hdlRelayCut

/-- A download in RECOVERY is discarded, a slot write among it stops (R34, R422). -/
def State.dropDownload (s : State) : State :=
  let s := ((s.wr F.BOOT_STATUS_SESSION 0).wr F.BOOT_STATUS_SLOT_WRITE 0).hdlRxCut
  let wrote := s.boot.writing.isSome
  let s := { s with boot := { s.boot with sessLen := 0, sessGot := 0, checked := 0, writing := none } }
  match s.sys.cmd with
  | some c => if wrote ∧ c.group = 4 then s.answer 6 0x06 else s
  | none => s

/-- The trip at the mode machine (Table AR-8): SAFE-STOP from any mode but RESET; a recovery download is discarded (R34). -/
def State.modeTrip (s : State) : State :=
  if s.mode = mRESET ∨ s.mode = mSAFESTOP then s
  else ((if s.mode = mRECOVERY then s.dropDownload else s).stopSuperseded 0x06).goMode mSAFESTOP 0x06

/-- A trip with cause `c` (R262): latch, cause and LI_N first; then emitter, helm, fabric and mode machine; then the count and the
event. With the latch set, a further cause adds its bit. -/
def State.trip (s : State) (c : Nat) : State :=
  if s.latched then
    (if (s.rd F.HDG_TRIP_CAUSE_CAUSE).testBit c then s else (s.addCause c).voidPair.raise 432).hedgeShow
  else
    let s := ((s.wr F.HDG_STATUS_LATCH 1).wr F.HDG_TRIP_CAUSE_FIRST c).addCause c
    let s := (s.setGst gTRIPPED).hd fun h => { h with tripMag := none, fell := false, good := 0 }
    let s := s.voidPair.emiTrip.helmTrip.abandon.modeTrip
    ((s.bump F.HDG_CNT_TRIP_COUNT 1).raise 432).hedgeShow

/-- A cause detected at an instant is present for one speed frame, and trips (R261). `frames` is 1 at a frame end, 2 within a
frame. -/
def State.tripTimed (s : State) (c frames : Nat) : State :=
  (s.hd fun h => { h with timed := Tab.set (fun _ => 0) h.timed c frames }).trip c

/-! ### Encoder and speed frame (R255, R256, R261) -/

/-- One decoded transition of the hedge's encoder (R255, R256): `k` 0 illegal, 1 forward, 2 backward. -/
def State.hedgeCount (s : State) (k : Nat) : State :=
  if k = 0 then
    let s := (s.bump F.HDG_CNT_ENC_ERR_COUNT 1).hd fun h => { h with illegal := h.illegal + 1 }
    if s.hdg.illegal = 4 then s.tripTimed 7 2 else s
  else if (k == 2) == s.on F.HDG_LIM_MISC_DIR then
    s.hd fun h => { h with frame := h.frame + 1, dirCount := h.dirCount - 1 }
  else
    let s := s.hd fun h => { h with frame := h.frame - 1, dirCount := h.dirCount + 1, spoiled := true }
    if s.armed && decide (s.rd F.HDG_LIM_MISC_DIR_LIMIT ≤ s.hdg.dirCount) then s.trip 2 else s

/-- HEDGE_ENCODER_COUNT (R255, R256): HDG_ENC_A and HDG_ENC_B take the levels `a` and `b`. -/
def execHedgeEncoderCount (a b : Bool) (s : State) : Host.Outcome State Fault Refusal :=
  .next <| match quad s.hdg.encA s.hdg.encB a b with
    | none => s
    | some k => (s.hd fun h => { h with encA := a, encB := b }).hedgeCount k

/-- The oscillator cross-check at a frame end (R25, R26, R261): `err` is the deviation in 0.01 %. -/
def State.rcCheck (s : State) (err : Int) : State :=
  let s := s.wrS F.HDG_MEAS_RC_ERR err
  if s.sys.relock then s
  else if s.hdg.suspended ≠ 0 then s.hd fun h => { h with suspended := h.suspended - 1 }
  else
    let bad := decide (500 < err.natAbs)
    let drift := decide (300 < err.natAbs)
    let s := s.raiseIf (drift && !s.hdg.rcDrift) 439
    let s := (s.put F.SYS_CLK_STATUS_HDG_XCHK_OK (!bad)).hd fun h => { h with rcDrift := drift, rcBad := if bad then h.rcBad + 1 else 0 }
    if 2 ≤ s.hdg.rcBad then s.trip 9 else s

/-- The encoder cross-check at a frame end, in every state (R261): hedge count against the helm's count of the frame (Table HG-3),
which stands still in RESET. -/
def State.encCheck (s : State) (count : Int) : State :=
  let d := s.hlm.travel - s.hdg.helmLast
  let d := if s.on F.HDG_LIM_MISC_DIR then -d else d
  let bad := decide (2 + count.natAbs / 64 < (count - d).natAbs)
  let s := s.hd fun h => { h with helmLast := s.hlm.travel, encBad := if bad then h.encBad + 1 else 0 }
  if 3 ≤ s.hdg.encBad then s.tripTimed 7 1 else s

/-- The safely limited speed at a frame end (R254). -/
def State.speedCheck (s : State) (count : Int) : State :=
  let s := s.hd fun h => { h with speedOut := if s.speedInside then 0 else h.speedOut + 1 }
  if s.armed ∧ 2 ≤ s.hdg.speedOut then s.trip (if (s.speedMax : Int) < count then 0 else 1) else s

/-- The release conditions of a frame (R252). -/
def State.releaseFrame (s : State) : State :=
  let ok := s.speedInside && s.hdg.dirCount == 0 && !s.hdg.spoiled && s.fovInside (s.rd F.HDG_MEAS_TILT_CODE) && s.presentMask == 0
  s.hd fun h => { h with spoiled := false, good := if s.gst = gARMING ∧ ok then min (h.good + 1) 50 else 0 }

/-- Standstill, quiet and braking at a frame end (R263, R269): a frame counts as quiet when no diagnostic cause was present in it. -/
def State.frameHistory (s : State) (count : Int) : State :=
  let now := s.presentMask != 0
  s.hd fun h => { h with
    unquiet := now
    still := if count.natAbs ≤ 1 then min (h.still + 1) 100 else 0
    quiet := if now || h.unquiet then 0 else min (h.quiet + 1) 100
    fell := match h.tripMag with | some m => h.fell || decide (10 * count.natAbs < 9 * m) | none => h.fell
    tripMag := match h.tripMag with | some m => some m | none => if s.latched then some count.natAbs else none }

/-- SPEED_FRAME_END (R255): a 1 ms frame completes; `err` is the oscillator's deviation in 0.01 %. -/
def execSpeedFrameEnd (err : Int) (s : State) : Host.Outcome State Fault Refusal :=
  .next <|
    let count := clip (-32768) 32767 s.hdg.frame
    let s := (s.wrS F.HDG_MEAS_SPEED_COUNT count).hd fun h => { h with
      frame := 0, illegal := 0, timed := Tab.mapVal (fun _ => 0) (fun n => n - 1) h.timed }
    (((((s.rcCheck err).encCheck count).speedCheck count).releaseFrame).frameHistory count).hedgeShow

/-! ### Release (R252) -/

/-- HEDGE_RELEASE (R252): the conditions have held for 50 frames and still hold. -/
def execHedgeRelease (s : State) : Host.Outcome State Fault Refusal :=
  .next (if s.gst = gARMING ∧ s.hdg.good = 50 ∧ s.hdg.dirCount = 0 ∧ !s.hdg.spoiled ∧ s.presentMask = 0 then
      ((s.setGst gRELEASED).hd fun h => { h with speedOut := 0, posOut := 0 }).raise 433 |>.emiSettle
    else s)

/-- The release request is present and the inhibit request absent (R250); TEST_EN holds the hedge in IDLE (R459). -/
def State.hedgeReq (s : State) : Bool :=
  let m := s.mode
  (m == mSPINUP || m == mSCAN || m == mDERATED || m == mCALIBRATE) && !(s.on F.SYS_MODE_STOPPING && !s.running) && !s.sys.testEn

/-- HEDGE_REQUEST_CHANGE (R252): the requests reach the hedge. -/
def execHedgeRequestChange (s : State) : Host.Outcome State Fault Refusal :=
  .next <|
    let r := s.hedgeReq
    let s := s.put F.HDG_STATUS_REQ r
    if r && s.gst == gIDLE && !s.latched then
      (s.setGst gARMING).hd fun h => { h with dirCount := 0, good := 0, spoiled := false }
    else if !r && (s.gst == gARMING || s.armed) then
      ((s.setGst gIDLE).hd fun h => { h with good := 0 }).emiSettle
    else s

/-! ### Tilt (R254, R257) -/

/-- HEDGE_TILT_CONVERSION (R254, R257): the hedge's converter reads `code`. -/
def execHedgeTiltConversion (code : Fin 1024) (s : State) : Host.Outcome State Fault Refusal :=
  .next <|
    let s := s.wr F.HDG_MEAS_TILT_CODE code
    let out := !s.fovInside code
    let s := s.hd fun h => { h with posOut := if s.posInside code then 0 else h.posOut + 1, spoiled := h.spoiled || out }
    if s.armed ∧ 2 ≤ s.hdg.posOut then s.trip 3
    else if s.gst = gRELEASED ∧ out then
      (((s.setGst gBLANKED).hd fun h => { h with fovIn := 0 }).bump F.HDG_CNT_BLANK_COUNT 1).raise 434 |>.emiSettle
    else if s.gst = gBLANKED then
      let s := s.hd fun h => { h with fovIn := if out then 0 else h.fovIn + 1 }
      if 2 ≤ s.hdg.fovIn then (s.setGst gRELEASED).emiSettle else s
    else s

/-- FOV_DWELL_EXPIRY (R257). -/
def execFovDwellExpiry (s : State) : Host.Outcome State Fault Refusal :=
  .next (if s.gst = gBLANKED then s.trip 4 else s)

/-! ### Energy and fire audit (R258 to R260) -/

/-- E(p) of R258 for p = 0 to 31. -/
def energy0 : List Nat := [3, 3, 3, 3, 3, 3, 3, 3, 3, 3, 4, 4, 4, 4, 4, 4, 4, 4, 4, 5, 5, 5, 5, 5, 5, 5, 6, 6, 6, 6, 6, 6]

/-- E(p) of R258 for p = 32 to 63. -/
def energy1 : List Nat := [7, 7, 7, 7, 7, 8, 8, 8, 8, 9, 9, 9, 9, 10, 10, 10, 11, 11, 11, 12, 12, 12, 13, 13, 13, 14, 14, 15, 15, 15, 16, 16]

/-- E(p) of R258 for p = 64 to 95. -/
def energy2 : List Nat := [17, 17, 18, 18, 19, 19, 20, 21, 21, 22, 22, 23, 24, 24, 25, 26, 27, 27, 28, 29, 30, 31, 32, 33, 33, 34, 35, 37, 38, 39, 40, 41]

/-- E(p) of R258 for p = 96 to 127. -/
def energy3 : List Nat := [42, 43, 45, 46, 47, 49, 50, 52, 53, 55, 56, 58, 60, 61, 63, 65, 67, 69, 71, 73, 75, 77, 79, 82, 84, 87, 89, 92, 94, 97, 100, 103]

/-- E(p) of R258 for p = 128 to 159. -/
def energy4 : List Nat := [106, 109, 112, 115, 119, 122, 126, 130, 133, 137, 141, 145, 150, 154, 158, 163, 168, 173, 178, 183, 188, 194, 199, 205, 211, 217, 224, 230, 237, 244, 251, 258]

/-- E(p) of R258 for p = 160 to 191. -/
def energy5 : List Nat := [266, 274, 282, 290, 298, 307, 316, 325, 335, 345, 355, 365, 376, 387, 398, 410, 422, 434, 447, 460, 473, 487, 501, 516, 531, 546, 562, 579, 595, 613, 631, 649]

/-- E(p) of R258 for p = 192 to 223. -/
def energy6 : List Nat := [668, 688, 708, 728, 750, 772, 794, 817, 841, 866, 891, 917, 944, 971, 1000, 1029, 1059, 1090, 1122, 1154, 1188, 1223, 1259, 1295, 1333, 1372, 1412, 1453, 1496, 1539, 1584, 1631]

/-- E(p) of R258 for p = 224 to 255. -/
def energy7 : List Nat := [1678, 1727, 1778, 1830, 1883, 1938, 1995, 2053, 2113, 2175, 2238, 2303, 2371, 2440, 2511, 2584, 2660, 2738, 2817, 2900, 2984, 3072, 3161, 3254, 3349, 3446, 3547, 3651, 3757, 3867, 3980, 4096]
/-- E(p) of R258. -/
def energyOf (p : Nat) : Nat :=
  (energy0 ++ energy1 ++ energy2 ++ energy3 ++ energy4 ++ energy5 ++ energy6 ++ energy7).getD p 0

/-- The booking reaches zone `z` (R16). -/
def Book.covers (b : Book) (z : Nat) : Bool := b.cols.testBit (z / 18) && b.rows.testBit (z % 18)

/-- The window sum of zone `z` (R258). -/
def State.zoneSum (s : State) (z : Nat) : Nat :=
  (s.hdg.books.filter fun b => b.covers z).foldl (fun n b => n + b.energy) 0

/-- The highest window sum of any zone (HDG_ENERGY_MAX). -/
def State.zoneMax (s : State) : Nat := (List.range 288).foldl (fun m z => max m (s.zoneSum z)) 0

/-- POWER_CODE_ENTRY (R258, R260): the next entry of the queue books its energy and sets the pulse allowance. -/
def execPowerCodeEntry (s : State) : Host.Outcome State Fault Refusal :=
  .next <| match s.hdg.queue with
    | .shot id rows cols power pulses :: q =>
      let e := energyOf power * pulses
      let s := s.hd fun h => { h with
        queue := q, lastId := id, allowance := pulses, edges := 0
        books := if rows = 0 ∨ cols = 0 ∨ e = 0 then h.books
          else h.books ++ [{ id := id, rows := rows, cols := cols, energy := e }] }
      let top := s.zoneMax
      let s := if s.rd F.HDG_ENERGY_MAX_SUM < top then s.wr F.HDG_ENERGY_MAX_SUM (min top 0xFFFFFFFF) else s
      let beyond := (List.range 288).any fun z =>
        cols.testBit (z / 18) && rows.testBit (z % 18) && decide (s.budget < s.zoneSum z)
      if s.armed && beyond then s.trip 5 else s.hedgeShow
    | _ => s

/-- CORRECTION_ENTRY (R259, R260): the booking of the corrected entry is reversed and its allowance is 0. -/
def execCorrectionEntry (s : State) : Host.Outcome State Fault Refusal :=
  .next <| match s.hdg.queue with
    | .correction id :: q =>
      (s.hd fun h => { h with queue := q, books := h.books.filter fun b => b.id != id
                              allowance := if h.lastId = id then 0 else h.allowance }).hedgeShow
    | _ => s

/-- ENERGY_BUCKET_ROLL (R258): the oldest bucket drops out of the window. -/
def execEnergyBucketRoll (s : State) : Host.Outcome State Fault Refusal :=
  .next ((s.hd fun h => { h with
    books := (h.books.map fun b => { b with age := b.age + 1 }).filter fun b => decide (b.age ≤ 100) }).hedgeShow)

/-- The sequencer posts an entry; a ninth one overflows the queue (Table AR-4). -/
def State.postPower (s : State) (e : PowerEntry) : State :=
  if s.hdg.queue.length < 8 then s.hd fun h => { h with queue := h.queue ++ [e] } else s.tripTimed 10 2

/-- The audit of one EM_FIRE edge (R260); `late`: LI_N has been low for more than 200 ns. -/
def State.fireAudit (s : State) (late : Bool) : State :=
  let s := s.hd fun h => { h with edges := h.edges + 1 }
  if s.hdg.allowance < s.hdg.edges ∨ (late && !s.on F.HDG_STATUS_LI_LEVEL) then s.tripTimed 6 2 else s

/-! ### Other causes -/

/-- LI_READBACK (R251): drive and pad have disagreed for 2 µs, the pad reading `level`; an equal level ends a disagreement. -/
def execLiReadback (level : Bool) (s : State) : Host.Outcome State Fault Refusal :=
  .next <|
    let bad := level != (s.gst == gRELEASED && !s.jtagHold)
    let s := (s.put F.HDG_STATUS_LI_LEVEL level).hd fun h => { h with liBad := bad }
    if bad then s.trip 14 else s.hedgeShow

/-- HEDGE_CHANNEL_MISMATCH (R248). -/
def execHedgeChannelMismatch (s : State) : Host.Outcome State Fault Refusal := .next (s.tripTimed 13 2)

/-- PWM_GATE (R263): HLM_PWM[7:0] are released at their pads, and stay so until the latch clears. -/
def execPwmGate (s : State) : Host.Outcome State Fault Refusal :=
  .next (if s.latched && s.hdg.tripMag.isSome && !s.hdg.fell then
      (s.wr F.HDG_STATUS_PWM_GATE 1).hl fun h => { h with pins := List.replicate 8 0 } else s)

/-- STRAP_REREAD (R265): the pins read `straps`, those of `floats` following both pulls. -/
def execStrapReread (straps floats : Fin 64) (s : State) : Host.Outcome State Fault Refusal :=
  .next <|
    let bad := floats.val != 0 || straps.val != s.rd F.HDG_STRAPS_SEAL
    let s := (s.wr F.HDG_STRAPS_FLOAT floats).hd fun h => { h with strapBad := bad }
    if bad then s.trip 11 else s.hedgeShow

/-- The selected rows pass their checks (R266). -/
def Hdg.rowsOk (h : Hdg) : Bool :=
  match h.speedRow, h.tiltRow, h.commonRow with
  | some a, some b, some c => rowOk 8 a && rowOk 6 b && rowOk 1 c && b / 2 ^ 40 % 256 != 0 && c % 256 != 0
  | _, _, _ => false

/-- The limit fields show the selected rows; with LIMIT_INVALID they read 0 (Table HG-6). -/
def State.showLimits (s : State) : State :=
  let f (r : Option Nat) : Nat := if s.hdg.limitBad then 0 else r.getD 0
  let a := f s.hdg.speedRow
  let b := f s.hdg.tiltRow
  let c := f s.hdg.commonRow
  let s := ((s.wr F.HDG_LIM_SPEED_MIN a).wr F.HDG_LIM_SPEED_MAX (a / 2 ^ 16)).wr F.HDG_LIM_BUDGET_BUDGET (a / 2 ^ 32)
  let s := ((s.wr F.HDG_LIM_POS_MIN b).wr F.HDG_LIM_POS_MAX (b / 2 ^ 10)).wr F.HDG_LIM_FOV_MIN (b / 2 ^ 20)
  ((s.wr F.HDG_LIM_FOV_MAX (b / 2 ^ 30)).wr F.HDG_LIM_MISC_FOV_DWELL (b / 2 ^ 40)).wr F.HDG_LIM_MISC_DIR_LIMIT c

/-- LIMIT_RECHECK (R266): the rows in the hedge's shadow are checked again; `upset` where the shadow copy has been corrupted. -/
def execLimitRecheck (upset : Bool) (s : State) : Host.Outcome State Fault Refusal :=
  .next <|
    if upset || !s.hdg.rowsOk then ((s.hd fun h => { h with limitBad := true }).showLimits).trip 12 else s

/-- SEAL_LOCK (R268): a write of 1 to HDG_CTRL.LOCK. -/
def execSealLock (s : State) : Host.Outcome State Fault Refusal := .next (s.access false State.sealLock)

/-! ### The reset button (R270) -/

/-- SAFE_RST_LOW_REGISTERED (R270) at instant `t` (ps). -/
def execSafeRstLowRegistered (t : Nat) (s : State) : Host.Outcome State Fault Refusal :=
  .next <|
    if !s.hdg.button then s
    else
      let s := s.hd fun h => { h with button := false }
      let p := s.rd F.HDG_STATUS_RST_PHASE
      if s.latched && (p == 0 || p == 2) then (s.wr F.HDG_STATUS_RST_PHASE 1).hd fun h => { h with edgeAt := t } else s

/-- SAFE_RST_HIGH_REGISTERED (R270) at instant `t` (ps): a press of 20 ms to 4 s starts the release. -/
def execSafeRstHighRegistered (t : Nat) (s : State) : Host.Outcome State Fault Refusal :=
  .next <|
    if s.hdg.button then s
    else
      let d := t - s.hdg.edgeAt
      let s := s.hd fun h => { h with button := true }
      match s.rd F.HDG_STATUS_RST_PHASE with
      | 1 => if 20000000000 ≤ d ∧ d ≤ 4000000000000 then (s.wr F.HDG_STATUS_RST_PHASE 2).hd fun h => { h with edgeAt := t }
        else s.wr F.HDG_STATUS_RST_PHASE 0
      | 3 => s.wr F.HDG_STATUS_RST_PHASE 0
      | _ => s

/-- SAFE_RST_STUCK (R270). -/
def execSafeRstStuck (s : State) : Host.Outcome State Fault Refusal :=
  .next (if s.rd F.HDG_STATUS_RST_PHASE = 1 then (s.wr F.HDG_STATUS_RST_PHASE 3).raise 435 else s)

end Sys2Proof.Machine
end

