-- ==== Sys2Proof/Machine/FabricRows.lean ====
section
/-! DEFINITION. The commands of the point cycle: slots, event words, finders, tiller writes and bank swaps (chapter 03), with what the
emitter sequencer does at each slot (chapter 07). -/

namespace Sys2Proof.Machine

/-! ### The sequencer's part of a slot (R198 to R206, R212) -/

/-- One step of the signature LFSR (R198). -/
def lfsrStep (x : Nat) : Nat :=
  let fb := (x.testBit 15 != x.testBit 13) != (x.testBit 12 != x.testBit 10)
  (2 * x + fb.toNat) % 2 ^ 16

/-- Eight steps of the signature LFSR. -/
def lfsr8 (x : Nat) : Nat := Nat.iterate lfsrStep 8 x

/-- The dither drawn from LFSR value `x` at depth code `depth` (R198). -/
def ditherOf (x depth : Nat) : Nat := x % 256 * min (depth + 1) 256 / 256

/-- Pulses of pulse code `i` in force. -/
def State.pulsesOf (s : State) (i : Nat) : Nat := Word.field (Tab.get (fun _ => 0) s.emi.pcode i) 16 15 + 1

/-- Spacings between the pulses of pulse code `i` in force, in 1.25 ns (R205). -/
def State.gapsOf (s : State) (i : Nat) : List Nat :=
  let x := Tab.get (fun _ => 0) s.emi.pcode i
  [Word.field x 4 0, Word.field x 9 5, Word.field x 14 10].take (s.pulsesOf i - 1)

/-- Rise and end of each pulse of a train whose first rises at instant `t`, at width code `w` (R204, R205): a pulse whose successor
comes no later than its width ends 1.25 ns before it. -/
def trainOf (t w : Nat) : List Nat → List (Nat × Nat)
  | [] => [(t, t + 1250 * (w + 1))]
  | g :: r => (t, if g ≤ w + 1 then t + 1250 * g - 1250 else t + 1250 * (w + 1)) :: trainOf (t + 1250 * g) w r

/-- A clamped slot is counted; the first of a point cycle is raised (R206). -/
def State.clampCount (s : State) (code : Nat) : State :=
  if Word.field s.emi.pwrCfg 7 0 < code then
    let s := (s.bump F.EMI_CNT_CLAMP_COUNT 1).raiseIf (!s.emi.clampRaised) 396
    s.em fun e => { e with clampRaised := true }
  else s

/-- The sequencer prepares slot (kind, index): dither, effective masks, lines, the entry to the hedge (R198, R199, R212). -/
def State.prepare (s : State) (kind : SlotKind) (index : Nat) : State :=
  let s := s.em fun e => { e with lfsr := lfsr8 e.lfsr }
  let x := s.seedEntry (s.rd F.EMI_STATUS_ACTIVE_BUF) s.emi.ptr
  let depth := (s.slotPeriod - 2560000) / 1250 - 1
  let d := if bits x 14 14 = 1 then 0 else ditherOf s.emi.lfsr depth
  let rows := bits x 63 46 &&& ((2 ^ 18 - 1) ^^^ s.emi.shortRows)
  let cols := bits x 45 30 &&& ((2 ^ 16 - 1) ^^^ s.emi.shortCols)
  let fires := s.emiState == eFIRING && rows != 0 && cols != 0
  let s := s.clampCount (bits x 29 22)
  let rect : Rect := if fires then { rows := rows, cols := cols } else {}
  let power := s.effCode (bits x 29 22)
  let pulses := if fires then s.pulsesOf (bits x 21 19) else 0
  let gaps := if fires then s.gapsOf (bits x 21 19) else []
  let id := s.hdg.nextId
  let s := (s.hd fun h => { h with nextId := id + 1 }).postPower (.shot id rect.rows rect.cols power pulses)
  s.em fun e => { e with
    prep := some { kind := kind, index := index, rect := rect, d := d, power := power, pulses := pulses, gaps := gaps, id := id }
    shot := { pulses := pulses, id := id }, rowsOut := rect.rows, colsOut := rect.cols }

/-- SLOT_PREPARE (R212): before a plough or harrow slot opens. -/
def execSlotPrepare (s : State) : Host.Outcome State Fault Refusal :=
  .next <|
    if !s.running || s.mainStopped || s.emi.prep.isSome then s
    else match s.nextSlot with
      | some (.plough, i) => s.prepare .plough i
      | some (.harrow, j) => s.prepare .harrow j
      | _ => s

/-- CHARGE_CHECK (R208): the conversion at t_f − 40 ns reads `fb`. A suppressed shot empties the slot's masks, and a correction
entry goes to the hedge (R212). -/
def execChargeCheck (fb : Fin 4096) (s : State) : Host.Outcome State Fault Refusal :=
  .next <|
    if s.emiState ≠ eFIRING ∨ s.emi.shot.pulses = 0 ∨ s.emi.shot.fired ≠ 0 then s
    else
      let s := s.wr F.EMI_CHG_STATUS_FB_MEAS fb
      let dac := s.rd F.EMI_CHG_STATUS_DAC_CODE
      if dac + 4 * s.rd F.EMI_CHG_CFG_TOL_HI < fb.val then
        let s := ((s.bump F.EMI_CNT_SUPPRESS_COUNT 1).count 4 4 0 1).raiseIf (!s.emi.highRaised) 385
        let s := if s.emi.prep.isSome then s.em fun e => { e with prep := e.prep.map fun p => { p with rect := {}, pulses := 0 } }
          else s.hs fun h => { h with cur := h.cur.map fun x => { x with rect := {} } }
        let s := s.em fun e => { e with highRaised := true, rowsOut := 0, colsOut := 0
                                        shot := { e.shot with pulses := 0, suppressed := true } }
        s.postPower (.correction s.emi.shot.id)
      else if fb.val + 4 * s.rd F.EMI_CHG_CFG_TOL_LO < dac then
        ((s.bump F.EMI_CNT_UNDER_COUNT 1).raiseIf (!s.emi.lowRaised) 386).em fun e => { e with lowRaised := true }
      else s

/-- An edge at instant `t` is the next of the slot's train (R204): within half a coarse clock period of its instant, for the jitter
(DESIGN CHOICE, log entry 189). -/
def Shot.due (k : Shot) (t : Nat) : Bool :=
  match k.train[k.fired]? with
  | some (r, _) => decide (k.fired < k.pulses) && decide (r ≤ t + 312) && decide (t ≤ r + 312)
  | none => false

/-- EM_FIRE_EDGE (R204, R210, R260): a rising edge at the EM_FIRE pad at instant `t` (ps, the constant delay to the pad taken off). An
edge of the slot's train counts and opens a monitor window; every edge is audited by the hedge. `late`: LI_N has been low for
more than 200 ns. -/
def execEmFireEdge (t : Nat) (late : Bool) (s : State) : Host.Outcome State Fault Refusal :=
  .next <|
    let k := s.emi.shot
    let s :=
      if s.emiState = eFIRING ∧ k.due t then
        let s := (s.count 4 3 0 1)
        let s := if k.fired = 0 then (s.bump F.EMI_CNT_SHOTS_COUNT 1).count 4 2 0 1 else s
        let w := if s.on F.EMI_MON_CFG_MON_EN then [(t, k.fired == 0, false)] else []
        s.em fun e => { e with shot := { e.shot with fired := k.fired + 1 }, windows := e.windows ++ w }
      else s
    s.fireAudit late

/-! ### Slots -/

/-- The fixed windows in force (R91). A fixed window whose EN is 0 shows an all-zero window word: what START it shows is not stated
(DESIGN CHOICE, log entry 182). -/
def State.fixWin (s : State) (w : Nat) : Win :=
  let x := if w = 0 then s.his.fixwin0 else if w = 1 then s.his.fixwin1 else s.his.fixwin2
  if Word.field x 16 16 = 1 then { start := Word.field x 15 0, en := true, src := 3 } else {}

/-- The windows and candidates of the live page go into the lanes of the bank before harrow slot 0 (R89 to R91). -/
def State.takeWindows (s : State) : State :=
  s.mapLanes s.his.active fun c l =>
    let v := s.liveLane c
    { l with cands := v.cands, win0 := v.win0, win1 := v.win1, win2 := v.win2 }

/-- The header words that the windows and candidates go into hold fresh check bits (R95). -/
def State.freshWindows (s : State) : State :=
  let k := s.bank s.his.active
  s.setBank s.his.active { k with hcond := k.hcond.filter fun e => decide (18432 ≤ e.1) || decide (e.1 % 16 < 6) }

/-- The trigger sources of a slot that opens (capture chapter). -/
def State.slotTrigger (s : State) (x : Slot) (t : Nat) : State :=
  if x.number s.pcP = s.rd F.MER_CAP_TRIG_SLOT then s.capEvent 3 t else s

/-- Slot `x` opens: it is the slot in progress, with the next sequence number (R67). -/
def State.enterSlot (s : State) (x : Slot) : State :=
  let q := s.tdc.slotSeq
  let s := { s with tdc := { s.tdc with slotSeq := q + 1 } }
  let s := s.hs fun h => { h with cur := some { x with seq := q, bank := h.active, epochAt := x.openAt + 625 * s.tdc.epochOfs } }
  (s.count 4 5 0 1).invalidMarkers.slotTrigger x x.openAt

/-- SHOT_SLOT_OPEN (R18, R202) at instant `t` (ps): the prepared plough or harrow slot opens. -/
def execShotSlotOpen (t : Nat) (s : State) : Host.Outcome State Fault Refusal :=
  .next <| match s.emi.prep with
    | none => s
    | some p =>
      if !s.running || s.mainStopped then s
      else
        let s := s.closeSlot t
        let s := if p.kind = .plough ∧ p.index = 0 then s.hs fun h => { h with plough := [], ploughCond := [] } else s
        let s := if p.kind = .harrow ∧ p.index = 0 then s.takeWindows.freshWindows else s
        let k := s.bank s.his.active
        let s := if p.kind = .plough then s.setBank s.his.active { k with dmax := max k.dmax p.d } else s
        let x := s.seedEntry (s.rd F.EMI_STATUS_ACTIVE_BUF) s.emi.ptr
        let s := s.wr F.EMI_STATUS_PTR s.emi.ptr
        let (ptr, rep) := if s.on F.EMI_CTRL_EN then nextPtr x s.emi.ptr s.emi.rep else (s.emi.ptr, s.emi.rep)
        let rise := t + 625 * Word.field s.emi.fireCfg 5 0 + 1250 * p.d
        let train := if p.pulses = 0 then [] else trainOf rise (Word.field s.emi.fireCfg 10 8) p.gaps
        let s := s.em fun e => { e with prep := none, ptr := ptr, rep := rep, shot := { e.shot with train := train } }
        s.enterSlot { kind := p.kind, index := p.index, rect := p.rect, d := p.d, openAt := t, closeAt := t + s.slotPeriod }

/-- The live page clears, but for windows a tiller write was accepted for; fixed windows show as such (Table HF-4, R91). FALLOW_PREV
changes here to the count that this point cycle's threshold uses: the instant is not stated (DESIGN CHOICE, log entry 182). -/
def State.clearLive (s : State) : State :=
  let keep (c w : Nat) (x : Win) : Win :=
    if s.fixwin then s.fixWin w else if s.his.overridden.contains (3 * c + w) then x else {}
  s.hs fun h => { h with
    lanesDone := [], fallowOpen := true, unseen := [], liveCond := []
    live := tabOf (fun _ => {}) 1152 fun c =>
      let v := s.liveLane c
      { cands := [], win0 := keep c 0 v.win0, win1 := keep c 1 v.win1, win2 := keep c 2 v.win2
        fallowPrev := Tab.get (fun _ => 0) h.fallowPrev c } }

/-- Candidate messages of earlier point cycles are removed and counted (R116). -/
def State.dropStale (s : State) : State :=
  s.forN 192 fun n s =>
    let k := ((s.tiller n).candQ.filter isCandidate).length
    if k = 0 then s
    else (s.bump (F.TIL_CNT_CAND_STALE_COUNT n) k).onTiller n fun t => { t with candQ := t.candQ.filter fun m => !isCandidate m }

/-- FALLOW_SLOT_OPEN (R20, R83, R228) at instant `t` (ps). -/
def execFallowSlotOpen (t : Nat) (s : State) : Host.Outcome State Fault Refusal :=
  .next <|
    if !s.running || s.mainStopped || s.nextSlot != some (.fallow, 0) then s
    else
      let s := ((s.helmNow t).closeSlot t).clearLive.dropStale
      let k := s.bank s.his.active
      let s := s.setBank s.his.active { k with
        fallowTs := s.pbTime t, tilt := s.rd F.HLM_MEAS_TILT_POS, azimuth := s.thetaAt t / 2 ^ 16 }
      let s := s.hs fun h => { h with deadlineAt := t + s.slotPeriod - 200000 }
      let s := { s.em fun e => { e with rowsOut := 0, colsOut := 0 } with mer := { s.mer with stepped := false } }
      s.capFallow.enterSlot { kind := .fallow, index := 0, openAt := t, closeAt := t + s.slotPeriod }

/-! ### Event words (R79 to R84, R92) -/

/-- A count of a protected SRAM word: a single-bit error is corrected, an uncorrectable word is poisoned and takes no more counts
(R95). -/
def State.increment (s : State) (b c : Nat) (cond : Cond) (setCond : Cond → State → State) (inc : State → State) : State :=
  match cond with
  | .ok => inc s
  | .ce => inc (setCond .ok s).hisCE
  | .ue => (setCond .poison s).hisUE b c
  | .poison => s

/-- The finder reads bin `k` of channel `c` in the fabric cycle of instant `t`, or has read it before (R85): bins 8j to 8j + 7 of lane l
in cycle 256 l + j after the fallow slot opens. -/
def State.finderPast (s : State) (c k t : Nat) : Bool :=
  match s.his.cur with
  | some x => x.kind == .fallow && decide (256 * (c % 6) + k / 8 ≤ (t - x.openAt) / 1250)
  | none => false

/-- Adds 1 to a plough bin (R81) at instant `t`; the finder does not see a count that comes with its read or later (R85). -/
def State.addPlough (s : State) (b c k t : Nat) : State :=
  let key := c * 2048 + k
  let z : Nat → Nat := fun _ => 0
  let past := if s.finderPast c k t then 1 else 0
  s.increment b c (Tab.get okCond s.his.ploughCond key)
    (fun x s => s.hs fun h => { h with ploughCond := Tab.set okCond h.ploughCond key x })
    fun s => (s.hs fun h => { h with plough := Tab.set z h.plough key (satAdd 12 (Tab.get z h.plough key) 1)
                                     unseen := Tab.set z h.unseen key (Tab.get z h.unseen key + past) }).count 2 2 (chFurrow c) 1

/-- A count in a tally of channel `c`, in word `i` of its lane header (R84, R95). -/
def State.tally (s : State) (b c i : Nat) (f : Lane → Lane) : State :=
  s.increment b c ((s.bank b).headCond (16 * c + i)) (fun x s => s.setHead b (16 * c + i) x) fun s => s.onLane b c f

/-- Adds 1 to a harrow bin (R92). -/
def State.addHarrow (s : State) (b c w i : Nat) : State :=
  let key := binKey c w i
  s.increment b c (Tab.get okCond (s.bank b).cond key)
    (fun x s => let k := s.bank b; s.setBank b { k with cond := Tab.set okCond k.cond key x })
    fun s =>
      let k := s.bank b
      (s.setBank b { k with bins := Tab.set (fun _ => 0) k.bins key (satAdd 16 (k.bin c w i) 1) }).count 2 3 (chFurrow c) 1

/-- The lowest-numbered enabled window that is exposed at dither `d` and contains code `c` (R92). -/
def Lane.hit (l : Lane) (d c : Nat) : Option Nat :=
  (List.range 3).find? fun w =>
    let x := l.win w
    x.en && decide (x.start + 64 + 32 * d ≤ 65536) && decide (x.start ≤ c) && decide (c < x.start + 64)

/-- An in-window code of channel `c` in slot `x`, at instant `t` (R80, R81, R83, R92). -/
def State.applyCode (s : State) (x : Slot) (c code t : Nat) : State :=
  if s.on (F.DET_CH_CFG_SILENT c) || s.isGated c then s
  else if x.kind = .fallow then
    (s.tally x.bank c 1 fun l => { l with fallowAmb := satAdd 16 l.fallowAmb 1 }).count 2 4 (chFurrow c) 1
  else if !s.litIn x.rect c then s.tally x.bank c 2 fun l => { l with unlitAmb := satAdd 24 l.unlitAmb 1 }
  else if code < 32 * x.d then s.tally x.bank c 5 fun l => { l with prefire := satAdd 16 l.prefire 1 }
  else
    let k := code - 32 * x.d
    if x.kind = .plough then s.addPlough x.bank c (k / 32) t
    else match ((s.bank x.bank).lane c).hit x.d k with
      | some w => s.addHarrow x.bank c w (k - (((s.bank x.bank).lane c).win w).start)
      | none => s.tally x.bank c 3 fun l => { l with harrowOut := satAdd 16 l.harrowOut 1 }

/-- The slot a word's tag names: the one in progress or the one before it (R79). -/
def State.slotOfTag (s : State) (tag : Nat) : Option Slot :=
  match s.his.cur with
  | some x => if x.seq % 4 = tag then some x else s.his.prev.filter fun y => y.seq % 4 = tag
  | none => s.his.prev.filter fun y => y.seq % 4 = tag

/-- The slot of a tag that names neither of those: one of the two before them (R79). -/
def State.olderOfTag (s : State) (tag : Nat) : Option Slot := s.his.older.find? fun y => y.seq % 4 == tag

/-- A word that came more than 60 ns after its slot `x` closed is discarded, and marked in the point cycle that holds the slot (R79). -/
def State.lateWord (s : State) (x : Option Slot) (c : Nat) : State :=
  let s := match x with
    | some y => s.flagLane y.bank c 9
    | none => s
  (s.bump F.HIS_LATE_WORD_CNT_COUNT 1).raise 131

/-- EVENT_WORD (R79): the next word of furrow `f`'s queue reaches the fabric at instant `t` (ps). The words of the last slot of a run are
applied too, for 60 ns (R93); those of an abandoned point cycle are discarded without a count (DESIGN CHOICE, log entry 183). -/
def execEventWord (f : Fin 192) (t : Nat) (s : State) : Host.Outcome State Fault Refusal :=
  .next <| match Tab.get (fun _ => []) s.tdc.queues f with
    | [] => s
    | w :: q =>
      if s.mainStopped then s
      else
        let s := { s with tdc := { s.tdc with queues := Tab.set (fun _ => []) s.tdc.queues f q } }
        let c := 6 * f.val + laneOf w
        let tag := Word.field w 26 25
        match s.slotOfTag tag with
        | none => if s.his.cur.isNone && s.his.prev.isNone then s else s.lateWord (s.olderOfTag tag) c
        | some x =>
          if x.closeAt + 60000 < t then s.lateWord (some x) c
          else match Word.field w 31 30 with
            | 0 => s.applyCode x c (Word.field w 15 0) t
            | 1 => s.tally x.bank c 4 fun l => { l with ovf := satAdd 16 l.ovf 1 }
            | 2 => s.tally x.bank c 4 fun l => { l with early := satAdd 16 l.early 1 }
            | _ => s.flagLane x.bank c 2

/-! ### Candidate finders (R85 to R89) -/

/-- A candidate found at kernel position `k` (R86). -/
structure Peak where
  k : Nat
  f : Nat
  deriving DecidableEq, Repr

/-- `peaks` ordered by f descending, then by k ascending; each comes in with a greater k than those before it. -/
def insertPeak (p : Peak) : List Peak → List Peak
  | [] => [p]
  | q :: r => if q.f < p.f then p :: q :: r else q :: insertPeak p r

/-- Peaks not within `minsep` of one kept before them (R86). -/
def suppress (minsep : Nat) : List Peak → List Peak → List Peak
  | kept, [] => kept
  | kept, p :: r =>
    if kept.any fun q => decide ((if p.k < q.k then q.k - p.k else p.k - q.k) ≤ minsep) then suppress minsep kept r
    else suppress minsep (kept ++ [p]) r

/-- Ascending order of k. -/
def insertK (p : Peak) : List Peak → List Peak
  | [] => [p]
  | q :: r => if p.k < q.k then p :: q :: r else q :: insertK p r

/-- How many positions next to a peak, in one direction, hold at least half of it. -/
def flank (f : Nat) : List Nat → Nat
  | [] => 0
  | v :: r => if f ≤ 2 * v then 1 + flank f r else 0

/-- The filtered values f[kmin .. kmax] over bins (R86). -/
def filtered (w : List Nat) (bin : Nat → Nat) (kmin kmax : Nat) : List Nat :=
  (List.range (kmax + 1 - kmin)).map fun i =>
    ((List.range w.length).map fun j => w.getD j 0 * bin (kmin + i + j)).sum

/-- The peaks above threshold `t` (R86); `left` is the value before, none at the start. -/
def peaksOf (t : Nat) : Option Nat → Nat → List Nat → List Peak
  | _, _, [] => []
  | left, k, v :: r =>
    let up := decide (t < v) && (match left with | none => true | some u => decide (u < v))
      && (match r with | [] => true | u :: _ => decide (u ≤ v))
    (if up then [⟨k, v⟩] else []) ++ peaksOf t (some v) (k + 1) r

/-- The candidates of a lane in order of CENTRE, and whether more than three peaks were kept (R86). -/
def findCands (w : List Nat) (cofs t kmin kmax minsep : Nat) (bin : Nat → Nat) : List Cand × Bool :=
  let f := filtered w bin kmin kmax
  let kept := suppress minsep [] ((peaksOf t none kmin f).foldl (fun l p => insertPeak p l) [])
  let top := (kept.take 3).foldl (fun l p => insertK p l) []
  (top.map fun p =>
    { centre := 32 * p.k + cofs, fval := min p.f 65535
      width := min (flank p.f (f.take (p.k - kmin)).reverse + flank p.f (f.drop (p.k + 1 - kmin)) + 1) 255
      edge := p.k == kmin || p.k == kmax, last := false }, decide (3 < kept.length))

/-- Plough bin `k` of channel `c` as its finder reads it: without the counts that came too late (R85), and 0 where it finds the word
uncorrectable or poisoned (R95). -/
def State.seenBin (s : State) (c k : Nat) : Nat :=
  if (Tab.get okCond s.his.ploughCond (c * 2048 + k)).bad then 0
  else s.ploughBin c k - Tab.get (fun _ => 0) s.his.unseen (c * 2048 + k)

/-- The finder's result for channel `c` (R86). -/
def State.finder (s : State) (c : Nat) : List Cand × Bool :=
  let k := s.bank s.his.active
  let len := Word.field s.his.kernelCfg 3 0
  let w := (List.range len).map fun j => Word.field s.his.kernelW (4 * j + 3) (4 * j)
  let pl := (k.lane c).litPlough
  let a16 := Tab.get (fun _ => 0) s.his.fallowPrev c * pl * w.sum / 2 ^ 7
  let t := min (Word.field s.his.thrCfg 27 16 * a16 / 2 ^ 8 + Word.field s.his.thrCfg 15 0) 65535
  let kmin := Word.field s.his.findCfg 15 8
  if s.on (F.DET_CH_CFG_SILENT c) || s.isGated c || pl == 0 || decide (2048 < k.dmax + len + kmin) then ([], false)
  else
    findCands w (Word.field s.his.kernelCfg 15 8) t kmin (2048 - k.dmax - len) (Word.field s.his.findCfg 3 0) (s.seenBin c)

/-- The finder's reads meet the errors of the lane's plough words: single-bit errors are corrected, fresh uncorrectable ones counted
(R95). -/
def State.finderErrors (s : State) (c : Nat) : State :=
  (Tab.range s.his.ploughCond (c * 2048) (c * 2048 + 2048)).foldl (fun s e =>
    match e.2 with
    | .ce => (s.hs fun h => { h with ploughCond := Tab.set (fun _ => .ok) h.ploughCond e.1 .ok }).hisCE
    | .ue => s.hisUE s.his.active c
    | _ => s) s

/-- Default window of a candidate (R89). -/
def Cand.window (x : Cand) : Win := { start := min (x.centre - 32) 65472, en := true, src := 1 }

/-- Publication of channel `c`, lane `l` of furrow `f` (R85, R87, R89). -/
def State.publish (s : State) (f l : Nat) : State :=
  let c := 6 * f + l
  let s := s.finderErrors c
  let (cands, more) := s.finder c
  let later := (List.range 6).any fun i => decide (l < i) && !(s.finder (6 * f + i)).1.isEmpty
  let cands := cands.zipIdx.map fun (x, i) => { x with last := !later && i + 1 == cands.length }
  let blank := ((List.range (Word.field s.his.findCfg 15 8)).map fun i => s.seenBin c i).sum
  let s := s.onLane s.his.active c fun x => { x with blankSum := min blank 65535, flags := if more then withBit x.flags 11 true else x.flags }
  let dflt (i : Nat) (old : Win) : Win :=
    if s.fixwin || s.his.overridden.contains (3 * c + i) then old
    else match cands[i]? with | some x => x.window | none => {}
  let v := s.liveLane c
  let v := { v with cands := cands, win0 := dflt 0 v.win0, win1 := dflt 1 v.win1, win2 := dflt 2 v.win2 }
  let s := s.hs fun h => { h with
    live := Tab.set (fun _ => {}) h.live c v, lanesDone := Tab.set (fun _ => 0) h.lanesDone f (l + 1)
    liveCond := Tab.clear (Tab.set okCond h.liveCond (112 * f) .ok) (112 * f + 16 + 16 * l) (112 * f + 32 + 16 * l) }
  let msgs := (List.range cands.length).map fun i => BitVec.ofNat 64 (candRecord cands l i)
  let s := s.count 2 5 f cands.length
  if msgs.isEmpty then s
  else s.onTiller f fun t => { t with
    candQ := t.candQ ++ msgs, candPc := s.rd F.HIS_STATUS_PC_INDEX, candRun := s.his.run, pendMsg := t.pendMsg || s.on (F.TIL_CFG_MSG_ATTN f) }

/-- LANE_PUBLICATION (R85): finder `f` publishes its next lane. -/
def execLanePublication (f : Fin 192) (s : State) : Host.Outcome State Fault Refusal :=
  .next <|
    let l := Tab.get (fun _ => 0) s.his.lanesDone f
    if s.running && s.his.fallowOpen && decide (l < 6) && !s.mainStopped then s.publish f l else s

/-- HARROW_DEADLINE (R20, R90). -/
def execHarrowDeadline (s : State) : Host.Outcome State Fault Refusal :=
  .next (if s.running && s.his.fallowOpen then s.hs fun h => { h with deadlinePassed := true } else s)

/-! ### Tiller writes (R90, R91, R50, R51, R117) -/

/-- An invalid fabric write word of tiller `n` is discarded (R117). -/
def State.rejectWrite (s : State) (n : Nat) : State := (s.bump (F.TIL_CNT_FWQ_REJ_COUNT n) 1).tilCause n 4

/-- A write for channel `c` came too late (R90). -/
def State.markLate (s : State) (c : Nat) : State :=
  let b := s.his.active
  let s := if ((s.bank b).lane c).flags.testBit 0 then s else (s.flagLane b c 0).bump F.HIS_LATE_CNT_COUNT 1
  let s := (s.wr F.HIS_LAST_LATE_CHANNEL c).count 2 6 (chFurrow c) 1
  (s.raiseIf (!s.his.lateRaised) 130).hs fun h => { h with lateRaised := true }

/-- The next word leaves tiller `n`'s fabric write queue. -/
def State.popWrite (s : State) (n : Nat) : State := s.onTiller n fun t => { t with fwq := t.fwq.drop 1 }

/-- WINDOW_WRITE (R90, R91): a window write of tiller `n`, or a word of an invalid KIND, reaches the fabric. While no point cycles run
every word is dropped, without a count and a cause; and the window word of a disabling write shows SRC 0b00 and keeps its START (DESIGN
CHOICE, log entry 184). -/
def execWindowWrite (n : Fin 192) (s : State) : Host.Outcome State Fault Refusal :=
  .next <| match (s.tiller n).fwq with
    | [] => s
    | w :: _ =>
      let kind := Word.field w 31 30
      if kind = 1 then s
      else
        let s := s.popWrite n
        let lane := Word.field w 29 27
        let win := Word.field w 26 25
        let start := Word.field w 15 0
        if !s.running then s
        else if kind ≠ 0 ∨ 6 ≤ lane ∨ win = 3 ∨ 65472 < start then s.rejectWrite n
        else if s.fixwin then s
        else
          let c := 6 * n.val + lane
          if s.his.deadlinePassed then s.markLate c
          else
            let en := Word.field w 24 24 == 1
            let x : Win := { start := start, en := en, src := if en then 2 else 0 }
            let v := s.liveLane c
            let v := if win = 0 then { v with win0 := x } else if win = 1 then { v with win1 := x } else { v with win2 := x }
            s.hs fun h => { h with
              live := Tab.set (fun _ => {}) h.live c v, overridden := (3 * c + win) :: h.overridden
              liveCond := Tab.set okCond h.liveCond (112 * n + 22 + 16 * lane + win) .ok }

/-- DEPTH_WRITE (R50, R51): a depth write of tiller `n` reaches the fabric. -/
def execDepthWrite (n : Fin 192) (s : State) : Host.Outcome State Fault Refusal :=
  .next <| match (s.tiller n).fwq with
    | [] => s
    | w :: _ =>
      if Word.field w 31 30 ≠ 1 then s
      else
        let s := s.popWrite n
        let lane := Word.field w 29 27
        let k := Word.field w 2 0
        if !s.running then s
        else if 6 ≤ lane ∨ k = 0 ∨ k = 7 then s.rejectWrite n
        else
          let c := 6 * n.val + lane
          if s.his.deadlinePassed then s.markLate c
          else { s with det := { s.det with tillerDepth := Tab.set (fun _ => 0) s.det.tillerDepth c k } }

/-! ### Boundaries (R93, R97 to R100) -/

/-- A run of point cycles begins (R167): what the reference programs keep of the run before the last is dropped. -/
def State.newRun (s : State) : State :=
  let r := 1 - s.his.run
  { s with his := { s.his with run := r }
           til := Tab.mapVal (fun _ => {}) (fun t : Tiller => { t with
             refSn := t.refSn.filter fun e => e.1 / 18 % 2 != r, refBad := t.refBad.filter fun e => e.1 / 6 % 2 != r }) s.til }

/-- POINT_CYCLES_START (R99, R286) at instant `t` (ps): the first boundary after point cycles became due; a last
cycle that still runs ends first. -/
def execPointCyclesStart (t : Nat) (s : State) : Host.Outcome State Fault Refusal :=
  .next <|
    let aligned := s.on F.MER_CTRL_EN && s.on F.MER_CFG_PC_ALIGN
    if !s.his.due || s.running || s.mainStopped || (aligned && !s.his.epoch) then s
    else
      let s := ((s.wr F.HIS_STATUS_RUNNING 1).wr F.MER_STATUS_PC_WAIT 0).hs fun h => { h with
        due := false, epoch := false, cur := none, prev := none, older := [], fallowPrev := [] }
      (s.newRun.runEdgeAt t).startCycle t 0 true

/-- HARROW_BANK_SWAP (R21, R93) at instant `t` (ps): the last harrow slot closes. Blocks not emitted leave DROPPED, the banks swap,
the next point cycle begins or point cycles stop; either way it is a boundary. -/
def execHarrowBankSwap (t : Nat) (s : State) : Host.Outcome State Fault Refusal :=
  .next <|
    if !s.running || s.mainStopped || s.his.cur.isNone || s.nextSlot.isSome then s
    else
      let s := s.closeSlot t
      let b := s.his.active
      let s := s.mapLanes b fun c l => s.finalLane c l
      let s := s.forN 192 fun n s => s.endOwnership n
      let fp := tabOf (fun _ => 0) 1152 fun c => ((s.bank b).lane c).fallowAmb
      let last := s.his.last
      let index := (s.bank b).pcIndex
      let s := s.hs fun h => { h with freezing := some (b, last), active := 1 - b, fallowPrev := fp, deadlinePassed := false, fallowOpen := false }
      if last then
        let s := (s.wr F.HIS_STATUS_RUNNING 0).hs fun h => { h with pcStart := t, cur := none, last := false }
        let s := s.bufSwap.em fun e => { e with prep := none }
        ((if s.emiState = eFIRING then s.emiDischarge else s).cyclesStop).runEdgeAt t
      else s.startCycle t ((index + 1) % 2 ^ 24) false

/-- BANK_CLEAR_COMPLETE (R93): the bank taken back holds fresh zeros. -/
def execBankClearComplete (s : State) : Host.Outcome State Fault Refusal :=
  .next <|
    if s.running && !(s.his.cur.any fun x => x.kind == .harrow) then
      let b := s.his.active
      let k := s.bank b
      s.setBank b { k with bins := [], cond := [] }
    else s

end Sys2Proof.Machine
end

