-- ==== Sys2Proof/Machine/KrytoldRows.lean ====
section
/-! DEFINITION. The Krytold instruction rows: tiller `n` issues the instruction. What it does is `runOp`. -/

namespace Sys2Proof.Machine

/-- Operand values whose encoding is a defined instruction (R141, Tables KI-4, KI-6, KI-7, KI-9). -/
def KOp.legal : KOp → Bool
  | .bc c _ => !(12 ≤ c && c ≤ 14)
  | .vslli w _ _ n => n < laneBits w
  | .vsrli w _ _ n => n < laneBits w
  | .vsrai w _ _ n => n < laneBits w
  | .vext w _ _ l => !(w && 3 < l)
  | .vins w _ _ l => !(w && 3 < l)
  | .vmacc _ va _ _ => va % 2 == 0
  | .frecvN rd => rd % 2 == 0 && rd != 0
  | .frecvW rd => rd % 2 == 0 && rd != 0
  | _ => true

/-- Tiller `n` issues instruction `k` at instant `t`; operand values no encoding admits raise ILLEGAL (R140, R141). -/
def State.runRow (s : State) (n t : Nat) (k : KOp) : Host.Outcome State Fault Refusal :=
  .next (s.issue n fun s => if k.legal then runOp n t k s else s.trap n 1 none)

/-- ADD (R142). -/
def execAdd (n : Fin 192) (rd : Fin 32) (ra : Fin 32) (rb : Fin 32) (s : State) : Host.Outcome State Fault Refusal :=
  s.runRow n 0 (.alu .add rd ra rb)

/-- SUB (R142). -/
def execSub (n : Fin 192) (rd : Fin 32) (ra : Fin 32) (rb : Fin 32) (s : State) : Host.Outcome State Fault Refusal :=
  s.runRow n 0 (.alu .sub rd ra rb)

/-- AND (R142). -/
def execAnd (n : Fin 192) (rd : Fin 32) (ra : Fin 32) (rb : Fin 32) (s : State) : Host.Outcome State Fault Refusal :=
  s.runRow n 0 (.alu .and rd ra rb)

/-- OR (R142). -/
def execOr (n : Fin 192) (rd : Fin 32) (ra : Fin 32) (rb : Fin 32) (s : State) : Host.Outcome State Fault Refusal :=
  s.runRow n 0 (.alu .or rd ra rb)

/-- XOR (R142). -/
def execXor (n : Fin 192) (rd : Fin 32) (ra : Fin 32) (rb : Fin 32) (s : State) : Host.Outcome State Fault Refusal :=
  s.runRow n 0 (.alu .xor rd ra rb)

/-- SLL (R142). -/
def execSll (n : Fin 192) (rd : Fin 32) (ra : Fin 32) (rb : Fin 32) (s : State) : Host.Outcome State Fault Refusal :=
  s.runRow n 0 (.alu .sll rd ra rb)

/-- SRL (R142). -/
def execSrl (n : Fin 192) (rd : Fin 32) (ra : Fin 32) (rb : Fin 32) (s : State) : Host.Outcome State Fault Refusal :=
  s.runRow n 0 (.alu .srl rd ra rb)

/-- SRA (R142). -/
def execSra (n : Fin 192) (rd : Fin 32) (ra : Fin 32) (rb : Fin 32) (s : State) : Host.Outcome State Fault Refusal :=
  s.runRow n 0 (.alu .sra rd ra rb)

/-- SLT (R142). -/
def execSlt (n : Fin 192) (rd : Fin 32) (ra : Fin 32) (rb : Fin 32) (s : State) : Host.Outcome State Fault Refusal :=
  s.runRow n 0 (.alu .slt rd ra rb)

/-- SLTU (R142). -/
def execSltu (n : Fin 192) (rd : Fin 32) (ra : Fin 32) (rb : Fin 32) (s : State) : Host.Outcome State Fault Refusal :=
  s.runRow n 0 (.alu .sltu rd ra rb)

/-- MIN (R142). -/
def execMin (n : Fin 192) (rd : Fin 32) (ra : Fin 32) (rb : Fin 32) (s : State) : Host.Outcome State Fault Refusal :=
  s.runRow n 0 (.alu .min rd ra rb)

/-- MAX (R142). -/
def execMax (n : Fin 192) (rd : Fin 32) (ra : Fin 32) (rb : Fin 32) (s : State) : Host.Outcome State Fault Refusal :=
  s.runRow n 0 (.alu .max rd ra rb)

/-- MINU (R142). -/
def execMinu (n : Fin 192) (rd : Fin 32) (ra : Fin 32) (rb : Fin 32) (s : State) : Host.Outcome State Fault Refusal :=
  s.runRow n 0 (.alu .minu rd ra rb)

/-- MAXU (R142). -/
def execMaxu (n : Fin 192) (rd : Fin 32) (ra : Fin 32) (rb : Fin 32) (s : State) : Host.Outcome State Fault Refusal :=
  s.runRow n 0 (.alu .maxu rd ra rb)

/-- MUL (R142). -/
def execMul (n : Fin 192) (rd : Fin 32) (ra : Fin 32) (rb : Fin 32) (s : State) : Host.Outcome State Fault Refusal :=
  s.runRow n 0 (.alu .mul rd ra rb)

/-- MULH (R142). -/
def execMulh (n : Fin 192) (rd : Fin 32) (ra : Fin 32) (rb : Fin 32) (s : State) : Host.Outcome State Fault Refusal :=
  s.runRow n 0 (.alu .mulh rd ra rb)

/-- MULHU (R142). -/
def execMulhu (n : Fin 192) (rd : Fin 32) (ra : Fin 32) (rb : Fin 32) (s : State) : Host.Outcome State Fault Refusal :=
  s.runRow n 0 (.alu .mulhu rd ra rb)

/-- DIVU (R142). -/
def execDivu (n : Fin 192) (rd : Fin 32) (ra : Fin 32) (rb : Fin 32) (s : State) : Host.Outcome State Fault Refusal :=
  s.runRow n 0 (.alu .divu rd ra rb)

/-- REMU (R142). -/
def execRemu (n : Fin 192) (rd : Fin 32) (ra : Fin 32) (rb : Fin 32) (s : State) : Host.Outcome State Fault Refusal :=
  s.runRow n 0 (.alu .remu rd ra rb)

/-- ADDS (R142). -/
def execAdds (n : Fin 192) (rd : Fin 32) (ra : Fin 32) (rb : Fin 32) (s : State) : Host.Outcome State Fault Refusal :=
  s.runRow n 0 (.alu .adds rd ra rb)

/-- SUBS (R142). -/
def execSubs (n : Fin 192) (rd : Fin 32) (ra : Fin 32) (rb : Fin 32) (s : State) : Host.Outcome State Fault Refusal :=
  s.runRow n 0 (.alu .subs rd ra rb)

/-- CMP (R144). -/
def execCmp (n : Fin 192) (ra : Fin 32) (rb : Fin 32) (s : State) : Host.Outcome State Fault Refusal :=
  s.runRow n 0 (.cmp ra rb)

/-- TST (R144). -/
def execTst (n : Fin 192) (ra : Fin 32) (rb : Fin 32) (s : State) : Host.Outcome State Fault Refusal :=
  s.runRow n 0 (.tst ra rb)

/-- SLLI (R143). -/
def execSlli (til : Fin 192) (rd : Fin 32) (ra : Fin 32) (n : Fin 32) (s : State) : Host.Outcome State Fault Refusal :=
  s.runRow til 0 (.slli rd ra n)

/-- SRLI (R143). -/
def execSrli (til : Fin 192) (rd : Fin 32) (ra : Fin 32) (n : Fin 32) (s : State) : Host.Outcome State Fault Refusal :=
  s.runRow til 0 (.srli rd ra n)

/-- SRAI (R143). -/
def execSrai (til : Fin 192) (rd : Fin 32) (ra : Fin 32) (n : Fin 32) (s : State) : Host.Outcome State Fault Refusal :=
  s.runRow til 0 (.srai rd ra n)

/-- EXTU (R143). -/
def execExtu (n : Fin 192) (rd : Fin 32) (ra : Fin 32) (pos : Fin 32) (width : Fin 32) (s : State) : Host.Outcome State Fault Refusal :=
  s.runRow n 0 (.extu rd ra pos width)

/-- CLZ (R142). -/
def execClz (n : Fin 192) (rd : Fin 32) (ra : Fin 32) (s : State) : Host.Outcome State Fault Refusal :=
  s.runRow n 0 (.clz rd ra)

/-- POPC (R142). -/
def execPopc (n : Fin 192) (rd : Fin 32) (ra : Fin 32) (s : State) : Host.Outcome State Fault Refusal :=
  s.runRow n 0 (.popc rd ra)

/-- ADDI (R142). -/
def execAddi (n : Fin 192) (rd : Fin 32) (ra : Fin 32) (imm : BitVec 16) (s : State) : Host.Outcome State Fault Refusal :=
  s.runRow n 0 (.addi rd ra imm.toNat)

/-- ANDI (R142). -/
def execAndi (n : Fin 192) (rd : Fin 32) (ra : Fin 32) (imm : BitVec 16) (s : State) : Host.Outcome State Fault Refusal :=
  s.runRow n 0 (.andi rd ra imm.toNat)

/-- ORI (R142). -/
def execOri (n : Fin 192) (rd : Fin 32) (ra : Fin 32) (imm : BitVec 16) (s : State) : Host.Outcome State Fault Refusal :=
  s.runRow n 0 (.ori rd ra imm.toNat)

/-- XORI (R142). -/
def execXori (n : Fin 192) (rd : Fin 32) (ra : Fin 32) (imm : BitVec 16) (s : State) : Host.Outcome State Fault Refusal :=
  s.runRow n 0 (.xori rd ra imm.toNat)

/-- SLTI (R142). -/
def execSlti (n : Fin 192) (rd : Fin 32) (ra : Fin 32) (imm : BitVec 16) (s : State) : Host.Outcome State Fault Refusal :=
  s.runRow n 0 (.slti rd ra imm.toNat)

/-- LUI (R142). -/
def execLui (n : Fin 192) (rd : Fin 32) (imm : BitVec 16) (s : State) : Host.Outcome State Fault Refusal :=
  s.runRow n 0 (.lui rd imm.toNat)

/-- CMPI (R144). -/
def execCmpi (n : Fin 192) (ra : Fin 32) (imm : BitVec 16) (s : State) : Host.Outcome State Fault Refusal :=
  s.runRow n 0 (.cmpi ra imm.toNat)

/-- LW (R145, R146; the timing registers are read at instant `t` (ps)). -/
def execLw (n : Fin 192) (rd : Fin 32) (ra : Fin 32) (imm : BitVec 16) (t : Nat) (s : State) : Host.Outcome State Fault Refusal :=
  s.runRow n t (.lw rd ra imm.toNat)

/-- SW (R145). -/
def execSw (n : Fin 192) (rs : Fin 32) (ra : Fin 32) (imm : BitVec 16) (s : State) : Host.Outcome State Fault Refusal :=
  s.runRow n 0 (.sw rs ra imm.toNat)

/-- VLD (R145). -/
def execVld (n : Fin 192) (vd : Fin 32) (ra : Fin 32) (imm : BitVec 16) (s : State) : Host.Outcome State Fault Refusal :=
  s.runRow n 0 (.vld vd ra imm.toNat)

/-- VST (R145). -/
def execVst (n : Fin 192) (vs : Fin 32) (ra : Fin 32) (imm : BitVec 16) (s : State) : Host.Outcome State Fault Refusal :=
  s.runRow n 0 (.vst vs ra imm.toNat)

/-- VBWL (R149). -/
def execVbwl (n : Fin 192) (vd : Fin 32) (ra : Fin 32) (rb : Fin 32) (s : State) : Host.Outcome State Fault Refusal :=
  s.runRow n 0 (.vbwl vd ra rb)

/-- BC (R147). -/
def execBc (n : Fin 192) (cond : Fin 16) (off : BitVec 22) (s : State) : Host.Outcome State Fault Refusal :=
  s.runRow n 0 (.bc cond off.toNat)

/-- JAL (R147). -/
def execJal (n : Fin 192) (rd : Fin 32) (off : BitVec 21) (s : State) : Host.Outcome State Fault Refusal :=
  s.runRow n 0 (.jal rd off.toNat)

/-- JALR (R147). -/
def execJalr (n : Fin 192) (rd : Fin 32) (ra : Fin 32) (imm : BitVec 16) (s : State) : Host.Outcome State Fault Refusal :=
  s.runRow n 0 (.jalr rd ra imm.toNat)

/-- VADD (R148). -/
def execVadd (n : Fin 192) (w : Bool) (vd : Fin 32) (va : Fin 32) (vb : Fin 32) (s : State) : Host.Outcome State Fault Refusal :=
  s.runRow n 0 (.valu .add w vd va vb)

/-- VSUB (R148). -/
def execVsub (n : Fin 192) (w : Bool) (vd : Fin 32) (va : Fin 32) (vb : Fin 32) (s : State) : Host.Outcome State Fault Refusal :=
  s.runRow n 0 (.valu .sub w vd va vb)

/-- VADDSU (R148). -/
def execVaddsu (n : Fin 192) (w : Bool) (vd : Fin 32) (va : Fin 32) (vb : Fin 32) (s : State) : Host.Outcome State Fault Refusal :=
  s.runRow n 0 (.valu .addsu w vd va vb)

/-- VSUBSU (R148). -/
def execVsubsu (n : Fin 192) (w : Bool) (vd : Fin 32) (va : Fin 32) (vb : Fin 32) (s : State) : Host.Outcome State Fault Refusal :=
  s.runRow n 0 (.valu .subsu w vd va vb)

/-- VADDS (R148). -/
def execVadds (n : Fin 192) (w : Bool) (vd : Fin 32) (va : Fin 32) (vb : Fin 32) (s : State) : Host.Outcome State Fault Refusal :=
  s.runRow n 0 (.valu .adds w vd va vb)

/-- VSUBS (R148). -/
def execVsubs (n : Fin 192) (w : Bool) (vd : Fin 32) (va : Fin 32) (vb : Fin 32) (s : State) : Host.Outcome State Fault Refusal :=
  s.runRow n 0 (.valu .subs w vd va vb)

/-- VMUL (R148). -/
def execVmul (n : Fin 192) (w : Bool) (vd : Fin 32) (va : Fin 32) (vb : Fin 32) (s : State) : Host.Outcome State Fault Refusal :=
  s.runRow n 0 (.valu .mul w vd va vb)

/-- VMIN (R148). -/
def execVmin (n : Fin 192) (w : Bool) (vd : Fin 32) (va : Fin 32) (vb : Fin 32) (s : State) : Host.Outcome State Fault Refusal :=
  s.runRow n 0 (.valu .min w vd va vb)

/-- VMAX (R148). -/
def execVmax (n : Fin 192) (w : Bool) (vd : Fin 32) (va : Fin 32) (vb : Fin 32) (s : State) : Host.Outcome State Fault Refusal :=
  s.runRow n 0 (.valu .max w vd va vb)

/-- VMINS (R148). -/
def execVmins (n : Fin 192) (w : Bool) (vd : Fin 32) (va : Fin 32) (vb : Fin 32) (s : State) : Host.Outcome State Fault Refusal :=
  s.runRow n 0 (.valu .mins w vd va vb)

/-- VMAXS (R148). -/
def execVmaxs (n : Fin 192) (w : Bool) (vd : Fin 32) (va : Fin 32) (vb : Fin 32) (s : State) : Host.Outcome State Fault Refusal :=
  s.runRow n 0 (.valu .maxs w vd va vb)

/-- VAND (R148). -/
def execVand (n : Fin 192) (w : Bool) (vd : Fin 32) (va : Fin 32) (vb : Fin 32) (s : State) : Host.Outcome State Fault Refusal :=
  s.runRow n 0 (.valu .and w vd va vb)

/-- VOR (R148). -/
def execVor (n : Fin 192) (w : Bool) (vd : Fin 32) (va : Fin 32) (vb : Fin 32) (s : State) : Host.Outcome State Fault Refusal :=
  s.runRow n 0 (.valu .or w vd va vb)

/-- VXOR (R148). -/
def execVxor (n : Fin 192) (w : Bool) (vd : Fin 32) (va : Fin 32) (vb : Fin 32) (s : State) : Host.Outcome State Fault Refusal :=
  s.runRow n 0 (.valu .xor w vd va vb)

/-- VCMPEQ (R148). -/
def execVcmpeq (n : Fin 192) (w : Bool) (vd : Fin 32) (va : Fin 32) (vb : Fin 32) (s : State) : Host.Outcome State Fault Refusal :=
  s.runRow n 0 (.valu .cmpeq w vd va vb)

/-- VCMPGTU (R148). -/
def execVcmpgtu (n : Fin 192) (w : Bool) (vd : Fin 32) (va : Fin 32) (vb : Fin 32) (s : State) : Host.Outcome State Fault Refusal :=
  s.runRow n 0 (.valu .cmpgtu w vd va vb)

/-- VCMPGT (R148). -/
def execVcmpgt (n : Fin 192) (w : Bool) (vd : Fin 32) (va : Fin 32) (vb : Fin 32) (s : State) : Host.Outcome State Fault Refusal :=
  s.runRow n 0 (.valu .cmpgt w vd va vb)

/-- VSEL (R148). -/
def execVsel (n : Fin 192) (vd : Fin 32) (va : Fin 32) (vb : Fin 32) (s : State) : Host.Outcome State Fault Refusal :=
  s.runRow n 0 (.vsel vd va vb)

/-- VSLLI (R148). -/
def execVslli (til : Fin 192) (w : Bool) (vd : Fin 32) (va : Fin 32) (n : Fin 32) (s : State) : Host.Outcome State Fault Refusal :=
  s.runRow til 0 (.vslli w vd va n)

/-- VSRLI (R148). -/
def execVsrli (til : Fin 192) (w : Bool) (vd : Fin 32) (va : Fin 32) (n : Fin 32) (s : State) : Host.Outcome State Fault Refusal :=
  s.runRow til 0 (.vsrli w vd va n)

/-- VSRAI (R148). -/
def execVsrai (til : Fin 192) (w : Bool) (vd : Fin 32) (va : Fin 32) (n : Fin 32) (s : State) : Host.Outcome State Fault Refusal :=
  s.runRow til 0 (.vsrai w vd va n)

/-- VZXL (R148). -/
def execVzxl (n : Fin 192) (vd : Fin 32) (va : Fin 32) (s : State) : Host.Outcome State Fault Refusal :=
  s.runRow n 0 (.vzxl vd va)

/-- VZXH (R148). -/
def execVzxh (n : Fin 192) (vd : Fin 32) (va : Fin 32) (s : State) : Host.Outcome State Fault Refusal :=
  s.runRow n 0 (.vzxh vd va)

/-- VNARS (R148). -/
def execVnars (n : Fin 192) (vd : Fin 32) (va : Fin 32) (vb : Fin 32) (s : State) : Host.Outcome State Fault Refusal :=
  s.runRow n 0 (.vnars vd va vb)

/-- VSPLAT (R148). -/
def execVsplat (n : Fin 192) (w : Bool) (vd : Fin 32) (ra : Fin 32) (s : State) : Host.Outcome State Fault Refusal :=
  s.runRow n 0 (.vsplat w vd ra)

/-- VEXT (R148). -/
def execVext (n : Fin 192) (w : Bool) (rd : Fin 32) (va : Fin 32) (lane : Fin 8) (s : State) : Host.Outcome State Fault Refusal :=
  s.runRow n 0 (.vext w rd va lane)

/-- VINS (R148). -/
def execVins (n : Fin 192) (w : Bool) (vd : Fin 32) (ra : Fin 32) (lane : Fin 8) (s : State) : Host.Outcome State Fault Refusal :=
  s.runRow n 0 (.vins w vd ra lane)

/-- VRSUM (R148). -/
def execVrsum (n : Fin 192) (w : Bool) (rd : Fin 32) (va : Fin 32) (s : State) : Host.Outcome State Fault Refusal :=
  s.runRow n 0 (.vrsum w rd va)

/-- VRMAXU (R148). -/
def execVrmaxu (n : Fin 192) (w : Bool) (rd : Fin 32) (va : Fin 32) (s : State) : Host.Outcome State Fault Refusal :=
  s.runRow n 0 (.vrmaxu w rd va)

/-- VMACC (R150). -/
def execVmacc (n : Fin 192) (vd : Fin 32) (va : Fin 32) (vb : Fin 32) (p : Fin 2) (s : State) : Host.Outcome State Fault Refusal :=
  s.runRow n 0 (.vmacc vd va vb p)

/-- VPIDX (R151). -/
def execVpidx (n : Fin 192) (rd : Fin 32) (va : Fin 32) (rb : Fin 32) (s : State) : Host.Outcome State Fault Refusal :=
  s.runRow n 0 (.vpidx rd va rb)

/-- VCENT (R152). -/
def execVcent (n : Fin 192) (rd : Fin 32) (va : Fin 32) (rb : Fin 32) (s : State) : Host.Outcome State Fault Refusal :=
  s.runRow n 0 (.vcent rd va rb)

/-- VCOAT (R153). -/
def execVcoat (n : Fin 192) (vd : Fin 32) (va : Fin 32) (rb : Fin 32) (s : State) : Host.Outcome State Fault Refusal :=
  s.runRow n 0 (.vcoat vd va rb)

/-- FSEND (R154). -/
def execFsend (n : Fin 192) (ra : Fin 32) (s : State) : Host.Outcome State Fault Refusal :=
  s.runRow n 0 (.fsend ra)

/-- FRECV_N (R154). -/
def execFrecvN (n : Fin 192) (rd : Fin 32) (s : State) : Host.Outcome State Fault Refusal :=
  s.runRow n 0 (.frecvN rd)

/-- FRECV_W (R154). -/
def execFrecvW (n : Fin 192) (rd : Fin 32) (s : State) : Host.Outcome State Fault Refusal :=
  s.runRow n 0 (.frecvW rd)

/-- EMIT (R155). -/
def execEmit (n : Fin 192) (rd : Fin 32) (ra : Fin 32) (rb : Fin 32) (s : State) : Host.Outcome State Fault Refusal :=
  s.runRow n 0 (.emit rd ra rb)

/-- NOP (R156). -/
def execNop (n : Fin 192) (s : State) : Host.Outcome State Fault Refusal :=
  s.runRow n 0 (.nop)

/-- TRAP (R156). -/
def execTrap (n : Fin 192) (s : State) : Host.Outcome State Fault Refusal :=
  s.runRow n 0 (.trap)

/-- TRET (R156). -/
def execTret (n : Fin 192) (s : State) : Host.Outcome State Fault Refusal :=
  s.runRow n 0 (.tret)

/-- ARET (R156). -/
def execAret (n : Fin 192) (s : State) : Host.Outcome State Fault Refusal :=
  s.runRow n 0 (.aret)

/-- FENCE (R156). -/
def execFence (n : Fin 192) (s : State) : Host.Outcome State Fault Refusal :=
  s.runRow n 0 (.fence)

/-- RDFL (R156). -/
def execRdfl (n : Fin 192) (rd : Fin 32) (s : State) : Host.Outcome State Fault Refusal :=
  s.runRow n 0 (.rdfl rd)

/-- WRFL (R156). -/
def execWrfl (n : Fin 192) (ra : Fin 32) (s : State) : Host.Outcome State Fault Refusal :=
  s.runRow n 0 (.wrfl ra)

end Sys2Proof.Machine
end

