-- ==== Sys2Proof/Machine/RefProgram.lean ====
section
/-! DEFINITION. The reference echo program (R172 to R194): what a tiller that runs it does with its messages. -/

namespace Sys2Proof.Machine

/-! ### The program's own registers, loads and sends -/

/-- What the program leaves in registers, flags and PC, which no rule states: free values. -/
def State.refScratch (s : State) (n : Nat) : State :=
  let (x, s) := s.drawFree (32 * 32 + 32 * 128 + 32)
  let y := x / 2 ^ 1024
  s.onTiller n fun t => { t with
    sreg := tabOf (fun _ => 0) 32 fun r => if r = 0 then 0 else BitVec.ofNat 32 (x / 2 ^ (32 * r))
    vreg := tabOf (fun _ => 0) 32 fun r => BitVec.ofNat 128 (y / 2 ^ (128 * r)), badS := [], badV := []
    flags := y / 2 ^ 4096 % 32, pc := 4 * (y / 2 ^ 4101 % 8192) }

/-- Loads `k` words from local address `a`; a word with an uncorrectable or poisoned check reads 0 and sets POISON_SEEN (R112).
Also answers whether any did. -/
def State.refLoad (s : State) (n a k : Nat) : List Nat × Bool × State :=
  let (ws, s) := s.readWords n a k
  let bad := ws.any fun x => x.2.bad
  (ws.map fun x => if x.2.bad then 0 else x.1.toNat, bad, if bad then s.onTiller n fun t => { t with poisonSeen := true } else s)

/-- The 16-bit halves of words. -/
def halvesOf (ws : List Nat) : List Nat := ws.flatMap fun w => [w % 2 ^ 16, w / 2 ^ 16]

/-- The parameter page in force of tiller `n`. -/
def State.refParam (s : State) (n i : Nat) : Word := (s.tiller n).refPage.getD i 0

/-- Lane state `l` of tiller `n`. -/
def State.refLane (s : State) (n l : Nat) : RefLane := Tab.get (fun _ => {}) (s.tiller n).refLanes l

/-- Puts lane state `l`. -/
def State.setRefLane (s : State) (n l : Nat) (x : RefLane) : State :=
  s.onTiller n fun t => { t with refLanes := Tab.set (fun _ => {}) t.refLanes l x }

/-- Sends a fabric write word if DL_REMAIN at instant `t` exceeds 11 + 1.25 × the words ahead (R180); answers whether it did. -/
def State.refSend (s : State) (n t : Nat) (w : Nat) : Bool × State :=
  let (dl, s) := s.localReg n 0x30008 t
  let ahead := (s.tiller n).fwq.length
  if 44 + 5 * ahead < 4 * dl.toNat ∧ ahead < 32 then
    (true, s.onTiller n fun x => { x with fwq := x.fwq ++ [BitVec.ofNat 32 w] })
  else (false, s)

/-! ### Answering candidates (R177, R180) -/

/-- The plough bins kr − 2 to kr + 2 of lane `l` that the program reads, and whether a load returned 0 under POISON_ZERO; bins outside
0 to 2047 count as 0. -/
def State.refBins (s : State) (n l kr : Nat) : List (Nat × Nat) × Bool × State :=
  let (r, s) := (List.range 5).foldl (fun (acc : (List (Nat × Nat) × Bool) × State) j =>
    if kr + j < 2 ∨ 2047 < kr + j - 2 then acc
    else
      let b := kr + j - 2
      let (ws, p, s') := acc.2.refLoad n (0x20000 + l * 0x1000 + b / 2 * 4) 1
      ((acc.1.1 ++ [(b, (halvesOf ws).getD (b % 2) 0)], acc.1.2 || p), s')) (([], false), s)
  (r.1, r.2, s)

/-- START of a candidate's window from the bins around it (R177). -/
def refStartCode (centre : Nat) (bins : List (Nat × Nat)) : Nat :=
  let sn := (bins.map Prod.snd).sum
  let c := if sn = 0 then centre else (2 * (bins.map fun x => x.2 * (32 * x.1 + 16)).sum + sn) / (2 * sn)
  min (c - 32) 65472

/-- Answers one candidate message; what it keeps of the plough bins is kept for the message's own point cycle (R186). -/
def State.refAnswer (s : State) (n t : Nat) (m : Nat) : State :=
  let l := bits m 23 21
  let i := bits m 20 19
  let head := l * 2 ^ 27 + i * 2 ^ 25
  let (w, s) : Nat × State :=
    if bits m 47 32 < (s.refParam n 2).toNat / 2 ^ 16 then (head, s)
    else
      let (bins, bad, s) := s.refBins n l (bits m 63 48 / 32)
      let p := (s.tiller n).candPc
      let r := (s.tiller n).candRun
      let old := (p + 2 ^ 24 - 1) % 2 ^ 24
      let keep (q : Nat) (e : Nat) : Bool := e == p || e == old || q != r
      let s := s.onTiller n fun x =>
        let kept := x.refSn.filter fun e => keep (e.1 / 18 % 2) (e.1 / 36)
        let bads := x.refBad.filter fun e => keep (e.1 / 6 % 2) (e.1 / 12)
        { x with refSn := Tab.set (fun _ => 0) kept (36 * p + 18 * r + 3 * l + i) ((bins.map Prod.snd).sum + 1)
                 refBad := if bad then Tab.set (fun _ => false) bads (12 * p + 6 * r + l) true else bads }
      (head + 2 ^ 24 + refStartCode (bits m 63 48) bins, s)
  let (sent, s) := s.refSend n t w
  if sent then s
  else
    let x := s.refLane n l
    s.setRefLane n l { x with winSkip := satAdd 16 x.winSkip 1 }

/-- Answers the candidate messages at the head of the queue, at most `k`. -/
def State.refAnswers (s : State) (n t : Nat) : Nat → State
  | 0 => s
  | k + 1 => match (s.tiller n).candQ with
    | m :: q => if isCandidate m then
        State.refAnswers ((s.onTiller n fun x => { x with candQ := q }).refAnswer n t m.toNat) n t k
      else s
    | [] => s

/-- Tiller `n` diverts to TIL_ATTN_VEC for its pending sources at instant `t` (ps) (R119). The reference program's handler answers the
waiting candidates and returns (R177), one effect here. -/
def State.attend (s : State) (n t : Nat) : State :=
  let x := s.tiller n
  let s := (s.setTiller n { x with
    attnPc := x.pc, savedFlags := x.flags, inAttn := true, pc := 4 * s.rd (F.TIL_ATTN_VEC_WORD n)
    attnSrc := x.pendMsg.toNat + 2 * x.pendDl.toNat, pendMsg := false, pendDl := false }).countTil n 8 1
  if !x.refRuns then s
  else
    let s := (s.refAnswers n t x.candQ.length).refScratch n
    s.onTiller n fun y => { y with inAttn := false, pc := y.attnPc, flags := y.savedFlags }

/-- ATTENTION (R119, R159) at instant `t` (ps): an instruction boundary of tiller `n`. A HALT that waits for the same boundary goes
first, and the attention stays pending (DESIGN CHOICE, log entry 223). -/
def execAttention (n : Fin 192) (t : Nat) (s : State) : Host.Outcome State Fault Refusal :=
  .next <|
    let x := s.tiller n
    if s.tilStopped || x.state != .running || x.haltReq || !s.attnDue n then s else s.attend n t

/-- STEP of tiller `n`: one instruction at instant `t`, then HALTED with HALT_CAUSE 2; accepted only in HALTED. The boundary before it
takes a due attention, so that the instruction is the handler's first (R159; DEDUCED, log entry 186). The reference program executes again the EMIT that its
halt abandoned (R172). -/
def State.tilStep (s : State) (n t : Nat) : State :=
  if (s.tiller n).state = .halted then
    let s := s.onTiller n fun x => { x with state := .running, stepping := true, fresh := true }
    let s := if s.attnDue n then s.attend n t else s
    let s := match (s.tiller n).refRedo with
      | some len => ((s.onTiller n fun x => { x with refRedo := none }).refIssueEmit n len).stepDone n
      | none => s.issue n fun s => s.fetchRun n t
    s.derateCheck
  else s.cfgReject

/-! ### Parameter pages (R174, R175) -/

/-- A field of a page word. -/
def pf (ws : List Nat) (i hi lo : Nat) : Nat := bits (ws.getD i 0) hi lo

/-- A page passes validation (R175). -/
def refPageOk (ws : List Nat) : Bool :=
  let within (v lo hi : Nat) : Bool := decide (lo ≤ v) && decide (v ≤ hi)
  within (pf ws 0 31 24) 1 255 && within (pf ws 0 23 16) 1 255 && pf ws 0 15 11 == 0 && pf ws 0 7 3 == 0
    && within (pf ws 0 10 8) 1 6 && within (pf ws 0 2 0) 1 6 && decide (pf ws 0 2 0 ≤ pf ws 0 10 8)
    && within (pf ws 1 31 16) 1 1024 && decide (pf ws 1 15 0 < pf ws 1 31 16)
    && within (pf ws 2 15 8) 1 255 && pf ws 2 7 6 == 0 && within (pf ws 2 5 0) 1 31
    && within (pf ws 3 31 24) 16 255 && within (pf ws 3 15 8) 2 16 && within (pf ws 3 7 4) 1 15
    && decide (pf ws 3 7 4 < pf ws 3 15 8)
    && within (pf ws 4 31 16) 1 65535 && pf ws 4 7 3 == 0
    && within (pf ws 5 31 16) 1 65535 && decide (pf ws 5 15 0 < pf ws 5 31 16)
    && pf ws 6 31 16 == 0 && within (pf ws 6 15 0) 1 65535
    && (List.range 6).all (fun l => decide ((signed 32 (ws.getD (8 + l) 0)).natAbs ≤ 2 ^ 24))
    && (List.range 10).all (fun i => ws.getD (22 + i) 0 == 0)

/-- The program writes PARAM_STATUS, over whatever the host put there (R176). -/
def Tiller.paramStatus (t : Tiller) : Tiller := t.putWords 0x1E00C [BitVec.ofNat 32 (2 * t.refRej.toNat + t.refActive)]

/-- Adoption at a bank-ready message (R174, R175): a newly selected page is validated and taken, or rejected with a software trap that
the program outlives. -/
def State.refAdopt (s : State) (n : Nat) : State :=
  let (sel, _, s) := s.refLoad n 0x1E000 1
  let page := sel.getD 0 0 % 2
  if page = (s.tiller n).refActive then s.onTiller n Tiller.paramStatus
  else
    let (ws, _, s) := s.refLoad n (if page = 0 then 0x1E080 else 0x1E100) 32
    if refPageOk ws then
      s.onTiller n fun t =>
        ({ t with refPage := ws.map (BitVec.ofNat 32 ·), refActive := page, refRej := false } : Tiller).paramStatus
    else
      let pc := (s.tiller n).pc
      let s := ((s.onTiller n fun t => ({ t with refRej := true } : Tiller).paramStatus).countTil n 2 1).trap n 7 none
      if (s.tiller n).state = .running then s.onTiller n fun t => { t with inTrap := false, pc := pc } else s

/-- A lane's soiling latch is released (R194): the entry history is emptied, and a SOILED lane's exit dwell counts from here. -/
def RefLane.soilRelease (x : RefLane) : RefLane :=
  { x with soilLatch := false, soilHist := [], soilRun := if x.soiled then 0 else x.soilRun }

/-- The program acts on FLAP_CLR and writes its bits back to 0 (R176, R179, R194). -/
def State.refRelease (s : State) (n : Nat) : State :=
  let (w, _, s) := s.refLoad n 0x1E008 1
  let v := w.getD 0 0
  let s := s.forN 6 fun l s =>
    let x := s.refLane n l
    let x := if v.testBit l then { x with kLatch := false, kHist := [] } else x
    let x := if v.testBit (8 + l) then x.soilRelease else x
    s.setRefLane n l x
  if v = 0 then s else s.onTiller n fun t => t.putWords 0x1E008 [0]

/-! ### Depth and soiling (R178, R179, R193, R194) -/

/-- A depth request for lane `l` at instant `t`; it is sent when it can be (R178 to R180). -/
def RefLane.request (x : RefLane) (now k t : Nat) : RefLane :=
  let h := recent t x.kHist ++ [t]
  let ninth := decide (9 ≤ h.length)
  let k := if ninth then max now k else k
  { x with kNow := k, kLatch := ninth, kHist := h, upRun := 0, dnRun := 0, kChg := satAdd 32 x.kChg 1, held := k }

/-- The depth decision of a lane (R178): `a` FALLOW_AMB, `k` K_USED. -/
def RefLane.depth (x : RefLane) (ws : List Nat) (a k t : Nat) : RefLane :=
  let x := if x.kNow = 0 then { x with kNow := k } else x
  if k ≠ x.kNow then x
  else
    let x := { x with
      upRun := if pf ws 1 31 16 ≤ a ∧ k < pf ws 0 10 8 then x.upRun + 1 else 0
      dnRun := if a ≤ pf ws 1 15 0 ∧ pf ws 0 2 0 < k then x.dnRun + 1 else 0 }
    if pf ws 0 23 16 ≤ x.upRun then x.request k (k + 1) t
    else if pf ws 0 31 24 ≤ x.dnRun then x.request k (k - 1) t
    else x

/-- The soiling update of a lane (R194): `v` of R193, at instant `t`. -/
def RefLane.soil (x : RefLane) (ws : List Nat) (v t : Nat) : RefLane :=
  let avg := (x.soilAvg : Int) + ((v : Int) - x.soilAvg).tdiv 64
  let x := { x with soilAvg := avg.toNat }
  let dwell := pf ws 6 15 0
  if x.soiled then
    if x.soilLatch then x
    else
      let x := { x with soilRun := if x.soilAvg ≤ pf ws 5 15 0 then x.soilRun + 1 else 0 }
      if dwell ≤ x.soilRun then { x with soiled := false, soilRun := 0 } else x
  else
    let x := { x with soilRun := if pf ws 5 31 16 ≤ x.soilAvg then x.soilRun + 1 else 0 }
    if dwell ≤ x.soilRun then
      let h := recent t x.soilHist ++ [t]
      { x with soiled := true, soilRun := 0, soilHist := h, soilLatch := decide (9 ≤ h.length) }
    else x

/-- The lane's registers of Table EP-10. -/
def RefLane.words (x : RefLane) : List Word :=
  [BitVec.ofNat 32 (x.kNow * 2 ^ 21 + x.kLatch.toNat * 2 ^ 20 + x.soiled.toNat * 2 ^ 19 + x.soilLatch.toNat * 2 ^ 18 + x.aPrev),
    BitVec.ofNat 32 (x.winSkip * 2 ^ 16 + min x.soilAvg 65535), BitVec.ofNat 32 x.count, BitVec.ofNat 32 x.kChg]

/-! ### Returns (R181 to R193) -/

/-- A return under construction: its 64-bit word (Table EP-4), and what orders and selects it. -/
structure Ret where
  word : Nat
  d256 : Int
  conf : Nat
  cls : Nat
  range : Nat
  deriving DecidableEq, Repr

/-- min (15, isqrt v) (R189). -/
def isqrt15 (v : Nat) : Nat := ((List.range 15).filter fun k => decide ((k + 1) ^ 2 ≤ v)).length

/-- Confidence before its caps (R189); 0 where there is no signal. -/
def confidence (s b : Nat) : Nat := if s = 0 then 0 else isqrt15 (s * s / (4 * (s + b)))

/-- The caps of R189. -/
def capConf (c cls : Nat) (degraded plough late : Bool) : Nat :=
  let c := if cls = 4 then min c 3 else c
  let c := if degraded || plough then min c 7 else c
  if late then min c 11 else c

/-- What a lane's returns are computed from: the page in force, T_NOW, the lane number, FALLOW_AMB, LIT_PLOUGH, A_PREV, the LATE flag and
whether the status is DEGRADED. -/
structure LaneIn where
  ws : List Nat
  tNow : Int
  lane : Nat
  a : Nat
  pl : Nat
  aPrev : Nat
  late : Bool
  degraded : Bool

/-- Walk entry `iw` (Table EP-9). -/
def LaneIn.walk (x : LaneIn) (iw : Nat) : Int :=
  signed 16 (if iw % 2 = 0 then pf x.ws (14 + iw / 2) 15 0 else pf x.ws (14 + iw / 2) 31 16)

/-- The walk index of an intensity (R185). -/
def walkIndex (int : Nat) : Nat :=
  if int < 16 then 0 else
    let q := Nat.log2 int
    min 15 (2 * q + int / 2 ^ (q - 1) % 2 - 7)

/-- d256 of a time, the walk term given (R184). -/
def LaneIn.d256 (x : LaneIn) (t256 : Nat) (walk : Int) : Int :=
  (t256 : Int) - signed 32 (x.ws.getD (8 + x.lane) 0)
    - (signed 16 (pf x.ws 7 15 0) * (x.tNow - signed 16 (pf x.ws 7 31 16))).tdiv 10 - walk

/-- The range in millimetres; none where the return is discarded (R184). -/
def rangeOf (d : Int) : Option Nat :=
  let r := (d * 383734 + 2 ^ 23) / 2 ^ 24
  if d < 0 ∨ 383736 < r then none else some r.toNat

/-- The return word (Table EP-4). -/
def retWord (range int width conf cls amb : Nat) (flags : Nat) : Nat :=
  range * 2 ^ 44 + int * 2 ^ 32 + width * 2 ^ 24 + conf * 2 ^ 20 + cls * 2 ^ 16 + amb * 2 ^ 4 + flags

/-- The live exposures of window `w` (R181). -/
def live0 (a : Nat) (wins : List Win) (raws : List (List Nat)) (w : Nat) : Int :=
  let x := wins.getD w {}
  let pre := ((List.range 3).filter (· ≠ w)).map fun v =>
    let y := wins.getD v {}
    (((raws.getD v []).zipIdx.filter fun (_, i) =>
      decide (x.start ≤ y.start + i + 64) && decide (y.start + i < x.start)).map Prod.fst).sum
  (x.exposure : Int) - (a * x.exposure / 2 ^ 10 : Nat) - (pre.sum : Nat)

/-- The lowest index of the greatest element, and that element. -/
def argmax (l : List Nat) : Nat × Nat :=
  let m := l.foldl max 0
  (l.findIdx (· == m), m)

/-- The harrow return of a window with `live` exposures left (R182 to R190). -/
def LaneIn.harrow (x : LaneIn) (w : Win) (raw : List Nat) (live : Nat) (cand : Option Cand) : Option Ret :=
  let pile := pf x.ws 4 2 2 == 1
  let corr := if pile then (coates w.exposure live raw).1 else raw.map (16 * ·)
  let bg := (x.a * w.exposure + 2048) / 2 ^ 12
  let xs := corr.map (· - bg)
  let p := (argmax corr).1
  let half := pf x.ws 2 5 0
  let lo := p - half
  let hi := min (p + half) 63
  let idx := (List.range 64).filter fun i => decide (lo ≤ i) && decide (i ≤ hi)
  let s := (idx.map fun i => xs.getD i 0).sum
  if s < 16 * pf x.ws 2 15 8 then none
  else
    let t256 := 256 * w.start + (idx.map fun i => xs.getD i 0 * i).sum * 256 / s + 128
    let int := min 4095 (s * 64 / w.exposure)
    let top := idx.filter fun i => decide (xs.getD p 0 ≤ 2 * xs.getD i 0)
    let width := (top.getLastD 0 - top.headD 0 + 4) / 4
    let amb := min 4095 (x.a * w.exposure / 2 ^ 6)
    let cls :=
      if idx.any (fun i => corr.getD i 0 == 0xFFFF) || int == 4095 then 3
      else if s * 256 / xs.sum < pf x.ws 3 23 16 ∨ pf x.ws 3 15 8 ≤ width ∨ (32 ≤ x.a ∧ pf x.ws 3 31 24 * x.aPrev ≤ 16 * x.a) then 4
      else if pf x.ws 3 7 4 ≤ width then 1 else 0
    let conf := capConf (confidence s (bg * (hi - lo + 1))) cls x.degraded false x.late
    let pileup := pile && decide (17 * (idx.map fun i => raw.getD i 0).sum < s)
    let edge := (cand.map Cand.edge).getD false || decide (p ≤ 1) || decide (62 ≤ p)
    let d := x.d256 t256 (x.walk (walkIndex int))
    (rangeOf d).map fun r =>
      ⟨retWord r int width conf cls amb (pileup.toNat * 8 + 4 + edge.toNat * 2 + x.late.toNat), d, conf, cls, r⟩

/-- The plough-only return of a candidate for which the program kept `sn` (R186). -/
def LaneIn.plough (x : LaneIn) (c : Cand) (sn : Nat) : Option Ret :=
  let width := min 255 (8 * c.width)
  let cls := if pf x.ws 3 7 4 ≤ width then 1 else 0
  let s := 16 * sn - x.a * x.pl * 5 * 16 / 2 ^ 11
  let conf := capConf (confidence s (x.a * x.pl * 5 * 16 / 2 ^ 11)) cls x.degraded true x.late
  let d := x.d256 (256 * c.centre) 0
  (rangeOf d).map fun r =>
    ⟨retWord r (min 4095 c.fval) width conf cls (min 4095 (x.a * x.pl / 2 ^ 6)) (c.edge.toNat * 2 + x.late.toNat), d, conf, cls, r⟩

/-- Keeps, of returns closer than 8,192 in d256, the more confident, on a tie the one from the lower window (R191). -/
def keepBest : List Ret → List Ret → List Ret
  | kept, [] => kept
  | kept, r :: rs => if kept.any fun q => decide ((q.d256 - r.d256).natAbs < 8192) then keepBest kept rs else keepBest (kept ++ [r]) rs

/-- Puts `r` after those at least as confident. -/
def byConf (r : Ret) : List Ret → List Ret
  | [] => [r]
  | q :: l => if q.conf < r.conf then r :: q :: l else q :: byConf r l

/-- Puts `r` after those no farther. -/
def byRange (r : Ret) : List Ret → List Ret
  | [] => [r]
  | q :: l => if r.d256 < q.d256 then r :: q :: l else q :: byRange r l

/-- The near-field excess and its background, and v of R193. -/
def LaneIn.near (x : LaneIn) (blank : Nat) : Nat × Nat × Nat :=
  let e := x.a * pf x.ws 4 15 8 * x.pl / 2 ^ 11
  (blank - e, e, if x.pl = 0 then 0 else (blank - e) * 256 / x.pl)

/-- The window return (R193). -/
def LaneIn.windowRet (x : LaneIn) (ex expect v : Nat) : Ret :=
  let conf := capConf (confidence (16 * ex) (16 * expect)) 2 x.degraded false x.late
  ⟨retWord 0 (min 4095 v) (min 255 (8 * pf x.ws 4 15 8)) conf 2 (min 4095 (x.a * x.pl / 2 ^ 6)) x.late.toNat, 0, conf, 2, 0⟩

/-- The returns of a lane that reports any (R181 to R193): `sn` answers the plough count kept for a candidate. -/
def LaneIn.returns (x : LaneIn) (h : Lane) (raws : List (List Nat)) (sn : Nat → Option Nat) (blank : Nat) : List Ret :=
  let wins := [h.win0, h.win1, h.win2]
  let one (w : Nat) : Option Ret :=
    let y := wins.getD w {}
    if !y.en then none
    else
      let l := live0 x.a wins raws w
      if 0 < y.exposure ∧ 1 ≤ l then x.harrow y (raws.getD w []) l.toNat h.cands[w]?
      else match h.cands[w]?, sn w with
        | some c, some k => if pf x.ws 4 1 1 = 1 ∧ pf x.ws 2 31 16 ≤ c.fval then x.plough c k else none
        | _, _ => none
  let found := (List.range 3).filterMap one
  let kept := (keepBest [] (found.foldl (fun l r => byConf r l) [])).foldl (fun l r => byRange r l) []
  let (ex, expect, v) := x.near blank
  if pf x.ws 4 0 0 = 1 ∧ x.pl ≠ 0 ∧ pf x.ws 4 31 16 ≤ ex ∧ kept.length ≤ 2 then x.windowRet ex expect v :: kept else kept

/-! ### Channel status and descriptors (R165, R166) -/

/-- STATUS of a lane (Table EP-5, R165). -/
def laneStatus (flags a k kMax : Nat) (poison soiled : Bool) : Nat :=
  let b (i : Nat) : Bool := flags.testBit i
  if b 4 then 0x30 else if b 5 then 0x31 else if b 7 then 0x32 else if b 10 then 0x34
  else if b 2 then 0x20 else if b 6 then 0x21 else if 768 ≤ a ∧ kMax ≤ k then 0x22
  else if b 3 then 0x10 else if b 9 then 0x11 else if b 1 then 0x12 else if poison then 0x13 else if soiled then 0x14
  else if b 0 then 1 else if b 11 then 2 else if b 8 then 3 else 0

/-- AMB_LOG of FALLOW_AMB `a` (R166): the integer nearest to 16 · log2 a is (⌊log2 a³²⌋ + 1) div 2. -/
def ambLog (a : Nat) : Nat := if a = 0 then 0 else min 254 (1 + (Nat.log2 (a ^ 32) + 1) / 2)

/-- LCR of a lane: the place, from 1, of its farthest credible return (R192). -/
def lastCredible (rs : List Ret) (least : Nat) : Nat :=
  (rs.zipIdx.foldl (fun (m : Nat × Nat) (r, i) =>
    if (r.cls = 0 ∨ r.cls = 1 ∨ r.cls = 3) ∧ least ≤ r.conf ∧ (m.1 = 0 ∨ m.2 < r.range) then (i + 1, r.range) else m) (0, 0)).1

/-! ### What range zero sums (R332) -/

/-- The header words of a lane that the program loads (R181, R192), its flags last. -/
def refWords : List Nat := [1, 3, 5, 6, 7, 8, 9, 10, 11, 12, 13, 14, 0]

/-- A load of lane `c`'s bins or header in bank `k` meets an uncorrectable or poisoned word. -/
def Bank.poisoned (k : Bank) (c : Nat) : Bool :=
  ((List.range 192).any fun i => (Tab.get okCond k.cond (binKey c (i / 64) (i % 64))).bad)
    || refWords.any fun i => (k.headCond (16 * c + i)).bad

/-- A candidate as its record reads where the low or the high word of it was returned as 0. -/
def Cand.shown (x : Cand) (low high : Bool) : Cand :=
  { centre := if high then 0 else x.centre, fval := if high then 0 else x.fval, width := if low then 0 else x.width
    edge := !low && x.edge, last := !low && x.last }

/-- A lane header as loads show it that return 0 for the words of which `bad` holds (R112). -/
def Lane.shown (h : Lane) (bad : Nat → Bool) : Lane :=
  let z (i v : Nat) : Nat := if bad i then 0 else v
  { h with
    flags := z 0 h.flags, litPlough := z 0 h.litPlough, litHarrow := z 0 h.litHarrow
    fallowAmb := z 1 h.fallowAmb, blankSum := z 1 h.blankSum
    kUsed := z 3 h.kUsed, unlitSlots := z 3 h.unlitSlots, harrowOut := z 3 h.harrowOut
    cands := if bad 5 then [] else h.cands.zipIdx.map fun e => e.1.shown (bad (6 + 2 * e.2)) (bad (7 + 2 * e.2))
    win0 := if bad 12 then {} else h.win0, win1 := if bad 13 then {} else h.win1, win2 := if bad 14 then {} else h.win2 }

/-- The program loads the header of lane `l`: the words returned as 0. -/
def State.refHeader (s : State) (n l : Nat) : List Nat × State :=
  refWords.foldl (fun (acc : List Nat × State) i =>
    let (_, p, s') := acc.2.refLoad n (0x27040 + 0x40 * l + 4 * i) 1
    (if p then i :: acc.1 else acc.1, s')) ([], s)

/-- The status of channel `c`'s lane of frozen bank `k` is of level VALID (Table EP-5, R332). -/
def State.laneValid (s : State) (k : Bank) (c : Nat) : Bool :=
  let l := k.lane c
  let t := s.tiller (c / 6)
  let ws := (if t.refPage.isEmpty then refPageReset else t.refPage).map BitVec.toNat
  decide (laneStatus l.flags l.fallowAmb l.kUsed (pf ws 0 10 8) (k.poisoned c) (s.refLane (c / 6) (c % 6)).soiled < 16)

/-- The range-zero item sums the frozen bank `b` of a point cycle that its recipe fired (R332): bins, exposures, fallow counts, and which
lanes were other than VALID. -/
def State.rzCollect (s : State) (b : Nat) : State :=
  if s.rd F.CAL_STATUS_ITEM ≠ 3 ∨ !(s.bank b).fire then s
  else
    let k := s.bank b
    let add (t : Tab Nat) (key v : Nat) : Tab Nat := if v = 0 then t else Tab.set (fun _ => 0) t key (Tab.get (fun _ => 0) t key + v)
    let lanes := List.range 1152
    let c := s.cal
    { s with cal := { c with
      rzCycles := c.rzCycles + 1
      rzBins := k.bins.foldl (fun t e => add t e.1 e.2) c.rzBins
      rzExp := lanes.foldl (fun t l => add t l (k.lane l).win0.exposure) c.rzExp
      rzAmb := lanes.foldl (fun t l => add t l (k.lane l).fallowAmb) c.rzAmb
      rzBad := lanes.foldl (fun t l => if s.laneValid k l then t else Tab.set (fun _ => 0) t l 1) c.rzBad } }

/-- BANK_FREEZE (R93, R115): the swapped bank is frozen and its bank-ready message posted. -/
def execBankFreeze (s : State) : Host.Outcome State Fault Refusal :=
  .next <| match s.his.freezing with
    | none => s
    | some (b, final) =>
      let s := s.hs fun h => { h with freezing := none }
      ((s.postReady b false final true).capFreeze b).rzCollect b

/-! ### Processing a bank (R181) -/

/-- What one lane gives: descriptor, LCR, returns. -/
structure LaneOut where
  desc : Nat
  lcr : Nat
  rets : List Ret

/-- The program processes lane `l` of work bank `b` at instant `t`. A lane whose LIT_PLOUGH is 0 has no v (R193), and its soiling state
stays as it is (DESIGN CHOICE, log entry 222). -/
def State.refProcess (s : State) (n b l t : Nat) (tNow : Int) : LaneOut × State :=
  let ws := (s.tiller n).refPage.map BitVec.toNat
  let (w0, p0, s) := s.refLoad n (0x27000 + 0x200 + l * 0x180) 32
  let (w1, p1, s) := s.refLoad n (0x27000 + 0x280 + l * 0x180) 32
  let (w2, p2, s) := s.refLoad n (0x27000 + 0x300 + l * 0x180) 32
  let raws := [halvesOf w0, halvesOf w1, halvesOf w2]
  let (lost, s) := s.refHeader n l
  -- the header as it stands after these loads, which may have set FABRIC_ECC (R95)
  let k := s.bank b
  let h := (k.lane (6 * n + l)).shown lost.contains
  let x := s.refLane n l
  let base : LaneIn := ⟨ws, tNow, l, h.fallowAmb, h.litPlough, x.aPrev, h.flags.testBit 0, false⟩
  let (_, _, v) := base.near h.blankSum
  let x := if h.litPlough = 0 then x else x.soil ws v t
  let x := if h.flags.testBit 4 || h.flags.testBit 5 || x.kLatch then x else x.depth ws h.fallowAmb h.kUsed t
  let status := laneStatus h.flags h.fallowAmb h.kUsed (pf ws 0 10 8)
    (p0 || p1 || p2 || !lost.isEmpty || Tab.get (fun _ => false) (s.tiller n).refBad (12 * k.pcIndex + 6 * k.run + l)) x.soiled
  let lin := { base with degraded := status / 16 == 1 }
  let sn (w : Nat) : Option Nat :=
    match Tab.get (fun _ => 0) (s.tiller n).refSn (36 * k.pcIndex + 18 * k.run + 3 * l + w) with
    | 0 => none
    | m + 1 => some m
  let rs := if 0x20 ≤ status then [] else lin.returns h raws sn h.blankSum
  let x := { x with aPrev := h.fallowAmb, count := satAdd 32 x.count rs.length }
  (⟨rs.length * 2 ^ 14 + status * 2 ^ 8 + ambLog h.fallowAmb, lastCredible rs (pf ws 3 3 0), rs⟩, s.setRefLane n l x)

/-- Depth writes that are held go out as soon as they can (R180). -/
def State.refDepths (s : State) (n t : Nat) : State :=
  s.forN 6 fun l s =>
    let x := s.refLane n l
    if x.held = 0 then s
    else
      let (sent, s) := s.refSend n t (2 ^ 30 + l * 2 ^ 27 + x.held)
      if sent then s.setRefLane n l { x with held := 0 } else s

/-- The bytes of a block (Table EP-1) of furrow `n` for the bank's header words `k` and the bank-ready message `m`. -/
def refBlock (k : List Nat) (n m : Nat) (outs : List LaneOut) : List Byte :=
  let rets := outs.flatMap LaneOut.rets
  let lcr := (outs.zipIdx.map fun (o, l) => o.lcr * 2 ^ (16 + 2 * l)).sum
  bytesOf 4 (k.getD 2 0) ++ bytesOf 4 (k.getD 3 0) ++ bytesOf 4 (k.getD 0 0 * 2 ^ 8 + n) ++ bytesOf 4 (k.getD 4 0)
    ++ outs.flatMap (fun o => bytesOf 2 o.desc)
    ++ bytesOf 4 (2 ^ 28 + lcr + bits m 35 35 * 2 ^ 13 + bits m 32 32 * 2 ^ 12 + bits m 33 33 * 2 ^ 11 + rets.length)
    ++ rets.flatMap fun r => bytesOf 8 r.word

/-- The program emits the block it has built in its data memory, from 0x1_0000 on (R155, R121). -/
def State.refEmit (s : State) (n : Nat) (b : List Byte) : State :=
  let s := s.onTiller n fun t => { t with
    dmem := Mem.store 0 t.dmem 0 b, dmemCond := Tab.clear t.dmemCond 0 (b.length / 4) }
  s.refIssueEmit n b.length

/-- The bank-ready message `m` of an owned bank `b` is processed at instant `t`. -/
def State.refBank (s : State) (n b m t : Nat) : State :=
  let (w, _, s) := s.refLoad n 0x1E004 1
  let tNow := signed 16 (w.getD 0 0)
  let s := s.refDepths n t
  let (outs, s) := (List.range 6).foldl (fun (acc : List LaneOut × State) l =>
    let (o, s) := acc.2.refProcess n b l t tNow
    (acc.1 ++ [o], s)) ([], s)
  let s := s.refDepths n t
  let k := s.bank b
  let s := s.onTiller n fun x =>
    { (List.range 6).foldl (fun y l => y.putWords (0x1E200 + 16 * l) ((Tab.get (fun _ => ({} : RefLane)) x.refLanes l).words)) x with
      refSn := Tab.clear x.refSn (36 * k.pcIndex + 18 * k.run) (36 * k.pcIndex + 18 * k.run + 18)
      refBad := Tab.clear x.refBad (12 * k.pcIndex + 6 * k.run) (12 * k.pcIndex + 6 * k.run + 6) }
  let (hw, _, s) := s.refLoad n 0x27000 5
  (s.refScratch n).refEmit n (refBlock hw n m outs)

/-- PROGRAM_BANK_PROCESS (R174, R181) at instant `t` (ps): the reference program on tiller `n` takes its next bank-ready message,
answering the candidates before it, adopts a page, and processes and emits the bank, if the message passed one. -/
def execProgramBankProcess (n : Fin 192) (t : Nat) (s : State) : Host.Outcome State Fault Refusal :=
  .next <|
    let x := s.tiller n
    if s.tilStopped || !x.refRuns || x.state != .running || x.haltReq || x.inTrap then s
    else
      let s := s.refAnswers n t x.candQ.length
      match (s.tiller n).candQ with
      | [] => s
      | m :: q =>
        if isCandidate m then s
        else
          let s := ((s.onTiller n fun y => { y with candQ := q }).refAdopt n).refRelease n
          if (s.tiller n).state ≠ .running then s
          else match (s.tiller n).own with
            | some (b, _) => if m.getLsbD 34 then s else s.refBank n b m.toNat t
            | none => s

end Sys2Proof.Machine
end

