-- ==== Sys2Proof/Machine/Meridian.lean ====
section
/-! DEFINITION. The meridian bus (R274 to R286): frames, ranging, alignment, epochs and application. Instants marked in codes count
39.0625 ps on the unit's own time base. -/

namespace Sys2Proof.Machine

/-- Changes the meridian bus's own state. -/
def State.mb (s : State) (f : Mer → Mer) : State := { s with mer := f s.mer }

/-! ### Bus states (MER_STATUS.STATE) -/

def bOFF : Nat := 0
def bLISTEN : Nat := 1
def bRANGING : Nat := 2
def bALIGNED : Nat := 3
def bLOST : Nat := 4
def bMASTER : Nat := 5

/-- The bus state, and the unit's identity. -/
def State.bst (s : State) : Nat := s.rd F.MER_STATUS_STATE
def State.unit (s : State) : Nat := s.rd F.MER_STATUS_ID

/-- The unit is a slave that takes part in the bus. -/
def State.slave (s : State) : Bool := s.unit != 0 && (s.bst == bLISTEN || s.bst == bRANGING || s.bst == bALIGNED || s.bst == bLOST)

/-- The unit is a master that listens before it transmits (R282). -/
def State.listening (s : State) : Bool := s.unit == 0 && s.bst == bLISTEN

/-! ### Enable (R282) -/

/-- MER_CTRL.EN is set: the unit listens. -/
def State.merEnable (s : State) : State :=
  if s.on F.MER_CTRL_EN then s else { (s.wr F.MER_CTRL_EN 1).wr F.MER_STATUS_STATE bLISTEN with mer := {} }

/-- MER_CTRL.EN is cleared: the bus is OFF and keeps nothing of its run. -/
def State.merDisable (s : State) : State :=
  let s := (((s.wr F.MER_CTRL_EN 0).wr F.MER_STATUS_STATE bOFF).wr F.MER_STATUS_UNITS_OK 0).wr F.MER_STATUS_PC_WAIT 0
  { (s.wr F.MER_STATUS_AS_HOLD 0).wr F.MER_STATUS_ID_CONFLICT 0 with mer := {} }

/-- MERIDIAN_ENABLE (R282). -/
def execMeridianEnable (s : State) : Host.Outcome State Fault Refusal := .next (s.access s.mainStopped State.merEnable)

/-- LISTEN_END (R282, R285) at instant `t` (ps): a master that heard no frame enters MASTER, and its first free-running EPOCH is due. -/
def execListenEnd (t : Nat) (s : State) : Host.Outcome State Fault Refusal :=
  .next <|
    if !s.listening || s.on F.MER_STATUS_ID_CONFLICT then s
    else
      let s := s.wr F.MER_STATUS_STATE bMASTER
      if s.on F.MER_EPOCH_CFG_SRC then s
      else s.mb fun m => { m with epochs := 1, lastEpoch := some t, due := m.due ++ [⟨.epoch, 0, 1⟩] }

/-- Conflicts and ranging clear, and ranging restarts (R282). -/
def State.rtRestart (s : State) : State :=
  if s.unit ≠ 0 ∨ !s.on F.MER_CTRL_EN then s
  else
    let s := (s.wr F.MER_STATUS_ID_CONFLICT 0).wr F.MER_STATUS_UNITS_OK 0
    let s := s.forN 8 fun n s => s.setReg (R.MER_RT n) 0
    s.mb fun m => { m with sumRT := [], pongs := [], seeds := [], badRun := [], conflicts := 0, lastPing := 0 }

/-- RT_RESTART (R282). -/
def execRtRestart (s : State) : Host.Outcome State Fault Refusal := .next (s.access s.mainStopped State.rtRestart)

/-! ### Frames that fall due at the master (R277, R279, R285) -/

/-- A write of MER_CTRL.TRIG on the master. -/
def State.trigSend (s : State) : State :=
  if s.bst = bMASTER then
    s.mb fun m => { m with trigs := (m.trigs + 1) % 2 ^ 40, due := m.due ++ [⟨.trig, 0, (m.trigs + 1) % 2 ^ 40⟩] }
  else s

/-- TRIG_SEND (R277). -/
def execTrigSend (s : State) : Host.Outcome State Fault Refusal := .next (s.access s.mainStopped State.trigSend)

/-- Epochs follow the 802.1AS clock, and it is synchronised (R285). -/
def State.epochAligned (s : State) : Bool := s.on F.MER_EPOCH_CFG_SRC && s.on F.LNK_PTP_STATUS_SYNCED

/-- Nanoseconds from instant `t` (ps) to the next instant at which an EPOCH launched then would be applied where the 802.1AS clock's
count modulo PERIOD × 1000 equals MER_EPOCH_PHASE (R278, R285). -/
def State.nsToEpoch (s : State) (t : Nat) : Nat :=
  let p := s.rd F.MER_EPOCH_CFG_PERIOD * 1000
  (s.rd F.MER_EPOCH_PHASE_PHASE + p - s.ptpNs (t + 625 * s.rd F.MER_LAT_LAT) % p) % p

/-- An EPOCH of the running period is due by instant `t` (ps): PERIOD after the last one (R285). -/
def State.periodOver (s : State) (t : Nat) : Bool :=
  s.mer.lastEpoch.any fun l => decide (l + s.rd F.MER_EPOCH_CFG_PERIOD * 1000000 ≤ t)

/-- An EPOCH falls due at instant `t` (ps): one nanosecond of the aligned clock gives one EPOCH; in holdover the period goes on from the
last EPOCH, and none has gone out before the first (R285). -/
def State.epochFalls (s : State) (t : Nat) : Bool :=
  if s.epochAligned then s.nsToEpoch t == 0 && s.mer.lastEpoch.all fun l => decide (l + 1000 ≤ t)
  else s.periodOver t || (s.mer.lastEpoch.isNone && !s.on F.MER_EPOCH_CFG_SRC)

/-- EPOCH_DUE (R285) at instant `t` (ps): the master's next EPOCH falls due; entering 802.1AS holdover is raised. -/
def execEpochDue (t : Nat) (s : State) : Host.Outcome State Fault Refusal :=
  .next <|
    if s.bst ≠ bMASTER then s
    else
      let hold := s.on F.MER_EPOCH_CFG_SRC && !s.on F.LNK_PTP_STATUS_SYNCED
      let falls := s.epochFalls t
      let s := (s.raiseIf (hold && !s.on F.MER_STATUS_AS_HOLD) 453).put F.MER_STATUS_AS_HOLD hold
      if falls then
        s.mb fun m => { m with
          epochs := (m.epochs + 1) % 2 ^ 40, lastEpoch := some t, due := m.due ++ [⟨.epoch, 0, (m.epochs + 1) % 2 ^ 40⟩] }
      else s

/-- The unit to ping after unit `u`: the next of UNITS in ascending order that is not in conflict (R279, R282). -/
def State.nextPing (s : State) (u : Nat) : Option Nat :=
  (List.range 8).findSome? fun i =>
    let v := (u + 1 + i) % 8
    if v ≠ 0 ∧ (s.rd F.MER_CFG_UNITS).testBit v ∧ !s.mer.conflicts.testBit v then some v else none

/-- PING_DUE (R279). -/
def execPingDue (s : State) : Host.Outcome State Fault Refusal :=
  .next <|
    if s.bst ≠ bMASTER then s
    else match s.nextPing s.mer.lastPing with
      | some u => s.mb fun m => { m with lastPing := u, due := m.due ++ [⟨.ping, u, 0⟩] }
      | none => s

/-! ### Launching (R275, R277, R278) -/

/-- TYPE of a frame (Table MS-1). -/
def MerKind.type : MerKind → Nat
  | .sweep => 1
  | .epoch => 2
  | .ping => 3
  | .pong => 4
  | .delay => 5
  | .trig => 6

/-- Rank of a frame in the master's order of priority, 0 first (R277). -/
def MerKind.rank : MerKind → Nat
  | .sweep => 0
  | .epoch => 1
  | .trig => 2
  | .delay => 3
  | .ping => 4
  | .pong => 5

/-- The 55 bits of a frame: TYPE, ID, PAYLOAD, CRC (R275, R276). -/
def merFrame (k : MerKind) (id payload : Nat) : Nat :=
  let v := (k.type * 8 + id) * 2 ^ 40 + payload
  v * 2 ^ 8 + crc8 47 v

/-- The first frame of highest priority, and the rest. -/
def takeFirst : List MerDue → Option (MerDue × List MerDue)
  | [] => none
  | d :: r => match takeFirst r with
    | none => some (d, r)
    | some (e, r') => if e.kind.rank < d.kind.rank then some (e, d :: r') else some (d, r)

/-- An EPOCH falls due within the 3.7 µs that follow instant `t` (ps) (R277). -/
def State.epochNear (s : State) (t : Nat) : Bool :=
  if s.epochAligned then decide (s.nsToEpoch t ≤ 3700) else s.periodOver (t + 3700000)

/-- FRAME_LAUNCH (R277, R278) at instant `t` (ps), `a` in codes: the line is free and the first due frame of highest priority leaves.
A PING waits while an EPOCH falls due within 3.7 µs. -/
def execFrameLaunch (t a : Nat) (s : State) : Host.Outcome State Fault Refusal :=
  .next <|
    if s.bst ≠ bMASTER || s.mer.ping.isSome then s
    else match takeFirst s.mer.due with
      | none => s
      | some (d, rest) =>
        if d.kind = .ping ∧ s.epochNear t then s
        else
          let s := s.mb fun m => { m with due := rest, sent := merFrame d.kind d.unit d.payload }
          match d.kind with
          | .ping => s.mb fun m => { m with ping := some (d.unit, a) }
          | .delay => s
          | k => s.mb fun m => { m with apply := m.apply ++ [(k, t + 625 * s.rd F.MER_LAT_LAT)] }

/-! ### Application (R278, R284 to R286) -/

/-- A SWEEP, EPOCH or TRIG frame takes effect at instant `t` (ps). A slave that is not ALIGNED applies no SWEEP or EPOCH. -/
def State.applyFrame (s : State) (k : MerKind) (t : Nat) : State :=
  let in_ := s.bst == bMASTER || s.bst == bALIGNED
  match k with
  | .sweep => if in_ && s.hlm.src == 2 then s.hl fun h => { h with syncs := h.syncs + 1 } else s
  | .epoch =>
    if in_ then
      let s := s.hl fun h => { h with epoch := true }
      if s.his.due then (s.wr F.MER_STATUS_PC_WAIT 0).hs fun h => { h with epoch := true } else s
    else s
  | .trig => s.capEvent 6 t
  | _ => s

/-- FRAME_APPLICATION (R278) at instant `t` (ps): the next scheduled frame applies. -/
def execFrameApplication (t : Nat) (s : State) : Host.Outcome State Fault Refusal :=
  .next <| match s.mer.apply with
    | [] => s
    | (k, _) :: rest => (s.mb fun m => { m with apply := rest }).applyFrame k t

/-! ### Received frames: alignment, loss, conflicts (R280 to R282) -/

/-- The phase of one frame, in 1/16 code (R280). -/
def State.framePhase (s : State) (b : Nat) : Int :=
  (16 * (b : Int) - s.rd F.MER_DELAY_D16 + 128) % 256 - 128

/-- What every valid master frame does to a slave, its timing edge at code `b`: a LOST slave ranges again, and the phase enters the
average unless steps remain (R280, R281). On a listening master it is a conflict (R282). -/
def State.masterFrame (s : State) (b : Nat) : State :=
  let s := s.count 6 3 0 1
  if s.listening then
    if s.on F.MER_STATUS_ID_CONFLICT then s else (s.wr F.MER_STATUS_ID_CONFLICT 1).raise 452
  else if s.slave then
    let s := if s.bst = bLOST then s.wr F.MER_STATUS_STATE bRANGING else s
    if s.mer.haveD16 ∧ s.mer.steps = 0 ∧ s.mer.phiN < 16 then
      s.mb fun m => { m with phiSum := m.phiSum + s.framePhase b, phiN := m.phiN + 1 }
    else s
  else s

/-- The application instant of a received frame, in codes: LAT after the coarse edge nearest to the launch (R278). -/
def State.appliesAt (s : State) (b : Nat) : Int :=
  16 * ((16 * (b : Int) - s.rd F.MER_DELAY_D16 + 128) / 256 + s.rd F.MER_LAT_LAT)

/-- A slave schedules a frame received at code `b`, decoded 600 ns later; one decoded less than 100 ns before its instant applies at
once and counts as late, a SWEEP or EPOCH only on an ALIGNED slave, which alone applies it (R278). -/
def State.schedule (s : State) (k : MerKind) (b : Nat) : State :=
  if !s.slave then s
  else
    let at_ := s.appliesAt b
    if at_ < (b : Int) + 17920 then
      if k = .trig ∨ s.bst = bALIGNED then
        ((s.bump F.MER_CNT_LATE_COUNT 1).raise 451).applyFrame k ((b + 15360) * 625 / 16)
      else s
    else s.mb fun m => { m with apply := m.apply ++ [(k, at_.toNat * 625 / 16)] }

/-- SWEEP_FRAME (R284): its timing edge at code `b`. -/
def execSweepFrame (b : Nat) (s : State) : Host.Outcome State Fault Refusal := .next ((s.masterFrame b).schedule .sweep b)

/-- EPOCH_FRAME (R285): its timing edge at code `b`. -/
def execEpochFrame (b : Nat) (s : State) : Host.Outcome State Fault Refusal := .next ((s.masterFrame b).schedule .epoch b)

/-- TRIG_FRAME (R278): its timing edge at code `b`. -/
def execTrigFrame (b : Nat) (s : State) : Host.Outcome State Fault Refusal := .next ((s.masterFrame b).schedule .trig b)

/-- PING_FRAME (R279): a PING for `unit`, its timing edge at code `b`. -/
def execPingFrame (unit : Fin 8) (b : Nat) (s : State) : Host.Outcome State Fault Refusal :=
  .next <|
    let s := s.masterFrame b
    if s.slave ∧ unit.val = s.unit then s.mb fun m => { m with pingAt := some b } else s

/-- PONG_LAUNCH (R279): the slave answers at its first coarse edge at or after B + 1 µs. -/
def execPongLaunch (s : State) : Host.Outcome State Fault Refusal :=
  .next <| match s.mer.pingAt with
    | none => s
    | some b =>
      let c := (b + 25600 + 15) / 16 * 16
      s.mb fun m => { m with
        pingAt := none, sent := merFrame .pong s.unit (2 ^ 24 * s.rd F.EMI_SIG_CFG_SEED + (c - b)) }

/-- The master marks unit `u` as in conflict (R282). -/
def State.unitConflict (s : State) (u : Nat) : State :=
  if s.mer.conflicts.testBit u then s
  else
    let s := (s.wr F.MER_STATUS_ID_CONFLICT 1).wr F.MER_STATUS_UNITS_OK (withBit (s.rd F.MER_STATUS_UNITS_OK) u false)
    (s.mb fun m => { m with conflicts := withBit m.conflicts u true }).raise 452

/-- PONG_FRAME (R279, R282): a valid PONG of `unit` with its `seed` and residual `r`, its timing edge at code `d`. -/
def execPongFrame (unit : Fin 8) (seed r : BitVec 16) (d : Nat) (s : State) : Host.Outcome State Fault Refusal :=
  .next <|
    if s.listening then s.masterFrame d
    else match s.mer.ping with
      | none => s.count 6 3 0 1
      | some (u, a) =>
        let s := s.count 6 3 0 1
        if u ≠ unit.val then s
        else
          let s := s.mb fun m => { m with ping := none, badRun := Tab.set (fun _ => 0) m.badRun u 0 }
          let first := Tab.get (fun _ => 0) s.mer.seeds u
          if first ≠ 0 ∧ first ≠ seed.toNat + 1 then s.unitConflict u
          else s.mb fun m => { m with
            seeds := Tab.set (fun _ => 0) m.seeds u (seed.toNat + 1)
            sumRT := Tab.set (fun _ => 0) m.sumRT u (Tab.get (fun _ => 0) m.sumRT u + ((d : Int) - a - r.toNat))
            pongs := Tab.set (fun _ => 0) m.pongs u (Tab.get (fun _ => 0) m.pongs u + 1) }

/-- PONG_TIMEOUT (R279). -/
def execPongTimeout (s : State) : Host.Outcome State Fault Refusal := .next (s.mb fun m => { m with ping := none })

/-- DELAY_COMPUTE (R279): a unit has 64 valid PONGs; its one-way delay is stored and a DELAY frame is due. -/
def execDelayCompute (s : State) : Host.Outcome State Fault Refusal :=
  .next <|
    if s.bst ≠ bMASTER then s
    else match (List.range 8).find? fun u => decide (64 ≤ Tab.get (fun _ => 0) s.mer.pongs u) with
      | none => s
      | some u =>
        let d := unsigned 24 ((Tab.get (fun _ => 0) s.mer.sumRT u + 4) / 8)
        let s := ((s.wr (F.MER_RT_VALID u) 1).wr (F.MER_RT_D16 u) d).wr F.MER_STATUS_UNITS_OK
          (if s.mer.conflicts.testBit u then s.rd F.MER_STATUS_UNITS_OK else withBit (s.rd F.MER_STATUS_UNITS_OK) u true)
        s.mb fun m => { m with
          sumRT := Tab.set (fun _ => 0) m.sumRT u 0, pongs := Tab.set (fun _ => 0) m.pongs u 0, due := m.due ++ [⟨.delay, u, d⟩] }

/-- DELAY_FRAME (R280): a DELAY for `unit` with `d16`, its timing edge at code `b`. -/
def execDelayFrame (unit : Fin 8) (d16 : BitVec 24) (b : Nat) (s : State) : Host.Outcome State Fault Refusal :=
  .next <|
    let s := s.masterFrame b
    if s.slave ∧ unit.val = s.unit then
      let s := (s.wr F.MER_DELAY_D16 d16.toNat).mb fun m => { m with haveD16 := true }
      if s.bst = bLISTEN then s.wr F.MER_STATUS_STATE bRANGING else s
    else s

/-- BAD_FRAME (R276, R282): a frame with a bad CRC or a reserved TYPE; in answer to a PING it is a bad PONG, the fourth in a row of
which marks the unit. -/
def execBadFrame (s : State) : Host.Outcome State Fault Refusal :=
  .next <|
    if s.bst = bOFF then s
    else
      let s := (s.raiseIf (s.rd F.MER_CNT_FRAME_ERR_COUNT == 0) 450).bump F.MER_CNT_FRAME_ERR_COUNT 1
      match s.mer.ping with
      | none => s
      | some (u, _) =>
        let n := Tab.get (fun _ => 0) s.mer.badRun u + 1
        let s := s.mb fun m => { m with ping := none, badRun := Tab.set (fun _ => 0) m.badRun u n }
        if n = 4 then s.unitConflict u else s

/-- The slave enters LOST (R281). -/
def State.merLost (s : State) : State :=
  ((s.wr F.MER_STATUS_STATE bLOST).mb fun m => { m with steps := 0, phiSum := 0, phiN := 0, good := 0 }).raise 449

/-- ALIGNMENT_AVERAGE (R280, R281): 16 phases are averaged, steps are planned, and the slave may become ALIGNED, or LOST. -/
def execAlignmentAverage (s : State) : Host.Outcome State Fault Refusal :=
  .next <|
    if !s.slave || s.mer.phiN < 16 then s
    else
      let sum := s.mer.phiSum
      let s := (s.wrS F.MER_PHASE_PHI ((sum + 8) / 16)).mb fun m => { m with
        phiSum := 0, phiN := 0, steps := (-sum + 16) / 32, good := if sum.natAbs ≤ 32 then min (m.good + 1) 4 else 0 }
      if s.bst = bALIGNED ∧ 1024 < sum.natAbs then s.merLost
      else if s.bst = bRANGING ∧ s.mer.good = 4 then (s.wr F.MER_STATUS_STATE bALIGNED).raise 448
      else s

/-- PHASE_STEP (R280): one step of the main PLL; while point cycles run, one in each fallow slot. -/
def execPhaseStep (s : State) : Host.Outcome State Fault Refusal :=
  .next <|
    let fallow := match s.his.cur with
      | some x => x.kind == .fallow
      | none => false
    if s.mer.steps = 0 ∨ s.bst = bLOST ∨ (s.running ∧ (!fallow ∨ s.mer.stepped)) then s
    else
      let d : Int := if 0 < s.mer.steps then 1 else -1
      (s.wrS F.MER_PHASE_STEPS (s.rdS F.MER_PHASE_STEPS + d)).mb fun m => { m with steps := m.steps - d, stepped := true }

/-- MERIDIAN_LOST (R281): no valid master frame for 8 ping intervals. -/
def execMeridianLost (s : State) : Host.Outcome State Fault Refusal :=
  .next (if s.slave ∧ (s.bst = bALIGNED ∨ s.bst = bRANGING) then s.merLost else s)

end Sys2Proof.Machine
end

