-- ==== Sys2Proof/Machine/Adc.lean ====
section
/-! DEFINITION. Analog acquisition (R306 to R325): scan, sample words, urgent requests, front ends, ranging, excitation. -/

namespace Sys2Proof.Machine

/-- Front end `i` beside its registers. -/
def State.fe (s : State) (i : Nat) : Fe := Tab.get (fun _ => {}) s.adc.fe i

/-- Changes front end `i`. -/
def State.onFe (s : State) (i : Nat) (f : Fe → Fe) : State :=
  { s with adc := { s.adc with fe := Tab.set (fun _ => {}) s.adc.fe i (f (s.fe i)) } }

/-- MODE of front end `i` (Table AA-2): 0 OFF, 1 VOLT, 2 2-wire, 3 3-wire, 4 4-wire. -/
def State.feMode (s : State) (i : Nat) : Nat := s.rd (F.ADC_FE_CFG_MODE i)

/-- The mode excites the sensor; the mode is 3-wire or 4-wire. -/
def excites (m : Nat) : Bool := m == 2 || m == 3 || m == 4
def paired (m : Nat) : Bool := m == 3 || m == 4

/-- The partner of front end `i`. -/
def partner (i : Nat) : Nat := if i % 2 = 0 then i + 1 else i - 1

/-- The converter and the front ends run: enabled, in no mode that stops them, their clock running (R323). -/
def State.adcRuns (s : State) : Bool := s.on F.ADC_CTRL_EN && !s.tilHeld && !s.mainStopped

/-! ### Scan entries (R311, R314) -/

/-- Input `n` can be sampled by the scan: its front end is neither OFF nor outside its pulse window (R311). -/
def State.available (s : State) (n : Nat) : Bool :=
  decide (n < 16) ||
    (s.feMode (n - 16) != 0
      && (!excites (s.feMode (n - 16)) || s.rd (F.ADC_FE_PULSE_PERIOD (n - 16)) == 0 || s.on (F.ADC_FE_STATUS_IN_WINDOW (n - 16))))

/-- Input `n` has an entry now, its turn apart. -/
def State.scanned (s : State) (n : Nat) : Bool := (s.rd F.ADC_SCAN_MASK_MASK).testBit n && s.available n

/-- EVERY of input `n` as a divisor of round numbers. -/
def State.every (s : State) (n : Nat) : Nat := 2 ^ s.rd (F.ADC_IN_CFG_EVERY n)

/-- The next scan entry after `last` inputs of round `r`: its input and round, above 2^16 past the wrap; none where no input is
eligible. -/
def State.nextEntry (s : State) (r last : Nat) : Option (Nat × Nat) :=
  let live := (List.range 24).filter fun n => s.scanned n
  match live.find? fun n => decide (last ≤ n) && r % s.every n == 0 with
  | some n => some (n, r)
  | none =>
    match live.map fun n => (r / s.every n + 1) * s.every n with
    | [] => none
    | q :: qs =>
      let r' := qs.foldl min q
      (live.find? fun n => r' % s.every n == 0).map fun n => (n, r')

/-- The scan's next entry is the one after `last` inputs of round `r`, shown in ADC_STATUS (R324); `skip` tells from where rounds have
been empty. -/
def State.takeEntry (s : State) (r last : Nat) (skip : Option (Nat × Nat)) : State :=
  match s.nextEntry r last with
  | some (n, q) =>
    { s.wr F.ADC_STATUS_ENTRY n with adc := { s.adc with entry := some n, round := q, last := last, skipped := if q = r then none else skip } }
  | none => { s with adc := { s.adc with entry := none, round := r, last := last, skipped := skip } }

/-- The scan's entry begins after `last` inputs of the round (R311). -/
def State.beginEntry (s : State) (last : Nat) : State :=
  let r := s.adc.round % 2 ^ 16
  s.takeEntry r last (some (r, s.adc.lastAt))

/-- The entry at hand lies behind skipped rounds that have not passed yet: at instant `t` (ps) they have once its own round has come; an
event without an instant is taken to fall among them (DESIGN CHOICE, log entry 227). -/
def State.skipping (s : State) (t : Option Nat) : Bool :=
  match s.adc.skipped with
  | none => false
  | some (r, a) => decide (r + 1 < s.adc.round) && t.all fun u => decide (u < a + 12500 * (s.adc.round - r - 1))

/-- A register or a window has changed, at instant `t` where it is known: the entry in progress stands while its input can be sampled,
whatever the scan mask says now (R314). Otherwise the scan takes its next entry; while it skips rounds, the rounds still to come are
judged anew (R311). -/
def State.keepEntry (s : State) (t : Option Nat) : State :=
  if !s.on F.ADC_CTRL_EN then s
  else match s.adc.entry, s.adc.skipped with
    | some n, some (r, a) =>
      if s.skipping t then s.takeEntry (r + (t.map fun u => (u - a) / 12500).getD 0) 24 (some (r, a))
      else if s.available n then s else s.beginEntry (n + 1)
    | some n, none => if s.available n then s else s.beginEntry (n + 1)
    | none, some (r, a) => s.takeEntry (r + (t.map fun u => (u - a) / 12500).getD 0) 24 (some (r, a))
    | none, none => s.beginEntry s.adc.last

/-- The round of the entry of input `n` that a sample at instant `t` ends: at least the earliest it could be in, and as many rounds after
the last one as there were empty clocks before it (R311). -/
def State.roundOf (s : State) (n t : Nat) : Nat :=
  match s.adc.skipped with
  | none => s.adc.round
  | some (r, a) =>
    let e := s.every n
    max s.adc.round ((r + (t - a) / 12500 - s.rd (F.ADC_IN_CFG_ACQ n)) / e * e) % 2 ^ 16

/-! ### Ranging (R319 to R321) -/

/-- Front end `i`'s gain becomes `g` at instant `t`. More than 8 changes within 60 s set the flapping latch, which takes the lowest
gain of those 60 s, but for a front end of fixed gain, which samples never change (R319 to R321). -/
def State.setGain (s : State) (i g t : Nat) : State :=
  let f := s.fe i
  if g = f.gain then s.onFe i fun f => { f with down := 0 }
  else
    let all := f.changes ++ [(t, g)]
    let kept := all.filter fun e => decide (t < e.1 + 60000000000000)
    let gone := all.filter fun e => !decide (t < e.1 + 60000000000000)
    let before := (gone.getLast?.map Prod.snd).getD (if f.changes.isEmpty then f.gain else f.before)
    let flaps := decide (8 < kept.length) && !s.on (F.ADC_FE_STATUS_RANGE_FLAP i)
    let g' := if flaps && s.on (F.ADC_FE_CFG_AUTO i) then (kept.map Prod.snd).foldl min before else g
    let s := s.onFe i fun f => { f with
      gain := g', down := 0, changes := kept, before := before, switching := true, changedAt := some t }
    let s := s.wr (F.ADC_FE_STATUS_RANGE i) g'
    if flaps then
      ((s.wr (F.ADC_FE_STATUS_RANGE_FLAP i) 1).wr F.ADC_FLAP_STATUS_FLAP (withBit (s.rd F.ADC_FLAP_STATUS_FLAP) i true)).raise 465
    else s

/-- The front end starts again at instant `t`: at ×1 when it ranges (R319), at FIXED when it does not. -/
def State.gainStart (s : State) (i t : Nat) : State :=
  s.setGain i (if s.on (F.ADC_FE_CFG_AUTO i) then 0 else s.rd (F.ADC_FE_CFG_FIXED i)) t

/-! ### Settle timers, pulses, swaps (R316 to R318) -/

/-- Restarts front end `i`'s settle timer, and its partner's in 3-wire and 4-wire (R317). The timers run only while EN = 1. A window that
is open stays open until the off-edge (R316). -/
def State.settle1 (s : State) (i : Nat) : State := if s.on F.ADC_CTRL_EN then s.wr (F.ADC_FE_STATUS_SETTLING i) 1 else s
def State.settleFe (s : State) (i : Nat) : State :=
  let s := s.settle1 i
  if paired (s.feMode i) ∨ paired (s.feMode (partner i)) then s.settle1 (partner i) else s

/-- The front end swaps its excitation pins and sense polarity (R318). -/
def State.swapFe (s : State) (i : Nat) : State := s.wr (F.ADC_FE_STATUS_SWAP i) (1 - s.rd (F.ADC_FE_STATUS_SWAP i))

/-- Whether front end `i` swaps at all. -/
def State.swaps (s : State) (i : Nat) : Bool := s.on (F.ADC_FE_SWAP_SWAP_EN i) && paired (s.feMode i)

/-- The sampling window of a pulse that is on opens, if it has one (R316). -/
def State.openWindow (s : State) (i : Nat) : State :=
  if s.rd (F.ADC_FE_PULSE_PERIOD i) ≠ 0 ∧ (s.fe i).on ∧ !s.on (F.ADC_FE_STATUS_NO_WINDOW i) then s.wr (F.ADC_FE_STATUS_IN_WINDOW i) 1
  else s

/-- Instant `t` (ps) has come: the windows whose on-edge lies SETTLE back are open (R316), a write that restarted their settle timers
notwithstanding (log entry 193). -/
def State.windowsAt (s : State) (t : Nat) : State :=
  let s := s.forN 8 fun i s =>
    if (s.fe i).onAt.any fun u => decide (u + 1000000 * s.rd (F.ADC_FE_CFG_SETTLE i) ≤ t) then s.openWindow i else s
  match s.adc.entry with
  | none => s.keepEntry (some t)
  | some _ => if s.skipping (some t) then s.keepEntry (some t) else s

/-- SETTLE_END (R317): a settle timer expires; the sampling window of a pulse that is still on is open by now, if it has one (R316). -/
def execSettleEnd (i : Fin 8) (s : State) : Host.Outcome State Fault Refusal :=
  .next <|
    if !s.on (F.ADC_FE_STATUS_SETTLING i) then s
    else ((s.wr (F.ADC_FE_STATUS_SETTLING i) 0).openWindow i).keepEntry none

/-- EXCITATION_PULSE_ON (R316): the next on-edge, whose instant follows from the write of the mode; the settle timer restarts, and with
SWAP_EN the phase swaps. -/
def execExcitationPulseOn (i : Fin 8) (s : State) : Host.Outcome State Fault Refusal :=
  .next <|
    if s.rd (F.ADC_FE_PULSE_PERIOD i) = 0 then s
    else
      let s := s.onFe i fun f => { f with
        pulse := f.pulse + 1, onAt := f.modeAt.map fun u => u + 10000000 * s.rd (F.ADC_FE_PULSE_PERIOD i) * f.pulse }
      if !s.adcRuns || !excites (s.feMode i) then s
      else
        let s := (s.onFe i fun f => { f with on := true }).wr (F.ADC_FE_STATUS_IN_WINDOW i) 0
        let s := if s.swaps i then s.swapFe i else s
        (s.settleFe i).keepEntry none

/-- EXCITATION_PULSE_OFF (R316). -/
def execExcitationPulseOff (i : Fin 8) (s : State) : Host.Outcome State Fault Refusal :=
  .next (if s.rd (F.ADC_FE_PULSE_PERIOD i) = 0 then s
    else ((s.onFe i fun f => { f with on := false }).wr (F.ADC_FE_STATUS_IN_WINDOW i) 0).keepEntry none)

/-- CURRENT_SWAP (R318): continuous excitation swaps. -/
def execCurrentSwap (i : Fin 8) (s : State) : Host.Outcome State Fault Refusal :=
  .next (if s.adcRuns ∧ s.swaps i ∧ s.rd (F.ADC_FE_PULSE_PERIOD i) = 0 then (s.swapFe i).settleFe i else s)

/-! ### Enable and disable (R314, R323) -/

/-- EN is set at instant `t` (ps): round 0 at the lowest enabled input, every front end restarting. The host's waiting request is served
where the helm has none (R313). -/
def State.adcEnable (s : State) (t : Nat) : State :=
  if s.on F.ADC_CTRL_EN then s
  else
    let s := { (s.wr F.ADC_CTRL_EN 1).wr F.ADC_STATUS_RUNNING 1 with
      adc := { s.adc with round := 0, last := 0, entry := none, skipped := none, lastAt := t, hostServed := s.on F.ADC_STATUS_HOST_URG_BUSY && !s.adc.helmUrgent } }
    (s.forN 8 fun i s =>
      ((s.gainStart i t).settle1 i).onFe i fun f => { f with
        on := excites (s.feMode i) && s.rd (F.ADC_FE_PULSE_PERIOD i) == 0 }).keepEntry (some t)

/-- EN is cleared: the converter stops, excitation is off, settle timers are cleared. -/
def State.adcDisable (s : State) : State :=
  let s := { ((s.wr F.ADC_CTRL_EN 0).wr F.ADC_STATUS_RUNNING 0).wr F.ADC_STATUS_ENTRY 0 with
    adc := { s.adc with entry := none, skipped := none, hostServed := false } }
  s.forN 8 fun i s =>
    ((s.onFe i fun f => { f with on := false }).wr (F.ADC_FE_STATUS_SETTLING i) 0).wr (F.ADC_FE_STATUS_IN_WINDOW i) 0

/-- ADC_ENABLE (R314). The command gives no instant, where a REGISTER_WRITE does: what it starts is dated with the latest instant that the
converter has seen (DESIGN CHOICE, log entry 194). -/
def execAdcEnable (s : State) : Host.Outcome State Fault Refusal :=
  .next (s.access s.mainStopped fun s => s.adcEnable s.adc.lastAt)

/-- ADC_DISABLE (R314). -/
def execAdcDisable (s : State) : Host.Outcome State Fault Refusal := .next (s.access s.mainStopped State.adcDisable)

/-! ### Ranging decisions (Table AA-3) -/

/-- The ranging decision of a sample (Table AA-3). -/
def State.rangeSample (s : State) (i t code : Nat) (ovr settling transient : Bool) : State :=
  let f := s.fe i
  if !s.on (F.ADC_FE_CFG_AUTO i) || transient then s
  else if ovr && code == 0x3FFF then s.setGain i 0 t
  else if ovr then s.onFe i fun f => { f with down := 0 }
  else if 14746 ≤ code ∧ 0 < f.gain then s.setGain i (f.gain - 1) t
  else if 3277 ≤ code ∧ code < 14746 then s.onFe i fun f => { f with down := 0 }
  else if settling then s
  else if code ≤ 3276 ∧ f.gain < 3 then
    if f.down = 3 then (if s.on (F.ADC_FE_STATUS_RANGE_FLAP i) then s else s.setGain i (f.gain + 1) t)
    else s.onFe i fun f => { f with down := f.down + 1 }
  else s

/-- Release of front end `i`'s range latch (R321): the samples for a higher gain count from here (R470). -/
def State.rangeFlapRelease (s : State) (i : Nat) : State :=
  let s := (s.wr (F.ADC_FE_STATUS_RANGE_FLAP i) 0).wr F.ADC_FLAP_STATUS_FLAP (withBit (s.rd F.ADC_FLAP_STATUS_FLAP) i false)
  s.onFe i fun f => { f with changes := [], down := 0 }

/-- RANGE_FLAP_RELEASE (R321). -/
def execRangeFlapRelease (i : Fin 8) (s : State) : Host.Outcome State Fault Refusal :=
  .next (s.access s.mainStopped fun s => s.rangeFlapRelease i)

/-! ### Conversion and delivery (R307 to R310) -/

/-- The sense voltage of input `n` whose pins stand at `v`: a front end reverses its sense polarity in the swapped phase (R318). -/
def State.sense (s : State) (n : Nat) (v : Int) : Int := if 16 ≤ n ∧ s.on (F.ADC_FE_STATUS_SWAP (n - 16)) then -v else v

/-- Voltage at the converter's input `n`, in 1/128 code, of a pin voltage of `v` of them: a front end amplifies its sense voltage by
the gain in force (R307). -/
def State.atInput (s : State) (n : Nat) (v : Int) : Int := if n < 16 then v else s.sense n v * 4 ^ (s.fe (n - 16)).gain

/-- CODE (R307): the input's voltage, given in 1/128 code, rounded down and clamped; an OFF front end answers 0 (R312). -/
def State.codeOf (s : State) (n : Nat) (v : Int) : Nat :=
  if 16 ≤ n ∧ s.feMode (n - 16) = 0 then 0 else (clip 0 16383 (s.atInput n v / 128)).toNat

/-- OVR (R308): more than half a code above the top or below the bottom of the codes; a front end's negative differential too (R315);
never of an OFF front end (R312). -/
def State.ovrOf (s : State) (n : Nat) (v : Int) : Bool :=
  if 16 ≤ n ∧ s.feMode (n - 16) = 0 then false
  else decide (128 * 16384 + 64 < s.atInput n v) || decide (s.atInput n v < -64) || (decide (16 ≤ n) && decide (s.sense n v < 0))

/-- RANGE_TRANSIENT of a sample of front end `i` at instant `t` (R320). -/
def State.transientAt (s : State) (i t : Nat) : Bool := (s.fe i).switching || (s.fe i).changedAt.any fun u => decide (t < u + 1000000)

/-- The sample word (Table AA-1) of input `n` whose pin voltage is `half` (in 1/128 code), taken at instant `t`; and the state after
the front end's ranging decision. -/
def State.convert (s : State) (n t : Nat) (half : Int) (urgent : Bool) : Word × State :=
  let code := s.codeOf n half
  let ovr := s.ovrOf n half
  let s := { s with adc := { s.adc with lastAt := t } }
  let head := n * 2 ^ 27 + urgent.toNat * 2 ^ 26 + ovr.toNat * 2 ^ 25 + code
  if n < 16 then (BitVec.ofNat 32 head, s)
  else
    let i := n - 16
    let settling := s.on (F.ADC_FE_STATUS_SETTLING i)
    let transient := s.transientAt i t
    let w := BitVec.ofNat 32 (head + settling.toNat * 2 ^ 24 + transient.toNat * 2 ^ 23
      + 2 ^ 22 * s.rd (F.ADC_FE_STATUS_EXC_FAULT i) + (s.fe i).gain % 4 * 2 ^ 20 + 2 ^ 19 * s.rd (F.ADC_FE_STATUS_SWAP i))
    (w, (s.onFe i fun f => { f with switching := false }).rangeSample i t code ovr settling transient)

/-- A sample goes to every consumer, or is discarded for its flags (R308 to R310). -/
def State.deliverSample (s : State) (n t : Nat) (w : Word) : State :=
  if (Word.field w 24 24 = 1 ∧ !s.on F.ADC_CFG_KEEP_SETTLING) ∨ (Word.field w 23 23 = 1 ∧ !s.on F.ADC_CFG_KEEP_TRANSIENT) then
    s.bump F.ADC_CNT_DISCARD_COUNT 1
  else
    let s := (s.setReg (R.ADC_LAST n) w).count 6 2 n 1
    let old := s.rd F.ADC_OVR_STATUS_OVR
    let s := if Word.field w 25 25 = 1 ∧ !old.testBit n then (s.wr F.ADC_OVR_STATUS_OVR (old + 2 ^ n)).raise 464 else s
    ((s.capSample w t).lbSample w t).helmSample w t

/-- ADC_SAMPLE (R311): the entry in progress is sampled at instant `t` (ps), its pin standing at `half` (in 1/128 code, so that a front
end's sense voltage is told finely enough for every gain), and the scan moves on. -/
def execAdcSample (half : Int) (t : Nat) (s : State) : Host.Outcome State Fault Refusal :=
  .next <|
    if !s.adcRuns then s
    else
      let s := s.windowsAt t
      match s.adc.entry with
      | none => s
      | some n =>
        let (w, s) := State.convert { s with adc := { s.adc with round := s.roundOf n t, skipped := none } } n t half false
        (s.deliverSample n t w).beginEntry (n + 1)

/-! ### Urgent requests (R312, R313) -/

/-- A write of ADC_URGENT. -/
def State.urgentWrite (s : State) (input : Nat) (go : Bool) : State :=
  if 24 ≤ input then s.cfgReject
  else if !go then s.wr F.ADC_URGENT_INPUT input
  else if s.on F.ADC_STATUS_HOST_URG_BUSY then s.cfgReject
  else { (s.wr F.ADC_URGENT_INPUT input).wr F.ADC_STATUS_HOST_URG_BUSY 1 with
    adc := { s.adc with hostInput := input, hostServed := s.adcRuns && !s.adc.helmUrgent } }

/-- HOST_URGENT_REQUEST (R313): a write of ADC_URGENT with GO = 1. -/
def execHostUrgentRequest (input : Fin 32) (s : State) : Host.Outcome State Fault Refusal :=
  .next (s.access s.mainStopped fun s => s.urgentWrite input true)

/-- The helm's request is answered (R313): the host's, where it waits, is served next. -/
def State.urgentHelm (s : State) (half : Int) (t : Nat) : State :=
  let n := s.rd F.HLM_TILT_CFG_AIN
  let (w, s) := s.convert n t half true
  let s := s.deliverSample n t w
  let s := { s with adc := { s.adc with helmUrgent := false, hostServed := s.on F.ADC_STATUS_HOST_URG_BUSY } }
  (s.helmSample w t).helmUrgent

/-- The host's request is answered (R313). -/
def State.urgentHost (s : State) (half : Int) (t : Nat) : State :=
  let n := s.adc.hostInput
  let (w, s) := s.convert n t half true
  let s := { s.deliverSample n t w with adc := { (s.deliverSample n t w).adc with hostServed := false } }
  ((s.setReg R.ADC_URG_RESULT w).wr F.ADC_STATUS_HOST_URG_BUSY 0).wr F.ADC_STATUS_HOST_URG_DONE 1

/-- URGENT_SAMPLE (R312, R313): the request in service is answered at instant `t` (ps), its pin standing at `half` (in 1/128 code): the
host's where its service began before the helm asked, else the helm's, else the host's. The sample also enters the input's ordinary
stream; the entry in progress keeps its place. -/
def execUrgentSample (half : Int) (t : Nat) (s : State) : Host.Outcome State Fault Refusal :=
  .next <|
    if !s.adcRuns then s
    else if s.adc.helmUrgent && !s.adc.hostServed then s.urgentHelm half t
    else if s.on F.ADC_STATUS_HOST_URG_BUSY then s.urgentHost half t
    else s

/-! ### Front-end configuration (R315 to R318) -/

/-- A word for ADC_FE_CFG[i] is reserved (R315). -/
def State.feCfgBad (s : State) (i : Nat) (w : Word) : Bool :=
  let m := Word.field w 26 24
  let cur := Word.field w 22 16
  let pm := s.feMode (partner i)
  decide (4 < m) || decide (100 < cur) || (excites m && cur == 0) || Word.field w 15 0 == 0
    || (paired m && (i % 2 == 1 || excites pm)) || (excites m && i % 2 == 1 && paired pm)

/-- NO_WINDOW (R316). -/
def State.showWindow (s : State) (i : Nat) : State :=
  s.put (F.ADC_FE_STATUS_NO_WINDOW i)
    (s.rd (F.ADC_FE_PULSE_PERIOD i) != 0 && decide (10 * s.rd (F.ADC_FE_PULSE_ON i) ≤ s.rd (F.ADC_FE_CFG_SETTLE i)))

/-- Excitation after a configuration write (R316): none in a mode without it; continuous where PERIOD = 0; a written mode waits for its
first pulse; otherwise it goes on as it was. -/
def State.excAfter (s : State) (i : Nat) (newMode : Bool) : Bool :=
  s.on F.ADC_CTRL_EN && excites (s.feMode i) && (s.rd (F.ADC_FE_PULSE_PERIOD i) == 0 || ((s.fe i).on && !newMode))

/-- Pulses count from the write of the mode at instant `t`, or go on counting from it under a period written then (R316). -/
def State.pulsesFrom (s : State) (i : Nat) (newMode : Bool) (t : Nat) : State :=
  let p := 10000000 * s.rd (F.ADC_FE_PULSE_PERIOD i)
  s.onFe i fun f =>
    let m := if newMode then some t else f.modeAt
    { f with modeAt := m, pulse := match m with | some u => (t - u + p - 1) / p | none => 0 }

/-- Excitation follows a configuration that changed what the settle timer watches (R316, R317) at instant `t`. -/
def State.feChanged (s : State) (i : Nat) (newMode : Bool) (t : Nat) : State :=
  let on := s.excAfter i newMode
  let s := (s.onFe i fun f => { f with on := on }).settleFe i
  (if on && s.rd (F.ADC_FE_PULSE_PERIOD i) != 0 then s else s.wr (F.ADC_FE_STATUS_IN_WINDOW i) 0).keepEntry (some t)

/-- A write of ADC_FE_CFG[i] at instant `t` (ps). -/
def State.feCfgWrite (s : State) (i : Nat) (w : Word) (t : Nat) : State :=
  if s.feCfgBad i w then s.cfgReject
  else
    let oldMode := s.feMode i
    let oldCur := s.rd (F.ADC_FE_CFG_CUR i)
    let s := (s.setReg (R.ADC_FE_CFG i) (w &&& 0xB77FFFFF)).showWindow i
    let s := { s with adc := { s.adc with lastAt := t } }
    let newMode := decide (oldMode ≠ s.feMode i)
    let s := if newMode then s.pulsesFrom i true t else s
    let s := if newMode ∨ !s.on (F.ADC_FE_CFG_AUTO i) then s.gainStart i t else s
    let s := if newMode ∨ oldCur ≠ s.rd (F.ADC_FE_CFG_CUR i) then s.feChanged i newMode t else s
    if paired (s.feMode i) then s else s.wr (F.ADC_FE_STATUS_SWAP i) 0

/-- A write of ADC_FE_PULSE[i] at instant `t` (ps). -/
def State.fePulseWrite (s : State) (i : Nat) (w : Word) (t : Nat) : State :=
  let p := Word.field w 31 16
  let o := Word.field w 15 0
  if p ≠ 0 ∧ (p ≤ o ∨ o = 0) then s.cfgReject
  else
    let same := s.reg (R.ADC_FE_PULSE i) == w
    let s := (s.setReg (R.ADC_FE_PULSE i) w).showWindow i
    if same then s else (s.pulsesFrom i false t).feChanged i false t

/-- A write of ADC_FE_SWAP[i]. -/
def State.feSwapWrite (s : State) (i : Nat) (w : Word) : State :=
  if Word.field w 7 0 = 0 then s.cfgReject
  else
    let s := s.setReg (R.ADC_FE_SWAP i) (w &&& 0x1FF)
    if s.swaps i then s else s.wr (F.ADC_FE_STATUS_SWAP i) 0

/-- FE_CONFIG_WRITE (R315 to R318) at instant `t` (ps): a write of word `r` of front end `i`: CFG, PULSE or SWAP. -/
def execFeConfigWrite (i : Fin 8) (r : Fin 3) (w : Word) (t : Nat) (s : State) : Host.Outcome State Fault Refusal :=
  .next (s.access s.mainStopped fun s => match r with
    | 0 => s.feCfgWrite i w t
    | 1 => s.fePulseWrite i w t
    | 2 => s.feSwapWrite i w)

/-! ### Excitation faults (R322) -/

/-- The front end whose fault the excitation pin of front end `i` raises: in 3-wire and 4-wire the even one of the pair (R322). -/
def State.excOwner (s : State) (i : Nat) : Nat := if i % 2 = 1 ∧ paired (s.feMode (i - 1)) then i - 1 else i

/-- Front end `j`'s fault enters at instant `t` (R322). -/
def State.excEnter (s : State) (j t : Nat) : State :=
  let h := recent t ((s.fe j).excHist ++ [t])
  let s := (s.onFe j fun f => { f with excHist := h }).wr (F.ADC_FE_STATUS_EXC_FAULT j) 1
  let s := (s.wr F.ADC_EXC_STATUS_FAULT (withBit (s.rd F.ADC_EXC_STATUS_FAULT) j true)).raise 466
  if 8 < h.length then s.wr (F.ADC_FE_STATUS_EXC_FLAP j) 1 else s

/-- EXCITATION_FAULT_ENTRY (R322): the excitation pin of front end `i` has stood above 2.55 V for 1 ms at instant `t` (ps). -/
def execExcitationFaultEntry (i : Fin 8) (t : Nat) (s : State) : Host.Outcome State Fault Refusal :=
  .next <|
    let j := s.excOwner i
    if !s.adcRuns || !excites (s.feMode j) then s
    else
      let s := s.onFe j fun f => { f with excPins := f.excPins ||| (if j = i then 1 else 2) }
      if s.on (F.ADC_FE_STATUS_EXC_FAULT j) then s else s.excEnter j t

/-- Pin `b` of front end `j` is back in regulation: its fault clears when no pin stands out of it, but the flapping latch holds it
(R322). -/
def State.excLeave (s : State) (j b : Nat) : State :=
  if s.on (F.ADC_FE_STATUS_EXC_FLAP j) then s
  else
    let s := s.onFe j fun f => { f with excPins := withBit f.excPins b false }
    if (s.fe j).excPins ≠ 0 then s
    else (s.wr (F.ADC_FE_STATUS_EXC_FAULT j) 0).wr F.ADC_EXC_STATUS_FAULT (withBit (s.rd F.ADC_EXC_STATUS_FAULT) j false)

/-- EXCITATION_FAULT_CLEAR (R322): the excitation pin of front end `i` has stood below 2.45 V for 1 ms. -/
def execExcitationFaultClear (i : Fin 8) (s : State) : Host.Outcome State Fault Refusal :=
  .next ((if i.val % 2 = 1 then s.excLeave (i - 1) 1 else s).excLeave i 0)

/-- Release of front end `i`'s excitation latch (R322, R470). -/
def State.excFlapRelease (s : State) (i : Nat) : State :=
  (s.wr (F.ADC_FE_STATUS_EXC_FLAP i) 0).onFe i fun f => { f with excHist := [] }

/-- EXC_FLAP_RELEASE (R322). -/
def execExcFlapRelease (i : Fin 8) (s : State) : Host.Outcome State Fault Refusal :=
  .next (s.access s.mainStopped fun s => s.excFlapRelease i)

end Sys2Proof.Machine
end

