-- ==== Sys2Proof/Machine/Sextant.lean ====
section
/-! DEFINITION. The sextant: gate, prescalers, measurements, statistics, table runs and shutdown (chapter 10, R297 to R302). -/

namespace Sys2Proof.Machine

/-- The sextant runs: enabled, not in RESET or RECOVERY, its clock running (R302). -/
def State.sxtRuns (s : State) : Bool := s.on F.SXT_CTRL_EN && !s.tilHeld && !s.mainStopped && !s.sxt.closing

/-- EN is cleared (R302, R41). -/
def State.sxtDisable (s : State) : State :=
  let s := s.dropPend F.SXT_STATUS_PENDING_ENABLE F.SYS_PEND_STATUS_SXT
  if s.on F.SXT_CTRL_EN ∧ !s.sxt.closing then
    ((s.wr F.SXT_CTRL_EN 0).sxtAbort).sx fun x => { x with closing := true }
  else s.wr F.SXT_CTRL_EN 0

/-- The shutdown ends; a pending enable restarts the sextant armed, with GATE_SRC = 0b01 waiting for SXT_GATE (R302). -/
def State.sxtClosed (s : State) : State :=
  if !s.sxt.closing then s
  else
    let s := s.sx fun x => { x with closing := false }
    if s.on F.SXT_STATUS_PENDING_ENABLE then
      let s := s.dropPend F.SXT_STATUS_PENDING_ENABLE F.SYS_PEND_STATUS_SXT
      if s.tilHeld then s else (s.wr F.SXT_STATUS_DONE 0).sxtArm false
    else s

/-- SEXTANT_ENABLE (R302). In RESET and RECOVERY the bit alone is kept. -/
def execSextantEnable (s : State) : Host.Outcome State Fault Refusal :=
  .next (s.access s.mainStopped State.sxtEnable)

/-- SEXTANT_DISABLE (R302). -/
def execSextantDisable (s : State) : Host.Outcome State Fault Refusal :=
  .next (s.access s.mainStopped State.sxtDisable)

/-- A write of SXT_CTRL.ARM (R298): nothing while the sextant is off or a set is armed already. -/
def State.sxtArmCmd (s : State) : State :=
  if s.sxtRuns && !s.on F.SXT_STATUS_ARMED then (s.wr F.SXT_STATUS_DONE 0).sxtArm false else s

/-- SEXTANT_ARM (R298). -/
def execSextantArm (s : State) : Host.Outcome State Fault Refusal :=
  .next (s.access s.mainStopped State.sxtArmCmd)

/-! ### Measurements (R297 to R300) -/

/-- The gate admits a start at this instant (R297). -/
def State.sxtGate (s : State) : Bool :=
  match s.rd F.SXT_CFG_GATE_SRC with
  | 0 => s.sxt.gate
  | 1 => s.sxt.edgeArmed
  | _ => true

/-- Entry `f` of the active tables; the identity where unlisted. -/
def State.cdtStart (s : State) (f : Nat) : Nat := Tab.get id s.sxt.cdtStart f
def State.cdtStop (s : State) (f : Nat) : Nat := Tab.get id s.sxt.cdtStop f

/-- A measurement ends validly with a stop of coarse count `coarse` and phase `f` at instant `t` (R298, R300). -/
def State.sxtStop (s : State) (coarse f t : Nat) : State :=
  match s.sxt.start with
  | none => s
  | some (c0, f0, t0) =>
    if t < t0 + 2500 ∨ t0 + 100000 * s.rd F.SXT_TIMEOUT_T < t then s
    else
      let v : Int := 128 * ((coarse : Int) - c0) + s.cdtStop f - s.cdtStart f0 + s.rdS F.SXT_OFS_OFS
      let m := signed 32 (unsigned 32 v)
      let s := ((s.wrS F.SXT_LAST_T m).wr F.SXT_STATUS_BUSY 0).count 6 4 0 1
      s.sx fun x => { x with
        start := none, endedAt := some t, n := x.n + 1, sum := x.sum + m, sumSq := x.sumSq + m * m
        least := min x.least m, greatest := max x.greatest m }

/-- An edge of a pin input passes the prescaler ÷2^PRE when it completes a group of 2^PRE edges since arming (R297). -/
def prescaled (count pre : Nat) : Bool := count % 2 ^ pre == 0

/-- Starts of the selected source are seen: EM_FIRE edges only while the emitter fires (R302). -/
def State.sxtSeesStart (s : State) : Bool := s.sxtRuns && (s.rd F.SXT_CFG_START_SRC == 0 || s.emiState == eFIRING)

/-- A start edge that has passed the prescaler begins a measurement if the gate admits it, none is in progress, and 50 ns have
passed since the last one ended (R298, R299). -/
def State.sxtBegin (s : State) (coarse f t : Nat) : State :=
  let ready := match s.sxt.endedAt with
    | none => true
    | some e => decide (e + 50000 ≤ t)
  if s.sxt.start.isSome || !ready || decide (s.rd F.SXT_N_N ≤ s.sxt.n + s.sxt.miss) then s
  else
    let gated := s.rd F.SXT_CFG_GATE_SRC != 2
    let s := if gated && s.sxt.gateAt != 0 && t / 625 == s.sxt.gateAt / 625 then s.wr F.SXT_STATUS_GATE_EDGE 1 else s
    let s := s.sx fun x => { x with decidedAt := t + 1 }
    if s.sxtGate then (s.wr F.SXT_STATUS_BUSY 1).sx fun x => { x with start := some (coarse, f, t) } else s

/-- SEXTANT_START_EDGE (R298): an edge of the start source at instant `t` (ps). In period mode it is also the stop of the
measurement in progress. Only pin inputs pass a prescaler. Without an armed set only its instant counts, for the set that a gate edge of
the same cycle arms (R299). -/
def execSextantStartEdge (coarse : Nat) (f : Fin 128) (t : Nat) (s : State) : Host.Outcome State Fault Refusal :=
  .next <|
    if !s.sxtSeesStart then s
    else if !s.on F.SXT_STATUS_ARMED then s.sx fun x => { x with decidedAt := t + 1 }
    else
      let s := s.sx fun x => { x with preStart := x.preStart + 1 }
      let pre := if s.rd F.SXT_CFG_START_SRC = 0 then s.rd F.SXT_CFG_PRE_START else 0
      if !prescaled s.sxt.preStart pre then s
      else if s.sxt.start.isSome then (if s.rd F.SXT_CFG_STOP_SRC = 2 then s.sxtStop coarse f t else s)
      else s.sxtBegin coarse f t

/-- SEXTANT_STOP_EDGE (R300): an edge of the stop source at instant `t` (ps). -/
def execSextantStopEdge (coarse : Nat) (f : Fin 128) (t : Nat) (s : State) : Host.Outcome State Fault Refusal :=
  .next <|
    if !s.sxtRuns || !s.on F.SXT_STATUS_ARMED || s.rd F.SXT_CFG_STOP_SRC == 2 then s
    else
      let s := s.sx fun x => { x with preStop := x.preStop + 1 }
      if prescaled s.sxt.preStop (s.rd F.SXT_CFG_PRE_STOP) then s.sxtStop coarse f t else s

/-- SEXTANT_MEASUREMENT_TIMEOUT (R298): no stop came within SXT_TIMEOUT × 100 ns. -/
def execSextantMeasurementTimeout (s : State) : Host.Outcome State Fault Refusal :=
  .next <| match s.sxt.start with
    | none => s
    | some (_, _, t0) =>
      if !s.sxtRuns then s else
      let s := ((s.wr F.SXT_STATUS_BUSY 0).raiseIf (s.sxt.miss == 0) 457).count 6 4 0 1
      s.sx fun x => { x with start := none, endedAt := some (t0 + 100000 * s.rd F.SXT_TIMEOUT_T), miss := x.miss + 1 }

/-- SXT_GATE_EDGE (R297, R299): the pin goes to `level` at instant `t` (ps). -/
def execSxtGateEdge (level : Bool) (t : Nat) (s : State) : Host.Outcome State Fault Refusal :=
  .next <|
    let rising := level && !s.sxt.gate
    let s := (s.sx fun x => { x with gate := level, gateAt := t }).capGateEdge 1 t
    if !s.sxtRuns then s
    else
      let src := s.rd F.SXT_CFG_GATE_SRC
      let s := if src == 1 && rising then
          (if s.on F.SXT_STATUS_ARMED && s.sxt.edgeArmed then s else (s.wr F.SXT_STATUS_DONE 0).sxtArm true)
        else s
      if src != 2 && s.on F.SXT_STATUS_ARMED && s.sxt.decidedAt != 0 && (s.sxt.decidedAt - 1) / 625 == t / 625 then
        s.wr F.SXT_STATUS_GATE_EDGE 1
      else s

/-! ### Results (R301) -/

/-- Integer square root of a number below 2^128, bit by bit. -/
def isqrt (v : Nat) : Nat :=
  (List.range 64).foldr (fun k r => if (r + 2 ^ k) * (r + 2 ^ k) ≤ v then r + 2 ^ k else r) 0

/-- MEAN of `n` values that sum to `sum`: round(256 × Σt / n), a half rounded up. -/
def sxtMean (n : Nat) (sum : Int) : Int := if n = 0 then 0 else (512 * sum + n) / (2 * n)

/-- SD: round(256 × √(Σ(t − Σt/n)² / n)), exact: with A = n Σt² − (Σt)² it is round(√(65536 A) / n). -/
def sxtSd (n : Nat) (sum sumSq : Int) : Nat :=
  if n = 0 then 0 else (isqrt (262144 * (n * sumSq - sum * sum).toNat) + n) / (2 * n)

/-- The set is complete: the results latch and DONE sets (R298, R301). -/
def State.sxtLatch (s : State) : State :=
  let x := s.sxt
  let mean := unsigned 40 (sxtMean x.n x.sum)
  let s := (s.wr F.SXT_COUNT_VALID x.n).wr F.SXT_COUNT_MISS x.miss
  let s := (s.wr F.SXT_MEAN_LO_MEAN (mean % 2 ^ 32)).wr F.SXT_MEAN_HI_MEAN (mean / 2 ^ 32)
  let s := ((s.wr F.SXT_SD_SD (sxtSd x.n x.sum x.sumSq)).wrS F.SXT_MIN_MIN x.least).wrS F.SXT_MAX_MAX x.greatest
  let s := (s.wr F.SXT_STATUS_DONE 1).raise 456
  if s.on F.SXT_CFG_CONT then s.sxtArm (s.rd F.SXT_CFG_GATE_SRC == 1) else s.sxtAbort

/-- MEAN as last latched. -/
def State.sxtMeanNow (s : State) : Int :=
  signed 40 (2 ^ 32 * s.rd F.SXT_MEAN_HI_MEAN + s.rd F.SXT_MEAN_LO_MEAN)

/-! ### Tables (R300) -/

/-- Byte `f` of the shadow table whose words start at address `a`. -/
def State.cdtShadow (s : State) (a f : Nat) : Nat := Word.field (s.reg (a + 4 * (f / 4))) (8 * (f % 4) + 7) (8 * (f % 4))

/-- Every entry is at most the next. -/
def cdtRises (g : Nat → Nat) : Bool := (List.range 127).all fun f => decide (g f ≤ g (f + 1))

/-- Copies both shadow tables to the active set, or rejects the commit (R300). -/
def State.cdtCommit (s : State) : State :=
  let a := s.cdtShadow (R.SXT_CDT_START 0)
  let b := s.cdtShadow (R.SXT_CDT_STOP 0)
  if cdtRises a && cdtRises b then
    s.sx fun x => { x with cdtStart := (List.range 128).foldl (fun t f => Tab.set id t f (a f)) x.cdtStart
                           cdtStop := (List.range 128).foldl (fun t f => Tab.set id t f (b f)) x.cdtStop }
  else s.raise 458

/-- A write of CDT_COMMIT: only while no set is armed, and in a mode in which the sextant runs (R302). -/
def State.cdtCommitCmd (s : State) : State := if s.on F.SXT_STATUS_ARMED then s.cfgReject else if s.tilHeld then s else s.cdtCommit

/-- A write of CDT_RUN: only while no set is armed, and in a mode in which the sextant runs; one that runs already goes on. -/
def State.cdtRun (s : State) : State :=
  if s.on F.SXT_STATUS_ARMED then s.cfgReject else if s.tilHeld then s else s.wr F.SXT_STATUS_CDT_BUSY 1

/-- CDT_COMMIT (R300). -/
def execCdtCommit (s : State) : Host.Outcome State Fault Refusal := .next (s.access s.mainStopped State.cdtCommitCmd)

/-- CDT_RUN (R300). -/
def execCdtRun (s : State) : Host.Outcome State Fault Refusal := .next (s.access s.mainStopped State.cdtRun)

/-- The table that hits per phase give: CDT[f] = round(128 × (hits of phases below f) / total hits). -/
def cdtOf (hits : List Nat) (f : Nat) : Nat :=
  let total := hits.sum
  if total = 0 then 0 else (256 * (hits.take f).sum + total) / (2 * total)

/-- Puts a built table into the shadow words at address `a`. -/
def State.putCdt (s : State) (r : Nat → Nat) (hits : List Nat) : State :=
  s.forN 32 fun q s => s.setReg (r q)
    (BitVec.ofNat 32 (cdtOf hits (4 * q) + cdtOf hits (4 * q + 1) * 2 ^ 8 + cdtOf hits (4 * q + 2) * 2 ^ 16
      + cdtOf hits (4 * q + 3) * 2 ^ 24))

/-- Least hits of the 128 phases of both inputs. -/
def leastHits (a b : List Nat) : Nat :=
  (List.range 128).foldl (fun m f => min m (min (a.getD f 0) (b.getD f 0))) (a.getD 0 0)

/-- The end of a table run with the hits of each phase (R300): the tables are built and committed when every phase has at least
256 hits. -/
def State.cdtBuilt (s : State) (a b : List Nat) : State :=
  let s := s.wr F.SXT_STATUS_CDT_BUSY 0
  (if 256 ≤ leastHits a b then ((s.putCdt R.SXT_CDT_START a).putCdt R.SXT_CDT_STOP b).cdtCommit else s.raise 458).raise 459

end Sys2Proof.Machine
end

