-- ==== Sys2Proof/Machine/Calib.lean ====
section
/-! DEFINITION. Calibration plans and items, range-zero tracking, legacy sets, fuse burns and the flash journal (chapter 12). -/

namespace Sys2Proof.Machine

/-- Applies `f` to the calibration state. -/
def State.cl (s : State) (f : Cal → Cal) : State := { s with cal := f s.cal }

/-- The range-zero temperature, 0.1 °C (R346). -/
def State.tRz (s : State) : Int := s.rdS F.THM_T_STAGE_T_RZ

/-! ### Quality figures (R327) -/

/-- Figure of an upper bound: floor(100 × (x − m) / x) with m = num / den. -/
def figUpper (x num den : Nat) : Int := (100 * ((x * den : Nat) - (num : Int))) / ((x * den : Nat) : Int)

/-- Figure of a lower bound: floor(100 × (m − x) / x). -/
def figLower (x m : Nat) : Int := (100 * ((m : Int) - x)) / (x : Int)

/-- A failing check that has no figure: a negative figure that the spec does not name, a free value. -/
def State.freeFail (s : State) : Int × State :=
  let (v, s) := s.drawFree 7
  (-1 - v, s)

/-- Writes CAL_RESULT; rejects are raised (R326, R327). `fails` lists the failing channels in ascending order. -/
def State.calResult (s : State) (item : Nat) (q : Int) (rejects first : Nat) : State :=
  ((((s.wrS F.CAL_RESULT_QUALITY (clip (-128) 100 q)).wr F.CAL_RESULT_ITEM item).wr F.CAL_RESULT_REJECTS (min rejects 1023)).wr
    F.CAL_RESULT_FIRST first).raiseIf (rejects != 0) 481

/-- CAL_RESULT of an item computed per channel: the least figure, the number of channels with a negative figure, the lowest. -/
def State.calResults (s : State) (item : Nat) (qs : List Int) : State :=
  let fails := (List.range qs.length).filter fun c => decide (qs.getD c 0 < 0)
  s.calResult item (qs.foldl min 100) fails.length (fails.headD 0x7FF)

/-! ### Journal (R341, R342) -/

/-- What a save writes (R341). -/
def State.jrnRec (s : State) (seq : Nat) : JrnRec :=
  { seq := seq
    lut := (List.range 18432).filterMap fun k =>
      let v := s.lutShadow (k / 16) (k % 16)
      if v = k % 16 then none else some (k, v)
    cdtStart := (List.range 128).filterMap fun f =>
      let v := s.cdtShadow (R.SXT_CDT_START 0) f
      if v = f then none else some (f, v)
    cdtStop := (List.range 128).filterMap fun f =>
      let v := s.cdtShadow (R.SXT_CDT_STOP 0) f
      if v = f then none else some (f, v)
    bofs := s.cal.bofs, tCal := s.cal.tCal, field := s.cal.field
    curve := (List.range 256).map fun i => (s.reg (R.EMI_CURVE i)).toNat
    legTemp := s.cal.legTemp, legSkew := s.cal.legSkew, legBofs := s.cal.legBofs, loaded := s.rd F.CAL_LEG_STATUS_LOADED
    lastCd := s.reg R.CAL_LAST_CD, lastRz := s.reg R.CAL_LAST_RZ }

/-- Flash offset of journal slot 0 (A) or 1 (B) (Table BU-3). -/
def jrnSlot (k : Nat) : Nat := 0x10000 + 0x10000 * k

/-- The slot with the newest valid journal record. -/
def State.newestJrn (s : State) : Option Nat :=
  match s.cal.jrnA, s.cal.jrnB with
  | none, none => none
  | some _, none => some 0
  | none, some _ => some 1
  | some a, some b => if b.seq ≤ a.seq then some 0 else some 1

/-- The slot that a save writes (R342): the one that does not hold the newest valid record, whatever CAL_JRN_STATUS shows. -/
def State.jrnTarget (s : State) : Nat := (s.newestJrn.map fun k => 1 - k).getD 0

/-- The record of slot `k`. -/
def State.jrnOf (s : State) (k : Nat) : Option JrnRec := if k = 0 then s.cal.jrnA else s.cal.jrnB
def State.setJrn (s : State) (k : Nat) (r : Option JrnRec) : State :=
  s.cl fun c => if k = 0 then { c with jrnA := r } else { c with jrnB := r }

/-- SEQ of the newest valid record; 0 where none is. -/
def State.jrnSeq (s : State) : Nat := ((s.newestJrn.bind fun k => s.jrnOf k).map JrnRec.seq).getD 0

/-- The save starts: it erases its slot. -/
def State.jrnStart (s : State) : State :=
  let k := s.jrnTarget
  (((s.wr F.CAL_STATUS_JRN_BUSY 1).wr F.CAL_JRN_STATUS_PENDING 0).flashErase (jrnSlot k) (jrnSlot k + 0x10000)).setJrn k none

/-- A save is requested (R342): it waits while PF_N is low; a request during a save joins it. -/
def State.journalSave (s : State) : State :=
  if s.on F.CAL_STATUS_JRN_BUSY then s
  else if s.sys.pfLow then s.wr F.CAL_JRN_STATUS_PENDING 1
  else s.jrnStart

/-- JOURNAL_SAVE (R342): a write of CAL_JRN_CTRL.SAVE. -/
def execJournalSave (s : State) : Host.Outcome State Fault Refusal := .next (s.access false State.journalSave)

/-- The bytes of a record up to its CRC: the header of R341, and sections whose layout the spec does not give: free bytes in a free
length. -/
def State.jrnBytes (s : State) (fmt seq : Nat) : List Byte × State :=
  let len := 16 + Config.freeValue s.freeIx % 0xFFE8
  let head := bytesOf 4 0x4C581152 ++ bytesOf 4 fmt ++ bytesOf 4 seq ++ bytesOf 4 len
  (head ++ (List.range (len - 16)).map fun i => BitVec.ofNat 8 (Config.freeValue (s.freeIx + 1 + i)),
    { s with freeIx := s.freeIx + 0x10000 })

/-- The end of a save: `ok` when the record read back with a good CRC (R342). -/
def State.journalDone (s : State) (ok : Bool) : State :=
  if !s.on F.CAL_STATUS_JRN_BUSY then s
  else
    let k := s.jrnTarget
    let seq := (s.jrnSeq + 1) % 2 ^ 32
    let r := s.jrnRec seq
    let (b, s) := s.jrnBytes 1 seq
    let s := (s.wr F.CAL_STATUS_JRN_BUSY 0).flashWrite (jrnSlot k) (b ++ bytesOf 4 (crc32c b))
    if ok then
      let s := (s.flashWrite (jrnSlot k + 0xFFFC) (bytesOf 4 0)).setJrn k (some r)
      ((((s.wr F.CAL_JRN_STATUS_SEQ seq).wr F.CAL_JRN_STATUS_SLOT k).wr F.CAL_JRN_STATUS_VALID 1).wr F.CAL_JRN_STATUS_FAIL 0).raise 486
    else (s.wr F.CAL_JRN_STATUS_FAIL 1).raise 487

/-! ### Parameter pages (R174, R333, R337) -/

/-- The legacy interpolation is in force (R337). -/
def State.legacy (s : State) : Bool := s.on F.CAL_STATUS_LEG_ACTIVE

/-- The bearing offset that the pages hold for channel `c`. -/
def State.pageBofs (s : State) (c : Nat) : Int :=
  (if s.legacy then s.rdS (F.CAL_LEG_BOFS_BOFS c) else Tab.get (fun _ => 0) s.cal.bofs c) + s.cal.dL

/-- The page exchange of R174 for tiller `n`: the page that SELECT names, with its offsets, goes into the page not in force, which
SELECT then names; the offsets are the lanes' last written values (R337). Only a tiller that holds the reference program has pages. -/
def State.pageExchange (s : State) (n : Nat) : State :=
  let t := s.tiller n
  if !t.refRuns || s.tilHeld then s
  else
    let word (a : Nat) : Word := t.dword ((a - 0x10000) / 4)
    let base (p : Nat) : Nat := if p = 0 then 0x1E080 else 0x1E100
    let from_ := base ((word 0x1E000).toNat % 2)
    let new := 1 - (word 0x1E00C).toNat % 2
    let tc : Nat := if s.legacy then 0 else Word.field (word (from_ + 0x1C)) 15 0
    let tCal := unsigned 16 (if s.legacy then signed 16 (Word.field (word (from_ + 0x1C)) 31 16)
      else Tab.get (fun _ => 250) s.cal.tCal (6 * n))
    let ws := ((List.range 7).map fun i => word (from_ + 4 * i)) ++ [BitVec.ofNat 32 (tCal * 2 ^ 16 + tc)]
      ++ ((List.range 6).map fun l => BitVec.ofInt 32 (s.pageBofs (6 * n + l)))
      ++ ((List.range 18).map fun i => word (from_ + 0x38 + 4 * i))
    let w := (List.range 6).foldl (fun m l => Tab.set (fun _ => 0) m (6 * n + l) (s.pageBofs (6 * n + l))) s.cal.legWritten
    (s.setTiller n ((t.putWords (base new) ws).putWords 0x1E000 [BitVec.ofNat 32 new])).cl fun x => { x with legWritten := w }

/-- The exchange on every tiller. -/
def State.pagesOut (s : State) : State := s.forN 192 fun n s => s.pageExchange n

/-! ### Running a plan (R328, R329) -/

/-- The firmware wrote a fabric setting: sampled at the next boundary, or taken at once when no point cycles run (R97). -/
def State.hisWritten (s : State) : State := if s.running then s.wr F.HIS_STATUS_SETTINGS_PENDING 1 else s.hisTake

/-- The registers a plan writes (R329). -/
def planRegs : List Nat := [R.HIS_RECIPE_CAL, R.HIS_FIND_CFG, R.HIS_FIXWIN 0, R.HIS_FIXWIN 1, R.HIS_FIXWIN 2, R.TDC_TEST_CFG]

/-- d256_exp = round(REF_MM × 2^24 / 383,734) (R332). -/
def State.dExp (s : State) : Nat := (2 * 2 ^ 24 * s.rd F.CAL_RZ_CFG_REF_MM + 383734) / (2 * 383734)

/-- E = round((d256_exp + mean BOFS) / 256) (R332). -/
def State.rzCentre (s : State) : Int :=
  let sum : Int := (s.cal.bofs.map Prod.snd).foldl (· + ·) 0
  (2 * (1152 * (s.dExp : Int) + sum) + 1152 * 256) / (2 * 1152 * 256)

/-- Selects the edges' source as the firmware does in a plan: while point cycles run it takes effect at a boundary (R329). -/
def State.testSrc (s : State) (v : Nat) : State :=
  let held := if s.running then some (s.tdc.srcHeld.getD (s.rd F.TDC_TEST_CFG_SRC)) else none
  { (s.wr F.TDC_TEST_CFG_SRC v).wr F.TDC_STATUS_TEST_ACTIVE v with tdc := { s.tdc with srcHeld := held } }

/-- Begins item 1 to 4 (R330 to R334). -/
def State.beginItem (s : State) (item : Nat) : State :=
  let s := s.wr F.CAL_STATUS_ITEM item
  match item with
  | 1 =>
    let ambient := s.on F.CAL_CFG_CD_SRC && !s.cal.internal
    ((s.wr F.HIS_RECIPE_CAL_FIRE 0).testSrc (if ambient then 0 else 1)).hisWritten.cl fun c => { c with cdPhase := [], cdGroup := [] }
  | 2 => (s.sxtAbort).wr F.SXT_STATUS_CDT_BUSY 1
  | 3 =>
    let e := s.rzCentre
    let win (i : Nat) (v : Int) (s : State) : State :=
      (s.wr (F.HIS_FIXWIN_START i) (clip 0 65472 v).toNat).wr (F.HIS_FIXWIN_EN i) 1
    let s := win 2 (e + 32) (win 1 (e - 32) (win 0 (e - 96) s))
    (((s.wr F.HIS_FIND_CFG_FIXWIN 1).wr F.HIS_RECIPE_CAL_FIRE 1).testSrc 0).hisWritten.cl fun c =>
      { c with rzBins := [], rzExp := [], rzAmb := [], rzBad := [], rzCycles := 0, rzSet := false }
  | 4 => s.surveyBegin
  | _ => s

/-- The next item of the plan begins, if one is left. -/
def State.nextItem (s : State) : State :=
  match s.cal.items with
  | [] => s.wr F.CAL_STATUS_ITEM 0
  | i :: _ => s.beginItem i

/-- The item in progress has ended; an accepted one stays in force (R328). -/
def State.itemDone (s : State) (accepted : Bool) : State :=
  (s.cl fun c => { c with items := c.items.drop 1, accepted := c.accepted || accepted, rzSet := false }).nextItem

/-- Item `i` of the plan is in progress. -/
def State.itemIs (s : State) (i : Nat) : Bool :=
  s.on F.CAL_STATUS_BUSY && s.rd F.CAL_STATUS_ITEM == i && s.mode == mCALIBRATE

/-- Register `a` of the plan is restored, if it was saved. -/
def State.restoreReg (s : State) (a : Nat) : State :=
  match s.cal.saved.find? fun e => e.1 == a with
  | some e => s.setReg a e.2
  | none => s

/-- The registers the plan wrote are restored (R329). -/
def State.planRestore (s : State) : State :=
  let s := ((s.restoreReg R.HIS_RECIPE_CAL).restoreReg R.HIS_FIND_CFG).restoreReg (R.HIS_FIXWIN 0)
  let s := (s.restoreReg (R.HIS_FIXWIN 1)).restoreReg (R.HIS_FIXWIN 2)
  let s := match s.cal.saved.find? fun x => x.1 == R.TDC_TEST_CFG with
    | some x => s.testSrc (Word.field x.2 1 0)
    | none => s
  (s.hisWritten).cl fun c => { c with saved := [] }

/-- The items of a plan (Table CT-2); a legacy unit leaves out range zero (R337). -/
def State.planItems (s : State) (plan : Nat) : List Nat :=
  let rz := if s.on F.CAL_CFG_LEG_EN && s.legacy then [] else [3]
  match plan with
  | 1 => [1, 2]
  | 2 => rz
  | 3 => [4]
  | 4 => [1, 2] ++ rz
  | _ => []

/-- A plan is permitted in the present mode (Table CT-2). -/
def State.planPermitted (s : State) (plan : Nat) : Bool :=
  match plan with
  | 1 => s.mode == mSTANDBY || s.mode == mSCAN
  | 2 => s.mode == mSCAN
  | 3 => s.mode == mSTANDBY && s.on F.DET_STATUS_BIAS_SETTLED
  | 4 => s.mode == mSCAN
  | _ => false

/-- What the end of a plan leaves behind, other than the mode: registers restored, the journal saved, CAL_DONE raised (R328, R329).
`cut` tells an aborted plan, which discards the item in progress: a table run, a range zero not yet applied, a survey. Any plan 0x4 takes
the waiting rerun away (R335). -/
def State.planClose (s : State) (cut : Bool) : State :=
  if !s.on F.CAL_STATUS_BUSY then s
  else
    let save := !cut || s.cal.accepted
    let s := if s.rd F.CAL_STATUS_ITEM = 2 then s.wr F.SXT_STATUS_CDT_BUSY 0 else s
    let s := ((s.planRestore).wr F.CAL_STATUS_BUSY 0).wr F.CAL_STATUS_ITEM 0
    let s := if s.rd F.CAL_STATUS_PLAN = 4 then s.wr F.CAL_STATUS_RERUN_PENDING 0 else s
    let plan := s.rd F.CAL_STATUS_PLAN
    let s := s.cl fun c => { c with rerunTemp := c.rerunTemp && plan != 4, items := [], accepted := false, rzSet := false, rzNew := none, surveyAt := none }
    if save then s.journalSave.raise 480 else s

/-- Enters CALIBRATE for `plan` (R328); a plan that a mode change cut is closed first. -/
def State.startPlan (s : State) (plan cause : Nat) (internal : Bool) : State :=
  let s := s.planClose true
  let s : State := { s with sys := { s.sys with calFrom := s.mode } }
  let s := s.goMode mCALIBRATE cause
  let s := ((s.wr F.CAL_STATUS_PLAN plan).wr F.CAL_STATUS_BUSY 1).cl fun c => { c with
    items := s.planItems plan, accepted := false, internal := internal, saved := planRegs.map fun a => (a, s.reg a) }
  s.nextItem

/-- A rerun that waits is carried out in SCAN with AUTO_RECAL = 1 (R335). -/
def State.rerunCheck (s : State) : State :=
  if s.on F.CAL_STATUS_RERUN_PENDING && s.on F.SYS_MODE_CFG_AUTO_RECAL && s.mode == mSCAN && !s.on F.SYS_MODE_STOPPING then
    s.startPlan 4 0x10 false
  else s

/-- What `f` does; where it brings the mode to SCAN, a rerun that waits is carried out there (R335). -/
def State.toScan (s : State) (f : State → State) : State := if s.mode = mSCAN then f s else (f s).rerunCheck

/-- RERUN_DUE (R335): the range-zero temperature lies more than RECAL_DT from that of the last range zero; the two times of the rule
are the command's. One that is pending does not fall due again. -/
def execRerunDue (s : State) : Host.Outcome State Fault Refusal :=
  .next <|
    let far := decide (s.rd F.CAL_CFG_RECAL_DT < (s.tRz - s.rdS F.CAL_LAST_RZ_TEMP).natAbs)
    if !far || s.tilHeld || (s.on F.CAL_STATUS_RERUN_PENDING && s.cal.rerunTemp) then s
    else (((s.cl fun c => { c with rerunTemp := true }).wr F.CAL_STATUS_RERUN_PENDING 1).raise 482).rerunCheck

/-! ### Code density (R330) -/

/-- Figure of channel `c`: hits against 1024 × MIN_HITS, and χ² against CHI_MAX, where
χ² = Σ (64 n − H)² / (64 H). -/
def State.cdFigure (s : State) (c : Nat) : Int :=
  let h := ((List.range 16).map fun p => Tab.get (fun _ => 0) s.cal.cdPhase (16 * c + p)).sum
  let dev := ((List.range 64).map fun g => ((64 * Tab.get (fun _ => 0) s.cal.cdGroup (64 * c + g) : Nat) - (h : Int)).natAbs ^ 2).sum
  let q := figLower (1024 * s.rd F.CAL_CD_CFG_MIN_HITS) h
  if h = 0 then q else min q (figUpper (s.rd F.CAL_CD_CFG_CHI_MAX) dev (64 * h))

/-- LUT[p] = round(16 × (hits of phases below p) / H). -/
def State.cdEntry (s : State) (c p : Nat) : Nat :=
  let n (k : Nat) := ((List.range k).map fun i => Tab.get (fun _ => 0) s.cal.cdPhase (16 * c + i)).sum
  (32 * n p + n 16) / (2 * n 16)

/-- Writes the four words of channel `c`'s shadow table. -/
def State.putLut (s : State) (c : Nat) (e : Nat → Nat) : State :=
  s.forN 4 fun q s => s.setReg (R.TDC_LUT c q)
    (BitVec.ofNat 32 (e (4 * q) + e (4 * q + 1) * 2 ^ 8 + e (4 * q + 2) * 2 ^ 16 + e (4 * q + 3) * 2 ^ 24))

/-- CODE_DENSITY_ITEM (R330): collection has ended; passing channels are written and committed. -/
def execCodeDensityItem (s : State) : Host.Outcome State Fault Refusal :=
  .next <|
    if !s.itemIs 1 then s
    else
      let qs := (List.range 1152).map s.cdFigure
      let ok := qs.any fun q => decide (0 ≤ q)
      let s := s.forN 1152 fun c s => if 0 ≤ qs.getD c 0 then s.putLut c (s.cdEntry c) else s
      let s := if ok then
          let s := s.wr F.TDC_STATUS_COMMIT_PENDING 1
          (s.wrS F.CAL_LAST_CD_TEMP s.tRz).wr F.CAL_LAST_CD_AGE 0
        else s
      ((s.testSrc 0).calResults 1 qs).itemDone ok

/-! ### Sextant tables (R331) -/

/-- The table run in progress belongs to a plan that a trip or HOT has cut (R34, R328): its tables are not taken. -/
def State.cdtDropped (s : State) : Bool :=
  s.on F.CAL_STATUS_BUSY && s.rd F.CAL_STATUS_ITEM == 2 && s.mode != mCALIBRATE

/-- CDT_RUN_COMPLETE (R300, R331): the hits of each phase of the start and stop inputs. Within a plan it ends item 2. -/
def execCdtRunComplete (hitsStart hitsStop : List Nat) (s : State) : Host.Outcome State Fault Refusal :=
  .next <|
    if !s.on F.SXT_STATUS_CDT_BUSY || s.cdtDropped then s
    else
      let s := s.cdtBuilt hitsStart hitsStop
      if s.itemIs 2 then
        let q := figLower 256 (leastHits hitsStart hitsStop)
        (s.calResult 2 q (if q < 0 then 1 else 0) 0x7FF).itemDone (decide (0 ≤ q))
      else s

/-! ### Range zero (R332, R333) -/

/-- The parameter page in force for channel `c`'s lane. -/
def State.laneIn (s : State) (c a : Nat) : LaneIn :=
  let t := s.tiller (c / 6)
  let ws := (if t.refPage.isEmpty then refPageReset else t.refPage).map BitVec.toNat
  ⟨ws, s.tRz, c % 6, a, 0, 0, false, false⟩

/-- The reference return of channel `c` from its sums, taken as one window of 192 bins (R181 to R185, R189): t_ref, walk, s and b. -/
def State.rzReturn (s : State) (c : Nat) : Option (Nat × Int × Nat × Nat) :=
  let raw := (List.range 192).map fun i => Tab.get (fun _ => 0) s.cal.rzBins (192 * c + i)
  let e := Tab.get (fun _ => 0) s.cal.rzExp c
  let a := Tab.get (fun _ => 0) s.cal.rzAmb c
  let x := s.laneIn c a
  let live := e - a * e / 2 ^ 10
  if e = 0 ∨ live < 1 then none
  else
    let corr := if pf x.ws 4 2 2 == 1 then (coates e live raw).1 else raw.map (16 * ·)
    let bg := (a * e + 2048) / 2 ^ 12
    let xs := corr.map (· - bg)
    let p := (argmax corr).1
    let lo := p - pf x.ws 2 5 0
    let hi := min (p + pf x.ws 2 5 0) 191
    let idx := (List.range 192).filter fun i => decide (lo ≤ i) && decide (i ≤ hi)
    let sig := (idx.map fun i => xs.getD i 0).sum
    if sig < 16 * pf x.ws 2 15 8 then none
    else
      let t := 256 * s.rd (F.HIS_FIXWIN_START 0) + (idx.map fun i => xs.getD i 0 * i).sum * 256 / sig + 128
      some (t, x.walk (walkIndex (min 4095 (sig * 64 / e))), sig, bg * (hi - lo + 1))

/-- What range zero finds for channel `c`: its figure, none where a check without a figure fails, and the new offset. -/
def State.rzChannel (s : State) (c : Nat) : Option (Int × Int) :=
  if Tab.get (fun _ => 0) s.cal.rzBad c ≠ 0 then none
  else match s.rzReturn c with
    | none => none
    | some (t, walk, sig, b) =>
      let x := s.laneIn c 0
      let tCal := Tab.get (fun _ => 250) s.cal.tCal c
      let temp := if s.legacy then 0 else (signed 16 (pf x.ws 7 15 0) * (s.tRz - tCal)).tdiv 10
      let off := (t : Int) - Tab.get (fun _ => 0) s.cal.bofs c - temp - walk - s.dExp
      let m := s.rd F.CAL_RZ_CFG_SNR_MIN
      let snr : Int := (isqrt (625 * sig * sig / (m * m * (sig + b))) : Nat) - 100
      some (min (figUpper 13116 off.natAbs 1) snr, (t : Int) - walk - s.dExp)

/-- The sextant set that ends range zero: sources of the firing latency, armed internally (R332, R297). -/
def State.rzSextant (s : State) : State :=
  let s := ((s.wr F.SXT_CFG_START_SRC 1).wr F.SXT_CFG_STOP_SRC 1).wr F.SXT_CFG_GATE_SRC 2
  (if s.on F.SXT_CTRL_EN then s.sxtArm false else s.sxtEnable).cl fun c => { c with rzSet := true }

/-- RANGE_ZERO_ITEM (R332): the point cycles have run; the new offsets of the passing channels are computed, and the sextant set starts
whose end applies them (R326). -/
def execRangeZeroItem (s : State) : Host.Outcome State Fault Refusal :=
  .next <|
    if !s.itemIs 3 || s.cal.rzSet || decide (s.cal.rzCycles < 16 * s.rd F.CAL_RZ_CFG_CYCLES) then s
    else
      let found := (List.range 1152).map s.rzChannel
      let (free, s) := if found.any Option.isNone then s.freeFail else (0, s)
      let qs := found.map fun x => (x.map Prod.fst).getD free
      let pass (c : Nat) : Bool := match found.getD c none with
        | some (q, _) => decide (0 ≤ q)
        | none => false
      let s := s.calResults 3 qs
      if !(List.range 1152).any pass then s.itemDone false
      else
        let t := s.tRz
        let bofs := (List.range 1152).foldl (fun m c => match found.getD c none with
          | some (q, v) => if 0 ≤ q then Tab.set (fun _ => 0) m c v else m
          | none => m) s.cal.bofs
        let tCal := (List.range 1152).foldl (fun m c =>
          if (List.range 6).any (fun l => pass (c / 6 * 6 + l)) then Tab.set (fun _ => 250) m c t else m) s.cal.tCal
        (s.cl fun x => { x with rzNew := some (bofs, tCal) }).rzSextant

/-- Range zero is applied (R326, R332): the offsets and T_CAL it computed are in force, with no ΔL, and go into the pages. -/
def State.rzApply (s : State) : State :=
  match s.cal.rzNew with
  | some (bofs, tCal) => (s.cl fun x => { x with bofs := bofs, tCal := tCal, dL := 0, rzNew := none }).pagesOut
  | none => s

/-- ΔL = round((MEAN − LAT0) / 8), in 1/256 code (R333). -/
def State.deltaL (s : State) : Int := (s.sxtMeanNow - s.rdS F.CAL_RZ_LAT_LAT0 + 4) / 8

/-- SEXTANT_SET_COMPLETE (R298, R332, R333): the results latch. The set that ends range zero applies it and gives CAL_RZ_LAT; a set of the
firing latency in SCAN or DERATED moves the bearing offsets, and there the next one is armed. -/
def execSextantSetComplete (s : State) : Host.Outcome State Fault Refusal :=
  .next <|
    if !s.sxtRuns || !s.on F.SXT_STATUS_ARMED || s.sxt.start.isSome || decide (s.sxt.n + s.sxt.miss < s.rd F.SXT_N_N) then s
    else
      let s := s.sxtLatch
      if s.itemIs 3 && s.cal.rzSet then
        let s := s.rzApply.wr F.CAL_RZ_LAT_LAT0 (s.rd F.SXT_MEAN_LO_MEAN)
        ((s.wr F.CAL_LAST_RZ_AGE 0).wrS F.CAL_LAST_RZ_TEMP s.tRz).itemDone true
      else if (s.mode = mSCAN ∨ s.mode = mDERATED) ∧ s.rd F.SXT_CFG_START_SRC = 1 ∧ s.rd F.SXT_CFG_STOP_SRC = 1 then
        ((s.cl fun c => { c with dL := s.deltaL }).pagesOut).sxtKeep
      else s.sxtKeep

/-- RZ_DRIFT_ENTRY (R333): |ΔL| has exceeded DRIFT_MAX for 1 s at instant `t`. -/
def execRzDriftEntry (t : Nat) (s : State) : Host.Outcome State Fault Refusal :=
  .next <|
    if s.cal.drift || s.tilHeld || decide (s.cal.dL.natAbs ≤ s.rd F.CAL_RZ_DRIFT_DRIFT_MAX) then s
    else
      let h := recent t (s.cal.driftHist ++ [t])
      let s := s.cl fun c => { c with rerunTemp := c.rerunTemp && s.on F.CAL_STATUS_RERUN_PENDING, drift := true, driftHist := h }
      let s := (s.wr F.CAL_STATUS_RERUN_PENDING 1).raise 483
      if 8 < h.length then s.wr F.CAL_STATUS_RZ_FLAP 1 else s

/-- RZ_DRIFT_CLEAR (R333): |ΔL| has stayed below 3/4 of DRIFT_MAX for 1 s. -/
def execRzDriftClear (s : State) : Host.Outcome State Fault Refusal :=
  .next (if 4 * s.cal.dL.natAbs < 3 * s.rd F.CAL_RZ_DRIFT_DRIFT_MAX ∧ !s.on F.CAL_STATUS_RZ_FLAP then
      s.cl fun c => { c with drift := false }
    else s)

/-- Release of the drift latch (R333, R470). -/
def State.rzFlapRelease (s : State) : State := (s.wr F.CAL_STATUS_RZ_FLAP 0).cl fun c => { c with driftHist := [] }

/-- RZ_FLAP_RELEASE (R333). -/
def execRzFlapRelease (s : State) : Host.Outcome State Fault Refusal := .next (s.access false State.rzFlapRelease)

/-! ### SPAD survey (R334) -/

/-- Twice the median count of all 18,432 SPADs: the sum of the two middle counts; unlisted SPADs counted 0. -/
def medianTwice (t : Tab Nat) : Nat :=
  let v := (t.map fun e => (e.2 : Int)).foldr insertInt []
  let zeros := 18432 - v.length
  let nth (i : Nat) : Nat := if i < zeros then 0 else (v.getD (i - zeros) 0).toNat
  nth 9215 + nth 9216

/-- Shadow mask of channel `c`; bit 1 = enabled. -/
def State.maskShadow (s : State) (c : Nat) : Nat :=
  if c % 2 = 1 then s.rd (F.DET_SPAD_MASK_MASK_HI (c / 2)) else s.rd (F.DET_SPAD_MASK_MASK_LO (c / 2))

def State.setMaskShadow (s : State) (c v : Nat) : State :=
  if c % 2 = 1 then s.wr (F.DET_SPAD_MASK_MASK_HI (c / 2)) v else s.wr (F.DET_SPAD_MASK_MASK_LO (c / 2)) v

/-- The enabled SPADs of channel `c` whose rate exceeds HOT_RATE k/s, the hottest first, the lower SPAD first among equals. -/
def State.hotSpads (s : State) (c : Nat) : List Nat :=
  let count (p : Nat) := Tab.get (fun _ => 0) s.cal.probes (16 * c + p)
  let hot := (List.range 16).filter fun p => (s.maskShadow c).testBit p
    && decide (s.rd F.CAL_SURVEY_CFG_HOT_RATE * s.rd F.DET_PROBE_CFG_GATE < 100 * count p)
  let insert (p : Nat) (l : List Nat) : List Nat :=
    l.takeWhile (fun q => decide (count p ≤ count q) && !(count p == count q && decide (p < q))) ++ p ::
      l.dropWhile (fun q => decide (count p ≤ count q) && !(count p == count q && decide (p < q)))
  hot.foldr insert []

/-- SPAD_SURVEY (R334): once every SPAD has been probed, the survey is judged and its additions are committed. -/
def execSpadSurvey (s : State) : Host.Outcome State Fault Refusal :=
  .next <|
    if !s.itemIs 4 || s.cal.surveyAt != some 18432 then s
    else
      let whole := figUpper (s.rd F.CAL_SURVEY_CFG_DARK_MAX) (100 * medianTwice s.cal.probes) (2 * s.rd F.DET_PROBE_CFG_GATE)
      if whole < 0 then (s.calResult 4 whole 1 0x7FF).itemDone false
      else
        let most := s.rd F.CAL_SURVEY_CFG_MAX_ADD
        let qs := (List.range 1152).map fun c => min whole (figUpper most (s.hotSpads c).length 1)
        let s := s.forN 1152 fun c s =>
          let add := (s.hotSpads c).take most
          if add.isEmpty then s
          else
            let bits := (add.map (2 ^ ·)).sum
            let f := Tab.get (fun _ => 0) s.cal.field c ||| bits
            (s.setMaskShadow c (s.maskShadow c &&& (0xFFFF - bits))).cl fun x => { x with field := Tab.set (fun _ => 0) x.field c f }
        ((s.wr F.DET_STATUS_COMMIT_PENDING 1).calResults 4 qs).itemDone true

/-- The fused hot-pixel map's mask of channel `c` (Table CT-3): SPAD 40i + j is bit j of row 64 + i. -/
def State.fusedMask (s : State) (c : Nat) : Nat :=
  ((List.range 16).filter fun p =>
    let k := 16 * c + p
    !(((s.fuseGet (64 + k / 40)).getD 0).testBit (k % 40))).foldl (fun m p => m + 2 ^ p) 0

/-- The fused map goes into the shadow masks. -/
def State.loadMasks (s : State) : State := s.forN 1152 fun c s => s.setMaskShadow c (s.fusedMask c)

/-- CAL_CTRL.CLR_FIELD (R334): in STANDBY, all field additions are discarded and the fused map is reloaded into both masks; trims and a
pending commit stay. -/
def State.clrField (s : State) : State :=
  if s.mode = mSTANDBY then ((s.cl fun c => { c with field := [] }).loadMasks.copySpads).evalSilence else s

/-- CLR_FIELD (R334). -/
def execClrField (s : State) : Host.Outcome State Fault Refusal := .next (s.access false State.clrField)

/-! ### Legacy sets (R336, R337) -/

/-- Word `i` of the legacy set window. -/
def State.legWord (s : State) (i : Nat) : Word := s.reg (R.CAL_LEG_WIN i)

/-- The set in the window passes its CRC and HW_TYPE. -/
def State.legWindowOk (s : State) : Bool :=
  let b := (List.range 580).flatMap fun i => bytesOf 4 (s.legWord i).toNat
  crc32c b == (s.legWord 580).toNat && (s.legWord 0).toNat == 0x4C580288

/-- Temperatures loaded for quarter `q`, with `t` at index `k`, rise by at least 5.0 °C. -/
def State.legRises (s : State) (k q : Nat) (t : Int) : Bool :=
  let ts := (List.range 4).filterMap fun j =>
    if j = k then some t
    else if (s.rd F.CAL_LEG_STATUS_LOADED).testBit (4 * j + q) then some (Tab.get (fun _ => 0) s.cal.legTemp (4 * j + q)) else none
  (ts.zip (ts.drop 1)).all fun (a, b) => decide (a + 50 ≤ b)

/-- A write of CAL_LEG_CTRL.COMMIT (R336). -/
def State.legCommit (s : State) : State :=
  let k := s.rd F.CAL_LEG_SEL_TEMP
  let q := s.rd F.CAL_LEG_SEL_QUARTER
  let t := signed 16 (s.legWord 1).toNat
  if s.legWindowOk && s.legRises k q t then
    let put (g : Nat → Int) (m : Tab Int) : Tab Int :=
      (List.range 288).foldl (fun m r => Tab.set (fun _ => 0) m (1152 * k + 288 * q + r) (g r)) m
    let s := s.cl fun c => { c with
      legTemp := Tab.set (fun _ => 0) c.legTemp (4 * k + q) t
      legSkew := put (fun r => signed 8 (s.legWord (4 + 2 * r)).toNat) c.legSkew
      legBofs := put (fun r => signed 32 (s.legWord (5 + 2 * r)).toNat) c.legBofs }
    (s.wrS (F.CAL_LEG_TEMP_TEMP k) t).wr F.CAL_LEG_STATUS_LOADED (withBit (s.rd F.CAL_LEG_STATUS_LOADED) (4 * k + q) true)
  else s.calResult 5 (-1) 1 0x7FF

/-- LEGACY_COMMIT (R336). -/
def execLegacyCommit (s : State) : Host.Outcome State Fault Refusal := .next (s.access false State.legCommit)

/-- Linear interpolation at temperature `t` between the loaded sets of channel `c`, as numerator and positive denominator; held at
the ends (R337). -/
def State.legAt (s : State) (m : Tab Int) (c : Nat) (t : Int) : Int × Nat :=
  let q := c / 288
  let v (k : Nat) : Int := Tab.get (fun _ => 0) m (1152 * k + c)
  let u (k : Nat) : Int := Tab.get (fun _ => 0) s.cal.legTemp (4 * k + q)
  if t ≤ u 0 then (v 0, 1)
  else if u 3 ≤ t then (v 3, 1)
  else
    let k := if t < u 1 then 0 else if t < u 2 then 1 else 2
    (v k * (u (k + 1) - u k) + (v (k + 1) - v k) * (t - u k), (u (k + 1) - u k).toNat)

/-- The skew of channel `c` is due for a rewrite: the skew in force has lain more than 0.75 code off for ten evaluations (100 ms). -/
def State.legSkewStep (s : State) (t : Int) (c : Nat) : State :=
  let (num, den) := s.legAt s.cal.legSkew c t
  let off := decide (3 * den < 4 * (num - s.skewAct c * den).natAbs)
  let run := if off then Tab.get (fun _ => 0) s.cal.legRun c + 1 else 0
  if 10 ≤ run then
    ((s.wrS (F.TDC_CH_CFG_SKEW c) (divRound num den)).wr F.TDC_STATUS_COMMIT_PENDING 1).cl fun x =>
      { x with legRun := Tab.set (fun _ => 0) x.legRun c 0 }
  else s.cl fun x => { x with legRun := Tab.set (fun _ => 0) x.legRun c run }

/-- LEGACY_INTERPOLATION (R337): the evaluation every 10 ms. The first in which the legacy sets are in force writes the pages, which forces
TC to 0; later ones write them when a lane has moved. -/
def execLegacyInterpolation (s : State) : Host.Outcome State Fault Refusal :=
  .next <|
    let live := s.on F.CAL_CFG_LEG_EN && s.rd F.CAL_LEG_STATUS_LOADED == 0xFFFF && !s.tilHeld
    let fresh := live && !s.legacy
    let s := s.put F.CAL_STATUS_LEG_ACTIVE live
    if !live then s
    else
      let t := s.tRz
      let s := s.forN 1152 fun c s =>
        let (num, den) := s.legAt s.cal.legBofs c t
        s.wrS (F.CAL_LEG_BOFS_BOFS c) (divRound num den)
      let s := s.forN 1152 fun c s => s.legSkewStep t c
      let s := s.cl fun x => { x with legWait := if fresh then 10 else x.legWait + 1 }
      let moved := (List.range 1152).any fun c => decide (16 ≤ (s.pageBofs c - Tab.get (fun _ => 0) s.cal.legWritten c).natAbs)
      if (fresh || moved) && decide (10 ≤ s.cal.legWait) then s.pagesOut.cl fun x => { x with legWait := 0 } else s

/-! ### Fuse burns (R340) -/

/-- A row is torn: burned in part, so not valid (R338). -/
def fuseTorn (v : Nat) : Bool := v != 0 && !fuseValid v

/-- The free spare rows, lowest first. -/
def State.freeSpares (s : State) : List Nat := ((List.range 8).map (4088 + ·)).filter fun r => s.fuseRow r == 0

/-- A valid row (R338). -/
def fuseWord (tag data : Nat) : Nat :=
  let body := (tag * 2 ^ 40 + data % 2 ^ 40)
  3 * 2 ^ 62 + body * 2 ^ 8 + crc8 52 body

/-- Puts a raw row; SPARES_FREE follows. -/
def State.putFuse (s : State) (r v : Nat) : State :=
  let s := s.cl fun c => { c with fuse := Tab.set (fun _ => 0) c.fuse r v }
  s.wr F.CAL_FUSE_STATUS_SPARES_FREE s.freeSpares.length

/-- Leaves row `r` torn: VALID = 0b01, its other bits free (R340). -/
def State.tearFuse (s : State) (r : Nat) : State :=
  let (v, s) := s.drawFree 60
  s.putFuse r (2 ^ 62 + v)

/-- A write of CAL_FUSE_CTRL with BURN = 1 (R340). -/
def State.fuseBurn (s : State) (key : Nat) : State :=
  let r := s.rd F.CAL_FUSE_ROW_ROW
  let sealed := decide (r ≤ 3156) && s.on F.HDG_STATUS_SEAL_LOCK
  if key = 0xF05E ∧ s.mode = mSTANDBY ∧ !s.sys.pfLow ∧ s.cal.burn.isNone ∧ 3124 ≤ r ∧ r ≤ 3199 ∧ (s.fuseGet r).isNone ∧ !sealed then
    (s.wr F.CAL_FUSE_STATUS_BUSY 1).cl fun c => { c with
      burn := some (r, 2 ^ 32 * s.rd F.CAL_FUSE_DATA_HI_DATA + s.rd F.CAL_FUSE_DATA_LO_DATA), burnCut := false }
  else s.cfgReject

/-- FUSE_BURN (R340) with the written KEY. -/
def execFuseBurn (key : Fin 65536) (s : State) : Host.Outcome State Fault Refusal := .next (s.access false fun s => s.fuseBurn key)

/-- A burn that the device's reset cuts leaves the row it burns torn, and those it had tried before (R340, R456): how many is not stated, a
free value (log entry 239). -/
def State.burnTorn (s : State) : State :=
  match s.cal.burn with
  | none => s
  | some (r, _) =>
    let rows := (if fuseTorn (s.fuseRow r) then [] else [r]) ++ s.freeSpares
    let (k, s) := s.drawFree 4
    (rows.take (k % 9 + 1)).foldl State.tearFuse s

/-- FUSE_BURN_COMPLETE (R340): `bad` rows read back wrong before the burn succeeded, ran out of rows, or was cut by PF_N. -/
def execFuseBurnComplete (bad : Nat) (s : State) : Host.Outcome State Fault Refusal :=
  .next <| match s.cal.burn with
    | none => s
    | some (r, data) =>
      let rows := (if fuseTorn (s.fuseRow r) then [] else [r]) ++ s.freeSpares
      let cut := s.cal.burnCut
      let s := (rows.take (if cut then bad + 1 else bad)).foldl State.tearFuse s
      let s := (s.wr F.CAL_FUSE_STATUS_BUSY 0).cl fun c => { c with burn := none, burnCut := false }
      if cut then (s.wr F.CAL_FUSE_STATUS_RESULT 3).raise 485
      else match rows[bad]? with
        | none => (s.wr F.CAL_FUSE_STATUS_RESULT 2).raise 485
        | some q => ((s.putFuse q (fuseWord (if q = r then 0 else r + 1) data)).wr F.CAL_FUSE_STATUS_RESULT (if q = r then 0 else 1)).raise 484

/-! ### Loading the fuse shadow (R46, R64, R338) -/

/-- The fused remap tables and skews go into the shadow registers; unfused ones keep the reset value (Table CT-3). -/
def State.loadLuts (s : State) : State :=
  let s := s.forN 1152 fun c s =>
    match s.fuseGet (525 + 2 * c), s.fuseGet (526 + 2 * c) with
    | some a, some b => s.putLut c fun p => if p < 8 then a / 2 ^ (5 * p) % 32 else b / 2 ^ (5 * (p - 8)) % 32
    | _, _ => s
  s.forN 1152 fun c s => match s.fuseGet (2829 + c / 5) with
    | some d => s.wr (F.TDC_CH_CFG_SKEW c) (d / 2 ^ (8 * (c % 5)) % 256)
    | none => s

/-- The fused values load into shadow and active sets on leaving RESET (R46, R64); SHADOW_OK reads 1 (R413). -/
def State.loadFuses (s : State) : State :=
  let s := (s.loadMasks.copyMasks).loadLuts
  let s := s.tdcCopy
  let s := (s.wr F.BOOT_SERIAL_LO_SERIAL Config.unitSerial.toNat).wr F.BOOT_SERIAL_HI_SERIAL (Config.unitSerial.toNat / 2 ^ 32)
  let s := s.forN 2 fun e s =>
    (s.wr (F.LNK_ETH_SMAC_LO_MAC e) (Config.ethMac e).toNat).wr (F.LNK_ETH_SMAC_HI_MAC e) ((Config.ethMac e).toNat / 2 ^ 32)
  (s.wr F.CAL_STATUS_SHADOW_OK 1).wr F.CAL_FUSE_STATUS_SPARES_FREE s.freeSpares.length

end Sys2Proof.Machine
end

