-- ==== Sys2Proof/Machine/Derate.lean ====
section
/-! DEFINITION. Commands that can take away the last derate source, and with it bring DERATED back to SCAN, where a rerun that waits is
carried out (R335, Table AR-8): the tillers' run controls, the emitter's fault clearing and the line faults. -/

namespace Sys2Proof.Machine

/-- RUN (R126). -/
def execRun (n : Fin 192) (s : State) : Host.Outcome State Fault Refusal :=
  .next (s.access s.tilStopped fun s => s.toScan fun s => s.tilRun n)

/-- STEP (R126). -/
def execStep (n : Fin 192) (t : Nat) (s : State) : Host.Outcome State Fault Refusal :=
  .next (s.access s.tilStopped fun s => s.toScan fun s => s.tilStep n t)

/-- MEM_INIT (R114). -/
def execMemInit (n : Fin 192) (s : State) : Host.Outcome State Fault Refusal :=
  .next (s.access s.tilStopped fun s => s.toScan fun s => s.tilInit n)

/-- GROUP_RUN (R127). -/
def execGroupRun (s : State) : Host.Outcome State Fault Refusal := .next (s.access s.tilStopped fun s => s.toScan State.groupRun)

/-- FAULT_CLR (R220). -/
def execFaultClr (s : State) : Host.Outcome State Fault Refusal := .next (s.access s.mainStopped fun s => s.toScan State.faultClr)

/-- LINE_FAULT_CLEAR (R215). -/
def execLineFaultClear (r : Fin 3) (w : Word) (s : State) : Host.Outcome State Fault Refusal :=
  .next (s.access s.mainStopped fun s => s.toScan fun s => s.lineClear r w)

end Sys2Proof.Machine
end

