-- ==== Sys2Proof/Machine/Thermal.lean ====
section
/-! DEFINITION. Temperature sensors, thermal stages, rails and compensation (chapter 12, R343 to R351; R176). -/

namespace Sys2Proof.Machine

/-- Applies `f` to the thermal state. -/
def State.th (s : State) (f : Thm → Thm) : State := { s with thm := f s.thm }

/-- First sensor and number of sensors of the zone of sensor `k` (R343). -/
def zoneOf (k : Nat) : Nat × Nat := if k < 8 then (0, 8) else (8 + (k - 8) / 4 * 4, 4)

/-- The TRIP comparator judges sensor `k`: it is neither FAILED nor RETIRED, in a RESET too that has cleared STATE (R349). -/
def State.compared (s : State) (k : Nat) : Bool :=
  s.rd (F.THM_SNS_ST_STATE k) == 0 && !(s.rd F.THM_RETIRED_MASK).testBit k

/-- STATE of sensor `k`: 0 OK, 1 FAILED, 2 RETIRED. -/
def State.snsState (s : State) (k : Nat) : Nat := s.rd (F.THM_SNS_ST_STATE k)

/-- CRITICAL + 1 °C, in 0.1 °C. -/
def State.failedReading (s : State) : Int := 10 * s.rd F.THM_THR_CRITICAL + 10

/-- The used reading of sensor `k` (R344, R345). -/
def State.usedOf (s : State) (k : Nat) : Int :=
  match s.snsState k with
  | 0 => s.rdS (F.THM_SNS_T_RAW k)
  | 1 => s.failedReading
  | _ =>
    let (lo, n) := zoneOf k
    let next := (List.range (n - 1)).map fun i => lo + (k - lo + 1 + i) % n
    match next.find? fun j => s.snsState j == 0 with
    | some j => s.rdS (F.THM_SNS_T_RAW j) + 50
    | none => s.failedReading

/-- FAST: the reading lies within 5.0 °C below the lowest of WARM, HOT, CRITICAL and TRIP above it (R343). -/
def State.fastOf (s : State) (k : Nat) : Bool :=
  let v := s.rdS (F.THM_SNS_T_RAW k)
  let above := ([s.rd F.THM_THR_WARM, s.rd F.THM_THR_HOT, s.rd F.THM_THR_CRITICAL, s.rd F.THM_THR_TRIP].map fun x => (10 * x : Int)).filter
    fun x => decide (v < x)
  match above with
  | [] => false
  | x :: xs => decide (xs.foldl min x ≤ v + 50)

/-- The readings' consequences: used readings, FAST, the stage temperature and its sensor, the range-zero temperature (R343 to
R347). -/
def State.thermSettle (s : State) : State :=
  let s := s.forN 24 fun k s => (s.wrS (F.THM_SNS_T_USED k) (s.usedOf k)).put (F.THM_SNS_ST_FAST k) (s.fastOf k)
  let u (k : Nat) : Int := s.rdS (F.THM_SNS_T_USED k)
  let hottest := (List.range 24).foldl (fun m k => if u m < u k then k else m) 0
  let s := (s.wr F.THM_STATUS_HOTTEST hottest).wrS F.THM_T_STAGE_T_STAGE (u hottest)
  let ok := s.okReadings 8 4
  if 2 ≤ ok.length then (s.wrS F.THM_T_STAGE_T_RZ (median ok)).wr F.THM_STATUS_RZ_STALE 0
  else (s.wr F.THM_STATUS_RZ_STALE 1).raiseIf (!s.on F.THM_STATUS_RZ_STALE) 26

/-- SENSOR_CONVERSION (R343, R344, R349): the converter reads `v` (0.1 °C) on sensor `k`. The 16th conversion carries the offset of
+8.0 °C and is no reading. In RESET only the TRIP comparator sees the reading. -/
def execSensorConversion (k : Fin 24) (v : Int) (s : State) : Host.Outcome State Fault Refusal :=
  .next <|
    let z : Nat → Nat := fun _ => 0
    let c := Tab.get z s.thm.conv k
    let last := Tab.get (fun _ => 0) s.thm.last k
    let s := s.th fun x => { x with conv := Tab.set z x.conv k ((c + 1) % 16) }
    if c = 15 then
      let run := if 70 ≤ v - last ∧ v - last ≤ 90 then 0 else Tab.get z s.thm.testRun k + 1
      s.th fun x => { x with testRun := Tab.set z x.testRun k run }
    else
      let trip := decide (10 * (s.rd F.THM_THR_TRIP : Int) ≤ v) && s.compared k
      let s := s.th fun x => { x with last := Tab.set (fun _ => 0) x.last k v
                                      tripRun := Tab.set z x.tripRun k (if trip then Tab.get z x.tripRun k + 1 else 0) }
      if s.mode = mRESET then s
      else
        let s := if k.val < 8 then { s with det := { s.det with tempOld := false } } else s
        (s.wrS (F.THM_SNS_T_RAW k) v).thermSettle

/-- The cause of a failure is seen (R344): 0 STUCK, 1 RANGE, 2 DISAGREE. DWELL is the command's. -/
def State.failSeen (s : State) (k cause : Nat) : Bool :=
  let v := s.rdS (F.THM_SNS_T_RAW k)
  match cause with
  | 0 => decide (2 ≤ Tab.get (fun _ => 0) s.thm.testRun k)
  | 1 => decide (v < -500) || decide (1500 < v)
  | _ =>
    let (lo, n) := zoneOf k
    let others := ((List.range n).map (lo + ·)).filter fun j => j != k && s.snsState j == 0
    !others.isEmpty && decide (150 < (v - median (others.map fun j => s.rdS (F.THM_SNS_T_RAW j))).natAbs)

/-- SENSOR_FAIL (R344). A sensor that has failed already gains the cause without an event; a retired one is not judged. -/
def execSensorFail (k : Fin 24) (cause : Fin 3) (s : State) : Host.Outcome State Fault Refusal :=
  .next <|
    if s.mode = mRESET ∨ s.snsState k = 2 ∨ !s.failSeen k cause then s
    else
      let first := s.snsState k == 0
      ((((s.wr (F.THM_SNS_ST_STATE k) 1).wr (F.THM_SNS_ST_CAUSE k) (withBit (s.rd (F.THM_SNS_ST_CAUSE k)) cause true)).raiseIf
        first 21)).thermSettle

/-- A write of THM_SNS_CTRL.READMIT (R344): the sensor is checked afresh. -/
def State.readmit (s : State) (k : Nat) : State :=
  if s.mode ≠ mSTANDBY ∧ s.mode ≠ mSAFESTOP then s.cfgReject
  else if s.snsState k ≠ 1 then s
  else (((s.wr (F.THM_SNS_ST_STATE k) 0).wr (F.THM_SNS_ST_CAUSE k) 0).th fun x =>
    { x with testRun := Tab.set (fun _ => 0) x.testRun k 0 }).thermSettle

/-- The unretired sensors of sensor `k`'s zone without it (R345). -/
def State.zoneLeft (s : State) (k : Nat) : Nat :=
  let (lo, n) := zoneOf k
  (((List.range n).map (lo + ·)).filter fun j => j != k && s.snsState j != 2).length

/-- A write of THM_SNS_CTRL.RETIRE (R345): at least two unretired sensors stay in the zone. -/
def State.retireSensor (s : State) (k : Nat) : State :=
  if (s.mode ≠ mSTANDBY ∧ s.mode ≠ mSAFESTOP) ∨ s.zoneLeft k < 2 then s.cfgReject
  else ((s.wr (F.THM_SNS_ST_STATE k) 2).wr F.THM_RETIRED_MASK (withBit (s.rd F.THM_RETIRED_MASK) k true)).thermSettle

/-- The write of an action bit is ignored: in every mode but STANDBY and SAFE-STOP, and a RETIRE that leaves fewer than two unretired
sensors in the zone (R344, R345). -/
def State.snsIgnored (s : State) (k : Nat) (retire readmit : Bool) : Bool :=
  (retire || readmit) && ((s.mode != mSTANDBY && s.mode != mSAFESTOP) || (retire && decide (s.zoneLeft k < 2)))

/-- A write of THM_SNS_CTRL: SENSOR 24 to 31, and both action bits at 1, are reserved (Table CT-7). -/
def State.snsCtrl (s : State) (k : Nat) (retire readmit : Bool) : State :=
  if 24 ≤ k ∨ (retire ∧ readmit) ∨ s.snsIgnored k retire readmit then s.cfgReject
  else
    let s := s.wr F.THM_SNS_CTRL_SENSOR k
    if retire then s.retireSensor k else if readmit then s.readmit k else s

/-- READMIT (R344). -/
def execReadmit (k : Fin 32) (s : State) : Host.Outcome State Fault Refusal := .next (s.access false fun s => s.snsCtrl k false true)

/-- RETIRE (R345). -/
def execRetire (k : Fin 32) (s : State) : Host.Outcome State Fault Refusal := .next (s.access false fun s => s.snsCtrl k true false)

/-! ### Stages (R347) -/

/-- Threshold of indicator 0 WARM, 1 HOT, 2 CRITICAL, in 0.1 °C. -/
def State.thrOf (s : State) (i : Nat) : Int :=
  10 * (s.rd (if i = 0 then F.THM_THR_WARM else if i = 1 then F.THM_THR_HOT else F.THM_THR_CRITICAL) : Nat)

/-- IND, STAGE, the thermal derate source and the throttle after the set of indicators became `ind` (Table CT-4). -/
def State.setInd (s : State) (ind : Nat) : State :=
  let stage := if ind.testBit 2 then 3 else if ind.testBit 1 then 2 else ind % 2
  let s := ((s.wr F.THM_STATUS_IND ind).wr F.THM_STATUS_STAGE stage).put F.THM_STATUS_DERATE_SRC (ind.testBit 1)
  s.showThrottle

/-- An entry of history key `key` at instant `t`: the ninth within 60 s latches it (R347, R351). -/
def State.thmEntry (s : State) (key t : Nat) : State :=
  let h := recent t (Tab.get (fun _ => []) s.thm.hist key ++ [t])
  let s := s.th fun x => { x with hist := Tab.set (fun _ => []) x.hist key h }
  if 8 < h.length ∧ !s.thm.latched.testBit key then
    ((s.th fun x => { x with latched := withBit x.latched key true }).wr F.THM_STATUS_FLAP 1).raise 22
  else s

/-- What HOT does when it enters (Table CT-4): SCAN enters DERATED, and CALIBRATE from SCAN is aborted into it, an orderly stop that
a host command began given up (R35). -/
def State.hotAction (s : State) : State :=
  if s.mode = mCALIBRATE ∧ s.sys.calFrom = mSCAN ∧ s.outranksStop then (s.stopGivenUp 0x07).goMode mDERATED 0x07 else s.derateCheck

/-- THERMAL_INDICATOR_ENTRY (R347): the indicators of `inds` (bit 0 WARM, 1 HOT, 2 CRITICAL) have stood at their thresholds for
DWELL at instant `t`; CRITICAL's orderly stop outranks HOT (R35). -/
def execThermalIndicatorEntry (inds : Fin 8) (t : Nat) (s : State) : Host.Outcome State Fault Refusal :=
  .next <|
    let due := (List.range 3).filter fun i => inds.val.testBit i && !(s.rd F.THM_STATUS_IND).testBit i
      && decide (s.thrOf i ≤ s.rdS F.THM_T_STAGE_T_STAGE)
    if s.mode = mRESET ∨ due.isEmpty then s
    else
      let s := s.setInd (due.foldl (fun m i => withBit m i true) (s.rd F.THM_STATUS_IND))
      let s := due.foldl (fun s i => (s.raise (16 + i)).thmEntry i t) s
      let s := if due.contains 2 then s.orderlyStop 0x08 else s
      if due.contains 1 then s.hotAction else s

/-- THERMAL_INDICATOR_EXIT (R347): the indicators of `inds` have stood below threshold − HYST for DWELL. A latched one stays. -/
def execThermalIndicatorExit (inds : Fin 8) (s : State) : Host.Outcome State Fault Refusal :=
  .next <|
    let ind := s.rd F.THM_STATUS_IND
    let due := (List.range 3).filter fun i => inds.val.testBit i && ind.testBit i && !s.thm.latched.testBit i
      && decide (s.rdS F.THM_T_STAGE_T_STAGE < s.thrOf i - 10 * s.rd F.THM_HYST_HYST)
    if s.mode = mRESET ∨ due.isEmpty then s
    else
      let s := s.setInd (due.foldl (fun m i => withBit m i false) ind)
      (s.raiseIf (s.rd F.THM_STATUS_IND == 0) 20).toScan State.derateCheck

/-- Release of every latched indicator and rail monitor (R347, R470): the held ones leave later by their own exits. -/
def State.thmFlapRelease (s : State) : State :=
  (s.wr F.THM_STATUS_FLAP 0).th fun x => { x with latched := 0, hist := [] }

/-- THM_FLAP_RELEASE (R347). -/
def execThmFlapRelease (s : State) : Host.Outcome State Fault Refusal := .next (s.access false State.thmFlapRelease)

/-! ### Rails (R351) -/

/-- Nominal voltage of rail `r` in mV (Table EL-2): VDD_CORE, VDD_SRAM, VDD_TDC, VDD_LANE, VDD_IO18, VDD_ANA33. -/
def railNominal (r : Nat) : Nat := [750, 800, 800, 850, 1800, 3300].getD r 0

/-- RAIL_MONITOR_ENTRY (R351): rail `r` has lain more than 5 % below or above nominal for 1 ms, at `mv` mV at instant `t`. -/
def execRailMonitorEntry (r : Fin 6) (mv t : Nat) (s : State) : Host.Outcome State Fault Refusal :=
  .next <|
    let n := railNominal r
    let high := decide (105 * n < 100 * mv)
    let low := decide (100 * mv < 95 * n)
    let f := if high then F.THM_RAIL_OV r else F.THM_RAIL_UV r
    if s.mode = mRESET ∨ !(high || low) then s
    else
      let s := s.wr (F.THM_RAIL_MEAS r) mv
      if s.on f then s else ((s.wr f 1).raise 23).thmEntry (3 + r) t

/-- RAIL_MONITOR_CLEAR (R351): rail `r` has lain within 4 % of nominal for 1 ms, at `mv` mV. A latched bit stays. -/
def execRailMonitorClear (r : Fin 6) (mv : Nat) (s : State) : Host.Outcome State Fault Refusal :=
  .next <|
    let n := railNominal r
    if s.mode = mRESET ∨ 100 * mv < 96 * n ∨ 104 * n < 100 * mv then s
    else
      let s := s.wr (F.THM_RAIL_MEAS r) mv
      if s.thm.latched.testBit (3 + r) then s else (s.wr (F.THM_RAIL_UV r) 0).wr (F.THM_RAIL_OV r) 0

/-! ### Compensation (R350) -/

/-- The DLL path of column `col` (Table CT-5): a trim in force that lies 2 or more off for ten evaluations (100 ms) is rewritten under
R71. -/
def State.dllComp (s : State) (col : Nat) : State :=
  let f := F.TDC_DLL_TRIM_TRIM col
  let base : Int := Word.field (resetWord f.addr) f.hi f.lo
  let want := base + divRound (s.rdS F.THM_COMP_CFG_DLL_SLOPE * (s.tRz - 250)) 160
  let v := clip 0 255 want
  let s := s.trimClamped (v != want)
  let run := if 2 ≤ (v - s.trimAct col).natAbs then Tab.get (fun _ => 0) s.thm.dllRun col + 1 else 0
  let s := s.th fun x => { x with dllRun := Tab.set (fun _ => 0) x.dllRun col (if run < 10 then run else 0) }
  if run < 10 then s else (s.wrS f v).when (!s.running) State.trimTake

/-- The bandgap's curvature trim (Table CT-5), quadratic in the median of the OK sensors of L3 less 25 °C; it holds while none is OK. -/
def State.bandgapComp (s : State) : State :=
  let ok := s.okReadings 20 4
  if ok.isEmpty then s
  else
    let x := median ok - 250
    let want := Config.bandgapCoef 0 + Config.bandgapCoef 1 * x + Config.bandgapCoef 2 * (x * x)
    let v := clip Config.bandgapMin Config.bandgapMax want
    (s.th fun y => { y with bandTrim := v }).trimClamped (v != want)

/-- The calibration oscillator's trim at the range-zero temperature (Table CT-5). -/
def State.oscComp (s : State) : State :=
  let want := Config.oscTrim s.tRz
  let v := clip Config.oscMin Config.oscMax want
  (s.th fun y => { y with oscTrim := v }).trimClamped (v != want)

/-- A second has passed for an AGE field, which saturates (Table CT-6). -/
def State.ageUp (s : State) : State := (s.bump F.CAL_LAST_CD_AGE 1).bump F.CAL_LAST_RZ_AGE 1

/-- COMPENSATION_UPDATE (R350, R351): the 10 ms beat, with the counts of the process rings and the rails' voltages in mV as the slow
round measured them. Every hundredth beat ages the last calibrations by a second. -/
def execCompensationUpdate (rings rails : List Nat) (s : State) : Host.Outcome State Fault Refusal :=
  .next <|
    if s.mode = mRESET then s
    else
      let s := s.forN 8 fun k s => match rings[k]? with
        | some v => s.wr (F.THM_RO_COUNT k) v
        | none => s
      let s := s.forN 6 fun r s => match rails[r]? with
        | some v => s.wr (F.THM_RAIL_MEAS r) v
        | none => s
      let s := s.bandgapComp.oscComp
      let s := if s.on F.THM_COMP_CFG_DLL_EN && !s.mainStopped then s.forN 16 fun c s => s.dllComp c else s
      let b := s.cal.beats + 1
      if b < 100 then s.cl fun c => { c with beats := b } else (s.cl fun c => { c with beats := 0 }).ageUp

/-- T_NOW_UPDATE (R176): the management firmware writes T_NOW of every tiller that holds the reference program. -/
def execTNowUpdate (s : State) : Host.Outcome State Fault Refusal :=
  .next <|
    if s.tilStopped then s
    else s.forN 192 fun n s =>
      if (s.tiller n).refRuns then s.onTiller n fun t => t.putWords 0x1E004 [BitVec.ofNat 32 (unsigned 16 s.tRz)] else s

end Sys2Proof.Machine
end

