-- ==== Sys2Proof/Machine/Link.lean ====
section
/-! DEFINITION. The host link (chapter 14): lanes and their monitors, the Ethernet ports and the point packetiser, the 802.1AS clock,
the PCIe configuration space. -/

namespace Sys2Proof.Machine

/-- Applies `f` to the mode machine's state. -/
def State.sy (s : State) (f : Sys → Sys) : State := { s with sys := f s.sys }

/-- Applies `f` to the state of start, flash and update. -/
def State.bo (s : State) (f : Boot → Boot) : State := { s with boot := f s.boot }

/-- Applies `f` to the link's state. -/
def State.lk (s : State) (f : Lnk → Lnk) : State := { s with lnk := f s.lnk }

/-! ### Lanes and ports (R387, R394, R401 to R403) -/

/-- USE of lane `l` under LANE_MAP `m` (Table LK-1). -/
def laneUse (m l : Nat) : Nat :=
  let row : List Nat := match m with
    | 0 => [1, 1, 1, 1]
    | 1 => [1, 1, 2, 3]
    | 2 => [1, 0, 2, 3]
    | 3 => [1, 1, 2, 0]
    | 4 => [1, 0, 2, 0]
    | _ => [0, 0, 2, 3]
  row.getD l 0

/-- The lanes take the uses of LNK_CFG.LANE_MAP (R387). -/
def State.lnkLanes (s : State) : State :=
  s.forN 4 fun l s => s.wr (F.LNK_LANE_ST_USE l) (laneUse (s.rd F.LNK_CFG_LANE_MAP) l)

/-- Port `e` is enabled. -/
def State.ethEn (s : State) (e : Nat) : Bool := s.on (if e = 0 then F.LNK_CTRL_ETH0_EN else F.LNK_CTRL_ETH1_EN)

/-- The user of a lane with this USE is enabled (R402). -/
def State.userOn (s : State) (use : Nat) : Bool :=
  match use with
  | 0 => false
  | 1 => s.on F.LNK_CTRL_PCIE_EN
  | u => s.ethEn (u - 2)

/-- UP of port `e` follows its block lock and its lane's LOS (R394); a change raises LNK_LINK_CHANGE (R409). -/
def State.upCheck (s : State) (e : Nat) : State :=
  let los := (List.range 4).any fun l => s.rd (F.LNK_LANE_ST_USE l) == e + 2 && s.on (F.LNK_LANE_ST_LOS l)
  let up := s.ethEn e && s.on (F.LNK_ETH_STATUS_BLOCK_LOCK e) && !los
  if up = s.on (F.LNK_ETH_STATUS_UP e) then s
  else ((s.put (F.LNK_ETH_STATUS_UP e) up).put (if e = 0 then F.LNK_STATUS_ETH0_UP else F.LNK_STATUS_ETH1_UP) up).raise 497

/-- Both ports' UP. -/
def State.upChecks (s : State) : State := (s.upCheck 0).upCheck 1

/-- Port `e` is disabled: it has no block lock, and no direction in LPI. -/
def State.ethOff (s : State) (e : Nat) : State :=
  let s := (s.wr (if e = 0 then F.LNK_CTRL_ETH0_EN else F.LNK_CTRL_ETH1_EN) 0).wr (F.LNK_ETH_STATUS_BLOCK_LOCK e) 0
  ((s.wr (F.LNK_ETH_STATUS_RX_LPI e) 0).wr (F.LNK_ETH_STATUS_TX_LPI e) 0).upCheck e

/-- A monitor of lane `l` enters at instant `t` (ps): `k` is 0 for LOS, 1 for LOL (R401, R470). -/
def State.laneEntry (s : State) (l k t : Nat) : State :=
  let b := if k = 0 then F.LNK_LANE_ST_LOS l else F.LNK_LANE_ST_LOL l
  if s.on b then s
  else
    let key := 2 * l + k
    let h := recent t (Tab.get (fun _ => []) s.lnk.laneHist key ++ [t])
    let s := ((s.wr b 1).raise (498 + k)).lk fun x => { x with laneHist := Tab.set (fun _ => []) x.laneHist key h }
    let s := if 8 < h.length ∧ Tab.get (fun _ => 0) s.lnk.laneHeld key = 0 then
        ((s.wr (F.LNK_LANE_ST_FLAP l) 1).raise 500).lk fun x => { x with laneHeld := Tab.set (fun _ => 0) x.laneHeld key 1 }
      else s
    s.upChecks

/-- A monitor of lane `l` exits, unless the latch holds it. -/
def State.laneExit (s : State) (l k : Nat) : State :=
  if Tab.get (fun _ => 0) s.lnk.laneHeld (2 * l + k) = 1 then s
  else (s.wr (if k = 0 then F.LNK_LANE_ST_LOS l else F.LNK_LANE_ST_LOL l) 0).upChecks

/-- LOS_ENTRY (R401) at instant `t` (ps): masked on an unused lane, while the protocol expects electrical idle (`idle`) and in the
quiet periods of LPI. -/
def execLosEntry (l : Fin 4) (idle : Bool) (t : Nat) (s : State) : Host.Outcome State Fault Refusal :=
  .next <|
    let use := s.rd (F.LNK_LANE_ST_USE l)
    if use = 0 ∨ idle ∨ s.mode = mRESET ∨ (2 ≤ use ∧ s.on (F.LNK_ETH_STATUS_RX_LPI (use - 2))) then s
    else s.laneEntry l 0 t

/-- LOS_EXIT (R401). -/
def execLosExit (l : Fin 4) (s : State) : Host.Outcome State Fault Refusal := .next (s.laneExit l 0)

/-- LOL_ENTRY (R401) at instant `t` (ps): masked while LOS is present. -/
def execLolEntry (l : Fin 4) (t : Nat) (s : State) : Host.Outcome State Fault Refusal :=
  .next (if s.rd (F.LNK_LANE_ST_USE l) = 0 ∨ s.on (F.LNK_LANE_ST_LOS l) ∨ s.mode = mRESET then s else s.laneEntry l 1 t)

/-- LOL_EXIT (R401). -/
def execLolExit (l : Fin 4) (s : State) : Host.Outcome State Fault Refusal := .next (s.laneExit l 1)

/-- Releases lane `l`'s latch (R401, R470). -/
def State.laneFlapRelease (s : State) (l : Nat) : State :=
  (s.wr (F.LNK_LANE_ST_FLAP l) 0).lk fun x => { x with
    laneHist := Tab.clear x.laneHist (2 * l) (2 * l + 2), laneHeld := Tab.clear x.laneHeld (2 * l) (2 * l + 2) }

/-- LANE_FLAP_RELEASE (R401). -/
def execLaneFlapRelease (l : Fin 4) (s : State) : Host.Outcome State Fault Refusal :=
  .next (s.access false fun s => s.laneFlapRelease l)

/-- The checker of lane `l` has counted the bit errors it met since the count was last seen (R402): how many is not the block's to say, a
free value (log entry 174); none before 32 error-free bits. -/
def State.prbsSeen (s : State) (l : Nat) : State :=
  if s.rd (F.LNK_LANE_TEST_PRBS l) = 0 then s
  else
    let (v, s) := s.drawFree 32
    s.bump (F.LNK_PRBS_ERR_COUNT l) v

/-- A write of LNK_LANE_TEST (R402): accepted only while the lane's user is disabled. -/
def State.laneTest (s : State) (l loop prbs : Nat) : State :=
  if 3 < loop ∨ prbs = 3 ∨ s.userOn (s.rd (F.LNK_LANE_ST_USE l)) then s.cfgReject
  else ((s.prbsSeen l).wr (F.LNK_LANE_TEST_LOOP l) loop).wr (F.LNK_LANE_TEST_PRBS l) prbs

/-- What the transmitter of a lane does: high-impedance, electrical idle, driven by the lane's user, or sending what the lane receives. -/
inductive LtxOut where
  | highZ | idle | user | farEnd
  deriving DecidableEq, Repr

/-- LTX of lane `l` (R387, R402): an unused lane is powered down; the near-end loopbacks hold electrical idle. A lane whose user is disabled
is taken to be idle (DESIGN CHOICE, log entry 232). -/
def State.ltx (s : State) (l : Nat) : LtxOut :=
  let use := s.rd (F.LNK_LANE_ST_USE l)
  match s.rd (F.LNK_LANE_TEST_LOOP l) with
  | 0 => if use = 0 then .highZ else if s.userOn use then .user else .idle
  | 3 => .farEnd
  | _ => .idle

/-- LOOPBACK_SELECT (R402). -/
def execLoopbackSelect (l : Fin 4) (loop : Fin 8) (prbs : Fin 4) (s : State) : Host.Outcome State Fault Refusal :=
  .next (s.access false fun s => s.laneTest l loop prbs)

/-- EN, PENDING and SYS_PEND_STATUS bits of half `k` (0 transmit, 1 receive) of port `e`. -/
def halfEn (e k : Nat) : Fld := if k = 0 then F.LNK_ETH_CTRL_TX_EN e else F.LNK_ETH_CTRL_RX_EN e
def halfPend (e k : Nat) : Fld := if k = 0 then F.LNK_ETH_STATUS_TX_PENDING e else F.LNK_ETH_STATUS_RX_PENDING e
def halfSys (k : Nat) : Fld := if k = 0 then F.SYS_PEND_STATUS_LNK_TX else F.SYS_PEND_STATUS_LNK_RX

/-- SYS_PEND_STATUS.LNK_TX and LNK_RX read the OR of the two ports (R403). -/
def State.pendHalves (s : State) (k : Nat) : State := s.put (halfSys k) (s.on (halfPend 0 k) || s.on (halfPend 1 k))

/-- Half `k` of port `e` is enabled (R403): at once, or pending while it shuts down (R41). -/
def State.halfEnable (s : State) (e k : Nat) : State :=
  let s := s.wr (halfEn e k) 1
  if s.lnk.closing.testBit (2 * e + k) then
    (if s.on (halfPend e k) then s else ((s.wr (halfPend e k) 1).raise 6).pendHalves k)
  else s

/-- Half `k` of port `e` is disabled: its shutdown starts, or continues without a pending request. -/
def State.halfDisable (s : State) (e k : Nat) : State :=
  let was := s.on (halfEn e k)
  let s := ((s.wr (halfEn e k) 0).wr (halfPend e k) 0).pendHalves k
  if was ∧ !s.lnk.closing.testBit (2 * e + k) then
    s.lk fun x => { x with closing := withBit (if k = 0 then withBit x.closing (4 + e) false else x.closing) (2 * e + k) true }
  else s

/-- TX_ENABLE, RX_ENABLE, TX_DISABLE, RX_DISABLE (R403). -/
def execTxEnable (e : Fin 2) (s : State) : Host.Outcome State Fault Refusal := .next (s.access false fun s => s.halfEnable e 0)
def execRxEnable (e : Fin 2) (s : State) : Host.Outcome State Fault Refusal := .next (s.access false fun s => s.halfEnable e 1)
def execTxDisable (e : Fin 2) (s : State) : Host.Outcome State Fault Refusal := .next (s.access false fun s => s.halfDisable e 0)
def execRxDisable (e : Fin 2) (s : State) : Host.Outcome State Fault Refusal := .next (s.access false fun s => s.halfDisable e 1)

/-- LANE_SHUTDOWN_COMPLETE (R403): half `k` of port `e` is in its sleep state; a pending enable restarts it. A receiver that is
powered down has no block lock. -/
def execLaneShutdownComplete (e k : Fin 2) (s : State) : Host.Outcome State Fault Refusal :=
  .next <|
    if !s.lnk.closing.testBit (2 * e + k) then s
    else
      let s := s.lk fun x => { x with closing := withBit x.closing (2 * e + k) false }
      let s := if k.val = 0 then s.wr (F.LNK_ETH_STATUS_TX_LPI e) 0
        else ((s.wr (F.LNK_ETH_STATUS_BLOCK_LOCK e) 0).wr (F.LNK_ETH_STATUS_RX_LPI e) 0).upCheck e
      (s.wr (halfPend e k) 0).pendHalves k

/-- The transmit direction of port `e` works: enabled and not shutting down. -/
def State.txOn (s : State) (e : Nat) : Bool :=
  s.ethEn e && s.on (F.LNK_ETH_CTRL_TX_EN e) && !s.lnk.closing.testBit (2 * e)

/-- LPI_ENTRY (R403): direction `k` of port `e` has been idle for 10 µs on a PHY with LPI. -/
def execLpiEntry (e k : Fin 2) (s : State) : Host.Outcome State Fault Refusal :=
  .next <|
    if !s.on (F.LNK_ETH_CTRL_LPI_EN e) || !s.ethEn e then s
    else if k.val = 1 then
      (if s.on (F.LNK_ETH_CTRL_RX_EN e) && !s.lnk.closing.testBit (2 * e + 1) then s.wr (F.LNK_ETH_STATUS_RX_LPI e) 1 else s)
    else if s.txOn e && (if e.val = 0 then s.lnk.out0 else s.lnk.out1).isEmpty then s.wr (F.LNK_ETH_STATUS_TX_LPI e) 1
    else s

/-- LPI_WAKE (R403). -/
def execLpiWake (e k : Fin 2) (s : State) : Host.Outcome State Fault Refusal :=
  .next (s.wr (if k.val = 0 then F.LNK_ETH_STATUS_TX_LPI e else F.LNK_ETH_STATUS_RX_LPI e) 0)

/-! ### 802.1AS clock (R398 to R400) -/

/-- The clock and its slewing are brought up to instant `t` (ps). -/
def State.ptpSync (s : State) (t : Nat) : State :=
  let x := s.ptpAtTime t
  (s.lk fun l => { l with ptp := (x.1 % (ptpUnit * 2 ^ 64)).toNat, ptpAt := max t l.ptpAt, slew := x.2 }).put
    F.LNK_PTP_STATUS_SLEWING (x.2 != 0)

/-- A write of LNK_PTP_STEP (R398): a jump, or slewing while point cycles run on this clock. -/
def State.ptpStep (s : State) (n : Int) (t : Nat) : State :=
  let s := s.ptpSync t
  if s.running && s.on F.SYS_PB_CFG_TIME_SRC then
    let v := s.lnk.slew + n * ptpUnit
    (s.lk fun l => { l with slew := v }).put F.LNK_PTP_STATUS_SLEWING (v != 0)
  else s.lk fun l => { l with ptp := ((l.ptp + n * ptpUnit) % (ptpUnit * 2 ^ 64)).toNat }

/-- PTP_STEP at instant `t` (ps). -/
def execPtpStep (step : Word) (t : Nat) (s : State) : Host.Outcome State Fault Refusal :=
  .next (s.access false fun s => s.ptpStep step.toInt t)

/-- A write of LNK_PTP_RATE (R398). -/
def State.ptpRate (s : State) (rate : Word) (t : Nat) : State := (s.ptpSync t).setReg R.LNK_PTP_RATE rate

/-- PTP_RATE at instant `t` (ps). -/
def execPtpRate (rate : Word) (t : Nat) (s : State) : Host.Outcome State Fault Refusal :=
  .next (s.access false fun s => s.ptpRate rate t)

/-- SYNC_SET (R399). -/
def execSyncSet (s : State) : Host.Outcome State Fault Refusal := .next (s.access false fun s => s.wr F.LNK_PTP_STATUS_SYNCED 1)

/-- SYNC_HOLDOVER (R399). -/
def execSyncHoldover (s : State) : Host.Outcome State Fault Refusal := .next (s.wr F.LNK_PTP_STATUS_SYNCED 0)

/-- A write of LNK_PTP_CTRL.SNAP (R408). -/
def State.ptpSnap (s : State) (t : Nat) : State :=
  let s := s.ptpSync t
  (s.wr F.LNK_PTP_TIME_LO_NS (s.ptpNs t)).wr F.LNK_PTP_TIME_HI_NS (s.ptpNs t / 2 ^ 32)

/-- PTP_SNAP at instant `t` (ps). -/
def execPtpSnap (t : Nat) (s : State) : Host.Outcome State Fault Refusal := .next (s.access false fun s => s.ptpSnap t)

/-- A read of `n` bytes at `a` looks at the clock's SLEWING, at instant `t` where the command gives it (R398). A command without an instant
may come before or after the step has been absorbed: the bit may have fallen (log entry 232). -/
def State.slewSeen (s : State) (a n : Nat) (t : Option Nat) : State :=
  if s.lnk.slew = 0 ∨ R.LNK_PTP_STATUS + 4 ≤ a ∨ a + n ≤ R.LNK_PTP_STATUS then s
  else match t with
    | some t => s.ptpSync t
    | none =>
      let (b, s) := s.drawFree 1
      if b = 1 then s.wr F.LNK_PTP_STATUS_SLEWING 0 else s

/-- What the link's registers show changes with time and the line: a read of `n` bytes at `a` looks first (R398, R402). -/
def State.linkSeen (s : State) (a n : Nat) (t : Option Nat) : State :=
  s.slewSeen a n t |>.forN 4 fun l s => if a < R.LNK_PRBS_ERR l + 4 ∧ R.LNK_PRBS_ERR l < a + n then s.prbsSeen l else s

/-- The head of the timestamp queue as its registers show it (R400). -/
def State.stampShow (s : State) : State :=
  match s.lnk.stamps with
  | [] => ((s.setReg R.LNK_PTP_TS_INFO 0).setReg R.LNK_PTP_TS_LO 0).setReg R.LNK_PTP_TS_HI 0 |>.wr F.LNK_PTP_STATUS_TS_AVAIL 0
  | x :: _ =>
    let s := (s.wr F.LNK_PTP_TS_LO_NS x.ns).wr F.LNK_PTP_TS_HI_NS (x.ns / 2 ^ 32)
    let s := ((s.wr F.LNK_PTP_TS_INFO_VALID 1).put F.LNK_PTP_TS_INFO_DIR x.tx).wr F.LNK_PTP_TS_INFO_PORT x.port
    (s.wr F.LNK_PTP_TS_INFO_SEQ_ID x.seqId).wr F.LNK_PTP_STATUS_TS_AVAIL 1

/-- A frame's timestamp enters the queue of 16 that the ports share (R400). -/
def State.stamp (s : State) (x : Stamp) : State :=
  if 16 ≤ s.lnk.stamps.length then s
  else
    let first := s.lnk.stamps.isEmpty
    ((s.lk fun l => { l with stamps := l.stamps ++ [x] }).stampShow).raiseIf first 502

/-- A read of LNK_PTP_TS_INFO removes the head entry (R400). -/
def State.stampPop (s : State) : State := (s.lk fun l => { l with stamps := l.stamps.drop 1 }).stampShow

/-- PTP_TS_READ (R400). -/
def execPtpTsRead (s : State) : Host.Outcome State Fault Refusal :=
  .next (s.access false fun s => { s.stampPop with sys := { s.sys with rdata := (s.reg R.LNK_PTP_TS_INFO).toNat } })

/-! ### Point packets (R395 to R397) -/

/-- Entries and packet under construction of port `e`. -/
def State.pkt (s : State) (e : Nat) : Pkt := if e = 0 then s.lnk.pkt0 else s.lnk.pkt1
def State.setPkt (s : State) (e : Nat) (p : Pkt) : State :=
  s.lk fun l => if e = 0 then { l with pkt0 := p } else { l with pkt1 := p }

/-- One entry: prefix, block, CRC-32C (R396). -/
def entryBytes (x : Nat × List Byte) : List Byte := bytesOf 4 (x.1 % 65536 * 65536 + (x.2.length - 4)) ++ x.2

/-- The UDP payload of a packet: the header of Table LK-3, then its entries. -/
def State.pktPayload (s : State) (e : Nat) (p : Pkt) : List Byte :=
  bytesOf 4 (2 ^ 28 + 2 ^ 24 * s.rd F.MER_STATUS_ID + p.entries.length * 2 ^ 16 + e * 2 ^ 8)
    ++ bytesOf 4 (s.rd (F.LNK_ETH_PKT_SEQ_SEQ e)) ++ bytesOf 4 ((p.entries.headD (0, [])).1) ++ bytesOf 4 0
    ++ (p.entries.map entryBytes).flatten

/-- The packet under construction of port `e` is sent (R396). -/
def State.pktSend (s : State) (e : Nat) : State :=
  let p := s.pkt e
  if p.entries.isEmpty then s
  else
    let s := (s.udpQueue e (s.pktDest e) (s.pktPayload e p) p.bad (p.entries.map Prod.fst)).setPkt e {}
    (s.wr (F.LNK_ETH_PKT_SEQ_SEQ e) (s.rd (F.LNK_ETH_PKT_SEQ_SEQ e) + 1)).wr (F.LNK_ETH_STATUS_TX_LPI e) 0

/-- An entry for a block of `n` bytes with its CRC would take the packet of port `e` beyond its limit of payload or of entries, 48 in
Table LK-3 (DEDUCED, log entry 199), or the packet carries a failing block alone (R396, R397). -/
def State.pktFull (s : State) (e n : Nat) : Bool :=
  let p := s.pkt e
  p.bad || decide (48 ≤ p.entries.length) || decide (s.payloadMax < 16 + ((p.entries.map fun x => 4 + x.2.length).sum) + 4 + n)

/-- A block is placed in the packet of port `e`; a failing one is left alone in it (R397). -/
def State.pktPlace (s : State) (e seq : Nat) (block : List Byte) (failing : Bool) : State :=
  let s := if failing || s.pktFull e block.length then s.pktSend e else s
  let p := s.pkt e
  s.setPkt e { entries := p.entries ++ [(seq, block)], bad := failing }

/-- RPTR moves past the records at its front that are done with (R395). -/
def State.ringAdvance (s : State) : State :=
  let done := s.lnk.taken.takeWhile fun x => x.2.2
  let s := match done.getLast? with
    | some x => s.wr F.MEM_PB_RPTR_OFS x.2.1
    | none => s
  s.lk fun l => { l with taken := l.taken.dropWhile fun x => x.2.2 }

/-- The port of a furrow (PORT_SEL, R395). -/
def State.portOf (s : State) (furrow : Nat) : Nat :=
  match s.rd F.LNK_PKT_CFG_PORT_SEL with
  | 0 => 0
  | 1 => 1
  | _ => furrow % 2

/-- Port `e` takes records, whether or not its transmit half has come back from a shutdown (R395). -/
def State.portTakes (s : State) (e : Nat) : Bool :=
  s.ethEn e && s.on (F.LNK_ETH_CTRL_TX_EN e) && s.on (F.LNK_ETH_CTRL_PKT_EN e) && s.on (F.LNK_ETH_STATUS_UP e)

/-- A record is discarded and counted; the first since LNK_PKT_DROP was read is raised (R395). -/
def State.pktDrop (s : State) : State :=
  let first := s.rd F.LNK_PKT_DROP_COUNT == 0
  (s.bump F.LNK_PKT_DROP_COUNT 1).raiseIf first 501

/-- The record whose bytes are `rec_`, at ring offset `o`, is taken: placed in a packet, or discarded (R395, R397). `poisoned` says
that the read was poisoned, `bad` that the check of the copy finds a fresh mismatch. -/
def State.pktTake (s : State) (rec_ : List Byte) (o : Nat) (poisoned bad : Bool) : State :=
  let l := bits (ofBytes (rec_.take 4)) 15 0
  let seq := ofBytes ((rec_.drop 4).take 4)
  let furrow := bits (ofBytes ((rec_.drop 8).take 4)) 7 0
  let n := (16 + l + 4 + 31) / 32 * 32
  let block := (rec_.drop 16).take (l + 4)
  let e := s.portOf furrow
  let next := (o + n) % s.pbSize
  let note (s : State) (done : Bool) : State := (s.lk fun x => { x with taken := x.taken ++ [(seq, next, done)] }).ringAdvance
  if s.portTakes e then
    let (c, good) := blockCrc block
    let inverted := decide (c = 0xFFFFFFFF - good)
    let fresh := !inverted && !poisoned && (bad || decide (c ≠ good))
    let s := s.raiseIf fresh 496
    note (s.pktPlace e seq block (fresh || inverted || poisoned || decide (c ≠ good))) false
  else note s.pktDrop true

/-- PACKETISER_RECORD (R395, R397): the packetiser reads the next staging record; one in a host window comes with its completion.
`bad` says that the check of the copy finds a fresh mismatch. -/
def execPacketiserRecord (bad : Bool) (s : State) : Host.Outcome State Fault Refusal :=
  .next <|
    let o := s.pktOfs
    if !s.on F.MEM_PB_CFG_CONSUMER || o == s.rd F.MEM_PB_WPTR_OFS || s.tilHeld then s
    else match s.place 1 (s.pbBase + o) with
      | .host h =>
        if (s.lnk.reads.any fun r => r.1 == 1) || s.readsFull 1 (s.pbBase + o) then s
        else s.lk fun l => { l with reads := l.reads ++ [(1, s.pbBase + o, h, min 224 (s.pbSize - o))] }
      | _ => s.whenMemory 1 fun s =>
        let (head, p0, s) := s.memLoad 1 (s.pbBase + o) 16
        let w := ofBytes (head.take 4)
        let o' := if bits w 31 28 = 0xF then 0 else o
        let (head, p1, s) := if o' = o then (head, p0, s) else s.memLoad 1 s.pbBase 16
        let (body, p2, s) := s.memLoad 1 (s.pbBase + o' + 16) (bits (ofBytes (head.take 4)) 15 0 + 4)
        s.pktTake (head ++ body) o' (p1 || p2) bad

/-- PACKET_SEND (R396, R397): the packet of port `e` leaves when the record read next for that port would not fit, which the
packetiser finds by reading its descriptor, or when it carries a failing block. -/
def execPacketSend (e : Fin 2) (s : State) : Host.Outcome State Fault Refusal :=
  .next <|
    let o := s.pktOfs
    let next : Option Nat :=
      if o = s.rd F.MEM_PB_WPTR_OFS then none
      else match s.place 1 (s.pbBase + o) with
        | .loc a =>
          let w := ofBytes ((List.range 4).map fun i => s.dramByte (a + i))
          if bits w 31 28 = 1 ∧ s.portOf (ofBytes [s.dramByte (a + 8)]) = e.val then some (bits w 15 0 + 4) else none
        | _ => none
    if (s.pkt e).bad || (match next with | some n => s.pktFull e n | none => false) then s.pktSend e else s

/-- FLUSH_TIMER (R396): FLUSH µs have passed since the packet's first entry. -/
def execFlushTimer (e : Fin 2) (s : State) : Host.Outcome State Fault Refusal := .next (s.pktSend e)

/-- A frame of port `e` may leave: the transmit half works, or the frame was in flight when it was disabled (R403). -/
def State.frameLeaves (s : State) (e : Nat) : Bool :=
  s.ethEn e && s.on (F.LNK_ETH_STATUS_UP e) &&
    (if s.lnk.closing.testBit (2 * e) then !s.lnk.closing.testBit (4 + e) else s.on (F.LNK_ETH_CTRL_TX_EN e))

/-- A frame has left port `e`: it is counted, and it was the frame in flight of a half that shuts down (R403). -/
def State.frameSent (s : State) (e : Nat) : State :=
  let s := if s.lnk.closing.testBit (2 * e) then s.lk fun l => { l with closing := withBit l.closing (4 + e) true } else s
  ((s.wr (F.LNK_ETH_STATUS_TX_LPI e) 0).bump (F.LNK_ETH_FRAMES_TX_COUNT e) 1).count 8 4 e 1

/-- FRAME_LEFT_PORT (R395, R400) at instant `t` (ps): a frame has left port `e`. One that the firmware marked is its own, which stands in
no queue: its timestamp enters the queue with `seqId`. An unmarked one is the oldest queued frame, or where none is queued the
firmware's. -/
def execFrameLeftPort (e : Fin 2) (marked : Bool) (seqId : BitVec 16) (t : Nat) (s : State) : Host.Outcome State Fault Refusal :=
  .next <|
    if !s.frameLeaves e then s
    else if marked then (s.frameSent e).stamp ⟨s.ptpNs t, true, e, seqId.toNat⟩
    else match s.outOf e with
    | [] => s.frameSent e
    | (_, seqs) :: rest =>
      let s := (s.setOut e rest).frameSent e
      let s := if seqs.isEmpty then s else s.bump (F.LNK_ETH_PKTS_TX_COUNT e) 1
      (s.lk fun l => { l with taken := l.taken.map fun x => if seqs.contains x.1 then (x.1, x.2.1, true) else x }).ringAdvance

/-! ### Received frames (R394, R400) -/

/-- A frame of port `e` is addressed to it (R394). -/
def State.macMatch (s : State) (e : Nat) (dst : List Byte) : Bool :=
  dst == netBytes 6 (2 ^ 32 * s.rd (F.LNK_ETH_SMAC_HI_MAC e) + s.rd (F.LNK_ETH_SMAC_LO_MAC e))
    || dst == netBytes 6 0xFFFFFFFFFFFF || dst == netBytes 6 0x0180C200000E

/-- What of a frame goes to the firmware: an 802.1AS message, or the payload of a UDP frame to MBOX_PORT. -/
def State.frameTo (s : State) (e : Nat) (f : List Byte) : Option (List Byte) :=
  let word (l : List Byte) (i : Nat) := ofBytes ((l.drop i).take 2).reverse
  let ty := word f 12
  let ip := f.drop 14
  let ihl := bits (ofBytes (ip.take 1)) 3 0 * 4
  let port := s.rd (F.LNK_ETH_MBOX_MBOX_PORT e)
  if ty = 0x88F7 then some ip
  else if ty = 0x0800 ∧ ofBytes ((ip.drop 9).take 1) = 17 ∧ word ip (ihl + 2) = port ∧ port ≠ 0 then
    some ((ip.drop (ihl + 8)).take (word ip (ihl + 4) - 8))
  else none

/-- The sender of a UDP frame: MAC address, IPv4 address, UDP port. -/
def udpSender (f : List Byte) : List Byte :=
  let ip := f.drop 14
  (f.drop 6).take 6 ++ (ip.drop 12).take 4 ++ (ip.drop (bits (ofBytes (ip.take 1)) 3 0 * 4)).take 2

/-- ETH_FRAME_RECEIVED (R394, R400): port `e` receives frame `f`, given without its FCS, at instant `t` (ps). -/
def execEthFrameReceived (e : Fin 2) (f : List Byte) (fcsBad : Bool) (t : Nat) (s : State) : Host.Outcome State Fault Refusal :=
  .next <|
    if !s.on (F.LNK_ETH_STATUS_UP e) || !s.on (F.LNK_ETH_CTRL_RX_EN e) || s.lnk.closing.testBit (2 * e.val + 1) then s
    else if fcsBad then s.bump (F.LNK_ETH_FCS_ERR_RX_COUNT e) 1
    else if (if s.on F.LNK_PKT_CFG_JUMBO then 9022 else 1522) < f.length + 4 || !s.macMatch e (f.take 6) then
      s.bump (F.LNK_ETH_DISCARD_RX_COUNT e) 1
    else match s.frameTo e f with
      | none => s.bump (F.LNK_ETH_DISCARD_RX_COUNT e) 1
      | some d =>
        let s := (s.bump (F.LNK_ETH_FRAMES_RX_COUNT e) 1).lk fun l => { l with toFw := l.toFw ++ [(e.val, d)] }
        if ofBytes ((f.drop 12).take 2).reverse = 0x88F7 then
          s.stamp ⟨s.ptpNs t, false, e, ofBytes ((d.drop 30).take 2).reverse⟩
        else s.lk fun l => if e = 0 then { l with peer0 := udpSender f } else { l with peer1 := udpSender f }

/-! ### PCIe (R389, R390, R404, R409) -/

/-- The mailbox changes hands or is released: an update session is discarded (R404, R421). -/
def State.mboxOwner (s : State) (o : Nat) : State :=
  if s.rd F.LNK_MBOX_OWNER_OWNER = o then s
  else (((s.wr F.LNK_MBOX_OWNER_OWNER o).wr F.BOOT_STATUS_SESSION 0).bo fun b => { b with sessLen := 0, sessGot := 0, checked := 0 })

/-- The configuration space returns to its reset state (R390), its MSI-X masks and pending bits with it. -/
def State.cfgReset (s : State) : State :=
  ((s.wr F.LNK_STATUS_BME 0).resetRegs 0xC08000 0xC09010).lk fun l =>
    { l with memEn := false, msixEn := false, msixMask := false, bar0 := 0, bar2 := 0, maxPayload := 0, maxRead := 2, aspm := 0,
             d3 := false }

/-- The PCIe link goes down (R390, R404). -/
def State.pcieDown (s : State) : State :=
  let was := s.on F.LNK_STATUS_PCIE_UP
  let s := (((s.cfgReset).wr F.LNK_STATUS_PCIE_UP 0).wr F.LNK_STATUS_WIDTH 0).wr F.LNK_STATUS_SPEED 0
  let s := s.raiseIf was 497
  if s.rd F.LNK_MBOX_OWNER_OWNER = 1 then s.mboxOwner 0 else s

/-- PCIE_RESET (R390): `down` for a link down, otherwise a Hot Reset or Function Level Reset. -/
def execPcieReset (down : Bool) (s : State) : Host.Outcome State Fault Refusal :=
  .next (if s.mode = mRESET then s else if down then s.pcieDown else s.cfgReset)

/-- Lanes with this USE (Table LK-1). -/
def State.lanesOf (s : State) (use : Nat) : Nat := ((List.range 4).filter fun l => s.rd (F.LNK_LANE_ST_USE l) == use).length

/-- LINK_CHANGE (R387, R394, R409): the PCIe link (`who` 0) comes up with a width code and rate, no wider than its lanes, or goes down;
or port `who` − 1 gains or loses block lock. -/
def execLinkChange (who : Fin 3) (up : Bool) (width : Fin 8) (speed : Fin 4) (s : State) : Host.Outcome State Fault Refusal :=
  .next <|
    if s.mode = mRESET then s
    else if who.val = 0 then
      if !up then s.pcieDown
      else if !s.on F.LNK_CTRL_PCIE_EN || s.lanesOf 1 == 0 || !([1, 2, 4].contains width.val) then s
      else
        let was := s.on F.LNK_STATUS_PCIE_UP
        (((s.wr F.LNK_STATUS_PCIE_UP 1).wr F.LNK_STATUS_WIDTH (min width.val (s.lanesOf 1))).wr F.LNK_STATUS_SPEED
          (min speed.val (s.rd F.LNK_CFG_PCIE_SPEED))).raiseIf (!was) 497
    else
      let e := who.val - 1
      let lock := up && s.ethEn e && s.lanesOf (e + 2) != 0 && s.on (F.LNK_ETH_CTRL_RX_EN e) && !s.lnk.closing.testBit (2 * e + 1)
      (s.put (F.LNK_ETH_STATUS_BLOCK_LOCK e) lock).upCheck e

/-- The word that a configuration register reads. Those of the MSI-X, PCI Express and power management capabilities show what Table LK-2
states at the places of PCIe Base 4.0; their other bits are free values (PRESUMED, log entry 231). -/
def State.cfgRead (s : State) (r : CfgReg) : Nat × State :=
  match r with
  | .ident => (0x1152 * 2 ^ 16 + Config.vendorId.toNat, s)
  | .command => (s.lnk.memEn.toNat * 2 + s.rd F.LNK_STATUS_BME * 4, s)
  | .classCode => (0x118000 * 2 ^ 8 + Config.revisionId.toNat, s)
  | .bar0 => (s.lnk.bar0 % 2 ^ 32 + 4, s)
  | .bar1 => (s.lnk.bar0 / 2 ^ 32, s)
  | .bar2 => (if s.rd F.LNK_PCIE_CFG_BAR2_SIZE = 0 then 0 else s.lnk.bar2 % 2 ^ 32 + 12, s)
  | .bar3 => (s.lnk.bar2 / 2 ^ 32, s)
  | .subsystem => (Config.subsystemIds.toNat, s)
  | .msixControl => (s.lnk.msixEn.toNat * 2 ^ 15 + s.lnk.msixMask.toNat * 2 ^ 14 + 31, s)
  | .msixTable => (0xC08000, s)
  | .msixPba => (0xC09000, s)
  | .deviceCap => let (v, s) := s.drawFree 32; (Word.setField (Word.setField (BitVec.ofNat 32 v) 2 0 2) 28 28 1 |>.toNat, s)
  | .deviceControl =>
    let (v, s) := s.drawFree 32
    (Word.setField (Word.setField (Word.setField (BitVec.ofNat 32 v) 7 5 s.lnk.maxPayload) 14 12 s.lnk.maxRead) 15 15 0 |>.toNat, s)
  | .linkCap =>
    let (v, s) := s.drawFree 32
    (Word.setField (Word.setField (BitVec.ofNat 32 v) 10 10 (s.rd F.LNK_PCIE_CFG_L0S_SUP)) 11 11 (s.rd F.LNK_PCIE_CFG_L1_SUP) |>.toNat, s)
  | .linkControl => let (v, s) := s.drawFree 32; (Word.setField (BitVec.ofNat 32 v) 1 0 s.lnk.aspm |>.toNat, s)
  | .powerControl =>
    let (v, s) := s.drawFree 32
    (Word.setField (BitVec.ofNat 32 v) 1 0 (if s.lnk.d3 then 3 else 0) |>.toNat, s)
  | .other => s.drawFree 32

/-- A base address with the low bits of its window cleared. -/
def barMask (v k : Nat) : Nat := v / 2 ^ k * 2 ^ k

/-- A write of a configuration register; bit 15 of Device Control is a Function Level Reset (R390). -/
def State.cfgWrite (s : State) (r : CfgReg) (w : Nat) : State :=
  let k2 := s.rd F.LNK_PCIE_CFG_BAR2_SIZE
  match r with
  | .command => ((s.lk fun l => { l with memEn := w.testBit 1 }).put F.LNK_STATUS_BME (w.testBit 2)).flushMsix
  | .bar0 => s.lk fun l => { l with bar0 := barMask (l.bar0 / 2 ^ 32 * 2 ^ 32 + w) 26 }
  | .bar1 => s.lk fun l => { l with bar0 := barMask (w * 2 ^ 32 + l.bar0 % 2 ^ 32) 26 }
  | .bar2 => if k2 = 0 then s else s.lk fun l => { l with bar2 := barMask (l.bar2 / 2 ^ 32 * 2 ^ 32 + w) k2 }
  | .bar3 => if k2 = 0 then s else s.lk fun l => { l with bar2 := barMask (w * 2 ^ 32 + l.bar2 % 2 ^ 32) k2 }
  | .msixControl => (s.lk fun l => { l with msixEn := w.testBit 15, msixMask := w.testBit 14 }).flushMsix
  | .deviceControl =>
    if w.testBit 15 then s.cfgReset else s.lk fun l => { l with maxPayload := bits w 7 5, maxRead := bits w 14 12 }
  | .linkControl => s.lk fun l => { l with aspm := bits w 1 0 }
  | .powerControl =>
    match bits w 1 0 with
    | 0 => (s.lk fun l => { l with d3 := false }).flushMsix
    | 3 => s.lk fun l => { l with d3 := true }
    | _ => s
  | _ => s

/-- A completion leaves for the host: data and EP, or no data for an abort. -/
def State.complete (s : State) (d : List Byte) (ep : Bool) : State :=
  (s.lk fun l => { l with comps := l.comps ++ [(d, ep)] }).count 8 2 0 1

/-- The host reaches the function over PCIe. -/
def State.pcieOn (s : State) : Bool := s.mode != mRESET && s.on F.LNK_CTRL_PCIE_EN && s.on F.LNK_STATUS_PCIE_UP

/-- CONFIG_REQUEST (R390): a read or write of a configuration register; in every mode but RESET, BOOT_DONE or not. -/
def execConfigRequest (write : Bool) (r : CfgReg) (w : Word) (s : State) : Host.Outcome State Fault Refusal :=
  .next <|
    if !s.pcieOn then s
    else
      let s := s.count 8 3 0 1
      if write then (s.cfgWrite r w.toNat).complete [] false
      else
        let (v, s) := s.cfgRead r
        s.complete (bytesOf 4 v) false

/-- PCIE_COMPLETION (R376): the oldest window read completes with `data`, poisoned when the completion carries EP. -/
def execPcieCompletion (data : List Byte) (ep : Bool) (s : State) : Host.Outcome State Fault Refusal :=
  .next <|
    match s.lnk.reads with
    | [] => s
    | (p, a, _, len) :: rest =>
      let s := (s.lk fun l => { l with reads := rest }).count 8 3 0 1
      let data := (data ++ List.replicate len 0).take len
      let s := if ep then s.memUE a else s
      if p = 1 then
        let o := a - s.pbBase
        if bits (ofBytes (data.take 4)) 31 28 = 0xF then
          match s.place 1 s.pbBase with
          | .host h => s.lk fun l => { l with reads := l.reads ++ [(1, s.pbBase, h, 224)] }
          | _ => s
        else s.pktTake data o ep false
      else { s with sys := { s.sys with rdata := ofBytes data } }

end Sys2Proof.Machine
end

