-- ==== Sys2Proof/Machine/System.lean ====
section
/-! DEFINITION. RESET, clocks, power fail, orderly stops and the mode commands (chapter 01; R349, R410 to R418). -/

namespace Sys2Proof.Machine

/-! ### Entry to RESET (R30, R410, R412) -/

/-- Registers that every RESET keeps: the hedge's domain, and the retained registers (R412, R349). -/
def keptReg (a : Nat) : Bool :=
  (decide (0x780000 ≤ a) && decide (a < 0x800000)) || a == R.BOOT_LAST_RESET || a == R.BOOT_FAIL || a == R.THM_TRIP_REC

/-- What a warm start keeps of the register at an address: its RWS fields (Table SC-7). -/
def keepRws (e : Nat × Word) : Option (Nat × Word) :=
  match findReg e.1 with
  | some (r, _, _) =>
    let w := (r.fields.filter fun f => f.acc == .rws).foldl
      (fun w f => Word.setField w f.hi f.lo (Word.field e.2 f.hi f.lo)) (resetWord e.1)
    if w = resetWord e.1 then none else some (e.1, w)
  | none => none

/-- DRAM through a RESET (R373, R411): a warm start keeps it in self-refresh, an INIT or a sweep that it cuts short included (what an INIT
has not reached is not stated: free values, log entry 198); otherwise its contents are undefined. -/
def State.memThrough (s : State) (warm : Bool) : Mem × Nat :=
  let on := decide (s.memState ≠ 0) || s.mem.retained
  let s := if warm ∧ s.memState = 1 then s.lose 0 s.localSize else s
  let s := if warm ∧ s.memState = 2 then s.drainPorts else s
  let s := if warm ∧ (s.memState = 1 ∨ s.memState = 2 ∨ s.memState = 3) then s.loseSegments else s
  if warm ∧ on then
    ({ dram := s.mem.dram, cond := s.mem.cond, lost := s.mem.lost, retained := true }, s.freeIx)
  else ({ lost := [(0, 2 ^ 41, s.freeIx)] }, s.freeIx + 1)

/-- Every register and all state return to their reset values but what R10, R349, R410 to R412 keep; pins, the hedge, fuses and flash are
outside. `cause` is one of Table BU-1. -/
def State.resetCore (s : State) (cause : Nat) (warm : Bool) : State :=
  let (mem, ix) := s.memThrough warm
  let t : State := {
    pending := s.pending
    regs := s.regs.filterMap fun e => if keptReg e.1 then some e else if warm then keepRws e else none
    freeIx := ix
    sys := {
      pfLow := s.sys.pfLow
      pinLow := false
      testEn := s.sys.testEn
      jtag := s.sys.jtag
      tdo := s.sys.tdo
      cells := s.sys.cells
      warm := warm }
    mem := mem
    lnk := { msgs := s.lnk.msgs, tlps := s.lnk.tlps, comps := s.lnk.comps }
    hlm := { encA := s.hlm.encA, encB := s.hlm.encB, travel := s.hlm.travel, hall := s.hlm.hall, faultLow := s.hlm.faultLow }
    hdg := s.hdg
    sxt := { gate := s.sxt.gate, gateAt := s.sxt.gateAt }
    cal := { fuse := s.cal.fuse, jrnA := s.cal.jrnA, jrnB := s.cal.jrnB, beats := if warm then s.cal.beats else 0 }
    thm := { last := s.thm.last, conv := s.thm.conv, tripRun := s.thm.tripRun, tripHold := s.thm.tripHold }
    boot := {
      flash := s.boot.flash
      upd := s.boot.upd
      starts := s.boot.starts
      fails := s.boot.fails
      setA := s.boot.setA
      setB := s.boot.setB
      warmStart := warm } }
  let t := t.put F.CAL_STATUS_SHADOW_OK (s.on F.CAL_STATUS_SHADOW_OK)
  ((t.wr F.BOOT_LAST_RESET_CAUSE cause).wr F.BOOT_LAST_RESET_FAIL_STEP 0).hedgeShow

/-- RESET with `cause`. A burn that it cuts leaves its row torn (R340, R456). -/
def State.resetBody (s : State) (cause : Nat) (warm : Bool) : State := s.burnTorn.resetCore cause warm

/-- Enters RESET with `cause`; in RESET it changes nothing. -/
def State.enterReset (s : State) (cause : Nat) (warm : Bool) : State := if s.mode = mRESET then s else s.resetBody cause warm

/-- RESET_N is low, or the core reset acts as it (R30, R457): in any mode, RESET included, every field takes its reset value, the RWS
fields with the rest (R10, Table SC-7); the TRIP record clears (R349), the seal lock is released (R268) and the host's limits of the
hedge take their reset values (R272). -/
def State.resetPin (s : State) : State :=
  let s := (s.resetBody 1 false).sy fun x => { x with pinLow := true }
  let s := ((s.setReg R.THM_TRIP_REC 0).resetRegs R.HDG_HOST_SPEED (R.HDG_HOST_SPEED + 4)).resetRegs R.HDG_HOST_BUDGET
    (R.HDG_HOST_BUDGET + 4)
  s.wr F.HDG_STATUS_SEAL_LOCK 0

/-- RESET with a cause that makes the start after it cold, in RESET too (R349, R410): what an earlier RESET_WARM kept is dropped. A low
RESET_N holds on. -/
def State.coldReset (s : State) (cause : Nat) : State := (s.resetBody cause false).sy fun x => { x with pinLow := s.sys.pinLow }

/-- BOOT_STATUS.IMAGE_VALID (R418): the last check of step 0x2 passed, and COUNT is below 3. -/
def State.imageShow (s : State) : State :=
  s.put F.BOOT_STATUS_IMAGE_VALID (decide (3 ≤ s.rd F.BOOT_STATUS_STEP) && decide (s.rd F.BOOT_FAIL_COUNT < 3))

/-- HEDGE_POWER_ON (R248, R264, R266, R412): the hedge and the retained registers reset, the straps are read, the rows they select
are loaded and checked. A diagnostic cause present now sets the latch (R261). In RESET the start that follows becomes cold (R410). -/
def execHedgePowerOn (straps floats : Fin 64) (s : State) : Host.Outcome State Fault Refusal :=
  .next <|
    let s := if s.mode = mRESET then s.coldReset 0 else s
    let s := ((s.resetRegs 0x780000 0x780100).setReg R.BOOT_LAST_RESET 0).setReg R.BOOT_FAIL 0
    let s := if s.mode = mRESET then s else s.imageShow
    let s := { s with hdg := {}, boot := { s.boot with fails := [] } }
    let s := ((s.wr F.HDG_STRAPS_SEAL straps).wr F.HDG_STRAPS_FLOAT floats).wr F.HDG_LIM_MISC_DIR straps
    let s := s.hd fun h => { h with
      speedRow := s.fuseRows (3124 + 3 * (straps.val / 8)) 3, tiltRow := s.fuseRows (3148 + 2 * (straps.val / 2 % 4)) 2
      commonRow := s.fuseRows 3156 1, helmLast := s.hlm.travel, strapBad := floats.val != 0 }
    let s := (s.hd fun h => { h with limitBad := !h.rowsOk }).showLimits
    let s := [8, 11, 12].foldl (fun s c => if s.present c then s.trip c else s) s
    s.hedgeShow

/-- RESET_N_LOW (R30). -/
def execResetNLow (s : State) : Host.Outcome State Fault Refusal := .next s.resetPin

/-- CORE_RESET (R457). -/
def execCoreReset (s : State) : Host.Outcome State Fault Refusal := .next s.resetPin

/-- TEST_EN_HIGH (R459): RESET is held, and the hedge is held in IDLE. -/
def execTestEnHigh (s : State) : Host.Outcome State Fault Refusal :=
  .next <|
    let s := (s.enterReset 1 false).sy fun x => { x with testEn := true }
    (s.setGst gIDLE).hd fun h => { h with good := 0 }

/-- THERMAL_TRIP (R349): the comparator has seen three readings of sensor `k` at or above TRIP in a row. In RESET too the start that
follows is cold. -/
def execThermalTrip (k : Fin 24) (s : State) : Host.Outcome State Fault Refusal :=
  .next <|
    if Tab.get (fun _ => 0) s.thm.tripRun k < 3 then s
    else
      let s := ((s.wr F.THM_TRIP_REC_VALID 1).wr F.THM_TRIP_REC_SENSOR k).wrS F.THM_TRIP_REC_TEMP (Tab.get (fun _ => 0) s.thm.last k)
      (s.coldReset 4).th fun x => { x with tripHold := true }

/-- THERMAL_TRIP_RELEASE (R349): every compared sensor has read below CRITICAL − HYST for DWELL. -/
def execThermalTripRelease (s : State) : Host.Outcome State Fault Refusal :=
  .next <|
    let lim : Int := 10 * s.rd F.THM_THR_CRITICAL - 10 * s.rd F.THM_HYST_HYST
    let cool := (List.range 24).all fun k => !s.compared k || decide (Tab.get (fun _ => 0) s.thm.last k < lim)
    if cool then s.th fun x => { x with tripHold := false, tripRun := [] } else s

/-! ### Failed starts and RECOVERY (R418, R425) -/

/-- The ROM enables DRAM under the reset values of MEM_CFG and the delays, MEM_TRN_STATE.VALID at 0 (R425). -/
def State.romDram (s : State) : State :=
  let s := if s.reg R.MEM_CFG = resetWord R.MEM_CFG then s else s.memDisable
  let s := (s.resetRegs R.MEM_CFG (R.MEM_CFG + 4)).resetRegs 0xB00800 0xB00C00
  (s.wr F.MEM_TRN_STATE_VALID 0).memEnable

/-- Every headland transfer of this unit ends as the ROM takes over, the one it sends with an ABORT (R427, R428; DESIGN CHOICE, log entry
235). -/
def State.hdlCut (s : State) : State :=
  let s := s.hdlRxCut
  match s.boot.tx with
  | some x =>
    let (v, s) := s.drawFree 8
    let s := (s.wr F.BOOT_HDL_STATUS_TX_BUSY 0).wr F.BOOT_HDL_STATUS_RESULT v
    (s.bo fun b => { b with tx := none, hdlDn := b.hdlDn ++ [⟨6, x.hops, x.next, 0, x.total, []⟩] }).raise 506
  | none => s

/-- Enters RECOVERY with `cause` (R425): the start ends, both Ethernet ports are disabled, no tiller runs, and the ROM enables DRAM
under the reset values of MEM_CFG and the delays, MEM_TRN_STATE.VALID at 0. -/
def State.enterRecovery (s : State) (cause : Nat) : State :=
  let s := (s.goMode mRECOVERY cause).biasHeld.bo fun b => { b with starting := false }
  ((s.ethOff 0).ethOff 1).hdlCut.romDram

/-- The latch clears (R270): the hedge returns to IDLE, and SAFE-STOP is left for STANDBY, or for RECOVERY when no valid image runs
(Table AR-8). -/
def State.clearLatch (s : State) : State :=
  let s := ((s.wr F.HDG_STATUS_LATCH 0).wr F.HDG_TRIP_CAUSE_CAUSE 0).wr F.HDG_TRIP_CAUSE_FIRST 0x1F
  let s := ((s.setGst gIDLE).wr F.HDG_STATUS_PWM_GATE 0).raise 436
  let s := (s.hd fun h => { h with tripMag := none, fell := false }).hedgeShow
  if s.mode ≠ mSAFESTOP then s.emiSettle
  else if s.on F.BOOT_STATUS_IMAGE_VALID then s.goMode mSTANDBY 0x12
  else s.enterRecovery 0x12

/-- RESET_PAIR_COMPLETE (R270): the release has reached 20 ms. -/
def execResetPairComplete (s : State) : Host.Outcome State Fault Refusal :=
  .next <|
    if s.rd F.HDG_STATUS_RST_PHASE ≠ 2 then s
    else
      let s := s.wr F.HDG_STATUS_RST_PHASE 0
      if s.on F.HDG_STATUS_CLEAR then s.clearLatch else (s.bump F.HDG_CNT_RST_REF_COUNT 1).raise 437

/-- A failed start (R418) with BOOT_LAST_RESET.CAUSE `cause` at instant `t` (ps): the third within 10 minutes enters RECOVERY, or
stays in SAFE-STOP; any other one resets. A plan's point cycle in progress runs to its swap (R99), in RECOVERY too (DEDUCED, log entry
212). -/
def State.failStart (s : State) (cause step t : Nat) : State :=
  let h := (s.boot.fails.filter fun u => decide (t < u + 600000000000000)) ++ [t]
  let s := (s.bo fun b => { b with fails := h }).wr F.BOOT_FAIL_COUNT (min 3 h.length)
  if 3 ≤ h.length then
    let s := (s.imageShow.bo fun b => { b with starting := false }).planClose true
    if s.mode = mSAFESTOP then s
    else (if s.mode = mCALIBRATE then s.lastCycle.goMode mSTANDBY 0x0F else s).enterRecovery 0x05
  else (s.enterReset cause false).wr F.BOOT_LAST_RESET_FAIL_STEP (if cause = 8 then step else 0)

/-- LOCKSTEP_MISMATCH (R418) at instant `t` (ps): before BOOT_DONE it is a failed start. -/
def execLockstepMismatch (t : Nat) (s : State) : Host.Outcome State Fault Refusal :=
  .next (if s.mode = mRESET then s else if s.boot.starting then s.failStart 6 0 t else s.enterReset 6 false)

/-- START_WATCHDOG (R417) at instant `t` (ps): the start has not reached its last step within 8 s. -/
def execStartWatchdog (t : Nat) (s : State) : Host.Outcome State Fault Refusal :=
  .next (if s.boot.starting then s.failStart 7 0 t else s)

/-- FAIL_COUNT_EXPIRY (R418) at instant `t` (ps): failures older than 10 minutes leave the count. -/
def execFailCountExpiry (t : Nat) (s : State) : Host.Outcome State Fault Refusal :=
  .next <|
    let h := s.boot.fails.filter fun u => decide (t < u + 600000000000000)
    ((s.bo fun b => { b with fails := h }).wr F.BOOT_FAIL_COUNT (min 3 h.length)).imageShow

/-! ### Clocks (R25, R26, R105, Table AR-3) -/

/-- The main PLL is unlocked (R25): outside RESET and RECOVERY SYS_CLK_FAULT, and the hedge forces SAFE-STOP. -/
def State.mainLost (s : State) : State :=
  let s := s.wr F.SYS_CLK_STATUS_MAIN_LOCK 0
  if s.tilHeld then s.hedgeShow else (s.raise 2).trip 8

/-- MAIN_PLL_LOCK_LOSS (R25). During a relock it is no loss (R26). -/
def execMainPllLockLoss (s : State) : Host.Outcome State Fault Refusal :=
  .next (if s.sys.relock || s.mode == mRESET || !s.on F.SYS_CLK_STATUS_MAIN_LOCK then s else s.mainLost)

/-- Whether an abandoned MEM_INIT had reached word `i`: not stated, a free value (R105). -/
def partlyZeroed (ix i : Nat) : Bool := Config.freeValue (ix + i) % 2 == 1

/-- A tiller at the loss of its clock (R105). -/
def Tiller.clockLost (t : Tiller) (ix : Nat) : Tiller :=
  let stop : Tiller := t.halted 6
  match t.state with
  | .halted => t
  | .init => { stop with
      imem := t.imem.filter fun e => !partlyZeroed ix (e.1 / 4), imemCond := t.imemCond.filter fun e => !partlyZeroed ix e.1
      dmem := t.dmem.filter fun e => !partlyZeroed (ix + 8192) (e.1 / 4)
      dmemCond := t.dmemCond.filter fun e => !partlyZeroed (ix + 8192) e.1 }
  | _ => stop

/-- The tiller PLL is unlocked (R105): tillers halt, the transfer of a block is given up, SYS_CLK_FAULT, orderly stop. -/
def State.tilLost (s : State) : State :=
  let s : State := { s.wr F.SYS_CLK_STATUS_TIL_LOCK 0 with oq := { s.oq with transfer := none } }
  let s := s.forN 192 fun n s =>
    { s.onTiller n fun t => t.clockLost s.freeIx with
      freeIx := if (s.tiller n).state = .init then s.freeIx + 24576 else s.freeIx }
  (s.raise 2).orderlyStop 0x11

/-- TILLER_PLL_LOCK_LOSS (R105). -/
def execTillerPllLockLoss (s : State) : Host.Outcome State Fault Refusal :=
  .next (if s.sys.relock || s.mode == mRESET || !s.on F.SYS_CLK_STATUS_TIL_LOCK then s else s.tilLost)

/-- TILLER_PLL_RELOCK (R105): the tillers stay halted. -/
def execTillerPllRelock (s : State) : Host.Outcome State Fault Refusal :=
  .next (if s.sys.relock || s.mode == mRESET then s else s.wr F.SYS_CLK_STATUS_TIL_LOCK 1)

/-- The DRAM domain runs again; the relock's own self-refresh is left (R26, R371). -/
def State.dramRuns (s : State) : State :=
  let sr := s.sys.relockSR
  let s := s.sy fun x => { x with dramStopped := false, relockSR := false }
  if sr then s.memWake else s

/-- MANAGEMENT_PLL_LOCK_LOSS (R410). -/
def execManagementPllLockLoss (s : State) : Host.Outcome State Fault Refusal := .next (s.enterReset 5 false)

/-- A write of SYS_CLK_CFG.REF_SEL (R26); `present` tells whether edges are present on the selected reference. DRAM that is on its way
into self-refresh counts as active and leaves it after the relock, and from INIT or SR_EXIT none is entered (DESIGN CHOICE, log entry
214). -/
def State.refSel (s : State) (sel : Nat) (present : Bool) : State :=
  if sel = 3 then s.cfgReject
  else if sel = s.rd F.SYS_CLK_CFG_REF_SEL then s
  else if s.mode ≠ mSTANDBY then s.cfgReject
  else
    let sr := s.memState == 2 || s.memState == 3
    let s := if sr then (s.srEnter.loseSegments).wr F.MEM_STATUS_STATE 4 else s
    let s := (((s.wr F.SYS_CLK_CFG_REF_SEL sel).wr F.SYS_CLK_STATUS_MAIN_LOCK 0).wr F.SYS_CLK_STATUS_TIL_LOCK 0).wr
      F.SYS_CLK_STATUS_MGMT_LOCK 0
    let s := (s.wr F.SYS_CLK_STATUS_HDG_XCHK_OK 0).put F.SYS_CLK_STATUS_REF_PRESENT present
    (s.hd fun h => { h with rcBad := 0 }).sy fun x => { x with relock := true, relockSR := sr || x.relockSR, dramStopped := true }

/-- REF_SEL_CHANGE (R26). -/
def execRefSelChange (sel : Fin 4) (present : Bool) (s : State) : Host.Outcome State Fault Refusal :=
  .next (s.access false fun s => s.refSel sel present)

/-! ### Power fail (R43, R340, R342) -/

/-- PF_N_FALL (R43): a fuse burn in progress is cut. -/
def execPfNFall (s : State) : Host.Outcome State Fault Refusal :=
  .next ((s.sy fun x => { x with pfLow := true }).cl fun c => { c with burnCut := c.burn.isSome })

/-- SYS_PF (R43): PF_N has been low for 10 µs. -/
def execSysPf (s : State) : Host.Outcome State Fault Refusal :=
  .next (if s.sys.pfLow && s.mode != mRESET then (s.raise 4).orderlyStop 0x0A else s)

/-! ### Orderly stop, spin-up (R32, R37, R240) -/

/-- The cause of a forced condition that blocks a start of ranging: PF_N low, or CRITICAL or TRIP not cleared; 0 none (Table
AR-14). -/
def State.forcedCause (s : State) : Nat :=
  if s.sys.pfLow then 0x0A else if (s.rd F.THM_STATUS_IND).testBit 2 then 0x08 else 0

/-- A MODE_SCAN latched during the stop is carried out (R37). -/
def State.scanAfterStop (s : State) : State :=
  match s.sys.pendScan with
  | none => s
  | some tag =>
    let s := (s.wr F.SYS_PEND_STATUS_MODE_SCAN 0).sy fun x => { x with pendScan := none }
    if s.forcedCause ≠ 0 then s.respond tag 4 s.forcedCause
    else ((s.wr F.SYS_MBOX_RESP_STATUS 1).sy fun x => { x with scanTag := some tag }).goMode mSPINUP 0x01

/-- ORDERLY_STOP_COMPLETE (R32): the last point cycle has ended and its blocks have left. -/
def execOrderlyStopComplete (s : State) : Host.Outcome State Fault Refusal :=
  .next <|
    if !s.on F.SYS_MODE_STOPPING || s.running || s.mode == mRESET then s
    else
      let sr := s.sys.stopSR
      let s := (s.wr F.SYS_MODE_STOPPING 0).sy fun x => { x with stopSR := false }
      let s := s.goMode mSTANDBY s.sys.stopCause
      let s := if sr then (s.wr F.MEM_CTRL_SR 1).srEnter else s
      s.scanAfterStop

/-- SPIN_TIMEOUT (R43): SPIN-UP has lasted SYS_MODE_CFG.SPIN_TIMEOUT. -/
def execSpinTimeout (s : State) : Host.Outcome State Fault Refusal :=
  .next <|
    if s.mode ≠ mSPINUP ∨ s.on F.SYS_MODE_STOPPING then s
    else
      let s := s.raise 5
      let s := match s.sys.scanTag with
        | some tag => (s.sy fun x => { x with scanTag := none }).respond tag 7 0
        | none => s
      let s := match s.sys.cmd with
        | some c => if c.group = 1 ∧ c.code = 2 then s.answer 7 0 else s
        | none => s
      s.goMode mSTANDBY 0x0C

/-- SPIN_UP_LOCK_ACHIEVED (R240): the spindle is LOCKED and the hedge releases LI_N; a derate source that is present, or a rerun that
waits, acts at once. -/
def execSpinUpLockAchieved (s : State) : Host.Outcome State Fault Refusal :=
  .next <|
    if s.mode ≠ mSPINUP ∨ s.on F.SYS_MODE_STOPPING ∨ s.sp ≠ hLOCKED ∨ s.gst ≠ gRELEASED then s
    else ((s.goMode mSCAN 0x0B).derateCheck).rerunCheck

/-! ### Mode commands (Table AR-13) -/

/-- The command becomes BUSY. -/
def State.busyWith (s : State) (c : MboxCmd) : State := (s.wr F.SYS_MBOX_RESP_STATUS 1).sy fun x => { x with cmd := some c }

/-- MODE_STANDBY: joins an orderly stop, clearing a latched MODE_SCAN (R37). -/
def State.cmdStandby (s : State) (c : MboxCmd) : State :=
  let sr := c.arg % 2 == 1
  if s.mode = mSTANDBY then
    (if sr then (s.wr F.MEM_CTRL_SR 1).srEnter else s).respond c.tag 2 0
  else
    let s := (s.wr F.SYS_PEND_STATUS_MODE_SCAN 0).sy fun x => { x with pendScan := none, stopSR := x.stopSR || sr }
    (s.busyWith c).orderlyStop 0x01

/-- MODE_SCAN: from STANDBY to SPIN-UP; latched during an orderly stop (R37). -/
def State.cmdScan (s : State) (c : MboxCmd) : State :=
  if s.mode = mSCAN ∨ s.mode = mDERATED then s.respond c.tag 2 0
  else if s.mode = mSPINUP then s.busyWith c
  else (s.busyWith c).goMode mSPINUP 0x01

/-- DERATE_ENTER: the host derate source is set. -/
def State.cmdDerate (s : State) (c : MboxCmd) : State :=
  let s := s.sy fun x => { x with hostDerate := true }
  if s.mode = mDERATED then s.respond c.tag 2 0 else (s.busyWith c).derateCheck

/-- DERATE_RELEASE. -/
def State.cmdRelease (s : State) (c : MboxCmd) : State :=
  let s := (s.sy fun x => { x with hostDerate := false }).respond c.tag 2 0
  s.toScan State.derateCheck

/-- ENTER_RECOVERY. -/
def State.cmdRecovery (s : State) (c : MboxCmd) : State :=
  if s.mode = mRECOVERY then s.respond c.tag 2 0 else (s.busyWith c).enterRecovery 0x01

/-- Flash work that RESET_WARM and RESET_COLD wait for (R411). -/
def State.flashBusy (s : State) : Bool :=
  s.on F.CAL_STATUS_JRN_BUSY || s.boot.saving.isSome || s.boot.writing.isSome

/-- RESET_WARM and RESET_COLD (R36, R411): no response; a command that was BUSY, a MODE_SCAN carried out after its stop (R37)
included, or a command that waits for DRAM (R371), posts none either. -/
def State.cmdReset (s : State) (tag : Nat) (warm : Bool) : State :=
  let s := (s.sy fun x => { x with cmd := none, scanTag := none }).bo fun b => { b with memJobs := b.memJobs.filter MemJob.ofLink }
  if s.flashBusy then s.bo fun b => { b with heldReset := some (tag, warm) } else s.enterReset (if warm then 2 else 3) warm

/-- A held RESET_WARM or RESET_COLD is carried out once flash work has ended (R411). -/
def State.heldResetCheck (s : State) : State :=
  match s.boot.heldReset with
  | some (_, warm) => if s.flashBusy then s else s.enterReset (if warm then 2 else 3) warm
  | none => s

/-- Modes in which a mode command is permitted (Table AR-13). -/
def modePermits (code m : Nat) : Bool :=
  match code with
  | 1 => [mSPINUP, mSCAN, mCALIBRATE, mDERATED, mSTANDBY].contains m
  | 2 => [mSTANDBY, mSPINUP, mSCAN, mDERATED].contains m
  | 3 => [mSTANDBY, mSCAN].contains m
  | 4 => [mSCAN, mDERATED].contains m
  | 5 => [mSCAN, mDERATED].contains m
  | 8 => [mSTANDBY, mRECOVERY].contains m
  | _ => true

/-- A mode command that runs during an orderly stop (R35, R37). -/
def State.cmdStopping (s : State) (c : MboxCmd) : State :=
  match c.code with
  | 1 => s.cmdStandby c
  | 2 => ((s.wr F.SYS_PEND_STATUS_MODE_SCAN 1).sy fun x => { x with pendScan := some c.tag }).respond c.tag 5 0
  | _ => s.respond c.tag 6 s.sys.stopCause

/-- A permitted mode command takes effect. -/
def State.cmdEffect (s : State) (c : MboxCmd) : State :=
  match c.code with
  | 1 => s.cmdStandby c
  | 2 => s.cmdScan c
  | 3 => (s.busyWith c).startPlan (c.arg % 16) 0x01 false
  | 4 => s.cmdDerate c
  | 5 => s.cmdRelease c
  | _ => s.cmdRecovery c

/-- The mode does not permit the command: its mode, BOOT_DONE, the slot write, the plan (Tables AR-13, CT-2; R328, R421, R422). -/
def State.cmdBarred (s : State) (c : MboxCmd) : Bool :=
  !modePermits c.code s.mode || (c.code == 2 && s.mode == mSTANDBY && !s.on F.SYS_MODE_BOOT_DONE)
    || (c.code == 3 && !s.planPermitted (c.arg % 16))
    || (s.on F.BOOT_STATUS_SLOT_WRITE && (c.code == 2 || c.code == 3 || c.code == 8))

/-- A mode command other than MODE_QUERY and the resets (R35 to R37, R415, R425, Table AR-14). -/
def State.cmdMode (s : State) (c : MboxCmd) : State :=
  if ((s.mode = mRECOVERY ∨ s.sys.recovKept) ∧ c.code ≠ 8) ∨ s.on F.BOOT_STATUS_CD_DUE then s.respond c.tag 3 0
  else if s.mode = mSAFESTOP then s.respond c.tag 4 0x06
  else if (c.code = 2 ∨ c.code = 3) ∧ s.forcedCause ≠ 0 then s.respond c.tag 4 s.forcedCause
  else if s.on F.SYS_MODE_STOPPING then s.cmdStopping c
  else if s.cmdBarred c then s.respond c.tag 3 0
  else s.cmdEffect c

/-- The mode group (Table AR-13). -/
def State.modeGroup (s : State) (c : MboxCmd) : State :=
  match c.code with
  | 6 => s.cmdReset c.tag true
  | 7 => s.cmdReset c.tag false
  | 9 => (s.setReg R.SYS_MBOX_DATA (s.reg R.SYS_MODE)).respond c.tag 2 0
  | _ => s.cmdMode c

end Sys2Proof.Machine
end

