-- ==== Sys2Proof/Machine/Image.lean ====
section
/-! DEFINITION. Images (chapter 15, "Image format"): SHA-256 (FIPS 180-4), ECDSA verification over P-256 (FIPS 186-4), and the whole
check of R420. -/

namespace Sys2Proof.Machine

/-! ### SHA-256 -/

/-- The first 64 primes. -/
def shaPrimes : List Nat :=
  (List.range 312).filter fun n => decide (2 ≤ n) && (List.range n).all fun d => decide (d < 2) || decide (n % d ≠ 0)

/-- The first 32 bits of the fraction of the `k`-th root of `n` (n < 2 ^ 9): the root of n * 2 ^ (32 k), found bit by bit, without its
integer part. -/
def rootFraction (k n : Nat) : Word :=
  BitVec.ofNat 32 ((List.range 38).foldl
    (fun r i => let q := r + 2 ^ (37 - i); if q ^ k ≤ n * 2 ^ (32 * k) then q else r) 0)

/-- FIPS 180-4 takes its round constants from the cube roots of the first 64 primes. -/
def shaConstants : List Word := shaPrimes.map (rootFraction 3)

/-- The exclusive or of a word turned right by each of two counts and of a third word. -/
def shaMix (w : Word) (i j : Nat) (v : Word) : Word := w.rotateRight i ^^^ w.rotateRight j ^^^ v

/-- SHA-256 in the middle of a block: the next sixteen words of the message schedule, and the last four values, newest first, of its two
running words (a, b, c, d are the four last values of the one, e, f, g, h of the other). -/
structure ShaRun where
  sched : List Word
  as : List Word
  es : List Word

/-- One round with the constant `k`: takes the schedule's first word and appends the word sixteen later. -/
def ShaRun.round (r : ShaRun) (k : Word) : ShaRun :=
  let w := fun i => r.sched.getD i 0
  let a := fun i => r.as.getD i 0
  let e := fun i => r.es.getD i 0
  let pick := e 2 ^^^ (e 0 &&& (e 1 ^^^ e 2))
  let most := (a 0 &&& (a 1 ||| a 2)) ||| (a 1 &&& a 2)
  let t := k + w 0 + e 3 + pick + shaMix (e 0) 6 11 ((e 0).rotateRight 25)
  let later := shaMix (w 14) 17 19 (w 14 >>> 10) + w 9 + shaMix (w 1) 7 18 (w 1 >>> 3) + w 0
  { sched := r.sched.drop 1 ++ [later]
    as := (t + most + shaMix (a 0) 2 13 ((a 0).rotateRight 22)) :: r.as.take 3
    es := (a 3 + t) :: r.es.take 3 }

/-- The big-endian word at byte `i` of `m`. -/
def wordAtBE (m : List Byte) (i : Nat) : Word :=
  BitVec.ofNat 32 (ofBytes ((m.drop i).take 4).reverse)

/-- The hash value (a..d, e..h) after `m`'s block at byte `i`. -/
def shaBlock (m : List Byte) (h : List Word × List Word) (i : Nat) : List Word × List Word :=
  let r := shaConstants.foldl ShaRun.round
    { sched := (List.range 16).map fun j => wordAtBE m (i + 4 * j), as := h.1, es := h.2 }
  (List.zipWith (· + ·) h.1 r.as, List.zipWith (· + ·) h.2 r.es)

/-- SHA-256 of a byte list, as a number. The message is followed by 0x80, zeros up to 8 bytes short of a block, and its length in bits; the
hash begins at the square roots of the first eight primes. -/
def sha256 (m : List Byte) : Nat :=
  let msg := m ++ [0x80] ++ List.replicate ((119 - m.length % 64) % 64) 0 ++ netBytes 8 (8 * m.length)
  let init := (shaPrimes.take 8).map (rootFraction 2)
  let out := ((List.range (msg.length / 64)).map (64 * ·)).foldl (shaBlock msg) (init.take 4, init.drop 4)
  (out.1 ++ out.2).foldl (fun acc w => acc * 2 ^ 32 + w.toNat) 0

/-! ### ECDSA over P-256 -/

/-- The field, the group order, the coefficient b and the base point of P-256. -/
def p256P : Nat := 0xffffffff00000001000000000000000000000000ffffffffffffffffffffffff
def p256N : Nat := 0xffffffff00000000ffffffffffffffffbce6faada7179e84f3b9cac2fc632551
def p256B : Nat := 0x5ac635d8aa3a93e7b3ebbd55769886bc651d06b0cc53b0f63bce3c3e27d2604b
def p256G : Nat × Nat :=
  (0x6b17d1f2e12c4247f8bce6e563a440f277037d812deb33a0f4a13945d898c296,
   0x4fe342e2fe1a7f9b8ee7eb4a7c0f9e162bce33576b315ececbb6406837bf51f5)

/-- a ^ e modulo m, over the low 256 bits of e. -/
def powMod (a e m : Nat) : Nat :=
  (List.range 256).foldl (fun r i => let q := r * r % m; if e.testBit (255 - i) then q * a % m else q) 1

/-- The inverse modulo a prime. -/
def invMod (a m : Nat) : Nat := powMod (a % m) (m - 2) m

/-- The sum of two points of the curve; `none` is the point at infinity. -/
def ecAdd (a b : Option (Nat × Nat)) : Option (Nat × Nat) :=
  match a, b with
  | none, b => b
  | a, none => a
  | some (x1, y1), some (x2, y2) =>
    let p := p256P
    if x1 = x2 ∧ (y1 + y2) % p = 0 then none
    else
      let l := if x1 = x2 then (3 * x1 * x1 + (p - 3)) * invMod (2 * y1) p % p
        else (y2 + p - y1) * invMod (x2 + p - x1) p % p
      let x := (l * l + 2 * p - x1 - x2) % p
      some (x, (l * (x1 + p - x) + p - y1) % p)

/-- k times a point, over the low 256 bits of k. -/
def ecMul (k : Nat) (a : Option (Nat × Nat)) : Option (Nat × Nat) :=
  (List.range 256).foldl (fun r i => let q := ecAdd r r; if k.testBit (255 - i) then ecAdd q a else q) none

/-- A public key is a point of the curve. -/
def ecValid (q : Nat × Nat) : Bool :=
  decide (q.1 < p256P) && decide (q.2 < p256P)
    && q.2 * q.2 % p256P == (q.1 * q.1 * q.1 + (p256P - 3) * q.1 + p256B) % p256P

/-- The signature (r, s) of the digest `e` verifies under key `q`. -/
def ecdsaVerify (q : Nat × Nat) (e r s : Nat) : Bool :=
  if r = 0 ∨ p256N ≤ r ∨ s = 0 ∨ p256N ≤ s ∨ !ecValid q then false
  else
    let w := invMod s p256N
    match ecAdd (ecMul (e * w % p256N) (some p256G)) (ecMul (r * w % p256N) (some q)) with
    | none => false
    | some (x, _) => x % p256N == r

/-! ### The image check (R420, Tables BU-4 to BU-6) -/

/-- `k` bytes at offset `o`, as a little-endian number. -/
def leAt (b : List Byte) (o k : Nat) : Nat := ofBytes ((b.drop o).take k)

/-- `k` bytes at offset `o`, as a number the most significant byte first. -/
def beAt (b : List Byte) (o k : Nat) : Nat := ofBytes ((b.drop o).take k).reverse

/-- Fields of the image header (Table BU-4). -/
def imgKey (b : List Byte) : Nat := leAt b 0x006 1
def imgFlags (b : List Byte) : Nat := leAt b 0x007 1
def imgVersion (b : List Byte) : Nat := leAt b 0x00C 4
def imgFmt (b : List Byte) : Nat := leAt b 0x018 2
def imgSections (b : List Byte) : Nat := leAt b 0x01A 2
def imgBodyLen (b : List Byte) : Nat := leAt b 0x01C 4

/-- The body of an image. -/
def imgBody (b : List Byte) : List Byte := (b.drop 256).take (imgBodyLen b)

/-- Directory entry `i`: TYPE, DEST, OFFSET, LENGTH (Table BU-5). -/
def imgSection (b : List Byte) (i : Nat) : Nat × Nat × Nat × Nat :=
  (leAt b (256 + 16 * i) 4, leAt b (260 + 16 * i) 4, leAt b (264 + 16 * i) 4, leAt b (268 + 16 * i) 4)

/-- Check 1. -/
def imgHeaderOk (b : List Byte) : Bool :=
  let loader := (imgFlags b).testBit 1
  decide (256 ≤ b.length) && leAt b 0 4 == 0x454C5649 && leAt b 4 2 == 1 && decide (imgFlags b < 4) && decide (imgKey b ≤ 3)
    && imgBodyLen b % 16 == 0 && decide (imgBodyLen b ≤ (if loader then 0x10000 else 0x800000) - 256)
    && leAt b 0x020 32 == 0 && leAt b 0x0A0 96 == 0 && decide (256 + imgBodyLen b ≤ b.length)

/-- Bytes of the memory that a section of a type, at DEST, may fill: management SRAM, a tiller's memory (Table TA-1), or the loader
region; none limits a migration section. -/
def sectionRoom (type dest : Nat) : Option Nat :=
  match type with
  | 1 => some (Config.mgmtSram - dest)
  | 2 => some (Config.mgmtSram - dest)
  | 3 => some (0x8000 - dest)
  | 4 => if dest < 0x10000 then some 0 else some (0x20000 - dest)
  | 6 => some (0x10000 - 256)
  | _ => none

/-- Check 6: the directory. -/
def imgDirOk (b : List Byte) : Bool :=
  let loader := (imgFlags b).testBit 1
  decide (1 ≤ imgSections b) && decide (imgSections b ≤ 16) && decide (16 * imgSections b ≤ imgBodyLen b) && (List.range (imgSections b)).all fun i =>
    let (type, dest, ofs, len) := imgSection b i
    decide (1 ≤ type) && decide (type ≤ 6) && (if loader then type == 6 else type != 6) && ofs % 16 == 0
      && decide (ofs + len ≤ imgBodyLen b)
      && (match sectionRoom type dest with | some r => decide (len ≤ r) | none => true)

/-- Check 5: the body's hash. -/
def imgHashOk (b : List Byte) : Bool := sha256 (imgBody b) == beAt b 0x040 32

/-- Check 4: the signature. -/
def imgSigOk (b : List Byte) : Bool :=
  ecdsaVerify (Config.romKey (imgKey b)) (sha256 (b.take 0x60)) (beAt b 0x060 32) (beAt b 0x080 32)

/-- The unit serial as the fuses give it. -/
def State.serial (s : State) : Nat := 2 ^ 32 * s.rd F.BOOT_SERIAL_HI_SERIAL + s.rd F.BOOT_SERIAL_LO_SERIAL

/-- The whole check of an image (R420): the result of Table BU-6, 0 when every check holds. -/
def State.imageCheck (s : State) (b : List Byte) : Nat :=
  if !imgHeaderOk b then 1
  else if leAt b 0x008 4 ≠ 0x4C581152 then 2
  else if (imgFlags b).testBit 0 ∧ leAt b 0x010 8 ≠ s.serial then 3
  else if !imgSigOk b then 4
  else if !imgHashOk b then 5
  else if !imgDirOk b then 1
  else 0

/-- The image in the image slot, and the loader's region (Table BU-3). -/
def slotBase : Nat := 0x100000
def State.slotImage (s : State) : List Byte :=
  let head := s.flashBytes slotBase 256
  head ++ s.flashBytes (slotBase + 256) (min (imgBodyLen head) (0x800000 - 256))
def State.loaderImage (s : State) : List Byte :=
  let head := s.flashBytes 0 256
  head ++ s.flashBytes 256 (min (imgBodyLen head) (0x10000 - 256))

/-- Bytes of the first section of a type in an image. -/
def imgFind (b : List Byte) (type : Nat) : Option (List Byte) :=
  (List.range (imgSections b)).findSome? fun i =>
    let (t, _, ofs, len) := imgSection b i
    if t = type then some ((imgBody b).drop ofs |>.take len) else none

end Sys2Proof.Machine
end

