-- ==== Sys2Proof/Machine/Update.lean ====
section
/-! DEFINITION. Updating the image (R421 to R424), settings records (R424, R430), the headland relay (R426 to R429), and what waits
for PF_N (R342). -/

namespace Sys2Proof.Machine

/-! ### Update commands (Table BU-7) -/

/-- An update command ends with `result` (R421): DONE with it in DATA, BOOT_UPDATE unless OK. -/
def State.updEnd (s : State) (tag result : Nat) : State :=
  let s := ((s.wr F.BOOT_UPD_RESULT_RESULT result).setReg R.SYS_MBOX_DATA (BitVec.ofNat 32 result)).raiseIf (result != 0) 505
  ({ s with sys := { s.sys with cmd := none } }).respond tag 2 0

/-- The update session is discarded (R421). -/
def State.sessDrop (s : State) : State :=
  (s.wr F.BOOT_STATUS_SESSION 0).bo fun b => { b with sessLen := 0, sessGot := 0, checked := 0 }

/-- A command of the session ends: with a result other than OK the session is discarded. -/
def State.sessEnd (s : State) (tag result : Nat) : State := (if result = 0 then s else s.sessDrop).updEnd tag result

/-- Staging lies with its 8 MiB inside local DRAM. -/
def State.stageOk (s : State) : Bool := decide (s.stageBase + 2 ^ 23 ≤ s.localSize)

/-- An image length that UPDATE_BEGIN takes. -/
def imgLenOk (n : Nat) : Bool := decide (272 ≤ n) && decide (n ≤ 2 ^ 23)

/-- Words of a byte list, the least significant byte first; a last word in part keeps nothing of what stood there. -/
def leWords : List Byte → List Word
  | a :: b :: c :: d :: r => BitVec.ofNat 32 (ofBytes [a, b, c, d]) :: leWords r
  | [] => []
  | l => [BitVec.ofNat 32 (ofBytes l)]

/-- Places bytes in LNK_MBOX_BUF from offset 0. -/
def State.mboxPut (s : State) (d : List Byte) : State :=
  ((leWords d).zipIdx).foldl (fun s x => s.setReg (R.LNK_MBOX_BUF x.2) x.1) s

/-- The firmware's accesses to DRAM through port MGMT. An uncorrectable read is a bus error, which delivers no data (R376); what the
firmware works with then is not stated: free values (log entry 228). -/
def State.mgmtStore (s : State) (a : Nat) (d : List Byte) : State := s.memStore 4 a d false
def State.mgmtLoad (s : State) (a n : Nat) : List Byte × State :=
  let (d, bad, s) := s.memLoad 4 a n
  if bad then
    ((List.range n).map fun i => BitVec.ofNat 8 (Config.freeValue (s.freeIx + i)), { s with freeIx := s.freeIx + n })
  else (d, s)

/-- The whole check of an image, and that a loader image comes in RECOVERY only (R420, R423). -/
def State.stagedCheck (s : State) (img : List Byte) : Nat :=
  let r := s.imageCheck img
  if r = 0 ∧ (imgFlags img).testBit 1 ∧ s.mode ≠ mRECOVERY then 9 else r

/-- Region an image goes to: the loader's or the slot. -/
def imgRegion (img : List Byte) : Nat := if (imgFlags img).testBit 1 then 0 else slotBase

/-- Bytes of an image: its header and its body. What was staged beyond them is not written (R419, R423). -/
def imgNeeds (img : List Byte) : Nat := 256 + imgBodyLen img

/-- The slot write starts at instant `t` (ps) (R422, R423): the record reads WRITING, the sectors that the image needs are erased. -/
def State.slotStart (s : State) (img : List Byte) (headland : Bool) (t : Nat) : State :=
  let s := s.setUpd { s.boot.upd with state := 1 } 0 t
  let a := imgRegion img
  let img := img.take (imgNeeds img)
  let s := s.flashErase a (a + (img.length + 0xFFFF) / 0x10000 * 0x10000)
  (s.wr F.BOOT_STATUS_SLOT_WRITE 1).bo fun b => { b with writing := some (img, headland) }

/-- What the firmware does with DRAM waits until the controller serves requests, which it wakes for it (R371). -/
def State.memDefer (s : State) (j : MemJob) : State := (s.bo fun b => { b with memJobs := b.memJobs ++ [j] }).memWake

/-- UPDATE_BEGIN (Table BU-7). -/
def State.updBegin (s : State) (tag len : Nat) : State :=
  let s := s.sessDrop
  if !imgLenOk len then s.sessEnd tag 8
  else if !s.stageOk then s.sessEnd tag 0x0C
  else ((s.wr F.BOOT_STATUS_SESSION 1).bo fun b => { b with sessLen := len, sessGot := 0, checked := 0 }).sessEnd tag 0

/-- UPDATE_DATA (Table BU-7). -/
def State.updData (s : State) (c : MboxCmd) : State :=
  let tag := c.tag
  let ofs := c.arg
  if !s.on F.BOOT_STATUS_SESSION then s.sessEnd tag 6
  else if ofs ≠ s.boot.sessGot then s.sessEnd tag 7
  else if s.boot.sessLen ≤ ofs then s.sessEnd tag 8
  else if s.mgmtWaits (s.stageBase + ofs) then (s.busyWith c).memDefer (.cmd c 0)
  else
    let n := min 4096 (s.boot.sessLen - ofs)
    let s := s.mgmtStore (s.stageBase + ofs) (s.mboxBytes n)
    (s.bo fun b => { b with sessGot := ofs + n, checked := 0 }).sessEnd tag 0

/-- UPDATE_END at instant `t` (ps) (Table BU-7, R422): answered when the write is verified. -/
def State.updFinish (s : State) (c : MboxCmd) (t : Nat) : State :=
  if s.sys.pfLow then s.respond c.tag 4 0x0A
  else if !s.on F.BOOT_STATUS_SESSION then s.sessEnd c.tag 6
  else if s.boot.sessGot ≠ s.boot.sessLen then s.sessEnd c.tag 8
  else if s.mgmtWaits s.stageBase then (s.busyWith c).memDefer (.cmd c t)
  else
    let (img, s) := s.mgmtLoad s.stageBase s.boot.sessLen
    let r := s.stagedCheck img
    if r ≠ 0 then s.sessEnd c.tag r
    else ((s.bo fun b => { b with checked := b.sessLen }).busyWith c).slotStart img false t

/-- UPDATE_CONFIRM takes effect at instant `t` (ps) (R424): answers its result. -/
def State.confirm (s : State) (t : Nat) : Nat × State :=
  if s.boot.upd.state = 2 then (0, s.setUpd { s.boot.upd with state := 0 } 0 t) else (0x0B, s)

/-- The modes of UPDATE_CONFIRM (R421). -/
def State.confirmPermitted (s : State) : Bool :=
  s.on F.SYS_MODE_BOOT_DONE && [mSTANDBY, mSPINUP, mSCAN, mCALIBRATE, mDERATED].contains s.mode

/-- The modes of the session's commands (R421). -/
def State.updPermitted (s : State) : Bool := (s.mode == mSTANDBY && s.on F.SYS_MODE_BOOT_DONE) || s.mode == mRECOVERY

/-- Group 0x04 at instant `t` (ps). -/
def State.updGroup (s : State) (c : MboxCmd) (t : Nat) : State :=
  if c.code = 4 then
    (if !s.confirmPermitted then s.respond c.tag 3 0
    else let x := s.confirm t; x.2.updEnd c.tag x.1)
  else if !s.updPermitted then s.respond c.tag 3 0
  else match c.code with
    | 1 => s.updBegin c.tag c.arg
    | 2 => s.updData c
    | _ => s.updFinish c t

/-! ### Headland relay (R426 to R429) -/

/-- The bytes of a packet on a link: the header of Table BU-8, the payload, the CRC-32C over both. Packet types 0x0 and 0x9 to 0xF are
discarded (R426): no command stands for one. -/
def HdlPkt.bytes (p : HdlPkt) : List Byte :=
  let b := bytesOf 4 (p.type % 16 * 2 ^ 28 + p.hops % 256 * 2 ^ 16 + p.seq % 2 ^ 16) ++ bytesOf 4 p.offset ++ bytesOf 4 p.total
    ++ bytesOf 4 p.payload.length ++ p.payload
  b ++ bytesOf 4 (crc32c b)

/-- DATA packets of an image of `n` bytes. -/
def hdlCount (n : Nat) : Nat := (n + 4095) / 4096

/-- A packet leaves downstream, or upstream. -/
def State.hdlDown (s : State) (p : HdlPkt) : State := s.bo fun b => { b with hdlDn := b.hdlDn ++ [p] }
def State.hdlUpward (s : State) (p : HdlPkt) : State := s.bo fun b => { b with hdlUp := b.hdlUp ++ [p] }

/-- Packet `q` of a transfer: OFFER, DATA 1 to n, END (R427). -/
def State.hdlPacket (s : State) (x : HdlTx) (q : Nat) : HdlPkt × State :=
  let n := hdlCount x.total
  if q = 0 then
    let (d, s) := if x.relay then (x.head, s) else s.mgmtLoad x.stage 256
    (⟨1, x.hops, q, 0, x.total, d⟩, s)
  else if q ≤ n then
    let o := 4096 * (q - 1)
    let (d, s) := s.mgmtLoad (x.stage + o) (min 4096 (x.total - o))
    (⟨2, x.hops, q, o, x.total, d⟩, s)
  else (⟨3, x.hops, q, 0, x.total, []⟩, s)

/-- Packet `q` may be sent: a relay has received it (R428). -/
def State.hdlReady (s : State) (x : HdlTx) (q : Nat) : Bool :=
  decide (q ≤ hdlCount x.total + 1) &&
    (!x.relay || (match s.boot.rx with | some r => decide (q < r.seq) | none => true))

/-- Packet `q` carries bytes of the staged image. -/
def HdlTx.fromStage (x : HdlTx) (q : Nat) : Bool := decide (q ≤ hdlCount x.total) && !(q == 0 && x.relay)

/-- Sends what the window of 4 and the packets received permit (R427); what DRAM does not serve yet is sent when it does (R371). -/
def State.hdlPump (fuel : Nat) (s : State) : State :=
  match fuel with
  | 0 => s
  | k + 1 => match s.boot.tx with
    | none => s
    | some x =>
      if !(decide (x.next < x.base + 4) && s.hdlReady x x.next) then s
      else if x.fromStage x.next && s.mgmtWaits x.stage then s.memWake
      else
        let (p, s) := s.hdlPacket x x.next
        State.hdlPump k ((s.hdlDown p).bo fun b => { b with tx := some { x with next := x.next + 1 } })

/-- The transfer this unit sends ends; one that SEND started is its own (R428). -/
def State.hdlTxEnd (s : State) (x : HdlTx) (ok : Bool) : State :=
  let s := (s.wr F.BOOT_HDL_STATUS_TX_BUSY 0).bo fun b => { b with tx := none }
  if x.relay then s
  else if ok then (s.wr F.BOOT_HDL_STATUS_RESULT 0).raise 506
  else
    let (v, s) := s.drawFree 8
    (s.wr F.BOOT_HDL_STATUS_RESULT v).raise 506

/-- A transfer starts downstream. -/
def State.hdlTxStart (s : State) (x : HdlTx) : State :=
  ((s.wr F.BOOT_HDL_STATUS_TX_BUSY 1).bo fun b => { b with tx := some x }).hdlPump 4

/-- A write of BOOT_HDL_CTRL.SEND (R427). -/
def State.hdlSend (s : State) : State :=
  if s.boot.checked = 0 ∨ !s.on F.BOOT_STATUS_SESSION ∨ s.boot.tx.isSome then s.cfgReject
  else
    let s := s.forN 7 fun h s => s.wr (F.BOOT_HDL_RES_VALID (h + 1)) 0
    (s.bo fun b => { b with sent := true }).hdlTxStart ⟨s.stageBase, s.boot.checked, 0, 0, 0, false, 0, []⟩

/-- HEADLAND_SEND (R427). -/
def execHeadlandSend (s : State) : Host.Outcome State Fault Refusal := .next (s.access false State.hdlSend)

/-- CONFIRM is carried out here and passed downstream with `hops` at instant `t` (ps) (R429); which TOTAL it carries is not stated: a
free value (log entry 236). -/
def State.hdlConfirm (s : State) (hops t : Nat) (pass : Bool) : State :=
  let s := if s.confirmPermitted then
      let x := s.confirm t
      (x.2.wr F.BOOT_UPD_RESULT_RESULT x.1).raiseIf (x.1 != 0) 505
    else s
  if pass then
    let (total, s) := s.drawFree 32
    s.hdlDown ⟨8, hops, 0, 0, total, []⟩
  else s

/-- HEADLAND_CONFIRM (R429) at instant `t` (ps). -/
def execHeadlandConfirm (t : Nat) (s : State) : Host.Outcome State Fault Refusal :=
  .next (s.access false fun s => s.hdlConfirm 0 t true)

/-- HEADLAND_CONFIRM_PACKET (R429) at instant `t` (ps): relayed with HOPS + 1 where RELAY = 1. -/
def execHeadlandConfirmPacket (hops : Fin 8) (t : Nat) (s : State) : Host.Outcome State Fault Refusal :=
  .next (if s.mode = mRESET then s else s.hdlConfirm (hops + 1) t (s.on F.BOOT_HDL_CFG_RELAY))

/-- A unit may receive (R428). -/
def State.hdlMay (s : State) : Bool :=
  s.mode == mRECOVERY
    || (s.mode == mSTANDBY && s.on F.SYS_MODE_BOOT_DONE && s.on F.BOOT_HDL_CFG_ACCEPT && !s.on F.BOOT_STATUS_SESSION)

/-- Replies upstream: ACK 4, NAK 5, ABORT 6 for packet `q` of a transfer of `total` bytes (DESIGN CHOICE, log entry 236). -/
def State.hdlReply (s : State) (type q total : Nat) : State := s.hdlUpward ⟨type, 0, q, 0, total, []⟩

/-- The transfer received ends with `result` (R428): a RESULT goes upstream with the hops from the sender. -/
def State.hdlRxEnd (s : State) (x : HdlRx) (result : Nat) : State :=
  let s := s.hdlUpward ⟨7, 0, 0, (x.hops + 1) * 256 + result, x.total, []⟩
  let s := ((s.wr F.BOOT_HDL_STATUS_RX_BUSY 0).wr F.BOOT_HDL_STATUS_RESULT result).wr F.BOOT_UPD_RESULT_RESULT result
  (s.bo fun b => { b with rx := none }).raise 506

/-- A packet of the transfer in progress: `f` is what a good one in order does. -/
def State.hdlRx (s : State) (good : Bool) (q : Nat) (f : HdlRx → State → State) : State :=
  match s.boot.rx with
  | none => s
  | some x =>
    if !s.hdlMay then (s.hdlReply 6 q x.total).hdlRxAbort
    else if !good || x.ended || q ≠ x.seq then s.hdlReply 5 x.seq x.total
    else f x s

/-- An OFFER of `total` bytes is accepted: acknowledged, and passed on with RELAY = 1 (R428). The image header it carries is its payload, which
the command does not name: free bytes (log entry 175). A cold start owed for an earlier transfer stays owed (R429). -/
def State.hdlAccept (s : State) (hops total : Nat) : State :=
  let s := ((s.wr F.BOOT_HDL_STATUS_RX_BUSY 1).bo fun b => { b with
    rx := some ⟨s.stageBase, total, 0, 1, hops, false⟩, sent := false }).hdlReply 4 0 total
  if s.on F.BOOT_HDL_CFG_RELAY && s.boot.tx.isNone then
    let (head, s) := ((List.range 256).map fun i => BitVec.ofNat 8 (Config.freeValue (s.freeIx + i)), { s with freeIx := s.freeIx + 256 })
    s.hdlTxStart ⟨s.stageBase, total, 0, 0, 0, true, hops + 1, head⟩
  else s

/-- HEADLAND_OFFER (R428): an OFFER of `total` bytes that has travelled `hops` links; `good` says that its CRC holds. One that comes during a
transfer is out of order, and answered with the SEQ expected (R427); a NAK of one whose header cannot be trusted carries a free TOTAL. -/
def execHeadlandOffer (good : Bool) (hops : Fin 8) (total : Word) (s : State) : Host.Outcome State Fault Refusal :=
  .next <|
    if s.mode = mRESET then s
    else if s.boot.rx.isSome then s.hdlRx false 0 fun _ s => s
    else if !good then
      let (v, s) := s.drawFree 32
      s.hdlReply 5 0 v
    else if !s.hdlMay || s.boot.writing.isSome || !imgLenOk total.toNat || !s.stageOk then s.hdlReply 6 0 total.toNat
    else s.hdlAccept hops total.toNat

/-- A packet that needs the staging area waits with its like while DRAM does not serve (R371). -/
def State.hdlStaged (s : State) (good : Bool) (q : Nat) (j : MemJob) (f : HdlRx → State → State) : State :=
  if good && s.boot.rx.isSome && s.hdlMay && s.mgmtWaits s.stageBase then s.memDefer j else s.hdlRx good q f

/-- A DATA packet is staged, acknowledged and relayed (R428). -/
def State.hdlData (q ofs : Nat) (payload : List Byte) (x : HdlRx) (s : State) : State :=
  let n := min 4096 (x.total - x.got)
  if ofs ≠ x.got ∨ payload.length ≠ n ∨ n = 0 then s.hdlReply 5 x.seq x.total
  else
    let s := s.mgmtStore (x.stage + x.got) payload
    ((s.bo fun b => { b with rx := some { x with got := x.got + n, seq := x.seq + 1 } }).hdlReply 4 q x.total).hdlPump 4

/-- HEADLAND_DATA (R428): DATA packet `q` with its payload. -/
def execHeadlandData (good : Bool) (q : BitVec 16) (ofs : Word) (payload : List Byte) (s : State) :
    Host.Outcome State Fault Refusal :=
  .next (s.hdlStaged good q.toNat (.data q.toNat ofs.toNat payload) (State.hdlData q.toNat ofs.toNat payload))

/-- The transfer's END at instant `t` (ps): the image is checked, and written when it passes (R428). -/
def State.hdlEnd (q t : Nat) (x : HdlRx) (s : State) : State :=
  let x := { x with seq := x.seq + 1, ended := true }
  let s := ((s.bo fun b => { b with rx := some x }).hdlReply 4 q x.total).hdlPump 4
  if x.got ≠ x.total then s.hdlRxEnd x 8
  else
    let (img, s) := s.mgmtLoad x.stage x.total
    let r := s.stagedCheck img
    if r = 0 then s.slotStart img true t else s.hdlRxEnd x r

/-- HEADLAND_END (R428) at instant `t` (ps). -/
def execHeadlandEnd (good : Bool) (q : BitVec 16) (t : Nat) (s : State) : Host.Outcome State Fault Refusal :=
  .next (s.hdlStaged good q.toNat (.fin q.toNat t) (State.hdlEnd q.toNat t))

/-- A packet is sent again, from `q`: after the eighth resend of one packet the transfer ends with an ABORT (R427). -/
def State.hdlResend (s : State) (x : HdlTx) (q : Nat) : State :=
  let n := if q = x.base then x.resends else 0
  if 8 ≤ n then (s.hdlDown ⟨6, x.hops, q, 0, x.total, []⟩).hdlTxEnd x false
  else (s.bo fun b => { b with tx := some { x with base := q, next := q, resends := n + 1 } }).hdlPump 4

/-- Every packet before `q` is acknowledged: the transfer goes on, or has ended well (R427). -/
def State.hdlAcked (s : State) (x : HdlTx) (q : Nat) : State :=
  let x := { x with base := q, resends := 0 }
  if hdlCount x.total + 1 < x.base then s.hdlTxEnd x true
  else (s.bo fun b => { b with tx := some x }).hdlPump 4

/-- HEADLAND_ACK (R427): packet `q` is acknowledged. -/
def execHeadlandAck (q : BitVec 16) (s : State) : Host.Outcome State Fault Refusal :=
  .next <| match s.boot.tx with
    | none => s
    | some x => if q.toNat < x.base ∨ x.next ≤ q.toNat then s else s.hdlAcked x (q.toNat + 1)

/-- HEADLAND_NAK (R427): the receiver expects packet `q`, and so has all before it; one not sent yet is no resend. -/
def execHeadlandNak (q : BitVec 16) (s : State) : Host.Outcome State Fault Refusal :=
  .next <| match s.boot.tx with
    | none => s
    | some x =>
      if q.toNat < x.base ∨ x.next < q.toNat then s
      else if q.toNat = x.next then s.hdlAcked x x.next
      else s.hdlResend x q.toNat

/-- HEADLAND_RESEND_TIMEOUT (R427): the oldest unacknowledged packet has waited 1 ms. -/
def execHeadlandResendTimeout (s : State) : Host.Outcome State Fault Refusal :=
  .next <| match s.boot.tx with
    | none => s
    | some x => if x.base < x.next then s.hdlResend x x.base else s

/-- HEADLAND_ABORT (R427): from the downstream neighbour it ends what this unit sends, from the upstream one what it receives. -/
def execHeadlandAbort (downstream : Bool) (s : State) : Host.Outcome State Fault Refusal :=
  .next <|
    if downstream then (match s.boot.tx with | some x => s.hdlTxEnd x false | none => s)
    else match s.boot.rx with
      | some x => if x.ended then s else s.hdlRxAbort
      | none => s

/-- HEADLAND_RESULT (R428): a RESULT from the unit `h` hops from the sender: forwarded unchanged, and recorded by the unit that sent. The
command does not name its HOPS, SEQ and TOTAL, which are free (log entry 175). -/
def execHeadlandResult (h result : Byte) (s : State) : Host.Outcome State Fault Refusal :=
  .next <|
    if s.mode = mRESET then s
    else
      let (hops, s) := s.drawFree 8
      let (q, s) := s.drawFree 16
      let (total, s) := s.drawFree 32
      let s := s.hdlUpward ⟨7, hops, q, h.toNat * 256 + result.toNat, total, []⟩
      if s.boot.sent ∧ 1 ≤ h.toNat ∧ h.toNat ≤ 7 then
        (s.wr (F.BOOT_HDL_RES_RESULT h.toNat) result.toNat).wr (F.BOOT_HDL_RES_VALID h.toNat) 1
      else s

/-- HEADLAND_AUTO_START (R429): a unit whose slot was written, its RESULT sent, cold-starts once its downstream transfer has ended. -/
def execHeadlandAutoStart (s : State) : Host.Outcome State Fault Refusal :=
  .next (if s.boot.autoStart && s.boot.tx.isNone && !s.flashBusy && s.mode != mRESET then s.enterReset 3 false
    else s)

/-! ### Slot write (R423) -/

/-- SLOT_WRITE_COMPLETE (R423) at instant `t` (ps): `verified` says that the image reads back as written.
The write that a trip cut ends here too, and a RESET held for it is carried out (R34, R411). -/
def execSlotWriteComplete (verified : Bool) (t : Nat) (s : State) : Host.Outcome State Fault Refusal :=
  .next <|
    match s.boot.writing with
    | none => s.heldResetCheck
    | some (img, headland) =>
      let s := (s.wr F.BOOT_STATUS_SLOT_WRITE 0).bo fun b => { b with writing := none }
      let u := s.boot.upd
      let s := if verified then
          let s := s.flashWrite (imgRegion img) img
          let prev := if u.fmt = 0 then s.rd F.BOOT_IMAGE_INFO_SETTINGS_FMT else u.fmt
          let s := s.setUpd { u with state := 2, version := imgVersion img, fmt := imgFmt img, prevFmt := prev } 0 t
          ((s.wr F.BOOT_FAIL_COUNT 0).bo fun b => { b with fails := [] }).imageShow
        else s
      let r := if verified then 0 else 0x0A
      let s := if headland then
          let s := match s.boot.rx with
            | some x => s.hdlRxEnd x r
            | none => s
          s.bo fun b => { b with autoStart := b.autoStart || (verified && s.on F.BOOT_HDL_CFG_AUTO_START) }
        else match s.sys.cmd with
          | some c => if c.group = 4 then s.sessEnd c.tag r else s
          | none => s
      s.heldResetCheck

/-! ### Settings records (R424, R430) -/

/-- Flash offset of settings slot `k` (Table BU-3). -/
def setSlot (k : Nat) : Nat := 0x30000 + 0x10000 * k

/-- The record of slot `k`. -/
def State.setOf (s : State) (k : Nat) : Option SetRec := if k = 0 then s.boot.setA else s.boot.setB
def State.putSet (s : State) (k : Nat) (r : Option SetRec) : State :=
  if k = 0 then s.bo fun b => { b with setA := r } else s.bo fun b => { b with setB := r }

/-- The slot with the newest valid record that satisfies `p`. -/
def State.newestSet (s : State) (p : SetRec → Bool) : Option Nat :=
  let ok (k : Nat) : Option Nat := (s.setOf k).bind fun r => if p r then some r.seq else none
  match ok 0, ok 1 with
  | none, none => none
  | some _, none => some 0
  | none, some _ => some 1
  | some a, some b => if b ≤ a then some 0 else some 1

/-- The slot a save goes to (R424): not the one frozen while the update record reads UNCONFIRMED, nor the one with the newest
record. -/
def State.setTarget (s : State) : Nat :=
  let frozen := if s.boot.upd.state = 2 then s.newestSet fun r => r.fmt == s.boot.upd.prevFmt else none
  match frozen with
  | some k => 1 - k
  | none => match s.newestSet fun _ => true with
    | some k => 1 - k
    | none => 0

/-- A settings save starts, or waits for PF_N (R342, R424). -/
def State.setSave (s : State) : State :=
  if s.boot.saving.isSome then s
  else if s.sys.pfLow then s.bo fun b => { b with saveDue := true }
  else
    let k := s.setTarget
    ((s.flashErase (setSlot k) (setSlot k + 0x10000)).putSet k none).bo fun b => { b with saving := some k, saveDue := false }

/-- The settings table and options as a record. -/
def State.setRec (s : State) (seq : Nat) : SetRec :=
  { seq := seq, fmt := s.rd F.BOOT_IMAGE_INFO_SETTINGS_FMT
    table := ((List.range 512).map fun i => (i, s.reg (R.BOOT_SET_ADDR 0 + 4 * i)))
    opt := s.reg R.BOOT_SET_OPT }

/-- SETTINGS_SAVE_COMPLETE (R424): the save has committed, or its check has failed; SETTINGS_SAVE is answered. -/
def execSettingsSaveComplete (ok : Bool) (s : State) : Host.Outcome State Fault Refusal :=
  .next <|
    match s.boot.saving with
    | none => s
    | some k =>
      let seq := ((match s.newestSet fun _ => true with
        | some j => ((s.setOf j).map SetRec.seq).getD 0
        | none => 0) + 1) % 2 ^ 32
      let r := s.setRec seq
      let (b, s) := s.jrnBytes r.fmt seq
      let s := (s.flashWrite (setSlot k) (b ++ bytesOf 4 (crc32c b))).bo fun b => { b with saving := none }
      let s := if ok then (s.flashWrite (setSlot k + 0xFFFC) (bytesOf 4 0)).putSet k (some r) else s
      let s := match s.sys.cmd with
        | some c => if c.group = 7 then s.answer 2 0 else s
        | none => s
      s.heldResetCheck

/-- PF_N_RISE (R342): saves that wait start. -/
def execPfNRise (s : State) : Host.Outcome State Fault Refusal :=
  .next <|
    let s := s.sy fun x => { x with pfLow := false }
    let s := if s.on F.CAL_JRN_STATUS_PENDING then s.jrnStart else s
    if s.boot.saveDue then s.setSave else s

/-- SHADOW_PARITY_CHECK (R413): the parity of the fuse shadow is checked in every mode and in RESET. -/
def execShadowParityCheck (error : Bool) (s : State) : Host.Outcome State Fault Refusal :=
  .next (if error then s.wr F.CAL_STATUS_SHADOW_OK 0 else s)

end Sys2Proof.Machine
end

