-- ==== Sys2Proof/Machine/Mailbox.lean ====
section
/-! DEFINITION. The mailbox: ownership (R404), command groups (R36, Tables AR-13 and LK-4), datagrams (R405), the I2C master (R407). -/

namespace Sys2Proof.Machine

/-! ### Groups 0x02 to 0x07 (Table LK-4) -/

/-- The recovery ROM runs the management core (R30, R425). -/
def State.romRuns (s : State) : Bool := s.mode == mRECOVERY || s.sys.recovKept

/-- A command ends at once with `data` (Table LK-4). -/
def State.doneWith (s : State) (c : MboxCmd) (data : Nat) : State :=
  (s.setReg R.SYS_MBOX_DATA (BitVec.ofNat 32 data)).respond c.tag 2 0

/-- `k` bytes that the spec leaves open. -/
def State.freeBytes (s : State) (k : Nat) : List Byte × State :=
  ((List.range k).map fun i => BitVec.ofNat 8 (Config.freeValue (s.freeIx + i)), { s with freeIx := s.freeIx + k })

/-- FW_VERSION. -/
def State.cmdFwVersion (s : State) (c : MboxCmd) : State :=
  if s.romRuns then s.respond c.tag 3 0 else s.doneWith c (s.rd F.BOOT_IMAGE_VER_VERSION)

/-- SERIAL_LO and SERIAL_HI. -/
def State.cmdSerial (s : State) (c : MboxCmd) : State :=
  s.doneWith c (if c.code = 2 then s.serial % 2 ^ 32 else s.serial / 2 ^ 32)

/-- FLASH_READ: 4 KiB of flash; what an offset that is not aligned to 4 KiB returns is not stated: free bytes. -/
def State.cmdFlashRead (s : State) (c : MboxCmd) : State :=
  let (d, s) := if c.arg % 4096 = 0 then (s.flashBytes c.arg 4096, s) else s.freeBytes 4096
  (s.mboxPut d).respond c.tag 2 0

/-- I2C_XFER (R407): the transfer starts; of W + Rd above 4096 the spec states no effect: it ends with free data. -/
def State.cmdI2c (s : State) (c : MboxCmd) : State :=
  let w := bits c.arg 15 8
  let r := bits c.arg 27 16
  if s.romRuns ∨ s.mode < mSTANDBY then s.respond c.tag 3 0
  else if 4096 < w + r then
    let (v, s) := s.drawFree 24
    let (d, s) := s.freeBytes 4096
    (s.mboxPut d).doneWith c v
  else ((s.busyWith c).wr F.LNK_I2C_STATUS_BUSY 1).lk fun l => { l with i2c := some ⟨c.tag, bits c.arg 6 0, w, r, s.mboxBytes w⟩ }

/-- LOG_READ: 64 logbook entries. -/
def State.cmdLogRead (s : State) (c : MboxCmd) : State :=
  if s.romRuns then s.respond c.tag 3 0
  else (s.mboxPut (((List.range 64).map fun j => s.logRead (c.arg + j)).flatten)).respond c.tag 2 0

/-- SETTINGS_SAVE: answered when the record has been written. -/
def State.cmdSettingsSave (s : State) (c : MboxCmd) : State :=
  if s.romRuns ∨ s.mode ≠ mSTANDBY then s.respond c.tag 3 0 else (s.busyWith c).setSave

/-- A command of any group at instant `t` (ps). -/
def State.mboxRun (s : State) (c : MboxCmd) (t : Nat) : State :=
  match c.group with
  | 1 => s.modeGroup c
  | 2 => if c.code = 1 then s.cmdFwVersion c else s.cmdSerial c
  | 3 => s.cmdFlashRead c
  | 4 => s.updGroup c t
  | 5 => s.cmdI2c c
  | 6 => s.cmdLogRead c
  | _ => s.cmdSettingsSave c

/-- A GROUP and CODE that are not reserved (Tables AR-12, AR-13, LK-4). -/
def mboxKnown (group code : Nat) : Bool :=
  match group with
  | 1 => decide (1 ≤ code) && decide (code ≤ 9)
  | 2 => decide (1 ≤ code) && decide (code ≤ 3)
  | 4 => decide (1 ≤ code) && decide (code ≤ 4)
  | 3 => code == 1
  | 5 => code == 1
  | 6 => code == 1
  | 7 => code == 1
  | _ => false

/-- RESET_WARM and RESET_COLD. -/
def isReset (group code : Nat) : Bool := group == 1 && (code == 6 || code == 7)

/-- A write of this GROUP and CODE starts a command (R36). -/
def State.mboxStarts (s : State) (group code : Nat) : Bool :=
  mboxKnown group code && (isReset group code || s.rd F.SYS_MBOX_RESP_STATUS != 1)

/-- Master `m` owns the mailbox (R404): 1 PCIe, 2 SPI, 3 the firmware for Ethernet. -/
def State.owns (s : State) (m : Nat) : Bool := m != 0 && s.rd F.LNK_MBOX_OWNER_OWNER == m

/-- Master `m` writes SYS_MBOX_CMD at instant `t` (ps) (R36, R404). -/
def State.mboxWrite (s : State) (m tag group code t : Nat) : State :=
  if !s.owns m || !s.mboxStarts group code then s.cfgReject
  else
    let s := ((s.wr F.SYS_MBOX_CMD_TAG tag).wr F.SYS_MBOX_CMD_GROUP group).wr F.SYS_MBOX_CMD_CODE code
    (s.count 0 4 0 1).mboxRun ⟨tag, group, code, s.rd F.SYS_MBOX_ARG_ARG⟩ t

/-- The write as a command row gives it. -/
def State.mboxRow (s : State) (m : Fin 4) (tag : Byte) (group code t : Nat) : Host.Outcome State Fault Refusal :=
  .next (s.access false fun s => s.mboxWrite m tag.toNat group code t)

/-- The commands of Table AR-13, each a write of SYS_MBOX_CMD by master `m`; the argument is SYS_MBOX_ARG. -/
def execModeStandby (m : Fin 4) (tag : Byte) (s : State) : Host.Outcome State Fault Refusal := s.mboxRow m tag 1 1 0
def execModeScan (m : Fin 4) (tag : Byte) (s : State) : Host.Outcome State Fault Refusal := s.mboxRow m tag 1 2 0
def execModeCalibrate (m : Fin 4) (tag : Byte) (s : State) : Host.Outcome State Fault Refusal := s.mboxRow m tag 1 3 0
def execDerateEnter (m : Fin 4) (tag : Byte) (s : State) : Host.Outcome State Fault Refusal := s.mboxRow m tag 1 4 0
def execDerateRelease (m : Fin 4) (tag : Byte) (s : State) : Host.Outcome State Fault Refusal := s.mboxRow m tag 1 5 0
def execResetWarm (m : Fin 4) (tag : Byte) (s : State) : Host.Outcome State Fault Refusal := s.mboxRow m tag 1 6 0
def execResetCold (m : Fin 4) (tag : Byte) (s : State) : Host.Outcome State Fault Refusal := s.mboxRow m tag 1 7 0
def execEnterRecovery (m : Fin 4) (tag : Byte) (s : State) : Host.Outcome State Fault Refusal := s.mboxRow m tag 1 8 0
def execModeQuery (m : Fin 4) (tag : Byte) (s : State) : Host.Outcome State Fault Refusal := s.mboxRow m tag 1 9 0

/-- The commands of Table LK-4. -/
def execFwVersion (m : Fin 4) (tag : Byte) (s : State) : Host.Outcome State Fault Refusal := s.mboxRow m tag 2 1 0
def execSerialLo (m : Fin 4) (tag : Byte) (s : State) : Host.Outcome State Fault Refusal := s.mboxRow m tag 2 2 0
def execSerialHi (m : Fin 4) (tag : Byte) (s : State) : Host.Outcome State Fault Refusal := s.mboxRow m tag 2 3 0
def execFlashRead (m : Fin 4) (tag : Byte) (s : State) : Host.Outcome State Fault Refusal := s.mboxRow m tag 3 1 0
def execUpdateBegin (m : Fin 4) (tag : Byte) (s : State) : Host.Outcome State Fault Refusal := s.mboxRow m tag 4 1 0
def execUpdateData (m : Fin 4) (tag : Byte) (s : State) : Host.Outcome State Fault Refusal := s.mboxRow m tag 4 2 0
def execUpdateEnd (m : Fin 4) (tag : Byte) (t : Nat) (s : State) : Host.Outcome State Fault Refusal := s.mboxRow m tag 4 3 t
def execUpdateConfirm (m : Fin 4) (tag : Byte) (t : Nat) (s : State) : Host.Outcome State Fault Refusal := s.mboxRow m tag 4 4 t
def execI2cXfer (m : Fin 4) (tag : Byte) (s : State) : Host.Outcome State Fault Refusal := s.mboxRow m tag 5 1 0
def execLogRead (m : Fin 4) (tag : Byte) (s : State) : Host.Outcome State Fault Refusal := s.mboxRow m tag 6 1 0
def execSettingsSave (m : Fin 4) (tag : Byte) (s : State) : Host.Outcome State Fault Refusal := s.mboxRow m tag 7 1 0

/-- What passes on the bus in a transfer that ends with OK, `data` being the bytes read (R407). -/
def I2c.seq (x : I2c) (data : List Byte) : List I2cSym :=
  let write := if 0 < x.w ∨ x.r = 0 then .start :: .addr x.addr false :: x.out.map .sent else []
  let read := if 0 < x.r then
      .start :: .addr x.addr true :: (List.range x.r).map fun i => .got (data.getD i 0) (i + 1 == x.r)
    else []
  write ++ read ++ [.stop]

/-- What passed on the bus in a transfer with this result (R407, Table LK-6): a NACK ends it after the byte at `index`; a stretch too long
ends it at a place that only the part knows, `k` symbols in; a stuck bus sees the 9 clocks and a STOP. Where the transfer stops at an address
that is not acknowledged, it has sent that address alone, `read` telling which. -/
def I2c.passed (x : I2c) (result index k : Nat) (read : Bool) (data : List Byte) : List I2cSym :=
  let full := x.seq data
  match result with
  | 0 => full
  | 1 => if read && 0 < x.r then full.take (full.length - 1 - x.r) ++ [.stop] else full.take 2 ++ [.stop]
  | 2 => full.take (2 + index + 1) ++ [.stop]
  | 3 => full.take (k % full.length) ++ [.stop]
  | _ => [.clear, .stop]

/-- The bus as a transfer leaves it. Whether SDA was low before the START, where a stretch fell and which address was not acknowledged are
free (log entry 234). -/
def State.i2cSeen (s : State) (x : I2c) (result index : Nat) (data : List Byte) : State :=
  let (low, s) := s.drawFree 1
  let (read, s) := s.drawFree 1
  let (k, s) := s.drawFree 13
  let bus := x.passed result index k (read == 1) data
  s.lk fun l => { l with i2cBus := if low = 1 ∧ result < 4 then .clear :: .stop :: bus else bus }

/-- I2C_TRANSFER_COMPLETE (R407): the transfer ends with a result of Table LK-6, the index of a byte that was NACKed, and the bytes
read. -/
def execI2cTransferComplete (result : Fin 5) (index : BitVec 16) (data : List Byte) (s : State) :
    Host.Outcome State Fault Refusal :=
  .next <|
    match s.lnk.i2c with
    | none => s
    | some x =>
      let s := s.i2cSeen x result index.toNat data
      let s := ((s.mboxPut (data.take x.r)).wr F.LNK_I2C_STATUS_BUSY 0).lk fun l => { l with i2c := none }
      let s := if result.val = 4 then s.wr F.LNK_I2C_STATUS_STUCK 1 else s
      let s := s.setReg R.SYS_MBOX_DATA (BitVec.ofNat 32 (result.val + index.toNat * 256))
      match s.sys.cmd with
      | some c => if c.group = 5 then s.answer 2 0 else s
      | none => s

/-! ### Ownership (R404) -/

/-- Master `m` writes LNK_MBOX_OWNER: a non-zero value claims, 0 releases. -/
def State.mboxClaim (s : State) (m v : Nat) : State :=
  let o := s.rd F.LNK_MBOX_OWNER_OWNER
  if v % 4 ≠ 0 then (if m = 0 ∨ (o ≠ 0 ∧ o ≠ m) then s.cfgReject else s.mboxOwner m)
  else if o = m then s.mboxOwner 0 else s

/-- MAILBOX_CLAIM (R404). -/
def execMailboxClaim (m : Fin 4) (v : Word) (s : State) : Host.Outcome State Fault Refusal :=
  .next (s.access false fun s => s.mboxClaim m v.toNat)

/-- MAILBOX_OWNERSHIP_LAPSE (R404): 10 s have passed since the owner's last access. -/
def execMailboxOwnershipLapse (s : State) : Host.Outcome State Fault Refusal := .next (s.mboxOwner 0)

/-- Bytes of buffer data that a command returns (Table LK-4). -/
def bufferData (group : Nat) (arg : Word) : Nat :=
  match group with
  | 3 => 4096
  | 5 => Word.field arg 27 16
  | 6 => 4096
  | _ => 0

/-- The sender of the datagram that the firmware takes from port `e`: the last one received there; free where none was. -/
def State.peerOf (s : State) (e : Nat) : List Byte × State :=
  let peer := if e = 0 then s.lnk.peer0 else s.lnk.peer1
  if peer = [] then s.freeBytes 12 else (peer, s)

/-- MAILBOX_DATAGRAM (R405) at instant `t` (ps): the firmware claims, places ARG and buffer data, and writes CMD. -/
def execMailboxDatagram (e : Fin 2) (cmd arg : Word) (buf : List Byte) (t : Nat) (s : State) : Host.Outcome State Fault Refusal :=
  .next <|
    if !s.on (F.LNK_ETH_STATUS_UP e) || s.rd (F.LNK_ETH_MBOX_MBOX_PORT e) == 0 || s.tilHeld || s.romRuns then s
    else
      let tag := Word.field cmd 23 16
      let group := Word.field cmd 15 8
      let code := Word.field cmd 7 0
      let o := s.rd F.LNK_MBOX_OWNER_OWNER
      if o ≠ 0 ∧ o ≠ 3 then
        let (peer, s) := s.peerOf e
        s.udpSend e peer (BitVec.ofNat 32 (tag * 2 ^ 16 + 4 * 2 ^ 12 + s.mode * 2 ^ 8)) (s.reg R.SYS_MBOX_DATA) []
      else
        let (peer, s) := s.peerOf e
        let s := ((s.mboxOwner 3).setReg R.SYS_MBOX_ARG arg).mboxPut (buf.take 4096)
        if s.mboxStarts group code then
          (s.lk fun l => { l with udpWait := some ⟨e, peer, bufferData group arg⟩ }).mboxWrite 3 tag group code t
        else (s.mboxWrite 3 tag group code t).udpSend e peer (s.reg R.SYS_MBOX_RESP) (s.reg R.SYS_MBOX_DATA) []

end Sys2Proof.Machine
end

