-- ==== Sys2Proof/Machine/Ports.lean ====
section
/-! DEFINITION. The memory controller's arbitration (R361 to R364, R369), and what follows when it serves requests again: the end of a
self-refresh exit, of an INIT, of a sweep, and of a stop of its clock (R26, R371, R375, R380). -/

namespace Sys2Proof.Machine

/-! ### Arbitration (R361) -/

/-- The request finds its row open (R361). -/
def State.rowHit (s : State) (p : Nat) (r : Req) : Bool :=
  match s.reqBank p r with
  | some (ch, bank, rank, row) => Tab.get (fun _ => 0) s.mem.openRow (bankKey ch rank bank) == row + 1
  | none => false

/-- Request `i` of port `p` goes first within its port (R361, R364): it is the oldest for its channel, or a row hit that passes at most
4 older ones, all of other 64-byte units. -/
def State.firstOfPort (s : State) (p i : Nat) (r : Req) : Bool :=
  let older := ((s.queued p).take i).filter fun o => s.reqChannel p o == s.reqChannel p r
  older.isEmpty || (s.rowHit p r && decide (older.length ≤ 4) && older.all fun o => decide (o.addr / 64 ≠ r.addr / 64))

/-- Request `i` of port `p` may be served in this command slot (R361). -/
def State.mayServe (s : State) (p i : Nat) : Bool :=
  match (s.port p)[i]? with
  | none => false
  | some r =>
    decide (i < 32) && s.firstOfPort p i r && match s.reqChannel p r with
      | some ch => s.turnOf p ch (s.reqClass p r)
      | none => true

/-! ### Refresh (R369) -/

/-- A panic request waits for bank `bank` of channel `ch`, or with PB = 0 for any of its banks (R369). -/
def State.panicNeeds (s : State) (ch bank : Nat) : Bool :=
  (List.range 8).any fun p => s.on (F.MEM_PORT_STATUS_PANIC p) && (s.queued p).any fun r =>
    match s.reqBank p r with
    | some (c, b, _, _) => c == ch && (b == bank || !s.on F.MEM_REF_CFG_PB)
    | none => false

/-- The key of the bank, or with PB = 0 of the channel, that a refresh is for. -/
def State.refKey (s : State) (ch bank : Nat) : Nat := if s.on F.MEM_REF_CFG_PB then 16 * ch + bank else 16 * ch

/-- Refreshes owed to a bank or channel. -/
def State.owed (s : State) (ch bank : Nat) : Nat := Tab.get (fun _ => 0) s.mem.postponed (s.refKey ch bank)

/-- `n` refreshes of the bank or channel are issued: nothing is owed, and the rows are closed. -/
def State.refreshed (s : State) (ch bank n : Nat) : State :=
  let shut (e : Nat × Nat) : Bool := e.1 / 32 == ch && (e.1 % 16 == bank || !s.on F.MEM_REF_CFG_PB)
  let s := s.count 7 5 ch n
  { s with mem := { s.mem with
    postponed := Tab.set (fun _ => 0) s.mem.postponed (s.refKey ch bank) 0
    openRow := s.mem.openRow.filter fun e => !shut e } }

/-- REFRESH (R369): a refresh of a bank (PB = 1) or channel falls due. It is postponed while a panic request waits for what it needs
and `panicWaits` says that the request takes this slot; after POSTPONE postponements in a row it is forced. -/
def execRefresh (ch : Fin 4) (bank : Fin 16) (panicWaits : Bool) (s : State) : Host.Outcome State Fault Refusal :=
  .next <|
    if s.memState ≠ 2 then s
    else
      let run := s.owed ch bank
      let waits := panicWaits && s.panicNeeds ch bank
      if waits && decide (run < s.rd F.MEM_REF_CFG_POSTPONE) then
        { s with mem := { s.mem with postponed := Tab.set (fun _ => 0) s.mem.postponed (s.refKey ch bank) (run + 1) } }
      else (if waits then s.bump F.MEM_CNT_REF_FORCED_COUNT 1 else s).refreshed ch bank (run + 1)

/-- The refreshes owed to the bank of a request that is not of a port in panic go first (R361, R369). -/
def State.catchUp (s : State) (p : Nat) (r : Req) : State :=
  match s.reqBank p r with
  | some (ch, bank, _, _) =>
    if 2 < s.reqClass p r ∧ 0 < s.owed ch bank ∧ !s.panicNeeds ch bank then s.refreshed ch bank (s.owed ch bank) else s
  | none => s

/-! ### Command slots, urgency, panic (R361 to R364) -/

/-- What the firmware waited to do with DRAM. -/
def State.runJob (s : State) (j : MemJob) : State :=
  match j with
  | .cmd c t => (s.sy fun x => { x with cmd := none }).mboxRun c t
  | .data q ofs payload => s.hdlRx true q (State.hdlData q ofs payload)
  | .fin q t => s.hdlRx true q (State.hdlEnd q t)

/-- The firmware's waiting work with DRAM goes on, once its turn has come (R361). -/
def State.jobsRun (s : State) : State :=
  if s.boot.memJobs.isEmpty && s.boot.tx.isNone || s.mgmtWaits s.stageBase then s
  else (s.boot.memJobs.foldl State.runJob (s.bo fun b => { b with memJobs := [] })).hdlPump 4

/-- MEMORY_REQUEST_SERVED (R361, R364, R374 to R376): request `idx` of port `p` is served; for port MGMT with an empty queue, the
firmware's waiting access. A controller that is OFF answers too: every address is a hole then (R359, R392). `link` is what the link check of a read
finds: 1 corrected, 2 good at the reissue, 3 failed again; `found` is what the inline check finds. -/
def execMemoryRequestServed (p : Fin 8) (idx : Nat) (link : Fin 4) (found : Fin 3) (s : State) :
    Host.Outcome State Fault Refusal :=
  .next <|
    if !s.memReady && s.memState != 0 then (if (s.port p).isEmpty then s else s.memWake)
    else if p = 4 ∧ (s.port p).isEmpty then s.jobsRun
    else if !s.mayServe p idx then s
    else match (s.port p)[idx]? with
      | none => s
      | some r =>
        if !r.write && s.readsFull p r.addr then s else
        let s := s.catchUp p r
        let s := match s.place p r.addr with
          | .loc a =>
            let s := s.upset a found
            if r.write then s else { s with mem := { s.mem with linkNext := link.val :: s.mem.linkNext } }
          | _ => s
        ((s.setPort p ((s.port p).eraseIdx idx)).serve p r).jobsRun

/-- REQUEST_URGENT (R362): request `idx` of port `p` has waited LAT_TGT. -/
def execRequestUrgent (p : Fin 8) (idx : Nat) (s : State) : Host.Outcome State Fault Refusal :=
  .next <|
    if idx < (s.port p).length then s.setPort p ((s.port p).modify idx fun r => { r with urgent := true })
    else if idx < (s.queued p).length then
      ({ s with mem := { s.mem with late := Tab.set (fun _ => 0) s.mem.late p (max (idx + 1) (Tab.get (fun _ => 0) s.mem.late p)) } }
        : State).wr (F.MEM_PORT_STATUS_URGENT p) 1
    else s

/-- The oldest request of port `p` is urgent: it has waited LAT_TGT (R362). -/
def State.oldestUrgent (s : State) (p : Nat) : Bool := ((s.queued p).head?.map Req.urgent).getD false

/-- PANIC_ENTRY (R363) at instant `t`: for 8 CK cycles the queue has held more than PANIC_HI requests, or its oldest has been older than
4 × LAT_TGT and so is urgent. The ninth entry within 60 s latches the panic. -/
def execPanicEntry (p : Fin 8) (t : Nat) (s : State) : Host.Outcome State Fault Refusal :=
  .next <|
    if !s.on (F.MEM_PORT_CFG_PANIC_EN p) || s.on (F.MEM_PORT_STATUS_PANIC p)
      || !(decide (s.rd (F.MEM_PORT_PANIC_PANIC_HI p) < (s.queued p).length) || s.oldestUrgent p) then s
    else
      let h := recent t (Tab.get (fun _ => []) s.mem.panicHist p ++ [t])
      let s := { s.wr (F.MEM_PORT_STATUS_PANIC p) 1 with
        mem := { s.mem with panicHist := Tab.set (fun _ => []) s.mem.panicHist p h } }
      if 8 < h.length ∧ !s.on (F.MEM_PORT_STATUS_FLAP p) then (s.wr (F.MEM_PORT_STATUS_FLAP p) 1).raise 493 else s

/-- PANIC_EXIT (R363): for 8 CK cycles the queue has held fewer than PANIC_LO requests, its oldest younger than LAT_TGT; not while the
flapping latch holds the port in panic. -/
def execPanicExit (p : Fin 8) (s : State) : Host.Outcome State Fault Refusal :=
  .next (if s.on (F.MEM_PORT_STATUS_FLAP p) || decide (s.rd (F.MEM_PORT_PANIC_PANIC_LO p) ≤ (s.queued p).length) || s.oldestUrgent p
    then s else s.wr (F.MEM_PORT_STATUS_PANIC p) 0)

/-! ### The controller serves requests again (R26, R371, R375, R380) -/

/-- The controller may serve requests: what waits for it starts, and where it goes on serving the firmware's work follows. -/
def State.memResume (s : State) : State :=
  let s := s.memActive
  if !s.memBlocked then s.jobsRun
  else if s.boot.memJobs.isEmpty then s
  else s.memWake

/-- MEMORY_ENABLE (R373). -/
def execMemoryEnable (s : State) : Host.Outcome State Fault Refusal :=
  .next (s.access s.sys.dramStopped fun s => s.memEnable.memResume)

/-- SELF_REFRESH_EXIT_COMPLETE (R371): eight catch-up refreshes on each channel, then waiting requests proceed. -/
def execSelfRefreshExitComplete (s : State) : Host.Outcome State Fault Refusal :=
  .next (if s.memState = 5 then ((s.forN 4 fun k s => s.count 7 5 k 8).wr F.MEM_STATUS_STATE 2).memResume else s)

/-- INIT_COMPLETE (R375): zeros with valid checks. -/
def execInitComplete (s : State) : Host.Outcome State Fault Refusal :=
  .next (if s.on F.MEM_STATUS_INIT_BUSY then
    ({ (s.wr F.MEM_STATUS_INIT_BUSY 0).wr F.MEM_STATUS_STATE 2 with
      mem := { s.mem with dram := [], cond := [], lost := [] } } : State).memResume
    else s)

/-- What a sweep leaves (R380): the pass mask of each step, in which bit b says that DQ bit b had no mismatch, and the delay of its last
step. The burst at COL holds the USER word repeated where that was written without a mismatch, with the trained write delay or at the last
step. What it holds otherwise, and whether the row's other bursts were written, is not stated: free values (log entry 229). -/
def State.swept (s : State) (masks : List (BitVec 16)) : State :=
  let steps := s.rd F.MEM_TRN_CFG_STEPS
  let s := s.forN (steps + 1) fun t s => s.wr (F.MEM_TRN_MASK_PASS t) (masks.getD t 0).toNat
  let s : State := { s with mem := { s.mem with swept := s.sweepDelay steps } }
  let s := s.forN 32 fun col s => if s.sweepAddr col + 64 ≤ s.localSize then s.lose (s.sweepAddr col) (s.sweepAddr col + 64) else s
  let a := s.sweepAddr (s.rd F.MEM_TRN_ADDR_COL)
  let sure := s.rd F.MEM_TRN_CFG_PAT = 2 ∧ (s.rd F.MEM_TRN_CFG_DIR = 0 ∨ masks.getD steps 0 = 0xFFFF)
  if sure ∧ a + 64 ≤ s.localSize then
    let word := bytesOf 4 (s.reg R.MEM_TRN_USER_LO).toNat ++ bytesOf 4 (s.reg R.MEM_TRN_USER_HI).toNat
    { s with mem := { s.mem with
      dram := Mem.store 0 s.mem.dram a (List.replicate 8 word).flatten
      cond := (List.range 8).foldl (fun c j => Tab.set (fun _ => .ok) c (a / 8 + j) .ok) s.mem.cond
      lost := cutLost a (a + 64) s.mem.lost } }
  else s

/-- TRAINING_SWEEP_COMPLETE (R380). -/
def execTrainingSweepComplete (masks : List (BitVec 16)) (s : State) : Host.Outcome State Fault Refusal :=
  .next <|
    if !s.on F.MEM_TRN_CTRL_BUSY then s
    else (((s.swept masks).wr F.MEM_TRN_CTRL_BUSY 0).raise 494).memResume


/-- MAIN_PLL_RELOCK (R261): the CLOCK condition ends. -/
def execMainPllRelock (s : State) : Host.Outcome State Fault Refusal :=
  .next (if s.sys.relock || s.mode == mRESET then s else ((s.wr F.SYS_CLK_STATUS_MAIN_LOCK 1).dramRuns.memResume).hedgeShow)

/-- PLL_RELOCK_COMPLETE (R26): the cross-check stays suspended for two speed frames. -/
def execPllRelockComplete (s : State) : Host.Outcome State Fault Refusal :=
  .next <|
    if !s.sys.relock then s
    else
      let s := ((s.wr F.SYS_CLK_STATUS_MAIN_LOCK 1).wr F.SYS_CLK_STATUS_TIL_LOCK 1).wr F.SYS_CLK_STATUS_MGMT_LOCK 1
      ((s.sy fun x => { x with relock := false }).hd fun h => { h with suspended := 2 }).dramRuns.memResume

/-- RELOCK_TIMEOUT (R26): the PLLs named failed to relock within 200 µs: a lock loss. When the DRAM domain runs again after a failure
of the main PLL is not stated: it stays stopped until MAIN_PLL_RELOCK (DESIGN CHOICE, log entry 177). -/
def execRelockTimeout (main tiller : Bool) (s : State) : Host.Outcome State Fault Refusal :=
  .next <|
    if !s.sys.relock || !(main || tiller) then s
    else
      let s := (s.put F.SYS_CLK_STATUS_MAIN_LOCK (!main)).wr F.SYS_CLK_STATUS_MGMT_LOCK 1
      let s := (s.wr F.SYS_CLK_STATUS_TIL_LOCK 1).sy fun x => { x with relock := false }
      let s := s.hd fun h => { h with suspended := 2 }
      let s := if main then s.mainLost else s.dramRuns.memResume
      if tiller then s.tilLost else s

end Sys2Proof.Machine
end

