-- ==== Sys2Proof/Machine/RegCheck.lean ====
section
/-! DEFINITION. Register writes, first part: access codes (R9, R11), reserved encodings (R12), and the conditions under which a
chapter ignores a write with SYS_CFG_REJECT. -/

namespace Sys2Proof.Machine

/-- A field of a word. -/
def Fld.of (f : Fld) (w : Word) : Nat := Word.field w f.hi f.lo

/-- A one-bit field of a word. -/
def Fld.has (f : Fld) (w : Word) : Bool := f.of w != 0

/-- A two's complement field of a word. -/
def Fld.ofS (f : Fld) (w : Word) : Int := signed (f.hi + 1 - f.lo) (f.of w)

/-! ### Access codes (Table SC-7) -/

/-- What a field holds after a host write of `w` over `old` (R9): actions (WO) are performed elsewhere and store nothing. -/
def FieldSpec.written (f : FieldSpec) (locked : Bool) (old w : Word) : Nat :=
  let o := Word.field old f.hi f.lo
  let n := Word.field w f.hi f.lo
  match f.acc with
  | .rw => n
  | .rws => n
  | .rwl => if locked then o else n
  | .w1c => (BitVec.ofNat 32 o &&& ~~~(BitVec.ofNat 32 n)).toNat
  | .ro => o
  | .rc => o
  | .wo => o

/-- The word a register holds after a host write. -/
def writtenWord (fs : List FieldSpec) (locked : Bool) (old w : Word) : Word :=
  fs.foldl (fun acc f => Word.setField acc f.hi f.lo (f.written locked old w)) old

/-- A write after the seal lock would have changed an RWL field (Table SC-7). -/
def lockedChange (fs : List FieldSpec) (old w : Word) : Bool :=
  fs.any fun f => f.acc == .rwl && Word.field old f.hi f.lo != Word.field w f.hi f.lo

/-- The access code lets a write set the field. -/
def Acc.writable : Acc → Bool
  | .rw => true
  | .rws => true
  | .rwl => true
  | .wo => true
  | .ro => false
  | .w1c => false
  | .rc => false

/-- The write places a reserved encoding in a field that a write sets (R12). -/
def badEncoding (fs : List FieldSpec) (w : Word) : Bool :=
  fs.any fun f => f.acc.writable && f.bad.any fun b =>
    decide (b.1 ≤ Word.field w f.hi f.lo) && decide (Word.field w f.hi f.lo ≤ b.2)

/-- The host's write of `w` to the register `r` at `a`, by the access codes of its fields. -/
def State.store (s : State) (r : RegSpec) (a : Nat) (w : Word) : State :=
  let old := s.reg a
  let locked := s.on F.HDG_STATUS_SEAL_LOCK
  (s.setReg a (writtenWord r.fields locked old w)).raiseIf (locked && lockedChange r.fields old w) 3

/-- `w` with the named fields as they stand: another operation writes those. -/
def State.keeping (s : State) (fs : List Fld) (w : Word) : Word := fs.foldl (fun w f => Word.setField w f.hi f.lo (s.rd f)) w

/-! ### Stopped clocks (R26, R27, R129) -/

/-- The block that holds register address `a` has its clock stopped, or is held. -/
def State.stoppedAt (s : State) (a : Nat) : Bool :=
  if 0x100000 ≤ a ∧ a < 0x400000 then s.mainStopped
  else if (0x400000 ≤ a ∧ a < 0x600000) ∨ (0x2000000 ≤ a ∧ a < 0x3800000) then s.tilStopped
  else if 0x600000 ≤ a ∧ a < 0x700000 then s.mainStopped
  else if 0x800000 ≤ a ∧ a < 0xA00000 then s.mainStopped
  else if 0xB00000 ≤ a ∧ a < 0xC00000 then s.sys.dramStopped
  else if 0xE02000 ≤ a ∧ a < 0xE04000 ∧ a % 8 = 0 then s.groupStopped (counterGroup ((a - 0xE02000) / 8))
  else false

/-! ### Codes that the chapters reserve beside the field tables: `true` rejects the write under R12 -/

/-- DET and TDC: the order of the bias limits, the monitor's hysteresis (chapter 02), zone codes 288 to 510 (R69). -/
def barDET (a : Nat) (w : Word) : Bool :=
  if a = R.DET_BIAS_LIM then decide (F.DET_BIAS_LIM_VMAX.of w < F.DET_BIAS_LIM_VMIN.of w)
  else if a = R.DET_BIAS_MON_CFG then decide (F.DET_BIAS_MON_CFG_TOL.of w ≤ F.DET_BIAS_MON_CFG_HYST.of w)
  else if 0x201000 ≤ a ∧ a < 0x202200 then
    let z := (F.TDC_CH_CFG_ZONE 0).of w
    decide (288 ≤ z) && decide (z ≤ 510)
  else false

/-- HIS: CENTRE not less than 32 × LEN (Table HF-8). -/
def barHIS (a : Nat) (w : Word) : Bool :=
  a == R.HIS_KERNEL_CFG && decide (32 * F.HIS_KERNEL_CFG_LEN.of w ≤ F.HIS_KERNEL_CFG_CENTRE.of w)

/-- TIL: more than one command bit (R126, R127), must-be-0 bits of the vectors and the breakpoint (Table TA-10). -/
def barTIL (a : Nat) (w : Word) : Bool :=
  if a = R.TIL_GROUP_CTRL then w.toNat % 4 == 3
  else if 0x4C0000 ≤ a then false
  else
    let o := a % 0x1000
    if o = 0x000 then decide (2 ≤ ((List.range 4).filter fun i => w.toNat.testBit i).length)
    else if o = 0x010 ∨ o = 0x014 then decide (0x8000 ≤ w.toNat) || w.toNat % 4 != 0
    else if o = 0x030 then Word.field w 30 15 != 0 || w.toNat % 4 != 0
    else false

/-- EMI: spacings in use (R205), the order of the laser-board thresholds and of the sense levels (Table EM-6). -/
def State.barEMI (s : State) (a i : Nat) (w : Word) : Bool :=
  let dir := s.on F.EMI_LB_CFG_DIR
  if R.EMI_PCODE 0 ≤ a ∧ a ≤ R.EMI_PCODE 7 then
    let n := (F.EMI_PCODE_COUNT i).of w
    (decide (1 ≤ n) && (F.EMI_PCODE_SP1 i).of w == 0) || (decide (2 ≤ n) && (F.EMI_PCODE_SP2 i).of w == 0)
      || (decide (3 ≤ n) && (F.EMI_PCODE_SP3 i).of w == 0)
  else if a = R.EMI_LB_WARM then
    let n := F.EMI_LB_WARM_N.of w
    let h := s.rd F.EMI_LB_HOT_N
    if dir then decide (h ≤ n) else decide (n ≤ h)
  else if a = R.EMI_LB_HOT then
    let n := s.rd F.EMI_LB_WARM_N
    let h := F.EMI_LB_HOT_N.of w
    if dir then decide (h ≤ n) else decide (n ≤ h)
  else if a = R.EMI_TEST_CFG then decide (F.EMI_TEST_CFG_SENSE_HI.of w ≤ F.EMI_TEST_CFG_SENSE_LO.of w)
  else false

/-- A node selection word of the trace with a code of 0x13 or more (Table HL-7). -/
def badNodes (w : Word) : Bool := (List.range 4).any fun k => decide (0x13 ≤ Word.field w (8 * k + 5) (8 * k))

/-- HLM: output bounds (R231), tilt limits (R244), trace nodes; HDG: the host speed floor (Table HG-6). -/
def State.barHLM (s : State) (a i : Nat) (w : Word) : Bool :=
  if a = R.HLM_TILT_LIM then decide (F.HLM_TILT_LIM_MAX.ofS w < F.HLM_TILT_LIM_MIN.ofS w)
  else if a = R.HLM_TRACE_SEL0 ∨ a = R.HLM_TRACE_SEL1 then badNodes w
  else if a = R.HLM_LAW_OUT_MAX i ∧ i < 4 then decide (signed 32 w.toNat < s.rdS (F.HLM_LAW_OUT_MIN_MIN i))
  else if a = R.HLM_LAW_OUT_MIN i ∧ i < 4 then decide (s.rdS (F.HLM_LAW_OUT_MAX_MAX i) < signed 32 w.toNat)
  else if a = R.HDG_HOST_SPEED then decide (F.HDG_HOST_SPEED_MAX_H.of w < F.HDG_HOST_SPEED_MIN_H.of w)
  else false

/-- MER: Table MS-5. -/
def State.barMER (s : State) (a : Nat) (w : Word) : Bool :=
  if a = R.MER_EPOCH_PHASE then decide (s.rd F.MER_EPOCH_CFG_PERIOD * 1000 ≤ w.toNat)
  else if a = R.MER_CAP_SRC then
    F.MER_CAP_SRC_LANES.of w == 0 && (F.MER_CAP_SRC_KIND.of w == 1 || F.MER_CAP_SRC_KIND.of w == 2)
  else if a = R.MER_CAP_LEN then decide (4096 < F.MER_CAP_LEN_PRE.of w + F.MER_CAP_LEN_POST.of w)
  else if a = R.MER_CAP_RPTR then w.toNat % 64 != 0 || decide (s.capRing ≤ w.toNat)
  else false

/-- THM: the order of the thresholds and the gaps above HYST (R353); a locked TRIP stays as it stands. -/
def State.barTHM (s : State) (a : Nat) (w : Word) : Bool :=
  if a = R.THM_THR then
    let trip := if s.on F.HDG_STATUS_SEAL_LOCK then s.rd F.THM_THR_TRIP else F.THM_THR_TRIP.of w
    let h := s.rd F.THM_HYST_HYST
    let ok (x y : Nat) : Bool := decide (x + h < y)
    !(ok (F.THM_THR_WARM.of w) (F.THM_THR_HOT.of w) && ok (F.THM_THR_HOT.of w) (F.THM_THR_CRITICAL.of w)
      && ok (F.THM_THR_CRITICAL.of w) trip)
  else false

/-- A base of a memory window has bit 20 set and is aligned to SIZE (R358). -/
def State.barWindow (s : State) (a i : Nat) (w : Word) : Bool :=
  let b := (F.MEM_WIN_BASE_BASE i).of w
  a == R.MEM_WIN_BASE i && (!b.testBit 20 || b * 2 ^ 20 % 2 ^ s.rd (F.MEM_WIN_CFG_SIZE i) != 0)

/-- MEM: Table MC-7, R356, R358, R363, R367, R372, R380. -/
def State.barMEM (s : State) (a i : Nat) (w : Word) : Bool :=
  if a = R.MEM_CFG then
    (F.MEM_CFG_DENSITY.of w == 4 && !F.MEM_CFG_BYTE_MODE.has w)
      || (!F.MEM_CFG_LINK_ECC.has w && F.MEM_CFG_RATE.of w != 0) || F.MEM_CFG_ORDER.of w == 3 || decide (3 < F.MEM_CFG_RATE.of w)
  else if 0xB00100 ≤ a ∧ a < 0xB00180 then s.barWindow a i w
  else if 0xB00200 ≤ a ∧ a < 0xB00280 ∧ a % 16 = 4 then
    (F.MEM_PORT_PANIC_PANIC_LO i).of w == 0 || decide ((F.MEM_PORT_PANIC_PANIC_HI i).of w ≤ (F.MEM_PORT_PANIC_PANIC_LO i).of w)
  else if 0xB00310 ≤ a ∧ a < 0xB00320 then (F.MEM_PASR_SEG_MASK i).of w != 0 && s.rd F.MEM_CFG_ORDER != 2
  else if a = R.MEM_PB_RPTR then w.toNat % 32 != 0 || decide (s.pbSize ≤ w.toNat)
  else if a = R.MEM_MR_CMD then F.MEM_MR_CMD_RANK.has w && !s.on F.MEM_CFG_RANKS
  else if a = R.MEM_TRN_CFG then decide (127 < F.MEM_TRN_CFG_START.of w + F.MEM_TRN_CFG_STEPS.of w)
  else false

/-- LNK: Table LK-1. -/
def barLNK (a : Nat) (w : Word) : Bool := a == R.LNK_CFG && decide (5 < F.LNK_CFG_LANE_MAP.of w)

/-- OBS: Table EV-7. -/
def State.barOBS (s : State) (a : Nat) (w : Word) : Bool :=
  if a = R.OBS_SMP_CFG then decide (F.OBS_SMP_CFG_INTERVAL.of w ≤ F.OBS_SMP_CFG_JITTER.of w)
  else if a = R.OBS_TRC_RPTR then (F.OBS_TRC_RPTR_OFS.of w) % 16 != 0
  else if a = R.OBS_TRC_RING_RPTR then w.toNat % 16 != 0 || decide (s.trcSize ≤ w.toNat)
  else false

/-- A write of `w` at `a`, word `i` of its array, places a code that its chapter reserves (R12). -/
def State.barred (s : State) (a i : Nat) (w : Word) : Bool :=
  if a < 0x100000 then false
  else if a < 0x300000 then barDET a w
  else if a < 0x400000 then barHIS a w
  else if a < 0x600000 then barTIL a w
  else if a < 0x700000 then s.barEMI a i w
  else if a < 0x800000 then s.barHLM a i w
  else if a < 0x900000 then s.barMER a w
  else if a < 0xA80000 then false
  else if a < 0xB00000 then s.barTHM a w
  else if a < 0xC00000 then s.barMEM a i w
  else if a < 0xD00000 then barLNK a w
  else if a < 0xE00000 then false
  else s.barOBS a w

/-! ### Writes that a rule other than R12 ignores with SYS_CFG_REJECT -/

/-- The capture settings that a write may not change while EN = 1 or during the shutdown (R296). -/
def capSettings : List Nat :=
  [R.MER_CAP_SRC, R.MER_CAP_LEN, R.MER_CAP_AVG, R.MER_CAP_BASE_LO, R.MER_CAP_BASE_HI, R.MER_CAP_SIZE]

/-- SYS: TIME_SRC while point cycles run (chapter 06); ARG by a master that does not own the mailbox (R404). -/
def State.ignoredSYS (s : State) (m a : Nat) (w : Word) : Bool :=
  if a = R.SYS_PB_CFG then s.running && F.SYS_PB_CFG_TIME_SRC.of w != s.rd F.SYS_PB_CFG_TIME_SRC
  else if a = R.SYS_MBOX_ARG then !s.owns m
  else false

/-- MEM: MEM_CFG while the controller is enabled (R356), an enabled window, which can only be disabled (R358), the staging ring while point
cycles run (R368), MEM_MR_CMD while BUSY (R379). -/
def State.ignoredMEM (s : State) (a i : Nat) (w : Word) : Bool :=
  if a = R.MEM_CFG then s.on F.MEM_CTRL_EN
  else if a = R.MEM_WIN_CFG i ∧ i < 8 then
    s.on (F.MEM_WIN_CFG_EN i) && ((F.MEM_WIN_CFG_EN i).has w || (F.MEM_WIN_CFG_SIZE i).of w != s.rd (F.MEM_WIN_CFG_SIZE i))
  else if a = R.MEM_WIN_BASE i ∧ i < 8 then s.on (F.MEM_WIN_CFG_EN i)
  else if a = R.MEM_PB_BASE_LO ∨ a = R.MEM_PB_BASE_HI ∨ a = R.MEM_PB_SIZE ∨ a = R.MEM_PB_CFG then s.running
  else if a = R.MEM_MR_CMD then s.on F.MEM_MR_CMD_BUSY
  else false

/-- LNK: LNK_CFG while a user of the lanes is enabled (R387), LNK_PKT_CFG while point cycles run (R395), the buffer for a master that does not
own the mailbox (R404). -/
def State.ignoredLNK (s : State) (m a : Nat) : Bool :=
  if a = R.LNK_CFG then s.rd ⟨R.LNK_CTRL, 2, 0⟩ != 0
  else if a = R.LNK_PKT_CFG then s.running
  else if 0xC04000 ≤ a ∧ a < 0xC05000 then !s.owns m
  else false

/-- OBS: the trace ring while a stream routes to it (R448). -/
def State.ignoredOBS (s : State) (a : Nat) : Bool :=
  [R.OBS_TRC_BASE_LO, R.OBS_TRC_BASE_HI, R.OBS_TRC_SIZE, R.OBS_TRC_CFG].contains a && s.ringRouted

/-- A write by master `m` of `w` at `a`, word `i` of its array, is ignored with SYS_CFG_REJECT: the furrow view (R96), the capture settings
(R296), those of an armed sextant set (R302), the staging base during a session (Table BU-10), and the blocks above. -/
def State.ignored (s : State) (m a i : Nat) (w : Word) : Bool :=
  if a < 0x10000 then s.ignoredSYS m a w
  else if 0x380000 ≤ a ∧ a < 0x400000 then true
  else if 0x800000 ≤ a ∧ a < 0x880000 then capSettings.contains a && (s.on F.MER_CAP_CTRL_EN || s.cap.closing)
  else if 0x880000 ≤ a ∧ a < 0x900000 then [R.SXT_CFG, R.SXT_N, R.SXT_TIMEOUT].contains a && s.on F.SXT_STATUS_ARMED
  else if 0xB00000 ≤ a ∧ a < 0xC00000 then s.ignoredMEM a i w
  else if 0xC00000 ≤ a ∧ a < 0xD00000 then s.ignoredLNK m a
  else if 0xD00000 ≤ a ∧ a < 0xE00000 then
    [R.BOOT_STAGE_BASE_LO, R.BOOT_STAGE_BASE_HI].contains a && s.on F.BOOT_STATUS_SESSION
  else if 0xE00000 ≤ a then s.ignoredOBS a
  else false

/-- A write that reaches its block places a code that the block's own operation rejects under R12: a reserved event (R438), TIL_PC, a
TARGET above the limit (R244), excitation modes (R315), pulses and swaps (Table AA-4), THM_SNS_CTRL (Table CT-7), a counter's event
(R442). -/
def State.reservedIn (s : State) (a i : Nat) (w : Word) : Bool :=
  if a = R.EVT_FORCE then F.EVT_FORCE_GO.has w && reservedEvent (F.EVT_FORCE_EVENT.of w)
  else if 0x400000 ≤ a ∧ a < 0x4C0000 ∧ a = R.TIL_PC i then w.toNat % 4 != 0 || decide (0x8000 ≤ w.toNat)
  else if a = R.HLM_SPEED_REF then decide (s.rd F.HLM_SP_LIM_MAX < w.toNat)
  else if 0x900400 ≤ a ∧ a < 0x900480 then
    match a % 16 with
    | 0 => s.feCfgBad i w
    | 4 => Word.field w 31 16 != 0 && (decide (Word.field w 31 16 ≤ Word.field w 15 0) || Word.field w 15 0 == 0)
    | 8 => Word.field w 7 0 == 0
    | _ => false
  else if a = R.THM_SNS_CTRL then
    decide (24 ≤ F.THM_SNS_CTRL_SENSOR.of w) || (F.THM_SNS_CTRL_RETIRE.has w && F.THM_SNS_CTRL_READMIT.has w)
  else if 0xE01000 ≤ a ∧ a < 0xE02000 then !counterWordOk i w
  else false

end Sys2Proof.Machine
end

