-- ==== Sys2Proof/Machine/RegWrite.lean ====
section
/-! DEFINITION. Register writes, second part: what a write that is not rejected does in each block, and REGISTER_WRITE (R9 to R13,
R24, R28, R29, R471). Settings that are sampled at a boundary take effect at the write itself while no point cycles run. -/

namespace Sys2Proof.Machine

/-- A write of a register with a field that another operation sets: the rest by the access codes. -/
def State.storeBut (s : State) (r : RegSpec) (a : Nat) (w : Word) (fs : List Fld) : State := s.store r a (s.keeping fs w)

/-- SYS: references (R26), derating and recalibration (Table AR-9), the mailbox (R36, R404). -/
def State.wrSYS (s : State) (r : RegSpec) (m a : Nat) (w : Word) (t : Nat) : State :=
  if a = R.SYS_CLK_CFG then
    let (v, s) := s.drawFree 1
    s.refSel (F.SYS_CLK_CFG_REF_SEL.of w) (v == 1)
  else if a = R.SYS_MODE_CFG then (s.store r a w).toScan State.derateCheck
  else if a = R.SYS_MBOX_CMD then
    s.mboxWrite m (F.SYS_MBOX_CMD_TAG.of w) (F.SYS_MBOX_CMD_GROUP.of w) (F.SYS_MBOX_CMD_CODE.of w) t
  else s.store r a w

/-- EVT: R435, R437, R438. -/
def State.wrEVT (s : State) (r : RegSpec) (a i : Nat) (w : Word) : State :=
  if a < R.EVT_PEND 0 then (if reservedEvent i then s else s.risingMsix fun s => s.store r a w)
  else if a < R.EVT_ACTIVE 0 then s.pendClear i w
  else if a = R.EVT_FORCE then (if F.EVT_FORCE_GO.has w then s.forceEvent (F.EVT_FORCE_EVENT.of w) else s)
  else s.store r a w

/-- A write of DET_CH_CFG[c] (R50, R52): a change of K_HOST sets K_EFF while no point cycles run, and is kept for the boundary while
they run; a write that leaves K_HOST at its value does not count. -/
def State.wrChannel (s : State) (r : RegSpec) (a c : Nat) (w : Word) : State :=
  let k := (F.DET_CH_CFG_K_HOST c).of w
  let changed := k != s.rd (F.DET_CH_CFG_K_HOST c)
  let s := s.store r a w
  if s.running then
    (if changed && !s.det.kHostChanged.contains c then
      { s with det := { s.det with kHostChanged := c :: s.det.kHostChanged } } else s)
  else if changed then (s.wr (F.DET_CH_CFG_K_EFF c) k).evalSilence else s

/-- DET: chapter 02. -/
def State.wrDET (s : State) (r : RegSpec) (a i : Nat) (w : Word) : State :=
  if a = R.DET_CTRL then
    let s := if F.DET_CTRL_BIAS_EN.has w then s.biasEnable else s.biasDisable
    let s := s.when (F.DET_CTRL_PROBE_START.has w) State.probeStart
    s.when (F.DET_CTRL_MASK_COMMIT.has w) fun s => s.wr F.DET_STATUS_COMMIT_PENDING 1
  else if a = R.DET_STATUS then s.when (F.DET_STATUS_BIAS_FLAP.has w) State.biasFlapRelease
  else if a = R.DET_QUENCH_CFG ∨ a = R.DET_COINC_CFG then
    let s := s.store r a w
    if s.running then s
    else { s with det := { s.det with deadTime := s.rd F.DET_QUENCH_CFG_DEAD_TIME, window := s.rd F.DET_COINC_CFG_WINDOW } }
  else if 0x101000 ≤ a ∧ a < 0x102200 then s.wrChannel r a i w
  else s.store r a w

/-- TDC: chapter 02. -/
def State.wrTDC (s : State) (r : RegSpec) (a : Nat) (w : Word) : State :=
  if a = R.TDC_CTRL then (s.store r a w).when (F.TDC_CTRL_COMMIT.has w) fun s => s.wr F.TDC_STATUS_COMMIT_PENDING 1
  else if a = R.TDC_EPOCH_CFG then
    let s := s.store r a w
    if s.running then s else { s with tdc := { s.tdc with epochOfs := s.rd F.TDC_EPOCH_CFG_EPOCH_OFS } }
  else if a = R.TDC_TEST_CFG then s.testSource (F.TDC_TEST_CFG_SRC.of w)
  else if 0x200100 ≤ a ∧ a < 0x200140 then
    let s := s.store r a w
    if s.running then s else s.trimTake
  else if a = R.TDC_CNT_CLR then
    let s := s.when (F.TDC_CNT_CLR_SEL.has w) State.clearTdcSel
    s.when (F.TDC_CNT_CLR_ALL.has w) fun s => { s with tdc := { s.tdc with lost := [], ovf := [], early := [] } }
  else if a = R.TDC_SNOOP_CFG then
    let s := s.store r a w
    s.when (F.TDC_SNOOP_CFG_ARM.has w) fun s => s.snoopArm (F.TDC_SNOOP_CFG_CHANNEL.of w) (F.TDC_SNOOP_CFG_KIND_ALL.has w)
  else s.store r a w

/-- The registers that R97 samples as one set. -/
def hisSampled (a : Nat) : Bool :=
  [R.HIS_RECIPE, R.HIS_RECIPE_CAL, R.HIS_KERNEL_W, R.HIS_KERNEL_CFG, R.HIS_THR_CFG, R.HIS_FIND_CFG, R.HIS_FIXWIN 0, R.HIS_FIXWIN 1,
    R.HIS_FIXWIN 2].contains a

/-- HIS: R97. -/
def State.wrHIS (s : State) (r : RegSpec) (a : Nat) (w : Word) : State := (s.store r a w).when (hisSampled a) State.hisWritten

/-- TIL_CFG of tiller `n`: setting SAMPLE_EN seeds the sampler's LFSR with the tiller number and loads its count (R447). -/
def State.wrTilCfg (s : State) (r : RegSpec) (a n : Nat) (w : Word) : State :=
  let rises := (F.TIL_CFG_SAMPLE_EN n).has w && !s.on (F.TIL_CFG_SAMPLE_EN n)
  let s := s.store r a w
  if rises then
    let (v, s) := s.sampleReload
    s.onTiller n fun t => { t with sampleLfsr := n, sampleLeft := v }
  else s

/-- TIL control: R126 to R128. -/
def State.wrTIL (s : State) (r : RegSpec) (a n : Nat) (w : Word) (t : Nat) : State :=
  if a = R.TIL_GROUP_CTRL then
    (s.when (F.TIL_GROUP_CTRL_RUN.has w) State.groupRun).when (F.TIL_GROUP_CTRL_HALT.has w) State.groupHalt
  else if 0x4C0000 ≤ a then s.store r a w
  else if a = R.TIL_CTRL n then
    let s := s.when ((F.TIL_CTRL_RUN n).has w) fun s => s.tilRun n
    let s := s.when ((F.TIL_CTRL_HALT n).has w) fun s => s.tilHaltReq n
    let s := s.when ((F.TIL_CTRL_STEP n).has w) fun s => s.tilStep n t
    s.when ((F.TIL_CTRL_MEM_INIT n).has w) fun s => s.tilInit n
  else if a = R.TIL_CFG n then s.wrTilCfg r a n w
  else if a = R.TIL_PC n then s.writePc n w
  else s.store r a w

/-- EMI: chapter 07. -/
def State.wrEMI (s : State) (r : RegSpec) (a : Nat) (w : Word) : State :=
  if a = R.EMI_CTRL then
    let s := if F.EMI_CTRL_EN.has w then s.emiEnable else s.emiDisable
    let s := s.when (F.EMI_CTRL_FAULT_CLR.has w) State.faultClr
    let s := s.when (F.EMI_CTRL_CURVE_COMMIT.has w) fun s => s.wr F.EMI_STATUS_COMMIT_PENDING 1
    s.when (F.EMI_CTRL_SHORT_TEST.has w) State.shortTest
  else if a = R.EMI_STATUS then s.when (F.EMI_STATUS_LB_FLAP.has w) State.lbFlapRelease
  else if a = R.EMI_SLOT_CFG ∨ a = R.EMI_FIRE_CFG ∨ a = R.EMI_PWR_CFG ∨ (R.EMI_PCODE 0 ≤ a ∧ a ≤ R.EMI_PCODE 7) then
    let s := s.store r a w
    if s.running then s else s.emiSample
  else if a = R.EMI_SIG_CFG then
    let s := s.store r a w
    if s.running then { s with emi := { s.emi with seedReload := true } } else s
  else if a = R.EMI_LB_CFG then
    let s := (s.storeBut r a w [F.EMI_LB_CFG_EN]).lbRecheck
    if F.EMI_LB_CFG_EN.has w then s.lbEnable else s.lbDisable
  else if a = R.EMI_LB_WARM ∨ a = R.EMI_LB_HOT then (s.store r a w).lbRecheck
  else if a = R.EMI_ROW_SHORT then s.lineClear 0 w
  else if a = R.EMI_ROW_OPEN then s.lineClear 1 w
  else if a = R.EMI_COL_FAULT then s.lineClear 2 w
  else s.store r a w

/-- HLM: chapter 08. -/
def State.wrHLM (s : State) (r : RegSpec) (a : Nat) (w : Word) : State :=
  if a = R.HLM_CTRL then
    let s := if F.HLM_CTRL_EN.has w then s.helmEnable else s.helmDisable
    let s := s.when (F.HLM_CTRL_LAW_COMMIT.has w) fun s => s.wr F.HLM_STATUS_COMMIT_PENDING 1
    let s := s.when (F.HLM_CTRL_FAULT_CLR.has w) State.helmFaultClear
    let s := s.when (F.HLM_CTRL_TRACE_ARM.has w) State.traceArm
    s.when (F.HLM_CTRL_TRACE_FORCE.has w) State.traceTrigger
  else if a = R.HLM_STATUS then (s.store r a w).when (F.HLM_STATUS_LOCK_FLAP.has w) State.lockFlapRelease
  else if a = R.HLM_SPEED_REF then s.speedRef w.toNat
  else s.store r a w

/-- HDG: R268. -/
def State.wrHDG (s : State) (r : RegSpec) (a : Nat) (w : Word) : State :=
  if a = R.HDG_CTRL then s.when (F.HDG_CTRL_LOCK.has w) State.sealLock else s.store r a w

/-- MER and the capture engine: chapter 10. -/
def State.wrMER (s : State) (r : RegSpec) (a : Nat) (w : Word) (t : Nat) : State :=
  if a = R.MER_CTRL then
    let s := if F.MER_CTRL_EN.has w then s.merEnable else s.merDisable
    let s := s.when (F.MER_CTRL_RT_RESTART.has w) State.rtRestart
    s.when (F.MER_CTRL_TRIG.has w) State.trigSend
  else if a = R.MER_CAP_CTRL then
    let s := s.put F.MER_CAP_CTRL_CONT (F.MER_CAP_CTRL_CONT.has w)
    let s := if !F.MER_CAP_CTRL_EN.has w then s.capDisable else if s.tilHeld then s.wr F.MER_CAP_CTRL_EN 1 else s.capEnable
    let s := s.when (F.MER_CAP_CTRL_ARM.has w) State.capArm
    s.when (F.MER_CAP_CTRL_FORCE.has w) fun s => s.capEvent 0 t
  else s.store r a w

/-- SXT: chapter 10. -/
def State.wrSXT (s : State) (r : RegSpec) (a : Nat) (w : Word) : State :=
  if a = R.SXT_CTRL then
    let s := if F.SXT_CTRL_EN.has w then s.sxtEnable else s.sxtDisable
    let s := s.when (F.SXT_CTRL_ARM.has w) State.sxtArmCmd
    let s := s.when (F.SXT_CTRL_CDT_COMMIT.has w) State.cdtCommitCmd
    s.when (F.SXT_CTRL_CDT_RUN.has w) State.cdtRun
  else s.store r a w

/-- ADC: chapter 11. -/
def State.wrADC (s : State) (r : RegSpec) (a i : Nat) (w : Word) (t : Nat) : State :=
  if a = R.ADC_CTRL then (if F.ADC_CTRL_EN.has w then s.adcEnable t else s.adcDisable)
  else if a = R.ADC_URGENT then s.urgentWrite (F.ADC_URGENT_INPUT.of w) (F.ADC_URGENT_GO.has w)
  else if a = R.ADC_FLAP_STATUS then s.forN 8 fun k s => s.when (w.toNat.testBit k) fun s => s.rangeFlapRelease k
  else if 0x900400 ≤ a ∧ a < 0x900480 then
    match a % 16 with
    | 0 => s.feCfgWrite i w t
    | 4 => s.fePulseWrite i w t
    | 8 => s.feSwapWrite i w
    | _ => s.when ((F.ADC_FE_STATUS_EXC_FLAP i).has w) fun s => s.excFlapRelease i
  else (s.store r a w).keepEntry (some t)

/-- CAL: chapter 12. -/
def State.wrCAL (s : State) (r : RegSpec) (a : Nat) (w : Word) : State :=
  if a = R.CAL_STATUS then s.when (F.CAL_STATUS_RZ_FLAP.has w) State.rzFlapRelease
  else if a = R.CAL_CTRL then s.when (F.CAL_CTRL_CLR_FIELD.has w) State.clrField
  else if a = R.CAL_JRN_CTRL then s.when (F.CAL_JRN_CTRL_SAVE.has w) State.journalSave
  else if a = R.CAL_LEG_CTRL then s.when (F.CAL_LEG_CTRL_COMMIT.has w) State.legCommit
  else if a = R.CAL_FUSE_CTRL then s.when (F.CAL_FUSE_CTRL_BURN.has w) fun s => s.fuseBurn (F.CAL_FUSE_CTRL_KEY.of w)
  else s.store r a w

/-- A cleared bit of THM_RETIRED: the sensor is monitored again. The spec states only the setting of a bit; the mode rule of RETIRE
is applied. -/
def State.unretireSensor (s : State) (k : Nat) : State :=
  if s.mode ≠ mSTANDBY ∧ s.mode ≠ mSAFESTOP then s.cfgReject
  else ((s.wr (F.THM_SNS_ST_STATE k) 0).wr F.THM_RETIRED_MASK (withBit (s.rd F.THM_RETIRED_MASK) k false)).thermSettle

/-- A write of THM_RETIRED, checked bit by bit as RETIRE commands (R353). -/
def State.wrRetired (s : State) (w : Word) : State :=
  s.forN 24 fun k s =>
    let old := (s.rd F.THM_RETIRED_MASK).testBit k
    let new := w.toNat.testBit k
    if new && !old then s.retireSensor k else if old && !new then s.unretireSensor k else s

/-- THM: chapter 12. -/
def State.wrTHM (s : State) (r : RegSpec) (a : Nat) (w : Word) : State :=
  if a = R.THM_STATUS then s.when (F.THM_STATUS_FLAP.has w) State.thmFlapRelease
  else if a = R.THM_SNS_CTRL then
    s.snsCtrl (F.THM_SNS_CTRL_SENSOR.of w) (F.THM_SNS_CTRL_RETIRE.has w) (F.THM_SNS_CTRL_READMIT.has w)
  else if a = R.THM_RETIRED then s.wrRetired w
  else if a = R.THM_DERATE_CFG then
    (s.store r a w).showThrottle
  else s.store r a w

/-- MEM: chapter 13. -/
def State.wrMEM (s : State) (r : RegSpec) (a i : Nat) (w : Word) : State :=
  if a = R.MEM_CTRL then
    let s := if F.MEM_CTRL_EN.has w then s.memEnable else s.memDisable
    let s := if F.MEM_CTRL_SR.has w then (s.wr F.MEM_CTRL_SR 1).srEnter else (s.wr F.MEM_CTRL_SR 0).srLeave
    (s.when (F.MEM_CTRL_INIT.has w) State.memInit).memResume
  else if a = R.MEM_STATUS then
    (s.when (F.MEM_STATUS_TEMP_FLAP.has w) State.tempFlapRelease).when (F.MEM_STATUS_HOT_FLAP.has w) State.hotFlapRelease
  else if a = R.MEM_PORT_STATUS i ∧ i < 8 then s.when ((F.MEM_PORT_STATUS_FLAP i).has w) fun s => s.panicFlapRelease i
  else if a = R.MEM_PB_BASE_LO ∨ a = R.MEM_PB_BASE_HI ∨ a = R.MEM_PB_SIZE then
    (((s.store r a w).wr F.MEM_PB_WPTR_OFS 0).wr F.MEM_PB_RPTR_OFS 0).lk fun l => { l with taken := [] }
  else if a = R.MEM_MR_CMD then
    (if F.MEM_MR_CMD_GO.has w then
      s.mrCommand (F.MEM_MR_CMD_READ.has w) (F.MEM_MR_CMD_CH.of w) (F.MEM_MR_CMD_RANK.has w) (F.MEM_MR_CMD_MA.of w)
        (F.MEM_MR_CMD_OP.of w)
    else s.store r a w)
  else if a = R.MEM_TRN_CTRL then s.when (F.MEM_TRN_CTRL_GO.has w) State.sweepGo
  else s.store r a w

/-- LNK_CTRL: clearing PCIE_EN takes the link down, clearing a port's enable takes the port down (Table LK-7, R390). While the recovery ROM
runs, both ports stay disabled (R425), without an event (DESIGN CHOICE, log entry 237). -/
def State.wrLinkCtrl (s : State) (r : RegSpec) (a : Nat) (w : Word) : State :=
  let s := (s.storeBut r a w [F.LNK_CTRL_ETH0_EN, F.LNK_CTRL_ETH1_EN]).when (!F.LNK_CTRL_PCIE_EN.has w) State.pcieDown
  let s := if F.LNK_CTRL_ETH0_EN.has w && !s.romRuns then s.wr F.LNK_CTRL_ETH0_EN 1 else s.ethOff 0
  let s := if F.LNK_CTRL_ETH1_EN.has w && !s.romRuns then s.wr F.LNK_CTRL_ETH1_EN 1 else s.ethOff 1
  s.upChecks

/-- LNK: chapter 14. -/
def State.wrLNK (s : State) (r : RegSpec) (m a i : Nat) (w : Word) (t : Nat) : State :=
  if a = R.LNK_CTRL then s.wrLinkCtrl r a w
  else if a = R.LNK_CFG then (s.store r a w).lnkLanes
  else if a = R.LNK_PCIE_CFG then s.storeBut r a w (if s.on F.LNK_CTRL_PCIE_EN then [F.LNK_PCIE_CFG_BAR2_SIZE] else [])
  else if 0xC00020 ≤ a ∧ a < 0xC00030 then s.when ((F.LNK_LANE_ST_FLAP i).has w) fun s => s.laneFlapRelease i
  else if 0xC00030 ≤ a ∧ a < 0xC00040 then s.laneTest i ((F.LNK_LANE_TEST_LOOP i).of w) ((F.LNK_LANE_TEST_PRBS i).of w)
  else if a = R.LNK_ETH_CTRL i ∧ i < 2 then
    let s := s.storeBut r a w [F.LNK_ETH_CTRL_TX_EN i, F.LNK_ETH_CTRL_RX_EN i]
    let s := if (F.LNK_ETH_CTRL_TX_EN i).has w then s.halfEnable i 0 else s.halfDisable i 0
    if (F.LNK_ETH_CTRL_RX_EN i).has w then s.halfEnable i 1 else s.halfDisable i 1
  else if a = R.LNK_PTP_CTRL then
    let s := (s.ptpSync t).store r a w
    let s := s.when (F.LNK_PTP_CTRL_SYNC_SET.has w) fun s => s.wr F.LNK_PTP_STATUS_SYNCED 1
    s.when (F.LNK_PTP_CTRL_SNAP.has w) fun s => s.ptpSnap t
  else if a = R.LNK_PTP_RATE then s.ptpRate w t
  else if a = R.LNK_PTP_STEP then s.ptpStep w.toInt t
  else if a = R.LNK_MBOX_OWNER then s.mboxClaim m w.toNat
  else if 0xC08000 ≤ a ∧ a < 0xC08200 then (s.store r a w).flushMsix
  else s.store r a w

/-- BOOT: R427, R429. -/
def State.wrBOOT (s : State) (r : RegSpec) (a : Nat) (w : Word) (t : Nat) : State :=
  if a = R.BOOT_HDL_CTRL then
    let s := s.when (F.BOOT_HDL_CTRL_SEND.has w) State.hdlSend
    s.when (F.BOOT_HDL_CTRL_CONFIRM.has w) fun s => s.hdlConfirm 0 t true
  else s.store r a w

/-- A write of OBS_TRC_RPTR: the unread bytes are those from it to the write offset; below the threshold the level test is armed
again (R449). -/
def State.wrTraceRptr (s : State) (r : RegSpec) (a : Nat) (w : Word) : State :=
  let s := s.store r a w
  let n := (s.rd F.OBS_TRC_WPTR_OFS + 65536 - s.rd F.OBS_TRC_RPTR_OFS) % 65536
  let s := { s with obs := { s.obs with unread := n } }
  s.traceLevel

/-- OBS: chapter 16. -/
def State.wrOBS (s : State) (r : RegSpec) (a i : Nat) (w : Word) (t : Nat) : State :=
  if a = R.OBS_CTRL then
    let s := (s.store r a w).when (F.OBS_CTRL_SNAP.has w) fun s => s.snapRequest t
    s.when (F.OBS_CTRL_CLEAR_ALL.has w) State.clearCounters
  else if a = R.OBS_TRC_CFG then ((s.store r a w).when (F.OBS_TRC_CFG_CLR.has w) State.traceClear).traceLevel
  else if a = R.OBS_TRC_RPTR then s.wrTraceRptr r a w
  else if a = R.OBS_TRC_BASE_LO ∨ a = R.OBS_TRC_BASE_HI ∨ a = R.OBS_TRC_SIZE then
    ((s.store r a w).wr F.OBS_TRC_RING_WPTR_OFS 0).wr F.OBS_TRC_RING_RPTR_OFS 0
  else if 0xE01000 ≤ a ∧ a < 0xE02000 then s.counterConfig i w
  else s.store r a w

/-- A write that no check turns away, in the block that holds it. -/
def State.wrBlock (s : State) (r : RegSpec) (m a i : Nat) (w : Word) (t : Nat) : State :=
  if a < 0x10000 then s.wrSYS r m a w t
  else if a < 0x100000 then s.wrEVT r a i w
  else if a < 0x200000 then s.wrDET r a i w
  else if a < 0x300000 then s.wrTDC r a w
  else if a < 0x400000 then s.wrHIS r a w
  else if a < 0x600000 then s.toScan fun s => s.wrTIL r a i w t
  else if a < 0x700000 then s.toScan fun s => s.wrEMI r a w
  else if a < 0x780000 then s.wrHLM r a w
  else if a < 0x800000 then s.wrHDG r a w
  else if a < 0x880000 then s.wrMER r a w t
  else if a < 0x900000 then s.wrSXT r a w
  else if a < 0xA00000 then s.wrADC r a i w t
  else if a < 0xA80000 then s.wrCAL r a w
  else if a < 0xB00000 then s.wrTHM r a w
  else if a < 0xC00000 then s.wrMEM r a i w
  else if a < 0xD00000 then s.wrLNK r m a i w t
  else if a < 0xE00000 then s.wrBOOT r a w t
  else s.wrOBS r a i w t

/-- The tiller memory window (Table AR-6). -/
def inWindow (a : Nat) : Bool := decide (0x2000000 ≤ a) && decide (a < 0x3800000)

/-- The seed-map buffers (R200). -/
def inSeedMap (a : Nat) : Bool := decide (0x610000 ≤ a) && decide (a < 0x630000)

/-- The EVT_CFG word of a reserved event: it ignores every write without an event (R435). -/
def silentWrite (a : Nat) : Bool := decide (0x10000 ≤ a) && decide (a < 0x10800) && reservedEvent ((a - 0x10000) / 4)

/-- A 32-bit write by master `m` of `w` to the aligned address `a` at instant `t` (ps), reaching a block whose clock runs. -/
def State.writeWord (s : State) (m a : Nat) (w : Word) (t : Nat) : State :=
  if inWindow a then s.windowWrite (s.windowTargets ((a - 0x2000000) / 0x20000)) (a % 0x20000) 4 (BitVec.ofNat 64 w.toNat)
  else if inSeedMap a then
    let o := a - 0x610000
    s.seedWrite (o / 0x10000) (o % 0x10000 / 8) (o % 8 == 4) w
  else match findReg a with
    | none => s.cfgReject
    | some (r, i, _) =>
      if silentWrite a then s
      else if badEncoding r.fields w || s.barred a i w || s.ignored m a i w then s.cfgReject
      else s.wrBlock r m a i w t

/-- A 32-bit register write by master `m` (0 none of the mailbox's masters, 1 PCIe, 2 SPI, 3 firmware). -/
def State.regWrite (s : State) (m a : Nat) (w : Word) (t : Nat) : State :=
  s.access (s.stoppedAt a) fun s => if a % 4 = 0 then s.writeWord m a w t else s.cfgReject

/-- REGISTER_WRITE (R24). -/
def execRegisterWrite (m : Fin 4) (a : BitVec 26) (w : Word) (t : Nat) (s : State) : Host.Outcome State Fault Refusal :=
  .next (s.regWrite m a.toNat w t)

/-- REGISTER_ACCESS_TIMEOUT (R27): an access to address `a` of a block whose clock is stopped ends after 10 µs. -/
def execRegisterAccessTimeout (a : BitVec 26) (s : State) : Host.Outcome State Fault Refusal :=
  .next (if s.stoppedAt a.toNat then s.access true id else s)

end Sys2Proof.Machine
end

