-- ==== Sys2Proof/Machine/RegRead.lean ====
section
/-! DEFINITION. Register reads (R9, R11, R13, R27 to R29): what each register reads as, and read-to-clear fields. -/

namespace Sys2Proof.Machine

/-! ### Registers that show state held elsewhere -/

/-- STATE of Table TA-10. A tiller held in RECOVERY gives back its state when a trip takes RECOVERY to SAFE-STOP (R129; DEDUCED, log
entry 210). -/
def State.tilStateCode (s : State) (n : Nat) : Nat :=
  if s.tilHeld then 4
  else match (s.tiller n).state with
    | .halted => 0
    | .running => 1
    | .stalled => 2
    | .init => 3

/-- TIL_STATUS of tiller `n` (Table TA-10). -/
def State.tilStatus (s : State) (n : Nat) : Nat :=
  let t := s.tiller n
  t.haltCause * 2 ^ 16 + t.inTrap.toNat * 2 ^ 8 + t.inAttn.toNat * 2 ^ 7 + t.poisonSeen.toNat * 2 ^ 6
    + (t.own.isSome && t.emitted).toNat * 2 ^ 5 + t.own.isSome.toNat * 2 ^ 4 + s.tilStateCode n

/-- TIL_PC of tiller `n`: 0xFFFF_FFFF while it runs (R128). -/
def State.tilPc (s : State) (n : Nat) : Nat :=
  match (s.tiller n).state with
  | .halted => (s.tiller n).pc
  | .init => (s.tiller n).pc
  | _ => 0xFFFFFFFF

/-- TIL_HALTED[i] (Table TA-11). -/
def State.tilHalted (s : State) (i : Nat) : Nat :=
  ((List.range 32).map fun j => if s.tilHeld || [0, 3].contains (s.tilStateCode (32 * i + j)) then 2 ^ j else 0).sum

/-- A TIL register (Tables TA-10 and TA-11). -/
def State.rdTIL (s : State) (a n : Nat) : Word :=
  if 0x4C0050 ≤ a ∧ a < 0x4C0068 then BitVec.ofNat 32 (s.tilHalted n)
  else if a = R.TIL_OQ_STATUS then BitVec.ofNat 32 s.oqFree
  else if 0x4C0000 ≤ a then s.reg a
  else
    let t := s.tiller n
    match a % 0x1000 with
    | 0x004 => BitVec.ofNat 32 (s.tilStatus n)
    | 0x00C => BitVec.ofNat 32 (s.tilPc n)
    | 0x020 => BitVec.ofNat 32 t.trapCause
    | 0x024 => BitVec.ofNat 32 t.epc
    | 0x028 => BitVec.ofNat 32 t.trapAddr
    | _ => s.reg a

/-- A TDC register: the counters of the selected channel (R77) and the snoop buffer (R73). -/
def State.rdTDC (s : State) (a i : Nat) : Word :=
  let c := s.rd F.TDC_CNT_SEL_CHANNEL
  if a = R.TDC_CNT_LOST then BitVec.ofNat 32 (Tab.get (fun _ => 0) s.tdc.lost c)
  else if a = R.TDC_CNT_OVF then BitVec.ofNat 32 (Tab.get (fun _ => 0) s.tdc.ovf c)
  else if a = R.TDC_CNT_EARLY then BitVec.ofNat 32 (Tab.get (fun _ => 0) s.tdc.early c)
  else if 0x204000 ≤ a ∧ a < 0x204800 then
    let e := s.tdc.snoop.getD i (0, 0)
    if a % 8 = 0 then e.1 else e.2
  else s.reg a

/-- An EVT register (R436, R437, Table EV-3). -/
def State.rdEVT (s : State) (a i : Nat) : Word :=
  if R.EVT_ACTIVE 0 ≤ a ∧ a < R.EVT_VEC_STATUS then
    BitVec.ofNat 32 (((List.range 32).map fun j => if s.isActive (32 * i + j) then 2 ^ j else 0).sum)
  else if a = R.EVT_VEC_STATUS then BitVec.ofNat 32 (((List.range 32).map fun v => if s.summary v then 2 ^ v else 0).sum)
  else if a = R.EVT_PIN_STATUS then
    BitVec.ofNat 32 (s.faultPin.toNat * 4 + (s.summary 0x21).toNat * 2 + (s.summary 0x20).toNat)
  else if a = R.EVT_NEXT then
    match s.nextActive with
    | some e => BitVec.ofNat 32 (2 ^ 31 + e)
    | none => 0
  else s.reg a

/-- A CAL register: raw fuse rows (Table CT-6). -/
def State.rdCAL (s : State) (a i : Nat) : Word :=
  if 0xA08000 ≤ a ∧ a < 0xA10000 then BitVec.ofNat 32 (s.fuseRow (i / 2) / 2 ^ (32 * (i % 2))) else s.reg a

/-- The word a register shows. The scan runs in no mode that stops the converter (R323). -/
def State.shown (s : State) (a i : Nat) : Word :=
  if a < 0x10000 then s.reg a
  else if a < 0x100000 then s.rdEVT a i
  else if 0x200000 ≤ a ∧ a < 0x300000 then s.rdTDC a i
  else if 0x400000 ≤ a ∧ a < 0x600000 then s.rdTIL a i
  else if a = R.ADC_STATUS then s.reg a &&& (if s.tilHeld then 0xFFFFFEFF else 0xFFFFFFFF)
  else if a = R.HDG_ENERGY then BitVec.ofNat 32 (s.zoneSum (s.rd F.HDG_ENERGY_SEL_ZONE))
  else if 0xA00000 ≤ a ∧ a < 0xA80000 then s.rdCAL a i
  else s.reg a

/-! ### Reads with their side effects -/

/-- Clears the read-to-clear fields of the register at `a` (R9). -/
def State.clearRC (s : State) (fs : List FieldSpec) (a : Nat) : State :=
  let rc := fs.filter fun f => f.acc == .rc
  if rc = [] then s else s.setReg a (rc.foldl (fun w f => Word.setField w f.hi f.lo 0) (s.reg a))

/-- What a read of a register does beside clearing its own fields: the counts whose limit events are armed again (R95, R374), the
timestamp queue (R400). -/
def State.readHook (s : State) (a : Nat) : State :=
  if a = R.HIS_ECC_CE_CNT then { s with his := { s.his with ceRaised := false } }
  else if a = R.MEM_ECC_CE_CNT then { s with mem := { s.mem with ceRaised := false } }
  else if a = R.LNK_PTP_TS_INFO then s.stampPop
  else s

/-- What a 32-bit read of a word of a block whose clock runs does: the reads that have an effect have it. -/
def State.afterRead (s : State) (a : Nat) : State :=
  if inWindow a then s.windowRead ((a - 0x2000000) / 0x20000) (a % 0x20000) 4
  else if 0x380000 ≤ a ∧ a < 0x388000 then
    (s.readView (s.rd F.HIS_VIEW_FURROW) ((s.tiller (s.rd F.HIS_VIEW_FURROW)).own.map Prod.fst) (a - 0x380000)).2.2
  else match findReg a with
    | none => s.cfgReject
    | some (r, i, _) =>
      if 0xE02000 ≤ a ∧ a < 0xE04000 ∧ a % 8 = 0 then s.counterLive i else (s.clearRC r.fields a).readHook a

/-- What that read returns. -/
def State.wordRead (s : State) (a : Nat) : Word :=
  if inWindow a then BitVec.ofNat 32 (s.afterRead a).sys.rdata
  else if 0x380000 ≤ a ∧ a < 0x388000 then
    (s.readView (s.rd F.HIS_VIEW_FURROW) ((s.tiller (s.rd F.HIS_VIEW_FURROW)).own.map Prod.fst) (a - 0x380000)).1
  else match findReg a with
    | none => 0
    | some (_, i, _) =>
      if 0xE02000 ≤ a ∧ a < 0xE04000 ∧ a % 8 = 0 then BitVec.ofNat 32 (s.afterRead a).sys.rdata else s.shown a i

/-- A read of `k` bytes (1 to 4) at address `a` (R29): unaligned, it reads 0 without a side effect. -/
def State.regRead (s : State) (a k : Nat) : State :=
  if s.mode = mRESET then s
  else s.access (s.stoppedAt (a / 4 * 4)) fun s =>
    if !aligned a k then (s.answerRead 0).cfgReject
    else
      (s.afterRead (a / 4 * 4)).answerRead ((s.wordRead (a / 4 * 4)).toNat / 2 ^ (8 * (a % 4)) % 2 ^ (8 * k))

/-- An aligned 64-bit read (R29, R391). -/
def State.regRead64 (s : State) (a : Nat) : State :=
  s.access (s.stoppedAt a) fun s =>
    if inWindow a then s.windowRead ((a - 0x2000000) / 0x20000) (a % 0x20000) 8
    else
      let u := s.afterRead a
      (u.afterRead (a + 4)).answerRead ((s.wordRead a).toNat + 2 ^ 32 * (u.wordRead (a + 4)).toNat)

/-- An aligned 64-bit write: one access in the tiller memory window; registers take only 32-bit writes (R29). -/
def State.regWrite64 (s : State) (a : Nat) (d : BitVec 64) : State :=
  s.access (s.stoppedAt a) fun s =>
    if inWindow a then s.windowWrite (s.windowTargets ((a - 0x2000000) / 0x20000)) (a % 0x20000) 8 d else s.cfgReject

/-- RC_READ (R9): a 32-bit read of the register at `a`; the value returned stands in `sys.rdata`. -/
def execRcRead (a : BitVec 26) (s : State) : Host.Outcome State Fault Refusal := .next ((s.linkSeen a.toNat 4 none).regRead a.toNat 4)

end Sys2Proof.Machine
end

