-- ==== Sys2Proof/Machine/Boot.lean ====
section
/-! DEFINITION. The end of RESET and the start sequence (chapter 15: R410 to R418, R424, R430; R30, R31), the end of a calibration
plan (R328, R415), and what the end of a journal save does (R342). -/

namespace Sys2Proof.Machine

/-! ### Step 0x4: LOAD (Table BU-2) -/

/-- The sections of a type in an image: DEST and bytes. -/
def imgSecs (b : List Byte) (type : Nat) : List (Nat × List Byte) :=
  (List.range (imgSections b)).filterMap fun i =>
    let (t, dest, ofs, len) := imgSection b i
    if t = type then some (dest, ((imgBody b).drop ofs).take len) else none

/-- A tiller after the zeroing of R114, with the image's sections of its two memories. -/
def loadTiller (img : List Byte) (t : Tiller) : Tiller :=
  let code := imgSecs img 3
  { t.zeroed with
    imem := code.foldl (fun m x => Mem.store 0 m x.1 x.2) []
    dmem := (imgSecs img 4).foldl (fun m x => Mem.store 0 m (x.1 - 0x10000) x.2) []
    refRuns := !code.isEmpty
    refFresh := !code.isEmpty }

/-- LOAD: every tiller holds the image's sections. -/
def State.loadSections (s : State) : State :=
  let img := s.slotImage
  s.forN 192 fun n s => s.onTiller n (loadTiller img)

/-! ### Step 0x5: DRAM (R375, R381, R382) -/

/-- Least widths in taps of a bit's read and write eyes at each data rate (Table MC-6). -/
def minEye (rate : Nat) (write : Bool) : Nat := [18, 20, 22, 24].getD rate 24 - (if write then 4 else 0)

/-- The centre of a widest run of passing taps that the free value at `ix` stands for, at least `least` taps wide (R381). -/
def eyeCentre (ix least : Nat) : Nat :=
  let w := least + Config.freeValue ix % (129 - least)
  Config.freeValue (ix + 1) % (129 - w) + (w - 1) / 2

/-- Training writes each bit's delays: the centre of its widest run of passing taps, which depends on the board; a bit of a channel that
does not fail has the eye widths of Table MC-6 (R381). -/
def State.freeDelays (s : State) (failing : Nat) : State :=
  let ix := s.freeIx
  let least (i : Nat) (write : Bool) : Nat := if failing.testBit (i / 16) then 1 else minEye (s.rd F.MEM_CFG_RATE) write
  let s := s.forN 64 fun i s =>
    (s.wr (F.MEM_DLY_WR (i / 16) (i % 16)) (eyeCentre (ix + 4 * i) (least i true))).wr (F.MEM_DLY_RD (i / 16) (i % 16))
      (eyeCentre (ix + 4 * i + 2) (least i false))
  { s with freeIx := ix + 256 }

/-- Device reset and training; `failing` holds the channels that miss Table MC-6. -/
def State.trainDram (s : State) (failing t : Nat) : State :=
  let s : State := { s with mem := { s.mem with retained := false } }
  let s := (s.memEnable.wr F.MEM_STATUS_STATE 2).freeDelays failing
  let s := s.lose 0 s.localSize
  if failing ≠ 0 then ((s.wr F.MEM_TRN_STATE_FAIL failing).wr F.MEM_TRN_STATE_VALID 0).failStart 8 5 t
  else
    let s := (s.wr F.MEM_TRN_STATE_VALID 1).wr F.MEM_TRN_STATE_FAIL 0
    if s.on F.MEM_CFG_INLINE then { s with mem := { s.mem with dram := [], cond := [], lost := [] } } else s

/-- A warm start keeps the trained values when they are valid and the DRAM temperature reports `nominal` (R382). -/
def State.stepDram (s : State) (failing : Nat) (nominal : Bool) (t : Nat) : State :=
  if s.boot.warmStart && s.on F.MEM_TRN_STATE_VALID && nominal then
    (s.memEnable.wr F.MEM_STATUS_STATE 2).wr F.BOOT_STATUS_TRAIN_SKIPPED 1
  else s.trainDram failing t

/-! ### Step 0x6: CAL (R342) -/

/-- Writes a shadow CDT table of 128 bytes. -/
def State.putCdtShadow (s : State) (r : Nat → Nat) (f : Nat → Nat) : State :=
  s.forN 32 fun q s => s.setReg (r q)
    (BitVec.ofNat 32 (f (4 * q) + f (4 * q + 1) * 2 ^ 8 + f (4 * q + 2) * 2 ^ 16 + f (4 * q + 3) * 2 ^ 24))

/-- The field additions of the record join the fused masks (R334). -/
def State.applyField (s : State) : State :=
  (s.forN 1152 fun c s => s.setMaskShadow c (s.maskShadow c &&& (0xFFFF - Tab.get (fun _ => 0) s.cal.field c))).copyMasks.evalSilence

/-- Applies a journal record: every section of R341; a warm start keeps CAL_LAST_CD and CAL_LAST_RZ as they stand (RWS). -/
def State.applyJrn (s : State) (r : JrnRec) : State :=
  let s := (s.forN 1152 fun c s => s.putLut c fun p => Tab.get (fun k => k % 16) r.lut (16 * c + p)).tdcCopy
  let s := (s.putCdtShadow R.SXT_CDT_START (Tab.get id r.cdtStart)).putCdtShadow R.SXT_CDT_STOP (Tab.get id r.cdtStop)
  let s := s.cdtCommit.cl fun c => { c with
    bofs := r.bofs, tCal := r.tCal, field := r.field, legTemp := r.legTemp, legSkew := r.legSkew, legBofs := r.legBofs }
  let s := s.applyField
  let s := (s.forN 256 fun p s => s.wr (F.EMI_CURVE_DAC p) (r.curve.getD p 0)).curveCopy
  let s := (s.forN 4 fun k s => s.wrS (F.CAL_LEG_TEMP_TEMP k) (Tab.get (fun _ => 0) r.legTemp (4 * k))).wr F.CAL_LEG_STATUS_LOADED r.loaded
  if s.boot.warmStart then s else (s.setReg R.CAL_LAST_CD r.lastCd).setReg R.CAL_LAST_RZ r.lastRz

/-- Step 0x6: with no valid slot the fused values stay and CAL_JRN_FAIL is raised. -/
def State.stepCal (s : State) : State :=
  match s.newestJrn with
  | some k => match s.jrnOf k with
    | some r =>
      let s := s.applyJrn r
      (((s.wr F.CAL_JRN_STATUS_SEQ r.seq).wr F.CAL_JRN_STATUS_SLOT k).wr F.CAL_JRN_STATUS_VALID 1).wr F.CAL_JRN_STATUS_FAIL 0
    | none => s
  | none => (s.wr F.CAL_JRN_STATUS_FAIL 1).raise 487

/-! ### Step 0x7: SETTINGS (R424, R430) -/

/-- Loads the settings table and BOOT_SET_OPT. -/
def State.loadTable (s : State) (tab : List (Nat × Word)) (opt : Word) : State :=
  (tab.foldl (fun s e => if e.1 < 512 then s.setReg (R.BOOT_SET_ADDR 0 + 4 * e.1) e.2 else s) s).wr F.BOOT_SET_OPT_AUTO_SCAN
    (Word.field opt 0 0)

/-- The record of step 0x7 (R424): the newest of the image's format, else the newest of any format converted by the image. -/
def State.takeSettings (s : State) : State :=
  let load (k : Nat) (f : SetRec → State) : State := match s.setOf k with
    | some r => f r
    | none => s
  match s.newestSet fun r => r.fmt == s.rd F.BOOT_IMAGE_INFO_SETTINGS_FMT with
  | some k => load k fun r => s.loadTable r.table r.opt
  | none => match s.newestSet fun _ => true with
    | none => s
    | some k => load k fun r =>
      match Config.migrate ((imgFind s.slotImage 5).getD []) r.fmt r.table r.opt with
      | some (tab, opt) => (s.loadTable tab opt).setSave
      | none => s.setSave

/-- The entry's write is rejected by R12 or R13 (R430): an offset of a listed range without a register, or a reserved encoding. A write that
another rule turns away is not skipped. -/
def State.entryRejected (s : State) (a : Nat) (w : Word) : Bool :=
  a % 4 == 0 && !s.stoppedAt a && match findReg a with
    | none => decide (a < 0xF00000) && !inSeedMap a
    | some (r, i, _) => !silentWrite a && (badEncoding r.fields w || s.barred a i w || s.reservedIn a i w)

/-- A settings entry is skipped: counted and logged (R430). The raise of a rejected write writes the logbook entry itself where
event 3 is logged. -/
def State.skipEntry (s : State) (raised : Bool) (t : Nat) : State :=
  let s := s.wr F.BOOT_STATUS_SET_REJ (min 255 (s.rd F.BOOT_STATUS_SET_REJ + 1))
  if raised && s.on (F.EVT_CFG_LOG 3) then s
  else s.logEntry ⟨1, s.mode, 3, s.pbTime t, [1, s.reg R.SYS_MODE, s.causeWord 3]⟩ false

/-- One entry of the table as a register write. Skipped are those that R430 names; another ignored write has no effect (DEDUCED, log entry
238). -/
def State.applyEntry (s : State) (i t : Nat) : State :=
  let a := (s.reg (R.BOOT_SET_ADDR i)).toNat
  if a < 0x10000 ∨ (0xD00000 ≤ a ∧ a < 0xE00000) ∨ inWindow a then s.skipEntry false t
  else
    let w := s.reg (R.BOOT_SET_VALUE i)
    let u := s.regWrite 0 a w t
    if s.entryRejected a w then u.skipEntry true t else u

/-- The entries in index order, until the first whose ADDR is 0xFFFF_FFFF. -/
def State.applyEntries (s : State) (t : Nat) : State :=
  ((List.range 256).takeWhile fun i => s.reg (R.BOOT_SET_ADDR i) != 0xFFFFFFFF).foldl (fun s i => s.applyEntry i t) s

/-! ### Steps 0x8 to 0xA (R414 to R416, R172) -/

/-- A warm start skips the code-density step (R414). -/
def State.cdSkip (s : State) : Bool :=
  s.boot.warmStart && decide ((s.tRz - s.rdS F.CAL_LAST_CD_TEMP).natAbs ≤ 50) && decide (s.rd F.CAL_LAST_CD_AGE < 600)

/-- Step 0x9: every tiller that holds the reference program runs it with the settings of R172. -/
def State.startTillers (s : State) : State :=
  if s.tilStopped then s
  else
    let s := s.forN 192 fun n s =>
      if (s.tiller n).refRuns then
        let s := ((s.wr (F.TIL_CFG_MSG_ATTN n) 1).wr (F.TIL_CFG_POISON_ZERO n) 1).wr (F.TIL_CFG_TRAP_MODE n) 1
        ((s.wr (F.TIL_ATTN_CFG_DL_ALARM n) 0).onTiller n fun t => { t with pc := 0, refFresh := true }).tilRun n
      else s
    s.pagesOut

/-- The mode command that AUTO_SCAN issues is refused under the rules of Tables AR-13 and AR-14. -/
def State.autoScan (s : State) : State :=
  if s.on F.BOOT_SET_OPT_AUTO_SCAN && s.mode == mSTANDBY && !s.on F.BOOT_STATUS_CD_DUE && s.forcedCause == 0 then s.goMode mSPINUP 0x01
  else s

/-- Step 0xA (R416). -/
def State.startDone (s : State) (t : Nat) : State :=
  let s := ((s.wr F.BOOT_STATUS_STEP 0xA).bo fun b => { b with starting := false }).wr F.SYS_MODE_BOOT_DONE 1
  let s := ((s.wr F.SYS_MODE_CAUSE 0x02).raise 0).raise 504
  let s := s.raiseIf (s.on F.THM_TRIP_REC_VALID) 19
  let s := s.logEntry ⟨2, s.mode, 0, s.pbTime t,
    [s.reg R.BOOT_LAST_RESET, s.reg R.SYS_MODE, s.reg R.BOOT_IMAGE_VER, s.reg R.BOOT_STATUS, s.reg R.BOOT_FAIL]⟩ true
  s.autoScan

/-- Step 0x8 is entered (R414, R415): not run outside STANDBY, nor while a forced condition blocks the command. -/
def State.stepCd (s : State) : State :=
  if s.cdSkip then (s.wr F.BOOT_STATUS_CD_SKIPPED 1).wr F.BOOT_STATUS_STEP 9
  else if s.mode ≠ mSTANDBY ∨ s.forcedCause ≠ 0 then (s.wr F.BOOT_STATUS_CD_DUE 1).wr F.BOOT_STATUS_STEP 9
  else (s.wr F.BOOT_STATUS_STEP 8).startPlan 1 0x01 true

/-! ### The sequence (R413, Table BU-2) -/

/-- The image check of step 0x1 or 0x2 fails: RECOVERY, or in SAFE-STOP the start ends there (R30). -/
def State.imageFails (s : State) : State :=
  if s.mode = mSAFESTOP then (s.wr F.BOOT_STATUS_IMAGE_VALID 0).bo fun b => { b with starting := false }
  else s.enterRecovery 0x04

/-- Step 0x1: the resident loader. -/
def State.stepLoader (s : State) : State :=
  let img := s.loaderImage
  if s.imageCheck img = 0 ∧ (imgFlags img).testBit 1 then (s.wr F.BOOT_STATUS_LOADER_VALID 1).wr F.BOOT_STATUS_STEP 2
  else s.imageFails

/-- Step 0x2: the image in the slot; the parts of it that registers show. -/
def State.stepImage (s : State) : State :=
  let img := s.slotImage
  if s.imageCheck img = 0 ∧ !(imgFlags img).testBit 1 then
    let s := ((s.wr F.BOOT_IMAGE_VER_VERSION (imgVersion img)).wr F.BOOT_IMAGE_INFO_SETTINGS_FMT (imgFmt img)).wr
      F.BOOT_IMAGE_INFO_SERIAL_BOUND (imgFlags img % 2)
    let s := s.wr F.BOOT_IMAGE_INFO_KEY_ID (imgKey img)
    if s.boot.warmStart then ((s.wr F.BOOT_STATUS_BIST_SKIPPED 1).wr F.BOOT_STATUS_STEP 4).imageShow
    else (s.wr F.BOOT_STATUS_STEP 3).imageShow
  else s.imageFails

/-- START_STEP_COMPLETE (R413) at instant `t` (ps): the step in progress completes, or fails (`ok` for steps 0x3 and 0x4, the failing
channels for step 0x5); `nominal` is the DRAM temperature report of R382. -/
def execStartStepComplete (ok : Bool) (failing : BitVec 4) (nominal : Bool) (t : Nat) (s : State) :
    Host.Outcome State Fault Refusal :=
  .next <|
    if !s.boot.starting then s
    else match s.rd F.BOOT_STATUS_STEP with
      | 1 => s.stepLoader
      | 2 => s.stepImage
      | 3 => if ok then s.wr F.BOOT_STATUS_STEP 4 else s.failStart 8 3 t
      | 4 => if ok then s.loadSections.wr F.BOOT_STATUS_STEP 5 else s.failStart 8 4 t
      | 5 =>
        let u := s.stepDram failing.toNat nominal t
        if u.boot.starting then u.wr F.BOOT_STATUS_STEP 6 else u
      | 6 => s.stepCal.wr F.BOOT_STATUS_STEP 7
      | 7 => (s.takeSettings.applyEntries t).stepCd
      | 9 => s.startTillers.startDone t
      | _ => s

/-! ### The end of RESET (R30, R31) -/

/-- CAUSE of the transition out of RESET (R31). -/
def resetModeCause (c : Nat) : Nat :=
  if c ≤ 1 then 0x00 else if c ≤ 3 then 0x01 else if c = 4 then 0x09 else if c = 5 then 0x11 else 0x14

/-- The clocks lock, the fuse shadow loads unless a warm start keeps it, and the straps are read (R30, R274, R413). -/
def State.leaveReset (s : State) (merId t : Nat) : State :=
  let s := s.sy fun x => { x with pinLow := false, resetEnd := t, recovKept := false }
  let s := s.lk fun l => { l with ptp := 0, ptpAt := t, slew := 0 }
  let s := ((s.wr F.SYS_CLK_STATUS_MAIN_LOCK 1).wr F.SYS_CLK_STATUS_TIL_LOCK 1).wr F.SYS_CLK_STATUS_MGMT_LOCK 1
  let s := (s.wr F.SYS_CLK_STATUS_REF_PRESENT 1).put F.SYS_MODE_WARM s.boot.warmStart
  let s := (s.wr F.MER_STATUS_ID merId).put F.MER_STATUS_MASTER (merId == 0)
  let s := s.put F.BOOT_STATUS_FUSE_KEPT (s.boot.warmStart && s.on F.CAL_STATUS_SHADOW_OK)
  let s := s.loadFuses.trimTake.evalSilence.wr F.BOOT_STATUS_UPD_STATE s.boot.upd.state
  s.forN 24 fun k s => if (s.rd F.THM_RETIRED_MASK).testBit k then s.wr (F.THM_SNS_ST_STATE k) 2 else s

/-- RESET ends (R30). -/
def State.endReset (s : State) (recov : Bool) (merId t : Nat) : State :=
  let s := s.leaveReset merId t
  let cause := resetModeCause (s.rd F.BOOT_LAST_RESET_CAUSE)
  if recov ∧ !s.latched then s.enterRecovery 0x03
  else if recov then ((s.goMode mSAFESTOP cause).sy fun x => { x with recovKept := true }).romDram
  else
    let s := (s.goMode (if s.latched then mSAFESTOP else mSTANDBY) cause).logScan
    (s.wr F.BOOT_STATUS_STEP 1).bo fun b => { b with starting := true }

/-- RESET_END (R30) at instant `t` (ps): RESET_N is high, TEST_EN is low, no TRIP holds RESET, and the PLLs have locked. `recov` tells
that the RECOV_N strap reads low, `merId` are the MER_ID straps. -/
def execResetEnd (recov : Bool) (merId : Fin 8) (t : Nat) (s : State) : Host.Outcome State Fault Refusal :=
  .next (if s.mode ≠ mRESET ∨ s.thm.tripHold ∨ s.sys.testEn then s else s.endReset recov merId t)

/-! ### The end of a plan (R328, R415) -/

/-- The mode returns to where the plan came from; for STANDBY the point cycle in progress runs to its swap. -/
def State.planReturn (s : State) : State :=
  if s.mode ≠ mCALIBRATE ∨ s.on F.SYS_MODE_STOPPING then s
  else
    let s := if s.sys.calFrom = mSTANDBY then s.lastCycle else s
    ((s.goMode s.sys.calFrom 0x0F).derateCheck).rerunCheck

/-- A plan of the start sequence, or its repetition, ends: CD_DUE tells whether it was cut, and the start goes on (R415). -/
def State.cdEnded (s : State) (cut : Bool) : State :=
  let s := s.put F.BOOT_STATUS_CD_DUE cut
  if s.boot.starting ∧ s.rd F.BOOT_STATUS_STEP = 8 then s.wr F.BOOT_STATUS_STEP 9 else s

/-- PLAN_END (R328): no item is left, or a trip, an orderly stop or thermal HOT cuts the plan. -/
def execPlanEnd (_t : Nat) (s : State) : Host.Outcome State Fault Refusal :=
  .next <|
    let cut := !s.cal.items.isEmpty
    let hot := (s.rd F.THM_STATUS_IND).testBit 1
    if !s.on F.CAL_STATUS_BUSY || (cut && s.mode == mCALIBRATE && !s.on F.SYS_MODE_STOPPING && !hot) then s
    else
      let internal := s.cal.internal
      let s := (s.planClose cut).planReturn
      if internal then s.cdEnded cut else s

/-- CD_DUE_RERUN (R415): STANDBY is free of forced conditions, and the plan runs again, whole. -/
def execCdDueRerun (s : State) : Host.Outcome State Fault Refusal :=
  .next (if s.on F.BOOT_STATUS_CD_DUE && s.mode == mSTANDBY && s.forcedCause == 0 && !s.on F.CAL_STATUS_BUSY && !s.boot.starting then
    s.startPlan 1 0x01 true else s)

/-- JOURNAL_SAVE_COMPLETE (R342): the record was written and read back; `ok` tells that its CRC holds. -/
def execJournalSaveComplete (ok : Bool) (s : State) : Host.Outcome State Fault Refusal :=
  .next ((s.journalDone ok).heldResetCheck)

end Sys2Proof.Machine
end

