-- ==== Sys2Proof/Machine/Port.lean ====
section
/-! DEFINITION. Requests of the PCIe host to BAR0 and BAR2 (R391 to R393), the frames of the management SPI (R406), and the JTAG
instructions (R459). -/

namespace Sys2Proof.Machine

/-! ### BAR0 (R391, R393) -/

/-- The BARs answer: the endpoint is up and in D0, and memory space is enabled (R389, R390). -/
def State.barOn (s : State) : Bool := s.pcieOn && s.lnk.memEn && !s.lnk.d3

/-- Addresses where a two-DW request is one 64-bit access: the tiller memory window, the TDC snoop buffer, CAL_FUSE_VIEW. -/
def oneAccess (a : Nat) : Bool :=
  inWindow a || (decide (0x204000 ≤ a) && decide (a < 0x204800)) || (decide (0xA08000 ≤ a) && decide (a < 0xA10000))

/-- Bytes of an `n`-byte request at `a` that lie in its first DW. -/
def firstPart (a n : Nat) : Nat := min n (4 - a % 4)

/-- A read of at most two DWs: the data of the completion. -/
def State.barRead (s : State) (a n : Nat) : List Byte × State :=
  if n ≤ firstPart a n then
    let s := s.regRead a n
    (bytesOf n s.sys.rdata, s)
  else if n = 8 ∧ oneAccess a then
    let s := if a % 8 = 0 then s.regRead64 a else (s.answerRead 0).cfgReject
    (bytesOf 8 s.sys.rdata, s)
  else
    let k := firstPart a n
    let s := s.regRead a k
    let lo := bytesOf k s.sys.rdata
    let s := s.regRead (a + k) (n - k)
    (lo ++ bytesOf (n - k) s.sys.rdata, s)

/-- One DW written, or a part of it, which is discarded (R29). -/
def State.barWrite1 (s : State) (a : Nat) (data : List Byte) (t : Nat) : State :=
  if data.length = 4 then s.regWrite 1 a (BitVec.ofNat 32 (ofBytes data)) t
  else s.access (s.stoppedAt (a / 4 * 4)) State.cfgReject

/-- A write of at most two DWs. -/
def State.barWrite (s : State) (a : Nat) (data : List Byte) (t : Nat) : State :=
  let n := data.length
  if n ≤ firstPart a n then s.barWrite1 a data t
  else if n = 8 ∧ oneAccess a then s.regWrite64 a (BitVec.ofNat 64 (ofBytes data))
  else
    let k := firstPart a n
    (s.barWrite1 a (data.take k) t).barWrite1 (a + k) (data.drop k) t

/-- Word `i` of a tiller's memories from window offset `ofs` on holds inverted checks (R39, R393). -/
def Tiller.poisonWord (t : Tiller) (ofs : Nat) : Tiller :=
  if 0x10000 ≤ ofs then { t with dmemCond := Tab.set (fun _ => .ok) t.dmemCond ((ofs - 0x10000) / 4) .poison }
  else if t.state = .halted then { t with imemCond := Tab.set (fun _ => .ok) t.imemCond (ofs / 4) .poison }
  else t

/-- A write with EP = 1 (R393): stored with inverted checks in the tiller memory window, discarded elsewhere. -/
def State.barPoison (s : State) (a : Nat) (data : List Byte) (t : Nat) : State :=
  let n := data.length
  if inWindow a ∧ (n = 4 ∨ n = 8) ∧ a % n = 0 then
    let s := s.barWrite a data t
    let s := if s.stoppedAt a then s else
      (s.windowTargets ((a - 0x2000000) / 0x20000)).foldl (fun s m => s.forN (n / 4) fun i s =>
        if windowOffset (a % 0x20000) then s.onTiller m fun x => x.poisonWord (a % 0x20000 + 4 * i) else s) s
    s.raise 496
  else s.raise 496

/-- BAR0_REQUEST (R391): a memory request to the register space. A read takes `len` bytes, a write carries `data`. -/
def execBar0Request (write : Bool) (a : BitVec 26) (len : Nat) (data : List Byte) (ep : Bool) (t : Nat) (s : State) :
    Host.Outcome State Fault Refusal :=
  .next <|
    if !s.barOn then s
    else
      let s := s.count 8 3 0 1
      let n := if write then data.length else len
      if n = 0 then s
      else if 8 < a.toNat % 4 + n then
        let s := s.cfgReject
        if !write then s.complete [] false else s.raiseIf ep 496
      else if write then (if ep then s.barPoison a.toNat data t else s.barWrite a.toNat data t)
      else
        let (d, s) := (s.linkSeen a.toNat n (some t)).barRead a.toNat n
        s.complete d false

/-! ### BAR2 (R392) -/

/-- BAR2_REQUEST (R392): a memory request at offset `o` of the DRAM aperture enters port HOST_IN. One with EP = 1 is stored with
inverted checks (R393). A request that is presented leaves self-refresh (R371). -/
def execBar2Request (write : Bool) (o : Nat) (len : Nat) (data : List Byte) (ep : Bool) (s : State) :
    Host.Outcome State Fault Refusal :=
  .next <|
    let size := s.rd F.LNK_PCIE_CFG_BAR2_SIZE
    if !s.barOn || size == 0 || decide (2 ^ size ≤ o) then s
    else
      let s := s.count 8 3 0 1
      let n := if write then data.length else len
      if 512 < n then s
      else
        let reqs := (cutRequest 10 o n).map fun x =>
          { write := write
            addr := x.1
            len := x.2.1
            data := if write then (data.drop x.2.2).take x.2.1 else []
            poison := write && ep
            urgent := false : Req }
        let s := (s.setPort 2 (s.port 2 ++ reqs)).raiseIf (write && ep) 496
        if s.memBlocked then s.memWake else s

/-! ### Management SPI (R406, Table LK-5) -/

/-- CRC-8 of a byte string (R276). -/
def crc8Bytes (l : List Byte) : Nat := crc8 (8 * l.length) (ofBytes l.reverse)

/-- A frame is discarded (R406). -/
def State.spiReject (s : State) : State :=
  let first := s.rd F.LNK_MSPI_CRC_CNT_COUNT == 0
  ((s.lk fun l => { l with spiBad := true, spiOut := [] }).bump F.LNK_MSPI_CRC_CNT_COUNT 1).raiseIf first 503

/-- A frame is served: what the slave returned. -/
def State.spiServed (s : State) (out : List Byte) : State := s.lk fun l => { l with spiBad := false, spiOut := out }

/-- A frame is handled in every mode except RESET. -/
def State.spiFrame (s : State) (good : Bool) (f : State → State) : State :=
  if s.mode = mRESET then s else if good then f s else s.spiReject

/-- The register address of an access. -/
def State.spiAddr (s : State) (ofs : BitVec 16) : Nat := 0x10000 * s.rd F.LNK_MSPI_WIN_WIN + ofs.toNat

/-- The two bytes of an offset or window number, the most significant first. -/
def spiHead (op : Nat) (v : BitVec 16) : List Byte := [BitVec.ofNat 8 op, BitVec.ofNat 8 (v.toNat / 256), BitVec.ofNat 8 v.toNat]

/-- SPI_WRITE (R406): a WRITE frame of `d` to `ofs`, closed by `crc`, at instant `t` (ps). -/
def execSpiWrite (ofs : BitVec 16) (d : Word) (crc : Byte) (t : Nat) (s : State) : Host.Outcome State Fault Refusal :=
  .next (s.spiFrame (crc.toNat == crc8Bytes (spiHead 0x02 ofs ++ bytesOf 4 d.toNat) && ofs.toNat % 4 == 0) fun s =>
    (s.spiServed []).regWrite 2 (s.spiAddr ofs) d t)

/-- SPI_READ (R406): a READ frame; the waiting bytes of 0xFF are not kept. -/
def execSpiRead (ofs : BitVec 16) (s : State) : Host.Outcome State Fault Refusal :=
  .next (s.spiFrame (ofs.toNat % 4 == 0) fun s =>
    let s := (s.linkSeen (s.spiAddr ofs) 4 none).regRead (s.spiAddr ofs) 4
    let b := (0x5A : Byte) :: bytesOf 4 s.sys.rdata
    s.spiServed (b ++ [BitVec.ofNat 8 (crc8Bytes b)]))

/-- SPI_WINDOW (R406): a WINDOW frame; WIN is bits [9:0] of its two bytes. -/
def execSpiWindow (win : BitVec 16) (crc : Byte) (s : State) : Host.Outcome State Fault Refusal :=
  .next (s.spiFrame (crc.toNat == crc8Bytes (spiHead 0x71 win)) fun s =>
    (s.spiServed []).wr F.LNK_MSPI_WIN_WIN (win.toNat % 1024))

/-- SPI_STATUS (R406): bit 0 tells that the last frame was discarded; no write is still queued, since each takes effect at once. -/
def execSpiStatus (s : State) : Host.Outcome State Fault Refusal :=
  .next (s.spiFrame true fun s => s.spiServed [if s.lnk.spiBad then 1 else 0])

/-- SPI_BAD_FRAME (R406): a frame with an unknown opcode, or cut short. -/
def execSpiBadFrame (s : State) : Host.Outcome State Fault Refusal := .next (s.spiFrame false id)

/-! ### Pads (R465, Table EL-12) -/

/-- What an output pad does: high-impedance, or an open drain that is released; a boundary cell's level; its function. -/
inductive PadOut (α : Type) where
  | highZ
  | cell (level : Bool)
  | func (x : α)
  deriving DecidableEq, Repr

/-- What the function of a pad does whose waveform the model does not hold. -/
inductive Drive where
  /-- Its block drives it. -/
  | live
  /-- Low, and idle. -/
  | low
  /-- XSPI_CS_N pulled up, the other pads of the flash high-impedance. -/
  | pulled
  /-- The transceiver receives only. -/
  | receiver
  /-- The DRAM pads hold the devices in self-refresh (R373). -/
  | retained
  /-- In RESET after a cold start: not stated. -/
  | unstated
  deriving DecidableEq, Repr

/-- What the output pads of Table EL-12 show. Those of the emitter, the scanner, the bias and LI_N keep their functional drive under every
JTAG instruction, their boundary cells being observe-only (R459); `none` is high-impedance. -/
structure Pads where
  /-- Column lines, row lines, EM_DAC and the pulses that EM_FIRE carries in the open slot: rise and end in ps (R195, R204, R462). -/
  emCol : Option Nat
  emRow : Option Nat
  emDac : Option Nat
  emFire : Option (List (Nat × Nat))
  /-- Compares and enables of HLM_PWM[7:0] (R233, R263). -/
  pwm : Option (List Nat)
  /-- The code of VHV_SET, 0 V in RESET (R57). -/
  vhvSet : Nat
  /-- LI_N is high; low in RESET (R251). -/
  li : Bool
  /-- AUX_EXC pins that carry a current; none in RESET and RECOVERY (R316, R318, R323). -/
  exc : Option (List Nat)
  /-- HDG_OK (R271). -/
  ok : PadOut HdgOk
  /-- FAULT_N and IRQ_N[1:0], driven low or released (R437). -/
  fault : PadOut Unit
  irq0 : PadOut Unit
  irq1 : PadOut Unit
  /-- Transmit halves of the Ethernet ports that work (R403). -/
  eth : List Nat
  /-- LTX of the four lanes (R387, R402). -/
  ltx : List (PadOut LtxOut)
  /-- The DRAM, the flash, the management SPI's MISO, the I2C bus, MER_SYNC and the headland transmitters. -/
  ddr : PadOut Drive
  xspi : PadOut Drive
  miso : PadOut Drive
  i2c : PadOut Drive
  merSync : PadOut Drive
  hdlTx : PadOut Drive
  /-- TDO with the register that the instruction selects; high-impedance in RESET. -/
  tdo : Option Nat
  deriving DecidableEq, Repr

/-- AUX_EXC pins that front end `i` drives: its own, and its partner's in 3-wire and 4-wire, while the excitation is on (R315, R316). The
exchange of R318 swaps the two currents between the same two pins. -/
def State.excPinsOf (s : State) (i : Nat) : List Nat :=
  if s.adcRuns && excites (s.feMode i) && (s.fe i).on then (if paired (s.feMode i) then [i, i + 1] else [i]) else []

/-- The pads of `x`, where a JTAG instruction takes them over from their function: cell `k`, or high-impedance (R459; log entry 240). -/
def State.padOut {α : Type} (s : State) (k : Nat) (x : PadOut α) : PadOut α :=
  match s.sys.jtag with
  | .extest | .extestPulse | .extestTrain | .clamp => .cell (Config.boundaryCell s.sys.cells k)
  | .highz => .highZ
  | _ => x

/-- The output pads (R465): in RESET as its column of Table EL-12 states. -/
def State.pads (s : State) : Pads :=
  let quiet := s.mode == mRESET
  let live {α : Type} (x : α) : Option α := if quiet then none else some x
  let wired (k : Nat) (b : Bool) : PadOut Unit := s.padOut k (if b && !quiet then .func () else .highZ)
  let bus (k : Nat) (rest work : PadOut Drive) : PadOut Drive := s.padOut k (if quiet then rest else work)
  { emCol := live s.emi.colsOut
    emRow := live s.emi.rowsOut
    emDac := live (s.rd F.EMI_CHG_STATUS_DAC_CODE)
    emFire := live s.emi.shot.train
    pwm := live s.hlm.pins
    vhvSet := if quiet then 0 else s.rd F.DET_BIAS_STATUS_VHV_SET_CODE
    li := s.on F.HDG_STATUS_LI_LEVEL && !quiet
    exc := live ((List.range 8).flatMap s.excPinsOf)
    ok := s.padOut 0 (.func s.hdg.okPin)
    fault := wired 1 s.faultPin
    irq0 := wired 2 (s.summary 0x20)
    irq1 := wired 3 (s.summary 0x21)
    eth := if quiet then [] else (List.range 2).filter fun e => s.txOn e
    ltx := (List.range 4).map fun l =>
      s.padOut (4 + l) (if quiet then .func .idle else if s.ltx l = .highZ then .highZ else .func (s.ltx l))
    ddr := bus 8 (.func (if s.mem.retained then .retained else .unstated)) (.func .live)
    xspi := bus 9 (.func .pulled) (.func .live)
    miso := bus 10 .highZ .highZ
    i2c := bus 11 .highZ (if s.lnk.i2c.isSome then .func .live else .highZ)
    merSync := bus 12 (.func .receiver) (if s.on F.MER_CTRL_EN then .func .live else .func .receiver)
    hdlTx := bus 13 (.func .low) (.func .live)
    tdo := live s.sys.tdo }

/-! ### JTAG (R459) -/

/-- Loads a JTAG instruction. Those that drive the boundary make the hedge hold LI_N low. -/
def State.jtagLoad (s : State) (j : Jtag) : State :=
  let s := s.sy fun x => { x with jtag := j }
  s.setLi (s.gst == gRELEASED)

/-- The 32 bits of IDCODE. -/
def idcode : Nat := 0x1 * 2 ^ 28 + 0x1152 * 2 ^ 12 + Config.jtagManufacturer.toNat * 2 + 1

/-- BYPASS (R459): every instruction code without a name of its own acts as this one. -/
def execBypass (s : State) : Host.Outcome State Fault Refusal := .next ((s.jtagLoad .bypass).sy fun x => { x with tdo := 0 })

/-- IDCODE (R459): the data register holds the identification. -/
def execIdcode (s : State) : Host.Outcome State Fault Refusal := .next ((s.jtagLoad .idcode).sy fun x => { x with tdo := idcode })

/-- The boundary register captures the pads: which cell stands where is not stated, so that the data is free. -/
def State.capture (s : State) : State :=
  let (v, s) := s.drawFree 32
  s.sy fun x => { x with tdo := v }

/-- SAMPLE/PRELOAD (R459): the boundary register captures the pads and loads the cells; the pins keep their functional drive. -/
def execSamplePreload (s : State) : Host.Outcome State Fault Refusal :=
  .next (((s.jtagLoad .samplePreload).capture).sy fun x => { x with cells := x.cells + 1 })

/-- EXTEST (R459): the cells drive the pads that they may, and capture them. -/
def execExtest (s : State) : Host.Outcome State Fault Refusal := .next (s.jtagLoad .extest).capture

/-- EXTEST_PULSE (R459). -/
def execExtestPulse (s : State) : Host.Outcome State Fault Refusal := .next (s.jtagLoad .extestPulse).capture

/-- EXTEST_TRAIN (R459). -/
def execExtestTrain (s : State) : Host.Outcome State Fault Refusal := .next (s.jtagLoad .extestTrain).capture

/-- CLAMP (R459): the data register is the bypass register. -/
def execClamp (s : State) : Host.Outcome State Fault Refusal := .next ((s.jtagLoad .clamp).sy fun x => { x with tdo := 0 })

/-- HIGHZ (R459): the data register is the bypass register. -/
def execHighz (s : State) : Host.Outcome State Fault Refusal := .next ((s.jtagLoad .highz).sy fun x => { x with tdo := 0 })

end Sys2Proof.Machine
end

