-- ==== Sys2Proof/Machine/Dispatch.lean ====
section
/-! DEFINITION. Every command's meaning: one arm per constructor. -/

namespace Sys2Proof.Machine

/-- The effect of a command on everything but the queue. -/
def exec (i : Instr) (s : State) : Host.Outcome State Fault Refusal :=
  match i with
  | .resetNLow => Sys2Proof.Machine.execResetNLow s
  | .resetEnd recov merId t => Sys2Proof.Machine.execResetEnd recov merId t s
  | .coreReset => Sys2Proof.Machine.execCoreReset s
  | .hedgePowerOn straps floats => Sys2Proof.Machine.execHedgePowerOn straps floats s
  | .mainPllLockLoss => Sys2Proof.Machine.execMainPllLockLoss s
  | .tillerPllLockLoss => Sys2Proof.Machine.execTillerPllLockLoss s
  | .managementPllLockLoss => Sys2Proof.Machine.execManagementPllLockLoss s
  | .lockstepMismatch t => Sys2Proof.Machine.execLockstepMismatch t s
  | .refSelChange sel present => Sys2Proof.Machine.execRefSelChange sel present s
  | .pllRelockComplete => Sys2Proof.Machine.execPllRelockComplete s
  | .registerAccessTimeout a => Sys2Proof.Machine.execRegisterAccessTimeout a s
  | .registerWrite m a w t => Sys2Proof.Machine.execRegisterWrite m a w t s
  | .rcRead a => Sys2Proof.Machine.execRcRead a s
  | .pfNFall => Sys2Proof.Machine.execPfNFall s
  | .sysPf => Sys2Proof.Machine.execSysPf s
  | .pfNRise => Sys2Proof.Machine.execPfNRise s
  | .orderlyStopComplete => Sys2Proof.Machine.execOrderlyStopComplete s
  | .spinTimeout => Sys2Proof.Machine.execSpinTimeout s
  | .spinUpLockAchieved => Sys2Proof.Machine.execSpinUpLockAchieved s
  | .modeStandby m tag => Sys2Proof.Machine.execModeStandby m tag s
  | .modeScan m tag => Sys2Proof.Machine.execModeScan m tag s
  | .modeCalibrate m tag => Sys2Proof.Machine.execModeCalibrate m tag s
  | .derateEnter m tag => Sys2Proof.Machine.execDerateEnter m tag s
  | .derateRelease m tag => Sys2Proof.Machine.execDerateRelease m tag s
  | .resetWarm m tag => Sys2Proof.Machine.execResetWarm m tag s
  | .resetCold m tag => Sys2Proof.Machine.execResetCold m tag s
  | .enterRecovery m tag => Sys2Proof.Machine.execEnterRecovery m tag s
  | .modeQuery m tag => Sys2Proof.Machine.execModeQuery m tag s
  | .maskCommit => Sys2Proof.Machine.execMaskCommit s
  | .maskCommitCopy => Sys2Proof.Machine.execMaskCommitCopy s
  | .probeStart => Sys2Proof.Machine.execProbeStart s
  | .probeGateEnd => Sys2Proof.Machine.execProbeGateEnd s
  | .biasEnable => Sys2Proof.Machine.execBiasEnable s
  | .biasDisable => Sys2Proof.Machine.execBiasDisable s
  | .biasSettled => Sys2Proof.Machine.execBiasSettled s
  | .biasLoopUpdate meas => Sys2Proof.Machine.execBiasLoopUpdate meas s
  | .biasTargetRecompute => Sys2Proof.Machine.execBiasTargetRecompute s
  | .tempStale => Sys2Proof.Machine.execTempStale s
  | .biasMonitorEntry high t => Sys2Proof.Machine.execBiasMonitorEntry high t s
  | .biasMonitorClear high => Sys2Proof.Machine.execBiasMonitorClear high s
  | .biasFlapRelease => Sys2Proof.Machine.execBiasFlapRelease s
  | .spadFiring c p t => Sys2Proof.Machine.execSpadFiring c p t s
  | .tdcEdge c t rawCoarse rawPhase => Sys2Proof.Machine.execTdcEdge c t rawCoarse rawPhase s
  | .dllUnlock col => Sys2Proof.Machine.execDllUnlock col s
  | .dllRelock col => Sys2Proof.Machine.execDllRelock col s
  | .dllRelockRetry col => Sys2Proof.Machine.execDllRelockRetry col s
  | .dllTrimLimit col => Sys2Proof.Machine.execDllTrimLimit col s
  | .tdcCommit => Sys2Proof.Machine.execTdcCommit s
  | .tdcCommitCopy => Sys2Proof.Machine.execTdcCommitCopy s
  | .testSourceSelect src => Sys2Proof.Machine.execTestSourceSelect src s
  | .snoopArm channel kindAll => Sys2Proof.Machine.execSnoopArm channel kindAll s
  | .counterClearAll => Sys2Proof.Machine.execCounterClearAll s
  | .counterClearSel => Sys2Proof.Machine.execCounterClearSel s
  | .eventWord f t => Sys2Proof.Machine.execEventWord f t s
  | .pointCyclesStart t => Sys2Proof.Machine.execPointCyclesStart t s
  | .slotPrepare => Sys2Proof.Machine.execSlotPrepare s
  | .shotSlotOpen t => Sys2Proof.Machine.execShotSlotOpen t s
  | .fallowSlotOpen t => Sys2Proof.Machine.execFallowSlotOpen t s
  | .lanePublication f => Sys2Proof.Machine.execLanePublication f s
  | .harrowDeadline => Sys2Proof.Machine.execHarrowDeadline s
  | .windowWrite n => Sys2Proof.Machine.execWindowWrite n s
  | .depthWrite n => Sys2Proof.Machine.execDepthWrite n s
  | .harrowBankSwap t => Sys2Proof.Machine.execHarrowBankSwap t s
  | .bankFreeze => Sys2Proof.Machine.execBankFreeze s
  | .bankClearComplete => Sys2Proof.Machine.execBankClearComplete s
  | .run n => Sys2Proof.Machine.execRun n s
  | .halt n => Sys2Proof.Machine.execHalt n s
  | .haltAtBoundary n => Sys2Proof.Machine.execHaltAtBoundary n s
  | .step n t => Sys2Proof.Machine.execStep n t s
  | .memInit n => Sys2Proof.Machine.execMemInit n s
  | .memInitComplete n => Sys2Proof.Machine.execMemInitComplete n s
  | .groupRun => Sys2Proof.Machine.execGroupRun s
  | .groupHalt => Sys2Proof.Machine.execGroupHalt s
  | .tilPcWrite n w => Sys2Proof.Machine.execTilPcWrite n w s
  | .breakpoint n => Sys2Proof.Machine.execBreakpoint n s
  | .tillerMemoryWrite n ofs bytes data => Sys2Proof.Machine.execTillerMemoryWrite n ofs bytes data s
  | .tillerMemoryRead n ofs bytes => Sys2Proof.Machine.execTillerMemoryRead n ofs bytes s
  | .broadcastWrite ofs bytes data => Sys2Proof.Machine.execBroadcastWrite ofs bytes data s
  | .scrubRead n found => Sys2Proof.Machine.execScrubRead n found s
  | .attention n t => Sys2Proof.Machine.execAttention n t s
  | .dlAlarm n => Sys2Proof.Machine.execDlAlarm n s
  | .ownershipEnd => Sys2Proof.Machine.execOwnershipEnd s
  | .emitAdmission waited => Sys2Proof.Machine.execEmitAdmission waited s
  | .blockAccepted => Sys2Proof.Machine.execBlockAccepted s
  | .stagingRecord bad => Sys2Proof.Machine.execStagingRecord bad s
  | .illegalInstruction n => Sys2Proof.Machine.execIllegalInstruction n s
  | .imemUeFetch n => Sys2Proof.Machine.execImemUeFetch n s
  | .add n rd ra rb => Sys2Proof.Machine.execAdd n rd ra rb s
  | .sub n rd ra rb => Sys2Proof.Machine.execSub n rd ra rb s
  | .and n rd ra rb => Sys2Proof.Machine.execAnd n rd ra rb s
  | .or n rd ra rb => Sys2Proof.Machine.execOr n rd ra rb s
  | .xor n rd ra rb => Sys2Proof.Machine.execXor n rd ra rb s
  | .sll n rd ra rb => Sys2Proof.Machine.execSll n rd ra rb s
  | .srl n rd ra rb => Sys2Proof.Machine.execSrl n rd ra rb s
  | .sra n rd ra rb => Sys2Proof.Machine.execSra n rd ra rb s
  | .slt n rd ra rb => Sys2Proof.Machine.execSlt n rd ra rb s
  | .sltu n rd ra rb => Sys2Proof.Machine.execSltu n rd ra rb s
  | .min n rd ra rb => Sys2Proof.Machine.execMin n rd ra rb s
  | .max n rd ra rb => Sys2Proof.Machine.execMax n rd ra rb s
  | .minu n rd ra rb => Sys2Proof.Machine.execMinu n rd ra rb s
  | .maxu n rd ra rb => Sys2Proof.Machine.execMaxu n rd ra rb s
  | .mul n rd ra rb => Sys2Proof.Machine.execMul n rd ra rb s
  | .mulh n rd ra rb => Sys2Proof.Machine.execMulh n rd ra rb s
  | .mulhu n rd ra rb => Sys2Proof.Machine.execMulhu n rd ra rb s
  | .divu n rd ra rb => Sys2Proof.Machine.execDivu n rd ra rb s
  | .remu n rd ra rb => Sys2Proof.Machine.execRemu n rd ra rb s
  | .cmp n ra rb => Sys2Proof.Machine.execCmp n ra rb s
  | .tst n ra rb => Sys2Proof.Machine.execTst n ra rb s
  | .slli til rd ra n => Sys2Proof.Machine.execSlli til rd ra n s
  | .srli til rd ra n => Sys2Proof.Machine.execSrli til rd ra n s
  | .srai til rd ra n => Sys2Proof.Machine.execSrai til rd ra n s
  | .extu n rd ra pos width => Sys2Proof.Machine.execExtu n rd ra pos width s
  | .clz n rd ra => Sys2Proof.Machine.execClz n rd ra s
  | .popc n rd ra => Sys2Proof.Machine.execPopc n rd ra s
  | .adds n rd ra rb => Sys2Proof.Machine.execAdds n rd ra rb s
  | .subs n rd ra rb => Sys2Proof.Machine.execSubs n rd ra rb s
  | .addi n rd ra imm => Sys2Proof.Machine.execAddi n rd ra imm s
  | .andi n rd ra imm => Sys2Proof.Machine.execAndi n rd ra imm s
  | .ori n rd ra imm => Sys2Proof.Machine.execOri n rd ra imm s
  | .xori n rd ra imm => Sys2Proof.Machine.execXori n rd ra imm s
  | .lui n rd imm => Sys2Proof.Machine.execLui n rd imm s
  | .cmpi n ra imm => Sys2Proof.Machine.execCmpi n ra imm s
  | .slti n rd ra imm => Sys2Proof.Machine.execSlti n rd ra imm s
  | .lw n rd ra imm t => Sys2Proof.Machine.execLw n rd ra imm t s
  | .sw n rs ra imm => Sys2Proof.Machine.execSw n rs ra imm s
  | .vld n vd ra imm => Sys2Proof.Machine.execVld n vd ra imm s
  | .vst n vs ra imm => Sys2Proof.Machine.execVst n vs ra imm s
  | .vbwl n vd ra rb => Sys2Proof.Machine.execVbwl n vd ra rb s
  | .bc n cond off => Sys2Proof.Machine.execBc n cond off s
  | .jal n rd off => Sys2Proof.Machine.execJal n rd off s
  | .jalr n rd ra imm => Sys2Proof.Machine.execJalr n rd ra imm s
  | .vadd n w vd va vb => Sys2Proof.Machine.execVadd n w vd va vb s
  | .vsub n w vd va vb => Sys2Proof.Machine.execVsub n w vd va vb s
  | .vaddsu n w vd va vb => Sys2Proof.Machine.execVaddsu n w vd va vb s
  | .vsubsu n w vd va vb => Sys2Proof.Machine.execVsubsu n w vd va vb s
  | .vadds n w vd va vb => Sys2Proof.Machine.execVadds n w vd va vb s
  | .vsubs n w vd va vb => Sys2Proof.Machine.execVsubs n w vd va vb s
  | .vmul n w vd va vb => Sys2Proof.Machine.execVmul n w vd va vb s
  | .vmin n w vd va vb => Sys2Proof.Machine.execVmin n w vd va vb s
  | .vmax n w vd va vb => Sys2Proof.Machine.execVmax n w vd va vb s
  | .vmins n w vd va vb => Sys2Proof.Machine.execVmins n w vd va vb s
  | .vmaxs n w vd va vb => Sys2Proof.Machine.execVmaxs n w vd va vb s
  | .vand n w vd va vb => Sys2Proof.Machine.execVand n w vd va vb s
  | .vor n w vd va vb => Sys2Proof.Machine.execVor n w vd va vb s
  | .vxor n w vd va vb => Sys2Proof.Machine.execVxor n w vd va vb s
  | .vcmpeq n w vd va vb => Sys2Proof.Machine.execVcmpeq n w vd va vb s
  | .vcmpgtu n w vd va vb => Sys2Proof.Machine.execVcmpgtu n w vd va vb s
  | .vcmpgt n w vd va vb => Sys2Proof.Machine.execVcmpgt n w vd va vb s
  | .vsel n vd va vb => Sys2Proof.Machine.execVsel n vd va vb s
  | .vslli til w vd va n => Sys2Proof.Machine.execVslli til w vd va n s
  | .vsrli til w vd va n => Sys2Proof.Machine.execVsrli til w vd va n s
  | .vsrai til w vd va n => Sys2Proof.Machine.execVsrai til w vd va n s
  | .vzxl n vd va => Sys2Proof.Machine.execVzxl n vd va s
  | .vzxh n vd va => Sys2Proof.Machine.execVzxh n vd va s
  | .vnars n vd va vb => Sys2Proof.Machine.execVnars n vd va vb s
  | .vsplat n w vd ra => Sys2Proof.Machine.execVsplat n w vd ra s
  | .vext n w rd va lane => Sys2Proof.Machine.execVext n w rd va lane s
  | .vins n w vd ra lane => Sys2Proof.Machine.execVins n w vd ra lane s
  | .vrsum n w rd va => Sys2Proof.Machine.execVrsum n w rd va s
  | .vrmaxu n w rd va => Sys2Proof.Machine.execVrmaxu n w rd va s
  | .vmacc n vd va vb p => Sys2Proof.Machine.execVmacc n vd va vb p s
  | .vpidx n rd va rb => Sys2Proof.Machine.execVpidx n rd va rb s
  | .vcent n rd va rb => Sys2Proof.Machine.execVcent n rd va rb s
  | .vcoat n vd va rb => Sys2Proof.Machine.execVcoat n vd va rb s
  | .fsend n ra => Sys2Proof.Machine.execFsend n ra s
  | .fsendStallEnd n => Sys2Proof.Machine.execFsendStallEnd n s
  | .frecvN n rd => Sys2Proof.Machine.execFrecvN n rd s
  | .frecvW n rd => Sys2Proof.Machine.execFrecvW n rd s
  | .frecvWComplete n => Sys2Proof.Machine.execFrecvWComplete n s
  | .emit n rd ra rb => Sys2Proof.Machine.execEmit n rd ra rb s
  | .nop n => Sys2Proof.Machine.execNop n s
  | .trap n => Sys2Proof.Machine.execTrap n s
  | .tret n => Sys2Proof.Machine.execTret n s
  | .aret n => Sys2Proof.Machine.execAret n s
  | .fence n => Sys2Proof.Machine.execFence n s
  | .rdfl n rd => Sys2Proof.Machine.execRdfl n rd s
  | .wrfl n ra => Sys2Proof.Machine.execWrfl n ra s
  | .programBankProcess n t => Sys2Proof.Machine.execProgramBankProcess n t s
  | .tNowUpdate => Sys2Proof.Machine.execTNowUpdate s
  | .emitterEnable => Sys2Proof.Machine.execEmitterEnable s
  | .emitterDisable => Sys2Proof.Machine.execEmitterDisable s
  | .faultClr => Sys2Proof.Machine.execFaultClr s
  | .shortTest => Sys2Proof.Machine.execShortTest s
  | .lineTestStep sense => Sys2Proof.Machine.execLineTestStep sense s
  | .lineTestPassEnd => Sys2Proof.Machine.execLineTestPassEnd s
  | .curveCommit => Sys2Proof.Machine.execCurveCommit s
  | .curveCommitCopy => Sys2Proof.Machine.execCurveCommitCopy s
  | .seedMapWrite b e hi w => Sys2Proof.Machine.execSeedMapWrite b e hi w s
  | .sweepSync t => Sys2Proof.Machine.execSweepSync t s
  | .chargeCheck fb => Sys2Proof.Machine.execChargeCheck fb s
  | .emFireEdge t late => Sys2Proof.Machine.execEmFireEdge t late s
  | .dacUpdate => Sys2Proof.Machine.execDacUpdate s
  | .monitorEdge t => Sys2Proof.Machine.execMonitorEdge t s
  | .monitorWindowClose => Sys2Proof.Machine.execMonitorWindowClose s
  | .dischargeComplete fb => Sys2Proof.Machine.execDischargeComplete fb s
  | .disTimeout => Sys2Proof.Machine.execDisTimeout s
  | .lbWatchEnable => Sys2Proof.Machine.execLbWatchEnable s
  | .lbWatchDisable => Sys2Proof.Machine.execLbWatchDisable s
  | .lbStageRise t => Sys2Proof.Machine.execLbStageRise t s
  | .lbStageFall t => Sys2Proof.Machine.execLbStageFall t s
  | .lbStale t => Sys2Proof.Machine.execLbStale t s
  | .helmTick t hall faultLow => Sys2Proof.Machine.execHelmTick t hall faultLow s
  | .encoderTransition a b t => Sys2Proof.Machine.execEncoderTransition a b t s
  | .encoderIndex => Sys2Proof.Machine.execEncoderIndex s
  | .facetCrossing t => Sys2Proof.Machine.execFacetCrossing t s
  | .helmEnable => Sys2Proof.Machine.execHelmEnable s
  | .helmDisable => Sys2Proof.Machine.execHelmDisable s
  | .lawCommit => Sys2Proof.Machine.execLawCommit s
  | .helmFaultClear => Sys2Proof.Machine.execHelmFaultClear s
  | .traceArm => Sys2Proof.Machine.execTraceArm s
  | .traceForce => Sys2Proof.Machine.execTraceForce s
  | .speedRefWrite w => Sys2Proof.Machine.execSpeedRefWrite w s
  | .catchMeasureEnd => Sys2Proof.Machine.execCatchMeasureEnd s
  | .lockAttempt => Sys2Proof.Machine.execLockAttempt s
  | .unlock t => Sys2Proof.Machine.execUnlock t s
  | .lockFlapRelease => Sys2Proof.Machine.execLockFlapRelease s
  | .handoverEnd => Sys2Proof.Machine.execHandoverEnd s
  | .standstill => Sys2Proof.Machine.execStandstill s
  | .brakeTimeout => Sys2Proof.Machine.execBrakeTimeout s
  | .stall => Sys2Proof.Machine.execStall s
  | .bridgeFault => Sys2Proof.Machine.execBridgeFault s
  | .hallFault => Sys2Proof.Machine.execHallFault s
  | .tiltSense => Sys2Proof.Machine.execTiltSense s
  | .tiltTrack => Sys2Proof.Machine.execTiltTrack s
  | .hedgeEncoderCount a b => Sys2Proof.Machine.execHedgeEncoderCount a b s
  | .speedFrameEnd err => Sys2Proof.Machine.execSpeedFrameEnd err s
  | .hedgeRelease => Sys2Proof.Machine.execHedgeRelease s
  | .hedgeRequestChange => Sys2Proof.Machine.execHedgeRequestChange s
  | .hedgeTiltConversion code => Sys2Proof.Machine.execHedgeTiltConversion code s
  | .fovDwellExpiry => Sys2Proof.Machine.execFovDwellExpiry s
  | .powerCodeEntry => Sys2Proof.Machine.execPowerCodeEntry s
  | .correctionEntry => Sys2Proof.Machine.execCorrectionEntry s
  | .energyBucketRoll => Sys2Proof.Machine.execEnergyBucketRoll s
  | .liReadback level => Sys2Proof.Machine.execLiReadback level s
  | .hedgeChannelMismatch => Sys2Proof.Machine.execHedgeChannelMismatch s
  | .pwmGate => Sys2Proof.Machine.execPwmGate s
  | .strapReread straps floats => Sys2Proof.Machine.execStrapReread straps floats s
  | .limitRecheck upset => Sys2Proof.Machine.execLimitRecheck upset s
  | .sealLock => Sys2Proof.Machine.execSealLock s
  | .safeRstLowRegistered t => Sys2Proof.Machine.execSafeRstLowRegistered t s
  | .safeRstHighRegistered t => Sys2Proof.Machine.execSafeRstHighRegistered t s
  | .safeRstStuck => Sys2Proof.Machine.execSafeRstStuck s
  | .resetPairComplete => Sys2Proof.Machine.execResetPairComplete s
  | .meridianEnable => Sys2Proof.Machine.execMeridianEnable s
  | .listenEnd t => Sys2Proof.Machine.execListenEnd t s
  | .rtRestart => Sys2Proof.Machine.execRtRestart s
  | .trigSend => Sys2Proof.Machine.execTrigSend s
  | .epochDue t => Sys2Proof.Machine.execEpochDue t s
  | .pingDue => Sys2Proof.Machine.execPingDue s
  | .frameLaunch t a => Sys2Proof.Machine.execFrameLaunch t a s
  | .sweepFrame b => Sys2Proof.Machine.execSweepFrame b s
  | .epochFrame b => Sys2Proof.Machine.execEpochFrame b s
  | .pingFrame unit b => Sys2Proof.Machine.execPingFrame unit b s
  | .pongLaunch => Sys2Proof.Machine.execPongLaunch s
  | .pongFrame unit seed r d => Sys2Proof.Machine.execPongFrame unit seed r d s
  | .pongTimeout => Sys2Proof.Machine.execPongTimeout s
  | .delayCompute => Sys2Proof.Machine.execDelayCompute s
  | .delayFrame unit d16 b => Sys2Proof.Machine.execDelayFrame unit d16 b s
  | .trigFrame b => Sys2Proof.Machine.execTrigFrame b s
  | .badFrame => Sys2Proof.Machine.execBadFrame s
  | .frameApplication t => Sys2Proof.Machine.execFrameApplication t s
  | .alignmentAverage => Sys2Proof.Machine.execAlignmentAverage s
  | .phaseStep => Sys2Proof.Machine.execPhaseStep s
  | .meridianLost => Sys2Proof.Machine.execMeridianLost s
  | .captureEnable => Sys2Proof.Machine.execCaptureEnable s
  | .captureDisable => Sys2Proof.Machine.execCaptureDisable s
  | .captureShutdownComplete => Sys2Proof.Machine.execCaptureShutdownComplete s
  | .captureArm => Sys2Proof.Machine.execCaptureArm s
  | .captureForce t => Sys2Proof.Machine.execCaptureForce t s
  | .captureRecordComplete => Sys2Proof.Machine.execCaptureRecordComplete s
  | .sextantEnable => Sys2Proof.Machine.execSextantEnable s
  | .sextantDisable => Sys2Proof.Machine.execSextantDisable s
  | .sextantArm => Sys2Proof.Machine.execSextantArm s
  | .sextantStartEdge coarse f t => Sys2Proof.Machine.execSextantStartEdge coarse f t s
  | .sextantStopEdge coarse f t => Sys2Proof.Machine.execSextantStopEdge coarse f t s
  | .sextantMeasurementTimeout => Sys2Proof.Machine.execSextantMeasurementTimeout s
  | .sextantSetComplete => Sys2Proof.Machine.execSextantSetComplete s
  | .sxtGateEdge level t => Sys2Proof.Machine.execSxtGateEdge level t s
  | .cdtRun => Sys2Proof.Machine.execCdtRun s
  | .cdtRunComplete hitsStart hitsStop => Sys2Proof.Machine.execCdtRunComplete hitsStart hitsStop s
  | .cdtCommit => Sys2Proof.Machine.execCdtCommit s
  | .adcEnable => Sys2Proof.Machine.execAdcEnable s
  | .adcDisable => Sys2Proof.Machine.execAdcDisable s
  | .adcSample half t => Sys2Proof.Machine.execAdcSample half t s
  | .hostUrgentRequest input => Sys2Proof.Machine.execHostUrgentRequest input s
  | .urgentSample half t => Sys2Proof.Machine.execUrgentSample half t s
  | .feConfigWrite fe r w t => Sys2Proof.Machine.execFeConfigWrite fe r w t s
  | .settleEnd fe => Sys2Proof.Machine.execSettleEnd fe s
  | .excitationPulseOn fe => Sys2Proof.Machine.execExcitationPulseOn fe s
  | .excitationPulseOff fe => Sys2Proof.Machine.execExcitationPulseOff fe s
  | .currentSwap fe => Sys2Proof.Machine.execCurrentSwap fe s
  | .rangeFlapRelease fe => Sys2Proof.Machine.execRangeFlapRelease fe s
  | .excitationFaultEntry fe t => Sys2Proof.Machine.execExcitationFaultEntry fe t s
  | .excitationFaultClear fe => Sys2Proof.Machine.execExcitationFaultClear fe s
  | .excFlapRelease fe => Sys2Proof.Machine.execExcFlapRelease fe s
  | .codeDensityItem => Sys2Proof.Machine.execCodeDensityItem s
  | .rangeZeroItem => Sys2Proof.Machine.execRangeZeroItem s
  | .spadSurvey => Sys2Proof.Machine.execSpadSurvey s
  | .planEnd t => Sys2Proof.Machine.execPlanEnd t s
  | .clrField => Sys2Proof.Machine.execClrField s
  | .rzDriftEntry t => Sys2Proof.Machine.execRzDriftEntry t s
  | .rzDriftClear => Sys2Proof.Machine.execRzDriftClear s
  | .rzFlapRelease => Sys2Proof.Machine.execRzFlapRelease s
  | .rerunDue => Sys2Proof.Machine.execRerunDue s
  | .legacyCommit => Sys2Proof.Machine.execLegacyCommit s
  | .legacyInterpolation => Sys2Proof.Machine.execLegacyInterpolation s
  | .fuseBurn key => Sys2Proof.Machine.execFuseBurn key s
  | .fuseBurnComplete bad => Sys2Proof.Machine.execFuseBurnComplete bad s
  | .journalSave => Sys2Proof.Machine.execJournalSave s
  | .journalSaveComplete ok => Sys2Proof.Machine.execJournalSaveComplete ok s
  | .sensorConversion k v => Sys2Proof.Machine.execSensorConversion k v s
  | .sensorFail k cause => Sys2Proof.Machine.execSensorFail k cause s
  | .readmit k => Sys2Proof.Machine.execReadmit k s
  | .retire k => Sys2Proof.Machine.execRetire k s
  | .thermalIndicatorEntry inds t => Sys2Proof.Machine.execThermalIndicatorEntry inds t s
  | .thermalIndicatorExit inds => Sys2Proof.Machine.execThermalIndicatorExit inds s
  | .thmFlapRelease => Sys2Proof.Machine.execThmFlapRelease s
  | .thermalTrip k => Sys2Proof.Machine.execThermalTrip k s
  | .thermalTripRelease => Sys2Proof.Machine.execThermalTripRelease s
  | .compensationUpdate rings rails => Sys2Proof.Machine.execCompensationUpdate rings rails s
  | .railMonitorEntry r mv t => Sys2Proof.Machine.execRailMonitorEntry r mv t s
  | .railMonitorClear r mv => Sys2Proof.Machine.execRailMonitorClear r mv s
  | .shadowParityCheck error => Sys2Proof.Machine.execShadowParityCheck error s
  | .memoryEnable => Sys2Proof.Machine.execMemoryEnable s
  | .selfRefreshEntry => Sys2Proof.Machine.execSelfRefreshEntry s
  | .selfRefreshExit => Sys2Proof.Machine.execSelfRefreshExit s
  | .selfRefreshEntryComplete => Sys2Proof.Machine.execSelfRefreshEntryComplete s
  | .selfRefreshExitComplete => Sys2Proof.Machine.execSelfRefreshExitComplete s
  | .init => Sys2Proof.Machine.execInit s
  | .initComplete => Sys2Proof.Machine.execInitComplete s
  | .memoryRequestServed p idx link found => Sys2Proof.Machine.execMemoryRequestServed p idx link found s
  | .requestUrgent p idx => Sys2Proof.Machine.execRequestUrgent p idx s
  | .panicEntry p t => Sys2Proof.Machine.execPanicEntry p t s
  | .panicExit p => Sys2Proof.Machine.execPanicExit p s
  | .refresh ch bank panicWaits => Sys2Proof.Machine.execRefresh ch bank panicWaits s
  | .refreshRatePoll ch code rate t => Sys2Proof.Machine.execRefreshRatePoll ch code rate t s
  | .hotspotWindow ch bank share t => Sys2Proof.Machine.execHotspotWindow ch bank share t s
  | .scrubPassRead found => Sys2Proof.Machine.execScrubPassRead found s
  | .mrCommand read ch rank ma op => Sys2Proof.Machine.execMrCommand read ch rank ma op s
  | .mrCommandComplete data => Sys2Proof.Machine.execMrCommandComplete data s
  | .trainingSweep => Sys2Proof.Machine.execTrainingSweep s
  | .trainingSweepComplete masks => Sys2Proof.Machine.execTrainingSweepComplete masks s
  | .configRequest write r w => Sys2Proof.Machine.execConfigRequest write r w s
  | .bar0Request write a len data ep t => Sys2Proof.Machine.execBar0Request write a len data ep t s
  | .bar2Request write o len data ep => Sys2Proof.Machine.execBar2Request write o len data ep s
  | .pcieReset down => Sys2Proof.Machine.execPcieReset down s
  | .linkChange who up width speed => Sys2Proof.Machine.execLinkChange who up width speed s
  | .ethFrameReceived e f fcsBad t => Sys2Proof.Machine.execEthFrameReceived e f fcsBad t s
  | .packetiserRecord bad => Sys2Proof.Machine.execPacketiserRecord bad s
  | .packetSend e => Sys2Proof.Machine.execPacketSend e s
  | .flushTimer e => Sys2Proof.Machine.execFlushTimer e s
  | .ptpStep step t => Sys2Proof.Machine.execPtpStep step t s
  | .ptpRate rate t => Sys2Proof.Machine.execPtpRate rate t s
  | .syncSet => Sys2Proof.Machine.execSyncSet s
  | .syncHoldover => Sys2Proof.Machine.execSyncHoldover s
  | .ptpSnap t => Sys2Proof.Machine.execPtpSnap t s
  | .ptpTsRead => Sys2Proof.Machine.execPtpTsRead s
  | .losEntry l idle t => Sys2Proof.Machine.execLosEntry l idle t s
  | .losExit l => Sys2Proof.Machine.execLosExit l s
  | .lolEntry l t => Sys2Proof.Machine.execLolEntry l t s
  | .lolExit l => Sys2Proof.Machine.execLolExit l s
  | .laneFlapRelease l => Sys2Proof.Machine.execLaneFlapRelease l s
  | .loopbackSelect l loop prbs => Sys2Proof.Machine.execLoopbackSelect l loop prbs s
  | .txEnable e => Sys2Proof.Machine.execTxEnable e s
  | .txDisable e => Sys2Proof.Machine.execTxDisable e s
  | .rxEnable e => Sys2Proof.Machine.execRxEnable e s
  | .rxDisable e => Sys2Proof.Machine.execRxDisable e s
  | .laneShutdownComplete e k => Sys2Proof.Machine.execLaneShutdownComplete e k s
  | .lpiEntry e k => Sys2Proof.Machine.execLpiEntry e k s
  | .lpiWake e k => Sys2Proof.Machine.execLpiWake e k s
  | .mailboxClaim m v => Sys2Proof.Machine.execMailboxClaim m v s
  | .mailboxOwnershipLapse => Sys2Proof.Machine.execMailboxOwnershipLapse s
  | .mailboxDatagram e cmd arg buf t => Sys2Proof.Machine.execMailboxDatagram e cmd arg buf t s
  | .fwVersion m tag => Sys2Proof.Machine.execFwVersion m tag s
  | .serialLo m tag => Sys2Proof.Machine.execSerialLo m tag s
  | .serialHi m tag => Sys2Proof.Machine.execSerialHi m tag s
  | .flashRead m tag => Sys2Proof.Machine.execFlashRead m tag s
  | .updateBegin m tag => Sys2Proof.Machine.execUpdateBegin m tag s
  | .updateData m tag => Sys2Proof.Machine.execUpdateData m tag s
  | .updateEnd m tag t => Sys2Proof.Machine.execUpdateEnd m tag t s
  | .updateConfirm m tag t => Sys2Proof.Machine.execUpdateConfirm m tag t s
  | .i2cXfer m tag => Sys2Proof.Machine.execI2cXfer m tag s
  | .i2cTransferComplete result index data => Sys2Proof.Machine.execI2cTransferComplete result index data s
  | .logRead m tag => Sys2Proof.Machine.execLogRead m tag s
  | .settingsSave m tag => Sys2Proof.Machine.execSettingsSave m tag s
  | .spiWrite ofs d crc t => Sys2Proof.Machine.execSpiWrite ofs d crc t s
  | .spiRead ofs => Sys2Proof.Machine.execSpiRead ofs s
  | .spiWindow win crc => Sys2Proof.Machine.execSpiWindow win crc s
  | .spiStatus => Sys2Proof.Machine.execSpiStatus s
  | .spiBadFrame => Sys2Proof.Machine.execSpiBadFrame s
  | .startWatchdog t => Sys2Proof.Machine.execStartWatchdog t s
  | .failCountExpiry t => Sys2Proof.Machine.execFailCountExpiry t s
  | .cdDueRerun => Sys2Proof.Machine.execCdDueRerun s
  | .slotWriteComplete verified t => Sys2Proof.Machine.execSlotWriteComplete verified t s
  | .headlandSend => Sys2Proof.Machine.execHeadlandSend s
  | .headlandConfirm t => Sys2Proof.Machine.execHeadlandConfirm t s
  | .headlandOffer good hops total => Sys2Proof.Machine.execHeadlandOffer good hops total s
  | .headlandData good q ofs payload => Sys2Proof.Machine.execHeadlandData good q ofs payload s
  | .headlandEnd good q t => Sys2Proof.Machine.execHeadlandEnd good q t s
  | .headlandAck q => Sys2Proof.Machine.execHeadlandAck q s
  | .headlandNak q => Sys2Proof.Machine.execHeadlandNak q s
  | .headlandAbort downstream => Sys2Proof.Machine.execHeadlandAbort downstream s
  | .headlandResult h result => Sys2Proof.Machine.execHeadlandResult h result s
  | .headlandConfirmPacket hops t => Sys2Proof.Machine.execHeadlandConfirmPacket hops t s
  | .headlandResendTimeout => Sys2Proof.Machine.execHeadlandResendTimeout s
  | .headlandAutoStart => Sys2Proof.Machine.execHeadlandAutoStart s
  | .logbookEntryProgram => Sys2Proof.Machine.execLogbookEntryProgram s
  | .eventRaise t => Sys2Proof.Machine.execEventRaise t s
  | .pendingClear j w => Sys2Proof.Machine.execPendingClear j w s
  | .eventForce e => Sys2Proof.Machine.execEventForce e s
  | .counterConfigWrite k w => Sys2Proof.Machine.execCounterConfigWrite k w s
  | .counterLiveRead k => Sys2Proof.Machine.execCounterLiveRead k s
  | .clearAll => Sys2Proof.Machine.execClearAll s
  | .snap t => Sys2Proof.Machine.execSnap t s
  | .snapshotPeriod t => Sys2Proof.Machine.execSnapshotPeriod t s
  | .snapshotCopy => Sys2Proof.Machine.execSnapshotCopy s
  | .preciseSample n pc word wait lat cycle => Sys2Proof.Machine.execPreciseSample n pc word wait lat cycle s
  | .traceRecord => Sys2Proof.Machine.execTraceRecord s
  | .traceClr => Sys2Proof.Machine.execTraceClr s
  | .testEnHigh => Sys2Proof.Machine.execTestEnHigh s
  | .bypass => Sys2Proof.Machine.execBypass s
  | .idcode => Sys2Proof.Machine.execIdcode s
  | .samplePreload => Sys2Proof.Machine.execSamplePreload s
  | .extest => Sys2Proof.Machine.execExtest s
  | .extestPulse => Sys2Proof.Machine.execExtestPulse s
  | .extestTrain => Sys2Proof.Machine.execExtestTrain s
  | .clamp => Sys2Proof.Machine.execClamp s
  | .highz => Sys2Proof.Machine.execHighz s
  | .mainPllRelock => Sys2Proof.Machine.execMainPllRelock s
  | .tillerPllRelock => Sys2Proof.Machine.execTillerPllRelock s
  | .relockTimeout main tiller => Sys2Proof.Machine.execRelockTimeout main tiller s
  | .lineFaultClear r w => Sys2Proof.Machine.execLineFaultClear r w s
  | .lbFlapRelease => Sys2Proof.Machine.execLbFlapRelease s
  | .panicFlapRelease p => Sys2Proof.Machine.execPanicFlapRelease p s
  | .tempFlapRelease => Sys2Proof.Machine.execTempFlapRelease s
  | .hotFlapRelease => Sys2Proof.Machine.execHotFlapRelease s
  | .pwmPeriodStart tilt => Sys2Proof.Machine.execPwmPeriodStart tilt s
  | .startStepComplete ok failing nominal t => Sys2Proof.Machine.execStartStepComplete ok failing nominal t s
  | .frameLeftPort e marked seqId t => Sys2Proof.Machine.execFrameLeftPort e marked seqId t s
  | .pcieCompletion data ep => Sys2Proof.Machine.execPcieCompletion data ep s
  | .settingsSaveComplete ok => Sys2Proof.Machine.execSettingsSaveComplete ok s

end Sys2Proof.Machine
end

