-- ==== Sys2Proof/Machine/Step.lean ====
section
/-! DEFINITION. One step: the command at the front of the queue, or an idle tick on an empty queue. -/

namespace Sys2Proof.Machine

/-- A step (DESIGN CHOICE, log entry 1): the front command runs on the state that holds the rest of the queue. On an empty queue the
block idles, but for a sextant shutdown, which completes. -/
def step (s : State) : Host.Outcome State Fault Refusal :=
  match s.pending with
  | [] => .next s.sxtClosed
  | c :: rest => exec c { s with pending := rest }

/-- The host's placing of a command in front of the queue: the table gives no row bits, so no word spells a command. -/
def State.withFetchWord (s : State) (nbits w : Nat) : State :=
  match decodeTableWord nbits w with
  | some c => { s with pending := c :: s.pending }
  | none => s

end Sys2Proof.Machine
end

