-- ==== Sys2Proof/Safety.lean ====
section
/-! DEFINITION. What the claims call a sound state: memories and the register map in their one canonical form. -/

namespace Sys2Proof.Machine

/-- The canonical form of every byte memory of the device: local DRAM and the flash list rising addresses and no byte that an
unlisted address reads as (log entries 10 and 11). -/
def Memory.wf (s : State) : Bool := Tab.wf (fun _ => (0 : Byte)) s.mem.dram && Tab.wf (fun _ => (0xFF : Byte)) s.boot.flash

/-- The register map lists rising addresses, and no word that equals its reset value. -/
def State.regsWf (s : State) : Bool := Tab.wf resetWord s.regs

/-- A state in canonical form: equal memories and equal register maps are equal data. -/
def State.canonical (s : State) : Prop := s.regsWf = true ∧ Memory.wf s = true

/-! ### What a command may change -/

/-- The parts of the state beside the queue: the register map, the events raised, the model's counter of free values, the state of
each block, and the two byte memories on their own. -/
inductive Part where
  | regs | raised | freeIx | sys | det | tdc | his | til | oq | emi | mem | lnk | hlm | hdg | mer | cap | sxt | adc | cal | thm
  | boot | obs | dram | flash
  deriving DecidableEq, Repr

/-- The memory controller's state but for DRAM's bytes, and the boot state but for the flash's bytes. -/
def Mem.rest (m : Mem) : Mem := { m with dram := [] }
def Boot.rest (b : Boot) : Boot := { b with flash := [] }

/-- Part `p` is the same in both states. -/
def Part.same (p : Part) (s t : State) : Prop :=
  match p with
  | .regs => t.regs = s.regs
  | .raised => t.raises = s.raises
  | .freeIx => t.freeIx = s.freeIx
  | .sys => t.sys = s.sys
  | .det => t.det = s.det
  | .tdc => t.tdc = s.tdc
  | .his => t.his = s.his
  | .til => t.til = s.til
  | .oq => t.oq = s.oq
  | .emi => t.emi = s.emi
  | .mem => t.mem.rest = s.mem.rest
  | .lnk => t.lnk = s.lnk
  | .hlm => t.hlm = s.hlm
  | .hdg => t.hdg = s.hdg
  | .mer => t.mer = s.mer
  | .cap => t.cap = s.cap
  | .sxt => t.sxt = s.sxt
  | .adc => t.adc = s.adc
  | .cal => t.cal = s.cal
  | .thm => t.thm = s.thm
  | .boot => t.boot.rest = s.boot.rest
  | .obs => t.obs = s.obs
  | .dram => t.mem.dram = s.mem.dram
  | .flash => t.boot.flash = s.boot.flash

/-- From `s` to `t` only the listed parts changed; the queue did not. -/
def onlyChanges (l : List Part) (s t : State) : Prop := t.pending = s.pending ∧ ∀ p, p ∉ l → p.same s t

/-! ### What the hardware writes of the register map -/

/-- A set of register bits: a field, or the field of an array register at any index; a word, or the words of an array register; the
words of a range; or every bit. -/
inductive Area where
  | fld (f : Fld)
  | arr (f : Nat → Fld)
  | arr2 (f : Nat → Nat → Fld)
  | word (a : Nat)
  | words (r : Nat → Nat)
  | words2 (r : Nat → Nat → Nat)
  | range (lo hi : Nat)
  | all

/-- Bit `j` of the word at address `a` lies in the area. -/
def Area.covers (x : Area) (a j : Nat) : Prop :=
  match x with
  | .fld f => a = f.addr ∧ f.lo ≤ j ∧ j ≤ f.hi
  | .arr f => ∃ i, a = (f i).addr ∧ (f i).lo ≤ j ∧ j ≤ (f i).hi
  | .arr2 f => ∃ i k, a = (f i k).addr ∧ (f i k).lo ≤ j ∧ j ≤ (f i k).hi
  | .word r => a = r
  | .words r => ∃ i, a = r i
  | .words2 r => ∃ i k, a = r i k
  | .range lo hi => lo ≤ a ∧ a < hi
  | .all => True

/-- The fields, words (`w_`) and ranges (`r_`) that the hardware writes of itself. `all` stands for any register: a RESET, a write or
a read by a bus master, a settings load. -/
inductive Written where
  | SYS_MODE_WARM | SYS_MODE_BOOT_DONE | SYS_MODE_STOPPING | SYS_MODE_CAUSE | SYS_MODE_PREV_MODE | SYS_MODE_MODE | SYS_CLK_CFG_REF_SEL
  | SYS_CLK_STATUS_HDG_XCHK_OK | SYS_CLK_STATUS_REF_PRESENT | SYS_CLK_STATUS_MGMT_LOCK | SYS_CLK_STATUS_TIL_LOCK
  | SYS_CLK_STATUS_MAIN_LOCK | SYS_PEND_STATUS_MODE_SCAN | SYS_PEND_STATUS_SXT | SYS_PEND_STATUS_CAPTURE | SYS_PEND_STATUS_MEM_SR
  | SYS_PEND_STATUS_LNK_RX | SYS_PEND_STATUS_LNK_TX | SYS_PEND_STATUS_HLM | SYS_PEND_STATUS_EMI | SYS_MBOX_CMD_TAG
  | SYS_MBOX_CMD_GROUP | SYS_MBOX_CMD_CODE | w_SYS_MBOX_ARG | SYS_MBOX_RESP_TAG | SYS_MBOX_RESP_STATUS | SYS_MBOX_RESP_MODE
  | SYS_MBOX_RESP_DETAIL | w_SYS_MBOX_DATA | w_EVT_PEND | EVT_PEND_PEND | DET_CTRL_BIAS_EN | DET_STATUS_BIAS_FLAP
  | DET_STATUS_TEMP_STALE | DET_STATUS_BIAS_LIMIT | DET_STATUS_BIAS_HIGH | DET_STATUS_BIAS_LOW | DET_STATUS_BIAS_SETTLED
  | DET_STATUS_COMMIT_PENDING | DET_STATUS_PROBE_BUSY | DET_SILENT_CNT_COUNT | DET_BIAS_STATUS_VHV_SET_CODE
  | DET_BIAS_STATUS_VSPAD_MEAS | DET_BIAS_TARGET_TDET | DET_BIAS_TARGET_TARGET | DET_PROBE_CFG_CHANNEL | DET_PROBE_CFG_SPAD | DET_PROBE_COUNT_COUNT | DET_CH_CFG_TRIM_ACT
  | DET_CH_CFG_SPAD_CNT | DET_CH_CFG_SILENT | DET_CH_CFG_K_EFF | DET_SPAD_MASK_MASK_HI | DET_SPAD_MASK_MASK_LO | w_DET_SPAD_MASK_ACT
  | TDC_STATUS_REJECT_CH | TDC_STATUS_COMMIT_PENDING | TDC_STATUS_TEST_ACTIVE | TDC_STATUS_DLL_LOCK | w_TDC_TEST_CFG
  | TDC_TEST_CFG_SRC | TDC_SNOOP_CFG_KIND_ALL | TDC_SNOOP_CFG_CHANNEL | TDC_SNOOP_STATUS_FULL | TDC_SNOOP_STATUS_COUNT
  | TDC_DLL_TRIM_TRIM | TDC_QDROP_COUNT | TDC_CH_CFG_SKEW | w_TDC_LUT | HIS_STATUS_SETTINGS_PENDING | HIS_STATUS_RUNNING
  | HIS_STATUS_CAL_RECIPE | HIS_STATUS_PC_INDEX | w_HIS_RECIPE_CAL | HIS_RECIPE_CAL_FIRE | w_HIS_FIND_CFG | HIS_FIND_CFG_FIXWIN
  | w_HIS_FIXWIN | HIS_FIXWIN_EN | HIS_FIXWIN_START | HIS_ECC_CE_CNT_COUNT | HIS_ECC_UE_CNT_COUNT | HIS_LATE_CNT_COUNT
  | HIS_LATE_WORD_CNT_COUNT | HIS_LAST_LATE_CHANNEL | TIL_CFG_MSG_ATTN | TIL_CFG_POISON_ZERO | TIL_CFG_TRAP_MODE
  | TIL_ATTN_CFG_DL_ALARM | TIL_EVT_CAUSE_CAUSE | TIL_CNT_DROPPED_COUNT | TIL_CNT_EMIT_COUNT | TIL_CNT_STALE_EMIT_COUNT
  | TIL_CNT_FWQ_REJ_COUNT | TIL_CNT_CAND_STALE_COUNT | TIL_ECC_CE_CNT_COUNT | TIL_ECC_UE_CNT_COUNT | TIL_OQ_STALL_CNT_COUNT
  | EMI_CTRL_EN | EMI_STATUS_REJ_P | EMI_STATUS_REJ_VALID | EMI_STATUS_PTR | EMI_STATUS_LB_FLAP | EMI_STATUS_LB_STAGE
  | EMI_STATUS_THROTTLE | EMI_STATUS_COMMIT_PENDING | EMI_STATUS_PENDING_ENABLE | EMI_STATUS_ACTIVE_BUF | EMI_STATUS_STATE
  | w_EMI_FAULT_CAUSE | EMI_LB_CFG_EN | EMI_LB_VAL_VALID | EMI_LB_VAL_N | w_EMI_ROW_SHORT | EMI_ROW_SHORT_SHORT | w_EMI_ROW_OPEN
  | EMI_ROW_OPEN_OPEN | w_EMI_COL_FAULT | EMI_COL_FAULT_OPEN | EMI_COL_FAULT_SHORT | EMI_CHG_STATUS_FB_MEAS | EMI_CHG_STATUS_DAC_CODE
  | EMI_CNT_SHOTS_COUNT | EMI_CNT_SUPPRESS_COUNT | EMI_CNT_UNDER_COUNT | EMI_CNT_MON_MISS_COUNT | EMI_CNT_ROGUE_COUNT
  | EMI_CNT_CLAMP_COUNT | EMI_CURVE_DAC | EMI_CURVE_ACT_DAC | HLM_CTRL_EN | HLM_STATUS_FACET | HLM_STATUS_LOCK_FLAP
  | HLM_STATUS_INDEX_SEEN | HLM_STATUS_PENDING_ENABLE | HLM_STATUS_HO_ACTIVE | HLM_STATUS_COMMIT_PENDING | HLM_STATUS_SP_STATE
  | HLM_STATUS_TL_STATE | HLM_STATUS_LAW_SAT | HLM_FAULT_CAUSE_CAUSE | HLM_SPEED_REF_TARGET | HLM_MEAS_ANGLE_THETA
  | HLM_MEAS_SPEED_OMEGA | HLM_MEAS_PHASE_E_PH | HLM_MEAS_TILT_REF | HLM_MEAS_TILT_POS | HLM_ENC_COUNT_COUNT | HLM_CNT_LOCK_REF_COUNT
  | HLM_CNT_UNLOCK_COUNT | HLM_CNT_ENC_ERR_COUNT | HLM_TRACE_STATUS_DONE | HLM_TRACE_STATUS_RECORDING | HLM_TRACE_STATUS_OLDEST
  | w_HLM_TRACE_BUF | HDG_STATUS_PWM_GATE | HDG_STATUS_RST_PHASE | HDG_STATUS_CLEAR | HDG_STATUS_SEAL_LOCK | HDG_STATUS_LATCH
  | HDG_STATUS_LI_LEVEL | HDG_STATUS_REQ | HDG_STATUS_STATE | HDG_TRIP_CAUSE_FIRST | HDG_TRIP_CAUSE_CAUSE | HDG_PRESENT_CAUSE
  | HDG_STRAPS_FLOAT | HDG_STRAPS_SEAL | HDG_LIM_SPEED_MAX | HDG_LIM_SPEED_MIN | HDG_LIM_BUDGET_BUDGET | HDG_LIM_POS_MAX
  | HDG_LIM_POS_MIN | HDG_LIM_FOV_MAX | HDG_LIM_FOV_MIN | HDG_LIM_MISC_DIR | HDG_LIM_MISC_FOV_DWELL | HDG_LIM_MISC_DIR_LIMIT
  | HDG_MEAS_SPEED_COUNT | HDG_MEAS_TILT_CODE | HDG_MEAS_RC_ERR | HDG_ENERGY_MAX_SUM | HDG_CNT_TRIP_COUNT | HDG_CNT_BLANK_COUNT
  | HDG_CNT_RST_REF_COUNT | HDG_CNT_ENC_ERR_COUNT | MER_CTRL_EN | MER_STATUS_UNITS_OK | MER_STATUS_PC_WAIT | MER_STATUS_AS_HOLD
  | MER_STATUS_ID_CONFLICT | MER_STATUS_MASTER | MER_STATUS_ID | MER_STATUS_STATE | MER_DELAY_D16 | MER_PHASE_STEPS | MER_PHASE_PHI
  | w_MER_RT | MER_RT_VALID | MER_RT_D16 | MER_CNT_FRAME_ERR_COUNT | MER_CNT_LATE_COUNT | MER_CAP_CTRL_CONT | MER_CAP_CTRL_EN
  | MER_CAP_STATUS_PENDING_ENABLE | MER_CAP_STATUS_DONE | MER_CAP_STATUS_ARMED | MER_CAP_STATUS_SEG | MER_CAP_WPTR_OFS
  | MER_CAPTURE_DROP_COUNT | MER_CAP_DROP_CAUSE_SHUTDOWN | MER_CAP_DROP_CAUSE_RING | MER_CAP_DROP_CAUSE_QUEUE | MER_CAP_REJ_SEG_COUNT
  | MER_CAP_RECORDS_COUNT | SXT_CTRL_EN | SXT_STATUS_CDT_BUSY | SXT_STATUS_PENDING_ENABLE | SXT_STATUS_GATE_EDGE | SXT_STATUS_DONE
  | SXT_STATUS_ARMED | SXT_STATUS_BUSY | SXT_CFG_GATE_SRC | SXT_CFG_STOP_SRC | SXT_CFG_START_SRC | SXT_COUNT_MISS | SXT_COUNT_VALID
  | SXT_MEAN_LO_MEAN | SXT_MEAN_HI_MEAN | SXT_SD_SD | SXT_MIN_MIN | SXT_MAX_MAX | SXT_LAST_T | w_SXT_CDT_START | w_SXT_CDT_STOP
  | ADC_CTRL_EN | ADC_STATUS_HOST_URG_DONE | ADC_STATUS_HOST_URG_BUSY | ADC_STATUS_RUNNING | ADC_STATUS_ENTRY | ADC_URGENT_INPUT
  | w_ADC_URG_RESULT | ADC_OVR_STATUS_OVR | ADC_FLAP_STATUS_FLAP | ADC_EXC_STATUS_FAULT | ADC_CNT_DISCARD_COUNT | w_ADC_LAST
  | w_ADC_FE_CFG | w_ADC_FE_PULSE | w_ADC_FE_SWAP | ADC_FE_STATUS_EXC_FLAP | ADC_FE_STATUS_IN_WINDOW | ADC_FE_STATUS_SWAP
  | ADC_FE_STATUS_RANGE_FLAP | ADC_FE_STATUS_EXC_FAULT | ADC_FE_STATUS_NO_WINDOW | ADC_FE_STATUS_SETTLING | ADC_FE_STATUS_RANGE
  | CAL_STATUS_RZ_FLAP | CAL_STATUS_LEG_ACTIVE | CAL_STATUS_SHADOW_OK | CAL_STATUS_RERUN_PENDING | CAL_STATUS_JRN_BUSY
  | CAL_STATUS_BUSY | CAL_STATUS_ITEM | CAL_STATUS_PLAN | CAL_RZ_LAT_LAT0 | CAL_RESULT_QUALITY | CAL_RESULT_ITEM | CAL_RESULT_REJECTS
  | CAL_RESULT_FIRST | w_CAL_LAST_CD | CAL_LAST_CD_AGE | CAL_LAST_CD_TEMP | w_CAL_LAST_RZ | CAL_LAST_RZ_AGE | CAL_LAST_RZ_TEMP
  | CAL_JRN_STATUS_SEQ | CAL_JRN_STATUS_PENDING | CAL_JRN_STATUS_FAIL | CAL_JRN_STATUS_SLOT | CAL_JRN_STATUS_VALID | CAL_LEG_TEMP_TEMP
  | CAL_LEG_STATUS_LOADED | CAL_FUSE_STATUS_SPARES_FREE | CAL_FUSE_STATUS_RESULT | CAL_FUSE_STATUS_BUSY | CAL_LEG_BOFS_BOFS
  | THM_STATUS_HOTTEST | THM_STATUS_FLAP | THM_STATUS_RZ_STALE | THM_STATUS_THROTTLE | THM_STATUS_DERATE_SRC | THM_STATUS_IND
  | THM_STATUS_STAGE | THM_T_STAGE_T_RZ | THM_T_STAGE_T_STAGE | THM_SNS_CTRL_SENSOR | THM_RETIRED_MASK | w_THM_TRIP_REC
  | THM_TRIP_REC_VALID | THM_TRIP_REC_SENSOR | THM_TRIP_REC_TEMP | THM_SNS_T_USED | THM_SNS_T_RAW | THM_SNS_ST_STATE | THM_SNS_ST_FAST
  | THM_SNS_ST_CAUSE | THM_RAIL_MEAS | THM_RAIL_OV | THM_RAIL_UV | THM_RO_COUNT | MEM_CTRL_SR | MEM_CTRL_EN | MEM_STATUS_TEMP_HI
  | MEM_STATUS_HOTSPOT | MEM_STATUS_TEMP_FLAP | MEM_STATUS_HOT_FLAP | MEM_STATUS_PENDING_ENABLE | MEM_STATUS_INIT_BUSY
  | MEM_STATUS_STATE | MEM_SIZE_MIB | MEM_PORT_STATUS_FLAP | MEM_PORT_STATUS_URGENT | MEM_PORT_STATUS_PANIC | MEM_PORT_CNT_BURSTS
  | MEM_CNT_REF_FORCED_COUNT | MEM_DRAM_RATE_CODE | MEM_HOT_BANK_LAST | MEM_ECC_CE_CNT_COUNT | MEM_ECC_UE_CNT_COUNT
  | MEM_ECC_ADDR_LO_ADDR | MEM_ECC_ADDR_HI_ADDR | MEM_CNT_LINK_RETRY_COUNT | MEM_ADDR_ERR_ADDR_ADDR | MEM_ADDR_ERR_INFO_CAUSE
  | MEM_ADDR_ERR_INFO_PORT | MEM_ADDR_ERR_INFO_ADDR | MEM_PB_WPTR_OFS | MEM_PB_RPTR_OFS | MEM_PB_OVF_CNT_COUNT
  | MEM_PB_OVF_CAUSE_WINDOW | MEM_PB_OVF_CAUSE_FULL | MEM_MR_CMD_BUSY | MEM_MR_CMD_READ | MEM_MR_CMD_CH | MEM_MR_CMD_RANK
  | MEM_MR_CMD_MA | MEM_MR_CMD_OP | MEM_MR_DATA_DATA | MEM_TRN_CTRL_BUSY | MEM_TRN_STATE_VALID | MEM_TRN_STATE_FAIL
  | MEM_TRN_MASK_PASS | MEM_DLY_WR | MEM_DLY_RD | LNK_CTRL_ETH1_EN | LNK_CTRL_ETH0_EN | LNK_STATUS_ETH1_UP | LNK_STATUS_ETH0_UP
  | LNK_STATUS_BME | LNK_STATUS_WIDTH | LNK_STATUS_SPEED | LNK_STATUS_PCIE_UP | LNK_LANE_ST_FLAP | LNK_LANE_ST_LOL | LNK_LANE_ST_LOS
  | LNK_LANE_ST_USE | LNK_LANE_TEST_PRBS | LNK_LANE_TEST_LOOP | LNK_PKT_DROP_COUNT | LNK_ETH_CTRL_RX_EN | LNK_ETH_CTRL_TX_EN
  | LNK_ETH_STATUS_RX_PENDING | LNK_ETH_STATUS_TX_PENDING | LNK_ETH_STATUS_RX_LPI | LNK_ETH_STATUS_TX_LPI | LNK_ETH_STATUS_BLOCK_LOCK
  | LNK_ETH_STATUS_UP | LNK_ETH_SMAC_LO_MAC | LNK_ETH_SMAC_HI_MAC | LNK_ETH_FRAMES_TX_COUNT | LNK_ETH_PKTS_TX_COUNT
  | LNK_ETH_FRAMES_RX_COUNT | LNK_ETH_FCS_ERR_RX_COUNT | LNK_ETH_DISCARD_RX_COUNT | LNK_ETH_PKT_SEQ_SEQ | LNK_PTP_STATUS_SLEWING
  | LNK_PTP_STATUS_TS_AVAIL | LNK_PTP_STATUS_SYNCED | LNK_PTP_TIME_LO_NS | LNK_PTP_TIME_HI_NS | w_LNK_PTP_RATE | w_LNK_PTP_TS_LO
  | LNK_PTP_TS_LO_NS | w_LNK_PTP_TS_HI | LNK_PTP_TS_HI_NS | w_LNK_PTP_TS_INFO | LNK_PTP_TS_INFO_VALID | LNK_PTP_TS_INFO_DIR
  | LNK_PTP_TS_INFO_PORT | LNK_PTP_TS_INFO_SEQ_ID | LNK_PRBS_ERR_COUNT | LNK_MBOX_OWNER_OWNER | LNK_MSPI_CRC_CNT_COUNT | LNK_MSPI_WIN_WIN
  | LNK_I2C_STATUS_BUSY | LNK_I2C_STATUS_STUCK | w_LNK_MBOX_BUF | BOOT_STATUS_SET_REJ | BOOT_STATUS_CD_DUE | BOOT_STATUS_SLOT_WRITE
  | BOOT_STATUS_IMAGE_VALID | BOOT_STATUS_LOADER_VALID | BOOT_STATUS_UPD_STATE | BOOT_STATUS_SESSION | BOOT_STATUS_FUSE_KEPT
  | BOOT_STATUS_BIST_SKIPPED | BOOT_STATUS_TRAIN_SKIPPED | BOOT_STATUS_CD_SKIPPED | BOOT_STATUS_STEP | w_BOOT_LAST_RESET
  | BOOT_LAST_RESET_FAIL_STEP | BOOT_LAST_RESET_CAUSE | w_BOOT_FAIL | BOOT_FAIL_COUNT | BOOT_IMAGE_VER_VERSION
  | BOOT_IMAGE_INFO_SETTINGS_FMT | BOOT_IMAGE_INFO_SERIAL_BOUND | BOOT_IMAGE_INFO_KEY_ID | BOOT_SERIAL_LO_SERIAL
  | BOOT_SERIAL_HI_SERIAL | BOOT_UPD_RESULT_RESULT | BOOT_SET_OPT_AUTO_SCAN | BOOT_HDL_STATUS_RESULT | BOOT_HDL_STATUS_RX_BUSY
  | BOOT_HDL_STATUS_TX_BUSY | BOOT_HDL_RES_VALID | BOOT_HDL_RES_RESULT | BOOT_LOG_INDEX_NEXT | BOOT_LOG_DROP_COUNT | OBS_STATUS_STALE
  | OBS_STATUS_FULL | OBS_STATUS_SNAP_BUSY | OBS_SNAP_SEQ_SEQ | OBS_SNAP_MISS_COUNT | OBS_SNAP_TS_LO_NS | OBS_SNAP_TS_HI_NS
  | w_OBS_SAT | OBS_SMP_DROP_COUNT | OBS_TRC_WPTR_OFS | OBS_TRC_RPTR_OFS | OBS_TRC_RING_WPTR_OFS | OBS_TRC_RING_RPTR_OFS
  | OBS_TRC_DROP_COUNT | w_OBS_CNT_CFG | OBS_CNT_LIVE_HI_VALUE | OBS_CNT_SNAP_LO_VALUE | OBS_CNT_SNAP_HI_VALUE | r_HDG | r_HLM_TRACE
  | r_MSIX | r_OBS_SAT | r_OBS_SNAP | r_OBS_TRC_BUF | r_MEM_CFG | r_MEM_DLY | r_BOOT_SET | all
  deriving DecidableEq, Repr

/-- What each of them covers. -/
def Written.area : Written → Area
  | .SYS_MODE_WARM => .fld F.SYS_MODE_WARM
  | .SYS_MODE_BOOT_DONE => .fld F.SYS_MODE_BOOT_DONE
  | .SYS_MODE_STOPPING => .fld F.SYS_MODE_STOPPING
  | .SYS_MODE_CAUSE => .fld F.SYS_MODE_CAUSE
  | .SYS_MODE_PREV_MODE => .fld F.SYS_MODE_PREV_MODE
  | .SYS_MODE_MODE => .fld F.SYS_MODE_MODE
  | .SYS_CLK_CFG_REF_SEL => .fld F.SYS_CLK_CFG_REF_SEL
  | .SYS_CLK_STATUS_HDG_XCHK_OK => .fld F.SYS_CLK_STATUS_HDG_XCHK_OK
  | .SYS_CLK_STATUS_REF_PRESENT => .fld F.SYS_CLK_STATUS_REF_PRESENT
  | .SYS_CLK_STATUS_MGMT_LOCK => .fld F.SYS_CLK_STATUS_MGMT_LOCK
  | .SYS_CLK_STATUS_TIL_LOCK => .fld F.SYS_CLK_STATUS_TIL_LOCK
  | .SYS_CLK_STATUS_MAIN_LOCK => .fld F.SYS_CLK_STATUS_MAIN_LOCK
  | .SYS_PEND_STATUS_MODE_SCAN => .fld F.SYS_PEND_STATUS_MODE_SCAN
  | .SYS_PEND_STATUS_SXT => .fld F.SYS_PEND_STATUS_SXT
  | .SYS_PEND_STATUS_CAPTURE => .fld F.SYS_PEND_STATUS_CAPTURE
  | .SYS_PEND_STATUS_MEM_SR => .fld F.SYS_PEND_STATUS_MEM_SR
  | .SYS_PEND_STATUS_LNK_RX => .fld F.SYS_PEND_STATUS_LNK_RX
  | .SYS_PEND_STATUS_LNK_TX => .fld F.SYS_PEND_STATUS_LNK_TX
  | .SYS_PEND_STATUS_HLM => .fld F.SYS_PEND_STATUS_HLM
  | .SYS_PEND_STATUS_EMI => .fld F.SYS_PEND_STATUS_EMI
  | .SYS_MBOX_CMD_TAG => .fld F.SYS_MBOX_CMD_TAG
  | .SYS_MBOX_CMD_GROUP => .fld F.SYS_MBOX_CMD_GROUP
  | .SYS_MBOX_CMD_CODE => .fld F.SYS_MBOX_CMD_CODE
  | .w_SYS_MBOX_ARG => .word R.SYS_MBOX_ARG
  | .SYS_MBOX_RESP_TAG => .fld F.SYS_MBOX_RESP_TAG
  | .SYS_MBOX_RESP_STATUS => .fld F.SYS_MBOX_RESP_STATUS
  | .SYS_MBOX_RESP_MODE => .fld F.SYS_MBOX_RESP_MODE
  | .SYS_MBOX_RESP_DETAIL => .fld F.SYS_MBOX_RESP_DETAIL
  | .w_SYS_MBOX_DATA => .word R.SYS_MBOX_DATA
  | .w_EVT_PEND => .words R.EVT_PEND
  | .EVT_PEND_PEND => .arr F.EVT_PEND_PEND
  | .DET_CTRL_BIAS_EN => .fld F.DET_CTRL_BIAS_EN
  | .DET_STATUS_BIAS_FLAP => .fld F.DET_STATUS_BIAS_FLAP
  | .DET_STATUS_TEMP_STALE => .fld F.DET_STATUS_TEMP_STALE
  | .DET_STATUS_BIAS_LIMIT => .fld F.DET_STATUS_BIAS_LIMIT
  | .DET_STATUS_BIAS_HIGH => .fld F.DET_STATUS_BIAS_HIGH
  | .DET_STATUS_BIAS_LOW => .fld F.DET_STATUS_BIAS_LOW
  | .DET_STATUS_BIAS_SETTLED => .fld F.DET_STATUS_BIAS_SETTLED
  | .DET_STATUS_COMMIT_PENDING => .fld F.DET_STATUS_COMMIT_PENDING
  | .DET_STATUS_PROBE_BUSY => .fld F.DET_STATUS_PROBE_BUSY
  | .DET_SILENT_CNT_COUNT => .fld F.DET_SILENT_CNT_COUNT
  | .DET_BIAS_STATUS_VHV_SET_CODE => .fld F.DET_BIAS_STATUS_VHV_SET_CODE
  | .DET_BIAS_STATUS_VSPAD_MEAS => .fld F.DET_BIAS_STATUS_VSPAD_MEAS
  | .DET_BIAS_TARGET_TDET => .fld F.DET_BIAS_TARGET_TDET
  | .DET_BIAS_TARGET_TARGET => .fld F.DET_BIAS_TARGET_TARGET
  | .DET_PROBE_CFG_CHANNEL => .fld F.DET_PROBE_CFG_CHANNEL
  | .DET_PROBE_CFG_SPAD => .fld F.DET_PROBE_CFG_SPAD
  | .DET_PROBE_COUNT_COUNT => .fld F.DET_PROBE_COUNT_COUNT
  | .DET_CH_CFG_TRIM_ACT => .arr F.DET_CH_CFG_TRIM_ACT
  | .DET_CH_CFG_SPAD_CNT => .arr F.DET_CH_CFG_SPAD_CNT
  | .DET_CH_CFG_SILENT => .arr F.DET_CH_CFG_SILENT
  | .DET_CH_CFG_K_EFF => .arr F.DET_CH_CFG_K_EFF
  | .DET_SPAD_MASK_MASK_HI => .arr F.DET_SPAD_MASK_MASK_HI
  | .DET_SPAD_MASK_MASK_LO => .arr F.DET_SPAD_MASK_MASK_LO
  | .w_DET_SPAD_MASK_ACT => .words R.DET_SPAD_MASK_ACT
  | .TDC_STATUS_REJECT_CH => .fld F.TDC_STATUS_REJECT_CH
  | .TDC_STATUS_COMMIT_PENDING => .fld F.TDC_STATUS_COMMIT_PENDING
  | .TDC_STATUS_TEST_ACTIVE => .fld F.TDC_STATUS_TEST_ACTIVE
  | .TDC_STATUS_DLL_LOCK => .fld F.TDC_STATUS_DLL_LOCK
  | .w_TDC_TEST_CFG => .word R.TDC_TEST_CFG
  | .TDC_TEST_CFG_SRC => .fld F.TDC_TEST_CFG_SRC
  | .TDC_SNOOP_CFG_KIND_ALL => .fld F.TDC_SNOOP_CFG_KIND_ALL
  | .TDC_SNOOP_CFG_CHANNEL => .fld F.TDC_SNOOP_CFG_CHANNEL
  | .TDC_SNOOP_STATUS_FULL => .fld F.TDC_SNOOP_STATUS_FULL
  | .TDC_SNOOP_STATUS_COUNT => .fld F.TDC_SNOOP_STATUS_COUNT
  | .TDC_DLL_TRIM_TRIM => .arr F.TDC_DLL_TRIM_TRIM
  | .TDC_QDROP_COUNT => .arr F.TDC_QDROP_COUNT
  | .TDC_CH_CFG_SKEW => .arr F.TDC_CH_CFG_SKEW
  | .w_TDC_LUT => .words2 R.TDC_LUT
  | .HIS_STATUS_SETTINGS_PENDING => .fld F.HIS_STATUS_SETTINGS_PENDING
  | .HIS_STATUS_RUNNING => .fld F.HIS_STATUS_RUNNING
  | .HIS_STATUS_CAL_RECIPE => .fld F.HIS_STATUS_CAL_RECIPE
  | .HIS_STATUS_PC_INDEX => .fld F.HIS_STATUS_PC_INDEX
  | .w_HIS_RECIPE_CAL => .word R.HIS_RECIPE_CAL
  | .HIS_RECIPE_CAL_FIRE => .fld F.HIS_RECIPE_CAL_FIRE
  | .w_HIS_FIND_CFG => .word R.HIS_FIND_CFG
  | .HIS_FIND_CFG_FIXWIN => .fld F.HIS_FIND_CFG_FIXWIN
  | .w_HIS_FIXWIN => .words R.HIS_FIXWIN
  | .HIS_FIXWIN_EN => .arr F.HIS_FIXWIN_EN
  | .HIS_FIXWIN_START => .arr F.HIS_FIXWIN_START
  | .HIS_ECC_CE_CNT_COUNT => .fld F.HIS_ECC_CE_CNT_COUNT
  | .HIS_ECC_UE_CNT_COUNT => .fld F.HIS_ECC_UE_CNT_COUNT
  | .HIS_LATE_CNT_COUNT => .fld F.HIS_LATE_CNT_COUNT
  | .HIS_LATE_WORD_CNT_COUNT => .fld F.HIS_LATE_WORD_CNT_COUNT
  | .HIS_LAST_LATE_CHANNEL => .fld F.HIS_LAST_LATE_CHANNEL
  | .TIL_CFG_MSG_ATTN => .arr F.TIL_CFG_MSG_ATTN
  | .TIL_CFG_POISON_ZERO => .arr F.TIL_CFG_POISON_ZERO
  | .TIL_CFG_TRAP_MODE => .arr F.TIL_CFG_TRAP_MODE
  | .TIL_ATTN_CFG_DL_ALARM => .arr F.TIL_ATTN_CFG_DL_ALARM
  | .TIL_EVT_CAUSE_CAUSE => .arr F.TIL_EVT_CAUSE_CAUSE
  | .TIL_CNT_DROPPED_COUNT => .arr F.TIL_CNT_DROPPED_COUNT
  | .TIL_CNT_EMIT_COUNT => .arr F.TIL_CNT_EMIT_COUNT
  | .TIL_CNT_STALE_EMIT_COUNT => .arr F.TIL_CNT_STALE_EMIT_COUNT
  | .TIL_CNT_FWQ_REJ_COUNT => .arr F.TIL_CNT_FWQ_REJ_COUNT
  | .TIL_CNT_CAND_STALE_COUNT => .arr F.TIL_CNT_CAND_STALE_COUNT
  | .TIL_ECC_CE_CNT_COUNT => .arr F.TIL_ECC_CE_CNT_COUNT
  | .TIL_ECC_UE_CNT_COUNT => .arr F.TIL_ECC_UE_CNT_COUNT
  | .TIL_OQ_STALL_CNT_COUNT => .fld F.TIL_OQ_STALL_CNT_COUNT
  | .EMI_CTRL_EN => .fld F.EMI_CTRL_EN
  | .EMI_STATUS_REJ_P => .fld F.EMI_STATUS_REJ_P
  | .EMI_STATUS_REJ_VALID => .fld F.EMI_STATUS_REJ_VALID
  | .EMI_STATUS_PTR => .fld F.EMI_STATUS_PTR
  | .EMI_STATUS_LB_FLAP => .fld F.EMI_STATUS_LB_FLAP
  | .EMI_STATUS_LB_STAGE => .fld F.EMI_STATUS_LB_STAGE
  | .EMI_STATUS_THROTTLE => .fld F.EMI_STATUS_THROTTLE
  | .EMI_STATUS_COMMIT_PENDING => .fld F.EMI_STATUS_COMMIT_PENDING
  | .EMI_STATUS_PENDING_ENABLE => .fld F.EMI_STATUS_PENDING_ENABLE
  | .EMI_STATUS_ACTIVE_BUF => .fld F.EMI_STATUS_ACTIVE_BUF
  | .EMI_STATUS_STATE => .fld F.EMI_STATUS_STATE
  | .w_EMI_FAULT_CAUSE => .word R.EMI_FAULT_CAUSE
  | .EMI_LB_CFG_EN => .fld F.EMI_LB_CFG_EN
  | .EMI_LB_VAL_VALID => .fld F.EMI_LB_VAL_VALID
  | .EMI_LB_VAL_N => .fld F.EMI_LB_VAL_N
  | .w_EMI_ROW_SHORT => .word R.EMI_ROW_SHORT
  | .EMI_ROW_SHORT_SHORT => .fld F.EMI_ROW_SHORT_SHORT
  | .w_EMI_ROW_OPEN => .word R.EMI_ROW_OPEN
  | .EMI_ROW_OPEN_OPEN => .fld F.EMI_ROW_OPEN_OPEN
  | .w_EMI_COL_FAULT => .word R.EMI_COL_FAULT
  | .EMI_COL_FAULT_OPEN => .fld F.EMI_COL_FAULT_OPEN
  | .EMI_COL_FAULT_SHORT => .fld F.EMI_COL_FAULT_SHORT
  | .EMI_CHG_STATUS_FB_MEAS => .fld F.EMI_CHG_STATUS_FB_MEAS
  | .EMI_CHG_STATUS_DAC_CODE => .fld F.EMI_CHG_STATUS_DAC_CODE
  | .EMI_CNT_SHOTS_COUNT => .fld F.EMI_CNT_SHOTS_COUNT
  | .EMI_CNT_SUPPRESS_COUNT => .fld F.EMI_CNT_SUPPRESS_COUNT
  | .EMI_CNT_UNDER_COUNT => .fld F.EMI_CNT_UNDER_COUNT
  | .EMI_CNT_MON_MISS_COUNT => .fld F.EMI_CNT_MON_MISS_COUNT
  | .EMI_CNT_ROGUE_COUNT => .fld F.EMI_CNT_ROGUE_COUNT
  | .EMI_CNT_CLAMP_COUNT => .fld F.EMI_CNT_CLAMP_COUNT
  | .EMI_CURVE_DAC => .arr F.EMI_CURVE_DAC
  | .EMI_CURVE_ACT_DAC => .arr F.EMI_CURVE_ACT_DAC
  | .HLM_CTRL_EN => .fld F.HLM_CTRL_EN
  | .HLM_STATUS_FACET => .fld F.HLM_STATUS_FACET
  | .HLM_STATUS_LOCK_FLAP => .fld F.HLM_STATUS_LOCK_FLAP
  | .HLM_STATUS_INDEX_SEEN => .fld F.HLM_STATUS_INDEX_SEEN
  | .HLM_STATUS_PENDING_ENABLE => .fld F.HLM_STATUS_PENDING_ENABLE
  | .HLM_STATUS_HO_ACTIVE => .fld F.HLM_STATUS_HO_ACTIVE
  | .HLM_STATUS_COMMIT_PENDING => .fld F.HLM_STATUS_COMMIT_PENDING
  | .HLM_STATUS_SP_STATE => .fld F.HLM_STATUS_SP_STATE
  | .HLM_STATUS_TL_STATE => .fld F.HLM_STATUS_TL_STATE
  | .HLM_STATUS_LAW_SAT => .fld F.HLM_STATUS_LAW_SAT
  | .HLM_FAULT_CAUSE_CAUSE => .fld F.HLM_FAULT_CAUSE_CAUSE
  | .HLM_SPEED_REF_TARGET => .fld F.HLM_SPEED_REF_TARGET
  | .HLM_MEAS_ANGLE_THETA => .fld F.HLM_MEAS_ANGLE_THETA
  | .HLM_MEAS_SPEED_OMEGA => .fld F.HLM_MEAS_SPEED_OMEGA
  | .HLM_MEAS_PHASE_E_PH => .fld F.HLM_MEAS_PHASE_E_PH
  | .HLM_MEAS_TILT_REF => .fld F.HLM_MEAS_TILT_REF
  | .HLM_MEAS_TILT_POS => .fld F.HLM_MEAS_TILT_POS
  | .HLM_ENC_COUNT_COUNT => .fld F.HLM_ENC_COUNT_COUNT
  | .HLM_CNT_LOCK_REF_COUNT => .fld F.HLM_CNT_LOCK_REF_COUNT
  | .HLM_CNT_UNLOCK_COUNT => .fld F.HLM_CNT_UNLOCK_COUNT
  | .HLM_CNT_ENC_ERR_COUNT => .fld F.HLM_CNT_ENC_ERR_COUNT
  | .HLM_TRACE_STATUS_DONE => .fld F.HLM_TRACE_STATUS_DONE
  | .HLM_TRACE_STATUS_RECORDING => .fld F.HLM_TRACE_STATUS_RECORDING
  | .HLM_TRACE_STATUS_OLDEST => .fld F.HLM_TRACE_STATUS_OLDEST
  | .w_HLM_TRACE_BUF => .words2 R.HLM_TRACE_BUF
  | .HDG_STATUS_PWM_GATE => .fld F.HDG_STATUS_PWM_GATE
  | .HDG_STATUS_RST_PHASE => .fld F.HDG_STATUS_RST_PHASE
  | .HDG_STATUS_CLEAR => .fld F.HDG_STATUS_CLEAR
  | .HDG_STATUS_SEAL_LOCK => .fld F.HDG_STATUS_SEAL_LOCK
  | .HDG_STATUS_LATCH => .fld F.HDG_STATUS_LATCH
  | .HDG_STATUS_LI_LEVEL => .fld F.HDG_STATUS_LI_LEVEL
  | .HDG_STATUS_REQ => .fld F.HDG_STATUS_REQ
  | .HDG_STATUS_STATE => .fld F.HDG_STATUS_STATE
  | .HDG_TRIP_CAUSE_FIRST => .fld F.HDG_TRIP_CAUSE_FIRST
  | .HDG_TRIP_CAUSE_CAUSE => .fld F.HDG_TRIP_CAUSE_CAUSE
  | .HDG_PRESENT_CAUSE => .fld F.HDG_PRESENT_CAUSE
  | .HDG_STRAPS_FLOAT => .fld F.HDG_STRAPS_FLOAT
  | .HDG_STRAPS_SEAL => .fld F.HDG_STRAPS_SEAL
  | .HDG_LIM_SPEED_MAX => .fld F.HDG_LIM_SPEED_MAX
  | .HDG_LIM_SPEED_MIN => .fld F.HDG_LIM_SPEED_MIN
  | .HDG_LIM_BUDGET_BUDGET => .fld F.HDG_LIM_BUDGET_BUDGET
  | .HDG_LIM_POS_MAX => .fld F.HDG_LIM_POS_MAX
  | .HDG_LIM_POS_MIN => .fld F.HDG_LIM_POS_MIN
  | .HDG_LIM_FOV_MAX => .fld F.HDG_LIM_FOV_MAX
  | .HDG_LIM_FOV_MIN => .fld F.HDG_LIM_FOV_MIN
  | .HDG_LIM_MISC_DIR => .fld F.HDG_LIM_MISC_DIR
  | .HDG_LIM_MISC_FOV_DWELL => .fld F.HDG_LIM_MISC_FOV_DWELL
  | .HDG_LIM_MISC_DIR_LIMIT => .fld F.HDG_LIM_MISC_DIR_LIMIT
  | .HDG_MEAS_SPEED_COUNT => .fld F.HDG_MEAS_SPEED_COUNT
  | .HDG_MEAS_TILT_CODE => .fld F.HDG_MEAS_TILT_CODE
  | .HDG_MEAS_RC_ERR => .fld F.HDG_MEAS_RC_ERR
  | .HDG_ENERGY_MAX_SUM => .fld F.HDG_ENERGY_MAX_SUM
  | .HDG_CNT_TRIP_COUNT => .fld F.HDG_CNT_TRIP_COUNT
  | .HDG_CNT_BLANK_COUNT => .fld F.HDG_CNT_BLANK_COUNT
  | .HDG_CNT_RST_REF_COUNT => .fld F.HDG_CNT_RST_REF_COUNT
  | .HDG_CNT_ENC_ERR_COUNT => .fld F.HDG_CNT_ENC_ERR_COUNT
  | .MER_CTRL_EN => .fld F.MER_CTRL_EN
  | .MER_STATUS_UNITS_OK => .fld F.MER_STATUS_UNITS_OK
  | .MER_STATUS_PC_WAIT => .fld F.MER_STATUS_PC_WAIT
  | .MER_STATUS_AS_HOLD => .fld F.MER_STATUS_AS_HOLD
  | .MER_STATUS_ID_CONFLICT => .fld F.MER_STATUS_ID_CONFLICT
  | .MER_STATUS_MASTER => .fld F.MER_STATUS_MASTER
  | .MER_STATUS_ID => .fld F.MER_STATUS_ID
  | .MER_STATUS_STATE => .fld F.MER_STATUS_STATE
  | .MER_DELAY_D16 => .fld F.MER_DELAY_D16
  | .MER_PHASE_STEPS => .fld F.MER_PHASE_STEPS
  | .MER_PHASE_PHI => .fld F.MER_PHASE_PHI
  | .w_MER_RT => .words R.MER_RT
  | .MER_RT_VALID => .arr F.MER_RT_VALID
  | .MER_RT_D16 => .arr F.MER_RT_D16
  | .MER_CNT_FRAME_ERR_COUNT => .fld F.MER_CNT_FRAME_ERR_COUNT
  | .MER_CNT_LATE_COUNT => .fld F.MER_CNT_LATE_COUNT
  | .MER_CAP_CTRL_CONT => .fld F.MER_CAP_CTRL_CONT
  | .MER_CAP_CTRL_EN => .fld F.MER_CAP_CTRL_EN
  | .MER_CAP_STATUS_PENDING_ENABLE => .fld F.MER_CAP_STATUS_PENDING_ENABLE
  | .MER_CAP_STATUS_DONE => .fld F.MER_CAP_STATUS_DONE
  | .MER_CAP_STATUS_ARMED => .fld F.MER_CAP_STATUS_ARMED
  | .MER_CAP_STATUS_SEG => .fld F.MER_CAP_STATUS_SEG
  | .MER_CAP_WPTR_OFS => .fld F.MER_CAP_WPTR_OFS
  | .MER_CAPTURE_DROP_COUNT => .fld F.MER_CAPTURE_DROP_COUNT
  | .MER_CAP_DROP_CAUSE_SHUTDOWN => .fld F.MER_CAP_DROP_CAUSE_SHUTDOWN
  | .MER_CAP_DROP_CAUSE_RING => .fld F.MER_CAP_DROP_CAUSE_RING
  | .MER_CAP_DROP_CAUSE_QUEUE => .fld F.MER_CAP_DROP_CAUSE_QUEUE
  | .MER_CAP_REJ_SEG_COUNT => .fld F.MER_CAP_REJ_SEG_COUNT
  | .MER_CAP_RECORDS_COUNT => .fld F.MER_CAP_RECORDS_COUNT
  | .SXT_CTRL_EN => .fld F.SXT_CTRL_EN
  | .SXT_STATUS_CDT_BUSY => .fld F.SXT_STATUS_CDT_BUSY
  | .SXT_STATUS_PENDING_ENABLE => .fld F.SXT_STATUS_PENDING_ENABLE
  | .SXT_STATUS_GATE_EDGE => .fld F.SXT_STATUS_GATE_EDGE
  | .SXT_STATUS_DONE => .fld F.SXT_STATUS_DONE
  | .SXT_STATUS_ARMED => .fld F.SXT_STATUS_ARMED
  | .SXT_STATUS_BUSY => .fld F.SXT_STATUS_BUSY
  | .SXT_CFG_GATE_SRC => .fld F.SXT_CFG_GATE_SRC
  | .SXT_CFG_STOP_SRC => .fld F.SXT_CFG_STOP_SRC
  | .SXT_CFG_START_SRC => .fld F.SXT_CFG_START_SRC
  | .SXT_COUNT_MISS => .fld F.SXT_COUNT_MISS
  | .SXT_COUNT_VALID => .fld F.SXT_COUNT_VALID
  | .SXT_MEAN_LO_MEAN => .fld F.SXT_MEAN_LO_MEAN
  | .SXT_MEAN_HI_MEAN => .fld F.SXT_MEAN_HI_MEAN
  | .SXT_SD_SD => .fld F.SXT_SD_SD
  | .SXT_MIN_MIN => .fld F.SXT_MIN_MIN
  | .SXT_MAX_MAX => .fld F.SXT_MAX_MAX
  | .SXT_LAST_T => .fld F.SXT_LAST_T
  | .w_SXT_CDT_START => .words R.SXT_CDT_START
  | .w_SXT_CDT_STOP => .words R.SXT_CDT_STOP
  | .ADC_CTRL_EN => .fld F.ADC_CTRL_EN
  | .ADC_STATUS_HOST_URG_DONE => .fld F.ADC_STATUS_HOST_URG_DONE
  | .ADC_STATUS_HOST_URG_BUSY => .fld F.ADC_STATUS_HOST_URG_BUSY
  | .ADC_STATUS_RUNNING => .fld F.ADC_STATUS_RUNNING
  | .ADC_STATUS_ENTRY => .fld F.ADC_STATUS_ENTRY
  | .ADC_URGENT_INPUT => .fld F.ADC_URGENT_INPUT
  | .w_ADC_URG_RESULT => .word R.ADC_URG_RESULT
  | .ADC_OVR_STATUS_OVR => .fld F.ADC_OVR_STATUS_OVR
  | .ADC_FLAP_STATUS_FLAP => .fld F.ADC_FLAP_STATUS_FLAP
  | .ADC_EXC_STATUS_FAULT => .fld F.ADC_EXC_STATUS_FAULT
  | .ADC_CNT_DISCARD_COUNT => .fld F.ADC_CNT_DISCARD_COUNT
  | .w_ADC_LAST => .words R.ADC_LAST
  | .w_ADC_FE_CFG => .words R.ADC_FE_CFG
  | .w_ADC_FE_PULSE => .words R.ADC_FE_PULSE
  | .w_ADC_FE_SWAP => .words R.ADC_FE_SWAP
  | .ADC_FE_STATUS_EXC_FLAP => .arr F.ADC_FE_STATUS_EXC_FLAP
  | .ADC_FE_STATUS_IN_WINDOW => .arr F.ADC_FE_STATUS_IN_WINDOW
  | .ADC_FE_STATUS_SWAP => .arr F.ADC_FE_STATUS_SWAP
  | .ADC_FE_STATUS_RANGE_FLAP => .arr F.ADC_FE_STATUS_RANGE_FLAP
  | .ADC_FE_STATUS_EXC_FAULT => .arr F.ADC_FE_STATUS_EXC_FAULT
  | .ADC_FE_STATUS_NO_WINDOW => .arr F.ADC_FE_STATUS_NO_WINDOW
  | .ADC_FE_STATUS_SETTLING => .arr F.ADC_FE_STATUS_SETTLING
  | .ADC_FE_STATUS_RANGE => .arr F.ADC_FE_STATUS_RANGE
  | .CAL_STATUS_RZ_FLAP => .fld F.CAL_STATUS_RZ_FLAP
  | .CAL_STATUS_LEG_ACTIVE => .fld F.CAL_STATUS_LEG_ACTIVE
  | .CAL_STATUS_SHADOW_OK => .fld F.CAL_STATUS_SHADOW_OK
  | .CAL_STATUS_RERUN_PENDING => .fld F.CAL_STATUS_RERUN_PENDING
  | .CAL_STATUS_JRN_BUSY => .fld F.CAL_STATUS_JRN_BUSY
  | .CAL_STATUS_BUSY => .fld F.CAL_STATUS_BUSY
  | .CAL_STATUS_ITEM => .fld F.CAL_STATUS_ITEM
  | .CAL_STATUS_PLAN => .fld F.CAL_STATUS_PLAN
  | .CAL_RZ_LAT_LAT0 => .fld F.CAL_RZ_LAT_LAT0
  | .CAL_RESULT_QUALITY => .fld F.CAL_RESULT_QUALITY
  | .CAL_RESULT_ITEM => .fld F.CAL_RESULT_ITEM
  | .CAL_RESULT_REJECTS => .fld F.CAL_RESULT_REJECTS
  | .CAL_RESULT_FIRST => .fld F.CAL_RESULT_FIRST
  | .w_CAL_LAST_CD => .word R.CAL_LAST_CD
  | .CAL_LAST_CD_AGE => .fld F.CAL_LAST_CD_AGE
  | .CAL_LAST_CD_TEMP => .fld F.CAL_LAST_CD_TEMP
  | .w_CAL_LAST_RZ => .word R.CAL_LAST_RZ
  | .CAL_LAST_RZ_AGE => .fld F.CAL_LAST_RZ_AGE
  | .CAL_LAST_RZ_TEMP => .fld F.CAL_LAST_RZ_TEMP
  | .CAL_JRN_STATUS_SEQ => .fld F.CAL_JRN_STATUS_SEQ
  | .CAL_JRN_STATUS_PENDING => .fld F.CAL_JRN_STATUS_PENDING
  | .CAL_JRN_STATUS_FAIL => .fld F.CAL_JRN_STATUS_FAIL
  | .CAL_JRN_STATUS_SLOT => .fld F.CAL_JRN_STATUS_SLOT
  | .CAL_JRN_STATUS_VALID => .fld F.CAL_JRN_STATUS_VALID
  | .CAL_LEG_TEMP_TEMP => .arr F.CAL_LEG_TEMP_TEMP
  | .CAL_LEG_STATUS_LOADED => .fld F.CAL_LEG_STATUS_LOADED
  | .CAL_FUSE_STATUS_SPARES_FREE => .fld F.CAL_FUSE_STATUS_SPARES_FREE
  | .CAL_FUSE_STATUS_RESULT => .fld F.CAL_FUSE_STATUS_RESULT
  | .CAL_FUSE_STATUS_BUSY => .fld F.CAL_FUSE_STATUS_BUSY
  | .CAL_LEG_BOFS_BOFS => .arr F.CAL_LEG_BOFS_BOFS
  | .THM_STATUS_HOTTEST => .fld F.THM_STATUS_HOTTEST
  | .THM_STATUS_FLAP => .fld F.THM_STATUS_FLAP
  | .THM_STATUS_RZ_STALE => .fld F.THM_STATUS_RZ_STALE
  | .THM_STATUS_THROTTLE => .fld F.THM_STATUS_THROTTLE
  | .THM_STATUS_DERATE_SRC => .fld F.THM_STATUS_DERATE_SRC
  | .THM_STATUS_IND => .fld F.THM_STATUS_IND
  | .THM_STATUS_STAGE => .fld F.THM_STATUS_STAGE
  | .THM_T_STAGE_T_RZ => .fld F.THM_T_STAGE_T_RZ
  | .THM_T_STAGE_T_STAGE => .fld F.THM_T_STAGE_T_STAGE
  | .THM_SNS_CTRL_SENSOR => .fld F.THM_SNS_CTRL_SENSOR
  | .THM_RETIRED_MASK => .fld F.THM_RETIRED_MASK
  | .w_THM_TRIP_REC => .word R.THM_TRIP_REC
  | .THM_TRIP_REC_VALID => .fld F.THM_TRIP_REC_VALID
  | .THM_TRIP_REC_SENSOR => .fld F.THM_TRIP_REC_SENSOR
  | .THM_TRIP_REC_TEMP => .fld F.THM_TRIP_REC_TEMP
  | .THM_SNS_T_USED => .arr F.THM_SNS_T_USED
  | .THM_SNS_T_RAW => .arr F.THM_SNS_T_RAW
  | .THM_SNS_ST_STATE => .arr F.THM_SNS_ST_STATE
  | .THM_SNS_ST_FAST => .arr F.THM_SNS_ST_FAST
  | .THM_SNS_ST_CAUSE => .arr F.THM_SNS_ST_CAUSE
  | .THM_RAIL_MEAS => .arr F.THM_RAIL_MEAS
  | .THM_RAIL_OV => .arr F.THM_RAIL_OV
  | .THM_RAIL_UV => .arr F.THM_RAIL_UV
  | .THM_RO_COUNT => .arr F.THM_RO_COUNT
  | .MEM_CTRL_SR => .fld F.MEM_CTRL_SR
  | .MEM_CTRL_EN => .fld F.MEM_CTRL_EN
  | .MEM_STATUS_TEMP_HI => .fld F.MEM_STATUS_TEMP_HI
  | .MEM_STATUS_HOTSPOT => .fld F.MEM_STATUS_HOTSPOT
  | .MEM_STATUS_TEMP_FLAP => .fld F.MEM_STATUS_TEMP_FLAP
  | .MEM_STATUS_HOT_FLAP => .fld F.MEM_STATUS_HOT_FLAP
  | .MEM_STATUS_PENDING_ENABLE => .fld F.MEM_STATUS_PENDING_ENABLE
  | .MEM_STATUS_INIT_BUSY => .fld F.MEM_STATUS_INIT_BUSY
  | .MEM_STATUS_STATE => .fld F.MEM_STATUS_STATE
  | .MEM_SIZE_MIB => .fld F.MEM_SIZE_MIB
  | .MEM_PORT_STATUS_FLAP => .arr F.MEM_PORT_STATUS_FLAP
  | .MEM_PORT_STATUS_URGENT => .arr F.MEM_PORT_STATUS_URGENT
  | .MEM_PORT_STATUS_PANIC => .arr F.MEM_PORT_STATUS_PANIC
  | .MEM_PORT_CNT_BURSTS => .arr F.MEM_PORT_CNT_BURSTS
  | .MEM_CNT_REF_FORCED_COUNT => .fld F.MEM_CNT_REF_FORCED_COUNT
  | .MEM_DRAM_RATE_CODE => .fld F.MEM_DRAM_RATE_CODE
  | .MEM_HOT_BANK_LAST => .fld F.MEM_HOT_BANK_LAST
  | .MEM_ECC_CE_CNT_COUNT => .fld F.MEM_ECC_CE_CNT_COUNT
  | .MEM_ECC_UE_CNT_COUNT => .fld F.MEM_ECC_UE_CNT_COUNT
  | .MEM_ECC_ADDR_LO_ADDR => .fld F.MEM_ECC_ADDR_LO_ADDR
  | .MEM_ECC_ADDR_HI_ADDR => .fld F.MEM_ECC_ADDR_HI_ADDR
  | .MEM_CNT_LINK_RETRY_COUNT => .fld F.MEM_CNT_LINK_RETRY_COUNT
  | .MEM_ADDR_ERR_ADDR_ADDR => .fld F.MEM_ADDR_ERR_ADDR_ADDR
  | .MEM_ADDR_ERR_INFO_CAUSE => .fld F.MEM_ADDR_ERR_INFO_CAUSE
  | .MEM_ADDR_ERR_INFO_PORT => .fld F.MEM_ADDR_ERR_INFO_PORT
  | .MEM_ADDR_ERR_INFO_ADDR => .fld F.MEM_ADDR_ERR_INFO_ADDR
  | .MEM_PB_WPTR_OFS => .fld F.MEM_PB_WPTR_OFS
  | .MEM_PB_RPTR_OFS => .fld F.MEM_PB_RPTR_OFS
  | .MEM_PB_OVF_CNT_COUNT => .fld F.MEM_PB_OVF_CNT_COUNT
  | .MEM_PB_OVF_CAUSE_WINDOW => .fld F.MEM_PB_OVF_CAUSE_WINDOW
  | .MEM_PB_OVF_CAUSE_FULL => .fld F.MEM_PB_OVF_CAUSE_FULL
  | .MEM_MR_CMD_BUSY => .fld F.MEM_MR_CMD_BUSY
  | .MEM_MR_CMD_READ => .fld F.MEM_MR_CMD_READ
  | .MEM_MR_CMD_CH => .fld F.MEM_MR_CMD_CH
  | .MEM_MR_CMD_RANK => .fld F.MEM_MR_CMD_RANK
  | .MEM_MR_CMD_MA => .fld F.MEM_MR_CMD_MA
  | .MEM_MR_CMD_OP => .fld F.MEM_MR_CMD_OP
  | .MEM_MR_DATA_DATA => .fld F.MEM_MR_DATA_DATA
  | .MEM_TRN_CTRL_BUSY => .fld F.MEM_TRN_CTRL_BUSY
  | .MEM_TRN_STATE_VALID => .fld F.MEM_TRN_STATE_VALID
  | .MEM_TRN_STATE_FAIL => .fld F.MEM_TRN_STATE_FAIL
  | .MEM_TRN_MASK_PASS => .arr F.MEM_TRN_MASK_PASS
  | .MEM_DLY_WR => .arr2 F.MEM_DLY_WR
  | .MEM_DLY_RD => .arr2 F.MEM_DLY_RD
  | .LNK_CTRL_ETH1_EN => .fld F.LNK_CTRL_ETH1_EN
  | .LNK_CTRL_ETH0_EN => .fld F.LNK_CTRL_ETH0_EN
  | .LNK_STATUS_ETH1_UP => .fld F.LNK_STATUS_ETH1_UP
  | .LNK_STATUS_ETH0_UP => .fld F.LNK_STATUS_ETH0_UP
  | .LNK_STATUS_BME => .fld F.LNK_STATUS_BME
  | .LNK_STATUS_WIDTH => .fld F.LNK_STATUS_WIDTH
  | .LNK_STATUS_SPEED => .fld F.LNK_STATUS_SPEED
  | .LNK_STATUS_PCIE_UP => .fld F.LNK_STATUS_PCIE_UP
  | .LNK_LANE_ST_FLAP => .arr F.LNK_LANE_ST_FLAP
  | .LNK_LANE_ST_LOL => .arr F.LNK_LANE_ST_LOL
  | .LNK_LANE_ST_LOS => .arr F.LNK_LANE_ST_LOS
  | .LNK_LANE_ST_USE => .arr F.LNK_LANE_ST_USE
  | .LNK_LANE_TEST_PRBS => .arr F.LNK_LANE_TEST_PRBS
  | .LNK_LANE_TEST_LOOP => .arr F.LNK_LANE_TEST_LOOP
  | .LNK_PKT_DROP_COUNT => .fld F.LNK_PKT_DROP_COUNT
  | .LNK_ETH_CTRL_RX_EN => .arr F.LNK_ETH_CTRL_RX_EN
  | .LNK_ETH_CTRL_TX_EN => .arr F.LNK_ETH_CTRL_TX_EN
  | .LNK_ETH_STATUS_RX_PENDING => .arr F.LNK_ETH_STATUS_RX_PENDING
  | .LNK_ETH_STATUS_TX_PENDING => .arr F.LNK_ETH_STATUS_TX_PENDING
  | .LNK_ETH_STATUS_RX_LPI => .arr F.LNK_ETH_STATUS_RX_LPI
  | .LNK_ETH_STATUS_TX_LPI => .arr F.LNK_ETH_STATUS_TX_LPI
  | .LNK_ETH_STATUS_BLOCK_LOCK => .arr F.LNK_ETH_STATUS_BLOCK_LOCK
  | .LNK_ETH_STATUS_UP => .arr F.LNK_ETH_STATUS_UP
  | .LNK_ETH_SMAC_LO_MAC => .arr F.LNK_ETH_SMAC_LO_MAC
  | .LNK_ETH_SMAC_HI_MAC => .arr F.LNK_ETH_SMAC_HI_MAC
  | .LNK_ETH_FRAMES_TX_COUNT => .arr F.LNK_ETH_FRAMES_TX_COUNT
  | .LNK_ETH_PKTS_TX_COUNT => .arr F.LNK_ETH_PKTS_TX_COUNT
  | .LNK_ETH_FRAMES_RX_COUNT => .arr F.LNK_ETH_FRAMES_RX_COUNT
  | .LNK_ETH_FCS_ERR_RX_COUNT => .arr F.LNK_ETH_FCS_ERR_RX_COUNT
  | .LNK_ETH_DISCARD_RX_COUNT => .arr F.LNK_ETH_DISCARD_RX_COUNT
  | .LNK_ETH_PKT_SEQ_SEQ => .arr F.LNK_ETH_PKT_SEQ_SEQ
  | .LNK_PTP_STATUS_SLEWING => .fld F.LNK_PTP_STATUS_SLEWING
  | .LNK_PTP_STATUS_TS_AVAIL => .fld F.LNK_PTP_STATUS_TS_AVAIL
  | .LNK_PTP_STATUS_SYNCED => .fld F.LNK_PTP_STATUS_SYNCED
  | .LNK_PTP_TIME_LO_NS => .fld F.LNK_PTP_TIME_LO_NS
  | .LNK_PTP_TIME_HI_NS => .fld F.LNK_PTP_TIME_HI_NS
  | .w_LNK_PTP_RATE => .word R.LNK_PTP_RATE
  | .w_LNK_PTP_TS_LO => .word R.LNK_PTP_TS_LO
  | .LNK_PTP_TS_LO_NS => .fld F.LNK_PTP_TS_LO_NS
  | .w_LNK_PTP_TS_HI => .word R.LNK_PTP_TS_HI
  | .LNK_PTP_TS_HI_NS => .fld F.LNK_PTP_TS_HI_NS
  | .w_LNK_PTP_TS_INFO => .word R.LNK_PTP_TS_INFO
  | .LNK_PTP_TS_INFO_VALID => .fld F.LNK_PTP_TS_INFO_VALID
  | .LNK_PTP_TS_INFO_DIR => .fld F.LNK_PTP_TS_INFO_DIR
  | .LNK_PTP_TS_INFO_PORT => .fld F.LNK_PTP_TS_INFO_PORT
  | .LNK_PTP_TS_INFO_SEQ_ID => .fld F.LNK_PTP_TS_INFO_SEQ_ID
  | .LNK_PRBS_ERR_COUNT => .arr F.LNK_PRBS_ERR_COUNT
  | .LNK_MBOX_OWNER_OWNER => .fld F.LNK_MBOX_OWNER_OWNER
  | .LNK_MSPI_CRC_CNT_COUNT => .fld F.LNK_MSPI_CRC_CNT_COUNT
  | .LNK_MSPI_WIN_WIN => .fld F.LNK_MSPI_WIN_WIN
  | .LNK_I2C_STATUS_BUSY => .fld F.LNK_I2C_STATUS_BUSY
  | .LNK_I2C_STATUS_STUCK => .fld F.LNK_I2C_STATUS_STUCK
  | .w_LNK_MBOX_BUF => .words R.LNK_MBOX_BUF
  | .BOOT_STATUS_SET_REJ => .fld F.BOOT_STATUS_SET_REJ
  | .BOOT_STATUS_CD_DUE => .fld F.BOOT_STATUS_CD_DUE
  | .BOOT_STATUS_SLOT_WRITE => .fld F.BOOT_STATUS_SLOT_WRITE
  | .BOOT_STATUS_IMAGE_VALID => .fld F.BOOT_STATUS_IMAGE_VALID
  | .BOOT_STATUS_LOADER_VALID => .fld F.BOOT_STATUS_LOADER_VALID
  | .BOOT_STATUS_UPD_STATE => .fld F.BOOT_STATUS_UPD_STATE
  | .BOOT_STATUS_SESSION => .fld F.BOOT_STATUS_SESSION
  | .BOOT_STATUS_FUSE_KEPT => .fld F.BOOT_STATUS_FUSE_KEPT
  | .BOOT_STATUS_BIST_SKIPPED => .fld F.BOOT_STATUS_BIST_SKIPPED
  | .BOOT_STATUS_TRAIN_SKIPPED => .fld F.BOOT_STATUS_TRAIN_SKIPPED
  | .BOOT_STATUS_CD_SKIPPED => .fld F.BOOT_STATUS_CD_SKIPPED
  | .BOOT_STATUS_STEP => .fld F.BOOT_STATUS_STEP
  | .w_BOOT_LAST_RESET => .word R.BOOT_LAST_RESET
  | .BOOT_LAST_RESET_FAIL_STEP => .fld F.BOOT_LAST_RESET_FAIL_STEP
  | .BOOT_LAST_RESET_CAUSE => .fld F.BOOT_LAST_RESET_CAUSE
  | .w_BOOT_FAIL => .word R.BOOT_FAIL
  | .BOOT_FAIL_COUNT => .fld F.BOOT_FAIL_COUNT
  | .BOOT_IMAGE_VER_VERSION => .fld F.BOOT_IMAGE_VER_VERSION
  | .BOOT_IMAGE_INFO_SETTINGS_FMT => .fld F.BOOT_IMAGE_INFO_SETTINGS_FMT
  | .BOOT_IMAGE_INFO_SERIAL_BOUND => .fld F.BOOT_IMAGE_INFO_SERIAL_BOUND
  | .BOOT_IMAGE_INFO_KEY_ID => .fld F.BOOT_IMAGE_INFO_KEY_ID
  | .BOOT_SERIAL_LO_SERIAL => .fld F.BOOT_SERIAL_LO_SERIAL
  | .BOOT_SERIAL_HI_SERIAL => .fld F.BOOT_SERIAL_HI_SERIAL
  | .BOOT_UPD_RESULT_RESULT => .fld F.BOOT_UPD_RESULT_RESULT
  | .BOOT_SET_OPT_AUTO_SCAN => .fld F.BOOT_SET_OPT_AUTO_SCAN
  | .BOOT_HDL_STATUS_RESULT => .fld F.BOOT_HDL_STATUS_RESULT
  | .BOOT_HDL_STATUS_RX_BUSY => .fld F.BOOT_HDL_STATUS_RX_BUSY
  | .BOOT_HDL_STATUS_TX_BUSY => .fld F.BOOT_HDL_STATUS_TX_BUSY
  | .BOOT_HDL_RES_VALID => .arr F.BOOT_HDL_RES_VALID
  | .BOOT_HDL_RES_RESULT => .arr F.BOOT_HDL_RES_RESULT
  | .BOOT_LOG_INDEX_NEXT => .fld F.BOOT_LOG_INDEX_NEXT
  | .BOOT_LOG_DROP_COUNT => .fld F.BOOT_LOG_DROP_COUNT
  | .OBS_STATUS_STALE => .fld F.OBS_STATUS_STALE
  | .OBS_STATUS_FULL => .fld F.OBS_STATUS_FULL
  | .OBS_STATUS_SNAP_BUSY => .fld F.OBS_STATUS_SNAP_BUSY
  | .OBS_SNAP_SEQ_SEQ => .fld F.OBS_SNAP_SEQ_SEQ
  | .OBS_SNAP_MISS_COUNT => .fld F.OBS_SNAP_MISS_COUNT
  | .OBS_SNAP_TS_LO_NS => .fld F.OBS_SNAP_TS_LO_NS
  | .OBS_SNAP_TS_HI_NS => .fld F.OBS_SNAP_TS_HI_NS
  | .w_OBS_SAT => .words R.OBS_SAT
  | .OBS_SMP_DROP_COUNT => .fld F.OBS_SMP_DROP_COUNT
  | .OBS_TRC_WPTR_OFS => .fld F.OBS_TRC_WPTR_OFS
  | .OBS_TRC_RPTR_OFS => .fld F.OBS_TRC_RPTR_OFS
  | .OBS_TRC_RING_WPTR_OFS => .fld F.OBS_TRC_RING_WPTR_OFS
  | .OBS_TRC_RING_RPTR_OFS => .fld F.OBS_TRC_RING_RPTR_OFS
  | .OBS_TRC_DROP_COUNT => .fld F.OBS_TRC_DROP_COUNT
  | .w_OBS_CNT_CFG => .words R.OBS_CNT_CFG
  | .OBS_CNT_LIVE_HI_VALUE => .arr F.OBS_CNT_LIVE_HI_VALUE
  | .OBS_CNT_SNAP_LO_VALUE => .arr F.OBS_CNT_SNAP_LO_VALUE
  | .OBS_CNT_SNAP_HI_VALUE => .arr F.OBS_CNT_SNAP_HI_VALUE
  | .r_HDG => .range 0x780000 0x780100
  | .r_HLM_TRACE => .range 0x740000 0x760000
  | .r_MSIX => .range 0xC08000 0xC09010
  | .r_OBS_SAT => .range 0xE00040 0xE000C0
  | .r_OBS_SNAP => .range 0xE04000 0xE06000
  | .r_OBS_TRC_BUF => .range 0xE10000 0xE20000
  | .r_MEM_CFG => .range R.MEM_CFG (R.MEM_CFG + 4)
  | .r_MEM_DLY => .range 0xB00800 0xB00C00
  | .r_BOOT_SET => .range 0xD01000 0xD01800
  | .all => .all

/-- From `s` to `t` no register bit changed outside the areas listed. -/
def regsWithin (l : List Written) (s t : State) : Prop :=
  ∀ a j, (∀ x ∈ l, ¬ x.area.covers a j) → (t.reg a).getLsbD j = (s.reg a).getLsbD j

/-- The command `c` answers a next state of which `P` holds. -/
def answers (c : Instr) (s : State) (P : State → Prop) : Prop := ∃ t, exec c s = .next t ∧ P t

/-! ### Words of the claims -/

/-- The device went through RESET from `s` to `t` (R30, R10, R412): mode RESET, every block at its reset state, and fuses (but for the
row of a burn that it cuts, R340), flash, the hedge's latch and the retained registers kept; after a cold one every other register holds its reset word (CAL_STATUS.SHADOW_OK
follows the fuse shadow). -/
structure wasReset (cold : Bool) (s t : State) : Prop where
  mode : t.mode = mRESET
  raised : t.raises = []
  units : t.det = {} ∧ t.tdc = {} ∧ t.his = {} ∧ t.til = [] ∧ t.oq = {} ∧ t.emi = {} ∧ t.mer = {} ∧ t.cap = {} ∧ t.adc = {}
    ∧ t.obs = {}
  fuse : t.cal.fuse = s.burnTorn.cal.fuse
  flash : t.boot.flash = s.boot.flash
  latch : t.on F.HDG_STATUS_LATCH = s.on F.HDG_STATUS_LATCH
  regs : cold = true → ∀ a, keptReg a = false → a ≠ R.CAL_STATUS → t.reg a = resetWord a

end Sys2Proof.Machine
end

