-- ==== Sys2Proof/Machine/Changes.lean ====
section
/-! DEFINITION. What each command may change: the fields and words of the register map that it may write, and the parts of the state
beside them. A list named after an operation is what that operation may write. -/

namespace Sys2Proof.Machine

/-- What State.answer may write. -/
def wAnswer : List Written := [.SYS_MBOX_RESP_TAG, .SYS_MBOX_RESP_STATUS, .SYS_MBOX_RESP_MODE, .SYS_MBOX_RESP_DETAIL]

/-- What State.calResult may write. -/
def wCalResult : List Written := [.CAL_RESULT_QUALITY, .CAL_RESULT_ITEM, .CAL_RESULT_REJECTS, .CAL_RESULT_FIRST]

/-- What State.copyMasks may write. -/
def wCopyMasks : List Written := [.DET_STATUS_COMMIT_PENDING, .DET_CH_CFG_TRIM_ACT, .DET_CH_CFG_SPAD_CNT, .w_DET_SPAD_MASK_ACT]

/-- What State.sendInvalid may write. -/
def wSendInvalid : List Written := [.TDC_SNOOP_STATUS_FULL, .TDC_SNOOP_STATUS_COUNT, .TDC_QDROP_COUNT, .w_OBS_SAT]

/-- What State.tickEnd may write. -/
def wTickEnd : List Written := [.HLM_TRACE_STATUS_DONE, .HLM_TRACE_STATUS_RECORDING, .HLM_TRACE_STATUS_OLDEST, .w_HLM_TRACE_BUF]

/-- What State.brakeEnd may write. -/
def wBrakeEnd : List Written := [.SYS_PEND_STATUS_HLM, .HLM_STATUS_PENDING_ENABLE, .HLM_STATUS_HO_ACTIVE, .HLM_STATUS_SP_STATE,
  .HLM_STATUS_TL_STATE]

/-- What State.laneExit may write. -/
def wLaneExit : List Written := [.LNK_STATUS_ETH1_UP, .LNK_STATUS_ETH0_UP, .LNK_LANE_ST_LOL, .LNK_LANE_ST_LOS, .LNK_ETH_STATUS_UP]

/-- What State.halfEnable may write. -/
def wHalfEnable : List Written := [.SYS_PEND_STATUS_LNK_RX, .SYS_PEND_STATUS_LNK_TX, .LNK_ETH_CTRL_RX_EN, .LNK_ETH_CTRL_TX_EN,
  .LNK_ETH_STATUS_RX_PENDING, .LNK_ETH_STATUS_TX_PENDING]

/-- What State.thermSettle may write. -/
def wThermSettle : List Written := [.THM_STATUS_HOTTEST, .THM_STATUS_RZ_STALE, .THM_T_STAGE_T_RZ, .THM_T_STAGE_T_STAGE,
  .THM_SNS_T_USED, .THM_SNS_ST_FAST]

/-- What State.applyFrame may write. -/
def wApplyFrame : List Written := [.MER_STATUS_PC_WAIT, .MER_CAP_STATUS_ARMED, .MER_CAP_STATUS_SEG, .MER_CAPTURE_DROP_COUNT,
  .MER_CAP_DROP_CAUSE_RING, .MER_CAP_DROP_CAUSE_QUEUE, .MER_CAP_REJ_SEG_COUNT]

/-- What State.stamp may write. -/
def wStamp : List Written := [.LNK_PTP_STATUS_TS_AVAIL, .w_LNK_PTP_TS_LO, .LNK_PTP_TS_LO_NS, .w_LNK_PTP_TS_HI, .LNK_PTP_TS_HI_NS,
  .w_LNK_PTP_TS_INFO, .LNK_PTP_TS_INFO_VALID, .LNK_PTP_TS_INFO_DIR, .LNK_PTP_TS_INFO_PORT, .LNK_PTP_TS_INFO_SEQ_ID]

/-- What State.nextItem may write. -/
def wNextItem : List Written := [.DET_STATUS_PROBE_BUSY, .DET_PROBE_CFG_CHANNEL, .DET_PROBE_CFG_SPAD, .TDC_STATUS_TEST_ACTIVE,
  .TDC_TEST_CFG_SRC, .HIS_STATUS_SETTINGS_PENDING, .HIS_RECIPE_CAL_FIRE, .HIS_FIND_CFG_FIXWIN, .HIS_FIXWIN_EN, .HIS_FIXWIN_START,
  .SXT_STATUS_CDT_BUSY, .SXT_STATUS_ARMED, .SXT_STATUS_BUSY, .CAL_STATUS_ITEM]

/-- What State.hdlPump may write. -/
def wHdlPump : List Written := [.SYS_PEND_STATUS_MEM_SR, .MEM_STATUS_PENDING_ENABLE, .MEM_STATUS_STATE, .MEM_PORT_STATUS_URGENT,
  .MEM_PORT_CNT_BURSTS, .MEM_ECC_CE_CNT_COUNT, .MEM_ECC_UE_CNT_COUNT, .MEM_ECC_ADDR_LO_ADDR, .MEM_ECC_ADDR_HI_ADDR,
  .MEM_CNT_LINK_RETRY_COUNT, .MEM_ADDR_ERR_ADDR_ADDR, .MEM_ADDR_ERR_INFO_CAUSE, .MEM_ADDR_ERR_INFO_PORT, .MEM_ADDR_ERR_INFO_ADDR,
  .w_OBS_SAT]

/-- What State.hdlResend may write. -/
def wHdlResend : List Written := wHdlPump ++ [.BOOT_HDL_STATUS_RESULT, .BOOT_HDL_STATUS_TX_BUSY]

/-- What State.deliverSample may write. -/
def wDeliverSample : List Written := wTickEnd ++ [.EMI_LB_VAL_VALID, .EMI_LB_VAL_N, .HLM_STATUS_LAW_SAT, .HLM_MEAS_TILT_REF,
  .HLM_MEAS_TILT_POS, .MER_CAP_STATUS_ARMED, .MER_CAP_STATUS_SEG, .MER_CAPTURE_DROP_COUNT, .MER_CAP_DROP_CAUSE_RING,
  .MER_CAP_DROP_CAUSE_QUEUE, .MER_CAP_REJ_SEG_COUNT, .ADC_OVR_STATUS_OVR, .ADC_CNT_DISCARD_COUNT, .w_ADC_LAST, .w_OBS_SAT]

/-- What State.startCycle may write. -/
def wStartCycle : List Written := wCopyMasks ++ [.DET_SILENT_CNT_COUNT, .DET_CH_CFG_SILENT, .DET_CH_CFG_K_EFF, .TDC_STATUS_REJECT_CH,
  .TDC_STATUS_COMMIT_PENDING, .HIS_STATUS_SETTINGS_PENDING, .HIS_STATUS_CAL_RECIPE, .HIS_STATUS_PC_INDEX, .EMI_STATUS_REJ_P,
  .EMI_STATUS_REJ_VALID, .EMI_STATUS_COMMIT_PENDING, .EMI_STATUS_ACTIVE_BUF, .EMI_STATUS_STATE, .EMI_CHG_STATUS_DAC_CODE,
  .EMI_CURVE_ACT_DAC, .OBS_STATUS_STALE, .OBS_STATUS_SNAP_BUSY, .OBS_SNAP_MISS_COUNT, .w_OBS_SAT]

/-- What State.cmdDerate may write. -/
def wCmdDerate : List Written := wAnswer ++ [.SYS_MODE_STOPPING, .SYS_MODE_CAUSE, .SYS_MODE_PREV_MODE, .SYS_MODE_MODE,
  .SYS_PEND_STATUS_MODE_SCAN, .SYS_PEND_STATUS_SXT, .SYS_PEND_STATUS_MEM_SR, .TDC_STATUS_TEST_ACTIVE, .TDC_TEST_CFG_SRC,
  .EMI_STATUS_THROTTLE, .EMI_CHG_STATUS_DAC_CODE, .MER_STATUS_PC_WAIT, .SXT_CTRL_EN, .SXT_STATUS_PENDING_ENABLE,
  .SXT_STATUS_GATE_EDGE, .SXT_STATUS_DONE, .SXT_STATUS_ARMED, .SXT_STATUS_BUSY, .SXT_CFG_GATE_SRC, .SXT_CFG_STOP_SRC,
  .SXT_CFG_START_SRC, .THM_STATUS_THROTTLE, .MEM_STATUS_PENDING_ENABLE, .MEM_STATUS_STATE, .BOOT_STATUS_SESSION]

/-- What State.jump may write. -/
def wJump : List Written := wCmdDerate ++ [.TIL_EVT_CAUSE_CAUSE, .w_OBS_SAT]

/-- What State.emiFault may write. -/
def wEmiFault : List Written := wCmdDerate ++ [.SYS_PEND_STATUS_EMI, .EMI_STATUS_PENDING_ENABLE, .EMI_STATUS_STATE, .w_EMI_FAULT_CAUSE]

/-- What State.runRow may write. -/
def wRunRow : List Written := wJump ++ [.HIS_ECC_CE_CNT_COUNT, .HIS_ECC_UE_CNT_COUNT, .TIL_CNT_STALE_EMIT_COUNT,
  .TIL_ECC_CE_CNT_COUNT, .TIL_ECC_UE_CNT_COUNT]

/-- What State.goMode may write. -/
def wGoMode : List Written := wBrakeEnd ++ wAnswer ++ wTickEnd ++ [.SYS_MODE_CAUSE, .SYS_MODE_PREV_MODE, .SYS_MODE_MODE,
  .SYS_PEND_STATUS_SXT, .SYS_PEND_STATUS_MEM_SR, .TDC_STATUS_TEST_ACTIVE, .TDC_TEST_CFG_SRC, .EMI_STATUS_THROTTLE, .EMI_STATUS_STATE,
  .EMI_CHG_STATUS_DAC_CODE, .HDG_STATUS_SEAL_LOCK, .MER_STATUS_PC_WAIT, .SXT_CTRL_EN, .SXT_STATUS_PENDING_ENABLE,
  .SXT_STATUS_GATE_EDGE, .SXT_STATUS_DONE, .SXT_STATUS_ARMED, .SXT_STATUS_BUSY, .SXT_CFG_GATE_SRC, .SXT_CFG_STOP_SRC,
  .SXT_CFG_START_SRC, .THM_STATUS_THROTTLE, .MEM_STATUS_PENDING_ENABLE, .MEM_STATUS_STATE, .BOOT_STATUS_SESSION]

/-- What State.startPlan may write. -/
def wStartPlan : List Written := wGoMode ++ wNextItem ++ [.w_HIS_RECIPE_CAL, .w_HIS_FIND_CFG, .w_HIS_FIXWIN,
  .CAL_STATUS_RERUN_PENDING, .CAL_STATUS_JRN_BUSY, .CAL_STATUS_BUSY, .CAL_STATUS_PLAN, .CAL_JRN_STATUS_PENDING]

/-- What State.cmdRecovery may write. -/
def wCmdRecovery : List Written := wGoMode ++ [.DET_STATUS_BIAS_SETTLED, .DET_BIAS_STATUS_VHV_SET_CODE, .DET_BIAS_TARGET_TARGET,
  .MEM_CTRL_EN, .MEM_STATUS_INIT_BUSY, .MEM_SIZE_MIB, .MEM_TRN_STATE_VALID, .LNK_CTRL_ETH1_EN, .LNK_CTRL_ETH0_EN, .LNK_STATUS_ETH1_UP,
  .LNK_STATUS_ETH0_UP, .LNK_ETH_STATUS_RX_LPI, .LNK_ETH_STATUS_TX_LPI, .LNK_ETH_STATUS_BLOCK_LOCK, .LNK_ETH_STATUS_UP,
  .BOOT_HDL_STATUS_RESULT, .BOOT_HDL_STATUS_RX_BUSY, .BOOT_HDL_STATUS_TX_BUSY, .r_MEM_CFG, .r_MEM_DLY]

/-- What State.trip may write. -/
def wTrip : List Written := wGoMode ++ wCopyMasks ++ wJump ++ [.SYS_PEND_STATUS_EMI, .DET_SILENT_CNT_COUNT, .DET_CH_CFG_SILENT,
  .DET_CH_CFG_K_EFF, .TDC_STATUS_REJECT_CH, .TDC_STATUS_COMMIT_PENDING, .HIS_STATUS_SETTINGS_PENDING, .HIS_STATUS_RUNNING,
  .TIL_CNT_DROPPED_COUNT, .EMI_CTRL_EN, .EMI_STATUS_REJ_P, .EMI_STATUS_REJ_VALID, .EMI_STATUS_COMMIT_PENDING,
  .EMI_STATUS_PENDING_ENABLE, .EMI_CURVE_ACT_DAC, .HLM_CTRL_EN, .HDG_STATUS_RST_PHASE, .HDG_STATUS_CLEAR, .HDG_STATUS_LATCH,
  .HDG_STATUS_LI_LEVEL, .HDG_STATUS_STATE, .HDG_TRIP_CAUSE_FIRST, .HDG_TRIP_CAUSE_CAUSE, .HDG_PRESENT_CAUSE, .HDG_CNT_TRIP_COUNT,
  .MER_CAP_STATUS_ARMED, .MER_CAP_STATUS_SEG, .BOOT_STATUS_SLOT_WRITE, .BOOT_HDL_STATUS_RESULT, .BOOT_HDL_STATUS_RX_BUSY,
  .BOOT_HDL_STATUS_TX_BUSY]

/-- The register fields and words that a command may write. -/
def written (i : Instr) : List Written :=
  match i with
  | .resetNLow => [.all]
  | .resetEnd _ _ _ => wCmdRecovery ++ wCopyMasks ++ [.SYS_MODE_WARM, .SYS_CLK_STATUS_REF_PRESENT, .SYS_CLK_STATUS_MGMT_LOCK,
      .SYS_CLK_STATUS_TIL_LOCK, .SYS_CLK_STATUS_MAIN_LOCK, .DET_SILENT_CNT_COUNT, .DET_CH_CFG_SILENT, .DET_SPAD_MASK_MASK_HI,
      .DET_SPAD_MASK_MASK_LO, .TDC_STATUS_REJECT_CH, .TDC_STATUS_COMMIT_PENDING, .TDC_CH_CFG_SKEW, .w_TDC_LUT, .MER_STATUS_MASTER,
      .MER_STATUS_ID, .CAL_STATUS_SHADOW_OK, .CAL_FUSE_STATUS_SPARES_FREE, .THM_SNS_ST_STATE, .LNK_ETH_SMAC_LO_MAC,
      .LNK_ETH_SMAC_HI_MAC, .BOOT_STATUS_UPD_STATE, .BOOT_STATUS_FUSE_KEPT, .BOOT_STATUS_STEP, .BOOT_SERIAL_LO_SERIAL,
      .BOOT_SERIAL_HI_SERIAL, .BOOT_LOG_INDEX_NEXT]
  | .coreReset => [.all]
  | .hedgePowerOn _ _ => [.all]
  | .mainPllLockLoss => wTrip ++ [.SYS_CLK_STATUS_MAIN_LOCK]
  | .tillerPllLockLoss => wAnswer ++ [.SYS_MODE_STOPPING, .SYS_CLK_STATUS_TIL_LOCK, .MER_STATUS_PC_WAIT]
  | .managementPllLockLoss => [.all]
  | .lockstepMismatch _ => [.all]
  | .refSelChange _ _ => wHdlPump ++ [.SYS_CLK_CFG_REF_SEL, .SYS_CLK_STATUS_HDG_XCHK_OK, .SYS_CLK_STATUS_REF_PRESENT,
      .SYS_CLK_STATUS_MGMT_LOCK, .SYS_CLK_STATUS_TIL_LOCK, .SYS_CLK_STATUS_MAIN_LOCK]
  | .pllRelockComplete => [.all]
  | .registerAccessTimeout _ => [.w_OBS_SAT]
  | .registerWrite _ _ _ _ => [.all]
  | .rcRead _ => [.all]
  | .pfNFall => []
  | .sysPf => wAnswer ++ [.SYS_MODE_STOPPING, .MER_STATUS_PC_WAIT]
  | .pfNRise => [.CAL_STATUS_JRN_BUSY, .CAL_JRN_STATUS_PENDING]
  | .orderlyStopComplete => wGoMode ++ wHdlPump ++ [.SYS_MODE_STOPPING, .SYS_PEND_STATUS_MODE_SCAN, .MEM_CTRL_SR]
  | .spinTimeout => wGoMode
  | .spinUpLockAchieved => wStartPlan ++ [.SYS_MODE_STOPPING, .SYS_PEND_STATUS_MODE_SCAN]
  | .modeStandby _ _ => [.all]
  | .modeScan _ _ => [.all]
  | .modeCalibrate _ _ => [.all]
  | .derateEnter _ _ => [.all]
  | .derateRelease _ _ => [.all]
  | .resetWarm _ _ => [.all]
  | .resetCold _ _ => [.all]
  | .enterRecovery _ _ => [.all]
  | .modeQuery _ _ => [.all]
  | .maskCommit => [.DET_STATUS_COMMIT_PENDING, .w_OBS_SAT]
  | .maskCommitCopy => wCopyMasks ++ [.DET_SILENT_CNT_COUNT, .DET_CH_CFG_SILENT]
  | .probeStart => [.DET_STATUS_PROBE_BUSY, .w_OBS_SAT]
  | .probeGateEnd => [.DET_STATUS_PROBE_BUSY, .DET_PROBE_CFG_CHANNEL, .DET_PROBE_CFG_SPAD, .DET_PROBE_COUNT_COUNT]
  | .biasEnable => [.DET_CTRL_BIAS_EN, .DET_STATUS_BIAS_SETTLED, .DET_BIAS_TARGET_TARGET, .w_OBS_SAT]
  | .biasDisable => [.DET_CTRL_BIAS_EN, .DET_STATUS_BIAS_HIGH, .DET_STATUS_BIAS_LOW, .DET_STATUS_BIAS_SETTLED,
      .DET_BIAS_STATUS_VHV_SET_CODE, .w_OBS_SAT]
  | .biasSettled => [.DET_STATUS_BIAS_SETTLED]
  | .biasLoopUpdate _ => [.DET_BIAS_STATUS_VHV_SET_CODE, .DET_BIAS_STATUS_VSPAD_MEAS, .DET_BIAS_TARGET_TARGET]
  | .biasTargetRecompute => [.DET_STATUS_TEMP_STALE, .DET_STATUS_BIAS_LIMIT, .DET_BIAS_TARGET_TDET]
  | .tempStale => [.DET_STATUS_TEMP_STALE]
  | .biasMonitorEntry _ _ => [.DET_STATUS_BIAS_FLAP, .DET_STATUS_BIAS_HIGH, .DET_STATUS_BIAS_LOW]
  | .biasMonitorClear _ => [.DET_STATUS_BIAS_HIGH, .DET_STATUS_BIAS_LOW]
  | .biasFlapRelease => [.DET_STATUS_BIAS_FLAP, .DET_STATUS_BIAS_HIGH, .DET_STATUS_BIAS_LOW, .w_OBS_SAT]
  | .spadFiring _ _ _ => []
  | .tdcEdge _ _ _ _ => wSendInvalid
  | .dllUnlock _ => wSendInvalid ++ [.TDC_STATUS_DLL_LOCK]
  | .dllRelock _ => [.TDC_STATUS_DLL_LOCK]
  | .dllRelockRetry _ => []
  | .dllTrimLimit _ => []
  | .tdcCommit => [.TDC_STATUS_COMMIT_PENDING, .w_OBS_SAT]
  | .tdcCommitCopy => [.TDC_STATUS_REJECT_CH, .TDC_STATUS_COMMIT_PENDING]
  | .testSourceSelect _ => [.TDC_STATUS_TEST_ACTIVE, .TDC_TEST_CFG_SRC, .w_OBS_SAT]
  | .snoopArm _ _ => [.TDC_SNOOP_CFG_KIND_ALL, .TDC_SNOOP_CFG_CHANNEL, .TDC_SNOOP_STATUS_FULL, .TDC_SNOOP_STATUS_COUNT, .w_OBS_SAT]
  | .counterClearAll => [.w_OBS_SAT]
  | .counterClearSel => [.w_OBS_SAT]
  | .eventWord _ _ => [.HIS_ECC_CE_CNT_COUNT, .HIS_ECC_UE_CNT_COUNT, .HIS_LATE_WORD_CNT_COUNT, .w_OBS_SAT]
  | .pointCyclesStart _ => wStartCycle ++ [.HIS_STATUS_RUNNING, .MER_STATUS_PC_WAIT]
  | .slotPrepare => wTrip ++ [.EMI_CNT_CLAMP_COUNT]
  | .shotSlotOpen _ => wSendInvalid ++ [.HIS_ECC_CE_CNT_COUNT, .HIS_ECC_UE_CNT_COUNT, .EMI_STATUS_PTR, .MER_CAP_STATUS_ARMED,
      .MER_CAP_STATUS_SEG, .MER_CAPTURE_DROP_COUNT, .MER_CAP_DROP_CAUSE_RING, .MER_CAP_DROP_CAUSE_QUEUE, .MER_CAP_REJ_SEG_COUNT]
  | .fallowSlotOpen _ => wSendInvalid ++ wTickEnd ++ [.HIS_ECC_CE_CNT_COUNT, .HIS_ECC_UE_CNT_COUNT, .TIL_CNT_CAND_STALE_COUNT,
      .HLM_STATUS_LAW_SAT, .HLM_MEAS_TILT_REF, .HLM_MEAS_TILT_POS, .MER_CAP_STATUS_ARMED, .MER_CAP_STATUS_SEG,
      .MER_CAPTURE_DROP_COUNT, .MER_CAP_DROP_CAUSE_RING, .MER_CAP_DROP_CAUSE_QUEUE, .MER_CAP_REJ_SEG_COUNT]
  | .lanePublication _ => [.HIS_ECC_CE_CNT_COUNT, .HIS_ECC_UE_CNT_COUNT, .w_OBS_SAT]
  | .harrowDeadline => []
  | .windowWrite _ => [.HIS_LATE_CNT_COUNT, .HIS_LAST_LATE_CHANNEL, .TIL_EVT_CAUSE_CAUSE, .TIL_CNT_FWQ_REJ_COUNT, .w_OBS_SAT]
  | .depthWrite _ => [.HIS_LATE_CNT_COUNT, .HIS_LAST_LATE_CHANNEL, .TIL_EVT_CAUSE_CAUSE, .TIL_CNT_FWQ_REJ_COUNT, .w_OBS_SAT]
  | .harrowBankSwap _ => wJump ++ wStartCycle ++ [.HIS_STATUS_RUNNING, .HIS_ECC_CE_CNT_COUNT, .HIS_ECC_UE_CNT_COUNT,
      .TIL_CNT_DROPPED_COUNT]
  | .bankFreeze => [.MER_CAP_STATUS_ARMED, .MER_CAP_STATUS_SEG]
  | .bankClearComplete => []
  | .run _ => wStartPlan ++ wJump ++ [.TIL_CNT_STALE_EMIT_COUNT, .TIL_ECC_CE_CNT_COUNT]
  | .halt _ => [.w_OBS_SAT]
  | .haltAtBoundary _ => wCmdDerate ++ [.TIL_EVT_CAUSE_CAUSE]
  | .step _ _ => wStartPlan ++ wRunRow
  | .memInit _ => wStartPlan ++ [.SYS_MODE_STOPPING, .SYS_PEND_STATUS_MODE_SCAN, .w_OBS_SAT]
  | .memInitComplete _ => []
  | .groupRun => wStartPlan ++ wJump ++ [.TIL_CNT_STALE_EMIT_COUNT, .TIL_ECC_CE_CNT_COUNT]
  | .groupHalt => [.w_OBS_SAT]
  | .tilPcWrite _ _ => [.w_OBS_SAT]
  | .breakpoint _ => wCmdDerate ++ [.TIL_EVT_CAUSE_CAUSE]
  | .tillerMemoryWrite _ _ _ _ => [.w_OBS_SAT]
  | .tillerMemoryRead _ _ _ => [.TIL_EVT_CAUSE_CAUSE, .TIL_ECC_CE_CNT_COUNT, .TIL_ECC_UE_CNT_COUNT, .w_OBS_SAT]
  | .broadcastWrite _ _ _ => [.w_OBS_SAT]
  | .scrubRead _ _ => [.TIL_EVT_CAUSE_CAUSE, .TIL_ECC_CE_CNT_COUNT, .TIL_ECC_UE_CNT_COUNT]
  | .attention _ _ => [.HIS_ECC_CE_CNT_COUNT, .HIS_ECC_UE_CNT_COUNT, .TIL_EVT_CAUSE_CAUSE, .TIL_ECC_CE_CNT_COUNT,
      .TIL_ECC_UE_CNT_COUNT, .w_OBS_SAT]
  | .dlAlarm _ => []
  | .ownershipEnd => wJump ++ [.TIL_CNT_DROPPED_COUNT]
  | .emitAdmission _ => [.TIL_OQ_STALL_CNT_COUNT, .w_OBS_SAT]
  | .blockAccepted => wJump ++ [.TIL_CNT_EMIT_COUNT, .TIL_ECC_CE_CNT_COUNT]
  | .stagingRecord _ => wHdlPump ++ [.MEM_PB_WPTR_OFS, .MEM_PB_OVF_CNT_COUNT, .MEM_PB_OVF_CAUSE_WINDOW, .MEM_PB_OVF_CAUSE_FULL]
  | .illegalInstruction _ => wJump ++ [.TIL_ECC_CE_CNT_COUNT, .TIL_ECC_UE_CNT_COUNT]
  | .imemUeFetch _ => wJump ++ [.TIL_ECC_CE_CNT_COUNT, .TIL_ECC_UE_CNT_COUNT]
  | .add _ _ _ _ => wRunRow
  | .sub _ _ _ _ => wRunRow
  | .and _ _ _ _ => wRunRow
  | .or _ _ _ _ => wRunRow
  | .xor _ _ _ _ => wRunRow
  | .sll _ _ _ _ => wRunRow
  | .srl _ _ _ _ => wRunRow
  | .sra _ _ _ _ => wRunRow
  | .slt _ _ _ _ => wRunRow
  | .sltu _ _ _ _ => wRunRow
  | .min _ _ _ _ => wRunRow
  | .max _ _ _ _ => wRunRow
  | .minu _ _ _ _ => wRunRow
  | .maxu _ _ _ _ => wRunRow
  | .mul _ _ _ _ => wRunRow
  | .mulh _ _ _ _ => wRunRow
  | .mulhu _ _ _ _ => wRunRow
  | .divu _ _ _ _ => wRunRow
  | .remu _ _ _ _ => wRunRow
  | .cmp _ _ _ => wRunRow
  | .tst _ _ _ => wRunRow
  | .slli _ _ _ _ => wRunRow
  | .srli _ _ _ _ => wRunRow
  | .srai _ _ _ _ => wRunRow
  | .extu _ _ _ _ _ => wRunRow
  | .clz _ _ _ => wRunRow
  | .popc _ _ _ => wRunRow
  | .adds _ _ _ _ => wRunRow
  | .subs _ _ _ _ => wRunRow
  | .addi _ _ _ _ => wRunRow
  | .andi _ _ _ _ => wRunRow
  | .ori _ _ _ _ => wRunRow
  | .xori _ _ _ _ => wRunRow
  | .lui _ _ _ => wRunRow
  | .cmpi _ _ _ => wRunRow
  | .slti _ _ _ _ => wRunRow
  | .lw _ _ _ _ _ => wRunRow
  | .sw _ _ _ _ => wRunRow
  | .vld _ _ _ _ => wRunRow
  | .vst _ _ _ _ => wRunRow
  | .vbwl _ _ _ _ => wRunRow
  | .bc _ _ _ => wRunRow
  | .jal _ _ _ => wRunRow
  | .jalr _ _ _ _ => wRunRow
  | .vadd _ _ _ _ _ => wRunRow
  | .vsub _ _ _ _ _ => wRunRow
  | .vaddsu _ _ _ _ _ => wRunRow
  | .vsubsu _ _ _ _ _ => wRunRow
  | .vadds _ _ _ _ _ => wRunRow
  | .vsubs _ _ _ _ _ => wRunRow
  | .vmul _ _ _ _ _ => wRunRow
  | .vmin _ _ _ _ _ => wRunRow
  | .vmax _ _ _ _ _ => wRunRow
  | .vmins _ _ _ _ _ => wRunRow
  | .vmaxs _ _ _ _ _ => wRunRow
  | .vand _ _ _ _ _ => wRunRow
  | .vor _ _ _ _ _ => wRunRow
  | .vxor _ _ _ _ _ => wRunRow
  | .vcmpeq _ _ _ _ _ => wRunRow
  | .vcmpgtu _ _ _ _ _ => wRunRow
  | .vcmpgt _ _ _ _ _ => wRunRow
  | .vsel _ _ _ _ => wRunRow
  | .vslli _ _ _ _ _ => wRunRow
  | .vsrli _ _ _ _ _ => wRunRow
  | .vsrai _ _ _ _ _ => wRunRow
  | .vzxl _ _ _ => wRunRow
  | .vzxh _ _ _ => wRunRow
  | .vnars _ _ _ _ => wRunRow
  | .vsplat _ _ _ _ => wRunRow
  | .vext _ _ _ _ _ => wRunRow
  | .vins _ _ _ _ _ => wRunRow
  | .vrsum _ _ _ _ => wRunRow
  | .vrmaxu _ _ _ _ => wRunRow
  | .vmacc _ _ _ _ _ => wRunRow
  | .vpidx _ _ _ _ => wRunRow
  | .vcent _ _ _ _ => wRunRow
  | .vcoat _ _ _ _ => wRunRow
  | .fsend _ _ => wRunRow
  | .fsendStallEnd _ => wJump
  | .frecvN _ _ => wRunRow
  | .frecvW _ _ => wRunRow
  | .frecvWComplete _ => wJump
  | .emit _ _ _ _ => wRunRow
  | .nop _ => wRunRow
  | .trap _ => wRunRow
  | .tret _ => wRunRow
  | .aret _ => wRunRow
  | .fence _ => wRunRow
  | .rdfl _ _ => wRunRow
  | .wrfl _ _ => wRunRow
  | .programBankProcess _ _ => wRunRow
  | .tNowUpdate => []
  | .emitterEnable => [.SYS_PEND_STATUS_EMI, .EMI_CTRL_EN, .EMI_STATUS_PENDING_ENABLE, .EMI_STATUS_STATE, .EMI_CHG_STATUS_DAC_CODE,
      .w_OBS_SAT]
  | .emitterDisable => [.SYS_PEND_STATUS_EMI, .EMI_CTRL_EN, .EMI_STATUS_PENDING_ENABLE, .EMI_STATUS_STATE, .EMI_CHG_STATUS_DAC_CODE,
      .w_OBS_SAT]
  | .faultClr => wStartPlan ++ [.SYS_MODE_STOPPING, .SYS_PEND_STATUS_MODE_SCAN, .w_EMI_FAULT_CAUSE, .w_OBS_SAT]
  | .shortTest => [.w_OBS_SAT]
  | .lineTestStep _ => wEmiFault ++ [.EMI_ROW_SHORT_SHORT, .EMI_ROW_OPEN_OPEN, .EMI_COL_FAULT_OPEN, .EMI_COL_FAULT_SHORT]
  | .lineTestPassEnd => []
  | .curveCommit => [.EMI_STATUS_COMMIT_PENDING, .w_OBS_SAT]
  | .curveCommitCopy => [.EMI_STATUS_REJ_P, .EMI_STATUS_REJ_VALID, .EMI_STATUS_COMMIT_PENDING, .EMI_CHG_STATUS_DAC_CODE,
      .EMI_CURVE_ACT_DAC]
  | .seedMapWrite _ _ _ _ => [.all]
  | .sweepSync _ => wTickEnd ++ [.HLM_STATUS_LAW_SAT, .HLM_MEAS_TILT_REF, .HLM_MEAS_TILT_POS, .MER_CAP_STATUS_ARMED,
      .MER_CAP_STATUS_SEG, .MER_CAPTURE_DROP_COUNT, .MER_CAP_DROP_CAUSE_RING, .MER_CAP_DROP_CAUSE_QUEUE, .MER_CAP_REJ_SEG_COUNT,
      .OBS_STATUS_STALE, .OBS_STATUS_SNAP_BUSY, .OBS_SNAP_MISS_COUNT, .w_OBS_SAT]
  | .chargeCheck _ => wTrip ++ [.EMI_CHG_STATUS_FB_MEAS, .EMI_CNT_SUPPRESS_COUNT, .EMI_CNT_UNDER_COUNT]
  | .emFireEdge _ _ => wTrip ++ [.EMI_CNT_SHOTS_COUNT]
  | .dacUpdate => [.EMI_CHG_STATUS_DAC_CODE]
  | .monitorEdge _ => wEmiFault ++ [.EMI_CNT_ROGUE_COUNT]
  | .monitorWindowClose => wEmiFault ++ [.EMI_CNT_MON_MISS_COUNT]
  | .dischargeComplete _ => [.SYS_PEND_STATUS_EMI, .EMI_STATUS_PENDING_ENABLE, .EMI_STATUS_STATE, .EMI_CHG_STATUS_FB_MEAS,
      .EMI_CHG_STATUS_DAC_CODE]
  | .disTimeout => wEmiFault
  | .lbWatchEnable => [.EMI_STATUS_LB_STAGE, .EMI_LB_CFG_EN, .EMI_CHG_STATUS_DAC_CODE, .w_OBS_SAT]
  | .lbWatchDisable => [.EMI_STATUS_LB_STAGE, .EMI_LB_CFG_EN, .EMI_LB_VAL_VALID, .EMI_CHG_STATUS_DAC_CODE, .w_OBS_SAT]
  | .lbStageRise _ => wEmiFault ++ [.EMI_STATUS_LB_FLAP, .EMI_STATUS_LB_STAGE]
  | .lbStageFall _ => [.EMI_STATUS_LB_FLAP, .EMI_STATUS_LB_STAGE, .EMI_CHG_STATUS_DAC_CODE]
  | .lbStale _ => wEmiFault ++ [.EMI_STATUS_LB_FLAP, .EMI_STATUS_LB_STAGE, .EMI_LB_VAL_VALID]
  | .helmTick _ _ _ => wTickEnd ++ [.HLM_STATUS_FACET, .HLM_STATUS_HO_ACTIVE, .HLM_STATUS_COMMIT_PENDING, .HLM_STATUS_SP_STATE,
      .HLM_STATUS_TL_STATE, .HLM_STATUS_LAW_SAT, .HLM_MEAS_ANGLE_THETA, .HLM_MEAS_SPEED_OMEGA, .HLM_MEAS_PHASE_E_PH,
      .HLM_MEAS_TILT_REF, .HLM_MEAS_TILT_POS, .w_OBS_SAT]
  | .encoderTransition _ _ _ => wBrakeEnd ++ wTickEnd ++ [.HLM_STATUS_FACET, .HLM_STATUS_INDEX_SEEN, .HLM_FAULT_CAUSE_CAUSE,
      .HLM_ENC_COUNT_COUNT, .HLM_CNT_ENC_ERR_COUNT]
  | .encoderIndex => wBrakeEnd ++ wTickEnd ++ [.HLM_STATUS_FACET, .HLM_STATUS_INDEX_SEEN, .HLM_FAULT_CAUSE_CAUSE,
      .HLM_ENC_COUNT_COUNT, .HLM_CNT_ENC_ERR_COUNT]
  | .facetCrossing _ => [.HLM_STATUS_FACET]
  | .helmEnable => wBrakeEnd ++ wTickEnd ++ [.HLM_CTRL_EN, .w_OBS_SAT]
  | .helmDisable => wBrakeEnd ++ wTickEnd ++ [.HLM_CTRL_EN, .w_OBS_SAT]
  | .lawCommit => [.HLM_STATUS_COMMIT_PENDING, .w_OBS_SAT]
  | .helmFaultClear => wBrakeEnd ++ wTickEnd ++ [.HLM_FAULT_CAUSE_CAUSE, .w_OBS_SAT]
  | .traceArm => [.HLM_TRACE_STATUS_DONE, .HLM_TRACE_STATUS_RECORDING, .HLM_TRACE_STATUS_OLDEST, .w_OBS_SAT, .r_HLM_TRACE]
  | .traceForce => [.w_OBS_SAT]
  | .speedRefWrite _ => [.HLM_STATUS_HO_ACTIVE, .HLM_STATUS_SP_STATE, .HLM_STATUS_TL_STATE, .HLM_SPEED_REF_TARGET, .w_OBS_SAT]
  | .catchMeasureEnd => [.HLM_STATUS_HO_ACTIVE, .HLM_STATUS_SP_STATE, .HLM_STATUS_TL_STATE]
  | .lockAttempt => wTickEnd ++ [.HLM_STATUS_HO_ACTIVE, .HLM_STATUS_SP_STATE, .HLM_STATUS_TL_STATE, .HLM_STATUS_LAW_SAT,
      .HLM_MEAS_PHASE_E_PH, .HLM_CNT_LOCK_REF_COUNT, .w_OBS_SAT]
  | .unlock _ => wTickEnd ++ [.HLM_STATUS_LOCK_FLAP, .HLM_STATUS_HO_ACTIVE, .HLM_STATUS_SP_STATE, .HLM_STATUS_TL_STATE,
      .HLM_CNT_UNLOCK_COUNT]
  | .lockFlapRelease => [.HLM_STATUS_LOCK_FLAP, .w_OBS_SAT]
  | .handoverEnd => [.HLM_STATUS_HO_ACTIVE]
  | .standstill => wBrakeEnd
  | .brakeTimeout => wBrakeEnd
  | .stall => wBrakeEnd ++ wTickEnd ++ [.HLM_FAULT_CAUSE_CAUSE]
  | .bridgeFault => wBrakeEnd ++ wTickEnd ++ [.HLM_FAULT_CAUSE_CAUSE]
  | .hallFault => wBrakeEnd ++ wTickEnd ++ [.HLM_FAULT_CAUSE_CAUSE]
  | .tiltSense => [.HLM_STATUS_TL_STATE, .HLM_FAULT_CAUSE_CAUSE]
  | .tiltTrack => [.HLM_STATUS_TL_STATE, .HLM_FAULT_CAUSE_CAUSE]
  | .hedgeEncoderCount _ _ => wTrip ++ [.HDG_CNT_ENC_ERR_COUNT]
  | .speedFrameEnd _ => wTrip ++ [.SYS_CLK_STATUS_HDG_XCHK_OK, .HDG_MEAS_SPEED_COUNT, .HDG_MEAS_RC_ERR]
  | .hedgeRelease => [.EMI_STATUS_STATE, .EMI_CHG_STATUS_DAC_CODE, .HDG_STATUS_CLEAR, .HDG_STATUS_LI_LEVEL, .HDG_STATUS_STATE,
      .HDG_PRESENT_CAUSE]
  | .hedgeRequestChange => [.EMI_STATUS_STATE, .EMI_CHG_STATUS_DAC_CODE, .HDG_STATUS_CLEAR, .HDG_STATUS_LI_LEVEL, .HDG_STATUS_REQ,
      .HDG_STATUS_STATE, .HDG_PRESENT_CAUSE]
  | .hedgeTiltConversion _ => wTrip ++ [.HDG_MEAS_TILT_CODE, .HDG_CNT_BLANK_COUNT]
  | .fovDwellExpiry => wTrip
  | .powerCodeEntry => wTrip ++ [.HDG_ENERGY_MAX_SUM]
  | .correctionEntry => [.HDG_STATUS_CLEAR, .HDG_PRESENT_CAUSE]
  | .energyBucketRoll => [.HDG_STATUS_CLEAR, .HDG_PRESENT_CAUSE]
  | .liReadback _ => wTrip
  | .hedgeChannelMismatch => wTrip
  | .pwmGate => [.HDG_STATUS_PWM_GATE]
  | .strapReread _ _ => wTrip ++ [.HDG_STRAPS_FLOAT]
  | .limitRecheck _ => wTrip ++ [.HDG_LIM_SPEED_MAX, .HDG_LIM_SPEED_MIN, .HDG_LIM_BUDGET_BUDGET, .HDG_LIM_POS_MAX, .HDG_LIM_POS_MIN,
      .HDG_LIM_FOV_MAX, .HDG_LIM_FOV_MIN, .HDG_LIM_MISC_FOV_DWELL, .HDG_LIM_MISC_DIR_LIMIT]
  | .sealLock => [.HDG_STATUS_SEAL_LOCK, .w_OBS_SAT]
  | .safeRstLowRegistered _ => [.HDG_STATUS_RST_PHASE]
  | .safeRstHighRegistered _ => [.HDG_STATUS_RST_PHASE]
  | .safeRstStuck => [.HDG_STATUS_RST_PHASE]
  | .resetPairComplete => wCmdRecovery ++ [.HDG_STATUS_PWM_GATE, .HDG_STATUS_RST_PHASE, .HDG_STATUS_CLEAR, .HDG_STATUS_LATCH,
      .HDG_STATUS_LI_LEVEL, .HDG_STATUS_STATE, .HDG_TRIP_CAUSE_FIRST, .HDG_TRIP_CAUSE_CAUSE, .HDG_PRESENT_CAUSE,
      .HDG_CNT_RST_REF_COUNT]
  | .meridianEnable => [.MER_CTRL_EN, .MER_STATUS_STATE, .w_OBS_SAT]
  | .listenEnd _ => [.MER_STATUS_STATE]
  | .rtRestart => [.MER_STATUS_UNITS_OK, .MER_STATUS_ID_CONFLICT, .w_MER_RT, .w_OBS_SAT]
  | .trigSend => [.w_OBS_SAT]
  | .epochDue _ => [.MER_STATUS_AS_HOLD]
  | .pingDue => []
  | .frameLaunch _ _ => []
  | .sweepFrame _ => wApplyFrame ++ [.MER_STATUS_ID_CONFLICT, .MER_STATUS_STATE, .MER_CNT_LATE_COUNT, .w_OBS_SAT]
  | .epochFrame _ => wApplyFrame ++ [.MER_STATUS_ID_CONFLICT, .MER_STATUS_STATE, .MER_CNT_LATE_COUNT, .w_OBS_SAT]
  | .pingFrame _ _ => [.MER_STATUS_ID_CONFLICT, .MER_STATUS_STATE, .w_OBS_SAT]
  | .pongLaunch => []
  | .pongFrame _ _ _ _ => [.MER_STATUS_UNITS_OK, .MER_STATUS_ID_CONFLICT, .MER_STATUS_STATE, .w_OBS_SAT]
  | .pongTimeout => []
  | .delayCompute => [.MER_STATUS_UNITS_OK, .MER_RT_VALID, .MER_RT_D16]
  | .delayFrame _ _ _ => [.MER_STATUS_ID_CONFLICT, .MER_STATUS_STATE, .MER_DELAY_D16, .w_OBS_SAT]
  | .trigFrame _ => wApplyFrame ++ [.MER_STATUS_ID_CONFLICT, .MER_STATUS_STATE, .MER_CNT_LATE_COUNT, .w_OBS_SAT]
  | .badFrame => [.MER_STATUS_UNITS_OK, .MER_STATUS_ID_CONFLICT, .MER_CNT_FRAME_ERR_COUNT]
  | .frameApplication _ => wApplyFrame
  | .alignmentAverage => [.MER_STATUS_STATE, .MER_PHASE_PHI]
  | .phaseStep => [.MER_PHASE_STEPS]
  | .meridianLost => [.MER_STATUS_STATE]
  | .captureEnable => [.SYS_PEND_STATUS_CAPTURE, .MER_CAP_CTRL_EN, .MER_CAP_STATUS_PENDING_ENABLE, .MER_CAP_STATUS_DONE,
      .MER_CAP_STATUS_ARMED, .w_OBS_SAT]
  | .captureDisable => [.SYS_PEND_STATUS_CAPTURE, .MER_CAP_CTRL_EN, .MER_CAP_STATUS_PENDING_ENABLE, .MER_CAP_STATUS_SEG,
      .MER_CAPTURE_DROP_COUNT, .MER_CAP_DROP_CAUSE_SHUTDOWN, .w_OBS_SAT]
  | .captureShutdownComplete => [.SYS_PEND_STATUS_CAPTURE, .MER_CAP_CTRL_EN, .MER_CAP_STATUS_PENDING_ENABLE, .MER_CAP_STATUS_DONE,
      .MER_CAP_STATUS_ARMED]
  | .captureArm => [.MER_CAP_STATUS_DONE, .MER_CAP_STATUS_ARMED, .w_OBS_SAT]
  | .captureForce _ => [.MER_CAP_STATUS_ARMED, .MER_CAP_STATUS_SEG, .MER_CAPTURE_DROP_COUNT, .MER_CAP_DROP_CAUSE_RING,
      .MER_CAP_DROP_CAUSE_QUEUE, .MER_CAP_REJ_SEG_COUNT, .w_OBS_SAT]
  | .captureRecordComplete => wHdlPump ++ [.MER_CAP_STATUS_DONE, .MER_CAP_WPTR_OFS, .MER_CAP_RECORDS_COUNT]
  | .sextantEnable => [.SYS_PEND_STATUS_SXT, .SXT_CTRL_EN, .SXT_STATUS_PENDING_ENABLE, .SXT_STATUS_GATE_EDGE, .SXT_STATUS_DONE,
      .SXT_STATUS_ARMED, .SXT_STATUS_BUSY, .w_OBS_SAT]
  | .sextantDisable => [.SYS_PEND_STATUS_SXT, .SXT_CTRL_EN, .SXT_STATUS_PENDING_ENABLE, .SXT_STATUS_ARMED, .SXT_STATUS_BUSY,
      .w_OBS_SAT]
  | .sextantArm => [.SXT_STATUS_GATE_EDGE, .SXT_STATUS_DONE, .SXT_STATUS_ARMED, .SXT_STATUS_BUSY, .w_OBS_SAT]
  | .sextantStartEdge _ _ _ => [.SXT_STATUS_GATE_EDGE, .SXT_STATUS_BUSY, .SXT_LAST_T, .w_OBS_SAT]
  | .sextantStopEdge _ _ _ => [.SXT_STATUS_BUSY, .SXT_LAST_T, .w_OBS_SAT]
  | .sextantMeasurementTimeout => [.SXT_STATUS_BUSY, .w_OBS_SAT]
  | .sextantSetComplete => wNextItem ++ [.SYS_PEND_STATUS_SXT, .SXT_CTRL_EN, .SXT_STATUS_PENDING_ENABLE, .SXT_STATUS_GATE_EDGE,
      .SXT_STATUS_DONE, .SXT_CFG_GATE_SRC, .SXT_CFG_STOP_SRC, .SXT_CFG_START_SRC, .SXT_COUNT_MISS, .SXT_COUNT_VALID,
      .SXT_MEAN_LO_MEAN, .SXT_MEAN_HI_MEAN, .SXT_SD_SD, .SXT_MIN_MIN, .SXT_MAX_MAX, .CAL_RZ_LAT_LAT0, .CAL_LAST_RZ_AGE,
      .CAL_LAST_RZ_TEMP]
  | .sxtGateEdge _ _ => [.SXT_STATUS_GATE_EDGE, .SXT_STATUS_DONE, .SXT_STATUS_ARMED, .SXT_STATUS_BUSY]
  | .cdtRun => [.SXT_STATUS_CDT_BUSY, .w_OBS_SAT]
  | .cdtRunComplete _ _ => wNextItem ++ wCalResult ++ [.w_SXT_CDT_START, .w_SXT_CDT_STOP]
  | .cdtCommit => [.w_OBS_SAT]
  | .adcEnable => [.ADC_CTRL_EN, .ADC_STATUS_RUNNING, .ADC_STATUS_ENTRY, .ADC_FLAP_STATUS_FLAP, .ADC_FE_STATUS_RANGE_FLAP,
      .ADC_FE_STATUS_SETTLING, .ADC_FE_STATUS_RANGE, .w_OBS_SAT]
  | .adcDisable => [.ADC_CTRL_EN, .ADC_STATUS_RUNNING, .ADC_STATUS_ENTRY, .ADC_FE_STATUS_IN_WINDOW, .ADC_FE_STATUS_SETTLING,
      .w_OBS_SAT]
  | .adcSample _ _ => wDeliverSample ++ [.ADC_STATUS_ENTRY, .ADC_FLAP_STATUS_FLAP, .ADC_FE_STATUS_IN_WINDOW,
      .ADC_FE_STATUS_RANGE_FLAP, .ADC_FE_STATUS_RANGE]
  | .hostUrgentRequest _ => [.ADC_STATUS_HOST_URG_BUSY, .ADC_URGENT_INPUT, .w_OBS_SAT]
  | .urgentSample _ _ => wDeliverSample ++ [.ADC_STATUS_HOST_URG_DONE, .ADC_STATUS_HOST_URG_BUSY, .w_ADC_URG_RESULT,
      .ADC_FLAP_STATUS_FLAP, .ADC_FE_STATUS_RANGE_FLAP, .ADC_FE_STATUS_RANGE]
  | .feConfigWrite _ _ _ _ => [.ADC_STATUS_ENTRY, .ADC_FLAP_STATUS_FLAP, .w_ADC_FE_CFG, .w_ADC_FE_PULSE, .w_ADC_FE_SWAP,
      .ADC_FE_STATUS_IN_WINDOW, .ADC_FE_STATUS_SWAP, .ADC_FE_STATUS_RANGE_FLAP, .ADC_FE_STATUS_NO_WINDOW, .ADC_FE_STATUS_SETTLING,
      .ADC_FE_STATUS_RANGE, .w_OBS_SAT]
  | .settleEnd _ => [.ADC_STATUS_ENTRY, .ADC_FE_STATUS_IN_WINDOW, .ADC_FE_STATUS_SETTLING]
  | .excitationPulseOn _ => [.ADC_STATUS_ENTRY, .ADC_FE_STATUS_IN_WINDOW, .ADC_FE_STATUS_SWAP, .ADC_FE_STATUS_SETTLING]
  | .excitationPulseOff _ => [.ADC_STATUS_ENTRY, .ADC_FE_STATUS_IN_WINDOW]
  | .currentSwap _ => [.ADC_FE_STATUS_SWAP, .ADC_FE_STATUS_SETTLING]
  | .rangeFlapRelease _ => [.ADC_FLAP_STATUS_FLAP, .ADC_FE_STATUS_RANGE_FLAP, .w_OBS_SAT]
  | .excitationFaultEntry _ _ => [.ADC_EXC_STATUS_FAULT, .ADC_FE_STATUS_EXC_FLAP, .ADC_FE_STATUS_EXC_FAULT]
  | .excitationFaultClear _ => [.ADC_EXC_STATUS_FAULT, .ADC_FE_STATUS_EXC_FAULT]
  | .excFlapRelease _ => [.ADC_FE_STATUS_EXC_FLAP, .w_OBS_SAT]
  | .codeDensityItem => wNextItem ++ wCalResult ++ [.TDC_STATUS_COMMIT_PENDING, .w_TDC_LUT, .CAL_LAST_CD_AGE, .CAL_LAST_CD_TEMP]
  | .rangeZeroItem => wNextItem ++ wCalResult ++ [.SYS_PEND_STATUS_SXT, .SXT_CTRL_EN, .SXT_STATUS_PENDING_ENABLE,
      .SXT_STATUS_GATE_EDGE, .SXT_STATUS_DONE, .SXT_CFG_GATE_SRC, .SXT_CFG_STOP_SRC, .SXT_CFG_START_SRC]
  | .spadSurvey => wNextItem ++ wCalResult ++ [.DET_STATUS_COMMIT_PENDING, .DET_SPAD_MASK_MASK_HI, .DET_SPAD_MASK_MASK_LO]
  | .planEnd _ => wStartPlan ++ [.SYS_MODE_STOPPING, .SYS_PEND_STATUS_MODE_SCAN, .BOOT_STATUS_CD_DUE, .BOOT_STATUS_STEP]
  | .clrField => [.DET_SILENT_CNT_COUNT, .DET_CH_CFG_SPAD_CNT, .DET_CH_CFG_SILENT, .DET_SPAD_MASK_MASK_HI, .DET_SPAD_MASK_MASK_LO,
      .w_DET_SPAD_MASK_ACT, .w_OBS_SAT]
  | .rzDriftEntry _ => [.CAL_STATUS_RZ_FLAP, .CAL_STATUS_RERUN_PENDING]
  | .rzDriftClear => []
  | .rzFlapRelease => [.CAL_STATUS_RZ_FLAP, .w_OBS_SAT]
  | .rerunDue => wStartPlan
  | .legacyCommit => wCalResult ++ [.CAL_LEG_TEMP_TEMP, .CAL_LEG_STATUS_LOADED, .w_OBS_SAT]
  | .legacyInterpolation => [.TDC_STATUS_COMMIT_PENDING, .TDC_CH_CFG_SKEW, .CAL_STATUS_LEG_ACTIVE, .CAL_LEG_BOFS_BOFS]
  | .fuseBurn _ => [.CAL_FUSE_STATUS_BUSY, .w_OBS_SAT]
  | .fuseBurnComplete _ => [.CAL_FUSE_STATUS_SPARES_FREE, .CAL_FUSE_STATUS_RESULT, .CAL_FUSE_STATUS_BUSY]
  | .journalSave => [.CAL_STATUS_JRN_BUSY, .CAL_JRN_STATUS_PENDING, .w_OBS_SAT]
  | .journalSaveComplete _ => [.all]
  | .sensorConversion _ _ => wThermSettle ++ [.THM_SNS_T_RAW]
  | .sensorFail _ _ => wThermSettle ++ [.THM_SNS_ST_STATE, .THM_SNS_ST_CAUSE]
  | .readmit _ => wThermSettle ++ [.THM_SNS_CTRL_SENSOR, .THM_RETIRED_MASK, .THM_SNS_ST_STATE, .THM_SNS_ST_CAUSE, .w_OBS_SAT]
  | .retire _ => wThermSettle ++ [.THM_SNS_CTRL_SENSOR, .THM_RETIRED_MASK, .THM_SNS_ST_STATE, .THM_SNS_ST_CAUSE, .w_OBS_SAT]
  | .thermalIndicatorEntry _ _ => wGoMode ++ [.SYS_MODE_STOPPING, .SYS_PEND_STATUS_MODE_SCAN, .THM_STATUS_FLAP,
      .THM_STATUS_DERATE_SRC, .THM_STATUS_IND, .THM_STATUS_STAGE]
  | .thermalIndicatorExit _ => wStartPlan ++ [.SYS_MODE_STOPPING, .SYS_PEND_STATUS_MODE_SCAN, .THM_STATUS_DERATE_SRC, .THM_STATUS_IND,
      .THM_STATUS_STAGE]
  | .thmFlapRelease => [.THM_STATUS_FLAP, .w_OBS_SAT]
  | .thermalTrip _ => [.all]
  | .thermalTripRelease => []
  | .compensationUpdate _ _ => [.TDC_DLL_TRIM_TRIM, .CAL_LAST_CD_AGE, .CAL_LAST_RZ_AGE, .THM_RAIL_MEAS, .THM_RO_COUNT]
  | .railMonitorEntry _ _ _ => [.THM_STATUS_FLAP, .THM_RAIL_MEAS, .THM_RAIL_OV, .THM_RAIL_UV]
  | .railMonitorClear _ _ => [.THM_RAIL_MEAS, .THM_RAIL_OV, .THM_RAIL_UV]
  | .shadowParityCheck _ => [.CAL_STATUS_SHADOW_OK]
  | .memoryEnable => [.all]
  | .selfRefreshEntry => wHdlPump ++ [.MEM_CTRL_SR]
  | .selfRefreshExit => [.SYS_PEND_STATUS_MEM_SR, .MEM_CTRL_SR, .MEM_STATUS_PENDING_ENABLE, .MEM_STATUS_STATE, .w_OBS_SAT]
  | .selfRefreshEntryComplete => [.SYS_PEND_STATUS_MEM_SR, .MEM_STATUS_PENDING_ENABLE, .MEM_STATUS_STATE]
  | .selfRefreshExitComplete => [.all]
  | .init => [.SYS_PEND_STATUS_MEM_SR, .MEM_STATUS_PENDING_ENABLE, .MEM_STATUS_INIT_BUSY, .MEM_STATUS_STATE, .w_OBS_SAT]
  | .initComplete => [.all]
  | .memoryRequestServed _ _ _ _ => [.all]
  | .requestUrgent _ _ => [.MEM_PORT_STATUS_URGENT]
  | .panicEntry _ _ => [.MEM_PORT_STATUS_FLAP, .MEM_PORT_STATUS_PANIC]
  | .panicExit _ => [.MEM_PORT_STATUS_PANIC]
  | .refresh _ _ _ => [.MEM_CNT_REF_FORCED_COUNT, .w_OBS_SAT]
  | .refreshRatePoll _ _ _ _ => [.MEM_STATUS_TEMP_HI, .MEM_STATUS_TEMP_FLAP, .MEM_DRAM_RATE_CODE]
  | .hotspotWindow _ _ _ _ => [.MEM_STATUS_HOTSPOT, .MEM_STATUS_HOT_FLAP, .MEM_HOT_BANK_LAST]
  | .scrubPassRead _ => [.SYS_PEND_STATUS_MEM_SR, .MEM_STATUS_PENDING_ENABLE, .MEM_STATUS_STATE, .MEM_PORT_STATUS_URGENT,
      .MEM_PORT_CNT_BURSTS, .MEM_ECC_CE_CNT_COUNT, .MEM_ECC_UE_CNT_COUNT, .MEM_ECC_ADDR_LO_ADDR, .MEM_ECC_ADDR_HI_ADDR,
      .MEM_CNT_LINK_RETRY_COUNT, .w_OBS_SAT]
  | .mrCommand _ _ _ _ _ => [.MEM_MR_CMD_BUSY, .MEM_MR_CMD_READ, .MEM_MR_CMD_CH, .MEM_MR_CMD_RANK, .MEM_MR_CMD_MA, .MEM_MR_CMD_OP,
      .w_OBS_SAT]
  | .mrCommandComplete _ => [.MEM_MR_CMD_BUSY, .MEM_MR_DATA_DATA]
  | .trainingSweep => [.MEM_TRN_CTRL_BUSY, .w_OBS_SAT]
  | .trainingSweepComplete _ => [.all]
  | .configRequest _ _ _ => [.LNK_STATUS_BME, .w_OBS_SAT, .r_MSIX]
  | .bar0Request _ _ _ _ _ _ => [.all]
  | .bar2Request _ _ _ _ _ => [.SYS_PEND_STATUS_MEM_SR, .MEM_STATUS_PENDING_ENABLE, .MEM_STATUS_STATE, .MEM_PORT_STATUS_URGENT,
      .w_OBS_SAT]
  | .pcieReset _ => [.LNK_STATUS_BME, .LNK_STATUS_WIDTH, .LNK_STATUS_SPEED, .LNK_STATUS_PCIE_UP, .LNK_MBOX_OWNER_OWNER,
      .BOOT_STATUS_SESSION, .r_MSIX]
  | .linkChange _ _ _ _ => [.LNK_STATUS_ETH1_UP, .LNK_STATUS_ETH0_UP, .LNK_STATUS_BME, .LNK_STATUS_WIDTH, .LNK_STATUS_SPEED,
      .LNK_STATUS_PCIE_UP, .LNK_ETH_STATUS_BLOCK_LOCK, .LNK_ETH_STATUS_UP, .LNK_MBOX_OWNER_OWNER, .BOOT_STATUS_SESSION, .r_MSIX]
  | .ethFrameReceived _ _ _ _ => wStamp ++ [.LNK_ETH_FRAMES_RX_COUNT, .LNK_ETH_FCS_ERR_RX_COUNT, .LNK_ETH_DISCARD_RX_COUNT]
  | .packetiserRecord _ => wHdlPump ++ [.MEM_PB_RPTR_OFS, .LNK_PKT_DROP_COUNT, .LNK_ETH_STATUS_TX_LPI, .LNK_ETH_PKT_SEQ_SEQ]
  | .packetSend _ => [.LNK_ETH_STATUS_TX_LPI, .LNK_ETH_PKT_SEQ_SEQ]
  | .flushTimer _ => [.LNK_ETH_STATUS_TX_LPI, .LNK_ETH_PKT_SEQ_SEQ]
  | .ptpStep _ _ => [.LNK_PTP_STATUS_SLEWING, .w_OBS_SAT]
  | .ptpRate _ _ => [.LNK_PTP_STATUS_SLEWING, .w_LNK_PTP_RATE, .w_OBS_SAT]
  | .syncSet => [.LNK_PTP_STATUS_SYNCED, .w_OBS_SAT]
  | .syncHoldover => [.LNK_PTP_STATUS_SYNCED]
  | .ptpSnap _ => [.LNK_PTP_STATUS_SLEWING, .LNK_PTP_TIME_LO_NS, .LNK_PTP_TIME_HI_NS, .w_OBS_SAT]
  | .ptpTsRead => wStamp ++ [.w_OBS_SAT]
  | .losEntry _ _ _ => wLaneExit ++ [.LNK_LANE_ST_FLAP]
  | .losExit _ => wLaneExit
  | .lolEntry _ _ => wLaneExit ++ [.LNK_LANE_ST_FLAP]
  | .lolExit _ => wLaneExit
  | .laneFlapRelease _ => [.LNK_LANE_ST_FLAP, .w_OBS_SAT]
  | .loopbackSelect _ _ _ => [.LNK_LANE_TEST_PRBS, .LNK_LANE_TEST_LOOP, .LNK_PRBS_ERR_COUNT, .w_OBS_SAT]
  | .txEnable _ => wHalfEnable ++ [.w_OBS_SAT]
  | .txDisable _ => wHalfEnable ++ [.w_OBS_SAT]
  | .rxEnable _ => wHalfEnable ++ [.w_OBS_SAT]
  | .rxDisable _ => wHalfEnable ++ [.w_OBS_SAT]
  | .laneShutdownComplete _ _ => [.SYS_PEND_STATUS_LNK_RX, .SYS_PEND_STATUS_LNK_TX, .LNK_STATUS_ETH1_UP, .LNK_STATUS_ETH0_UP,
      .LNK_ETH_STATUS_RX_PENDING, .LNK_ETH_STATUS_TX_PENDING, .LNK_ETH_STATUS_RX_LPI, .LNK_ETH_STATUS_TX_LPI,
      .LNK_ETH_STATUS_BLOCK_LOCK, .LNK_ETH_STATUS_UP]
  | .lpiEntry _ _ => [.LNK_ETH_STATUS_RX_LPI, .LNK_ETH_STATUS_TX_LPI]
  | .lpiWake _ _ => [.LNK_ETH_STATUS_RX_LPI, .LNK_ETH_STATUS_TX_LPI]
  | .mailboxClaim _ _ => [.LNK_MBOX_OWNER_OWNER, .BOOT_STATUS_SESSION, .w_OBS_SAT]
  | .mailboxOwnershipLapse => [.LNK_MBOX_OWNER_OWNER, .BOOT_STATUS_SESSION]
  | .mailboxDatagram _ _ _ _ _ => [.all]
  | .fwVersion _ _ => [.all]
  | .serialLo _ _ => [.all]
  | .serialHi _ _ => [.all]
  | .flashRead _ _ => [.all]
  | .updateBegin _ _ => [.all]
  | .updateData _ _ => [.all]
  | .updateEnd _ _ _ => [.all]
  | .updateConfirm _ _ _ => [.all]
  | .i2cXfer _ _ => [.all]
  | .i2cTransferComplete _ _ _ => wAnswer ++ [.w_SYS_MBOX_DATA, .LNK_I2C_STATUS_BUSY, .LNK_I2C_STATUS_STUCK, .w_LNK_MBOX_BUF]
  | .logRead _ _ => [.all]
  | .settingsSave _ _ => [.all]
  | .spiWrite _ _ _ _ => [.all]
  | .spiRead _ => [.all]
  | .spiWindow _ _ => [.LNK_MSPI_CRC_CNT_COUNT, .LNK_MSPI_WIN_WIN]
  | .spiStatus => [.LNK_MSPI_CRC_CNT_COUNT]
  | .spiBadFrame => [.LNK_MSPI_CRC_CNT_COUNT]
  | .startWatchdog _ => [.all]
  | .failCountExpiry _ => [.BOOT_STATUS_IMAGE_VALID, .BOOT_FAIL_COUNT]
  | .cdDueRerun => wStartPlan
  | .slotWriteComplete _ _ => [.all]
  | .headlandSend => wHdlPump ++ [.BOOT_HDL_STATUS_TX_BUSY, .BOOT_HDL_RES_VALID]
  | .headlandConfirm _ => [.BOOT_STATUS_UPD_STATE, .BOOT_UPD_RESULT_RESULT, .BOOT_LOG_DROP_COUNT, .w_OBS_SAT]
  | .headlandOffer _ _ _ => wHdlResend ++ [.BOOT_HDL_STATUS_RX_BUSY]
  | .headlandData _ _ _ _ => wHdlResend ++ [.BOOT_HDL_STATUS_RX_BUSY]
  | .headlandEnd _ _ _ => wHdlResend ++ [.BOOT_STATUS_SLOT_WRITE, .BOOT_STATUS_UPD_STATE, .BOOT_UPD_RESULT_RESULT,
      .BOOT_HDL_STATUS_RX_BUSY, .BOOT_LOG_DROP_COUNT]
  | .headlandAck _ => wHdlResend
  | .headlandNak _ => wHdlResend
  | .headlandAbort _ => [.BOOT_HDL_STATUS_RESULT, .BOOT_HDL_STATUS_RX_BUSY, .BOOT_HDL_STATUS_TX_BUSY]
  | .headlandResult _ _ => [.BOOT_HDL_RES_VALID, .BOOT_HDL_RES_RESULT]
  | .headlandConfirmPacket _ _ => [.BOOT_STATUS_UPD_STATE, .BOOT_UPD_RESULT_RESULT, .BOOT_LOG_DROP_COUNT]
  | .headlandResendTimeout => wHdlResend
  | .headlandAutoStart => [.all]
  | .logbookEntryProgram => [.BOOT_LOG_INDEX_NEXT, .w_OBS_SAT]
  | .eventRaise _ => [.EVT_PEND_PEND, .MER_CAP_STATUS_ARMED, .MER_CAP_STATUS_SEG, .MER_CAPTURE_DROP_COUNT, .MER_CAP_DROP_CAUSE_RING,
      .MER_CAP_DROP_CAUSE_QUEUE, .MER_CAP_REJ_SEG_COUNT, .BOOT_LOG_DROP_COUNT, .w_OBS_SAT, .r_MSIX]
  | .pendingClear _ _ => [.w_EVT_PEND, .w_OBS_SAT, .r_MSIX]
  | .eventForce _ => [.w_OBS_SAT]
  | .counterConfigWrite _ _ => [.w_OBS_SAT, .w_OBS_CNT_CFG]
  | .counterLiveRead _ => [.w_OBS_SAT, .OBS_CNT_LIVE_HI_VALUE]
  | .clearAll => [.w_OBS_SAT, .r_OBS_SAT]
  | .snap _ => [.OBS_STATUS_STALE, .OBS_STATUS_SNAP_BUSY, .OBS_SNAP_MISS_COUNT, .w_OBS_SAT]
  | .snapshotPeriod _ => [.OBS_STATUS_STALE, .OBS_STATUS_SNAP_BUSY, .OBS_SNAP_MISS_COUNT]
  | .snapshotCopy => [.OBS_STATUS_SNAP_BUSY, .OBS_SNAP_SEQ_SEQ, .OBS_SNAP_TS_LO_NS, .OBS_SNAP_TS_HI_NS, .OBS_CNT_SNAP_LO_VALUE,
      .OBS_CNT_SNAP_HI_VALUE, .r_OBS_SNAP]
  | .preciseSample _ _ _ _ _ _ => [.OBS_SMP_DROP_COUNT]
  | .traceRecord => wHdlPump ++ [.OBS_STATUS_FULL, .OBS_TRC_WPTR_OFS, .OBS_TRC_RING_WPTR_OFS, .OBS_TRC_DROP_COUNT, .r_OBS_TRC_BUF]
  | .traceClr => [.OBS_STATUS_FULL, .w_OBS_SAT, .OBS_TRC_WPTR_OFS, .OBS_TRC_RPTR_OFS]
  | .testEnHigh => [.all]
  | .bypass => [.HDG_STATUS_CLEAR, .HDG_STATUS_LI_LEVEL, .HDG_PRESENT_CAUSE]
  | .idcode => [.HDG_STATUS_CLEAR, .HDG_STATUS_LI_LEVEL, .HDG_PRESENT_CAUSE]
  | .samplePreload => [.HDG_STATUS_CLEAR, .HDG_STATUS_LI_LEVEL, .HDG_PRESENT_CAUSE]
  | .extest => [.HDG_STATUS_CLEAR, .HDG_STATUS_LI_LEVEL, .HDG_PRESENT_CAUSE]
  | .extestPulse => [.HDG_STATUS_CLEAR, .HDG_STATUS_LI_LEVEL, .HDG_PRESENT_CAUSE]
  | .extestTrain => [.HDG_STATUS_CLEAR, .HDG_STATUS_LI_LEVEL, .HDG_PRESENT_CAUSE]
  | .clamp => [.HDG_STATUS_CLEAR, .HDG_STATUS_LI_LEVEL, .HDG_PRESENT_CAUSE]
  | .highz => [.HDG_STATUS_CLEAR, .HDG_STATUS_LI_LEVEL, .HDG_PRESENT_CAUSE]
  | .mainPllRelock => [.all]
  | .tillerPllRelock => [.SYS_CLK_STATUS_TIL_LOCK]
  | .relockTimeout _ _ => [.all]
  | .lineFaultClear _ _ => wStartPlan ++ [.SYS_MODE_STOPPING, .SYS_PEND_STATUS_MODE_SCAN, .w_EMI_ROW_SHORT, .w_EMI_ROW_OPEN,
      .w_EMI_COL_FAULT, .w_OBS_SAT]
  | .lbFlapRelease => [.EMI_STATUS_LB_FLAP, .w_OBS_SAT]
  | .panicFlapRelease _ => [.MEM_PORT_STATUS_FLAP, .w_OBS_SAT]
  | .tempFlapRelease => [.MEM_STATUS_TEMP_FLAP, .w_OBS_SAT]
  | .hotFlapRelease => [.MEM_STATUS_HOT_FLAP, .w_OBS_SAT]
  | .pwmPeriodStart _ => wTickEnd ++ [.HLM_STATUS_LAW_SAT, .HLM_MEAS_TILT_REF, .HLM_MEAS_TILT_POS, .w_OBS_SAT]
  | .startStepComplete _ _ _ _ => [.all]
  | .frameLeftPort _ _ _ _ => wStamp ++ [.MEM_PB_RPTR_OFS, .LNK_ETH_STATUS_TX_LPI, .LNK_ETH_FRAMES_TX_COUNT, .LNK_ETH_PKTS_TX_COUNT,
      .w_OBS_SAT]
  | .pcieCompletion _ _ => [.MEM_ECC_UE_CNT_COUNT, .MEM_ECC_ADDR_LO_ADDR, .MEM_ECC_ADDR_HI_ADDR, .MEM_PB_RPTR_OFS,
      .LNK_PKT_DROP_COUNT, .LNK_ETH_STATUS_TX_LPI, .LNK_ETH_PKT_SEQ_SEQ, .w_OBS_SAT]
  | .settingsSaveComplete _ => [.all]

/-- The parts of the state that a command may change. -/
def parts (i : Instr) : List Part :=
  match i with
  | .resetNLow => [.regs, .raised, .freeIx, .sys, .det, .tdc, .his, .til, .oq, .emi, .mem, .lnk, .hlm, .hdg, .mer, .cap, .sxt, .adc,
      .cal, .thm, .boot, .obs, .dram]
  | .resetEnd _ _ _ => [.regs, .raised, .freeIx, .sys, .det, .tdc, .his, .emi, .mem, .lnk, .hlm, .sxt, .boot]
  | .coreReset => [.regs, .raised, .freeIx, .sys, .det, .tdc, .his, .til, .oq, .emi, .mem, .lnk, .hlm, .hdg, .mer, .cap, .sxt, .adc,
      .cal, .thm, .boot, .obs, .dram]
  | .hedgePowerOn _ _ => [.regs, .raised, .freeIx, .sys, .det, .tdc, .his, .til, .oq, .emi, .mem, .lnk, .hlm, .hdg, .mer, .cap, .sxt,
      .adc, .cal, .thm, .boot, .obs, .dram]
  | .mainPllLockLoss => [.regs, .raised, .freeIx, .sys, .det, .tdc, .his, .til, .oq, .emi, .lnk, .hlm, .hdg, .cap, .sxt, .boot, .obs]
  | .tillerPllLockLoss => [.regs, .raised, .freeIx, .sys, .his, .til, .oq, .lnk]
  | .managementPllLockLoss => [.regs, .raised, .freeIx, .sys, .det, .tdc, .his, .til, .oq, .emi, .mem, .lnk, .hlm, .hdg, .mer, .cap,
      .sxt, .adc, .cal, .thm, .boot, .obs, .dram]
  | .lockstepMismatch _ => [.regs, .raised, .freeIx, .sys, .det, .tdc, .his, .til, .oq, .emi, .mem, .lnk, .hlm, .hdg, .mer, .cap,
      .sxt, .adc, .cal, .thm, .boot, .obs, .dram, .flash]
  | .refSelChange _ _ => [.regs, .raised, .freeIx, .sys, .mem, .lnk, .hdg, .obs, .dram]
  | .pllRelockComplete => [.regs, .raised, .freeIx, .sys, .det, .tdc, .his, .til, .oq, .emi, .mem, .lnk, .hlm, .hdg, .mer, .cap, .sxt,
      .adc, .cal, .thm, .boot, .obs, .dram, .flash]
  | .registerAccessTimeout _ => [.regs, .raised, .sys, .obs]
  | .registerWrite _ _ _ _ => [.regs, .raised, .freeIx, .sys, .det, .tdc, .his, .til, .oq, .emi, .mem, .lnk, .hlm, .hdg, .mer, .cap,
      .sxt, .adc, .cal, .thm, .boot, .obs, .dram, .flash]
  | .rcRead _ => [.regs, .raised, .freeIx, .sys, .his, .til, .mem, .lnk, .obs]
  | .pfNFall => [.sys, .cal]
  | .sysPf => [.regs, .raised, .sys, .his, .lnk]
  | .pfNRise => [.regs, .sys, .cal, .boot, .flash]
  | .orderlyStopComplete => [.regs, .raised, .sys, .det, .tdc, .his, .emi, .mem, .lnk, .hlm, .sxt, .boot, .obs, .dram]
  | .spinTimeout => [.regs, .raised, .sys, .det, .tdc, .his, .emi, .lnk, .hlm, .sxt, .boot]
  | .spinUpLockAchieved => [.regs, .raised, .sys, .det, .tdc, .his, .emi, .lnk, .hlm, .sxt, .cal, .boot, .flash]
  | .modeStandby _ _ => [.regs, .raised, .freeIx, .sys, .det, .tdc, .his, .til, .oq, .emi, .mem, .lnk, .hlm, .hdg, .mer, .cap, .sxt,
      .adc, .cal, .thm, .boot, .obs, .dram, .flash]
  | .modeScan _ _ => [.regs, .raised, .freeIx, .sys, .det, .tdc, .his, .til, .oq, .emi, .mem, .lnk, .hlm, .hdg, .mer, .cap, .sxt,
      .adc, .cal, .thm, .boot, .obs, .dram, .flash]
  | .modeCalibrate _ _ => [.regs, .raised, .freeIx, .sys, .det, .tdc, .his, .til, .oq, .emi, .mem, .lnk, .hlm, .hdg, .mer, .cap, .sxt,
      .adc, .cal, .thm, .boot, .obs, .dram, .flash]
  | .derateEnter _ _ => [.regs, .raised, .freeIx, .sys, .det, .tdc, .his, .til, .oq, .emi, .mem, .lnk, .hlm, .hdg, .mer, .cap, .sxt,
      .adc, .cal, .thm, .boot, .obs, .dram, .flash]
  | .derateRelease _ _ => [.regs, .raised, .freeIx, .sys, .det, .tdc, .his, .til, .oq, .emi, .mem, .lnk, .hlm, .hdg, .mer, .cap, .sxt,
      .adc, .cal, .thm, .boot, .obs, .dram, .flash]
  | .resetWarm _ _ => [.regs, .raised, .freeIx, .sys, .det, .tdc, .his, .til, .oq, .emi, .mem, .lnk, .hlm, .hdg, .mer, .cap, .sxt,
      .adc, .cal, .thm, .boot, .obs, .dram, .flash]
  | .resetCold _ _ => [.regs, .raised, .freeIx, .sys, .det, .tdc, .his, .til, .oq, .emi, .mem, .lnk, .hlm, .hdg, .mer, .cap, .sxt,
      .adc, .cal, .thm, .boot, .obs, .dram, .flash]
  | .enterRecovery _ _ => [.regs, .raised, .freeIx, .sys, .det, .tdc, .his, .til, .oq, .emi, .mem, .lnk, .hlm, .hdg, .mer, .cap, .sxt,
      .adc, .cal, .thm, .boot, .obs, .dram, .flash]
  | .modeQuery _ _ => [.regs, .raised, .freeIx, .sys, .det, .tdc, .his, .til, .oq, .emi, .mem, .lnk, .hlm, .hdg, .mer, .cap, .sxt,
      .adc, .cal, .thm, .boot, .obs, .dram, .flash]
  | .maskCommit => [.regs, .raised, .sys, .obs]
  | .maskCommitCopy => [.regs, .raised]
  | .probeStart => [.regs, .raised, .sys, .det, .obs]
  | .probeGateEnd => [.regs, .raised, .det, .cal]
  | .biasEnable => [.regs, .raised, .sys, .det, .obs]
  | .biasDisable => [.regs, .raised, .sys, .det, .obs]
  | .biasSettled => [.regs, .raised, .det]
  | .biasLoopUpdate _ => [.regs]
  | .biasTargetRecompute => [.regs, .raised, .det, .thm]
  | .tempStale => [.regs, .raised, .det]
  | .biasMonitorEntry _ _ => [.regs, .raised, .det]
  | .biasMonitorClear _ => [.regs]
  | .biasFlapRelease => [.regs, .raised, .sys, .det, .obs]
  | .spadFiring _ _ _ => [.det]
  | .tdcEdge _ _ _ _ => [.regs, .raised, .det, .tdc, .his, .cal, .obs]
  | .dllUnlock _ => [.regs, .raised, .freeIx, .tdc, .his, .obs]
  | .dllRelock _ => [.regs]
  | .dllRelockRetry _ => [.raised]
  | .dllTrimLimit _ => [.raised]
  | .tdcCommit => [.regs, .raised, .sys, .obs]
  | .tdcCommitCopy => [.regs, .raised, .tdc]
  | .testSourceSelect _ => [.regs, .raised, .sys, .tdc, .obs]
  | .snoopArm _ _ => [.regs, .raised, .sys, .tdc, .obs]
  | .counterClearAll => [.regs, .raised, .sys, .tdc, .obs]
  | .counterClearSel => [.regs, .raised, .sys, .tdc, .obs]
  | .eventWord _ _ => [.regs, .raised, .tdc, .his, .obs]
  | .pointCyclesStart _ => [.regs, .raised, .det, .tdc, .his, .til, .emi, .cap, .obs]
  | .slotPrepare => [.regs, .raised, .freeIx, .sys, .det, .tdc, .his, .til, .oq, .emi, .lnk, .hlm, .hdg, .cap, .sxt, .boot, .obs]
  | .shotSlotOpen _ => [.regs, .raised, .freeIx, .tdc, .his, .emi, .cap, .obs]
  | .fallowSlotOpen _ => [.regs, .raised, .freeIx, .tdc, .his, .til, .emi, .hlm, .mer, .cap, .obs]
  | .lanePublication _ => [.regs, .raised, .his, .til, .obs]
  | .harrowDeadline => [.his]
  | .windowWrite _ => [.regs, .raised, .his, .til, .obs]
  | .depthWrite _ => [.regs, .raised, .det, .his, .til, .obs]
  | .harrowBankSwap _ => [.regs, .raised, .sys, .det, .tdc, .his, .til, .oq, .emi, .lnk, .cap, .sxt, .cal, .boot, .obs]
  | .bankFreeze => [.regs, .his, .til, .cap, .cal]
  | .bankClearComplete => [.his]
  | .run _ => [.regs, .raised, .sys, .det, .tdc, .his, .til, .emi, .lnk, .hlm, .sxt, .cal, .boot, .obs, .flash]
  | .halt _ => [.regs, .raised, .sys, .til, .obs]
  | .haltAtBoundary _ => [.regs, .raised, .sys, .det, .tdc, .his, .til, .lnk, .sxt, .boot]
  | .step _ _ => [.regs, .raised, .freeIx, .sys, .det, .tdc, .his, .til, .emi, .lnk, .hlm, .sxt, .cal, .boot, .obs, .flash]
  | .memInit _ => [.regs, .raised, .sys, .det, .tdc, .his, .til, .emi, .lnk, .hlm, .sxt, .cal, .boot, .obs, .flash]
  | .memInitComplete _ => [.til]
  | .groupRun => [.regs, .raised, .sys, .det, .tdc, .his, .til, .emi, .lnk, .hlm, .sxt, .cal, .boot, .obs, .flash]
  | .groupHalt => [.regs, .raised, .sys, .til, .obs]
  | .tilPcWrite _ _ => [.regs, .raised, .sys, .til, .obs]
  | .breakpoint _ => [.regs, .raised, .sys, .det, .tdc, .his, .til, .lnk, .sxt, .boot]
  | .tillerMemoryWrite _ _ _ _ => [.regs, .raised, .sys, .til, .obs]
  | .tillerMemoryRead _ _ _ => [.regs, .raised, .freeIx, .sys, .til, .obs]
  | .broadcastWrite _ _ _ => [.regs, .raised, .sys, .til, .obs]
  | .scrubRead _ _ => [.regs, .raised, .til]
  | .attention _ _ => [.regs, .raised, .freeIx, .his, .til, .obs]
  | .dlAlarm _ => [.til]
  | .ownershipEnd => [.regs, .raised, .sys, .det, .tdc, .his, .til, .oq, .lnk, .sxt, .cal, .boot, .obs]
  | .emitAdmission _ => [.regs, .raised, .til, .oq, .obs]
  | .blockAccepted => [.regs, .raised, .sys, .det, .tdc, .his, .til, .oq, .lnk, .sxt, .boot, .obs]
  | .stagingRecord _ => [.regs, .raised, .oq, .mem, .lnk, .obs, .dram]
  | .illegalInstruction _ => [.regs, .raised, .sys, .det, .tdc, .his, .til, .lnk, .sxt, .boot, .obs]
  | .imemUeFetch _ => [.regs, .raised, .sys, .det, .tdc, .his, .til, .lnk, .sxt, .boot, .obs]
  | .add _ _ _ _ => [.regs, .raised, .freeIx, .sys, .det, .tdc, .his, .til, .lnk, .sxt, .boot, .obs]
  | .sub _ _ _ _ => [.regs, .raised, .freeIx, .sys, .det, .tdc, .his, .til, .lnk, .sxt, .boot, .obs]
  | .and _ _ _ _ => [.regs, .raised, .freeIx, .sys, .det, .tdc, .his, .til, .lnk, .sxt, .boot, .obs]
  | .or _ _ _ _ => [.regs, .raised, .freeIx, .sys, .det, .tdc, .his, .til, .lnk, .sxt, .boot, .obs]
  | .xor _ _ _ _ => [.regs, .raised, .freeIx, .sys, .det, .tdc, .his, .til, .lnk, .sxt, .boot, .obs]
  | .sll _ _ _ _ => [.regs, .raised, .freeIx, .sys, .det, .tdc, .his, .til, .lnk, .sxt, .boot, .obs]
  | .srl _ _ _ _ => [.regs, .raised, .freeIx, .sys, .det, .tdc, .his, .til, .lnk, .sxt, .boot, .obs]
  | .sra _ _ _ _ => [.regs, .raised, .freeIx, .sys, .det, .tdc, .his, .til, .lnk, .sxt, .boot, .obs]
  | .slt _ _ _ _ => [.regs, .raised, .freeIx, .sys, .det, .tdc, .his, .til, .lnk, .sxt, .boot, .obs]
  | .sltu _ _ _ _ => [.regs, .raised, .freeIx, .sys, .det, .tdc, .his, .til, .lnk, .sxt, .boot, .obs]
  | .min _ _ _ _ => [.regs, .raised, .freeIx, .sys, .det, .tdc, .his, .til, .lnk, .sxt, .boot, .obs]
  | .max _ _ _ _ => [.regs, .raised, .freeIx, .sys, .det, .tdc, .his, .til, .lnk, .sxt, .boot, .obs]
  | .minu _ _ _ _ => [.regs, .raised, .freeIx, .sys, .det, .tdc, .his, .til, .lnk, .sxt, .boot, .obs]
  | .maxu _ _ _ _ => [.regs, .raised, .freeIx, .sys, .det, .tdc, .his, .til, .lnk, .sxt, .boot, .obs]
  | .mul _ _ _ _ => [.regs, .raised, .freeIx, .sys, .det, .tdc, .his, .til, .lnk, .sxt, .boot, .obs]
  | .mulh _ _ _ _ => [.regs, .raised, .freeIx, .sys, .det, .tdc, .his, .til, .lnk, .sxt, .boot, .obs]
  | .mulhu _ _ _ _ => [.regs, .raised, .freeIx, .sys, .det, .tdc, .his, .til, .lnk, .sxt, .boot, .obs]
  | .divu _ _ _ _ => [.regs, .raised, .freeIx, .sys, .det, .tdc, .his, .til, .lnk, .sxt, .boot, .obs]
  | .remu _ _ _ _ => [.regs, .raised, .freeIx, .sys, .det, .tdc, .his, .til, .lnk, .sxt, .boot, .obs]
  | .cmp _ _ _ => [.regs, .raised, .freeIx, .sys, .det, .tdc, .his, .til, .lnk, .sxt, .boot, .obs]
  | .tst _ _ _ => [.regs, .raised, .freeIx, .sys, .det, .tdc, .his, .til, .lnk, .sxt, .boot, .obs]
  | .slli _ _ _ _ => [.regs, .raised, .freeIx, .sys, .det, .tdc, .his, .til, .lnk, .sxt, .boot, .obs]
  | .srli _ _ _ _ => [.regs, .raised, .freeIx, .sys, .det, .tdc, .his, .til, .lnk, .sxt, .boot, .obs]
  | .srai _ _ _ _ => [.regs, .raised, .freeIx, .sys, .det, .tdc, .his, .til, .lnk, .sxt, .boot, .obs]
  | .extu _ _ _ _ _ => [.regs, .raised, .freeIx, .sys, .det, .tdc, .his, .til, .lnk, .sxt, .boot, .obs]
  | .clz _ _ _ => [.regs, .raised, .freeIx, .sys, .det, .tdc, .his, .til, .lnk, .sxt, .boot, .obs]
  | .popc _ _ _ => [.regs, .raised, .freeIx, .sys, .det, .tdc, .his, .til, .lnk, .sxt, .boot, .obs]
  | .adds _ _ _ _ => [.regs, .raised, .freeIx, .sys, .det, .tdc, .his, .til, .lnk, .sxt, .boot, .obs]
  | .subs _ _ _ _ => [.regs, .raised, .freeIx, .sys, .det, .tdc, .his, .til, .lnk, .sxt, .boot, .obs]
  | .addi _ _ _ _ => [.regs, .raised, .freeIx, .sys, .det, .tdc, .his, .til, .lnk, .sxt, .boot, .obs]
  | .andi _ _ _ _ => [.regs, .raised, .freeIx, .sys, .det, .tdc, .his, .til, .lnk, .sxt, .boot, .obs]
  | .ori _ _ _ _ => [.regs, .raised, .freeIx, .sys, .det, .tdc, .his, .til, .lnk, .sxt, .boot, .obs]
  | .xori _ _ _ _ => [.regs, .raised, .freeIx, .sys, .det, .tdc, .his, .til, .lnk, .sxt, .boot, .obs]
  | .lui _ _ _ => [.regs, .raised, .freeIx, .sys, .det, .tdc, .his, .til, .lnk, .sxt, .boot, .obs]
  | .cmpi _ _ _ => [.regs, .raised, .freeIx, .sys, .det, .tdc, .his, .til, .lnk, .sxt, .boot, .obs]
  | .slti _ _ _ _ => [.regs, .raised, .freeIx, .sys, .det, .tdc, .his, .til, .lnk, .sxt, .boot, .obs]
  | .lw _ _ _ _ _ => [.regs, .raised, .freeIx, .sys, .det, .tdc, .his, .til, .lnk, .sxt, .boot, .obs]
  | .sw _ _ _ _ => [.regs, .raised, .freeIx, .sys, .det, .tdc, .his, .til, .lnk, .sxt, .boot, .obs]
  | .vld _ _ _ _ => [.regs, .raised, .freeIx, .sys, .det, .tdc, .his, .til, .lnk, .sxt, .boot, .obs]
  | .vst _ _ _ _ => [.regs, .raised, .freeIx, .sys, .det, .tdc, .his, .til, .lnk, .sxt, .boot, .obs]
  | .vbwl _ _ _ _ => [.regs, .raised, .freeIx, .sys, .det, .tdc, .his, .til, .lnk, .sxt, .boot, .obs]
  | .bc _ _ _ => [.regs, .raised, .freeIx, .sys, .det, .tdc, .his, .til, .lnk, .sxt, .boot, .obs]
  | .jal _ _ _ => [.regs, .raised, .freeIx, .sys, .det, .tdc, .his, .til, .lnk, .sxt, .boot, .obs]
  | .jalr _ _ _ _ => [.regs, .raised, .freeIx, .sys, .det, .tdc, .his, .til, .lnk, .sxt, .boot, .obs]
  | .vadd _ _ _ _ _ => [.regs, .raised, .freeIx, .sys, .det, .tdc, .his, .til, .lnk, .sxt, .boot, .obs]
  | .vsub _ _ _ _ _ => [.regs, .raised, .freeIx, .sys, .det, .tdc, .his, .til, .lnk, .sxt, .boot, .obs]
  | .vaddsu _ _ _ _ _ => [.regs, .raised, .freeIx, .sys, .det, .tdc, .his, .til, .lnk, .sxt, .boot, .obs]
  | .vsubsu _ _ _ _ _ => [.regs, .raised, .freeIx, .sys, .det, .tdc, .his, .til, .lnk, .sxt, .boot, .obs]
  | .vadds _ _ _ _ _ => [.regs, .raised, .freeIx, .sys, .det, .tdc, .his, .til, .lnk, .sxt, .boot, .obs]
  | .vsubs _ _ _ _ _ => [.regs, .raised, .freeIx, .sys, .det, .tdc, .his, .til, .lnk, .sxt, .boot, .obs]
  | .vmul _ _ _ _ _ => [.regs, .raised, .freeIx, .sys, .det, .tdc, .his, .til, .lnk, .sxt, .boot, .obs]
  | .vmin _ _ _ _ _ => [.regs, .raised, .freeIx, .sys, .det, .tdc, .his, .til, .lnk, .sxt, .boot, .obs]
  | .vmax _ _ _ _ _ => [.regs, .raised, .freeIx, .sys, .det, .tdc, .his, .til, .lnk, .sxt, .boot, .obs]
  | .vmins _ _ _ _ _ => [.regs, .raised, .freeIx, .sys, .det, .tdc, .his, .til, .lnk, .sxt, .boot, .obs]
  | .vmaxs _ _ _ _ _ => [.regs, .raised, .freeIx, .sys, .det, .tdc, .his, .til, .lnk, .sxt, .boot, .obs]
  | .vand _ _ _ _ _ => [.regs, .raised, .freeIx, .sys, .det, .tdc, .his, .til, .lnk, .sxt, .boot, .obs]
  | .vor _ _ _ _ _ => [.regs, .raised, .freeIx, .sys, .det, .tdc, .his, .til, .lnk, .sxt, .boot, .obs]
  | .vxor _ _ _ _ _ => [.regs, .raised, .freeIx, .sys, .det, .tdc, .his, .til, .lnk, .sxt, .boot, .obs]
  | .vcmpeq _ _ _ _ _ => [.regs, .raised, .freeIx, .sys, .det, .tdc, .his, .til, .lnk, .sxt, .boot, .obs]
  | .vcmpgtu _ _ _ _ _ => [.regs, .raised, .freeIx, .sys, .det, .tdc, .his, .til, .lnk, .sxt, .boot, .obs]
  | .vcmpgt _ _ _ _ _ => [.regs, .raised, .freeIx, .sys, .det, .tdc, .his, .til, .lnk, .sxt, .boot, .obs]
  | .vsel _ _ _ _ => [.regs, .raised, .freeIx, .sys, .det, .tdc, .his, .til, .lnk, .sxt, .boot, .obs]
  | .vslli _ _ _ _ _ => [.regs, .raised, .freeIx, .sys, .det, .tdc, .his, .til, .lnk, .sxt, .boot, .obs]
  | .vsrli _ _ _ _ _ => [.regs, .raised, .freeIx, .sys, .det, .tdc, .his, .til, .lnk, .sxt, .boot, .obs]
  | .vsrai _ _ _ _ _ => [.regs, .raised, .freeIx, .sys, .det, .tdc, .his, .til, .lnk, .sxt, .boot, .obs]
  | .vzxl _ _ _ => [.regs, .raised, .freeIx, .sys, .det, .tdc, .his, .til, .lnk, .sxt, .boot, .obs]
  | .vzxh _ _ _ => [.regs, .raised, .freeIx, .sys, .det, .tdc, .his, .til, .lnk, .sxt, .boot, .obs]
  | .vnars _ _ _ _ => [.regs, .raised, .freeIx, .sys, .det, .tdc, .his, .til, .lnk, .sxt, .boot, .obs]
  | .vsplat _ _ _ _ => [.regs, .raised, .freeIx, .sys, .det, .tdc, .his, .til, .lnk, .sxt, .boot, .obs]
  | .vext _ _ _ _ _ => [.regs, .raised, .freeIx, .sys, .det, .tdc, .his, .til, .lnk, .sxt, .boot, .obs]
  | .vins _ _ _ _ _ => [.regs, .raised, .freeIx, .sys, .det, .tdc, .his, .til, .lnk, .sxt, .boot, .obs]
  | .vrsum _ _ _ _ => [.regs, .raised, .freeIx, .sys, .det, .tdc, .his, .til, .lnk, .sxt, .boot, .obs]
  | .vrmaxu _ _ _ _ => [.regs, .raised, .freeIx, .sys, .det, .tdc, .his, .til, .lnk, .sxt, .boot, .obs]
  | .vmacc _ _ _ _ _ => [.regs, .raised, .freeIx, .sys, .det, .tdc, .his, .til, .lnk, .sxt, .boot, .obs]
  | .vpidx _ _ _ _ => [.regs, .raised, .freeIx, .sys, .det, .tdc, .his, .til, .lnk, .sxt, .boot, .obs]
  | .vcent _ _ _ _ => [.regs, .raised, .freeIx, .sys, .det, .tdc, .his, .til, .lnk, .sxt, .boot, .obs]
  | .vcoat _ _ _ _ => [.regs, .raised, .freeIx, .sys, .det, .tdc, .his, .til, .lnk, .sxt, .boot, .obs]
  | .fsend _ _ => [.regs, .raised, .freeIx, .sys, .det, .tdc, .his, .til, .lnk, .sxt, .boot, .obs]
  | .fsendStallEnd _ => [.regs, .raised, .sys, .det, .tdc, .his, .til, .lnk, .sxt, .boot, .obs]
  | .frecvN _ _ => [.regs, .raised, .freeIx, .sys, .det, .tdc, .his, .til, .lnk, .sxt, .boot, .obs]
  | .frecvW _ _ => [.regs, .raised, .freeIx, .sys, .det, .tdc, .his, .til, .lnk, .sxt, .boot, .obs]
  | .frecvWComplete _ => [.regs, .raised, .sys, .det, .tdc, .his, .til, .lnk, .sxt, .boot, .obs]
  | .emit _ _ _ _ => [.regs, .raised, .freeIx, .sys, .det, .tdc, .his, .til, .lnk, .sxt, .boot, .obs]
  | .nop _ => [.regs, .raised, .freeIx, .sys, .det, .tdc, .his, .til, .lnk, .sxt, .boot, .obs]
  | .trap _ => [.regs, .raised, .freeIx, .sys, .det, .tdc, .his, .til, .lnk, .sxt, .boot, .obs]
  | .tret _ => [.regs, .raised, .freeIx, .sys, .det, .tdc, .his, .til, .lnk, .sxt, .boot, .obs]
  | .aret _ => [.regs, .raised, .freeIx, .sys, .det, .tdc, .his, .til, .lnk, .sxt, .boot, .obs]
  | .fence _ => [.regs, .raised, .freeIx, .sys, .det, .tdc, .his, .til, .lnk, .sxt, .boot, .obs]
  | .rdfl _ _ => [.regs, .raised, .freeIx, .sys, .det, .tdc, .his, .til, .lnk, .sxt, .boot, .obs]
  | .wrfl _ _ => [.regs, .raised, .freeIx, .sys, .det, .tdc, .his, .til, .lnk, .sxt, .boot, .obs]
  | .programBankProcess _ _ => [.regs, .raised, .freeIx, .sys, .det, .tdc, .his, .til, .lnk, .sxt, .boot, .obs]
  | .tNowUpdate => [.til]
  | .emitterEnable => [.regs, .raised, .sys, .emi, .obs]
  | .emitterDisable => [.regs, .raised, .sys, .emi, .obs]
  | .faultClr => [.regs, .raised, .sys, .det, .tdc, .his, .emi, .lnk, .hlm, .sxt, .cal, .boot, .obs, .flash]
  | .shortTest => [.regs, .raised, .sys, .emi, .obs]
  | .lineTestStep _ => [.regs, .raised, .sys, .det, .tdc, .his, .emi, .lnk, .sxt, .boot]
  | .lineTestPassEnd => [.raised, .emi]
  | .curveCommit => [.regs, .raised, .sys, .obs]
  | .curveCommitCopy => [.regs, .raised]
  | .seedMapWrite _ _ _ _ => [.regs, .raised, .sys, .obs]
  | .sweepSync _ => [.regs, .raised, .freeIx, .emi, .hlm, .cap, .obs]
  | .chargeCheck _ => [.regs, .raised, .freeIx, .sys, .det, .tdc, .his, .til, .oq, .emi, .lnk, .hlm, .hdg, .cap, .sxt, .boot, .obs]
  | .emFireEdge _ _ => [.regs, .raised, .freeIx, .sys, .det, .tdc, .his, .til, .oq, .emi, .lnk, .hlm, .hdg, .cap, .sxt, .boot, .obs]
  | .dacUpdate => [.regs]
  | .monitorEdge _ => [.regs, .raised, .sys, .det, .tdc, .his, .emi, .lnk, .sxt, .boot]
  | .monitorWindowClose => [.regs, .raised, .sys, .det, .tdc, .his, .emi, .lnk, .sxt, .boot]
  | .dischargeComplete _ => [.regs, .emi]
  | .disTimeout => [.regs, .raised, .sys, .det, .tdc, .his, .emi, .lnk, .sxt, .boot]
  | .lbWatchEnable => [.regs, .raised, .sys, .emi, .obs]
  | .lbWatchDisable => [.regs, .raised, .sys, .emi, .obs]
  | .lbStageRise _ => [.regs, .raised, .sys, .det, .tdc, .his, .emi, .lnk, .sxt, .boot]
  | .lbStageFall _ => [.regs, .raised, .emi]
  | .lbStale _ => [.regs, .raised, .sys, .det, .tdc, .his, .emi, .lnk, .sxt, .boot]
  | .helmTick _ _ _ => [.regs, .raised, .hlm, .adc, .obs]
  | .encoderTransition _ _ _ => [.regs, .raised, .hlm]
  | .encoderIndex => [.regs, .raised, .hlm]
  | .facetCrossing _ => [.regs, .hlm, .mer]
  | .helmEnable => [.regs, .raised, .sys, .hlm, .obs]
  | .helmDisable => [.regs, .raised, .sys, .hlm, .obs]
  | .lawCommit => [.regs, .raised, .sys, .obs]
  | .helmFaultClear => [.regs, .raised, .sys, .hlm, .obs]
  | .traceArm => [.regs, .raised, .sys, .hlm, .obs]
  | .traceForce => [.regs, .raised, .sys, .hlm, .obs]
  | .speedRefWrite _ => [.regs, .raised, .sys, .hlm, .obs]
  | .catchMeasureEnd => [.regs, .hlm]
  | .lockAttempt => [.regs, .raised, .hlm, .obs]
  | .unlock _ => [.regs, .raised, .hlm]
  | .lockFlapRelease => [.regs, .raised, .sys, .hlm, .obs]
  | .handoverEnd => [.regs]
  | .standstill => [.regs, .raised, .hlm]
  | .brakeTimeout => [.regs, .raised, .hlm]
  | .stall => [.regs, .raised, .hlm]
  | .bridgeFault => [.regs, .raised, .hlm]
  | .hallFault => [.regs, .raised, .hlm]
  | .tiltSense => [.regs, .raised, .hlm]
  | .tiltTrack => [.regs, .raised, .hlm]
  | .hedgeEncoderCount _ _ => [.regs, .raised, .freeIx, .sys, .det, .tdc, .his, .til, .oq, .emi, .lnk, .hlm, .hdg, .cap, .sxt, .boot,
      .obs]
  | .speedFrameEnd _ => [.regs, .raised, .freeIx, .sys, .det, .tdc, .his, .til, .oq, .emi, .lnk, .hlm, .hdg, .cap, .sxt, .boot, .obs]
  | .hedgeRelease => [.regs, .raised, .emi, .hdg]
  | .hedgeRequestChange => [.regs, .emi, .hdg]
  | .hedgeTiltConversion _ => [.regs, .raised, .freeIx, .sys, .det, .tdc, .his, .til, .oq, .emi, .lnk, .hlm, .hdg, .cap, .sxt, .boot,
      .obs]
  | .fovDwellExpiry => [.regs, .raised, .freeIx, .sys, .det, .tdc, .his, .til, .oq, .emi, .lnk, .hlm, .hdg, .cap, .sxt, .boot, .obs]
  | .powerCodeEntry => [.regs, .raised, .freeIx, .sys, .det, .tdc, .his, .til, .oq, .emi, .lnk, .hlm, .hdg, .cap, .sxt, .boot, .obs]
  | .correctionEntry => [.regs, .hdg]
  | .energyBucketRoll => [.regs, .hdg]
  | .liReadback _ => [.regs, .raised, .freeIx, .sys, .det, .tdc, .his, .til, .oq, .emi, .lnk, .hlm, .hdg, .cap, .sxt, .boot, .obs]
  | .hedgeChannelMismatch => [.regs, .raised, .freeIx, .sys, .det, .tdc, .his, .til, .oq, .emi, .lnk, .hlm, .hdg, .cap, .sxt, .boot,
      .obs]
  | .pwmGate => [.regs, .hlm]
  | .strapReread _ _ => [.regs, .raised, .freeIx, .sys, .det, .tdc, .his, .til, .oq, .emi, .lnk, .hlm, .hdg, .cap, .sxt, .boot, .obs]
  | .limitRecheck _ => [.regs, .raised, .freeIx, .sys, .det, .tdc, .his, .til, .oq, .emi, .lnk, .hlm, .hdg, .cap, .sxt, .boot, .obs]
  | .sealLock => [.regs, .raised, .sys, .obs]
  | .safeRstLowRegistered _ => [.regs, .hdg]
  | .safeRstHighRegistered _ => [.regs, .hdg]
  | .safeRstStuck => [.regs, .raised]
  | .resetPairComplete => [.regs, .raised, .freeIx, .sys, .det, .tdc, .his, .emi, .mem, .lnk, .hlm, .hdg, .sxt, .boot]
  | .meridianEnable => [.regs, .raised, .sys, .mer, .obs]
  | .listenEnd _ => [.regs, .mer]
  | .rtRestart => [.regs, .raised, .sys, .mer, .obs]
  | .trigSend => [.regs, .raised, .sys, .mer, .obs]
  | .epochDue _ => [.regs, .raised, .mer]
  | .pingDue => [.mer]
  | .frameLaunch _ _ => [.mer]
  | .sweepFrame _ => [.regs, .raised, .freeIx, .his, .hlm, .mer, .cap, .obs]
  | .epochFrame _ => [.regs, .raised, .freeIx, .his, .hlm, .mer, .cap, .obs]
  | .pingFrame _ _ => [.regs, .raised, .mer, .obs]
  | .pongLaunch => [.mer]
  | .pongFrame _ _ _ _ => [.regs, .raised, .mer, .obs]
  | .pongTimeout => [.mer]
  | .delayCompute => [.regs, .mer]
  | .delayFrame _ _ _ => [.regs, .raised, .mer, .obs]
  | .trigFrame _ => [.regs, .raised, .freeIx, .his, .hlm, .mer, .cap, .obs]
  | .badFrame => [.regs, .raised, .mer]
  | .frameApplication _ => [.regs, .raised, .freeIx, .his, .hlm, .mer, .cap]
  | .alignmentAverage => [.regs, .raised, .mer]
  | .phaseStep => [.regs, .mer]
  | .meridianLost => [.regs, .raised, .mer]
  | .captureEnable => [.regs, .raised, .sys, .cap, .obs]
  | .captureDisable => [.regs, .raised, .sys, .cap, .obs]
  | .captureShutdownComplete => [.regs, .raised, .cap]
  | .captureArm => [.regs, .raised, .sys, .obs]
  | .captureForce _ => [.regs, .raised, .freeIx, .sys, .cap, .obs]
  | .captureRecordComplete => [.regs, .raised, .mem, .lnk, .cap, .obs, .dram]
  | .sextantEnable => [.regs, .raised, .sys, .sxt, .obs]
  | .sextantDisable => [.regs, .raised, .sys, .sxt, .obs]
  | .sextantArm => [.regs, .raised, .sys, .sxt, .obs]
  | .sextantStartEdge _ _ _ => [.regs, .raised, .sxt, .obs]
  | .sextantStopEdge _ _ _ => [.regs, .raised, .sxt, .obs]
  | .sextantMeasurementTimeout => [.regs, .raised, .sxt, .obs]
  | .sextantSetComplete => [.regs, .raised, .det, .tdc, .his, .til, .sxt, .cal]
  | .sxtGateEdge _ _ => [.regs, .cap, .sxt]
  | .cdtRun => [.regs, .raised, .sys, .obs]
  | .cdtRunComplete _ _ => [.regs, .raised, .det, .tdc, .his, .sxt, .cal]
  | .cdtCommit => [.regs, .raised, .sys, .sxt, .obs]
  | .adcEnable => [.regs, .raised, .sys, .adc, .obs]
  | .adcDisable => [.regs, .raised, .sys, .adc, .obs]
  | .adcSample _ _ => [.regs, .raised, .freeIx, .emi, .hlm, .cap, .adc, .obs]
  | .hostUrgentRequest _ => [.regs, .raised, .sys, .adc, .obs]
  | .urgentSample _ _ => [.regs, .raised, .freeIx, .emi, .hlm, .cap, .adc, .obs]
  | .feConfigWrite _ _ _ _ => [.regs, .raised, .sys, .adc, .obs]
  | .settleEnd _ => [.regs, .adc]
  | .excitationPulseOn _ => [.regs, .adc]
  | .excitationPulseOff _ => [.regs, .adc]
  | .currentSwap _ => [.regs]
  | .rangeFlapRelease _ => [.regs, .raised, .sys, .adc, .obs]
  | .excitationFaultEntry _ _ => [.regs, .raised, .adc]
  | .excitationFaultClear _ => [.regs, .adc]
  | .excFlapRelease _ => [.regs, .raised, .sys, .adc, .obs]
  | .codeDensityItem => [.regs, .raised, .det, .tdc, .his, .sxt, .cal]
  | .rangeZeroItem => [.regs, .raised, .freeIx, .det, .tdc, .his, .sxt, .cal]
  | .spadSurvey => [.regs, .raised, .det, .tdc, .his, .sxt, .cal]
  | .planEnd _ => [.regs, .raised, .sys, .det, .tdc, .his, .emi, .lnk, .hlm, .sxt, .cal, .boot, .flash]
  | .clrField => [.regs, .raised, .sys, .cal, .obs]
  | .rzDriftEntry _ => [.regs, .raised, .cal]
  | .rzDriftClear => [.cal]
  | .rzFlapRelease => [.regs, .raised, .sys, .cal, .obs]
  | .rerunDue => [.regs, .raised, .sys, .det, .tdc, .his, .emi, .lnk, .hlm, .sxt, .cal, .boot, .flash]
  | .legacyCommit => [.regs, .raised, .sys, .cal, .obs]
  | .legacyInterpolation => [.regs, .til, .cal]
  | .fuseBurn _ => [.regs, .raised, .sys, .cal, .obs]
  | .fuseBurnComplete _ => [.regs, .raised, .freeIx, .cal]
  | .journalSave => [.regs, .raised, .sys, .cal, .obs, .flash]
  | .journalSaveComplete _ => [.regs, .raised, .freeIx, .sys, .det, .tdc, .his, .til, .oq, .emi, .mem, .lnk, .hlm, .hdg, .mer, .cap,
      .sxt, .adc, .cal, .thm, .boot, .obs, .dram, .flash]
  | .sensorConversion _ _ => [.regs, .raised, .det, .thm]
  | .sensorFail _ _ => [.regs, .raised]
  | .readmit _ => [.regs, .raised, .sys, .thm, .obs]
  | .retire _ => [.regs, .raised, .sys, .thm, .obs]
  | .thermalIndicatorEntry _ _ => [.regs, .raised, .sys, .det, .tdc, .his, .emi, .lnk, .hlm, .sxt, .thm, .boot]
  | .thermalIndicatorExit _ => [.regs, .raised, .sys, .det, .tdc, .his, .emi, .lnk, .hlm, .sxt, .cal, .boot, .flash]
  | .thmFlapRelease => [.regs, .raised, .sys, .thm, .obs]
  | .thermalTrip _ => [.regs, .raised, .freeIx, .sys, .det, .tdc, .his, .til, .oq, .emi, .mem, .lnk, .hlm, .hdg, .mer, .cap, .sxt,
      .adc, .cal, .thm, .boot, .obs, .dram]
  | .thermalTripRelease => [.thm]
  | .compensationUpdate _ _ => [.regs, .raised, .tdc, .cal, .thm]
  | .railMonitorEntry _ _ _ => [.regs, .raised, .thm]
  | .railMonitorClear _ _ => [.regs]
  | .shadowParityCheck _ => [.regs]
  | .memoryEnable => [.regs, .raised, .freeIx, .sys, .det, .tdc, .his, .til, .oq, .emi, .mem, .lnk, .hlm, .hdg, .mer, .cap, .sxt,
      .adc, .cal, .thm, .boot, .obs, .dram, .flash]
  | .selfRefreshEntry => [.regs, .raised, .sys, .mem, .lnk, .obs, .dram]
  | .selfRefreshExit => [.regs, .raised, .sys, .mem, .obs]
  | .selfRefreshEntryComplete => [.regs, .freeIx, .mem]
  | .selfRefreshExitComplete => [.regs, .raised, .freeIx, .sys, .det, .tdc, .his, .til, .oq, .emi, .mem, .lnk, .hlm, .hdg, .mer, .cap,
      .sxt, .adc, .cal, .thm, .boot, .obs, .dram, .flash]
  | .init => [.regs, .raised, .sys, .mem, .obs]
  | .initComplete => [.regs, .raised, .freeIx, .sys, .det, .tdc, .his, .til, .oq, .emi, .mem, .lnk, .hlm, .hdg, .mer, .cap, .sxt,
      .adc, .cal, .thm, .boot, .obs, .dram, .flash]
  | .memoryRequestServed _ _ _ _ => [.regs, .raised, .freeIx, .sys, .det, .tdc, .his, .til, .oq, .emi, .mem, .lnk, .hlm, .hdg, .mer,
      .cap, .sxt, .adc, .cal, .thm, .boot, .obs, .dram, .flash]
  | .requestUrgent _ _ => [.regs, .mem]
  | .panicEntry _ _ => [.regs, .raised, .mem]
  | .panicExit _ => [.regs]
  | .refresh _ _ _ => [.regs, .raised, .mem, .obs]
  | .refreshRatePoll _ _ _ _ => [.regs, .raised, .mem]
  | .hotspotWindow _ _ _ _ => [.regs, .raised, .mem]
  | .scrubPassRead _ => [.regs, .raised, .mem, .obs]
  | .mrCommand _ _ _ _ _ => [.regs, .raised, .sys, .obs]
  | .mrCommandComplete _ => [.regs]
  | .trainingSweep => [.regs, .raised, .sys, .mem, .obs]
  | .trainingSweepComplete _ => [.regs, .raised, .freeIx, .sys, .det, .tdc, .his, .til, .oq, .emi, .mem, .lnk, .hlm, .hdg, .mer, .cap,
      .sxt, .adc, .cal, .thm, .boot, .obs, .dram, .flash]
  | .configRequest _ _ _ => [.regs, .raised, .freeIx, .lnk, .obs]
  | .bar0Request _ _ _ _ _ _ => [.regs, .raised, .freeIx, .sys, .det, .tdc, .his, .til, .oq, .emi, .mem, .lnk, .hlm, .hdg, .mer, .cap,
      .sxt, .adc, .cal, .thm, .boot, .obs, .dram, .flash]
  | .bar2Request _ _ _ _ _ => [.regs, .raised, .mem, .obs]
  | .pcieReset _ => [.regs, .raised, .lnk, .boot]
  | .linkChange _ _ _ _ => [.regs, .raised, .lnk, .boot]
  | .ethFrameReceived _ _ _ _ => [.regs, .raised, .lnk]
  | .packetiserRecord _ => [.regs, .raised, .mem, .lnk, .obs]
  | .packetSend _ => [.regs, .lnk]
  | .flushTimer _ => [.regs, .lnk]
  | .ptpStep _ _ => [.regs, .raised, .sys, .lnk, .obs]
  | .ptpRate _ _ => [.regs, .raised, .sys, .lnk, .obs]
  | .syncSet => [.regs, .raised, .sys, .obs]
  | .syncHoldover => [.regs]
  | .ptpSnap _ => [.regs, .raised, .sys, .lnk, .obs]
  | .ptpTsRead => [.regs, .raised, .sys, .lnk, .obs]
  | .losEntry _ _ _ => [.regs, .raised, .lnk]
  | .losExit _ => [.regs, .raised]
  | .lolEntry _ _ => [.regs, .raised, .lnk]
  | .lolExit _ => [.regs, .raised]
  | .laneFlapRelease _ => [.regs, .raised, .sys, .lnk, .obs]
  | .loopbackSelect _ _ _ => [.regs, .raised, .freeIx, .sys, .obs]
  | .txEnable _ => [.regs, .raised, .sys, .obs]
  | .txDisable _ => [.regs, .raised, .sys, .lnk, .obs]
  | .rxEnable _ => [.regs, .raised, .sys, .obs]
  | .rxDisable _ => [.regs, .raised, .sys, .lnk, .obs]
  | .laneShutdownComplete _ _ => [.regs, .raised, .lnk]
  | .lpiEntry _ _ => [.regs]
  | .lpiWake _ _ => [.regs]
  | .mailboxClaim _ _ => [.regs, .raised, .sys, .boot, .obs]
  | .mailboxOwnershipLapse => [.regs, .boot]
  | .mailboxDatagram _ _ _ _ _ => [.regs, .raised, .freeIx, .sys, .det, .tdc, .his, .til, .oq, .emi, .mem, .lnk, .hlm, .hdg, .mer,
      .cap, .sxt, .adc, .cal, .thm, .boot, .obs, .dram, .flash]
  | .fwVersion _ _ => [.regs, .raised, .freeIx, .sys, .det, .tdc, .his, .til, .oq, .emi, .mem, .lnk, .hlm, .hdg, .mer, .cap, .sxt,
      .adc, .cal, .thm, .boot, .obs, .dram, .flash]
  | .serialLo _ _ => [.regs, .raised, .freeIx, .sys, .det, .tdc, .his, .til, .oq, .emi, .mem, .lnk, .hlm, .hdg, .mer, .cap, .sxt,
      .adc, .cal, .thm, .boot, .obs, .dram, .flash]
  | .serialHi _ _ => [.regs, .raised, .freeIx, .sys, .det, .tdc, .his, .til, .oq, .emi, .mem, .lnk, .hlm, .hdg, .mer, .cap, .sxt,
      .adc, .cal, .thm, .boot, .obs, .dram, .flash]
  | .flashRead _ _ => [.regs, .raised, .freeIx, .sys, .det, .tdc, .his, .til, .oq, .emi, .mem, .lnk, .hlm, .hdg, .mer, .cap, .sxt,
      .adc, .cal, .thm, .boot, .obs, .dram, .flash]
  | .updateBegin _ _ => [.regs, .raised, .freeIx, .sys, .det, .tdc, .his, .til, .oq, .emi, .mem, .lnk, .hlm, .hdg, .mer, .cap, .sxt,
      .adc, .cal, .thm, .boot, .obs, .dram, .flash]
  | .updateData _ _ => [.regs, .raised, .freeIx, .sys, .det, .tdc, .his, .til, .oq, .emi, .mem, .lnk, .hlm, .hdg, .mer, .cap, .sxt,
      .adc, .cal, .thm, .boot, .obs, .dram, .flash]
  | .updateEnd _ _ _ => [.regs, .raised, .freeIx, .sys, .det, .tdc, .his, .til, .oq, .emi, .mem, .lnk, .hlm, .hdg, .mer, .cap, .sxt,
      .adc, .cal, .thm, .boot, .obs, .dram, .flash]
  | .updateConfirm _ _ _ => [.regs, .raised, .freeIx, .sys, .det, .tdc, .his, .til, .oq, .emi, .mem, .lnk, .hlm, .hdg, .mer, .cap,
      .sxt, .adc, .cal, .thm, .boot, .obs, .dram, .flash]
  | .i2cXfer _ _ => [.regs, .raised, .freeIx, .sys, .det, .tdc, .his, .til, .oq, .emi, .mem, .lnk, .hlm, .hdg, .mer, .cap, .sxt, .adc,
      .cal, .thm, .boot, .obs, .dram, .flash]
  | .i2cTransferComplete _ _ _ => [.regs, .raised, .freeIx, .sys, .lnk]
  | .logRead _ _ => [.regs, .raised, .freeIx, .sys, .det, .tdc, .his, .til, .oq, .emi, .mem, .lnk, .hlm, .hdg, .mer, .cap, .sxt, .adc,
      .cal, .thm, .boot, .obs, .dram, .flash]
  | .settingsSave _ _ => [.regs, .raised, .freeIx, .sys, .det, .tdc, .his, .til, .oq, .emi, .mem, .lnk, .hlm, .hdg, .mer, .cap, .sxt,
      .adc, .cal, .thm, .boot, .obs, .dram, .flash]
  | .spiWrite _ _ _ _ => [.regs, .raised, .freeIx, .sys, .det, .tdc, .his, .til, .oq, .emi, .mem, .lnk, .hlm, .hdg, .mer, .cap, .sxt,
      .adc, .cal, .thm, .boot, .obs, .dram, .flash]
  | .spiRead _ => [.regs, .raised, .freeIx, .sys, .his, .til, .mem, .lnk, .obs]
  | .spiWindow _ _ => [.regs, .raised, .lnk]
  | .spiStatus => [.regs, .raised, .lnk]
  | .spiBadFrame => [.regs, .raised, .lnk]
  | .startWatchdog _ => [.regs, .raised, .freeIx, .sys, .det, .tdc, .his, .til, .oq, .emi, .mem, .lnk, .hlm, .hdg, .mer, .cap, .sxt,
      .adc, .cal, .thm, .boot, .obs, .dram, .flash]
  | .failCountExpiry _ => [.regs, .boot]
  | .cdDueRerun => [.regs, .raised, .sys, .det, .tdc, .his, .emi, .lnk, .hlm, .sxt, .cal, .boot, .flash]
  | .slotWriteComplete _ _ => [.regs, .raised, .freeIx, .sys, .det, .tdc, .his, .til, .oq, .emi, .mem, .lnk, .hlm, .hdg, .mer, .cap,
      .sxt, .adc, .cal, .thm, .boot, .obs, .dram, .flash]
  | .headlandSend => [.regs, .raised, .freeIx, .sys, .mem, .boot, .obs]
  | .headlandConfirm _ => [.regs, .raised, .freeIx, .sys, .boot, .obs, .flash]
  | .headlandOffer _ _ _ => [.regs, .raised, .freeIx, .mem, .boot, .obs]
  | .headlandData _ _ _ _ => [.regs, .raised, .freeIx, .mem, .lnk, .boot, .obs, .dram]
  | .headlandEnd _ _ _ => [.regs, .raised, .freeIx, .mem, .boot, .obs, .flash]
  | .headlandAck _ => [.regs, .raised, .freeIx, .mem, .boot, .obs]
  | .headlandNak _ => [.regs, .raised, .freeIx, .mem, .boot, .obs]
  | .headlandAbort _ => [.regs, .raised, .freeIx, .boot]
  | .headlandResult _ _ => [.regs, .freeIx, .boot]
  | .headlandConfirmPacket _ _ => [.regs, .raised, .freeIx, .boot, .flash]
  | .headlandResendTimeout => [.regs, .raised, .freeIx, .mem, .boot, .obs]
  | .headlandAutoStart => [.regs, .raised, .freeIx, .sys, .det, .tdc, .his, .til, .oq, .emi, .mem, .lnk, .hlm, .hdg, .mer, .cap, .sxt,
      .adc, .cal, .thm, .boot, .obs, .dram]
  | .logbookEntryProgram => [.regs, .raised, .boot, .obs, .flash]
  | .eventRaise _ => [.regs, .raised, .freeIx, .lnk, .cap, .boot, .obs]
  | .pendingClear _ _ => [.regs, .raised, .sys, .lnk, .obs]
  | .eventForce _ => [.regs, .raised, .sys, .obs]
  | .counterConfigWrite _ _ => [.regs, .raised, .sys, .obs]
  | .counterLiveRead _ => [.regs, .raised, .sys, .obs]
  | .clearAll => [.regs, .raised, .sys, .obs]
  | .snap _ => [.regs, .raised, .sys, .obs]
  | .snapshotPeriod _ => [.regs, .obs]
  | .snapshotCopy => [.regs, .raised, .obs]
  | .preciseSample _ _ _ _ _ _ => [.regs, .freeIx, .til, .obs]
  | .traceRecord => [.regs, .raised, .mem, .lnk, .obs, .dram]
  | .traceClr => [.regs, .raised, .sys, .obs]
  | .testEnHigh => [.regs, .raised, .freeIx, .sys, .det, .tdc, .his, .til, .oq, .emi, .mem, .lnk, .hlm, .hdg, .mer, .cap, .sxt, .adc,
      .cal, .thm, .boot, .obs, .dram]
  | .bypass => [.regs, .sys, .hdg]
  | .idcode => [.regs, .sys, .hdg]
  | .samplePreload => [.regs, .freeIx, .sys, .hdg]
  | .extest => [.regs, .freeIx, .sys, .hdg]
  | .extestPulse => [.regs, .freeIx, .sys, .hdg]
  | .extestTrain => [.regs, .freeIx, .sys, .hdg]
  | .clamp => [.regs, .sys, .hdg]
  | .highz => [.regs, .sys, .hdg]
  | .mainPllRelock => [.regs, .raised, .freeIx, .sys, .det, .tdc, .his, .til, .oq, .emi, .mem, .lnk, .hlm, .hdg, .mer, .cap, .sxt,
      .adc, .cal, .thm, .boot, .obs, .dram, .flash]
  | .tillerPllRelock => [.regs]
  | .relockTimeout _ _ => [.regs, .raised, .freeIx, .sys, .det, .tdc, .his, .til, .oq, .emi, .mem, .lnk, .hlm, .hdg, .mer, .cap, .sxt,
      .adc, .cal, .thm, .boot, .obs, .dram, .flash]
  | .lineFaultClear _ _ => [.regs, .raised, .sys, .det, .tdc, .his, .emi, .lnk, .hlm, .sxt, .cal, .boot, .obs, .flash]
  | .lbFlapRelease => [.regs, .raised, .sys, .emi, .obs]
  | .panicFlapRelease _ => [.regs, .raised, .sys, .mem, .obs]
  | .tempFlapRelease => [.regs, .raised, .sys, .mem, .obs]
  | .hotFlapRelease => [.regs, .raised, .sys, .mem, .obs]
  | .pwmPeriodStart _ => [.regs, .raised, .hlm, .obs]
  | .startStepComplete _ _ _ _ => [.regs, .raised, .freeIx, .sys, .det, .tdc, .his, .til, .oq, .emi, .mem, .lnk, .hlm, .hdg, .mer,
      .cap, .sxt, .adc, .cal, .thm, .boot, .obs, .dram, .flash]
  | .frameLeftPort _ _ _ _ => [.regs, .raised, .lnk, .obs]
  | .pcieCompletion _ _ => [.regs, .raised, .sys, .lnk, .obs]
  | .settingsSaveComplete _ => [.regs, .raised, .freeIx, .sys, .det, .tdc, .his, .til, .oq, .emi, .mem, .lnk, .hlm, .hdg, .mer, .cap,
      .sxt, .adc, .cal, .thm, .boot, .obs, .dram, .flash]

/-- A command's change lies within its lists, and leaves the queue alone. -/
def withinBounds (i : Instr) (s t : State) : Prop := onlyChanges (parts i) s t ∧ regsWithin (written i) s t

end Sys2Proof.Machine
end

