-- ==== Sys2Proof/Machine/Claims.lean ====
section
/-! DEFINITION. Words of the claims: what several statements say of a state before and a state after. -/

namespace Sys2Proof.Machine

/-- The hedge has tripped with cause `c` as its first (R262): the latch and the cause are set, the hedge is in TRIPPED (with
TEST_EN high in IDLE, R459), LI_N is low unless the pad disagrees with its drive, and, from every mode but RESET, the device is in SAFE-STOP. -/
abbrev trippedBy (c : Nat) (s t : State) : Prop :=
  t.on F.HDG_STATUS_LATCH = true ∧ t.rd F.HDG_TRIP_CAUSE_FIRST = c ∧ (t.rd F.HDG_TRIP_CAUSE_CAUSE).testBit c = true
    ∧ t.gst = (if s.sys.testEn then gIDLE else gTRIPPED)
    ∧ (s.hdg.liBad = false → t.on F.HDG_STATUS_LI_LEVEL = false) ∧ (s.mode ≠ mRESET → t.mode = mSAFESTOP)

/-- Cause `c` trips the hedge (R261, R262): as the first cause where no latch is set; else it adds its bit, FIRST and the states stay. A
cause not yet recorded raises HDG_TRIP. -/
abbrev trips (c : Nat) (s t : State) : Prop :=
  (t.rd F.HDG_TRIP_CAUSE_CAUSE).testBit c = true
  ∧ (if s.on F.HDG_STATUS_LATCH = true then
      t.on F.HDG_STATUS_LATCH = true ∧ t.rd F.HDG_TRIP_CAUSE_FIRST = s.rd F.HDG_TRIP_CAUSE_FIRST ∧ t.gst = s.gst ∧ t.mode = s.mode
    else trippedBy c s t)
  ∧ (s.mode ≠ mRESET ∧ (s.on F.HDG_STATUS_LATCH = false ∨ (s.rd F.HDG_TRIP_CAUSE_CAUSE).testBit c = false) → 432 ∈ t.raised)

/-- HDG_PRESENT, CLEAR and the HDG_OK pin show the hedge as it stands (R261, R269, R271). -/
abbrev hedgeShown (t : State) : Prop :=
  t.rd F.HDG_PRESENT_CAUSE = t.presentMask
  ∧ t.on F.HDG_STATUS_CLEAR = (decide (t.hdg.quiet = 100) && decide (t.hdg.still = 100) && t.hdg.books.isEmpty)
  ∧ t.hdg.okPin = (if t.present 9 || t.present 13 || t.present 14 then HdgOk.low else if t.on F.HDG_STATUS_LATCH then .hz250 else .khz1)

/-- The mailbox holds the response `tag`, `status`, `detail`, and SYS_MBOX_RESP has been raised, outside RESET (R36, R439, Table AR-12). -/
abbrev responded (tag status detail : Nat) (t : State) : Prop :=
  t.rd F.SYS_MBOX_RESP_TAG = tag ∧ t.rd F.SYS_MBOX_RESP_STATUS = status ∧ t.rd F.SYS_MBOX_RESP_DETAIL = detail
    ∧ (t.mode ≠ mRESET → 1 ∈ t.raised)

/-- The mailbox command is running: STATUS is BUSY, and its answer is still to come (R36). -/
abbrev running (c : MboxCmd) (t : State) : Prop := t.rd F.SYS_MBOX_RESP_STATUS = 1 ∧ t.sys.cmd = some c

/-! ### Krytold instructions (chapters 04 and 05) -/

/-- Tiller `n` issues its next instruction: it runs, its clock runs and it is not held (R26, R129), no HALT and no attention waits
(R159), PC lies in IMEM at a word without an error (R110, R111, R147) and no breakpoint stops it (R127). -/
abbrev issues (n : Nat) (s : State) : Prop :=
  s.tilStopped = false ∧ (s.tiller n).state = .running ∧ s.diverts n = false ∧ (s.tiller n).pc < 0x8000
    ∧ Tab.get okCond (s.tiller n).imemCond ((s.tiller n).pc / 4) = .ok
    ∧ ((s.tiller n).fresh = true ∨ s.on (F.TIL_BKPT_EN n) = false ∨ (s.tiller n).pc ≠ 4 * s.rd (F.TIL_BKPT_WORD n))

/-- Scalar register `r` of tiller `n`. -/
abbrev State.sr (s : State) (n r : Nat) : Word := (s.tiller n).s r

/-- Vector register `r` of tiller `n`. -/
abbrev State.vr (s : State) (n r : Nat) : BitVec 128 := (s.tiller n).v r

/-- Nothing outside tiller `n` changes but registers of the register map (counters, causes), performance counters and events. -/
abbrev onlyTiller (n : Nat) (s t : State) : Prop :=
  t = { s with til := t.til, regs := t.regs, obs := t.obs, raises := t.raises } ∧ ∀ m : Fin 192, m.val ≠ n → t.tiller m = s.tiller m

/-- Tiller `y` is `x` past one instruction, at `pc`: registers, their marks and FLAGS aside, nothing changes but what the
precise sampler reads (R447), and a STEP has ended in HALTED with HALT_CAUSE 2 (R126). -/
abbrev pastOne (pc : Nat) (x y : Tiller) : Prop :=
  y = { x with
    sreg := y.sreg, vreg := y.vreg, badS := y.badS, badV := y.badV, flags := y.flags, pc := pc, fresh := false, stepping := false,
    sampleLeft := y.sampleLeft, retAttn := x.inAttn, retTrap := x.inTrap, refRedo := if x.stepping then x.redo else x.refRedo,
    state := if x.stepping then .halted else x.state, haltCause := if x.stepping then 2 else x.haltCause,
    haltReq := if x.stepping then false else x.haltReq, stall := if x.stepping then none else x.stall,
    transferring := if x.stepping then false else x.transferring }

/-- Of the scalar registers and their marks only `rd` changes, to `w`; s0 stays 0 (R136). -/
abbrev setsS (rd : Fin 32) (w : Word) (x y : Tiller) : Prop :=
  ∀ r : Fin 32, y.s r = (if r = rd ∧ r ≠ 0 then w else x.s r)
    ∧ (r ≠ rd → Tab.get (fun _ => false) y.badS r = Tab.get (fun _ => false) x.badS r)

/-- Of the vector registers and their marks only `vd` changes. -/
abbrev setsV (vd : Fin 32) (x y : Tiller) : Prop :=
  ∀ r : Fin 32, r ≠ vd → y.v r = x.v r ∧ Tab.get (fun _ => 0) y.badV r = Tab.get (fun _ => 0) x.badV r

/-- Z, N, C and V stay, and S is set by a clip (R137). -/
abbrev keepsZNCV (clipped : Bool) (x y : Tiller) : Prop :=
  fZ y.flags = fZ x.flags ∧ fN y.flags = fN x.flags ∧ fC y.flags = fC x.flags ∧ fV y.flags = fV x.flags
    ∧ fS y.flags = (fS x.flags || clipped)

/-- Z, N, C and V as stated, and S stays. -/
abbrev setsZNCV (z n c v : Bool) (x y : Tiller) : Prop :=
  fZ y.flags = z ∧ fN y.flags = n ∧ fC y.flags = c ∧ fV y.flags = v ∧ fS y.flags = fS x.flags

/-- Tiller `n` wrote `w` to scalar register `rd` and moved to the next instruction. -/
abbrev movedS (n : Nat) (rd : Fin 32) (w : Word) (s t : State) : Prop :=
  onlyTiller n s t ∧ pastOne ((s.tiller n).pc + 4) (s.tiller n) (t.tiller n) ∧ setsS rd w (s.tiller n) (t.tiller n)
    ∧ (t.tiller n).vreg = (s.tiller n).vreg ∧ (t.tiller n).badV = (s.tiller n).badV

/-- The same, and `clipped` sets S while the other flags stay. -/
abbrev wroteS (n : Nat) (rd : Fin 32) (w : Word) (clipped : Bool) (s t : State) : Prop :=
  movedS n rd w s t ∧ keepsZNCV clipped (s.tiller n) (t.tiller n)

/-- Tiller `n` wrote vector register `vd` and moved to the next instruction; `clipped` sets S, other flags stay. -/
abbrev wroteV (n : Nat) (vd : Fin 32) (clipped : Bool) (s t : State) : Prop :=
  onlyTiller n s t ∧ pastOne ((s.tiller n).pc + 4) (s.tiller n) (t.tiller n) ∧ setsV vd (s.tiller n) (t.tiller n)
    ∧ (t.tiller n).sreg = (s.tiller n).sreg ∧ (t.tiller n).badS = (s.tiller n).badS ∧ keepsZNCV clipped (s.tiller n) (t.tiller n)

/-- Lane `i` of a vector of lanes of `k` bits (R139). -/
abbrev laneAt (k i : Nat) (v : BitVec 128) : BitVec k := v.extractLsb' (k * i) k

/-- Every lane of `r` is `f` of the lanes of `a` and `b`, at the lane width that `w` selects (R148). -/
abbrev lanewise (w : Bool) (f : (k : Nat) → BitVec k → BitVec k → BitVec k) (a b r : BitVec 128) : Prop :=
  if w then ∀ i : Fin 4, laneAt 32 i r = f 32 (laneAt 32 i a) (laneAt 32 i b)
  else ∀ i : Fin 8, laneAt 16 i r = f 16 (laneAt 16 i a) (laneAt 16 i b)

/-- Some lanes of `a` and `b` satisfy `f`. -/
abbrev anyLane (w : Bool) (f : (k : Nat) → BitVec k → BitVec k → Bool) (a b : BitVec 128) : Bool :=
  if w then (List.range 4).any fun i => f 32 (laneAt 32 i a) (laneAt 32 i b)
  else (List.range 8).any fun i => f 16 (laneAt 16 i a) (laneAt 16 i b)

/-- The signed range of `k` bits. -/
abbrev sLimit (k : Nat) (v : Int) : Int := max (-(2 ^ (k - 1))) (min (2 ^ (k - 1) - 1) v)

/-- Tiller `n` took the trap `cause` at PC (R130, R160): TRAP_CAUSE, EPC and TRAP_ADDR are written, cause TRAP is set, registers,
flags and memories stay; a trap inside a trap halts with HALT_CAUSE 5, with TRAP_MODE = 0 one with HALT_CAUSE 3, else the handler
at TIL_TRAP_VEC runs. -/
abbrev trapped (n cause : Nat) (addr : Option Nat) (s t : State) : Prop :=
  let x := s.tiller n
  let y := t.tiller n
  y = { x with
    trapCause := cause, epc := x.pc, trapAddr := addr.getD x.trapAddr, fresh := false, stepping := false, inTrap := y.inTrap,
    pc := y.pc, state := y.state, haltCause := y.haltCause, haltReq := y.haltReq, stall := y.stall, transferring := y.transferring,
    refRedo := y.refRedo }
  ∧ (t.rd (F.TIL_EVT_CAUSE_CAUSE n)).testBit 3 = true
  ∧ (if x.inTrap then y.state = .halted ∧ y.haltCause = 5 ∧ y.pc = x.pc ∧ y.inTrap = true
    else if s.rd (F.TIL_CFG_TRAP_MODE n) = 0 then y.state = .halted ∧ y.haltCause = 3 ∧ y.pc = x.pc ∧ y.inTrap = false
    else y.inTrap = true ∧ y.pc = 4 * s.rd (F.TIL_TRAP_VEC_WORD n) ∧ y.state = (if x.stepping then .halted else .running))
  ∧ ∀ m : Fin 192, m.val ≠ n → t.tiller m = s.tiller m

/-- Byte `a` of tiller `n`'s DMEM, by offset from 0x1_0000. -/
abbrev State.dbyte (s : State) (n a : Nat) : Byte := Tab.get (fun _ => 0) (s.tiller n).dmem a

/-- The address `ra + simm` of a load, a store or JALR (R145, R147). -/
abbrev State.ea (s : State) (n : Nat) (ra : Fin 32) (imm : BitVec 16) : Nat := (s.sr n ra + imm.signExtend 32).toNat

/-- The word a load meets at local address `a` of DMEM or the furrow view, and its condition (R95, R106, R112). -/
abbrev State.wordAt (s : State) (n a : Nat) : Word :=
  if a < 0x20000 then s.dbyte n (a - 0x10000 + 3) ++ s.dbyte n (a - 0x10000 + 2) ++ s.dbyte n (a - 0x10000 + 1) ++ s.dbyte n (a - 0x10000)
  else s.viewWord n ((s.tiller n).own.map Prod.fst) (a - 0x20000)
abbrev State.condAt (s : State) (n a : Nat) : Cond :=
  if a < 0x20000 then Tab.get okCond (s.tiller n).dmemCond ((a - 0x10000) / 4)
  else s.viewCond n ((s.tiller n).own.map Prod.fst) (a - 0x20000)

/-- Tiller `n` completed a load: PC has moved on, FLAGS stay, and of the tiller only registers, their marks, POISON_SEEN and corrected
words of DMEM may differ; no other tiller changes. -/
abbrev loaded (n : Nat) (s t : State) : Prop :=
  pastOne ((s.tiller n).pc + 4)
    { s.tiller n with dmemCond := (t.tiller n).dmemCond, poisonSeen := (t.tiller n).poisonSeen } (t.tiller n)
  ∧ (t.tiller n).flags = (s.tiller n).flags ∧ ∀ m : Fin 192, m.val ≠ n → t.tiller m = s.tiller m

/-- A load of scalar register `rd` completed with `w`, and no vector register changed. -/
abbrev loadedS (n : Nat) (rd : Fin 32) (w : Word) (s t : State) : Prop :=
  loaded n s t ∧ setsS rd w (s.tiller n) (t.tiller n) ∧ (t.tiller n).vreg = (s.tiller n).vreg ∧ (t.tiller n).badV = (s.tiller n).badV

/-- A load of vector register `vd` completed, and no scalar register changed. -/
abbrev loadedV (n : Nat) (vd : Fin 32) (s t : State) : Prop :=
  loaded n s t ∧ setsV vd (s.tiller n) (t.tiller n) ∧ (t.tiller n).sreg = (s.tiller n).sreg ∧ (t.tiller n).badS = (s.tiller n).badS

/-- What a lane of a load receives of the word at `a`: the word, or 0 where it is uncorrectable or poisoned (R112). -/
abbrev State.cleanAt (s : State) (n a : Nat) : Word := if (s.condAt n a).bad then 0 else s.wordAt n a

/-- Whether lane `j` of VBWL with `rb` = `b` lies inside the array, and where its bin lies in an array at `a` (R149). -/
abbrev binIn (b : Word) (j : Nat) : Bool :=
  decide (0 ≤ (b.setWidth 16).toInt + j) && decide ((b.setWidth 16).toInt + j < (b.toNat / 2 ^ 16 : Nat))
abbrev binAddr (a b : Word) (j : Nat) : Nat := a.toNat + 2 * ((b.setWidth 16).toInt + j).toNat

/-- The words of the aligned groups of 16 bytes that hold the bins VBWL reads, in order (R149). -/
abbrev binWords (a b : Word) : List Nat :=
  (((List.range 8).filter fun j => binIn b j).map fun j => binAddr a b j / 16 * 16).dedup.flatMap fun g => [g, g + 4, g + 8, g + 12]

/-- Whether a branch with COND = `c` is taken on FLAGS = `f`, in the order of Table KI-9. -/
abbrev branchTaken (c : Fin 16) (f : Nat) : Bool :=
  [fZ f, !fZ f, fN f != fV f, fN f == fV f, !fZ f && fN f == fV f, fZ f || fN f != fV f, fC f, !fC f, !fC f && !fZ f,
    fC f || fZ f, fS f, !fS f, false, false, false, true].getD c false

/-- Tiller `n` jumped to `target`, with `w` in scalar register `rd`. -/
abbrev jumped (n : Nat) (rd : Fin 32) (w : Word) (target : Nat) (s t : State) : Prop :=
  onlyTiller n s t ∧ pastOne target (s.tiller n) (t.tiller n) ∧ setsS rd w (s.tiller n) (t.tiller n)
    ∧ (t.tiller n).vreg = (s.tiller n).vreg ∧ (t.tiller n).badV = (s.tiller n).badV ∧ (t.tiller n).flags = (s.tiller n).flags

/-- Tiller `n` stored the bytes of `v` (`k` of them) at local address `a` of DMEM; every other byte stays (R139, R145). -/
abbrev stored (n a k v : Nat) (s t : State) : Prop :=
  let x := s.tiller n
  let y := t.tiller n
  onlyTiller n s t ∧ pastOne (x.pc + 4) { x with dmem := y.dmem, dmemCond := y.dmemCond } y ∧ y.sreg = x.sreg ∧ y.vreg = x.vreg
  ∧ y.badS = x.badS ∧ y.badV = x.badV ∧ y.flags = x.flags
  ∧ ∀ b : Fin 65536, Tab.get (fun _ => 0) y.dmem b =
      if a ≤ b.val + 0x10000 ∧ b.val + 0x10000 < a + k then BitVec.ofNat 8 (v / 2 ^ (8 * (b.val + 0x10000 - a)))
      else Tab.get (fun _ => 0) x.dmem b

/-- Of tiller memory `y` reads as `x` but for the `k` bytes of `v` from address `a` on, in a memory of `size` bytes. -/
abbrev putsBytes (size a k v : Nat) (x y : Tab Byte) : Prop :=
  ∀ b : Fin size, Tab.get (fun _ => 0) y b =
    if a ≤ b.val ∧ b.val < a + k then BitVec.ofNat 8 (v / 2 ^ (8 * (b.val - a))) else Tab.get (fun _ => 0) x b

/-- Every tiller but `n` is as it was. -/
abbrev othersKeep (n : Nat) (s t : State) : Prop := ∀ m : Fin 192, m.val ≠ n → t.tiller m = s.tiller m

/-- The access was rejected: no tiller changed, and SYS_CFG_REJECT is raised (R12). -/
abbrev tillersReject (s t : State) : Prop := t.til = s.til ∧ 3 ∈ t.raised

/-- Tiller `n` as a STEP at instant `u` leaves it at the boundary before its instruction: RUNNING, with a due attention taken (R126, R159). -/
abbrev State.stepStart (n u : Nat) (s : State) : State :=
  let s := s.onTiller n fun x => { x with state := .running, stepping := true, fresh := true }
  if s.attnDue n then s.attend n u else s

/-- The word at PC of tiller `n` has been fetched: its breakpoint exemption is spent, and a single-bit error is corrected and counted
(R110, R127). -/
abbrev State.stepFetch (n : Nat) (s : State) : State :=
  let s := s.onTiller n fun x => { x with fresh := false }
  if Tab.get okCond (s.tiller n).imemCond ((s.tiller n).pc / 4) = .ce then
    (s.onTiller n fun x => { x with imemCond := Tab.set okCond x.imemCond (x.pc / 4) .ok }).tilCE n
  else s

/-- A tiller halted with HALT_CAUSE `c`: what it was stalled on is abandoned, to be issued again by the reference program (R172), and
nothing else of it changes (R126). -/
abbrev haltedBy (c : Nat) (x y : Tiller) : Prop :=
  y = { x with state := .halted, haltCause := c, haltReq := false, stepping := false, stall := none, transferring := false, refRedo := x.redo }

/-- Tiller `n` is stalled on `x` at the instruction; nothing else of it changes. -/
abbrev stalledOn (n : Nat) (x : Stall) (s t : State) : Prop :=
  onlyTiller n s t ∧ t.tiller n = { s.tiller n with state := .stalled, stall := some x, fresh := false }

/-- The exact sum of lane `i` of VMACC with p = `p`, of `d`, the bins of `a` and `b` and the weights `w` (R150). -/
abbrev vmaccSum (d a b w : BitVec 128) (p i : Nat) : Int :=
  (laneAt 32 i d).toInt + ((List.range 8).map fun j =>
    ((if 4 * p + i + j < 8 then laneAt 16 (4 * p + i + j) a else laneAt 16 (4 * p + i + j - 8) b).toNat : Int) * (laneAt 16 j w).toInt).sum

/-- What R152 sums over lanes LO to HI: `f j` times what lies above the background. -/
abbrev centSum (v : BitVec 128) (b : Word) (f : Nat → Nat) : Nat :=
  ((List.range 8).map fun j =>
    if b.toNat % 8 ≤ j ∧ j ≤ b.toNat / 16 % 8 then ((laneAt 16 j v).toNat - b.toNat / 2 ^ 16) * f j else 0).sum

/-- LIVE before lane `j` of VCOAT (R153). -/
abbrev liveAt (v : BitVec 128) (st : Word) (j : Nat) : Nat :=
  st.toNat % 2 ^ 16 - ((List.range j).map fun i => (laneAt 16 i v).toNat).sum

/-- The corrected count of lane `j` before its clip to 16 bits (R153). -/
abbrev coatesAt (v : BitVec 128) (st : Word) (j : Nat) : Nat :=
  let c := (laneAt 16 j v).toNat
  if c = 0 then 0 else if liveAt v st j ≤ c then 0x10000
  else (st.toNat / 2 ^ 16 * coatesLog (c * 65536 / liveAt v st j) + 2048) / 2 ^ 12

/-- The tiller whose instruction stream the command is of: the rows that Krytold instructions are (Table KI-3), and none of another row. -/
def krytoldOf : Instr → Option (Fin 192)
  | .illegalInstruction n | .nop n | .trap n | .tret n | .aret n | .fence n => some n
  | .add n _ _ _ | .sub n _ _ _ | .and n _ _ _ | .or n _ _ _ | .xor n _ _ _ | .sll n _ _ _ | .srl n _ _ _ | .sra n _ _ _
  | .slt n _ _ _ | .sltu n _ _ _ | .min n _ _ _ | .max n _ _ _ | .minu n _ _ _ | .maxu n _ _ _ | .mul n _ _ _ | .mulh n _ _ _
  | .mulhu n _ _ _ | .divu n _ _ _ | .remu n _ _ _ | .slli n _ _ _ | .srli n _ _ _ | .srai n _ _ _ | .adds n _ _ _
  | .subs n _ _ _ | .addi n _ _ _ | .andi n _ _ _ | .ori n _ _ _ | .xori n _ _ _ | .slti n _ _ _ | .sw n _ _ _ | .vld n _ _ _
  | .vst n _ _ _ | .vbwl n _ _ _ | .jalr n _ _ _ | .vsel n _ _ _ | .vnars n _ _ _ | .vsplat n _ _ _ | .vrsum n _ _ _
  | .vrmaxu n _ _ _ | .vpidx n _ _ _ | .vcent n _ _ _ | .vcoat n _ _ _ | .emit n _ _ _ => some n
  | .cmp n _ _ | .tst n _ _ | .clz n _ _ | .popc n _ _ | .lui n _ _ | .cmpi n _ _ | .bc n _ _ | .jal n _ _ | .vzxl n _ _
  | .vzxh n _ _ => some n
  | .extu n _ _ _ _ | .lw n _ _ _ _ | .vadd n _ _ _ _ | .vsub n _ _ _ _ | .vaddsu n _ _ _ _ | .vsubsu n _ _ _ _
  | .vadds n _ _ _ _ | .vsubs n _ _ _ _ | .vmul n _ _ _ _ | .vmin n _ _ _ _ | .vmax n _ _ _ _ | .vmins n _ _ _ _
  | .vmaxs n _ _ _ _ | .vand n _ _ _ _ | .vor n _ _ _ _ | .vxor n _ _ _ _ | .vcmpeq n _ _ _ _ | .vcmpgtu n _ _ _ _
  | .vcmpgt n _ _ _ _ | .vslli n _ _ _ _ | .vsrli n _ _ _ _ | .vsrai n _ _ _ _ | .vext n _ _ _ _ | .vins n _ _ _ _
  | .vmacc n _ _ _ _ => some n
  | .fsend n _ | .frecvN n _ | .frecvW n _ | .rdfl n _ | .wrfl n _ => some n
  | _ => none

/-- Whether the instruction reads data memory, and so may count errors of its own (R110). -/
def krytoldErr : Instr → Bool
  | .lw _ _ _ _ _ | .vld _ _ _ _ | .vbwl _ _ _ _ | .emit _ _ _ _ => true
  | _ => false

/-! ### Commands of the blocks -/

/-- Whether the clock of the block is stopped that the command, a register access with a row of its own, reaches (R27); none of the other
commands. -/
def accessStopped (s : State) : Instr → Option Bool
  | .adcEnable | .adcDisable | .rangeFlapRelease _ | .hostUrgentRequest _ | .feConfigWrite _ _ _ _ | .excFlapRelease _
  | .captureEnable | .captureDisable | .captureArm | .captureForce _ | .faultClr | .lineFaultClear _ _ | .maskCommit
  | .probeStart | .biasEnable | .biasDisable | .biasFlapRelease | .emitterEnable | .emitterDisable | .curveCommit
  | .seedMapWrite _ _ _ _ | .shortTest | .lbWatchEnable | .lbWatchDisable | .lbFlapRelease | .meridianEnable | .rtRestart
  | .trigSend | .sextantEnable | .sextantDisable | .sextantArm | .cdtCommit | .cdtRun | .tdcCommit | .testSourceSelect _
  | .snoopArm _ _ | .counterClearAll | .counterClearSel => some s.mainStopped
  | .run _ | .step _ _ | .memInit _ | .groupRun | .halt _ | .groupHalt | .tilPcWrite _ _ | .tillerMemoryWrite _ _ _ _
  | .broadcastWrite _ _ _ | .tillerMemoryRead _ _ _ => some s.tilStopped
  | .panicFlapRelease _ | .selfRefreshEntry | .selfRefreshExit | .init | .tempFlapRelease | .hotFlapRelease
  | .mrCommand _ _ _ _ _ | .trainingSweep | .memoryEnable => some s.sys.dramStopped
  | .journalSave | .rzFlapRelease | .clrField | .legacyCommit | .fuseBurn _ | .pendingClear _ _ | .eventForce _ | .sealLock
  | .lawCommit | .helmEnable | .helmDisable | .speedRefWrite _ | .lockFlapRelease | .helmFaultClear | .traceArm | .traceForce
  | .laneFlapRelease _ | .loopbackSelect _ _ _ | .txEnable _ | .rxEnable _ | .txDisable _ | .rxDisable _ | .ptpStep _ _
  | .ptpRate _ _ | .syncSet | .ptpSnap _ | .ptpTsRead | .mailboxClaim _ _ | .counterConfigWrite _ _ | .clearAll | .snap _
  | .traceClr | .refSelChange _ _ | .readmit _ | .retire _ | .thmFlapRelease | .headlandSend | .headlandConfirm _ => some false
  | .counterLiveRead k => some (s.groupStopped (counterGroup k))
  | _ => none

/-- A register access reaches a block of the main clock: the device is not in RESET and its clock runs (R27). -/
abbrev State.reaches (s : State) : Prop := s.mode ≠ mRESET ∧ s.mainStopped = false

/-- The state in which the performance counter of register accesses has counted one (group MGMT, event 0x02). -/
abbrev State.accessed (s : State) : State := s.count 0 2 0 1

/-- The write was rejected (R12): but for the counted access nothing changes, and SYS_CFG_REJECT is raised. -/
abbrev rejected (s t : State) : Prop := t = s.accessed.raise 3

/-- The firings of channel `c` that a firing at `t` finds still in the window, and itself (R48). -/
abbrev State.firings (s : State) (c t : Nat) : List Nat :=
  ((Tab.get (fun _ => []) s.det.pendingFirings c).filter fun u => decide (t < u + s.coincW)) ++ [t]

/-- The time code of R63 before its window test. -/
abbrev State.timeCode (s : State) (c rawCoarse rawPhase : Nat) : Int :=
  ((rawCoarse * 16 + s.lutAct c rawPhase : Nat) : Int) - ((16 * (s.det.window + 1) : Nat) : Int) + s.skewAct c

/-- The next word of furrow `f` is `w`, of slot `x`, and it comes no later than 60 ns after the slot closes (R79). -/
abbrev State.arrives (s : State) (f : Nat) (w : Word) (x : Slot) (u : Nat) : Prop :=
  s.mainStopped = false ∧ (Tab.get (fun _ => []) s.tdc.queues f).head? = some w
    ∧ s.slotOfTag (Word.field w 26 25) = some x ∧ u ≤ x.closeAt + 60000

/-- The channel of a word of furrow `f`. -/
abbrev wordChannel (f : Nat) (w : Word) : Nat := 6 * f + Word.field w 29 27

/-- Channel `c` is neither silent nor gated (R52). -/
abbrev State.listens (s : State) (c : Nat) : Prop := s.on (F.DET_CH_CFG_SILENT c) = false ∧ s.isGated c = false

/-- Of every lane of bank `b` only that of channel `c` changes, to `l`; every bin stays. -/
abbrev laneBecomes (b c : Nat) (l : Lane) (s t : State) : Prop :=
  t.bank b = { s.bank b with lanes := (t.bank b).lanes } ∧ (t.bank b).lane c = l
    ∧ (∀ k : Fin 1152, k.val ≠ c → (t.bank b).lane k = (s.bank b).lane k) ∧ t.his.plough = s.his.plough

/-- A count in header word `i` of the lane of channel `c` in bank `b` (R95): a word that can be corrected is, and counted; one found
uncorrectable is poisoned, counted and told; an uncorrectable or poisoned one takes no count; else the lane becomes `f` of itself. -/
abbrev tallied (b c i : Nat) (f : Lane → Lane) (s t : State) : Prop :=
  let k := (s.bank b).headCond (16 * c + i)
  let u := match k with
    | .ce => (s.setHead b (16 * c + i) .ok).hisCE
    | .ue => (s.setHead b (16 * c + i) .poison).hisUE b c
    | _ => s
  laneBecomes b c (if k.bad then (u.bank b).lane c else f ((u.bank b).lane c)) u t

/-- The queue of furrow `f` has lost its oldest word, and no other queue has changed. -/
abbrev wordTaken (f : Nat) (s t : State) : Prop :=
  t.tdc = { s.tdc with queues := Tab.set (fun _ => []) s.tdc.queues f (Tab.get (fun _ => []) s.tdc.queues f).tail }

/-- Table `y` reads as `x` at every key but `k`. -/
abbrev keysKeep (k : Nat) (x y : Tab Nat) : Prop := ∀ j : Nat, j ≠ k → Tab.get (fun _ => 0) y j = Tab.get (fun _ => 0) x j

/-- The state that EN, the mode, the hedge and the recorded causes of `s` give an emitter that was in `st` (Table EM-5, R217 to R220). -/
def State.emiNext (s : State) (st : Nat) : Nat :=
  if s.latched then eINHIBITED
  else if s.reg R.EMI_FAULT_CAUSE ≠ 0 then eFAULT
  else if st = eDISCHARGING then eDISCHARGING
  else if s.on F.EMI_CTRL_EN = false then (if st = eWAIT ∨ st = eFIRING then eDISCHARGING else eOFF)
  else if s.blanked = true ∨ (s.mayFire = true ∧ s.released = false) then eINHIBITED
  else if st = eFIRING then (if s.mayFire then eFIRING else eDISCHARGING)
  else eWAIT

/-- The emitter is in state `n` where it was in `st`: in WAIT with EM_DAC at the curve value of the first entry, and a state but FIRING
is entered with EM_DAC at 0 V and the lines idle. -/
abbrev emiAt (n st : Nat) (t : State) : Prop :=
  t.emiState = n
  ∧ (n = eWAIT → t.rd F.EMI_CHG_STATUS_DAC_CODE = t.dacOf (t.seedEntry (t.rd F.EMI_STATUS_ACTIVE_BUF) 0))
  ∧ (n ≠ eWAIT → n ≠ eFIRING → n ≠ st → t.rd F.EMI_CHG_STATUS_DAC_CODE = 0 ∧ t.emi.rowsOut = 0 ∧ t.emi.colsOut = 0)

/-- The sample of input `n` at instant `u` (ps) is of a front end whose settle timer runs, or within 1 µs of a gain change (R317, R320). -/
abbrev State.settling (s : State) (n : Nat) : Bool := decide (16 ≤ n) && s.on (F.ADC_FE_STATUS_SETTLING (n - 16))
abbrev State.switched (s : State) (n u : Nat) : Bool :=
  decide (16 ≤ n) && ((s.fe (n - 16)).switching || (s.fe (n - 16)).changedAt.any fun v => decide (u < v + 1000000))

/-- The sample is discarded for its flags (R309). -/
abbrev State.discards (s : State) (n u : Nat) : Bool :=
  (s.settling n && !s.on F.ADC_CFG_KEEP_SETTLING) || (s.switched n u && !s.on F.ADC_CFG_KEEP_TRANSIENT)

/-- `w` is the sample word (Table AA-1) of input `n`, whose pins stand at `v` (in 1/128 code), at instant `u` (ps): CODE and OVR are of
the voltage that the front end's polarity and gain make of it, and 0 of an OFF front end (R307, R308, R312, R315, R318). -/
abbrev sampleOf (n : Nat) (v : Int) (urgent : Bool) (u : Nat) (s : State) (w : Word) : Prop :=
  let front := decide (16 ≤ n)
  let v := if front && s.on (F.ADC_FE_STATUS_SWAP (n - 16)) then -v else v
  let a := if front then v * 4 ^ (s.fe (n - 16)).gain else v
  Word.field w 31 27 = n ∧ Word.field w 26 26 = urgent.toNat ∧ Word.field w 24 24 = (s.settling n).toNat
  ∧ Word.field w 23 23 = (s.switched n u).toNat ∧ Word.field w 18 14 = 0
  ∧ Word.field w 22 22 = (if front then s.rd (F.ADC_FE_STATUS_EXC_FAULT (n - 16)) else 0)
  ∧ Word.field w 21 20 = (if front then (s.fe (n - 16)).gain % 4 else 0)
  ∧ Word.field w 19 19 = (if front then s.rd (F.ADC_FE_STATUS_SWAP (n - 16)) else 0)
  ∧ (if front && s.feMode (n - 16) == 0 then Word.field w 13 0 = 0 ∧ Word.field w 25 25 = 0
    else (Word.field w 13 0 : Int) = max 0 (min 16383 (a / 128))
      ∧ Word.field w 25 25 = (decide (128 * 16384 + 64 < a ∨ a < -64 ∨ (front = true ∧ v < 0))).toNat)

/-- Request `idx` of port `p`, which is `r`, has been served (R361, R374 to R376): refreshes owed to its bank first, then the access. -/
abbrev State.requestServed (s : State) (p idx link found : Nat) (r : Req) : State :=
  let s := s.catchUp p r
  let s := match s.place p r.addr with
    | .loc a =>
      let s := s.upset a found
      if r.write then s else { s with mem := { s.mem with linkNext := link :: s.mem.linkNext } }
    | _ => s
  (s.setPort p ((s.port p).eraseIdx idx)).serve p r

/-- The `n` bytes at `a` lead port `p` to host memory (R357, R358). -/
abbrev State.inHost (s : State) (p a n : Nat) : Bool :=
  (List.range n).all fun i => match s.place p (a + i) with
    | .host _ => true
    | _ => false

/-- The `n` bytes at `a` lead port `p` nowhere, for the cause `c` (R359). -/
abbrev State.inHole (s : State) (p c a n : Nat) : Bool := (List.range n).all fun i => s.place p (a + i) == .bad c

/-- `n` bytes of local DRAM from address `a` on. -/
abbrev State.dramBytes (s : State) (a n : Nat) : List Byte := (List.range n).map fun i => s.dramByte (a + i)

/-- A record of `l` bytes of block, `block` with its CRC, furrow `f` and SEQ `q` was taken into port `e`'s packet, alone when `failing`
or when it would not fit, or discarded where the port takes none (R395 to R397). -/
abbrev recordTaken (e q : Nat) (block : List Byte) (failing : Bool) (s t : State) : Prop :=
  if s.portTakes e then
    t.pkt e = { entries := (if failing || s.pktFull e block.length then [] else (s.pkt e).entries) ++ [(q, block)], bad := failing }
    ∧ t.rd F.LNK_PKT_DROP_COUNT = s.rd F.LNK_PKT_DROP_COUNT
  else
    t.pkt e = s.pkt e ∧ t.rd F.LNK_PKT_DROP_COUNT = min (s.rd F.LNK_PKT_DROP_COUNT + 1) (2 ^ 32 - 1)
    ∧ (s.rd F.LNK_PKT_DROP_COUNT = 0 ∧ s.mode ≠ mRESET → 501 ∈ t.raised)

/-- The packet under construction of port `e` left as one frame that carries its payload (R396). -/
abbrev packetSent (e : Nat) (s t : State) : Prop :=
  t.pkt e = {} ∧ (t.outOf e).take (s.outOf e).length = s.outOf e
  ∧ (t.outOf e).drop (s.outOf e).length = [(s.frameBytes e (s.pktDest e) (s.ipBytes e (s.pktDest e) (8 + (s.pktPayload e (s.pkt e)).length) (s.ident e)
      ++ s.udpBytes e (s.pktDest e) (s.pktPayload e (s.pkt e))) (s.pkt e).bad,
      (s.pkt e).entries.map Prod.fst)]
  ∧ t.rd (F.LNK_ETH_PKT_SEQ_SEQ e) = (s.rd (F.LNK_ETH_PKT_SEQ_SEQ e) + 1) % 2 ^ 32

/-- Packet `q` of the transfer `x` (R427, Table BU-8), with the bytes that `s` holds at its staging address,
for a relay's OFFER the payload received (R428): OFFER, DATA, END. -/
abbrev State.hdlFrame (s : State) (x : HdlTx) (q : Nat) : HdlPkt :=
  if q = 0 then ⟨1, x.hops, 0, 0, x.total, if x.relay then x.head else (s.mgmtLoad x.stage 256).1⟩
  else if q ≤ hdlCount x.total then
    ⟨2, x.hops, q, 4096 * (q - 1), x.total, (s.mgmtLoad (x.stage + 4096 * (q - 1)) (min 4096 (x.total - 4096 * (q - 1)))).1⟩
  else ⟨3, x.hops, q, 0, x.total, []⟩

/-- How many packets `x` may send now: at most 4 unacknowledged, up to END, and by a relay only those received (R427, R428);
those that carry staged bytes wait while DRAM serves nothing, or others first (R361, R371). -/
abbrev State.hdlRoom (s : State) (x : HdlTx) : Nat :=
  let e := min (x.base + 4) (hdlCount x.total + 2)
  let k := min 4 ((if x.relay then (s.boot.rx.elim e fun r => min e r.seq) else e) - x.next)
  ((List.range k).takeWhile fun i => !(x.fromStage (x.next + i) && s.mgmtWaits x.stage)).length

/-- From `s` the transfer `o`, if there is one, goes on: what its window permits is sent downstream, and `t` holds it so. -/
abbrev hdlPumped (o : Option HdlTx) (s t : State) : Prop :=
  t.boot.tx = o.map (fun x => { x with next := x.next + s.hdlRoom x }) ∧ t.boot.hdlDn.take s.boot.hdlDn.length = s.boot.hdlDn
  ∧ (t.boot.hdlDn.drop s.boot.hdlDn.length).map (fun p => (p.type, p.hops, p.seq, p.offset, p.total)) =
    o.toList.flatMap fun x => (List.range (s.hdlRoom x)).map fun i =>
      let p := s.hdlFrame x (x.next + i)
      (p.type, p.hops, p.seq, p.offset, p.total)

/-- The transfer sent ends without success: after an ABORT, or with one (R427). The result code shown is free (log entry 61). -/
abbrev hdlFailed (x : HdlTx) (s t : State) : Prop :=
  t.boot.tx = none ∧ t.on F.BOOT_HDL_STATUS_TX_BUSY = false ∧ t.boot.rx = s.boot.rx
  ∧ (if x.relay then t.rd F.BOOT_HDL_STATUS_RESULT = s.rd F.BOOT_HDL_STATUS_RESULT else s.mode ≠ mRESET → 506 ∈ t.raised)

/-- Addresses whose write does more than place its fields: a command bit (a row of its own), a setting that is sampled at a boundary,
the tiller window, the seed map, a table another rule governs. -/
abbrev ownWrite (a : Nat) : Bool :=
  inWindow a || inSeedMap a || hisSampled a
    || [R.SYS_CLK_CFG, R.SYS_MODE_CFG, R.SYS_MBOX_CMD, R.EVT_FORCE, R.DET_CTRL, R.DET_STATUS, R.DET_QUENCH_CFG, R.DET_COINC_CFG,
      R.TDC_CTRL, R.TDC_EPOCH_CFG, R.TDC_TEST_CFG, R.TDC_CNT_CLR, R.TDC_SNOOP_CFG, R.TIL_GROUP_CTRL, R.EMI_CTRL, R.EMI_STATUS,
      R.EMI_SLOT_CFG, R.EMI_FIRE_CFG, R.EMI_PWR_CFG, R.EMI_SIG_CFG, R.EMI_LB_CFG, R.EMI_ROW_SHORT, R.EMI_ROW_OPEN, R.EMI_COL_FAULT,
      R.HLM_CTRL, R.HLM_STATUS, R.HLM_SPEED_REF, R.HDG_CTRL, R.MER_CTRL, R.MER_CAP_CTRL, R.SXT_CTRL, R.ADC_CTRL, R.ADC_URGENT,
      R.ADC_FLAP_STATUS].contains a
    || [R.CAL_STATUS, R.CAL_CTRL, R.CAL_JRN_CTRL, R.CAL_LEG_CTRL, R.CAL_FUSE_CTRL, R.THM_STATUS, R.THM_SNS_CTRL, R.THM_RETIRED,
      R.THM_DERATE_CFG, R.MEM_CTRL, R.MEM_STATUS, R.MEM_PB_BASE_LO, R.MEM_PB_BASE_HI, R.MEM_PB_SIZE, R.MEM_MR_CMD, R.MEM_TRN_CTRL,
      R.LNK_CTRL, R.LNK_CFG, R.LNK_PCIE_CFG, R.LNK_PTP_CTRL, R.LNK_PTP_RATE, R.LNK_PTP_STEP, R.LNK_MBOX_OWNER, R.BOOT_HDL_CTRL,
      R.OBS_CTRL, R.OBS_TRC_CFG, R.OBS_TRC_RPTR, R.OBS_TRC_BASE_LO, R.OBS_TRC_BASE_HI, R.OBS_TRC_SIZE].contains a
    || decide ((0x10000 ≤ a ∧ a < R.EVT_ACTIVE 0) ∨ (0x101000 ≤ a ∧ a < 0x102200)
      ∨ (0x400000 ≤ a ∧ a < 0x4C0000 ∧ (a % 4096 = 0 ∨ a % 4096 = 8 ∨ a % 4096 = 12)) ∨ (R.EMI_PCODE 0 ≤ a ∧ a ≤ R.EMI_PCODE 7)
      ∨ (0x900400 ≤ a ∧ a < 0x900480) ∨ (R.MEM_PORT_STATUS 0 ≤ a ∧ a ≤ R.MEM_PORT_STATUS 7) ∨ (0xC00020 ≤ a ∧ a < 0xC00040)
      ∨ a = R.LNK_ETH_CTRL 0 ∨ a = R.LNK_ETH_CTRL 1 ∨ (0xC08000 ≤ a ∧ a < 0xC08200) ∨ (0xE01000 ≤ a ∧ a < 0xE02000))

/-- Settings that the machine samples at a boundary while point cycles run: a write then only stores. -/
abbrev sampledWrite (a : Nat) : Bool :=
  [R.DET_QUENCH_CFG, R.DET_COINC_CFG, R.TDC_EPOCH_CFG, R.EMI_SLOT_CFG, R.EMI_FIRE_CFG, R.EMI_PWR_CFG].contains a

/-- The write of `w` to the register `r` at `a` has placed its fields by their access codes (R9), and nothing else has changed. -/
abbrev placed (r : RegSpec) (a : Nat) (w : Word) (s t : State) : Prop :=
  t = { s.accessed.setReg a (t.reg a) with raises := t.raises }
  ∧ ∀ f ∈ r.fields, Word.field (t.reg a) f.hi f.lo = match f.acc with
    | .rw | .rws => Word.field w f.hi f.lo
    | .rwl => if s.on F.HDG_STATUS_SEAL_LOCK = true then Word.field (s.reg a) f.hi f.lo else Word.field w f.hi f.lo
    | .w1c => Word.field (s.reg a &&& ~~~w) f.hi f.lo
    | .ro | .rc | .wo => Word.field (s.reg a) f.hi f.lo

end Sys2Proof.Machine
end

