-- ==== Sys2Proof/Certificates/Slice0/Obligations.lean ====
section
/-! DEFINITION. The statements about the model. `answers c s P`: the command c answers a next state from s, and P holds of it.
The other words of the statements are those of Safety.lean, Machine/Changes.lean and Machine/Claims.lean. -/

section
open Sys2Proof Sys2Proof.Machine

/-- A step runs the command at the front of the queue. For every command c and state s whose queue starts with c, a step of s is
exec of c on s with the queue's rest (first in, first out; log entry 1). -/
def Obligations.StepRunsFrontCommand : Prop :=
  ∀ (c : Instr) (rest : List Instr) (s : State), s.pending = c :: rest → step s = exec c { s with pending := rest }

/-- On an empty queue the block idles. A step on an empty queue completes a sextant shutdown that runs (the instant at which it ends
is the spec's "at once") and changes nothing else (DESIGN CHOICE, log entry 1). -/
def Obligations.EmptyQueueIdles : Prop :=
  ∀ s : State, s.pending = [] → step s = .next s.sxtClosed

/-- The reset state is in canonical form. State.reset's register map and byte memories are in their canonical form (log entries 10
and 11). -/
def Obligations.ResetIsCanonical : Prop :=
  State.reset.canonical

/-- Every step keeps the canonical form. From every state in canonical form (register map and byte memories rising, no entry equal
to what an unlisted address reads as), whatever the command in front, a step answers a state in canonical form. -/
def Obligations.StepKeepsCanonicalForm : Prop :=
  ∀ s t : State, s.canonical → step s = .next t → t.canonical

/-- The frame of every command. Whatever state a command answers, only the parts of the state and the register bits of its own lists
(Machine/Changes.lean) differ from the state before, and the queue is the same. -/
def Obligations.CommandsChangeOnlyTheirBounds : Prop :=
  ∀ (c : Instr) (s t : State), exec c s = .next t → withinBounds c s t

/-- No command stops the machine. Every command answers a next state from every state, whatever its operands: what the spec rejects
it rejects with an event or without effect, never with a stop. -/
def Obligations.EveryCommandAnswers : Prop :=
  ∀ (c : Instr) (s : State), ∃ t, exec c s = .next t ∧ t.pending = s.pending

/-- What takes the device through RESET, and what it records. RESET_N_LOW and CORE_RESET take any state through a cold RESET, RESET
itself included: cause 1, the output pads that no boundary instruction drives in the state of Table EL-12 (emitter, PWM, excitation
and TDO high-impedance, VHV_SET 0 V, LI_N low), the TRIP record, the seal lock and the host's hedge limits at their reset values.
TEST_EN_HIGH does so with cause 1 outside RESET, is remembered in every mode, and holds the hedge in IDLE. MANAGEMENT_PLL_LOCK_LOSS
resets with cause 5. A third reading at TRIP in a row records the sensor and its temperature and resets with cause 4.
LOCKSTEP_MISMATCH resets with cause 6, and the start watchdog with cause 7; while the start sequence runs both are failed starts,
counted, and the third within ten minutes enters RECOVERY with cause 5, or stays in SAFE-STOP. In RESET, and where the condition of
the command does not hold, nothing changes but what is said. Commands shown to complete here: resetNLow, coreReset, testEnHigh,
managementPllLockLoss, thermalTrip, lockstepMismatch, startWatchdog. -/
def Obligations.ResetCommandsReset : Prop :=
  (∀ (s : State), 
      (answers .resetNLow s fun t =>
        t.pads.emCol = none ∧ t.pads.emRow = none ∧ t.pads.emDac = none ∧ t.pads.emFire = none ∧ t.pads.pwm = none ∧ t.pads.vhvSet = 0 ∧ t.pads.li = false ∧ t.pads.exc = none ∧ t.pads.tdo = none ∧ t.pads.eth = []) ∧
      (answers .coreReset s fun t =>
        t.pads.emCol = none ∧ t.pads.emRow = none ∧ t.pads.emDac = none ∧ t.pads.emFire = none ∧ t.pads.pwm = none ∧ t.pads.vhvSet = 0 ∧ t.pads.li = false ∧ t.pads.exc = none ∧ t.pads.tdo = none ∧ t.pads.eth = [])) ∧
  (∀ (s : State), 
      (answers .resetNLow s fun t =>
        wasReset true s t ∧
        t.rd F.BOOT_LAST_RESET_CAUSE = 1 ∧ t.rd F.BOOT_LAST_RESET_FAIL_STEP = 0 ∧
        t.sys.pinLow = true ∧ t.on F.SYS_MODE_WARM = false ∧ t.boot.warmStart = false ∧
        t.reg R.THM_TRIP_REC = 0 ∧ t.on F.HDG_STATUS_SEAL_LOCK = false ∧
        t.reg R.HDG_HOST_SPEED = resetWord R.HDG_HOST_SPEED ∧ t.reg R.HDG_HOST_BUDGET = resetWord R.HDG_HOST_BUDGET) ∧
      (answers .coreReset s fun t =>
        wasReset true s t ∧
        t.rd F.BOOT_LAST_RESET_CAUSE = 1 ∧ t.rd F.BOOT_LAST_RESET_FAIL_STEP = 0 ∧
        t.sys.pinLow = true ∧ t.on F.SYS_MODE_WARM = false ∧ t.boot.warmStart = false ∧
        t.reg R.THM_TRIP_REC = 0 ∧ t.on F.HDG_STATUS_SEAL_LOCK = false ∧
        t.reg R.HDG_HOST_SPEED = resetWord R.HDG_HOST_SPEED ∧ t.reg R.HDG_HOST_BUDGET = resetWord R.HDG_HOST_BUDGET)) ∧
  (∀ (s : State), s.mode ≠ mRESET → 
      (answers .testEnHigh s fun t =>
        wasReset true s t ∧
        t.rd F.BOOT_LAST_RESET_CAUSE = 1 ∧ t.sys.testEn = true ∧
        (t.gst = gIDLE ∧ t.hdg.good = 0 ∧ (s.hdg.liBad = false → t.on F.HDG_STATUS_LI_LEVEL = false))) ∧
      (answers .managementPllLockLoss s fun t =>
        wasReset true s t ∧
        t.rd F.BOOT_LAST_RESET_CAUSE = 5 ∧ t.rd F.BOOT_LAST_RESET_FAIL_STEP = 0)) ∧
  (∀ (s : State), s.mode = mRESET → 
      (answers .testEnHigh s fun t =>
        t.mode = mRESET ∧ t.sys = { s.sys with testEn := true } ∧ t.reg R.BOOT_LAST_RESET = s.reg R.BOOT_LAST_RESET ∧
        t.gst = gIDLE ∧ t.hdg.good = 0) ∧
      (answers .managementPllLockLoss s fun t =>
        t = s)) ∧
  (∀ (s : State) (k : Fin 24), s.mode ≠ mRESET → (3 ≤ Tab.get (fun _ => 0) s.thm.tripRun k) → 
      answers (.thermalTrip k) s fun t =>
        wasReset true s t ∧
        t.rd F.BOOT_LAST_RESET_CAUSE = 4 ∧ t.rd F.BOOT_LAST_RESET_FAIL_STEP = 0 ∧
        (t.on F.THM_TRIP_REC_VALID = true ∧ t.rd F.THM_TRIP_REC_SENSOR = k.val ∧ t.rd F.THM_TRIP_REC_TEMP = (Tab.get (fun _ => 0) s.thm.last k % 2 ^ 16).toNat ∧ t.thm.tripHold = true)) ∧
  (∀ (s : State) (k : Fin 24), s.mode = mRESET → (3 ≤ Tab.get (fun _ => 0) s.thm.tripRun k) → 
      answers (.thermalTrip k) s fun t =>
        (t.on F.THM_TRIP_REC_VALID = true ∧ t.rd F.THM_TRIP_REC_SENSOR = k.val ∧ t.rd F.THM_TRIP_REC_TEMP = (Tab.get (fun _ => 0) s.thm.last k % 2 ^ 16).toNat ∧ t.thm.tripHold = true) ∧
        t.mode = mRESET ∧ t.rd F.BOOT_LAST_RESET_CAUSE = 4 ∧ t.boot.warmStart = false ∧ t.mem.retained = false ∧ t.raises = []) ∧
  (∀ (s : State) (k : Fin 24), (Tab.get (fun _ => 0) s.thm.tripRun k < 3) → 
      answers (.thermalTrip k) s fun t =>
        t = s) ∧
  (∀ (s : State) (u : Nat), s.mode ≠ mRESET → s.boot.starting = false → 
      answers (.lockstepMismatch u) s fun t =>
        wasReset true s t ∧
        t.rd F.BOOT_LAST_RESET_CAUSE = 6 ∧ t.rd F.BOOT_LAST_RESET_FAIL_STEP = 0) ∧
  (∀ (s : State) (u : Nat), s.mode ≠ mRESET → s.boot.starting = true → 
      (answers (.lockstepMismatch u) s fun t =>
        (t.boot.fails = (s.boot.fails.filter fun v => decide (u < v + 600 * 10 ^ 12)) ++ [u] ∧ t.rd F.BOOT_FAIL_COUNT = min 3 ((s.boot.fails.filter fun v => decide (u < v + 600 * 10 ^ 12)).length + 1)) ∧
        ((s.boot.fails.filter fun v => decide (u < v + 600 * 10 ^ 12)).length < 2 → t.mode = mRESET ∧ t.rd F.BOOT_LAST_RESET_CAUSE = 6 ∧ t.rd F.BOOT_LAST_RESET_FAIL_STEP = 0 ∧ t.boot.starting = false) ∧
        (2 ≤ (s.boot.fails.filter fun v => decide (u < v + 600 * 10 ^ 12)).length → t.boot.starting = false ∧ if s.mode = mSAFESTOP then t.mode = mSAFESTOP else t.mode = mRECOVERY ∧ t.rd F.SYS_MODE_CAUSE = 5)) ∧
      (answers (.startWatchdog u) s fun t =>
        (t.boot.fails = (s.boot.fails.filter fun v => decide (u < v + 600 * 10 ^ 12)) ++ [u] ∧ t.rd F.BOOT_FAIL_COUNT = min 3 ((s.boot.fails.filter fun v => decide (u < v + 600 * 10 ^ 12)).length + 1)) ∧
        ((s.boot.fails.filter fun v => decide (u < v + 600 * 10 ^ 12)).length < 2 → t.mode = mRESET ∧ t.rd F.BOOT_LAST_RESET_CAUSE = 7 ∧ t.rd F.BOOT_LAST_RESET_FAIL_STEP = 0 ∧ t.boot.starting = false) ∧
        (2 ≤ (s.boot.fails.filter fun v => decide (u < v + 600 * 10 ^ 12)).length → t.boot.starting = false ∧ if s.mode = mSAFESTOP then t.mode = mSAFESTOP else t.mode = mRECOVERY ∧ t.rd F.SYS_MODE_CAUSE = 5))) ∧
  (∀ (s : State) (u : Nat), s.mode = mRESET → 
      answers (.lockstepMismatch u) s fun t =>
        t = s) ∧
  (∀ (s : State) (u : Nat), s.boot.starting = false → 
      answers (.startWatchdog u) s fun t =>
        t = s)

/-- What ends a thermal TRIP, and what ages failed starts. THERMAL_TRIP_RELEASE lets go of RESET, the runs of readings at TRIP
cleared, when every sensor compared reads below CRITICAL less the hysteresis, and changes nothing otherwise. FAIL_COUNT_EXPIRY drops
failed starts older than ten minutes, shows the rest in BOOT_FAIL.COUNT and IMAGE_VALID by them, and changes nothing else. Commands
shown to complete here: thermalTripRelease, failCountExpiry. -/
def Obligations.ThermalAndFailRecordsClear : Prop :=
  (∀ (s : State), (∀ k : Fin 24, s.compared k = true → Tab.get (fun _ => 0) s.thm.last k < 10 * (s.rd F.THM_THR_CRITICAL : Int) - 10 * s.rd F.THM_HYST_HYST) → 
      answers .thermalTripRelease s fun t =>
        t = { s with thm := { s.thm with tripHold := false, tripRun := [] } }) ∧
  (∀ (s : State), (¬ (∀ k : Fin 24, s.compared k = true → Tab.get (fun _ => 0) s.thm.last k < 10 * (s.rd F.THM_THR_CRITICAL : Int) - 10 * s.rd F.THM_HYST_HYST)) → 
      answers .thermalTripRelease s fun t =>
        t = s) ∧
  (∀ (s : State) (u : Nat), 
      answers (.failCountExpiry u) s fun t =>
        (t.boot = { s.boot with fails := (s.boot.fails.filter fun v => decide (u < v + 600 * 10 ^ 12)) } ∧ t.rd F.BOOT_FAIL_COUNT = min 3 (s.boot.fails.filter fun v => decide (u < v + 600 * 10 ^ 12)).length) ∧
        t.on F.BOOT_STATUS_IMAGE_VALID = (decide (3 ≤ s.rd F.BOOT_STATUS_STEP) && decide (t.rd F.BOOT_FAIL_COUNT < 3)) ∧
        t = { s with boot := t.boot, regs := t.regs } ∧ t.mode = s.mode)

/-- Clock losses, relocks and the change of the reference. Outside a relock, RESET and RECOVERY, a main PLL that loses its lock
raises SYS_CLK_FAULT and trips the hedge with cause CLOCK, in RECOVERY only the lock bit clears. A tiller PLL that does raises
SYS_CLK_FAULT, halts every tiller with HALT_CAUSE 6, gives up the transfer of a block and begins an orderly stop with cause 0x11 in
the modes that have one. The relocks set their bit. A change of REF_SEL is accepted in STANDBY alone: the locks, the cross-check and
the DRAM clock go, and the relock's end brings them back, the cross-check suspended for two speed frames; a PLL that fails to relock
is lost as above. A reserved REF_SEL, and a change in another mode, is rejected; the same REF_SEL changes nothing. During a relock,
in RESET, and for a lock already lost, a loss changes nothing. When the DRAM clock runs again after a main PLL failed to relock is
the model's choice (log entry 177). Commands shown to complete here: mainPllLockLoss, tillerPllLockLoss, tillerPllRelock,
mainPllRelock, refSelChange, pllRelockComplete, relockTimeout. -/
def Obligations.ClockCommandsRun : Prop :=
  (∀ (s : State), s.sys.relock = false → s.mode ≠ mRESET → s.mode ≠ mRECOVERY → s.on F.SYS_CLK_STATUS_MAIN_LOCK = true → 
      answers .mainPllLockLoss s fun t =>
        t.on F.SYS_CLK_STATUS_MAIN_LOCK = false ∧ 2 ∈ t.raised ∧
        (s.latched = false → trippedBy 8 s t) ∧
        (s.latched = true → t.mode = s.mode ∧ t.on F.HDG_STATUS_LATCH = true ∧ t.rd F.HDG_TRIP_CAUSE_FIRST = s.rd F.HDG_TRIP_CAUSE_FIRST ∧ (t.rd F.HDG_TRIP_CAUSE_CAUSE).testBit 8 = true)) ∧
  (∀ (s : State), s.sys.relock = false → s.mode ≠ mRESET → s.mode = mRECOVERY → 
      answers .mainPllLockLoss s fun t =>
        s.on F.SYS_CLK_STATUS_MAIN_LOCK = true → t.on F.SYS_CLK_STATUS_MAIN_LOCK = false ∧ t.mode = s.mode ∧ t.raised = s.raised ∧ t.on F.HDG_STATUS_LATCH = s.on F.HDG_STATUS_LATCH) ∧
  (∀ (s : State), s.sys.relock = false → s.mode ≠ mRESET → s.on F.SYS_CLK_STATUS_TIL_LOCK = true → 
      answers .tillerPllLockLoss s fun t =>
        t.on F.SYS_CLK_STATUS_TIL_LOCK = false ∧ 2 ∈ t.raised ∧ t.oq = { s.oq with transfer := none } ∧
        (∀ k : Fin 192, (t.tiller k).state = .halted ∧ (if (s.tiller k).state = .halted then t.tiller k = s.tiller k else (t.tiller k).haltCause = 6 ∧ (t.tiller k).stall = none ∧ (t.tiller k).haltReq = false ∧ ((s.tiller k).state ≠ .init → (t.tiller k).dmem = (s.tiller k).dmem ∧ (t.tiller k).imem = (s.tiller k).imem))) ∧
        (if (s.mode = mSPINUP ∨ s.mode = mSCAN ∨ s.mode = mCALIBRATE ∨ s.mode = mDERATED) ∧ s.on F.SYS_MODE_STOPPING = false then t.on F.SYS_MODE_STOPPING = true ∧ t.sys.stopCause = 0x11 ∧ t.his.last = true ∧ t.his.due = false ∧ t.mode = s.mode else t.on F.SYS_MODE_STOPPING = s.on F.SYS_MODE_STOPPING ∧ t.sys.stopCause = (if (s.on F.SYS_MODE_STOPPING = true ∧ s.sys.stopCause = 0x01) then 0x11 else s.sys.stopCause) ∧ t.his = s.his ∧ t.mode = s.mode) ∧
        (((s.mode = mSPINUP ∨ s.mode = mSCAN ∨ s.mode = mCALIBRATE ∨ s.mode = mDERATED) ∧ s.on F.SYS_MODE_STOPPING = false) ∨ (s.on F.SYS_MODE_STOPPING = true ∧ s.sys.stopCause = 0x01) → (∀ c, s.sys.cmd = some c → c.group = 1 → t.sys.cmd = none ∧ t.rd F.SYS_MBOX_RESP_STATUS = 6))) ∧
  (∀ (s : State), s.sys.relock = true ∨ s.mode = mRESET → 
      (answers .mainPllLockLoss s fun t =>
        t = s) ∧
      (answers .tillerPllLockLoss s fun t =>
        t = s) ∧
      (answers .tillerPllRelock s fun t =>
        t = s) ∧
      (answers .mainPllRelock s fun t =>
        t = s)) ∧
  (∀ (s : State), s.on F.SYS_CLK_STATUS_MAIN_LOCK = false → 
      answers .mainPllLockLoss s fun t =>
        t = s) ∧
  (∀ (s : State), s.on F.SYS_CLK_STATUS_TIL_LOCK = false → 
      answers .tillerPllLockLoss s fun t =>
        t = s) ∧
  (∀ (s : State), s.sys.relock = false → s.mode ≠ mRESET → 
      (answers .tillerPllRelock s fun t =>
        t = s.wr F.SYS_CLK_STATUS_TIL_LOCK 1) ∧
      (answers .mainPllRelock s fun t =>
        (t.on F.SYS_CLK_STATUS_MAIN_LOCK = true ∧ (s.boot.memJobs = [] → t.mode = s.mode) ∧ t.sys.dramStopped = false ∧ t.sys.relockSR = false) ∧
        t.on F.SYS_CLK_STATUS_TIL_LOCK = s.on F.SYS_CLK_STATUS_TIL_LOCK ∧ (t.rd F.HDG_PRESENT_CAUSE).testBit 8 = false)) ∧
  (∀ (s : State) (sel : Fin 4) (present : Bool), s.mode = mSTANDBY → sel.val ≠ 3 ∧ sel.val ≠ s.rd F.SYS_CLK_CFG_REF_SEL → 
      answers (.refSelChange sel present) s fun t =>
        t.rd F.SYS_CLK_CFG_REF_SEL = sel.val ∧ t.on F.SYS_CLK_STATUS_MAIN_LOCK = false ∧ t.on F.SYS_CLK_STATUS_TIL_LOCK = false ∧ t.on F.SYS_CLK_STATUS_MGMT_LOCK = false ∧
        t.on F.SYS_CLK_STATUS_HDG_XCHK_OK = false ∧ t.on F.SYS_CLK_STATUS_REF_PRESENT = present ∧
        t.sys.relock = true ∧ t.sys.dramStopped = true ∧ t.mode = mSTANDBY ∧ t.on F.HDG_STATUS_LATCH = s.on F.HDG_STATUS_LATCH ∧
        (s.memState = 2 ∨ s.memState = 3 → t.memState = 4 ∧ t.sys.relockSR = true) ∧
        (s.memState ≠ 2 ∧ s.memState ≠ 3 → t.memState = s.memState ∧ t.sys.relockSR = s.sys.relockSR)) ∧
  (∀ (s : State) (sel : Fin 4) (present : Bool), s.mode ≠ mRESET → sel.val = 3 ∨ (sel.val ≠ s.rd F.SYS_CLK_CFG_REF_SEL ∧ s.mode ≠ mSTANDBY) → 
      answers (.refSelChange sel present) s fun t =>
        rejected s t) ∧
  (∀ (s : State) (sel : Fin 4) (present : Bool), s.mode ≠ mRESET → sel.val ≠ 3 ∧ sel.val = s.rd F.SYS_CLK_CFG_REF_SEL → 
      answers (.refSelChange sel present) s fun t =>
        t = s.accessed) ∧
  (∀ (s : State) (sel : Fin 4) (present : Bool), s.mode = mRESET → 
      answers (.refSelChange sel present) s fun t =>
        t = s) ∧
  (∀ (s : State), s.sys.relock = true → 
      answers .pllRelockComplete s fun t =>
        t.on F.SYS_CLK_STATUS_MAIN_LOCK = true ∧ t.on F.SYS_CLK_STATUS_TIL_LOCK = true ∧ t.on F.SYS_CLK_STATUS_MGMT_LOCK = true ∧
        (t.sys.relock = false ∧ t.hdg.suspended = 2 ∧ t.sys.dramStopped = false ∧ t.sys.relockSR = false ∧ (s.boot.memJobs = [] → t.mode = s.mode)) ∧
        (s.sys.relockSR = true ∧ s.memState = 4 → t.memState = 5)) ∧
  (∀ (s : State) (main tiller : Bool), s.sys.relock = true → s.mode = mSTANDBY → main = true ∨ tiller = true → 
      answers (.relockTimeout main tiller) s fun t =>
        t.on F.SYS_CLK_STATUS_MAIN_LOCK = !main ∧ t.on F.SYS_CLK_STATUS_TIL_LOCK = !tiller ∧ t.on F.SYS_CLK_STATUS_MGMT_LOCK = true ∧
        t.sys.relock = false ∧ t.hdg.suspended = 2 ∧
        2 ∈ t.raised ∧
        (main = false → t.sys.dramStopped = false ∧ t.sys.relockSR = false ∧ t.mode = mSTANDBY ∧ t.on F.HDG_STATUS_LATCH = s.on F.HDG_STATUS_LATCH) ∧
        (main = true ∧ s.latched = false → trippedBy 8 s t) ∧
        (main = true → t.sys.dramStopped = s.sys.dramStopped) ∧
        (tiller = true → ∀ k : Fin 192, (t.tiller k).state = .halted)) ∧
  (∀ (s : State) (main tiller : Bool), s.sys.relock = false ∨ (main = false ∧ tiller = false) → 
      answers (.relockTimeout main tiller) s fun t =>
        t = s) ∧
  (∀ (s : State), s.sys.relock = false → 
      answers .pllRelockComplete s fun t =>
        t = s)

/-- Power fail, orderly stops and the end of spin-up. PF_N low is recorded and cuts a fuse burn; high again, it starts the journal
and settings saves that waited, and changes nothing else; low for 10 µs it raises SYS_PF and begins an orderly stop with cause 0x0A
in the modes that have one, or takes over the one that a host command began, which is answered ABORTED. An orderly stop whose last
cycle has ended enters STANDBY with the stop's cause, DRAM going to self-refresh where the command asked for it, and carries out a
latched MODE_SCAN: SPIN-UP, or REFUSED_FORCED. The spin timeout returns from SPIN-UP to STANDBY with cause 0x0C and answers TIMEOUT.
With the spindle locked and LI_N released SPIN-UP enters SCAN, and DERATED at once where a derate source is present. Where a
command's condition does not hold, nothing changes. Commands shown to complete here: pfNFall, pfNRise, sysPf, orderlyStopComplete,
spinTimeout, spinUpLockAchieved. -/
def Obligations.PowerFailAndStopsRun : Prop :=
  (∀ (s : State), 
      answers .pfNFall s fun t =>
        t = { s with sys := { s.sys with pfLow := true }, cal := { s.cal with burnCut := s.cal.burn.isSome } }) ∧
  (∀ (s : State), s.on F.CAL_JRN_STATUS_PENDING = false ∧ s.boot.saveDue = false → 
      answers .pfNRise s fun t =>
        t = { s with sys := { s.sys with pfLow := false } }) ∧
  (∀ (s : State), s.on F.CAL_JRN_STATUS_PENDING = true ∨ s.boot.saveDue = true → 
      answers .pfNRise s fun t =>
        t.sys = { s.sys with pfLow := false } ∧ t.mode = s.mode ∧
        (s.on F.CAL_JRN_STATUS_PENDING = true → t.on F.CAL_JRN_STATUS_PENDING = false ∧ t.on F.CAL_STATUS_JRN_BUSY = true) ∧
        (s.on F.CAL_JRN_STATUS_PENDING = false → t.on F.CAL_STATUS_JRN_BUSY = s.on F.CAL_STATUS_JRN_BUSY) ∧
        (if s.boot.saveDue = true then t.boot.saving.isSome = true ∧ (s.boot.saving = none → t.boot.saveDue = false) else t.boot.saving = s.boot.saving)) ∧
  (∀ (s : State), s.sys.pfLow = true ∧ s.mode ≠ mRESET → 
      answers .sysPf s fun t =>
        4 ∈ t.raised ∧
        (if (s.mode = mSPINUP ∨ s.mode = mSCAN ∨ s.mode = mCALIBRATE ∨ s.mode = mDERATED) ∧ s.on F.SYS_MODE_STOPPING = false then t.on F.SYS_MODE_STOPPING = true ∧ t.sys.stopCause = 0x0A ∧ t.his.last = true ∧ t.his.due = false ∧ t.mode = s.mode else t.on F.SYS_MODE_STOPPING = s.on F.SYS_MODE_STOPPING ∧ t.sys.stopCause = (if (s.on F.SYS_MODE_STOPPING = true ∧ s.sys.stopCause = 0x01) then 0x0A else s.sys.stopCause) ∧ t.his = s.his ∧ t.mode = s.mode) ∧
        (((s.mode = mSPINUP ∨ s.mode = mSCAN ∨ s.mode = mCALIBRATE ∨ s.mode = mDERATED) ∧ s.on F.SYS_MODE_STOPPING = false) ∨ (s.on F.SYS_MODE_STOPPING = true ∧ s.sys.stopCause = 0x01) → (∀ c, s.sys.cmd = some c → c.group = 1 → t.sys.cmd = none ∧ t.rd F.SYS_MBOX_RESP_STATUS = 6))) ∧
  (∀ (s : State), s.sys.pfLow = false ∨ s.mode = mRESET → 
      answers .sysPf s fun t =>
        t = s) ∧
  (∀ (s : State), s.on F.SYS_MODE_STOPPING = true ∧ s.running = false ∧ s.mode ≠ mRESET → s.sys.pendScan = none → 
      answers .orderlyStopComplete s fun t =>
        t.mode = mSTANDBY ∧ t.rd F.SYS_MODE_PREV_MODE = s.mode ∧ t.rd F.SYS_MODE_CAUSE = s.sys.stopCause % 32 ∧
        t.on F.SYS_MODE_STOPPING = false ∧ t.sys.stopSR = false ∧ 0 ∈ t.raised ∧
        (s.sys.stopSR = true → t.on F.MEM_CTRL_SR = true ∧ (s.memState = 2 ∧ t.memBlocked = true → t.memState = 3))) ∧
  (∀ (s : State) (tag : Nat), s.on F.SYS_MODE_STOPPING = true ∧ s.running = false ∧ s.mode ≠ mRESET → s.sys.pendScan = some tag ∧ tag < 256 → s.forcedCause = 0 → 
      answers .orderlyStopComplete s fun t =>
        t.mode = mSPINUP ∧ t.rd F.SYS_MODE_PREV_MODE = mSTANDBY ∧ t.rd F.SYS_MODE_CAUSE = 1 ∧ t.on F.SYS_MODE_STOPPING = false ∧
        t.rd F.SYS_MBOX_RESP_STATUS = 1 ∧ t.sys.scanTag = some tag ∧ t.sys.pendScan = none ∧ t.on F.SYS_PEND_STATUS_MODE_SCAN = false) ∧
  (∀ (s : State) (tag : Nat), s.on F.SYS_MODE_STOPPING = true ∧ s.running = false ∧ s.mode ≠ mRESET → s.sys.pendScan = some tag ∧ tag < 256 → s.forcedCause ≠ 0 → 
      answers .orderlyStopComplete s fun t =>
        t.mode = mSTANDBY ∧ t.rd F.SYS_MODE_CAUSE = s.sys.stopCause % 32 ∧ t.on F.SYS_MODE_STOPPING = false ∧
        responded tag 4 s.forcedCause t ∧ t.sys.pendScan = none ∧ t.on F.SYS_PEND_STATUS_MODE_SCAN = false) ∧
  (∀ (s : State), s.on F.SYS_MODE_STOPPING = false ∨ s.running = true ∨ s.mode = mRESET → 
      answers .orderlyStopComplete s fun t =>
        t = s) ∧
  (∀ (s : State), s.mode = mSPINUP → s.on F.SYS_MODE_STOPPING = false → 
      answers .spinTimeout s fun t =>
        t.mode = mSTANDBY ∧ t.rd F.SYS_MODE_PREV_MODE = mSPINUP ∧ t.rd F.SYS_MODE_CAUSE = 0x0C ∧ 5 ∈ t.raised ∧
        (∀ tag, s.sys.scanTag = some tag → t.sys.scanTag = none ∧ t.rd F.SYS_MBOX_RESP_STATUS = 7) ∧
        (∀ c, s.sys.cmd = some c → c.group = 1 ∧ c.code = 2 → t.sys.cmd = none ∧ t.rd F.SYS_MBOX_RESP_STATUS = 7)) ∧
  (∀ (s : State), s.mode ≠ mSPINUP ∨ s.on F.SYS_MODE_STOPPING = true → 
      (answers .spinTimeout s fun t =>
        t = s) ∧
      (answers .spinUpLockAchieved s fun t =>
        t = s)) ∧
  (∀ (s : State), s.mode = mSPINUP → s.on F.SYS_MODE_STOPPING = false → s.sp = hLOCKED ∧ s.gst = gRELEASED → s.derated = false ∧ s.on F.CAL_STATUS_RERUN_PENDING = false → 
      answers .spinUpLockAchieved s fun t =>
        t.mode = mSCAN ∧ t.rd F.SYS_MODE_PREV_MODE = mSPINUP ∧ t.rd F.SYS_MODE_CAUSE = 0x0B ∧ 0 ∈ t.raised) ∧
  (∀ (s : State), s.mode = mSPINUP → s.on F.SYS_MODE_STOPPING = false → s.sp = hLOCKED ∧ s.gst = gRELEASED → s.on F.THM_STATUS_DERATE_SRC = true → 
      answers .spinUpLockAchieved s fun t =>
        t.mode = mDERATED ∧ t.rd F.SYS_MODE_PREV_MODE = mSCAN ∧ t.rd F.SYS_MODE_CAUSE = 0x07) ∧
  (∀ (s : State), s.mode = mSPINUP → s.on F.SYS_MODE_STOPPING = false → s.sp ≠ hLOCKED ∨ s.gst ≠ gRELEASED → 
      answers .spinUpLockAchieved s fun t =>
        t = s)

/-- Register s0 reads 0 and discards writes. A read of s0 returns 0 and a write to it changes nothing of the tiller, while every
other scalar register reads what was last written to it and no write of it changes another register. -/
def Obligations.ScalarZeroRegister : Prop :=
  (∀ (x : Tiller) (w : Word), x.s 0 = 0 ∧ x.setS 0 w = x) ∧
  (∀ (x : Tiller) (r q : Fin 32) (w : Word), r ≠ 0 → (x.setS r w).s q = if q = r then w else x.s q)

/-- The two-register ALU instructions. Every instruction of Table KI-5 that computes from ra and rb, once it issues, writes its
row's result to rd (a write to s0 is discarded), moves PC to the next word, changes no other register of the tiller, sets S exactly
when ADDS or SUBS clips and leaves Z, N, C and V; nothing outside the tiller changes but counts and events. Commands shown to
complete here: add, sub, and, or, xor, sll, srl, sra, slt, sltu, min, max, minu, maxu, mul, mulh, mulhu, divu, remu, adds, subs. -/
def Obligations.ScalarAluResults : Prop :=
  (∀ (s : State) (n : Fin 192) (rd ra rb : Fin 32), issues n s → 
      (answers (.add n rd ra rb) s fun t =>
        wroteS n rd ((s.sr n ra) + (s.sr n rb)) false s t) ∧
      (answers (.sub n rd ra rb) s fun t =>
        wroteS n rd ((s.sr n ra) - (s.sr n rb)) false s t) ∧
      (answers (.and n rd ra rb) s fun t =>
        wroteS n rd ((s.sr n ra) &&& (s.sr n rb)) false s t) ∧
      (answers (.or n rd ra rb) s fun t =>
        wroteS n rd ((s.sr n ra) ||| (s.sr n rb)) false s t) ∧
      (answers (.xor n rd ra rb) s fun t =>
        wroteS n rd ((s.sr n ra) ^^^ (s.sr n rb)) false s t) ∧
      (answers (.sll n rd ra rb) s fun t =>
        wroteS n rd ((s.sr n ra) <<< ((s.sr n rb).toNat % 32)) false s t) ∧
      (answers (.srl n rd ra rb) s fun t =>
        wroteS n rd ((s.sr n ra) >>> ((s.sr n rb).toNat % 32)) false s t) ∧
      (answers (.sra n rd ra rb) s fun t =>
        wroteS n rd ((s.sr n ra).sshiftRight ((s.sr n rb).toNat % 32)) false s t) ∧
      (answers (.slt n rd ra rb) s fun t =>
        wroteS n rd (if (s.sr n ra).slt (s.sr n rb) then 1 else 0) false s t) ∧
      (answers (.sltu n rd ra rb) s fun t =>
        wroteS n rd (if (s.sr n ra).ult (s.sr n rb) then 1 else 0) false s t) ∧
      (answers (.min n rd ra rb) s fun t =>
        wroteS n rd (if (s.sr n ra).slt (s.sr n rb) then (s.sr n ra) else (s.sr n rb)) false s t) ∧
      (answers (.max n rd ra rb) s fun t =>
        wroteS n rd (if (s.sr n ra).slt (s.sr n rb) then (s.sr n rb) else (s.sr n ra)) false s t) ∧
      (answers (.minu n rd ra rb) s fun t =>
        wroteS n rd (if (s.sr n ra).ult (s.sr n rb) then (s.sr n ra) else (s.sr n rb)) false s t) ∧
      (answers (.maxu n rd ra rb) s fun t =>
        wroteS n rd (if (s.sr n ra).ult (s.sr n rb) then (s.sr n rb) else (s.sr n ra)) false s t)) ∧
  (∀ (s : State) (n : Fin 192) (rd ra rb : Fin 32), issues n s → 
      (answers (.mul n rd ra rb) s fun t =>
        wroteS n rd ((s.sr n ra) * (s.sr n rb)) false s t) ∧
      (answers (.mulh n rd ra rb) s fun t =>
        wroteS n rd (((s.sr n ra).signExtend 64 * (s.sr n rb).signExtend 64).extractLsb' 32 32) false s t) ∧
      (answers (.mulhu n rd ra rb) s fun t =>
        wroteS n rd (((s.sr n ra).setWidth 64 * (s.sr n rb).setWidth 64).extractLsb' 32 32) false s t) ∧
      (answers (.divu n rd ra rb) s fun t =>
        wroteS n rd (if (s.sr n rb) = 0 then 0xFFFFFFFF else (s.sr n ra).udiv (s.sr n rb)) false s t) ∧
      (answers (.remu n rd ra rb) s fun t =>
        wroteS n rd (if (s.sr n rb) = 0 then (s.sr n ra) else (s.sr n ra).umod (s.sr n rb)) false s t) ∧
      (answers (.adds n rd ra rb) s fun t =>
        wroteS n rd (BitVec.ofInt 32 (sLimit 32 ((s.sr n ra).toInt + (s.sr n rb).toInt))) (decide (sLimit 32 ((s.sr n ra).toInt + (s.sr n rb).toInt) ≠ ((s.sr n ra).toInt + (s.sr n rb).toInt))) s t) ∧
      (answers (.subs n rd ra rb) s fun t =>
        wroteS n rd (BitVec.ofInt 32 (sLimit 32 ((s.sr n ra).toInt - (s.sr n rb).toInt))) (decide (sLimit 32 ((s.sr n ra).toInt - (s.sr n rb).toInt) ≠ ((s.sr n ra).toInt - (s.sr n rb).toInt))) s t))

/-- The immediate, shift, extract and counting instructions. ADDI, ANDI, ORI, XORI, LUI and SLTI compute with the immediate extended
as Table KI-4 says. SLLI, SRLI, SRAI and EXTU take counts, position and width from their fields. CLZ gives the number of zero bits
above the highest 1 bit and POPC the number of 1 bits. Each writes rd alone, moves to the next word and leaves every flag. Commands
shown to complete here: addi, andi, ori, xori, slti, lui, slli, srli, srai, extu, clz, popc. -/
def Obligations.ScalarImmediateResults : Prop :=
  (∀ (s : State) (n : Fin 192) (rd ra : Fin 32) (imm : BitVec 16), issues n s → 
      (answers (.addi n rd ra imm) s fun t =>
        wroteS n rd ((s.sr n ra) + imm.signExtend 32) false s t) ∧
      (answers (.andi n rd ra imm) s fun t =>
        wroteS n rd ((s.sr n ra) &&& imm.setWidth 32) false s t) ∧
      (answers (.ori n rd ra imm) s fun t =>
        wroteS n rd ((s.sr n ra) ||| imm.setWidth 32) false s t) ∧
      (answers (.xori n rd ra imm) s fun t =>
        wroteS n rd ((s.sr n ra) ^^^ imm.setWidth 32) false s t) ∧
      (answers (.slti n rd ra imm) s fun t =>
        wroteS n rd (if (s.sr n ra).slt (imm.signExtend 32) then 1 else 0) false s t) ∧
      (answers (.lui n rd imm) s fun t =>
        wroteS n rd (imm.setWidth 32 <<< 16) false s t)) ∧
  (∀ (s : State) (n : Fin 192) (rd ra k : Fin 32), issues n s → 
      (answers (.slli n rd ra k) s fun t =>
        wroteS n rd ((s.sr n ra) <<< k.val) false s t) ∧
      (answers (.srli n rd ra k) s fun t =>
        wroteS n rd ((s.sr n ra) >>> k.val) false s t) ∧
      (answers (.srai n rd ra k) s fun t =>
        wroteS n rd ((s.sr n ra).sshiftRight k) false s t)) ∧
  (∀ (s : State) (n : Fin 192) (rd ra pos width : Fin 32), issues n s → 
      answers (.extu n rd ra pos width) s fun t =>
        wroteS n rd (BitVec.ofNat 32 (((s.sr n ra) >>> pos.val).toNat % 2 ^ (width.val + 1))) false s t) ∧
  (∀ (s : State) (n : Fin 192) (rd ra : Fin 32), issues n s → 
      (answers (.clz n rd ra) s fun t =>
        ∃ k : Fin 33, wroteS n rd (BitVec.ofNat 32 k) false s t ∧ (∀ j : Fin 32, j.val < k.val → (s.sr n ra).getLsbD (31 - j) = false) ∧ (k.val < 32 → (s.sr n ra).getLsbD (31 - k) = true)) ∧
      (answers (.popc n rd ra) s fun t =>
        wroteS n rd (BitVec.ofNat 32 ((List.range 32).countP fun i => (s.sr n ra).getLsbD i)) false s t))

/-- Compares set Z, N, C and V, and RDFL and WRFL move FLAGS. CMP and CMPI set Z, N, C and V from the difference of their operands
as R144 says and TST from the AND; each writes no register and leaves S. RDFL writes FLAGS to rd, and WRFL writes FLAGS from
ra[4:0]. Commands shown to complete here: cmp, tst, cmpi, rdfl, wrfl. -/
def Obligations.ComparesSetFlags : Prop :=
  (∀ (s : State) (n : Fin 192) (ra rb : Fin 32), issues n s → 
      (answers (.cmp n ra rb) s fun t =>
        onlyTiller n s t ∧
        pastOne ((s.tiller n).pc + 4) (s.tiller n) (t.tiller n) ∧
        (t.tiller n).sreg = (s.tiller n).sreg ∧ (t.tiller n).vreg = (s.tiller n).vreg ∧
        setsZNCV ((s.sr n ra) == (s.sr n rb)) ((s.sr n ra) - (s.sr n rb)).msb ((s.sr n ra).ult (s.sr n rb)) ((s.sr n ra).ssubOverflow (s.sr n rb)) (s.tiller n) (t.tiller n)) ∧
      (answers (.tst n ra rb) s fun t =>
        onlyTiller n s t ∧
        pastOne ((s.tiller n).pc + 4) (s.tiller n) (t.tiller n) ∧
        (t.tiller n).sreg = (s.tiller n).sreg ∧ (t.tiller n).vreg = (s.tiller n).vreg ∧
        setsZNCV ((s.sr n ra) &&& (s.sr n rb) == 0) ((s.sr n ra) &&& (s.sr n rb)).msb false false (s.tiller n) (t.tiller n))) ∧
  (∀ (s : State) (n : Fin 192) (ra : Fin 32) (imm : BitVec 16), issues n s → 
      answers (.cmpi n ra imm) s fun t =>
        onlyTiller n s t ∧
        pastOne ((s.tiller n).pc + 4) (s.tiller n) (t.tiller n) ∧
        (t.tiller n).sreg = (s.tiller n).sreg ∧ (t.tiller n).vreg = (s.tiller n).vreg ∧
        setsZNCV ((s.sr n ra) == (imm.signExtend 32)) ((s.sr n ra) - (imm.signExtend 32)).msb ((s.sr n ra).ult (imm.signExtend 32)) ((s.sr n ra).ssubOverflow (imm.signExtend 32)) (s.tiller n) (t.tiller n)) ∧
  (∀ (s : State) (n : Fin 192) (ra : Fin 32), issues n s → 
      (answers (.rdfl n ra) s fun t =>
        wroteS n ra (BitVec.ofNat 32 (s.tiller n).flags) false s t) ∧
      (answers (.wrfl n ra) s fun t =>
        onlyTiller n s t ∧
        pastOne ((s.tiller n).pc + 4) (s.tiller n) (t.tiller n) ∧
        (t.tiller n).sreg = (s.tiller n).sreg ∧ (t.tiller n).vreg = (s.tiller n).vreg ∧
        (t.tiller n).flags = ((s.sr n ra).toNat % 32)))

/-- Branches and jumps, taken and not, and their traps. BC and JAL target PC + 4 × OFF of their own address, JALR the sum of ra,
read before rd is written, and its immediate. A taken transfer to an aligned target in IMEM moves PC there and JAL and JALR write PC
+ 4 to rd; a branch that its condition of Table KI-9 does not take moves to the next word. A target outside IMEM raises ACCESS and a
misaligned JALR target raises MISALIGN, with EPC at the branch, TRAP_ADDR at the target, and no register changed.  One command moves
PC: there is no delay slot. Commands shown to complete here: bc, jal, jalr. -/
def Obligations.BranchesAndJumps : Prop :=
  (∀ (s : State) (n : Fin 192) (cond : Fin 16) (off : BitVec 22), issues n s → branchTaken cond (s.tiller n).flags = true → (0 ≤ ((s.tiller n).pc + 4 * off.toInt) ∧ ((s.tiller n).pc + 4 * off.toInt) ≤ 0x7FFF) → ((s.tiller n).pc + 4 * off.toInt) % 4 = 0 → 
      answers (.bc n cond off) s fun t =>
        jumped n 0 0 ((s.tiller n).pc + 4 * off.toInt).toNat s t) ∧
  (∀ (s : State) (n : Fin 192) (cond : Fin 16) (off : BitVec 22), issues n s → branchTaken cond (s.tiller n).flags = false → (cond.val < 12 ∨ cond.val = 15) → 
      answers (.bc n cond off) s fun t =>
        jumped n 0 0 ((s.tiller n).pc + 4) s t) ∧
  (∀ (s : State) (n : Fin 192) (cond : Fin 16) (off : BitVec 22), issues n s → branchTaken cond (s.tiller n).flags = true → ¬ (0 ≤ ((s.tiller n).pc + 4 * off.toInt) ∧ ((s.tiller n).pc + 4 * off.toInt) ≤ 0x7FFF) → 
      answers (.bc n cond off) s fun t =>
        trapped n 5 (some (BitVec.ofInt 32 ((s.tiller n).pc + 4 * off.toInt)).toNat) s t) ∧
  (∀ (s : State) (n : Fin 192) (rd : Fin 32) (off : BitVec 21), issues n s → (0 ≤ ((s.tiller n).pc + 4 * off.toInt) ∧ ((s.tiller n).pc + 4 * off.toInt) ≤ 0x7FFF) → ((s.tiller n).pc + 4 * off.toInt) % 4 = 0 → 
      answers (.jal n rd off) s fun t =>
        jumped n rd (BitVec.ofNat 32 ((s.tiller n).pc + 4)) ((s.tiller n).pc + 4 * off.toInt).toNat s t) ∧
  (∀ (s : State) (n : Fin 192) (rd : Fin 32) (off : BitVec 21), issues n s → ¬ (0 ≤ ((s.tiller n).pc + 4 * off.toInt) ∧ ((s.tiller n).pc + 4 * off.toInt) ≤ 0x7FFF) → 
      answers (.jal n rd off) s fun t =>
        trapped n 5 (some (BitVec.ofInt 32 ((s.tiller n).pc + 4 * off.toInt)).toNat) s t) ∧
  (∀ (s : State) (n : Fin 192) (rd ra : Fin 32) (imm : BitVec 16), issues n s → (s.ea n ra imm) ≤ 0x7FFF → (s.ea n ra imm) % 4 = 0 → 
      answers (.jalr n rd ra imm) s fun t =>
        jumped n rd (BitVec.ofNat 32 ((s.tiller n).pc + 4)) (s.ea n ra imm) s t) ∧
  (∀ (s : State) (n : Fin 192) (rd ra : Fin 32) (imm : BitVec 16), issues n s → (s.ea n ra imm) ≤ 0x7FFF → (s.ea n ra imm) % 4 ≠ 0 → 
      answers (.jalr n rd ra imm) s fun t =>
        trapped n 4 (some (s.ea n ra imm)) s t) ∧
  (∀ (s : State) (n : Fin 192) (rd ra : Fin 32) (imm : BitVec 16), issues n s → 0x7FFF < (s.ea n ra imm) → 
      answers (.jalr n rd ra imm) s fun t =>
        trapped n 5 (some (s.ea n ra imm)) s t)

/-- LW: what it loads, and when it traps. LW at a 4-byte aligned address of DMEM or the furrow view writes the word there to rd and
moves on; a single-bit error is corrected and, in DMEM, counted. An uncorrectable or poisoned word reads 0, sets POISON_SEEN and
marks rd where it is a work-bank word with POISON_ZERO = 1, and raises DMEM_UE with POISON_ZERO = 0. From the local registers LW
reads what Table TA-2 says of each: the countdowns at most 5 cycles below the time left, which value is free, CYCLE_LO the low half
of the cycles since RESET, latching the high half. An address that Table TA-1 does not permit raises ACCESS and a misaligned one
MISALIGN, with TRAP_ADDR at the address. Commands shown to complete here: lw. -/
def Obligations.ScalarLoads : Prop :=
  (∀ (s : State) (n : Fin 192) (rd ra : Fin 32) (imm : BitVec 16) (t0 : Nat), issues n s → ((0x10000 ≤ (s.ea n ra imm) ∧ (s.ea n ra imm) < 0x20000) ∨ (0x20000 ≤ (s.ea n ra imm) ∧ (s.ea n ra imm) < 0x28000)) → (s.ea n ra imm) % 4 = 0 → (s.condAt n (s.ea n ra imm)) = .ok → 
      answers (.lw n rd ra imm t0) s fun t =>
        wroteS n rd (s.wordAt n (s.ea n ra imm)) false s t ∧
        (rd ≠ 0 → Tab.get (fun _ => false) (t.tiller n).badS rd = false)) ∧
  (∀ (s : State) (n : Fin 192) (rd ra : Fin 32) (imm : BitVec 16) (t0 : Nat), issues n s → ((0x10000 ≤ (s.ea n ra imm) ∧ (s.ea n ra imm) < 0x20000) ∨ (0x20000 ≤ (s.ea n ra imm) ∧ (s.ea n ra imm) < 0x28000)) → (s.ea n ra imm) % 4 = 0 → (s.condAt n (s.ea n ra imm)) = .ce → 
      answers (.lw n rd ra imm t0) s fun t =>
        loadedS n rd (s.wordAt n (s.ea n ra imm)) s t ∧
        (t.tiller n).poisonSeen = (s.tiller n).poisonSeen ∧
        ((s.ea n ra imm) < 0x20000 → t.rd (F.TIL_ECC_CE_CNT_COUNT n) = min (s.rd (F.TIL_ECC_CE_CNT_COUNT n) + 1) (2 ^ 32 - 1) ∧ t.condAt n (s.ea n ra imm) = .ok) ∧
        (0x20000 ≤ (s.ea n ra imm) → t.rd F.HIS_ECC_CE_CNT_COUNT = min (s.rd F.HIS_ECC_CE_CNT_COUNT + 1) (2 ^ 32 - 1) ∧ t.condAt n (s.ea n ra imm) = .ok)) ∧
  (∀ (s : State) (n : Fin 192) (rd ra : Fin 32) (imm : BitVec 16) (t0 : Nat), issues n s → ((0x10000 ≤ (s.ea n ra imm) ∧ (s.ea n ra imm) < 0x20000) ∨ (0x20000 ≤ (s.ea n ra imm) ∧ (s.ea n ra imm) < 0x28000)) → (s.ea n ra imm) % 4 = 0 → (s.condAt n (s.ea n ra imm)).bad = true → s.on (F.TIL_CFG_POISON_ZERO n) = true → 
      answers (.lw n rd ra imm t0) s fun t =>
        loadedS n rd 0 s t ∧
        (t.tiller n).poisonSeen = true ∧
        (rd ≠ 0 → Tab.get (fun _ => false) (t.tiller n).badS rd = decide (0x27000 ≤ (s.ea n ra imm) ∧ (s.ea n ra imm) < 0x27B00))) ∧
  (∀ (s : State) (n : Fin 192) (rd ra : Fin 32) (imm : BitVec 16) (t0 : Nat), issues n s → ((0x10000 ≤ (s.ea n ra imm) ∧ (s.ea n ra imm) < 0x20000) ∨ (0x20000 ≤ (s.ea n ra imm) ∧ (s.ea n ra imm) < 0x28000)) → (s.ea n ra imm) % 4 = 0 → (s.condAt n (s.ea n ra imm)).bad = true → s.on (F.TIL_CFG_POISON_ZERO n) = false → 
      answers (.lw n rd ra imm t0) s fun t =>
        trapped n 3 (some (s.ea n ra imm)) s t) ∧
  (∀ (s : State) (n : Fin 192) (rd ra : Fin 32) (imm : BitVec 16) (t0 : Nat), issues n s → (s.ea n ra imm) = 0x30004 → 
      answers (.lw n rd ra imm t0) s fun t =>
        wroteS n rd (match (s.tiller n).own with | some o => BitVec.ofNat 32 (2 ^ 31 + o.2) | none => 0) false s t) ∧
  (∀ (s : State) (n : Fin 192) (rd ra : Fin 32) (imm : BitVec 16) (t0 : Nat), issues n s → (s.ea n ra imm) = 0x30014 → 
      answers (.lw n rd ra imm t0) s fun t =>
        wroteS n rd (BitVec.ofNat 32 (s.tiller n).cycleHi) false s t) ∧
  (∀ (s : State) (n : Fin 192) (rd ra : Fin 32) (imm : BitVec 16) (t0 : Nat), issues n s → (s.ea n ra imm) = 0x30018 → 
      answers (.lw n rd ra imm t0) s fun t =>
        wroteS n rd (BitVec.ofNat 32 n) false s t) ∧
  (∀ (s : State) (n : Fin 192) (rd ra : Fin 32) (imm : BitVec 16) (t0 : Nat), issues n s → (s.ea n ra imm) = 0x3001C → 
      answers (.lw n rd ra imm t0) s fun t =>
        wroteS n rd (BitVec.ofNat 32 s.oqFree) false s t) ∧
  (∀ (s : State) (n : Fin 192) (rd ra : Fin 32) (imm : BitVec 16) (t0 : Nat), issues n s → (s.ea n ra imm) = 0x30020 → 
      answers (.lw n rd ra imm t0) s fun t =>
        wroteS n rd (BitVec.ofNat 32 (s.tiller n).trapCause) false s t) ∧
  (∀ (s : State) (n : Fin 192) (rd ra : Fin 32) (imm : BitVec 16) (t0 : Nat), issues n s → (s.ea n ra imm) = 0x30024 → 
      answers (.lw n rd ra imm t0) s fun t =>
        wroteS n rd (BitVec.ofNat 32 (s.tiller n).epc) false s t) ∧
  (∀ (s : State) (n : Fin 192) (rd ra : Fin 32) (imm : BitVec 16) (t0 : Nat), issues n s → (s.ea n ra imm) = 0x30028 → 
      answers (.lw n rd ra imm t0) s fun t =>
        wroteS n rd (BitVec.ofNat 32 (s.tiller n).trapAddr) false s t) ∧
  (∀ (s : State) (n : Fin 192) (rd ra : Fin 32) (imm : BitVec 16) (t0 : Nat), issues n s → (s.ea n ra imm) = 0x3002C → 
      answers (.lw n rd ra imm t0) s fun t =>
        wroteS n rd (BitVec.ofNat 32 (s.tiller n).attnPc) false s t) ∧
  (∀ (s : State) (n : Fin 192) (rd ra : Fin 32) (imm : BitVec 16) (t0 : Nat), issues n s → (s.ea n ra imm) = 0x30030 → 
      answers (.lw n rd ra imm t0) s fun t =>
        wroteS n rd (BitVec.ofNat 32 (s.tiller n).attnSrc) false s t) ∧
  (∀ (s : State) (n : Fin 192) (rd ra : Fin 32) (imm : BitVec 16) (t0 : Nat), issues n s → (s.ea n ra imm) = 0x30000 → 
      answers (.lw n rd ra imm t0) s fun t =>
        wroteS n rd (BitVec.ofNat 32 (s.lstatus n)) false s t) ∧
  (∀ (s : State) (n : Fin 192) (rd ra : Fin 32) (imm : BitVec 16) (t0 : Nat), issues n s → 0x30034 ≤ (s.ea n ra imm) ∧ (s.ea n ra imm) < 0x30040 → (s.ea n ra imm) % 4 = 0 → 
      answers (.lw n rd ra imm t0) s fun t =>
        wroteS n rd 0 false s t) ∧
  (∀ (s : State) (n : Fin 192) (rd ra : Fin 32) (imm : BitVec 16) (t0 : Nat), issues n s → (s.ea n ra imm) = 0x30010 → 
      answers (.lw n rd ra imm t0) s fun t =>
        pastOne ((s.tiller n).pc + 4) { s.tiller n with cycleHi := ((t0 - s.sys.resetEnd) / 1000) / 2 ^ 32 % 2 ^ 32 } (t.tiller n) ∧
        setsS rd (BitVec.ofNat 32 ((t0 - s.sys.resetEnd) / 1000)) (s.tiller n) (t.tiller n) ∧ onlyTiller n s t ∧
        (t.tiller n).flags = (s.tiller n).flags ∧ (t.tiller n).vreg = (s.tiller n).vreg) ∧
  (∀ (s : State) (n : Fin 192) (rd ra : Fin 32) (imm : BitVec 16) (t0 : Nat), issues n s → (s.ea n ra imm) = 0x30008 → s.running = true ∧ s.his.deadlinePassed = false → 
      answers (.lw n rd ra imm t0) s fun t =>
        (loaded n s t ∧ (t.tiller n).vreg = (s.tiller n).vreg ∧ ∀ r : Fin 32, r ≠ rd → (t.tiller n).s r = (s.tiller n).s r) ∧
        (rd ≠ 0 → (s.his.deadlineAt - t0) / 1000 < 2 ^ 32 → (t.sr n rd).toNat ≤ (s.his.deadlineAt - t0) / 1000 ∧ (s.his.deadlineAt - t0) / 1000 ≤ (t.sr n rd).toNat + 5)) ∧
  (∀ (s : State) (n : Fin 192) (rd ra : Fin 32) (imm : BitVec 16) (t0 : Nat), issues n s → (s.ea n ra imm) = 0x30008 → s.running = false ∨ s.his.deadlinePassed = true → 
      answers (.lw n rd ra imm t0) s fun t =>
        wroteS n rd 0 false s t) ∧
  (∀ (s : State) (n : Fin 192) (rd ra : Fin 32) (imm : BitVec 16) (t0 : Nat), issues n s → (s.ea n ra imm) = 0x3000C → (s.tiller n).own.isSome = true → 
      answers (.lw n rd ra imm t0) s fun t =>
        (loaded n s t ∧ (t.tiller n).vreg = (s.tiller n).vreg ∧ ∀ r : Fin 32, r ≠ rd → (t.tiller n).s r = (s.tiller n).s r) ∧
        (rd ≠ 0 → ((s.tiller n).blockDue - t0) / 1000 < 2 ^ 32 → (t.sr n rd).toNat ≤ ((s.tiller n).blockDue - t0) / 1000 ∧ ((s.tiller n).blockDue - t0) / 1000 ≤ (t.sr n rd).toNat + 5)) ∧
  (∀ (s : State) (n : Fin 192) (rd ra : Fin 32) (imm : BitVec 16) (t0 : Nat), issues n s → (s.ea n ra imm) = 0x3000C → (s.tiller n).own = none → 
      answers (.lw n rd ra imm t0) s fun t =>
        wroteS n rd 0 false s t) ∧
  (∀ (s : State) (n : Fin 192) (rd ra : Fin 32) (imm : BitVec 16) (t0 : Nat), issues n s → ¬ (0x10000 ≤ (s.ea n ra imm) ∧ (s.ea n ra imm) < 0x20000) ∧ ¬ (0x20000 ≤ (s.ea n ra imm) ∧ (s.ea n ra imm) < 0x28000) ∧ ¬ (0x30000 ≤ (s.ea n ra imm) ∧ (s.ea n ra imm) < 0x30040) → 
      answers (.lw n rd ra imm t0) s fun t =>
        trapped n 5 (some (s.ea n ra imm)) s t) ∧
  (∀ (s : State) (n : Fin 192) (rd ra : Fin 32) (imm : BitVec 16) (t0 : Nat), issues n s → ((0x10000 ≤ (s.ea n ra imm) ∧ (s.ea n ra imm) < 0x20000) ∨ (0x20000 ≤ (s.ea n ra imm) ∧ (s.ea n ra imm) < 0x28000) ∨ (0x30000 ≤ (s.ea n ra imm) ∧ (s.ea n ra imm) < 0x30040)) → (s.ea n ra imm) % 4 ≠ 0 → 
      answers (.lw n rd ra imm t0) s fun t =>
        trapped n 4 (some (s.ea n ra imm)) s t)

/-- SW and VST: the bytes they store, and when they trap. SW and VST at ra + simm in DMEM, naturally aligned, store their 4 or 16
bytes, least significant first, and leave every other byte of DMEM; the words stored take a fresh check, poisoned where the register
word is a work-bank word that failed, and no other check changes. SW to LSTATUS clears POISON_SEEN where bit 16 of rs is 1. A store
anywhere else raises ACCESS, and a misaligned one MISALIGN, with TRAP_ADDR at the address. Commands shown to complete here: sw, vst.
-/
def Obligations.StoresWriteTheirBytes : Prop :=
  (∀ (s : State) (n : Fin 192) (rs ra : Fin 32) (imm : BitVec 16), issues n s → (0x10000 ≤ (s.ea n ra imm) ∧ (s.ea n ra imm) < 0x20000) → (s.ea n ra imm) % 4 = 0 → 
      answers (.sw n rs ra imm) s fun t =>
        stored n (s.ea n ra imm) 4 (s.sr n rs).toNat s t ∧
        (∀ i : Fin 16384, Tab.get okCond (t.tiller n).dmemCond i = if ((s.ea n ra imm) - 0x10000) / 4 ≤ i.val ∧ i.val < ((s.ea n ra imm) - 0x10000) / 4 + 1 then (if Tab.get (fun _ => false) (s.tiller n).badS rs then .poison else .ok) else Tab.get okCond (s.tiller n).dmemCond i)) ∧
  (∀ (s : State) (n : Fin 192) (rs ra : Fin 32) (imm : BitVec 16), issues n s → (0x10000 ≤ (s.ea n ra imm) ∧ (s.ea n ra imm) < 0x20000) → (s.ea n ra imm) % 16 = 0 → 
      answers (.vst n rs ra imm) s fun t =>
        stored n (s.ea n ra imm) 16 (s.vr n rs).toNat s t ∧
        (∀ i : Fin 16384, Tab.get okCond (t.tiller n).dmemCond i = if ((s.ea n ra imm) - 0x10000) / 4 ≤ i.val ∧ i.val < ((s.ea n ra imm) - 0x10000) / 4 + 4 then (if (Tab.get (fun _ => 0) (s.tiller n).badV rs).testBit (i - ((s.ea n ra imm) - 0x10000) / 4) then .poison else .ok) else Tab.get okCond (s.tiller n).dmemCond i)) ∧
  (∀ (s : State) (n : Fin 192) (rs ra : Fin 32) (imm : BitVec 16), issues n s → (s.ea n ra imm) = 0x30000 → 
      answers (.sw n rs ra imm) s fun t =>
        onlyTiller n s t ∧
        pastOne ((s.tiller n).pc + 4) { s.tiller n with poisonSeen := (s.tiller n).poisonSeen && !(s.sr n rs).getLsbD 16 } (t.tiller n) ∧
        (t.tiller n).sreg = (s.tiller n).sreg ∧ (t.tiller n).vreg = (s.tiller n).vreg ∧ (t.tiller n).flags = (s.tiller n).flags) ∧
  (∀ (s : State) (n : Fin 192) (rs ra : Fin 32) (imm : BitVec 16), issues n s → ¬ (0x10000 ≤ (s.ea n ra imm) ∧ (s.ea n ra imm) < 0x20000) ∧ ¬ (0x30000 ≤ (s.ea n ra imm) ∧ (s.ea n ra imm) < 0x30004) → 
      answers (.sw n rs ra imm) s fun t =>
        trapped n 5 (some (s.ea n ra imm)) s t) ∧
  (∀ (s : State) (n : Fin 192) (rs ra : Fin 32) (imm : BitVec 16), issues n s → ((0x10000 ≤ (s.ea n ra imm) ∧ (s.ea n ra imm) < 0x20000) ∨ (0x30000 ≤ (s.ea n ra imm) ∧ (s.ea n ra imm) < 0x30004)) → (s.ea n ra imm) % 4 ≠ 0 → 
      answers (.sw n rs ra imm) s fun t =>
        trapped n 4 (some (s.ea n ra imm)) s t) ∧
  (∀ (s : State) (n : Fin 192) (rs ra : Fin 32) (imm : BitVec 16), issues n s → ¬ (0x10000 ≤ (s.ea n ra imm) ∧ (s.ea n ra imm) < 0x20000) → 
      answers (.vst n rs ra imm) s fun t =>
        trapped n 5 (some (s.ea n ra imm)) s t) ∧
  (∀ (s : State) (n : Fin 192) (rs ra : Fin 32) (imm : BitVec 16), issues n s → (0x10000 ≤ (s.ea n ra imm) ∧ (s.ea n ra imm) < 0x20000) → (s.ea n ra imm) % 16 ≠ 0 → 
      answers (.vst n rs ra imm) s fun t =>
        trapped n 4 (some (s.ea n ra imm)) s t)

/-- VLD and VBWL: what they load, and when they trap. VLD at a 16-byte aligned address of DMEM or the furrow view writes the four
words there to vd. VBWL with ra aligned in one of the two writes to lane j the bin IDX + j of the array at ra, or 0 where that bin
lies outside [0, LIM), reading the aligned groups of 16 bytes that hold them. A word read that is uncorrectable or poisoned gives 0,
sets POISON_SEEN and, where it is of the work bank, marks its lane with POISON_ZERO = 1, and raises DMEM_UE at the first such word
with POISON_ZERO = 0. An address outside DMEM and the furrow view, and a group outside the region of ra, raises ACCESS, and an
address not 16-byte aligned MISALIGN, with TRAP_ADDR at the address. Commands shown to complete here: vld, vbwl. -/
def Obligations.VectorLoads : Prop :=
  (∀ (s : State) (n : Fin 192) (vd ra : Fin 32) (imm : BitVec 16), issues n s → ((0x10000 ≤ (s.ea n ra imm) ∧ (s.ea n ra imm) < 0x20000) ∨ (0x20000 ≤ (s.ea n ra imm) ∧ (s.ea n ra imm) < 0x28000)) → (s.ea n ra imm) % 16 = 0 → (∀ i : Fin 4, (s.condAt n ((s.ea n ra imm) + 4 * i)) = .ok) → 
      answers (.vld n vd ra imm) s fun t =>
        wroteV n vd false s t ∧
        (∀ i : Fin 4, laneAt 32 i (t.vr n vd) = (s.wordAt n ((s.ea n ra imm) + 4 * i))) ∧
        (Tab.get (fun _ => 0) (t.tiller n).badV vd = 0)) ∧
  (∀ (s : State) (n : Fin 192) (vd ra : Fin 32) (imm : BitVec 16), issues n s → ((0x10000 ≤ (s.ea n ra imm) ∧ (s.ea n ra imm) < 0x20000) ∨ (0x20000 ≤ (s.ea n ra imm) ∧ (s.ea n ra imm) < 0x28000)) → (s.ea n ra imm) % 16 = 0 → (∀ i : Fin 4, (s.condAt n ((s.ea n ra imm) + 4 * i)).bad = false) → 
      answers (.vld n vd ra imm) s fun t =>
        loadedV n vd s t ∧
        (∀ i : Fin 4, laneAt 32 i (t.vr n vd) = (s.wordAt n ((s.ea n ra imm) + 4 * i))) ∧
        (t.tiller n).poisonSeen = (s.tiller n).poisonSeen) ∧
  (∀ (s : State) (n : Fin 192) (vd ra : Fin 32) (imm : BitVec 16), issues n s → ((0x10000 ≤ (s.ea n ra imm) ∧ (s.ea n ra imm) < 0x20000) ∨ (0x20000 ≤ (s.ea n ra imm) ∧ (s.ea n ra imm) < 0x28000)) → (s.ea n ra imm) % 16 = 0 → (∃ i : Fin 4, (s.condAt n ((s.ea n ra imm) + 4 * i)).bad = true) → s.on (F.TIL_CFG_POISON_ZERO n) = true → 
      answers (.vld n vd ra imm) s fun t =>
        loadedV n vd s t ∧
        (∀ i : Fin 4, laneAt 32 i (t.vr n vd) = s.cleanAt n ((s.ea n ra imm) + 4 * i)) ∧
        (t.tiller n).poisonSeen = true ∧
        (∀ i : Fin 4, (Tab.get (fun _ => 0) (t.tiller n).badV vd).testBit i = ((s.condAt n ((s.ea n ra imm) + 4 * i)).bad && decide (0x27000 ≤ (s.ea n ra imm) ∧ (s.ea n ra imm) < 0x27B00)))) ∧
  (∀ (s : State) (n : Fin 192) (vd ra : Fin 32) (imm : BitVec 16) (i : Fin 4), issues n s → ((0x10000 ≤ (s.ea n ra imm) ∧ (s.ea n ra imm) < 0x20000) ∨ (0x20000 ≤ (s.ea n ra imm) ∧ (s.ea n ra imm) < 0x28000)) → (s.ea n ra imm) % 16 = 0 → ((s.condAt n ((s.ea n ra imm) + 4 * i)).bad = true ∧ ∀ j : Fin 4, j < i → (s.condAt n ((s.ea n ra imm) + 4 * j)).bad = false) → s.on (F.TIL_CFG_POISON_ZERO n) = false → 
      answers (.vld n vd ra imm) s fun t =>
        trapped n 3 (some ((s.ea n ra imm) + 4 * i)) (s.setTiller n { s.tiller n with dmemCond := (t.tiller n).dmemCond }) t) ∧
  (∀ (s : State) (n : Fin 192) (vd ra : Fin 32) (imm : BitVec 16), issues n s → ¬ (0x10000 ≤ (s.ea n ra imm) ∧ (s.ea n ra imm) < 0x20000) ∧ ¬ (0x20000 ≤ (s.ea n ra imm) ∧ (s.ea n ra imm) < 0x28000) → 
      answers (.vld n vd ra imm) s fun t =>
        trapped n 5 (some (s.ea n ra imm)) s t) ∧
  (∀ (s : State) (n : Fin 192) (vd ra : Fin 32) (imm : BitVec 16), issues n s → ((0x10000 ≤ (s.ea n ra imm) ∧ (s.ea n ra imm) < 0x20000) ∨ (0x20000 ≤ (s.ea n ra imm) ∧ (s.ea n ra imm) < 0x28000)) → (s.ea n ra imm) % 16 ≠ 0 → 
      answers (.vld n vd ra imm) s fun t =>
        trapped n 4 (some (s.ea n ra imm)) s t) ∧
  (∀ (s : State) (n : Fin 192) (vd ra rb : Fin 32), issues n s → (∀ a ∈ (binWords (s.sr n ra) (s.sr n rb)), (0x10000 ≤ (s.sr n ra).toNat ∧ (s.sr n ra).toNat < 0x20000 ∧ a < 0x20000) ∨ (0x20000 ≤ (s.sr n ra).toNat ∧ (s.sr n ra).toNat < 0x28000 ∧ a < 0x28000)) → 0x10000 ≤ (s.sr n ra).toNat ∧ (s.sr n ra).toNat < 0x28000 → (s.sr n ra).toNat % 16 = 0 → (∀ a ∈ (binWords (s.sr n ra) (s.sr n rb)), s.condAt n a = .ok) → 
      answers (.vbwl n vd ra rb) s fun t =>
        wroteV n vd false s t ∧
        (∀ j : Fin 8, laneAt 16 j (t.vr n vd) = if binIn (s.sr n rb) j = true then (s.wordAt n (binAddr (s.sr n ra) (s.sr n rb) j / 4 * 4)).extractLsb' (binAddr (s.sr n ra) (s.sr n rb) j % 4 * 8) 16 else 0)) ∧
  (∀ (s : State) (n : Fin 192) (vd ra rb : Fin 32), issues n s → (∀ a ∈ (binWords (s.sr n ra) (s.sr n rb)), (0x10000 ≤ (s.sr n ra).toNat ∧ (s.sr n ra).toNat < 0x20000 ∧ a < 0x20000) ∨ (0x20000 ≤ (s.sr n ra).toNat ∧ (s.sr n ra).toNat < 0x28000 ∧ a < 0x28000)) → 0x10000 ≤ (s.sr n ra).toNat ∧ (s.sr n ra).toNat < 0x28000 → (s.sr n ra).toNat % 16 = 0 → (∀ a ∈ (binWords (s.sr n ra) (s.sr n rb)), (s.condAt n a).bad = true → s.on (F.TIL_CFG_POISON_ZERO n) = true) → 
      answers (.vbwl n vd ra rb) s fun t =>
        loadedV n vd s t ∧
        (∀ j : Fin 8, laneAt 16 j (t.vr n vd) = if binIn (s.sr n rb) j = true then (s.cleanAt n (binAddr (s.sr n ra) (s.sr n rb) j / 4 * 4)).extractLsb' (binAddr (s.sr n ra) (s.sr n rb) j % 4 * 8) 16 else 0) ∧
        ((t.tiller n).poisonSeen = ((s.tiller n).poisonSeen || (binWords (s.sr n ra) (s.sr n rb)).any fun a => (s.condAt n a).bad))) ∧
  (∀ (s : State) (n : Fin 192) (vd ra rb : Fin 32) (a : Nat), issues n s → (∀ a ∈ (binWords (s.sr n ra) (s.sr n rb)), (0x10000 ≤ (s.sr n ra).toNat ∧ (s.sr n ra).toNat < 0x20000 ∧ a < 0x20000) ∨ (0x20000 ≤ (s.sr n ra).toNat ∧ (s.sr n ra).toNat < 0x28000 ∧ a < 0x28000)) → 0x10000 ≤ (s.sr n ra).toNat ∧ (s.sr n ra).toNat < 0x28000 → (s.sr n ra).toNat % 16 = 0 → ((binWords (s.sr n ra) (s.sr n rb)).find? (fun b => (s.condAt n b).bad) = some a) → s.on (F.TIL_CFG_POISON_ZERO n) = false → 
      answers (.vbwl n vd ra rb) s fun t =>
        trapped n 3 (some a) (s.setTiller n { s.tiller n with dmemCond := (t.tiller n).dmemCond }) t) ∧
  (∀ (s : State) (n : Fin 192) (vd ra rb : Fin 32) (g : Nat), issues n s → 0x10000 ≤ (s.sr n ra).toNat ∧ (s.sr n ra).toNat < 0x28000 → ((binWords (s.sr n ra) (s.sr n rb)).find? (fun b => decide ((s.sr n ra).toNat < 0x20000) != decide (b < 0x20000) || decide (0x28000 ≤ b)) = some g) → 
      answers (.vbwl n vd ra rb) s fun t =>
        trapped n 5 (some g) s t) ∧
  (∀ (s : State) (n : Fin 192) (vd ra rb : Fin 32), issues n s → ¬ (0x10000 ≤ (s.sr n ra).toNat ∧ (s.sr n ra).toNat < 0x28000) → 
      answers (.vbwl n vd ra rb) s fun t =>
        trapped n 5 (some (s.sr n ra).toNat) s t) ∧
  (∀ (s : State) (n : Fin 192) (vd ra rb : Fin 32), issues n s → 0x10000 ≤ (s.sr n ra).toNat ∧ (s.sr n ra).toNat < 0x28000 → (s.sr n ra).toNat % 16 ≠ 0 → (∀ a ∈ (binWords (s.sr n ra) (s.sr n rb)), (0x10000 ≤ (s.sr n ra).toNat ∧ (s.sr n ra).toNat < 0x20000 ∧ a < 0x20000) ∨ (0x20000 ≤ (s.sr n ra).toNat ∧ (s.sr n ra).toNat < 0x28000 ∧ a < 0x28000)) → 
      answers (.vbwl n vd ra rb) s fun t =>
        trapped n 4 (some (s.sr n ra).toNat) s t)

/-- The lane operations on two vectors. Each instruction of Table KI-6 that works lane by lane, once it issues, writes to every lane
of vd its row's function of the lanes of va and vb, eight lanes of 16 bits or four of 32 as W selects; S is set exactly when a
saturating row clips some lane, no other flag and no other register changes, and PC moves to the next word. Commands shown to
complete here: vadd, vsub, vmul, vmin, vmax, vmins, vmaxs, vand, vor, vxor, vcmpeq, vcmpgtu, vcmpgt, vaddsu, vsubsu, vadds, vsubs.
-/
def Obligations.VectorLaneOperations : Prop :=
  (∀ (s : State) (n : Fin 192) (w : Bool) (vd va vb : Fin 32), issues n s → 
      (answers (.vadd n w vd va vb) s fun t =>
        wroteV n vd false s t ∧
        (lanewise w (fun k x y => x + y) (s.vr n va) (s.vr n vb) (t.vr n vd))) ∧
      (answers (.vsub n w vd va vb) s fun t =>
        wroteV n vd false s t ∧
        (lanewise w (fun k x y => x - y) (s.vr n va) (s.vr n vb) (t.vr n vd))) ∧
      (answers (.vmul n w vd va vb) s fun t =>
        wroteV n vd false s t ∧
        (lanewise w (fun k x y => x * y) (s.vr n va) (s.vr n vb) (t.vr n vd))) ∧
      (answers (.vmin n w vd va vb) s fun t =>
        wroteV n vd false s t ∧
        (lanewise w (fun k x y => if x.ult y then x else y) (s.vr n va) (s.vr n vb) (t.vr n vd))) ∧
      (answers (.vmax n w vd va vb) s fun t =>
        wroteV n vd false s t ∧
        (lanewise w (fun k x y => if x.ult y then y else x) (s.vr n va) (s.vr n vb) (t.vr n vd))) ∧
      (answers (.vmins n w vd va vb) s fun t =>
        wroteV n vd false s t ∧
        (lanewise w (fun k x y => if x.slt y then x else y) (s.vr n va) (s.vr n vb) (t.vr n vd))) ∧
      (answers (.vmaxs n w vd va vb) s fun t =>
        wroteV n vd false s t ∧
        (lanewise w (fun k x y => if x.slt y then y else x) (s.vr n va) (s.vr n vb) (t.vr n vd))) ∧
      (answers (.vand n w vd va vb) s fun t =>
        wroteV n vd false s t ∧
        (lanewise w (fun k x y => x &&& y) (s.vr n va) (s.vr n vb) (t.vr n vd))) ∧
      (answers (.vor n w vd va vb) s fun t =>
        wroteV n vd false s t ∧
        (lanewise w (fun k x y => x ||| y) (s.vr n va) (s.vr n vb) (t.vr n vd))) ∧
      (answers (.vxor n w vd va vb) s fun t =>
        wroteV n vd false s t ∧
        (lanewise w (fun k x y => x ^^^ y) (s.vr n va) (s.vr n vb) (t.vr n vd))) ∧
      (answers (.vcmpeq n w vd va vb) s fun t =>
        wroteV n vd false s t ∧
        (lanewise w (fun k x y => if x = y then BitVec.allOnes k else 0) (s.vr n va) (s.vr n vb) (t.vr n vd))) ∧
      (answers (.vcmpgtu n w vd va vb) s fun t =>
        wroteV n vd false s t ∧
        (lanewise w (fun k x y => if y.ult x then BitVec.allOnes k else 0) (s.vr n va) (s.vr n vb) (t.vr n vd))) ∧
      (answers (.vcmpgt n w vd va vb) s fun t =>
        wroteV n vd false s t ∧
        (lanewise w (fun k x y => if y.slt x then BitVec.allOnes k else 0) (s.vr n va) (s.vr n vb) (t.vr n vd)))) ∧
  (∀ (s : State) (n : Fin 192) (w : Bool) (vd va vb : Fin 32), issues n s → 
      (answers (.vaddsu n w vd va vb) s fun t =>
        (wroteV n vd (anyLane w (fun k x y => x.uaddOverflow y) (s.vr n va) (s.vr n vb)) s t) ∧
        (lanewise w (fun k x y => if x.uaddOverflow y then BitVec.allOnes k else x + y) (s.vr n va) (s.vr n vb) (t.vr n vd))) ∧
      (answers (.vsubsu n w vd va vb) s fun t =>
        (wroteV n vd (anyLane w (fun k x y => x.ult y) (s.vr n va) (s.vr n vb)) s t) ∧
        (lanewise w (fun k x y => if x.ult y then 0 else x - y) (s.vr n va) (s.vr n vb) (t.vr n vd))) ∧
      (answers (.vadds n w vd va vb) s fun t =>
        (wroteV n vd (anyLane w (fun k x y => x.saddOverflow y) (s.vr n va) (s.vr n vb)) s t) ∧
        (lanewise w (fun k x y => BitVec.ofInt k (sLimit k (x.toInt + y.toInt))) (s.vr n va) (s.vr n vb) (t.vr n vd))) ∧
      (answers (.vsubs n w vd va vb) s fun t =>
        (wroteV n vd (anyLane w (fun k x y => x.ssubOverflow y) (s.vr n va) (s.vr n vb)) s t) ∧
        (lanewise w (fun k x y => BitVec.ofInt k (sLimit k (x.toInt - y.toInt))) (s.vr n va) (s.vr n vb) (t.vr n vd))))

/-- Vector shifts, selects, narrowing, widening and lane moves. VSLLI, VSRLI and VSRAI shift every lane by a count below the lane
width. VSEL takes va where the mask in vd is 1 and vb elsewhere. VZXL and VZXH widen the low and the high four 16-bit lanes, and
VNARS narrows eight 32-bit lanes with an unsigned clip that sets S. VSPLAT copies ra to every lane, VEXT and VINS move one lane that
the width has, VRSUM sums all lanes modulo 2³² and VRMAXU gives the largest. Nothing else of the tiller changes. Commands shown to
complete here: vslli, vsrli, vsrai, vsel, vzxl, vzxh, vnars, vsplat, vrsum, vrmaxu, vext, vins. -/
def Obligations.VectorShiftsAndMoves : Prop :=
  (∀ (s : State) (til : Fin 192) (w : Bool) (vd va n : Fin 32), issues til s → (n.val < (if w then 32 else 16)) → 
      (answers (.vslli til w vd va n) s fun t =>
        wroteV til vd false s t ∧
        ((if w then ∀ i : Fin 4, laneAt 32 i (t.vr til vd) = (laneAt 32 i (s.vr til va)) <<< n.val else ∀ i : Fin 8, laneAt 16 i (t.vr til vd) = (laneAt 16 i (s.vr til va)) <<< n.val))) ∧
      (answers (.vsrli til w vd va n) s fun t =>
        wroteV til vd false s t ∧
        ((if w then ∀ i : Fin 4, laneAt 32 i (t.vr til vd) = (laneAt 32 i (s.vr til va)) >>> n.val else ∀ i : Fin 8, laneAt 16 i (t.vr til vd) = (laneAt 16 i (s.vr til va)) >>> n.val))) ∧
      (answers (.vsrai til w vd va n) s fun t =>
        wroteV til vd false s t ∧
        ((if w then ∀ i : Fin 4, laneAt 32 i (t.vr til vd) = ((laneAt 32 i (s.vr til va))).sshiftRight n else ∀ i : Fin 8, laneAt 16 i (t.vr til vd) = ((laneAt 16 i (s.vr til va))).sshiftRight n)))) ∧
  (∀ (s : State) (n : Fin 192) (vd va vb : Fin 32), issues n s → 
      (answers (.vsel n vd va vb) s fun t =>
        wroteV n vd false s t ∧
        t.vr n vd = ((s.vr n va) &&& s.vr n vd) ||| ((s.vr n vb) &&& ~~~ (s.vr n vd))) ∧
      (answers (.vzxl n vd va) s fun t =>
        wroteV n vd false s t ∧
        (∀ i : Fin 4, laneAt 32 i (t.vr n vd) = (laneAt 16 i (s.vr n va)).setWidth 32)) ∧
      (answers (.vzxh n vd va) s fun t =>
        wroteV n vd false s t ∧
        (∀ i : Fin 4, laneAt 32 i (t.vr n vd) = (laneAt 16 (i + 4) (s.vr n va)).setWidth 32)) ∧
      (answers (.vnars n vd va vb) s fun t =>
        (wroteV n vd ((List.range 4).any fun i => 65535 < (laneAt 32 i (s.vr n va)).toNat || 65535 < (laneAt 32 i (s.vr n vb)).toNat) s t) ∧
        (∀ i : Fin 4, laneAt 16 i (t.vr n vd) = BitVec.ofNat 16 (min (laneAt 32 i (s.vr n va)).toNat 65535) ∧ laneAt 16 (i + 4) (t.vr n vd) = BitVec.ofNat 16 (min (laneAt 32 i (s.vr n vb)).toNat 65535)))) ∧
  (∀ (s : State) (n : Fin 192) (w : Bool) (vd ra : Fin 32), issues n s → 
      (answers (.vsplat n w vd ra) s fun t =>
        wroteV n vd false s t ∧
        ((if w then ∀ i : Fin 4, laneAt 32 i (t.vr n vd) = s.sr n ra else ∀ i : Fin 8, laneAt 16 i (t.vr n vd) = (s.sr n ra).setWidth 16))) ∧
      (answers (.vrsum n w vd ra) s fun t =>
        wroteS n vd (BitVec.ofNat 32 (if w then ((List.range 4).map fun i => (laneAt 32 i (s.vr n ra)).toNat).sum else ((List.range 8).map fun i => (laneAt 16 i (s.vr n ra)).toNat).sum)) false s t) ∧
      (answers (.vrmaxu n w vd ra) s fun t =>
        wroteS n vd (BitVec.ofNat 32 (if w then ((List.range 4).map fun i => (laneAt 32 i (s.vr n ra)).toNat).foldr max 0 else ((List.range 8).map fun i => (laneAt 16 i (s.vr n ra)).toNat).foldr max 0)) false s t)) ∧
  (∀ (s : State) (n : Fin 192) (w : Bool) (vd ra : Fin 32) (lane : Fin 8), issues n s → w = false ∨ lane.val < 4 → 
      (answers (.vext n w vd ra lane) s fun t =>
        wroteS n vd (if w then laneAt 32 lane (s.vr n ra) else (laneAt 16 lane (s.vr n ra)).setWidth 32) false s t) ∧
      (answers (.vins n w vd ra lane) s fun t =>
        wroteV n vd false s t ∧
        ((if w then ∀ i : Fin 4, laneAt 32 i (t.vr n vd) = (if i.val = lane.val then s.sr n ra else laneAt 32 i (s.vr n vd)) else ∀ i : Fin 8, laneAt 16 i (t.vr n vd) = (if i = lane then (s.sr n ra).setWidth 16 else laneAt 16 i (s.vr n vd))))))

/-- VMACC, VPIDX, VCENT and VCOAT. VMACC with an even va adds to each 32-bit lane of vd the exact sum of eight bins by their signed
weights and clips once, and S is set where it clips. VPIDX keeps the running peak: no lane of va exceeds the value left, which is
the old one or the first lane of that value; to s0 it writes nothing. VCENT writes 256 × the background-subtracted centroid,
truncated, or all ones with Z set when nothing lies above the background. VCOAT writes every lane's corrected count, clipped at
0xFFFF, and takes the lanes off LIVE in rb; S is set where it clips. No other flag or register changes. Commands shown to complete
here: vmacc, vpidx, vcent, vcoat. -/
def Obligations.HistogramInstructions : Prop :=
  (∀ (s : State) (n : Fin 192) (vd va vb : Fin 32) (p : Fin 2), issues n s → va.val % 2 = 0 → 
      answers (.vmacc n vd va vb p) s fun t =>
        (wroteV n vd ((List.range 4).any fun i => decide (vmaccSum (s.vr n vd) (s.vr n va) (s.vr n (va.val + 1)) (s.vr n vb) p i ≠ sLimit 32 (vmaccSum (s.vr n vd) (s.vr n va) (s.vr n (va.val + 1)) (s.vr n vb) p i))) s t) ∧
        (∀ i : Fin 4, laneAt 32 i (t.vr n vd) = BitVec.ofInt 32 (sLimit 32 (vmaccSum (s.vr n vd) (s.vr n va) (s.vr n (va.val + 1)) (s.vr n vb) p i)))) ∧
  (∀ (s : State) (n : Fin 192) (rd va rb : Fin 32), issues n s → rd ≠ 0 → 
      answers (.vpidx n rd va rb) s fun t =>
        wroteS n rd (t.sr n rd) false s t ∧
        ((s.sr n rd).toNat / 2 ^ 16 ≤ (t.sr n rd).toNat / 2 ^ 16 ∧ ∀ j : Fin 8, (laneAt 16 j (s.vr n va)).toNat ≤ (t.sr n rd).toNat / 2 ^ 16) ∧
        ((t.sr n rd = s.sr n rd ∨ ∃ j : Fin 8, (s.sr n rd).toNat / 2 ^ 16 < (laneAt 16 j (s.vr n va)).toNat ∧ (∀ i : Fin 8, i < j → (laneAt 16 i (s.vr n va)).toNat < (laneAt 16 j (s.vr n va)).toNat) ∧ t.sr n rd = laneAt 16 j (s.vr n va) ++ BitVec.ofNat 16 ((s.sr n rb).toNat + j.val)))) ∧
  (∀ (s : State) (n : Fin 192) (va rb : Fin 32), issues n s → 
      answers (.vpidx n 0 va rb) s fun t =>
        jumped n 0 0 ((s.tiller n).pc + 4) s t) ∧
  (∀ (s : State) (n : Fin 192) (rd va rb : Fin 32), issues n s → 
      answers (.vcent n rd va rb) s fun t =>
        (movedS n rd (if centSum (s.vr n va) (s.sr n rb) (fun _ => 1) = 0 then 0xFFFFFFFF else BitVec.ofNat 32 (centSum (s.vr n va) (s.sr n rb) id * 256 / centSum (s.vr n va) (s.sr n rb) (fun _ => 1))) s t) ∧
        (fZ (t.tiller n).flags = (centSum (s.vr n va) (s.sr n rb) (fun _ => 1) == 0) ∧ fN (t.tiller n).flags = fN (s.tiller n).flags ∧ fC (t.tiller n).flags = fC (s.tiller n).flags ∧ fV (t.tiller n).flags = fV (s.tiller n).flags ∧ fS (t.tiller n).flags = fS (s.tiller n).flags)) ∧
  (∀ (s : State) (n : Fin 192) (vd va rb : Fin 32), issues n s → 
      answers (.vcoat n vd va rb) s fun t =>
        (∀ j : Fin 8, laneAt 16 j (t.vr n vd) = BitVec.ofNat 16 (min 0xFFFF (coatesAt (s.vr n va) (s.sr n rb) j))) ∧
        setsS rb (BitVec.ofNat 32 ((s.sr n rb).toNat / 2 ^ 16 * 2 ^ 16 + liveAt (s.vr n va) (s.sr n rb) 8)) (s.tiller n) (t.tiller n) ∧
        (keepsZNCV ((List.range 8).any fun j => decide (0xFFFF < coatesAt (s.vr n va) (s.sr n rb) j)) (s.tiller n) (t.tiller n)) ∧
        onlyTiller n s t ∧ pastOne ((s.tiller n).pc + 4) (s.tiller n) (t.tiller n) ∧ setsV vd (s.tiller n) (t.tiller n))

/-- FSEND, FRECV and EMIT, and the stalls they end or begin. FSEND appends ra to the fabric write queue, or stalls while it holds 32
words, until FSEND_STALL_END pushes the word; a held tiller, one with a full queue and one with no such stall stay as they are, and
so for FRECV_W_COMPLETE. FRECV.N and FRECV.W to an even register other than s0 take the oldest message into rd and rd + 1 with Z =
0; on an empty queue FRECV.N writes EMPTY with Z = 1 and FRECV.W stalls until FRECV_W_COMPLETE takes a message. EMIT with a bad
format traps EMIT_FORMAT; a block of no owned, an emitted or another bank gets STALE, which is counted with its cause; any other
stalls for admission. Commands shown to complete here: fsend, fsendStallEnd, frecvN, frecvW, frecvWComplete, emit. -/
def Obligations.FabricMessagesAndEmit : Prop :=
  (∀ (s : State) (n : Fin 192) (ra : Fin 32), issues n s → (s.tiller n).fwq.length < 32 → 
      answers (.fsend n ra) s fun t =>
        onlyTiller n s t ∧
        pastOne ((s.tiller n).pc + 4) { (s.tiller n) with fwq := (s.tiller n).fwq ++ [s.sr n ra] } (t.tiller n) ∧
        (t.tiller n).sreg = (s.tiller n).sreg ∧ (t.tiller n).vreg = (s.tiller n).vreg ∧ (t.tiller n).flags = (s.tiller n).flags) ∧
  (∀ (s : State) (n : Fin 192) (ra : Fin 32), issues n s → 32 ≤ (s.tiller n).fwq.length → 
      answers (.fsend n ra) s fun t =>
        stalledOn n (.fsend (s.sr n ra)) s t) ∧
  (∀ (s : State) (n : Fin 192) (w : Word), s.tilStopped = false → (s.tiller n).stall = some (.fsend w) → (s.tiller n).fwq.length < 32 → 
      answers (.fsendStallEnd n) s fun t =>
        onlyTiller n s t ∧
        (t.tiller n).fwq = (s.tiller n).fwq ++ [w] ∧ (t.tiller n).stall = none ∧ (t.tiller n).pc = (s.tiller n).pc + 4 ∧
        ((t.tiller n).state = (if (s.tiller n).stepping then .halted else .running) ∧ (t.tiller n).sreg = (s.tiller n).sreg ∧ (t.tiller n).vreg = (s.tiller n).vreg ∧ (t.tiller n).flags = (s.tiller n).flags ∧ (t.tiller n).dmem = (s.tiller n).dmem)) ∧
  (∀ (s : State) (n : Fin 192) (rd : Fin 32) (m : BitVec 64) (q : List (BitVec 64)), issues n s → rd.val % 2 = 0 ∧ rd ≠ 0 → (s.tiller n).candQ = m :: q → 
      (answers (.frecvN n rd) s fun t =>
        onlyTiller n s t ∧
        pastOne ((s.tiller n).pc + 4) { (s.tiller n) with candQ := q } (t.tiller n) ∧
        (t.tiller n).vreg = (s.tiller n).vreg ∧
        ((∀ r : Fin 32, (t.tiller n).s r = if r = rd + 1 then BitVec.ofNat 32 (m.toNat / 2 ^ 32) else if r = rd then BitVec.ofNat 32 m.toNat else (s.tiller n).s r) ∧ fZ (t.tiller n).flags = false ∧ fN (t.tiller n).flags = fN (s.tiller n).flags ∧ fC (t.tiller n).flags = fC (s.tiller n).flags ∧ fV (t.tiller n).flags = fV (s.tiller n).flags ∧ fS (t.tiller n).flags = fS (s.tiller n).flags)) ∧
      (answers (.frecvW n rd) s fun t =>
        onlyTiller n s t ∧
        pastOne ((s.tiller n).pc + 4) { (s.tiller n) with candQ := q } (t.tiller n) ∧
        (t.tiller n).vreg = (s.tiller n).vreg ∧
        ((∀ r : Fin 32, (t.tiller n).s r = if r = rd + 1 then BitVec.ofNat 32 (m.toNat / 2 ^ 32) else if r = rd then BitVec.ofNat 32 m.toNat else (s.tiller n).s r) ∧ fZ (t.tiller n).flags = false ∧ fN (t.tiller n).flags = fN (s.tiller n).flags ∧ fC (t.tiller n).flags = fC (s.tiller n).flags ∧ fV (t.tiller n).flags = fV (s.tiller n).flags ∧ fS (t.tiller n).flags = fS (s.tiller n).flags))) ∧
  (∀ (s : State) (n : Fin 192) (rd : Fin 32), issues n s → rd.val % 2 = 0 ∧ rd ≠ 0 → (s.tiller n).candQ = [] → 
      (answers (.frecvN n rd) s fun t =>
        onlyTiller n s t ∧
        pastOne ((s.tiller n).pc + 4) (s.tiller n) (t.tiller n) ∧
        (t.tiller n).vreg = (s.tiller n).vreg ∧
        ((∀ r : Fin 32, (t.tiller n).s r = if r = rd + 1 then BitVec.ofNat 32 (7 / 2 ^ 32) else if r = rd then BitVec.ofNat 32 7 else (s.tiller n).s r) ∧ fZ (t.tiller n).flags = true ∧ fN (t.tiller n).flags = fN (s.tiller n).flags ∧ fC (t.tiller n).flags = fC (s.tiller n).flags ∧ fV (t.tiller n).flags = fV (s.tiller n).flags ∧ fS (t.tiller n).flags = fS (s.tiller n).flags)) ∧
      (answers (.frecvW n rd) s fun t =>
        stalledOn n (.frecv rd) s t)) ∧
  (∀ (s : State) (n : Fin 192) (rd : Fin 32) (m : BitVec 64) (q : List (BitVec 64)), s.tilStopped = false → (s.tiller n).stall = some (.frecv rd) → rd.val % 2 = 0 ∧ rd ≠ 0 → (s.tiller n).candQ = m :: q → 
      answers (.frecvWComplete n) s fun t =>
        onlyTiller n s t ∧
        ((t.tiller n).candQ = q ∧ (t.tiller n).stall = none ∧ (t.tiller n).pc = (s.tiller n).pc + 4 ∧ (t.tiller n).state = (if (s.tiller n).stepping then .halted else .running) ∧ (t.tiller n).pendMsg = ((s.tiller n).pendMsg && q.any isCandidate) ∧ (t.tiller n).vreg = (s.tiller n).vreg ∧ (t.tiller n).pendDl = (s.tiller n).pendDl) ∧
        ((∀ r : Fin 32, (t.tiller n).s r = if r = rd + 1 then BitVec.ofNat 32 (m.toNat / 2 ^ 32) else if r = rd then BitVec.ofNat 32 m.toNat else (s.tiller n).s r) ∧ fZ (t.tiller n).flags = false ∧ fN (t.tiller n).flags = fN (s.tiller n).flags ∧ fC (t.tiller n).flags = fC (s.tiller n).flags ∧ fV (t.tiller n).flags = fV (s.tiller n).flags ∧ fS (t.tiller n).flags = fS (s.tiller n).flags)) ∧
  (∀ (s : State) (n : Fin 192), (s.tilStopped = true ∨ (match (s.tiller n).stall with | some (.fsend _) => decide (32 ≤ (s.tiller n).fwq.length) | _ => true) = true) → 
      answers (.fsendStallEnd n) s fun t =>
        t = s) ∧
  (∀ (s : State) (n : Fin 192), (s.tilStopped = true ∨ (s.tiller n).candQ = [] ∨ (match (s.tiller n).stall with | some (.frecv _) => false | _ => true) = true) → 
      answers (.frecvWComplete n) s fun t =>
        t = s) ∧
  (∀ (s : State) (n : Fin 192) (rd ra rb : Fin 32), issues n s → ¬ (emitLength (s.sr n rb).toNat = true ∧ (s.sr n ra).toNat % 16 = 0 ∧ 0x10000 ≤ (s.sr n ra).toNat ∧ (s.sr n ra).toNat + (s.sr n rb).toNat ≤ 0x20000 ∧ (s.tiller n).blockWord (s.sr n ra).toNat 2 % 2 ^ 8 = n) → 
      answers (.emit n rd ra rb) s fun t =>
        trapped n 6 none s t) ∧
  (∀ (s : State) (n : Fin 192) (rd ra rb : Fin 32), issues n s → emitLength (s.sr n rb).toNat = true ∧ (s.sr n ra).toNat % 16 = 0 ∧ 0x10000 ≤ (s.sr n ra).toNat ∧ (s.sr n ra).toNat + (s.sr n rb).toNat ≤ 0x20000 ∧ (s.tiller n).blockWord (s.sr n ra).toNat 2 % 2 ^ 8 = n → (s.tiller n).own = none ∨ (s.tiller n).emitted = true ∨ (s.tiller n).own.map Prod.snd ≠ some ((s.tiller n).blockWord (s.sr n ra).toNat 2 / 2 ^ 8) → 
      answers (.emit n rd ra rb) s fun t =>
        wroteS n rd 1 false s t ∧
        t.rd (F.TIL_CNT_STALE_EMIT_COUNT n) = min (s.rd (F.TIL_CNT_STALE_EMIT_COUNT n) + 1) (2 ^ 32 - 1) ∧
        (t.rd (F.TIL_EVT_CAUSE_CAUSE n)).testBit 1 = true) ∧
  (∀ (s : State) (n : Fin 192) (rd ra rb : Fin 32), issues n s → emitLength (s.sr n rb).toNat = true ∧ (s.sr n ra).toNat % 16 = 0 ∧ 0x10000 ≤ (s.sr n ra).toNat ∧ (s.sr n ra).toNat + (s.sr n rb).toNat ≤ 0x20000 ∧ (s.tiller n).blockWord (s.sr n ra).toNat 2 % 2 ^ 8 = n → (s.tiller n).own.map Prod.snd = some ((s.tiller n).blockWord (s.sr n ra).toNat 2 / 2 ^ 8) ∧ (s.tiller n).emitted = false → 
      answers (.emit n rd ra rb) s fun t =>
        stalledOn n (.emit rd (s.sr n ra).toNat (s.sr n rb).toNat) s t)

/-- NOP, FENCE, TRAP, TRET and ARET, an illegal word, and what keeps an instruction from its effect. NOP and FENCE move to the next
word and change nothing else. TRAP raises SOFT. TRET clears IN_TRAP and resumes at EPC, or at EPC + 4 when TRAP_CAUSE is SOFT, and
is ILLEGAL outside a trap handler. ARET restores FLAGS, clears IN_ATTN and resumes at ATTN_PC, and is ILLEGAL outside an attention
handler or inside a trap handler. A fetched word that is no instruction raises ILLEGAL. Of every Krytold instruction: nothing
happens while the tiller is held, its clock stopped, not RUNNING, or while a HALT or an attention waits; an armed breakpoint halts
it before the instruction with HALT_CAUSE 2; a PC of 0x8000 or more raises ACCESS; an uncorrectable or poisoned word fetched halts
it with HALT_CAUSE 4, TRAP_CAUSE IMEM_UE and EPC, an uncorrectable one counted; a single-bit error is corrected and, where the
instruction meets none in its data, counts one. Commands shown to complete here: nop, fence, trap, illegalInstruction, tret, aret.
-/
def Obligations.SystemInstructions : Prop :=
  (∀ (s : State) (n : Fin 192), issues n s → 
      (answers (.nop n) s fun t =>
        jumped n 0 0 ((s.tiller n).pc + 4) s t) ∧
      (answers (.fence n) s fun t =>
        jumped n 0 0 ((s.tiller n).pc + 4) s t) ∧
      (answers (.trap n) s fun t =>
        trapped n 7 none s t) ∧
      (answers (.illegalInstruction n) s fun t =>
        trapped n 1 none s t)) ∧
  (∀ (s : State) (n : Fin 192), issues n s → (s.tiller n).inTrap = true → 
      answers (.tret n) s fun t =>
        onlyTiller n s t ∧
        ((t.tiller n).retTrap = true ∧ pastOne (if (s.tiller n).trapCause = 7 then (s.tiller n).epc + 4 else (s.tiller n).epc) { (s.tiller n) with inTrap := false } { (t.tiller n) with retTrap := false }) ∧
        (t.tiller n).sreg = (s.tiller n).sreg ∧ (t.tiller n).vreg = (s.tiller n).vreg ∧ (t.tiller n).flags = (s.tiller n).flags) ∧
  (∀ (s : State) (n : Fin 192), issues n s → (s.tiller n).inTrap = false → 
      answers (.tret n) s fun t =>
        trapped n 1 none s t) ∧
  (∀ (s : State) (n : Fin 192), issues n s → (s.tiller n).inAttn = true ∧ (s.tiller n).inTrap = false → 
      answers (.aret n) s fun t =>
        onlyTiller n s t ∧
        (t.tiller n).retAttn = true ∧ pastOne (s.tiller n).attnPc { (s.tiller n) with inAttn := false } { (t.tiller n) with retAttn := false } ∧
        (t.tiller n).sreg = (s.tiller n).sreg ∧ (t.tiller n).vreg = (s.tiller n).vreg ∧ (t.tiller n).flags = (s.tiller n).savedFlags) ∧
  (∀ (s : State) (n : Fin 192), issues n s → (s.tiller n).inAttn = false ∨ (s.tiller n).inTrap = true → 
      answers (.aret n) s fun t =>
        trapped n 1 none s t) ∧
  (∀ (s : State) (c : Instr) (n : Fin 192), krytoldOf c = some n → s.tilStopped = true ∨ (s.tiller n).state ≠ .running ∨ s.diverts n = true →
      answers c s fun t => t = s) ∧
  (∀ (s : State) (c : Instr) (n : Fin 192), krytoldOf c = some n → s.tilStopped = false ∧ (s.tiller n).state = .running ∧ s.diverts n = false ∧ (s.tiller n).fresh = false ∧ s.on (F.TIL_BKPT_EN n) = true ∧ (s.tiller n).pc = 4 * s.rd (F.TIL_BKPT_WORD n) →
      answers c s fun t => onlyTiller n s t ∧ haltedBy 2 (s.tiller n) (t.tiller n)) ∧
  (∀ (s : State) (c : Instr) (n : Fin 192), krytoldOf c = some n → s.tilStopped = false ∧ (s.tiller n).state = .running ∧ s.diverts n = false ∧ ((s.tiller n).fresh = true ∨ s.on (F.TIL_BKPT_EN n) = false ∨ (s.tiller n).pc ≠ 4 * s.rd (F.TIL_BKPT_WORD n)) ∧ 0x8000 ≤ (s.tiller n).pc →
      answers c s fun t => trapped n 5 (some (s.tiller n).pc) s t) ∧
  (∀ (s : State) (c : Instr) (n : Fin 192), krytoldOf c = some n → s.tilStopped = false ∧ (s.tiller n).state = .running ∧ s.diverts n = false ∧ ((s.tiller n).fresh = true ∨ s.on (F.TIL_BKPT_EN n) = false ∨ (s.tiller n).pc ≠ 4 * s.rd (F.TIL_BKPT_WORD n)) ∧ (s.tiller n).pc < 0x8000 ∧ (Tab.get okCond (s.tiller n).imemCond ((s.tiller n).pc / 4)).bad = true →
      answers c s fun t => haltedBy 4 { s.tiller n with trapCause := 2, epc := (s.tiller n).pc, fresh := false } (t.tiller n) ∧ othersKeep n s t ∧ t.rd (F.TIL_ECC_UE_CNT_COUNT n) = min (s.rd (F.TIL_ECC_UE_CNT_COUNT n) + (if (Tab.get okCond (s.tiller n).imemCond ((s.tiller n).pc / 4)) = .ue then 1 else 0)) (2 ^ 32 - 1)) ∧
  (∀ (s : State) (c : Instr) (n : Fin 192), krytoldOf c = some n → s.tilStopped = false ∧ (s.tiller n).state = .running ∧ s.diverts n = false ∧ ((s.tiller n).fresh = true ∨ s.on (F.TIL_BKPT_EN n) = false ∨ (s.tiller n).pc ≠ 4 * s.rd (F.TIL_BKPT_WORD n)) ∧ (s.tiller n).pc < 0x8000 ∧ (Tab.get okCond (s.tiller n).imemCond ((s.tiller n).pc / 4)) = .ce →
      answers c s fun t => Tab.get okCond (t.tiller n).imemCond ((s.tiller n).pc / 4) = .ok ∧ (krytoldErr c = false → t.rd (F.TIL_ECC_CE_CNT_COUNT n) = min (s.rd (F.TIL_ECC_CE_CNT_COUNT n) + 1) (2 ^ 32 - 1)))

/-- Operands that no encoding admits raise ILLEGAL. A branch with a reserved condition, a vector shift by the lane width or more, a
32-bit lane above 3, an odd va of VMACC and an FRECV to an odd register or to s0 raise ILLEGAL, with TRAP_ADDR unchanged and no
other effect (that a row can carry such operands is the model's: log entry 84). Commands shown to complete here: bc, vslli, vsrli,
vsrai, vext, vins, vmacc, frecvN, frecvW. -/
def Obligations.IllegalOperandsTrap : Prop :=
  (∀ (s : State) (n : Fin 192) (cond : Fin 16) (off : BitVec 22), issues n s → 12 ≤ cond.val ∧ cond.val ≤ 14 → 
      answers (.bc n cond off) s fun t =>
        trapped n 1 none s t) ∧
  (∀ (s : State) (til : Fin 192) (w : Bool) (vd va n : Fin 32), issues til s → ((if w then 32 else 16) ≤ n.val) → 
      (answers (.vslli til w vd va n) s fun t =>
        trapped til 1 none s t) ∧
      (answers (.vsrli til w vd va n) s fun t =>
        trapped til 1 none s t) ∧
      (answers (.vsrai til w vd va n) s fun t =>
        trapped til 1 none s t)) ∧
  (∀ (s : State) (n : Fin 192) (w : Bool) (vd ra : Fin 32) (lane : Fin 8), issues n s → w = true ∧ 4 ≤ lane.val → 
      (answers (.vext n w vd ra lane) s fun t =>
        trapped n 1 none s t) ∧
      (answers (.vins n w vd ra lane) s fun t =>
        trapped n 1 none s t)) ∧
  (∀ (s : State) (n : Fin 192) (vd va vb : Fin 32) (p : Fin 2), issues n s → va.val % 2 = 1 → 
      answers (.vmacc n vd va vb p) s fun t =>
        trapped n 1 none s t) ∧
  (∀ (s : State) (n : Fin 192) (rd : Fin 32), issues n s → rd.val % 2 = 1 ∨ rd = 0 → 
      (answers (.frecvN n rd) s fun t =>
        trapped n 1 none s t) ∧
      (answers (.frecvW n rd) s fun t =>
        trapped n 1 none s t))

/-- RUN, HALT, STEP, MEM_INIT, TIL_PC and the breakpoint. With the tiller clock running, RUN starts a HALTED tiller at TIL_PC (a
reference program due to start afresh does, and one whose EMIT a halt abandoned issues it again: it stalls for admission, or gets
STALE), HALT asks a running or stalled one to stop and is nothing to a halted one, MEM_INIT puts a halted one in INIT, and a write
of an aligned IMEM address to TIL_PC of a halted one sets PC and clears IN_TRAP and IN_ATTN. STEP of a halted tiller takes a due
attention, then runs the instruction that the word at PC spells, a single-bit error in it corrected and counted, and then
reconsiders the derate sources; with an abandoned EMIT it issues that EMIT; with a HALT still asked for it issues nothing; a word
that is no instruction raises ILLEGAL, a PC outside IMEM ACCESS, and an uncorrectable word ends it with HALT_CAUSE 4. Each in
another STATE, and a TIL_PC outside IMEM or misaligned, changes no tiller and raises SYS_CFG_REJECT. A requested halt at a boundary
halts with HALT_CAUSE 1 and abandons what is stalled; MEM_INIT completes with both memories, every register and FLAGS 0 and
HALT_CAUSE 0; a breakpoint halts with HALT_CAUSE 2 at its PC; where their condition does not hold these three change nothing.
Commands shown to complete here: run, halt, memInit, step, haltAtBoundary, memInitComplete, tilPcWrite, breakpoint. -/
def Obligations.TillerCommands : Prop :=
  (∀ (s : State) (n : Fin 192), s.tilStopped = false → (s.tiller n).state = .halted → 
      (answers (.run n) s fun t =>
        (((s.tiller n).refRedo = none ∨ ((s.tiller n).refRuns = true ∧ (s.tiller n).refFresh = true)) → t.tiller n = (let x0 := if (s.tiller n).refRuns && (s.tiller n).refFresh then (s.tiller n).refStart else (s.tiller n); { x0 with state := .running, stepping := false, fresh := true })) ∧
        (t.tiller n).state ≠ .halted ∧ othersKeep n s t) ∧
      (answers (.halt n) s fun t =>
        t = s.accessed) ∧
      (answers (.memInit n) s fun t =>
        t.tiller n = { (s.tiller n) with state := .init, refRuns := false } ∧
        othersKeep n s t)) ∧
  (∀ (s : State) (n : Fin 192) (len : Nat), s.tilStopped = false → (s.tiller n).state = .halted ∧ (s.tiller n).refRedo = some len ∧ (s.tiller n).refFresh = false → 
      answers (.run n) s fun t =>
        (if (s.tiller n).own.map Prod.snd = some ((s.tiller n).blockWord 0x10000 2 / 2 ^ 8) ∧ (s.tiller n).emitted = false then t.tiller n = { (s.tiller n) with state := .stalled, stepping := false, fresh := true, refRedo := none, stall := some (.emit 0 0x10000 len) } else t.tiller n = { (s.tiller n) with state := .running, stepping := false, fresh := true, refRedo := none } ∧ t.rd (F.TIL_CNT_STALE_EMIT_COUNT n) = min (s.rd (F.TIL_CNT_STALE_EMIT_COUNT n) + 1) (2 ^ 32 - 1) ∧ (t.rd (F.TIL_EVT_CAUSE_CAUSE n)).testBit 1 = true) ∧
        othersKeep n s t) ∧
  (∀ (s : State) (n : Fin 192), s.tilStopped = false → (s.tiller n).state ≠ .halted → 
      (answers (.run n) s fun t =>
        tillersReject s t) ∧
      (answers (.memInit n) s fun t =>
        tillersReject s t)) ∧
  (∀ (s : State) (n : Fin 192), s.tilStopped = false → (s.tiller n).state = .running ∨ (s.tiller n).state = .stalled → 
      answers (.halt n) s fun t =>
        t.tiller n = { (s.tiller n) with haltReq := true } ∧
        othersKeep n s t) ∧
  (∀ (s : State) (n : Fin 192), s.tilStopped = false → (s.tiller n).state = .init → 
      answers (.halt n) s fun t =>
        tillersReject s t) ∧
  (∀ (s : State) (n : Fin 192) (t0 : Nat), s.tilStopped = false → (s.tiller n).state ≠ .halted → 
      answers (.step n t0) s fun t =>
        tillersReject s t) ∧
  (∀ (s : State) (n : Fin 192) (t0 : Nat) (k : KOp), s.tilStopped = false → (s.tiller n).state = .halted → (((s.accessed.stepStart n t0)).tiller n).haltReq = false ∧ (((s.accessed.stepStart n t0)).tiller n).refRedo = none → (((s.accessed.stepStart n t0)).tiller n).pc < 0x8000 → (Tab.get okCond (((s.accessed.stepStart n t0)).tiller n).imemCond ((((s.accessed.stepStart n t0)).tiller n).pc / 4)).bad = false → decodeKrytold ((((s.accessed.stepStart n t0)).tiller n).iword ((((s.accessed.stepStart n t0)).tiller n).pc / 4)) = some k → 
      answers (.step n t0) s fun t =>
        t = s.accessed.toScan fun v => ((runOp n t0 k ((v.stepStart n t0).stepFetch n)).stepDone n).derateCheck) ∧
  (∀ (s : State) (n : Fin 192) (t0 : Nat), s.tilStopped = false → (s.tiller n).state = .halted → (((s.accessed.stepStart n t0)).tiller n).haltReq = false ∧ (((s.accessed.stepStart n t0)).tiller n).refRedo = none → (((s.accessed.stepStart n t0)).tiller n).pc < 0x8000 → (Tab.get okCond (((s.accessed.stepStart n t0)).tiller n).imemCond ((((s.accessed.stepStart n t0)).tiller n).pc / 4)).bad = false → decodeKrytold ((((s.accessed.stepStart n t0)).tiller n).iword ((((s.accessed.stepStart n t0)).tiller n).pc / 4)) = none → 
      answers (.step n t0) s fun t =>
        trapped n 1 none ((s.accessed.stepStart n t0).stepFetch n) t) ∧
  (∀ (s : State) (n : Fin 192) (t0 : Nat), s.tilStopped = false → (s.tiller n).state = .halted → (((s.accessed.stepStart n t0)).tiller n).haltReq = false ∧ (((s.accessed.stepStart n t0)).tiller n).refRedo = none → 0x8000 ≤ (((s.accessed.stepStart n t0)).tiller n).pc → 
      answers (.step n t0) s fun t =>
        trapped n 5 (some (((s.accessed.stepStart n t0)).tiller n).pc) ((s.accessed.stepStart n t0).onTiller n fun x => { x with fresh := false }) t) ∧
  (∀ (s : State) (n : Fin 192) (t0 : Nat), s.tilStopped = false → (s.tiller n).state = .halted → (((s.accessed.stepStart n t0)).tiller n).haltReq = false ∧ (((s.accessed.stepStart n t0)).tiller n).refRedo = none → (((s.accessed.stepStart n t0)).tiller n).pc < 0x8000 → (Tab.get okCond (((s.accessed.stepStart n t0)).tiller n).imemCond ((((s.accessed.stepStart n t0)).tiller n).pc / 4)).bad = true → 
      answers (.step n t0) s fun t =>
        haltedBy 4 { (((s.accessed.stepStart n t0)).tiller n) with trapCause := 2, epc := (((s.accessed.stepStart n t0)).tiller n).pc, fresh := false, stall := none, refRuns := (((s.accessed.stepStart n t0)).tiller n).refRuns } (t.tiller n) ∧ othersKeep n (s.accessed.stepStart n t0) t ∧
        (t.rd (F.TIL_ECC_UE_CNT_COUNT n) = min ((s.accessed.stepStart n t0).rd (F.TIL_ECC_UE_CNT_COUNT n) + (if (Tab.get okCond (((s.accessed.stepStart n t0)).tiller n).imemCond ((((s.accessed.stepStart n t0)).tiller n).pc / 4)) = .ue then 1 else 0)) (2 ^ 32 - 1))) ∧
  (∀ (s : State) (n : Fin 192) (t0 : Nat), s.tilStopped = false → (s.tiller n).state = .halted → (((s.accessed.stepStart n t0)).tiller n).refRedo = none ∧ (((s.accessed.stepStart n t0)).tiller n).haltReq = true → 
      answers (.step n t0) s fun t =>
        t = s.accessed.toScan fun v => (v.stepStart n t0).derateCheck) ∧
  (∀ (s : State) (n : Fin 192) (t0 len : Nat), s.tilStopped = false → (s.tiller n).state = .halted → (((s.accessed.stepStart n t0)).tiller n).refRedo = some len → 
      answers (.step n t0) s fun t =>
        (if (((s.accessed.stepStart n t0)).tiller n).own.map Prod.snd = some ((((s.accessed.stepStart n t0)).tiller n).blockWord 0x10000 2 / 2 ^ 8) ∧ (((s.accessed.stepStart n t0)).tiller n).emitted = false then (t.tiller n).state = .stalled ∧ (t.tiller n).stall = some (.emit 0 0x10000 len) ∧ (t.tiller n).stepping = true else (t.tiller n).state = .halted ∧ (t.tiller n).haltCause = 2 ∧ t.rd (F.TIL_CNT_STALE_EMIT_COUNT n) = min ((s.accessed.stepStart n t0).rd (F.TIL_CNT_STALE_EMIT_COUNT n) + 1) (2 ^ 32 - 1) ∧ (t.rd (F.TIL_EVT_CAUSE_CAUSE n)).testBit 1 = true) ∧
        othersKeep n (s.accessed.stepStart n t0) t ∧ (t.tiller n).refRedo = none) ∧
  (∀ (s : State) (n : Fin 192), s.tilStopped = false → (s.tiller n).haltReq = true ∧ (s.tiller n).transferring = false → (s.tiller n).state = .running ∨ (s.tiller n).state = .stalled → 
      answers (.haltAtBoundary n) s fun t =>
        haltedBy 1 (s.tiller n) (t.tiller n) ∧
        t = s.setTiller n (t.tiller n)) ∧
  (∀ (s : State) (n : Fin 192), s.tilStopped = true ∨ (s.tiller n).haltReq = false ∨ (s.tiller n).transferring = true ∨ (s.tiller n).state = .halted ∨ (s.tiller n).state = .init → 
      answers (.haltAtBoundary n) s fun t =>
        t = s) ∧
  (∀ (s : State) (n : Fin 192), s.tilStopped = false → (s.tiller n).state = .init → 
      answers (.memInitComplete n) s fun t =>
        (t.tiller n).imem = [] ∧ (t.tiller n).dmem = [] ∧ (t.tiller n).imemCond = [] ∧ (t.tiller n).dmemCond = [] ∧
        (∀ r : Fin 32, (t.tiller n).s r = 0 ∧ (t.tiller n).v r = 0) ∧
        (t.tiller n).flags = 0 ∧ (t.tiller n).pc = 0 ∧ (t.tiller n).state = .halted ∧ (t.tiller n).haltCause = 0 ∧ (t.tiller n).scrub = 0 ∧
        t = s.setTiller n (t.tiller n)) ∧
  (∀ (s : State) (n : Fin 192), s.tilStopped = true ∨ (s.tiller n).state ≠ .init → 
      answers (.memInitComplete n) s fun t =>
        t = s) ∧
  (∀ (s : State) (n : Fin 192) (w : Word), s.tilStopped = false → (s.tiller n).state = .halted → w.toNat % 4 = 0 ∧ w.toNat < 0x8000 → 
      answers (.tilPcWrite n w) s fun t =>
        t = s.accessed.setTiller n { (s.tiller n) with pc := w.toNat, inTrap := false, inAttn := false, refFresh := (s.tiller n).refFresh || w == 0, refRedo := none }) ∧
  (∀ (s : State) (n : Fin 192) (w : Word), s.tilStopped = false → (s.tiller n).state ≠ .halted ∨ w.toNat % 4 ≠ 0 ∨ 0x8000 ≤ w.toNat → 
      answers (.tilPcWrite n w) s fun t =>
        rejected s t) ∧
  (∀ (s : State) (n : Fin 192), s.tilStopped = false ∧ s.diverts n = false → (s.tiller n).state = .running ∧ (s.tiller n).fresh = false → s.on (F.TIL_BKPT_EN n) = true → (s.tiller n).pc = 4 * s.rd (F.TIL_BKPT_WORD n) → 
      answers (.breakpoint n) s fun t =>
        haltedBy 2 (s.tiller n) (t.tiller n) ∧
        t = s.setTiller n (t.tiller n)) ∧
  (∀ (s : State) (n : Fin 192), s.tilStopped = true ∨ s.diverts n = true ∨ (s.tiller n).state ≠ .running ∨ (s.tiller n).fresh = true ∨ s.on (F.TIL_BKPT_EN n) = false ∨ (s.tiller n).pc ≠ 4 * s.rd (F.TIL_BKPT_WORD n) → 
      answers (.breakpoint n) s fun t =>
        t = s)

/-- The tiller memory window, group commands and the scrubber. An aligned host write of 4 or 8 bytes to DMEM puts its bytes there,
and one to IMEM does while the tiller is HALTED; one to IMEM in another STATE changes no tiller and raises SYS_CFG_REJECT. With
BCAST = 1 a write to tiller 0's stride is applied to the selected tillers and no other. An access of another size, misaligned or
outside the memories is rejected. An aligned read of clean words returns their bytes, least significant first. Group RUN starts
every selected halted tiller and group HALT asks every selected running or stalled one, and no other; SYS_CFG_REJECT is raised when
one ignored it. A read corrects and counts a single-bit error, counts an uncorrectable one without cause, and during MEM_INIT
returns the word or 0. A scrub read moves to the next word; a single-bit error it finds is counted and corrected, an uncorrectable
one is left and counted, a fresh one setting DMEM_UE; with the tillers stopped it does nothing. Commands shown to complete here:
tillerMemoryWrite, broadcastWrite, tillerMemoryRead, groupRun, groupHalt, scrubRead. -/
def Obligations.TillerMemoryWindow : Prop :=
  (∀ (s : State) (n : Fin 192) (ofs bytes : Nat) (data : BitVec 64), s.tilStopped = false → (0x10000 ≤ ofs ∧ ofs < 0x20000) → bytes = 4 ∨ bytes = 8 → ofs % bytes = 0 → n ≠ 0 ∨ s.on F.TIL_LOAD_CFG_BCAST = false → 
      answers (.tillerMemoryWrite n ofs bytes data) s fun t =>
        putsBytes 65536 (ofs - 0x10000) bytes data.toNat (s.tiller n).dmem (t.tiller n).dmem ∧
        (t.tiller n) = { (s.tiller n) with dmem := (t.tiller n).dmem, dmemCond := (t.tiller n).dmemCond } ∧
        othersKeep n s t) ∧
  (∀ (s : State) (n : Fin 192) (ofs bytes : Nat) (data : BitVec 64), s.tilStopped = false → ofs < 0x8000 → bytes = 4 ∨ bytes = 8 → ofs % bytes = 0 → n ≠ 0 ∨ s.on F.TIL_LOAD_CFG_BCAST = false → (s.tiller n).state = .halted → 
      answers (.tillerMemoryWrite n ofs bytes data) s fun t =>
        putsBytes 32768 ofs bytes data.toNat (s.tiller n).imem (t.tiller n).imem ∧
        (t.tiller n) = { (s.tiller n) with imem := (t.tiller n).imem, imemCond := (t.tiller n).imemCond, refRuns := false } ∧
        othersKeep n s t) ∧
  (∀ (s : State) (n : Fin 192) (ofs bytes : Nat) (data : BitVec 64), s.tilStopped = false → ofs < 0x8000 → bytes = 4 ∨ bytes = 8 → ofs % bytes = 0 → n ≠ 0 ∨ s.on F.TIL_LOAD_CFG_BCAST = false → (s.tiller n).state ≠ .halted → 
      answers (.tillerMemoryWrite n ofs bytes data) s fun t =>
        tillersReject s t) ∧
  (∀ (s : State) (ofs bytes : Nat) (data : BitVec 64), s.tilStopped = false → (0x10000 ≤ ofs ∧ ofs < 0x20000) → bytes = 4 ∨ bytes = 8 → ofs % bytes = 0 → s.on F.TIL_LOAD_CFG_BCAST = true → 
      (answers (.broadcastWrite ofs bytes data) s fun t =>
        ∀ m : Fin 192, if s.selected m then putsBytes 65536 (ofs - 0x10000) bytes data.toNat (s.tiller m).dmem (t.tiller m).dmem ∧ t.tiller m = { s.tiller m with dmem := (t.tiller m).dmem, dmemCond := (t.tiller m).dmemCond } else t.tiller m = s.tiller m) ∧
      (answers (.tillerMemoryWrite 0 ofs bytes data) s fun t =>
        ∀ m : Fin 192, if s.selected m then putsBytes 65536 (ofs - 0x10000) bytes data.toNat (s.tiller m).dmem (t.tiller m).dmem ∧ t.tiller m = { s.tiller m with dmem := (t.tiller m).dmem, dmemCond := (t.tiller m).dmemCond } else t.tiller m = s.tiller m)) ∧
  (∀ (s : State) (ofs bytes : Nat) (data : BitVec 64), s.tilStopped = false → ofs < 0x8000 → bytes = 4 ∨ bytes = 8 → ofs % bytes = 0 → s.on F.TIL_LOAD_CFG_BCAST = true → 
      (answers (.broadcastWrite ofs bytes data) s fun t =>
        (∀ m : Fin 192, if s.selected m ∧ (s.tiller m).state = .halted then putsBytes 32768 ofs bytes data.toNat (s.tiller m).imem (t.tiller m).imem ∧ t.tiller m = { s.tiller m with imem := (t.tiller m).imem, imemCond := (t.tiller m).imemCond, refRuns := false } else t.tiller m = s.tiller m) ∧
        ((∃ m : Fin 192, s.selected m = true ∧ (s.tiller m).state ≠ .halted) → 3 ∈ t.raised)) ∧
      (answers (.tillerMemoryWrite 0 ofs bytes data) s fun t =>
        (∀ m : Fin 192, if s.selected m ∧ (s.tiller m).state = .halted then putsBytes 32768 ofs bytes data.toNat (s.tiller m).imem (t.tiller m).imem ∧ t.tiller m = { s.tiller m with imem := (t.tiller m).imem, imemCond := (t.tiller m).imemCond, refRuns := false } else t.tiller m = s.tiller m) ∧
        ((∃ m : Fin 192, s.selected m = true ∧ (s.tiller m).state ≠ .halted) → 3 ∈ t.raised))) ∧
  (∀ (s : State) (ofs bytes : Nat) (data : BitVec 64), s.on F.TIL_LOAD_CFG_BCAST = false →
      exec (.broadcastWrite ofs bytes data) s = exec (.tillerMemoryWrite 0 ofs bytes data) s) ∧
  (∀ (s : State) (n : Fin 192) (ofs bytes : Nat) (data : BitVec 64), s.tilStopped = false → ¬ (bytes = 4 ∨ bytes = 8) ∨ ofs % bytes ≠ 0 ∨ (0x8000 ≤ ofs ∧ ofs < 0x10000) ∨ 0x20000 ≤ ofs → 
      (answers (.tillerMemoryWrite n ofs bytes data) s fun t =>
        rejected s t) ∧
      (answers (.broadcastWrite ofs bytes data) s fun t =>
        rejected s t)) ∧
  (∀ (s : State) (n : Fin 192) (ofs bytes : Nat), s.tilStopped = false → (bytes = 0 ∨ ofs % (if bytes = 3 then 4 else bytes) ≠ 0 ∨ (0x8000 ≤ ofs ∧ ofs < 0x10000) ∨ 0x20000 ≤ ofs) → 
      answers (.tillerMemoryRead n ofs bytes) s fun t =>
        t = { s.accessed.raise 3 with sys := { s.sys with rdata := 0 } }) ∧
  (∀ (s : State) (n : Fin 192) (ofs : Nat), s.tilStopped = false → ofs % 4 = 0 ∧ (ofs < 0x8000 ∨ (0x10000 ≤ ofs ∧ ofs < 0x20000)) → (s.tiller n).state ≠ .init → 
      answers (.tillerMemoryRead n ofs 4) s fun t =>
        (t.sys.rdata = (if ofs < 0x8000 then (s.tiller n).iword (ofs / 4) else (s.tiller n).dword ((ofs - 0x10000) / 4)).toNat) ∧
        ((Tab.get okCond (if ofs < 0x8000 then (s.tiller n).imemCond else (s.tiller n).dmemCond) ((if ofs < 0x8000 then ofs else ofs - 0x10000) / 4)) = .ce → (Tab.get okCond (if ofs < 0x8000 then (t.tiller n).imemCond else (t.tiller n).dmemCond) ((if ofs < 0x8000 then ofs else ofs - 0x10000) / 4)) = .ok ∧ t.rd (F.TIL_ECC_CE_CNT_COUNT n) = min (s.rd (F.TIL_ECC_CE_CNT_COUNT n) + 1) (2 ^ 32 - 1)) ∧
        ((Tab.get okCond (if ofs < 0x8000 then (s.tiller n).imemCond else (s.tiller n).dmemCond) ((if ofs < 0x8000 then ofs else ofs - 0x10000) / 4)) = .ue → t.til = s.til ∧ t.rd (F.TIL_ECC_UE_CNT_COUNT n) = min (s.rd (F.TIL_ECC_UE_CNT_COUNT n) + 1) (2 ^ 32 - 1) ∧ t.rd (F.TIL_EVT_CAUSE_CAUSE n) = s.rd (F.TIL_EVT_CAUSE_CAUSE n)) ∧
        ((Tab.get okCond (if ofs < 0x8000 then (s.tiller n).imemCond else (s.tiller n).dmemCond) ((if ofs < 0x8000 then ofs else ofs - 0x10000) / 4)) = .ok ∨ (Tab.get okCond (if ofs < 0x8000 then (s.tiller n).imemCond else (s.tiller n).dmemCond) ((if ofs < 0x8000 then ofs else ofs - 0x10000) / 4)) = .poison → t = { s.accessed with sys := t.sys })) ∧
  (∀ (s : State) (n : Fin 192) (ofs : Nat), s.tilStopped = false → ofs % 4 = 0 ∧ (ofs < 0x8000 ∨ (0x10000 ≤ ofs ∧ ofs < 0x20000)) → (s.tiller n).state = .init → 
      answers (.tillerMemoryRead n ofs 4) s fun t =>
        (t.sys.rdata = (if ofs < 0x8000 then (s.tiller n).iword (ofs / 4) else (s.tiller n).dword ((ofs - 0x10000) / 4)).toNat ∨ t.sys.rdata = 0) ∧
        (∀ m : Fin 192, m ≠ n → t.tiller m = s.tiller m) ∧
        ((t.tiller n) = { (s.tiller n) with dmemCond := (t.tiller n).dmemCond, imemCond := (t.tiller n).imemCond } ∧ ((Tab.get okCond (if ofs < 0x8000 then (t.tiller n).imemCond else (t.tiller n).dmemCond) ((if ofs < 0x8000 then ofs else ofs - 0x10000) / 4)) = (Tab.get okCond (if ofs < 0x8000 then (s.tiller n).imemCond else (s.tiller n).dmemCond) ((if ofs < 0x8000 then ofs else ofs - 0x10000) / 4)) ∨ (Tab.get okCond (if ofs < 0x8000 then (t.tiller n).imemCond else (t.tiller n).dmemCond) ((if ofs < 0x8000 then ofs else ofs - 0x10000) / 4)) = .ok))) ∧
  (∀ (s : State) (n : Fin 192) (ofs bytes : Nat), s.tilStopped = false → (0x10000 ≤ ofs ∧ ofs < 0x20000) → bytes = 1 ∨ bytes = 2 ∨ bytes = 4 ∨ bytes = 8 → ofs % bytes = 0 → (s.tiller n).state ≠ .init → (∀ e ∈ (s.tiller n).dmemCond, e.2 = .ok) → 
      answers (.tillerMemoryRead n ofs bytes) s fun t =>
        (∀ i : Fin 8, i.val < bytes → t.sys.rdata / 2 ^ (8 * i.val) % 256 = (s.dbyte n (ofs - 0x10000 + i)).toNat) ∧
        t.sys.rdata < 2 ^ (8 * bytes) ∧
        t.til = s.til) ∧
  (∀ (s : State) (n : Fin 192) (ofs bytes : Nat), s.tilStopped = false → ofs < 0x8000 → bytes = 1 ∨ bytes = 2 ∨ bytes = 4 ∨ bytes = 8 → ofs % bytes = 0 → (s.tiller n).state ≠ .init → (∀ e ∈ (s.tiller n).imemCond, e.2 = .ok) → 
      answers (.tillerMemoryRead n ofs bytes) s fun t =>
        (∀ i : Fin 8, i.val < bytes → t.sys.rdata / 2 ^ (8 * i.val) % 256 = (Tab.get (fun _ => (0 : Byte)) (s.tiller n).imem (ofs + i)).toNat) ∧
        t.sys.rdata < 2 ^ (8 * bytes) ∧
        t.til = s.til) ∧
  (∀ (s : State), s.tilStopped = false → 
      (answers .groupRun s fun t =>
        (∀ m : Fin 192, if s.selected m ∧ (s.tiller m).state = .halted then (t.tiller m).state ≠ .halted ∧ (((s.tiller m).refRedo = none ∨ ((s.tiller m).refRuns = true ∧ (s.tiller m).refFresh = true)) → t.tiller m = (let x0 := if (s.tiller m).refRuns && (s.tiller m).refFresh then (s.tiller m).refStart else (s.tiller m); { x0 with state := .running, stepping := false, fresh := true })) else t.tiller m = s.tiller m) ∧
        ((∃ m : Fin 192, s.selected m = true ∧ (s.tiller m).state ≠ .halted) → 3 ∈ t.raised)) ∧
      (answers .groupHalt s fun t =>
        (∀ m : Fin 192, t.tiller m = if s.selected m ∧ ((s.tiller m).state = .running ∨ (s.tiller m).state = .stalled) then { s.tiller m with haltReq := true } else s.tiller m) ∧
        ((∃ m : Fin 192, s.selected m = true ∧ (s.tiller m).state = .init) → 3 ∈ t.raised))) ∧
  (∀ (s : State) (n : Fin 192) (found : Fin 3), s.tilStopped = true → 
      answers (.scrubRead n found) s fun t =>
        t = s) ∧
  (∀ (s : State) (n : Fin 192) (found : Fin 3), s.tilStopped = false → ((Tab.get okCond (if 8192 ≤ (s.tiller n).scrub then (s.tiller n).dmemCond else (s.tiller n).imemCond) (if 8192 ≤ (s.tiller n).scrub then (s.tiller n).scrub - 8192 else (s.tiller n).scrub)) ≠ .ok) → 
      answers (.scrubRead n found) s fun t =>
        (t.tiller n) = { (s.tiller n) with scrub := ((s.tiller n).scrub + 1) % 24576, dmemCond := (t.tiller n).dmemCond, imemCond := (t.tiller n).imemCond } ∧
        ((if (Tab.get okCond (if 8192 ≤ (s.tiller n).scrub then (s.tiller n).dmemCond else (s.tiller n).imemCond) (if 8192 ≤ (s.tiller n).scrub then (s.tiller n).scrub - 8192 else (s.tiller n).scrub)) = .ce then t.rd (F.TIL_ECC_CE_CNT_COUNT n) = min (s.rd (F.TIL_ECC_CE_CNT_COUNT n) + 1) (2 ^ 32 - 1) ∧ Tab.get okCond (if 8192 ≤ (s.tiller n).scrub then (t.tiller n).dmemCond else (t.tiller n).imemCond) (if 8192 ≤ (s.tiller n).scrub then (s.tiller n).scrub - 8192 else (s.tiller n).scrub) = .ok else (t.tiller n).dmemCond = (s.tiller n).dmemCond ∧ (t.tiller n).imemCond = (s.tiller n).imemCond)) ∧
        (t.rd (F.TIL_ECC_UE_CNT_COUNT n) = min (s.rd (F.TIL_ECC_UE_CNT_COUNT n) + (if (Tab.get okCond (if 8192 ≤ (s.tiller n).scrub then (s.tiller n).dmemCond else (s.tiller n).imemCond) (if 8192 ≤ (s.tiller n).scrub then (s.tiller n).scrub - 8192 else (s.tiller n).scrub)) = .ue then 1 else 0)) (2 ^ 32 - 1)) ∧
        othersKeep n s t) ∧
  (∀ (s : State) (n : Fin 192), s.tilStopped = false → 
      answers (.scrubRead n 0) s fun t =>
        ((Tab.get (fun _ => Cond.ok) (if 8192 ≤ (s.tiller n).scrub then (s.tiller n).dmemCond else (s.tiller n).imemCond) (if 8192 ≤ (s.tiller n).scrub then (s.tiller n).scrub - 8192 else (s.tiller n).scrub) = .ok → t.regs = s.regs)) ∧
        (t.tiller n).scrub = ((s.tiller n).scrub + 1) % 24576 ∧
        (t.tiller n).dmem = (s.tiller n).dmem ∧ (t.tiller n).imem = (s.tiller n).imem ∧
        othersKeep n s t) ∧
  (∀ (s : State) (n : Fin 192), s.tilStopped = false → (s.tiller n).scrub < 8192 → (Tab.get (fun _ => Cond.ok) (s.tiller n).imemCond (s.tiller n).scrub = .ok) → 
      (answers (.scrubRead n 1) s fun t =>
        (t.tiller n).scrub = (s.tiller n).scrub + 1 ∧
        (Tab.get (fun _ => Cond.ok) (t.tiller n).imemCond (s.tiller n).scrub = .ok) ∧
        t.rd (F.TIL_ECC_CE_CNT_COUNT n) = min (s.rd (F.TIL_ECC_CE_CNT_COUNT n) + 1) (2 ^ 32 - 1)) ∧
      (answers (.scrubRead n 2) s fun t =>
        (t.tiller n).scrub = (s.tiller n).scrub + 1 ∧
        (Tab.get (fun _ => Cond.ok) (t.tiller n).imemCond (s.tiller n).scrub = .ue) ∧
        t.rd (F.TIL_ECC_UE_CNT_COUNT n) = min (s.rd (F.TIL_ECC_UE_CNT_COUNT n) + 1) (2 ^ 32 - 1) ∧
        (t.rd (F.TIL_EVT_CAUSE_CAUSE n)).testBit 5 = true))

/-- Attention, the end of ownership and the path of an emitted block. A running tiller with MSG_ATTN = 1 and a pending source,
outside both handlers and with no HALT waiting, saves PC and FLAGS, shows its sources in ATTN_SRC, sets IN_ATTN and goes to
TIL_ATTN_VEC; the reference program answers every candidate message in front and is back where it was. DL_REMAIN at DL_ALARM makes
the alarm pending once per point cycle. An uncorrectable fetch halts with HALT_CAUSE 4 and TRAP_CAUSE IMEM_UE at EPC. With no point
cycle running, OWNERSHIP_END takes every owned bank, and counts a DROPPED block of each furrow whose block had not left; with one
running it does nothing. Admission gives the free queue to the next requester in round-robin order when its block fits beside the
DROPPED reserve, adds the cycles waited either way, and admits none otherwise. When the last byte is taken, the block enters the
queue with its CRC-32C, single-bit errors corrected, EMITTED is set, TIL_CNT_EMIT counts and rd gets ACCEPTED; with an uncorrectable
or poisoned word its CRC is inverted, and an uncorrectable one sets EMIT_POISON. Where the conditions do not hold, and while the
tillers are stopped or held, nothing changes. Commands shown to complete here: attention, dlAlarm, imemUeFetch, ownershipEnd,
emitAdmission, blockAccepted. -/
def Obligations.AttentionAndBlocks : Prop :=
  (∀ (s : State) (n : Fin 192) (t0 : Nat), s.tilStopped = false → (s.tiller n).state = .running ∧ (s.tiller n).haltReq = false ∧ (s.tiller n).inAttn = false ∧ (s.tiller n).inTrap = false ∧ (s.tiller n).refRuns = false → s.on (F.TIL_CFG_MSG_ATTN n) = true → (s.tiller n).pendMsg = true ∨ (s.tiller n).pendDl = true → 
      answers (.attention n t0) s fun t =>
        ((t.tiller n) = { (s.tiller n) with attnPc := (s.tiller n).pc, savedFlags := (s.tiller n).flags, inAttn := true, pc := 4 * s.rd (F.TIL_ATTN_VEC_WORD n), attnSrc := (if (s.tiller n).pendMsg then 1 else 0) + (if (s.tiller n).pendDl then 2 else 0), pendMsg := false, pendDl := false }) ∧
        othersKeep n s t) ∧
  (∀ (s : State) (n : Fin 192) (t0 : Nat), s.tilStopped = false → (s.tiller n).state = .running ∧ (s.tiller n).haltReq = false ∧ (s.tiller n).inAttn = false ∧ (s.tiller n).inTrap = false ∧ (s.tiller n).refRuns = true → s.on (F.TIL_CFG_MSG_ATTN n) = true → (s.tiller n).pendMsg = true ∨ (s.tiller n).pendDl = true → 
      answers (.attention n t0) s fun t =>
        ((t.tiller n).pc = (s.tiller n).pc ∧ (t.tiller n).flags = (s.tiller n).flags ∧ (t.tiller n).inAttn = false ∧ (t.tiller n).pendMsg = false ∧ (t.tiller n).pendDl = false ∧ (t.tiller n).attnSrc = (if (s.tiller n).pendMsg then 1 else 0) + (if (s.tiller n).pendDl then 2 else 0)) ∧
        ((t.tiller n).state = .running ∧ ((t.tiller n).candQ.head?.all fun m => !isCandidate m) = true) ∧
        othersKeep n s t) ∧
  (∀ (s : State) (n : Fin 192) (t0 : Nat), s.tilStopped = true ∨ (s.tiller n).state ≠ .running ∨ (s.tiller n).haltReq = true ∨ (s.tiller n).inAttn = true ∨ (s.tiller n).inTrap = true ∨ s.on (F.TIL_CFG_MSG_ATTN n) = false ∨ ((s.tiller n).pendMsg = false ∧ (s.tiller n).pendDl = false) → 
      answers (.attention n t0) s fun t =>
        t = s) ∧
  (∀ (s : State) (n : Fin 192), s.running = true → s.on (F.TIL_CFG_MSG_ATTN n) = true → s.rd (F.TIL_ATTN_CFG_DL_ALARM n) ≠ 0 → (s.tiller n).dlFired = false → 
      answers (.dlAlarm n) s fun t =>
        t = s.setTiller n { (s.tiller n) with pendDl := true, dlFired := true }) ∧
  (∀ (s : State) (n : Fin 192), s.running = false ∨ s.on (F.TIL_CFG_MSG_ATTN n) = false ∨ s.rd (F.TIL_ATTN_CFG_DL_ALARM n) = 0 ∨ (s.tiller n).dlFired = true → 
      answers (.dlAlarm n) s fun t =>
        t = s) ∧
  (∀ (s : State) (n : Fin 192), issues n s → 
      answers (.imemUeFetch n) s fun t =>
        (t.tiller n).state = .halted ∧ (t.tiller n).haltCause = 4 ∧ (t.tiller n).trapCause = 2 ∧ (t.tiller n).epc = (s.tiller n).pc ∧ (t.tiller n).pc = (s.tiller n).pc ∧ (t.tiller n).inTrap = (s.tiller n).inTrap ∧
        (t.tiller n).sreg = (s.tiller n).sreg ∧ (t.tiller n).vreg = (s.tiller n).vreg ∧ (t.tiller n).flags = (s.tiller n).flags ∧ (t.tiller n).dmem = (s.tiller n).dmem ∧
        t.rd (F.TIL_ECC_UE_CNT_COUNT n) = min (s.rd (F.TIL_ECC_UE_CNT_COUNT n) + 1) (2 ^ 32 - 1) ∧
        (t.rd (F.TIL_EVT_CAUSE_CAUSE n)).testBit 2 = true ∧
        othersKeep n s t) ∧
  (∀ (s : State), s.running = false → 
      answers .ownershipEnd s fun t =>
        (∀ m : Fin 192, (t.tiller m).own = none) ∧
        (∀ m : Fin 192, (s.tiller m).own = none → t.tiller m = s.tiller m) ∧
        (∀ m : Fin 192, t.rd (F.TIL_CNT_DROPPED_COUNT m) = if (s.tiller m).own.isSome ∧ (s.tiller m).emitted = false then min (s.rd (F.TIL_CNT_DROPPED_COUNT m) + 1) (2 ^ 32 - 1) else s.rd (F.TIL_CNT_DROPPED_COUNT m)) ∧
        (∀ m : Fin 192, (s.tiller m).own.isSome ∧ (s.tiller m).emitted = false → (t.rd (F.TIL_EVT_CAUSE_CAUSE m)).testBit 0 = true)) ∧
  (∀ (s : State) (waited : Nat) (n l : Nat), s.tilStopped = false → s.oq.transfer = none → s.nextEmit = some n → (s.tiller n).waitsEmit = some l → l + 4 + 8192 ≤ s.oqFree → 
      answers (.emitAdmission waited) s fun t =>
        t.oq = { s.oq with transfer := some n, lastServed := n } ∧
        (t.tiller n) = { s.tiller n with transferring := true } ∧
        (∀ m : Fin 192, m.val ≠ n → t.tiller m = s.tiller m) ∧
        t.rd F.TIL_OQ_STALL_CNT_COUNT = min (s.rd F.TIL_OQ_STALL_CNT_COUNT + waited) (2 ^ 32 - 1)) ∧
  (∀ (s : State) (waited : Nat), s.tilStopped = false → s.oq.transfer.isSome = true ∨ s.nextEmit = none → 
      answers (.emitAdmission waited) s fun t =>
        t.oq = s.oq ∧ t.til = s.til ∧
        t.rd F.TIL_OQ_STALL_CNT_COUNT = min (s.rd F.TIL_OQ_STALL_CNT_COUNT + waited) (2 ^ 32 - 1)) ∧
  (∀ (s : State) (waited n l : Nat), s.tilStopped = false → s.nextEmit = some n ∧ (s.tiller n).waitsEmit = some l → s.oqFree < l + 4 + 8192 → 
      answers (.emitAdmission waited) s fun t =>
        t.oq = s.oq ∧ t.til = s.til ∧
        t.rd F.TIL_OQ_STALL_CNT_COUNT = min (s.rd F.TIL_OQ_STALL_CNT_COUNT + waited) (2 ^ 32 - 1)) ∧
  (∀ (s : State) (waited : Nat), s.tilStopped = true → 
      (answers (.emitAdmission waited) s fun t =>
        t = s) ∧
      (answers .blockAccepted s fun t =>
        t = s)) ∧
  (∀ (s : State) (n : Fin 192), s.nextEmit = some n.val → (s.tiller n).waitsEmit.isSome = true ∧
      ∀ i : Fin 192, i.val < (n.val + 191 - s.oq.lastServed % 192) % 192 → (s.tiller ((s.oq.lastServed + 1 + i) % 192)).waitsEmit = none) ∧
  (∀ (s : State), s.tilStopped = false → s.oq.transfer = none → 
      answers .blockAccepted s fun t =>
        t = s) ∧
  (∀ (s : State) (n : Fin 192) (rd a len : Nat), s.tilStopped = false → s.oq.transfer = some n.val → (s.tiller n).stall = some (.emit rd a len) → (∀ c ∈ (s.tiller n).blockConds a len, c = .ok ∨ c = .ce) → 
      answers .blockAccepted s fun t =>
        t.oq.transfer = none ∧ t.oq.blocks = s.oq.blocks ++ [⟨n, Mem.bytes 0 (s.tiller n).dmem (a - 0x10000) len ++ bytesOf 4 (crc32c (Mem.bytes 0 (s.tiller n).dmem (a - 0x10000) len)), false⟩] ∧
        ((t.tiller n).emitted = true ∧ (t.tiller n).stall = none ∧ (t.tiller n).pc = (s.tiller n).pc + 4 ∧ (t.tiller n).state = (if (s.tiller n).stepping then .halted else .running)) ∧
        (∀ c ∈ (t.tiller n).blockConds a len, c = .ok) ∧
        (∀ r : Fin 32, (t.tiller n).s r = if r.val = rd ∧ r ≠ 0 then 0 else (s.tiller n).s r) ∧
        t.rd (F.TIL_CNT_EMIT_COUNT n) = min (s.rd (F.TIL_CNT_EMIT_COUNT n) + 1) (2 ^ 32 - 1) ∧
        othersKeep n s t) ∧
  (∀ (s : State) (n : Fin 192) (rd a len : Nat), s.tilStopped = false → s.oq.transfer = some n.val → (s.tiller n).stall = some (.emit rd a len) → (∃ c ∈ (s.tiller n).blockConds a len, c = .ue ∨ c = .poison) → 
      answers .blockAccepted s fun t =>
        t.oq.transfer = none ∧ t.oq.blocks = s.oq.blocks ++ [⟨n, Mem.bytes 0 (s.tiller n).dmem (a - 0x10000) len ++ bytesOf 4 (0xFFFFFFFF - crc32c (Mem.bytes 0 (s.tiller n).dmem (a - 0x10000) len)), true⟩] ∧
        (t.tiller n).emitted = true ∧ (t.tiller n).stall = none ∧ (t.tiller n).pc = (s.tiller n).pc + 4 ∧
        ((∃ c ∈ (s.tiller n).blockConds a len, c = .ue) → (t.rd (F.TIL_EVT_CAUSE_CAUSE n)).testBit 6 = true) ∧
        ((∀ c ∈ (s.tiller n).blockConds a len, c ≠ .ue) → t.rd (F.TIL_EVT_CAUSE_CAUSE n) = s.rd (F.TIL_EVT_CAUSE_CAUSE n) ∨ (t.rd (F.TIL_EVT_CAUSE_CAUSE n)).testBit 7 = true) ∧
        t.rd (F.TIL_CNT_EMIT_COUNT n) = min (s.rd (F.TIL_CNT_EMIT_COUNT n) + 1) (2 ^ 32 - 1) ∧
        othersKeep n s t)

/-- Mask commits, the SPAD probe and coincidence. MASK_COMMIT sets COMMIT_PENDING. Its copy, which waits for the boundary while
point cycles run and does nothing when none is pending, makes every active mask and trim its shadow, SPAD_CNT the number of enabled
SPADs, SILENT and SILENT_CNT follow, and event 69 tells of a channel fresh silent. PROBE_START opens the gate, or is rejected while
one is open; the gate's end latches the count, 0 unless the SPADs are live, and raises event 70; outside a survey nothing else
changes, and in a survey the count is kept and the next SPAD is probed. With the SPADs live, a firing past the dead time of an
enabled or probed SPAD is dated, and counted by its probe; of an enabled SPAD of a channel that is neither gated nor silent it joins
those within W; when they reach K_EFF they are used once and an edge leaves W after the first, unless the oscillator stands in its
place. A firing within the dead time, of quenched SPADs, or of a masked SPAD that is not probed does nothing. Commands shown to
complete here: maskCommit, maskCommitCopy, probeStart, probeGateEnd, spadFiring. -/
def Obligations.DetectorMasksAndEvents : Prop :=
  (∀ (s : State), s.reaches → 
      answers .maskCommit s fun t =>
        t = s.accessed.wr F.DET_STATUS_COMMIT_PENDING 1) ∧
  (∀ (s : State), s.on F.DET_STATUS_COMMIT_PENDING = true → s.running = false → 
      answers .maskCommitCopy s fun t =>
        (∀ m : Fin 576, t.reg (R.DET_SPAD_MASK_ACT m) = s.reg (R.DET_SPAD_MASK m)) ∧
        (∀ c : Fin 1152, t.rd (F.DET_CH_CFG_TRIM_ACT c) = s.rd (F.DET_CH_CFG_TRIM c) ∧ t.rd (F.DET_CH_CFG_SPAD_CNT c) = pop16 (t.maskAct c) ∧ t.on (F.DET_CH_CFG_SILENT c) = decide (pop16 (t.maskAct c) < s.rd (F.DET_CH_CFG_K_EFF c))) ∧
        t.on F.DET_STATUS_COMMIT_PENDING = false ∧
        (t.rd F.DET_SILENT_CNT_COUNT = ((List.range 1152).filter fun c => t.on (F.DET_CH_CFG_SILENT c)).length) ∧
        (s.mode ≠ mRESET → (69 ∈ t.raised ↔ 69 ∈ s.raised ∨ ∃ c : Fin 1152, t.on (F.DET_CH_CFG_SILENT c) = true ∧ s.on (F.DET_CH_CFG_SILENT c) = false))) ∧
  (∀ (s : State), s.on F.DET_STATUS_COMMIT_PENDING = false ∨ s.running = true → 
      answers .maskCommitCopy s fun t =>
        t = s) ∧
  (∀ (s : State), s.reaches → s.on F.DET_STATUS_PROBE_BUSY = false → 
      answers .probeStart s fun t =>
        t = { s.accessed.wr F.DET_STATUS_PROBE_BUSY 1 with det := { s.det with probeCount := 0 } }) ∧
  (∀ (s : State), s.reaches → s.on F.DET_STATUS_PROBE_BUSY = true → 
      answers .probeStart s fun t =>
        rejected s t) ∧
  (∀ (s : State), s.mode ≠ mRESET → s.on F.DET_STATUS_PROBE_BUSY = true → s.rd F.CAL_STATUS_ITEM ≠ 4 → 
      answers .probeGateEnd s fun t =>
        t = { s with regs := t.regs, raises := s.raises ++ [(70, s.reg R.SYS_MODE)] } ∧
        t.on F.DET_STATUS_PROBE_BUSY = false ∧
        (t.rd F.DET_PROBE_COUNT_COUNT = (if s.spadsLive then s.det.probeCount else 0) % 2 ^ 32)) ∧
  (∀ (s : State) (k : Nat), s.mode ≠ mRESET → s.on F.DET_STATUS_PROBE_BUSY = true → s.rd F.CAL_STATUS_ITEM = 4 → s.cal.surveyAt = some k ∧ k < 18432 → 
      answers .probeGateEnd s fun t =>
        t.cal.surveyAt = some (k + 1) ∧
        (Tab.get (fun _ => 0) t.cal.probes k = (if s.spadsLive then s.det.probeCount else 0) % 2 ^ 32) ∧
        70 ∈ t.raised ∧
        t.on F.DET_STATUS_PROBE_BUSY = decide (k + 1 < 18432) ∧
        (k + 1 < 18432 → 16 * t.rd F.DET_PROBE_CFG_CHANNEL + t.rd F.DET_PROBE_CFG_SPAD = k + 1 ∧ t.det.probeCount = 0)) ∧
  (∀ (s : State), s.on F.DET_STATUS_PROBE_BUSY = false → 
      answers .probeGateEnd s fun t =>
        t = s) ∧
  (∀ (s : State) (c : Fin 1152) (p : Fin 16) (u : Nat), s.spadsLive = true → ((s.maskAct c).testBit p || (s.on F.DET_STATUS_PROBE_BUSY && s.rd F.DET_PROBE_CFG_CHANNEL == (c : Nat) && s.rd F.DET_PROBE_CFG_SPAD == (p : Nat))) = true → (Tab.get (fun _ => 0) s.det.lastFiring (16 * c.val + p.val) = 0 ∨ Tab.get (fun _ => 0) s.det.lastFiring (16 * c.val + p.val) - 1 + 3000 + 500 * s.det.deadTime ≤ u) → 
      answers (.spadFiring c p u) s fun t =>
        (t.regs = s.regs ∧ t.det.lastFiring = Tab.set (fun _ => 0) s.det.lastFiring (16 * c.val + p.val) (u + 1)) ∧
        (t.det.probeCount = if (s.on F.DET_STATUS_PROBE_BUSY && s.rd F.DET_PROBE_CFG_CHANNEL == (c : Nat) && s.rd F.DET_PROBE_CFG_SPAD == (p : Nat)) then min (s.det.probeCount + 1) 0xFFFFFFFF else s.det.probeCount) ∧
        (t.det.edges = if (s.maskAct c).testBit p = true ∧ s.isGated c = false ∧ s.on (F.DET_CH_CFG_SILENT c) = false ∧ s.rd (F.DET_CH_CFG_K_EFF c) ≤ (s.firings c u).length ∧ s.rd F.TDC_TEST_CFG_SRC ≠ 1 then s.det.edges ++ [(c.val, (s.firings c u).headD u + s.coincW)] else s.det.edges) ∧
        (t.det.pendingFirings = if (s.maskAct c).testBit p = true ∧ s.isGated c = false ∧ s.on (F.DET_CH_CFG_SILENT c) = false then Tab.set (fun _ => []) s.det.pendingFirings c (if s.rd (F.DET_CH_CFG_K_EFF c) ≤ (s.firings c u).length then [] else s.firings c u) else s.det.pendingFirings)) ∧
  (∀ (s : State) (c : Fin 1152) (p : Fin 16) (u : Nat), (s.spadsLive = false ∨ ((s.maskAct c).testBit p = false ∧ (s.on F.DET_STATUS_PROBE_BUSY && s.rd F.DET_PROBE_CFG_CHANNEL == (c : Nat) && s.rd F.DET_PROBE_CFG_SPAD == (p : Nat)) = false) ∨ (Tab.get (fun _ => 0) s.det.lastFiring (16 * c.val + p.val) ≠ 0 ∧ u < Tab.get (fun _ => 0) s.det.lastFiring (16 * c.val + p.val) - 1 + 3000 + 500 * s.det.deadTime)) → 
      answers (.spadFiring c p u) s fun t =>
        t = s)

/-- The bias loop, its target and its monitor. BIAS_ENABLE starts the ramp from the measured VSPAD, and changes nothing when the
bias is enabled; BIAS_DISABLE drives VHV_SET to 0, quenches and clears BIAS_SETTLED and each monitor bit that the flapping latch
does not hold; the ramp settles with VSPAD within 100 mV of V_target, raising event 71. A loop update moves the target toward
V_target by at most SLEW and the code by the error over 16, rounded and clamped. A recompute takes V_target of R55, clamped, from
the median of three or more OK sensors, and holds T_det and raises event 68 otherwise; a new clamp raises 66, and the first 25. A
monitor entry, with the error beyond TOL, sets its bit and raises 65 or 64, the ninth within 60 s sets BIAS_FLAP and raises 67 too;
a bit clears, its error below TOL - HYST, unless latched; releasing the latch empties its history. Where these conditions do not
hold, these commands change nothing. Commands shown to complete here: biasEnable, biasDisable, biasFlapRelease, biasSettled,
biasLoopUpdate, biasTargetRecompute, tempStale, biasMonitorEntry, biasMonitorClear. -/
def Obligations.DetectorBias : Prop :=
  (∀ (s : State), s.reaches → s.on F.DET_CTRL_BIAS_EN = false → 
      answers .biasEnable s fun t =>
        t.on F.DET_CTRL_BIAS_EN = true ∧ t.on F.DET_STATUS_BIAS_SETTLED = false ∧
        t.rd F.DET_BIAS_TARGET_TARGET = s.rd F.DET_BIAS_STATUS_VSPAD_MEAS ∧
        t.det = { s.det with ramping := true }) ∧
  (∀ (s : State), s.reaches → s.on F.DET_CTRL_BIAS_EN = true → 
      answers .biasEnable s fun t =>
        t = s.accessed) ∧
  (∀ (s : State), s.reaches → 
      (answers .biasDisable s fun t =>
        t.on F.DET_CTRL_BIAS_EN = false ∧ t.on F.DET_STATUS_BIAS_SETTLED = false ∧ t.rd F.DET_BIAS_STATUS_VHV_SET_CODE = 0 ∧
        t.det = { s.det with ramping := false } ∧
        t.on F.DET_STATUS_BIAS_LOW = (s.on F.DET_STATUS_BIAS_LOW && s.det.latched.testBit 0) ∧
        t.on F.DET_STATUS_BIAS_HIGH = (s.on F.DET_STATUS_BIAS_HIGH && s.det.latched.testBit 1)) ∧
      (answers .biasFlapRelease s fun t =>
        t.on F.DET_STATUS_BIAS_FLAP = false ∧
        t.det = { s.det with latched := 0, entries := [] } ∧
        t.on F.DET_STATUS_BIAS_HIGH = (s.on F.DET_STATUS_BIAS_HIGH && s.on F.DET_STATUS_BIAS_SETTLED) ∧
        t.on F.DET_STATUS_BIAS_LOW = (s.on F.DET_STATUS_BIAS_LOW && s.on F.DET_STATUS_BIAS_SETTLED))) ∧
  (∀ (s : State), s.on F.DET_CTRL_BIAS_EN = true → s.det.ramping = true → s.tilHeld = false → ((s.rd F.DET_BIAS_STATUS_VSPAD_MEAS : Int) - s.det.vTarget).natAbs ≤ 100 → 
      answers .biasSettled s fun t =>
        t.on F.DET_STATUS_BIAS_SETTLED = true ∧
        t.det = { s.det with ramping := false } ∧
        71 ∈ t.raised) ∧
  (∀ (s : State), s.on F.DET_CTRL_BIAS_EN = false ∨ s.det.ramping = false ∨ s.tilHeld = true ∨ ¬((s.rd F.DET_BIAS_STATUS_VSPAD_MEAS : Int) - s.det.vTarget).natAbs ≤ 100 → 
      answers .biasSettled s fun t =>
        t = s) ∧
  (∀ (s : State) (meas : Nat), s.on F.DET_CTRL_BIAS_EN = true → s.tilHeld = false → s.det.vTarget < 65536 → 
      answers (.biasLoopUpdate meas) s fun t =>
        t.rd F.DET_BIAS_STATUS_VSPAD_MEAS = meas % 65536 ∧
        (t.rd F.DET_BIAS_TARGET_TARGET : Int) = s.rd F.DET_BIAS_TARGET_TARGET + clip (-50 * s.rd F.DET_BIAS_CFG_SLEW) (50 * s.rd F.DET_BIAS_CFG_SLEW) ((s.det.vTarget : Int) - s.rd F.DET_BIAS_TARGET_TARGET) ∧
        (t.rd F.DET_BIAS_STATUS_VHV_SET_CODE : Int) = clip 0 4095 (s.rd F.DET_BIAS_STATUS_VHV_SET_CODE + divRound ((t.rd F.DET_BIAS_TARGET_TARGET : Int) - t.rd F.DET_BIAS_STATUS_VSPAD_MEAS) 16)) ∧
  (∀ (s : State) (meas : Nat), s.on F.DET_CTRL_BIAS_EN = false ∨ s.tilHeld = true → 
      answers (.biasLoopUpdate meas) s fun t =>
        t = s.wr F.DET_BIAS_STATUS_VSPAD_MEAS meas) ∧
  (∀ (s : State), s.mode ≠ mRESET → 3 ≤ (s.okReadings 0 8).length ∧ s.det.tempOld = false → 
      answers .biasTargetRecompute s fun t =>
        t.on F.DET_STATUS_TEMP_STALE = false ∧
        t.rdS F.DET_BIAS_TARGET_TDET = (BitVec.ofInt 16 (median (s.okReadings 0 8))).toInt ∧
        ((t.det.vTarget : Int) = clip (50 * s.rd F.DET_BIAS_LIM_VMIN) (50 * s.rd F.DET_BIAS_LIM_VMAX) (s.rd F.DET_BIAS_VBD_VBD0 + (if s.on F.DET_BIAS_CFG_TRACK_EN then divRound (s.rd F.DET_BIAS_TC_TC * (t.rdS F.DET_BIAS_TARGET_TDET - 250)) 100 else 0) + 20 * s.rd F.DET_BIAS_CFG_VEX)) ∧
        (t.on F.DET_STATUS_BIAS_LIMIT = decide ((t.det.vTarget : Int) ≠ s.rd F.DET_BIAS_VBD_VBD0 + (if s.on F.DET_BIAS_CFG_TRACK_EN then divRound (s.rd F.DET_BIAS_TC_TC * (t.rdS F.DET_BIAS_TARGET_TDET - 250)) 100 else 0) + 20 * s.rd F.DET_BIAS_CFG_VEX)) ∧
        (t.on F.DET_STATUS_BIAS_LIMIT = true ∧ s.on F.DET_STATUS_BIAS_LIMIT = false → 66 ∈ t.raised) ∧
        (t.on F.DET_STATUS_BIAS_LIMIT = true ∧ s.thm.compRaised = false → 25 ∈ t.raised)) ∧
  (∀ (s : State), s.mode ≠ mRESET → (s.okReadings 0 8).length < 3 ∨ s.det.tempOld = true → 
      answers .biasTargetRecompute s fun t =>
        t.on F.DET_STATUS_TEMP_STALE = true ∧
        t.rdS F.DET_BIAS_TARGET_TDET = s.rdS F.DET_BIAS_TARGET_TDET ∧
        (s.on F.DET_STATUS_TEMP_STALE = false → 68 ∈ t.raised) ∧
        ((t.det.vTarget : Int) = clip (50 * s.rd F.DET_BIAS_LIM_VMIN) (50 * s.rd F.DET_BIAS_LIM_VMAX) (s.rd F.DET_BIAS_VBD_VBD0 + (if s.on F.DET_BIAS_CFG_TRACK_EN then divRound (s.rd F.DET_BIAS_TC_TC * (t.rdS F.DET_BIAS_TARGET_TDET - 250)) 100 else 0) + 20 * s.rd F.DET_BIAS_CFG_VEX)) ∧
        (t.on F.DET_STATUS_BIAS_LIMIT = decide ((t.det.vTarget : Int) ≠ s.rd F.DET_BIAS_VBD_VBD0 + (if s.on F.DET_BIAS_CFG_TRACK_EN then divRound (s.rd F.DET_BIAS_TC_TC * (t.rdS F.DET_BIAS_TARGET_TDET - 250)) 100 else 0) + 20 * s.rd F.DET_BIAS_CFG_VEX)) ∧
        (t.on F.DET_STATUS_BIAS_LIMIT = true ∧ s.on F.DET_STATUS_BIAS_LIMIT = false → 66 ∈ t.raised) ∧
        (t.on F.DET_STATUS_BIAS_LIMIT = true ∧ s.thm.compRaised = false → 25 ∈ t.raised)) ∧
  (∀ (s : State), s.mode ≠ mRESET → 
      answers .tempStale s fun t =>
        t.on F.DET_STATUS_TEMP_STALE = true ∧
        t.rd F.DET_BIAS_TARGET_TDET = s.rd F.DET_BIAS_TARGET_TDET ∧
        (s.on F.DET_STATUS_TEMP_STALE = false → 68 ∈ t.raised) ∧
        (3 ≤ (s.okReadings 0 8).length → t.det.tempOld = true)) ∧
  (∀ (s : State) (high : Bool) (u : Nat), s.mode ≠ mRESET → s.on F.DET_STATUS_BIAS_SETTLED = true → (s.on (if high then F.DET_STATUS_BIAS_HIGH else F.DET_STATUS_BIAS_LOW) = false) → (10 * (s.rd F.DET_BIAS_MON_CFG_TOL : Int) < (if high then ((s.rd F.DET_BIAS_STATUS_VSPAD_MEAS : Int) - s.rd F.DET_BIAS_TARGET_TARGET) else (s.rd F.DET_BIAS_TARGET_TARGET : Int) - s.rd F.DET_BIAS_STATUS_VSPAD_MEAS)) → 
      answers (.biasMonitorEntry high u) s fun t =>
        (t.on (if high then F.DET_STATUS_BIAS_HIGH else F.DET_STATUS_BIAS_LOW) = true) ∧
        ((if high then 65 else 64) ∈ t.raised) ∧
        t.det.entries = recent u (s.det.entries ++ [u]) ∧
        t.det.faultSeen = true ∧
        t.on F.DET_STATUS_BIAS_FLAP = (s.on F.DET_STATUS_BIAS_FLAP || decide (8 < (recent u (s.det.entries ++ [u])).length)) ∧
        (t.on F.DET_STATUS_BIAS_FLAP = true ∧ s.on F.DET_STATUS_BIAS_FLAP = false → 67 ∈ t.raised) ∧
        (t.det.latched = if 8 < (recent u (s.det.entries ++ [u])).length ∧ s.on F.DET_STATUS_BIAS_FLAP = false then if high then 2 else 1 else s.det.latched)) ∧
  (∀ (s : State) (high : Bool) (u : Nat), (s.on F.DET_STATUS_BIAS_SETTLED = false ∨ s.on (if high then F.DET_STATUS_BIAS_HIGH else F.DET_STATUS_BIAS_LOW) = true ∨ (if high then ((s.rd F.DET_BIAS_STATUS_VSPAD_MEAS : Int) - s.rd F.DET_BIAS_TARGET_TARGET) else (s.rd F.DET_BIAS_TARGET_TARGET : Int) - s.rd F.DET_BIAS_STATUS_VSPAD_MEAS) ≤ 10 * (s.rd F.DET_BIAS_MON_CFG_TOL : Int)) → 
      answers (.biasMonitorEntry high u) s fun t =>
        t = s) ∧
  (∀ (s : State) (high : Bool), s.on F.DET_STATUS_BIAS_SETTLED = true → s.det.latched.testBit high.toNat = false → ((if high then ((s.rd F.DET_BIAS_STATUS_VSPAD_MEAS : Int) - s.rd F.DET_BIAS_TARGET_TARGET) else (s.rd F.DET_BIAS_TARGET_TARGET : Int) - s.rd F.DET_BIAS_STATUS_VSPAD_MEAS) < 10 * ((s.rd F.DET_BIAS_MON_CFG_TOL : Int) - s.rd F.DET_BIAS_MON_CFG_HYST)) → 
      answers (.biasMonitorClear high) s fun t =>
        t = s.wr (if high then F.DET_STATUS_BIAS_HIGH else F.DET_STATUS_BIAS_LOW) 0) ∧
  (∀ (s : State) (high : Bool), (s.on F.DET_STATUS_BIAS_SETTLED = false ∨ s.det.latched.testBit high.toNat = true ∨ 10 * ((s.rd F.DET_BIAS_MON_CFG_TOL : Int) - s.rd F.DET_BIAS_MON_CFG_HYST) ≤ (if high then ((s.rd F.DET_BIAS_STATUS_VSPAD_MEAS : Int) - s.rd F.DET_BIAS_TARGET_TARGET) else (s.rd F.DET_BIAS_TARGET_TARGET : Int) - s.rd F.DET_BIAS_STATUS_VSPAD_MEAS)) → 
      answers (.biasMonitorClear high) s fun t =>
        t = s)

/-- Time codes, the DLLs, TDC commits, snoop and counters. An edge that the coincidence detector or the oscillator gives, with the
coarse count of its instant in the slot it belongs to, of a locked column and past the dead time, sends the event word of its slot:
a code when 16 coarse + LUT - 16 m + skew lies in 0 to 65535, else an overflow or early marker, counted. It enters the queue of its
furrow at the end, or in lane order beside the words of its TDC cycle; a queue of 16 drops the last, counts it in TDC_QDROP and
raises event 97 once in a point cycle. One within the dead time of 2.5 ns is lost and counted in LOST, and one of an unlocked column
is discarded; an edge that nothing gives, or while no slots run or conversions are disabled, does nothing. Unlock raises event 96
and, once in a slot, sends an invalid marker of each channel of the column and flags its lanes; a retry raises 96 of an unlocked
column, and the trim limit 99; relock sets the lock bit. A TDC commit, which waits for the boundary while point cycles run, copies
LUT, skew and zones when every table is monotonic, else only REJECT_CH and event 98 follow. The oscillator is selected only in
STANDBY and CALIBRATE. Arming the snoop empties it, but not in RESET or RECOVERY, and the counters clear. Commands shown to complete
here: tdcEdge, dllUnlock, dllRelock, dllRelockRetry, dllTrimLimit, tdcCommit, counterClearAll, counterClearSel, tdcCommitCopy,
testSourceSelect, snoopArm. -/
def Obligations.TimingEventsAndTables : Prop :=
  (∀ (s : State) (c : Fin 1152) (u : Nat) (rc : Fin 8192) (ph : Fin 16) (x : Slot), s.running = true ∧ s.his.cur ≠ none ∧ s.on F.TDC_CTRL_ENABLE = true ∧ s.mainStopped = false → (s.rd F.TDC_TEST_CFG_SRC = 1 ∨ (c.val, u) ∈ s.det.edges) → s.slotAt u = some x ∧ rc.val = min ((u - x.epochAt) / 625) 8191 → (s.rd F.TDC_STATUS_DLL_LOCK).testBit (chCol c) = true → (Tab.get (fun _ => 0) s.tdc.lastEdge c = 0 ∨ Tab.get (fun _ => 0) s.tdc.lastEdge c - 1 + 2500 ≤ u) → rc.val ≠ 8191 → 0 ≤ s.timeCode c rc ph ∧ s.timeCode c rc ph < 65536 → 
      answers (.tdcEdge c u rc ph) s fun t =>
        (t.tdc.lastEdge = Tab.set (fun _ => 0) s.tdc.lastEdge c (u + 1) ∧ t.det = { s.det with edges := s.det.edges.erase (c.val, u) }) ∧
        (∀ f : Fin 192, f.val ≠ chFurrow c → Tab.get (fun _ => []) t.tdc.queues f = Tab.get (fun _ => []) s.tdc.queues f) ∧
        (Tab.get (fun _ => []) t.tdc.queues (chFurrow c) = (if (u - (u - x.epochAt) % 625 ≠ 0) ∧ (Tab.get (fun _ => (0, 0)) s.tdc.entered (chFurrow c)).1 = u - (u - x.epochAt) % 625 then s.arbitrate (chFurrow c) (eventWord 0 (c.val % 6) x.seq (s.timeCode c rc ph).toNat) (u - (u - x.epochAt) % 625) else Tab.get (fun _ => []) s.tdc.queues (chFurrow c) ++ [eventWord 0 (c.val % 6) x.seq (s.timeCode c rc ph).toNat]).take 16) ∧
        (16 < (s.arbitrate (chFurrow c) (eventWord 0 (c.val % 6) x.seq (s.timeCode c rc ph).toNat) (u - (u - x.epochAt) % 625)).length → t.rd (F.TDC_QDROP_COUNT (chFurrow c)) = min (s.rd (F.TDC_QDROP_COUNT (chFurrow c)) + 1) (2 ^ 32 - 1) ∧ (s.tdc.ovfRaised = false ∧ s.mode ≠ mRESET → 97 ∈ t.raised)) ∧
        t.tdc.lost = s.tdc.lost ∧ t.tdc.ovf = s.tdc.ovf ∧ t.tdc.early = s.tdc.early) ∧
  (∀ (s : State) (c : Fin 1152) (u : Nat) (rc : Fin 8192) (ph : Fin 16) (x : Slot), s.running = true ∧ s.his.cur ≠ none ∧ s.on F.TDC_CTRL_ENABLE = true ∧ s.mainStopped = false → (s.rd F.TDC_TEST_CFG_SRC = 1 ∨ (c.val, u) ∈ s.det.edges) → s.slotAt u = some x ∧ rc.val = min ((u - x.epochAt) / 625) 8191 → (s.rd F.TDC_STATUS_DLL_LOCK).testBit (chCol c) = true → (Tab.get (fun _ => 0) s.tdc.lastEdge c = 0 ∨ Tab.get (fun _ => 0) s.tdc.lastEdge c - 1 + 2500 ≤ u) → rc.val = 8191 ∨ 65536 ≤ s.timeCode c rc ph → 
      answers (.tdcEdge c u rc ph) s fun t =>
        (t.tdc.lastEdge = Tab.set (fun _ => 0) s.tdc.lastEdge c (u + 1) ∧ t.det = { s.det with edges := s.det.edges.erase (c.val, u) }) ∧
        (∀ f : Fin 192, f.val ≠ chFurrow c → Tab.get (fun _ => []) t.tdc.queues f = Tab.get (fun _ => []) s.tdc.queues f) ∧
        (Tab.get (fun _ => []) t.tdc.queues (chFurrow c) = (if (u - (u - x.epochAt) % 625 ≠ 0) ∧ (Tab.get (fun _ => (0, 0)) s.tdc.entered (chFurrow c)).1 = u - (u - x.epochAt) % 625 then s.arbitrate (chFurrow c) (eventWord 1 (c.val % 6) x.seq 0xFFFF) (u - (u - x.epochAt) % 625) else Tab.get (fun _ => []) s.tdc.queues (chFurrow c) ++ [eventWord 1 (c.val % 6) x.seq 0xFFFF]).take 16) ∧
        (16 < (s.arbitrate (chFurrow c) (eventWord 1 (c.val % 6) x.seq 0xFFFF) (u - (u - x.epochAt) % 625)).length → t.rd (F.TDC_QDROP_COUNT (chFurrow c)) = min (s.rd (F.TDC_QDROP_COUNT (chFurrow c)) + 1) (2 ^ 32 - 1) ∧ (s.tdc.ovfRaised = false ∧ s.mode ≠ mRESET → 97 ∈ t.raised)) ∧
        (Tab.get (fun _ => 0) t.tdc.ovf c.val = min (Tab.get (fun _ => 0) s.tdc.ovf c.val + 1) 0xFFFFFFFF ∧ keysKeep c.val s.tdc.ovf t.tdc.ovf) ∧
        t.tdc.lost = s.tdc.lost ∧ t.tdc.early = s.tdc.early) ∧
  (∀ (s : State) (c : Fin 1152) (u : Nat) (rc : Fin 8192) (ph : Fin 16) (x : Slot), s.running = true ∧ s.his.cur ≠ none ∧ s.on F.TDC_CTRL_ENABLE = true ∧ s.mainStopped = false → (s.rd F.TDC_TEST_CFG_SRC = 1 ∨ (c.val, u) ∈ s.det.edges) → s.slotAt u = some x ∧ rc.val = min ((u - x.epochAt) / 625) 8191 → (s.rd F.TDC_STATUS_DLL_LOCK).testBit (chCol c) = true → (Tab.get (fun _ => 0) s.tdc.lastEdge c = 0 ∨ Tab.get (fun _ => 0) s.tdc.lastEdge c - 1 + 2500 ≤ u) → rc.val ≠ 8191 → s.timeCode c rc ph < 0 → 
      answers (.tdcEdge c u rc ph) s fun t =>
        (t.tdc.lastEdge = Tab.set (fun _ => 0) s.tdc.lastEdge c (u + 1) ∧ t.det = { s.det with edges := s.det.edges.erase (c.val, u) }) ∧
        (∀ f : Fin 192, f.val ≠ chFurrow c → Tab.get (fun _ => []) t.tdc.queues f = Tab.get (fun _ => []) s.tdc.queues f) ∧
        (Tab.get (fun _ => []) t.tdc.queues (chFurrow c) = (if (u - (u - x.epochAt) % 625 ≠ 0) ∧ (Tab.get (fun _ => (0, 0)) s.tdc.entered (chFurrow c)).1 = u - (u - x.epochAt) % 625 then s.arbitrate (chFurrow c) (eventWord 2 (c.val % 6) x.seq 0) (u - (u - x.epochAt) % 625) else Tab.get (fun _ => []) s.tdc.queues (chFurrow c) ++ [eventWord 2 (c.val % 6) x.seq 0]).take 16) ∧
        (16 < (s.arbitrate (chFurrow c) (eventWord 2 (c.val % 6) x.seq 0) (u - (u - x.epochAt) % 625)).length → t.rd (F.TDC_QDROP_COUNT (chFurrow c)) = min (s.rd (F.TDC_QDROP_COUNT (chFurrow c)) + 1) (2 ^ 32 - 1) ∧ (s.tdc.ovfRaised = false ∧ s.mode ≠ mRESET → 97 ∈ t.raised)) ∧
        (Tab.get (fun _ => 0) t.tdc.early c.val = min (Tab.get (fun _ => 0) s.tdc.early c.val + 1) 0xFFFFFFFF ∧ keysKeep c.val s.tdc.early t.tdc.early) ∧
        t.tdc.lost = s.tdc.lost ∧ t.tdc.ovf = s.tdc.ovf) ∧
  (∀ (s : State) (c : Fin 1152) (u : Nat) (rc : Fin 8192) (ph : Fin 16), s.running = true ∧ s.his.cur ≠ none ∧ s.on F.TDC_CTRL_ENABLE = true ∧ s.mainStopped = false → (s.rd F.TDC_TEST_CFG_SRC = 1 ∨ (c.val, u) ∈ s.det.edges) → (((s.slotAt u).all fun x => rc.val == min ((u - x.epochAt) / 625) 8191) = true) → (Tab.get (fun _ => 0) s.tdc.lastEdge c ≠ 0 ∧ u < Tab.get (fun _ => 0) s.tdc.lastEdge c - 1 + 2500) → 
      answers (.tdcEdge c u rc ph) s fun t =>
        t.tdc.queues = s.tdc.queues ∧ t.tdc.lastEdge = s.tdc.lastEdge ∧
        (Tab.get (fun _ => 0) t.tdc.lost c.val = if (s.rd F.TDC_STATUS_DLL_LOCK).testBit (chCol c) then min (Tab.get (fun _ => 0) s.tdc.lost c.val + 1) 0xFFFFFFFF else Tab.get (fun _ => 0) s.tdc.lost c.val) ∧
        keysKeep c.val s.tdc.lost t.tdc.lost ∧ t.tdc.ovf = s.tdc.ovf ∧ t.tdc.early = s.tdc.early) ∧
  (∀ (s : State) (c : Fin 1152) (u : Nat) (rc : Fin 8192) (ph : Fin 16), s.running = true ∧ s.his.cur ≠ none ∧ s.on F.TDC_CTRL_ENABLE = true ∧ s.mainStopped = false → (s.rd F.TDC_TEST_CFG_SRC = 1 ∨ (c.val, u) ∈ s.det.edges) → (((s.slotAt u).all fun x => rc.val == min ((u - x.epochAt) / 625) 8191) = true) → (Tab.get (fun _ => 0) s.tdc.lastEdge c = 0 ∨ Tab.get (fun _ => 0) s.tdc.lastEdge c - 1 + 2500 ≤ u) → (s.rd F.TDC_STATUS_DLL_LOCK).testBit (chCol c) = false → 
      answers (.tdcEdge c u rc ph) s fun t =>
        t = { s with det := { s.det with edges := s.det.edges.erase (c.val, u) }, tdc := { s.tdc with lastEdge := Tab.set (fun _ => 0) s.tdc.lastEdge c (u + 1) } }) ∧
  (∀ (s : State) (c : Fin 1152) (u : Nat) (rc : Fin 8192) (ph : Fin 16), (¬(s.running = true ∧ s.his.cur ≠ none ∧ s.on F.TDC_CTRL_ENABLE = true ∧ s.mainStopped = false) ∨ ¬(s.rd F.TDC_TEST_CFG_SRC = 1 ∨ (c.val, u) ∈ s.det.edges) ∨ ((s.slotAt u).all fun x => rc.val == min ((u - x.epochAt) / 625) 8191) = false) → 
      answers (.tdcEdge c u rc ph) s fun t =>
        t = { s with det := { s.det with edges := s.det.edges.erase (c.val, u) } }) ∧
  (∀ (s : State) (col : Fin 16) (x : Slot), s.mode ≠ mRESET → s.his.cur = some x → x.marked.testBit col = false → 
      answers (.dllUnlock col) s fun t =>
        (t.rd F.TDC_STATUS_DLL_LOCK).testBit col = false ∧
        (∀ k : Fin 16, k ≠ col → (t.rd F.TDC_STATUS_DLL_LOCK).testBit k = (s.rd F.TDC_STATUS_DLL_LOCK).testBit k) ∧
        96 ∈ t.raised ∧
        (t.his.cur.map (fun y => ({ y with marked := 0 }, (List.range 16).map y.marked.testBit)) = some ({ x with marked := 0 }, (List.range 16).map fun k => decide (k = col.val) || x.marked.testBit k)) ∧
        (∀ r : Fin 72, ((t.bank s.his.active).lane (72 * col.val + r.val)).flags.testBit 2 = true) ∧
        (s.on F.TDC_CTRL_ENABLE = true → ∀ f : Fin 12, Tab.get (fun _ => []) s.tdc.queues (12 * col.val + f.val) = [] → Tab.get (fun _ => []) t.tdc.queues (12 * col.val + f.val) = (List.range 6).map fun l => eventWord 3 l x.seq 0) ∧
        (s.on F.TDC_CTRL_ENABLE = false → t.tdc.queues = s.tdc.queues) ∧
        t.tdc.lost = s.tdc.lost ∧ t.tdc.ovf = s.tdc.ovf ∧ t.tdc.early = s.tdc.early) ∧
  (∀ (s : State) (col : Fin 16), s.mode ≠ mRESET → ((s.his.cur.all fun x => x.marked.testBit col) = true) → 
      answers (.dllUnlock col) s fun t =>
        t = { s with regs := t.regs, raises := s.raises ++ [(96, s.reg R.SYS_MODE)] } ∧
        (∀ k : Fin 16, (t.rd F.TDC_STATUS_DLL_LOCK).testBit k = (decide (k ≠ col) && (s.rd F.TDC_STATUS_DLL_LOCK).testBit k))) ∧
  (∀ (s : State) (col : Fin 16), s.mode ≠ mRESET → 
      (answers (.dllRelock col) s fun t =>
        t = { s with regs := t.regs } ∧
        (∀ k : Fin 16, (t.rd F.TDC_STATUS_DLL_LOCK).testBit k = (decide (k = col) || (s.rd F.TDC_STATUS_DLL_LOCK).testBit k))) ∧
      (answers (.dllRelockRetry col) s fun t =>
        t = if (s.rd F.TDC_STATUS_DLL_LOCK).testBit col then s else { s with raises := s.raises ++ [(96, s.reg R.SYS_MODE)] }) ∧
      (answers (.dllTrimLimit col) s fun t =>
        t = { s with raises := s.raises ++ [(99, s.reg R.SYS_MODE)] })) ∧
  (∀ (s : State), s.reaches → 
      (answers .tdcCommit s fun t =>
        t = s.accessed.wr F.TDC_STATUS_COMMIT_PENDING 1) ∧
      (answers .counterClearAll s fun t =>
        t = { s.accessed with tdc := { s.tdc with lost := [], ovf := [], early := [] } }) ∧
      (answers .counterClearSel s fun t =>
        t = { s.accessed with tdc := { s.tdc with lost := t.tdc.lost, ovf := t.tdc.ovf, early := t.tdc.early } } ∧
        (∀ k : Fin 1152, (Tab.get (fun _ => 0) t.tdc.lost k.val, Tab.get (fun _ => 0) t.tdc.ovf k.val, Tab.get (fun _ => 0) t.tdc.early k.val) = if k.val = s.rd F.TDC_CNT_SEL_CHANNEL then (0, 0, 0) else (Tab.get (fun _ => 0) s.tdc.lost k.val, Tab.get (fun _ => 0) s.tdc.ovf k.val, Tab.get (fun _ => 0) s.tdc.early k.val)))) ∧
  (∀ (s : State), s.on F.TDC_STATUS_COMMIT_PENDING = true → s.running = false → (∀ c : Fin 1152, ∀ p : Fin 15, s.lutShadow c p ≤ s.lutShadow c (p + 1)) → 
      answers .tdcCommitCopy s fun t =>
        t.on F.TDC_STATUS_COMMIT_PENDING = false ∧
        (∀ c : Fin 1152, ∀ p : Fin 16, t.lutAct c p = s.lutShadow c p) ∧
        (∀ c : Fin 1152, t.skewAct c = s.rdS (F.TDC_CH_CFG_SKEW c) ∧ t.zoneAct c = s.rd (F.TDC_CH_CFG_ZONE c)) ∧
        t.raised = s.raised) ∧
  (∀ (s : State) (c : Nat), s.mode ≠ mRESET → s.on F.TDC_STATUS_COMMIT_PENDING = true → s.running = false → s.lutBad = some c → 
      answers .tdcCommitCopy s fun t =>
        t.on F.TDC_STATUS_COMMIT_PENDING = false ∧ t.rd F.TDC_STATUS_REJECT_CH = c % 2048 ∧
        t = { s with regs := t.regs, raises := s.raises ++ [(98, s.reg R.SYS_MODE)] }) ∧
  (∀ (s : State), s.on F.TDC_STATUS_COMMIT_PENDING = false ∨ s.running = true → 
      answers .tdcCommitCopy s fun t =>
        t = s) ∧
  (∀ (s : State) (src : Fin 4), s.reaches → src.val = 0 ∨ (src.val = 1 ∧ (s.mode = mSTANDBY ∨ s.mode = mCALIBRATE)) → 
      answers (.testSourceSelect src) s fun t =>
        t.rd F.TDC_TEST_CFG_SRC = src.val ∧ t.on F.TDC_STATUS_TEST_ACTIVE = decide (src.val = 1) ∧
        t = { s.accessed with regs := t.regs, tdc := { s.accessed.tdc with srcHeld := none } }) ∧
  (∀ (s : State) (src : Fin 4), s.reaches → 2 ≤ src.val ∨ (src.val = 1 ∧ s.mode ≠ mSTANDBY ∧ s.mode ≠ mCALIBRATE) → 
      answers (.testSourceSelect src) s fun t =>
        rejected s t) ∧
  (∀ (s : State) (ch : Fin 2048) (all : Bool), s.reaches → ch.val < 1152 → s.tilHeld = false → 
      answers (.snoopArm ch all) s fun t =>
        t.rd F.TDC_SNOOP_CFG_CHANNEL = ch.val ∧ t.on F.TDC_SNOOP_CFG_KIND_ALL = all ∧
        t.rd F.TDC_SNOOP_STATUS_COUNT = 0 ∧ t.on F.TDC_SNOOP_STATUS_FULL = false ∧
        t = { s.accessed with regs := t.regs, tdc := { s.tdc with snoop := [], snooping := true } }) ∧
  (∀ (s : State) (ch : Fin 2048) (all : Bool), s.reaches → ch.val < 1152 → s.tilHeld = true → 
      answers (.snoopArm ch all) s fun t =>
        t.rd F.TDC_SNOOP_CFG_CHANNEL = ch.val ∧ t.on F.TDC_SNOOP_CFG_KIND_ALL = all ∧
        t = { s.accessed with regs := t.regs }) ∧
  (∀ (s : State) (ch : Fin 2048) (all : Bool), s.reaches → 1152 ≤ ch.val → 
      answers (.snoopArm ch all) s fun t =>
        rejected s t)

/-- Event words at the fabric. A word that comes at most 60 ns after its slot closes is applied to the slot its tag names. A code of
a channel neither silent nor gated counts: in the fallow slot in FALLOW_AMB; in a slot where the channel is unlit in UNLIT_AMB;
before the shot in PREFIRE; in a plough slot in coarse bin (c - 32 d) div 32, saturating at 4095; in a harrow slot in the bin of the
lowest-numbered exposed window that holds it, saturating at 65,535, or in HARROW_OUT. Overflow and early markers count in OVF and
EARLY, and an invalid marker sets TIMING_INVALID. A count in a word found uncorrectable poisons it instead, counted and told, a
poisoned word takes none, and a word that can be corrected is. A word of a silent or gated channel is discarded; a later word, or
one whose tag names neither the slot in progress nor the one before, counts in HIS_LATE_WORD_CNT, sets LATE_WORD in the cycle of its
slot and raises event 131. With no slot to apply it to the word is discarded, and with the clock stopped or an empty queue nothing
happens. Commands shown to complete here: eventWord. -/
def Obligations.FabricEventWords : Prop :=
  (∀ (s : State) (f : Fin 192) (w : Word) (x : Slot) (u : Nat), s.arrives f w x u → Word.field w 31 30 = 0 → s.listens (wordChannel f w) → x.bank < 2 → x.kind = .fallow → 
      answers (.eventWord f u) s fun t =>
        (tallied x.bank (wordChannel f w) 1 (fun l => { l with fallowAmb := min (l.fallowAmb + 1) 65535 }) s t) ∧
        wordTaken f s t) ∧
  (∀ (s : State) (f : Fin 192) (w : Word) (x : Slot) (u : Nat), s.arrives f w x u → Word.field w 31 30 = 0 → s.listens (wordChannel f w) → x.bank < 2 → x.kind ≠ .fallow → s.litIn x.rect (wordChannel f w) = false → 
      answers (.eventWord f u) s fun t =>
        (tallied x.bank (wordChannel f w) 2 (fun l => { l with unlitAmb := min (l.unlitAmb + 1) (2 ^ 24 - 1) }) s t) ∧
        wordTaken f s t) ∧
  (∀ (s : State) (f : Fin 192) (w : Word) (x : Slot) (u : Nat), s.arrives f w x u → Word.field w 31 30 = 0 → s.listens (wordChannel f w) → x.bank < 2 → x.kind ≠ .fallow → s.litIn x.rect (wordChannel f w) = true → Word.field w 15 0 < 32 * x.d → 
      answers (.eventWord f u) s fun t =>
        (tallied x.bank (wordChannel f w) 5 (fun l => { l with prefire := min (l.prefire + 1) 65535 }) s t) ∧
        wordTaken f s t) ∧
  (∀ (s : State) (f : Fin 192) (w : Word) (x : Slot) (u : Nat), s.arrives f w x u → Word.field w 31 30 = 0 → s.listens (wordChannel f w) → x.bank < 2 → x.kind = .plough → s.litIn x.rect (wordChannel f w) = true → 32 * x.d ≤ Word.field w 15 0 → 
      answers (.eventWord f u) s fun t =>
        (let u := (match Tab.get okCond s.his.ploughCond ((wordChannel f w) * 2048 + (Word.field w 15 0 - 32 * x.d) / 32) with | .ce => (s.hs fun h => { h with ploughCond := Tab.set okCond h.ploughCond ((wordChannel f w) * 2048 + (Word.field w 15 0 - 32 * x.d) / 32) .ok }).hisCE | .ue => (s.hs fun h => { h with ploughCond := Tab.set okCond h.ploughCond ((wordChannel f w) * 2048 + (Word.field w 15 0 - 32 * x.d) / 32) .poison }).hisUE x.bank (wordChannel f w) | _ => s); t.his = { u.his with plough := t.his.plough, unseen := t.his.unseen }) ∧
        (t.ploughBin (wordChannel f w) ((Word.field w 15 0 - 32 * x.d) / 32) = if (Tab.get okCond s.his.ploughCond ((wordChannel f w) * 2048 + (Word.field w 15 0 - 32 * x.d) / 32)).bad then (s.ploughBin (wordChannel f w) ((Word.field w 15 0 - 32 * x.d) / 32)) else min ((s.ploughBin (wordChannel f w) ((Word.field w 15 0 - 32 * x.d) / 32)) + 1) 4095) ∧
        keysKeep ((wordChannel f w) * 2048 + (Word.field w 15 0 - 32 * x.d) / 32) s.his.plough t.his.plough ∧
        (Tab.get (fun _ => 0) t.his.unseen ((wordChannel f w) * 2048 + (Word.field w 15 0 - 32 * x.d) / 32) = Tab.get (fun _ => 0) s.his.unseen ((wordChannel f w) * 2048 + (Word.field w 15 0 - 32 * x.d) / 32) + (if s.finderPast (wordChannel f w) ((Word.field w 15 0 - 32 * x.d) / 32) u = true ∧ (Tab.get okCond s.his.ploughCond ((wordChannel f w) * 2048 + (Word.field w 15 0 - 32 * x.d) / 32)).bad = false then 1 else 0) ∧ keysKeep ((wordChannel f w) * 2048 + (Word.field w 15 0 - 32 * x.d) / 32) s.his.unseen t.his.unseen) ∧
        wordTaken f s t) ∧
  (∀ (s : State) (f : Fin 192) (w : Word) (x : Slot) (u : Nat) (i : Fin 3), s.arrives f w x u → Word.field w 31 30 = 0 → s.listens (wordChannel f w) → x.bank < 2 → x.kind = .harrow → s.litIn x.rect (wordChannel f w) = true → 32 * x.d ≤ Word.field w 15 0 → ((s.bank x.bank).lane (wordChannel f w)).hit x.d (Word.field w 15 0 - 32 * x.d) = some i.val → 
      answers (.eventWord f u) s fun t =>
        (let u := (match Tab.get okCond (s.bank x.bank).cond (binKey (wordChannel f w) i ((Word.field w 15 0 - 32 * x.d) - (((s.bank x.bank).lane (wordChannel f w)).win i).start)) with | .ce => (s.setBank x.bank { s.bank x.bank with cond := Tab.set okCond (s.bank x.bank).cond (binKey (wordChannel f w) i ((Word.field w 15 0 - 32 * x.d) - (((s.bank x.bank).lane (wordChannel f w)).win i).start)) .ok }).hisCE | .ue => (s.setBank x.bank { s.bank x.bank with cond := Tab.set okCond (s.bank x.bank).cond (binKey (wordChannel f w) i ((Word.field w 15 0 - 32 * x.d) - (((s.bank x.bank).lane (wordChannel f w)).win i).start)) .poison }).hisUE x.bank (wordChannel f w) | _ => s); t.bank x.bank = { u.bank x.bank with bins := (t.bank x.bank).bins } ∧ t.his.plough = s.his.plough) ∧
        ((t.bank x.bank).bin (wordChannel f w) i ((Word.field w 15 0 - 32 * x.d) - (((s.bank x.bank).lane (wordChannel f w)).win i).start) = if (Tab.get okCond (s.bank x.bank).cond (binKey (wordChannel f w) i ((Word.field w 15 0 - 32 * x.d) - (((s.bank x.bank).lane (wordChannel f w)).win i).start))).bad then (s.bank x.bank).bin (wordChannel f w) i ((Word.field w 15 0 - 32 * x.d) - (((s.bank x.bank).lane (wordChannel f w)).win i).start) else min ((s.bank x.bank).bin (wordChannel f w) i ((Word.field w 15 0 - 32 * x.d) - (((s.bank x.bank).lane (wordChannel f w)).win i).start) + 1) 65535) ∧
        keysKeep (binKey (wordChannel f w) i ((Word.field w 15 0 - 32 * x.d) - (((s.bank x.bank).lane (wordChannel f w)).win i).start)) (s.bank x.bank).bins (t.bank x.bank).bins ∧
        wordTaken f s t) ∧
  (∀ (s : State) (f : Fin 192) (w : Word) (x : Slot) (u : Nat), s.arrives f w x u → Word.field w 31 30 = 0 → s.listens (wordChannel f w) → x.bank < 2 → x.kind = .harrow → s.litIn x.rect (wordChannel f w) = true → 32 * x.d ≤ Word.field w 15 0 → ((s.bank x.bank).lane (wordChannel f w)).hit x.d (Word.field w 15 0 - 32 * x.d) = none → 
      answers (.eventWord f u) s fun t =>
        (tallied x.bank (wordChannel f w) 3 (fun l => { l with harrowOut := min (l.harrowOut + 1) 65535 }) s t) ∧
        wordTaken f s t) ∧
  (∀ (s : State) (f : Fin 192) (w : Word) (x : Slot) (u : Nat), s.arrives f w x u → Word.field w 31 30 = 0 → s.on (F.DET_CH_CFG_SILENT (wordChannel f w)) = true ∨ s.isGated (wordChannel f w) = true → 
      answers (.eventWord f u) s fun t =>
        t.his = s.his ∧
        wordTaken f s t) ∧
  (∀ (s : State) (f : Fin 192) (w : Word) (x : Slot) (u : Nat), s.arrives f w x u → Word.field w 31 30 = 1 → x.bank < 2 → 
      answers (.eventWord f u) s fun t =>
        (tallied x.bank (wordChannel f w) 4 (fun l => { l with ovf := min (l.ovf + 1) 65535 }) s t) ∧
        wordTaken f s t) ∧
  (∀ (s : State) (f : Fin 192) (w : Word) (x : Slot) (u : Nat), s.arrives f w x u → Word.field w 31 30 = 2 → x.bank < 2 → 
      answers (.eventWord f u) s fun t =>
        (tallied x.bank (wordChannel f w) 4 (fun l => { l with early := min (l.early + 1) 65535 }) s t) ∧
        wordTaken f s t) ∧
  (∀ (s : State) (f : Fin 192) (w : Word) (x : Slot) (u : Nat), s.arrives f w x u → Word.field w 31 30 = 3 → x.bank < 2 → 
      answers (.eventWord f u) s fun t =>
        laneBecomes x.bank (wordChannel f w) { ((s.bank x.bank).lane (wordChannel f w)) with flags := withBit ((s.bank x.bank).lane (wordChannel f w)).flags 2 true } s t ∧
        wordTaken f s t) ∧
  (∀ (s : State) (f : Fin 192) (w : Word) (x : Slot) (u : Nat), s.mode ≠ mRESET → s.mainStopped = false → ((Tab.get (fun _ => []) s.tdc.queues f).head? = some w) → s.slotOfTag (Word.field w 26 25) = some x → x.bank < 2 → x.closeAt + 60000 < u → 
      answers (.eventWord f u) s fun t =>
        laneBecomes x.bank (wordChannel f w) { ((s.bank x.bank).lane (wordChannel f w)) with flags := withBit ((s.bank x.bank).lane (wordChannel f w)).flags 9 true } s t ∧
        wordTaken f s t ∧
        t.rd F.HIS_LATE_WORD_CNT_COUNT = min (s.rd F.HIS_LATE_WORD_CNT_COUNT + 1) (2 ^ 32 - 1) ∧
        131 ∈ t.raised) ∧
  (∀ (s : State) (f : Fin 192) (w : Word) (x : Slot) (u : Nat), s.mode ≠ mRESET → s.mainStopped = false → ((Tab.get (fun _ => []) s.tdc.queues f).head? = some w) → s.slotOfTag (Word.field w 26 25) = none ∧ s.olderOfTag (Word.field w 26 25) = some x → x.bank < 2 → s.his.cur ≠ none ∨ s.his.prev ≠ none → 
      answers (.eventWord f u) s fun t =>
        laneBecomes x.bank (wordChannel f w) { ((s.bank x.bank).lane (wordChannel f w)) with flags := withBit ((s.bank x.bank).lane (wordChannel f w)).flags 9 true } s t ∧
        wordTaken f s t ∧
        t.rd F.HIS_LATE_WORD_CNT_COUNT = min (s.rd F.HIS_LATE_WORD_CNT_COUNT + 1) (2 ^ 32 - 1) ∧
        131 ∈ t.raised) ∧
  (∀ (s : State) (f : Fin 192) (w : Word) (u : Nat), s.mode ≠ mRESET → s.mainStopped = false → ((Tab.get (fun _ => []) s.tdc.queues f).head? = some w) → s.slotOfTag (Word.field w 26 25) = none ∧ s.olderOfTag (Word.field w 26 25) = none → s.his.cur ≠ none ∨ s.his.prev ≠ none → 
      answers (.eventWord f u) s fun t =>
        t.his = s.his ∧
        wordTaken f s t ∧
        t.rd F.HIS_LATE_WORD_CNT_COUNT = min (s.rd F.HIS_LATE_WORD_CNT_COUNT + 1) (2 ^ 32 - 1) ∧
        131 ∈ t.raised) ∧
  (∀ (s : State) (f : Fin 192) (u : Nat), s.mainStopped = false → s.his.cur = none ∧ s.his.prev = none → (Tab.get (fun _ => []) s.tdc.queues f ≠ []) → 
      answers (.eventWord f u) s fun t =>
        t.regs = s.regs ∧ t.his = s.his ∧ t.raised = s.raised ∧
        wordTaken f s t) ∧
  (∀ (s : State) (f : Fin 192) (u : Nat), (s.mainStopped = true ∨ Tab.get (fun _ => []) s.tdc.queues f = []) → 
      answers (.eventWord f u) s fun t =>
        t = s)

/-- Point cycles start, and slots are prepared and open. When due, with none running, a point cycle starts with index 0, an empty
bank with P and H of the recipe in force, and RUNNING = 1. Before a plough or harrow slot the LFSR takes eight steps, the dither is
drawn (0 where the seed entry forbids it), and the slot gets the rows and columns of the entry that are not shorted, or outside
FIRING and where nothing is left an empty rectangle with no pulses; a clamped power code is counted; the entry goes to the hedge, a
ninth trips it. The prepared slot opens with the next sequence number and its epoch, the slot in progress becomes the one before,
the prepared one is taken, and columns without lock are marked. The first plough slot empties the plough bins, and the first harrow
slot takes the windows and candidates of the live page. The fallow slot opens likewise, opens the live page with no lane done, sets
the deadline 200 ns before its close, and removes and counts stale candidate messages. Without what they await these commands do
nothing. Commands shown to complete here: pointCyclesStart, slotPrepare, shotSlotOpen, fallowSlotOpen. -/
def Obligations.FabricSlots : Prop :=
  (∀ (s : State) (u : Nat), s.his.due = true → s.running = false → s.mainStopped = false → s.on F.MER_CTRL_EN = false ∨ s.on F.MER_CFG_PC_ALIGN = false ∨ s.his.epoch = true → 
      answers (.pointCyclesStart u) s fun t =>
        t.running = true ∧ t.his.due = false ∧ t.his.epoch = false ∧
        t.rd F.HIS_STATUS_PC_INDEX = 0 ∧ t.his.pcStart = u ∧ t.his.cur = none ∧ t.his.prev = none ∧ t.on F.MER_STATUS_PC_WAIT = false ∧
        (t.bank t.his.active).pcIndex = 0 ∧ (t.bank t.his.active).lanes = [] ∧
        ((t.bank t.his.active).p = Word.field (if s.mode = mCALIBRATE then t.his.recipeCal else t.his.recipe) 7 0 ∧ (t.bank t.his.active).h = Word.field (if s.mode = mCALIBRATE then t.his.recipeCal else t.his.recipe) 14 8) ∧
        t.his.recipe = s.reg R.HIS_RECIPE ∧ t.his.recipeCal = s.reg R.HIS_RECIPE_CAL) ∧
  (∀ (s : State) (u : Nat), s.his.due = false ∨ s.running = true ∨ s.mainStopped = true ∨ (s.on F.MER_CTRL_EN = true ∧ s.on F.MER_CFG_PC_ALIGN = true ∧ s.his.epoch = false) → 
      answers (.pointCyclesStart u) s fun t =>
        t = s) ∧
  (∀ (s : State) (k : SlotKind) (i : Nat), s.running = true → s.mainStopped = false → s.emi.prep = none → s.nextSlot = some (k, i) → k ≠ .fallow → 
      answers .slotPrepare s fun t =>
        t.emi.lfsr = lfsr8 s.emi.lfsr ∧
        (t.emi.prep.map (fun p => (p.kind, p.index, p.id)) = some (k, i, s.hdg.nextId) ∧ t.hdg.nextId = s.hdg.nextId + 1) ∧
        ((t.emi.prep.getD {}).d = if bits (s.seedEntry (s.rd F.EMI_STATUS_ACTIVE_BUF) s.emi.ptr) 14 14 = 1 then 0 else ditherOf (lfsr8 s.emi.lfsr) ((s.slotPeriod - 2560000) / 1250 - 1)) ∧
        ((t.emi.prep.getD {}).rect = (if (s.emiState = eFIRING ∧ bits (s.seedEntry (s.rd F.EMI_STATUS_ACTIVE_BUF) s.emi.ptr) 63 46 &&& ((2 ^ 18 - 1) ^^^ s.emi.shortRows) ≠ 0 ∧ bits (s.seedEntry (s.rd F.EMI_STATUS_ACTIVE_BUF) s.emi.ptr) 45 30 &&& ((2 ^ 16 - 1) ^^^ s.emi.shortCols) ≠ 0) then { rows := bits (s.seedEntry (s.rd F.EMI_STATUS_ACTIVE_BUF) s.emi.ptr) 63 46 &&& ((2 ^ 18 - 1) ^^^ s.emi.shortRows), cols := bits (s.seedEntry (s.rd F.EMI_STATUS_ACTIVE_BUF) s.emi.ptr) 45 30 &&& ((2 ^ 16 - 1) ^^^ s.emi.shortCols) } else {})) ∧
        ((t.emi.prep.getD {}).pulses = (if (s.emiState = eFIRING ∧ bits (s.seedEntry (s.rd F.EMI_STATUS_ACTIVE_BUF) s.emi.ptr) 63 46 &&& ((2 ^ 18 - 1) ^^^ s.emi.shortRows) ≠ 0 ∧ bits (s.seedEntry (s.rd F.EMI_STATUS_ACTIVE_BUF) s.emi.ptr) 45 30 &&& ((2 ^ 16 - 1) ^^^ s.emi.shortCols) ≠ 0) then s.pulsesOf (bits (s.seedEntry (s.rd F.EMI_STATUS_ACTIVE_BUF) s.emi.ptr) 21 19) else 0) ∧ (t.emi.prep.getD {}).gaps = (if (s.emiState = eFIRING ∧ bits (s.seedEntry (s.rd F.EMI_STATUS_ACTIVE_BUF) s.emi.ptr) 63 46 &&& ((2 ^ 18 - 1) ^^^ s.emi.shortRows) ≠ 0 ∧ bits (s.seedEntry (s.rd F.EMI_STATUS_ACTIVE_BUF) s.emi.ptr) 45 30 &&& ((2 ^ 16 - 1) ^^^ s.emi.shortCols) ≠ 0) then s.gapsOf (bits (s.seedEntry (s.rd F.EMI_STATUS_ACTIVE_BUF) s.emi.ptr) 21 19) else []) ∧ (t.emi.prep.getD {}).power = s.effCode (bits (s.seedEntry (s.rd F.EMI_STATUS_ACTIVE_BUF) s.emi.ptr) 29 22)) ∧
        (t.rd F.EMI_CNT_CLAMP_COUNT = min (s.rd F.EMI_CNT_CLAMP_COUNT + if Word.field s.emi.pwrCfg 7 0 < bits (s.seedEntry (s.rd F.EMI_STATUS_ACTIVE_BUF) s.emi.ptr) 29 22 then 1 else 0) (2 ^ 32 - 1)) ∧
        t.emi.shot = { pulses := (t.emi.prep.getD {}).pulses, id := s.hdg.nextId } ∧ t.emi.rowsOut = (t.emi.prep.getD {}).rect.rows ∧ t.emi.colsOut = (t.emi.prep.getD {}).rect.cols ∧
        (if s.hdg.queue.length < 8 then t.hdg.queue = s.hdg.queue ++ [.shot s.hdg.nextId (t.emi.prep.getD {}).rect.rows (t.emi.prep.getD {}).rect.cols (t.emi.prep.getD {}).power (t.emi.prep.getD {}).pulses] else t.on F.HDG_STATUS_LATCH = true ∧ (t.rd F.HDG_TRIP_CAUSE_CAUSE).testBit 10 = true)) ∧
  (∀ (s : State), s.running = false ∨ s.mainStopped = true ∨ s.emi.prep ≠ none ∨ s.nextSlot = none ∨ s.nextSlot = some (.fallow, 0) → 
      answers .slotPrepare s fun t =>
        t = s) ∧
  (∀ (s : State) (u : Nat) (p : Prep), s.running = true → s.mainStopped = false → s.emi.prep = some p → 
      answers (.shotSlotOpen u) s fun t =>
        (t.his.cur.map (fun y => { y with marked := 0 }) = some { kind := p.kind, index := p.index, rect := p.rect, d := p.d, openAt := u, closeAt := u + s.slotPeriod, seq := s.tdc.slotSeq, bank := s.his.active, epochAt := u + 625 * s.tdc.epochOfs }) ∧
        ((List.range 16).map (t.his.cur.getD {}).marked.testBit = (List.range 16).map fun k => !(s.rd F.TDC_STATUS_DLL_LOCK).testBit k) ∧
        t.tdc.slotSeq = s.tdc.slotSeq + 1 ∧ t.emi.prep = none ∧
        (t.his.prev = (s.his.cur.map fun x => { x with closeAt := u }).or s.his.prev) ∧
        (p.kind = .plough ∧ p.index = 0 → t.his.plough = [] ∧ t.his.ploughCond = []) ∧
        (p.kind = .plough → (t.bank s.his.active).dmax = max (s.bank s.his.active).dmax p.d) ∧
        (p.kind = .harrow ∧ p.index = 0 → (∀ c : Fin 1152, ((t.bank s.his.active).lane c).cands = (s.liveLane c).cands) ∧ (∀ c : Fin 1152, let l := (t.bank s.his.active).lane c; (l.win0, l.win1, l.win2) = ((s.liveLane c).win0, (s.liveLane c).win1, (s.liveLane c).win2))) ∧
        (t.rd F.EMI_STATUS_PTR = s.emi.ptr % 2 ^ 13 ∧ (t.emi.ptr, t.emi.rep) = if s.on F.EMI_CTRL_EN then nextPtr (s.seedEntry (s.rd F.EMI_STATUS_ACTIVE_BUF) s.emi.ptr) s.emi.ptr s.emi.rep else (s.emi.ptr, s.emi.rep)) ∧
        (t.emi.shot = { s.emi.shot with train := if p.pulses = 0 then [] else trainOf (u + 625 * Word.field s.emi.fireCfg 5 0 + 1250 * p.d) (Word.field s.emi.fireCfg 10 8) p.gaps })) ∧
  (∀ (s : State) (u : Nat), s.running = false ∨ s.mainStopped = true ∨ s.emi.prep = none → 
      answers (.shotSlotOpen u) s fun t =>
        t = s) ∧
  (∀ (s : State) (u : Nat), s.running = true → s.mainStopped = false → s.nextSlot = some (.fallow, 0) → 
      answers (.fallowSlotOpen u) s fun t =>
        (t.his.cur.map (fun y => { y with marked := 0 }) = some { kind := .fallow, index := 0, rect := {}, d := 0, openAt := u, closeAt := u + s.slotPeriod, seq := s.tdc.slotSeq, bank := s.his.active, epochAt := u + 625 * s.tdc.epochOfs }) ∧
        ((List.range 16).map (t.his.cur.getD {}).marked.testBit = (List.range 16).map fun k => !(s.rd F.TDC_STATUS_DLL_LOCK).testBit k) ∧
        (t.his.prev = (s.his.cur.map fun x => { x with closeAt := u }).or s.his.prev) ∧
        t.tdc.slotSeq = s.tdc.slotSeq + 1 ∧
        t.his.fallowOpen = true ∧ t.his.lanesDone = [] ∧ t.his.deadlineAt = u + s.slotPeriod - 200000 ∧
        (∀ c : Fin 1152, (t.liveLane c).cands = [] ∧ (t.liveLane c).fallowPrev = Tab.get (fun _ => 0) s.his.fallowPrev c) ∧
        (∀ c : Fin 1152, let keep := fun w x => if s.fixwin then s.fixWin w else if s.his.overridden.contains (3 * c.val + w) then x else {}; let v := s.liveLane c; ((t.liveLane c).win0, (t.liveLane c).win1, (t.liveLane c).win2) = (keep 0 v.win0, keep 1 v.win1, keep 2 v.win2)) ∧
        (∀ n : Fin 192, (t.tiller n).candQ = (s.tiller n).candQ.filter (fun m => !isCandidate m)) ∧
        (∀ n : Fin 192, t.rd (F.TIL_CNT_CAND_STALE_COUNT n) = min (s.rd (F.TIL_CNT_CAND_STALE_COUNT n) + ((s.tiller n).candQ.filter isCandidate).length) (2 ^ 32 - 1)) ∧
        t.emi.rowsOut = 0 ∧ t.emi.colsOut = 0) ∧
  (∀ (s : State) (u : Nat), s.running = false ∨ s.mainStopped = true ∨ s.nextSlot ≠ some (.fallow, 0) → 
      answers (.fallowSlotOpen u) s fun t =>
        t = s)

/-- Finders, tiller writes, the harrow deadline. In the fallow slot a finder publishes its next lane: the candidates it found, in
order, with default windows where no tiller write or FIXWIN stands, LAST on the last of the furrow, one message each, and in the
bank BLANK_SUM and flag 11 when more than three were kept. The deadline makes later writes late. A valid window write in time enters
the live page with SRC 2 when enabled, and is discarded under FIXWIN; a valid depth write is held for the next boundary; a late one
sets LATE, is counted and raises event 130; an invalid one is counted in FWQ_REJ with cause 4. Each takes the word from the queue;
while no point cycles run it does only that. A command that finds no word of its kind, no lane left or no fallow slot open does
nothing. Commands shown to complete here: lanePublication, harrowDeadline, windowWrite, depthWrite. -/
def Obligations.FabricPublicationAndWrites : Prop :=
  (∀ (s : State) (f : Fin 192) (l : Nat), s.running = true → s.mainStopped = false → s.his.fallowOpen = true → (Tab.get (fun _ => 0) s.his.lanesDone f = l) → l < 6 → 
      answers (.lanePublication f) s fun t =>
        (Tab.get (fun _ => 0) t.his.lanesDone f = l + 1) ∧
        ((t.liveLane (6 * f.val + l)).cands = (s.finder (6 * f.val + l)).1.zipIdx.map fun (x, i) => { x with last := i + 1 == (s.finder (6 * f.val + l)).1.length && !((List.range 6).any fun k => decide (l < k) && !(s.finder (6 * f.val + k)).1.isEmpty) }) ∧
        (s.fixwin = false → (s.his.overridden.contains (3 * (6 * f.val + l)) = false → (t.liveLane (6 * f.val + l)).win0 = ((t.liveLane (6 * f.val + l)).cands[0]?.map Cand.window).getD {}) ∧ (s.his.overridden.contains (3 * (6 * f.val + l) + 1) = false → (t.liveLane (6 * f.val + l)).win1 = ((t.liveLane (6 * f.val + l)).cands[1]?.map Cand.window).getD {}) ∧ (s.his.overridden.contains (3 * (6 * f.val + l) + 2) = false → (t.liveLane (6 * f.val + l)).win2 = ((t.liveLane (6 * f.val + l)).cands[2]?.map Cand.window).getD {})) ∧
        (s.fixwin = true → (t.liveLane (6 * f.val + l)).win0 = (s.liveLane (6 * f.val + l)).win0 ∧ (t.liveLane (6 * f.val + l)).win1 = (s.liveLane (6 * f.val + l)).win1 ∧ (t.liveLane (6 * f.val + l)).win2 = (s.liveLane (6 * f.val + l)).win2) ∧
        (∀ c : Fin 1152, c.val ≠ (6 * f.val + l) → t.liveLane c = s.liveLane c) ∧
        (((t.bank s.his.active).lane (6 * f.val + l)).blankSum = min ((List.range (Word.field s.his.findCfg 15 8)).map fun i => s.seenBin (6 * f.val + l) i).sum 65535 ∧ ((s.finder (6 * f.val + l)).2 = true → ((t.bank s.his.active).lane (6 * f.val + l)).flags.testBit 11 = true)) ∧
        ((t.tiller f).candQ = (s.tiller f).candQ ++ (List.range (t.liveLane (6 * f.val + l)).cands.length).map fun i => BitVec.ofNat 64 (candRecord (t.liveLane (6 * f.val + l)).cands l i)) ∧
        ((t.liveLane (6 * f.val + l)).cands ≠ [] → (t.tiller f).candPc = s.rd F.HIS_STATUS_PC_INDEX ∧ (t.tiller f).pendMsg = ((s.tiller f).pendMsg || s.on (F.TIL_CFG_MSG_ATTN f))) ∧
        othersKeep f s t) ∧
  (∀ (s : State) (f : Fin 192), (s.running = false ∨ s.mainStopped = true ∨ s.his.fallowOpen = false ∨ 6 ≤ Tab.get (fun _ => 0) s.his.lanesDone f) → 
      answers (.lanePublication f) s fun t =>
        t = s) ∧
  (∀ (s : State), s.running = true → s.his.fallowOpen = true → 
      answers .harrowDeadline s fun t =>
        t = s.hs fun h => { h with deadlinePassed := true }) ∧
  (∀ (s : State), s.running = false ∨ s.his.fallowOpen = false → 
      answers .harrowDeadline s fun t =>
        t = s) ∧
  (∀ (s : State) (n : Fin 192), (((s.tiller n).fwq.head?.all fun w => Word.field w 31 30 == 1) = true) → 
      answers (.windowWrite n) s fun t =>
        t = s) ∧
  (∀ (s : State) (n : Fin 192), (((s.tiller n).fwq.head?.all fun w => Word.field w 31 30 != 1) = true) → 
      answers (.depthWrite n) s fun t =>
        t = s) ∧
  (∀ (s : State) (w : Word) (n : Fin 192), s.running = false → (s.tiller n).fwq.head? = some w → Word.field w 31 30 ≠ 1 → 
      answers (.windowWrite n) s fun t =>
        t = { s with til := t.til } ∧
        (∀ m : Fin 192, t.tiller m = if m = n then { s.tiller n with fwq := (s.tiller n).fwq.tail } else s.tiller m)) ∧
  (∀ (s : State) (w : Word) (n : Fin 192), s.running = false → (s.tiller n).fwq.head? = some w → Word.field w 31 30 = 1 → 
      answers (.depthWrite n) s fun t =>
        t = { s with til := t.til } ∧
        (∀ m : Fin 192, t.tiller m = if m = n then { s.tiller n with fwq := (s.tiller n).fwq.tail } else s.tiller m)) ∧
  (∀ (s : State) (w : Word) (n : Fin 192), s.running = true → (s.tiller n).fwq.head? = some w → Word.field w 31 30 = 0 → Word.field w 29 27 < 6 ∧ Word.field w 26 25 ≠ 3 ∧ Word.field w 15 0 ≤ 65472 → s.fixwin = false → s.his.deadlinePassed = false → 
      answers (.windowWrite n) s fun t =>
        (t.liveLane (6 * n.val + Word.field w 29 27) = (let v := s.liveLane (6 * n.val + Word.field w 29 27); let y : Win := { start := Word.field w 15 0, en := w.getLsbD 24, src := if w.getLsbD 24 then 2 else 0 }; if Word.field w 26 25 = 0 then { v with win0 := y } else if Word.field w 26 25 = 1 then { v with win1 := y } else { v with win2 := y })) ∧
        3 * (6 * n.val + Word.field w 29 27) + Word.field w 26 25 ∈ t.his.overridden ∧
        (∀ c : Fin 1152, c.val ≠ (6 * n.val + Word.field w 29 27) → t.liveLane c = s.liveLane c) ∧
        (∀ m : Fin 192, t.tiller m = if m = n then { s.tiller n with fwq := (s.tiller n).fwq.tail } else s.tiller m)) ∧
  (∀ (s : State) (w : Word) (n : Fin 192), s.running = true → (s.tiller n).fwq.head? = some w → Word.field w 31 30 = 0 → Word.field w 29 27 < 6 ∧ Word.field w 26 25 ≠ 3 ∧ Word.field w 15 0 ≤ 65472 → s.fixwin = true → 
      answers (.windowWrite n) s fun t =>
        t.his = s.his ∧
        (∀ m : Fin 192, t.tiller m = if m = n then { s.tiller n with fwq := (s.tiller n).fwq.tail } else s.tiller m)) ∧
  (∀ (s : State) (w : Word) (n : Fin 192), s.mode ≠ mRESET → s.running = true → (s.tiller n).fwq.head? = some w → Word.field w 31 30 = 0 → Word.field w 29 27 < 6 ∧ Word.field w 26 25 ≠ 3 ∧ Word.field w 15 0 ≤ 65472 → s.fixwin = false → s.his.deadlinePassed = true → 
      answers (.windowWrite n) s fun t =>
        (((t.bank s.his.active).lane (6 * n.val + Word.field w 29 27)).flags).testBit 0 = true ∧
        t.rd F.HIS_LAST_LATE_CHANNEL = (6 * n.val + Word.field w 29 27) ∧
        (130 ∈ t.raised ∨ s.his.lateRaised = true) ∧
        (t.rd F.HIS_LATE_CNT_COUNT = min (s.rd F.HIS_LATE_CNT_COUNT + if ((s.bank s.his.active).lane (6 * n.val + Word.field w 29 27)).flags.testBit 0 then 0 else 1) (2 ^ 32 - 1)) ∧
        t.his.live = s.his.live ∧ t.det.tillerDepth = s.det.tillerDepth ∧
        (∀ m : Fin 192, t.tiller m = if m = n then { s.tiller n with fwq := (s.tiller n).fwq.tail } else s.tiller m)) ∧
  (∀ (s : State) (w : Word) (n : Fin 192), s.running = true → (s.tiller n).fwq.head? = some w → Word.field w 31 30 ≠ 1 → Word.field w 31 30 ≠ 0 ∨ 6 ≤ Word.field w 29 27 ∨ Word.field w 26 25 = 3 ∨ 65472 < Word.field w 15 0 → 
      answers (.windowWrite n) s fun t =>
        t.his = s.his ∧ t.det = s.det ∧
        t.rd (F.TIL_CNT_FWQ_REJ_COUNT n) = min (s.rd (F.TIL_CNT_FWQ_REJ_COUNT n) + 1) (2 ^ 32 - 1) ∧
        (t.rd (F.TIL_EVT_CAUSE_CAUSE n)).testBit 4 = true ∧
        (∀ m : Fin 192, t.tiller m = if m = n then { s.tiller n with fwq := (s.tiller n).fwq.tail } else s.tiller m)) ∧
  (∀ (s : State) (w : Word) (n : Fin 192), s.running = true → (s.tiller n).fwq.head? = some w → Word.field w 31 30 = 1 → Word.field w 29 27 < 6 ∧ Word.field w 2 0 ≠ 0 ∧ Word.field w 2 0 ≠ 7 → s.his.deadlinePassed = false → 
      answers (.depthWrite n) s fun t =>
        (Tab.get (fun _ => 0) t.det.tillerDepth (6 * n.val + Word.field w 29 27) = Word.field w 2 0) ∧
        (∀ c : Fin 1152, c.val ≠ (6 * n.val + Word.field w 29 27) → Tab.get (fun _ => 0) t.det.tillerDepth c = Tab.get (fun _ => 0) s.det.tillerDepth c) ∧
        t.his = s.his ∧
        (∀ m : Fin 192, t.tiller m = if m = n then { s.tiller n with fwq := (s.tiller n).fwq.tail } else s.tiller m)) ∧
  (∀ (s : State) (w : Word) (n : Fin 192), s.mode ≠ mRESET → s.running = true → (s.tiller n).fwq.head? = some w → Word.field w 31 30 = 1 → Word.field w 29 27 < 6 ∧ Word.field w 2 0 ≠ 0 ∧ Word.field w 2 0 ≠ 7 → s.his.deadlinePassed = true → 
      answers (.depthWrite n) s fun t =>
        (((t.bank s.his.active).lane (6 * n.val + Word.field w 29 27)).flags).testBit 0 = true ∧
        t.rd F.HIS_LAST_LATE_CHANNEL = (6 * n.val + Word.field w 29 27) ∧
        (130 ∈ t.raised ∨ s.his.lateRaised = true) ∧
        (t.rd F.HIS_LATE_CNT_COUNT = min (s.rd F.HIS_LATE_CNT_COUNT + if ((s.bank s.his.active).lane (6 * n.val + Word.field w 29 27)).flags.testBit 0 then 0 else 1) (2 ^ 32 - 1)) ∧
        t.his.live = s.his.live ∧ t.det.tillerDepth = s.det.tillerDepth ∧
        (∀ m : Fin 192, t.tiller m = if m = n then { s.tiller n with fwq := (s.tiller n).fwq.tail } else s.tiller m)) ∧
  (∀ (s : State) (w : Word) (n : Fin 192), s.running = true → (s.tiller n).fwq.head? = some w → Word.field w 31 30 = 1 → 6 ≤ Word.field w 29 27 ∨ Word.field w 2 0 = 0 ∨ Word.field w 2 0 = 7 → 
      answers (.depthWrite n) s fun t =>
        t.his = s.his ∧ t.det = s.det ∧
        t.rd (F.TIL_CNT_FWQ_REJ_COUNT n) = min (s.rd (F.TIL_CNT_FWQ_REJ_COUNT n) + 1) (2 ^ 32 - 1) ∧
        (t.rd (F.TIL_EVT_CAUSE_CAUSE n)).testBit 4 = true ∧
        (∀ m : Fin 192, t.tiller m = if m = n then { s.tiller n with fwq := (s.tiller n).fwq.tail } else s.tiller m))

/-- Bank swaps, bank-ready messages, blocks and the staging ring. When the last harrow slot closes the banks swap: every ownership
ends, a block not emitted leaves as DROPPED, counted, and ends an EMIT that waits, and the lanes get K_USED and the flags of their
point cycle; the next point cycle starts with the next index modulo 2^24, or none when the fabric was to stop. The frozen bank is
posted to each tiller with its ownership, replacing a message of an older bank; bins and conditions of the bank taken back clear.
The oldest block in the output queue becomes a record of the staging ring, padded to 32 bytes with the next sequence number, its CRC
inverted and event 488 or 496 raised when it is found wrong, or is discarded and counted when the ring is full or its window cannot
be reached; while the controller serves nothing it waits. The reference program takes a bank-ready message of an owned bank and
stalls on EMIT of the block it has built from 0x1_0000. The firmware writes T_NOW to each reference program. Without what they await
these commands do nothing. Commands shown to complete here: harrowBankSwap, bankFreeze, bankClearComplete, stagingRecord,
programBankProcess, tNowUpdate. -/
def Obligations.FabricBanksAndBlocks : Prop :=
  (∀ (s : State) (u : Nat), s.running = true → s.mainStopped = false → s.his.cur.isSome = true → s.nextSlot = none → s.his.last = false → 
      answers (.harrowBankSwap u) s fun t =>
        t.his.active = 1 - s.his.active ∧ t.his.freezing = some (s.his.active, s.his.last) ∧
        t.his.deadlinePassed = false ∧ t.his.fallowOpen = false ∧
        (∀ n : Fin 192, (t.tiller n).own = none) ∧
        (∀ n : Fin 192, t.rd (F.TIL_CNT_DROPPED_COUNT n) = min (s.rd (F.TIL_CNT_DROPPED_COUNT n) + if (s.tiller n).own.isSome ∧ (s.tiller n).emitted = false then 1 else 0) (2 ^ 32 - 1)) ∧
        (t.oq.blocks.take s.oq.blocks.length = s.oq.blocks ∧ (t.oq.blocks.drop s.oq.blocks.length).map Block.furrow = (List.range 192).filter fun n => (s.tiller n).own.isSome && !(s.tiller n).emitted) ∧
        (let emits : Stall → Bool := fun y => (match y with | .emit _ _ _ => true | _ => false); ∀ n : Fin 192, ((s.tiller n).stall.any emits && (s.tiller n).own.isSome && !(s.tiller n).emitted) = true → (t.tiller n).stall = none) ∧
        (∀ c : Fin 1152, ((t.bank s.his.active).lane c).kUsed = s.rd (F.DET_CH_CFG_K_EFF c) ∧ ((t.bank s.his.active).lane c).flags.testBit 1 = (((s.bank s.his.active).lane c).flags.testBit 1 || s.det.faultSeen) ∧ ((t.bank s.his.active).lane c).flags.testBit 4 = (((s.bank s.his.active).lane c).flags.testBit 4 || s.on (F.DET_CH_CFG_SILENT c)) ∧ ((t.bank s.his.active).lane c).flags.testBit 5 = (((s.bank s.his.active).lane c).flags.testBit 5 || s.isGated c) ∧ ((t.bank s.his.active).lane c).flags.testBit 8 = (((s.bank s.his.active).lane c).flags.testBit 8 || s.fixwin)) ∧
        t.running = true ∧
        t.rd F.HIS_STATUS_PC_INDEX = ((s.bank s.his.active).pcIndex + 1) % 2 ^ 24 ∧
        (t.bank t.his.active).pcIndex = ((s.bank s.his.active).pcIndex + 1) % 2 ^ 24 ∧ (t.bank t.his.active).lanes = [] ∧ t.his.pcStart = u) ∧
  (∀ (s : State) (u : Nat), s.running = true → s.mainStopped = false → s.his.cur.isSome = true → s.nextSlot = none → s.his.last = true → 
      answers (.harrowBankSwap u) s fun t =>
        t.his.active = 1 - s.his.active ∧ t.his.freezing = some (s.his.active, s.his.last) ∧
        t.his.deadlinePassed = false ∧ t.his.fallowOpen = false ∧
        (∀ n : Fin 192, (t.tiller n).own = none) ∧
        (∀ n : Fin 192, t.rd (F.TIL_CNT_DROPPED_COUNT n) = min (s.rd (F.TIL_CNT_DROPPED_COUNT n) + if (s.tiller n).own.isSome ∧ (s.tiller n).emitted = false then 1 else 0) (2 ^ 32 - 1)) ∧
        (t.oq.blocks.take s.oq.blocks.length = s.oq.blocks ∧ (t.oq.blocks.drop s.oq.blocks.length).map Block.furrow = (List.range 192).filter fun n => (s.tiller n).own.isSome && !(s.tiller n).emitted) ∧
        (let emits : Stall → Bool := fun y => (match y with | .emit _ _ _ => true | _ => false); ∀ n : Fin 192, ((s.tiller n).stall.any emits && (s.tiller n).own.isSome && !(s.tiller n).emitted) = true → (t.tiller n).stall = none) ∧
        (∀ c : Fin 1152, ((t.bank s.his.active).lane c).kUsed = s.rd (F.DET_CH_CFG_K_EFF c) ∧ ((t.bank s.his.active).lane c).flags.testBit 1 = (((s.bank s.his.active).lane c).flags.testBit 1 || s.det.faultSeen) ∧ ((t.bank s.his.active).lane c).flags.testBit 4 = (((s.bank s.his.active).lane c).flags.testBit 4 || s.on (F.DET_CH_CFG_SILENT c)) ∧ ((t.bank s.his.active).lane c).flags.testBit 5 = (((s.bank s.his.active).lane c).flags.testBit 5 || s.isGated c) ∧ ((t.bank s.his.active).lane c).flags.testBit 8 = (((s.bank s.his.active).lane c).flags.testBit 8 || s.fixwin)) ∧
        t.running = false ∧
        t.his.cur = none ∧ t.his.last = false ∧ t.emi.prep = none) ∧
  (∀ (s : State) (u : Nat), s.running = false ∨ s.mainStopped = true ∨ s.his.cur = none ∨ s.nextSlot ≠ none → 
      answers (.harrowBankSwap u) s fun t =>
        t = s) ∧
  (∀ (s : State) (b : Nat) (fin : Bool), s.his.freezing = some (b, fin) → 
      answers .bankFreeze s fun t =>
        t.his.freezing = none ∧
        (∀ n : Fin 192, (t.tiller n).own = some (b, (s.bank b).pcIndex) ∧ (t.tiller n).emitted = false ∧ (t.tiller n).candQ = ((s.tiller n).candQ.filter isCandidate) ++ [bankReady (s.bank b) false ((s.tiller n).candQ.any fun m => !isCandidate m) fin])) ∧
  (∀ (s : State), s.his.freezing = none → 
      answers .bankFreeze s fun t =>
        t = s) ∧
  (∀ (s : State), s.running = true → ((s.his.cur.any fun x => x.kind == .harrow) = false) → 
      answers .bankClearComplete s fun t =>
        t = s.setBank s.his.active { s.bank s.his.active with bins := [], cond := [] }) ∧
  (∀ (s : State), (s.running = false ∨ (s.his.cur.any fun x => x.kind == .harrow) = true) → 
      answers .bankClearComplete s fun t =>
        t = s) ∧
  (∀ (s : State) (b : Block) (rest : List Block) (bad : Bool) (o : Nat) (wrap : Bool), s.oq.blocks = b :: rest → s.memReady = true ∧ s.engineTurn 0 = true → s.pbBase + s.pbSize ≤ s.localSize ∧ s.rd F.MEM_PB_WPTR_OFS < s.pbSize ∧ s.rd F.MEM_PB_WPTR_OFS % 32 = 0 → (ringPlace s.pbSize (s.rd F.MEM_PB_WPTR_OFS) (s.rd F.MEM_PB_RPTR_OFS) 32 (stagingRecord s.mem.seq b.furrow (if ((blockCrc b.bytes).1 != 0xFFFFFFFF - (blockCrc b.bytes).2 && (bad || (blockCrc b.bytes).1 != (blockCrc b.bytes).2)) = true then b.bytes.take (b.bytes.length - 4) ++ bytesOf 4 (0xFFFFFFFF - (blockCrc b.bytes).2) else b.bytes)).length = some (o, wrap)) → 
      answers (.stagingRecord bad) s fun t =>
        t.oq = { s.oq with blocks := rest } ∧ t.mem.seq = (s.mem.seq + 1) % 2 ^ 32 ∧
        (t.rd F.MEM_PB_WPTR_OFS = (o + (stagingRecord s.mem.seq b.furrow (if ((blockCrc b.bytes).1 != 0xFFFFFFFF - (blockCrc b.bytes).2 && (bad || (blockCrc b.bytes).1 != (blockCrc b.bytes).2)) = true then b.bytes.take (b.bytes.length - 4) ++ bytesOf 4 (0xFFFFFFFF - (blockCrc b.bytes).2) else b.bytes)).length) % s.pbSize % 2 ^ 32) ∧
        (t.dramBytes (s.pbBase + o) (stagingRecord s.mem.seq b.furrow (if ((blockCrc b.bytes).1 != 0xFFFFFFFF - (blockCrc b.bytes).2 && (bad || (blockCrc b.bytes).1 != (blockCrc b.bytes).2)) = true then b.bytes.take (b.bytes.length - 4) ++ bytesOf 4 (0xFFFFFFFF - (blockCrc b.bytes).2) else b.bytes)).length = (stagingRecord s.mem.seq b.furrow (if ((blockCrc b.bytes).1 != 0xFFFFFFFF - (blockCrc b.bytes).2 && (bad || (blockCrc b.bytes).1 != (blockCrc b.bytes).2)) = true then b.bytes.take (b.bytes.length - 4) ++ bytesOf 4 (0xFFFFFFFF - (blockCrc b.bytes).2) else b.bytes))) ∧
        (wrap = true → t.dramBytes (s.pbBase + s.rd F.MEM_PB_WPTR_OFS) 32 = wrapMarker 32) ∧
        t.rd F.MEM_PB_OVF_CNT_COUNT = s.rd F.MEM_PB_OVF_CNT_COUNT ∧
        (((blockCrc b.bytes).1 != 0xFFFFFFFF - (blockCrc b.bytes).2 && (bad || (blockCrc b.bytes).1 != (blockCrc b.bytes).2)) = true ∧ s.mode ≠ mRESET → 488 ∈ t.raised)) ∧
  (∀ (s : State) (b : Block) (rest : List Block) (bad : Bool), s.oq.blocks = b :: rest → s.memReady = true ∧ s.engineTurn 0 = true → s.pbBase + s.pbSize ≤ s.localSize ∧ s.rd F.MEM_PB_WPTR_OFS < s.pbSize ∧ s.rd F.MEM_PB_WPTR_OFS % 32 = 0 → (ringPlace s.pbSize (s.rd F.MEM_PB_WPTR_OFS) (s.rd F.MEM_PB_RPTR_OFS) 32 (stagingRecord s.mem.seq b.furrow (if ((blockCrc b.bytes).1 != 0xFFFFFFFF - (blockCrc b.bytes).2 && (bad || (blockCrc b.bytes).1 != (blockCrc b.bytes).2)) = true then b.bytes.take (b.bytes.length - 4) ++ bytesOf 4 (0xFFFFFFFF - (blockCrc b.bytes).2) else b.bytes)).length = none) → 
      answers (.stagingRecord bad) s fun t =>
        t.oq = { s.oq with blocks := rest } ∧ t.mem.seq = (s.mem.seq + 1) % 2 ^ 32 ∧
        t.rd F.MEM_PB_WPTR_OFS = s.rd F.MEM_PB_WPTR_OFS ∧
        t.rd F.MEM_PB_OVF_CNT_COUNT = min (s.rd F.MEM_PB_OVF_CNT_COUNT + 1) (2 ^ 32 - 1) ∧ t.on F.MEM_PB_OVF_CAUSE_FULL = true ∧
        (s.rd F.MEM_PB_OVF_CNT_COUNT = 0 ∧ s.mode ≠ mRESET → 492 ∈ t.raised) ∧
        t.mem.dram = s.mem.dram ∧
        (((blockCrc b.bytes).1 != 0xFFFFFFFF - (blockCrc b.bytes).2 && (bad || (blockCrc b.bytes).1 != (blockCrc b.bytes).2)) = true ∧ s.mode ≠ mRESET → 488 ∈ t.raised)) ∧
  (∀ (s : State) (b : Block) (rest : List Block) (bad : Bool), s.oq.blocks = b :: rest → s.place 0 (s.pbBase + s.rd F.MEM_PB_WPTR_OFS) = .bad 2 → 
      answers (.stagingRecord bad) s fun t =>
        t.oq = { s.oq with blocks := rest } ∧ t.mem.seq = (s.mem.seq + 1) % 2 ^ 32 ∧
        t.rd F.MEM_PB_WPTR_OFS = s.rd F.MEM_PB_WPTR_OFS ∧
        t.rd F.MEM_PB_OVF_CNT_COUNT = min (s.rd F.MEM_PB_OVF_CNT_COUNT + 1) (2 ^ 32 - 1) ∧ t.on F.MEM_PB_OVF_CAUSE_WINDOW = true ∧
        (s.rd F.MEM_PB_OVF_CNT_COUNT = 0 ∧ s.mode ≠ mRESET → 492 ∈ t.raised) ∧
        t.mem.dram = s.mem.dram ∧
        (((blockCrc b.bytes).1 != 0xFFFFFFFF - (blockCrc b.bytes).2 && (bad || (blockCrc b.bytes).1 != (blockCrc b.bytes).2)) = true ∧ s.mode ≠ mRESET → 496 ∈ t.raised)) ∧
  (∀ (s : State) (b : Block) (rest : List Block) (bad : Bool) (h o : Nat), s.oq.blocks = b :: rest → s.place 0 (s.pbBase + s.rd F.MEM_PB_WPTR_OFS) = .host h → (ringPlace s.pbSize (s.rd F.MEM_PB_WPTR_OFS) (s.rd F.MEM_PB_RPTR_OFS) 32 (stagingRecord s.mem.seq b.furrow (if ((blockCrc b.bytes).1 != 0xFFFFFFFF - (blockCrc b.bytes).2 && (bad || (blockCrc b.bytes).1 != (blockCrc b.bytes).2)) = true then b.bytes.take (b.bytes.length - 4) ++ bytesOf 4 (0xFFFFFFFF - (blockCrc b.bytes).2) else b.bytes)).length = some (o, false)) → (s.inHost 0 (s.pbBase + o) (stagingRecord s.mem.seq b.furrow (if ((blockCrc b.bytes).1 != 0xFFFFFFFF - (blockCrc b.bytes).2 && (bad || (blockCrc b.bytes).1 != (blockCrc b.bytes).2)) = true then b.bytes.take (b.bytes.length - 4) ++ bytesOf 4 (0xFFFFFFFF - (blockCrc b.bytes).2) else b.bytes)).length = true) → 
      answers (.stagingRecord bad) s fun t =>
        t.oq = { s.oq with blocks := rest } ∧ t.mem.seq = (s.mem.seq + 1) % 2 ^ 32 ∧
        (t.rd F.MEM_PB_WPTR_OFS = (o + (stagingRecord s.mem.seq b.furrow (if ((blockCrc b.bytes).1 != 0xFFFFFFFF - (blockCrc b.bytes).2 && (bad || (blockCrc b.bytes).1 != (blockCrc b.bytes).2)) = true then b.bytes.take (b.bytes.length - 4) ++ bytesOf 4 (0xFFFFFFFF - (blockCrc b.bytes).2) else b.bytes)).length) % s.pbSize % 2 ^ 32) ∧
        (t.mem.dram = s.mem.dram ∧ (t.lnk.tlps.drop s.lnk.tlps.length).flatMap Tlp.data = (stagingRecord s.mem.seq b.furrow (if ((blockCrc b.bytes).1 != 0xFFFFFFFF - (blockCrc b.bytes).2 && (bad || (blockCrc b.bytes).1 != (blockCrc b.bytes).2)) = true then b.bytes.take (b.bytes.length - 4) ++ bytesOf 4 (0xFFFFFFFF - (blockCrc b.bytes).2) else b.bytes))) ∧
        (((blockCrc b.bytes).1 != 0xFFFFFFFF - (blockCrc b.bytes).2 && (bad || (blockCrc b.bytes).1 != (blockCrc b.bytes).2)) = true ∧ s.mode ≠ mRESET → 496 ∈ t.raised)) ∧
  (∀ (s : State) (bad : Bool) (b : Block) (rest : List Block) (a : Nat), s.oq.blocks = b :: rest → s.place 0 (s.pbBase + s.rd F.MEM_PB_WPTR_OFS) = .loc a → (s.memBlocked = true ∧ (s.memState ≠ 3 ∨ Tab.get (fun _ => 0) s.mem.drain 0 = 0)) → 
      answers (.stagingRecord bad) s fun t =>
        t = s.memWake) ∧
  (∀ (s : State) (bad : Bool) (b : Block) (rest : List Block) (a : Nat), s.oq.blocks = b :: rest → s.place 0 (s.pbBase + s.rd F.MEM_PB_WPTR_OFS) = .loc a → s.memBlocked = false ∧ s.engineTurn 0 = false → 
      answers (.stagingRecord bad) s fun t =>
        t = s) ∧
  (∀ (s : State) (bad : Bool), s.oq.blocks = [] → 
      answers (.stagingRecord bad) s fun t =>
        t = s) ∧
  (∀ (s : State) (n : Fin 192) (u : Nat) (m : BitVec 64) (b : Nat), s.tilStopped = false → (s.tiller n).refRuns = true ∧ (s.tiller n).state = .running ∧ (s.tiller n).haltReq = false ∧ (s.tiller n).inTrap = false → (s.tiller n).candQ = [m] ∧ isCandidate m = false ∧ m.getLsbD 34 = false → (s.tiller n).own = some (b, (s.bank b).pcIndex) ∧ (s.tiller n).emitted = false ∧ (s.bank b).pcIndex < 2 ^ 24 → (s.tiller n).dmemCond = [] → (s.dbyte n 0xE000).toNat % 2 = (s.tiller n).refActive → 
      answers (.programBankProcess n u) s fun t =>
        (t.tiller n).candQ = [] ∧ (t.tiller n).state = .stalled ∧ (t.tiller n).refRuns = true ∧
        ((match (t.tiller n).stall with | some (.emit rd a l) => decide (rd = 0 ∧ a = 0x10000 ∧ 32 ≤ l) | _ => false) = true) ∧
        ((List.range 8).map (fun i => t.dbyte n (0 + i)) = bytesOf 8 (s.bank b).fallowTs) ∧
        ((List.range 4).map (fun i => t.dbyte n (8 + i)) = bytesOf 4 ((s.bank b).pcIndex * 2 ^ 8 + n.val)) ∧
        ((List.range 4).map (fun i => t.dbyte n (12 + i)) = bytesOf 4 ((s.bank b).tilt * 2 ^ 16 + (s.bank b).azimuth)) ∧
        (∀ l : Fin 6, t.dbyte n (16 + 2 * l.val) = BitVec.ofNat 8 (ambLog ((s.bank b).lane (6 * n.val + l)).fallowAmb))) ∧
  (∀ (s : State) (n : Fin 192) (u : Nat), s.tilStopped = true ∨ (s.tiller n).refRuns = false ∨ (s.tiller n).state ≠ .running ∨ (s.tiller n).haltReq = true ∨ (s.tiller n).inTrap = true ∨ (s.tiller n).candQ = [] → 
      answers (.programBankProcess n u) s fun t =>
        t = s) ∧
  (∀ (s : State), s.tilStopped = false → 
      answers .tNowUpdate s fun t =>
        ∀ n : Fin 192, if (s.tiller n).refRuns then ((List.range 4).map fun i => t.dbyte n (0xE004 + i)) = bytesOf 4 (unsigned 16 s.tRz) ∧ t.tiller n = { s.tiller n with dmem := (t.tiller n).dmem, dmemCond := (t.tiller n).dmemCond } else t.tiller n = s.tiller n) ∧
  (∀ (s : State), s.tilStopped = true → 
      answers .tNowUpdate s fun t =>
        t = s)

/-- Enable, disable, discharge and fault of the emitter. Of Table EM-5 the emitter takes the state that the latch, the recorded
causes, EN, the mode and the hedge give: INHIBITED with the SAFE-STOP latch, FAULT with a cause, DISCHARGING until it ends, OFF or
DISCHARGING without EN, INHIBITED where the hedge has not released, else WAIT, with EM_DAC at the first entry's curve value, or
FIRING. EN is rejected in SAFE-STOP and with the latch; it is latched as PENDING_ENABLE during discharge, with event 6. Clearing EN
drops a pending enable and discharges a charged emitter. Discharge completes at DIS_LEVEL, dropping what is pending, and not above
it; after 2 ms it faults with cause 2 and event 389. FAULT_CLR clears every cause and the state follows, or is rejected while a
laser-board cause is still hot. A command that finds what it sets, or nothing to act on, changes nothing. Commands shown to complete
here: emitterEnable, emitterDisable, faultClr, dischargeComplete, disTimeout. -/
def Obligations.EmitterStates : Prop :=
  (∀ (s : State), s.reaches → s.mode ≠ mSAFESTOP → s.latched = false → s.on F.EMI_CTRL_EN = false → s.emiState = eDISCHARGING → 
      answers .emitterEnable s fun t =>
        t.on F.EMI_CTRL_EN = true ∧ t.emiState = eDISCHARGING ∧
        t.on F.EMI_STATUS_PENDING_ENABLE = true ∧
        (s.on F.EMI_STATUS_PENDING_ENABLE = false → t.on F.SYS_PEND_STATUS_EMI = true ∧ 6 ∈ t.raised) ∧
        t = { s.accessed with regs := t.regs, raises := t.raises }) ∧
  (∀ (s : State), s.reaches → s.mode ≠ mSAFESTOP → s.latched = false → s.on F.EMI_CTRL_EN = false → s.emiState ≠ eDISCHARGING → 
      answers .emitterEnable s fun t =>
        t.on F.EMI_CTRL_EN = true ∧
        emiAt (State.emiNext (s.wr F.EMI_CTRL_EN 1) s.emiState) s.emiState t) ∧
  (∀ (s : State), s.reaches → s.mode ≠ mSAFESTOP → s.latched = false → s.on F.EMI_CTRL_EN = true → 
      answers .emitterEnable s fun t =>
        t = s.accessed) ∧
  (∀ (s : State), s.reaches → s.mode = mSAFESTOP ∨ s.latched = true → 
      answers .emitterEnable s fun t =>
        rejected s t) ∧
  (∀ (s : State), s.reaches → 
      answers .emitterDisable s fun t =>
        t.on F.EMI_CTRL_EN = false ∧ t.on F.EMI_STATUS_PENDING_ENABLE = false ∧ t.on F.SYS_PEND_STATUS_EMI = false ∧
        (emiAt (if s.on F.EMI_CTRL_EN = true ∧ s.emiState = eINHIBITED ∧ s.latched = false then eDISCHARGING else State.emiNext (s.wr F.EMI_CTRL_EN 0) s.emiState) s.emiState t) ∧
        (t.emiState = eDISCHARGING ∧ s.emiState ≠ eDISCHARGING → t.emi.shot.pulses = s.emi.shot.fired)) ∧
  (∀ (s : State), s.reaches → ¬(s.on F.EMI_LB_CFG_EN = true ∧ s.rd F.EMI_STATUS_LB_STAGE = 2 ∧ (s.on F.EMI_FAULT_CAUSE_LB_HOT = true ∨ s.on F.EMI_FAULT_CAUSE_LB_STALE = true)) → s.reg R.EMI_FAULT_CAUSE ≠ 0 → 
      answers .faultClr s fun t =>
        t.reg R.EMI_FAULT_CAUSE = 0 ∧
        (s.mode ≠ mDERATED → emiAt (State.emiNext (s.setReg R.EMI_FAULT_CAUSE 0) s.emiState) s.emiState t)) ∧
  (∀ (s : State), s.reaches → s.reg R.EMI_FAULT_CAUSE = 0 → 
      answers .faultClr s fun t =>
        t = s.accessed) ∧
  (∀ (s : State), s.reaches → s.on F.EMI_LB_CFG_EN = true ∧ s.rd F.EMI_STATUS_LB_STAGE = 2 ∧ (s.on F.EMI_FAULT_CAUSE_LB_HOT = true ∨ s.on F.EMI_FAULT_CAUSE_LB_STALE = true) → 
      answers .faultClr s fun t =>
        rejected s t) ∧
  (∀ (s : State) (fb : Fin 4096), s.emiState = eDISCHARGING → fb.val ≤ 16 * s.rd F.EMI_CHG_CFG_DIS_LEVEL → 
      answers (.dischargeComplete fb) s fun t =>
        t.rd F.EMI_CHG_STATUS_FB_MEAS = fb.val ∧
        emiAt (s.emiNext eOFF) eOFF t ∧
        t.on F.EMI_STATUS_PENDING_ENABLE = false ∧ t.on F.SYS_PEND_STATUS_EMI = false) ∧
  (∀ (s : State) (fb : Fin 4096), s.emiState ≠ eDISCHARGING ∨ 16 * s.rd F.EMI_CHG_CFG_DIS_LEVEL < fb.val → 
      answers (.dischargeComplete fb) s fun t =>
        t = s.wr F.EMI_CHG_STATUS_FB_MEAS fb) ∧
  (∀ (s : State), s.mode ≠ mRESET → s.emiState = eDISCHARGING → 
      answers .disTimeout s fun t =>
        t.reg R.EMI_FAULT_CAUSE = s.reg R.EMI_FAULT_CAUSE ||| (1 <<< 2) ∧
        (emiAt (if s.latched then eINHIBITED else eFAULT) s.emiState t) ∧
        389 ∈ t.raised ∧
        t.on F.EMI_STATUS_PENDING_ENABLE = false ∧ t.on F.SYS_PEND_STATUS_EMI = false) ∧
  (∀ (s : State), s.emiState ≠ eDISCHARGING → 
      answers .disTimeout s fun t =>
        t = s)

/-- The laser-board watch. The watch starts at NORMAL and, stopped, returns there with LB_VAL not valid. While it is enabled with a
valid N that has stood on the hot side of HOT_N for DWELL the stage rises to HOT with event 391 and cause 3, on the hot side of
WARM_N from NORMAL to WARM with event 390; on the cool side by more than HYST for DWELL it falls one step, HOT to WARM with event
390, or WARM to NORMAL, unless the flapping latch holds it. Stale samples clear VALID, raise 392, enter HOT and fault with cause 4.
The entry that makes more than 8 within 60 s sets LB_FLAP with event 393, and, being a fall, leaves the stage at HOT; a write of 1
releases it and empties its history. Without what they await these commands do nothing. Commands shown to complete here:
lbWatchEnable, lbWatchDisable, lbFlapRelease, lbStageRise, lbStageFall, lbStale. -/
def Obligations.LaserBoardWatch : Prop :=
  (∀ (s : State), s.reaches → s.on F.EMI_LB_CFG_EN = false → 
      answers .lbWatchEnable s fun t =>
        t.on F.EMI_LB_CFG_EN = true ∧ t.rd F.EMI_STATUS_LB_STAGE = 0 ∧
        (t.emi.lbHotWarm, t.emi.lbHotHot, t.emi.lbCoolWarm, t.emi.lbCoolHot) = (none, none, none, none)) ∧
  (∀ (s : State), s.reaches → s.on F.EMI_LB_CFG_EN = true → 
      answers .lbWatchEnable s fun t =>
        t = s.accessed) ∧
  (∀ (s : State), s.reaches → 
      (answers .lbWatchDisable s fun t =>
        t.on F.EMI_LB_CFG_EN = false ∧ t.rd F.EMI_STATUS_LB_STAGE = 0 ∧ t.on F.EMI_LB_VAL_VALID = false) ∧
      (answers .lbFlapRelease s fun t =>
        t = { s.accessed.wr F.EMI_STATUS_LB_FLAP 0 with emi := { s.emi with lbHist := [], lbCoolWarm := none, lbCoolHot := none } })) ∧
  (∀ (s : State) (u : Nat), s.mode ≠ mRESET → s.on F.EMI_LB_CFG_EN = true ∧ s.on F.EMI_LB_VAL_VALID = true → ((s.emi.lbHotHot.any fun v => decide (v + 1000000000 * s.rd F.EMI_LB_CFG_DWELL ≤ u)) = true) → s.rd F.EMI_STATUS_LB_STAGE < 2 → 
      answers (.lbStageRise u) s fun t =>
        t.rd F.EMI_STATUS_LB_STAGE = 2 ∧
        391 ∈ t.raised ∧
        t.reg R.EMI_FAULT_CAUSE = s.reg R.EMI_FAULT_CAUSE ||| (1 <<< 3) ∧
        (emiAt (if s.latched then eINHIBITED else eFAULT) s.emiState t) ∧
        t.emi.lbHist = recent u (s.emi.lbHist ++ [u]) ∧
        t.on F.EMI_STATUS_LB_FLAP = (s.on F.EMI_STATUS_LB_FLAP || decide (8 < (recent u (s.emi.lbHist ++ [u])).length)) ∧
        (s.on F.EMI_STATUS_LB_FLAP = false ∧ 8 < (recent u (s.emi.lbHist ++ [u])).length → 393 ∈ t.raised)) ∧
  (∀ (s : State) (u : Nat), s.mode ≠ mRESET → s.on F.EMI_LB_CFG_EN = true ∧ s.on F.EMI_LB_VAL_VALID = true → ((s.emi.lbHotHot.any fun v => decide (v + 1000000000 * s.rd F.EMI_LB_CFG_DWELL ≤ u)) = false ∧ (s.emi.lbHotWarm.any fun v => decide (v + 1000000000 * s.rd F.EMI_LB_CFG_DWELL ≤ u)) = true) → s.rd F.EMI_STATUS_LB_STAGE = 0 → 
      answers (.lbStageRise u) s fun t =>
        t.rd F.EMI_STATUS_LB_STAGE = 1 ∧
        390 ∈ t.raised ∧
        t.emi.lbHist = recent u (s.emi.lbHist ++ [u]) ∧
        t.on F.EMI_STATUS_LB_FLAP = (s.on F.EMI_STATUS_LB_FLAP || decide (8 < (recent u (s.emi.lbHist ++ [u])).length)) ∧
        (s.on F.EMI_STATUS_LB_FLAP = false ∧ 8 < (recent u (s.emi.lbHist ++ [u])).length → 393 ∈ t.raised)) ∧
  (∀ (s : State) (u : Nat), (¬(s.on F.EMI_LB_CFG_EN = true ∧ s.on F.EMI_LB_VAL_VALID = true) ∨ ((s.emi.lbHotHot.any fun v => decide (v + 1000000000 * s.rd F.EMI_LB_CFG_DWELL ≤ u)) = false ∨ 2 ≤ s.rd F.EMI_STATUS_LB_STAGE) ∧ ((s.emi.lbHotWarm.any fun v => decide (v + 1000000000 * s.rd F.EMI_LB_CFG_DWELL ≤ u)) = false ∨ 1 ≤ s.rd F.EMI_STATUS_LB_STAGE)) → 
      answers (.lbStageRise u) s fun t =>
        t = s) ∧
  (∀ (s : State) (u : Nat), s.mode ≠ mRESET → s.on F.EMI_LB_CFG_EN = true ∧ s.on F.EMI_LB_VAL_VALID = true → s.on F.EMI_STATUS_LB_FLAP = false → s.rd F.EMI_STATUS_LB_STAGE = 2 → ((s.emi.lbCoolHot.any fun v => decide (v + 1000000000 * s.rd F.EMI_LB_CFG_DWELL ≤ u)) = true) → 
      answers (.lbStageFall u) s fun t =>
        (t.rd F.EMI_STATUS_LB_STAGE = (if 8 < (recent u (s.emi.lbHist ++ [u])).length then 2 else 1)) ∧
        ((recent u (s.emi.lbHist ++ [u])).length ≤ 8 → 390 ∈ t.raised) ∧
        t.emi.lbHist = recent u (s.emi.lbHist ++ [u]) ∧
        t.on F.EMI_STATUS_LB_FLAP = (s.on F.EMI_STATUS_LB_FLAP || decide (8 < (recent u (s.emi.lbHist ++ [u])).length)) ∧
        (s.on F.EMI_STATUS_LB_FLAP = false ∧ 8 < (recent u (s.emi.lbHist ++ [u])).length → 393 ∈ t.raised)) ∧
  (∀ (s : State) (u : Nat), s.on F.EMI_LB_CFG_EN = true ∧ s.on F.EMI_LB_VAL_VALID = true → s.on F.EMI_STATUS_LB_FLAP = false → s.rd F.EMI_STATUS_LB_STAGE = 1 → ((s.emi.lbCoolWarm.any fun v => decide (v + 1000000000 * s.rd F.EMI_LB_CFG_DWELL ≤ u)) = true) → 
      answers (.lbStageFall u) s fun t =>
        t.rd F.EMI_STATUS_LB_STAGE = 0 ∧
        t = { s with regs := t.regs }) ∧
  (∀ (s : State) (u : Nat), (¬(s.on F.EMI_LB_CFG_EN = true ∧ s.on F.EMI_LB_VAL_VALID = true) ∨ s.on F.EMI_STATUS_LB_FLAP = true ∨ (s.rd F.EMI_STATUS_LB_STAGE ≠ 2 ∨ (s.emi.lbCoolHot.any fun v => decide (v + 1000000000 * s.rd F.EMI_LB_CFG_DWELL ≤ u)) = false) ∧ (s.rd F.EMI_STATUS_LB_STAGE ≠ 1 ∨ (s.emi.lbCoolWarm.any fun v => decide (v + 1000000000 * s.rd F.EMI_LB_CFG_DWELL ≤ u)) = false)) → 
      answers (.lbStageFall u) s fun t =>
        t = s) ∧
  (∀ (s : State) (u : Nat), s.mode ≠ mRESET → s.on F.EMI_LB_CFG_EN = true → 
      answers (.lbStale u) s fun t =>
        t.on F.EMI_LB_VAL_VALID = false ∧ t.rd F.EMI_STATUS_LB_STAGE = 2 ∧
        392 ∈ t.raised ∧
        t.reg R.EMI_FAULT_CAUSE = s.reg R.EMI_FAULT_CAUSE ||| (1 <<< 4) ∧
        (emiAt (if s.latched then eINHIBITED else eFAULT) s.emiState t) ∧
        (if s.rd F.EMI_STATUS_LB_STAGE = 2 then t.emi.lbHist = s.emi.lbHist else t.emi.lbHist = recent u (s.emi.lbHist ++ [u]) ∧ 391 ∈ t.raised)) ∧
  (∀ (s : State) (u : Nat), s.on F.EMI_LB_CFG_EN = false → 
      answers (.lbStale u) s fun t =>
        t = s)

/-- Line test, line faults, the power curve and the seed map. SHORT_TEST starts one pass from its first step while no point cycles
run and the emitter is not discharging, joins a pass that runs, and is rejected otherwise. A step belongs to a commanded pass or to
the automatic one of a fallow slot. The check before the lines faults with cause 5 unless EM_SENSE lies below SENSE_LO; each line
after it is OPEN below SENSE_LO, SHORT from SENSE_HI on, with event 384 for a new fault, and the end of the pass raises event 395. A
W1C write clears line-fault bits. A monotonic curve is copied whole, else the lowest failing entry shows in REJ with event 394. A
seed-map word is written unless it has a reserved bit set or its buffer is the active one while point cycles run. A sweep sync takes
one waiting sync, requests the buffer swap while point cycles run and advances the tilt step. Without what they await these commands
do nothing. Commands shown to complete here: shortTest, lineTestStep, lineTestPassEnd, lineFaultClear, curveCommit, curveCommitCopy,
seedMapWrite, sweepSync. -/
def Obligations.EmitterTestCurveAndMap : Prop :=
  (∀ (s : State), s.reaches → s.running = false → s.emiState ≠ eDISCHARGING → s.emi.testCmd = false → 
      answers .shortTest s fun t =>
        t = { s.accessed with emi := { s.emi with testCmd := true, testStep := 0 } }) ∧
  (∀ (s : State), s.reaches → s.running = false → s.emiState ≠ eDISCHARGING → s.emi.testCmd = true → 
      answers .shortTest s fun t =>
        t = s.accessed) ∧
  (∀ (s : State), s.reaches → s.running = true ∨ s.emiState = eDISCHARGING → 
      answers .shortTest s fun t =>
        rejected s t) ∧
  (∀ (s : State) (sense : Nat), (s.emi.testCmd = true ∨ (s.running = true ∧ s.on F.EMI_TEST_CFG_AUTO = true ∧ (s.his.cur.any fun x => x.kind == .fallow) = true)) → s.emi.testStep = 0 → 
      answers (.lineTestStep sense) s fun t =>
        (t.emi.testStep = if sense < 10 * s.rd F.EMI_TEST_CFG_SENSE_LO then 1 else if s.emi.testCmd then 35 else 0) ∧
        (if sense < 10 * s.rd F.EMI_TEST_CFG_SENSE_LO then t = { s with emi := t.emi } else t.reg R.EMI_FAULT_CAUSE = s.reg R.EMI_FAULT_CAUSE ||| (1 <<< 5) ∧ emiAt (if s.latched then eINHIBITED else eFAULT) s.emiState t)) ∧
  (∀ (s : State) (sense : Nat) (k : Fin 18), (s.emi.testCmd = true ∨ (s.running = true ∧ s.on F.EMI_TEST_CFG_AUTO = true ∧ (s.his.cur.any fun x => x.kind == .fallow) = true)) → s.emi.testStep = k.val + 1 → 
      answers (.lineTestStep sense) s fun t =>
        (t.emi.testStep = if 1 + k.val + 1 = 35 ∧ s.emi.testCmd = false then 0 else 1 + k.val + 1) ∧
        (t.rd F.EMI_ROW_OPEN_OPEN = if sense < 10 * s.rd F.EMI_TEST_CFG_SENSE_LO then withBit (s.rd F.EMI_ROW_OPEN_OPEN) k true else s.rd F.EMI_ROW_OPEN_OPEN) ∧
        (t.rd F.EMI_ROW_SHORT_SHORT = if 10 * s.rd F.EMI_TEST_CFG_SENSE_LO ≤ sense ∧ 10 * s.rd F.EMI_TEST_CFG_SENSE_HI ≤ sense then withBit (s.rd F.EMI_ROW_SHORT_SHORT) k true else s.rd F.EMI_ROW_SHORT_SHORT) ∧
        (s.mode ≠ mRESET ∧ (t.rd F.EMI_ROW_OPEN_OPEN ≠ s.rd F.EMI_ROW_OPEN_OPEN ∨ t.rd F.EMI_ROW_SHORT_SHORT ≠ s.rd F.EMI_ROW_SHORT_SHORT) → 384 ∈ t.raised)) ∧
  (∀ (s : State) (sense : Nat) (k : Fin 16), (s.emi.testCmd = true ∨ (s.running = true ∧ s.on F.EMI_TEST_CFG_AUTO = true ∧ (s.his.cur.any fun x => x.kind == .fallow) = true)) → s.emi.testStep = k.val + 19 → 
      answers (.lineTestStep sense) s fun t =>
        (t.emi.testStep = if 19 + k.val + 1 = 35 ∧ s.emi.testCmd = false then 0 else 19 + k.val + 1) ∧
        (t.rd F.EMI_COL_FAULT_OPEN = if sense < 10 * s.rd F.EMI_TEST_CFG_SENSE_LO then withBit (s.rd F.EMI_COL_FAULT_OPEN) k true else s.rd F.EMI_COL_FAULT_OPEN) ∧
        (t.rd F.EMI_COL_FAULT_SHORT = if 10 * s.rd F.EMI_TEST_CFG_SENSE_LO ≤ sense ∧ 10 * s.rd F.EMI_TEST_CFG_SENSE_HI ≤ sense then withBit (s.rd F.EMI_COL_FAULT_SHORT) k true else s.rd F.EMI_COL_FAULT_SHORT) ∧
        (s.mode ≠ mRESET ∧ (t.rd F.EMI_COL_FAULT_OPEN ≠ s.rd F.EMI_COL_FAULT_OPEN ∨ t.rd F.EMI_COL_FAULT_SHORT ≠ s.rd F.EMI_COL_FAULT_SHORT) → 384 ∈ t.raised)) ∧
  (∀ (s : State) (sense : Nat), (¬(s.emi.testCmd = true ∨ (s.running = true ∧ s.on F.EMI_TEST_CFG_AUTO = true ∧ (s.his.cur.any fun x => x.kind == .fallow) = true)) ∨ 35 ≤ s.emi.testStep) → 
      answers (.lineTestStep sense) s fun t =>
        t = s) ∧
  (∀ (s : State), s.mode ≠ mRESET → s.emi.testCmd = true ∧ s.emi.testStep = 35 → 
      answers .lineTestPassEnd s fun t =>
        t = { s with emi := { s.emi with testCmd := false, testStep := 0 }, raises := s.raises ++ [(395, s.reg R.SYS_MODE)] }) ∧
  (∀ (s : State), s.emi.testCmd = false ∨ s.emi.testStep ≠ 35 → 
      answers .lineTestPassEnd s fun t =>
        t = s) ∧
  (∀ (s : State) (r : Fin 3) (w : Word), s.reaches → 
      answers (.lineFaultClear r w) s fun t =>
        t.reg ([R.EMI_ROW_SHORT, R.EMI_ROW_OPEN, R.EMI_COL_FAULT].getD r 0) = s.reg ([R.EMI_ROW_SHORT, R.EMI_ROW_OPEN, R.EMI_COL_FAULT].getD r 0) &&& ~~~w) ∧
  (∀ (s : State), s.reaches → 
      answers .curveCommit s fun t =>
        t = s.accessed.wr F.EMI_STATUS_COMMIT_PENDING 1) ∧
  (∀ (s : State), s.running = false → s.on F.EMI_STATUS_COMMIT_PENDING = true → (∀ p : Fin 255, s.rd (F.EMI_CURVE_DAC p) ≤ s.rd (F.EMI_CURVE_DAC (p + 1))) → 
      answers .curveCommitCopy s fun t =>
        t.on F.EMI_STATUS_COMMIT_PENDING = false ∧ t.on F.EMI_STATUS_REJ_VALID = false ∧
        (∀ p : Fin 256, t.rd (F.EMI_CURVE_ACT_DAC p) = s.rd (F.EMI_CURVE_DAC p)) ∧
        t = { s with regs := t.regs }) ∧
  (∀ (s : State) (p : Fin 255), s.mode ≠ mRESET → s.running = false → s.on F.EMI_STATUS_COMMIT_PENDING = true → s.rd (F.EMI_CURVE_DAC (p + 1)) < s.rd (F.EMI_CURVE_DAC p) → (∀ q : Fin 255, q < p → s.rd (F.EMI_CURVE_DAC q) ≤ s.rd (F.EMI_CURVE_DAC (q + 1))) → 
      answers .curveCommitCopy s fun t =>
        t.on F.EMI_STATUS_COMMIT_PENDING = false ∧ t.on F.EMI_STATUS_REJ_VALID = true ∧ t.rd F.EMI_STATUS_REJ_P = p ∧
        (∀ q : Fin 256, t.rd (F.EMI_CURVE_ACT_DAC q) = s.rd (F.EMI_CURVE_ACT_DAC q)) ∧
        394 ∈ t.raised) ∧
  (∀ (s : State), s.running = true ∨ s.on F.EMI_STATUS_COMMIT_PENDING = false → 
      answers .curveCommitCopy s fun t =>
        t = s) ∧
  (∀ (s : State) (b : Fin 2) (e : Fin 8192) (hi : Bool) (w : Word), s.reaches → hi = true ∨ Word.field w 12 0 = 0 → s.running = false ∨ s.rd F.EMI_STATUS_ACTIVE_BUF ≠ (b : Nat) → 
      answers (.seedMapWrite b e hi w) s fun t =>
        (t.seedEntry b e = if hi then s.seedEntry b e % 2 ^ 32 + w.toNat * 2 ^ 32 else s.seedEntry b e / 2 ^ 32 * 2 ^ 32 + w.toNat) ∧
        t = { s.accessed with regs := t.regs }) ∧
  (∀ (s : State) (b : Fin 2) (e : Fin 8192) (hi : Bool) (w : Word), s.reaches → (hi = false ∧ Word.field w 12 0 ≠ 0) ∨ (s.running = true ∧ s.rd F.EMI_STATUS_ACTIVE_BUF = (b : Nat)) → 
      answers (.seedMapWrite b e hi w) s fun t =>
        rejected s t) ∧
  (∀ (s : State) (u : Nat), (s.helmNow u).hlm.syncs ≠ 0 → 
      answers (.sweepSync u) s fun t =>
        let h := s.helmNow u; t.hlm.syncs = h.hlm.syncs - 1 ∧ t.hlm.step = (if h.tl = 2 then (h.hlm.step + 1) % s.rd F.HLM_TILT_CFG_STEPS else h.hlm.step) ∧ t.emi.swapReq = (h.emi.swapReq || h.running)) ∧
  (∀ (s : State) (u : Nat), (s.helmNow u).hlm.syncs = 0 → 
      answers (.sweepSync u) s fun t =>
        t = s.helmNow u)

/-- Charge check, EM_FIRE edges, EM_DAC and the monitor. Before the first pulse of a shot in FIRING, EM_FB above EM_DAC by more than
TOL_HI suppresses the shot: its masks and pulses empty, SUPPRESS counts, the hedge gets a correction entry and event 385 is raised
once per point cycle; below by more than TOL_LO it counts as UNDER with event 386. An EM_FIRE edge in FIRING within half a coarse
period (the model's tolerance, log entry 189) of the instant of the next pulse of the train counts as fired, the first as a shot,
and opens a monitor window when MON_EN = 1; every edge is audited by the hedge, which trips on one beyond its allowance or more than
200 ns after LI_N fell. EM_DAC takes the curve value of the next entry that fires. A monitor edge in a window confirms it; outside
it is rogue, and the fourth within 50 us faults with cause 1 and event 388. A first window closed unconfirmed counts as missed, and
MISS_LIMIT misses in a row fault with cause 0 and event 387. Without what they await these commands do nothing. Commands shown to
complete here: chargeCheck, emFireEdge, dacUpdate, monitorEdge, monitorWindowClose. -/
def Obligations.EmitterShots : Prop :=
  (∀ (s : State) (fb : Fin 4096), s.mode ≠ mRESET → s.emiState = eFIRING ∧ s.emi.shot.pulses ≠ 0 ∧ s.emi.shot.fired = 0 → s.rd F.EMI_CHG_STATUS_DAC_CODE + 4 * s.rd F.EMI_CHG_CFG_TOL_HI < fb.val → s.hdg.queue.length < 8 → 
      answers (.chargeCheck fb) s fun t =>
        t.rd F.EMI_CHG_STATUS_FB_MEAS = fb.val ∧
        t.rd F.EMI_CNT_SUPPRESS_COUNT = min (s.rd F.EMI_CNT_SUPPRESS_COUNT + 1) (2 ^ 32 - 1) ∧
        t.emi.shot = { s.emi.shot with pulses := 0, suppressed := true } ∧ t.emi.rowsOut = 0 ∧ t.emi.colsOut = 0 ∧
        (t.emi.prep = s.emi.prep.map fun p => { p with rect := {}, pulses := 0 }) ∧
        (t.his.cur = if s.emi.prep = none then s.his.cur.map fun x => { x with rect := {} } else s.his.cur) ∧
        t.hdg.queue = s.hdg.queue ++ [.correction s.emi.shot.id] ∧
        (s.emi.highRaised = false → 385 ∈ t.raised)) ∧
  (∀ (s : State) (fb : Fin 4096), s.mode ≠ mRESET → s.emiState = eFIRING ∧ s.emi.shot.pulses ≠ 0 ∧ s.emi.shot.fired = 0 → s.rd F.EMI_CHG_STATUS_DAC_CODE + 4 * s.rd F.EMI_CHG_CFG_TOL_HI < fb.val → 8 ≤ s.hdg.queue.length → 
      answers (.chargeCheck fb) s fun t =>
        t.rd F.EMI_CNT_SUPPRESS_COUNT = min (s.rd F.EMI_CNT_SUPPRESS_COUNT + 1) (2 ^ 32 - 1) ∧
        t.on F.HDG_STATUS_LATCH = true ∧ (t.rd F.HDG_TRIP_CAUSE_CAUSE).testBit 10 = true) ∧
  (∀ (s : State) (fb : Fin 4096), s.mode ≠ mRESET → s.emiState = eFIRING ∧ s.emi.shot.pulses ≠ 0 ∧ s.emi.shot.fired = 0 → fb.val + 4 * s.rd F.EMI_CHG_CFG_TOL_LO < s.rd F.EMI_CHG_STATUS_DAC_CODE → fb.val ≤ s.rd F.EMI_CHG_STATUS_DAC_CODE + 4 * s.rd F.EMI_CHG_CFG_TOL_HI → 
      answers (.chargeCheck fb) s fun t =>
        t.rd F.EMI_CHG_STATUS_FB_MEAS = fb.val ∧
        t.rd F.EMI_CNT_UNDER_COUNT = min (s.rd F.EMI_CNT_UNDER_COUNT + 1) (2 ^ 32 - 1) ∧
        t.emi = { s.emi with lowRaised := true } ∧
        (s.emi.lowRaised = false → 386 ∈ t.raised)) ∧
  (∀ (s : State) (fb : Fin 4096), s.emiState = eFIRING ∧ s.emi.shot.pulses ≠ 0 ∧ s.emi.shot.fired = 0 → s.rd F.EMI_CHG_STATUS_DAC_CODE ≤ fb.val + 4 * s.rd F.EMI_CHG_CFG_TOL_LO ∧ fb.val ≤ s.rd F.EMI_CHG_STATUS_DAC_CODE + 4 * s.rd F.EMI_CHG_CFG_TOL_HI → 
      answers (.chargeCheck fb) s fun t =>
        t = s.wr F.EMI_CHG_STATUS_FB_MEAS fb) ∧
  (∀ (s : State) (fb : Fin 4096), ¬(s.emiState = eFIRING ∧ s.emi.shot.pulses ≠ 0 ∧ s.emi.shot.fired = 0) → 
      answers (.chargeCheck fb) s fun t =>
        t = s) ∧
  (∀ (s : State) (u : Nat) (late : Bool), ((s.emiState == eFIRING && decide (s.emi.shot.fired < s.emi.shot.pulses) && s.emi.shot.train[s.emi.shot.fired]?.any fun x => decide (x.1 ≤ u + 312) && decide (u ≤ x.1 + 312)) = true) → s.hdg.edges < s.hdg.allowance ∧ (late = false ∨ s.on F.HDG_STATUS_LI_LEVEL = true) → 
      answers (.emFireEdge u late) s fun t =>
        (t.emi = { s.emi with shot := { s.emi.shot with fired := s.emi.shot.fired + 1 }, windows := s.emi.windows ++ (if s.on F.EMI_MON_CFG_MON_EN then [(u, s.emi.shot.fired == 0, false)] else []) }) ∧
        (t.rd F.EMI_CNT_SHOTS_COUNT = min (s.rd F.EMI_CNT_SHOTS_COUNT + if s.emi.shot.fired = 0 then 1 else 0) (2 ^ 32 - 1)) ∧
        t.hdg = { s.hdg with edges := s.hdg.edges + 1 }) ∧
  (∀ (s : State) (u : Nat) (late : Bool), ((s.emiState == eFIRING && decide (s.emi.shot.fired < s.emi.shot.pulses) && s.emi.shot.train[s.emi.shot.fired]?.any fun x => decide (x.1 ≤ u + 312) && decide (u ≤ x.1 + 312)) = false) → s.hdg.edges < s.hdg.allowance ∧ (late = false ∨ s.on F.HDG_STATUS_LI_LEVEL = true) → 
      answers (.emFireEdge u late) s fun t =>
        t = { s with hdg := { s.hdg with edges := s.hdg.edges + 1 } }) ∧
  (∀ (s : State) (u : Nat) (late : Bool), s.hdg.allowance ≤ s.hdg.edges ∨ (late = true ∧ s.on F.HDG_STATUS_LI_LEVEL = false) → 
      answers (.emFireEdge u late) s fun t =>
        t.on F.HDG_STATUS_LATCH = true ∧ (t.rd F.HDG_TRIP_CAUSE_CAUSE).testBit 6 = true ∧
        (t.emi.shot.fired = s.emi.shot.fired + (if (s.emiState == eFIRING && decide (s.emi.shot.fired < s.emi.shot.pulses) && s.emi.shot.train[s.emi.shot.fired]?.any fun x => decide (x.1 ≤ u + 312) && decide (u ≤ x.1 + 312)) then 1 else 0))) ∧
  (∀ (s : State) (x : Nat), s.emiState = eFIRING → s.nextShot = some x → 
      answers .dacUpdate s fun t =>
        t = s.wr F.EMI_CHG_STATUS_DAC_CODE (s.rd (F.EMI_CURVE_ACT_DAC (s.effCode (bits x 29 22))))) ∧
  (∀ (s : State) (x : Slot), s.emiState = eFIRING → s.his.cur = some x → (x.kind = .fallow ∧ 0 < (s.bank s.his.active).h) ∨ (x.kind = .harrow ∧ x.index + 1 < (s.bank s.his.active).h) → silentEntry (s.seedEntry (s.rd F.EMI_STATUS_ACTIVE_BUF) s.emi.ptr) s.emi.shortRows s.emi.shortCols = false → 
      answers .dacUpdate s fun t =>
        t = s.wr F.EMI_CHG_STATUS_DAC_CODE (s.dacOf (s.seedEntry (s.rd F.EMI_STATUS_ACTIVE_BUF) s.emi.ptr))) ∧
  (∀ (s : State), s.emiState ≠ eFIRING ∨ s.nextShot = none → 
      answers .dacUpdate s fun t =>
        t = s) ∧
  (∀ (s : State) (u : Nat), s.tilHeld = false → s.on F.EMI_MON_CFG_MON_EN = true → (s.emi.windows.any (fun (w : Nat × Bool × Bool) => decide (w.1 ≤ u) && decide (u < w.1 + 1250 * s.rd F.EMI_MON_CFG_MON_WIN)) = true) → 
      answers (.monitorEdge u) s fun t =>
        (t = { s with emi := { s.emi with windows := s.emi.windows.map fun w => if (fun (w : Nat × Bool × Bool) => decide (w.1 ≤ u) && decide (u < w.1 + 1250 * s.rd F.EMI_MON_CFG_MON_WIN)) w then (w.1, w.2.1, true) else w, missRun := t.emi.missRun, shot := t.emi.shot } }) ∧
        (if s.emi.windows.any (fun w => (fun (w : Nat × Bool × Bool) => decide (w.1 ≤ u) && decide (u < w.1 + 1250 * s.rd F.EMI_MON_CFG_MON_WIN)) w && w.2.1) = true then t.emi.missRun = 0 ∧ t.emi.shot = { s.emi.shot with confirmed := true } else t.emi.missRun = s.emi.missRun ∧ t.emi.shot = s.emi.shot)) ∧
  (∀ (s : State) (u : Nat), s.tilHeld = false → s.on F.EMI_MON_CFG_MON_EN = true → (s.emi.windows.any (fun (w : Nat × Bool × Bool) => decide (w.1 ≤ u) && decide (u < w.1 + 1250 * s.rd F.EMI_MON_CFG_MON_WIN)) = false) → 
      answers (.monitorEdge u) s fun t =>
        t.rd F.EMI_CNT_ROGUE_COUNT = min (s.rd F.EMI_CNT_ROGUE_COUNT + 1) (2 ^ 32 - 1) ∧
        (t.emi.rogue = (s.emi.rogue ++ [u]).filter fun v => decide (u < v + 50000000)) ∧
        (if 4 ≤ t.emi.rogue.length then t.reg R.EMI_FAULT_CAUSE = s.reg R.EMI_FAULT_CAUSE ||| (1 <<< 1) ∧ emiAt (if s.latched then eINHIBITED else eFAULT) s.emiState t ∧ 388 ∈ t.raised else t = { s with regs := t.regs, emi := { s.emi with rogue := t.emi.rogue } })) ∧
  (∀ (s : State) (u : Nat), s.tilHeld = true ∨ s.on F.EMI_MON_CFG_MON_EN = false → 
      answers (.monitorEdge u) s fun t =>
        t = s) ∧
  (∀ (s : State) (u : Nat) (first ok : Bool) (rest : List (Nat × Bool × Bool)), s.mode ≠ mRESET → s.emi.windows = (u, first, ok) :: rest → 
      answers .monitorWindowClose s fun t =>
        t.emi.windows = rest ∧
        (t.emi.missRun = s.emi.missRun + (if first && !ok then 1 else 0)) ∧
        (t.rd F.EMI_CNT_MON_MISS_COUNT = min (s.rd F.EMI_CNT_MON_MISS_COUNT + if first && !ok then 1 else 0) (2 ^ 32 - 1)) ∧
        (if first = true ∧ ok = false ∧ s.emi.missRun + 1 = s.rd F.EMI_MON_CFG_MISS_LIMIT then t.reg R.EMI_FAULT_CAUSE = s.reg R.EMI_FAULT_CAUSE ||| (1 <<< 0) ∧ emiAt (if s.latched then eINHIBITED else eFAULT) s.emiState t ∧ 387 ∈ t.raised else t = { s with regs := t.regs, emi := t.emi })) ∧
  (∀ (s : State), s.emi.windows = [] → 
      answers .monitorWindowClose s fun t =>
        t = s)

/-- The helm's tick, encoder, facets, law pages, PWM and trace. A tick latches Hall, FAULT_N, the interpolated angle and the facet,
copies pending law pages, takes every fourth tick the speed as the angle moved since the last sample and the phase reference, takes
an OFF spindle under the run condition to CATCH when an edge was counted in the last 50 ms and to SPIN_UP otherwise, and asks for
the tilt sample, by an urgent request or 0.4 us later. A legal transition moves the count by one modulo 4 CPR; an illegal one is
counted, and four within 4 CPR transitions fault the encoder (cause 1). With INDEX_EN the first index zeroes the count; a later one
checks it within two counts, zeroes and counts an error beyond, and faults at the third in a row. A facet crossing shows the facet;
while LOCKED it makes a local sweep sync under SRC 1, and a SWEEP frame on a master. LAW_COMMIT pends; a PWM period loads its
group's compares unless the hedge gates the pads; TRACE_ARM empties the trace and TRACE_FORCE triggers it once PRE samples are in.
In RESET the helm does nothing. Commands shown to complete here: helmTick, encoderTransition, encoderIndex, facetCrossing,
lawCommit, traceArm, pwmPeriodStart, traceForce. -/
def Obligations.HelmTickAndEncoder : Prop :=
  (∀ (s : State) (u : Nat) (hall : Fin 8) (low : Bool), s.mode ≠ mRESET → 
      answers (.helmTick u hall low) s fun t =>
        t.hlm.tick = s.hlm.tick + 1 ∧ t.hlm.hall = hall ∧ t.hlm.faultLow = low ∧
        t.rd F.HLM_MEAS_ANGLE_THETA = s.thetaAt u % 2 ^ 32 ∧ t.rd F.HLM_STATUS_FACET = s.facetOf (s.thetaAt u) % 64 ∧
        t.on F.HLM_STATUS_COMMIT_PENDING = false ∧
        (s.on F.HLM_STATUS_COMMIT_PENDING = true → t.hlm.act = Tab.range s.regs 0x700100 0x700200) ∧
        (s.on F.HLM_STATUS_COMMIT_PENDING = false → t.hlm.act = s.hlm.act) ∧
        (s.hlm.tick % 4 = 0 → t.rdS F.HLM_MEAS_SPEED_OMEGA = signed 32 ((s.thetaAt u + 2 ^ 32 - s.hlm.theta) % 2 ^ 32) ∧ t.hlm.theta = s.thetaAt u) ∧
        (s.hlm.tick % 4 = 0 → t.hlm.thetaRef = if s.hlm.epoch = true ∧ s.on F.HLM_SWEEP_CFG_REF_SRC = true then s.rd F.HLM_PHASE_OFS_OFS else (s.hlm.thetaRef + s.rd F.HLM_SPEED_REF_TARGET) % 2 ^ 32) ∧
        (t.hlm.waitTl = true ∧ t.hlm.tiltDue = some (u + 400000) ∧ t.hlm.tiltUrg = s.on F.HLM_TILT_CFG_URGENT ∧ (s.on F.HLM_TILT_CFG_URGENT = true → t.adc.helmUrgent = true)) ∧
        (s.helmRuns = true ∧ s.sp = hOFF ∧ s.hlm.tick % 4 ≠ 0 → t.sp = if s.hlm.lastEdge ≠ 0 ∧ u < s.hlm.lastEdge - 1 + 50000000000 then hCATCH else hSPIN_UP)) ∧
  (∀ (s : State) (u : Nat) (hall : Fin 8) (low a b : Bool), s.mode = mRESET → 
      (answers (.helmTick u hall low) s fun t =>
        t = s) ∧
      (answers (.encoderTransition a b u) s fun t =>
        t = s)) ∧
  (∀ (s : State), s.mode = mRESET ∨ s.on F.HLM_ENC_CFG_INDEX_EN = false → 
      answers .encoderIndex s fun t =>
        t = s) ∧
  (∀ (s : State) (a b : Bool) (u k : Nat), s.mode ≠ mRESET → quad s.hlm.encA s.hlm.encB a b = some k → k = 1 ∨ k = 2 → 
      answers (.encoderTransition a b u) s fun t =>
        t.hlm.encA = a ∧ t.hlm.encB = b ∧ t.hlm.trans = s.hlm.trans + 1 ∧ t.hlm.lastEdge = u + 1 ∧ t.hlm.prevEdge = s.hlm.lastEdge ∧ t.hlm.forward = decide (k = 1) ∧
        (t.hlm.travel = if k = 1 then s.hlm.travel + 1 else s.hlm.travel - 1) ∧
        (t.rd F.HLM_ENC_COUNT_COUNT = (if k = 1 then s.rd F.HLM_ENC_COUNT_COUNT + 1 else s.rd F.HLM_ENC_COUNT_COUNT + s.counts - 1) % s.counts)) ∧
  (∀ (s : State) (a b : Bool) (u : Nat), s.mode ≠ mRESET → quad s.hlm.encA s.hlm.encB a b = some 0 → 
      answers (.encoderTransition a b u) s fun t =>
        t.hlm.encA = a ∧ t.hlm.encB = b ∧ t.hlm.trans = s.hlm.trans + 1 ∧
        t.rd F.HLM_CNT_ENC_ERR_COUNT = min (s.rd F.HLM_CNT_ENC_ERR_COUNT + 1) (2 ^ 32 - 1) ∧ t.rd F.HLM_ENC_COUNT_COUNT = s.rd F.HLM_ENC_COUNT_COUNT ∧
        (if 4 ≤ ((s.hlm.illegal ++ [s.hlm.trans + 1]).filter fun i => decide (s.hlm.trans + 1 < i + s.counts)).length then t.sp = hFAULT ∧ (t.rd F.HLM_FAULT_CAUSE_CAUSE).testBit 1 = true ∧ 421 ∈ t.raised ∧ t.on F.HLM_STATUS_INDEX_SEEN = false else t.hlm.illegal = ((s.hlm.illegal ++ [s.hlm.trans + 1]).filter fun i => decide (s.hlm.trans + 1 < i + s.counts)) ∧ t.sp = s.sp)) ∧
  (∀ (s : State) (a b : Bool) (u : Nat), quad s.hlm.encA s.hlm.encB a b = none → 
      answers (.encoderTransition a b u) s fun t =>
        t = s) ∧
  (∀ (s : State), s.mode ≠ mRESET → s.on F.HLM_ENC_CFG_INDEX_EN = true → s.on F.HLM_STATUS_INDEX_SEEN = false → 
      answers .encoderIndex s fun t =>
        t.on F.HLM_STATUS_INDEX_SEEN = true ∧ t.rd F.HLM_ENC_COUNT_COUNT = 0 ∧ t.rd F.HLM_STATUS_FACET = t.facetOf 0 % 64) ∧
  (∀ (s : State), s.mode ≠ mRESET → s.on F.HLM_ENC_CFG_INDEX_EN = true → s.on F.HLM_STATUS_INDEX_SEEN = true → s.rd F.HLM_ENC_COUNT_COUNT ≤ 2 ∨ s.counts ≤ s.rd F.HLM_ENC_COUNT_COUNT + 2 → 
      answers .encoderIndex s fun t =>
        t = s.hl fun h => { h with indexErrs := 0 }) ∧
  (∀ (s : State), s.mode ≠ mRESET → s.on F.HLM_ENC_CFG_INDEX_EN = true → s.on F.HLM_STATUS_INDEX_SEEN = true → 2 < s.rd F.HLM_ENC_COUNT_COUNT ∧ s.rd F.HLM_ENC_COUNT_COUNT + 2 < s.counts → 
      answers .encoderIndex s fun t =>
        t.rd F.HLM_ENC_COUNT_COUNT = 0 ∧ 422 ∈ t.raised ∧
        t.rd F.HLM_CNT_ENC_ERR_COUNT = min (s.rd F.HLM_CNT_ENC_ERR_COUNT + 1) (2 ^ 32 - 1) ∧
        (if 3 ≤ s.hlm.indexErrs + 1 then t.sp = hFAULT ∧ (t.rd F.HLM_FAULT_CAUSE_CAUSE).testBit 1 = true ∧ 421 ∈ t.raised else t.hlm.indexErrs = s.hlm.indexErrs + 1 ∧ t.sp = s.sp)) ∧
  (∀ (s : State) (u : Nat), s.sp = hLOCKED → 
      answers (.facetCrossing u) s fun t =>
        t.rd F.HLM_STATUS_FACET = s.facetOf (s.thetaAt u) % 64 ∧
        (t.hlm.syncs = if s.hlm.src = 1 then s.hlm.syncs + 1 else s.hlm.syncs) ∧
        (if s.rd F.MER_STATUS_STATE = 5 then t.mer = { s.mer with sweeps := (s.mer.sweeps + 1) % 2 ^ 40, due := s.mer.due ++ [⟨.sweep, 0, (s.mer.sweeps + 1) % 2 ^ 40⟩] } else t.mer = s.mer)) ∧
  (∀ (s : State) (u : Nat), s.sp ≠ hLOCKED → 
      answers (.facetCrossing u) s fun t =>
        t = s.wr F.HLM_STATUS_FACET (s.facetOf (s.thetaAt u))) ∧
  (∀ (s : State), s.mode ≠ mRESET → 
      (answers .lawCommit s fun t =>
        t = s.accessed.wr F.HLM_STATUS_COMMIT_PENDING 1) ∧
      (answers .traceArm s fun t =>
        t.on F.HLM_TRACE_STATUS_RECORDING = true ∧ t.on F.HLM_TRACE_STATUS_DONE = false ∧ t.rd F.HLM_TRACE_STATUS_OLDEST = 0 ∧
        t.hlm = { s.hlm with trDec := 0, trN := 0, trLeft := none, trPrev := 0 })) ∧
  (∀ (s : State) (tilt : Bool), 
      answers (.pwmPeriodStart tilt) s fun t =>
        let x := (match s.hlm.tiltDue with | some v => if s.hlm.tiltUrg = true then s else s.helmNow (v + 1) | none => s); t = if s.on F.HDG_STATUS_PWM_GATE then x else x.hl fun h => { h with pins := if tilt then h.pins.take 6 ++ h.shadow.drop 6 else h.shadow.take 6 ++ h.pins.drop 6 }) ∧
  (∀ (s : State), s.mode ≠ mRESET → s.on F.HLM_TRACE_STATUS_RECORDING = false ∨ s.hlm.trLeft ≠ none ∨ s.hlm.trN < s.rd F.HLM_TRACE_CFG_PRE → 
      answers .traceForce s fun t =>
        t = s.accessed) ∧
  (∀ (s : State), s.mode ≠ mRESET → s.on F.HLM_TRACE_STATUS_RECORDING = true → s.hlm.trLeft = none → s.rd F.HLM_TRACE_CFG_PRE ≤ s.hlm.trN → 
      answers .traceForce s fun t =>
        t = s.accessed.hl fun h => { h with trLeft := some (4096 - s.rd F.HLM_TRACE_CFG_PRE) })

/-- The spindle's states. EN set is rejected in SAFE-STOP, latched as pending during braking, and takes an OFF spindle, where the
run condition holds, to CATCH when an edge was counted in the 50 ms before the last tick (log entry 191) and to SPIN_UP otherwise;
EN cleared drops a pending enable and brakes a driven spindle. A TARGET above MAX is rejected; an accepted one in LOCKED hands over
to L0 and enters SPIN_UP. The catch measurement ends in SPIN_UP, at the measured speed or from rest, or in the brake of a backward
spin within CATCH. A lock attempt with its conditions is accepted within a quarter facet (LOCKED, event 416), the first of a stay
with the reference its own taking the present angle; else it is refused, counted and pulled. Unlock returns to LOCKING with event
418, its flapping latched at the ninth within 60 s with event 419; a write of 1 releases it. A hand-over clears HO_ACTIVE at its
end. Braking ends in OFF with outputs released at standstill (event 428) or timeout (427), consuming a pending enable, which starts
the spindle again where the run condition holds; a backward catch ends in SPIN_UP, or CATCH again. Without what they await these
commands do nothing. Commands shown to complete here: helmEnable, helmDisable, speedRefWrite, catchMeasureEnd, lockAttempt, unlock,
lockFlapRelease, handoverEnd, standstill, brakeTimeout. -/
def Obligations.HelmSpindleStates : Prop :=
  (∀ (s : State), s.mode ≠ mRESET → s.mode ≠ mSAFESTOP → s.on F.HLM_CTRL_EN = false → s.sp = hBRAKING → 
      answers .helmEnable s fun t =>
        t.on F.HLM_CTRL_EN = true ∧ t.sp = hBRAKING ∧ t.on F.HLM_STATUS_PENDING_ENABLE = true ∧
        (s.on F.HLM_STATUS_PENDING_ENABLE = false → t.on F.SYS_PEND_STATUS_HLM = true ∧ 6 ∈ t.raised) ∧
        t = { s.accessed with regs := t.regs, raises := t.raises }) ∧
  (∀ (s : State), s.mode ≠ mRESET → s.mode ≠ mSAFESTOP → s.on F.HLM_CTRL_EN = false → s.sp = hOFF → 
      answers .helmEnable s fun t =>
        t.on F.HLM_CTRL_EN = true ∧
        (t.sp = if (s.wr F.HLM_CTRL_EN 1).helmRuns then (if s.hlm.lastEdge ≠ 0 ∧ s.hlm.tickAt < s.hlm.lastEdge - 1 + 50000000000 then hCATCH else hSPIN_UP) else hOFF) ∧
        (t.sp = hSPIN_UP → t.hlm.law = some 0 ∧ t.hlm.wRef = 0 ∧ t.hlm.ySp = 0) ∧
        (t.sp = hCATCH → t.hlm.law = none ∧ t.hlm.ySp = 0 ∧ t.hlm.uSp = 0 ∧ t.hlm.pins.take 6 = [0, 0, 0, 0, 0, 0] ∧ t.hlm.waitSp = false)) ∧
  (∀ (s : State), s.mode ≠ mRESET → s.mode ≠ mSAFESTOP → s.on F.HLM_CTRL_EN = false → s.sp ≠ hOFF ∧ s.sp ≠ hBRAKING → 
      answers .helmEnable s fun t =>
        t.on F.HLM_CTRL_EN = true ∧
        (t.sp = if (s.wr F.HLM_CTRL_EN 1).helmRuns = true ∨ s.sp = hFAULT then s.sp else hBRAKING)) ∧
  (∀ (s : State), s.mode = mSAFESTOP → 
      answers .helmEnable s fun t =>
        rejected s t) ∧
  (∀ (s : State), s.mode ≠ mRESET → s.mode ≠ mSAFESTOP → s.on F.HLM_CTRL_EN = true → 
      answers .helmEnable s fun t =>
        t = s.accessed) ∧
  (∀ (s : State), s.mode ≠ mRESET → s.on F.HLM_CTRL_EN = true → 
      answers .helmDisable s fun t =>
        t.on F.HLM_CTRL_EN = false ∧
        t.on F.HLM_STATUS_PENDING_ENABLE = false ∧ t.on F.SYS_PEND_STATUS_HLM = false ∧
        (t.sp = if s.sp = hOFF then hOFF else if s.sp = hFAULT then hFAULT else hBRAKING) ∧
        t.hlm.catchBrake = false) ∧
  (∀ (s : State), s.mode ≠ mRESET → s.on F.HLM_CTRL_EN = false → 
      answers .helmDisable s fun t =>
        t = s.accessed) ∧
  (∀ (s : State) (w : Word), s.mode ≠ mRESET → w.toNat ≤ s.rd F.HLM_SP_LIM_MAX → 
      answers (.speedRefWrite w) s fun t =>
        t.rd F.HLM_SPEED_REF_TARGET = w.toNat ∧
        (t.sp = if s.sp = hLOCKED then hSPIN_UP else s.sp) ∧
        (s.sp = hLOCKED → t.hlm.law = some 0 ∧ t.hlm.ySp = s.hlm.ySp ∧ t.on F.HLM_STATUS_HO_ACTIVE = true) ∧
        (s.sp ≠ hLOCKED → t = { s.accessed with regs := t.regs })) ∧
  (∀ (s : State) (w : Word), s.mode ≠ mRESET → s.rd F.HLM_SP_LIM_MAX < w.toNat → 
      answers (.speedRefWrite w) s fun t =>
        rejected s t) ∧
  (∀ (s : State), s.sp = hCATCH → s.hlm.law = none → 
      answers .catchMeasureEnd s fun t =>
        (if 256 * (s.rd F.HLM_BRAKE_LIM_STOP_SPD : Int) ≤ s.rdS F.HLM_MEAS_SPEED_OMEGA then t.sp = hSPIN_UP ∧ t.hlm.wRef = s.rdS F.HLM_MEAS_SPEED_OMEGA else if s.rdS F.HLM_MEAS_SPEED_OMEGA ≤ -(256 * (s.rd F.HLM_BRAKE_LIM_STOP_SPD : Int)) then t.sp = hCATCH ∧ t.hlm.wRef = s.rdS F.HLM_MEAS_SPEED_OMEGA ∧ t.hlm.catchBrake = true else t.sp = hSPIN_UP ∧ t.hlm.wRef = 0) ∧
        t.hlm.law = some 0 ∧ t.hlm.ySp = 0 ∧ t.on F.HLM_STATUS_HO_ACTIVE = true) ∧
  (∀ (s : State), s.sp ≠ hCATCH ∨ s.hlm.law ≠ none → 
      answers .catchMeasureEnd s fun t =>
        t = s) ∧
  (∀ (s : State), s.mode ≠ mRESET → (s.sp = hLOCKING ∧ s.rd F.HLM_LOCK_CFG_LOCK_DWELL ≤ s.hlm.dwell ∧ s.on F.HLM_STATUS_INDEX_SEEN = true ∧ Word.field (s.page 1 0) 1 0 ≠ 0 ∧ s.on F.HLM_STATUS_LOCK_FLAP = false) → (((if s.hlm.first = true ∧ s.on F.HLM_SWEEP_CFG_REF_SRC = false then 0 else s.rdS F.HLM_MEAS_PHASE_E_PH)).natAbs ≤ s.facetAngle / 4) → 
      answers .lockAttempt s fun t =>
        t.sp = hLOCKED ∧ t.hlm.law = some 1 ∧ t.hlm.ySp = s.hlm.ySp ∧ t.hlm.unlockRun = 0 ∧ t.hlm.pull = 0 ∧ t.on F.HLM_STATUS_HO_ACTIVE = true ∧
        416 ∈ t.raised ∧
        (t.hlm.first = false ∧ t.hlm.waitSp = false ∧ t.hlm.thetaRef = if s.hlm.first = true ∧ s.on F.HLM_SWEEP_CFG_REF_SRC = false then s.hlm.theta else s.hlm.thetaRef)) ∧
  (∀ (s : State), s.mode ≠ mRESET → (s.sp = hLOCKING ∧ s.rd F.HLM_LOCK_CFG_LOCK_DWELL ≤ s.hlm.dwell ∧ s.on F.HLM_STATUS_INDEX_SEEN = true ∧ Word.field (s.page 1 0) 1 0 ≠ 0 ∧ s.on F.HLM_STATUS_LOCK_FLAP = false) → (s.facetAngle / 4 < ((if s.hlm.first = true ∧ s.on F.HLM_SWEEP_CFG_REF_SRC = false then 0 else s.rdS F.HLM_MEAS_PHASE_E_PH)).natAbs) → 
      answers .lockAttempt s fun t =>
        t.sp = hLOCKING ∧ t.hlm.dwell = 0 ∧ t.hlm.refused = true ∧ t.hlm.first = false ∧ t.hlm.waitSp = false ∧
        t.rd F.HLM_CNT_LOCK_REF_COUNT = min (s.rd F.HLM_CNT_LOCK_REF_COUNT + 1) (2 ^ 32 - 1) ∧
        (s.hlm.refused = false → 417 ∈ t.raised) ∧
        (t.hlm.pull = (if 0 < (if s.hlm.first = true ∧ s.on F.HLM_SWEEP_CFG_REF_SRC = false then 0 else s.rdS F.HLM_MEAS_PHASE_E_PH) then 1 else -1) * (s.rd F.HLM_SPEED_REF_TARGET / 2 ^ s.rd F.HLM_LOCK_CFG_PULL : Nat))) ∧
  (∀ (s : State), ¬(s.sp = hLOCKING ∧ s.rd F.HLM_LOCK_CFG_LOCK_DWELL ≤ s.hlm.dwell ∧ s.on F.HLM_STATUS_INDEX_SEEN = true ∧ Word.field (s.page 1 0) 1 0 ≠ 0 ∧ s.on F.HLM_STATUS_LOCK_FLAP = false) → 
      answers .lockAttempt s fun t =>
        t = s) ∧
  (∀ (s : State) (u : Nat), s.mode ≠ mRESET → s.sp = hLOCKED → 16 ≤ s.hlm.unlockRun → 
      answers (.unlock u) s fun t =>
        t.sp = hLOCKING ∧ t.hlm.law = some 0 ∧ t.hlm.unlockRun = 0 ∧ t.hlm.wRef = s.rd F.HLM_SPEED_REF_TARGET ∧ t.hlm.waitSp = false ∧
        t.rd F.HLM_CNT_UNLOCK_COUNT = min (s.rd F.HLM_CNT_UNLOCK_COUNT + 1) (2 ^ 32 - 1) ∧
        418 ∈ t.raised ∧
        t.hlm.unlockHist = (recent u (s.hlm.unlockHist ++ [u])) ∧
        t.on F.HLM_STATUS_LOCK_FLAP = (s.on F.HLM_STATUS_LOCK_FLAP || decide (8 < (recent u (s.hlm.unlockHist ++ [u])).length)) ∧
        (8 < (recent u (s.hlm.unlockHist ++ [u])).length ∧ s.on F.HLM_STATUS_LOCK_FLAP = false → 419 ∈ t.raised)) ∧
  (∀ (s : State) (u : Nat), s.sp ≠ hLOCKED ∨ s.hlm.unlockRun < 16 → 
      answers (.unlock u) s fun t =>
        t = s) ∧
  (∀ (s : State), s.mode ≠ mRESET → 
      answers .lockFlapRelease s fun t =>
        t = (s.accessed.wr F.HLM_STATUS_LOCK_FLAP 0).hl fun h => { h with unlockHist := [], dwell := 0 }) ∧
  (∀ (s : State), 
      answers .handoverEnd s fun t =>
        t = if s.hlm.ho = 0 then s.wr F.HLM_STATUS_HO_ACTIVE 0 else s) ∧
  (∀ (s : State), s.mode ≠ mRESET → (s.sp = hBRAKING ∨ (s.sp = hCATCH ∧ s.hlm.catchBrake = true)) → ((s.rdS F.HLM_MEAS_SPEED_OMEGA).natAbs : Int) < 256 * (s.rd F.HLM_BRAKE_LIM_STOP_SPD : Int) → s.hlm.catchBrake = false → 
      answers .standstill s fun t =>
        (let go := s.on F.HLM_STATUS_PENDING_ENABLE && s.helmRuns; t.sp = (if go then hSPIN_UP else hOFF) ∧ t.hlm.law = if go then some 0 else none) ∧
        t.on F.HLM_STATUS_PENDING_ENABLE = false ∧ t.on F.SYS_PEND_STATUS_HLM = false ∧
        428 ∈ t.raised ∧
        t.on F.HLM_STATUS_HO_ACTIVE = false ∧ t.hlm.uSp = 0 ∧ t.hlm.pins.take 6 = [0, 0, 0, 0, 0, 0]) ∧
  (∀ (s : State), (s.sp = hBRAKING ∨ (s.sp = hCATCH ∧ s.hlm.catchBrake = true)) → ((s.rdS F.HLM_MEAS_SPEED_OMEGA).natAbs : Int) < 256 * (s.rd F.HLM_BRAKE_LIM_STOP_SPD : Int) → s.hlm.catchBrake = true → 
      answers .standstill s fun t =>
        t.sp = hSPIN_UP ∧ t.hlm.law = some 0 ∧ t.hlm.wRef = 0 ∧ t.hlm.uSp = 0 ∧ t.hlm.catchBrake = false) ∧
  (∀ (s : State), ¬(s.sp = hBRAKING ∨ (s.sp = hCATCH ∧ s.hlm.catchBrake = true)) ∨ ¬((s.rdS F.HLM_MEAS_SPEED_OMEGA).natAbs : Int) < 256 * (s.rd F.HLM_BRAKE_LIM_STOP_SPD : Int) → 
      answers .standstill s fun t =>
        t = s) ∧
  (∀ (s : State), s.mode ≠ mRESET → (s.sp = hBRAKING ∨ (s.sp = hCATCH ∧ s.hlm.catchBrake = true)) → 
      answers .brakeTimeout s fun t =>
        (t.sp = if (s.on F.HLM_STATUS_PENDING_ENABLE && s.helmRuns) || s.hlm.catchBrake then hCATCH else hOFF) ∧
        t.on F.HLM_STATUS_PENDING_ENABLE = false ∧ t.on F.SYS_PEND_STATUS_HLM = false ∧
        t.hlm.law = none ∧ t.hlm.ySp = 0 ∧ t.hlm.uSp = 0 ∧ t.hlm.pins.take 6 = [0, 0, 0, 0, 0, 0] ∧ t.hlm.waitSp = false ∧
        427 ∈ t.raised ∧ t.hlm.catchBrake = false) ∧
  (∀ (s : State), ¬(s.sp = hBRAKING ∨ (s.sp = hCATCH ∧ s.hlm.catchBrake = true)) → 
      answers .brakeTimeout s fun t =>
        t = s)

/-- Faults of the spindle and the tilt. A stall in CATCH or SPIN_UP under at least a quarter of full drive (cause 3, event 424), a
bridge fault (0, 420) and two invalid Hall samples (2, 423) release the spindle outputs, enter FAULT and drop a pending enable; the
bridge faults the tilt too. Four invalid tilt samples (4, 425) and a tracking error that lasts (5, 426) fault the tilt with its
outputs released. FAULT_CLR clears every cause but a tilt sense that still fails, takes the spindle from FAULT to OFF and on where
the run condition holds, lets a tilt without a cause follow it, and is rejected while FAULT_N is low under cause 0. Without what
they await these commands do nothing. Commands shown to complete here: stall, bridgeFault, hallFault, tiltSense, tiltTrack,
helmFaultClear. -/
def Obligations.HelmFaults : Prop :=
  (∀ (s : State), s.mode ≠ mRESET → s.sp = hCATCH ∨ s.sp = hSPIN_UP → 2 ^ 29 ≤ s.hlm.uSp.natAbs → 
      answers .stall s fun t =>
        t.sp = hFAULT ∧ (t.rd F.HLM_FAULT_CAUSE_CAUSE).testBit 3 = true ∧ 424 ∈ t.raised ∧
        t.hlm.law = none ∧ t.hlm.ySp = 0 ∧ t.hlm.uSp = 0 ∧ t.hlm.pins.take 6 = [0, 0, 0, 0, 0, 0] ∧ t.hlm.waitSp = false ∧
        t.on F.HLM_STATUS_PENDING_ENABLE = false ∧ t.on F.SYS_PEND_STATUS_HLM = false) ∧
  (∀ (s : State), (s.sp ≠ hCATCH ∧ s.sp ≠ hSPIN_UP) ∨ s.hlm.uSp.natAbs < 2 ^ 29 → 
      answers .stall s fun t =>
        t = s) ∧
  (∀ (s : State), s.mode ≠ mRESET → 
      answers .bridgeFault s fun t =>
        t.sp = hFAULT ∧ (t.rd F.HLM_FAULT_CAUSE_CAUSE).testBit 0 = true ∧ 420 ∈ t.raised ∧
        t.hlm.law = none ∧ t.hlm.ySp = 0 ∧ t.hlm.uSp = 0 ∧ t.hlm.pins.take 6 = [0, 0, 0, 0, 0, 0] ∧ t.hlm.waitSp = false ∧
        t.on F.HLM_STATUS_PENDING_ENABLE = false ∧ t.on F.SYS_PEND_STATUS_HLM = false ∧
        t.hlm.faultLow = true ∧ t.tl = 3 ∧ t.hlm.uTl = 0) ∧
  (∀ (s : State), s.mode ≠ mRESET → 2 ≤ s.hlm.hallBad → 
      answers .hallFault s fun t =>
        t.sp = hFAULT ∧ (t.rd F.HLM_FAULT_CAUSE_CAUSE).testBit 2 = true ∧ 423 ∈ t.raised ∧
        t.hlm.law = none ∧ t.hlm.ySp = 0 ∧ t.hlm.uSp = 0 ∧ t.hlm.pins.take 6 = [0, 0, 0, 0, 0, 0] ∧ t.hlm.waitSp = false ∧
        t.on F.HLM_STATUS_PENDING_ENABLE = false ∧ t.on F.SYS_PEND_STATUS_HLM = false) ∧
  (∀ (s : State), s.hlm.hallBad < 2 → 
      answers .hallFault s fun t =>
        t = s) ∧
  (∀ (s : State), s.mode ≠ mRESET → 4 ≤ s.hlm.tiltBad → (s.rd F.HLM_FAULT_CAUSE_CAUSE).testBit 4 = false → 
      answers .tiltSense s fun t =>
        t.tl = 3 ∧ t.hlm.uTl = 0 ∧ (t.rd F.HLM_FAULT_CAUSE_CAUSE).testBit 4 = true ∧ 425 ∈ t.raised ∧ t.sp = s.sp) ∧
  (∀ (s : State), s.mode ≠ mRESET → s.rd F.HLM_TILT_MON_TRACK_DWELL ≤ s.hlm.trackRun → 
      answers .tiltTrack s fun t =>
        t.tl = 3 ∧ t.hlm.uTl = 0 ∧ (t.rd F.HLM_FAULT_CAUSE_CAUSE).testBit 5 = true ∧ 426 ∈ t.raised ∧ t.sp = s.sp) ∧
  (∀ (s : State), s.mode = mRESET → 
      answers .bridgeFault s fun t =>
        t = s) ∧
  (∀ (s : State), s.hlm.tiltBad < 4 ∨ (s.rd F.HLM_FAULT_CAUSE_CAUSE).testBit 4 = true → 
      answers .tiltSense s fun t =>
        t = s) ∧
  (∀ (s : State), s.hlm.trackRun < s.rd F.HLM_TILT_MON_TRACK_DWELL → 
      answers .tiltTrack s fun t =>
        t = s) ∧
  (∀ (s : State), s.mode ≠ mRESET → (s.rd F.HLM_FAULT_CAUSE_CAUSE).testBit 0 = false ∨ s.hlm.faultLow = false → 
      answers .helmFaultClear s fun t =>
        (t.rd F.HLM_FAULT_CAUSE_CAUSE = (if (s.rd F.HLM_FAULT_CAUSE_CAUSE).testBit 4 ∧ 4 ≤ s.hlm.tiltBad then 16 else 0)) ∧
        (let x := if s.sp = hFAULT then hOFF else s.sp; t.sp = if s.helmRuns then (if x = hOFF then (if s.hlm.lastEdge ≠ 0 ∧ s.hlm.tickAt < s.hlm.lastEdge - 1 + 50000000000 then hCATCH else hSPIN_UP) else x) else if x = hOFF then hOFF else hBRAKING) ∧
        (s.tl = 3 → t.tl = if (if (s.rd F.HLM_FAULT_CAUSE_CAUSE).testBit 4 ∧ 4 ≤ s.hlm.tiltBad then 16 else 0) = 16 then 3 else (if t.sp = hSPIN_UP ∨ t.sp = hLOCKING ∨ t.sp = hLOCKED then 2 else if t.sp = hCATCH ∨ t.sp = hBRAKING then 1 else 0))) ∧
  (∀ (s : State), s.mode ≠ mRESET → (s.rd F.HLM_FAULT_CAUSE_CAUSE).testBit 0 = true ∧ s.hlm.faultLow = true → 
      answers .helmFaultClear s fun t =>
        rejected s t)

/-- The hedge's encoder, speed frame, release and tilt. A count in the permitted direction adds 1 to the frame and takes 1 from the
direction counter; one against it does the opposite, spoils the frame and, armed, trips cause 2 at the limit; an illegal one is
counted, and the fourth of a frame trips cause 7. A frame end shows the clipped count and the oscillator's deviation, starts a new
frame, counts the frames at rest and without a cause and those good for release, and trips cause 0 or 1 at the second frame outside
the speed window while armed, 9 at the second with a deviation beyond 5 %, and 7 at the third that disagrees with the helm. The
release request moves IDLE to ARMING, its end moves ARMING, RELEASED or BLANKED to IDLE; 50 good frames release LI_N with event 433
while the conditions hold. A tilt code outside the field of view blanks with event 434, two inside release again, two outside the
position limits trip cause 3, and a dwell trips cause 4. Without what they await these commands do nothing. Commands shown to
complete here: hedgeEncoderCount, speedFrameEnd, hedgeRelease, hedgeRequestChange, hedgeTiltConversion, fovDwellExpiry. -/
def Obligations.HedgeMotion : Prop :=
  (∀ (s : State) (a b : Bool), quad s.hdg.encA s.hdg.encB a b = none → 
      answers (.hedgeEncoderCount a b) s fun t =>
        t = s) ∧
  (∀ (s : State) (a b : Bool) (k : Nat), quad s.hdg.encA s.hdg.encB a b = some k → k = 1 ∨ k = 2 → ((k == 2) == s.on F.HDG_LIM_MISC_DIR) = true → 
      answers (.hedgeEncoderCount a b) s fun t =>
        t = s.hd fun h => { h with encA := a, encB := b, frame := h.frame + 1, dirCount := h.dirCount - 1 }) ∧
  (∀ (s : State) (a b : Bool) (k : Nat), quad s.hdg.encA s.hdg.encB a b = some k → k = 1 ∨ k = 2 → ((k == 2) == s.on F.HDG_LIM_MISC_DIR) = false → s.armed = false ∨ s.hdg.dirCount + 1 < s.rd F.HDG_LIM_MISC_DIR_LIMIT → 
      answers (.hedgeEncoderCount a b) s fun t =>
        t = s.hd fun h => { h with encA := a, encB := b, frame := h.frame - 1, dirCount := h.dirCount + 1, spoiled := true }) ∧
  (∀ (s : State) (a b : Bool) (k : Nat), quad s.hdg.encA s.hdg.encB a b = some k → k = 1 ∨ k = 2 → ((k == 2) == s.on F.HDG_LIM_MISC_DIR) = false → s.armed = true ∧ s.rd F.HDG_LIM_MISC_DIR_LIMIT ≤ s.hdg.dirCount + 1 → 
      answers (.hedgeEncoderCount a b) s fun t =>
        trips 2 s t) ∧
  (∀ (s : State) (a b : Bool), quad s.hdg.encA s.hdg.encB a b = some 0 → 
      answers (.hedgeEncoderCount a b) s fun t =>
        t.rd F.HDG_CNT_ENC_ERR_COUNT = min (s.rd F.HDG_CNT_ENC_ERR_COUNT + 1) (2 ^ 32 - 1) ∧
        t.hdg.illegal = s.hdg.illegal + 1 ∧
        (s.hdg.illegal = 3 → trips 7 s t) ∧
        (s.hdg.illegal ≠ 3 → t = { s with regs := t.regs, hdg := { s.hdg with encA := a, encB := b, illegal := s.hdg.illegal + 1 } })) ∧
  (∀ (s : State) (err : Int), 
      answers (.speedFrameEnd err) s fun t =>
        t.rdS F.HDG_MEAS_SPEED_COUNT = clip (-32768) 32767 s.hdg.frame ∧ t.rdS F.HDG_MEAS_RC_ERR = (BitVec.ofInt 16 err).toInt ∧
        t.hdg.frame = 0 ∧ t.hdg.illegal = 0 ∧ t.hdg.spoiled = false ∧ t.hdg.helmLast = s.hlm.travel ∧
        (t.hdg.still = (if (clip (-32768) 32767 s.hdg.frame).natAbs ≤ 1 then min (s.hdg.still + 1) 100 else 0)) ∧
        (t.hdg.quiet = (if t.presentMask = 0 then min (s.hdg.quiet + 1) 100 else 0)) ∧
        (t.hdg.good = (if t.gst = gARMING ∧ (s.speedMin : Int) ≤ clip (-32768) 32767 s.hdg.frame ∧ clip (-32768) 32767 s.hdg.frame ≤ s.speedMax ∧ s.hdg.dirCount = 0 ∧ s.hdg.spoiled = false ∧ s.fovInside (s.rd F.HDG_MEAS_TILT_CODE) = true ∧ t.presentMask = 0 then min (s.hdg.good + 1) 50 else 0)) ∧
        hedgeShown t) ∧
  (∀ (s : State) (err : Int), s.sys.relock = false ∧ s.hdg.suspended = 0 → 
      answers (.speedFrameEnd err) s fun t =>
        (t.on F.SYS_CLK_STATUS_HDG_XCHK_OK = decide (err.natAbs ≤ 500) ∧ t.hdg.rcBad = (if err.natAbs ≤ 500 then 0 else s.hdg.rcBad + 1)) ∧
        (s.mode ≠ mRESET ∧ 300 < err.natAbs ∧ s.hdg.rcDrift = false → 439 ∈ t.raised) ∧
        (500 < err.natAbs ∧ 1 ≤ s.hdg.rcBad → (t.rd F.HDG_TRIP_CAUSE_CAUSE).testBit 9 = true ∧ t.latched = true ∧ (s.latched = false → t.rd F.HDG_TRIP_CAUSE_FIRST = 9 ∧ t.gst = (if s.sys.testEn then gIDLE else gTRIPPED) ∧ (s.mode ≠ mRESET → t.mode = mSAFESTOP)))) ∧
  (∀ (s : State) (err : Int), s.hdg.encBad = 2 → (let d := (if s.on F.HDG_LIM_MISC_DIR then s.hdg.helmLast - s.hlm.travel else s.hlm.travel - s.hdg.helmLast); 2 + (clip (-32768) 32767 s.hdg.frame).natAbs / 64 < (clip (-32768) 32767 s.hdg.frame - d).natAbs) → 
      answers (.speedFrameEnd err) s fun t =>
        (t.rd F.HDG_TRIP_CAUSE_CAUSE).testBit 7 = true ∧ t.latched = true) ∧
  (∀ (s : State) (err : Int), s.armed = true ∧ 1 ≤ s.hdg.speedOut → s.sys.relock = true ∨ s.hdg.suspended ≠ 0 ∨ err.natAbs ≤ 500 ∨ s.hdg.rcBad = 0 → s.hdg.encBad ≤ 1 → clip (-32768) 32767 s.hdg.frame < s.speedMin ∨ (s.speedMax : Int) < clip (-32768) 32767 s.hdg.frame → 
      answers (.speedFrameEnd err) s fun t =>
        (t.on F.HDG_STATUS_LATCH = true ∧ (t.rd F.HDG_TRIP_CAUSE_CAUSE).testBit (if (s.speedMax : Int) < clip (-32768) 32767 s.hdg.frame then 0 else 1) = true) ∧
        (s.latched = false → t.rd F.HDG_TRIP_CAUSE_FIRST = (if (s.speedMax : Int) < clip (-32768) 32767 s.hdg.frame then 0 else 1) ∧ t.gst = (if s.sys.testEn then gIDLE else gTRIPPED) ∧ (s.mode ≠ mRESET → t.mode = mSAFESTOP))) ∧
  (∀ (s : State), s.mode ≠ mRESET → s.gst = gARMING ∧ s.hdg.good = 50 ∧ s.hdg.dirCount = 0 ∧ s.hdg.spoiled = false ∧ s.presentMask = 0 → 
      answers .hedgeRelease s fun t =>
        t.gst = gRELEASED ∧ t.hdg.speedOut = 0 ∧ t.hdg.posOut = 0 ∧ 433 ∈ t.raised ∧
        t.on F.HDG_STATUS_LI_LEVEL = !s.jtagHold) ∧
  (∀ (s : State), ¬(s.gst = gARMING ∧ s.hdg.good = 50 ∧ s.hdg.dirCount = 0 ∧ s.hdg.spoiled = false ∧ s.presentMask = 0) → 
      answers .hedgeRelease s fun t =>
        t = s) ∧
  (∀ (s : State), s.latched = false → s.hedgeReq = true → s.gst = gIDLE → 
      answers .hedgeRequestChange s fun t =>
        t.on F.HDG_STATUS_REQ = true ∧ t.gst = gARMING ∧ t.hdg.dirCount = 0 ∧ t.hdg.good = 0 ∧ t.hdg.spoiled = false) ∧
  (∀ (s : State), s.hedgeReq = false → s.gst = gARMING ∨ s.gst = gRELEASED ∨ s.gst = gBLANKED → 
      answers .hedgeRequestChange s fun t =>
        t.on F.HDG_STATUS_REQ = false ∧ t.gst = gIDLE ∧ t.hdg.good = 0 ∧
        (s.hdg.liBad = false → t.on F.HDG_STATUS_LI_LEVEL = false)) ∧
  (∀ (s : State), (s.hedgeReq = true ∧ (s.gst ≠ gIDLE ∨ s.latched = true)) ∨ (s.hedgeReq = false ∧ ¬(s.gst = gARMING ∨ s.gst = gRELEASED ∨ s.gst = gBLANKED)) → 
      answers .hedgeRequestChange s fun t =>
        t = s.put F.HDG_STATUS_REQ s.hedgeReq) ∧
  (∀ (s : State) (code : Fin 1024), s.armed = true ∧ s.posInside code = false ∧ 1 ≤ s.hdg.posOut → 
      answers (.hedgeTiltConversion code) s fun t =>
        t.rd F.HDG_MEAS_TILT_CODE = code ∧
        trips 3 s t) ∧
  (∀ (s : State) (code : Fin 1024), s.mode ≠ mRESET → s.gst = gRELEASED → s.posInside code = true ∨ s.hdg.posOut = 0 → s.fovInside code = false → 
      answers (.hedgeTiltConversion code) s fun t =>
        t.rd F.HDG_MEAS_TILT_CODE = code ∧ t.gst = gBLANKED ∧ t.hdg.fovIn = 0 ∧ t.hdg.spoiled = true ∧ 434 ∈ t.raised ∧
        t.rd F.HDG_CNT_BLANK_COUNT = min (s.rd F.HDG_CNT_BLANK_COUNT + 1) (2 ^ 32 - 1) ∧
        (s.hdg.liBad = false → t.on F.HDG_STATUS_LI_LEVEL = false)) ∧
  (∀ (s : State) (code : Fin 1024), s.gst = gBLANKED → s.posInside code = true ∨ s.hdg.posOut = 0 → 
      answers (.hedgeTiltConversion code) s fun t =>
        (t.rd F.HDG_MEAS_TILT_CODE = code ∧ t.hdg.fovIn = if s.fovInside code then s.hdg.fovIn + 1 else 0) ∧
        (t.gst = if 2 ≤ t.hdg.fovIn then gRELEASED else gBLANKED) ∧
        (t.gst = gRELEASED ∧ s.hdg.liBad = false → t.on F.HDG_STATUS_LI_LEVEL = !s.jtagHold)) ∧
  (∀ (s : State) (code : Fin 1024), s.armed = false ∨ (s.gst = gRELEASED ∧ s.fovInside code = true ∧ (s.posInside code = true ∨ s.hdg.posOut = 0)) → 
      answers (.hedgeTiltConversion code) s fun t =>
        t = (s.wr F.HDG_MEAS_TILT_CODE code).hd fun h => { h with posOut := if s.posInside code then 0 else h.posOut + 1, spoiled := h.spoiled || !s.fovInside code }) ∧
  (∀ (s : State), s.gst = gBLANKED → 
      answers .fovDwellExpiry s fun t =>
        trips 4 s t) ∧
  (∀ (s : State), s.gst ≠ gBLANKED → 
      answers .fovDwellExpiry s fun t =>
        t = s)

/-- The energy budget, diagnostic trips, the seal lock and the reset button. A power-code entry sets the pulse allowance and books
E(p) times the pulses to the zones of its rectangle; armed, a zone beyond the budget trips cause 5. A correction removes its
booking, and its allowance when it is the last entry; a bucket roll ages the bookings and drops those beyond 100 ms. A readback
against the drive trips cause 14, a channel mismatch 13, a changed or floating strap 11, a bad limit row 12 with the limits shown as
0; under the latch each adds its cause. HDG_PRESENT, CLEAR and HDG_OK show the state. Without braking the PWM gate closes and
releases the pads. The seal lock latches with event 438. A low of the button starts a press under the latch, a high after 20 ms to 4
s starts the release, a longer press is STUCK with event 435, and the completed pair clears the latch when CLEAR holds, with event
436 and the way to STANDBY or RECOVERY, or is refused with event 437. Without what they await these commands do nothing. Commands
shown to complete here: powerCodeEntry, correctionEntry, energyBucketRoll, liReadback, hedgeChannelMismatch, pwmGate, strapReread,
limitRecheck, sealLock, safeRstLowRegistered, safeRstHighRegistered, safeRstStuck, resetPairComplete. -/
def Obligations.HedgeBudgetTripsAndReset : Prop :=
  (∀ (s : State) (id rows cols pw pu : Nat) (q : List PowerEntry), s.hdg.queue = .shot id rows cols pw pu :: q → (s.armed = false ∨ ¬ (∃ z ∈ List.range 288, (cols.testBit (z / 18) && rows.testBit (z % 18)) = true ∧ s.budget < (s.hd fun h => { h with books := (if rows = 0 ∨ cols = 0 ∨ energyOf pw * pu = 0 then s.hdg.books else s.hdg.books ++ [{ id := id, rows := rows, cols := cols, energy := energyOf pw * pu }]) }).zoneSum z)) → 
      answers .powerCodeEntry s fun t =>
        t.hdg.queue = q ∧ t.hdg.lastId = id ∧ t.hdg.allowance = pu ∧ t.hdg.edges = 0 ∧
        (t.hdg.books = (if rows = 0 ∨ cols = 0 ∨ energyOf pw * pu = 0 then s.hdg.books else s.hdg.books ++ [{ id := id, rows := rows, cols := cols, energy := energyOf pw * pu }])) ∧
        (t.rd F.HDG_ENERGY_MAX_SUM = max (s.rd F.HDG_ENERGY_MAX_SUM) (min (s.hd fun h => { h with books := (if rows = 0 ∨ cols = 0 ∨ energyOf pw * pu = 0 then s.hdg.books else s.hdg.books ++ [{ id := id, rows := rows, cols := cols, energy := energyOf pw * pu }]) }).zoneMax (2 ^ 32 - 1))) ∧
        t.gst = s.gst ∧
        hedgeShown t) ∧
  (∀ (s : State) (id rows cols pw pu : Nat) (q : List PowerEntry), s.hdg.queue = .shot id rows cols pw pu :: q → s.armed = true → ((∃ z ∈ List.range 288, (cols.testBit (z / 18) && rows.testBit (z % 18)) = true ∧ s.budget < (s.hd fun h => { h with books := (if rows = 0 ∨ cols = 0 ∨ energyOf pw * pu = 0 then s.hdg.books else s.hdg.books ++ [{ id := id, rows := rows, cols := cols, energy := energyOf pw * pu }]) }).zoneSum z)) → 
      answers .powerCodeEntry s fun t =>
        trips 5 s t ∧
        (t.hdg.books = (if rows = 0 ∨ cols = 0 ∨ energyOf pw * pu = 0 then s.hdg.books else s.hdg.books ++ [{ id := id, rows := rows, cols := cols, energy := energyOf pw * pu }]) ∧ t.hdg.queue = q)) ∧
  (∀ (s : State), ((match s.hdg.queue with | .shot _ _ _ _ _ :: _ => false | _ => true) = true) → 
      answers .powerCodeEntry s fun t =>
        t = s) ∧
  (∀ (s : State), ((match s.hdg.queue with | .correction _ :: _ => false | _ => true) = true) → 
      answers .correctionEntry s fun t =>
        t = s) ∧
  (∀ (s : State) (id : Nat) (q : List PowerEntry), s.hdg.queue = .correction id :: q → 
      answers .correctionEntry s fun t =>
        (t.hdg.queue = q ∧ t.hdg.books = s.hdg.books.filter (fun b => b.id != id) ∧ t.hdg.allowance = if s.hdg.lastId = id then 0 else s.hdg.allowance) ∧
        hedgeShown t) ∧
  (∀ (s : State), 
      answers .energyBucketRoll s fun t =>
        (t.hdg.books = (s.hdg.books.map fun b => { b with age := b.age + 1 }).filter fun b => decide (b.age ≤ 100)) ∧
        hedgeShown t) ∧
  (∀ (s : State) (level : Bool), level ≠ (s.gst == gRELEASED && !s.jtagHold) → 
      answers (.liReadback level) s fun t =>
        (t.rd F.HDG_TRIP_CAUSE_CAUSE).testBit 14 = true ∧ t.latched = true ∧
        (if s.latched then t.gst = s.gst ∧ t.hdg.liBad = true ∧ t.on F.HDG_STATUS_LI_LEVEL = level else t.rd F.HDG_TRIP_CAUSE_FIRST = 14 ∧ t.gst = (if s.sys.testEn then gIDLE else gTRIPPED) ∧ (s.mode ≠ mRESET → t.mode = mSAFESTOP))) ∧
  (∀ (s : State) (level : Bool), level = (s.gst == gRELEASED && !s.jtagHold) → 
      answers (.liReadback level) s fun t =>
        t.hdg.liBad = false ∧ t.on F.HDG_STATUS_LI_LEVEL = level ∧ t.gst = s.gst ∧
        hedgeShown t) ∧
  (∀ (s : State), 
      answers .hedgeChannelMismatch s fun t =>
        trips 13 s t) ∧
  (∀ (s : State) (m : Nat), s.latched = true ∧ s.hdg.tripMag = some m ∧ s.hdg.fell = false → 
      answers .pwmGate s fun t =>
        t = (s.wr F.HDG_STATUS_PWM_GATE 1).hl fun h => { h with pins := List.replicate 8 0 }) ∧
  (∀ (s : State), s.latched = false ∨ s.hdg.tripMag = none ∨ s.hdg.fell = true → 
      answers .pwmGate s fun t =>
        t = s) ∧
  (∀ (s : State) (straps floats : Fin 64), floats ≠ 0 ∨ straps.val ≠ s.rd F.HDG_STRAPS_SEAL → 
      answers (.strapReread straps floats) s fun t =>
        t.rd F.HDG_STRAPS_FLOAT = floats ∧ t.hdg.strapBad = true ∧
        trips 11 s t) ∧
  (∀ (s : State) (straps floats : Fin 64), floats = 0 ∧ straps.val = s.rd F.HDG_STRAPS_SEAL → 
      answers (.strapReread straps floats) s fun t =>
        t.rd F.HDG_STRAPS_FLOAT = 0 ∧ t.hdg.strapBad = false ∧ t.gst = s.gst) ∧
  (∀ (s : State) (upset : Bool), upset = true ∨ s.hdg.rowsOk = false → 
      answers (.limitRecheck upset) s fun t =>
        trips 12 s t ∧ t.hdg.limitBad = true ∧
        t.rd F.HDG_LIM_SPEED_MIN = 0 ∧ t.rd F.HDG_LIM_SPEED_MAX = 0 ∧ t.rd F.HDG_LIM_BUDGET_BUDGET = 0 ∧ t.rd F.HDG_LIM_FOV_MIN = 0 ∧ t.rd F.HDG_LIM_FOV_MAX = 0 ∧ t.rd F.HDG_LIM_POS_MIN = 0 ∧ t.rd F.HDG_LIM_POS_MAX = 0) ∧
  (∀ (s : State), s.hdg.rowsOk = true → 
      answers (.limitRecheck false) s fun t =>
        t = s) ∧
  (∀ (s : State), s.mode ≠ mRESET → s.on F.HDG_STATUS_SEAL_LOCK = false → 
      answers .sealLock s fun t =>
        t = (s.accessed.wr F.HDG_STATUS_SEAL_LOCK 1).raise 438) ∧
  (∀ (s : State), s.mode ≠ mRESET → s.on F.HDG_STATUS_SEAL_LOCK = true → 
      answers .sealLock s fun t =>
        t = s.accessed) ∧
  (∀ (s : State) (u : Nat), s.hdg.button = false → 
      answers (.safeRstLowRegistered u) s fun t =>
        t = s) ∧
  (∀ (s : State) (u : Nat), s.hdg.button = true → 
      answers (.safeRstHighRegistered u) s fun t =>
        t = s) ∧
  (∀ (s : State) (u : Nat), s.hdg.button = false → s.rd F.HDG_STATUS_RST_PHASE = 0 ∨ s.rd F.HDG_STATUS_RST_PHASE = 2 → 
      answers (.safeRstHighRegistered u) s fun t =>
        t = s.hd fun h => { h with button := true }) ∧
  (∀ (s : State) (u : Nat), s.hdg.button = true → s.latched = true ∧ (s.rd F.HDG_STATUS_RST_PHASE = 0 ∨ s.rd F.HDG_STATUS_RST_PHASE = 2) → 
      answers (.safeRstLowRegistered u) s fun t =>
        t = (s.wr F.HDG_STATUS_RST_PHASE 1).hd fun h => { h with button := false, edgeAt := u }) ∧
  (∀ (s : State) (u : Nat), s.hdg.button = true → s.latched = false ∨ (s.rd F.HDG_STATUS_RST_PHASE ≠ 0 ∧ s.rd F.HDG_STATUS_RST_PHASE ≠ 2) → 
      answers (.safeRstLowRegistered u) s fun t =>
        t = s.hd fun h => { h with button := false }) ∧
  (∀ (s : State) (u : Nat), s.hdg.button = false → s.rd F.HDG_STATUS_RST_PHASE = 1 → 20000000000 ≤ u - s.hdg.edgeAt ∧ u - s.hdg.edgeAt ≤ 4000000000000 → 
      answers (.safeRstHighRegistered u) s fun t =>
        t = (s.wr F.HDG_STATUS_RST_PHASE 2).hd fun h => { h with button := true, edgeAt := u }) ∧
  (∀ (s : State) (u : Nat), s.hdg.button = false → (s.rd F.HDG_STATUS_RST_PHASE = 1 ∧ (u - s.hdg.edgeAt < 20000000000 ∨ 4000000000000 < u - s.hdg.edgeAt)) ∨ s.rd F.HDG_STATUS_RST_PHASE = 3 → 
      answers (.safeRstHighRegistered u) s fun t =>
        t = (s.wr F.HDG_STATUS_RST_PHASE 0).hd fun h => { h with button := true }) ∧
  (∀ (s : State), s.mode ≠ mRESET → s.rd F.HDG_STATUS_RST_PHASE = 1 → 
      answers .safeRstStuck s fun t =>
        t.rd F.HDG_STATUS_RST_PHASE = 3 ∧ 435 ∈ t.raised) ∧
  (∀ (s : State), s.rd F.HDG_STATUS_RST_PHASE ≠ 1 → 
      answers .safeRstStuck s fun t =>
        t = s) ∧
  (∀ (s : State), s.rd F.HDG_STATUS_RST_PHASE = 2 → s.on F.HDG_STATUS_CLEAR = true → 
      answers .resetPairComplete s fun t =>
        t.rd F.HDG_STATUS_RST_PHASE = 0 ∧ t.on F.HDG_STATUS_LATCH = false ∧ t.gst = gIDLE ∧ t.rd F.HDG_TRIP_CAUSE_CAUSE = 0 ∧ t.rd F.HDG_TRIP_CAUSE_FIRST = 0x1F ∧ t.on F.HDG_STATUS_PWM_GATE = false ∧
        (t.mode = if s.mode ≠ mSAFESTOP then s.mode else if s.on F.BOOT_STATUS_IMAGE_VALID then mSTANDBY else mRECOVERY) ∧
        (s.mode ≠ mRESET → 436 ∈ t.raised)) ∧
  (∀ (s : State), s.mode ≠ mRESET → s.rd F.HDG_STATUS_RST_PHASE = 2 → s.on F.HDG_STATUS_CLEAR = false → 
      answers .resetPairComplete s fun t =>
        t.rd F.HDG_STATUS_RST_PHASE = 0 ∧ t.latched = s.latched ∧ 437 ∈ t.raised ∧
        t.rd F.HDG_CNT_RST_REF_COUNT = min (s.rd F.HDG_CNT_RST_REF_COUNT + 1) (2 ^ 32 - 1)) ∧
  (∀ (s : State), s.rd F.HDG_STATUS_RST_PHASE ≠ 2 → 
      answers .resetPairComplete s fun t =>
        t = s)

/-- The meridian bus: listening and the master. Enabling a disabled bus gives a fresh state that listens; enabling an enabled one
changes nothing. A listening master that heard no frame becomes MASTER and, free-running, its first EPOCH falls due; any other bus
stays as it is at the end of the listening time. RT_RESTART on an enabled master clears the conflicts, UNITS_OK and MER_RT, and
changes nothing elsewhere. TRIG_SEND on the master makes a TRIG due with the next 40-bit count. At EPOCH_DUE a free-running master
that has sent no EPOCH, or whose PERIOD is over, makes the next one due; one on the synchronised 802.1AS clock does so where the
application instant falls on EPOCH_PHASE, once in a nanosecond; without synchronisation it goes on with the period from the last
EPOCH, AS_HOLD is set and, on entry, event 453 is raised. PING_DUE makes a PING due for the next unit of UNITS, in ascending cyclic
order, that is not in conflict, if there is one. On a free line the first due frame of highest priority leaves; SWEEP, EPOCH and
TRIG are scheduled for their application LAT coarse edges on; a PING opens a reservation, but waits where an EPOCH falls due within
3.7 us. A valid PONG of the unit pinged adds its round trip; one with a second seed marks the unit as in conflict; on a listening
master it is itself a conflict with event 452; one that answers no outstanding PING only counts as a frame. After 3.5 us the PING is
given up. After 64 PONGs the first such unit has its delay stored, and a DELAY is due. A bad frame is counted, the first since the
count was read raising event 450; in answer to a PING it ends the reservation, and the fourth in a row marks the unit. On a bus that
is off nothing happens. Commands shown to complete here: meridianEnable, listenEnd, rtRestart, trigSend, epochDue, pingDue,
frameLaunch, pongFrame, pongTimeout, delayCompute, badFrame. -/
def Obligations.MeridianMaster : Prop :=
  (∀ (s : State), s.reaches → s.on F.MER_CTRL_EN = false → 
      answers .meridianEnable s fun t =>
        t = { (s.accessed.wr F.MER_CTRL_EN 1).wr F.MER_STATUS_STATE bLISTEN with mer := {} }) ∧
  (∀ (s : State), s.reaches → s.on F.MER_CTRL_EN = true → 
      answers .meridianEnable s fun t =>
        t = s.accessed) ∧
  (∀ (s : State) (u : Nat), s.listening = true → s.on F.MER_STATUS_ID_CONFLICT = false → 
      answers (.listenEnd u) s fun t =>
        t = { s.wr F.MER_STATUS_STATE bMASTER with mer := if s.on F.MER_EPOCH_CFG_SRC then s.mer else { s.mer with epochs := 1, lastEpoch := some u, due := s.mer.due ++ [⟨.epoch, 0, 1⟩] } }) ∧
  (∀ (s : State) (u : Nat), s.listening = false ∨ s.on F.MER_STATUS_ID_CONFLICT = true → 
      answers (.listenEnd u) s fun t =>
        t = s) ∧
  (∀ (s : State), s.reaches → s.unit = 0 ∧ s.on F.MER_CTRL_EN = true → 
      answers .rtRestart s fun t =>
        t.on F.MER_STATUS_ID_CONFLICT = false ∧ t.rd F.MER_STATUS_UNITS_OK = 0 ∧ t.bst = s.bst ∧
        (∀ n : Fin 8, t.reg (R.MER_RT n) = 0) ∧
        t = { s.accessed with regs := t.regs, mer := { s.mer with sumRT := [], pongs := [], seeds := [], badRun := [], conflicts := 0, lastPing := 0 } }) ∧
  (∀ (s : State), s.reaches → s.unit ≠ 0 ∨ s.on F.MER_CTRL_EN = false → 
      answers .rtRestart s fun t =>
        t = s.accessed) ∧
  (∀ (s : State), s.reaches → s.bst = bMASTER → 
      answers .trigSend s fun t =>
        t = { s.accessed with mer := { s.mer with trigs := (s.mer.trigs + 1) % 2 ^ 40, due := s.mer.due ++ [⟨.trig, 0, (s.mer.trigs + 1) % 2 ^ 40⟩] } }) ∧
  (∀ (s : State), s.reaches → s.bst ≠ bMASTER → 
      answers .trigSend s fun t =>
        t = s.accessed) ∧
  (∀ (s : State) (u : Nat), s.bst = bMASTER → s.on F.MER_EPOCH_CFG_SRC = false → 
      answers (.epochDue u) s fun t =>
        (t.on F.MER_STATUS_AS_HOLD = (s.on F.MER_EPOCH_CFG_SRC && !s.on F.LNK_PTP_STATUS_SYNCED) ∧ ((s.on F.MER_EPOCH_CFG_SRC && !s.on F.LNK_PTP_STATUS_SYNCED) = true ∧ s.on F.MER_STATUS_AS_HOLD = false ∧ s.mode ≠ mRESET → 453 ∈ t.raised)) ∧
        (t.mer = if s.mer.lastEpoch = none ∨ (s.mer.lastEpoch.any fun l => decide (l + s.rd F.MER_EPOCH_CFG_PERIOD * 1000000 ≤ u)) = true then { s.mer with epochs := (s.mer.epochs + 1) % 2 ^ 40, lastEpoch := some u, due := s.mer.due ++ [⟨.epoch, 0, (s.mer.epochs + 1) % 2 ^ 40⟩] } else s.mer)) ∧
  (∀ (s : State) (u : Nat), s.bst = bMASTER → s.on F.MER_EPOCH_CFG_SRC = true ∧ s.on F.LNK_PTP_STATUS_SYNCED = true → 
      answers (.epochDue u) s fun t =>
        (t.on F.MER_STATUS_AS_HOLD = (s.on F.MER_EPOCH_CFG_SRC && !s.on F.LNK_PTP_STATUS_SYNCED) ∧ ((s.on F.MER_EPOCH_CFG_SRC && !s.on F.LNK_PTP_STATUS_SYNCED) = true ∧ s.on F.MER_STATUS_AS_HOLD = false ∧ s.mode ≠ mRESET → 453 ∈ t.raised)) ∧
        (t.mer = if s.nsToEpoch u = 0 ∧ (s.mer.lastEpoch.all fun l => decide (l + 1000 ≤ u)) = true then { s.mer with epochs := (s.mer.epochs + 1) % 2 ^ 40, lastEpoch := some u, due := s.mer.due ++ [⟨.epoch, 0, (s.mer.epochs + 1) % 2 ^ 40⟩] } else s.mer)) ∧
  (∀ (s : State) (u : Nat), s.bst = bMASTER → s.on F.MER_EPOCH_CFG_SRC = true ∧ s.on F.LNK_PTP_STATUS_SYNCED = false → 
      answers (.epochDue u) s fun t =>
        (t.on F.MER_STATUS_AS_HOLD = (s.on F.MER_EPOCH_CFG_SRC && !s.on F.LNK_PTP_STATUS_SYNCED) ∧ ((s.on F.MER_EPOCH_CFG_SRC && !s.on F.LNK_PTP_STATUS_SYNCED) = true ∧ s.on F.MER_STATUS_AS_HOLD = false ∧ s.mode ≠ mRESET → 453 ∈ t.raised)) ∧
        (t.mer = if (s.mer.lastEpoch.any fun l => decide (l + s.rd F.MER_EPOCH_CFG_PERIOD * 1000000 ≤ u)) = true then { s.mer with epochs := (s.mer.epochs + 1) % 2 ^ 40, lastEpoch := some u, due := s.mer.due ++ [⟨.epoch, 0, (s.mer.epochs + 1) % 2 ^ 40⟩] } else s.mer)) ∧
  (∀ (s : State) (u : Nat), s.bst ≠ bMASTER → 
      answers (.epochDue u) s fun t =>
        t = s) ∧
  (∀ (s : State) (i : Fin 8), s.bst = bMASTER → (s.mer.lastPing + 1 + i.val) % 8 ≠ 0 ∧ (s.rd F.MER_CFG_UNITS).testBit ((s.mer.lastPing + 1 + i.val) % 8) = true ∧ s.mer.conflicts.testBit ((s.mer.lastPing + 1 + i.val) % 8) = false → (∀ j : Fin 8, j < i → ¬((s.mer.lastPing + 1 + j.val) % 8 ≠ 0 ∧ (s.rd F.MER_CFG_UNITS).testBit ((s.mer.lastPing + 1 + j.val) % 8) = true ∧ s.mer.conflicts.testBit ((s.mer.lastPing + 1 + j.val) % 8) = false)) → 
      answers .pingDue s fun t =>
        t = { s with mer := { s.mer with lastPing := (s.mer.lastPing + 1 + i.val) % 8, due := s.mer.due ++ [⟨.ping, (s.mer.lastPing + 1 + i.val) % 8, 0⟩] } }) ∧
  (∀ (s : State), (s.bst ≠ bMASTER ∨ ∀ v : Fin 8, ¬(v.val ≠ 0 ∧ (s.rd F.MER_CFG_UNITS).testBit (v.val) = true ∧ s.mer.conflicts.testBit (v.val) = false)) → 
      answers .pingDue s fun t =>
        t = s) ∧
  (∀ (s : State) (u a : Nat) (d : MerDue) (rest : List MerDue), s.bst = bMASTER → s.mer.ping = none → takeFirst s.mer.due = some (d, rest) → d.kind ≠ .ping → 
      answers (.frameLaunch u a) s fun t =>
        t = { s with mer := { s.mer with due := rest, sent := merFrame d.kind d.unit d.payload, apply := s.mer.apply ++ (if d.kind = .delay then [] else [(d.kind, u + 625 * s.rd F.MER_LAT_LAT)]) } }) ∧
  (∀ (s : State) (u a : Nat) (d : MerDue) (rest : List MerDue), s.bst = bMASTER → s.mer.ping = none → takeFirst s.mer.due = some (d, rest) → d.kind = .ping → 
      answers (.frameLaunch u a) s fun t =>
        let near := if s.on F.MER_EPOCH_CFG_SRC = true ∧ s.on F.LNK_PTP_STATUS_SYNCED = true then decide (s.nsToEpoch u ≤ 3700) else s.mer.lastEpoch.any fun l => decide (l + s.rd F.MER_EPOCH_CFG_PERIOD * 1000000 ≤ u + 3700000); t = if near = true then s else { s with mer := { s.mer with due := rest, sent := merFrame .ping d.unit d.payload, ping := some (d.unit, a) } }) ∧
  (∀ (s : State) (u a : Nat), s.bst ≠ bMASTER ∨ s.mer.ping ≠ none ∨ s.mer.due = [] → 
      answers (.frameLaunch u a) s fun t =>
        t = s) ∧
  (∀ (s : State) (unit : Fin 8) (seed r : BitVec 16) (d a : Nat), s.listening = false → s.mer.ping = some (unit.val, a) → (Tab.get (fun _ => 0) s.mer.seeds unit.val = 0 ∨ Tab.get (fun _ => 0) s.mer.seeds unit.val = seed.toNat + 1) → 
      answers (.pongFrame unit seed r d) s fun t =>
        (t = { s.count 6 3 0 1 with mer := { s.mer with ping := none, badRun := Tab.set (fun _ => 0) s.mer.badRun unit 0, seeds := t.mer.seeds, pongs := t.mer.pongs, sumRT := t.mer.sumRT } }) ∧
        (Tab.get (fun _ => 0) t.mer.seeds unit.val = seed.toNat + 1 ∧ Tab.get (fun _ => 0) t.mer.pongs unit.val = Tab.get (fun _ => 0) s.mer.pongs unit.val + 1 ∧ Tab.get (fun _ => 0) t.mer.sumRT unit.val = Tab.get (fun _ => 0) s.mer.sumRT unit.val + ((d : Int) - a - r.toNat)) ∧
        (∀ v : Fin 8, v ≠ unit → Tab.get (fun _ => 0) t.mer.seeds v.val = Tab.get (fun _ => 0) s.mer.seeds v.val ∧ Tab.get (fun _ => 0) t.mer.pongs v.val = Tab.get (fun _ => 0) s.mer.pongs v.val ∧ Tab.get (fun _ => 0) t.mer.sumRT v.val = Tab.get (fun _ => 0) s.mer.sumRT v.val)) ∧
  (∀ (s : State) (unit : Fin 8) (seed r : BitVec 16) (d a : Nat), s.listening = false → s.mer.ping = some (unit.val, a) → (Tab.get (fun _ => 0) s.mer.seeds unit.val ≠ 0 ∧ Tab.get (fun _ => 0) s.mer.seeds unit.val ≠ seed.toNat + 1) → 
      answers (.pongFrame unit seed r d) s fun t =>
        t.mer.ping = none ∧ t.mer.sumRT = s.mer.sumRT ∧ t.mer.pongs = s.mer.pongs ∧ t.mer.seeds = s.mer.seeds ∧
        (s.mer.conflicts.testBit unit.val = false → t.on F.MER_STATUS_ID_CONFLICT = true ∧ t.mer.conflicts = withBit s.mer.conflicts unit.val true ∧ t.rd F.MER_STATUS_UNITS_OK = withBit (s.rd F.MER_STATUS_UNITS_OK) unit.val false % 256 ∧ (s.mode ≠ mRESET → 452 ∈ t.raised)) ∧
        (s.mer.conflicts.testBit unit.val = true → t.mer.conflicts = s.mer.conflicts ∧ t.regs = s.regs ∧ t.raised = s.raised)) ∧
  (∀ (s : State) (unit : Fin 8) (seed r : BitVec 16) (d : Nat), s.listening = false → ((s.mer.ping.all fun p => p.1 != unit.val) = true) → 
      answers (.pongFrame unit seed r d) s fun t =>
        t = s.count 6 3 0 1) ∧
  (∀ (s : State) (unit : Fin 8) (seed r : BitVec 16) (d : Nat), s.listening = true → 
      answers (.pongFrame unit seed r d) s fun t =>
        t = if s.on F.MER_STATUS_ID_CONFLICT then s.count 6 3 0 1 else ((s.count 6 3 0 1).wr F.MER_STATUS_ID_CONFLICT 1).raise 452) ∧
  (∀ (s : State), 
      answers .pongTimeout s fun t =>
        t = { s with mer := { s.mer with ping := none } }) ∧
  (∀ (s : State) (u : Fin 8), s.bst = bMASTER → (64 ≤ Tab.get (fun _ => 0) s.mer.pongs u.val ∧ ∀ v : Fin 8, v < u → Tab.get (fun _ => 0) s.mer.pongs v.val < 64) → 
      answers .delayCompute s fun t =>
        (t.on (F.MER_RT_VALID u) = true ∧ t.rd (F.MER_RT_D16 u) = unsigned 24 ((Tab.get (fun _ => 0) s.mer.sumRT u.val + 4) / 8)) ∧
        (t.rd F.MER_STATUS_UNITS_OK = if s.mer.conflicts.testBit u then s.rd F.MER_STATUS_UNITS_OK else withBit (s.rd F.MER_STATUS_UNITS_OK) u true) ∧
        (t = { s with regs := t.regs, mer := { s.mer with sumRT := t.mer.sumRT, pongs := t.mer.pongs, due := s.mer.due ++ [⟨.delay, u.val, unsigned 24 ((Tab.get (fun _ => 0) s.mer.sumRT u.val + 4) / 8)⟩] } }) ∧
        (∀ v : Fin 8, Tab.get (fun _ => 0) t.mer.sumRT v.val = (if v = u then 0 else Tab.get (fun _ => 0) s.mer.sumRT v.val) ∧ Tab.get (fun _ => 0) t.mer.pongs v.val = (if v = u then 0 else Tab.get (fun _ => 0) s.mer.pongs v.val))) ∧
  (∀ (s : State), (s.bst ≠ bMASTER ∨ ∀ v : Fin 8, Tab.get (fun _ => 0) s.mer.pongs v.val < 64) → 
      answers .delayCompute s fun t =>
        t = s) ∧
  (∀ (s : State), s.bst ≠ bOFF → s.mer.ping = none → 
      answers .badFrame s fun t =>
        (t.rd F.MER_CNT_FRAME_ERR_COUNT) = min (s.rd F.MER_CNT_FRAME_ERR_COUNT + 1) (2 ^ 32 - 1) ∧
        t = { s with regs := t.regs, raises := t.raises } ∧
        (s.rd F.MER_CNT_FRAME_ERR_COUNT = 0 ∧ s.mode ≠ mRESET → 450 ∈ t.raised)) ∧
  (∀ (s : State) (u a : Nat), s.bst ≠ bOFF → s.mer.ping = some (u, a) → 
      answers .badFrame s fun t =>
        (t.rd F.MER_CNT_FRAME_ERR_COUNT) = min (s.rd F.MER_CNT_FRAME_ERR_COUNT + 1) (2 ^ 32 - 1) ∧
        (s.rd F.MER_CNT_FRAME_ERR_COUNT = 0 ∧ s.mode ≠ mRESET → 450 ∈ t.raised) ∧
        (t.mer.ping = none ∧ Tab.get (fun _ => 0) t.mer.badRun u = Tab.get (fun _ => 0) s.mer.badRun u + 1) ∧
        (if Tab.get (fun _ => 0) s.mer.badRun u = 3 ∧ s.mer.conflicts.testBit u = false then t.on F.MER_STATUS_ID_CONFLICT = true ∧ t.mer.conflicts = withBit s.mer.conflicts u true ∧ t.rd F.MER_STATUS_UNITS_OK = withBit (s.rd F.MER_STATUS_UNITS_OK) u false % 256 ∧ (s.mode ≠ mRESET → 452 ∈ t.raised) else t.mer.conflicts = s.mer.conflicts ∧ t.rd F.MER_STATUS_UNITS_OK = s.rd F.MER_STATUS_UNITS_OK)) ∧
  (∀ (s : State), s.bst = bOFF → 
      answers .badFrame s fun t =>
        t = s)

/-- The meridian bus: frames at a slave. Every master frame takes a LOST slave to RANGING, and adds its phase of R280 to the average
after the first DELAY unless phase steps remain or the average is full; on a listening master it is an ID conflict with event 452;
elsewhere it only counts as a frame. A SWEEP, EPOCH or TRIG that a slave decodes 100 ns before its instant is scheduled for it, LAT
coarse edges after the edge nearest to its launch; a later TRIG, and on an ALIGNED slave a later SWEEP or EPOCH, applies at once, is
counted and raises event 451; a slave that is not ALIGNED drops a late SWEEP or EPOCH. A PING for the unit is answered at the first
coarse edge 1 us later with the seed and the residual. A DELAY for the unit sets D16 and takes LISTEN to RANGING. The application of
a SWEEP on the master or an ALIGNED slave is a sweep sync where SRC = 2, that of an EPOCH is the helm's marker and ends the wait of
due point cycles, that of a TRIG triggers the capture; elsewhere SWEEP and EPOCH do nothing. Sixteen phases are averaged: beyond 4
codes an ALIGNED slave is LOST with event 449, four in a row within 1/8 code align a RANGING one with event 448, and the steps are
planned, made one per fallow slot while point cycles run. Without frames an ALIGNED or RANGING slave is LOST; no other bus is.
Commands shown to complete here: sweepFrame, epochFrame, trigFrame, pingFrame, delayFrame, pongLaunch, frameApplication,
alignmentAverage, phaseStep, meridianLost. -/
def Obligations.MeridianSlave : Prop :=
  (∀ (s : State) (b : Nat), s.slave = true → (b : Int) + 17920 ≤ (16 * ((16 * (b : Int) - s.rd F.MER_DELAY_D16 + 128) / 256 + s.rd F.MER_LAT_LAT)) → 
      (answers (.sweepFrame b) s fun t =>
        (t.bst = if s.bst = bLOST then bRANGING else s.bst) ∧
        ((if s.mer.haveD16 = true ∧ s.mer.steps = 0 ∧ s.mer.phiN < 16 then t.mer.phiSum = s.mer.phiSum + ((16 * (b : Int) - s.rd F.MER_DELAY_D16 + 128) % 256 - 128) ∧ t.mer.phiN = s.mer.phiN + 1 else t.mer.phiSum = s.mer.phiSum ∧ t.mer.phiN = s.mer.phiN)) ∧
        t.mer.apply = s.mer.apply ++ [(.sweep, (16 * ((16 * (b : Int) - s.rd F.MER_DELAY_D16 + 128) / 256 + s.rd F.MER_LAT_LAT)).toNat * 625 / 16)]) ∧
      (answers (.epochFrame b) s fun t =>
        (t.bst = if s.bst = bLOST then bRANGING else s.bst) ∧
        ((if s.mer.haveD16 = true ∧ s.mer.steps = 0 ∧ s.mer.phiN < 16 then t.mer.phiSum = s.mer.phiSum + ((16 * (b : Int) - s.rd F.MER_DELAY_D16 + 128) % 256 - 128) ∧ t.mer.phiN = s.mer.phiN + 1 else t.mer.phiSum = s.mer.phiSum ∧ t.mer.phiN = s.mer.phiN)) ∧
        t.mer.apply = s.mer.apply ++ [(.epoch, (16 * ((16 * (b : Int) - s.rd F.MER_DELAY_D16 + 128) / 256 + s.rd F.MER_LAT_LAT)).toNat * 625 / 16)]) ∧
      (answers (.trigFrame b) s fun t =>
        (t.bst = if s.bst = bLOST then bRANGING else s.bst) ∧
        ((if s.mer.haveD16 = true ∧ s.mer.steps = 0 ∧ s.mer.phiN < 16 then t.mer.phiSum = s.mer.phiSum + ((16 * (b : Int) - s.rd F.MER_DELAY_D16 + 128) % 256 - 128) ∧ t.mer.phiN = s.mer.phiN + 1 else t.mer.phiSum = s.mer.phiSum ∧ t.mer.phiN = s.mer.phiN)) ∧
        t.mer.apply = s.mer.apply ++ [(.trig, (16 * ((16 * (b : Int) - s.rd F.MER_DELAY_D16 + 128) / 256 + s.rd F.MER_LAT_LAT)).toNat * 625 / 16)])) ∧
  (∀ (s : State) (b : Nat), s.slave = true → s.bst = bALIGNED → (16 * ((16 * (b : Int) - s.rd F.MER_DELAY_D16 + 128) / 256 + s.rd F.MER_LAT_LAT)) < (b : Int) + 17920 → 
      (answers (.sweepFrame b) s fun t =>
        (t.bst = if s.bst = bLOST then bRANGING else s.bst) ∧
        ((if s.mer.haveD16 = true ∧ s.mer.steps = 0 ∧ s.mer.phiN < 16 then t.mer.phiSum = s.mer.phiSum + ((16 * (b : Int) - s.rd F.MER_DELAY_D16 + 128) % 256 - 128) ∧ t.mer.phiN = s.mer.phiN + 1 else t.mer.phiSum = s.mer.phiSum ∧ t.mer.phiN = s.mer.phiN)) ∧
        t.mer.apply = s.mer.apply ∧
        t.rd F.MER_CNT_LATE_COUNT = min (s.rd F.MER_CNT_LATE_COUNT + 1) (2 ^ 32 - 1) ∧
        (s.mode ≠ mRESET → 451 ∈ t.raised) ∧
        (t.hlm.syncs = if s.hlm.src = 2 then s.hlm.syncs + 1 else s.hlm.syncs)) ∧
      (answers (.epochFrame b) s fun t =>
        (t.bst = if s.bst = bLOST then bRANGING else s.bst) ∧
        ((if s.mer.haveD16 = true ∧ s.mer.steps = 0 ∧ s.mer.phiN < 16 then t.mer.phiSum = s.mer.phiSum + ((16 * (b : Int) - s.rd F.MER_DELAY_D16 + 128) % 256 - 128) ∧ t.mer.phiN = s.mer.phiN + 1 else t.mer.phiSum = s.mer.phiSum ∧ t.mer.phiN = s.mer.phiN)) ∧
        t.mer.apply = s.mer.apply ∧
        t.rd F.MER_CNT_LATE_COUNT = min (s.rd F.MER_CNT_LATE_COUNT + 1) (2 ^ 32 - 1) ∧
        (s.mode ≠ mRESET → 451 ∈ t.raised) ∧
        t.hlm.epoch = true ∧
        (s.his.due = true → t.his.epoch = true ∧ t.on F.MER_STATUS_PC_WAIT = false))) ∧
  (∀ (s : State) (b : Nat), s.slave = true → (16 * ((16 * (b : Int) - s.rd F.MER_DELAY_D16 + 128) / 256 + s.rd F.MER_LAT_LAT)) < (b : Int) + 17920 → 
      answers (.trigFrame b) s fun t =>
        (t.bst = if s.bst = bLOST then bRANGING else s.bst) ∧
        ((if s.mer.haveD16 = true ∧ s.mer.steps = 0 ∧ s.mer.phiN < 16 then t.mer.phiSum = s.mer.phiSum + ((16 * (b : Int) - s.rd F.MER_DELAY_D16 + 128) % 256 - 128) ∧ t.mer.phiN = s.mer.phiN + 1 else t.mer.phiSum = s.mer.phiSum ∧ t.mer.phiN = s.mer.phiN)) ∧
        t.mer.apply = s.mer.apply ∧
        t.rd F.MER_CNT_LATE_COUNT = min (s.rd F.MER_CNT_LATE_COUNT + 1) (2 ^ 32 - 1) ∧
        (s.mode ≠ mRESET → 451 ∈ t.raised)) ∧
  (∀ (s : State) (b : Nat), s.slave = true → s.bst ≠ bALIGNED → (16 * ((16 * (b : Int) - s.rd F.MER_DELAY_D16 + 128) / 256 + s.rd F.MER_LAT_LAT)) < (b : Int) + 17920 → 
      (answers (.sweepFrame b) s fun t =>
        (t.bst = if s.bst = bLOST then bRANGING else s.bst) ∧
        ((if s.mer.haveD16 = true ∧ s.mer.steps = 0 ∧ s.mer.phiN < 16 then t.mer.phiSum = s.mer.phiSum + ((16 * (b : Int) - s.rd F.MER_DELAY_D16 + 128) % 256 - 128) ∧ t.mer.phiN = s.mer.phiN + 1 else t.mer.phiSum = s.mer.phiSum ∧ t.mer.phiN = s.mer.phiN)) ∧
        t.mer.apply = s.mer.apply ∧ t.hlm = s.hlm ∧ t.his = s.his ∧ t.raised = s.raised) ∧
      (answers (.epochFrame b) s fun t =>
        (t.bst = if s.bst = bLOST then bRANGING else s.bst) ∧
        ((if s.mer.haveD16 = true ∧ s.mer.steps = 0 ∧ s.mer.phiN < 16 then t.mer.phiSum = s.mer.phiSum + ((16 * (b : Int) - s.rd F.MER_DELAY_D16 + 128) % 256 - 128) ∧ t.mer.phiN = s.mer.phiN + 1 else t.mer.phiSum = s.mer.phiSum ∧ t.mer.phiN = s.mer.phiN)) ∧
        t.mer.apply = s.mer.apply ∧ t.hlm = s.hlm ∧ t.his = s.his ∧ t.raised = s.raised)) ∧
  (∀ (s : State) (b : Nat) (unit : Fin 8) (d16 : BitVec 24), s.listening = true → s.on F.MER_STATUS_ID_CONFLICT = false → 
      (answers (.sweepFrame b) s fun t =>
        t = ((s.count 6 3 0 1).wr F.MER_STATUS_ID_CONFLICT 1).raise 452) ∧
      (answers (.epochFrame b) s fun t =>
        t = ((s.count 6 3 0 1).wr F.MER_STATUS_ID_CONFLICT 1).raise 452) ∧
      (answers (.trigFrame b) s fun t =>
        t = ((s.count 6 3 0 1).wr F.MER_STATUS_ID_CONFLICT 1).raise 452) ∧
      (answers (.pingFrame unit b) s fun t =>
        t = ((s.count 6 3 0 1).wr F.MER_STATUS_ID_CONFLICT 1).raise 452) ∧
      (answers (.delayFrame unit d16 b) s fun t =>
        t = ((s.count 6 3 0 1).wr F.MER_STATUS_ID_CONFLICT 1).raise 452)) ∧
  (∀ (s : State) (b : Nat) (unit : Fin 8) (d16 : BitVec 24), s.slave = false → s.listening = false ∨ s.on F.MER_STATUS_ID_CONFLICT = true → 
      (answers (.sweepFrame b) s fun t =>
        t = s.count 6 3 0 1) ∧
      (answers (.epochFrame b) s fun t =>
        t = s.count 6 3 0 1) ∧
      (answers (.trigFrame b) s fun t =>
        t = s.count 6 3 0 1) ∧
      (answers (.pingFrame unit b) s fun t =>
        t = s.count 6 3 0 1) ∧
      (answers (.delayFrame unit d16 b) s fun t =>
        t = s.count 6 3 0 1)) ∧
  (∀ (s : State) (unit : Fin 8) (b : Nat), s.slave = true → 
      answers (.pingFrame unit b) s fun t =>
        (t.bst = if s.bst = bLOST then bRANGING else s.bst) ∧
        ((if s.mer.haveD16 = true ∧ s.mer.steps = 0 ∧ s.mer.phiN < 16 then t.mer.phiSum = s.mer.phiSum + ((16 * (b : Int) - s.rd F.MER_DELAY_D16 + 128) % 256 - 128) ∧ t.mer.phiN = s.mer.phiN + 1 else t.mer.phiSum = s.mer.phiSum ∧ t.mer.phiN = s.mer.phiN)) ∧
        (t.mer.pingAt = if unit.val = s.unit then some b else s.mer.pingAt)) ∧
  (∀ (s : State) (b : Nat), s.mer.pingAt = some b → 
      answers .pongLaunch s fun t =>
        t = { s with mer := { s.mer with pingAt := none, sent := merFrame .pong s.unit (2 ^ 24 * s.rd F.EMI_SIG_CFG_SEED + ((b + 25600 + 15) / 16 * 16 - b)) } }) ∧
  (∀ (s : State), s.mer.pingAt = none → 
      answers .pongLaunch s fun t =>
        t = s) ∧
  (∀ (s : State) (unit : Fin 8) (d16 : BitVec 24) (b : Nat), s.slave = true → unit.val = s.unit → 
      answers (.delayFrame unit d16 b) s fun t =>
        t.rd F.MER_DELAY_D16 = d16.toNat ∧ t.mer.haveD16 = true ∧
        (t.bst = if s.bst = bLISTEN ∨ s.bst = bLOST then bRANGING else s.bst) ∧
        ((if s.mer.haveD16 = true ∧ s.mer.steps = 0 ∧ s.mer.phiN < 16 then t.mer.phiSum = s.mer.phiSum + ((16 * (b : Int) - s.rd F.MER_DELAY_D16 + 128) % 256 - 128) ∧ t.mer.phiN = s.mer.phiN + 1 else t.mer.phiSum = s.mer.phiSum ∧ t.mer.phiN = s.mer.phiN))) ∧
  (∀ (s : State) (unit : Fin 8) (d16 : BitVec 24) (b : Nat), s.slave = true → unit.val ≠ s.unit → 
      answers (.delayFrame unit d16 b) s fun t =>
        (t.bst = if s.bst = bLOST then bRANGING else s.bst) ∧
        ((if s.mer.haveD16 = true ∧ s.mer.steps = 0 ∧ s.mer.phiN < 16 then t.mer.phiSum = s.mer.phiSum + ((16 * (b : Int) - s.rd F.MER_DELAY_D16 + 128) % 256 - 128) ∧ t.mer.phiN = s.mer.phiN + 1 else t.mer.phiSum = s.mer.phiSum ∧ t.mer.phiN = s.mer.phiN)) ∧
        t.rd F.MER_DELAY_D16 = s.rd F.MER_DELAY_D16 ∧ t.mer.haveD16 = s.mer.haveD16) ∧
  (∀ (s : State) (u v : Nat) (k : MerKind) (rest : List (MerKind × Nat)), s.mer.apply = (k, v) :: rest → k = .sweep → 
      answers (.frameApplication u) s fun t =>
        t = if (s.bst = bMASTER ∨ s.bst = bALIGNED) ∧ s.hlm.src = 2 then { { s with mer := { s.mer with apply := rest } } with hlm := { s.hlm with syncs := s.hlm.syncs + 1 } } else { s with mer := { s.mer with apply := rest } }) ∧
  (∀ (s : State) (u v : Nat) (k : MerKind) (rest : List (MerKind × Nat)), s.mer.apply = (k, v) :: rest → k = .epoch → s.bst = bMASTER ∨ s.bst = bALIGNED → 
      answers (.frameApplication u) s fun t =>
        t = if s.his.due then { ({ s with mer := { s.mer with apply := rest } } : State).wr F.MER_STATUS_PC_WAIT 0 with hlm := { s.hlm with epoch := true }, his := { s.his with epoch := true } } else { { s with mer := { s.mer with apply := rest } } with hlm := { s.hlm with epoch := true } }) ∧
  (∀ (s : State) (u v : Nat) (k : MerKind) (rest : List (MerKind × Nat)), s.mer.apply = (k, v) :: rest → k = .epoch → ¬(s.bst = bMASTER ∨ s.bst = bALIGNED) → 
      answers (.frameApplication u) s fun t =>
        t = { s with mer := { s.mer with apply := rest } }) ∧
  (∀ (s : State) (u v : Nat) (k : MerKind) (rest : List (MerKind × Nat)), s.mer.apply = (k, v) :: rest → k = .trig → 
      answers (.frameApplication u) s fun t =>
        t = State.capEvent { s with mer := { s.mer with apply := rest } } 6 u) ∧
  (∀ (s : State) (u : Nat), s.mer.apply = [] → 
      answers (.frameApplication u) s fun t =>
        t = s) ∧
  (∀ (s : State), s.slave = true → 16 ≤ s.mer.phiN → 
      answers .alignmentAverage s fun t =>
        t.mer.phiSum = 0 ∧ t.mer.phiN = 0 ∧
        t.rdS F.MER_PHASE_PHI = signed 16 (unsigned 16 ((s.mer.phiSum + 8) / 16)) ∧
        (t.bst = if s.bst = bALIGNED ∧ 1024 < s.mer.phiSum.natAbs then bLOST else if s.bst = bRANGING ∧ s.mer.phiSum.natAbs ≤ 32 ∧ 3 ≤ s.mer.good then bALIGNED else s.bst) ∧
        (t.mer.good = if s.mer.phiSum.natAbs ≤ 32 then min (s.mer.good + 1) 4 else 0) ∧
        (t.mer.steps = if t.bst = bLOST ∧ s.bst ≠ bLOST then 0 else (-s.mer.phiSum + 16) / 32) ∧
        (s.mode ≠ mRESET ∧ t.bst = bLOST ∧ s.bst ≠ bLOST → 449 ∈ t.raised) ∧
        (s.mode ≠ mRESET ∧ t.bst = bALIGNED ∧ s.bst ≠ bALIGNED → 448 ∈ t.raised)) ∧
  (∀ (s : State), s.slave = false ∨ s.mer.phiN < 16 → 
      answers .alignmentAverage s fun t =>
        t = s) ∧
  (∀ (s : State), s.mer.steps ≠ 0 → s.bst ≠ bLOST → (s.running = false ∨ ((s.his.cur.any fun x => x.kind == .fallow) = true ∧ s.mer.stepped = false)) → 
      answers .phaseStep s fun t =>
        t = { s with regs := t.regs, mer := { s.mer with steps := s.mer.steps - s.mer.steps.sign, stepped := true } } ∧
        t.rdS F.MER_PHASE_STEPS = signed 16 (unsigned 16 (s.rdS F.MER_PHASE_STEPS + s.mer.steps.sign))) ∧
  (∀ (s : State), (s.mer.steps = 0 ∨ s.bst = bLOST ∨ (s.running = true ∧ ((s.his.cur.any fun x => x.kind == .fallow) = false ∨ s.mer.stepped = true))) → 
      answers .phaseStep s fun t =>
        t = s) ∧
  (∀ (s : State), s.slave = true → s.bst = bALIGNED ∨ s.bst = bRANGING → 
      answers .meridianLost s fun t =>
        t = State.raise (({ s with mer := { s.mer with steps := 0, phiSum := 0, phiN := 0, good := 0 } } : State).wr F.MER_STATUS_STATE bLOST) 449) ∧
  (∀ (s : State), s.slave = false ∨ (s.bst ≠ bALIGNED ∧ s.bst ≠ bRANGING) → 
      answers .meridianLost s fun t =>
        t = s)

/-- The capture engine. EN set arms a disabled engine with an empty history, is latched as pending while the shutdown runs, and in
RECOVERY keeps the bit alone; an enabled engine goes on. EN cleared drops a pending enable; a running engine discards and counts the
open record and starts the shutdown, which completes when the queue has drained and then restarts a pending engine armed. ARM rearms
an enabled engine after DONE and does nothing else. A host trigger counts only under SRC 0 on an armed engine whose gate is open and
that takes no segment: without an open record it takes the next record number modulo 2^24 and opens a record stamped with the
trigger's time, slot, point cycle and gate race, or drops the record, counted with its cause, when it does not fit the queue or the
ring; with an open ADC record it opens the next segment at the placement. The oldest complete record goes to the ring when it fits
and its memory serves requests: WPTR moves past it, RECORDS counts, event 454 is raised, and DONE is set outside CONT and the
shutdown; else it stays in the queue, waking a memory in self-refresh. Commands shown to complete here: captureEnable,
captureDisable, captureShutdownComplete, captureArm, captureForce, captureRecordComplete. -/
def Obligations.CaptureEngine : Prop :=
  (∀ (s : State), s.reaches → s.tilHeld = true → 
      answers .captureEnable s fun t =>
        t = s.accessed.wr F.MER_CAP_CTRL_EN 1) ∧
  (∀ (s : State), s.reaches → s.tilHeld = false → s.cap.closing = false → s.on F.MER_CAP_CTRL_EN = false → 
      answers .captureEnable s fun t =>
        t = { ((s.accessed.wr F.MER_CAP_CTRL_EN 1).wr F.MER_CAP_STATUS_ARMED 1).wr F.MER_CAP_STATUS_DONE 0 with cap := { s.cap with hist := [], levelArmed := false, run := 0, lastTrig := none } }) ∧
  (∀ (s : State), s.reaches → s.tilHeld = false → s.cap.closing = false → s.on F.MER_CAP_CTRL_EN = true → 
      answers .captureEnable s fun t =>
        t = s.accessed) ∧
  (∀ (s : State), s.reaches → s.tilHeld = false → s.cap.closing = true → 
      answers .captureEnable s fun t =>
        t = if s.on F.MER_CAP_STATUS_PENDING_ENABLE then s.accessed.wr F.MER_CAP_CTRL_EN 1 else (((s.accessed.wr F.MER_CAP_CTRL_EN 1).wr F.MER_CAP_STATUS_PENDING_ENABLE 1).wr F.SYS_PEND_STATUS_CAPTURE 1).raise 6) ∧
  (∀ (s : State), s.reaches → s.cap.closing = false → s.on F.MER_CAP_CTRL_EN = true → 
      answers .captureDisable s fun t =>
        t.on F.MER_CAP_CTRL_EN = false ∧ t.rd F.MER_CAP_STATUS_SEG = 0 ∧ t.on F.MER_CAP_STATUS_PENDING_ENABLE = false ∧ t.on F.SYS_PEND_STATUS_CAPTURE = false ∧
        t.cap = { s.cap with cur := none, seg := none, closing := true, dropped := t.cap.dropped } ∧
        (t.rd F.MER_CAPTURE_DROP_COUNT = min (s.rd F.MER_CAPTURE_DROP_COUNT + if s.cap.cur.isSome then 1 else 0) (2 ^ 32 - 1)) ∧
        (s.cap.cur.isSome = true → t.on F.MER_CAP_DROP_CAUSE_SHUTDOWN = true ∧ t.cap.dropped = true ∧ (s.rd F.MER_CAPTURE_DROP_COUNT = 0 → 455 ∈ t.raised))) ∧
  (∀ (s : State), s.reaches → s.cap.closing = true ∨ s.on F.MER_CAP_CTRL_EN = false → 
      answers .captureDisable s fun t =>
        t = ((s.accessed.wr F.MER_CAP_STATUS_PENDING_ENABLE 0).wr F.SYS_PEND_STATUS_CAPTURE 0).wr F.MER_CAP_CTRL_EN 0) ∧
  (∀ (s : State), s.capStopped = false → s.cap.closing = true → s.cap.queue = [] → s.on F.MER_CAP_STATUS_PENDING_ENABLE = false → 
      answers .captureShutdownComplete s fun t =>
        t = { s.wr F.MER_CAP_STATUS_ARMED 0 with cap := { s.cap with closing := false } }) ∧
  (∀ (s : State), s.capStopped = false → s.cap.closing = true → s.cap.queue = [] → s.on F.MER_CAP_STATUS_PENDING_ENABLE = true → 
      answers .captureShutdownComplete s fun t =>
        t.on F.MER_CAP_STATUS_PENDING_ENABLE = false ∧ t.on F.SYS_PEND_STATUS_CAPTURE = false ∧
        t.on F.MER_CAP_CTRL_EN = true ∧ t.on F.MER_CAP_STATUS_ARMED = true ∧ t.on F.MER_CAP_STATUS_DONE = false ∧
        t = { s with regs := t.regs, cap := { s.cap with closing := false, hist := [], levelArmed := false, run := 0, lastTrig := none } }) ∧
  (∀ (s : State), s.capStopped = true ∨ s.cap.closing = false ∨ s.cap.queue ≠ [] → 
      answers .captureShutdownComplete s fun t =>
        t = s) ∧
  (∀ (s : State), s.reaches → s.on F.MER_CAP_CTRL_EN = true → s.on F.MER_CAP_STATUS_DONE = true → s.cap.closing = false → s.capStopped = false → 
      answers .captureArm s fun t =>
        t = (s.accessed.wr F.MER_CAP_STATUS_DONE 0).wr F.MER_CAP_STATUS_ARMED 1) ∧
  (∀ (s : State), s.reaches → s.on F.MER_CAP_CTRL_EN = false ∨ s.on F.MER_CAP_STATUS_DONE = false ∨ s.cap.closing = true ∨ s.capStopped = true → 
      answers .captureArm s fun t =>
        t = s.accessed) ∧
  (∀ (s : State) (u : Nat), s.reaches → s.rd F.MER_CAP_TRIG_SRC = 0 → s.capRuns = true ∧ s.on F.MER_CAP_STATUS_ARMED = true ∧ s.capGate = true ∧ s.cap.seg = none ∧ s.cap.cur = none → (((s.cap.queue.map fun r => r.length).sum + s.capSize) ≤ 32768) → (ringPlace s.capRing s.capAhead (s.rd F.MER_CAP_RPTR_OFS) 64 s.capSize).isSome = true → 
      answers (.captureForce u) s fun t =>
        t = if s.rd F.MER_CAP_SRC_KIND = 0 then State.capOpenSeg { s.accessed with cap := { s.cap with trigAt := some u, number := (s.cap.number + 1) % 2 ^ 24, cur := some ({ kind := s.rd F.MER_CAP_SRC_KIND, number := s.cap.number, noPc := !s.inCycles (s.slotHolding u) u, pcIndex := if s.inCycles (s.slotHolding u) u then (s.bank (((s.slotHolding u).map fun x => x.bank).getD s.his.active)).pcIndex else 0, ts := s.pbTime u, gateEdge := s.gateRace u, slot := (match s.slotHolding u with | some x => if s.rd F.MER_CAP_SRC_KIND = 0 then x.number (s.bank x.bank).p else 0 | none => 0) } : CapRec) } } u (match s.slotHolding u with | some x => if s.on F.MER_CAP_TRIG_PLACE then x.openAt else u | none => u) (s.gateRace u) else { s.accessed with cap := { s.cap with trigAt := some u, number := (s.cap.number + 1) % 2 ^ 24, cur := some ({ kind := s.rd F.MER_CAP_SRC_KIND, number := s.cap.number, noPc := !s.inCycles (s.slotHolding u) u, pcIndex := if s.inCycles (s.slotHolding u) u then (s.bank (((s.slotHolding u).map fun x => x.bank).getD s.his.active)).pcIndex else 0, ts := s.pbTime u, gateEdge := s.gateRace u, slot := (match s.slotHolding u with | some x => if s.rd F.MER_CAP_SRC_KIND = 0 then x.number (s.bank x.bank).p else 0 | none => 0) } : CapRec) } }) ∧
  (∀ (s : State) (u : Nat), s.reaches → s.rd F.MER_CAP_TRIG_SRC = 0 → s.capRuns = true ∧ s.on F.MER_CAP_STATUS_ARMED = true ∧ s.capGate = true ∧ s.cap.seg = none ∧ s.cap.cur = none → (32768 < ((s.cap.queue.map fun r => r.length).sum + s.capSize) ∨ (ringPlace s.capRing s.capAhead (s.rd F.MER_CAP_RPTR_OFS) 64 s.capSize).isNone = true) → 
      answers (.captureForce u) s fun t =>
        t = { s.accessed with regs := t.regs, raises := t.raises, cap := { s.cap with trigAt := some u, number := (s.cap.number + 1) % 2 ^ 24, dropped := true } } ∧
        t.rd F.MER_CAPTURE_DROP_COUNT = min (s.rd F.MER_CAPTURE_DROP_COUNT + 1) (2 ^ 32 - 1) ∧
        (if 32768 < ((s.cap.queue.map fun r => r.length).sum + s.capSize) then t.on F.MER_CAP_DROP_CAUSE_QUEUE = true else t.on F.MER_CAP_DROP_CAUSE_RING = true) ∧
        (s.rd F.MER_CAPTURE_DROP_COUNT = 0 → 455 ∈ t.raised)) ∧
  (∀ (s : State) (u : Nat) (r : CapRec), s.reaches → s.rd F.MER_CAP_TRIG_SRC = 0 → s.capRuns = true ∧ s.on F.MER_CAP_STATUS_ARMED = true ∧ s.capGate = true ∧ s.cap.seg = none → s.cap.cur = some r → 
      answers (.captureForce u) s fun t =>
        t = if s.rd F.MER_CAP_SRC_KIND = 0 then State.capOpenSeg { s.accessed with cap := { s.cap with trigAt := some u } } u (match s.slotHolding u with | some x => if s.on F.MER_CAP_TRIG_PLACE then x.openAt else u | none => u) (s.gateRace u) else { s.accessed with cap := { s.cap with trigAt := some u } }) ∧
  (∀ (s : State) (u : Nat), s.reaches → s.rd F.MER_CAP_TRIG_SRC ≠ 0 ∨ ¬(s.capRuns = true ∧ s.on F.MER_CAP_STATUS_ARMED = true ∧ s.capGate = true) ∨ s.cap.seg.isSome = true → 
      answers (.captureForce u) s fun t =>
        t = s.accessed) ∧
  (∀ (s : State) (r : List Byte) (rest : List (List Byte)) (o a : Nat) (wrap : Bool), s.cap.queue = r :: rest → ringPlace s.capRing (s.rd F.MER_CAP_WPTR_OFS) (s.rd F.MER_CAP_RPTR_OFS) 64 r.length = some (o, wrap) → s.capStopped = false → (s.place 3 (s.capBase + s.rd F.MER_CAP_WPTR_OFS) = .loc a → s.memBlocked = false ∧ s.engineTurn 3 = true) → 
      answers .captureRecordComplete s fun t =>
        t = s.captureStore r rest (s.rd F.MER_CAP_WPTR_OFS) o wrap ∧
        t.cap = { s.cap with queue := rest } ∧
        t.rd F.MER_CAP_WPTR_OFS = (o + r.length) % s.capRing % 2 ^ 32 ∧
        t.rd F.MER_CAP_RECORDS_COUNT = min (s.rd F.MER_CAP_RECORDS_COUNT + 1) (2 ^ 32 - 1) ∧
        (s.mode ≠ mRESET → 454 ∈ t.raised) ∧
        (s.on F.MER_CAP_CTRL_CONT = false ∧ s.cap.closing = false → t.on F.MER_CAP_STATUS_DONE = true)) ∧
  (∀ (s : State) (r : List Byte) (rest : List (List Byte)) (o a : Nat) (wrap : Bool), s.cap.queue = r :: rest → ringPlace s.capRing (s.rd F.MER_CAP_WPTR_OFS) (s.rd F.MER_CAP_RPTR_OFS) 64 r.length = some (o, wrap) → s.capStopped = false → s.place 3 (s.capBase + s.rd F.MER_CAP_WPTR_OFS) = .loc a → (s.memBlocked = true ∧ (s.memState ≠ 3 ∨ Tab.get (fun _ => 0) s.mem.drain 3 = 0)) → 
      answers .captureRecordComplete s fun t =>
        t = s.memWake) ∧
  (∀ (s : State) (r : List Byte) (rest : List (List Byte)) (o a : Nat) (wrap : Bool), s.cap.queue = r :: rest → ringPlace s.capRing (s.rd F.MER_CAP_WPTR_OFS) (s.rd F.MER_CAP_RPTR_OFS) 64 r.length = some (o, wrap) → s.capStopped = false → s.place 3 (s.capBase + s.rd F.MER_CAP_WPTR_OFS) = .loc a → s.memBlocked = false ∧ s.engineTurn 3 = false → 
      answers .captureRecordComplete s fun t =>
        t = s) ∧
  (∀ (s : State) (r : List Byte) (rest : List (List Byte)) (o : Nat), s.cap.queue = r :: rest → ringPlace s.capRing (s.rd F.MER_CAP_WPTR_OFS) (s.rd F.MER_CAP_RPTR_OFS) 64 r.length = some (o, false) → s.capStopped = false → r ≠ [] → s.inHost 3 (s.capBase + o) r.length = true → 
      answers .captureRecordComplete s fun t =>
        t.mem.dram = s.mem.dram ∧ (t.lnk.tlps.drop s.lnk.tlps.length).flatMap Tlp.data = r ∧
        t.rd F.MER_CAP_WPTR_OFS = (o + r.length) % s.capRing % 2 ^ 32 ∧ t.rd F.MER_CAP_RECORDS_COUNT = min (s.rd F.MER_CAP_RECORDS_COUNT + 1) (2 ^ 32 - 1)) ∧
  (∀ (s : State) (r : List Byte) (rest : List (List Byte)) (o : Nat) (c : Nat), s.cap.queue = r :: rest → ringPlace s.capRing (s.rd F.MER_CAP_WPTR_OFS) (s.rd F.MER_CAP_RPTR_OFS) 64 r.length = some (o, false) → s.capStopped = false → r ≠ [] → s.inHole 3 c (s.capBase + o) r.length = true → 
      answers .captureRecordComplete s fun t =>
        t.mem.dram = s.mem.dram ∧ t.lnk = s.lnk ∧
        t.rd F.MER_CAP_WPTR_OFS = (o + r.length) % s.capRing % 2 ^ 32 ∧ t.rd F.MER_CAP_RECORDS_COUNT = min (s.rd F.MER_CAP_RECORDS_COUNT + 1) (2 ^ 32 - 1) ∧
        (if s.rd F.MEM_ADDR_ERR_INFO_CAUSE = 0 then t.rd F.MEM_ADDR_ERR_INFO_CAUSE = c ∧ t.rd F.MEM_ADDR_ERR_INFO_PORT = 3 ∧ t.rd F.MEM_ADDR_ERR_ADDR_ADDR = (s.capBase + o) % 2 ^ 32 ∧ (s.mode ≠ mRESET → 491 ∈ t.raised) else t.rd F.MEM_ADDR_ERR_INFO_CAUSE = s.rd F.MEM_ADDR_ERR_INFO_CAUSE ∧ t.rd F.MEM_ADDR_ERR_ADDR_ADDR = s.rd F.MEM_ADDR_ERR_ADDR_ADDR)) ∧
  (∀ (s : State), s.capStopped = true → 
      answers .captureRecordComplete s fun t =>
        t = s) ∧
  (∀ (s : State), (s.cap.queue.head?.all (fun r => (ringPlace s.capRing (s.rd F.MER_CAP_WPTR_OFS) (s.rd F.MER_CAP_RPTR_OFS) 64 r.length).isNone) = true) → 
      answers .captureRecordComplete s fun t =>
        t = s)

/-- The sextant. EN set clears the statistics of a disabled sextant and arms it, unless GATE_SRC = 1, where it waits for the gate;
it is latched as pending during the shutdown, and in RECOVERY the bit alone is kept. EN cleared aborts the set and starts the
shutdown, dropping a pending enable. ARM arms a cleared set where none is armed. A start edge that passes the prescaler begins a
measurement where none is in progress, 50 ns have passed since the last, the set is not full and the gate admits it; in period mode
it also ends the one in progress. A stop edge that passes its prescaler, at least 2.5 ns after the start and within SXT_TIMEOUT,
ends it with t = 128 (coarse - coarse0) + CDT_STOP - CDT_START + OFS in the sums, least and greatest; an earlier or later one does
not. A timeout counts as missing, with event 457 for the first. A complete set latches COUNT, MEAN, SD, MIN and MAX with event 456,
and arms again under CONT; the set that ends range zero gives CAL_RZ_LAT; in SCAN and DERATED a set of the firing latency moves the
bearing offsets and the next set is armed (log entry 195). A rising gate edge under GATE_SRC 1 arms one set; every gate edge gives
the pin its level and marks what it races with. CDT_RUN and CDT_COMMIT are rejected while a set is armed; a commit copies two
monotonic tables or raises 458; a run ends with 459, committing the tables its hits give when every phase has 256 of them, and
raising 458 when not. Commands shown to complete here: sextantEnable, sextantDisable, sextantArm, sextantStartEdge, sextantStopEdge,
sextantMeasurementTimeout, sextantSetComplete, sxtGateEdge, cdtRun, cdtCommit, cdtRunComplete. -/
def Obligations.SextantMeasurements : Prop :=
  (∀ (s : State), s.reaches → s.tilHeld = false → s.sxt.closing = false → s.on F.SXT_CTRL_EN = false → 
      answers .sextantEnable s fun t =>
        t.on F.SXT_CTRL_EN = true ∧ t.on F.SXT_STATUS_ARMED = decide (s.rd F.SXT_CFG_GATE_SRC ≠ 1) ∧ t.on F.SXT_STATUS_DONE = false ∧ t.on F.SXT_STATUS_BUSY = false ∧
        t.sxt = { s.sxt.cleared with edgeArmed := false }) ∧
  (∀ (s : State), s.reaches → s.tilHeld = true → s.sxt.closing = false → s.on F.SXT_CTRL_EN = false → 
      answers .sextantEnable s fun t =>
        t = s.accessed.wr F.SXT_CTRL_EN 1) ∧
  (∀ (s : State), s.reaches → s.sxt.closing = false → s.on F.SXT_CTRL_EN = true → 
      answers .sextantEnable s fun t =>
        t = s.accessed) ∧
  (∀ (s : State), s.reaches → s.sxt.closing = true → 
      answers .sextantEnable s fun t =>
        t = if s.on F.SXT_STATUS_PENDING_ENABLE then s.accessed.wr F.SXT_CTRL_EN 1 else (((s.accessed.wr F.SXT_CTRL_EN 1).wr F.SXT_STATUS_PENDING_ENABLE 1).wr F.SYS_PEND_STATUS_SXT 1).raise 6) ∧
  (∀ (s : State), s.reaches → s.sxt.closing = false → s.on F.SXT_CTRL_EN = true → 
      answers .sextantDisable s fun t =>
        t.on F.SXT_CTRL_EN = false ∧ t.on F.SXT_STATUS_ARMED = false ∧ t.on F.SXT_STATUS_BUSY = false ∧
        t.on F.SXT_STATUS_PENDING_ENABLE = false ∧ t.on F.SYS_PEND_STATUS_SXT = false ∧
        t = { s.accessed with regs := t.regs, sxt := { s.sxt.cleared with edgeArmed := false, closing := true } }) ∧
  (∀ (s : State), s.reaches → s.sxt.closing = true ∨ s.on F.SXT_CTRL_EN = false → 
      answers .sextantDisable s fun t =>
        t = ((s.accessed.wr F.SXT_STATUS_PENDING_ENABLE 0).wr F.SYS_PEND_STATUS_SXT 0).wr F.SXT_CTRL_EN 0) ∧
  (∀ (s : State), s.reaches → s.sxtRuns = true → s.on F.SXT_STATUS_ARMED = false → 
      answers .sextantArm s fun t =>
        t.on F.SXT_STATUS_ARMED = true ∧ t.on F.SXT_STATUS_DONE = false ∧ t.on F.SXT_STATUS_GATE_EDGE = false ∧ t.on F.SXT_STATUS_BUSY = false ∧
        t = { s.accessed with regs := t.regs, sxt := { s.sxt.cleared with edgeArmed := false } }) ∧
  (∀ (s : State), s.reaches → s.sxtRuns = false ∨ s.on F.SXT_STATUS_ARMED = true → 
      answers .sextantArm s fun t =>
        t = s.accessed) ∧
  (∀ (s : State) (k : Nat) (f : Fin 128) (u : Nat), s.sxtSeesStart = true → (prescaled (s.sxt.preStart + 1) (if s.rd F.SXT_CFG_START_SRC = 0 then s.rd F.SXT_CFG_PRE_START else 0) = true) → (s.sxt.start = none ∧ (s.sxt.endedAt.all fun e => decide (e + 50000 ≤ u)) = true ∧ s.sxt.n + s.sxt.miss < s.rd F.SXT_N_N) → s.sxtGate = true → 
      answers (.sextantStartEdge k f u) s fun t =>
        t.sxt = { s.sxt with preStart := s.sxt.preStart + 1, decidedAt := u + 1, start := some (k, f.val, u) } ∧ t.on F.SXT_STATUS_BUSY = true ∧
        t.on F.SXT_STATUS_GATE_EDGE = (s.on F.SXT_STATUS_GATE_EDGE || (s.rd F.SXT_CFG_GATE_SRC != 2 && s.sxt.gateAt != 0 && u / 625 == s.sxt.gateAt / 625))) ∧
  (∀ (s : State) (k : Nat) (f : Fin 128) (u : Nat), s.sxtSeesStart = true → (prescaled (s.sxt.preStart + 1) (if s.rd F.SXT_CFG_START_SRC = 0 then s.rd F.SXT_CFG_PRE_START else 0) = true) → (s.sxt.start = none ∧ (s.sxt.endedAt.all fun e => decide (e + 50000 ≤ u)) = true ∧ s.sxt.n + s.sxt.miss < s.rd F.SXT_N_N) → s.sxtGate = false → 
      answers (.sextantStartEdge k f u) s fun t =>
        t.sxt = { s.sxt with preStart := s.sxt.preStart + 1, decidedAt := u + 1 } ∧ t.on F.SXT_STATUS_BUSY = s.on F.SXT_STATUS_BUSY ∧
        t.on F.SXT_STATUS_GATE_EDGE = (s.on F.SXT_STATUS_GATE_EDGE || (s.rd F.SXT_CFG_GATE_SRC != 2 && s.sxt.gateAt != 0 && u / 625 == s.sxt.gateAt / 625))) ∧
  (∀ (s : State) (k : Nat) (f : Fin 128) (u : Nat) (c0 f0 u0 : Nat), s.sxtSeesStart = true → (prescaled (s.sxt.preStart + 1) (if s.rd F.SXT_CFG_START_SRC = 0 then s.rd F.SXT_CFG_PRE_START else 0) = true) → s.sxt.start = some (c0, f0, u0) → s.rd F.SXT_CFG_STOP_SRC = 2 → u0 + 2500 ≤ u ∧ u ≤ u0 + 100000 * s.rd F.SXT_TIMEOUT_T → 
      answers (.sextantStartEdge k f u) s fun t =>
        t.sxt = { s.sxt with preStart := s.sxt.preStart + 1, start := none, endedAt := some u, n := s.sxt.n + 1, sum := s.sxt.sum + signed 32 (unsigned 32 (128 * ((k : Int) - c0) + s.cdtStop f - s.cdtStart f0 + s.rdS F.SXT_OFS_OFS)), sumSq := s.sxt.sumSq + signed 32 (unsigned 32 (128 * ((k : Int) - c0) + s.cdtStop f - s.cdtStart f0 + s.rdS F.SXT_OFS_OFS)) * signed 32 (unsigned 32 (128 * ((k : Int) - c0) + s.cdtStop f - s.cdtStart f0 + s.rdS F.SXT_OFS_OFS)), least := min s.sxt.least (signed 32 (unsigned 32 (128 * ((k : Int) - c0) + s.cdtStop f - s.cdtStart f0 + s.rdS F.SXT_OFS_OFS))), greatest := max s.sxt.greatest (signed 32 (unsigned 32 (128 * ((k : Int) - c0) + s.cdtStop f - s.cdtStart f0 + s.rdS F.SXT_OFS_OFS))) } ∧ t.on F.SXT_STATUS_BUSY = false ∧ t.rdS F.SXT_LAST_T = signed 32 (unsigned 32 (128 * ((k : Int) - c0) + s.cdtStop f - s.cdtStart f0 + s.rdS F.SXT_OFS_OFS))) ∧
  (∀ (s : State) (k : Nat) (f : Fin 128) (u : Nat), s.sxtSeesStart = true → (prescaled (s.sxt.preStart + 1) (if s.rd F.SXT_CFG_START_SRC = 0 then s.rd F.SXT_CFG_PRE_START else 0) = false ∨ (s.sxt.start.isSome = true ∧ s.rd F.SXT_CFG_STOP_SRC ≠ 2) ∨ (s.sxt.start = none ∧ ¬(s.sxt.start = none ∧ (s.sxt.endedAt.all fun e => decide (e + 50000 ≤ u)) = true ∧ s.sxt.n + s.sxt.miss < s.rd F.SXT_N_N))) → 
      answers (.sextantStartEdge k f u) s fun t =>
        t = s.sx fun x => { x with preStart := x.preStart + 1 }) ∧
  (∀ (s : State) (k : Nat) (f : Fin 128) (u : Nat) (c0 f0 u0 : Nat), s.sxtSeesStart = true → s.sxt.start = some (c0, f0, u0) → ¬(u0 + 2500 ≤ u ∧ u ≤ u0 + 100000 * s.rd F.SXT_TIMEOUT_T) → 
      answers (.sextantStartEdge k f u) s fun t =>
        t = s.sx fun x => { x with preStart := x.preStart + 1 }) ∧
  (∀ (s : State) (k : Nat) (f : Fin 128) (u : Nat), s.sxtSeesStart = false → 
      answers (.sextantStartEdge k f u) s fun t =>
        t = s) ∧
  (∀ (s : State) (k : Nat) (f : Fin 128) (u : Nat) (c0 f0 u0 : Nat), s.sxtRuns = true → s.on F.SXT_STATUS_ARMED = true → s.rd F.SXT_CFG_STOP_SRC ≠ 2 → prescaled (s.sxt.preStop + 1) (s.rd F.SXT_CFG_PRE_STOP) = true → s.sxt.start = some (c0, f0, u0) → u0 + 2500 ≤ u ∧ u ≤ u0 + 100000 * s.rd F.SXT_TIMEOUT_T → 
      answers (.sextantStopEdge k f u) s fun t =>
        t.sxt = { s.sxt with preStop := s.sxt.preStop + 1, start := none, endedAt := some u, n := s.sxt.n + 1, sum := s.sxt.sum + signed 32 (unsigned 32 (128 * ((k : Int) - c0) + s.cdtStop f - s.cdtStart f0 + s.rdS F.SXT_OFS_OFS)), sumSq := s.sxt.sumSq + signed 32 (unsigned 32 (128 * ((k : Int) - c0) + s.cdtStop f - s.cdtStart f0 + s.rdS F.SXT_OFS_OFS)) * signed 32 (unsigned 32 (128 * ((k : Int) - c0) + s.cdtStop f - s.cdtStart f0 + s.rdS F.SXT_OFS_OFS)), least := min s.sxt.least (signed 32 (unsigned 32 (128 * ((k : Int) - c0) + s.cdtStop f - s.cdtStart f0 + s.rdS F.SXT_OFS_OFS))), greatest := max s.sxt.greatest (signed 32 (unsigned 32 (128 * ((k : Int) - c0) + s.cdtStop f - s.cdtStart f0 + s.rdS F.SXT_OFS_OFS))) } ∧ t.on F.SXT_STATUS_BUSY = false ∧ t.rdS F.SXT_LAST_T = signed 32 (unsigned 32 (128 * ((k : Int) - c0) + s.cdtStop f - s.cdtStart f0 + s.rdS F.SXT_OFS_OFS))) ∧
  (∀ (s : State) (k : Nat) (f : Fin 128) (u : Nat), s.sxtRuns = true → s.on F.SXT_STATUS_ARMED = true → s.rd F.SXT_CFG_STOP_SRC ≠ 2 → (prescaled (s.sxt.preStop + 1) (s.rd F.SXT_CFG_PRE_STOP) = false ∨ s.sxt.start.all (fun x => decide (u < x.2.2 + 2500) || decide (x.2.2 + 100000 * s.rd F.SXT_TIMEOUT_T < u)) = true) → 
      answers (.sextantStopEdge k f u) s fun t =>
        t = s.sx fun x => { x with preStop := x.preStop + 1 }) ∧
  (∀ (s : State) (k : Nat) (f : Fin 128) (u : Nat), s.sxtRuns = false ∨ s.on F.SXT_STATUS_ARMED = false ∨ s.rd F.SXT_CFG_STOP_SRC = 2 → 
      answers (.sextantStopEdge k f u) s fun t =>
        t = s) ∧
  (∀ (s : State) (c0 f0 u0 : Nat), s.sxtRuns = true → s.sxt.start = some (c0, f0, u0) → 
      answers .sextantMeasurementTimeout s fun t =>
        t.sxt = { s.sxt with start := none, endedAt := some (u0 + 100000 * s.rd F.SXT_TIMEOUT_T), miss := s.sxt.miss + 1 } ∧
        t.on F.SXT_STATUS_BUSY = false ∧
        (s.sxt.miss = 0 → 457 ∈ t.raised)) ∧
  (∀ (s : State), s.sxtRuns = false ∨ s.sxt.start = none → 
      answers .sextantMeasurementTimeout s fun t =>
        t = s) ∧
  (∀ (s : State), s.sxtRuns = true → s.on F.SXT_STATUS_ARMED = true → s.sxt.start = none ∧ s.rd F.SXT_N_N ≤ s.sxt.n + s.sxt.miss → ¬(s.mode = mSCAN ∨ s.mode = mDERATED) → s.itemIs 3 = false ∨ s.cal.rzSet = false → 
      answers .sextantSetComplete s fun t =>
        t.rd F.SXT_COUNT_VALID = s.sxt.n % 2 ^ 16 ∧ t.rd F.SXT_COUNT_MISS = s.sxt.miss % 2 ^ 16 ∧
        2 ^ 32 * t.rd F.SXT_MEAN_HI_MEAN + t.rd F.SXT_MEAN_LO_MEAN = unsigned 40 (sxtMean s.sxt.n s.sxt.sum) ∧
        t.rd F.SXT_SD_SD = sxtSd s.sxt.n s.sxt.sum s.sxt.sumSq % 2 ^ 32 ∧
        t.rdS F.SXT_MIN_MIN = signed 32 (unsigned 32 s.sxt.least) ∧ t.rdS F.SXT_MAX_MAX = signed 32 (unsigned 32 s.sxt.greatest) ∧
        456 ∈ t.raised ∧
        t.on F.SXT_STATUS_DONE = true ∧ t.on F.SXT_STATUS_ARMED = s.on F.SXT_CFG_CONT ∧
        t.sxt = { s.sxt.cleared with edgeArmed := (s.on F.SXT_CFG_CONT && s.rd F.SXT_CFG_GATE_SRC == 1) }) ∧
  (∀ (s : State), s.sxtRuns = true → s.on F.SXT_STATUS_ARMED = true → s.sxt.start = none ∧ s.rd F.SXT_N_N ≤ s.sxt.n + s.sxt.miss → s.itemIs 3 = true ∧ s.cal.rzSet = true → 
      answers .sextantSetComplete s fun t =>
        t.rd F.SXT_COUNT_VALID = s.sxt.n % 2 ^ 16 ∧ t.rd F.SXT_COUNT_MISS = s.sxt.miss % 2 ^ 16 ∧
        2 ^ 32 * t.rd F.SXT_MEAN_HI_MEAN + t.rd F.SXT_MEAN_LO_MEAN = unsigned 40 (sxtMean s.sxt.n s.sxt.sum) ∧
        t.rd F.SXT_SD_SD = sxtSd s.sxt.n s.sxt.sum s.sxt.sumSq % 2 ^ 32 ∧
        t.rdS F.SXT_MIN_MIN = signed 32 (unsigned 32 s.sxt.least) ∧ t.rdS F.SXT_MAX_MAX = signed 32 (unsigned 32 s.sxt.greatest) ∧
        456 ∈ t.raised ∧
        t.rd F.CAL_RZ_LAT_LAT0 = unsigned 40 (sxtMean s.sxt.n s.sxt.sum) % 2 ^ 32 ∧
        (s.cal.rzNew.all (fun x => decide (t.cal.bofs = x.1) && decide (t.cal.tCal = x.2) && decide (t.cal.dL = 0)) = true)) ∧
  (∀ (s : State), s.sxtRuns = true → s.on F.SXT_STATUS_ARMED = true → s.sxt.start = none ∧ s.rd F.SXT_N_N ≤ s.sxt.n + s.sxt.miss → s.mode = mSCAN ∨ s.mode = mDERATED → 
      answers .sextantSetComplete s fun t =>
        t.rd F.SXT_COUNT_VALID = s.sxt.n % 2 ^ 16 ∧ t.rd F.SXT_COUNT_MISS = s.sxt.miss % 2 ^ 16 ∧
        2 ^ 32 * t.rd F.SXT_MEAN_HI_MEAN + t.rd F.SXT_MEAN_LO_MEAN = unsigned 40 (sxtMean s.sxt.n s.sxt.sum) ∧
        t.rd F.SXT_SD_SD = sxtSd s.sxt.n s.sxt.sum s.sxt.sumSq % 2 ^ 32 ∧
        t.rdS F.SXT_MIN_MIN = signed 32 (unsigned 32 s.sxt.least) ∧ t.rdS F.SXT_MAX_MAX = signed 32 (unsigned 32 s.sxt.greatest) ∧
        456 ∈ t.raised ∧
        t.on F.SXT_STATUS_DONE = true ∧ t.on F.SXT_STATUS_ARMED = true ∧ t.sxt.n = 0 ∧ t.sxt.miss = 0 ∧ t.sxt.sum = 0 ∧ t.sxt.sumSq = 0 ∧
        (s.on F.SXT_CFG_CONT = false → t.rd F.SXT_CFG_START_SRC = 1 ∧ t.rd F.SXT_CFG_STOP_SRC = 1 ∧ t.rd F.SXT_CFG_GATE_SRC = 2) ∧
        (t.cal.dL = if s.rd F.SXT_CFG_START_SRC = 1 ∧ s.rd F.SXT_CFG_STOP_SRC = 1 then (signed 40 (unsigned 40 (sxtMean s.sxt.n s.sxt.sum)) - s.rdS F.CAL_RZ_LAT_LAT0 + 4) / 8 else s.cal.dL)) ∧
  (∀ (s : State), s.sxtRuns = false ∨ s.on F.SXT_STATUS_ARMED = false ∨ s.sxt.start.isSome = true ∨ s.sxt.n + s.sxt.miss < s.rd F.SXT_N_N → 
      answers .sextantSetComplete s fun t =>
        t = s) ∧
  (∀ (s : State) (level : Bool) (u : Nat), s.sxtRuns = true → s.rd F.SXT_CFG_GATE_SRC = 1 ∧ level = true ∧ s.sxt.gate = false → ¬(s.on F.SXT_STATUS_ARMED = true ∧ s.sxt.edgeArmed = true) → 
      answers (.sxtGateEdge level u) s fun t =>
        t.sxt = { s.sxt.cleared with gate := level, gateAt := u, edgeArmed := true } ∧
        t.on F.SXT_STATUS_ARMED = true ∧ t.on F.SXT_STATUS_DONE = false ∧ t.on F.SXT_STATUS_BUSY = false ∧ t.on F.SXT_STATUS_GATE_EDGE = (s.rd F.SXT_CFG_GATE_SRC != 2 && s.sxt.decidedAt != 0 && (s.sxt.decidedAt - 1) / 625 == u / 625) ∧
        (t.cap.cur = if s.rd F.MER_CAP_TRIG_GATE = 1 ∧ sameCycle s.cap.trigAt u = true then s.cap.cur.map (fun r => { r with gateEdge := true }) else s.cap.cur)) ∧
  (∀ (s : State) (level : Bool) (u : Nat), s.sxtRuns = true → ¬(s.rd F.SXT_CFG_GATE_SRC = 1 ∧ level = true ∧ s.sxt.gate = false) ∨ (s.on F.SXT_STATUS_ARMED = true ∧ s.sxt.edgeArmed = true) → 
      answers (.sxtGateEdge level u) s fun t =>
        t = { s with regs := t.regs, cap := { s.cap with cur := t.cap.cur }, sxt := { s.sxt with gate := level, gateAt := u } } ∧
        t.on F.SXT_STATUS_ARMED = s.on F.SXT_STATUS_ARMED ∧ t.on F.SXT_STATUS_GATE_EDGE = (s.on F.SXT_STATUS_GATE_EDGE || (s.on F.SXT_STATUS_ARMED && (s.rd F.SXT_CFG_GATE_SRC != 2 && s.sxt.decidedAt != 0 && (s.sxt.decidedAt - 1) / 625 == u / 625))) ∧
        (t.cap.cur = if s.rd F.MER_CAP_TRIG_GATE = 1 ∧ sameCycle s.cap.trigAt u = true then s.cap.cur.map (fun r => { r with gateEdge := true }) else s.cap.cur)) ∧
  (∀ (s : State) (level : Bool) (u : Nat), s.sxtRuns = false → 
      answers (.sxtGateEdge level u) s fun t =>
        t = { s with cap := { s.cap with cur := t.cap.cur }, sxt := { s.sxt with gate := level, gateAt := u } } ∧
        (t.cap.cur = if s.rd F.MER_CAP_TRIG_GATE = 1 ∧ sameCycle s.cap.trigAt u = true then s.cap.cur.map (fun r => { r with gateEdge := true }) else s.cap.cur)) ∧
  (∀ (s : State), s.reaches → s.on F.SXT_STATUS_ARMED = false → s.tilHeld = true → 
      (answers .cdtRun s fun t =>
        t = s.accessed) ∧
      (answers .cdtCommit s fun t =>
        t = s.accessed)) ∧
  (∀ (s : State), s.reaches → s.on F.SXT_STATUS_ARMED = false → s.tilHeld = false → 
      (answers .cdtRun s fun t =>
        t = s.accessed.wr F.SXT_STATUS_CDT_BUSY 1) ∧
      (answers .cdtCommit s fun t =>
        if cdtRises (s.cdtShadow (R.SXT_CDT_START 0)) && cdtRises (s.cdtShadow (R.SXT_CDT_STOP 0)) then t = { s.accessed with sxt := { s.sxt with cdtStart := t.sxt.cdtStart, cdtStop := t.sxt.cdtStop } } ∧ (∀ f : Fin 128, t.cdtStart f = s.cdtShadow (R.SXT_CDT_START 0) f ∧ t.cdtStop f = s.cdtShadow (R.SXT_CDT_STOP 0) f) else t = s.accessed.raise 458)) ∧
  (∀ (s : State), s.reaches → s.on F.SXT_STATUS_ARMED = true → 
      (answers .cdtRun s fun t =>
        rejected s t) ∧
      (answers .cdtCommit s fun t =>
        rejected s t)) ∧
  (∀ (s : State) (a b : List Nat), s.mode ≠ mRESET → s.on F.SXT_STATUS_CDT_BUSY = true → s.itemIs 2 = false → 
      answers (.cdtRunComplete a b) s fun t =>
        t.on F.SXT_STATUS_CDT_BUSY = false ∧ 459 ∈ t.raised ∧
        (leastHits a b < 256 → t.sxt = s.sxt ∧ 458 ∈ t.raised) ∧
        (256 ≤ leastHits a b → ∀ f : Fin 128, t.cdtStart f = cdtOf a f ∧ t.cdtStop f = cdtOf b f)) ∧
  (∀ (s : State) (a b : List Nat), s.on F.SXT_STATUS_CDT_BUSY = false → 
      answers (.cdtRunComplete a b) s fun t =>
        t = s)

/-- The converter: enable, scan entries, urgent requests, ranging. EN set starts round 0 at its first entry with every front end
settling, at x1 or its fixed gain, and its continuous excitation on; a second EN changes nothing; EN cleared abandons the entry and
stops the excitation and the settle timers. A scan sample is of the entry in progress: ADC_LAST takes the sample word of Table AA-1,
or the sample is discarded for SETTLING or TRANSIENT and counted; an over-range raises 464 where the input's bit was 0; the next
entry begins. A sample of a front end that ranges moves its gain and its down-count as Table AA-3 says, and the ninth change within
60 s latches RANGE_FLAP with event 465 at the lowest gain of that time. A host urgent request is taken for an input below 24 while
none waits, and rejected otherwise; its service begins at once where the converter runs and the helm asks for nothing. An urgent
sample answers the request in service, the helm's first where neither is, clears it, and leaves the scan its entry; the host's goes
to ADC_URG_RESULT with HOST_URG_DONE. Where nothing is to be sampled, or the converter does not run, nothing happens. Commands shown
to complete here: adcEnable, adcDisable, adcSample, hostUrgentRequest, urgentSample. -/
def Obligations.AnalogScan : Prop :=
  (∀ (s : State), s.reaches → s.on F.ADC_CTRL_EN = false → 
      answers .adcEnable s fun t =>
        t.on F.ADC_CTRL_EN = true ∧ t.on F.ADC_STATUS_RUNNING = true ∧ t.adc.last = 0 ∧
        (t.adc.entry = (t.nextEntry 0 0).map Prod.fst ∧ t.adc.round = ((t.nextEntry 0 0).map Prod.snd).getD 0 ∧ (t.adc.entry.all fun n => decide (t.rd F.ADC_STATUS_ENTRY = n)) = true) ∧
        t.adc.hostServed = (s.on F.ADC_STATUS_HOST_URG_BUSY && !s.adc.helmUrgent) ∧
        (∀ i : Fin 8, t.on (F.ADC_FE_STATUS_SETTLING i) = true ∧ (t.fe i).gain = (if s.on (F.ADC_FE_CFG_AUTO i) then 0 else s.rd (F.ADC_FE_CFG_FIXED i)) ∧ (t.fe i).down = 0 ∧ (t.fe i).on = (excites (s.feMode i) && s.rd (F.ADC_FE_PULSE_PERIOD i) == 0))) ∧
  (∀ (s : State), s.reaches → s.on F.ADC_CTRL_EN = true → 
      answers .adcEnable s fun t =>
        t = s.accessed) ∧
  (∀ (s : State), s.reaches → 
      answers .adcDisable s fun t =>
        t.on F.ADC_CTRL_EN = false ∧ t.on F.ADC_STATUS_RUNNING = false ∧ t.rd F.ADC_STATUS_ENTRY = 0 ∧ t.adc.entry = none ∧ t.adc.hostServed = false ∧
        (∀ i : Fin 8, t.fe i = { s.fe i with on := false } ∧ t.on (F.ADC_FE_STATUS_SETTLING i) = false ∧ t.on (F.ADC_FE_STATUS_IN_WINDOW i) = false)) ∧
  (∀ (s : State) (half : Int) (u n : Nat), s.adcRuns = true → (s.windowsAt u).adc.entry = some n → (s.windowsAt u).discards n u = false → 
      answers (.adcSample half u) s fun t =>
        t.adc.entry = ((s.windowsAt u).nextEntry ((s.windowsAt u).roundOf n u) (n + 1)).map Prod.fst ∧ t.adc.last = n + 1 ∧ t.adc.round = (((s.windowsAt u).nextEntry ((s.windowsAt u).roundOf n u) (n + 1)).map Prod.snd).getD ((s.windowsAt u).roundOf n u) ∧
        (n < 32 → sampleOf n half false u (s.windowsAt u) (t.reg (R.ADC_LAST n))) ∧
        t.rd F.ADC_CNT_DISCARD_COUNT = (s.windowsAt u).rd F.ADC_CNT_DISCARD_COUNT ∧
        (((s.windowsAt u).ovrOf n half = true → (t.rd F.ADC_OVR_STATUS_OVR).testBit n = true ∧ ((s.windowsAt u).mode ≠ mRESET ∧ ((s.windowsAt u).rd F.ADC_OVR_STATUS_OVR).testBit n = false → 464 ∈ t.raised)))) ∧
  (∀ (s : State) (half : Int) (u n : Nat), s.adcRuns = true → (s.windowsAt u).adc.entry = some n → (s.windowsAt u).discards n u = true → 
      answers (.adcSample half u) s fun t =>
        t.adc.entry = ((s.windowsAt u).nextEntry ((s.windowsAt u).roundOf n u) (n + 1)).map Prod.fst ∧ t.adc.last = n + 1 ∧ t.adc.round = (((s.windowsAt u).nextEntry ((s.windowsAt u).roundOf n u) (n + 1)).map Prod.snd).getD ((s.windowsAt u).roundOf n u) ∧
        t.reg (R.ADC_LAST n) = (s.windowsAt u).reg (R.ADC_LAST n) ∧ t.rd F.ADC_OVR_STATUS_OVR = (s.windowsAt u).rd F.ADC_OVR_STATUS_OVR ∧
        t.rd F.ADC_CNT_DISCARD_COUNT = min ((s.windowsAt u).rd F.ADC_CNT_DISCARD_COUNT + 1) (2 ^ 32 - 1)) ∧
  (∀ (s : State) (half : Int) (u n : Nat), s.adcRuns = true → (s.windowsAt u).adc.entry = some n → 16 ≤ n ∧ n < 24 → (((((s.windowsAt u).fe (n - 16)).changes.filter fun e => decide (u < e.1 + 60000000000000)).length < 8 ∨ (s.windowsAt u).on (F.ADC_FE_STATUS_RANGE_FLAP (n - 16)) = true) ∨ ¬((if (s.windowsAt u).on (F.ADC_FE_CFG_AUTO (n - 16)) = false ∨ (s.windowsAt u).switched n u = true then ((s.windowsAt u).fe (n - 16)).gain else if (s.windowsAt u).ovrOf n half = true ∧ (s.windowsAt u).codeOf n half = 0x3FFF then 0 else if (s.windowsAt u).ovrOf n half = true then ((s.windowsAt u).fe (n - 16)).gain else if 14746 ≤ (s.windowsAt u).codeOf n half ∧ 0 < ((s.windowsAt u).fe (n - 16)).gain then ((s.windowsAt u).fe (n - 16)).gain - 1 else if (s.windowsAt u).codeOf n half ≤ 3276 ∧ (s.windowsAt u).settling n = false ∧ ((s.windowsAt u).fe (n - 16)).gain < 3 ∧ ((s.windowsAt u).fe (n - 16)).down = 3 ∧ (s.windowsAt u).on (F.ADC_FE_STATUS_RANGE_FLAP (n - 16)) = false then ((s.windowsAt u).fe (n - 16)).gain + 1 else ((s.windowsAt u).fe (n - 16)).gain) ≠ ((s.windowsAt u).fe (n - 16)).gain)) → 
      answers (.adcSample half u) s fun t =>
        ((t.fe (n - 16)).gain = (if (s.windowsAt u).on (F.ADC_FE_CFG_AUTO (n - 16)) = false ∨ (s.windowsAt u).switched n u = true then ((s.windowsAt u).fe (n - 16)).gain else if (s.windowsAt u).ovrOf n half = true ∧ (s.windowsAt u).codeOf n half = 0x3FFF then 0 else if (s.windowsAt u).ovrOf n half = true then ((s.windowsAt u).fe (n - 16)).gain else if 14746 ≤ (s.windowsAt u).codeOf n half ∧ 0 < ((s.windowsAt u).fe (n - 16)).gain then ((s.windowsAt u).fe (n - 16)).gain - 1 else if (s.windowsAt u).codeOf n half ≤ 3276 ∧ (s.windowsAt u).settling n = false ∧ ((s.windowsAt u).fe (n - 16)).gain < 3 ∧ ((s.windowsAt u).fe (n - 16)).down = 3 ∧ (s.windowsAt u).on (F.ADC_FE_STATUS_RANGE_FLAP (n - 16)) = false then ((s.windowsAt u).fe (n - 16)).gain + 1 else ((s.windowsAt u).fe (n - 16)).gain) ∧ (t.fe (n - 16)).down = (if (s.windowsAt u).on (F.ADC_FE_CFG_AUTO (n - 16)) = false ∨ (s.windowsAt u).switched n u = true then ((s.windowsAt u).fe (n - 16)).down else if (s.windowsAt u).ovrOf n half = true then 0 else if 3277 ≤ (s.windowsAt u).codeOf n half ∧ ((s.windowsAt u).codeOf n half < 14746 ∨ 0 < ((s.windowsAt u).fe (n - 16)).gain) then 0 else if (s.windowsAt u).codeOf n half ≤ 3276 ∧ (s.windowsAt u).settling n = false ∧ ((s.windowsAt u).fe (n - 16)).gain < 3 then (if ((s.windowsAt u).fe (n - 16)).down = 3 then (if (s.windowsAt u).on (F.ADC_FE_STATUS_RANGE_FLAP (n - 16)) then 3 else 0) else ((s.windowsAt u).fe (n - 16)).down + 1) else ((s.windowsAt u).fe (n - 16)).down)) ∧
        ((t.fe (n - 16)).switching = decide ((if (s.windowsAt u).on (F.ADC_FE_CFG_AUTO (n - 16)) = false ∨ (s.windowsAt u).switched n u = true then ((s.windowsAt u).fe (n - 16)).gain else if (s.windowsAt u).ovrOf n half = true ∧ (s.windowsAt u).codeOf n half = 0x3FFF then 0 else if (s.windowsAt u).ovrOf n half = true then ((s.windowsAt u).fe (n - 16)).gain else if 14746 ≤ (s.windowsAt u).codeOf n half ∧ 0 < ((s.windowsAt u).fe (n - 16)).gain then ((s.windowsAt u).fe (n - 16)).gain - 1 else if (s.windowsAt u).codeOf n half ≤ 3276 ∧ (s.windowsAt u).settling n = false ∧ ((s.windowsAt u).fe (n - 16)).gain < 3 ∧ ((s.windowsAt u).fe (n - 16)).down = 3 ∧ (s.windowsAt u).on (F.ADC_FE_STATUS_RANGE_FLAP (n - 16)) = false then ((s.windowsAt u).fe (n - 16)).gain + 1 else ((s.windowsAt u).fe (n - 16)).gain) ≠ ((s.windowsAt u).fe (n - 16)).gain) ∧ (t.fe (n - 16)).changedAt = (if (if (s.windowsAt u).on (F.ADC_FE_CFG_AUTO (n - 16)) = false ∨ (s.windowsAt u).switched n u = true then ((s.windowsAt u).fe (n - 16)).gain else if (s.windowsAt u).ovrOf n half = true ∧ (s.windowsAt u).codeOf n half = 0x3FFF then 0 else if (s.windowsAt u).ovrOf n half = true then ((s.windowsAt u).fe (n - 16)).gain else if 14746 ≤ (s.windowsAt u).codeOf n half ∧ 0 < ((s.windowsAt u).fe (n - 16)).gain then ((s.windowsAt u).fe (n - 16)).gain - 1 else if (s.windowsAt u).codeOf n half ≤ 3276 ∧ (s.windowsAt u).settling n = false ∧ ((s.windowsAt u).fe (n - 16)).gain < 3 ∧ ((s.windowsAt u).fe (n - 16)).down = 3 ∧ (s.windowsAt u).on (F.ADC_FE_STATUS_RANGE_FLAP (n - 16)) = false then ((s.windowsAt u).fe (n - 16)).gain + 1 else ((s.windowsAt u).fe (n - 16)).gain) ≠ ((s.windowsAt u).fe (n - 16)).gain then some u else ((s.windowsAt u).fe (n - 16)).changedAt)) ∧
        ((if (s.windowsAt u).on (F.ADC_FE_CFG_AUTO (n - 16)) = false ∨ (s.windowsAt u).switched n u = true then ((s.windowsAt u).fe (n - 16)).gain else if (s.windowsAt u).ovrOf n half = true ∧ (s.windowsAt u).codeOf n half = 0x3FFF then 0 else if (s.windowsAt u).ovrOf n half = true then ((s.windowsAt u).fe (n - 16)).gain else if 14746 ≤ (s.windowsAt u).codeOf n half ∧ 0 < ((s.windowsAt u).fe (n - 16)).gain then ((s.windowsAt u).fe (n - 16)).gain - 1 else if (s.windowsAt u).codeOf n half ≤ 3276 ∧ (s.windowsAt u).settling n = false ∧ ((s.windowsAt u).fe (n - 16)).gain < 3 ∧ ((s.windowsAt u).fe (n - 16)).down = 3 ∧ (s.windowsAt u).on (F.ADC_FE_STATUS_RANGE_FLAP (n - 16)) = false then ((s.windowsAt u).fe (n - 16)).gain + 1 else ((s.windowsAt u).fe (n - 16)).gain) ≠ ((s.windowsAt u).fe (n - 16)).gain → (t.fe (n - 16)).changes = (((s.windowsAt u).fe (n - 16)).changes.filter fun e => decide (u < e.1 + 60000000000000)) ++ [(u, (if (s.windowsAt u).on (F.ADC_FE_CFG_AUTO (n - 16)) = false ∨ (s.windowsAt u).switched n u = true then ((s.windowsAt u).fe (n - 16)).gain else if (s.windowsAt u).ovrOf n half = true ∧ (s.windowsAt u).codeOf n half = 0x3FFF then 0 else if (s.windowsAt u).ovrOf n half = true then ((s.windowsAt u).fe (n - 16)).gain else if 14746 ≤ (s.windowsAt u).codeOf n half ∧ 0 < ((s.windowsAt u).fe (n - 16)).gain then ((s.windowsAt u).fe (n - 16)).gain - 1 else if (s.windowsAt u).codeOf n half ≤ 3276 ∧ (s.windowsAt u).settling n = false ∧ ((s.windowsAt u).fe (n - 16)).gain < 3 ∧ ((s.windowsAt u).fe (n - 16)).down = 3 ∧ (s.windowsAt u).on (F.ADC_FE_STATUS_RANGE_FLAP (n - 16)) = false then ((s.windowsAt u).fe (n - 16)).gain + 1 else ((s.windowsAt u).fe (n - 16)).gain))] ∧ t.rd (F.ADC_FE_STATUS_RANGE (n - 16)) = (if (s.windowsAt u).on (F.ADC_FE_CFG_AUTO (n - 16)) = false ∨ (s.windowsAt u).switched n u = true then ((s.windowsAt u).fe (n - 16)).gain else if (s.windowsAt u).ovrOf n half = true ∧ (s.windowsAt u).codeOf n half = 0x3FFF then 0 else if (s.windowsAt u).ovrOf n half = true then ((s.windowsAt u).fe (n - 16)).gain else if 14746 ≤ (s.windowsAt u).codeOf n half ∧ 0 < ((s.windowsAt u).fe (n - 16)).gain then ((s.windowsAt u).fe (n - 16)).gain - 1 else if (s.windowsAt u).codeOf n half ≤ 3276 ∧ (s.windowsAt u).settling n = false ∧ ((s.windowsAt u).fe (n - 16)).gain < 3 ∧ ((s.windowsAt u).fe (n - 16)).down = 3 ∧ (s.windowsAt u).on (F.ADC_FE_STATUS_RANGE_FLAP (n - 16)) = false then ((s.windowsAt u).fe (n - 16)).gain + 1 else ((s.windowsAt u).fe (n - 16)).gain) % 4) ∧
        t.on (F.ADC_FE_STATUS_RANGE_FLAP (n - 16)) = (s.windowsAt u).on (F.ADC_FE_STATUS_RANGE_FLAP (n - 16))) ∧
  (∀ (s : State) (half : Int) (u n : Nat), s.adcRuns = true → (s.windowsAt u).adc.entry = some n → 16 ≤ n ∧ n < 24 → (8 ≤ (((s.windowsAt u).fe (n - 16)).changes.filter fun e => decide (u < e.1 + 60000000000000)).length ∧ (s.windowsAt u).on (F.ADC_FE_STATUS_RANGE_FLAP (n - 16)) = false) → ((if (s.windowsAt u).on (F.ADC_FE_CFG_AUTO (n - 16)) = false ∨ (s.windowsAt u).switched n u = true then ((s.windowsAt u).fe (n - 16)).gain else if (s.windowsAt u).ovrOf n half = true ∧ (s.windowsAt u).codeOf n half = 0x3FFF then 0 else if (s.windowsAt u).ovrOf n half = true then ((s.windowsAt u).fe (n - 16)).gain else if 14746 ≤ (s.windowsAt u).codeOf n half ∧ 0 < ((s.windowsAt u).fe (n - 16)).gain then ((s.windowsAt u).fe (n - 16)).gain - 1 else if (s.windowsAt u).codeOf n half ≤ 3276 ∧ (s.windowsAt u).settling n = false ∧ ((s.windowsAt u).fe (n - 16)).gain < 3 ∧ ((s.windowsAt u).fe (n - 16)).down = 3 ∧ (s.windowsAt u).on (F.ADC_FE_STATUS_RANGE_FLAP (n - 16)) = false then ((s.windowsAt u).fe (n - 16)).gain + 1 else ((s.windowsAt u).fe (n - 16)).gain) ≠ ((s.windowsAt u).fe (n - 16)).gain) → 
      answers (.adcSample half u) s fun t =>
        (t.on (F.ADC_FE_STATUS_RANGE_FLAP (n - 16)) = true ∧ (t.rd F.ADC_FLAP_STATUS_FLAP).testBit (n - 16) = true ∧ ((s.windowsAt u).mode ≠ mRESET → 465 ∈ t.raised)) ∧
        ((t.fe (n - 16)).gain ≤ (if (s.windowsAt u).on (F.ADC_FE_CFG_AUTO (n - 16)) = false ∨ (s.windowsAt u).switched n u = true then ((s.windowsAt u).fe (n - 16)).gain else if (s.windowsAt u).ovrOf n half = true ∧ (s.windowsAt u).codeOf n half = 0x3FFF then 0 else if (s.windowsAt u).ovrOf n half = true then ((s.windowsAt u).fe (n - 16)).gain else if 14746 ≤ (s.windowsAt u).codeOf n half ∧ 0 < ((s.windowsAt u).fe (n - 16)).gain then ((s.windowsAt u).fe (n - 16)).gain - 1 else if (s.windowsAt u).codeOf n half ≤ 3276 ∧ (s.windowsAt u).settling n = false ∧ ((s.windowsAt u).fe (n - 16)).gain < 3 ∧ ((s.windowsAt u).fe (n - 16)).down = 3 ∧ (s.windowsAt u).on (F.ADC_FE_STATUS_RANGE_FLAP (n - 16)) = false then ((s.windowsAt u).fe (n - 16)).gain + 1 else ((s.windowsAt u).fe (n - 16)).gain) ∧ ((((s.windowsAt u).fe (n - 16)).changes.filter fun e => decide (u < e.1 + 60000000000000)).all fun e => decide ((t.fe (n - 16)).gain ≤ e.2)) = true ∧ (t.fe (n - 16)).down = 0 ∧ (t.fe (n - 16)).changes = (((s.windowsAt u).fe (n - 16)).changes.filter fun e => decide (u < e.1 + 60000000000000)) ++ [(u, (if (s.windowsAt u).on (F.ADC_FE_CFG_AUTO (n - 16)) = false ∨ (s.windowsAt u).switched n u = true then ((s.windowsAt u).fe (n - 16)).gain else if (s.windowsAt u).ovrOf n half = true ∧ (s.windowsAt u).codeOf n half = 0x3FFF then 0 else if (s.windowsAt u).ovrOf n half = true then ((s.windowsAt u).fe (n - 16)).gain else if 14746 ≤ (s.windowsAt u).codeOf n half ∧ 0 < ((s.windowsAt u).fe (n - 16)).gain then ((s.windowsAt u).fe (n - 16)).gain - 1 else if (s.windowsAt u).codeOf n half ≤ 3276 ∧ (s.windowsAt u).settling n = false ∧ ((s.windowsAt u).fe (n - 16)).gain < 3 ∧ ((s.windowsAt u).fe (n - 16)).down = 3 ∧ (s.windowsAt u).on (F.ADC_FE_STATUS_RANGE_FLAP (n - 16)) = false then ((s.windowsAt u).fe (n - 16)).gain + 1 else ((s.windowsAt u).fe (n - 16)).gain))])) ∧
  (∀ (s : State) (half : Int) (u : Nat), s.adcRuns = false → 
      answers (.adcSample half u) s fun t =>
        t = s) ∧
  (∀ (s : State) (half : Int) (u : Nat), s.adcRuns = true → (s.windowsAt u).adc.entry = none → 
      answers (.adcSample half u) s fun t =>
        t = s.windowsAt u) ∧
  (∀ (s : State) (input : Fin 32), s.reaches → input.val < 24 → s.on F.ADC_STATUS_HOST_URG_BUSY = false → 
      answers (.hostUrgentRequest input) s fun t =>
        t = { (s.accessed.wr F.ADC_URGENT_INPUT input).wr F.ADC_STATUS_HOST_URG_BUSY 1 with adc := { s.adc with hostInput := input.val, hostServed := s.adcRuns && !s.adc.helmUrgent } }) ∧
  (∀ (s : State) (input : Fin 32), s.reaches → 24 ≤ input.val ∨ s.on F.ADC_STATUS_HOST_URG_BUSY = true → 
      answers (.hostUrgentRequest input) s fun t =>
        rejected s t) ∧
  (∀ (s : State) (half : Int) (u : Nat), s.adcRuns = true → s.adc.helmUrgent = true ∧ s.adc.hostServed = false → 
      answers (.urgentSample half u) s fun t =>
        t.adc.helmUrgent = false ∧ t.on F.ADC_STATUS_HOST_URG_BUSY = s.on F.ADC_STATUS_HOST_URG_BUSY ∧ t.adc.hostServed = s.on F.ADC_STATUS_HOST_URG_BUSY ∧
        t.adc.entry = s.adc.entry ∧ t.adc.round = s.adc.round ∧ t.adc.last = s.adc.last ∧
        (if s.discards (s.rd F.HLM_TILT_CFG_AIN) u = true then t.rd F.ADC_CNT_DISCARD_COUNT = min (s.rd F.ADC_CNT_DISCARD_COUNT + 1) (2 ^ 32 - 1) else sampleOf (s.rd F.HLM_TILT_CFG_AIN) half true u s (t.reg (R.ADC_LAST (s.rd F.HLM_TILT_CFG_AIN))))) ∧
  (∀ (s : State) (half : Int) (u : Nat), s.adcRuns = true → s.adc.helmUrgent = false ∨ s.adc.hostServed = true → s.on F.ADC_STATUS_HOST_URG_BUSY = true → 
      answers (.urgentSample half u) s fun t =>
        t.on F.ADC_STATUS_HOST_URG_BUSY = false ∧ t.on F.ADC_STATUS_HOST_URG_DONE = true ∧ t.adc.hostServed = false ∧ t.adc.helmUrgent = s.adc.helmUrgent ∧
        t.adc.entry = s.adc.entry ∧ t.adc.round = s.adc.round ∧ t.adc.last = s.adc.last ∧
        (s.adc.hostInput < 24 → sampleOf s.adc.hostInput half true u s (t.reg R.ADC_URG_RESULT)) ∧
        (if s.discards s.adc.hostInput u = true then t.rd F.ADC_CNT_DISCARD_COUNT = min (s.rd F.ADC_CNT_DISCARD_COUNT + 1) (2 ^ 32 - 1) else t.reg (R.ADC_LAST s.adc.hostInput) = t.reg R.ADC_URG_RESULT)) ∧
  (∀ (s : State) (half : Int) (u : Nat), s.adcRuns = false ∨ ((s.adc.helmUrgent = false ∨ s.adc.hostServed = true) ∧ s.on F.ADC_STATUS_HOST_URG_BUSY = false) → 
      answers (.urgentSample half u) s fun t =>
        t = s)

/-- Front ends: configuration, excitation, latches. A configuration word reserved for a front end is rejected; any other takes
effect in its bits, shows NO_WINDOW, and takes SWAP away from a mode that has no pair. A new mode or current restarts the settle
timer, the pair's too in 3-wire and 4-wire, and the excitation: continuous at once where PERIOD = 0, a pulse that is on going on
unless the mode is new, which returns a ranging gain to x1; a fixed gain is in force at once. A pulse setting with ON outside 1 to
PERIOD - 1, and a swap interval of 0, are rejected; a changed pulse setting restarts the timer, one unchanged only shows NO_WINDOW.
The settle timer's end clears SETTLING and opens the window of a pulse that is on, unless it has none. A pulse excites, swaps where
swaps are enabled and restarts the timer; its end closes the window; without pulses, or without a mode that excites, neither does
anything. A current swap of continuous excitation toggles SWAP and restarts the timer, where swaps are enabled. An excitation fault
is that of the even front end of a pair; its first pin's entry is recorded with event 466 and latches when more than 8 entries fall
into 60 s; a further pin only joins; it clears when its last pin does, unless it is latched. The releases clear the latch and its
history. Commands shown to complete here: feConfigWrite, settleEnd, excitationPulseOn, excitationPulseOff, currentSwap,
rangeFlapRelease, excFlapRelease, excitationFaultEntry, excitationFaultClear. -/
def Obligations.AnalogFrontEnds : Prop :=
  (∀ (s : State) (i : Fin 8) (w : Word) (u : Nat), s.reaches → s.feCfgBad i w = false → 
      answers (.feConfigWrite i 0 w u) s fun t =>
        t.reg (R.ADC_FE_CFG i) = w &&& 0xB77FFFFF ∧
        t.on (F.ADC_FE_STATUS_NO_WINDOW i) = (s.rd (F.ADC_FE_PULSE_PERIOD i) != 0 && decide (10 * s.rd (F.ADC_FE_PULSE_ON i) ≤ Word.field w 15 0)) ∧
        (if Word.field w 26 24 ≠ s.feMode i ∨ Word.field w 22 16 ≠ s.rd (F.ADC_FE_CFG_CUR i) then (t.fe i).on = (s.on F.ADC_CTRL_EN && excites (Word.field w 26 24) && (s.rd (F.ADC_FE_PULSE_PERIOD i) == 0 || ((s.fe i).on && decide (Word.field w 26 24 = s.feMode i)))) ∧ (s.on F.ADC_CTRL_EN = true → t.on (F.ADC_FE_STATUS_SETTLING i) = true ∧ (paired (Word.field w 26 24) = true ∨ paired (s.feMode (partner i)) = true → t.on (F.ADC_FE_STATUS_SETTLING (partner i)) = true)) ∧ t.on (F.ADC_FE_STATUS_IN_WINDOW i) = (s.on (F.ADC_FE_STATUS_IN_WINDOW i) && (t.fe i).on && s.rd (F.ADC_FE_PULSE_PERIOD i) != 0) else (t.fe i).on = (s.fe i).on ∧ t.on (F.ADC_FE_STATUS_SETTLING i) = s.on (F.ADC_FE_STATUS_SETTLING i) ∧ t.on (F.ADC_FE_STATUS_IN_WINDOW i) = s.on (F.ADC_FE_STATUS_IN_WINDOW i)) ∧
        ((t.fe i).gain = (if w.getLsbD 31 = false then Word.field w 29 28 else if Word.field w 26 24 ≠ s.feMode i then 0 else (s.fe i).gain)) ∧
        t.on (F.ADC_FE_STATUS_SWAP i) = (s.on (F.ADC_FE_STATUS_SWAP i) && paired (Word.field w 26 24))) ∧
  (∀ (s : State) (i : Fin 8) (w : Word) (u : Nat), s.reaches → s.feCfgBad i w = true → 
      answers (.feConfigWrite i 0 w u) s fun t =>
        rejected s t) ∧
  (∀ (s : State) (i : Fin 8) (w : Word) (u : Nat), s.reaches → Word.field w 31 16 = 0 ∨ (Word.field w 15 0 < Word.field w 31 16 ∧ Word.field w 15 0 ≠ 0) → 
      answers (.feConfigWrite i 1 w u) s fun t =>
        t.reg (R.ADC_FE_PULSE i) = w ∧
        t.on (F.ADC_FE_STATUS_NO_WINDOW i) = (Word.field w 31 16 != 0 && decide (10 * Word.field w 15 0 ≤ s.rd (F.ADC_FE_CFG_SETTLE i))) ∧
        (if w = s.reg (R.ADC_FE_PULSE i) then t = { s.accessed with regs := t.regs } ∧ t.on (F.ADC_FE_STATUS_SETTLING i) = s.on (F.ADC_FE_STATUS_SETTLING i) else (t.fe i).on = (s.on F.ADC_CTRL_EN && excites (s.feMode i) && (Word.field w 31 16 == 0 || ((s.fe i).on))) ∧ (s.on F.ADC_CTRL_EN = true → t.on (F.ADC_FE_STATUS_SETTLING i) = true ∧ (paired (s.feMode i) = true ∨ paired (s.feMode (partner i)) = true → t.on (F.ADC_FE_STATUS_SETTLING (partner i)) = true)) ∧ t.on (F.ADC_FE_STATUS_IN_WINDOW i) = (s.on (F.ADC_FE_STATUS_IN_WINDOW i) && (t.fe i).on && Word.field w 31 16 != 0))) ∧
  (∀ (s : State) (i : Fin 8) (w : Word) (u : Nat), s.reaches → Word.field w 31 16 ≠ 0 ∧ (Word.field w 31 16 ≤ Word.field w 15 0 ∨ Word.field w 15 0 = 0) → 
      answers (.feConfigWrite i 1 w u) s fun t =>
        rejected s t) ∧
  (∀ (s : State) (i : Fin 8) (w : Word) (u : Nat), s.reaches → Word.field w 7 0 ≠ 0 → 
      answers (.feConfigWrite i 2 w u) s fun t =>
        t.reg (R.ADC_FE_SWAP i) = w &&& 0x1FF ∧ t = { s.accessed with regs := t.regs } ∧
        t.on (F.ADC_FE_STATUS_SWAP i) = (s.on (F.ADC_FE_STATUS_SWAP i) && w.getLsbD 8 && paired (s.feMode i))) ∧
  (∀ (s : State) (i : Fin 8) (w : Word) (u : Nat), s.reaches → Word.field w 7 0 = 0 → 
      answers (.feConfigWrite i 2 w u) s fun t =>
        rejected s t) ∧
  (∀ (s : State) (i : Fin 8), s.on (F.ADC_FE_STATUS_SETTLING i) = true → 
      answers (.settleEnd i) s fun t =>
        t.on (F.ADC_FE_STATUS_SETTLING i) = false ∧
        t.on (F.ADC_FE_STATUS_IN_WINDOW i) = (s.on (F.ADC_FE_STATUS_IN_WINDOW i) || (s.rd (F.ADC_FE_PULSE_PERIOD i) != 0 && (s.fe i).on && !s.on (F.ADC_FE_STATUS_NO_WINDOW i)))) ∧
  (∀ (s : State) (i : Fin 8), s.on (F.ADC_FE_STATUS_SETTLING i) = false → 
      answers (.settleEnd i) s fun t =>
        t = s) ∧
  (∀ (s : State) (i : Fin 8), s.adcRuns = true ∧ excites (s.feMode i) = true → s.rd (F.ADC_FE_PULSE_PERIOD i) ≠ 0 → 
      answers (.excitationPulseOn i) s fun t =>
        (t.fe i = { s.fe i with on := true, pulse := (s.fe i).pulse + 1, onAt := (s.fe i).modeAt.map fun u => u + 10000000 * s.rd (F.ADC_FE_PULSE_PERIOD i) * (s.fe i).pulse } ∧ t.on (F.ADC_FE_STATUS_IN_WINDOW i) = false) ∧
        ((s.on F.ADC_CTRL_EN = true → t.on (F.ADC_FE_STATUS_SETTLING i) = true ∧ (paired (s.feMode i) = true ∨ paired (s.feMode (partner i)) = true → t.on (F.ADC_FE_STATUS_SETTLING (partner i)) = true))) ∧
        t.on (F.ADC_FE_STATUS_SWAP i) = (s.on (F.ADC_FE_STATUS_SWAP i) != (s.on (F.ADC_FE_SWAP_SWAP_EN i) && paired (s.feMode i)))) ∧
  (∀ (s : State) (i : Fin 8), s.adcRuns = false ∨ excites (s.feMode i) = false → s.rd (F.ADC_FE_PULSE_PERIOD i) ≠ 0 → 
      answers (.excitationPulseOn i) s fun t =>
        t = s.onFe i fun f => { f with pulse := f.pulse + 1, onAt := f.modeAt.map fun u => u + 10000000 * s.rd (F.ADC_FE_PULSE_PERIOD i) * f.pulse }) ∧
  (∀ (s : State) (i : Fin 8), s.rd (F.ADC_FE_PULSE_PERIOD i) = 0 → 
      answers (.excitationPulseOn i) s fun t =>
        t = s) ∧
  (∀ (s : State) (i : Fin 8), s.rd (F.ADC_FE_PULSE_PERIOD i) ≠ 0 → 
      answers (.excitationPulseOff i) s fun t =>
        t.fe i = { s.fe i with on := false } ∧ t.on (F.ADC_FE_STATUS_IN_WINDOW i) = false) ∧
  (∀ (s : State) (i : Fin 8), s.rd (F.ADC_FE_PULSE_PERIOD i) = 0 → 
      answers (.excitationPulseOff i) s fun t =>
        t = s) ∧
  (∀ (s : State) (i : Fin 8), s.adcRuns = true ∧ s.on (F.ADC_FE_SWAP_SWAP_EN i) = true ∧ paired (s.feMode i) = true → s.rd (F.ADC_FE_PULSE_PERIOD i) = 0 → 
      answers (.currentSwap i) s fun t =>
        t.on (F.ADC_FE_STATUS_SWAP i) = !s.on (F.ADC_FE_STATUS_SWAP i) ∧
        ((s.on F.ADC_CTRL_EN = true → t.on (F.ADC_FE_STATUS_SETTLING i) = true ∧ (paired (s.feMode i) = true ∨ paired (s.feMode (partner i)) = true → t.on (F.ADC_FE_STATUS_SETTLING (partner i)) = true))) ∧
        t = { s with regs := t.regs }) ∧
  (∀ (s : State) (i : Fin 8), s.adcRuns = false ∨ s.on (F.ADC_FE_SWAP_SWAP_EN i) = false ∨ paired (s.feMode i) = false ∨ s.rd (F.ADC_FE_PULSE_PERIOD i) ≠ 0 → 
      answers (.currentSwap i) s fun t =>
        t = s) ∧
  (∀ (s : State) (i : Fin 8), s.reaches → 
      (answers (.rangeFlapRelease i) s fun t =>
        t.on (F.ADC_FE_STATUS_RANGE_FLAP i) = false ∧ (t.rd F.ADC_FLAP_STATUS_FLAP).testBit i = false ∧ t.fe i = { s.fe i with changes := [], down := 0 }) ∧
      (answers (.excFlapRelease i) s fun t =>
        t.on (F.ADC_FE_STATUS_EXC_FLAP i) = false ∧ t.fe i = { s.fe i with excHist := [] })) ∧
  (∀ (s : State) (i : Fin 8) (u : Nat) (j : Nat), s.adcRuns = true → s.excOwner i = j → excites (s.feMode j) = true → s.on (F.ADC_FE_STATUS_EXC_FAULT j) = false → 
      answers (.excitationFaultEntry i u) s fun t =>
        (t.on (F.ADC_FE_STATUS_EXC_FAULT j) = true ∧ (t.rd F.ADC_EXC_STATUS_FAULT).testBit j = true ∧ (s.mode ≠ mRESET → 466 ∈ t.raised)) ∧
        (t.fe j = { s.fe j with excPins := (s.fe j).excPins ||| (if j = i then 1 else 2), excHist := ((s.fe j).excHist ++ [u]).filter fun v => decide (u < v + 60 * 10 ^ 12) }) ∧
        t.on (F.ADC_FE_STATUS_EXC_FLAP j) = (s.on (F.ADC_FE_STATUS_EXC_FLAP j) || decide (8 < (t.fe j).excHist.length))) ∧
  (∀ (s : State) (i : Fin 8) (u : Nat) (j : Nat), s.adcRuns = true → s.excOwner i = j → excites (s.feMode j) = true → s.on (F.ADC_FE_STATUS_EXC_FAULT j) = true → 
      answers (.excitationFaultEntry i u) s fun t =>
        t = s.onFe j fun f => { f with excPins := f.excPins ||| (if j = i then 1 else 2) }) ∧
  (∀ (s : State) (i : Fin 8) (u : Nat), s.adcRuns = false ∨ excites (s.feMode (s.excOwner i)) = false → 
      answers (.excitationFaultEntry i u) s fun t =>
        t = s) ∧
  (∀ (s : State) (i : Fin 8) (j : Nat), j = i.val ∨ (i.val % 2 = 1 ∧ j = i.val - 1) → s.on (F.ADC_FE_STATUS_EXC_FLAP j) = false → 
      answers (.excitationFaultClear i) s fun t =>
        ((t.fe j).excPins = withBit (s.fe j).excPins (if j = i.val then 0 else 1) false) ∧
        (if (t.fe j).excPins = 0 then t.on (F.ADC_FE_STATUS_EXC_FAULT j) = false ∧ (t.rd F.ADC_EXC_STATUS_FAULT).testBit j = false else t.on (F.ADC_FE_STATUS_EXC_FAULT j) = s.on (F.ADC_FE_STATUS_EXC_FAULT j))) ∧
  (∀ (s : State) (i : Fin 8), (s.on (F.ADC_FE_STATUS_EXC_FLAP i) = true ∧ (i.val % 2 = 1 → s.on (F.ADC_FE_STATUS_EXC_FLAP (i - 1)) = true)) → 
      answers (.excitationFaultClear i) s fun t =>
        t = s)

/-- Calibration items and plans. The code-density item writes the table of every channel whose figure is not negative, commits when
any passes, and gives CAL_RESULT; a table run within a plan gives CAL_RESULT of item 2 and ends that item; range zero, its point
cycles run, computes the new offset and calibration temperature of every passing channel and starts the sextant set whose end
applies them, or ends rejected; the survey, every SPAD probed, masks and records the hottest SPADs up to MAX_ADD per channel, or is
rejected whole. Out of their turn these commands do nothing. An item that ends gives way to the next of the plan. A plan whose items
are done, or that a trip, an orderly stop or thermal HOT cuts, restores its registers, requests a journal save and raises 480 unless
it was cut with nothing accepted, and returns from CALIBRATE to the mode it came from, where a rerun that waits may start; a plan of
the start sequence sets CD_DUE when cut and clears it when not. CLR_FIELD in STANDBY drops the additions and reloads the fused map
into both masks, and does nothing elsewhere. A rerun due starts plan 4 in SCAN with AUTO_RECAL, and waits otherwise. Commands shown
to complete here: codeDensityItem, cdtRunComplete, rangeZeroItem, spadSurvey, planEnd, clrField, rerunDue. -/
def Obligations.CalibrationItems : Prop :=
  (∀ (s : State), s.itemIs 1 = true → 
      answers .codeDensityItem s fun t =>
        (∀ c : Fin 1152, ∀ p : Fin 16, t.lutShadow c p = if 0 ≤ s.cdFigure c then s.cdEntry c p % 2 ^ 8 else s.lutShadow c p) ∧
        (t.rdS F.CAL_RESULT_QUALITY = max (-128) (min 100 (((List.range 1152).map s.cdFigure).foldl min 100)) ∧ t.rd F.CAL_RESULT_REJECTS = min 1023 (((List.range 1152).map s.cdFigure).filter fun q => decide (q < 0)).length) ∧
        t.rd F.CAL_RESULT_ITEM = 1 ∧
        t.cal.items = s.cal.items.drop 1 ∧ t.cal.rzSet = false ∧
        t.rd F.CAL_STATUS_ITEM = (s.cal.items.drop 1).headD 0 % 8 ∧
        (if ((List.range 1152).map s.cdFigure).any (fun q => decide (0 ≤ q)) = true then t.on F.TDC_STATUS_COMMIT_PENDING = true ∧ t.cal.accepted = true ∧ t.rd F.CAL_LAST_CD_AGE = 0 ∧ t.rdS F.CAL_LAST_CD_TEMP = s.tRz else t.on F.TDC_STATUS_COMMIT_PENDING = s.on F.TDC_STATUS_COMMIT_PENDING ∧ t.cal.accepted = s.cal.accepted ∧ t.reg R.CAL_LAST_CD = s.reg R.CAL_LAST_CD)) ∧
  (∀ (s : State) (a b : List Nat), s.on F.SXT_STATUS_CDT_BUSY = true → s.itemIs 2 = true → 
      answers (.cdtRunComplete a b) s fun t =>
        ((s.mode ≠ mRESET → 459 ∈ t.raised)) ∧
        (leastHits a b < 256 → t.sxt = s.sxt ∧ 458 ∈ t.raised ∧ t.cal.accepted = s.cal.accepted ∧ t.rd F.CAL_RESULT_REJECTS = 1) ∧
        (256 ≤ leastHits a b → (∀ f : Fin 128, t.cdtStart f = cdtOf a f ∧ t.cdtStop f = cdtOf b f) ∧ t.cal.accepted = true ∧ t.rd F.CAL_RESULT_REJECTS = 0) ∧
        t.rd F.CAL_RESULT_ITEM = 2 ∧ t.rdS F.CAL_RESULT_QUALITY = max (-128) (min 100 (figLower 256 (leastHits a b))) ∧
        t.cal.items = s.cal.items.drop 1 ∧ t.cal.rzSet = false ∧
        t.rd F.CAL_STATUS_ITEM = (s.cal.items.drop 1).headD 0 % 8) ∧
  (∀ (s : State), s.itemIs 3 = true → s.cal.rzSet = false → 16 * s.rd F.CAL_RZ_CFG_CYCLES ≤ s.cal.rzCycles → ((((List.range 1152).any fun c => (s.rzChannel c).any fun x => decide (0 ≤ x.1)) = true)) → 
      answers .rangeZeroItem s fun t =>
        t.cal.rzSet = true ∧ t.cal.items = s.cal.items ∧ t.cal.bofs = s.cal.bofs ∧ t.cal.dL = s.cal.dL ∧
        ((t.cal.rzNew.any fun x => (List.range 1152).all fun c => Tab.get (fun _ => 0) x.1 c == (match s.rzChannel c with | some (q, v) => if 0 ≤ q then v else Tab.get (fun _ => 0) s.cal.bofs c | none => Tab.get (fun _ => 0) s.cal.bofs c) && Tab.get (fun _ => 250) x.2 c == (if (List.range 6).any (fun l => (s.rzChannel (c / 6 * 6 + l)).any fun x => decide (0 ≤ x.1)) then s.tRz else Tab.get (fun _ => 250) s.cal.tCal c)) = true) ∧
        (t.rd F.SXT_CFG_START_SRC = 1 ∧ t.rd F.SXT_CFG_STOP_SRC = 1 ∧ t.rd F.SXT_CFG_GATE_SRC = 2 ∧ (s.sxt.closing = false → t.on F.SXT_CTRL_EN = true ∧ t.on F.SXT_STATUS_ARMED = true)) ∧
        t.rd F.CAL_RESULT_ITEM = 3) ∧
  (∀ (s : State), s.itemIs 3 = true → s.cal.rzSet = false → 16 * s.rd F.CAL_RZ_CFG_CYCLES ≤ s.cal.rzCycles → ((((List.range 1152).any fun c => (s.rzChannel c).any fun x => decide (0 ≤ x.1)) = false)) → 
      answers .rangeZeroItem s fun t =>
        t.cal.bofs = s.cal.bofs ∧ t.cal.rzNew = s.cal.rzNew ∧ t.cal.accepted = s.cal.accepted ∧
        t.cal.items = s.cal.items.drop 1 ∧ t.cal.rzSet = false ∧
        t.rd F.CAL_STATUS_ITEM = (s.cal.items.drop 1).headD 0 % 8 ∧
        (t.rd F.CAL_RESULT_ITEM = 3 ∧ t.rd F.CAL_RESULT_REJECTS = 1023 ∧ (s.mode ≠ mRESET → 481 ∈ t.raised))) ∧
  (∀ (s : State), s.itemIs 4 = true → s.cal.surveyAt = some 18432 → 
      answers .spadSurvey s fun t =>
        (if figUpper (s.rd F.CAL_SURVEY_CFG_DARK_MAX) (100 * medianTwice s.cal.probes) (2 * s.rd F.DET_PROBE_CFG_GATE) < 0 then (∀ c : Fin 1152, t.maskShadow c = s.maskShadow c) ∧ t.cal.field = s.cal.field ∧ t.rd F.CAL_RESULT_REJECTS = 1 ∧ t.cal.accepted = s.cal.accepted else (∀ c : Fin 1152, t.maskShadow c = s.maskShadow c - (((s.hotSpads c).take (s.rd F.CAL_SURVEY_CFG_MAX_ADD)).map (2 ^ ·)).sum ∧ Tab.get (fun _ => 0) t.cal.field c = Tab.get (fun _ => 0) s.cal.field c ||| (((s.hotSpads c).take (s.rd F.CAL_SURVEY_CFG_MAX_ADD)).map (2 ^ ·)).sum) ∧ t.on F.DET_STATUS_COMMIT_PENDING = true ∧ t.cal.accepted = true) ∧
        t.rd F.CAL_RESULT_ITEM = 4 ∧
        t.cal.items = s.cal.items.drop 1 ∧ t.cal.rzSet = false ∧
        t.rd F.CAL_STATUS_ITEM = (s.cal.items.drop 1).headD 0 % 8 ∧
        (481 ∈ t.raised ∨ t.rd F.CAL_RESULT_REJECTS = 0)) ∧
  (∀ (s : State), s.itemIs 1 = false → 
      answers .codeDensityItem s fun t =>
        t = s) ∧
  (∀ (s : State), s.itemIs 3 = false ∨ s.cal.rzSet = true ∨ s.cal.rzCycles < 16 * s.rd F.CAL_RZ_CFG_CYCLES → 
      answers .rangeZeroItem s fun t =>
        t = s) ∧
  (∀ (s : State), s.itemIs 4 = false ∨ s.cal.surveyAt ≠ some 18432 → 
      answers .spadSurvey s fun t =>
        t = s) ∧
  (∀ (s : State) (u : Nat), s.on F.CAL_STATUS_BUSY = true ∧ ¬(s.cal.items ≠ [] ∧ s.mode = mCALIBRATE ∧ s.on F.SYS_MODE_STOPPING = false ∧ (s.rd F.THM_STATUS_IND).testBit 1 = false) → ¬(s.on F.CAL_STATUS_RERUN_PENDING = true ∧ s.rd F.CAL_STATUS_PLAN ≠ 4 ∧ s.on F.SYS_MODE_CFG_AUTO_RECAL = true) ∨ ¬(s.mode = mCALIBRATE ∧ s.on F.SYS_MODE_STOPPING = false ∧ s.sys.calFrom = mSCAN) → 
      answers (.planEnd u) s fun t =>
        t.on F.CAL_STATUS_BUSY = false ∧ t.rd F.CAL_STATUS_ITEM = 0 ∧ t.cal.items = [] ∧ t.cal.saved = [] ∧ t.cal.accepted = false ∧ t.cal.rzNew = none ∧ t.cal.surveyAt = none ∧
        (((planRegs.take 5).all fun a => (s.cal.saved.find? fun e => e.1 == a).all fun e => t.reg a == e.2) = true) ∧
        (s.cal.items = [] ∨ s.cal.accepted = true → (s.mode ≠ mRESET → 480 ∈ t.raised) ∧ (t.on F.CAL_STATUS_JRN_BUSY = true ∨ t.on F.CAL_JRN_STATUS_PENDING = true)) ∧
        (s.rd F.CAL_STATUS_PLAN = 4 → t.on F.CAL_STATUS_RERUN_PENDING = false) ∧
        (s.cal.internal = true → t.on F.BOOT_STATUS_CD_DUE = !s.cal.items.isEmpty)) ∧
  (∀ (s : State) (u : Nat), s.on F.CAL_STATUS_BUSY = true ∧ ¬(s.cal.items ≠ [] ∧ s.mode = mCALIBRATE ∧ s.on F.SYS_MODE_STOPPING = false ∧ (s.rd F.THM_STATUS_IND).testBit 1 = false) → s.mode = mCALIBRATE ∧ s.on F.SYS_MODE_STOPPING = false → s.sys.calFrom = mSTANDBY → s.cal.internal = false ∨ s.boot.starting = false → 
      answers (.planEnd u) s fun t =>
        t.mode = mSTANDBY ∧ t.rd F.SYS_MODE_PREV_MODE = mCALIBRATE ∧ t.rd F.SYS_MODE_CAUSE = 0x0F ∧ 0 ∈ t.raised ∧
        (((planRegs.take 6).all fun a => (s.cal.saved.find? fun e => e.1 == a).all fun e => t.reg a == e.2) = true) ∧
        (s.cal.items ≠ [] ∧ s.cal.accepted = false → 480 ∈ t.raised → 480 ∈ s.raised)) ∧
  (∀ (s : State) (u : Nat), s.on F.CAL_STATUS_BUSY = true ∧ ¬(s.cal.items ≠ [] ∧ s.mode = mCALIBRATE ∧ s.on F.SYS_MODE_STOPPING = false ∧ (s.rd F.THM_STATUS_IND).testBit 1 = false) → s.mode = mCALIBRATE ∧ s.on F.SYS_MODE_STOPPING = false → s.sys.calFrom = mSCAN → s.cal.internal = false ∨ s.boot.starting = false → 
      answers (.planEnd u) s fun t =>
        (t.mode = if (s.goMode mSCAN 0x0F).derated = true then mDERATED else if s.on F.CAL_STATUS_RERUN_PENDING = true ∧ s.rd F.CAL_STATUS_PLAN ≠ 4 ∧ s.on F.SYS_MODE_CFG_AUTO_RECAL = true then mCALIBRATE else mSCAN) ∧
        (s.on F.CAL_STATUS_RERUN_PENDING = true ∧ s.rd F.CAL_STATUS_PLAN ≠ 4 ∧ s.on F.SYS_MODE_CFG_AUTO_RECAL = true ∧ (s.goMode mSCAN 0x0F).derated = false → t.on F.CAL_STATUS_BUSY = true ∧ t.rd F.CAL_STATUS_PLAN = 4 ∧ t.cal.items = s.planItems 4 ∧ t.sys.calFrom = mSCAN) ∧
        (¬(s.on F.CAL_STATUS_RERUN_PENDING = true ∧ s.rd F.CAL_STATUS_PLAN ≠ 4 ∧ s.on F.SYS_MODE_CFG_AUTO_RECAL = true) ∨ (s.goMode mSCAN 0x0F).derated = true → t.on F.CAL_STATUS_BUSY = false ∧ t.cal.items = []) ∧
        (s.cal.items = [] ∨ s.cal.accepted = true → 480 ∈ t.raised)) ∧
  (∀ (s : State) (u : Nat), s.on F.CAL_STATUS_BUSY = true ∧ ¬(s.cal.items ≠ [] ∧ s.mode = mCALIBRATE ∧ s.on F.SYS_MODE_STOPPING = false ∧ (s.rd F.THM_STATUS_IND).testBit 1 = false) → ¬(s.mode = mCALIBRATE ∧ s.on F.SYS_MODE_STOPPING = false) → s.cal.internal = false ∨ s.boot.starting = false → 
      answers (.planEnd u) s fun t =>
        t.mode = s.mode ∧
        (((planRegs.take 6).all fun a => (s.cal.saved.find? fun e => e.1 == a).all fun e => t.reg a == e.2) = true) ∧
        (s.cal.items ≠ [] ∧ s.cal.accepted = false → t.raised = s.raised)) ∧
  (∀ (s : State) (u : Nat), ¬(s.on F.CAL_STATUS_BUSY = true ∧ ¬(s.cal.items ≠ [] ∧ s.mode = mCALIBRATE ∧ s.on F.SYS_MODE_STOPPING = false ∧ (s.rd F.THM_STATUS_IND).testBit 1 = false)) → 
      answers (.planEnd u) s fun t =>
        t = s) ∧
  (∀ (s : State), s.mode = mSTANDBY → 
      answers .clrField s fun t =>
        t.cal = { s.cal with field := [] } ∧
        (∀ c : Fin 1152, t.maskShadow c = s.fusedMask c ∧ t.maskAct c = s.fusedMask c ∧ t.rd (F.DET_CH_CFG_SPAD_CNT c) = pop16 (s.fusedMask c))) ∧
  (∀ (s : State), s.mode ≠ mSTANDBY → s.mode ≠ mRESET → 
      answers .clrField s fun t =>
        t = s.accessed) ∧
  (∀ (s : State), s.rd F.CAL_CFG_RECAL_DT < (s.tRz - s.rdS F.CAL_LAST_RZ_TEMP).natAbs → s.tilHeld = false → s.on F.CAL_STATUS_RERUN_PENDING = false ∨ s.cal.rerunTemp = false → 
      answers .rerunDue s fun t =>
        482 ∈ t.raised ∧
        (if s.on F.SYS_MODE_CFG_AUTO_RECAL && s.mode == mSCAN && !s.on F.SYS_MODE_STOPPING then t.mode = mCALIBRATE ∧ t.on F.CAL_STATUS_BUSY = true ∧ t.rd F.CAL_STATUS_PLAN = 4 ∧ t.cal.items = s.planItems 4 ∧ t.sys.calFrom = mSCAN else t = (State.wr { s with cal := { s.cal with rerunTemp := true } } F.CAL_STATUS_RERUN_PENDING 1).raise 482)) ∧
  (∀ (s : State), (s.tRz - s.rdS F.CAL_LAST_RZ_TEMP).natAbs ≤ s.rd F.CAL_CFG_RECAL_DT ∨ s.tilHeld = true ∨ (s.on F.CAL_STATUS_RERUN_PENDING = true ∧ s.cal.rerunTemp = true) → 
      answers .rerunDue s fun t =>
        t = s)

/-- Drift, legacy sets, fuse burns, the journal. A drift condition is recorded with event 483 and a rerun, latches when more than 8
entries fall into 60 s, and clears below 3/4 of DRIFT_MAX while not latched. A legacy commit takes a window that passes its checks,
and otherwise gives CAL_RESULT of item 5 with -1. The interpolator writes every channel's offset, its skew when it has been off for
ten evaluations, and the pages when it begins or a lane has moved, at most every ten evaluations; without 16 sets it is off. A
permitted fuse burn starts with the row and data it was given and any other is rejected; its end tells the row that took the data,
none left, or a cut by PF_N, and leaves the rows that read back wrong torn. A journal save erases the slot that does not hold the
newest record, waits while PF_N is low, and commits or fails; a RESET command that waited for the flash is then carried out. Out of
their turn these commands do nothing. Commands shown to complete here: rzDriftEntry, rzDriftClear, rzFlapRelease, legacyCommit,
legacyInterpolation, fuseBurn, fuseBurnComplete, journalSave, journalSaveComplete. -/
def Obligations.CalibrationStores : Prop :=
  (∀ (s : State) (u : Nat), s.cal.drift = false → s.tilHeld = false → s.rd F.CAL_RZ_DRIFT_DRIFT_MAX < s.cal.dL.natAbs → 
      answers (.rzDriftEntry u) s fun t =>
        (t.cal = { s.cal with drift := true, rerunTemp := s.cal.rerunTemp && s.on F.CAL_STATUS_RERUN_PENDING, driftHist := (s.cal.driftHist ++ [u]).filter fun v => decide (u < v + 60 * 10 ^ 12) }) ∧
        483 ∈ t.raised ∧ t.on F.CAL_STATUS_RERUN_PENDING = true ∧
        t.on F.CAL_STATUS_RZ_FLAP = (s.on F.CAL_STATUS_RZ_FLAP || decide (8 < t.cal.driftHist.length))) ∧
  (∀ (s : State) (u : Nat), s.cal.drift = true ∨ s.tilHeld = true ∨ s.cal.dL.natAbs ≤ s.rd F.CAL_RZ_DRIFT_DRIFT_MAX → 
      answers (.rzDriftEntry u) s fun t =>
        t = s) ∧
  (∀ (s : State), 4 * s.cal.dL.natAbs < 3 * s.rd F.CAL_RZ_DRIFT_DRIFT_MAX → s.on F.CAL_STATUS_RZ_FLAP = false → 
      answers .rzDriftClear s fun t =>
        t = { s with cal := { s.cal with drift := false } }) ∧
  (∀ (s : State), 3 * s.rd F.CAL_RZ_DRIFT_DRIFT_MAX ≤ 4 * s.cal.dL.natAbs ∨ s.on F.CAL_STATUS_RZ_FLAP = true → 
      answers .rzDriftClear s fun t =>
        t = s) ∧
  (∀ (s : State), s.mode ≠ mRESET → 
      answers .rzFlapRelease s fun t =>
        t.on F.CAL_STATUS_RZ_FLAP = false ∧ t.cal = { s.cal with driftHist := [] }) ∧
  (∀ (s : State) (k q : Fin 4) (r : Fin 288), s.mode ≠ mRESET → s.rd F.CAL_LEG_SEL_TEMP = k ∧ s.rd F.CAL_LEG_SEL_QUARTER = q → 
      answers .legacyCommit s fun t =>
        if s.legWindowOk && s.legRises k q (signed 16 (s.legWord 1).toNat) then (t.rd F.CAL_LEG_STATUS_LOADED).testBit (4 * k + q) = true ∧ t.rdS (F.CAL_LEG_TEMP_TEMP k) = (signed 16 (s.legWord 1).toNat) ∧ Tab.get (fun _ => 0) t.cal.legTemp (4 * k + q) = (signed 16 (s.legWord 1).toNat) ∧ Tab.get (fun _ => 0) t.cal.legSkew (1152 * k + 288 * q + r) = signed 8 (s.legWord (4 + 2 * r)).toNat ∧ Tab.get (fun _ => 0) t.cal.legBofs (1152 * k + 288 * q + r) = (s.legWord (5 + 2 * r)).toInt else t.cal = s.cal ∧ t.rd F.CAL_LEG_STATUS_LOADED = s.rd F.CAL_LEG_STATUS_LOADED ∧ t.rd F.CAL_RESULT_ITEM = 5 ∧ t.rdS F.CAL_RESULT_QUALITY = -1 ∧ t.rd F.CAL_RESULT_REJECTS = 1 ∧ 481 ∈ t.raised) ∧
  (∀ (s : State), s.on F.CAL_CFG_LEG_EN = true ∧ s.rd F.CAL_LEG_STATUS_LOADED = 0xFFFF ∧ s.tilHeld = false → 
      answers .legacyInterpolation s fun t =>
        t.on F.CAL_STATUS_LEG_ACTIVE = true ∧
        (∀ c : Fin 1152, if 10 ≤ (if 3 * (s.legAt s.cal.legSkew c s.tRz).2 < 4 * ((s.legAt s.cal.legSkew c s.tRz).1 - s.skewAct c * (s.legAt s.cal.legSkew c s.tRz).2).natAbs then Tab.get (fun _ => 0) s.cal.legRun c + 1 else 0) then Tab.get (fun _ => 0) t.cal.legRun c = 0 ∧ t.rdS (F.TDC_CH_CFG_SKEW c) = signed 8 (unsigned 8 (divRound (s.legAt s.cal.legSkew c s.tRz).1 (s.legAt s.cal.legSkew c s.tRz).2)) ∧ t.on F.TDC_STATUS_COMMIT_PENDING = true else Tab.get (fun _ => 0) t.cal.legRun c = (if 3 * (s.legAt s.cal.legSkew c s.tRz).2 < 4 * ((s.legAt s.cal.legSkew c s.tRz).1 - s.skewAct c * (s.legAt s.cal.legSkew c s.tRz).2).natAbs then Tab.get (fun _ => 0) s.cal.legRun c + 1 else 0) ∧ t.rdS (F.TDC_CH_CFG_SKEW c) = s.rdS (F.TDC_CH_CFG_SKEW c)) ∧
        (t.cal.legWait = if (s.on F.CAL_STATUS_LEG_ACTIVE = false ∨ ((List.range 1152).any fun c => decide (16 ≤ (t.pageBofs c - Tab.get (fun _ => 0) s.cal.legWritten c).natAbs)) = true) ∧ 10 ≤ (if s.on F.CAL_STATUS_LEG_ACTIVE = false then 10 else s.cal.legWait + 1) then 0 else (if s.on F.CAL_STATUS_LEG_ACTIVE = false then 10 else s.cal.legWait + 1)) ∧
        (∀ c : Fin 1152, t.rdS (F.CAL_LEG_BOFS_BOFS c) = signed 32 (unsigned 32 (divRound (s.legAt s.cal.legBofs c s.tRz).1 (s.legAt s.cal.legBofs c s.tRz).2)))) ∧
  (∀ (s : State), s.on F.CAL_CFG_LEG_EN = false ∨ s.rd F.CAL_LEG_STATUS_LOADED ≠ 0xFFFF ∨ s.tilHeld = true → 
      answers .legacyInterpolation s fun t =>
        t = s.put F.CAL_STATUS_LEG_ACTIVE false) ∧
  (∀ (s : State) (key : Fin 65536), s.mode ≠ mRESET → (key.val = 0xF05E ∧ s.mode = mSTANDBY ∧ s.sys.pfLow = false ∧ s.cal.burn = none ∧ 3124 ≤ s.rd F.CAL_FUSE_ROW_ROW ∧ s.rd F.CAL_FUSE_ROW_ROW ≤ 3199 ∧ s.fuseGet (s.rd F.CAL_FUSE_ROW_ROW) = none ∧ (3156 < s.rd F.CAL_FUSE_ROW_ROW ∨ s.on F.HDG_STATUS_SEAL_LOCK = false)) → 
      answers (.fuseBurn key) s fun t =>
        t.cal = { s.cal with burn := some (s.rd F.CAL_FUSE_ROW_ROW, 2 ^ 32 * s.rd F.CAL_FUSE_DATA_HI_DATA + s.rd F.CAL_FUSE_DATA_LO_DATA), burnCut := false } ∧ t.on F.CAL_FUSE_STATUS_BUSY = true) ∧
  (∀ (s : State) (key : Fin 65536), s.mode ≠ mRESET → ¬ (key.val = 0xF05E ∧ s.mode = mSTANDBY ∧ s.sys.pfLow = false ∧ s.cal.burn = none ∧ 3124 ≤ s.rd F.CAL_FUSE_ROW_ROW ∧ s.rd F.CAL_FUSE_ROW_ROW ≤ 3199 ∧ s.fuseGet (s.rd F.CAL_FUSE_ROW_ROW) = none ∧ (3156 < s.rd F.CAL_FUSE_ROW_ROW ∨ s.on F.HDG_STATUS_SEAL_LOCK = false)) → 
      answers (.fuseBurn key) s fun t =>
        rejected s t) ∧
  (∀ (s : State) (nb r data : Nat), s.cal.burn = some (r, data) → s.cal.burnCut = true → 
      answers (.fuseBurnComplete nb) s fun t =>
        t.cal.burn = none ∧ t.cal.burnCut = false ∧ t.on F.CAL_FUSE_STATUS_BUSY = false ∧
        (t.rd F.CAL_FUSE_STATUS_RESULT = 3 ∧ (s.mode ≠ mRESET → 485 ∈ t.raised)) ∧
        ((((if fuseTorn (s.fuseRow r) then [] else [r]) ++ s.freeSpares).take (nb + 1)).all (fun x => fuseTorn (t.fuseRow x)) = true)) ∧
  (∀ (s : State) (nb r data : Nat), s.cal.burn = some (r, data) → s.cal.burnCut = false → (((if fuseTorn (s.fuseRow r) then [] else [r]) ++ s.freeSpares).length ≤ nb) → 
      answers (.fuseBurnComplete nb) s fun t =>
        t.cal.burn = none ∧ t.cal.burnCut = false ∧ t.on F.CAL_FUSE_STATUS_BUSY = false ∧
        (t.rd F.CAL_FUSE_STATUS_RESULT = 2 ∧ (s.mode ≠ mRESET → 485 ∈ t.raised)) ∧
        ((((if fuseTorn (s.fuseRow r) then [] else [r]) ++ s.freeSpares).take nb).all (fun x => fuseTorn (t.fuseRow x)) = true)) ∧
  (∀ (s : State) (nb r data q : Nat), s.cal.burn = some (r, data) → s.cal.burnCut = false → (((if fuseTorn (s.fuseRow r) then [] else [r]) ++ s.freeSpares)[nb]? = some q) → r < 4088 → 
      answers (.fuseBurnComplete nb) s fun t =>
        t.cal.burn = none ∧ t.cal.burnCut = false ∧ t.on F.CAL_FUSE_STATUS_BUSY = false ∧
        (t.rd F.CAL_FUSE_STATUS_RESULT = (if q = r then 0 else 1) ∧ (s.mode ≠ mRESET → 484 ∈ t.raised)) ∧
        ((((if fuseTorn (s.fuseRow r) then [] else [r]) ++ s.freeSpares).take nb).all (fun x => fuseTorn (t.fuseRow x)) = true) ∧
        (fuseValid (t.fuseRow q) = true ∧ fuseData (t.fuseRow q) = data % 2 ^ 40 ∧ fuseTag (t.fuseRow q) = if q = r then 0 else r + 1)) ∧
  (∀ (s : State) (nb : Nat), s.cal.burn = none → 
      answers (.fuseBurnComplete nb) s fun t =>
        t = s) ∧
  (∀ (s : State), s.mode ≠ mRESET → s.on F.CAL_STATUS_JRN_BUSY = false → s.sys.pfLow = false → 
      answers .journalSave s fun t =>
        t.on F.CAL_STATUS_JRN_BUSY = true ∧ t.on F.CAL_JRN_STATUS_PENDING = false ∧
        t.jrnOf s.jrnTarget = none ∧ t.jrnOf (1 - s.jrnTarget) = s.jrnOf (1 - s.jrnTarget)) ∧
  (∀ (s : State), s.mode ≠ mRESET → s.on F.CAL_STATUS_JRN_BUSY = false → s.sys.pfLow = true → 
      answers .journalSave s fun t =>
        t = s.accessed.wr F.CAL_JRN_STATUS_PENDING 1) ∧
  (∀ (s : State), s.mode ≠ mRESET → s.on F.CAL_STATUS_JRN_BUSY = true → 
      answers .journalSave s fun t =>
        t = s.accessed) ∧
  (∀ (s : State) (ok : Bool), s.on F.CAL_STATUS_JRN_BUSY = true → s.boot.heldReset = none ∨ s.boot.saving.isSome = true ∨ s.boot.writing.isSome = true → 
      answers (.journalSaveComplete ok) s fun t =>
        t.on F.CAL_STATUS_JRN_BUSY = false ∧ t.mode = s.mode ∧
        (if ok then t.rd F.CAL_JRN_STATUS_SEQ = (s.jrnSeq + 1) % 2 ^ 24 ∧ t.rd F.CAL_JRN_STATUS_SLOT = s.jrnTarget % 2 ∧ t.on F.CAL_JRN_STATUS_VALID = true ∧ t.on F.CAL_JRN_STATUS_FAIL = false ∧ (s.mode ≠ mRESET → 486 ∈ t.raised) ∧ t.jrnOf s.jrnTarget = some (s.jrnRec ((s.jrnSeq + 1) % 2 ^ 32)) else t.on F.CAL_JRN_STATUS_FAIL = true ∧ (s.mode ≠ mRESET → 487 ∈ t.raised) ∧ t.on F.CAL_JRN_STATUS_VALID = s.on F.CAL_JRN_STATUS_VALID) ∧
        t.jrnOf (1 - s.jrnTarget) = s.jrnOf (1 - s.jrnTarget)) ∧
  (∀ (s : State) (ok : Bool), s.on F.CAL_STATUS_JRN_BUSY = false → s.boot.heldReset = none ∨ s.boot.saving.isSome = true ∨ s.boot.writing.isSome = true → 
      answers (.journalSaveComplete ok) s fun t =>
        t = s) ∧
  (∀ (s : State) (ok : Bool) (g : Nat) (w : Bool), s.on F.CAL_STATUS_JRN_BUSY = true → s.mode ≠ mRESET → s.boot.heldReset = some (g, w) → s.boot.saving = none ∧ s.boot.writing = none → 
      answers (.journalSaveComplete ok) s fun t =>
        (t.mode = mRESET ∧ t.rd F.BOOT_LAST_RESET_CAUSE = (if w then 2 else 3) ∧ t.boot.heldReset = none) ∧
        (ok = true → t.jrnOf s.jrnTarget = some (s.jrnRec ((s.jrnSeq + 1) % 2 ^ 32))))

/-- Temperature sensors, thermal stages, rails, compensation. A conversion gives the reading, the used readings, FAST, the stage
temperature and its sensor, and the range-zero temperature, held stale with event 26 where fewer than two sensors of its zone are
OK; in RESET it counts for TRIP alone, and the 16th is the test. A sensor that fails reads CRITICAL + 1 °C, event 21 for its first
cause; READMIT and RETIRE act in STANDBY and SAFE-STOP, and are ignored with a reject elsewhere or when fewer than two sensors would
stay. Indicators enter and leave by their thresholds with their events, the ninth entry in 60 s latching one; HOT takes SCAN, and
CALIBRATE from SCAN, to DERATED, past a stop that a host command began; CRITICAL begins an orderly stop or takes such a one over; a
latched indicator stays, and the last exit raises 20 and lets DERATED return. A release clears every latch. A rail outside 5 % sets
UV or OV with event 23, one within 4 % clears what is not latched. The 10 ms beat records the rings and rails, moves the trims of
the bandgap and the oscillator and a DLL trim that has lain off for ten beats, and every hundredth beat ages the last calibrations.
A shadow parity error clears SHADOW_OK. Where the condition a command tells does not hold, it does nothing. Commands shown to
complete here: sensorConversion, sensorFail, readmit, retire, thermalIndicatorEntry, thermalIndicatorExit, thmFlapRelease,
compensationUpdate, railMonitorEntry, railMonitorClear, shadowParityCheck. -/
def Obligations.ThermalControl : Prop :=
  (∀ (s : State) (k : Fin 24) (v : Int), (Tab.get (fun _ => 0) s.thm.conv k ≠ 15) → s.mode ≠ mRESET → 
      answers (.sensorConversion k v) s fun t =>
        t.rdS (F.THM_SNS_T_RAW k) = signed 16 (unsigned 16 v) ∧
        (t.det.tempOld = if k.val < 8 then false else s.det.tempOld) ∧
        ((∀ j : Fin 24, t.rdS (F.THM_SNS_T_USED j) = signed 16 (unsigned 16 (t.usedOf j))) ∧ t.rdS F.THM_T_STAGE_T_STAGE = t.rdS (F.THM_SNS_T_USED (t.rd F.THM_STATUS_HOTTEST)) ∧ (∀ j : Fin 24, t.rdS (F.THM_SNS_T_USED j) ≤ t.rdS F.THM_T_STAGE_T_STAGE ∧ t.on (F.THM_SNS_ST_FAST j) = t.fastOf j)) ∧
        (if 2 ≤ (t.okReadings 8 4).length then t.rdS F.THM_T_STAGE_T_RZ = signed 16 (unsigned 16 (median (t.okReadings 8 4))) ∧ t.on F.THM_STATUS_RZ_STALE = false else t.rdS F.THM_T_STAGE_T_RZ = s.rdS F.THM_T_STAGE_T_RZ ∧ t.on F.THM_STATUS_RZ_STALE = true ∧ (s.on F.THM_STATUS_RZ_STALE = false → 26 ∈ t.raised)) ∧
        (t.thm = { s.thm with conv := t.thm.conv, last := t.thm.last, tripRun := t.thm.tripRun } ∧ Tab.get (fun _ => 0) t.thm.conv k = (Tab.get (fun _ => 0) s.thm.conv k + 1) % 16 ∧ Tab.get (fun _ => 0) t.thm.last k = v) ∧
        (Tab.get (fun _ => 0) t.thm.tripRun k = if 10 * (s.rd F.THM_THR_TRIP : Int) ≤ v ∧ s.compared k = true then Tab.get (fun _ => 0) s.thm.tripRun k + 1 else 0)) ∧
  (∀ (s : State) (k : Fin 24) (v : Int), (Tab.get (fun _ => 0) s.thm.conv k ≠ 15) → s.mode = mRESET → 
      answers (.sensorConversion k v) s fun t =>
        t = { s with thm := t.thm } ∧ t.thm = { s.thm with conv := t.thm.conv, last := t.thm.last, tripRun := t.thm.tripRun } ∧
        (Tab.get (fun _ => 0) t.thm.last k = v ∧ Tab.get (fun _ => 0) t.thm.tripRun k = if 10 * (s.rd F.THM_THR_TRIP : Int) ≤ v ∧ s.compared k = true then Tab.get (fun _ => 0) s.thm.tripRun k + 1 else 0)) ∧
  (∀ (s : State) (k : Fin 24) (v : Int), (Tab.get (fun _ => 0) s.thm.conv k = 15) → 
      answers (.sensorConversion k v) s fun t =>
        t = { s with thm := { s.thm with conv := t.thm.conv, testRun := t.thm.testRun } } ∧
        (Tab.get (fun _ => 0) t.thm.conv k = 0 ∧ Tab.get (fun _ => 0) t.thm.testRun k = if Tab.get (fun _ => 0) s.thm.last k + 70 ≤ v ∧ v ≤ Tab.get (fun _ => 0) s.thm.last k + 90 then 0 else Tab.get (fun _ => 0) s.thm.testRun k + 1)) ∧
  (∀ (s : State) (k : Fin 24) (cause : Fin 3), s.mode ≠ mRESET → s.snsState k ≠ 2 → s.failSeen k cause = true → 
      answers (.sensorFail k cause) s fun t =>
        t.snsState k = 1 ∧ (t.rd (F.THM_SNS_ST_CAUSE k)).testBit cause = true ∧
        (s.snsState k = 0 → 21 ∈ t.raised) ∧
        t.rdS (F.THM_SNS_T_USED k) = 10 * s.rd F.THM_THR_CRITICAL + 10 ∧
        ((∀ j : Fin 24, t.rdS (F.THM_SNS_T_USED j) = signed 16 (unsigned 16 (t.usedOf j))) ∧ t.rdS F.THM_T_STAGE_T_STAGE = t.rdS (F.THM_SNS_T_USED (t.rd F.THM_STATUS_HOTTEST)) ∧ (∀ j : Fin 24, t.rdS (F.THM_SNS_T_USED j) ≤ t.rdS F.THM_T_STAGE_T_STAGE ∧ t.on (F.THM_SNS_ST_FAST j) = t.fastOf j)) ∧
        (if 2 ≤ (t.okReadings 8 4).length then t.rdS F.THM_T_STAGE_T_RZ = signed 16 (unsigned 16 (median (t.okReadings 8 4))) ∧ t.on F.THM_STATUS_RZ_STALE = false else t.rdS F.THM_T_STAGE_T_RZ = s.rdS F.THM_T_STAGE_T_RZ ∧ t.on F.THM_STATUS_RZ_STALE = true ∧ (s.on F.THM_STATUS_RZ_STALE = false → 26 ∈ t.raised))) ∧
  (∀ (s : State) (k : Fin 24) (cause : Fin 3), s.mode = mRESET ∨ s.snsState k = 2 ∨ s.failSeen k cause = false → 
      answers (.sensorFail k cause) s fun t =>
        t = s) ∧
  (∀ (s : State) (k : Fin 32), k.val < 24 → (s.mode = mSTANDBY ∨ s.mode = mSAFESTOP) → s.snsState k = 1 → 
      answers (.readmit k) s fun t =>
        (t.snsState k = 0 ∧ t.rd (F.THM_SNS_ST_CAUSE k) = 0 ∧ Tab.get (fun _ => 0) t.thm.testRun k = 0 ∧ t.rd F.THM_SNS_CTRL_SENSOR = k) ∧
        ((∀ j : Fin 24, t.rdS (F.THM_SNS_T_USED j) = signed 16 (unsigned 16 (t.usedOf j))) ∧ t.rdS F.THM_T_STAGE_T_STAGE = t.rdS (F.THM_SNS_T_USED (t.rd F.THM_STATUS_HOTTEST)) ∧ (∀ j : Fin 24, t.rdS (F.THM_SNS_T_USED j) ≤ t.rdS F.THM_T_STAGE_T_STAGE ∧ t.on (F.THM_SNS_ST_FAST j) = t.fastOf j)) ∧
        (if 2 ≤ (t.okReadings 8 4).length then t.rdS F.THM_T_STAGE_T_RZ = signed 16 (unsigned 16 (median (t.okReadings 8 4))) ∧ t.on F.THM_STATUS_RZ_STALE = false else t.rdS F.THM_T_STAGE_T_RZ = s.rdS F.THM_T_STAGE_T_RZ ∧ t.on F.THM_STATUS_RZ_STALE = true ∧ (s.on F.THM_STATUS_RZ_STALE = false → 26 ∈ t.raised))) ∧
  (∀ (s : State) (k : Fin 32), k.val < 24 → (s.mode = mSTANDBY ∨ s.mode = mSAFESTOP) → s.snsState k ≠ 1 → 
      answers (.readmit k) s fun t =>
        t = s.accessed.wr F.THM_SNS_CTRL_SENSOR k) ∧
  (∀ (s : State) (k : Fin 32), k.val < 24 → (s.mode = mSTANDBY ∨ s.mode = mSAFESTOP) → 2 ≤ s.zoneLeft k → 
      answers (.retire k) s fun t =>
        t.snsState k = 2 ∧ (t.rd F.THM_RETIRED_MASK).testBit k = true ∧ t.rd F.THM_SNS_CTRL_SENSOR = k ∧
        ((∀ j : Fin 24, t.rdS (F.THM_SNS_T_USED j) = signed 16 (unsigned 16 (t.usedOf j))) ∧ t.rdS F.THM_T_STAGE_T_STAGE = t.rdS (F.THM_SNS_T_USED (t.rd F.THM_STATUS_HOTTEST)) ∧ (∀ j : Fin 24, t.rdS (F.THM_SNS_T_USED j) ≤ t.rdS F.THM_T_STAGE_T_STAGE ∧ t.on (F.THM_SNS_ST_FAST j) = t.fastOf j)) ∧
        (if 2 ≤ (t.okReadings 8 4).length then t.rdS F.THM_T_STAGE_T_RZ = signed 16 (unsigned 16 (median (t.okReadings 8 4))) ∧ t.on F.THM_STATUS_RZ_STALE = false else t.rdS F.THM_T_STAGE_T_RZ = s.rdS F.THM_T_STAGE_T_RZ ∧ t.on F.THM_STATUS_RZ_STALE = true ∧ (s.on F.THM_STATUS_RZ_STALE = false → 26 ∈ t.raised))) ∧
  (∀ (s : State) (k : Fin 32), 24 ≤ k.val ∨ (s.mode ≠ mSTANDBY ∧ s.mode ≠ mSAFESTOP) → s.mode ≠ mRESET → 
      (answers (.readmit k) s fun t =>
        rejected s t) ∧
      (answers (.retire k) s fun t =>
        rejected s t)) ∧
  (∀ (s : State) (k : Fin 32), s.zoneLeft k < 2 → s.mode ≠ mRESET → 
      answers (.retire k) s fun t =>
        rejected s t) ∧
  (∀ (s : State) (inds : Fin 8) (u : Nat), s.mode ≠ mRESET → ((inds.val.testBit 0 && !(s.rd F.THM_STATUS_IND).testBit 0 && decide (s.thrOf 0 ≤ s.rdS F.THM_T_STAGE_T_STAGE)) || (inds.val.testBit 1 && !(s.rd F.THM_STATUS_IND).testBit 1 && decide (s.thrOf 1 ≤ s.rdS F.THM_T_STAGE_T_STAGE)) || (inds.val.testBit 2 && !(s.rd F.THM_STATUS_IND).testBit 2 && decide (s.thrOf 2 ≤ s.rdS F.THM_T_STAGE_T_STAGE))) = true → 
      answers (.thermalIndicatorEntry inds u) s fun t =>
        (∀ i : Fin 3, (t.rd F.THM_STATUS_IND).testBit i = ((s.rd F.THM_STATUS_IND).testBit i || (inds.val.testBit i && !(s.rd F.THM_STATUS_IND).testBit i && decide (s.thrOf i ≤ s.rdS F.THM_T_STAGE_T_STAGE)))) ∧
        (t.rd F.THM_STATUS_STAGE = (if (t.rd F.THM_STATUS_IND).testBit 2 then 3 else if (t.rd F.THM_STATUS_IND).testBit 1 then 2 else if (t.rd F.THM_STATUS_IND).testBit 0 then 1 else 0) ∧ t.on F.THM_STATUS_DERATE_SRC = (t.rd F.THM_STATUS_IND).testBit 1) ∧
        (∀ i : Fin 3, (inds.val.testBit i && !(s.rd F.THM_STATUS_IND).testBit i && decide (s.thrOf i ≤ s.rdS F.THM_T_STAGE_T_STAGE)) = true → 16 + i.val ∈ t.raised ∧ Tab.get (fun _ => []) t.thm.hist (i) = ((Tab.get (fun _ => []) s.thm.hist (i)) ++ [u]).filter fun v => decide (u < v + 60 * 10 ^ 12)) ∧
        ((inds.val.testBit 2 && !(s.rd F.THM_STATUS_IND).testBit 2 && decide (s.thrOf 2 ≤ s.rdS F.THM_T_STAGE_T_STAGE)) = true ∧ 3 ≤ s.mode ∧ s.mode ≤ 6 → t.on F.SYS_MODE_STOPPING = true ∧ t.mode = s.mode ∧ t.sys.stopCause = (if s.on F.SYS_MODE_STOPPING = false ∨ s.sys.stopCause = 0x01 then 0x08 else s.sys.stopCause)) ∧
        ((inds.val.testBit 1 && !(s.rd F.THM_STATUS_IND).testBit 1 && decide (s.thrOf 1 ≤ s.rdS F.THM_T_STAGE_T_STAGE)) = true ∧ (inds.val.testBit 2 && !(s.rd F.THM_STATUS_IND).testBit 2 && decide (s.thrOf 2 ≤ s.rdS F.THM_T_STAGE_T_STAGE)) = false ∧ (s.mode = mSCAN ∨ (s.mode = mCALIBRATE ∧ s.sys.calFrom = mSCAN)) ∧ (s.on F.SYS_MODE_STOPPING = false ∨ s.sys.stopCause = 0x01) → t.mode = mDERATED ∧ t.rd F.SYS_MODE_CAUSE = 0x07 ∧ t.on F.SYS_MODE_STOPPING = false) ∧
        ((inds.val.testBit 1 && !(s.rd F.THM_STATUS_IND).testBit 1 && decide (s.thrOf 1 ≤ s.rdS F.THM_T_STAGE_T_STAGE)) = false ∧ (inds.val.testBit 2 && !(s.rd F.THM_STATUS_IND).testBit 2 && decide (s.thrOf 2 ≤ s.rdS F.THM_T_STAGE_T_STAGE)) = false → t.mode = s.mode) ∧
        (∀ i : Fin 3, t.thm.latched.testBit i = (s.thm.latched.testBit i || ((inds.val.testBit i && !(s.rd F.THM_STATUS_IND).testBit i && decide (s.thrOf i ≤ s.rdS F.THM_T_STAGE_T_STAGE)) && decide (8 < (Tab.get (fun _ => []) t.thm.hist i).length))))) ∧
  (∀ (s : State) (inds : Fin 8) (u : Nat), s.mode = mRESET ∨ ((inds.val.testBit 0 && !(s.rd F.THM_STATUS_IND).testBit 0 && decide (s.thrOf 0 ≤ s.rdS F.THM_T_STAGE_T_STAGE)) || (inds.val.testBit 1 && !(s.rd F.THM_STATUS_IND).testBit 1 && decide (s.thrOf 1 ≤ s.rdS F.THM_T_STAGE_T_STAGE)) || (inds.val.testBit 2 && !(s.rd F.THM_STATUS_IND).testBit 2 && decide (s.thrOf 2 ≤ s.rdS F.THM_T_STAGE_T_STAGE))) = false → 
      answers (.thermalIndicatorEntry inds u) s fun t =>
        t = s) ∧
  (∀ (s : State) (inds : Fin 8), s.mode ≠ mRESET → ((inds.val.testBit 0 && (s.rd F.THM_STATUS_IND).testBit 0 && !s.thm.latched.testBit 0 && decide (s.rdS F.THM_T_STAGE_T_STAGE < s.thrOf 0 - 10 * s.rd F.THM_HYST_HYST)) || (inds.val.testBit 1 && (s.rd F.THM_STATUS_IND).testBit 1 && !s.thm.latched.testBit 1 && decide (s.rdS F.THM_T_STAGE_T_STAGE < s.thrOf 1 - 10 * s.rd F.THM_HYST_HYST)) || (inds.val.testBit 2 && (s.rd F.THM_STATUS_IND).testBit 2 && !s.thm.latched.testBit 2 && decide (s.rdS F.THM_T_STAGE_T_STAGE < s.thrOf 2 - 10 * s.rd F.THM_HYST_HYST))) = true → 
      answers (.thermalIndicatorExit inds) s fun t =>
        (∀ i : Fin 3, (t.rd F.THM_STATUS_IND).testBit i = ((s.rd F.THM_STATUS_IND).testBit i && !(inds.val.testBit i && (s.rd F.THM_STATUS_IND).testBit i && !s.thm.latched.testBit i && decide (s.rdS F.THM_T_STAGE_T_STAGE < s.thrOf i - 10 * s.rd F.THM_HYST_HYST)))) ∧
        (t.rd F.THM_STATUS_STAGE = (if (t.rd F.THM_STATUS_IND).testBit 2 then 3 else if (t.rd F.THM_STATUS_IND).testBit 1 then 2 else if (t.rd F.THM_STATUS_IND).testBit 0 then 1 else 0) ∧ t.on F.THM_STATUS_DERATE_SRC = (t.rd F.THM_STATUS_IND).testBit 1) ∧
        (t.rd F.THM_STATUS_IND = 0 → 20 ∈ t.raised) ∧
        (s.mode = mDERATED ∧ s.on F.SYS_MODE_STOPPING = false → t.mode = if t.on F.THM_STATUS_DERATE_SRC || s.derateTil || s.derateEmi || s.sys.hostDerate then mDERATED else if s.on F.CAL_STATUS_RERUN_PENDING && s.on F.SYS_MODE_CFG_AUTO_RECAL then mCALIBRATE else mSCAN) ∧
        (s.mode ≠ mDERATED ∧ s.mode ≠ mSCAN → t.mode = s.mode)) ∧
  (∀ (s : State) (inds : Fin 8), s.mode = mRESET ∨ ((inds.val.testBit 0 && (s.rd F.THM_STATUS_IND).testBit 0 && !s.thm.latched.testBit 0 && decide (s.rdS F.THM_T_STAGE_T_STAGE < s.thrOf 0 - 10 * s.rd F.THM_HYST_HYST)) || (inds.val.testBit 1 && (s.rd F.THM_STATUS_IND).testBit 1 && !s.thm.latched.testBit 1 && decide (s.rdS F.THM_T_STAGE_T_STAGE < s.thrOf 1 - 10 * s.rd F.THM_HYST_HYST)) || (inds.val.testBit 2 && (s.rd F.THM_STATUS_IND).testBit 2 && !s.thm.latched.testBit 2 && decide (s.rdS F.THM_T_STAGE_T_STAGE < s.thrOf 2 - 10 * s.rd F.THM_HYST_HYST))) = false → 
      answers (.thermalIndicatorExit inds) s fun t =>
        t = s) ∧
  (∀ (s : State), s.mode ≠ mRESET → 
      answers .thmFlapRelease s fun t =>
        t = { s.accessed.wr F.THM_STATUS_FLAP 0 with thm := { s.thm with latched := 0, hist := [] } }) ∧
  (∀ (s : State) (rings rails : List Nat), s.mode ≠ mRESET → 
      answers (.compensationUpdate rings rails) s fun t =>
        (∀ k : Fin 8, rings[k.val]?.all (fun v => t.rd (F.THM_RO_COUNT k) == v % 2 ^ ((F.THM_RO_COUNT k).hi - (F.THM_RO_COUNT k).lo + 1)) = true) ∧
        (∀ r : Fin 6, rails[r.val]?.all (fun v => t.rd (F.THM_RAIL_MEAS r) == v % 2 ^ ((F.THM_RAIL_MEAS r).hi - (F.THM_RAIL_MEAS r).lo + 1)) = true) ∧
        (∀ c : Fin 16, (t.rd (F.TDC_DLL_TRIM_TRIM c) : Int) = if s.on F.THM_COMP_CFG_DLL_EN && !s.mainStopped && decide (2 ≤ (clip 0 255 ((Word.field (resetWord (F.TDC_DLL_TRIM_TRIM c).addr) (F.TDC_DLL_TRIM_TRIM c).hi (F.TDC_DLL_TRIM_TRIM c).lo : Int) + divRound (s.rdS F.THM_COMP_CFG_DLL_SLOPE * (s.tRz - 250)) 160) - s.rd (F.TDC_DLL_TRIM_TRIM c)).natAbs) && decide (9 ≤ Tab.get (fun _ => 0) s.thm.dllRun c) then clip 0 255 ((Word.field (resetWord (F.TDC_DLL_TRIM_TRIM c).addr) (F.TDC_DLL_TRIM_TRIM c).hi (F.TDC_DLL_TRIM_TRIM c).lo : Int) + divRound (s.rdS F.THM_COMP_CFG_DLL_SLOPE * (s.tRz - 250)) 160) else s.rd (F.TDC_DLL_TRIM_TRIM c)) ∧
        (t.thm.bandTrim = if s.okReadings 20 4 = [] then s.thm.bandTrim else clip Config.bandgapMin Config.bandgapMax (Config.bandgapCoef 0 + Config.bandgapCoef 1 * (median (s.okReadings 20 4) - 250) + Config.bandgapCoef 2 * ((median (s.okReadings 20 4) - 250) * (median (s.okReadings 20 4) - 250)))) ∧
        t.thm.oscTrim = clip Config.oscMin Config.oscMax (Config.oscTrim s.tRz) ∧
        (t.cal.beats = if s.cal.beats + 1 < 100 then s.cal.beats + 1 else 0) ∧
        (t.rd F.CAL_LAST_CD_AGE = (if s.cal.beats + 1 < 100 then s.rd F.CAL_LAST_CD_AGE else min (s.rd F.CAL_LAST_CD_AGE + 1) (2 ^ ((F.CAL_LAST_CD_AGE).hi - (F.CAL_LAST_CD_AGE).lo + 1) - 1)) ∧ t.rd F.CAL_LAST_RZ_AGE = (if s.cal.beats + 1 < 100 then s.rd F.CAL_LAST_RZ_AGE else min (s.rd F.CAL_LAST_RZ_AGE + 1) (2 ^ ((F.CAL_LAST_RZ_AGE).hi - (F.CAL_LAST_RZ_AGE).lo + 1) - 1)))) ∧
  (∀ (s : State) (rings rails : List Nat), s.mode = mRESET → 
      answers (.compensationUpdate rings rails) s fun t =>
        t = s) ∧
  (∀ (s : State) (r : Fin 6) (mv u : Nat), s.mode ≠ mRESET → 105 * railNominal r < 100 * mv → 
      answers (.railMonitorEntry r mv u) s fun t =>
        (((t.on (F.THM_RAIL_OV r) = true ∧ s.on (F.THM_RAIL_OV r) = true) ∨ (t.on (F.THM_RAIL_OV r) = true ∧ 23 ∈ t.raised ∧ Tab.get (fun _ => []) t.thm.hist (3 + r.val) = ((Tab.get (fun _ => []) s.thm.hist (3 + r.val)) ++ [u]).filter fun v => decide (u < v + 60 * 10 ^ 12) ∧ t.thm.latched.testBit (3 + r.val) = (s.thm.latched.testBit (3 + r.val) || decide (8 < (Tab.get (fun _ => []) t.thm.hist (3 + r.val)).length))))) ∧
        t.rd (F.THM_RAIL_MEAS r) = mv % 2 ^ ((F.THM_RAIL_MEAS r).hi - (F.THM_RAIL_MEAS r).lo + 1)) ∧
  (∀ (s : State) (r : Fin 6) (mv u : Nat), s.mode ≠ mRESET → 100 * mv < 95 * railNominal r → 
      answers (.railMonitorEntry r mv u) s fun t =>
        (((t.on (F.THM_RAIL_UV r) = true ∧ s.on (F.THM_RAIL_UV r) = true) ∨ (t.on (F.THM_RAIL_UV r) = true ∧ 23 ∈ t.raised ∧ Tab.get (fun _ => []) t.thm.hist (3 + r.val) = ((Tab.get (fun _ => []) s.thm.hist (3 + r.val)) ++ [u]).filter fun v => decide (u < v + 60 * 10 ^ 12) ∧ t.thm.latched.testBit (3 + r.val) = (s.thm.latched.testBit (3 + r.val) || decide (8 < (Tab.get (fun _ => []) t.thm.hist (3 + r.val)).length))))) ∧
        t.rd (F.THM_RAIL_MEAS r) = mv % 2 ^ ((F.THM_RAIL_MEAS r).hi - (F.THM_RAIL_MEAS r).lo + 1)) ∧
  (∀ (s : State) (r : Fin 6) (mv u : Nat), s.mode = mRESET ∨ (95 * railNominal r ≤ 100 * mv ∧ 100 * mv ≤ 105 * railNominal r) → 
      answers (.railMonitorEntry r mv u) s fun t =>
        t = s) ∧
  (∀ (s : State) (r : Fin 6) (mv : Nat), s.mode ≠ mRESET → 96 * railNominal r ≤ 100 * mv ∧ 100 * mv ≤ 104 * railNominal r → 
      answers (.railMonitorClear r mv) s fun t =>
        t.rd (F.THM_RAIL_MEAS r) = mv % 2 ^ ((F.THM_RAIL_MEAS r).hi - (F.THM_RAIL_MEAS r).lo + 1) ∧
        t.on (F.THM_RAIL_UV r) = (s.on (F.THM_RAIL_UV r) && s.thm.latched.testBit (3 + r.val)) ∧ t.on (F.THM_RAIL_OV r) = (s.on (F.THM_RAIL_OV r) && s.thm.latched.testBit (3 + r.val))) ∧
  (∀ (s : State) (r : Fin 6) (mv : Nat), s.mode = mRESET ∨ 100 * mv < 96 * railNominal r ∨ 104 * railNominal r < 100 * mv → 
      answers (.railMonitorClear r mv) s fun t =>
        t = s) ∧
  (∀ (s : State) (error : Bool), 
      answers (.shadowParityCheck error) s fun t =>
        t = if error then s.wr F.CAL_STATUS_SHADOW_OK 0 else s)

/-- The memory controller. EN set gives MEM_SIZE and goes ACTIVE, or leaves a retained self-refresh; set again, it changes nothing.
SR = 1 drains the queues and enters, waits during an exit, an INIT or a sweep, and gives up an exit latched during the entry; SR = 0
exits, or is latched during the entry; the completions follow, a segment that MEM_PASR excludes being lost, and each channel gets
its eight refreshes. INIT starts where nothing writes memory, wakes a sleeping controller and waits, is rejected otherwise, and ends
with zeros. Where the controller becomes ACTIVE, what waited starts (memResume): an INIT, a self-refresh entry, the firmware's work.
A request that may be served leaves its queue: a write stores its bytes with their checks or goes to host memory, a read answers the
bytes or waits for host memory, a link failure is counted, an access that leads nowhere is recorded; a controller that does not
serve is woken; else nothing happens. Urgency, panic with its latch at the ninth entry in 60 s, refreshes postponed at most POSTPONE
times while a panic request needs the bank, the rate report, TEMP_HI, HOTSPOT and the releases of their latches, the scrubber, MR
commands and sweeps do what their rules say, and nothing where their condition fails. Commands shown to complete here: memoryEnable,
selfRefreshEntry, selfRefreshExit, selfRefreshEntryComplete, selfRefreshExitComplete, init, initComplete, memoryRequestServed,
requestUrgent, panicEntry, panicExit, panicFlapRelease, tempFlapRelease, hotFlapRelease, refresh, refreshRatePoll, hotspotWindow,
scrubPassRead, mrCommand, mrCommandComplete, trainingSweep, trainingSweepComplete. -/
def Obligations.MemoryController : Prop :=
  (∀ (s : State), s.mode ≠ mRESET → s.sys.dramStopped = false → s.on F.MEM_CTRL_EN = false → 
      answers .memoryEnable s fun t =>
        (t = State.memResume { (((s.accessed.wr F.MEM_CTRL_EN 1).wr F.MEM_SIZE_MIB s.cfgSize).wr F.MEM_STATUS_STATE (if s.mem.retained then 5 else 2)) with mem := { s.mem with retained := false } }) ∧
        (s.boot.memJobs = [] ∧ s.boot.tx = none ∧ s.mem.srDue = false ∧ s.mem.initDue = false → t.rd F.MEM_STATUS_STATE = (if s.mem.retained then 5 else 2) ∧ t.mem = { s.mem with retained := false } ∧ t.rd F.MEM_SIZE_MIB = (if s.on F.MEM_CFG_INLINE then 2048 * 2 ^ s.rd F.MEM_CFG_DENSITY * (1 + s.rd F.MEM_CFG_RANKS) * 7 / 8 else 2048 * 2 ^ s.rd F.MEM_CFG_DENSITY * (1 + s.rd F.MEM_CFG_RANKS)))) ∧
  (∀ (s : State), s.mode ≠ mRESET → s.sys.dramStopped = false → s.on F.MEM_CTRL_EN = true → 
      answers .memoryEnable s fun t =>
        t = s.accessed.memResume ∧
        (s.boot.memJobs = [] ∧ s.boot.tx = none ∧ s.mem.srDue = false ∧ s.mem.initDue = false → t = s.accessed)) ∧
  (∀ (s : State), s.mode ≠ mRESET → s.sys.dramStopped = false → s.memState = 2 ∧ s.on F.MEM_TRN_CTRL_BUSY = false → 
      answers .selfRefreshEntry s fun t =>
        t.on F.MEM_CTRL_SR = true ∧ t.memState = 3 ∧ t.mem.srDue = false ∧ t.mem.openRow = [] ∧ ∀ p : Fin 8, t.port p = []) ∧
  (∀ (s : State), s.mode ≠ mRESET → s.sys.dramStopped = false → s.memState = 3 → 
      (answers .selfRefreshEntry s fun t =>
        t.on F.MEM_CTRL_SR = true ∧ t.memState = 3 ∧ t.mem = s.mem ∧ t.on F.MEM_STATUS_PENDING_ENABLE = false ∧ t.on F.SYS_PEND_STATUS_MEM_SR = false) ∧
      (answers .selfRefreshExit s fun t =>
        t.on F.MEM_CTRL_SR = false ∧ t.memState = 3 ∧ t.mem = { s.mem with srDue := false } ∧ t.on F.MEM_STATUS_PENDING_ENABLE = true ∧
        (s.on F.MEM_STATUS_PENDING_ENABLE = false → t.on F.SYS_PEND_STATUS_MEM_SR = true ∧ 6 ∈ t.raised))) ∧
  (∀ (s : State), s.mode ≠ mRESET → s.sys.dramStopped = false → s.memState = 4 → 
      answers .selfRefreshExit s fun t =>
        t = (({ s.accessed with mem := { s.mem with srDue := false } } : State).wr F.MEM_CTRL_SR 0).wr F.MEM_STATUS_STATE 5) ∧
  (∀ (s : State), s.mode ≠ mRESET → s.sys.dramStopped = false → s.memState = 0 ∨ s.memState = 4 → 
      answers .selfRefreshEntry s fun t =>
        t = s.accessed.wr F.MEM_CTRL_SR 1) ∧
  (∀ (s : State), s.mode ≠ mRESET → s.sys.dramStopped = false → (s.memState = 2 ∧ s.on F.MEM_TRN_CTRL_BUSY = true) ∨ s.memState = 1 ∨ 5 ≤ s.memState → 
      answers .selfRefreshEntry s fun t =>
        t = State.wr { s.accessed with mem := { s.mem with srDue := true } } F.MEM_CTRL_SR 1) ∧
  (∀ (s : State), s.mode ≠ mRESET → s.sys.dramStopped = false → s.memState ≠ 3 ∧ s.memState ≠ 4 → 
      answers .selfRefreshExit s fun t =>
        t = State.wr { s.accessed with mem := { s.mem with srDue := false } } F.MEM_CTRL_SR 0) ∧
  (∀ (s : State), s.memState = 3 → 
      answers .selfRefreshEntryComplete s fun t =>
        (t.memState = (if s.on F.MEM_STATUS_PENDING_ENABLE then 5 else 4) ∧ t.on F.MEM_STATUS_PENDING_ENABLE = false) ∧
        (t.rd F.SYS_PEND_STATUS_MEM_SR = (if s.on F.MEM_STATUS_PENDING_ENABLE then 0 else s.rd F.SYS_PEND_STATUS_MEM_SR)) ∧
        (s.rd F.MEM_CFG_ORDER ≠ 2 → t.mem = { s.mem with drain := [] })) ∧
  (∀ (s : State) (a : Nat), s.memState = 3 → s.rd F.MEM_CFG_ORDER = 2 → a < s.localSize → 
      answers .selfRefreshEntryComplete s fun t =>
        let q := s.localSize / 4; if (s.rd (F.MEM_PASR_SEG_MASK (a / q))).testBit (a % q / (q / 8)) then (t.lostAt a).isSome = true else t.dramByte a = s.dramByte a) ∧
  (∀ (s : State), s.memState ≠ 3 → 
      answers .selfRefreshEntryComplete s fun t =>
        t = s) ∧
  (∀ (s : State), s.memState = 5 → 
      answers .selfRefreshExitComplete s fun t =>
        (t = ((s.forN 4 fun k s => s.count 7 5 k 8).wr F.MEM_STATUS_STATE 2).memResume) ∧
        (s.boot.memJobs = [] ∧ s.boot.tx = none ∧ s.mem.srDue = false ∧ s.mem.initDue = false → t.memState = 2 ∧ t.mem = s.mem)) ∧
  (∀ (s : State), s.memState = 5 → s.on F.MEM_STATUS_INIT_BUSY = false ∧ s.on F.MEM_TRN_CTRL_BUSY = false ∧ s.sys.dramStopped = false → s.mem.initDue = true → s.boot.memJobs = [] → s.boot.tx = none → 
      answers .selfRefreshExitComplete s fun t =>
        t.memState = 1 ∧ t.on F.MEM_STATUS_INIT_BUSY = true ∧ t.mem = { s.mem with initDue := false }) ∧
  (∀ (s : State), s.memState = 5 → s.on F.MEM_STATUS_INIT_BUSY = false ∧ s.on F.MEM_TRN_CTRL_BUSY = false ∧ s.sys.dramStopped = false → s.mem.initDue = false ∧ s.mem.srDue = true → s.boot.memJobs = [] → s.boot.tx = none → 
      answers .selfRefreshExitComplete s fun t =>
        t.memState = 3 ∧ t.mem.srDue = false ∧ ∀ p : Fin 8, t.port p = []) ∧
  (∀ (s : State), s.memState ≠ 5 → 
      answers .selfRefreshExitComplete s fun t =>
        t = s) ∧
  (∀ (s : State), s.mode ≠ mRESET → s.sys.dramStopped = false → (s.mode = mSTANDBY ∨ s.mode = mRECOVERY) ∧ s.running = false ∧ s.on F.MER_CAP_CTRL_EN = false ∧ s.cap.closing = false → s.memReady = true → 
      answers .init s fun t =>
        t = (s.accessed.wr F.MEM_STATUS_INIT_BUSY 1).wr F.MEM_STATUS_STATE 1) ∧
  (∀ (s : State), s.mode ≠ mRESET → s.sys.dramStopped = false → (s.mode = mSTANDBY ∨ s.mode = mRECOVERY) ∧ s.running = false ∧ s.on F.MER_CAP_CTRL_EN = false ∧ s.cap.closing = false → s.memReady = false → s.memState = 0 ∨ s.on F.MEM_STATUS_INIT_BUSY = true → 
      answers .init s fun t =>
        t = s.accessed) ∧
  (∀ (s : State), s.mode ≠ mRESET → s.sys.dramStopped = false → (s.mode = mSTANDBY ∨ s.mode = mRECOVERY) ∧ s.running = false ∧ s.on F.MER_CAP_CTRL_EN = false ∧ s.cap.closing = false → s.memReady = false → s.memState ≠ 0 ∧ s.on F.MEM_STATUS_INIT_BUSY = false → 
      answers .init s fun t =>
        (t.mem = { s.mem with initDue := true } ∧ t.memState = (if s.memState = 4 then 5 else s.memState)) ∧
        (s.memState = 3 → t.on F.MEM_STATUS_PENDING_ENABLE = true)) ∧
  (∀ (s : State), s.mode ≠ mRESET → s.sys.dramStopped = false → ¬ ((s.mode = mSTANDBY ∨ s.mode = mRECOVERY) ∧ s.running = false ∧ s.on F.MER_CAP_CTRL_EN = false ∧ s.cap.closing = false) → 
      answers .init s fun t =>
        rejected s t) ∧
  (∀ (s : State), s.on F.MEM_STATUS_INIT_BUSY = true → 
      answers .initComplete s fun t =>
        t = State.memResume { (s.wr F.MEM_STATUS_INIT_BUSY 0).wr F.MEM_STATUS_STATE 2 with mem := { s.mem with dram := [], cond := [], lost := [] } } ∧
        (s.boot.memJobs = [] ∧ s.boot.tx = none ∧ s.mem.srDue = false ∧ s.mem.initDue = false → t.on F.MEM_STATUS_INIT_BUSY = false ∧ t.memState = 2 ∧ t.mem = { s.mem with dram := [], cond := [], lost := [] })) ∧
  (∀ (s : State), s.on F.MEM_STATUS_INIT_BUSY = false → 
      answers .initComplete s fun t =>
        t = s) ∧
  (∀ (s : State) (p : Fin 8) (idx : Nat) (r : Req) (a j w : Nat) (link : Fin 4) (found : Fin 3), s.memReady = true ∨ s.memState = 0 → (s.port p)[idx]? = some r → s.mayServe p idx = true → s.place p r.addr = .loc a → s.boot.memJobs = [] → s.boot.tx = none → r.write = true → 
      answers (.memoryRequestServed p idx link found) s fun t =>
        t.port p = (s.port p).eraseIdx idx ∧
        (t.dramByte j = if a ≤ j ∧ j < a + r.data.length then r.data.getD (j - a) 0 else s.dramByte j) ∧
        (s.on F.MEM_CFG_INLINE = true ∧ r.data ≠ [] → if a ≤ 8 * w ∧ 8 * w + 8 ≤ a + r.data.length then Tab.get (fun _ => Cond.ok) t.mem.cond w = (if r.poison then .poison else .ok) else if a < 8 * w + 8 ∧ 8 * w < a + r.data.length then Tab.get (fun _ => Cond.ok) t.mem.cond w = (if r.poison ∨ (s.upset a found).dramCond w = .ue ∨ (s.upset a found).dramCond w = .poison then .poison else .ok) else Tab.get (fun _ => Cond.ok) t.mem.cond w = Tab.get (fun _ => Cond.ok) s.mem.cond w)) ∧
  (∀ (s : State) (p : Fin 8) (idx : Nat) (r : Req) (a : Nat) (link : Fin 4) (found : Fin 3), s.memReady = true ∨ s.memState = 0 → (s.port p)[idx]? = some r → s.mayServe p idx = true → s.place p r.addr = .loc a → s.boot.memJobs = [] → s.boot.tx = none → r.write = false → 
      answers (.memoryRequestServed p idx link found) s fun t =>
        t.port p = (s.port p).eraseIdx idx ∧ t.mem.dram = s.mem.dram ∧
        (let d := (List.range r.len).map fun i => s.dramByte (a + i); (if p = 2 then ∃ b, t.lnk.comps = s.lnk.comps ++ [(d, b)] else t.sys.rdata = ofBytes d)) ∧
        (t.rd F.MEM_CNT_LINK_RETRY_COUNT = if s.on F.MEM_CFG_LINK_ECC ∧ 2 ≤ link.val then min (s.rd F.MEM_CNT_LINK_RETRY_COUNT + 1) (2 ^ ((F.MEM_CNT_LINK_RETRY_COUNT).hi - (F.MEM_CNT_LINK_RETRY_COUNT).lo + 1) - 1) else s.rd F.MEM_CNT_LINK_RETRY_COUNT) ∧
        (s.on F.MEM_CFG_LINK_ECC = true ∧ link = 3 ∧ s.mode ≠ mRESET → 488 ∈ t.raised) ∧
        (s.on F.MEM_CFG_INLINE = false → t.rd F.MEM_ECC_CE_CNT_COUNT = if s.on F.MEM_CFG_LINK_ECC ∧ link = 1 then min (s.rd F.MEM_ECC_CE_CNT_COUNT + 1) (2 ^ ((F.MEM_ECC_CE_CNT_COUNT).hi - (F.MEM_ECC_CE_CNT_COUNT).lo + 1) - 1) else s.rd F.MEM_ECC_CE_CNT_COUNT) ∧
        (s.on F.MEM_CFG_INLINE = true ∧ 0 < r.len ∧ found = 2 ∧ s.lostAt (a / 8 * 8) = none ∧ s.mode ≠ mRESET → 488 ∈ t.raised) ∧
        (s.on F.MEM_CFG_INLINE = true ∧ 0 < r.len ∧ found = 1 ∧ s.lostAt (a / 8 * 8) = none → Tab.get (fun _ => Cond.ok) t.mem.cond (a / 8) = .ok)) ∧
  (∀ (s : State) (p : Fin 8) (idx : Nat) (r : Req) (h : Nat) (link : Fin 4) (found : Fin 3), s.memReady = true ∨ s.memState = 0 → (s.port p)[idx]? = some r → s.mayServe p idx = true → s.place p r.addr = .host h → s.boot.memJobs = [] → s.boot.tx = none → r.write = true ∨ s.lnk.reads.length < 64 → 
      answers (.memoryRequestServed p idx link found) s fun t =>
        t.port p = (s.port p).eraseIdx idx ∧ t.mem.dram = s.mem.dram ∧
        (if r.write then t.lnk = { s.lnk with tlps := s.lnk.tlps ++ [Tlp.mk h r.data r.poison] } else t.lnk = { s.lnk with reads := s.lnk.reads ++ [(p.val, r.addr, h, r.len)] })) ∧
  (∀ (s : State) (p : Fin 8) (idx : Nat) (r : Req) (c : Nat) (link : Fin 4) (found : Fin 3), s.memReady = true ∨ s.memState = 0 → (s.port p)[idx]? = some r → s.mayServe p idx = true → s.place p r.addr = .bad c → s.boot.memJobs = [] → s.boot.tx = none → 
      answers (.memoryRequestServed p idx link found) s fun t =>
        t.port p = (s.port p).eraseIdx idx ∧ t.mem.dram = s.mem.dram ∧
        (if s.rd F.MEM_ADDR_ERR_INFO_CAUSE = 0 then t.rd F.MEM_ADDR_ERR_INFO_CAUSE = c % 4 ∧ t.rd F.MEM_ADDR_ERR_INFO_PORT = p ∧ t.rd F.MEM_ADDR_ERR_ADDR_ADDR = r.addr % 2 ^ 32 ∧ (s.mode ≠ mRESET → 491 ∈ t.raised) else t.rd F.MEM_ADDR_ERR_INFO_CAUSE = s.rd F.MEM_ADDR_ERR_INFO_CAUSE ∧ t.rd F.MEM_ADDR_ERR_ADDR_ADDR = s.rd F.MEM_ADDR_ERR_ADDR_ADDR ∧ t.raised = s.raised) ∧
        (r.write = false → if p = 2 then t.lnk.comps = s.lnk.comps ++ [(List.replicate r.len 0xFF, true)] else t.sys.rdata = ofBytes (List.replicate r.len 0xFF))) ∧
  (∀ (s : State) (p : Fin 8) (idx : Nat) (link : Fin 4) (found : Fin 3), s.memReady = true ∨ s.memState = 0 → ¬ (p = 4 ∧ s.port p = []) → s.mayServe p idx = false → 
      answers (.memoryRequestServed p idx link found) s fun t =>
        t = s) ∧
  (∀ (s : State) (idx : Nat) (link : Fin 4) (found : Fin 3), s.memReady = true ∨ s.memState = 0 → s.port 4 = [] → 
      answers (.memoryRequestServed 4 idx link found) s fun t =>
        t = s.jobsRun) ∧
  (∀ (s : State) (p : Fin 8) (idx : Nat) (r : Req) (link : Fin 4) (found : Fin 3), s.memReady = true ∨ s.memState = 0 → (s.port p)[idx]? = some r → s.mayServe p idx = true → 
      answers (.memoryRequestServed p idx link found) s fun t =>
        t = if !r.write && s.readsFull p r.addr then s else (s.requestServed p idx link found r).jobsRun) ∧
  (∀ (s : State) (p : Fin 8) (idx : Nat) (link : Fin 4) (found : Fin 3), s.memReady = false ∧ s.memState ≠ 0 → s.port p = [] → 
      answers (.memoryRequestServed p idx link found) s fun t =>
        t = s) ∧
  (∀ (s : State) (p : Fin 8) (idx : Nat) (link : Fin 4) (found : Fin 3), s.memReady = false ∧ s.memState ≠ 0 → s.port p ≠ [] → 
      answers (.memoryRequestServed p idx link found) s fun t =>
        (s.memState = 4 → t = s.wr F.MEM_STATUS_STATE 5) ∧
        (s.memState = 3 → t.on F.MEM_STATUS_PENDING_ENABLE = true ∧ t.mem = s.mem) ∧
        (s.memState = 3 ∧ s.on F.MEM_STATUS_PENDING_ENABLE = false → t.on F.SYS_PEND_STATUS_MEM_SR = true ∧ (s.mode ≠ mRESET → 6 ∈ t.raised)) ∧
        (s.memState ≠ 3 ∧ s.memState ≠ 4 → t = s)) ∧
  (∀ (s : State) (p : Fin 8) (idx : Nat), idx < (s.port p).length → 
      answers (.requestUrgent p idx) s fun t =>
        (t.port p = (s.port p).modify idx fun r => { r with urgent := true }) ∧
        t.on (F.MEM_PORT_STATUS_URGENT p) = true ∧ t.raised = s.raised) ∧
  (∀ (s : State) (p : Fin 8) (idx : Nat), (s.port p).length ≤ idx → idx < (s.queued p).length → 
      answers (.requestUrgent p idx) s fun t =>
        (t.on (F.MEM_PORT_STATUS_URGENT p) = true ∧ t.mem = { s.mem with late := t.mem.late } ∧ Tab.get (fun _ => 0) t.mem.late p = max (idx + 1) (Tab.get (fun _ => 0) s.mem.late p)) ∧
        ((t.queued p)[idx]?).map Req.urgent = some true) ∧
  (∀ (s : State) (p : Fin 8) (idx : Nat), (s.queued p).length ≤ idx → (s.port p).length ≤ idx → 
      answers (.requestUrgent p idx) s fun t =>
        t = s) ∧
  (∀ (s : State) (p : Fin 8) (u : Nat), s.on (F.MEM_PORT_CFG_PANIC_EN p) = true ∧ s.on (F.MEM_PORT_STATUS_PANIC p) = false → s.rd (F.MEM_PORT_PANIC_PANIC_HI p) < (s.queued p).length ∨ s.oldestUrgent p = true → 
      answers (.panicEntry p u) s fun t =>
        t.on (F.MEM_PORT_STATUS_PANIC p) = true ∧
        (Tab.get (fun _ => []) t.mem.panicHist p = ((Tab.get (fun _ => []) s.mem.panicHist p) ++ [u]).filter fun v => decide (u < v + 60 * 10 ^ 12)) ∧
        (if 8 < (Tab.get (fun _ => []) t.mem.panicHist p).length ∧ s.on (F.MEM_PORT_STATUS_FLAP p) = false then t.on (F.MEM_PORT_STATUS_FLAP p) = true ∧ (s.mode ≠ mRESET → 493 ∈ t.raised) else t.on (F.MEM_PORT_STATUS_FLAP p) = s.on (F.MEM_PORT_STATUS_FLAP p) ∧ t.raised = s.raised)) ∧
  (∀ (s : State) (p : Fin 8) (u : Nat), s.on (F.MEM_PORT_CFG_PANIC_EN p) = false ∨ s.on (F.MEM_PORT_STATUS_PANIC p) = true ∨ ((s.queued p).length ≤ s.rd (F.MEM_PORT_PANIC_PANIC_HI p) ∧ s.oldestUrgent p = false) → 
      answers (.panicEntry p u) s fun t =>
        t = s) ∧
  (∀ (s : State) (p : Fin 8), 
      answers (.panicExit p) s fun t =>
        if s.on (F.MEM_PORT_STATUS_FLAP p) = false ∧ (s.queued p).length < s.rd (F.MEM_PORT_PANIC_PANIC_LO p) ∧ s.oldestUrgent p = false then t = s.wr (F.MEM_PORT_STATUS_PANIC p) 0 else t = s) ∧
  (∀ (s : State) (p : Fin 8), s.mode ≠ mRESET → s.sys.dramStopped = false → 
      (answers (.panicFlapRelease p) s fun t =>
        t.on (F.MEM_PORT_STATUS_FLAP p) = false ∧ Tab.get (fun _ => []) t.mem.panicHist p = [] ∧ t.on (F.MEM_PORT_STATUS_PANIC p) = s.on (F.MEM_PORT_STATUS_PANIC p)) ∧
      (answers .tempFlapRelease s fun t =>
        t.on F.MEM_STATUS_TEMP_FLAP = false ∧ t.mem = { s.mem with tempHist := [], nominalRun := [], slowerRun := [] } ∧ t.rd F.MEM_STATUS_TEMP_HI = s.rd F.MEM_STATUS_TEMP_HI) ∧
      (answers .hotFlapRelease s fun t =>
        t.on F.MEM_STATUS_HOT_FLAP = false ∧ t.mem = { s.mem with hotHist := [], hotHeld := 0, coolRun := [] } ∧ t.rd F.MEM_STATUS_HOTSPOT = s.rd F.MEM_STATUS_HOTSPOT)) ∧
  (∀ (s : State) (ch : Fin 4) (bank : Fin 16), s.memState = 2 → s.panicNeeds ch bank = true → s.owed ch bank < s.rd F.MEM_REF_CFG_POSTPONE → 
      answers (.refresh ch bank true) s fun t =>
        t = { s with mem := { s.mem with postponed := t.mem.postponed } } ∧
        t.owed ch bank = s.owed ch bank + 1) ∧
  (∀ (s : State) (ch : Fin 4) (bank : Fin 16) (w : Bool), s.memState = 2 → w = false ∨ s.panicNeeds ch bank = false ∨ s.rd F.MEM_REF_CFG_POSTPONE ≤ s.owed ch bank → 
      answers (.refresh ch bank w) s fun t =>
        t.owed ch bank = 0 ∧ t.mem = { s.mem with postponed := t.mem.postponed, openRow := t.mem.openRow } ∧
        (∀ e ∈ t.mem.openRow, ¬ (e.1 / 32 = ch ∧ (e.1 % 16 = bank ∨ s.on F.MEM_REF_CFG_PB = false))) ∧
        (t.rd F.MEM_CNT_REF_FORCED_COUNT = if w = true ∧ s.panicNeeds ch bank = true then min (s.rd F.MEM_CNT_REF_FORCED_COUNT + 1) (2 ^ ((F.MEM_CNT_REF_FORCED_COUNT).hi - (F.MEM_CNT_REF_FORCED_COUNT).lo + 1) - 1) else s.rd F.MEM_CNT_REF_FORCED_COUNT)) ∧
  (∀ (s : State) (ch : Fin 4) (bank : Fin 16) (w : Bool), s.memState ≠ 2 → 
      answers (.refresh ch bank w) s fun t =>
        t = s) ∧
  (∀ (s : State) (ch : Fin 4) (code : Fin 16) (rate u : Nat), 
      answers (.refreshRatePoll ch code rate u) s fun t =>
        t.rd F.MEM_DRAM_RATE_CODE / 2 ^ (4 * ch.val) % 16 = code.val ∧
        (Tab.get (fun _ => 0) t.mem.aboveRun ch = (if 8 < rate then Tab.get (fun _ => 0) s.mem.aboveRun ch + 1 else 0)) ∧
        (Tab.get (fun _ => 0) t.mem.nominalRun ch = (if rate ≤ 8 then Tab.get (fun _ => 0) s.mem.nominalRun ch + 1 else 0)) ∧
        (Tab.get (fun _ => 0) t.mem.slowRate ch = rate) ∧
        (let run := if Tab.get (fun _ => 8) s.mem.rate ch ≤ rate then 0 else if rate = Tab.get (fun _ => 0) s.mem.slowRate ch then Tab.get (fun _ => 0) s.mem.slowerRun ch + 1 else 1; if 3 ≤ run ∧ s.on F.MEM_STATUS_TEMP_FLAP = false then Tab.get (fun _ => 8) t.mem.rate ch = rate ∧ Tab.get (fun _ => 0) t.mem.slowerRun ch = 0 else Tab.get (fun _ => 8) t.mem.rate ch = max (Tab.get (fun _ => 8) s.mem.rate ch) rate ∧ Tab.get (fun _ => 0) t.mem.slowerRun ch = run) ∧
        ((t.rd F.MEM_STATUS_TEMP_HI).testBit ch = ((decide (2 ≤ Tab.get (fun _ => 0) t.mem.aboveRun ch) || (s.rd F.MEM_STATUS_TEMP_HI).testBit ch) && !(decide (3 ≤ Tab.get (fun _ => 0) t.mem.nominalRun ch) && !s.on F.MEM_STATUS_TEMP_FLAP))) ∧
        (2 ≤ Tab.get (fun _ => 0) t.mem.aboveRun ch ∧ (s.rd F.MEM_STATUS_TEMP_HI).testBit ch = false → (s.mode ≠ mRESET → 495 ∈ t.raised) ∧ t.mem.tempHist = ((s.mem.tempHist) ++ [u]).filter fun v => decide (u < v + 60 * 10 ^ 12) ∧ t.on F.MEM_STATUS_TEMP_FLAP = (s.on F.MEM_STATUS_TEMP_FLAP || decide (8 < t.mem.tempHist.length)))) ∧
  (∀ (s : State) (ch : Fin 4) (bank : Fin 16) (share u : Nat), (Tab.get (fun _ => []) s.mem.windows ch = []) → 16 ≤ share ∧ share ≤ 256 → 
      answers (.hotspotWindow ch bank share u) s fun t =>
        (Tab.get (fun _ => 0) t.mem.hotRun ch = (if s.rd F.MEM_HOT_CFG_HOT_SHARE ≤ share then Tab.get (fun _ => 0) s.mem.hotRun ch + 1 else 0)) ∧
        (Tab.get (fun _ => 0) t.mem.coolRun ch = (if share + 16 < s.rd F.MEM_HOT_CFG_HOT_SHARE then Tab.get (fun _ => 0) s.mem.coolRun ch + 1 else 0)) ∧
        (s.mode ≠ mRESET ∧ s.rd F.MEM_HOT_CFG_DWELL ≤ Tab.get (fun _ => 0) t.mem.hotRun ch ∧ (s.rd F.MEM_STATUS_HOTSPOT).testBit ch = false → 490 ∈ t.raised) ∧
        (s.rd F.MEM_HOT_CFG_DWELL ≤ Tab.get (fun _ => 0) t.mem.hotRun ch ∧ (s.rd F.MEM_STATUS_HOTSPOT).testBit ch = false → (t.rd F.MEM_STATUS_HOTSPOT).testBit ch = true ∧ t.rd F.MEM_HOT_BANK_LAST / 2 ^ (8 * ch.val) % 256 = 16 * (bank.val) % 256 + min 15 ((share - 16) / 16) ∧ Tab.get (fun _ => []) t.mem.hotHist ch = ((Tab.get (fun _ => []) s.mem.hotHist ch) ++ [u]).filter fun v => decide (u < v + 60 * 10 ^ 12) ∧ t.on F.MEM_STATUS_HOT_FLAP = (s.on F.MEM_STATUS_HOT_FLAP || decide (8 < (Tab.get (fun _ => []) t.mem.hotHist ch).length)) ∧ t.mem.hotHeld.testBit ch = (s.mem.hotHeld.testBit ch || decide (8 < (Tab.get (fun _ => []) t.mem.hotHist ch).length))) ∧
        (Tab.get (fun _ => 0) t.mem.hotRun ch < s.rd F.MEM_HOT_CFG_DWELL → (t.rd F.MEM_STATUS_HOTSPOT).testBit ch = ((s.rd F.MEM_STATUS_HOTSPOT).testBit ch && !(decide (s.rd F.MEM_HOT_CFG_DWELL ≤ Tab.get (fun _ => 0) t.mem.coolRun ch) && !s.mem.hotHeld.testBit ch))) ∧
        (∀ k : Fin 4, k ≠ ch → (t.rd F.MEM_STATUS_HOTSPOT).testBit k = (s.rd F.MEM_STATUS_HOTSPOT).testBit k ∧ Tab.get (fun _ => []) t.mem.hotHist k = Tab.get (fun _ => []) s.mem.hotHist k) ∧
        (Tab.get (fun _ => []) t.mem.windows ch = [])) ∧
  (∀ (s : State) (ch : Fin 4) (bank : Fin 16) (share u w : Nat) (rest : List Nat), (Tab.get (fun _ => []) s.mem.windows ch = w :: rest) → 16 ≤ w % 1024 ∧ w % 1024 ≤ 256 ∧ w / 1024 < 16 → 
      answers (.hotspotWindow ch bank share u) s fun t =>
        (Tab.get (fun _ => 0) t.mem.hotRun ch = (if s.rd F.MEM_HOT_CFG_HOT_SHARE ≤ w % 1024 then Tab.get (fun _ => 0) s.mem.hotRun ch + 1 else 0)) ∧
        (Tab.get (fun _ => 0) t.mem.coolRun ch = (if w % 1024 + 16 < s.rd F.MEM_HOT_CFG_HOT_SHARE then Tab.get (fun _ => 0) s.mem.coolRun ch + 1 else 0)) ∧
        (s.mode ≠ mRESET ∧ s.rd F.MEM_HOT_CFG_DWELL ≤ Tab.get (fun _ => 0) t.mem.hotRun ch ∧ (s.rd F.MEM_STATUS_HOTSPOT).testBit ch = false → 490 ∈ t.raised) ∧
        (s.rd F.MEM_HOT_CFG_DWELL ≤ Tab.get (fun _ => 0) t.mem.hotRun ch ∧ (s.rd F.MEM_STATUS_HOTSPOT).testBit ch = false → (t.rd F.MEM_STATUS_HOTSPOT).testBit ch = true ∧ t.rd F.MEM_HOT_BANK_LAST / 2 ^ (8 * ch.val) % 256 = 16 * (w / 1024) % 256 + min 15 ((w % 1024 - 16) / 16) ∧ Tab.get (fun _ => []) t.mem.hotHist ch = ((Tab.get (fun _ => []) s.mem.hotHist ch) ++ [u]).filter fun v => decide (u < v + 60 * 10 ^ 12) ∧ t.on F.MEM_STATUS_HOT_FLAP = (s.on F.MEM_STATUS_HOT_FLAP || decide (8 < (Tab.get (fun _ => []) t.mem.hotHist ch).length)) ∧ t.mem.hotHeld.testBit ch = (s.mem.hotHeld.testBit ch || decide (8 < (Tab.get (fun _ => []) t.mem.hotHist ch).length))) ∧
        (Tab.get (fun _ => 0) t.mem.hotRun ch < s.rd F.MEM_HOT_CFG_DWELL → (t.rd F.MEM_STATUS_HOTSPOT).testBit ch = ((s.rd F.MEM_STATUS_HOTSPOT).testBit ch && !(decide (s.rd F.MEM_HOT_CFG_DWELL ≤ Tab.get (fun _ => 0) t.mem.coolRun ch) && !s.mem.hotHeld.testBit ch))) ∧
        (∀ k : Fin 4, k ≠ ch → (t.rd F.MEM_STATUS_HOTSPOT).testBit k = (s.rd F.MEM_STATUS_HOTSPOT).testBit k ∧ Tab.get (fun _ => []) t.mem.hotHist k = Tab.get (fun _ => []) s.mem.hotHist k) ∧
        (Tab.get (fun _ => []) t.mem.windows ch = rest ∧ t.mem.acts = s.mem.acts)) ∧
  (∀ (s : State) (found : Fin 3), s.on F.MEM_SCRUB_CFG_EN = true ∧ s.on F.MEM_CFG_INLINE = true → s.localSize ≠ 0 → s.memBlocked = false → State.engineTurn { s with mem := { s.mem with scrubWaits := true } } 7 = true → 
      answers (.scrubPassRead found) s fun t =>
        t.mem.scrub = (s.mem.scrub % s.localSize + 64) % s.localSize ∧
        t.mem.dram = s.mem.dram ∧ t.mem.lost = s.mem.lost ∧
        (found = 2 ∧ s.lostAt (s.mem.scrub % s.localSize / 8 * 8) = none ∧ s.mode ≠ mRESET → 488 ∈ t.raised) ∧
        (found = 1 ∧ s.lostAt (s.mem.scrub % s.localSize / 8 * 8) = none → Tab.get (fun _ => Cond.ok) t.mem.cond (s.mem.scrub % s.localSize / 8) = .ok)) ∧
  (∀ (s : State) (found : Fin 3), s.on F.MEM_SCRUB_CFG_EN = true ∧ s.on F.MEM_CFG_INLINE = true → s.localSize ≠ 0 → s.memBlocked = false → State.engineTurn { s with mem := { s.mem with scrubWaits := true } } 7 = false → 
      answers (.scrubPassRead found) s fun t =>
        t = { s with mem := { s.mem with scrubWaits := true } }) ∧
  (∀ (s : State) (found : Fin 3), s.on F.MEM_SCRUB_CFG_EN = true ∧ s.on F.MEM_CFG_INLINE = true → s.localSize ≠ 0 → (s.memBlocked = true ∧ (s.memState ≠ 3 ∨ Tab.get (fun _ => 0) s.mem.drain 7 = 0)) → 
      answers (.scrubPassRead found) s fun t =>
        (s.memState = 4 → t = State.wr { s with mem := { s.mem with scrubWaits := true } } F.MEM_STATUS_STATE 5) ∧
        (s.memState = 3 → t.on F.MEM_STATUS_PENDING_ENABLE = true ∧ t.mem = { s.mem with scrubWaits := true }) ∧
        (s.memState = 3 ∧ s.on F.MEM_STATUS_PENDING_ENABLE = false → t.on F.SYS_PEND_STATUS_MEM_SR = true ∧ (s.mode ≠ mRESET → 6 ∈ t.raised)) ∧
        (s.memState ≠ 3 ∧ s.memState ≠ 4 → t = { s with mem := { s.mem with scrubWaits := true } })) ∧
  (∀ (s : State) (found : Fin 3), s.on F.MEM_SCRUB_CFG_EN = false ∨ s.on F.MEM_CFG_INLINE = false ∨ s.localSize = 0 → 
      answers (.scrubPassRead found) s fun t =>
        t = s) ∧
  (∀ (s : State) (read : Bool) (ch : Fin 4) (rank : Bool) (ma op : Byte), s.mode ≠ mRESET → s.sys.dramStopped = false → s.on F.MEM_MR_CMD_BUSY = false ∧ (rank = false ∨ s.on F.MEM_CFG_RANKS = true) → 
      answers (.mrCommand read ch rank ma op) s fun t =>
        t.on F.MEM_MR_CMD_BUSY = true ∧ t.on F.MEM_MR_CMD_READ = read ∧ t.rd F.MEM_MR_CMD_CH = ch ∧ t.on F.MEM_MR_CMD_RANK = rank ∧ t.rd F.MEM_MR_CMD_MA = ma.toNat ∧ t.rd F.MEM_MR_CMD_OP = op.toNat) ∧
  (∀ (s : State) (read : Bool) (ch : Fin 4) (rank : Bool) (ma op : Byte), s.mode ≠ mRESET → s.sys.dramStopped = false → s.on F.MEM_MR_CMD_BUSY = true ∨ (rank = true ∧ s.on F.MEM_CFG_RANKS = false) → 
      answers (.mrCommand read ch rank ma op) s fun t =>
        rejected s t) ∧
  (∀ (s : State) (data : Byte), s.on F.MEM_MR_CMD_BUSY = true → 
      answers (.mrCommandComplete data) s fun t =>
        t.on F.MEM_MR_CMD_BUSY = false ∧ t.rd F.MEM_MR_DATA_DATA = if s.on F.MEM_MR_CMD_READ then data.toNat else s.rd F.MEM_MR_DATA_DATA) ∧
  (∀ (s : State) (data : Byte), s.on F.MEM_MR_CMD_BUSY = false → 
      answers (.mrCommandComplete data) s fun t =>
        t = s) ∧
  (∀ (s : State), s.mode ≠ mRESET → s.sys.dramStopped = false → s.on F.MEM_TRN_CTRL_BUSY = false → 
      answers .trainingSweep s fun t =>
        t = if s.memReady then { s.accessed.wr F.MEM_TRN_CTRL_BUSY 1 with mem := { s.mem with swept := s.sweepDelay 0 } } else s.accessed) ∧
  (∀ (s : State), s.mode ≠ mRESET → s.sys.dramStopped = false → s.on F.MEM_TRN_CTRL_BUSY = true → 
      answers .trainingSweep s fun t =>
        rejected s t) ∧
  (∀ (s : State) (masks : List (BitVec 16)), s.on F.MEM_TRN_CTRL_BUSY = true → 
      answers (.trainingSweepComplete masks) s fun t =>
        t = (((s.swept masks).wr F.MEM_TRN_CTRL_BUSY 0).raise 494).memResume ∧
        (s.boot.memJobs = [] ∧ s.boot.tx = none ∧ s.mem.srDue = false ∧ s.mem.initDue = false → t.on F.MEM_TRN_CTRL_BUSY = false ∧ (s.mode ≠ mRESET → 494 ∈ t.raised) ∧ ∀ k : Fin 64, k.val ≤ s.rd F.MEM_TRN_CFG_STEPS → t.rd (F.MEM_TRN_MASK_PASS k) = (masks.getD k 0).toNat)) ∧
  (∀ (s : State) (masks : List (BitVec 16)), s.on F.MEM_TRN_CTRL_BUSY = false → 
      answers (.trainingSweepComplete masks) s fun t =>
        t = s)

/-- Lanes, port halves, Low Power Idle and the 802.1AS clock. A lane's monitor enters outside its masks with its event and history,
latches at the ninth entry in 60 s, and exits while not held; a release clears the lane's latch. A loopback is taken on a lane whose
user is disabled, and rejected otherwise. A half of a port is enabled at once, or latched as pending while it shuts down; a disabled
one starts its shutdown, whose end clears the pending request. UP of a port follows its block lock and its lane's LOS. LPI is
entered by a direction that works and sends nothing, and left by a wake. A step moves the 802.1AS clock by its nanoseconds, or is
slewed while point cycles run on it; a rate takes effect without a jump; SNAP latches the clock; a read of TS_INFO removes the head
timestamp and shows the next. Commands shown to complete here: losEntry, lolEntry, losExit, lolExit, laneFlapRelease,
loopbackSelect, txEnable, txDisable, rxEnable, rxDisable, laneShutdownComplete, lpiEntry, lpiWake, ptpStep, ptpRate, ptpSnap,
syncSet, syncHoldover, ptpTsRead. -/
def Obligations.LinkLanesAndClock : Prop :=
  (∀ (s : State) (l : Fin 4) (u : Nat), s.mode ≠ mRESET → s.rd (F.LNK_LANE_ST_USE l) ≠ 0 → s.rd (F.LNK_LANE_ST_USE l) < 2 ∨ s.on (F.LNK_ETH_STATUS_RX_LPI (s.rd (F.LNK_LANE_ST_USE l) - 2)) = false → s.on (F.LNK_LANE_ST_LOS l) = false → 
      answers (.losEntry l false u) s fun t =>
        t.on (F.LNK_LANE_ST_LOS l) = true ∧ 498 ∈ t.raised ∧
        (Tab.get (fun _ => []) t.lnk.laneHist (2 * l.val + 0) = ((Tab.get (fun _ => []) s.lnk.laneHist (2 * l.val + 0)) ++ [u]).filter fun v => decide (u < v + 60 * 10 ^ 12)) ∧
        (8 < (Tab.get (fun _ => []) t.lnk.laneHist (2 * l.val + 0)).length ∧ Tab.get (fun _ => 0) s.lnk.laneHeld (2 * l.val + 0) = 0 → t.on (F.LNK_LANE_ST_FLAP l) = true ∧ 500 ∈ t.raised ∧ Tab.get (fun _ => 0) t.lnk.laneHeld (2 * l.val + 0) = 1) ∧
        (∀ e : Fin 2, t.on (F.LNK_ETH_STATUS_UP e) = (s.ethEn e && s.on (F.LNK_ETH_STATUS_BLOCK_LOCK e) && !(List.range 4).any fun j => s.rd (F.LNK_LANE_ST_USE j) == e.val + 2 && t.on (F.LNK_LANE_ST_LOS j)) ∧ (t.on (F.LNK_ETH_STATUS_UP e) ≠ s.on (F.LNK_ETH_STATUS_UP e) ∧ s.mode ≠ mRESET → 497 ∈ t.raised))) ∧
  (∀ (s : State) (l : Fin 4) (idle : Bool) (u : Nat), s.rd (F.LNK_LANE_ST_USE l) = 0 ∨ idle = true ∨ s.mode = mRESET ∨ s.on (F.LNK_LANE_ST_LOS l) = true ∨ (2 ≤ s.rd (F.LNK_LANE_ST_USE l) ∧ s.on (F.LNK_ETH_STATUS_RX_LPI (s.rd (F.LNK_LANE_ST_USE l) - 2)) = true) → 
      answers (.losEntry l idle u) s fun t =>
        t = s) ∧
  (∀ (s : State) (l : Fin 4) (u : Nat), s.mode ≠ mRESET → s.rd (F.LNK_LANE_ST_USE l) ≠ 0 → s.on (F.LNK_LANE_ST_LOS l) = false → s.on (F.LNK_LANE_ST_LOL l) = false → 
      answers (.lolEntry l u) s fun t =>
        t.on (F.LNK_LANE_ST_LOL l) = true ∧ 499 ∈ t.raised ∧
        (Tab.get (fun _ => []) t.lnk.laneHist (2 * l.val + 1) = ((Tab.get (fun _ => []) s.lnk.laneHist (2 * l.val + 1)) ++ [u]).filter fun v => decide (u < v + 60 * 10 ^ 12)) ∧
        (8 < (Tab.get (fun _ => []) t.lnk.laneHist (2 * l.val + 1)).length ∧ Tab.get (fun _ => 0) s.lnk.laneHeld (2 * l.val + 1) = 0 → t.on (F.LNK_LANE_ST_FLAP l) = true ∧ 500 ∈ t.raised ∧ Tab.get (fun _ => 0) t.lnk.laneHeld (2 * l.val + 1) = 1)) ∧
  (∀ (s : State) (l : Fin 4) (u : Nat), s.rd (F.LNK_LANE_ST_USE l) = 0 ∨ s.on (F.LNK_LANE_ST_LOS l) = true ∨ s.mode = mRESET ∨ s.on (F.LNK_LANE_ST_LOL l) = true → 
      answers (.lolEntry l u) s fun t =>
        t = s) ∧
  (∀ (s : State) (l : Fin 4), (Tab.get (fun _ => 0) s.lnk.laneHeld (2 * l.val + 0) ≠ 1) → 
      answers (.losExit l) s fun t =>
        t.on (F.LNK_LANE_ST_LOS l) = false ∧ t.on (F.LNK_LANE_ST_LOL l) = s.on (F.LNK_LANE_ST_LOL l) ∧ t.lnk = s.lnk ∧
        (∀ e : Fin 2, t.on (F.LNK_ETH_STATUS_UP e) = (s.ethEn e && s.on (F.LNK_ETH_STATUS_BLOCK_LOCK e) && !(List.range 4).any fun j => s.rd (F.LNK_LANE_ST_USE j) == e.val + 2 && t.on (F.LNK_LANE_ST_LOS j)) ∧ (t.on (F.LNK_ETH_STATUS_UP e) ≠ s.on (F.LNK_ETH_STATUS_UP e) ∧ s.mode ≠ mRESET → 497 ∈ t.raised))) ∧
  (∀ (s : State) (l : Fin 4), (Tab.get (fun _ => 0) s.lnk.laneHeld (2 * l.val + 1) ≠ 1) → 
      answers (.lolExit l) s fun t =>
        t.on (F.LNK_LANE_ST_LOL l) = false ∧ t.on (F.LNK_LANE_ST_LOS l) = s.on (F.LNK_LANE_ST_LOS l) ∧ t.lnk = s.lnk) ∧
  (∀ (s : State) (l : Fin 4), (Tab.get (fun _ => 0) s.lnk.laneHeld (2 * l.val + 0) = 1) → 
      answers (.losExit l) s fun t =>
        t = s) ∧
  (∀ (s : State) (l : Fin 4), (Tab.get (fun _ => 0) s.lnk.laneHeld (2 * l.val + 1) = 1) → 
      answers (.lolExit l) s fun t =>
        t = s) ∧
  (∀ (s : State) (l : Fin 4), s.mode ≠ mRESET → 
      answers (.laneFlapRelease l) s fun t =>
        t.on (F.LNK_LANE_ST_FLAP l) = false ∧
        (∀ k : Fin 8, if k.val / 2 = l.val then Tab.get (fun _ => []) t.lnk.laneHist k = [] ∧ Tab.get (fun _ => 0) t.lnk.laneHeld k = 0 else Tab.get (fun _ => []) t.lnk.laneHist k = Tab.get (fun _ => []) s.lnk.laneHist k ∧ Tab.get (fun _ => 0) t.lnk.laneHeld k = Tab.get (fun _ => 0) s.lnk.laneHeld k)) ∧
  (∀ (s : State) (l : Fin 4) (loop : Fin 8) (prbs : Fin 4), s.mode ≠ mRESET → loop.val ≤ 3 ∧ prbs.val ≠ 3 → s.userOn (s.rd (F.LNK_LANE_ST_USE l)) = false → 
      answers (.loopbackSelect l loop prbs) s fun t =>
        t.rd (F.LNK_LANE_TEST_LOOP l) = loop ∧ t.rd (F.LNK_LANE_TEST_PRBS l) = prbs) ∧
  (∀ (s : State) (l : Fin 4) (loop : Fin 8) (prbs : Fin 4), s.mode ≠ mRESET → 3 < loop.val ∨ prbs.val = 3 ∨ s.userOn (s.rd (F.LNK_LANE_ST_USE l)) = true → 
      answers (.loopbackSelect l loop prbs) s fun t =>
        rejected s t) ∧
  (∀ (s : State) (e : Fin 2), s.mode ≠ mRESET → s.lnk.closing.testBit (2 * e.val + 0) = false → 
      answers (.txEnable e) s fun t =>
        t = s.accessed.wr (F.LNK_ETH_CTRL_TX_EN e) 1) ∧
  (∀ (s : State) (e : Fin 2), s.mode ≠ mRESET → s.lnk.closing.testBit (2 * e.val + 0) = true → s.on (F.LNK_ETH_STATUS_TX_PENDING e) = false → 
      answers (.txEnable e) s fun t =>
        t.on (F.LNK_ETH_CTRL_TX_EN e) = true ∧ t.on (F.LNK_ETH_STATUS_TX_PENDING e) = true ∧ 6 ∈ t.raised ∧ t.on F.SYS_PEND_STATUS_LNK_TX = true) ∧
  (∀ (s : State) (e : Fin 2), s.mode ≠ mRESET → s.lnk.closing.testBit (2 * e.val + 0) = true → s.on (F.LNK_ETH_STATUS_TX_PENDING e) = true → 
      answers (.txEnable e) s fun t =>
        t = s.accessed.wr (F.LNK_ETH_CTRL_TX_EN e) 1) ∧
  (∀ (s : State) (e : Fin 2), s.mode ≠ mRESET → 
      answers (.txDisable e) s fun t =>
        t.on (F.LNK_ETH_CTRL_TX_EN e) = false ∧ t.on (F.LNK_ETH_STATUS_TX_PENDING e) = false ∧ t.lnk.closing.testBit (2 * e.val + 0) = (s.lnk.closing.testBit (2 * e.val + 0) || s.on (F.LNK_ETH_CTRL_TX_EN e)) ∧ t.on F.SYS_PEND_STATUS_LNK_TX = s.on (F.LNK_ETH_STATUS_TX_PENDING (1 - e.val))) ∧
  (∀ (s : State) (e : Fin 2), s.mode ≠ mRESET → s.lnk.closing.testBit (2 * e.val + 1) = false → 
      answers (.rxEnable e) s fun t =>
        t = s.accessed.wr (F.LNK_ETH_CTRL_RX_EN e) 1) ∧
  (∀ (s : State) (e : Fin 2), s.mode ≠ mRESET → s.lnk.closing.testBit (2 * e.val + 1) = true → s.on (F.LNK_ETH_STATUS_RX_PENDING e) = false → 
      answers (.rxEnable e) s fun t =>
        t.on (F.LNK_ETH_CTRL_RX_EN e) = true ∧ t.on (F.LNK_ETH_STATUS_RX_PENDING e) = true ∧ 6 ∈ t.raised ∧ t.on F.SYS_PEND_STATUS_LNK_RX = true) ∧
  (∀ (s : State) (e : Fin 2), s.mode ≠ mRESET → s.lnk.closing.testBit (2 * e.val + 1) = true → s.on (F.LNK_ETH_STATUS_RX_PENDING e) = true → 
      answers (.rxEnable e) s fun t =>
        t = s.accessed.wr (F.LNK_ETH_CTRL_RX_EN e) 1) ∧
  (∀ (s : State) (e : Fin 2), s.mode ≠ mRESET → 
      answers (.rxDisable e) s fun t =>
        t.on (F.LNK_ETH_CTRL_RX_EN e) = false ∧ t.on (F.LNK_ETH_STATUS_RX_PENDING e) = false ∧ t.lnk.closing.testBit (2 * e.val + 1) = (s.lnk.closing.testBit (2 * e.val + 1) || s.on (F.LNK_ETH_CTRL_RX_EN e)) ∧ t.on F.SYS_PEND_STATUS_LNK_RX = s.on (F.LNK_ETH_STATUS_RX_PENDING (1 - e.val))) ∧
  (∀ (s : State) (e : Fin 2), s.lnk.closing.testBit (2 * e.val) = true → 
      answers (.laneShutdownComplete e 0) s fun t =>
        t.lnk.closing.testBit (2 * e.val) = false ∧ t.on (F.LNK_ETH_STATUS_TX_LPI e) = false ∧ t.on (F.LNK_ETH_STATUS_TX_PENDING e) = false ∧ t.on F.SYS_PEND_STATUS_LNK_TX = s.on (F.LNK_ETH_STATUS_TX_PENDING (1 - e.val)) ∧ t.on (F.LNK_ETH_CTRL_TX_EN e) = s.on (F.LNK_ETH_CTRL_TX_EN e)) ∧
  (∀ (s : State) (e : Fin 2), s.lnk.closing.testBit (2 * e.val + 1) = true → 
      answers (.laneShutdownComplete e 1) s fun t =>
        t.lnk.closing.testBit (2 * e.val + 1) = false ∧ t.on (F.LNK_ETH_STATUS_RX_LPI e) = false ∧ t.on (F.LNK_ETH_STATUS_BLOCK_LOCK e) = false ∧ t.on (F.LNK_ETH_STATUS_UP e) = false ∧ t.on (F.LNK_ETH_STATUS_RX_PENDING e) = false ∧ t.on (F.LNK_ETH_CTRL_RX_EN e) = s.on (F.LNK_ETH_CTRL_RX_EN e)) ∧
  (∀ (s : State) (e k : Fin 2), s.lnk.closing.testBit (2 * e.val + k.val) = false → 
      answers (.laneShutdownComplete e k) s fun t =>
        t = s) ∧
  (∀ (s : State) (e : Fin 2), s.on (F.LNK_ETH_CTRL_LPI_EN e) = true ∧ s.ethEn e = true → 
      (answers (.lpiEntry e 0) s fun t =>
        t = if s.txOn e = true ∧ s.outOf e = [] then s.wr (F.LNK_ETH_STATUS_TX_LPI e) 1 else s) ∧
      (answers (.lpiEntry e 1) s fun t =>
        t = if s.on (F.LNK_ETH_CTRL_RX_EN e) = true ∧ s.lnk.closing.testBit (2 * e.val + 1) = false then s.wr (F.LNK_ETH_STATUS_RX_LPI e) 1 else s)) ∧
  (∀ (s : State) (e k : Fin 2), s.on (F.LNK_ETH_CTRL_LPI_EN e) = false ∨ s.ethEn e = false → 
      answers (.lpiEntry e k) s fun t =>
        t = s) ∧
  (∀ (s : State) (e : Fin 2), 
      (answers (.lpiWake e 0) s fun t =>
        t = s.wr (F.LNK_ETH_STATUS_TX_LPI e) 0) ∧
      (answers (.lpiWake e 1) s fun t =>
        t = s.wr (F.LNK_ETH_STATUS_RX_LPI e) 0)) ∧
  (∀ (s : State) (step : Word) (u : Nat), s.mode ≠ mRESET → s.running = false ∨ s.on F.SYS_PB_CFG_TIME_SRC = false → 
      answers (.ptpStep step u) s fun t =>
        (t.ptpNs u : Int) = (s.ptpNs u + step.toInt) % 2 ^ 64 ∧ t.lnk.slew = (s.ptpAtTime u).2) ∧
  (∀ (s : State) (step : Word) (u : Nat), s.mode ≠ mRESET → s.running = true ∧ s.on F.SYS_PB_CFG_TIME_SRC = true → 
      answers (.ptpStep step u) s fun t =>
        t.ptpNs u = s.ptpNs u ∧ t.lnk.slew = (s.ptpAtTime u).2 + step.toInt * 10 ^ 6 * 2 ^ 40 ∧ t.on F.LNK_PTP_STATUS_SLEWING = (t.lnk.slew != 0)) ∧
  (∀ (s : State) (rate : Word) (u : Nat), s.mode ≠ mRESET → 
      (answers (.ptpRate rate u) s fun t =>
        t.reg R.LNK_PTP_RATE = rate ∧ t.ptpNs u = s.ptpNs u ∧ t.lnk.slew = (s.ptpAtTime u).2) ∧
      (answers (.ptpSnap u) s fun t =>
        t.rd F.LNK_PTP_TIME_LO_NS + 2 ^ 32 * t.rd F.LNK_PTP_TIME_HI_NS = s.ptpNs u)) ∧
  (∀ (s : State), s.mode ≠ mRESET → 
      answers .syncSet s fun t =>
        t = s.accessed.wr F.LNK_PTP_STATUS_SYNCED 1) ∧
  (∀ (s : State), 
      answers .syncHoldover s fun t =>
        t = s.wr F.LNK_PTP_STATUS_SYNCED 0) ∧
  (∀ (s : State) (x y : Stamp) (rest : List Stamp), s.mode ≠ mRESET → s.lnk.stamps = x :: y :: rest → 
      answers .ptpTsRead s fun t =>
        t.sys.rdata = (s.reg R.LNK_PTP_TS_INFO).toNat ∧ t.lnk.stamps = y :: rest ∧
        t.rd F.LNK_PTP_TS_LO_NS = y.ns % 2 ^ 32 ∧ t.rd F.LNK_PTP_TS_HI_NS = y.ns / 2 ^ 32 % 2 ^ 32 ∧ t.on F.LNK_PTP_TS_INFO_VALID = true ∧ t.on F.LNK_PTP_TS_INFO_DIR = y.tx ∧ t.rd F.LNK_PTP_TS_INFO_PORT = y.port % 2 ∧ t.rd F.LNK_PTP_TS_INFO_SEQ_ID = y.seqId % 2 ^ 16 ∧ t.on F.LNK_PTP_STATUS_TS_AVAIL = true) ∧
  (∀ (s : State) (x : Stamp), s.mode ≠ mRESET → s.lnk.stamps = [] ∨ s.lnk.stamps = [x] → 
      answers .ptpTsRead s fun t =>
        t.sys.rdata = (s.reg R.LNK_PTP_TS_INFO).toNat ∧ t.lnk.stamps = [] ∧
        t.reg R.LNK_PTP_TS_INFO = 0 ∧ t.on F.LNK_PTP_STATUS_TS_AVAIL = false)

/-- PCIe requests, Ethernet frames and the point packetiser. A configuration request completes with the register's word, or takes
its write. A BAR0 request of at most two DWs acts as the register accesses it is made of, its data poisoned in the tiller memory
window where it carries EP, one of more than two DWs is aborted, and one with EP raises 496; a BAR2 request enters port HOST_IN cut
at 64-byte bursts. A reset of the link clears the configuration space. A link change shows and raises 497, a PCIe link no wider than
its lanes. A received frame is counted as bad, discarded, or passed on with its timestamp. The packetiser takes the next record,
past a wrap marker, into its port's packet, or discards it, and wakes a controller that does not serve; a full, failing or timed-out
packet is sent; a frame that has left is counted and lets RPTR move. A completion answers the oldest window read. A request that
does not reach its unit changes nothing. Commands shown to complete here: configRequest, bar0Request, bar2Request, pcieReset,
linkChange, ethFrameReceived, packetiserRecord, flushTimer, packetSend, frameLeftPort, pcieCompletion. -/
def Obligations.LinkTraffic : Prop :=
  (∀ (s : State) (r : CfgReg) (w : Word), s.pcieOn = true → 
      (answers (.configRequest true r w) s fun t =>
        t.lnk.comps = s.lnk.comps ++ [([], false)] ∧
        (r = .command → t.lnk.memEn = w.getLsbD 1 ∧ t.on F.LNK_STATUS_BME = w.getLsbD 2) ∧
        (r = .bar0 → t.lnk.bar0 = (s.lnk.bar0 / 2 ^ 32 * 2 ^ 32 + w.toNat) / 2 ^ 26 * 2 ^ 26) ∧
        (r = .bar1 → t.lnk.bar0 = (w.toNat * 2 ^ 32 + s.lnk.bar0 % 2 ^ 32) / 2 ^ 26 * 2 ^ 26) ∧
        (r = .bar2 → t.lnk.bar2 = if s.rd F.LNK_PCIE_CFG_BAR2_SIZE = 0 then s.lnk.bar2 else (s.lnk.bar2 / 2 ^ 32 * 2 ^ 32 + w.toNat) / 2 ^ s.rd F.LNK_PCIE_CFG_BAR2_SIZE * 2 ^ s.rd F.LNK_PCIE_CFG_BAR2_SIZE) ∧
        (r = .bar3 → t.lnk.bar2 = if s.rd F.LNK_PCIE_CFG_BAR2_SIZE = 0 then s.lnk.bar2 else (w.toNat * 2 ^ 32 + s.lnk.bar2 % 2 ^ 32) / 2 ^ s.rd F.LNK_PCIE_CFG_BAR2_SIZE * 2 ^ s.rd F.LNK_PCIE_CFG_BAR2_SIZE) ∧
        (r = .msixControl → t.lnk.msixEn = w.getLsbD 15 ∧ t.lnk.msixMask = w.getLsbD 14) ∧
        (r = .deviceControl ∧ w.getLsbD 15 = false → t.lnk.maxPayload = Word.field w 7 5 ∧ t.lnk.maxRead = Word.field w 14 12) ∧
        (r = .deviceControl ∧ w.getLsbD 15 = true → t.lnk.memEn = false ∧ t.lnk.msixEn = false ∧ t.lnk.bar0 = 0 ∧ t.lnk.bar2 = 0 ∧ t.on F.LNK_STATUS_BME = false) ∧
        (r = .linkControl → t.lnk.aspm = Word.field w 1 0) ∧
        (r = .powerControl → t.lnk.d3 = (if Word.field w 1 0 = 0 then false else if Word.field w 1 0 = 3 then true else s.lnk.d3)) ∧
        ([CfgReg.ident, .classCode, .subsystem, .msixTable, .msixPba, .deviceCap, .linkCap, .other].contains r = true → t.lnk = { s.lnk with comps := t.lnk.comps } ∧ t.on F.LNK_STATUS_BME = s.on F.LNK_STATUS_BME)) ∧
      (answers (.configRequest false r w) s fun t =>
        t.lnk.comps = s.lnk.comps ++ [(bytesOf 4 (match r with | .ident => 2 ^ 16 * 0x1152 + Config.vendorId.toNat | .command => 4 * s.rd F.LNK_STATUS_BME + 2 * s.lnk.memEn.toNat | .classCode => 0x11800000 + Config.revisionId.toNat | .bar0 => s.lnk.bar0 % 2 ^ 32 + 4 | .bar1 => s.lnk.bar0 / 2 ^ 32 | .bar2 => (if s.rd F.LNK_PCIE_CFG_BAR2_SIZE = 0 then 0 else s.lnk.bar2 % 2 ^ 32 + 12) | .bar3 => s.lnk.bar2 / 2 ^ 32 | .subsystem => Config.subsystemIds.toNat | .msixControl => 2 ^ 15 * s.lnk.msixEn.toNat + 2 ^ 14 * s.lnk.msixMask.toNat + 31 | .msixTable => 0xC08000 | .msixPba => 0xC09000 | .deviceCap => (Word.setField (Word.setField (BitVec.ofNat 32 (Config.freeValue s.freeIx % 2 ^ 32)) 2 0 2) 28 28 1).toNat | .deviceControl => (Word.setField (Word.setField (Word.setField (BitVec.ofNat 32 (Config.freeValue s.freeIx % 2 ^ 32)) 7 5 s.lnk.maxPayload) 14 12 s.lnk.maxRead) 15 15 0).toNat | .linkCap => (Word.setField (Word.setField (BitVec.ofNat 32 (Config.freeValue s.freeIx % 2 ^ 32)) 10 10 (s.rd F.LNK_PCIE_CFG_L0S_SUP)) 11 11 (s.rd F.LNK_PCIE_CFG_L1_SUP)).toNat | .linkControl => (Word.setField (BitVec.ofNat 32 (Config.freeValue s.freeIx % 2 ^ 32)) 1 0 s.lnk.aspm).toNat | .powerControl => (Word.setField (BitVec.ofNat 32 (Config.freeValue s.freeIx % 2 ^ 32)) 1 0 (if s.lnk.d3 then 3 else 0)).toNat | .other => Config.freeValue s.freeIx % 2 ^ 32), false)])) ∧
  (∀ (s : State) (write : Bool) (r : CfgReg) (w : Word), s.pcieOn = false → 
      answers (.configRequest write r w) s fun t =>
        t = s) ∧
  (∀ (s : State) (a : BitVec 26) (v : Word) (u : Nat), s.barOn = true → a.toNat % 4 = 0 → 
      (answers (.bar0Request true a 0 (bytesOf 4 v.toNat) false u) s fun t =>
        t = (s.count 8 3 0 1).regWrite 1 a.toNat v u) ∧
      (answers (.bar0Request false a 4 [] false u) s fun t =>
        t.lnk.comps = s.lnk.comps ++ [(bytesOf 4 t.sys.rdata, false)] ∧ t.sys.rdata = (((s.count 8 3 0 1).linkSeen a.toNat 4 (some u)).regRead a.toNat 4).sys.rdata)) ∧
  (∀ (s : State) (a : BitVec 26) (n : Nat) (d : List Byte) (u : Nat), s.barOn = true → 0 < n ∧ a.toNat % 4 + n ≤ 8 → 0 < d.length ∧ a.toNat % 4 + d.length ≤ 8 → 
      (answers (.bar0Request false a n d false u) s fun t =>
        t = (((s.count 8 3 0 1).linkSeen a.toNat n (some u)).barRead a.toNat n).2.complete (((s.count 8 3 0 1).linkSeen a.toNat n (some u)).barRead a.toNat n).1 false) ∧
      (answers (.bar0Request true a n d false u) s fun t =>
        t = (s.count 8 3 0 1).barWrite a.toNat d u) ∧
      (answers (.bar0Request true a n d true u) s fun t =>
        t = (s.count 8 3 0 1).barPoison a.toNat d u)) ∧
  (∀ (s : State) (a : BitVec 26) (n : Nat) (ep : Bool) (u : Nat), s.barOn = true → 
      (answers (.bar0Request false a 0 [] ep u) s fun t =>
        t = (s.count 8 3 0 1)) ∧
      (answers (.bar0Request true a n [] ep u) s fun t =>
        t = (s.count 8 3 0 1))) ∧
  (∀ (s : State) (k : Fin 192) (j : Fin 0x4000) (v : Word) (u : Nat), s.barOn = true → s.mode ≠ mRESET ∧ s.tilStopped = false → k ≠ 0 ∨ s.on F.TIL_LOAD_CFG_BCAST = false → 
      answers (.bar0Request true (BitVec.ofNat 26 (0x2010000 + 0x20000 * k.val + 4 * j.val)) 0 (bytesOf 4 v.toNat) true u) s fun t =>
        Tab.get (fun _ => .ok) (t.tiller k).dmemCond j = .poison ∧ 496 ∈ t.raised) ∧
  (∀ (s : State) (a : BitVec 26) (n : Nat) (d : List Byte) (u : Nat), s.barOn = true → 8 < a.toNat % 4 + n → 8 < a.toNat % 4 + d.length → 
      (answers (.bar0Request false a n [] false u) s fun t =>
        t.lnk.comps = s.lnk.comps ++ [([], false)] ∧ 3 ∈ t.raised) ∧
      (answers (.bar0Request true a n d false u) s fun t =>
        t = (s.count 8 3 0 1).raise 3) ∧
      (answers (.bar0Request true a n d true u) s fun t =>
        t = ((s.count 8 3 0 1).raise 3).raise 496)) ∧
  (∀ (s : State) (a : BitVec 26) (v : Word) (u : Nat), s.barOn = true → a.toNat < 0x2000000 → 
      answers (.bar0Request true a 0 (bytesOf 4 v.toNat) true u) s fun t =>
        t = (s.count 8 3 0 1).raise 496) ∧
  (∀ (s : State) (write : Bool) (a : BitVec 26) (n : Nat) (d : List Byte) (ep : Bool) (u : Nat), s.barOn = false → 
      (answers (.bar0Request write a n d ep u) s fun t =>
        t = s) ∧
      (answers (.bar2Request write a.toNat n d ep) s fun t =>
        t = s)) ∧
  (∀ (s : State) (o n : Nat) (d : List Byte) (ep : Bool), s.barOn = true → s.rd F.LNK_PCIE_CFG_BAR2_SIZE ≠ 0 ∧ o < 2 ^ s.rd F.LNK_PCIE_CFG_BAR2_SIZE → n ≤ 512 ∧ d.length ≤ 512 → 
      (answers (.bar2Request false o n d ep) s fun t =>
        (t.port 2).take (s.port 2).length = s.port 2 ∧
        ((((t.port 2).drop (s.port 2).length).map Req.len).sum = n ∧ (∀ r ∈ ((t.port 2).drop (s.port 2).length), r.write = false ∧ r.addr % 64 + r.len ≤ 64 ∧ r.urgent = false)) ∧
        (∀ i : Fin 9, i.val < ((t.port 2).drop (s.port 2).length).length → (((t.port 2).drop (s.port 2).length).map Req.addr).getD i 0 = o + ((((t.port 2).drop (s.port 2).length).take i).map Req.len).sum)) ∧
      (answers (.bar2Request true o n d ep) s fun t =>
        (t.port 2).take (s.port 2).length = s.port 2 ∧
        ((((t.port 2).drop (s.port 2).length).map Req.data).flatten = d ∧ (∀ r ∈ ((t.port 2).drop (s.port 2).length), r.write = true ∧ r.len = r.data.length ∧ r.addr % 64 + r.len ≤ 64 ∧ r.poison = ep)) ∧
        (∀ i : Fin 9, i.val < ((t.port 2).drop (s.port 2).length).length → (((t.port 2).drop (s.port 2).length).map Req.addr).getD i 0 = o + ((((t.port 2).drop (s.port 2).length).take i).map Req.len).sum) ∧
        (ep = true → 496 ∈ t.raised))) ∧
  (∀ (s : State) (o n : Nat), s.barOn = true → s.rd F.LNK_PCIE_CFG_BAR2_SIZE ≠ 0 ∧ o < 2 ^ s.rd F.LNK_PCIE_CFG_BAR2_SIZE → 512 < n → 
      answers (.bar2Request false o n [] false) s fun t =>
        t = (s.count 8 3 0 1)) ∧
  (∀ (s : State) (o n : Nat) (write : Bool) (d : List Byte) (ep : Bool), s.rd F.LNK_PCIE_CFG_BAR2_SIZE = 0 ∨ 2 ^ s.rd F.LNK_PCIE_CFG_BAR2_SIZE ≤ o → 
      answers (.bar2Request write o n d ep) s fun t =>
        t = s) ∧
  (∀ (s : State) (down : Bool), s.mode ≠ mRESET → 
      answers (.pcieReset down) s fun t =>
        t.lnk.memEn = false ∧ t.lnk.msixEn = false ∧ t.lnk.msixMask = false ∧ t.lnk.bar0 = 0 ∧ t.lnk.bar2 = 0 ∧ t.on F.LNK_STATUS_BME = false ∧
        (down = true → t.on F.LNK_STATUS_PCIE_UP = false ∧ (s.on F.LNK_STATUS_PCIE_UP = true → 497 ∈ t.raised) ∧ (s.rd F.LNK_MBOX_OWNER_OWNER = 1 → t.rd F.LNK_MBOX_OWNER_OWNER = 0)) ∧
        (down = false → t.on F.LNK_STATUS_PCIE_UP = s.on F.LNK_STATUS_PCIE_UP)) ∧
  (∀ (s : State) (down : Bool), s.mode = mRESET → 
      answers (.pcieReset down) s fun t =>
        t = s) ∧
  (∀ (s : State) (width : Fin 8) (speed : Fin 4), s.mode ≠ mRESET → s.on F.LNK_CTRL_PCIE_EN = true → s.lanesOf 1 ≠ 0 ∧ (width = 1 ∨ width = 2 ∨ width = 4) → 
      answers (.linkChange 0 true width speed) s fun t =>
        t.on F.LNK_STATUS_PCIE_UP = true ∧ t.rd F.LNK_STATUS_WIDTH = min width.val (s.lanesOf 1) ∧ t.rd F.LNK_STATUS_SPEED = min speed.val (s.rd F.LNK_CFG_PCIE_SPEED) ∧
        (s.on F.LNK_STATUS_PCIE_UP = false → 497 ∈ t.raised)) ∧
  (∀ (s : State) (width : Fin 8) (speed : Fin 4), s.mode ≠ mRESET → s.on F.LNK_CTRL_PCIE_EN = false ∨ s.lanesOf 1 = 0 ∨ ¬ (width = 1 ∨ width = 2 ∨ width = 4) → 
      answers (.linkChange 0 true width speed) s fun t =>
        t = s) ∧
  (∀ (s : State) (width : Fin 8) (speed : Fin 4), s.mode ≠ mRESET → 
      answers (.linkChange 0 false width speed) s fun t =>
        t.lnk.memEn = false ∧ t.lnk.msixEn = false ∧ t.lnk.msixMask = false ∧ t.lnk.bar0 = 0 ∧ t.lnk.bar2 = 0 ∧ t.on F.LNK_STATUS_BME = false ∧ t.on F.LNK_STATUS_PCIE_UP = false ∧ t.rd F.LNK_STATUS_WIDTH = 0 ∧ t.rd F.LNK_STATUS_SPEED = 0) ∧
  (∀ (s : State) (e : Fin 2) (up : Bool) (width : Fin 8) (speed : Fin 4), s.mode ≠ mRESET → 
      answers (.linkChange ⟨e.val + 1, by omega⟩ up width speed) s fun t =>
        t.on (F.LNK_ETH_STATUS_BLOCK_LOCK e) = (up && s.ethEn e && s.lanesOf (e.val + 2) != 0 && s.on (F.LNK_ETH_CTRL_RX_EN e) && !s.lnk.closing.testBit (2 * e.val + 1)) ∧
        (t.on (F.LNK_ETH_STATUS_UP e) = (t.on (F.LNK_ETH_STATUS_BLOCK_LOCK e) && s.ethEn e && (List.range 4).all fun l => s.rd (F.LNK_LANE_ST_USE l) != e.val + 2 || !s.on (F.LNK_LANE_ST_LOS l))) ∧
        (t.on (F.LNK_ETH_STATUS_UP e) ≠ s.on (F.LNK_ETH_STATUS_UP e) → 497 ∈ t.raised ∧ t.on (if e = 0 then F.LNK_STATUS_ETH0_UP else F.LNK_STATUS_ETH1_UP) = t.on (F.LNK_ETH_STATUS_UP e))) ∧
  (∀ (s : State) (who : Fin 3) (up : Bool) (width : Fin 8) (speed : Fin 4), s.mode = mRESET → 
      answers (.linkChange who up width speed) s fun t =>
        t = s) ∧
  (∀ (s : State) (e : Fin 2) (f : List Byte) (u : Nat), s.on (F.LNK_ETH_STATUS_UP e) = true ∧ s.on (F.LNK_ETH_CTRL_RX_EN e) = true ∧ s.lnk.closing.testBit (2 * e.val + 1) = false → 
      answers (.ethFrameReceived e f true u) s fun t =>
        t.rd (F.LNK_ETH_FCS_ERR_RX_COUNT e) = min (s.rd (F.LNK_ETH_FCS_ERR_RX_COUNT e) + 1) (2 ^ 32 - 1) ∧ t.lnk = s.lnk) ∧
  (∀ (s : State) (e : Fin 2) (f : List Byte) (u : Nat), s.on (F.LNK_ETH_STATUS_UP e) = true ∧ s.on (F.LNK_ETH_CTRL_RX_EN e) = true ∧ s.lnk.closing.testBit (2 * e.val + 1) = false → ((if s.on F.LNK_PKT_CFG_JUMBO then 9022 else 1522) < f.length + 4 ∨ s.macMatch e (f.take 6) = false ∨ s.frameTo e f = none) → 
      answers (.ethFrameReceived e f false u) s fun t =>
        t.rd (F.LNK_ETH_DISCARD_RX_COUNT e) = min (s.rd (F.LNK_ETH_DISCARD_RX_COUNT e) + 1) (2 ^ 32 - 1) ∧ t.lnk = s.lnk) ∧
  (∀ (s : State) (e : Fin 2) (f : List Byte) (d : List Byte) (u : Nat), s.on (F.LNK_ETH_STATUS_UP e) = true ∧ s.on (F.LNK_ETH_CTRL_RX_EN e) = true ∧ s.lnk.closing.testBit (2 * e.val + 1) = false → (f.length + 4 ≤ (if s.on F.LNK_PKT_CFG_JUMBO then 9022 else 1522) ∧ s.macMatch e (f.take 6) = true) → s.frameTo e f = some d → 
      answers (.ethFrameReceived e f false u) s fun t =>
        t.rd (F.LNK_ETH_FRAMES_RX_COUNT e) = min (s.rd (F.LNK_ETH_FRAMES_RX_COUNT e) + 1) (2 ^ 32 - 1) ∧ t.lnk.toFw = s.lnk.toFw ++ [(e.val, d)] ∧
        (t.lnk.stamps = if ofBytes ((f.drop 12).take 2).reverse = 0x88F7 ∧ s.lnk.stamps.length < 16 then s.lnk.stamps ++ [⟨s.ptpNs u, false, e, ofBytes ((d.drop 30).take 2).reverse⟩] else s.lnk.stamps) ∧
        (s.mode ≠ mRESET ∧ ofBytes ((f.drop 12).take 2).reverse = 0x88F7 ∧ s.lnk.stamps = [] → 502 ∈ t.raised) ∧
        (ofBytes ((f.drop 12).take 2).reverse ≠ 0x88F7 → (if e = 0 then t.lnk.peer0 else t.lnk.peer1) = udpSender f)) ∧
  (∀ (s : State) (e : Fin 2) (f : List Byte) (b : Bool) (u : Nat), s.on (F.LNK_ETH_STATUS_UP e) = false ∨ s.on (F.LNK_ETH_CTRL_RX_EN e) = false ∨ s.lnk.closing.testBit (2 * e.val + 1) = true → 
      answers (.ethFrameReceived e f b u) s fun t =>
        t = s) ∧
  (∀ (s : State) (nb : Bool) (a : Nat), s.pbSize ≠ 0 → s.engineTurn 1 = true → s.on F.MEM_PB_CFG_CONSUMER = true ∧ s.pktOfs ≠ s.rd F.MEM_PB_WPTR_OFS ∧ s.tilHeld = false → s.memReady = true ∧ s.on F.MEM_CFG_INLINE = false → a = s.pbBase + s.pktOfs → a + 20 + (bits (ofBytes (s.dramBytes a 4)) 15 0) ≤ s.localSize → bits (ofBytes (s.dramBytes a 4)) 31 28 = 1 → 
      answers (.packetiserRecord nb) s fun t =>
        recordTaken (s.portOf (s.dramByte (a + 8)).toNat) (ofBytes (s.dramBytes (a + 4) 4)) (s.dramBytes (a + 16) ((bits (ofBytes (s.dramBytes a 4)) 15 0) + 4)) (nb || ofBytes ((s.dramBytes (a + 16) ((bits (ofBytes (s.dramBytes a 4)) 15 0) + 4)).drop (bits (ofBytes (s.dramBytes a 4)) 15 0)) != crc32c ((s.dramBytes (a + 16) ((bits (ofBytes (s.dramBytes a 4)) 15 0) + 4)).take (bits (ofBytes (s.dramBytes a 4)) 15 0))) s t ∧
        t.pktOfs = (s.pktOfs + ((bits (ofBytes (s.dramBytes a 4)) 15 0) + 51) / 32 * 32) % s.pbSize) ∧
  (∀ (s : State) (nb : Bool), s.on F.MEM_PB_CFG_CONSUMER = true ∧ s.pktOfs ≠ s.rd F.MEM_PB_WPTR_OFS ∧ s.tilHeld = false → s.memBlocked = false → s.engineTurn 1 = true → ((match s.place 1 (s.pbBase + s.pktOfs) with | .host _ => false | _ => true) = true) → 
      answers (.packetiserRecord nb) s fun t =>
        let h := s.memLoad 1 (s.pbBase + s.pktOfs) 16; let wrapped := bits (ofBytes (h.1.take 4)) 31 28 == 15 && s.pktOfs != 0; let g := if wrapped then h.2.2.memLoad 1 s.pbBase 16 else h; let o := if bits (ofBytes (h.1.take 4)) 31 28 == 15 then 0 else s.pktOfs; let b := g.2.2.memLoad 1 (s.pbBase + o + 16) (bits (ofBytes (g.1.take 4)) 15 0 + 4); t = b.2.2.pktTake (g.1 ++ b.1) o (g.2.1 || b.2.1) nb) ∧
  (∀ (s : State) (nb : Bool), s.on F.MEM_PB_CFG_CONSUMER = true ∧ s.pktOfs ≠ s.rd F.MEM_PB_WPTR_OFS ∧ s.tilHeld = false → (s.memBlocked = true ∧ (s.memState ≠ 3 ∨ Tab.get (fun _ => 0) s.mem.drain 1 = 0)) → ((match s.place 1 (s.pbBase + s.pktOfs) with | .host _ => false | _ => true) = true) → 
      answers (.packetiserRecord nb) s fun t =>
        (s.memState = 4 → t = s.wr F.MEM_STATUS_STATE 5) ∧
        (s.memState = 3 → t.on F.MEM_STATUS_PENDING_ENABLE = true ∧ t.mem = s.mem) ∧
        (s.memState = 3 ∧ s.on F.MEM_STATUS_PENDING_ENABLE = false → t.on F.SYS_PEND_STATUS_MEM_SR = true ∧ (s.mode ≠ mRESET → 6 ∈ t.raised)) ∧
        (s.memState ≠ 3 ∧ s.memState ≠ 4 → t = s)) ∧
  (∀ (s : State) (nb : Bool), s.on F.MEM_PB_CFG_CONSUMER = true ∧ s.pktOfs ≠ s.rd F.MEM_PB_WPTR_OFS ∧ s.tilHeld = false → s.memBlocked = false ∧ s.engineTurn 1 = false → ((match s.place 1 (s.pbBase + s.pktOfs) with | .host _ => false | _ => true) = true) → 
      answers (.packetiserRecord nb) s fun t =>
        t = s) ∧
  (∀ (s : State) (nb : Bool), s.on F.MEM_PB_CFG_CONSUMER = false ∨ s.pktOfs = s.rd F.MEM_PB_WPTR_OFS ∨ s.tilHeld = true → 
      answers (.packetiserRecord nb) s fun t =>
        t = s) ∧
  (∀ (s : State) (nb : Bool) (h : Nat), s.on F.MEM_PB_CFG_CONSUMER = true ∧ s.pktOfs ≠ s.rd F.MEM_PB_WPTR_OFS ∧ s.tilHeld = false → s.place 1 (s.pbBase + s.pktOfs) = .host h → 
      answers (.packetiserRecord nb) s fun t =>
        t.lnk.reads = if (s.lnk.reads.any fun r => r.1 == 1) = true ∨ 64 ≤ s.lnk.reads.length then s.lnk.reads else s.lnk.reads ++ [(1, s.pbBase + s.pktOfs, h, min 224 (s.pbSize - s.pktOfs))]) ∧
  (∀ (s : State) (e : Fin 2), (s.pkt e).entries ≠ [] → 
      answers (.flushTimer e) s fun t =>
        packetSent e s t) ∧
  (∀ (s : State) (e : Fin 2), (s.pkt e).entries ≠ [] → (s.pkt e).bad = true → 
      answers (.packetSend e) s fun t =>
        packetSent e s t) ∧
  (∀ (s : State) (e : Fin 2) (a : Nat), (s.pkt e).entries ≠ [] ∧ (s.pkt e).bad = false → s.pktOfs ≠ s.rd F.MEM_PB_WPTR_OFS ∧ s.place 1 (s.pbBase + s.pktOfs) = .loc a → bits (ofBytes (s.dramBytes a 4)) 31 28 = 1 ∧ s.portOf (s.dramByte (a + 8)).toNat = e.val → 
      answers (.packetSend e) s fun t =>
        if 48 ≤ (s.pkt e).entries.length ∨ s.payloadMax < 16 + ((s.pkt e).entries.map fun x => 4 + x.2.length).sum + 4 + ((bits (ofBytes (s.dramBytes a 4)) 15 0) + 4) then packetSent e s t else t = s) ∧
  (∀ (s : State) (e : Fin 2), ((s.pkt e).entries = [] ∨ ((s.pkt e).bad = false ∧ (s.pktOfs = s.rd F.MEM_PB_WPTR_OFS ∨ (match s.place 1 (s.pbBase + s.pktOfs) with | .loc a => bits (ofBytes (s.dramBytes a 4)) 31 28 != 1 || s.portOf (s.dramByte (a + 8)).toNat != e.val | _ => true) = true))) → 
      answers (.packetSend e) s fun t =>
        t = s) ∧
  (∀ (s : State) (e : Fin 2), (s.pkt e).entries = [] → 
      answers (.flushTimer e) s fun t =>
        t = s) ∧
  (∀ (s : State) (e : Fin 2) (f : List Byte) (q : List Nat) (rest : List (List Byte × List Nat)) (sq : BitVec 16) (u : Nat), s.outOf e = (f, q) :: rest → s.frameLeaves e = true → 
      answers (.frameLeftPort e false sq u) s fun t =>
        t.outOf e = rest ∧
        t.rd (F.LNK_ETH_FRAMES_TX_COUNT e) = min (s.rd (F.LNK_ETH_FRAMES_TX_COUNT e) + 1) (2 ^ 32 - 1) ∧
        (t.rd (F.LNK_ETH_PKTS_TX_COUNT e) = min (s.rd (F.LNK_ETH_PKTS_TX_COUNT e) + if q.isEmpty then 0 else 1) (2 ^ 32 - 1)) ∧
        (t.lnk.closing = if s.lnk.closing.testBit (2 * e.val) then withBit s.lnk.closing (4 + e.val) true else s.lnk.closing) ∧
        t.lnk.stamps = s.lnk.stamps ∧
        t.on (F.LNK_ETH_STATUS_TX_LPI e) = false ∧
        (t.lnk.taken = (s.lnk.taken.map fun x => (x.1, x.2.1, x.2.2 || q.contains x.1)).dropWhile fun x => x.2.2) ∧
        ((((s.lnk.taken.map fun x => (x.1, x.2.1, x.2.2 || q.contains x.1)).takeWhile fun x => x.2.2).getLast?.all fun x => t.rd F.MEM_PB_RPTR_OFS == x.2.1 % 2 ^ 32) = true)) ∧
  (∀ (s : State) (e : Fin 2) (sq : BitVec 16) (u : Nat), s.frameLeaves e = true → 
      answers (.frameLeftPort e true sq u) s fun t =>
        t.outOf e = s.outOf e ∧
        t.rd (F.LNK_ETH_FRAMES_TX_COUNT e) = min (s.rd (F.LNK_ETH_FRAMES_TX_COUNT e) + 1) (2 ^ 32 - 1) ∧
        t.rd (F.LNK_ETH_PKTS_TX_COUNT e) = s.rd (F.LNK_ETH_PKTS_TX_COUNT e) ∧ t.lnk.taken = s.lnk.taken ∧
        (t.lnk.closing = if s.lnk.closing.testBit (2 * e.val) then withBit s.lnk.closing (4 + e.val) true else s.lnk.closing) ∧
        t.on (F.LNK_ETH_STATUS_TX_LPI e) = false ∧
        (t.lnk.stamps = if s.lnk.stamps.length < 16 then s.lnk.stamps ++ [⟨s.ptpNs u, true, e, sq.toNat⟩] else s.lnk.stamps) ∧
        (s.mode ≠ mRESET ∧ s.lnk.stamps = [] → 502 ∈ t.raised)) ∧
  (∀ (s : State) (e : Fin 2) (sq : BitVec 16) (u : Nat), s.outOf e = [] → s.frameLeaves e = true → 
      answers (.frameLeftPort e false sq u) s fun t =>
        t.outOf e = [] ∧
        t.rd (F.LNK_ETH_FRAMES_TX_COUNT e) = min (s.rd (F.LNK_ETH_FRAMES_TX_COUNT e) + 1) (2 ^ 32 - 1) ∧
        t.rd (F.LNK_ETH_PKTS_TX_COUNT e) = s.rd (F.LNK_ETH_PKTS_TX_COUNT e) ∧
        (t.lnk.closing = if s.lnk.closing.testBit (2 * e.val) then withBit s.lnk.closing (4 + e.val) true else s.lnk.closing) ∧
        t.on (F.LNK_ETH_STATUS_TX_LPI e) = false ∧
        t.lnk.stamps = s.lnk.stamps ∧ t.lnk.taken = s.lnk.taken) ∧
  (∀ (s : State) (e : Fin 2) (marked : Bool) (sq : BitVec 16) (u : Nat), s.frameLeaves e = false → 
      answers (.frameLeftPort e marked sq u) s fun t =>
        t = s) ∧
  (∀ (s : State) (p a h n : Nat) (rest : List (Nat × Nat × Nat × Nat)) (d : List Byte) (ep : Bool), s.lnk.reads = (p, a, h, n) :: rest → p ≠ 1 → 
      answers (.pcieCompletion d ep) s fun t =>
        t.lnk.reads = rest ∧ t.sys.rdata = ofBytes ((d ++ List.replicate n 0).take n) ∧
        (ep = true → (s.mode ≠ mRESET → 488 ∈ t.raised) ∧ t.rd F.MEM_ECC_ADDR_LO_ADDR = a % 2 ^ 32)) ∧
  (∀ (s : State) (a h n : Nat) (rest : List (Nat × Nat × Nat × Nat)) (d : List Byte) (ep : Bool), s.lnk.reads = (1, a, h, n) :: rest → d.length = n → bits (ofBytes (d.take 4)) 31 28 = 1 → bits (ofBytes (d.take 4)) 15 0 + 20 ≤ n → 
      answers (.pcieCompletion d ep) s fun t =>
        t.lnk.reads = rest ∧
        recordTaken (s.portOf (d.getD 8 0).toNat) (ofBytes ((d.drop 4).take 4)) ((d.drop 16).take (bits (ofBytes (d.take 4)) 15 0 + 4)) (ep || ofBytes (((d.drop 16).take (bits (ofBytes (d.take 4)) 15 0 + 4)).drop (bits (ofBytes (d.take 4)) 15 0)) != crc32c ((d.drop 16).take (bits (ofBytes (d.take 4)) 15 0))) s t) ∧
  (∀ (s : State) (a h n : Nat) (rest : List (Nat × Nat × Nat × Nat)) (d : List Byte) (ep : Bool), s.lnk.reads = (1, a, h, n) :: rest → d.length = n → 
      answers (.pcieCompletion d ep) s fun t =>
        let u : State := State.count { s with lnk := { s.lnk with reads := rest } } 8 3 0 1; let u := if ep then u.memUE a else u; if bits (ofBytes (d.take 4)) 31 28 = 15 then t = (match u.place 1 u.pbBase with | .host g => { u with lnk := { u.lnk with reads := rest ++ [(1, u.pbBase, g, 224)] } } | _ => u) else t = u.pktTake d (a - s.pbBase) ep false) ∧
  (∀ (s : State) (d : List Byte) (ep : Bool), s.lnk.reads = [] → 
      answers (.pcieCompletion d ep) s fun t =>
        t = s)

/-- The mailbox, its commands of Table LK-4, and the management SPI. A claim gives a free mailbox to its master, a release or a
lapse frees it, and a foreign claim is rejected; a change of owner discards the update session. A datagram claims, places ARG and
the buffer, and runs its command, which answers it; one that finds another owner is answered with status 4. The commands answer with
their data, or with status 3 where they are not permitted; I2C_XFER, SETTINGS_SAVE and a good UPDATE_END run; UPDATE_DATA and
UPDATE_END run until DRAM serves them where it does not yet. A write by another master, or while a command runs, is rejected. A good
SPI frame is served as its access, and a bad one is discarded, counted, and raised as 503 the first time. Commands shown to complete
here: serialLo, serialHi, fwVersion, logRead, settingsSave, i2cXfer, flashRead, updateBegin, updateData, updateEnd, updateConfirm,
i2cTransferComplete, mailboxClaim, mailboxOwnershipLapse, mailboxDatagram, spiWrite, spiRead, spiWindow, spiStatus, spiBadFrame. -/
def Obligations.MailboxAndSpi : Prop :=
  (∀ (s : State) (m : Fin 4) (tag : Byte), s.mode ≠ mRESET → s.owns m = true → s.rd F.SYS_MBOX_RESP_STATUS ≠ 1 → 
      (answers (.serialLo m tag) s fun t =>
        responded tag.toNat 2 0 t ∧
        (t.reg R.SYS_MBOX_DATA).toNat = s.rd F.BOOT_SERIAL_LO_SERIAL) ∧
      (answers (.serialHi m tag) s fun t =>
        responded tag.toNat 2 0 t ∧
        (t.reg R.SYS_MBOX_DATA).toNat = s.rd F.BOOT_SERIAL_HI_SERIAL)) ∧
  (∀ (s : State) (m : Fin 4) (tag : Byte), s.mode ≠ mRESET → s.owns m = true → s.rd F.SYS_MBOX_RESP_STATUS ≠ 1 → s.romRuns = false → 
      (answers (.fwVersion m tag) s fun t =>
        responded tag.toNat 2 0 t ∧
        (t.reg R.SYS_MBOX_DATA).toNat = s.rd F.BOOT_IMAGE_VER_VERSION) ∧
      (answers (.logRead m tag) s fun t =>
        responded tag.toNat 2 0 t ∧
        (∀ j : Fin 64, ∀ k : Fin 16, (t.reg (R.LNK_MBOX_BUF (16 * j.val + k.val))).toNat = ofBytes (((s.logRead ((s.rd F.SYS_MBOX_ARG_ARG) + j)).drop (4 * k)).take 4)))) ∧
  (∀ (s : State) (m : Fin 4) (tag : Byte), s.mode ≠ mRESET → s.owns m = true → s.rd F.SYS_MBOX_RESP_STATUS ≠ 1 → s.romRuns = true → 
      (answers (.fwVersion m tag) s fun t =>
        responded tag.toNat 3 0 t) ∧
      (answers (.logRead m tag) s fun t =>
        responded tag.toNat 3 0 t) ∧
      (answers (.settingsSave m tag) s fun t =>
        responded tag.toNat 3 0 t)) ∧
  (∀ (s : State) (m : Fin 4) (tag : Byte), s.mode ≠ mRESET → s.owns m = true → s.rd F.SYS_MBOX_RESP_STATUS ≠ 1 → s.romRuns = true ∨ s.mode < mSTANDBY → 
      answers (.i2cXfer m tag) s fun t =>
        responded tag.toNat 3 0 t) ∧
  (∀ (s : State) (m : Fin 4) (tag : Byte), s.mode ≠ mRESET → s.owns m = true → s.rd F.SYS_MBOX_RESP_STATUS ≠ 1 → (s.rd F.SYS_MBOX_ARG_ARG) % 4096 = 0 → 
      answers (.flashRead m tag) s fun t =>
        responded tag.toNat 2 0 t ∧
        (∀ i : Fin 1024, (t.reg (R.LNK_MBOX_BUF i)).toNat = ofBytes (s.flashBytes ((s.rd F.SYS_MBOX_ARG_ARG) + 4 * i) 4))) ∧
  (∀ (s : State) (m : Fin 4) (tag : Byte), s.mode ≠ mRESET → s.owns m = true → s.rd F.SYS_MBOX_RESP_STATUS ≠ 1 → (s.rd F.SYS_MBOX_ARG_ARG) % 4096 ≠ 0 → 
      answers (.flashRead m tag) s fun t =>
        responded tag.toNat 2 0 t) ∧
  (∀ (s : State) (m : Fin 4) (tag : Byte), s.mode ≠ mRESET → s.owns m = true → s.rd F.SYS_MBOX_RESP_STATUS ≠ 1 → s.updPermitted = true → 272 ≤ (s.rd F.SYS_MBOX_ARG_ARG) ∧ (s.rd F.SYS_MBOX_ARG_ARG) ≤ 2 ^ 23 → s.stageBase + 2 ^ 23 ≤ s.localSize → 
      answers (.updateBegin m tag) s fun t =>
        responded tag.toNat 2 0 t ∧ (t.reg R.SYS_MBOX_DATA).toNat = 0 ∧ t.rd F.BOOT_UPD_RESULT_RESULT = 0 ∧ t.sys.cmd = none ∧
        t.on F.BOOT_STATUS_SESSION = true ∧ t.boot = { s.boot with sessLen := (s.rd F.SYS_MBOX_ARG_ARG), sessGot := 0, checked := 0 }) ∧
  (∀ (s : State) (m : Fin 4) (tag : Byte), s.mode ≠ mRESET → s.owns m = true → s.rd F.SYS_MBOX_RESP_STATUS ≠ 1 → s.updPermitted = true → ¬ (272 ≤ (s.rd F.SYS_MBOX_ARG_ARG) ∧ (s.rd F.SYS_MBOX_ARG_ARG) ≤ 2 ^ 23) ∨ s.localSize < s.stageBase + 2 ^ 23 → 
      answers (.updateBegin m tag) s fun t =>
        (responded tag.toNat 2 0 t ∧ (t.reg R.SYS_MBOX_DATA).toNat = (if 272 ≤ (s.rd F.SYS_MBOX_ARG_ARG) ∧ (s.rd F.SYS_MBOX_ARG_ARG) ≤ 2 ^ 23 then 0x0C else 8) ∧ t.rd F.BOOT_UPD_RESULT_RESULT = (if 272 ≤ (s.rd F.SYS_MBOX_ARG_ARG) ∧ (s.rd F.SYS_MBOX_ARG_ARG) ≤ 2 ^ 23 then 0x0C else 8) ∧ t.sys.cmd = none) ∧
        t.on F.BOOT_STATUS_SESSION = false ∧ t.boot.sessLen = 0 ∧ t.boot.sessGot = 0 ∧ t.boot.checked = 0 ∧ 505 ∈ t.raised) ∧
  (∀ (s : State) (m : Fin 4) (tag : Byte), s.mode ≠ mRESET → s.owns m = true → s.rd F.SYS_MBOX_RESP_STATUS ≠ 1 → s.updPermitted = false → 
      (answers (.updateBegin m tag) s fun t =>
        responded tag.toNat 3 0 t) ∧
      (answers (.updateData m tag) s fun t =>
        responded tag.toNat 3 0 t) ∧
      (answers (.updateEnd m tag 0) s fun t =>
        responded tag.toNat 3 0 t)) ∧
  (∀ (s : State) (m : Fin 4) (tag : Byte) (n : Nat), s.mode ≠ mRESET → s.owns m = true → s.rd F.SYS_MBOX_RESP_STATUS ≠ 1 → s.updPermitted = true → s.on F.BOOT_STATUS_SESSION = true → (s.rd F.SYS_MBOX_ARG_ARG) = s.boot.sessGot ∧ (s.rd F.SYS_MBOX_ARG_ARG) < s.boot.sessLen → n = min 4096 (s.boot.sessLen - s.boot.sessGot) → s.mgmtWaits (s.stageBase + (s.rd F.SYS_MBOX_ARG_ARG)) = false → 
      answers (.updateData m tag) s fun t =>
        responded tag.toNat 2 0 t ∧ (t.reg R.SYS_MBOX_DATA).toNat = 0 ∧ t.rd F.BOOT_UPD_RESULT_RESULT = 0 ∧ t.sys.cmd = none ∧
        t.boot = { s.boot with sessGot := (s.rd F.SYS_MBOX_ARG_ARG) + n, checked := 0 } ∧ t.on F.BOOT_STATUS_SESSION = true ∧
        (s.stageBase + 2 ^ 23 ≤ s.localSize ∧ s.boot.sessLen ≤ 2 ^ 23 → ∀ i : Fin 4096, i.val < n → t.dramByte (s.stageBase + (s.rd F.SYS_MBOX_ARG_ARG) + i) = BitVec.ofNat 8 ((s.reg (R.LNK_MBOX_BUF (i / 4))).toNat / 2 ^ (8 * (i.val % 4))))) ∧
  (∀ (s : State) (m : Fin 4) (tag : Byte), s.mode ≠ mRESET → s.owns m = true → s.rd F.SYS_MBOX_RESP_STATUS ≠ 1 → s.updPermitted = true → s.on F.BOOT_STATUS_SESSION = true → (s.rd F.SYS_MBOX_ARG_ARG) = s.boot.sessGot ∧ (s.rd F.SYS_MBOX_ARG_ARG) < s.boot.sessLen → s.mgmtWaits (s.stageBase + (s.rd F.SYS_MBOX_ARG_ARG)) = true → 
      answers (.updateData m tag) s fun t =>
        running ⟨tag.toNat, 4, 2, (s.rd F.SYS_MBOX_ARG_ARG)⟩ t ∧
        t.boot = { s.boot with memJobs := s.boot.memJobs ++ [.cmd ⟨tag.toNat, 4, 2, (s.rd F.SYS_MBOX_ARG_ARG)⟩ 0] } ∧
        (t.memState = (if s.memState = 4 then 5 else s.memState) ∧ (s.memState = 3 → t.on F.MEM_STATUS_PENDING_ENABLE = true))) ∧
  (∀ (s : State) (m : Fin 4) (tag : Byte), s.mode ≠ mRESET → s.owns m = true → s.rd F.SYS_MBOX_RESP_STATUS ≠ 1 → s.updPermitted = true → s.on F.BOOT_STATUS_SESSION = false ∨ (s.rd F.SYS_MBOX_ARG_ARG) ≠ s.boot.sessGot ∨ s.boot.sessLen ≤ (s.rd F.SYS_MBOX_ARG_ARG) → 
      answers (.updateData m tag) s fun t =>
        (responded tag.toNat 2 0 t ∧ (t.reg R.SYS_MBOX_DATA).toNat = (if s.on F.BOOT_STATUS_SESSION = false then 6 else if (s.rd F.SYS_MBOX_ARG_ARG) ≠ s.boot.sessGot then 7 else 8) ∧ t.rd F.BOOT_UPD_RESULT_RESULT = (if s.on F.BOOT_STATUS_SESSION = false then 6 else if (s.rd F.SYS_MBOX_ARG_ARG) ≠ s.boot.sessGot then 7 else 8) ∧ t.sys.cmd = none) ∧
        t.on F.BOOT_STATUS_SESSION = false ∧ t.boot.sessLen = 0 ∧ t.boot.sessGot = 0 ∧ t.boot.checked = 0 ∧ 505 ∈ t.raised) ∧
  (∀ (s : State) (m : Fin 4) (tag : Byte) (u : Nat), s.mode ≠ mRESET → s.owns m = true → s.rd F.SYS_MBOX_RESP_STATUS ≠ 1 → s.updPermitted = true → s.sys.pfLow = true → 
      answers (.updateEnd m tag u) s fun t =>
        responded tag.toNat 4 0x0A t) ∧
  (∀ (s : State) (m : Fin 4) (tag : Byte) (u : Nat), s.mode ≠ mRESET → s.owns m = true → s.rd F.SYS_MBOX_RESP_STATUS ≠ 1 → s.updPermitted = true → s.sys.pfLow = false → s.on F.BOOT_STATUS_SESSION = false ∨ s.boot.sessGot ≠ s.boot.sessLen → 
      answers (.updateEnd m tag u) s fun t =>
        (responded tag.toNat 2 0 t ∧ (t.reg R.SYS_MBOX_DATA).toNat = (if s.on F.BOOT_STATUS_SESSION = false then 6 else 8) ∧ t.rd F.BOOT_UPD_RESULT_RESULT = (if s.on F.BOOT_STATUS_SESSION = false then 6 else 8) ∧ t.sys.cmd = none) ∧
        t.on F.BOOT_STATUS_SESSION = false ∧ t.boot.sessLen = 0 ∧ t.boot.sessGot = 0 ∧ t.boot.checked = 0 ∧ 505 ∈ t.raised) ∧
  (∀ (s : State) (m : Fin 4) (tag : Byte) (u : Nat), s.mode ≠ mRESET → s.owns m = true → s.rd F.SYS_MBOX_RESP_STATUS ≠ 1 → s.updPermitted = true → s.sys.pfLow = false → s.on F.BOOT_STATUS_SESSION = true ∧ s.boot.sessGot = s.boot.sessLen → s.mgmtWaits s.stageBase = false → 
      answers (.updateEnd m tag u) s fun t =>
        if s.stagedCheck (s.mgmtLoad s.stageBase s.boot.sessLen).1 = 0 then t.rd F.SYS_MBOX_RESP_STATUS = 1 ∧ t.sys.cmd.map (fun c => (c.tag, c.group, c.code)) = some (tag.toNat, 4, 3) ∧ t.on F.BOOT_STATUS_SLOT_WRITE = true ∧ t.boot.writing = some ((s.mgmtLoad s.stageBase s.boot.sessLen).1, false) ∧ t.boot.checked = s.boot.sessLen ∧ t.boot.upd.state = 1 else responded tag.toNat 2 0 t ∧ (t.reg R.SYS_MBOX_DATA).toNat = (s.stagedCheck (s.mgmtLoad s.stageBase s.boot.sessLen).1) ∧ t.rd F.BOOT_UPD_RESULT_RESULT = (s.stagedCheck (s.mgmtLoad s.stageBase s.boot.sessLen).1) ∧ t.sys.cmd = none ∧ t.on F.BOOT_STATUS_SESSION = false ∧ t.boot.sessLen = 0 ∧ t.boot.sessGot = 0 ∧ t.boot.checked = 0 ∧ 505 ∈ t.raised) ∧
  (∀ (s : State) (m : Fin 4) (tag : Byte) (u : Nat), s.mode ≠ mRESET → s.owns m = true → s.rd F.SYS_MBOX_RESP_STATUS ≠ 1 → s.updPermitted = true → s.sys.pfLow = false → s.on F.BOOT_STATUS_SESSION = true ∧ s.boot.sessGot = s.boot.sessLen → s.mgmtWaits s.stageBase = true → 
      answers (.updateEnd m tag u) s fun t =>
        running ⟨tag.toNat, 4, 3, (s.rd F.SYS_MBOX_ARG_ARG)⟩ t ∧
        t.boot = { s.boot with memJobs := s.boot.memJobs ++ [.cmd ⟨tag.toNat, 4, 3, (s.rd F.SYS_MBOX_ARG_ARG)⟩ u] } ∧
        (t.memState = (if s.memState = 4 then 5 else s.memState) ∧ (s.memState = 3 → t.on F.MEM_STATUS_PENDING_ENABLE = true))) ∧
  (∀ (s : State) (m : Fin 4) (tag : Byte) (u : Nat), s.mode ≠ mRESET → s.owns m = true → s.rd F.SYS_MBOX_RESP_STATUS ≠ 1 → s.confirmPermitted = true → 
      answers (.updateConfirm m tag u) s fun t =>
        (responded tag.toNat 2 0 t ∧ (t.reg R.SYS_MBOX_DATA).toNat = (if s.boot.upd.state = 2 then 0 else 0x0B) ∧ t.rd F.BOOT_UPD_RESULT_RESULT = (if s.boot.upd.state = 2 then 0 else 0x0B) ∧ t.sys.cmd = none) ∧
        (if s.boot.upd.state = 2 then t.boot.upd.state = 0 ∧ t.rd F.BOOT_STATUS_UPD_STATE = 0 else t.boot = s.boot ∧ 505 ∈ t.raised)) ∧
  (∀ (s : State) (m : Fin 4) (tag : Byte) (u : Nat), s.mode ≠ mRESET → s.owns m = true → s.rd F.SYS_MBOX_RESP_STATUS ≠ 1 → s.confirmPermitted = false → 
      answers (.updateConfirm m tag u) s fun t =>
        responded tag.toNat 3 0 t) ∧
  (∀ (s : State) (m : Fin 4) (tag : Byte), s.mode ≠ mRESET → s.owns m = true → s.rd F.SYS_MBOX_RESP_STATUS ≠ 1 → s.romRuns = false → mSTANDBY ≤ s.mode → bits (s.rd F.SYS_MBOX_ARG_ARG) 15 8 + bits (s.rd F.SYS_MBOX_ARG_ARG) 27 16 ≤ 4096 → 
      answers (.i2cXfer m tag) s fun t =>
        t.rd F.SYS_MBOX_RESP_STATUS = 1 ∧ t.on F.LNK_I2C_STATUS_BUSY = true ∧ t.lnk.i2c = some ⟨tag.toNat, bits (s.rd F.SYS_MBOX_ARG_ARG) 6 0, bits (s.rd F.SYS_MBOX_ARG_ARG) 15 8, bits (s.rd F.SYS_MBOX_ARG_ARG) 27 16, s.mboxBytes (bits (s.rd F.SYS_MBOX_ARG_ARG) 15 8)⟩ ∧ t.sys.cmd = some ⟨tag.toNat, 5, 1, (s.rd F.SYS_MBOX_ARG_ARG)⟩) ∧
  (∀ (s : State) (m : Fin 4) (tag : Byte), s.mode ≠ mRESET → s.owns m = true → s.rd F.SYS_MBOX_RESP_STATUS ≠ 1 → s.romRuns = false → mSTANDBY ≤ s.mode → 4096 < bits (s.rd F.SYS_MBOX_ARG_ARG) 15 8 + bits (s.rd F.SYS_MBOX_ARG_ARG) 27 16 → 
      answers (.i2cXfer m tag) s fun t =>
        responded tag.toNat 2 0 t) ∧
  (∀ (s : State) (m : Fin 4) (tag : Byte), s.mode ≠ mRESET → s.owns m = true → s.rd F.SYS_MBOX_RESP_STATUS ≠ 1 → s.romRuns = false → s.mode = mSTANDBY → s.boot.saving = none → s.sys.pfLow = false → 
      answers (.settingsSave m tag) s fun t =>
        running ⟨tag.toNat, 7, 1, (s.rd F.SYS_MBOX_ARG_ARG)⟩ t ∧
        (t.boot.saving = some s.setTarget ∧ t.boot.saveDue = false ∧ (if s.setTarget = 0 then t.boot.setA = none ∧ t.boot.setB = s.boot.setB else t.boot.setB = none ∧ t.boot.setA = s.boot.setA))) ∧
  (∀ (s : State) (m : Fin 4) (tag : Byte), s.mode ≠ mRESET → s.owns m = true → s.rd F.SYS_MBOX_RESP_STATUS ≠ 1 → s.romRuns = false → s.mode = mSTANDBY → s.boot.saving = none → s.sys.pfLow = true → 
      answers (.settingsSave m tag) s fun t =>
        running ⟨tag.toNat, 7, 1, (s.rd F.SYS_MBOX_ARG_ARG)⟩ t ∧
        t.boot = { s.boot with saveDue := true }) ∧
  (∀ (s : State) (m : Fin 4) (tag : Byte), s.mode ≠ mRESET → s.owns m = true → s.rd F.SYS_MBOX_RESP_STATUS ≠ 1 → s.romRuns = false → s.mode = mSTANDBY → s.boot.saving ≠ none → 
      answers (.settingsSave m tag) s fun t =>
        running ⟨tag.toNat, 7, 1, (s.rd F.SYS_MBOX_ARG_ARG)⟩ t ∧ t.boot = s.boot) ∧
  (∀ (s : State) (m : Fin 4) (tag : Byte), s.mode ≠ mRESET → s.owns m = true → s.rd F.SYS_MBOX_RESP_STATUS ≠ 1 → s.mode ≠ mSTANDBY → 
      answers (.settingsSave m tag) s fun t =>
        responded tag.toNat 3 0 t) ∧
  (∀ (s : State) (m : Fin 4) (tag : Byte) (u : Nat), s.mode ≠ mRESET → s.owns m = false ∨ s.rd F.SYS_MBOX_RESP_STATUS = 1 → 
      (answers (.fwVersion m tag) s fun t =>
        rejected s t) ∧
      (answers (.serialLo m tag) s fun t =>
        rejected s t) ∧
      (answers (.serialHi m tag) s fun t =>
        rejected s t) ∧
      (answers (.flashRead m tag) s fun t =>
        rejected s t) ∧
      (answers (.updateBegin m tag) s fun t =>
        rejected s t) ∧
      (answers (.updateData m tag) s fun t =>
        rejected s t) ∧
      (answers (.updateEnd m tag u) s fun t =>
        rejected s t) ∧
      (answers (.updateConfirm m tag u) s fun t =>
        rejected s t) ∧
      (answers (.i2cXfer m tag) s fun t =>
        rejected s t) ∧
      (answers (.logRead m tag) s fun t =>
        rejected s t) ∧
      (answers (.settingsSave m tag) s fun t =>
        rejected s t)) ∧
  (∀ (s : State) (r : Fin 5) (ix : BitVec 16) (d : List Byte) (x : I2c), s.lnk.i2c = some x → 
      answers (.i2cTransferComplete r ix d) s fun t =>
        (t.lnk.i2c = none ∧ (s.lnk.udpWait = none → t.lnk = { s.lnk with i2c := none, i2cBus := t.lnk.i2cBus })) ∧
        (r = 0 → t.lnk.i2cBus = ((if 0 < x.w ∨ x.r = 0 then [I2cSym.start, .addr x.addr false] ++ x.out.map .sent else []) ++ (if 0 < x.r then [I2cSym.start, .addr x.addr true] ++ (List.range x.r).map fun i => .got (d.getD i 0) (i + 1 == x.r) else []) ++ [.stop]) ∨ t.lnk.i2cBus = .clear :: .stop :: ((if 0 < x.w ∨ x.r = 0 then [I2cSym.start, .addr x.addr false] ++ x.out.map .sent else []) ++ (if 0 < x.r then [I2cSym.start, .addr x.addr true] ++ (List.range x.r).map fun i => .got (d.getD i 0) (i + 1 == x.r) else []) ++ [.stop])) ∧
        (r = 4 → t.lnk.i2cBus = [.clear, .stop]) ∧
        ((s.sys.cmd.map MboxCmd.group) = some 5 → ∀ w ∈ s.lnk.udpWait, t.lnk.udpWait = none ∧ t.lnk.udpAnswer = some ⟨w.port, w.peer, t.reg R.SYS_MBOX_RESP, t.reg R.SYS_MBOX_DATA, t.mboxBytes w.len⟩) ∧
        (t.on F.LNK_I2C_STATUS_BUSY = false ∧ (r = 4 → t.on F.LNK_I2C_STATUS_STUCK = true)) ∧
        (t.reg R.SYS_MBOX_DATA).toNat = r.val + 256 * ix.toNat ∧
        (if (s.sys.cmd.map MboxCmd.group) = some 5 then responded (((s.sys.cmd.map MboxCmd.tag).getD 0) % 256) 2 0 t ∧ t.sys.cmd = none else t.sys = s.sys ∧ t.raised = s.raised) ∧
        (∀ i : Fin 1024, 4 * i.val + 4 ≤ min x.r d.length → (t.reg (R.LNK_MBOX_BUF i)).toNat = ofBytes ((d.drop (4 * i)).take 4))) ∧
  (∀ (s : State) (r : Fin 5) (ix : BitVec 16) (d : List Byte), s.lnk.i2c = none → 
      answers (.i2cTransferComplete r ix d) s fun t =>
        t = s) ∧
  (∀ (s : State) (m : Fin 4) (v : Word), s.mode ≠ mRESET → v.toNat % 4 ≠ 0 ∧ m ≠ 0 → s.rd F.LNK_MBOX_OWNER_OWNER = 0 → 
      answers (.mailboxClaim m v) s fun t =>
        t.rd F.LNK_MBOX_OWNER_OWNER = m ∧ t.on F.BOOT_STATUS_SESSION = false ∧ t.boot.sessLen = 0 ∧ t.boot.sessGot = 0 ∧ t.boot.checked = 0) ∧
  (∀ (s : State) (m : Fin 4) (v : Word), s.mode ≠ mRESET → v.toNat % 4 ≠ 0 → m = 0 ∨ (s.rd F.LNK_MBOX_OWNER_OWNER ≠ 0 ∧ s.rd F.LNK_MBOX_OWNER_OWNER ≠ m) → 
      answers (.mailboxClaim m v) s fun t =>
        rejected s t) ∧
  (∀ (s : State) (m : Fin 4) (v : Word), s.mode ≠ mRESET → v.toNat % 4 = 0 → m ≠ 0 → s.rd F.LNK_MBOX_OWNER_OWNER = m → 
      answers (.mailboxClaim m v) s fun t =>
        t.rd F.LNK_MBOX_OWNER_OWNER = 0 ∧ t.on F.BOOT_STATUS_SESSION = false ∧ t.boot.sessLen = 0 ∧ t.boot.sessGot = 0 ∧ t.boot.checked = 0) ∧
  (∀ (s : State) (m : Fin 4) (v : Word), s.mode ≠ mRESET → v.toNat % 4 ≠ 0 ∧ m ≠ 0 → s.rd F.LNK_MBOX_OWNER_OWNER = m → 
      answers (.mailboxClaim m v) s fun t =>
        t = s.accessed) ∧
  (∀ (s : State) (m : Fin 4) (v : Word), s.mode ≠ mRESET → v.toNat % 4 = 0 → s.rd F.LNK_MBOX_OWNER_OWNER ≠ m ∨ m = 0 → 
      answers (.mailboxClaim m v) s fun t =>
        t = s.accessed) ∧
  (∀ (s : State), s.rd F.LNK_MBOX_OWNER_OWNER ≠ 0 → 
      answers .mailboxOwnershipLapse s fun t =>
        t.rd F.LNK_MBOX_OWNER_OWNER = 0 ∧ t.on F.BOOT_STATUS_SESSION = false ∧ t.boot.sessLen = 0 ∧ t.boot.sessGot = 0 ∧ t.boot.checked = 0) ∧
  (∀ (s : State), s.rd F.LNK_MBOX_OWNER_OWNER = 0 → 
      answers .mailboxOwnershipLapse s fun t =>
        t = s) ∧
  (∀ (s : State) (e : Fin 2) (cmd arg : Word) (buf : List Byte) (u : Nat), s.on (F.LNK_ETH_STATUS_UP e) = true ∧ s.rd (F.LNK_ETH_MBOX_MBOX_PORT e) ≠ 0 ∧ s.tilHeld = false ∧ s.sys.recovKept = false → s.rd F.LNK_MBOX_OWNER_OWNER ≠ 0 ∧ s.rd F.LNK_MBOX_OWNER_OWNER ≠ 3 → 
      answers (.mailboxDatagram e cmd arg buf u) s fun t =>
        t = { s with lnk := t.lnk, freeIx := t.freeIx } ∧ t.lnk.udpWait = s.lnk.udpWait ∧
        (t.lnk.udpAnswer.map (fun a => (a.port, a.resp, a.data, a.buf)) = some (e.val, BitVec.ofNat 32 (2 ^ 16 * Word.field cmd 23 16 + 0x4000 + 256 * s.mode), s.reg R.SYS_MBOX_DATA, [])) ∧
        ((if e = 0 then s.lnk.peer0 else s.lnk.peer1) ≠ [] → t.lnk.udpAnswer.map UdpAnswer.peer = some (if e = 0 then s.lnk.peer0 else s.lnk.peer1) ∧ t.outOf e = s.outOf e ++ [(s.frameBytes e (s.peerDest e (if e = 0 then s.lnk.peer0 else s.lnk.peer1)) (s.ipBytes e (s.peerDest e (if e = 0 then s.lnk.peer0 else s.lnk.peer1)) 16 (s.ident e) ++ s.udpBytes e (s.peerDest e (if e = 0 then s.lnk.peer0 else s.lnk.peer1)) (bytesOf 4 (BitVec.ofNat 32 (2 ^ 16 * Word.field cmd 23 16 + 0x4000 + 256 * s.mode)).toNat ++ bytesOf 4 (s.reg R.SYS_MBOX_DATA).toNat)) false, [])])) ∧
  (∀ (s : State) (e : Fin 2) (cmd arg : Word) (buf : List Byte) (u : Nat), s.on (F.LNK_ETH_STATUS_UP e) = true ∧ s.rd (F.LNK_ETH_MBOX_MBOX_PORT e) ≠ 0 ∧ s.tilHeld = false ∧ s.sys.recovKept = false → s.rd F.LNK_MBOX_OWNER_OWNER = 0 ∨ s.rd F.LNK_MBOX_OWNER_OWNER = 3 → s.rd F.SYS_MBOX_RESP_STATUS ≠ 1 → Word.field cmd 15 8 = 2 ∧ Word.field cmd 7 0 = 2 → 
      answers (.mailboxDatagram e cmd arg buf u) s fun t =>
        t.rd F.LNK_MBOX_OWNER_OWNER = 3 ∧ t.reg R.SYS_MBOX_ARG = arg ∧ responded (Word.field cmd 23 16) 2 0 t ∧ (t.reg R.SYS_MBOX_DATA).toNat = s.rd F.BOOT_SERIAL_LO_SERIAL ∧
        (t.lnk.udpWait = none ∧ t.lnk.udpAnswer.map (fun a => (a.port, a.resp, a.data, a.buf)) = some (e.val, t.reg R.SYS_MBOX_RESP, t.reg R.SYS_MBOX_DATA, [])) ∧
        (∀ i : Fin 1024, 4 * i.val + 4 ≤ buf.length → (t.reg (R.LNK_MBOX_BUF i)).toNat = ofBytes ((buf.drop (4 * i)).take 4))) ∧
  (∀ (s : State) (e : Fin 2) (cmd arg : Word) (buf : List Byte) (u : Nat), s.on (F.LNK_ETH_STATUS_UP e) = true ∧ s.rd (F.LNK_ETH_MBOX_MBOX_PORT e) ≠ 0 ∧ s.tilHeld = false ∧ s.sys.recovKept = false → s.rd F.LNK_MBOX_OWNER_OWNER = 0 ∨ s.rd F.LNK_MBOX_OWNER_OWNER = 3 → s.mboxStarts (Word.field cmd 15 8) (Word.field cmd 7 0) = false → 
      answers (.mailboxDatagram e cmd arg buf u) s fun t =>
        t.rd F.LNK_MBOX_OWNER_OWNER = 3 ∧ t.reg R.SYS_MBOX_ARG = arg ∧ 3 ∈ t.raised ∧ t.lnk.udpAnswer.map (fun a => (a.port, a.resp, a.data, a.buf)) = some (e.val, t.reg R.SYS_MBOX_RESP, t.reg R.SYS_MBOX_DATA, []) ∧ t.lnk.udpWait = s.lnk.udpWait) ∧
  (∀ (s : State) (e : Fin 2) (cmd arg : Word) (buf : List Byte) (u : Nat), s.on (F.LNK_ETH_STATUS_UP e) = true ∧ s.rd (F.LNK_ETH_MBOX_MBOX_PORT e) ≠ 0 ∧ s.tilHeld = false ∧ s.sys.recovKept = false → s.rd F.LNK_MBOX_OWNER_OWNER = 0 ∨ s.rd F.LNK_MBOX_OWNER_OWNER = 3 → s.mboxStarts (Word.field cmd 15 8) (Word.field cmd 7 0) = true → 
      answers (.mailboxDatagram e cmd arg buf u) s fun t =>
        let x := (((s.peerOf e).2.mboxOwner 3).setReg R.SYS_MBOX_ARG arg).mboxPut (buf.take 4096); t = State.mboxWrite { x with lnk := { x.lnk with udpWait := some ⟨e, (s.peerOf e).1, if Word.field cmd 15 8 = 3 ∨ Word.field cmd 15 8 = 6 then 4096 else if Word.field cmd 15 8 = 5 then Word.field arg 27 16 else 0⟩ } } 3 (Word.field cmd 23 16) (Word.field cmd 15 8) (Word.field cmd 7 0) u) ∧
  (∀ (s : State) (e : Fin 2) (cmd arg : Word) (buf : List Byte) (u : Nat), s.on (F.LNK_ETH_STATUS_UP e) = false ∨ s.rd (F.LNK_ETH_MBOX_MBOX_PORT e) = 0 ∨ s.tilHeld = true ∨ s.sys.recovKept = true → 
      answers (.mailboxDatagram e cmd arg buf u) s fun t =>
        t = s) ∧
  (∀ (s : State) (ofs : BitVec 16) (d : Word) (crc : Byte) (u : Nat), s.mode ≠ mRESET → ofs.toNat % 4 = 0 → crc.toNat = crc8Bytes ([0x02, BitVec.ofNat 8 (ofs.toNat / 256), BitVec.ofNat 8 ofs.toNat] ++ bytesOf 4 d.toNat) → 
      answers (.spiWrite ofs d crc u) s fun t =>
        t = ({ s with lnk := { s.lnk with spiBad := false, spiOut := [] } } : State).regWrite 2 (2 ^ 16 * s.rd F.LNK_MSPI_WIN_WIN + ofs.toNat) d u) ∧
  (∀ (s : State) (ofs : BitVec 16) (d : Word) (crc : Byte) (u : Nat), s.mode ≠ mRESET → ofs.toNat % 4 ≠ 0 ∨ crc.toNat ≠ crc8Bytes ([0x02, BitVec.ofNat 8 (ofs.toNat / 256), BitVec.ofNat 8 ofs.toNat] ++ bytesOf 4 d.toNat) → 
      answers (.spiWrite ofs d crc u) s fun t =>
        t.lnk.spiBad = true ∧ t.lnk.spiOut = [] ∧ t.rd F.LNK_MSPI_CRC_CNT_COUNT = min (s.rd F.LNK_MSPI_CRC_CNT_COUNT + 1) (2 ^ ((F.LNK_MSPI_CRC_CNT_COUNT).hi + 1 - (F.LNK_MSPI_CRC_CNT_COUNT).lo) - 1) ∧ (s.rd F.LNK_MSPI_CRC_CNT_COUNT = 0 → 503 ∈ t.raised)) ∧
  (∀ (s : State) (ofs : BitVec 16), s.mode ≠ mRESET → ofs.toNat % 4 = 0 → 
      answers (.spiRead ofs) s fun t =>
        t = { (s.linkSeen (2 ^ 16 * s.rd F.LNK_MSPI_WIN_WIN + ofs.toNat) 4 none).regRead (2 ^ 16 * s.rd F.LNK_MSPI_WIN_WIN + ofs.toNat) 4 with lnk := { ((s.linkSeen (2 ^ 16 * s.rd F.LNK_MSPI_WIN_WIN + ofs.toNat) 4 none).regRead (2 ^ 16 * s.rd F.LNK_MSPI_WIN_WIN + ofs.toNat) 4).lnk with spiBad := false, spiOut := 0x5A :: bytesOf 4 t.sys.rdata ++ [BitVec.ofNat 8 (crc8Bytes (0x5A :: bytesOf 4 t.sys.rdata))] } }) ∧
  (∀ (s : State) (ofs : BitVec 16), s.mode ≠ mRESET → ofs.toNat % 4 ≠ 0 → 
      answers (.spiRead ofs) s fun t =>
        t.lnk.spiBad = true ∧ t.lnk.spiOut = [] ∧ t.rd F.LNK_MSPI_CRC_CNT_COUNT = min (s.rd F.LNK_MSPI_CRC_CNT_COUNT + 1) (2 ^ ((F.LNK_MSPI_CRC_CNT_COUNT).hi + 1 - (F.LNK_MSPI_CRC_CNT_COUNT).lo) - 1) ∧ (s.rd F.LNK_MSPI_CRC_CNT_COUNT = 0 → 503 ∈ t.raised)) ∧
  (∀ (s : State) (w : BitVec 16) (crc : Byte), s.mode ≠ mRESET → 
      answers (.spiWindow w crc) s fun t =>
        if crc.toNat = crc8Bytes [0x71, BitVec.ofNat 8 (w.toNat / 256), BitVec.ofNat 8 w.toNat] then t.rd F.LNK_MSPI_WIN_WIN = w.toNat % 1024 ∧ t.lnk.spiBad = false ∧ t.lnk.spiOut = [] else t.lnk.spiBad = true ∧ t.lnk.spiOut = [] ∧ t.rd F.LNK_MSPI_CRC_CNT_COUNT = min (s.rd F.LNK_MSPI_CRC_CNT_COUNT + 1) (2 ^ ((F.LNK_MSPI_CRC_CNT_COUNT).hi + 1 - (F.LNK_MSPI_CRC_CNT_COUNT).lo) - 1) ∧ (s.rd F.LNK_MSPI_CRC_CNT_COUNT = 0 → 503 ∈ t.raised)) ∧
  (∀ (s : State), s.mode ≠ mRESET → 
      (answers .spiStatus s fun t =>
        t = { s with lnk := { s.lnk with spiBad := false, spiOut := [if s.lnk.spiBad then 1 else 0] } }) ∧
      (answers .spiBadFrame s fun t =>
        t.lnk.spiBad = true ∧ t.lnk.spiOut = [] ∧ t.rd F.LNK_MSPI_CRC_CNT_COUNT = min (s.rd F.LNK_MSPI_CRC_CNT_COUNT + 1) (2 ^ ((F.LNK_MSPI_CRC_CNT_COUNT).hi + 1 - (F.LNK_MSPI_CRC_CNT_COUNT).lo) - 1) ∧ (s.rd F.LNK_MSPI_CRC_CNT_COUNT = 0 → 503 ∈ t.raised))) ∧
  (∀ (s : State) (ofs : BitVec 16) (d : Word) (crc : Byte) (u : Nat), s.mode = mRESET → 
      (answers (.spiWrite ofs d crc u) s fun t =>
        t = s) ∧
      (answers (.spiRead ofs) s fun t =>
        t = s) ∧
      (answers (.spiWindow ofs crc) s fun t =>
        t = s) ∧
      (answers .spiStatus s fun t =>
        t = s) ∧
      (answers .spiBadFrame s fun t =>
        t = s))

/-- The start sequence, the slot write, settings records, the logbook. A step of the start sequence moves to the next: the loader
and the image pass their checks or lead to RECOVERY (in SAFE-STOP the start ends), BIST and LOAD go on or fail the start, DRAM is
trained or kept, the calibration step takes the journal, the settings step the record and begins the code-density plan or skips it,
and the last step starts the tillers and ends the start with BOOT_DONE, entering SPIN-UP where AUTO_SCAN asks for it; a settings
entry outside the registers it may write is skipped and counted. A failed step resets with its step, the third failure in ten
minutes ends the start. CD_DUE runs the plan again from STANDBY. A verified slot write leaves the image in flash and the update
record UNCONFIRMED; a settings save commits its record; a RESET held for the flash is carried out at its end; a logbook entry goes
to its slot of flash. Commands shown to complete here: startStepComplete, cdDueRerun, slotWriteComplete, settingsSaveComplete,
logbookEntryProgram. -/
def Obligations.StartAndFlashWork : Prop :=
  (∀ (s : State) (ok : Bool) (failing : BitVec 4) (nominal : Bool) (u : Nat), s.rd F.BOOT_STATUS_STEP = 1 → s.boot.starting = true → s.mode ≠ mRESET → 
      answers (.startStepComplete ok failing nominal u) s fun t =>
        if s.imageCheck s.loaderImage = 0 ∧ (imgFlags s.loaderImage).testBit 1 = true then t = (s.wr F.BOOT_STATUS_LOADER_VALID 1).wr F.BOOT_STATUS_STEP 2 else (if s.mode = mSAFESTOP then t.mode = mSAFESTOP ∧ t.on F.BOOT_STATUS_IMAGE_VALID = false ∧ t.boot.starting = false else t.mode = mRECOVERY ∧ t.rd F.SYS_MODE_CAUSE = 4 ∧ t.boot.starting = false ∧ t.boot.rx = none ∧ t.boot.tx = none)) ∧
  (∀ (s : State) (ok : Bool) (failing : BitVec 4) (nominal : Bool) (u : Nat), s.rd F.BOOT_STATUS_STEP = 2 → s.boot.starting = true → s.mode ≠ mRESET → 
      answers (.startStepComplete ok failing nominal u) s fun t =>
        if s.imageCheck s.slotImage = 0 ∧ (imgFlags s.slotImage).testBit 1 = false then t.rd F.BOOT_STATUS_STEP = (if s.boot.warmStart then 4 else 3) ∧ t.rd F.BOOT_IMAGE_VER_VERSION = imgVersion s.slotImage % 2 ^ 32 ∧ t.rd F.BOOT_IMAGE_INFO_SETTINGS_FMT = imgFmt s.slotImage % 2 ^ 16 ∧ t.on F.BOOT_STATUS_IMAGE_VALID = decide (s.rd F.BOOT_FAIL_COUNT < 3) ∧ (s.boot.warmStart = true → t.on F.BOOT_STATUS_BIST_SKIPPED = true) else (if s.mode = mSAFESTOP then t.mode = mSAFESTOP ∧ t.on F.BOOT_STATUS_IMAGE_VALID = false ∧ t.boot.starting = false else t.mode = mRECOVERY ∧ t.rd F.SYS_MODE_CAUSE = 4 ∧ t.boot.starting = false ∧ t.boot.rx = none ∧ t.boot.tx = none)) ∧
  (∀ (s : State) (ok : Bool) (failing : BitVec 4) (nominal : Bool) (u : Nat), s.rd F.BOOT_STATUS_STEP = 3 → s.boot.starting = true → 
      answers (.startStepComplete true failing nominal u) s fun t =>
        t = s.wr F.BOOT_STATUS_STEP 4) ∧
  (∀ (s : State) (ok : Bool) (failing : BitVec 4) (nominal : Bool) (u : Nat), s.rd F.BOOT_STATUS_STEP = 4 → s.boot.starting = true → 
      answers (.startStepComplete true failing nominal u) s fun t =>
        t.rd F.BOOT_STATUS_STEP = 5 ∧
        (∀ n : Fin 192, (t.tiller n).imem = ((imgSecs s.slotImage 3).foldl (fun m x => Mem.store 0 m x.1 x.2) []) ∧ (t.tiller n).refRuns = !(imgSecs s.slotImage 3).isEmpty ∧ (t.tiller n).sreg = [] ∧ (t.tiller n).vreg = [])) ∧
  (∀ (s : State) (ok : Bool) (failing : BitVec 4) (nominal : Bool) (u : Nat), s.rd F.BOOT_STATUS_STEP = 3 → s.boot.starting = true → s.mode ≠ mRESET → 
      answers (.startStepComplete false failing nominal u) s fun t =>
        if ((s.boot.fails.filter fun v => decide (u < v + 600 * 10 ^ 12)) ++ [u]).length < 3 then t.mode = mRESET ∧ t.rd F.BOOT_LAST_RESET_CAUSE = 8 ∧ t.rd F.BOOT_LAST_RESET_FAIL_STEP = 3 ∧ t.boot.fails = ((s.boot.fails.filter fun v => decide (u < v + 600 * 10 ^ 12)) ++ [u]) else t.boot.starting = false ∧ t.rd F.BOOT_FAIL_COUNT = 3 ∧ t.mode = (if s.mode = mSAFESTOP then mSAFESTOP else mRECOVERY)) ∧
  (∀ (s : State) (ok : Bool) (failing : BitVec 4) (nominal : Bool) (u : Nat), s.rd F.BOOT_STATUS_STEP = 4 → s.boot.starting = true → s.mode ≠ mRESET → 
      answers (.startStepComplete false failing nominal u) s fun t =>
        if ((s.boot.fails.filter fun v => decide (u < v + 600 * 10 ^ 12)) ++ [u]).length < 3 then t.mode = mRESET ∧ t.rd F.BOOT_LAST_RESET_CAUSE = 8 ∧ t.rd F.BOOT_LAST_RESET_FAIL_STEP = 4 ∧ t.boot.fails = ((s.boot.fails.filter fun v => decide (u < v + 600 * 10 ^ 12)) ++ [u]) else t.boot.starting = false ∧ t.rd F.BOOT_FAIL_COUNT = 3 ∧ t.mode = (if s.mode = mSAFESTOP then mSAFESTOP else mRECOVERY)) ∧
  (∀ (s : State) (ok : Bool) (failing : BitVec 4) (nominal : Bool) (u : Nat), s.rd F.BOOT_STATUS_STEP = 5 → s.boot.starting = true → s.boot.warmStart = true ∧ s.mem.retained = true ∧ s.on F.MEM_TRN_STATE_VALID = true → 
      answers (.startStepComplete ok failing true u) s fun t =>
        t.rd F.BOOT_STATUS_STEP = 6 ∧ t.on F.BOOT_STATUS_TRAIN_SKIPPED = true ∧ t.memState = 2 ∧ t.on F.MEM_CTRL_EN = true ∧ t.mem.dram = s.mem.dram ∧ t.mem.lost = s.mem.lost) ∧
  (∀ (s : State) (ok : Bool) (failing : BitVec 4) (nominal : Bool) (u : Nat), s.rd F.BOOT_STATUS_STEP = 5 → s.boot.starting = true → s.boot.warmStart = false ∨ s.mem.retained = false ∨ s.on F.MEM_TRN_STATE_VALID = false ∨ nominal = false → 
      answers (.startStepComplete ok 0 nominal u) s fun t =>
        t.rd F.BOOT_STATUS_STEP = 6 ∧ t.on F.MEM_TRN_STATE_VALID = true ∧ t.rd F.MEM_TRN_STATE_FAIL = 0 ∧ t.memState = 2 ∧ t.on F.MEM_CTRL_EN = true ∧
        (s.on F.MEM_CFG_INLINE = true → t.mem.dram = [] ∧ t.mem.cond = [] ∧ t.mem.lost = [])) ∧
  (∀ (s : State) (ok : Bool) (failing : BitVec 4) (nominal : Bool) (u : Nat), s.rd F.BOOT_STATUS_STEP = 5 → s.boot.starting = true → s.boot.warmStart = false ∨ s.mem.retained = false ∨ s.on F.MEM_TRN_STATE_VALID = false ∨ nominal = false → failing ≠ 0 → s.mode ≠ mRESET → 
      answers (.startStepComplete ok failing nominal u) s fun t =>
        if ((s.boot.fails.filter fun v => decide (u < v + 600 * 10 ^ 12)) ++ [u]).length < 3 then t.mode = mRESET ∧ t.rd F.BOOT_LAST_RESET_CAUSE = 8 ∧ t.rd F.BOOT_LAST_RESET_FAIL_STEP = 5 ∧ t.boot.fails = ((s.boot.fails.filter fun v => decide (u < v + 600 * 10 ^ 12)) ++ [u]) else t.boot.starting = false ∧ t.rd F.BOOT_FAIL_COUNT = 3 ∧ t.mode = (if s.mode = mSAFESTOP then mSAFESTOP else mRECOVERY)) ∧
  (∀ (s : State) (ok : Bool) (failing : BitVec 4) (nominal : Bool) (u : Nat), s.rd F.BOOT_STATUS_STEP = 6 → s.boot.starting = true → s.cal.jrnA = none ∧ s.cal.jrnB = none → 
      answers (.startStepComplete ok failing nominal u) s fun t =>
        t.rd F.BOOT_STATUS_STEP = 7 ∧ t.boot = s.boot ∧ t.mode = s.mode ∧
        (t.on F.CAL_JRN_STATUS_FAIL = true ∧ t.cal = s.cal ∧ (s.mode ≠ mRESET → 487 ∈ t.raised))) ∧
  (∀ (s : State) (ok : Bool) (failing : BitVec 4) (nominal : Bool) (u : Nat), s.rd F.BOOT_STATUS_STEP = 7 → s.boot.starting = true → s.boot.setA = none ∧ s.boot.setB = none ∧ s.reg (R.BOOT_SET_ADDR 0) = 0xFFFFFFFF → s.mode = mSTANDBY ∧ s.forcedCause = 0 ∧ s.cdSkip = false ∧ s.on F.CAL_STATUS_BUSY = false → 
      answers (.startStepComplete ok failing nominal u) s fun t =>
        t.rd F.BOOT_STATUS_STEP = 8 ∧ t.boot.starting = true ∧ t.mode = mCALIBRATE ∧ t.rd F.CAL_STATUS_PLAN = 1 ∧ t.on F.CAL_STATUS_BUSY = true ∧ t.cal.internal = true ∧ t.cal.items = [1, 2]) ∧
  (∀ (s : State) (ok : Bool) (failing : BitVec 4) (nominal : Bool) (u : Nat), s.rd F.BOOT_STATUS_STEP = 7 → s.boot.starting = true → s.boot.setA = none ∧ s.boot.setB = none ∧ s.reg (R.BOOT_SET_ADDR 0) = 0xFFFFFFFF → (s.mode ≠ mSTANDBY ∨ s.forcedCause ≠ 0) ∧ s.cdSkip = false → 
      answers (.startStepComplete ok failing nominal u) s fun t =>
        t.rd F.BOOT_STATUS_STEP = 9 ∧ t.boot.starting = true ∧ t.on F.BOOT_STATUS_CD_DUE = true ∧ t.mode = s.mode) ∧
  (∀ (s : State) (ok : Bool) (failing : BitVec 4) (nominal : Bool) (u : Nat), s.boot.starting = true → 
      answers (.startStepComplete ok failing nominal u) s fun t =>
        t = (match s.rd F.BOOT_STATUS_STEP with | 1 => s.stepLoader | 2 => s.stepImage | 3 => (if ok then s.wr F.BOOT_STATUS_STEP 4 else s.failStart 8 3 u) | 4 => (if ok then s.loadSections.wr F.BOOT_STATUS_STEP 5 else s.failStart 8 4 u) | 5 => (if (s.stepDram failing.toNat nominal u).boot.starting then (s.stepDram failing.toNat nominal u).wr F.BOOT_STATUS_STEP 6 else s.stepDram failing.toNat nominal u) | 6 => s.stepCal.wr F.BOOT_STATUS_STEP 7 | 7 => (s.takeSettings.applyEntries u).stepCd | 9 => s.startTillers.startDone u | _ => s)) ∧
  (∀ (s : State) (ok : Bool) (failing : BitVec 4) (nominal : Bool) (u : Nat) (k : Fin 2) (j : JrnRec), s.rd F.BOOT_STATUS_STEP = 6 → s.boot.starting = true → s.newestJrn = some k.val ∧ s.jrnOf k = some j → 
      answers (.startStepComplete ok failing nominal u) s fun t =>
        t.rd F.BOOT_STATUS_STEP = 7 ∧ t.boot = s.boot ∧
        t.rd F.CAL_JRN_STATUS_SEQ = j.seq % 2 ^ 24 ∧ t.rd F.CAL_JRN_STATUS_SLOT = k ∧ t.on F.CAL_JRN_STATUS_VALID = true ∧ t.on F.CAL_JRN_STATUS_FAIL = false ∧
        t.cal.bofs = j.bofs ∧ t.cal.tCal = j.tCal ∧ t.cal.field = j.field ∧ t.cal.legTemp = j.legTemp ∧ t.cal.legSkew = j.legSkew ∧ t.cal.legBofs = j.legBofs ∧
        (s.boot.warmStart = false → t.reg R.CAL_LAST_CD = j.lastCd ∧ t.reg R.CAL_LAST_RZ = j.lastRz)) ∧
  (∀ (s : State) (ok : Bool) (failing : BitVec 4) (nominal : Bool) (u : Nat), s.rd F.BOOT_STATUS_STEP = 7 → s.boot.starting = true → s.boot.setA = none ∧ s.boot.setB = none ∧ s.reg (R.BOOT_SET_ADDR 0) = 0xFFFFFFFF → s.cdSkip = true → 
      answers (.startStepComplete ok failing nominal u) s fun t =>
        t.rd F.BOOT_STATUS_STEP = 9 ∧ t.boot.starting = true ∧ t.on F.BOOT_STATUS_CD_SKIPPED = true ∧ t.on F.BOOT_STATUS_CD_DUE = s.on F.BOOT_STATUS_CD_DUE ∧ t.mode = s.mode) ∧
  (∀ (s : State) (ok : Bool) (failing : BitVec 4) (nominal : Bool) (u : Nat), s.rd F.BOOT_STATUS_STEP = 9 → s.boot.starting = true → 
      answers (.startStepComplete ok failing nominal u) s fun t =>
        (t.rd F.BOOT_STATUS_STEP = 10 ∧ t.boot.starting = false ∧ t.on F.SYS_MODE_BOOT_DONE = true ∧ (s.mode ≠ mRESET → 504 ∈ t.raised ∧ 0 ∈ t.raised)) ∧
        (t.mode = if s.on F.BOOT_SET_OPT_AUTO_SCAN = true ∧ s.mode = mSTANDBY ∧ s.on F.BOOT_STATUS_CD_DUE = false ∧ s.forcedCause = 0 then mSPINUP else s.mode)) ∧
  (∀ (s : State) (ok : Bool) (failing : BitVec 4) (nominal : Bool) (u : Nat) (n : Fin 192), s.rd F.BOOT_STATUS_STEP = 9 → s.boot.starting = true → s.tilStopped = false ∧ (s.tiller n).refRuns = true ∧ (s.tiller n).state = .halted ∧ (s.tiller n).refRedo = none → 
      answers (.startStepComplete ok failing nominal u) s fun t =>
        t.rd (F.TIL_CFG_MSG_ATTN n) = 1 ∧ t.rd (F.TIL_CFG_POISON_ZERO n) = 1 ∧ t.rd (F.TIL_CFG_TRAP_MODE n) = 1 ∧ t.rd (F.TIL_ATTN_CFG_DL_ALARM n) = 0 ∧
        (t.tiller n).state = .running ∧ (t.tiller n).pc = 0) ∧
  (∀ (s : State) (ok : Bool) (failing : BitVec 4) (nominal : Bool) (u : Nat) (a v : Word), s.rd F.BOOT_STATUS_STEP = 7 → s.boot.starting = true → s.boot.setA = none ∧ s.boot.setB = none ∧ s.reg (R.BOOT_SET_ADDR 0) = a ∧ s.reg (R.BOOT_SET_ADDR 1) = 0xFFFFFFFF → a.toNat < 0x10000 ∨ (0xD00000 ≤ a.toNat ∧ a.toNat < 0xE00000) ∨ inWindow a.toNat = true → 
      answers (.startStepComplete ok failing nominal u) s fun t =>
        t.rd F.BOOT_STATUS_SET_REJ = min 255 (s.rd F.BOOT_STATUS_SET_REJ + 1) ∧
        (t.rd F.BOOT_STATUS_STEP = 8 ∨ t.rd F.BOOT_STATUS_STEP = 9)) ∧
  (∀ (s : State) (ok : Bool) (failing : BitVec 4) (nominal : Bool) (u : Nat), s.boot.starting = false ∨ s.rd F.BOOT_STATUS_STEP = 0 ∨ s.rd F.BOOT_STATUS_STEP = 8 ∨ 10 ≤ s.rd F.BOOT_STATUS_STEP → 
      answers (.startStepComplete ok failing nominal u) s fun t =>
        t = s) ∧
  (∀ (s : State), s.on F.BOOT_STATUS_CD_DUE = true ∧ s.mode = mSTANDBY ∧ s.forcedCause = 0 ∧ s.on F.CAL_STATUS_BUSY = false ∧ s.boot.starting = false → 
      answers .cdDueRerun s fun t =>
        t.mode = mCALIBRATE ∧ t.on F.CAL_STATUS_BUSY = true ∧ t.rd F.CAL_STATUS_PLAN = 1 ∧ t.cal.internal = true ∧ t.cal.items = [1, 2] ∧ t.sys.calFrom = mSTANDBY) ∧
  (∀ (s : State), s.on F.BOOT_STATUS_CD_DUE = false ∨ s.mode ≠ mSTANDBY ∨ s.forcedCause ≠ 0 ∨ s.on F.CAL_STATUS_BUSY = true ∨ s.boot.starting = true → 
      answers .cdDueRerun s fun t =>
        t = s) ∧
  (∀ (s : State) (img : List Byte) (hd : Bool) (u n : Nat), s.boot.writing = some (img, hd) → s.boot.heldReset = none ∨ s.boot.saving.isSome = true ∨ s.on F.CAL_STATUS_JRN_BUSY = true → 
      answers (.slotWriteComplete true u) s fun t =>
        t.on F.BOOT_STATUS_SLOT_WRITE = false ∧ t.boot.writing = none ∧ t.boot.fails = [] ∧ t.rd F.BOOT_FAIL_COUNT = 0 ∧
        t.boot.upd.state = 2 ∧ t.rd F.BOOT_STATUS_UPD_STATE = 2 ∧ t.boot.upd.version = imgVersion img ∧ t.boot.upd.fmt = imgFmt img ∧
        (n < img.length → t.flashByte ((if (imgFlags img).testBit 1 then 0 else 0x100000) + n) = img.getD n 0) ∧
        (hd = true → t.boot.autoStart = (s.boot.autoStart || s.on F.BOOT_HDL_CFG_AUTO_START) ∧ (s.boot.rx.isSome = true → t.rd F.BOOT_HDL_STATUS_RESULT = 0 ∧ t.boot.rx = none ∧ (s.mode ≠ mRESET → 506 ∈ t.raised))) ∧
        (s.rd F.BOOT_STATUS_UPD_STATE ≠ 2 ∧ s.mode ≠ mRESET → 505 ∈ t.raised) ∧
        (hd = false → (s.sys.cmd.all fun c => c.group != 4 || (t.rd F.SYS_MBOX_RESP_TAG == c.tag % 256 && t.rd F.SYS_MBOX_RESP_STATUS == 2 && t.reg R.SYS_MBOX_DATA == 0)) = true)) ∧
  (∀ (s : State) (img : List Byte) (hd : Bool) (u : Nat), s.boot.writing = some (img, hd) → s.boot.heldReset = none ∨ s.boot.saving.isSome = true ∨ s.on F.CAL_STATUS_JRN_BUSY = true → 
      answers (.slotWriteComplete false u) s fun t =>
        t.on F.BOOT_STATUS_SLOT_WRITE = false ∧ t.boot.writing = none ∧ t.boot.upd = s.boot.upd ∧ t.boot.flash = s.boot.flash ∧
        (hd = true → t.boot.autoStart = s.boot.autoStart ∧ (s.boot.rx.isSome = true → t.rd F.BOOT_HDL_STATUS_RESULT = 0x0A ∧ t.boot.rx = none ∧ (s.mode ≠ mRESET → 506 ∈ t.raised))) ∧
        (hd = false → (s.sys.cmd.all fun c => c.group != 4 || (t.rd F.SYS_MBOX_RESP_TAG == c.tag % 256 && t.rd F.SYS_MBOX_RESP_STATUS == 2 && t.reg R.SYS_MBOX_DATA == 0x0A && !t.on F.BOOT_STATUS_SESSION)) = true)) ∧
  (∀ (s : State) (img : List Byte) (hd : Bool) (v : Bool) (u g : Nat) (w : Bool), s.boot.writing = some (img, hd) → s.mode ≠ mRESET → s.boot.heldReset = some (g, w) → s.boot.saving = none ∧ s.on F.CAL_STATUS_JRN_BUSY = false → 
      answers (.slotWriteComplete v u) s fun t =>
        (t.mode = mRESET ∧ t.rd F.BOOT_LAST_RESET_CAUSE = (if w then 2 else 3) ∧ t.boot.heldReset = none ∧ t.boot.writing = none) ∧
        (t.boot.upd.state = if v then 2 else s.boot.upd.state)) ∧
  (∀ (s : State) (ok : Bool) (k : Fin 2) (g : Nat) (w : Bool), s.boot.saving = some k.val → s.mode ≠ mRESET → s.boot.heldReset = some (g, w) → s.boot.writing = none ∧ s.on F.CAL_STATUS_JRN_BUSY = false → 
      answers (.settingsSaveComplete ok) s fun t =>
        (t.mode = mRESET ∧ t.rd F.BOOT_LAST_RESET_CAUSE = (if w then 2 else 3) ∧ t.boot.heldReset = none ∧ t.boot.saving = none) ∧
        (ok = true → t.setOf k = some (s.setRec (((match s.newestSet (fun _ => true) with | some j => ((s.setOf j).map SetRec.seq).getD 0 | none => 0) + 1) % 2 ^ 32)))) ∧
  (∀ (s : State) (v : Bool) (u g : Nat) (w : Bool), s.boot.writing = none → s.boot.heldReset = some (g, w) → s.boot.saving = none ∧ s.on F.CAL_STATUS_JRN_BUSY = false → 
      answers (.slotWriteComplete v u) s fun t =>
        if s.mode = mRESET then t = s else t.mode = mRESET ∧ t.rd F.BOOT_LAST_RESET_CAUSE = (if w then 2 else 3) ∧ t.boot.heldReset = none ∧ t.boot.flash = s.boot.flash) ∧
  (∀ (s : State) (v : Bool) (u : Nat), s.boot.writing = none → s.boot.heldReset = none ∨ s.boot.saving.isSome = true ∨ s.on F.CAL_STATUS_JRN_BUSY = true → 
      answers (.slotWriteComplete v u) s fun t =>
        t = s) ∧
  (∀ (s : State) (ok : Bool) (k : Fin 2), s.boot.saving = some k.val → s.boot.heldReset = none ∨ s.boot.writing.isSome = true ∨ s.on F.CAL_STATUS_JRN_BUSY = true → 
      answers (.settingsSaveComplete ok) s fun t =>
        t.boot.saving = none ∧
        (if ok then t.setOf k = some (s.setRec (((match s.newestSet (fun _ => true) with | some j => ((s.setOf j).map SetRec.seq).getD 0 | none => 0) + 1) % 2 ^ 32)) ∧ t.setOf (1 - k.val) = s.setOf (1 - k.val) ∧ ofBytes (t.flashBytes (0x3FFFC + 0x10000 * k.val) 4) = 0 else t.boot.setA = s.boot.setA ∧ t.boot.setB = s.boot.setB) ∧
        ((s.sys.cmd.all fun c => c.group != 7 || (t.rd F.SYS_MBOX_RESP_TAG == c.tag % 256 && t.rd F.SYS_MBOX_RESP_STATUS == 2 && t.sys.cmd == none)) = true)) ∧
  (∀ (s : State) (ok : Bool), s.boot.saving = none → 
      answers (.settingsSaveComplete ok) s fun t =>
        t = s) ∧
  (∀ (s : State) (e : LogEntry) (rest : List LogEntry), s.boot.log = e :: rest → s.tilHeld = false ∧ s.on F.SYS_MODE_BOOT_DONE = true ∧ (s.sys.pfLow = false ∨ (s.rd F.BOOT_LOG_INDEX_NEXT) % 1024 ≠ 0) → 
      answers .logbookEntryProgram s fun t =>
        (t.boot.log = rest ∧ t.boot.starts = (if e.kind = 2 then s.boot.starts + 1 else s.boot.starts) ∧ t.rd F.BOOT_LOG_INDEX_NEXT = ((s.rd F.BOOT_LOG_INDEX_NEXT) + 1) % 2 ^ 32) ∧
        t.flashBytes (0x900000 + 64 * ((s.rd F.BOOT_LOG_INDEX_NEXT) % 16384)) 64 = e.bytes (s.rd F.BOOT_LOG_INDEX_NEXT) s.boot.starts) ∧
  (∀ (s : State), s.boot.log = [] ∨ s.tilHeld = true ∨ s.on F.SYS_MODE_BOOT_DONE = false ∨ (s.sys.pfLow = true ∧ (s.rd F.BOOT_LOG_INDEX_NEXT) % 1024 = 0) → 
      answers .logbookEntryProgram s fun t =>
        t = s)

/-- Headland transfers: sending, receiving, relaying, confirming. SEND starts a transfer of the staged image and sends what the
window of 4 permits; a write without a checked image is rejected. ACK, NAK and the 1 ms timeout move the window, the ninth turn of
one packet ends the transfer with ABORT. An OFFER is accepted with ACK, refused with ABORT or answered NAK, and during a transfer
with the NAK of the packet expected; DATA in order is staged, acknowledged and relayed, END has the image checked and its slot
written or a RESULT sent upstream. DATA and END wait for DRAM where it does not serve. RESULT, ABORT, CONFIRM and AUTO_START act as
R427 to R429 say. Commands shown to complete here: headlandSend, headlandConfirm, headlandConfirmPacket, headlandOffer,
headlandData, headlandEnd, headlandAbort, headlandAck, headlandNak, headlandResendTimeout, headlandResult, headlandAutoStart. -/
def Obligations.HeadlandTransfers : Prop :=
  (∀ (s : State), s.mode ≠ mRESET → s.boot.checked ≠ 0 ∧ s.on F.BOOT_STATUS_SESSION = true ∧ s.boot.tx = none → 
      answers .headlandSend s fun t =>
        t.on F.BOOT_HDL_STATUS_TX_BUSY = true ∧ t.boot.sent = true ∧
        (∀ h : Fin 7, t.on (F.BOOT_HDL_RES_VALID (h + 1)) = false) ∧
        hdlPumped (some ⟨s.stageBase, s.boot.checked, 0, 0, 0, false, 0, []⟩) s t ∧
        (s.mgmtWaits s.stageBase = false → (t.boot.hdlDn.getD s.boot.hdlDn.length ⟨0, 0, 0, 0, 0, []⟩).payload = (s.mgmtLoad s.stageBase 256).1)) ∧
  (∀ (s : State), s.mode ≠ mRESET → s.boot.checked = 0 ∨ s.on F.BOOT_STATUS_SESSION = false ∨ s.boot.tx ≠ none → 
      answers .headlandSend s fun t =>
        rejected s t) ∧
  (∀ (s : State) (u : Nat), s.mode ≠ mRESET → 
      answers (.headlandConfirm u) s fun t =>
        (if s.confirmPermitted = true then t.rd F.BOOT_UPD_RESULT_RESULT = (if s.boot.upd.state = 2 then 0 else 0x0B) ∧ t.boot.upd.state = (if s.boot.upd.state = 2 then 0 else s.boot.upd.state) ∧ (s.boot.upd.state ≠ 2 → 505 ∈ t.raised) else t.boot.upd = s.boot.upd) ∧
        (t.boot.hdlDn.map (fun p => (p.type, p.hops, p.seq, p.payload)) = s.boot.hdlDn.map (fun p => (p.type, p.hops, p.seq, p.payload)) ++ [(8, 0, 0, [])])) ∧
  (∀ (s : State) (hops : Fin 8) (u : Nat), s.mode ≠ mRESET → 
      answers (.headlandConfirmPacket hops u) s fun t =>
        (if s.confirmPermitted = true then t.rd F.BOOT_UPD_RESULT_RESULT = (if s.boot.upd.state = 2 then 0 else 0x0B) ∧ t.boot.upd.state = (if s.boot.upd.state = 2 then 0 else s.boot.upd.state) ∧ (s.boot.upd.state ≠ 2 → 505 ∈ t.raised) else t.boot.upd = s.boot.upd) ∧
        (if s.on F.BOOT_HDL_CFG_RELAY = true then t.boot.hdlDn.map (fun p => (p.type, p.hops, p.seq, p.payload)) = s.boot.hdlDn.map (fun p => (p.type, p.hops, p.seq, p.payload)) ++ [(8, (hops.val + 1), 0, [])] else t.boot.hdlDn = s.boot.hdlDn)) ∧
  (∀ (s : State) (hops : Fin 8) (total : Word), s.mode ≠ mRESET → s.boot.rx = none → 
      answers (.headlandOffer false hops total) s fun t =>
        t = { s with boot := { s.boot with hdlUp := t.boot.hdlUp }, freeIx := t.freeIx } ∧
        (t.boot.hdlUp.map (fun p => (p.type, p.hops, p.seq, p.offset, p.payload)) = s.boot.hdlUp.map (fun p => (p.type, p.hops, p.seq, p.offset, p.payload)) ++ [(5, 0, 0, 0, [])])) ∧
  (∀ (s : State) (x : HdlRx) (good : Bool) (hops : Fin 8) (total : Word), s.mode ≠ mRESET → s.boot.rx = some x → s.hdlMay = true → 
      answers (.headlandOffer good hops total) s fun t =>
        t = { s with boot := { s.boot with hdlUp := s.boot.hdlUp ++ [⟨5, 0, x.seq, 0, x.total, []⟩] } }) ∧
  (∀ (s : State) (x : HdlRx) (good : Bool) (hops : Fin 8) (total : Word), s.mode ≠ mRESET → s.boot.rx = some x → s.hdlMay = false → 
      answers (.headlandOffer good hops total) s fun t =>
        t.boot.hdlUp = s.boot.hdlUp ++ [⟨6, 0, 0, 0, x.total, []⟩] ∧
        (t.boot.rx = none ∧ t.on F.BOOT_HDL_STATUS_RX_BUSY = false ∧ (s.mode ≠ mRESET → 506 ∈ t.raised)) ∧
        ((s.boot.tx.all fun y => (!y.relay && t.boot.tx == s.boot.tx && t.boot.hdlDn == s.boot.hdlDn) || (y.relay && t.boot.tx == none && t.boot.hdlDn == s.boot.hdlDn ++ [⟨6, y.hops, y.next, 0, y.total, []⟩] && !t.on F.BOOT_HDL_STATUS_TX_BUSY)) = true)) ∧
  (∀ (s : State) (hops : Fin 8) (total : Word), s.mode ≠ mRESET → s.boot.rx = none → s.hdlMay = false ∨ s.boot.writing ≠ none ∨ ¬ (272 ≤ total.toNat ∧ total.toNat ≤ 2 ^ 23) ∨ s.localSize < s.stageBase + 2 ^ 23 → 
      answers (.headlandOffer true hops total) s fun t =>
        t = { s with boot := { s.boot with hdlUp := s.boot.hdlUp ++ [⟨6, 0, 0, 0, total.toNat, []⟩] } }) ∧
  (∀ (s : State) (hops : Fin 8) (total : Word), s.mode ≠ mRESET → s.hdlMay = true ∧ s.boot.rx = none ∧ s.boot.writing = none ∧ (272 ≤ total.toNat ∧ total.toNat ≤ 2 ^ 23) ∧ s.stageBase + 2 ^ 23 ≤ s.localSize → 
      answers (.headlandOffer true hops total) s fun t =>
        t.on F.BOOT_HDL_STATUS_RX_BUSY = true ∧ t.boot.rx = some ⟨s.stageBase, total.toNat, 0, 1, hops.val, false⟩ ∧ t.boot.sent = false ∧ t.boot.autoStart = s.boot.autoStart ∧
        t.boot.hdlUp = s.boot.hdlUp ++ [⟨4, 0, 0, 0, total.toNat, []⟩] ∧
        (if s.on F.BOOT_HDL_CFG_RELAY = true ∧ s.boot.tx = none then t.on F.BOOT_HDL_STATUS_TX_BUSY = true ∧ t.boot.tx.map (fun y => { y with head := [] }) = some ⟨s.stageBase, total.toNat, 0, 1, 0, true, hops.val + 1, []⟩ ∧ t.boot.hdlDn.map (fun p => (p.type, p.hops, p.seq, p.offset, p.total, p.payload.length)) = s.boot.hdlDn.map (fun p => (p.type, p.hops, p.seq, p.offset, p.total, p.payload.length)) ++ [(1, hops.val + 1, 0, 0, total.toNat, 256)] ∧ t.boot.hdlDn.getLast?.map HdlPkt.payload = t.boot.tx.map HdlTx.head else t.boot.tx = s.boot.tx ∧ t.boot.hdlDn = s.boot.hdlDn)) ∧
  (∀ (s : State) (x : HdlRx) (q : BitVec 16) (ofs : Word) (payload : List Byte), s.boot.rx = some x → s.hdlMay = true → q.toNat = x.seq → x.ended = false → s.mgmtWaits s.stageBase = false → ofs.toNat = x.got ∧ payload.length = min 4096 (x.total - x.got) ∧ payload.length ≠ 0 → 
      answers (.headlandData true q ofs payload) s fun t =>
        t.boot.rx = some { x with got := x.got + payload.length, seq := x.seq + 1 } ∧
        t.boot.hdlUp = s.boot.hdlUp ++ [⟨4, 0, q.toNat, 0, x.total, []⟩] ∧
        hdlPumped s.boot.tx ({ s with boot := { s.boot with rx := some { x with seq := x.seq + 1 } } } : State) t ∧
        (x.stage + x.got + payload.length ≤ s.localSize → ∀ i : Fin 4096, i.val < payload.length → t.dramByte (x.stage + x.got + i) = payload.getD i 0)) ∧
  (∀ (s : State) (x : HdlRx) (q : BitVec 16) (ofs : Word) (payload : List Byte) (y : HdlTx), s.boot.rx = some x → s.hdlMay = true → q.toNat = x.seq → x.ended = false → s.mgmtWaits s.stageBase = false → ofs.toNat = x.got ∧ payload.length = min 4096 (x.total - x.got) ∧ payload.length ≠ 0 → s.boot.tx = some y ∧ y.relay = true ∧ y.stage = x.stage ∧ y.total = x.total ∧ y.next = x.seq ∧ y.next < y.base + 4 ∧ x.got = 4096 * (x.seq - 1) ∧ 1 ≤ x.seq → s.memState = 2 ∧ s.on F.MEM_STATUS_INIT_BUSY = false ∧ s.on F.MEM_TRN_CTRL_BUSY = false ∧ s.sys.dramStopped = false ∧ s.mem.cond = [] ∧ x.stage + x.total ≤ s.localSize ∧ s.localSize ≤ 2 ^ 36 → 
      answers (.headlandData true q ofs payload) s fun t =>
        t.boot.hdlDn = s.boot.hdlDn ++ [⟨2, y.hops, q.toNat, ofs.toNat, x.total, payload⟩]) ∧
  (∀ (s : State) (x : HdlRx) (q : BitVec 16) (ofs : Word) (payload : List Byte), s.boot.rx = some x → s.hdlMay = true → q.toNat = x.seq → x.ended = false → s.mgmtWaits s.stageBase = false → ofs.toNat ≠ x.got ∨ payload.length ≠ min 4096 (x.total - x.got) ∨ payload.length = 0 → 
      answers (.headlandData true q ofs payload) s fun t =>
        t = { s with boot := { s.boot with hdlUp := s.boot.hdlUp ++ [⟨5, 0, x.seq, 0, x.total, []⟩] } }) ∧
  (∀ (s : State) (x : HdlRx) (q : BitVec 16) (ofs : Word) (payload : List Byte) (nb : Bool), s.boot.rx = some x → s.hdlMay = true → nb = false ∨ (s.mgmtWaits s.stageBase = false ∧ (x.ended = true ∨ q.toNat ≠ x.seq)) → 
      (answers (.headlandData nb q ofs payload) s fun t =>
        t = { s with boot := { s.boot with hdlUp := s.boot.hdlUp ++ [⟨5, 0, x.seq, 0, x.total, []⟩] } }) ∧
      (answers (.headlandEnd nb q 5) s fun t =>
        t = { s with boot := { s.boot with hdlUp := s.boot.hdlUp ++ [⟨5, 0, x.seq, 0, x.total, []⟩] } })) ∧
  (∀ (s : State) (x : HdlRx) (q : BitVec 16) (ofs : Word) (payload : List Byte) (nb : Bool), s.boot.rx = some x → s.hdlMay = false → 
      (answers (.headlandData nb q ofs payload) s fun t =>
        t.boot.hdlUp = s.boot.hdlUp ++ [⟨6, 0, q.toNat, 0, x.total, []⟩] ∧
        (t.boot.rx = none ∧ t.on F.BOOT_HDL_STATUS_RX_BUSY = false ∧ (s.mode ≠ mRESET → 506 ∈ t.raised)) ∧
        ((s.boot.tx.all fun y => (!y.relay && t.boot.tx == s.boot.tx && t.boot.hdlDn == s.boot.hdlDn) || (y.relay && t.boot.tx == none && t.boot.hdlDn == s.boot.hdlDn ++ [⟨6, y.hops, y.next, 0, y.total, []⟩] && !t.on F.BOOT_HDL_STATUS_TX_BUSY)) = true)) ∧
      (answers (.headlandEnd nb q 5) s fun t =>
        t.boot.hdlUp = s.boot.hdlUp ++ [⟨6, 0, q.toNat, 0, x.total, []⟩] ∧
        (t.boot.rx = none ∧ t.on F.BOOT_HDL_STATUS_RX_BUSY = false ∧ (s.mode ≠ mRESET → 506 ∈ t.raised)) ∧
        ((s.boot.tx.all fun y => (!y.relay && t.boot.tx == s.boot.tx && t.boot.hdlDn == s.boot.hdlDn) || (y.relay && t.boot.tx == none && t.boot.hdlDn == s.boot.hdlDn ++ [⟨6, y.hops, y.next, 0, y.total, []⟩] && !t.on F.BOOT_HDL_STATUS_TX_BUSY)) = true))) ∧
  (∀ (s : State) (x : HdlRx) (q : BitVec 16) (u : Nat), s.boot.rx = some x → s.hdlMay = true → q.toNat = x.seq → x.ended = false → s.mgmtWaits s.stageBase = false → x.got ≠ x.total → 
      answers (.headlandEnd true q u) s fun t =>
        t.boot.hdlUp = s.boot.hdlUp ++ [⟨4, 0, q.toNat, 0, x.total, []⟩, ⟨7, 0, 0, (x.hops + 1) * 256 + 8, x.total, []⟩] ∧
        t.boot.rx = none ∧ t.on F.BOOT_HDL_STATUS_RX_BUSY = false ∧ t.rd F.BOOT_HDL_STATUS_RESULT = 8 ∧ t.rd F.BOOT_UPD_RESULT_RESULT = 8 ∧ 506 ∈ t.raised ∧
        hdlPumped s.boot.tx ({ s with boot := { s.boot with rx := some { x with seq := x.seq + 1 } } } : State) t) ∧
  (∀ (s : State) (x : HdlRx) (q : BitVec 16) (u : Nat), s.boot.rx = some x → s.hdlMay = true → q.toNat = x.seq → x.ended = false → s.mgmtWaits s.stageBase = false → x.got = x.total → 
      answers (.headlandEnd true q u) s fun t =>
        (if s.stagedCheck (s.mgmtLoad x.stage x.total).1 = 0 then t.boot.hdlUp = s.boot.hdlUp ++ [⟨4, 0, q.toNat, 0, x.total, []⟩] ∧ t.boot.rx = some { x with seq := x.seq + 1, ended := true } ∧ t.boot.writing = some ((s.mgmtLoad x.stage x.total).1, true) ∧ t.on F.BOOT_STATUS_SLOT_WRITE = true ∧ t.boot.upd.state = 1 ∧ t.rd F.BOOT_STATUS_UPD_STATE = 1 else t.boot.hdlUp = s.boot.hdlUp ++ [⟨4, 0, q.toNat, 0, x.total, []⟩, ⟨7, 0, 0, (x.hops + 1) * 256 + s.stagedCheck (s.mgmtLoad x.stage x.total).1, x.total, []⟩] ∧ t.boot.rx = none ∧ t.on F.BOOT_HDL_STATUS_RX_BUSY = false ∧ t.rd F.BOOT_HDL_STATUS_RESULT = s.stagedCheck (s.mgmtLoad x.stage x.total).1 ∧ t.rd F.BOOT_UPD_RESULT_RESULT = s.stagedCheck (s.mgmtLoad x.stage x.total).1 ∧ 506 ∈ t.raised) ∧
        hdlPumped s.boot.tx ({ s with boot := { s.boot with rx := some { x with seq := x.seq + 1 } } } : State) t) ∧
  (∀ (s : State) (x : HdlRx) (q : BitVec 16) (ofs : Word) (payload : List Byte) (u : Nat), s.boot.rx = some x → s.hdlMay = true → s.mgmtWaits s.stageBase = true → 
      (answers (.headlandData true q ofs payload) s fun t =>
        t.boot = { s.boot with memJobs := s.boot.memJobs ++ [.data q.toNat ofs.toNat payload] } ∧
        (t.memState = (if s.memState = 4 then 5 else s.memState) ∧ (s.memState = 3 → t.on F.MEM_STATUS_PENDING_ENABLE = true))) ∧
      (answers (.headlandEnd true q u) s fun t =>
        t.boot = { s.boot with memJobs := s.boot.memJobs ++ [.fin q.toNat u] } ∧
        (t.memState = (if s.memState = 4 then 5 else s.memState) ∧ (s.memState = 3 → t.on F.MEM_STATUS_PENDING_ENABLE = true)))) ∧
  (∀ (s : State) (nb : Bool) (q : BitVec 16) (ofs : Word) (payload : List Byte), s.boot.rx = none → 
      (answers (.headlandData nb q ofs payload) s fun t =>
        t = s) ∧
      (answers (.headlandEnd nb q 5) s fun t =>
        t = s) ∧
      (answers (.headlandAbort false) s fun t =>
        t = s)) ∧
  (∀ (s : State) (x : HdlTx) (q : BitVec 16), s.boot.tx = some x → x.base ≤ q.toNat ∧ q.toNat < x.next → 
      (answers (.headlandAck q) s fun t =>
        if hdlCount x.total < q.toNat then t.boot.tx = none ∧ t.on F.BOOT_HDL_STATUS_TX_BUSY = false ∧ (x.relay = false → t.rd F.BOOT_HDL_STATUS_RESULT = 0 ∧ (s.mode ≠ mRESET → 506 ∈ t.raised)) else hdlPumped (some { x with base := q.toNat + 1, resends := 0 }) s t) ∧
      (answers (.headlandNak q) s fun t =>
        if q.toNat = x.base ∧ 8 ≤ x.resends then t.boot.hdlDn = s.boot.hdlDn ++ [⟨6, x.hops, q.toNat, 0, x.total, []⟩] ∧ hdlFailed x s t else hdlPumped (some { x with base := q.toNat, next := q.toNat, resends := (if q.toNat = x.base then x.resends else 0) + 1 }) s t)) ∧
  (∀ (s : State) (x : HdlTx) (q : BitVec 16), s.boot.tx = some x → x.base ≤ q.toNat ∧ q.toNat = x.next → 
      answers (.headlandNak q) s fun t =>
        if hdlCount x.total + 1 < q.toNat then t.boot.tx = none ∧ t.on F.BOOT_HDL_STATUS_TX_BUSY = false ∧ (x.relay = false → t.rd F.BOOT_HDL_STATUS_RESULT = 0 ∧ (s.mode ≠ mRESET → 506 ∈ t.raised)) else hdlPumped (some { x with base := q.toNat, resends := 0 }) s t) ∧
  (∀ (s : State) (x : HdlTx) (q : BitVec 16), s.boot.tx = some x → q.toNat < x.base ∨ x.next ≤ q.toNat → 
      answers (.headlandAck q) s fun t =>
        t = s) ∧
  (∀ (s : State) (x : HdlTx) (q : BitVec 16), s.boot.tx = some x → q.toNat < x.base ∨ x.next < q.toNat → 
      answers (.headlandNak q) s fun t =>
        t = s) ∧
  (∀ (s : State) (x : HdlTx), s.boot.tx = some x → x.base < x.next → 
      answers .headlandResendTimeout s fun t =>
        if x.base = x.base ∧ 8 ≤ x.resends then t.boot.hdlDn = s.boot.hdlDn ++ [⟨6, x.hops, x.base, 0, x.total, []⟩] ∧ hdlFailed x s t else hdlPumped (some { x with base := x.base, next := x.base, resends := (if x.base = x.base then x.resends else 0) + 1 }) s t) ∧
  (∀ (s : State) (x : HdlTx), s.boot.tx = some x → 
      answers (.headlandAbort true) s fun t =>
        hdlFailed x s t ∧ t.boot.hdlDn = s.boot.hdlDn) ∧
  (∀ (s : State) (q : BitVec 16), s.boot.tx = none → 
      (answers (.headlandAck q) s fun t =>
        t = s) ∧
      (answers (.headlandNak q) s fun t =>
        t = s) ∧
      (answers .headlandResendTimeout s fun t =>
        t = s) ∧
      (answers (.headlandAbort true) s fun t =>
        t = s)) ∧
  (∀ (s : State) (x : HdlRx), s.boot.rx = some x → 
      answers (.headlandAbort false) s fun t =>
        if x.ended = true then t = s else t.boot.rx = none ∧ t.on F.BOOT_HDL_STATUS_RX_BUSY = false ∧ (s.mode ≠ mRESET → 506 ∈ t.raised) ∧ (s.boot.tx.all fun y => (!y.relay && t.boot.tx == s.boot.tx && t.boot.hdlDn == s.boot.hdlDn) || (y.relay && t.boot.tx == none && t.boot.hdlDn == s.boot.hdlDn ++ [⟨6, y.hops, y.next, 0, y.total, []⟩] && !t.on F.BOOT_HDL_STATUS_TX_BUSY)) = true) ∧
  (∀ (s : State) (h result : Byte), s.mode ≠ mRESET → 
      answers (.headlandResult h result) s fun t =>
        (t.boot = { s.boot with hdlUp := t.boot.hdlUp } ∧ t.boot.hdlUp.take s.boot.hdlUp.length = s.boot.hdlUp ∧ (t.boot.hdlUp.drop s.boot.hdlUp.length).map (fun p => (p.type, p.offset, p.payload)) = [(7, 256 * h.toNat + result.toNat, [])]) ∧
        (if s.boot.sent = true ∧ 1 ≤ h.toNat ∧ h.toNat ≤ 7 then t.rd (F.BOOT_HDL_RES_RESULT h.toNat) = result.toNat ∧ t.on (F.BOOT_HDL_RES_VALID h.toNat) = true else t.regs = s.regs)) ∧
  (∀ (s : State), s.boot.autoStart = true ∧ s.boot.tx = none ∧ s.flashBusy = false ∧ s.mode ≠ mRESET → 
      answers .headlandAutoStart s fun t =>
        t.mode = mRESET ∧ t.rd F.BOOT_LAST_RESET_CAUSE = 3 ∧ t.boot.warmStart = false ∧ t.boot.flash = s.boot.flash ∧ t.boot.upd = s.boot.upd) ∧
  (∀ (s : State), s.boot.autoStart = false ∨ s.boot.tx ≠ none ∨ s.flashBusy = true ∨ s.mode = mRESET → 
      answers .headlandAutoStart s fun t =>
        t = s) ∧
  (∀ (s : State) (hops : Fin 8) (total : Word) (nb : Bool), s.mode = mRESET → 
      (answers (.headlandOffer nb hops total) s fun t =>
        t = s) ∧
      (answers .headlandSend s fun t =>
        t = s) ∧
      (answers (.headlandConfirm 5) s fun t =>
        t = s) ∧
      (answers (.headlandConfirmPacket hops 5) s fun t =>
        t = s) ∧
      (answers (.headlandResult 3 4) s fun t =>
        t = s))

/-- The event controller, the performance counters, the trace and JTAG. A raise sets its pending bit, posts or holds the messages of
the vectors whose summary rises, queues its logbook entry and its trace record; a write of EVT_PEND clears bits and posts again.
FORCE raises an event. Counters clear when their selection changes; a live read answers and latches. A snapshot latches the
counters, and the reader copies them. A sample reloads its count and forms its record; the oldest record goes where its stream is
routed, or is dropped and counted. A JTAG instruction loads, and those that drive the boundary hold LI_N low. Commands shown to
complete here: eventRaise, pendingClear, eventForce, counterConfigWrite, counterLiveRead, clearAll, traceClr, snap, snapshotPeriod,
snapshotCopy, preciseSample, traceRecord, bypass, idcode, samplePreload, extest, extestPulse, extestTrain, clamp, highz. -/
def Obligations.EventsCountersTraceAndJtag : Prop :=
  (∀ (s : State) (e : Fin 512) (w : Word) (rest : List (Nat × Word)) (u : Nat), s.raises = (e.val, w) :: rest → 
      answers (.eventRaise u) s fun t =>
        (∀ i : Fin 512, t.isPending i = (decide (i = e) || s.isPending i)) ∧
        (t.lnk.msgs = s.lnk.msgs ++ (List.range 32).filter (fun v => !s.summary v && t.summary v && s.msixOpen v) ∧ ∀ v : Fin 32, (t.reg 0xC09000).toNat.testBit v = ((s.reg 0xC09000).toNat.testBit v || (!s.summary v && t.summary v && !s.msixOpen v))) ∧
        (t.obs.queue = s.obs.queue ++ (if s.on (F.EVT_CFG_TRACE e) = true ∧ s.rd F.OBS_TRC_ROUTE_EVT ≠ 0 then [(.evt, bytesOf 4 (0x20000000 + e.val) ++ bytesOf 4 w.toNat ++ bytesOf 8 (s.pbTime u))] else [])) ∧
        (if s.on (F.EVT_CFG_LOG e) = true ∧ s.tilHeld = false then s.boot.log.length < 63 → t.boot.log = s.boot.log ++ (if s.boot.lost = 0 then [] else [⟨4, s.mode, 0, s.pbTime u, [BitVec.ofNat 32 (min s.boot.lost 0xFFFFFFFF)]⟩]) ++ [⟨1, s.mode, e, s.pbTime u, [BitVec.ofNat 32 (min (Tab.get (fun _ => 0) s.obs.raises e + 1) 0xFFFFFFFF), w, s.causeWord e]⟩] else t.boot.log = s.boot.log) ∧
        (s.isPending e = true ∨ s.rd F.MER_CAP_TRIG_EVENT ≠ e → t.cap = s.cap)) ∧
  (∀ (s : State) (e : Nat) (w : Word) (rest : List (Nat × Word)) (u : Nat), s.raises = (e, w) :: rest → 
      answers (.eventRaise u) s fun t =>
        t = ({ s with raises := rest } : State).deliverRaise e w u) ∧
  (∀ (s : State) (u : Nat), s.raises = [] → 
      answers (.eventRaise u) s fun t =>
        t = s) ∧
  (∀ (s : State) (i : Fin 16) (w : Word), s.mode ≠ mRESET → 
      answers (.pendingClear i w) s fun t =>
        t.reg (R.EVT_PEND i) = s.reg (R.EVT_PEND i) &&& ~~~w ∧
        (∀ j : Fin 16, j ≠ i → t.reg (R.EVT_PEND j) = s.reg (R.EVT_PEND j)) ∧
        (t.lnk.msgs = s.lnk.msgs ++ (List.range 32).filter (fun v => t.summary v && s.msixOpen v) ∧ ∀ v : Fin 32, (t.reg 0xC09000).toNat.testBit v = ((s.reg 0xC09000).toNat.testBit v || (t.summary v && !s.msixOpen v)))) ∧
  (∀ (s : State) (e : Fin 512), s.mode ≠ mRESET → 
      answers (.eventForce e) s fun t =>
        if reservedEvent e = true then rejected s t else t = s.accessed.raise e) ∧
  (∀ (s : State) (k : Fin 1024) (w : Word), s.mode ≠ mRESET → 
      answers (.counterConfigWrite k w) s fun t =>
        (if counterWordOk k w = false then rejected s t else t.reg (R.OBS_CNT_CFG k) = w &&& 0xC0FF0FFF ∧ Tab.get (fun _ => 0) t.obs.cnt k = (if Word.field (s.reg (R.OBS_CNT_CFG k)) 23 16 = Word.field w 23 16 ∧ Word.field (s.reg (R.OBS_CNT_CFG k)) 11 0 = Word.field w 11 0 then Tab.get (fun _ => 0) s.accessed.obs.cnt k else 0)) ∧
        (∀ j : Fin 1024, j ≠ k → Tab.get (fun _ => 0) t.obs.cnt j = Tab.get (fun _ => 0) s.accessed.obs.cnt j ∧ t.reg (R.OBS_CNT_CFG j) = s.reg (R.OBS_CNT_CFG j))) ∧
  (∀ (s : State) (k : Fin 1024), s.mode ≠ mRESET → 
      answers (.counterLiveRead k) s fun t =>
        if s.groupStopped (counterGroup k) = true then t.sys.rdata = 0 ∧ 7 ∈ t.raised else t.sys.rdata = Tab.get (fun _ => 0) s.accessed.obs.cnt k % 2 ^ 32 ∧ t.rd (F.OBS_CNT_LIVE_HI_VALUE k) = Tab.get (fun _ => 0) s.accessed.obs.cnt k / 2 ^ 32 % 2 ^ 16) ∧
  (∀ (s : State) (u : Nat), s.mode ≠ mRESET → 
      (answers .clearAll s fun t =>
        t.obs = { s.accessed.obs with cnt := [] } ∧ ∀ i : Fin 32, t.rd (F.OBS_SAT_SAT i) = 0) ∧
      (answers .traceClr s fun t =>
        if s.ringRouted = true then rejected s t else t.rd F.OBS_TRC_WPTR_OFS = 0 ∧ t.rd F.OBS_TRC_RPTR_OFS = 0 ∧ t.on F.OBS_STATUS_FULL = false ∧ t.obs = { s.accessed.obs with unread := 0, levelRaised := false, atEnd := false })) ∧
  (∀ (s : State) (u : Nat), s.mode ≠ mRESET → s.on F.OBS_STATUS_SNAP_BUSY = false → 
      answers (.snap u) s fun t =>
        t.on F.OBS_STATUS_SNAP_BUSY = true ∧ t.obs = { s.accessed.obs with snapCnt := s.accessed.obs.cnt, snapTs := s.pbTime u } ∧
        (∀ g : Fin 10, (t.rd F.OBS_STATUS_STALE).testBit g = s.groupStopped g)) ∧
  (∀ (s : State) (u : Nat), s.mode ≠ mRESET → s.on F.OBS_STATUS_SNAP_BUSY = true → 
      answers (.snap u) s fun t =>
        t.rd F.OBS_SNAP_MISS_COUNT = min (s.rd F.OBS_SNAP_MISS_COUNT + 1) (2 ^ 32 - 1) ∧
        t.obs = s.accessed.obs) ∧
  (∀ (s : State) (u : Nat), s.mode ≠ mRESET → s.rd F.OBS_SNAP_CFG_TRIG = 1 → s.on F.OBS_STATUS_SNAP_BUSY = false → 
      answers (.snapshotPeriod u) s fun t =>
        t.on F.OBS_STATUS_SNAP_BUSY = true ∧ t.obs = { s.obs with snapCnt := s.obs.cnt, snapTs := s.pbTime u } ∧
        (∀ g : Fin 10, (t.rd F.OBS_STATUS_STALE).testBit g = s.groupStopped g)) ∧
  (∀ (s : State) (u : Nat), s.mode ≠ mRESET → s.rd F.OBS_SNAP_CFG_TRIG = 1 → s.on F.OBS_STATUS_SNAP_BUSY = true → 
      answers (.snapshotPeriod u) s fun t =>
        t.rd F.OBS_SNAP_MISS_COUNT = min (s.rd F.OBS_SNAP_MISS_COUNT + 1) (2 ^ 32 - 1) ∧
        t.obs = s.obs) ∧
  (∀ (s : State) (u : Nat), s.mode = mRESET ∨ s.rd F.OBS_SNAP_CFG_TRIG ≠ 1 → 
      answers (.snapshotPeriod u) s fun t =>
        t = s) ∧
  (∀ (s : State), s.on F.OBS_STATUS_SNAP_BUSY = true → 
      answers .snapshotCopy s fun t =>
        (∀ k : Fin 1024, t.rd (F.OBS_CNT_SNAP_LO_VALUE k) + 2 ^ 32 * t.rd (F.OBS_CNT_SNAP_HI_VALUE k) = ((s.obs.snapCnt.filter fun x => x.1 % 1024 == k.val).getLast?.elim 0 Prod.snd) % 2 ^ 48) ∧
        t.rd F.OBS_SNAP_SEQ_SEQ = min (s.rd F.OBS_SNAP_SEQ_SEQ + 1) (2 ^ 32 - 1) ∧ t.rd F.OBS_SNAP_TS_LO_NS + 2 ^ 32 * t.rd F.OBS_SNAP_TS_HI_NS = s.obs.snapTs % 2 ^ 64 ∧
        (t.on F.OBS_STATUS_SNAP_BUSY = false ∧ (s.mode ≠ mRESET → 508 ∈ t.raised)) ∧
        (t.obs.queue = s.obs.queue ++ (if s.rd F.OBS_TRC_ROUTE_SNAP = 0 then [] else [(.snap, t.snapRecord)]))) ∧
  (∀ (s : State), s.on F.OBS_STATUS_SNAP_BUSY = false → 
      answers .snapshotCopy s fun t =>
        t = s) ∧
  (∀ (s : State) (n : Fin 192) (pc : BitVec 15) (word cyc : Word) (wait lat : Nat), s.on (F.TIL_CFG_SAMPLE_EN n) = true → (s.tiller n).sampleLeft = 0 → s.tilHeld = false → 
      answers (.preciseSample n pc word wait lat cyc) s fun t =>
        t.tiller n = { s.tiller n with sampleLeft := (t.tiller n).sampleLeft } ∧ othersKeep n s t ∧
        (t.tiller n).sampleLeft % 64 = 0 ∧ 64 * s.rd F.OBS_SMP_CFG_INTERVAL ≤ (t.tiller n).sampleLeft ∧ (t.tiller n).sampleLeft ≤ 64 * (s.rd F.OBS_SMP_CFG_INTERVAL + s.rd F.OBS_SMP_CFG_JITTER) ∧
        (if s.rd F.OBS_TRC_ROUTE_SMP = 0 then t.obs = s.obs else if 64 ≤ ((s.obs.queue.filter fun x => x.1 == .smp).length) then t.obs = s.obs ∧ t.rd F.OBS_SMP_DROP_COUNT = min (s.rd F.OBS_SMP_DROP_COUNT + 1) (2 ^ 32 - 1) else t.obs = { s.obs with queue := s.obs.queue ++ [(.smp, (bytesOf 4 (0x10000000 + n.val * 2 ^ 20 + (s.tiller n).retAttn.toNat * 2 ^ 19 + (s.tiller n).retTrap.toNat * 2 ^ 18 + min wait 0xFFFF) ++ bytesOf 4 (min lat 0xFFFF * 2 ^ 16 + pc.toNat / 4 * 4) ++ bytesOf 4 word.toNat ++ bytesOf 4 cyc.toNat))] })) ∧
  (∀ (s : State) (n : Fin 192) (pc : BitVec 15) (word cyc : Word) (wait lat : Nat), s.on (F.TIL_CFG_SAMPLE_EN n) = false ∨ (s.tiller n).sampleLeft ≠ 0 ∨ s.tilHeld = true → 
      answers (.preciseSample n pc word wait lat cyc) s fun t =>
        t = s) ∧
  (∀ (s : State) (b : List Byte) (x : Stream) (rest : List (Stream × List Byte)), s.obs.queue = (x, b) :: rest → s.route x = 1 → s.on F.OBS_TRC_CFG_WRAP = false ∧ (s.on F.OBS_STATUS_FULL = true ∨ s.obs.atEnd = true ∨ 65536 < s.rd F.OBS_TRC_WPTR_OFS + b.length) → 
      answers .traceRecord s fun t =>
        t.obs = { s.obs with queue := rest } ∧
        (t.on F.OBS_STATUS_FULL = true ∧ t.rd F.OBS_TRC_DROP_COUNT = min (s.rd F.OBS_TRC_DROP_COUNT + 1) (2 ^ 32 - 1) ∧ (s.rd F.OBS_TRC_DROP_COUNT = 0 ∧ s.mode ≠ mRESET → 511 ∈ t.raised))) ∧
  (∀ (s : State) (b : List Byte) (x : Stream) (rest : List (Stream × List Byte)), s.obs.queue = (x, b) :: rest → s.route x = 1 → ¬ (s.on F.OBS_TRC_CFG_WRAP = false ∧ (s.on F.OBS_STATUS_FULL = true ∨ s.obs.atEnd = true ∨ 65536 < s.rd F.OBS_TRC_WPTR_OFS + b.length)) → b.length ≤ 4096 → 
      answers .traceRecord s fun t =>
        t.obs.queue = rest ∧ t.obs.unread = min 65536 (s.obs.unread + b.length) ∧
        t.rd F.OBS_TRC_WPTR_OFS = (s.rd F.OBS_TRC_WPTR_OFS + b.length) % 65536 ∧
        (∀ i : Fin 1024, 4 * i.val + 4 ≤ b.length → t.reg (0xE10000 + (s.rd F.OBS_TRC_WPTR_OFS + 4 * i) % 65536) = BitVec.ofNat 32 (ofBytes ((b.drop (4 * i)).take 4))) ∧
        (t.obs.levelRaised = decide (s.rd F.OBS_TRC_CFG_THRESH * 1024 ≤ t.obs.unread) ∧ (t.obs.levelRaised = true ∧ s.obs.levelRaised = false ∧ s.mode ≠ mRESET → 509 ∈ t.raised))) ∧
  (∀ (s : State) (b : List Byte) (x : Stream) (rest : List (Stream × List Byte)), s.obs.queue = (x, b) :: rest → s.route x = 2 → s.memReady = true ∨ s.memState = 0 → s.engineTurn 5 = true → ringPlace s.trcSize (s.rd F.OBS_TRC_RING_WPTR_OFS) (s.rd F.OBS_TRC_RING_RPTR_OFS) 16 b.length = none → 
      answers .traceRecord s fun t =>
        t.obs = { s.obs with queue := rest } ∧
        (t.rd F.OBS_TRC_DROP_COUNT = min (s.rd F.OBS_TRC_DROP_COUNT + 1) (2 ^ 32 - 1) ∧ (s.rd F.OBS_TRC_DROP_COUNT = 0 ∧ s.mode ≠ mRESET → 511 ∈ t.raised)) ∧
        t.rd F.OBS_TRC_RING_WPTR_OFS = s.rd F.OBS_TRC_RING_WPTR_OFS) ∧
  (∀ (s : State) (b : List Byte) (x : Stream) (rest : List (Stream × List Byte)) (o : Nat), s.obs.queue = (x, b) :: rest → s.route x = 2 → s.memReady = true → s.engineTurn 5 = true → ringPlace s.trcSize (s.rd F.OBS_TRC_RING_WPTR_OFS) (s.rd F.OBS_TRC_RING_RPTR_OFS) 16 b.length = some (o, false) → b.length ≤ 64 ∧ s.trcBase + s.trcSize ≤ s.localSize ∧ s.localSize ≤ 2 ^ 36 → 
      answers .traceRecord s fun t =>
        t.obs.queue = rest ∧
        t.rd F.OBS_TRC_RING_WPTR_OFS = (o + b.length) % s.trcSize % 2 ^ 32 ∧
        (∀ i : Fin 64, i.val < b.length → t.dramByte (s.trcBase + o + i) = b.getD i 0)) ∧
  (∀ (s : State) (b : List Byte) (x : Stream) (rest : List (Stream × List Byte)), s.obs.queue = (x, b) :: rest → 
      answers .traceRecord s fun t =>
        (s.route x = 1 → t = ({ s with obs := { s.obs with queue := rest } } : State).traceOnChip b) ∧
        (s.route x = 2 ∧ (s.memReady = true ∨ s.memState = 0) → t = if s.engineTurn 5 = true then ({ s with obs := { s.obs with queue := rest } } : State).traceRing b else s) ∧
        (s.route x = 2 ∧ s.memReady = false ∧ s.memState = 3 ∧ Tab.get (fun _ => 0) s.mem.drain 5 ≠ 0 → t = ({ s with obs := { s.obs with queue := rest }, mem := { s.mem with drain := Tab.set (fun _ => 0) s.mem.drain 5 (Tab.get (fun _ => 0) s.mem.drain 5 - 1) } } : State).traceRing b)) ∧
  (∀ (s : State) (b : List Byte) (x : Stream) (rest : List (Stream × List Byte)), s.obs.queue = (x, b) :: rest → s.route x = 2 → s.memReady = false ∧ s.memState ≠ 0 → (s.memState ≠ 3 ∨ Tab.get (fun _ => 0) s.mem.drain 5 = 0) → 
      answers .traceRecord s fun t =>
        (s.memState = 4 → t = s.wr F.MEM_STATUS_STATE 5) ∧
        (s.memState = 3 → t.on F.MEM_STATUS_PENDING_ENABLE = true ∧ t.mem = s.mem) ∧
        (s.memState = 3 ∧ s.on F.MEM_STATUS_PENDING_ENABLE = false → t.on F.SYS_PEND_STATUS_MEM_SR = true ∧ (s.mode ≠ mRESET → 6 ∈ t.raised)) ∧
        (s.memState ≠ 3 ∧ s.memState ≠ 4 → t = s)) ∧
  (∀ (s : State) (b : List Byte) (x : Stream) (rest : List (Stream × List Byte)), s.obs.queue = (x, b) :: rest → s.route x ≠ 1 ∧ s.route x ≠ 2 → 
      answers .traceRecord s fun t =>
        t = { s with obs := { s.obs with queue := rest } }) ∧
  (∀ (s : State), s.obs.queue = [] → 
      answers .traceRecord s fun t =>
        t = s) ∧
  (∀ (s : State), 
      (answers .bypass s fun t =>
        t.sys = { s.sys with jtag := .bypass, tdo := 0 } ∧
        (if s.hdg.liBad = true then t.hdg.liBad = (s.on F.HDG_STATUS_LI_LEVEL != (s.gst == gRELEASED)) ∧ t.on F.HDG_STATUS_LI_LEVEL = s.on F.HDG_STATUS_LI_LEVEL else t.on F.HDG_STATUS_LI_LEVEL = (s.gst == gRELEASED) ∧ t.hdg = s.hdg)) ∧
      (answers .idcode s fun t =>
        t.sys = { s.sys with jtag := .idcode, tdo := 2 ^ 28 + 0x1152 * 2 ^ 12 + Config.jtagManufacturer.toNat * 2 + 1 } ∧
        (if s.hdg.liBad = true then t.hdg.liBad = (s.on F.HDG_STATUS_LI_LEVEL != (s.gst == gRELEASED)) ∧ t.on F.HDG_STATUS_LI_LEVEL = s.on F.HDG_STATUS_LI_LEVEL else t.on F.HDG_STATUS_LI_LEVEL = (s.gst == gRELEASED) ∧ t.hdg = s.hdg)) ∧
      (answers .samplePreload s fun t =>
        t.sys = { s.sys with jtag := .samplePreload, tdo := t.sys.tdo, cells := s.sys.cells + 1 } ∧
        (if s.hdg.liBad = true then t.hdg.liBad = (s.on F.HDG_STATUS_LI_LEVEL != (s.gst == gRELEASED)) ∧ t.on F.HDG_STATUS_LI_LEVEL = s.on F.HDG_STATUS_LI_LEVEL else t.on F.HDG_STATUS_LI_LEVEL = (s.gst == gRELEASED) ∧ t.hdg = s.hdg)) ∧
      (answers .extest s fun t =>
        t.sys = { s.sys with jtag := .extest, tdo := t.sys.tdo } ∧
        (if s.hdg.liBad = true then t.hdg.liBad = (s.on F.HDG_STATUS_LI_LEVEL != false) ∧ t.on F.HDG_STATUS_LI_LEVEL = s.on F.HDG_STATUS_LI_LEVEL else t.on F.HDG_STATUS_LI_LEVEL = false ∧ t.hdg = s.hdg)) ∧
      (answers .extestPulse s fun t =>
        t.sys = { s.sys with jtag := .extestPulse, tdo := t.sys.tdo } ∧
        (if s.hdg.liBad = true then t.hdg.liBad = (s.on F.HDG_STATUS_LI_LEVEL != false) ∧ t.on F.HDG_STATUS_LI_LEVEL = s.on F.HDG_STATUS_LI_LEVEL else t.on F.HDG_STATUS_LI_LEVEL = false ∧ t.hdg = s.hdg)) ∧
      (answers .extestTrain s fun t =>
        t.sys = { s.sys with jtag := .extestTrain, tdo := t.sys.tdo } ∧
        (if s.hdg.liBad = true then t.hdg.liBad = (s.on F.HDG_STATUS_LI_LEVEL != false) ∧ t.on F.HDG_STATUS_LI_LEVEL = s.on F.HDG_STATUS_LI_LEVEL else t.on F.HDG_STATUS_LI_LEVEL = false ∧ t.hdg = s.hdg)) ∧
      (answers .clamp s fun t =>
        t.sys = { s.sys with jtag := .clamp, tdo := 0 } ∧
        (if s.hdg.liBad = true then t.hdg.liBad = (s.on F.HDG_STATUS_LI_LEVEL != false) ∧ t.on F.HDG_STATUS_LI_LEVEL = s.on F.HDG_STATUS_LI_LEVEL else t.on F.HDG_STATUS_LI_LEVEL = false ∧ t.hdg = s.hdg)) ∧
      (answers .highz s fun t =>
        t.sys = { s.sys with jtag := .highz, tdo := 0 } ∧
        (if s.hdg.liBad = true then t.hdg.liBad = (s.on F.HDG_STATUS_LI_LEVEL != false) ∧ t.on F.HDG_STATUS_LI_LEVEL = s.on F.HDG_STATUS_LI_LEVEL else t.on F.HDG_STATUS_LI_LEVEL = false ∧ t.hdg = s.hdg)))

/-- The end of RESET, the power-on of the hedge, mode commands, register accesses. RESET ends in STANDBY, in SAFE-STOP while the
latch is set, or in RECOVERY by the strap. The power-on of the hedge reads the straps and loads the limit rows. Each mode command is
answered, runs, is latched or starts its transition as Table AR-13, R35 and R37 say, or is rejected without the mailbox. A register
write places its fields by their access codes, or is rejected; a read returns the word and clears its RC fields; an access of any
row to a block whose clock is stopped times out, and in RESET it has no effect. Commands shown to complete here: resetEnd,
hedgePowerOn, modeQuery, resetWarm, resetCold, modeStandby, modeScan, modeCalibrate, derateEnter, derateRelease, enterRecovery,
registerWrite, rcRead, registerAccessTimeout. -/
def Obligations.ResetEndModesAndRegisters : Prop :=
  (∀ (s : State) (recov : Bool) (merId : Fin 8) (u : Nat), s.mode = mRESET → s.thm.tripHold = false ∧ s.sys.testEn = false → s.latched = false → recov = false → 
      answers (.resetEnd recov merId u) s fun t =>
        t.on F.SYS_CLK_STATUS_MAIN_LOCK = true ∧ t.on F.SYS_CLK_STATUS_TIL_LOCK = true ∧ t.on F.SYS_CLK_STATUS_MGMT_LOCK = true ∧ t.on F.SYS_CLK_STATUS_REF_PRESENT = true ∧
        t.rd F.MER_STATUS_ID = merId.val ∧ t.on F.MER_STATUS_MASTER = decide (merId = 0) ∧ t.sys.resetEnd = u ∧ t.on F.SYS_MODE_WARM = s.boot.warmStart ∧
        (t.mode = mSTANDBY ∧ t.rd F.SYS_MODE_CAUSE = (if s.rd F.BOOT_LAST_RESET_CAUSE ≤ 1 then 0x00 else if s.rd F.BOOT_LAST_RESET_CAUSE ≤ 3 then 0x01 else if s.rd F.BOOT_LAST_RESET_CAUSE = 4 then 0x09 else if s.rd F.BOOT_LAST_RESET_CAUSE = 5 then 0x11 else 0x14) ∧ t.rd F.BOOT_STATUS_STEP = 1 ∧ t.boot.starting = true)) ∧
  (∀ (s : State) (recov : Bool) (merId : Fin 8) (u : Nat), s.mode = mRESET → s.thm.tripHold = false ∧ s.sys.testEn = false → s.latched = true → recov = false → 
      answers (.resetEnd recov merId u) s fun t =>
        t.on F.SYS_CLK_STATUS_MAIN_LOCK = true ∧ t.on F.SYS_CLK_STATUS_TIL_LOCK = true ∧ t.on F.SYS_CLK_STATUS_MGMT_LOCK = true ∧ t.on F.SYS_CLK_STATUS_REF_PRESENT = true ∧
        t.rd F.MER_STATUS_ID = merId.val ∧ t.on F.MER_STATUS_MASTER = decide (merId = 0) ∧ t.sys.resetEnd = u ∧ t.on F.SYS_MODE_WARM = s.boot.warmStart ∧
        (t.mode = mSAFESTOP ∧ t.rd F.SYS_MODE_CAUSE = (if s.rd F.BOOT_LAST_RESET_CAUSE ≤ 1 then 0x00 else if s.rd F.BOOT_LAST_RESET_CAUSE ≤ 3 then 0x01 else if s.rd F.BOOT_LAST_RESET_CAUSE = 4 then 0x09 else if s.rd F.BOOT_LAST_RESET_CAUSE = 5 then 0x11 else 0x14) ∧ t.rd F.BOOT_STATUS_STEP = 1 ∧ t.boot.starting = true)) ∧
  (∀ (s : State) (recov : Bool) (merId : Fin 8) (u : Nat), s.mode = mRESET → s.thm.tripHold = false ∧ s.sys.testEn = false → recov = true → 
      answers (.resetEnd recov merId u) s fun t =>
        t.on F.SYS_CLK_STATUS_MAIN_LOCK = true ∧ t.on F.SYS_CLK_STATUS_TIL_LOCK = true ∧ t.on F.SYS_CLK_STATUS_MGMT_LOCK = true ∧ t.on F.SYS_CLK_STATUS_REF_PRESENT = true ∧
        t.rd F.MER_STATUS_ID = merId.val ∧ t.on F.MER_STATUS_MASTER = decide (merId = 0) ∧ t.sys.resetEnd = u ∧ t.on F.SYS_MODE_WARM = s.boot.warmStart ∧
        (if s.latched = true then t.mode = mSAFESTOP ∧ t.rd F.SYS_MODE_CAUSE = (if s.rd F.BOOT_LAST_RESET_CAUSE ≤ 1 then 0x00 else if s.rd F.BOOT_LAST_RESET_CAUSE ≤ 3 then 0x01 else if s.rd F.BOOT_LAST_RESET_CAUSE = 4 then 0x09 else if s.rd F.BOOT_LAST_RESET_CAUSE = 5 then 0x11 else 0x14) ∧ t.sys.recovKept = true else t.mode = mRECOVERY ∧ t.rd F.SYS_MODE_CAUSE = 3) ∧
        t.romRuns = true ∧ t.rd F.MEM_TRN_STATE_VALID = 0) ∧
  (∀ (s : State) (recov : Bool) (merId : Fin 8) (u : Nat), s.mode ≠ mRESET ∨ s.thm.tripHold = true ∨ s.sys.testEn = true → 
      answers (.resetEnd recov merId u) s fun t =>
        t = s) ∧
  (∀ (s : State) (straps floats : Fin 64), floats ≠ 0 → s.mode = mRESET ∨ s.present 8 = false → 
      answers (.hedgePowerOn straps floats) s fun t =>
        t.rd F.HDG_STRAPS_SEAL = straps.val ∧ t.rd F.HDG_STRAPS_FLOAT = floats.val ∧
        t.hdg.speedRow = s.fuseRows (3124 + 3 * (straps.val / 8)) 3 ∧ t.hdg.tiltRow = s.fuseRows (3148 + 2 * (straps.val / 2 % 4)) 2 ∧ t.hdg.commonRow = s.fuseRows 3156 1 ∧
        t.boot.fails = [] ∧ t.reg R.BOOT_LAST_RESET = 0 ∧ t.rd F.BOOT_FAIL_COUNT = 0 ∧
        (if s.mode = mRESET then t.boot.warmStart = false else t.on F.BOOT_STATUS_IMAGE_VALID = decide (3 ≤ s.rd F.BOOT_STATUS_STEP)) ∧
        (t.on F.HDG_STATUS_LATCH = true ∧ t.rd F.HDG_TRIP_CAUSE_FIRST = 11 ∧ t.gst = (if s.sys.testEn then gIDLE else gTRIPPED) ∧ t.on F.HDG_STATUS_LI_LEVEL = false ∧ (s.mode ≠ mRESET → t.mode = mSAFESTOP))) ∧
  (∀ (s : State) (straps floats : Fin 64), s.mode ≠ mRESET → s.present 8 = true → 
      answers (.hedgePowerOn straps floats) s fun t =>
        t.rd F.HDG_STRAPS_SEAL = straps.val ∧ t.rd F.HDG_STRAPS_FLOAT = floats.val ∧
        t.hdg.speedRow = s.fuseRows (3124 + 3 * (straps.val / 8)) 3 ∧ t.hdg.tiltRow = s.fuseRows (3148 + 2 * (straps.val / 2 % 4)) 2 ∧ t.hdg.commonRow = s.fuseRows 3156 1 ∧
        (t.on F.HDG_STATUS_LATCH = true ∧ t.rd F.HDG_TRIP_CAUSE_FIRST = 8 ∧ t.gst = (if s.sys.testEn then gIDLE else gTRIPPED) ∧ t.on F.HDG_STATUS_LI_LEVEL = false ∧ t.mode = mSAFESTOP)) ∧
  (∀ (s : State) (straps floats : Fin 64), floats = 0 → s.mode = mRESET ∨ s.present 8 = false → 
      answers (.hedgePowerOn straps floats) s fun t =>
        t.rd F.HDG_STRAPS_SEAL = straps.val ∧ t.rd F.HDG_STRAPS_FLOAT = 0 ∧
        t.hdg.speedRow = s.fuseRows (3124 + 3 * (straps.val / 8)) 3 ∧ t.hdg.tiltRow = s.fuseRows (3148 + 2 * (straps.val / 2 % 4)) 2 ∧ t.hdg.commonRow = s.fuseRows 3156 1 ∧
        t.boot.fails = [] ∧ t.reg R.BOOT_LAST_RESET = 0 ∧ t.rd F.BOOT_FAIL_COUNT = 0 ∧
        (if s.mode = mRESET then t.boot.warmStart = false else t.on F.BOOT_STATUS_IMAGE_VALID = decide (3 ≤ s.rd F.BOOT_STATUS_STEP)) ∧
        (if t.hdg.limitBad = true then t.on F.HDG_STATUS_LATCH = true ∧ t.rd F.HDG_TRIP_CAUSE_FIRST = 12 ∧ t.gst = (if s.sys.testEn then gIDLE else gTRIPPED) else t.on F.HDG_STATUS_LATCH = false ∧ t.gst = gIDLE ∧ t.on F.HDG_STATUS_LI_LEVEL = false ∧ t.mode = s.mode)) ∧
  (∀ (s : State) (m : Fin 4) (tag : Byte), s.mode ≠ mRESET → s.owns m = true → s.rd F.SYS_MBOX_RESP_STATUS ≠ 1 → 
      answers (.modeQuery m tag) s fun t =>
        responded tag.toNat 2 0 t ∧
        t.reg R.SYS_MBOX_DATA = s.reg R.SYS_MODE) ∧
  (∀ (s : State) (m : Fin 4) (tag : Byte), s.mode ≠ mRESET → s.owns m = true → s.flashBusy = false → 
      (answers (.resetWarm m tag) s fun t =>
        t.mode = mRESET ∧ t.rd F.BOOT_LAST_RESET_CAUSE = 2 ∧ t.boot.warmStart = true ∧ t.sys.cmd = none ∧ t.boot.flash = s.boot.flash) ∧
      (answers (.resetCold m tag) s fun t =>
        t.mode = mRESET ∧ t.rd F.BOOT_LAST_RESET_CAUSE = 3 ∧ t.boot.warmStart = false ∧ t.sys.cmd = none ∧ t.boot.flash = s.boot.flash ∧ t.mem.retained = false)) ∧
  (∀ (s : State) (m : Fin 4) (tag : Byte), s.mode ≠ mRESET → s.owns m = true → s.flashBusy = true → 
      (answers (.resetWarm m tag) s fun t =>
        t.boot = { s.boot with heldReset := some (tag.toNat, true), memJobs := s.boot.memJobs.filter MemJob.ofLink } ∧ t.mode = s.mode ∧ t.sys.cmd = none ∧ t.sys.scanTag = none ∧ t.rd F.SYS_MBOX_RESP_STATUS = s.rd F.SYS_MBOX_RESP_STATUS) ∧
      (answers (.resetCold m tag) s fun t =>
        t.boot = { s.boot with heldReset := some (tag.toNat, false), memJobs := s.boot.memJobs.filter MemJob.ofLink } ∧ t.mode = s.mode ∧ t.sys.cmd = none ∧ t.sys.scanTag = none ∧ t.rd F.SYS_MBOX_RESP_STATUS = s.rd F.SYS_MBOX_RESP_STATUS)) ∧
  (∀ (s : State) (m : Fin 4) (tag : Byte), s.mode ≠ mRESET → s.owns m = true → s.rd F.SYS_MBOX_RESP_STATUS ≠ 1 → s.mode = mRECOVERY ∨ s.sys.recovKept = true ∨ s.on F.BOOT_STATUS_CD_DUE = true → 
      (answers (.modeStandby m tag) s fun t =>
        responded tag.toNat 3 0 t) ∧
      (answers (.modeScan m tag) s fun t =>
        responded tag.toNat 3 0 t) ∧
      (answers (.modeCalibrate m tag) s fun t =>
        responded tag.toNat 3 0 t) ∧
      (answers (.derateEnter m tag) s fun t =>
        responded tag.toNat 3 0 t) ∧
      (answers (.derateRelease m tag) s fun t =>
        responded tag.toNat 3 0 t)) ∧
  (∀ (s : State) (m : Fin 4) (tag : Byte), s.mode ≠ mRESET → s.owns m = true → s.rd F.SYS_MBOX_RESP_STATUS ≠ 1 → s.on F.BOOT_STATUS_CD_DUE = true → 
      answers (.enterRecovery m tag) s fun t =>
        responded tag.toNat 3 0 t) ∧
  (∀ (s : State) (m : Fin 4) (tag : Byte), s.mode ≠ mRESET → s.owns m = true → s.rd F.SYS_MBOX_RESP_STATUS ≠ 1 → s.mode = mRECOVERY → s.on F.BOOT_STATUS_CD_DUE = false → s.on F.SYS_MODE_STOPPING = false → s.on F.BOOT_STATUS_SLOT_WRITE = false → 
      answers (.enterRecovery m tag) s fun t =>
        responded tag.toNat 2 0 t ∧
        t.mode = mRECOVERY) ∧
  (∀ (s : State) (m : Fin 4) (tag : Byte), s.mode ≠ mRESET → s.owns m = true → s.rd F.SYS_MBOX_RESP_STATUS ≠ 1 → s.mode = mSAFESTOP → s.sys.recovKept = false → s.on F.BOOT_STATUS_CD_DUE = false → 
      (answers (.modeStandby m tag) s fun t =>
        responded tag.toNat 4 6 t) ∧
      (answers (.modeScan m tag) s fun t =>
        responded tag.toNat 4 6 t) ∧
      (answers (.modeCalibrate m tag) s fun t =>
        responded tag.toNat 4 6 t) ∧
      (answers (.derateEnter m tag) s fun t =>
        responded tag.toNat 4 6 t) ∧
      (answers (.derateRelease m tag) s fun t =>
        responded tag.toNat 4 6 t) ∧
      (answers (.enterRecovery m tag) s fun t =>
        responded tag.toNat 4 6 t)) ∧
  (∀ (s : State) (m : Fin 4) (tag : Byte), s.mode ≠ mRESET → s.owns m = true → s.rd F.SYS_MBOX_RESP_STATUS ≠ 1 → s.mode = mSAFESTOP → s.on F.BOOT_STATUS_CD_DUE = false → 
      answers (.enterRecovery m tag) s fun t =>
        responded tag.toNat 4 6 t) ∧
  (∀ (s : State) (m : Fin 4) (tag : Byte), s.mode ≠ mRESET → s.owns m = true → s.rd F.SYS_MBOX_RESP_STATUS ≠ 1 → s.mode ≠ mRECOVERY ∧ s.sys.recovKept = false ∧ s.on F.BOOT_STATUS_CD_DUE = false → s.mode ≠ mSAFESTOP → s.forcedCause ≠ 0 → 
      (answers (.modeScan m tag) s fun t =>
        responded tag.toNat 4 s.forcedCause t) ∧
      (answers (.modeCalibrate m tag) s fun t =>
        responded tag.toNat 4 s.forcedCause t)) ∧
  (∀ (s : State) (m : Fin 4) (tag : Byte), s.mode ≠ mRESET → s.owns m = true → s.rd F.SYS_MBOX_RESP_STATUS ≠ 1 → s.mode ≠ mRECOVERY ∧ s.sys.recovKept = false ∧ s.on F.BOOT_STATUS_CD_DUE = false → s.mode ≠ mSAFESTOP → s.on F.SYS_MODE_STOPPING = true → s.mode ≠ mSTANDBY → 
      answers (.modeStandby m tag) s fun t =>
        running ⟨tag.toNat, 1, 1, (s.rd F.SYS_MBOX_ARG_ARG)⟩ t ∧
        t.on F.SYS_PEND_STATUS_MODE_SCAN = false ∧ t.sys.pendScan = none ∧ t.sys.stopSR = (s.sys.stopSR || (s.rd F.SYS_MBOX_ARG_ARG) % 2 == 1) ∧ t.on F.SYS_MODE_STOPPING = true) ∧
  (∀ (s : State) (m : Fin 4) (tag : Byte), s.mode ≠ mRESET → s.owns m = true → s.rd F.SYS_MBOX_RESP_STATUS ≠ 1 → s.on F.BOOT_STATUS_CD_DUE = false → s.mode ≠ mSAFESTOP → s.on F.SYS_MODE_STOPPING = true → 
      answers (.enterRecovery m tag) s fun t =>
        responded tag.toNat 6 (s.sys.stopCause % 256) t) ∧
  (∀ (s : State) (m : Fin 4) (tag : Byte), s.mode ≠ mRESET → s.owns m = true → s.rd F.SYS_MBOX_RESP_STATUS ≠ 1 → s.mode ≠ mRECOVERY ∧ s.sys.recovKept = false ∧ s.on F.BOOT_STATUS_CD_DUE = false → s.mode ≠ mSAFESTOP → s.on F.SYS_MODE_STOPPING = true → 
      (answers (.derateEnter m tag) s fun t =>
        responded tag.toNat 6 (s.sys.stopCause % 256) t) ∧
      (answers (.derateRelease m tag) s fun t =>
        responded tag.toNat 6 (s.sys.stopCause % 256) t)) ∧
  (∀ (s : State) (m : Fin 4) (tag : Byte), s.mode ≠ mRESET → s.owns m = true → s.rd F.SYS_MBOX_RESP_STATUS ≠ 1 → s.mode ≠ mRECOVERY ∧ s.sys.recovKept = false ∧ s.on F.BOOT_STATUS_CD_DUE = false → s.mode ≠ mSAFESTOP → s.on F.SYS_MODE_STOPPING = true → s.forcedCause = 0 → 
      (answers (.modeScan m tag) s fun t =>
        responded tag.toNat 5 0 t ∧
        t.on F.SYS_PEND_STATUS_MODE_SCAN = true ∧ t.sys.pendScan = some tag.toNat) ∧
      (answers (.modeCalibrate m tag) s fun t =>
        responded tag.toNat 6 (s.sys.stopCause % 256) t)) ∧
  (∀ (s : State) (m : Fin 4) (tag : Byte), s.mode ≠ mRESET → s.owns m = true → s.rd F.SYS_MBOX_RESP_STATUS ≠ 1 → s.mode ≠ mRECOVERY ∧ s.sys.recovKept = false ∧ s.on F.BOOT_STATUS_CD_DUE = false → s.mode ≠ mSAFESTOP → s.on F.SYS_MODE_STOPPING = false → s.forcedCause = 0 → (s.mode ≠ mSTANDBY ∧ s.mode ≠ mSPINUP ∧ s.mode ≠ mSCAN ∧ s.mode ≠ mDERATED) ∨ (s.mode = mSTANDBY ∧ s.on F.SYS_MODE_BOOT_DONE = false) ∨ s.on F.BOOT_STATUS_SLOT_WRITE = true → 
      answers (.modeScan m tag) s fun t =>
        responded tag.toNat 3 0 t) ∧
  (∀ (s : State) (m : Fin 4) (tag : Byte), s.mode ≠ mRESET → s.owns m = true → s.rd F.SYS_MBOX_RESP_STATUS ≠ 1 → s.mode ≠ mRECOVERY ∧ s.sys.recovKept = false ∧ s.on F.BOOT_STATUS_CD_DUE = false → s.mode ≠ mSAFESTOP → s.on F.SYS_MODE_STOPPING = false → s.forcedCause = 0 → s.planPermitted ((s.rd F.SYS_MBOX_ARG_ARG) % 16) = false ∨ s.on F.BOOT_STATUS_SLOT_WRITE = true → 
      answers (.modeCalibrate m tag) s fun t =>
        responded tag.toNat 3 0 t) ∧
  (∀ (s : State) (m : Fin 4) (tag : Byte), s.mode ≠ mRESET → s.owns m = true → s.rd F.SYS_MBOX_RESP_STATUS ≠ 1 → s.mode ≠ mRECOVERY ∧ s.sys.recovKept = false ∧ s.on F.BOOT_STATUS_CD_DUE = false → s.mode ≠ mSAFESTOP → s.on F.SYS_MODE_STOPPING = false → s.mode ≠ mSCAN ∧ s.mode ≠ mDERATED → 
      (answers (.derateEnter m tag) s fun t =>
        responded tag.toNat 3 0 t) ∧
      (answers (.derateRelease m tag) s fun t =>
        responded tag.toNat 3 0 t)) ∧
  (∀ (s : State) (m : Fin 4) (tag : Byte), s.mode ≠ mRESET → s.owns m = true → s.rd F.SYS_MBOX_RESP_STATUS ≠ 1 → s.on F.BOOT_STATUS_CD_DUE = false → s.mode ≠ mSAFESTOP → s.on F.SYS_MODE_STOPPING = false → (s.mode ≠ mSTANDBY ∧ s.mode ≠ mRECOVERY) ∨ s.on F.BOOT_STATUS_SLOT_WRITE = true → 
      answers (.enterRecovery m tag) s fun t =>
        responded tag.toNat 3 0 t) ∧
  (∀ (s : State) (m : Fin 4) (tag : Byte), s.mode ≠ mRESET → s.owns m = true → s.rd F.SYS_MBOX_RESP_STATUS ≠ 1 → s.mode ≠ mRECOVERY ∧ s.sys.recovKept = false ∧ s.on F.BOOT_STATUS_CD_DUE = false → s.mode ≠ mSAFESTOP → s.mode = mSTANDBY → 
      answers (.modeStandby m tag) s fun t =>
        responded tag.toNat 2 0 t ∧
        (t.mode = mSTANDBY ∧ ((s.rd F.SYS_MBOX_ARG_ARG) % 2 = 1 → t.on F.MEM_CTRL_SR = true ∧ (s.memState = 2 → t.memState = 3)))) ∧
  (∀ (s : State) (m : Fin 4) (tag : Byte), s.mode ≠ mRESET → s.owns m = true → s.rd F.SYS_MBOX_RESP_STATUS ≠ 1 → s.mode ≠ mRECOVERY ∧ s.sys.recovKept = false ∧ s.on F.BOOT_STATUS_CD_DUE = false → s.mode ≠ mSAFESTOP → s.on F.SYS_MODE_STOPPING = false → s.mode = mSPINUP ∨ s.mode = mSCAN ∨ s.mode = mCALIBRATE ∨ s.mode = mDERATED → 
      answers (.modeStandby m tag) s fun t =>
        running ⟨tag.toNat, 1, 1, (s.rd F.SYS_MBOX_ARG_ARG)⟩ t ∧
        t.on F.SYS_MODE_STOPPING = true ∧ t.sys.stopCause = 1 ∧ t.mode = s.mode ∧ t.his.last = true ∧ t.his.due = false ∧ t.sys.pendScan = none) ∧
  (∀ (s : State) (m : Fin 4) (tag : Byte), s.mode ≠ mRESET → s.owns m = true → s.rd F.SYS_MBOX_RESP_STATUS ≠ 1 → s.mode ≠ mRECOVERY ∧ s.sys.recovKept = false ∧ s.on F.BOOT_STATUS_CD_DUE = false → s.mode ≠ mSAFESTOP → s.on F.SYS_MODE_STOPPING = false → s.forcedCause = 0 → s.on F.BOOT_STATUS_SLOT_WRITE = false → s.mode = mSCAN ∨ s.mode = mDERATED → 
      answers (.modeScan m tag) s fun t =>
        responded tag.toNat 2 0 t ∧
        t.mode = s.mode) ∧
  (∀ (s : State) (m : Fin 4) (tag : Byte), s.mode ≠ mRESET → s.owns m = true → s.rd F.SYS_MBOX_RESP_STATUS ≠ 1 → s.mode ≠ mRECOVERY ∧ s.sys.recovKept = false ∧ s.on F.BOOT_STATUS_CD_DUE = false → s.mode ≠ mSAFESTOP → s.on F.SYS_MODE_STOPPING = false → s.forcedCause = 0 → s.on F.BOOT_STATUS_SLOT_WRITE = false → s.mode = mSPINUP → 
      answers (.modeScan m tag) s fun t =>
        running ⟨tag.toNat, 1, 2, (s.rd F.SYS_MBOX_ARG_ARG)⟩ t ∧
        t.mode = s.mode) ∧
  (∀ (s : State) (m : Fin 4) (tag : Byte), s.mode ≠ mRESET → s.owns m = true → s.rd F.SYS_MBOX_RESP_STATUS ≠ 1 → s.mode ≠ mRECOVERY ∧ s.sys.recovKept = false ∧ s.on F.BOOT_STATUS_CD_DUE = false → s.mode ≠ mSAFESTOP → s.on F.SYS_MODE_STOPPING = false → s.forcedCause = 0 → s.on F.BOOT_STATUS_SLOT_WRITE = false → s.mode = mSTANDBY ∧ s.on F.SYS_MODE_BOOT_DONE = true → 
      answers (.modeScan m tag) s fun t =>
        running ⟨tag.toNat, 1, 2, (s.rd F.SYS_MBOX_ARG_ARG)⟩ t ∧
        t.mode = mSPINUP ∧ t.rd F.SYS_MODE_CAUSE = 1 ∧ t.rd F.SYS_MODE_PREV_MODE = mSTANDBY ∧ 0 ∈ t.raised ∧ t.on F.HDG_STATUS_SEAL_LOCK = true) ∧
  (∀ (s : State) (m : Fin 4) (tag : Byte), s.mode ≠ mRESET → s.owns m = true → s.rd F.SYS_MBOX_RESP_STATUS ≠ 1 → s.mode ≠ mRECOVERY ∧ s.sys.recovKept = false ∧ s.on F.BOOT_STATUS_CD_DUE = false → s.mode ≠ mSAFESTOP → s.on F.SYS_MODE_STOPPING = false → s.forcedCause = 0 → s.on F.BOOT_STATUS_SLOT_WRITE = false → s.planPermitted ((s.rd F.SYS_MBOX_ARG_ARG) % 16) = true → 
      answers (.modeCalibrate m tag) s fun t =>
        running ⟨tag.toNat, 1, 3, (s.rd F.SYS_MBOX_ARG_ARG)⟩ t ∧
        t.mode = mCALIBRATE ∧ t.rd F.SYS_MODE_CAUSE = 1 ∧ t.rd F.CAL_STATUS_PLAN = (s.rd F.SYS_MBOX_ARG_ARG) % 16 ∧ t.on F.CAL_STATUS_BUSY = true ∧ t.sys.calFrom = s.mode ∧ t.cal.internal = false) ∧
  (∀ (s : State) (m : Fin 4) (tag : Byte), s.mode ≠ mRESET → s.owns m = true → s.rd F.SYS_MBOX_RESP_STATUS ≠ 1 → s.mode ≠ mRECOVERY ∧ s.sys.recovKept = false ∧ s.on F.BOOT_STATUS_CD_DUE = false → s.mode ≠ mSAFESTOP → s.on F.SYS_MODE_STOPPING = false → s.mode = mSCAN ∨ s.mode = mDERATED → 
      answers (.derateEnter m tag) s fun t =>
        responded tag.toNat 2 0 t ∧
        t.mode = mDERATED ∧ t.sys.hostDerate = true) ∧
  (∀ (s : State) (m : Fin 4) (tag : Byte), s.mode ≠ mRESET → s.owns m = true → s.rd F.SYS_MBOX_RESP_STATUS ≠ 1 → s.mode ≠ mRECOVERY ∧ s.sys.recovKept = false ∧ s.on F.BOOT_STATUS_CD_DUE = false → s.mode ≠ mSAFESTOP → s.on F.SYS_MODE_STOPPING = false → s.mode = mSCAN ∨ s.mode = mDERATED → 
      answers (.derateRelease m tag) s fun t =>
        (s.sys.scanTag = none → responded tag.toNat 2 0 t) ∧
        (t.sys.hostDerate = false ∧ t.mode = (if s.on F.THM_STATUS_DERATE_SRC = true ∨ s.derateTil = true ∨ s.derateEmi = true then mDERATED else if s.mode = mDERATED ∧ s.on F.CAL_STATUS_RERUN_PENDING = true ∧ s.on F.SYS_MODE_CFG_AUTO_RECAL = true then mCALIBRATE else mSCAN))) ∧
  (∀ (s : State) (m : Fin 4) (tag : Byte), s.mode ≠ mRESET → s.owns m = true → s.rd F.SYS_MBOX_RESP_STATUS ≠ 1 → s.on F.BOOT_STATUS_CD_DUE = false → s.mode ≠ mSAFESTOP → s.on F.SYS_MODE_STOPPING = false → s.mode = mSTANDBY → s.on F.BOOT_STATUS_SLOT_WRITE = false → 
      answers (.enterRecovery m tag) s fun t =>
        responded tag.toNat 2 0 t ∧
        t.mode = mRECOVERY ∧ t.rd F.SYS_MODE_CAUSE = 1 ∧ t.boot.starting = false ∧ t.boot.rx = none ∧ t.boot.tx = none) ∧
  (∀ (s : State) (m : Fin 4) (tag : Byte), s.mode ≠ mRESET → s.owns m = false ∨ s.rd F.SYS_MBOX_RESP_STATUS = 1 → 
      (answers (.modeStandby m tag) s fun t =>
        rejected s t) ∧
      (answers (.modeScan m tag) s fun t =>
        rejected s t) ∧
      (answers (.modeCalibrate m tag) s fun t =>
        rejected s t) ∧
      (answers (.derateEnter m tag) s fun t =>
        rejected s t) ∧
      (answers (.derateRelease m tag) s fun t =>
        rejected s t) ∧
      (answers (.enterRecovery m tag) s fun t =>
        rejected s t) ∧
      (answers (.modeQuery m tag) s fun t =>
        rejected s t)) ∧
  (∀ (s : State) (m : Fin 4) (tag : Byte), s.mode ≠ mRESET → s.owns m = false → 
      (answers (.resetWarm m tag) s fun t =>
        rejected s t) ∧
      (answers (.resetCold m tag) s fun t =>
        rejected s t)) ∧
  (∀ (s : State) (m : Fin 4) (a : BitVec 26) (w : Word) (u : Nat) (r : RegSpec) (i j : Nat), s.mode ≠ mRESET → s.stoppedAt a.toNat = false → a.toNat % 4 = 0 → findReg a.toNat = some (r, i, j) → silentWrite a.toNat = false → badEncoding r.fields w = false ∧ s.barred a.toNat i w = false ∧ s.ignored m a.toNat i w = false ∧ s.reservedIn a.toNat i w = false → ownWrite a.toNat = false ∨ (sampledWrite a.toNat = true ∧ s.running = true) → 
      answers (.registerWrite m a w u) s fun t =>
        placed r a.toNat w s t) ∧
  (∀ (s : State) (m : Fin 4) (a : BitVec 26) (w : Word) (u : Nat) (r : RegSpec) (i j : Nat), s.mode ≠ mRESET → s.stoppedAt a.toNat = false → a.toNat % 4 = 0 → findReg a.toNat = some (r, i, j) → silentWrite a.toNat = false → badEncoding r.fields w = false ∧ s.barred a.toNat i w = false ∧ s.ignored m a.toNat i w = false ∧ s.reservedIn a.toNat i w = false → sampledWrite a.toNat = true ∨ hisSampled a.toNat = true → 
      answers (.registerWrite m a w u) s fun t =>
        (∀ f ∈ r.fields, f.acc = .rw → Word.field (t.reg a.toNat) f.hi f.lo = Word.field w f.hi f.lo) ∧
        (if s.running = true then (hisSampled a.toNat = true → t.on F.HIS_STATUS_SETTINGS_PENDING = true) ∧ t.det = s.det ∧ t.tdc = s.tdc else (a.toNat = R.DET_QUENCH_CFG → t.det.deadTime = F.DET_QUENCH_CFG_DEAD_TIME.of w) ∧ (a.toNat = R.DET_COINC_CFG → t.det.window = F.DET_COINC_CFG_WINDOW.of w) ∧ (a.toNat = R.TDC_EPOCH_CFG → t.tdc.epochOfs = F.TDC_EPOCH_CFG_EPOCH_OFS.of w))) ∧
  (∀ (s : State) (m : Fin 4) (a : BitVec 26) (w : Word) (u : Nat) (r : RegSpec) (i j : Nat), s.mode ≠ mRESET → s.stoppedAt a.toNat = false → a.toNat % 4 = 0 → findReg a.toNat = some (r, i, j) → silentWrite a.toNat = false → badEncoding r.fields w = false ∧ s.barred a.toNat i w = false ∧ s.ignored m a.toNat i w = false ∧ s.reservedIn a.toNat i w = false → 0x101000 ≤ a.toNat ∧ a.toNat < 0x102200 → 
      answers (.registerWrite m a w u) s fun t =>
        (F.DET_CH_CFG_K_HOST i).of (t.reg a.toNat) = (F.DET_CH_CFG_K_HOST i).of w ∧
        (if s.running = true then t.det.kHostChanged.contains i = (s.det.kHostChanged.contains i || (F.DET_CH_CFG_K_HOST i).of w != s.rd (F.DET_CH_CFG_K_HOST i)) else t.rd (F.DET_CH_CFG_K_EFF i) = (F.DET_CH_CFG_K_HOST i).of w)) ∧
  (∀ (s : State) (m : Fin 4) (a : BitVec 26) (w : Word) (u : Nat) (r : RegSpec) (i j : Nat), s.mode ≠ mRESET → s.stoppedAt a.toNat = false → a.toNat % 4 = 0 → findReg a.toNat = some (r, i, j) → silentWrite a.toNat = false → badEncoding r.fields w = false ∧ s.barred a.toNat i w = false ∧ s.ignored m a.toNat i w = false ∧ s.reservedIn a.toNat i w = false → 0x10000 ≤ a.toNat ∧ a.toNat < 0x10800 → 
      answers (.registerWrite m a w u) s fun t =>
        (∀ f ∈ r.fields, f.acc = .rw → Word.field (t.reg a.toNat) f.hi f.lo = Word.field w f.hi f.lo) ∧
        (t.lnk.msgs = s.lnk.msgs ++ (List.range 32).filter (fun v => !s.summary v && t.summary v && s.msixOpen v) ∧ ∀ v : Fin 32, (t.reg 0xC09000).toNat.testBit v = ((s.reg 0xC09000).toNat.testBit v || (!s.summary v && t.summary v && !s.msixOpen v)))) ∧
  (∀ (s : State) (m : Fin 4) (a : BitVec 26) (w : Word) (u : Nat), s.mode ≠ mRESET → s.stoppedAt a.toNat = false → a.toNat % 4 = 0 → 
      (answers (.registerWrite m a w u) s fun t =>
        t = s.accessed.writeWord m a.toNat w u) ∧
      (answers (.rcRead a) s fun t =>
        let v := (s.linkSeen a.toNat 4 none).accessed; t = (v.afterRead a.toNat).answerRead (v.wordRead a.toNat).toNat)) ∧
  (∀ (s : State) (m : Fin 4) (a : BitVec 26) (w : Word) (u : Nat), s.mode ≠ mRESET → a.toNat % 4 ≠ 0 → 
      (answers (.registerWrite m a w u) s fun t =>
        s.stoppedAt a.toNat = false → rejected s t) ∧
      (answers (.rcRead a) s fun t =>
        s.stoppedAt (a.toNat / 4 * 4) = false → t = { s.accessed.raise 3 with sys := { s.sys with rdata := 0 } })) ∧
  (∀ (s : State) (m : Fin 4) (a : BitVec 26) (w : Word) (u : Nat) (r : RegSpec) (i j : Nat), s.mode ≠ mRESET → s.stoppedAt a.toNat = false → a.toNat % 4 = 0 → findReg a.toNat = some (r, i, j) → silentWrite a.toNat = false → inWindow a.toNat = false ∧ inSeedMap a.toNat = false → badEncoding r.fields w = true ∨ s.barred a.toNat i w = true ∨ s.ignored m a.toNat i w = true → 
      answers (.registerWrite m a w u) s fun t =>
        rejected s t) ∧
  (∀ (s : State) (m : Fin 4) (a : BitVec 26) (w : Word) (u : Nat), s.mode ≠ mRESET → s.stoppedAt a.toNat = false → inWindow a.toNat = false ∧ inSeedMap a.toNat = false → a.toNat % 4 = 0 ∧ ¬ (0x380000 ≤ a.toNat ∧ a.toNat < 0x388000) → findReg a.toNat = none → 
      (answers (.registerWrite m a w u) s fun t =>
        rejected s t) ∧
      (answers (.rcRead a) s fun t =>
        t = { s.accessed.raise 3 with sys := { s.sys with rdata := 0 } })) ∧
  (∀ (s : State) (m : Fin 4) (a : BitVec 26) (w : Word) (u : Nat), s.mode ≠ mRESET → s.stoppedAt a.toNat = false → silentWrite a.toNat = true → a.toNat % 4 = 0 → 
      answers (.registerWrite m a w u) s fun t =>
        t = s.accessed) ∧
  (∀ (s : State) (m : Fin 4) (a : BitVec 26) (w : Word) (u : Nat), s.mode ≠ mRESET → s.stoppedAt a.toNat = true → 
      (answers (.registerAccessTimeout a) s fun t =>
        t = { (s.accessed.count 0 3 0 1).raise 7 with sys := { s.sys with rdata := 0 } }) ∧
      (answers (.registerWrite m a w u) s fun t =>
        t = { (s.accessed.count 0 3 0 1).raise 7 with sys := { s.sys with rdata := 0 } })) ∧
  (∀ (s : State) (m : Fin 4) (a : BitVec 26) (w : Word) (u : Nat), s.mode ≠ mRESET → s.stoppedAt (a.toNat / 4 * 4) = true → 
      answers (.rcRead a) s fun t =>
        t = { (s.accessed.count 0 3 0 1).raise 7 with sys := { s.sys with rdata := 0 } }) ∧
  (∀ (s : State) (m : Fin 4) (a : BitVec 26) (w : Word) (u : Nat) (tag : Byte), s.mode = mRESET → 
      (answers (.registerWrite m a w u) s fun t =>
        t = s) ∧
      (answers (.rcRead a) s fun t =>
        t = s) ∧
      (answers (.registerAccessTimeout a) s fun t =>
        t = s) ∧
      (answers (.modeStandby m tag) s fun t =>
        t = s) ∧
      (answers (.modeScan m tag) s fun t =>
        t = s) ∧
      (answers (.modeCalibrate m tag) s fun t =>
        t = s) ∧
      (answers (.derateEnter m tag) s fun t =>
        t = s) ∧
      (answers (.derateRelease m tag) s fun t =>
        t = s) ∧
      (answers (.resetWarm m tag) s fun t =>
        t = s) ∧
      (answers (.resetCold m tag) s fun t =>
        t = s) ∧
      (answers (.enterRecovery m tag) s fun t =>
        t = s) ∧
      (answers (.modeQuery m tag) s fun t =>
        t = s)) ∧
  (∀ (s : State) (m : Fin 4) (a : BitVec 26) (w : Word) (u : Nat), s.stoppedAt a.toNat = false → 
      answers (.registerAccessTimeout a) s fun t =>
        t = s) ∧
  (∀ (s : State) (a : BitVec 26) (r : RegSpec) (i j : Nat), s.mode ≠ mRESET → s.stoppedAt a.toNat = false → a.toNat % 4 = 0 → findReg a.toNat = some (r, i, j) → ¬ (inWindow a.toNat = true ∨ (0x380000 ≤ a.toNat ∧ a.toNat < 0x388000) ∨ (0xE02000 ≤ a.toNat ∧ a.toNat < 0xE04000 ∧ a.toNat % 8 = 0) ∨ a.toNat = R.LNK_PTP_TS_INFO ∨ a.toNat = R.LNK_PTP_STATUS ∨ (R.LNK_PRBS_ERR 0 ≤ a.toNat ∧ a.toNat ≤ R.LNK_PRBS_ERR 3)) → 
      answers (.rcRead a) s fun t =>
        t.sys.rdata = (s.accessed.shown a.toNat i).toNat ∧
        (∀ f ∈ r.fields, Word.field (t.reg a.toNat) f.hi f.lo = if f.acc = .rc then 0 else Word.field (s.accessed.reg a.toNat) f.hi f.lo) ∧
        t.til = s.til ∧ t.boot = s.boot ∧ t.hlm = s.hlm ∧ t.emi = s.emi) ∧
  (∀ (c : Instr) (s : State) (b : Bool), accessStopped s c = some b →
      (s.mode = mRESET → answers c s fun t => t = s) ∧
      (s.mode ≠ mRESET → b = true → answers c s fun t =>
        t = { (s.accessed.count 0 3 0 1).raise 7 with sys := { s.sys with rdata := 0 } }))

end
end

