-- ==== Sys2Proof/Laws/Tab.lean ====
section
/-! SUPPORT. The laws of sparse tables: reading after writing, and that every operation on a table keeps its canonical form. -/

namespace Sys2Proof.Machine

variable {α : Type} [DecidableEq α]

/-! ### Reading after writing -/

omit [DecidableEq α] in
theorem Tab.get_filter_ne (d : Nat → α) (t : Tab α) {j k : Nat} (h : k ≠ j) :
    Tab.get d (t.filter fun e => e.1 != j) k = Tab.get d t k := by
  induction t with
  | nil => rfl
  | cons e r ih =>
    obtain ⟨i, w⟩ := e
    by_cases hi : i = j
    · subst hi
      simp [Tab.get, Ne.symm h, ih]
    · rw [List.filter_cons_of_pos (by simpa using hi)]
      by_cases hk : i = k <;> simp [Tab.get, hk, ih]

omit [DecidableEq α] in
theorem Tab.get_filter_self (d : Nat → α) (t : Tab α) (k : Nat) :
    Tab.get d (t.filter fun e => e.1 != k) k = d k := by
  induction t with
  | nil => rfl
  | cons e r ih =>
    obtain ⟨i, w⟩ := e
    by_cases hi : i = k
    · simp [hi, ih]
    · simp [Tab.get, hi, ih]

omit [DecidableEq α] in
theorem Tab.get_insert_ne (d : Nat → α) (t : Tab α) {j k : Nat} (v : α) (h : k ≠ j) :
    Tab.get d (Tab.insert t j v) k = Tab.get d t k := by
  induction t with
  | nil => simp [Tab.insert, Tab.get, Ne.symm h]
  | cons e r ih =>
    obtain ⟨i, w⟩ := e
    simp only [Tab.insert]
    split
    · simp [Tab.get, Ne.symm h]
    · simp [Tab.get, ih]

omit [DecidableEq α] in
theorem Tab.get_insert_self (d : Nat → α) (t : Tab α) (k : Nat) (v : α) (h : ∀ e ∈ t, e.1 ≠ k) :
    Tab.get d (Tab.insert t k v) k = v := by
  induction t with
  | nil => simp [Tab.insert, Tab.get]
  | cons e r ih =>
    obtain ⟨i, w⟩ := e
    simp only [Tab.insert]
    split
    · simp [Tab.get]
    · have hi : i ≠ k := h (i, w) (by simp)
      simp [Tab.get, hi, ih fun e he => h e (by simp [he])]

@[simp] theorem Tab.get_set_self (d : Nat → α) (t : Tab α) (k : Nat) (v : α) : Tab.get d (Tab.set d t k v) k = v := by
  simp only [Tab.set]
  split
  · rename_i h; rw [Tab.get_filter_self, h]
  · exact Tab.get_insert_self d _ k v (by simp)

theorem Tab.get_set_ne (d : Nat → α) (t : Tab α) {j k : Nat} (v : α) (h : k ≠ j) :
    Tab.get d (Tab.set d t j v) k = Tab.get d t k := by
  simp only [Tab.set]
  split
  · exact Tab.get_filter_ne d t h
  · rw [Tab.get_insert_ne d _ v h, Tab.get_filter_ne d t h]

theorem Tab.get_set (d : Nat → α) (t : Tab α) (j k : Nat) (v : α) :
    Tab.get d (Tab.set d t j v) k = if k = j then v else Tab.get d t k := by
  split
  · subst_vars; simp
  · rename_i h; exact Tab.get_set_ne d t v h

/-! ### The canonical form -/

/-- The canonical form as two plain facts. -/
theorem Tab.wf_iff (d : Nat → α) (t : Tab α) :
    Tab.wf d t = true ↔ t.Pairwise (fun a b => a.1 < b.1) ∧ ∀ e ∈ t, e.2 ≠ d e.1 := by
  induction t with
  | nil => simp [Tab.wf]
  | cons e r ih =>
    obtain ⟨i, w⟩ := e
    cases r with
    | nil => simp [Tab.wf]
    | cons f r =>
      obtain ⟨j, x⟩ := f
      simp only [Tab.wf, Bool.and_eq_true, decide_eq_true_eq, ih, List.pairwise_cons, List.mem_cons, forall_eq_or_imp]
      constructor
      · rintro ⟨⟨h1, h2⟩, ⟨h3, h4⟩, h5, h6⟩
        exact ⟨⟨⟨h2, fun a ha => lt_trans h2 (h3 a ha)⟩, h3, h4⟩, h1, h5, h6⟩
      · rintro ⟨⟨⟨h2, _⟩, h3, h4⟩, h1, h5, h6⟩
        exact ⟨⟨h1, h2⟩, ⟨h3, h4⟩, h5, h6⟩

@[simp] theorem Tab.wf_nil (d : Nat → α) : Tab.wf d ([] : Tab α) = true := rfl

theorem Tab.wf_filter (d : Nat → α) (t : Tab α) (p : Nat × α → Bool) (h : Tab.wf d t = true) : Tab.wf d (t.filter p) = true := by
  rw [Tab.wf_iff] at h ⊢
  exact ⟨h.1.filter p, fun e he => h.2 e (List.mem_filter.1 he).1⟩

omit [DecidableEq α] in
theorem Tab.mem_insert (t : Tab α) (k : Nat) (v : α) (e : Nat × α) : e ∈ Tab.insert t k v ↔ e = (k, v) ∨ e ∈ t := by
  induction t with
  | nil => simp [Tab.insert]
  | cons f r ih =>
    obtain ⟨i, w⟩ := f
    simp only [Tab.insert]
    split
    · simp
    · simp [ih]; tauto

theorem Tab.wf_insert (d : Nat → α) (t : Tab α) (k : Nat) (v : α) (hk : ∀ e ∈ t, e.1 ≠ k) (hv : v ≠ d k)
    (h : Tab.wf d t = true) : Tab.wf d (Tab.insert t k v) = true := by
  rw [Tab.wf_iff] at h ⊢
  refine ⟨?_, fun e he => ?_⟩
  · obtain ⟨h, -⟩ := h
    induction t with
    | nil => simp [Tab.insert]
    | cons f r ih =>
      obtain ⟨i, w⟩ := f
      rw [List.pairwise_cons] at h
      simp only [Tab.insert]
      split
      · rename_i hki
        rw [List.pairwise_cons]
        refine ⟨fun a ha => ?_, List.pairwise_cons.2 h⟩
        rcases List.mem_cons.1 ha with rfl | ha
        · exact hki
        · exact lt_trans hki (h.1 a ha)
      · rename_i hki
        have hik : i < k := lt_of_le_of_ne (not_lt.1 hki) (hk (i, w) (by simp))
        rw [List.pairwise_cons]
        refine ⟨fun a ha => ?_, ih (fun e he => hk e (by simp [he])) h.2⟩
        rcases (Tab.mem_insert r k v a).1 ha with rfl | ha
        · exact hik
        · exact h.1 a ha
  · rcases (Tab.mem_insert t k v e).1 he with rfl | he
    · exact hv
    · exact h.2 e he

theorem Tab.wf_set (d : Nat → α) (t : Tab α) (k : Nat) (v : α) (h : Tab.wf d t = true) : Tab.wf d (Tab.set d t k v) = true := by
  simp only [Tab.set]
  split
  · exact Tab.wf_filter d t _ h
  · rename_i hv
    exact Tab.wf_insert d _ k v (by simp) hv (Tab.wf_filter d t _ h)

theorem Tab.wf_clear (d : Nat → α) (t : Tab α) (lo hi : Nat) (h : Tab.wf d t = true) : Tab.wf d (Tab.clear t lo hi) = true :=
  Tab.wf_filter d t _ h

/-- Equal reads of canonical tables are equal tables. -/
theorem Tab.ext_of_wf (d : Nat → α) (t u : Tab α) (ht : Tab.wf d t = true) (hu : Tab.wf d u = true)
    (h : ∀ k, Tab.get d t k = Tab.get d u k) : t = u := by
  have notin : ∀ (r : Tab α) (k : Nat), (∀ e ∈ r, k < e.1) → Tab.get d r k = d k := by
    intro r
    induction r with
    | nil => intro k _; rfl
    | cons e r ih =>
      intro k hk
      obtain ⟨i, w⟩ := e
      have : i ≠ k := Nat.ne_of_gt (hk (i, w) (by simp))
      simp [Tab.get, this, ih k fun e he => hk e (by simp [he])]
  induction t generalizing u with
  | nil =>
    cases u with
    | nil => rfl
    | cons f u =>
      obtain ⟨j, x⟩ := f
      rw [Tab.wf_iff] at hu
      exact absurd (by simpa [Tab.get] using (h j).symm) (hu.2 (j, x) (by simp))
  | cons e t ih =>
    obtain ⟨i, w⟩ := e
    rw [Tab.wf_iff] at ht
    have hti := List.pairwise_cons.1 ht.1
    cases u with
    | nil => exact absurd (by simpa [Tab.get] using h i) (ht.2 (i, w) (by simp))
    | cons f u =>
      obtain ⟨j, x⟩ := f
      rw [Tab.wf_iff] at hu
      have huj := List.pairwise_cons.1 hu.1
      have hij : i = j := by
        rcases lt_trichotomy i j with hlt | heq | hgt
        · have := h i
          rw [notin ((j, x) :: u) i (by
            intro a ha
            rcases List.mem_cons.1 ha with rfl | ha
            · exact hlt
            · exact lt_trans hlt (huj.1 a ha))] at this
          exact absurd (by simpa [Tab.get] using this) (ht.2 (i, w) (by simp))
        · exact heq
        · have := h j
          rw [notin ((i, w) :: t) j (by
            intro a ha
            rcases List.mem_cons.1 ha with rfl | ha
            · exact hgt
            · exact lt_trans hgt (hti.1 a ha))] at this
          exact absurd (by simpa [Tab.get] using this.symm) (hu.2 (j, x) (by simp))
      subst hij
      have hwx : w = x := by simpa [Tab.get] using h i
      subst hwx
      congr 1
      refine ih u ((Tab.wf_iff d t).2 ⟨hti.2, fun e he => ht.2 e (by simp [he])⟩)
        ((Tab.wf_iff d u).2 ⟨huj.2, fun e he => hu.2 e (by simp [he])⟩) fun k => ?_
      by_cases hk : i = k
      · subst hk
        rw [notin t i hti.1, notin u i huj.1]
      · simpa [Tab.get, hk] using h k

/-! ### Byte memories -/

theorem Mem.wf_store (d : Byte) (m : Tab Byte) (a : Nat) (data : List Byte) (h : Tab.wf (fun _ => d) m = true) :
    Tab.wf (fun _ => d) (Mem.store d m a data) = true := by
  induction data generalizing m a with
  | nil => exact h
  | cons b bs ih => exact ih _ _ (Tab.wf_set _ _ _ _ h)

/-- A store leaves every byte outside its range as it stands. -/
theorem Mem.get_store_outside (d : Byte) (m : Tab Byte) (a k : Nat) (data : List Byte) (h : k < a ∨ a + data.length ≤ k) :
    Tab.get (fun _ => d) (Mem.store d m a data) k = Tab.get (fun _ => d) m k := by
  induction data generalizing m a with
  | nil => rfl
  | cons b bs ih =>
    simp only [List.length_cons] at h
    rw [Mem.store, ih _ _ (by omega), Tab.get_set_ne _ _ _ (by omega)]

/-- The bytes stored read back. -/
theorem Mem.get_store (d : Byte) (m : Tab Byte) (a i : Nat) (data : List Byte) (h : i < data.length) :
    Tab.get (fun _ => d) (Mem.store d m a data) (a + i) = data[i] := by
  induction data generalizing m a i with
  | nil => simp at h
  | cons b bs ih =>
    cases i with
    | zero => rw [Mem.store, Mem.get_store_outside _ _ _ _ _ (by omega)]; simp
    | succ i =>
      rw [Mem.store, show a + (i + 1) = a + 1 + i by omega, ih _ _ _ (by simpa using h)]
      simp

end Sys2Proof.Machine
end

