-- ==== Sys2Proof/Laws/Regs.lean ====
section
/-! SUPPORT. The laws of register words and their fields: what a field reads after a write of itself, of another field and of another
register, and what the basic operations of Machine/Ops.lean leave alone. -/

namespace Sys2Proof.Machine

/-! ### Fields of a word -/

theorem Word.testBit_field (w : Word) (hi lo i : Nat) :
    (Word.field w hi lo).testBit i = (decide (i < hi + 1 - lo) && w.getLsbD (lo + i)) := by
  simp [Word.field, Nat.testBit_mod_two_pow, Nat.testBit_shiftRight, BitVec.testBit_toNat]

theorem Word.getLsbD_setField (w : Word) (hi lo v j : Nat) :
    (Word.setField w hi lo v).getLsbD j =
      (if lo ≤ j ∧ j < hi + 1 ∧ j < 32 then v.testBit (j - lo) else w.getLsbD j) := by
  by_cases hj : j < 32
  · simp only [Word.setField, BitVec.getLsbD_or, BitVec.getLsbD_and, BitVec.getLsbD_not, BitVec.getLsbD_ofNat, hj,
      decide_true, Bool.true_and, Nat.testBit_shiftLeft, Nat.testBit_two_pow_sub_one, Nat.testBit_mod_two_pow, and_true]
    by_cases h1 : lo ≤ j
    · by_cases h2 : j < hi + 1
      · have : j - lo < hi + 1 - lo := by omega
        simp [h1, h2, this]
      · have : ¬ j - lo < hi + 1 - lo := by omega
        simp [h1, h2, this]
    · simp [h1]
  · rw [if_neg (by omega), BitVec.getLsbD_of_ge _ _ (by omega), BitVec.getLsbD_of_ge _ _ (by omega)]

theorem Word.field_setField_self (w : Word) (hi lo v : Nat) (h : hi < 32) :
    Word.field (Word.setField w hi lo v) hi lo = v % 2 ^ (hi + 1 - lo) := by
  apply Nat.eq_of_testBit_eq
  intro i
  rw [Word.testBit_field, Word.getLsbD_setField, Nat.testBit_mod_two_pow]
  by_cases hi' : i < hi + 1 - lo
  · rw [if_pos ⟨by omega, by omega, by omega⟩]; simp [hi']
  · simp [hi']

theorem Word.field_setField_other (w : Word) (hi lo v h l : Nat) (hd : h < lo ∨ hi < l) :
    Word.field (Word.setField w hi lo v) h l = Word.field w h l := by
  apply Nat.eq_of_testBit_eq
  intro i
  rw [Word.testBit_field, Word.testBit_field, Word.getLsbD_setField]
  by_cases hi' : i < h + 1 - l
  · rw [if_neg (by omega)]
  · simp [hi']

theorem Word.field_lt (w : Word) (hi lo : Nat) : Word.field w hi lo < 2 ^ (hi + 1 - lo) := Nat.mod_lt _ (Nat.two_pow_pos _)

/-! ### Registers -/

/-- Two fields share no bit: they stand in different words, or apart in one. -/
def Fld.apart (f g : Fld) : Bool := decide (g.addr ≠ f.addr) || decide (g.hi < f.lo) || decide (f.hi < g.lo)

@[simp] theorem State.reg_setReg_self (s : State) (a : Nat) (w : Word) : (s.setReg a w).reg a = w := Tab.get_set_self _ _ _ _

theorem State.reg_setReg_ne (s : State) {a b : Nat} (w : Word) (h : b ≠ a) : (s.setReg a w).reg b = s.reg b :=
  Tab.get_set_ne _ _ _ h

theorem State.rd_setReg_ne (s : State) (a : Nat) (g : Fld) (w : Word) (h : g.addr ≠ a) : (s.setReg a w).rd g = s.rd g := by
  rw [State.rd, State.reg_setReg_ne s w h]; rfl

theorem State.rd_setReg_self (s : State) (g : Fld) (w : Word) : (s.setReg g.addr w).rd g = Word.field w g.hi g.lo := by
  rw [State.rd, State.reg_setReg_self]

/-- A field reads what was written into it. -/
theorem State.rd_wr_self (s : State) (f : Fld) (v : Nat) (h : f.hi < 32) : (s.wr f v).rd f = v % 2 ^ (f.hi + 1 - f.lo) := by
  rw [State.wr, State.rd_setReg_self, Word.field_setField_self _ _ _ _ h]

/-- A write of one field leaves every field apart from it. -/
theorem State.rd_wr_apart (s : State) (f g : Fld) (v : Nat) (h : Fld.apart f g = true) : (s.wr f v).rd g = s.rd g := by
  by_cases ha : g.addr = f.addr
  · simp only [Fld.apart, ha, ne_eq, not_true_eq_false, decide_false, Bool.false_or, Bool.or_eq_true, decide_eq_true_eq] at h
    rw [State.wr, State.rd, ha, State.reg_setReg_self, Word.field_setField_other _ _ _ _ _ _ h, State.rd, ha]
  · exact State.rd_setReg_ne _ _ _ _ ha

theorem State.reg_wr_ne (s : State) (f : Fld) (v a : Nat) (h : a ≠ f.addr) : (s.wr f v).reg a = s.reg a :=
  State.reg_setReg_ne _ _ h

theorem State.rd_lt (s : State) (f : Fld) : s.rd f < 2 ^ (f.hi + 1 - f.lo) := Word.field_lt _ _ _

theorem State.rd_put_self (s : State) (f : Fld) (b : Bool) (h : f.hi < 32) (h1 : f.lo ≤ f.hi) : (s.put f b).rd f = b.toNat := by
  have h2 : 2 ^ 1 ≤ 2 ^ (f.hi + 1 - f.lo) := Nat.pow_le_pow_right (by omega) (by omega)
  rw [State.put, State.rd_wr_self _ _ _ h, Nat.mod_eq_of_lt]
  cases b
  · simp
  · simp only [Bool.toNat_true]; omega

theorem State.rd_put_apart (s : State) (f g : Fld) (b : Bool) (h : Fld.apart f g = true) : (s.put f b).rd g = s.rd g :=
  State.rd_wr_apart _ _ _ _ h

theorem State.rd_wrS_apart (s : State) (f g : Fld) (v : Int) (h : Fld.apart f g = true) : (s.wrS f v).rd g = s.rd g :=
  State.rd_wr_apart _ _ _ _ h

theorem State.rd_bump_apart (s : State) (f g : Fld) (k : Nat) (h : Fld.apart f g = true) : (s.bump f k).rd g = s.rd g :=
  State.rd_wr_apart _ _ _ _ h

/-- A counter field adds and saturates. -/
theorem State.rd_bump_self (s : State) (f : Fld) (k : Nat) (h : f.hi < 32) :
    (s.bump f k).rd f = min (s.rd f + k) (2 ^ (f.hi + 1 - f.lo) - 1) := by
  have h0 : 0 < 2 ^ (f.hi + 1 - f.lo) := Nat.two_pow_pos _
  rw [State.bump, State.rd_wr_self _ _ _ h, Nat.mod_eq_of_lt (by omega)]

/-- A register of the range takes its reset word. -/
theorem State.reg_resetRegs_in (s : State) (lo hi a : Nat) (h : lo ≤ a ∧ a < hi) : (s.resetRegs lo hi).reg a = resetWord a := by
  have key : ∀ t : Tab Word, Tab.get resetWord (Tab.clear t lo hi) a = resetWord a := by
    intro t
    induction t with
    | nil => rfl
    | cons e r ih =>
      simp only [Tab.clear, List.filter_cons] at ih ⊢
      split
      · rename_i he
        have hne : e.1 ≠ a := by rintro rfl; simp at he; omega
        obtain ⟨j, w⟩ := e
        simpa [Tab.get, hne] using ih
      · exact ih
  exact key s.regs

theorem State.reg_resetRegs (s : State) (lo hi a : Nat) (h : a < lo ∨ hi ≤ a) : (s.resetRegs lo hi).reg a = s.reg a := by
  have key : ∀ t : Tab Word, Tab.get resetWord (Tab.clear t lo hi) a = Tab.get resetWord t a := by
    intro t
    induction t with
    | nil => rfl
    | cons e r ih =>
      obtain ⟨j, v⟩ := e
      simp only [Tab.clear] at ih ⊢
      by_cases hj : j = a
      · subst hj
        rw [List.filter_cons_of_pos (by simp; omega)]
        simp [Tab.get]
      · rw [List.filter_cons]
        split <;> simpa [Tab.get, hj] using ih
  exact key _

/-! ### Raises -/

@[simp] theorem State.regs_raise (s : State) (e : Nat) : (s.raise e).regs = s.regs := by
  simp only [State.raise]; split <;> rfl

@[simp] theorem State.reg_raise (s : State) (e a : Nat) : (s.raise e).reg a = s.reg a := by
  simp only [State.reg, State.regs_raise]

@[simp] theorem State.rd_raise (s : State) (e : Nat) (g : Fld) : (s.raise e).rd g = s.rd g := by
  simp only [State.rd, State.reg_raise]

@[simp] theorem State.rd_raiseIf (s : State) (b : Bool) (e : Nat) (g : Fld) : (s.raiseIf b e).rd g = s.rd g := by
  cases b <;> simp [State.raiseIf]

@[simp] theorem State.rd_cfgReject (s : State) (g : Fld) : s.cfgReject.rd g = s.rd g := State.rd_raise s 3 g

/-- A raise outside RESET of an event that is not reserved waits for delivery. -/
theorem State.raised_raise (s : State) (e : Nat) (h : s.mode ≠ mRESET) (he : reservedEvent e = false) :
    (s.raise e).raised = s.raised ++ [e] := by
  have : s.rd F.SYS_MODE_MODE ≠ 0 := h
  simp [State.raise, State.raised, this, he]

/-! ### Counts -/

theorem State.reg_addCounter (s : State) (k n a : Nat) (h : a ≠ R.OBS_SAT (k / 32)) : (s.addCounter k n).reg a = s.reg a := by
  simp only [State.addCounter]
  split
  · rw [State.reg_raise, State.reg_setReg_ne _ _ h]; rfl
  · rfl

/-- The words that performance counting may write. -/
def obsSat (a : Nat) : Bool := decide (R.OBS_SAT 0 ≤ a) && decide (a ≤ R.OBS_SAT 31)

theorem State.mem_countersOf (s : State) (g lo inst k : Nat) (h : k ∈ s.countersOf g lo inst) : k < 1024 := by
  simp only [State.countersOf, Tab.range, List.mem_map, List.mem_filter, Bool.and_eq_true, decide_eq_true_eq] at h
  obtain ⟨e, ⟨⟨-, h1, h2⟩, -⟩, rfl⟩ := h
  omega

theorem State.reg_addCounters (l : List Nat) (s : State) (n a : Nat) (hl : ∀ k ∈ l, k < 1024) (h : obsSat a = false) :
    (l.foldl (fun s k => s.addCounter k n) s).reg a = s.reg a := by
  induction l generalizing s with
  | nil => rfl
  | cons k r ih =>
    rw [List.foldl_cons, ih _ fun j hj => hl j (by simp [hj]), State.reg_addCounter]
    intro ha
    have hk := hl k (by simp)
    simp only [obsSat, ha, R.OBS_SAT, Bool.and_eq_false_iff, decide_eq_false_iff_not] at h
    omega

@[simp] theorem State.reg_count (s : State) (g lo inst n a : Nat) (h : obsSat a = false) : (s.count g lo inst n).reg a = s.reg a := by
  simp only [State.count]
  split
  · exact State.reg_addCounters _ _ _ _ (fun k hk => State.mem_countersOf _ _ _ _ _ hk) h
  · rfl

@[simp] theorem State.rd_count (s : State) (g lo inst n : Nat) (f : Fld) (h : obsSat f.addr = false) :
    (s.count g lo inst n).rd f = s.rd f := by
  simp only [State.rd, State.reg_count s g lo inst n f.addr h]

@[simp] theorem State.reg_countTil (s : State) (n lo k a : Nat) (h : obsSat a = false) : (s.countTil n lo k).reg a = s.reg a := by
  simp only [State.countTil]
  split
  · exact State.reg_addCounters _ _ _ _ (fun j hj => State.mem_countersOf _ _ _ _ _ (List.mem_filter.1 hj).1) h
  · rfl

@[simp] theorem State.rd_countTil (s : State) (n lo k : Nat) (f : Fld) (h : obsSat f.addr = false) :
    (s.countTil n lo k).rd f = s.rd f := by
  simp only [State.rd, State.reg_countTil s n lo k f.addr h]

/-! ### Folds -/

/-- A property that every step of a fold keeps, the fold keeps. -/
theorem State.forN_keep (P : State → Prop) (n : Nat) (f : Nat → State → State) (s : State) (h : P s)
    (hf : ∀ i < n, ∀ s, P s → P (f i s)) : P (s.forN n f) := by
  have key : ∀ (l : List Nat) (s : State), (∀ i ∈ l, i < n) → P s → P (l.foldl (fun s i => f i s) s) := by
    intro l
    induction l with
    | nil => intro s _ hs; exact hs
    | cons i r ih => intro s hl hs; exact ih _ (fun j hj => hl j (by simp [hj])) (hf i (hl i (by simp)) s hs)
  exact key _ s (fun i hi => List.mem_range.1 hi) h

theorem State.reg_forN (s : State) (n a : Nat) (f : Nat → State → State) (hf : ∀ i < n, ∀ s, (f i s).reg a = s.reg a) :
    (s.forN n f).reg a = s.reg a :=
  State.forN_keep (fun t => t.reg a = s.reg a) n f s rfl fun i hi t ht => (hf i hi t).trans ht

end Sys2Proof.Machine
end

