-- ==== Sys2Proof/Laws/Frame.lean ====
section
/-! SUPPORT. The frame relation and its rules. `Fr w s t`: from s to t only the parts of the state whose bit is set in the mask w may
have changed, the queue has not, and the canonical form is kept. -/

namespace Sys2Proof.Machine

/-- The bit of a part in a mask. -/
def Part.bit : Part → Nat
  | .regs => 0 | .raised => 1 | .freeIx => 2 | .sys => 3 | .det => 4 | .tdc => 5 | .his => 6 | .til => 7 | .oq => 8 | .emi => 9
  | .mem => 10 | .lnk => 11 | .hlm => 12 | .hdg => 13 | .mer => 14 | .cap => 15 | .sxt => 16 | .adc => 17 | .cal => 18 | .thm => 19
  | .boot => 20 | .obs => 21 | .dram => 22 | .flash => 23

theorem Part.same_refl (p : Part) (s : State) : p.same s s := by cases p <;> rfl

theorem Part.same_trans {p : Part} {s t u : State} (h : p.same s t) (k : p.same t u) : p.same s u := by
  cases p <;> exact Eq.trans k h

/-- The bit of a written area in a mask. -/
def Written.bit (x : Written) : Nat := 24 + x.ctorIdx

/-- No register bit differs outside the areas of the mask. -/
def Fr.regs (w : Nat) (s t : State) : Prop :=
  ∀ a j, (∀ x : Written, w.testBit x.bit = true → ¬ x.area.covers a j) → (t.reg a).getLsbD j = (s.reg a).getLsbD j

/-- The parts outside the mask `w` are equal in `s` and `t`, register bits outside its areas too, the queue is equal, and the canonical
form is kept. -/
structure Fr (w : Nat) (s t : State) : Prop where
  canon : s.canonical → t.canonical
  pending : t.pending = s.pending
  same : ∀ p : Part, w.testBit p.bit = false → p.same s t
  bits : Fr.regs w s t

theorem Fr.regs_eq {w : Nat} {s t : State} (h : t.regs = s.regs) : Fr.regs w s t := fun a j _ => by simp only [State.reg, h]

theorem Fr.refl (w : Nat) (s : State) : Fr w s s := ⟨id, rfl, fun p _ => p.same_refl s, fun _ _ _ => rfl⟩

theorem Fr.trans {w : Nat} {s t u : State} (h : Fr w s t) (k : Fr w t u) : Fr w s u :=
  ⟨fun c => k.canon (h.canon c), k.pending.trans h.pending, fun p e => Part.same_trans (h.same p e) (k.same p e),
    fun a j n => (k.bits a j n).trans (h.bits a j n)⟩

theorem Fr.mono {v w : Nat} {s t : State} (h : Fr v s t) (e : v &&& w = v) : Fr w s t := by
  refine ⟨h.canon, h.pending, fun p q => h.same p ?_, fun a j n => h.bits a j fun x hx => n x ?_⟩
  · rw [← e, Nat.testBit_and, q, Bool.and_false]
  · rw [← e, Nat.testBit_and, Bool.and_eq_true] at hx
    exact hx.2

/-- The mask as a list of parts, and as a list of written areas. -/
theorem Fr.only {w : Nat} {s t : State} {l : List Part} (h : Fr w s t) (e : ∀ p : Part, p ∈ l ∨ w.testBit p.bit = false) :
    onlyChanges l s t := ⟨h.pending, fun p hp => h.same p ((e p).resolve_left hp)⟩

theorem Fr.within {w : Nat} {s t : State} {l : List Written} (h : Fr w s t) (e : ∀ x : Written, x ∈ l ∨ w.testBit x.bit = false) :
    regsWithin l s t := fun a j n => h.bits a j fun x hx => n x ((e x).resolve_right (by simp [hx]))

/-- A callee's frame after what ran before it. -/
theorem Fr.call {v w : Nat} {s x y : State} (k : Fr v x y) (h : Fr w s x) (e : v &&& w = v) : Fr w s y := h.trans (k.mono e)

theorem off {b : Bool} {p : Prop} (h : b = true ∨ p) (e : b = false) : p := h.resolve_left (by simp [e])

/-- A record update that touches neither registers nor a byte memory. -/
theorem Fr.upd {w : Nat} {s x : State} {raised freeIx sys det tdc his til oq emi mem lnk hlm hdg mer cap sxt adc cal thm boot obs}
    (h : Fr w s x)
    (g1 : w.testBit 1 = true ∨ raised = x.raises)
    (g2 : w.testBit 2 = true ∨ freeIx = x.freeIx)
    (g3 : w.testBit 3 = true ∨ sys = x.sys)
    (g4 : w.testBit 4 = true ∨ det = x.det)
    (g5 : w.testBit 5 = true ∨ tdc = x.tdc)
    (g6 : w.testBit 6 = true ∨ his = x.his)
    (g7 : w.testBit 7 = true ∨ til = x.til)
    (g8 : w.testBit 8 = true ∨ oq = x.oq)
    (g9 : w.testBit 9 = true ∨ emi = x.emi)
    (g10 : w.testBit 10 = true ∨ mem = x.mem)
    (g11 : w.testBit 11 = true ∨ lnk = x.lnk)
    (g12 : w.testBit 12 = true ∨ hlm = x.hlm)
    (g13 : w.testBit 13 = true ∨ hdg = x.hdg)
    (g14 : w.testBit 14 = true ∨ mer = x.mer)
    (g15 : w.testBit 15 = true ∨ cap = x.cap)
    (g16 : w.testBit 16 = true ∨ sxt = x.sxt)
    (g17 : w.testBit 17 = true ∨ adc = x.adc)
    (g18 : w.testBit 18 = true ∨ cal = x.cal)
    (g19 : w.testBit 19 = true ∨ thm = x.thm)
    (g20 : w.testBit 20 = true ∨ boot = x.boot)
    (g21 : w.testBit 21 = true ∨ obs = x.obs)
    (d : mem.dram = x.mem.dram) (f : boot.flash = x.boot.flash) :
    Fr w s (State.mk x.pending x.regs raised freeIx sys det tdc his til oq emi mem lnk hlm hdg mer cap sxt adc cal thm boot obs) := by
  refine h.trans ⟨?_, rfl, fun p e => ?_, Fr.regs_eq rfl⟩
  · simp only [State.canonical, State.regsWf, Memory.wf, d, f]; exact id
  · cases p <;> first
      | rfl | exact d | exact f | exact off g1 e | exact off g2 e | exact off g3 e | exact off g4 e | exact off g5 e | exact off g6 e
      | exact off g7 e | exact off g8 e | exact off g9 e | exact off g11 e | exact off g12 e | exact off g13 e
      | exact off g14 e | exact off g15 e | exact off g16 e | exact off g17 e | exact off g18 e | exact off g19 e
      | exact off g21 e | exact congrArg Mem.rest (off g10 e) | exact congrArg Boot.rest (off g20 e)

theorem Fr.ite {w : Nat} {s a b : State} {c : Prop} [Decidable c] (ha : Fr w s a) (hb : Fr w s b) : Fr w s (if c then a else b) := by
  split <;> assumption

theorem Fr.pair {α : Type} {w : Nat} {s t : State} {p : α × State} {a : α} (e : p = (a, t)) (h : Fr w s p.2) : Fr w s t := by
  subst e; exact h

theorem Fr.pair3 {α β : Type} {w : Nat} {s t : State} {p : α × β × State} {a : α} {b : β} (e : p = (a, b, t)) (h : Fr w s p.2.2) :
    Fr w s t := by
  subst e; exact h

theorem Fr.pair4 {α β γ : Type} {w : Nat} {s t : State} {p : α × β × γ × State} {a : α} {b : β} {c : γ} (e : p = (a, b, c, t))
    (h : Fr w s p.2.2.2) : Fr w s t := by
  subst e; exact h

theorem Fr.foldl {α : Type} {w : Nat} {s x : State} (l : List α) (f : State → α → State) (h : Fr w s x)
    (hf : ∀ y a, Fr w y (f y a)) : Fr w s (l.foldl f x) := by
  induction l generalizing x with
  | nil => exact h
  | cons a r ih => exact ih (h.trans (hf x a))

/-- A fold that carries a value beside the state. -/
theorem Fr.foldl2 {α β : Type} {w : Nat} {s : State} (l : List α) (f : β × State → α → β × State) (x : β × State) (h : Fr w s x.2)
    (hf : ∀ y a, Fr w y.2 (f y a).2) : Fr w s (l.foldl f x).2 := by
  induction l generalizing x with
  | nil => exact h
  | cons a r ih => exact ih _ (h.trans (hf x a))

theorem Fr.forN {w : Nat} {s x : State} {n : Nat} {f : Nat → State → State} (h : Fr w s x) (hf : ∀ i y, Fr w y (f i y)) :
    Fr w s (x.forN n f) := Fr.foldl _ _ h fun y i => hf i y

theorem Fr.when {w : Nat} {s x : State} {b : Bool} {f : State → State} (h : Fr w s x) (hf : ∀ y, Fr w y (f y)) :
    Fr w s (x.when b f) := by
  unfold State.when
  exact Fr.ite (h.trans (hf x)) h

/-- The outcome is a next state that only the mask's parts distinguish from `s`. -/
def Runs (w : Nat) (s : State) (o : Host.Outcome State Fault Refusal) : Prop := ∃ t, o = .next t ∧ Fr w s t

theorem Runs.next {w : Nat} {s t : State} (h : Fr w s t) : Runs w s (.next t) := ⟨t, rfl, h⟩

theorem Runs.mono {v w : Nat} {s : State} {o : Host.Outcome State Fault Refusal} (h : Runs v s o) (e : v &&& w = v) : Runs w s o :=
  h.elim fun t k => ⟨t, k.1, k.2.mono e⟩

/-! ### Register writes -/

theorem testBit_sub {v w k : Nat} (hw : v &&& w = v) (h : v.testBit k = true) : w.testBit k = true := by
  rw [← hw, Nat.testBit_and, Bool.and_eq_true] at h
  exact h.2

/-- The mask has an area that covers the word at `a`. -/
def CoversWord (w a : Nat) : Prop := ∃ x : Written, w.testBit x.bit = true ∧ ∀ j, x.area.covers a j

/-- The mask has an area that covers the field `f`. -/
def Covers (w : Nat) (f : Fld) : Prop := ∃ x : Written, w.testBit x.bit = true ∧ ∀ j, f.lo ≤ j → j ≤ f.hi → x.area.covers f.addr j

theorem CoversWord.word {w a : Nat} (x : Written) (e : x.area = .word a) (b : w.testBit x.bit = true) : CoversWord w a :=
  ⟨x, b, fun j => by rw [e]; rfl⟩

theorem CoversWord.words {w : Nat} {r : Nat → Nat} {i : Nat} (x : Written) (e : x.area = .words r) (b : w.testBit x.bit = true) :
    CoversWord w (r i) := ⟨x, b, fun j => by rw [e]; exact ⟨i, rfl⟩⟩

theorem CoversWord.words2 {w : Nat} {r : Nat → Nat → Nat} {i k : Nat} (x : Written) (e : x.area = .words2 r)
    (b : w.testBit x.bit = true) : CoversWord w (r i k) := ⟨x, b, fun j => by rw [e]; exact ⟨i, k, rfl⟩⟩

theorem CoversWord.range {w a lo hi : Nat} (x : Written) (e : x.area = .range lo hi) (b : w.testBit x.bit = true)
    (h : lo ≤ a ∧ a < hi) : CoversWord w a := ⟨x, b, fun j => by rw [e]; exact h⟩

theorem CoversWord.all {w a : Nat} (b : w.testBit Written.all.bit = true) : CoversWord w a := ⟨.all, b, fun _ => trivial⟩

theorem CoversWord.ite {w a b : Nat} {c : Prop} [Decidable c] (h : CoversWord w a) (k : CoversWord w b) :
    CoversWord w (if c then a else b) := by split <;> assumption

theorem Covers.fld {w : Nat} {f : Fld} (x : Written) (e : x.area = .fld f) (b : w.testBit x.bit = true) : Covers w f :=
  ⟨x, b, fun j h k => by rw [e]; exact ⟨rfl, h, k⟩⟩

theorem Covers.arr {w : Nat} {f : Nat → Fld} {i : Nat} (x : Written) (e : x.area = .arr f) (b : w.testBit x.bit = true) :
    Covers w (f i) := ⟨x, b, fun j h k => by rw [e]; exact ⟨i, rfl, h, k⟩⟩

theorem Covers.arr2 {w : Nat} {f : Nat → Nat → Fld} {i l : Nat} (x : Written) (e : x.area = .arr2 f) (b : w.testBit x.bit = true) :
    Covers w (f i l) := ⟨x, b, fun j h k => by rw [e]; exact ⟨i, l, rfl, h, k⟩⟩

theorem Covers.ite {w : Nat} {f g : Fld} {c : Prop} [Decidable c] (h : Covers w f) (k : Covers w g) :
    Covers w (if c then f else g) := by split <;> assumption

theorem Fr.setReg {w a : Nat} {v : Word} {s x : State} (h : Fr w s x) (b : w.testBit 0 = true) (c : CoversWord w a) :
    Fr w s (x.setReg a v) := by
  refine h.trans ⟨fun h => ⟨Tab.wf_set _ _ _ _ h.1, h.2⟩, rfl, fun p e => ?_, fun a' j n => ?_⟩
  · cases p <;> first | rfl | exact absurd (b.symm.trans e) (by decide)
  · obtain ⟨y, hy, hc⟩ := c
    rw [State.reg_setReg_ne]
    rintro rfl
    exact n y hy (hc j)

theorem Fr.wr {w v : Nat} {f : Fld} {s x : State} (h : Fr w s x) (b : w.testBit 0 = true) (c : Covers w f) : Fr w s (x.wr f v) := by
  refine h.trans ⟨fun h => ⟨Tab.wf_set _ _ _ _ h.1, h.2⟩, rfl, fun p e => ?_, fun a' j n => ?_⟩
  · cases p <;> first | rfl | exact absurd (b.symm.trans e) (by decide)
  · obtain ⟨y, hy, hc⟩ := c
    by_cases ha : a' = f.addr
    · subst ha
      rw [State.wr, State.reg_setReg_self, Word.getLsbD_setField, if_neg]
      exact fun k => n y hy (hc j k.1 (by omega))
    · rw [State.reg_wr_ne _ _ _ _ ha]

theorem Fr.put {w : Nat} {v : Bool} {f : Fld} {s x : State} (h : Fr w s x) (b : w.testBit 0 = true) (c : Covers w f) :
    Fr w s (x.put f v) := Fr.wr h b c

theorem Fr.wrS {w : Nat} {v : Int} {f : Fld} {s x : State} (h : Fr w s x) (b : w.testBit 0 = true) (c : Covers w f) :
    Fr w s (x.wrS f v) := Fr.wr h b c

theorem Fr.bump {w v : Nat} {f : Fld} {s x : State} (h : Fr w s x) (b : w.testBit 0 = true) (c : Covers w f) :
    Fr w s (x.bump f v) := Fr.wr h b c

theorem Fr.resetRegs {w lo hi lo' hi' : Nat} {s x : State} (y : Written) (e : y.area = .range lo' hi') (h : Fr w s x)
    (b : w.testBit 0 = true) (c : w.testBit y.bit = true) (k : lo' ≤ lo ∧ hi ≤ hi') : Fr w s (x.resetRegs lo hi) := by
  refine h.trans ⟨fun h => ⟨Tab.wf_clear _ _ _ _ h.1, h.2⟩, rfl, fun p e => ?_, fun a j n => ?_⟩
  · cases p <;> first | rfl | exact absurd (b.symm.trans e) (by decide)
  · have := n y c
    rw [e] at this
    rw [State.reg_resetRegs]
    simp only [Area.covers] at this
    omega

theorem State.bo_fr (f : Boot → Boot) (s : State) (hf : ∀ b, (f b).flash = b.flash) : Fr 1048576 s (s.bo f) :=
  Fr.upd (Fr.refl _ s) (.inr rfl) (.inr rfl) (.inr rfl) (.inr rfl) (.inr rfl) (.inr rfl) (.inr rfl) (.inr rfl) (.inr rfl) (.inr rfl)
    (.inr rfl) (.inr rfl) (.inr rfl) (.inr rfl) (.inr rfl) (.inr rfl) (.inr rfl) (.inr rfl) (.inr rfl) (.inl rfl) (.inr rfl) rfl (hf _)

theorem Fr.have {w : Nat} {s y : State} (x : State) (hx : Fr w s x) (k : Fr w s x → Fr w s y) : Fr w s y := k hx

theorem Runs.have {w : Nat} {s : State} {o : Host.Outcome State Fault Refusal} (x : State) (hx : Fr w s x)
    (k : Fr w s x → Runs w s o) : Runs w s o := k hx

theorem sub_trans {a b w : Nat} (h : a &&& b = a) (k : b &&& w = b) : a &&& w = a := by
  rw [← h, Nat.and_assoc, k]

/-- A record update of the memory controller that may change DRAM. -/
theorem Fr.dramUpd {w : Nat} {s x : State} {m : Mem} (h : Fr w s x) (b : w.testBit 10 = true) (c : w.testBit 22 = true)
    (d : Tab.wf (fun _ => (0 : Byte)) x.mem.dram = true → Tab.wf (fun _ => (0 : Byte)) m.dram = true) :
    Fr w s (State.mk x.pending x.regs x.raises x.freeIx x.sys x.det x.tdc x.his x.til x.oq x.emi m x.lnk x.hlm x.hdg x.mer x.cap
      x.sxt x.adc x.cal x.thm x.boot x.obs) := by
  refine h.trans ⟨?_, rfl, fun p e => ?_, Fr.regs_eq rfl⟩
  · simp only [State.canonical, State.regsWf, Memory.wf, Bool.and_eq_true]
    exact fun k => ⟨k.1, d k.2.1, k.2.2⟩
  · cases p <;> first | rfl | exact absurd (b.symm.trans e) (by decide) | exact absurd (c.symm.trans e) (by decide)

/-- A record update of the boot state that may change the flash and nothing else. -/
theorem Fr.flashUpd {w : Nat} {s x : State} {m : Boot} (h : Fr w s x) (b : m.rest = x.boot.rest) (c : w.testBit 23 = true)
    (d : Tab.wf (fun _ => (0xFF : Byte)) x.boot.flash = true → Tab.wf (fun _ => (0xFF : Byte)) m.flash = true) :
    Fr w s (State.mk x.pending x.regs x.raises x.freeIx x.sys x.det x.tdc x.his x.til x.oq x.emi x.mem x.lnk x.hlm x.hdg x.mer
      x.cap x.sxt x.adc x.cal x.thm m x.obs) := by
  refine h.trans ⟨?_, rfl, fun p e => ?_, Fr.regs_eq rfl⟩
  · simp only [State.canonical, State.regsWf, Memory.wf, Bool.and_eq_true]
    exact fun k => ⟨k.1, k.2.1, d k.2.2⟩
  · cases p <;> first | rfl | exact b | exact absurd (c.symm.trans e) (by decide)

theorem Fr.ite2 {α : Type} {w : Nat} {s : State} {p q : α × State} {c : Prop} [Decidable c] (ha : Fr w s p.2) (hb : Fr w s q.2) :
    Fr w s (if c then p else q).2 := by
  split <;> assumption

theorem Fr.ite3 {α β : Type} {w : Nat} {s : State} {p q : α × β × State} {c : Prop} [Decidable c] (ha : Fr w s p.2.2)
    (hb : Fr w s q.2.2) : Fr w s (if c then p else q).2.2 := by
  split <;> assumption
end Sys2Proof.Machine
end

