-- ==== Sys2Proof/Laws/FrameCore.lean ====
section
/-! SUPPORT. The frame of every operation and command of the shared layer, the Tillers, the memory, the detector and the timing files: which parts of the state and which fields each may change. -/

namespace Sys2Proof.Machine

set_option maxHeartbeats 400000
set_option maxRecDepth 4000

theorem State.raise_fr (s : State) (e : Nat) : Fr 0x2 s (State.raise s e) := by
  unfold State.raise
  refine .ite ?_ ?_
  exact .refl ..
  apply Fr.upd <;> first | show Fr _ _ _ | exact .inl rfl | exact .inr rfl | rfl
  exact .refl ..

theorem State.cfgReject_fr (s : State) : Fr 0x2 s (State.cfgReject s) := by
  unfold State.cfgReject
  refine .call (State.raise_fr ..) ?_ (by decide)
  exact .refl ..

theorem State.addCounter_fr (s : State) (k : Nat) (n : Nat) :
    Fr 0x10000000000000000000000000000000000000000000000000000000000000000000000000000000000000000000000000000000000000000200003 s (State.addCounter s k n) := by
  unfold State.addCounter
  lift_lets -underBinder
  intro x1 x2 x3 x4
  refine Fr.have x4 ?_ (fun hx4 => ?_) <;> [unfold x4; clear_value x4]
  apply Fr.upd <;> first | show Fr _ _ _ | exact .inl rfl | exact .inr rfl | rfl
  exact .refl ..
  refine .ite ?_ ?_
  refine .call (State.raise_fr ..) ?_ (by decide)
  refine .setReg ?_ (by decide) (.words .w_OBS_SAT rfl (by decide))
  exact hx4
  exact hx4

theorem State.count_fr (s : State) (g : Nat) (lo : Nat) (inst : Nat) (n : Nat) :
    Fr 0x10000000000000000000000000000000000000000000000000000000000000000000000000000000000000000000000000000000000000000200003 s (State.count s g lo inst n) := by
  unfold State.count
  refine .ite ?_ ?_
  with_reducible apply Fr.foldl
  exact .refl ..
  intro x1 x2
  refine .call (State.addCounter_fr ..) ?_ (by decide)
  exact .refl ..
  exact .refl ..

theorem State.accessTimeout_fr (s : State) :
    Fr 0x1000000000000000000000000000000000000000000000000000000000000000000000000000000000000000000000000000000000000000020000b s (State.accessTimeout s) := by
  unfold State.accessTimeout
  lift_lets -underBinder
  intro x1 x2
  refine Fr.have x1 ?_ (fun hx1 => ?_) <;> [unfold x1; clear_value x1]
  refine .call (State.raise_fr ..) ?_ (by decide)
  refine .call (State.count_fr ..) ?_ (by decide)
  exact .refl ..
  apply Fr.upd <;> first | show Fr _ _ _ | exact .inl rfl | exact .inr rfl | rfl
  exact hx1

theorem State.access_fr {w : Nat} {s0 : State} {s : State} {stopped : Bool} {f : State → State} (h : Fr w s0 s) (hf : ∀  y, Fr w y (f  y)) (hw : 0x1000000000000000000000000000000000000000000000000000000000000000000000000000000000000000000000000000000000000000020000b &&& w = 0x1000000000000000000000000000000000000000000000000000000000000000000000000000000000000000000000000000000000000000020000b) :
    Fr w s0 (State.access s stopped f) := by
  refine h.trans ?_
  unfold State.access
  refine .ite ?_ ?_
  exact .refl ..
  lift_lets -underBinder
  intro x1
  refine Fr.have x1 ?_ (fun hx1 => ?_) <;> [unfold x1; clear_value x1]
  (with_reducible apply Fr.call (State.count_fr ..)) <;> [skip; exact sub_trans (by decide) hw]
  exact .refl ..
  refine .ite ?_ ?_
  (with_reducible apply Fr.call (State.accessTimeout_fr ..)) <;> [skip; exact sub_trans (by decide) hw]
  exact hx1
  refine Fr.trans ?_ (hf _)
  exact hx1

theorem State.setOut_fr (s : State) (e : Nat) (q : List (List Byte × List Nat)) : Fr 0x800 s (State.setOut s e q) := by
  unfold State.setOut
  apply Fr.upd <;> first | show Fr _ _ _ | exact .inl rfl | exact .inr rfl | rfl
  exact .refl ..

theorem State.udpQueue_fr (s : State) (e : Nat) (dst : Dest) (data : List Byte) (bad : Bool) (seqs : List Nat) :
    Fr 0x800 s (State.udpQueue s e dst data bad seqs) := by
  unfold State.udpQueue
  lift_lets -underBinder
  intro x1 x2 x3 x4
  refine Fr.have x3 ?_ (fun hx3 => ?_) <;> [unfold x3; clear_value x3]
  refine .call (State.setOut_fr ..) ?_ (by decide)
  exact .refl ..
  apply Fr.upd <;> first | show Fr _ _ _ | exact .inl rfl | exact .inr rfl | rfl
  exact hx3

theorem State.udpSend_fr (s : State) (e : Nat) (peer : List Byte) (resp : Word) (data : Word) (buf : List Byte) :
    Fr 0x800 s (State.udpSend s e peer resp data buf) := by
  unfold State.udpSend
  lift_lets -underBinder
  intro x1 x2 x3
  refine Fr.have x3 ?_ (fun hx3 => ?_) <;> [unfold x3; clear_value x3]
  apply Fr.upd <;> first | show Fr _ _ _ | exact .inl rfl | exact .inr rfl | rfl
  exact .refl ..
  refine .ite ?_ ?_
  exact hx3
  refine .call (State.udpQueue_fr ..) ?_ (by decide)
  exact hx3

theorem State.udpReply_fr (s : State) (status : Nat) : Fr 0x800 s (State.udpReply s status) := by
  unfold State.udpReply
  split
  refine .call (State.udpSend_fr ..) ?_ (by decide)
  apply Fr.upd <;> first | show Fr _ _ _ | exact .inl rfl | exact .inr rfl | rfl
  exact .refl ..
  exact .refl ..

theorem State.respond_fr (s : State) (tag : Nat) (status : Nat) (detail : Nat) :
    Fr 0xf000000000803 s (State.respond s tag status detail) := by
  unfold State.respond
  lift_lets -underBinder
  intro x1
  refine Fr.have x1 ?_ (fun hx1 => ?_) <;> [unfold x1; clear_value x1]
  refine .call (State.raise_fr ..) ?_ (by decide)
  refine .wr ?_ (by decide) (.fld .SYS_MBOX_RESP_DETAIL rfl (by decide))
  refine .wr ?_ (by decide) (.fld .SYS_MBOX_RESP_MODE rfl (by decide))
  refine .wr ?_ (by decide) (.fld .SYS_MBOX_RESP_STATUS rfl (by decide))
  refine .wr ?_ (by decide) (.fld .SYS_MBOX_RESP_TAG rfl (by decide))
  exact .refl ..
  refine .call (State.udpReply_fr ..) ?_ (by decide)
  exact hx1

theorem State.stopSuperseded_fr (s : State) (cause : Nat) : Fr 0xf00100400080b s (State.stopSuperseded s cause) := by
  unfold State.stopSuperseded
  lift_lets -underBinder
  intro x1 x2 x3
  refine Fr.have x1 ?_ (fun hx1 => ?_) <;> [unfold x1; clear_value x1]
  refine .wr ?_ (by decide) (.fld .SYS_MODE_STOPPING rfl (by decide))
  exact .refl ..
  refine Fr.have x3 ?_ (fun hx3 => ?_) <;> [unfold x3; clear_value x3]
  apply Fr.upd <;> first | show Fr _ _ _ | exact .inl rfl | exact .inr rfl | rfl
  exact hx1
  split
  refine .call (State.respond_fr ..) ?_ (by decide)
  lift_lets -underBinder
  intro x4 x5
  refine Fr.have x4 ?_ (fun hx4 => ?_) <;> [unfold x4; clear_value x4]
  refine .wr ?_ (by decide) (.fld .SYS_PEND_STATUS_MODE_SCAN rfl (by decide))
  exact hx3
  apply Fr.upd <;> first | show Fr _ _ _ | exact .inl rfl | exact .inr rfl | rfl
  exact hx4
  exact hx3

theorem State.merWait_fr (s : State) : Fr 0x100000000000000000000000000000000000000000000000000003 s (State.merWait s) := by
  unfold State.merWait
  lift_lets -underBinder
  intro x1
  refine .ite ?_ ?_
  refine .call (State.raise_fr ..) ?_ (by decide)
  refine .wr ?_ (by decide) (.fld .MER_STATUS_PC_WAIT rfl (by decide))
  exact .refl ..
  exact .refl ..

theorem State.stopGivenUp_fr (s : State) (cause : Nat) :
    Fr 0x10000000000000000000000000000000000000000f00100400084b s (State.stopGivenUp s cause) := by
  unfold State.stopGivenUp
  refine .ite ?_ ?_
  exact .refl ..
  lift_lets -underBinder
  intro x1 x2 x3
  refine Fr.have x1 ?_ (fun hx1 => ?_) <;> [unfold x1; clear_value x1]
  refine .call (State.stopSuperseded_fr ..) ?_ (by decide)
  exact .refl ..
  refine Fr.have x3 ?_ (fun hx3 => ?_) <;> [unfold x3; clear_value x3]
  apply Fr.upd <;> first | show Fr _ _ _ | exact .inl rfl | exact .inr rfl | rfl
  exact hx1
  refine .ite ?_ ?_
  exact hx3
  refine .call (State.merWait_fr ..) ?_ (by decide)
  exact hx3

theorem State.memWake_fr (s : State) :
    Fr 0x140000000000000000000000000000000000000000000000000000000000000000000000000008000000003 s (State.memWake s) := by
  unfold State.memWake
  refine .ite ?_ ?_
  refine .wr ?_ (by decide) (.fld .MEM_STATUS_STATE rfl (by decide))
  exact .refl ..
  refine .ite ?_ ?_
  unfold State.latchPend
  refine .ite ?_ ?_
  exact .refl ..
  refine .call (State.raise_fr ..) ?_ (by decide)
  refine .wr ?_ (by decide) (.fld .SYS_PEND_STATUS_MEM_SR rfl (by decide))
  refine .wr ?_ (by decide) (.fld .MEM_STATUS_PENDING_ENABLE rfl (by decide))
  exact .refl ..
  exact .refl ..

theorem State.sx_fr (s : State) (f : Sxt → Sxt) : Fr 0x10000 s (State.sx s f) := by
  unfold State.sx
  apply Fr.upd <;> first | show Fr _ _ _ | exact .inl rfl | exact .inr rfl | rfl
  exact .refl ..

theorem State.sxtArm_fr (s : State) (edge : Bool) :
    Fr 0x34000000000000000000000000000000000000000000000000000000010001 s (State.sxtArm s edge) := by
  unfold State.sxtArm
  refine .call (State.sx_fr ..) ?_ (by decide)
  refine .wr ?_ (by decide) (.fld .SXT_STATUS_BUSY rfl (by decide))
  refine .wr ?_ (by decide) (.fld .SXT_STATUS_GATE_EDGE rfl (by decide))
  refine .wr ?_ (by decide) (.fld .SXT_STATUS_ARMED rfl (by decide))
  exact .refl ..

theorem State.sxtAbort_fr (s : State) : Fr 0x30000000000000000000000000000000000000000000000000000000010001 s (State.sxtAbort s) := by
  unfold State.sxtAbort
  refine .call (State.sx_fr ..) ?_ (by decide)
  refine .wr ?_ (by decide) (.fld .SXT_STATUS_BUSY rfl (by decide))
  refine .wr ?_ (by decide) (.fld .SXT_STATUS_ARMED rfl (by decide))
  exact .refl ..

theorem State.sxtEnable_fr (s : State) : Fr 0x3e800000000000000000000000000000000000000000000000002000010003 s (State.sxtEnable s) := by
  unfold State.sxtEnable
  refine .ite ?_ ?_
  unfold State.latchPend
  refine .ite ?_ ?_
  refine .wr ?_ (by decide) (.fld .SXT_CTRL_EN rfl (by decide))
  exact .refl ..
  refine .call (State.raise_fr ..) ?_ (by decide)
  refine .wr ?_ (by decide) (.fld .SYS_PEND_STATUS_SXT rfl (by decide))
  refine .wr ?_ (by decide) (.fld .SXT_STATUS_PENDING_ENABLE rfl (by decide))
  refine .wr ?_ (by decide) (.fld .SXT_CTRL_EN rfl (by decide))
  exact .refl ..
  refine .ite ?_ ?_
  exact .refl ..
  refine .ite ?_ ?_
  refine .wr ?_ (by decide) (.fld .SXT_CTRL_EN rfl (by decide))
  exact .refl ..
  lift_lets -underBinder
  intro x1
  refine Fr.have x1 ?_ (fun hx1 => ?_) <;> [unfold x1; clear_value x1]
  refine .wr ?_ (by decide) (.fld .SXT_STATUS_DONE rfl (by decide))
  refine .wr ?_ (by decide) (.fld .SXT_CTRL_EN rfl (by decide))
  exact .refl ..
  refine .ite ?_ ?_
  refine .call (State.sxtAbort_fr ..) ?_ (by decide)
  exact hx1
  refine .call (State.sxtArm_fr ..) ?_ (by decide)
  exact hx1

theorem State.sxtKeep_fr (s : State) : Fr 0x1fe800000000000000000000000000000000000000000000000002000010003 s (State.sxtKeep s) := by
  unfold State.sxtKeep
  refine .ite ?_ ?_
  exact .refl ..
  lift_lets -underBinder
  intro x1
  refine Fr.have x1 ?_ (fun hx1 => ?_) <;> [unfold x1; clear_value x1]
  refine .wr ?_ (by decide) (.fld .SXT_CFG_GATE_SRC rfl (by decide))
  refine .wr ?_ (by decide) (.fld .SXT_CFG_STOP_SRC rfl (by decide))
  refine .wr ?_ (by decide) (.fld .SXT_CFG_START_SRC rfl (by decide))
  exact .refl ..
  refine .ite ?_ ?_
  refine .call (State.sxtArm_fr ..) ?_ (by decide)
  exact hx1
  refine .call (State.sxtEnable_fr ..) ?_ (by decide)
  exact hx1

theorem State.setDac_fr (s : State) (v : Nat) : Fr 0x2000000000000000000000000000000000001 s (State.setDac s v) := by
  unfold State.setDac
  refine .wr ?_ (by decide) (.fld .EMI_CHG_STATUS_DAC_CODE rfl (by decide))
  exact .refl ..

theorem State.waitDac_fr (s : State) : Fr 0x2000000000000000000000000000000000001 s (State.waitDac s) := by
  unfold State.waitDac
  refine .ite ?_ ?_
  refine .call (State.setDac_fr ..) ?_ (by decide)
  exact .refl ..
  exact .refl ..

theorem State.answer_fr (s : State) (status : Nat) (detail : Nat) : Fr 0xf00000000080b s (State.answer s status detail) := by
  unfold State.answer
  split
  refine .call (State.respond_fr ..) ?_ (by decide)
  apply Fr.upd <;> first | show Fr _ _ _ | exact .inl rfl | exact .inr rfl | rfl
  exact .refl ..
  exact .refl ..

theorem State.settle_fr (s : State) (m : Nat) (cause : Nat) : Fr 0xf00000000080b s (State.settle s m cause) := by
  unfold State.settle
  lift_lets -underBinder
  intro x1
  refine Fr.have x1 ?_ (fun hx1 => ?_) <;> [unfold x1; clear_value x1]
  split
  refine .ite ?_ ?_
  refine .call (State.respond_fr ..) ?_ (by decide)
  apply Fr.upd <;> first | show Fr _ _ _ | exact .inl rfl | exact .inr rfl | rfl
  exact .refl ..
  refine .ite ?_ ?_
  refine .call (State.respond_fr ..) ?_ (by decide)
  apply Fr.upd <;> first | show Fr _ _ _ | exact .inl rfl | exact .inr rfl | rfl
  exact .refl ..
  exact .refl ..
  exact .refl ..
  split
  refine .ite ?_ ?_
  refine .ite ?_ ?_
  refine .call (State.answer_fr ..) ?_ (by decide)
  exact hx1
  refine .ite ?_ ?_
  refine .call (State.answer_fr ..) ?_ (by decide)
  exact hx1
  refine .ite ?_ ?_
  refine .call (State.answer_fr ..) ?_ (by decide)
  exact hx1
  exact hx1
  exact hx1
  exact hx1

theorem State.showThrottle_fr (s : State) :
    Fr 0x8000000000000000000000000000000000000000000000100000000000000000000000000000001 s (State.showThrottle s) := by
  unfold State.showThrottle
  refine .put ?_ (by decide) (.fld .EMI_STATUS_THROTTLE rfl (by decide))
  refine .put ?_ (by decide) (.fld .THM_STATUS_THROTTLE rfl (by decide))
  exact .refl ..

theorem State.transition_fr (s : State) (m : Nat) (cause : Nat) :
    Fr 0x800000000000000000000001400000080000000000000001fe80000010000000000000000200010000000000120000000f00a03811087b s (State.transition s m cause) := by
  unfold State.transition
  lift_lets -underBinder
  intro x1 x2 x3 x4 x5 x6 x7 x8 x9 x10 x11 x12 x13 x14 x15 x16 x17
  refine Fr.have x3 ?_ (fun hx3 => ?_) <;> [unfold x3; skip]
  refine .call (State.raise_fr ..) ?_ (by decide)
  refine .wr ?_ (by decide) (.fld .SYS_MODE_CAUSE rfl (by decide))
  refine .wr ?_ (by decide) (.fld .SYS_MODE_PREV_MODE rfl (by decide))
  refine .wr ?_ (by decide) (.fld .SYS_MODE_MODE rfl (by decide))
  exact .refl ..
  refine Fr.have x5 ?_ (fun hx5 => ?_) <;> [unfold x5; skip]
  refine .ite ?_ ?_
  exact hx3
  apply Fr.upd <;> first | show Fr _ _ _ | exact .inl rfl | exact .inr rfl | rfl
  exact hx3
  refine Fr.have x6 ?_ (fun hx6 => ?_) <;> [unfold x6; skip]
  refine .wr ?_ (by decide) (.fld .TDC_STATUS_TEST_ACTIVE rfl (by decide))
  refine .wr ?_ (by decide) (.fld .TDC_TEST_CFG_SRC rfl (by decide))
  exact hx5
  refine Fr.have x8 ?_ (fun hx8 => ?_) <;> [unfold x8; skip]
  refine .ite ?_ ?_
  apply Fr.upd <;> first | show Fr _ _ _ | exact .inl rfl | exact .inr rfl | rfl
  exact hx6
  exact hx5
  refine Fr.have x9 ?_ (fun hx9 => ?_) <;> [unfold x9; skip]
  refine .wr ?_ (by decide) (.fld .BOOT_STATUS_SESSION rfl (by decide))
  exact hx8
  refine Fr.have x12 ?_ (fun hx12 => ?_) <;> [unfold x12; skip]
  refine .ite ?_ ?_
  apply Fr.upd <;> first | show Fr _ _ _ | exact .inl rfl | exact .inr rfl | rfl
  exact hx9
  exact hx8
  refine Fr.have x14 ?_ (fun hx14 => ?_) <;> [unfold x14; skip]
  refine .wr ?_ (by decide) (.fld .MER_STATUS_PC_WAIT rfl (by decide))
  exact hx12
  refine Fr.have x16 ?_ (fun hx16 => ?_) <;> [unfold x16; skip]
  refine .ite ?_ ?_
  refine .ite ?_ ?_
  exact hx12
  refine .call (State.merWait_fr ..) ?_ (by decide)
  apply Fr.upd <;> first | show Fr _ _ _ | exact .inl rfl | exact .inr rfl | rfl
  exact hx12
  apply Fr.upd <;> first | show Fr _ _ _ | exact .inl rfl | exact .inr rfl | rfl
  exact hx14
  refine Fr.have x17 ?_ (fun hx17 => ?_) <;> [unfold x17; skip]
  refine .ite ?_ ?_
  refine .call (State.memWake_fr ..) ?_ (by decide)
  exact hx16
  exact hx16
  refine .call (State.settle_fr ..) ?_ (by decide)
  refine .call (State.sxtKeep_fr ..) ?_ (by decide)
  refine .call (State.waitDac_fr ..) ?_ (by decide)
  refine .call (State.showThrottle_fr ..) ?_ (by decide)
  exact hx17

theorem State.derateCheck_fr (s : State) :
    Fr 0x800000000000000000000001400000080000000000000001fe80000010000000000000000200010000000000120000000f00b03c11087b s (State.derateCheck s) := by
  unfold State.derateCheck
  refine .ite ?_ ?_
  refine .call (State.transition_fr ..) ?_ (by decide)
  refine .call (State.stopGivenUp_fr ..) ?_ (by decide)
  exact .refl ..
  refine .ite ?_ ?_
  refine .call (State.transition_fr ..) ?_ (by decide)
  exact .refl ..
  exact .refl ..

theorem State.raiseIf_fr (s : State) (b : Bool) (e : Nat) : Fr 0x2 s (State.raiseIf s b e) := by
  unfold State.raiseIf
  refine .ite ?_ ?_
  refine .call (State.raise_fr ..) ?_ (by decide)
  exact .refl ..
  exact .refl ..

theorem State.tilCause_fr (s : State) (n : Nat) (b : Nat) : Fr 0x20000000000000000000000000003 s (State.tilCause s n b) := by
  unfold State.tilCause
  lift_lets -underBinder
  intro x1
  refine .ite ?_ ?_
  exact .refl ..
  refine .call (State.raiseIf_fr ..) ?_ (by decide)
  refine .wr ?_ (by decide) (.arr .TIL_EVT_CAUSE_CAUSE rfl (by decide))
  exact .refl ..

theorem State.setTiller_fr (s : State) (n : Nat) (t : Tiller) : Fr 0x80 s (State.setTiller s n t) := by
  unfold State.setTiller
  apply Fr.upd <;> first | show Fr _ _ _ | exact .inl rfl | exact .inr rfl | rfl
  exact .refl ..

theorem State.onTiller_fr (s : State) (n : Nat) (f : Tiller → Tiller) : Fr 0x80 s (State.onTiller s n f) := by
  unfold State.onTiller
  refine .call (State.setTiller_fr ..) ?_ (by decide)
  exact .refl ..

theorem State.tilHalt_fr (s : State) (n : Nat) (cause : Nat) :
    Fr 0x800000000000000000000001400000080000000000000001fe80000010000000000000000200010002000000120000000f00b03c1108fb s (State.tilHalt s n cause) := by
  unfold State.tilHalt
  lift_lets -underBinder
  intro x1
  refine Fr.have x1 ?_ (fun hx1 => ?_) <;> [unfold x1; clear_value x1]
  refine .call (State.onTiller_fr ..) ?_ (by decide)
  exact .refl ..
  refine .ite ?_ ?_
  refine .call (State.derateCheck_fr ..) ?_ (by decide)
  refine .call (State.tilCause_fr ..) ?_ (by decide)
  exact hx1
  exact hx1

theorem State.stepDone_fr (s : State) (n : Nat) :
    Fr 0x800000000000000000000001400000080000000000000001fe80000010000000000000000200010002000000120000000f00b03c1108fb s (State.stepDone s n) := by
  unfold State.stepDone
  lift_lets -underBinder
  intro x1
  refine .ite ?_ ?_
  refine .call (State.tilHalt_fr ..) ?_ (by decide)
  exact .refl ..
  exact .refl ..

theorem State.tilCE_fr (s : State) (n : Nat) : Fr 0x820000000000000000000000000003 s (State.tilCE s n) := by
  unfold State.tilCE
  lift_lets -underBinder
  intro x1 x2 x3
  refine Fr.have x2 ?_ (fun hx2 => ?_) <;> [unfold x2; clear_value x2]
  refine .bump ?_ (by decide) (.arr .TIL_ECC_CE_CNT_COUNT rfl (by decide))
  exact .refl ..
  refine .ite ?_ ?_
  refine .call (State.tilCause_fr ..) ?_ (by decide)
  exact hx2
  exact hx2

theorem State.tilUE_fr (s : State) (n : Nat) : Fr 0x1000000000000000000000000000001 s (State.tilUE s n) := by
  unfold State.tilUE
  refine .bump ?_ (by decide) (.arr .TIL_ECC_UE_CNT_COUNT rfl (by decide))
  exact .refl ..

theorem State.imemUE_fr (s : State) (n : Nat) :
    Fr 0x800000000000000000000001400000080000000000000001fe80000010000000000000000200010102000000120000000f00b03c1108fb s (State.imemUE s n) := by
  unfold State.imemUE
  refine .call (State.tilHalt_fr ..) ?_ (by decide)
  refine .call (State.tilUE_fr ..) ?_ (by decide)
  refine .call (State.onTiller_fr ..) ?_ (by decide)
  exact .refl ..

theorem State.fetched_fr {w : Nat} {s0 : State} {s : State} {n : Nat} {f : State → State} (h : Fr w s0 s) (hf : ∀  y, Fr w y (f  y)) (hw : 0x800000000000000000000001400000080000000000000001fe80000010000000000000000200010182000000120000000f00b03c1108fb &&& w = 0x800000000000000000000001400000080000000000000001fe80000010000000000000000200010182000000120000000f00b03c1108fb) :
    Fr w s0 (State.fetched s n f) := by
  refine h.trans ?_
  unfold State.fetched
  lift_lets -underBinder
  intro x1 x2
  split
  refine Fr.trans ?_ (hf _)
  exact .refl ..
  refine Fr.trans ?_ (hf _)
  (with_reducible apply Fr.call (State.tilCE_fr ..)) <;> [skip; exact sub_trans (by decide) hw]
  (with_reducible apply Fr.call (State.setTiller_fr ..)) <;> [skip; exact sub_trans (by decide) hw]
  exact .refl ..
  (with_reducible apply Fr.call (State.imemUE_fr ..)) <;> [skip; exact sub_trans (by decide) hw]
  exact .refl ..
  (with_reducible apply Fr.call (State.tilHalt_fr ..)) <;> [skip; exact sub_trans (by decide) hw]
  (with_reducible apply Fr.call (State.setTiller_fr ..)) <;> [skip; exact sub_trans (by decide) hw]
  exact .refl ..

theorem State.countTil_fr (s : State) (n : Nat) (lo : Nat) (k : Nat) :
    Fr 0x10000000000000000000000000000000000000000000000000000000000000000000000000000000000000000000000000000000000000000200003 s (State.countTil s n lo k) := by
  unfold State.countTil
  refine .ite ?_ ?_
  with_reducible apply Fr.foldl
  exact .refl ..
  intro x1 x2
  refine .call (State.addCounter_fr ..) ?_ (by decide)
  exact .refl ..
  exact .refl ..

theorem State.trap_fr (s : State) (n : Nat) (cause : Nat) (addr : Option Nat) :
    Fr 0x100000000800000000000000000000001400000080000000000000001fe80000010000000000000000200010002000000120000000f00b03c3108fb s (State.trap s n cause addr) := by
  unfold State.trap
  lift_lets -underBinder
  intro x1 x2 x3
  refine Fr.have x2 ?_ (fun hx2 => ?_) <;> [unfold x2; clear_value x2]
  refine .call (State.setTiller_fr ..) ?_ (by decide)
  exact .refl ..
  refine Fr.have x3 ?_ (fun hx3 => ?_) <;> [unfold x3; clear_value x3]
  refine .call (State.countTil_fr ..) ?_ (by decide)
  refine .call (State.tilCause_fr ..) ?_ (by decide)
  exact hx2
  refine .ite ?_ ?_
  refine .call (State.tilHalt_fr ..) ?_ (by decide)
  exact hx3
  refine .ite ?_ ?_
  refine .call (State.tilHalt_fr ..) ?_ (by decide)
  exact hx3
  refine .call (State.onTiller_fr ..) ?_ (by decide)
  exact hx3

theorem State.issue_fr {w : Nat} {s0 : State} {s : State} {n : Nat} {f : State → State} (h : Fr w s0 s) (hf : ∀  y, Fr w y (f  y)) (hw : 0x100000000800000000000000000000001400000080000000000000001fe80000010000000000000000200010182000000120000000f00b03c3108fb &&& w = 0x100000000800000000000000000000001400000080000000000000001fe80000010000000000000000200010182000000120000000f00b03c3108fb) :
    Fr w s0 (State.issue s n f) := by
  refine h.trans ?_
  unfold State.issue
  lift_lets -underBinder
  intro x1 x2
  refine Fr.have x2 ?_ (fun hx2 => ?_) <;> [unfold x2; clear_value x2]
  (with_reducible apply Fr.call (State.setTiller_fr ..)) <;> [skip; exact sub_trans (by decide) hw]
  exact .refl ..
  refine .ite ?_ ?_
  exact .refl ..
  refine .ite ?_ ?_
  (with_reducible apply Fr.call (State.tilHalt_fr ..)) <;> [skip; exact sub_trans (by decide) hw]
  exact .refl ..
  (with_reducible apply Fr.call (State.stepDone_fr ..)) <;> [skip; exact sub_trans (by decide) hw]
  refine .ite ?_ ?_
  (with_reducible apply Fr.call (State.trap_fr ..)) <;> [skip; exact sub_trans (by decide) hw]
  exact hx2
  (with_reducible apply State.fetched_fr) <;> [skip; skip; exact sub_trans (by decide) hw]
  exact hx2
  intro x3
  refine Fr.trans ?_ (hf _)
  exact .refl ..

theorem State.retireTo_fr (s : State) (n : Nat) (pc : Nat) (f : Tiller → Tiller) :
    Fr 0x10000000000000000000000000000000000000000000000000000000000000000000000000000000000000000000000000000000000000000200083 s (State.retireTo s n pc f) := by
  unfold State.retireTo
  refine .call (State.countTil_fr ..) ?_ (by decide)
  refine .call (State.onTiller_fr ..) ?_ (by decide)
  exact .refl ..

theorem State.jump_fr (s : State) (n : Nat) (target : Int) (f : Tiller → Tiller) :
    Fr 0x100000000800000000000000000000001400000080000000000000001fe80000010000000000000000200010002000000120000000f00b03c3108fb s (State.jump s n target f) := by
  unfold State.jump
  lift_lets -underBinder
  intro x1
  refine .ite ?_ ?_
  refine .call (State.trap_fr ..) ?_ (by decide)
  exact .refl ..
  refine .ite ?_ ?_
  refine .call (State.trap_fr ..) ?_ (by decide)
  exact .refl ..
  refine .call (State.retireTo_fr ..) ?_ (by decide)
  exact .refl ..

theorem opJal_fr (n : Nat) (rd : Nat) (off : Nat) (s : State) :
    Fr 0x100000000800000000000000000000001400000080000000000000001fe80000010000000000000000200010002000000120000000f00b03c3108fb s (opJal n rd off s) := by
  unfold opJal
  lift_lets -underBinder
  intro x1
  refine .call (State.jump_fr ..) ?_ (by decide)
  exact .refl ..

theorem State.retire_fr (s : State) (n : Nat) (f : Tiller → Tiller) :
    Fr 0x10000000000000000000000000000000000000000000000000000000000000000000000000000000000000000000000000000000000000000200083 s (State.retire s n f) := by
  unfold State.retire
  refine .call (State.countTil_fr ..) ?_ (by decide)
  refine .call (State.onTiller_fr ..) ?_ (by decide)
  exact .refl ..

theorem State.stallOn_fr (s : State) (n : Nat) (x : Stall) : Fr 0x80 s (State.stallOn s n x) := by
  unfold State.stallOn
  refine .call (State.onTiller_fr ..) ?_ (by decide)
  exact .refl ..

theorem opFrecvW_fr (n : Nat) (rd : Nat) (s : State) :
    Fr 0x10000000000000000000000000000000000000000000000000000000000000000000000000000000000000000000000000000000000000000200083 s (opFrecvW n rd s) := by
  unfold opFrecvW
  split
  refine .call (State.countTil_fr ..) ?_ (by decide)
  refine .call (State.stallOn_fr ..) ?_ (by decide)
  exact .refl ..
  refine .call (State.retire_fr ..) ?_ (by decide)
  exact .refl ..

theorem opSw_fr (n : Nat) (rs : Nat) (ra : Nat) (imm : Nat) (s : State) :
    Fr 0x100000000800000000000000000000001400000080000000000000001fe80000010000000000000000200010002000000120000000f00b03c3108fb s (opSw n rs ra imm s) := by
  unfold opSw
  lift_lets -underBinder
  intro x1 x2
  split
  refine .ite ?_ ?_
  refine .call (State.trap_fr ..) ?_ (by decide)
  exact .refl ..
  refine .call (State.retire_fr ..) ?_ (by decide)
  exact .refl ..
  refine .ite ?_ ?_
  refine .ite ?_ ?_
  refine .call (State.trap_fr ..) ?_ (by decide)
  exact .refl ..
  refine .call (State.retire_fr ..) ?_ (by decide)
  exact .refl ..
  refine .call (State.trap_fr ..) ?_ (by decide)
  exact .refl ..
  refine .call (State.trap_fr ..) ?_ (by decide)
  exact .refl ..

theorem opTrap_fr (n : Nat) (s : State) :
    Fr 0x100000000800000000000000000000001400000080000000000000001fe80000010000000000000000200010002000000120000000f00b03c3108fb s (opTrap n s) := by
  unfold opTrap
  refine .call (State.trap_fr ..) ?_ (by decide)
  exact .refl ..

theorem State.setBank_fr (s : State) (b : Nat) (k : Bank) : Fr 0x40 s (State.setBank s b k) := by
  unfold State.setBank
  refine .ite ?_ ?_
  apply Fr.upd <;> first | show Fr _ _ _ | exact .inl rfl | exact .inr rfl | rfl
  exact .refl ..
  apply Fr.upd <;> first | show Fr _ _ _ | exact .inl rfl | exact .inr rfl | rfl
  exact .refl ..

theorem State.setHead_fr (s : State) (b : Nat) (key : Nat) (x : Cond) : Fr 0x40 s (State.setHead s b key x) := by
  unfold State.setHead
  lift_lets -underBinder
  intro x1
  refine .call (State.setBank_fr ..) ?_ (by decide)
  exact .refl ..

theorem State.cleanView_fr (s : State) (f : Nat) (own : Option Nat) (o : Nat) (i : Nat) : Fr 0x40 s (State.cleanView s f own o i) := by
  unfold State.cleanView
  refine .ite ?_ ?_
  apply Fr.upd <;> first | show Fr _ _ _ | exact .inl rfl | exact .inr rfl | rfl
  exact .refl ..
  refine .ite ?_ ?_
  apply Fr.upd <;> first | show Fr _ _ _ | exact .inl rfl | exact .inr rfl | rfl
  exact .refl ..
  split
  refine .ite ?_ ?_
  refine .call (State.setHead_fr ..) ?_ (by decide)
  exact .refl ..
  lift_lets -underBinder
  intro x1
  refine .call (State.setBank_fr ..) ?_ (by decide)
  exact .refl ..
  exact .refl ..

theorem State.flagLane_fr (s : State) (b : Nat) (c : Nat) (bit : Nat) : Fr 0x40 s (State.flagLane s b c bit) := by
  unfold State.flagLane
  lift_lets -underBinder
  intro x1 x2
  refine .call (State.setBank_fr ..) ?_ (by decide)
  exact .refl ..

theorem State.hisUE_fr (s : State) (b : Nat) (c : Nat) : Fr 0x200000000000000000000000043 s (State.hisUE s b c) := by
  unfold State.hisUE
  lift_lets -underBinder
  intro x1 x2
  refine Fr.have x1 ?_ (fun hx1 => ?_) <;> [unfold x1; clear_value x1]
  refine .call (State.flagLane_fr ..) ?_ (by decide)
  refine .bump ?_ (by decide) (.fld .HIS_ECC_UE_CNT_COUNT rfl (by decide))
  exact .refl ..
  refine .ite ?_ ?_
  exact hx1
  refine .call (State.raise_fr ..) ?_ (by decide)
  apply Fr.upd <;> first | show Fr _ _ _ | exact .inl rfl | exact .inr rfl | rfl
  exact hx1

theorem State.hisCE_fr (s : State) : Fr 0x100000000000000000000000043 s (State.hisCE s) := by
  unfold State.hisCE
  lift_lets -underBinder
  intro x1 x2
  refine Fr.have x1 ?_ (fun hx1 => ?_) <;> [unfold x1; clear_value x1]
  refine .bump ?_ (by decide) (.fld .HIS_ECC_CE_CNT_COUNT rfl (by decide))
  exact .refl ..
  refine .ite ?_ ?_
  refine .call (State.raise_fr ..) ?_ (by decide)
  apply Fr.upd <;> first | show Fr _ _ _ | exact .inl rfl | exact .inr rfl | rfl
  exact hx1
  exact hx1

theorem State.readView_fr (s : State) (f : Nat) (own : Option Nat) (o : Nat) :
    Fr 0x300000000000000000000000043 s (State.readView s f own o).2.2 := by
  unfold State.readView
  lift_lets -underBinder
  intro x1
  dsimp +zetaDelta -zeta only
  with_reducible apply Fr.foldl
  exact .refl ..
  intro x2 x3
  split
  refine .call (State.hisCE_fr ..) ?_ (by decide)
  refine .call (State.cleanView_fr ..) ?_ (by decide)
  exact .refl ..
  refine .call (State.hisUE_fr ..) ?_ (by decide)
  exact .refl ..
  exact .refl ..

theorem State.readDmem_fr (s : State) (n : Nat) (i : Nat) : Fr 0x1820000000000000000000000000083 s (State.readDmem s n i).2.2 := by
  unfold State.readDmem
  lift_lets -underBinder
  intro x1
  split
  dsimp +zetaDelta -zeta only
  exact .refl ..
  dsimp +zetaDelta -zeta only
  refine .call (State.tilCE_fr ..) ?_ (by decide)
  refine .call (State.setTiller_fr ..) ?_ (by decide)
  exact .refl ..
  dsimp +zetaDelta -zeta only
  refine .call (State.tilCause_fr ..) ?_ (by decide)
  refine .call (State.tilUE_fr ..) ?_ (by decide)
  exact .refl ..
  dsimp +zetaDelta -zeta only
  exact .refl ..

theorem State.readWord_fr (s : State) (n : Nat) (a : Nat) : Fr 0x18203000000000000000000000000c3 s (State.readWord s n a).2.2 := by
  unfold State.readWord
  split
  refine .call (State.readDmem_fr ..) ?_ (by decide)
  exact .refl ..
  refine .call (State.readView_fr ..) ?_ (by decide)
  exact .refl ..
  dsimp +zetaDelta -zeta only
  exact .refl ..

theorem State.readWords_fr (s : State) (n : Nat) (a : Nat) (k3 : Nat) :
    Fr 0x18203000000000000000000000000c3 s (State.readWords s n a k3).2 := by
  induction k3 generalizing s a with
  | zero => exact Fr.refl _ _
  | succ k ih =>
    unfold State.readWords
    split
    split
    dsimp +zetaDelta -zeta only
    with_reducible refine Fr.pair (by assumption) ?_
    refine .call (ih ..) ?_ (by decide)
    with_reducible refine Fr.pair3 (by assumption) ?_
    refine .call (State.readWord_fr ..) ?_ (by decide)
    exact .refl ..

theorem State.deliver_fr (s : State) (n : Nat) (a : Nat) (ws : List (Word × Cond)) (put : List Word → Tiller → Tiller) :
    Fr 0x100000000800000000000000000000001400000080000000000000001fe80000010000000000000000200010002000000120000000f00b03c3108fb s (State.deliver s n a ws put) := by
  unfold State.deliver
  refine .ite ?_ ?_
  refine .ite ?_ ?_
  refine .call (State.retire_fr ..) ?_ (by decide)
  exact .refl ..
  refine .call (State.trap_fr ..) ?_ (by decide)
  exact .refl ..
  refine .call (State.retire_fr ..) ?_ (by decide)
  exact .refl ..

theorem opVbwl_fr (n : Nat) (vd : Nat) (ra : Nat) (rb : Nat) (s : State) :
    Fr 0x100000000800000000000000000000001400000080000000000000001fe80000010000000000000000200010182030000120000000f00b03c3108fb s (opVbwl n vd ra rb s) := by
  unfold opVbwl
  lift_lets -underBinder
  intro x1 x2 x3 x4 x5 x6 x7 x8
  refine .ite ?_ ?_
  refine .call (State.trap_fr ..) ?_ (by decide)
  exact .refl ..
  split
  refine .call (State.trap_fr ..) ?_ (by decide)
  exact .refl ..
  refine .ite ?_ ?_
  refine .call (State.trap_fr ..) ?_ (by decide)
  exact .refl ..
  split
  lift_lets -underBinder
  intro x9 x10 x11 x12 x13
  split
  refine .call (State.retire_fr ..) ?_ (by decide)
  with_reducible refine Fr.pair (by assumption) ?_
  with_reducible apply Fr.foldl2
  dsimp +zetaDelta -zeta only
  exact .refl ..
  intro x14 x15
  split
  dsimp +zetaDelta -zeta only
  with_reducible refine Fr.pair (by assumption) ?_
  refine .call (State.readWords_fr ..) ?_ (by decide)
  exact .refl ..
  refine .call (State.deliver_fr ..) ?_ (by decide)
  with_reducible refine Fr.pair (by assumption) ?_
  with_reducible apply Fr.foldl2
  dsimp +zetaDelta -zeta only
  exact .refl ..
  intro x16 x17
  split
  dsimp +zetaDelta -zeta only
  with_reducible refine Fr.pair (by assumption) ?_
  refine .call (State.readWords_fr ..) ?_ (by decide)
  exact .refl ..
  refine .call (State.deliver_fr ..) ?_ (by decide)
  with_reducible refine Fr.pair (by assumption) ?_
  with_reducible apply Fr.foldl2
  dsimp +zetaDelta -zeta only
  exact .refl ..
  intro x18 x19
  split
  dsimp +zetaDelta -zeta only
  with_reducible refine Fr.pair (by assumption) ?_
  refine .call (State.readWords_fr ..) ?_ (by decide)
  exact .refl ..

theorem opVst_fr (n : Nat) (vs : Nat) (ra : Nat) (imm : Nat) (s : State) :
    Fr 0x100000000800000000000000000000001400000080000000000000001fe80000010000000000000000200010002000000120000000f00b03c3108fb s (opVst n vs ra imm s) := by
  unfold opVst
  lift_lets -underBinder
  intro x1
  split
  refine .ite ?_ ?_
  refine .call (State.trap_fr ..) ?_ (by decide)
  exact .refl ..
  refine .call (State.retire_fr ..) ?_ (by decide)
  exact .refl ..
  refine .call (State.trap_fr ..) ?_ (by decide)
  exact .refl ..

theorem opBc_fr (n : Nat) (cond : Nat) (off : Nat) (s : State) :
    Fr 0x100000000800000000000000000000001400000080000000000000001fe80000010000000000000000200010002000000120000000f00b03c3108fb s (opBc n cond off s) := by
  unfold opBc
  lift_lets -underBinder
  intro x1
  refine .ite ?_ ?_
  refine .call (State.jump_fr ..) ?_ (by decide)
  exact .refl ..
  refine .call (State.retire_fr ..) ?_ (by decide)
  exact .refl ..

theorem State.drawFree_fr (s : State) (w : Nat) : Fr 0x4 s (State.drawFree s w).2 := by
  unfold State.drawFree
  dsimp +zetaDelta -zeta only
  apply Fr.upd <;> first | show Fr _ _ _ | exact .inl rfl | exact .inr rfl | rfl
  exact .refl ..

theorem State.countdown_fr (s : State) (t : Nat) (u : Nat) : Fr 0x4 s (State.countdown s t u).2 := by
  unfold State.countdown
  split
  dsimp +zetaDelta -zeta only
  with_reducible refine Fr.pair (by assumption) ?_
  refine .call (State.drawFree_fr ..) ?_ (by decide)
  exact .refl ..

theorem State.localReg_fr (s : State) (n : Nat) (a : Nat) (t : Nat) : Fr 0x84 s (State.localReg s n a t).2 := by
  unfold State.localReg
  lift_lets -underBinder
  intro x1 x2 x3
  with_reducible apply Fr.ite2
  unfold x3
  dsimp +zetaDelta -zeta only
  exact .refl ..
  with_reducible apply Fr.ite2
  split
  unfold x3
  dsimp +zetaDelta -zeta only
  exact .refl ..
  unfold x3
  dsimp +zetaDelta -zeta only
  exact .refl ..
  with_reducible apply Fr.ite2
  with_reducible apply Fr.ite2
  split
  dsimp +zetaDelta -zeta only
  with_reducible refine Fr.pair (by assumption) ?_
  refine .call (State.countdown_fr ..) ?_ (by decide)
  exact .refl ..
  unfold x3
  dsimp +zetaDelta -zeta only
  exact .refl ..
  with_reducible apply Fr.ite2
  with_reducible apply Fr.ite2
  split
  dsimp +zetaDelta -zeta only
  with_reducible refine Fr.pair (by assumption) ?_
  refine .call (State.countdown_fr ..) ?_ (by decide)
  exact .refl ..
  unfold x3
  dsimp +zetaDelta -zeta only
  exact .refl ..
  with_reducible apply Fr.ite2
  dsimp +zetaDelta -zeta only
  refine .call (State.setTiller_fr ..) ?_ (by decide)
  exact .refl ..
  with_reducible apply Fr.ite2
  unfold x3
  dsimp +zetaDelta -zeta only
  exact .refl ..
  with_reducible apply Fr.ite2
  unfold x3
  dsimp +zetaDelta -zeta only
  exact .refl ..
  with_reducible apply Fr.ite2
  unfold x3
  dsimp +zetaDelta -zeta only
  exact .refl ..
  with_reducible apply Fr.ite2
  unfold x3
  dsimp +zetaDelta -zeta only
  exact .refl ..
  with_reducible apply Fr.ite2
  unfold x3
  dsimp +zetaDelta -zeta only
  exact .refl ..
  with_reducible apply Fr.ite2
  unfold x3
  dsimp +zetaDelta -zeta only
  exact .refl ..
  with_reducible apply Fr.ite2
  unfold x3
  dsimp +zetaDelta -zeta only
  exact .refl ..
  with_reducible apply Fr.ite2
  unfold x3
  dsimp +zetaDelta -zeta only
  exact .refl ..
  unfold x3
  dsimp +zetaDelta -zeta only
  exact .refl ..

theorem opLw_fr (n : Nat) (rd : Nat) (ra : Nat) (imm : Nat) (t : Nat) (s : State) :
    Fr 0x100000000800000000000000000000001400000080000000000000001fe80000010000000000000000200010182030000120000000f00b03c3108ff s (opLw n rd ra imm t s) := by
  unfold opLw
  lift_lets -underBinder
  intro x1
  split
  refine .call (State.trap_fr ..) ?_ (by decide)
  exact .refl ..
  refine .ite ?_ ?_
  refine .call (State.trap_fr ..) ?_ (by decide)
  exact .refl ..
  split
  refine .call (State.retire_fr ..) ?_ (by decide)
  with_reducible refine Fr.pair (by assumption) ?_
  refine .call (State.localReg_fr ..) ?_ (by decide)
  exact .refl ..
  refine .ite ?_ ?_
  refine .call (State.trap_fr ..) ?_ (by decide)
  exact .refl ..
  split
  refine .call (State.deliver_fr ..) ?_ (by decide)
  with_reducible refine Fr.pair (by assumption) ?_
  refine .call (State.readWords_fr ..) ?_ (by decide)
  exact .refl ..

theorem opFsend_fr (n : Nat) (ra : Nat) (s : State) :
    Fr 0x10000000000000000000000000000000000000000000000000000000000000000000000000000000000000000000000000000000000000000200083 s (opFsend n ra s) := by
  unfold opFsend
  lift_lets -underBinder
  intro x1
  refine .ite ?_ ?_
  refine .call (State.retire_fr ..) ?_ (by decide)
  exact .refl ..
  refine .call (State.countTil_fr ..) ?_ (by decide)
  refine .call (State.stallOn_fr ..) ?_ (by decide)
  exact .refl ..

theorem opAret_fr (n : Nat) (s : State) :
    Fr 0x100000000800000000000000000000001400000080000000000000001fe80000010000000000000000200010002000000120000000f00b03c3108fb s (opAret n s) := by
  unfold opAret
  lift_lets -underBinder
  intro x1
  refine .ite ?_ ?_
  refine .call (State.trap_fr ..) ?_ (by decide)
  exact .refl ..
  refine .call (State.retireTo_fr ..) ?_ (by decide)
  exact .refl ..

theorem opFrecvN_fr (n : Nat) (rd : Nat) (s : State) :
    Fr 0x10000000000000000000000000000000000000000000000000000000000000000000000000000000000000000000000000000000000000000200083 s (opFrecvN n rd s) := by
  unfold opFrecvN
  refine .call (State.retire_fr ..) ?_ (by decide)
  exact .refl ..

theorem State.headRead_fr (s : State) (n : Nat) (a : Nat) : Fr 0x820000000000000000000000000083 s (State.headRead s n a) := by
  unfold State.headRead
  lift_lets -underBinder
  intro x1
  refine .ite ?_ ?_
  refine .call (State.tilCE_fr ..) ?_ (by decide)
  refine .call (State.onTiller_fr ..) ?_ (by decide)
  exact .refl ..
  exact .refl ..

theorem opEmit_fr (n : Nat) (rd : Nat) (ra : Nat) (rb : Nat) (s : State) :
    Fr 0x100000000800000000000000000000001400000080000000000000001fe80000010000000000000000200010092000000120000000f00b03c3108fb s (opEmit n rd ra rb s) := by
  unfold opEmit
  lift_lets -underBinder
  intro x1 x2 x3 x4 x5 x6
  refine Fr.have x4 ?_ (fun hx4 => ?_) <;> [unfold x4; clear_value x4]
  refine .call (State.headRead_fr ..) ?_ (by decide)
  exact .refl ..
  refine .ite ?_ ?_
  refine .call (State.trap_fr ..) ?_ (by decide)
  exact .refl ..
  refine .ite ?_ ?_
  refine .call (State.trap_fr ..) ?_ (by decide)
  exact hx4
  refine .ite ?_ ?_
  refine .call (State.retire_fr ..) ?_ (by decide)
  refine .call (State.tilCause_fr ..) ?_ (by decide)
  refine .bump ?_ (by decide) (.arr .TIL_CNT_STALE_EMIT_COUNT rfl (by decide))
  exact hx4
  refine .call (State.countTil_fr ..) ?_ (by decide)
  refine .call (State.stallOn_fr ..) ?_ (by decide)
  exact hx4

theorem opVld_fr (n : Nat) (vd : Nat) (ra : Nat) (imm : Nat) (s : State) :
    Fr 0x100000000800000000000000000000001400000080000000000000001fe80000010000000000000000200010182030000120000000f00b03c3108fb s (opVld n vd ra imm s) := by
  unfold opVld
  lift_lets -underBinder
  intro x1
  split
  refine .ite ?_ ?_
  refine .call (State.trap_fr ..) ?_ (by decide)
  exact .refl ..
  split
  refine .call (State.deliver_fr ..) ?_ (by decide)
  with_reducible refine Fr.pair (by assumption) ?_
  refine .call (State.readWords_fr ..) ?_ (by decide)
  exact .refl ..
  refine .ite ?_ ?_
  refine .call (State.trap_fr ..) ?_ (by decide)
  exact .refl ..
  split
  refine .call (State.deliver_fr ..) ?_ (by decide)
  with_reducible refine Fr.pair (by assumption) ?_
  refine .call (State.readWords_fr ..) ?_ (by decide)
  exact .refl ..
  refine .call (State.trap_fr ..) ?_ (by decide)
  exact .refl ..

theorem opJalr_fr (n : Nat) (rd : Nat) (ra : Nat) (imm : Nat) (s : State) :
    Fr 0x100000000800000000000000000000001400000080000000000000001fe80000010000000000000000200010002000000120000000f00b03c3108fb s (opJalr n rd ra imm s) := by
  unfold opJalr
  lift_lets -underBinder
  intro x1
  refine .call (State.jump_fr ..) ?_ (by decide)
  exact .refl ..

theorem opTret_fr (n : Nat) (s : State) :
    Fr 0x100000000800000000000000000000001400000080000000000000001fe80000010000000000000000200010002000000120000000f00b03c3108fb s (opTret n s) := by
  unfold opTret
  lift_lets -underBinder
  intro x1
  refine .ite ?_ ?_
  refine .call (State.trap_fr ..) ?_ (by decide)
  exact .refl ..
  refine .call (State.retireTo_fr ..) ?_ (by decide)
  exact .refl ..

theorem runOp_fr (n : Nat) (t : Nat) (k : KOp) (s : State) :
    Fr 0x100000000800000000000000000000001400000080000000000000001fe80000010000000000000000200010192030000120000000f00b03c3108ff s (runOp n t k s) := by
  unfold runOp
  split
  refine .call (State.retire_fr ..) ?_ (by decide)
  exact .refl ..
  refine .call (State.retire_fr ..) ?_ (by decide)
  exact .refl ..
  refine .call (State.retire_fr ..) ?_ (by decide)
  exact .refl ..
  refine .call (State.retire_fr ..) ?_ (by decide)
  exact .refl ..
  refine .call (State.retire_fr ..) ?_ (by decide)
  exact .refl ..
  refine .call (State.retire_fr ..) ?_ (by decide)
  exact .refl ..
  refine .call (State.retire_fr ..) ?_ (by decide)
  exact .refl ..
  refine .call (State.retire_fr ..) ?_ (by decide)
  exact .refl ..
  refine .call (State.retire_fr ..) ?_ (by decide)
  exact .refl ..
  refine .call (State.retire_fr ..) ?_ (by decide)
  exact .refl ..
  refine .call (State.retire_fr ..) ?_ (by decide)
  exact .refl ..
  refine .call (State.retire_fr ..) ?_ (by decide)
  exact .refl ..
  refine .call (State.retire_fr ..) ?_ (by decide)
  exact .refl ..
  refine .call (State.retire_fr ..) ?_ (by decide)
  exact .refl ..
  refine .call (State.retire_fr ..) ?_ (by decide)
  exact .refl ..
  refine .call (State.retire_fr ..) ?_ (by decide)
  exact .refl ..
  refine .call (opLw_fr ..) ?_ (by decide)
  exact .refl ..
  refine .call (opSw_fr ..) ?_ (by decide)
  exact .refl ..
  refine .call (opVld_fr ..) ?_ (by decide)
  exact .refl ..
  refine .call (opVst_fr ..) ?_ (by decide)
  exact .refl ..
  refine .call (opVbwl_fr ..) ?_ (by decide)
  exact .refl ..
  refine .call (opBc_fr ..) ?_ (by decide)
  exact .refl ..
  refine .call (opJal_fr ..) ?_ (by decide)
  exact .refl ..
  refine .call (opJalr_fr ..) ?_ (by decide)
  exact .refl ..
  refine .call (State.retire_fr ..) ?_ (by decide)
  exact .refl ..
  refine .call (State.retire_fr ..) ?_ (by decide)
  exact .refl ..
  refine .call (State.retire_fr ..) ?_ (by decide)
  exact .refl ..
  refine .call (State.retire_fr ..) ?_ (by decide)
  exact .refl ..
  refine .call (State.retire_fr ..) ?_ (by decide)
  exact .refl ..
  refine .call (State.retire_fr ..) ?_ (by decide)
  exact .refl ..
  refine .call (State.retire_fr ..) ?_ (by decide)
  exact .refl ..
  refine .call (State.retire_fr ..) ?_ (by decide)
  exact .refl ..
  refine .call (State.retire_fr ..) ?_ (by decide)
  exact .refl ..
  refine .call (State.retire_fr ..) ?_ (by decide)
  exact .refl ..
  refine .call (State.retire_fr ..) ?_ (by decide)
  exact .refl ..
  refine .call (State.retire_fr ..) ?_ (by decide)
  exact .refl ..
  refine .call (State.retire_fr ..) ?_ (by decide)
  exact .refl ..
  refine .call (State.countTil_fr ..) ?_ (by decide)
  refine .call (State.retire_fr ..) ?_ (by decide)
  exact .refl ..
  refine .call (State.countTil_fr ..) ?_ (by decide)
  refine .call (State.retire_fr ..) ?_ (by decide)
  exact .refl ..
  refine .call (State.countTil_fr ..) ?_ (by decide)
  refine .call (State.retire_fr ..) ?_ (by decide)
  exact .refl ..
  refine .call (State.countTil_fr ..) ?_ (by decide)
  refine .call (State.retire_fr ..) ?_ (by decide)
  exact .refl ..
  refine .call (opFsend_fr ..) ?_ (by decide)
  exact .refl ..
  refine .call (opFrecvN_fr ..) ?_ (by decide)
  exact .refl ..
  refine .call (opFrecvW_fr ..) ?_ (by decide)
  exact .refl ..
  refine .call (opEmit_fr ..) ?_ (by decide)
  exact .refl ..
  refine .call (State.retire_fr ..) ?_ (by decide)
  exact .refl ..
  refine .call (opTrap_fr ..) ?_ (by decide)
  exact .refl ..
  refine .call (opTret_fr ..) ?_ (by decide)
  exact .refl ..
  refine .call (opAret_fr ..) ?_ (by decide)
  exact .refl ..
  refine .call (State.retire_fr ..) ?_ (by decide)
  exact .refl ..
  refine .call (State.retire_fr ..) ?_ (by decide)
  exact .refl ..
  refine .call (State.retire_fr ..) ?_ (by decide)
  exact .refl ..

theorem State.runRow_fr (s : State) (n : Nat) (t : Nat) (k : KOp) :
    Runs 0x100000000800000000000000000000001400000080000000000000001fe80000010000000000000000200010192030000120000000f00b03c3108ff s (State.runRow s n t k) := by
  unfold State.runRow
  refine .next ?_
  (with_reducible apply State.issue_fr) <;> [skip; skip; decide]
  exact .refl ..
  intro x1
  refine .ite ?_ ?_
  refine .call (runOp_fr ..) ?_ (by decide)
  exact .refl ..
  refine .call (State.trap_fr ..) ?_ (by decide)
  exact .refl ..

theorem execAret_fr (n : Fin 192) (s : State) :
    Runs 0x100000000800000000000000000000001400000080000000000000001fe80000010000000000000000200010192030000120000000f00b03c3108ff s (execAret n s) := by
  unfold execAret
  exact (State.runRow_fr ..).mono (by decide)

theorem execVpidx_fr (n : Fin 192) (rd : Fin 32) (va : Fin 32) (rb : Fin 32) (s : State) :
    Runs 0x100000000800000000000000000000001400000080000000000000001fe80000010000000000000000200010192030000120000000f00b03c3108ff s (execVpidx n rd va rb s) := by
  unfold execVpidx
  exact (State.runRow_fr ..).mono (by decide)

theorem State.lateServed_fr (s : State) (p : Nat) (n : Nat) :
    Fr 0x800000000000000000000000000000000000000000000000000000000000000000000000000000000000401 s (State.lateServed s p n) := by
  unfold State.lateServed
  lift_lets -underBinder
  intro x1 x2
  refine .ite ?_ ?_
  exact .refl ..
  refine .put ?_ (by decide) (.arr .MEM_PORT_STATUS_URGENT rfl (by decide))
  apply Fr.upd <;> first | show Fr _ _ _ | exact .inl rfl | exact .inr rfl | rfl
  exact .refl ..

theorem State.takeTurn_fr (s : State) (ch : Nat) (p : Nat) : Fr 0x400 s (State.takeTurn s ch p) := by
  unfold State.takeTurn
  lift_lets -underBinder
  intro x1 x2
  apply Fr.upd <;> first | show Fr _ _ _ | exact .inl rfl | exact .inr rfl | rfl
  exact .refl ..

theorem State.activate_fr (s : State) (ch : Nat) (bank : Nat) : Fr 0x400 s (State.activate s ch bank) := by
  unfold State.activate
  lift_lets -underBinder
  intro x1 x2 x3 x4
  refine .ite ?_ ?_
  apply Fr.upd <;> first | show Fr _ _ _ | exact .inl rfl | exact .inr rfl | rfl
  exact .refl ..
  apply Fr.upd <;> first | show Fr _ _ _ | exact .inl rfl | exact .inr rfl | rfl
  exact .refl ..

theorem State.countBursts_fr (s : State) (p : Nat) (a : Nat) (lo : Nat) :
    Fr 0x10000000000000000000000000000002800000000000000000000000000000000000000000000000000000000000000000000000000000000200403 s (State.countBursts s p a lo) := by
  unfold State.countBursts
  split
  lift_lets -underBinder
  intro x1 x2 x3
  refine Fr.have x1 ?_ (fun hx1 => ?_) <;> [unfold x1; clear_value x1]
  refine .call (State.count_fr ..) ?_ (by decide)
  refine .bump ?_ (by decide) (.arr .MEM_PORT_CNT_BURSTS rfl (by decide))
  exact .refl ..
  refine Fr.have x2 ?_ (fun hx2 => ?_) <;> [unfold x2; clear_value x2]
  refine .ite ?_ ?_
  exact hx1
  refine .call (State.activate_fr ..) ?_ (by decide)
  refine .call (State.count_fr ..) ?_ (by decide)
  exact hx1
  refine .call (State.lateServed_fr ..) ?_ (by decide)
  refine .call (State.takeTurn_fr ..) ?_ (by decide)
  apply Fr.upd <;> first | show Fr _ _ _ | exact .inl rfl | exact .inr rfl | rfl
  exact hx2

theorem State.memUE_fr (s : State) (a : Nat) :
    Fr 0x1c0000000000000000000000000000000000000000000000000000000000000000000000000000000000000003 s (State.memUE s a) := by
  unfold State.memUE
  refine .call (State.raise_fr ..) ?_ (by decide)
  refine .wr ?_ (by decide) (.fld .MEM_ECC_ADDR_HI_ADDR rfl (by decide))
  refine .wr ?_ (by decide) (.fld .MEM_ECC_ADDR_LO_ADDR rfl (by decide))
  refine .bump ?_ (by decide) (.fld .MEM_ECC_UE_CNT_COUNT rfl (by decide))
  exact .refl ..

theorem State.portUE_fr (s : State) (p : Nat) (a : Nat) :
    Fr 0x1c0000000000000000000000000000000000000000000000000000000000000000000000000000000000000003 s (State.portUE s p a) := by
  unfold State.portUE
  refine .call (State.raiseIf_fr ..) ?_ (by decide)
  refine .call (State.memUE_fr ..) ?_ (by decide)
  exact .refl ..

theorem State.memCE_fr (s : State) :
    Fr 0x20000000000000000000000000000000000000000000000000000000000000000000000000000000000000403 s (State.memCE s) := by
  unfold State.memCE
  lift_lets -underBinder
  intro x1 x2
  refine Fr.have x1 ?_ (fun hx1 => ?_) <;> [unfold x1; clear_value x1]
  refine .bump ?_ (by decide) (.fld .MEM_ECC_CE_CNT_COUNT rfl (by decide))
  exact .refl ..
  refine .ite ?_ ?_
  refine .call (State.raise_fr ..) ?_ (by decide)
  apply Fr.upd <;> first | show Fr _ _ _ | exact .inl rfl | exact .inr rfl | rfl
  exact hx1
  exact hx1

theorem State.checkWords_fr (s : State) (p : Nat) (i : Nat) (n : Nat) :
    Fr 0x1e0000000000000000000000000000000000000000000000000000000000000000000000000000000000000403 s (State.checkWords s p i n).2 := by
  unfold State.checkWords
  with_reducible apply Fr.foldl2
  dsimp +zetaDelta -zeta only
  exact .refl ..
  intro x1 x2
  split
  exact .refl ..
  dsimp +zetaDelta -zeta only
  refine .call (State.memCE_fr ..) ?_ (by decide)
  lift_lets -underBinder
  intro x3 x4
  refine Fr.have x3 ?_ (fun hx3 => ?_) <;> [unfold x3; skip]
  exact .refl ..
  apply Fr.upd <;> first | show Fr _ _ _ | exact .inl rfl | exact .inr rfl | rfl
  exact hx3
  dsimp +zetaDelta -zeta only
  refine .call (State.portUE_fr ..) ?_ (by decide)
  exact .refl ..
  dsimp +zetaDelta -zeta only
  exact .refl ..

theorem State.linkCheck_fr (s : State) (p : Nat) (a : Nat) :
    Fr 0x3e0000000000000000000000000000000000000000000000000000000000000000000000000000000000000403 s (State.linkCheck s p a).2 := by
  unfold State.linkCheck
  with_reducible apply Fr.ite2
  dsimp +zetaDelta -zeta only
  exact .refl ..
  lift_lets -underBinder
  intro x1 x2 x3 x4 x5
  refine Fr.have x3 ?_ (fun hx3 => ?_) <;> [unfold x3; clear_value x3]
  apply Fr.upd <;> first | show Fr _ _ _ | exact .inl rfl | exact .inr rfl | rfl
  exact .refl ..
  refine Fr.have x4 ?_ (fun hx4 => ?_) <;> [unfold x4; clear_value x4]
  refine .ite ?_ ?_
  refine .call (State.memCE_fr ..) ?_ (by decide)
  exact hx3
  exact hx3
  refine Fr.have x5 ?_ (fun hx5 => ?_) <;> [unfold x5; clear_value x5]
  refine .ite ?_ ?_
  refine .bump ?_ (by decide) (.fld .MEM_CNT_LINK_RETRY_COUNT rfl (by decide))
  exact hx4
  exact hx4
  with_reducible apply Fr.ite2
  dsimp +zetaDelta -zeta only
  refine .call (State.portUE_fr ..) ?_ (by decide)
  exact hx5
  dsimp +zetaDelta -zeta only
  exact hx5

theorem State.readBurst_fr (s : State) (a : Nat) :
    Fr 0x3e0000000000000000000000000000000000000000000000000000000000000000000000000000000000000403 s (State.readBurst s a).2 := by
  unfold State.readBurst
  lift_lets -underBinder
  intro x1
  split
  split
  dsimp +zetaDelta -zeta only
  with_reducible refine Fr.pair (by assumption) ?_
  refine .call (State.linkCheck_fr ..) ?_ (by decide)
  with_reducible refine Fr.pair (by assumption) ?_
  with_reducible apply Fr.foldl2
  dsimp +zetaDelta -zeta only
  exact .refl ..
  intro x2 x3
  split
  dsimp +zetaDelta -zeta only
  with_reducible refine Fr.pair (by assumption) ?_
  refine .call (State.checkWords_fr ..) ?_ (by decide)
  exact .refl ..

theorem State.writeLocal_fr (s : State) (p : Nat) (a : Nat) (data : List Byte) (poison : Bool) :
    Fr 0x100000000000000000000000000003e2800000000000000000000000000000000000000000000000000000000000000000000000000000000600403 s (State.writeLocal s p a data poison) := by
  unfold State.writeLocal
  lift_lets -underBinder
  intro x1 x2 x3
  split
  lift_lets -underBinder
  intro x4 x5 x6 x7 x8
  refine .call (State.countBursts_fr ..) ?_ (by decide)
  (with_reducible refine Fr.dramUpd ?_ ?_ ?_ ?_) <;> [skip; exact (by decide); exact (by decide); first | exact fun _ => rfl | exact Mem.wf_store _ _ _ _]
  with_reducible refine Fr.pair (by assumption) ?_
  with_reducible apply Fr.ite2
  refine .call (State.readBurst_fr ..) ?_ (by decide)
  exact .refl ..
  dsimp +zetaDelta -zeta only
  exact .refl ..

theorem State.addrErr_fr (s : State) (p : Nat) (cause : Nat) (a : Nat) :
    Fr 0x3c00000000000000000000000000000000000000000000000000000000000000000000000000000000000000003 s (State.addrErr s p cause a) := by
  unfold State.addrErr
  refine .ite ?_ ?_
  refine .call (State.raise_fr ..) ?_ (by decide)
  refine .wr ?_ (by decide) (.fld .MEM_ADDR_ERR_INFO_ADDR rfl (by decide))
  refine .wr ?_ (by decide) (.fld .MEM_ADDR_ERR_INFO_PORT rfl (by decide))
  refine .wr ?_ (by decide) (.fld .MEM_ADDR_ERR_INFO_CAUSE rfl (by decide))
  refine .wr ?_ (by decide) (.fld .MEM_ADDR_ERR_ADDR_ADDR rfl (by decide))
  exact .refl ..
  exact .refl ..

theorem State.postWrite_fr (s : State) (a : Nat) (data : List Byte) (ep : Bool) :
    Fr 0x10000000000000000000000000000000000000000000000000000000000000000000000000000000000000000000000000000000000000000200803 s (State.postWrite s a data ep) := by
  unfold State.postWrite
  refine .call (State.count_fr ..) ?_ (by decide)
  apply Fr.upd <;> first | show Fr _ _ _ | exact .inl rfl | exact .inr rfl | rfl
  exact .refl ..

theorem State.memWrite1_fr (s : State) (p : Nat) (a : Nat) (data : List Byte) (poison : Bool) :
    Fr 0x10000000000000000000000000003fe2800000000000000000000000000000000000000000000000000000000000000000000000000000000600c03 s (State.memWrite1 s p a data poison) := by
  unfold State.memWrite1
  split
  refine .call (State.writeLocal_fr ..) ?_ (by decide)
  exact .refl ..
  refine .call (State.lateServed_fr ..) ?_ (by decide)
  refine .call (State.postWrite_fr ..) ?_ (by decide)
  exact .refl ..
  refine .call (State.addrErr_fr ..) ?_ (by decide)
  exact .refl ..

theorem State.memWrite_fr (fuel : Nat) (s : State) (p : Nat) (a : Nat) (data : List Byte) (poison : Bool) :
    Fr 0x10000000000000000000000000003fe2800000000000000000000000000000000000000000000000000000000000000000000000000000000600c03 s (State.memWrite fuel s p a data poison) := by
  induction fuel generalizing s a data with
  | zero => exact Fr.refl _ _
  | succ k ih =>
    unfold State.memWrite
    refine .ite ?_ ?_
    exact .refl ..
    lift_lets -underBinder
    intro x1
    refine .call (ih ..) ?_ (by decide)
    refine .call (State.memWrite1_fr ..) ?_ (by decide)
    exact .refl ..

theorem State.memStore_fr (s : State) (p : Nat) (a : Nat) (data : List Byte) (poison : Bool) :
    Fr 0x10000000000000000000000000003fe2800000000000000000000000000000000000000000000000000000000000000000000000000000000600c03 s (State.memStore s p a data poison) := by
  unfold State.memStore
  refine .call (State.memWrite_fr ..) ?_ (by decide)
  exact .refl ..

theorem State.flashWrite_fr (s : State) (a : Nat) (data : List Byte) : Fr 0x800000 s (s.flashWrite a data) :=
  Fr.flashUpd (Fr.refl _ s) rfl (by decide) (Mem.wf_store _ _ _ _)

theorem State.flashFree_fr (s : State) (a : Nat) (k : Nat) : Fr 0x800004 s (State.flashFree s a k) := by
  unfold State.flashFree
  lift_lets -underBinder
  intro x1
  refine Fr.have x1 ?_ (fun hx1 => ?_) <;> [unfold x1; clear_value x1]
  refine .call (State.flashWrite_fr ..) ?_ (by decide)
  exact .refl ..
  apply Fr.upd <;> first | show Fr _ _ _ | exact .inl rfl | exact .inr rfl | rfl
  exact hx1

theorem State.flashErase_fr (s : State) (lo hi : Nat) : Fr 0x800000 s (s.flashErase lo hi) :=
  Fr.flashUpd (Fr.refl _ s) rfl (by decide) (Tab.wf_clear _ _ _ _)

theorem State.logQueue_fr (s : State) (e : LogEntry) (front : Bool) :
    Fr 0x100000000000000000000000000000000000000000000000000000000000000000000000000000000000000000000000000000000000000100003 s (State.logQueue s e front) := by
  unfold State.logQueue
  refine .ite ?_ ?_
  apply Fr.upd <;> first | show Fr _ _ _ | exact .inl rfl | exact .inr rfl | rfl
  exact .refl ..
  lift_lets -underBinder
  intro x1 x2
  refine .call (State.raiseIf_fr ..) ?_ (by decide)
  refine .bump ?_ (by decide) (.fld .BOOT_LOG_DROP_COUNT rfl (by decide))
  apply Fr.upd <;> first | show Fr _ _ _ | exact .inl rfl | exact .inr rfl | rfl
  exact .refl ..

theorem State.logEntry_fr (s : State) (e : LogEntry) (front : Bool) :
    Fr 0x100000000000000000000000000000000000000000000000000000000000000000000000000000000000000000000000000000000000000100003 s (State.logEntry s e front) := by
  unfold State.logEntry
  refine .ite ?_ ?_
  exact .refl ..
  lift_lets -underBinder
  intro x1 x2
  refine Fr.have x2 ?_ (fun hx2 => ?_) <;> [unfold x2; clear_value x2]
  refine .ite ?_ ?_
  refine .call (State.logQueue_fr ..) ?_ (by decide)
  apply Fr.upd <;> first | show Fr _ _ _ | exact .inl rfl | exact .inr rfl | rfl
  exact .refl ..
  exact .refl ..
  refine .call (State.logQueue_fr ..) ?_ (by decide)
  exact hx2

theorem State.setUpd_fr (s : State) (u : UpdRec) (result : Nat) (t : Nat) :
    Fr 0x100000040000000000000000000000000000000000000000000000000000000000000000000000000000000000000000000000000000000900007 s (State.setUpd s u result t) := by
  unfold State.setUpd
  lift_lets -underBinder
  intro x1 x2 x3 x4 x5
  refine Fr.have x3 ?_ (fun hx3 => ?_) <;> [unfold x3; clear_value x3]
  refine .call (State.flashFree_fr ..) ?_ (by decide)
  refine .call (State.flashErase_fr ..) ?_ (by decide)
  exact .refl ..
  refine Fr.have x5 ?_ (fun hx5 => ?_) <;> [unfold x5; clear_value x5]
  refine .call (State.raiseIf_fr ..) ?_ (by decide)
  refine .wr ?_ (by decide) (.fld .BOOT_STATUS_UPD_STATE rfl (by decide))
  apply Fr.upd <;> first | show Fr _ _ _ | exact .inl rfl | exact .inr rfl | rfl
  exact hx3
  refine .call (State.logEntry_fr ..) ?_ (by decide)
  exact hx5

theorem State.readLocal_fr (s : State) (p : Nat) (a : Nat) (len : Nat) :
    Fr 0x100000000000000000000000000003e2800000000000000000000000000000000000000000000000000000000000000000000000000000000200403 s (State.readLocal s p a len).2.2 := by
  unfold State.readLocal
  lift_lets -underBinder
  intro x1
  split
  split
  dsimp +zetaDelta -zeta only
  refine .call (State.countBursts_fr ..) ?_ (by decide)
  with_reducible refine Fr.pair (by assumption) ?_
  refine .call (State.linkCheck_fr ..) ?_ (by decide)
  with_reducible refine Fr.pair (by assumption) ?_
  refine .call (State.checkWords_fr ..) ?_ (by decide)
  exact .refl ..

theorem State.memRead1_fr (s : State) (p : Nat) (a : Nat) (len : Nat) :
    Fr 0x10000000000000000000000000003fe2800000000000000000000000000000000000000000000000000000000000000000000000000000000200403 s (State.memRead1 s p a len).2.2 := by
  unfold State.memRead1
  split
  refine .call (State.readLocal_fr ..) ?_ (by decide)
  exact .refl ..
  dsimp +zetaDelta -zeta only
  exact .refl ..
  dsimp +zetaDelta -zeta only
  refine .call (State.addrErr_fr ..) ?_ (by decide)
  exact .refl ..

theorem State.memRead_fr (fuel : Nat) (s : State) (p : Nat) (a : Nat) (len : Nat) :
    Fr 0x10000000000000000000000000003fe2800000000000000000000000000000000000000000000000000000000000000000000000000000000200403 s (State.memRead fuel s p a len).2.2 := by
  induction fuel generalizing s a len with
  | zero => exact Fr.refl _ _
  | succ k ih =>
    unfold State.memRead
    with_reducible apply Fr.ite3
    dsimp +zetaDelta -zeta only
    exact .refl ..
    lift_lets -underBinder
    intro x1
    split
    split
    dsimp +zetaDelta -zeta only
    with_reducible refine Fr.pair3 (by assumption) ?_
    refine .call (ih ..) ?_ (by decide)
    with_reducible refine Fr.pair3 (by assumption) ?_
    refine .call (State.memRead1_fr ..) ?_ (by decide)
    exact .refl ..

theorem State.memLoad_fr (s : State) (p : Nat) (a : Nat) (len : Nat) :
    Fr 0x10000000000000000000000000003fe2800000000000000000000000000000000000000000000000000000000000000000000000000000000200403 s (State.memLoad s p a len).2.2 := by
  unfold State.memLoad
  refine .call (State.memRead_fr ..) ?_ (by decide)
  exact .refl ..

theorem State.lose_fr (s : State) (lo : Nat) (hi : Nat) : Fr 0x404 s (State.lose s lo hi) := by
  unfold State.lose
  refine .ite ?_ ?_
  apply Fr.upd <;> first | show Fr _ _ _ | exact .inl rfl | exact .inr rfl | rfl
  exact .refl ..
  exact .refl ..

theorem State.setPort_fr (s : State) (p : Nat) (q : List Req) :
    Fr 0x800000000000000000000000000000000000000000000000000000000000000000000000000000000000401 s (State.setPort s p q) := by
  unfold State.setPort
  refine .put ?_ (by decide) (.arr .MEM_PORT_STATUS_URGENT rfl (by decide))
  apply Fr.upd <;> first | show Fr _ _ _ | exact .inl rfl | exact .inr rfl | rfl
  exact .refl ..

theorem State.serve_fr (s : State) (p : Nat) (r : Req) :
    Fr 0x10000000000000000000000000003fe2800000000000000000000000000000000000000000000000000000000000000000000000000000000600c0b s (State.serve s p r) := by
  unfold State.serve
  refine .ite ?_ ?_
  refine .call (State.memWrite1_fr ..) ?_ (by decide)
  exact .refl ..
  split
  apply Fr.upd <;> first | show Fr _ _ _ | exact .inl rfl | exact .inr rfl | rfl
  exact .refl ..
  split
  refine .ite ?_ ?_
  refine .call (State.count_fr ..) ?_ (by decide)
  apply Fr.upd <;> first | show Fr _ _ _ | exact .inl rfl | exact .inr rfl | rfl
  with_reducible refine Fr.pair3 (by assumption) ?_
  refine .call (State.memRead1_fr ..) ?_ (by decide)
  exact .refl ..
  apply Fr.upd <;> first | show Fr _ _ _ | exact .inl rfl | exact .inr rfl | rfl
  with_reducible refine Fr.pair3 (by assumption) ?_
  refine .call (State.memRead1_fr ..) ?_ (by decide)
  exact .refl ..

theorem State.drainPorts_fr (s : State) :
    Fr 0x10000000000000000000000000003fe2800000000000000000000000000000000000000000000000000000000000000000000000000000000600c0b s (State.drainPorts s) := by
  unfold State.drainPorts
  lift_lets -underBinder
  intro x1 x2 x3
  refine Fr.have x2 ?_ (fun hx2 => ?_) <;> [unfold x2; clear_value x2]
  with_reducible apply Fr.forN
  exact .refl ..
  intro x4 x5
  refine .call (State.setPort_fr ..) ?_ (by decide)
  with_reducible apply Fr.foldl
  exact .refl ..
  intro x6 x7
  refine .call (State.serve_fr ..) ?_ (by decide)
  exact .refl ..
  apply Fr.upd <;> first | show Fr _ _ _ | exact .inl rfl | exact .inr rfl | rfl
  exact hx2

theorem State.loseSegments_fr (s : State) : Fr 0x404 s (State.loseSegments s) := by
  unfold State.loseSegments
  refine .ite ?_ ?_
  exact .refl ..
  lift_lets -underBinder
  intro x1
  with_reducible apply Fr.forN
  exact .refl ..
  intro x2 x3
  with_reducible apply Fr.forN
  exact .refl ..
  intro x4 x5
  refine .ite ?_ ?_
  refine .call (State.lose_fr ..) ?_ (by decide)
  exact .refl ..
  exact .refl ..

theorem State.orderlyStop_fr (s : State) (cause : Nat) :
    Fr 0x10000000000000000000000000000000000000000f00000400084b s (State.orderlyStop s cause) := by
  unfold State.orderlyStop
  refine .ite ?_ ?_
  refine .ite ?_ ?_
  refine .call (State.answer_fr ..) ?_ (by decide)
  apply Fr.upd <;> first | show Fr _ _ _ | exact .inl rfl | exact .inr rfl | rfl
  exact .refl ..
  exact .refl ..
  refine .ite ?_ ?_
  lift_lets -underBinder
  intro x1 x2 x3 x4
  refine Fr.have x1 ?_ (fun hx1 => ?_) <;> [unfold x1; clear_value x1]
  refine .wr ?_ (by decide) (.fld .MER_STATUS_PC_WAIT rfl (by decide))
  refine .wr ?_ (by decide) (.fld .SYS_MODE_STOPPING rfl (by decide))
  exact .refl ..
  refine Fr.have x4 ?_ (fun hx4 => ?_) <;> [unfold x4; clear_value x4]
  apply Fr.upd <;> first | show Fr _ _ _ | exact .inl rfl | exact .inr rfl | rfl
  exact hx1
  refine .ite ?_ ?_
  refine .call (State.answer_fr ..) ?_ (by decide)
  exact hx4
  exact hx4
  exact .refl ..

theorem State.srEnter_fr (s : State) :
    Fr 0x10000000000000000000000000003fe2940000000000000000000000000000000000000000000000000000000000000000000000000008000600c0b s (State.srEnter s) := by
  unfold State.srEnter
  lift_lets -underBinder
  intro x1
  refine .ite ?_ ?_
  refine .wr ?_ (by decide) (.fld .MEM_STATUS_STATE rfl (by decide))
  refine .call (State.drainPorts_fr ..) ?_ (by decide)
  unfold x1
  apply Fr.upd <;> first | show Fr _ _ _ | exact .inl rfl | exact .inr rfl | rfl
  exact .refl ..
  refine .ite ?_ ?_
  unfold State.dropPend
  refine .wr ?_ (by decide) (.fld .SYS_PEND_STATUS_MEM_SR rfl (by decide))
  refine .wr ?_ (by decide) (.fld .MEM_STATUS_PENDING_ENABLE rfl (by decide))
  exact .refl ..
  refine .ite ?_ ?_
  exact .refl ..
  unfold x1
  apply Fr.upd <;> first | show Fr _ _ _ | exact .inl rfl | exact .inr rfl | rfl
  exact .refl ..

theorem State.probeStart_fr (s : State) : Fr 0x8000000000000013 s (State.probeStart s) := by
  unfold State.probeStart
  refine .ite ?_ ?_
  refine .call (State.cfgReject_fr ..) ?_ (by decide)
  exact .refl ..
  lift_lets -underBinder
  intro x1 x2
  refine Fr.have x1 ?_ (fun hx1 => ?_) <;> [unfold x1; clear_value x1]
  refine .wr ?_ (by decide) (.fld .DET_STATUS_PROBE_BUSY rfl (by decide))
  exact .refl ..
  apply Fr.upd <;> first | show Fr _ _ _ | exact .inl rfl | exact .inr rfl | rfl
  exact hx1

theorem State.surveyProbe_fr (s : State) (k : Nat) : Fr 0x608000000000040013 s (State.surveyProbe s k) := by
  unfold State.surveyProbe
  lift_lets -underBinder
  intro x1 x2
  refine Fr.have x2 ?_ (fun hx2 => ?_) <;> [unfold x2; clear_value x2]
  apply Fr.upd <;> first | show Fr _ _ _ | exact .inl rfl | exact .inr rfl | rfl
  exact .refl ..
  refine .ite ?_ ?_
  refine .call (State.probeStart_fr ..) ?_ (by decide)
  refine .wr ?_ (by decide) (.fld .DET_PROBE_CFG_SPAD rfl (by decide))
  refine .wr ?_ (by decide) (.fld .DET_PROBE_CFG_CHANNEL rfl (by decide))
  exact hx2
  exact hx2

theorem State.surveyBegin_fr (s : State) : Fr 0x608000000000040013 s (State.surveyBegin s) := by
  unfold State.surveyBegin
  lift_lets -underBinder
  intro x1 x2
  refine Fr.have x2 ?_ (fun hx2 => ?_) <;> [unfold x2; clear_value x2]
  apply Fr.upd <;> first | show Fr _ _ _ | exact .inl rfl | exact .inr rfl | rfl
  exact .refl ..
  refine .ite ?_ ?_
  exact hx2
  refine .call (State.surveyProbe_fr ..) ?_ (by decide)
  exact hx2

theorem State.memEnable_fr (s : State) :
    Fr 0x302000000000000000000000000000000000000000000000000000000000000000000000000000000000401 s (State.memEnable s) := by
  unfold State.memEnable
  refine .ite ?_ ?_
  exact .refl ..
  lift_lets -underBinder
  intro x1 x2 x3
  refine Fr.have x1 ?_ (fun hx1 => ?_) <;> [unfold x1; skip]
  refine .wr ?_ (by decide) (.fld .MEM_SIZE_MIB rfl (by decide))
  refine .wr ?_ (by decide) (.fld .MEM_CTRL_EN rfl (by decide))
  exact .refl ..
  refine Fr.have x2 ?_ (fun hx2 => ?_) <;> [unfold x2; skip]
  refine .wr ?_ (by decide) (.fld .MEM_STATUS_STATE rfl (by decide))
  exact hx1
  apply Fr.upd <;> first | show Fr _ _ _ | exact .inl rfl | exact .inr rfl | rfl
  exact hx2

theorem State.memDisable_fr (s : State) :
    Fr 0x3c2000000000000000000000000000000000000000000000000000000000000000000000000008000000405 s (State.memDisable s) := by
  unfold State.memDisable
  refine .ite ?_ ?_
  lift_lets -underBinder
  intro x1 x2 x3
  refine Fr.have x1 ?_ (fun hx1 => ?_) <;> [unfold x1; clear_value x1]
  refine .call (State.lose_fr ..) ?_ (by decide)
  exact .refl ..
  refine Fr.have x2 ?_ (fun hx2 => ?_) <;> [unfold x2; clear_value x2]
  refine .wr ?_ (by decide) (.fld .MEM_STATUS_INIT_BUSY rfl (by decide))
  refine .wr ?_ (by decide) (.fld .MEM_SIZE_MIB rfl (by decide))
  refine .wr ?_ (by decide) (.fld .MEM_STATUS_STATE rfl (by decide))
  refine .wr ?_ (by decide) (.fld .MEM_CTRL_EN rfl (by decide))
  exact hx1
  unfold State.dropPend
  refine .wr ?_ (by decide) (.fld .SYS_PEND_STATUS_MEM_SR rfl (by decide))
  refine .wr ?_ (by decide) (.fld .MEM_STATUS_PENDING_ENABLE rfl (by decide))
  apply Fr.upd <;> first | show Fr _ _ _ | exact .inl rfl | exact .inr rfl | rfl
  exact hx2
  exact .refl ..

theorem State.biasHeld_fr (s : State) : Fr 0x122000000000000011 s (State.biasHeld s) := by
  unfold State.biasHeld
  lift_lets -underBinder
  intro x1 x2
  refine Fr.have x1 ?_ (fun hx1 => ?_) <;> [unfold x1; clear_value x1]
  refine .wr ?_ (by decide) (.fld .DET_BIAS_TARGET_TARGET rfl (by decide))
  refine .wr ?_ (by decide) (.fld .DET_STATUS_BIAS_SETTLED rfl (by decide))
  refine .wr ?_ (by decide) (.fld .DET_BIAS_STATUS_VHV_SET_CODE rfl (by decide))
  exact .refl ..
  apply Fr.upd <;> first | show Fr _ _ _ | exact .inl rfl | exact .inr rfl | rfl
  exact hx1

theorem execEmitAdmission_fr (waited : Nat) (s : State) :
    Runs 0x10000000000000000000000000000000000000000000000000000000000000000000000000000000000000002000000000000000000000000200183 s (execEmitAdmission waited s) := by
  unfold execEmitAdmission
  refine .next ?_
  refine .ite ?_ ?_
  exact .refl ..
  lift_lets -underBinder
  intro x1
  refine Fr.have x1 ?_ (fun hx1 => ?_) <;> [unfold x1; clear_value x1]
  refine .call (State.count_fr ..) ?_ (by decide)
  refine .bump ?_ (by decide) (.fld .TIL_OQ_STALL_CNT_COUNT rfl (by decide))
  exact .refl ..
  split
  split
  refine .ite ?_ ?_
  lift_lets -underBinder
  intro x2 x3
  refine Fr.have x2 ?_ (fun hx2 => ?_) <;> [unfold x2; clear_value x2]
  refine .call (State.onTiller_fr ..) ?_ (by decide)
  exact hx1
  apply Fr.upd <;> first | show Fr _ _ _ | exact .inl rfl | exact .inr rfl | rfl
  exact hx2
  exact hx1
  exact hx1
  exact hx1

theorem execMrCommandComplete_fr (data : Byte) (s : State) :
    Runs 0x2080000000000000000000000000000000000000000000000000000000000000000000000000000000000000000001 s (execMrCommandComplete data s) := by
  unfold execMrCommandComplete
  refine .next ?_
  refine .ite ?_ ?_
  refine .wr ?_ (by decide) (.fld .MEM_MR_CMD_BUSY rfl (by decide))
  refine .ite ?_ ?_
  refine .wr ?_ (by decide) (.fld .MEM_MR_DATA_DATA rfl (by decide))
  exact .refl ..
  exact .refl ..
  exact .refl ..

theorem State.trimTake_fr (s : State) : Fr 0x20 s (State.trimTake s) := by
  unfold State.trimTake
  lift_lets -underBinder
  intro x1 x2
  apply Fr.upd <;> first | show Fr _ _ _ | exact .inl rfl | exact .inr rfl | rfl
  exact .refl ..

theorem State.tdcCopy_fr (s : State) : Fr 0x180000000000000000023 s (State.tdcCopy s) := by
  unfold State.tdcCopy
  lift_lets -underBinder
  intro x1
  refine Fr.have x1 ?_ (fun hx1 => ?_) <;> [unfold x1; clear_value x1]
  refine .wr ?_ (by decide) (.fld .TDC_STATUS_COMMIT_PENDING rfl (by decide))
  exact .refl ..
  split
  refine .call (State.raise_fr ..) ?_ (by decide)
  refine .wr ?_ (by decide) (.fld .TDC_STATUS_REJECT_CH rfl (by decide))
  exact hx1
  lift_lets -underBinder
  intro x2 x3
  apply Fr.upd <;> first | show Fr _ _ _ | exact .inl rfl | exact .inr rfl | rfl
  exact hx1

theorem State.tdcBoundary_fr (s : State) : Fr 0x180000000000000000023 s (State.tdcBoundary s) := by
  unfold State.tdcBoundary
  lift_lets -underBinder
  intro x1 x2
  refine Fr.have x1 ?_ (fun hx1 => ?_) <;> [unfold x1; clear_value x1]
  refine .call (State.trimTake_fr ..) ?_ (by decide)
  refine .ite ?_ ?_
  refine .call (State.tdcCopy_fr ..) ?_ (by decide)
  exact .refl ..
  exact .refl ..
  apply Fr.upd <;> first | show Fr _ _ _ | exact .inl rfl | exact .inr rfl | rfl
  exact hx1

theorem State.evalSilence_fr (s : State) : Fr 0x4010000000000000003 s (State.evalSilence s) := by
  unfold State.evalSilence
  lift_lets -underBinder
  intro x1 x2 x3
  refine Fr.have x3 ?_ (fun hx3 => ?_) <;> [unfold x3; clear_value x3]
  with_reducible apply Fr.forN
  exact .refl ..
  intro x4 x5
  refine .put ?_ (by decide) (.arr .DET_CH_CFG_SILENT rfl (by decide))
  exact .refl ..
  refine .call (State.raiseIf_fr ..) ?_ (by decide)
  refine .wr ?_ (by decide) (.fld .DET_SILENT_CNT_COUNT rfl (by decide))
  exact hx3

theorem State.detSample_fr (s : State) : Fr 0x10 s (State.detSample s) := by
  unfold State.detSample
  apply Fr.upd <;> first | show Fr _ _ _ | exact .inl rfl | exact .inr rfl | rfl
  exact .refl ..

theorem State.copySpads_fr (s : State) : Fr 0x42000000000000000001 s (State.copySpads s) := by
  unfold State.copySpads
  lift_lets -underBinder
  intro x1
  refine Fr.have x1 ?_ (fun hx1 => ?_) <;> [unfold x1; clear_value x1]
  with_reducible apply Fr.forN
  exact .refl ..
  intro x2 x3
  refine .setReg ?_ (by decide) (.words .w_DET_SPAD_MASK_ACT rfl (by decide))
  exact .refl ..
  with_reducible apply Fr.forN
  exact hx1
  intro x4 x5
  refine .wr ?_ (by decide) (.arr .DET_CH_CFG_SPAD_CNT rfl (by decide))
  exact .refl ..

theorem State.copyMasks_fr (s : State) : Fr 0x43004000000000000001 s (State.copyMasks s) := by
  unfold State.copyMasks
  lift_lets -underBinder
  intro x1
  refine Fr.have x1 ?_ (fun hx1 => ?_) <;> [unfold x1; clear_value x1]
  with_reducible apply Fr.forN
  refine .call (State.copySpads_fr ..) ?_ (by decide)
  exact .refl ..
  intro x2 x3
  refine .wr ?_ (by decide) (.arr .DET_CH_CFG_TRIM_ACT rfl (by decide))
  exact .refl ..
  refine .wr ?_ (by decide) (.fld .DET_STATUS_COMMIT_PENDING rfl (by decide))
  exact hx1

theorem State.detBoundary_fr (s : State) : Fr 0x4f014000000000000013 s (State.detBoundary s) := by
  unfold State.detBoundary
  lift_lets -underBinder
  intro x1 x2
  refine Fr.have x1 ?_ (fun hx1 => ?_) <;> [unfold x1; clear_value x1]
  refine .ite ?_ ?_
  refine .call (State.copyMasks_fr ..) ?_ (by decide)
  exact .refl ..
  exact .refl ..
  refine Fr.have x2 ?_ (fun hx2 => ?_) <;> [unfold x2; clear_value x2]
  with_reducible apply Fr.forN
  exact hx1
  intro x3 x4
  refine .wr ?_ (by decide) (.arr .DET_CH_CFG_K_EFF rfl (by decide))
  exact .refl ..
  refine .call (State.evalSilence_fr ..) ?_ (by decide)
  refine .call (State.detSample_fr ..) ?_ (by decide)
  exact hx2

theorem State.dropBlock_fr (s : State) (f : Nat) (k : Bank) (abandoned : Bool) :
    Fr 0x10000000000000000000000000000000000000000000000000000000000000000000000000000000000000000060000000000000000000000200103 s (State.dropBlock s f k abandoned) := by
  unfold State.dropBlock
  lift_lets -underBinder
  intro x1 x2 x3
  refine Fr.have x3 ?_ (fun hx3 => ?_) <;> [unfold x3; clear_value x3]
  apply Fr.upd <;> first | show Fr _ _ _ | exact .inl rfl | exact .inr rfl | rfl
  exact .refl ..
  refine .call (State.count_fr ..) ?_ (by decide)
  refine .call (State.tilCause_fr ..) ?_ (by decide)
  refine .bump ?_ (by decide) (.arr .TIL_CNT_DROPPED_COUNT rfl (by decide))
  exact hx3

theorem execDllRelockRetry_fr (col : Fin 16) (s : State) : Runs 0x2 s (execDllRelockRetry col s) := by
  unfold execDllRelockRetry
  refine .next ?_
  refine .call (State.raiseIf_fr ..) ?_ (by decide)
  exact .refl ..

theorem execSra_fr (n : Fin 192) (rd : Fin 32) (ra : Fin 32) (rb : Fin 32) (s : State) :
    Runs 0x100000000800000000000000000000001400000080000000000000001fe80000010000000000000000200010192030000120000000f00b03c3108ff s (execSra n rd ra rb s) := by
  unfold execSra
  exact (State.runRow_fr ..).mono (by decide)

theorem execFrecvN_fr (n : Fin 192) (rd : Fin 32) (s : State) :
    Runs 0x100000000800000000000000000000001400000080000000000000001fe80000010000000000000000200010192030000120000000f00b03c3108ff s (execFrecvN n rd s) := by
  unfold execFrecvN
  exact (State.runRow_fr ..).mono (by decide)

theorem State.srLeave_fr (s : State) :
    Fr 0x140000000000000000000000000000000000000000000000000000000000000000000000000008000000403 s (State.srLeave s) := by
  unfold State.srLeave
  refine .call (State.memWake_fr ..) ?_ (by decide)
  apply Fr.upd <;> first | show Fr _ _ _ | exact .inl rfl | exact .inr rfl | rfl
  exact .refl ..

theorem execSelfRefreshExit_fr (s : State) :
    Runs 0x1000000000000000000000000000000014100000000000000000000000000000000000000000000000000000000000000000000000000800020040b s (execSelfRefreshExit s) := by
  unfold execSelfRefreshExit
  refine .next ?_
  (with_reducible apply State.access_fr) <;> [skip; skip; decide]
  exact .refl ..
  intro x1
  refine .call (State.srLeave_fr ..) ?_ (by decide)
  refine .wr ?_ (by decide) (.fld .MEM_CTRL_SR rfl (by decide))
  exact .refl ..

theorem execVaddsu_fr (n : Fin 192) (w : Bool) (vd : Fin 32) (va : Fin 32) (vb : Fin 32) (s : State) :
    Runs 0x100000000800000000000000000000001400000080000000000000001fe80000010000000000000000200010192030000120000000f00b03c3108ff s (execVaddsu n w vd va vb s) := by
  unfold execVaddsu
  exact (State.runRow_fr ..).mono (by decide)

theorem execVmul_fr (n : Fin 192) (w : Bool) (vd : Fin 32) (va : Fin 32) (vb : Fin 32) (s : State) :
    Runs 0x100000000800000000000000000000001400000080000000000000001fe80000010000000000000000200010192030000120000000f00b03c3108ff s (execVmul n w vd va vb s) := by
  unfold execVmul
  exact (State.runRow_fr ..).mono (by decide)

theorem State.whenMemory_fr {w : Nat} {s0 : State} {s : State} {p : Nat} {f : State → State} (h : Fr w s0 s) (hf : ∀  y, Fr w y (f  y)) (hw : 0x140000000000000000000000000000000000000000000000000000000000000000000000000008000000403 &&& w = 0x140000000000000000000000000000000000000000000000000000000000000000000000000008000000403) :
    Fr w s0 (State.whenMemory s p f) := by
  refine h.trans ?_
  unfold State.whenMemory
  refine .ite ?_ ?_
  lift_lets -underBinder
  intro x1 x2
  refine .ite ?_ ?_
  refine Fr.trans ?_ (hf _)
  apply Fr.upd <;> first | show Fr _ _ _ | exact .inr rfl | exact .inl (testBit_sub hw (by decide)) | rfl
  exact .refl ..
  (with_reducible apply Fr.call (State.memWake_fr ..)) <;> [skip; exact sub_trans (by decide) hw]
  exact .refl ..
  refine .ite ?_ ?_
  refine Fr.trans ?_ (hf _)
  exact .refl ..
  exact .refl ..

theorem execMinu_fr (n : Fin 192) (rd : Fin 32) (ra : Fin 32) (rb : Fin 32) (s : State) :
    Runs 0x100000000800000000000000000000001400000080000000000000001fe80000010000000000000000200010192030000120000000f00b03c3108ff s (execMinu n rd ra rb s) := by
  unfold execMinu
  exact (State.runRow_fr ..).mono (by decide)

theorem State.refIssueEmit_fr (s : State) (n : Nat) (len : Nat) :
    Fr 0x10000000000000000000000000000000000000000000000000000000000000000000000000000000000000000920000000000000000000000200083 s (State.refIssueEmit s n len) := by
  unfold State.refIssueEmit
  lift_lets -underBinder
  intro x1 x2 x3
  refine Fr.have x1 ?_ (fun hx1 => ?_) <;> [unfold x1; clear_value x1]
  refine .call (State.headRead_fr ..) ?_ (by decide)
  exact .refl ..
  refine .ite ?_ ?_
  refine .call (State.tilCause_fr ..) ?_ (by decide)
  refine .bump ?_ (by decide) (.arr .TIL_CNT_STALE_EMIT_COUNT rfl (by decide))
  exact hx1
  refine .call (State.countTil_fr ..) ?_ (by decide)
  refine .call (State.stallOn_fr ..) ?_ (by decide)
  exact hx1

theorem State.tilRun_fr (s : State) (n : Nat) :
    Fr 0x100000000800000000000000000000001400000080000000000000001fe80000010000000000000000200010092000000120000000f00b03c3108fb s (State.tilRun s n) := by
  unfold State.tilRun
  refine .ite ?_ ?_
  lift_lets -underBinder
  intro x1 x2
  refine Fr.have x1 ?_ (fun hx1 => ?_) <;> [unfold x1; clear_value x1]
  refine .call (State.onTiller_fr ..) ?_ (by decide)
  exact .refl ..
  refine Fr.have x2 ?_ (fun hx2 => ?_) <;> [unfold x2; clear_value x2]
  split
  refine .call (State.refIssueEmit_fr ..) ?_ (by decide)
  refine .call (State.onTiller_fr ..) ?_ (by decide)
  exact hx1
  exact hx1
  refine .call (State.derateCheck_fr ..) ?_ (by decide)
  exact hx2
  refine .call (State.cfgReject_fr ..) ?_ (by decide)
  exact .refl ..

theorem State.groupRun_fr (s : State) :
    Fr 0x100000000800000000000000000000001400000080000000000000001fe80000010000000000000000200010092000000120000000f00b03c3108fb s (State.groupRun s) := by
  unfold State.groupRun
  lift_lets -underBinder
  intro x1 x2
  refine Fr.have x2 ?_ (fun hx2 => ?_) <;> [unfold x2; clear_value x2]
  with_reducible apply Fr.forN
  exact .refl ..
  intro x3 x4
  refine .ite ?_ ?_
  refine .call (State.tilRun_fr ..) ?_ (by decide)
  exact .refl ..
  exact .refl ..
  refine .ite ?_ ?_
  refine .call (State.cfgReject_fr ..) ?_ (by decide)
  exact hx2
  exact hx2

theorem execSubs_fr (n : Fin 192) (rd : Fin 32) (ra : Fin 32) (rb : Fin 32) (s : State) :
    Runs 0x100000000800000000000000000000001400000080000000000000001fe80000010000000000000000200010192030000120000000f00b03c3108ff s (execSubs n rd ra rb s) := by
  unfold execSubs
  exact (State.runRow_fr ..).mono (by decide)

theorem State.resume_fr (s : State) (n : Nat) (f : Tiller → Tiller) :
    Fr 0x100000000800000000000000000000001400000080000000000000001fe80000010000000000000000200010002000000120000000f00b03c3108fb s (State.resume s n f) := by
  unfold State.resume
  refine .call (State.stepDone_fr ..) ?_ (by decide)
  refine .call (State.retire_fr ..) ?_ (by decide)
  exact .refl ..

theorem execFsendStallEnd_fr (n : Fin 192) (s : State) :
    Runs 0x100000000800000000000000000000001400000080000000000000001fe80000010000000000000000200010002000000120000000f00b03c3108fb s (execFsendStallEnd n s) := by
  unfold execFsendStallEnd
  refine .next ?_
  split
  refine .ite ?_ ?_
  refine .call (State.resume_fr ..) ?_ (by decide)
  exact .refl ..
  exact .refl ..
  exact .refl ..

theorem State.tempFlapRelease_fr (s : State) :
    Fr 0x10000000000000000000000000000000000000000000000000000000000000000000000000000000000401 s (State.tempFlapRelease s) := by
  unfold State.tempFlapRelease
  lift_lets -underBinder
  intro x1 x2
  refine Fr.have x1 ?_ (fun hx1 => ?_) <;> [unfold x1; skip]
  refine .wr ?_ (by decide) (.fld .MEM_STATUS_TEMP_FLAP rfl (by decide))
  exact .refl ..
  apply Fr.upd <;> first | show Fr _ _ _ | exact .inl rfl | exact .inr rfl | rfl
  exact hx1

theorem execTempFlapRelease_fr (s : State) :
    Runs 0x1000000000000000000000000000000001000000000000000000000000000000000000000000000000000000000000000000000000000000020040b s (execTempFlapRelease s) := by
  unfold execTempFlapRelease
  refine .next ?_
  (with_reducible apply State.access_fr) <;> [skip; skip; decide]
  exact .refl ..
  intro x1
  refine .call (State.tempFlapRelease_fr ..) ?_ (by decide)
  exact .refl ..

theorem execVcoat_fr (n : Fin 192) (vd : Fin 32) (va : Fin 32) (rb : Fin 32) (s : State) :
    Runs 0x100000000800000000000000000000001400000080000000000000001fe80000010000000000000000200010192030000120000000f00b03c3108ff s (execVcoat n vd va rb s) := by
  unfold execVcoat
  exact (State.runRow_fr ..).mono (by decide)

theorem State.upset_fr (s : State) (a : Nat) (found : Nat) : Fr 0x400 s (State.upset s a found) := by
  unfold State.upset
  refine .ite ?_ ?_
  exact .refl ..
  apply Fr.upd <;> first | show Fr _ _ _ | exact .inl rfl | exact .inr rfl | rfl
  exact .refl ..

theorem execMaskCommitCopy_fr (s : State) : Runs 0x47014000000000000003 s (execMaskCommitCopy s) := by
  unfold execMaskCommitCopy
  refine .next ?_
  refine .ite ?_ ?_
  refine .call (State.evalSilence_fr ..) ?_ (by decide)
  refine .call (State.copyMasks_fr ..) ?_ (by decide)
  exact .refl ..
  exact .refl ..

theorem execFence_fr (n : Fin 192) (s : State) :
    Runs 0x100000000800000000000000000000001400000080000000000000001fe80000010000000000000000200010192030000120000000f00b03c3108ff s (execFence n s) := by
  unfold execFence
  exact (State.runRow_fr ..).mono (by decide)

theorem execVzxh_fr (n : Fin 192) (vd : Fin 32) (va : Fin 32) (s : State) :
    Runs 0x100000000800000000000000000000001400000080000000000000001fe80000010000000000000000200010192030000120000000f00b03c3108ff s (execVzxh n vd va s) := by
  unfold execVzxh
  exact (State.runRow_fr ..).mono (by decide)

theorem State.rzMissed_fr (s : State) (n : Nat) (b : Nat) : Fr 0x40000 s (State.rzMissed s n b) := by
  unfold State.rzMissed
  refine .ite ?_ ?_
  apply Fr.upd <;> first | show Fr _ _ _ | exact .inl rfl | exact .inr rfl | rfl
  exact .refl ..
  exact .refl ..

theorem State.emitEnds_fr (s : State) (n : Nat) (result : Nat) :
    Fr 0x100000000800000000000000000000001400000080000000000000001fe80000010000000000000000200010002000000120000000f00b03c3109fb s (State.emitEnds s n result) := by
  unfold State.emitEnds
  split
  lift_lets -underBinder
  intro x1 x2
  refine Fr.have x2 ?_ (fun hx2 => ?_) <;> [unfold x2; clear_value x2]
  refine .ite ?_ ?_
  apply Fr.upd <;> first | show Fr _ _ _ | exact .inl rfl | exact .inr rfl | rfl
  exact .refl ..
  exact .refl ..
  refine .call (State.resume_fr ..) ?_ (by decide)
  exact hx2
  exact .refl ..

theorem State.endOwnership_fr (s : State) (n : Nat) :
    Fr 0x100000000800000000000000000000001400000080000000000000001fe80000010000000000000000200010006000000120000000f00b03c3509fb s (State.endOwnership s n) := by
  unfold State.endOwnership
  split
  lift_lets -underBinder
  intro x1 x2 x3
  refine Fr.have x2 ?_ (fun hx2 => ?_) <;> [unfold x2; clear_value x2]
  refine .ite ?_ ?_
  refine .call (State.rzMissed_fr ..) ?_ (by decide)
  refine .call (State.dropBlock_fr ..) ?_ (by decide)
  exact .refl ..
  exact .refl ..
  refine Fr.have x3 ?_ (fun hx3 => ?_) <;> [unfold x3; clear_value x3]
  refine .call (State.onTiller_fr ..) ?_ (by decide)
  exact hx2
  refine .ite ?_ ?_
  refine .call (State.emitEnds_fr ..) ?_ (by decide)
  exact hx3
  exact hx3
  exact .refl ..

theorem execAnd_fr (n : Fin 192) (rd : Fin 32) (ra : Fin 32) (rb : Fin 32) (s : State) :
    Runs 0x100000000800000000000000000000001400000080000000000000001fe80000010000000000000000200010192030000120000000f00b03c3108ff s (execAnd n rd ra rb s) := by
  unfold execAnd
  exact (State.runRow_fr ..).mono (by decide)

theorem execVmin_fr (n : Fin 192) (w : Bool) (vd : Fin 32) (va : Fin 32) (vb : Fin 32) (s : State) :
    Runs 0x100000000800000000000000000000001400000080000000000000001fe80000010000000000000000200010192030000120000000f00b03c3108ff s (execVmin n w vd va vb s) := by
  unfold execVmin
  exact (State.runRow_fr ..).mono (by decide)

theorem execBlockAccepted_fr (s : State) :
    Runs 0x100000000800000000000000000000001400000080000000000000001fe8000001000000000000000020001008a000000120000000f00b03c3109fb s (execBlockAccepted s) := by
  unfold execBlockAccepted
  refine .next ?_
  refine .ite ?_ ?_
  exact .refl ..
  split
  exact .refl ..
  split
  lift_lets -underBinder
  intro x1 x2 x3 x4 x5 x6 x7 x8 x9 x10 x11
  refine Fr.have x6 ?_ (fun hx6 => ?_) <;> [unfold x6; clear_value x6]
  refine .ite ?_ ?_
  refine .call (State.tilCause_fr ..) ?_ (by decide)
  exact .refl ..
  exact .refl ..
  refine Fr.have x7 ?_ (fun hx7 => ?_) <;> [unfold x7; clear_value x7]
  with_reducible apply Fr.foldl
  exact hx6
  intro x12 x13
  refine .ite ?_ ?_
  refine .call (State.tilCE_fr ..) ?_ (by decide)
  refine .call (State.onTiller_fr ..) ?_ (by decide)
  exact .refl ..
  exact .refl ..
  refine Fr.have x10 ?_ (fun hx10 => ?_) <;> [unfold x10; clear_value x10]
  apply Fr.upd <;> first | show Fr _ _ _ | exact .inl rfl | exact .inr rfl | rfl
  exact hx7
  refine Fr.have x11 ?_ (fun hx11 => ?_) <;> [unfold x11; clear_value x11]
  refine .call (State.count_fr ..) ?_ (by decide)
  refine .call (State.count_fr ..) ?_ (by decide)
  refine .bump ?_ (by decide) (.arr .TIL_CNT_EMIT_COUNT rfl (by decide))
  exact hx10
  refine .call (State.emitEnds_fr ..) ?_ (by decide)
  refine .call (State.onTiller_fr ..) ?_ (by decide)
  exact hx11
  exact .refl ..

theorem State.biasEnable_fr (s : State) : Fr 0x102080000000000011 s (State.biasEnable s) := by
  unfold State.biasEnable
  refine .ite ?_ ?_
  exact .refl ..
  lift_lets -underBinder
  intro x1 x2
  refine Fr.have x1 ?_ (fun hx1 => ?_) <;> [unfold x1; clear_value x1]
  refine .wr ?_ (by decide) (.fld .DET_BIAS_TARGET_TARGET rfl (by decide))
  refine .wr ?_ (by decide) (.fld .DET_STATUS_BIAS_SETTLED rfl (by decide))
  refine .wr ?_ (by decide) (.fld .DET_CTRL_BIAS_EN rfl (by decide))
  exact .refl ..
  apply Fr.upd <;> first | show Fr _ _ _ | exact .inl rfl | exact .inr rfl | rfl
  exact hx1

theorem execBiasEnable_fr (s : State) :
    Runs 0x1000000000000000000000000000000000000000000000000000000000000000000000000000000000000000000000000000010208000000020001b s (execBiasEnable s) := by
  unfold execBiasEnable
  refine .next ?_
  (with_reducible apply State.access_fr) <;> [skip; skip; decide]
  exact .refl ..
  intro x1
  refine .call (State.biasEnable_fr ..) ?_ (by decide)
  exact .refl ..

theorem execVsubs_fr (n : Fin 192) (w : Bool) (vd : Fin 32) (va : Fin 32) (vb : Fin 32) (s : State) :
    Runs 0x100000000800000000000000000000001400000080000000000000001fe80000010000000000000000200010192030000120000000f00b03c3108ff s (execVsubs n w vd va vb s) := by
  unfold execVsubs
  exact (State.runRow_fr ..).mono (by decide)

theorem execEmit_fr (n : Fin 192) (rd : Fin 32) (ra : Fin 32) (rb : Fin 32) (s : State) :
    Runs 0x100000000800000000000000000000001400000080000000000000001fe80000010000000000000000200010192030000120000000f00b03c3108ff s (execEmit n rd ra rb s) := by
  unfold execEmit
  exact (State.runRow_fr ..).mono (by decide)

theorem State.clearTdcSel_fr (s : State) : Fr 0x20 s (State.clearTdcSel s) := by
  unfold State.clearTdcSel
  lift_lets -underBinder
  intro x1 x2 x3
  apply Fr.upd <;> first | show Fr _ _ _ | exact .inl rfl | exact .inr rfl | rfl
  exact .refl ..

theorem execCounterClearSel_fr (s : State) :
    Runs 0x1000000000000000000000000000000000000000000000000000000000000000000000000000000000000000000000000000000000000000020002b s (execCounterClearSel s) := by
  unfold execCounterClearSel
  refine .next ?_
  (with_reducible apply State.access_fr) <;> [skip; skip; decide]
  exact .refl ..
  intro x1
  refine .call (State.clearTdcSel_fr ..) ?_ (by decide)
  exact .refl ..

theorem execVmacc_fr (n : Fin 192) (vd : Fin 32) (va : Fin 32) (vb : Fin 32) (p : Fin 2) (s : State) :
    Runs 0x100000000800000000000000000000001400000080000000000000001fe80000010000000000000000200010192030000120000000f00b03c3108ff s (execVmacc n vd va vb p s) := by
  unfold execVmacc
  exact (State.runRow_fr ..).mono (by decide)

theorem execBiasLoopUpdate_fr (meas : Nat) (s : State) : Runs 0x160000000000000001 s (execBiasLoopUpdate meas s) := by
  unfold execBiasLoopUpdate
  refine .next ?_
  lift_lets -underBinder
  intro x1 x2 x3 x4 x5
  refine Fr.have x1 ?_ (fun hx1 => ?_) <;> [unfold x1; clear_value x1]
  refine .wr ?_ (by decide) (.fld .DET_BIAS_STATUS_VSPAD_MEAS rfl (by decide))
  exact .refl ..
  refine .ite ?_ ?_
  refine .wr ?_ (by decide) (.fld .DET_BIAS_STATUS_VHV_SET_CODE rfl (by decide))
  refine .wrS ?_ (by decide) (.fld .DET_BIAS_TARGET_TARGET rfl (by decide))
  exact hx1
  exact hx1

theorem execSw_fr (n : Fin 192) (rs : Fin 32) (ra : Fin 32) (imm : BitVec 16) (s : State) :
    Runs 0x100000000800000000000000000000001400000080000000000000001fe80000010000000000000000200010192030000120000000f00b03c3108ff s (execSw n rs ra imm s) := by
  unfold execSw
  exact (State.runRow_fr ..).mono (by decide)

theorem execVsubsu_fr (n : Fin 192) (w : Bool) (vd : Fin 32) (va : Fin 32) (vb : Fin 32) (s : State) :
    Runs 0x100000000800000000000000000000001400000080000000000000001fe80000010000000000000000200010192030000120000000f00b03c3108ff s (execVsubsu n w vd va vb s) := by
  unfold execVsubsu
  exact (State.runRow_fr ..).mono (by decide)

theorem execVcent_fr (n : Fin 192) (rd : Fin 32) (va : Fin 32) (rb : Fin 32) (s : State) :
    Runs 0x100000000800000000000000000000001400000080000000000000001fe80000010000000000000000200010192030000120000000f00b03c3108ff s (execVcent n rd va rb s) := by
  unfold execVcent
  exact (State.runRow_fr ..).mono (by decide)

theorem execDlAlarm_fr (n : Fin 192) (s : State) : Runs 0x80 s (execDlAlarm n s) := by
  unfold execDlAlarm
  refine .next ?_
  refine .ite ?_ ?_
  refine .call (State.onTiller_fr ..) ?_ (by decide)
  exact .refl ..
  exact .refl ..

theorem State.memActive_fr (s : State) :
    Fr 0x10000000000000000000000000003fe29c0000000000000000000000000000000000000000000000000000000000000000000000000008000600c0b s (State.memActive s) := by
  unfold State.memActive
  refine .ite ?_ ?_
  exact .refl ..
  refine .ite ?_ ?_
  refine .wr ?_ (by decide) (.fld .MEM_STATUS_STATE rfl (by decide))
  refine .wr ?_ (by decide) (.fld .MEM_STATUS_INIT_BUSY rfl (by decide))
  apply Fr.upd <;> first | show Fr _ _ _ | exact .inl rfl | exact .inr rfl | rfl
  exact .refl ..
  refine .ite ?_ ?_
  refine .call (State.srEnter_fr ..) ?_ (by decide)
  exact .refl ..
  exact .refl ..

theorem execTempStale_fr (s : State) : Runs 0x200000000000013 s (execTempStale s) := by
  unfold execTempStale
  refine .next ?_
  lift_lets -underBinder
  intro x1 x2
  refine Fr.have x2 ?_ (fun hx2 => ?_) <;> [unfold x2; clear_value x2]
  refine .ite ?_ ?_
  exact .refl ..
  apply Fr.upd <;> first | show Fr _ _ _ | exact .inl rfl | exact .inr rfl | rfl
  exact .refl ..
  refine .call (State.raiseIf_fr ..) ?_ (by decide)
  refine .wr ?_ (by decide) (.fld .DET_STATUS_TEMP_STALE rfl (by decide))
  exact hx2

theorem execBreakpoint_fr (n : Fin 192) (s : State) :
    Runs 0x800000000000000000000001400000080000000000000001fe80000010000000000000000200010002000000120000000f00b03c1108fb s (execBreakpoint n s) := by
  unfold execBreakpoint
  lift_lets -underBinder
  intro x1
  refine .next ?_
  refine .ite ?_ ?_
  refine .call (State.tilHalt_fr ..) ?_ (by decide)
  exact .refl ..
  exact .refl ..

theorem execVmax_fr (n : Fin 192) (w : Bool) (vd : Fin 32) (va : Fin 32) (vb : Fin 32) (s : State) :
    Runs 0x100000000800000000000000000000001400000080000000000000001fe80000010000000000000000200010192030000120000000f00b03c3108ff s (execVmax n w vd va vb s) := by
  unfold execVmax
  exact (State.runRow_fr ..).mono (by decide)

theorem State.snoopArm_fr (s : State) (channel : Nat) (kindAll : Bool) :
    Fr 0x1e000000000000000000023 s (State.snoopArm s channel kindAll) := by
  unfold State.snoopArm
  refine .ite ?_ ?_
  refine .call (State.cfgReject_fr ..) ?_ (by decide)
  exact .refl ..
  refine .ite ?_ ?_
  refine .put ?_ (by decide) (.fld .TDC_SNOOP_CFG_KIND_ALL rfl (by decide))
  refine .wr ?_ (by decide) (.fld .TDC_SNOOP_CFG_CHANNEL rfl (by decide))
  exact .refl ..
  lift_lets -underBinder
  intro x1 x2
  refine Fr.have x1 ?_ (fun hx1 => ?_) <;> [unfold x1; clear_value x1]
  refine .wr ?_ (by decide) (.fld .TDC_SNOOP_STATUS_FULL rfl (by decide))
  refine .wr ?_ (by decide) (.fld .TDC_SNOOP_STATUS_COUNT rfl (by decide))
  refine .put ?_ (by decide) (.fld .TDC_SNOOP_CFG_KIND_ALL rfl (by decide))
  refine .wr ?_ (by decide) (.fld .TDC_SNOOP_CFG_CHANNEL rfl (by decide))
  exact .refl ..
  apply Fr.upd <;> first | show Fr _ _ _ | exact .inl rfl | exact .inr rfl | rfl
  exact hx1

theorem execSnoopArm_fr (channel : Fin 2048) (kindAll : Bool) (s : State) :
    Runs 0x1000000000000000000000000000000000000000000000000000000000000000000000000000000000000000000000001e00000000000000020002b s (execSnoopArm channel kindAll s) := by
  unfold execSnoopArm
  refine .next ?_
  (with_reducible apply State.access_fr) <;> [skip; skip; decide]
  exact .refl ..
  intro x1
  refine .call (State.snoopArm_fr ..) ?_ (by decide)
  exact .refl ..

theorem execTdcCommitCopy_fr (s : State) : Runs 0x180000000000000000023 s (execTdcCommitCopy s) := by
  unfold execTdcCommitCopy
  refine .next ?_
  refine .ite ?_ ?_
  refine .call (State.tdcCopy_fr ..) ?_ (by decide)
  exact .refl ..
  exact .refl ..

theorem execWrfl_fr (n : Fin 192) (ra : Fin 32) (s : State) :
    Runs 0x100000000800000000000000000000001400000080000000000000001fe80000010000000000000000200010192030000120000000f00b03c3108ff s (execWrfl n ra s) := by
  unfold execWrfl
  exact (State.runRow_fr ..).mono (by decide)

theorem execVrmaxu_fr (n : Fin 192) (w : Bool) (rd : Fin 32) (va : Fin 32) (s : State) :
    Runs 0x100000000800000000000000000000001400000080000000000000001fe80000010000000000000000200010192030000120000000f00b03c3108ff s (execVrmaxu n w rd va s) := by
  unfold execVrmaxu
  exact (State.runRow_fr ..).mono (by decide)

theorem execSelfRefreshEntry_fr (s : State) :
    Runs 0x10000000000000000000000000003fe2941000000000000000000000000000000000000000000000000000000000000000000000000008000600c0b s (execSelfRefreshEntry s) := by
  unfold execSelfRefreshEntry
  refine .next ?_
  (with_reducible apply State.access_fr) <;> [skip; skip; decide]
  exact .refl ..
  intro x1
  refine .call (State.srEnter_fr ..) ?_ (by decide)
  refine .wr ?_ (by decide) (.fld .MEM_CTRL_SR rfl (by decide))
  exact .refl ..

theorem execVrsum_fr (n : Fin 192) (w : Bool) (rd : Fin 32) (va : Fin 32) (s : State) :
    Runs 0x100000000800000000000000000000001400000080000000000000001fe80000010000000000000000200010192030000120000000f00b03c3108ff s (execVrsum n w rd va s) := by
  unfold execVrsum
  exact (State.runRow_fr ..).mono (by decide)

theorem State.tilHaltReq_fr (s : State) (n : Nat) : Fr 0x82 s (State.tilHaltReq s n) := by
  unfold State.tilHaltReq
  split
  exact .refl ..
  refine .call (State.cfgReject_fr ..) ?_ (by decide)
  exact .refl ..
  refine .call (State.onTiller_fr ..) ?_ (by decide)
  exact .refl ..

theorem execHalt_fr (n : Fin 192) (s : State) :
    Runs 0x1000000000000000000000000000000000000000000000000000000000000000000000000000000000000000000000000000000000000000020008b s (execHalt n s) := by
  unfold execHalt
  refine .next ?_
  (with_reducible apply State.access_fr) <;> [skip; skip; decide]
  exact .refl ..
  intro x1
  refine .call (State.tilHaltReq_fr ..) ?_ (by decide)
  exact .refl ..

theorem execMaskCommit_fr (s : State) :
    Runs 0x1000000000000000000000000000000000000000000000000000000000000000000000000000000000000000000000000000000400000000020000b s (execMaskCommit s) := by
  unfold execMaskCommit
  refine .next ?_
  (with_reducible apply State.access_fr) <;> [skip; skip; decide]
  exact .refl ..
  intro x1
  refine .wr ?_ (by decide) (.fld .DET_STATUS_COMMIT_PENDING rfl (by decide))
  exact .refl ..

theorem State.sweepGo_fr (s : State) :
    Fr 0x4000000000000000000000000000000000000000000000000000000000000000000000000000000000000000000403 s (State.sweepGo s) := by
  unfold State.sweepGo
  refine .ite ?_ ?_
  refine .call (State.cfgReject_fr ..) ?_ (by decide)
  exact .refl ..
  refine .ite ?_ ?_
  lift_lets -underBinder
  intro x1 x2
  refine Fr.have x1 ?_ (fun hx1 => ?_) <;> [unfold x1; skip]
  refine .wr ?_ (by decide) (.fld .MEM_TRN_CTRL_BUSY rfl (by decide))
  exact .refl ..
  apply Fr.upd <;> first | show Fr _ _ _ | exact .inl rfl | exact .inr rfl | rfl
  exact hx1
  exact .refl ..

theorem execTrainingSweep_fr (s : State) :
    Runs 0x1000000000000000000000000400000000000000000000000000000000000000000000000000000000000000000000000000000000000000020040b s (execTrainingSweep s) := by
  unfold execTrainingSweep
  refine .next ?_
  (with_reducible apply State.access_fr) <;> [skip; skip; decide]
  exact .refl ..
  intro x1
  refine .call (State.sweepGo_fr ..) ?_ (by decide)
  exact .refl ..

theorem execXori_fr (n : Fin 192) (rd : Fin 32) (ra : Fin 32) (imm : BitVec 16) (s : State) :
    Runs 0x100000000800000000000000000000001400000080000000000000001fe80000010000000000000000200010192030000120000000f00b03c3108ff s (execXori n rd ra imm s) := by
  unfold execXori
  exact (State.runRow_fr ..).mono (by decide)

theorem execImemUeFetch_fr (n : Fin 192) (s : State) :
    Runs 0x100000000800000000000000000000001400000080000000000000001fe80000010000000000000000200010182000000120000000f00b03c3108fb s (execImemUeFetch n s) := by
  unfold execImemUeFetch
  refine .next ?_
  (with_reducible apply State.issue_fr) <;> [skip; skip; decide]
  exact .refl ..
  intro x1
  refine .call (State.imemUE_fr ..) ?_ (by decide)
  refine .call (State.onTiller_fr ..) ?_ (by decide)
  exact .refl ..

theorem execVzxl_fr (n : Fin 192) (vd : Fin 32) (va : Fin 32) (s : State) :
    Runs 0x100000000800000000000000000000001400000080000000000000001fe80000010000000000000000200010192030000120000000f00b03c3108ff s (execVzxl n vd va s) := by
  unfold execVzxl
  exact (State.runRow_fr ..).mono (by decide)

theorem execAdd_fr (n : Fin 192) (rd : Fin 32) (ra : Fin 32) (rb : Fin 32) (s : State) :
    Runs 0x100000000800000000000000000000001400000080000000000000001fe80000010000000000000000200010192030000120000000f00b03c3108ff s (execAdd n rd ra rb s) := by
  unfold execAdd
  exact (State.runRow_fr ..).mono (by decide)

theorem execVsub_fr (n : Fin 192) (w : Bool) (vd : Fin 32) (va : Fin 32) (vb : Fin 32) (s : State) :
    Runs 0x100000000800000000000000000000001400000080000000000000001fe80000010000000000000000200010192030000120000000f00b03c3108ff s (execVsub n w vd va vb s) := by
  unfold execVsub
  exact (State.runRow_fr ..).mono (by decide)

theorem execSrl_fr (n : Fin 192) (rd : Fin 32) (ra : Fin 32) (rb : Fin 32) (s : State) :
    Runs 0x100000000800000000000000000000001400000080000000000000001fe80000010000000000000000200010192030000120000000f00b03c3108ff s (execSrl n rd ra rb s) := by
  unfold execSrl
  exact (State.runRow_fr ..).mono (by decide)

theorem execDivu_fr (n : Fin 192) (rd : Fin 32) (ra : Fin 32) (rb : Fin 32) (s : State) :
    Runs 0x100000000800000000000000000000001400000080000000000000001fe80000010000000000000000200010192030000120000000f00b03c3108ff s (execDivu n rd ra rb s) := by
  unfold execDivu
  exact (State.runRow_fr ..).mono (by decide)

theorem execVcmpeq_fr (n : Fin 192) (w : Bool) (vd : Fin 32) (va : Fin 32) (vb : Fin 32) (s : State) :
    Runs 0x100000000800000000000000000000001400000080000000000000001fe80000010000000000000000200010192030000120000000f00b03c3108ff s (execVcmpeq n w vd va vb s) := by
  unfold execVcmpeq
  exact (State.runRow_fr ..).mono (by decide)

theorem execOr_fr (n : Fin 192) (rd : Fin 32) (ra : Fin 32) (rb : Fin 32) (s : State) :
    Runs 0x100000000800000000000000000000001400000080000000000000001fe80000010000000000000000200010192030000120000000f00b03c3108ff s (execOr n rd ra rb s) := by
  unfold execOr
  exact (State.runRow_fr ..).mono (by decide)

theorem execSlt_fr (n : Fin 192) (rd : Fin 32) (ra : Fin 32) (rb : Fin 32) (s : State) :
    Runs 0x100000000800000000000000000000001400000080000000000000001fe80000010000000000000000200010192030000120000000f00b03c3108ff s (execSlt n rd ra rb s) := by
  unfold execSlt
  exact (State.runRow_fr ..).mono (by decide)

theorem execScrubPassRead_fr (found : Fin 3) (s : State) :
    Runs 0x100000000000000000000000000003e2940000000000000000000000000000000000000000000000000000000000000000000000000008000200403 s (execScrubPassRead found s) := by
  unfold execScrubPassRead
  refine .next ?_
  refine .ite ?_ ?_
  exact .refl ..
  (with_reducible apply State.whenMemory_fr) <;> [skip; skip; decide]
  apply Fr.upd <;> first | show Fr _ _ _ | exact .inl rfl | exact .inr rfl | rfl
  exact .refl ..
  intro x1
  lift_lets -underBinder
  intro x2
  split
  apply Fr.upd <;> first | show Fr _ _ _ | exact .inl rfl | exact .inr rfl | rfl
  with_reducible refine Fr.pair3 (by assumption) ?_
  refine .call (State.readLocal_fr ..) ?_ (by decide)
  refine .call (State.upset_fr ..) ?_ (by decide)
  exact .refl ..

theorem execSlli_fr (til : Fin 192) (rd : Fin 32) (ra : Fin 32) (n : Fin 32) (s : State) :
    Runs 0x100000000800000000000000000000001400000080000000000000001fe80000010000000000000000200010192030000120000000f00b03c3108ff s (execSlli til rd ra n s) := by
  unfold execSlli
  exact (State.runRow_fr ..).mono (by decide)

theorem execSltu_fr (n : Fin 192) (rd : Fin 32) (ra : Fin 32) (rb : Fin 32) (s : State) :
    Runs 0x100000000800000000000000000000001400000080000000000000001fe80000010000000000000000200010192030000120000000f00b03c3108ff s (execSltu n rd ra rb s) := by
  unfold execSltu
  exact (State.runRow_fr ..).mono (by decide)

theorem State.windowWrite_fr (s : State) (sel : List Nat) (ofs : Nat) (bytes : Nat) (data : BitVec 64) :
    Fr 0x82 s (State.windowWrite s sel ofs bytes data) := by
  unfold State.windowWrite
  refine .ite ?_ ?_
  refine .call (State.cfgReject_fr ..) ?_ (by decide)
  exact .refl ..
  lift_lets -underBinder
  intro x1 x2
  refine Fr.have x2 ?_ (fun hx2 => ?_) <;> [unfold x2; clear_value x2]
  with_reducible apply Fr.foldl
  exact .refl ..
  intro x3 x4
  split
  refine .call (State.setTiller_fr ..) ?_ (by decide)
  exact .refl ..
  exact .refl ..
  refine .ite ?_ ?_
  refine .call (State.cfgReject_fr ..) ?_ (by decide)
  exact hx2
  exact hx2

theorem execTillerMemoryWrite_fr (n : Fin 192) (ofs : Nat) (bytes : Nat) (data : BitVec 64) (s : State) :
    Runs 0x1000000000000000000000000000000000000000000000000000000000000000000000000000000000000000000000000000000000000000020008b s (execTillerMemoryWrite n ofs bytes data s) := by
  unfold execTillerMemoryWrite
  refine .next ?_
  (with_reducible apply State.access_fr) <;> [skip; skip; decide]
  exact .refl ..
  intro x1
  refine .call (State.windowWrite_fr ..) ?_ (by decide)
  exact .refl ..

theorem execCounterClearAll_fr (s : State) :
    Runs 0x1000000000000000000000000000000000000000000000000000000000000000000000000000000000000000000000000000000000000000020002b s (execCounterClearAll s) := by
  unfold execCounterClearAll
  refine .next ?_
  (with_reducible apply State.access_fr) <;> [skip; skip; decide]
  exact .refl ..
  intro x1
  apply Fr.upd <;> first | show Fr _ _ _ | exact .inl rfl | exact .inr rfl | rfl
  exact .refl ..

theorem execVand_fr (n : Fin 192) (w : Bool) (vd : Fin 32) (va : Fin 32) (vb : Fin 32) (s : State) :
    Runs 0x100000000800000000000000000000001400000080000000000000001fe80000010000000000000000200010192030000120000000f00b03c3108ff s (execVand n w vd va vb s) := by
  unfold execVand
  exact (State.runRow_fr ..).mono (by decide)

theorem State.testSource_fr (s : State) (src : Nat) : Fr 0x1200000000000000000023 s (State.testSource s src) := by
  unfold State.testSource
  refine .ite ?_ ?_
  refine .call (State.cfgReject_fr ..) ?_ (by decide)
  exact .refl ..
  refine .ite ?_ ?_
  refine .call (State.cfgReject_fr ..) ?_ (by decide)
  exact .refl ..
  lift_lets -underBinder
  intro x1 x2
  refine Fr.have x1 ?_ (fun hx1 => ?_) <;> [unfold x1; clear_value x1]
  refine .wr ?_ (by decide) (.fld .TDC_STATUS_TEST_ACTIVE rfl (by decide))
  refine .wr ?_ (by decide) (.fld .TDC_TEST_CFG_SRC rfl (by decide))
  exact .refl ..
  apply Fr.upd <;> first | show Fr _ _ _ | exact .inl rfl | exact .inr rfl | rfl
  exact hx1

theorem execTestSourceSelect_fr (src : Fin 4) (s : State) :
    Runs 0x1000000000000000000000000000000000000000000000000000000000000000000000000000000000000000000000000120000000000000020002b s (execTestSourceSelect src s) := by
  unfold execTestSourceSelect
  refine .next ?_
  (with_reducible apply State.access_fr) <;> [skip; skip; decide]
  exact .refl ..
  intro x1
  refine .call (State.testSource_fr ..) ?_ (by decide)
  exact .refl ..

theorem execBiasMonitorClear_fr (high : Bool) (s : State) : Runs 0x1800000000000001 s (execBiasMonitorClear high s) := by
  unfold execBiasMonitorClear
  refine .next ?_
  refine .ite ?_ ?_
  exact .refl ..
  refine .wr ?_ (by decide) (.ite (.fld .DET_STATUS_BIAS_HIGH rfl (by decide)) (.fld .DET_STATUS_BIAS_LOW rfl (by decide)))
  exact .refl ..

theorem execTdcCommit_fr (s : State) :
    Runs 0x1000000000000000000000000000000000000000000000000000000000000000000000000000000000000000000000000010000000000000020000b s (execTdcCommit s) := by
  unfold execTdcCommit
  refine .next ?_
  (with_reducible apply State.access_fr) <;> [skip; skip; decide]
  exact .refl ..
  intro x1
  refine .wr ?_ (by decide) (.fld .TDC_STATUS_COMMIT_PENDING rfl (by decide))
  exact .refl ..

theorem State.writePc_fr (s : State) (n : Nat) (w : Word) : Fr 0x82 s (State.writePc s n w) := by
  unfold State.writePc
  refine .ite ?_ ?_
  refine .call (State.cfgReject_fr ..) ?_ (by decide)
  exact .refl ..
  refine .ite ?_ ?_
  refine .call (State.onTiller_fr ..) ?_ (by decide)
  exact .refl ..
  refine .call (State.cfgReject_fr ..) ?_ (by decide)
  exact .refl ..

theorem execTilPcWrite_fr (n : Fin 192) (w : Word) (s : State) :
    Runs 0x1000000000000000000000000000000000000000000000000000000000000000000000000000000000000000000000000000000000000000020008b s (execTilPcWrite n w s) := by
  unfold execTilPcWrite
  refine .next ?_
  (with_reducible apply State.access_fr) <;> [skip; skip; decide]
  exact .refl ..
  intro x1
  refine .call (State.writePc_fr ..) ?_ (by decide)
  exact .refl ..

theorem execProbeStart_fr (s : State) :
    Runs 0x1000000000000000000000000000000000000000000000000000000000000000000000000000000000000000000000000000000800000000020001b s (execProbeStart s) := by
  unfold execProbeStart
  refine .next ?_
  (with_reducible apply State.access_fr) <;> [skip; skip; decide]
  exact .refl ..
  intro x1
  refine .call (State.probeStart_fr ..) ?_ (by decide)
  exact .refl ..

theorem execXor_fr (n : Fin 192) (rd : Fin 32) (ra : Fin 32) (rb : Fin 32) (s : State) :
    Runs 0x100000000800000000000000000000001400000080000000000000001fe80000010000000000000000200010192030000120000000f00b03c3108ff s (execXor n rd ra rb s) := by
  unfold execXor
  exact (State.runRow_fr ..).mono (by decide)

theorem State.mrCommand_fr (s : State) (read : Bool) (ch : Nat) (rank : Bool) (ma : Nat) (op : Nat) :
    Fr 0x1f80000000000000000000000000000000000000000000000000000000000000000000000000000000000000000003 s (State.mrCommand s read ch rank ma op) := by
  unfold State.mrCommand
  refine .ite ?_ ?_
  refine .call (State.cfgReject_fr ..) ?_ (by decide)
  exact .refl ..
  refine .wr ?_ (by decide) (.fld .MEM_MR_CMD_BUSY rfl (by decide))
  refine .wr ?_ (by decide) (.fld .MEM_MR_CMD_OP rfl (by decide))
  refine .wr ?_ (by decide) (.fld .MEM_MR_CMD_MA rfl (by decide))
  refine .put ?_ (by decide) (.fld .MEM_MR_CMD_RANK rfl (by decide))
  refine .wr ?_ (by decide) (.fld .MEM_MR_CMD_CH rfl (by decide))
  refine .put ?_ (by decide) (.fld .MEM_MR_CMD_READ rfl (by decide))
  exact .refl ..

theorem execMrCommand_fr (read : Bool) (ch : Fin 4) (rank : Bool) (ma : Byte) (op : Byte) (s : State) :
    Runs 0x10000000000000000000000001f8000000000000000000000000000000000000000000000000000000000000000000000000000000000000020000b s (execMrCommand read ch rank ma op s) := by
  unfold execMrCommand
  refine .next ?_
  (with_reducible apply State.access_fr) <;> [skip; skip; decide]
  exact .refl ..
  intro x1
  refine .call (State.mrCommand_fr ..) ?_ (by decide)
  exact .refl ..

theorem execMin_fr (n : Fin 192) (rd : Fin 32) (ra : Fin 32) (rb : Fin 32) (s : State) :
    Runs 0x100000000800000000000000000000001400000080000000000000001fe80000010000000000000000200010192030000120000000f00b03c3108ff s (execMin n rd ra rb s) := by
  unfold execMin
  exact (State.runRow_fr ..).mono (by decide)

theorem execVadd_fr (n : Fin 192) (w : Bool) (vd : Fin 32) (va : Fin 32) (vb : Fin 32) (s : State) :
    Runs 0x100000000800000000000000000000001400000080000000000000001fe80000010000000000000000200010192030000120000000f00b03c3108ff s (execVadd n w vd va vb s) := by
  unfold execVadd
  exact (State.runRow_fr ..).mono (by decide)

theorem execNop_fr (n : Fin 192) (s : State) :
    Runs 0x100000000800000000000000000000001400000080000000000000001fe80000010000000000000000200010192030000120000000f00b03c3108ff s (execNop n s) := by
  unfold execNop
  exact (State.runRow_fr ..).mono (by decide)

theorem execPopc_fr (n : Fin 192) (rd : Fin 32) (ra : Fin 32) (s : State) :
    Runs 0x100000000800000000000000000000001400000080000000000000001fe80000010000000000000000200010192030000120000000f00b03c3108ff s (execPopc n rd ra s) := by
  unfold execPopc
  exact (State.runRow_fr ..).mono (by decide)

theorem State.trimClamped_fr (s : State) (c : Bool) : Fr 0x80002 s (State.trimClamped s c) := by
  unfold State.trimClamped
  refine .ite ?_ ?_
  refine .call (State.raise_fr ..) ?_ (by decide)
  apply Fr.upd <;> first | show Fr _ _ _ | exact .inl rfl | exact .inr rfl | rfl
  exact .refl ..
  exact .refl ..

theorem execBiasSettled_fr (s : State) : Runs 0x2000000000000013 s (execBiasSettled s) := by
  unfold execBiasSettled
  refine .next ?_
  refine .ite ?_ ?_
  refine .call (State.raise_fr ..) ?_ (by decide)
  lift_lets -underBinder
  intro x1 x2
  refine Fr.have x1 ?_ (fun hx1 => ?_) <;> [unfold x1; clear_value x1]
  refine .wr ?_ (by decide) (.fld .DET_STATUS_BIAS_SETTLED rfl (by decide))
  exact .refl ..
  apply Fr.upd <;> first | show Fr _ _ _ | exact .inl rfl | exact .inr rfl | rfl
  exact hx1
  exact .refl ..

theorem execVext_fr (n : Fin 192) (w : Bool) (rd : Fin 32) (va : Fin 32) (lane : Fin 8) (s : State) :
    Runs 0x100000000800000000000000000000001400000080000000000000001fe80000010000000000000000200010192030000120000000f00b03c3108ff s (execVext n w rd va lane s) := by
  unfold execVext
  exact (State.runRow_fr ..).mono (by decide)

theorem State.surveyNext_fr (s : State) : Fr 0x608000000000040013 s (State.surveyNext s) := by
  unfold State.surveyNext
  refine .ite ?_ ?_
  exact .refl ..
  split
  refine .call (State.surveyProbe_fr ..) ?_ (by decide)
  exact .refl ..
  refine .ite ?_ ?_
  lift_lets -underBinder
  intro x1 x2
  refine .call (State.surveyProbe_fr ..) ?_ (by decide)
  apply Fr.upd <;> first | show Fr _ _ _ | exact .inl rfl | exact .inr rfl | rfl
  exact .refl ..
  exact .refl ..

theorem execProbeGateEnd_fr (s : State) : Runs 0xe08000000000040013 s (execProbeGateEnd s) := by
  unfold execProbeGateEnd
  refine .next ?_
  refine .ite ?_ ?_
  refine .call (State.surveyNext_fr ..) ?_ (by decide)
  refine .call (State.raise_fr ..) ?_ (by decide)
  refine .wr ?_ (by decide) (.fld .DET_PROBE_COUNT_COUNT rfl (by decide))
  refine .wr ?_ (by decide) (.fld .DET_STATUS_PROBE_BUSY rfl (by decide))
  exact .refl ..
  exact .refl ..

theorem execScrubRead_fr (n : Fin 192) (found : Fin 3) (s : State) :
    Runs 0x1820000000000000000000000000083 s (execScrubRead n found s) := by
  unfold execScrubRead
  refine .next ?_
  refine .ite ?_ ?_
  exact .refl ..
  lift_lets -underBinder
  intro x1 x2 x3 x4 x5 x6 x7 x8 x9
  refine Fr.have x9 ?_ (fun hx9 => ?_) <;> [unfold x9; clear_value x9]
  refine .call (State.setTiller_fr ..) ?_ (by decide)
  exact .refl ..
  dsimp +zetaDelta -zeta only
  split
  refine .call (State.tilCE_fr ..) ?_ (by decide)
  refine .call (State.onTiller_fr ..) ?_ (by decide)
  exact hx9
  refine .call (State.tilCause_fr ..) ?_ (by decide)
  refine .call (State.tilUE_fr ..) ?_ (by decide)
  exact hx9
  exact hx9

theorem execVcmpgt_fr (n : Fin 192) (w : Bool) (vd : Fin 32) (va : Fin 32) (vb : Fin 32) (s : State) :
    Runs 0x100000000800000000000000000000001400000080000000000000001fe80000010000000000000000200010192030000120000000f00b03c3108ff s (execVcmpgt n w vd va vb s) := by
  unfold execVcmpgt
  exact (State.runRow_fr ..).mono (by decide)

theorem State.windowWord_fr (s : State) (n : Nat) (ofs : Nat) : Fr 0x1820000000000000000000000000087 s (State.windowWord s n ofs).2 := by
  unfold State.windowWord
  lift_lets -underBinder
  intro x1 x2 x3 x4
  split
  with_reducible apply Fr.ite2
  dsimp +zetaDelta -zeta only
  with_reducible refine Fr.pair (by assumption) ?_
  with_reducible apply Fr.ite2
  split
  dsimp +zetaDelta -zeta only
  with_reducible refine Fr.pair (by assumption) ?_
  refine .call (State.drawFree_fr ..) ?_ (by decide)
  exact .refl ..
  dsimp +zetaDelta -zeta only
  exact .refl ..
  split
  lift_lets -underBinder
  intro x5
  dsimp +zetaDelta -zeta only
  refine .call (State.tilCE_fr ..) ?_ (by decide)
  refine .call (State.setTiller_fr ..) ?_ (by decide)
  with_reducible refine Fr.pair (by assumption) ?_
  with_reducible apply Fr.ite2
  split
  dsimp +zetaDelta -zeta only
  with_reducible refine Fr.pair (by assumption) ?_
  refine .call (State.drawFree_fr ..) ?_ (by decide)
  exact .refl ..
  dsimp +zetaDelta -zeta only
  exact .refl ..
  dsimp +zetaDelta -zeta only
  refine .call (State.tilUE_fr ..) ?_ (by decide)
  with_reducible refine Fr.pair (by assumption) ?_
  with_reducible apply Fr.ite2
  split
  dsimp +zetaDelta -zeta only
  with_reducible refine Fr.pair (by assumption) ?_
  refine .call (State.drawFree_fr ..) ?_ (by decide)
  exact .refl ..
  dsimp +zetaDelta -zeta only
  exact .refl ..
  dsimp +zetaDelta -zeta only
  with_reducible refine Fr.pair (by assumption) ?_
  with_reducible apply Fr.ite2
  split
  dsimp +zetaDelta -zeta only
  with_reducible refine Fr.pair (by assumption) ?_
  refine .call (State.drawFree_fr ..) ?_ (by decide)
  exact .refl ..
  dsimp +zetaDelta -zeta only
  exact .refl ..

theorem State.answerRead_fr (s : State) (v : Nat) : Fr 0x8 s (State.answerRead s v) := by
  unfold State.answerRead
  apply Fr.upd <;> first | show Fr _ _ _ | exact .inl rfl | exact .inr rfl | rfl
  exact .refl ..

theorem State.windowRead_fr (s : State) (n : Nat) (ofs : Nat) (bytes : Nat) :
    Fr 0x182000000000000000000000000008f s (State.windowRead s n ofs bytes) := by
  unfold State.windowRead
  refine .ite ?_ ?_
  refine .call (State.cfgReject_fr ..) ?_ (by decide)
  refine .call (State.answerRead_fr ..) ?_ (by decide)
  exact .refl ..
  refine .ite ?_ ?_
  refine .call (State.cfgReject_fr ..) ?_ (by decide)
  refine .call (State.answerRead_fr ..) ?_ (by decide)
  exact .refl ..
  refine .ite ?_ ?_
  split
  split
  refine .call (State.answerRead_fr ..) ?_ (by decide)
  with_reducible refine Fr.pair (by assumption) ?_
  refine .call (State.windowWord_fr ..) ?_ (by decide)
  with_reducible refine Fr.pair (by assumption) ?_
  refine .call (State.windowWord_fr ..) ?_ (by decide)
  exact .refl ..
  split
  refine .call (State.answerRead_fr ..) ?_ (by decide)
  with_reducible refine Fr.pair (by assumption) ?_
  refine .call (State.windowWord_fr ..) ?_ (by decide)
  exact .refl ..

theorem execTillerMemoryRead_fr (n : Fin 192) (ofs : Nat) (bytes : Nat) (s : State) :
    Runs 0x1000000000000000000000000000000000000000000000000000000000000000000000000000000000000000182000000000000000000000020008f s (execTillerMemoryRead n ofs bytes s) := by
  unfold execTillerMemoryRead
  refine .next ?_
  (with_reducible apply State.access_fr) <;> [skip; skip; decide]
  exact .refl ..
  intro x1
  refine .call (State.windowRead_fr ..) ?_ (by decide)
  exact .refl ..

theorem State.hotFlapRelease_fr (s : State) :
    Fr 0x20000000000000000000000000000000000000000000000000000000000000000000000000000000000401 s (State.hotFlapRelease s) := by
  unfold State.hotFlapRelease
  lift_lets -underBinder
  intro x1 x2
  refine Fr.have x1 ?_ (fun hx1 => ?_) <;> [unfold x1; skip]
  refine .wr ?_ (by decide) (.fld .MEM_STATUS_HOT_FLAP rfl (by decide))
  exact .refl ..
  apply Fr.upd <;> first | show Fr _ _ _ | exact .inl rfl | exact .inr rfl | rfl
  exact hx1

theorem execHotFlapRelease_fr (s : State) :
    Runs 0x1000000000000000000000000000000002000000000000000000000000000000000000000000000000000000000000000000000000000000020040b s (execHotFlapRelease s) := by
  unfold execHotFlapRelease
  refine .next ?_
  (with_reducible apply State.access_fr) <;> [skip; skip; decide]
  exact .refl ..
  intro x1
  refine .call (State.hotFlapRelease_fr ..) ?_ (by decide)
  exact .refl ..

theorem execVsel_fr (n : Fin 192) (vd : Fin 32) (va : Fin 32) (vb : Fin 32) (s : State) :
    Runs 0x100000000800000000000000000000001400000080000000000000001fe80000010000000000000000200010192030000120000000f00b03c3108ff s (execVsel n vd va vb s) := by
  unfold execVsel
  exact (State.runRow_fr ..).mono (by decide)

theorem execSrli_fr (til : Fin 192) (rd : Fin 32) (ra : Fin 32) (n : Fin 32) (s : State) :
    Runs 0x100000000800000000000000000000001400000080000000000000001fe80000010000000000000000200010192030000120000000f00b03c3108ff s (execSrli til rd ra n s) := by
  unfold execSrli
  exact (State.runRow_fr ..).mono (by decide)

theorem execMax_fr (n : Fin 192) (rd : Fin 32) (ra : Fin 32) (rb : Fin 32) (s : State) :
    Runs 0x100000000800000000000000000000001400000080000000000000001fe80000010000000000000000200010192030000120000000f00b03c3108ff s (execMax n rd ra rb s) := by
  unfold execMax
  exact (State.runRow_fr ..).mono (by decide)

theorem State.clearMonitor_fr (s : State) : Fr 0x1800000000000001 s (State.clearMonitor s) := by
  unfold State.clearMonitor
  refine .put ?_ (by decide) (.fld .DET_STATUS_BIAS_HIGH rfl (by decide))
  refine .put ?_ (by decide) (.fld .DET_STATUS_BIAS_LOW rfl (by decide))
  exact .refl ..

theorem State.biasDisable_fr (s : State) : Fr 0x23880000000000011 s (State.biasDisable s) := by
  unfold State.biasDisable
  lift_lets -underBinder
  intro x1 x2
  refine Fr.have x1 ?_ (fun hx1 => ?_) <;> [unfold x1; clear_value x1]
  refine .wr ?_ (by decide) (.fld .DET_STATUS_BIAS_SETTLED rfl (by decide))
  refine .wr ?_ (by decide) (.fld .DET_BIAS_STATUS_VHV_SET_CODE rfl (by decide))
  refine .wr ?_ (by decide) (.fld .DET_CTRL_BIAS_EN rfl (by decide))
  exact .refl ..
  refine .call (State.clearMonitor_fr ..) ?_ (by decide)
  apply Fr.upd <;> first | show Fr _ _ _ | exact .inl rfl | exact .inr rfl | rfl
  exact hx1

theorem State.biasFlapRelease_fr (s : State) : Fr 0x1900000000000011 s (State.biasFlapRelease s) := by
  unfold State.biasFlapRelease
  lift_lets -underBinder
  intro x1 x2 x3
  refine Fr.have x1 ?_ (fun hx1 => ?_) <;> [unfold x1; clear_value x1]
  refine .wr ?_ (by decide) (.fld .DET_STATUS_BIAS_FLAP rfl (by decide))
  exact .refl ..
  refine Fr.have x3 ?_ (fun hx3 => ?_) <;> [unfold x3; clear_value x3]
  apply Fr.upd <;> first | show Fr _ _ _ | exact .inl rfl | exact .inr rfl | rfl
  exact hx1
  refine .ite ?_ ?_
  exact hx3
  refine .call (State.clearMonitor_fr ..) ?_ (by decide)
  exact hx3

theorem State.fetchRun_fr (s : State) (n : Nat) (t : Nat) :
    Fr 0x100000000800000000000000000000001400000080000000000000001fe80000010000000000000000200010192030000120000000f00b03c3108ff s (State.fetchRun s n t) := by
  unfold State.fetchRun
  lift_lets -underBinder
  intro x1
  split
  refine .call (runOp_fr ..) ?_ (by decide)
  exact .refl ..
  refine .call (State.trap_fr ..) ?_ (by decide)
  exact .refl ..

theorem State.groupHalt_fr (s : State) : Fr 0x82 s (State.groupHalt s) := by
  unfold State.groupHalt
  lift_lets -underBinder
  intro x1 x2
  refine Fr.have x2 ?_ (fun hx2 => ?_) <;> [unfold x2; clear_value x2]
  with_reducible apply Fr.forN
  exact .refl ..
  intro x3 x4
  refine .ite ?_ ?_
  refine .call (State.tilHaltReq_fr ..) ?_ (by decide)
  exact .refl ..
  exact .refl ..
  refine .ite ?_ ?_
  refine .call (State.cfgReject_fr ..) ?_ (by decide)
  exact hx2
  exact hx2

theorem State.tilInit_fr (s : State) (n : Nat) :
    Fr 0x800000000000000000000001400000080000000000000001fe80000010000000000000000200010000000000120000000f00b03c1108fb s (State.tilInit s n) := by
  unfold State.tilInit
  refine .ite ?_ ?_
  refine .call (State.derateCheck_fr ..) ?_ (by decide)
  refine .call (State.onTiller_fr ..) ?_ (by decide)
  exact .refl ..
  refine .call (State.cfgReject_fr ..) ?_ (by decide)
  exact .refl ..

theorem State.memInit_fr (s : State) :
    Fr 0x1c0000000000000000000000000000000000000000000000000000000000000000000000000008000000403 s (State.memInit s) := by
  unfold State.memInit
  refine .ite ?_ ?_
  refine .ite ?_ ?_
  refine .wr ?_ (by decide) (.fld .MEM_STATUS_STATE rfl (by decide))
  refine .wr ?_ (by decide) (.fld .MEM_STATUS_INIT_BUSY rfl (by decide))
  exact .refl ..
  refine .ite ?_ ?_
  exact .refl ..
  refine .call (State.memWake_fr ..) ?_ (by decide)
  apply Fr.upd <;> first | show Fr _ _ _ | exact .inl rfl | exact .inr rfl | rfl
  exact .refl ..
  refine .call (State.cfgReject_fr ..) ?_ (by decide)
  exact .refl ..

theorem State.panicFlapRelease_fr (s : State) (p : Nat) :
    Fr 0x400000000000000000000000000000000000000000000000000000000000000000000000000000000000401 s (State.panicFlapRelease s p) := by
  unfold State.panicFlapRelease
  lift_lets -underBinder
  intro x1 x2
  refine Fr.have x1 ?_ (fun hx1 => ?_) <;> [unfold x1; skip]
  refine .wr ?_ (by decide) (.arr .MEM_PORT_STATUS_FLAP rfl (by decide))
  exact .refl ..
  apply Fr.upd <;> first | show Fr _ _ _ | exact .inl rfl | exact .inr rfl | rfl
  exact hx1

theorem State.lastCycle_fr (s : State) : Fr 0x40 s (State.lastCycle s) := by
  unfold State.lastCycle
  refine .ite ?_ ?_
  apply Fr.upd <;> first | show Fr _ _ _ | exact .inl rfl | exact .inr rfl | rfl
  exact .refl ..
  exact .refl ..

theorem execRemu_fr (n : Fin 192) (rd : Fin 32) (ra : Fin 32) (rb : Fin 32) (s : State) :
    Runs 0x100000000800000000000000000000001400000080000000000000001fe80000010000000000000000200010192030000120000000f00b03c3108ff s (execRemu n rd ra rb s) := by
  unfold execRemu
  exact (State.runRow_fr ..).mono (by decide)

theorem execSll_fr (n : Fin 192) (rd : Fin 32) (ra : Fin 32) (rb : Fin 32) (s : State) :
    Runs 0x100000000800000000000000000000001400000080000000000000001fe80000010000000000000000200010192030000120000000f00b03c3108ff s (execSll n rd ra rb s) := by
  unfold execSll
  exact (State.runRow_fr ..).mono (by decide)

theorem execExtu_fr (n : Fin 192) (rd : Fin 32) (ra : Fin 32) (pos : Fin 32) (width : Fin 32) (s : State) :
    Runs 0x100000000800000000000000000000001400000080000000000000001fe80000010000000000000000200010192030000120000000f00b03c3108ff s (execExtu n rd ra pos width s) := by
  unfold execExtu
  exact (State.runRow_fr ..).mono (by decide)

theorem execMulhu_fr (n : Fin 192) (rd : Fin 32) (ra : Fin 32) (rb : Fin 32) (s : State) :
    Runs 0x100000000800000000000000000000001400000080000000000000001fe80000010000000000000000200010192030000120000000f00b03c3108ff s (execMulhu n rd ra rb s) := by
  unfold execMulhu
  exact (State.runRow_fr ..).mono (by decide)

theorem execCmpi_fr (n : Fin 192) (ra : Fin 32) (imm : BitVec 16) (s : State) :
    Runs 0x100000000800000000000000000000001400000080000000000000001fe80000010000000000000000200010192030000120000000f00b03c3108ff s (execCmpi n ra imm s) := by
  unfold execCmpi
  exact (State.runRow_fr ..).mono (by decide)

theorem execLogbookEntryProgram_fr (s : State) :
    Runs 0x10080000000000000000000000000000000000000000000000000000000000000000000000000000000000000000000000000000000000000b00003 s (execLogbookEntryProgram s) := by
  unfold execLogbookEntryProgram
  refine .next ?_
  split
  exact .refl ..
  lift_lets -underBinder
  intro x1 x2 x3 x4 x5 x6
  refine Fr.have x3 ?_ (fun hx3 => ?_) <;> [unfold x3; clear_value x3]
  refine .ite ?_ ?_
  refine .call (State.flashErase_fr ..) ?_ (by decide)
  exact .refl ..
  exact .refl ..
  refine Fr.have x4 ?_ (fun hx4 => ?_) <;> [unfold x4; clear_value x4]
  refine .call (State.flashWrite_fr ..) ?_ (by decide)
  exact hx3
  refine Fr.have x6 ?_ (fun hx6 => ?_) <;> [unfold x6; clear_value x6]
  apply Fr.upd <;> first | show Fr _ _ _ | exact .inl rfl | exact .inr rfl | rfl
  exact hx4
  refine .ite ?_ ?_
  exact .refl ..
  refine .call (State.count_fr ..) ?_ (by decide)
  refine .wr ?_ (by decide) (.fld .BOOT_LOG_INDEX_NEXT rfl (by decide))
  exact hx6

theorem execBiasTargetRecompute_fr (s : State) : Runs 0x80600000000080013 s (execBiasTargetRecompute s) := by
  unfold execBiasTargetRecompute
  refine .next ?_
  lift_lets -underBinder
  intro x1 x2 x3 x4 x5 x6 x7 x8 x9 x10
  refine Fr.have x3 ?_ (fun hx3 => ?_) <;> [unfold x3; clear_value x3]
  refine .call (State.raiseIf_fr ..) ?_ (by decide)
  refine .put ?_ (by decide) (.fld .DET_STATUS_TEMP_STALE rfl (by decide))
  exact .refl ..
  refine Fr.have x4 ?_ (fun hx4 => ?_) <;> [unfold x4; clear_value x4]
  refine .ite ?_ ?_
  exact hx3
  refine .wrS ?_ (by decide) (.fld .DET_BIAS_TARGET_TDET rfl (by decide))
  exact hx3
  refine Fr.have x9 ?_ (fun hx9 => ?_) <;> [unfold x9; clear_value x9]
  refine .call (State.trimClamped_fr ..) ?_ (by decide)
  refine .call (State.raiseIf_fr ..) ?_ (by decide)
  refine .put ?_ (by decide) (.fld .DET_STATUS_BIAS_LIMIT rfl (by decide))
  exact hx4
  apply Fr.upd <;> first | show Fr _ _ _ | exact .inl rfl | exact .inr rfl | rfl
  exact hx9

theorem execVxor_fr (n : Fin 192) (w : Bool) (vd : Fin 32) (va : Fin 32) (vb : Fin 32) (s : State) :
    Runs 0x100000000800000000000000000000001400000080000000000000001fe80000010000000000000000200010192030000120000000f00b03c3108ff s (execVxor n w vd va vb s) := by
  unfold execVxor
  exact (State.runRow_fr ..).mono (by decide)

theorem State.snoopWord_fr (s : State) (c : Nat) (w : Word) (raw : Word) : Fr 0x18000000000000000000023 s (State.snoopWord s c w raw) := by
  unfold State.snoopWord
  refine .ite ?_ ?_
  lift_lets -underBinder
  intro x1 x2 x3 x4
  refine Fr.have x3 ?_ (fun hx3 => ?_) <;> [unfold x3; clear_value x3]
  refine .put ?_ (by decide) (.fld .TDC_SNOOP_STATUS_FULL rfl (by decide))
  refine .wr ?_ (by decide) (.fld .TDC_SNOOP_STATUS_COUNT rfl (by decide))
  exact .refl ..
  refine .call (State.raiseIf_fr ..) ?_ (by decide)
  apply Fr.upd <;> first | show Fr _ _ _ | exact .inl rfl | exact .inr rfl | rfl
  exact hx3
  exact .refl ..

theorem State.pushWord_fr (s : State) (c : Nat) (w : Word) (cyc : Nat) :
    Fr 0x10000000000000000000000000000000000000000000000000000000000000000000000000000000000000000000000040000000000000000200063 s (State.pushWord s c w cyc) := by
  unfold State.pushWord
  lift_lets -underBinder
  intro x1 x2 x3 x4 x5 x6
  refine Fr.have x4 ?_ (fun hx4 => ?_) <;> [unfold x4; clear_value x4]
  apply Fr.upd <;> first | show Fr _ _ _ | exact .inl rfl | exact .inr rfl | rfl
  exact .refl ..
  refine Fr.have x5 ?_ (fun hx5 => ?_) <;> [unfold x5; clear_value x5]
  refine .call (State.flagLane_fr ..) ?_ (by decide)
  refine .call (State.count_fr ..) ?_ (by decide)
  refine .bump ?_ (by decide) (.arr .TDC_QDROP_COUNT rfl (by decide))
  exact hx4
  refine .ite ?_ ?_
  exact hx4
  refine .ite ?_ ?_
  exact hx5
  refine .call (State.raise_fr ..) ?_ (by decide)
  apply Fr.upd <;> first | show Fr _ _ _ | exact .inl rfl | exact .inr rfl | rfl
  exact hx5

theorem State.sendInvalid_fr (s : State) (col : Nat) :
    Fr 0x10000000000000000000000000000000000000000000000000000000000000000000000000000000000000000000000058000000000000000200067 s (State.sendInvalid s col) := by
  unfold State.sendInvalid
  split
  refine .ite ?_ ?_
  exact .refl ..
  lift_lets -underBinder
  intro x1 x2
  refine Fr.have x2 ?_ (fun hx2 => ?_) <;> [unfold x2; clear_value x2]
  apply Fr.upd <;> first | show Fr _ _ _ | exact .inl rfl | exact .inr rfl | rfl
  exact .refl ..
  with_reducible apply Fr.forN
  exact hx2
  intro x3 x4
  lift_lets -underBinder
  intro x5 x6
  split
  lift_lets -underBinder
  intro x7
  refine Fr.have x7 ?_ (fun hx7 => ?_) <;> [unfold x7; clear_value x7]
  refine .ite ?_ ?_
  refine .call (State.pushWord_fr ..) ?_ (by decide)
  refine .call (State.snoopWord_fr ..) ?_ (by decide)
  with_reducible refine Fr.pair (by assumption) ?_
  refine .call (State.drawFree_fr ..) ?_ (by decide)
  exact .refl ..
  with_reducible refine Fr.pair (by assumption) ?_
  refine .call (State.drawFree_fr ..) ?_ (by decide)
  exact .refl ..
  refine .call (State.flagLane_fr ..) ?_ (by decide)
  exact hx7
  exact .refl ..

theorem State.invalidMarkers_fr (s : State) :
    Fr 0x10000000000000000000000000000000000000000000000000000000000000000000000000000000000000000000000058000000000000000200067 s (State.invalidMarkers s) := by
  unfold State.invalidMarkers
  with_reducible apply Fr.forN
  exact .refl ..
  intro x1 x2
  refine .ite ?_ ?_
  exact .refl ..
  refine .call (State.sendInvalid_fr ..) ?_ (by decide)
  exact .refl ..

theorem execAdds_fr (n : Fin 192) (rd : Fin 32) (ra : Fin 32) (rb : Fin 32) (s : State) :
    Runs 0x100000000800000000000000000000001400000080000000000000001fe80000010000000000000000200010192030000120000000f00b03c3108ff s (execAdds n rd ra rb s) := by
  unfold execAdds
  exact (State.runRow_fr ..).mono (by decide)

theorem execSlti_fr (n : Fin 192) (rd : Fin 32) (ra : Fin 32) (imm : BitVec 16) (s : State) :
    Runs 0x100000000800000000000000000000001400000080000000000000001fe80000010000000000000000200010192030000120000000f00b03c3108ff s (execSlti n rd ra imm s) := by
  unfold execSlti
  exact (State.runRow_fr ..).mono (by decide)

theorem execMul_fr (n : Fin 192) (rd : Fin 32) (ra : Fin 32) (rb : Fin 32) (s : State) :
    Runs 0x100000000800000000000000000000001400000080000000000000001fe80000010000000000000000200010192030000120000000f00b03c3108ff s (execMul n rd ra rb s) := by
  unfold execMul
  exact (State.runRow_fr ..).mono (by decide)

theorem execBiasFlapRelease_fr (s : State) :
    Runs 0x1000000000000000000000000000000000000000000000000000000000000000000000000000000000000000000000000000000190000000020001b s (execBiasFlapRelease s) := by
  unfold execBiasFlapRelease
  refine .next ?_
  (with_reducible apply State.access_fr) <;> [skip; skip; decide]
  exact .refl ..
  intro x1
  refine .call (State.biasFlapRelease_fr ..) ?_ (by decide)
  exact .refl ..

theorem execTst_fr (n : Fin 192) (ra : Fin 32) (rb : Fin 32) (s : State) :
    Runs 0x100000000800000000000000000000001400000080000000000000001fe80000010000000000000000200010192030000120000000f00b03c3108ff s (execTst n ra rb s) := by
  unfold execTst
  exact (State.runRow_fr ..).mono (by decide)

theorem execVmaxs_fr (n : Fin 192) (w : Bool) (vd : Fin 32) (va : Fin 32) (vb : Fin 32) (s : State) :
    Runs 0x100000000800000000000000000000001400000080000000000000001fe80000010000000000000000200010192030000120000000f00b03c3108ff s (execVmaxs n w vd va vb s) := by
  unfold execVmaxs
  exact (State.runRow_fr ..).mono (by decide)

theorem execHotspotWindow_fr (ch : Fin 4) (bank : Fin 16) (share : Nat) (t : Nat) (s : State) :
    Runs 0x10028000000000000000000000000000000000000000000000000000000000000000000000000000000000403 s (execHotspotWindow ch bank share t s) := by
  unfold execHotspotWindow
  refine .next ?_
  split
  lift_lets -underBinder
  intro x1 x2 x3 x4 x5 x6 x7 x8 x9 x10 x11 x12 x13 x14 x15
  refine Fr.have x6 ?_ (fun hx6 => ?_) <;> [unfold x6; skip]
  apply Fr.upd <;> first | show Fr _ _ _ | exact .inl rfl | exact .inr rfl | rfl
  with_reducible refine Fr.pair3 (by assumption) ?_
  split
  dsimp +zetaDelta -zeta only
  apply Fr.upd <;> first | show Fr _ _ _ | exact .inl rfl | exact .inr rfl | rfl
  exact .refl ..
  dsimp +zetaDelta -zeta only
  apply Fr.upd <;> first | show Fr _ _ _ | exact .inl rfl | exact .inr rfl | rfl
  exact .refl ..
  refine Fr.have x11 ?_ (fun hx11 => ?_) <;> [unfold x11; skip]
  refine .wr ?_ (by decide) (.fld .MEM_HOT_BANK_LAST rfl (by decide))
  refine .wr ?_ (by decide) (.fld .MEM_STATUS_HOTSPOT rfl (by decide))
  exact hx6
  refine Fr.have x13 ?_ (fun hx13 => ?_) <;> [unfold x13; skip]
  refine .call (State.raise_fr ..) ?_ (by decide)
  apply Fr.upd <;> first | show Fr _ _ _ | exact .inl rfl | exact .inr rfl | rfl
  exact hx11
  refine Fr.have x14 ?_ (fun hx14 => ?_) <;> [unfold x14; skip]
  refine .wr ?_ (by decide) (.fld .MEM_STATUS_HOT_FLAP rfl (by decide))
  exact hx13
  refine .ite ?_ ?_
  refine .ite ?_ ?_
  apply Fr.upd <;> first | show Fr _ _ _ | exact .inl rfl | exact .inr rfl | rfl
  exact hx14
  exact hx13
  refine .ite ?_ ?_
  refine .wr ?_ (by decide) (.fld .MEM_STATUS_HOTSPOT rfl (by decide))
  exact hx6
  exact hx6

theorem execMaxu_fr (n : Fin 192) (rd : Fin 32) (ra : Fin 32) (rb : Fin 32) (s : State) :
    Runs 0x100000000800000000000000000000001400000080000000000000001fe80000010000000000000000200010192030000120000000f00b03c3108ff s (execMaxu n rd ra rb s) := by
  unfold execMaxu
  exact (State.runRow_fr ..).mono (by decide)

theorem execFsend_fr (n : Fin 192) (ra : Fin 32) (s : State) :
    Runs 0x100000000800000000000000000000001400000080000000000000001fe80000010000000000000000200010192030000120000000f00b03c3108ff s (execFsend n ra s) := by
  unfold execFsend
  exact (State.runRow_fr ..).mono (by decide)

theorem execVsrai_fr (til : Fin 192) (w : Bool) (vd : Fin 32) (va : Fin 32) (n : Fin 32) (s : State) :
    Runs 0x100000000800000000000000000000001400000080000000000000001fe80000010000000000000000200010192030000120000000f00b03c3108ff s (execVsrai til w vd va n s) := by
  unfold execVsrai
  exact (State.runRow_fr ..).mono (by decide)

theorem execHaltAtBoundary_fr (n : Fin 192) (s : State) :
    Runs 0x800000000000000000000001400000080000000000000001fe80000010000000000000000200010002000000120000000f00b03c1108fb s (execHaltAtBoundary n s) := by
  unfold execHaltAtBoundary
  lift_lets -underBinder
  intro x1
  refine .next ?_
  refine .ite ?_ ?_
  refine .call (State.tilHalt_fr ..) ?_ (by decide)
  exact .refl ..
  exact .refl ..

theorem execVsrli_fr (til : Fin 192) (w : Bool) (vd : Fin 32) (va : Fin 32) (n : Fin 32) (s : State) :
    Runs 0x100000000800000000000000000000001400000080000000000000001fe80000010000000000000000200010192030000120000000f00b03c3108ff s (execVsrli til w vd va n s) := by
  unfold execVsrli
  exact (State.runRow_fr ..).mono (by decide)

theorem execVslli_fr (til : Fin 192) (w : Bool) (vd : Fin 32) (va : Fin 32) (n : Fin 32) (s : State) :
    Runs 0x100000000800000000000000000000001400000080000000000000001fe80000010000000000000000200010192030000120000000f00b03c3108ff s (execVslli til w vd va n s) := by
  unfold execVslli
  exact (State.runRow_fr ..).mono (by decide)

theorem execRefreshRatePoll_fr (ch : Fin 4) (code : Fin 16) (rate : Nat) (t : Nat) (s : State) :
    Runs 0x8014000000000000000000000000000000000000000000000000000000000000000000000000000000000403 s (execRefreshRatePoll ch code rate t s) := by
  unfold execRefreshRatePoll
  refine .next ?_
  lift_lets -underBinder
  intro x1 x2 x3 x4 x5 x6 x7 x8 x9 x10 x11 x12 x13 x14 x15
  refine Fr.have x1 ?_ (fun hx1 => ?_) <;> [unfold x1; clear_value x1]
  refine .wr ?_ (by decide) (.fld .MEM_DRAM_RATE_CODE rfl (by decide))
  exact .refl ..
  refine Fr.have x11 ?_ (fun hx11 => ?_) <;> [unfold x11; clear_value x11]
  apply Fr.upd <;> first | show Fr _ _ _ | exact .inl rfl | exact .inr rfl | rfl
  exact hx1
  refine Fr.have x15 ?_ (fun hx15 => ?_) <;> [unfold x15; clear_value x15]
  refine .call (State.raise_fr ..) ?_ (by decide)
  refine .wr ?_ (by decide) (.fld .MEM_STATUS_TEMP_HI rfl (by decide))
  apply Fr.upd <;> first | show Fr _ _ _ | exact .inl rfl | exact .inr rfl | rfl
  exact hx11
  refine .ite ?_ ?_
  refine .ite ?_ ?_
  refine .wr ?_ (by decide) (.fld .MEM_STATUS_TEMP_FLAP rfl (by decide))
  exact hx15
  exact hx15
  refine .ite ?_ ?_
  refine .wr ?_ (by decide) (.fld .MEM_STATUS_TEMP_HI rfl (by decide))
  exact hx11
  exact hx11

theorem State.logScan_fr (s : State) :
    Fr 0x80000000000000000000000000000000000000000000000000000000000000000000000000000000000000000000000000000000000000100001 s (State.logScan s) := by
  unfold State.logScan
  lift_lets -underBinder
  intro x1 x2
  split
  lift_lets -underBinder
  intro x3 x4
  refine Fr.have x3 ?_ (fun hx3 => ?_) <;> [unfold x3; skip]
  refine .wr ?_ (by decide) (.fld .BOOT_LOG_INDEX_NEXT rfl (by decide))
  exact .refl ..
  apply Fr.upd <;> first | show Fr _ _ _ | exact .inl rfl | exact .inr rfl | rfl
  exact hx3
  lift_lets -underBinder
  intro x5 x6
  refine Fr.have x5 ?_ (fun hx5 => ?_) <;> [unfold x5; skip]
  refine .wr ?_ (by decide) (.fld .BOOT_LOG_INDEX_NEXT rfl (by decide))
  exact .refl ..
  apply Fr.upd <;> first | show Fr _ _ _ | exact .inl rfl | exact .inr rfl | rfl
  exact hx5

theorem execVcmpgtu_fr (n : Fin 192) (w : Bool) (vd : Fin 32) (va : Fin 32) (vb : Fin 32) (s : State) :
    Runs 0x100000000800000000000000000000001400000080000000000000001fe80000010000000000000000200010192030000120000000f00b03c3108ff s (execVcmpgtu n w vd va vb s) := by
  unfold execVcmpgtu
  exact (State.runRow_fr ..).mono (by decide)

theorem execDllUnlock_fr (col : Fin 16) (s : State) :
    Runs 0x10000000000000000000000000000000000000000000000000000000000000000000000000000000000000000000000058400000000000000200067 s (execDllUnlock col s) := by
  unfold execDllUnlock
  refine .next ?_
  refine .call (State.sendInvalid_fr ..) ?_ (by decide)
  refine .call (State.raise_fr ..) ?_ (by decide)
  refine .wr ?_ (by decide) (.fld .TDC_STATUS_DLL_LOCK rfl (by decide))
  exact .refl ..

theorem execOwnershipEnd_fr (s : State) :
    Runs 0x100000000800000000000000000000001400000080000000000000001fe80000010000000000000000200010006000000120000000f00b03c3509fb s (execOwnershipEnd s) := by
  unfold execOwnershipEnd
  refine .next ?_
  refine .ite ?_ ?_
  exact .refl ..
  with_reducible apply Fr.forN
  exact .refl ..
  intro x1 x2
  refine .call (State.endOwnership_fr ..) ?_ (by decide)
  exact .refl ..

theorem execMulh_fr (n : Fin 192) (rd : Fin 32) (ra : Fin 32) (rb : Fin 32) (s : State) :
    Runs 0x100000000800000000000000000000001400000080000000000000001fe80000010000000000000000200010192030000120000000f00b03c3108ff s (execMulh n rd ra rb s) := by
  unfold execMulh
  exact (State.runRow_fr ..).mono (by decide)

theorem execCmp_fr (n : Fin 192) (ra : Fin 32) (rb : Fin 32) (s : State) :
    Runs 0x100000000800000000000000000000001400000080000000000000001fe80000010000000000000000200010192030000120000000f00b03c3108ff s (execCmp n ra rb s) := by
  unfold execCmp
  exact (State.runRow_fr ..).mono (by decide)

theorem execVbwl_fr (n : Fin 192) (vd : Fin 32) (ra : Fin 32) (rb : Fin 32) (s : State) :
    Runs 0x100000000800000000000000000000001400000080000000000000001fe80000010000000000000000200010192030000120000000f00b03c3108ff s (execVbwl n vd ra rb s) := by
  unfold execVbwl
  exact (State.runRow_fr ..).mono (by decide)

theorem execVnars_fr (n : Fin 192) (vd : Fin 32) (va : Fin 32) (vb : Fin 32) (s : State) :
    Runs 0x100000000800000000000000000000001400000080000000000000001fe80000010000000000000000200010192030000120000000f00b03c3108ff s (execVnars n vd va vb s) := by
  unfold execVnars
  exact (State.runRow_fr ..).mono (by decide)

theorem execSrai_fr (til : Fin 192) (rd : Fin 32) (ra : Fin 32) (n : Fin 32) (s : State) :
    Runs 0x100000000800000000000000000000001400000080000000000000001fe80000010000000000000000200010192030000120000000f00b03c3108ff s (execSrai til rd ra n s) := by
  unfold execSrai
  exact (State.runRow_fr ..).mono (by decide)

theorem execIllegalInstruction_fr (n : Fin 192) (s : State) :
    Runs 0x100000000800000000000000000000001400000080000000000000001fe80000010000000000000000200010182000000120000000f00b03c3108fb s (execIllegalInstruction n s) := by
  unfold execIllegalInstruction
  refine .next ?_
  (with_reducible apply State.issue_fr) <;> [skip; skip; decide]
  exact .refl ..
  intro x1
  refine .call (State.trap_fr ..) ?_ (by decide)
  exact .refl ..

theorem execDllTrimLimit_fr (k0 : Fin 16) (s : State) : Runs 0x2 s (execDllTrimLimit k0 s) := by
  unfold execDllTrimLimit
  refine .next ?_
  refine .call (State.raise_fr ..) ?_ (by decide)
  exact .refl ..

theorem execVadds_fr (n : Fin 192) (w : Bool) (vd : Fin 32) (va : Fin 32) (vb : Fin 32) (s : State) :
    Runs 0x100000000800000000000000000000001400000080000000000000001fe80000010000000000000000200010192030000120000000f00b03c3108ff s (execVadds n w vd va vb s) := by
  unfold execVadds
  exact (State.runRow_fr ..).mono (by decide)

theorem execJal_fr (n : Fin 192) (rd : Fin 32) (off : BitVec 21) (s : State) :
    Runs 0x100000000800000000000000000000001400000080000000000000001fe80000010000000000000000200010192030000120000000f00b03c3108ff s (execJal n rd off s) := by
  unfold execJal
  exact (State.runRow_fr ..).mono (by decide)

theorem execAndi_fr (n : Fin 192) (rd : Fin 32) (ra : Fin 32) (imm : BitVec 16) (s : State) :
    Runs 0x100000000800000000000000000000001400000080000000000000001fe80000010000000000000000200010192030000120000000f00b03c3108ff s (execAndi n rd ra imm s) := by
  unfold execAndi
  exact (State.runRow_fr ..).mono (by decide)

theorem State.pbDiscard_fr (s : State) (window : Bool) :
    Fr 0x70000000000000000000000000000000000000000000000000000000000000000000000000000000000000000003 s (State.pbDiscard s window) := by
  unfold State.pbDiscard
  lift_lets -underBinder
  intro x1
  refine .call (State.raiseIf_fr ..) ?_ (by decide)
  refine .wr ?_ (by decide) (.ite (.fld .MEM_PB_OVF_CAUSE_WINDOW rfl (by decide)) (.fld .MEM_PB_OVF_CAUSE_FULL rfl (by decide)))
  refine .bump ?_ (by decide) (.fld .MEM_PB_OVF_CNT_COUNT rfl (by decide))
  exact .refl ..

theorem State.invertChecks_fr (s : State) (a : Nat) (n : Nat) : Fr 0x400 s (State.invertChecks s a n) := by
  unfold State.invertChecks
  lift_lets -underBinder
  intro x1 x2
  refine .ite ?_ ?_
  apply Fr.upd <;> first | show Fr _ _ _ | exact .inl rfl | exact .inr rfl | rfl
  exact .refl ..
  exact .refl ..

theorem State.stagingStore_fr (s : State) (b : Block) (rest : List Block) (bad : Bool) (window : Bool) (lost : Bool) :
    Fr 0x10000000000000000000000000077fe2800000000000000000000000000000000000000000000000000000000000000000000000000000000600d03 s (State.stagingStore s b rest bad window lost) := by
  unfold State.stagingStore
  lift_lets -underBinder
  intro x1 x2 x3 x4 x5 x6 x7 x8 x9 x10 x11
  refine Fr.have x4 ?_ (fun hx4 => ?_) <;> [unfold x4; clear_value x4]
  apply Fr.upd <;> first | show Fr _ _ _ | exact .inl rfl | exact .inr rfl | rfl
  exact .refl ..
  refine Fr.have x7 ?_ (fun hx7 => ?_) <;> [unfold x7; clear_value x7]
  refine .call (State.raiseIf_fr ..) ?_ (by decide)
  exact hx4
  refine .ite ?_ ?_
  refine .call (State.pbDiscard_fr ..) ?_ (by decide)
  exact hx7
  split
  refine .call (State.pbDiscard_fr ..) ?_ (by decide)
  exact hx7
  lift_lets -underBinder
  intro x12 x13 x14
  refine Fr.have x12 ?_ (fun hx12 => ?_) <;> [unfold x12; clear_value x12]
  refine .ite ?_ ?_
  refine .call (State.memStore_fr ..) ?_ (by decide)
  exact hx7
  exact hx7
  refine Fr.have x13 ?_ (fun hx13 => ?_) <;> [unfold x13; clear_value x13]
  refine .call (State.memStore_fr ..) ?_ (by decide)
  exact hx12
  refine Fr.have x14 ?_ (fun hx14 => ?_) <;> [unfold x14; clear_value x14]
  refine .ite ?_ ?_
  refine .call (State.invertChecks_fr ..) ?_ (by decide)
  exact hx13
  exact hx13
  refine .wr ?_ (by decide) (.fld .MEM_PB_WPTR_OFS rfl (by decide))
  exact hx14

theorem execStagingRecord_fr (bad : Bool) (s : State) :
    Runs 0x10000000000000000000000000077fe2940000000000000000000000000000000000000000000000000000000000000000000000000008000600d03 s (execStagingRecord bad s) := by
  unfold execStagingRecord
  refine .next ?_
  split
  exact .refl ..
  split
  (with_reducible apply State.whenMemory_fr) <;> [skip; skip; decide]
  exact .refl ..
  intro x1
  refine .call (State.stagingStore_fr ..) ?_ (by decide)
  exact .refl ..
  refine .call (State.stagingStore_fr ..) ?_ (by decide)
  exact .refl ..
  refine .call (State.stagingStore_fr ..) ?_ (by decide)
  exact .refl ..
  refine .call (State.stagingStore_fr ..) ?_ (by decide)
  exact .refl ..

theorem execTret_fr (n : Fin 192) (s : State) :
    Runs 0x100000000800000000000000000000001400000080000000000000001fe80000010000000000000000200010192030000120000000f00b03c3108ff s (execTret n s) := by
  unfold execTret
  exact (State.runRow_fr ..).mono (by decide)

theorem State.cdCount_fr (s : State) (c : Nat) (rawCoarse : Nat) (rawPhase : Nat) (kind : Nat) (x : Slot) :
    Fr 0x40000 s (State.cdCount s c rawCoarse rawPhase kind x) := by
  unfold State.cdCount
  refine .ite ?_ ?_
  exact .refl ..
  apply Fr.upd <;> first | show Fr _ _ _ | exact .inl rfl | exact .inr rfl | rfl
  exact .refl ..

theorem execTdcEdge_fr (c : Fin 1152) (t : Nat) (rawCoarse : Fin 8192) (rawPhase : Fin 16) (s : State) :
    Runs 0x10000000000000000000000000000000000000000000000000000000000000000000000000000000000000000000000058000000000000000240073 s (execTdcEdge c t rawCoarse rawPhase s) := by
  unfold execTdcEdge
  refine .next ?_
  lift_lets -underBinder
  intro x1 x2 x3 x4 x5 x6 x7 x8
  refine Fr.have x3 ?_ (fun hx3 => ?_) <;> [unfold x3; clear_value x3]
  apply Fr.upd <;> first | show Fr _ _ _ | exact .inl rfl | exact .inr rfl | rfl
  exact .refl ..
  refine Fr.have x8 ?_ (fun hx8 => ?_) <;> [unfold x8; clear_value x8]
  apply Fr.upd <;> first | show Fr _ _ _ | exact .inl rfl | exact .inr rfl | rfl
  exact hx3
  refine .ite ?_ ?_
  exact hx3
  refine .ite ?_ ?_
  refine .ite ?_ ?_
  refine .call (State.count_fr ..) ?_ (by decide)
  apply Fr.upd <;> first | show Fr _ _ _ | exact .inl rfl | exact .inr rfl | rfl
  exact hx3
  exact hx3
  refine .ite ?_ ?_
  exact hx8
  split
  exact hx8
  split
  lift_lets -underBinder
  intro x9 x10
  refine Fr.have x10 ?_ (fun hx10 => ?_) <;> [unfold x10; clear_value x10]
  split
  refine .call (State.count_fr ..) ?_ (by decide)
  exact hx8
  refine .call (State.count_fr ..) ?_ (by decide)
  apply Fr.upd <;> first | show Fr _ _ _ | exact .inl rfl | exact .inr rfl | rfl
  exact hx8
  refine .call (State.count_fr ..) ?_ (by decide)
  apply Fr.upd <;> first | show Fr _ _ _ | exact .inl rfl | exact .inr rfl | rfl
  exact hx8
  refine .call (State.pushWord_fr ..) ?_ (by decide)
  refine .call (State.snoopWord_fr ..) ?_ (by decide)
  refine .call (State.cdCount_fr ..) ?_ (by decide)
  exact hx10

theorem execRdfl_fr (n : Fin 192) (rd : Fin 32) (s : State) :
    Runs 0x100000000800000000000000000000001400000080000000000000001fe80000010000000000000000200010192030000120000000f00b03c3108ff s (execRdfl n rd s) := by
  unfold execRdfl
  exact (State.runRow_fr ..).mono (by decide)

theorem execLui_fr (n : Fin 192) (rd : Fin 32) (imm : BitVec 16) (s : State) :
    Runs 0x100000000800000000000000000000001400000080000000000000001fe80000010000000000000000200010192030000120000000f00b03c3108ff s (execLui n rd imm s) := by
  unfold execLui
  exact (State.runRow_fr ..).mono (by decide)

theorem execFrecvW_fr (n : Fin 192) (rd : Fin 32) (s : State) :
    Runs 0x100000000800000000000000000000001400000080000000000000001fe80000010000000000000000200010192030000120000000f00b03c3108ff s (execFrecvW n rd s) := by
  unfold execFrecvW
  exact (State.runRow_fr ..).mono (by decide)

theorem execVst_fr (n : Fin 192) (vs : Fin 32) (ra : Fin 32) (imm : BitVec 16) (s : State) :
    Runs 0x100000000800000000000000000000001400000080000000000000001fe80000010000000000000000200010192030000120000000f00b03c3108ff s (execVst n vs ra imm s) := by
  unfold execVst
  exact (State.runRow_fr ..).mono (by decide)

theorem execAddi_fr (n : Fin 192) (rd : Fin 32) (ra : Fin 32) (imm : BitVec 16) (s : State) :
    Runs 0x100000000800000000000000000000001400000080000000000000001fe80000010000000000000000200010192030000120000000f00b03c3108ff s (execAddi n rd ra imm s) := by
  unfold execAddi
  exact (State.runRow_fr ..).mono (by decide)

theorem State.probeHit_fr (s : State) (c : Nat) (p : Nat) : Fr 0x10 s (State.probeHit s c p) := by
  unfold State.probeHit
  refine .ite ?_ ?_
  apply Fr.upd <;> first | show Fr _ _ _ | exact .inl rfl | exact .inr rfl | rfl
  exact .refl ..
  exact .refl ..

theorem State.coincide_fr (s : State) (c : Nat) (t : Nat) : Fr 0x10 s (State.coincide s c t) := by
  unfold State.coincide
  lift_lets -underBinder
  intro x1 x2 x3 x4
  refine .ite ?_ ?_
  apply Fr.upd <;> first | show Fr _ _ _ | exact .inl rfl | exact .inr rfl | rfl
  exact .refl ..
  apply Fr.upd <;> first | show Fr _ _ _ | exact .inl rfl | exact .inr rfl | rfl
  exact .refl ..

theorem execSpadFiring_fr (c : Fin 1152) (p : Fin 16) (t : Nat) (s : State) : Runs 0x10 s (execSpadFiring c p t s) := by
  unfold execSpadFiring
  refine .next ?_
  lift_lets -underBinder
  intro x1 x2 x3 x4 x5 x6 x7
  refine Fr.have x6 ?_ (fun hx6 => ?_) <;> [unfold x6; clear_value x6]
  apply Fr.upd <;> first | show Fr _ _ _ | exact .inl rfl | exact .inr rfl | rfl
  exact .refl ..
  refine Fr.have x7 ?_ (fun hx7 => ?_) <;> [unfold x7; clear_value x7]
  refine .call (State.probeHit_fr ..) ?_ (by decide)
  exact hx6
  refine .ite ?_ ?_
  exact .refl ..
  refine .ite ?_ ?_
  exact .refl ..
  refine .ite ?_ ?_
  refine .call (State.coincide_fr ..) ?_ (by decide)
  exact hx7
  exact hx7

theorem execGroupHalt_fr (s : State) :
    Runs 0x1000000000000000000000000000000000000000000000000000000000000000000000000000000000000000000000000000000000000000020008b s (execGroupHalt s) := by
  unfold execGroupHalt
  refine .next ?_
  (with_reducible apply State.access_fr) <;> [skip; skip; decide]
  exact .refl ..
  intro x1
  refine .call (State.groupHalt_fr ..) ?_ (by decide)
  exact .refl ..

theorem execBiasMonitorEntry_fr (high : Bool) (t : Nat) (s : State) : Runs 0x1900000000000013 s (execBiasMonitorEntry high t s) := by
  unfold execBiasMonitorEntry
  refine .next ?_
  lift_lets -underBinder
  intro x1 x2 x3 x4 x5 x6 x7
  refine Fr.have x3 ?_ (fun hx3 => ?_) <;> [unfold x3; clear_value x3]
  refine .call (State.raise_fr ..) ?_ (by decide)
  unfold x1
  refine .wr ?_ (by decide) (.ite (.fld .DET_STATUS_BIAS_HIGH rfl (by decide)) (.fld .DET_STATUS_BIAS_LOW rfl (by decide)))
  exact .refl ..
  refine Fr.have x5 ?_ (fun hx5 => ?_) <;> [unfold x5; clear_value x5]
  apply Fr.upd <;> first | show Fr _ _ _ | exact .inl rfl | exact .inr rfl | rfl
  exact hx3
  refine Fr.have x6 ?_ (fun hx6 => ?_) <;> [unfold x6; clear_value x6]
  refine .call (State.raise_fr ..) ?_ (by decide)
  refine .wr ?_ (by decide) (.fld .DET_STATUS_BIAS_FLAP rfl (by decide))
  exact hx5
  refine .ite ?_ ?_
  exact .refl ..
  refine .ite ?_ ?_
  apply Fr.upd <;> first | show Fr _ _ _ | exact .inl rfl | exact .inr rfl | rfl
  exact hx6
  exact hx5

theorem execMemInitComplete_fr (n : Fin 192) (s : State) : Runs 0x80 s (execMemInitComplete n s) := by
  unfold execMemInitComplete
  refine .next ?_
  refine .ite ?_ ?_
  refine .call (State.onTiller_fr ..) ?_ (by decide)
  exact .refl ..
  exact .refl ..

theorem execSub_fr (n : Fin 192) (rd : Fin 32) (ra : Fin 32) (rb : Fin 32) (s : State) :
    Runs 0x100000000800000000000000000000001400000080000000000000001fe80000010000000000000000200010192030000120000000f00b03c3108ff s (execSub n rd ra rb s) := by
  unfold execSub
  exact (State.runRow_fr ..).mono (by decide)

theorem execBiasDisable_fr (s : State) :
    Runs 0x1000000000000000000000000000000000000000000000000000000000000000000000000000000000000000000000000000002388000000020001b s (execBiasDisable s) := by
  unfold execBiasDisable
  refine .next ?_
  (with_reducible apply State.access_fr) <;> [skip; skip; decide]
  exact .refl ..
  intro x1
  refine .call (State.biasDisable_fr ..) ?_ (by decide)
  exact .refl ..

theorem execVld_fr (n : Fin 192) (vd : Fin 32) (ra : Fin 32) (imm : BitVec 16) (s : State) :
    Runs 0x100000000800000000000000000000001400000080000000000000001fe80000010000000000000000200010192030000120000000f00b03c3108ff s (execVld n vd ra imm s) := by
  unfold execVld
  exact (State.runRow_fr ..).mono (by decide)

theorem execDllRelock_fr (col : Fin 16) (s : State) : Runs 0x400000000000000000001 s (execDllRelock col s) := by
  unfold execDllRelock
  refine .next ?_
  refine .wr ?_ (by decide) (.fld .TDC_STATUS_DLL_LOCK rfl (by decide))
  exact .refl ..

theorem execClz_fr (n : Fin 192) (rd : Fin 32) (ra : Fin 32) (s : State) :
    Runs 0x100000000800000000000000000000001400000080000000000000001fe80000010000000000000000200010192030000120000000f00b03c3108ff s (execClz n rd ra s) := by
  unfold execClz
  exact (State.runRow_fr ..).mono (by decide)

theorem execOri_fr (n : Fin 192) (rd : Fin 32) (ra : Fin 32) (imm : BitVec 16) (s : State) :
    Runs 0x100000000800000000000000000000001400000080000000000000001fe80000010000000000000000200010192030000120000000f00b03c3108ff s (execOri n rd ra imm s) := by
  unfold execOri
  exact (State.runRow_fr ..).mono (by decide)

theorem execVor_fr (n : Fin 192) (w : Bool) (vd : Fin 32) (va : Fin 32) (vb : Fin 32) (s : State) :
    Runs 0x100000000800000000000000000000001400000080000000000000001fe80000010000000000000000200010192030000120000000f00b03c3108ff s (execVor n w vd va vb s) := by
  unfold execVor
  exact (State.runRow_fr ..).mono (by decide)

theorem execBc_fr (n : Fin 192) (cond : Fin 16) (off : BitVec 22) (s : State) :
    Runs 0x100000000800000000000000000000001400000080000000000000001fe80000010000000000000000200010192030000120000000f00b03c3108ff s (execBc n cond off s) := by
  unfold execBc
  exact (State.runRow_fr ..).mono (by decide)

theorem execPanicFlapRelease_fr (p : Fin 8) (s : State) :
    Runs 0x1000000000000000000000000000000040000000000000000000000000000000000000000000000000000000000000000000000000000000020040b s (execPanicFlapRelease p s) := by
  unfold execPanicFlapRelease
  refine .next ?_
  (with_reducible apply State.access_fr) <;> [skip; skip; decide]
  exact .refl ..
  intro x1
  refine .call (State.panicFlapRelease_fr ..) ?_ (by decide)
  exact .refl ..

theorem execBroadcastWrite_fr (ofs : Nat) (bytes : Nat) (data : BitVec 64) (s : State) :
    Runs 0x1000000000000000000000000000000000000000000000000000000000000000000000000000000000000000000000000000000000000000020008b s (execBroadcastWrite ofs bytes data s) := by
  unfold execBroadcastWrite
  refine .next ?_
  (with_reducible apply State.access_fr) <;> [skip; skip; decide]
  exact .refl ..
  intro x1
  refine .call (State.windowWrite_fr ..) ?_ (by decide)
  exact .refl ..

theorem execSelfRefreshEntryComplete_fr (s : State) :
    Runs 0x140000000000000000000000000000000000000000000000000000000000000000000000000008000000405 s (execSelfRefreshEntryComplete s) := by
  unfold execSelfRefreshEntryComplete
  refine .next ?_
  refine .ite ?_ ?_
  exact .refl ..
  lift_lets -underBinder
  intro x1 x2 x3
  refine Fr.have x1 ?_ (fun hx1 => ?_) <;> [unfold x1; skip]
  refine .call (State.loseSegments_fr ..) ?_ (by decide)
  exact .refl ..
  refine Fr.have x3 ?_ (fun hx3 => ?_) <;> [unfold x3; skip]
  refine .wr ?_ (by decide) (.fld .MEM_STATUS_STATE rfl (by decide))
  apply Fr.upd <;> first | show Fr _ _ _ | exact .inl rfl | exact .inr rfl | rfl
  exact hx1
  refine .ite ?_ ?_
  refine .wr ?_ (by decide) (.fld .MEM_STATUS_STATE rfl (by decide))
  unfold State.dropPend
  refine .wr ?_ (by decide) (.fld .SYS_PEND_STATUS_MEM_SR rfl (by decide))
  refine .wr ?_ (by decide) (.fld .MEM_STATUS_PENDING_ENABLE rfl (by decide))
  exact hx3
  exact hx3

theorem execLw_fr (n : Fin 192) (rd : Fin 32) (ra : Fin 32) (imm : BitVec 16) (t : Nat) (s : State) :
    Runs 0x100000000800000000000000000000001400000080000000000000001fe80000010000000000000000200010192030000120000000f00b03c3108ff s (execLw n rd ra imm t s) := by
  unfold execLw
  exact (State.runRow_fr ..).mono (by decide)

theorem execVmins_fr (n : Fin 192) (w : Bool) (vd : Fin 32) (va : Fin 32) (vb : Fin 32) (s : State) :
    Runs 0x100000000800000000000000000000001400000080000000000000001fe80000010000000000000000200010192030000120000000f00b03c3108ff s (execVmins n w vd va vb s) := by
  unfold execVmins
  exact (State.runRow_fr ..).mono (by decide)

theorem execVins_fr (n : Fin 192) (w : Bool) (vd : Fin 32) (ra : Fin 32) (lane : Fin 8) (s : State) :
    Runs 0x100000000800000000000000000000001400000080000000000000001fe80000010000000000000000200010192030000120000000f00b03c3108ff s (execVins n w vd ra lane s) := by
  unfold execVins
  exact (State.runRow_fr ..).mono (by decide)

theorem execJalr_fr (n : Fin 192) (rd : Fin 32) (ra : Fin 32) (imm : BitVec 16) (s : State) :
    Runs 0x100000000800000000000000000000001400000080000000000000001fe80000010000000000000000200010192030000120000000f00b03c3108ff s (execJalr n rd ra imm s) := by
  unfold execJalr
  exact (State.runRow_fr ..).mono (by decide)

theorem execTrap_fr (n : Fin 192) (s : State) :
    Runs 0x100000000800000000000000000000001400000080000000000000001fe80000010000000000000000200010192030000120000000f00b03c3108ff s (execTrap n s) := by
  unfold execTrap
  exact (State.runRow_fr ..).mono (by decide)

theorem execVsplat_fr (n : Fin 192) (w : Bool) (vd : Fin 32) (ra : Fin 32) (s : State) :
    Runs 0x100000000800000000000000000000001400000080000000000000001fe80000010000000000000000200010192030000120000000f00b03c3108ff s (execVsplat n w vd ra s) := by
  unfold execVsplat
  exact (State.runRow_fr ..).mono (by decide)

theorem execFrecvWComplete_fr (n : Fin 192) (s : State) :
    Runs 0x100000000800000000000000000000001400000080000000000000001fe80000010000000000000000200010002000000120000000f00b03c3108fb s (execFrecvWComplete n s) := by
  unfold execFrecvWComplete
  refine .next ?_
  split
  refine .ite ?_ ?_
  exact .refl ..
  refine .call (State.resume_fr ..) ?_ (by decide)
  exact .refl ..
  exact .refl ..

theorem execInit_fr (s : State) :
    Runs 0x100000000000000000000000000000001c000000000000000000000000000000000000000000000000000000000000000000000000000800020040b s (execInit s) := by
  unfold execInit
  refine .next ?_
  (with_reducible apply State.access_fr) <;> [skip; skip; decide]
  exact .refl ..
  intro x1
  refine .call (State.memInit_fr ..) ?_ (by decide)
  exact .refl ..

end Sys2Proof.Machine
end

