-- ==== Sys2Proof/Laws/FrameChain.lean ====
section
/-! SUPPORT. The frame of every operation and command of the capture, event, observation, emission, loop, fabric, hedge and Krytold files. -/

namespace Sys2Proof.Machine

set_option maxHeartbeats 400000
set_option maxRecDepth 4000

theorem State.traceClear_fr (s : State) :
    Fr 0xc0400000000000000000000000000000000000000000000000000000000000000000000000000000000000000000000000000000000000000200001 s (State.traceClear s) := by
  unfold State.traceClear
  lift_lets -underBinder
  intro x1 x2
  refine Fr.have x1 ?_ (fun hx1 => ?_) <;> [unfold x1; clear_value x1]
  refine .wr ?_ (by decide) (.fld .OBS_STATUS_FULL rfl (by decide))
  refine .wr ?_ (by decide) (.fld .OBS_TRC_RPTR_OFS rfl (by decide))
  refine .wr ?_ (by decide) (.fld .OBS_TRC_WPTR_OFS rfl (by decide))
  exact .refl ..
  apply Fr.upd <;> first | show Fr _ _ _ | exact .inl rfl | exact .inr rfl | rfl
  exact hx1

theorem execTraceClr_fr (s : State) :
    Runs 0xd040000000000000000000000000000000000000000000000000000000000000000000000000000000000000000000000000000000000000020000b s (execTraceClr s) := by
  unfold execTraceClr
  refine .next ?_
  (with_reducible apply State.access_fr) <;> [skip; skip; decide]
  exact .refl ..
  intro x1
  refine .ite ?_ ?_
  refine .call (State.cfgReject_fr ..) ?_ (by decide)
  exact .refl ..
  refine .call (State.traceClear_fr ..) ?_ (by decide)
  exact .refl ..

theorem State.capDisable_fr (s : State) : Fr 0x69800000000000000000000000000000000000000000000004000008003 s (State.capDisable s) := by
  unfold State.capDisable
  lift_lets -underBinder
  intro x1 x2 x3 x4
  refine Fr.have x1 ?_ (fun hx1 => ?_) <;> [unfold x1; clear_value x1]
  unfold State.dropPend
  refine .wr ?_ (by decide) (.fld .SYS_PEND_STATUS_CAPTURE rfl (by decide))
  refine .wr ?_ (by decide) (.fld .MER_CAP_STATUS_PENDING_ENABLE rfl (by decide))
  exact .refl ..
  refine Fr.have x2 ?_ (fun hx2 => ?_) <;> [unfold x2; clear_value x2]
  refine .ite ?_ ?_
  unfold State.capDrop
  lift_lets -underBinder
  intro x5 x6 x7
  refine Fr.have x6 ?_ (fun hx6 => ?_) <;> [unfold x6; clear_value x6]
  refine .call (State.raiseIf_fr ..) ?_ (by decide)
  refine .wr ?_ (by decide) (.fld .MER_CAP_DROP_CAUSE_SHUTDOWN rfl (by decide))
  refine .bump ?_ (by decide) (.fld .MER_CAPTURE_DROP_COUNT rfl (by decide))
  exact hx1
  apply Fr.upd <;> first | show Fr _ _ _ | exact .inl rfl | exact .inr rfl | rfl
  exact hx6
  exact hx1
  refine Fr.have x3 ?_ (fun hx3 => ?_) <;> [unfold x3; clear_value x3]
  refine .wr ?_ (by decide) (.fld .MER_CAP_STATUS_SEG rfl (by decide))
  refine .wr ?_ (by decide) (.fld .MER_CAP_CTRL_EN rfl (by decide))
  exact hx2
  refine .ite ?_ ?_
  apply Fr.upd <;> first | show Fr _ _ _ | exact .inl rfl | exact .inr rfl | rfl
  exact hx3
  refine .wr ?_ (by decide) (.fld .MER_CAP_CTRL_EN rfl (by decide))
  exact hx1

theorem execCaptureDisable_fr (s : State) :
    Runs 0x1000000000000000000000000000000000000000000000000000000000006980000000000000000000000000000000000000000000000400020800b s (execCaptureDisable s) := by
  unfold execCaptureDisable
  refine .next ?_
  (with_reducible apply State.access_fr) <;> [skip; skip; decide]
  exact .refl ..
  intro x1
  refine .call (State.capDisable_fr ..) ?_ (by decide)
  exact .refl ..

theorem State.capEnable_fr (s : State) : Fr 0x7800000000000000000000000000000000000000000000004000008003 s (State.capEnable s) := by
  unfold State.capEnable
  refine .ite ?_ ?_
  unfold State.latchPend
  refine .ite ?_ ?_
  refine .wr ?_ (by decide) (.fld .MER_CAP_CTRL_EN rfl (by decide))
  exact .refl ..
  refine .call (State.raise_fr ..) ?_ (by decide)
  refine .wr ?_ (by decide) (.fld .SYS_PEND_STATUS_CAPTURE rfl (by decide))
  refine .wr ?_ (by decide) (.fld .MER_CAP_STATUS_PENDING_ENABLE rfl (by decide))
  refine .wr ?_ (by decide) (.fld .MER_CAP_CTRL_EN rfl (by decide))
  exact .refl ..
  refine .ite ?_ ?_
  exact .refl ..
  lift_lets -underBinder
  intro x1 x2
  refine Fr.have x1 ?_ (fun hx1 => ?_) <;> [unfold x1; clear_value x1]
  refine .wr ?_ (by decide) (.fld .MER_CAP_STATUS_DONE rfl (by decide))
  refine .wr ?_ (by decide) (.fld .MER_CAP_STATUS_ARMED rfl (by decide))
  refine .wr ?_ (by decide) (.fld .MER_CAP_CTRL_EN rfl (by decide))
  exact .refl ..
  apply Fr.upd <;> first | show Fr _ _ _ | exact .inl rfl | exact .inr rfl | rfl
  exact hx1

theorem execCaptureShutdownComplete_fr (s : State) :
    Runs 0x7800000000000000000000000000000000000000000000004000008003 s (execCaptureShutdownComplete s) := by
  unfold execCaptureShutdownComplete
  refine .next ?_
  refine .ite ?_ ?_
  exact .refl ..
  lift_lets -underBinder
  intro x1 x2 x3
  refine Fr.have x1 ?_ (fun hx1 => ?_) <;> [unfold x1; clear_value x1]
  refine .wr ?_ (by decide) (.fld .MER_CAP_STATUS_ARMED rfl (by decide))
  exact .refl ..
  refine Fr.have x3 ?_ (fun hx3 => ?_) <;> [unfold x3; clear_value x3]
  apply Fr.upd <;> first | show Fr _ _ _ | exact .inl rfl | exact .inr rfl | rfl
  exact hx1
  refine .ite ?_ ?_
  refine .call (State.capEnable_fr ..) ?_ (by decide)
  refine .wr ?_ (by decide) (.fld .MER_CAP_CTRL_EN rfl (by decide))
  unfold State.dropPend
  refine .wr ?_ (by decide) (.fld .SYS_PEND_STATUS_CAPTURE rfl (by decide))
  refine .wr ?_ (by decide) (.fld .MER_CAP_STATUS_PENDING_ENABLE rfl (by decide))
  exact hx3
  exact hx3

theorem State.sealLock_fr (s : State) : Fr 0x4000000000000000000000000000000000000000000003 s (State.sealLock s) := by
  unfold State.sealLock
  refine .ite ?_ ?_
  exact .refl ..
  refine .call (State.raise_fr ..) ?_ (by decide)
  refine .wr ?_ (by decide) (.fld .HDG_STATUS_SEAL_LOCK rfl (by decide))
  exact .refl ..

theorem execSealLock_fr (s : State) :
    Runs 0x1000000000000000000000000000000000000000000000000000000000000000000000000400000000000000000000000000000000000000020000b s (execSealLock s) := by
  unfold execSealLock
  refine .next ?_
  (with_reducible apply State.access_fr) <;> [skip; skip; decide]
  exact .refl ..
  intro x1
  refine .call (State.sealLock_fr ..) ?_ (by decide)
  exact .refl ..

theorem State.hd_fr (s : State) (f : Hdg → Hdg) : Fr 0x2000 s (State.hd s f) := by
  unfold State.hd
  apply Fr.upd <;> first | show Fr _ _ _ | exact .inl rfl | exact .inr rfl | rfl
  exact .refl ..

theorem State.hedgeShow_fr (s : State) : Fr 0x202000000000000000000000000000000000000000002001 s (State.hedgeShow s) := by
  unfold State.hedgeShow
  lift_lets -underBinder
  intro x1 x2 x3
  refine Fr.have x2 ?_ (fun hx2 => ?_) <;> [unfold x2; clear_value x2]
  refine .call (State.hd_fr ..) ?_ (by decide)
  refine .wr ?_ (by decide) (.fld .HDG_PRESENT_CAUSE rfl (by decide))
  exact .refl ..
  refine Fr.have x3 ?_ (fun hx3 => ?_) <;> [unfold x3; clear_value x3]
  refine .ite ?_ ?_
  exact hx2
  refine .call (State.hd_fr ..) ?_ (by decide)
  exact hx2
  refine .put ?_ (by decide) (.fld .HDG_STATUS_CLEAR rfl (by decide))
  exact hx3

theorem State.emiWait_fr (s : State) : Fr 0x2001000000000000000000000000000000001 s (State.emiWait s) := by
  unfold State.emiWait
  refine .call (State.waitDac_fr ..) ?_ (by decide)
  refine .wr ?_ (by decide) (.fld .EMI_STATUS_STATE rfl (by decide))
  exact .refl ..

theorem State.emiIdle_fr (s : State) : Fr 0x2000000000000000000000000000000000201 s (State.emiIdle s) := by
  unfold State.emiIdle
  lift_lets -underBinder
  intro x1 x2 x3
  refine Fr.have x1 ?_ (fun hx1 => ?_) <;> [unfold x1; clear_value x1]
  refine .call (State.setDac_fr ..) ?_ (by decide)
  exact .refl ..
  apply Fr.upd <;> first | show Fr _ _ _ | exact .inl rfl | exact .inr rfl | rfl
  exact hx1

theorem State.emiDischarge_fr (s : State) : Fr 0x2001000000000000000000000000000000201 s (State.emiDischarge s) := by
  unfold State.emiDischarge
  refine .call (State.emiIdle_fr ..) ?_ (by decide)
  refine .wr ?_ (by decide) (.fld .EMI_STATUS_STATE rfl (by decide))
  exact .refl ..

theorem State.emiSettle_fr (s : State) : Fr 0x2001000000000000000000000000000000201 s (State.emiSettle s) := by
  unfold State.emiSettle
  lift_lets -underBinder
  intro x1
  refine .ite ?_ ?_
  refine .call (State.emiIdle_fr ..) ?_ (by decide)
  refine .wr ?_ (by decide) (.fld .EMI_STATUS_STATE rfl (by decide))
  exact .refl ..
  refine .ite ?_ ?_
  refine .call (State.emiIdle_fr ..) ?_ (by decide)
  refine .wr ?_ (by decide) (.fld .EMI_STATUS_STATE rfl (by decide))
  exact .refl ..
  refine .ite ?_ ?_
  exact .refl ..
  refine .ite ?_ ?_
  refine .ite ?_ ?_
  refine .call (State.emiDischarge_fr ..) ?_ (by decide)
  exact .refl ..
  refine .call (State.emiIdle_fr ..) ?_ (by decide)
  refine .wr ?_ (by decide) (.fld .EMI_STATUS_STATE rfl (by decide))
  exact .refl ..
  refine .ite ?_ ?_
  refine .ite ?_ ?_
  exact .refl ..
  refine .call (State.emiIdle_fr ..) ?_ (by decide)
  refine .wr ?_ (by decide) (.fld .EMI_STATUS_STATE rfl (by decide))
  exact .refl ..
  refine .ite ?_ ?_
  refine .ite ?_ ?_
  exact .refl ..
  refine .call (State.emiDischarge_fr ..) ?_ (by decide)
  exact .refl ..
  refine .call (State.emiWait_fr ..) ?_ (by decide)
  exact .refl ..

theorem State.hl_fr (s : State) (f : Hlm → Hlm) : Fr 0x1000 s (State.hl s f) := by
  unfold State.hl
  apply Fr.upd <;> first | show Fr _ _ _ | exact .inl rfl | exact .inr rfl | rfl
  exact .refl ..

theorem State.setHist_fr (s : State) (l : Nat) (h : LawHist) : Fr 0x1000 s (State.setHist s l h) := by
  unfold State.setHist
  refine .call (State.hl_fr ..) ?_ (by decide)
  exact .refl ..

theorem State.handover_fr (s : State) (l : Nat) (u : Int) (skip : Bool) :
    Fr 0x8000000000000000000000000000000000001001 s (State.handover s l u skip) := by
  unfold State.handover
  refine .call (State.hl_fr ..) ?_ (by decide)
  refine .wr ?_ (by decide) (.fld .HLM_STATUS_HO_ACTIVE rfl (by decide))
  refine .call (State.setHist_fr ..) ?_ (by decide)
  exact .refl ..

theorem State.setTl_fr (s : State) (v : Nat) : Fr 0x40000000000000000000000000000000000001001 s (State.setTl s v) := by
  unfold State.setTl
  lift_lets -underBinder
  intro x1 x2
  refine Fr.have x1 ?_ (fun hx1 => ?_) <;> [unfold x1; clear_value x1]
  refine .ite ?_ ?_
  refine .call (State.hl_fr ..) ?_ (by decide)
  exact .refl ..
  exact .refl ..
  refine Fr.have x2 ?_ (fun hx2 => ?_) <;> [unfold x2; clear_value x2]
  refine .wr ?_ (by decide) (.fld .HLM_STATUS_TL_STATE rfl (by decide))
  exact hx1
  refine .ite ?_ ?_
  refine .call (State.hl_fr ..) ?_ (by decide)
  exact hx2
  exact hx2

theorem State.tiltFollow_fr (s : State) : Fr 0x40000000000000000000000000000000000001001 s (State.tiltFollow s) := by
  unfold State.tiltFollow
  refine .ite ?_ ?_
  exact .refl ..
  lift_lets -underBinder
  intro x1
  refine .call (State.setTl_fr ..) ?_ (by decide)
  exact .refl ..

theorem State.setSp_fr (s : State) (v : Nat) : Fr 0x60000000000000000000000000000000000001001 s (State.setSp s v) := by
  unfold State.setSp
  refine .call (State.tiltFollow_fr ..) ?_ (by decide)
  refine .wr ?_ (by decide) (.fld .HLM_STATUS_SP_STATE rfl (by decide))
  exact .refl ..

theorem State.traceRecord_fr (s : State) : Fr 0x780000000000000000000000000000000000000001003 s (State.traceRecord s) := by
  unfold State.traceRecord
  lift_lets -underBinder
  intro x1 x2 x3 x4
  refine Fr.have x2 ?_ (fun hx2 => ?_) <;> [unfold x2; clear_value x2]
  with_reducible apply Fr.forN
  exact .refl ..
  intro x5 x6
  refine .setReg ?_ (by decide) (.words2 .w_HLM_TRACE_BUF rfl (by decide))
  exact .refl ..
  refine Fr.have x3 ?_ (fun hx3 => ?_) <;> [unfold x3; clear_value x3]
  refine .call (State.hl_fr ..) ?_ (by decide)
  exact hx2
  refine Fr.have x4 ?_ (fun hx4 => ?_) <;> [unfold x4; clear_value x4]
  refine .wr ?_ (by decide) (.fld .HLM_TRACE_STATUS_OLDEST rfl (by decide))
  exact hx3
  refine .ite ?_ ?_
  refine .call (State.raise_fr ..) ?_ (by decide)
  refine .wr ?_ (by decide) (.fld .HLM_TRACE_STATUS_DONE rfl (by decide))
  refine .wr ?_ (by decide) (.fld .HLM_TRACE_STATUS_RECORDING rfl (by decide))
  exact hx4
  exact hx4

theorem State.traceTrigger_fr (s : State) : Fr 0x1000 s (State.traceTrigger s) := by
  unfold State.traceTrigger
  refine .ite ?_ ?_
  refine .call (State.hl_fr ..) ?_ (by decide)
  exact .refl ..
  exact .refl ..

theorem State.tickEnd_fr (s : State) : Fr 0x780000000000000000000000000000000000000001003 s (State.tickEnd s) := by
  unfold State.tickEnd
  lift_lets -underBinder
  intro x1 x2 x3 x4 x5 x6 x7 x8 x9 x10
  refine Fr.have x3 ?_ (fun hx3 => ?_) <;> [unfold x3; clear_value x3]
  refine .call (State.hl_fr ..) ?_ (by decide)
  exact .refl ..
  refine Fr.have x5 ?_ (fun hx5 => ?_) <;> [unfold x5; clear_value x5]
  refine .ite ?_ ?_
  refine .call (State.traceTrigger_fr ..) ?_ (by decide)
  exact hx3
  exact hx3
  refine Fr.have x10 ?_ (fun hx10 => ?_) <;> [unfold x10; clear_value x10]
  refine .ite ?_ ?_
  refine .call (State.traceTrigger_fr ..) ?_ (by decide)
  exact hx5
  exact hx5
  refine .ite ?_ ?_
  exact hx3
  refine .ite ?_ ?_
  refine .call (State.hl_fr ..) ?_ (by decide)
  exact hx5
  refine .call (State.traceRecord_fr ..) ?_ (by decide)
  refine .call (State.hl_fr ..) ?_ (by decide)
  exact hx10

theorem State.tickDone_fr (s : State) : Fr 0x780000000000000000000000000000000000000001003 s (State.tickDone s) := by
  unfold State.tickDone
  refine .ite ?_ ?_
  exact .refl ..
  refine .call (State.tickEnd_fr ..) ?_ (by decide)
  exact .refl ..

theorem State.brake_fr (s : State) (trip : Bool) : Fr 0x780068000000000000000000000000000000000001003 s (State.brake s trip) := by
  unfold State.brake
  lift_lets -underBinder
  intro x1 x2 x3 x4 x5 x6
  refine Fr.have x2 ?_ (fun hx2 => ?_) <;> [unfold x2; clear_value x2]
  refine .ite ?_ ?_
  refine .call (State.hl_fr ..) ?_ (by decide)
  refine .wr ?_ (by decide) (.fld .HLM_STATUS_HO_ACTIVE rfl (by decide))
  exact .refl ..
  exact .refl ..
  refine Fr.have x4 ?_ (fun hx4 => ?_) <;> [unfold x4; clear_value x4]
  refine .call (State.hl_fr ..) ?_ (by decide)
  exact hx2
  refine Fr.have x5 ?_ (fun hx5 => ?_) <;> [unfold x5; clear_value x5]
  refine .ite ?_ ?_
  refine .call (State.handover_fr ..) ?_ (by decide)
  refine .call (State.hl_fr ..) ?_ (by decide)
  exact hx4
  refine .ite ?_ ?_
  refine .call (State.handover_fr ..) ?_ (by decide)
  exact hx4
  refine .call (State.hl_fr ..) ?_ (by decide)
  exact hx4
  refine Fr.have x6 ?_ (fun hx6 => ?_) <;> [unfold x6; clear_value x6]
  refine .call (State.setSp_fr ..) ?_ (by decide)
  refine .call (State.hl_fr ..) ?_ (by decide)
  exact hx5
  refine .ite ?_ ?_
  exact .refl ..
  refine .ite ?_ ?_
  exact hx2
  refine .ite ?_ ?_
  refine .call (State.tickDone_fr ..) ?_ (by decide)
  exact hx6
  exact hx6

theorem State.releaseSp_fr (s : State) : Fr 0x8000000000000000000000000000000000001001 s (State.releaseSp s) := by
  unfold State.releaseSp
  refine .call (State.hl_fr ..) ?_ (by decide)
  refine .wr ?_ (by decide) (.fld .HLM_STATUS_HO_ACTIVE rfl (by decide))
  exact .refl ..

theorem State.enterCatch_fr (s : State) : Fr 0x68000000000000000000000000000000000001001 s (State.enterCatch s) := by
  unfold State.enterCatch
  refine .call (State.setSp_fr ..) ?_ (by decide)
  refine .call (State.releaseSp_fr ..) ?_ (by decide)
  exact .refl ..

theorem State.spinUp_fr (s : State) : Fr 0x60000000000000000000000000000000000001001 s (State.spinUp s) := by
  unfold State.spinUp
  refine .call (State.setSp_fr ..) ?_ (by decide)
  refine .call (State.hl_fr ..) ?_ (by decide)
  exact .refl ..

theorem State.helmStart_fr (s : State) (t : Nat) : Fr 0x68000000000000000000000000000000000001001 s (State.helmStart s t) := by
  unfold State.helmStart
  refine .ite ?_ ?_
  refine .ite ?_ ?_
  refine .call (State.enterCatch_fr ..) ?_ (by decide)
  exact .refl ..
  refine .call (State.spinUp_fr ..) ?_ (by decide)
  exact .refl ..
  exact .refl ..

theorem State.helmSettle_fr (s : State) : Fr 0x78006c000000000000000000000000000040000001003 s (State.helmSettle s) := by
  unfold State.helmSettle
  refine .ite ?_ ?_
  refine .ite ?_ ?_
  unfold State.latchPend
  refine .ite ?_ ?_
  exact .refl ..
  refine .call (State.raise_fr ..) ?_ (by decide)
  refine .wr ?_ (by decide) (.fld .SYS_PEND_STATUS_HLM rfl (by decide))
  refine .wr ?_ (by decide) (.fld .HLM_STATUS_PENDING_ENABLE rfl (by decide))
  exact .refl ..
  refine .call (State.helmStart_fr ..) ?_ (by decide)
  exact .refl ..
  lift_lets -underBinder
  intro x1
  refine Fr.have x1 ?_ (fun hx1 => ?_) <;> [unfold x1; clear_value x1]
  refine .ite ?_ ?_
  exact .refl ..
  unfold State.dropPend
  refine .wr ?_ (by decide) (.fld .SYS_PEND_STATUS_HLM rfl (by decide))
  refine .wr ?_ (by decide) (.fld .HLM_STATUS_PENDING_ENABLE rfl (by decide))
  exact .refl ..
  refine .call (State.hl_fr ..) ?_ (by decide)
  refine .call (State.brake_fr ..) ?_ (by decide)
  exact hx1

theorem State.goMode_fr (s : State) (m : Nat) (cause : Nat) :
    Fr 0x800000000000000000000001400000080000000000000001fe80000010000000478006c00200110000000000120000000f04a038111a7b s (State.goMode s m cause) := by
  unfold State.goMode
  lift_lets -underBinder
  intro x1
  refine Fr.have x1 ?_ (fun hx1 => ?_) <;> [unfold x1; clear_value x1]
  refine .call (State.helmSettle_fr ..) ?_ (by decide)
  refine .call (State.emiSettle_fr ..) ?_ (by decide)
  refine .call (State.transition_fr ..) ?_ (by decide)
  exact .refl ..
  refine .ite ?_ ?_
  refine .call (State.sealLock_fr ..) ?_ (by decide)
  exact hx1
  exact hx1

theorem State.hs_fr (s : State) (f : His → His) : Fr 0x40 s (State.hs s f) := by
  unfold State.hs
  apply Fr.upd <;> first | show Fr _ _ _ | exact .inl rfl | exact .inr rfl | rfl
  exact .refl ..

theorem State.hisTake_fr (s : State) : Fr 0x200000000000000000000041 s (State.hisTake s) := by
  unfold State.hisTake
  refine .call (State.hs_fr ..) ?_ (by decide)
  refine .wr ?_ (by decide) (.fld .HIS_STATUS_SETTINGS_PENDING rfl (by decide))
  exact .refl ..

theorem State.hdlRelayCut_fr (s : State) :
    Fr 0x10000000000000000000000000000000000000000000000000000000000000000000000000000000000000000000000000000000000000100001 s (State.hdlRelayCut s) := by
  unfold State.hdlRelayCut
  split
  refine .ite ?_ ?_
  lift_lets -underBinder
  intro x1 x2
  refine Fr.have x1 ?_ (fun hx1 => ?_) <;> [unfold x1; skip]
  refine .wr ?_ (by decide) (.fld .BOOT_HDL_STATUS_TX_BUSY rfl (by decide))
  exact .refl ..
  apply Fr.upd <;> first | show Fr _ _ _ | exact .inl rfl | exact .inr rfl | rfl
  exact hx1
  exact .refl ..
  exact .refl ..

theorem State.hdlRxAbort_fr (s : State) :
    Fr 0x1c000000000000000000000000000000000000000000000000000000000000000000000000000000000000000000000000000000000000100007 s (State.hdlRxAbort s) := by
  unfold State.hdlRxAbort
  split
  lift_lets -underBinder
  intro x1 x2
  refine Fr.have x1 ?_ (fun hx1 => ?_) <;> [unfold x1; clear_value x1]
  refine .wr ?_ (by decide) (.fld .BOOT_HDL_STATUS_RESULT rfl (by decide))
  refine .wr ?_ (by decide) (.fld .BOOT_HDL_STATUS_RX_BUSY rfl (by decide))
  with_reducible refine Fr.pair (by assumption) ?_
  refine .call (State.drawFree_fr ..) ?_ (by decide)
  exact .refl ..
  refine .call (State.hdlRelayCut_fr ..) ?_ (by decide)
  refine .call (State.raise_fr ..) ?_ (by decide)
  apply Fr.upd <;> first | show Fr _ _ _ | exact .inl rfl | exact .inr rfl | rfl
  exact hx1

theorem State.hdlRxCut_fr (s : State) :
    Fr 0x1c000000000000000000000000000000000000000000000000000000000000000000000000000000000000000000000000000000000000100007 s (State.hdlRxCut s) := by
  unfold State.hdlRxCut
  refine .ite ?_ ?_
  refine .call (State.hdlRxAbort_fr ..) ?_ (by decide)
  exact .refl ..
  refine .call (State.hdlRelayCut_fr ..) ?_ (by decide)
  exact .refl ..

theorem State.setLi_fr (s : State) (v : Bool) : Fr 0x212000000000000000000000000000000000000000002001 s (State.setLi s v) := by
  unfold State.setLi
  lift_lets -underBinder
  intro x1
  refine .ite ?_ ?_
  refine .call (State.hedgeShow_fr ..) ?_ (by decide)
  refine .call (State.hd_fr ..) ?_ (by decide)
  exact .refl ..
  refine .put ?_ (by decide) (.fld .HDG_STATUS_LI_LEVEL rfl (by decide))
  exact .refl ..

theorem State.finderErrors_fr (s : State) (c : Nat) : Fr 0x300000000000000000000000043 s (State.finderErrors s c) := by
  unfold State.finderErrors
  with_reducible apply Fr.foldl
  exact .refl ..
  intro x1 x2
  split
  refine .call (State.hisCE_fr ..) ?_ (by decide)
  refine .call (State.hs_fr ..) ?_ (by decide)
  exact .refl ..
  refine .call (State.hisUE_fr ..) ?_ (by decide)
  exact .refl ..
  exact .refl ..

theorem State.onLane_fr (s : State) (b : Nat) (c : Nat) (f : Lane → Lane) : Fr 0x40 s (State.onLane s b c f) := by
  unfold State.onLane
  lift_lets -underBinder
  intro x1
  refine .call (State.setBank_fr ..) ?_ (by decide)
  exact .refl ..

theorem State.publish_fr (s : State) (f : Nat) (l : Nat) :
    Fr 0x100000000000000000000000000000000000000000000000000000000000000000000000000000000000000000003000000000000000000002000c3 s (State.publish s f l) := by
  unfold State.publish
  lift_lets -underBinder
  intro x1 x2
  refine Fr.have x2 ?_ (fun hx2 => ?_) <;> [unfold x2; clear_value x2]
  refine .call (State.finderErrors_fr ..) ?_ (by decide)
  exact .refl ..
  split
  lift_lets -underBinder
  intro x3 x4 x5 x6 x7 x8 x9 x10 x11 x12
  refine Fr.have x6 ?_ (fun hx6 => ?_) <;> [unfold x6; clear_value x6]
  refine .call (State.onLane_fr ..) ?_ (by decide)
  exact hx2
  refine Fr.have x10 ?_ (fun hx10 => ?_) <;> [unfold x10; clear_value x10]
  refine .call (State.hs_fr ..) ?_ (by decide)
  exact hx6
  refine Fr.have x12 ?_ (fun hx12 => ?_) <;> [unfold x12; clear_value x12]
  refine .call (State.count_fr ..) ?_ (by decide)
  exact hx10
  refine .ite ?_ ?_
  exact hx12
  refine .call (State.onTiller_fr ..) ?_ (by decide)
  exact hx12

theorem execLanePublication_fr (f : Fin 192) (s : State) :
    Runs 0x100000000000000000000000000000000000000000000000000000000000000000000000000000000000000000003000000000000000000002000c3 s (execLanePublication f s) := by
  unfold execLanePublication
  refine .next ?_
  lift_lets -underBinder
  intro x1
  refine .ite ?_ ?_
  refine .call (State.publish_fr ..) ?_ (by decide)
  exact .refl ..
  exact .refl ..

theorem State.capArm_fr (s : State) : Fr 0x6000000000000000000000000000000000000000000000000000000001 s (State.capArm s) := by
  unfold State.capArm
  refine .ite ?_ ?_
  refine .wr ?_ (by decide) (.fld .MER_CAP_STATUS_ARMED rfl (by decide))
  refine .wr ?_ (by decide) (.fld .MER_CAP_STATUS_DONE rfl (by decide))
  exact .refl ..
  exact .refl ..

theorem execCaptureArm_fr (s : State) :
    Runs 0x1000000000000000000000000000000000000000000000000000000000000600000000000000000000000000000000000000000000000000020000b s (execCaptureArm s) := by
  unfold execCaptureArm
  refine .next ?_
  (with_reducible apply State.access_fr) <;> [skip; skip; decide]
  exact .refl ..
  intro x1
  refine .call (State.capArm_fr ..) ?_ (by decide)
  exact .refl ..

theorem State.voidPair_fr (s : State) : Fr 0x1000000000000000000000000000000000000000000001 s (State.voidPair s) := by
  unfold State.voidPair
  refine .ite ?_ ?_
  exact .refl ..
  refine .wr ?_ (by decide) (.fld .HDG_STATUS_RST_PHASE rfl (by decide))
  exact .refl ..

theorem State.dropDownload_fr (s : State) :
    Fr 0x1c00008800000000000000000000000000000000000000000000000000000000000000000000000000000000000000000000000f00000010080f s (State.dropDownload s) := by
  unfold State.dropDownload
  lift_lets -underBinder
  intro x1 x2 x3 x4
  refine Fr.have x1 ?_ (fun hx1 => ?_) <;> [unfold x1; clear_value x1]
  refine .call (State.hdlRxCut_fr ..) ?_ (by decide)
  refine .wr ?_ (by decide) (.fld .BOOT_STATUS_SLOT_WRITE rfl (by decide))
  refine .wr ?_ (by decide) (.fld .BOOT_STATUS_SESSION rfl (by decide))
  exact .refl ..
  refine Fr.have x4 ?_ (fun hx4 => ?_) <;> [unfold x4; clear_value x4]
  apply Fr.upd <;> first | show Fr _ _ _ | exact .inl rfl | exact .inr rfl | rfl
  exact hx1
  split
  refine .ite ?_ ?_
  refine .call (State.answer_fr ..) ?_ (by decide)
  exact hx4
  exact hx4
  exact hx4

theorem State.modeTrip_fr (s : State) :
    Fr 0x1c0000880000000000000000000001400000080000000000000001fe80000010000000478006c00200110000000000120000000f04b03c111a7f s (State.modeTrip s) := by
  unfold State.modeTrip
  refine .ite ?_ ?_
  exact .refl ..
  refine .call (State.goMode_fr ..) ?_ (by decide)
  refine .call (State.stopSuperseded_fr ..) ?_ (by decide)
  refine .ite ?_ ?_
  refine .call (State.dropDownload_fr ..) ?_ (by decide)
  exact .refl ..
  exact .refl ..

theorem State.addCause_fr (s : State) (c : Nat) : Fr 0x100000000000000000000000000000000000000000000001 s (State.addCause s c) := by
  unfold State.addCause
  refine .wr ?_ (by decide) (.fld .HDG_TRIP_CAUSE_CAUSE rfl (by decide))
  exact .refl ..

theorem State.mapLanes_fr (s : State) (b : Nat) (f : Nat → Lane → Lane) : Fr 0x40 s (State.mapLanes s b f) := by
  unfold State.mapLanes
  lift_lets -underBinder
  intro x1
  refine .call (State.setBank_fr ..) ?_ (by decide)
  exact .refl ..

theorem State.capEdge_fr (s : State) (src : Nat) (same : Nat → Bool) : Fr 0x8000 s (State.capEdge s src same) := by
  unfold State.capEdge
  refine .ite ?_ ?_
  lift_lets -underBinder
  intro x1 x2
  apply Fr.upd <;> first | show Fr _ _ _ | exact .inl rfl | exact .inr rfl | rfl
  exact .refl ..
  exact .refl ..

theorem State.runEdgeTrip_fr (s : State) : Fr 0x8004 s (State.runEdgeTrip s) := by
  unfold State.runEdgeTrip
  split
  refine .call (State.capEdge_fr ..) ?_ (by decide)
  apply Fr.upd <;> first | show Fr _ _ _ | exact .inl rfl | exact .inr rfl | rfl
  with_reducible refine Fr.pair (by assumption) ?_
  refine .call (State.drawFree_fr ..) ?_ (by decide)
  exact .refl ..

theorem State.curveCopy_fr (s : State) : Fr 0x202000218000000000000000000000000000003 s (State.curveCopy s) := by
  unfold State.curveCopy
  lift_lets -underBinder
  intro x1
  refine Fr.have x1 ?_ (fun hx1 => ?_) <;> [unfold x1; clear_value x1]
  refine .wr ?_ (by decide) (.fld .EMI_STATUS_COMMIT_PENDING rfl (by decide))
  exact .refl ..
  split
  refine .call (State.raise_fr ..) ?_ (by decide)
  refine .wr ?_ (by decide) (.fld .EMI_STATUS_REJ_VALID rfl (by decide))
  refine .wr ?_ (by decide) (.fld .EMI_STATUS_REJ_P rfl (by decide))
  exact hx1
  refine .call (State.waitDac_fr ..) ?_ (by decide)
  refine .wr ?_ (by decide) (.fld .EMI_STATUS_REJ_VALID rfl (by decide))
  with_reducible apply Fr.forN
  exact hx1
  intro x2 x3
  refine .wr ?_ (by decide) (.arr .EMI_CURVE_ACT_DAC rfl (by decide))
  exact .refl ..

theorem State.hisSample_fr (s : State) : Fr 0x200000000000000000000043 s (State.hisSample s) := by
  unfold State.hisSample
  lift_lets -underBinder
  intro x1
  refine .call (State.raiseIf_fr ..) ?_ (by decide)
  refine .call (State.hisTake_fr ..) ?_ (by decide)
  exact .refl ..

theorem State.em_fr (s : State) (f : Emi → Emi) : Fr 0x200 s (State.em s f) := by
  unfold State.em
  apply Fr.upd <;> first | show Fr _ _ _ | exact .inl rfl | exact .inr rfl | rfl
  exact .refl ..

theorem State.emiSample_fr (s : State) : Fr 0x2000000000000000000000000000000000201 s (State.emiSample s) := by
  unfold State.emiSample
  refine .call (State.waitDac_fr ..) ?_ (by decide)
  refine .call (State.em_fr ..) ?_ (by decide)
  exact .refl ..

theorem State.cyclesStop_fr (s : State) : Fr 0x2020002180000002001cf014000000000000273 s (State.cyclesStop s) := by
  unfold State.cyclesStop
  lift_lets -underBinder
  intro x1 x2 x3
  refine Fr.have x1 ?_ (fun hx1 => ?_) <;> [unfold x1; clear_value x1]
  refine .call (State.emiSample_fr ..) ?_ (by decide)
  refine .call (State.hisSample_fr ..) ?_ (by decide)
  exact .refl ..
  refine Fr.have x2 ?_ (fun hx2 => ?_) <;> [unfold x2; clear_value x2]
  refine .ite ?_ ?_
  refine .call (State.curveCopy_fr ..) ?_ (by decide)
  exact hx1
  exact hx1
  refine Fr.have x3 ?_ (fun hx3 => ?_) <;> [unfold x3; clear_value x3]
  refine .ite ?_ ?_
  refine .call (State.em_fr ..) ?_ (by decide)
  exact hx2
  exact hx2
  refine .call (State.detBoundary_fr ..) ?_ (by decide)
  refine .call (State.tdcBoundary_fr ..) ?_ (by decide)
  exact hx3

theorem State.capFinish_fr (s : State) (bytes : List Byte) :
    Fr 0xc000000000000000000000000000000000000000000000000000008001 s (State.capFinish s bytes) := by
  unfold State.capFinish
  lift_lets -underBinder
  intro x1 x2
  refine Fr.have x2 ?_ (fun hx2 => ?_) <;> [unfold x2; clear_value x2]
  apply Fr.upd <;> first | show Fr _ _ _ | exact .inl rfl | exact .inr rfl | rfl
  exact .refl ..
  refine .wr ?_ (by decide) (.fld .MER_CAP_STATUS_SEG rfl (by decide))
  refine .put ?_ (by decide) (.fld .MER_CAP_STATUS_ARMED rfl (by decide))
  exact hx2

theorem State.capFinishHist_fr (s : State) (r : CapRec) (payload : List Byte) (vals : List Nat) (count : Nat) :
    Fr 0xc000000000000000000000000000000000000000000000000000008001 s (State.capFinishHist s r payload vals count) := by
  unfold State.capFinishHist
  split
  refine .call (State.capFinish_fr ..) ?_ (by decide)
  exact .refl ..

theorem State.capFreeze_fr (s : State) (b : Nat) :
    Fr 0xc000000000000000000000000000000000000000000000000000008001 s (State.capFreeze s b) := by
  unfold State.capFreeze
  split
  refine .ite ?_ ?_
  lift_lets -underBinder
  intro x1 x2 x3
  refine .call (State.capFinishHist_fr ..) ?_ (by decide)
  exact .refl ..
  exact .refl ..
  exact .refl ..

theorem State.postReady_fr (s : State) (b : Nat) (abandoned : Bool) (final : Bool) (own : Bool) :
    Fr 0x80 s (State.postReady s b abandoned final own) := by
  unfold State.postReady
  with_reducible apply Fr.forN
  exact .refl ..
  intro x1 x2
  refine .call (State.onTiller_fr ..) ?_ (by decide)
  exact .refl ..

theorem State.abandon_fr (s : State) :
    Fr 0x1000000000000000000000000000000000000000000000000000000000000c0000000000000000002020002180600006001cf0140000000002083f7 s (State.abandon s) := by
  unfold State.abandon
  lift_lets -underBinder
  intro x1 x2 x3 x4 x5 x6
  refine Fr.have x1 ?_ (fun hx1 => ?_) <;> [unfold x1; clear_value x1]
  refine .call (State.hs_fr ..) ?_ (by decide)
  exact .refl ..
  refine Fr.have x3 ?_ (fun hx3 => ?_) <;> [unfold x3; clear_value x3]
  refine .call (State.mapLanes_fr ..) ?_ (by decide)
  exact hx1
  refine Fr.have x4 ?_ (fun hx4 => ?_) <;> [unfold x4; clear_value x4]
  with_reducible apply Fr.forN
  exact hx3
  intro x7 x8
  refine .call (State.dropBlock_fr ..) ?_ (by decide)
  exact .refl ..
  refine Fr.have x5 ?_ (fun hx5 => ?_) <;> [unfold x5; clear_value x5]
  refine .call (State.capFreeze_fr ..) ?_ (by decide)
  refine .call (State.postReady_fr ..) ?_ (by decide)
  exact hx4
  refine Fr.have x6 ?_ (fun hx6 => ?_) <;> [unfold x6; clear_value x6]
  refine .call (State.hs_fr ..) ?_ (by decide)
  refine .wr ?_ (by decide) (.fld .HIS_STATUS_RUNNING rfl (by decide))
  exact hx5
  refine .ite ?_ ?_
  exact hx1
  refine .call (State.runEdgeTrip_fr ..) ?_ (by decide)
  refine .call (State.cyclesStop_fr ..) ?_ (by decide)
  refine .call (State.hisTake_fr ..) ?_ (by decide)
  exact hx6

theorem State.helmTrip_fr (s : State) : Fr 0x78006c400000000000000000000000000040000001003 s (State.helmTrip s) := by
  unfold State.helmTrip
  refine .call (State.hl_fr ..) ?_ (by decide)
  refine .call (State.brake_fr ..) ?_ (by decide)
  unfold State.dropPend
  refine .wr ?_ (by decide) (.fld .SYS_PEND_STATUS_HLM rfl (by decide))
  refine .wr ?_ (by decide) (.fld .HLM_STATUS_PENDING_ENABLE rfl (by decide))
  refine .wr ?_ (by decide) (.fld .HLM_CTRL_EN rfl (by decide))
  exact .refl ..

theorem State.setGst_fr (s : State) (v : Nat) : Fr 0x252000000000000000000000000000000000000000002001 s (State.setGst s v) := by
  unfold State.setGst
  lift_lets -underBinder
  intro x1
  refine .call (State.setLi_fr ..) ?_ (by decide)
  refine .wr ?_ (by decide) (.fld .HDG_STATUS_STATE rfl (by decide))
  exact .refl ..

theorem State.emiTrip_fr (s : State) : Fr 0x2001404000000000000000000080000000201 s (State.emiTrip s) := by
  unfold State.emiTrip
  refine .call (State.emiSettle_fr ..) ?_ (by decide)
  refine .wr ?_ (by decide) (.fld .EMI_CTRL_EN rfl (by decide))
  unfold State.dropPend
  refine .wr ?_ (by decide) (.fld .SYS_PEND_STATUS_EMI rfl (by decide))
  refine .wr ?_ (by decide) (.fld .EMI_STATUS_PENDING_ENABLE rfl (by decide))
  exact .refl ..

theorem State.trip_fr (s : State) (c : Nat) :
    Fr 0x1001c0000880000000000000000000001400000080000000000000001fe80c0001040003df78006c60200171c0600006013cf01400f0cb03c31bbff s (State.trip s c) := by
  unfold State.trip
  refine .ite ?_ ?_
  refine .call (State.hedgeShow_fr ..) ?_ (by decide)
  refine .ite ?_ ?_
  exact .refl ..
  refine .call (State.raise_fr ..) ?_ (by decide)
  refine .call (State.voidPair_fr ..) ?_ (by decide)
  refine .call (State.addCause_fr ..) ?_ (by decide)
  exact .refl ..
  lift_lets -underBinder
  intro x1 x2 x3
  refine Fr.have x1 ?_ (fun hx1 => ?_) <;> [unfold x1; clear_value x1]
  refine .call (State.addCause_fr ..) ?_ (by decide)
  refine .wr ?_ (by decide) (.fld .HDG_TRIP_CAUSE_FIRST rfl (by decide))
  refine .wr ?_ (by decide) (.fld .HDG_STATUS_LATCH rfl (by decide))
  exact .refl ..
  refine Fr.have x2 ?_ (fun hx2 => ?_) <;> [unfold x2; clear_value x2]
  refine .call (State.hd_fr ..) ?_ (by decide)
  refine .call (State.setGst_fr ..) ?_ (by decide)
  exact hx1
  refine Fr.have x3 ?_ (fun hx3 => ?_) <;> [unfold x3; clear_value x3]
  refine .call (State.modeTrip_fr ..) ?_ (by decide)
  refine .call (State.abandon_fr ..) ?_ (by decide)
  refine .call (State.helmTrip_fr ..) ?_ (by decide)
  refine .call (State.emiTrip_fr ..) ?_ (by decide)
  refine .call (State.voidPair_fr ..) ?_ (by decide)
  exact hx2
  refine .call (State.hedgeShow_fr ..) ?_ (by decide)
  refine .call (State.raise_fr ..) ?_ (by decide)
  refine .bump ?_ (by decide) (.fld .HDG_CNT_TRIP_COUNT rfl (by decide))
  exact hx3

theorem execFovDwellExpiry_fr (s : State) :
    Runs 0x1001c0000880000000000000000000001400000080000000000000001fe80c0001040003df78006c60200171c0600006013cf01400f0cb03c31bbff s (execFovDwellExpiry s) := by
  unfold execFovDwellExpiry
  refine .next ?_
  refine .ite ?_ ?_
  refine .call (State.trip_fr ..) ?_ (by decide)
  exact .refl ..
  exact .refl ..

theorem State.commutate_fr (s : State) : Fr 0x1000 s (State.commutate s) := by
  unfold State.commutate
  refine .ite ?_ ?_
  exact .refl ..
  lift_lets -underBinder
  intro x1 x2
  refine .call (State.hl_fr ..) ?_ (by decide)
  exact .refl ..

theorem State.applySp_fr (s : State) (y : Int) : Fr 0x1000 s (State.applySp s y) := by
  unfold State.applySp
  lift_lets -underBinder
  intro x1 x2
  refine .call (State.commutate_fr ..) ?_ (by decide)
  refine .call (State.hl_fr ..) ?_ (by decide)
  exact .refl ..

theorem State.enterLocking_fr (s : State) : Fr 0x60000000000000000000000000000000000001001 s (State.enterLocking s) := by
  unfold State.enterLocking
  refine .call (State.setSp_fr ..) ?_ (by decide)
  refine .call (State.hl_fr ..) ?_ (by decide)
  exact .refl ..

theorem execUnlock_fr (t : Nat) (s : State) : Runs 0x7a0069000000000000000000000000000000000001003 s (execUnlock t s) := by
  unfold execUnlock
  refine .next ?_
  refine .ite ?_ ?_
  exact .refl ..
  lift_lets -underBinder
  intro x1 x2 x3 x4 x5 x6
  refine Fr.have x3 ?_ (fun hx3 => ?_) <;> [unfold x3; clear_value x3]
  refine .call (State.hl_fr ..) ?_ (by decide)
  exact .refl ..
  refine Fr.have x4 ?_ (fun hx4 => ?_) <;> [unfold x4; clear_value x4]
  refine .call (State.applySp_fr ..) ?_ (by decide)
  refine .call (State.handover_fr ..) ?_ (by decide)
  exact hx3
  refine Fr.have x5 ?_ (fun hx5 => ?_) <;> [unfold x5; clear_value x5]
  refine .call (State.raise_fr ..) ?_ (by decide)
  refine .bump ?_ (by decide) (.fld .HLM_CNT_UNLOCK_COUNT rfl (by decide))
  refine .call (State.enterLocking_fr ..) ?_ (by decide)
  exact hx4
  refine Fr.have x6 ?_ (fun hx6 => ?_) <;> [unfold x6; clear_value x6]
  refine .ite ?_ ?_
  refine .call (State.raise_fr ..) ?_ (by decide)
  refine .wr ?_ (by decide) (.fld .HLM_STATUS_LOCK_FLAP rfl (by decide))
  exact hx5
  exact hx5
  refine .ite ?_ ?_
  refine .call (State.tickDone_fr ..) ?_ (by decide)
  exact hx6
  exact hx6

theorem State.lateWord_fr (s : State) (x : Option Slot) (c : Nat) : Fr 0x800000000000000000000000043 s (State.lateWord s x c) := by
  unfold State.lateWord
  lift_lets -underBinder
  intro x1
  refine Fr.have x1 ?_ (fun hx1 => ?_) <;> [unfold x1; clear_value x1]
  split
  refine .call (State.flagLane_fr ..) ?_ (by decide)
  exact .refl ..
  exact .refl ..
  refine .call (State.raise_fr ..) ?_ (by decide)
  refine .bump ?_ (by decide) (.fld .HIS_LATE_WORD_CNT_COUNT rfl (by decide))
  exact hx1

theorem State.increment_fr {w : Nat} {s0 : State} {s : State} {b : Nat} {c : Nat} {cond : Cond} {setCond : Cond → State → State} {inc : State → State} (h : Fr w s0 s) (hsetCond : ∀ a0  y, Fr w y (setCond a0  y)) (hinc : ∀  y, Fr w y (inc  y)) (hw : 0x300000000000000000000000043 &&& w = 0x300000000000000000000000043) :
    Fr w s0 (State.increment s b c cond setCond inc) := by
  refine h.trans ?_
  unfold State.increment
  split
  refine Fr.trans ?_ (hinc _)
  exact .refl ..
  refine Fr.trans ?_ (hinc _)
  (with_reducible apply Fr.call (State.hisCE_fr ..)) <;> [skip; exact sub_trans (by decide) hw]
  refine Fr.trans ?_ (hsetCond _ _)
  exact .refl ..
  (with_reducible apply Fr.call (State.hisUE_fr ..)) <;> [skip; exact sub_trans (by decide) hw]
  refine Fr.trans ?_ (hsetCond _ _)
  exact .refl ..
  exact .refl ..

theorem State.tally_fr (s : State) (b : Nat) (c : Nat) (i : Nat) (f : Lane → Lane) :
    Fr 0x300000000000000000000000043 s (State.tally s b c i f) := by
  unfold State.tally
  (with_reducible apply State.increment_fr) <;> [skip; skip; skip; decide]
  exact .refl ..
  intro x1 x2
  refine .call (State.setHead_fr ..) ?_ (by decide)
  exact .refl ..
  intro x3
  refine .call (State.onLane_fr ..) ?_ (by decide)
  exact .refl ..

theorem State.addHarrow_fr (s : State) (b : Nat) (c : Nat) (w : Nat) (i : Nat) :
    Fr 0x10000000000000000000000000000000000000000000000000000000000000000000000000000000000000000000300000000000000000000200043 s (State.addHarrow s b c w i) := by
  unfold State.addHarrow
  lift_lets -underBinder
  intro x1
  (with_reducible apply State.increment_fr) <;> [skip; skip; skip; decide]
  exact .refl ..
  intro x2 x3
  lift_lets -underBinder
  intro x4
  refine .call (State.setBank_fr ..) ?_ (by decide)
  exact .refl ..
  intro x5
  lift_lets -underBinder
  intro x6
  refine .call (State.count_fr ..) ?_ (by decide)
  refine .call (State.setBank_fr ..) ?_ (by decide)
  exact .refl ..

theorem State.addPlough_fr (s : State) (b : Nat) (c : Nat) (k : Nat) (t : Nat) :
    Fr 0x10000000000000000000000000000000000000000000000000000000000000000000000000000000000000000000300000000000000000000200043 s (State.addPlough s b c k t) := by
  unfold State.addPlough
  lift_lets -underBinder
  intro x1 x2 x3
  (with_reducible apply State.increment_fr) <;> [skip; skip; skip; decide]
  exact .refl ..
  intro x4 x5
  refine .call (State.hs_fr ..) ?_ (by decide)
  exact .refl ..
  intro x6
  refine .call (State.count_fr ..) ?_ (by decide)
  refine .call (State.hs_fr ..) ?_ (by decide)
  exact .refl ..

theorem State.applyCode_fr (s : State) (x : Slot) (c : Nat) (code : Nat) (t : Nat) :
    Fr 0x10000000000000000000000000000000000000000000000000000000000000000000000000000000000000000000300000000000000000000200043 s (State.applyCode s x c code t) := by
  unfold State.applyCode
  refine .ite ?_ ?_
  exact .refl ..
  refine .ite ?_ ?_
  refine .call (State.count_fr ..) ?_ (by decide)
  refine .call (State.tally_fr ..) ?_ (by decide)
  exact .refl ..
  refine .ite ?_ ?_
  refine .call (State.tally_fr ..) ?_ (by decide)
  exact .refl ..
  refine .ite ?_ ?_
  refine .call (State.tally_fr ..) ?_ (by decide)
  exact .refl ..
  lift_lets -underBinder
  intro x1
  refine .ite ?_ ?_
  refine .call (State.addPlough_fr ..) ?_ (by decide)
  exact .refl ..
  split
  refine .call (State.addHarrow_fr ..) ?_ (by decide)
  exact .refl ..
  refine .call (State.tally_fr ..) ?_ (by decide)
  exact .refl ..

theorem execEventWord_fr (f : Fin 192) (t : Nat) (s : State) :
    Runs 0x10000000000000000000000000000000000000000000000000000000000000000000000000000000000000000000b00000000000000000000200063 s (execEventWord f t s) := by
  unfold execEventWord
  refine .next ?_
  split
  exact .refl ..
  refine .ite ?_ ?_
  exact .refl ..
  lift_lets -underBinder
  intro x1 x2 x3 x4
  refine Fr.have x2 ?_ (fun hx2 => ?_) <;> [unfold x2; clear_value x2]
  apply Fr.upd <;> first | show Fr _ _ _ | exact .inl rfl | exact .inr rfl | rfl
  exact .refl ..
  split
  refine .ite ?_ ?_
  exact hx2
  refine .call (State.lateWord_fr ..) ?_ (by decide)
  exact hx2
  refine .ite ?_ ?_
  refine .call (State.lateWord_fr ..) ?_ (by decide)
  exact hx2
  split
  refine .call (State.applyCode_fr ..) ?_ (by decide)
  exact hx2
  refine .call (State.tally_fr ..) ?_ (by decide)
  exact hx2
  refine .call (State.tally_fr ..) ?_ (by decide)
  exact hx2
  refine .call (State.flagLane_fr ..) ?_ (by decide)
  exact hx2

theorem execLiReadback_fr (level : Bool) (s : State) :
    Runs 0x1001c0000880000000000000000000001400000080000000000000001fe80c0001040003df78006c60200171c0600006013cf01400f0cb03c31bbff s (execLiReadback level s) := by
  unfold execLiReadback
  refine .next ?_
  lift_lets -underBinder
  intro x1 x2
  refine Fr.have x2 ?_ (fun hx2 => ?_) <;> [unfold x2; clear_value x2]
  refine .call (State.hd_fr ..) ?_ (by decide)
  refine .put ?_ (by decide) (.fld .HDG_STATUS_LI_LEVEL rfl (by decide))
  exact .refl ..
  refine .ite ?_ ?_
  refine .call (State.trip_fr ..) ?_ (by decide)
  exact hx2
  refine .call (State.hedgeShow_fr ..) ?_ (by decide)
  exact hx2

theorem execCurveCommitCopy_fr (s : State) : Runs 0x202000218000000000000000000000000000003 s (execCurveCommitCopy s) := by
  unfold execCurveCommitCopy
  refine .next ?_
  refine .ite ?_ ?_
  refine .call (State.curveCopy_fr ..) ?_ (by decide)
  exact .refl ..
  exact .refl ..

theorem State.captureStore_fr (s : State) (r : List Byte) (rest : List (List Byte)) (w : Nat) (o : Nat) (wrap : Bool) :
    Fr 0x10000000000000000000000000003fe2800000000000000000000000000412000000000000000000000000000000000000000000000000000608c03 s (State.captureStore s r rest w o wrap) := by
  unfold State.captureStore
  lift_lets -underBinder
  intro x1 x2 x3 x4 x5
  refine Fr.have x2 ?_ (fun hx2 => ?_) <;> [unfold x2; clear_value x2]
  apply Fr.upd <;> first | show Fr _ _ _ | exact .inl rfl | exact .inr rfl | rfl
  exact .refl ..
  refine Fr.have x3 ?_ (fun hx3 => ?_) <;> [unfold x3; clear_value x3]
  refine .ite ?_ ?_
  refine .call (State.memStore_fr ..) ?_ (by decide)
  exact hx2
  exact hx2
  refine Fr.have x4 ?_ (fun hx4 => ?_) <;> [unfold x4; clear_value x4]
  refine .wr ?_ (by decide) (.fld .MER_CAP_WPTR_OFS rfl (by decide))
  refine .call (State.memStore_fr ..) ?_ (by decide)
  exact hx3
  refine Fr.have x5 ?_ (fun hx5 => ?_) <;> [unfold x5; clear_value x5]
  refine .call (State.raise_fr ..) ?_ (by decide)
  refine .bump ?_ (by decide) (.fld .MER_CAP_RECORDS_COUNT rfl (by decide))
  exact hx4
  refine .ite ?_ ?_
  exact hx5
  refine .wr ?_ (by decide) (.fld .MER_CAP_STATUS_DONE rfl (by decide))
  exact hx5

theorem execCaptureRecordComplete_fr (s : State) :
    Runs 0x10000000000000000000000000003fe2940000000000000000000000000412000000000000000000000000000000000000000000000008000608c03 s (execCaptureRecordComplete s) := by
  unfold execCaptureRecordComplete
  refine .next ?_
  refine .ite ?_ ?_
  exact .refl ..
  split
  exact .refl ..
  lift_lets -underBinder
  intro x1
  split
  exact .refl ..
  split
  (with_reducible apply State.whenMemory_fr) <;> [skip; skip; decide]
  exact .refl ..
  intro x2
  refine .call (State.captureStore_fr ..) ?_ (by decide)
  exact .refl ..
  refine .call (State.captureStore_fr ..) ?_ (by decide)
  exact .refl ..

theorem State.lawClip_fr (s : State) (l : Nat) (clipped : Bool) :
    Fr 0x80000000000000000000000000000000000000003 s (State.lawClip s l clipped) := by
  unfold State.lawClip
  lift_lets -underBinder
  intro x1
  refine .ite ?_ ?_
  refine .call (State.raise_fr ..) ?_ (by decide)
  refine .wr ?_ (by decide) (.fld .HLM_STATUS_LAW_SAT rfl (by decide))
  exact .refl ..
  exact .refl ..

theorem State.runLaw_fr (s : State) (l : Nat) (e : Int) (off : Int) (low : Int) (slew : Option (Int × Int)) :
    Fr 0x10000000000000000000000000000000000000000000000000000000000000000000000000000080000000000000000000000000000000000201003 s (State.runLaw s l e off low slew).2 := by
  unfold State.runLaw
  lift_lets -underBinder
  intro x1 x2 x3 x4 x5 x6
  refine Fr.have x4 ?_ (fun hx4 => ?_) <;> [unfold x4; clear_value x4]
  refine .call (State.count_fr ..) ?_ (by decide)
  refine .call (State.lawClip_fr ..) ?_ (by decide)
  exact .refl ..
  with_reducible apply Fr.ite2
  split
  lift_lets -underBinder
  intro x7 x8
  dsimp +zetaDelta -zeta only
  refine .call (State.setHist_fr ..) ?_ (by decide)
  exact .refl ..
  dsimp +zetaDelta -zeta only
  exact .refl ..
  dsimp +zetaDelta -zeta only
  refine .call (State.setHist_fr ..) ?_ (by decide)
  exact hx4

theorem State.driveSp_fr (s : State) (e : Int) (low : Int) :
    Fr 0x10000000000000000000000000000000000000000000000000000000000000000000000000000080000000000000000000000000000000000201003 s (State.driveSp s e low) := by
  unfold State.driveSp
  split
  exact .refl ..
  refine .ite ?_ ?_
  refine .call (State.applySp_fr ..) ?_ (by decide)
  refine .call (State.hl_fr ..) ?_ (by decide)
  exact .refl ..
  lift_lets -underBinder
  intro x1
  split
  refine .call (State.applySp_fr ..) ?_ (by decide)
  refine .call (State.hl_fr ..) ?_ (by decide)
  with_reducible refine Fr.pair (by assumption) ?_
  refine .call (State.runLaw_fr ..) ?_ (by decide)
  exact .refl ..

theorem execLockAttempt_fr (s : State) :
    Runs 0x100000000000000000000000000000000000000000000000000000000000000000000000007910e8000000000000000000000000000000000201003 s (execLockAttempt s) := by
  unfold execLockAttempt
  refine .next ?_
  refine .ite ?_ ?_
  exact .refl ..
  lift_lets -underBinder
  intro x1 x2 x3 x4 x5 x6 x7 x8 x9 x10
  refine Fr.have x2 ?_ (fun hx2 => ?_) <;> [unfold x2; clear_value x2]
  refine .call (State.hl_fr ..) ?_ (by decide)
  exact .refl ..
  refine Fr.have x3 ?_ (fun hx3 => ?_) <;> [unfold x3; clear_value x3]
  refine .ite ?_ ?_
  refine .wr ?_ (by decide) (.fld .HLM_MEAS_PHASE_E_PH rfl (by decide))
  refine .call (State.hl_fr ..) ?_ (by decide)
  exact hx2
  exact hx2
  refine Fr.have x4 ?_ (fun hx4 => ?_) <;> [unfold x4; clear_value x4]
  refine .call (State.hl_fr ..) ?_ (by decide)
  exact hx3
  refine Fr.have x6 ?_ (fun hx6 => ?_) <;> [unfold x6; clear_value x6]
  refine .call (State.handover_fr ..) ?_ (by decide)
  refine .call (State.hl_fr ..) ?_ (by decide)
  exact hx4
  refine Fr.have x7 ?_ (fun hx7 => ?_) <;> [unfold x7; clear_value x7]
  refine .call (State.raiseIf_fr ..) ?_ (by decide)
  refine .bump ?_ (by decide) (.fld .HLM_CNT_LOCK_REF_COUNT rfl (by decide))
  exact hx4
  refine Fr.have x9 ?_ (fun hx9 => ?_) <;> [unfold x9; clear_value x9]
  refine .call (State.hl_fr ..) ?_ (by decide)
  exact hx7
  refine Fr.have x10 ?_ (fun hx10 => ?_) <;> [unfold x10; clear_value x10]
  refine .ite ?_ ?_
  refine .call (State.raise_fr ..) ?_ (by decide)
  refine .call (State.setSp_fr ..) ?_ (by decide)
  refine .call (State.applySp_fr ..) ?_ (by decide)
  exact hx6
  refine .ite ?_ ?_
  refine .call (State.driveSp_fr ..) ?_ (by decide)
  exact hx9
  exact hx9
  refine .ite ?_ ?_
  refine .call (State.tickDone_fr ..) ?_ (by decide)
  exact hx10
  exact hx10

theorem State.latchTilt_fr (s : State) (bad : Bool) : Fr 0x4000000000000000000000000000000000000001001 s (State.latchTilt s bad) := by
  unfold State.latchTilt
  refine .ite ?_ ?_
  refine .call (State.hl_fr ..) ?_ (by decide)
  exact .refl ..
  lift_lets -underBinder
  intro x1
  refine .call (State.hl_fr ..) ?_ (by decide)
  refine .wrS ?_ (by decide) (.fld .HLM_MEAS_TILT_POS rfl (by decide))
  exact .refl ..

theorem State.tiltLaws_fr (s : State) :
    Fr 0x10000000000000000000000000000000000000000000000000000000000000000000000000002080000000000000000000000000000000000201003 s (State.tiltLaws s) := by
  unfold State.tiltLaws
  refine .ite ?_ ?_
  exact .refl ..
  lift_lets -underBinder
  intro x1 x2 x3 x4 x5 x6
  refine Fr.have x4 ?_ (fun hx4 => ?_) <;> [unfold x4; clear_value x4]
  refine .wrS ?_ (by decide) (.fld .HLM_MEAS_TILT_REF rfl (by decide))
  exact .refl ..
  split
  split
  lift_lets -underBinder
  intro x7 x8 x9 x10 x11
  refine .call (State.hl_fr ..) ?_ (by decide)
  with_reducible refine Fr.pair (by assumption) ?_
  refine .call (State.runLaw_fr ..) ?_ (by decide)
  with_reducible refine Fr.pair (by assumption) ?_
  refine .call (State.runLaw_fr ..) ?_ (by decide)
  exact hx4

theorem State.tiltTick_fr (s : State) (bad : Bool) :
    Fr 0x10000000000000000000000000000000000000000000000000000000000000000000000000006080000000000000000000000000000000000201003 s (State.tiltTick s bad) := by
  unfold State.tiltTick
  refine .call (State.tiltLaws_fr ..) ?_ (by decide)
  refine .call (State.latchTilt_fr ..) ?_ (by decide)
  refine .call (State.hl_fr ..) ?_ (by decide)
  exact .refl ..

theorem State.tiltMissed_fr (s : State) (u : Nat) :
    Fr 0x10000000000000000000000000000000000000000000000000000000000000000000000000006080000000000000000000000000000000000201003 s (State.tiltMissed s u) := by
  unfold State.tiltMissed
  refine .ite ?_ ?_
  refine .call (State.tiltTick_fr ..) ?_ (by decide)
  exact .refl ..
  split
  refine .call (State.tiltTick_fr ..) ?_ (by decide)
  refine .call (State.hl_fr ..) ?_ (by decide)
  exact .refl ..
  refine .call (State.tiltTick_fr ..) ?_ (by decide)
  exact .refl ..

theorem State.helmNow_fr (s : State) (t : Nat) :
    Fr 0x10000000000000000000000000000000000000000000000000000000000000000000000000786080000000000000000000000000000000000201003 s (State.helmNow s t) := by
  unfold State.helmNow
  split
  refine .ite ?_ ?_
  refine .call (State.tickDone_fr ..) ?_ (by decide)
  refine .call (State.tiltMissed_fr ..) ?_ (by decide)
  exact .refl ..
  exact .refl ..
  exact .refl ..

theorem execPwmPeriodStart_fr (tilt : Bool) (s : State) :
    Runs 0x10000000000000000000000000000000000000000000000000000000000000000000000000786080000000000000000000000000000000000201003 s (execPwmPeriodStart tilt s) := by
  unfold execPwmPeriodStart
  refine .next ?_
  lift_lets -underBinder
  intro x1
  refine Fr.have x1 ?_ (fun hx1 => ?_) <;> [unfold x1; clear_value x1]
  split
  refine .ite ?_ ?_
  exact .refl ..
  refine .call (State.helmNow_fr ..) ?_ (by decide)
  exact .refl ..
  exact .refl ..
  refine .ite ?_ ?_
  exact hx1
  refine .call (State.hl_fr ..) ?_ (by decide)
  exact hx1

theorem State.faultClr_fr (s : State) :
    Fr 0x800000000000000000000001400000080000000000000001fe80000010000000000000000200310000000000120000000f00b03c110a7b s (State.faultClr s) := by
  unfold State.faultClr
  lift_lets -underBinder
  intro x1
  refine .ite ?_ ?_
  refine .call (State.cfgReject_fr ..) ?_ (by decide)
  exact .refl ..
  refine .ite ?_ ?_
  exact .refl ..
  refine .call (State.derateCheck_fr ..) ?_ (by decide)
  refine .call (State.emiSettle_fr ..) ?_ (by decide)
  refine .setReg ?_ (by decide) (.word .w_EMI_FAULT_CAUSE rfl (by decide))
  exact .refl ..

theorem State.rejectWrite_fr (s : State) (n : Nat) : Fr 0x220000000000000000000000000003 s (State.rejectWrite s n) := by
  unfold State.rejectWrite
  refine .call (State.tilCause_fr ..) ?_ (by decide)
  refine .bump ?_ (by decide) (.arr .TIL_CNT_FWQ_REJ_COUNT rfl (by decide))
  exact .refl ..

theorem State.markLate_fr (s : State) (c : Nat) :
    Fr 0x10000000000000000000000000000000000000000000000000000000000000000000000000000000000000000001400000000000000000000200043 s (State.markLate s c) := by
  unfold State.markLate
  lift_lets -underBinder
  intro x1 x2 x3
  refine Fr.have x2 ?_ (fun hx2 => ?_) <;> [unfold x2; clear_value x2]
  refine .ite ?_ ?_
  exact .refl ..
  refine .bump ?_ (by decide) (.fld .HIS_LATE_CNT_COUNT rfl (by decide))
  refine .call (State.flagLane_fr ..) ?_ (by decide)
  exact .refl ..
  refine Fr.have x3 ?_ (fun hx3 => ?_) <;> [unfold x3; clear_value x3]
  refine .call (State.count_fr ..) ?_ (by decide)
  refine .wr ?_ (by decide) (.fld .HIS_LAST_LATE_CHANNEL rfl (by decide))
  exact hx2
  refine .call (State.hs_fr ..) ?_ (by decide)
  refine .call (State.raiseIf_fr ..) ?_ (by decide)
  exact hx3

theorem State.popWrite_fr (s : State) (n : Nat) : Fr 0x80 s (State.popWrite s n) := by
  unfold State.popWrite
  refine .call (State.onTiller_fr ..) ?_ (by decide)
  exact .refl ..

theorem execDepthWrite_fr (n : Fin 192) (s : State) :
    Runs 0x100000000000000000000000000000000000000000000000000000000000000000000000000000000000000002214000000000000000000002000d3 s (execDepthWrite n s) := by
  unfold execDepthWrite
  refine .next ?_
  split
  exact .refl ..
  refine .ite ?_ ?_
  exact .refl ..
  lift_lets -underBinder
  intro x1 x2 x3 x4 x5
  refine Fr.have x1 ?_ (fun hx1 => ?_) <;> [unfold x1; clear_value x1]
  refine .call (State.popWrite_fr ..) ?_ (by decide)
  exact .refl ..
  refine .ite ?_ ?_
  exact hx1
  refine .ite ?_ ?_
  refine .call (State.rejectWrite_fr ..) ?_ (by decide)
  exact hx1
  refine .ite ?_ ?_
  refine .call (State.markLate_fr ..) ?_ (by decide)
  exact hx1
  apply Fr.upd <;> first | show Fr _ _ _ | exact .inl rfl | exact .inr rfl | rfl
  exact hx1

theorem State.setStage_fr (s : State) (stage : Nat) : Fr 0x2000080000000000000000000000000000001 s (State.setStage s stage) := by
  unfold State.setStage
  refine .call (State.waitDac_fr ..) ?_ (by decide)
  refine .wr ?_ (by decide) (.fld .EMI_STATUS_LB_STAGE rfl (by decide))
  exact .refl ..

theorem State.lbForget_fr (s : State) : Fr 0x200 s (State.lbForget s) := by
  unfold State.lbForget
  apply Fr.upd <;> first | show Fr _ _ _ | exact .inl rfl | exact .inr rfl | rfl
  exact .refl ..

theorem State.lbDisable_fr (s : State) : Fr 0x200c080000000000000000000000000000201 s (State.lbDisable s) := by
  unfold State.lbDisable
  refine .call (State.lbForget_fr ..) ?_ (by decide)
  refine .wr ?_ (by decide) (.fld .EMI_LB_VAL_VALID rfl (by decide))
  refine .call (State.setStage_fr ..) ?_ (by decide)
  refine .wr ?_ (by decide) (.fld .EMI_LB_CFG_EN rfl (by decide))
  exact .refl ..

theorem execLbWatchDisable_fr (s : State) :
    Runs 0x1000000000000000000000000000000000000000000000000000000000000000000000000000000000200c08000000000000000000000000020020b s (execLbWatchDisable s) := by
  unfold execLbWatchDisable
  refine .next ?_
  (with_reducible apply State.access_fr) <;> [skip; skip; decide]
  exact .refl ..
  intro x1
  refine .call (State.lbDisable_fr ..) ?_ (by decide)
  exact .refl ..

theorem execEnergyBucketRoll_fr (s : State) : Runs 0x202000000000000000000000000000000000000000002001 s (execEnergyBucketRoll s) := by
  unfold execEnergyBucketRoll
  refine .next ?_
  refine .call (State.hedgeShow_fr ..) ?_ (by decide)
  refine .call (State.hd_fr ..) ?_ (by decide)
  exact .refl ..

theorem State.snapRequest_fr (s : State) (t : Nat) :
    Fr 0x2a00000000000000000000000000000000000000000000000000000000000000000000000000000000000000000000000000000000000000200001 s (State.snapRequest s t) := by
  unfold State.snapRequest
  refine .ite ?_ ?_
  refine .bump ?_ (by decide) (.fld .OBS_SNAP_MISS_COUNT rfl (by decide))
  exact .refl ..
  lift_lets -underBinder
  intro x1 x2 x3
  refine Fr.have x2 ?_ (fun hx2 => ?_) <;> [unfold x2; clear_value x2]
  refine .wr ?_ (by decide) (.fld .OBS_STATUS_STALE rfl (by decide))
  refine .wr ?_ (by decide) (.fld .OBS_STATUS_SNAP_BUSY rfl (by decide))
  exact .refl ..
  apply Fr.upd <;> first | show Fr _ _ _ | exact .inl rfl | exact .inr rfl | rfl
  exact hx2

theorem State.snapOn_fr (s : State) (trig : Nat) (t : Nat) :
    Fr 0x2a00000000000000000000000000000000000000000000000000000000000000000000000000000000000000000000000000000000000000200001 s (State.snapOn s trig t) := by
  unfold State.snapOn
  refine .ite ?_ ?_
  refine .call (State.snapRequest_fr ..) ?_ (by decide)
  exact .refl ..
  exact .refl ..

theorem State.bufSwap_fr (s : State) : Fr 0x800000000000000000000000000000201 s (State.bufSwap s) := by
  unfold State.bufSwap
  refine .ite ?_ ?_
  refine .call (State.em_fr ..) ?_ (by decide)
  refine .wr ?_ (by decide) (.fld .EMI_STATUS_ACTIVE_BUF rfl (by decide))
  exact .refl ..
  exact .refl ..

theorem State.emiBoundary_fr (s : State) (first : Bool) : Fr 0x202001a18000000000000000000000000000203 s (State.emiBoundary s first) := by
  unfold State.emiBoundary
  lift_lets -underBinder
  intro x1 x2 x3 x4 x5 x6 x7
  refine Fr.have x1 ?_ (fun hx1 => ?_) <;> [unfold x1; clear_value x1]
  refine .call (State.emiSample_fr ..) ?_ (by decide)
  exact .refl ..
  refine Fr.have x2 ?_ (fun hx2 => ?_) <;> [unfold x2; clear_value x2]
  refine .ite ?_ ?_
  refine .call (State.curveCopy_fr ..) ?_ (by decide)
  exact hx1
  exact hx1
  refine Fr.have x3 ?_ (fun hx3 => ?_) <;> [unfold x3; clear_value x3]
  refine .ite ?_ ?_
  refine .call (State.em_fr ..) ?_ (by decide)
  exact hx2
  exact hx2
  refine Fr.have x4 ?_ (fun hx4 => ?_) <;> [unfold x4; clear_value x4]
  refine .call (State.bufSwap_fr ..) ?_ (by decide)
  exact hx3
  refine Fr.have x5 ?_ (fun hx5 => ?_) <;> [unfold x5; clear_value x5]
  refine .ite ?_ ?_
  refine .call (State.em_fr ..) ?_ (by decide)
  exact hx4
  exact hx4
  refine Fr.have x6 ?_ (fun hx6 => ?_) <;> [unfold x6; clear_value x6]
  refine .call (State.em_fr ..) ?_ (by decide)
  exact hx5
  refine Fr.have x7 ?_ (fun hx7 => ?_) <;> [unfold x7; clear_value x7]
  refine .call (State.emiSettle_fr ..) ?_ (by decide)
  exact hx6
  refine .ite ?_ ?_
  refine .call (State.em_fr ..) ?_ (by decide)
  refine .wr ?_ (by decide) (.fld .EMI_STATUS_STATE rfl (by decide))
  exact hx7
  exact hx7

theorem State.newBank_fr (s : State) (index : Nat) : Fr 0x1800000000000000000000041 s (State.newBank s index) := by
  unfold State.newBank
  lift_lets -underBinder
  intro x1 x2 x3 x4
  refine Fr.have x3 ?_ (fun hx3 => ?_) <;> [unfold x3; clear_value x3]
  refine .wr ?_ (by decide) (.fld .HIS_STATUS_PC_INDEX rfl (by decide))
  refine .put ?_ (by decide) (.fld .HIS_STATUS_CAL_RECIPE rfl (by decide))
  exact .refl ..
  refine .call (State.setBank_fr ..) ?_ (by decide)
  exact hx3

theorem State.startCycle_fr (s : State) (t : Nat) (index : Nat) (first : Bool) :
    Fr 0x12a00000000000000000000000000000000000000000000000000000000000000000000000000000202001a18000001a001cf0140000000002002f3 s (State.startCycle s t index first) := by
  unfold State.startCycle
  lift_lets -underBinder
  intro x1 x2 x3 x4 x5 x6
  refine Fr.have x1 ?_ (fun hx1 => ?_) <;> [unfold x1; skip]
  refine .call (State.detBoundary_fr ..) ?_ (by decide)
  refine .call (State.tdcBoundary_fr ..) ?_ (by decide)
  refine .call (State.emiBoundary_fr ..) ?_ (by decide)
  refine .call (State.hisSample_fr ..) ?_ (by decide)
  exact .refl ..
  refine Fr.have x2 ?_ (fun hx2 => ?_) <;> [unfold x2; skip]
  refine .call (State.newBank_fr ..) ?_ (by decide)
  exact hx1
  refine Fr.have x4 ?_ (fun hx4 => ?_) <;> [unfold x4; skip]
  refine .call (State.hs_fr ..) ?_ (by decide)
  exact hx2
  refine Fr.have x6 ?_ (fun hx6 => ?_) <;> [unfold x6; skip]
  apply Fr.upd <;> first | show Fr _ _ _ | exact .inl rfl | exact .inr rfl | rfl
  exact hx4
  refine .call (State.snapOn_fr ..) ?_ (by decide)
  refine .call (State.count_fr ..) ?_ (by decide)
  exact hx6

theorem State.capGateEdge_fr (s : State) (src : Nat) (t : Nat) : Fr 0x8000 s (State.capGateEdge s src t) := by
  unfold State.capGateEdge
  refine .call (State.capEdge_fr ..) ?_ (by decide)
  exact .refl ..

theorem State.runEdgeAt_fr (s : State) (t : Nat) : Fr 0x8000 s (State.runEdgeAt s t) := by
  unfold State.runEdgeAt
  refine .call (State.capGateEdge_fr ..) ?_ (by decide)
  apply Fr.upd <;> first | show Fr _ _ _ | exact .inl rfl | exact .inr rfl | rfl
  exact .refl ..

theorem State.closeErrors_fr (s : State) (b : Nat) (x : Slot) : Fr 0x300000000000000000000000043 s (State.closeErrors s b x) := by
  unfold State.closeErrors
  with_reducible apply Fr.foldl
  exact .refl ..
  intro x1 x2
  split
  refine .call (State.hisCE_fr ..) ?_ (by decide)
  refine .call (State.setHead_fr ..) ?_ (by decide)
  exact .refl ..
  refine .call (State.hisUE_fr ..) ?_ (by decide)
  refine .call (State.setHead_fr ..) ?_ (by decide)
  exact .refl ..
  exact .refl ..

theorem State.closeSlot_fr (s : State) (t : Nat) : Fr 0x300000000000000000000000043 s (State.closeSlot s t) := by
  unfold State.closeSlot
  split
  exact .refl ..
  lift_lets -underBinder
  intro x1
  refine Fr.have x1 ?_ (fun hx1 => ?_) <;> [unfold x1; clear_value x1]
  refine .call (State.closeErrors_fr ..) ?_ (by decide)
  exact .refl ..
  refine .call (State.hs_fr ..) ?_ (by decide)
  refine .call (State.mapLanes_fr ..) ?_ (by decide)
  exact hx1

theorem execHarrowBankSwap_fr (t : Nat) (s : State) :
    Runs 0x12a000000800000000000000000000001400000080000000000000001fe800000100000000000000202001b18060301e013cf01400f00b03c358bfb s (execHarrowBankSwap t s) := by
  unfold execHarrowBankSwap
  refine .next ?_
  refine .ite ?_ ?_
  exact .refl ..
  lift_lets -underBinder
  intro x1 x2 x3 x4 x5 x6 x7 x8 x9 x10
  refine Fr.have x1 ?_ (fun hx1 => ?_) <;> [unfold x1; clear_value x1]
  refine .call (State.closeSlot_fr ..) ?_ (by decide)
  exact .refl ..
  refine Fr.have x3 ?_ (fun hx3 => ?_) <;> [unfold x3; clear_value x3]
  refine .call (State.mapLanes_fr ..) ?_ (by decide)
  exact hx1
  refine Fr.have x4 ?_ (fun hx4 => ?_) <;> [unfold x4; clear_value x4]
  with_reducible apply Fr.forN
  exact hx3
  intro x11 x12
  refine .call (State.endOwnership_fr ..) ?_ (by decide)
  exact .refl ..
  refine Fr.have x8 ?_ (fun hx8 => ?_) <;> [unfold x8; clear_value x8]
  refine .call (State.hs_fr ..) ?_ (by decide)
  exact hx4
  refine Fr.have x9 ?_ (fun hx9 => ?_) <;> [unfold x9; clear_value x9]
  refine .call (State.hs_fr ..) ?_ (by decide)
  refine .wr ?_ (by decide) (.fld .HIS_STATUS_RUNNING rfl (by decide))
  exact hx8
  refine Fr.have x10 ?_ (fun hx10 => ?_) <;> [unfold x10; clear_value x10]
  refine .call (State.em_fr ..) ?_ (by decide)
  refine .call (State.bufSwap_fr ..) ?_ (by decide)
  exact hx9
  refine .ite ?_ ?_
  refine .call (State.runEdgeAt_fr ..) ?_ (by decide)
  refine .call (State.cyclesStop_fr ..) ?_ (by decide)
  refine .ite ?_ ?_
  refine .call (State.emiDischarge_fr ..) ?_ (by decide)
  exact hx10
  exact hx10
  refine .call (State.startCycle_fr ..) ?_ (by decide)
  exact hx8

theorem State.helmDisable_fr (s : State) : Fr 0x78006c400000000000000000000000000040000001003 s (State.helmDisable s) := by
  unfold State.helmDisable
  refine .ite ?_ ?_
  refine .call (State.helmSettle_fr ..) ?_ (by decide)
  refine .wr ?_ (by decide) (.fld .HLM_CTRL_EN rfl (by decide))
  exact .refl ..
  exact .refl ..

theorem execHelmDisable_fr (s : State) :
    Runs 0x1000000000000000000000000000000000000000000000000000000000000000000000000078006c40000000000000000000000000004000020100b s (execHelmDisable s) := by
  unfold execHelmDisable
  refine .next ?_
  (with_reducible apply State.access_fr) <;> [skip; skip; decide]
  exact .refl ..
  intro x1
  refine .call (State.helmDisable_fr ..) ?_ (by decide)
  exact .refl ..

theorem State.helmCause_fr (s : State) (b : Nat) (e : Nat) : Fr 0x100000000000000000000000000000000000000003 s (State.helmCause s b e) := by
  unfold State.helmCause
  refine .call (State.raise_fr ..) ?_ (by decide)
  refine .wr ?_ (by decide) (.fld .HLM_FAULT_CAUSE_CAUSE rfl (by decide))
  exact .refl ..

theorem State.spindleFault_fr (s : State) (b : Nat) (e : Nat) :
    Fr 0x78016c000000000000000000000000000040000001003 s (State.spindleFault s b e) := by
  unfold State.spindleFault
  lift_lets -underBinder
  intro x1 x2 x3
  refine Fr.have x2 ?_ (fun hx2 => ?_) <;> [unfold x2; clear_value x2]
  refine .call (State.releaseSp_fr ..) ?_ (by decide)
  unfold State.dropPend
  refine .wr ?_ (by decide) (.fld .SYS_PEND_STATUS_HLM rfl (by decide))
  refine .wr ?_ (by decide) (.fld .HLM_STATUS_PENDING_ENABLE rfl (by decide))
  exact .refl ..
  refine Fr.have x3 ?_ (fun hx3 => ?_) <;> [unfold x3; clear_value x3]
  refine .call (State.helmCause_fr ..) ?_ (by decide)
  refine .call (State.setSp_fr ..) ?_ (by decide)
  exact hx2
  refine .ite ?_ ?_
  refine .call (State.tickDone_fr ..) ?_ (by decide)
  exact hx3
  exact hx3

theorem State.encFault_fr (s : State) : Fr 0x78016e800000000000000000000000000040000001003 s (State.encFault s) := by
  unfold State.encFault
  refine .call (State.spindleFault_fr ..) ?_ (by decide)
  refine .call (State.hl_fr ..) ?_ (by decide)
  refine .wr ?_ (by decide) (.fld .HLM_STATUS_FACET rfl (by decide))
  refine .wr ?_ (by decide) (.fld .HLM_STATUS_INDEX_SEEN rfl (by decide))
  exact .refl ..

theorem State.helmCount_fr (s : State) (k : Nat) (t : Nat) :
    Fr 0x7c816e800000000000000000000000000040000001003 s (State.helmCount s k t) := by
  unfold State.helmCount
  lift_lets -underBinder
  intro x1 x2 x3 x4 x5 x6
  refine Fr.have x3 ?_ (fun hx3 => ?_) <;> [unfold x3; clear_value x3]
  refine .call (State.hl_fr ..) ?_ (by decide)
  exact .refl ..
  refine Fr.have x4 ?_ (fun hx4 => ?_) <;> [unfold x4; clear_value x4]
  refine .bump ?_ (by decide) (.fld .HLM_CNT_ENC_ERR_COUNT rfl (by decide))
  exact hx3
  refine Fr.have x6 ?_ (fun hx6 => ?_) <;> [unfold x6; clear_value x6]
  refine .wr ?_ (by decide) (.fld .HLM_ENC_COUNT_COUNT rfl (by decide))
  exact hx3
  refine .ite ?_ ?_
  refine .ite ?_ ?_
  refine .call (State.encFault_fr ..) ?_ (by decide)
  exact hx4
  exact hx4
  refine .call (State.hl_fr ..) ?_ (by decide)
  exact hx6

theorem execEncoderTransition_fr (a : Bool) (b : Bool) (t : Nat) (s : State) :
    Runs 0x7c816e800000000000000000000000000040000001003 s (execEncoderTransition a b t s) := by
  unfold execEncoderTransition
  refine .next ?_
  refine .ite ?_ ?_
  exact .refl ..
  split
  exact .refl ..
  refine .call (State.helmCount_fr ..) ?_ (by decide)
  refine .call (State.hl_fr ..) ?_ (by decide)
  exact .refl ..

theorem execBridgeFault_fr (s : State) : Runs 0x78016c000000000000000000000000000040000001003 s (execBridgeFault s) := by
  unfold execBridgeFault
  refine .next ?_
  refine .ite ?_ ?_
  exact .refl ..
  lift_lets -underBinder
  intro x1
  refine Fr.have x1 ?_ (fun hx1 => ?_) <;> [unfold x1; clear_value x1]
  refine .call (State.hl_fr ..) ?_ (by decide)
  exact .refl ..
  refine .call (State.setTl_fr ..) ?_ (by decide)
  refine .call (State.spindleFault_fr ..) ?_ (by decide)
  exact hx1

theorem execStrapReread_fr (straps : Fin 64) (floats : Fin 64) (s : State) :
    Runs 0x1001c0000880000000000000000000001400000080000000000000001fe80c0001040007df78006c60200171c0600006013cf01400f0cb03c31bbff s (execStrapReread straps floats s) := by
  unfold execStrapReread
  refine .next ?_
  lift_lets -underBinder
  intro x1 x2
  refine Fr.have x2 ?_ (fun hx2 => ?_) <;> [unfold x2; clear_value x2]
  refine .call (State.hd_fr ..) ?_ (by decide)
  refine .wr ?_ (by decide) (.fld .HDG_STRAPS_FLOAT rfl (by decide))
  exact .refl ..
  refine .ite ?_ ?_
  refine .call (State.trip_fr ..) ?_ (by decide)
  exact hx2
  refine .call (State.hedgeShow_fr ..) ?_ (by decide)
  exact hx2

theorem State.setPba_fr (s : State) (v : Nat) (b : Bool) :
    Fr 0x20000000000000000000000000000000000000000000000000000000000000000000000000000000000000000000000000000000000000000000000001 s (State.setPba s v b) := by
  unfold State.setPba
  refine .setReg ?_ (by decide) (.range .r_MSIX rfl (by decide) (by first | decide | omega))
  exact .refl ..

theorem State.postMsix_fr (s : State) (v : Nat) :
    Fr 0x20010000000000000000000000000000000000000000000000000000000000000000000000000000000000000000000000000000000000000000200803 s (State.postMsix s v) := by
  unfold State.postMsix
  refine .ite ?_ ?_
  refine .call (State.postWrite_fr ..) ?_ (by decide)
  apply Fr.upd <;> first | show Fr _ _ _ | exact .inl rfl | exact .inr rfl | rfl
  exact .refl ..
  refine .call (State.setPba_fr ..) ?_ (by decide)
  exact .refl ..

theorem State.flushMsix_fr (s : State) :
    Fr 0x20010000000000000000000000000000000000000000000000000000000000000000000000000000000000000000000000000000000000000000200803 s (State.flushMsix s) := by
  unfold State.flushMsix
  with_reducible apply Fr.forN
  exact .refl ..
  intro x1 x2
  refine .ite ?_ ?_
  refine .call (State.postMsix_fr ..) ?_ (by decide)
  refine .call (State.setPba_fr ..) ?_ (by decide)
  exact .refl ..
  exact .refl ..

theorem State.traceForm_fr (s : State) (x : Stream) (b : List Byte) : Fr 0x200000 s (State.traceForm s x b) := by
  unfold State.traceForm
  refine .ite ?_ ?_
  exact .refl ..
  apply Fr.upd <;> first | show Fr _ _ _ | exact .inl rfl | exact .inr rfl | rfl
  exact .refl ..

theorem execSnapshotCopy_fr (s : State) :
    Runs 0x8600d800000000000000000000000000000000000000000000000000000000000000000000000000000000000000000000000000000000000000200003 s (execSnapshotCopy s) := by
  unfold execSnapshotCopy
  refine .next ?_
  refine .ite ?_ ?_
  exact .refl ..
  lift_lets -underBinder
  intro x1 x2 x3 x4
  refine Fr.have x1 ?_ (fun hx1 => ?_) <;> [unfold x1; clear_value x1]
  refine .resetRegs .r_OBS_SNAP rfl ?_ (by decide) (by decide) (by decide)
  exact .refl ..
  refine Fr.have x2 ?_ (fun hx2 => ?_) <;> [unfold x2; clear_value x2]
  with_reducible apply Fr.foldl
  exact hx1
  intro x5 x6
  refine .wr ?_ (by decide) (.arr .OBS_CNT_SNAP_HI_VALUE rfl (by decide))
  refine .wr ?_ (by decide) (.arr .OBS_CNT_SNAP_LO_VALUE rfl (by decide))
  exact .refl ..
  refine Fr.have x3 ?_ (fun hx3 => ?_) <;> [unfold x3; clear_value x3]
  refine .bump ?_ (by decide) (.fld .OBS_SNAP_SEQ_SEQ rfl (by decide))
  exact hx2
  refine Fr.have x4 ?_ (fun hx4 => ?_) <;> [unfold x4; clear_value x4]
  refine .wr ?_ (by decide) (.fld .OBS_SNAP_TS_HI_NS rfl (by decide))
  refine .wr ?_ (by decide) (.fld .OBS_SNAP_TS_LO_NS rfl (by decide))
  exact hx3
  refine .call (State.raise_fr ..) ?_ (by decide)
  refine .call (State.traceForm_fr ..) ?_ (by decide)
  refine .wr ?_ (by decide) (.fld .OBS_STATUS_SNAP_BUSY rfl (by decide))
  exact hx4

theorem execCaptureEnable_fr (s : State) :
    Runs 0x1000000000000000000000000000000000000000000000000000000000000780000000000000000000000000000000000000000000000400020800b s (execCaptureEnable s) := by
  unfold execCaptureEnable
  refine .next ?_
  (with_reducible apply State.access_fr) <;> [skip; skip; decide]
  exact .refl ..
  intro x1
  refine .ite ?_ ?_
  refine .wr ?_ (by decide) (.fld .MER_CAP_CTRL_EN rfl (by decide))
  exact .refl ..
  refine .call (State.capEnable_fr ..) ?_ (by decide)
  exact .refl ..

theorem State.lockFlapRelease_fr (s : State) : Fr 0x1000000000000000000000000000000000001001 s (State.lockFlapRelease s) := by
  unfold State.lockFlapRelease
  refine .call (State.hl_fr ..) ?_ (by decide)
  refine .wr ?_ (by decide) (.fld .HLM_STATUS_LOCK_FLAP rfl (by decide))
  exact .refl ..

theorem execLockFlapRelease_fr (s : State) :
    Runs 0x1000000000000000000000000000000000000000000000000000000000000000000000000000000100000000000000000000000000000000020100b s (execLockFlapRelease s) := by
  unfold execLockFlapRelease
  refine .next ?_
  (with_reducible apply State.access_fr) <;> [skip; skip; decide]
  exact .refl ..
  intro x1
  refine .call (State.lockFlapRelease_fr ..) ?_ (by decide)
  exact .refl ..

theorem execDischargeComplete_fr (fb : Fin 4096) (s : State) :
    Runs 0x3001400000000000000000000080000000201 s (execDischargeComplete fb s) := by
  unfold execDischargeComplete
  refine .next ?_
  lift_lets -underBinder
  intro x1 x2
  refine Fr.have x1 ?_ (fun hx1 => ?_) <;> [unfold x1; clear_value x1]
  refine .wr ?_ (by decide) (.fld .EMI_CHG_STATUS_FB_MEAS rfl (by decide))
  exact .refl ..
  refine Fr.have x2 ?_ (fun hx2 => ?_) <;> [unfold x2; clear_value x2]
  unfold State.dropPend
  refine .wr ?_ (by decide) (.fld .SYS_PEND_STATUS_EMI rfl (by decide))
  refine .wr ?_ (by decide) (.fld .EMI_STATUS_PENDING_ENABLE rfl (by decide))
  exact hx1
  refine .ite ?_ ?_
  exact hx1
  refine .call (State.emiSettle_fr ..) ?_ (by decide)
  refine .wr ?_ (by decide) (.fld .EMI_STATUS_STATE rfl (by decide))
  exact hx2

theorem execPwmGate_fr (s : State) : Runs 0x800000000000000000000000000000000000000001001 s (execPwmGate s) := by
  unfold execPwmGate
  refine .next ?_
  refine .ite ?_ ?_
  refine .call (State.hl_fr ..) ?_ (by decide)
  refine .wr ?_ (by decide) (.fld .HDG_STATUS_PWM_GATE rfl (by decide))
  exact .refl ..
  exact .refl ..

theorem State.emiFault_fr (s : State) (b : Nat) :
    Fr 0x800000000000000000000001400000080000000000000001fe80000010000000000000000200350000000000120000000f08b03c110a7b s (State.emiFault s b) := by
  unfold State.emiFault
  lift_lets -underBinder
  intro x1 x2
  refine Fr.have x1 ?_ (fun hx1 => ?_) <;> [unfold x1; clear_value x1]
  refine .ite ?_ ?_
  unfold State.dropPend
  refine .wr ?_ (by decide) (.fld .SYS_PEND_STATUS_EMI rfl (by decide))
  refine .wr ?_ (by decide) (.fld .EMI_STATUS_PENDING_ENABLE rfl (by decide))
  exact .refl ..
  exact .refl ..
  refine .call (State.derateCheck_fr ..) ?_ (by decide)
  refine .call (State.emiSettle_fr ..) ?_ (by decide)
  refine .setReg ?_ (by decide) (.word .w_EMI_FAULT_CAUSE rfl (by decide))
  exact hx1

theorem execMonitorEdge_fr (t : Nat) (s : State) :
    Runs 0x800000000000000000000001400000080000000000000001fe80000010000000000000004200350000000000120000000f08b03c110a7b s (execMonitorEdge t s) := by
  unfold execMonitorEdge
  refine .next ?_
  refine .ite ?_ ?_
  exact .refl ..
  lift_lets -underBinder
  intro x1 x2 x3 x4 x5 x6 x7
  refine Fr.have x6 ?_ (fun hx6 => ?_) <;> [unfold x6; clear_value x6]
  refine .bump ?_ (by decide) (.fld .EMI_CNT_ROGUE_COUNT rfl (by decide))
  exact .refl ..
  refine Fr.have x7 ?_ (fun hx7 => ?_) <;> [unfold x7; clear_value x7]
  apply Fr.upd <;> first | show Fr _ _ _ | exact .inl rfl | exact .inr rfl | rfl
  exact hx6
  refine .ite ?_ ?_
  apply Fr.upd <;> first | show Fr _ _ _ | exact .inl rfl | exact .inr rfl | rfl
  exact .refl ..
  refine .ite ?_ ?_
  refine .call (State.emiFault_fr ..) ?_ (by decide)
  refine .call (State.raise_fr ..) ?_ (by decide)
  exact hx7
  exact hx7

theorem State.capFinishAdc_fr (s : State) (r : CapRec) :
    Fr 0xc000000000000000000000000000000000000000000000000000008001 s (State.capFinishAdc s r) := by
  unfold State.capFinishAdc
  lift_lets -underBinder
  intro x1 x2
  split
  lift_lets -underBinder
  intro x3 x4 x5 x6 x7
  refine .call (State.capFinish_fr ..) ?_ (by decide)
  apply Fr.upd <;> first | show Fr _ _ _ | exact .inl rfl | exact .inr rfl | rfl
  exact .refl ..

theorem State.capSegment_fr (s : State) (r : CapRec) (g : CapSeg) :
    Fr 0x20c000000000000000000000000000000000000000000000000000008001 s (State.capSegment s r g) := by
  unfold State.capSegment
  lift_lets -underBinder
  intro x1 x2 x3 x4 x5 x6 x7 x8 x9 x10 x11
  refine Fr.have x6 ?_ (fun hx6 => ?_) <;> [unfold x6; clear_value x6]
  apply Fr.upd <;> first | show Fr _ _ _ | exact .inl rfl | exact .inr rfl | rfl
  exact .refl ..
  refine Fr.have x11 ?_ (fun hx11 => ?_) <;> [unfold x11; clear_value x11]
  refine .wr ?_ (by decide) (.fld .MER_CAP_STATUS_SEG rfl (by decide))
  apply Fr.upd <;> first | show Fr _ _ _ | exact .inl rfl | exact .inr rfl | rfl
  exact hx6
  refine .ite ?_ ?_
  refine .bump ?_ (by decide) (.fld .MER_CAP_REJ_SEG_COUNT rfl (by decide))
  apply Fr.upd <;> first | show Fr _ _ _ | exact .inl rfl | exact .inr rfl | rfl
  exact hx6
  refine .ite ?_ ?_
  refine .call (State.capFinishAdc_fr ..) ?_ (by decide)
  exact hx11
  exact hx11

theorem State.capClose_fr (s : State) : Fr 0x20c000000000000000000000000000000000000000000000000000008001 s (State.capClose s) := by
  unfold State.capClose
  split
  refine .ite ?_ ?_
  refine .call (State.capSegment_fr ..) ?_ (by decide)
  exact .refl ..
  exact .refl ..
  exact .refl ..

theorem State.capOpenSeg_fr (s : State) (trig : Nat) (place : Nat) (edge : Bool) :
    Fr 0x20c000000000000000000000000000000000000000000000000000008005 s (State.capOpenSeg s trig place edge) := by
  unfold State.capOpenSeg
  lift_lets -underBinder
  intro x1 x2 x3 x4 x5 x6 x7 x8 x9
  refine Fr.have x6 ?_ (fun hx6 => ?_) <;> [unfold x6; clear_value x6]
  apply Fr.upd <;> first | show Fr _ _ _ | exact .inl rfl | exact .inr rfl | rfl
  exact .refl ..
  refine .call (State.capClose_fr ..) ?_ (by decide)
  apply Fr.upd <;> first | show Fr _ _ _ | exact .inl rfl | exact .inr rfl | rfl
  exact hx6

theorem State.capTrigger_fr (s : State) (m : CapMark) (cross : Nat) :
    Fr 0x3ac000000000000000000000000000000000000000000000000000008007 s (State.capTrigger s m cross) := by
  unfold State.capTrigger
  refine .ite ?_ ?_
  exact .refl ..
  lift_lets -underBinder
  intro x1 x2 x3 x4
  refine Fr.have x4 ?_ (fun hx4 => ?_) <;> [unfold x4; clear_value x4]
  apply Fr.upd <;> first | show Fr _ _ _ | exact .inl rfl | exact .inr rfl | rfl
  exact .refl ..
  split
  refine .ite ?_ ?_
  refine .call (State.capOpenSeg_fr ..) ?_ (by decide)
  exact hx4
  exact hx4
  lift_lets -underBinder
  intro x5 x6 x7 x8 x9 x10 x11
  refine Fr.have x7 ?_ (fun hx7 => ?_) <;> [unfold x7; clear_value x7]
  apply Fr.upd <;> first | show Fr _ _ _ | exact .inl rfl | exact .inr rfl | rfl
  exact hx4
  refine Fr.have x11 ?_ (fun hx11 => ?_) <;> [unfold x11; clear_value x11]
  apply Fr.upd <;> first | show Fr _ _ _ | exact .inl rfl | exact .inr rfl | rfl
  exact hx7
  refine .ite ?_ ?_
  unfold State.capDrop
  lift_lets -underBinder
  intro x12 x13 x14
  refine Fr.have x13 ?_ (fun hx13 => ?_) <;> [unfold x13; clear_value x13]
  refine .call (State.raiseIf_fr ..) ?_ (by decide)
  refine .wr ?_ (by decide) (.fld .MER_CAP_DROP_CAUSE_QUEUE rfl (by decide))
  refine .bump ?_ (by decide) (.fld .MER_CAPTURE_DROP_COUNT rfl (by decide))
  exact hx7
  apply Fr.upd <;> first | show Fr _ _ _ | exact .inl rfl | exact .inr rfl | rfl
  exact hx13
  refine .ite ?_ ?_
  unfold State.capDrop
  lift_lets -underBinder
  intro x15 x16 x17
  refine Fr.have x16 ?_ (fun hx16 => ?_) <;> [unfold x16; clear_value x16]
  refine .call (State.raiseIf_fr ..) ?_ (by decide)
  refine .wr ?_ (by decide) (.fld .MER_CAP_DROP_CAUSE_RING rfl (by decide))
  refine .bump ?_ (by decide) (.fld .MER_CAPTURE_DROP_COUNT rfl (by decide))
  exact hx7
  apply Fr.upd <;> first | show Fr _ _ _ | exact .inl rfl | exact .inr rfl | rfl
  exact hx16
  refine .ite ?_ ?_
  refine .call (State.capOpenSeg_fr ..) ?_ (by decide)
  exact hx11
  exact hx11

theorem State.capEvent_fr (s : State) (src : Nat) (t : Nat) :
    Fr 0x3ac000000000000000000000000000000000000000000000000000008007 s (State.capEvent s src t) := by
  unfold State.capEvent
  refine .ite ?_ ?_
  refine .call (State.capTrigger_fr ..) ?_ (by decide)
  exact .refl ..
  exact .refl ..

theorem State.lbEnable_fr (s : State) : Fr 0x2004080000000000000000000000000000201 s (State.lbEnable s) := by
  unfold State.lbEnable
  refine .ite ?_ ?_
  exact .refl ..
  refine .call (State.lbForget_fr ..) ?_ (by decide)
  refine .call (State.setStage_fr ..) ?_ (by decide)
  refine .wr ?_ (by decide) (.fld .EMI_LB_CFG_EN rfl (by decide))
  exact .refl ..

theorem execLbWatchEnable_fr (s : State) :
    Runs 0x1000000000000000000000000000000000000000000000000000000000000000000000000000000000200408000000000000000000000000020020b s (execLbWatchEnable s) := by
  unfold execLbWatchEnable
  refine .next ?_
  (with_reducible apply State.access_fr) <;> [skip; skip; decide]
  exact .refl ..
  intro x1
  refine .call (State.lbEnable_fr ..) ?_ (by decide)
  exact .refl ..

theorem State.brakeEnd_fr (s : State) : Fr 0x6c000000000000000000000000000040000001001 s (State.brakeEnd s) := by
  unfold State.brakeEnd
  refine .call (State.setSp_fr ..) ?_ (by decide)
  refine .call (State.releaseSp_fr ..) ?_ (by decide)
  unfold State.dropPend
  refine .wr ?_ (by decide) (.fld .SYS_PEND_STATUS_HLM rfl (by decide))
  refine .wr ?_ (by decide) (.fld .HLM_STATUS_PENDING_ENABLE rfl (by decide))
  exact .refl ..

theorem execBrakeTimeout_fr (s : State) : Runs 0x6c000000000000000000000000000040000001003 s (execBrakeTimeout s) := by
  unfold execBrakeTimeout
  refine .next ?_
  refine .ite ?_ ?_
  exact .refl ..
  lift_lets -underBinder
  intro x1 x2
  refine Fr.have x2 ?_ (fun hx2 => ?_) <;> [unfold x2; clear_value x2]
  refine .call (State.raise_fr ..) ?_ (by decide)
  refine .call (State.hl_fr ..) ?_ (by decide)
  refine .call (State.brakeEnd_fr ..) ?_ (by decide)
  exact .refl ..
  refine .ite ?_ ?_
  refine .call (State.enterCatch_fr ..) ?_ (by decide)
  exact hx2
  exact hx2

theorem execDacUpdate_fr (s : State) : Runs 0x2000000000000000000000000000000000001 s (execDacUpdate s) := by
  unfold execDacUpdate
  refine .next ?_
  refine .ite ?_ ?_
  exact .refl ..
  split
  refine .call (State.setDac_fr ..) ?_ (by decide)
  exact .refl ..
  exact .refl ..

theorem State.showLimits_fr (s : State) : Fr 0x37f000000000000000000000000000000000000000000000001 s (State.showLimits s) := by
  unfold State.showLimits
  lift_lets -underBinder
  intro x1 x2 x3 x4 x5 x6
  refine Fr.have x5 ?_ (fun hx5 => ?_) <;> [unfold x5; clear_value x5]
  refine .wr ?_ (by decide) (.fld .HDG_LIM_BUDGET_BUDGET rfl (by decide))
  refine .wr ?_ (by decide) (.fld .HDG_LIM_SPEED_MAX rfl (by decide))
  refine .wr ?_ (by decide) (.fld .HDG_LIM_SPEED_MIN rfl (by decide))
  exact .refl ..
  refine Fr.have x6 ?_ (fun hx6 => ?_) <;> [unfold x6; clear_value x6]
  refine .wr ?_ (by decide) (.fld .HDG_LIM_FOV_MIN rfl (by decide))
  refine .wr ?_ (by decide) (.fld .HDG_LIM_POS_MAX rfl (by decide))
  refine .wr ?_ (by decide) (.fld .HDG_LIM_POS_MIN rfl (by decide))
  exact hx5
  refine .wr ?_ (by decide) (.fld .HDG_LIM_MISC_DIR_LIMIT rfl (by decide))
  refine .wr ?_ (by decide) (.fld .HDG_LIM_MISC_FOV_DWELL rfl (by decide))
  refine .wr ?_ (by decide) (.fld .HDG_LIM_FOV_MAX rfl (by decide))
  exact hx6

theorem State.speedCheck_fr (s : State) (count : Int) :
    Fr 0x1001c0000880000000000000000000001400000080000000000000001fe80c0001040003df78006c60200171c0600006013cf01400f0cb03c31bbff s (State.speedCheck s count) := by
  unfold State.speedCheck
  lift_lets -underBinder
  intro x1
  refine Fr.have x1 ?_ (fun hx1 => ?_) <;> [unfold x1; clear_value x1]
  refine .call (State.hd_fr ..) ?_ (by decide)
  exact .refl ..
  refine .ite ?_ ?_
  refine .call (State.trip_fr ..) ?_ (by decide)
  exact hx1
  exact hx1

theorem State.tripTimed_fr (s : State) (c : Nat) (frames : Nat) :
    Fr 0x1001c0000880000000000000000000001400000080000000000000001fe80c0001040003df78006c60200171c0600006013cf01400f0cb03c31bbff s (State.tripTimed s c frames) := by
  unfold State.tripTimed
  refine .call (State.trip_fr ..) ?_ (by decide)
  refine .call (State.hd_fr ..) ?_ (by decide)
  exact .refl ..

theorem State.encCheck_fr (s : State) (count : Int) :
    Fr 0x1001c0000880000000000000000000001400000080000000000000001fe80c0001040003df78006c60200171c0600006013cf01400f0cb03c31bbff s (State.encCheck s count) := by
  unfold State.encCheck
  lift_lets -underBinder
  intro x1 x2 x3 x4
  refine Fr.have x4 ?_ (fun hx4 => ?_) <;> [unfold x4; clear_value x4]
  refine .call (State.hd_fr ..) ?_ (by decide)
  exact .refl ..
  refine .ite ?_ ?_
  refine .call (State.tripTimed_fr ..) ?_ (by decide)
  exact hx4
  exact hx4

theorem State.rcCheck_fr (s : State) (err : Int) :
    Fr 0x1001c0000880000000000000000000001400000080000000000000001fe80c0001050003df78006c60200171c0600006013cf01400f0cb0bc31bbff s (State.rcCheck s err) := by
  unfold State.rcCheck
  lift_lets -underBinder
  intro x1 x2 x3 x4 x5
  refine Fr.have x1 ?_ (fun hx1 => ?_) <;> [unfold x1; clear_value x1]
  refine .wrS ?_ (by decide) (.fld .HDG_MEAS_RC_ERR rfl (by decide))
  exact .refl ..
  refine Fr.have x4 ?_ (fun hx4 => ?_) <;> [unfold x4; clear_value x4]
  refine .call (State.raiseIf_fr ..) ?_ (by decide)
  exact hx1
  refine Fr.have x5 ?_ (fun hx5 => ?_) <;> [unfold x5; clear_value x5]
  refine .call (State.hd_fr ..) ?_ (by decide)
  refine .put ?_ (by decide) (.fld .SYS_CLK_STATUS_HDG_XCHK_OK rfl (by decide))
  exact hx4
  refine .ite ?_ ?_
  exact hx1
  refine .ite ?_ ?_
  refine .call (State.hd_fr ..) ?_ (by decide)
  exact hx1
  refine .ite ?_ ?_
  refine .call (State.trip_fr ..) ?_ (by decide)
  exact hx5
  exact hx5

theorem State.frameHistory_fr (s : State) (count : Int) : Fr 0x2000 s (State.frameHistory s count) := by
  unfold State.frameHistory
  lift_lets -underBinder
  intro x1
  refine .call (State.hd_fr ..) ?_ (by decide)
  exact .refl ..

theorem State.releaseFrame_fr (s : State) : Fr 0x2000 s (State.releaseFrame s) := by
  unfold State.releaseFrame
  lift_lets -underBinder
  intro x1
  refine .call (State.hd_fr ..) ?_ (by decide)
  exact .refl ..

theorem execSpeedFrameEnd_fr (err : Int) (s : State) :
    Runs 0x1001c0000880000000000000000000001400000080000000000000001fe80c0001054003df78006c60200171c0600006013cf01400f0cb0bc31bbff s (execSpeedFrameEnd err s) := by
  unfold execSpeedFrameEnd
  refine .next ?_
  lift_lets -underBinder
  intro x1 x2
  refine Fr.have x2 ?_ (fun hx2 => ?_) <;> [unfold x2; clear_value x2]
  refine .call (State.hd_fr ..) ?_ (by decide)
  refine .wrS ?_ (by decide) (.fld .HDG_MEAS_SPEED_COUNT rfl (by decide))
  exact .refl ..
  refine .call (State.hedgeShow_fr ..) ?_ (by decide)
  refine .call (State.frameHistory_fr ..) ?_ (by decide)
  refine .call (State.releaseFrame_fr ..) ?_ (by decide)
  refine .call (State.speedCheck_fr ..) ?_ (by decide)
  refine .call (State.encCheck_fr ..) ?_ (by decide)
  refine .call (State.rcCheck_fr ..) ?_ (by decide)
  exact hx2

theorem State.fireAudit_fr (s : State) (late : Bool) :
    Fr 0x1001c0000880000000000000000000001400000080000000000000001fe80c0001040003df78006c60200171c0600006013cf01400f0cb03c31bbff s (State.fireAudit s late) := by
  unfold State.fireAudit
  lift_lets -underBinder
  intro x1
  refine Fr.have x1 ?_ (fun hx1 => ?_) <;> [unfold x1; clear_value x1]
  refine .call (State.hd_fr ..) ?_ (by decide)
  exact .refl ..
  refine .ite ?_ ?_
  refine .call (State.tripTimed_fr ..) ?_ (by decide)
  exact hx1
  exact hx1

theorem execEmFireEdge_fr (t : Nat) (late : Bool) (s : State) :
    Runs 0x1001c0000880000000000000000000001400000080000000000000001fe80c0001040003df78006c60600171c0600006013cf01400f0cb03c31bbff s (execEmFireEdge t late s) := by
  unfold execEmFireEdge
  refine .next ?_
  lift_lets -underBinder
  intro x1 x2 x3 x4 x5
  refine Fr.have x2 ?_ (fun hx2 => ?_) <;> [unfold x2; clear_value x2]
  refine .call (State.count_fr ..) ?_ (by decide)
  exact .refl ..
  refine Fr.have x3 ?_ (fun hx3 => ?_) <;> [unfold x3; clear_value x3]
  refine .ite ?_ ?_
  refine .call (State.count_fr ..) ?_ (by decide)
  refine .bump ?_ (by decide) (.fld .EMI_CNT_SHOTS_COUNT rfl (by decide))
  exact hx2
  exact hx2
  refine Fr.have x5 ?_ (fun hx5 => ?_) <;> [unfold x5; clear_value x5]
  refine .ite ?_ ?_
  refine .call (State.em_fr ..) ?_ (by decide)
  exact hx3
  exact .refl ..
  refine .call (State.fireAudit_fr ..) ?_ (by decide)
  exact hx5

theorem execSnapshotPeriod_fr (t : Nat) (s : State) :
    Runs 0x2a00000000000000000000000000000000000000000000000000000000000000000000000000000000000000000000000000000000000000200001 s (execSnapshotPeriod t s) := by
  unfold execSnapshotPeriod
  refine .next ?_
  refine .ite ?_ ?_
  exact .refl ..
  refine .call (State.snapOn_fr ..) ?_ (by decide)
  exact .refl ..

theorem State.lbEnter_fr (s : State) (stage : Nat) (t : Nat) : Fr 0x20000c0000000000000000000000000000203 s (State.lbEnter s stage t) := by
  unfold State.lbEnter
  lift_lets -underBinder
  intro x1 x2 x3 x4 x5 x6
  refine Fr.have x5 ?_ (fun hx5 => ?_) <;> [unfold x5; clear_value x5]
  apply Fr.upd <;> first | show Fr _ _ _ | exact .inl rfl | exact .inr rfl | rfl
  exact .refl ..
  refine Fr.have x6 ?_ (fun hx6 => ?_) <;> [unfold x6; clear_value x6]
  refine .ite ?_ ?_
  exact hx5
  refine .call (State.raise_fr ..) ?_ (by decide)
  refine .call (State.setStage_fr ..) ?_ (by decide)
  exact hx5
  refine .ite ?_ ?_
  refine .call (State.raise_fr ..) ?_ (by decide)
  refine .wr ?_ (by decide) (.fld .EMI_STATUS_LB_FLAP rfl (by decide))
  exact hx6
  exact hx6

theorem execLbStale_fr (t : Nat) (s : State) :
    Runs 0x800000000000000000000001400000080000000000000001fe80000010000000000000000200b5c000000000120000000f08b03c110a7b s (execLbStale t s) := by
  unfold execLbStale
  refine .next ?_
  refine .ite ?_ ?_
  exact .refl ..
  lift_lets -underBinder
  intro x1 x2
  refine Fr.have x1 ?_ (fun hx1 => ?_) <;> [unfold x1; clear_value x1]
  refine .call (State.raise_fr ..) ?_ (by decide)
  refine .wr ?_ (by decide) (.fld .EMI_LB_VAL_VALID rfl (by decide))
  exact .refl ..
  refine Fr.have x2 ?_ (fun hx2 => ?_) <;> [unfold x2; clear_value x2]
  refine .ite ?_ ?_
  exact hx1
  refine .call (State.lbEnter_fr ..) ?_ (by decide)
  exact hx1
  refine .call (State.emiFault_fr ..) ?_ (by decide)
  exact hx2

theorem execLbStageFall_fr (t : Nat) (s : State) : Runs 0x20000c0000000000000000000000000000203 s (execLbStageFall t s) := by
  unfold execLbStageFall
  refine .next ?_
  lift_lets -underBinder
  intro x1
  refine .ite ?_ ?_
  exact .refl ..
  refine .ite ?_ ?_
  refine .call (State.lbEnter_fr ..) ?_ (by decide)
  exact .refl ..
  refine .ite ?_ ?_
  refine .call (State.setStage_fr ..) ?_ (by decide)
  exact .refl ..
  exact .refl ..

theorem State.helmFaultClear_fr (s : State) : Fr 0x78016c000000000000000000000000000040000001003 s (State.helmFaultClear s) := by
  unfold State.helmFaultClear
  lift_lets -underBinder
  intro x1 x2 x3 x4 x5
  refine Fr.have x3 ?_ (fun hx3 => ?_) <;> [unfold x3; clear_value x3]
  refine .wr ?_ (by decide) (.fld .HLM_FAULT_CAUSE_CAUSE rfl (by decide))
  exact .refl ..
  refine Fr.have x4 ?_ (fun hx4 => ?_) <;> [unfold x4; clear_value x4]
  refine .ite ?_ ?_
  refine .wr ?_ (by decide) (.fld .HLM_STATUS_SP_STATE rfl (by decide))
  exact hx3
  exact hx3
  refine Fr.have x5 ?_ (fun hx5 => ?_) <;> [unfold x5; clear_value x5]
  refine .ite ?_ ?_
  refine .wr ?_ (by decide) (.fld .HLM_STATUS_TL_STATE rfl (by decide))
  exact hx4
  exact hx4
  refine .ite ?_ ?_
  refine .call (State.cfgReject_fr ..) ?_ (by decide)
  exact .refl ..
  refine .call (State.helmSettle_fr ..) ?_ (by decide)
  refine .call (State.tiltFollow_fr ..) ?_ (by decide)
  exact hx5

theorem execHelmFaultClear_fr (s : State) :
    Runs 0x1000000000000000000000000000000000000000000000000000000000000000000000000078016c00000000000000000000000000004000020100b s (execHelmFaultClear s) := by
  unfold execHelmFaultClear
  refine .next ?_
  (with_reducible apply State.access_fr) <;> [skip; skip; decide]
  exact .refl ..
  intro x1
  refine .call (State.helmFaultClear_fr ..) ?_ (by decide)
  exact .refl ..

theorem execHedgeRequestChange_fr (s : State) : Runs 0x272000000002001000000000000000000000000000002201 s (execHedgeRequestChange s) := by
  unfold execHedgeRequestChange
  refine .next ?_
  lift_lets -underBinder
  intro x1 x2
  refine Fr.have x2 ?_ (fun hx2 => ?_) <;> [unfold x2; clear_value x2]
  refine .put ?_ (by decide) (.fld .HDG_STATUS_REQ rfl (by decide))
  exact .refl ..
  refine .ite ?_ ?_
  refine .call (State.hd_fr ..) ?_ (by decide)
  refine .call (State.setGst_fr ..) ?_ (by decide)
  exact hx2
  refine .ite ?_ ?_
  refine .call (State.emiSettle_fr ..) ?_ (by decide)
  refine .call (State.hd_fr ..) ?_ (by decide)
  refine .call (State.setGst_fr ..) ?_ (by decide)
  exact hx2
  exact hx2

theorem execCurveCommit_fr (s : State) :
    Runs 0x1000000000000000000000000000000000000000000000000000000000000000000000000000000000000020000000000000000000000000020000b s (execCurveCommit s) := by
  unfold execCurveCommit
  refine .next ?_
  (with_reducible apply State.access_fr) <;> [skip; skip; decide]
  exact .refl ..
  intro x1
  refine .wr ?_ (by decide) (.fld .EMI_STATUS_COMMIT_PENDING rfl (by decide))
  exact .refl ..

theorem execMonitorWindowClose_fr (s : State) :
    Runs 0x800000000000000000000001400000080000000000000001fe80000010000000000000002200350000000000120000000f08b03c110a7b s (execMonitorWindowClose s) := by
  unfold execMonitorWindowClose
  refine .next ?_
  split
  exact .refl ..
  lift_lets -underBinder
  intro x1 x2 x3 x4 x5
  refine Fr.have x2 ?_ (fun hx2 => ?_) <;> [unfold x2; clear_value x2]
  apply Fr.upd <;> first | show Fr _ _ _ | exact .inl rfl | exact .inr rfl | rfl
  exact .refl ..
  refine Fr.have x3 ?_ (fun hx3 => ?_) <;> [unfold x3; clear_value x3]
  refine .bump ?_ (by decide) (.fld .EMI_CNT_MON_MISS_COUNT rfl (by decide))
  exact hx2
  refine Fr.have x5 ?_ (fun hx5 => ?_) <;> [unfold x5; clear_value x5]
  apply Fr.upd <;> first | show Fr _ _ _ | exact .inl rfl | exact .inr rfl | rfl
  exact hx3
  refine .ite ?_ ?_
  refine .ite ?_ ?_
  refine .call (State.emiFault_fr ..) ?_ (by decide)
  refine .call (State.raise_fr ..) ?_ (by decide)
  exact hx5
  exact hx5
  exact hx2

theorem State.helmEnable_fr (s : State) : Fr 0x78006c400000000000000000000000000040000001003 s (State.helmEnable s) := by
  unfold State.helmEnable
  refine .ite ?_ ?_
  refine .call (State.cfgReject_fr ..) ?_ (by decide)
  exact .refl ..
  refine .ite ?_ ?_
  exact .refl ..
  lift_lets -underBinder
  intro x1
  refine Fr.have x1 ?_ (fun hx1 => ?_) <;> [unfold x1; clear_value x1]
  refine .wr ?_ (by decide) (.fld .HLM_CTRL_EN rfl (by decide))
  exact .refl ..
  refine .ite ?_ ?_
  unfold State.latchPend
  refine .ite ?_ ?_
  exact hx1
  refine .call (State.raise_fr ..) ?_ (by decide)
  refine .wr ?_ (by decide) (.fld .SYS_PEND_STATUS_HLM rfl (by decide))
  refine .wr ?_ (by decide) (.fld .HLM_STATUS_PENDING_ENABLE rfl (by decide))
  exact hx1
  refine .call (State.helmSettle_fr ..) ?_ (by decide)
  exact hx1

theorem execHelmEnable_fr (s : State) :
    Runs 0x1000000000000000000000000000000000000000000000000000000000000000000000000078006c40000000000000000000000000004000020100b s (execHelmEnable s) := by
  unfold execHelmEnable
  refine .next ?_
  (with_reducible apply State.access_fr) <;> [skip; skip; decide]
  exact .refl ..
  intro x1
  refine .call (State.helmEnable_fr ..) ?_ (by decide)
  exact .refl ..

theorem State.newRun_fr (s : State) : Fr 0xc0 s (State.newRun s) := by
  unfold State.newRun
  lift_lets -underBinder
  intro x1 x2
  apply Fr.upd <;> first | show Fr _ _ _ | exact .inl rfl | exact .inr rfl | rfl
  exact .refl ..

theorem execPointCyclesStart_fr (t : Nat) (s : State) :
    Runs 0x12a00000000000000000000000000000000000000000000000000000000000000100000000000000202001a18000001e001cf0140000000002082f3 s (execPointCyclesStart t s) := by
  unfold execPointCyclesStart
  refine .next ?_
  lift_lets -underBinder
  intro x1 x2
  refine Fr.have x2 ?_ (fun hx2 => ?_) <;> [unfold x2; clear_value x2]
  refine .call (State.hs_fr ..) ?_ (by decide)
  refine .wr ?_ (by decide) (.fld .MER_STATUS_PC_WAIT rfl (by decide))
  refine .wr ?_ (by decide) (.fld .HIS_STATUS_RUNNING rfl (by decide))
  exact .refl ..
  refine .ite ?_ ?_
  exact .refl ..
  refine .call (State.startCycle_fr ..) ?_ (by decide)
  refine .call (State.runEdgeAt_fr ..) ?_ (by decide)
  refine .call (State.newRun_fr ..) ?_ (by decide)
  exact hx2

theorem State.traceDrop_fr (s : State) :
    Fr 0x400000000000000000000000000000000000000000000000000000000000000000000000000000000000000000000000000000000000000000000003 s (State.traceDrop s) := by
  unfold State.traceDrop
  lift_lets -underBinder
  intro x1
  refine .call (State.raiseIf_fr ..) ?_ (by decide)
  refine .bump ?_ (by decide) (.fld .OBS_TRC_DROP_COUNT rfl (by decide))
  exact .refl ..

theorem State.traceRing_fr (s : State) (b : List Byte) :
    Fr 0x510000000000000000000000000003fe2800000000000000000000000000000000000000000000000000000000000000000000000000000000600c03 s (State.traceRing s b) := by
  unfold State.traceRing
  lift_lets -underBinder
  intro x1
  split
  refine .call (State.traceDrop_fr ..) ?_ (by decide)
  exact .refl ..
  lift_lets -underBinder
  intro x2
  refine Fr.have x2 ?_ (fun hx2 => ?_) <;> [unfold x2; clear_value x2]
  refine .ite ?_ ?_
  refine .call (State.memStore_fr ..) ?_ (by decide)
  exact .refl ..
  exact .refl ..
  refine .wr ?_ (by decide) (.fld .OBS_TRC_RING_WPTR_OFS rfl (by decide))
  refine .call (State.memStore_fr ..) ?_ (by decide)
  exact hx2

theorem State.traceBytes_fr (s : State) (o : Nat) (l : List Byte) : Fr 0x100000000000000000000000000000000000000000000000000000000000000000000000000000000000000000000000000000000000000000000000001 s (s.traceBytes o l) := by
  fun_induction State.traceBytes s o l with
  | case1 s o a b c d r ih =>
    exact Fr.call ih (.setReg (.refl ..) (by decide) (.range .r_OBS_TRC_BUF rfl (by decide) (by omega))) (by decide)
  | case2 => exact Fr.refl _ _

theorem State.traceLevel_fr (s : State) : Fr 0x200002 s (State.traceLevel s) := by
  unfold State.traceLevel
  lift_lets -underBinder
  intro x1 x2 x3
  refine Fr.have x2 ?_ (fun hx2 => ?_) <;> [unfold x2; clear_value x2]
  refine .call (State.raiseIf_fr ..) ?_ (by decide)
  exact .refl ..
  apply Fr.upd <;> first | show Fr _ _ _ | exact .inl rfl | exact .inr rfl | rfl
  exact hx2

theorem State.traceOnChip_fr (s : State) (b : List Byte) :
    Fr 0x100440400000000000000000000000000000000000000000000000000000000000000000000000000000000000000000000000000000000000000200003 s (State.traceOnChip s b) := by
  unfold State.traceOnChip
  lift_lets -underBinder
  intro x1 x2 x3 x4
  refine Fr.have x3 ?_ (fun hx3 => ?_) <;> [unfold x3; clear_value x3]
  refine .wr ?_ (by decide) (.fld .OBS_TRC_WPTR_OFS rfl (by decide))
  refine .call (State.traceBytes_fr ..) ?_ (by decide)
  exact .refl ..
  refine .ite ?_ ?_
  refine .call (State.traceDrop_fr ..) ?_ (by decide)
  refine .wr ?_ (by decide) (.fld .OBS_STATUS_FULL rfl (by decide))
  exact .refl ..
  refine .call (State.traceLevel_fr ..) ?_ (by decide)
  apply Fr.upd <;> first | show Fr _ _ _ | exact .inl rfl | exact .inr rfl | rfl
  exact hx3

theorem execTraceRecord_fr (s : State) :
    Runs 0x100550400000000000000000000000003fe2940000000000000000000000000000000000000000000000000000000000000000000000000008000600c03 s (execTraceRecord s) := by
  unfold execTraceRecord
  refine .next ?_
  split
  exact .refl ..
  lift_lets -underBinder
  intro x1
  split
  refine .call (State.traceOnChip_fr ..) ?_ (by decide)
  unfold x1
  apply Fr.upd <;> first | show Fr _ _ _ | exact .inl rfl | exact .inr rfl | rfl
  exact .refl ..
  (with_reducible apply State.whenMemory_fr) <;> [skip; skip; decide]
  exact .refl ..
  intro x2
  refine .call (State.traceRing_fr ..) ?_ (by decide)
  unfold x1
  apply Fr.upd <;> first | show Fr _ _ _ | exact .inl rfl | exact .inr rfl | rfl
  exact .refl ..
  unfold x1
  apply Fr.upd <;> first | show Fr _ _ _ | exact .inl rfl | exact .inr rfl | rfl
  exact .refl ..

theorem execHallFault_fr (s : State) : Runs 0x78016c000000000000000000000000000040000001003 s (execHallFault s) := by
  unfold execHallFault
  refine .next ?_
  refine .ite ?_ ?_
  exact .refl ..
  refine .call (State.spindleFault_fr ..) ?_ (by decide)
  exact .refl ..

theorem State.refScratch_fr (s : State) (n : Nat) : Fr 0x84 s (State.refScratch s n) := by
  unfold State.refScratch
  split
  lift_lets -underBinder
  intro x1
  refine .call (State.onTiller_fr ..) ?_ (by decide)
  with_reducible refine Fr.pair (by assumption) ?_
  refine .call (State.drawFree_fr ..) ?_ (by decide)
  exact .refl ..

theorem State.refSend_fr (s : State) (n : Nat) (t : Nat) (w : Nat) : Fr 0x84 s (State.refSend s n t w).2 := by
  unfold State.refSend
  split
  lift_lets -underBinder
  intro x1
  with_reducible apply Fr.ite2
  dsimp +zetaDelta -zeta only
  refine .call (State.onTiller_fr ..) ?_ (by decide)
  with_reducible refine Fr.pair (by assumption) ?_
  refine .call (State.localReg_fr ..) ?_ (by decide)
  exact .refl ..
  dsimp +zetaDelta -zeta only
  with_reducible refine Fr.pair (by assumption) ?_
  refine .call (State.localReg_fr ..) ?_ (by decide)
  exact .refl ..

theorem State.refLoad_fr (s : State) (n : Nat) (a : Nat) (k : Nat) :
    Fr 0x18203000000000000000000000000c3 s (State.refLoad s n a k).2.2 := by
  unfold State.refLoad
  split
  lift_lets -underBinder
  intro x1
  dsimp +zetaDelta -zeta only
  refine .ite ?_ ?_
  refine .call (State.onTiller_fr ..) ?_ (by decide)
  with_reducible refine Fr.pair (by assumption) ?_
  refine .call (State.readWords_fr ..) ?_ (by decide)
  exact .refl ..
  with_reducible refine Fr.pair (by assumption) ?_
  refine .call (State.readWords_fr ..) ?_ (by decide)
  exact .refl ..

theorem State.refBins_fr (s : State) (n : Nat) (l : Nat) (kr : Nat) :
    Fr 0x18203000000000000000000000000c3 s (State.refBins s n l kr).2.2 := by
  unfold State.refBins
  split
  dsimp +zetaDelta -zeta only
  with_reducible refine Fr.pair (by assumption) ?_
  with_reducible apply Fr.foldl2
  dsimp +zetaDelta -zeta only
  exact .refl ..
  intro x1 x2
  with_reducible apply Fr.ite2
  exact .refl ..
  lift_lets -underBinder
  intro x3
  split
  dsimp +zetaDelta -zeta only
  with_reducible refine Fr.pair3 (by assumption) ?_
  refine .call (State.refLoad_fr ..) ?_ (by decide)
  exact .refl ..

theorem State.setRefLane_fr (s : State) (n : Nat) (l : Nat) (x : RefLane) : Fr 0x80 s (State.setRefLane s n l x) := by
  unfold State.setRefLane
  refine .call (State.onTiller_fr ..) ?_ (by decide)
  exact .refl ..

theorem State.refAnswer_fr (s : State) (n : Nat) (t : Nat) (m : Nat) :
    Fr 0x18203000000000000000000000000c7 s (State.refAnswer s n t m) := by
  unfold State.refAnswer
  lift_lets -underBinder
  intro x1 x2 x3
  split
  split
  refine .ite ?_ ?_
  with_reducible refine Fr.pair (by assumption) ?_
  refine .call (State.refSend_fr ..) ?_ (by decide)
  with_reducible refine Fr.pair (by assumption) ?_
  with_reducible apply Fr.ite2
  dsimp +zetaDelta -zeta only
  exact .refl ..
  split
  lift_lets -underBinder
  intro x4 x5 x6 x7 x8
  refine Fr.have x8 ?_ (fun hx8 => ?_) <;> [unfold x8; clear_value x8]
  refine .call (State.onTiller_fr ..) ?_ (by decide)
  with_reducible refine Fr.pair3 (by assumption) ?_
  refine .call (State.refBins_fr ..) ?_ (by decide)
  exact .refl ..
  dsimp +zetaDelta -zeta only
  exact hx8
  lift_lets -underBinder
  intro x9
  refine .call (State.setRefLane_fr ..) ?_ (by decide)
  with_reducible refine Fr.pair (by assumption) ?_
  refine .call (State.refSend_fr ..) ?_ (by decide)
  with_reducible refine Fr.pair (by assumption) ?_
  with_reducible apply Fr.ite2
  dsimp +zetaDelta -zeta only
  exact .refl ..
  split
  lift_lets -underBinder
  intro x10 x11 x12 x13 x14
  refine Fr.have x14 ?_ (fun hx14 => ?_) <;> [unfold x14; clear_value x14]
  refine .call (State.onTiller_fr ..) ?_ (by decide)
  with_reducible refine Fr.pair3 (by assumption) ?_
  refine .call (State.refBins_fr ..) ?_ (by decide)
  exact .refl ..
  dsimp +zetaDelta -zeta only
  exact hx14

theorem State.refAnswers_fr (s : State) (n : Nat) (t : Nat) (k3 : Nat) :
    Fr 0x18203000000000000000000000000c7 s (State.refAnswers s n t k3) := by
  induction k3 generalizing s with
  | zero => exact Fr.refl _ _
  | succ k ih =>
    unfold State.refAnswers
    split
    refine .ite ?_ ?_
    refine .call (ih ..) ?_ (by decide)
    refine .call (State.refAnswer_fr ..) ?_ (by decide)
    refine .call (State.onTiller_fr ..) ?_ (by decide)
    exact .refl ..
    exact .refl ..
    exact .refl ..

theorem State.attend_fr (s : State) (n : Nat) (t : Nat) :
    Fr 0x100000000000000000000000000000000000000000000000000000000000000000000000000000000000000018203000000000000000000002000c7 s (State.attend s n t) := by
  unfold State.attend
  lift_lets -underBinder
  intro x1 x2 x3
  refine Fr.have x2 ?_ (fun hx2 => ?_) <;> [unfold x2; clear_value x2]
  refine .call (State.countTil_fr ..) ?_ (by decide)
  refine .call (State.setTiller_fr ..) ?_ (by decide)
  exact .refl ..
  refine Fr.have x3 ?_ (fun hx3 => ?_) <;> [unfold x3; clear_value x3]
  refine .call (State.refScratch_fr ..) ?_ (by decide)
  refine .call (State.refAnswers_fr ..) ?_ (by decide)
  exact hx2
  refine .ite ?_ ?_
  exact hx2
  refine .call (State.onTiller_fr ..) ?_ (by decide)
  exact hx3

theorem execAttention_fr (n : Fin 192) (t : Nat) (s : State) :
    Runs 0x100000000000000000000000000000000000000000000000000000000000000000000000000000000000000018203000000000000000000002000c7 s (execAttention n t s) := by
  unfold execAttention
  refine .next ?_
  lift_lets -underBinder
  intro x1
  refine .ite ?_ ?_
  exact .refl ..
  refine .call (State.attend_fr ..) ?_ (by decide)
  exact .refl ..

theorem execFacetCrossing_fr (t : Nat) (s : State) : Runs 0x800000000000000000000000000000000005001 s (execFacetCrossing t s) := by
  unfold execFacetCrossing
  refine .next ?_
  lift_lets -underBinder
  intro x1 x2 x3 x4
  refine Fr.have x1 ?_ (fun hx1 => ?_) <;> [unfold x1; clear_value x1]
  refine .wr ?_ (by decide) (.fld .HLM_STATUS_FACET rfl (by decide))
  exact .refl ..
  refine Fr.have x4 ?_ (fun hx4 => ?_) <;> [unfold x4; clear_value x4]
  refine .ite ?_ ?_
  apply Fr.upd <;> first | show Fr _ _ _ | exact .inl rfl | exact .inr rfl | rfl
  exact hx1
  exact hx1
  refine .ite ?_ ?_
  refine .call (State.hl_fr ..) ?_ (by decide)
  exact hx4
  exact hx4

theorem State.helmSample_fr (s : State) (w : Word) (t : Nat) :
    Fr 0x10000000000000000000000000000000000000000000000000000000000000000000000000786080000000000000000000000000000000000201003 s (State.helmSample s w t) := by
  unfold State.helmSample
  lift_lets -underBinder
  intro x1
  refine Fr.have x1 ?_ (fun hx1 => ?_) <;> [unfold x1; clear_value x1]
  refine .call (State.helmNow_fr ..) ?_ (by decide)
  exact .refl ..
  refine .ite ?_ ?_
  refine .call (State.hl_fr ..) ?_ (by decide)
  exact hx1
  exact hx1

theorem State.helmUrgent_fr (s : State) :
    Fr 0x10000000000000000000000000000000000000000000000000000000000000000000000000786080000000000000000000000000000000000201003 s (State.helmUrgent s) := by
  unfold State.helmUrgent
  refine .ite ?_ ?_
  refine .call (State.tickDone_fr ..) ?_ (by decide)
  refine .call (State.tiltTick_fr ..) ?_ (by decide)
  exact .refl ..
  refine .call (State.hl_fr ..) ?_ (by decide)
  exact .refl ..

theorem State.lbStand_fr (s : State) (t : Nat) : Fr 0x200 s (State.lbStand s t) := by
  unfold State.lbStand
  lift_lets -underBinder
  intro x1 x2 x3 x4 x5
  apply Fr.upd <;> first | show Fr _ _ _ | exact .inl rfl | exact .inr rfl | rfl
  exact .refl ..

theorem State.lbSample_fr (s : State) (w : Word) (t : Nat) : Fr 0x18000000000000000000000000000000201 s (State.lbSample s w t) := by
  unfold State.lbSample
  refine .ite ?_ ?_
  exact .refl ..
  refine .call (State.lbStand_fr ..) ?_ (by decide)
  refine .wr ?_ (by decide) (.fld .EMI_LB_VAL_VALID rfl (by decide))
  refine .wr ?_ (by decide) (.fld .EMI_LB_VAL_N rfl (by decide))
  exact .refl ..

theorem State.capLevel_fr (s : State) (w : Word) (t : Nat) :
    Fr 0x3ac000000000000000000000000000000000000000000000000000008007 s (State.capLevel s w t) := by
  unfold State.capLevel
  lift_lets -underBinder
  intro x1 x2 x3 x4 x5 x6 x7 x8 x9 x10 x11 x12 x13
  refine .ite ?_ ?_
  exact .refl ..
  refine .ite ?_ ?_
  refine .ite ?_ ?_
  refine .call (State.capTrigger_fr ..) ?_ (by decide)
  apply Fr.upd <;> first | show Fr _ _ _ | exact .inl rfl | exact .inr rfl | rfl
  exact .refl ..
  apply Fr.upd <;> first | show Fr _ _ _ | exact .inl rfl | exact .inr rfl | rfl
  exact .refl ..
  apply Fr.upd <;> first | show Fr _ _ _ | exact .inl rfl | exact .inr rfl | rfl
  exact .refl ..

theorem State.capSample_fr (s : State) (w : Word) (t : Nat) :
    Fr 0x3ac000000000000000000000000000000000000000000000000000008007 s (State.capSample s w t) := by
  unfold State.capSample
  refine .ite ?_ ?_
  exact .refl ..
  lift_lets -underBinder
  intro x1 x2
  refine Fr.have x2 ?_ (fun hx2 => ?_) <;> [unfold x2; clear_value x2]
  apply Fr.upd <;> first | show Fr _ _ _ | exact .inl rfl | exact .inr rfl | rfl
  exact .refl ..
  refine .call (State.capClose_fr ..) ?_ (by decide)
  refine .call (State.capLevel_fr ..) ?_ (by decide)
  exact hx2

theorem execLineTestStep_fr (sense : Nat) (s : State) :
    Runs 0x800000000000000000000001400000080000000000000001fe800000100000000000000002d4350000000000120000000f08b03c110a7b s (execLineTestStep sense s) := by
  unfold execLineTestStep
  refine .next ?_
  lift_lets -underBinder
  intro x1 x2 x3 x4 x5
  refine .ite ?_ ?_
  exact .refl ..
  refine .ite ?_ ?_
  refine .ite ?_ ?_
  unfold x5
  apply Fr.upd <;> first | show Fr _ _ _ | exact .inl rfl | exact .inr rfl | rfl
  exact .refl ..
  refine .call (State.emiFault_fr ..) ?_ (by decide)
  unfold x5
  apply Fr.upd <;> first | show Fr _ _ _ | exact .inl rfl | exact .inr rfl | rfl
  exact .refl ..
  refine .ite ?_ ?_
  unfold x5
  apply Fr.upd <;> first | show Fr _ _ _ | exact .inl rfl | exact .inr rfl | rfl
  refine .ite ?_ ?_
  unfold State.lineFault
  lift_lets -underBinder
  intro x6
  refine .ite ?_ ?_
  exact .refl ..
  refine .call (State.derateCheck_fr ..) ?_ (by decide)
  refine .call (State.raise_fr ..) ?_ (by decide)
  refine .wr ?_ (by decide) (.fld .EMI_ROW_OPEN_OPEN rfl (by decide))
  exact .refl ..
  refine .ite ?_ ?_
  unfold State.lineFault
  lift_lets -underBinder
  intro x7
  refine .ite ?_ ?_
  exact .refl ..
  refine .call (State.derateCheck_fr ..) ?_ (by decide)
  refine .call (State.raise_fr ..) ?_ (by decide)
  refine .wr ?_ (by decide) (.fld .EMI_ROW_SHORT_SHORT rfl (by decide))
  exact .refl ..
  exact .refl ..
  unfold x5
  apply Fr.upd <;> first | show Fr _ _ _ | exact .inl rfl | exact .inr rfl | rfl
  refine .ite ?_ ?_
  unfold State.lineFault
  lift_lets -underBinder
  intro x8
  refine .ite ?_ ?_
  exact .refl ..
  refine .call (State.derateCheck_fr ..) ?_ (by decide)
  refine .call (State.raise_fr ..) ?_ (by decide)
  refine .wr ?_ (by decide) (.fld .EMI_COL_FAULT_OPEN rfl (by decide))
  exact .refl ..
  refine .ite ?_ ?_
  unfold State.lineFault
  lift_lets -underBinder
  intro x9
  refine .ite ?_ ?_
  exact .refl ..
  refine .call (State.derateCheck_fr ..) ?_ (by decide)
  refine .call (State.raise_fr ..) ?_ (by decide)
  refine .wr ?_ (by decide) (.fld .EMI_COL_FAULT_SHORT rfl (by decide))
  exact .refl ..
  exact .refl ..

theorem execSweepSync_fr (t : Nat) (s : State) :
    Runs 0x12a000000000000000000000000000000000000000000000000000000003ac000000000000786080000000000000000000000000000000000209207 s (execSweepSync t s) := by
  unfold execSweepSync
  refine .next ?_
  lift_lets -underBinder
  intro x1 x2 x3 x4 x5
  refine Fr.have x1 ?_ (fun hx1 => ?_) <;> [unfold x1; clear_value x1]
  refine .call (State.helmNow_fr ..) ?_ (by decide)
  exact .refl ..
  refine Fr.have x3 ?_ (fun hx3 => ?_) <;> [unfold x3; clear_value x3]
  refine .call (State.hl_fr ..) ?_ (by decide)
  exact hx1
  refine Fr.have x5 ?_ (fun hx5 => ?_) <;> [unfold x5; clear_value x5]
  refine .ite ?_ ?_
  apply Fr.upd <;> first | show Fr _ _ _ | exact .inl rfl | exact .inr rfl | rfl
  exact hx3
  exact hx3
  refine .ite ?_ ?_
  exact hx1
  refine .call (State.snapOn_fr ..) ?_ (by decide)
  refine .call (State.capEvent_fr ..) ?_ (by decide)
  exact hx5

theorem State.showFacet_fr (s : State) : Fr 0x800000000000000000000000000000000000001 s (State.showFacet s) := by
  unfold State.showFacet
  refine .wr ?_ (by decide) (.fld .HLM_STATUS_FACET rfl (by decide))
  exact .refl ..

theorem State.zeroCount_fr (s : State) : Fr 0x8000000000000000000000000000000000000001001 s (State.zeroCount s) := by
  unfold State.zeroCount
  lift_lets -underBinder
  intro x1
  refine .call (State.hl_fr ..) ?_ (by decide)
  refine .wr ?_ (by decide) (.fld .HLM_ENC_COUNT_COUNT rfl (by decide))
  exact .refl ..

theorem execEncoderIndex_fr (s : State) : Runs 0x7c816e800000000000000000000000000040000001003 s (execEncoderIndex s) := by
  unfold execEncoderIndex
  refine .next ?_
  refine .ite ?_ ?_
  exact .refl ..
  refine .ite ?_ ?_
  refine .call (State.showFacet_fr ..) ?_ (by decide)
  refine .wr ?_ (by decide) (.fld .HLM_STATUS_INDEX_SEEN rfl (by decide))
  refine .call (State.zeroCount_fr ..) ?_ (by decide)
  exact .refl ..
  lift_lets -underBinder
  intro x1 x2 x3
  refine Fr.have x2 ?_ (fun hx2 => ?_) <;> [unfold x2; clear_value x2]
  refine .call (State.showFacet_fr ..) ?_ (by decide)
  refine .call (State.zeroCount_fr ..) ?_ (by decide)
  refine .call (State.raise_fr ..) ?_ (by decide)
  refine .bump ?_ (by decide) (.fld .HLM_CNT_ENC_ERR_COUNT rfl (by decide))
  exact .refl ..
  refine Fr.have x3 ?_ (fun hx3 => ?_) <;> [unfold x3; clear_value x3]
  refine .call (State.hl_fr ..) ?_ (by decide)
  exact hx2
  refine .ite ?_ ?_
  refine .call (State.hl_fr ..) ?_ (by decide)
  exact .refl ..
  refine .ite ?_ ?_
  refine .call (State.encFault_fr ..) ?_ (by decide)
  exact hx3
  exact hx3

theorem execDisTimeout_fr (s : State) :
    Runs 0x800000000000000000000001400000080000000000000001fe80000010000000000000000200350000000000120000000f08b03c110a7b s (execDisTimeout s) := by
  unfold execDisTimeout
  refine .next ?_
  refine .ite ?_ ?_
  refine .call (State.emiFault_fr ..) ?_ (by decide)
  refine .call (State.raise_fr ..) ?_ (by decide)
  exact .refl ..
  exact .refl ..

theorem execTiltTrack_fr (s : State) : Runs 0x140000000000000000000000000000000000001003 s (execTiltTrack s) := by
  unfold execTiltTrack
  refine .next ?_
  refine .ite ?_ ?_
  exact .refl ..
  refine .call (State.helmCause_fr ..) ?_ (by decide)
  refine .call (State.setTl_fr ..) ?_ (by decide)
  exact .refl ..

theorem State.hedgeCount_fr (s : State) (k : Nat) :
    Fr 0x1001c0000880000000000000000000001400000080000000000000001fe80c0001240003df78006c60200171c0600006013cf01400f0cb03c31bbff s (State.hedgeCount s k) := by
  unfold State.hedgeCount
  refine .ite ?_ ?_
  lift_lets -underBinder
  intro x1
  refine Fr.have x1 ?_ (fun hx1 => ?_) <;> [unfold x1; clear_value x1]
  refine .call (State.hd_fr ..) ?_ (by decide)
  refine .bump ?_ (by decide) (.fld .HDG_CNT_ENC_ERR_COUNT rfl (by decide))
  exact .refl ..
  refine .ite ?_ ?_
  refine .call (State.tripTimed_fr ..) ?_ (by decide)
  exact hx1
  exact hx1
  refine .ite ?_ ?_
  refine .call (State.hd_fr ..) ?_ (by decide)
  exact .refl ..
  lift_lets -underBinder
  intro x2
  refine Fr.have x2 ?_ (fun hx2 => ?_) <;> [unfold x2; clear_value x2]
  refine .call (State.hd_fr ..) ?_ (by decide)
  exact .refl ..
  refine .ite ?_ ?_
  refine .call (State.trip_fr ..) ?_ (by decide)
  exact hx2
  exact hx2

theorem execHedgeEncoderCount_fr (a : Bool) (b : Bool) (s : State) :
    Runs 0x1001c0000880000000000000000000001400000080000000000000001fe80c0001240003df78006c60200171c0600006013cf01400f0cb03c31bbff s (execHedgeEncoderCount a b s) := by
  unfold execHedgeEncoderCount
  refine .next ?_
  split
  exact .refl ..
  refine .call (State.hedgeCount_fr ..) ?_ (by decide)
  refine .call (State.hd_fr ..) ?_ (by decide)
  exact .refl ..

theorem State.counterLive_fr (s : State) (k : Nat) :
    Fr 0x1000000000000000000000000000000000000000000000000000000000000000000000000000000000000000000000000000000000000000000000009 s (State.counterLive s k) := by
  unfold State.counterLive
  lift_lets -underBinder
  intro x1
  refine .call (State.answerRead_fr ..) ?_ (by decide)
  refine .wr ?_ (by decide) (.arr .OBS_CNT_LIVE_HI_VALUE rfl (by decide))
  exact .refl ..

theorem State.seedWrite_fr (s : State) (b : Nat) (e : Nat) (hi : Bool) (w : Word) :
    Fr 0x1000000000000000000000000000000000000000000000000000000000000000000000000000000000000002000000000000000000000000000000000003 s (State.seedWrite s b e hi w) := by
  unfold State.seedWrite
  refine .ite ?_ ?_
  refine .call (State.cfgReject_fr ..) ?_ (by decide)
  exact .refl ..
  refine .ite ?_ ?_
  refine .call (State.cfgReject_fr ..) ?_ (by decide)
  exact .refl ..
  refine .call (State.waitDac_fr ..) ?_ (by decide)
  refine .setReg ?_ (by decide) (.all (by decide))
  exact .refl ..

theorem State.tilStep_fr (s : State) (n : Nat) (t : Nat) :
    Fr 0x100000000800000000000000000000001400000080000000000000001fe80000010000000000000000200010192030000120000000f00b03c3108ff s (State.tilStep s n t) := by
  unfold State.tilStep
  refine .ite ?_ ?_
  lift_lets -underBinder
  intro x1 x2 x3
  refine Fr.have x1 ?_ (fun hx1 => ?_) <;> [unfold x1; clear_value x1]
  refine .call (State.onTiller_fr ..) ?_ (by decide)
  exact .refl ..
  refine Fr.have x2 ?_ (fun hx2 => ?_) <;> [unfold x2; clear_value x2]
  refine .ite ?_ ?_
  refine .call (State.attend_fr ..) ?_ (by decide)
  exact hx1
  exact hx1
  refine Fr.have x3 ?_ (fun hx3 => ?_) <;> [unfold x3; clear_value x3]
  split
  refine .call (State.stepDone_fr ..) ?_ (by decide)
  refine .call (State.refIssueEmit_fr ..) ?_ (by decide)
  refine .call (State.onTiller_fr ..) ?_ (by decide)
  exact hx2
  (with_reducible apply State.issue_fr) <;> [skip; skip; decide]
  exact hx2
  intro x4
  refine .call (State.fetchRun_fr ..) ?_ (by decide)
  exact .refl ..
  refine .call (State.derateCheck_fr ..) ?_ (by decide)
  exact hx3
  refine .call (State.cfgReject_fr ..) ?_ (by decide)
  exact .refl ..

theorem State.sampleReload_fr (s : State) : Fr 0x4 s (State.sampleReload s).2 := by
  unfold State.sampleReload
  split
  dsimp +zetaDelta -zeta only
  with_reducible refine Fr.pair (by assumption) ?_
  refine .call (State.drawFree_fr ..) ?_ (by decide)
  exact .refl ..

theorem State.risingMsix_fr {w : Nat} {s0 : State} {s : State} {f : State → State} (h : Fr w s0 s) (hf : ∀  y, Fr w y (f  y)) (hw : 0x20010000000000000000000000000000000000000000000000000000000000000000000000000000000000000000000000000000000000000000200803 &&& w = 0x20010000000000000000000000000000000000000000000000000000000000000000000000000000000000000000000000000000000000000000200803) :
    Fr w s0 (State.risingMsix s f) := by
  refine h.trans ?_
  unfold State.risingMsix
  lift_lets -underBinder
  intro x1 x2
  refine Fr.have x2 ?_ (fun hx2 => ?_) <;> [unfold x2; clear_value x2]
  refine Fr.trans ?_ (hf _)
  exact .refl ..
  with_reducible apply Fr.forN
  exact hx2
  intro x3 x4
  refine .ite ?_ ?_
  refine .ite ?_ ?_
  exact .refl ..
  (with_reducible apply Fr.call (State.postMsix_fr ..)) <;> [skip; exact sub_trans (by decide) hw]
  exact .refl ..
  refine .ite ?_ ?_
  (with_reducible apply Fr.call (State.setPba_fr ..)) <;> [skip; exact sub_trans (by decide) hw]
  exact .refl ..
  exact .refl ..

theorem State.forceEvent_fr (s : State) (e : Nat) : Fr 0x2 s (State.forceEvent s e) := by
  unfold State.forceEvent
  refine .ite ?_ ?_
  refine .call (State.cfgReject_fr ..) ?_ (by decide)
  exact .refl ..
  refine .call (State.raise_fr ..) ?_ (by decide)
  exact .refl ..

theorem State.pendClear_fr (s : State) (i : Nat) (w : Word) :
    Fr 0x20010000000000000000000000000000000000000000000000000000000000000000000000000000000000000000000000000000000020000000200803 s (State.pendClear s i w) := by
  unfold State.pendClear
  lift_lets -underBinder
  intro x1 x2
  refine Fr.have x2 ?_ (fun hx2 => ?_) <;> [unfold x2; clear_value x2]
  refine .setReg ?_ (by decide) (.words .w_EVT_PEND rfl (by decide))
  exact .refl ..
  with_reducible apply Fr.forN
  exact hx2
  intro x3 x4
  refine .ite ?_ ?_
  refine .call (State.postMsix_fr ..) ?_ (by decide)
  exact .refl ..
  refine .ite ?_ ?_
  refine .call (State.setPba_fr ..) ?_ (by decide)
  exact .refl ..
  exact .refl ..

theorem State.traceArm_fr (s : State) :
    Fr 0x10000000000000000000000000000000000000000000000000000000000000000000000000000380000000000000000000000000000000000000001001 s (State.traceArm s) := by
  unfold State.traceArm
  lift_lets -underBinder
  intro x1
  refine Fr.have x1 ?_ (fun hx1 => ?_) <;> [unfold x1; clear_value x1]
  refine .wr ?_ (by decide) (.fld .HLM_TRACE_STATUS_DONE rfl (by decide))
  refine .resetRegs .r_HLM_TRACE rfl ?_ (by decide) (by decide) (by decide)
  exact .refl ..
  refine .call (State.hl_fr ..) ?_ (by decide)
  refine .wr ?_ (by decide) (.fld .HLM_TRACE_STATUS_OLDEST rfl (by decide))
  refine .wr ?_ (by decide) (.fld .HLM_TRACE_STATUS_RECORDING rfl (by decide))
  exact hx1

theorem State.speedRef_fr (s : State) (w : Nat) : Fr 0x268000000000000000000000000000000000001003 s (State.speedRef s w) := by
  unfold State.speedRef
  refine .ite ?_ ?_
  refine .call (State.cfgReject_fr ..) ?_ (by decide)
  exact .refl ..
  lift_lets -underBinder
  intro x1
  refine Fr.have x1 ?_ (fun hx1 => ?_) <;> [unfold x1; clear_value x1]
  refine .wr ?_ (by decide) (.fld .HLM_SPEED_REF_TARGET rfl (by decide))
  exact .refl ..
  refine .ite ?_ ?_
  refine .call (State.setSp_fr ..) ?_ (by decide)
  refine .call (State.handover_fr ..) ?_ (by decide)
  exact hx1
  exact hx1

theorem State.counterConfig_fr (s : State) (k : Nat) (w : Word) :
    Fr 0x800000000000000000000000000000000000000000000000000000000000000000000000000000000000000000000000000000000000000000200003 s (State.counterConfig s k w) := by
  unfold State.counterConfig
  refine .ite ?_ ?_
  refine .call (State.cfgReject_fr ..) ?_ (by decide)
  exact .refl ..
  lift_lets -underBinder
  intro x1 x2 x3 x4 x5
  refine Fr.have x4 ?_ (fun hx4 => ?_) <;> [unfold x4; clear_value x4]
  unfold x1
  refine .setReg ?_ (by decide) (.words .w_OBS_CNT_CFG rfl (by decide))
  exact .refl ..
  refine .ite ?_ ?_
  exact hx4
  apply Fr.upd <;> first | show Fr _ _ _ | exact .inl rfl | exact .inr rfl | rfl
  exact hx4

theorem State.clearCounters_fr (s : State) :
    Fr 0x40000000000000000000000000000000000000000000000000000000000000000000000000000000000000000000000000000000000000000000200001 s (State.clearCounters s) := by
  unfold State.clearCounters
  lift_lets -underBinder
  intro x1 x2
  refine Fr.have x1 ?_ (fun hx1 => ?_) <;> [unfold x1; clear_value x1]
  refine .resetRegs .r_OBS_SAT rfl ?_ (by decide) (by decide) (by decide)
  exact .refl ..
  apply Fr.upd <;> first | show Fr _ _ _ | exact .inl rfl | exact .inr rfl | rfl
  exact hx1

theorem State.shortTest_fr (s : State) : Fr 0x202 s (State.shortTest s) := by
  unfold State.shortTest
  refine .ite ?_ ?_
  refine .call (State.cfgReject_fr ..) ?_ (by decide)
  exact .refl ..
  refine .ite ?_ ?_
  exact .refl ..
  apply Fr.upd <;> first | show Fr _ _ _ | exact .inl rfl | exact .inr rfl | rfl
  exact .refl ..

theorem State.lbFlapRelease_fr (s : State) : Fr 0x40000000000000000000000000000201 s (State.lbFlapRelease s) := by
  unfold State.lbFlapRelease
  lift_lets -underBinder
  intro x1 x2
  refine Fr.have x1 ?_ (fun hx1 => ?_) <;> [unfold x1; clear_value x1]
  refine .wr ?_ (by decide) (.fld .EMI_STATUS_LB_FLAP rfl (by decide))
  exact .refl ..
  apply Fr.upd <;> first | show Fr _ _ _ | exact .inl rfl | exact .inr rfl | rfl
  exact hx1

theorem State.emiDisable_fr (s : State) : Fr 0x2001404000000000000000000080000000201 s (State.emiDisable s) := by
  unfold State.emiDisable
  lift_lets -underBinder
  intro x1 x2
  refine Fr.have x2 ?_ (fun hx2 => ?_) <;> [unfold x2; clear_value x2]
  refine .wr ?_ (by decide) (.fld .EMI_CTRL_EN rfl (by decide))
  unfold State.dropPend
  refine .wr ?_ (by decide) (.fld .SYS_PEND_STATUS_EMI rfl (by decide))
  refine .wr ?_ (by decide) (.fld .EMI_STATUS_PENDING_ENABLE rfl (by decide))
  exact .refl ..
  refine .ite ?_ ?_
  refine .call (State.emiDischarge_fr ..) ?_ (by decide)
  exact hx2
  refine .call (State.emiSettle_fr ..) ?_ (by decide)
  exact hx2

theorem State.lineClear_fr (s : State) (r : Nat) (w : Word) :
    Fr 0x800000000000000000000001400000080000000000000001fe8000001000000000000000022a010000000000120000000f00b03c11087b s (State.lineClear s r w) := by
  unfold State.lineClear
  lift_lets -underBinder
  intro x1
  refine .call (State.derateCheck_fr ..) ?_ (by decide)
  unfold x1
  refine .setReg ?_ (by decide) (.ite (.word .w_EMI_ROW_SHORT rfl (by decide)) (.ite (.word .w_EMI_ROW_OPEN rfl (by decide)) (.word .w_EMI_COL_FAULT rfl (by decide))))
  exact .refl ..

theorem State.lbRecheck_fr (s : State) : Fr 0x200 s (State.lbRecheck s) := by
  unfold State.lbRecheck
  refine .ite ?_ ?_
  refine .call (State.lbStand_fr ..) ?_ (by decide)
  exact .refl ..
  exact .refl ..

theorem State.emiEnable_fr (s : State) : Fr 0x2001404000000000000000000080000000203 s (State.emiEnable s) := by
  unfold State.emiEnable
  refine .ite ?_ ?_
  refine .call (State.cfgReject_fr ..) ?_ (by decide)
  exact .refl ..
  refine .ite ?_ ?_
  exact .refl ..
  lift_lets -underBinder
  intro x1
  refine Fr.have x1 ?_ (fun hx1 => ?_) <;> [unfold x1; clear_value x1]
  refine .wr ?_ (by decide) (.fld .EMI_CTRL_EN rfl (by decide))
  exact .refl ..
  refine .ite ?_ ?_
  unfold State.latchPend
  refine .ite ?_ ?_
  exact hx1
  refine .call (State.raise_fr ..) ?_ (by decide)
  refine .wr ?_ (by decide) (.fld .SYS_PEND_STATUS_EMI rfl (by decide))
  refine .wr ?_ (by decide) (.fld .EMI_STATUS_PENDING_ENABLE rfl (by decide))
  exact hx1
  refine .call (State.emiSettle_fr ..) ?_ (by decide)
  exact hx1

theorem execStall_fr (s : State) : Runs 0x78016c000000000000000000000000000040000001003 s (execStall s) := by
  unfold execStall
  refine .next ?_
  refine .ite ?_ ?_
  refine .call (State.spindleFault_fr ..) ?_ (by decide)
  exact .refl ..
  exact .refl ..

theorem execSafeRstStuck_fr (s : State) : Runs 0x1000000000000000000000000000000000000000000003 s (execSafeRstStuck s) := by
  unfold execSafeRstStuck
  refine .next ?_
  refine .ite ?_ ?_
  refine .call (State.raise_fr ..) ?_ (by decide)
  refine .wr ?_ (by decide) (.fld .HDG_STATUS_RST_PHASE rfl (by decide))
  exact .refl ..
  exact .refl ..

theorem execLbStageRise_fr (t : Nat) (s : State) :
    Runs 0x800000000000000000000001400000080000000000000001fe8000001000000000000000020035c000000000120000000f08b03c110a7b s (execLbStageRise t s) := by
  unfold execLbStageRise
  refine .next ?_
  lift_lets -underBinder
  intro x1
  refine .ite ?_ ?_
  exact .refl ..
  refine .ite ?_ ?_
  refine .call (State.emiFault_fr ..) ?_ (by decide)
  refine .call (State.lbEnter_fr ..) ?_ (by decide)
  exact .refl ..
  refine .ite ?_ ?_
  refine .call (State.lbEnter_fr ..) ?_ (by decide)
  exact .refl ..
  exact .refl ..

theorem State.lawCopy_fr (s : State) : Fr 0x10000000000000000000000000000000000001001 s (State.lawCopy s) := by
  unfold State.lawCopy
  lift_lets -underBinder
  intro x1
  refine Fr.have x1 ?_ (fun hx1 => ?_) <;> [unfold x1; clear_value x1]
  refine .call (State.hl_fr ..) ?_ (by decide)
  refine .wr ?_ (by decide) (.fld .HLM_STATUS_COMMIT_PENDING rfl (by decide))
  exact .refl ..
  with_reducible apply Fr.forN
  exact hx1
  intro x2 x3
  refine .ite ?_ ?_
  refine .call (State.setHist_fr ..) ?_ (by decide)
  exact .refl ..
  exact .refl ..

theorem State.finishTick_fr (s : State) :
    Fr 0x10000000000000000000000000000000000000000000000000000000000000000000000000786080000000000000000000000000000000000201003 s (State.finishTick s) := by
  unfold State.finishTick
  refine .ite ?_ ?_
  lift_lets -underBinder
  intro x1 x2
  refine Fr.have x1 ?_ (fun hx1 => ?_) <;> [unfold x1; clear_value x1]
  refine .ite ?_ ?_
  refine .call (State.tiltMissed_fr ..) ?_ (by decide)
  exact .refl ..
  exact .refl ..
  refine Fr.have x2 ?_ (fun hx2 => ?_) <;> [unfold x2; clear_value x2]
  refine .ite ?_ ?_
  refine .call (State.driveSp_fr ..) ?_ (by decide)
  refine .call (State.hl_fr ..) ?_ (by decide)
  exact hx1
  exact hx1
  refine .call (State.tickEnd_fr ..) ?_ (by decide)
  exact hx2
  exact .refl ..

theorem State.sampleSp_fr (s : State) :
    Fr 0x100000000000000000000000000000000000000000000000000000000000000000000000000000e0000000000000000000000000000000000201003 s (State.sampleSp s) := by
  unfold State.sampleSp
  lift_lets -underBinder
  intro x1 x2 x3 x4 x5 x6 x7 x8 x9 x10 x11
  refine Fr.have x4 ?_ (fun hx4 => ?_) <;> [unfold x4; clear_value x4]
  refine .call (State.hl_fr ..) ?_ (by decide)
  exact .refl ..
  refine Fr.have x5 ?_ (fun hx5 => ?_) <;> [unfold x5; clear_value x5]
  refine .call (State.driveSp_fr ..) ?_ (by decide)
  exact hx4
  refine Fr.have x8 ?_ (fun hx8 => ?_) <;> [unfold x8; clear_value x8]
  refine .call (State.hl_fr ..) ?_ (by decide)
  exact hx4
  refine Fr.have x10 ?_ (fun hx10 => ?_) <;> [unfold x10; clear_value x10]
  refine .call (State.hl_fr ..) ?_ (by decide)
  exact .refl ..
  refine Fr.have x11 ?_ (fun hx11 => ?_) <;> [unfold x11; clear_value x11]
  refine .call (State.hl_fr ..) ?_ (by decide)
  exact .refl ..
  refine .ite ?_ ?_
  refine .ite ?_ ?_
  refine .call (State.enterLocking_fr ..) ?_ (by decide)
  exact hx5
  exact hx5
  refine .ite ?_ ?_
  refine .ite ?_ ?_
  refine .call (State.hl_fr ..) ?_ (by decide)
  exact hx8
  refine .call (State.driveSp_fr ..) ?_ (by decide)
  exact hx8
  refine .ite ?_ ?_
  refine .ite ?_ ?_
  refine .call (State.hl_fr ..) ?_ (by decide)
  exact hx10
  refine .call (State.driveSp_fr ..) ?_ (by decide)
  exact hx10
  refine .ite ?_ ?_
  refine .call (State.driveSp_fr ..) ?_ (by decide)
  exact hx11
  exact .refl ..

theorem State.judgeHall_fr (s : State) : Fr 0x1000 s (State.judgeHall s) := by
  unfold State.judgeHall
  refine .ite ?_ ?_
  refine .call (State.hl_fr ..) ?_ (by decide)
  exact .refl ..
  refine .call (State.hl_fr ..) ?_ (by decide)
  exact .refl ..

theorem State.spindleSample_fr (s : State) :
    Fr 0x100000000000000000000000000000000000000000000000000000000000000000000000000018e0000000000000000000000000000000000201003 s (State.spindleSample s) := by
  unfold State.spindleSample
  lift_lets -underBinder
  intro x1 x2 x3 x4 x5
  refine Fr.have x2 ?_ (fun hx2 => ?_) <;> [unfold x2; clear_value x2]
  refine .wrS ?_ (by decide) (.fld .HLM_MEAS_SPEED_OMEGA rfl (by decide))
  exact .refl ..
  refine Fr.have x4 ?_ (fun hx4 => ?_) <;> [unfold x4; clear_value x4]
  refine .call (State.hl_fr ..) ?_ (by decide)
  exact hx2
  refine Fr.have x5 ?_ (fun hx5 => ?_) <;> [unfold x5; clear_value x5]
  refine .wrS ?_ (by decide) (.fld .HLM_MEAS_PHASE_E_PH rfl (by decide))
  exact hx4
  refine .call (State.sampleSp_fr ..) ?_ (by decide)
  refine .call (State.judgeHall_fr ..) ?_ (by decide)
  refine .call (State.count_fr ..) ?_ (by decide)
  exact hx5

theorem execHelmTick_fr (t : Nat) (hall : Fin 8) (faultLow : Bool) (s : State) :
    Runs 0x10000000000000000000000000000000000000000000000000000000000000000000000000787cf8800000000000000000000000000000000221003 s (execHelmTick t hall faultLow s) := by
  unfold execHelmTick
  refine .next ?_
  refine .ite ?_ ?_
  exact .refl ..
  lift_lets -underBinder
  intro x1 x2 x3 x4 x5 x6 x7 x8 x9 x10
  refine Fr.have x1 ?_ (fun hx1 => ?_) <;> [unfold x1; clear_value x1]
  refine .call (State.finishTick_fr ..) ?_ (by decide)
  exact .refl ..
  refine Fr.have x2 ?_ (fun hx2 => ?_) <;> [unfold x2; clear_value x2]
  refine .ite ?_ ?_
  refine .call (State.lawCopy_fr ..) ?_ (by decide)
  exact hx1
  exact hx1
  refine Fr.have x4 ?_ (fun hx4 => ?_) <;> [unfold x4; clear_value x4]
  refine .call (State.hl_fr ..) ?_ (by decide)
  refine .call (State.helmStart_fr ..) ?_ (by decide)
  exact hx2
  refine Fr.have x6 ?_ (fun hx6 => ?_) <;> [unfold x6; clear_value x6]
  refine .wr ?_ (by decide) (.fld .HLM_STATUS_FACET rfl (by decide))
  refine .wr ?_ (by decide) (.fld .HLM_MEAS_ANGLE_THETA rfl (by decide))
  exact hx4
  refine Fr.have x7 ?_ (fun hx7 => ?_) <;> [unfold x7; clear_value x7]
  refine .ite ?_ ?_
  refine .call (State.spindleSample_fr ..) ?_ (by decide)
  exact hx6
  refine .call (State.commutate_fr ..) ?_ (by decide)
  exact hx6
  refine Fr.have x9 ?_ (fun hx9 => ?_) <;> [unfold x9; clear_value x9]
  refine .call (State.hl_fr ..) ?_ (by decide)
  exact hx7
  apply Fr.upd <;> first | show Fr _ _ _ | exact .inl rfl | exact .inr rfl | rfl
  exact hx9

theorem execTraceArm_fr (s : State) :
    Runs 0x1001000000000000000000000000000000000000000000000000000000000000000000000000038000000000000000000000000000000000000020100b s (execTraceArm s) := by
  unfold execTraceArm
  refine .next ?_
  (with_reducible apply State.access_fr) <;> [skip; skip; decide]
  exact .refl ..
  intro x1
  refine .call (State.traceArm_fr ..) ?_ (by decide)
  exact .refl ..

theorem State.postPower_fr (s : State) (e : PowerEntry) :
    Fr 0x1001c0000880000000000000000000001400000080000000000000001fe80c0001040003df78006c60200171c0600006013cf01400f0cb03c31bbff s (State.postPower s e) := by
  unfold State.postPower
  refine .ite ?_ ?_
  refine .call (State.hd_fr ..) ?_ (by decide)
  exact .refl ..
  refine .call (State.tripTimed_fr ..) ?_ (by decide)
  exact .refl ..

theorem State.clampCount_fr (s : State) (code : Nat) : Fr 0x80000000000000000000000000000000000203 s (State.clampCount s code) := by
  unfold State.clampCount
  refine .ite ?_ ?_
  lift_lets -underBinder
  intro x1
  refine Fr.have x1 ?_ (fun hx1 => ?_) <;> [unfold x1; clear_value x1]
  refine .call (State.raiseIf_fr ..) ?_ (by decide)
  refine .bump ?_ (by decide) (.fld .EMI_CNT_CLAMP_COUNT rfl (by decide))
  exact .refl ..
  refine .call (State.em_fr ..) ?_ (by decide)
  exact hx1
  exact .refl ..

theorem State.prepare_fr (s : State) (kind : SlotKind) (index : Nat) :
    Fr 0x1001c0000880000000000000000000001400000080000000000000001fe80c0001040003df78006c68200171c0600006013cf01400f0cb03c31bbff s (State.prepare s kind index) := by
  unfold State.prepare
  lift_lets -underBinder
  intro x1 x2 x3 x4 x5 x6 x7 x8 x9 x10 x11 x12 x13 x14
  refine Fr.have x1 ?_ (fun hx1 => ?_) <;> [unfold x1; clear_value x1]
  refine .call (State.em_fr ..) ?_ (by decide)
  exact .refl ..
  refine Fr.have x8 ?_ (fun hx8 => ?_) <;> [unfold x8; clear_value x8]
  refine .call (State.clampCount_fr ..) ?_ (by decide)
  exact hx1
  refine Fr.have x14 ?_ (fun hx14 => ?_) <;> [unfold x14; clear_value x14]
  refine .call (State.postPower_fr ..) ?_ (by decide)
  refine .call (State.hd_fr ..) ?_ (by decide)
  exact hx8
  refine .call (State.em_fr ..) ?_ (by decide)
  exact hx14

theorem execSlotPrepare_fr (s : State) :
    Runs 0x1001c0000880000000000000000000001400000080000000000000001fe80c0001040003df78006c68200171c0600006013cf01400f0cb03c31bbff s (execSlotPrepare s) := by
  unfold execSlotPrepare
  refine .next ?_
  refine .ite ?_ ?_
  exact .refl ..
  split
  refine .call (State.prepare_fr ..) ?_ (by decide)
  exact .refl ..
  refine .call (State.prepare_fr ..) ?_ (by decide)
  exact .refl ..
  exact .refl ..

theorem State.slotTrigger_fr (s : State) (x : Slot) (t : Nat) :
    Fr 0x3ac000000000000000000000000000000000000000000000000000008007 s (State.slotTrigger s x t) := by
  unfold State.slotTrigger
  refine .ite ?_ ?_
  refine .call (State.capEvent_fr ..) ?_ (by decide)
  exact .refl ..
  exact .refl ..

theorem State.enterSlot_fr (s : State) (x : Slot) :
    Fr 0x100000000000000000000000000000000000000000000000000000000003ac000000000000000000000000000000000058000000000000000208067 s (State.enterSlot s x) := by
  unfold State.enterSlot
  lift_lets -underBinder
  intro x1 x2 x3 x4
  refine Fr.have x3 ?_ (fun hx3 => ?_) <;> [unfold x3; clear_value x3]
  apply Fr.upd <;> first | show Fr _ _ _ | exact .inl rfl | exact .inr rfl | rfl
  exact .refl ..
  refine Fr.have x4 ?_ (fun hx4 => ?_) <;> [unfold x4; clear_value x4]
  refine .call (State.hs_fr ..) ?_ (by decide)
  exact hx3
  refine .call (State.slotTrigger_fr ..) ?_ (by decide)
  refine .call (State.invalidMarkers_fr ..) ?_ (by decide)
  refine .call (State.count_fr ..) ?_ (by decide)
  exact hx4

theorem State.dropStale_fr (s : State) : Fr 0x400000000000000000000000000081 s (State.dropStale s) := by
  unfold State.dropStale
  with_reducible apply Fr.forN
  exact .refl ..
  intro x1 x2
  lift_lets -underBinder
  intro x3
  refine .ite ?_ ?_
  exact .refl ..
  refine .call (State.onTiller_fr ..) ?_ (by decide)
  refine .bump ?_ (by decide) (.arr .TIL_CNT_CAND_STALE_COUNT rfl (by decide))
  exact .refl ..

theorem State.capFallow_fr (s : State) : Fr 0xc000000000000000000000000000000000000000000000000000008001 s (State.capFallow s) := by
  unfold State.capFallow
  split
  refine .ite ?_ ?_
  lift_lets -underBinder
  intro x1 x2
  refine .call (State.capFinishHist_fr ..) ?_ (by decide)
  exact .refl ..
  exact .refl ..
  exact .refl ..

theorem State.clearLive_fr (s : State) : Fr 0x40 s (State.clearLive s) := by
  unfold State.clearLive
  lift_lets -underBinder
  intro x1
  refine .call (State.hs_fr ..) ?_ (by decide)
  exact .refl ..

theorem execFallowSlotOpen_fr (t : Nat) (s : State) :
    Runs 0x100000000000000000000000000000000000000000000000000000000003ac00000000000078608000000000040030005800000000000000020d2e7 s (execFallowSlotOpen t s) := by
  unfold execFallowSlotOpen
  refine .next ?_
  refine .ite ?_ ?_
  exact .refl ..
  lift_lets -underBinder
  intro x1 x2 x3 x4 x5 x6 x7
  refine Fr.have x1 ?_ (fun hx1 => ?_) <;> [unfold x1; skip]
  refine .call (State.dropStale_fr ..) ?_ (by decide)
  refine .call (State.clearLive_fr ..) ?_ (by decide)
  refine .call (State.closeSlot_fr ..) ?_ (by decide)
  refine .call (State.helmNow_fr ..) ?_ (by decide)
  exact .refl ..
  refine Fr.have x3 ?_ (fun hx3 => ?_) <;> [unfold x3; skip]
  refine .call (State.setBank_fr ..) ?_ (by decide)
  exact hx1
  refine Fr.have x4 ?_ (fun hx4 => ?_) <;> [unfold x4; skip]
  refine .call (State.hs_fr ..) ?_ (by decide)
  exact hx3
  refine Fr.have x5 ?_ (fun hx5 => ?_) <;> [unfold x5; skip]
  refine .call (State.em_fr ..) ?_ (by decide)
  exact hx4
  refine Fr.have x7 ?_ (fun hx7 => ?_) <;> [unfold x7; skip]
  apply Fr.upd <;> first | show Fr _ _ _ | exact .inl rfl | exact .inr rfl | rfl
  exact hx5
  refine .call (State.enterSlot_fr ..) ?_ (by decide)
  refine .call (State.capFallow_fr ..) ?_ (by decide)
  exact hx7

theorem execCatchMeasureEnd_fr (s : State) : Runs 0x68000000000000000000000000000000000001001 s (execCatchMeasureEnd s) := by
  unfold execCatchMeasureEnd
  refine .next ?_
  refine .ite ?_ ?_
  exact .refl ..
  lift_lets -underBinder
  intro x1 x2
  refine .ite ?_ ?_
  refine .call (State.setSp_fr ..) ?_ (by decide)
  refine .call (State.handover_fr ..) ?_ (by decide)
  refine .call (State.hl_fr ..) ?_ (by decide)
  exact .refl ..
  refine .ite ?_ ?_
  refine .call (State.handover_fr ..) ?_ (by decide)
  refine .call (State.hl_fr ..) ?_ (by decide)
  exact .refl ..
  refine .call (State.handover_fr ..) ?_ (by decide)
  refine .call (State.spinUp_fr ..) ?_ (by decide)
  exact .refl ..

theorem execLineTestPassEnd_fr (s : State) : Runs 0x202 s (execLineTestPassEnd s) := by
  unfold execLineTestPassEnd
  refine .next ?_
  refine .ite ?_ ?_
  lift_lets -underBinder
  intro x1 x2
  refine Fr.have x1 ?_ (fun hx1 => ?_) <;> [unfold x1; clear_value x1]
  refine .call (State.raise_fr ..) ?_ (by decide)
  exact .refl ..
  apply Fr.upd <;> first | show Fr _ _ _ | exact .inl rfl | exact .inr rfl | rfl
  exact hx1
  exact .refl ..

theorem execHedgeChannelMismatch_fr (s : State) :
    Runs 0x1001c0000880000000000000000000001400000080000000000000001fe80c0001040003df78006c60200171c0600006013cf01400f0cb03c31bbff s (execHedgeChannelMismatch s) := by
  unfold execHedgeChannelMismatch
  refine .next ?_
  refine .call (State.tripTimed_fr ..) ?_ (by decide)
  exact .refl ..

theorem execChargeCheck_fr (fb : Fin 4096) (s : State) :
    Runs 0x1001c0000880000000000000000000001400000080000000000000001fe80c0001040003df78006c61b00171c0600006013cf01400f0cb03c31bbff s (execChargeCheck fb s) := by
  unfold execChargeCheck
  refine .next ?_
  refine .ite ?_ ?_
  exact .refl ..
  lift_lets -underBinder
  intro x1 x2 x3 x4 x5
  refine Fr.have x1 ?_ (fun hx1 => ?_) <;> [unfold x1; clear_value x1]
  refine .wr ?_ (by decide) (.fld .EMI_CHG_STATUS_FB_MEAS rfl (by decide))
  exact .refl ..
  refine Fr.have x3 ?_ (fun hx3 => ?_) <;> [unfold x3; clear_value x3]
  refine .call (State.raiseIf_fr ..) ?_ (by decide)
  refine .call (State.count_fr ..) ?_ (by decide)
  refine .bump ?_ (by decide) (.fld .EMI_CNT_SUPPRESS_COUNT rfl (by decide))
  exact hx1
  refine Fr.have x4 ?_ (fun hx4 => ?_) <;> [unfold x4; clear_value x4]
  refine .ite ?_ ?_
  refine .call (State.em_fr ..) ?_ (by decide)
  exact hx3
  refine .call (State.hs_fr ..) ?_ (by decide)
  exact hx3
  refine Fr.have x5 ?_ (fun hx5 => ?_) <;> [unfold x5; clear_value x5]
  refine .call (State.em_fr ..) ?_ (by decide)
  exact hx4
  refine .ite ?_ ?_
  refine .call (State.postPower_fr ..) ?_ (by decide)
  exact hx5
  refine .ite ?_ ?_
  refine .call (State.em_fr ..) ?_ (by decide)
  refine .call (State.raiseIf_fr ..) ?_ (by decide)
  refine .bump ?_ (by decide) (.fld .EMI_CNT_UNDER_COUNT rfl (by decide))
  exact hx1
  exact hx1

theorem execLimitRecheck_fr (upset : Bool) (s : State) :
    Runs 0x1001c0000880000000000000000000001400000080000000000000001fe80c00010437f3df78006c60200171c0600006013cf01400f0cb03c31bbff s (execLimitRecheck upset s) := by
  unfold execLimitRecheck
  refine .next ?_
  refine .ite ?_ ?_
  refine .call (State.trip_fr ..) ?_ (by decide)
  refine .call (State.showLimits_fr ..) ?_ (by decide)
  refine .call (State.hd_fr ..) ?_ (by decide)
  exact .refl ..
  exact .refl ..

theorem execPowerCodeEntry_fr (s : State) :
    Runs 0x1001c0000880000000000000000000001400000080000000000000001fe80c0001060003df78006c60200171c0600006013cf01400f0cb03c31bbff s (execPowerCodeEntry s) := by
  unfold execPowerCodeEntry
  refine .next ?_
  split
  lift_lets -underBinder
  intro x1 x2 x3 x4 x5
  refine Fr.have x2 ?_ (fun hx2 => ?_) <;> [unfold x2; clear_value x2]
  refine .call (State.hd_fr ..) ?_ (by decide)
  exact .refl ..
  refine Fr.have x4 ?_ (fun hx4 => ?_) <;> [unfold x4; clear_value x4]
  refine .ite ?_ ?_
  refine .wr ?_ (by decide) (.fld .HDG_ENERGY_MAX_SUM rfl (by decide))
  exact hx2
  exact hx2
  refine .ite ?_ ?_
  refine .call (State.trip_fr ..) ?_ (by decide)
  exact hx4
  refine .call (State.hedgeShow_fr ..) ?_ (by decide)
  exact hx4
  exact .refl ..

theorem execSnap_fr (t : Nat) (s : State) :
    Runs 0x12a0000000000000000000000000000000000000000000000000000000000000000000000000000000000000000000000000000000000000020000b s (execSnap t s) := by
  unfold execSnap
  refine .next ?_
  (with_reducible apply State.access_fr) <;> [skip; skip; decide]
  exact .refl ..
  intro x1
  refine .call (State.snapRequest_fr ..) ?_ (by decide)
  exact .refl ..

theorem execClearAll_fr (s : State) :
    Runs 0x4001000000000000000000000000000000000000000000000000000000000000000000000000000000000000000000000000000000000000000020000b s (execClearAll s) := by
  unfold execClearAll
  refine .next ?_
  (with_reducible apply State.access_fr) <;> [skip; skip; decide]
  exact .refl ..
  intro x1
  refine .call (State.clearCounters_fr ..) ?_ (by decide)
  exact .refl ..

theorem execTraceForce_fr (s : State) :
    Runs 0x1000000000000000000000000000000000000000000000000000000000000000000000000000000000000000000000000000000000000000020100b s (execTraceForce s) := by
  unfold execTraceForce
  refine .next ?_
  (with_reducible apply State.access_fr) <;> [skip; skip; decide]
  exact .refl ..
  intro x1
  refine .call (State.traceTrigger_fr ..) ?_ (by decide)
  exact .refl ..

theorem execSafeRstHighRegistered_fr (t : Nat) (s : State) :
    Runs 0x1000000000000000000000000000000000000000002001 s (execSafeRstHighRegistered t s) := by
  unfold execSafeRstHighRegistered
  refine .next ?_
  refine .ite ?_ ?_
  exact .refl ..
  lift_lets -underBinder
  intro x1 x2
  refine Fr.have x2 ?_ (fun hx2 => ?_) <;> [unfold x2; clear_value x2]
  refine .call (State.hd_fr ..) ?_ (by decide)
  exact .refl ..
  split
  refine .ite ?_ ?_
  refine .call (State.hd_fr ..) ?_ (by decide)
  refine .wr ?_ (by decide) (.fld .HDG_STATUS_RST_PHASE rfl (by decide))
  exact hx2
  refine .wr ?_ (by decide) (.fld .HDG_STATUS_RST_PHASE rfl (by decide))
  exact hx2
  refine .wr ?_ (by decide) (.fld .HDG_STATUS_RST_PHASE rfl (by decide))
  exact hx2
  exact hx2

theorem execCounterConfigWrite_fr (k : Fin 1024) (w : Word) (s : State) :
    Runs 0x81000000000000000000000000000000000000000000000000000000000000000000000000000000000000000000000000000000000000000020000b s (execCounterConfigWrite k w s) := by
  unfold execCounterConfigWrite
  refine .next ?_
  (with_reducible apply State.access_fr) <;> [skip; skip; decide]
  exact .refl ..
  intro x1
  refine .call (State.counterConfig_fr ..) ?_ (by decide)
  exact .refl ..

theorem execSafeRstLowRegistered_fr (t : Nat) (s : State) :
    Runs 0x1000000000000000000000000000000000000000002001 s (execSafeRstLowRegistered t s) := by
  unfold execSafeRstLowRegistered
  refine .next ?_
  refine .ite ?_ ?_
  exact .refl ..
  lift_lets -underBinder
  intro x1 x2
  refine Fr.have x1 ?_ (fun hx1 => ?_) <;> [unfold x1; clear_value x1]
  refine .call (State.hd_fr ..) ?_ (by decide)
  exact .refl ..
  refine .ite ?_ ?_
  refine .call (State.hd_fr ..) ?_ (by decide)
  refine .wr ?_ (by decide) (.fld .HDG_STATUS_RST_PHASE rfl (by decide))
  exact hx1
  exact hx1

theorem execStandstill_fr (s : State) : Runs 0x6c000000000000000000000000000040000001003 s (execStandstill s) := by
  unfold execStandstill
  refine .next ?_
  refine .ite ?_ ?_
  exact .refl ..
  refine .ite ?_ ?_
  refine .call (State.spinUp_fr ..) ?_ (by decide)
  refine .call (State.releaseSp_fr ..) ?_ (by decide)
  exact .refl ..
  lift_lets -underBinder
  intro x1 x2
  refine Fr.have x2 ?_ (fun hx2 => ?_) <;> [unfold x2; clear_value x2]
  refine .call (State.raise_fr ..) ?_ (by decide)
  refine .call (State.brakeEnd_fr ..) ?_ (by decide)
  exact .refl ..
  refine .ite ?_ ?_
  refine .call (State.spinUp_fr ..) ?_ (by decide)
  exact hx2
  exact hx2

theorem State.refEmit_fr (s : State) (n : Nat) (b : List Byte) :
    Fr 0x10000000000000000000000000000000000000000000000000000000000000000000000000000000000000000920000000000000000000000200083 s (State.refEmit s n b) := by
  unfold State.refEmit
  lift_lets -underBinder
  intro x1
  refine Fr.have x1 ?_ (fun hx1 => ?_) <;> [unfold x1; clear_value x1]
  refine .call (State.onTiller_fr ..) ?_ (by decide)
  exact .refl ..
  refine .call (State.refIssueEmit_fr ..) ?_ (by decide)
  exact hx1

theorem State.refDepths_fr (s : State) (n : Nat) (t : Nat) : Fr 0x84 s (State.refDepths s n t) := by
  unfold State.refDepths
  with_reducible apply Fr.forN
  exact .refl ..
  intro x1 x2
  lift_lets -underBinder
  intro x3
  refine .ite ?_ ?_
  exact .refl ..
  split
  refine .ite ?_ ?_
  refine .call (State.setRefLane_fr ..) ?_ (by decide)
  with_reducible refine Fr.pair (by assumption) ?_
  refine .call (State.refSend_fr ..) ?_ (by decide)
  exact .refl ..
  with_reducible refine Fr.pair (by assumption) ?_
  refine .call (State.refSend_fr ..) ?_ (by decide)
  exact .refl ..

theorem State.refHeader_fr (s : State) (n : Nat) (l : Nat) : Fr 0x18203000000000000000000000000c3 s (State.refHeader s n l).2 := by
  unfold State.refHeader
  with_reducible apply Fr.foldl2
  dsimp +zetaDelta -zeta only
  exact .refl ..
  intro x1 x2
  split
  dsimp +zetaDelta -zeta only
  with_reducible refine Fr.pair3 (by assumption) ?_
  refine .call (State.refLoad_fr ..) ?_ (by decide)
  exact .refl ..

theorem State.refProcess_fr (s : State) (n : Nat) (b : Nat) (l : Nat) (t : Nat) (tNow : Int) :
    Fr 0x18203000000000000000000000000c3 s (State.refProcess s n b l t tNow).2 := by
  unfold State.refProcess
  lift_lets -underBinder
  intro x1
  split
  split
  split
  lift_lets -underBinder
  intro x2
  split
  lift_lets -underBinder
  intro x3 x4 x5 x6
  split
  lift_lets -underBinder
  intro x7 x8 x9 x10 x11 x12 x13
  dsimp +zetaDelta -zeta only
  refine .call (State.setRefLane_fr ..) ?_ (by decide)
  with_reducible refine Fr.pair (by assumption) ?_
  refine .call (State.refHeader_fr ..) ?_ (by decide)
  with_reducible refine Fr.pair3 (by assumption) ?_
  refine .call (State.refLoad_fr ..) ?_ (by decide)
  with_reducible refine Fr.pair3 (by assumption) ?_
  refine .call (State.refLoad_fr ..) ?_ (by decide)
  with_reducible refine Fr.pair3 (by assumption) ?_
  refine .call (State.refLoad_fr ..) ?_ (by decide)
  exact .refl ..

theorem State.refBank_fr (s : State) (n : Nat) (b : Nat) (m : Nat) (t : Nat) :
    Fr 0x100000000000000000000000000000000000000000000000000000000000000000000000000000000000000019203000000000000000000002000c7 s (State.refBank s n b m t) := by
  unfold State.refBank
  split
  lift_lets -underBinder
  intro x1 x2
  refine Fr.have x2 ?_ (fun hx2 => ?_) <;> [unfold x2; clear_value x2]
  refine .call (State.refDepths_fr ..) ?_ (by decide)
  with_reducible refine Fr.pair3 (by assumption) ?_
  refine .call (State.refLoad_fr ..) ?_ (by decide)
  exact .refl ..
  split
  lift_lets -underBinder
  intro x3 x4 x5
  refine Fr.have x3 ?_ (fun hx3 => ?_) <;> [unfold x3; clear_value x3]
  refine .call (State.refDepths_fr ..) ?_ (by decide)
  with_reducible refine Fr.pair (by assumption) ?_
  with_reducible apply Fr.foldl2
  dsimp +zetaDelta -zeta only
  exact hx2
  intro x6 x7
  split
  dsimp +zetaDelta -zeta only
  with_reducible refine Fr.pair (by assumption) ?_
  refine .call (State.refProcess_fr ..) ?_ (by decide)
  exact .refl ..
  refine Fr.have x5 ?_ (fun hx5 => ?_) <;> [unfold x5; clear_value x5]
  refine .call (State.onTiller_fr ..) ?_ (by decide)
  exact hx3
  split
  refine .call (State.refEmit_fr ..) ?_ (by decide)
  refine .call (State.refScratch_fr ..) ?_ (by decide)
  with_reducible refine Fr.pair3 (by assumption) ?_
  refine .call (State.refLoad_fr ..) ?_ (by decide)
  exact hx5

theorem State.refRelease_fr (s : State) (n : Nat) : Fr 0x18203000000000000000000000000c3 s (State.refRelease s n) := by
  unfold State.refRelease
  split
  lift_lets -underBinder
  intro x1 x2
  refine Fr.have x2 ?_ (fun hx2 => ?_) <;> [unfold x2; clear_value x2]
  with_reducible apply Fr.forN
  with_reducible refine Fr.pair3 (by assumption) ?_
  refine .call (State.refLoad_fr ..) ?_ (by decide)
  exact .refl ..
  intro x3 x4
  lift_lets -underBinder
  intro x5 x6 x7
  refine .call (State.setRefLane_fr ..) ?_ (by decide)
  exact .refl ..
  refine .ite ?_ ?_
  exact hx2
  refine .call (State.onTiller_fr ..) ?_ (by decide)
  exact hx2

theorem State.refAdopt_fr (s : State) (n : Nat) :
    Fr 0x100000000800000000000000000000001400000080000000000000001fe80000010000000000000000200010182030000120000000f00b03c3108fb s (State.refAdopt s n) := by
  unfold State.refAdopt
  split
  lift_lets -underBinder
  intro x1
  refine .ite ?_ ?_
  refine .call (State.onTiller_fr ..) ?_ (by decide)
  with_reducible refine Fr.pair3 (by assumption) ?_
  refine .call (State.refLoad_fr ..) ?_ (by decide)
  exact .refl ..
  split
  refine .ite ?_ ?_
  refine .call (State.onTiller_fr ..) ?_ (by decide)
  with_reducible refine Fr.pair3 (by assumption) ?_
  refine .call (State.refLoad_fr ..) ?_ (by decide)
  with_reducible refine Fr.pair3 (by assumption) ?_
  refine .call (State.refLoad_fr ..) ?_ (by decide)
  exact .refl ..
  lift_lets -underBinder
  intro x2 x3
  refine Fr.have x3 ?_ (fun hx3 => ?_) <;> [unfold x3; clear_value x3]
  refine .call (State.trap_fr ..) ?_ (by decide)
  refine .call (State.countTil_fr ..) ?_ (by decide)
  refine .call (State.onTiller_fr ..) ?_ (by decide)
  with_reducible refine Fr.pair3 (by assumption) ?_
  refine .call (State.refLoad_fr ..) ?_ (by decide)
  with_reducible refine Fr.pair3 (by assumption) ?_
  refine .call (State.refLoad_fr ..) ?_ (by decide)
  exact .refl ..
  refine .ite ?_ ?_
  refine .call (State.onTiller_fr ..) ?_ (by decide)
  exact hx3
  exact hx3

theorem execProgramBankProcess_fr (n : Fin 192) (t : Nat) (s : State) :
    Runs 0x100000000800000000000000000000001400000080000000000000001fe80000010000000000000000200010192030000120000000f00b03c3108ff s (execProgramBankProcess n t s) := by
  unfold execProgramBankProcess
  refine .next ?_
  lift_lets -underBinder
  intro x1 x2
  refine Fr.have x2 ?_ (fun hx2 => ?_) <;> [unfold x2; clear_value x2]
  refine .call (State.refAnswers_fr ..) ?_ (by decide)
  exact .refl ..
  refine .ite ?_ ?_
  exact .refl ..
  split
  exact hx2
  refine .ite ?_ ?_
  exact hx2
  lift_lets -underBinder
  intro x3
  refine Fr.have x3 ?_ (fun hx3 => ?_) <;> [unfold x3; clear_value x3]
  refine .call (State.refRelease_fr ..) ?_ (by decide)
  refine .call (State.refAdopt_fr ..) ?_ (by decide)
  refine .call (State.onTiller_fr ..) ?_ (by decide)
  exact hx2
  refine .ite ?_ ?_
  exact hx3
  split
  refine .ite ?_ ?_
  exact hx3
  refine .call (State.refBank_fr ..) ?_ (by decide)
  exact hx3
  exact hx3

theorem execEmitterDisable_fr (s : State) :
    Runs 0x1000000000000000000000000000000000000000000000000000000000000000000000000000000000200140400000000000000000008000020020b s (execEmitterDisable s) := by
  unfold execEmitterDisable
  refine .next ?_
  (with_reducible apply State.access_fr) <;> [skip; skip; decide]
  exact .refl ..
  intro x1
  refine .call (State.emiDisable_fr ..) ?_ (by decide)
  exact .refl ..

theorem execCounterLiveRead_fr (k : Fin 1024) (s : State) :
    Runs 0x101000000000000000000000000000000000000000000000000000000000000000000000000000000000000000000000000000000000000000020000b s (execCounterLiveRead k s) := by
  unfold execCounterLiveRead
  refine .next ?_
  (with_reducible apply State.access_fr) <;> [skip; skip; decide]
  exact .refl ..
  intro x1
  refine .call (State.counterLive_fr ..) ?_ (by decide)
  exact .refl ..

theorem execTiltSense_fr (s : State) : Runs 0x140000000000000000000000000000000000001003 s (execTiltSense s) := by
  unfold execTiltSense
  refine .next ?_
  refine .ite ?_ ?_
  exact .refl ..
  refine .call (State.helmCause_fr ..) ?_ (by decide)
  refine .call (State.setTl_fr ..) ?_ (by decide)
  exact .refl ..

theorem execCorrectionEntry_fr (s : State) : Runs 0x202000000000000000000000000000000000000000002001 s (execCorrectionEntry s) := by
  unfold execCorrectionEntry
  refine .next ?_
  split
  refine .call (State.hedgeShow_fr ..) ?_ (by decide)
  refine .call (State.hd_fr ..) ?_ (by decide)
  exact .refl ..
  exact .refl ..

theorem execHedgeTiltConversion_fr (code : Fin 1024) (s : State) :
    Runs 0x1001c0000880000000000000000000001400000080000000000000001fe80c00010c8003df78006c60200171c0600006013cf01400f0cb03c31bbff s (execHedgeTiltConversion code s) := by
  unfold execHedgeTiltConversion
  refine .next ?_
  lift_lets -underBinder
  intro x1 x2 x3 x4
  refine Fr.have x1 ?_ (fun hx1 => ?_) <;> [unfold x1; clear_value x1]
  refine .wr ?_ (by decide) (.fld .HDG_MEAS_TILT_CODE rfl (by decide))
  exact .refl ..
  refine Fr.have x3 ?_ (fun hx3 => ?_) <;> [unfold x3; clear_value x3]
  refine .call (State.hd_fr ..) ?_ (by decide)
  exact hx1
  refine Fr.have x4 ?_ (fun hx4 => ?_) <;> [unfold x4; clear_value x4]
  refine .call (State.hd_fr ..) ?_ (by decide)
  exact hx3
  refine .ite ?_ ?_
  refine .call (State.trip_fr ..) ?_ (by decide)
  exact hx3
  refine .ite ?_ ?_
  refine .call (State.emiSettle_fr ..) ?_ (by decide)
  refine .call (State.raise_fr ..) ?_ (by decide)
  refine .bump ?_ (by decide) (.fld .HDG_CNT_BLANK_COUNT rfl (by decide))
  refine .call (State.hd_fr ..) ?_ (by decide)
  refine .call (State.setGst_fr ..) ?_ (by decide)
  exact hx3
  refine .ite ?_ ?_
  refine .ite ?_ ?_
  refine .call (State.emiSettle_fr ..) ?_ (by decide)
  refine .call (State.setGst_fr ..) ?_ (by decide)
  exact hx4
  exact hx4
  exact hx3

theorem execSeedMapWrite_fr (b : Fin 2) (e : Fin 8192) (hi : Bool) (w : Word) (s : State) :
    Runs 0x100001000000000000000000000000000000000000000000000000000000000000000000000000000000000200000000000000000000000000000020000b s (execSeedMapWrite b e hi w s) := by
  unfold execSeedMapWrite
  refine .next ?_
  (with_reducible apply State.access_fr) <;> [skip; skip; decide]
  exact .refl ..
  intro x1
  refine .call (State.seedWrite_fr ..) ?_ (by decide)
  exact .refl ..

theorem execShortTest_fr (s : State) :
    Runs 0x1000000000000000000000000000000000000000000000000000000000000000000000000000000000000000000000000000000000000000020020b s (execShortTest s) := by
  unfold execShortTest
  refine .next ?_
  (with_reducible apply State.access_fr) <;> [skip; skip; decide]
  exact .refl ..
  intro x1
  refine .call (State.shortTest_fr ..) ?_ (by decide)
  exact .refl ..

theorem State.logRaise_fr (s : State) (e : Nat) (w : Word) (t : Nat) :
    Fr 0x100000000000000000000000000000000000000000000000000000000000000000000000000000000000000000000000000000000000000300003 s (State.logRaise s e w t) := by
  unfold State.logRaise
  lift_lets -underBinder
  intro x1 x2 x3 x4
  refine Fr.have x4 ?_ (fun hx4 => ?_) <;> [unfold x4; clear_value x4]
  apply Fr.upd <;> first | show Fr _ _ _ | exact .inl rfl | exact .inr rfl | rfl
  exact .refl ..
  refine .ite ?_ ?_
  refine .call (State.logEntry_fr ..) ?_ (by decide)
  exact hx4
  exact hx4

theorem State.deliverRaise_fr (s : State) (e : Nat) (w : Word) (t : Nat) :
    Fr 0x200101000000000000000000000000000000000000000000000000000000003ac000000000000000000000000000000000000000000040000000308807 s (State.deliverRaise s e w t) := by
  unfold State.deliverRaise
  lift_lets -underBinder
  intro x1 x2 x3 x4 x5
  refine Fr.have x3 ?_ (fun hx3 => ?_) <;> [unfold x3; clear_value x3]
  (with_reducible apply State.risingMsix_fr) <;> [skip; skip; decide]
  exact .refl ..
  intro x6
  refine .wr ?_ (by decide) (.arr .EVT_PEND_PEND rfl (by decide))
  exact .refl ..
  refine Fr.have x4 ?_ (fun hx4 => ?_) <;> [unfold x4; clear_value x4]
  refine .call (State.logRaise_fr ..) ?_ (by decide)
  exact hx3
  refine Fr.have x5 ?_ (fun hx5 => ?_) <;> [unfold x5; clear_value x5]
  refine .ite ?_ ?_
  refine .call (State.traceForm_fr ..) ?_ (by decide)
  exact hx4
  exact hx4
  refine .ite ?_ ?_
  refine .call (State.capEvent_fr ..) ?_ (by decide)
  exact hx5
  exact hx5

theorem execEventRaise_fr (t : Nat) (s : State) :
    Runs 0x200101000000000000000000000000000000000000000000000000000000003ac000000000000000000000000000000000000000000040000000308807 s (execEventRaise t s) := by
  unfold execEventRaise
  refine .next ?_
  split
  exact .refl ..
  refine .call (State.deliverRaise_fr ..) ?_ (by decide)
  apply Fr.upd <;> first | show Fr _ _ _ | exact .inl rfl | exact .inr rfl | rfl
  exact .refl ..

theorem execSpeedRefWrite_fr (w : Word) (s : State) :
    Runs 0x1000000000000000000000000000000000000000000000000000000000000000000000000000026800000000000000000000000000000000020100b s (execSpeedRefWrite w s) := by
  unfold execSpeedRefWrite
  refine .next ?_
  (with_reducible apply State.access_fr) <;> [skip; skip; decide]
  exact .refl ..
  intro x1
  refine .call (State.speedRef_fr ..) ?_ (by decide)
  exact .refl ..

theorem execCaptureForce_fr (t : Nat) (s : State) :
    Runs 0x100000000000000000000000000000000000000000000000000000000003ac00000000000000000000000000000000000000000000000000020800f s (execCaptureForce t s) := by
  unfold execCaptureForce
  refine .next ?_
  (with_reducible apply State.access_fr) <;> [skip; skip; decide]
  exact .refl ..
  intro x1
  refine .call (State.capEvent_fr ..) ?_ (by decide)
  exact .refl ..

theorem execLawCommit_fr (s : State) :
    Runs 0x1000000000000000000000000000000000000000000000000000000000000000000000000000001000000000000000000000000000000000020000b s (execLawCommit s) := by
  unfold execLawCommit
  refine .next ?_
  (with_reducible apply State.access_fr) <;> [skip; skip; decide]
  exact .refl ..
  intro x1
  refine .wr ?_ (by decide) (.fld .HLM_STATUS_COMMIT_PENDING rfl (by decide))
  exact .refl ..

theorem State.rzCollect_fr (s : State) (b : Nat) : Fr 0x40000 s (State.rzCollect s b) := by
  unfold State.rzCollect
  refine .ite ?_ ?_
  exact .refl ..
  lift_lets -underBinder
  intro x1 x2 x3 x4
  apply Fr.upd <;> first | show Fr _ _ _ | exact .inl rfl | exact .inr rfl | rfl
  exact .refl ..

theorem execBankFreeze_fr (s : State) : Runs 0xc0000000000000000000000000000000000000000000000000000480c1 s (execBankFreeze s) := by
  unfold execBankFreeze
  refine .next ?_
  split
  exact .refl ..
  lift_lets -underBinder
  intro x1
  refine Fr.have x1 ?_ (fun hx1 => ?_) <;> [unfold x1; clear_value x1]
  refine .call (State.hs_fr ..) ?_ (by decide)
  exact .refl ..
  refine .call (State.rzCollect_fr ..) ?_ (by decide)
  refine .call (State.capFreeze_fr ..) ?_ (by decide)
  refine .call (State.postReady_fr ..) ?_ (by decide)
  exact hx1

theorem execBankClearComplete_fr (s : State) : Runs 0x40 s (execBankClearComplete s) := by
  unfold execBankClearComplete
  refine .next ?_
  refine .ite ?_ ?_
  lift_lets -underBinder
  intro x1 x2
  refine .call (State.setBank_fr ..) ?_ (by decide)
  exact .refl ..
  exact .refl ..

theorem execHedgeRelease_fr (s : State) : Runs 0x252000000002001000000000000000000000000000002203 s (execHedgeRelease s) := by
  unfold execHedgeRelease
  refine .next ?_
  refine .ite ?_ ?_
  refine .call (State.emiSettle_fr ..) ?_ (by decide)
  refine .call (State.raise_fr ..) ?_ (by decide)
  refine .call (State.hd_fr ..) ?_ (by decide)
  refine .call (State.setGst_fr ..) ?_ (by decide)
  exact .refl ..
  exact .refl ..

theorem execWindowWrite_fr (n : Fin 192) (s : State) :
    Runs 0x100000000000000000000000000000000000000000000000000000000000000000000000000000000000000002214000000000000000000002000c3 s (execWindowWrite n s) := by
  unfold execWindowWrite
  refine .next ?_
  split
  exact .refl ..
  lift_lets -underBinder
  intro x1 x2 x3 x4 x5 x6 x7 x8 x9 x10
  refine Fr.have x2 ?_ (fun hx2 => ?_) <;> [unfold x2; clear_value x2]
  refine .call (State.popWrite_fr ..) ?_ (by decide)
  exact .refl ..
  refine .ite ?_ ?_
  exact .refl ..
  refine .ite ?_ ?_
  exact hx2
  refine .ite ?_ ?_
  refine .call (State.rejectWrite_fr ..) ?_ (by decide)
  exact hx2
  refine .ite ?_ ?_
  exact hx2
  refine .ite ?_ ?_
  refine .call (State.markLate_fr ..) ?_ (by decide)
  exact hx2
  refine .call (State.hs_fr ..) ?_ (by decide)
  exact hx2

theorem execEventForce_fr (e : Fin 512) (s : State) :
    Runs 0x1000000000000000000000000000000000000000000000000000000000000000000000000000000000000000000000000000000000000000020000b s (execEventForce e s) := by
  unfold execEventForce
  refine .next ?_
  (with_reducible apply State.access_fr) <;> [skip; skip; decide]
  exact .refl ..
  intro x1
  refine .call (State.forceEvent_fr ..) ?_ (by decide)
  exact .refl ..

theorem execPendingClear_fr (i : Fin 16) (w : Word) (s : State) :
    Runs 0x2001000000000000000000000000000000000000000000000000000000000000000000000000000000000000000000000000000000002000000020080b s (execPendingClear i w s) := by
  unfold execPendingClear
  refine .next ?_
  (with_reducible apply State.access_fr) <;> [skip; skip; decide]
  exact .refl ..
  intro x1
  refine .call (State.pendClear_fr ..) ?_ (by decide)
  exact .refl ..

theorem execPreciseSample_fr (n : Fin 192) (pc : BitVec 15) (word : Word) (wait : Nat) (lat : Nat) (cycle : Word) (s : State) :
    Runs 0x20000000000000000000000000000000000000000000000000000000000000000000000000000000000000000000000000000000000000000200085 s (execPreciseSample n pc word wait lat cycle s) := by
  unfold execPreciseSample
  refine .next ?_
  lift_lets -underBinder
  intro x1
  refine .ite ?_ ?_
  exact .refl ..
  split
  lift_lets -underBinder
  intro x2 x3
  refine Fr.have x2 ?_ (fun hx2 => ?_) <;> [unfold x2; clear_value x2]
  refine .call (State.onTiller_fr ..) ?_ (by decide)
  with_reducible refine Fr.pair (by assumption) ?_
  refine .call (State.sampleReload_fr ..) ?_ (by decide)
  exact .refl ..
  refine .ite ?_ ?_
  exact hx2
  refine .ite ?_ ?_
  refine .bump ?_ (by decide) (.fld .OBS_SMP_DROP_COUNT rfl (by decide))
  exact hx2
  refine .call (State.traceForm_fr ..) ?_ (by decide)
  exact hx2

theorem execHandoverEnd_fr (s : State) : Runs 0x8000000000000000000000000000000000000001 s (execHandoverEnd s) := by
  unfold execHandoverEnd
  refine .next ?_
  refine .ite ?_ ?_
  refine .wr ?_ (by decide) (.fld .HLM_STATUS_HO_ACTIVE rfl (by decide))
  exact .refl ..
  exact .refl ..

theorem execLbFlapRelease_fr (s : State) :
    Runs 0x1000000000000000000000000000000000000000000000000000000000000000000000000000000000000004000000000000000000000000020020b s (execLbFlapRelease s) := by
  unfold execLbFlapRelease
  refine .next ?_
  (with_reducible apply State.access_fr) <;> [skip; skip; decide]
  exact .refl ..
  intro x1
  refine .call (State.lbFlapRelease_fr ..) ?_ (by decide)
  exact .refl ..

theorem execHarrowDeadline_fr (s : State) : Runs 0x40 s (execHarrowDeadline s) := by
  unfold execHarrowDeadline
  refine .next ?_
  refine .ite ?_ ?_
  refine .call (State.hs_fr ..) ?_ (by decide)
  exact .refl ..
  exact .refl ..

theorem State.takeWindows_fr (s : State) : Fr 0x40 s (State.takeWindows s) := by
  unfold State.takeWindows
  refine .call (State.mapLanes_fr ..) ?_ (by decide)
  exact .refl ..

theorem State.freshWindows_fr (s : State) : Fr 0x40 s (State.freshWindows s) := by
  unfold State.freshWindows
  lift_lets -underBinder
  intro x1
  refine .call (State.setBank_fr ..) ?_ (by decide)
  exact .refl ..

theorem execShotSlotOpen_fr (t : Nat) (s : State) :
    Runs 0x100000000000000000000000000000000000000000000000000000000003ac000000000000000000000000020000300058000000000000000208267 s (execShotSlotOpen t s) := by
  unfold execShotSlotOpen
  refine .next ?_
  split
  exact .refl ..
  refine .ite ?_ ?_
  exact .refl ..
  lift_lets -underBinder
  intro x1 x2 x3 x4 x5 x6 x7
  refine Fr.have x1 ?_ (fun hx1 => ?_) <;> [unfold x1; clear_value x1]
  refine .call (State.closeSlot_fr ..) ?_ (by decide)
  exact .refl ..
  refine Fr.have x2 ?_ (fun hx2 => ?_) <;> [unfold x2; clear_value x2]
  refine .ite ?_ ?_
  refine .call (State.hs_fr ..) ?_ (by decide)
  exact hx1
  exact hx1
  refine Fr.have x3 ?_ (fun hx3 => ?_) <;> [unfold x3; clear_value x3]
  refine .ite ?_ ?_
  refine .call (State.freshWindows_fr ..) ?_ (by decide)
  refine .call (State.takeWindows_fr ..) ?_ (by decide)
  exact hx2
  exact hx2
  refine Fr.have x5 ?_ (fun hx5 => ?_) <;> [unfold x5; clear_value x5]
  refine .ite ?_ ?_
  refine .call (State.setBank_fr ..) ?_ (by decide)
  exact hx3
  exact hx3
  refine Fr.have x7 ?_ (fun hx7 => ?_) <;> [unfold x7; clear_value x7]
  refine .wr ?_ (by decide) (.fld .EMI_STATUS_PTR rfl (by decide))
  exact hx5
  split
  lift_lets -underBinder
  intro x8 x9 x10
  refine Fr.have x10 ?_ (fun hx10 => ?_) <;> [unfold x10; clear_value x10]
  refine .call (State.em_fr ..) ?_ (by decide)
  exact hx7
  refine .call (State.enterSlot_fr ..) ?_ (by decide)
  exact hx10

theorem execEmitterEnable_fr (s : State) :
    Runs 0x1000000000000000000000000000000000000000000000000000000000000000000000000000000000200140400000000000000000008000020020b s (execEmitterEnable s) := by
  unfold execEmitterEnable
  refine .next ?_
  (with_reducible apply State.access_fr) <;> [skip; skip; decide]
  exact .refl ..
  intro x1
  refine .call (State.emiEnable_fr ..) ?_ (by decide)
  exact .refl ..

end Sys2Proof.Machine
end

