-- ==== Sys2Proof/Laws/FrameRead.lean ====
section
/-! SUPPORT. Reading a field through a frame: a field that none of a mask's areas touches reads the same before and after. -/

namespace Sys2Proof.Machine

/-- The bounds of an area: addresses from the first to below the second, bits from the third to the fourth. -/
def Written.bounds : List (Nat × Nat × Nat × Nat) := [
  (0x10, 0x14, 15, 15),
  (0x10, 0x14, 14, 14),
  (0x10, 0x14, 13, 13),
  (0x10, 0x14, 8, 12),
  (0x10, 0x14, 4, 7),
  (0x10, 0x14, 0, 3),
  (0x20, 0x24, 0, 1),
  (0x24, 0x28, 4, 4),
  (0x24, 0x28, 3, 3),
  (0x24, 0x28, 2, 2),
  (0x24, 0x28, 1, 1),
  (0x24, 0x28, 0, 0),
  (0x30, 0x34, 7, 7),
  (0x30, 0x34, 6, 6),
  (0x30, 0x34, 5, 5),
  (0x30, 0x34, 4, 4),
  (0x30, 0x34, 3, 3),
  (0x30, 0x34, 2, 2),
  (0x30, 0x34, 1, 1),
  (0x30, 0x34, 0, 0),
  (0x100, 0x104, 16, 23),
  (0x100, 0x104, 8, 15),
  (0x100, 0x104, 0, 7),
  (0x104, 0x108, 0, 31),
  (0x108, 0x10c, 16, 23),
  (0x108, 0x10c, 12, 15),
  (0x108, 0x10c, 8, 11),
  (0x108, 0x10c, 0, 7),
  (0x10c, 0x110, 0, 31),
  (0x10800, 0x10840, 0, 31),
  (0x10800, 0x10840, 0, 31),
  (0x100000, 0x100004, 0, 0),
  (0x100004, 0x100008, 7, 7),
  (0x100004, 0x100008, 6, 6),
  (0x100004, 0x100008, 5, 5),
  (0x100004, 0x100008, 4, 4),
  (0x100004, 0x100008, 3, 3),
  (0x100004, 0x100008, 2, 2),
  (0x100004, 0x100008, 1, 1),
  (0x100004, 0x100008, 0, 0),
  (0x100008, 0x10000c, 0, 10),
  (0x10002c, 0x100030, 16, 27),
  (0x10002c, 0x100030, 0, 15),
  (0x100030, 0x100034, 16, 31),
  (0x100030, 0x100034, 0, 15),
  (0x100040, 0x100044, 16, 26),
  (0x100040, 0x100044, 12, 15),
  (0x100044, 0x100048, 0, 31),
  (0x101000, 0x102200, 28, 31),
  (0x101000, 0x102200, 20, 24),
  (0x101000, 0x102200, 19, 19),
  (0x101000, 0x102200, 16, 18),
  (0x104000, 0x104900, 16, 31),
  (0x104000, 0x104900, 0, 15),
  (0x105000, 0x105900, 0, 31),
  (0x200004, 0x200008, 18, 28),
  (0x200004, 0x200008, 17, 17),
  (0x200004, 0x200008, 16, 16),
  (0x200004, 0x200008, 0, 15),
  (0x200014, 0x200018, 0, 31),
  (0x200014, 0x200018, 0, 1),
  (0x200040, 0x200044, 12, 12),
  (0x200040, 0x200044, 0, 10),
  (0x200044, 0x200048, 9, 9),
  (0x200044, 0x200048, 0, 8),
  (0x200100, 0x200140, 0, 7),
  (0x200400, 0x200700, 0, 31),
  (0x201000, 0x202200, 0, 7),
  (0x208000, 0x20c800, 0, 31),
  (0x300000, 0x300004, 26, 26),
  (0x300000, 0x300004, 25, 25),
  (0x300000, 0x300004, 24, 24),
  (0x300000, 0x300004, 0, 23),
  (0x300014, 0x300018, 0, 31),
  (0x300014, 0x300018, 16, 16),
  (0x30002c, 0x300030, 0, 31),
  (0x30002c, 0x300030, 16, 16),
  (0x300030, 0x30003c, 0, 31),
  (0x300030, 0x30003c, 16, 16),
  (0x300030, 0x30003c, 0, 15),
  (0x300050, 0x300054, 0, 31),
  (0x300058, 0x30005c, 0, 31),
  (0x300060, 0x300064, 0, 31),
  (0x300064, 0x300068, 0, 31),
  (0x300068, 0x30006c, 0, 10),
  (0x400008, 0x4bf00c, 2, 2),
  (0x400008, 0x4bf00c, 1, 1),
  (0x400008, 0x4bf00c, 0, 0),
  (0x400018, 0x4bf01c, 0, 15),
  (0x400040, 0x4bf044, 0, 7),
  (0x400050, 0x4bf054, 0, 31),
  (0x400054, 0x4bf058, 0, 31),
  (0x400058, 0x4bf05c, 0, 31),
  (0x40005c, 0x4bf060, 0, 31),
  (0x400060, 0x4bf064, 0, 31),
  (0x400064, 0x4bf068, 0, 31),
  (0x400068, 0x4bf06c, 0, 31),
  (0x4c0074, 0x4c0078, 0, 31),
  (0x600000, 0x600004, 0, 0),
  (0x600004, 0x600008, 24, 31),
  (0x600004, 0x600008, 23, 23),
  (0x600004, 0x600008, 10, 22),
  (0x600004, 0x600008, 9, 9),
  (0x600004, 0x600008, 7, 8),
  (0x600004, 0x600008, 6, 6),
  (0x600004, 0x600008, 5, 5),
  (0x600004, 0x600008, 4, 4),
  (0x600004, 0x600008, 3, 3),
  (0x600004, 0x600008, 0, 2),
  (0x600008, 0x60000c, 0, 31),
  (0x600050, 0x600054, 31, 31),
  (0x60005c, 0x600060, 20, 20),
  (0x60005c, 0x600060, 0, 19),
  (0x600064, 0x600068, 0, 31),
  (0x600064, 0x600068, 0, 17),
  (0x600068, 0x60006c, 0, 31),
  (0x600068, 0x60006c, 0, 17),
  (0x60006c, 0x600070, 0, 31),
  (0x60006c, 0x600070, 16, 31),
  (0x60006c, 0x600070, 0, 15),
  (0x600070, 0x600074, 16, 27),
  (0x600070, 0x600074, 0, 11),
  (0x600080, 0x600084, 0, 31),
  (0x600084, 0x600088, 0, 31),
  (0x600088, 0x60008c, 0, 31),
  (0x60008c, 0x600090, 0, 31),
  (0x600090, 0x600094, 0, 31),
  (0x600094, 0x600098, 0, 31),
  (0x600400, 0x600800, 0, 11),
  (0x600800, 0x600c00, 0, 11),
  (0x700000, 0x700004, 0, 0),
  (0x700004, 0x700008, 16, 19),
  (0x700004, 0x700008, 15, 15),
  (0x700004, 0x700008, 14, 14),
  (0x700004, 0x700008, 13, 13),
  (0x700004, 0x700008, 12, 12),
  (0x700004, 0x700008, 11, 11),
  (0x700004, 0x700008, 8, 10),
  (0x700004, 0x700008, 4, 5),
  (0x700004, 0x700008, 0, 3),
  (0x700008, 0x70000c, 0, 5),
  (0x70001c, 0x700020, 0, 31),
  (0x700070, 0x700074, 0, 31),
  (0x700074, 0x700078, 0, 31),
  (0x700078, 0x70007c, 0, 31),
  (0x70007c, 0x700080, 16, 31),
  (0x70007c, 0x700080, 0, 15),
  (0x700080, 0x700084, 0, 15),
  (0x700090, 0x700094, 0, 31),
  (0x700094, 0x700098, 0, 31),
  (0x700098, 0x70009c, 0, 31),
  (0x7000b0, 0x7000b4, 13, 13),
  (0x7000b0, 0x7000b4, 12, 12),
  (0x7000b0, 0x7000b4, 0, 11),
  (0x740000, 0x760000, 0, 31),
  (0x780004, 0x780008, 12, 12),
  (0x780004, 0x780008, 10, 11),
  (0x780004, 0x780008, 9, 9),
  (0x780004, 0x780008, 8, 8),
  (0x780004, 0x780008, 7, 7),
  (0x780004, 0x780008, 6, 6),
  (0x780004, 0x780008, 5, 5),
  (0x780004, 0x780008, 0, 2),
  (0x780008, 0x78000c, 16, 20),
  (0x780008, 0x78000c, 0, 15),
  (0x78000c, 0x780010, 0, 15),
  (0x780010, 0x780014, 8, 13),
  (0x780010, 0x780014, 0, 5),
  (0x780020, 0x780024, 16, 31),
  (0x780020, 0x780024, 0, 15),
  (0x780024, 0x780028, 0, 31),
  (0x780028, 0x78002c, 16, 25),
  (0x780028, 0x78002c, 0, 9),
  (0x78002c, 0x780030, 16, 25),
  (0x78002c, 0x780030, 0, 9),
  (0x780030, 0x780034, 16, 16),
  (0x780030, 0x780034, 8, 15),
  (0x780030, 0x780034, 0, 7),
  (0x780050, 0x780054, 0, 15),
  (0x780054, 0x780058, 0, 9),
  (0x780058, 0x78005c, 0, 15),
  (0x780068, 0x78006c, 0, 31),
  (0x780080, 0x780084, 0, 31),
  (0x780084, 0x780088, 0, 31),
  (0x780088, 0x78008c, 0, 31),
  (0x78008c, 0x780090, 0, 31),
  (0x800000, 0x800004, 0, 0),
  (0x800004, 0x800008, 24, 31),
  (0x800004, 0x800008, 13, 13),
  (0x800004, 0x800008, 12, 12),
  (0x800004, 0x800008, 11, 11),
  (0x800004, 0x800008, 10, 10),
  (0x800004, 0x800008, 7, 9),
  (0x800004, 0x800008, 0, 2),
  (0x800018, 0x80001c, 0, 23),
  (0x80001c, 0x800020, 16, 31),
  (0x80001c, 0x800020, 0, 15),
  (0x800020, 0x800040, 0, 31),
  (0x800020, 0x800040, 31, 31),
  (0x800020, 0x800040, 0, 23),
  (0x800040, 0x800044, 0, 31),
  (0x800044, 0x800048, 0, 31),
  (0x801000, 0x801004, 1, 1),
  (0x801000, 0x801004, 0, 0),
  (0x801004, 0x801008, 18, 18),
  (0x801004, 0x801008, 17, 17),
  (0x801004, 0x801008, 16, 16),
  (0x801004, 0x801008, 0, 8),
  (0x80102c, 0x801030, 0, 31),
  (0x801034, 0x801038, 0, 31),
  (0x801038, 0x80103c, 2, 2),
  (0x801038, 0x80103c, 1, 1),
  (0x801038, 0x80103c, 0, 0),
  (0x80103c, 0x801040, 0, 31),
  (0x801040, 0x801044, 0, 31),
  (0x880000, 0x880004, 0, 0),
  (0x880004, 0x880008, 9, 9),
  (0x880004, 0x880008, 8, 8),
  (0x880004, 0x880008, 7, 7),
  (0x880004, 0x880008, 6, 6),
  (0x880004, 0x880008, 5, 5),
  (0x880004, 0x880008, 4, 4),
  (0x880008, 0x88000c, 8, 9),
  (0x880008, 0x88000c, 4, 5),
  (0x880008, 0x88000c, 0, 1),
  (0x880020, 0x880024, 16, 31),
  (0x880020, 0x880024, 0, 15),
  (0x880024, 0x880028, 0, 31),
  (0x880028, 0x88002c, 0, 7),
  (0x88002c, 0x880030, 0, 31),
  (0x880030, 0x880034, 0, 31),
  (0x880034, 0x880038, 0, 31),
  (0x880038, 0x88003c, 0, 31),
  (0x880100, 0x880180, 0, 31),
  (0x880180, 0x880200, 0, 31),
  (0x900000, 0x900004, 0, 0),
  (0x900004, 0x900008, 10, 10),
  (0x900004, 0x900008, 9, 9),
  (0x900004, 0x900008, 8, 8),
  (0x900004, 0x900008, 0, 4),
  (0x900018, 0x90001c, 0, 4),
  (0x90001c, 0x900020, 0, 31),
  (0x900020, 0x900024, 0, 23),
  (0x900024, 0x900028, 0, 7),
  (0x900028, 0x90002c, 0, 7),
  (0x90002c, 0x900030, 0, 31),
  (0x900200, 0x900260, 0, 31),
  (0x900400, 0x900474, 0, 31),
  (0x900404, 0x900478, 0, 31),
  (0x900408, 0x90047c, 0, 31),
  (0x90040c, 0x900480, 8, 8),
  (0x90040c, 0x900480, 7, 7),
  (0x90040c, 0x900480, 6, 6),
  (0x90040c, 0x900480, 5, 5),
  (0x90040c, 0x900480, 4, 4),
  (0x90040c, 0x900480, 3, 3),
  (0x90040c, 0x900480, 2, 2),
  (0x90040c, 0x900480, 0, 1),
  (0xa00000, 0xa00004, 16, 16),
  (0xa00000, 0xa00004, 15, 15),
  (0xa00000, 0xa00004, 14, 14),
  (0xa00000, 0xa00004, 13, 13),
  (0xa00000, 0xa00004, 12, 12),
  (0xa00000, 0xa00004, 11, 11),
  (0xa00000, 0xa00004, 8, 10),
  (0xa00000, 0xa00004, 0, 3),
  (0xa00018, 0xa0001c, 0, 31),
  (0xa00020, 0xa00024, 24, 31),
  (0xa00020, 0xa00024, 21, 23),
  (0xa00020, 0xa00024, 11, 20),
  (0xa00020, 0xa00024, 0, 10),
  (0xa00024, 0xa00028, 0, 31),
  (0xa00024, 0xa00028, 16, 31),
  (0xa00024, 0xa00028, 0, 15),
  (0xa00028, 0xa0002c, 0, 31),
  (0xa00028, 0xa0002c, 16, 31),
  (0xa00028, 0xa0002c, 0, 15),
  (0xa00034, 0xa00038, 8, 31),
  (0xa00034, 0xa00038, 3, 3),
  (0xa00034, 0xa00038, 2, 2),
  (0xa00034, 0xa00038, 1, 1),
  (0xa00034, 0xa00038, 0, 0),
  (0xa00048, 0xa00058, 0, 15),
  (0xa00058, 0xa0005c, 0, 15),
  (0xa00070, 0xa00074, 8, 11),
  (0xa00070, 0xa00074, 1, 2),
  (0xa00070, 0xa00074, 0, 0),
  (0xa04000, 0xa05200, 0, 31),
  (0xa80000, 0xa80004, 16, 20),
  (0xa80000, 0xa80004, 11, 11),
  (0xa80000, 0xa80004, 10, 10),
  (0xa80000, 0xa80004, 9, 9),
  (0xa80000, 0xa80004, 8, 8),
  (0xa80000, 0xa80004, 4, 6),
  (0xa80000, 0xa80004, 0, 2),
  (0xa80004, 0xa80008, 16, 31),
  (0xa80004, 0xa80008, 0, 15),
  (0xa80034, 0xa80038, 0, 4),
  (0xa80038, 0xa8003c, 0, 23),
  (0xa8003c, 0xa80040, 0, 31),
  (0xa8003c, 0xa80040, 31, 31),
  (0xa8003c, 0xa80040, 16, 20),
  (0xa8003c, 0xa80040, 0, 15),
  (0xa80100, 0xa801bc, 16, 31),
  (0xa80100, 0xa801bc, 0, 15),
  (0xa80104, 0xa801c0, 4, 5),
  (0xa80104, 0xa801c0, 3, 3),
  (0xa80104, 0xa801c0, 0, 2),
  (0xa80200, 0xa80218, 16, 31),
  (0xa80200, 0xa80218, 1, 1),
  (0xa80200, 0xa80218, 0, 0),
  (0xa80280, 0xa802a0, 0, 15),
  (0xb00000, 0xb00004, 1, 1),
  (0xb00000, 0xb00004, 0, 0),
  (0xb00004, 0xb00008, 16, 19),
  (0xb00004, 0xb00008, 12, 15),
  (0xb00004, 0xb00008, 11, 11),
  (0xb00004, 0xb00008, 10, 10),
  (0xb00004, 0xb00008, 9, 9),
  (0xb00004, 0xb00008, 8, 8),
  (0xb00004, 0xb00008, 0, 2),
  (0xb0000c, 0xb00010, 0, 31),
  (0xb00208, 0xb0027c, 2, 2),
  (0xb00208, 0xb0027c, 1, 1),
  (0xb00208, 0xb0027c, 0, 0),
  (0xb0020c, 0xb00280, 0, 31),
  (0xb00304, 0xb00308, 0, 31),
  (0xb00308, 0xb0030c, 0, 15),
  (0xb00324, 0xb00328, 0, 31),
  (0xb00330, 0xb00334, 0, 31),
  (0xb00338, 0xb0033c, 0, 31),
  (0xb0033c, 0xb00340, 0, 31),
  (0xb00340, 0xb00344, 0, 8),
  (0xb00344, 0xb00348, 0, 31),
  (0xb00350, 0xb00354, 0, 31),
  (0xb00354, 0xb00358, 16, 19),
  (0xb00354, 0xb00358, 9, 11),
  (0xb00354, 0xb00358, 0, 8),
  (0xb0040c, 0xb00410, 0, 31),
  (0xb00410, 0xb00414, 0, 31),
  (0xb00418, 0xb0041c, 0, 31),
  (0xb0041c, 0xb00420, 1, 1),
  (0xb0041c, 0xb00420, 0, 0),
  (0xb00500, 0xb00504, 30, 30),
  (0xb00500, 0xb00504, 29, 29),
  (0xb00500, 0xb00504, 27, 28),
  (0xb00500, 0xb00504, 26, 26),
  (0xb00500, 0xb00504, 8, 15),
  (0xb00500, 0xb00504, 0, 7),
  (0xb00504, 0xb00508, 0, 7),
  (0xb00510, 0xb00514, 1, 1),
  (0xb00524, 0xb00528, 4, 4),
  (0xb00524, 0xb00528, 0, 3),
  (0xb00600, 0xb00700, 0, 15),
  (0xb00800, 0xb00b40, 16, 22),
  (0xb00800, 0xb00b40, 0, 6),
  (0xc00000, 0xc00004, 2, 2),
  (0xc00000, 0xc00004, 1, 1),
  (0xc00008, 0xc0000c, 21, 21),
  (0xc00008, 0xc0000c, 20, 20),
  (0xc00008, 0xc0000c, 16, 16),
  (0xc00008, 0xc0000c, 10, 12),
  (0xc00008, 0xc0000c, 8, 9),
  (0xc00008, 0xc0000c, 7, 7),
  (0xc00020, 0xc00030, 5, 5),
  (0xc00020, 0xc00030, 4, 4),
  (0xc00020, 0xc00030, 3, 3),
  (0xc00020, 0xc00030, 0, 1),
  (0xc00030, 0xc00040, 4, 5),
  (0xc00030, 0xc00040, 0, 2),
  (0xc00064, 0xc00068, 0, 31),
  (0xc00100, 0xc00184, 1, 1),
  (0xc00100, 0xc00184, 0, 0),
  (0xc00104, 0xc00188, 5, 5),
  (0xc00104, 0xc00188, 4, 4),
  (0xc00104, 0xc00188, 3, 3),
  (0xc00104, 0xc00188, 2, 2),
  (0xc00104, 0xc00188, 1, 1),
  (0xc00104, 0xc00188, 0, 0),
  (0xc00108, 0xc0018c, 0, 31),
  (0xc0010c, 0xc00190, 0, 15),
  (0xc00140, 0xc001c4, 0, 31),
  (0xc00144, 0xc001c8, 0, 31),
  (0xc00148, 0xc001cc, 0, 31),
  (0xc0014c, 0xc001d0, 0, 31),
  (0xc00150, 0xc001d4, 0, 31),
  (0xc00154, 0xc001d8, 0, 31),
  (0xc00304, 0xc00308, 2, 2),
  (0xc00304, 0xc00308, 1, 1),
  (0xc00304, 0xc00308, 0, 0),
  (0xc00308, 0xc0030c, 0, 31),
  (0xc0030c, 0xc00310, 0, 31),
  (0xc00310, 0xc00314, 0, 31),
  (0xc00320, 0xc00324, 0, 31),
  (0xc00320, 0xc00324, 0, 31),
  (0xc00324, 0xc00328, 0, 31),
  (0xc00324, 0xc00328, 0, 31),
  (0xc00328, 0xc0032c, 0, 31),
  (0xc00328, 0xc0032c, 31, 31),
  (0xc00328, 0xc0032c, 30, 30),
  (0xc00328, 0xc0032c, 29, 29),
  (0xc00328, 0xc0032c, 0, 15),
  (0xc00040, 0xc00050, 0, 31),
  (0xc00400, 0xc00404, 0, 1),
  (0xc00408, 0xc0040c, 0, 31),
  (0xc0040c, 0xc00410, 0, 9),
  (0xc00414, 0xc00418, 1, 1),
  (0xc00414, 0xc00418, 0, 0),
  (0xc04000, 0xc05000, 0, 31),
  (0xd00000, 0xd00004, 16, 23),
  (0xd00000, 0xd00004, 15, 15),
  (0xd00000, 0xd00004, 14, 14),
  (0xd00000, 0xd00004, 13, 13),
  (0xd00000, 0xd00004, 12, 12),
  (0xd00000, 0xd00004, 10, 11),
  (0xd00000, 0xd00004, 9, 9),
  (0xd00000, 0xd00004, 7, 7),
  (0xd00000, 0xd00004, 6, 6),
  (0xd00000, 0xd00004, 5, 5),
  (0xd00000, 0xd00004, 4, 4),
  (0xd00000, 0xd00004, 0, 3),
  (0xd00004, 0xd00008, 0, 31),
  (0xd00004, 0xd00008, 8, 11),
  (0xd00004, 0xd00008, 0, 3),
  (0xd00008, 0xd0000c, 0, 31),
  (0xd00008, 0xd0000c, 0, 1),
  (0xd00010, 0xd00014, 0, 31),
  (0xd00014, 0xd00018, 16, 31),
  (0xd00014, 0xd00018, 9, 9),
  (0xd00014, 0xd00018, 0, 7),
  (0xd00018, 0xd0001c, 0, 31),
  (0xd0001c, 0xd00020, 0, 31),
  (0xd00020, 0xd00024, 0, 7),
  (0xd00030, 0xd00034, 0, 0),
  (0xd00048, 0xd0004c, 8, 15),
  (0xd00048, 0xd0004c, 1, 1),
  (0xd00048, 0xd0004c, 0, 0),
  (0xd00050, 0xd00070, 8, 8),
  (0xd00050, 0xd00070, 0, 7),
  (0xd00070, 0xd00074, 0, 31),
  (0xd00074, 0xd00078, 0, 31),
  (0xe00004, 0xe00008, 2, 11),
  (0xe00004, 0xe00008, 1, 1),
  (0xe00004, 0xe00008, 0, 0),
  (0xe0000c, 0xe00010, 0, 31),
  (0xe00010, 0xe00014, 0, 31),
  (0xe00014, 0xe00018, 0, 31),
  (0xe00018, 0xe0001c, 0, 31),
  (0xe00040, 0xe000c0, 0, 31),
  (0xe00104, 0xe00108, 0, 31),
  (0xe00208, 0xe0020c, 0, 15),
  (0xe0020c, 0xe00210, 0, 15),
  (0xe0021c, 0xe00220, 0, 31),
  (0xe00220, 0xe00224, 0, 31),
  (0xe00224, 0xe00228, 0, 31),
  (0xe01000, 0xe02000, 0, 31),
  (0xe02004, 0xe04000, 0, 15),
  (0xe04000, 0xe05ffc, 0, 31),
  (0xe04004, 0xe06000, 0, 15),
  (0x780000, 0x780100, 0, 31),
  (0x740000, 0x760000, 0, 31),
  (0xC08000, 0xC09010, 0, 31),
  (0xE00040, 0xE000C0, 0, 31),
  (0xE04000, 0xE06000, 0, 31),
  (0xE10000, 0xE20000, 0, 31),
  (0xb00008, 0xb0000c, 0, 31),
  (0xB00800, 0xB00C00, 0, 31),
  (0xD01000, 0xD01800, 0, 31),
  (0, 0x4000000, 0, 31)]

/-- The bounds of the area `x`. -/
def Written.bound (x : Written) : Nat × Nat × Nat × Nat := (Written.bounds[x.ctorIdx]?).getD (0, 0, 0, 0)

set_option maxHeartbeats 2000000 in
/-- An area covers bits within its bounds only (bits of a register word, 0 to 31). -/
theorem Written.covers_bound (x : Written) (hx : x ≠ .all) (a j : Nat) (hj : j ≤ 31) (h : x.area.covers a j) :
    x.bound.1 ≤ a ∧ a < x.bound.2.1 ∧ x.bound.2.2.1 ≤ j ∧ j ≤ x.bound.2.2.2 := by
  cases x with
  | all => exact absurd rfl hx
  | SYS_MODE_WARM => change (0x10 : Nat) ≤ a ∧ a < 0x14 ∧ 15 ≤ j ∧ j ≤ 15; obtain ⟨rfl, h⟩ := h; exact ⟨by decide, by decide, h⟩
  | SYS_MODE_BOOT_DONE => change (0x10 : Nat) ≤ a ∧ a < 0x14 ∧ 14 ≤ j ∧ j ≤ 14; obtain ⟨rfl, h⟩ := h; exact ⟨by decide, by decide, h⟩
  | SYS_MODE_STOPPING => change (0x10 : Nat) ≤ a ∧ a < 0x14 ∧ 13 ≤ j ∧ j ≤ 13; obtain ⟨rfl, h⟩ := h; exact ⟨by decide, by decide, h⟩
  | SYS_MODE_CAUSE => change (0x10 : Nat) ≤ a ∧ a < 0x14 ∧ 8 ≤ j ∧ j ≤ 12; obtain ⟨rfl, h⟩ := h; exact ⟨by decide, by decide, h⟩
  | SYS_MODE_PREV_MODE => change (0x10 : Nat) ≤ a ∧ a < 0x14 ∧ 4 ≤ j ∧ j ≤ 7; obtain ⟨rfl, h⟩ := h; exact ⟨by decide, by decide, h⟩
  | SYS_MODE_MODE => change (0x10 : Nat) ≤ a ∧ a < 0x14 ∧ 0 ≤ j ∧ j ≤ 3; obtain ⟨rfl, h⟩ := h; exact ⟨by decide, by decide, h⟩
  | SYS_CLK_CFG_REF_SEL => change (0x20 : Nat) ≤ a ∧ a < 0x24 ∧ 0 ≤ j ∧ j ≤ 1; obtain ⟨rfl, h⟩ := h; exact ⟨by decide, by decide, h⟩
  | SYS_CLK_STATUS_HDG_XCHK_OK => change (0x24 : Nat) ≤ a ∧ a < 0x28 ∧ 4 ≤ j ∧ j ≤ 4; obtain ⟨rfl, h⟩ := h; exact ⟨by decide, by decide, h⟩
  | SYS_CLK_STATUS_REF_PRESENT => change (0x24 : Nat) ≤ a ∧ a < 0x28 ∧ 3 ≤ j ∧ j ≤ 3; obtain ⟨rfl, h⟩ := h; exact ⟨by decide, by decide, h⟩
  | SYS_CLK_STATUS_MGMT_LOCK => change (0x24 : Nat) ≤ a ∧ a < 0x28 ∧ 2 ≤ j ∧ j ≤ 2; obtain ⟨rfl, h⟩ := h; exact ⟨by decide, by decide, h⟩
  | SYS_CLK_STATUS_TIL_LOCK => change (0x24 : Nat) ≤ a ∧ a < 0x28 ∧ 1 ≤ j ∧ j ≤ 1; obtain ⟨rfl, h⟩ := h; exact ⟨by decide, by decide, h⟩
  | SYS_CLK_STATUS_MAIN_LOCK => change (0x24 : Nat) ≤ a ∧ a < 0x28 ∧ 0 ≤ j ∧ j ≤ 0; obtain ⟨rfl, h⟩ := h; exact ⟨by decide, by decide, h⟩
  | SYS_PEND_STATUS_MODE_SCAN => change (0x30 : Nat) ≤ a ∧ a < 0x34 ∧ 7 ≤ j ∧ j ≤ 7; obtain ⟨rfl, h⟩ := h; exact ⟨by decide, by decide, h⟩
  | SYS_PEND_STATUS_SXT => change (0x30 : Nat) ≤ a ∧ a < 0x34 ∧ 6 ≤ j ∧ j ≤ 6; obtain ⟨rfl, h⟩ := h; exact ⟨by decide, by decide, h⟩
  | SYS_PEND_STATUS_CAPTURE => change (0x30 : Nat) ≤ a ∧ a < 0x34 ∧ 5 ≤ j ∧ j ≤ 5; obtain ⟨rfl, h⟩ := h; exact ⟨by decide, by decide, h⟩
  | SYS_PEND_STATUS_MEM_SR => change (0x30 : Nat) ≤ a ∧ a < 0x34 ∧ 4 ≤ j ∧ j ≤ 4; obtain ⟨rfl, h⟩ := h; exact ⟨by decide, by decide, h⟩
  | SYS_PEND_STATUS_LNK_RX => change (0x30 : Nat) ≤ a ∧ a < 0x34 ∧ 3 ≤ j ∧ j ≤ 3; obtain ⟨rfl, h⟩ := h; exact ⟨by decide, by decide, h⟩
  | SYS_PEND_STATUS_LNK_TX => change (0x30 : Nat) ≤ a ∧ a < 0x34 ∧ 2 ≤ j ∧ j ≤ 2; obtain ⟨rfl, h⟩ := h; exact ⟨by decide, by decide, h⟩
  | SYS_PEND_STATUS_HLM => change (0x30 : Nat) ≤ a ∧ a < 0x34 ∧ 1 ≤ j ∧ j ≤ 1; obtain ⟨rfl, h⟩ := h; exact ⟨by decide, by decide, h⟩
  | SYS_PEND_STATUS_EMI => change (0x30 : Nat) ≤ a ∧ a < 0x34 ∧ 0 ≤ j ∧ j ≤ 0; obtain ⟨rfl, h⟩ := h; exact ⟨by decide, by decide, h⟩
  | SYS_MBOX_CMD_TAG => change (0x100 : Nat) ≤ a ∧ a < 0x104 ∧ 16 ≤ j ∧ j ≤ 23; obtain ⟨rfl, h⟩ := h; exact ⟨by decide, by decide, h⟩
  | SYS_MBOX_CMD_GROUP => change (0x100 : Nat) ≤ a ∧ a < 0x104 ∧ 8 ≤ j ∧ j ≤ 15; obtain ⟨rfl, h⟩ := h; exact ⟨by decide, by decide, h⟩
  | SYS_MBOX_CMD_CODE => change (0x100 : Nat) ≤ a ∧ a < 0x104 ∧ 0 ≤ j ∧ j ≤ 7; obtain ⟨rfl, h⟩ := h; exact ⟨by decide, by decide, h⟩
  | w_SYS_MBOX_ARG => change (0x104 : Nat) ≤ a ∧ a < 0x108 ∧ 0 ≤ j ∧ j ≤ 31; obtain rfl := h; exact ⟨by decide, by decide, Nat.zero_le _, hj⟩
  | SYS_MBOX_RESP_TAG => change (0x108 : Nat) ≤ a ∧ a < 0x10c ∧ 16 ≤ j ∧ j ≤ 23; obtain ⟨rfl, h⟩ := h; exact ⟨by decide, by decide, h⟩
  | SYS_MBOX_RESP_STATUS => change (0x108 : Nat) ≤ a ∧ a < 0x10c ∧ 12 ≤ j ∧ j ≤ 15; obtain ⟨rfl, h⟩ := h; exact ⟨by decide, by decide, h⟩
  | SYS_MBOX_RESP_MODE => change (0x108 : Nat) ≤ a ∧ a < 0x10c ∧ 8 ≤ j ∧ j ≤ 11; obtain ⟨rfl, h⟩ := h; exact ⟨by decide, by decide, h⟩
  | SYS_MBOX_RESP_DETAIL => change (0x108 : Nat) ≤ a ∧ a < 0x10c ∧ 0 ≤ j ∧ j ≤ 7; obtain ⟨rfl, h⟩ := h; exact ⟨by decide, by decide, h⟩
  | w_SYS_MBOX_DATA => change (0x10c : Nat) ≤ a ∧ a < 0x110 ∧ 0 ≤ j ∧ j ≤ 31; obtain rfl := h; exact ⟨by decide, by decide, Nat.zero_le _, hj⟩
  | w_EVT_PEND => change (0x10800 : Nat) ≤ a ∧ a < 0x10840 ∧ 0 ≤ j ∧ j ≤ 31; obtain ⟨i, rfl⟩ := h; simp only [R.EVT_PEND]; omega
  | EVT_PEND_PEND => change (0x10800 : Nat) ≤ a ∧ a < 0x10840 ∧ 0 ≤ j ∧ j ≤ 31; obtain ⟨i, rfl, h⟩ := h; simp only [F.EVT_PEND_PEND, R.EVT_PEND] at h ⊢; omega
  | DET_CTRL_BIAS_EN => change (0x100000 : Nat) ≤ a ∧ a < 0x100004 ∧ 0 ≤ j ∧ j ≤ 0; obtain ⟨rfl, h⟩ := h; exact ⟨by decide, by decide, h⟩
  | DET_STATUS_BIAS_FLAP => change (0x100004 : Nat) ≤ a ∧ a < 0x100008 ∧ 7 ≤ j ∧ j ≤ 7; obtain ⟨rfl, h⟩ := h; exact ⟨by decide, by decide, h⟩
  | DET_STATUS_TEMP_STALE => change (0x100004 : Nat) ≤ a ∧ a < 0x100008 ∧ 6 ≤ j ∧ j ≤ 6; obtain ⟨rfl, h⟩ := h; exact ⟨by decide, by decide, h⟩
  | DET_STATUS_BIAS_LIMIT => change (0x100004 : Nat) ≤ a ∧ a < 0x100008 ∧ 5 ≤ j ∧ j ≤ 5; obtain ⟨rfl, h⟩ := h; exact ⟨by decide, by decide, h⟩
  | DET_STATUS_BIAS_HIGH => change (0x100004 : Nat) ≤ a ∧ a < 0x100008 ∧ 4 ≤ j ∧ j ≤ 4; obtain ⟨rfl, h⟩ := h; exact ⟨by decide, by decide, h⟩
  | DET_STATUS_BIAS_LOW => change (0x100004 : Nat) ≤ a ∧ a < 0x100008 ∧ 3 ≤ j ∧ j ≤ 3; obtain ⟨rfl, h⟩ := h; exact ⟨by decide, by decide, h⟩
  | DET_STATUS_BIAS_SETTLED => change (0x100004 : Nat) ≤ a ∧ a < 0x100008 ∧ 2 ≤ j ∧ j ≤ 2; obtain ⟨rfl, h⟩ := h; exact ⟨by decide, by decide, h⟩
  | DET_STATUS_COMMIT_PENDING => change (0x100004 : Nat) ≤ a ∧ a < 0x100008 ∧ 1 ≤ j ∧ j ≤ 1; obtain ⟨rfl, h⟩ := h; exact ⟨by decide, by decide, h⟩
  | DET_STATUS_PROBE_BUSY => change (0x100004 : Nat) ≤ a ∧ a < 0x100008 ∧ 0 ≤ j ∧ j ≤ 0; obtain ⟨rfl, h⟩ := h; exact ⟨by decide, by decide, h⟩
  | DET_SILENT_CNT_COUNT => change (0x100008 : Nat) ≤ a ∧ a < 0x10000c ∧ 0 ≤ j ∧ j ≤ 10; obtain ⟨rfl, h⟩ := h; exact ⟨by decide, by decide, h⟩
  | DET_BIAS_STATUS_VHV_SET_CODE => change (0x10002c : Nat) ≤ a ∧ a < 0x100030 ∧ 16 ≤ j ∧ j ≤ 27; obtain ⟨rfl, h⟩ := h; exact ⟨by decide, by decide, h⟩
  | DET_BIAS_STATUS_VSPAD_MEAS => change (0x10002c : Nat) ≤ a ∧ a < 0x100030 ∧ 0 ≤ j ∧ j ≤ 15; obtain ⟨rfl, h⟩ := h; exact ⟨by decide, by decide, h⟩
  | DET_BIAS_TARGET_TDET => change (0x100030 : Nat) ≤ a ∧ a < 0x100034 ∧ 16 ≤ j ∧ j ≤ 31; obtain ⟨rfl, h⟩ := h; exact ⟨by decide, by decide, h⟩
  | DET_BIAS_TARGET_TARGET => change (0x100030 : Nat) ≤ a ∧ a < 0x100034 ∧ 0 ≤ j ∧ j ≤ 15; obtain ⟨rfl, h⟩ := h; exact ⟨by decide, by decide, h⟩
  | DET_PROBE_CFG_CHANNEL => change (0x100040 : Nat) ≤ a ∧ a < 0x100044 ∧ 16 ≤ j ∧ j ≤ 26; obtain ⟨rfl, h⟩ := h; exact ⟨by decide, by decide, h⟩
  | DET_PROBE_CFG_SPAD => change (0x100040 : Nat) ≤ a ∧ a < 0x100044 ∧ 12 ≤ j ∧ j ≤ 15; obtain ⟨rfl, h⟩ := h; exact ⟨by decide, by decide, h⟩
  | DET_PROBE_COUNT_COUNT => change (0x100044 : Nat) ≤ a ∧ a < 0x100048 ∧ 0 ≤ j ∧ j ≤ 31; obtain ⟨rfl, h⟩ := h; exact ⟨by decide, by decide, h⟩
  | DET_CH_CFG_TRIM_ACT => change (0x101000 : Nat) ≤ a ∧ a < 0x102200 ∧ 28 ≤ j ∧ j ≤ 31; obtain ⟨i, rfl, h⟩ := h; simp only [F.DET_CH_CFG_TRIM_ACT, R.DET_CH_CFG] at h ⊢; omega
  | DET_CH_CFG_SPAD_CNT => change (0x101000 : Nat) ≤ a ∧ a < 0x102200 ∧ 20 ≤ j ∧ j ≤ 24; obtain ⟨i, rfl, h⟩ := h; simp only [F.DET_CH_CFG_SPAD_CNT, R.DET_CH_CFG] at h ⊢; omega
  | DET_CH_CFG_SILENT => change (0x101000 : Nat) ≤ a ∧ a < 0x102200 ∧ 19 ≤ j ∧ j ≤ 19; obtain ⟨i, rfl, h⟩ := h; simp only [F.DET_CH_CFG_SILENT, R.DET_CH_CFG] at h ⊢; omega
  | DET_CH_CFG_K_EFF => change (0x101000 : Nat) ≤ a ∧ a < 0x102200 ∧ 16 ≤ j ∧ j ≤ 18; obtain ⟨i, rfl, h⟩ := h; simp only [F.DET_CH_CFG_K_EFF, R.DET_CH_CFG] at h ⊢; omega
  | DET_SPAD_MASK_MASK_HI => change (0x104000 : Nat) ≤ a ∧ a < 0x104900 ∧ 16 ≤ j ∧ j ≤ 31; obtain ⟨i, rfl, h⟩ := h; simp only [F.DET_SPAD_MASK_MASK_HI, R.DET_SPAD_MASK] at h ⊢; omega
  | DET_SPAD_MASK_MASK_LO => change (0x104000 : Nat) ≤ a ∧ a < 0x104900 ∧ 0 ≤ j ∧ j ≤ 15; obtain ⟨i, rfl, h⟩ := h; simp only [F.DET_SPAD_MASK_MASK_LO, R.DET_SPAD_MASK] at h ⊢; omega
  | w_DET_SPAD_MASK_ACT => change (0x105000 : Nat) ≤ a ∧ a < 0x105900 ∧ 0 ≤ j ∧ j ≤ 31; obtain ⟨i, rfl⟩ := h; simp only [R.DET_SPAD_MASK_ACT]; omega
  | TDC_STATUS_REJECT_CH => change (0x200004 : Nat) ≤ a ∧ a < 0x200008 ∧ 18 ≤ j ∧ j ≤ 28; obtain ⟨rfl, h⟩ := h; exact ⟨by decide, by decide, h⟩
  | TDC_STATUS_COMMIT_PENDING => change (0x200004 : Nat) ≤ a ∧ a < 0x200008 ∧ 17 ≤ j ∧ j ≤ 17; obtain ⟨rfl, h⟩ := h; exact ⟨by decide, by decide, h⟩
  | TDC_STATUS_TEST_ACTIVE => change (0x200004 : Nat) ≤ a ∧ a < 0x200008 ∧ 16 ≤ j ∧ j ≤ 16; obtain ⟨rfl, h⟩ := h; exact ⟨by decide, by decide, h⟩
  | TDC_STATUS_DLL_LOCK => change (0x200004 : Nat) ≤ a ∧ a < 0x200008 ∧ 0 ≤ j ∧ j ≤ 15; obtain ⟨rfl, h⟩ := h; exact ⟨by decide, by decide, h⟩
  | w_TDC_TEST_CFG => change (0x200014 : Nat) ≤ a ∧ a < 0x200018 ∧ 0 ≤ j ∧ j ≤ 31; obtain rfl := h; exact ⟨by decide, by decide, Nat.zero_le _, hj⟩
  | TDC_TEST_CFG_SRC => change (0x200014 : Nat) ≤ a ∧ a < 0x200018 ∧ 0 ≤ j ∧ j ≤ 1; obtain ⟨rfl, h⟩ := h; exact ⟨by decide, by decide, h⟩
  | TDC_SNOOP_CFG_KIND_ALL => change (0x200040 : Nat) ≤ a ∧ a < 0x200044 ∧ 12 ≤ j ∧ j ≤ 12; obtain ⟨rfl, h⟩ := h; exact ⟨by decide, by decide, h⟩
  | TDC_SNOOP_CFG_CHANNEL => change (0x200040 : Nat) ≤ a ∧ a < 0x200044 ∧ 0 ≤ j ∧ j ≤ 10; obtain ⟨rfl, h⟩ := h; exact ⟨by decide, by decide, h⟩
  | TDC_SNOOP_STATUS_FULL => change (0x200044 : Nat) ≤ a ∧ a < 0x200048 ∧ 9 ≤ j ∧ j ≤ 9; obtain ⟨rfl, h⟩ := h; exact ⟨by decide, by decide, h⟩
  | TDC_SNOOP_STATUS_COUNT => change (0x200044 : Nat) ≤ a ∧ a < 0x200048 ∧ 0 ≤ j ∧ j ≤ 8; obtain ⟨rfl, h⟩ := h; exact ⟨by decide, by decide, h⟩
  | TDC_DLL_TRIM_TRIM => change (0x200100 : Nat) ≤ a ∧ a < 0x200140 ∧ 0 ≤ j ∧ j ≤ 7; obtain ⟨i, rfl, h⟩ := h; simp only [F.TDC_DLL_TRIM_TRIM, R.TDC_DLL_TRIM] at h ⊢; omega
  | TDC_QDROP_COUNT => change (0x200400 : Nat) ≤ a ∧ a < 0x200700 ∧ 0 ≤ j ∧ j ≤ 31; obtain ⟨i, rfl, h⟩ := h; simp only [F.TDC_QDROP_COUNT, R.TDC_QDROP] at h ⊢; omega
  | TDC_CH_CFG_SKEW => change (0x201000 : Nat) ≤ a ∧ a < 0x202200 ∧ 0 ≤ j ∧ j ≤ 7; obtain ⟨i, rfl, h⟩ := h; simp only [F.TDC_CH_CFG_SKEW, R.TDC_CH_CFG] at h ⊢; omega
  | w_TDC_LUT => change (0x208000 : Nat) ≤ a ∧ a < 0x20c800 ∧ 0 ≤ j ∧ j ≤ 31; obtain ⟨i, k, rfl⟩ := h; simp only [R.TDC_LUT]; omega
  | HIS_STATUS_SETTINGS_PENDING => change (0x300000 : Nat) ≤ a ∧ a < 0x300004 ∧ 26 ≤ j ∧ j ≤ 26; obtain ⟨rfl, h⟩ := h; exact ⟨by decide, by decide, h⟩
  | HIS_STATUS_RUNNING => change (0x300000 : Nat) ≤ a ∧ a < 0x300004 ∧ 25 ≤ j ∧ j ≤ 25; obtain ⟨rfl, h⟩ := h; exact ⟨by decide, by decide, h⟩
  | HIS_STATUS_CAL_RECIPE => change (0x300000 : Nat) ≤ a ∧ a < 0x300004 ∧ 24 ≤ j ∧ j ≤ 24; obtain ⟨rfl, h⟩ := h; exact ⟨by decide, by decide, h⟩
  | HIS_STATUS_PC_INDEX => change (0x300000 : Nat) ≤ a ∧ a < 0x300004 ∧ 0 ≤ j ∧ j ≤ 23; obtain ⟨rfl, h⟩ := h; exact ⟨by decide, by decide, h⟩
  | w_HIS_RECIPE_CAL => change (0x300014 : Nat) ≤ a ∧ a < 0x300018 ∧ 0 ≤ j ∧ j ≤ 31; obtain rfl := h; exact ⟨by decide, by decide, Nat.zero_le _, hj⟩
  | HIS_RECIPE_CAL_FIRE => change (0x300014 : Nat) ≤ a ∧ a < 0x300018 ∧ 16 ≤ j ∧ j ≤ 16; obtain ⟨rfl, h⟩ := h; exact ⟨by decide, by decide, h⟩
  | w_HIS_FIND_CFG => change (0x30002c : Nat) ≤ a ∧ a < 0x300030 ∧ 0 ≤ j ∧ j ≤ 31; obtain rfl := h; exact ⟨by decide, by decide, Nat.zero_le _, hj⟩
  | HIS_FIND_CFG_FIXWIN => change (0x30002c : Nat) ≤ a ∧ a < 0x300030 ∧ 16 ≤ j ∧ j ≤ 16; obtain ⟨rfl, h⟩ := h; exact ⟨by decide, by decide, h⟩
  | w_HIS_FIXWIN => change (0x300030 : Nat) ≤ a ∧ a < 0x30003c ∧ 0 ≤ j ∧ j ≤ 31; obtain ⟨i, rfl⟩ := h; simp only [R.HIS_FIXWIN]; omega
  | HIS_FIXWIN_EN => change (0x300030 : Nat) ≤ a ∧ a < 0x30003c ∧ 16 ≤ j ∧ j ≤ 16; obtain ⟨i, rfl, h⟩ := h; simp only [F.HIS_FIXWIN_EN, R.HIS_FIXWIN] at h ⊢; omega
  | HIS_FIXWIN_START => change (0x300030 : Nat) ≤ a ∧ a < 0x30003c ∧ 0 ≤ j ∧ j ≤ 15; obtain ⟨i, rfl, h⟩ := h; simp only [F.HIS_FIXWIN_START, R.HIS_FIXWIN] at h ⊢; omega
  | HIS_ECC_CE_CNT_COUNT => change (0x300050 : Nat) ≤ a ∧ a < 0x300054 ∧ 0 ≤ j ∧ j ≤ 31; obtain ⟨rfl, h⟩ := h; exact ⟨by decide, by decide, h⟩
  | HIS_ECC_UE_CNT_COUNT => change (0x300058 : Nat) ≤ a ∧ a < 0x30005c ∧ 0 ≤ j ∧ j ≤ 31; obtain ⟨rfl, h⟩ := h; exact ⟨by decide, by decide, h⟩
  | HIS_LATE_CNT_COUNT => change (0x300060 : Nat) ≤ a ∧ a < 0x300064 ∧ 0 ≤ j ∧ j ≤ 31; obtain ⟨rfl, h⟩ := h; exact ⟨by decide, by decide, h⟩
  | HIS_LATE_WORD_CNT_COUNT => change (0x300064 : Nat) ≤ a ∧ a < 0x300068 ∧ 0 ≤ j ∧ j ≤ 31; obtain ⟨rfl, h⟩ := h; exact ⟨by decide, by decide, h⟩
  | HIS_LAST_LATE_CHANNEL => change (0x300068 : Nat) ≤ a ∧ a < 0x30006c ∧ 0 ≤ j ∧ j ≤ 10; obtain ⟨rfl, h⟩ := h; exact ⟨by decide, by decide, h⟩
  | TIL_CFG_MSG_ATTN => change (0x400008 : Nat) ≤ a ∧ a < 0x4bf00c ∧ 2 ≤ j ∧ j ≤ 2; obtain ⟨i, rfl, h⟩ := h; simp only [F.TIL_CFG_MSG_ATTN, R.TIL_CFG] at h ⊢; omega
  | TIL_CFG_POISON_ZERO => change (0x400008 : Nat) ≤ a ∧ a < 0x4bf00c ∧ 1 ≤ j ∧ j ≤ 1; obtain ⟨i, rfl, h⟩ := h; simp only [F.TIL_CFG_POISON_ZERO, R.TIL_CFG] at h ⊢; omega
  | TIL_CFG_TRAP_MODE => change (0x400008 : Nat) ≤ a ∧ a < 0x4bf00c ∧ 0 ≤ j ∧ j ≤ 0; obtain ⟨i, rfl, h⟩ := h; simp only [F.TIL_CFG_TRAP_MODE, R.TIL_CFG] at h ⊢; omega
  | TIL_ATTN_CFG_DL_ALARM => change (0x400018 : Nat) ≤ a ∧ a < 0x4bf01c ∧ 0 ≤ j ∧ j ≤ 15; obtain ⟨i, rfl, h⟩ := h; simp only [F.TIL_ATTN_CFG_DL_ALARM, R.TIL_ATTN_CFG] at h ⊢; omega
  | TIL_EVT_CAUSE_CAUSE => change (0x400040 : Nat) ≤ a ∧ a < 0x4bf044 ∧ 0 ≤ j ∧ j ≤ 7; obtain ⟨i, rfl, h⟩ := h; simp only [F.TIL_EVT_CAUSE_CAUSE, R.TIL_EVT_CAUSE] at h ⊢; omega
  | TIL_CNT_DROPPED_COUNT => change (0x400050 : Nat) ≤ a ∧ a < 0x4bf054 ∧ 0 ≤ j ∧ j ≤ 31; obtain ⟨i, rfl, h⟩ := h; simp only [F.TIL_CNT_DROPPED_COUNT, R.TIL_CNT_DROPPED] at h ⊢; omega
  | TIL_CNT_EMIT_COUNT => change (0x400054 : Nat) ≤ a ∧ a < 0x4bf058 ∧ 0 ≤ j ∧ j ≤ 31; obtain ⟨i, rfl, h⟩ := h; simp only [F.TIL_CNT_EMIT_COUNT, R.TIL_CNT_EMIT] at h ⊢; omega
  | TIL_CNT_STALE_EMIT_COUNT => change (0x400058 : Nat) ≤ a ∧ a < 0x4bf05c ∧ 0 ≤ j ∧ j ≤ 31; obtain ⟨i, rfl, h⟩ := h; simp only [F.TIL_CNT_STALE_EMIT_COUNT, R.TIL_CNT_STALE_EMIT] at h ⊢; omega
  | TIL_CNT_FWQ_REJ_COUNT => change (0x40005c : Nat) ≤ a ∧ a < 0x4bf060 ∧ 0 ≤ j ∧ j ≤ 31; obtain ⟨i, rfl, h⟩ := h; simp only [F.TIL_CNT_FWQ_REJ_COUNT, R.TIL_CNT_FWQ_REJ] at h ⊢; omega
  | TIL_CNT_CAND_STALE_COUNT => change (0x400060 : Nat) ≤ a ∧ a < 0x4bf064 ∧ 0 ≤ j ∧ j ≤ 31; obtain ⟨i, rfl, h⟩ := h; simp only [F.TIL_CNT_CAND_STALE_COUNT, R.TIL_CNT_CAND_STALE] at h ⊢; omega
  | TIL_ECC_CE_CNT_COUNT => change (0x400064 : Nat) ≤ a ∧ a < 0x4bf068 ∧ 0 ≤ j ∧ j ≤ 31; obtain ⟨i, rfl, h⟩ := h; simp only [F.TIL_ECC_CE_CNT_COUNT, R.TIL_ECC_CE_CNT] at h ⊢; omega
  | TIL_ECC_UE_CNT_COUNT => change (0x400068 : Nat) ≤ a ∧ a < 0x4bf06c ∧ 0 ≤ j ∧ j ≤ 31; obtain ⟨i, rfl, h⟩ := h; simp only [F.TIL_ECC_UE_CNT_COUNT, R.TIL_ECC_UE_CNT] at h ⊢; omega
  | TIL_OQ_STALL_CNT_COUNT => change (0x4c0074 : Nat) ≤ a ∧ a < 0x4c0078 ∧ 0 ≤ j ∧ j ≤ 31; obtain ⟨rfl, h⟩ := h; exact ⟨by decide, by decide, h⟩
  | EMI_CTRL_EN => change (0x600000 : Nat) ≤ a ∧ a < 0x600004 ∧ 0 ≤ j ∧ j ≤ 0; obtain ⟨rfl, h⟩ := h; exact ⟨by decide, by decide, h⟩
  | EMI_STATUS_REJ_P => change (0x600004 : Nat) ≤ a ∧ a < 0x600008 ∧ 24 ≤ j ∧ j ≤ 31; obtain ⟨rfl, h⟩ := h; exact ⟨by decide, by decide, h⟩
  | EMI_STATUS_REJ_VALID => change (0x600004 : Nat) ≤ a ∧ a < 0x600008 ∧ 23 ≤ j ∧ j ≤ 23; obtain ⟨rfl, h⟩ := h; exact ⟨by decide, by decide, h⟩
  | EMI_STATUS_PTR => change (0x600004 : Nat) ≤ a ∧ a < 0x600008 ∧ 10 ≤ j ∧ j ≤ 22; obtain ⟨rfl, h⟩ := h; exact ⟨by decide, by decide, h⟩
  | EMI_STATUS_LB_FLAP => change (0x600004 : Nat) ≤ a ∧ a < 0x600008 ∧ 9 ≤ j ∧ j ≤ 9; obtain ⟨rfl, h⟩ := h; exact ⟨by decide, by decide, h⟩
  | EMI_STATUS_LB_STAGE => change (0x600004 : Nat) ≤ a ∧ a < 0x600008 ∧ 7 ≤ j ∧ j ≤ 8; obtain ⟨rfl, h⟩ := h; exact ⟨by decide, by decide, h⟩
  | EMI_STATUS_THROTTLE => change (0x600004 : Nat) ≤ a ∧ a < 0x600008 ∧ 6 ≤ j ∧ j ≤ 6; obtain ⟨rfl, h⟩ := h; exact ⟨by decide, by decide, h⟩
  | EMI_STATUS_COMMIT_PENDING => change (0x600004 : Nat) ≤ a ∧ a < 0x600008 ∧ 5 ≤ j ∧ j ≤ 5; obtain ⟨rfl, h⟩ := h; exact ⟨by decide, by decide, h⟩
  | EMI_STATUS_PENDING_ENABLE => change (0x600004 : Nat) ≤ a ∧ a < 0x600008 ∧ 4 ≤ j ∧ j ≤ 4; obtain ⟨rfl, h⟩ := h; exact ⟨by decide, by decide, h⟩
  | EMI_STATUS_ACTIVE_BUF => change (0x600004 : Nat) ≤ a ∧ a < 0x600008 ∧ 3 ≤ j ∧ j ≤ 3; obtain ⟨rfl, h⟩ := h; exact ⟨by decide, by decide, h⟩
  | EMI_STATUS_STATE => change (0x600004 : Nat) ≤ a ∧ a < 0x600008 ∧ 0 ≤ j ∧ j ≤ 2; obtain ⟨rfl, h⟩ := h; exact ⟨by decide, by decide, h⟩
  | w_EMI_FAULT_CAUSE => change (0x600008 : Nat) ≤ a ∧ a < 0x60000c ∧ 0 ≤ j ∧ j ≤ 31; obtain rfl := h; exact ⟨by decide, by decide, Nat.zero_le _, hj⟩
  | EMI_LB_CFG_EN => change (0x600050 : Nat) ≤ a ∧ a < 0x600054 ∧ 31 ≤ j ∧ j ≤ 31; obtain ⟨rfl, h⟩ := h; exact ⟨by decide, by decide, h⟩
  | EMI_LB_VAL_VALID => change (0x60005c : Nat) ≤ a ∧ a < 0x600060 ∧ 20 ≤ j ∧ j ≤ 20; obtain ⟨rfl, h⟩ := h; exact ⟨by decide, by decide, h⟩
  | EMI_LB_VAL_N => change (0x60005c : Nat) ≤ a ∧ a < 0x600060 ∧ 0 ≤ j ∧ j ≤ 19; obtain ⟨rfl, h⟩ := h; exact ⟨by decide, by decide, h⟩
  | w_EMI_ROW_SHORT => change (0x600064 : Nat) ≤ a ∧ a < 0x600068 ∧ 0 ≤ j ∧ j ≤ 31; obtain rfl := h; exact ⟨by decide, by decide, Nat.zero_le _, hj⟩
  | EMI_ROW_SHORT_SHORT => change (0x600064 : Nat) ≤ a ∧ a < 0x600068 ∧ 0 ≤ j ∧ j ≤ 17; obtain ⟨rfl, h⟩ := h; exact ⟨by decide, by decide, h⟩
  | w_EMI_ROW_OPEN => change (0x600068 : Nat) ≤ a ∧ a < 0x60006c ∧ 0 ≤ j ∧ j ≤ 31; obtain rfl := h; exact ⟨by decide, by decide, Nat.zero_le _, hj⟩
  | EMI_ROW_OPEN_OPEN => change (0x600068 : Nat) ≤ a ∧ a < 0x60006c ∧ 0 ≤ j ∧ j ≤ 17; obtain ⟨rfl, h⟩ := h; exact ⟨by decide, by decide, h⟩
  | w_EMI_COL_FAULT => change (0x60006c : Nat) ≤ a ∧ a < 0x600070 ∧ 0 ≤ j ∧ j ≤ 31; obtain rfl := h; exact ⟨by decide, by decide, Nat.zero_le _, hj⟩
  | EMI_COL_FAULT_OPEN => change (0x60006c : Nat) ≤ a ∧ a < 0x600070 ∧ 16 ≤ j ∧ j ≤ 31; obtain ⟨rfl, h⟩ := h; exact ⟨by decide, by decide, h⟩
  | EMI_COL_FAULT_SHORT => change (0x60006c : Nat) ≤ a ∧ a < 0x600070 ∧ 0 ≤ j ∧ j ≤ 15; obtain ⟨rfl, h⟩ := h; exact ⟨by decide, by decide, h⟩
  | EMI_CHG_STATUS_FB_MEAS => change (0x600070 : Nat) ≤ a ∧ a < 0x600074 ∧ 16 ≤ j ∧ j ≤ 27; obtain ⟨rfl, h⟩ := h; exact ⟨by decide, by decide, h⟩
  | EMI_CHG_STATUS_DAC_CODE => change (0x600070 : Nat) ≤ a ∧ a < 0x600074 ∧ 0 ≤ j ∧ j ≤ 11; obtain ⟨rfl, h⟩ := h; exact ⟨by decide, by decide, h⟩
  | EMI_CNT_SHOTS_COUNT => change (0x600080 : Nat) ≤ a ∧ a < 0x600084 ∧ 0 ≤ j ∧ j ≤ 31; obtain ⟨rfl, h⟩ := h; exact ⟨by decide, by decide, h⟩
  | EMI_CNT_SUPPRESS_COUNT => change (0x600084 : Nat) ≤ a ∧ a < 0x600088 ∧ 0 ≤ j ∧ j ≤ 31; obtain ⟨rfl, h⟩ := h; exact ⟨by decide, by decide, h⟩
  | EMI_CNT_UNDER_COUNT => change (0x600088 : Nat) ≤ a ∧ a < 0x60008c ∧ 0 ≤ j ∧ j ≤ 31; obtain ⟨rfl, h⟩ := h; exact ⟨by decide, by decide, h⟩
  | EMI_CNT_MON_MISS_COUNT => change (0x60008c : Nat) ≤ a ∧ a < 0x600090 ∧ 0 ≤ j ∧ j ≤ 31; obtain ⟨rfl, h⟩ := h; exact ⟨by decide, by decide, h⟩
  | EMI_CNT_ROGUE_COUNT => change (0x600090 : Nat) ≤ a ∧ a < 0x600094 ∧ 0 ≤ j ∧ j ≤ 31; obtain ⟨rfl, h⟩ := h; exact ⟨by decide, by decide, h⟩
  | EMI_CNT_CLAMP_COUNT => change (0x600094 : Nat) ≤ a ∧ a < 0x600098 ∧ 0 ≤ j ∧ j ≤ 31; obtain ⟨rfl, h⟩ := h; exact ⟨by decide, by decide, h⟩
  | EMI_CURVE_DAC => change (0x600400 : Nat) ≤ a ∧ a < 0x600800 ∧ 0 ≤ j ∧ j ≤ 11; obtain ⟨i, rfl, h⟩ := h; simp only [F.EMI_CURVE_DAC, R.EMI_CURVE] at h ⊢; omega
  | EMI_CURVE_ACT_DAC => change (0x600800 : Nat) ≤ a ∧ a < 0x600c00 ∧ 0 ≤ j ∧ j ≤ 11; obtain ⟨i, rfl, h⟩ := h; simp only [F.EMI_CURVE_ACT_DAC, R.EMI_CURVE_ACT] at h ⊢; omega
  | HLM_CTRL_EN => change (0x700000 : Nat) ≤ a ∧ a < 0x700004 ∧ 0 ≤ j ∧ j ≤ 0; obtain ⟨rfl, h⟩ := h; exact ⟨by decide, by decide, h⟩
  | HLM_STATUS_FACET => change (0x700004 : Nat) ≤ a ∧ a < 0x700008 ∧ 16 ≤ j ∧ j ≤ 19; obtain ⟨rfl, h⟩ := h; exact ⟨by decide, by decide, h⟩
  | HLM_STATUS_LOCK_FLAP => change (0x700004 : Nat) ≤ a ∧ a < 0x700008 ∧ 15 ≤ j ∧ j ≤ 15; obtain ⟨rfl, h⟩ := h; exact ⟨by decide, by decide, h⟩
  | HLM_STATUS_INDEX_SEEN => change (0x700004 : Nat) ≤ a ∧ a < 0x700008 ∧ 14 ≤ j ∧ j ≤ 14; obtain ⟨rfl, h⟩ := h; exact ⟨by decide, by decide, h⟩
  | HLM_STATUS_PENDING_ENABLE => change (0x700004 : Nat) ≤ a ∧ a < 0x700008 ∧ 13 ≤ j ∧ j ≤ 13; obtain ⟨rfl, h⟩ := h; exact ⟨by decide, by decide, h⟩
  | HLM_STATUS_HO_ACTIVE => change (0x700004 : Nat) ≤ a ∧ a < 0x700008 ∧ 12 ≤ j ∧ j ≤ 12; obtain ⟨rfl, h⟩ := h; exact ⟨by decide, by decide, h⟩
  | HLM_STATUS_COMMIT_PENDING => change (0x700004 : Nat) ≤ a ∧ a < 0x700008 ∧ 11 ≤ j ∧ j ≤ 11; obtain ⟨rfl, h⟩ := h; exact ⟨by decide, by decide, h⟩
  | HLM_STATUS_SP_STATE => change (0x700004 : Nat) ≤ a ∧ a < 0x700008 ∧ 8 ≤ j ∧ j ≤ 10; obtain ⟨rfl, h⟩ := h; exact ⟨by decide, by decide, h⟩
  | HLM_STATUS_TL_STATE => change (0x700004 : Nat) ≤ a ∧ a < 0x700008 ∧ 4 ≤ j ∧ j ≤ 5; obtain ⟨rfl, h⟩ := h; exact ⟨by decide, by decide, h⟩
  | HLM_STATUS_LAW_SAT => change (0x700004 : Nat) ≤ a ∧ a < 0x700008 ∧ 0 ≤ j ∧ j ≤ 3; obtain ⟨rfl, h⟩ := h; exact ⟨by decide, by decide, h⟩
  | HLM_FAULT_CAUSE_CAUSE => change (0x700008 : Nat) ≤ a ∧ a < 0x70000c ∧ 0 ≤ j ∧ j ≤ 5; obtain ⟨rfl, h⟩ := h; exact ⟨by decide, by decide, h⟩
  | HLM_SPEED_REF_TARGET => change (0x70001c : Nat) ≤ a ∧ a < 0x700020 ∧ 0 ≤ j ∧ j ≤ 31; obtain ⟨rfl, h⟩ := h; exact ⟨by decide, by decide, h⟩
  | HLM_MEAS_ANGLE_THETA => change (0x700070 : Nat) ≤ a ∧ a < 0x700074 ∧ 0 ≤ j ∧ j ≤ 31; obtain ⟨rfl, h⟩ := h; exact ⟨by decide, by decide, h⟩
  | HLM_MEAS_SPEED_OMEGA => change (0x700074 : Nat) ≤ a ∧ a < 0x700078 ∧ 0 ≤ j ∧ j ≤ 31; obtain ⟨rfl, h⟩ := h; exact ⟨by decide, by decide, h⟩
  | HLM_MEAS_PHASE_E_PH => change (0x700078 : Nat) ≤ a ∧ a < 0x70007c ∧ 0 ≤ j ∧ j ≤ 31; obtain ⟨rfl, h⟩ := h; exact ⟨by decide, by decide, h⟩
  | HLM_MEAS_TILT_REF => change (0x70007c : Nat) ≤ a ∧ a < 0x700080 ∧ 16 ≤ j ∧ j ≤ 31; obtain ⟨rfl, h⟩ := h; exact ⟨by decide, by decide, h⟩
  | HLM_MEAS_TILT_POS => change (0x70007c : Nat) ≤ a ∧ a < 0x700080 ∧ 0 ≤ j ∧ j ≤ 15; obtain ⟨rfl, h⟩ := h; exact ⟨by decide, by decide, h⟩
  | HLM_ENC_COUNT_COUNT => change (0x700080 : Nat) ≤ a ∧ a < 0x700084 ∧ 0 ≤ j ∧ j ≤ 15; obtain ⟨rfl, h⟩ := h; exact ⟨by decide, by decide, h⟩
  | HLM_CNT_LOCK_REF_COUNT => change (0x700090 : Nat) ≤ a ∧ a < 0x700094 ∧ 0 ≤ j ∧ j ≤ 31; obtain ⟨rfl, h⟩ := h; exact ⟨by decide, by decide, h⟩
  | HLM_CNT_UNLOCK_COUNT => change (0x700094 : Nat) ≤ a ∧ a < 0x700098 ∧ 0 ≤ j ∧ j ≤ 31; obtain ⟨rfl, h⟩ := h; exact ⟨by decide, by decide, h⟩
  | HLM_CNT_ENC_ERR_COUNT => change (0x700098 : Nat) ≤ a ∧ a < 0x70009c ∧ 0 ≤ j ∧ j ≤ 31; obtain ⟨rfl, h⟩ := h; exact ⟨by decide, by decide, h⟩
  | HLM_TRACE_STATUS_DONE => change (0x7000b0 : Nat) ≤ a ∧ a < 0x7000b4 ∧ 13 ≤ j ∧ j ≤ 13; obtain ⟨rfl, h⟩ := h; exact ⟨by decide, by decide, h⟩
  | HLM_TRACE_STATUS_RECORDING => change (0x7000b0 : Nat) ≤ a ∧ a < 0x7000b4 ∧ 12 ≤ j ∧ j ≤ 12; obtain ⟨rfl, h⟩ := h; exact ⟨by decide, by decide, h⟩
  | HLM_TRACE_STATUS_OLDEST => change (0x7000b0 : Nat) ≤ a ∧ a < 0x7000b4 ∧ 0 ≤ j ∧ j ≤ 11; obtain ⟨rfl, h⟩ := h; exact ⟨by decide, by decide, h⟩
  | w_HLM_TRACE_BUF => change (0x740000 : Nat) ≤ a ∧ a < 0x760000 ∧ 0 ≤ j ∧ j ≤ 31; obtain ⟨i, k, rfl⟩ := h; simp only [R.HLM_TRACE_BUF]; omega
  | HDG_STATUS_PWM_GATE => change (0x780004 : Nat) ≤ a ∧ a < 0x780008 ∧ 12 ≤ j ∧ j ≤ 12; obtain ⟨rfl, h⟩ := h; exact ⟨by decide, by decide, h⟩
  | HDG_STATUS_RST_PHASE => change (0x780004 : Nat) ≤ a ∧ a < 0x780008 ∧ 10 ≤ j ∧ j ≤ 11; obtain ⟨rfl, h⟩ := h; exact ⟨by decide, by decide, h⟩
  | HDG_STATUS_CLEAR => change (0x780004 : Nat) ≤ a ∧ a < 0x780008 ∧ 9 ≤ j ∧ j ≤ 9; obtain ⟨rfl, h⟩ := h; exact ⟨by decide, by decide, h⟩
  | HDG_STATUS_SEAL_LOCK => change (0x780004 : Nat) ≤ a ∧ a < 0x780008 ∧ 8 ≤ j ∧ j ≤ 8; obtain ⟨rfl, h⟩ := h; exact ⟨by decide, by decide, h⟩
  | HDG_STATUS_LATCH => change (0x780004 : Nat) ≤ a ∧ a < 0x780008 ∧ 7 ≤ j ∧ j ≤ 7; obtain ⟨rfl, h⟩ := h; exact ⟨by decide, by decide, h⟩
  | HDG_STATUS_LI_LEVEL => change (0x780004 : Nat) ≤ a ∧ a < 0x780008 ∧ 6 ≤ j ∧ j ≤ 6; obtain ⟨rfl, h⟩ := h; exact ⟨by decide, by decide, h⟩
  | HDG_STATUS_REQ => change (0x780004 : Nat) ≤ a ∧ a < 0x780008 ∧ 5 ≤ j ∧ j ≤ 5; obtain ⟨rfl, h⟩ := h; exact ⟨by decide, by decide, h⟩
  | HDG_STATUS_STATE => change (0x780004 : Nat) ≤ a ∧ a < 0x780008 ∧ 0 ≤ j ∧ j ≤ 2; obtain ⟨rfl, h⟩ := h; exact ⟨by decide, by decide, h⟩
  | HDG_TRIP_CAUSE_FIRST => change (0x780008 : Nat) ≤ a ∧ a < 0x78000c ∧ 16 ≤ j ∧ j ≤ 20; obtain ⟨rfl, h⟩ := h; exact ⟨by decide, by decide, h⟩
  | HDG_TRIP_CAUSE_CAUSE => change (0x780008 : Nat) ≤ a ∧ a < 0x78000c ∧ 0 ≤ j ∧ j ≤ 15; obtain ⟨rfl, h⟩ := h; exact ⟨by decide, by decide, h⟩
  | HDG_PRESENT_CAUSE => change (0x78000c : Nat) ≤ a ∧ a < 0x780010 ∧ 0 ≤ j ∧ j ≤ 15; obtain ⟨rfl, h⟩ := h; exact ⟨by decide, by decide, h⟩
  | HDG_STRAPS_FLOAT => change (0x780010 : Nat) ≤ a ∧ a < 0x780014 ∧ 8 ≤ j ∧ j ≤ 13; obtain ⟨rfl, h⟩ := h; exact ⟨by decide, by decide, h⟩
  | HDG_STRAPS_SEAL => change (0x780010 : Nat) ≤ a ∧ a < 0x780014 ∧ 0 ≤ j ∧ j ≤ 5; obtain ⟨rfl, h⟩ := h; exact ⟨by decide, by decide, h⟩
  | HDG_LIM_SPEED_MAX => change (0x780020 : Nat) ≤ a ∧ a < 0x780024 ∧ 16 ≤ j ∧ j ≤ 31; obtain ⟨rfl, h⟩ := h; exact ⟨by decide, by decide, h⟩
  | HDG_LIM_SPEED_MIN => change (0x780020 : Nat) ≤ a ∧ a < 0x780024 ∧ 0 ≤ j ∧ j ≤ 15; obtain ⟨rfl, h⟩ := h; exact ⟨by decide, by decide, h⟩
  | HDG_LIM_BUDGET_BUDGET => change (0x780024 : Nat) ≤ a ∧ a < 0x780028 ∧ 0 ≤ j ∧ j ≤ 31; obtain ⟨rfl, h⟩ := h; exact ⟨by decide, by decide, h⟩
  | HDG_LIM_POS_MAX => change (0x780028 : Nat) ≤ a ∧ a < 0x78002c ∧ 16 ≤ j ∧ j ≤ 25; obtain ⟨rfl, h⟩ := h; exact ⟨by decide, by decide, h⟩
  | HDG_LIM_POS_MIN => change (0x780028 : Nat) ≤ a ∧ a < 0x78002c ∧ 0 ≤ j ∧ j ≤ 9; obtain ⟨rfl, h⟩ := h; exact ⟨by decide, by decide, h⟩
  | HDG_LIM_FOV_MAX => change (0x78002c : Nat) ≤ a ∧ a < 0x780030 ∧ 16 ≤ j ∧ j ≤ 25; obtain ⟨rfl, h⟩ := h; exact ⟨by decide, by decide, h⟩
  | HDG_LIM_FOV_MIN => change (0x78002c : Nat) ≤ a ∧ a < 0x780030 ∧ 0 ≤ j ∧ j ≤ 9; obtain ⟨rfl, h⟩ := h; exact ⟨by decide, by decide, h⟩
  | HDG_LIM_MISC_DIR => change (0x780030 : Nat) ≤ a ∧ a < 0x780034 ∧ 16 ≤ j ∧ j ≤ 16; obtain ⟨rfl, h⟩ := h; exact ⟨by decide, by decide, h⟩
  | HDG_LIM_MISC_FOV_DWELL => change (0x780030 : Nat) ≤ a ∧ a < 0x780034 ∧ 8 ≤ j ∧ j ≤ 15; obtain ⟨rfl, h⟩ := h; exact ⟨by decide, by decide, h⟩
  | HDG_LIM_MISC_DIR_LIMIT => change (0x780030 : Nat) ≤ a ∧ a < 0x780034 ∧ 0 ≤ j ∧ j ≤ 7; obtain ⟨rfl, h⟩ := h; exact ⟨by decide, by decide, h⟩
  | HDG_MEAS_SPEED_COUNT => change (0x780050 : Nat) ≤ a ∧ a < 0x780054 ∧ 0 ≤ j ∧ j ≤ 15; obtain ⟨rfl, h⟩ := h; exact ⟨by decide, by decide, h⟩
  | HDG_MEAS_TILT_CODE => change (0x780054 : Nat) ≤ a ∧ a < 0x780058 ∧ 0 ≤ j ∧ j ≤ 9; obtain ⟨rfl, h⟩ := h; exact ⟨by decide, by decide, h⟩
  | HDG_MEAS_RC_ERR => change (0x780058 : Nat) ≤ a ∧ a < 0x78005c ∧ 0 ≤ j ∧ j ≤ 15; obtain ⟨rfl, h⟩ := h; exact ⟨by decide, by decide, h⟩
  | HDG_ENERGY_MAX_SUM => change (0x780068 : Nat) ≤ a ∧ a < 0x78006c ∧ 0 ≤ j ∧ j ≤ 31; obtain ⟨rfl, h⟩ := h; exact ⟨by decide, by decide, h⟩
  | HDG_CNT_TRIP_COUNT => change (0x780080 : Nat) ≤ a ∧ a < 0x780084 ∧ 0 ≤ j ∧ j ≤ 31; obtain ⟨rfl, h⟩ := h; exact ⟨by decide, by decide, h⟩
  | HDG_CNT_BLANK_COUNT => change (0x780084 : Nat) ≤ a ∧ a < 0x780088 ∧ 0 ≤ j ∧ j ≤ 31; obtain ⟨rfl, h⟩ := h; exact ⟨by decide, by decide, h⟩
  | HDG_CNT_RST_REF_COUNT => change (0x780088 : Nat) ≤ a ∧ a < 0x78008c ∧ 0 ≤ j ∧ j ≤ 31; obtain ⟨rfl, h⟩ := h; exact ⟨by decide, by decide, h⟩
  | HDG_CNT_ENC_ERR_COUNT => change (0x78008c : Nat) ≤ a ∧ a < 0x780090 ∧ 0 ≤ j ∧ j ≤ 31; obtain ⟨rfl, h⟩ := h; exact ⟨by decide, by decide, h⟩
  | MER_CTRL_EN => change (0x800000 : Nat) ≤ a ∧ a < 0x800004 ∧ 0 ≤ j ∧ j ≤ 0; obtain ⟨rfl, h⟩ := h; exact ⟨by decide, by decide, h⟩
  | MER_STATUS_UNITS_OK => change (0x800004 : Nat) ≤ a ∧ a < 0x800008 ∧ 24 ≤ j ∧ j ≤ 31; obtain ⟨rfl, h⟩ := h; exact ⟨by decide, by decide, h⟩
  | MER_STATUS_PC_WAIT => change (0x800004 : Nat) ≤ a ∧ a < 0x800008 ∧ 13 ≤ j ∧ j ≤ 13; obtain ⟨rfl, h⟩ := h; exact ⟨by decide, by decide, h⟩
  | MER_STATUS_AS_HOLD => change (0x800004 : Nat) ≤ a ∧ a < 0x800008 ∧ 12 ≤ j ∧ j ≤ 12; obtain ⟨rfl, h⟩ := h; exact ⟨by decide, by decide, h⟩
  | MER_STATUS_ID_CONFLICT => change (0x800004 : Nat) ≤ a ∧ a < 0x800008 ∧ 11 ≤ j ∧ j ≤ 11; obtain ⟨rfl, h⟩ := h; exact ⟨by decide, by decide, h⟩
  | MER_STATUS_MASTER => change (0x800004 : Nat) ≤ a ∧ a < 0x800008 ∧ 10 ≤ j ∧ j ≤ 10; obtain ⟨rfl, h⟩ := h; exact ⟨by decide, by decide, h⟩
  | MER_STATUS_ID => change (0x800004 : Nat) ≤ a ∧ a < 0x800008 ∧ 7 ≤ j ∧ j ≤ 9; obtain ⟨rfl, h⟩ := h; exact ⟨by decide, by decide, h⟩
  | MER_STATUS_STATE => change (0x800004 : Nat) ≤ a ∧ a < 0x800008 ∧ 0 ≤ j ∧ j ≤ 2; obtain ⟨rfl, h⟩ := h; exact ⟨by decide, by decide, h⟩
  | MER_DELAY_D16 => change (0x800018 : Nat) ≤ a ∧ a < 0x80001c ∧ 0 ≤ j ∧ j ≤ 23; obtain ⟨rfl, h⟩ := h; exact ⟨by decide, by decide, h⟩
  | MER_PHASE_STEPS => change (0x80001c : Nat) ≤ a ∧ a < 0x800020 ∧ 16 ≤ j ∧ j ≤ 31; obtain ⟨rfl, h⟩ := h; exact ⟨by decide, by decide, h⟩
  | MER_PHASE_PHI => change (0x80001c : Nat) ≤ a ∧ a < 0x800020 ∧ 0 ≤ j ∧ j ≤ 15; obtain ⟨rfl, h⟩ := h; exact ⟨by decide, by decide, h⟩
  | w_MER_RT => change (0x800020 : Nat) ≤ a ∧ a < 0x800040 ∧ 0 ≤ j ∧ j ≤ 31; obtain ⟨i, rfl⟩ := h; simp only [R.MER_RT]; omega
  | MER_RT_VALID => change (0x800020 : Nat) ≤ a ∧ a < 0x800040 ∧ 31 ≤ j ∧ j ≤ 31; obtain ⟨i, rfl, h⟩ := h; simp only [F.MER_RT_VALID, R.MER_RT] at h ⊢; omega
  | MER_RT_D16 => change (0x800020 : Nat) ≤ a ∧ a < 0x800040 ∧ 0 ≤ j ∧ j ≤ 23; obtain ⟨i, rfl, h⟩ := h; simp only [F.MER_RT_D16, R.MER_RT] at h ⊢; omega
  | MER_CNT_FRAME_ERR_COUNT => change (0x800040 : Nat) ≤ a ∧ a < 0x800044 ∧ 0 ≤ j ∧ j ≤ 31; obtain ⟨rfl, h⟩ := h; exact ⟨by decide, by decide, h⟩
  | MER_CNT_LATE_COUNT => change (0x800044 : Nat) ≤ a ∧ a < 0x800048 ∧ 0 ≤ j ∧ j ≤ 31; obtain ⟨rfl, h⟩ := h; exact ⟨by decide, by decide, h⟩
  | MER_CAP_CTRL_CONT => change (0x801000 : Nat) ≤ a ∧ a < 0x801004 ∧ 1 ≤ j ∧ j ≤ 1; obtain ⟨rfl, h⟩ := h; exact ⟨by decide, by decide, h⟩
  | MER_CAP_CTRL_EN => change (0x801000 : Nat) ≤ a ∧ a < 0x801004 ∧ 0 ≤ j ∧ j ≤ 0; obtain ⟨rfl, h⟩ := h; exact ⟨by decide, by decide, h⟩
  | MER_CAP_STATUS_PENDING_ENABLE => change (0x801004 : Nat) ≤ a ∧ a < 0x801008 ∧ 18 ≤ j ∧ j ≤ 18; obtain ⟨rfl, h⟩ := h; exact ⟨by decide, by decide, h⟩
  | MER_CAP_STATUS_DONE => change (0x801004 : Nat) ≤ a ∧ a < 0x801008 ∧ 17 ≤ j ∧ j ≤ 17; obtain ⟨rfl, h⟩ := h; exact ⟨by decide, by decide, h⟩
  | MER_CAP_STATUS_ARMED => change (0x801004 : Nat) ≤ a ∧ a < 0x801008 ∧ 16 ≤ j ∧ j ≤ 16; obtain ⟨rfl, h⟩ := h; exact ⟨by decide, by decide, h⟩
  | MER_CAP_STATUS_SEG => change (0x801004 : Nat) ≤ a ∧ a < 0x801008 ∧ 0 ≤ j ∧ j ≤ 8; obtain ⟨rfl, h⟩ := h; exact ⟨by decide, by decide, h⟩
  | MER_CAP_WPTR_OFS => change (0x80102c : Nat) ≤ a ∧ a < 0x801030 ∧ 0 ≤ j ∧ j ≤ 31; obtain ⟨rfl, h⟩ := h; exact ⟨by decide, by decide, h⟩
  | MER_CAPTURE_DROP_COUNT => change (0x801034 : Nat) ≤ a ∧ a < 0x801038 ∧ 0 ≤ j ∧ j ≤ 31; obtain ⟨rfl, h⟩ := h; exact ⟨by decide, by decide, h⟩
  | MER_CAP_DROP_CAUSE_SHUTDOWN => change (0x801038 : Nat) ≤ a ∧ a < 0x80103c ∧ 2 ≤ j ∧ j ≤ 2; obtain ⟨rfl, h⟩ := h; exact ⟨by decide, by decide, h⟩
  | MER_CAP_DROP_CAUSE_RING => change (0x801038 : Nat) ≤ a ∧ a < 0x80103c ∧ 1 ≤ j ∧ j ≤ 1; obtain ⟨rfl, h⟩ := h; exact ⟨by decide, by decide, h⟩
  | MER_CAP_DROP_CAUSE_QUEUE => change (0x801038 : Nat) ≤ a ∧ a < 0x80103c ∧ 0 ≤ j ∧ j ≤ 0; obtain ⟨rfl, h⟩ := h; exact ⟨by decide, by decide, h⟩
  | MER_CAP_REJ_SEG_COUNT => change (0x80103c : Nat) ≤ a ∧ a < 0x801040 ∧ 0 ≤ j ∧ j ≤ 31; obtain ⟨rfl, h⟩ := h; exact ⟨by decide, by decide, h⟩
  | MER_CAP_RECORDS_COUNT => change (0x801040 : Nat) ≤ a ∧ a < 0x801044 ∧ 0 ≤ j ∧ j ≤ 31; obtain ⟨rfl, h⟩ := h; exact ⟨by decide, by decide, h⟩
  | SXT_CTRL_EN => change (0x880000 : Nat) ≤ a ∧ a < 0x880004 ∧ 0 ≤ j ∧ j ≤ 0; obtain ⟨rfl, h⟩ := h; exact ⟨by decide, by decide, h⟩
  | SXT_STATUS_CDT_BUSY => change (0x880004 : Nat) ≤ a ∧ a < 0x880008 ∧ 9 ≤ j ∧ j ≤ 9; obtain ⟨rfl, h⟩ := h; exact ⟨by decide, by decide, h⟩
  | SXT_STATUS_PENDING_ENABLE => change (0x880004 : Nat) ≤ a ∧ a < 0x880008 ∧ 8 ≤ j ∧ j ≤ 8; obtain ⟨rfl, h⟩ := h; exact ⟨by decide, by decide, h⟩
  | SXT_STATUS_GATE_EDGE => change (0x880004 : Nat) ≤ a ∧ a < 0x880008 ∧ 7 ≤ j ∧ j ≤ 7; obtain ⟨rfl, h⟩ := h; exact ⟨by decide, by decide, h⟩
  | SXT_STATUS_DONE => change (0x880004 : Nat) ≤ a ∧ a < 0x880008 ∧ 6 ≤ j ∧ j ≤ 6; obtain ⟨rfl, h⟩ := h; exact ⟨by decide, by decide, h⟩
  | SXT_STATUS_ARMED => change (0x880004 : Nat) ≤ a ∧ a < 0x880008 ∧ 5 ≤ j ∧ j ≤ 5; obtain ⟨rfl, h⟩ := h; exact ⟨by decide, by decide, h⟩
  | SXT_STATUS_BUSY => change (0x880004 : Nat) ≤ a ∧ a < 0x880008 ∧ 4 ≤ j ∧ j ≤ 4; obtain ⟨rfl, h⟩ := h; exact ⟨by decide, by decide, h⟩
  | SXT_CFG_GATE_SRC => change (0x880008 : Nat) ≤ a ∧ a < 0x88000c ∧ 8 ≤ j ∧ j ≤ 9; obtain ⟨rfl, h⟩ := h; exact ⟨by decide, by decide, h⟩
  | SXT_CFG_STOP_SRC => change (0x880008 : Nat) ≤ a ∧ a < 0x88000c ∧ 4 ≤ j ∧ j ≤ 5; obtain ⟨rfl, h⟩ := h; exact ⟨by decide, by decide, h⟩
  | SXT_CFG_START_SRC => change (0x880008 : Nat) ≤ a ∧ a < 0x88000c ∧ 0 ≤ j ∧ j ≤ 1; obtain ⟨rfl, h⟩ := h; exact ⟨by decide, by decide, h⟩
  | SXT_COUNT_MISS => change (0x880020 : Nat) ≤ a ∧ a < 0x880024 ∧ 16 ≤ j ∧ j ≤ 31; obtain ⟨rfl, h⟩ := h; exact ⟨by decide, by decide, h⟩
  | SXT_COUNT_VALID => change (0x880020 : Nat) ≤ a ∧ a < 0x880024 ∧ 0 ≤ j ∧ j ≤ 15; obtain ⟨rfl, h⟩ := h; exact ⟨by decide, by decide, h⟩
  | SXT_MEAN_LO_MEAN => change (0x880024 : Nat) ≤ a ∧ a < 0x880028 ∧ 0 ≤ j ∧ j ≤ 31; obtain ⟨rfl, h⟩ := h; exact ⟨by decide, by decide, h⟩
  | SXT_MEAN_HI_MEAN => change (0x880028 : Nat) ≤ a ∧ a < 0x88002c ∧ 0 ≤ j ∧ j ≤ 7; obtain ⟨rfl, h⟩ := h; exact ⟨by decide, by decide, h⟩
  | SXT_SD_SD => change (0x88002c : Nat) ≤ a ∧ a < 0x880030 ∧ 0 ≤ j ∧ j ≤ 31; obtain ⟨rfl, h⟩ := h; exact ⟨by decide, by decide, h⟩
  | SXT_MIN_MIN => change (0x880030 : Nat) ≤ a ∧ a < 0x880034 ∧ 0 ≤ j ∧ j ≤ 31; obtain ⟨rfl, h⟩ := h; exact ⟨by decide, by decide, h⟩
  | SXT_MAX_MAX => change (0x880034 : Nat) ≤ a ∧ a < 0x880038 ∧ 0 ≤ j ∧ j ≤ 31; obtain ⟨rfl, h⟩ := h; exact ⟨by decide, by decide, h⟩
  | SXT_LAST_T => change (0x880038 : Nat) ≤ a ∧ a < 0x88003c ∧ 0 ≤ j ∧ j ≤ 31; obtain ⟨rfl, h⟩ := h; exact ⟨by decide, by decide, h⟩
  | w_SXT_CDT_START => change (0x880100 : Nat) ≤ a ∧ a < 0x880180 ∧ 0 ≤ j ∧ j ≤ 31; obtain ⟨i, rfl⟩ := h; simp only [R.SXT_CDT_START]; omega
  | w_SXT_CDT_STOP => change (0x880180 : Nat) ≤ a ∧ a < 0x880200 ∧ 0 ≤ j ∧ j ≤ 31; obtain ⟨i, rfl⟩ := h; simp only [R.SXT_CDT_STOP]; omega
  | ADC_CTRL_EN => change (0x900000 : Nat) ≤ a ∧ a < 0x900004 ∧ 0 ≤ j ∧ j ≤ 0; obtain ⟨rfl, h⟩ := h; exact ⟨by decide, by decide, h⟩
  | ADC_STATUS_HOST_URG_DONE => change (0x900004 : Nat) ≤ a ∧ a < 0x900008 ∧ 10 ≤ j ∧ j ≤ 10; obtain ⟨rfl, h⟩ := h; exact ⟨by decide, by decide, h⟩
  | ADC_STATUS_HOST_URG_BUSY => change (0x900004 : Nat) ≤ a ∧ a < 0x900008 ∧ 9 ≤ j ∧ j ≤ 9; obtain ⟨rfl, h⟩ := h; exact ⟨by decide, by decide, h⟩
  | ADC_STATUS_RUNNING => change (0x900004 : Nat) ≤ a ∧ a < 0x900008 ∧ 8 ≤ j ∧ j ≤ 8; obtain ⟨rfl, h⟩ := h; exact ⟨by decide, by decide, h⟩
  | ADC_STATUS_ENTRY => change (0x900004 : Nat) ≤ a ∧ a < 0x900008 ∧ 0 ≤ j ∧ j ≤ 4; obtain ⟨rfl, h⟩ := h; exact ⟨by decide, by decide, h⟩
  | ADC_URGENT_INPUT => change (0x900018 : Nat) ≤ a ∧ a < 0x90001c ∧ 0 ≤ j ∧ j ≤ 4; obtain ⟨rfl, h⟩ := h; exact ⟨by decide, by decide, h⟩
  | w_ADC_URG_RESULT => change (0x90001c : Nat) ≤ a ∧ a < 0x900020 ∧ 0 ≤ j ∧ j ≤ 31; obtain rfl := h; exact ⟨by decide, by decide, Nat.zero_le _, hj⟩
  | ADC_OVR_STATUS_OVR => change (0x900020 : Nat) ≤ a ∧ a < 0x900024 ∧ 0 ≤ j ∧ j ≤ 23; obtain ⟨rfl, h⟩ := h; exact ⟨by decide, by decide, h⟩
  | ADC_FLAP_STATUS_FLAP => change (0x900024 : Nat) ≤ a ∧ a < 0x900028 ∧ 0 ≤ j ∧ j ≤ 7; obtain ⟨rfl, h⟩ := h; exact ⟨by decide, by decide, h⟩
  | ADC_EXC_STATUS_FAULT => change (0x900028 : Nat) ≤ a ∧ a < 0x90002c ∧ 0 ≤ j ∧ j ≤ 7; obtain ⟨rfl, h⟩ := h; exact ⟨by decide, by decide, h⟩
  | ADC_CNT_DISCARD_COUNT => change (0x90002c : Nat) ≤ a ∧ a < 0x900030 ∧ 0 ≤ j ∧ j ≤ 31; obtain ⟨rfl, h⟩ := h; exact ⟨by decide, by decide, h⟩
  | w_ADC_LAST => change (0x900200 : Nat) ≤ a ∧ a < 0x900260 ∧ 0 ≤ j ∧ j ≤ 31; obtain ⟨i, rfl⟩ := h; simp only [R.ADC_LAST]; omega
  | w_ADC_FE_CFG => change (0x900400 : Nat) ≤ a ∧ a < 0x900474 ∧ 0 ≤ j ∧ j ≤ 31; obtain ⟨i, rfl⟩ := h; simp only [R.ADC_FE_CFG]; omega
  | w_ADC_FE_PULSE => change (0x900404 : Nat) ≤ a ∧ a < 0x900478 ∧ 0 ≤ j ∧ j ≤ 31; obtain ⟨i, rfl⟩ := h; simp only [R.ADC_FE_PULSE]; omega
  | w_ADC_FE_SWAP => change (0x900408 : Nat) ≤ a ∧ a < 0x90047c ∧ 0 ≤ j ∧ j ≤ 31; obtain ⟨i, rfl⟩ := h; simp only [R.ADC_FE_SWAP]; omega
  | ADC_FE_STATUS_EXC_FLAP => change (0x90040c : Nat) ≤ a ∧ a < 0x900480 ∧ 8 ≤ j ∧ j ≤ 8; obtain ⟨i, rfl, h⟩ := h; simp only [F.ADC_FE_STATUS_EXC_FLAP, R.ADC_FE_STATUS] at h ⊢; omega
  | ADC_FE_STATUS_IN_WINDOW => change (0x90040c : Nat) ≤ a ∧ a < 0x900480 ∧ 7 ≤ j ∧ j ≤ 7; obtain ⟨i, rfl, h⟩ := h; simp only [F.ADC_FE_STATUS_IN_WINDOW, R.ADC_FE_STATUS] at h ⊢; omega
  | ADC_FE_STATUS_SWAP => change (0x90040c : Nat) ≤ a ∧ a < 0x900480 ∧ 6 ≤ j ∧ j ≤ 6; obtain ⟨i, rfl, h⟩ := h; simp only [F.ADC_FE_STATUS_SWAP, R.ADC_FE_STATUS] at h ⊢; omega
  | ADC_FE_STATUS_RANGE_FLAP => change (0x90040c : Nat) ≤ a ∧ a < 0x900480 ∧ 5 ≤ j ∧ j ≤ 5; obtain ⟨i, rfl, h⟩ := h; simp only [F.ADC_FE_STATUS_RANGE_FLAP, R.ADC_FE_STATUS] at h ⊢; omega
  | ADC_FE_STATUS_EXC_FAULT => change (0x90040c : Nat) ≤ a ∧ a < 0x900480 ∧ 4 ≤ j ∧ j ≤ 4; obtain ⟨i, rfl, h⟩ := h; simp only [F.ADC_FE_STATUS_EXC_FAULT, R.ADC_FE_STATUS] at h ⊢; omega
  | ADC_FE_STATUS_NO_WINDOW => change (0x90040c : Nat) ≤ a ∧ a < 0x900480 ∧ 3 ≤ j ∧ j ≤ 3; obtain ⟨i, rfl, h⟩ := h; simp only [F.ADC_FE_STATUS_NO_WINDOW, R.ADC_FE_STATUS] at h ⊢; omega
  | ADC_FE_STATUS_SETTLING => change (0x90040c : Nat) ≤ a ∧ a < 0x900480 ∧ 2 ≤ j ∧ j ≤ 2; obtain ⟨i, rfl, h⟩ := h; simp only [F.ADC_FE_STATUS_SETTLING, R.ADC_FE_STATUS] at h ⊢; omega
  | ADC_FE_STATUS_RANGE => change (0x90040c : Nat) ≤ a ∧ a < 0x900480 ∧ 0 ≤ j ∧ j ≤ 1; obtain ⟨i, rfl, h⟩ := h; simp only [F.ADC_FE_STATUS_RANGE, R.ADC_FE_STATUS] at h ⊢; omega
  | CAL_STATUS_RZ_FLAP => change (0xa00000 : Nat) ≤ a ∧ a < 0xa00004 ∧ 16 ≤ j ∧ j ≤ 16; obtain ⟨rfl, h⟩ := h; exact ⟨by decide, by decide, h⟩
  | CAL_STATUS_LEG_ACTIVE => change (0xa00000 : Nat) ≤ a ∧ a < 0xa00004 ∧ 15 ≤ j ∧ j ≤ 15; obtain ⟨rfl, h⟩ := h; exact ⟨by decide, by decide, h⟩
  | CAL_STATUS_SHADOW_OK => change (0xa00000 : Nat) ≤ a ∧ a < 0xa00004 ∧ 14 ≤ j ∧ j ≤ 14; obtain ⟨rfl, h⟩ := h; exact ⟨by decide, by decide, h⟩
  | CAL_STATUS_RERUN_PENDING => change (0xa00000 : Nat) ≤ a ∧ a < 0xa00004 ∧ 13 ≤ j ∧ j ≤ 13; obtain ⟨rfl, h⟩ := h; exact ⟨by decide, by decide, h⟩
  | CAL_STATUS_JRN_BUSY => change (0xa00000 : Nat) ≤ a ∧ a < 0xa00004 ∧ 12 ≤ j ∧ j ≤ 12; obtain ⟨rfl, h⟩ := h; exact ⟨by decide, by decide, h⟩
  | CAL_STATUS_BUSY => change (0xa00000 : Nat) ≤ a ∧ a < 0xa00004 ∧ 11 ≤ j ∧ j ≤ 11; obtain ⟨rfl, h⟩ := h; exact ⟨by decide, by decide, h⟩
  | CAL_STATUS_ITEM => change (0xa00000 : Nat) ≤ a ∧ a < 0xa00004 ∧ 8 ≤ j ∧ j ≤ 10; obtain ⟨rfl, h⟩ := h; exact ⟨by decide, by decide, h⟩
  | CAL_STATUS_PLAN => change (0xa00000 : Nat) ≤ a ∧ a < 0xa00004 ∧ 0 ≤ j ∧ j ≤ 3; obtain ⟨rfl, h⟩ := h; exact ⟨by decide, by decide, h⟩
  | CAL_RZ_LAT_LAT0 => change (0xa00018 : Nat) ≤ a ∧ a < 0xa0001c ∧ 0 ≤ j ∧ j ≤ 31; obtain ⟨rfl, h⟩ := h; exact ⟨by decide, by decide, h⟩
  | CAL_RESULT_QUALITY => change (0xa00020 : Nat) ≤ a ∧ a < 0xa00024 ∧ 24 ≤ j ∧ j ≤ 31; obtain ⟨rfl, h⟩ := h; exact ⟨by decide, by decide, h⟩
  | CAL_RESULT_ITEM => change (0xa00020 : Nat) ≤ a ∧ a < 0xa00024 ∧ 21 ≤ j ∧ j ≤ 23; obtain ⟨rfl, h⟩ := h; exact ⟨by decide, by decide, h⟩
  | CAL_RESULT_REJECTS => change (0xa00020 : Nat) ≤ a ∧ a < 0xa00024 ∧ 11 ≤ j ∧ j ≤ 20; obtain ⟨rfl, h⟩ := h; exact ⟨by decide, by decide, h⟩
  | CAL_RESULT_FIRST => change (0xa00020 : Nat) ≤ a ∧ a < 0xa00024 ∧ 0 ≤ j ∧ j ≤ 10; obtain ⟨rfl, h⟩ := h; exact ⟨by decide, by decide, h⟩
  | w_CAL_LAST_CD => change (0xa00024 : Nat) ≤ a ∧ a < 0xa00028 ∧ 0 ≤ j ∧ j ≤ 31; obtain rfl := h; exact ⟨by decide, by decide, Nat.zero_le _, hj⟩
  | CAL_LAST_CD_AGE => change (0xa00024 : Nat) ≤ a ∧ a < 0xa00028 ∧ 16 ≤ j ∧ j ≤ 31; obtain ⟨rfl, h⟩ := h; exact ⟨by decide, by decide, h⟩
  | CAL_LAST_CD_TEMP => change (0xa00024 : Nat) ≤ a ∧ a < 0xa00028 ∧ 0 ≤ j ∧ j ≤ 15; obtain ⟨rfl, h⟩ := h; exact ⟨by decide, by decide, h⟩
  | w_CAL_LAST_RZ => change (0xa00028 : Nat) ≤ a ∧ a < 0xa0002c ∧ 0 ≤ j ∧ j ≤ 31; obtain rfl := h; exact ⟨by decide, by decide, Nat.zero_le _, hj⟩
  | CAL_LAST_RZ_AGE => change (0xa00028 : Nat) ≤ a ∧ a < 0xa0002c ∧ 16 ≤ j ∧ j ≤ 31; obtain ⟨rfl, h⟩ := h; exact ⟨by decide, by decide, h⟩
  | CAL_LAST_RZ_TEMP => change (0xa00028 : Nat) ≤ a ∧ a < 0xa0002c ∧ 0 ≤ j ∧ j ≤ 15; obtain ⟨rfl, h⟩ := h; exact ⟨by decide, by decide, h⟩
  | CAL_JRN_STATUS_SEQ => change (0xa00034 : Nat) ≤ a ∧ a < 0xa00038 ∧ 8 ≤ j ∧ j ≤ 31; obtain ⟨rfl, h⟩ := h; exact ⟨by decide, by decide, h⟩
  | CAL_JRN_STATUS_PENDING => change (0xa00034 : Nat) ≤ a ∧ a < 0xa00038 ∧ 3 ≤ j ∧ j ≤ 3; obtain ⟨rfl, h⟩ := h; exact ⟨by decide, by decide, h⟩
  | CAL_JRN_STATUS_FAIL => change (0xa00034 : Nat) ≤ a ∧ a < 0xa00038 ∧ 2 ≤ j ∧ j ≤ 2; obtain ⟨rfl, h⟩ := h; exact ⟨by decide, by decide, h⟩
  | CAL_JRN_STATUS_SLOT => change (0xa00034 : Nat) ≤ a ∧ a < 0xa00038 ∧ 1 ≤ j ∧ j ≤ 1; obtain ⟨rfl, h⟩ := h; exact ⟨by decide, by decide, h⟩
  | CAL_JRN_STATUS_VALID => change (0xa00034 : Nat) ≤ a ∧ a < 0xa00038 ∧ 0 ≤ j ∧ j ≤ 0; obtain ⟨rfl, h⟩ := h; exact ⟨by decide, by decide, h⟩
  | CAL_LEG_TEMP_TEMP => change (0xa00048 : Nat) ≤ a ∧ a < 0xa00058 ∧ 0 ≤ j ∧ j ≤ 15; obtain ⟨i, rfl, h⟩ := h; simp only [F.CAL_LEG_TEMP_TEMP, R.CAL_LEG_TEMP] at h ⊢; omega
  | CAL_LEG_STATUS_LOADED => change (0xa00058 : Nat) ≤ a ∧ a < 0xa0005c ∧ 0 ≤ j ∧ j ≤ 15; obtain ⟨rfl, h⟩ := h; exact ⟨by decide, by decide, h⟩
  | CAL_FUSE_STATUS_SPARES_FREE => change (0xa00070 : Nat) ≤ a ∧ a < 0xa00074 ∧ 8 ≤ j ∧ j ≤ 11; obtain ⟨rfl, h⟩ := h; exact ⟨by decide, by decide, h⟩
  | CAL_FUSE_STATUS_RESULT => change (0xa00070 : Nat) ≤ a ∧ a < 0xa00074 ∧ 1 ≤ j ∧ j ≤ 2; obtain ⟨rfl, h⟩ := h; exact ⟨by decide, by decide, h⟩
  | CAL_FUSE_STATUS_BUSY => change (0xa00070 : Nat) ≤ a ∧ a < 0xa00074 ∧ 0 ≤ j ∧ j ≤ 0; obtain ⟨rfl, h⟩ := h; exact ⟨by decide, by decide, h⟩
  | CAL_LEG_BOFS_BOFS => change (0xa04000 : Nat) ≤ a ∧ a < 0xa05200 ∧ 0 ≤ j ∧ j ≤ 31; obtain ⟨i, rfl, h⟩ := h; simp only [F.CAL_LEG_BOFS_BOFS, R.CAL_LEG_BOFS] at h ⊢; omega
  | THM_STATUS_HOTTEST => change (0xa80000 : Nat) ≤ a ∧ a < 0xa80004 ∧ 16 ≤ j ∧ j ≤ 20; obtain ⟨rfl, h⟩ := h; exact ⟨by decide, by decide, h⟩
  | THM_STATUS_FLAP => change (0xa80000 : Nat) ≤ a ∧ a < 0xa80004 ∧ 11 ≤ j ∧ j ≤ 11; obtain ⟨rfl, h⟩ := h; exact ⟨by decide, by decide, h⟩
  | THM_STATUS_RZ_STALE => change (0xa80000 : Nat) ≤ a ∧ a < 0xa80004 ∧ 10 ≤ j ∧ j ≤ 10; obtain ⟨rfl, h⟩ := h; exact ⟨by decide, by decide, h⟩
  | THM_STATUS_THROTTLE => change (0xa80000 : Nat) ≤ a ∧ a < 0xa80004 ∧ 9 ≤ j ∧ j ≤ 9; obtain ⟨rfl, h⟩ := h; exact ⟨by decide, by decide, h⟩
  | THM_STATUS_DERATE_SRC => change (0xa80000 : Nat) ≤ a ∧ a < 0xa80004 ∧ 8 ≤ j ∧ j ≤ 8; obtain ⟨rfl, h⟩ := h; exact ⟨by decide, by decide, h⟩
  | THM_STATUS_IND => change (0xa80000 : Nat) ≤ a ∧ a < 0xa80004 ∧ 4 ≤ j ∧ j ≤ 6; obtain ⟨rfl, h⟩ := h; exact ⟨by decide, by decide, h⟩
  | THM_STATUS_STAGE => change (0xa80000 : Nat) ≤ a ∧ a < 0xa80004 ∧ 0 ≤ j ∧ j ≤ 2; obtain ⟨rfl, h⟩ := h; exact ⟨by decide, by decide, h⟩
  | THM_T_STAGE_T_RZ => change (0xa80004 : Nat) ≤ a ∧ a < 0xa80008 ∧ 16 ≤ j ∧ j ≤ 31; obtain ⟨rfl, h⟩ := h; exact ⟨by decide, by decide, h⟩
  | THM_T_STAGE_T_STAGE => change (0xa80004 : Nat) ≤ a ∧ a < 0xa80008 ∧ 0 ≤ j ∧ j ≤ 15; obtain ⟨rfl, h⟩ := h; exact ⟨by decide, by decide, h⟩
  | THM_SNS_CTRL_SENSOR => change (0xa80034 : Nat) ≤ a ∧ a < 0xa80038 ∧ 0 ≤ j ∧ j ≤ 4; obtain ⟨rfl, h⟩ := h; exact ⟨by decide, by decide, h⟩
  | THM_RETIRED_MASK => change (0xa80038 : Nat) ≤ a ∧ a < 0xa8003c ∧ 0 ≤ j ∧ j ≤ 23; obtain ⟨rfl, h⟩ := h; exact ⟨by decide, by decide, h⟩
  | w_THM_TRIP_REC => change (0xa8003c : Nat) ≤ a ∧ a < 0xa80040 ∧ 0 ≤ j ∧ j ≤ 31; obtain rfl := h; exact ⟨by decide, by decide, Nat.zero_le _, hj⟩
  | THM_TRIP_REC_VALID => change (0xa8003c : Nat) ≤ a ∧ a < 0xa80040 ∧ 31 ≤ j ∧ j ≤ 31; obtain ⟨rfl, h⟩ := h; exact ⟨by decide, by decide, h⟩
  | THM_TRIP_REC_SENSOR => change (0xa8003c : Nat) ≤ a ∧ a < 0xa80040 ∧ 16 ≤ j ∧ j ≤ 20; obtain ⟨rfl, h⟩ := h; exact ⟨by decide, by decide, h⟩
  | THM_TRIP_REC_TEMP => change (0xa8003c : Nat) ≤ a ∧ a < 0xa80040 ∧ 0 ≤ j ∧ j ≤ 15; obtain ⟨rfl, h⟩ := h; exact ⟨by decide, by decide, h⟩
  | THM_SNS_T_USED => change (0xa80100 : Nat) ≤ a ∧ a < 0xa801bc ∧ 16 ≤ j ∧ j ≤ 31; obtain ⟨i, rfl, h⟩ := h; simp only [F.THM_SNS_T_USED, R.THM_SNS_T] at h ⊢; omega
  | THM_SNS_T_RAW => change (0xa80100 : Nat) ≤ a ∧ a < 0xa801bc ∧ 0 ≤ j ∧ j ≤ 15; obtain ⟨i, rfl, h⟩ := h; simp only [F.THM_SNS_T_RAW, R.THM_SNS_T] at h ⊢; omega
  | THM_SNS_ST_STATE => change (0xa80104 : Nat) ≤ a ∧ a < 0xa801c0 ∧ 4 ≤ j ∧ j ≤ 5; obtain ⟨i, rfl, h⟩ := h; simp only [F.THM_SNS_ST_STATE, R.THM_SNS_ST] at h ⊢; omega
  | THM_SNS_ST_FAST => change (0xa80104 : Nat) ≤ a ∧ a < 0xa801c0 ∧ 3 ≤ j ∧ j ≤ 3; obtain ⟨i, rfl, h⟩ := h; simp only [F.THM_SNS_ST_FAST, R.THM_SNS_ST] at h ⊢; omega
  | THM_SNS_ST_CAUSE => change (0xa80104 : Nat) ≤ a ∧ a < 0xa801c0 ∧ 0 ≤ j ∧ j ≤ 2; obtain ⟨i, rfl, h⟩ := h; simp only [F.THM_SNS_ST_CAUSE, R.THM_SNS_ST] at h ⊢; omega
  | THM_RAIL_MEAS => change (0xa80200 : Nat) ≤ a ∧ a < 0xa80218 ∧ 16 ≤ j ∧ j ≤ 31; obtain ⟨i, rfl, h⟩ := h; simp only [F.THM_RAIL_MEAS, R.THM_RAIL] at h ⊢; omega
  | THM_RAIL_OV => change (0xa80200 : Nat) ≤ a ∧ a < 0xa80218 ∧ 1 ≤ j ∧ j ≤ 1; obtain ⟨i, rfl, h⟩ := h; simp only [F.THM_RAIL_OV, R.THM_RAIL] at h ⊢; omega
  | THM_RAIL_UV => change (0xa80200 : Nat) ≤ a ∧ a < 0xa80218 ∧ 0 ≤ j ∧ j ≤ 0; obtain ⟨i, rfl, h⟩ := h; simp only [F.THM_RAIL_UV, R.THM_RAIL] at h ⊢; omega
  | THM_RO_COUNT => change (0xa80280 : Nat) ≤ a ∧ a < 0xa802a0 ∧ 0 ≤ j ∧ j ≤ 15; obtain ⟨i, rfl, h⟩ := h; simp only [F.THM_RO_COUNT, R.THM_RO] at h ⊢; omega
  | MEM_CTRL_SR => change (0xb00000 : Nat) ≤ a ∧ a < 0xb00004 ∧ 1 ≤ j ∧ j ≤ 1; obtain ⟨rfl, h⟩ := h; exact ⟨by decide, by decide, h⟩
  | MEM_CTRL_EN => change (0xb00000 : Nat) ≤ a ∧ a < 0xb00004 ∧ 0 ≤ j ∧ j ≤ 0; obtain ⟨rfl, h⟩ := h; exact ⟨by decide, by decide, h⟩
  | MEM_STATUS_TEMP_HI => change (0xb00004 : Nat) ≤ a ∧ a < 0xb00008 ∧ 16 ≤ j ∧ j ≤ 19; obtain ⟨rfl, h⟩ := h; exact ⟨by decide, by decide, h⟩
  | MEM_STATUS_HOTSPOT => change (0xb00004 : Nat) ≤ a ∧ a < 0xb00008 ∧ 12 ≤ j ∧ j ≤ 15; obtain ⟨rfl, h⟩ := h; exact ⟨by decide, by decide, h⟩
  | MEM_STATUS_TEMP_FLAP => change (0xb00004 : Nat) ≤ a ∧ a < 0xb00008 ∧ 11 ≤ j ∧ j ≤ 11; obtain ⟨rfl, h⟩ := h; exact ⟨by decide, by decide, h⟩
  | MEM_STATUS_HOT_FLAP => change (0xb00004 : Nat) ≤ a ∧ a < 0xb00008 ∧ 10 ≤ j ∧ j ≤ 10; obtain ⟨rfl, h⟩ := h; exact ⟨by decide, by decide, h⟩
  | MEM_STATUS_PENDING_ENABLE => change (0xb00004 : Nat) ≤ a ∧ a < 0xb00008 ∧ 9 ≤ j ∧ j ≤ 9; obtain ⟨rfl, h⟩ := h; exact ⟨by decide, by decide, h⟩
  | MEM_STATUS_INIT_BUSY => change (0xb00004 : Nat) ≤ a ∧ a < 0xb00008 ∧ 8 ≤ j ∧ j ≤ 8; obtain ⟨rfl, h⟩ := h; exact ⟨by decide, by decide, h⟩
  | MEM_STATUS_STATE => change (0xb00004 : Nat) ≤ a ∧ a < 0xb00008 ∧ 0 ≤ j ∧ j ≤ 2; obtain ⟨rfl, h⟩ := h; exact ⟨by decide, by decide, h⟩
  | MEM_SIZE_MIB => change (0xb0000c : Nat) ≤ a ∧ a < 0xb00010 ∧ 0 ≤ j ∧ j ≤ 31; obtain ⟨rfl, h⟩ := h; exact ⟨by decide, by decide, h⟩
  | MEM_PORT_STATUS_FLAP => change (0xb00208 : Nat) ≤ a ∧ a < 0xb0027c ∧ 2 ≤ j ∧ j ≤ 2; obtain ⟨i, rfl, h⟩ := h; simp only [F.MEM_PORT_STATUS_FLAP, R.MEM_PORT_STATUS] at h ⊢; omega
  | MEM_PORT_STATUS_URGENT => change (0xb00208 : Nat) ≤ a ∧ a < 0xb0027c ∧ 1 ≤ j ∧ j ≤ 1; obtain ⟨i, rfl, h⟩ := h; simp only [F.MEM_PORT_STATUS_URGENT, R.MEM_PORT_STATUS] at h ⊢; omega
  | MEM_PORT_STATUS_PANIC => change (0xb00208 : Nat) ≤ a ∧ a < 0xb0027c ∧ 0 ≤ j ∧ j ≤ 0; obtain ⟨i, rfl, h⟩ := h; simp only [F.MEM_PORT_STATUS_PANIC, R.MEM_PORT_STATUS] at h ⊢; omega
  | MEM_PORT_CNT_BURSTS => change (0xb0020c : Nat) ≤ a ∧ a < 0xb00280 ∧ 0 ≤ j ∧ j ≤ 31; obtain ⟨i, rfl, h⟩ := h; simp only [F.MEM_PORT_CNT_BURSTS, R.MEM_PORT_CNT] at h ⊢; omega
  | MEM_CNT_REF_FORCED_COUNT => change (0xb00304 : Nat) ≤ a ∧ a < 0xb00308 ∧ 0 ≤ j ∧ j ≤ 31; obtain ⟨rfl, h⟩ := h; exact ⟨by decide, by decide, h⟩
  | MEM_DRAM_RATE_CODE => change (0xb00308 : Nat) ≤ a ∧ a < 0xb0030c ∧ 0 ≤ j ∧ j ≤ 15; obtain ⟨rfl, h⟩ := h; exact ⟨by decide, by decide, h⟩
  | MEM_HOT_BANK_LAST => change (0xb00324 : Nat) ≤ a ∧ a < 0xb00328 ∧ 0 ≤ j ∧ j ≤ 31; obtain ⟨rfl, h⟩ := h; exact ⟨by decide, by decide, h⟩
  | MEM_ECC_CE_CNT_COUNT => change (0xb00330 : Nat) ≤ a ∧ a < 0xb00334 ∧ 0 ≤ j ∧ j ≤ 31; obtain ⟨rfl, h⟩ := h; exact ⟨by decide, by decide, h⟩
  | MEM_ECC_UE_CNT_COUNT => change (0xb00338 : Nat) ≤ a ∧ a < 0xb0033c ∧ 0 ≤ j ∧ j ≤ 31; obtain ⟨rfl, h⟩ := h; exact ⟨by decide, by decide, h⟩
  | MEM_ECC_ADDR_LO_ADDR => change (0xb0033c : Nat) ≤ a ∧ a < 0xb00340 ∧ 0 ≤ j ∧ j ≤ 31; obtain ⟨rfl, h⟩ := h; exact ⟨by decide, by decide, h⟩
  | MEM_ECC_ADDR_HI_ADDR => change (0xb00340 : Nat) ≤ a ∧ a < 0xb00344 ∧ 0 ≤ j ∧ j ≤ 8; obtain ⟨rfl, h⟩ := h; exact ⟨by decide, by decide, h⟩
  | MEM_CNT_LINK_RETRY_COUNT => change (0xb00344 : Nat) ≤ a ∧ a < 0xb00348 ∧ 0 ≤ j ∧ j ≤ 31; obtain ⟨rfl, h⟩ := h; exact ⟨by decide, by decide, h⟩
  | MEM_ADDR_ERR_ADDR_ADDR => change (0xb00350 : Nat) ≤ a ∧ a < 0xb00354 ∧ 0 ≤ j ∧ j ≤ 31; obtain ⟨rfl, h⟩ := h; exact ⟨by decide, by decide, h⟩
  | MEM_ADDR_ERR_INFO_CAUSE => change (0xb00354 : Nat) ≤ a ∧ a < 0xb00358 ∧ 16 ≤ j ∧ j ≤ 19; obtain ⟨rfl, h⟩ := h; exact ⟨by decide, by decide, h⟩
  | MEM_ADDR_ERR_INFO_PORT => change (0xb00354 : Nat) ≤ a ∧ a < 0xb00358 ∧ 9 ≤ j ∧ j ≤ 11; obtain ⟨rfl, h⟩ := h; exact ⟨by decide, by decide, h⟩
  | MEM_ADDR_ERR_INFO_ADDR => change (0xb00354 : Nat) ≤ a ∧ a < 0xb00358 ∧ 0 ≤ j ∧ j ≤ 8; obtain ⟨rfl, h⟩ := h; exact ⟨by decide, by decide, h⟩
  | MEM_PB_WPTR_OFS => change (0xb0040c : Nat) ≤ a ∧ a < 0xb00410 ∧ 0 ≤ j ∧ j ≤ 31; obtain ⟨rfl, h⟩ := h; exact ⟨by decide, by decide, h⟩
  | MEM_PB_RPTR_OFS => change (0xb00410 : Nat) ≤ a ∧ a < 0xb00414 ∧ 0 ≤ j ∧ j ≤ 31; obtain ⟨rfl, h⟩ := h; exact ⟨by decide, by decide, h⟩
  | MEM_PB_OVF_CNT_COUNT => change (0xb00418 : Nat) ≤ a ∧ a < 0xb0041c ∧ 0 ≤ j ∧ j ≤ 31; obtain ⟨rfl, h⟩ := h; exact ⟨by decide, by decide, h⟩
  | MEM_PB_OVF_CAUSE_WINDOW => change (0xb0041c : Nat) ≤ a ∧ a < 0xb00420 ∧ 1 ≤ j ∧ j ≤ 1; obtain ⟨rfl, h⟩ := h; exact ⟨by decide, by decide, h⟩
  | MEM_PB_OVF_CAUSE_FULL => change (0xb0041c : Nat) ≤ a ∧ a < 0xb00420 ∧ 0 ≤ j ∧ j ≤ 0; obtain ⟨rfl, h⟩ := h; exact ⟨by decide, by decide, h⟩
  | MEM_MR_CMD_BUSY => change (0xb00500 : Nat) ≤ a ∧ a < 0xb00504 ∧ 30 ≤ j ∧ j ≤ 30; obtain ⟨rfl, h⟩ := h; exact ⟨by decide, by decide, h⟩
  | MEM_MR_CMD_READ => change (0xb00500 : Nat) ≤ a ∧ a < 0xb00504 ∧ 29 ≤ j ∧ j ≤ 29; obtain ⟨rfl, h⟩ := h; exact ⟨by decide, by decide, h⟩
  | MEM_MR_CMD_CH => change (0xb00500 : Nat) ≤ a ∧ a < 0xb00504 ∧ 27 ≤ j ∧ j ≤ 28; obtain ⟨rfl, h⟩ := h; exact ⟨by decide, by decide, h⟩
  | MEM_MR_CMD_RANK => change (0xb00500 : Nat) ≤ a ∧ a < 0xb00504 ∧ 26 ≤ j ∧ j ≤ 26; obtain ⟨rfl, h⟩ := h; exact ⟨by decide, by decide, h⟩
  | MEM_MR_CMD_MA => change (0xb00500 : Nat) ≤ a ∧ a < 0xb00504 ∧ 8 ≤ j ∧ j ≤ 15; obtain ⟨rfl, h⟩ := h; exact ⟨by decide, by decide, h⟩
  | MEM_MR_CMD_OP => change (0xb00500 : Nat) ≤ a ∧ a < 0xb00504 ∧ 0 ≤ j ∧ j ≤ 7; obtain ⟨rfl, h⟩ := h; exact ⟨by decide, by decide, h⟩
  | MEM_MR_DATA_DATA => change (0xb00504 : Nat) ≤ a ∧ a < 0xb00508 ∧ 0 ≤ j ∧ j ≤ 7; obtain ⟨rfl, h⟩ := h; exact ⟨by decide, by decide, h⟩
  | MEM_TRN_CTRL_BUSY => change (0xb00510 : Nat) ≤ a ∧ a < 0xb00514 ∧ 1 ≤ j ∧ j ≤ 1; obtain ⟨rfl, h⟩ := h; exact ⟨by decide, by decide, h⟩
  | MEM_TRN_STATE_VALID => change (0xb00524 : Nat) ≤ a ∧ a < 0xb00528 ∧ 4 ≤ j ∧ j ≤ 4; obtain ⟨rfl, h⟩ := h; exact ⟨by decide, by decide, h⟩
  | MEM_TRN_STATE_FAIL => change (0xb00524 : Nat) ≤ a ∧ a < 0xb00528 ∧ 0 ≤ j ∧ j ≤ 3; obtain ⟨rfl, h⟩ := h; exact ⟨by decide, by decide, h⟩
  | MEM_TRN_MASK_PASS => change (0xb00600 : Nat) ≤ a ∧ a < 0xb00700 ∧ 0 ≤ j ∧ j ≤ 15; obtain ⟨i, rfl, h⟩ := h; simp only [F.MEM_TRN_MASK_PASS, R.MEM_TRN_MASK] at h ⊢; omega
  | MEM_DLY_WR => change (0xb00800 : Nat) ≤ a ∧ a < 0xb00b40 ∧ 16 ≤ j ∧ j ≤ 22; obtain ⟨i, k, rfl, h⟩ := h; simp only [F.MEM_DLY_WR, R.MEM_DLY] at h ⊢; omega
  | MEM_DLY_RD => change (0xb00800 : Nat) ≤ a ∧ a < 0xb00b40 ∧ 0 ≤ j ∧ j ≤ 6; obtain ⟨i, k, rfl, h⟩ := h; simp only [F.MEM_DLY_RD, R.MEM_DLY] at h ⊢; omega
  | LNK_CTRL_ETH1_EN => change (0xc00000 : Nat) ≤ a ∧ a < 0xc00004 ∧ 2 ≤ j ∧ j ≤ 2; obtain ⟨rfl, h⟩ := h; exact ⟨by decide, by decide, h⟩
  | LNK_CTRL_ETH0_EN => change (0xc00000 : Nat) ≤ a ∧ a < 0xc00004 ∧ 1 ≤ j ∧ j ≤ 1; obtain ⟨rfl, h⟩ := h; exact ⟨by decide, by decide, h⟩
  | LNK_STATUS_ETH1_UP => change (0xc00008 : Nat) ≤ a ∧ a < 0xc0000c ∧ 21 ≤ j ∧ j ≤ 21; obtain ⟨rfl, h⟩ := h; exact ⟨by decide, by decide, h⟩
  | LNK_STATUS_ETH0_UP => change (0xc00008 : Nat) ≤ a ∧ a < 0xc0000c ∧ 20 ≤ j ∧ j ≤ 20; obtain ⟨rfl, h⟩ := h; exact ⟨by decide, by decide, h⟩
  | LNK_STATUS_BME => change (0xc00008 : Nat) ≤ a ∧ a < 0xc0000c ∧ 16 ≤ j ∧ j ≤ 16; obtain ⟨rfl, h⟩ := h; exact ⟨by decide, by decide, h⟩
  | LNK_STATUS_WIDTH => change (0xc00008 : Nat) ≤ a ∧ a < 0xc0000c ∧ 10 ≤ j ∧ j ≤ 12; obtain ⟨rfl, h⟩ := h; exact ⟨by decide, by decide, h⟩
  | LNK_STATUS_SPEED => change (0xc00008 : Nat) ≤ a ∧ a < 0xc0000c ∧ 8 ≤ j ∧ j ≤ 9; obtain ⟨rfl, h⟩ := h; exact ⟨by decide, by decide, h⟩
  | LNK_STATUS_PCIE_UP => change (0xc00008 : Nat) ≤ a ∧ a < 0xc0000c ∧ 7 ≤ j ∧ j ≤ 7; obtain ⟨rfl, h⟩ := h; exact ⟨by decide, by decide, h⟩
  | LNK_LANE_ST_FLAP => change (0xc00020 : Nat) ≤ a ∧ a < 0xc00030 ∧ 5 ≤ j ∧ j ≤ 5; obtain ⟨i, rfl, h⟩ := h; simp only [F.LNK_LANE_ST_FLAP, R.LNK_LANE_ST] at h ⊢; omega
  | LNK_LANE_ST_LOL => change (0xc00020 : Nat) ≤ a ∧ a < 0xc00030 ∧ 4 ≤ j ∧ j ≤ 4; obtain ⟨i, rfl, h⟩ := h; simp only [F.LNK_LANE_ST_LOL, R.LNK_LANE_ST] at h ⊢; omega
  | LNK_LANE_ST_LOS => change (0xc00020 : Nat) ≤ a ∧ a < 0xc00030 ∧ 3 ≤ j ∧ j ≤ 3; obtain ⟨i, rfl, h⟩ := h; simp only [F.LNK_LANE_ST_LOS, R.LNK_LANE_ST] at h ⊢; omega
  | LNK_LANE_ST_USE => change (0xc00020 : Nat) ≤ a ∧ a < 0xc00030 ∧ 0 ≤ j ∧ j ≤ 1; obtain ⟨i, rfl, h⟩ := h; simp only [F.LNK_LANE_ST_USE, R.LNK_LANE_ST] at h ⊢; omega
  | LNK_LANE_TEST_PRBS => change (0xc00030 : Nat) ≤ a ∧ a < 0xc00040 ∧ 4 ≤ j ∧ j ≤ 5; obtain ⟨i, rfl, h⟩ := h; simp only [F.LNK_LANE_TEST_PRBS, R.LNK_LANE_TEST] at h ⊢; omega
  | LNK_LANE_TEST_LOOP => change (0xc00030 : Nat) ≤ a ∧ a < 0xc00040 ∧ 0 ≤ j ∧ j ≤ 2; obtain ⟨i, rfl, h⟩ := h; simp only [F.LNK_LANE_TEST_LOOP, R.LNK_LANE_TEST] at h ⊢; omega
  | LNK_PKT_DROP_COUNT => change (0xc00064 : Nat) ≤ a ∧ a < 0xc00068 ∧ 0 ≤ j ∧ j ≤ 31; obtain ⟨rfl, h⟩ := h; exact ⟨by decide, by decide, h⟩
  | LNK_ETH_CTRL_RX_EN => change (0xc00100 : Nat) ≤ a ∧ a < 0xc00184 ∧ 1 ≤ j ∧ j ≤ 1; obtain ⟨i, rfl, h⟩ := h; simp only [F.LNK_ETH_CTRL_RX_EN, R.LNK_ETH_CTRL] at h ⊢; omega
  | LNK_ETH_CTRL_TX_EN => change (0xc00100 : Nat) ≤ a ∧ a < 0xc00184 ∧ 0 ≤ j ∧ j ≤ 0; obtain ⟨i, rfl, h⟩ := h; simp only [F.LNK_ETH_CTRL_TX_EN, R.LNK_ETH_CTRL] at h ⊢; omega
  | LNK_ETH_STATUS_RX_PENDING => change (0xc00104 : Nat) ≤ a ∧ a < 0xc00188 ∧ 5 ≤ j ∧ j ≤ 5; obtain ⟨i, rfl, h⟩ := h; simp only [F.LNK_ETH_STATUS_RX_PENDING, R.LNK_ETH_STATUS] at h ⊢; omega
  | LNK_ETH_STATUS_TX_PENDING => change (0xc00104 : Nat) ≤ a ∧ a < 0xc00188 ∧ 4 ≤ j ∧ j ≤ 4; obtain ⟨i, rfl, h⟩ := h; simp only [F.LNK_ETH_STATUS_TX_PENDING, R.LNK_ETH_STATUS] at h ⊢; omega
  | LNK_ETH_STATUS_RX_LPI => change (0xc00104 : Nat) ≤ a ∧ a < 0xc00188 ∧ 3 ≤ j ∧ j ≤ 3; obtain ⟨i, rfl, h⟩ := h; simp only [F.LNK_ETH_STATUS_RX_LPI, R.LNK_ETH_STATUS] at h ⊢; omega
  | LNK_ETH_STATUS_TX_LPI => change (0xc00104 : Nat) ≤ a ∧ a < 0xc00188 ∧ 2 ≤ j ∧ j ≤ 2; obtain ⟨i, rfl, h⟩ := h; simp only [F.LNK_ETH_STATUS_TX_LPI, R.LNK_ETH_STATUS] at h ⊢; omega
  | LNK_ETH_STATUS_BLOCK_LOCK => change (0xc00104 : Nat) ≤ a ∧ a < 0xc00188 ∧ 1 ≤ j ∧ j ≤ 1; obtain ⟨i, rfl, h⟩ := h; simp only [F.LNK_ETH_STATUS_BLOCK_LOCK, R.LNK_ETH_STATUS] at h ⊢; omega
  | LNK_ETH_STATUS_UP => change (0xc00104 : Nat) ≤ a ∧ a < 0xc00188 ∧ 0 ≤ j ∧ j ≤ 0; obtain ⟨i, rfl, h⟩ := h; simp only [F.LNK_ETH_STATUS_UP, R.LNK_ETH_STATUS] at h ⊢; omega
  | LNK_ETH_SMAC_LO_MAC => change (0xc00108 : Nat) ≤ a ∧ a < 0xc0018c ∧ 0 ≤ j ∧ j ≤ 31; obtain ⟨i, rfl, h⟩ := h; simp only [F.LNK_ETH_SMAC_LO_MAC, R.LNK_ETH_SMAC_LO] at h ⊢; omega
  | LNK_ETH_SMAC_HI_MAC => change (0xc0010c : Nat) ≤ a ∧ a < 0xc00190 ∧ 0 ≤ j ∧ j ≤ 15; obtain ⟨i, rfl, h⟩ := h; simp only [F.LNK_ETH_SMAC_HI_MAC, R.LNK_ETH_SMAC_HI] at h ⊢; omega
  | LNK_ETH_FRAMES_TX_COUNT => change (0xc00140 : Nat) ≤ a ∧ a < 0xc001c4 ∧ 0 ≤ j ∧ j ≤ 31; obtain ⟨i, rfl, h⟩ := h; simp only [F.LNK_ETH_FRAMES_TX_COUNT, R.LNK_ETH_FRAMES_TX] at h ⊢; omega
  | LNK_ETH_PKTS_TX_COUNT => change (0xc00144 : Nat) ≤ a ∧ a < 0xc001c8 ∧ 0 ≤ j ∧ j ≤ 31; obtain ⟨i, rfl, h⟩ := h; simp only [F.LNK_ETH_PKTS_TX_COUNT, R.LNK_ETH_PKTS_TX] at h ⊢; omega
  | LNK_ETH_FRAMES_RX_COUNT => change (0xc00148 : Nat) ≤ a ∧ a < 0xc001cc ∧ 0 ≤ j ∧ j ≤ 31; obtain ⟨i, rfl, h⟩ := h; simp only [F.LNK_ETH_FRAMES_RX_COUNT, R.LNK_ETH_FRAMES_RX] at h ⊢; omega
  | LNK_ETH_FCS_ERR_RX_COUNT => change (0xc0014c : Nat) ≤ a ∧ a < 0xc001d0 ∧ 0 ≤ j ∧ j ≤ 31; obtain ⟨i, rfl, h⟩ := h; simp only [F.LNK_ETH_FCS_ERR_RX_COUNT, R.LNK_ETH_FCS_ERR_RX] at h ⊢; omega
  | LNK_ETH_DISCARD_RX_COUNT => change (0xc00150 : Nat) ≤ a ∧ a < 0xc001d4 ∧ 0 ≤ j ∧ j ≤ 31; obtain ⟨i, rfl, h⟩ := h; simp only [F.LNK_ETH_DISCARD_RX_COUNT, R.LNK_ETH_DISCARD_RX] at h ⊢; omega
  | LNK_ETH_PKT_SEQ_SEQ => change (0xc00154 : Nat) ≤ a ∧ a < 0xc001d8 ∧ 0 ≤ j ∧ j ≤ 31; obtain ⟨i, rfl, h⟩ := h; simp only [F.LNK_ETH_PKT_SEQ_SEQ, R.LNK_ETH_PKT_SEQ] at h ⊢; omega
  | LNK_PTP_STATUS_SLEWING => change (0xc00304 : Nat) ≤ a ∧ a < 0xc00308 ∧ 2 ≤ j ∧ j ≤ 2; obtain ⟨rfl, h⟩ := h; exact ⟨by decide, by decide, h⟩
  | LNK_PTP_STATUS_TS_AVAIL => change (0xc00304 : Nat) ≤ a ∧ a < 0xc00308 ∧ 1 ≤ j ∧ j ≤ 1; obtain ⟨rfl, h⟩ := h; exact ⟨by decide, by decide, h⟩
  | LNK_PTP_STATUS_SYNCED => change (0xc00304 : Nat) ≤ a ∧ a < 0xc00308 ∧ 0 ≤ j ∧ j ≤ 0; obtain ⟨rfl, h⟩ := h; exact ⟨by decide, by decide, h⟩
  | LNK_PTP_TIME_LO_NS => change (0xc00308 : Nat) ≤ a ∧ a < 0xc0030c ∧ 0 ≤ j ∧ j ≤ 31; obtain ⟨rfl, h⟩ := h; exact ⟨by decide, by decide, h⟩
  | LNK_PTP_TIME_HI_NS => change (0xc0030c : Nat) ≤ a ∧ a < 0xc00310 ∧ 0 ≤ j ∧ j ≤ 31; obtain ⟨rfl, h⟩ := h; exact ⟨by decide, by decide, h⟩
  | w_LNK_PTP_RATE => change (0xc00310 : Nat) ≤ a ∧ a < 0xc00314 ∧ 0 ≤ j ∧ j ≤ 31; obtain rfl := h; exact ⟨by decide, by decide, Nat.zero_le _, hj⟩
  | w_LNK_PTP_TS_LO => change (0xc00320 : Nat) ≤ a ∧ a < 0xc00324 ∧ 0 ≤ j ∧ j ≤ 31; obtain rfl := h; exact ⟨by decide, by decide, Nat.zero_le _, hj⟩
  | LNK_PTP_TS_LO_NS => change (0xc00320 : Nat) ≤ a ∧ a < 0xc00324 ∧ 0 ≤ j ∧ j ≤ 31; obtain ⟨rfl, h⟩ := h; exact ⟨by decide, by decide, h⟩
  | w_LNK_PTP_TS_HI => change (0xc00324 : Nat) ≤ a ∧ a < 0xc00328 ∧ 0 ≤ j ∧ j ≤ 31; obtain rfl := h; exact ⟨by decide, by decide, Nat.zero_le _, hj⟩
  | LNK_PTP_TS_HI_NS => change (0xc00324 : Nat) ≤ a ∧ a < 0xc00328 ∧ 0 ≤ j ∧ j ≤ 31; obtain ⟨rfl, h⟩ := h; exact ⟨by decide, by decide, h⟩
  | w_LNK_PTP_TS_INFO => change (0xc00328 : Nat) ≤ a ∧ a < 0xc0032c ∧ 0 ≤ j ∧ j ≤ 31; obtain rfl := h; exact ⟨by decide, by decide, Nat.zero_le _, hj⟩
  | LNK_PTP_TS_INFO_VALID => change (0xc00328 : Nat) ≤ a ∧ a < 0xc0032c ∧ 31 ≤ j ∧ j ≤ 31; obtain ⟨rfl, h⟩ := h; exact ⟨by decide, by decide, h⟩
  | LNK_PTP_TS_INFO_DIR => change (0xc00328 : Nat) ≤ a ∧ a < 0xc0032c ∧ 30 ≤ j ∧ j ≤ 30; obtain ⟨rfl, h⟩ := h; exact ⟨by decide, by decide, h⟩
  | LNK_PTP_TS_INFO_PORT => change (0xc00328 : Nat) ≤ a ∧ a < 0xc0032c ∧ 29 ≤ j ∧ j ≤ 29; obtain ⟨rfl, h⟩ := h; exact ⟨by decide, by decide, h⟩
  | LNK_PTP_TS_INFO_SEQ_ID => change (0xc00328 : Nat) ≤ a ∧ a < 0xc0032c ∧ 0 ≤ j ∧ j ≤ 15; obtain ⟨rfl, h⟩ := h; exact ⟨by decide, by decide, h⟩
  | LNK_PRBS_ERR_COUNT => change (0xc00040 : Nat) ≤ a ∧ a < 0xc00050 ∧ 0 ≤ j ∧ j ≤ 31; obtain ⟨i, rfl, h⟩ := h; simp only [F.LNK_PRBS_ERR_COUNT, R.LNK_PRBS_ERR] at h ⊢; omega
  | LNK_MBOX_OWNER_OWNER => change (0xc00400 : Nat) ≤ a ∧ a < 0xc00404 ∧ 0 ≤ j ∧ j ≤ 1; obtain ⟨rfl, h⟩ := h; exact ⟨by decide, by decide, h⟩
  | LNK_MSPI_CRC_CNT_COUNT => change (0xc00408 : Nat) ≤ a ∧ a < 0xc0040c ∧ 0 ≤ j ∧ j ≤ 31; obtain ⟨rfl, h⟩ := h; exact ⟨by decide, by decide, h⟩
  | LNK_MSPI_WIN_WIN => change (0xc0040c : Nat) ≤ a ∧ a < 0xc00410 ∧ 0 ≤ j ∧ j ≤ 9; obtain ⟨rfl, h⟩ := h; exact ⟨by decide, by decide, h⟩
  | LNK_I2C_STATUS_BUSY => change (0xc00414 : Nat) ≤ a ∧ a < 0xc00418 ∧ 1 ≤ j ∧ j ≤ 1; obtain ⟨rfl, h⟩ := h; exact ⟨by decide, by decide, h⟩
  | LNK_I2C_STATUS_STUCK => change (0xc00414 : Nat) ≤ a ∧ a < 0xc00418 ∧ 0 ≤ j ∧ j ≤ 0; obtain ⟨rfl, h⟩ := h; exact ⟨by decide, by decide, h⟩
  | w_LNK_MBOX_BUF => change (0xc04000 : Nat) ≤ a ∧ a < 0xc05000 ∧ 0 ≤ j ∧ j ≤ 31; obtain ⟨i, rfl⟩ := h; simp only [R.LNK_MBOX_BUF]; omega
  | BOOT_STATUS_SET_REJ => change (0xd00000 : Nat) ≤ a ∧ a < 0xd00004 ∧ 16 ≤ j ∧ j ≤ 23; obtain ⟨rfl, h⟩ := h; exact ⟨by decide, by decide, h⟩
  | BOOT_STATUS_CD_DUE => change (0xd00000 : Nat) ≤ a ∧ a < 0xd00004 ∧ 15 ≤ j ∧ j ≤ 15; obtain ⟨rfl, h⟩ := h; exact ⟨by decide, by decide, h⟩
  | BOOT_STATUS_SLOT_WRITE => change (0xd00000 : Nat) ≤ a ∧ a < 0xd00004 ∧ 14 ≤ j ∧ j ≤ 14; obtain ⟨rfl, h⟩ := h; exact ⟨by decide, by decide, h⟩
  | BOOT_STATUS_IMAGE_VALID => change (0xd00000 : Nat) ≤ a ∧ a < 0xd00004 ∧ 13 ≤ j ∧ j ≤ 13; obtain ⟨rfl, h⟩ := h; exact ⟨by decide, by decide, h⟩
  | BOOT_STATUS_LOADER_VALID => change (0xd00000 : Nat) ≤ a ∧ a < 0xd00004 ∧ 12 ≤ j ∧ j ≤ 12; obtain ⟨rfl, h⟩ := h; exact ⟨by decide, by decide, h⟩
  | BOOT_STATUS_UPD_STATE => change (0xd00000 : Nat) ≤ a ∧ a < 0xd00004 ∧ 10 ≤ j ∧ j ≤ 11; obtain ⟨rfl, h⟩ := h; exact ⟨by decide, by decide, h⟩
  | BOOT_STATUS_SESSION => change (0xd00000 : Nat) ≤ a ∧ a < 0xd00004 ∧ 9 ≤ j ∧ j ≤ 9; obtain ⟨rfl, h⟩ := h; exact ⟨by decide, by decide, h⟩
  | BOOT_STATUS_FUSE_KEPT => change (0xd00000 : Nat) ≤ a ∧ a < 0xd00004 ∧ 7 ≤ j ∧ j ≤ 7; obtain ⟨rfl, h⟩ := h; exact ⟨by decide, by decide, h⟩
  | BOOT_STATUS_BIST_SKIPPED => change (0xd00000 : Nat) ≤ a ∧ a < 0xd00004 ∧ 6 ≤ j ∧ j ≤ 6; obtain ⟨rfl, h⟩ := h; exact ⟨by decide, by decide, h⟩
  | BOOT_STATUS_TRAIN_SKIPPED => change (0xd00000 : Nat) ≤ a ∧ a < 0xd00004 ∧ 5 ≤ j ∧ j ≤ 5; obtain ⟨rfl, h⟩ := h; exact ⟨by decide, by decide, h⟩
  | BOOT_STATUS_CD_SKIPPED => change (0xd00000 : Nat) ≤ a ∧ a < 0xd00004 ∧ 4 ≤ j ∧ j ≤ 4; obtain ⟨rfl, h⟩ := h; exact ⟨by decide, by decide, h⟩
  | BOOT_STATUS_STEP => change (0xd00000 : Nat) ≤ a ∧ a < 0xd00004 ∧ 0 ≤ j ∧ j ≤ 3; obtain ⟨rfl, h⟩ := h; exact ⟨by decide, by decide, h⟩
  | w_BOOT_LAST_RESET => change (0xd00004 : Nat) ≤ a ∧ a < 0xd00008 ∧ 0 ≤ j ∧ j ≤ 31; obtain rfl := h; exact ⟨by decide, by decide, Nat.zero_le _, hj⟩
  | BOOT_LAST_RESET_FAIL_STEP => change (0xd00004 : Nat) ≤ a ∧ a < 0xd00008 ∧ 8 ≤ j ∧ j ≤ 11; obtain ⟨rfl, h⟩ := h; exact ⟨by decide, by decide, h⟩
  | BOOT_LAST_RESET_CAUSE => change (0xd00004 : Nat) ≤ a ∧ a < 0xd00008 ∧ 0 ≤ j ∧ j ≤ 3; obtain ⟨rfl, h⟩ := h; exact ⟨by decide, by decide, h⟩
  | w_BOOT_FAIL => change (0xd00008 : Nat) ≤ a ∧ a < 0xd0000c ∧ 0 ≤ j ∧ j ≤ 31; obtain rfl := h; exact ⟨by decide, by decide, Nat.zero_le _, hj⟩
  | BOOT_FAIL_COUNT => change (0xd00008 : Nat) ≤ a ∧ a < 0xd0000c ∧ 0 ≤ j ∧ j ≤ 1; obtain ⟨rfl, h⟩ := h; exact ⟨by decide, by decide, h⟩
  | BOOT_IMAGE_VER_VERSION => change (0xd00010 : Nat) ≤ a ∧ a < 0xd00014 ∧ 0 ≤ j ∧ j ≤ 31; obtain ⟨rfl, h⟩ := h; exact ⟨by decide, by decide, h⟩
  | BOOT_IMAGE_INFO_SETTINGS_FMT => change (0xd00014 : Nat) ≤ a ∧ a < 0xd00018 ∧ 16 ≤ j ∧ j ≤ 31; obtain ⟨rfl, h⟩ := h; exact ⟨by decide, by decide, h⟩
  | BOOT_IMAGE_INFO_SERIAL_BOUND => change (0xd00014 : Nat) ≤ a ∧ a < 0xd00018 ∧ 9 ≤ j ∧ j ≤ 9; obtain ⟨rfl, h⟩ := h; exact ⟨by decide, by decide, h⟩
  | BOOT_IMAGE_INFO_KEY_ID => change (0xd00014 : Nat) ≤ a ∧ a < 0xd00018 ∧ 0 ≤ j ∧ j ≤ 7; obtain ⟨rfl, h⟩ := h; exact ⟨by decide, by decide, h⟩
  | BOOT_SERIAL_LO_SERIAL => change (0xd00018 : Nat) ≤ a ∧ a < 0xd0001c ∧ 0 ≤ j ∧ j ≤ 31; obtain ⟨rfl, h⟩ := h; exact ⟨by decide, by decide, h⟩
  | BOOT_SERIAL_HI_SERIAL => change (0xd0001c : Nat) ≤ a ∧ a < 0xd00020 ∧ 0 ≤ j ∧ j ≤ 31; obtain ⟨rfl, h⟩ := h; exact ⟨by decide, by decide, h⟩
  | BOOT_UPD_RESULT_RESULT => change (0xd00020 : Nat) ≤ a ∧ a < 0xd00024 ∧ 0 ≤ j ∧ j ≤ 7; obtain ⟨rfl, h⟩ := h; exact ⟨by decide, by decide, h⟩
  | BOOT_SET_OPT_AUTO_SCAN => change (0xd00030 : Nat) ≤ a ∧ a < 0xd00034 ∧ 0 ≤ j ∧ j ≤ 0; obtain ⟨rfl, h⟩ := h; exact ⟨by decide, by decide, h⟩
  | BOOT_HDL_STATUS_RESULT => change (0xd00048 : Nat) ≤ a ∧ a < 0xd0004c ∧ 8 ≤ j ∧ j ≤ 15; obtain ⟨rfl, h⟩ := h; exact ⟨by decide, by decide, h⟩
  | BOOT_HDL_STATUS_RX_BUSY => change (0xd00048 : Nat) ≤ a ∧ a < 0xd0004c ∧ 1 ≤ j ∧ j ≤ 1; obtain ⟨rfl, h⟩ := h; exact ⟨by decide, by decide, h⟩
  | BOOT_HDL_STATUS_TX_BUSY => change (0xd00048 : Nat) ≤ a ∧ a < 0xd0004c ∧ 0 ≤ j ∧ j ≤ 0; obtain ⟨rfl, h⟩ := h; exact ⟨by decide, by decide, h⟩
  | BOOT_HDL_RES_VALID => change (0xd00050 : Nat) ≤ a ∧ a < 0xd00070 ∧ 8 ≤ j ∧ j ≤ 8; obtain ⟨i, rfl, h⟩ := h; simp only [F.BOOT_HDL_RES_VALID, R.BOOT_HDL_RES] at h ⊢; omega
  | BOOT_HDL_RES_RESULT => change (0xd00050 : Nat) ≤ a ∧ a < 0xd00070 ∧ 0 ≤ j ∧ j ≤ 7; obtain ⟨i, rfl, h⟩ := h; simp only [F.BOOT_HDL_RES_RESULT, R.BOOT_HDL_RES] at h ⊢; omega
  | BOOT_LOG_INDEX_NEXT => change (0xd00070 : Nat) ≤ a ∧ a < 0xd00074 ∧ 0 ≤ j ∧ j ≤ 31; obtain ⟨rfl, h⟩ := h; exact ⟨by decide, by decide, h⟩
  | BOOT_LOG_DROP_COUNT => change (0xd00074 : Nat) ≤ a ∧ a < 0xd00078 ∧ 0 ≤ j ∧ j ≤ 31; obtain ⟨rfl, h⟩ := h; exact ⟨by decide, by decide, h⟩
  | OBS_STATUS_STALE => change (0xe00004 : Nat) ≤ a ∧ a < 0xe00008 ∧ 2 ≤ j ∧ j ≤ 11; obtain ⟨rfl, h⟩ := h; exact ⟨by decide, by decide, h⟩
  | OBS_STATUS_FULL => change (0xe00004 : Nat) ≤ a ∧ a < 0xe00008 ∧ 1 ≤ j ∧ j ≤ 1; obtain ⟨rfl, h⟩ := h; exact ⟨by decide, by decide, h⟩
  | OBS_STATUS_SNAP_BUSY => change (0xe00004 : Nat) ≤ a ∧ a < 0xe00008 ∧ 0 ≤ j ∧ j ≤ 0; obtain ⟨rfl, h⟩ := h; exact ⟨by decide, by decide, h⟩
  | OBS_SNAP_SEQ_SEQ => change (0xe0000c : Nat) ≤ a ∧ a < 0xe00010 ∧ 0 ≤ j ∧ j ≤ 31; obtain ⟨rfl, h⟩ := h; exact ⟨by decide, by decide, h⟩
  | OBS_SNAP_MISS_COUNT => change (0xe00010 : Nat) ≤ a ∧ a < 0xe00014 ∧ 0 ≤ j ∧ j ≤ 31; obtain ⟨rfl, h⟩ := h; exact ⟨by decide, by decide, h⟩
  | OBS_SNAP_TS_LO_NS => change (0xe00014 : Nat) ≤ a ∧ a < 0xe00018 ∧ 0 ≤ j ∧ j ≤ 31; obtain ⟨rfl, h⟩ := h; exact ⟨by decide, by decide, h⟩
  | OBS_SNAP_TS_HI_NS => change (0xe00018 : Nat) ≤ a ∧ a < 0xe0001c ∧ 0 ≤ j ∧ j ≤ 31; obtain ⟨rfl, h⟩ := h; exact ⟨by decide, by decide, h⟩
  | w_OBS_SAT => change (0xe00040 : Nat) ≤ a ∧ a < 0xe000c0 ∧ 0 ≤ j ∧ j ≤ 31; obtain ⟨i, rfl⟩ := h; simp only [R.OBS_SAT]; omega
  | OBS_SMP_DROP_COUNT => change (0xe00104 : Nat) ≤ a ∧ a < 0xe00108 ∧ 0 ≤ j ∧ j ≤ 31; obtain ⟨rfl, h⟩ := h; exact ⟨by decide, by decide, h⟩
  | OBS_TRC_WPTR_OFS => change (0xe00208 : Nat) ≤ a ∧ a < 0xe0020c ∧ 0 ≤ j ∧ j ≤ 15; obtain ⟨rfl, h⟩ := h; exact ⟨by decide, by decide, h⟩
  | OBS_TRC_RPTR_OFS => change (0xe0020c : Nat) ≤ a ∧ a < 0xe00210 ∧ 0 ≤ j ∧ j ≤ 15; obtain ⟨rfl, h⟩ := h; exact ⟨by decide, by decide, h⟩
  | OBS_TRC_RING_WPTR_OFS => change (0xe0021c : Nat) ≤ a ∧ a < 0xe00220 ∧ 0 ≤ j ∧ j ≤ 31; obtain ⟨rfl, h⟩ := h; exact ⟨by decide, by decide, h⟩
  | OBS_TRC_RING_RPTR_OFS => change (0xe00220 : Nat) ≤ a ∧ a < 0xe00224 ∧ 0 ≤ j ∧ j ≤ 31; obtain ⟨rfl, h⟩ := h; exact ⟨by decide, by decide, h⟩
  | OBS_TRC_DROP_COUNT => change (0xe00224 : Nat) ≤ a ∧ a < 0xe00228 ∧ 0 ≤ j ∧ j ≤ 31; obtain ⟨rfl, h⟩ := h; exact ⟨by decide, by decide, h⟩
  | w_OBS_CNT_CFG => change (0xe01000 : Nat) ≤ a ∧ a < 0xe02000 ∧ 0 ≤ j ∧ j ≤ 31; obtain ⟨i, rfl⟩ := h; simp only [R.OBS_CNT_CFG]; omega
  | OBS_CNT_LIVE_HI_VALUE => change (0xe02004 : Nat) ≤ a ∧ a < 0xe04000 ∧ 0 ≤ j ∧ j ≤ 15; obtain ⟨i, rfl, h⟩ := h; simp only [F.OBS_CNT_LIVE_HI_VALUE, R.OBS_CNT_LIVE_HI] at h ⊢; omega
  | OBS_CNT_SNAP_LO_VALUE => change (0xe04000 : Nat) ≤ a ∧ a < 0xe05ffc ∧ 0 ≤ j ∧ j ≤ 31; obtain ⟨i, rfl, h⟩ := h; simp only [F.OBS_CNT_SNAP_LO_VALUE, R.OBS_CNT_SNAP_LO] at h ⊢; omega
  | OBS_CNT_SNAP_HI_VALUE => change (0xe04004 : Nat) ≤ a ∧ a < 0xe06000 ∧ 0 ≤ j ∧ j ≤ 15; obtain ⟨i, rfl, h⟩ := h; simp only [F.OBS_CNT_SNAP_HI_VALUE, R.OBS_CNT_SNAP_HI] at h ⊢; omega
  | r_HDG => change (0x780000 : Nat) ≤ a ∧ a < 0x780100 ∧ 0 ≤ j ∧ j ≤ 31; exact ⟨h.1, h.2, Nat.zero_le _, hj⟩
  | r_HLM_TRACE => change (0x740000 : Nat) ≤ a ∧ a < 0x760000 ∧ 0 ≤ j ∧ j ≤ 31; exact ⟨h.1, h.2, Nat.zero_le _, hj⟩
  | r_MSIX => change (0xC08000 : Nat) ≤ a ∧ a < 0xC09010 ∧ 0 ≤ j ∧ j ≤ 31; exact ⟨h.1, h.2, Nat.zero_le _, hj⟩
  | r_OBS_SAT => change (0xE00040 : Nat) ≤ a ∧ a < 0xE000C0 ∧ 0 ≤ j ∧ j ≤ 31; exact ⟨h.1, h.2, Nat.zero_le _, hj⟩
  | r_OBS_SNAP => change (0xE04000 : Nat) ≤ a ∧ a < 0xE06000 ∧ 0 ≤ j ∧ j ≤ 31; exact ⟨h.1, h.2, Nat.zero_le _, hj⟩
  | r_OBS_TRC_BUF => change (0xE10000 : Nat) ≤ a ∧ a < 0xE20000 ∧ 0 ≤ j ∧ j ≤ 31; exact ⟨h.1, h.2, Nat.zero_le _, hj⟩
  | r_MEM_CFG => change (0xb00008 : Nat) ≤ a ∧ a < 0xb0000c ∧ 0 ≤ j ∧ j ≤ 31; exact ⟨h.1, h.2, Nat.zero_le _, hj⟩
  | r_MEM_DLY => change (0xB00800 : Nat) ≤ a ∧ a < 0xB00C00 ∧ 0 ≤ j ∧ j ≤ 31; exact ⟨h.1, h.2, Nat.zero_le _, hj⟩
  | r_BOOT_SET => change (0xD01000 : Nat) ≤ a ∧ a < 0xD01800 ∧ 0 ≤ j ∧ j ≤ 31; exact ⟨h.1, h.2, Nat.zero_le _, hj⟩

/-- No area of the mask `m`, whose bits stand for the bounds in order, touches the field. -/
def clearOf.go (f : Fld) : Nat → List (Nat × Nat × Nat × Nat) → Bool
  | _, [] => true
  | m, e :: r =>
    (m % 2 == 0 || decide (f.addr < e.1) || decide (e.2.1 ≤ f.addr) || decide (f.hi < e.2.2.1) || decide (e.2.2.2 < f.lo))
      && clearOf.go f (m / 2) r

/-- No area of the mask touches the field. -/
def clearOf (w : Nat) (f : Fld) : Bool :=
  decide (f.hi ≤ 31) && !w.testBit Written.all.bit && clearOf.go f (w / 2 ^ 24) Written.bounds

theorem clearOf.of_go (f : Fld) (m : Nat) (l : List (Nat × Nat × Nat × Nat)) (h : clearOf.go f m l = true) (k : Nat)
    (e : Nat × Nat × Nat × Nat) (he : l[k]? = some e) (hm : m.testBit k = true) :
    f.addr < e.1 ∨ e.2.1 ≤ f.addr ∨ f.hi < e.2.2.1 ∨ e.2.2.2 < f.lo := by
  induction l generalizing m k with
  | nil => simp at he
  | cons x r ih =>
    simp only [clearOf.go, Bool.and_eq_true, Bool.or_eq_true, decide_eq_true_eq, beq_iff_eq] at h
    cases k with
    | zero =>
      obtain rfl : x = e := by simpa using he
      have : m % 2 ≠ 0 := by
        rw [Nat.testBit_zero, decide_eq_true_eq] at hm
        omega
      tauto
    | succ k =>
      rw [Nat.testBit_succ] at hm
      exact ih _ h.2 _ (by simpa using he) hm

theorem Written.bounds_get (x : Written) : Written.bounds[x.ctorIdx]? = some x.bound := by
  have hl : Written.bounds.length = 469 := by decide +kernel
  have h : x.ctorIdx < Written.bounds.length := by rw [hl]; cases x <;> decide
  rw [Written.bound, List.getElem?_eq_getElem h, Option.getD_some]

/-- A field that the mask's areas miss reads the same. -/
theorem Fr.rd {w : Nat} {s t : State} (h : Fr w s t) (f : Fld) (c : clearOf w f = true) : t.rd f = s.rd f := by
  simp only [clearOf, Bool.and_eq_true, Bool.not_eq_true', decide_eq_true_eq] at c
  apply Nat.eq_of_testBit_eq
  intro i
  rw [State.rd, State.rd, Word.testBit_field, Word.testBit_field]
  by_cases hi : i < f.hi + 1 - f.lo
  · rw [h.bits f.addr (f.lo + i) fun x hx hc => ?_]
    have hne : x ≠ .all := by rintro rfl; rw [c.1.2] at hx; exact Bool.noConfusion hx
    have hb := x.covers_bound hne _ _ (by omega) hc
    have := clearOf.of_go f _ _ c.2 x.ctorIdx _ x.bounds_get (by
      rw [Nat.testBit_div_two_pow, Nat.add_comm]; exact hx)
    omega
  · simp [hi]

/-- A word that the mask's areas miss is the same. -/
theorem Fr.reg {w : Nat} {s t : State} (h : Fr w s t) (a : Nat) (c : clearOf w ⟨a, 31, 0⟩ = true) : t.reg a = s.reg a := by
  simp only [clearOf, Bool.and_eq_true, Bool.not_eq_true', decide_eq_true_eq] at c
  apply BitVec.eq_of_getLsbD_eq
  intro i hi
  refine h.bits a i fun x hx hc => ?_
  have hne : x ≠ .all := by rintro rfl; rw [c.1.2] at hx; exact Bool.noConfusion hx
  have hb := x.covers_bound hne _ _ (by omega) hc
  have := clearOf.of_go _ _ _ c.2 x.ctorIdx _ x.bounds_get (by
    rw [Nat.testBit_div_two_pow, Nat.add_comm]; exact hx)
  simp only at this
  omega

theorem Fr.on {w : Nat} {s t : State} (h : Fr w s t) (f : Fld) (c : clearOf w f = true) : t.on f = s.on f := by
  rw [State.on, h.rd f c]; rfl

theorem Fr.mode {w : Nat} {s t : State} (h : Fr w s t) (c : clearOf w F.SYS_MODE_MODE = true) : t.mode = s.mode :=
  h.rd _ c

end Sys2Proof.Machine
end

