-- ==== Sys2Proof/Laws/FrameUnits.lean ====
section
/-! SUPPORT. The frame of every operation and command of the merge, survey, Sextant, calibration, thermal, link and mode files. -/

namespace Sys2Proof.Machine

set_option maxHeartbeats 400000
set_option maxRecDepth 4000

theorem State.mboxOwner_fr (s : State) (o : Nat) :
    Fr 0x80080000000000000000000000000000000000000000000000000000000000000000000000000000000000000000000000000000100001 s (State.mboxOwner s o) := by
  unfold State.mboxOwner
  refine .ite ?_ ?_
  exact .refl ..
  (with_reducible apply Fr.call (State.bo_fr ..)) <;> first | (intro _; rfl) | decide | skip
  refine .wr ?_ (by decide) (.fld .BOOT_STATUS_SESSION rfl (by decide))
  refine .wr ?_ (by decide) (.fld .LNK_MBOX_OWNER_OWNER rfl (by decide))
  exact .refl ..

theorem State.cl_fr (s : State) (f : Cal → Cal) : Fr 0x40000 s (State.cl s f) := by
  unfold State.cl
  apply Fr.upd <;> first | show Fr _ _ _ | exact .inl rfl | exact .inr rfl | rfl
  exact .refl ..

theorem State.rzFlapRelease_fr (s : State) :
    Fr 0x40000000000000000000000000000000000000000000000000000000000000000040001 s (State.rzFlapRelease s) := by
  unfold State.rzFlapRelease
  refine .call (State.cl_fr ..) ?_ (by decide)
  refine .wr ?_ (by decide) (.fld .CAL_STATUS_RZ_FLAP rfl (by decide))
  exact .refl ..

theorem execRzFlapRelease_fr (s : State) :
    Runs 0x1000000000000000000000000000000000000000000000004000000000000000000000000000000000000000000000000000000000000000024000b s (execRzFlapRelease s) := by
  unfold execRzFlapRelease
  refine .next ?_
  (with_reducible apply State.access_fr) <;> [skip; skip; decide]
  exact .refl ..
  intro x1
  refine .call (State.rzFlapRelease_fr ..) ?_ (by decide)
  exact .refl ..

theorem State.pageExchange_fr (s : State) (n : Nat) : Fr 0x40080 s (State.pageExchange s n) := by
  unfold State.pageExchange
  lift_lets -underBinder
  intro x1 x2 x3 x4 x5 x6 x7 x8 x9
  refine .ite ?_ ?_
  exact .refl ..
  refine .call (State.cl_fr ..) ?_ (by decide)
  refine .call (State.setTiller_fr ..) ?_ (by decide)
  exact .refl ..

theorem State.pagesOut_fr (s : State) : Fr 0x40080 s (State.pagesOut s) := by
  unfold State.pagesOut
  with_reducible apply Fr.forN
  exact .refl ..
  intro x1 x2
  refine .call (State.pageExchange_fr ..) ?_ (by decide)
  exact .refl ..

theorem State.legSkewStep_fr (s : State) (t : Int) (c : Nat) : Fr 0x80100000000000000040001 s (State.legSkewStep s t c) := by
  unfold State.legSkewStep
  split
  lift_lets -underBinder
  intro x1 x2
  refine .ite ?_ ?_
  refine .call (State.cl_fr ..) ?_ (by decide)
  refine .wr ?_ (by decide) (.fld .TDC_STATUS_COMMIT_PENDING rfl (by decide))
  refine .wrS ?_ (by decide) (.arr .TDC_CH_CFG_SKEW rfl (by decide))
  exact .refl ..
  refine .call (State.cl_fr ..) ?_ (by decide)
  exact .refl ..

theorem execLegacyInterpolation_fr (s : State) :
    Runs 0x800000080000000000000000000000000000000000000000000000080100000000000000040081 s (execLegacyInterpolation s) := by
  unfold execLegacyInterpolation
  refine .next ?_
  lift_lets -underBinder
  intro x1 x2 x3 x4 x5 x6 x7 x8
  refine Fr.have x3 ?_ (fun hx3 => ?_) <;> [unfold x3; clear_value x3]
  refine .put ?_ (by decide) (.fld .CAL_STATUS_LEG_ACTIVE rfl (by decide))
  exact .refl ..
  refine Fr.have x5 ?_ (fun hx5 => ?_) <;> [unfold x5; clear_value x5]
  with_reducible apply Fr.forN
  exact hx3
  intro x9 x10
  split
  refine .wrS ?_ (by decide) (.arr .CAL_LEG_BOFS_BOFS rfl (by decide))
  exact .refl ..
  refine Fr.have x6 ?_ (fun hx6 => ?_) <;> [unfold x6; clear_value x6]
  with_reducible apply Fr.forN
  exact hx5
  intro x11 x12
  refine .call (State.legSkewStep_fr ..) ?_ (by decide)
  exact .refl ..
  refine Fr.have x7 ?_ (fun hx7 => ?_) <;> [unfold x7; clear_value x7]
  refine .call (State.cl_fr ..) ?_ (by decide)
  exact hx6
  refine .ite ?_ ?_
  exact hx3
  refine .ite ?_ ?_
  refine .call (State.cl_fr ..) ?_ (by decide)
  refine .call (State.pagesOut_fr ..) ?_ (by decide)
  exact hx7
  exact hx7

theorem State.sy_fr (s : State) (f : Sys → Sys) : Fr 0x8 s (State.sy s f) := by
  unfold State.sy
  apply Fr.upd <;> first | show Fr _ _ _ | exact .inl rfl | exact .inr rfl | rfl
  exact .refl ..

theorem State.busyWith_fr (s : State) (c : MboxCmd) : Fr 0x2000000000009 s (State.busyWith s c) := by
  unfold State.busyWith
  refine .call (State.sy_fr ..) ?_ (by decide)
  refine .wr ?_ (by decide) (.fld .SYS_MBOX_RESP_STATUS rfl (by decide))
  exact .refl ..

theorem keepRws_wf (e x : Nat × Word) (h : keepRws e = some x) : x.1 = e.1 ∧ x.2 ≠ resetWord x.1 := by
  unfold keepRws at h
  split at h
  · dsimp only at h
    split at h
    · exact absurd h (by simp)
    · rename_i hne
      obtain rfl := Option.some.inj h
      exact ⟨rfl, hne⟩
  · exact absurd h (by simp)

theorem Tab.wf_filterMap {α : Type} [DecidableEq α] (d : Nat → α) (t : Tab α) (g : Nat × α → Option (Nat × α))
    (h : Tab.wf d t = true) (hg : ∀ e x, e.2 ≠ d e.1 → g e = some x → x.1 = e.1 ∧ x.2 ≠ d x.1) :
    Tab.wf d (t.filterMap g) = true := by
  rw [Tab.wf_iff] at h ⊢
  refine ⟨?_, ?_⟩
  · rw [List.pairwise_filterMap]
    refine h.1.imp_of_mem fun ha hb hlt x hx y hy => ?_
    rw [(hg _ x (h.2 _ ha) hx).1, (hg _ y (h.2 _ hb) hy).1]
    exact hlt
  · intro x hx
    obtain ⟨e, he, hex⟩ := List.mem_filterMap.mp hx
    exact (hg e x (h.2 e he) hex).2

theorem State.memThrough_wf (s : State) (warm : Bool) (h : s.canonical) :
    Tab.wf (fun _ => (0 : Byte)) (s.memThrough warm).1.dram = true := by
  have ite {c : Prop} [Decidable c] {a b : State} (ha : a.canonical) (hb : b.canonical) : (if c then a else b).canonical := by
    split <;> assumption
  unfold State.memThrough
  lift_lets -underBinder
  intro on x y z
  have hx : x.canonical := ite ((State.lose_fr ..).canon h) h
  have hy : y.canonical := ite ((State.drainPorts_fr _).canon hx) hx
  have hz : z.canonical := ite ((State.loseSegments_fr _).canon hy) hy
  clear_value z
  split
  · exact (Bool.and_eq_true_iff.mp hz.2).1
  · rfl

theorem State.resetCore_fr (s : State) (cause : Nat) (warm : Bool) : Fr 0x100000000000c0000000000000000000000000000000000000001000000000000000000000002020000000000000000000000000000000000000007fffff s (State.resetCore s cause warm) := by
  unfold State.resetCore
  have hm := s.memThrough_wf warm
  generalize s.memThrough warm = p at hm
  obtain ⟨mem, ix⟩ := p
  simp -zeta only
  lift_lets -underBinder
  intro t0 t1
  have h0 : Fr 0x100000000000c0000000000000000000000000000000000000001000000000000000000000002020000000000000000000000000000000000000007fffff s t0 := by
    refine ⟨fun h => ?_, rfl, fun q e => ?_, fun a j n => absurd trivial (n .all (by decide))⟩
    · refine ⟨Tab.wf_filterMap _ _ _ h.1 fun e x he hx => ?_, ?_⟩
      · split at hx
        · obtain rfl := Option.some.inj hx
          exact ⟨rfl, he⟩
        · split at hx
          · exact keepRws_wf e x hx
          · exact absurd hx (by simp)
      · have := h.2
        simp only [Memory.wf, Bool.and_eq_true] at this ⊢
        exact ⟨hm h, this.2⟩
    · cases q <;> first | exact absurd e (by decide) | rfl
  clear_value t0
  have h1 : Fr 0x100000000000c0000000000000000000000000000000000000001000000000000000000000002020000000000000000000000000000000000000007fffff s t1 := Fr.put h0 (by decide) (.fld .CAL_STATUS_SHADOW_OK rfl (by decide))
  clear_value t1
  exact Fr.call (State.hedgeShow_fr ..) (Fr.wr (Fr.wr h1 (by decide) (.fld .BOOT_LAST_RESET_CAUSE rfl (by decide))) (by decide)
    (.fld .BOOT_LAST_RESET_FAIL_STEP rfl (by decide))) (by decide)

theorem State.putFuse_fr (s : State) (r : Nat) (v : Nat) :
    Fr 0x100000000000000000000000000000000000000000000000000000000000000000000000040001 s (State.putFuse s r v) := by
  unfold State.putFuse
  lift_lets -underBinder
  intro x1
  refine Fr.have x1 ?_ (fun hx1 => ?_) <;> [unfold x1; clear_value x1]
  refine .call (State.cl_fr ..) ?_ (by decide)
  exact .refl ..
  refine .wr ?_ (by decide) (.fld .CAL_FUSE_STATUS_SPARES_FREE rfl (by decide))
  exact hx1

theorem State.tearFuse_fr (s : State) (r : Nat) :
    Fr 0x100000000000000000000000000000000000000000000000000000000000000000000000040005 s (State.tearFuse s r) := by
  unfold State.tearFuse
  split
  refine .call (State.putFuse_fr ..) ?_ (by decide)
  with_reducible refine Fr.pair (by assumption) ?_
  refine .call (State.drawFree_fr ..) ?_ (by decide)
  exact .refl ..

theorem State.burnTorn_fr (s : State) :
    Fr 0x100000000000000000000000000000000000000000000000000000000000000000000000040005 s (State.burnTorn s) := by
  unfold State.burnTorn
  split
  exact .refl ..
  lift_lets -underBinder
  intro x1
  split
  with_reducible apply Fr.foldl
  with_reducible refine Fr.pair (by assumption) ?_
  refine .call (State.drawFree_fr ..) ?_ (by decide)
  exact .refl ..
  intro x2 x3
  refine .call (State.tearFuse_fr ..) ?_ (by decide)
  exact .refl ..

theorem State.resetBody_fr (s : State) (cause : Nat) (warm : Bool) :
    Fr 0x100000000000c0000000000000000000000000000000001000001000000000000000000000002020000000000000000000000000000000000000007fffff s (State.resetBody s cause warm) := by
  unfold State.resetBody
  refine .call (State.resetCore_fr ..) ?_ (by decide)
  refine .call (State.burnTorn_fr ..) ?_ (by decide)
  exact .refl ..

theorem State.enterReset_fr (s : State) (cause : Nat) (warm : Bool) :
    Fr 0x100000000000c0000000000000000000000000000000001000001000000000000000000000002020000000000000000000000000000000000000007fffff s (State.enterReset s cause warm) := by
  unfold State.enterReset
  refine .ite ?_ ?_
  exact .refl ..
  refine .call (State.resetBody_fr ..) ?_ (by decide)
  exact .refl ..

theorem State.cmdReset_fr (s : State) (tag : Nat) (warm : Bool) :
    Fr 0x100000000000c0000000000000000000000000000000001000001000000000000000000000002020000000000000000000000000000000000000007fffff s (State.cmdReset s tag warm) := by
  unfold State.cmdReset
  lift_lets -underBinder
  intro x1
  refine Fr.have x1 ?_ (fun hx1 => ?_) <;> [unfold x1; clear_value x1]
  (with_reducible apply Fr.call (State.bo_fr ..)) <;> first | (intro _; rfl) | decide | skip
  refine .call (State.sy_fr ..) ?_ (by decide)
  exact .refl ..
  refine .ite ?_ ?_
  (with_reducible apply Fr.call (State.bo_fr ..)) <;> first | (intro _; rfl) | decide | skip
  exact hx1
  refine .call (State.enterReset_fr ..) ?_ (by decide)
  exact hx1

theorem State.cmdStandby_fr (s : State) (c : MboxCmd) :
    Fr 0x10000000000000000000000000003fe294100000000000000000000000000000010000000000000000000000000000000000000000f009004600c4b s (State.cmdStandby s c) := by
  unfold State.cmdStandby
  lift_lets -underBinder
  intro x1 x2
  refine Fr.have x2 ?_ (fun hx2 => ?_) <;> [unfold x2; clear_value x2]
  refine .call (State.sy_fr ..) ?_ (by decide)
  refine .wr ?_ (by decide) (.fld .SYS_PEND_STATUS_MODE_SCAN rfl (by decide))
  exact .refl ..
  refine .ite ?_ ?_
  refine .call (State.respond_fr ..) ?_ (by decide)
  refine .ite ?_ ?_
  refine .call (State.srEnter_fr ..) ?_ (by decide)
  refine .wr ?_ (by decide) (.fld .MEM_CTRL_SR rfl (by decide))
  exact .refl ..
  exact .refl ..
  refine .call (State.orderlyStop_fr ..) ?_ (by decide)
  refine .call (State.busyWith_fr ..) ?_ (by decide)
  exact hx2

theorem State.cmdStopping_fr (s : State) (c : MboxCmd) :
    Fr 0x10000000000000000000000000003fe294100000000000000000000000000000010000000000000000000000000000000000000000f009004600c4b s (State.cmdStopping s c) := by
  unfold State.cmdStopping
  split
  refine .call (State.cmdStandby_fr ..) ?_ (by decide)
  exact .refl ..
  refine .call (State.respond_fr ..) ?_ (by decide)
  refine .call (State.sy_fr ..) ?_ (by decide)
  refine .wr ?_ (by decide) (.fld .SYS_PEND_STATUS_MODE_SCAN rfl (by decide))
  exact .refl ..
  refine .call (State.respond_fr ..) ?_ (by decide)
  exact .refl ..

theorem State.cmdScan_fr (s : State) (c : MboxCmd) :
    Fr 0x800000000000000000000001400000080000000000000001fe80000010000000478006c00200110000000000120000000f04a038111a7b s (State.cmdScan s c) := by
  unfold State.cmdScan
  refine .ite ?_ ?_
  refine .call (State.respond_fr ..) ?_ (by decide)
  exact .refl ..
  refine .ite ?_ ?_
  refine .call (State.busyWith_fr ..) ?_ (by decide)
  exact .refl ..
  refine .call (State.goMode_fr ..) ?_ (by decide)
  refine .call (State.busyWith_fr ..) ?_ (by decide)
  exact .refl ..

theorem State.hisWritten_fr (s : State) : Fr 0x200000000000000000000041 s (State.hisWritten s) := by
  unfold State.hisWritten
  refine .ite ?_ ?_
  refine .wr ?_ (by decide) (.fld .HIS_STATUS_SETTINGS_PENDING rfl (by decide))
  exact .refl ..
  refine .call (State.hisTake_fr ..) ?_ (by decide)
  exact .refl ..

theorem State.testSrc_fr (s : State) (v : Nat) : Fr 0x1200000000000000000021 s (State.testSrc s v) := by
  unfold State.testSrc
  lift_lets -underBinder
  intro x1 x2 x3
  refine Fr.have x2 ?_ (fun hx2 => ?_) <;> [unfold x2; clear_value x2]
  refine .wr ?_ (by decide) (.fld .TDC_STATUS_TEST_ACTIVE rfl (by decide))
  refine .wr ?_ (by decide) (.fld .TDC_TEST_CFG_SRC rfl (by decide))
  exact .refl ..
  apply Fr.upd <;> first | show Fr _ _ _ | exact .inl rfl | exact .inr rfl | rfl
  exact hx2

theorem State.planRestore_fr (s : State) : Fr 0x2a201200000000000000040061 s (State.planRestore s) := by
  unfold State.planRestore
  lift_lets -underBinder
  intro x1 x2 x3
  refine Fr.have x1 ?_ (fun hx1 => ?_) <;> [unfold x1; clear_value x1]
  unfold State.restoreReg
  split
  refine .setReg ?_ (by decide) (.words .w_HIS_FIXWIN rfl (by decide))
  split
  refine .setReg ?_ (by decide) (.word .w_HIS_FIND_CFG rfl (by decide))
  split
  refine .setReg ?_ (by decide) (.word .w_HIS_RECIPE_CAL rfl (by decide))
  exact .refl ..
  exact .refl ..
  split
  refine .setReg ?_ (by decide) (.word .w_HIS_RECIPE_CAL rfl (by decide))
  exact .refl ..
  exact .refl ..
  split
  refine .setReg ?_ (by decide) (.word .w_HIS_FIND_CFG rfl (by decide))
  split
  refine .setReg ?_ (by decide) (.word .w_HIS_RECIPE_CAL rfl (by decide))
  exact .refl ..
  exact .refl ..
  split
  refine .setReg ?_ (by decide) (.word .w_HIS_RECIPE_CAL rfl (by decide))
  exact .refl ..
  exact .refl ..
  refine Fr.have x2 ?_ (fun hx2 => ?_) <;> [unfold x2; clear_value x2]
  unfold State.restoreReg
  split
  refine .setReg ?_ (by decide) (.words .w_HIS_FIXWIN rfl (by decide))
  split
  refine .setReg ?_ (by decide) (.words .w_HIS_FIXWIN rfl (by decide))
  exact hx1
  exact hx1
  split
  refine .setReg ?_ (by decide) (.words .w_HIS_FIXWIN rfl (by decide))
  exact hx1
  exact hx1
  refine Fr.have x3 ?_ (fun hx3 => ?_) <;> [unfold x3; clear_value x3]
  split
  refine .call (State.testSrc_fr ..) ?_ (by decide)
  exact hx2
  exact hx2
  refine .call (State.cl_fr ..) ?_ (by decide)
  refine .call (State.hisWritten_fr ..) ?_ (by decide)
  exact hx3

theorem State.setJrn_fr (s : State) (k : Nat) (r : Option JrnRec) : Fr 0x40000 s (State.setJrn s k r) := by
  unfold State.setJrn
  refine .call (State.cl_fr ..) ?_ (by decide)
  exact .refl ..

theorem State.jrnStart_fr (s : State) :
    Fr 0x4000400000000000000000000000000000000000000000000000000000000000000000840001 s (State.jrnStart s) := by
  unfold State.jrnStart
  lift_lets -underBinder
  intro x1
  refine .call (State.setJrn_fr ..) ?_ (by decide)
  refine .call (State.flashErase_fr ..) ?_ (by decide)
  refine .wr ?_ (by decide) (.fld .CAL_JRN_STATUS_PENDING rfl (by decide))
  refine .wr ?_ (by decide) (.fld .CAL_STATUS_JRN_BUSY rfl (by decide))
  exact .refl ..

theorem State.journalSave_fr (s : State) :
    Fr 0x4000400000000000000000000000000000000000000000000000000000000000000000840001 s (State.journalSave s) := by
  unfold State.journalSave
  refine .ite ?_ ?_
  exact .refl ..
  refine .ite ?_ ?_
  refine .wr ?_ (by decide) (.fld .CAL_JRN_STATUS_PENDING rfl (by decide))
  exact .refl ..
  refine .call (State.jrnStart_fr ..) ?_ (by decide)
  exact .refl ..

theorem State.planClose_fr (s : State) (cut : Bool) :
    Fr 0x4001e0000000000100000000000000000000000000000000002a201200000000000000840063 s (State.planClose s cut) := by
  unfold State.planClose
  refine .ite ?_ ?_
  exact .refl ..
  lift_lets -underBinder
  intro x1 x2 x3 x4 x5 x6
  refine Fr.have x2 ?_ (fun hx2 => ?_) <;> [unfold x2; clear_value x2]
  refine .ite ?_ ?_
  refine .wr ?_ (by decide) (.fld .SXT_STATUS_CDT_BUSY rfl (by decide))
  exact .refl ..
  exact .refl ..
  refine Fr.have x3 ?_ (fun hx3 => ?_) <;> [unfold x3; clear_value x3]
  refine .wr ?_ (by decide) (.fld .CAL_STATUS_ITEM rfl (by decide))
  refine .wr ?_ (by decide) (.fld .CAL_STATUS_BUSY rfl (by decide))
  refine .call (State.planRestore_fr ..) ?_ (by decide)
  exact hx2
  refine Fr.have x4 ?_ (fun hx4 => ?_) <;> [unfold x4; clear_value x4]
  refine .ite ?_ ?_
  refine .wr ?_ (by decide) (.fld .CAL_STATUS_RERUN_PENDING rfl (by decide))
  exact hx3
  exact hx3
  refine Fr.have x6 ?_ (fun hx6 => ?_) <;> [unfold x6; clear_value x6]
  refine .call (State.cl_fr ..) ?_ (by decide)
  exact hx4
  refine .ite ?_ ?_
  refine .call (State.raise_fr ..) ?_ (by decide)
  refine .call (State.journalSave_fr ..) ?_ (by decide)
  exact hx6
  exact hx6

theorem State.beginItem_fr (s : State) (item : Nat) :
    Fr 0x10000000000310000000000000000000000000000000000d4201200608000000000050073 s (State.beginItem s item) := by
  unfold State.beginItem
  lift_lets -underBinder
  intro x1
  refine Fr.have x1 ?_ (fun hx1 => ?_) <;> [unfold x1; clear_value x1]
  refine .wr ?_ (by decide) (.fld .CAL_STATUS_ITEM rfl (by decide))
  exact .refl ..
  split
  lift_lets -underBinder
  intro x2
  refine .call (State.cl_fr ..) ?_ (by decide)
  refine .call (State.hisWritten_fr ..) ?_ (by decide)
  refine .call (State.testSrc_fr ..) ?_ (by decide)
  refine .wr ?_ (by decide) (.fld .HIS_RECIPE_CAL_FIRE rfl (by decide))
  exact hx1
  refine .wr ?_ (by decide) (.fld .SXT_STATUS_CDT_BUSY rfl (by decide))
  refine .call (State.sxtAbort_fr ..) ?_ (by decide)
  exact hx1
  lift_lets -underBinder
  intro x3 x4 x5
  refine Fr.have x5 ?_ (fun hx5 => ?_) <;> [unfold x5; clear_value x5]
  unfold x4
  refine .wr ?_ (by decide) (.arr .HIS_FIXWIN_EN rfl (by decide))
  refine .wr ?_ (by decide) (.arr .HIS_FIXWIN_START rfl (by decide))
  refine .wr ?_ (by decide) (.arr .HIS_FIXWIN_EN rfl (by decide))
  refine .wr ?_ (by decide) (.arr .HIS_FIXWIN_START rfl (by decide))
  refine .wr ?_ (by decide) (.arr .HIS_FIXWIN_EN rfl (by decide))
  refine .wr ?_ (by decide) (.arr .HIS_FIXWIN_START rfl (by decide))
  exact hx1
  refine .call (State.cl_fr ..) ?_ (by decide)
  refine .call (State.hisWritten_fr ..) ?_ (by decide)
  refine .call (State.testSrc_fr ..) ?_ (by decide)
  refine .wr ?_ (by decide) (.fld .HIS_RECIPE_CAL_FIRE rfl (by decide))
  refine .wr ?_ (by decide) (.fld .HIS_FIND_CFG_FIXWIN rfl (by decide))
  exact hx5
  refine .call (State.surveyBegin_fr ..) ?_ (by decide)
  exact hx1
  exact hx1

theorem State.nextItem_fr (s : State) :
    Fr 0x10000000000310000000000000000000000000000000000d4201200608000000000050073 s (State.nextItem s) := by
  unfold State.nextItem
  split
  refine .wr ?_ (by decide) (.fld .CAL_STATUS_ITEM rfl (by decide))
  exact .refl ..
  refine .call (State.beginItem_fr ..) ?_ (by decide)
  exact .refl ..

theorem State.startPlan_fr (s : State) (plan : Nat) (cause : Nat) (internal : Bool) :
    Fr 0x80000000000000000000000140000008004003e000000001ff80000010000000478006c0020011000000fe20120060800f04a038951a7b s (State.startPlan s plan cause internal) := by
  unfold State.startPlan
  lift_lets -underBinder
  intro x1 x2 x3 x4 x5
  refine Fr.have x1 ?_ (fun hx1 => ?_) <;> [unfold x1; clear_value x1]
  refine .call (State.planClose_fr ..) ?_ (by decide)
  exact .refl ..
  refine Fr.have x3 ?_ (fun hx3 => ?_) <;> [unfold x3; clear_value x3]
  apply Fr.upd <;> first | show Fr _ _ _ | exact .inl rfl | exact .inr rfl | rfl
  exact hx1
  refine Fr.have x4 ?_ (fun hx4 => ?_) <;> [unfold x4; clear_value x4]
  refine .call (State.goMode_fr ..) ?_ (by decide)
  exact hx3
  refine Fr.have x5 ?_ (fun hx5 => ?_) <;> [unfold x5; clear_value x5]
  refine .call (State.cl_fr ..) ?_ (by decide)
  refine .wr ?_ (by decide) (.fld .CAL_STATUS_BUSY rfl (by decide))
  refine .wr ?_ (by decide) (.fld .CAL_STATUS_PLAN rfl (by decide))
  exact hx4
  refine .call (State.nextItem_fr ..) ?_ (by decide)
  exact hx5

theorem State.romDram_fr (s : State) :
    Fr 0x6000000000000000000000000000080000003c2000000000000000000000000000000000000000000000000000000000000000000000000008000000405 s (State.romDram s) := by
  unfold State.romDram
  lift_lets -underBinder
  intro x1 x2
  refine Fr.have x1 ?_ (fun hx1 => ?_) <;> [unfold x1; clear_value x1]
  refine .ite ?_ ?_
  exact .refl ..
  refine .call (State.memDisable_fr ..) ?_ (by decide)
  exact .refl ..
  refine Fr.have x2 ?_ (fun hx2 => ?_) <;> [unfold x2; clear_value x2]
  refine .resetRegs .r_MEM_DLY rfl ?_ (by decide) (by decide) (by decide)
  refine .resetRegs .r_MEM_CFG rfl ?_ (by decide) (by decide) (by decide)
  exact hx1
  refine .call (State.memEnable_fr ..) ?_ (by decide)
  refine .wr ?_ (by decide) (.fld .MEM_TRN_STATE_VALID rfl (by decide))
  exact hx2

theorem State.upCheck_fr (s : State) (e : Nat) :
    Fr 0x40000c00000000000000000000000000000000000000000000000000000000000000000000000000000000000000000000003 s (State.upCheck s e) := by
  unfold State.upCheck
  lift_lets -underBinder
  intro x1 x2
  refine .ite ?_ ?_
  exact .refl ..
  refine .call (State.raise_fr ..) ?_ (by decide)
  refine .put ?_ (by decide) (.ite (.fld .LNK_STATUS_ETH0_UP rfl (by decide)) (.fld .LNK_STATUS_ETH1_UP rfl (by decide)))
  refine .put ?_ (by decide) (.arr .LNK_ETH_STATUS_UP rfl (by decide))
  exact .refl ..

theorem State.ethOff_fr (s : State) (e : Nat) :
    Fr 0x78000f00000000000000000000000000000000000000000000000000000000000000000000000000000000000000000000003 s (State.ethOff s e) := by
  unfold State.ethOff
  lift_lets -underBinder
  intro x1
  refine Fr.have x1 ?_ (fun hx1 => ?_) <;> [unfold x1; clear_value x1]
  refine .wr ?_ (by decide) (.arr .LNK_ETH_STATUS_BLOCK_LOCK rfl (by decide))
  refine .wr ?_ (by decide) (.ite (.fld .LNK_CTRL_ETH0_EN rfl (by decide)) (.fld .LNK_CTRL_ETH1_EN rfl (by decide)))
  exact .refl ..
  refine .call (State.upCheck_fr ..) ?_ (by decide)
  refine .wr ?_ (by decide) (.arr .LNK_ETH_STATUS_TX_LPI rfl (by decide))
  refine .wr ?_ (by decide) (.arr .LNK_ETH_STATUS_RX_LPI rfl (by decide))
  exact hx1

theorem State.hdlCut_fr (s : State) :
    Fr 0x1c000000000000000000000000000000000000000000000000000000000000000000000000000000000000000000000000000000000000100007 s (State.hdlCut s) := by
  unfold State.hdlCut
  lift_lets -underBinder
  intro x1
  refine Fr.have x1 ?_ (fun hx1 => ?_) <;> [unfold x1; clear_value x1]
  refine .call (State.hdlRxCut_fr ..) ?_ (by decide)
  exact .refl ..
  split
  split
  lift_lets -underBinder
  intro x2
  refine Fr.have x2 ?_ (fun hx2 => ?_) <;> [unfold x2; clear_value x2]
  refine .wr ?_ (by decide) (.fld .BOOT_HDL_STATUS_RESULT rfl (by decide))
  refine .wr ?_ (by decide) (.fld .BOOT_HDL_STATUS_TX_BUSY rfl (by decide))
  with_reducible refine Fr.pair (by assumption) ?_
  refine .call (State.drawFree_fr ..) ?_ (by decide)
  exact hx1
  refine .call (State.raise_fr ..) ?_ (by decide)
  (with_reducible apply Fr.call (State.bo_fr ..)) <;> first | (intro _; rfl) | decide | skip
  exact hx2
  exact hx1

theorem State.enterRecovery_fr (s : State) (cause : Nat) :
    Fr 0x60000001c000080000000078000f080000003c20000080000000000000001fe80000010000000478006c00200110000000000120012200f04a038111e7f s (State.enterRecovery s cause) := by
  unfold State.enterRecovery
  lift_lets -underBinder
  intro x1
  refine Fr.have x1 ?_ (fun hx1 => ?_) <;> [unfold x1; clear_value x1]
  (with_reducible apply Fr.call (State.bo_fr ..)) <;> first | (intro _; rfl) | decide | skip
  refine .call (State.biasHeld_fr ..) ?_ (by decide)
  refine .call (State.goMode_fr ..) ?_ (by decide)
  exact .refl ..
  refine .call (State.romDram_fr ..) ?_ (by decide)
  refine .call (State.hdlCut_fr ..) ?_ (by decide)
  refine .call (State.ethOff_fr ..) ?_ (by decide)
  refine .call (State.ethOff_fr ..) ?_ (by decide)
  exact hx1

theorem State.cmdRecovery_fr (s : State) (c : MboxCmd) :
    Fr 0x60000001c000080000000078000f080000003c20000080000000000000001fe80000010000000478006c00200110000000000120012200f04a038111e7f s (State.cmdRecovery s c) := by
  unfold State.cmdRecovery
  refine .ite ?_ ?_
  refine .call (State.respond_fr ..) ?_ (by decide)
  exact .refl ..
  refine .call (State.enterRecovery_fr ..) ?_ (by decide)
  refine .call (State.busyWith_fr ..) ?_ (by decide)
  exact .refl ..

theorem State.cmdDerate_fr (s : State) (c : MboxCmd) :
    Fr 0x800000000000000000000001400000080000000000000001fe80000010000000000000000200010000000000120000000f00b03c11087b s (State.cmdDerate s c) := by
  unfold State.cmdDerate
  lift_lets -underBinder
  intro x1
  refine Fr.have x1 ?_ (fun hx1 => ?_) <;> [unfold x1; clear_value x1]
  refine .call (State.sy_fr ..) ?_ (by decide)
  exact .refl ..
  refine .ite ?_ ?_
  refine .call (State.respond_fr ..) ?_ (by decide)
  exact hx1
  refine .call (State.derateCheck_fr ..) ?_ (by decide)
  refine .call (State.busyWith_fr ..) ?_ (by decide)
  exact hx1

theorem State.rerunCheck_fr (s : State) :
    Fr 0x80000000000000000000000140000008004003e000000001ff80000010000000478006c0020011000000fe20120060800f04a038951a7b s (State.rerunCheck s) := by
  unfold State.rerunCheck
  refine .ite ?_ ?_
  refine .call (State.startPlan_fr ..) ?_ (by decide)
  exact .refl ..
  exact .refl ..

theorem State.toScan_fr {w : Nat} {s0 : State} {s : State} {f : State → State} (h : Fr w s0 s) (hf : ∀  y, Fr w y (f  y)) (hw : 0x80000000000000000000000140000008004003e000000001ff80000010000000478006c0020011000000fe20120060800f04a038951a7b &&& w = 0x80000000000000000000000140000008004003e000000001ff80000010000000478006c0020011000000fe20120060800f04a038951a7b) :
    Fr w s0 (State.toScan s f) := by
  refine h.trans ?_
  unfold State.toScan
  refine .ite ?_ ?_
  refine Fr.trans ?_ (hf _)
  exact .refl ..
  (with_reducible apply Fr.call (State.rerunCheck_fr ..)) <;> [skip; exact sub_trans (by decide) hw]
  refine Fr.trans ?_ (hf _)
  exact .refl ..

theorem State.cmdRelease_fr (s : State) (c : MboxCmd) :
    Fr 0x80000000000000000000000140000008004003e000000001ff80000010000000478006c0020011000000fe20120060800f04b03c951a7b s (State.cmdRelease s c) := by
  unfold State.cmdRelease
  lift_lets -underBinder
  intro x1
  refine Fr.have x1 ?_ (fun hx1 => ?_) <;> [unfold x1; clear_value x1]
  refine .call (State.respond_fr ..) ?_ (by decide)
  refine .call (State.sy_fr ..) ?_ (by decide)
  exact .refl ..
  (with_reducible apply State.toScan_fr) <;> [skip; skip; decide]
  exact hx1
  intro x2
  refine .call (State.derateCheck_fr ..) ?_ (by decide)
  exact .refl ..

theorem State.cmdEffect_fr (s : State) (c : MboxCmd) :
    Fr 0x60001001c000080000000078000f08003fe2bc3000008004003e000000001ff80000010000000478006c0020011000000fe20120072a00f04b03cf51e7f s (State.cmdEffect s c) := by
  unfold State.cmdEffect
  split
  refine .call (State.cmdStandby_fr ..) ?_ (by decide)
  exact .refl ..
  refine .call (State.cmdScan_fr ..) ?_ (by decide)
  exact .refl ..
  refine .call (State.startPlan_fr ..) ?_ (by decide)
  refine .call (State.busyWith_fr ..) ?_ (by decide)
  exact .refl ..
  refine .call (State.cmdDerate_fr ..) ?_ (by decide)
  exact .refl ..
  refine .call (State.cmdRelease_fr ..) ?_ (by decide)
  exact .refl ..
  refine .call (State.cmdRecovery_fr ..) ?_ (by decide)
  exact .refl ..

theorem State.cmdMode_fr (s : State) (c : MboxCmd) :
    Fr 0x60001001c000080000000078000f08003fe2bc3000008004003e000000001ff80000010000000478006c0020011000000fe20120072a00f04b03cf51e7f s (State.cmdMode s c) := by
  unfold State.cmdMode
  refine .ite ?_ ?_
  refine .call (State.respond_fr ..) ?_ (by decide)
  exact .refl ..
  refine .ite ?_ ?_
  refine .call (State.respond_fr ..) ?_ (by decide)
  exact .refl ..
  refine .ite ?_ ?_
  refine .call (State.respond_fr ..) ?_ (by decide)
  exact .refl ..
  refine .ite ?_ ?_
  refine .call (State.cmdStopping_fr ..) ?_ (by decide)
  exact .refl ..
  refine .ite ?_ ?_
  refine .call (State.respond_fr ..) ?_ (by decide)
  exact .refl ..
  refine .call (State.cmdEffect_fr ..) ?_ (by decide)
  exact .refl ..

theorem State.modeGroup_fr (s : State) (c : MboxCmd) :
    Fr 0x160001001c00c080000000078000f08003fe2bc3000008104003f000000001ff80000010000020678006c0020011000000fe20120072a01f04b03cffffff s (State.modeGroup s c) := by
  unfold State.modeGroup
  split
  refine .call (State.cmdReset_fr ..) ?_ (by decide)
  exact .refl ..
  refine .call (State.cmdReset_fr ..) ?_ (by decide)
  exact .refl ..
  refine .call (State.respond_fr ..) ?_ (by decide)
  refine .setReg ?_ (by decide) (.word .w_SYS_MBOX_DATA rfl (by decide))
  exact .refl ..
  refine .call (State.cmdMode_fr ..) ?_ (by decide)
  exact .refl ..

theorem State.lk_fr (s : State) (f : Lnk → Lnk) : Fr 0x800 s (State.lk s f) := by
  unfold State.lk
  apply Fr.upd <;> first | show Fr _ _ _ | exact .inl rfl | exact .inr rfl | rfl
  exact .refl ..

theorem State.mb_fr (s : State) (f : Mer → Mer) : Fr 0x4000 s (State.mb s f) := by
  unfold State.mb
  apply Fr.upd <;> first | show Fr _ _ _ | exact .inl rfl | exact .inr rfl | rfl
  exact .refl ..

theorem State.masterFrame_fr (s : State) (b : Nat) :
    Fr 0x10000000000000000000000000000000000000000000000000000000000000002400000000000000000000000000000000000000000000000204003 s (State.masterFrame s b) := by
  unfold State.masterFrame
  lift_lets -underBinder
  intro x1 x2
  refine Fr.have x1 ?_ (fun hx1 => ?_) <;> [unfold x1; clear_value x1]
  refine .call (State.count_fr ..) ?_ (by decide)
  exact .refl ..
  refine Fr.have x2 ?_ (fun hx2 => ?_) <;> [unfold x2; clear_value x2]
  refine .ite ?_ ?_
  refine .wr ?_ (by decide) (.fld .MER_STATUS_STATE rfl (by decide))
  exact hx1
  exact hx1
  refine .ite ?_ ?_
  refine .ite ?_ ?_
  exact hx1
  refine .call (State.raise_fr ..) ?_ (by decide)
  refine .wr ?_ (by decide) (.fld .MER_STATUS_ID_CONFLICT rfl (by decide))
  exact hx1
  refine .ite ?_ ?_
  refine .ite ?_ ?_
  refine .call (State.mb_fr ..) ?_ (by decide)
  exact hx2
  exact hx2
  exact hx1

theorem execDelayFrame_fr (unit : Fin 8) (d16 : BitVec 24) (b : Nat) (s : State) :
    Runs 0x10000000000000000000000000000000000000000000000000000000000000006400000000000000000000000000000000000000000000000204003 s (execDelayFrame unit d16 b s) := by
  unfold execDelayFrame
  refine .next ?_
  lift_lets -underBinder
  intro x1 x2
  refine Fr.have x1 ?_ (fun hx1 => ?_) <;> [unfold x1; clear_value x1]
  refine .call (State.masterFrame_fr ..) ?_ (by decide)
  exact .refl ..
  refine Fr.have x2 ?_ (fun hx2 => ?_) <;> [unfold x2; clear_value x2]
  refine .call (State.mb_fr ..) ?_ (by decide)
  refine .wr ?_ (by decide) (.fld .MER_DELAY_D16 rfl (by decide))
  exact hx1
  refine .ite ?_ ?_
  refine .ite ?_ ?_
  refine .wr ?_ (by decide) (.fld .MER_STATUS_STATE rfl (by decide))
  exact hx2
  exact hx2
  exact hx1

theorem State.th_fr (s : State) (f : Thm → Thm) : Fr 0x80000 s (State.th s f) := by
  unfold State.th
  apply Fr.upd <;> first | show Fr _ _ _ | exact .inl rfl | exact .inr rfl | rfl
  exact .refl ..

theorem State.thermSettle_fr (s : State) :
    Fr 0x48185000000000000000000000000000000000000000000000000000000000000000000000000000003 s (State.thermSettle s) := by
  unfold State.thermSettle
  lift_lets -underBinder
  intro x1 x2 x3 x4 x5
  refine Fr.have x1 ?_ (fun hx1 => ?_) <;> [unfold x1; clear_value x1]
  with_reducible apply Fr.forN
  exact .refl ..
  intro x6 x7
  refine .put ?_ (by decide) (.arr .THM_SNS_ST_FAST rfl (by decide))
  refine .wrS ?_ (by decide) (.arr .THM_SNS_T_USED rfl (by decide))
  exact .refl ..
  refine Fr.have x4 ?_ (fun hx4 => ?_) <;> [unfold x4; clear_value x4]
  refine .wrS ?_ (by decide) (.fld .THM_T_STAGE_T_STAGE rfl (by decide))
  refine .wr ?_ (by decide) (.fld .THM_STATUS_HOTTEST rfl (by decide))
  exact hx1
  refine .ite ?_ ?_
  refine .wr ?_ (by decide) (.fld .THM_STATUS_RZ_STALE rfl (by decide))
  refine .wrS ?_ (by decide) (.fld .THM_T_STAGE_T_RZ rfl (by decide))
  exact hx4
  refine .call (State.raiseIf_fr ..) ?_ (by decide)
  refine .wr ?_ (by decide) (.fld .THM_STATUS_RZ_STALE rfl (by decide))
  exact hx4

theorem execSensorConversion_fr (k : Fin 24) (v : Int) (s : State) :
    Runs 0x58185000000000000000000000000000000000000000000000000000000000000000000000000080013 s (execSensorConversion k v s) := by
  unfold execSensorConversion
  refine .next ?_
  lift_lets -underBinder
  intro x1 x2 x3 x4 x5 x6 x7 x8 x9
  refine Fr.have x4 ?_ (fun hx4 => ?_) <;> [unfold x4; clear_value x4]
  refine .call (State.th_fr ..) ?_ (by decide)
  exact .refl ..
  refine Fr.have x7 ?_ (fun hx7 => ?_) <;> [unfold x7; clear_value x7]
  refine .call (State.th_fr ..) ?_ (by decide)
  exact hx4
  refine Fr.have x9 ?_ (fun hx9 => ?_) <;> [unfold x9; clear_value x9]
  refine .ite ?_ ?_
  apply Fr.upd <;> first | show Fr _ _ _ | exact .inl rfl | exact .inr rfl | rfl
  exact hx7
  exact hx7
  refine .ite ?_ ?_
  refine .call (State.th_fr ..) ?_ (by decide)
  exact hx4
  refine .ite ?_ ?_
  exact hx7
  refine .call (State.thermSettle_fr ..) ?_ (by decide)
  refine .wrS ?_ (by decide) (.arr .THM_SNS_T_RAW rfl (by decide))
  exact hx9

theorem execSpinUpLockAchieved_fr (s : State) :
    Runs 0x80000000000000000000000140000008004003e000000001ff80000010000000478006c0020011000000fe20120060800f04b03c951a7b s (execSpinUpLockAchieved s) := by
  unfold execSpinUpLockAchieved
  refine .next ?_
  refine .ite ?_ ?_
  exact .refl ..
  refine .call (State.rerunCheck_fr ..) ?_ (by decide)
  refine .call (State.derateCheck_fr ..) ?_ (by decide)
  refine .call (State.goMode_fr ..) ?_ (by decide)
  exact .refl ..

theorem State.clearLatch_fr (s : State) :
    Fr 0x60000001c000080000000078000f080000003c20000080000000000000001fe8000001000003def8006c00200110000000000120012200f04a038113e7f s (State.clearLatch s) := by
  unfold State.clearLatch
  lift_lets -underBinder
  intro x1 x2 x3
  refine Fr.have x1 ?_ (fun hx1 => ?_) <;> [unfold x1; clear_value x1]
  refine .wr ?_ (by decide) (.fld .HDG_TRIP_CAUSE_FIRST rfl (by decide))
  refine .wr ?_ (by decide) (.fld .HDG_TRIP_CAUSE_CAUSE rfl (by decide))
  refine .wr ?_ (by decide) (.fld .HDG_STATUS_LATCH rfl (by decide))
  exact .refl ..
  refine Fr.have x2 ?_ (fun hx2 => ?_) <;> [unfold x2; clear_value x2]
  refine .call (State.raise_fr ..) ?_ (by decide)
  refine .wr ?_ (by decide) (.fld .HDG_STATUS_PWM_GATE rfl (by decide))
  refine .call (State.setGst_fr ..) ?_ (by decide)
  exact hx1
  refine Fr.have x3 ?_ (fun hx3 => ?_) <;> [unfold x3; clear_value x3]
  refine .call (State.hedgeShow_fr ..) ?_ (by decide)
  refine .call (State.hd_fr ..) ?_ (by decide)
  exact hx2
  refine .ite ?_ ?_
  refine .call (State.emiSettle_fr ..) ?_ (by decide)
  exact hx3
  refine .ite ?_ ?_
  refine .call (State.goMode_fr ..) ?_ (by decide)
  exact hx3
  refine .call (State.enterRecovery_fr ..) ?_ (by decide)
  exact hx3

theorem execResetPairComplete_fr (s : State) :
    Runs 0x60000001c000080000000078000f080000003c20000080000000000000001fe8000001100003dff8006c00200110000000000120012200f04a038113e7f s (execResetPairComplete s) := by
  unfold execResetPairComplete
  refine .next ?_
  refine .ite ?_ ?_
  exact .refl ..
  lift_lets -underBinder
  intro x1
  refine Fr.have x1 ?_ (fun hx1 => ?_) <;> [unfold x1; clear_value x1]
  refine .wr ?_ (by decide) (.fld .HDG_STATUS_RST_PHASE rfl (by decide))
  exact .refl ..
  refine .ite ?_ ?_
  refine .call (State.clearLatch_fr ..) ?_ (by decide)
  exact hx1
  refine .call (State.raise_fr ..) ?_ (by decide)
  refine .bump ?_ (by decide) (.fld .HDG_CNT_RST_REF_COUNT rfl (by decide))
  exact hx1

theorem execSensorFail_fr (k : Fin 24) (cause : Fin 3) (s : State) :
    Runs 0xe8185000000000000000000000000000000000000000000000000000000000000000000000000000003 s (execSensorFail k cause s) := by
  unfold execSensorFail
  refine .next ?_
  refine .ite ?_ ?_
  exact .refl ..
  lift_lets -underBinder
  intro x1
  refine .call (State.thermSettle_fr ..) ?_ (by decide)
  refine .call (State.raiseIf_fr ..) ?_ (by decide)
  refine .wr ?_ (by decide) (.arr .THM_SNS_ST_CAUSE rfl (by decide))
  refine .wr ?_ (by decide) (.arr .THM_SNS_ST_STATE rfl (by decide))
  exact .refl ..

theorem execTestEnHigh_fr (s : State) :
    Runs 0x100000000000c0000000000000000000000000000000001000001000000000000000000000002520000000000000000000000000000000000000007fffff s (execTestEnHigh s) := by
  unfold execTestEnHigh
  refine .next ?_
  lift_lets -underBinder
  intro x1
  refine Fr.have x1 ?_ (fun hx1 => ?_) <;> [unfold x1; clear_value x1]
  refine .call (State.sy_fr ..) ?_ (by decide)
  refine .call (State.enterReset_fr ..) ?_ (by decide)
  exact .refl ..
  refine .call (State.hd_fr ..) ?_ (by decide)
  refine .call (State.setGst_fr ..) ?_ (by decide)
  exact hx1

theorem State.scanAfterStop_fr (s : State) :
    Fr 0x800000000000000000000001400000080000000000000001fe80000010000000478006c00200110000000000120000000f04b038111a7b s (State.scanAfterStop s) := by
  unfold State.scanAfterStop
  split
  exact .refl ..
  lift_lets -underBinder
  intro x1
  refine Fr.have x1 ?_ (fun hx1 => ?_) <;> [unfold x1; clear_value x1]
  refine .call (State.sy_fr ..) ?_ (by decide)
  refine .wr ?_ (by decide) (.fld .SYS_PEND_STATUS_MODE_SCAN rfl (by decide))
  exact .refl ..
  refine .ite ?_ ?_
  refine .call (State.respond_fr ..) ?_ (by decide)
  exact hx1
  refine .call (State.goMode_fr ..) ?_ (by decide)
  refine .call (State.sy_fr ..) ?_ (by decide)
  refine .wr ?_ (by decide) (.fld .SYS_MBOX_RESP_STATUS rfl (by decide))
  exact hx1

theorem execOrderlyStopComplete_fr (s : State) :
    Runs 0x10000000080000000000000000003fe29410000080000000000000001fe80000010000000478006c00200110000000000120000000f04b03c711e7b s (execOrderlyStopComplete s) := by
  unfold execOrderlyStopComplete
  refine .next ?_
  refine .ite ?_ ?_
  exact .refl ..
  lift_lets -underBinder
  intro x1 x2 x3 x4
  refine Fr.have x2 ?_ (fun hx2 => ?_) <;> [unfold x2; clear_value x2]
  refine .call (State.sy_fr ..) ?_ (by decide)
  refine .wr ?_ (by decide) (.fld .SYS_MODE_STOPPING rfl (by decide))
  exact .refl ..
  refine Fr.have x3 ?_ (fun hx3 => ?_) <;> [unfold x3; clear_value x3]
  refine .call (State.goMode_fr ..) ?_ (by decide)
  exact hx2
  refine Fr.have x4 ?_ (fun hx4 => ?_) <;> [unfold x4; clear_value x4]
  refine .ite ?_ ?_
  refine .call (State.srEnter_fr ..) ?_ (by decide)
  refine .wr ?_ (by decide) (.fld .MEM_CTRL_SR rfl (by decide))
  exact hx3
  exact hx3
  refine .call (State.scanAfterStop_fr ..) ?_ (by decide)
  exact hx4

theorem State.pendHalves_fr (s : State) (k : Nat) : Fr 0x30000000001 s (State.pendHalves s k) := by
  unfold State.pendHalves
  refine .put ?_ (by decide) (by unfold halfSys; exact .ite (.fld .SYS_PEND_STATUS_LNK_TX rfl (by decide)) (.fld .SYS_PEND_STATUS_LNK_RX rfl (by decide)))
  exact .refl ..

theorem State.halfEnable_fr (s : State) (e : Nat) (k : Nat) :
    Fr 0x7800000000000000000000000000000000000000000000000000000000000000000000000000000000000000030000000003 s (State.halfEnable s e k) := by
  unfold State.halfEnable
  lift_lets -underBinder
  intro x1
  refine Fr.have x1 ?_ (fun hx1 => ?_) <;> [unfold x1; clear_value x1]
  refine .wr ?_ (by decide) (by unfold halfEn; exact .ite (.arr .LNK_ETH_CTRL_TX_EN rfl (by decide)) (.arr .LNK_ETH_CTRL_RX_EN rfl (by decide)))
  exact .refl ..
  refine .ite ?_ ?_
  refine .ite ?_ ?_
  exact hx1
  refine .call (State.pendHalves_fr ..) ?_ (by decide)
  refine .call (State.raise_fr ..) ?_ (by decide)
  refine .wr ?_ (by decide) (by unfold halfPend; exact .ite (.arr .LNK_ETH_STATUS_TX_PENDING rfl (by decide)) (.arr .LNK_ETH_STATUS_RX_PENDING rfl (by decide)))
  exact hx1
  exact hx1

theorem execTxEnable_fr (e : Fin 2) (s : State) :
    Runs 0x1000000000000000000780000000000000000000000000000000000000000000000000000000000000000000000000000000000000003000020000b s (execTxEnable e s) := by
  unfold execTxEnable
  refine .next ?_
  (with_reducible apply State.access_fr) <;> [skip; skip; decide]
  exact .refl ..
  intro x1
  refine .call (State.halfEnable_fr ..) ?_ (by decide)
  exact .refl ..

theorem execGroupRun_fr (s : State) :
    Runs 0x10000000080000000000000000000000140000008004003e000000001ff80000010000000478006c0020011009200fe20120060800f04b03cb51afb s (execGroupRun s) := by
  unfold execGroupRun
  refine .next ?_
  (with_reducible apply State.access_fr) <;> [skip; skip; decide]
  exact .refl ..
  intro x1
  (with_reducible apply State.toScan_fr) <;> [skip; skip; decide]
  exact .refl ..
  intro x2
  refine .call (State.groupRun_fr ..) ?_ (by decide)
  exact .refl ..

theorem execFaultClr_fr (s : State) :
    Runs 0x10000000080000000000000000000000140000008004003e000000001ff80000010000000478006c0020031000000fe20120060800f04b03cb51a7b s (execFaultClr s) := by
  unfold execFaultClr
  refine .next ?_
  (with_reducible apply State.access_fr) <;> [skip; skip; decide]
  exact .refl ..
  intro x1
  (with_reducible apply State.toScan_fr) <;> [skip; skip; decide]
  exact .refl ..
  intro x2
  refine .call (State.faultClr_fr ..) ?_ (by decide)
  exact .refl ..

theorem execPhaseStep_fr (s : State) : Runs 0x8000000000000000000000000000000000000000000000000004001 s (execPhaseStep s) := by
  unfold execPhaseStep
  refine .next ?_
  lift_lets -underBinder
  intro x1 x2
  refine .ite ?_ ?_
  exact .refl ..
  refine .call (State.mb_fr ..) ?_ (by decide)
  refine .wrS ?_ (by decide) (.fld .MER_PHASE_STEPS rfl (by decide))
  exact .refl ..

theorem execThermalTripRelease_fr (s : State) : Runs 0x80000 s (execThermalTripRelease s) := by
  unfold execThermalTripRelease
  refine .next ?_
  lift_lets -underBinder
  intro x1 x2
  refine .ite ?_ ?_
  refine .call (State.th_fr ..) ?_ (by decide)
  exact .refl ..
  exact .refl ..

theorem State.setPkt_fr (s : State) (e : Nat) (p : Pkt) : Fr 0x800 s (State.setPkt s e p) := by
  unfold State.setPkt
  refine .call (State.lk_fr ..) ?_ (by decide)
  exact .refl ..

theorem State.pktSend_fr (s : State) (e : Nat) :
    Fr 0x4010000000000000000000000000000000000000000000000000000000000000000000000000000000000000000000000000801 s (State.pktSend s e) := by
  unfold State.pktSend
  lift_lets -underBinder
  intro x1 x2
  refine Fr.have x2 ?_ (fun hx2 => ?_) <;> [unfold x2; clear_value x2]
  refine .call (State.setPkt_fr ..) ?_ (by decide)
  refine .call (State.udpQueue_fr ..) ?_ (by decide)
  exact .refl ..
  refine .ite ?_ ?_
  exact .refl ..
  refine .wr ?_ (by decide) (.arr .LNK_ETH_STATUS_TX_LPI rfl (by decide))
  refine .wr ?_ (by decide) (.arr .LNK_ETH_PKT_SEQ_SEQ rfl (by decide))
  exact hx2

theorem State.pktPlace_fr (s : State) (e : Nat) (seq : Nat) (block : List Byte) (failing : Bool) :
    Fr 0x4010000000000000000000000000000000000000000000000000000000000000000000000000000000000000000000000000801 s (State.pktPlace s e seq block failing) := by
  unfold State.pktPlace
  lift_lets -underBinder
  intro x1 x2
  refine Fr.have x1 ?_ (fun hx1 => ?_) <;> [unfold x1; clear_value x1]
  refine .ite ?_ ?_
  refine .call (State.pktSend_fr ..) ?_ (by decide)
  exact .refl ..
  exact .refl ..
  refine .call (State.setPkt_fr ..) ?_ (by decide)
  exact hx1

theorem State.ringAdvance_fr (s : State) :
    Fr 0x8000000000000000000000000000000000000000000000000000000000000000000000000000000000000000801 s (State.ringAdvance s) := by
  unfold State.ringAdvance
  lift_lets -underBinder
  intro x1 x2
  refine Fr.have x2 ?_ (fun hx2 => ?_) <;> [unfold x2; clear_value x2]
  split
  refine .wr ?_ (by decide) (.fld .MEM_PB_RPTR_OFS rfl (by decide))
  exact .refl ..
  exact .refl ..
  refine .call (State.lk_fr ..) ?_ (by decide)
  exact hx2

theorem State.pktDrop_fr (s : State) :
    Fr 0x400000000000000000000000000000000000000000000000000000000000000000000000000000000000000000000000003 s (State.pktDrop s) := by
  unfold State.pktDrop
  lift_lets -underBinder
  intro x1
  refine .call (State.raiseIf_fr ..) ?_ (by decide)
  refine .bump ?_ (by decide) (.fld .LNK_PKT_DROP_COUNT rfl (by decide))
  exact .refl ..

theorem State.pktTake_fr (s : State) (rec_ : List Byte) (o : Nat) (poisoned : Bool) (bad : Bool) :
    Fr 0x4010400000008000000000000000000000000000000000000000000000000000000000000000000000000000000000000000803 s (State.pktTake s rec_ o poisoned bad) := by
  unfold State.pktTake
  lift_lets -underBinder
  intro x1 x2 x3 x4 x5 x6 x7 x8
  refine .ite ?_ ?_
  split
  lift_lets -underBinder
  intro x9 x10 x11
  refine Fr.have x11 ?_ (fun hx11 => ?_) <;> [unfold x11; clear_value x11]
  refine .call (State.raiseIf_fr ..) ?_ (by decide)
  exact .refl ..
  unfold x8
  refine .call (State.ringAdvance_fr ..) ?_ (by decide)
  refine .call (State.lk_fr ..) ?_ (by decide)
  refine .call (State.pktPlace_fr ..) ?_ (by decide)
  exact hx11
  unfold x8
  refine .call (State.ringAdvance_fr ..) ?_ (by decide)
  refine .call (State.lk_fr ..) ?_ (by decide)
  refine .call (State.pktDrop_fr ..) ?_ (by decide)
  exact .refl ..

theorem execPcieCompletion_fr (data : List Byte) (ep : Bool) (s : State) :
    Runs 0x100000000000000040104000000081c000000000000000000000000000000000000000000000000000000000000000000000000000000000020080b s (execPcieCompletion data ep s) := by
  unfold execPcieCompletion
  refine .next ?_
  split
  exact .refl ..
  lift_lets -underBinder
  intro x1 x2 x3 x4 x5
  refine Fr.have x1 ?_ (fun hx1 => ?_) <;> [unfold x1; clear_value x1]
  refine .call (State.count_fr ..) ?_ (by decide)
  refine .call (State.lk_fr ..) ?_ (by decide)
  exact .refl ..
  refine Fr.have x3 ?_ (fun hx3 => ?_) <;> [unfold x3; clear_value x3]
  refine .ite ?_ ?_
  refine .call (State.memUE_fr ..) ?_ (by decide)
  exact hx1
  exact hx1
  refine .ite ?_ ?_
  refine .ite ?_ ?_
  split
  refine .call (State.lk_fr ..) ?_ (by decide)
  exact hx3
  exact hx3
  refine .call (State.pktTake_fr ..) ?_ (by decide)
  exact hx3
  apply Fr.upd <;> first | show Fr _ _ _ | exact .inl rfl | exact .inr rfl | rfl
  exact hx3

theorem State.upChecks_fr (s : State) :
    Fr 0x40000c00000000000000000000000000000000000000000000000000000000000000000000000000000000000000000000003 s (State.upChecks s) := by
  unfold State.upChecks
  refine .call (State.upCheck_fr ..) ?_ (by decide)
  refine .call (State.upCheck_fr ..) ?_ (by decide)
  exact .refl ..

theorem State.laneEntry_fr (s : State) (l : Nat) (k : Nat) (t : Nat) :
    Fr 0x40070c00000000000000000000000000000000000000000000000000000000000000000000000000000000000000000000803 s (State.laneEntry s l k t) := by
  unfold State.laneEntry
  lift_lets -underBinder
  intro x1 x2 x3 x4 x5
  refine Fr.have x4 ?_ (fun hx4 => ?_) <;> [unfold x4; clear_value x4]
  refine .call (State.lk_fr ..) ?_ (by decide)
  refine .call (State.raise_fr ..) ?_ (by decide)
  unfold x1
  refine .wr ?_ (by decide) (.ite (.arr .LNK_LANE_ST_LOS rfl (by decide)) (.arr .LNK_LANE_ST_LOL rfl (by decide)))
  exact .refl ..
  refine Fr.have x5 ?_ (fun hx5 => ?_) <;> [unfold x5; clear_value x5]
  refine .ite ?_ ?_
  refine .call (State.lk_fr ..) ?_ (by decide)
  refine .call (State.raise_fr ..) ?_ (by decide)
  refine .wr ?_ (by decide) (.arr .LNK_LANE_ST_FLAP rfl (by decide))
  exact hx4
  exact hx4
  refine .ite ?_ ?_
  exact .refl ..
  refine .call (State.upChecks_fr ..) ?_ (by decide)
  exact hx5

theorem execLosEntry_fr (l : Fin 4) (idle : Bool) (t : Nat) (s : State) :
    Runs 0x40070c00000000000000000000000000000000000000000000000000000000000000000000000000000000000000000000803 s (execLosEntry l idle t s) := by
  unfold execLosEntry
  refine .next ?_
  lift_lets -underBinder
  intro x1
  refine .ite ?_ ?_
  exact .refl ..
  refine .call (State.laneEntry_fr ..) ?_ (by decide)
  exact .refl ..

theorem State.stampShow_fr (s : State) :
    Fr 0x3fe10000000000000000000000000000000000000000000000000000000000000000000000000000000000000000000000000000001 s (State.stampShow s) := by
  unfold State.stampShow
  split
  refine .wr ?_ (by decide) (.fld .LNK_PTP_STATUS_TS_AVAIL rfl (by decide))
  refine .setReg ?_ (by decide) (.word .w_LNK_PTP_TS_HI rfl (by decide))
  refine .setReg ?_ (by decide) (.word .w_LNK_PTP_TS_LO rfl (by decide))
  refine .setReg ?_ (by decide) (.word .w_LNK_PTP_TS_INFO rfl (by decide))
  exact .refl ..
  lift_lets -underBinder
  intro x1 x2
  refine Fr.have x1 ?_ (fun hx1 => ?_) <;> [unfold x1; clear_value x1]
  refine .wr ?_ (by decide) (.fld .LNK_PTP_TS_HI_NS rfl (by decide))
  refine .wr ?_ (by decide) (.fld .LNK_PTP_TS_LO_NS rfl (by decide))
  exact .refl ..
  refine Fr.have x2 ?_ (fun hx2 => ?_) <;> [unfold x2; clear_value x2]
  refine .wr ?_ (by decide) (.fld .LNK_PTP_TS_INFO_PORT rfl (by decide))
  refine .put ?_ (by decide) (.fld .LNK_PTP_TS_INFO_DIR rfl (by decide))
  refine .wr ?_ (by decide) (.fld .LNK_PTP_TS_INFO_VALID rfl (by decide))
  exact hx1
  refine .wr ?_ (by decide) (.fld .LNK_PTP_STATUS_TS_AVAIL rfl (by decide))
  refine .wr ?_ (by decide) (.fld .LNK_PTP_TS_INFO_SEQ_ID rfl (by decide))
  exact hx2

theorem State.stamp_fr (s : State) (x : Stamp) :
    Fr 0x3fe10000000000000000000000000000000000000000000000000000000000000000000000000000000000000000000000000000803 s (State.stamp s x) := by
  unfold State.stamp
  refine .ite ?_ ?_
  exact .refl ..
  lift_lets -underBinder
  intro x1
  refine .call (State.raiseIf_fr ..) ?_ (by decide)
  refine .call (State.stampShow_fr ..) ?_ (by decide)
  refine .call (State.lk_fr ..) ?_ (by decide)
  exact .refl ..

theorem execEthFrameReceived_fr (e : Fin 2) (f : List Byte) (fcsBad : Bool) (t : Nat) (s : State) :
    Runs 0x3fe13800000000000000000000000000000000000000000000000000000000000000000000000000000000000000000000000000803 s (execEthFrameReceived e f fcsBad t s) := by
  unfold execEthFrameReceived
  refine .next ?_
  refine .ite ?_ ?_
  exact .refl ..
  refine .ite ?_ ?_
  refine .bump ?_ (by decide) (.arr .LNK_ETH_FCS_ERR_RX_COUNT rfl (by decide))
  exact .refl ..
  refine .ite ?_ ?_
  refine .bump ?_ (by decide) (.arr .LNK_ETH_DISCARD_RX_COUNT rfl (by decide))
  exact .refl ..
  split
  refine .bump ?_ (by decide) (.arr .LNK_ETH_DISCARD_RX_COUNT rfl (by decide))
  exact .refl ..
  lift_lets -underBinder
  intro x1
  refine Fr.have x1 ?_ (fun hx1 => ?_) <;> [unfold x1; clear_value x1]
  refine .call (State.lk_fr ..) ?_ (by decide)
  refine .bump ?_ (by decide) (.arr .LNK_ETH_FRAMES_RX_COUNT rfl (by decide))
  exact .refl ..
  refine .ite ?_ ?_
  refine .call (State.stamp_fr ..) ?_ (by decide)
  exact hx1
  refine .call (State.lk_fr ..) ?_ (by decide)
  exact hx1

theorem State.onFe_fr (s : State) (i : Nat) (f : Fe → Fe) : Fr 0x20000 s (State.onFe s i f) := by
  unfold State.onFe
  apply Fr.upd <;> first | show Fr _ _ _ | exact .inl rfl | exact .inr rfl | rfl
  exact .refl ..

theorem State.adcDisable_fr (s : State) :
    Fr 0x10800c80000000000000000000000000000000000000000000000000000000000020001 s (State.adcDisable s) := by
  unfold State.adcDisable
  lift_lets -underBinder
  intro x1 x2 x3
  refine Fr.have x1 ?_ (fun hx1 => ?_) <;> [unfold x1; clear_value x1]
  refine .wr ?_ (by decide) (.fld .ADC_STATUS_ENTRY rfl (by decide))
  refine .wr ?_ (by decide) (.fld .ADC_STATUS_RUNNING rfl (by decide))
  refine .wr ?_ (by decide) (.fld .ADC_CTRL_EN rfl (by decide))
  exact .refl ..
  refine Fr.have x3 ?_ (fun hx3 => ?_) <;> [unfold x3; clear_value x3]
  apply Fr.upd <;> first | show Fr _ _ _ | exact .inl rfl | exact .inr rfl | rfl
  exact hx1
  with_reducible apply Fr.forN
  exact hx3
  intro x4 x5
  refine .wr ?_ (by decide) (.arr .ADC_FE_STATUS_IN_WINDOW rfl (by decide))
  refine .wr ?_ (by decide) (.arr .ADC_FE_STATUS_SETTLING rfl (by decide))
  refine .call (State.onFe_fr ..) ?_ (by decide)
  exact .refl ..

theorem execAdcDisable_fr (s : State) :
    Runs 0x10000000000000000000000000000000000000000000000010800c8000000000000000000000000000000000000000000000000000000000022000b s (execAdcDisable s) := by
  unfold execAdcDisable
  refine .next ?_
  (with_reducible apply State.access_fr) <;> [skip; skip; decide]
  exact .refl ..
  intro x1
  refine .call (State.adcDisable_fr ..) ?_ (by decide)
  exact .refl ..

theorem execFlushTimer_fr (e : Fin 2) (s : State) :
    Runs 0x4010000000000000000000000000000000000000000000000000000000000000000000000000000000000000000000000000801 s (execFlushTimer e s) := by
  unfold execFlushTimer
  refine .next ?_
  refine .call (State.pktSend_fr ..) ?_ (by decide)
  exact .refl ..

theorem State.rangeFlapRelease_fr (s : State) (i : Nat) :
    Fr 0x2008000000000000000000000000000000000000000000000000000000000000020001 s (State.rangeFlapRelease s i) := by
  unfold State.rangeFlapRelease
  lift_lets -underBinder
  intro x1
  refine Fr.have x1 ?_ (fun hx1 => ?_) <;> [unfold x1; clear_value x1]
  refine .wr ?_ (by decide) (.fld .ADC_FLAP_STATUS_FLAP rfl (by decide))
  refine .wr ?_ (by decide) (.arr .ADC_FE_STATUS_RANGE_FLAP rfl (by decide))
  exact .refl ..
  refine .call (State.onFe_fr ..) ?_ (by decide)
  exact hx1

theorem execRangeFlapRelease_fr (i : Fin 8) (s : State) :
    Runs 0x1000000000000000000000000000000000000000000000000200800000000000000000000000000000000000000000000000000000000000022000b s (execRangeFlapRelease i s) := by
  unfold execRangeFlapRelease
  refine .next ?_
  (with_reducible apply State.access_fr) <;> [skip; skip; decide]
  exact .refl ..
  intro x1
  refine .call (State.rangeFlapRelease_fr ..) ?_ (by decide)
  exact .refl ..

theorem State.swapFe_fr (s : State) (i : Nat) :
    Fr 0x1000000000000000000000000000000000000000000000000000000000000000000001 s (State.swapFe s i) := by
  unfold State.swapFe
  refine .wr ?_ (by decide) (.arr .ADC_FE_STATUS_SWAP rfl (by decide))
  exact .refl ..

theorem State.settle1_fr (s : State) (i : Nat) :
    Fr 0x10000000000000000000000000000000000000000000000000000000000000000000001 s (State.settle1 s i) := by
  unfold State.settle1
  refine .ite ?_ ?_
  refine .wr ?_ (by decide) (.arr .ADC_FE_STATUS_SETTLING rfl (by decide))
  exact .refl ..
  exact .refl ..

theorem State.settleFe_fr (s : State) (i : Nat) :
    Fr 0x10000000000000000000000000000000000000000000000000000000000000000000001 s (State.settleFe s i) := by
  unfold State.settleFe
  lift_lets -underBinder
  intro x1
  refine Fr.have x1 ?_ (fun hx1 => ?_) <;> [unfold x1; clear_value x1]
  refine .call (State.settle1_fr ..) ?_ (by decide)
  exact .refl ..
  refine .ite ?_ ?_
  refine .call (State.settle1_fr ..) ?_ (by decide)
  exact hx1
  exact hx1

theorem execCurrentSwap_fr (i : Fin 8) (s : State) :
    Runs 0x11000000000000000000000000000000000000000000000000000000000000000000001 s (execCurrentSwap i s) := by
  unfold execCurrentSwap
  refine .next ?_
  refine .ite ?_ ?_
  refine .call (State.settleFe_fr ..) ?_ (by decide)
  refine .call (State.swapFe_fr ..) ?_ (by decide)
  exact .refl ..
  exact .refl ..

theorem execSxtGateEdge_fr (level : Bool) (t : Nat) (s : State) :
    Runs 0x3c000000000000000000000000000000000000000000000000000000018001 s (execSxtGateEdge level t s) := by
  unfold execSxtGateEdge
  refine .next ?_
  lift_lets -underBinder
  intro x1 x2 x3 x4
  refine Fr.have x2 ?_ (fun hx2 => ?_) <;> [unfold x2; clear_value x2]
  refine .call (State.capGateEdge_fr ..) ?_ (by decide)
  refine .call (State.sx_fr ..) ?_ (by decide)
  exact .refl ..
  refine Fr.have x4 ?_ (fun hx4 => ?_) <;> [unfold x4; clear_value x4]
  refine .ite ?_ ?_
  refine .ite ?_ ?_
  exact hx2
  refine .call (State.sxtArm_fr ..) ?_ (by decide)
  refine .wr ?_ (by decide) (.fld .SXT_STATUS_DONE rfl (by decide))
  exact hx2
  exact hx2
  refine .ite ?_ ?_
  exact hx2
  refine .ite ?_ ?_
  refine .wr ?_ (by decide) (.fld .SXT_STATUS_GATE_EDGE rfl (by decide))
  exact hx4
  exact hx4

theorem State.complete_fr (s : State) (d : List Byte) (ep : Bool) :
    Fr 0x10000000000000000000000000000000000000000000000000000000000000000000000000000000000000000000000000000000000000000200803 s (State.complete s d ep) := by
  unfold State.complete
  refine .call (State.count_fr ..) ?_ (by decide)
  refine .call (State.lk_fr ..) ?_ (by decide)
  exact .refl ..

theorem State.cfgRead_fr (s : State) (r : CfgReg) : Fr 0x4 s (State.cfgRead s r).2 := by
  unfold State.cfgRead
  split
  dsimp +zetaDelta -zeta only
  exact .refl ..
  dsimp +zetaDelta -zeta only
  exact .refl ..
  dsimp +zetaDelta -zeta only
  exact .refl ..
  dsimp +zetaDelta -zeta only
  exact .refl ..
  dsimp +zetaDelta -zeta only
  exact .refl ..
  dsimp +zetaDelta -zeta only
  exact .refl ..
  dsimp +zetaDelta -zeta only
  exact .refl ..
  dsimp +zetaDelta -zeta only
  exact .refl ..
  dsimp +zetaDelta -zeta only
  exact .refl ..
  dsimp +zetaDelta -zeta only
  exact .refl ..
  dsimp +zetaDelta -zeta only
  exact .refl ..
  split
  dsimp +zetaDelta -zeta only
  with_reducible refine Fr.pair (by assumption) ?_
  refine .call (State.drawFree_fr ..) ?_ (by decide)
  exact .refl ..
  split
  dsimp +zetaDelta -zeta only
  with_reducible refine Fr.pair (by assumption) ?_
  refine .call (State.drawFree_fr ..) ?_ (by decide)
  exact .refl ..
  split
  dsimp +zetaDelta -zeta only
  with_reducible refine Fr.pair (by assumption) ?_
  refine .call (State.drawFree_fr ..) ?_ (by decide)
  exact .refl ..
  split
  dsimp +zetaDelta -zeta only
  with_reducible refine Fr.pair (by assumption) ?_
  refine .call (State.drawFree_fr ..) ?_ (by decide)
  exact .refl ..
  split
  dsimp +zetaDelta -zeta only
  with_reducible refine Fr.pair (by assumption) ?_
  refine .call (State.drawFree_fr ..) ?_ (by decide)
  exact .refl ..
  refine .call (State.drawFree_fr ..) ?_ (by decide)
  exact .refl ..

theorem State.cfgReset_fr (s : State) :
    Fr 0x20000000000000000000000001000000000000000000000000000000000000000000000000000000000000000000000000000000000000000000000801 s (State.cfgReset s) := by
  unfold State.cfgReset
  refine .call (State.lk_fr ..) ?_ (by decide)
  refine .resetRegs .r_MSIX rfl ?_ (by decide) (by decide) (by decide)
  refine .wr ?_ (by decide) (.fld .LNK_STATUS_BME rfl (by decide))
  exact .refl ..

theorem State.cfgWrite_fr (s : State) (r : CfgReg) (w : Nat) :
    Fr 0x20010000000000000000000001000000000000000000000000000000000000000000000000000000000000000000000000000000000000000000200803 s (State.cfgWrite s r w) := by
  unfold State.cfgWrite
  lift_lets -underBinder
  intro x1
  split
  refine .call (State.flushMsix_fr ..) ?_ (by decide)
  refine .put ?_ (by decide) (.fld .LNK_STATUS_BME rfl (by decide))
  refine .call (State.lk_fr ..) ?_ (by decide)
  exact .refl ..
  refine .call (State.lk_fr ..) ?_ (by decide)
  exact .refl ..
  refine .call (State.lk_fr ..) ?_ (by decide)
  exact .refl ..
  refine .ite ?_ ?_
  exact .refl ..
  refine .call (State.lk_fr ..) ?_ (by decide)
  exact .refl ..
  refine .ite ?_ ?_
  exact .refl ..
  refine .call (State.lk_fr ..) ?_ (by decide)
  exact .refl ..
  refine .call (State.flushMsix_fr ..) ?_ (by decide)
  refine .call (State.lk_fr ..) ?_ (by decide)
  exact .refl ..
  refine .ite ?_ ?_
  refine .call (State.cfgReset_fr ..) ?_ (by decide)
  exact .refl ..
  refine .call (State.lk_fr ..) ?_ (by decide)
  exact .refl ..
  refine .call (State.lk_fr ..) ?_ (by decide)
  exact .refl ..
  split
  refine .call (State.flushMsix_fr ..) ?_ (by decide)
  refine .call (State.lk_fr ..) ?_ (by decide)
  exact .refl ..
  refine .call (State.lk_fr ..) ?_ (by decide)
  exact .refl ..
  exact .refl ..
  exact .refl ..

theorem execConfigRequest_fr (write : Bool) (r : CfgReg) (w : Word) (s : State) :
    Runs 0x20010000000000000000000001000000000000000000000000000000000000000000000000000000000000000000000000000000000000000000200807 s (execConfigRequest write r w s) := by
  unfold execConfigRequest
  refine .next ?_
  refine .ite ?_ ?_
  exact .refl ..
  lift_lets -underBinder
  intro x1
  refine Fr.have x1 ?_ (fun hx1 => ?_) <;> [unfold x1; clear_value x1]
  refine .call (State.count_fr ..) ?_ (by decide)
  exact .refl ..
  refine .ite ?_ ?_
  refine .call (State.complete_fr ..) ?_ (by decide)
  refine .call (State.cfgWrite_fr ..) ?_ (by decide)
  exact hx1
  split
  refine .call (State.complete_fr ..) ?_ (by decide)
  with_reducible refine Fr.pair (by assumption) ?_
  refine .call (State.cfgRead_fr ..) ?_ (by decide)
  exact hx1

theorem execPingFrame_fr (unit : Fin 8) (b : Nat) (s : State) :
    Runs 0x10000000000000000000000000000000000000000000000000000000000000002400000000000000000000000000000000000000000000000204003 s (execPingFrame unit b s) := by
  unfold execPingFrame
  refine .next ?_
  lift_lets -underBinder
  intro x1
  refine Fr.have x1 ?_ (fun hx1 => ?_) <;> [unfold x1; clear_value x1]
  refine .call (State.masterFrame_fr ..) ?_ (by decide)
  exact .refl ..
  refine .ite ?_ ?_
  refine .call (State.mb_fr ..) ?_ (by decide)
  exact hx1
  exact hx1

theorem State.takeEntry_fr (s : State) (r : Nat) (last : Nat) (skip : Option (Nat × Nat)) :
    Fr 0x800000000000000000000000000000000000000000000000000000000000020001 s (State.takeEntry s r last skip) := by
  unfold State.takeEntry
  split
  lift_lets -underBinder
  intro x1 x2
  refine Fr.have x1 ?_ (fun hx1 => ?_) <;> [unfold x1; clear_value x1]
  refine .wr ?_ (by decide) (.fld .ADC_STATUS_ENTRY rfl (by decide))
  exact .refl ..
  apply Fr.upd <;> first | show Fr _ _ _ | exact .inl rfl | exact .inr rfl | rfl
  exact hx1
  apply Fr.upd <;> first | show Fr _ _ _ | exact .inl rfl | exact .inr rfl | rfl
  exact .refl ..

theorem State.beginEntry_fr (s : State) (last : Nat) :
    Fr 0x800000000000000000000000000000000000000000000000000000000000020001 s (State.beginEntry s last) := by
  unfold State.beginEntry
  lift_lets -underBinder
  intro x1
  refine .call (State.takeEntry_fr ..) ?_ (by decide)
  exact .refl ..

theorem State.keepEntry_fr (s : State) (t : Option Nat) :
    Fr 0x800000000000000000000000000000000000000000000000000000000000020001 s (State.keepEntry s t) := by
  unfold State.keepEntry
  refine .ite ?_ ?_
  exact .refl ..
  split
  refine .ite ?_ ?_
  refine .call (State.takeEntry_fr ..) ?_ (by decide)
  exact .refl ..
  refine .ite ?_ ?_
  exact .refl ..
  refine .call (State.beginEntry_fr ..) ?_ (by decide)
  exact .refl ..
  refine .ite ?_ ?_
  exact .refl ..
  refine .call (State.beginEntry_fr ..) ?_ (by decide)
  exact .refl ..
  refine .call (State.takeEntry_fr ..) ?_ (by decide)
  exact .refl ..
  refine .call (State.beginEntry_fr ..) ?_ (by decide)
  exact .refl ..

theorem execExcitationPulseOff_fr (i : Fin 8) (s : State) :
    Runs 0x800800000000000000000000000000000000000000000000000000000000000020001 s (execExcitationPulseOff i s) := by
  unfold execExcitationPulseOff
  refine .next ?_
  refine .ite ?_ ?_
  exact .refl ..
  refine .call (State.keepEntry_fr ..) ?_ (by decide)
  refine .wr ?_ (by decide) (.arr .ADC_FE_STATUS_IN_WINDOW rfl (by decide))
  refine .call (State.onFe_fr ..) ?_ (by decide)
  exact .refl ..

theorem execSyncHoldover_fr (s : State) :
    Runs 0x20000000000000000000000000000000000000000000000000000000000000000000000000000000000000000000000000000001 s (execSyncHoldover s) := by
  unfold execSyncHoldover
  refine .next ?_
  refine .wr ?_ (by decide) (.fld .LNK_PTP_STATUS_SYNCED rfl (by decide))
  exact .refl ..

theorem execLolEntry_fr (l : Fin 4) (t : Nat) (s : State) :
    Runs 0x40070c00000000000000000000000000000000000000000000000000000000000000000000000000000000000000000000803 s (execLolEntry l t s) := by
  unfold execLolEntry
  refine .next ?_
  refine .ite ?_ ?_
  exact .refl ..
  refine .call (State.laneEntry_fr ..) ?_ (by decide)
  exact .refl ..

theorem execLaneShutdownComplete_fr (e : Fin 2) (k : Fin 2) (s : State) :
    Runs 0x7e000c00000000000000000000000000000000000000000000000000000000000000000000000000000000000030000000803 s (execLaneShutdownComplete e k s) := by
  unfold execLaneShutdownComplete
  refine .next ?_
  refine .ite ?_ ?_
  exact .refl ..
  lift_lets -underBinder
  intro x1 x2
  refine Fr.have x1 ?_ (fun hx1 => ?_) <;> [unfold x1; clear_value x1]
  refine .call (State.lk_fr ..) ?_ (by decide)
  exact .refl ..
  refine Fr.have x2 ?_ (fun hx2 => ?_) <;> [unfold x2; clear_value x2]
  refine .ite ?_ ?_
  refine .wr ?_ (by decide) (.arr .LNK_ETH_STATUS_TX_LPI rfl (by decide))
  exact hx1
  refine .call (State.upCheck_fr ..) ?_ (by decide)
  refine .wr ?_ (by decide) (.arr .LNK_ETH_STATUS_RX_LPI rfl (by decide))
  refine .wr ?_ (by decide) (.arr .LNK_ETH_STATUS_BLOCK_LOCK rfl (by decide))
  exact hx1
  refine .call (State.pendHalves_fr ..) ?_ (by decide)
  refine .wr ?_ (by decide) (by unfold halfPend; exact .ite (.arr .LNK_ETH_STATUS_TX_PENDING rfl (by decide)) (.arr .LNK_ETH_STATUS_RX_PENDING rfl (by decide)))
  exact hx2

theorem execRxEnable_fr (e : Fin 2) (s : State) :
    Runs 0x1000000000000000000780000000000000000000000000000000000000000000000000000000000000000000000000000000000000003000020000b s (execRxEnable e s) := by
  unfold execRxEnable
  refine .next ?_
  (with_reducible apply State.access_fr) <;> [skip; skip; decide]
  exact .refl ..
  intro x1
  refine .call (State.halfEnable_fr ..) ?_ (by decide)
  exact .refl ..

theorem execLpiWake_fr (e : Fin 2) (k : Fin 2) (s : State) :
    Runs 0x18000000000000000000000000000000000000000000000000000000000000000000000000000000000000000000000000001 s (execLpiWake e k s) := by
  unfold execLpiWake
  refine .next ?_
  refine .wr ?_ (by decide) (.ite (.arr .LNK_ETH_STATUS_TX_LPI rfl (by decide)) (.arr .LNK_ETH_STATUS_RX_LPI rfl (by decide)))
  exact .refl ..

theorem State.applyFrame_fr (s : State) (k : MerKind) (t : Nat) :
    Fr 0x3ac000100000000000000000000000000000000000000000000000009047 s (State.applyFrame s k t) := by
  unfold State.applyFrame
  lift_lets -underBinder
  intro x1
  split
  refine .ite ?_ ?_
  refine .call (State.hl_fr ..) ?_ (by decide)
  exact .refl ..
  exact .refl ..
  refine .ite ?_ ?_
  lift_lets -underBinder
  intro x2
  refine Fr.have x2 ?_ (fun hx2 => ?_) <;> [unfold x2; clear_value x2]
  refine .call (State.hl_fr ..) ?_ (by decide)
  exact .refl ..
  refine .ite ?_ ?_
  refine .call (State.hs_fr ..) ?_ (by decide)
  refine .wr ?_ (by decide) (.fld .MER_STATUS_PC_WAIT rfl (by decide))
  exact hx2
  exact hx2
  exact .refl ..
  refine .call (State.capEvent_fr ..) ?_ (by decide)
  exact .refl ..
  exact .refl ..

theorem State.schedule_fr (s : State) (k : MerKind) (b : Nat) :
    Fr 0x3ac20010000000000000000000000000000000000000000000000000d047 s (State.schedule s k b) := by
  unfold State.schedule
  refine .ite ?_ ?_
  exact .refl ..
  lift_lets -underBinder
  intro x1
  refine .ite ?_ ?_
  refine .ite ?_ ?_
  refine .call (State.applyFrame_fr ..) ?_ (by decide)
  refine .call (State.raise_fr ..) ?_ (by decide)
  refine .bump ?_ (by decide) (.fld .MER_CNT_LATE_COUNT rfl (by decide))
  exact .refl ..
  exact .refl ..
  refine .call (State.mb_fr ..) ?_ (by decide)
  exact .refl ..

theorem execSweepFrame_fr (b : Nat) (s : State) :
    Runs 0x100000000000000000000000000000000000000000000000000000000003ac20250000000000000000000000000000000000000000000000020d047 s (execSweepFrame b s) := by
  unfold execSweepFrame
  refine .next ?_
  refine .call (State.schedule_fr ..) ?_ (by decide)
  refine .call (State.masterFrame_fr ..) ?_ (by decide)
  exact .refl ..

theorem execDelayCompute_fr (s : State) : Runs 0xc0080000000000000000000000000000000000000000000000004001 s (execDelayCompute s) := by
  unfold execDelayCompute
  refine .next ?_
  refine .ite ?_ ?_
  exact .refl ..
  split
  exact .refl ..
  lift_lets -underBinder
  intro x1 x2
  refine Fr.have x2 ?_ (fun hx2 => ?_) <;> [unfold x2; clear_value x2]
  refine .wr ?_ (by decide) (.fld .MER_STATUS_UNITS_OK rfl (by decide))
  refine .wr ?_ (by decide) (.arr .MER_RT_D16 rfl (by decide))
  refine .wr ?_ (by decide) (.arr .MER_RT_VALID rfl (by decide))
  exact .refl ..
  refine .call (State.mb_fr ..) ?_ (by decide)
  exact hx2

theorem State.refSel_fr (s : State) (sel : Nat) (present : Bool) :
    Fr 0x10000000000000000000000000003fe2940000000000000000000000000000000000000000000000000000000000000000000000000008fc0602c0f s (State.refSel s sel present) := by
  unfold State.refSel
  refine .ite ?_ ?_
  refine .call (State.cfgReject_fr ..) ?_ (by decide)
  exact .refl ..
  refine .ite ?_ ?_
  exact .refl ..
  refine .ite ?_ ?_
  refine .call (State.cfgReject_fr ..) ?_ (by decide)
  exact .refl ..
  lift_lets -underBinder
  intro x1 x2 x3 x4
  refine Fr.have x2 ?_ (fun hx2 => ?_) <;> [unfold x2; clear_value x2]
  refine .ite ?_ ?_
  refine .wr ?_ (by decide) (.fld .MEM_STATUS_STATE rfl (by decide))
  refine .call (State.loseSegments_fr ..) ?_ (by decide)
  refine .call (State.srEnter_fr ..) ?_ (by decide)
  exact .refl ..
  exact .refl ..
  refine Fr.have x3 ?_ (fun hx3 => ?_) <;> [unfold x3; clear_value x3]
  refine .wr ?_ (by decide) (.fld .SYS_CLK_STATUS_MGMT_LOCK rfl (by decide))
  refine .wr ?_ (by decide) (.fld .SYS_CLK_STATUS_TIL_LOCK rfl (by decide))
  refine .wr ?_ (by decide) (.fld .SYS_CLK_STATUS_MAIN_LOCK rfl (by decide))
  refine .wr ?_ (by decide) (.fld .SYS_CLK_CFG_REF_SEL rfl (by decide))
  exact hx2
  refine Fr.have x4 ?_ (fun hx4 => ?_) <;> [unfold x4; clear_value x4]
  refine .put ?_ (by decide) (.fld .SYS_CLK_STATUS_REF_PRESENT rfl (by decide))
  refine .wr ?_ (by decide) (.fld .SYS_CLK_STATUS_HDG_XCHK_OK rfl (by decide))
  exact hx3
  refine .call (State.sy_fr ..) ?_ (by decide)
  refine .call (State.hd_fr ..) ?_ (by decide)
  exact hx4

theorem execRefSelChange_fr (sel : Fin 4) (present : Bool) (s : State) :
    Runs 0x10000000000000000000000000003fe2940000000000000000000000000000000000000000000000000000000000000000000000000008fc0602c0f s (execRefSelChange sel present s) := by
  unfold execRefSelChange
  refine .next ?_
  (with_reducible apply State.access_fr) <;> [skip; skip; decide]
  exact .refl ..
  intro x1
  refine .call (State.refSel_fr ..) ?_ (by decide)
  exact .refl ..

theorem State.merEnable_fr (s : State) : Fr 0x2040000000000000000000000000000000000000000000000004001 s (State.merEnable s) := by
  unfold State.merEnable
  refine .ite ?_ ?_
  exact .refl ..
  lift_lets -underBinder
  intro x1
  refine Fr.have x1 ?_ (fun hx1 => ?_) <;> [unfold x1; clear_value x1]
  refine .wr ?_ (by decide) (.fld .MER_STATUS_STATE rfl (by decide))
  refine .wr ?_ (by decide) (.fld .MER_CTRL_EN rfl (by decide))
  exact .refl ..
  apply Fr.upd <;> first | show Fr _ _ _ | exact .inl rfl | exact .inr rfl | rfl
  exact hx1

theorem execMeridianEnable_fr (s : State) :
    Runs 0x1000000000000000000000000000000000000000000000000000000000000000204000000000000000000000000000000000000000000000020400b s (execMeridianEnable s) := by
  unfold execMeridianEnable
  refine .next ?_
  (with_reducible apply State.access_fr) <;> [skip; skip; decide]
  exact .refl ..
  intro x1
  refine .call (State.merEnable_fr ..) ?_ (by decide)
  exact .refl ..

theorem State.setGain_fr (s : State) (i : Nat) (g : Nat) (t : Nat) :
    Fr 0x22008000000000000000000000000000000000000000000000000000000000000020003 s (State.setGain s i g t) := by
  unfold State.setGain
  lift_lets -underBinder
  intro x1 x2 x3 x4 x5 x6 x7 x8 x9
  refine Fr.have x8 ?_ (fun hx8 => ?_) <;> [unfold x8; clear_value x8]
  refine .call (State.onFe_fr ..) ?_ (by decide)
  exact .refl ..
  refine Fr.have x9 ?_ (fun hx9 => ?_) <;> [unfold x9; clear_value x9]
  refine .wr ?_ (by decide) (.arr .ADC_FE_STATUS_RANGE rfl (by decide))
  exact hx8
  refine .ite ?_ ?_
  refine .call (State.onFe_fr ..) ?_ (by decide)
  exact .refl ..
  refine .ite ?_ ?_
  refine .call (State.raise_fr ..) ?_ (by decide)
  refine .wr ?_ (by decide) (.fld .ADC_FLAP_STATUS_FLAP rfl (by decide))
  refine .wr ?_ (by decide) (.arr .ADC_FE_STATUS_RANGE_FLAP rfl (by decide))
  exact hx9
  exact hx9

theorem State.gainStart_fr (s : State) (i : Nat) (t : Nat) :
    Fr 0x22008000000000000000000000000000000000000000000000000000000000000020003 s (State.gainStart s i t) := by
  unfold State.gainStart
  refine .call (State.setGain_fr ..) ?_ (by decide)
  exact .refl ..

theorem State.adcEnable_fr (s : State) (t : Nat) :
    Fr 0x32008c80000000000000000000000000000000000000000000000000000000000020003 s (State.adcEnable s t) := by
  unfold State.adcEnable
  refine .ite ?_ ?_
  exact .refl ..
  lift_lets -underBinder
  intro x1 x2 x3
  refine Fr.have x1 ?_ (fun hx1 => ?_) <;> [unfold x1; clear_value x1]
  refine .wr ?_ (by decide) (.fld .ADC_STATUS_RUNNING rfl (by decide))
  refine .wr ?_ (by decide) (.fld .ADC_CTRL_EN rfl (by decide))
  exact .refl ..
  refine Fr.have x3 ?_ (fun hx3 => ?_) <;> [unfold x3; clear_value x3]
  apply Fr.upd <;> first | show Fr _ _ _ | exact .inl rfl | exact .inr rfl | rfl
  exact hx1
  refine .call (State.keepEntry_fr ..) ?_ (by decide)
  with_reducible apply Fr.forN
  exact hx3
  intro x4 x5
  refine .call (State.onFe_fr ..) ?_ (by decide)
  refine .call (State.settle1_fr ..) ?_ (by decide)
  refine .call (State.gainStart_fr ..) ?_ (by decide)
  exact .refl ..

theorem execAdcEnable_fr (s : State) :
    Runs 0x10000000000000000000000000000000000000000000000032008c8000000000000000000000000000000000000000000000000000000000022000b s (execAdcEnable s) := by
  unfold execAdcEnable
  refine .next ?_
  (with_reducible apply State.access_fr) <;> [skip; skip; decide]
  exact .refl ..
  intro x1
  refine .call (State.adcEnable_fr ..) ?_ (by decide)
  exact .refl ..

theorem State.cdtCommit_fr (s : State) : Fr 0x10002 s (State.cdtCommit s) := by
  unfold State.cdtCommit
  lift_lets -underBinder
  intro x1 x2
  refine .ite ?_ ?_
  refine .call (State.sx_fr ..) ?_ (by decide)
  exact .refl ..
  refine .call (State.raise_fr ..) ?_ (by decide)
  exact .refl ..

theorem State.cdtCommitCmd_fr (s : State) : Fr 0x10002 s (State.cdtCommitCmd s) := by
  unfold State.cdtCommitCmd
  refine .ite ?_ ?_
  refine .call (State.cfgReject_fr ..) ?_ (by decide)
  exact .refl ..
  refine .ite ?_ ?_
  exact .refl ..
  refine .call (State.cdtCommit_fr ..) ?_ (by decide)
  exact .refl ..

theorem execCdtCommit_fr (s : State) :
    Runs 0x1000000000000000000000000000000000000000000000000000000000000000000000000000000000000000000000000000000000000000021000b s (execCdtCommit s) := by
  unfold execCdtCommit
  refine .next ?_
  (with_reducible apply State.access_fr) <;> [skip; skip; decide]
  exact .refl ..
  intro x1
  refine .call (State.cdtCommitCmd_fr ..) ?_ (by decide)
  exact .refl ..

theorem State.coldReset_fr (s : State) (cause : Nat) :
    Fr 0x100000000000c0000000000000000000000000000000001000001000000000000000000000002020000000000000000000000000000000000000007fffff s (State.coldReset s cause) := by
  unfold State.coldReset
  refine .call (State.sy_fr ..) ?_ (by decide)
  refine .call (State.resetBody_fr ..) ?_ (by decide)
  exact .refl ..

theorem State.imageShow_fr (s : State) :
    Fr 0x10000000000000000000000000000000000000000000000000000000000000000000000000000000000000000000000000000000000001 s (State.imageShow s) := by
  unfold State.imageShow
  refine .put ?_ (by decide) (.fld .BOOT_STATUS_IMAGE_VALID rfl (by decide))
  exact .refl ..

theorem execHedgePowerOn_fr (straps : Fin 64) (floats : Fin 64) (s : State) :
    Runs 0x100801001c01e0980000000000000000000001400000081000001000000001fe80c0001043fffdf78006c60200171c0600006013cf01400f0cb03c7fffff s (execHedgePowerOn straps floats s) := by
  unfold execHedgePowerOn
  refine .next ?_
  lift_lets -underBinder
  intro x1 x2 x3 x4 x5 x6 x7 x8 x9
  refine Fr.have x1 ?_ (fun hx1 => ?_) <;> [unfold x1; clear_value x1]
  refine .ite ?_ ?_
  refine .call (State.coldReset_fr ..) ?_ (by decide)
  exact .refl ..
  exact .refl ..
  refine Fr.have x2 ?_ (fun hx2 => ?_) <;> [unfold x2; clear_value x2]
  refine .setReg ?_ (by decide) (.word .w_BOOT_FAIL rfl (by decide))
  refine .setReg ?_ (by decide) (.word .w_BOOT_LAST_RESET rfl (by decide))
  refine .resetRegs .r_HDG rfl ?_ (by decide) (by decide) (by decide)
  exact hx1
  refine Fr.have x3 ?_ (fun hx3 => ?_) <;> [unfold x3; clear_value x3]
  refine .ite ?_ ?_
  exact hx2
  refine .call (State.imageShow_fr ..) ?_ (by decide)
  exact hx2
  refine Fr.have x5 ?_ (fun hx5 => ?_) <;> [unfold x5; clear_value x5]
  apply Fr.upd <;> first | show Fr _ _ _ | exact .inl rfl | exact .inr rfl | rfl
  exact hx3
  refine Fr.have x6 ?_ (fun hx6 => ?_) <;> [unfold x6; clear_value x6]
  refine .wr ?_ (by decide) (.fld .HDG_LIM_MISC_DIR rfl (by decide))
  refine .wr ?_ (by decide) (.fld .HDG_STRAPS_FLOAT rfl (by decide))
  refine .wr ?_ (by decide) (.fld .HDG_STRAPS_SEAL rfl (by decide))
  exact hx5
  refine Fr.have x7 ?_ (fun hx7 => ?_) <;> [unfold x7; clear_value x7]
  refine .call (State.hd_fr ..) ?_ (by decide)
  exact hx6
  refine Fr.have x8 ?_ (fun hx8 => ?_) <;> [unfold x8; clear_value x8]
  refine .call (State.showLimits_fr ..) ?_ (by decide)
  refine .call (State.hd_fr ..) ?_ (by decide)
  exact hx7
  refine Fr.have x9 ?_ (fun hx9 => ?_) <;> [unfold x9; clear_value x9]
  with_reducible apply Fr.foldl
  exact hx8
  intro x10 x11
  refine .ite ?_ ?_
  refine .call (State.trip_fr ..) ?_ (by decide)
  exact .refl ..
  exact .refl ..
  refine .call (State.hedgeShow_fr ..) ?_ (by decide)
  exact hx9

theorem execFuseBurnComplete_fr (bad : Nat) (s : State) :
    Runs 0x700000000000000000000000000000000000000000000000000000000000000000000000040007 s (execFuseBurnComplete bad s) := by
  unfold execFuseBurnComplete
  refine .next ?_
  split
  exact .refl ..
  lift_lets -underBinder
  intro x1 x2 x3 x4
  refine Fr.have x3 ?_ (fun hx3 => ?_) <;> [unfold x3; clear_value x3]
  with_reducible apply Fr.foldl
  exact .refl ..
  intro x5 x6
  refine .call (State.tearFuse_fr ..) ?_ (by decide)
  exact .refl ..
  refine Fr.have x4 ?_ (fun hx4 => ?_) <;> [unfold x4; clear_value x4]
  refine .call (State.cl_fr ..) ?_ (by decide)
  refine .wr ?_ (by decide) (.fld .CAL_FUSE_STATUS_BUSY rfl (by decide))
  exact hx3
  refine .ite ?_ ?_
  refine .call (State.raise_fr ..) ?_ (by decide)
  refine .wr ?_ (by decide) (.fld .CAL_FUSE_STATUS_RESULT rfl (by decide))
  exact hx4
  split
  refine .call (State.raise_fr ..) ?_ (by decide)
  refine .wr ?_ (by decide) (.fld .CAL_FUSE_STATUS_RESULT rfl (by decide))
  exact hx4
  refine .call (State.raise_fr ..) ?_ (by decide)
  refine .wr ?_ (by decide) (.fld .CAL_FUSE_STATUS_RESULT rfl (by decide))
  refine .call (State.putFuse_fr ..) ?_ (by decide)
  exact hx4

theorem State.excLeave_fr (s : State) (j : Nat) (b : Nat) :
    Fr 0x4010000000000000000000000000000000000000000000000000000000000000020001 s (State.excLeave s j b) := by
  unfold State.excLeave
  refine .ite ?_ ?_
  exact .refl ..
  lift_lets -underBinder
  intro x1
  refine Fr.have x1 ?_ (fun hx1 => ?_) <;> [unfold x1; clear_value x1]
  refine .call (State.onFe_fr ..) ?_ (by decide)
  exact .refl ..
  refine .ite ?_ ?_
  exact hx1
  refine .wr ?_ (by decide) (.fld .ADC_EXC_STATUS_FAULT rfl (by decide))
  refine .wr ?_ (by decide) (.arr .ADC_FE_STATUS_EXC_FAULT rfl (by decide))
  exact hx1

theorem execExcitationFaultClear_fr (i : Fin 8) (s : State) :
    Runs 0x4010000000000000000000000000000000000000000000000000000000000000020001 s (execExcitationFaultClear i s) := by
  unfold execExcitationFaultClear
  refine .next ?_
  refine .call (State.excLeave_fr ..) ?_ (by decide)
  refine .ite ?_ ?_
  refine .call (State.excLeave_fr ..) ?_ (by decide)
  exact .refl ..
  exact .refl ..

theorem execPongLaunch_fr (s : State) : Runs 0x4000 s (execPongLaunch s) := by
  unfold execPongLaunch
  refine .next ?_
  split
  exact .refl ..
  lift_lets -underBinder
  intro x1
  refine .call (State.mb_fr ..) ?_ (by decide)
  exact .refl ..

theorem State.excEnter_fr (s : State) (j : Nat) (t : Nat) :
    Fr 0x4410000000000000000000000000000000000000000000000000000000000000020003 s (State.excEnter s j t) := by
  unfold State.excEnter
  lift_lets -underBinder
  intro x1 x2 x3
  refine Fr.have x2 ?_ (fun hx2 => ?_) <;> [unfold x2; clear_value x2]
  refine .wr ?_ (by decide) (.arr .ADC_FE_STATUS_EXC_FAULT rfl (by decide))
  refine .call (State.onFe_fr ..) ?_ (by decide)
  exact .refl ..
  refine Fr.have x3 ?_ (fun hx3 => ?_) <;> [unfold x3; clear_value x3]
  refine .call (State.raise_fr ..) ?_ (by decide)
  refine .wr ?_ (by decide) (.fld .ADC_EXC_STATUS_FAULT rfl (by decide))
  exact hx2
  refine .ite ?_ ?_
  refine .wr ?_ (by decide) (.arr .ADC_FE_STATUS_EXC_FLAP rfl (by decide))
  exact hx3
  exact hx3

theorem execExcitationFaultEntry_fr (i : Fin 8) (t : Nat) (s : State) :
    Runs 0x4410000000000000000000000000000000000000000000000000000000000000020003 s (execExcitationFaultEntry i t s) := by
  unfold execExcitationFaultEntry
  refine .next ?_
  lift_lets -underBinder
  intro x1 x2
  refine Fr.have x2 ?_ (fun hx2 => ?_) <;> [unfold x2; clear_value x2]
  refine .call (State.onFe_fr ..) ?_ (by decide)
  exact .refl ..
  refine .ite ?_ ?_
  exact .refl ..
  refine .ite ?_ ?_
  exact hx2
  refine .call (State.excEnter_fr ..) ?_ (by decide)
  exact hx2

theorem State.merLost_fr (s : State) : Fr 0x2000000000000000000000000000000000000000000000000004003 s (State.merLost s) := by
  unfold State.merLost
  refine .call (State.raise_fr ..) ?_ (by decide)
  refine .call (State.mb_fr ..) ?_ (by decide)
  refine .wr ?_ (by decide) (.fld .MER_STATUS_STATE rfl (by decide))
  exact .refl ..

theorem execMeridianLost_fr (s : State) : Runs 0x2000000000000000000000000000000000000000000000000004003 s (execMeridianLost s) := by
  unfold execMeridianLost
  refine .next ?_
  refine .ite ?_ ?_
  refine .call (State.merLost_fr ..) ?_ (by decide)
  exact .refl ..
  exact .refl ..

theorem State.fuseBurn_fr (s : State) (key : Nat) :
    Fr 0x400000000000000000000000000000000000000000000000000000000000000000000000040003 s (State.fuseBurn s key) := by
  unfold State.fuseBurn
  lift_lets -underBinder
  intro x1 x2
  refine .ite ?_ ?_
  refine .call (State.cl_fr ..) ?_ (by decide)
  refine .wr ?_ (by decide) (.fld .CAL_FUSE_STATUS_BUSY rfl (by decide))
  exact .refl ..
  refine .call (State.cfgReject_fr ..) ?_ (by decide)
  exact .refl ..

theorem execFuseBurn_fr (key : Fin 65536) (s : State) :
    Runs 0x1000000000000000000000000000000000000000040000000000000000000000000000000000000000000000000000000000000000000000024000b s (execFuseBurn key s) := by
  unfold execFuseBurn
  refine .next ?_
  (with_reducible apply State.access_fr) <;> [skip; skip; decide]
  exact .refl ..
  intro x1
  refine .call (State.fuseBurn_fr ..) ?_ (by decide)
  exact .refl ..

theorem State.tilLost_fr (s : State) : Fr 0x10000000000000000000000000000000000000000f0004040009cf s (State.tilLost s) := by
  unfold State.tilLost
  lift_lets -underBinder
  intro x1 x2 x3 x4
  refine Fr.have x1 ?_ (fun hx1 => ?_) <;> [unfold x1; clear_value x1]
  refine .wr ?_ (by decide) (.fld .SYS_CLK_STATUS_TIL_LOCK rfl (by decide))
  exact .refl ..
  refine Fr.have x3 ?_ (fun hx3 => ?_) <;> [unfold x3; clear_value x3]
  apply Fr.upd <;> first | show Fr _ _ _ | exact .inl rfl | exact .inr rfl | rfl
  exact hx1
  refine Fr.have x4 ?_ (fun hx4 => ?_) <;> [unfold x4; clear_value x4]
  with_reducible apply Fr.forN
  exact hx3
  intro x5 x6
  lift_lets -underBinder
  intro x7
  refine Fr.have x7 ?_ (fun hx7 => ?_) <;> [unfold x7; clear_value x7]
  refine .call (State.onTiller_fr ..) ?_ (by decide)
  exact .refl ..
  apply Fr.upd <;> first | show Fr _ _ _ | exact .inl rfl | exact .inr rfl | rfl
  exact hx7
  refine .call (State.orderlyStop_fr ..) ?_ (by decide)
  refine .call (State.raise_fr ..) ?_ (by decide)
  exact hx4

theorem execTillerPllLockLoss_fr (s : State) :
    Runs 0x10000000000000000000000000000000000000000f0004040009cf s (execTillerPllLockLoss s) := by
  unfold execTillerPllLockLoss
  refine .next ?_
  refine .ite ?_ ?_
  exact .refl ..
  refine .call (State.tilLost_fr ..) ?_ (by decide)
  exact .refl ..

theorem State.unitConflict_fr (s : State) (u : Nat) :
    Fr 0x480000000000000000000000000000000000000000000000004003 s (State.unitConflict s u) := by
  unfold State.unitConflict
  refine .ite ?_ ?_
  exact .refl ..
  lift_lets -underBinder
  intro x1
  refine Fr.have x1 ?_ (fun hx1 => ?_) <;> [unfold x1; clear_value x1]
  refine .wr ?_ (by decide) (.fld .MER_STATUS_UNITS_OK rfl (by decide))
  refine .wr ?_ (by decide) (.fld .MER_STATUS_ID_CONFLICT rfl (by decide))
  exact .refl ..
  refine .call (State.raise_fr ..) ?_ (by decide)
  refine .call (State.mb_fr ..) ?_ (by decide)
  exact hx1

theorem execPongFrame_fr (unit : Fin 8) (seed : BitVec 16) (r : BitVec 16) (d : Nat) (s : State) :
    Runs 0x10000000000000000000000000000000000000000000000000000000000000002480000000000000000000000000000000000000000000000204003 s (execPongFrame unit seed r d s) := by
  unfold execPongFrame
  refine .next ?_
  refine .ite ?_ ?_
  refine .call (State.masterFrame_fr ..) ?_ (by decide)
  exact .refl ..
  split
  refine .call (State.count_fr ..) ?_ (by decide)
  exact .refl ..
  lift_lets -underBinder
  intro x1 x2 x3
  refine Fr.have x1 ?_ (fun hx1 => ?_) <;> [unfold x1; clear_value x1]
  refine .call (State.count_fr ..) ?_ (by decide)
  exact .refl ..
  refine Fr.have x2 ?_ (fun hx2 => ?_) <;> [unfold x2; clear_value x2]
  refine .call (State.mb_fr ..) ?_ (by decide)
  exact hx1
  refine .ite ?_ ?_
  exact hx1
  refine .ite ?_ ?_
  refine .call (State.unitConflict_fr ..) ?_ (by decide)
  exact hx2
  refine .call (State.mb_fr ..) ?_ (by decide)
  exact hx2

theorem execTrigFrame_fr (b : Nat) (s : State) :
    Runs 0x100000000000000000000000000000000000000000000000000000000003ac20250000000000000000000000000000000000000000000000020d047 s (execTrigFrame b s) := by
  unfold execTrigFrame
  refine .next ?_
  refine .call (State.schedule_fr ..) ?_ (by decide)
  refine .call (State.masterFrame_fr ..) ?_ (by decide)
  exact .refl ..

theorem State.resetPin_fr (s : State) :
    Fr 0x100800000000c0000000000000000000000000000008001000001000000000000000000000002060000000000000000000000000000000000000007fffff s (State.resetPin s) := by
  unfold State.resetPin
  lift_lets -underBinder
  intro x1 x2
  refine Fr.have x1 ?_ (fun hx1 => ?_) <;> [unfold x1; clear_value x1]
  refine .call (State.sy_fr ..) ?_ (by decide)
  refine .call (State.resetBody_fr ..) ?_ (by decide)
  exact .refl ..
  refine Fr.have x2 ?_ (fun hx2 => ?_) <;> [unfold x2; clear_value x2]
  refine .resetRegs .r_HDG rfl ?_ (by decide) (by decide) (by decide)
  refine .resetRegs .r_HDG rfl ?_ (by decide) (by decide) (by decide)
  refine .setReg ?_ (by decide) (.word .w_THM_TRIP_REC rfl (by decide))
  exact hx1
  refine .wr ?_ (by decide) (.fld .HDG_STATUS_SEAL_LOCK rfl (by decide))
  exact hx2

theorem execCoreReset_fr (s : State) :
    Runs 0x100800000000c0000000000000000000000000000008001000001000000000000000000000002060000000000000000000000000000000000000007fffff s (execCoreReset s) := by
  unfold execCoreReset
  refine .next ?_
  refine .call (State.resetPin_fr ..) ?_ (by decide)
  exact .refl ..

theorem State.laneExit_fr (s : State) (l : Nat) (k : Nat) :
    Fr 0x40060c00000000000000000000000000000000000000000000000000000000000000000000000000000000000000000000003 s (State.laneExit s l k) := by
  unfold State.laneExit
  refine .ite ?_ ?_
  exact .refl ..
  refine .call (State.upChecks_fr ..) ?_ (by decide)
  refine .wr ?_ (by decide) (.ite (.arr .LNK_LANE_ST_LOS rfl (by decide)) (.arr .LNK_LANE_ST_LOL rfl (by decide)))
  exact .refl ..

theorem execLosExit_fr (l : Fin 4) (s : State) :
    Runs 0x40060c00000000000000000000000000000000000000000000000000000000000000000000000000000000000000000000003 s (execLosExit l s) := by
  unfold execLosExit
  refine .next ?_
  refine .call (State.laneExit_fr ..) ?_ (by decide)
  exact .refl ..

theorem State.sxtBegin_fr (s : State) (coarse : Nat) (f : Nat) (t : Nat) :
    Fr 0x24000000000000000000000000000000000000000000000000000000010001 s (State.sxtBegin s coarse f t) := by
  unfold State.sxtBegin
  lift_lets -underBinder
  intro x1 x2 x3 x4
  refine Fr.have x3 ?_ (fun hx3 => ?_) <;> [unfold x3; clear_value x3]
  refine .ite ?_ ?_
  refine .wr ?_ (by decide) (.fld .SXT_STATUS_GATE_EDGE rfl (by decide))
  exact .refl ..
  exact .refl ..
  refine Fr.have x4 ?_ (fun hx4 => ?_) <;> [unfold x4; clear_value x4]
  refine .call (State.sx_fr ..) ?_ (by decide)
  exact hx3
  refine .ite ?_ ?_
  exact .refl ..
  refine .ite ?_ ?_
  refine .call (State.sx_fr ..) ?_ (by decide)
  refine .wr ?_ (by decide) (.fld .SXT_STATUS_BUSY rfl (by decide))
  exact hx4
  exact hx4

theorem State.sxtStop_fr (s : State) (coarse : Nat) (f : Nat) (t : Nat) :
    Fr 0x10000000000000000000000000000000000000000000000000000010020000000000000000000000000000000000000000000000000000000210003 s (State.sxtStop s coarse f t) := by
  unfold State.sxtStop
  split
  exact .refl ..
  refine .ite ?_ ?_
  exact .refl ..
  lift_lets -underBinder
  intro x1 x2 x3
  refine Fr.have x3 ?_ (fun hx3 => ?_) <;> [unfold x3; clear_value x3]
  refine .call (State.count_fr ..) ?_ (by decide)
  refine .wr ?_ (by decide) (.fld .SXT_STATUS_BUSY rfl (by decide))
  refine .wrS ?_ (by decide) (.fld .SXT_LAST_T rfl (by decide))
  exact .refl ..
  refine .call (State.sx_fr ..) ?_ (by decide)
  exact hx3

theorem execSextantStartEdge_fr (coarse : Nat) (f : Fin 128) (t : Nat) (s : State) :
    Runs 0x10000000000000000000000000000000000000000000000000000010024000000000000000000000000000000000000000000000000000000210003 s (execSextantStartEdge coarse f t s) := by
  unfold execSextantStartEdge
  refine .next ?_
  refine .ite ?_ ?_
  exact .refl ..
  refine .ite ?_ ?_
  refine .call (State.sx_fr ..) ?_ (by decide)
  exact .refl ..
  lift_lets -underBinder
  intro x1 x2
  refine Fr.have x1 ?_ (fun hx1 => ?_) <;> [unfold x1; clear_value x1]
  refine .call (State.sx_fr ..) ?_ (by decide)
  exact .refl ..
  refine .ite ?_ ?_
  exact hx1
  refine .ite ?_ ?_
  refine .ite ?_ ?_
  refine .call (State.sxtStop_fr ..) ?_ (by decide)
  exact hx1
  exact hx1
  refine .call (State.sxtBegin_fr ..) ?_ (by decide)
  exact hx1

theorem State.dramRuns_fr (s : State) :
    Fr 0x14000000000000000000000000000000000000000000000000000000000000000000000000000800000000b s (State.dramRuns s) := by
  unfold State.dramRuns
  lift_lets -underBinder
  intro x1 x2
  refine Fr.have x2 ?_ (fun hx2 => ?_) <;> [unfold x2; clear_value x2]
  refine .call (State.sy_fr ..) ?_ (by decide)
  exact .refl ..
  refine .ite ?_ ?_
  refine .call (State.memWake_fr ..) ?_ (by decide)
  exact hx2
  exact hx2

theorem State.trigSend_fr (s : State) : Fr 0x4000 s (State.trigSend s) := by
  unfold State.trigSend
  refine .ite ?_ ?_
  refine .call (State.mb_fr ..) ?_ (by decide)
  exact .refl ..
  exact .refl ..

theorem execTrigSend_fr (s : State) :
    Runs 0x1000000000000000000000000000000000000000000000000000000000000000000000000000000000000000000000000000000000000000020400b s (execTrigSend s) := by
  unfold execTrigSend
  refine .next ?_
  (with_reducible apply State.access_fr) <;> [skip; skip; decide]
  exact .refl ..
  intro x1
  refine .call (State.trigSend_fr ..) ?_ (by decide)
  exact .refl ..

theorem State.setInd_fr (s : State) (ind : Nat) :
    Fr 0x78000000000000000000000000000000000000000000000100000000000000000000000000000001 s (State.setInd s ind) := by
  unfold State.setInd
  lift_lets -underBinder
  intro x1 x2
  refine Fr.have x2 ?_ (fun hx2 => ?_) <;> [unfold x2; clear_value x2]
  refine .put ?_ (by decide) (.fld .THM_STATUS_DERATE_SRC rfl (by decide))
  refine .wr ?_ (by decide) (.fld .THM_STATUS_STAGE rfl (by decide))
  refine .wr ?_ (by decide) (.fld .THM_STATUS_IND rfl (by decide))
  exact .refl ..
  refine .call (State.showThrottle_fr ..) ?_ (by decide)
  exact hx2

theorem State.hotAction_fr (s : State) :
    Fr 0x800000000000000000000001400000080000000000000001fe80000010000000478006c00200110000000000120000000f04b03c111a7b s (State.hotAction s) := by
  unfold State.hotAction
  refine .ite ?_ ?_
  refine .call (State.goMode_fr ..) ?_ (by decide)
  refine .call (State.stopGivenUp_fr ..) ?_ (by decide)
  exact .refl ..
  refine .call (State.derateCheck_fr ..) ?_ (by decide)
  exact .refl ..

theorem State.thmEntry_fr (s : State) (key : Nat) (t : Nat) :
    Fr 0x2000000000000000000000000000000000000000000000000000000000000000000000000080003 s (State.thmEntry s key t) := by
  unfold State.thmEntry
  lift_lets -underBinder
  intro x1 x2
  refine Fr.have x2 ?_ (fun hx2 => ?_) <;> [unfold x2; clear_value x2]
  refine .call (State.th_fr ..) ?_ (by decide)
  exact .refl ..
  refine .ite ?_ ?_
  refine .call (State.raise_fr ..) ?_ (by decide)
  refine .wr ?_ (by decide) (.fld .THM_STATUS_FLAP rfl (by decide))
  refine .call (State.th_fr ..) ?_ (by decide)
  exact hx2
  exact hx2

theorem execThermalIndicatorEntry_fr (inds : Fin 8) (t : Nat) (s : State) :
    Runs 0x8000000000000000000000014000007a0000000000000001fe80000010000000478006c00200110000000000120000000f04b03c191a7b s (execThermalIndicatorEntry inds t s) := by
  unfold execThermalIndicatorEntry
  refine .next ?_
  lift_lets -underBinder
  intro x1 x2 x3 x4
  refine Fr.have x2 ?_ (fun hx2 => ?_) <;> [unfold x2; clear_value x2]
  refine .call (State.setInd_fr ..) ?_ (by decide)
  exact .refl ..
  refine Fr.have x3 ?_ (fun hx3 => ?_) <;> [unfold x3; clear_value x3]
  with_reducible apply Fr.foldl
  exact hx2
  intro x5 x6
  refine .call (State.thmEntry_fr ..) ?_ (by decide)
  refine .call (State.raise_fr ..) ?_ (by decide)
  exact .refl ..
  refine Fr.have x4 ?_ (fun hx4 => ?_) <;> [unfold x4; clear_value x4]
  refine .ite ?_ ?_
  refine .call (State.orderlyStop_fr ..) ?_ (by decide)
  exact hx3
  exact hx3
  refine .ite ?_ ?_
  exact .refl ..
  refine .ite ?_ ?_
  refine .call (State.hotAction_fr ..) ?_ (by decide)
  exact hx4
  exact hx4

theorem State.itemDone_fr (s : State) (accepted : Bool) :
    Fr 0x10000000000310000000000000000000000000000000000d4201200608000000000050073 s (State.itemDone s accepted) := by
  unfold State.itemDone
  refine .call (State.nextItem_fr ..) ?_ (by decide)
  refine .call (State.cl_fr ..) ?_ (by decide)
  exact .refl ..

theorem State.calResult_fr (s : State) (item : Nat) (q : Int) (rejects : Nat) (first : Nat) :
    Fr 0x78000000000000000000000000000000000000000000000000000000000000000000000003 s (State.calResult s item q rejects first) := by
  unfold State.calResult
  refine .call (State.raiseIf_fr ..) ?_ (by decide)
  refine .wr ?_ (by decide) (.fld .CAL_RESULT_FIRST rfl (by decide))
  refine .wr ?_ (by decide) (.fld .CAL_RESULT_REJECTS rfl (by decide))
  refine .wr ?_ (by decide) (.fld .CAL_RESULT_ITEM rfl (by decide))
  refine .wrS ?_ (by decide) (.fld .CAL_RESULT_QUALITY rfl (by decide))
  exact .refl ..

theorem State.cdtBuilt_fr (s : State) (a : List Nat) (b : List Nat) :
    Fr 0x60001000000000000000000000000000000000000000000000000000000010003 s (State.cdtBuilt s a b) := by
  unfold State.cdtBuilt
  lift_lets -underBinder
  intro x1
  refine Fr.have x1 ?_ (fun hx1 => ?_) <;> [unfold x1; clear_value x1]
  refine .wr ?_ (by decide) (.fld .SXT_STATUS_CDT_BUSY rfl (by decide))
  exact .refl ..
  refine .call (State.raise_fr ..) ?_ (by decide)
  refine .ite ?_ ?_
  refine .call (State.cdtCommit_fr ..) ?_ (by decide)
  unfold State.putCdt
  with_reducible apply Fr.forN
  with_reducible apply Fr.forN
  exact hx1
  intro x2 x3
  refine .setReg ?_ (by decide) (.words .w_SXT_CDT_START rfl (by decide))
  exact .refl ..
  intro x4 x5
  refine .setReg ?_ (by decide) (.words .w_SXT_CDT_STOP rfl (by decide))
  exact .refl ..
  refine .call (State.raise_fr ..) ?_ (by decide)
  exact hx1

theorem execCdtRunComplete_fr (hitsStart : List Nat) (hitsStop : List Nat) (s : State) :
    Runs 0x790000000600310000000000000000000000000000000000d4201200608000000000050073 s (execCdtRunComplete hitsStart hitsStop s) := by
  unfold execCdtRunComplete
  refine .next ?_
  refine .ite ?_ ?_
  exact .refl ..
  lift_lets -underBinder
  intro x1 x2
  refine Fr.have x1 ?_ (fun hx1 => ?_) <;> [unfold x1; clear_value x1]
  refine .call (State.cdtBuilt_fr ..) ?_ (by decide)
  exact .refl ..
  refine .ite ?_ ?_
  refine .call (State.itemDone_fr ..) ?_ (by decide)
  refine .call (State.calResult_fr ..) ?_ (by decide)
  exact hx1
  exact hx1

theorem execResetNLow_fr (s : State) :
    Runs 0x100800000000c0000000000000000000000000000008001000001000000000000000000000002060000000000000000000000000000000000000007fffff s (execResetNLow s) := by
  unfold execResetNLow
  refine .next ?_
  refine .call (State.resetPin_fr ..) ?_ (by decide)
  exact .refl ..

theorem execAlignmentAverage_fr (s : State) :
    Runs 0x12000000000000000000000000000000000000000000000000004003 s (execAlignmentAverage s) := by
  unfold execAlignmentAverage
  refine .next ?_
  refine .ite ?_ ?_
  exact .refl ..
  lift_lets -underBinder
  intro x1 x2
  refine Fr.have x2 ?_ (fun hx2 => ?_) <;> [unfold x2; clear_value x2]
  refine .call (State.mb_fr ..) ?_ (by decide)
  refine .wrS ?_ (by decide) (.fld .MER_PHASE_PHI rfl (by decide))
  exact .refl ..
  refine .ite ?_ ?_
  refine .call (State.merLost_fr ..) ?_ (by decide)
  exact hx2
  refine .ite ?_ ?_
  refine .call (State.raise_fr ..) ?_ (by decide)
  refine .wr ?_ (by decide) (.fld .MER_STATUS_STATE rfl (by decide))
  exact hx2
  exact hx2

theorem execLolExit_fr (l : Fin 4) (s : State) :
    Runs 0x40060c00000000000000000000000000000000000000000000000000000000000000000000000000000000000000000000003 s (execLolExit l s) := by
  unfold execLolExit
  refine .next ?_
  refine .call (State.laneExit_fr ..) ?_ (by decide)
  exact .refl ..

theorem State.rangeSample_fr (s : State) (i : Nat) (t : Nat) (code : Nat) (ovr : Bool) (settling : Bool) (transient : Bool) :
    Fr 0x22008000000000000000000000000000000000000000000000000000000000000020003 s (State.rangeSample s i t code ovr settling transient) := by
  unfold State.rangeSample
  lift_lets -underBinder
  intro x1
  refine .ite ?_ ?_
  exact .refl ..
  refine .ite ?_ ?_
  refine .call (State.setGain_fr ..) ?_ (by decide)
  exact .refl ..
  refine .ite ?_ ?_
  refine .call (State.onFe_fr ..) ?_ (by decide)
  exact .refl ..
  refine .ite ?_ ?_
  refine .call (State.setGain_fr ..) ?_ (by decide)
  exact .refl ..
  refine .ite ?_ ?_
  refine .call (State.onFe_fr ..) ?_ (by decide)
  exact .refl ..
  refine .ite ?_ ?_
  exact .refl ..
  refine .ite ?_ ?_
  refine .ite ?_ ?_
  refine .ite ?_ ?_
  exact .refl ..
  refine .call (State.setGain_fr ..) ?_ (by decide)
  exact .refl ..
  refine .call (State.onFe_fr ..) ?_ (by decide)
  exact .refl ..
  exact .refl ..

theorem State.convert_fr (s : State) (n : Nat) (t : Nat) (half : Int) (urgent : Bool) :
    Fr 0x22008000000000000000000000000000000000000000000000000000000000000020003 s (State.convert s n t half urgent).2 := by
  unfold State.convert
  lift_lets -underBinder
  intro x1 x2 x3 x4 x5 x6 x7 x8 x9
  refine Fr.have x4 ?_ (fun hx4 => ?_) <;> [unfold x4; clear_value x4]
  apply Fr.upd <;> first | show Fr _ _ _ | exact .inl rfl | exact .inr rfl | rfl
  exact .refl ..
  with_reducible apply Fr.ite2
  dsimp +zetaDelta -zeta only
  exact hx4
  dsimp +zetaDelta -zeta only
  refine .call (State.rangeSample_fr ..) ?_ (by decide)
  refine .call (State.onFe_fr ..) ?_ (by decide)
  exact hx4

theorem State.deliverSample_fr (s : State) (n : Nat) (t : Nat) (w : Word) :
    Fr 0x100000000000000000000000000000000000000000000000000640000003ac000000000000786080000018000000000000000000000000000209207 s (State.deliverSample s n t w) := by
  unfold State.deliverSample
  refine .ite ?_ ?_
  refine .bump ?_ (by decide) (.fld .ADC_CNT_DISCARD_COUNT rfl (by decide))
  exact .refl ..
  lift_lets -underBinder
  intro x1 x2 x3
  refine Fr.have x1 ?_ (fun hx1 => ?_) <;> [unfold x1; clear_value x1]
  refine .call (State.count_fr ..) ?_ (by decide)
  refine .setReg ?_ (by decide) (.words .w_ADC_LAST rfl (by decide))
  exact .refl ..
  refine Fr.have x3 ?_ (fun hx3 => ?_) <;> [unfold x3; clear_value x3]
  refine .ite ?_ ?_
  refine .call (State.raise_fr ..) ?_ (by decide)
  refine .wr ?_ (by decide) (.fld .ADC_OVR_STATUS_OVR rfl (by decide))
  exact hx1
  exact hx1
  refine .call (State.helmSample_fr ..) ?_ (by decide)
  refine .call (State.lbSample_fr ..) ?_ (by decide)
  refine .call (State.capSample_fr ..) ?_ (by decide)
  exact hx3

theorem State.urgentHelm_fr (s : State) (half : Int) (t : Nat) :
    Fr 0x1000000000000000000000000000000000000000000000002206c0000003ac000000000000786080000018000000000000000000000000000229207 s (State.urgentHelm s half t) := by
  unfold State.urgentHelm
  lift_lets -underBinder
  intro x1
  split
  lift_lets -underBinder
  intro x2 x3 x4
  refine Fr.have x2 ?_ (fun hx2 => ?_) <;> [unfold x2; clear_value x2]
  refine .call (State.deliverSample_fr ..) ?_ (by decide)
  with_reducible refine Fr.pair (by assumption) ?_
  refine .call (State.convert_fr ..) ?_ (by decide)
  exact .refl ..
  refine Fr.have x4 ?_ (fun hx4 => ?_) <;> [unfold x4; clear_value x4]
  apply Fr.upd <;> first | show Fr _ _ _ | exact .inl rfl | exact .inr rfl | rfl
  exact hx2
  refine .call (State.helmUrgent_fr ..) ?_ (by decide)
  refine .call (State.helmSample_fr ..) ?_ (by decide)
  exact hx4

theorem State.urgentHost_fr (s : State) (half : Int) (t : Nat) :
    Fr 0x1000000000000000000000000000000000000000000000002206e3000003ac000000000000786080000018000000000000000000000000000229207 s (State.urgentHost s half t) := by
  unfold State.urgentHost
  lift_lets -underBinder
  intro x1
  split
  lift_lets -underBinder
  intro x2 x3 x4
  refine Fr.have x2 ?_ (fun hx2 => ?_) <;> [unfold x2; clear_value x2]
  refine .call (State.deliverSample_fr ..) ?_ (by decide)
  with_reducible refine Fr.pair (by assumption) ?_
  refine .call (State.convert_fr ..) ?_ (by decide)
  exact .refl ..
  refine Fr.have x4 ?_ (fun hx4 => ?_) <;> [unfold x4; clear_value x4]
  apply Fr.upd <;> first | show Fr _ _ _ | exact .inl rfl | exact .inr rfl | rfl
  exact hx2
  refine .wr ?_ (by decide) (.fld .ADC_STATUS_HOST_URG_DONE rfl (by decide))
  refine .wr ?_ (by decide) (.fld .ADC_STATUS_HOST_URG_BUSY rfl (by decide))
  refine .setReg ?_ (by decide) (.word .w_ADC_URG_RESULT rfl (by decide))
  exact hx4

theorem execUrgentSample_fr (half : Int) (t : Nat) (s : State) :
    Runs 0x1000000000000000000000000000000000000000000000002206e3000003ac000000000000786080000018000000000000000000000000000229207 s (execUrgentSample half t s) := by
  unfold execUrgentSample
  refine .next ?_
  refine .ite ?_ ?_
  exact .refl ..
  refine .ite ?_ ?_
  refine .call (State.urgentHelm_fr ..) ?_ (by decide)
  exact .refl ..
  refine .ite ?_ ?_
  refine .call (State.urgentHost_fr ..) ?_ (by decide)
  exact .refl ..
  exact .refl ..

theorem State.retireSensor_fr (s : State) (k : Nat) :
    Fr 0x68585000000000000000000000000000000000000000000000000000000000000000000000000000003 s (State.retireSensor s k) := by
  unfold State.retireSensor
  refine .ite ?_ ?_
  refine .call (State.cfgReject_fr ..) ?_ (by decide)
  exact .refl ..
  refine .call (State.thermSettle_fr ..) ?_ (by decide)
  refine .wr ?_ (by decide) (.fld .THM_RETIRED_MASK rfl (by decide))
  refine .wr ?_ (by decide) (.arr .THM_SNS_ST_STATE rfl (by decide))
  exact .refl ..

theorem State.readmit_fr (s : State) (k : Nat) :
    Fr 0xe8185000000000000000000000000000000000000000000000000000000000000000000000000080003 s (State.readmit s k) := by
  unfold State.readmit
  refine .ite ?_ ?_
  refine .call (State.cfgReject_fr ..) ?_ (by decide)
  exact .refl ..
  refine .ite ?_ ?_
  exact .refl ..
  refine .call (State.thermSettle_fr ..) ?_ (by decide)
  refine .call (State.th_fr ..) ?_ (by decide)
  refine .wr ?_ (by decide) (.arr .THM_SNS_ST_CAUSE rfl (by decide))
  refine .wr ?_ (by decide) (.arr .THM_SNS_ST_STATE rfl (by decide))
  exact .refl ..

theorem State.snsCtrl_fr (s : State) (k : Nat) (retire : Bool) (readmit : Bool) :
    Fr 0xe8785000000000000000000000000000000000000000000000000000000000000000000000000080003 s (State.snsCtrl s k retire readmit) := by
  unfold State.snsCtrl
  refine .ite ?_ ?_
  refine .call (State.cfgReject_fr ..) ?_ (by decide)
  exact .refl ..
  lift_lets -underBinder
  intro x1
  refine Fr.have x1 ?_ (fun hx1 => ?_) <;> [unfold x1; clear_value x1]
  refine .wr ?_ (by decide) (.fld .THM_SNS_CTRL_SENSOR rfl (by decide))
  exact .refl ..
  refine .ite ?_ ?_
  refine .call (State.retireSensor_fr ..) ?_ (by decide)
  exact hx1
  refine .ite ?_ ?_
  refine .call (State.readmit_fr ..) ?_ (by decide)
  exact hx1
  exact hx1

theorem execRetire_fr (k : Fin 32) (s : State) :
    Runs 0x100000000000000000000000000000000000e878500000000000000000000000000000000000000000000000000000000000000000000000028000b s (execRetire k s) := by
  unfold execRetire
  refine .next ?_
  (with_reducible apply State.access_fr) <;> [skip; skip; decide]
  exact .refl ..
  intro x1
  refine .call (State.snsCtrl_fr ..) ?_ (by decide)
  exact .refl ..

theorem execRerunDue_fr (s : State) :
    Runs 0x80000000000000000000000140000008004003e000000001ff80000010000000478006c0020011000000fe20120060800f04a038951a7b s (execRerunDue s) := by
  unfold execRerunDue
  refine .next ?_
  lift_lets -underBinder
  intro x1
  refine .ite ?_ ?_
  exact .refl ..
  refine .call (State.rerunCheck_fr ..) ?_ (by decide)
  refine .call (State.raise_fr ..) ?_ (by decide)
  refine .wr ?_ (by decide) (.fld .CAL_STATUS_RERUN_PENDING rfl (by decide))
  refine .call (State.cl_fr ..) ?_ (by decide)
  exact .refl ..

theorem State.pcieDown_fr (s : State) :
    Fr 0x2000000000008008000000000f000000000000000000000000000000000000000000000000000000000000000000000000000000000000000000100803 s (State.pcieDown s) := by
  unfold State.pcieDown
  lift_lets -underBinder
  intro x1 x2 x3
  refine Fr.have x2 ?_ (fun hx2 => ?_) <;> [unfold x2; clear_value x2]
  refine .wr ?_ (by decide) (.fld .LNK_STATUS_SPEED rfl (by decide))
  refine .wr ?_ (by decide) (.fld .LNK_STATUS_WIDTH rfl (by decide))
  refine .wr ?_ (by decide) (.fld .LNK_STATUS_PCIE_UP rfl (by decide))
  refine .call (State.cfgReset_fr ..) ?_ (by decide)
  exact .refl ..
  refine Fr.have x3 ?_ (fun hx3 => ?_) <;> [unfold x3; clear_value x3]
  refine .call (State.raiseIf_fr ..) ?_ (by decide)
  exact hx2
  refine .ite ?_ ?_
  refine .call (State.mboxOwner_fr ..) ?_ (by decide)
  exact hx3
  exact hx3

theorem execLinkChange_fr (who : Fin 3) (up : Bool) (width : Fin 8) (speed : Fin 4) (s : State) :
    Runs 0x2000000000008008000006000fc00000000000000000000000000000000000000000000000000000000000000000000000000000000000000000100803 s (execLinkChange who up width speed s) := by
  unfold execLinkChange
  refine .next ?_
  refine .ite ?_ ?_
  exact .refl ..
  refine .ite ?_ ?_
  refine .ite ?_ ?_
  refine .call (State.pcieDown_fr ..) ?_ (by decide)
  exact .refl ..
  refine .ite ?_ ?_
  exact .refl ..
  lift_lets -underBinder
  intro x1
  refine .call (State.raiseIf_fr ..) ?_ (by decide)
  refine .wr ?_ (by decide) (.fld .LNK_STATUS_SPEED rfl (by decide))
  refine .wr ?_ (by decide) (.fld .LNK_STATUS_WIDTH rfl (by decide))
  refine .wr ?_ (by decide) (.fld .LNK_STATUS_PCIE_UP rfl (by decide))
  exact .refl ..
  lift_lets -underBinder
  intro x2 x3
  refine .call (State.upCheck_fr ..) ?_ (by decide)
  refine .put ?_ (by decide) (.arr .LNK_ETH_STATUS_BLOCK_LOCK rfl (by decide))
  exact .refl ..

theorem execSextantMeasurementTimeout_fr (s : State) :
    Runs 0x10000000000000000000000000000000000000000000000000000000020000000000000000000000000000000000000000000000000000000210003 s (execSextantMeasurementTimeout s) := by
  unfold execSextantMeasurementTimeout
  refine .next ?_
  split
  exact .refl ..
  refine .ite ?_ ?_
  exact .refl ..
  lift_lets -underBinder
  intro x1
  refine Fr.have x1 ?_ (fun hx1 => ?_) <;> [unfold x1; clear_value x1]
  refine .call (State.count_fr ..) ?_ (by decide)
  refine .call (State.raiseIf_fr ..) ?_ (by decide)
  refine .wr ?_ (by decide) (.fld .SXT_STATUS_BUSY rfl (by decide))
  exact .refl ..
  refine .call (State.sx_fr ..) ?_ (by decide)
  exact hx1

theorem execRzDriftEntry_fr (t : Nat) (s : State) :
    Runs 0x240000000000000000000000000000000000000000000000000000000000000000040003 s (execRzDriftEntry t s) := by
  unfold execRzDriftEntry
  refine .next ?_
  refine .ite ?_ ?_
  exact .refl ..
  lift_lets -underBinder
  intro x1 x2 x3
  refine Fr.have x2 ?_ (fun hx2 => ?_) <;> [unfold x2; clear_value x2]
  refine .call (State.cl_fr ..) ?_ (by decide)
  exact .refl ..
  refine Fr.have x3 ?_ (fun hx3 => ?_) <;> [unfold x3; clear_value x3]
  refine .call (State.raise_fr ..) ?_ (by decide)
  refine .wr ?_ (by decide) (.fld .CAL_STATUS_RERUN_PENDING rfl (by decide))
  exact hx2
  refine .ite ?_ ?_
  refine .wr ?_ (by decide) (.fld .CAL_STATUS_RZ_FLAP rfl (by decide))
  exact hx3
  exact hx3

theorem execSyncSet_fr (s : State) :
    Runs 0x1000000000000002000000000000000000000000000000000000000000000000000000000000000000000000000000000000000000000000020000b s (execSyncSet s) := by
  unfold execSyncSet
  refine .next ?_
  (with_reducible apply State.access_fr) <;> [skip; skip; decide]
  exact .refl ..
  intro x1
  refine .wr ?_ (by decide) (.fld .LNK_PTP_STATUS_SYNCED rfl (by decide))
  exact .refl ..

theorem State.oscComp_fr (s : State) : Fr 0x80002 s (State.oscComp s) := by
  unfold State.oscComp
  lift_lets -underBinder
  intro x1 x2
  refine .call (State.trimClamped_fr ..) ?_ (by decide)
  refine .call (State.th_fr ..) ?_ (by decide)
  exact .refl ..

theorem State.dllComp_fr (s : State) (col : Nat) : Fr 0x20000000000000000080023 s (State.dllComp s col) := by
  unfold State.dllComp
  lift_lets -underBinder
  intro x1 x2 x3 x4 x5 x6 x7
  refine Fr.have x5 ?_ (fun hx5 => ?_) <;> [unfold x5; clear_value x5]
  refine .call (State.trimClamped_fr ..) ?_ (by decide)
  exact .refl ..
  refine Fr.have x7 ?_ (fun hx7 => ?_) <;> [unfold x7; clear_value x7]
  refine .call (State.th_fr ..) ?_ (by decide)
  exact hx5
  refine .ite ?_ ?_
  exact hx7
  with_reducible apply Fr.when
  unfold x1
  refine .wrS ?_ (by decide) (.arr .TDC_DLL_TRIM_TRIM rfl (by decide))
  exact hx7
  intro x8
  refine .call (State.trimTake_fr ..) ?_ (by decide)
  exact .refl ..

theorem State.bandgapComp_fr (s : State) : Fr 0x80002 s (State.bandgapComp s) := by
  unfold State.bandgapComp
  lift_lets -underBinder
  intro x1 x2 x3 x4
  refine .ite ?_ ?_
  exact .refl ..
  refine .call (State.trimClamped_fr ..) ?_ (by decide)
  refine .call (State.th_fr ..) ?_ (by decide)
  exact .refl ..

theorem State.ageUp_fr (s : State) :
    Fr 0x900000000000000000000000000000000000000000000000000000000000000000000000001 s (State.ageUp s) := by
  unfold State.ageUp
  refine .bump ?_ (by decide) (.fld .CAL_LAST_RZ_AGE rfl (by decide))
  refine .bump ?_ (by decide) (.fld .CAL_LAST_CD_AGE rfl (by decide))
  exact .refl ..

theorem execCompensationUpdate_fr (rings : List Nat) (rails : List Nat) (s : State) :
    Runs 0x9000000009000000000000000000000000000000000000000000000000000200000000000000000c0023 s (execCompensationUpdate rings rails s) := by
  unfold execCompensationUpdate
  refine .next ?_
  refine .ite ?_ ?_
  exact .refl ..
  lift_lets -underBinder
  intro x1 x2 x3 x4 x5
  refine Fr.have x1 ?_ (fun hx1 => ?_) <;> [unfold x1; clear_value x1]
  with_reducible apply Fr.forN
  exact .refl ..
  intro x6 x7
  split
  refine .wr ?_ (by decide) (.arr .THM_RO_COUNT rfl (by decide))
  exact .refl ..
  exact .refl ..
  refine Fr.have x2 ?_ (fun hx2 => ?_) <;> [unfold x2; clear_value x2]
  with_reducible apply Fr.forN
  exact hx1
  intro x8 x9
  split
  refine .wr ?_ (by decide) (.arr .THM_RAIL_MEAS rfl (by decide))
  exact .refl ..
  exact .refl ..
  refine Fr.have x3 ?_ (fun hx3 => ?_) <;> [unfold x3; clear_value x3]
  refine .call (State.oscComp_fr ..) ?_ (by decide)
  refine .call (State.bandgapComp_fr ..) ?_ (by decide)
  exact hx2
  refine Fr.have x4 ?_ (fun hx4 => ?_) <;> [unfold x4; clear_value x4]
  refine .ite ?_ ?_
  with_reducible apply Fr.forN
  exact hx3
  intro x10 x11
  refine .call (State.dllComp_fr ..) ?_ (by decide)
  exact .refl ..
  exact hx3
  refine .ite ?_ ?_
  refine .call (State.cl_fr ..) ?_ (by decide)
  exact hx4
  refine .call (State.ageUp_fr ..) ?_ (by decide)
  refine .call (State.cl_fr ..) ?_ (by decide)
  exact hx4

theorem execRailMonitorEntry_fr (r : Fin 6) (mv : Nat) (t : Nat) (s : State) :
    Runs 0x700002000000000000000000000000000000000000000000000000000000000000000000000000080003 s (execRailMonitorEntry r mv t s) := by
  unfold execRailMonitorEntry
  refine .next ?_
  lift_lets -underBinder
  intro x1 x2 x3 x4 x5
  refine Fr.have x5 ?_ (fun hx5 => ?_) <;> [unfold x5; clear_value x5]
  refine .wr ?_ (by decide) (.arr .THM_RAIL_MEAS rfl (by decide))
  exact .refl ..
  refine .ite ?_ ?_
  exact .refl ..
  refine .ite ?_ ?_
  exact hx5
  refine .call (State.thmEntry_fr ..) ?_ (by decide)
  refine .call (State.raise_fr ..) ?_ (by decide)
  unfold x4
  refine .wr ?_ (by decide) (.ite (.arr .THM_RAIL_OV rfl (by decide)) (.arr .THM_RAIL_UV rfl (by decide)))
  exact hx5

theorem State.putLut_fr (s : State) (c : Nat) (e : Nat → Nat) : Fr 0x100000000000000000000001 s (State.putLut s c e) := by
  unfold State.putLut
  with_reducible apply Fr.forN
  exact .refl ..
  intro x1 x2
  refine .setReg ?_ (by decide) (.words2 .w_TDC_LUT rfl (by decide))
  exact .refl ..

theorem State.calResults_fr (s : State) (item : Nat) (qs : List Int) :
    Fr 0x78000000000000000000000000000000000000000000000000000000000000000000000003 s (State.calResults s item qs) := by
  unfold State.calResults
  lift_lets -underBinder
  intro x1
  refine .call (State.calResult_fr ..) ?_ (by decide)
  exact .refl ..

theorem execCodeDensityItem_fr (s : State) :
    Runs 0x3790000000000310000000000000000000000000000000000d4301300608000000000050073 s (execCodeDensityItem s) := by
  unfold execCodeDensityItem
  refine .next ?_
  refine .ite ?_ ?_
  exact .refl ..
  lift_lets -underBinder
  intro x1 x2 x3 x4 x5
  refine Fr.have x3 ?_ (fun hx3 => ?_) <;> [unfold x3; clear_value x3]
  with_reducible apply Fr.forN
  exact .refl ..
  intro x6 x7
  refine .ite ?_ ?_
  refine .call (State.putLut_fr ..) ?_ (by decide)
  exact .refl ..
  exact .refl ..
  refine Fr.have x4 ?_ (fun hx4 => ?_) <;> [unfold x4; clear_value x4]
  refine .wr ?_ (by decide) (.fld .TDC_STATUS_COMMIT_PENDING rfl (by decide))
  exact hx3
  refine Fr.have x5 ?_ (fun hx5 => ?_) <;> [unfold x5; clear_value x5]
  refine .ite ?_ ?_
  refine .wr ?_ (by decide) (.fld .CAL_LAST_CD_AGE rfl (by decide))
  refine .wrS ?_ (by decide) (.fld .CAL_LAST_CD_TEMP rfl (by decide))
  exact hx4
  exact hx3
  refine .call (State.itemDone_fr ..) ?_ (by decide)
  refine .call (State.calResults_fr ..) ?_ (by decide)
  refine .call (State.testSrc_fr ..) ?_ (by decide)
  exact hx5

theorem State.freeFail_fr (s : State) : Fr 0x4 s (State.freeFail s).2 := by
  unfold State.freeFail
  split
  dsimp +zetaDelta -zeta only
  with_reducible refine Fr.pair (by assumption) ?_
  refine .call (State.drawFree_fr ..) ?_ (by decide)
  exact .refl ..

theorem State.rzSextant_fr (s : State) : Fr 0x1fe800000000000000000000000000000000000000000000000002000050003 s (State.rzSextant s) := by
  unfold State.rzSextant
  lift_lets -underBinder
  intro x1
  refine Fr.have x1 ?_ (fun hx1 => ?_) <;> [unfold x1; clear_value x1]
  refine .wr ?_ (by decide) (.fld .SXT_CFG_GATE_SRC rfl (by decide))
  refine .wr ?_ (by decide) (.fld .SXT_CFG_STOP_SRC rfl (by decide))
  refine .wr ?_ (by decide) (.fld .SXT_CFG_START_SRC rfl (by decide))
  exact .refl ..
  refine .call (State.cl_fr ..) ?_ (by decide)
  refine .ite ?_ ?_
  refine .call (State.sxtArm_fr ..) ?_ (by decide)
  exact hx1
  refine .call (State.sxtEnable_fr ..) ?_ (by decide)
  exact hx1

theorem execRangeZeroItem_fr (s : State) :
    Runs 0x790000000001ff8000000000000000000000000000000000d4201200608000002000050077 s (execRangeZeroItem s) := by
  unfold execRangeZeroItem
  refine .next ?_
  refine .ite ?_ ?_
  exact .refl ..
  lift_lets -underBinder
  intro x1
  split
  lift_lets -underBinder
  intro x2 x3 x4 x5 x6 x7
  refine Fr.have x4 ?_ (fun hx4 => ?_) <;> [unfold x4; clear_value x4]
  refine .call (State.calResults_fr ..) ?_ (by decide)
  with_reducible refine Fr.pair (by assumption) ?_
  with_reducible apply Fr.ite2
  refine .call (State.freeFail_fr ..) ?_ (by decide)
  exact .refl ..
  dsimp +zetaDelta -zeta only
  exact .refl ..
  refine .ite ?_ ?_
  refine .call (State.itemDone_fr ..) ?_ (by decide)
  exact hx4
  refine .call (State.rzSextant_fr ..) ?_ (by decide)
  refine .call (State.cl_fr ..) ?_ (by decide)
  exact hx4

theorem State.prbsSeen_fr (s : State) (l : Nat) :
    Fr 0x40000000000000000000000000000000000000000000000000000000000000000000000000000000000000000000000000000000005 s (State.prbsSeen s l) := by
  unfold State.prbsSeen
  refine .ite ?_ ?_
  exact .refl ..
  split
  refine .bump ?_ (by decide) (.arr .LNK_PRBS_ERR_COUNT rfl (by decide))
  with_reducible refine Fr.pair (by assumption) ?_
  refine .call (State.drawFree_fr ..) ?_ (by decide)
  exact .refl ..

theorem State.laneTest_fr (s : State) (l : Nat) (loop : Nat) (prbs : Nat) :
    Fr 0x40000000300000000000000000000000000000000000000000000000000000000000000000000000000000000000000000000000007 s (State.laneTest s l loop prbs) := by
  unfold State.laneTest
  refine .ite ?_ ?_
  refine .call (State.cfgReject_fr ..) ?_ (by decide)
  exact .refl ..
  refine .wr ?_ (by decide) (.arr .LNK_LANE_TEST_PRBS rfl (by decide))
  refine .wr ?_ (by decide) (.arr .LNK_LANE_TEST_LOOP rfl (by decide))
  refine .call (State.prbsSeen_fr ..) ?_ (by decide)
  exact .refl ..

theorem execLoopbackSelect_fr (l : Fin 4) (loop : Fin 8) (prbs : Fin 4) (s : State) :
    Runs 0x1000000000004000000030000000000000000000000000000000000000000000000000000000000000000000000000000000000000000000020000f s (execLoopbackSelect l loop prbs s) := by
  unfold execLoopbackSelect
  refine .next ?_
  (with_reducible apply State.access_fr) <;> [skip; skip; decide]
  exact .refl ..
  intro x1
  refine .call (State.laneTest_fr ..) ?_ (by decide)
  exact .refl ..

theorem State.openWindow_fr (s : State) (i : Nat) :
    Fr 0x800000000000000000000000000000000000000000000000000000000000000000001 s (State.openWindow s i) := by
  unfold State.openWindow
  refine .ite ?_ ?_
  refine .wr ?_ (by decide) (.arr .ADC_FE_STATUS_IN_WINDOW rfl (by decide))
  exact .refl ..
  exact .refl ..

theorem execSettleEnd_fr (i : Fin 8) (s : State) :
    Runs 0x10800800000000000000000000000000000000000000000000000000000000000020001 s (execSettleEnd i s) := by
  unfold execSettleEnd
  refine .next ?_
  refine .ite ?_ ?_
  exact .refl ..
  refine .call (State.keepEntry_fr ..) ?_ (by decide)
  refine .call (State.openWindow_fr ..) ?_ (by decide)
  refine .wr ?_ (by decide) (.arr .ADC_FE_STATUS_SETTLING rfl (by decide))
  exact .refl ..

theorem execRzDriftClear_fr (s : State) : Runs 0x40000 s (execRzDriftClear s) := by
  unfold execRzDriftClear
  refine .next ?_
  refine .ite ?_ ?_
  refine .call (State.cl_fr ..) ?_ (by decide)
  exact .refl ..
  exact .refl ..

theorem State.stampPop_fr (s : State) :
    Fr 0x3fe10000000000000000000000000000000000000000000000000000000000000000000000000000000000000000000000000000801 s (State.stampPop s) := by
  unfold State.stampPop
  refine .call (State.stampShow_fr ..) ?_ (by decide)
  refine .call (State.lk_fr ..) ?_ (by decide)
  exact .refl ..

theorem State.ptpSync_fr (s : State) (t : Nat) :
    Fr 0x8000000000000000000000000000000000000000000000000000000000000000000000000000000000000000000000000000801 s (State.ptpSync s t) := by
  unfold State.ptpSync
  lift_lets -underBinder
  intro x1
  refine .put ?_ (by decide) (.fld .LNK_PTP_STATUS_SLEWING rfl (by decide))
  refine .call (State.lk_fr ..) ?_ (by decide)
  exact .refl ..

theorem State.slewSeen_fr (s : State) (a : Nat) (n : Nat) (t : Option Nat) :
    Fr 0x8000000000000000000000000000000000000000000000000000000000000000000000000000000000000000000000000000805 s (State.slewSeen s a n t) := by
  unfold State.slewSeen
  refine .ite ?_ ?_
  exact .refl ..
  split
  refine .call (State.ptpSync_fr ..) ?_ (by decide)
  exact .refl ..
  split
  refine .ite ?_ ?_
  refine .wr ?_ (by decide) (.fld .LNK_PTP_STATUS_SLEWING rfl (by decide))
  with_reducible refine Fr.pair (by assumption) ?_
  refine .call (State.drawFree_fr ..) ?_ (by decide)
  exact .refl ..
  with_reducible refine Fr.pair (by assumption) ?_
  refine .call (State.drawFree_fr ..) ?_ (by decide)
  exact .refl ..

theorem State.linkSeen_fr (s : State) (a : Nat) (n : Nat) (t : Option Nat) :
    Fr 0x40008000000000000000000000000000000000000000000000000000000000000000000000000000000000000000000000000000805 s (State.linkSeen s a n t) := by
  unfold State.linkSeen
  with_reducible apply Fr.forN
  refine .call (State.slewSeen_fr ..) ?_ (by decide)
  exact .refl ..
  intro x1 x2
  refine .ite ?_ ?_
  refine .call (State.prbsSeen_fr ..) ?_ (by decide)
  exact .refl ..
  exact .refl ..

theorem execListenEnd_fr (t : Nat) (s : State) : Runs 0x2000000000000000000000000000000000000000000000000004001 s (execListenEnd t s) := by
  unfold execListenEnd
  refine .next ?_
  refine .ite ?_ ?_
  exact .refl ..
  lift_lets -underBinder
  intro x1
  refine Fr.have x1 ?_ (fun hx1 => ?_) <;> [unfold x1; clear_value x1]
  refine .wr ?_ (by decide) (.fld .MER_STATUS_STATE rfl (by decide))
  exact .refl ..
  refine .ite ?_ ?_
  exact hx1
  refine .call (State.mb_fr ..) ?_ (by decide)
  exact hx1

theorem execPacketiserRecord_fr (bad : Bool) (s : State) :
    Runs 0x1000000000000000401040000000bfe2940000000000000000000000000000000000000000000000000000000000000000000000000008000200c03 s (execPacketiserRecord bad s) := by
  unfold execPacketiserRecord
  refine .next ?_
  lift_lets -underBinder
  intro x1
  refine .ite ?_ ?_
  exact .refl ..
  split
  refine .ite ?_ ?_
  exact .refl ..
  refine .call (State.lk_fr ..) ?_ (by decide)
  exact .refl ..
  (with_reducible apply State.whenMemory_fr) <;> [skip; skip; decide]
  exact .refl ..
  intro x2
  split
  lift_lets -underBinder
  intro x3 x4
  split
  split
  refine .call (State.pktTake_fr ..) ?_ (by decide)
  with_reducible refine Fr.pair3 (by assumption) ?_
  refine .call (State.memLoad_fr ..) ?_ (by decide)
  with_reducible refine Fr.pair3 (by assumption) ?_
  with_reducible apply Fr.ite3
  dsimp +zetaDelta -zeta only
  with_reducible refine Fr.pair3 (by assumption) ?_
  refine .call (State.memLoad_fr ..) ?_ (by decide)
  exact .refl ..
  refine .call (State.memLoad_fr ..) ?_ (by decide)
  with_reducible refine Fr.pair3 (by assumption) ?_
  refine .call (State.memLoad_fr ..) ?_ (by decide)
  exact .refl ..

theorem State.ptpRate_fr (s : State) (rate : Word) (t : Nat) :
    Fr 0x108000000000000000000000000000000000000000000000000000000000000000000000000000000000000000000000000000801 s (State.ptpRate s rate t) := by
  unfold State.ptpRate
  refine .setReg ?_ (by decide) (.word .w_LNK_PTP_RATE rfl (by decide))
  refine .call (State.ptpSync_fr ..) ?_ (by decide)
  exact .refl ..

theorem State.laneFlapRelease_fr (s : State) (l : Nat) :
    Fr 0x10000000000000000000000000000000000000000000000000000000000000000000000000000000000000000000000801 s (State.laneFlapRelease s l) := by
  unfold State.laneFlapRelease
  refine .call (State.lk_fr ..) ?_ (by decide)
  refine .wr ?_ (by decide) (.arr .LNK_LANE_ST_FLAP rfl (by decide))
  exact .refl ..

theorem State.halfDisable_fr (s : State) (e : Nat) (k : Nat) :
    Fr 0x7800000000000000000000000000000000000000000000000000000000000000000000000000000000000000030000000801 s (State.halfDisable s e k) := by
  unfold State.halfDisable
  lift_lets -underBinder
  intro x1 x2
  refine Fr.have x2 ?_ (fun hx2 => ?_) <;> [unfold x2; clear_value x2]
  refine .call (State.pendHalves_fr ..) ?_ (by decide)
  refine .wr ?_ (by decide) (by unfold halfPend; exact .ite (.arr .LNK_ETH_STATUS_TX_PENDING rfl (by decide)) (.arr .LNK_ETH_STATUS_RX_PENDING rfl (by decide)))
  refine .wr ?_ (by decide) (by unfold halfEn; exact .ite (.arr .LNK_ETH_CTRL_TX_EN rfl (by decide)) (.arr .LNK_ETH_CTRL_RX_EN rfl (by decide)))
  exact .refl ..
  refine .ite ?_ ?_
  refine .call (State.lk_fr ..) ?_ (by decide)
  exact hx2
  exact hx2

theorem State.ptpStep_fr (s : State) (n : Int) (t : Nat) :
    Fr 0x8000000000000000000000000000000000000000000000000000000000000000000000000000000000000000000000000000801 s (State.ptpStep s n t) := by
  unfold State.ptpStep
  lift_lets -underBinder
  intro x1 x2
  refine Fr.have x1 ?_ (fun hx1 => ?_) <;> [unfold x1; clear_value x1]
  refine .call (State.ptpSync_fr ..) ?_ (by decide)
  exact .refl ..
  refine .ite ?_ ?_
  refine .put ?_ (by decide) (.fld .LNK_PTP_STATUS_SLEWING rfl (by decide))
  refine .call (State.lk_fr ..) ?_ (by decide)
  exact hx1
  refine .call (State.lk_fr ..) ?_ (by decide)
  exact hx1

theorem State.lnkLanes_fr (s : State) :
    Fr 0x80000000000000000000000000000000000000000000000000000000000000000000000000000000000000000000000001 s (State.lnkLanes s) := by
  unfold State.lnkLanes
  with_reducible apply Fr.forN
  exact .refl ..
  intro x1 x2
  refine .wr ?_ (by decide) (.arr .LNK_LANE_ST_USE rfl (by decide))
  exact .refl ..

theorem State.ptpSnap_fr (s : State) (t : Nat) :
    Fr 0xc8000000000000000000000000000000000000000000000000000000000000000000000000000000000000000000000000000801 s (State.ptpSnap s t) := by
  unfold State.ptpSnap
  lift_lets -underBinder
  intro x1
  refine Fr.have x1 ?_ (fun hx1 => ?_) <;> [unfold x1; clear_value x1]
  refine .call (State.ptpSync_fr ..) ?_ (by decide)
  exact .refl ..
  refine .wr ?_ (by decide) (.fld .LNK_PTP_TIME_HI_NS rfl (by decide))
  refine .wr ?_ (by decide) (.fld .LNK_PTP_TIME_LO_NS rfl (by decide))
  exact hx1

theorem State.cdtRun_fr (s : State) : Fr 0x1000000000000000000000000000000000000000000000000000000000003 s (State.cdtRun s) := by
  unfold State.cdtRun
  refine .ite ?_ ?_
  refine .call (State.cfgReject_fr ..) ?_ (by decide)
  exact .refl ..
  refine .ite ?_ ?_
  exact .refl ..
  refine .wr ?_ (by decide) (.fld .SXT_STATUS_CDT_BUSY rfl (by decide))
  exact .refl ..

theorem State.sxtArmCmd_fr (s : State) : Fr 0x3c000000000000000000000000000000000000000000000000000000010001 s (State.sxtArmCmd s) := by
  unfold State.sxtArmCmd
  refine .ite ?_ ?_
  refine .call (State.sxtArm_fr ..) ?_ (by decide)
  refine .wr ?_ (by decide) (.fld .SXT_STATUS_DONE rfl (by decide))
  exact .refl ..
  exact .refl ..

theorem State.sxtDisable_fr (s : State) : Fr 0x32800000000000000000000000000000000000000000000000002000010001 s (State.sxtDisable s) := by
  unfold State.sxtDisable
  lift_lets -underBinder
  intro x1
  refine Fr.have x1 ?_ (fun hx1 => ?_) <;> [unfold x1; clear_value x1]
  unfold State.dropPend
  refine .wr ?_ (by decide) (.fld .SYS_PEND_STATUS_SXT rfl (by decide))
  refine .wr ?_ (by decide) (.fld .SXT_STATUS_PENDING_ENABLE rfl (by decide))
  exact .refl ..
  refine .ite ?_ ?_
  refine .call (State.sx_fr ..) ?_ (by decide)
  refine .call (State.sxtAbort_fr ..) ?_ (by decide)
  refine .wr ?_ (by decide) (.fld .SXT_CTRL_EN rfl (by decide))
  exact hx1
  refine .wr ?_ (by decide) (.fld .SXT_CTRL_EN rfl (by decide))
  exact hx1

theorem State.merDisable_fr (s : State) : Fr 0x27c0000000000000000000000000000000000000000000000004001 s (State.merDisable s) := by
  unfold State.merDisable
  lift_lets -underBinder
  intro x1 x2
  refine Fr.have x1 ?_ (fun hx1 => ?_) <;> [unfold x1; clear_value x1]
  refine .wr ?_ (by decide) (.fld .MER_STATUS_PC_WAIT rfl (by decide))
  refine .wr ?_ (by decide) (.fld .MER_STATUS_UNITS_OK rfl (by decide))
  refine .wr ?_ (by decide) (.fld .MER_STATUS_STATE rfl (by decide))
  refine .wr ?_ (by decide) (.fld .MER_CTRL_EN rfl (by decide))
  exact .refl ..
  refine Fr.have x2 ?_ (fun hx2 => ?_) <;> [unfold x2; clear_value x2]
  refine .wr ?_ (by decide) (.fld .MER_STATUS_ID_CONFLICT rfl (by decide))
  refine .wr ?_ (by decide) (.fld .MER_STATUS_AS_HOLD rfl (by decide))
  exact hx1
  apply Fr.upd <;> first | show Fr _ _ _ | exact .inl rfl | exact .inr rfl | rfl
  exact hx2

theorem State.rtRestart_fr (s : State) : Fr 0x20480000000000000000000000000000000000000000000000004001 s (State.rtRestart s) := by
  unfold State.rtRestart
  refine .ite ?_ ?_
  exact .refl ..
  lift_lets -underBinder
  intro x1 x2
  refine Fr.have x1 ?_ (fun hx1 => ?_) <;> [unfold x1; clear_value x1]
  refine .wr ?_ (by decide) (.fld .MER_STATUS_UNITS_OK rfl (by decide))
  refine .wr ?_ (by decide) (.fld .MER_STATUS_ID_CONFLICT rfl (by decide))
  exact .refl ..
  refine Fr.have x2 ?_ (fun hx2 => ?_) <;> [unfold x2; clear_value x2]
  with_reducible apply Fr.forN
  exact hx1
  intro x3 x4
  refine .setReg ?_ (by decide) (.words .w_MER_RT rfl (by decide))
  exact .refl ..
  refine .call (State.mb_fr ..) ?_ (by decide)
  exact hx2

theorem State.thmFlapRelease_fr (s : State) :
    Fr 0x2000000000000000000000000000000000000000000000000000000000000000000000000080001 s (State.thmFlapRelease s) := by
  unfold State.thmFlapRelease
  refine .call (State.th_fr ..) ?_ (by decide)
  refine .wr ?_ (by decide) (.fld .THM_STATUS_FLAP rfl (by decide))
  exact .refl ..

theorem State.excFlapRelease_fr (s : State) (i : Nat) :
    Fr 0x400000000000000000000000000000000000000000000000000000000000000020001 s (State.excFlapRelease s i) := by
  unfold State.excFlapRelease
  refine .call (State.onFe_fr ..) ?_ (by decide)
  refine .wr ?_ (by decide) (.arr .ADC_FE_STATUS_EXC_FLAP rfl (by decide))
  exact .refl ..

theorem State.feSwapWrite_fr (s : State) (i : Nat) (w : Word) :
    Fr 0x1200000000000000000000000000000000000000000000000000000000000000000003 s (State.feSwapWrite s i w) := by
  unfold State.feSwapWrite
  refine .ite ?_ ?_
  refine .call (State.cfgReject_fr ..) ?_ (by decide)
  exact .refl ..
  lift_lets -underBinder
  intro x1
  refine Fr.have x1 ?_ (fun hx1 => ?_) <;> [unfold x1; clear_value x1]
  refine .setReg ?_ (by decide) (.words .w_ADC_FE_SWAP rfl (by decide))
  exact .refl ..
  refine .ite ?_ ?_
  exact hx1
  refine .wr ?_ (by decide) (.arr .ADC_FE_STATUS_SWAP rfl (by decide))
  exact hx1

theorem State.feChanged_fr (s : State) (i : Nat) (newMode : Bool) (t : Nat) :
    Fr 0x10800800000000000000000000000000000000000000000000000000000000000020001 s (State.feChanged s i newMode t) := by
  unfold State.feChanged
  lift_lets -underBinder
  intro x1 x2
  refine Fr.have x2 ?_ (fun hx2 => ?_) <;> [unfold x2; clear_value x2]
  refine .call (State.settleFe_fr ..) ?_ (by decide)
  refine .call (State.onFe_fr ..) ?_ (by decide)
  exact .refl ..
  refine .call (State.keepEntry_fr ..) ?_ (by decide)
  refine .ite ?_ ?_
  exact hx2
  refine .wr ?_ (by decide) (.arr .ADC_FE_STATUS_IN_WINDOW rfl (by decide))
  exact hx2

theorem State.pulsesFrom_fr (s : State) (i : Nat) (newMode : Bool) (t : Nat) : Fr 0x20000 s (State.pulsesFrom s i newMode t) := by
  unfold State.pulsesFrom
  lift_lets -underBinder
  intro x1
  refine .call (State.onFe_fr ..) ?_ (by decide)
  exact .refl ..

theorem State.showWindow_fr (s : State) (i : Nat) :
    Fr 0x8000000000000000000000000000000000000000000000000000000000000000000001 s (State.showWindow s i) := by
  unfold State.showWindow
  refine .put ?_ (by decide) (.arr .ADC_FE_STATUS_NO_WINDOW rfl (by decide))
  exact .refl ..

theorem State.fePulseWrite_fr (s : State) (i : Nat) (w : Word) (t : Nat) :
    Fr 0x18900800000000000000000000000000000000000000000000000000000000000020003 s (State.fePulseWrite s i w t) := by
  unfold State.fePulseWrite
  lift_lets -underBinder
  intro x1 x2 x3 x4
  refine Fr.have x4 ?_ (fun hx4 => ?_) <;> [unfold x4; clear_value x4]
  refine .call (State.showWindow_fr ..) ?_ (by decide)
  refine .setReg ?_ (by decide) (.words .w_ADC_FE_PULSE rfl (by decide))
  exact .refl ..
  refine .ite ?_ ?_
  refine .call (State.cfgReject_fr ..) ?_ (by decide)
  exact .refl ..
  refine .ite ?_ ?_
  exact hx4
  refine .call (State.feChanged_fr ..) ?_ (by decide)
  refine .call (State.pulsesFrom_fr ..) ?_ (by decide)
  exact hx4

theorem State.feCfgWrite_fr (s : State) (i : Nat) (w : Word) (t : Nat) :
    Fr 0x3b888800000000000000000000000000000000000000000000000000000000000020003 s (State.feCfgWrite s i w t) := by
  unfold State.feCfgWrite
  refine .ite ?_ ?_
  refine .call (State.cfgReject_fr ..) ?_ (by decide)
  exact .refl ..
  lift_lets -underBinder
  intro x1 x2 x3 x4 x5 x6 x7 x8 x9
  refine Fr.have x3 ?_ (fun hx3 => ?_) <;> [unfold x3; clear_value x3]
  refine .call (State.showWindow_fr ..) ?_ (by decide)
  refine .setReg ?_ (by decide) (.words .w_ADC_FE_CFG rfl (by decide))
  exact .refl ..
  refine Fr.have x5 ?_ (fun hx5 => ?_) <;> [unfold x5; clear_value x5]
  apply Fr.upd <;> first | show Fr _ _ _ | exact .inl rfl | exact .inr rfl | rfl
  exact hx3
  refine Fr.have x7 ?_ (fun hx7 => ?_) <;> [unfold x7; clear_value x7]
  refine .ite ?_ ?_
  refine .call (State.pulsesFrom_fr ..) ?_ (by decide)
  exact hx5
  exact hx5
  refine Fr.have x8 ?_ (fun hx8 => ?_) <;> [unfold x8; clear_value x8]
  refine .ite ?_ ?_
  refine .call (State.gainStart_fr ..) ?_ (by decide)
  exact hx7
  exact hx7
  refine Fr.have x9 ?_ (fun hx9 => ?_) <;> [unfold x9; clear_value x9]
  refine .ite ?_ ?_
  refine .call (State.feChanged_fr ..) ?_ (by decide)
  exact hx8
  exact hx8
  refine .ite ?_ ?_
  exact hx9
  refine .wr ?_ (by decide) (.arr .ADC_FE_STATUS_SWAP rfl (by decide))
  exact hx9

theorem State.urgentWrite_fr (s : State) (input : Nat) (go : Bool) :
    Fr 0x1200000000000000000000000000000000000000000000000000000000000020003 s (State.urgentWrite s input go) := by
  unfold State.urgentWrite
  refine .ite ?_ ?_
  refine .call (State.cfgReject_fr ..) ?_ (by decide)
  exact .refl ..
  refine .ite ?_ ?_
  refine .wr ?_ (by decide) (.fld .ADC_URGENT_INPUT rfl (by decide))
  exact .refl ..
  refine .ite ?_ ?_
  refine .call (State.cfgReject_fr ..) ?_ (by decide)
  exact .refl ..
  lift_lets -underBinder
  intro x1 x2
  refine Fr.have x1 ?_ (fun hx1 => ?_) <;> [unfold x1; clear_value x1]
  refine .wr ?_ (by decide) (.fld .ADC_STATUS_HOST_URG_BUSY rfl (by decide))
  refine .wr ?_ (by decide) (.fld .ADC_URGENT_INPUT rfl (by decide))
  exact .refl ..
  apply Fr.upd <;> first | show Fr _ _ _ | exact .inl rfl | exact .inr rfl | rfl
  exact hx1

theorem State.legCommit_fr (s : State) :
    Fr 0xc0078000000000000000000000000000000000000000000000000000000000000000000040003 s (State.legCommit s) := by
  unfold State.legCommit
  lift_lets -underBinder
  intro x1 x2 x3 x4 x5
  refine Fr.have x5 ?_ (fun hx5 => ?_) <;> [unfold x5; clear_value x5]
  refine .call (State.cl_fr ..) ?_ (by decide)
  exact .refl ..
  refine .ite ?_ ?_
  refine .wr ?_ (by decide) (.fld .CAL_LEG_STATUS_LOADED rfl (by decide))
  refine .wrS ?_ (by decide) (.arr .CAL_LEG_TEMP_TEMP rfl (by decide))
  exact hx5
  refine .call (State.calResult_fr ..) ?_ (by decide)
  exact .refl ..

theorem State.setMaskShadow_fr (s : State) (c : Nat) (v : Nat) : Fr 0x30000000000000000001 s (State.setMaskShadow s c v) := by
  unfold State.setMaskShadow
  refine .ite ?_ ?_
  refine .wr ?_ (by decide) (.arr .DET_SPAD_MASK_MASK_HI rfl (by decide))
  exact .refl ..
  refine .wr ?_ (by decide) (.arr .DET_SPAD_MASK_MASK_LO rfl (by decide))
  exact .refl ..

theorem State.loadMasks_fr (s : State) : Fr 0x30000000000000000001 s (State.loadMasks s) := by
  unfold State.loadMasks
  with_reducible apply Fr.forN
  exact .refl ..
  intro x1 x2
  refine .call (State.setMaskShadow_fr ..) ?_ (by decide)
  exact .refl ..

theorem State.clrField_fr (s : State) : Fr 0x76010000000000040003 s (State.clrField s) := by
  unfold State.clrField
  refine .ite ?_ ?_
  refine .call (State.evalSilence_fr ..) ?_ (by decide)
  refine .call (State.copySpads_fr ..) ?_ (by decide)
  refine .call (State.loadMasks_fr ..) ?_ (by decide)
  refine .call (State.cl_fr ..) ?_ (by decide)
  exact .refl ..
  exact .refl ..

theorem State.failStart_fr (s : State) (cause : Nat) (step : Nat) (t : Nat) :
    Fr 0x160000001c02c090000000078000f080000003c2000008104001f000000001ff80000010000020678006c00200110000002a20120012200f04a038ffffff s (State.failStart s cause step t) := by
  unfold State.failStart
  lift_lets -underBinder
  intro x1 x2 x3
  refine Fr.have x2 ?_ (fun hx2 => ?_) <;> [unfold x2; clear_value x2]
  refine .wr ?_ (by decide) (.fld .BOOT_FAIL_COUNT rfl (by decide))
  (with_reducible apply Fr.call (State.bo_fr ..)) <;> first | (intro _; rfl) | decide | skip
  exact .refl ..
  refine Fr.have x3 ?_ (fun hx3 => ?_) <;> [unfold x3; clear_value x3]
  refine .call (State.planClose_fr ..) ?_ (by decide)
  (with_reducible apply Fr.call (State.bo_fr ..)) <;> first | (intro _; rfl) | decide | skip
  refine .call (State.imageShow_fr ..) ?_ (by decide)
  exact hx2
  refine .ite ?_ ?_
  refine .ite ?_ ?_
  exact hx3
  refine .call (State.enterRecovery_fr ..) ?_ (by decide)
  refine .ite ?_ ?_
  refine .call (State.goMode_fr ..) ?_ (by decide)
  refine .call (State.lastCycle_fr ..) ?_ (by decide)
  exact hx3
  exact hx3
  refine .wr ?_ (by decide) (.fld .BOOT_LAST_RESET_FAIL_STEP rfl (by decide))
  refine .call (State.enterReset_fr ..) ?_ (by decide)
  exact hx2

theorem execMemInit_fr (n : Fin 192) (s : State) :
    Runs 0x10000000080000000000000000000000140000008004003e000000001ff80000010000000478006c0020011000000fe20120060800f04b03cb51afb s (execMemInit n s) := by
  unfold execMemInit
  refine .next ?_
  (with_reducible apply State.access_fr) <;> [skip; skip; decide]
  exact .refl ..
  intro x1
  (with_reducible apply State.toScan_fr) <;> [skip; skip; decide]
  exact .refl ..
  intro x2
  refine .call (State.tilInit_fr ..) ?_ (by decide)
  exact .refl ..

theorem execExcFlapRelease_fr (i : Fin 8) (s : State) :
    Runs 0x1000000000000000000000000000000000000000000000000040000000000000000000000000000000000000000000000000000000000000022000b s (execExcFlapRelease i s) := by
  unfold execExcFlapRelease
  refine .next ?_
  (with_reducible apply State.access_fr) <;> [skip; skip; decide]
  exact .refl ..
  intro x1
  refine .call (State.excFlapRelease_fr ..) ?_ (by decide)
  exact .refl ..

theorem execEpochDue_fr (t : Nat) (s : State) : Runs 0x200000000000000000000000000000000000000000000000004003 s (execEpochDue t s) := by
  unfold execEpochDue
  refine .next ?_
  refine .ite ?_ ?_
  exact .refl ..
  lift_lets -underBinder
  intro x1 x2 x3
  refine Fr.have x3 ?_ (fun hx3 => ?_) <;> [unfold x3; clear_value x3]
  refine .put ?_ (by decide) (.fld .MER_STATUS_AS_HOLD rfl (by decide))
  refine .call (State.raiseIf_fr ..) ?_ (by decide)
  exact .refl ..
  refine .ite ?_ ?_
  refine .call (State.mb_fr ..) ?_ (by decide)
  exact hx3
  exact hx3

theorem execFrameLaunch_fr (t : Nat) (a : Nat) (s : State) : Runs 0x4000 s (execFrameLaunch t a s) := by
  unfold execFrameLaunch
  refine .next ?_
  refine .ite ?_ ?_
  exact .refl ..
  split
  exact .refl ..
  refine .ite ?_ ?_
  exact .refl ..
  lift_lets -underBinder
  intro x1
  refine Fr.have x1 ?_ (fun hx1 => ?_) <;> [unfold x1; clear_value x1]
  refine .call (State.mb_fr ..) ?_ (by decide)
  exact .refl ..
  split
  refine .call (State.mb_fr ..) ?_ (by decide)
  exact hx1
  exact hx1
  refine .call (State.mb_fr ..) ?_ (by decide)
  exact hx1

theorem execPtpStep_fr (step : Word) (t : Nat) (s : State) :
    Runs 0x1000000000000000800000000000000000000000000000000000000000000000000000000000000000000000000000000000000000000000020080b s (execPtpStep step t s) := by
  unfold execPtpStep
  refine .next ?_
  (with_reducible apply State.access_fr) <;> [skip; skip; decide]
  exact .refl ..
  intro x1
  refine .call (State.ptpStep_fr ..) ?_ (by decide)
  exact .refl ..

theorem execPingDue_fr (s : State) : Runs 0x4000 s (execPingDue s) := by
  unfold execPingDue
  refine .next ?_
  refine .ite ?_ ?_
  exact .refl ..
  split
  refine .call (State.mb_fr ..) ?_ (by decide)
  exact .refl ..
  exact .refl ..

theorem execLockstepMismatch_fr (t : Nat) (s : State) :
    Runs 0x160000001c02c090000000078000f080000003c2000008104001f000000001ff80000010000020678006c00200110000002a20120012200f04a038ffffff s (execLockstepMismatch t s) := by
  unfold execLockstepMismatch
  refine .next ?_
  refine .ite ?_ ?_
  exact .refl ..
  refine .ite ?_ ?_
  refine .call (State.failStart_fr ..) ?_ (by decide)
  exact .refl ..
  refine .call (State.enterReset_fr ..) ?_ (by decide)
  exact .refl ..

theorem execPtpRate_fr (rate : Word) (t : Nat) (s : State) :
    Runs 0x1000000000000010800000000000000000000000000000000000000000000000000000000000000000000000000000000000000000000000020080b s (execPtpRate rate t s) := by
  unfold execPtpRate
  refine .next ?_
  (with_reducible apply State.access_fr) <;> [skip; skip; decide]
  exact .refl ..
  intro x1
  refine .call (State.ptpRate_fr ..) ?_ (by decide)
  exact .refl ..

theorem execRxDisable_fr (e : Fin 2) (s : State) :
    Runs 0x1000000000000000000780000000000000000000000000000000000000000000000000000000000000000000000000000000000000003000020080b s (execRxDisable e s) := by
  unfold execRxDisable
  refine .next ?_
  (with_reducible apply State.access_fr) <;> [skip; skip; decide]
  exact .refl ..
  intro x1
  refine .call (State.halfDisable_fr ..) ?_ (by decide)
  exact .refl ..

theorem execClrField_fr (s : State) :
    Runs 0x1000000000000000000000000000000000000000000000000000000000000000000000000000000000000000000000000007601000000000024000b s (execClrField s) := by
  unfold execClrField
  refine .next ?_
  (with_reducible apply State.access_fr) <;> [skip; skip; decide]
  exact .refl ..
  intro x1
  refine .call (State.clrField_fr ..) ?_ (by decide)
  exact .refl ..

theorem execSpadSurvey_fr (s : State) :
    Runs 0x790000000000310000000000000000000000000000000000d420123060c000000000050073 s (execSpadSurvey s) := by
  unfold execSpadSurvey
  refine .next ?_
  refine .ite ?_ ?_
  exact .refl ..
  lift_lets -underBinder
  intro x1 x2 x3 x4
  refine Fr.have x4 ?_ (fun hx4 => ?_) <;> [unfold x4; clear_value x4]
  with_reducible apply Fr.forN
  exact .refl ..
  intro x5 x6
  lift_lets -underBinder
  intro x7 x8 x9
  refine .ite ?_ ?_
  exact .refl ..
  refine .call (State.cl_fr ..) ?_ (by decide)
  refine .call (State.setMaskShadow_fr ..) ?_ (by decide)
  exact .refl ..
  refine .ite ?_ ?_
  refine .call (State.itemDone_fr ..) ?_ (by decide)
  refine .call (State.calResult_fr ..) ?_ (by decide)
  exact .refl ..
  refine .call (State.itemDone_fr ..) ?_ (by decide)
  refine .call (State.calResults_fr ..) ?_ (by decide)
  refine .wr ?_ (by decide) (.fld .DET_STATUS_COMMIT_PENDING rfl (by decide))
  exact hx4

theorem execManagementPllLockLoss_fr (s : State) :
    Runs 0x100000000000c0000000000000000000000000000000001000001000000000000000000000002020000000000000000000000000000000000000007fffff s (execManagementPllLockLoss s) := by
  unfold execManagementPllLockLoss
  refine .next ?_
  refine .call (State.enterReset_fr ..) ?_ (by decide)
  exact .refl ..

theorem execReadmit_fr (k : Fin 32) (s : State) :
    Runs 0x100000000000000000000000000000000000e878500000000000000000000000000000000000000000000000000000000000000000000000028000b s (execReadmit k s) := by
  unfold execReadmit
  refine .next ?_
  (with_reducible apply State.access_fr) <;> [skip; skip; decide]
  exact .refl ..
  intro x1
  refine .call (State.snsCtrl_fr ..) ?_ (by decide)
  exact .refl ..

theorem execPcieReset_fr (down : Bool) (s : State) :
    Runs 0x2000000000008008000000000f000000000000000000000000000000000000000000000000000000000000000000000000000000000000000000100803 s (execPcieReset down s) := by
  unfold execPcieReset
  refine .next ?_
  refine .ite ?_ ?_
  exact .refl ..
  refine .ite ?_ ?_
  refine .call (State.pcieDown_fr ..) ?_ (by decide)
  exact .refl ..
  refine .call (State.cfgReset_fr ..) ?_ (by decide)
  exact .refl ..

theorem execFeConfigWrite_fr (i : Fin 8) (r : Fin 3) (w : Word) (t : Nat) (s : State) :
    Runs 0x1000000000000000000000000000000000000000000000003bb8880000000000000000000000000000000000000000000000000000000000022000b s (execFeConfigWrite i r w t s) := by
  unfold execFeConfigWrite
  refine .next ?_
  (with_reducible apply State.access_fr) <;> [skip; skip; decide]
  exact .refl ..
  intro x1
  split
  refine .call (State.feCfgWrite_fr ..) ?_ (by decide)
  exact .refl ..
  refine .call (State.fePulseWrite_fr ..) ?_ (by decide)
  exact .refl ..
  refine .call (State.feSwapWrite_fr ..) ?_ (by decide)
  exact .refl ..

theorem execTNowUpdate_fr (s : State) : Runs 0x80 s (execTNowUpdate s) := by
  unfold execTNowUpdate
  refine .next ?_
  refine .ite ?_ ?_
  exact .refl ..
  with_reducible apply Fr.forN
  exact .refl ..
  intro x1 x2
  refine .ite ?_ ?_
  refine .call (State.onTiller_fr ..) ?_ (by decide)
  exact .refl ..
  exact .refl ..

theorem State.heldResetCheck_fr (s : State) :
    Fr 0x100000000000c0000000000000000000000000000000001000001000000000000000000000002020000000000000000000000000000000000000007fffff s (State.heldResetCheck s) := by
  unfold State.heldResetCheck
  split
  refine .ite ?_ ?_
  exact .refl ..
  refine .call (State.enterReset_fr ..) ?_ (by decide)
  exact .refl ..
  exact .refl ..

theorem State.jrnBytes_fr (s : State) (fmt : Nat) (seq : Nat) : Fr 0x4 s (State.jrnBytes s fmt seq).2 := by
  unfold State.jrnBytes
  lift_lets -underBinder
  intro x1 x2
  dsimp +zetaDelta -zeta only
  apply Fr.upd <;> first | show Fr _ _ _ | exact .inl rfl | exact .inr rfl | rfl
  exact .refl ..

theorem State.journalDone_fr (s : State) (ok : Bool) :
    Fr 0x3a000400000000000000000000000000000000000000000000000000000000000000000840007 s (State.journalDone s ok) := by
  unfold State.journalDone
  refine .ite ?_ ?_
  exact .refl ..
  lift_lets -underBinder
  intro x1 x2 x3
  split
  lift_lets -underBinder
  intro x4 x5
  refine Fr.have x4 ?_ (fun hx4 => ?_) <;> [unfold x4; clear_value x4]
  refine .call (State.flashWrite_fr ..) ?_ (by decide)
  refine .wr ?_ (by decide) (.fld .CAL_STATUS_JRN_BUSY rfl (by decide))
  with_reducible refine Fr.pair (by assumption) ?_
  refine .call (State.jrnBytes_fr ..) ?_ (by decide)
  exact .refl ..
  refine Fr.have x5 ?_ (fun hx5 => ?_) <;> [unfold x5; clear_value x5]
  refine .call (State.setJrn_fr ..) ?_ (by decide)
  refine .call (State.flashWrite_fr ..) ?_ (by decide)
  exact hx4
  refine .ite ?_ ?_
  refine .call (State.raise_fr ..) ?_ (by decide)
  refine .wr ?_ (by decide) (.fld .CAL_JRN_STATUS_FAIL rfl (by decide))
  refine .wr ?_ (by decide) (.fld .CAL_JRN_STATUS_VALID rfl (by decide))
  refine .wr ?_ (by decide) (.fld .CAL_JRN_STATUS_SLOT rfl (by decide))
  refine .wr ?_ (by decide) (.fld .CAL_JRN_STATUS_SEQ rfl (by decide))
  exact hx5
  refine .call (State.raise_fr ..) ?_ (by decide)
  refine .wr ?_ (by decide) (.fld .CAL_JRN_STATUS_FAIL rfl (by decide))
  exact hx4

theorem State.mainLost_fr (s : State) :
    Fr 0x1001c0000880000000000000000000001400000080000000000000001fe80c0001040003df78006c60200171c0600006013cf01400f0cb83c31bbff s (State.mainLost s) := by
  unfold State.mainLost
  lift_lets -underBinder
  intro x1
  refine Fr.have x1 ?_ (fun hx1 => ?_) <;> [unfold x1; clear_value x1]
  refine .wr ?_ (by decide) (.fld .SYS_CLK_STATUS_MAIN_LOCK rfl (by decide))
  exact .refl ..
  refine .ite ?_ ?_
  refine .call (State.hedgeShow_fr ..) ?_ (by decide)
  exact hx1
  refine .call (State.trip_fr ..) ?_ (by decide)
  refine .call (State.raise_fr ..) ?_ (by decide)
  exact hx1

theorem execMainPllLockLoss_fr (s : State) :
    Runs 0x1001c0000880000000000000000000001400000080000000000000001fe80c0001040003df78006c60200171c0600006013cf01400f0cb83c31bbff s (execMainPllLockLoss s) := by
  unfold execMainPllLockLoss
  refine .next ?_
  refine .ite ?_ ?_
  exact .refl ..
  refine .call (State.mainLost_fr ..) ?_ (by decide)
  exact .refl ..

theorem execJournalSave_fr (s : State) :
    Runs 0x10000000000000000000000000000000000000000004000400000000000000000000000000000000000000000000000000000000000000000a4000b s (execJournalSave s) := by
  unfold execJournalSave
  refine .next ?_
  (with_reducible apply State.access_fr) <;> [skip; skip; decide]
  exact .refl ..
  intro x1
  refine .call (State.journalSave_fr ..) ?_ (by decide)
  exact .refl ..

theorem State.loadLuts_fr (s : State) : Fr 0x180000000000000000000001 s (State.loadLuts s) := by
  unfold State.loadLuts
  lift_lets -underBinder
  intro x1
  refine Fr.have x1 ?_ (fun hx1 => ?_) <;> [unfold x1; clear_value x1]
  with_reducible apply Fr.forN
  exact .refl ..
  intro x2 x3
  split
  refine .call (State.putLut_fr ..) ?_ (by decide)
  exact .refl ..
  exact .refl ..
  with_reducible apply Fr.forN
  exact hx1
  intro x4 x5
  split
  refine .wr ?_ (by decide) (.arr .TDC_CH_CFG_SKEW rfl (by decide))
  exact .refl ..
  exact .refl ..

theorem State.loadFuses_fr (s : State) :
    Fr 0xc000000000001800000000000000000000001000001000000000000000000000000000000000000000000000001801f3004000000000000023 s (State.loadFuses s) := by
  unfold State.loadFuses
  lift_lets -underBinder
  intro x1 x2 x3 x4
  refine Fr.have x1 ?_ (fun hx1 => ?_) <;> [unfold x1; clear_value x1]
  refine .call (State.loadLuts_fr ..) ?_ (by decide)
  refine .call (State.copyMasks_fr ..) ?_ (by decide)
  refine .call (State.loadMasks_fr ..) ?_ (by decide)
  exact .refl ..
  refine Fr.have x2 ?_ (fun hx2 => ?_) <;> [unfold x2; clear_value x2]
  refine .call (State.tdcCopy_fr ..) ?_ (by decide)
  exact hx1
  refine Fr.have x3 ?_ (fun hx3 => ?_) <;> [unfold x3; clear_value x3]
  refine .wr ?_ (by decide) (.fld .BOOT_SERIAL_HI_SERIAL rfl (by decide))
  refine .wr ?_ (by decide) (.fld .BOOT_SERIAL_LO_SERIAL rfl (by decide))
  exact hx2
  refine Fr.have x4 ?_ (fun hx4 => ?_) <;> [unfold x4; clear_value x4]
  with_reducible apply Fr.forN
  exact hx3
  intro x5 x6
  refine .wr ?_ (by decide) (.arr .LNK_ETH_SMAC_HI_MAC rfl (by decide))
  refine .wr ?_ (by decide) (.arr .LNK_ETH_SMAC_LO_MAC rfl (by decide))
  exact .refl ..
  refine .wr ?_ (by decide) (.fld .CAL_FUSE_STATUS_SPARES_FREE rfl (by decide))
  refine .wr ?_ (by decide) (.fld .CAL_STATUS_SHADOW_OK rfl (by decide))
  exact hx4

theorem execPtpTsRead_fr (s : State) :
    Runs 0x1000000000003fe1000000000000000000000000000000000000000000000000000000000000000000000000000000000000000000000000020080b s (execPtpTsRead s) := by
  unfold execPtpTsRead
  refine .next ?_
  (with_reducible apply State.access_fr) <;> [skip; skip; decide]
  exact .refl ..
  intro x1
  lift_lets -underBinder
  intro x2 x3
  refine Fr.have x2 ?_ (fun hx2 => ?_) <;> [unfold x2; clear_value x2]
  refine .call (State.stampPop_fr ..) ?_ (by decide)
  exact .refl ..
  apply Fr.upd <;> first | show Fr _ _ _ | exact .inl rfl | exact .inr rfl | rfl
  exact hx2

theorem execTillerPllRelock_fr (s : State) : Runs 0x400000001 s (execTillerPllRelock s) := by
  unfold execTillerPllRelock
  refine .next ?_
  refine .ite ?_ ?_
  exact .refl ..
  refine .wr ?_ (by decide) (.fld .SYS_CLK_STATUS_TIL_LOCK rfl (by decide))
  exact .refl ..

theorem execLpiEntry_fr (e : Fin 2) (k : Fin 2) (s : State) :
    Runs 0x18000000000000000000000000000000000000000000000000000000000000000000000000000000000000000000000000001 s (execLpiEntry e k s) := by
  unfold execLpiEntry
  refine .next ?_
  refine .ite ?_ ?_
  exact .refl ..
  refine .ite ?_ ?_
  refine .ite ?_ ?_
  refine .wr ?_ (by decide) (.arr .LNK_ETH_STATUS_RX_LPI rfl (by decide))
  exact .refl ..
  exact .refl ..
  refine .ite ?_ ?_
  refine .wr ?_ (by decide) (.arr .LNK_ETH_STATUS_TX_LPI rfl (by decide))
  exact .refl ..
  exact .refl ..

theorem execBadFrame_fr (s : State) : Runs 0x100480000000000000000000000000000000000000000000000004003 s (execBadFrame s) := by
  unfold execBadFrame
  refine .next ?_
  refine .ite ?_ ?_
  exact .refl ..
  lift_lets -underBinder
  intro x1
  refine Fr.have x1 ?_ (fun hx1 => ?_) <;> [unfold x1; clear_value x1]
  refine .bump ?_ (by decide) (.fld .MER_CNT_FRAME_ERR_COUNT rfl (by decide))
  refine .call (State.raiseIf_fr ..) ?_ (by decide)
  exact .refl ..
  split
  exact hx1
  lift_lets -underBinder
  intro x2 x3
  refine Fr.have x3 ?_ (fun hx3 => ?_) <;> [unfold x3; clear_value x3]
  refine .call (State.mb_fr ..) ?_ (by decide)
  exact hx1
  refine .ite ?_ ?_
  refine .call (State.unitConflict_fr ..) ?_ (by decide)
  exact hx3
  exact hx3

theorem execSextantStopEdge_fr (coarse : Nat) (f : Fin 128) (t : Nat) (s : State) :
    Runs 0x10000000000000000000000000000000000000000000000000000010020000000000000000000000000000000000000000000000000000000210003 s (execSextantStopEdge coarse f t s) := by
  unfold execSextantStopEdge
  refine .next ?_
  refine .ite ?_ ?_
  exact .refl ..
  lift_lets -underBinder
  intro x1
  refine Fr.have x1 ?_ (fun hx1 => ?_) <;> [unfold x1; clear_value x1]
  refine .call (State.sx_fr ..) ?_ (by decide)
  exact .refl ..
  refine .ite ?_ ?_
  refine .call (State.sxtStop_fr ..) ?_ (by decide)
  exact hx1
  exact hx1

theorem State.frameSent_fr (s : State) (e : Nat) :
    Fr 0x10000000000000000210000000000000000000000000000000000000000000000000000000000000000000000000000000000000000000000200803 s (State.frameSent s e) := by
  unfold State.frameSent
  lift_lets -underBinder
  intro x1
  refine Fr.have x1 ?_ (fun hx1 => ?_) <;> [unfold x1; clear_value x1]
  refine .ite ?_ ?_
  refine .call (State.lk_fr ..) ?_ (by decide)
  exact .refl ..
  exact .refl ..
  refine .call (State.count_fr ..) ?_ (by decide)
  refine .bump ?_ (by decide) (.arr .LNK_ETH_FRAMES_TX_COUNT rfl (by decide))
  refine .wr ?_ (by decide) (.arr .LNK_ETH_STATUS_TX_LPI rfl (by decide))
  exact hx1

theorem execFrameLeftPort_fr (e : Fin 2) (marked : Bool) (seqId : BitVec 16) (t : Nat) (s : State) :
    Runs 0x1000000000003fe10610000000008000000000000000000000000000000000000000000000000000000000000000000000000000000000000200803 s (execFrameLeftPort e marked seqId t s) := by
  unfold execFrameLeftPort
  refine .next ?_
  refine .ite ?_ ?_
  exact .refl ..
  refine .ite ?_ ?_
  refine .call (State.stamp_fr ..) ?_ (by decide)
  refine .call (State.frameSent_fr ..) ?_ (by decide)
  exact .refl ..
  split
  refine .call (State.frameSent_fr ..) ?_ (by decide)
  exact .refl ..
  lift_lets -underBinder
  intro x1 x2
  refine Fr.have x1 ?_ (fun hx1 => ?_) <;> [unfold x1; clear_value x1]
  refine .call (State.frameSent_fr ..) ?_ (by decide)
  refine .call (State.setOut_fr ..) ?_ (by decide)
  exact .refl ..
  refine Fr.have x2 ?_ (fun hx2 => ?_) <;> [unfold x2; clear_value x2]
  refine .ite ?_ ?_
  exact hx1
  refine .bump ?_ (by decide) (.arr .LNK_ETH_PKTS_TX_COUNT rfl (by decide))
  exact hx1
  refine .call (State.ringAdvance_fr ..) ?_ (by decide)
  refine .call (State.lk_fr ..) ?_ (by decide)
  exact hx2

theorem State.windowsAt_fr (s : State) (t : Nat) :
    Fr 0x800800000000000000000000000000000000000000000000000000000000000020001 s (State.windowsAt s t) := by
  unfold State.windowsAt
  lift_lets -underBinder
  intro x1
  refine Fr.have x1 ?_ (fun hx1 => ?_) <;> [unfold x1; clear_value x1]
  with_reducible apply Fr.forN
  exact .refl ..
  intro x2 x3
  refine .ite ?_ ?_
  refine .call (State.openWindow_fr ..) ?_ (by decide)
  exact .refl ..
  exact .refl ..
  split
  refine .call (State.keepEntry_fr ..) ?_ (by decide)
  exact hx1
  refine .ite ?_ ?_
  refine .call (State.keepEntry_fr ..) ?_ (by decide)
  exact hx1
  exact hx1

theorem execAdcSample_fr (half : Int) (t : Nat) (s : State) :
    Runs 0x1000000000000000000000000000000000000000000000002286c8000003ac000000000000786080000018000000000000000000000000000229207 s (execAdcSample half t s) := by
  unfold execAdcSample
  refine .next ?_
  refine .ite ?_ ?_
  exact .refl ..
  lift_lets -underBinder
  intro x1
  refine Fr.have x1 ?_ (fun hx1 => ?_) <;> [unfold x1; clear_value x1]
  refine .call (State.windowsAt_fr ..) ?_ (by decide)
  exact .refl ..
  split
  exact hx1
  split
  refine .call (State.beginEntry_fr ..) ?_ (by decide)
  refine .call (State.deliverSample_fr ..) ?_ (by decide)
  with_reducible refine Fr.pair (by assumption) ?_
  refine .call (State.convert_fr ..) ?_ (by decide)
  apply Fr.upd <;> first | show Fr _ _ _ | exact .inl rfl | exact .inr rfl | rfl
  exact hx1

theorem execThermalTrip_fr (k : Fin 24) (s : State) :
    Runs 0x100000000000c0000000000000000000000000000070001000001000000000000000000000002020000000000000000000000000000000000000007fffff s (execThermalTrip k s) := by
  unfold execThermalTrip
  refine .next ?_
  refine .ite ?_ ?_
  exact .refl ..
  lift_lets -underBinder
  intro x1
  refine Fr.have x1 ?_ (fun hx1 => ?_) <;> [unfold x1; clear_value x1]
  refine .wrS ?_ (by decide) (.fld .THM_TRIP_REC_TEMP rfl (by decide))
  refine .wr ?_ (by decide) (.fld .THM_TRIP_REC_SENSOR rfl (by decide))
  refine .wr ?_ (by decide) (.fld .THM_TRIP_REC_VALID rfl (by decide))
  exact .refl ..
  refine .call (State.th_fr ..) ?_ (by decide)
  refine .call (State.coldReset_fr ..) ?_ (by decide)
  exact hx1

theorem execStartWatchdog_fr (t : Nat) (s : State) :
    Runs 0x160000001c02c090000000078000f080000003c2000008104001f000000001ff80000010000020678006c00200110000002a20120012200f04a038ffffff s (execStartWatchdog t s) := by
  unfold execStartWatchdog
  refine .next ?_
  refine .ite ?_ ?_
  refine .call (State.failStart_fr ..) ?_ (by decide)
  exact .refl ..
  exact .refl ..

theorem execPongTimeout_fr (s : State) : Runs 0x4000 s (execPongTimeout s) := by
  unfold execPongTimeout
  refine .next ?_
  refine .call (State.mb_fr ..) ?_ (by decide)
  exact .refl ..

theorem execPfNFall_fr (s : State) : Runs 0x40008 s (execPfNFall s) := by
  unfold execPfNFall
  refine .next ?_
  refine .call (State.cl_fr ..) ?_ (by decide)
  refine .call (State.sy_fr ..) ?_ (by decide)
  exact .refl ..

theorem execRailMonitorClear_fr (r : Fin 6) (mv : Nat) (s : State) :
    Runs 0x700000000000000000000000000000000000000000000000000000000000000000000000000000000001 s (execRailMonitorClear r mv s) := by
  unfold execRailMonitorClear
  refine .next ?_
  lift_lets -underBinder
  intro x1 x2
  refine Fr.have x2 ?_ (fun hx2 => ?_) <;> [unfold x2; clear_value x2]
  refine .wr ?_ (by decide) (.arr .THM_RAIL_MEAS rfl (by decide))
  exact .refl ..
  refine .ite ?_ ?_
  exact .refl ..
  refine .ite ?_ ?_
  exact hx2
  refine .wr ?_ (by decide) (.arr .THM_RAIL_OV rfl (by decide))
  refine .wr ?_ (by decide) (.arr .THM_RAIL_UV rfl (by decide))
  exact hx2

theorem execThermalIndicatorExit_fr (inds : Fin 8) (s : State) :
    Runs 0x80000000000000000000000140000078004003e000000001ff80000010000000478006c0020011000000fe20120060800f04b03c951a7b s (execThermalIndicatorExit inds s) := by
  unfold execThermalIndicatorExit
  refine .next ?_
  lift_lets -underBinder
  intro x1 x2 x3
  refine Fr.have x3 ?_ (fun hx3 => ?_) <;> [unfold x3; clear_value x3]
  refine .call (State.setInd_fr ..) ?_ (by decide)
  exact .refl ..
  refine .ite ?_ ?_
  exact .refl ..
  (with_reducible apply State.toScan_fr) <;> [skip; skip; decide]
  refine .call (State.raiseIf_fr ..) ?_ (by decide)
  exact hx3
  intro x4
  refine .call (State.derateCheck_fr ..) ?_ (by decide)
  exact .refl ..

theorem execSextantArm_fr (s : State) :
    Runs 0x1000000000000000000000000000000000000000000000000000000003c00000000000000000000000000000000000000000000000000000021000b s (execSextantArm s) := by
  unfold execSextantArm
  refine .next ?_
  (with_reducible apply State.access_fr) <;> [skip; skip; decide]
  exact .refl ..
  intro x1
  refine .call (State.sxtArmCmd_fr ..) ?_ (by decide)
  exact .refl ..

theorem execLegacyCommit_fr (s : State) :
    Runs 0x100000000000000000000000000000000000000000c007800000000000000000000000000000000000000000000000000000000000000000024000b s (execLegacyCommit s) := by
  unfold execLegacyCommit
  refine .next ?_
  (with_reducible apply State.access_fr) <;> [skip; skip; decide]
  exact .refl ..
  intro x1
  refine .call (State.legCommit_fr ..) ?_ (by decide)
  exact .refl ..

theorem execSextantEnable_fr (s : State) :
    Runs 0x1000000000000000000000000000000000000000000000000000000003e80000000000000000000000000000000000000000000000000200021000b s (execSextantEnable s) := by
  unfold execSextantEnable
  refine .next ?_
  (with_reducible apply State.access_fr) <;> [skip; skip; decide]
  exact .refl ..
  intro x1
  refine .call (State.sxtEnable_fr ..) ?_ (by decide)
  exact .refl ..

theorem execRun_fr (n : Fin 192) (s : State) :
    Runs 0x10000000080000000000000000000000140000008004003e000000001ff80000010000000478006c0020011009200fe20120060800f04b03cb51afb s (execRun n s) := by
  unfold execRun
  refine .next ?_
  (with_reducible apply State.access_fr) <;> [skip; skip; decide]
  exact .refl ..
  intro x1
  (with_reducible apply State.toScan_fr) <;> [skip; skip; decide]
  exact .refl ..
  intro x2
  refine .call (State.tilRun_fr ..) ?_ (by decide)
  exact .refl ..

theorem execRtRestart_fr (s : State) :
    Runs 0x1000000000000000000000000000000000000000000000000000000000000002048000000000000000000000000000000000000000000000020400b s (execRtRestart s) := by
  unfold execRtRestart
  refine .next ?_
  (with_reducible apply State.access_fr) <;> [skip; skip; decide]
  exact .refl ..
  intro x1
  refine .call (State.rtRestart_fr ..) ?_ (by decide)
  exact .refl ..

theorem execTxDisable_fr (e : Fin 2) (s : State) :
    Runs 0x1000000000000000000780000000000000000000000000000000000000000000000000000000000000000000000000000000000000003000020080b s (execTxDisable e s) := by
  unfold execTxDisable
  refine .next ?_
  (with_reducible apply State.access_fr) <;> [skip; skip; decide]
  exact .refl ..
  intro x1
  refine .call (State.halfDisable_fr ..) ?_ (by decide)
  exact .refl ..

theorem execSpinTimeout_fr (s : State) :
    Runs 0x800000000000000000000001400000080000000000000001fe80000010000000478006c00200110000000000120000000f04a038111a7b s (execSpinTimeout s) := by
  unfold execSpinTimeout
  refine .next ?_
  refine .ite ?_ ?_
  exact .refl ..
  lift_lets -underBinder
  intro x1 x2 x3
  refine Fr.have x1 ?_ (fun hx1 => ?_) <;> [unfold x1; clear_value x1]
  refine .call (State.raise_fr ..) ?_ (by decide)
  exact .refl ..
  refine Fr.have x2 ?_ (fun hx2 => ?_) <;> [unfold x2; clear_value x2]
  split
  refine .call (State.respond_fr ..) ?_ (by decide)
  refine .call (State.sy_fr ..) ?_ (by decide)
  exact hx1
  exact hx1
  refine Fr.have x3 ?_ (fun hx3 => ?_) <;> [unfold x3; clear_value x3]
  split
  refine .ite ?_ ?_
  refine .call (State.answer_fr ..) ?_ (by decide)
  exact hx2
  exact hx2
  exact hx2
  refine .call (State.goMode_fr ..) ?_ (by decide)
  exact hx3

theorem execHostUrgentRequest_fr (input : Fin 32) (s : State) :
    Runs 0x1000000000000000000000000000000000000000000000000000120000000000000000000000000000000000000000000000000000000000022000b s (execHostUrgentRequest input s) := by
  unfold execHostUrgentRequest
  refine .next ?_
  (with_reducible apply State.access_fr) <;> [skip; skip; decide]
  exact .refl ..
  intro x1
  refine .call (State.urgentWrite_fr ..) ?_ (by decide)
  exact .refl ..

theorem execFrameApplication_fr (t : Nat) (s : State) :
    Runs 0x3ac00010000000000000000000000000000000000000000000000000d047 s (execFrameApplication t s) := by
  unfold execFrameApplication
  refine .next ?_
  split
  exact .refl ..
  refine .call (State.applyFrame_fr ..) ?_ (by decide)
  refine .call (State.mb_fr ..) ?_ (by decide)
  exact .refl ..

theorem State.rzApply_fr (s : State) : Fr 0x40080 s (State.rzApply s) := by
  unfold State.rzApply
  split
  refine .call (State.pagesOut_fr ..) ?_ (by decide)
  refine .call (State.cl_fr ..) ?_ (by decide)
  exact .refl ..
  exact .refl ..

theorem State.sxtLatch_fr (s : State) : Fr 0xfe3c000000000000000000000000000000000000000000000000000000010003 s (State.sxtLatch s) := by
  unfold State.sxtLatch
  lift_lets -underBinder
  intro x1 x2 x3 x4 x5 x6
  refine Fr.have x3 ?_ (fun hx3 => ?_) <;> [unfold x3; clear_value x3]
  refine .wr ?_ (by decide) (.fld .SXT_COUNT_MISS rfl (by decide))
  refine .wr ?_ (by decide) (.fld .SXT_COUNT_VALID rfl (by decide))
  exact .refl ..
  refine Fr.have x4 ?_ (fun hx4 => ?_) <;> [unfold x4; clear_value x4]
  refine .wr ?_ (by decide) (.fld .SXT_MEAN_HI_MEAN rfl (by decide))
  refine .wr ?_ (by decide) (.fld .SXT_MEAN_LO_MEAN rfl (by decide))
  exact hx3
  refine Fr.have x5 ?_ (fun hx5 => ?_) <;> [unfold x5; clear_value x5]
  refine .wrS ?_ (by decide) (.fld .SXT_MAX_MAX rfl (by decide))
  refine .wrS ?_ (by decide) (.fld .SXT_MIN_MIN rfl (by decide))
  refine .wr ?_ (by decide) (.fld .SXT_SD_SD rfl (by decide))
  exact hx4
  refine Fr.have x6 ?_ (fun hx6 => ?_) <;> [unfold x6; clear_value x6]
  refine .call (State.raise_fr ..) ?_ (by decide)
  refine .wr ?_ (by decide) (.fld .SXT_STATUS_DONE rfl (by decide))
  exact hx5
  refine .ite ?_ ?_
  refine .call (State.sxtArm_fr ..) ?_ (by decide)
  exact hx6
  refine .call (State.sxtAbort_fr ..) ?_ (by decide)
  exact hx6

theorem execSextantSetComplete_fr (s : State) :
    Runs 0x180500000000ffff8000000000000000000000000000000000d42012006080000020000500f3 s (execSextantSetComplete s) := by
  unfold execSextantSetComplete
  refine .next ?_
  refine .ite ?_ ?_
  exact .refl ..
  lift_lets -underBinder
  intro x1 x2
  refine Fr.have x1 ?_ (fun hx1 => ?_) <;> [unfold x1; clear_value x1]
  refine .call (State.sxtLatch_fr ..) ?_ (by decide)
  exact .refl ..
  refine Fr.have x2 ?_ (fun hx2 => ?_) <;> [unfold x2; clear_value x2]
  refine .wr ?_ (by decide) (.fld .CAL_RZ_LAT_LAT0 rfl (by decide))
  refine .call (State.rzApply_fr ..) ?_ (by decide)
  exact hx1
  refine .ite ?_ ?_
  refine .call (State.itemDone_fr ..) ?_ (by decide)
  refine .wrS ?_ (by decide) (.fld .CAL_LAST_RZ_TEMP rfl (by decide))
  refine .wr ?_ (by decide) (.fld .CAL_LAST_RZ_AGE rfl (by decide))
  exact hx2
  refine .ite ?_ ?_
  refine .call (State.sxtKeep_fr ..) ?_ (by decide)
  refine .call (State.pagesOut_fr ..) ?_ (by decide)
  refine .call (State.cl_fr ..) ?_ (by decide)
  exact hx1
  refine .call (State.sxtKeep_fr ..) ?_ (by decide)
  exact hx1

theorem execFailCountExpiry_fr (t : Nat) (s : State) :
    Runs 0x20010000000000000000000000000000000000000000000000000000000000000000000000000000000000000000000000000000000100001 s (execFailCountExpiry t s) := by
  unfold execFailCountExpiry
  refine .next ?_
  lift_lets -underBinder
  intro x1
  refine .call (State.imageShow_fr ..) ?_ (by decide)
  refine .wr ?_ (by decide) (.fld .BOOT_FAIL_COUNT rfl (by decide))
  (with_reducible apply Fr.call (State.bo_fr ..)) <;> first | (intro _; rfl) | decide | skip
  exact .refl ..

theorem execSysPf_fr (s : State) : Runs 0x10000000000000000000000000000000000000000f00000400084b s (execSysPf s) := by
  unfold execSysPf
  refine .next ?_
  refine .ite ?_ ?_
  refine .call (State.orderlyStop_fr ..) ?_ (by decide)
  refine .call (State.raise_fr ..) ?_ (by decide)
  exact .refl ..
  exact .refl ..

theorem execPtpSnap_fr (t : Nat) (s : State) :
    Runs 0x100000000000000c800000000000000000000000000000000000000000000000000000000000000000000000000000000000000000000000020080b s (execPtpSnap t s) := by
  unfold execPtpSnap
  refine .next ?_
  (with_reducible apply State.access_fr) <;> [skip; skip; decide]
  exact .refl ..
  intro x1
  refine .call (State.ptpSnap_fr ..) ?_ (by decide)
  exact .refl ..

theorem execPacketSend_fr (e : Fin 2) (s : State) :
    Runs 0x4010000000000000000000000000000000000000000000000000000000000000000000000000000000000000000000000000801 s (execPacketSend e s) := by
  unfold execPacketSend
  refine .next ?_
  lift_lets -underBinder
  intro x1 x2
  refine .ite ?_ ?_
  refine .call (State.pktSend_fr ..) ?_ (by decide)
  exact .refl ..
  exact .refl ..

theorem execLineFaultClear_fr (r : Fin 3) (w : Word) (s : State) :
    Runs 0x10000000080000000000000000000000140000008004003e000000001ff80000010000000478006c0022a11000000fe20120060800f04b03cb51a7b s (execLineFaultClear r w s) := by
  unfold execLineFaultClear
  refine .next ?_
  (with_reducible apply State.access_fr) <;> [skip; skip; decide]
  exact .refl ..
  intro x1
  (with_reducible apply State.toScan_fr) <;> [skip; skip; decide]
  exact .refl ..
  intro x2
  refine .call (State.lineClear_fr ..) ?_ (by decide)
  exact .refl ..

theorem execLaneFlapRelease_fr (l : Fin 4) (s : State) :
    Runs 0x1000000000000000000001000000000000000000000000000000000000000000000000000000000000000000000000000000000000000000020080b s (execLaneFlapRelease l s) := by
  unfold execLaneFlapRelease
  refine .next ?_
  (with_reducible apply State.access_fr) <;> [skip; skip; decide]
  exact .refl ..
  intro x1
  refine .call (State.laneFlapRelease_fr ..) ?_ (by decide)
  exact .refl ..

theorem execExcitationPulseOn_fr (i : Fin 8) (s : State) :
    Runs 0x11800800000000000000000000000000000000000000000000000000000000000020001 s (execExcitationPulseOn i s) := by
  unfold execExcitationPulseOn
  refine .next ?_
  refine .ite ?_ ?_
  exact .refl ..
  lift_lets -underBinder
  intro x1 x2 x3
  refine Fr.have x1 ?_ (fun hx1 => ?_) <;> [unfold x1; clear_value x1]
  refine .call (State.onFe_fr ..) ?_ (by decide)
  exact .refl ..
  refine Fr.have x2 ?_ (fun hx2 => ?_) <;> [unfold x2; clear_value x2]
  refine .wr ?_ (by decide) (.arr .ADC_FE_STATUS_IN_WINDOW rfl (by decide))
  refine .call (State.onFe_fr ..) ?_ (by decide)
  exact hx1
  refine Fr.have x3 ?_ (fun hx3 => ?_) <;> [unfold x3; clear_value x3]
  refine .ite ?_ ?_
  refine .call (State.swapFe_fr ..) ?_ (by decide)
  exact hx2
  exact hx2
  refine .ite ?_ ?_
  exact hx1
  refine .call (State.keepEntry_fr ..) ?_ (by decide)
  refine .call (State.settleFe_fr ..) ?_ (by decide)
  exact hx3

theorem execSextantDisable_fr (s : State) :
    Runs 0x1000000000000000000000000000000000000000000000000000000003280000000000000000000000000000000000000000000000000200021000b s (execSextantDisable s) := by
  unfold execSextantDisable
  refine .next ?_
  (with_reducible apply State.access_fr) <;> [skip; skip; decide]
  exact .refl ..
  intro x1
  refine .call (State.sxtDisable_fr ..) ?_ (by decide)
  exact .refl ..

theorem execCdtRun_fr (s : State) :
    Runs 0x1000000000000000000000000000000000000000000000000000000000100000000000000000000000000000000000000000000000000000020000b s (execCdtRun s) := by
  unfold execCdtRun
  refine .next ?_
  (with_reducible apply State.access_fr) <;> [skip; skip; decide]
  exact .refl ..
  intro x1
  refine .call (State.cdtRun_fr ..) ?_ (by decide)
  exact .refl ..

theorem execEpochFrame_fr (b : Nat) (s : State) :
    Runs 0x100000000000000000000000000000000000000000000000000000000003ac20250000000000000000000000000000000000000000000000020d047 s (execEpochFrame b s) := by
  unfold execEpochFrame
  refine .next ?_
  refine .call (State.schedule_fr ..) ?_ (by decide)
  refine .call (State.masterFrame_fr ..) ?_ (by decide)
  exact .refl ..

theorem execStep_fr (n : Fin 192) (t : Nat) (s : State) :
    Runs 0x10000000080000000000000000000000140000008004003e000000001ff80000010000000478006c0020011019203fe20120060800f04b03cb51aff s (execStep n t s) := by
  unfold execStep
  refine .next ?_
  (with_reducible apply State.access_fr) <;> [skip; skip; decide]
  exact .refl ..
  intro x1
  (with_reducible apply State.toScan_fr) <;> [skip; skip; decide]
  exact .refl ..
  intro x2
  refine .call (State.tilStep_fr ..) ?_ (by decide)
  exact .refl ..

theorem execThmFlapRelease_fr (s : State) :
    Runs 0x1000000000000000000000000000000000000000200000000000000000000000000000000000000000000000000000000000000000000000028000b s (execThmFlapRelease s) := by
  unfold execThmFlapRelease
  refine .next ?_
  (with_reducible apply State.access_fr) <;> [skip; skip; decide]
  exact .refl ..
  intro x1
  refine .call (State.thmFlapRelease_fr ..) ?_ (by decide)
  exact .refl ..

end Sys2Proof.Machine
end

