-- ==== Sys2Proof/Laws/FrameRows.lean ====
section
/-! SUPPORT. The frame of every operation and command of the update, mailbox, register, boot and port files. -/

namespace Sys2Proof.Machine

set_option maxHeartbeats 400000
set_option maxRecDepth 4000

theorem execMailboxOwnershipLapse_fr (s : State) :
    Runs 0x80080000000000000000000000000000000000000000000000000000000000000000000000000000000000000000000000000000100001 s (execMailboxOwnershipLapse s) := by
  unfold execMailboxOwnershipLapse
  refine .next ?_
  refine .call (State.mboxOwner_fr ..) ?_ (by decide)
  exact .refl ..

theorem State.memDefer_fr (s : State) (j : MemJob) :
    Fr 0x140000000000000000000000000000000000000000000000000000000000000000000000000008000100003 s (State.memDefer s j) := by
  unfold State.memDefer
  refine .call (State.memWake_fr ..) ?_ (by decide)
  (with_reducible apply Fr.call (State.bo_fr ..)) <;> first | (intro _; rfl) | decide | skip
  exact .refl ..

theorem State.updEnd_fr (s : State) (tag : Nat) (result : Nat) :
    Fr 0x100000000000000000000000000000000000000000000000000000000000000000000000000000000000000000000000000001f00000000080b s (State.updEnd s tag result) := by
  unfold State.updEnd
  lift_lets -underBinder
  intro x1 x2
  refine Fr.have x1 ?_ (fun hx1 => ?_) <;> [unfold x1; clear_value x1]
  refine .call (State.raiseIf_fr ..) ?_ (by decide)
  refine .setReg ?_ (by decide) (.word .w_SYS_MBOX_DATA rfl (by decide))
  refine .wr ?_ (by decide) (.fld .BOOT_UPD_RESULT_RESULT rfl (by decide))
  exact .refl ..
  refine .call (State.respond_fr ..) ?_ (by decide)
  apply Fr.upd <;> first | show Fr _ _ _ | exact .inl rfl | exact .inr rfl | rfl
  exact hx1

theorem State.sessDrop_fr (s : State) :
    Fr 0x80000000000000000000000000000000000000000000000000000000000000000000000000000000000000000000000000000000100001 s (State.sessDrop s) := by
  unfold State.sessDrop
  (with_reducible apply Fr.call (State.bo_fr ..)) <;> first | (intro _; rfl) | decide | skip
  refine .wr ?_ (by decide) (.fld .BOOT_STATUS_SESSION rfl (by decide))
  exact .refl ..

theorem State.sessEnd_fr (s : State) (tag : Nat) (result : Nat) :
    Fr 0x100008000000000000000000000000000000000000000000000000000000000000000000000000000000000000000000000001f00000010080b s (State.sessEnd s tag result) := by
  unfold State.sessEnd
  refine .call (State.updEnd_fr ..) ?_ (by decide)
  refine .ite ?_ ?_
  exact .refl ..
  refine .call (State.sessDrop_fr ..) ?_ (by decide)
  exact .refl ..

theorem State.mgmtStore_fr (s : State) (a : Nat) (d : List Byte) :
    Fr 0x10000000000000000000000000003fe2800000000000000000000000000000000000000000000000000000000000000000000000000000000600c03 s (State.mgmtStore s a d) := by
  unfold State.mgmtStore
  refine .call (State.memStore_fr ..) ?_ (by decide)
  exact .refl ..

theorem State.updData_fr (s : State) (c : MboxCmd) :
    Fr 0x10001000080000000000000000003fe294000000000000000000000000000000000000000000000000000000000000000000000001f008000700c0b s (State.updData s c) := by
  unfold State.updData
  lift_lets -underBinder
  intro x1 x2 x3 x4
  refine Fr.have x4 ?_ (fun hx4 => ?_) <;> [unfold x4; clear_value x4]
  refine .call (State.mgmtStore_fr ..) ?_ (by decide)
  exact .refl ..
  refine .ite ?_ ?_
  refine .call (State.sessEnd_fr ..) ?_ (by decide)
  exact .refl ..
  refine .ite ?_ ?_
  refine .call (State.sessEnd_fr ..) ?_ (by decide)
  exact .refl ..
  refine .ite ?_ ?_
  refine .call (State.sessEnd_fr ..) ?_ (by decide)
  exact .refl ..
  refine .ite ?_ ?_
  refine .call (State.memDefer_fr ..) ?_ (by decide)
  refine .call (State.busyWith_fr ..) ?_ (by decide)
  exact .refl ..
  refine .call (State.sessEnd_fr ..) ?_ (by decide)
  (with_reducible apply Fr.call (State.bo_fr ..)) <;> first | (intro _; rfl) | decide | skip
  exact hx4

theorem State.confirm_fr (s : State) (t : Nat) :
    Fr 0x100000040000000000000000000000000000000000000000000000000000000000000000000000000000000000000000000000000000000900007 s (State.confirm s t).2 := by
  unfold State.confirm
  with_reducible apply Fr.ite2
  dsimp +zetaDelta -zeta only
  refine .call (State.setUpd_fr ..) ?_ (by decide)
  exact .refl ..
  dsimp +zetaDelta -zeta only
  exact .refl ..

theorem State.mgmtLoad_fr (s : State) (a : Nat) (n : Nat) :
    Fr 0x10000000000000000000000000003fe2800000000000000000000000000000000000000000000000000000000000000000000000000000000200407 s (State.mgmtLoad s a n).2 := by
  unfold State.mgmtLoad
  split
  with_reducible apply Fr.ite2
  dsimp +zetaDelta -zeta only
  apply Fr.upd <;> first | show Fr _ _ _ | exact .inl rfl | exact .inr rfl | rfl
  with_reducible refine Fr.pair3 (by assumption) ?_
  refine .call (State.memLoad_fr ..) ?_ (by decide)
  exact .refl ..
  dsimp +zetaDelta -zeta only
  with_reducible refine Fr.pair3 (by assumption) ?_
  refine .call (State.memLoad_fr ..) ?_ (by decide)
  exact .refl ..

theorem State.slotStart_fr (s : State) (img : List Byte) (headland : Bool) (t : Nat) :
    Fr 0x100000048000000000000000000000000000000000000000000000000000000000000000000000000000000000000000000000000000000900007 s (State.slotStart s img headland t) := by
  unfold State.slotStart
  lift_lets -underBinder
  intro x1 x2 x3 x4 x5
  refine Fr.have x2 ?_ (fun hx2 => ?_) <;> [unfold x2; clear_value x2]
  refine .call (State.setUpd_fr ..) ?_ (by decide)
  exact .refl ..
  refine Fr.have x5 ?_ (fun hx5 => ?_) <;> [unfold x5; clear_value x5]
  refine .call (State.flashErase_fr ..) ?_ (by decide)
  exact hx2
  (with_reducible apply Fr.call (State.bo_fr ..)) <;> first | (intro _; rfl) | decide | skip
  refine .wr ?_ (by decide) (.fld .BOOT_STATUS_SLOT_WRITE rfl (by decide))
  exact hx5

theorem State.updFinish_fr (s : State) (c : MboxCmd) (t : Nat) :
    Fr 0x101010000c8000000000000000003fe294000000000000000000000000000000000000000000000000000000000000000000000001f008000b00c0f s (State.updFinish s c t) := by
  unfold State.updFinish
  refine .ite ?_ ?_
  refine .call (State.respond_fr ..) ?_ (by decide)
  exact .refl ..
  refine .ite ?_ ?_
  refine .call (State.sessEnd_fr ..) ?_ (by decide)
  exact .refl ..
  refine .ite ?_ ?_
  refine .call (State.sessEnd_fr ..) ?_ (by decide)
  exact .refl ..
  refine .ite ?_ ?_
  refine .call (State.memDefer_fr ..) ?_ (by decide)
  refine .call (State.busyWith_fr ..) ?_ (by decide)
  exact .refl ..
  split
  lift_lets -underBinder
  intro x1
  refine .ite ?_ ?_
  refine .call (State.sessEnd_fr ..) ?_ (by decide)
  with_reducible refine Fr.pair (by assumption) ?_
  refine .call (State.mgmtLoad_fr ..) ?_ (by decide)
  exact .refl ..
  refine .call (State.slotStart_fr ..) ?_ (by decide)
  refine .call (State.busyWith_fr ..) ?_ (by decide)
  (with_reducible apply Fr.call (State.bo_fr ..)) <;> first | (intro _; rfl) | decide | skip
  with_reducible refine Fr.pair (by assumption) ?_
  refine .call (State.mgmtLoad_fr ..) ?_ (by decide)
  exact .refl ..

theorem State.updBegin_fr (s : State) (tag : Nat) (len : Nat) :
    Fr 0x100008000000000000000000000000000000000000000000000000000000000000000000000000000000000000000000000001f00000010080b s (State.updBegin s tag len) := by
  unfold State.updBegin
  lift_lets -underBinder
  intro x1
  refine Fr.have x1 ?_ (fun hx1 => ?_) <;> [unfold x1; clear_value x1]
  refine .call (State.sessDrop_fr ..) ?_ (by decide)
  exact .refl ..
  refine .ite ?_ ?_
  refine .call (State.sessEnd_fr ..) ?_ (by decide)
  exact hx1
  refine .ite ?_ ?_
  refine .call (State.sessEnd_fr ..) ?_ (by decide)
  exact hx1
  refine .call (State.sessEnd_fr ..) ?_ (by decide)
  (with_reducible apply Fr.call (State.bo_fr ..)) <;> first | (intro _; rfl) | decide | skip
  refine .wr ?_ (by decide) (.fld .BOOT_STATUS_SESSION rfl (by decide))
  exact hx1

theorem State.updGroup_fr (s : State) (c : MboxCmd) (t : Nat) :
    Fr 0x101010000c8000000000000000003fe294000000000000000000000000000000000000000000000000000000000000000000000001f008000f00c0f s (State.updGroup s c t) := by
  unfold State.updGroup
  refine .ite ?_ ?_
  refine .ite ?_ ?_
  refine .call (State.respond_fr ..) ?_ (by decide)
  exact .refl ..
  lift_lets -underBinder
  intro x1
  refine .call (State.updEnd_fr ..) ?_ (by decide)
  unfold x1
  refine .call (State.confirm_fr ..) ?_ (by decide)
  exact .refl ..
  refine .ite ?_ ?_
  refine .call (State.respond_fr ..) ?_ (by decide)
  exact .refl ..
  split
  refine .call (State.updBegin_fr ..) ?_ (by decide)
  exact .refl ..
  refine .call (State.updData_fr ..) ?_ (by decide)
  exact .refl ..
  refine .call (State.updFinish_fr ..) ?_ (by decide)
  exact .refl ..

theorem State.mboxPut_fr (s : State) (d : List Byte) :
    Fr 0x1000000000000000000000000000000000000000000000000000000000000000000000000000000000000000000000000000000000001 s (State.mboxPut s d) := by
  unfold State.mboxPut
  with_reducible apply Fr.foldl
  exact .refl ..
  intro x1 x2
  refine .setReg ?_ (by decide) (.words .w_LNK_MBOX_BUF rfl (by decide))
  exact .refl ..

theorem State.freeBytes_fr (s : State) (k : Nat) : Fr 0x4 s (State.freeBytes s k).2 := by
  unfold State.freeBytes
  dsimp +zetaDelta -zeta only
  apply Fr.upd <;> first | show Fr _ _ _ | exact .inl rfl | exact .inr rfl | rfl
  exact .refl ..

theorem State.cmdFlashRead_fr (s : State) (c : MboxCmd) :
    Fr 0x100000000000000000000000000000000000000000000000000000000000000000000000000000000000000000000000f000000000807 s (State.cmdFlashRead s c) := by
  unfold State.cmdFlashRead
  split
  refine .call (State.respond_fr ..) ?_ (by decide)
  refine .call (State.mboxPut_fr ..) ?_ (by decide)
  with_reducible refine Fr.pair (by assumption) ?_
  with_reducible apply Fr.ite2
  dsimp +zetaDelta -zeta only
  exact .refl ..
  refine .call (State.freeBytes_fr ..) ?_ (by decide)
  exact .refl ..

theorem State.doneWith_fr (s : State) (c : MboxCmd) (data : Nat) : Fr 0x1f000000000803 s (State.doneWith s c data) := by
  unfold State.doneWith
  refine .call (State.respond_fr ..) ?_ (by decide)
  refine .setReg ?_ (by decide) (.word .w_SYS_MBOX_DATA rfl (by decide))
  exact .refl ..

theorem State.cmdFwVersion_fr (s : State) (c : MboxCmd) : Fr 0x1f000000000803 s (State.cmdFwVersion s c) := by
  unfold State.cmdFwVersion
  refine .ite ?_ ?_
  refine .call (State.respond_fr ..) ?_ (by decide)
  exact .refl ..
  refine .call (State.doneWith_fr ..) ?_ (by decide)
  exact .refl ..

theorem State.putSet_fr (s : State) (k : Nat) (r : Option SetRec) : Fr 0x100000 s (State.putSet s k r) := by
  unfold State.putSet
  refine .ite ?_ ?_
  (with_reducible apply Fr.call (State.bo_fr ..)) <;> first | (intro _; rfl) | decide | skip
  exact .refl ..
  (with_reducible apply Fr.call (State.bo_fr ..)) <;> first | (intro _; rfl) | decide | skip
  exact .refl ..

theorem State.setSave_fr (s : State) : Fr 0x900000 s (State.setSave s) := by
  unfold State.setSave
  refine .ite ?_ ?_
  exact .refl ..
  refine .ite ?_ ?_
  (with_reducible apply Fr.call (State.bo_fr ..)) <;> first | (intro _; rfl) | decide | skip
  exact .refl ..
  lift_lets -underBinder
  intro x1
  (with_reducible apply Fr.call (State.bo_fr ..)) <;> first | (intro _; rfl) | decide | skip
  refine .call (State.putSet_fr ..) ?_ (by decide)
  refine .call (State.flashErase_fr ..) ?_ (by decide)
  exact .refl ..

theorem State.cmdSettingsSave_fr (s : State) (c : MboxCmd) : Fr 0xf00000090080b s (State.cmdSettingsSave s c) := by
  unfold State.cmdSettingsSave
  refine .ite ?_ ?_
  refine .call (State.respond_fr ..) ?_ (by decide)
  exact .refl ..
  refine .call (State.setSave_fr ..) ?_ (by decide)
  refine .call (State.busyWith_fr ..) ?_ (by decide)
  exact .refl ..

theorem State.cmdSerial_fr (s : State) (c : MboxCmd) : Fr 0x1f000000000803 s (State.cmdSerial s c) := by
  unfold State.cmdSerial
  refine .call (State.doneWith_fr ..) ?_ (by decide)
  exact .refl ..

theorem State.cmdI2c_fr (s : State) (c : MboxCmd) :
    Fr 0x140000000000000000000000000000000000000000000000000000000000000000000000000000000000000000000001f00000000080f s (State.cmdI2c s c) := by
  unfold State.cmdI2c
  lift_lets -underBinder
  intro x1 x2
  refine .ite ?_ ?_
  refine .call (State.respond_fr ..) ?_ (by decide)
  exact .refl ..
  refine .ite ?_ ?_
  split
  split
  refine .call (State.doneWith_fr ..) ?_ (by decide)
  refine .call (State.mboxPut_fr ..) ?_ (by decide)
  with_reducible refine Fr.pair (by assumption) ?_
  refine .call (State.freeBytes_fr ..) ?_ (by decide)
  with_reducible refine Fr.pair (by assumption) ?_
  refine .call (State.drawFree_fr ..) ?_ (by decide)
  exact .refl ..
  refine .call (State.lk_fr ..) ?_ (by decide)
  refine .wr ?_ (by decide) (.fld .LNK_I2C_STATUS_BUSY rfl (by decide))
  refine .call (State.busyWith_fr ..) ?_ (by decide)
  exact .refl ..

theorem State.cmdLogRead_fr (s : State) (c : MboxCmd) :
    Fr 0x100000000000000000000000000000000000000000000000000000000000000000000000000000000000000000000000f000000000803 s (State.cmdLogRead s c) := by
  unfold State.cmdLogRead
  refine .ite ?_ ?_
  refine .call (State.respond_fr ..) ?_ (by decide)
  exact .refl ..
  refine .call (State.respond_fr ..) ?_ (by decide)
  refine .call (State.mboxPut_fr ..) ?_ (by decide)
  exact .refl ..

theorem State.mboxRun_fr (s : State) (c : MboxCmd) (t : Nat) :
    Fr 0x160001011d00c0c9400000078000f08003fe2bc3000008104003f000000001ff80000010000020678006c0020011000000fe20120072a01f04b03cffffff s (State.mboxRun s c t) := by
  unfold State.mboxRun
  split
  refine .call (State.modeGroup_fr ..) ?_ (by decide)
  exact .refl ..
  refine .ite ?_ ?_
  refine .call (State.cmdFwVersion_fr ..) ?_ (by decide)
  exact .refl ..
  refine .call (State.cmdSerial_fr ..) ?_ (by decide)
  exact .refl ..
  refine .call (State.cmdFlashRead_fr ..) ?_ (by decide)
  exact .refl ..
  refine .call (State.updGroup_fr ..) ?_ (by decide)
  exact .refl ..
  refine .call (State.cmdI2c_fr ..) ?_ (by decide)
  exact .refl ..
  refine .call (State.cmdLogRead_fr ..) ?_ (by decide)
  exact .refl ..
  refine .call (State.cmdSettingsSave_fr ..) ?_ (by decide)
  exact .refl ..

theorem State.mboxWrite_fr (s : State) (m : Nat) (tag : Nat) (group : Nat) (code : Nat) (t : Nat) :
    Fr 0x160001011d00c0c9400000078000f08003fe2bc3000008104003f000000001ff80000010000020678006c0020011000000fe20120072a01f74b03cffffff s (State.mboxWrite s m tag group code t) := by
  unfold State.mboxWrite
  refine .ite ?_ ?_
  refine .call (State.cfgReject_fr ..) ?_ (by decide)
  exact .refl ..
  lift_lets -underBinder
  intro x1
  refine Fr.have x1 ?_ (fun hx1 => ?_) <;> [unfold x1; clear_value x1]
  refine .wr ?_ (by decide) (.fld .SYS_MBOX_CMD_CODE rfl (by decide))
  refine .wr ?_ (by decide) (.fld .SYS_MBOX_CMD_GROUP rfl (by decide))
  refine .wr ?_ (by decide) (.fld .SYS_MBOX_CMD_TAG rfl (by decide))
  exact .refl ..
  refine .call (State.mboxRun_fr ..) ?_ (by decide)
  refine .call (State.count_fr ..) ?_ (by decide)
  exact hx1

theorem State.mboxRow_fr (s : State) (m : Fin 4) (tag : Byte) (group : Nat) (code : Nat) (t : Nat) :
    Runs 0x160001011d00c0c9400000078000f08003fe2bc3000008104003f000000001ff80000010000020678006c0020011000000fe20120072a01f74b03cffffff s (State.mboxRow s m tag group code t) := by
  unfold State.mboxRow
  refine .next ?_
  (with_reducible apply State.access_fr) <;> [skip; skip; decide]
  exact .refl ..
  intro x1
  refine .call (State.mboxWrite_fr ..) ?_ (by decide)
  exact .refl ..

theorem execUpdateData_fr (m : Fin 4) (tag : Byte) (s : State) :
    Runs 0x160001011d00c0c9400000078000f08003fe2bc3000008104003f000000001ff80000010000020678006c0020011000000fe20120072a01f74b03cffffff s (execUpdateData m tag s) := by
  unfold execUpdateData
  exact (State.mboxRow_fr ..).mono (by decide)

theorem State.jtagLoad_fr (s : State) (j : Jtag) : Fr 0x212000000000000000000000000000000000000000002009 s (State.jtagLoad s j) := by
  unfold State.jtagLoad
  lift_lets -underBinder
  intro x1
  refine Fr.have x1 ?_ (fun hx1 => ?_) <;> [unfold x1; clear_value x1]
  refine .call (State.sy_fr ..) ?_ (by decide)
  exact .refl ..
  refine .call (State.setLi_fr ..) ?_ (by decide)
  exact hx1

theorem execClamp_fr (s : State) : Runs 0x212000000000000000000000000000000000000000002009 s (execClamp s) := by
  unfold execClamp
  refine .next ?_
  refine .call (State.sy_fr ..) ?_ (by decide)
  refine .call (State.jtagLoad_fr ..) ?_ (by decide)
  exact .refl ..

theorem execRegisterAccessTimeout_fr (a : BitVec 26) (s : State) :
    Runs 0x1000000000000000000000000000000000000000000000000000000000000000000000000000000000000000000000000000000000000000020000b s (execRegisterAccessTimeout a s) := by
  unfold execRegisterAccessTimeout
  refine .next ?_
  refine .ite ?_ ?_
  (with_reducible apply State.access_fr) <;> [skip; skip; decide]
  exact .refl ..
  intro x1
  unfold id
  exact .refl ..
  exact .refl ..

theorem execPanicEntry_fr (p : Fin 8) (t : Nat) (s : State) :
    Runs 0x1400000000000000000000000000000000000000000000000000000000000000000000000000000000000403 s (execPanicEntry p t s) := by
  unfold execPanicEntry
  refine .next ?_
  refine .ite ?_ ?_
  exact .refl ..
  lift_lets -underBinder
  intro x1 x2 x3 x4
  refine Fr.have x2 ?_ (fun hx2 => ?_) <;> [unfold x2; skip]
  refine .wr ?_ (by decide) (.arr .MEM_PORT_STATUS_PANIC rfl (by decide))
  exact .refl ..
  refine Fr.have x4 ?_ (fun hx4 => ?_) <;> [unfold x4; skip]
  apply Fr.upd <;> first | show Fr _ _ _ | exact .inl rfl | exact .inr rfl | rfl
  exact hx2
  refine .ite ?_ ?_
  refine .call (State.raise_fr ..) ?_ (by decide)
  refine .wr ?_ (by decide) (.arr .MEM_PORT_STATUS_FLAP rfl (by decide))
  exact hx4
  exact hx4

theorem execDerateEnter_fr (m : Fin 4) (tag : Byte) (s : State) :
    Runs 0x160001011d00c0c9400000078000f08003fe2bc3000008104003f000000001ff80000010000020678006c0020011000000fe20120072a01f74b03cffffff s (execDerateEnter m tag s) := by
  unfold execDerateEnter
  exact (State.mboxRow_fr ..).mono (by decide)

theorem State.hdlTxEnd_fr (s : State) (x : HdlTx) (ok : Bool) :
    Fr 0x14000000000000000000000000000000000000000000000000000000000000000000000000000000000000000000000000000000000000100007 s (State.hdlTxEnd s x ok) := by
  unfold State.hdlTxEnd
  lift_lets -underBinder
  intro x1
  refine Fr.have x1 ?_ (fun hx1 => ?_) <;> [unfold x1; clear_value x1]
  (with_reducible apply Fr.call (State.bo_fr ..)) <;> first | (intro _; rfl) | decide | skip
  refine .wr ?_ (by decide) (.fld .BOOT_HDL_STATUS_TX_BUSY rfl (by decide))
  exact .refl ..
  refine .ite ?_ ?_
  exact hx1
  refine .ite ?_ ?_
  refine .call (State.raise_fr ..) ?_ (by decide)
  refine .wr ?_ (by decide) (.fld .BOOT_HDL_STATUS_RESULT rfl (by decide))
  exact hx1
  split
  refine .call (State.raise_fr ..) ?_ (by decide)
  refine .wr ?_ (by decide) (.fld .BOOT_HDL_STATUS_RESULT rfl (by decide))
  with_reducible refine Fr.pair (by assumption) ?_
  refine .call (State.drawFree_fr ..) ?_ (by decide)
  exact hx1

theorem execHeadlandAbort_fr (downstream : Bool) (s : State) :
    Runs 0x1c000000000000000000000000000000000000000000000000000000000000000000000000000000000000000000000000000000000000100007 s (execHeadlandAbort downstream s) := by
  unfold execHeadlandAbort
  refine .next ?_
  refine .ite ?_ ?_
  split
  refine .call (State.hdlTxEnd_fr ..) ?_ (by decide)
  exact .refl ..
  exact .refl ..
  split
  refine .ite ?_ ?_
  exact .refl ..
  refine .call (State.hdlRxAbort_fr ..) ?_ (by decide)
  exact .refl ..
  exact .refl ..

theorem State.hdlUpward_fr (s : State) (p : HdlPkt) : Fr 0x100000 s (State.hdlUpward s p) := by
  unfold State.hdlUpward
  (with_reducible apply Fr.call (State.bo_fr ..)) <;> first | (intro _; rfl) | decide | skip
  exact .refl ..

theorem execHeadlandResult_fr (h : Byte) (result : Byte) (s : State) :
    Runs 0x60000000000000000000000000000000000000000000000000000000000000000000000000000000000000000000000000000000000000100005 s (execHeadlandResult h result s) := by
  unfold execHeadlandResult
  refine .next ?_
  refine .ite ?_ ?_
  exact .refl ..
  split
  split
  split
  lift_lets -underBinder
  intro x1
  refine Fr.have x1 ?_ (fun hx1 => ?_) <;> [unfold x1; clear_value x1]
  refine .call (State.hdlUpward_fr ..) ?_ (by decide)
  with_reducible refine Fr.pair (by assumption) ?_
  refine .call (State.drawFree_fr ..) ?_ (by decide)
  with_reducible refine Fr.pair (by assumption) ?_
  refine .call (State.drawFree_fr ..) ?_ (by decide)
  with_reducible refine Fr.pair (by assumption) ?_
  refine .call (State.drawFree_fr ..) ?_ (by decide)
  exact .refl ..
  refine .ite ?_ ?_
  refine .wr ?_ (by decide) (.arr .BOOT_HDL_RES_VALID rfl (by decide))
  refine .wr ?_ (by decide) (.arr .BOOT_HDL_RES_RESULT rfl (by decide))
  exact hx1
  exact hx1

theorem State.capture_fr (s : State) : Fr 0xc s (State.capture s) := by
  unfold State.capture
  split
  refine .call (State.sy_fr ..) ?_ (by decide)
  with_reducible refine Fr.pair (by assumption) ?_
  refine .call (State.drawFree_fr ..) ?_ (by decide)
  exact .refl ..

theorem execExtestTrain_fr (s : State) : Runs 0x21200000000000000000000000000000000000000000200d s (execExtestTrain s) := by
  unfold execExtestTrain
  refine .next ?_
  refine .call (State.capture_fr ..) ?_ (by decide)
  refine .call (State.jtagLoad_fr ..) ?_ (by decide)
  exact .refl ..

theorem execBypass_fr (s : State) : Runs 0x212000000000000000000000000000000000000000002009 s (execBypass s) := by
  unfold execBypass
  refine .next ?_
  refine .call (State.sy_fr ..) ?_ (by decide)
  refine .call (State.jtagLoad_fr ..) ?_ (by decide)
  exact .refl ..

theorem State.refreshed_fr (s : State) (ch : Nat) (bank : Nat) (n : Nat) :
    Fr 0x10000000000000000000000000000000000000000000000000000000000000000000000000000000000000000000000000000000000000000200403 s (State.refreshed s ch bank n) := by
  unfold State.refreshed
  lift_lets -underBinder
  intro x1 x2 x3
  refine Fr.have x2 ?_ (fun hx2 => ?_) <;> [unfold x2; clear_value x2]
  refine .call (State.count_fr ..) ?_ (by decide)
  exact .refl ..
  apply Fr.upd <;> first | show Fr _ _ _ | exact .inl rfl | exact .inr rfl | rfl
  exact hx2

theorem State.catchUp_fr (s : State) (p : Nat) (r : Req) :
    Fr 0x10000000000000000000000000000000000000000000000000000000000000000000000000000000000000000000000000000000000000000200403 s (State.catchUp s p r) := by
  unfold State.catchUp
  split
  refine .ite ?_ ?_
  refine .call (State.refreshed_fr ..) ?_ (by decide)
  exact .refl ..
  exact .refl ..
  exact .refl ..

theorem State.hdlPacket_fr (s : State) (x : HdlTx) (q : Nat) :
    Fr 0x10000000000000000000000000003fe2800000000000000000000000000000000000000000000000000000000000000000000000000000000200407 s (State.hdlPacket s x q).2 := by
  unfold State.hdlPacket
  lift_lets -underBinder
  intro x1 x2
  with_reducible apply Fr.ite2
  split
  dsimp +zetaDelta -zeta only
  with_reducible refine Fr.pair (by assumption) ?_
  with_reducible apply Fr.ite2
  dsimp +zetaDelta -zeta only
  exact .refl ..
  refine .call (State.mgmtLoad_fr ..) ?_ (by decide)
  exact .refl ..
  with_reducible apply Fr.ite2
  split
  dsimp +zetaDelta -zeta only
  with_reducible refine Fr.pair (by assumption) ?_
  refine .call (State.mgmtLoad_fr ..) ?_ (by decide)
  exact .refl ..
  dsimp +zetaDelta -zeta only
  exact .refl ..

theorem State.hdlDown_fr (s : State) (p : HdlPkt) : Fr 0x100000 s (State.hdlDown s p) := by
  unfold State.hdlDown
  (with_reducible apply Fr.call (State.bo_fr ..)) <;> first | (intro _; rfl) | decide | skip
  exact .refl ..

theorem State.hdlPump_fr (fuel : Nat) (s : State) :
    Fr 0x10000000000000000000000000003fe2940000000000000000000000000000000000000000000000000000000000000000000000000008000300407 s (State.hdlPump fuel s) := by
  induction fuel generalizing s with
  | zero => exact Fr.refl _ _
  | succ k ih =>
    unfold State.hdlPump
    split
    exact .refl ..
    refine .ite ?_ ?_
    exact .refl ..
    refine .ite ?_ ?_
    refine .call (State.memWake_fr ..) ?_ (by decide)
    exact .refl ..
    split
    refine .call (ih ..) ?_ (by decide)
    (with_reducible apply Fr.call (State.bo_fr ..)) <;> first | (intro _; rfl) | decide | skip
    refine .call (State.hdlDown_fr ..) ?_ (by decide)
    with_reducible refine Fr.pair (by assumption) ?_
    refine .call (State.hdlPacket_fr ..) ?_ (by decide)
    exact .refl ..

theorem State.hdlReply_fr (s : State) (type : Nat) (q : Nat) (total : Nat) : Fr 0x100000 s (State.hdlReply s type q total) := by
  unfold State.hdlReply
  refine .call (State.hdlUpward_fr ..) ?_ (by decide)
  exact .refl ..

theorem State.hdlRxEnd_fr (s : State) (x : HdlRx) (result : Nat) :
    Fr 0xd000000000000000000000000000000000000000000000000000000000000000000000000000000000000000000000000000000000000100003 s (State.hdlRxEnd s x result) := by
  unfold State.hdlRxEnd
  lift_lets -underBinder
  intro x1 x2
  refine Fr.have x1 ?_ (fun hx1 => ?_) <;> [unfold x1; clear_value x1]
  refine .call (State.hdlUpward_fr ..) ?_ (by decide)
  exact .refl ..
  refine Fr.have x2 ?_ (fun hx2 => ?_) <;> [unfold x2; clear_value x2]
  refine .wr ?_ (by decide) (.fld .BOOT_UPD_RESULT_RESULT rfl (by decide))
  refine .wr ?_ (by decide) (.fld .BOOT_HDL_STATUS_RESULT rfl (by decide))
  refine .wr ?_ (by decide) (.fld .BOOT_HDL_STATUS_RX_BUSY rfl (by decide))
  exact hx1
  refine .call (State.raise_fr ..) ?_ (by decide)
  (with_reducible apply Fr.call (State.bo_fr ..)) <;> first | (intro _; rfl) | decide | skip
  exact hx2

theorem State.hdlEnd_fr (q : Nat) (t : Nat) (x : HdlRx) (s : State) :
    Fr 0x1010d000048000000000000000003fe2940000000000000000000000000000000000000000000000000000000000000000000000000008000b00407 s (State.hdlEnd q t x s) := by
  unfold State.hdlEnd
  lift_lets -underBinder
  intro x1 x2
  refine Fr.have x2 ?_ (fun hx2 => ?_) <;> [unfold x2; clear_value x2]
  refine .call (State.hdlPump_fr ..) ?_ (by decide)
  refine .call (State.hdlReply_fr ..) ?_ (by decide)
  (with_reducible apply Fr.call (State.bo_fr ..)) <;> first | (intro _; rfl) | decide | skip
  exact .refl ..
  refine .ite ?_ ?_
  refine .call (State.hdlRxEnd_fr ..) ?_ (by decide)
  exact hx2
  split
  lift_lets -underBinder
  intro x3
  refine .ite ?_ ?_
  refine .call (State.slotStart_fr ..) ?_ (by decide)
  with_reducible refine Fr.pair (by assumption) ?_
  refine .call (State.mgmtLoad_fr ..) ?_ (by decide)
  exact hx2
  refine .call (State.hdlRxEnd_fr ..) ?_ (by decide)
  with_reducible refine Fr.pair (by assumption) ?_
  refine .call (State.mgmtLoad_fr ..) ?_ (by decide)
  exact hx2

theorem State.hdlData_fr (q : Nat) (ofs : Nat) (payload : List Byte) (x : HdlRx) (s : State) :
    Fr 0x10000000000000000000000000003fe2940000000000000000000000000000000000000000000000000000000000000000000000000008000700c07 s (State.hdlData q ofs payload x s) := by
  unfold State.hdlData
  lift_lets -underBinder
  intro x1 x2
  refine Fr.have x2 ?_ (fun hx2 => ?_) <;> [unfold x2; clear_value x2]
  refine .call (State.mgmtStore_fr ..) ?_ (by decide)
  exact .refl ..
  refine .ite ?_ ?_
  refine .call (State.hdlReply_fr ..) ?_ (by decide)
  exact .refl ..
  refine .call (State.hdlPump_fr ..) ?_ (by decide)
  refine .call (State.hdlReply_fr ..) ?_ (by decide)
  (with_reducible apply Fr.call (State.bo_fr ..)) <;> first | (intro _; rfl) | decide | skip
  exact hx2

theorem State.hdlRx_fr {w : Nat} {s0 : State} {s : State} {good : Bool} {q : Nat} {f : HdlRx → State → State} (h : Fr w s0 s) (hf : ∀ a0  y, Fr w y (f a0  y)) (hw : 0x1c000000000000000000000000000000000000000000000000000000000000000000000000000000000000000000000000000000000000100007 &&& w = 0x1c000000000000000000000000000000000000000000000000000000000000000000000000000000000000000000000000000000000000100007) :
    Fr w s0 (State.hdlRx s good q f) := by
  refine h.trans ?_
  unfold State.hdlRx
  split
  exact .refl ..
  refine .ite ?_ ?_
  (with_reducible apply Fr.call (State.hdlRxAbort_fr ..)) <;> [skip; exact sub_trans (by decide) hw]
  (with_reducible apply Fr.call (State.hdlReply_fr ..)) <;> [skip; exact sub_trans (by decide) hw]
  exact .refl ..
  refine .ite ?_ ?_
  (with_reducible apply Fr.call (State.hdlReply_fr ..)) <;> [skip; exact sub_trans (by decide) hw]
  exact .refl ..
  refine Fr.trans ?_ (hf _ _)
  exact .refl ..

theorem State.runJob_fr (s : State) (j : MemJob) :
    Fr 0x160001011d00c0c9400000078000f08003fe2bc3000008104003f000000001ff80000010000020678006c0020011000000fe20120072a01f04b03cffffff s (State.runJob s j) := by
  unfold State.runJob
  split
  refine .call (State.mboxRun_fr ..) ?_ (by decide)
  refine .call (State.sy_fr ..) ?_ (by decide)
  exact .refl ..
  (with_reducible apply State.hdlRx_fr) <;> [skip; skip; decide]
  exact .refl ..
  intro x1 x2
  refine .call (State.hdlData_fr ..) ?_ (by decide)
  exact .refl ..
  (with_reducible apply State.hdlRx_fr) <;> [skip; skip; decide]
  exact .refl ..
  intro x3 x4
  refine .call (State.hdlEnd_fr ..) ?_ (by decide)
  exact .refl ..

theorem State.jobsRun_fr (s : State) :
    Fr 0x160001011d00c0c9400000078000f08003fe2bc3000008104003f000000001ff80000010000020678006c0020011000000fe20120072a01f04b03cffffff s (State.jobsRun s) := by
  unfold State.jobsRun
  refine .ite ?_ ?_
  exact .refl ..
  refine .call (State.hdlPump_fr ..) ?_ (by decide)
  with_reducible apply Fr.foldl
  (with_reducible apply Fr.call (State.bo_fr ..)) <;> first | (intro _; rfl) | decide | skip
  exact .refl ..
  intro x1 x2
  refine .call (State.runJob_fr ..) ?_ (by decide)
  exact .refl ..

theorem execMemoryRequestServed_fr (p : Fin 8) (idx : Nat) (link : Fin 4) (found : Fin 3) (s : State) :
    Runs 0x160001011d00c0c9400000078000f08003fe2bc3000008104003f000000001ff80000010000020678006c0020011000000fe20120072a01f04b03cffffff s (execMemoryRequestServed p idx link found s) := by
  unfold execMemoryRequestServed
  refine .next ?_
  refine .ite ?_ ?_
  refine .ite ?_ ?_
  exact .refl ..
  refine .call (State.memWake_fr ..) ?_ (by decide)
  exact .refl ..
  refine .ite ?_ ?_
  refine .call (State.jobsRun_fr ..) ?_ (by decide)
  exact .refl ..
  refine .ite ?_ ?_
  exact .refl ..
  split
  exact .refl ..
  refine .ite ?_ ?_
  exact .refl ..
  lift_lets -underBinder
  intro x1 x2
  refine Fr.have x1 ?_ (fun hx1 => ?_) <;> [unfold x1; clear_value x1]
  refine .call (State.catchUp_fr ..) ?_ (by decide)
  exact .refl ..
  refine Fr.have x2 ?_ (fun hx2 => ?_) <;> [unfold x2; clear_value x2]
  split
  lift_lets -underBinder
  intro x3 x4
  refine Fr.have x3 ?_ (fun hx3 => ?_) <;> [unfold x3; clear_value x3]
  refine .call (State.upset_fr ..) ?_ (by decide)
  exact hx1
  refine .ite ?_ ?_
  exact hx3
  apply Fr.upd <;> first | show Fr _ _ _ | exact .inl rfl | exact .inr rfl | rfl
  exact hx3
  exact hx1
  refine .call (State.jobsRun_fr ..) ?_ (by decide)
  refine .call (State.serve_fr ..) ?_ (by decide)
  refine .call (State.setPort_fr ..) ?_ (by decide)
  exact hx2

theorem execUpdateBegin_fr (m : Fin 4) (tag : Byte) (s : State) :
    Runs 0x160001011d00c0c9400000078000f08003fe2bc3000008104003f000000001ff80000010000020678006c0020011000000fe20120072a01f74b03cffffff s (execUpdateBegin m tag s) := by
  unfold execUpdateBegin
  exact (State.mboxRow_fr ..).mono (by decide)

theorem execSamplePreload_fr (s : State) : Runs 0x21200000000000000000000000000000000000000000200d s (execSamplePreload s) := by
  unfold execSamplePreload
  refine .next ?_
  refine .call (State.sy_fr ..) ?_ (by decide)
  refine .call (State.capture_fr ..) ?_ (by decide)
  refine .call (State.jtagLoad_fr ..) ?_ (by decide)
  exact .refl ..

theorem State.spiReject_fr (s : State) :
    Fr 0x100000000000000000000000000000000000000000000000000000000000000000000000000000000000000000000000000000000803 s (State.spiReject s) := by
  unfold State.spiReject
  lift_lets -underBinder
  intro x1
  refine .call (State.raiseIf_fr ..) ?_ (by decide)
  refine .bump ?_ (by decide) (.fld .LNK_MSPI_CRC_CNT_COUNT rfl (by decide))
  refine .call (State.lk_fr ..) ?_ (by decide)
  exact .refl ..

theorem State.spiFrame_fr {w : Nat} {s0 : State} {s : State} {good : Bool} {f : State → State} (h : Fr w s0 s) (hf : ∀  y, Fr w y (f  y)) (hw : 0x100000000000000000000000000000000000000000000000000000000000000000000000000000000000000000000000000000000803 &&& w = 0x100000000000000000000000000000000000000000000000000000000000000000000000000000000000000000000000000000000803) :
    Fr w s0 (State.spiFrame s good f) := by
  refine h.trans ?_
  unfold State.spiFrame
  refine .ite ?_ ?_
  exact .refl ..
  refine .ite ?_ ?_
  refine Fr.trans ?_ (hf _)
  exact .refl ..
  (with_reducible apply Fr.call (State.spiReject_fr ..)) <;> [skip; exact sub_trans (by decide) hw]
  exact .refl ..

theorem execSpiBadFrame_fr (s : State) :
    Runs 0x100000000000000000000000000000000000000000000000000000000000000000000000000000000000000000000000000000000803 s (execSpiBadFrame s) := by
  unfold execSpiBadFrame
  refine .next ?_
  (with_reducible apply State.spiFrame_fr) <;> [skip; skip; decide]
  exact .refl ..
  intro x1
  unfold id
  exact .refl ..

theorem State.hdlConfirm_fr (s : State) (hops : Nat) (t : Nat) (pass : Bool) :
    Fr 0x101000040000000000000000000000000000000000000000000000000000000000000000000000000000000000000000000000000000000900007 s (State.hdlConfirm s hops t pass) := by
  unfold State.hdlConfirm
  lift_lets -underBinder
  intro x1 x2
  refine Fr.have x2 ?_ (fun hx2 => ?_) <;> [unfold x2; clear_value x2]
  refine .ite ?_ ?_
  refine .call (State.raiseIf_fr ..) ?_ (by decide)
  refine .wr ?_ (by decide) (.fld .BOOT_UPD_RESULT_RESULT rfl (by decide))
  unfold x1
  refine .call (State.confirm_fr ..) ?_ (by decide)
  exact .refl ..
  exact .refl ..
  refine .ite ?_ ?_
  split
  refine .call (State.hdlDown_fr ..) ?_ (by decide)
  with_reducible refine Fr.pair (by assumption) ?_
  refine .call (State.drawFree_fr ..) ?_ (by decide)
  exact hx2
  exact hx2

theorem execHeadlandConfirm_fr (t : Nat) (s : State) :
    Runs 0x10101000040000000000000000000000000000000000000000000000000000000000000000000000000000000000000000000000000000000b0000f s (execHeadlandConfirm t s) := by
  unfold execHeadlandConfirm
  refine .next ?_
  (with_reducible apply State.access_fr) <;> [skip; skip; decide]
  exact .refl ..
  intro x1
  refine .call (State.hdlConfirm_fr ..) ?_ (by decide)
  exact .refl ..

theorem State.memResume_fr (s : State) :
    Fr 0x160001011d00c0c9400000078000f08003fe2bc3000008104003f000000001ff80000010000020678006c0020011000000fe20120072a01f04b03cffffff s (State.memResume s) := by
  unfold State.memResume
  lift_lets -underBinder
  intro x1
  refine Fr.have x1 ?_ (fun hx1 => ?_) <;> [unfold x1; clear_value x1]
  refine .call (State.memActive_fr ..) ?_ (by decide)
  exact .refl ..
  refine .ite ?_ ?_
  refine .call (State.jobsRun_fr ..) ?_ (by decide)
  exact hx1
  refine .ite ?_ ?_
  exact hx1
  refine .call (State.memWake_fr ..) ?_ (by decide)
  exact hx1

theorem execSelfRefreshExitComplete_fr (s : State) :
    Runs 0x160001011d00c0c9400000078000f08003fe2bc3000008104003f000000001ff80000010000020678006c0020011000000fe20120072a01f04b03cffffff s (execSelfRefreshExitComplete s) := by
  unfold execSelfRefreshExitComplete
  refine .next ?_
  refine .ite ?_ ?_
  refine .call (State.memResume_fr ..) ?_ (by decide)
  refine .wr ?_ (by decide) (.fld .MEM_STATUS_STATE rfl (by decide))
  with_reducible apply Fr.forN
  exact .refl ..
  intro x1 x2
  refine .call (State.count_fr ..) ?_ (by decide)
  exact .refl ..
  exact .refl ..

theorem State.mboxClaim_fr (s : State) (m : Nat) (v : Nat) :
    Fr 0x80080000000000000000000000000000000000000000000000000000000000000000000000000000000000000000000000000000100003 s (State.mboxClaim s m v) := by
  unfold State.mboxClaim
  lift_lets -underBinder
  intro x1
  refine .ite ?_ ?_
  refine .ite ?_ ?_
  refine .call (State.cfgReject_fr ..) ?_ (by decide)
  exact .refl ..
  refine .call (State.mboxOwner_fr ..) ?_ (by decide)
  exact .refl ..
  refine .ite ?_ ?_
  refine .call (State.mboxOwner_fr ..) ?_ (by decide)
  exact .refl ..
  exact .refl ..

theorem execMailboxClaim_fr (m : Fin 4) (v : Word) (s : State) :
    Runs 0x1000000008008000000000000000000000000000000000000000000000000000000000000000000000000000000000000000000000000000030000b s (execMailboxClaim m v s) := by
  unfold execMailboxClaim
  refine .next ?_
  (with_reducible apply State.access_fr) <;> [skip; skip; decide]
  exact .refl ..
  intro x1
  refine .call (State.mboxClaim_fr ..) ?_ (by decide)
  exact .refl ..

theorem execDerateRelease_fr (m : Fin 4) (tag : Byte) (s : State) :
    Runs 0x160001011d00c0c9400000078000f08003fe2bc3000008104003f000000001ff80000010000020678006c0020011000000fe20120072a01f74b03cffffff s (execDerateRelease m tag s) := by
  unfold execDerateRelease
  exact (State.mboxRow_fr ..).mono (by decide)

theorem execRequestUrgent_fr (p : Fin 8) (idx : Nat) (s : State) :
    Runs 0x800000000000000000000000000000000000000000000000000000000000000000000000000000000000401 s (execRequestUrgent p idx s) := by
  unfold execRequestUrgent
  refine .next ?_
  refine .ite ?_ ?_
  refine .call (State.setPort_fr ..) ?_ (by decide)
  exact .refl ..
  refine .ite ?_ ?_
  refine .wr ?_ (by decide) (.arr .MEM_PORT_STATUS_URGENT rfl (by decide))
  apply Fr.upd <;> first | show Fr _ _ _ | exact .inl rfl | exact .inr rfl | rfl
  exact .refl ..
  exact .refl ..

theorem State.hdlResend_fr (s : State) (x : HdlTx) (q : Nat) :
    Fr 0x10014000000000000000000000003fe2940000000000000000000000000000000000000000000000000000000000000000000000000008000300407 s (State.hdlResend s x q) := by
  unfold State.hdlResend
  lift_lets -underBinder
  intro x1
  refine .ite ?_ ?_
  refine .call (State.hdlTxEnd_fr ..) ?_ (by decide)
  refine .call (State.hdlDown_fr ..) ?_ (by decide)
  exact .refl ..
  refine .call (State.hdlPump_fr ..) ?_ (by decide)
  (with_reducible apply Fr.call (State.bo_fr ..)) <;> first | (intro _; rfl) | decide | skip
  exact .refl ..

theorem execHeadlandResendTimeout_fr (s : State) :
    Runs 0x10014000000000000000000000003fe2940000000000000000000000000000000000000000000000000000000000000000000000000008000300407 s (execHeadlandResendTimeout s) := by
  unfold execHeadlandResendTimeout
  refine .next ?_
  split
  exact .refl ..
  refine .ite ?_ ?_
  refine .call (State.hdlResend_fr ..) ?_ (by decide)
  exact .refl ..
  exact .refl ..

theorem execHighz_fr (s : State) : Runs 0x212000000000000000000000000000000000000000002009 s (execHighz s) := by
  unfold execHighz
  refine .next ?_
  refine .call (State.sy_fr ..) ?_ (by decide)
  refine .call (State.jtagLoad_fr ..) ?_ (by decide)
  exact .refl ..

theorem execFlashRead_fr (m : Fin 4) (tag : Byte) (s : State) :
    Runs 0x160001011d00c0c9400000078000f08003fe2bc3000008104003f000000001ff80000010000020678006c0020011000000fe20120072a01f74b03cffffff s (execFlashRead m tag s) := by
  unfold execFlashRead
  exact (State.mboxRow_fr ..).mono (by decide)

theorem execModeScan_fr (m : Fin 4) (tag : Byte) (s : State) :
    Runs 0x160001011d00c0c9400000078000f08003fe2bc3000008104003f000000001ff80000010000020678006c0020011000000fe20120072a01f74b03cffffff s (execModeScan m tag s) := by
  unfold execModeScan
  exact (State.mboxRow_fr ..).mono (by decide)

theorem State.peerOf_fr (s : State) (e : Nat) : Fr 0x4 s (State.peerOf s e).2 := by
  unfold State.peerOf
  lift_lets -underBinder
  intro x1
  with_reducible apply Fr.ite2
  refine .call (State.freeBytes_fr ..) ?_ (by decide)
  exact .refl ..
  dsimp +zetaDelta -zeta only
  exact .refl ..

theorem execMailboxDatagram_fr (e : Fin 2) (cmd : Word) (arg : Word) (buf : List Byte) (t : Nat) (s : State) :
    Runs 0x160001011d00c0c9480000078000f08003fe2bc3000008104003f000000001ff80000010000020678006c0020011000000fe20120072a01ff4b03cffffff s (execMailboxDatagram e cmd arg buf t s) := by
  unfold execMailboxDatagram
  refine .next ?_
  refine .ite ?_ ?_
  exact .refl ..
  lift_lets -underBinder
  intro x1 x2 x3 x4
  refine .ite ?_ ?_
  split
  refine .call (State.udpSend_fr ..) ?_ (by decide)
  with_reducible refine Fr.pair (by assumption) ?_
  refine .call (State.peerOf_fr ..) ?_ (by decide)
  exact .refl ..
  split
  lift_lets -underBinder
  intro x5
  refine Fr.have x5 ?_ (fun hx5 => ?_) <;> [unfold x5; clear_value x5]
  refine .call (State.mboxPut_fr ..) ?_ (by decide)
  refine .setReg ?_ (by decide) (.word .w_SYS_MBOX_ARG rfl (by decide))
  refine .call (State.mboxOwner_fr ..) ?_ (by decide)
  with_reducible refine Fr.pair (by assumption) ?_
  refine .call (State.peerOf_fr ..) ?_ (by decide)
  exact .refl ..
  refine .ite ?_ ?_
  refine .call (State.mboxWrite_fr ..) ?_ (by decide)
  refine .call (State.lk_fr ..) ?_ (by decide)
  exact hx5
  refine .call (State.udpSend_fr ..) ?_ (by decide)
  refine .call (State.mboxWrite_fr ..) ?_ (by decide)
  exact hx5

theorem execIdcode_fr (s : State) : Runs 0x212000000000000000000000000000000000000000002009 s (execIdcode s) := by
  unfold execIdcode
  refine .next ?_
  refine .call (State.sy_fr ..) ?_ (by decide)
  refine .call (State.jtagLoad_fr ..) ?_ (by decide)
  exact .refl ..

theorem State.hdlAcked_fr (s : State) (x : HdlTx) (q : Nat) :
    Fr 0x10014000000000000000000000003fe2940000000000000000000000000000000000000000000000000000000000000000000000000008000300407 s (State.hdlAcked s x q) := by
  unfold State.hdlAcked
  lift_lets -underBinder
  intro x1
  refine .ite ?_ ?_
  refine .call (State.hdlTxEnd_fr ..) ?_ (by decide)
  exact .refl ..
  refine .call (State.hdlPump_fr ..) ?_ (by decide)
  (with_reducible apply Fr.call (State.bo_fr ..)) <;> first | (intro _; rfl) | decide | skip
  exact .refl ..

theorem execHeadlandAck_fr (q : BitVec 16) (s : State) :
    Runs 0x10014000000000000000000000003fe2940000000000000000000000000000000000000000000000000000000000000000000000000008000300407 s (execHeadlandAck q s) := by
  unfold execHeadlandAck
  refine .next ?_
  split
  exact .refl ..
  refine .ite ?_ ?_
  exact .refl ..
  refine .call (State.hdlAcked_fr ..) ?_ (by decide)
  exact .refl ..

theorem execPfNRise_fr (s : State) :
    Runs 0x4000400000000000000000000000000000000000000000000000000000000000000000940009 s (execPfNRise s) := by
  unfold execPfNRise
  refine .next ?_
  lift_lets -underBinder
  intro x1 x2
  refine Fr.have x1 ?_ (fun hx1 => ?_) <;> [unfold x1; clear_value x1]
  refine .call (State.sy_fr ..) ?_ (by decide)
  exact .refl ..
  refine Fr.have x2 ?_ (fun hx2 => ?_) <;> [unfold x2; clear_value x2]
  refine .ite ?_ ?_
  refine .call (State.jrnStart_fr ..) ?_ (by decide)
  exact hx1
  exact hx1
  refine .ite ?_ ?_
  refine .call (State.setSave_fr ..) ?_ (by decide)
  exact hx2
  exact hx2

theorem execMainPllRelock_fr (s : State) :
    Runs 0x160001011d00c0c9400000078000f08003fe2bc3000008104003f000000001ff80000010000020678006c0020011000000fe20120072a01f04b83cffffff s (execMainPllRelock s) := by
  unfold execMainPllRelock
  refine .next ?_
  refine .ite ?_ ?_
  exact .refl ..
  refine .call (State.hedgeShow_fr ..) ?_ (by decide)
  refine .call (State.memResume_fr ..) ?_ (by decide)
  refine .call (State.dramRuns_fr ..) ?_ (by decide)
  refine .wr ?_ (by decide) (.fld .SYS_CLK_STATUS_MAIN_LOCK rfl (by decide))
  exact .refl ..

theorem execExtestPulse_fr (s : State) : Runs 0x21200000000000000000000000000000000000000000200d s (execExtestPulse s) := by
  unfold execExtestPulse
  refine .next ?_
  refine .call (State.capture_fr ..) ?_ (by decide)
  refine .call (State.jtagLoad_fr ..) ?_ (by decide)
  exact .refl ..

theorem execHeadlandConfirmPacket_fr (hops : Fin 8) (t : Nat) (s : State) :
    Runs 0x101000040000000000000000000000000000000000000000000000000000000000000000000000000000000000000000000000000000000900007 s (execHeadlandConfirmPacket hops t s) := by
  unfold execHeadlandConfirmPacket
  refine .next ?_
  refine .ite ?_ ?_
  exact .refl ..
  refine .call (State.hdlConfirm_fr ..) ?_ (by decide)
  exact .refl ..

theorem State.spiServed_fr (s : State) (out : List Byte) : Fr 0x800 s (State.spiServed s out) := by
  unfold State.spiServed
  refine .call (State.lk_fr ..) ?_ (by decide)
  exact .refl ..

theorem execSpiStatus_fr (s : State) :
    Runs 0x100000000000000000000000000000000000000000000000000000000000000000000000000000000000000000000000000000000803 s (execSpiStatus s) := by
  unfold execSpiStatus
  refine .next ?_
  (with_reducible apply State.spiFrame_fr) <;> [skip; skip; decide]
  exact .refl ..
  intro x1
  refine .call (State.spiServed_fr ..) ?_ (by decide)
  exact .refl ..

theorem State.swept_fr (s : State) (masks : List (BitVec 16)) :
    Fr 0x20000000000000000000000000000000000000000000000000000000000000000000000000000000000000000400405 s (State.swept s masks) := by
  unfold State.swept
  lift_lets -underBinder
  intro x1 x2 x3 x4 x5 x6 x7 x8 x9
  refine Fr.have x2 ?_ (fun hx2 => ?_) <;> [unfold x2; clear_value x2]
  with_reducible apply Fr.forN
  exact .refl ..
  intro x10 x11
  refine .wr ?_ (by decide) (.arr .MEM_TRN_MASK_PASS rfl (by decide))
  exact .refl ..
  refine Fr.have x4 ?_ (fun hx4 => ?_) <;> [unfold x4; clear_value x4]
  apply Fr.upd <;> first | show Fr _ _ _ | exact .inl rfl | exact .inr rfl | rfl
  exact hx2
  refine Fr.have x5 ?_ (fun hx5 => ?_) <;> [unfold x5; clear_value x5]
  with_reducible apply Fr.forN
  exact hx4
  intro x12 x13
  refine .ite ?_ ?_
  refine .call (State.lose_fr ..) ?_ (by decide)
  exact .refl ..
  exact .refl ..
  refine .ite ?_ ?_
  (with_reducible refine Fr.dramUpd ?_ ?_ ?_ ?_) <;> [skip; exact (by decide); exact (by decide); first | exact fun _ => rfl | exact Mem.wf_store _ _ _ _]
  exact hx5
  exact hx5

theorem execTrainingSweepComplete_fr (masks : List (BitVec 16)) (s : State) :
    Runs 0x160001011d00c0c9400000078000f2c003fe2bc3000008104003f000000001ff80000010000020678006c0020011000000fe20120072a01f04b03cffffff s (execTrainingSweepComplete masks s) := by
  unfold execTrainingSweepComplete
  refine .next ?_
  refine .ite ?_ ?_
  exact .refl ..
  refine .call (State.memResume_fr ..) ?_ (by decide)
  refine .call (State.raise_fr ..) ?_ (by decide)
  refine .wr ?_ (by decide) (.fld .MEM_TRN_CTRL_BUSY rfl (by decide))
  refine .call (State.swept_fr ..) ?_ (by decide)
  exact .refl ..

theorem State.hdlStaged_fr {w : Nat} {s0 : State} {s : State} {good : Bool} {q : Nat} {j : MemJob} {f : HdlRx → State → State} (h : Fr w s0 s) (hf : ∀ a0  y, Fr w y (f a0  y)) (hw : 0x1c000000000000000000000000000140000000000000000000000000000000000000000000000000000000000000000000000000008000100007 &&& w = 0x1c000000000000000000000000000140000000000000000000000000000000000000000000000000000000000000000000000000008000100007) :
    Fr w s0 (State.hdlStaged s good q j f) := by
  refine h.trans ?_
  unfold State.hdlStaged
  refine .ite ?_ ?_
  (with_reducible apply Fr.call (State.memDefer_fr ..)) <;> [skip; exact sub_trans (by decide) hw]
  exact .refl ..
  (with_reducible apply State.hdlRx_fr) <;> [skip; skip; exact sub_trans (by decide) hw]
  exact .refl ..
  intro x1 x2
  refine Fr.trans ?_ (hf _ _)
  exact .refl ..

theorem execHeadlandEnd_fr (good : Bool) (q : BitVec 16) (t : Nat) (s : State) :
    Runs 0x1011d000048000000000000000003fe2940000000000000000000000000000000000000000000000000000000000000000000000000008000b00407 s (execHeadlandEnd good q t s) := by
  unfold execHeadlandEnd
  refine .next ?_
  (with_reducible apply State.hdlStaged_fr) <;> [skip; skip; decide]
  exact .refl ..
  intro x1 x2
  refine .call (State.hdlEnd_fr ..) ?_ (by decide)
  exact .refl ..

theorem execLogRead_fr (m : Fin 4) (tag : Byte) (s : State) :
    Runs 0x160001011d00c0c9400000078000f08003fe2bc3000008104003f000000001ff80000010000020678006c0020011000000fe20120072a01f74b03cffffff s (execLogRead m tag s) := by
  unfold execLogRead
  exact (State.mboxRow_fr ..).mono (by decide)

theorem execSpiWindow_fr (win : BitVec 16) (crc : Byte) (s : State) :
    Runs 0x300000000000000000000000000000000000000000000000000000000000000000000000000000000000000000000000000000000803 s (execSpiWindow win crc s) := by
  unfold execSpiWindow
  refine .next ?_
  (with_reducible apply State.spiFrame_fr) <;> [skip; skip; decide]
  exact .refl ..
  intro x1
  refine .wr ?_ (by decide) (.fld .LNK_MSPI_WIN_WIN rfl (by decide))
  refine .call (State.spiServed_fr ..) ?_ (by decide)
  exact .refl ..

theorem execHeadlandNak_fr (q : BitVec 16) (s : State) :
    Runs 0x10014000000000000000000000003fe2940000000000000000000000000000000000000000000000000000000000000000000000000008000300407 s (execHeadlandNak q s) := by
  unfold execHeadlandNak
  refine .next ?_
  split
  exact .refl ..
  refine .ite ?_ ?_
  exact .refl ..
  refine .ite ?_ ?_
  refine .call (State.hdlAcked_fr ..) ?_ (by decide)
  exact .refl ..
  refine .call (State.hdlResend_fr ..) ?_ (by decide)
  exact .refl ..

theorem State.hdlTxStart_fr (s : State) (x : HdlTx) :
    Fr 0x10010000000000000000000000003fe2940000000000000000000000000000000000000000000000000000000000000000000000000008000300407 s (State.hdlTxStart s x) := by
  unfold State.hdlTxStart
  refine .call (State.hdlPump_fr ..) ?_ (by decide)
  (with_reducible apply Fr.call (State.bo_fr ..)) <;> first | (intro _; rfl) | decide | skip
  refine .wr ?_ (by decide) (.fld .BOOT_HDL_STATUS_TX_BUSY rfl (by decide))
  exact .refl ..

theorem State.hdlSend_fr (s : State) :
    Fr 0x10030000000000000000000000003fe2940000000000000000000000000000000000000000000000000000000000000000000000000008000300407 s (State.hdlSend s) := by
  unfold State.hdlSend
  refine .ite ?_ ?_
  refine .call (State.cfgReject_fr ..) ?_ (by decide)
  exact .refl ..
  lift_lets -underBinder
  intro x1
  refine Fr.have x1 ?_ (fun hx1 => ?_) <;> [unfold x1; clear_value x1]
  with_reducible apply Fr.forN
  exact .refl ..
  intro x2 x3
  refine .wr ?_ (by decide) (.arr .BOOT_HDL_RES_VALID rfl (by decide))
  exact .refl ..
  refine .call (State.hdlTxStart_fr ..) ?_ (by decide)
  (with_reducible apply Fr.call (State.bo_fr ..)) <;> first | (intro _; rfl) | decide | skip
  exact hx1

theorem execHeadlandSend_fr (s : State) :
    Runs 0x10030000000000000000000000003fe294000000000000000000000000000000000000000000000000000000000000000000000000000800030040f s (execHeadlandSend s) := by
  unfold execHeadlandSend
  refine .next ?_
  (with_reducible apply State.access_fr) <;> [skip; skip; decide]
  exact .refl ..
  intro x1
  refine .call (State.hdlSend_fr ..) ?_ (by decide)
  exact .refl ..

theorem execInitComplete_fr (s : State) :
    Runs 0x160001011d00c0c9400000078000f08003fe2bc3000008104003f000000001ff80000010000020678006c0020011000000fe20120072a01f04b03cffffff s (execInitComplete s) := by
  unfold execInitComplete
  refine .next ?_
  refine .ite ?_ ?_
  refine .call (State.memResume_fr ..) ?_ (by decide)
  lift_lets -underBinder
  intro x1 x2
  refine Fr.have x1 ?_ (fun hx1 => ?_) <;> [unfold x1; clear_value x1]
  refine .wr ?_ (by decide) (.fld .MEM_STATUS_STATE rfl (by decide))
  refine .wr ?_ (by decide) (.fld .MEM_STATUS_INIT_BUSY rfl (by decide))
  exact .refl ..
  (with_reducible refine Fr.dramUpd ?_ ?_ ?_ ?_) <;> [skip; exact (by decide); exact (by decide); first | exact fun _ => rfl | exact Mem.wf_store _ _ _ _]
  exact hx1
  exact .refl ..

theorem execSerialLo_fr (m : Fin 4) (tag : Byte) (s : State) :
    Runs 0x160001011d00c0c9400000078000f08003fe2bc3000008104003f000000001ff80000010000020678006c0020011000000fe20120072a01f74b03cffffff s (execSerialLo m tag s) := by
  unfold execSerialLo
  exact (State.mboxRow_fr ..).mono (by decide)

theorem State.readHook_fr (s : State) (a : Nat) :
    Fr 0x3fe10000000000000000000000000000000000000000000000000000000000000000000000000000000000000000000000000000c41 s (State.readHook s a) := by
  unfold State.readHook
  refine .ite ?_ ?_
  apply Fr.upd <;> first | show Fr _ _ _ | exact .inl rfl | exact .inr rfl | rfl
  exact .refl ..
  refine .ite ?_ ?_
  apply Fr.upd <;> first | show Fr _ _ _ | exact .inl rfl | exact .inr rfl | rfl
  exact .refl ..
  refine .ite ?_ ?_
  refine .call (State.stampPop_fr ..) ?_ (by decide)
  exact .refl ..
  exact .refl ..

theorem State.clearRC_fr (s : State) (fs : List FieldSpec) (a : Nat) :
    Fr 0x1000000000000000000000000000000000000000000000000000000000000000000000000000000000000000000000000000000000000000000000000001 s (State.clearRC s fs a) := by
  unfold State.clearRC
  lift_lets -underBinder
  intro x1
  refine .ite ?_ ?_
  exact .refl ..
  refine .setReg ?_ (by decide) (.all (by decide))
  exact .refl ..

theorem State.afterRead_fr (s : State) (a : Nat) :
    Fr 0x100100000000000003fe10000000000000000000000000000000000000000000000000000000000000000000000001820300000000000000000000000ccf s (State.afterRead s a) := by
  unfold State.afterRead
  refine .ite ?_ ?_
  refine .call (State.windowRead_fr ..) ?_ (by decide)
  exact .refl ..
  refine .ite ?_ ?_
  refine .call (State.readView_fr ..) ?_ (by decide)
  exact .refl ..
  split
  refine .call (State.cfgReject_fr ..) ?_ (by decide)
  exact .refl ..
  refine .ite ?_ ?_
  refine .call (State.counterLive_fr ..) ?_ (by decide)
  exact .refl ..
  refine .call (State.readHook_fr ..) ?_ (by decide)
  refine .call (State.clearRC_fr ..) ?_ (by decide)
  exact .refl ..

theorem State.regRead_fr (s : State) (a : Nat) (k : Nat) :
    Fr 0x100101000000000003fe10000000000000000000000000000000000000000000000000000000000000000000000001820300000000000000000000200ccf s (State.regRead s a k) := by
  unfold State.regRead
  refine .ite ?_ ?_
  exact .refl ..
  (with_reducible apply State.access_fr) <;> [skip; skip; decide]
  exact .refl ..
  intro x1
  refine .ite ?_ ?_
  refine .call (State.cfgReject_fr ..) ?_ (by decide)
  refine .call (State.answerRead_fr ..) ?_ (by decide)
  exact .refl ..
  refine .call (State.answerRead_fr ..) ?_ (by decide)
  refine .call (State.afterRead_fr ..) ?_ (by decide)
  exact .refl ..

theorem execSpiRead_fr (ofs : BitVec 16) (s : State) :
    Runs 0x100101000000000017fe18000000000000000000000000000000000000000000000000000000000000000000000001820300000000000000000000200ccf s (execSpiRead ofs s) := by
  unfold execSpiRead
  refine .next ?_
  (with_reducible apply State.spiFrame_fr) <;> [skip; skip; decide]
  exact .refl ..
  intro x1
  lift_lets -underBinder
  intro x2 x3
  refine Fr.have x2 ?_ (fun hx2 => ?_) <;> [unfold x2; clear_value x2]
  refine .call (State.regRead_fr ..) ?_ (by decide)
  refine .call (State.linkSeen_fr ..) ?_ (by decide)
  exact .refl ..
  refine .call (State.spiServed_fr ..) ?_ (by decide)
  exact hx2

theorem execUpdateConfirm_fr (m : Fin 4) (tag : Byte) (t : Nat) (s : State) :
    Runs 0x160001011d00c0c9400000078000f08003fe2bc3000008104003f000000001ff80000010000020678006c0020011000000fe20120072a01f74b03cffffff s (execUpdateConfirm m tag t s) := by
  unfold execUpdateConfirm
  exact (State.mboxRow_fr ..).mono (by decide)

theorem State.imageFails_fr (s : State) :
    Fr 0x60000001c000090000000078000f080000003c20000080000000000000001fe80000010000000478006c00200110000000000120012200f04a038111e7f s (State.imageFails s) := by
  unfold State.imageFails
  refine .ite ?_ ?_
  (with_reducible apply Fr.call (State.bo_fr ..)) <;> first | (intro _; rfl) | decide | skip
  refine .wr ?_ (by decide) (.fld .BOOT_STATUS_IMAGE_VALID rfl (by decide))
  exact .refl ..
  refine .call (State.enterRecovery_fr ..) ?_ (by decide)
  exact .refl ..

theorem State.stepImage_fr (s : State) :
    Fr 0x60000001c3c1290000000078000f080000003c20000080000000000000001fe80000010000000478006c00200110000000000120012200f04a038111e7f s (State.stepImage s) := by
  unfold State.stepImage
  lift_lets -underBinder
  intro x1 x2 x3
  refine Fr.have x2 ?_ (fun hx2 => ?_) <;> [unfold x2; clear_value x2]
  refine .wr ?_ (by decide) (.fld .BOOT_IMAGE_INFO_SERIAL_BOUND rfl (by decide))
  refine .wr ?_ (by decide) (.fld .BOOT_IMAGE_INFO_SETTINGS_FMT rfl (by decide))
  refine .wr ?_ (by decide) (.fld .BOOT_IMAGE_VER_VERSION rfl (by decide))
  exact .refl ..
  refine Fr.have x3 ?_ (fun hx3 => ?_) <;> [unfold x3; clear_value x3]
  refine .wr ?_ (by decide) (.fld .BOOT_IMAGE_INFO_KEY_ID rfl (by decide))
  exact hx2
  refine .ite ?_ ?_
  refine .ite ?_ ?_
  refine .call (State.imageShow_fr ..) ?_ (by decide)
  refine .wr ?_ (by decide) (.fld .BOOT_STATUS_STEP rfl (by decide))
  refine .wr ?_ (by decide) (.fld .BOOT_STATUS_BIST_SKIPPED rfl (by decide))
  exact hx3
  refine .call (State.imageShow_fr ..) ?_ (by decide)
  refine .wr ?_ (by decide) (.fld .BOOT_STATUS_STEP rfl (by decide))
  exact hx3
  refine .call (State.imageFails_fr ..) ?_ (by decide)
  exact .refl ..

theorem State.loadTable_fr (s : State) (tab : List (Nat × Word)) (opt : Word) : Fr 0x800000002000000000000000000000000000000000000000000000000000000000000000000000000000000000000000000000000000000000000000001 s (State.loadTable s tab opt) := by
  unfold State.loadTable
  refine .wr (.foldl _ _ (.refl ..) fun y e => ?_) (by decide) (.fld .BOOT_SET_OPT_AUTO_SCAN rfl (by decide))
  split
  · exact .setReg (.refl ..) (by decide) (.range .r_BOOT_SET rfl (by decide) (by simp only [R.BOOT_SET_ADDR]; omega))
  · exact .refl ..

theorem State.takeSettings_fr (s : State) :
    Fr 0x800000002000000000000000000000000000000000000000000000000000000000000000000000000000000000000000000000000000000000000900001 s (State.takeSettings s) := by
  unfold State.takeSettings
  lift_lets -underBinder
  intro x1
  split
  unfold x1
  split
  beta_reduce
  refine .call (State.loadTable_fr ..) ?_ (by decide)
  exact .refl ..
  exact .refl ..
  split
  exact .refl ..
  unfold x1
  split
  beta_reduce
  split
  refine .call (State.setSave_fr ..) ?_ (by decide)
  refine .call (State.loadTable_fr ..) ?_ (by decide)
  exact .refl ..
  refine .call (State.setSave_fr ..) ?_ (by decide)
  exact .refl ..
  exact .refl ..

theorem State.loadSections_fr (s : State) : Fr 0x80 s (State.loadSections s) := by
  unfold State.loadSections
  lift_lets -underBinder
  intro x1
  with_reducible apply Fr.forN
  exact .refl ..
  intro x2 x3
  refine .call (State.onTiller_fr ..) ?_ (by decide)
  exact .refl ..

theorem State.store_fr (s : State) (r : RegSpec) (a : Nat) (w : Word) :
    Fr 0x1000000000000000000000000000000000000000000000000000000000000000000000000000000000000000000000000000000000000000000000000003 s (State.store s r a w) := by
  unfold State.store
  lift_lets -underBinder
  intro x1 x2
  refine .call (State.raiseIf_fr ..) ?_ (by decide)
  refine .setReg ?_ (by decide) (.all (by decide))
  exact .refl ..

theorem State.storeBut_fr (s : State) (r : RegSpec) (a : Nat) (w : Word) (fs : List Fld) :
    Fr 0x1000000000000000000000000000000000000000000000000000000000000000000000000000000000000000000000000000000000000000000000000003 s (State.storeBut s r a w fs) := by
  unfold State.storeBut
  refine .call (State.store_fr ..) ?_ (by decide)
  exact .refl ..

theorem State.wrLinkCtrl_fr (s : State) (r : RegSpec) (a : Nat) (w : Word) :
    Fr 0x102000000000008008000007800ff00000000000000000000000000000000000000000000000000000000000000000000000000000000000000000100803 s (State.wrLinkCtrl s r a w) := by
  unfold State.wrLinkCtrl
  lift_lets -underBinder
  intro x1 x2 x3
  refine Fr.have x1 ?_ (fun hx1 => ?_) <;> [unfold x1; clear_value x1]
  with_reducible apply Fr.when
  refine .call (State.storeBut_fr ..) ?_ (by decide)
  exact .refl ..
  intro x4
  refine .call (State.pcieDown_fr ..) ?_ (by decide)
  exact .refl ..
  refine Fr.have x2 ?_ (fun hx2 => ?_) <;> [unfold x2; clear_value x2]
  refine .ite ?_ ?_
  refine .wr ?_ (by decide) (.fld .LNK_CTRL_ETH0_EN rfl (by decide))
  exact hx1
  refine .call (State.ethOff_fr ..) ?_ (by decide)
  exact hx1
  refine Fr.have x3 ?_ (fun hx3 => ?_) <;> [unfold x3; clear_value x3]
  refine .ite ?_ ?_
  refine .wr ?_ (by decide) (.fld .LNK_CTRL_ETH1_EN rfl (by decide))
  exact hx2
  refine .call (State.ethOff_fr ..) ?_ (by decide)
  exact hx2
  refine .call (State.upChecks_fr ..) ?_ (by decide)
  exact hx3

theorem State.wrLNK_fr (s : State) (r : RegSpec) (m : Nat) (a : Nat) (i : Nat) (w : Word) (t : Nat) :
    Fr 0x10200100000000800c01e807fb9ff00000000000000000000000000000000000000000000000000000000000000000000000000000000000030000300807 s (State.wrLNK s r m a i w t) := by
  unfold State.wrLNK
  refine .ite ?_ ?_
  refine .call (State.wrLinkCtrl_fr ..) ?_ (by decide)
  exact .refl ..
  refine .ite ?_ ?_
  refine .call (State.lnkLanes_fr ..) ?_ (by decide)
  refine .call (State.store_fr ..) ?_ (by decide)
  exact .refl ..
  refine .ite ?_ ?_
  refine .call (State.storeBut_fr ..) ?_ (by decide)
  exact .refl ..
  refine .ite ?_ ?_
  with_reducible apply Fr.when
  exact .refl ..
  intro x1
  refine .call (State.laneFlapRelease_fr ..) ?_ (by decide)
  exact .refl ..
  refine .ite ?_ ?_
  refine .call (State.laneTest_fr ..) ?_ (by decide)
  exact .refl ..
  refine .ite ?_ ?_
  lift_lets -underBinder
  intro x2 x3
  refine Fr.have x2 ?_ (fun hx2 => ?_) <;> [unfold x2; clear_value x2]
  refine .call (State.storeBut_fr ..) ?_ (by decide)
  exact .refl ..
  refine Fr.have x3 ?_ (fun hx3 => ?_) <;> [unfold x3; clear_value x3]
  refine .ite ?_ ?_
  refine .call (State.halfEnable_fr ..) ?_ (by decide)
  exact hx2
  refine .call (State.halfDisable_fr ..) ?_ (by decide)
  exact hx2
  refine .ite ?_ ?_
  refine .call (State.halfEnable_fr ..) ?_ (by decide)
  exact hx3
  refine .call (State.halfDisable_fr ..) ?_ (by decide)
  exact hx3
  refine .ite ?_ ?_
  lift_lets -underBinder
  intro x4 x5
  refine Fr.have x4 ?_ (fun hx4 => ?_) <;> [unfold x4; clear_value x4]
  refine .call (State.store_fr ..) ?_ (by decide)
  refine .call (State.ptpSync_fr ..) ?_ (by decide)
  exact .refl ..
  refine Fr.have x5 ?_ (fun hx5 => ?_) <;> [unfold x5; clear_value x5]
  with_reducible apply Fr.when
  exact hx4
  intro x6
  refine .wr ?_ (by decide) (.fld .LNK_PTP_STATUS_SYNCED rfl (by decide))
  exact .refl ..
  with_reducible apply Fr.when
  exact hx5
  intro x7
  refine .call (State.ptpSnap_fr ..) ?_ (by decide)
  exact .refl ..
  refine .ite ?_ ?_
  refine .call (State.ptpRate_fr ..) ?_ (by decide)
  exact .refl ..
  refine .ite ?_ ?_
  refine .call (State.ptpStep_fr ..) ?_ (by decide)
  exact .refl ..
  refine .ite ?_ ?_
  refine .call (State.mboxClaim_fr ..) ?_ (by decide)
  exact .refl ..
  refine .ite ?_ ?_
  refine .call (State.flushMsix_fr ..) ?_ (by decide)
  refine .call (State.store_fr ..) ?_ (by decide)
  exact .refl ..
  refine .call (State.store_fr ..) ?_ (by decide)
  exact .refl ..

theorem State.wrSYS_fr (s : State) (r : RegSpec) (m : Nat) (a : Nat) (w : Word) (t : Nat) :
    Fr 0x160001011d00c0c9400000078000f08003fe2bc3000008104003f000000001ff80000010000020678006c0020011000000fe20120072a01f74bffcffffff s (State.wrSYS s r m a w t) := by
  unfold State.wrSYS
  refine .ite ?_ ?_
  split
  refine .call (State.refSel_fr ..) ?_ (by decide)
  with_reducible refine Fr.pair (by assumption) ?_
  refine .call (State.drawFree_fr ..) ?_ (by decide)
  exact .refl ..
  refine .ite ?_ ?_
  (with_reducible apply State.toScan_fr) <;> [skip; skip; decide]
  refine .call (State.store_fr ..) ?_ (by decide)
  exact .refl ..
  intro x1
  refine .call (State.derateCheck_fr ..) ?_ (by decide)
  exact .refl ..
  refine .ite ?_ ?_
  refine .call (State.mboxWrite_fr ..) ?_ (by decide)
  exact .refl ..
  refine .call (State.store_fr ..) ?_ (by decide)
  exact .refl ..

theorem State.wrSXT_fr (s : State) (r : RegSpec) (a : Nat) (w : Word) :
    Fr 0x100000000000000000000000000000000000000000000000000000000000003f800000000000000000000000000000000000000000000000002000010003 s (State.wrSXT s r a w) := by
  unfold State.wrSXT
  refine .ite ?_ ?_
  lift_lets -underBinder
  intro x1 x2 x3
  refine Fr.have x1 ?_ (fun hx1 => ?_) <;> [unfold x1; clear_value x1]
  refine .ite ?_ ?_
  refine .call (State.sxtEnable_fr ..) ?_ (by decide)
  exact .refl ..
  refine .call (State.sxtDisable_fr ..) ?_ (by decide)
  exact .refl ..
  refine Fr.have x2 ?_ (fun hx2 => ?_) <;> [unfold x2; clear_value x2]
  with_reducible apply Fr.when
  exact hx1
  intro x4
  refine .call (State.sxtArmCmd_fr ..) ?_ (by decide)
  exact .refl ..
  refine Fr.have x3 ?_ (fun hx3 => ?_) <;> [unfold x3; clear_value x3]
  with_reducible apply Fr.when
  exact hx2
  intro x5
  refine .call (State.cdtCommitCmd_fr ..) ?_ (by decide)
  exact .refl ..
  with_reducible apply Fr.when
  exact hx3
  intro x6
  refine .call (State.cdtRun_fr ..) ?_ (by decide)
  exact .refl ..
  refine .call (State.store_fr ..) ?_ (by decide)
  exact .refl ..

theorem State.wrChannel_fr (s : State) (r : RegSpec) (a : Nat) (c : Nat) (w : Word) :
    Fr 0x100000000000000000000000000000000000000000000000000000000000000000000000000000000000000000000000000000000c010000000000000013 s (State.wrChannel s r a c w) := by
  unfold State.wrChannel
  lift_lets -underBinder
  intro x1 x2 x3 x4
  refine Fr.have x3 ?_ (fun hx3 => ?_) <;> [unfold x3; clear_value x3]
  refine .call (State.store_fr ..) ?_ (by decide)
  exact .refl ..
  refine .ite ?_ ?_
  refine .ite ?_ ?_
  apply Fr.upd <;> first | show Fr _ _ _ | exact .inl rfl | exact .inr rfl | rfl
  exact hx3
  exact hx3
  refine .ite ?_ ?_
  refine .call (State.evalSilence_fr ..) ?_ (by decide)
  refine .wr ?_ (by decide) (.arr .DET_CH_CFG_K_EFF rfl (by decide))
  exact hx3
  exact hx3

theorem State.wrDET_fr (s : State) (r : RegSpec) (a : Nat) (i : Nat) (w : Word) :
    Fr 0x100000000000000000000000000000000000000000000000000000000000000000000000000000000000000000000000000000000c13f980000000000013 s (State.wrDET s r a i w) := by
  unfold State.wrDET
  refine .ite ?_ ?_
  lift_lets -underBinder
  intro x1 x2
  refine Fr.have x1 ?_ (fun hx1 => ?_) <;> [unfold x1; clear_value x1]
  refine .ite ?_ ?_
  refine .call (State.biasEnable_fr ..) ?_ (by decide)
  exact .refl ..
  refine .call (State.biasDisable_fr ..) ?_ (by decide)
  exact .refl ..
  refine Fr.have x2 ?_ (fun hx2 => ?_) <;> [unfold x2; clear_value x2]
  with_reducible apply Fr.when
  exact hx1
  intro x3
  refine .call (State.probeStart_fr ..) ?_ (by decide)
  exact .refl ..
  with_reducible apply Fr.when
  exact hx2
  intro x4
  refine .wr ?_ (by decide) (.fld .DET_STATUS_COMMIT_PENDING rfl (by decide))
  exact .refl ..
  refine .ite ?_ ?_
  with_reducible apply Fr.when
  exact .refl ..
  intro x5
  refine .call (State.biasFlapRelease_fr ..) ?_ (by decide)
  exact .refl ..
  refine .ite ?_ ?_
  lift_lets -underBinder
  intro x6 x7
  refine Fr.have x6 ?_ (fun hx6 => ?_) <;> [unfold x6; clear_value x6]
  refine .call (State.store_fr ..) ?_ (by decide)
  exact .refl ..
  refine .ite ?_ ?_
  exact hx6
  apply Fr.upd <;> first | show Fr _ _ _ | exact .inl rfl | exact .inr rfl | rfl
  exact hx6
  refine .ite ?_ ?_
  refine .call (State.wrChannel_fr ..) ?_ (by decide)
  exact .refl ..
  refine .call (State.store_fr ..) ?_ (by decide)
  exact .refl ..

theorem State.wrTilCfg_fr (s : State) (r : RegSpec) (a : Nat) (n : Nat) (w : Word) :
    Fr 0x1000000000000000000000000000000000000000000000000000000000000000000000000000000000000000000000000000000000000000000000000087 s (State.wrTilCfg s r a n w) := by
  unfold State.wrTilCfg
  lift_lets -underBinder
  intro x1 x2
  refine Fr.have x2 ?_ (fun hx2 => ?_) <;> [unfold x2; clear_value x2]
  refine .call (State.store_fr ..) ?_ (by decide)
  exact .refl ..
  refine .ite ?_ ?_
  split
  refine .call (State.onTiller_fr ..) ?_ (by decide)
  with_reducible refine Fr.pair (by assumption) ?_
  refine .call (State.sampleReload_fr ..) ?_ (by decide)
  exact hx2
  exact hx2

theorem State.wrTIL_fr (s : State) (r : RegSpec) (a : Nat) (n : Nat) (w : Word) (t : Nat) :
    Fr 0x10000100000000800000000000000000000001400000080000000000000001fe80000010000000000000000200010192030000120000000f00b03c3108ff s (State.wrTIL s r a n w t) := by
  unfold State.wrTIL
  refine .ite ?_ ?_
  with_reducible apply Fr.when
  with_reducible apply Fr.when
  exact .refl ..
  intro x1
  refine .call (State.groupRun_fr ..) ?_ (by decide)
  exact .refl ..
  intro x2
  refine .call (State.groupHalt_fr ..) ?_ (by decide)
  exact .refl ..
  refine .ite ?_ ?_
  refine .call (State.store_fr ..) ?_ (by decide)
  exact .refl ..
  refine .ite ?_ ?_
  lift_lets -underBinder
  intro x3 x4 x5
  refine Fr.have x3 ?_ (fun hx3 => ?_) <;> [unfold x3; clear_value x3]
  with_reducible apply Fr.when
  exact .refl ..
  intro x6
  refine .call (State.tilRun_fr ..) ?_ (by decide)
  exact .refl ..
  refine Fr.have x4 ?_ (fun hx4 => ?_) <;> [unfold x4; clear_value x4]
  with_reducible apply Fr.when
  exact hx3
  intro x7
  refine .call (State.tilHaltReq_fr ..) ?_ (by decide)
  exact .refl ..
  refine Fr.have x5 ?_ (fun hx5 => ?_) <;> [unfold x5; clear_value x5]
  with_reducible apply Fr.when
  exact hx4
  intro x8
  refine .call (State.tilStep_fr ..) ?_ (by decide)
  exact .refl ..
  with_reducible apply Fr.when
  exact hx5
  intro x9
  refine .call (State.tilInit_fr ..) ?_ (by decide)
  exact .refl ..
  refine .ite ?_ ?_
  refine .call (State.wrTilCfg_fr ..) ?_ (by decide)
  exact .refl ..
  refine .ite ?_ ?_
  refine .call (State.writePc_fr ..) ?_ (by decide)
  exact .refl ..
  refine .call (State.store_fr ..) ?_ (by decide)
  exact .refl ..

theorem State.wrTDC_fr (s : State) (r : RegSpec) (a : Nat) (w : Word) :
    Fr 0x100000000000000000000000000000000000000000000000000000000000000000000000000000000000000000000000000001f300000000000000000023 s (State.wrTDC s r a w) := by
  unfold State.wrTDC
  refine .ite ?_ ?_
  with_reducible apply Fr.when
  refine .call (State.store_fr ..) ?_ (by decide)
  exact .refl ..
  intro x1
  refine .wr ?_ (by decide) (.fld .TDC_STATUS_COMMIT_PENDING rfl (by decide))
  exact .refl ..
  refine .ite ?_ ?_
  lift_lets -underBinder
  intro x2 x3
  refine Fr.have x2 ?_ (fun hx2 => ?_) <;> [unfold x2; clear_value x2]
  refine .call (State.store_fr ..) ?_ (by decide)
  exact .refl ..
  refine .ite ?_ ?_
  exact hx2
  apply Fr.upd <;> first | show Fr _ _ _ | exact .inl rfl | exact .inr rfl | rfl
  exact hx2
  refine .ite ?_ ?_
  refine .call (State.testSource_fr ..) ?_ (by decide)
  exact .refl ..
  refine .ite ?_ ?_
  lift_lets -underBinder
  intro x4
  refine Fr.have x4 ?_ (fun hx4 => ?_) <;> [unfold x4; clear_value x4]
  refine .call (State.store_fr ..) ?_ (by decide)
  exact .refl ..
  refine .ite ?_ ?_
  exact hx4
  refine .call (State.trimTake_fr ..) ?_ (by decide)
  exact hx4
  refine .ite ?_ ?_
  lift_lets -underBinder
  intro x5
  refine Fr.have x5 ?_ (fun hx5 => ?_) <;> [unfold x5; clear_value x5]
  with_reducible apply Fr.when
  exact .refl ..
  intro x6
  refine .call (State.clearTdcSel_fr ..) ?_ (by decide)
  exact .refl ..
  with_reducible apply Fr.when
  exact hx5
  intro x7
  apply Fr.upd <;> first | show Fr _ _ _ | exact .inl rfl | exact .inr rfl | rfl
  exact .refl ..
  refine .ite ?_ ?_
  lift_lets -underBinder
  intro x8
  refine Fr.have x8 ?_ (fun hx8 => ?_) <;> [unfold x8; clear_value x8]
  refine .call (State.store_fr ..) ?_ (by decide)
  exact .refl ..
  with_reducible apply Fr.when
  exact hx8
  intro x9
  refine .call (State.snoopArm_fr ..) ?_ (by decide)
  exact .refl ..
  refine .call (State.store_fr ..) ?_ (by decide)
  exact .refl ..

theorem State.wrEVT_fr (s : State) (r : RegSpec) (a : Nat) (i : Nat) (w : Word) :
    Fr 0x1020010000000000000000000000000000000000000000000000000000000000000000000000000000000000000000000000000000000020000000200803 s (State.wrEVT s r a i w) := by
  unfold State.wrEVT
  refine .ite ?_ ?_
  refine .ite ?_ ?_
  exact .refl ..
  (with_reducible apply State.risingMsix_fr) <;> [skip; skip; decide]
  exact .refl ..
  intro x1
  refine .call (State.store_fr ..) ?_ (by decide)
  exact .refl ..
  refine .ite ?_ ?_
  refine .call (State.pendClear_fr ..) ?_ (by decide)
  exact .refl ..
  refine .ite ?_ ?_
  refine .ite ?_ ?_
  refine .call (State.forceEvent_fr ..) ?_ (by decide)
  exact .refl ..
  exact .refl ..
  refine .call (State.store_fr ..) ?_ (by decide)
  exact .refl ..

theorem State.wrMEM_fr (s : State) (r : RegSpec) (a : Nat) (i : Nat) (w : Word) :
    Fr 0x160001011d00c0c9400000078000f0df8ffe2ff3000008104003f000000001ff80000010000020678006c0020011000000fe20120072a01f04b03cffffff s (State.wrMEM s r a i w) := by
  unfold State.wrMEM
  refine .ite ?_ ?_
  lift_lets -underBinder
  intro x1 x2
  refine Fr.have x1 ?_ (fun hx1 => ?_) <;> [unfold x1; clear_value x1]
  refine .ite ?_ ?_
  refine .call (State.memEnable_fr ..) ?_ (by decide)
  exact .refl ..
  refine .call (State.memDisable_fr ..) ?_ (by decide)
  exact .refl ..
  refine Fr.have x2 ?_ (fun hx2 => ?_) <;> [unfold x2; clear_value x2]
  refine .ite ?_ ?_
  refine .call (State.srEnter_fr ..) ?_ (by decide)
  refine .wr ?_ (by decide) (.fld .MEM_CTRL_SR rfl (by decide))
  exact hx1
  refine .call (State.srLeave_fr ..) ?_ (by decide)
  refine .wr ?_ (by decide) (.fld .MEM_CTRL_SR rfl (by decide))
  exact hx1
  refine .call (State.memResume_fr ..) ?_ (by decide)
  with_reducible apply Fr.when
  exact hx2
  intro x3
  refine .call (State.memInit_fr ..) ?_ (by decide)
  exact .refl ..
  refine .ite ?_ ?_
  with_reducible apply Fr.when
  with_reducible apply Fr.when
  exact .refl ..
  intro x4
  refine .call (State.tempFlapRelease_fr ..) ?_ (by decide)
  exact .refl ..
  intro x5
  refine .call (State.hotFlapRelease_fr ..) ?_ (by decide)
  exact .refl ..
  refine .ite ?_ ?_
  with_reducible apply Fr.when
  exact .refl ..
  intro x6
  refine .call (State.panicFlapRelease_fr ..) ?_ (by decide)
  exact .refl ..
  refine .ite ?_ ?_
  refine .call (State.lk_fr ..) ?_ (by decide)
  refine .wr ?_ (by decide) (.fld .MEM_PB_RPTR_OFS rfl (by decide))
  refine .wr ?_ (by decide) (.fld .MEM_PB_WPTR_OFS rfl (by decide))
  refine .call (State.store_fr ..) ?_ (by decide)
  exact .refl ..
  refine .ite ?_ ?_
  refine .ite ?_ ?_
  refine .call (State.mrCommand_fr ..) ?_ (by decide)
  exact .refl ..
  refine .call (State.store_fr ..) ?_ (by decide)
  exact .refl ..
  refine .ite ?_ ?_
  with_reducible apply Fr.when
  exact .refl ..
  intro x7
  refine .call (State.sweepGo_fr ..) ?_ (by decide)
  exact .refl ..
  refine .call (State.store_fr ..) ?_ (by decide)
  exact .refl ..

theorem State.wrHLM_fr (s : State) (r : RegSpec) (a : Nat) (w : Word) :
    Fr 0x101000000000000000000000000000000000000000000000000000000000000000000000000000078037d400000000000000000000000000040000001003 s (State.wrHLM s r a w) := by
  unfold State.wrHLM
  refine .ite ?_ ?_
  lift_lets -underBinder
  intro x1 x2 x3 x4
  refine Fr.have x1 ?_ (fun hx1 => ?_) <;> [unfold x1; clear_value x1]
  refine .ite ?_ ?_
  refine .call (State.helmEnable_fr ..) ?_ (by decide)
  exact .refl ..
  refine .call (State.helmDisable_fr ..) ?_ (by decide)
  exact .refl ..
  refine Fr.have x2 ?_ (fun hx2 => ?_) <;> [unfold x2; clear_value x2]
  with_reducible apply Fr.when
  exact hx1
  intro x5
  refine .wr ?_ (by decide) (.fld .HLM_STATUS_COMMIT_PENDING rfl (by decide))
  exact .refl ..
  refine Fr.have x3 ?_ (fun hx3 => ?_) <;> [unfold x3; clear_value x3]
  with_reducible apply Fr.when
  exact hx2
  intro x6
  refine .call (State.helmFaultClear_fr ..) ?_ (by decide)
  exact .refl ..
  refine Fr.have x4 ?_ (fun hx4 => ?_) <;> [unfold x4; clear_value x4]
  with_reducible apply Fr.when
  exact hx3
  intro x7
  refine .call (State.traceArm_fr ..) ?_ (by decide)
  exact .refl ..
  with_reducible apply Fr.when
  exact hx4
  intro x8
  refine .call (State.traceTrigger_fr ..) ?_ (by decide)
  exact .refl ..
  refine .ite ?_ ?_
  with_reducible apply Fr.when
  refine .call (State.store_fr ..) ?_ (by decide)
  exact .refl ..
  intro x9
  refine .call (State.lockFlapRelease_fr ..) ?_ (by decide)
  exact .refl ..
  refine .ite ?_ ?_
  refine .call (State.speedRef_fr ..) ?_ (by decide)
  exact .refl ..
  refine .call (State.store_fr ..) ?_ (by decide)
  exact .refl ..

theorem State.wrMER_fr (s : State) (r : RegSpec) (a : Nat) (w : Word) (t : Nat) :
    Fr 0x10000000000000000000000000000000000000000000000000000000000000003efc227c000000000000000000000000000000000000000000400000c007 s (State.wrMER s r a w t) := by
  unfold State.wrMER
  refine .ite ?_ ?_
  lift_lets -underBinder
  intro x1 x2
  refine Fr.have x1 ?_ (fun hx1 => ?_) <;> [unfold x1; clear_value x1]
  refine .ite ?_ ?_
  refine .call (State.merEnable_fr ..) ?_ (by decide)
  exact .refl ..
  refine .call (State.merDisable_fr ..) ?_ (by decide)
  exact .refl ..
  refine Fr.have x2 ?_ (fun hx2 => ?_) <;> [unfold x2; clear_value x2]
  with_reducible apply Fr.when
  exact hx1
  intro x3
  refine .call (State.rtRestart_fr ..) ?_ (by decide)
  exact .refl ..
  with_reducible apply Fr.when
  exact hx2
  intro x4
  refine .call (State.trigSend_fr ..) ?_ (by decide)
  exact .refl ..
  refine .ite ?_ ?_
  lift_lets -underBinder
  intro x5 x6 x7
  refine Fr.have x5 ?_ (fun hx5 => ?_) <;> [unfold x5; clear_value x5]
  refine .put ?_ (by decide) (.fld .MER_CAP_CTRL_CONT rfl (by decide))
  exact .refl ..
  refine Fr.have x6 ?_ (fun hx6 => ?_) <;> [unfold x6; clear_value x6]
  refine .ite ?_ ?_
  refine .call (State.capDisable_fr ..) ?_ (by decide)
  exact hx5
  refine .ite ?_ ?_
  refine .wr ?_ (by decide) (.fld .MER_CAP_CTRL_EN rfl (by decide))
  exact hx5
  refine .call (State.capEnable_fr ..) ?_ (by decide)
  exact hx5
  refine Fr.have x7 ?_ (fun hx7 => ?_) <;> [unfold x7; clear_value x7]
  with_reducible apply Fr.when
  exact hx6
  intro x8
  refine .call (State.capArm_fr ..) ?_ (by decide)
  exact .refl ..
  with_reducible apply Fr.when
  exact hx7
  intro x9
  refine .call (State.capEvent_fr ..) ?_ (by decide)
  exact .refl ..
  refine .call (State.store_fr ..) ?_ (by decide)
  exact .refl ..

theorem State.wrTraceRptr_fr (s : State) (r : RegSpec) (a : Nat) (w : Word) :
    Fr 0x1000000000000000000000000000000000000000000000000000000000000000000000000000000000000000000000000000000000000000000000200003 s (State.wrTraceRptr s r a w) := by
  unfold State.wrTraceRptr
  lift_lets -underBinder
  intro x1 x2 x3 x4
  refine Fr.have x1 ?_ (fun hx1 => ?_) <;> [unfold x1; clear_value x1]
  refine .call (State.store_fr ..) ?_ (by decide)
  exact .refl ..
  refine Fr.have x4 ?_ (fun hx4 => ?_) <;> [unfold x4; clear_value x4]
  apply Fr.upd <;> first | show Fr _ _ _ | exact .inl rfl | exact .inr rfl | rfl
  exact hx1
  refine .call (State.traceLevel_fr ..) ?_ (by decide)
  exact hx4

theorem State.wrOBS_fr (s : State) (r : RegSpec) (a : Nat) (i : Nat) (w : Word) (t : Nat) :
    Fr 0x1040bc2e00000000000000000000000000000000000000000000000000000000000000000000000000000000000000000000000000000000000000200003 s (State.wrOBS s r a i w t) := by
  unfold State.wrOBS
  refine .ite ?_ ?_
  lift_lets -underBinder
  intro x1
  refine Fr.have x1 ?_ (fun hx1 => ?_) <;> [unfold x1; clear_value x1]
  with_reducible apply Fr.when
  refine .call (State.store_fr ..) ?_ (by decide)
  exact .refl ..
  intro x2
  refine .call (State.snapRequest_fr ..) ?_ (by decide)
  exact .refl ..
  with_reducible apply Fr.when
  exact hx1
  intro x3
  refine .call (State.clearCounters_fr ..) ?_ (by decide)
  exact .refl ..
  refine .ite ?_ ?_
  refine .call (State.traceLevel_fr ..) ?_ (by decide)
  with_reducible apply Fr.when
  refine .call (State.store_fr ..) ?_ (by decide)
  exact .refl ..
  intro x4
  refine .call (State.traceClear_fr ..) ?_ (by decide)
  exact .refl ..
  refine .ite ?_ ?_
  refine .call (State.wrTraceRptr_fr ..) ?_ (by decide)
  exact .refl ..
  refine .ite ?_ ?_
  refine .wr ?_ (by decide) (.fld .OBS_TRC_RING_RPTR_OFS rfl (by decide))
  refine .wr ?_ (by decide) (.fld .OBS_TRC_RING_WPTR_OFS rfl (by decide))
  refine .call (State.store_fr ..) ?_ (by decide)
  exact .refl ..
  refine .ite ?_ ?_
  refine .call (State.counterConfig_fr ..) ?_ (by decide)
  exact .refl ..
  refine .call (State.store_fr ..) ?_ (by decide)
  exact .refl ..

theorem State.wrEMI_fr (s : State) (r : RegSpec) (a : Nat) (w : Word) :
    Fr 0x10000000000000800000000000000000000001400000080000000000000001fe8000001000000000000000022af7c400000000120000000f08b03c110a7b s (State.wrEMI s r a w) := by
  unfold State.wrEMI
  refine .ite ?_ ?_
  lift_lets -underBinder
  intro x1 x2 x3
  refine Fr.have x1 ?_ (fun hx1 => ?_) <;> [unfold x1; clear_value x1]
  refine .ite ?_ ?_
  refine .call (State.emiEnable_fr ..) ?_ (by decide)
  exact .refl ..
  refine .call (State.emiDisable_fr ..) ?_ (by decide)
  exact .refl ..
  refine Fr.have x2 ?_ (fun hx2 => ?_) <;> [unfold x2; clear_value x2]
  with_reducible apply Fr.when
  exact hx1
  intro x4
  refine .call (State.faultClr_fr ..) ?_ (by decide)
  exact .refl ..
  refine Fr.have x3 ?_ (fun hx3 => ?_) <;> [unfold x3; clear_value x3]
  with_reducible apply Fr.when
  exact hx2
  intro x5
  refine .wr ?_ (by decide) (.fld .EMI_STATUS_COMMIT_PENDING rfl (by decide))
  exact .refl ..
  with_reducible apply Fr.when
  exact hx3
  intro x6
  refine .call (State.shortTest_fr ..) ?_ (by decide)
  exact .refl ..
  refine .ite ?_ ?_
  with_reducible apply Fr.when
  exact .refl ..
  intro x7
  refine .call (State.lbFlapRelease_fr ..) ?_ (by decide)
  exact .refl ..
  refine .ite ?_ ?_
  lift_lets -underBinder
  intro x8
  refine Fr.have x8 ?_ (fun hx8 => ?_) <;> [unfold x8; clear_value x8]
  refine .call (State.store_fr ..) ?_ (by decide)
  exact .refl ..
  refine .ite ?_ ?_
  exact hx8
  refine .call (State.emiSample_fr ..) ?_ (by decide)
  exact hx8
  refine .ite ?_ ?_
  lift_lets -underBinder
  intro x9 x10
  refine Fr.have x9 ?_ (fun hx9 => ?_) <;> [unfold x9; clear_value x9]
  refine .call (State.store_fr ..) ?_ (by decide)
  exact .refl ..
  refine .ite ?_ ?_
  apply Fr.upd <;> first | show Fr _ _ _ | exact .inl rfl | exact .inr rfl | rfl
  exact hx9
  exact hx9
  refine .ite ?_ ?_
  lift_lets -underBinder
  intro x11
  refine Fr.have x11 ?_ (fun hx11 => ?_) <;> [unfold x11; clear_value x11]
  refine .call (State.lbRecheck_fr ..) ?_ (by decide)
  refine .call (State.storeBut_fr ..) ?_ (by decide)
  exact .refl ..
  refine .ite ?_ ?_
  refine .call (State.lbEnable_fr ..) ?_ (by decide)
  exact hx11
  refine .call (State.lbDisable_fr ..) ?_ (by decide)
  exact hx11
  refine .ite ?_ ?_
  refine .call (State.lbRecheck_fr ..) ?_ (by decide)
  refine .call (State.store_fr ..) ?_ (by decide)
  exact .refl ..
  refine .ite ?_ ?_
  refine .call (State.lineClear_fr ..) ?_ (by decide)
  exact .refl ..
  refine .ite ?_ ?_
  refine .call (State.lineClear_fr ..) ?_ (by decide)
  exact .refl ..
  refine .ite ?_ ?_
  refine .call (State.lineClear_fr ..) ?_ (by decide)
  exact .refl ..
  refine .call (State.store_fr ..) ?_ (by decide)
  exact .refl ..

theorem State.wrHIS_fr (s : State) (r : RegSpec) (a : Nat) (w : Word) :
    Fr 0x1000000000000000000000000000000000000000000000000000000000000000000000000000000000000000000000000000200000000000000000000043 s (State.wrHIS s r a w) := by
  unfold State.wrHIS
  with_reducible apply Fr.when
  refine .call (State.store_fr ..) ?_ (by decide)
  exact .refl ..
  intro x1
  refine .call (State.hisWritten_fr ..) ?_ (by decide)
  exact .refl ..

theorem State.wrHDG_fr (s : State) (r : RegSpec) (a : Nat) (w : Word) :
    Fr 0x1000000000000000000000000000000000000000000000000000000000000000000000000000004000000000000000000000000000000000000000000003 s (State.wrHDG s r a w) := by
  unfold State.wrHDG
  refine .ite ?_ ?_
  with_reducible apply Fr.when
  exact .refl ..
  intro x1
  refine .call (State.sealLock_fr ..) ?_ (by decide)
  exact .refl ..
  refine .call (State.store_fr ..) ?_ (by decide)
  exact .refl ..

theorem State.unretireSensor_fr (s : State) (k : Nat) :
    Fr 0x68585000000000000000000000000000000000000000000000000000000000000000000000000000003 s (State.unretireSensor s k) := by
  unfold State.unretireSensor
  refine .ite ?_ ?_
  refine .call (State.cfgReject_fr ..) ?_ (by decide)
  exact .refl ..
  refine .call (State.thermSettle_fr ..) ?_ (by decide)
  refine .wr ?_ (by decide) (.fld .THM_RETIRED_MASK rfl (by decide))
  refine .wr ?_ (by decide) (.arr .THM_SNS_ST_STATE rfl (by decide))
  exact .refl ..

theorem State.wrRetired_fr (s : State) (w : Word) :
    Fr 0x68585000000000000000000000000000000000000000000000000000000000000000000000000000003 s (State.wrRetired s w) := by
  unfold State.wrRetired
  with_reducible apply Fr.forN
  exact .refl ..
  intro x1 x2
  lift_lets -underBinder
  intro x3 x4
  refine .ite ?_ ?_
  refine .call (State.retireSensor_fr ..) ?_ (by decide)
  exact .refl ..
  refine .ite ?_ ?_
  refine .call (State.unretireSensor_fr ..) ?_ (by decide)
  exact .refl ..
  exact .refl ..

theorem State.wrTHM_fr (s : State) (r : RegSpec) (a : Nat) (w : Word) :
    Fr 0x10000000000000000000000000000000000000000e878f000000000000000000000000000000000000000000000100000000000000000000000000080003 s (State.wrTHM s r a w) := by
  unfold State.wrTHM
  refine .ite ?_ ?_
  with_reducible apply Fr.when
  exact .refl ..
  intro x1
  refine .call (State.thmFlapRelease_fr ..) ?_ (by decide)
  exact .refl ..
  refine .ite ?_ ?_
  refine .call (State.snsCtrl_fr ..) ?_ (by decide)
  exact .refl ..
  refine .ite ?_ ?_
  refine .call (State.wrRetired_fr ..) ?_ (by decide)
  exact .refl ..
  refine .ite ?_ ?_
  refine .call (State.showThrottle_fr ..) ?_ (by decide)
  refine .call (State.store_fr ..) ?_ (by decide)
  exact .refl ..
  refine .call (State.store_fr ..) ?_ (by decide)
  exact .refl ..

theorem State.wrADC_fr (s : State) (r : RegSpec) (a : Nat) (i : Nat) (w : Word) (t : Nat) :
    Fr 0x100000000000000000000000000000000000000000000000000003bf89e80000000000000000000000000000000000000000000000000000000000020003 s (State.wrADC s r a i w t) := by
  unfold State.wrADC
  refine .ite ?_ ?_
  refine .ite ?_ ?_
  refine .call (State.adcEnable_fr ..) ?_ (by decide)
  exact .refl ..
  refine .call (State.adcDisable_fr ..) ?_ (by decide)
  exact .refl ..
  refine .ite ?_ ?_
  refine .call (State.urgentWrite_fr ..) ?_ (by decide)
  exact .refl ..
  refine .ite ?_ ?_
  with_reducible apply Fr.forN
  exact .refl ..
  intro x1 x2
  with_reducible apply Fr.when
  exact .refl ..
  intro x3
  refine .call (State.rangeFlapRelease_fr ..) ?_ (by decide)
  exact .refl ..
  refine .ite ?_ ?_
  split
  refine .call (State.feCfgWrite_fr ..) ?_ (by decide)
  exact .refl ..
  refine .call (State.fePulseWrite_fr ..) ?_ (by decide)
  exact .refl ..
  refine .call (State.feSwapWrite_fr ..) ?_ (by decide)
  exact .refl ..
  with_reducible apply Fr.when
  exact .refl ..
  intro x4
  refine .call (State.excFlapRelease_fr ..) ?_ (by decide)
  exact .refl ..
  refine .call (State.keepEntry_fr ..) ?_ (by decide)
  refine .call (State.store_fr ..) ?_ (by decide)
  exact .refl ..

theorem State.wrCAL_fr (s : State) (r : RegSpec) (a : Nat) (w : Word) :
    Fr 0x10000000000000000000000000000000000000000000004c4078440000000000000000000000000000000000000000000000000076010000000000840003 s (State.wrCAL s r a w) := by
  unfold State.wrCAL
  refine .ite ?_ ?_
  with_reducible apply Fr.when
  exact .refl ..
  intro x1
  refine .call (State.rzFlapRelease_fr ..) ?_ (by decide)
  exact .refl ..
  refine .ite ?_ ?_
  with_reducible apply Fr.when
  exact .refl ..
  intro x2
  refine .call (State.clrField_fr ..) ?_ (by decide)
  exact .refl ..
  refine .ite ?_ ?_
  with_reducible apply Fr.when
  exact .refl ..
  intro x3
  refine .call (State.journalSave_fr ..) ?_ (by decide)
  exact .refl ..
  refine .ite ?_ ?_
  with_reducible apply Fr.when
  exact .refl ..
  intro x4
  refine .call (State.legCommit_fr ..) ?_ (by decide)
  exact .refl ..
  refine .ite ?_ ?_
  with_reducible apply Fr.when
  exact .refl ..
  intro x5
  refine .call (State.fuseBurn_fr ..) ?_ (by decide)
  exact .refl ..
  refine .call (State.store_fr ..) ?_ (by decide)
  exact .refl ..

theorem State.wrBOOT_fr (s : State) (r : RegSpec) (a : Nat) (w : Word) (t : Nat) :
    Fr 0x1000010131000040000000000000000003fe2940000000000000000000000000000000000000000000000000000000000000000000000000008000b00407 s (State.wrBOOT s r a w t) := by
  unfold State.wrBOOT
  refine .ite ?_ ?_
  lift_lets -underBinder
  intro x1
  refine Fr.have x1 ?_ (fun hx1 => ?_) <;> [unfold x1; clear_value x1]
  with_reducible apply Fr.when
  exact .refl ..
  intro x2
  refine .call (State.hdlSend_fr ..) ?_ (by decide)
  exact .refl ..
  with_reducible apply Fr.when
  exact hx1
  intro x3
  refine .call (State.hdlConfirm_fr ..) ?_ (by decide)
  exact .refl ..
  refine .call (State.store_fr ..) ?_ (by decide)
  exact .refl ..

theorem State.wrBlock_fr (s : State) (r : RegSpec) (m : Nat) (a : Nat) (i : Nat) (w : Word) (t : Nat) :
    Fr 0x1670bd2f3d00c0c94c01e807fb9ff0df8ffe2ff30e878f5c407bf7bf89e801ffbefc227c000020678037d4022af7c59203fe21f37e73f9bf7ffffcffffff s (State.wrBlock s r m a i w t) := by
  unfold State.wrBlock
  refine .ite ?_ ?_
  refine .call (State.wrSYS_fr ..) ?_ (by decide)
  exact .refl ..
  refine .ite ?_ ?_
  refine .call (State.wrEVT_fr ..) ?_ (by decide)
  exact .refl ..
  refine .ite ?_ ?_
  refine .call (State.wrDET_fr ..) ?_ (by decide)
  exact .refl ..
  refine .ite ?_ ?_
  refine .call (State.wrTDC_fr ..) ?_ (by decide)
  exact .refl ..
  refine .ite ?_ ?_
  refine .call (State.wrHIS_fr ..) ?_ (by decide)
  exact .refl ..
  refine .ite ?_ ?_
  (with_reducible apply State.toScan_fr) <;> [skip; skip; decide]
  exact .refl ..
  intro x1
  refine .call (State.wrTIL_fr ..) ?_ (by decide)
  exact .refl ..
  refine .ite ?_ ?_
  (with_reducible apply State.toScan_fr) <;> [skip; skip; decide]
  exact .refl ..
  intro x2
  refine .call (State.wrEMI_fr ..) ?_ (by decide)
  exact .refl ..
  refine .ite ?_ ?_
  refine .call (State.wrHLM_fr ..) ?_ (by decide)
  exact .refl ..
  refine .ite ?_ ?_
  refine .call (State.wrHDG_fr ..) ?_ (by decide)
  exact .refl ..
  refine .ite ?_ ?_
  refine .call (State.wrMER_fr ..) ?_ (by decide)
  exact .refl ..
  refine .ite ?_ ?_
  refine .call (State.wrSXT_fr ..) ?_ (by decide)
  exact .refl ..
  refine .ite ?_ ?_
  refine .call (State.wrADC_fr ..) ?_ (by decide)
  exact .refl ..
  refine .ite ?_ ?_
  refine .call (State.wrCAL_fr ..) ?_ (by decide)
  exact .refl ..
  refine .ite ?_ ?_
  refine .call (State.wrTHM_fr ..) ?_ (by decide)
  exact .refl ..
  refine .ite ?_ ?_
  refine .call (State.wrMEM_fr ..) ?_ (by decide)
  exact .refl ..
  refine .ite ?_ ?_
  refine .call (State.wrLNK_fr ..) ?_ (by decide)
  exact .refl ..
  refine .ite ?_ ?_
  refine .call (State.wrBOOT_fr ..) ?_ (by decide)
  exact .refl ..
  refine .call (State.wrOBS_fr ..) ?_ (by decide)
  exact .refl ..

theorem State.writeWord_fr (s : State) (m : Nat) (a : Nat) (w : Word) (t : Nat) :
    Fr 0x1670bd2f3d00c0c94c01e807fb9ff0df8ffe2ff30e878f5c407bf7bf89e801ffbefc227c000020678037d4022af7c59203fe21f37e73f9bf7ffffcffffff s (State.writeWord s m a w t) := by
  unfold State.writeWord
  refine .ite ?_ ?_
  refine .call (State.windowWrite_fr ..) ?_ (by decide)
  exact .refl ..
  refine .ite ?_ ?_
  lift_lets -underBinder
  intro x1
  refine .call (State.seedWrite_fr ..) ?_ (by decide)
  exact .refl ..
  split
  refine .call (State.cfgReject_fr ..) ?_ (by decide)
  exact .refl ..
  refine .ite ?_ ?_
  exact .refl ..
  refine .ite ?_ ?_
  refine .call (State.cfgReject_fr ..) ?_ (by decide)
  exact .refl ..
  refine .call (State.wrBlock_fr ..) ?_ (by decide)
  exact .refl ..

theorem State.regWrite_fr (s : State) (m : Nat) (a : Nat) (w : Word) (t : Nat) :
    Fr 0x1670bd2f3d00c0c94c01e807fb9ff0df8ffe2ff30e878f5c407bf7bf89e801ffbefc227c000020678037d4022af7c59203fe21f37e73f9bf7ffffcffffff s (State.regWrite s m a w t) := by
  unfold State.regWrite
  (with_reducible apply State.access_fr) <;> [skip; skip; decide]
  exact .refl ..
  intro x1
  refine .ite ?_ ?_
  refine .call (State.writeWord_fr ..) ?_ (by decide)
  exact .refl ..
  refine .call (State.cfgReject_fr ..) ?_ (by decide)
  exact .refl ..

theorem State.skipEntry_fr (s : State) (raised : Bool) (t : Nat) :
    Fr 0x100000002000000000000000000000000000000000000000000000000000000000000000000000000000000000000000000000000000000100003 s (State.skipEntry s raised t) := by
  unfold State.skipEntry
  lift_lets -underBinder
  intro x1
  refine Fr.have x1 ?_ (fun hx1 => ?_) <;> [unfold x1; clear_value x1]
  refine .wr ?_ (by decide) (.fld .BOOT_STATUS_SET_REJ rfl (by decide))
  exact .refl ..
  refine .ite ?_ ?_
  exact hx1
  refine .call (State.logEntry_fr ..) ?_ (by decide)
  exact hx1

theorem State.applyEntry_fr (s : State) (i : Nat) (t : Nat) :
    Fr 0x1670bd2f3d00c0cb4c01e807fb9ff0df8ffe2ff30e878f5c407bf7bf89e801ffbefc227c000020678037d4022af7c59203fe21f37e73f9bf7ffffcffffff s (State.applyEntry s i t) := by
  unfold State.applyEntry
  lift_lets -underBinder
  intro x1 x2 x3
  refine Fr.have x3 ?_ (fun hx3 => ?_) <;> [unfold x3; clear_value x3]
  refine .call (State.regWrite_fr ..) ?_ (by decide)
  exact .refl ..
  refine .ite ?_ ?_
  refine .call (State.skipEntry_fr ..) ?_ (by decide)
  exact .refl ..
  refine .ite ?_ ?_
  refine .call (State.skipEntry_fr ..) ?_ (by decide)
  exact hx3
  exact hx3

theorem State.applyEntries_fr (s : State) (t : Nat) :
    Fr 0x1670bd2f3d00c0cb4c01e807fb9ff0df8ffe2ff30e878f5c407bf7bf89e801ffbefc227c000020678037d4022af7c59203fe21f37e73f9bf7ffffcffffff s (State.applyEntries s t) := by
  unfold State.applyEntries
  with_reducible apply Fr.foldl
  exact .refl ..
  intro x1 x2
  refine .call (State.applyEntry_fr ..) ?_ (by decide)
  exact .refl ..

theorem State.freeDelays_fr (s : State) (failing : Nat) :
    Fr 0xc0000000000000000000000000000000000000000000000000000000000000000000000000000000000000000000005 s (State.freeDelays s failing) := by
  unfold State.freeDelays
  lift_lets -underBinder
  intro x1 x2 x3
  refine Fr.have x3 ?_ (fun hx3 => ?_) <;> [unfold x3; clear_value x3]
  with_reducible apply Fr.forN
  exact .refl ..
  intro x4 x5
  refine .wr ?_ (by decide) (.arr2 .MEM_DLY_RD rfl (by decide))
  refine .wr ?_ (by decide) (.arr2 .MEM_DLY_WR rfl (by decide))
  exact .refl ..
  apply Fr.upd <;> first | show Fr _ _ _ | exact .inl rfl | exact .inr rfl | rfl
  exact hx3

theorem State.trainDram_fr (s : State) (failing : Nat) (t : Nat) :
    Fr 0x160000001c02c090000000078000fd80000003c2000008104001f000000001ff80000010000020678006c00200110000002a20120012200f04a038ffffff s (State.trainDram s failing t) := by
  unfold State.trainDram
  lift_lets -underBinder
  intro x1 x2 x3 x4 x5 x6
  refine Fr.have x2 ?_ (fun hx2 => ?_) <;> [unfold x2; skip]
  apply Fr.upd <;> first | show Fr _ _ _ | exact .inl rfl | exact .inr rfl | rfl
  exact .refl ..
  refine Fr.have x3 ?_ (fun hx3 => ?_) <;> [unfold x3; skip]
  refine .call (State.freeDelays_fr ..) ?_ (by decide)
  refine .wr ?_ (by decide) (.fld .MEM_STATUS_STATE rfl (by decide))
  refine .call (State.memEnable_fr ..) ?_ (by decide)
  exact hx2
  refine Fr.have x4 ?_ (fun hx4 => ?_) <;> [unfold x4; skip]
  refine .call (State.lose_fr ..) ?_ (by decide)
  exact hx3
  refine Fr.have x5 ?_ (fun hx5 => ?_) <;> [unfold x5; skip]
  refine .wr ?_ (by decide) (.fld .MEM_TRN_STATE_FAIL rfl (by decide))
  refine .wr ?_ (by decide) (.fld .MEM_TRN_STATE_VALID rfl (by decide))
  exact hx4
  refine .ite ?_ ?_
  refine .call (State.failStart_fr ..) ?_ (by decide)
  refine .wr ?_ (by decide) (.fld .MEM_TRN_STATE_VALID rfl (by decide))
  refine .wr ?_ (by decide) (.fld .MEM_TRN_STATE_FAIL rfl (by decide))
  exact hx4
  refine .ite ?_ ?_
  (with_reducible refine Fr.dramUpd ?_ ?_ ?_ ?_) <;> [skip; exact (by decide); exact (by decide); first | exact fun _ => rfl | exact Mem.wf_store _ _ _ _]
  exact hx5
  exact hx5

theorem State.stepDram_fr (s : State) (failing : Nat) (nominal : Bool) (t : Nat) :
    Fr 0x160000001c02c490000000078000fd80000003c2000008104001f000000001ff80000010000020678006c00200110000002a20120012200f04a038ffffff s (State.stepDram s failing nominal t) := by
  unfold State.stepDram
  refine .ite ?_ ?_
  refine .wr ?_ (by decide) (.fld .BOOT_STATUS_TRAIN_SKIPPED rfl (by decide))
  refine .wr ?_ (by decide) (.fld .MEM_STATUS_STATE rfl (by decide))
  refine .call (State.memEnable_fr ..) ?_ (by decide)
  exact .refl ..
  refine .call (State.trainDram_fr ..) ?_ (by decide)
  exact .refl ..

theorem State.stepLoader_fr (s : State) :
    Fr 0x60000001c0010b0000000078000f080000003c20000080000000000000001fe80000010000000478006c00200110000000000120012200f04a038111e7f s (State.stepLoader s) := by
  unfold State.stepLoader
  lift_lets -underBinder
  intro x1
  refine .ite ?_ ?_
  refine .wr ?_ (by decide) (.fld .BOOT_STATUS_STEP rfl (by decide))
  refine .wr ?_ (by decide) (.fld .BOOT_STATUS_LOADER_VALID rfl (by decide))
  exact .refl ..
  refine .call (State.imageFails_fr ..) ?_ (by decide)
  exact .refl ..

theorem State.startTillers_fr (s : State) :
    Fr 0x100000000800000000000000000000001400000080000000000000001fe80000010000000000000000200010093e00000120000000f00b03c3508fb s (State.startTillers s) := by
  unfold State.startTillers
  refine .ite ?_ ?_
  exact .refl ..
  lift_lets -underBinder
  intro x1
  refine Fr.have x1 ?_ (fun hx1 => ?_) <;> [unfold x1; clear_value x1]
  with_reducible apply Fr.forN
  exact .refl ..
  intro x2 x3
  refine .ite ?_ ?_
  lift_lets -underBinder
  intro x4
  refine Fr.have x4 ?_ (fun hx4 => ?_) <;> [unfold x4; clear_value x4]
  refine .wr ?_ (by decide) (.arr .TIL_CFG_TRAP_MODE rfl (by decide))
  refine .wr ?_ (by decide) (.arr .TIL_CFG_POISON_ZERO rfl (by decide))
  refine .wr ?_ (by decide) (.arr .TIL_CFG_MSG_ATTN rfl (by decide))
  exact .refl ..
  refine .call (State.tilRun_fr ..) ?_ (by decide)
  refine .call (State.onTiller_fr ..) ?_ (by decide)
  refine .wr ?_ (by decide) (.arr .TIL_ATTN_CFG_DL_ALARM rfl (by decide))
  exact hx4
  exact .refl ..
  refine .call (State.pagesOut_fr ..) ?_ (by decide)
  exact hx1

theorem State.applyField_fr (s : State) : Fr 0x77014000000000000003 s (State.applyField s) := by
  unfold State.applyField
  refine .call (State.evalSilence_fr ..) ?_ (by decide)
  refine .call (State.copyMasks_fr ..) ?_ (by decide)
  with_reducible apply Fr.forN
  exact .refl ..
  intro x1 x2
  refine .call (State.setMaskShadow_fr ..) ?_ (by decide)
  exact .refl ..

theorem State.applyJrn_fr (s : State) (r : JrnRec) :
    Fr 0xc04800000000600000000000000000000000003020002180000001001f7014000000000050023 s (State.applyJrn s r) := by
  unfold State.applyJrn
  lift_lets -underBinder
  intro x1 x2 x3 x4 x5 x6
  refine Fr.have x1 ?_ (fun hx1 => ?_) <;> [unfold x1; clear_value x1]
  refine .call (State.tdcCopy_fr ..) ?_ (by decide)
  with_reducible apply Fr.forN
  exact .refl ..
  intro x7 x8
  refine .call (State.putLut_fr ..) ?_ (by decide)
  exact .refl ..
  refine Fr.have x2 ?_ (fun hx2 => ?_) <;> [unfold x2; clear_value x2]
  unfold State.putCdtShadow
  with_reducible apply Fr.forN
  with_reducible apply Fr.forN
  exact hx1
  intro x9 x10
  refine .setReg ?_ (by decide) (.words .w_SXT_CDT_START rfl (by decide))
  exact .refl ..
  intro x11 x12
  refine .setReg ?_ (by decide) (.words .w_SXT_CDT_STOP rfl (by decide))
  exact .refl ..
  refine Fr.have x3 ?_ (fun hx3 => ?_) <;> [unfold x3; clear_value x3]
  refine .call (State.cl_fr ..) ?_ (by decide)
  refine .call (State.cdtCommit_fr ..) ?_ (by decide)
  exact hx2
  refine Fr.have x4 ?_ (fun hx4 => ?_) <;> [unfold x4; clear_value x4]
  refine .call (State.applyField_fr ..) ?_ (by decide)
  exact hx3
  refine Fr.have x5 ?_ (fun hx5 => ?_) <;> [unfold x5; clear_value x5]
  refine .call (State.curveCopy_fr ..) ?_ (by decide)
  with_reducible apply Fr.forN
  exact hx4
  intro x13 x14
  refine .wr ?_ (by decide) (.arr .EMI_CURVE_DAC rfl (by decide))
  exact .refl ..
  refine Fr.have x6 ?_ (fun hx6 => ?_) <;> [unfold x6; clear_value x6]
  refine .wr ?_ (by decide) (.fld .CAL_LEG_STATUS_LOADED rfl (by decide))
  with_reducible apply Fr.forN
  exact hx5
  intro x15 x16
  refine .wrS ?_ (by decide) (.arr .CAL_LEG_TEMP_TEMP rfl (by decide))
  exact .refl ..
  refine .ite ?_ ?_
  exact hx6
  refine .setReg ?_ (by decide) (.word .w_CAL_LAST_RZ rfl (by decide))
  refine .setReg ?_ (by decide) (.word .w_CAL_LAST_CD rfl (by decide))
  exact hx6

theorem State.stepCal_fr (s : State) :
    Fr 0xfa4800000000600000000000000000000000003020002180000001001f7014000000000050023 s (State.stepCal s) := by
  unfold State.stepCal
  split
  split
  lift_lets -underBinder
  intro x1
  refine Fr.have x1 ?_ (fun hx1 => ?_) <;> [unfold x1; clear_value x1]
  refine .call (State.applyJrn_fr ..) ?_ (by decide)
  exact .refl ..
  refine .wr ?_ (by decide) (.fld .CAL_JRN_STATUS_FAIL rfl (by decide))
  refine .wr ?_ (by decide) (.fld .CAL_JRN_STATUS_VALID rfl (by decide))
  refine .wr ?_ (by decide) (.fld .CAL_JRN_STATUS_SLOT rfl (by decide))
  refine .wr ?_ (by decide) (.fld .CAL_JRN_STATUS_SEQ rfl (by decide))
  exact hx1
  exact .refl ..
  refine .call (State.raise_fr ..) ?_ (by decide)
  refine .wr ?_ (by decide) (.fld .CAL_JRN_STATUS_FAIL rfl (by decide))
  exact .refl ..

theorem State.stepCd_fr (s : State) :
    Fr 0x1884000000000000000000000140000008004003e000000001ff80000010000000478006c0020011000000fe20120060800f04a038951a7b s (State.stepCd s) := by
  unfold State.stepCd
  refine .ite ?_ ?_
  refine .wr ?_ (by decide) (.fld .BOOT_STATUS_STEP rfl (by decide))
  refine .wr ?_ (by decide) (.fld .BOOT_STATUS_CD_SKIPPED rfl (by decide))
  exact .refl ..
  refine .ite ?_ ?_
  refine .wr ?_ (by decide) (.fld .BOOT_STATUS_STEP rfl (by decide))
  refine .wr ?_ (by decide) (.fld .BOOT_STATUS_CD_DUE rfl (by decide))
  exact .refl ..
  refine .call (State.startPlan_fr ..) ?_ (by decide)
  refine .wr ?_ (by decide) (.fld .BOOT_STATUS_STEP rfl (by decide))
  exact .refl ..

theorem State.autoScan_fr (s : State) :
    Fr 0x800000000000000000000001400000080000000000000001fe80000010000000478006c00200110000000000120000000f04a038111a7b s (State.autoScan s) := by
  unfold State.autoScan
  refine .ite ?_ ?_
  refine .call (State.goMode_fr ..) ?_ (by decide)
  exact .refl ..
  exact .refl ..

theorem State.startDone_fr (s : State) (t : Nat) :
    Fr 0x1000010800000000000000000000001400000080000000000000001fe80000010000000478006c00200110000000000120000000f04a03a111a7b s (State.startDone s t) := by
  unfold State.startDone
  lift_lets -underBinder
  intro x1 x2 x3 x4
  refine Fr.have x1 ?_ (fun hx1 => ?_) <;> [unfold x1; clear_value x1]
  refine .wr ?_ (by decide) (.fld .SYS_MODE_BOOT_DONE rfl (by decide))
  (with_reducible apply Fr.call (State.bo_fr ..)) <;> first | (intro _; rfl) | decide | skip
  refine .wr ?_ (by decide) (.fld .BOOT_STATUS_STEP rfl (by decide))
  exact .refl ..
  refine Fr.have x2 ?_ (fun hx2 => ?_) <;> [unfold x2; clear_value x2]
  refine .call (State.raise_fr ..) ?_ (by decide)
  refine .call (State.raise_fr ..) ?_ (by decide)
  refine .wr ?_ (by decide) (.fld .SYS_MODE_CAUSE rfl (by decide))
  exact hx1
  refine Fr.have x3 ?_ (fun hx3 => ?_) <;> [unfold x3; clear_value x3]
  refine .call (State.raiseIf_fr ..) ?_ (by decide)
  exact hx2
  refine Fr.have x4 ?_ (fun hx4 => ?_) <;> [unfold x4; clear_value x4]
  refine .call (State.logEntry_fr ..) ?_ (by decide)
  exact hx3
  refine .call (State.autoScan_fr ..) ?_ (by decide)
  exact hx4

theorem execStartStepComplete_fr (ok : Bool) (failing : BitVec 4) (nominal : Bool) (t : Nat) (s : State) :
    Runs 0x1e70bd2f3f3edeff4c01e807fb9ffddf8ffe2ff30e878f5fe4fbf7bf89ee01ffbefc227c000020678037d7022af7dd93e3fe31f3ff73f9bf7ffffeffffff s (execStartStepComplete ok failing nominal t s) := by
  unfold execStartStepComplete
  refine .next ?_
  refine .ite ?_ ?_
  exact .refl ..
  split
  refine .call (State.stepLoader_fr ..) ?_ (by decide)
  exact .refl ..
  refine .call (State.stepImage_fr ..) ?_ (by decide)
  exact .refl ..
  refine .ite ?_ ?_
  refine .wr ?_ (by decide) (.fld .BOOT_STATUS_STEP rfl (by decide))
  exact .refl ..
  refine .call (State.failStart_fr ..) ?_ (by decide)
  exact .refl ..
  refine .ite ?_ ?_
  refine .wr ?_ (by decide) (.fld .BOOT_STATUS_STEP rfl (by decide))
  refine .call (State.loadSections_fr ..) ?_ (by decide)
  exact .refl ..
  refine .call (State.failStart_fr ..) ?_ (by decide)
  exact .refl ..
  lift_lets -underBinder
  intro x1
  refine Fr.have x1 ?_ (fun hx1 => ?_) <;> [unfold x1; clear_value x1]
  refine .call (State.stepDram_fr ..) ?_ (by decide)
  exact .refl ..
  refine .ite ?_ ?_
  refine .wr ?_ (by decide) (.fld .BOOT_STATUS_STEP rfl (by decide))
  exact hx1
  exact hx1
  refine .wr ?_ (by decide) (.fld .BOOT_STATUS_STEP rfl (by decide))
  refine .call (State.stepCal_fr ..) ?_ (by decide)
  exact .refl ..
  refine .call (State.stepCd_fr ..) ?_ (by decide)
  refine .call (State.applyEntries_fr ..) ?_ (by decide)
  refine .call (State.takeSettings_fr ..) ?_ (by decide)
  exact .refl ..
  refine .call (State.startDone_fr ..) ?_ (by decide)
  refine .call (State.startTillers_fr ..) ?_ (by decide)
  exact .refl ..
  exact .refl ..

theorem execUpdateEnd_fr (m : Fin 4) (tag : Byte) (t : Nat) (s : State) :
    Runs 0x160001011d00c0c9400000078000f08003fe2bc3000008104003f000000001ff80000010000020678006c0020011000000fe20120072a01f74b03cffffff s (execUpdateEnd m tag t s) := by
  unfold execUpdateEnd
  exact (State.mboxRow_fr ..).mono (by decide)

theorem execPanicExit_fr (p : Fin 8) (s : State) :
    Runs 0x1000000000000000000000000000000000000000000000000000000000000000000000000000000000000001 s (execPanicExit p s) := by
  unfold execPanicExit
  refine .next ?_
  refine .ite ?_ ?_
  exact .refl ..
  refine .wr ?_ (by decide) (.arr .MEM_PORT_STATUS_PANIC rfl (by decide))
  exact .refl ..

theorem execHeadlandAutoStart_fr (s : State) :
    Runs 0x100000000000c0000000000000000000000000000000001000001000000000000000000000002020000000000000000000000000000000000000007fffff s (execHeadlandAutoStart s) := by
  unfold execHeadlandAutoStart
  refine .next ?_
  refine .ite ?_ ?_
  refine .call (State.enterReset_fr ..) ?_ (by decide)
  exact .refl ..
  exact .refl ..

theorem execHeadlandData_fr (good : Bool) (q : BitVec 16) (ofs : Word) (payload : List Byte) (s : State) :
    Runs 0x1001c000000000000000000000003fe2940000000000000000000000000000000000000000000000000000000000000000000000000008000700c07 s (execHeadlandData good q ofs payload s) := by
  unfold execHeadlandData
  refine .next ?_
  (with_reducible apply State.hdlStaged_fr) <;> [skip; skip; decide]
  exact .refl ..
  intro x1 x2
  refine .call (State.hdlData_fr ..) ?_ (by decide)
  exact .refl ..

theorem execSerialHi_fr (m : Fin 4) (tag : Byte) (s : State) :
    Runs 0x160001011d00c0c9400000078000f08003fe2bc3000008104003f000000001ff80000010000020678006c0020011000000fe20120072a01f74b03cffffff s (execSerialHi m tag s) := by
  unfold execSerialHi
  exact (State.mboxRow_fr ..).mono (by decide)

theorem execRcRead_fr (a : BitVec 26) (s : State) :
    Runs 0x100101000000000007fe18000000000000000000000000000000000000000000000000000000000000000000000001820300000000000000000000200ccf s (execRcRead a s) := by
  unfold execRcRead
  refine .next ?_
  refine .call (State.regRead_fr ..) ?_ (by decide)
  refine .call (State.linkSeen_fr ..) ?_ (by decide)
  exact .refl ..

theorem execJournalSaveComplete_fr (ok : Bool) (s : State) :
    Runs 0x100000000000c00000000000000000000000000000000013a000500000000000000000000000202000000000000000000000000000000000000000ffffff s (execJournalSaveComplete ok s) := by
  unfold execJournalSaveComplete
  refine .next ?_
  refine .call (State.heldResetCheck_fr ..) ?_ (by decide)
  refine .call (State.journalDone_fr ..) ?_ (by decide)
  exact .refl ..

theorem execResetWarm_fr (m : Fin 4) (tag : Byte) (s : State) :
    Runs 0x160001011d00c0c9400000078000f08003fe2bc3000008104003f000000001ff80000010000020678006c0020011000000fe20120072a01f74b03cffffff s (execResetWarm m tag s) := by
  unfold execResetWarm
  exact (State.mboxRow_fr ..).mono (by decide)

theorem State.leaveReset_fr (s : State) (merId : Nat) (t : Nat) :
    Fr 0xc001400000001800000000000000000200001000001000000000000000018000000000000000000000000000001801f7014000000f0100082b s (State.leaveReset s merId t) := by
  unfold State.leaveReset
  lift_lets -underBinder
  intro x1 x2 x3 x4 x5 x6 x7
  refine Fr.have x1 ?_ (fun hx1 => ?_) <;> [unfold x1; clear_value x1]
  refine .call (State.sy_fr ..) ?_ (by decide)
  exact .refl ..
  refine Fr.have x2 ?_ (fun hx2 => ?_) <;> [unfold x2; clear_value x2]
  refine .call (State.lk_fr ..) ?_ (by decide)
  exact hx1
  refine Fr.have x3 ?_ (fun hx3 => ?_) <;> [unfold x3; clear_value x3]
  refine .wr ?_ (by decide) (.fld .SYS_CLK_STATUS_MGMT_LOCK rfl (by decide))
  refine .wr ?_ (by decide) (.fld .SYS_CLK_STATUS_TIL_LOCK rfl (by decide))
  refine .wr ?_ (by decide) (.fld .SYS_CLK_STATUS_MAIN_LOCK rfl (by decide))
  exact hx2
  refine Fr.have x4 ?_ (fun hx4 => ?_) <;> [unfold x4; clear_value x4]
  refine .put ?_ (by decide) (.fld .SYS_MODE_WARM rfl (by decide))
  refine .wr ?_ (by decide) (.fld .SYS_CLK_STATUS_REF_PRESENT rfl (by decide))
  exact hx3
  refine Fr.have x5 ?_ (fun hx5 => ?_) <;> [unfold x5; clear_value x5]
  refine .put ?_ (by decide) (.fld .MER_STATUS_MASTER rfl (by decide))
  refine .wr ?_ (by decide) (.fld .MER_STATUS_ID rfl (by decide))
  exact hx4
  refine Fr.have x6 ?_ (fun hx6 => ?_) <;> [unfold x6; clear_value x6]
  refine .put ?_ (by decide) (.fld .BOOT_STATUS_FUSE_KEPT rfl (by decide))
  exact hx5
  refine Fr.have x7 ?_ (fun hx7 => ?_) <;> [unfold x7; clear_value x7]
  refine .wr ?_ (by decide) (.fld .BOOT_STATUS_UPD_STATE rfl (by decide))
  refine .call (State.evalSilence_fr ..) ?_ (by decide)
  refine .call (State.trimTake_fr ..) ?_ (by decide)
  refine .call (State.loadFuses_fr ..) ?_ (by decide)
  exact hx6
  with_reducible apply Fr.forN
  exact hx7
  intro x8 x9
  refine .ite ?_ ?_
  refine .wr ?_ (by decide) (.arr .THM_SNS_ST_STATE rfl (by decide))
  exact .refl ..
  exact .refl ..

theorem State.endReset_fr (s : State) (recov : Bool) (merId : Nat) (t : Nat) :
    Fr 0x60000009cc011c00000001f8000f080000003c20200081000001000000001fe80000190000000478006c0020011000000001813f713600f04af39111e7f s (State.endReset s recov merId t) := by
  unfold State.endReset
  lift_lets -underBinder
  intro x1 x2 x3
  refine Fr.have x1 ?_ (fun hx1 => ?_) <;> [unfold x1; clear_value x1]
  refine .call (State.leaveReset_fr ..) ?_ (by decide)
  exact .refl ..
  refine Fr.have x3 ?_ (fun hx3 => ?_) <;> [unfold x3; clear_value x3]
  refine .call (State.logScan_fr ..) ?_ (by decide)
  refine .call (State.goMode_fr ..) ?_ (by decide)
  exact hx1
  refine .ite ?_ ?_
  refine .call (State.enterRecovery_fr ..) ?_ (by decide)
  exact hx1
  refine .ite ?_ ?_
  refine .call (State.romDram_fr ..) ?_ (by decide)
  refine .call (State.sy_fr ..) ?_ (by decide)
  refine .call (State.goMode_fr ..) ?_ (by decide)
  exact hx1
  (with_reducible apply Fr.call (State.bo_fr ..)) <;> first | (intro _; rfl) | decide | skip
  refine .wr ?_ (by decide) (.fld .BOOT_STATUS_STEP rfl (by decide))
  exact hx3

theorem execResetEnd_fr (recov : Bool) (merId : Fin 8) (t : Nat) (s : State) :
    Runs 0x60000009cc011c00000001f8000f080000003c20200081000001000000001fe80000190000000478006c0020011000000001813f713600f04af39111e7f s (execResetEnd recov merId t s) := by
  unfold execResetEnd
  refine .next ?_
  refine .ite ?_ ?_
  exact .refl ..
  refine .call (State.endReset_fr ..) ?_ (by decide)
  exact .refl ..

theorem execMemoryEnable_fr (s : State) :
    Runs 0x160001011d00c0c9400000078000f08003fe2bc3000008104003f000000001ff80000010000020678006c0020011000000fe20120072a01f04b03cffffff s (execMemoryEnable s) := by
  unfold execMemoryEnable
  refine .next ?_
  (with_reducible apply State.access_fr) <;> [skip; skip; decide]
  exact .refl ..
  intro x1
  refine .call (State.memResume_fr ..) ?_ (by decide)
  refine .call (State.memEnable_fr ..) ?_ (by decide)
  exact .refl ..

theorem execSpiWrite_fr (ofs : BitVec 16) (d : Word) (crc : Byte) (t : Nat) (s : State) :
    Runs 0x1670bd2f3d00c0c95c01e807fb9ff0df8ffe2ff30e878f5c407bf7bf89e801ffbefc227c000020678037d4022af7c59203fe21f37e73f9bf7ffffcffffff s (execSpiWrite ofs d crc t s) := by
  unfold execSpiWrite
  refine .next ?_
  (with_reducible apply State.spiFrame_fr) <;> [skip; skip; decide]
  exact .refl ..
  intro x1
  refine .call (State.regWrite_fr ..) ?_ (by decide)
  refine .call (State.spiServed_fr ..) ?_ (by decide)
  exact .refl ..

theorem execI2cXfer_fr (m : Fin 4) (tag : Byte) (s : State) :
    Runs 0x160001011d00c0c9400000078000f08003fe2bc3000008104003f000000001ff80000010000020678006c0020011000000fe20120072a01f74b03cffffff s (execI2cXfer m tag s) := by
  unfold execI2cXfer
  exact (State.mboxRow_fr ..).mono (by decide)

theorem execModeStandby_fr (m : Fin 4) (tag : Byte) (s : State) :
    Runs 0x160001011d00c0c9400000078000f08003fe2bc3000008104003f000000001ff80000010000020678006c0020011000000fe20120072a01f74b03cffffff s (execModeStandby m tag s) := by
  unfold execModeStandby
  exact (State.mboxRow_fr ..).mono (by decide)

theorem execEnterRecovery_fr (m : Fin 4) (tag : Byte) (s : State) :
    Runs 0x160001011d00c0c9400000078000f08003fe2bc3000008104003f000000001ff80000010000020678006c0020011000000fe20120072a01f74b03cffffff s (execEnterRecovery m tag s) := by
  unfold execEnterRecovery
  exact (State.mboxRow_fr ..).mono (by decide)

theorem execRegisterWrite_fr (m : Fin 4) (a : BitVec 26) (w : Word) (t : Nat) (s : State) :
    Runs 0x1670bd2f3d00c0c94c01e807fb9ff0df8ffe2ff30e878f5c407bf7bf89e801ffbefc227c000020678037d4022af7c59203fe21f37e73f9bf7ffffcffffff s (execRegisterWrite m a w t s) := by
  unfold execRegisterWrite
  refine .next ?_
  refine .call (State.regWrite_fr ..) ?_ (by decide)
  exact .refl ..

theorem execShadowParityCheck_fr (error : Bool) (s : State) :
    Runs 0x100000000000000000000000000000000000000000000000000000000000000000000001 s (execShadowParityCheck error s) := by
  unfold execShadowParityCheck
  refine .next ?_
  refine .ite ?_ ?_
  refine .wr ?_ (by decide) (.fld .CAL_STATUS_SHADOW_OK rfl (by decide))
  exact .refl ..
  exact .refl ..

theorem State.planReturn_fr (s : State) :
    Fr 0x80000000000000000000000140000008004003e000000001ff80000010000000478006c0020011000000fe20120060800f04b03c951a7b s (State.planReturn s) := by
  unfold State.planReturn
  refine .ite ?_ ?_
  exact .refl ..
  lift_lets -underBinder
  intro x1
  refine Fr.have x1 ?_ (fun hx1 => ?_) <;> [unfold x1; clear_value x1]
  refine .ite ?_ ?_
  refine .call (State.lastCycle_fr ..) ?_ (by decide)
  exact .refl ..
  exact .refl ..
  refine .call (State.rerunCheck_fr ..) ?_ (by decide)
  refine .call (State.derateCheck_fr ..) ?_ (by decide)
  refine .call (State.goMode_fr ..) ?_ (by decide)
  exact hx1

theorem State.cdEnded_fr (s : State) (cut : Bool) :
    Fr 0x1004000000000000000000000000000000000000000000000000000000000000000000000000000000000000000000000000000000000001 s (State.cdEnded s cut) := by
  unfold State.cdEnded
  lift_lets -underBinder
  intro x1
  refine Fr.have x1 ?_ (fun hx1 => ?_) <;> [unfold x1; clear_value x1]
  refine .put ?_ (by decide) (.fld .BOOT_STATUS_CD_DUE rfl (by decide))
  exact .refl ..
  refine .ite ?_ ?_
  refine .wr ?_ (by decide) (.fld .BOOT_STATUS_STEP rfl (by decide))
  exact hx1
  exact hx1

theorem execPlanEnd_fr (k0 : Nat) (s : State) :
    Runs 0x1084000000000000000000000140000008004003e000000001ff80000010000000478006c0020011000000fe20120060800f04b03c951a7b s (execPlanEnd k0 s) := by
  unfold execPlanEnd
  refine .next ?_
  lift_lets -underBinder
  intro x1 x2 x3 x4
  refine Fr.have x4 ?_ (fun hx4 => ?_) <;> [unfold x4; clear_value x4]
  refine .call (State.planReturn_fr ..) ?_ (by decide)
  refine .call (State.planClose_fr ..) ?_ (by decide)
  exact .refl ..
  refine .ite ?_ ?_
  exact .refl ..
  refine .ite ?_ ?_
  refine .call (State.cdEnded_fr ..) ?_ (by decide)
  exact hx4
  exact hx4

theorem execSettingsSaveComplete_fr (ok : Bool) (s : State) :
    Runs 0x100000000000c00000000000000000000000000000000010000010000000000000000000000020200000000000000000000000000000000f000000ffffff s (execSettingsSaveComplete ok s) := by
  unfold execSettingsSaveComplete
  refine .next ?_
  split
  exact .refl ..
  lift_lets -underBinder
  intro x1 x2
  split
  lift_lets -underBinder
  intro x3 x4 x5
  refine Fr.have x3 ?_ (fun hx3 => ?_) <;> [unfold x3; clear_value x3]
  (with_reducible apply Fr.call (State.bo_fr ..)) <;> first | (intro _; rfl) | decide | skip
  refine .call (State.flashWrite_fr ..) ?_ (by decide)
  with_reducible refine Fr.pair (by assumption) ?_
  refine .call (State.jrnBytes_fr ..) ?_ (by decide)
  exact .refl ..
  refine Fr.have x4 ?_ (fun hx4 => ?_) <;> [unfold x4; clear_value x4]
  refine .ite ?_ ?_
  refine .call (State.putSet_fr ..) ?_ (by decide)
  refine .call (State.flashWrite_fr ..) ?_ (by decide)
  exact hx3
  exact hx3
  refine Fr.have x5 ?_ (fun hx5 => ?_) <;> [unfold x5; clear_value x5]
  split
  refine .ite ?_ ?_
  refine .call (State.answer_fr ..) ?_ (by decide)
  exact hx4
  exact hx4
  exact hx4
  refine .call (State.heldResetCheck_fr ..) ?_ (by decide)
  exact hx5

theorem execSlotWriteComplete_fr (verified : Bool) (t : Nat) (s : State) :
    Runs 0x100000010d02c0d800000000000000000000000000000010000010000000000000000000000020200000000000000000000000000000001f000000ffffff s (execSlotWriteComplete verified t s) := by
  unfold execSlotWriteComplete
  refine .next ?_
  split
  refine .call (State.heldResetCheck_fr ..) ?_ (by decide)
  exact .refl ..
  lift_lets -underBinder
  intro x1 x2 x3 x4 x5 x6 x7 x8 x9
  refine Fr.have x1 ?_ (fun hx1 => ?_) <;> [unfold x1; clear_value x1]
  (with_reducible apply Fr.call (State.bo_fr ..)) <;> first | (intro _; rfl) | decide | skip
  refine .wr ?_ (by decide) (.fld .BOOT_STATUS_SLOT_WRITE rfl (by decide))
  exact .refl ..
  refine Fr.have x3 ?_ (fun hx3 => ?_) <;> [unfold x3; clear_value x3]
  refine .call (State.flashWrite_fr ..) ?_ (by decide)
  exact hx1
  refine Fr.have x5 ?_ (fun hx5 => ?_) <;> [unfold x5; clear_value x5]
  refine .call (State.setUpd_fr ..) ?_ (by decide)
  exact hx3
  refine Fr.have x6 ?_ (fun hx6 => ?_) <;> [unfold x6; clear_value x6]
  refine .ite ?_ ?_
  refine .call (State.imageShow_fr ..) ?_ (by decide)
  (with_reducible apply Fr.call (State.bo_fr ..)) <;> first | (intro _; rfl) | decide | skip
  refine .wr ?_ (by decide) (.fld .BOOT_FAIL_COUNT rfl (by decide))
  exact hx5
  exact hx1
  refine Fr.have x8 ?_ (fun hx8 => ?_) <;> [unfold x8; clear_value x8]
  split
  refine .call (State.hdlRxEnd_fr ..) ?_ (by decide)
  exact hx6
  exact hx6
  refine Fr.have x9 ?_ (fun hx9 => ?_) <;> [unfold x9; clear_value x9]
  refine .ite ?_ ?_
  (with_reducible apply Fr.call (State.bo_fr ..)) <;> first | (intro _; rfl) | decide | skip
  exact hx8
  split
  refine .ite ?_ ?_
  refine .call (State.sessEnd_fr ..) ?_ (by decide)
  exact hx6
  exact hx6
  exact hx6
  refine .call (State.heldResetCheck_fr ..) ?_ (by decide)
  exact hx9

theorem execResetCold_fr (m : Fin 4) (tag : Byte) (s : State) :
    Runs 0x160001011d00c0c9400000078000f08003fe2bc3000008104003f000000001ff80000010000020678006c0020011000000fe20120072a01f74b03cffffff s (execResetCold m tag s) := by
  unfold execResetCold
  exact (State.mboxRow_fr ..).mono (by decide)

theorem execRefresh_fr (ch : Fin 4) (bank : Fin 16) (panicWaits : Bool) (s : State) :
    Runs 0x10000000000000000000000000000004000000000000000000000000000000000000000000000000000000000000000000000000000000000200403 s (execRefresh ch bank panicWaits s) := by
  unfold execRefresh
  refine .next ?_
  refine .ite ?_ ?_
  exact .refl ..
  lift_lets -underBinder
  intro x1 x2 x3
  refine .ite ?_ ?_
  apply Fr.upd <;> first | show Fr _ _ _ | exact .inl rfl | exact .inr rfl | rfl
  exact .refl ..
  refine .call (State.refreshed_fr ..) ?_ (by decide)
  refine .ite ?_ ?_
  refine .bump ?_ (by decide) (.fld .MEM_CNT_REF_FORCED_COUNT rfl (by decide))
  exact .refl ..
  exact .refl ..

theorem State.i2cSeen_fr (s : State) (x : I2c) (result : Nat) (index : Nat) (data : List Byte) :
    Fr 0x804 s (State.i2cSeen s x result index data) := by
  unfold State.i2cSeen
  split
  split
  split
  lift_lets -underBinder
  intro x1
  refine .call (State.lk_fr ..) ?_ (by decide)
  with_reducible refine Fr.pair (by assumption) ?_
  refine .call (State.drawFree_fr ..) ?_ (by decide)
  with_reducible refine Fr.pair (by assumption) ?_
  refine .call (State.drawFree_fr ..) ?_ (by decide)
  with_reducible refine Fr.pair (by assumption) ?_
  refine .call (State.drawFree_fr ..) ?_ (by decide)
  exact .refl ..

theorem execI2cTransferComplete_fr (result : Fin 5) (index : BitVec 16) (data : List Byte) (s : State) :
    Runs 0x1c0000000000000000000000000000000000000000000000000000000000000000000000000000000000000000000001f00000000080f s (execI2cTransferComplete result index data s) := by
  unfold execI2cTransferComplete
  refine .next ?_
  split
  exact .refl ..
  lift_lets -underBinder
  intro x1 x2 x3 x4
  refine Fr.have x1 ?_ (fun hx1 => ?_) <;> [unfold x1; clear_value x1]
  refine .call (State.i2cSeen_fr ..) ?_ (by decide)
  exact .refl ..
  refine Fr.have x2 ?_ (fun hx2 => ?_) <;> [unfold x2; clear_value x2]
  refine .call (State.lk_fr ..) ?_ (by decide)
  refine .wr ?_ (by decide) (.fld .LNK_I2C_STATUS_BUSY rfl (by decide))
  refine .call (State.mboxPut_fr ..) ?_ (by decide)
  exact hx1
  refine Fr.have x3 ?_ (fun hx3 => ?_) <;> [unfold x3; clear_value x3]
  refine .ite ?_ ?_
  refine .wr ?_ (by decide) (.fld .LNK_I2C_STATUS_STUCK rfl (by decide))
  exact hx2
  exact hx2
  refine Fr.have x4 ?_ (fun hx4 => ?_) <;> [unfold x4; clear_value x4]
  refine .setReg ?_ (by decide) (.word .w_SYS_MBOX_DATA rfl (by decide))
  exact hx3
  split
  refine .ite ?_ ?_
  refine .call (State.answer_fr ..) ?_ (by decide)
  exact hx4
  exact hx4
  exact hx4

theorem execModeQuery_fr (m : Fin 4) (tag : Byte) (s : State) :
    Runs 0x160001011d00c0c9400000078000f08003fe2bc3000008104003f000000001ff80000010000020678006c0020011000000fe20120072a01f74b03cffffff s (execModeQuery m tag s) := by
  unfold execModeQuery
  exact (State.mboxRow_fr ..).mono (by decide)

theorem State.barWrite1_fr (s : State) (a : Nat) (data : List Byte) (t : Nat) :
    Fr 0x1670bd2f3d00c0c94c01e807fb9ff0df8ffe2ff30e878f5c407bf7bf89e801ffbefc227c000020678037d4022af7c59203fe21f37e73f9bf7ffffcffffff s (State.barWrite1 s a data t) := by
  unfold State.barWrite1
  refine .ite ?_ ?_
  refine .call (State.regWrite_fr ..) ?_ (by decide)
  exact .refl ..
  (with_reducible apply State.access_fr) <;> [skip; skip; decide]
  exact .refl ..
  intro x1
  refine .call (State.cfgReject_fr ..) ?_ (by decide)
  exact .refl ..

theorem State.regWrite64_fr (s : State) (a : Nat) (d : BitVec 64) :
    Fr 0x1000000000000000000000000000000000000000000000000000000000000000000000000000000000000000000000000000000000000000020008b s (State.regWrite64 s a d) := by
  unfold State.regWrite64
  (with_reducible apply State.access_fr) <;> [skip; skip; decide]
  exact .refl ..
  intro x1
  refine .ite ?_ ?_
  refine .call (State.windowWrite_fr ..) ?_ (by decide)
  exact .refl ..
  refine .call (State.cfgReject_fr ..) ?_ (by decide)
  exact .refl ..

theorem State.barWrite_fr (s : State) (a : Nat) (data : List Byte) (t : Nat) :
    Fr 0x1670bd2f3d00c0c94c01e807fb9ff0df8ffe2ff30e878f5c407bf7bf89e801ffbefc227c000020678037d4022af7c59203fe21f37e73f9bf7ffffcffffff s (State.barWrite s a data t) := by
  unfold State.barWrite
  lift_lets -underBinder
  intro x1 x2
  refine .ite ?_ ?_
  refine .call (State.barWrite1_fr ..) ?_ (by decide)
  exact .refl ..
  refine .ite ?_ ?_
  refine .call (State.regWrite64_fr ..) ?_ (by decide)
  exact .refl ..
  refine .call (State.barWrite1_fr ..) ?_ (by decide)
  refine .call (State.barWrite1_fr ..) ?_ (by decide)
  exact .refl ..

theorem State.barPoison_fr (s : State) (a : Nat) (data : List Byte) (t : Nat) :
    Fr 0x1670bd2f3d00c0c94c01e807fb9ff0df8ffe2ff30e878f5c407bf7bf89e801ffbefc227c000020678037d4022af7c59203fe21f37e73f9bf7ffffcffffff s (State.barPoison s a data t) := by
  unfold State.barPoison
  lift_lets -underBinder
  intro x1 x2 x3
  refine Fr.have x2 ?_ (fun hx2 => ?_) <;> [unfold x2; clear_value x2]
  refine .call (State.barWrite_fr ..) ?_ (by decide)
  exact .refl ..
  refine Fr.have x3 ?_ (fun hx3 => ?_) <;> [unfold x3; clear_value x3]
  refine .ite ?_ ?_
  exact hx2
  with_reducible apply Fr.foldl
  exact hx2
  intro x4 x5
  with_reducible apply Fr.forN
  exact .refl ..
  intro x6 x7
  refine .ite ?_ ?_
  refine .call (State.onTiller_fr ..) ?_ (by decide)
  exact .refl ..
  exact .refl ..
  refine .ite ?_ ?_
  refine .call (State.raise_fr ..) ?_ (by decide)
  exact hx3
  refine .call (State.raise_fr ..) ?_ (by decide)
  exact .refl ..

theorem State.regRead64_fr (s : State) (a : Nat) :
    Fr 0x100101000000000003fe10000000000000000000000000000000000000000000000000000000000000000000000001820300000000000000000000200ccf s (State.regRead64 s a) := by
  unfold State.regRead64
  (with_reducible apply State.access_fr) <;> [skip; skip; decide]
  exact .refl ..
  intro x1
  refine .ite ?_ ?_
  refine .call (State.windowRead_fr ..) ?_ (by decide)
  exact .refl ..
  lift_lets -underBinder
  intro x2
  refine Fr.have x2 ?_ (fun hx2 => ?_) <;> [unfold x2; clear_value x2]
  refine .call (State.afterRead_fr ..) ?_ (by decide)
  exact .refl ..
  refine .call (State.answerRead_fr ..) ?_ (by decide)
  refine .call (State.afterRead_fr ..) ?_ (by decide)
  exact hx2

theorem State.barRead_fr (s : State) (a : Nat) (n : Nat) :
    Fr 0x100101000000000003fe10000000000000000000000000000000000000000000000000000000000000000000000001820300000000000000000000200ccf s (State.barRead s a n).2 := by
  unfold State.barRead
  with_reducible apply Fr.ite2
  lift_lets -underBinder
  intro x1
  refine Fr.have x1 ?_ (fun hx1 => ?_) <;> [unfold x1; clear_value x1]
  refine .call (State.regRead_fr ..) ?_ (by decide)
  exact .refl ..
  dsimp +zetaDelta -zeta only
  exact hx1
  with_reducible apply Fr.ite2
  lift_lets -underBinder
  intro x2
  refine Fr.have x2 ?_ (fun hx2 => ?_) <;> [unfold x2; clear_value x2]
  refine .ite ?_ ?_
  refine .call (State.regRead64_fr ..) ?_ (by decide)
  exact .refl ..
  refine .call (State.cfgReject_fr ..) ?_ (by decide)
  refine .call (State.answerRead_fr ..) ?_ (by decide)
  exact .refl ..
  dsimp +zetaDelta -zeta only
  exact hx2
  lift_lets -underBinder
  intro x3 x4 x5 x6
  refine Fr.have x4 ?_ (fun hx4 => ?_) <;> [unfold x4; clear_value x4]
  refine .call (State.regRead_fr ..) ?_ (by decide)
  exact .refl ..
  refine Fr.have x6 ?_ (fun hx6 => ?_) <;> [unfold x6; clear_value x6]
  refine .call (State.regRead_fr ..) ?_ (by decide)
  exact hx4
  dsimp +zetaDelta -zeta only
  exact hx6

theorem execBar0Request_fr (write : Bool) (a : BitVec 26) (len : Nat) (data : List Byte) (ep : Bool) (t : Nat) (s : State) :
    Runs 0x1671bd2f3d00c0c94ffff807fb9ff0df8ffe2ff30e878f5c407bf7bf89e801ffbefc227c000020678037d4022af7c59203fe21f37e73f9bf7ffffcffffff s (execBar0Request write a len data ep t s) := by
  unfold execBar0Request
  refine .next ?_
  refine .ite ?_ ?_
  exact .refl ..
  lift_lets -underBinder
  intro x1 x2 x3
  refine Fr.have x1 ?_ (fun hx1 => ?_) <;> [unfold x1; clear_value x1]
  refine .call (State.count_fr ..) ?_ (by decide)
  exact .refl ..
  refine Fr.have x3 ?_ (fun hx3 => ?_) <;> [unfold x3; clear_value x3]
  refine .call (State.cfgReject_fr ..) ?_ (by decide)
  exact hx1
  refine .ite ?_ ?_
  exact hx1
  refine .ite ?_ ?_
  refine .ite ?_ ?_
  refine .call (State.complete_fr ..) ?_ (by decide)
  exact hx3
  refine .call (State.raiseIf_fr ..) ?_ (by decide)
  exact hx3
  refine .ite ?_ ?_
  refine .ite ?_ ?_
  refine .call (State.barPoison_fr ..) ?_ (by decide)
  exact hx1
  refine .call (State.barWrite_fr ..) ?_ (by decide)
  exact hx1
  split
  refine .call (State.complete_fr ..) ?_ (by decide)
  with_reducible refine Fr.pair (by assumption) ?_
  refine .call (State.barRead_fr ..) ?_ (by decide)
  refine .call (State.linkSeen_fr ..) ?_ (by decide)
  exact hx1

theorem execSettingsSave_fr (m : Fin 4) (tag : Byte) (s : State) :
    Runs 0x160001011d00c0c9400000078000f08003fe2bc3000008104003f000000001ff80000010000020678006c0020011000000fe20120072a01f74b03cffffff s (execSettingsSave m tag s) := by
  unfold execSettingsSave
  exact (State.mboxRow_fr ..).mono (by decide)

theorem execRelockTimeout_fr (main : Bool) (tiller : Bool) (s : State) :
    Runs 0x160001011d00c0c9400000078000f08003fe2bc3000008104003f000000001ff80c0001040003df78006c60200171c0600fe6013cf73e01f0cbe3cffffff s (execRelockTimeout main tiller s) := by
  unfold execRelockTimeout
  refine .next ?_
  refine .ite ?_ ?_
  exact .refl ..
  lift_lets -underBinder
  intro x1 x2 x3 x4
  refine Fr.have x1 ?_ (fun hx1 => ?_) <;> [unfold x1; clear_value x1]
  refine .wr ?_ (by decide) (.fld .SYS_CLK_STATUS_MGMT_LOCK rfl (by decide))
  refine .put ?_ (by decide) (.fld .SYS_CLK_STATUS_MAIN_LOCK rfl (by decide))
  exact .refl ..
  refine Fr.have x2 ?_ (fun hx2 => ?_) <;> [unfold x2; clear_value x2]
  refine .call (State.sy_fr ..) ?_ (by decide)
  refine .wr ?_ (by decide) (.fld .SYS_CLK_STATUS_TIL_LOCK rfl (by decide))
  exact hx1
  refine Fr.have x3 ?_ (fun hx3 => ?_) <;> [unfold x3; clear_value x3]
  refine .call (State.hd_fr ..) ?_ (by decide)
  exact hx2
  refine Fr.have x4 ?_ (fun hx4 => ?_) <;> [unfold x4; clear_value x4]
  refine .ite ?_ ?_
  refine .call (State.mainLost_fr ..) ?_ (by decide)
  exact hx3
  refine .call (State.memResume_fr ..) ?_ (by decide)
  refine .call (State.dramRuns_fr ..) ?_ (by decide)
  exact hx3
  refine .ite ?_ ?_
  refine .call (State.tilLost_fr ..) ?_ (by decide)
  exact hx4
  exact hx4

theorem execBar2Request_fr (write : Bool) (o : Nat) (len : Nat) (data : List Byte) (ep : Bool) (s : State) :
    Runs 0x10000000000000000000000000000000940000000000000000000000000000000000000000000000000000000000000000000000000008000200403 s (execBar2Request write o len data ep s) := by
  unfold execBar2Request
  refine .next ?_
  lift_lets -underBinder
  intro x1 x2 x3 x4 x5
  refine Fr.have x2 ?_ (fun hx2 => ?_) <;> [unfold x2; clear_value x2]
  refine .call (State.count_fr ..) ?_ (by decide)
  exact .refl ..
  refine Fr.have x5 ?_ (fun hx5 => ?_) <;> [unfold x5; clear_value x5]
  refine .call (State.raiseIf_fr ..) ?_ (by decide)
  refine .call (State.setPort_fr ..) ?_ (by decide)
  exact hx2
  refine .ite ?_ ?_
  exact .refl ..
  refine .ite ?_ ?_
  exact hx2
  refine .ite ?_ ?_
  refine .call (State.memWake_fr ..) ?_ (by decide)
  exact hx5
  exact hx5

theorem State.hdlAccept_fr (s : State) (hops : Nat) (total : Nat) :
    Fr 0x10018000000000000000000000003fe2940000000000000000000000000000000000000000000000000000000000000000000000000008000300407 s (State.hdlAccept s hops total) := by
  unfold State.hdlAccept
  lift_lets -underBinder
  intro x1
  refine Fr.have x1 ?_ (fun hx1 => ?_) <;> [unfold x1; clear_value x1]
  refine .call (State.hdlReply_fr ..) ?_ (by decide)
  (with_reducible apply Fr.call (State.bo_fr ..)) <;> first | (intro _; rfl) | decide | skip
  refine .wr ?_ (by decide) (.fld .BOOT_HDL_STATUS_RX_BUSY rfl (by decide))
  exact .refl ..
  refine .ite ?_ ?_
  split
  refine .call (State.hdlTxStart_fr ..) ?_ (by decide)
  with_reducible refine Fr.pair (by assumption) ?_
  dsimp +zetaDelta -zeta only
  apply Fr.upd <;> first | show Fr _ _ _ | exact .inl rfl | exact .inr rfl | rfl
  exact hx1
  exact hx1

theorem execHeadlandOffer_fr (good : Bool) (hops : Fin 8) (total : Word) (s : State) :
    Runs 0x1001c000000000000000000000003fe2940000000000000000000000000000000000000000000000000000000000000000000000000008000300407 s (execHeadlandOffer good hops total s) := by
  unfold execHeadlandOffer
  refine .next ?_
  refine .ite ?_ ?_
  exact .refl ..
  refine .ite ?_ ?_
  (with_reducible apply State.hdlRx_fr) <;> [skip; skip; decide]
  exact .refl ..
  intro x1 x2
  exact .refl ..
  refine .ite ?_ ?_
  split
  refine .call (State.hdlReply_fr ..) ?_ (by decide)
  with_reducible refine Fr.pair (by assumption) ?_
  refine .call (State.drawFree_fr ..) ?_ (by decide)
  exact .refl ..
  refine .ite ?_ ?_
  refine .call (State.hdlReply_fr ..) ?_ (by decide)
  exact .refl ..
  refine .call (State.hdlAccept_fr ..) ?_ (by decide)
  exact .refl ..

theorem execModeCalibrate_fr (m : Fin 4) (tag : Byte) (s : State) :
    Runs 0x160001011d00c0c9400000078000f08003fe2bc3000008104003f000000001ff80000010000020678006c0020011000000fe20120072a01f74b03cffffff s (execModeCalibrate m tag s) := by
  unfold execModeCalibrate
  exact (State.mboxRow_fr ..).mono (by decide)

theorem execFwVersion_fr (m : Fin 4) (tag : Byte) (s : State) :
    Runs 0x160001011d00c0c9400000078000f08003fe2bc3000008104003f000000001ff80000010000020678006c0020011000000fe20120072a01f74b03cffffff s (execFwVersion m tag s) := by
  unfold execFwVersion
  exact (State.mboxRow_fr ..).mono (by decide)

theorem execPllRelockComplete_fr (s : State) :
    Runs 0x160001011d00c0c9400000078000f08003fe2bc3000008104003f000000001ff80000010000020678006c0020011000000fe20120072a01f04be3cffffff s (execPllRelockComplete s) := by
  unfold execPllRelockComplete
  refine .next ?_
  refine .ite ?_ ?_
  exact .refl ..
  lift_lets -underBinder
  intro x1
  refine Fr.have x1 ?_ (fun hx1 => ?_) <;> [unfold x1; clear_value x1]
  refine .wr ?_ (by decide) (.fld .SYS_CLK_STATUS_MGMT_LOCK rfl (by decide))
  refine .wr ?_ (by decide) (.fld .SYS_CLK_STATUS_TIL_LOCK rfl (by decide))
  refine .wr ?_ (by decide) (.fld .SYS_CLK_STATUS_MAIN_LOCK rfl (by decide))
  exact .refl ..
  refine .call (State.memResume_fr ..) ?_ (by decide)
  refine .call (State.dramRuns_fr ..) ?_ (by decide)
  refine .call (State.hd_fr ..) ?_ (by decide)
  refine .call (State.sy_fr ..) ?_ (by decide)
  exact hx1

theorem execExtest_fr (s : State) : Runs 0x21200000000000000000000000000000000000000000200d s (execExtest s) := by
  unfold execExtest
  refine .next ?_
  refine .call (State.capture_fr ..) ?_ (by decide)
  refine .call (State.jtagLoad_fr ..) ?_ (by decide)
  exact .refl ..

theorem execCdDueRerun_fr (s : State) :
    Runs 0x80000000000000000000000140000008004003e000000001ff80000010000000478006c0020011000000fe20120060800f04a038951a7b s (execCdDueRerun s) := by
  unfold execCdDueRerun
  refine .next ?_
  refine .ite ?_ ?_
  refine .call (State.startPlan_fr ..) ?_ (by decide)
  exact .refl ..
  exact .refl ..

end Sys2Proof.Machine
end

