-- ==== Sys2Proof/Laws/State.lean ====
section
/-! SUPPORT. The state after each basic update, field by field: what an update of registers, an event raise or a change of one block
leaves as it was, and what it makes of the field it changes. -/

namespace Sys2Proof.Machine

/-! ### Reads depend on the register map alone -/

theorem State.reg_congr {s t : State} (h : t.regs = s.regs) (a : Nat) : t.reg a = s.reg a := by simp only [State.reg, h]

theorem State.rd_congr {s t : State} (h : t.regs = s.regs) (f : Fld) : t.rd f = s.rd f := by simp only [State.rd, State.reg, h]

variable (s : State) {_pending _raises _freeIx _sys _det _tdc _his _til _oq _emi _mem _lnk _hlm _hdg _mer _cap _sxt _adc _cal _thm _boot _obs}

/-- A change outside the register map keeps every register word and field. -/
@[simp] theorem State.reg_mk (a : Nat) :
    (State.mk _pending s.regs _raises _freeIx _sys _det _tdc _his _til _oq _emi _mem _lnk _hlm _hdg _mer _cap _sxt _adc _cal _thm _boot _obs).reg a =
      s.reg a := rfl

@[simp] theorem State.rd_mk (f : Fld) :
    (State.mk _pending s.regs _raises _freeIx _sys _det _tdc _his _til _oq _emi _mem _lnk _hlm _hdg _mer _cap _sxt _adc _cal _thm _boot _obs).rd f =
      s.rd f := rfl

@[simp] theorem State.on_mk (f : Fld) :
    (State.mk _pending s.regs _raises _freeIx _sys _det _tdc _his _til _oq _emi _mem _lnk _hlm _hdg _mer _cap _sxt _adc _cal _thm _boot _obs).on f =
      s.on f := rfl

@[simp] theorem State.rdS_mk (f : Fld) :
    (State.mk _pending s.regs _raises _freeIx _sys _det _tdc _his _til _oq _emi _mem _lnk _hlm _hdg _mer _cap _sxt _adc _cal _thm _boot _obs).rdS f =
      s.rdS f := rfl

@[simp] theorem State.mode_mk :
    (State.mk _pending s.regs _raises _freeIx _sys _det _tdc _his _til _oq _emi _mem _lnk _hlm _hdg _mer _cap _sxt _adc _cal _thm _boot _obs).mode =
      s.mode := rfl

/-! ### Register writes -/

@[simp] theorem State.setReg_pending (a : Nat) (w : Word) : (s.setReg a w).pending = s.pending := rfl
@[simp] theorem State.setReg_raises (a : Nat) (w : Word) : (s.setReg a w).raises = s.raises := rfl
@[simp] theorem State.setReg_raised (a : Nat) (w : Word) : (s.setReg a w).raised = s.raised := rfl
@[simp] theorem State.setReg_freeIx (a : Nat) (w : Word) : (s.setReg a w).freeIx = s.freeIx := rfl
@[simp] theorem State.setReg_sys (a : Nat) (w : Word) : (s.setReg a w).sys = s.sys := rfl
@[simp] theorem State.setReg_det (a : Nat) (w : Word) : (s.setReg a w).det = s.det := rfl
@[simp] theorem State.setReg_tdc (a : Nat) (w : Word) : (s.setReg a w).tdc = s.tdc := rfl
@[simp] theorem State.setReg_his (a : Nat) (w : Word) : (s.setReg a w).his = s.his := rfl
@[simp] theorem State.setReg_til (a : Nat) (w : Word) : (s.setReg a w).til = s.til := rfl
@[simp] theorem State.setReg_oq (a : Nat) (w : Word) : (s.setReg a w).oq = s.oq := rfl
@[simp] theorem State.setReg_emi (a : Nat) (w : Word) : (s.setReg a w).emi = s.emi := rfl
@[simp] theorem State.setReg_mem (a : Nat) (w : Word) : (s.setReg a w).mem = s.mem := rfl
@[simp] theorem State.setReg_lnk (a : Nat) (w : Word) : (s.setReg a w).lnk = s.lnk := rfl
@[simp] theorem State.setReg_hlm (a : Nat) (w : Word) : (s.setReg a w).hlm = s.hlm := rfl
@[simp] theorem State.setReg_hdg (a : Nat) (w : Word) : (s.setReg a w).hdg = s.hdg := rfl
@[simp] theorem State.setReg_mer (a : Nat) (w : Word) : (s.setReg a w).mer = s.mer := rfl
@[simp] theorem State.setReg_cap (a : Nat) (w : Word) : (s.setReg a w).cap = s.cap := rfl
@[simp] theorem State.setReg_sxt (a : Nat) (w : Word) : (s.setReg a w).sxt = s.sxt := rfl
@[simp] theorem State.setReg_adc (a : Nat) (w : Word) : (s.setReg a w).adc = s.adc := rfl
@[simp] theorem State.setReg_cal (a : Nat) (w : Word) : (s.setReg a w).cal = s.cal := rfl
@[simp] theorem State.setReg_thm (a : Nat) (w : Word) : (s.setReg a w).thm = s.thm := rfl
@[simp] theorem State.setReg_boot (a : Nat) (w : Word) : (s.setReg a w).boot = s.boot := rfl
@[simp] theorem State.setReg_obs (a : Nat) (w : Word) : (s.setReg a w).obs = s.obs := rfl

@[simp] theorem State.resetRegs_pending (a b : Nat) : (s.resetRegs a b).pending = s.pending := rfl
@[simp] theorem State.resetRegs_raises (a b : Nat) : (s.resetRegs a b).raises = s.raises := rfl
@[simp] theorem State.resetRegs_raised (a b : Nat) : (s.resetRegs a b).raised = s.raised := rfl
@[simp] theorem State.resetRegs_freeIx (a b : Nat) : (s.resetRegs a b).freeIx = s.freeIx := rfl
@[simp] theorem State.resetRegs_sys (a b : Nat) : (s.resetRegs a b).sys = s.sys := rfl
@[simp] theorem State.resetRegs_det (a b : Nat) : (s.resetRegs a b).det = s.det := rfl
@[simp] theorem State.resetRegs_tdc (a b : Nat) : (s.resetRegs a b).tdc = s.tdc := rfl
@[simp] theorem State.resetRegs_his (a b : Nat) : (s.resetRegs a b).his = s.his := rfl
@[simp] theorem State.resetRegs_til (a b : Nat) : (s.resetRegs a b).til = s.til := rfl
@[simp] theorem State.resetRegs_oq (a b : Nat) : (s.resetRegs a b).oq = s.oq := rfl
@[simp] theorem State.resetRegs_emi (a b : Nat) : (s.resetRegs a b).emi = s.emi := rfl
@[simp] theorem State.resetRegs_mem (a b : Nat) : (s.resetRegs a b).mem = s.mem := rfl
@[simp] theorem State.resetRegs_lnk (a b : Nat) : (s.resetRegs a b).lnk = s.lnk := rfl
@[simp] theorem State.resetRegs_hlm (a b : Nat) : (s.resetRegs a b).hlm = s.hlm := rfl
@[simp] theorem State.resetRegs_hdg (a b : Nat) : (s.resetRegs a b).hdg = s.hdg := rfl
@[simp] theorem State.resetRegs_mer (a b : Nat) : (s.resetRegs a b).mer = s.mer := rfl
@[simp] theorem State.resetRegs_cap (a b : Nat) : (s.resetRegs a b).cap = s.cap := rfl
@[simp] theorem State.resetRegs_sxt (a b : Nat) : (s.resetRegs a b).sxt = s.sxt := rfl
@[simp] theorem State.resetRegs_adc (a b : Nat) : (s.resetRegs a b).adc = s.adc := rfl
@[simp] theorem State.resetRegs_cal (a b : Nat) : (s.resetRegs a b).cal = s.cal := rfl
@[simp] theorem State.resetRegs_thm (a b : Nat) : (s.resetRegs a b).thm = s.thm := rfl
@[simp] theorem State.resetRegs_boot (a b : Nat) : (s.resetRegs a b).boot = s.boot := rfl
@[simp] theorem State.resetRegs_obs (a b : Nat) : (s.resetRegs a b).obs = s.obs := rfl

@[simp] theorem State.wr_pending (f : Fld) (v : Nat) : (s.wr f v).pending = s.pending := rfl
@[simp] theorem State.wr_raises (f : Fld) (v : Nat) : (s.wr f v).raises = s.raises := rfl
@[simp] theorem State.wr_raised (f : Fld) (v : Nat) : (s.wr f v).raised = s.raised := rfl
@[simp] theorem State.wr_freeIx (f : Fld) (v : Nat) : (s.wr f v).freeIx = s.freeIx := rfl
@[simp] theorem State.wr_sys (f : Fld) (v : Nat) : (s.wr f v).sys = s.sys := rfl
@[simp] theorem State.wr_det (f : Fld) (v : Nat) : (s.wr f v).det = s.det := rfl
@[simp] theorem State.wr_tdc (f : Fld) (v : Nat) : (s.wr f v).tdc = s.tdc := rfl
@[simp] theorem State.wr_his (f : Fld) (v : Nat) : (s.wr f v).his = s.his := rfl
@[simp] theorem State.wr_til (f : Fld) (v : Nat) : (s.wr f v).til = s.til := rfl
@[simp] theorem State.wr_oq (f : Fld) (v : Nat) : (s.wr f v).oq = s.oq := rfl
@[simp] theorem State.wr_emi (f : Fld) (v : Nat) : (s.wr f v).emi = s.emi := rfl
@[simp] theorem State.wr_mem (f : Fld) (v : Nat) : (s.wr f v).mem = s.mem := rfl
@[simp] theorem State.wr_lnk (f : Fld) (v : Nat) : (s.wr f v).lnk = s.lnk := rfl
@[simp] theorem State.wr_hlm (f : Fld) (v : Nat) : (s.wr f v).hlm = s.hlm := rfl
@[simp] theorem State.wr_hdg (f : Fld) (v : Nat) : (s.wr f v).hdg = s.hdg := rfl
@[simp] theorem State.wr_mer (f : Fld) (v : Nat) : (s.wr f v).mer = s.mer := rfl
@[simp] theorem State.wr_cap (f : Fld) (v : Nat) : (s.wr f v).cap = s.cap := rfl
@[simp] theorem State.wr_sxt (f : Fld) (v : Nat) : (s.wr f v).sxt = s.sxt := rfl
@[simp] theorem State.wr_adc (f : Fld) (v : Nat) : (s.wr f v).adc = s.adc := rfl
@[simp] theorem State.wr_cal (f : Fld) (v : Nat) : (s.wr f v).cal = s.cal := rfl
@[simp] theorem State.wr_thm (f : Fld) (v : Nat) : (s.wr f v).thm = s.thm := rfl
@[simp] theorem State.wr_boot (f : Fld) (v : Nat) : (s.wr f v).boot = s.boot := rfl
@[simp] theorem State.wr_obs (f : Fld) (v : Nat) : (s.wr f v).obs = s.obs := rfl

@[simp] theorem State.put_pending (f : Fld) (b : Bool) : (s.put f b).pending = s.pending := rfl
@[simp] theorem State.put_raises (f : Fld) (b : Bool) : (s.put f b).raises = s.raises := rfl
@[simp] theorem State.put_raised (f : Fld) (b : Bool) : (s.put f b).raised = s.raised := rfl
@[simp] theorem State.put_freeIx (f : Fld) (b : Bool) : (s.put f b).freeIx = s.freeIx := rfl
@[simp] theorem State.put_sys (f : Fld) (b : Bool) : (s.put f b).sys = s.sys := rfl
@[simp] theorem State.put_det (f : Fld) (b : Bool) : (s.put f b).det = s.det := rfl
@[simp] theorem State.put_tdc (f : Fld) (b : Bool) : (s.put f b).tdc = s.tdc := rfl
@[simp] theorem State.put_his (f : Fld) (b : Bool) : (s.put f b).his = s.his := rfl
@[simp] theorem State.put_til (f : Fld) (b : Bool) : (s.put f b).til = s.til := rfl
@[simp] theorem State.put_oq (f : Fld) (b : Bool) : (s.put f b).oq = s.oq := rfl
@[simp] theorem State.put_emi (f : Fld) (b : Bool) : (s.put f b).emi = s.emi := rfl
@[simp] theorem State.put_mem (f : Fld) (b : Bool) : (s.put f b).mem = s.mem := rfl
@[simp] theorem State.put_lnk (f : Fld) (b : Bool) : (s.put f b).lnk = s.lnk := rfl
@[simp] theorem State.put_hlm (f : Fld) (b : Bool) : (s.put f b).hlm = s.hlm := rfl
@[simp] theorem State.put_hdg (f : Fld) (b : Bool) : (s.put f b).hdg = s.hdg := rfl
@[simp] theorem State.put_mer (f : Fld) (b : Bool) : (s.put f b).mer = s.mer := rfl
@[simp] theorem State.put_cap (f : Fld) (b : Bool) : (s.put f b).cap = s.cap := rfl
@[simp] theorem State.put_sxt (f : Fld) (b : Bool) : (s.put f b).sxt = s.sxt := rfl
@[simp] theorem State.put_adc (f : Fld) (b : Bool) : (s.put f b).adc = s.adc := rfl
@[simp] theorem State.put_cal (f : Fld) (b : Bool) : (s.put f b).cal = s.cal := rfl
@[simp] theorem State.put_thm (f : Fld) (b : Bool) : (s.put f b).thm = s.thm := rfl
@[simp] theorem State.put_boot (f : Fld) (b : Bool) : (s.put f b).boot = s.boot := rfl
@[simp] theorem State.put_obs (f : Fld) (b : Bool) : (s.put f b).obs = s.obs := rfl

@[simp] theorem State.wrS_pending (f : Fld) (v : Int) : (s.wrS f v).pending = s.pending := rfl
@[simp] theorem State.wrS_raises (f : Fld) (v : Int) : (s.wrS f v).raises = s.raises := rfl
@[simp] theorem State.wrS_raised (f : Fld) (v : Int) : (s.wrS f v).raised = s.raised := rfl
@[simp] theorem State.wrS_freeIx (f : Fld) (v : Int) : (s.wrS f v).freeIx = s.freeIx := rfl
@[simp] theorem State.wrS_sys (f : Fld) (v : Int) : (s.wrS f v).sys = s.sys := rfl
@[simp] theorem State.wrS_det (f : Fld) (v : Int) : (s.wrS f v).det = s.det := rfl
@[simp] theorem State.wrS_tdc (f : Fld) (v : Int) : (s.wrS f v).tdc = s.tdc := rfl
@[simp] theorem State.wrS_his (f : Fld) (v : Int) : (s.wrS f v).his = s.his := rfl
@[simp] theorem State.wrS_til (f : Fld) (v : Int) : (s.wrS f v).til = s.til := rfl
@[simp] theorem State.wrS_oq (f : Fld) (v : Int) : (s.wrS f v).oq = s.oq := rfl
@[simp] theorem State.wrS_emi (f : Fld) (v : Int) : (s.wrS f v).emi = s.emi := rfl
@[simp] theorem State.wrS_mem (f : Fld) (v : Int) : (s.wrS f v).mem = s.mem := rfl
@[simp] theorem State.wrS_lnk (f : Fld) (v : Int) : (s.wrS f v).lnk = s.lnk := rfl
@[simp] theorem State.wrS_hlm (f : Fld) (v : Int) : (s.wrS f v).hlm = s.hlm := rfl
@[simp] theorem State.wrS_hdg (f : Fld) (v : Int) : (s.wrS f v).hdg = s.hdg := rfl
@[simp] theorem State.wrS_mer (f : Fld) (v : Int) : (s.wrS f v).mer = s.mer := rfl
@[simp] theorem State.wrS_cap (f : Fld) (v : Int) : (s.wrS f v).cap = s.cap := rfl
@[simp] theorem State.wrS_sxt (f : Fld) (v : Int) : (s.wrS f v).sxt = s.sxt := rfl
@[simp] theorem State.wrS_adc (f : Fld) (v : Int) : (s.wrS f v).adc = s.adc := rfl
@[simp] theorem State.wrS_cal (f : Fld) (v : Int) : (s.wrS f v).cal = s.cal := rfl
@[simp] theorem State.wrS_thm (f : Fld) (v : Int) : (s.wrS f v).thm = s.thm := rfl
@[simp] theorem State.wrS_boot (f : Fld) (v : Int) : (s.wrS f v).boot = s.boot := rfl
@[simp] theorem State.wrS_obs (f : Fld) (v : Int) : (s.wrS f v).obs = s.obs := rfl

@[simp] theorem State.bump_pending (f : Fld) (k : Nat) : (s.bump f k).pending = s.pending := rfl
@[simp] theorem State.bump_raises (f : Fld) (k : Nat) : (s.bump f k).raises = s.raises := rfl
@[simp] theorem State.bump_raised (f : Fld) (k : Nat) : (s.bump f k).raised = s.raised := rfl
@[simp] theorem State.bump_freeIx (f : Fld) (k : Nat) : (s.bump f k).freeIx = s.freeIx := rfl
@[simp] theorem State.bump_sys (f : Fld) (k : Nat) : (s.bump f k).sys = s.sys := rfl
@[simp] theorem State.bump_det (f : Fld) (k : Nat) : (s.bump f k).det = s.det := rfl
@[simp] theorem State.bump_tdc (f : Fld) (k : Nat) : (s.bump f k).tdc = s.tdc := rfl
@[simp] theorem State.bump_his (f : Fld) (k : Nat) : (s.bump f k).his = s.his := rfl
@[simp] theorem State.bump_til (f : Fld) (k : Nat) : (s.bump f k).til = s.til := rfl
@[simp] theorem State.bump_oq (f : Fld) (k : Nat) : (s.bump f k).oq = s.oq := rfl
@[simp] theorem State.bump_emi (f : Fld) (k : Nat) : (s.bump f k).emi = s.emi := rfl
@[simp] theorem State.bump_mem (f : Fld) (k : Nat) : (s.bump f k).mem = s.mem := rfl
@[simp] theorem State.bump_lnk (f : Fld) (k : Nat) : (s.bump f k).lnk = s.lnk := rfl
@[simp] theorem State.bump_hlm (f : Fld) (k : Nat) : (s.bump f k).hlm = s.hlm := rfl
@[simp] theorem State.bump_hdg (f : Fld) (k : Nat) : (s.bump f k).hdg = s.hdg := rfl
@[simp] theorem State.bump_mer (f : Fld) (k : Nat) : (s.bump f k).mer = s.mer := rfl
@[simp] theorem State.bump_cap (f : Fld) (k : Nat) : (s.bump f k).cap = s.cap := rfl
@[simp] theorem State.bump_sxt (f : Fld) (k : Nat) : (s.bump f k).sxt = s.sxt := rfl
@[simp] theorem State.bump_adc (f : Fld) (k : Nat) : (s.bump f k).adc = s.adc := rfl
@[simp] theorem State.bump_cal (f : Fld) (k : Nat) : (s.bump f k).cal = s.cal := rfl
@[simp] theorem State.bump_thm (f : Fld) (k : Nat) : (s.bump f k).thm = s.thm := rfl
@[simp] theorem State.bump_boot (f : Fld) (k : Nat) : (s.bump f k).boot = s.boot := rfl
@[simp] theorem State.bump_obs (f : Fld) (k : Nat) : (s.bump f k).obs = s.obs := rfl

/-! ### Raises -/

@[simp] theorem State.raise_pending (e : Nat) : (s.raise e).pending = s.pending := by unfold State.raise; split <;> rfl
@[simp] theorem State.raise_freeIx (e : Nat) : (s.raise e).freeIx = s.freeIx := by unfold State.raise; split <;> rfl
@[simp] theorem State.raise_sys (e : Nat) : (s.raise e).sys = s.sys := by unfold State.raise; split <;> rfl
@[simp] theorem State.raise_det (e : Nat) : (s.raise e).det = s.det := by unfold State.raise; split <;> rfl
@[simp] theorem State.raise_tdc (e : Nat) : (s.raise e).tdc = s.tdc := by unfold State.raise; split <;> rfl
@[simp] theorem State.raise_his (e : Nat) : (s.raise e).his = s.his := by unfold State.raise; split <;> rfl
@[simp] theorem State.raise_til (e : Nat) : (s.raise e).til = s.til := by unfold State.raise; split <;> rfl
@[simp] theorem State.raise_oq (e : Nat) : (s.raise e).oq = s.oq := by unfold State.raise; split <;> rfl
@[simp] theorem State.raise_emi (e : Nat) : (s.raise e).emi = s.emi := by unfold State.raise; split <;> rfl
@[simp] theorem State.raise_mem (e : Nat) : (s.raise e).mem = s.mem := by unfold State.raise; split <;> rfl
@[simp] theorem State.raise_lnk (e : Nat) : (s.raise e).lnk = s.lnk := by unfold State.raise; split <;> rfl
@[simp] theorem State.raise_hlm (e : Nat) : (s.raise e).hlm = s.hlm := by unfold State.raise; split <;> rfl
@[simp] theorem State.raise_hdg (e : Nat) : (s.raise e).hdg = s.hdg := by unfold State.raise; split <;> rfl
@[simp] theorem State.raise_mer (e : Nat) : (s.raise e).mer = s.mer := by unfold State.raise; split <;> rfl
@[simp] theorem State.raise_cap (e : Nat) : (s.raise e).cap = s.cap := by unfold State.raise; split <;> rfl
@[simp] theorem State.raise_sxt (e : Nat) : (s.raise e).sxt = s.sxt := by unfold State.raise; split <;> rfl
@[simp] theorem State.raise_adc (e : Nat) : (s.raise e).adc = s.adc := by unfold State.raise; split <;> rfl
@[simp] theorem State.raise_cal (e : Nat) : (s.raise e).cal = s.cal := by unfold State.raise; split <;> rfl
@[simp] theorem State.raise_thm (e : Nat) : (s.raise e).thm = s.thm := by unfold State.raise; split <;> rfl
@[simp] theorem State.raise_boot (e : Nat) : (s.raise e).boot = s.boot := by unfold State.raise; split <;> rfl
@[simp] theorem State.raise_obs (e : Nat) : (s.raise e).obs = s.obs := by unfold State.raise; split <;> rfl

@[simp] theorem State.raiseIf_regs (b : Bool) (e : Nat) : (s.raiseIf b e).regs = s.regs := by cases b <;> simp [State.raiseIf]
@[simp] theorem State.raiseIf_pending (b : Bool) (e : Nat) : (s.raiseIf b e).pending = s.pending := by cases b <;> simp [State.raiseIf]
@[simp] theorem State.raiseIf_freeIx (b : Bool) (e : Nat) : (s.raiseIf b e).freeIx = s.freeIx := by cases b <;> simp [State.raiseIf]
@[simp] theorem State.raiseIf_sys (b : Bool) (e : Nat) : (s.raiseIf b e).sys = s.sys := by cases b <;> simp [State.raiseIf]
@[simp] theorem State.raiseIf_det (b : Bool) (e : Nat) : (s.raiseIf b e).det = s.det := by cases b <;> simp [State.raiseIf]
@[simp] theorem State.raiseIf_tdc (b : Bool) (e : Nat) : (s.raiseIf b e).tdc = s.tdc := by cases b <;> simp [State.raiseIf]
@[simp] theorem State.raiseIf_his (b : Bool) (e : Nat) : (s.raiseIf b e).his = s.his := by cases b <;> simp [State.raiseIf]
@[simp] theorem State.raiseIf_til (b : Bool) (e : Nat) : (s.raiseIf b e).til = s.til := by cases b <;> simp [State.raiseIf]
@[simp] theorem State.raiseIf_oq (b : Bool) (e : Nat) : (s.raiseIf b e).oq = s.oq := by cases b <;> simp [State.raiseIf]
@[simp] theorem State.raiseIf_emi (b : Bool) (e : Nat) : (s.raiseIf b e).emi = s.emi := by cases b <;> simp [State.raiseIf]
@[simp] theorem State.raiseIf_mem (b : Bool) (e : Nat) : (s.raiseIf b e).mem = s.mem := by cases b <;> simp [State.raiseIf]
@[simp] theorem State.raiseIf_lnk (b : Bool) (e : Nat) : (s.raiseIf b e).lnk = s.lnk := by cases b <;> simp [State.raiseIf]
@[simp] theorem State.raiseIf_hlm (b : Bool) (e : Nat) : (s.raiseIf b e).hlm = s.hlm := by cases b <;> simp [State.raiseIf]
@[simp] theorem State.raiseIf_hdg (b : Bool) (e : Nat) : (s.raiseIf b e).hdg = s.hdg := by cases b <;> simp [State.raiseIf]
@[simp] theorem State.raiseIf_mer (b : Bool) (e : Nat) : (s.raiseIf b e).mer = s.mer := by cases b <;> simp [State.raiseIf]
@[simp] theorem State.raiseIf_cap (b : Bool) (e : Nat) : (s.raiseIf b e).cap = s.cap := by cases b <;> simp [State.raiseIf]
@[simp] theorem State.raiseIf_sxt (b : Bool) (e : Nat) : (s.raiseIf b e).sxt = s.sxt := by cases b <;> simp [State.raiseIf]
@[simp] theorem State.raiseIf_adc (b : Bool) (e : Nat) : (s.raiseIf b e).adc = s.adc := by cases b <;> simp [State.raiseIf]
@[simp] theorem State.raiseIf_cal (b : Bool) (e : Nat) : (s.raiseIf b e).cal = s.cal := by cases b <;> simp [State.raiseIf]
@[simp] theorem State.raiseIf_thm (b : Bool) (e : Nat) : (s.raiseIf b e).thm = s.thm := by cases b <;> simp [State.raiseIf]
@[simp] theorem State.raiseIf_boot (b : Bool) (e : Nat) : (s.raiseIf b e).boot = s.boot := by cases b <;> simp [State.raiseIf]
@[simp] theorem State.raiseIf_obs (b : Bool) (e : Nat) : (s.raiseIf b e).obs = s.obs := by cases b <;> simp [State.raiseIf]

@[simp] theorem State.on_raise (e : Nat) (f : Fld) : (s.raise e).on f = s.on f := by simp [State.on]
@[simp] theorem State.mode_raise (e : Nat) : (s.raise e).mode = s.mode := State.rd_raise s e _

/-! ### A change of one block -/

@[simp] theorem State.sy_pending (f : Sys → Sys) : (s.sy f).pending = s.pending := rfl
@[simp] theorem State.sy_regs (f : Sys → Sys) : (s.sy f).regs = s.regs := rfl
@[simp] theorem State.sy_raises (f : Sys → Sys) : (s.sy f).raises = s.raises := rfl
@[simp] theorem State.sy_raised (f : Sys → Sys) : (s.sy f).raised = s.raised := rfl
@[simp] theorem State.sy_freeIx (f : Sys → Sys) : (s.sy f).freeIx = s.freeIx := rfl
@[simp] theorem State.sy_sys (f : Sys → Sys) : (s.sy f).sys = f s.sys := rfl
@[simp] theorem State.sy_det (f : Sys → Sys) : (s.sy f).det = s.det := rfl
@[simp] theorem State.sy_tdc (f : Sys → Sys) : (s.sy f).tdc = s.tdc := rfl
@[simp] theorem State.sy_his (f : Sys → Sys) : (s.sy f).his = s.his := rfl
@[simp] theorem State.sy_til (f : Sys → Sys) : (s.sy f).til = s.til := rfl
@[simp] theorem State.sy_oq (f : Sys → Sys) : (s.sy f).oq = s.oq := rfl
@[simp] theorem State.sy_emi (f : Sys → Sys) : (s.sy f).emi = s.emi := rfl
@[simp] theorem State.sy_mem (f : Sys → Sys) : (s.sy f).mem = s.mem := rfl
@[simp] theorem State.sy_lnk (f : Sys → Sys) : (s.sy f).lnk = s.lnk := rfl
@[simp] theorem State.sy_hlm (f : Sys → Sys) : (s.sy f).hlm = s.hlm := rfl
@[simp] theorem State.sy_hdg (f : Sys → Sys) : (s.sy f).hdg = s.hdg := rfl
@[simp] theorem State.sy_mer (f : Sys → Sys) : (s.sy f).mer = s.mer := rfl
@[simp] theorem State.sy_cap (f : Sys → Sys) : (s.sy f).cap = s.cap := rfl
@[simp] theorem State.sy_sxt (f : Sys → Sys) : (s.sy f).sxt = s.sxt := rfl
@[simp] theorem State.sy_adc (f : Sys → Sys) : (s.sy f).adc = s.adc := rfl
@[simp] theorem State.sy_cal (f : Sys → Sys) : (s.sy f).cal = s.cal := rfl
@[simp] theorem State.sy_thm (f : Sys → Sys) : (s.sy f).thm = s.thm := rfl
@[simp] theorem State.sy_boot (f : Sys → Sys) : (s.sy f).boot = s.boot := rfl
@[simp] theorem State.sy_obs (f : Sys → Sys) : (s.sy f).obs = s.obs := rfl
@[simp] theorem State.sy_reg (f : Sys → Sys) (a : Nat) : (s.sy f).reg a = s.reg a := rfl
@[simp] theorem State.sy_rd (f : Sys → Sys) (g : Fld) : (s.sy f).rd g = s.rd g := rfl
@[simp] theorem State.sy_mode (f : Sys → Sys) : (s.sy f).mode = s.mode := rfl

@[simp] theorem State.bo_pending (f : Boot → Boot) : (s.bo f).pending = s.pending := rfl
@[simp] theorem State.bo_regs (f : Boot → Boot) : (s.bo f).regs = s.regs := rfl
@[simp] theorem State.bo_raises (f : Boot → Boot) : (s.bo f).raises = s.raises := rfl
@[simp] theorem State.bo_raised (f : Boot → Boot) : (s.bo f).raised = s.raised := rfl
@[simp] theorem State.bo_freeIx (f : Boot → Boot) : (s.bo f).freeIx = s.freeIx := rfl
@[simp] theorem State.bo_sys (f : Boot → Boot) : (s.bo f).sys = s.sys := rfl
@[simp] theorem State.bo_det (f : Boot → Boot) : (s.bo f).det = s.det := rfl
@[simp] theorem State.bo_tdc (f : Boot → Boot) : (s.bo f).tdc = s.tdc := rfl
@[simp] theorem State.bo_his (f : Boot → Boot) : (s.bo f).his = s.his := rfl
@[simp] theorem State.bo_til (f : Boot → Boot) : (s.bo f).til = s.til := rfl
@[simp] theorem State.bo_oq (f : Boot → Boot) : (s.bo f).oq = s.oq := rfl
@[simp] theorem State.bo_emi (f : Boot → Boot) : (s.bo f).emi = s.emi := rfl
@[simp] theorem State.bo_mem (f : Boot → Boot) : (s.bo f).mem = s.mem := rfl
@[simp] theorem State.bo_lnk (f : Boot → Boot) : (s.bo f).lnk = s.lnk := rfl
@[simp] theorem State.bo_hlm (f : Boot → Boot) : (s.bo f).hlm = s.hlm := rfl
@[simp] theorem State.bo_hdg (f : Boot → Boot) : (s.bo f).hdg = s.hdg := rfl
@[simp] theorem State.bo_mer (f : Boot → Boot) : (s.bo f).mer = s.mer := rfl
@[simp] theorem State.bo_cap (f : Boot → Boot) : (s.bo f).cap = s.cap := rfl
@[simp] theorem State.bo_sxt (f : Boot → Boot) : (s.bo f).sxt = s.sxt := rfl
@[simp] theorem State.bo_adc (f : Boot → Boot) : (s.bo f).adc = s.adc := rfl
@[simp] theorem State.bo_cal (f : Boot → Boot) : (s.bo f).cal = s.cal := rfl
@[simp] theorem State.bo_thm (f : Boot → Boot) : (s.bo f).thm = s.thm := rfl
@[simp] theorem State.bo_boot (f : Boot → Boot) : (s.bo f).boot = f s.boot := rfl
@[simp] theorem State.bo_obs (f : Boot → Boot) : (s.bo f).obs = s.obs := rfl
@[simp] theorem State.bo_reg (f : Boot → Boot) (a : Nat) : (s.bo f).reg a = s.reg a := rfl
@[simp] theorem State.bo_rd (f : Boot → Boot) (g : Fld) : (s.bo f).rd g = s.rd g := rfl
@[simp] theorem State.bo_mode (f : Boot → Boot) : (s.bo f).mode = s.mode := rfl

@[simp] theorem State.lk_pending (f : Lnk → Lnk) : (s.lk f).pending = s.pending := rfl
@[simp] theorem State.lk_regs (f : Lnk → Lnk) : (s.lk f).regs = s.regs := rfl
@[simp] theorem State.lk_raises (f : Lnk → Lnk) : (s.lk f).raises = s.raises := rfl
@[simp] theorem State.lk_raised (f : Lnk → Lnk) : (s.lk f).raised = s.raised := rfl
@[simp] theorem State.lk_freeIx (f : Lnk → Lnk) : (s.lk f).freeIx = s.freeIx := rfl
@[simp] theorem State.lk_sys (f : Lnk → Lnk) : (s.lk f).sys = s.sys := rfl
@[simp] theorem State.lk_det (f : Lnk → Lnk) : (s.lk f).det = s.det := rfl
@[simp] theorem State.lk_tdc (f : Lnk → Lnk) : (s.lk f).tdc = s.tdc := rfl
@[simp] theorem State.lk_his (f : Lnk → Lnk) : (s.lk f).his = s.his := rfl
@[simp] theorem State.lk_til (f : Lnk → Lnk) : (s.lk f).til = s.til := rfl
@[simp] theorem State.lk_oq (f : Lnk → Lnk) : (s.lk f).oq = s.oq := rfl
@[simp] theorem State.lk_emi (f : Lnk → Lnk) : (s.lk f).emi = s.emi := rfl
@[simp] theorem State.lk_mem (f : Lnk → Lnk) : (s.lk f).mem = s.mem := rfl
@[simp] theorem State.lk_lnk (f : Lnk → Lnk) : (s.lk f).lnk = f s.lnk := rfl
@[simp] theorem State.lk_hlm (f : Lnk → Lnk) : (s.lk f).hlm = s.hlm := rfl
@[simp] theorem State.lk_hdg (f : Lnk → Lnk) : (s.lk f).hdg = s.hdg := rfl
@[simp] theorem State.lk_mer (f : Lnk → Lnk) : (s.lk f).mer = s.mer := rfl
@[simp] theorem State.lk_cap (f : Lnk → Lnk) : (s.lk f).cap = s.cap := rfl
@[simp] theorem State.lk_sxt (f : Lnk → Lnk) : (s.lk f).sxt = s.sxt := rfl
@[simp] theorem State.lk_adc (f : Lnk → Lnk) : (s.lk f).adc = s.adc := rfl
@[simp] theorem State.lk_cal (f : Lnk → Lnk) : (s.lk f).cal = s.cal := rfl
@[simp] theorem State.lk_thm (f : Lnk → Lnk) : (s.lk f).thm = s.thm := rfl
@[simp] theorem State.lk_boot (f : Lnk → Lnk) : (s.lk f).boot = s.boot := rfl
@[simp] theorem State.lk_obs (f : Lnk → Lnk) : (s.lk f).obs = s.obs := rfl
@[simp] theorem State.lk_reg (f : Lnk → Lnk) (a : Nat) : (s.lk f).reg a = s.reg a := rfl
@[simp] theorem State.lk_rd (f : Lnk → Lnk) (g : Fld) : (s.lk f).rd g = s.rd g := rfl
@[simp] theorem State.lk_mode (f : Lnk → Lnk) : (s.lk f).mode = s.mode := rfl

@[simp] theorem State.cl_pending (f : Cal → Cal) : (s.cl f).pending = s.pending := rfl
@[simp] theorem State.cl_regs (f : Cal → Cal) : (s.cl f).regs = s.regs := rfl
@[simp] theorem State.cl_raises (f : Cal → Cal) : (s.cl f).raises = s.raises := rfl
@[simp] theorem State.cl_raised (f : Cal → Cal) : (s.cl f).raised = s.raised := rfl
@[simp] theorem State.cl_freeIx (f : Cal → Cal) : (s.cl f).freeIx = s.freeIx := rfl
@[simp] theorem State.cl_sys (f : Cal → Cal) : (s.cl f).sys = s.sys := rfl
@[simp] theorem State.cl_det (f : Cal → Cal) : (s.cl f).det = s.det := rfl
@[simp] theorem State.cl_tdc (f : Cal → Cal) : (s.cl f).tdc = s.tdc := rfl
@[simp] theorem State.cl_his (f : Cal → Cal) : (s.cl f).his = s.his := rfl
@[simp] theorem State.cl_til (f : Cal → Cal) : (s.cl f).til = s.til := rfl
@[simp] theorem State.cl_oq (f : Cal → Cal) : (s.cl f).oq = s.oq := rfl
@[simp] theorem State.cl_emi (f : Cal → Cal) : (s.cl f).emi = s.emi := rfl
@[simp] theorem State.cl_mem (f : Cal → Cal) : (s.cl f).mem = s.mem := rfl
@[simp] theorem State.cl_lnk (f : Cal → Cal) : (s.cl f).lnk = s.lnk := rfl
@[simp] theorem State.cl_hlm (f : Cal → Cal) : (s.cl f).hlm = s.hlm := rfl
@[simp] theorem State.cl_hdg (f : Cal → Cal) : (s.cl f).hdg = s.hdg := rfl
@[simp] theorem State.cl_mer (f : Cal → Cal) : (s.cl f).mer = s.mer := rfl
@[simp] theorem State.cl_cap (f : Cal → Cal) : (s.cl f).cap = s.cap := rfl
@[simp] theorem State.cl_sxt (f : Cal → Cal) : (s.cl f).sxt = s.sxt := rfl
@[simp] theorem State.cl_adc (f : Cal → Cal) : (s.cl f).adc = s.adc := rfl
@[simp] theorem State.cl_cal (f : Cal → Cal) : (s.cl f).cal = f s.cal := rfl
@[simp] theorem State.cl_thm (f : Cal → Cal) : (s.cl f).thm = s.thm := rfl
@[simp] theorem State.cl_boot (f : Cal → Cal) : (s.cl f).boot = s.boot := rfl
@[simp] theorem State.cl_obs (f : Cal → Cal) : (s.cl f).obs = s.obs := rfl
@[simp] theorem State.cl_reg (f : Cal → Cal) (a : Nat) : (s.cl f).reg a = s.reg a := rfl
@[simp] theorem State.cl_rd (f : Cal → Cal) (g : Fld) : (s.cl f).rd g = s.rd g := rfl
@[simp] theorem State.cl_mode (f : Cal → Cal) : (s.cl f).mode = s.mode := rfl

@[simp] theorem State.hs_pending (f : His → His) : (s.hs f).pending = s.pending := rfl
@[simp] theorem State.hs_regs (f : His → His) : (s.hs f).regs = s.regs := rfl
@[simp] theorem State.hs_raises (f : His → His) : (s.hs f).raises = s.raises := rfl
@[simp] theorem State.hs_raised (f : His → His) : (s.hs f).raised = s.raised := rfl
@[simp] theorem State.hs_freeIx (f : His → His) : (s.hs f).freeIx = s.freeIx := rfl
@[simp] theorem State.hs_sys (f : His → His) : (s.hs f).sys = s.sys := rfl
@[simp] theorem State.hs_det (f : His → His) : (s.hs f).det = s.det := rfl
@[simp] theorem State.hs_tdc (f : His → His) : (s.hs f).tdc = s.tdc := rfl
@[simp] theorem State.hs_his (f : His → His) : (s.hs f).his = f s.his := rfl
@[simp] theorem State.hs_til (f : His → His) : (s.hs f).til = s.til := rfl
@[simp] theorem State.hs_oq (f : His → His) : (s.hs f).oq = s.oq := rfl
@[simp] theorem State.hs_emi (f : His → His) : (s.hs f).emi = s.emi := rfl
@[simp] theorem State.hs_mem (f : His → His) : (s.hs f).mem = s.mem := rfl
@[simp] theorem State.hs_lnk (f : His → His) : (s.hs f).lnk = s.lnk := rfl
@[simp] theorem State.hs_hlm (f : His → His) : (s.hs f).hlm = s.hlm := rfl
@[simp] theorem State.hs_hdg (f : His → His) : (s.hs f).hdg = s.hdg := rfl
@[simp] theorem State.hs_mer (f : His → His) : (s.hs f).mer = s.mer := rfl
@[simp] theorem State.hs_cap (f : His → His) : (s.hs f).cap = s.cap := rfl
@[simp] theorem State.hs_sxt (f : His → His) : (s.hs f).sxt = s.sxt := rfl
@[simp] theorem State.hs_adc (f : His → His) : (s.hs f).adc = s.adc := rfl
@[simp] theorem State.hs_cal (f : His → His) : (s.hs f).cal = s.cal := rfl
@[simp] theorem State.hs_thm (f : His → His) : (s.hs f).thm = s.thm := rfl
@[simp] theorem State.hs_boot (f : His → His) : (s.hs f).boot = s.boot := rfl
@[simp] theorem State.hs_obs (f : His → His) : (s.hs f).obs = s.obs := rfl
@[simp] theorem State.hs_reg (f : His → His) (a : Nat) : (s.hs f).reg a = s.reg a := rfl
@[simp] theorem State.hs_rd (f : His → His) (g : Fld) : (s.hs f).rd g = s.rd g := rfl
@[simp] theorem State.hs_mode (f : His → His) : (s.hs f).mode = s.mode := rfl

@[simp] theorem State.em_pending (f : Emi → Emi) : (s.em f).pending = s.pending := rfl
@[simp] theorem State.em_regs (f : Emi → Emi) : (s.em f).regs = s.regs := rfl
@[simp] theorem State.em_raises (f : Emi → Emi) : (s.em f).raises = s.raises := rfl
@[simp] theorem State.em_raised (f : Emi → Emi) : (s.em f).raised = s.raised := rfl
@[simp] theorem State.em_freeIx (f : Emi → Emi) : (s.em f).freeIx = s.freeIx := rfl
@[simp] theorem State.em_sys (f : Emi → Emi) : (s.em f).sys = s.sys := rfl
@[simp] theorem State.em_det (f : Emi → Emi) : (s.em f).det = s.det := rfl
@[simp] theorem State.em_tdc (f : Emi → Emi) : (s.em f).tdc = s.tdc := rfl
@[simp] theorem State.em_his (f : Emi → Emi) : (s.em f).his = s.his := rfl
@[simp] theorem State.em_til (f : Emi → Emi) : (s.em f).til = s.til := rfl
@[simp] theorem State.em_oq (f : Emi → Emi) : (s.em f).oq = s.oq := rfl
@[simp] theorem State.em_emi (f : Emi → Emi) : (s.em f).emi = f s.emi := rfl
@[simp] theorem State.em_mem (f : Emi → Emi) : (s.em f).mem = s.mem := rfl
@[simp] theorem State.em_lnk (f : Emi → Emi) : (s.em f).lnk = s.lnk := rfl
@[simp] theorem State.em_hlm (f : Emi → Emi) : (s.em f).hlm = s.hlm := rfl
@[simp] theorem State.em_hdg (f : Emi → Emi) : (s.em f).hdg = s.hdg := rfl
@[simp] theorem State.em_mer (f : Emi → Emi) : (s.em f).mer = s.mer := rfl
@[simp] theorem State.em_cap (f : Emi → Emi) : (s.em f).cap = s.cap := rfl
@[simp] theorem State.em_sxt (f : Emi → Emi) : (s.em f).sxt = s.sxt := rfl
@[simp] theorem State.em_adc (f : Emi → Emi) : (s.em f).adc = s.adc := rfl
@[simp] theorem State.em_cal (f : Emi → Emi) : (s.em f).cal = s.cal := rfl
@[simp] theorem State.em_thm (f : Emi → Emi) : (s.em f).thm = s.thm := rfl
@[simp] theorem State.em_boot (f : Emi → Emi) : (s.em f).boot = s.boot := rfl
@[simp] theorem State.em_obs (f : Emi → Emi) : (s.em f).obs = s.obs := rfl
@[simp] theorem State.em_reg (f : Emi → Emi) (a : Nat) : (s.em f).reg a = s.reg a := rfl
@[simp] theorem State.em_rd (f : Emi → Emi) (g : Fld) : (s.em f).rd g = s.rd g := rfl
@[simp] theorem State.em_mode (f : Emi → Emi) : (s.em f).mode = s.mode := rfl

@[simp] theorem State.hd_pending (f : Hdg → Hdg) : (s.hd f).pending = s.pending := rfl
@[simp] theorem State.hd_regs (f : Hdg → Hdg) : (s.hd f).regs = s.regs := rfl
@[simp] theorem State.hd_raises (f : Hdg → Hdg) : (s.hd f).raises = s.raises := rfl
@[simp] theorem State.hd_raised (f : Hdg → Hdg) : (s.hd f).raised = s.raised := rfl
@[simp] theorem State.hd_freeIx (f : Hdg → Hdg) : (s.hd f).freeIx = s.freeIx := rfl
@[simp] theorem State.hd_sys (f : Hdg → Hdg) : (s.hd f).sys = s.sys := rfl
@[simp] theorem State.hd_det (f : Hdg → Hdg) : (s.hd f).det = s.det := rfl
@[simp] theorem State.hd_tdc (f : Hdg → Hdg) : (s.hd f).tdc = s.tdc := rfl
@[simp] theorem State.hd_his (f : Hdg → Hdg) : (s.hd f).his = s.his := rfl
@[simp] theorem State.hd_til (f : Hdg → Hdg) : (s.hd f).til = s.til := rfl
@[simp] theorem State.hd_oq (f : Hdg → Hdg) : (s.hd f).oq = s.oq := rfl
@[simp] theorem State.hd_emi (f : Hdg → Hdg) : (s.hd f).emi = s.emi := rfl
@[simp] theorem State.hd_mem (f : Hdg → Hdg) : (s.hd f).mem = s.mem := rfl
@[simp] theorem State.hd_lnk (f : Hdg → Hdg) : (s.hd f).lnk = s.lnk := rfl
@[simp] theorem State.hd_hlm (f : Hdg → Hdg) : (s.hd f).hlm = s.hlm := rfl
@[simp] theorem State.hd_hdg (f : Hdg → Hdg) : (s.hd f).hdg = f s.hdg := rfl
@[simp] theorem State.hd_mer (f : Hdg → Hdg) : (s.hd f).mer = s.mer := rfl
@[simp] theorem State.hd_cap (f : Hdg → Hdg) : (s.hd f).cap = s.cap := rfl
@[simp] theorem State.hd_sxt (f : Hdg → Hdg) : (s.hd f).sxt = s.sxt := rfl
@[simp] theorem State.hd_adc (f : Hdg → Hdg) : (s.hd f).adc = s.adc := rfl
@[simp] theorem State.hd_cal (f : Hdg → Hdg) : (s.hd f).cal = s.cal := rfl
@[simp] theorem State.hd_thm (f : Hdg → Hdg) : (s.hd f).thm = s.thm := rfl
@[simp] theorem State.hd_boot (f : Hdg → Hdg) : (s.hd f).boot = s.boot := rfl
@[simp] theorem State.hd_obs (f : Hdg → Hdg) : (s.hd f).obs = s.obs := rfl
@[simp] theorem State.hd_reg (f : Hdg → Hdg) (a : Nat) : (s.hd f).reg a = s.reg a := rfl
@[simp] theorem State.hd_rd (f : Hdg → Hdg) (g : Fld) : (s.hd f).rd g = s.rd g := rfl
@[simp] theorem State.hd_mode (f : Hdg → Hdg) : (s.hd f).mode = s.mode := rfl

@[simp] theorem State.hl_pending (f : Hlm → Hlm) : (s.hl f).pending = s.pending := rfl
@[simp] theorem State.hl_regs (f : Hlm → Hlm) : (s.hl f).regs = s.regs := rfl
@[simp] theorem State.hl_raises (f : Hlm → Hlm) : (s.hl f).raises = s.raises := rfl
@[simp] theorem State.hl_raised (f : Hlm → Hlm) : (s.hl f).raised = s.raised := rfl
@[simp] theorem State.hl_freeIx (f : Hlm → Hlm) : (s.hl f).freeIx = s.freeIx := rfl
@[simp] theorem State.hl_sys (f : Hlm → Hlm) : (s.hl f).sys = s.sys := rfl
@[simp] theorem State.hl_det (f : Hlm → Hlm) : (s.hl f).det = s.det := rfl
@[simp] theorem State.hl_tdc (f : Hlm → Hlm) : (s.hl f).tdc = s.tdc := rfl
@[simp] theorem State.hl_his (f : Hlm → Hlm) : (s.hl f).his = s.his := rfl
@[simp] theorem State.hl_til (f : Hlm → Hlm) : (s.hl f).til = s.til := rfl
@[simp] theorem State.hl_oq (f : Hlm → Hlm) : (s.hl f).oq = s.oq := rfl
@[simp] theorem State.hl_emi (f : Hlm → Hlm) : (s.hl f).emi = s.emi := rfl
@[simp] theorem State.hl_mem (f : Hlm → Hlm) : (s.hl f).mem = s.mem := rfl
@[simp] theorem State.hl_lnk (f : Hlm → Hlm) : (s.hl f).lnk = s.lnk := rfl
@[simp] theorem State.hl_hlm (f : Hlm → Hlm) : (s.hl f).hlm = f s.hlm := rfl
@[simp] theorem State.hl_hdg (f : Hlm → Hlm) : (s.hl f).hdg = s.hdg := rfl
@[simp] theorem State.hl_mer (f : Hlm → Hlm) : (s.hl f).mer = s.mer := rfl
@[simp] theorem State.hl_cap (f : Hlm → Hlm) : (s.hl f).cap = s.cap := rfl
@[simp] theorem State.hl_sxt (f : Hlm → Hlm) : (s.hl f).sxt = s.sxt := rfl
@[simp] theorem State.hl_adc (f : Hlm → Hlm) : (s.hl f).adc = s.adc := rfl
@[simp] theorem State.hl_cal (f : Hlm → Hlm) : (s.hl f).cal = s.cal := rfl
@[simp] theorem State.hl_thm (f : Hlm → Hlm) : (s.hl f).thm = s.thm := rfl
@[simp] theorem State.hl_boot (f : Hlm → Hlm) : (s.hl f).boot = s.boot := rfl
@[simp] theorem State.hl_obs (f : Hlm → Hlm) : (s.hl f).obs = s.obs := rfl
@[simp] theorem State.hl_reg (f : Hlm → Hlm) (a : Nat) : (s.hl f).reg a = s.reg a := rfl
@[simp] theorem State.hl_rd (f : Hlm → Hlm) (g : Fld) : (s.hl f).rd g = s.rd g := rfl
@[simp] theorem State.hl_mode (f : Hlm → Hlm) : (s.hl f).mode = s.mode := rfl

@[simp] theorem State.mb_pending (f : Mer → Mer) : (s.mb f).pending = s.pending := rfl
@[simp] theorem State.mb_regs (f : Mer → Mer) : (s.mb f).regs = s.regs := rfl
@[simp] theorem State.mb_raises (f : Mer → Mer) : (s.mb f).raises = s.raises := rfl
@[simp] theorem State.mb_raised (f : Mer → Mer) : (s.mb f).raised = s.raised := rfl
@[simp] theorem State.mb_freeIx (f : Mer → Mer) : (s.mb f).freeIx = s.freeIx := rfl
@[simp] theorem State.mb_sys (f : Mer → Mer) : (s.mb f).sys = s.sys := rfl
@[simp] theorem State.mb_det (f : Mer → Mer) : (s.mb f).det = s.det := rfl
@[simp] theorem State.mb_tdc (f : Mer → Mer) : (s.mb f).tdc = s.tdc := rfl
@[simp] theorem State.mb_his (f : Mer → Mer) : (s.mb f).his = s.his := rfl
@[simp] theorem State.mb_til (f : Mer → Mer) : (s.mb f).til = s.til := rfl
@[simp] theorem State.mb_oq (f : Mer → Mer) : (s.mb f).oq = s.oq := rfl
@[simp] theorem State.mb_emi (f : Mer → Mer) : (s.mb f).emi = s.emi := rfl
@[simp] theorem State.mb_mem (f : Mer → Mer) : (s.mb f).mem = s.mem := rfl
@[simp] theorem State.mb_lnk (f : Mer → Mer) : (s.mb f).lnk = s.lnk := rfl
@[simp] theorem State.mb_hlm (f : Mer → Mer) : (s.mb f).hlm = s.hlm := rfl
@[simp] theorem State.mb_hdg (f : Mer → Mer) : (s.mb f).hdg = s.hdg := rfl
@[simp] theorem State.mb_mer (f : Mer → Mer) : (s.mb f).mer = f s.mer := rfl
@[simp] theorem State.mb_cap (f : Mer → Mer) : (s.mb f).cap = s.cap := rfl
@[simp] theorem State.mb_sxt (f : Mer → Mer) : (s.mb f).sxt = s.sxt := rfl
@[simp] theorem State.mb_adc (f : Mer → Mer) : (s.mb f).adc = s.adc := rfl
@[simp] theorem State.mb_cal (f : Mer → Mer) : (s.mb f).cal = s.cal := rfl
@[simp] theorem State.mb_thm (f : Mer → Mer) : (s.mb f).thm = s.thm := rfl
@[simp] theorem State.mb_boot (f : Mer → Mer) : (s.mb f).boot = s.boot := rfl
@[simp] theorem State.mb_obs (f : Mer → Mer) : (s.mb f).obs = s.obs := rfl
@[simp] theorem State.mb_reg (f : Mer → Mer) (a : Nat) : (s.mb f).reg a = s.reg a := rfl
@[simp] theorem State.mb_rd (f : Mer → Mer) (g : Fld) : (s.mb f).rd g = s.rd g := rfl
@[simp] theorem State.mb_mode (f : Mer → Mer) : (s.mb f).mode = s.mode := rfl

@[simp] theorem State.sx_pending (f : Sxt → Sxt) : (s.sx f).pending = s.pending := rfl
@[simp] theorem State.sx_regs (f : Sxt → Sxt) : (s.sx f).regs = s.regs := rfl
@[simp] theorem State.sx_raises (f : Sxt → Sxt) : (s.sx f).raises = s.raises := rfl
@[simp] theorem State.sx_raised (f : Sxt → Sxt) : (s.sx f).raised = s.raised := rfl
@[simp] theorem State.sx_freeIx (f : Sxt → Sxt) : (s.sx f).freeIx = s.freeIx := rfl
@[simp] theorem State.sx_sys (f : Sxt → Sxt) : (s.sx f).sys = s.sys := rfl
@[simp] theorem State.sx_det (f : Sxt → Sxt) : (s.sx f).det = s.det := rfl
@[simp] theorem State.sx_tdc (f : Sxt → Sxt) : (s.sx f).tdc = s.tdc := rfl
@[simp] theorem State.sx_his (f : Sxt → Sxt) : (s.sx f).his = s.his := rfl
@[simp] theorem State.sx_til (f : Sxt → Sxt) : (s.sx f).til = s.til := rfl
@[simp] theorem State.sx_oq (f : Sxt → Sxt) : (s.sx f).oq = s.oq := rfl
@[simp] theorem State.sx_emi (f : Sxt → Sxt) : (s.sx f).emi = s.emi := rfl
@[simp] theorem State.sx_mem (f : Sxt → Sxt) : (s.sx f).mem = s.mem := rfl
@[simp] theorem State.sx_lnk (f : Sxt → Sxt) : (s.sx f).lnk = s.lnk := rfl
@[simp] theorem State.sx_hlm (f : Sxt → Sxt) : (s.sx f).hlm = s.hlm := rfl
@[simp] theorem State.sx_hdg (f : Sxt → Sxt) : (s.sx f).hdg = s.hdg := rfl
@[simp] theorem State.sx_mer (f : Sxt → Sxt) : (s.sx f).mer = s.mer := rfl
@[simp] theorem State.sx_cap (f : Sxt → Sxt) : (s.sx f).cap = s.cap := rfl
@[simp] theorem State.sx_sxt (f : Sxt → Sxt) : (s.sx f).sxt = f s.sxt := rfl
@[simp] theorem State.sx_adc (f : Sxt → Sxt) : (s.sx f).adc = s.adc := rfl
@[simp] theorem State.sx_cal (f : Sxt → Sxt) : (s.sx f).cal = s.cal := rfl
@[simp] theorem State.sx_thm (f : Sxt → Sxt) : (s.sx f).thm = s.thm := rfl
@[simp] theorem State.sx_boot (f : Sxt → Sxt) : (s.sx f).boot = s.boot := rfl
@[simp] theorem State.sx_obs (f : Sxt → Sxt) : (s.sx f).obs = s.obs := rfl
@[simp] theorem State.sx_reg (f : Sxt → Sxt) (a : Nat) : (s.sx f).reg a = s.reg a := rfl
@[simp] theorem State.sx_rd (f : Sxt → Sxt) (g : Fld) : (s.sx f).rd g = s.rd g := rfl
@[simp] theorem State.sx_mode (f : Sxt → Sxt) : (s.sx f).mode = s.mode := rfl

@[simp] theorem State.th_pending (f : Thm → Thm) : (s.th f).pending = s.pending := rfl
@[simp] theorem State.th_regs (f : Thm → Thm) : (s.th f).regs = s.regs := rfl
@[simp] theorem State.th_raises (f : Thm → Thm) : (s.th f).raises = s.raises := rfl
@[simp] theorem State.th_raised (f : Thm → Thm) : (s.th f).raised = s.raised := rfl
@[simp] theorem State.th_freeIx (f : Thm → Thm) : (s.th f).freeIx = s.freeIx := rfl
@[simp] theorem State.th_sys (f : Thm → Thm) : (s.th f).sys = s.sys := rfl
@[simp] theorem State.th_det (f : Thm → Thm) : (s.th f).det = s.det := rfl
@[simp] theorem State.th_tdc (f : Thm → Thm) : (s.th f).tdc = s.tdc := rfl
@[simp] theorem State.th_his (f : Thm → Thm) : (s.th f).his = s.his := rfl
@[simp] theorem State.th_til (f : Thm → Thm) : (s.th f).til = s.til := rfl
@[simp] theorem State.th_oq (f : Thm → Thm) : (s.th f).oq = s.oq := rfl
@[simp] theorem State.th_emi (f : Thm → Thm) : (s.th f).emi = s.emi := rfl
@[simp] theorem State.th_mem (f : Thm → Thm) : (s.th f).mem = s.mem := rfl
@[simp] theorem State.th_lnk (f : Thm → Thm) : (s.th f).lnk = s.lnk := rfl
@[simp] theorem State.th_hlm (f : Thm → Thm) : (s.th f).hlm = s.hlm := rfl
@[simp] theorem State.th_hdg (f : Thm → Thm) : (s.th f).hdg = s.hdg := rfl
@[simp] theorem State.th_mer (f : Thm → Thm) : (s.th f).mer = s.mer := rfl
@[simp] theorem State.th_cap (f : Thm → Thm) : (s.th f).cap = s.cap := rfl
@[simp] theorem State.th_sxt (f : Thm → Thm) : (s.th f).sxt = s.sxt := rfl
@[simp] theorem State.th_adc (f : Thm → Thm) : (s.th f).adc = s.adc := rfl
@[simp] theorem State.th_cal (f : Thm → Thm) : (s.th f).cal = s.cal := rfl
@[simp] theorem State.th_thm (f : Thm → Thm) : (s.th f).thm = f s.thm := rfl
@[simp] theorem State.th_boot (f : Thm → Thm) : (s.th f).boot = s.boot := rfl
@[simp] theorem State.th_obs (f : Thm → Thm) : (s.th f).obs = s.obs := rfl
@[simp] theorem State.th_reg (f : Thm → Thm) (a : Nat) : (s.th f).reg a = s.reg a := rfl
@[simp] theorem State.th_rd (f : Thm → Thm) (g : Fld) : (s.th f).rd g = s.rd g := rfl
@[simp] theorem State.th_mode (f : Thm → Thm) : (s.th f).mode = s.mode := rfl

@[simp] theorem State.setTiller_pending (n : Nat) (t : Tiller) : (s.setTiller n t).pending = s.pending := rfl
@[simp] theorem State.setTiller_regs (n : Nat) (t : Tiller) : (s.setTiller n t).regs = s.regs := rfl
@[simp] theorem State.setTiller_raises (n : Nat) (t : Tiller) : (s.setTiller n t).raises = s.raises := rfl
@[simp] theorem State.setTiller_raised (n : Nat) (t : Tiller) : (s.setTiller n t).raised = s.raised := rfl
@[simp] theorem State.setTiller_freeIx (n : Nat) (t : Tiller) : (s.setTiller n t).freeIx = s.freeIx := rfl
@[simp] theorem State.setTiller_sys (n : Nat) (t : Tiller) : (s.setTiller n t).sys = s.sys := rfl
@[simp] theorem State.setTiller_det (n : Nat) (t : Tiller) : (s.setTiller n t).det = s.det := rfl
@[simp] theorem State.setTiller_tdc (n : Nat) (t : Tiller) : (s.setTiller n t).tdc = s.tdc := rfl
@[simp] theorem State.setTiller_his (n : Nat) (t : Tiller) : (s.setTiller n t).his = s.his := rfl
@[simp] theorem State.setTiller_til (n : Nat) (t : Tiller) : (s.setTiller n t).til = Tab.set (fun _ => {}) s.til n t := rfl
@[simp] theorem State.setTiller_oq (n : Nat) (t : Tiller) : (s.setTiller n t).oq = s.oq := rfl
@[simp] theorem State.setTiller_emi (n : Nat) (t : Tiller) : (s.setTiller n t).emi = s.emi := rfl
@[simp] theorem State.setTiller_mem (n : Nat) (t : Tiller) : (s.setTiller n t).mem = s.mem := rfl
@[simp] theorem State.setTiller_lnk (n : Nat) (t : Tiller) : (s.setTiller n t).lnk = s.lnk := rfl
@[simp] theorem State.setTiller_hlm (n : Nat) (t : Tiller) : (s.setTiller n t).hlm = s.hlm := rfl
@[simp] theorem State.setTiller_hdg (n : Nat) (t : Tiller) : (s.setTiller n t).hdg = s.hdg := rfl
@[simp] theorem State.setTiller_mer (n : Nat) (t : Tiller) : (s.setTiller n t).mer = s.mer := rfl
@[simp] theorem State.setTiller_cap (n : Nat) (t : Tiller) : (s.setTiller n t).cap = s.cap := rfl
@[simp] theorem State.setTiller_sxt (n : Nat) (t : Tiller) : (s.setTiller n t).sxt = s.sxt := rfl
@[simp] theorem State.setTiller_adc (n : Nat) (t : Tiller) : (s.setTiller n t).adc = s.adc := rfl
@[simp] theorem State.setTiller_cal (n : Nat) (t : Tiller) : (s.setTiller n t).cal = s.cal := rfl
@[simp] theorem State.setTiller_thm (n : Nat) (t : Tiller) : (s.setTiller n t).thm = s.thm := rfl
@[simp] theorem State.setTiller_boot (n : Nat) (t : Tiller) : (s.setTiller n t).boot = s.boot := rfl
@[simp] theorem State.setTiller_obs (n : Nat) (t : Tiller) : (s.setTiller n t).obs = s.obs := rfl

end Sys2Proof.Machine
end

