-- ==== Sys2Proof/Laws/Reset.lean ====
section
/-! SUPPORT. What an entry to RESET does, said once. -/

namespace Sys2Proof.Machine

theorem Tab.get_filterMap_none {α : Type} (d : Nat → α) (t : Tab α) (g : Nat × α → Option (Nat × α)) (a : Nat)
    (hk : ∀ e x, g e = some x → x.1 = e.1) (h : ∀ w, g (a, w) = none) : Tab.get d (t.filterMap g) a = d a := by
  induction t with
  | nil => rfl
  | cons e r ih =>
    obtain ⟨j, w⟩ := e
    rw [List.filterMap_cons]
    split
    · exact ih
    · rename_i x hx
      obtain ⟨j', w'⟩ := x
      have hj : j' = j := hk _ _ hx
      subst hj
      by_cases hja : j' = a
      · subst hja; rw [h] at hx; exact absurd hx (by simp)
      · simpa [Tab.get, hja] using ih

theorem Tab.get_filterMap_self {α : Type} (d : Nat → α) (t : Tab α) (g : Nat × α → Option (Nat × α)) (a : Nat)
    (hk : ∀ e x, g e = some x → x.1 = e.1) (h : ∀ w, g (a, w) = some (a, w)) : Tab.get d (t.filterMap g) a = Tab.get d t a := by
  induction t with
  | nil => rfl
  | cons e r ih =>
    obtain ⟨j, w⟩ := e
    rw [List.filterMap_cons]
    split
    · rename_i hx
      have hja : j ≠ a := by rintro rfl; rw [h] at hx; exact absurd hx (by simp)
      simpa [Tab.get, hja] using ih
    · rename_i x hx
      obtain ⟨j', w'⟩ := x
      have hj : j' = j := hk _ _ hx
      subst hj
      by_cases hja : j' = a
      · subst hja; rw [h] at hx; obtain rfl : w = w' := by simpa using hx
        simp [Tab.get]
      · simpa [Tab.get, hja] using ih

/-- The registers as an entry to RESET leaves them. -/
theorem keep_key (warm : Bool) (e x : Nat × Word)
    (h : (if keptReg e.1 then some e else if warm then keepRws e else none) = some x) : x.1 = e.1 := by
  split at h
  · obtain rfl := Option.some.inj h; rfl
  · split at h
    · exact (keepRws_wf e x h).1
    · exact absurd h (by simp)

theorem keepRws_mode (w : Word) : keepRws (R.SYS_MODE, w) = none := by
  have h : ∃ r i j, findReg R.SYS_MODE = some (r, i, j) ∧ (r.fields.filter fun f => f.acc == .rws) = [] := by
    refine ⟨_, _, _, rfl, ?_⟩
    decide
  obtain ⟨r, i, j, h, k⟩ := h
  simp only [keepRws, h, k, List.foldl_nil, if_true]

/-- `t` is the state a RESET of `u` leaves (`wasReset`), where it cuts no burn. -/
structure coreReset (cold : Bool) (u t : State) : Prop where
  mode : t.mode = mRESET
  raised : t.raises = []
  units : t.det = {} ∧ t.tdc = {} ∧ t.his = {} ∧ t.til = [] ∧ t.oq = {} ∧ t.emi = {} ∧ t.mer = {} ∧ t.cap = {} ∧ t.adc = {}
    ∧ t.obs = {}
  fuse : t.cal.fuse = u.cal.fuse
  flash : t.boot.flash = u.boot.flash
  latch : t.on F.HDG_STATUS_LATCH = u.on F.HDG_STATUS_LATCH
  regs : cold = true → ∀ a, keptReg a = false → a ≠ R.CAL_STATUS → t.reg a = resetWord a

/-- What RESET does (R10, R30, R410, R412), a burn's row aside. -/
theorem State.resetCore_reset (s : State) (cause : Nat) (warm : Bool) :
    coreReset (!warm) s (s.resetCore cause warm) ∧ (s.resetCore cause warm).rd F.BOOT_LAST_RESET_CAUSE = cause % 16 ∧
      (s.resetCore cause warm).rd F.BOOT_LAST_RESET_FAIL_STEP = 0 := by
  unfold State.resetCore
  generalize s.memThrough warm = p
  obtain ⟨mem, ix⟩ := p
  simp -zeta only
  lift_lets -underBinder
  intro t0 t1
  have hk (a : Nat) (ha : keptReg a = true) : t0.reg a = s.reg a :=
    Tab.get_filterMap_self _ _ _ _ (keep_key warm) fun w => by rw [if_pos ha]
  have hr (hw : warm = false) (a : Nat) (ha : keptReg a = false) : t0.reg a = resetWord a :=
    Tab.get_filterMap_none _ _ _ _ (keep_key warm) fun w => by simp [ha, hw]
  have hm : t0.rd F.SYS_MODE_MODE = 0 := by
    have : t0.reg R.SYS_MODE = resetWord R.SYS_MODE :=
      Tab.get_filterMap_none _ _ _ _ (keep_key warm) fun w => by
        have : keptReg R.SYS_MODE = false := by decide
        simp [this, keepRws_mode]
    simp only [State.rd, F.SYS_MODE_MODE, this]
    decide
  generalize hy : (t1.wr F.BOOT_LAST_RESET_CAUSE cause).wr F.BOOT_LAST_RESET_FAIL_STEP 0 = y
  have hf := State.hedgeShow_fr y
  have hu : ∀ p : Part, p ≠ .regs → p.same t0 y := fun p hp => by
    subst hy; cases p <;> first | exact absurd rfl hp | rfl
  have hs : ∀ p : Part, p ≠ .regs → p ≠ .hdg → p.same t0 y.hedgeShow := fun p hp hq => by
    refine Part.same_trans (hu p hp) (hf.same p ?_)
    cases p <;> first | exact absurd rfl hp | exact absurd rfl hq | decide
  have hreg (a : Nat) (h1 : a ≠ R.CAL_STATUS) (h2 : a ≠ R.BOOT_LAST_RESET) (h3 : a < 0x780000 ∨ 0x800000 ≤ a) :
      y.hedgeShow.reg a = t0.reg a := by
    have e1 : y.hedgeShow.reg a = y.reg a := by
      unfold State.hedgeShow
      lift_lets -underBinder
      intro m s1 s2
      have e2 : s2.reg a = s1.reg a := by unfold s2; split <;> rfl
      rw [State.put, State.reg_wr_ne _ _ _ _ (by simp only [F.HDG_STATUS_CLEAR, R.HDG_STATUS]; omega), e2]
      exact State.reg_wr_ne _ _ _ _ (by simp only [F.HDG_PRESENT_CAUSE, R.HDG_PRESENT]; omega)
    rw [e1, ← hy, State.reg_wr_ne _ _ _ _ (by exact h2), State.reg_wr_ne _ _ _ _ (by exact h2)]
    exact State.reg_wr_ne _ _ _ _ (by exact h1)
  refine ⟨⟨?_, hs .raised (by decide) (by decide), ?_, ?_, ?_, ?_, ?_⟩, ?_, ?_⟩
  · rw [State.mode, hf.rd _ (by decide +kernel), ← hy, State.rd_wr_apart _ _ _ _ (by decide), State.rd_wr_apart _ _ _ _ (by decide)]
    exact (State.rd_put_apart _ _ _ _ (by decide)).trans hm
  · exact ⟨hs .det (by decide) (by decide), hs .tdc (by decide) (by decide), hs .his (by decide) (by decide),
      hs .til (by decide) (by decide), hs .oq (by decide) (by decide), hs .emi (by decide) (by decide),
      hs .mer (by decide) (by decide), hs .cap (by decide) (by decide), hs .adc (by decide) (by decide),
      hs .obs (by decide) (by decide)⟩
  · have e : y.hedgeShow.cal = t0.cal := hs .cal (by decide) (by decide)
    rw [e]
  · exact hs .flash (by decide) (by decide)
  · rw [hf.on _ (by decide +kernel), ← hy, State.on, State.rd_wr_apart _ _ _ _ (by decide), State.rd_wr_apart _ _ _ _ (by decide)]
    rw [show t1.rd F.HDG_STATUS_LATCH = t0.rd F.HDG_STATUS_LATCH from State.rd_put_apart _ _ _ _ (by decide), State.on, State.rd,
      State.rd, hk _ (by decide)]
  · intro hw a ha hc
    have hw' : warm = false := by simpa using hw
    rw [hreg a hc]
    · exact hr hw' a ha
    · rintro rfl; exact absurd ha (by decide)
    · simp only [keptReg, Bool.or_eq_false_iff, Bool.and_eq_false_iff, decide_eq_false_iff_not] at ha
      omega
  · rw [hf.rd _ (by decide +kernel), ← hy, State.rd_wr_apart _ _ _ _ (by decide), State.rd_wr_self _ _ _ (by decide)]
    rfl
  · rw [hf.rd _ (by decide +kernel), ← hy, State.rd_wr_self _ _ _ (by decide)]
    rfl

/-- What RESET does (R10, R30, R340, R410, R412). -/
theorem State.resetBody_reset (s : State) (cause : Nat) (warm : Bool) :
    wasReset (!warm) s (s.resetBody cause warm) ∧ (s.resetBody cause warm).rd F.BOOT_LAST_RESET_CAUSE = cause % 16 ∧
      (s.resetBody cause warm).rd F.BOOT_LAST_RESET_FAIL_STEP = 0 := by
  obtain ⟨⟨hm, hr, hu, hf, hb, hl, hg⟩, hc⟩ := s.burnTorn.resetCore_reset cause warm
  exact ⟨⟨hm, hr, hu, hf, hb.trans (s.burnTorn_fr.same .flash (by decide)), hl.trans (s.burnTorn_fr.on _ (by decide +kernel)),
    hg⟩, hc⟩

/-- What RESET keeps: the retained registers, and the record of failed starts (R412, R418). -/
theorem State.resetCore_kept (s : State) (cause : Nat) (warm : Bool) :
    (s.resetCore cause warm).reg R.THM_TRIP_REC = s.reg R.THM_TRIP_REC ∧
      (s.resetCore cause warm).reg R.BOOT_FAIL = s.reg R.BOOT_FAIL ∧
      (s.resetCore cause warm).boot.fails = s.boot.fails := by
  unfold State.resetCore
  generalize s.memThrough warm = p
  obtain ⟨mem, ix⟩ := p
  simp -zeta only
  lift_lets -underBinder
  intro t0 t1
  have hk (a : Nat) (ha : keptReg a = true) : t0.reg a = s.reg a :=
    Tab.get_filterMap_self _ _ _ _ (keep_key warm) fun w => by rw [if_pos ha]
  generalize hy : (t1.wr F.BOOT_LAST_RESET_CAUSE cause).wr F.BOOT_LAST_RESET_FAIL_STEP 0 = y
  have hf := State.hedgeShow_fr y
  have hu : ∀ p : Part, p ≠ .regs → p.same t0 y := fun p hp => by
    subst hy; cases p <;> first | exact absurd rfl hp | rfl
  have hs : ∀ p : Part, p ≠ .regs → p ≠ .hdg → p.same t0 y.hedgeShow := fun p hp hq => by
    refine Part.same_trans (hu p hp) (hf.same p ?_)
    cases p <;> first | exact absurd rfl hp | exact absurd rfl hq | decide
  have hreg (a : Nat) (h1 : a ≠ R.CAL_STATUS) (h2 : a ≠ R.BOOT_LAST_RESET) (h3 : a < 0x780000 ∨ 0x800000 ≤ a) :
      y.hedgeShow.reg a = t0.reg a := by
    have e1 : y.hedgeShow.reg a = y.reg a := by
      unfold State.hedgeShow
      lift_lets -underBinder
      intro m s1 s2
      have e2 : s2.reg a = s1.reg a := by unfold s2; split <;> rfl
      rw [State.put, State.reg_wr_ne _ _ _ _ (by simp only [F.HDG_STATUS_CLEAR, R.HDG_STATUS]; omega), e2]
      exact State.reg_wr_ne _ _ _ _ (by simp only [F.HDG_PRESENT_CAUSE, R.HDG_PRESENT]; omega)
    rw [e1, ← hy, State.reg_wr_ne _ _ _ _ (by exact h2), State.reg_wr_ne _ _ _ _ (by exact h2)]
    exact State.reg_wr_ne _ _ _ _ (by exact h1)
  refine ⟨?_, ?_, ?_⟩
  · rw [hreg _ (by decide) (by decide) (by decide)]; exact hk _ (by decide)
  · rw [hreg _ (by decide) (by decide) (by decide)]; exact hk _ (by decide)
  · have e : y.hedgeShow.boot = t0.boot := by
      have e1 : y.hedgeShow.boot = y.boot := by
        unfold State.hedgeShow
        lift_lets -underBinder
        intro m s1 s2
        have e2 : s2.boot = s1.boot := by unfold s2; split <;> rfl
        exact e2
      rw [e1, ← hy]
      rfl
    rw [e]

theorem State.resetBody_kept (s : State) (cause : Nat) (warm : Bool) :
    (s.resetBody cause warm).reg R.THM_TRIP_REC = s.reg R.THM_TRIP_REC ∧
      (s.resetBody cause warm).reg R.BOOT_FAIL = s.reg R.BOOT_FAIL ∧
      (s.resetBody cause warm).boot.fails = s.boot.fails := by
  obtain ⟨ht, hb, hf⟩ := s.burnTorn.resetCore_kept cause warm
  refine ⟨ht.trans (s.burnTorn_fr.reg _ (by decide +kernel)), hb.trans (s.burnTorn_fr.reg _ (by decide +kernel)), hf.trans ?_⟩
  have h : s.burnTorn.boot.rest = s.boot.rest := s.burnTorn_fr.same .boot (by decide)
  have k : s.burnTorn.boot.rest.fails = s.boot.rest.fails := by rw [h]
  exact k

/-- An entry to RESET from another mode is a RESET. -/
theorem State.enterReset_eq (s : State) (cause : Nat) (warm : Bool) (h : s.mode ≠ mRESET) :
    s.enterReset cause warm = s.resetBody cause warm := by
  rw [State.enterReset, if_neg h]

theorem State.enterReset_reset (s : State) (cause : Nat) (warm : Bool) (h : s.mode ≠ mRESET) :
    wasReset (!warm) s (s.enterReset cause warm) ∧ (s.enterReset cause warm).rd F.BOOT_LAST_RESET_CAUSE = cause % 16 ∧
      (s.enterReset cause warm).rd F.BOOT_LAST_RESET_FAIL_STEP = 0 := by
  rw [s.enterReset_eq cause warm h]; exact s.resetBody_reset cause warm

theorem State.enterReset_kept (s : State) (cause : Nat) (warm : Bool) (h : s.mode ≠ mRESET) :
    (s.enterReset cause warm).reg R.THM_TRIP_REC = s.reg R.THM_TRIP_REC ∧
      (s.enterReset cause warm).reg R.BOOT_FAIL = s.reg R.BOOT_FAIL ∧
      (s.enterReset cause warm).boot.fails = s.boot.fails := by
  rw [s.enterReset_eq cause warm h]; exact s.resetBody_kept cause warm

/-- A write of a register that every RESET keeps, the latch apart, changes nothing of it. -/
theorem wasReset.wr {c : Bool} {s t : State} (h : wasReset c s t) (f : Fld) (v : Nat) (k : keptReg f.addr = true)
    (p : Fld.apart f F.HDG_STATUS_LATCH = true) : wasReset c s (t.wr f v) := by
  have hm : F.SYS_MODE_MODE.addr ≠ f.addr := by rintro e; rw [← e] at k; exact absurd k (by decide)
  refine ⟨?_, h.raised, h.units, h.fuse, h.flash, ?_, fun hc a ha hs => ?_⟩
  · exact (State.rd_setReg_ne _ _ _ _ hm).trans h.mode
  · rw [← h.latch, State.on, State.on, State.rd_wr_apart _ _ _ _ p]
  · rw [State.reg_wr_ne _ _ _ _ (by rintro rfl; rw [k] at ha; exact absurd ha (by decide))]
    exact h.regs hc a ha hs

theorem wasReset.setReg {c : Bool} {s t : State} (h : wasReset c s t) (a : Nat) (v : Word) (k : keptReg a = true)
    (p : a ≠ R.HDG_STATUS) : wasReset c s (t.setReg a v) := by
  have hm : F.SYS_MODE_MODE.addr ≠ a := by rintro rfl; exact absurd k (by decide)
  have hl : F.HDG_STATUS_LATCH.addr ≠ a := fun e => p e.symm
  refine ⟨?_, h.raised, h.units, h.fuse, h.flash, ?_, fun hc b hb hs => ?_⟩
  · exact (State.rd_setReg_ne _ _ _ _ hm).trans h.mode
  · rw [← h.latch, State.on, State.on, State.rd_setReg_ne _ _ _ _ hl]
  · rw [State.reg_setReg_ne _ _ (by rintro rfl; rw [k] at hb; exact absurd hb (by decide))]
    exact h.regs hc b hb hs

/-- Registers that every RESET keeps take their reset values: the rest is as it was. -/
theorem wasReset.resetRegs {c : Bool} {s t : State} (h : wasReset c s t) (lo hi : Nat) (k : 0x780000 ≤ lo ∧ hi ≤ 0x800000)
    (p : hi ≤ R.HDG_STATUS ∨ R.HDG_STATUS < lo) : wasReset c s (t.resetRegs lo hi) := by
  have hr (a : Nat) (ha : a < lo ∨ hi ≤ a) : (t.resetRegs lo hi).reg a = t.reg a := by
    exact State.reg_resetRegs _ _ _ _ ha
  refine ⟨?_, h.raised, h.units, h.fuse, h.flash, ?_, fun hc a ha hs => ?_⟩
  · rw [← h.mode, State.mode, State.mode, State.rd, State.rd, hr _ (by simp only [F.SYS_MODE_MODE, R.SYS_MODE]; omega)]
  · rw [← h.latch, State.on, State.on, State.rd, State.rd, hr _ (by simp only [F.HDG_STATUS_LATCH]; omega)]
  · rw [hr a, h.regs hc a ha hs]
    simp only [keptReg, Bool.or_eq_false_iff, Bool.and_eq_false_iff, decide_eq_false_iff_not] at ha
    omega

/-- Changes of system state, temperatures' state or the hedge's own state leave a RESET as it is. -/
theorem wasReset.sy {c : Bool} {s t : State} (h : wasReset c s t) (f : Sys → Sys) : wasReset c s (t.sy f) :=
  ⟨h.mode, h.raised, h.units, h.fuse, h.flash, h.latch, h.regs⟩

theorem wasReset.th {c : Bool} {s t : State} (h : wasReset c s t) (f : Thm → Thm) : wasReset c s (t.th f) :=
  ⟨h.mode, h.raised, h.units, h.fuse, h.flash, h.latch, h.regs⟩

theorem wasReset.hd {c : Bool} {s t : State} (h : wasReset c s t) (f : Hdg → Hdg) : wasReset c s (t.hd f) :=
  ⟨h.mode, h.raised, h.units, h.fuse, h.flash, h.latch, h.regs⟩

/-- RESET_N low, or the core reset, in any mode (R10, R30, R268, R272, R349, R457). -/
theorem State.resetPin_spec (s : State) :
    wasReset true s s.resetPin ∧ s.resetPin.sys.pinLow = true ∧ s.resetPin.sys.warm = false ∧ s.resetPin.boot.warmStart = false ∧
      s.resetPin.reg R.THM_TRIP_REC = 0 ∧ s.resetPin.rd F.BOOT_LAST_RESET_CAUSE = 1 ∧ s.resetPin.rd F.HDG_STATUS_SEAL_LOCK = 0 ∧
      s.resetPin.reg R.HDG_HOST_SPEED = resetWord R.HDG_HOST_SPEED ∧ s.resetPin.reg R.HDG_HOST_BUDGET = resetWord R.HDG_HOST_BUDGET := by
  have hb := s.resetBody_reset 1 false
  have hw : (s.resetBody 1 false).sys.warm = false ∧ (s.resetBody 1 false).boot.warmStart = false := by
    unfold State.resetBody State.resetCore
    generalize s.burnTorn.memThrough false = p
    obtain ⟨mem, ix⟩ := p
    simp -zeta only
    lift_lets -underBinder
    intro t0 t1
    generalize hy : (t1.wr F.BOOT_LAST_RESET_CAUSE 1).wr F.BOOT_LAST_RESET_FAIL_STEP 0 = y
    have hf := State.hedgeShow_fr y
    rw [show y.hedgeShow.sys = y.sys from hf.same .sys (by decide),
      show y.hedgeShow.boot = y.boot from by
        unfold State.hedgeShow
        lift_lets -underBinder
        intro m s1 s2
        have e2 : s2.boot = s1.boot := by unfold s2; split <;> rfl
        exact e2, ← hy]
    exact ⟨rfl, rfl⟩
  unfold State.resetPin
  generalize s.resetBody 1 false = x at hb hw ⊢
  refine ⟨?_, rfl, hw.1, hw.2, ?_, ?_, State.rd_wr_self _ _ _ (by decide), ?_, ?_⟩
  · refine wasReset.wr (wasReset.resetRegs (wasReset.resetRegs (wasReset.setReg (wasReset.sy hb.1 _) _ _ ?_ ?_) _ _ ?_ ?_) _ _ ?_ ?_) _ _
      ?_ ?_ <;> decide
  · rw [State.reg_wr_ne _ _ _ _ (by decide), State.reg_resetRegs _ _ _ _ (by decide), State.reg_resetRegs _ _ _ _ (by decide),
      State.reg_setReg_self]
  · rw [State.rd_wr_apart _ _ _ _ (by decide), State.rd, State.reg_resetRegs _ _ _ _ (by decide), State.reg_resetRegs _ _ _ _ (by decide),
      State.reg_setReg_ne _ _ (by decide)]
    exact hb.2.1
  · rw [State.reg_wr_ne _ _ _ _ (by decide), State.reg_resetRegs _ _ _ _ (by decide), State.reg_resetRegs_in _ _ _ _ (by decide)]
  · rw [State.reg_wr_ne _ _ _ _ (by decide), State.reg_resetRegs_in _ _ _ _ (by decide)]

end Sys2Proof.Machine
end

