-- ==== Sys2Proof/Laws/Modes.lean ====
section
/-! SUPPORT. What a mode transition, an entry to SAFE-STOP and a trip do, said once. -/

namespace Sys2Proof.Machine

/-- After the write of MODE, PREV_MODE and CAUSE, a transition leaves those fields alone. -/
theorem State.transition_tail (s : State) (m cause : Nat) :
    Fr 0x800000000000000000000001400000080000000000000001fe80000010000000000000000200010000000000120000000f00a00011087b
      ((((s.wr F.SYS_MODE_MODE m).wr F.SYS_MODE_PREV_MODE s.mode).wr F.SYS_MODE_CAUSE cause).raise 0) (s.transition m cause) := by
  unfold State.transition
  lift_lets -underBinder
  intro x1 x2 x3 x4 x5 x6 x7 x8 x9 x10 x11 x12 x13 x14 x15 x16 x17
  refine Fr.have x3 ?_ (fun hx3 => ?_) <;> [unfold x3; skip]
  exact .refl ..
  refine Fr.have x5 ?_ (fun hx5 => ?_) <;> [unfold x5; skip]
  refine .ite ?_ ?_
  exact hx3
  apply Fr.upd <;> first | show Fr _ _ _ | exact .inl rfl | exact .inr rfl | rfl
  exact hx3
  refine Fr.have x6 ?_ (fun hx6 => ?_) <;> [unfold x6; skip]
  refine .wr ?_ (by decide) (.fld .TDC_STATUS_TEST_ACTIVE rfl (by decide))
  refine .wr ?_ (by decide) (.fld .TDC_TEST_CFG_SRC rfl (by decide))
  exact hx5
  refine Fr.have x8 ?_ (fun hx8 => ?_) <;> [unfold x8; skip]
  refine .ite ?_ ?_
  apply Fr.upd <;> first | show Fr _ _ _ | exact .inl rfl | exact .inr rfl | rfl
  exact hx6
  exact hx5
  refine Fr.have x9 ?_ (fun hx9 => ?_) <;> [unfold x9; skip]
  refine .wr ?_ (by decide) (.fld .BOOT_STATUS_SESSION rfl (by decide))
  exact hx8
  refine Fr.have x12 ?_ (fun hx12 => ?_) <;> [unfold x12; skip]
  refine .ite ?_ ?_
  apply Fr.upd <;> first | show Fr _ _ _ | exact .inl rfl | exact .inr rfl | rfl
  exact hx9
  exact hx8
  refine Fr.have x14 ?_ (fun hx14 => ?_) <;> [unfold x14; skip]
  refine .wr ?_ (by decide) (.fld .MER_STATUS_PC_WAIT rfl (by decide))
  exact hx12
  refine Fr.have x16 ?_ (fun hx16 => ?_) <;> [unfold x16; skip]
  refine .ite ?_ ?_
  refine .ite ?_ ?_
  exact hx12
  refine .call (State.merWait_fr ..) ?_ (by decide)
  apply Fr.upd <;> first | show Fr _ _ _ | exact .inl rfl | exact .inr rfl | rfl
  exact hx12
  apply Fr.upd <;> first | show Fr _ _ _ | exact .inl rfl | exact .inr rfl | rfl
  exact hx14
  refine Fr.have x17 ?_ (fun hx17 => ?_) <;> [unfold x17; skip]
  refine .ite ?_ ?_
  refine .call (State.memWake_fr ..) ?_ (by decide)
  exact hx16
  exact hx16
  refine .call (State.settle_fr ..) ?_ (by decide)
  refine .call (State.sxtKeep_fr ..) ?_ (by decide)
  refine .call (State.waitDac_fr ..) ?_ (by decide)
  refine .call (State.showThrottle_fr ..) ?_ (by decide)
  exact hx17

/-- The same of an entry to a mode with all that follows it. -/
theorem State.goMode_tail (s : State) (m cause : Nat) :
    Fr 0x800000000000000000000001400000080000000000000001fe80000010000000478006c00200110000000000120000000f04a000111a7b
      ((((s.wr F.SYS_MODE_MODE m).wr F.SYS_MODE_PREV_MODE s.mode).wr F.SYS_MODE_CAUSE cause).raise 0) (s.goMode m cause) := by
  have h := s.transition_tail m cause
  unfold State.goMode
  lift_lets -underBinder
  intro x
  refine Fr.have x ?_ (fun hx => ?_) <;> [unfold x; skip]
  · exact .call (State.helmSettle_fr ..) (.call (State.emiSettle_fr ..) (h.mono (by decide)) (by decide)) (by decide)
  · exact .ite (.call (State.sealLock_fr ..) hx (by decide)) hx

/-- The three fields of SYS_MODE right after the write that a transition makes. -/
theorem State.modeHead (s : State) (m cause : Nat) (hm : m < 16) (hc : cause < 32) :
    let t := (((s.wr F.SYS_MODE_MODE m).wr F.SYS_MODE_PREV_MODE s.mode).wr F.SYS_MODE_CAUSE cause).raise 0
    t.rd F.SYS_MODE_MODE = m ∧ t.rd F.SYS_MODE_PREV_MODE = s.mode ∧ t.rd F.SYS_MODE_CAUSE = cause := by
  simp only [State.rd_raise]
  rw [State.rd_wr_apart _ _ _ _ (by decide), State.rd_wr_apart _ _ _ _ (by decide), State.rd_wr_self _ _ _ (by decide),
    State.rd_wr_apart _ _ _ _ (by decide), State.rd_wr_self _ _ _ (by decide), State.rd_wr_self _ _ _ (by decide)]
  refine ⟨Nat.mod_eq_of_lt hm, ?_, Nat.mod_eq_of_lt hc⟩
  exact Nat.mod_eq_of_lt (State.rd_lt s F.SYS_MODE_MODE)

/-- A transition writes MODE, PREV_MODE and CAUSE (R31). -/
theorem State.transition_to (s : State) (m cause : Nat) (hm : m < 16) (hc : cause < 32) :
    (s.transition m cause).mode = m ∧ (s.transition m cause).rd F.SYS_MODE_PREV_MODE = s.mode ∧
      (s.transition m cause).rd F.SYS_MODE_CAUSE = cause := by
  have h := s.transition_tail m cause
  have k := s.modeHead m cause hm hc
  exact ⟨(h.rd _ (by decide +kernel)).trans k.1, (h.rd _ (by decide +kernel)).trans k.2.1, (h.rd _ (by decide +kernel)).trans k.2.2⟩

/-- An entry to a mode writes MODE, PREV_MODE and CAUSE (R31). -/
theorem State.goMode_to (s : State) (m cause : Nat) (hm : m < 16) (hc : cause < 32) :
    (s.goMode m cause).mode = m ∧ (s.goMode m cause).rd F.SYS_MODE_PREV_MODE = s.mode ∧
      (s.goMode m cause).rd F.SYS_MODE_CAUSE = cause := by
  have h := s.goMode_tail m cause
  have k := s.modeHead m cause hm hc
  exact ⟨(h.rd _ (by decide +kernel)).trans k.1, (h.rd _ (by decide +kernel)).trans k.2.1, (h.rd _ (by decide +kernel)).trans k.2.2⟩

theorem State.modeTrip_mode (s : State) (h : s.mode ≠ mRESET) : s.modeTrip.mode = mSAFESTOP := by
  unfold State.modeTrip
  split
  · rename_i hr
    exact hr.resolve_left h
  · exact (State.goMode_to _ _ _ (by decide) (by decide)).1

/-- The hedge's state is what is set, or IDLE with TEST_EN high (R459). -/
theorem State.setGst_gst (s : State) (v : Nat) (h : v < 8) : (s.setGst v).gst = if s.sys.testEn then gIDLE else v := by
  unfold State.setGst
  rw [State.gst, (State.setLi_fr ..).rd _ (by decide +kernel), State.rd_wr_self _ _ _ (by decide)]
  refine Nat.mod_eq_of_lt ?_
  split
  · decide
  · exact h

/-- A trip with the latch clear (R262): latch, first cause, state TRIPPED (IDLE with TEST_EN high), and SAFE-STOP from any mode but RESET. -/
theorem State.trip_latches (s : State) (c : Nat) (hl : s.latched = false) (hc : c < 32) :
    (s.trip c).on F.HDG_STATUS_LATCH = true ∧ (s.trip c).rd F.HDG_TRIP_CAUSE_FIRST = c ∧ (s.trip c).gst = (if s.sys.testEn then gIDLE else gTRIPPED) ∧
      (s.mode ≠ mRESET → (s.trip c).mode = mSAFESTOP) := by
  obtain ⟨t, ht⟩ : ∃ t, t = s.trip c := ⟨_, rfl⟩
  rw [← ht]
  unfold State.trip at ht
  rw [hl, if_neg Bool.false_ne_true] at ht
  extract_lets x1 x2 x3 at ht
  subst ht
  have a1 : x1.rd F.HDG_STATUS_LATCH = 1 := by
    unfold x1
    rw [(State.addCause_fr ..).rd _ (by decide +kernel), State.rd_wr_apart _ _ _ _ (by decide), State.rd_wr_self _ _ _ (by decide)]
    rfl
  have a2 : x1.rd F.HDG_TRIP_CAUSE_FIRST = c := by
    unfold x1
    rw [(State.addCause_fr ..).rd _ (by decide +kernel), State.rd_wr_self _ _ _ (by decide)]
    exact Nat.mod_eq_of_lt hc
  have a3 : x1.mode = s.mode := by
    unfold x1
    rw [(State.addCause_fr ..).mode (by decide +kernel), State.mode, State.rd_wr_apart _ _ _ _ (by decide),
      State.rd_wr_apart _ _ _ _ (by decide)]
    rfl
  have a4 : x1.sys.testEn = s.sys.testEn := by
    unfold x1
    rw [show ((s.wr F.HDG_STATUS_LATCH 1).wr F.HDG_TRIP_CAUSE_FIRST c |>.addCause c).sys
      = ((s.wr F.HDG_STATUS_LATCH 1).wr F.HDG_TRIP_CAUSE_FIRST c).sys from (State.addCause_fr ..).same .sys (by decide)]
    rfl
  clear_value x1
  have b (f : Fld) : x2.rd f = (x1.setGst gTRIPPED).rd f := by unfold x2; rw [State.hd_rd]
  have b1 : x2.rd F.HDG_STATUS_LATCH = 1 := by rw [b, (State.setGst_fr ..).rd _ (by decide +kernel), a1]
  have b2 : x2.rd F.HDG_TRIP_CAUSE_FIRST = c := by rw [b, (State.setGst_fr ..).rd _ (by decide +kernel), a2]
  have b3 : x2.mode = s.mode := by rw [State.mode, b, (State.setGst_fr ..).rd _ (by decide +kernel)]; exact a3
  have b4 : x2.rd F.HDG_STATUS_STATE = (if s.sys.testEn then gIDLE else gTRIPPED) := by
    rw [b, ← a4]; exact x1.setGst_gst _ (by decide)
  clear_value x2
  have hv := State.voidPair_fr x2
  have he := State.emiTrip_fr x2.voidPair
  have hh := State.helmTrip_fr x2.voidPair.emiTrip
  have ha := State.abandon_fr x2.voidPair.emiTrip.helmTrip
  have hm := State.modeTrip_fr x2.voidPair.emiTrip.helmTrip.abandon
  have c1 : x3.rd F.HDG_STATUS_LATCH = 1 := by
    unfold x3
    rw [hm.rd _ (by decide +kernel), ha.rd _ (by decide +kernel), hh.rd _ (by decide +kernel), he.rd _ (by decide +kernel),
      hv.rd _ (by decide +kernel), b1]
  have c2 : x3.rd F.HDG_TRIP_CAUSE_FIRST = c := by
    unfold x3
    rw [hm.rd _ (by decide +kernel), ha.rd _ (by decide +kernel), hh.rd _ (by decide +kernel), he.rd _ (by decide +kernel),
      hv.rd _ (by decide +kernel), b2]
  have c3 : s.mode ≠ mRESET → x3.mode = mSAFESTOP := fun hr => by
    refine State.modeTrip_mode _ ?_
    rw [ha.mode (by decide +kernel), hh.mode (by decide +kernel), he.mode (by decide +kernel), hv.mode (by decide +kernel), b3]
    exact hr
  have c4 : x3.rd F.HDG_STATUS_STATE = (if s.sys.testEn then gIDLE else gTRIPPED) := by
    unfold x3
    rw [hm.rd _ (by decide +kernel), ha.rd _ (by decide +kernel), hh.rd _ (by decide +kernel), he.rd _ (by decide +kernel),
      hv.rd _ (by decide +kernel), b4]
  clear_value x3
  refine ⟨?_, ?_, ?_, fun hr => ?_⟩
  · rw [State.on, (State.hedgeShow_fr ..).rd _ (by decide +kernel), State.rd_raise, State.rd_bump_apart _ _ _ _ (by decide), c1]; rfl
  · rw [(State.hedgeShow_fr ..).rd _ (by decide +kernel), State.rd_raise, State.rd_bump_apart _ _ _ _ (by decide), c2]
  · rw [State.gst, (State.hedgeShow_fr ..).rd _ (by decide +kernel), State.rd_raise, State.rd_bump_apart _ _ _ _ (by decide), c4]
  · rw [(State.hedgeShow_fr ..).mode (by decide +kernel), State.mode_raise, State.mode, State.rd_bump_apart _ _ _ _ (by decide)]
    exact c3 hr

end Sys2Proof.Machine
end

