-- ==== Sys2Proof/WellFormed.lean ====
section
/-! DEFINITION. Which commands are well formed: the operands that types alone do not bound. A list operand has the length that the
command's subject has on the hardware. -/

namespace Sys2Proof

/-- A request over PCIe: what the write carries, or what the read asks for, is at most 512 bytes (Table LK-2). -/
def requestOk (write : Bool) (len : Nat) (data : List Byte) : Bool :=
  if write then decide (data.length ≤ 512) && len == data.length else data.isEmpty && decide (len ≤ 512)

/-- A command whose operands could occur on the hardware. Commands not named here are bounded by their operands' types. -/
def wellFormed (i : Instr) : Bool :=
  match i with
  | .bar0Request write _ len data _ _ => requestOk write len data
  | .bar2Request write _ len data _ => requestOk write len data
  | .pcieCompletion data _ => decide (data.length ≤ 512)
  | .ethFrameReceived _ f _ _ => decide (60 ≤ f.length) && decide (f.length ≤ 9018)
  | .mailboxDatagram _ _ _ buf _ => decide (buf.length ≤ 4096)
  | .i2cTransferComplete _ _ data => decide (data.length ≤ 4096)
  | .headlandData _ _ _ payload => decide (payload.length ≤ 4096)
  | .trainingSweepComplete masks => decide (masks.length ≤ 64)
  | .cdtRunComplete hitsStart hitsStop => hitsStart.length == 128 && hitsStop.length == 128
  | .compensationUpdate rings rails => rings.length == 8 && rails.length == 6
  | _ => true

end Sys2Proof
end

