-- ==== Sys2Proof/Tests/Slice0.lean ====
section
/-! SUPPORT. Tests: ill-formed commands are refused by the checks of WellFormed.lean; states and operands that meet the hypotheses of
each statement; single steps of commands on small states. -/

namespace Sys2Proof.Machine

set_option maxRecDepth 4000
set_option Elab.async false

/-! ### Ill-formed commands are refused (WellFormed.lean) -/

theorem test_bar0Request_short : wellFormed (.bar0Request true 0 4 [1, 2] false 0) = false := by decide
theorem test_bar0Request_read_data : wellFormed (.bar0Request false 0 4 [1] false 0) = false := by decide
theorem test_bar2Request_long : wellFormed (.bar2Request false 0 513 [] false) = false := by decide
theorem test_pcieCompletion_long : wellFormed (.pcieCompletion (List.replicate 513 0) false) = false := by decide +kernel
theorem test_ethFrame_short : wellFormed (.ethFrameReceived 0 [0] false 0) = false := by decide
theorem test_mailboxDatagram_long : wellFormed (.mailboxDatagram 0 0 0 (List.replicate 4097 0) 0) = false := by decide +kernel
theorem test_i2c_long : wellFormed (.i2cTransferComplete 0 0 (List.replicate 4097 0)) = false := by decide +kernel
theorem test_headlandData_long : wellFormed (.headlandData true 0 0 (List.replicate 4097 0)) = false := by decide +kernel
theorem test_trainingSweep_long : wellFormed (.trainingSweepComplete (List.replicate 65 0)) = false := by decide
theorem test_cdtRun_short : wellFormed (.cdtRunComplete [1] [1]) = false := by decide
theorem test_compensation_short : wellFormed (.compensationUpdate [1] [1]) = false := by decide
theorem test_wellFormed_pin : wellFormed .pfNFall = true := by decide


/-! ### States of the tests -/

/-- The reset state with the mode set. -/
def inMode (m : Nat) : State := State.reset.wr F.SYS_MODE_MODE m

/-- The state in mode `m`, with every PLL locked and no orderly stop. -/
def State.ready (s : State) (m : Nat) : State :=
  (((({ s with sys := { s.sys with relock := false } } : State).wr F.SYS_MODE_MODE m).put F.SYS_MODE_STOPPING false).put
    F.SYS_CLK_STATUS_MAIN_LOCK true).put F.SYS_CLK_STATUS_TIL_LOCK true |>.put F.SYS_CLK_STATUS_MGMT_LOCK true

/-- A request that ranks above those of port `p` waits for the bank of `a` (R361). -/
def State.outranked (s : State) (p a : Nat) : State :=
  let s := s.put (F.MEM_PORT_STATUS_PANIC p) false
  { s with mem := { s.mem with late := [], queues := [((p + 1) % 8, [⟨false, a, 64, [], false, true⟩])] } }

/-- Tiller `n` runs in SCAN, past the breakpoint check. -/
def State.tillerRuns (s : State) (n pc : Nat) : State :=
  ((({ s with sys := { s.sys with relock := false } }.wr F.SYS_MODE_MODE 4).put F.SYS_CLK_STATUS_TIL_LOCK true).wr
    (F.TIL_CFG_MSG_ATTN n) 0).onTiller n fun x =>
    { x with state := .running, pc := pc, fresh := true, haltReq := false, imemCond := Tab.set okCond x.imemCond (pc / 4) .ok }

/-- The LUT words of the reset state with a TDC commit pending (log entry 10). -/
theorem lutWords : ∀ c : Fin 1152, ∀ j : Fin 4, (State.reset.put F.TDC_STATUS_COMMIT_PENDING true).reg (R.TDC_LUT c j)
    = [0x03020100, 0x07060504, 0x0B0A0908, 0x0F0E0D0C].getD j 0 := by decide +kernel
/-- Every LUT of that state is monotonic. -/
theorem lutMonotonic (c : Fin 1152) (p : Fin 15) : (State.reset.put F.TDC_STATUS_COMMIT_PENDING true).lutShadow c p
    ≤ (State.reset.put F.TDC_STATUS_COMMIT_PENDING true).lutShadow c (p + 1) := by
  unfold State.lutShadow
  have h (q : Nat) (hq : q < 16) := lutWords c ⟨q / 4, by omega⟩
  simp only at h
  rw [h p.val (by omega), h (p.val + 1) (by omega)]
  revert p; decide +kernel

/-! ### The hypotheses of each statement can be met -/

/-- A state whose queue starts with a command. -/
theorem witness_StepRunsFrontCommand :
    ∃ (c : Instr) (rest : List Instr) (s : State), s.pending = c :: rest :=
  ⟨.pfNFall, [.sysPf], { pending := [.pfNFall, .sysPf] }, rfl⟩

/-- A state with an empty queue. -/
theorem witness_EmptyQueueIdles : ∃ s : State, s.pending = [] := ⟨.reset, rfl⟩

/-- A canonical state with a step. -/
theorem witness_StepKeepsCanonicalForm : ∃ s t : State, s.canonical ∧ step s = .next t :=
  ⟨.reset, State.reset.sxtClosed, ⟨rfl, rfl⟩, rfl⟩

/-- A command that answers a next state. -/
theorem witness_CommandsChangeOnlyTheirBounds : ∃ (c : Instr) (s t : State), exec c s = .next t :=
  ⟨.pfNFall, .reset, _, rfl⟩

/-- States and operands that meet the hypotheses of each clause of ResetCommandsReset. -/
theorem witness_ResetCommandsReset :
    (∃ (s : State), s.mode ≠ mRESET) ∧
    (∃ (s : State), s.mode = mRESET) ∧
    (∃ (s : State) (k : Fin 24), s.mode ≠ mRESET ∧ (3 ≤ Tab.get (fun _ => 0) s.thm.tripRun k)) ∧
    (∃ (s : State) (k : Fin 24), s.mode = mRESET ∧ (3 ≤ Tab.get (fun _ => 0) s.thm.tripRun k)) ∧
    (∃ (s : State) (k : Fin 24), (Tab.get (fun _ => 0) s.thm.tripRun k < 3)) ∧
    (∃ (s : State) (_u : Nat), s.mode ≠ mRESET ∧ s.boot.starting = false) ∧
    (∃ (s : State) (_u : Nat), s.mode ≠ mRESET ∧ s.boot.starting = true) ∧
    (∃ (s : State) (_u : Nat), s.mode = mRESET) ∧
    (∃ (s : State) (_u : Nat), s.boot.starting = false) :=
  ⟨⟨(fun (s : State) => (s.ready 4)) State.reset, by decide +kernel⟩,
    ⟨(fun (s : State) => (s.ready 0)) State.reset, by decide +kernel⟩,
    ⟨(fun (s : State) (k : Fin 24) => (let s : State := { s with thm := { s.thm with tripRun := [(k.val, 3)], last := [(k.val, 1300)] } }; s.ready 4)) State.reset 5, 5, by decide +kernel⟩,
    ⟨(fun (s : State) (k : Fin 24) => (let s : State := { s with thm := { s.thm with tripRun := [(k.val, 3)], last := [(k.val, 1300)] } }; s.ready 0)) State.reset 5, 5, by decide +kernel⟩,
    ⟨(fun (s : State) (k : Fin 24) => (let s : State := { s with thm := { s.thm with tripRun := [(k.val, 2)], last := [(k.val, 1300)] } }; s.ready 4)) State.reset 5, 5, by decide +kernel⟩,
    ⟨(fun (s : State) (u : Nat) => (let s : State := { s with boot := { s.boot with starting := false } }; s.ready 2)) State.reset 7, 7, by decide +kernel⟩,
    ⟨(fun (s : State) (u : Nat) => (let s : State := { s with boot := { s.boot with starting := true } }; s.ready 2)) State.reset 7, 7, by decide +kernel⟩,
    ⟨(fun (s : State) (u : Nat) => (s.ready 0)) State.reset 7, 7, by decide +kernel⟩,
    ⟨(fun (s : State) (u : Nat) => (let s : State := { s with boot := { s.boot with starting := false } }; s.ready 2)) State.reset 7, 7, by decide +kernel⟩⟩

/-- States and operands that meet the hypotheses of each clause of ThermalAndFailRecordsClear. -/
theorem witness_ThermalAndFailRecordsClear :
    (∃ (s : State), (∀ k : Fin 24, s.compared k = true → Tab.get (fun _ => 0) s.thm.last k < 10 * (s.rd F.THM_THR_CRITICAL : Int) - 10 * s.rd F.THM_HYST_HYST)) ∧
    (∃ (s : State), (¬ (∀ k : Fin 24, s.compared k = true → Tab.get (fun _ => 0) s.thm.last k < 10 * (s.rd F.THM_THR_CRITICAL : Int) - 10 * s.rd F.THM_HYST_HYST))) :=
  ⟨⟨(fun (s : State) => (let s : State := { s with thm := { s.thm with last := [], tripHold := true } }; ((s.ready 0)|>.wr F.THM_THR_CRITICAL 105 |>.wr F.THM_HYST_HYST 3))) State.reset, by decide +kernel⟩,
    ⟨(fun (s : State) => (let s : State := { s with thm := { s.thm with last := [(0, 1300)] } }; ((s.ready 0)|>.wr F.THM_THR_CRITICAL 105 |>.wr F.THM_HYST_HYST 3))) State.reset, by decide +kernel⟩⟩

/-- States and operands that meet the hypotheses of each clause of ClockCommandsRun. -/
theorem witness_ClockCommandsRun :
    (∃ (s : State), s.sys.relock = false ∧ s.mode ≠ mRESET ∧ s.mode ≠ mRECOVERY ∧ s.on F.SYS_CLK_STATUS_MAIN_LOCK = true) ∧
    (∃ (s : State), s.sys.relock = false ∧ s.mode ≠ mRESET ∧ s.mode = mRECOVERY) ∧
    (∃ (s : State), s.sys.relock = false ∧ s.mode ≠ mRESET ∧ s.on F.SYS_CLK_STATUS_TIL_LOCK = true) ∧
    (∃ (s : State), (s.sys.relock = true ∨ s.mode = mRESET)) ∧
    (∃ (s : State), s.on F.SYS_CLK_STATUS_MAIN_LOCK = false) ∧
    (∃ (s : State), s.on F.SYS_CLK_STATUS_TIL_LOCK = false) ∧
    (∃ (s : State), s.sys.relock = false ∧ s.mode ≠ mRESET) ∧
    (∃ (s : State) (sel : Fin 4) (_present : Bool), s.mode = mSTANDBY ∧ sel.val ≠ 3 ∧ sel.val ≠ s.rd F.SYS_CLK_CFG_REF_SEL) ∧
    (∃ (s : State) (sel : Fin 4) (_present : Bool), s.mode ≠ mRESET ∧ (sel.val = 3 ∨ (sel.val ≠ s.rd F.SYS_CLK_CFG_REF_SEL ∧ s.mode ≠ mSTANDBY))) ∧
    (∃ (s : State) (sel : Fin 4) (_present : Bool), s.mode ≠ mRESET ∧ sel.val ≠ 3 ∧ sel.val = s.rd F.SYS_CLK_CFG_REF_SEL) ∧
    (∃ (s : State) (_sel : Fin 4) (_present : Bool), s.mode = mRESET) ∧
    (∃ (s : State), s.sys.relock = true) ∧
    (∃ (s : State) (main : Bool) (tiller : Bool), s.sys.relock = true ∧ s.mode = mSTANDBY ∧ (main = true ∨ tiller = true)) ∧
    (∃ (s : State) (main : Bool) (tiller : Bool), (s.sys.relock = false ∨ (main = false ∧ tiller = false))) ∧
    (∃ (s : State), s.sys.relock = false) :=
  ⟨⟨(fun (s : State) => (s.ready 4)) State.reset, by decide +kernel⟩,
    ⟨(fun (s : State) => (s.ready 1)) State.reset, by decide +kernel⟩,
    ⟨(fun (s : State) => (s.ready 4)) State.reset, by decide +kernel⟩,
    ⟨(fun (s : State) => (s.ready 0)) State.reset, by decide +kernel⟩,
    ⟨(fun (s : State) => (s.wr F.SYS_CLK_STATUS_MAIN_LOCK 0)) State.reset, by decide +kernel⟩,
    ⟨(fun (s : State) => (s.wr F.SYS_CLK_STATUS_TIL_LOCK 0)) State.reset, by decide +kernel⟩,
    ⟨(fun (s : State) => (s.ready 4)) State.reset, by decide +kernel⟩,
    ⟨(fun (s : State) (sel : Fin 4) (present : Bool) => ((s.ready 2)|>.wr F.SYS_CLK_CFG_REF_SEL 0)) State.reset 1 true, 1, true, by decide +kernel⟩,
    ⟨(fun (s : State) (sel : Fin 4) (present : Bool) => (s.ready 4)) State.reset 3 true, 3, true, by decide +kernel⟩,
    ⟨(fun (s : State) (sel : Fin 4) (present : Bool) => ((s.ready 4)|>.wr F.SYS_CLK_CFG_REF_SEL sel.val)) State.reset 1 true, 1, true, by decide +kernel⟩,
    ⟨(fun (s : State) (sel : Fin 4) (present : Bool) => (s.ready 0)) State.reset 1 true, 1, true, by decide +kernel⟩,
    ⟨(fun (s : State) => (let s := s.ready 2; let s : State := { s with sys := { s.sys with relock := true } }; s)) State.reset, by decide +kernel⟩,
    ⟨(fun (s : State) (main : Bool) (tiller : Bool) => (let s := s.ready 2; let s : State := { s with sys := { s.sys with relock := true } }; s)) State.reset true false, true, false, by decide +kernel⟩,
    ⟨(fun (s : State) (main : Bool) (tiller : Bool) => (let s : State := { s with sys := { s.sys with relock := false } }; (let s := s.ready 2; s))) State.reset true false, true, false, by decide +kernel⟩,
    ⟨(fun (s : State) => (let s : State := { s with sys := { s.sys with relock := false } }; (let s := s.ready 2; s))) State.reset, by decide +kernel⟩⟩

/-- States and operands that meet the hypotheses of each clause of PowerFailAndStopsRun. -/
theorem witness_PowerFailAndStopsRun :
    (∃ (s : State), s.on F.CAL_JRN_STATUS_PENDING = false ∧ s.boot.saveDue = false) ∧
    (∃ (s : State), (s.on F.CAL_JRN_STATUS_PENDING = true ∨ s.boot.saveDue = true)) ∧
    (∃ (s : State), s.sys.pfLow = true ∧ s.mode ≠ mRESET) ∧
    (∃ (s : State), (s.sys.pfLow = false ∨ s.mode = mRESET)) ∧
    (∃ (s : State), s.on F.SYS_MODE_STOPPING = true ∧ s.running = false ∧ s.mode ≠ mRESET ∧ s.sys.pendScan = none) ∧
    (∃ (s : State) (tag : Nat), s.on F.SYS_MODE_STOPPING = true ∧ s.running = false ∧ s.mode ≠ mRESET ∧ s.sys.pendScan = some tag ∧ tag < 256 ∧ s.forcedCause = 0) ∧
    (∃ (s : State) (tag : Nat), s.on F.SYS_MODE_STOPPING = true ∧ s.running = false ∧ s.mode ≠ mRESET ∧ s.sys.pendScan = some tag ∧ tag < 256 ∧ s.forcedCause ≠ 0) ∧
    (∃ (s : State), (s.on F.SYS_MODE_STOPPING = false ∨ s.running = true ∨ s.mode = mRESET)) ∧
    (∃ (s : State), s.mode = mSPINUP ∧ s.on F.SYS_MODE_STOPPING = false) ∧
    (∃ (s : State), (s.mode ≠ mSPINUP ∨ s.on F.SYS_MODE_STOPPING = true)) ∧
    (∃ (s : State), s.mode = mSPINUP ∧ s.on F.SYS_MODE_STOPPING = false ∧ s.sp = hLOCKED ∧ s.gst = gRELEASED ∧ s.derated = false ∧ s.on F.CAL_STATUS_RERUN_PENDING = false) ∧
    (∃ (s : State), s.mode = mSPINUP ∧ s.on F.SYS_MODE_STOPPING = false ∧ s.sp = hLOCKED ∧ s.gst = gRELEASED ∧ s.on F.THM_STATUS_DERATE_SRC = true) ∧
    (∃ (s : State), s.mode = mSPINUP ∧ s.on F.SYS_MODE_STOPPING = false ∧ (s.sp ≠ hLOCKED ∨ s.gst ≠ gRELEASED)) :=
  ⟨⟨(fun (s : State) => (let s : State := { s with boot := { s.boot with saveDue := false }, sys := { s.sys with pfLow := true } }; ((s.ready 2)|>.put F.CAL_JRN_STATUS_PENDING false))) State.reset, by decide +kernel⟩,
    ⟨(fun (s : State) => (let s : State := { s with boot := { s.boot with saveDue := true }, sys := { s.sys with pfLow := true } }; ((s.ready 2)|>.put F.CAL_JRN_STATUS_PENDING true))) State.reset, by decide +kernel⟩,
    ⟨(fun (s : State) => (let s : State := { s with sys := { s.sys with pfLow := true } }; (let s := s.ready 4; s))) State.reset, by decide +kernel⟩,
    ⟨(fun (s : State) => (let s : State := { s with sys := { s.sys with pfLow := false } }; (let s := s.ready 4; s))) State.reset, by decide +kernel⟩,
    ⟨(fun (s : State) => (let s : State := { s with sys := { s.sys with pendScan := none }, his := { s.his with last := false } }; ((s.ready 4)|>.put F.SYS_MODE_STOPPING true |>.wr F.HIS_STATUS_RUNNING 0))) State.reset, by decide +kernel⟩,
    ⟨(fun (s : State) (tag : Nat) => (let s : State := { s with sys := { s.sys with pendScan := some (tag % 256), pfLow := false }, his := { s.his with last := false } }; ((s.ready 4)|>.put F.SYS_MODE_STOPPING true |>.wr F.HIS_STATUS_RUNNING 0|>.wr F.THM_STATUS_IND 0))) State.reset 5, 5, by decide +kernel⟩,
    ⟨(fun (s : State) (tag : Nat) => (let s : State := { s with sys := { s.sys with pendScan := some (tag % 256), pfLow := true }, his := { s.his with last := false } }; ((s.ready 4)|>.put F.SYS_MODE_STOPPING true |>.wr F.HIS_STATUS_RUNNING 0))) State.reset 5, 5, by decide +kernel⟩,
    ⟨(fun (s : State) => ((s.ready 4)|>.put F.SYS_MODE_STOPPING false)) State.reset, by decide +kernel⟩,
    ⟨(fun (s : State) => (s.ready 3)) State.reset, by decide +kernel⟩,
    ⟨(fun (s : State) => (s.ready 4)) State.reset, by decide +kernel⟩,
    ⟨(fun (s : State) => (let s : State := { s with sys := { s.sys with scanTag := none, hostDerate := false }, til := [] }; ((s.ready 3)|>.wr F.HLM_STATUS_SP_STATE hLOCKED |>.wr F.HDG_STATUS_STATE gRELEASED|>.put F.CAL_STATUS_RERUN_PENDING false |>.put F.THM_STATUS_DERATE_SRC false |>.wr F.SYS_MODE_CFG_DERATE_EMI 0 |>.wr F.SYS_MODE_CFG_DERATE_TIL 0))) State.reset, by decide +kernel⟩,
    ⟨(fun (s : State) => (let s : State := { s with sys := { s.sys with scanTag := none, hostDerate := false }, til := [] }; ((s.ready 3)|>.wr F.HLM_STATUS_SP_STATE hLOCKED |>.wr F.HDG_STATUS_STATE gRELEASED|>.put F.THM_STATUS_DERATE_SRC true))) State.reset, by decide +kernel⟩,
    ⟨(fun (s : State) => ((s.ready 3)|>.wr F.HDG_STATUS_STATE gIDLE)) State.reset, by decide +kernel⟩⟩

/-- States and operands that meet the hypotheses of each clause of ScalarZeroRegister. -/
theorem witness_ScalarZeroRegister :
    (∃ (_x : Tiller) (r : Fin 32) (_q : Fin 32) (_w : Word), r ≠ 0) :=
  ⟨{}, 3, 3, 5, by decide +kernel⟩

/-- States and operands that meet the hypotheses of each clause of ScalarAluResults. -/
theorem witness_ScalarAluResults :
    (∃ (s : State) (n : Fin 192) (_rd : Fin 32) (_ra : Fin 32) (_rb : Fin 32), issues n s) ∧
    (∃ (s : State) (n : Fin 192) (_rd : Fin 32) (_ra : Fin 32) (_rb : Fin 32), issues n s) :=
  ⟨⟨(fun (s : State) (n : Fin 192) (rd : Fin 32) (ra : Fin 32) (rb : Fin 32) => s.tillerRuns n 64) State.reset 0 1 2 3, 0, 1, 2, 3, by decide +kernel⟩,
    ⟨(fun (s : State) (n : Fin 192) (rd : Fin 32) (ra : Fin 32) (rb : Fin 32) => s.tillerRuns n 64) State.reset 0 1 2 3, 0, 1, 2, 3, by decide +kernel⟩⟩

/-- States and operands that meet the hypotheses of each clause of ScalarImmediateResults. -/
theorem witness_ScalarImmediateResults :
    (∃ (s : State) (n : Fin 192) (_rd : Fin 32) (_ra : Fin 32) (_imm : BitVec 16), issues n s) ∧
    (∃ (s : State) (n : Fin 192) (_rd : Fin 32) (_ra : Fin 32) (_k : Fin 32), issues n s) ∧
    (∃ (s : State) (n : Fin 192) (_rd : Fin 32) (_ra : Fin 32) (_pos : Fin 32) (_width : Fin 32), issues n s) ∧
    (∃ (s : State) (n : Fin 192) (_rd : Fin 32) (_ra : Fin 32), issues n s) :=
  ⟨⟨(fun (s : State) (n : Fin 192) (rd : Fin 32) (ra : Fin 32) (imm : BitVec 16) => s.tillerRuns n 64) State.reset 0 1 2 0x8001, 0, 1, 2, 0x8001, by decide +kernel⟩,
    ⟨(fun (s : State) (n : Fin 192) (rd : Fin 32) (ra : Fin 32) (k : Fin 32) => s.tillerRuns n 64) State.reset 0 1 2 31, 0, 1, 2, 31, by decide +kernel⟩,
    ⟨(fun (s : State) (n : Fin 192) (rd : Fin 32) (ra : Fin 32) (pos : Fin 32) (width : Fin 32) => s.tillerRuns n 64) State.reset 0 1 2 31 31, 0, 1, 2, 31, 31, by decide +kernel⟩,
    ⟨(fun (s : State) (n : Fin 192) (rd : Fin 32) (ra : Fin 32) => s.tillerRuns n 64) State.reset 0 1 2, 0, 1, 2, by decide +kernel⟩⟩

/-- States and operands that meet the hypotheses of each clause of ComparesSetFlags. -/
theorem witness_ComparesSetFlags :
    (∃ (s : State) (n : Fin 192) (_ra : Fin 32) (_rb : Fin 32), issues n s) ∧
    (∃ (s : State) (n : Fin 192) (_ra : Fin 32) (_imm : BitVec 16), issues n s) ∧
    (∃ (s : State) (n : Fin 192) (_ra : Fin 32), issues n s) :=
  ⟨⟨(fun (s : State) (n : Fin 192) (ra : Fin 32) (rb : Fin 32) => s.tillerRuns n 64) State.reset 0 1 2, 0, 1, 2, by decide +kernel⟩,
    ⟨(fun (s : State) (n : Fin 192) (ra : Fin 32) (imm : BitVec 16) => s.tillerRuns n 64) State.reset 0 1 0xFFFF, 0, 1, 0xFFFF, by decide +kernel⟩,
    ⟨(fun (s : State) (n : Fin 192) (ra : Fin 32) => s.tillerRuns n 64) State.reset 0 1, 0, 1, by decide +kernel⟩⟩

/-- States and operands that meet the hypotheses of each clause of BranchesAndJumps. -/
theorem witness_BranchesAndJumps :
    (∃ (s : State) (n : Fin 192) (cond : Fin 16) (off : BitVec 22), issues n s ∧ branchTaken cond (s.tiller n).flags = true ∧ (0 ≤ ((s.tiller n).pc + 4 * off.toInt) ∧ ((s.tiller n).pc + 4 * off.toInt) ≤ 0x7FFF) ∧ ((s.tiller n).pc + 4 * off.toInt) % 4 = 0) ∧
    (∃ (s : State) (n : Fin 192) (cond : Fin 16) (_off : BitVec 22), issues n s ∧ branchTaken cond (s.tiller n).flags = false ∧ ((cond.val < 12 ∨ cond.val = 15))) ∧
    (∃ (s : State) (n : Fin 192) (cond : Fin 16) (off : BitVec 22), issues n s ∧ branchTaken cond (s.tiller n).flags = true ∧ ¬ (0 ≤ ((s.tiller n).pc + 4 * off.toInt) ∧ ((s.tiller n).pc + 4 * off.toInt) ≤ 0x7FFF)) ∧
    (∃ (s : State) (n : Fin 192) (_rd : Fin 32) (off : BitVec 21), issues n s ∧ (0 ≤ ((s.tiller n).pc + 4 * off.toInt) ∧ ((s.tiller n).pc + 4 * off.toInt) ≤ 0x7FFF) ∧ ((s.tiller n).pc + 4 * off.toInt) % 4 = 0) ∧
    (∃ (s : State) (n : Fin 192) (_rd : Fin 32) (off : BitVec 21), issues n s ∧ ¬ (0 ≤ ((s.tiller n).pc + 4 * off.toInt) ∧ ((s.tiller n).pc + 4 * off.toInt) ≤ 0x7FFF)) ∧
    (∃ (s : State) (n : Fin 192) (_rd : Fin 32) (ra : Fin 32) (imm : BitVec 16), issues n s ∧ (s.ea n ra imm) ≤ 0x7FFF ∧ (s.ea n ra imm) % 4 = 0) ∧
    (∃ (s : State) (n : Fin 192) (_rd : Fin 32) (ra : Fin 32) (imm : BitVec 16), issues n s ∧ (s.ea n ra imm) ≤ 0x7FFF ∧ (s.ea n ra imm) % 4 ≠ 0) ∧
    (∃ (s : State) (n : Fin 192) (_rd : Fin 32) (ra : Fin 32) (imm : BitVec 16), issues n s ∧ 0x7FFF < (s.ea n ra imm)) :=
  ⟨⟨(fun (s : State) (n : Fin 192) (cond : Fin 16) (off : BitVec 22) => s.tillerRuns n (64 + 4 * (off.toNat % 9))) State.reset 0 15 3, 0, 15, 3, by decide +kernel⟩,
    ⟨(fun (s : State) (n : Fin 192) (cond : Fin 16) (off : BitVec 22) => s.tillerRuns n 64) State.reset 0 0 3, 0, 0, 3, by decide +kernel⟩,
    ⟨(fun (s : State) (n : Fin 192) (cond : Fin 16) (off : BitVec 22) => s.tillerRuns n 64) State.reset 0 15 0x3FFF00, 0, 15, 0x3FFF00, by decide +kernel⟩,
    ⟨(fun (s : State) (n : Fin 192) (rd : Fin 32) (off : BitVec 21) => s.tillerRuns n (if off.toNat < 8000 then 64 else 0x7000)) State.reset 0 31 5, 0, 31, 5, by decide +kernel⟩,
    ⟨(fun (s : State) (n : Fin 192) (rd : Fin 32) (off : BitVec 21) => s.tillerRuns n 64) State.reset 0 31 0x1FFF00, 0, 31, 0x1FFF00, by decide +kernel⟩,
    ⟨(fun (s : State) (n : Fin 192) (rd : Fin 32) (ra : Fin 32) (imm : BitVec 16) => s.tillerRuns n 64) State.reset 0 31 0 0x80, 0, 31, 0, 0x80, by decide +kernel⟩,
    ⟨(fun (s : State) (n : Fin 192) (rd : Fin 32) (ra : Fin 32) (imm : BitVec 16) => s.tillerRuns n 64) State.reset 0 31 0 0x82, 0, 31, 0, 0x82, by decide +kernel⟩,
    ⟨(fun (s : State) (n : Fin 192) (rd : Fin 32) (ra : Fin 32) (imm : BitVec 16) => s.tillerRuns n 64) State.reset 0 31 0 0x8000, 0, 31, 0, 0x8000, by decide +kernel⟩⟩

/-- States and operands that meet the hypotheses of each clause of ScalarLoads. -/
theorem witness_ScalarLoads :
    (∃ (s : State) (n : Fin 192) (_rd : Fin 32) (ra : Fin 32) (imm : BitVec 16) (_t0 : Nat), issues n s ∧ (((0x10000 ≤ (s.ea n ra imm) ∧ (s.ea n ra imm) < 0x20000) ∨ (0x20000 ≤ (s.ea n ra imm) ∧ (s.ea n ra imm) < 0x28000))) ∧ (s.ea n ra imm) % 4 = 0 ∧ (s.condAt n (s.ea n ra imm)) = .ok) ∧
    (∃ (s : State) (n : Fin 192) (_rd : Fin 32) (ra : Fin 32) (imm : BitVec 16) (_t0 : Nat), issues n s ∧ (((0x10000 ≤ (s.ea n ra imm) ∧ (s.ea n ra imm) < 0x20000) ∨ (0x20000 ≤ (s.ea n ra imm) ∧ (s.ea n ra imm) < 0x28000))) ∧ (s.ea n ra imm) % 4 = 0 ∧ (s.condAt n (s.ea n ra imm)) = .ce) ∧
    (∃ (s : State) (n : Fin 192) (_rd : Fin 32) (ra : Fin 32) (imm : BitVec 16) (_t0 : Nat), issues n s ∧ (((0x10000 ≤ (s.ea n ra imm) ∧ (s.ea n ra imm) < 0x20000) ∨ (0x20000 ≤ (s.ea n ra imm) ∧ (s.ea n ra imm) < 0x28000))) ∧ (s.ea n ra imm) % 4 = 0 ∧ (s.condAt n (s.ea n ra imm)).bad = true ∧ s.on (F.TIL_CFG_POISON_ZERO n) = true) ∧
    (∃ (s : State) (n : Fin 192) (_rd : Fin 32) (ra : Fin 32) (imm : BitVec 16) (_t0 : Nat), issues n s ∧ (((0x10000 ≤ (s.ea n ra imm) ∧ (s.ea n ra imm) < 0x20000) ∨ (0x20000 ≤ (s.ea n ra imm) ∧ (s.ea n ra imm) < 0x28000))) ∧ (s.ea n ra imm) % 4 = 0 ∧ (s.condAt n (s.ea n ra imm)).bad = true ∧ s.on (F.TIL_CFG_POISON_ZERO n) = false) ∧
    (∃ (s : State) (n : Fin 192) (_rd : Fin 32) (ra : Fin 32) (imm : BitVec 16) (_t0 : Nat), issues n s ∧ (s.ea n ra imm) = 0x30004) ∧
    (∃ (s : State) (n : Fin 192) (_rd : Fin 32) (ra : Fin 32) (imm : BitVec 16) (_t0 : Nat), issues n s ∧ (s.ea n ra imm) = 0x30014) ∧
    (∃ (s : State) (n : Fin 192) (_rd : Fin 32) (ra : Fin 32) (imm : BitVec 16) (_t0 : Nat), issues n s ∧ (s.ea n ra imm) = 0x30018) ∧
    (∃ (s : State) (n : Fin 192) (_rd : Fin 32) (ra : Fin 32) (imm : BitVec 16) (_t0 : Nat), issues n s ∧ (s.ea n ra imm) = 0x3001C) ∧
    (∃ (s : State) (n : Fin 192) (_rd : Fin 32) (ra : Fin 32) (imm : BitVec 16) (_t0 : Nat), issues n s ∧ (s.ea n ra imm) = 0x30020) ∧
    (∃ (s : State) (n : Fin 192) (_rd : Fin 32) (ra : Fin 32) (imm : BitVec 16) (_t0 : Nat), issues n s ∧ (s.ea n ra imm) = 0x30024) ∧
    (∃ (s : State) (n : Fin 192) (_rd : Fin 32) (ra : Fin 32) (imm : BitVec 16) (_t0 : Nat), issues n s ∧ (s.ea n ra imm) = 0x30028) ∧
    (∃ (s : State) (n : Fin 192) (_rd : Fin 32) (ra : Fin 32) (imm : BitVec 16) (_t0 : Nat), issues n s ∧ (s.ea n ra imm) = 0x3002C) ∧
    (∃ (s : State) (n : Fin 192) (_rd : Fin 32) (ra : Fin 32) (imm : BitVec 16) (_t0 : Nat), issues n s ∧ (s.ea n ra imm) = 0x30030) ∧
    (∃ (s : State) (n : Fin 192) (_rd : Fin 32) (ra : Fin 32) (imm : BitVec 16) (_t0 : Nat), issues n s ∧ (s.ea n ra imm) = 0x30000) ∧
    (∃ (s : State) (n : Fin 192) (_rd : Fin 32) (ra : Fin 32) (imm : BitVec 16) (_t0 : Nat), issues n s ∧ 0x30034 ≤ (s.ea n ra imm) ∧ (s.ea n ra imm) < 0x30040 ∧ (s.ea n ra imm) % 4 = 0) ∧
    (∃ (s : State) (n : Fin 192) (_rd : Fin 32) (ra : Fin 32) (imm : BitVec 16) (_t0 : Nat), issues n s ∧ (s.ea n ra imm) = 0x30010) ∧
    (∃ (s : State) (n : Fin 192) (_rd : Fin 32) (ra : Fin 32) (imm : BitVec 16) (_t0 : Nat), issues n s ∧ (s.ea n ra imm) = 0x30008 ∧ s.running = true ∧ s.his.deadlinePassed = false) ∧
    (∃ (s : State) (n : Fin 192) (_rd : Fin 32) (ra : Fin 32) (imm : BitVec 16) (_t0 : Nat), issues n s ∧ (s.ea n ra imm) = 0x30008 ∧ (s.running = false ∨ s.his.deadlinePassed = true)) ∧
    (∃ (s : State) (n : Fin 192) (_rd : Fin 32) (ra : Fin 32) (imm : BitVec 16) (_t0 : Nat), issues n s ∧ (s.ea n ra imm) = 0x3000C ∧ (s.tiller n).own.isSome = true) ∧
    (∃ (s : State) (n : Fin 192) (_rd : Fin 32) (ra : Fin 32) (imm : BitVec 16) (_t0 : Nat), issues n s ∧ (s.ea n ra imm) = 0x3000C ∧ (s.tiller n).own = none) ∧
    (∃ (s : State) (n : Fin 192) (_rd : Fin 32) (ra : Fin 32) (imm : BitVec 16) (_t0 : Nat), issues n s ∧ ¬ (0x10000 ≤ (s.ea n ra imm) ∧ (s.ea n ra imm) < 0x20000) ∧ ¬ (0x20000 ≤ (s.ea n ra imm) ∧ (s.ea n ra imm) < 0x28000) ∧ ¬ (0x30000 ≤ (s.ea n ra imm) ∧ (s.ea n ra imm) < 0x30040)) ∧
    (∃ (s : State) (n : Fin 192) (_rd : Fin 32) (ra : Fin 32) (imm : BitVec 16) (_t0 : Nat), issues n s ∧ (((0x10000 ≤ (s.ea n ra imm) ∧ (s.ea n ra imm) < 0x20000) ∨ (0x20000 ≤ (s.ea n ra imm) ∧ (s.ea n ra imm) < 0x28000) ∨ (0x30000 ≤ (s.ea n ra imm) ∧ (s.ea n ra imm) < 0x30040))) ∧ (s.ea n ra imm) % 4 ≠ 0) :=
  ⟨⟨(fun (s : State) (n : Fin 192) (rd : Fin 32) (ra : Fin 32) (imm : BitVec 16) (t0 : Nat) => (if t0 % 2 = 0 then ((s.tillerRuns n 64).onTiller n fun x => x.setS ra (BitVec.ofNat 32 (65536 + 4 * (imm.toNat % 60)) - imm.signExtend 32)) else ((s.tillerRuns n 64).onTiller n fun x => x.setS ra (BitVec.ofNat 32 (159744 + 4 * (imm.toNat % 60)) - imm.signExtend 32)))) State.reset 0 1 2 0 3, 0, 1, 2, 0, 3, by decide +kernel⟩,
    ⟨(fun (s : State) (n : Fin 192) (rd : Fin 32) (ra : Fin 32) (imm : BitVec 16) (t0 : Nat) => (if t0 % 2 = 0 then (let s := ((s.tillerRuns n 64).onTiller n fun x => x.setS ra (BitVec.ofNat 32 (65536 + 4 * (t0 % 60)) - imm.signExtend 32)); let s := (s.onTiller n fun x => { x with dmemCond := Tab.set (fun _ => .ok) x.dmemCond ((x.ea ra imm.toNat - 0x10000) / 4) .ce }); s) else (let s := ((s.tillerRuns n 64).onTiller n fun x => x.setS ra (BitVec.ofNat 32 (0x20000 + 0x7200) - imm.signExtend 32)); let s := s.onTiller n fun x => { x with own := some (0, 3) }; let s : State := { s with his := { s.his with bank0 := { s.his.bank0 with cond := (List.range 64).map fun i => (1152 * 0 + i, .ce) }, ploughCond := (List.range 90000).take 3 |>.map fun i => (i, .ce) } }; s))) State.reset 0 1 2 0 4, 0, 1, 2, 0, 4, by decide +kernel⟩,
    ⟨(fun (s : State) (n : Fin 192) (rd : Fin 32) (ra : Fin 32) (imm : BitVec 16) (t0 : Nat) => (if t0 % 3 = 0 then (let s := ((s.tillerRuns n 64).onTiller n fun x => x.setS ra (BitVec.ofNat 32 (65536 + 4 * (t0 % 60)) - imm.signExtend 32)); let s := (s.onTiller n fun x => { x with dmemCond := Tab.set (fun _ => .ok) x.dmemCond ((x.ea ra imm.toNat - 0x10000) / 4) .poison }); s.wr (F.TIL_CFG_POISON_ZERO n) 1) else (let s := ((s.tillerRuns n 64).onTiller n fun x => x.setS ra (BitVec.ofNat 32 (0x20000 + (if t0 % 3 = 1 then 0x7200 else 0)) - imm.signExtend 32)); let s := s.onTiller n fun x => { x with own := some (0, 3) }; let s : State := { s with his := { s.his with bank0 := { s.his.bank0 with cond := (List.range 64).map fun i => (1152 * 0 + i, (if t0 % 2 = 0 then .ue else .poison)) }, ploughCond := (List.range 90000).take 3 |>.map fun i => (i, (if t0 % 2 = 0 then .ue else .poison)) } }; s.wr (F.TIL_CFG_POISON_ZERO n) 1))) State.reset 0 1 2 0 3, 0, 1, 2, 0, 3, by decide +kernel⟩,
    ⟨(fun (s : State) (n : Fin 192) (rd : Fin 32) (ra : Fin 32) (imm : BitVec 16) (t0 : Nat) => (if t0 % 3 = 0 then (let s := ((s.tillerRuns n 64).onTiller n fun x => x.setS ra (BitVec.ofNat 32 (65536 + 4 * (t0 % 60)) - imm.signExtend 32)); let s := (s.onTiller n fun x => { x with dmemCond := Tab.set (fun _ => .ok) x.dmemCond ((x.ea ra imm.toNat - 0x10000) / 4) .ue }); s.wr (F.TIL_CFG_POISON_ZERO n) 0) else (let s := ((s.tillerRuns n 64).onTiller n fun x => x.setS ra (BitVec.ofNat 32 (0x20000 + (if t0 % 3 = 1 then 0x7200 else 0)) - imm.signExtend 32)); let s := s.onTiller n fun x => { x with own := some (0, 3) }; let s : State := { s with his := { s.his with bank0 := { s.his.bank0 with cond := (List.range 64).map fun i => (1152 * 0 + i, (if t0 % 2 = 0 then .ue else .poison)) }, ploughCond := (List.range 90000).take 3 |>.map fun i => (i, (if t0 % 2 = 0 then .ue else .poison)) } }; s.wr (F.TIL_CFG_POISON_ZERO n) 0))) State.reset 0 1 2 0 3, 0, 1, 2, 0, 3, by decide +kernel⟩,
    ⟨(fun (s : State) (n : Fin 192) (rd : Fin 32) (ra : Fin 32) (imm : BitVec 16) (t0 : Nat) => ((s.tillerRuns n 64).onTiller n fun x => x.setS ra (BitVec.ofNat 32 (0x30004) - imm.signExtend 32))) State.reset 0 1 2 0 3, 0, 1, 2, 0, 3, by decide +kernel⟩,
    ⟨(fun (s : State) (n : Fin 192) (rd : Fin 32) (ra : Fin 32) (imm : BitVec 16) (t0 : Nat) => ((s.tillerRuns n 64).onTiller n fun x => x.setS ra (BitVec.ofNat 32 (0x30014) - imm.signExtend 32))) State.reset 0 1 2 0 3, 0, 1, 2, 0, 3, by decide +kernel⟩,
    ⟨(fun (s : State) (n : Fin 192) (rd : Fin 32) (ra : Fin 32) (imm : BitVec 16) (t0 : Nat) => ((s.tillerRuns n 64).onTiller n fun x => x.setS ra (BitVec.ofNat 32 (0x30018) - imm.signExtend 32))) State.reset 0 1 2 0 3, 0, 1, 2, 0, 3, by decide +kernel⟩,
    ⟨(fun (s : State) (n : Fin 192) (rd : Fin 32) (ra : Fin 32) (imm : BitVec 16) (t0 : Nat) => ((s.tillerRuns n 64).onTiller n fun x => x.setS ra (BitVec.ofNat 32 (0x3001C) - imm.signExtend 32))) State.reset 0 1 2 0 3, 0, 1, 2, 0, 3, by decide +kernel⟩,
    ⟨(fun (s : State) (n : Fin 192) (rd : Fin 32) (ra : Fin 32) (imm : BitVec 16) (t0 : Nat) => ((s.tillerRuns n 64).onTiller n fun x => x.setS ra (BitVec.ofNat 32 (0x30020) - imm.signExtend 32))) State.reset 0 1 2 0 3, 0, 1, 2, 0, 3, by decide +kernel⟩,
    ⟨(fun (s : State) (n : Fin 192) (rd : Fin 32) (ra : Fin 32) (imm : BitVec 16) (t0 : Nat) => ((s.tillerRuns n 64).onTiller n fun x => x.setS ra (BitVec.ofNat 32 (0x30024) - imm.signExtend 32))) State.reset 0 1 2 0 3, 0, 1, 2, 0, 3, by decide +kernel⟩,
    ⟨(fun (s : State) (n : Fin 192) (rd : Fin 32) (ra : Fin 32) (imm : BitVec 16) (t0 : Nat) => ((s.tillerRuns n 64).onTiller n fun x => x.setS ra (BitVec.ofNat 32 (0x30028) - imm.signExtend 32))) State.reset 0 1 2 0 3, 0, 1, 2, 0, 3, by decide +kernel⟩,
    ⟨(fun (s : State) (n : Fin 192) (rd : Fin 32) (ra : Fin 32) (imm : BitVec 16) (t0 : Nat) => ((s.tillerRuns n 64).onTiller n fun x => x.setS ra (BitVec.ofNat 32 (0x3002C) - imm.signExtend 32))) State.reset 0 1 2 0 3, 0, 1, 2, 0, 3, by decide +kernel⟩,
    ⟨(fun (s : State) (n : Fin 192) (rd : Fin 32) (ra : Fin 32) (imm : BitVec 16) (t0 : Nat) => ((s.tillerRuns n 64).onTiller n fun x => x.setS ra (BitVec.ofNat 32 (0x30030) - imm.signExtend 32))) State.reset 0 1 2 0 3, 0, 1, 2, 0, 3, by decide +kernel⟩,
    ⟨(fun (s : State) (n : Fin 192) (rd : Fin 32) (ra : Fin 32) (imm : BitVec 16) (t0 : Nat) => ((s.tillerRuns n 64).onTiller n fun x => x.setS ra (BitVec.ofNat 32 (0x30000) - imm.signExtend 32))) State.reset 0 1 2 0 3, 0, 1, 2, 0, 3, by decide +kernel⟩,
    ⟨(fun (s : State) (n : Fin 192) (rd : Fin 32) (ra : Fin 32) (imm : BitVec 16) (t0 : Nat) => ((s.tillerRuns n 64).onTiller n fun x => x.setS ra (BitVec.ofNat 32 (0x30034 + 4 * (t0 % 3)) - imm.signExtend 32))) State.reset 0 1 2 0 3, 0, 1, 2, 0, 3, by decide +kernel⟩,
    ⟨(fun (s : State) (n : Fin 192) (rd : Fin 32) (ra : Fin 32) (imm : BitVec 16) (t0 : Nat) => ((s.tillerRuns n 64).onTiller n fun x => x.setS ra (BitVec.ofNat 32 (0x30010) - imm.signExtend 32))) State.reset 0 1 2 0 3, 0, 1, 2, 0, 3, by decide +kernel⟩,
    ⟨(fun (s : State) (n : Fin 192) (rd : Fin 32) (ra : Fin 32) (imm : BitVec 16) (t0 : Nat) => (let s := ((s.tillerRuns n 64).onTiller n fun x => x.setS ra (BitVec.ofNat 32 (0x30008) - imm.signExtend 32)); let s : State := { s with his := { s.his with deadlinePassed := false, deadlineAt := t0 % 50000 * 1000 } }; (s.onTiller n fun x => { x with own := some (0, 3), blockDue := t0 % 70000 * 900 }).wr F.HIS_STATUS_RUNNING 1)) State.reset 0 1 2 0 3, 0, 1, 2, 0, 3, by decide +kernel⟩,
    ⟨(fun (s : State) (n : Fin 192) (rd : Fin 32) (ra : Fin 32) (imm : BitVec 16) (t0 : Nat) => (let s := ((s.tillerRuns n 64).onTiller n fun x => x.setS ra (BitVec.ofNat 32 (0x30008) - imm.signExtend 32)); let s : State := { s with his := { s.his with deadlinePassed := true, deadlineAt := t0 % 50000 * 1000 } }; (s.onTiller n fun x => { x with own := some (0, 3), blockDue := t0 % 70000 * 900 }).wr F.HIS_STATUS_RUNNING 1)) State.reset 0 1 2 0 3, 0, 1, 2, 0, 3, by decide +kernel⟩,
    ⟨(fun (s : State) (n : Fin 192) (rd : Fin 32) (ra : Fin 32) (imm : BitVec 16) (t0 : Nat) => (let s := ((s.tillerRuns n 64).onTiller n fun x => x.setS ra (BitVec.ofNat 32 (0x3000C) - imm.signExtend 32)); let s : State := { s with his := { s.his with deadlinePassed := false, deadlineAt := t0 % 50000 * 1000 } }; (s.onTiller n fun x => { x with own := some (0, 3), blockDue := t0 % 70000 * 900 }).wr F.HIS_STATUS_RUNNING 1)) State.reset 0 1 2 0 3, 0, 1, 2, 0, 3, by decide +kernel⟩,
    ⟨(fun (s : State) (n : Fin 192) (rd : Fin 32) (ra : Fin 32) (imm : BitVec 16) (t0 : Nat) => ((((s.tillerRuns n 64).onTiller n fun x => x.setS ra (BitVec.ofNat 32 (0x3000C) - imm.signExtend 32))).onTiller n fun x => { x with own := none })) State.reset 0 1 2 0 3, 0, 1, 2, 0, 3, by decide +kernel⟩,
    ⟨(fun (s : State) (n : Fin 192) (rd : Fin 32) (ra : Fin 32) (imm : BitVec 16) (t0 : Nat) => s.tillerRuns n 64) State.reset 0 1 0 0 3, 0, 1, 0, 0, 3, by decide +kernel⟩,
    ⟨(fun (s : State) (n : Fin 192) (rd : Fin 32) (ra : Fin 32) (imm : BitVec 16) (t0 : Nat) => ((s.tillerRuns n 64).onTiller n fun x => x.setS ra (BitVec.ofNat 32 (65537 + 4 * (t0 % 60)) - imm.signExtend 32))) State.reset 0 1 2 0 3, 0, 1, 2, 0, 3, by decide +kernel⟩⟩

/-- States and operands that meet the hypotheses of each clause of StoresWriteTheirBytes. -/
theorem witness_StoresWriteTheirBytes :
    (∃ (s : State) (n : Fin 192) (_rs : Fin 32) (ra : Fin 32) (imm : BitVec 16), issues n s ∧ (0x10000 ≤ (s.ea n ra imm) ∧ (s.ea n ra imm) < 0x20000) ∧ (s.ea n ra imm) % 4 = 0) ∧
    (∃ (s : State) (n : Fin 192) (_rs : Fin 32) (ra : Fin 32) (imm : BitVec 16), issues n s ∧ (0x10000 ≤ (s.ea n ra imm) ∧ (s.ea n ra imm) < 0x20000) ∧ (s.ea n ra imm) % 16 = 0) ∧
    (∃ (s : State) (n : Fin 192) (_rs : Fin 32) (ra : Fin 32) (imm : BitVec 16), issues n s ∧ (s.ea n ra imm) = 0x30000) ∧
    (∃ (s : State) (n : Fin 192) (_rs : Fin 32) (ra : Fin 32) (imm : BitVec 16), issues n s ∧ ¬ (0x10000 ≤ (s.ea n ra imm) ∧ (s.ea n ra imm) < 0x20000) ∧ ¬ (0x30000 ≤ (s.ea n ra imm) ∧ (s.ea n ra imm) < 0x30004)) ∧
    (∃ (s : State) (n : Fin 192) (_rs : Fin 32) (ra : Fin 32) (imm : BitVec 16), issues n s ∧ (((0x10000 ≤ (s.ea n ra imm) ∧ (s.ea n ra imm) < 0x20000) ∨ (0x30000 ≤ (s.ea n ra imm) ∧ (s.ea n ra imm) < 0x30004))) ∧ (s.ea n ra imm) % 4 ≠ 0) ∧
    (∃ (s : State) (n : Fin 192) (_rs : Fin 32) (ra : Fin 32) (imm : BitVec 16), issues n s ∧ ¬ (0x10000 ≤ (s.ea n ra imm) ∧ (s.ea n ra imm) < 0x20000)) ∧
    (∃ (s : State) (n : Fin 192) (_rs : Fin 32) (ra : Fin 32) (imm : BitVec 16), issues n s ∧ (0x10000 ≤ (s.ea n ra imm) ∧ (s.ea n ra imm) < 0x20000) ∧ (s.ea n ra imm) % 16 ≠ 0) :=
  ⟨⟨(fun (s : State) (n : Fin 192) (rs : Fin 32) (ra : Fin 32) (imm : BitVec 16) => ((s.tillerRuns n 64).onTiller n fun x => x.setS ra (BitVec.ofNat 32 (65536 + 4 * (imm.toNat % 60)) - imm.signExtend 32))) State.reset 0 1 2 8, 0, 1, 2, 8, by decide +kernel⟩,
    ⟨(fun (s : State) (n : Fin 192) (rs : Fin 32) (ra : Fin 32) (imm : BitVec 16) => ((s.tillerRuns n 64).onTiller n fun x => x.setS ra (BitVec.ofNat 32 (0x10040) - imm.signExtend 32))) State.reset 0 1 2 16, 0, 1, 2, 16, by decide +kernel⟩,
    ⟨(fun (s : State) (n : Fin 192) (rs : Fin 32) (ra : Fin 32) (imm : BitVec 16) => ((s.tillerRuns n 64).onTiller n fun x => x.setS ra (BitVec.ofNat 32 (0x30000) - imm.signExtend 32))) State.reset 0 1 2 8, 0, 1, 2, 8, by decide +kernel⟩,
    ⟨(fun (s : State) (n : Fin 192) (rs : Fin 32) (ra : Fin 32) (imm : BitVec 16) => s.tillerRuns n 64) State.reset 0 1 0 8, 0, 1, 0, 8, by decide +kernel⟩,
    ⟨(fun (s : State) (n : Fin 192) (rs : Fin 32) (ra : Fin 32) (imm : BitVec 16) => ((s.tillerRuns n 64).onTiller n fun x => x.setS ra (BitVec.ofNat 32 (0x10041) - imm.signExtend 32))) State.reset 0 1 2 8, 0, 1, 2, 8, by decide +kernel⟩,
    ⟨(fun (s : State) (n : Fin 192) (rs : Fin 32) (ra : Fin 32) (imm : BitVec 16) => s.tillerRuns n 64) State.reset 0 1 0 8, 0, 1, 0, 8, by decide +kernel⟩,
    ⟨(fun (s : State) (n : Fin 192) (rs : Fin 32) (ra : Fin 32) (imm : BitVec 16) => ((s.tillerRuns n 64).onTiller n fun x => x.setS ra (BitVec.ofNat 32 (0x10044) - imm.signExtend 32))) State.reset 0 1 2 8, 0, 1, 2, 8, by decide +kernel⟩⟩

/-- States and operands that meet the hypotheses of each clause of VectorLoads. -/
theorem witness_VectorLoads :
    (∃ (s : State) (n : Fin 192) (_vd : Fin 32) (ra : Fin 32) (imm : BitVec 16), issues n s ∧ (((0x10000 ≤ (s.ea n ra imm) ∧ (s.ea n ra imm) < 0x20000) ∨ (0x20000 ≤ (s.ea n ra imm) ∧ (s.ea n ra imm) < 0x28000))) ∧ (s.ea n ra imm) % 16 = 0 ∧ (∀ i : Fin 4, (s.condAt n ((s.ea n ra imm) + 4 * i)) = .ok)) ∧
    (∃ (s : State) (n : Fin 192) (_vd : Fin 32) (ra : Fin 32) (imm : BitVec 16), issues n s ∧ (((0x10000 ≤ (s.ea n ra imm) ∧ (s.ea n ra imm) < 0x20000) ∨ (0x20000 ≤ (s.ea n ra imm) ∧ (s.ea n ra imm) < 0x28000))) ∧ (s.ea n ra imm) % 16 = 0 ∧ (∀ i : Fin 4, (s.condAt n ((s.ea n ra imm) + 4 * i)).bad = false)) ∧
    (∃ (s : State) (n : Fin 192) (_vd : Fin 32) (ra : Fin 32) (imm : BitVec 16), issues n s ∧ (((0x10000 ≤ (s.ea n ra imm) ∧ (s.ea n ra imm) < 0x20000) ∨ (0x20000 ≤ (s.ea n ra imm) ∧ (s.ea n ra imm) < 0x28000))) ∧ (s.ea n ra imm) % 16 = 0 ∧ (∃ i : Fin 4, (s.condAt n ((s.ea n ra imm) + 4 * i)).bad = true) ∧ s.on (F.TIL_CFG_POISON_ZERO n) = true) ∧
    (∃ (s : State) (n : Fin 192) (_vd : Fin 32) (ra : Fin 32) (imm : BitVec 16) (i : Fin 4), issues n s ∧ (((0x10000 ≤ (s.ea n ra imm) ∧ (s.ea n ra imm) < 0x20000) ∨ (0x20000 ≤ (s.ea n ra imm) ∧ (s.ea n ra imm) < 0x28000))) ∧ (s.ea n ra imm) % 16 = 0 ∧ ((s.condAt n ((s.ea n ra imm) + 4 * i)).bad = true ∧ ∀ j : Fin 4, j < i → (s.condAt n ((s.ea n ra imm) + 4 * j)).bad = false) ∧ s.on (F.TIL_CFG_POISON_ZERO n) = false) ∧
    (∃ (s : State) (n : Fin 192) (_vd : Fin 32) (ra : Fin 32) (imm : BitVec 16), issues n s ∧ ¬ (0x10000 ≤ (s.ea n ra imm) ∧ (s.ea n ra imm) < 0x20000) ∧ ¬ (0x20000 ≤ (s.ea n ra imm) ∧ (s.ea n ra imm) < 0x28000)) ∧
    (∃ (s : State) (n : Fin 192) (_vd : Fin 32) (ra : Fin 32) (imm : BitVec 16), issues n s ∧ (((0x10000 ≤ (s.ea n ra imm) ∧ (s.ea n ra imm) < 0x20000) ∨ (0x20000 ≤ (s.ea n ra imm) ∧ (s.ea n ra imm) < 0x28000))) ∧ (s.ea n ra imm) % 16 ≠ 0) ∧
    (∃ (s : State) (n : Fin 192) (_vd : Fin 32) (ra : Fin 32) (rb : Fin 32), issues n s ∧ (∀ a ∈ (binWords (s.sr n ra) (s.sr n rb)), (0x10000 ≤ (s.sr n ra).toNat ∧ (s.sr n ra).toNat < 0x20000 ∧ a < 0x20000) ∨ (0x20000 ≤ (s.sr n ra).toNat ∧ (s.sr n ra).toNat < 0x28000 ∧ a < 0x28000)) ∧ 0x10000 ≤ (s.sr n ra).toNat ∧ (s.sr n ra).toNat < 0x28000 ∧ (s.sr n ra).toNat % 16 = 0 ∧ (∀ a ∈ (binWords (s.sr n ra) (s.sr n rb)), s.condAt n a = .ok)) ∧
    (∃ (s : State) (n : Fin 192) (_vd : Fin 32) (ra : Fin 32) (rb : Fin 32), issues n s ∧ (∀ a ∈ (binWords (s.sr n ra) (s.sr n rb)), (0x10000 ≤ (s.sr n ra).toNat ∧ (s.sr n ra).toNat < 0x20000 ∧ a < 0x20000) ∨ (0x20000 ≤ (s.sr n ra).toNat ∧ (s.sr n ra).toNat < 0x28000 ∧ a < 0x28000)) ∧ 0x10000 ≤ (s.sr n ra).toNat ∧ (s.sr n ra).toNat < 0x28000 ∧ (s.sr n ra).toNat % 16 = 0 ∧ (∀ a ∈ (binWords (s.sr n ra) (s.sr n rb)), (s.condAt n a).bad = true → s.on (F.TIL_CFG_POISON_ZERO n) = true)) ∧
    (∃ (s : State) (n : Fin 192) (_vd : Fin 32) (ra : Fin 32) (rb : Fin 32) (a : Nat), issues n s ∧ (∀ a ∈ (binWords (s.sr n ra) (s.sr n rb)), (0x10000 ≤ (s.sr n ra).toNat ∧ (s.sr n ra).toNat < 0x20000 ∧ a < 0x20000) ∨ (0x20000 ≤ (s.sr n ra).toNat ∧ (s.sr n ra).toNat < 0x28000 ∧ a < 0x28000)) ∧ 0x10000 ≤ (s.sr n ra).toNat ∧ (s.sr n ra).toNat < 0x28000 ∧ (s.sr n ra).toNat % 16 = 0 ∧ ((binWords (s.sr n ra) (s.sr n rb)).find? (fun b => (s.condAt n b).bad) = some a) ∧ s.on (F.TIL_CFG_POISON_ZERO n) = false) ∧
    (∃ (s : State) (n : Fin 192) (_vd : Fin 32) (ra : Fin 32) (rb : Fin 32) (g : Nat), issues n s ∧ 0x10000 ≤ (s.sr n ra).toNat ∧ (s.sr n ra).toNat < 0x28000 ∧ ((binWords (s.sr n ra) (s.sr n rb)).find? (fun b => decide ((s.sr n ra).toNat < 0x20000) != decide (b < 0x20000) || decide (0x28000 ≤ b)) = some g)) ∧
    (∃ (s : State) (n : Fin 192) (_vd : Fin 32) (ra : Fin 32) (_rb : Fin 32), issues n s ∧ ¬ (0x10000 ≤ (s.sr n ra).toNat ∧ (s.sr n ra).toNat < 0x28000)) ∧
    (∃ (s : State) (n : Fin 192) (_vd : Fin 32) (ra : Fin 32) (rb : Fin 32), issues n s ∧ 0x10000 ≤ (s.sr n ra).toNat ∧ (s.sr n ra).toNat < 0x28000 ∧ (s.sr n ra).toNat % 16 ≠ 0 ∧ (∀ a ∈ (binWords (s.sr n ra) (s.sr n rb)), (0x10000 ≤ (s.sr n ra).toNat ∧ (s.sr n ra).toNat < 0x20000 ∧ a < 0x20000) ∨ (0x20000 ≤ (s.sr n ra).toNat ∧ (s.sr n ra).toNat < 0x28000 ∧ a < 0x28000))) :=
  ⟨⟨(fun (s : State) (n : Fin 192) (vd : Fin 32) (ra : Fin 32) (imm : BitVec 16) => (if imm.getLsbD 0 then let s := ((s.tillerRuns n 64).onTiller n fun x => x.setS ra (BitVec.ofNat 32 (0x10040) - imm.signExtend 32)); s.onTiller n fun x => { x with dmemCond := [] } else ((s.tillerRuns n 64).onTiller n fun x => x.setS ra (BitVec.ofNat 32 (0x27200) - imm.signExtend 32)))) State.reset 0 1 2 16, 0, 1, 2, 16, by decide +kernel⟩,
    ⟨(fun (s : State) (n : Fin 192) (vd : Fin 32) (ra : Fin 32) (imm : BitVec 16) => (if imm.getLsbD 0 then (let s := ((s.tillerRuns n 64).onTiller n fun x => x.setS ra (BitVec.ofNat 32 (0x20000 + (if imm.getLsbD 1 then 0x7200 else 0)) - imm.signExtend 32)); let s := s.onTiller n fun x => { x with own := some (0, 3) }; let s : State := { s with his := { s.his with bank0 := { s.his.bank0 with cond := (List.range 64).map fun i => (1152 * 0 + i, .ce) }, ploughCond := (List.range 90000).take 3 |>.map fun i => (i, .ce) } }; s.wr (F.TIL_CFG_POISON_ZERO n) 0) else (let s := ((s.tillerRuns n 64).onTiller n fun x => x.setS ra (BitVec.ofNat 32 (0x10040) - imm.signExtend 32)); let s := s.onTiller n fun x => { x with dmemCond := [(17, .ce), (18, .ce)] }; s.wr (F.TIL_CFG_POISON_ZERO n) 0))) State.reset 0 1 2 16, 0, 1, 2, 16, by decide +kernel⟩,
    ⟨(fun (s : State) (n : Fin 192) (vd : Fin 32) (ra : Fin 32) (imm : BitVec 16) => (if imm.getLsbD 0 then (let s := ((s.tillerRuns n 64).onTiller n fun x => x.setS ra (BitVec.ofNat 32 (0x20000 + (if imm.getLsbD 1 then 0x7200 else 0)) - imm.signExtend 32)); let s := s.onTiller n fun x => { x with own := some (0, 3) }; let s : State := { s with his := { s.his with bank0 := { s.his.bank0 with cond := (List.range 64).map fun i => (1152 * 0 + i, (if imm.getLsbD 2 then .ue else .poison)) }, ploughCond := (List.range 90000).take 3 |>.map fun i => (i, (if imm.getLsbD 2 then .ue else .poison)) } }; s.wr (F.TIL_CFG_POISON_ZERO n) 1) else (let s := ((s.tillerRuns n 64).onTiller n fun x => x.setS ra (BitVec.ofNat 32 (0x10040) - imm.signExtend 32)); let s := s.onTiller n fun x => { x with dmemCond := [(17, (if imm.getLsbD 2 then .ue else .poison)), (18, .ce)] }; s.wr (F.TIL_CFG_POISON_ZERO n) 1))) State.reset 0 1 2 16, 0, 1, 2, 16, by decide +kernel⟩,
    ⟨(fun (s : State) (n : Fin 192) (vd : Fin 32) (ra : Fin 32) (imm : BitVec 16) (i : Fin 4) => (if imm.getLsbD 0 then (let s := ((s.tillerRuns n 64).onTiller n fun x => x.setS ra (BitVec.ofNat 32 (0x20000 + (if imm.getLsbD 1 then 0x7200 else 0)) - imm.signExtend 32)); let s := s.onTiller n fun x => { x with own := some (0, 3) }; let s : State := { s with his := { s.his with bank0 := { s.his.bank0 with cond := (List.range 64).map fun i => (1152 * 0 + i, .ue) }, ploughCond := (List.range 90000).take 3 |>.map fun i => (i, .ue) } }; s.wr (F.TIL_CFG_POISON_ZERO n) 0) else (let s := ((s.tillerRuns n 64).onTiller n fun x => x.setS ra (BitVec.ofNat 32 (0x10040) - imm.signExtend 32)); let s := s.onTiller n fun x => { x with dmemCond := [(17, .ue), (18, .ce)] }; s.wr (F.TIL_CFG_POISON_ZERO n) 0))) State.reset 0 1 2 16 1, 0, 1, 2, 16, 1, by decide +kernel⟩,
    ⟨(fun (s : State) (n : Fin 192) (vd : Fin 32) (ra : Fin 32) (imm : BitVec 16) => s.tillerRuns n 64) State.reset 0 1 0 8, 0, 1, 0, 8, by decide +kernel⟩,
    ⟨(fun (s : State) (n : Fin 192) (vd : Fin 32) (ra : Fin 32) (imm : BitVec 16) => ((s.tillerRuns n 64).onTiller n fun x => x.setS ra (BitVec.ofNat 32 (0x20044) - imm.signExtend 32))) State.reset 0 1 2 8, 0, 1, 2, 8, by decide +kernel⟩,
    ⟨(fun (s : State) (n : Fin 192) (vd : Fin 32) (ra : Fin 32) (rb : Fin 32) => (if vd.val % 2 = 0 then ((s.tillerRuns n 64).onTiller n fun x => ({ x with dmemCond := [] }.setS ra (BitVec.ofNat 32 (0x10000 + 16 * vd.val))).setS rb (BitVec.ofNat 32 ((vd.val % 13 - 5 + 65536) % 65536 + 65536 * (vd.val * 3)))) else ((s.tillerRuns n 64).onTiller n fun x => ({ x with dmemCond := [] }.setS ra (BitVec.ofNat 32 (0x27200 + 16 * vd.val))).setS rb (BitVec.ofNat 32 ((vd.val % 13 - 5 + 65536) % 65536 + 65536 * (vd.val * 3)))))) State.reset 0 4 2 3, 0, 4, 2, 3, by decide +kernel⟩,
    ⟨(fun (s : State) (n : Fin 192) (vd : Fin 32) (ra : Fin 32) (rb : Fin 32) => (let s := ((s.tillerRuns n 64).onTiller n fun x => ({ x with dmemCond := [] }.setS ra (BitVec.ofNat 32 (0x10000 + 16 * vd.val))).setS rb (BitVec.ofNat 32 ((vd.val % 13 - 5 + 65536) % 65536 + 65536 * (vd.val * 3)))); let s := s.onTiller n fun x => { x with dmemCond := (List.range 1000).filterMap fun i => if i % 3 = 0 then some (i, .poison) else none }; s.wr (F.TIL_CFG_POISON_ZERO n) 1)) State.reset 0 4 2 3, 0, 4, 2, 3, by decide +kernel⟩,
    ⟨(fun (s : State) (n : Fin 192) (vd : Fin 32) (ra : Fin 32) (rb : Fin 32) (a : Nat) => (let s := ((s.tillerRuns n 64).onTiller n fun x => ({ x with dmemCond := [] }.setS ra (BitVec.ofNat 32 (0x10000 + 16 * vd.val))).setS rb (BitVec.ofNat 32 ((vd.val % 13 - 5 + 65536) % 65536 + 65536 * (vd.val * 3)))); let s := s.onTiller n fun x => { x with dmemCond := (List.range 1000).filterMap fun i => if i % 3 = 0 then some (i, .ue) else none }; s.wr (F.TIL_CFG_POISON_ZERO n) 0)) State.reset 0 12 2 3 0x100C0, 0, 12, 2, 3, 0x100C0, by decide +kernel⟩,
    ⟨(fun (s : State) (n : Fin 192) (vd : Fin 32) (ra : Fin 32) (rb : Fin 32) (g : Nat) => ((s.tillerRuns n 64).onTiller n fun x => ({ x with dmemCond := [] }.setS ra (BitVec.ofNat 32 (0x1FFF0))).setS rb (BitVec.ofNat 32 (0x01000004)))) State.reset 0 5 2 3 0x20000, 0, 5, 2, 3, 0x20000, by decide +kernel⟩,
    ⟨(fun (s : State) (n : Fin 192) (vd : Fin 32) (ra : Fin 32) (rb : Fin 32) => s.tillerRuns n 64) State.reset 0 1 0 8, 0, 1, 0, 8, by decide +kernel⟩,
    ⟨(fun (s : State) (n : Fin 192) (vd : Fin 32) (ra : Fin 32) (rb : Fin 32) => ((s.tillerRuns n 64).onTiller n fun x => ({ x with dmemCond := [] }.setS ra (BitVec.ofNat 32 (0x10002 + 16 * vd.val))).setS rb (BitVec.ofNat 32 (65536 * (vd.val * 3))))) State.reset 0 5 2 3, 0, 5, 2, 3, by decide +kernel⟩⟩

/-- States and operands that meet the hypotheses of each clause of VectorLaneOperations. -/
theorem witness_VectorLaneOperations :
    (∃ (s : State) (n : Fin 192) (_w : Bool) (_vd : Fin 32) (_va : Fin 32) (_vb : Fin 32), issues n s) ∧
    (∃ (s : State) (n : Fin 192) (_w : Bool) (_vd : Fin 32) (_va : Fin 32) (_vb : Fin 32), issues n s) :=
  ⟨⟨(fun (s : State) (n : Fin 192) (w : Bool) (vd : Fin 32) (va : Fin 32) (vb : Fin 32) => s.tillerRuns n 64) State.reset 0 false 1 2 3, 0, false, 1, 2, 3, by decide +kernel⟩,
    ⟨(fun (s : State) (n : Fin 192) (w : Bool) (vd : Fin 32) (va : Fin 32) (vb : Fin 32) => s.tillerRuns n 64) State.reset 0 true 1 2 3, 0, true, 1, 2, 3, by decide +kernel⟩⟩

/-- States and operands that meet the hypotheses of each clause of VectorShiftsAndMoves. -/
theorem witness_VectorShiftsAndMoves :
    (∃ (s : State) (til : Fin 192) (w : Bool) (_vd : Fin 32) (_va : Fin 32) (n : Fin 32), issues til s ∧ (n.val < (if w then 32 else 16))) ∧
    (∃ (s : State) (n : Fin 192) (_vd : Fin 32) (_va : Fin 32) (_vb : Fin 32), issues n s) ∧
    (∃ (s : State) (n : Fin 192) (_w : Bool) (_vd : Fin 32) (_ra : Fin 32), issues n s) ∧
    (∃ (s : State) (n : Fin 192) (w : Bool) (_vd : Fin 32) (_ra : Fin 32) (lane : Fin 8), issues n s ∧ (w = false ∨ lane.val < 4)) :=
  ⟨⟨(fun (s : State) (til : Fin 192) (w : Bool) (vd : Fin 32) (va : Fin 32) (n : Fin 32) => s.tillerRuns til 64) State.reset 0 false 1 2 15, 0, false, 1, 2, 15, by decide +kernel⟩,
    ⟨(fun (s : State) (n : Fin 192) (vd : Fin 32) (va : Fin 32) (vb : Fin 32) => s.tillerRuns n 64) State.reset 0 1 2 3, 0, 1, 2, 3, by decide +kernel⟩,
    ⟨(fun (s : State) (n : Fin 192) (w : Bool) (vd : Fin 32) (ra : Fin 32) => s.tillerRuns n 64) State.reset 0 true 1 2, 0, true, 1, 2, by decide +kernel⟩,
    ⟨(fun (s : State) (n : Fin 192) (w : Bool) (vd : Fin 32) (ra : Fin 32) (lane : Fin 8) => s.tillerRuns n 64) State.reset 0 true 1 2 3, 0, true, 1, 2, 3, by decide +kernel⟩⟩

/-- States and operands that meet the hypotheses of each clause of HistogramInstructions. -/
theorem witness_HistogramInstructions :
    (∃ (s : State) (n : Fin 192) (_vd : Fin 32) (va : Fin 32) (_vb : Fin 32) (_p : Fin 2), issues n s ∧ va.val % 2 = 0) ∧
    (∃ (s : State) (n : Fin 192) (rd : Fin 32) (_va : Fin 32) (_rb : Fin 32), issues n s ∧ rd ≠ 0) ∧
    (∃ (s : State) (n : Fin 192) (_va : Fin 32) (_rb : Fin 32), issues n s) ∧
    (∃ (s : State) (n : Fin 192) (_rd : Fin 32) (_va : Fin 32) (_rb : Fin 32), issues n s) ∧
    (∃ (s : State) (n : Fin 192) (_vd : Fin 32) (_va : Fin 32) (_rb : Fin 32), issues n s) :=
  ⟨⟨(fun (s : State) (n : Fin 192) (vd : Fin 32) (va : Fin 32) (vb : Fin 32) (p : Fin 2) => s.tillerRuns n 64) State.reset 0 1 2 4 1, 0, 1, 2, 4, 1, by decide +kernel⟩,
    ⟨(fun (s : State) (n : Fin 192) (rd : Fin 32) (va : Fin 32) (rb : Fin 32) => s.tillerRuns n 64) State.reset 0 1 2 4, 0, 1, 2, 4, by decide +kernel⟩,
    ⟨(fun (s : State) (n : Fin 192) (va : Fin 32) (rb : Fin 32) => s.tillerRuns n 64) State.reset 0 2 4, 0, 2, 4, by decide +kernel⟩,
    ⟨(fun (s : State) (n : Fin 192) (rd : Fin 32) (va : Fin 32) (rb : Fin 32) => s.tillerRuns n 64) State.reset 0 1 2 4, 0, 1, 2, 4, by decide +kernel⟩,
    ⟨(fun (s : State) (n : Fin 192) (vd : Fin 32) (va : Fin 32) (rb : Fin 32) => s.tillerRuns n 64) State.reset 0 1 2 4, 0, 1, 2, 4, by decide +kernel⟩⟩

/-- States and operands that meet the hypotheses of each clause of FabricMessagesAndEmit. -/
theorem witness_FabricMessagesAndEmit :
    (∃ (s : State) (n : Fin 192) (_ra : Fin 32), issues n s ∧ (s.tiller n).fwq.length < 32) ∧
    (∃ (s : State) (n : Fin 192) (_ra : Fin 32), issues n s ∧ 32 ≤ (s.tiller n).fwq.length) ∧
    (∃ (s : State) (n : Fin 192) (w : Word), s.tilStopped = false ∧ (s.tiller n).stall = some (.fsend w) ∧ (s.tiller n).fwq.length < 32) ∧
    (∃ (s : State) (n : Fin 192) (rd : Fin 32) (m : BitVec 64) (q : List (BitVec 64)), issues n s ∧ rd.val % 2 = 0 ∧ rd ≠ 0 ∧ (s.tiller n).candQ = m :: q) ∧
    (∃ (s : State) (n : Fin 192) (rd : Fin 32), issues n s ∧ rd.val % 2 = 0 ∧ rd ≠ 0 ∧ (s.tiller n).candQ = []) ∧
    (∃ (s : State) (n : Fin 192) (rd : Fin 32) (m : BitVec 64) (q : List (BitVec 64)), s.tilStopped = false ∧ (s.tiller n).stall = some (.frecv rd) ∧ rd.val % 2 = 0 ∧ rd ≠ 0 ∧ (s.tiller n).candQ = m :: q) ∧
    (∃ (s : State) (n : Fin 192), (s.tilStopped = true ∨ (match (s.tiller n).stall with | some (.fsend _) => decide (32 ≤ (s.tiller n).fwq.length) | _ => true) = true)) ∧
    (∃ (s : State) (n : Fin 192), (s.tilStopped = true ∨ (s.tiller n).candQ = [] ∨ (match (s.tiller n).stall with | some (.frecv _) => false | _ => true) = true)) ∧
    (∃ (s : State) (n : Fin 192) (_rd : Fin 32) (ra : Fin 32) (rb : Fin 32), issues n s ∧ ¬ (emitLength (s.sr n rb).toNat = true ∧ (s.sr n ra).toNat % 16 = 0 ∧ 0x10000 ≤ (s.sr n ra).toNat ∧ (s.sr n ra).toNat + (s.sr n rb).toNat ≤ 0x20000 ∧ (s.tiller n).blockWord (s.sr n ra).toNat 2 % 2 ^ 8 = n)) ∧
    (∃ (s : State) (n : Fin 192) (_rd : Fin 32) (ra : Fin 32) (rb : Fin 32), issues n s ∧ emitLength (s.sr n rb).toNat = true ∧ (s.sr n ra).toNat % 16 = 0 ∧ 0x10000 ≤ (s.sr n ra).toNat ∧ (s.sr n ra).toNat + (s.sr n rb).toNat ≤ 0x20000 ∧ (s.tiller n).blockWord (s.sr n ra).toNat 2 % 2 ^ 8 = n ∧ ((s.tiller n).own = none ∨ (s.tiller n).emitted = true ∨ (s.tiller n).own.map Prod.snd ≠ some ((s.tiller n).blockWord (s.sr n ra).toNat 2 / 2 ^ 8))) ∧
    (∃ (s : State) (n : Fin 192) (_rd : Fin 32) (ra : Fin 32) (rb : Fin 32), issues n s ∧ emitLength (s.sr n rb).toNat = true ∧ (s.sr n ra).toNat % 16 = 0 ∧ 0x10000 ≤ (s.sr n ra).toNat ∧ (s.sr n ra).toNat + (s.sr n rb).toNat ≤ 0x20000 ∧ (s.tiller n).blockWord (s.sr n ra).toNat 2 % 2 ^ 8 = n ∧ (s.tiller n).own.map Prod.snd = some ((s.tiller n).blockWord (s.sr n ra).toNat 2 / 2 ^ 8) ∧ (s.tiller n).emitted = false) :=
  ⟨⟨(fun (s : State) (n : Fin 192) (ra : Fin 32) => (s.tillerRuns n 64).onTiller n fun x => { x with fwq := (List.range (ra.val)).map (BitVec.ofNat 32) }) State.reset 0 1, 0, 1, by decide +kernel⟩,
    ⟨(fun (s : State) (n : Fin 192) (ra : Fin 32) => (s.tillerRuns n 64).onTiller n fun x => { x with fwq := (List.range 32).map (BitVec.ofNat 32) }) State.reset 0 1, 0, 1, by decide +kernel⟩,
    ⟨(fun (s : State) (n : Fin 192) (w : Word) => (s.tillerRuns n 64).onTiller n fun x => { x with state := .stalled, stall := some (.fsend w), fwq := [] }) State.reset 0 5, 0, 5, by decide +kernel⟩,
    ⟨(fun (s : State) (n : Fin 192) (rd : Fin 32) (m : BitVec 64) (q : List (BitVec 64)) => (s.tillerRuns n 64).onTiller n fun x => { x with candQ := m :: q }) State.reset 0 4 0x500000001 [1], 0, 4, 0x500000001, [1], by decide +kernel⟩,
    ⟨(fun (s : State) (n : Fin 192) (rd : Fin 32) => (s.tillerRuns n 64).onTiller n fun x => { x with candQ := [] }) State.reset 0 4, 0, 4, by decide +kernel⟩,
    ⟨(fun (s : State) (n : Fin 192) (rd : Fin 32) (m : BitVec 64) (q : List (BitVec 64)) => (s.tillerRuns n 64).onTiller n fun x => { x with state := .stalled, stall := some (.frecv rd), candQ := m :: q }) State.reset 0 4 0x500000001 [1], 0, 4, 0x500000001, [1], by decide +kernel⟩,
    ⟨(fun (s : State) (n : Fin 192) => (s.tillerRuns n 64).onTiller n fun x => { x with stall := none }) State.reset 0, 0, by decide +kernel⟩,
    ⟨(fun (s : State) (n : Fin 192) => (s.tillerRuns n 64).onTiller n fun x => { x with candQ := [] }) State.reset 0, 0, by decide +kernel⟩,
    ⟨(fun (s : State) (n : Fin 192) (rd : Fin 32) (ra : Fin 32) (rb : Fin 32) => s.tillerRuns n 64) State.reset 0 1 2 3, 0, 1, 2, 3, by decide +kernel⟩,
    ⟨(fun (s : State) (n : Fin 192) (rd : Fin 32) (ra : Fin 32) (rb : Fin 32) => ((s.tillerRuns n 64).onTiller n fun x => { ((x.setS ra 0x10100).setS rb (0x20 : Word)).setDword (0x108 / 4) (BitVec.ofNat 32 (5 * 2 ^ 8 + n.val)) with own := some (1, if rd.val % 2 = 0 then 5 else 6), emitted := rd.val % 2 == 0 })) State.reset 0 1 2 3, 0, 1, 2, 3, by decide +kernel⟩,
    ⟨(fun (s : State) (n : Fin 192) (rd : Fin 32) (ra : Fin 32) (rb : Fin 32) => ((s.tillerRuns n 64).onTiller n fun x => { ((x.setS ra 0x10100).setS rb (0x28 : Word)).setDword (0x108 / 4) (BitVec.ofNat 32 (5 * 2 ^ 8 + n.val)) with own := some (1, 5), emitted := false })) State.reset 0 1 2 3, 0, 1, 2, 3, by decide +kernel⟩⟩

/-- States and operands that meet the hypotheses of each clause of SystemInstructions. -/
theorem witness_SystemInstructions :
    (∃ (s : State) (n : Fin 192), issues n s) ∧
    (∃ (s : State) (n : Fin 192), issues n s ∧ (s.tiller n).inTrap = true) ∧
    (∃ (s : State) (n : Fin 192), issues n s ∧ (s.tiller n).inTrap = false) ∧
    (∃ (s : State) (n : Fin 192), issues n s ∧ (s.tiller n).inAttn = true ∧ (s.tiller n).inTrap = false) ∧
    (∃ (s : State) (n : Fin 192), issues n s ∧ ((s.tiller n).inAttn = false ∨ (s.tiller n).inTrap = true)) ∧
    (∃ (s : State) (c : Instr) (n : Fin 192), krytoldOf c = some n ∧ (s.tilStopped = true ∨ (s.tiller n).state ≠ .running ∨ s.diverts n = true)) ∧
    (∃ (s : State) (c : Instr) (n : Fin 192), krytoldOf c = some n ∧ s.tilStopped = false ∧ (s.tiller n).state = .running ∧ s.diverts n = false ∧ (s.tiller n).fresh = false ∧ s.on (F.TIL_BKPT_EN n) = true ∧ (s.tiller n).pc = 4 * s.rd (F.TIL_BKPT_WORD n)) ∧
    (∃ (s : State) (c : Instr) (n : Fin 192), krytoldOf c = some n ∧ (s.tilStopped = false ∧ (s.tiller n).state = .running ∧ s.diverts n = false ∧ ((s.tiller n).fresh = true ∨ s.on (F.TIL_BKPT_EN n) = false ∨ (s.tiller n).pc ≠ 4 * s.rd (F.TIL_BKPT_WORD n)) ∧ 0x8000 ≤ (s.tiller n).pc)) ∧
    (∃ (s : State) (c : Instr) (n : Fin 192), krytoldOf c = some n ∧ (s.tilStopped = false ∧ (s.tiller n).state = .running ∧ s.diverts n = false ∧ ((s.tiller n).fresh = true ∨ s.on (F.TIL_BKPT_EN n) = false ∨ (s.tiller n).pc ≠ 4 * s.rd (F.TIL_BKPT_WORD n)) ∧ (s.tiller n).pc < 0x8000 ∧ (Tab.get okCond (s.tiller n).imemCond ((s.tiller n).pc / 4)).bad = true)) ∧
    (∃ (s : State) (c : Instr) (n : Fin 192), krytoldOf c = some n ∧ (s.tilStopped = false ∧ (s.tiller n).state = .running ∧ s.diverts n = false ∧ ((s.tiller n).fresh = true ∨ s.on (F.TIL_BKPT_EN n) = false ∨ (s.tiller n).pc ≠ 4 * s.rd (F.TIL_BKPT_WORD n)) ∧ (s.tiller n).pc < 0x8000 ∧ (Tab.get okCond (s.tiller n).imemCond ((s.tiller n).pc / 4)) = .ce)) :=
  ⟨⟨(fun (s : State) (n : Fin 192) => s.tillerRuns n 64) State.reset 0, 0, by decide +kernel⟩,
    ⟨(fun (s : State) (n : Fin 192) => (s.tillerRuns n 64).onTiller n fun x => { x with inTrap := true }) State.reset 0, 0, by decide +kernel⟩,
    ⟨(fun (s : State) (n : Fin 192) => (s.tillerRuns n 64).onTiller n fun x => { x with inTrap := false }) State.reset 0, 0, by decide +kernel⟩,
    ⟨(fun (s : State) (n : Fin 192) => (s.tillerRuns n 64).onTiller n fun x => { x with inTrap := false, inAttn := true }) State.reset 0, 0, by decide +kernel⟩,
    ⟨(fun (s : State) (n : Fin 192) => (s.tillerRuns n 64).onTiller n fun x => { x with inTrap := true }) State.reset 0, 0, by decide +kernel⟩,
    ⟨(fun (s : State) (c : Instr) (n : Fin 192) => (if n.val % 2 = 0 then s else (s.tillerRuns n 64).onTiller n fun x => { x with haltReq := true })) State.reset (.nop 0) 0, .nop 0, 0, by decide +kernel⟩,
    ⟨(fun (s : State) (c : Instr) (n : Fin 192) => (((s.tillerRuns n 64).onTiller n fun x => { x with fresh := false }).wr (F.TIL_BKPT_EN n) 1).wr (F.TIL_BKPT_WORD n) 16) State.reset (.nop 0) 0, .nop 0, 0, by decide +kernel⟩,
    ⟨(fun (s : State) (c : Instr) (n : Fin 192) => s.tillerRuns n 0x8000) State.reset (.nop 0) 0, .nop 0, 0, by decide +kernel⟩,
    ⟨(fun (s : State) (c : Instr) (n : Fin 192) => (s.tillerRuns n 64).onTiller n fun x => { x with imemCond := [(16, if n.val % 2 = 0 then .ue else .poison)] }) State.reset (.nop 0) 0, .nop 0, 0, by decide +kernel⟩,
    ⟨(fun (s : State) (c : Instr) (n : Fin 192) => (s.tillerRuns n 64).onTiller n fun x => { x with imemCond := [(16, .ce)] }) State.reset (.nop 0) 0, .nop 0, 0, by decide +kernel⟩⟩

/-- States and operands that meet the hypotheses of each clause of IllegalOperandsTrap. -/
theorem witness_IllegalOperandsTrap :
    (∃ (s : State) (n : Fin 192) (cond : Fin 16) (_off : BitVec 22), issues n s ∧ 12 ≤ cond.val ∧ cond.val ≤ 14) ∧
    (∃ (s : State) (til : Fin 192) (w : Bool) (_vd : Fin 32) (_va : Fin 32) (n : Fin 32), issues til s ∧ ((if w then 32 else 16) ≤ n.val)) ∧
    (∃ (s : State) (n : Fin 192) (w : Bool) (_vd : Fin 32) (_ra : Fin 32) (lane : Fin 8), issues n s ∧ w = true ∧ 4 ≤ lane.val) ∧
    (∃ (s : State) (n : Fin 192) (_vd : Fin 32) (va : Fin 32) (_vb : Fin 32) (_p : Fin 2), issues n s ∧ va.val % 2 = 1) ∧
    (∃ (s : State) (n : Fin 192) (rd : Fin 32), issues n s ∧ (rd.val % 2 = 1 ∨ rd = 0)) :=
  ⟨⟨(fun (s : State) (n : Fin 192) (cond : Fin 16) (off : BitVec 22) => s.tillerRuns n 64) State.reset 0 12 1, 0, 12, 1, by decide +kernel⟩,
    ⟨(fun (s : State) (til : Fin 192) (w : Bool) (vd : Fin 32) (va : Fin 32) (n : Fin 32) => s.tillerRuns til 64) State.reset 0 false 1 2 16, 0, false, 1, 2, 16, by decide +kernel⟩,
    ⟨(fun (s : State) (n : Fin 192) (w : Bool) (vd : Fin 32) (ra : Fin 32) (lane : Fin 8) => s.tillerRuns n 64) State.reset 0 true 1 2 4, 0, true, 1, 2, 4, by decide +kernel⟩,
    ⟨(fun (s : State) (n : Fin 192) (vd : Fin 32) (va : Fin 32) (vb : Fin 32) (p : Fin 2) => s.tillerRuns n 64) State.reset 0 1 3 4 1, 0, 1, 3, 4, 1, by decide +kernel⟩,
    ⟨(fun (s : State) (n : Fin 192) (rd : Fin 32) => s.tillerRuns n 64) State.reset 0 3, 0, 3, by decide +kernel⟩⟩

/-- States and operands that meet the hypotheses of each clause of TillerCommands. -/
theorem witness_TillerCommands :
    (∃ (s : State) (n : Fin 192), s.tilStopped = false ∧ (s.tiller n).state = .halted) ∧
    (∃ (s : State) (n : Fin 192) (len : Nat), s.tilStopped = false ∧ (s.tiller n).state = .halted ∧ (s.tiller n).refRedo = some len ∧ (s.tiller n).refFresh = false) ∧
    (∃ (s : State) (n : Fin 192), s.tilStopped = false ∧ (s.tiller n).state ≠ .halted) ∧
    (∃ (s : State) (n : Fin 192), s.tilStopped = false ∧ ((s.tiller n).state = .running ∨ (s.tiller n).state = .stalled)) ∧
    (∃ (s : State) (n : Fin 192), s.tilStopped = false ∧ (s.tiller n).state = .init) ∧
    (∃ (s : State) (n : Fin 192) (_t0 : Nat), s.tilStopped = false ∧ (s.tiller n).state ≠ .halted) ∧
    (∃ (s : State) (n : Fin 192) (t0 : Nat) (k : KOp), s.tilStopped = false ∧ (s.tiller n).state = .halted ∧ (((s.accessed.stepStart n t0)).tiller n).haltReq = false ∧ (((s.accessed.stepStart n t0)).tiller n).refRedo = none ∧ (((s.accessed.stepStart n t0)).tiller n).pc < 0x8000 ∧ (Tab.get okCond (((s.accessed.stepStart n t0)).tiller n).imemCond ((((s.accessed.stepStart n t0)).tiller n).pc / 4)).bad = false ∧ decodeKrytold ((((s.accessed.stepStart n t0)).tiller n).iword ((((s.accessed.stepStart n t0)).tiller n).pc / 4)) = some k) ∧
    (∃ (s : State) (n : Fin 192) (t0 : Nat), s.tilStopped = false ∧ (s.tiller n).state = .halted ∧ (((s.accessed.stepStart n t0)).tiller n).haltReq = false ∧ (((s.accessed.stepStart n t0)).tiller n).refRedo = none ∧ (((s.accessed.stepStart n t0)).tiller n).pc < 0x8000 ∧ (Tab.get okCond (((s.accessed.stepStart n t0)).tiller n).imemCond ((((s.accessed.stepStart n t0)).tiller n).pc / 4)).bad = false ∧ decodeKrytold ((((s.accessed.stepStart n t0)).tiller n).iword ((((s.accessed.stepStart n t0)).tiller n).pc / 4)) = none) ∧
    (∃ (s : State) (n : Fin 192) (t0 : Nat), s.tilStopped = false ∧ (s.tiller n).state = .halted ∧ (((s.accessed.stepStart n t0)).tiller n).haltReq = false ∧ (((s.accessed.stepStart n t0)).tiller n).refRedo = none ∧ 0x8000 ≤ (((s.accessed.stepStart n t0)).tiller n).pc) ∧
    (∃ (s : State) (n : Fin 192) (t0 : Nat), s.tilStopped = false ∧ (s.tiller n).state = .halted ∧ (((s.accessed.stepStart n t0)).tiller n).haltReq = false ∧ (((s.accessed.stepStart n t0)).tiller n).refRedo = none ∧ (((s.accessed.stepStart n t0)).tiller n).pc < 0x8000 ∧ (Tab.get okCond (((s.accessed.stepStart n t0)).tiller n).imemCond ((((s.accessed.stepStart n t0)).tiller n).pc / 4)).bad = true) ∧
    (∃ (s : State) (n : Fin 192) (t0 : Nat), s.tilStopped = false ∧ (s.tiller n).state = .halted ∧ (((s.accessed.stepStart n t0)).tiller n).refRedo = none ∧ (((s.accessed.stepStart n t0)).tiller n).haltReq = true) ∧
    (∃ (s : State) (n : Fin 192) (t0 : Nat) (len : Nat), s.tilStopped = false ∧ (s.tiller n).state = .halted ∧ (((s.accessed.stepStart n t0)).tiller n).refRedo = some len) ∧
    (∃ (s : State) (n : Fin 192), s.tilStopped = false ∧ (s.tiller n).haltReq = true ∧ (s.tiller n).transferring = false ∧ ((s.tiller n).state = .running ∨ (s.tiller n).state = .stalled)) ∧
    (∃ (s : State) (n : Fin 192), (s.tilStopped = true ∨ (s.tiller n).haltReq = false ∨ (s.tiller n).transferring = true ∨ (s.tiller n).state = .halted ∨ (s.tiller n).state = .init)) ∧
    (∃ (s : State) (n : Fin 192), s.tilStopped = false ∧ (s.tiller n).state = .init) ∧
    (∃ (s : State) (n : Fin 192), (s.tilStopped = true ∨ (s.tiller n).state ≠ .init)) ∧
    (∃ (s : State) (n : Fin 192) (w : Word), s.tilStopped = false ∧ (s.tiller n).state = .halted ∧ w.toNat % 4 = 0 ∧ w.toNat < 0x8000) ∧
    (∃ (s : State) (n : Fin 192) (w : Word), s.tilStopped = false ∧ ((s.tiller n).state ≠ .halted ∨ w.toNat % 4 ≠ 0 ∨ 0x8000 ≤ w.toNat)) ∧
    (∃ (s : State) (n : Fin 192), s.tilStopped = false ∧ s.diverts n = false ∧ (s.tiller n).state = .running ∧ (s.tiller n).fresh = false ∧ s.on (F.TIL_BKPT_EN n) = true ∧ (s.tiller n).pc = 4 * s.rd (F.TIL_BKPT_WORD n)) ∧
    (∃ (s : State) (n : Fin 192), (s.tilStopped = true ∨ s.diverts n = true ∨ (s.tiller n).state ≠ .running ∨ (s.tiller n).fresh = true ∨ s.on (F.TIL_BKPT_EN n) = false ∨ (s.tiller n).pc ≠ 4 * s.rd (F.TIL_BKPT_WORD n))) :=
  ⟨⟨(fun (s : State) (n : Fin 192) => (s.ready 2).onTiller n fun x => { x with state := .halted }) State.reset 3, 3, by decide +kernel⟩,
    ⟨(fun (s : State) (n : Fin 192) (len : Nat) => (s.ready 2).onTiller n fun x => { (x.setDword (0x8 / 4) (BitVec.ofNat 32 (5 * 2 ^ 8 + n.val))) with state := .halted, refRedo := some len, refRuns := false, own := some (1, if len % 2 = 0 then 5 else 6), emitted := false , refFresh := false }) State.reset 3 32, 3, 32, by decide +kernel⟩,
    ⟨(fun (s : State) (n : Fin 192) => (s.ready 2).onTiller n fun x => { x with state := .init }) State.reset 3, 3, by decide +kernel⟩,
    ⟨(fun (s : State) (n : Fin 192) => (s.ready 4).onTiller n fun x => { x with state := .stalled }) State.reset 3, 3, by decide +kernel⟩,
    ⟨(fun (s : State) (n : Fin 192) => (s.ready 4).onTiller n fun x => { x with state := .init }) State.reset 3, 3, by decide +kernel⟩,
    ⟨(fun (s : State) (n : Fin 192) (t0 : Nat) => (s.ready 2).onTiller n fun x => { x with state := .running }) State.reset 3 5, 3, 5, by decide +kernel⟩,
    ⟨(fun (s : State) (n : Fin 192) (t0 : Nat) (k : KOp) => (s.ready 2).onTiller n fun x => { x with state := .halted, haltReq := false, refRedo := none, pc := 0, imemCond := [(0, if t0 % 2 = 0 then .ce else .poison)], imem := [(0, 0x07), (1, 0x00), (2, 0x22), (3, 0x08)] }) State.reset 3 4 (.addi 1 2 7), 3, 4, .addi 1 2 7, by decide +kernel⟩,
    ⟨(fun (s : State) (n : Fin 192) (t0 : Nat) => (s.ready 2).onTiller n fun x => { x with state := .halted, haltReq := false, refRedo := none, pc := 0, imemCond := [(0, if t0 % 2 = 0 then .ce else .poison)], imem := [], inTrap := false }) State.reset 3 4, 3, 4, by decide +kernel⟩,
    ⟨(fun (s : State) (n : Fin 192) (t0 : Nat) => (s.ready 2).onTiller n fun x => { x with state := .halted, haltReq := false, refRedo := none, pc := 0x8000 }) State.reset 3 5, 3, 5, by decide +kernel⟩,
    ⟨(fun (s : State) (n : Fin 192) (t0 : Nat) => (s.ready 2).onTiller n fun x => { x with state := .halted, haltReq := false, refRedo := none, pc := 0, stall := none, imemCond := [(0, .ue)] }) State.reset 3 5, 3, 5, by decide +kernel⟩,
    ⟨(fun (s : State) (n : Fin 192) (t0 : Nat) => (s.ready 2).onTiller n fun x => { x with state := .halted, haltReq := true, refRedo := none }) State.reset 3 5, 3, 5, by decide +kernel⟩,
    ⟨(fun (s : State) (n : Fin 192) (t0 : Nat) (len : Nat) => (s.ready 2).onTiller n fun x => { (x.setDword (0x8 / 4) (BitVec.ofNat 32 (5 * 2 ^ 8 + n.val))) with state := .halted, refRedo := some len, refRuns := false, own := some (1, if len % 2 = 0 then 5 else 6), emitted := false }) State.reset 3 5 32, 3, 5, 32, by decide +kernel⟩,
    ⟨(fun (s : State) (n : Fin 192) => (s.ready 4).onTiller n fun x => { x with state := .stalled, haltReq := true, transferring := false }) State.reset 3, 3, by decide +kernel⟩,
    ⟨(fun (s : State) (n : Fin 192) => (s.ready 4).onTiller n fun x => { x with haltReq := false }) State.reset 3, 3, by decide +kernel⟩,
    ⟨(fun (s : State) (n : Fin 192) => (s.ready 2).onTiller n fun x => { x with state := .init }) State.reset 3, 3, by decide +kernel⟩,
    ⟨(fun (s : State) (n : Fin 192) => (s.ready 2).onTiller n fun x => { x with state := .halted }) State.reset 3, 3, by decide +kernel⟩,
    ⟨(fun (s : State) (n : Fin 192) (w : Word) => (s.ready 2).onTiller n fun x => { x with state := .halted }) State.reset 3 0x40, 3, 0x40, by decide +kernel⟩,
    ⟨(fun (s : State) (n : Fin 192) (w : Word) => (s.ready 2).onTiller n fun x => { x with state := .init }) State.reset 3 0x40, 3, 0x40, by decide +kernel⟩,
    ⟨(fun (s : State) (n : Fin 192) => let s := (s.tillerRuns n 0x40).wr (F.TIL_BKPT_WORD n) 0x10 |>.put (F.TIL_BKPT_EN n) true; s.onTiller n fun x => { x with fresh := false }) State.reset 3, 3, by decide +kernel⟩,
    ⟨(fun (s : State) (n : Fin 192) => s.put (F.TIL_BKPT_EN n) false) State.reset 3, 3, by decide +kernel⟩⟩

/-- States and operands that meet the hypotheses of each clause of TillerMemoryWindow. -/
theorem witness_TillerMemoryWindow :
    (∃ (s : State) (n : Fin 192) (ofs : Nat) (bytes : Nat) (_data : BitVec 64), s.tilStopped = false ∧ (0x10000 ≤ ofs ∧ ofs < 0x20000) ∧ (bytes = 4 ∨ bytes = 8) ∧ ofs % bytes = 0 ∧ (n ≠ 0 ∨ s.on F.TIL_LOAD_CFG_BCAST = false)) ∧
    (∃ (s : State) (n : Fin 192) (ofs : Nat) (bytes : Nat) (_data : BitVec 64), s.tilStopped = false ∧ ofs < 0x8000 ∧ (bytes = 4 ∨ bytes = 8) ∧ ofs % bytes = 0 ∧ (n ≠ 0 ∨ s.on F.TIL_LOAD_CFG_BCAST = false) ∧ (s.tiller n).state = .halted) ∧
    (∃ (s : State) (n : Fin 192) (ofs : Nat) (bytes : Nat) (_data : BitVec 64), s.tilStopped = false ∧ ofs < 0x8000 ∧ (bytes = 4 ∨ bytes = 8) ∧ ofs % bytes = 0 ∧ (n ≠ 0 ∨ s.on F.TIL_LOAD_CFG_BCAST = false) ∧ (s.tiller n).state ≠ .halted) ∧
    (∃ (s : State) (ofs : Nat) (bytes : Nat) (_data : BitVec 64), s.tilStopped = false ∧ (0x10000 ≤ ofs ∧ ofs < 0x20000) ∧ (bytes = 4 ∨ bytes = 8) ∧ ofs % bytes = 0 ∧ s.on F.TIL_LOAD_CFG_BCAST = true) ∧
    (∃ (s : State) (ofs : Nat) (bytes : Nat) (_data : BitVec 64), s.tilStopped = false ∧ ofs < 0x8000 ∧ (bytes = 4 ∨ bytes = 8) ∧ ofs % bytes = 0 ∧ s.on F.TIL_LOAD_CFG_BCAST = true) ∧
    (∃ (s : State) (_ofs : Nat) (_bytes : Nat) (_data : BitVec 64), s.on F.TIL_LOAD_CFG_BCAST = false) ∧
    (∃ (s : State) (_n : Fin 192) (ofs : Nat) (bytes : Nat) (_data : BitVec 64), s.tilStopped = false ∧ (¬ (bytes = 4 ∨ bytes = 8) ∨ ofs % bytes ≠ 0 ∨ (0x8000 ≤ ofs ∧ ofs < 0x10000) ∨ 0x20000 ≤ ofs)) ∧
    (∃ (s : State) (_n : Fin 192) (ofs : Nat) (bytes : Nat), s.tilStopped = false ∧ (bytes = 0 ∨ ofs % (if bytes = 3 then 4 else bytes) ≠ 0 ∨ (0x8000 ≤ ofs ∧ ofs < 0x10000) ∨ 0x20000 ≤ ofs)) ∧
    (∃ (s : State) (n : Fin 192) (ofs : Nat), s.tilStopped = false ∧ (ofs % 4 = 0 ∧ (ofs < 0x8000 ∨ (0x10000 ≤ ofs ∧ ofs < 0x20000))) ∧ (s.tiller n).state ≠ .init) ∧
    (∃ (s : State) (n : Fin 192) (ofs : Nat), s.tilStopped = false ∧ (ofs % 4 = 0 ∧ (ofs < 0x8000 ∨ (0x10000 ≤ ofs ∧ ofs < 0x20000))) ∧ (s.tiller n).state = .init) ∧
    (∃ (s : State) (n : Fin 192) (ofs : Nat) (bytes : Nat), s.tilStopped = false ∧ (0x10000 ≤ ofs ∧ ofs < 0x20000) ∧ (bytes = 1 ∨ bytes = 2 ∨ bytes = 4 ∨ bytes = 8) ∧ ofs % bytes = 0 ∧ (s.tiller n).state ≠ .init ∧ (∀ e ∈ (s.tiller n).dmemCond, e.2 = .ok)) ∧
    (∃ (s : State) (n : Fin 192) (ofs : Nat) (bytes : Nat), s.tilStopped = false ∧ ofs < 0x8000 ∧ (bytes = 1 ∨ bytes = 2 ∨ bytes = 4 ∨ bytes = 8) ∧ ofs % bytes = 0 ∧ (s.tiller n).state ≠ .init ∧ (∀ e ∈ (s.tiller n).imemCond, e.2 = .ok)) ∧
    (∃ (s : State), s.tilStopped = false) ∧
    (∃ (s : State) (_n : Fin 192) (_found : Fin 3), s.tilStopped = true) ∧
    (∃ (s : State) (n : Fin 192) (_found : Fin 3), s.tilStopped = false ∧ ((Tab.get okCond (if 8192 ≤ (s.tiller n).scrub then (s.tiller n).dmemCond else (s.tiller n).imemCond) (if 8192 ≤ (s.tiller n).scrub then (s.tiller n).scrub - 8192 else (s.tiller n).scrub)) ≠ .ok)) ∧
    (∃ (s : State) (_n : Fin 192), s.tilStopped = false) ∧
    (∃ (s : State) (n : Fin 192), s.tilStopped = false ∧ (s.tiller n).scrub < 8192 ∧ (Tab.get (fun _ => Cond.ok) (s.tiller n).imemCond (s.tiller n).scrub = .ok)) :=
  ⟨⟨(fun (s : State) (n : Fin 192) (ofs : Nat) (bytes : Nat) (data : BitVec 64) => (s.ready 2).put F.TIL_LOAD_CFG_BCAST false |>.onTiller n fun x => { x with state := .running }) State.reset 3 0x10008 8 0x1122334455667788, 3, 0x10008, 8, 0x1122334455667788, by decide +kernel⟩,
    ⟨(fun (s : State) (n : Fin 192) (ofs : Nat) (bytes : Nat) (data : BitVec 64) => (s.ready 2).put F.TIL_LOAD_CFG_BCAST false |>.onTiller n fun x => { x with state := .halted }) State.reset 3 0x10 4 0x1122334455667788, 3, 0x10, 4, 0x1122334455667788, by decide +kernel⟩,
    ⟨(fun (s : State) (n : Fin 192) (ofs : Nat) (bytes : Nat) (data : BitVec 64) => (s.ready 2).put F.TIL_LOAD_CFG_BCAST false |>.onTiller n fun x => { x with state := .running }) State.reset 3 0x10 4 0x1122334455667788, 3, 0x10, 4, 0x1122334455667788, by decide +kernel⟩,
    ⟨(fun (s : State) (ofs : Nat) (bytes : Nat) (data : BitVec 64) => (s.ready 2).put F.TIL_LOAD_CFG_BCAST true) State.reset 0x10008 8 0x1122334455667788, 0x10008, 8, 0x1122334455667788, by decide +kernel⟩,
    ⟨(fun (s : State) (ofs : Nat) (bytes : Nat) (data : BitVec 64) => (s.ready 2).put F.TIL_LOAD_CFG_BCAST true) State.reset 8 8 0x1122334455667788, 8, 8, 0x1122334455667788, by decide +kernel⟩,
    ⟨(fun (s : State) (ofs : Nat) (bytes : Nat) (data : BitVec 64) => (s.ready 2).put F.TIL_LOAD_CFG_BCAST false) State.reset 8 8 5, 8, 8, 5, by decide +kernel⟩,
    ⟨(fun (s : State) (n : Fin 192) (ofs : Nat) (bytes : Nat) (data : BitVec 64) => (s.ready 2)) State.reset 3 0x9000 4 5, 3, 0x9000, 4, 5, by decide +kernel⟩,
    ⟨(fun (s : State) (n : Fin 192) (ofs : Nat) (bytes : Nat) => (s.ready 2)) State.reset 3 0x9000 4, 3, 0x9000, 4, by decide +kernel⟩,
    ⟨(fun (s : State) (n : Fin 192) (ofs : Nat) => (s.ready 2).onTiller n fun x => { x with state := .running, imemCond := [(2, .ce), (3, .ue)], dmemCond := [(2, .ce), (3, .ue), (4, .poison)] }) State.reset 3 0x10008, 3, 0x10008, by decide +kernel⟩,
    ⟨(fun (s : State) (n : Fin 192) (ofs : Nat) => (s.ready 2).onTiller n fun x => { x with state := .init }) State.reset 3 0x10008, 3, 0x10008, by decide +kernel⟩,
    ⟨(fun (s : State) (n : Fin 192) (ofs : Nat) (bytes : Nat) => (s.ready 2).onTiller n fun x => { x with state := .running, dmemCond := [], dmem := [(3, 1), (8, 5), (9, 77)] }) State.reset 3 0x10008 8, 3, 0x10008, 8, by decide +kernel⟩,
    ⟨(fun (s : State) (n : Fin 192) (ofs : Nat) (bytes : Nat) => (s.ready 2).onTiller n fun x => { x with state := .running, imemCond := [], imem := [(3, 1), (8, 5), (9, 77)] }) State.reset 3 0x8 8, 3, 0x8, 8, by decide +kernel⟩,
    ⟨(fun (s : State) => s.ready 2) State.reset, by decide +kernel⟩,
    ⟨(fun (s : State) (n : Fin 192) (found : Fin 3) => s.wr F.SYS_CLK_STATUS_TIL_LOCK 0) State.reset 3 1, 3, 1, by decide +kernel⟩,
    ⟨(fun (s : State) (n : Fin 192) (found : Fin 3) => (s.ready 2).onTiller n fun x => { x with scrub := 5, imemCond := [(3, .poison), (5, .ce), (x.scrub % 24576, .ue)], dmemCond := [] }) State.reset 3 1, 3, 1, by decide +kernel⟩,
    ⟨(fun (s : State) (n : Fin 192) => (s.ready 2).onTiller n fun x => { x with state := .running }) State.reset 3, 3, by decide +kernel⟩,
    ⟨(fun (s : State) (n : Fin 192) => (s.ready 2).onTiller n fun x => { x with scrub := x.scrub % 8192, imemCond := [] }) State.reset 3, 3, by decide +kernel⟩⟩

/-- States and operands that meet the hypotheses of each clause of AttentionAndBlocks. -/
theorem witness_AttentionAndBlocks :
    (∃ (s : State) (n : Fin 192) (_t0 : Nat), s.tilStopped = false ∧ (s.tiller n).state = .running ∧ (s.tiller n).haltReq = false ∧ (s.tiller n).inAttn = false ∧ (s.tiller n).inTrap = false ∧ (s.tiller n).refRuns = false ∧ s.on (F.TIL_CFG_MSG_ATTN n) = true ∧ ((s.tiller n).pendMsg = true ∨ (s.tiller n).pendDl = true)) ∧
    (∃ (s : State) (n : Fin 192) (_t0 : Nat), s.tilStopped = false ∧ (s.tiller n).state = .running ∧ (s.tiller n).haltReq = false ∧ (s.tiller n).inAttn = false ∧ (s.tiller n).inTrap = false ∧ (s.tiller n).refRuns = true ∧ s.on (F.TIL_CFG_MSG_ATTN n) = true ∧ ((s.tiller n).pendMsg = true ∨ (s.tiller n).pendDl = true)) ∧
    (∃ (s : State) (n : Fin 192) (_t0 : Nat), (s.tilStopped = true ∨ (s.tiller n).state ≠ .running ∨ (s.tiller n).haltReq = true ∨ (s.tiller n).inAttn = true ∨ (s.tiller n).inTrap = true ∨ s.on (F.TIL_CFG_MSG_ATTN n) = false ∨ ((s.tiller n).pendMsg = false ∧ (s.tiller n).pendDl = false))) ∧
    (∃ (s : State) (n : Fin 192), s.running = true ∧ s.on (F.TIL_CFG_MSG_ATTN n) = true ∧ s.rd (F.TIL_ATTN_CFG_DL_ALARM n) ≠ 0 ∧ (s.tiller n).dlFired = false) ∧
    (∃ (s : State) (n : Fin 192), (s.running = false ∨ s.on (F.TIL_CFG_MSG_ATTN n) = false ∨ s.rd (F.TIL_ATTN_CFG_DL_ALARM n) = 0 ∨ (s.tiller n).dlFired = true)) ∧
    (∃ (s : State) (n : Fin 192), issues n s) ∧
    (∃ (s : State), s.running = false) ∧
    (∃ (s : State) (_waited : Nat) (n : Nat) (l : Nat), s.tilStopped = false ∧ s.oq.transfer = none ∧ s.nextEmit = some n ∧ (s.tiller n).waitsEmit = some l ∧ l + 4 + 8192 ≤ s.oqFree) ∧
    (∃ (s : State) (_waited : Nat), s.tilStopped = false ∧ (s.oq.transfer.isSome = true ∨ s.nextEmit = none)) ∧
    (∃ (s : State) (_waited : Nat) (n : Nat) (l : Nat), s.tilStopped = false ∧ s.nextEmit = some n ∧ (s.tiller n).waitsEmit = some l ∧ s.oqFree < l + 4 + 8192) ∧
    (∃ (s : State) (_waited : Nat), s.tilStopped = true) ∧
    (∃ (s : State) (n : Fin 192), s.nextEmit = some n.val) ∧
    (∃ (s : State), s.tilStopped = false ∧ s.oq.transfer = none) ∧
    (∃ (s : State) (n : Fin 192) (rd : Nat) (a : Nat) (len : Nat), s.tilStopped = false ∧ s.oq.transfer = some n.val ∧ (s.tiller n).stall = some (.emit rd a len) ∧ (∀ c ∈ (s.tiller n).blockConds a len, c = .ok ∨ c = .ce)) ∧
    (∃ (s : State) (n : Fin 192) (rd : Nat) (a : Nat) (len : Nat), s.tilStopped = false ∧ s.oq.transfer = some n.val ∧ (s.tiller n).stall = some (.emit rd a len) ∧ (∃ c ∈ (s.tiller n).blockConds a len, c = .ue ∨ c = .poison)) :=
  ⟨⟨(fun (s : State) (n : Fin 192) (t0 : Nat) => let s := (s.ready 4).put (F.TIL_CFG_MSG_ATTN n) true; s.onTiller n fun x => { x with state := .running, haltReq := false, inAttn := false, inTrap := false, refRuns := false, pendMsg := true }) State.reset 3 7, 3, 7, by decide +kernel⟩,
    ⟨(fun (s : State) (n : Fin 192) (t0 : Nat) => let s := (s.ready 4).put (F.TIL_CFG_MSG_ATTN n) true; s.onTiller n fun x => { x with state := .running, haltReq := false, inAttn := false, inTrap := false, refRuns := true, pendMsg := true, candQ := (if t0 % 3 = 0 then [] else [BitVec.ofNat 64 (t0 % 4096 + 2 ^ 60 * (t0 % 16))]), refSn := [], refBad := [] }) State.reset 3 7, 3, 7, by decide +kernel⟩,
    ⟨(fun (s : State) (n : Fin 192) (t0 : Nat) => s.put (F.TIL_CFG_MSG_ATTN n) false) State.reset 3 7, 3, 7, by decide +kernel⟩,
    ⟨(fun (s : State) (n : Fin 192) => let s := (((s.ready 4).put F.HIS_STATUS_RUNNING true).put (F.TIL_CFG_MSG_ATTN n) true).wr (F.TIL_ATTN_CFG_DL_ALARM n) 64; s.onTiller n fun x => { x with dlFired := false }) State.reset 3, 3, by decide +kernel⟩,
    ⟨(fun (s : State) (n : Fin 192) => s.put (F.TIL_CFG_MSG_ATTN n) false) State.reset 3, 3, by decide +kernel⟩,
    ⟨(fun (s : State) (n : Fin 192) => s.tillerRuns n 64) State.reset 3, 3, by decide +kernel⟩,
    ⟨(fun (s : State) => (s.ready 2).put F.HIS_STATUS_RUNNING false) State.reset, by decide +kernel⟩,
    ⟨(fun (s : State) (waited : Nat) (n : Nat) (l : Nat) => (({ s with oq := { transfer := none, lastServed := 2, blocks := [] }, til := [] } : State).ready 4).onTiller (n % 192) fun x => { x with state := .stalled, stall := some (.emit 5 0x10000 l), transferring := false }) State.reset 7 20 32, 7, 20, 32, by decide +kernel⟩,
    ⟨(fun (s : State) (waited : Nat) => (({ s with oq := { s.oq with transfer := some 3 } } : State).ready 4)) State.reset 7, 7, by decide +kernel⟩,
    ⟨(fun (s : State) (waited : Nat) (n : Nat) (l : Nat) => (({ s with oq := { transfer := none, lastServed := 2, blocks := [] }, til := [] } : State).ready 4).onTiller (n % 192) fun x => { x with state := .stalled, stall := some (.emit 5 0x10000 l), transferring := false }) State.reset 7 20 60000, 7, 20, 60000, by decide +kernel⟩,
    ⟨(fun (s : State) (waited : Nat) => s.wr F.SYS_CLK_STATUS_TIL_LOCK 0) State.reset 7, 7, by decide +kernel⟩,
    ⟨(fun (s : State) (n : Fin 192) => ({ s with oq := { s.oq with lastServed := s.oq.lastServed % 192 } } : State).onTiller n fun x => { x with state := .stalled, stall := some (.emit 5 0x10000 8), transferring := false }) State.reset 20, 20, by decide +kernel⟩,
    ⟨(fun (s : State) => (({ s with oq := { s.oq with transfer := none } } : State).ready 4)) State.reset, by decide +kernel⟩,
    ⟨(fun (s : State) (n : Fin 192) (rd : Nat) (a : Nat) (len : Nat) => let s : State := { s.ready 4 with oq := { s.oq with transfer := some n.val } }; s.onTiller n fun x => { x with state := .stalled, stall := some (.emit rd a len), transferring := true, dmemCond := [(0, .ce)] }) State.reset 3 5 0x10000 32, 3, 5, 0x10000, 32, by decide +kernel⟩,
    ⟨(fun (s : State) (n : Fin 192) (rd : Nat) (a : Nat) (len : Nat) => let s : State := { s.ready 4 with oq := { s.oq with transfer := some n.val } }; s.onTiller n fun x => { x with state := .stalled, stall := some (.emit rd a len), transferring := true, dmemCond := [(0, if rd % 2 = 0 then .ue else .poison), (2, .ce)] }) State.reset 3 5 0x10000 32, 3, 5, 0x10000, 32, by decide +kernel⟩⟩

/-- States and operands that meet the hypotheses of each clause of DetectorMasksAndEvents. -/
theorem witness_DetectorMasksAndEvents :
    (∃ (s : State), s.reaches) ∧
    (∃ (s : State), s.on F.DET_STATUS_COMMIT_PENDING = true ∧ s.running = false) ∧
    (∃ (s : State), (s.on F.DET_STATUS_COMMIT_PENDING = false ∨ s.running = true)) ∧
    (∃ (s : State), s.reaches ∧ s.on F.DET_STATUS_PROBE_BUSY = false) ∧
    (∃ (s : State), s.reaches ∧ s.on F.DET_STATUS_PROBE_BUSY = true) ∧
    (∃ (s : State), s.mode ≠ mRESET ∧ s.on F.DET_STATUS_PROBE_BUSY = true ∧ s.rd F.CAL_STATUS_ITEM ≠ 4) ∧
    (∃ (s : State) (k : Nat), s.mode ≠ mRESET ∧ s.on F.DET_STATUS_PROBE_BUSY = true ∧ s.rd F.CAL_STATUS_ITEM = 4 ∧ s.cal.surveyAt = some k ∧ k < 18432) ∧
    (∃ (s : State), s.on F.DET_STATUS_PROBE_BUSY = false) ∧
    (∃ (s : State) (c : Fin 1152) (p : Fin 16) (u : Nat), s.spadsLive = true ∧ ((s.maskAct c).testBit p || (s.on F.DET_STATUS_PROBE_BUSY && s.rd F.DET_PROBE_CFG_CHANNEL == (c : Nat) && s.rd F.DET_PROBE_CFG_SPAD == (p : Nat))) = true ∧ (Tab.get (fun _ => 0) s.det.lastFiring (16 * c.val + p.val) = 0 ∨ Tab.get (fun _ => 0) s.det.lastFiring (16 * c.val + p.val) - 1 + 3000 + 500 * s.det.deadTime ≤ u)) ∧
    (∃ (s : State) (c : Fin 1152) (p : Fin 16) (u : Nat), (s.spadsLive = false ∨ ((s.maskAct c).testBit p = false ∧ (s.on F.DET_STATUS_PROBE_BUSY && s.rd F.DET_PROBE_CFG_CHANNEL == (c : Nat) && s.rd F.DET_PROBE_CFG_SPAD == (p : Nat)) = false) ∨ (Tab.get (fun _ => 0) s.det.lastFiring (16 * c.val + p.val) ≠ 0 ∧ u < Tab.get (fun _ => 0) s.det.lastFiring (16 * c.val + p.val) - 1 + 3000 + 500 * s.det.deadTime))) :=
  ⟨⟨(fun (s : State) => s.ready 2) State.reset, by decide +kernel⟩,
    ⟨(fun (s : State) => (s.put F.DET_STATUS_COMMIT_PENDING true).put F.HIS_STATUS_RUNNING false) State.reset, by decide +kernel⟩,
    ⟨(fun (s : State) => s.put F.DET_STATUS_COMMIT_PENDING false) State.reset, by decide +kernel⟩,
    ⟨(fun (s : State) => (s.ready 2).put F.DET_STATUS_PROBE_BUSY false) State.reset, by decide +kernel⟩,
    ⟨(fun (s : State) => (s.ready 2).put F.DET_STATUS_PROBE_BUSY true) State.reset, by decide +kernel⟩,
    ⟨(fun (s : State) => (s.ready 2).put F.DET_STATUS_PROBE_BUSY true) State.reset, by decide +kernel⟩,
    ⟨(fun (s : State) (k : Nat) => State.ready { (((s.ready 2).put F.DET_STATUS_PROBE_BUSY true).wr F.CAL_STATUS_ITEM 4) with cal := { s.cal with surveyAt := some k } } 2) State.reset 7, 7, by decide +kernel⟩,
    ⟨(fun (s : State) => (s.ready 2).put F.DET_STATUS_PROBE_BUSY false) State.reset, by decide +kernel⟩,
    ⟨(fun (s : State) (c : Fin 1152) (p : Fin 16) (u : Nat) => let s := ((({ s with det := { s.det with gated := 0, lastFiring := [(3, 5)] } } : State).ready 2).put F.DET_STATUS_BIAS_SETTLED true).put (F.DET_CH_CFG_SILENT c) false; s.wr (if c.val % 2 = 1 then F.DET_SPAD_MASK_ACT_MASK_HI (c / 2) else F.DET_SPAD_MASK_ACT_MASK_LO (c / 2)) 0xFFFF) State.reset 5 3 1000, 5, 3, 1000, by decide +kernel⟩,
    ⟨State.reset, 5, 3, 1000, by decide +kernel⟩⟩

/-- States and operands that meet the hypotheses of each clause of DetectorBias. -/
theorem witness_DetectorBias :
    (∃ (s : State), s.reaches ∧ s.on F.DET_CTRL_BIAS_EN = false) ∧
    (∃ (s : State), s.reaches ∧ s.on F.DET_CTRL_BIAS_EN = true) ∧
    (∃ (s : State), s.reaches) ∧
    (∃ (s : State), s.on F.DET_CTRL_BIAS_EN = true ∧ s.det.ramping = true ∧ s.tilHeld = false ∧ ((s.rd F.DET_BIAS_STATUS_VSPAD_MEAS : Int) - s.det.vTarget).natAbs ≤ 100) ∧
    (∃ (s : State), (s.on F.DET_CTRL_BIAS_EN = false ∨ s.det.ramping = false ∨ s.tilHeld = true ∨ ¬((s.rd F.DET_BIAS_STATUS_VSPAD_MEAS : Int) - s.det.vTarget).natAbs ≤ 100)) ∧
    (∃ (s : State) (_meas : Nat), s.on F.DET_CTRL_BIAS_EN = true ∧ s.tilHeld = false ∧ s.det.vTarget < 65536) ∧
    (∃ (s : State) (_meas : Nat), (s.on F.DET_CTRL_BIAS_EN = false ∨ s.tilHeld = true)) ∧
    (∃ (s : State), s.mode ≠ mRESET ∧ 3 ≤ (s.okReadings 0 8).length ∧ s.det.tempOld = false) ∧
    (∃ (s : State), s.mode ≠ mRESET ∧ ((s.okReadings 0 8).length < 3 ∨ s.det.tempOld = true)) ∧
    (∃ (s : State), s.mode ≠ mRESET) ∧
    (∃ (s : State) (high : Bool) (_u : Nat), s.mode ≠ mRESET ∧ s.on F.DET_STATUS_BIAS_SETTLED = true ∧ (s.on (if high then F.DET_STATUS_BIAS_HIGH else F.DET_STATUS_BIAS_LOW) = false) ∧ (10 * (s.rd F.DET_BIAS_MON_CFG_TOL : Int) < (if high then ((s.rd F.DET_BIAS_STATUS_VSPAD_MEAS : Int) - s.rd F.DET_BIAS_TARGET_TARGET) else (s.rd F.DET_BIAS_TARGET_TARGET : Int) - s.rd F.DET_BIAS_STATUS_VSPAD_MEAS))) ∧
    (∃ (s : State) (high : Bool) (_u : Nat), (s.on F.DET_STATUS_BIAS_SETTLED = false ∨ s.on (if high then F.DET_STATUS_BIAS_HIGH else F.DET_STATUS_BIAS_LOW) = true ∨ (if high then ((s.rd F.DET_BIAS_STATUS_VSPAD_MEAS : Int) - s.rd F.DET_BIAS_TARGET_TARGET) else (s.rd F.DET_BIAS_TARGET_TARGET : Int) - s.rd F.DET_BIAS_STATUS_VSPAD_MEAS) ≤ 10 * (s.rd F.DET_BIAS_MON_CFG_TOL : Int))) ∧
    (∃ (s : State) (high : Bool), s.on F.DET_STATUS_BIAS_SETTLED = true ∧ s.det.latched.testBit high.toNat = false ∧ ((if high then ((s.rd F.DET_BIAS_STATUS_VSPAD_MEAS : Int) - s.rd F.DET_BIAS_TARGET_TARGET) else (s.rd F.DET_BIAS_TARGET_TARGET : Int) - s.rd F.DET_BIAS_STATUS_VSPAD_MEAS) < 10 * ((s.rd F.DET_BIAS_MON_CFG_TOL : Int) - s.rd F.DET_BIAS_MON_CFG_HYST))) ∧
    (∃ (s : State) (high : Bool), (s.on F.DET_STATUS_BIAS_SETTLED = false ∨ s.det.latched.testBit high.toNat = true ∨ 10 * ((s.rd F.DET_BIAS_MON_CFG_TOL : Int) - s.rd F.DET_BIAS_MON_CFG_HYST) ≤ (if high then ((s.rd F.DET_BIAS_STATUS_VSPAD_MEAS : Int) - s.rd F.DET_BIAS_TARGET_TARGET) else (s.rd F.DET_BIAS_TARGET_TARGET : Int) - s.rd F.DET_BIAS_STATUS_VSPAD_MEAS))) :=
  ⟨⟨(fun (s : State) => (s.ready 2).put F.DET_CTRL_BIAS_EN false) State.reset, by decide +kernel⟩,
    ⟨(fun (s : State) => (s.ready 2).put F.DET_CTRL_BIAS_EN true) State.reset, by decide +kernel⟩,
    ⟨(fun (s : State) => s.ready 2) State.reset, by decide +kernel⟩,
    ⟨(fun (s : State) => let s := (({ s with det := { s.det with ramping := true, vTarget := 20050 } } : State).ready 2).put F.DET_CTRL_BIAS_EN true; s.wr F.DET_BIAS_STATUS_VSPAD_MEAS 20000) State.reset, by decide +kernel⟩,
    ⟨State.reset, by decide +kernel⟩,
    ⟨(fun (s : State) (meas : Nat) => ((({ s with det := { s.det with vTarget := s.det.vTarget % 65536 } } : State).ready 2).put F.DET_CTRL_BIAS_EN true)) State.reset 20000, 20000, by decide +kernel⟩,
    ⟨(fun (s : State) (meas : Nat) => (s.ready 2).put F.DET_CTRL_BIAS_EN false) State.reset 20000, 20000, by decide +kernel⟩,
    ⟨(fun (s : State) => let s := ((((s.ready 2).wr (F.THM_SNS_ST_STATE 0) 0).wr (F.THM_SNS_ST_STATE 1) 0).wr (F.THM_SNS_ST_STATE 2) 0); ({ s with det := { s.det with tempOld := false } } : State)) State.reset, by decide +kernel⟩,
    ⟨(fun (s : State) => ({ s with det := { s.det with tempOld := true } } : State).ready 2) State.reset, by decide +kernel⟩,
    ⟨(fun (s : State) => s.ready 2) State.reset, by decide +kernel⟩,
    ⟨(fun (s : State) (high : Bool) (u : Nat) => let s := ((((s.ready 2).put F.DET_STATUS_BIAS_SETTLED true).put (if high then F.DET_STATUS_BIAS_HIGH else F.DET_STATUS_BIAS_LOW) false).wr F.DET_BIAS_STATUS_VSPAD_MEAS (if high then 60000 else 0)).wr F.DET_BIAS_TARGET_TARGET (if high then 0 else 60000); s) State.reset true 5, true, 5, by decide +kernel⟩,
    ⟨State.reset, true, 5, by decide +kernel⟩,
    ⟨(fun (s : State) (high : Bool) => let s := (({ s with det := { s.det with latched := 0 } } : State).wr F.DET_BIAS_STATUS_VSPAD_MEAS (if high then 0 else 60000)).wr F.DET_BIAS_TARGET_TARGET (if high then 60000 else 0); s.wr F.DET_STATUS_BIAS_SETTLED 1) State.reset true, true, by decide +kernel⟩,
    ⟨(fun (s : State) (high : Bool) => ({ s with det := { s.det with latched := 3 } } : State)) State.reset true, true, by decide +kernel⟩⟩

/-- States and operands that meet the hypotheses of each clause of TimingEventsAndTables. -/
theorem witness_TimingEventsAndTables :
    (∃ (s : State) (c : Fin 1152) (u : Nat) (rc : Fin 8192) (ph : Fin 16) (x : Slot), s.running = true ∧ s.his.cur ≠ none ∧ s.on F.TDC_CTRL_ENABLE = true ∧ s.mainStopped = false ∧ ((s.rd F.TDC_TEST_CFG_SRC = 1 ∨ (c.val, u) ∈ s.det.edges)) ∧ s.slotAt u = some x ∧ rc.val = min ((u - x.epochAt) / 625) 8191 ∧ (s.rd F.TDC_STATUS_DLL_LOCK).testBit (chCol c) = true ∧ (Tab.get (fun _ => 0) s.tdc.lastEdge c = 0 ∨ Tab.get (fun _ => 0) s.tdc.lastEdge c - 1 + 2500 ≤ u) ∧ rc.val ≠ 8191 ∧ 0 ≤ s.timeCode c rc ph ∧ s.timeCode c rc ph < 65536) ∧
    (∃ (s : State) (c : Fin 1152) (u : Nat) (rc : Fin 8192) (ph : Fin 16) (x : Slot), s.running = true ∧ s.his.cur ≠ none ∧ s.on F.TDC_CTRL_ENABLE = true ∧ s.mainStopped = false ∧ ((s.rd F.TDC_TEST_CFG_SRC = 1 ∨ (c.val, u) ∈ s.det.edges)) ∧ s.slotAt u = some x ∧ rc.val = min ((u - x.epochAt) / 625) 8191 ∧ (s.rd F.TDC_STATUS_DLL_LOCK).testBit (chCol c) = true ∧ (Tab.get (fun _ => 0) s.tdc.lastEdge c = 0 ∨ Tab.get (fun _ => 0) s.tdc.lastEdge c - 1 + 2500 ≤ u) ∧ (rc.val = 8191 ∨ 65536 ≤ s.timeCode c rc ph)) ∧
    (∃ (s : State) (c : Fin 1152) (u : Nat) (rc : Fin 8192) (ph : Fin 16) (x : Slot), s.running = true ∧ s.his.cur ≠ none ∧ s.on F.TDC_CTRL_ENABLE = true ∧ s.mainStopped = false ∧ ((s.rd F.TDC_TEST_CFG_SRC = 1 ∨ (c.val, u) ∈ s.det.edges)) ∧ s.slotAt u = some x ∧ rc.val = min ((u - x.epochAt) / 625) 8191 ∧ (s.rd F.TDC_STATUS_DLL_LOCK).testBit (chCol c) = true ∧ (Tab.get (fun _ => 0) s.tdc.lastEdge c = 0 ∨ Tab.get (fun _ => 0) s.tdc.lastEdge c - 1 + 2500 ≤ u) ∧ rc.val ≠ 8191 ∧ s.timeCode c rc ph < 0) ∧
    (∃ (s : State) (c : Fin 1152) (u : Nat) (rc : Fin 8192) (_ph : Fin 16), s.running = true ∧ s.his.cur ≠ none ∧ s.on F.TDC_CTRL_ENABLE = true ∧ s.mainStopped = false ∧ ((s.rd F.TDC_TEST_CFG_SRC = 1 ∨ (c.val, u) ∈ s.det.edges)) ∧ (((s.slotAt u).all fun x => rc.val == min ((u - x.epochAt) / 625) 8191) = true) ∧ (Tab.get (fun _ => 0) s.tdc.lastEdge c ≠ 0 ∧ u < Tab.get (fun _ => 0) s.tdc.lastEdge c - 1 + 2500)) ∧
    (∃ (s : State) (c : Fin 1152) (u : Nat) (rc : Fin 8192) (_ph : Fin 16), s.running = true ∧ s.his.cur ≠ none ∧ s.on F.TDC_CTRL_ENABLE = true ∧ s.mainStopped = false ∧ ((s.rd F.TDC_TEST_CFG_SRC = 1 ∨ (c.val, u) ∈ s.det.edges)) ∧ (((s.slotAt u).all fun x => rc.val == min ((u - x.epochAt) / 625) 8191) = true) ∧ (Tab.get (fun _ => 0) s.tdc.lastEdge c = 0 ∨ Tab.get (fun _ => 0) s.tdc.lastEdge c - 1 + 2500 ≤ u) ∧ (s.rd F.TDC_STATUS_DLL_LOCK).testBit (chCol c) = false) ∧
    (∃ (s : State) (c : Fin 1152) (u : Nat) (rc : Fin 8192) (_ph : Fin 16), (¬(s.running = true ∧ s.his.cur ≠ none ∧ s.on F.TDC_CTRL_ENABLE = true ∧ s.mainStopped = false) ∨ ¬(s.rd F.TDC_TEST_CFG_SRC = 1 ∨ (c.val, u) ∈ s.det.edges) ∨ ((s.slotAt u).all fun x => rc.val == min ((u - x.epochAt) / 625) 8191) = false)) ∧
    (∃ (s : State) (col : Fin 16) (x : Slot), s.mode ≠ mRESET ∧ s.his.cur = some x ∧ x.marked.testBit col = false) ∧
    (∃ (s : State) (col : Fin 16), s.mode ≠ mRESET ∧ ((s.his.cur.all fun x => x.marked.testBit col) = true)) ∧
    (∃ (s : State) (_col : Fin 16), s.mode ≠ mRESET) ∧
    (∃ (s : State), s.reaches) ∧
    (∃ (s : State), s.on F.TDC_STATUS_COMMIT_PENDING = true ∧ s.running = false ∧ (∀ c : Fin 1152, ∀ p : Fin 15, s.lutShadow c p ≤ s.lutShadow c (p + 1))) ∧
    (∃ (s : State) (c : Nat), s.mode ≠ mRESET ∧ s.on F.TDC_STATUS_COMMIT_PENDING = true ∧ s.running = false ∧ s.lutBad = some c) ∧
    (∃ (s : State), (s.on F.TDC_STATUS_COMMIT_PENDING = false ∨ s.running = true)) ∧
    (∃ (s : State) (src : Fin 4), s.reaches ∧ (src.val = 0 ∨ (src.val = 1 ∧ (s.mode = mSTANDBY ∨ s.mode = mCALIBRATE)))) ∧
    (∃ (s : State) (src : Fin 4), s.reaches ∧ (2 ≤ src.val ∨ (src.val = 1 ∧ s.mode ≠ mSTANDBY ∧ s.mode ≠ mCALIBRATE))) ∧
    (∃ (s : State) (ch : Fin 2048) (_all : Bool), s.reaches ∧ ch.val < 1152 ∧ s.tilHeld = false) ∧
    (∃ (s : State) (ch : Fin 2048) (_all : Bool), s.reaches ∧ ch.val < 1152 ∧ s.tilHeld = true) ∧
    (∃ (s : State) (ch : Fin 2048) (_all : Bool), s.reaches ∧ 1152 ≤ ch.val) :=
  ⟨⟨(fun (s : State) (c : Fin 1152) (u : Nat) (rc : Fin 8192) (ph : Fin 16) (x : Slot) => ((((((({ s with his := { s.his with cur := some x, prev := none }, tdc := { s.tdc with lastEdge := [], epochOfs := 0, queues := if u % 3 = 0 then [] else s.tdc.queues }, det := { s.det with edges := (c.val, u) :: s.det.edges, window := 3 } } : State).ready 4).put F.HIS_STATUS_RUNNING true).put F.TDC_CTRL_ENABLE true).wr F.TDC_STATUS_DLL_LOCK 65535).wr F.TDC_TEST_CFG_SRC 0))) State.reset 5 313500 500 3 ({ openAt := 1000, epochAt := 1000 }), 5, 313500, 500, 3, { openAt := 1000, epochAt := 1000 }, by decide +kernel⟩,
    ⟨(fun (s : State) (c : Fin 1152) (u : Nat) (rc : Fin 8192) (ph : Fin 16) (x : Slot) => ((((((({ s with his := { s.his with cur := some x, prev := none }, tdc := { s.tdc with lastEdge := [], epochOfs := 0, queues := if u % 3 = 0 then [] else s.tdc.queues }, det := { s.det with edges := (c.val, u) :: s.det.edges, window := 3 } } : State).ready 4).put F.HIS_STATUS_RUNNING true).put F.TDC_CTRL_ENABLE true).wr F.TDC_STATUS_DLL_LOCK 65535).wr F.TDC_TEST_CFG_SRC 0))) State.reset 5 6000000 8191 3 ({ openAt := 1000, epochAt := 1000 }), 5, 6000000, 8191, 3, { openAt := 1000, epochAt := 1000 }, by decide +kernel⟩,
    ⟨(fun (s : State) (c : Fin 1152) (u : Nat) (rc : Fin 8192) (ph : Fin 16) (x : Slot) => ((((((({ s with his := { s.his with cur := some x, prev := none }, tdc := { s.tdc with lastEdge := [], epochOfs := 0, queues := if u % 3 = 0 then [] else s.tdc.queues }, det := { s.det with edges := (c.val, u) :: s.det.edges, window := 3 } } : State).ready 4).put F.HIS_STATUS_RUNNING true).put F.TDC_CTRL_ENABLE true).wr F.TDC_STATUS_DLL_LOCK 65535).wr F.TDC_TEST_CFG_SRC 0))) State.reset 5 1000 0 3 ({ openAt := 1000, epochAt := 1000 }), 5, 1000, 0, 3, { openAt := 1000, epochAt := 1000 }, by decide +kernel⟩,
    ⟨(fun (s : State) (c : Fin 1152) (u : Nat) (rc : Fin 8192) (ph : Fin 16) => ((((((({ s with his := { s.his with cur := some { openAt := u, epochAt := u }, prev := none }, tdc := { s.tdc with lastEdge := [(c.val, u)], epochOfs := 0, queues := if u % 3 = 0 then [] else s.tdc.queues }, det := { s.det with edges := (c.val, u) :: s.det.edges, window := 3 } } : State).ready 4).put F.HIS_STATUS_RUNNING true).put F.TDC_CTRL_ENABLE true).wr F.TDC_STATUS_DLL_LOCK 65535).wr F.TDC_TEST_CFG_SRC 0))) State.reset 5 1000 0 3, 5, 1000, 0, 3, by decide +kernel⟩,
    ⟨(fun (s : State) (c : Fin 1152) (u : Nat) (rc : Fin 8192) (ph : Fin 16) => ((((((({ s with his := { s.his with cur := some { openAt := u, epochAt := u }, prev := none }, tdc := { s.tdc with lastEdge := [], epochOfs := 0, queues := if u % 3 = 0 then [] else s.tdc.queues }, det := { s.det with edges := (c.val, u) :: s.det.edges, window := 3 } } : State).ready 4).put F.HIS_STATUS_RUNNING true).put F.TDC_CTRL_ENABLE true).wr F.TDC_STATUS_DLL_LOCK 0).wr F.TDC_TEST_CFG_SRC 0))) State.reset 5 1000 0 3, 5, 1000, 0, 3, by decide +kernel⟩,
    ⟨State.reset, 5, 1000, 9, 3, by decide +kernel⟩,
    ⟨(fun (s : State) (col : Fin 16) (x : Slot) => (({ s with his := { s.his with cur := some { x with marked := 0 } }, tdc := { s.tdc with queues := if col.val % 3 = 0 then s.tdc.queues else [] } } : State).ready 4).put F.TDC_CTRL_ENABLE true) State.reset 3 {}, 3, {}, by decide +kernel⟩,
    ⟨(fun (s : State) (col : Fin 16) => ({ s with his := { s.his with cur := if col.val % 2 = 0 then none else some { marked := 0xFFFF } } } : State).ready 4) State.reset 3, 3, by decide +kernel⟩,
    ⟨(fun (s : State) (col : Fin 16) => s.ready 2) State.reset 3, 3, by decide +kernel⟩,
    ⟨(fun (s : State) => s.ready 2) State.reset, by decide +kernel⟩,
    ⟨(fun (s : State) => (s.put F.TDC_STATUS_COMMIT_PENDING true).put F.HIS_STATUS_RUNNING false) State.reset, by decide +kernel, by decide +kernel, lutMonotonic⟩,
    ⟨(fun (s : State) (c : Nat) => (((s.ready 2).put F.TDC_STATUS_COMMIT_PENDING true).put F.HIS_STATUS_RUNNING false).setReg (R.TDC_LUT 0 0) 5) State.reset 0, 0, by decide +kernel⟩,
    ⟨(fun (s : State) => s.put F.TDC_STATUS_COMMIT_PENDING false) State.reset, by decide +kernel⟩,
    ⟨(fun (s : State) (src : Fin 4) => s.ready 2) State.reset 1, 1, by decide +kernel⟩,
    ⟨(fun (s : State) (src : Fin 4) => (s.ready 4)) State.reset 1, 1, by decide +kernel⟩,
    ⟨(fun (s : State) (ch : Fin 2048) (all : Bool) => s.ready 2) State.reset 3 true, 3, true, by decide +kernel⟩,
    ⟨(fun (s : State) (ch : Fin 2048) (all : Bool) => (s.ready 1)) State.reset 3 true, 3, true, by decide +kernel⟩,
    ⟨(fun (s : State) (ch : Fin 2048) (all : Bool) => s.ready 2) State.reset 2000 true, 2000, true, by decide +kernel⟩⟩

/-- States and operands that meet the hypotheses of each clause of FabricEventWords. -/
theorem witness_FabricEventWords :
    (∃ (s : State) (f : Fin 192) (w : Word) (x : Slot) (u : Nat), s.arrives f w x u ∧ Word.field w 31 30 = 0 ∧ s.listens (wordChannel f w) ∧ x.bank < 2 ∧ x.kind = .fallow) ∧
    (∃ (s : State) (f : Fin 192) (w : Word) (x : Slot) (u : Nat), s.arrives f w x u ∧ Word.field w 31 30 = 0 ∧ s.listens (wordChannel f w) ∧ x.bank < 2 ∧ x.kind ≠ .fallow ∧ s.litIn x.rect (wordChannel f w) = false) ∧
    (∃ (s : State) (f : Fin 192) (w : Word) (x : Slot) (u : Nat), s.arrives f w x u ∧ Word.field w 31 30 = 0 ∧ s.listens (wordChannel f w) ∧ x.bank < 2 ∧ x.kind ≠ .fallow ∧ s.litIn x.rect (wordChannel f w) = true ∧ Word.field w 15 0 < 32 * x.d) ∧
    (∃ (s : State) (f : Fin 192) (w : Word) (x : Slot) (u : Nat), s.arrives f w x u ∧ Word.field w 31 30 = 0 ∧ s.listens (wordChannel f w) ∧ x.bank < 2 ∧ x.kind = .plough ∧ s.litIn x.rect (wordChannel f w) = true ∧ 32 * x.d ≤ Word.field w 15 0) ∧
    (∃ (s : State) (f : Fin 192) (w : Word) (x : Slot) (u : Nat) (i : Fin 3), s.arrives f w x u ∧ Word.field w 31 30 = 0 ∧ s.listens (wordChannel f w) ∧ x.bank < 2 ∧ x.kind = .harrow ∧ s.litIn x.rect (wordChannel f w) = true ∧ 32 * x.d ≤ Word.field w 15 0 ∧ ((s.bank x.bank).lane (wordChannel f w)).hit x.d (Word.field w 15 0 - 32 * x.d) = some i.val) ∧
    (∃ (s : State) (f : Fin 192) (w : Word) (x : Slot) (u : Nat), s.arrives f w x u ∧ Word.field w 31 30 = 0 ∧ s.listens (wordChannel f w) ∧ x.bank < 2 ∧ x.kind = .harrow ∧ s.litIn x.rect (wordChannel f w) = true ∧ 32 * x.d ≤ Word.field w 15 0 ∧ ((s.bank x.bank).lane (wordChannel f w)).hit x.d (Word.field w 15 0 - 32 * x.d) = none) ∧
    (∃ (s : State) (f : Fin 192) (w : Word) (x : Slot) (u : Nat), s.arrives f w x u ∧ Word.field w 31 30 = 0 ∧ (s.on (F.DET_CH_CFG_SILENT (wordChannel f w)) = true ∨ s.isGated (wordChannel f w) = true)) ∧
    (∃ (s : State) (f : Fin 192) (w : Word) (x : Slot) (u : Nat), s.arrives f w x u ∧ Word.field w 31 30 = 1 ∧ x.bank < 2) ∧
    (∃ (s : State) (f : Fin 192) (w : Word) (x : Slot) (u : Nat), s.arrives f w x u ∧ Word.field w 31 30 = 2 ∧ x.bank < 2) ∧
    (∃ (s : State) (f : Fin 192) (w : Word) (x : Slot) (u : Nat), s.arrives f w x u ∧ Word.field w 31 30 = 3 ∧ x.bank < 2) ∧
    (∃ (s : State) (f : Fin 192) (w : Word) (x : Slot) (u : Nat), s.mode ≠ mRESET ∧ s.mainStopped = false ∧ ((Tab.get (fun _ => []) s.tdc.queues f).head? = some w) ∧ s.slotOfTag (Word.field w 26 25) = some x ∧ x.bank < 2 ∧ x.closeAt + 60000 < u) ∧
    (∃ (s : State) (f : Fin 192) (w : Word) (x : Slot) (_u : Nat), s.mode ≠ mRESET ∧ s.mainStopped = false ∧ ((Tab.get (fun _ => []) s.tdc.queues f).head? = some w) ∧ s.slotOfTag (Word.field w 26 25) = none ∧ s.olderOfTag (Word.field w 26 25) = some x ∧ x.bank < 2 ∧ (s.his.cur ≠ none ∨ s.his.prev ≠ none)) ∧
    (∃ (s : State) (f : Fin 192) (w : Word) (_u : Nat), s.mode ≠ mRESET ∧ s.mainStopped = false ∧ ((Tab.get (fun _ => []) s.tdc.queues f).head? = some w) ∧ s.slotOfTag (Word.field w 26 25) = none ∧ s.olderOfTag (Word.field w 26 25) = none ∧ (s.his.cur ≠ none ∨ s.his.prev ≠ none)) ∧
    (∃ (s : State) (f : Fin 192) (_u : Nat), s.mainStopped = false ∧ s.his.cur = none ∧ s.his.prev = none ∧ (Tab.get (fun _ => []) s.tdc.queues f ≠ [])) ∧
    (∃ (s : State) (f : Fin 192) (_u : Nat), (s.mainStopped = true ∨ Tab.get (fun _ => []) s.tdc.queues f = [])) :=
  ⟨⟨(fun (s : State) (f : Fin 192) (w : Word) (x : Slot) (u : Nat) => let s := (((({ s with his := { s.his with cur := some x, prev := none }, tdc := { s.tdc with queues := [(f.val, [w, 5])] }, det := { s.det with gated := 0 } } : State).ready 4).put F.HIS_STATUS_RUNNING true).put (F.DET_CH_CFG_SILENT (wordChannel f w)) false); let s := if w.toNat % 5 = 0 then s.setHead x.bank (16 * (wordChannel f w) + 1) (if w.toNat % 3 = 0 then .ce else if w.toNat % 3 = 1 then .ue else .poison) else s; s) State.reset 5 100#32 ({ kind := .fallow, d := 2, closeAt := 1000, rect := ⟨0x3FFFF, 0xFFFF⟩ }) 100, 5, 100#32, { kind := .fallow, d := 2, closeAt := 1000, rect := ⟨0x3FFFF, 0xFFFF⟩ }, 100, by decide +kernel⟩,
    ⟨(fun (s : State) (f : Fin 192) (w : Word) (x : Slot) (u : Nat) => let s := (((({ s with his := { s.his with cur := some x, prev := none }, tdc := { s.tdc with queues := [(f.val, [w, 5])] }, det := { s.det with gated := 0 } } : State).ready 4).put F.HIS_STATUS_RUNNING true).put (F.DET_CH_CFG_SILENT (wordChannel f w)) false); let s := if w.toNat % 5 = 0 then s.setHead x.bank (16 * (wordChannel f w) + 2) (if w.toNat % 3 = 0 then .ce else if w.toNat % 3 = 1 then .ue else .poison) else s; s) State.reset 5 100#32 ({ kind := .plough, d := 2, closeAt := 1000, rect := ⟨0, 0⟩ }) 100, 5, 100#32, { kind := .plough, d := 2, closeAt := 1000, rect := ⟨0, 0⟩ }, 100, by decide +kernel⟩,
    ⟨(fun (s : State) (f : Fin 192) (w : Word) (x : Slot) (u : Nat) => let s := (((({ s with his := { s.his with cur := some x, prev := none }, tdc := { s.tdc with queues := [(f.val, [w, 5])] }, det := { s.det with gated := 0 } } : State).ready 4).put F.HIS_STATUS_RUNNING true).put (F.DET_CH_CFG_SILENT (wordChannel f w)) false); let s := if w.toNat % 5 = 0 then s.setHead x.bank (16 * (wordChannel f w) + 5) (if w.toNat % 3 = 0 then .ce else if w.toNat % 3 = 1 then .ue else .poison) else s; s) State.reset 5 10#32 ({ kind := .plough, d := 2, closeAt := 1000, rect := ⟨0x3FFFF, 0xFFFF⟩ }) 100, 5, 10#32, { kind := .plough, d := 2, closeAt := 1000, rect := ⟨0x3FFFF, 0xFFFF⟩ }, 100, by decide +kernel⟩,
    ⟨(fun (s : State) (f : Fin 192) (w : Word) (x : Slot) (u : Nat) => let s := (((({ s with his := { s.his with cur := some x, prev := none }, tdc := { s.tdc with queues := [(f.val, [w, 5])] }, det := { s.det with gated := 0 } } : State).ready 4).put F.HIS_STATUS_RUNNING true).put (F.DET_CH_CFG_SILENT (wordChannel f w)) false); let s := s.hs fun h => { h with ploughCond := if u % 3 = 0 then [] else if u % 3 = 1 then [(((wordChannel f w) * 2048 + (Word.field w 15 0 - 32 * x.d) / 32), .ce)] else [(((wordChannel f w) * 2048 + (Word.field w 15 0 - 32 * x.d) / 32), .ue)] }; s) State.reset 5 100#32 ({ kind := .plough, d := 2, closeAt := 1000, rect := ⟨0x3FFFF, 0xFFFF⟩ }) 100, 5, 100#32, { kind := .plough, d := 2, closeAt := 1000, rect := ⟨0x3FFFF, 0xFFFF⟩ }, 100, by decide +kernel⟩,
    ⟨(fun (s : State) (f : Fin 192) (w : Word) (x : Slot) (u : Nat) (i : Fin 3) => let s := (((({ s with his := { s.his with cur := some x, prev := none }, tdc := { s.tdc with queues := [(f.val, [w, 5])] }, det := { s.det with gated := 0 } } : State).ready 4).put F.HIS_STATUS_RUNNING true).put (F.DET_CH_CFG_SILENT (wordChannel f w)) false); let s := s.onLane x.bank (wordChannel f w) fun l => { l with win0 := { start := 0, en := true }, win1 := { start := 30, en := decide (i.val = 1) }, win2 := { start := 20, en := true } }; let s := s.setBank x.bank { s.bank x.bank with cond := if u % 3 = 0 then [] else if u % 3 = 1 then [((binKey (wordChannel f w) i ((Word.field w 15 0 - 32 * x.d) - (((s.bank x.bank).lane (wordChannel f w)).win i).start)), .ce)] else [((binKey (wordChannel f w) i ((Word.field w 15 0 - 32 * x.d) - (((s.bank x.bank).lane (wordChannel f w)).win i).start)), .ue)] }; s) State.reset 5 100#32 ({ kind := .harrow, d := 2, closeAt := 1000, rect := ⟨0x3FFFF, 0xFFFF⟩ }) 100 0, 5, 100#32, { kind := .harrow, d := 2, closeAt := 1000, rect := ⟨0x3FFFF, 0xFFFF⟩ }, 100, 0, by decide +kernel⟩,
    ⟨(fun (s : State) (f : Fin 192) (w : Word) (x : Slot) (u : Nat) => let s := (((({ s with his := { s.his with cur := some x, prev := none }, tdc := { s.tdc with queues := [(f.val, [w, 5])] }, det := { s.det with gated := 0 } } : State).ready 4).put F.HIS_STATUS_RUNNING true).put (F.DET_CH_CFG_SILENT (wordChannel f w)) false); let s := if w.toNat % 5 = 0 then s.setHead x.bank (16 * (wordChannel f w) + 3) (if w.toNat % 3 = 0 then .ce else if w.toNat % 3 = 1 then .ue else .poison) else s; let s := s.onLane x.bank (wordChannel f w) fun l => { l with win0 := {}, win1 := {}, win2 := {} };  s) State.reset 5 100#32 ({ kind := .harrow, d := 2, closeAt := 1000, rect := ⟨0x3FFFF, 0xFFFF⟩ }) 100, 5, 100#32, { kind := .harrow, d := 2, closeAt := 1000, rect := ⟨0x3FFFF, 0xFFFF⟩ }, 100, by decide +kernel⟩,
    ⟨(fun (s : State) (f : Fin 192) (w : Word) (x : Slot) (u : Nat) => let s := (((({ s with his := { s.his with cur := some x, prev := none }, tdc := { s.tdc with queues := [(f.val, [w, 5])] }, det := { s.det with gated := 0 } } : State).ready 4).put F.HIS_STATUS_RUNNING true).put (F.DET_CH_CFG_SILENT (wordChannel f w)) true); s) State.reset 5 100#32 ({ kind := .harrow, d := 2, closeAt := 1000, rect := ⟨0x3FFFF, 0xFFFF⟩ }) 100, 5, 100#32, { kind := .harrow, d := 2, closeAt := 1000, rect := ⟨0x3FFFF, 0xFFFF⟩ }, 100, by decide +kernel⟩,
    ⟨(fun (s : State) (f : Fin 192) (w : Word) (x : Slot) (u : Nat) => let s := (((({ s with his := { s.his with cur := some x, prev := none }, tdc := { s.tdc with queues := [(f.val, [w, 5])] }, det := { s.det with gated := 0 } } : State).ready 4).put F.HIS_STATUS_RUNNING true).put (F.DET_CH_CFG_SILENT (wordChannel f w)) false); let s := if w.toNat % 5 = 0 then s.setHead x.bank (16 * (wordChannel f w) + 4) (if w.toNat % 3 = 0 then .ce else if w.toNat % 3 = 1 then .ue else .poison) else s; s) State.reset 5 0x40000000#32 ({ kind := .plough, d := 2, closeAt := 1000, rect := ⟨0x3FFFF, 0xFFFF⟩ }) 100, 5, 0x40000000#32, { kind := .plough, d := 2, closeAt := 1000, rect := ⟨0x3FFFF, 0xFFFF⟩ }, 100, by decide +kernel⟩,
    ⟨(fun (s : State) (f : Fin 192) (w : Word) (x : Slot) (u : Nat) => let s := (((({ s with his := { s.his with cur := some x, prev := none }, tdc := { s.tdc with queues := [(f.val, [w, 5])] }, det := { s.det with gated := 0 } } : State).ready 4).put F.HIS_STATUS_RUNNING true).put (F.DET_CH_CFG_SILENT (wordChannel f w)) false); let s := if w.toNat % 5 = 0 then s.setHead x.bank (16 * (wordChannel f w) + 4) (if w.toNat % 3 = 0 then .ce else if w.toNat % 3 = 1 then .ue else .poison) else s; s) State.reset 5 0x80000000#32 ({ kind := .plough, d := 2, closeAt := 1000, rect := ⟨0x3FFFF, 0xFFFF⟩ }) 100, 5, 0x80000000#32, { kind := .plough, d := 2, closeAt := 1000, rect := ⟨0x3FFFF, 0xFFFF⟩ }, 100, by decide +kernel⟩,
    ⟨(fun (s : State) (f : Fin 192) (w : Word) (x : Slot) (u : Nat) => let s := (((({ s with his := { s.his with cur := some x, prev := none }, tdc := { s.tdc with queues := [(f.val, [w, 5])] }, det := { s.det with gated := 0 } } : State).ready 4).put F.HIS_STATUS_RUNNING true).put (F.DET_CH_CFG_SILENT (wordChannel f w)) false); s) State.reset 5 0xC0000000#32 ({ kind := .plough, d := 2, closeAt := 1000, rect := ⟨0x3FFFF, 0xFFFF⟩ }) 100, 5, 0xC0000000#32, { kind := .plough, d := 2, closeAt := 1000, rect := ⟨0x3FFFF, 0xFFFF⟩ }, 100, by decide +kernel⟩,
    ⟨(fun (s : State) (f : Fin 192) (w : Word) (x : Slot) (u : Nat) => let s := (((({ s with his := { s.his with cur := some x, prev := none }, tdc := { s.tdc with queues := [(f.val, [w, 5])] }, det := { s.det with gated := 0 } } : State).ready 4).put F.HIS_STATUS_RUNNING true).put (F.DET_CH_CFG_SILENT (wordChannel f w)) false); s) State.reset 5 0#32 ({ kind := .plough, d := 2, closeAt := 1000, rect := ⟨0x3FFFF, 0xFFFF⟩ }) 70000, 5, 0#32, { kind := .plough, d := 2, closeAt := 1000, rect := ⟨0x3FFFF, 0xFFFF⟩ }, 70000, by decide +kernel⟩,
    ⟨(fun (s : State) (f : Fin 192) (w : Word) (x : Slot) (u : Nat) => ({ s with his := { s.his with cur := some { seq := 4 * x.seq + 9 }, prev := none, older := [x] }, tdc := { s.tdc with queues := [(f.val, [w])] } } : State).ready 4) State.reset 5 0#32 {} 70, 5, 0#32, {}, 70, by decide +kernel⟩,
    ⟨(fun (s : State) (f : Fin 192) (w : Word) (u : Nat) => ({ s with his := { s.his with cur := some { seq := 1 }, prev := none, older := [] }, tdc := { s.tdc with queues := [(f.val, [w])] } } : State).ready 4) State.reset 5 0#32 70, 5, 0#32, 70, by decide +kernel⟩,
    ⟨(fun (s : State) (f : Fin 192) (u : Nat) => ({ s with his := { s.his with cur := none, prev := none }, tdc := { s.tdc with queues := [(f.val, [5])] } } : State).ready 4) State.reset 5 70, 5, 70, by decide +kernel⟩,
    ⟨(fun (s : State) (f : Fin 192) (u : Nat) => ({ s with tdc := { s.tdc with queues := [] } } : State)) State.reset 5 70, 5, 70, by decide +kernel⟩⟩

/-- States and operands that meet the hypotheses of each clause of FabricSlots. -/
theorem witness_FabricSlots :
    (∃ (s : State) (_u : Nat), s.his.due = true ∧ s.running = false ∧ s.mainStopped = false ∧ (s.on F.MER_CTRL_EN = false ∨ s.on F.MER_CFG_PC_ALIGN = false ∨ s.his.epoch = true)) ∧
    (∃ (s : State) (_u : Nat), (s.his.due = false ∨ s.running = true ∨ s.mainStopped = true ∨ (s.on F.MER_CTRL_EN = true ∧ s.on F.MER_CFG_PC_ALIGN = true ∧ s.his.epoch = false))) ∧
    (∃ (s : State) (k : SlotKind) (i : Nat), s.running = true ∧ s.mainStopped = false ∧ s.emi.prep = none ∧ s.nextSlot = some (k, i) ∧ k ≠ .fallow) ∧
    (∃ (s : State), (s.running = false ∨ s.mainStopped = true ∨ s.emi.prep ≠ none ∨ s.nextSlot = none ∨ s.nextSlot = some (.fallow, 0))) ∧
    (∃ (s : State) (_u : Nat) (p : Prep), s.running = true ∧ s.mainStopped = false ∧ s.emi.prep = some p) ∧
    (∃ (s : State) (_u : Nat), (s.running = false ∨ s.mainStopped = true ∨ s.emi.prep = none)) ∧
    (∃ (s : State) (_u : Nat), s.running = true ∧ s.mainStopped = false ∧ s.nextSlot = some (.fallow, 0)) ∧
    (∃ (s : State) (_u : Nat), (s.running = false ∨ s.mainStopped = true ∨ s.nextSlot ≠ some (.fallow, 0))) :=
  ⟨⟨(fun (s : State) (u : Nat) => (((s.ready 4).put F.HIS_STATUS_RUNNING false).hs fun h => { h with due := true, epoch := true })) State.reset 1000, 1000, by decide +kernel⟩,
    ⟨(fun (s : State) (u : Nat) => ((s.ready 4).hs fun h => { h with due := false })) State.reset 1000, 1000, by decide +kernel⟩,
    ⟨(fun (s : State) (k : SlotKind) (i : Nat) => ((((s.ready 4).put F.HIS_STATUS_RUNNING true).hs fun h => { h with cur := none })).em fun e => { e with prep := none }) State.reset .plough 0, .plough, 0, by decide +kernel⟩,
    ⟨(fun (s : State) => s.put F.HIS_STATUS_RUNNING false) State.reset, by decide +kernel⟩,
    ⟨(fun (s : State) (u : Nat) (p : Prep) => (((s.ready 4).put F.HIS_STATUS_RUNNING true)).em fun e => { e with prep := some p }) State.reset 1000 ({ kind := .plough, d := 3 }), 1000, { kind := .plough, d := 3 }, by decide +kernel⟩,
    ⟨(fun (s : State) (u : Nat) => s.em fun e => { e with prep := none }) State.reset 1000, 1000, by decide +kernel⟩,
    ⟨(fun (s : State) (u : Nat) => (((s.ready 4).put F.HIS_STATUS_RUNNING true).hs fun h => { h with cur := some { kind := .plough, index := 254 } })) State.reset 1000, 1000, by decide +kernel⟩,
    ⟨(fun (s : State) (u : Nat) => (((s.ready 4).put F.HIS_STATUS_RUNNING true).hs fun h => { h with cur := none })) State.reset 1000, 1000, by decide +kernel⟩⟩

/-- States and operands that meet the hypotheses of each clause of FabricPublicationAndWrites. -/
theorem witness_FabricPublicationAndWrites :
    (∃ (s : State) (f : Fin 192) (l : Nat), s.running = true ∧ s.mainStopped = false ∧ s.his.fallowOpen = true ∧ (Tab.get (fun _ => 0) s.his.lanesDone f = l) ∧ l < 6) ∧
    (∃ (s : State) (f : Fin 192), (s.running = false ∨ s.mainStopped = true ∨ s.his.fallowOpen = false ∨ 6 ≤ Tab.get (fun _ => 0) s.his.lanesDone f)) ∧
    (∃ (s : State), s.running = true ∧ s.his.fallowOpen = true) ∧
    (∃ (s : State), (s.running = false ∨ s.his.fallowOpen = false)) ∧
    (∃ (s : State) (n : Fin 192), (((s.tiller n).fwq.head?.all fun w => Word.field w 31 30 == 1) = true)) ∧
    (∃ (s : State) (n : Fin 192), (((s.tiller n).fwq.head?.all fun w => Word.field w 31 30 != 1) = true)) ∧
    (∃ (s : State) (w : Word) (n : Fin 192), s.running = false ∧ (s.tiller n).fwq.head? = some w ∧ Word.field w 31 30 ≠ 1) ∧
    (∃ (s : State) (w : Word) (n : Fin 192), s.running = false ∧ (s.tiller n).fwq.head? = some w ∧ Word.field w 31 30 = 1) ∧
    (∃ (s : State) (w : Word) (n : Fin 192), s.running = true ∧ (s.tiller n).fwq.head? = some w ∧ Word.field w 31 30 = 0 ∧ Word.field w 29 27 < 6 ∧ Word.field w 26 25 ≠ 3 ∧ Word.field w 15 0 ≤ 65472 ∧ s.fixwin = false ∧ s.his.deadlinePassed = false) ∧
    (∃ (s : State) (w : Word) (n : Fin 192), s.running = true ∧ (s.tiller n).fwq.head? = some w ∧ Word.field w 31 30 = 0 ∧ Word.field w 29 27 < 6 ∧ Word.field w 26 25 ≠ 3 ∧ Word.field w 15 0 ≤ 65472 ∧ s.fixwin = true) ∧
    (∃ (s : State) (w : Word) (n : Fin 192), s.mode ≠ mRESET ∧ s.running = true ∧ (s.tiller n).fwq.head? = some w ∧ Word.field w 31 30 = 0 ∧ Word.field w 29 27 < 6 ∧ Word.field w 26 25 ≠ 3 ∧ Word.field w 15 0 ≤ 65472 ∧ s.fixwin = false ∧ s.his.deadlinePassed = true) ∧
    (∃ (s : State) (w : Word) (n : Fin 192), s.running = true ∧ (s.tiller n).fwq.head? = some w ∧ Word.field w 31 30 ≠ 1 ∧ (Word.field w 31 30 ≠ 0 ∨ 6 ≤ Word.field w 29 27 ∨ Word.field w 26 25 = 3 ∨ 65472 < Word.field w 15 0)) ∧
    (∃ (s : State) (w : Word) (n : Fin 192), s.running = true ∧ (s.tiller n).fwq.head? = some w ∧ Word.field w 31 30 = 1 ∧ Word.field w 29 27 < 6 ∧ Word.field w 2 0 ≠ 0 ∧ Word.field w 2 0 ≠ 7 ∧ s.his.deadlinePassed = false) ∧
    (∃ (s : State) (w : Word) (n : Fin 192), s.mode ≠ mRESET ∧ s.running = true ∧ (s.tiller n).fwq.head? = some w ∧ Word.field w 31 30 = 1 ∧ Word.field w 29 27 < 6 ∧ Word.field w 2 0 ≠ 0 ∧ Word.field w 2 0 ≠ 7 ∧ s.his.deadlinePassed = true) ∧
    (∃ (s : State) (w : Word) (n : Fin 192), s.running = true ∧ (s.tiller n).fwq.head? = some w ∧ Word.field w 31 30 = 1 ∧ (6 ≤ Word.field w 29 27 ∨ Word.field w 2 0 = 0 ∨ Word.field w 2 0 = 7)) :=
  ⟨⟨(fun (s : State) (f : Fin 192) (l : Nat) => (((s.ready 4).put F.HIS_STATUS_RUNNING true).hs fun h => { h with fallowOpen := true, lanesDone := [(f.val, l)] })) State.reset 5 2, 5, 2, by decide +kernel⟩,
    ⟨(fun (s : State) (f : Fin 192) => (((s.ready 4).put F.HIS_STATUS_RUNNING true).hs fun h => { h with fallowOpen := false })) State.reset 5, 5, by decide +kernel⟩,
    ⟨(fun (s : State) => (((s.ready 4).put F.HIS_STATUS_RUNNING true).hs fun h => { h with fallowOpen := true })) State.reset, by decide +kernel⟩,
    ⟨(fun (s : State) => (((s.ready 4).put F.HIS_STATUS_RUNNING true).hs fun h => { h with fallowOpen := false })) State.reset, by decide +kernel⟩,
    ⟨(fun (s : State) (n : Fin 192) => s.onTiller n fun x => { x with fwq := [] }) State.reset 5, 5, by decide +kernel⟩,
    ⟨(fun (s : State) (n : Fin 192) => s.onTiller n fun x => { x with fwq := [] }) State.reset 5, 5, by decide +kernel⟩,
    ⟨(fun (s : State) (w : Word) (n : Fin 192) => ((s.ready 2).put F.HIS_STATUS_RUNNING false).onTiller n fun x => { x with fwq := [w, 0] }) State.reset 0x08000064 5, 0x08000064, 5, by decide +kernel⟩,
    ⟨(fun (s : State) (w : Word) (n : Fin 192) => ((s.ready 2).put F.HIS_STATUS_RUNNING false).onTiller n fun x => { x with fwq := [w, 0] }) State.reset 0x48000003 5, 0x48000003, 5, by decide +kernel⟩,
    ⟨(fun (s : State) (w : Word) (n : Fin 192) => (((s.ready 4).put F.HIS_STATUS_RUNNING true).hs fun h => { h with deadlinePassed := false, findCfg := 0 }).onTiller n fun x => { x with fwq := [w, 0] }) State.reset 0x08000064 5, 0x08000064, 5, by decide +kernel⟩,
    ⟨(fun (s : State) (w : Word) (n : Fin 192) => (((s.ready 4).put F.HIS_STATUS_RUNNING true).hs fun h => { h with deadlinePassed := false, findCfg := 0xFFFFFFFF }).onTiller n fun x => { x with fwq := [w, 0] }) State.reset 0x08000064 5, 0x08000064, 5, by decide +kernel⟩,
    ⟨(fun (s : State) (w : Word) (n : Fin 192) => (((s.ready 4).put F.HIS_STATUS_RUNNING true).hs fun h => { h with deadlinePassed := true, findCfg := 0 }).onTiller n fun x => { x with fwq := [w, 0] }) State.reset 0x08000064 5, 0x08000064, 5, by decide +kernel⟩,
    ⟨(fun (s : State) (w : Word) (n : Fin 192) => (((s.ready 4).put F.HIS_STATUS_RUNNING true).hs fun h => { h with deadlinePassed := true }).onTiller n fun x => { x with fwq := [w, 0] }) State.reset 0x0800FFFF 5, 0x0800FFFF, 5, by decide +kernel⟩,
    ⟨(fun (s : State) (w : Word) (n : Fin 192) => (((s.ready 4).put F.HIS_STATUS_RUNNING true).hs fun h => { h with deadlinePassed := false }).onTiller n fun x => { x with fwq := [w, 0] }) State.reset 0x48000003 5, 0x48000003, 5, by decide +kernel⟩,
    ⟨(fun (s : State) (w : Word) (n : Fin 192) => (((s.ready 4).put F.HIS_STATUS_RUNNING true).hs fun h => { h with deadlinePassed := true }).onTiller n fun x => { x with fwq := [w, 0] }) State.reset 0x48000003 5, 0x48000003, 5, by decide +kernel⟩,
    ⟨(fun (s : State) (w : Word) (n : Fin 192) => (((s.ready 4).put F.HIS_STATUS_RUNNING true).hs fun h => { h with deadlinePassed := true }).onTiller n fun x => { x with fwq := [w, 0] }) State.reset 0x78000003 5, 0x78000003, 5, by decide +kernel⟩⟩

/-- States and operands that meet the hypotheses of each clause of FabricBanksAndBlocks. -/
theorem witness_FabricBanksAndBlocks :
    (∃ (s : State) (_u : Nat), s.running = true ∧ s.mainStopped = false ∧ s.his.cur.isSome = true ∧ s.nextSlot = none ∧ s.his.last = false) ∧
    (∃ (s : State) (_u : Nat), s.running = true ∧ s.mainStopped = false ∧ s.his.cur.isSome = true ∧ s.nextSlot = none ∧ s.his.last = true) ∧
    (∃ (s : State) (_u : Nat), (s.running = false ∨ s.mainStopped = true ∨ s.his.cur = none ∨ s.nextSlot ≠ none)) ∧
    (∃ (s : State) (b : Nat) (fin : Bool), s.his.freezing = some (b, fin)) ∧
    (∃ (s : State), s.his.freezing = none) ∧
    (∃ (s : State), s.running = true ∧ ((s.his.cur.any fun x => x.kind == .harrow) = false)) ∧
    (∃ (s : State), (s.running = false ∨ (s.his.cur.any fun x => x.kind == .harrow) = true)) ∧
    (∃ (s : State) (b : Block) (rest : List Block) (bad : Bool) (o : Nat) (wrap : Bool), s.oq.blocks = b :: rest ∧ s.memReady = true ∧ s.engineTurn 0 = true ∧ s.pbBase + s.pbSize ≤ s.localSize ∧ s.rd F.MEM_PB_WPTR_OFS < s.pbSize ∧ s.rd F.MEM_PB_WPTR_OFS % 32 = 0 ∧ (ringPlace s.pbSize (s.rd F.MEM_PB_WPTR_OFS) (s.rd F.MEM_PB_RPTR_OFS) 32 (stagingRecord s.mem.seq b.furrow (if ((blockCrc b.bytes).1 != 0xFFFFFFFF - (blockCrc b.bytes).2 && (bad || (blockCrc b.bytes).1 != (blockCrc b.bytes).2)) = true then b.bytes.take (b.bytes.length - 4) ++ bytesOf 4 (0xFFFFFFFF - (blockCrc b.bytes).2) else b.bytes)).length = some (o, wrap))) ∧
    (∃ (s : State) (b : Block) (rest : List Block) (bad : Bool), s.oq.blocks = b :: rest ∧ s.memReady = true ∧ s.engineTurn 0 = true ∧ s.pbBase + s.pbSize ≤ s.localSize ∧ s.rd F.MEM_PB_WPTR_OFS < s.pbSize ∧ s.rd F.MEM_PB_WPTR_OFS % 32 = 0 ∧ (ringPlace s.pbSize (s.rd F.MEM_PB_WPTR_OFS) (s.rd F.MEM_PB_RPTR_OFS) 32 (stagingRecord s.mem.seq b.furrow (if ((blockCrc b.bytes).1 != 0xFFFFFFFF - (blockCrc b.bytes).2 && (bad || (blockCrc b.bytes).1 != (blockCrc b.bytes).2)) = true then b.bytes.take (b.bytes.length - 4) ++ bytesOf 4 (0xFFFFFFFF - (blockCrc b.bytes).2) else b.bytes)).length = none)) ∧
    (∃ (s : State) (b : Block) (rest : List Block) (_bad : Bool), s.oq.blocks = b :: rest ∧ s.place 0 (s.pbBase + s.rd F.MEM_PB_WPTR_OFS) = .bad 2) ∧
    (∃ (s : State) (b : Block) (rest : List Block) (bad : Bool) (h : Nat) (o : Nat), s.oq.blocks = b :: rest ∧ s.place 0 (s.pbBase + s.rd F.MEM_PB_WPTR_OFS) = .host h ∧ (ringPlace s.pbSize (s.rd F.MEM_PB_WPTR_OFS) (s.rd F.MEM_PB_RPTR_OFS) 32 (stagingRecord s.mem.seq b.furrow (if ((blockCrc b.bytes).1 != 0xFFFFFFFF - (blockCrc b.bytes).2 && (bad || (blockCrc b.bytes).1 != (blockCrc b.bytes).2)) = true then b.bytes.take (b.bytes.length - 4) ++ bytesOf 4 (0xFFFFFFFF - (blockCrc b.bytes).2) else b.bytes)).length = some (o, false)) ∧ (s.inHost 0 (s.pbBase + o) (stagingRecord s.mem.seq b.furrow (if ((blockCrc b.bytes).1 != 0xFFFFFFFF - (blockCrc b.bytes).2 && (bad || (blockCrc b.bytes).1 != (blockCrc b.bytes).2)) = true then b.bytes.take (b.bytes.length - 4) ++ bytesOf 4 (0xFFFFFFFF - (blockCrc b.bytes).2) else b.bytes)).length = true)) ∧
    (∃ (s : State) (_bad : Bool) (b : Block) (rest : List Block) (a : Nat), s.oq.blocks = b :: rest ∧ s.place 0 (s.pbBase + s.rd F.MEM_PB_WPTR_OFS) = .loc a ∧ (s.memBlocked = true ∧ (s.memState ≠ 3 ∨ Tab.get (fun _ => 0) s.mem.drain 0 = 0))) ∧
    (∃ (s : State) (_bad : Bool) (b : Block) (rest : List Block) (a : Nat), s.oq.blocks = b :: rest ∧ s.place 0 (s.pbBase + s.rd F.MEM_PB_WPTR_OFS) = .loc a ∧ s.memBlocked = false ∧ s.engineTurn 0 = false) ∧
    (∃ (s : State) (_bad : Bool), s.oq.blocks = []) ∧
    (∃ (s : State) (n : Fin 192) (_u : Nat) (m : BitVec 64) (b : Nat), s.tilStopped = false ∧ (s.tiller n).refRuns = true ∧ (s.tiller n).state = .running ∧ (s.tiller n).haltReq = false ∧ (s.tiller n).inTrap = false ∧ (s.tiller n).candQ = [m] ∧ isCandidate m = false ∧ m.getLsbD 34 = false ∧ (s.tiller n).own = some (b, (s.bank b).pcIndex) ∧ (s.tiller n).emitted = false ∧ (s.bank b).pcIndex < 2 ^ 24 ∧ (s.tiller n).dmemCond = [] ∧ (s.dbyte n 0xE000).toNat % 2 = (s.tiller n).refActive) ∧
    (∃ (s : State) (n : Fin 192) (_u : Nat), (s.tilStopped = true ∨ (s.tiller n).refRuns = false ∨ (s.tiller n).state ≠ .running ∨ (s.tiller n).haltReq = true ∨ (s.tiller n).inTrap = true ∨ (s.tiller n).candQ = [])) ∧
    (∃ (s : State), s.tilStopped = false) ∧
    (∃ (s : State), s.tilStopped = true) :=
  ⟨⟨(fun (s : State) (u : Nat) => (((({ s with his := { s.his with cur := some { kind := .harrow, index := 254, seq := 1 } } } : State).ready 4).put F.HIS_STATUS_RUNNING true).hs fun h => { h with last := false })) State.reset 1000, 1000, by decide +kernel⟩,
    ⟨(fun (s : State) (u : Nat) => (((({ s with his := { s.his with cur := some { kind := .harrow, index := 254, seq := 1 } } } : State).ready 4).put F.HIS_STATUS_RUNNING true).hs fun h => { h with last := true })) State.reset 1000, 1000, by decide +kernel⟩,
    ⟨(fun (s : State) (u : Nat) => s.hs fun h => { h with cur := none }) State.reset 1000, 1000, by decide +kernel⟩,
    ⟨(fun (s : State) (b : Nat) (fin : Bool) => s.hs fun h => { h with freezing := some (b, fin) }) State.reset 1 true, 1, true, by decide +kernel⟩,
    ⟨(fun (s : State) => s.hs fun h => { h with freezing := none }) State.reset, by decide +kernel⟩,
    ⟨(fun (s : State) => ((s.ready 4).put F.HIS_STATUS_RUNNING true).hs fun h => { h with cur := none }) State.reset, by decide +kernel⟩,
    ⟨(fun (s : State) => (s.ready 4).put F.HIS_STATUS_RUNNING false) State.reset, by decide +kernel⟩,
    ⟨(fun (s : State) (b : Block) (rest : List Block) (bad : Bool) (o : Nat) (wrap : Bool) => let wp := if wrap then 65504 else 64; let s : State := { s with oq := { s.oq with blocks := b :: rest }, sys := { s.sys with dramStopped := false } }; let s := ((((s.ready 4).wr F.MEM_STATUS_STATE 2).put F.MEM_STATUS_INIT_BUSY false).put F.MEM_TRN_CTRL_BUSY false); let s := ((((s.wr F.MEM_SIZE_MIB 2048).wr F.MEM_PB_BASE_HI_BASE 0).wr F.MEM_PB_BASE_LO_BASE 16).wr F.MEM_PB_SIZE_SIZE 1); (s.wr F.MEM_PB_WPTR_OFS wp).wr F.MEM_PB_RPTR_OFS (if wrap then 4096 else 0)) State.reset (⟨5, bytesOf 4 1 ++ bytesOf 4 (crc32c (bytesOf 4 1)), false⟩) [] false 0x40 false, ⟨5, bytesOf 4 1 ++ bytesOf 4 (crc32c (bytesOf 4 1)), false⟩, [], false, 0x40, false, by decide +kernel⟩,
    ⟨(fun (s : State) (b : Block) (rest : List Block) (bad : Bool) => let s : State := { s with oq := { s.oq with blocks := b :: rest }, sys := { s.sys with dramStopped := false } }; let s := ((((s.ready 4).wr F.MEM_STATUS_STATE 2).put F.MEM_STATUS_INIT_BUSY false).put F.MEM_TRN_CTRL_BUSY false); let s := ((((s.wr F.MEM_SIZE_MIB 2048).wr F.MEM_PB_BASE_HI_BASE 0).wr F.MEM_PB_BASE_LO_BASE 16).wr F.MEM_PB_SIZE_SIZE 1); (s.wr F.MEM_PB_WPTR_OFS 0).wr F.MEM_PB_RPTR_OFS 32) State.reset (⟨5, bytesOf 4 1 ++ bytesOf 4 (crc32c (bytesOf 4 1)), false⟩) [] false, ⟨5, bytesOf 4 1 ++ bytesOf 4 (crc32c (bytesOf 4 1)), false⟩, [], false, by decide +kernel⟩,
    ⟨(fun (s : State) (b : Block) (rest : List Block) (bad : Bool) => State.wr { (s.put (F.MEM_WIN_CFG_EN 0) true).put F.LNK_STATUS_PCIE_UP false with oq := { s.oq with blocks := b :: rest } } F.MEM_PB_BASE_HI_BASE 256 |>.wr (F.MEM_WIN_CFG_SIZE 0) 30 |>.wr (F.MEM_WIN_BASE_BASE 0) 0x100000 |>.wr F.MEM_PB_BASE_LO_BASE 0 |>.put F.LNK_STATUS_BME true) State.reset (⟨5, bytesOf 4 1 ++ bytesOf 4 (crc32c (bytesOf 4 1)), false⟩) [] false, ⟨5, bytesOf 4 1 ++ bytesOf 4 (crc32c (bytesOf 4 1)), false⟩, [], false, by decide +kernel⟩,
    ⟨(fun (s : State) (b : Block) (rest : List Block) (bad : Bool) (h : Nat) (o : Nat) => ((State.wr { (s.put (F.MEM_WIN_CFG_EN 0) true).put F.LNK_STATUS_PCIE_UP true with oq := { s.oq with blocks := b :: rest } } F.MEM_PB_BASE_HI_BASE 256 |>.wr (F.MEM_WIN_CFG_SIZE 0) 30 |>.wr (F.MEM_WIN_BASE_BASE 0) 0x100000 |>.wr F.MEM_PB_BASE_LO_BASE 0 |>.put F.LNK_STATUS_BME true).wr F.MEM_PB_SIZE_SIZE 1).wr F.MEM_PB_WPTR_OFS 64 |>.wr F.MEM_PB_RPTR_OFS 0 |>.wr (F.MEM_WIN_HOST_HI_HOST 0) 0 |>.wr (F.MEM_WIN_HOST_LO_HOST 0) 0) State.reset (⟨5, bytesOf 4 1 ++ bytesOf 4 (crc32c (bytesOf 4 1)), false⟩) [] false 64 64, ⟨5, bytesOf 4 1 ++ bytesOf 4 (crc32c (bytesOf 4 1)), false⟩, [], false, 64, 64, by decide +kernel⟩,
    ⟨(fun (s : State) (bad : Bool) (b : Block) (rest : List Block) (a : Nat) => (let s : State := { s with oq := { s.oq with blocks := b :: rest }, sys := { s.sys with dramStopped := false } }; let s := ((((s.ready 4).wr F.MEM_STATUS_STATE 2).put F.MEM_STATUS_INIT_BUSY false).put F.MEM_TRN_CTRL_BUSY false); let s := ((((s.wr F.MEM_SIZE_MIB 2048).wr F.MEM_PB_BASE_HI_BASE 0).wr F.MEM_PB_BASE_LO_BASE 16).wr F.MEM_PB_SIZE_SIZE 1); (s.wr F.MEM_PB_WPTR_OFS 64).wr F.MEM_PB_RPTR_OFS 0).wr F.MEM_STATUS_STATE 4) State.reset false (⟨5, [], false⟩) [] 0x100040, false, ⟨5, [], false⟩, [], 0x100040, by decide +kernel⟩,
    ⟨(fun (s : State) (bad : Bool) (b : Block) (rest : List Block) (a : Nat) => (let s : State := { s with oq := { s.oq with blocks := b :: rest }, sys := { s.sys with dramStopped := false } }; let s := ((((s.ready 4).wr F.MEM_STATUS_STATE 2).put F.MEM_STATUS_INIT_BUSY false).put F.MEM_TRN_CTRL_BUSY false); let s := ((((s.wr F.MEM_SIZE_MIB 2048).wr F.MEM_PB_BASE_HI_BASE 0).wr F.MEM_PB_BASE_LO_BASE 16).wr F.MEM_PB_SIZE_SIZE 1); (s.wr F.MEM_PB_WPTR_OFS 64).wr F.MEM_PB_RPTR_OFS 0).outranked 0 a) State.reset false (⟨5, [], false⟩) [] 0x100040, false, ⟨5, [], false⟩, [], 0x100040, by decide +kernel⟩,
    ⟨(fun (s : State) (bad : Bool) => { s with oq := { s.oq with blocks := [] } }) State.reset false, false, by decide +kernel⟩,
    ⟨(fun (s : State) (n : Fin 192) (u : Nat) (m : BitVec 64) (b : Nat) => (s.ready 4).onTiller n fun x => { x with refRuns := true, state := .running, inTrap := false, haltReq := false, candQ := [m], own := some (b, (s.bank b).pcIndex), emitted := false, refActive := 0, dmemCond := [], dmem := [] }) State.reset 5 100 1#64 1, 5, 100, 1#64, 1, by decide +kernel⟩,
    ⟨(fun (s : State) (n : Fin 192) (u : Nat) => s.onTiller n fun x => { x with candQ := [] }) State.reset 5 100, 5, 100, by decide +kernel⟩,
    ⟨(fun (s : State) => (s.ready 4)) State.reset, by decide +kernel⟩,
    ⟨(fun (s : State) => inMode 0) State.reset, by decide +kernel⟩⟩

/-- States and operands that meet the hypotheses of each clause of EmitterStates. -/
theorem witness_EmitterStates :
    (∃ (s : State), s.reaches ∧ s.mode ≠ mSAFESTOP ∧ s.latched = false ∧ s.on F.EMI_CTRL_EN = false ∧ s.emiState = eDISCHARGING) ∧
    (∃ (s : State), s.reaches ∧ s.mode ≠ mSAFESTOP ∧ s.latched = false ∧ s.on F.EMI_CTRL_EN = false ∧ s.emiState ≠ eDISCHARGING) ∧
    (∃ (s : State), s.reaches ∧ s.mode ≠ mSAFESTOP ∧ s.latched = false ∧ s.on F.EMI_CTRL_EN = true) ∧
    (∃ (s : State), s.reaches ∧ (s.mode = mSAFESTOP ∨ s.latched = true)) ∧
    (∃ (s : State), s.reaches) ∧
    (∃ (s : State), s.reaches ∧ (¬(s.on F.EMI_LB_CFG_EN = true ∧ s.rd F.EMI_STATUS_LB_STAGE = 2 ∧ (s.on F.EMI_FAULT_CAUSE_LB_HOT = true ∨ s.on F.EMI_FAULT_CAUSE_LB_STALE = true))) ∧ s.reg R.EMI_FAULT_CAUSE ≠ 0) ∧
    (∃ (s : State), s.reaches ∧ s.reg R.EMI_FAULT_CAUSE = 0) ∧
    (∃ (s : State), s.reaches ∧ (s.on F.EMI_LB_CFG_EN = true ∧ s.rd F.EMI_STATUS_LB_STAGE = 2 ∧ (s.on F.EMI_FAULT_CAUSE_LB_HOT = true ∨ s.on F.EMI_FAULT_CAUSE_LB_STALE = true))) ∧
    (∃ (s : State) (fb : Fin 4096), s.emiState = eDISCHARGING ∧ fb.val ≤ 16 * s.rd F.EMI_CHG_CFG_DIS_LEVEL) ∧
    (∃ (s : State) (fb : Fin 4096), (s.emiState ≠ eDISCHARGING ∨ 16 * s.rd F.EMI_CHG_CFG_DIS_LEVEL < fb.val)) ∧
    (∃ (s : State), s.mode ≠ mRESET ∧ s.emiState = eDISCHARGING) ∧
    (∃ (s : State), s.emiState ≠ eDISCHARGING) :=
  ⟨⟨(fun (s : State) => ((((({ s with emi := { s.emi with testCmd := s.emi.testCmd } } : State).ready 2).wr F.EMI_STATUS_STATE 3).put F.HDG_STATUS_LATCH false).put F.EMI_CTRL_EN false)) State.reset, by decide +kernel⟩,
    ⟨(fun (s : State) => ((((({ s with emi := { s.emi with testCmd := s.emi.testCmd } } : State).ready 2).wr F.EMI_STATUS_STATE 0).put F.HDG_STATUS_LATCH false).put F.EMI_CTRL_EN false)) State.reset, by decide +kernel⟩,
    ⟨(fun (s : State) => ((((({ s with emi := { s.emi with testCmd := s.emi.testCmd } } : State).ready 2).wr F.EMI_STATUS_STATE 0).put F.HDG_STATUS_LATCH false).put F.EMI_CTRL_EN true)) State.reset, by decide +kernel⟩,
    ⟨(fun (s : State) => ((({ s with emi := { s.emi with testCmd := s.emi.testCmd } } : State).ready 7).wr F.EMI_STATUS_STATE 0).put F.HDG_STATUS_LATCH false) State.reset, by decide +kernel⟩,
    ⟨(fun (s : State) => ((({ s with emi := { s.emi with testCmd := s.emi.testCmd } } : State).ready 2).wr F.EMI_STATUS_STATE 2).put F.HDG_STATUS_LATCH false) State.reset, by decide +kernel⟩,
    ⟨(fun (s : State) => ((((({ s with emi := { s.emi with testCmd := s.emi.testCmd } } : State).ready 2).wr F.EMI_STATUS_STATE 4).put F.HDG_STATUS_LATCH false).setReg R.EMI_FAULT_CAUSE 4).put F.EMI_LB_CFG_EN false) State.reset, by decide +kernel⟩,
    ⟨(fun (s : State) => (((({ s with emi := { s.emi with testCmd := s.emi.testCmd } } : State).ready 2).wr F.EMI_STATUS_STATE 4).put F.HDG_STATUS_LATCH false).setReg R.EMI_FAULT_CAUSE 0) State.reset, by decide +kernel⟩,
    ⟨(fun (s : State) => (((((({ s with emi := { s.emi with testCmd := s.emi.testCmd } } : State).ready 2).wr F.EMI_STATUS_STATE 4).put F.HDG_STATUS_LATCH false).put F.EMI_FAULT_CAUSE_LB_HOT true).put F.EMI_LB_CFG_EN true).wr F.EMI_STATUS_LB_STAGE 2) State.reset, by decide +kernel⟩,
    ⟨(fun (s : State) (fb : Fin 4096) => (((({ s with emi := { s.emi with testCmd := s.emi.testCmd } } : State).ready 2).wr F.EMI_STATUS_STATE 3).put F.HDG_STATUS_LATCH false)) State.reset 0, 0, by decide +kernel⟩,
    ⟨(fun (s : State) (fb : Fin 4096) => ((({ s with emi := { s.emi with testCmd := s.emi.testCmd } } : State).ready 2).wr F.EMI_STATUS_STATE 2).put F.HDG_STATUS_LATCH false) State.reset 0, 0, by decide +kernel⟩,
    ⟨(fun (s : State) => ((({ s with emi := { s.emi with testCmd := s.emi.testCmd } } : State).ready 2).wr F.EMI_STATUS_STATE 3).put F.HDG_STATUS_LATCH false) State.reset, by decide +kernel⟩,
    ⟨(fun (s : State) => ((({ s with emi := { s.emi with testCmd := s.emi.testCmd } } : State).ready 2).wr F.EMI_STATUS_STATE 2).put F.HDG_STATUS_LATCH false) State.reset, by decide +kernel⟩⟩

/-- States and operands that meet the hypotheses of each clause of LaserBoardWatch. -/
theorem witness_LaserBoardWatch :
    (∃ (s : State), s.reaches ∧ s.on F.EMI_LB_CFG_EN = false) ∧
    (∃ (s : State), s.reaches ∧ s.on F.EMI_LB_CFG_EN = true) ∧
    (∃ (s : State), s.reaches) ∧
    (∃ (s : State) (u : Nat), s.mode ≠ mRESET ∧ s.on F.EMI_LB_CFG_EN = true ∧ s.on F.EMI_LB_VAL_VALID = true ∧ ((s.emi.lbHotHot.any fun v => decide (v + 1000000000 * s.rd F.EMI_LB_CFG_DWELL ≤ u)) = true) ∧ s.rd F.EMI_STATUS_LB_STAGE < 2) ∧
    (∃ (s : State) (u : Nat), s.mode ≠ mRESET ∧ s.on F.EMI_LB_CFG_EN = true ∧ s.on F.EMI_LB_VAL_VALID = true ∧ ((s.emi.lbHotHot.any fun v => decide (v + 1000000000 * s.rd F.EMI_LB_CFG_DWELL ≤ u)) = false ∧ (s.emi.lbHotWarm.any fun v => decide (v + 1000000000 * s.rd F.EMI_LB_CFG_DWELL ≤ u)) = true) ∧ s.rd F.EMI_STATUS_LB_STAGE = 0) ∧
    (∃ (s : State) (u : Nat), (¬(s.on F.EMI_LB_CFG_EN = true ∧ s.on F.EMI_LB_VAL_VALID = true) ∨ ((s.emi.lbHotHot.any fun v => decide (v + 1000000000 * s.rd F.EMI_LB_CFG_DWELL ≤ u)) = false ∨ 2 ≤ s.rd F.EMI_STATUS_LB_STAGE) ∧ ((s.emi.lbHotWarm.any fun v => decide (v + 1000000000 * s.rd F.EMI_LB_CFG_DWELL ≤ u)) = false ∨ 1 ≤ s.rd F.EMI_STATUS_LB_STAGE))) ∧
    (∃ (s : State) (u : Nat), s.mode ≠ mRESET ∧ s.on F.EMI_LB_CFG_EN = true ∧ s.on F.EMI_LB_VAL_VALID = true ∧ s.on F.EMI_STATUS_LB_FLAP = false ∧ s.rd F.EMI_STATUS_LB_STAGE = 2 ∧ ((s.emi.lbCoolHot.any fun v => decide (v + 1000000000 * s.rd F.EMI_LB_CFG_DWELL ≤ u)) = true)) ∧
    (∃ (s : State) (u : Nat), s.on F.EMI_LB_CFG_EN = true ∧ s.on F.EMI_LB_VAL_VALID = true ∧ s.on F.EMI_STATUS_LB_FLAP = false ∧ s.rd F.EMI_STATUS_LB_STAGE = 1 ∧ ((s.emi.lbCoolWarm.any fun v => decide (v + 1000000000 * s.rd F.EMI_LB_CFG_DWELL ≤ u)) = true)) ∧
    (∃ (s : State) (u : Nat), (¬(s.on F.EMI_LB_CFG_EN = true ∧ s.on F.EMI_LB_VAL_VALID = true) ∨ s.on F.EMI_STATUS_LB_FLAP = true ∨ (s.rd F.EMI_STATUS_LB_STAGE ≠ 2 ∨ (s.emi.lbCoolHot.any fun v => decide (v + 1000000000 * s.rd F.EMI_LB_CFG_DWELL ≤ u)) = false) ∧ (s.rd F.EMI_STATUS_LB_STAGE ≠ 1 ∨ (s.emi.lbCoolWarm.any fun v => decide (v + 1000000000 * s.rd F.EMI_LB_CFG_DWELL ≤ u)) = false))) ∧
    (∃ (s : State) (_u : Nat), s.mode ≠ mRESET ∧ s.on F.EMI_LB_CFG_EN = true) ∧
    (∃ (s : State) (_u : Nat), s.on F.EMI_LB_CFG_EN = false) :=
  ⟨⟨(fun (s : State) => ((({ s with emi := { s.emi with testCmd := s.emi.testCmd } } : State).ready 2).wr F.EMI_STATUS_STATE 0).put F.HDG_STATUS_LATCH false|>.put F.EMI_LB_CFG_EN false) State.reset, by decide +kernel⟩,
    ⟨(fun (s : State) => ((({ s with emi := { s.emi with testCmd := s.emi.testCmd } } : State).ready 2).wr F.EMI_STATUS_STATE 0).put F.HDG_STATUS_LATCH false|>.put F.EMI_LB_CFG_EN true) State.reset, by decide +kernel⟩,
    ⟨(fun (s : State) => ((({ s with emi := { s.emi with testCmd := s.emi.testCmd } } : State).ready 2).wr F.EMI_STATUS_STATE 0).put F.HDG_STATUS_LATCH false) State.reset, by decide +kernel⟩,
    ⟨(fun (s : State) (u : Nat) => ((((((({ s with emi := { s.emi with lbHotHot := some 0 } } : State).ready 2).wr F.EMI_STATUS_STATE 0).put F.HDG_STATUS_LATCH false).put F.EMI_LB_CFG_EN true).put F.EMI_LB_VAL_VALID true).put F.EMI_STATUS_LB_FLAP false).wr F.EMI_STATUS_LB_STAGE 0) State.reset 10000000000000, 10000000000000, by decide +kernel⟩,
    ⟨(fun (s : State) (u : Nat) => ((((((({ s with emi := { s.emi with lbHotHot := none, lbHotWarm := some 0 } } : State).ready 2).wr F.EMI_STATUS_STATE 0).put F.HDG_STATUS_LATCH false).put F.EMI_LB_CFG_EN true).put F.EMI_LB_VAL_VALID true).put F.EMI_STATUS_LB_FLAP false).wr F.EMI_STATUS_LB_STAGE 0) State.reset 10000000000000, 10000000000000, by decide +kernel⟩,
    ⟨(fun (s : State) (u : Nat) => ((((((({ s with emi := { s.emi with testCmd := s.emi.testCmd } } : State).ready 2).wr F.EMI_STATUS_STATE 0).put F.HDG_STATUS_LATCH false).put F.EMI_LB_CFG_EN true).put F.EMI_LB_VAL_VALID true).put F.EMI_STATUS_LB_FLAP false).put F.EMI_LB_CFG_EN false) State.reset 5, 5, by decide +kernel⟩,
    ⟨(fun (s : State) (u : Nat) => ((((((({ s with emi := { s.emi with lbCoolHot := some 0 } } : State).ready 2).wr F.EMI_STATUS_STATE 0).put F.HDG_STATUS_LATCH false).put F.EMI_LB_CFG_EN true).put F.EMI_LB_VAL_VALID true).put F.EMI_STATUS_LB_FLAP false).wr F.EMI_STATUS_LB_STAGE 2) State.reset 10000000000000, 10000000000000, by decide +kernel⟩,
    ⟨(fun (s : State) (u : Nat) => ((((((({ s with emi := { s.emi with lbCoolWarm := some 0 } } : State).ready 2).wr F.EMI_STATUS_STATE 0).put F.HDG_STATUS_LATCH false).put F.EMI_LB_CFG_EN true).put F.EMI_LB_VAL_VALID true).put F.EMI_STATUS_LB_FLAP false).wr F.EMI_STATUS_LB_STAGE 1) State.reset 10000000000000, 10000000000000, by decide +kernel⟩,
    ⟨(fun (s : State) (u : Nat) => ((((((({ s with emi := { s.emi with testCmd := s.emi.testCmd } } : State).ready 2).wr F.EMI_STATUS_STATE 0).put F.HDG_STATUS_LATCH false).put F.EMI_LB_CFG_EN true).put F.EMI_LB_VAL_VALID true).put F.EMI_STATUS_LB_FLAP false).wr F.EMI_STATUS_LB_STAGE 0) State.reset 5, 5, by decide +kernel⟩,
    ⟨(fun (s : State) (u : Nat) => (((((({ s with emi := { s.emi with testCmd := s.emi.testCmd } } : State).ready 2).wr F.EMI_STATUS_STATE 0).put F.HDG_STATUS_LATCH false).put F.EMI_LB_CFG_EN true).put F.EMI_LB_VAL_VALID true).put F.EMI_STATUS_LB_FLAP false) State.reset 5, 5, by decide +kernel⟩,
    ⟨(fun (s : State) (u : Nat) => ((({ s with emi := { s.emi with testCmd := s.emi.testCmd } } : State).ready 2).wr F.EMI_STATUS_STATE 0).put F.HDG_STATUS_LATCH false|>.put F.EMI_LB_CFG_EN false) State.reset 5, 5, by decide +kernel⟩⟩

/-- States and operands that meet the hypotheses of each clause of EmitterTestCurveAndMap. -/
theorem witness_EmitterTestCurveAndMap :
    (∃ (s : State), s.reaches ∧ s.running = false ∧ s.emiState ≠ eDISCHARGING ∧ s.emi.testCmd = false) ∧
    (∃ (s : State), s.reaches ∧ s.running = false ∧ s.emiState ≠ eDISCHARGING ∧ s.emi.testCmd = true) ∧
    (∃ (s : State), s.reaches ∧ (s.running = true ∨ s.emiState = eDISCHARGING)) ∧
    (∃ (s : State) (_sense : Nat), (s.emi.testCmd = true ∨ (s.running = true ∧ s.on F.EMI_TEST_CFG_AUTO = true ∧ (s.his.cur.any fun x => x.kind == .fallow) = true)) ∧ s.emi.testStep = 0) ∧
    (∃ (s : State) (_sense : Nat) (k : Fin 18), (s.emi.testCmd = true ∨ (s.running = true ∧ s.on F.EMI_TEST_CFG_AUTO = true ∧ (s.his.cur.any fun x => x.kind == .fallow) = true)) ∧ s.emi.testStep = k.val + 1) ∧
    (∃ (s : State) (_sense : Nat) (k : Fin 16), (s.emi.testCmd = true ∨ (s.running = true ∧ s.on F.EMI_TEST_CFG_AUTO = true ∧ (s.his.cur.any fun x => x.kind == .fallow) = true)) ∧ s.emi.testStep = k.val + 19) ∧
    (∃ (s : State) (_sense : Nat), (¬(s.emi.testCmd = true ∨ (s.running = true ∧ s.on F.EMI_TEST_CFG_AUTO = true ∧ (s.his.cur.any fun x => x.kind == .fallow) = true)) ∨ 35 ≤ s.emi.testStep)) ∧
    (∃ (s : State), s.mode ≠ mRESET ∧ s.emi.testCmd = true ∧ s.emi.testStep = 35) ∧
    (∃ (s : State), (s.emi.testCmd = false ∨ s.emi.testStep ≠ 35)) ∧
    (∃ (s : State) (_r : Fin 3) (_w : Word), s.reaches) ∧
    (∃ (s : State), s.reaches) ∧
    (∃ (s : State), s.running = false ∧ s.on F.EMI_STATUS_COMMIT_PENDING = true ∧ (∀ p : Fin 255, s.rd (F.EMI_CURVE_DAC p) ≤ s.rd (F.EMI_CURVE_DAC (p + 1)))) ∧
    (∃ (s : State) (p : Fin 255), s.mode ≠ mRESET ∧ s.running = false ∧ s.on F.EMI_STATUS_COMMIT_PENDING = true ∧ s.rd (F.EMI_CURVE_DAC (p + 1)) < s.rd (F.EMI_CURVE_DAC p) ∧ (∀ q : Fin 255, q < p → s.rd (F.EMI_CURVE_DAC q) ≤ s.rd (F.EMI_CURVE_DAC (q + 1)))) ∧
    (∃ (s : State), (s.running = true ∨ s.on F.EMI_STATUS_COMMIT_PENDING = false)) ∧
    (∃ (s : State) (b : Fin 2) (_e : Fin 8192) (hi : Bool) (w : Word), s.reaches ∧ (hi = true ∨ Word.field w 12 0 = 0) ∧ (s.running = false ∨ s.rd F.EMI_STATUS_ACTIVE_BUF ≠ (b : Nat))) ∧
    (∃ (s : State) (b : Fin 2) (_e : Fin 8192) (hi : Bool) (w : Word), s.reaches ∧ ((hi = false ∧ Word.field w 12 0 ≠ 0) ∨ (s.running = true ∧ s.rd F.EMI_STATUS_ACTIVE_BUF = (b : Nat)))) ∧
    (∃ (s : State) (u : Nat), (s.helmNow u).hlm.syncs ≠ 0) ∧
    (∃ (s : State) (u : Nat), (s.helmNow u).hlm.syncs = 0) :=
  ⟨⟨(fun (s : State) => ((({ s with emi := { s.emi with testCmd := false } } : State).ready 2).wr F.EMI_STATUS_STATE 0).put F.HDG_STATUS_LATCH false|>.put F.HIS_STATUS_RUNNING false) State.reset, by decide +kernel⟩,
    ⟨(fun (s : State) => ((({ s with emi := { s.emi with testCmd := true } } : State).ready 2).wr F.EMI_STATUS_STATE 0).put F.HDG_STATUS_LATCH false|>.put F.HIS_STATUS_RUNNING false) State.reset, by decide +kernel⟩,
    ⟨(fun (s : State) => ((({ s with emi := { s.emi with testCmd := s.emi.testCmd } } : State).ready 2).wr F.EMI_STATUS_STATE 3).put F.HDG_STATUS_LATCH false) State.reset, by decide +kernel⟩,
    ⟨(fun (s : State) (sense : Nat) => ((({ s with emi := { s.emi with testCmd := true, testStep := 0 } } : State).ready 2).wr F.EMI_STATUS_STATE 0).put F.HDG_STATUS_LATCH false) State.reset 70000, 70000, by decide +kernel⟩,
    ⟨(fun (s : State) (sense : Nat) (k : Fin 18) => ((({ s with emi := { s.emi with testCmd := true, testStep := k.val + 1 } } : State).ready 2).wr F.EMI_STATUS_STATE 0).put F.HDG_STATUS_LATCH false) State.reset 70000 5, 70000, 5, by decide +kernel⟩,
    ⟨(fun (s : State) (sense : Nat) (k : Fin 16) => ((({ s with emi := { s.emi with testCmd := true, testStep := k.val + 19 } } : State).ready 2).wr F.EMI_STATUS_STATE 0).put F.HDG_STATUS_LATCH false) State.reset 70000 5, 70000, 5, by decide +kernel⟩,
    ⟨(fun (s : State) (sense : Nat) => ((({ s with emi := { s.emi with testCmd := true, testStep := 35 } } : State).ready 2).wr F.EMI_STATUS_STATE 0).put F.HDG_STATUS_LATCH false) State.reset 70000, 70000, by decide +kernel⟩,
    ⟨(fun (s : State) => ((({ s with emi := { s.emi with testCmd := true, testStep := 35 } } : State).ready 2).wr F.EMI_STATUS_STATE 0).put F.HDG_STATUS_LATCH false) State.reset, by decide +kernel⟩,
    ⟨(fun (s : State) => ((({ s with emi := { s.emi with testCmd := true, testStep := 3 } } : State).ready 2).wr F.EMI_STATUS_STATE 0).put F.HDG_STATUS_LATCH false) State.reset, by decide +kernel⟩,
    ⟨(fun (s : State) (r : Fin 3) (w : Word) => s.ready 2) State.reset 1 3, 1, 3, by decide +kernel⟩,
    ⟨(fun (s : State) => s.ready 2) State.reset, by decide +kernel⟩,
    ⟨(fun (s : State) => (s.put F.HIS_STATUS_RUNNING false).put F.EMI_STATUS_COMMIT_PENDING true) State.reset, by decide +kernel⟩,
    ⟨(fun (s : State) (p : Fin 255) => (((s.ready 2).put F.HIS_STATUS_RUNNING false).put F.EMI_STATUS_COMMIT_PENDING true).wr (F.EMI_CURVE_DAC 0) 9) State.reset 0, 0, by decide +kernel⟩,
    ⟨(fun (s : State) => s.put F.EMI_STATUS_COMMIT_PENDING false) State.reset, by decide +kernel⟩,
    ⟨(fun (s : State) (b : Fin 2) (e : Fin 8192) (hi : Bool) (w : Word) => s.ready 2|>.put F.HIS_STATUS_RUNNING false) State.reset 1 5 false 0x00050000, 1, 5, false, 0x00050000, by decide +kernel⟩,
    ⟨(fun (s : State) (b : Fin 2) (e : Fin 8192) (hi : Bool) (w : Word) => s.ready 2) State.reset 1 5 false 5, 1, 5, false, 5, by decide +kernel⟩,
    ⟨(fun (s : State) (u : Nat) => s.hl fun h => { h with syncs := h.syncs + 1, tiltDue := none }) State.reset 1000, 1000, by decide +kernel⟩,
    ⟨(fun (s : State) (u : Nat) => s.hl fun h => { h with syncs := 0, tiltDue := none }) State.reset 1000, 1000, by decide +kernel⟩⟩

/-- States and operands that meet the hypotheses of each clause of EmitterShots. -/
theorem witness_EmitterShots :
    (∃ (s : State) (fb : Fin 4096), s.mode ≠ mRESET ∧ s.emiState = eFIRING ∧ s.emi.shot.pulses ≠ 0 ∧ s.emi.shot.fired = 0 ∧ s.rd F.EMI_CHG_STATUS_DAC_CODE + 4 * s.rd F.EMI_CHG_CFG_TOL_HI < fb.val ∧ s.hdg.queue.length < 8) ∧
    (∃ (s : State) (fb : Fin 4096), s.mode ≠ mRESET ∧ s.emiState = eFIRING ∧ s.emi.shot.pulses ≠ 0 ∧ s.emi.shot.fired = 0 ∧ s.rd F.EMI_CHG_STATUS_DAC_CODE + 4 * s.rd F.EMI_CHG_CFG_TOL_HI < fb.val ∧ 8 ≤ s.hdg.queue.length) ∧
    (∃ (s : State) (fb : Fin 4096), s.mode ≠ mRESET ∧ s.emiState = eFIRING ∧ s.emi.shot.pulses ≠ 0 ∧ s.emi.shot.fired = 0 ∧ fb.val + 4 * s.rd F.EMI_CHG_CFG_TOL_LO < s.rd F.EMI_CHG_STATUS_DAC_CODE ∧ fb.val ≤ s.rd F.EMI_CHG_STATUS_DAC_CODE + 4 * s.rd F.EMI_CHG_CFG_TOL_HI) ∧
    (∃ (s : State) (fb : Fin 4096), s.emiState = eFIRING ∧ s.emi.shot.pulses ≠ 0 ∧ s.emi.shot.fired = 0 ∧ s.rd F.EMI_CHG_STATUS_DAC_CODE ≤ fb.val + 4 * s.rd F.EMI_CHG_CFG_TOL_LO ∧ fb.val ≤ s.rd F.EMI_CHG_STATUS_DAC_CODE + 4 * s.rd F.EMI_CHG_CFG_TOL_HI) ∧
    (∃ (s : State) (_fb : Fin 4096), ¬(s.emiState = eFIRING ∧ s.emi.shot.pulses ≠ 0 ∧ s.emi.shot.fired = 0)) ∧
    (∃ (s : State) (u : Nat) (late : Bool), ((s.emiState == eFIRING && decide (s.emi.shot.fired < s.emi.shot.pulses) && s.emi.shot.train[s.emi.shot.fired]?.any fun x => decide (x.1 ≤ u + 312) && decide (u ≤ x.1 + 312)) = true) ∧ (s.hdg.edges < s.hdg.allowance ∧ (late = false ∨ s.on F.HDG_STATUS_LI_LEVEL = true))) ∧
    (∃ (s : State) (u : Nat) (late : Bool), ((s.emiState == eFIRING && decide (s.emi.shot.fired < s.emi.shot.pulses) && s.emi.shot.train[s.emi.shot.fired]?.any fun x => decide (x.1 ≤ u + 312) && decide (u ≤ x.1 + 312)) = false) ∧ (s.hdg.edges < s.hdg.allowance ∧ (late = false ∨ s.on F.HDG_STATUS_LI_LEVEL = true))) ∧
    (∃ (s : State) (_u : Nat) (late : Bool), (s.hdg.allowance ≤ s.hdg.edges ∨ (late = true ∧ s.on F.HDG_STATUS_LI_LEVEL = false))) ∧
    (∃ (s : State) (x : Nat), s.emiState = eFIRING ∧ s.nextShot = some x) ∧
    (∃ (s : State) (x : Slot), s.emiState = eFIRING ∧ s.his.cur = some x ∧ ((x.kind = .fallow ∧ 0 < (s.bank s.his.active).h) ∨ (x.kind = .harrow ∧ x.index + 1 < (s.bank s.his.active).h)) ∧ silentEntry (s.seedEntry (s.rd F.EMI_STATUS_ACTIVE_BUF) s.emi.ptr) s.emi.shortRows s.emi.shortCols = false) ∧
    (∃ (s : State), (s.emiState ≠ eFIRING ∨ s.nextShot = none)) ∧
    (∃ (s : State) (u : Nat), s.tilHeld = false ∧ s.on F.EMI_MON_CFG_MON_EN = true ∧ (s.emi.windows.any (fun (w : Nat × Bool × Bool) => decide (w.1 ≤ u) && decide (u < w.1 + 1250 * s.rd F.EMI_MON_CFG_MON_WIN)) = true)) ∧
    (∃ (s : State) (u : Nat), s.tilHeld = false ∧ s.on F.EMI_MON_CFG_MON_EN = true ∧ (s.emi.windows.any (fun (w : Nat × Bool × Bool) => decide (w.1 ≤ u) && decide (u < w.1 + 1250 * s.rd F.EMI_MON_CFG_MON_WIN)) = false)) ∧
    (∃ (s : State) (_u : Nat), (s.tilHeld = true ∨ s.on F.EMI_MON_CFG_MON_EN = false)) ∧
    (∃ (s : State) (u : Nat) (first : Bool) (ok : Bool) (rest : List (Nat × Bool × Bool)), s.mode ≠ mRESET ∧ s.emi.windows = (u, first, ok) :: rest) ∧
    (∃ (s : State), s.emi.windows = []) :=
  ⟨⟨(fun (s : State) (fb : Fin 4096) => ((((({ s with emi := { s.emi with shot := { pulses := 2, fired := 0, id := s.emi.shot.id, train := [(1000, 5000), (9000, 12000)] } } , hdg := { s.hdg with queue := [] } } : State).ready 4).wr F.EMI_STATUS_STATE 2).wr F.EMI_CHG_STATUS_DAC_CODE 100).wr F.EMI_CHG_CFG_TOL_HI 5)) State.reset 2000, 2000, by decide +kernel⟩,
    ⟨(fun (s : State) (fb : Fin 4096) => ((((({ s with emi := { s.emi with shot := { pulses := 2, fired := 0, id := s.emi.shot.id, train := [(1000, 5000), (9000, 12000)] } } , hdg := { s.hdg with queue := [] } } : State).ready 4).wr F.EMI_STATUS_STATE 2).wr F.EMI_CHG_STATUS_DAC_CODE 100).wr F.EMI_CHG_CFG_TOL_HI 5).hd fun h => { h with queue := List.replicate 8 (.correction 1) }) State.reset 2000, 2000, by decide +kernel⟩,
    ⟨(fun (s : State) (fb : Fin 4096) => ((((({ s with emi := { s.emi with shot := { pulses := 2, fired := 0, id := s.emi.shot.id, train := [(1000, 5000), (9000, 12000)] } } , hdg := { s.hdg with queue := [] } } : State).ready 4).wr F.EMI_STATUS_STATE 2).wr F.EMI_CHG_STATUS_DAC_CODE 4000).wr F.EMI_CHG_CFG_TOL_LO 5)) State.reset 2000, 2000, by decide +kernel⟩,
    ⟨(fun (s : State) (fb : Fin 4096) => (((({ s with emi := { s.emi with shot := { pulses := 2, fired := 0, id := s.emi.shot.id, train := [(1000, 5000), (9000, 12000)] } } , hdg := { s.hdg with queue := [] } } : State).ready 4).wr F.EMI_STATUS_STATE 2).wr F.EMI_CHG_STATUS_DAC_CODE fb)) State.reset 2000, 2000, by decide +kernel⟩,
    ⟨(fun (s : State) (fb : Fin 4096) => ((({ s with emi := { s.emi with testCmd := s.emi.testCmd } } : State).ready 2).wr F.EMI_STATUS_STATE 0).put F.HDG_STATUS_LATCH false) State.reset 2000, 2000, by decide +kernel⟩,
    ⟨(fun (s : State) (u : Nat) (late : Bool) => (((({ s with emi := { s.emi with shot := { pulses := 2, fired := 0, id := s.emi.shot.id, train := [(1000, 5000), (9000, 12000)] } } , hdg := { s.hdg with queue := [] } } : State).ready 4).wr F.EMI_STATUS_STATE 2).hd fun h => { h with edges := 1, allowance := 5 })) State.reset 1100 false, 1100, false, by decide +kernel⟩,
    ⟨(fun (s : State) (u : Nat) (late : Bool) => (((({ s with emi := { s.emi with shot := { pulses := 2, fired := 0, id := s.emi.shot.id, train := [(1000, 5000), (9000, 12000)] } } , hdg := { s.hdg with queue := [] } } : State).ready 4).wr F.EMI_STATUS_STATE 2).hd fun h => { h with edges := 1, allowance := 5 })) State.reset 2100 false, 2100, false, by decide +kernel⟩,
    ⟨(fun (s : State) (u : Nat) (late : Bool) => (((({ s with emi := { s.emi with shot := { pulses := 2, fired := 0, id := s.emi.shot.id, train := [(1000, 5000), (9000, 12000)] } } , hdg := { s.hdg with queue := [] } } : State).ready 4).wr F.EMI_STATUS_STATE 2).hd fun h => { h with edges := 5, allowance := 5 })) State.reset 1100 true, 1100, true, by decide +kernel⟩,
    ⟨(fun (s : State) (x : Nat) => (((((({ s with emi := { s.emi with shot := { pulses := 2, fired := 0, id := s.emi.shot.id, train := [(1000, 5000), (9000, 12000)] } } , hdg := { s.hdg with queue := [] } } : State).ready 4).wr F.EMI_STATUS_STATE 2).em fun e => { e with ptr := 5, swapReq := false }).wr F.EMI_STATUS_ACTIVE_BUF 0).setReg 0x610028 0x40402000).setReg 0x61002C 0xFFFFFFFF) State.reset (18446744069414584320 + 0x40402000), 18446744069414584320 + 0x40402000, by decide +kernel⟩,
    ⟨(fun (s : State) (x : Slot) => let s : State := (((((({ s with emi := { s.emi with shot := { pulses := 2, fired := 0, id := s.emi.shot.id, train := [(1000, 5000), (9000, 12000)] } } , hdg := { s.hdg with queue := [] } } : State).ready 4).wr F.EMI_STATUS_STATE 2).em fun e => { e with ptr := 5, shortRows := 0, shortCols := 0 }).wr F.EMI_STATUS_ACTIVE_BUF 0).setReg 0x610028 0x40402000).setReg 0x61002C 0xFFFFFFFF; ((s.hs fun h => { h with cur := some x }).setBank s.his.active { s.bank s.his.active with h := 5 })) State.reset ({ kind := .harrow }), { kind := .harrow }, by decide +kernel⟩,
    ⟨(fun (s : State) => ((({ s with emi := { s.emi with testCmd := s.emi.testCmd } } : State).ready 2).wr F.EMI_STATUS_STATE 0).put F.HDG_STATUS_LATCH false) State.reset, by decide +kernel⟩,
    ⟨(fun (s : State) (u : Nat) => (({ s with emi := { s.emi with windows := [(u, true, false)] ++ s.emi.windows } } : State).ready 2 |>.put F.EMI_MON_CFG_MON_EN true |>.wr F.EMI_MON_CFG_MON_WIN 8 |>.put F.HDG_STATUS_LATCH false)) State.reset 1000, 1000, by decide +kernel⟩,
    ⟨(fun (s : State) (u : Nat) => (({ s with emi := { s.emi with windows := [], rogue := if u % 2 = 0 then [u, u, u] else s.emi.rogue } } : State).ready 2 |>.put F.EMI_MON_CFG_MON_EN true |>.put F.HDG_STATUS_LATCH false)) State.reset 1000, 1000, by decide +kernel⟩,
    ⟨(fun (s : State) (u : Nat) => inMode 1) State.reset 1000, 1000, by decide +kernel⟩,
    ⟨(fun (s : State) (u : Nat) (first : Bool) (ok : Bool) (rest : List (Nat × Bool × Bool)) => (({ s with emi := { s.emi with windows := (u, first, ok) :: rest, missRun := 2 } } : State).ready 2 |>.wr F.EMI_MON_CFG_MISS_LIMIT 3 |>.put F.HDG_STATUS_LATCH false)) State.reset 1000 true false [], 1000, true, false, [], by decide +kernel⟩,
    ⟨(fun (s : State) => ((({ s with emi := { s.emi with windows := [] } } : State).ready 2).wr F.EMI_STATUS_STATE 0).put F.HDG_STATUS_LATCH false) State.reset, by decide +kernel⟩⟩

/-- States and operands that meet the hypotheses of each clause of HelmTickAndEncoder. -/
theorem witness_HelmTickAndEncoder :
    (∃ (s : State) (_u : Nat) (_hall : Fin 8) (_low : Bool), s.mode ≠ mRESET) ∧
    (∃ (s : State) (_u : Nat) (_hall : Fin 8) (_low : Bool) (_a : Bool) (_b : Bool), s.mode = mRESET) ∧
    (∃ (s : State), (s.mode = mRESET ∨ s.on F.HLM_ENC_CFG_INDEX_EN = false)) ∧
    (∃ (s : State) (a : Bool) (b : Bool) (_u : Nat) (k : Nat), s.mode ≠ mRESET ∧ quad s.hlm.encA s.hlm.encB a b = some k ∧ (k = 1 ∨ k = 2)) ∧
    (∃ (s : State) (a : Bool) (b : Bool) (_u : Nat), s.mode ≠ mRESET ∧ quad s.hlm.encA s.hlm.encB a b = some 0) ∧
    (∃ (s : State) (a : Bool) (b : Bool) (_u : Nat), quad s.hlm.encA s.hlm.encB a b = none) ∧
    (∃ (s : State), s.mode ≠ mRESET ∧ s.on F.HLM_ENC_CFG_INDEX_EN = true ∧ s.on F.HLM_STATUS_INDEX_SEEN = false) ∧
    (∃ (s : State), s.mode ≠ mRESET ∧ s.on F.HLM_ENC_CFG_INDEX_EN = true ∧ s.on F.HLM_STATUS_INDEX_SEEN = true ∧ (s.rd F.HLM_ENC_COUNT_COUNT ≤ 2 ∨ s.counts ≤ s.rd F.HLM_ENC_COUNT_COUNT + 2)) ∧
    (∃ (s : State), s.mode ≠ mRESET ∧ s.on F.HLM_ENC_CFG_INDEX_EN = true ∧ s.on F.HLM_STATUS_INDEX_SEEN = true ∧ 2 < s.rd F.HLM_ENC_COUNT_COUNT ∧ s.rd F.HLM_ENC_COUNT_COUNT + 2 < s.counts) ∧
    (∃ (s : State) (_u : Nat), s.sp = hLOCKED) ∧
    (∃ (s : State) (_u : Nat), s.sp ≠ hLOCKED) ∧
    (∃ (s : State), s.mode ≠ mRESET) ∧
    (∃ (s : State), s.mode ≠ mRESET ∧ (s.on F.HLM_TRACE_STATUS_RECORDING = false ∨ s.hlm.trLeft ≠ none ∨ s.hlm.trN < s.rd F.HLM_TRACE_CFG_PRE)) ∧
    (∃ (s : State), s.mode ≠ mRESET ∧ s.on F.HLM_TRACE_STATUS_RECORDING = true ∧ s.hlm.trLeft = none ∧ s.rd F.HLM_TRACE_CFG_PRE ≤ s.hlm.trN) :=
  ⟨⟨(fun (s : State) (u : Nat) (hall : Fin 8) (low : Bool) => (s.ready 4)) State.reset 1000 5 false, 1000, 5, false, by decide +kernel⟩,
    ⟨(fun (s : State) (u : Nat) (hall : Fin 8) (low : Bool) (a : Bool) (b : Bool) => inMode 0) State.reset 1000 5 false true true, 1000, 5, false, true, true, by decide +kernel⟩,
    ⟨(fun (s : State) => inMode 0) State.reset, by decide +kernel⟩,
    ⟨(fun (s : State) (a : Bool) (b : Bool) (u : Nat) (k : Nat) => ((({ s with hlm := { s.hlm with encA := false, encB := false } } : State).ready 2).wr F.HLM_ENC_CFG_CPR 1000)) State.reset true false 100 1, true, false, 100, 1, by decide +kernel⟩,
    ⟨(fun (s : State) (a : Bool) (b : Bool) (u : Nat) => ((({ s with hlm := { s.hlm with encA := false, encB := false, illegal := [s.hlm.trans, s.hlm.trans - 1, s.hlm.trans - 2] } } : State).ready 2).wr F.HLM_ENC_CFG_CPR 1000)) State.reset true true 100, true, true, 100, by decide +kernel⟩,
    ⟨(fun (s : State) (a : Bool) (b : Bool) (u : Nat) => ((({ s with hlm := { s.hlm with encA := a, encB := b } } : State).ready 2))) State.reset true true 100, true, true, 100, by decide +kernel⟩,
    ⟨(fun (s : State) => ((s.ready 2).put F.HLM_ENC_CFG_INDEX_EN true).put F.HLM_STATUS_INDEX_SEEN false) State.reset, by decide +kernel⟩,
    ⟨(fun (s : State) => ((s.ready 2).put F.HLM_ENC_CFG_INDEX_EN true).put F.HLM_STATUS_INDEX_SEEN true |>.wr F.HLM_ENC_COUNT_COUNT 2) State.reset, by decide +kernel⟩,
    ⟨(fun (s : State) => (((s.ready 2).put F.HLM_ENC_CFG_INDEX_EN true).put F.HLM_STATUS_INDEX_SEEN true |>.wr F.HLM_ENC_COUNT_COUNT 20).wr F.HLM_ENC_CFG_CPR 1000) State.reset, by decide +kernel⟩,
    ⟨(fun (s : State) (u : Nat) => (s.ready 4).wr F.HLM_STATUS_SP_STATE 4) State.reset 1000, 1000, by decide +kernel⟩,
    ⟨(fun (s : State) (u : Nat) => (s.ready 4).wr F.HLM_STATUS_SP_STATE 2) State.reset 1000, 1000, by decide +kernel⟩,
    ⟨(fun (s : State) => s.ready 2) State.reset, by decide +kernel⟩,
    ⟨(fun (s : State) => s.ready 2) State.reset, by decide +kernel⟩,
    ⟨(fun (s : State) => ((({ s with hlm := { s.hlm with trLeft := none, trN := 5000 } } : State).ready 2).put F.HLM_TRACE_STATUS_RECORDING true)) State.reset, by decide +kernel⟩⟩

/-- States and operands that meet the hypotheses of each clause of HelmSpindleStates. -/
theorem witness_HelmSpindleStates :
    (∃ (s : State), s.mode ≠ mRESET ∧ s.mode ≠ mSAFESTOP ∧ s.on F.HLM_CTRL_EN = false ∧ s.sp = hBRAKING) ∧
    (∃ (s : State), s.mode ≠ mRESET ∧ s.mode ≠ mSAFESTOP ∧ s.on F.HLM_CTRL_EN = false ∧ s.sp = hOFF) ∧
    (∃ (s : State), s.mode ≠ mRESET ∧ s.mode ≠ mSAFESTOP ∧ s.on F.HLM_CTRL_EN = false ∧ s.sp ≠ hOFF ∧ s.sp ≠ hBRAKING) ∧
    (∃ (s : State), s.mode = mSAFESTOP) ∧
    (∃ (s : State), s.mode ≠ mRESET ∧ s.mode ≠ mSAFESTOP ∧ s.on F.HLM_CTRL_EN = true) ∧
    (∃ (s : State), s.mode ≠ mRESET ∧ s.on F.HLM_CTRL_EN = true) ∧
    (∃ (s : State), s.mode ≠ mRESET ∧ s.on F.HLM_CTRL_EN = false) ∧
    (∃ (s : State) (w : Word), s.mode ≠ mRESET ∧ w.toNat ≤ s.rd F.HLM_SP_LIM_MAX) ∧
    (∃ (s : State) (w : Word), s.mode ≠ mRESET ∧ s.rd F.HLM_SP_LIM_MAX < w.toNat) ∧
    (∃ (s : State), s.sp = hCATCH ∧ s.hlm.law = none) ∧
    (∃ (s : State), (s.sp ≠ hCATCH ∨ s.hlm.law ≠ none)) ∧
    (∃ (s : State), s.mode ≠ mRESET ∧ (s.sp = hLOCKING ∧ s.rd F.HLM_LOCK_CFG_LOCK_DWELL ≤ s.hlm.dwell ∧ s.on F.HLM_STATUS_INDEX_SEEN = true ∧ Word.field (s.page 1 0) 1 0 ≠ 0 ∧ s.on F.HLM_STATUS_LOCK_FLAP = false) ∧ (((if s.hlm.first = true ∧ s.on F.HLM_SWEEP_CFG_REF_SRC = false then 0 else s.rdS F.HLM_MEAS_PHASE_E_PH)).natAbs ≤ s.facetAngle / 4)) ∧
    (∃ (s : State), s.mode ≠ mRESET ∧ (s.sp = hLOCKING ∧ s.rd F.HLM_LOCK_CFG_LOCK_DWELL ≤ s.hlm.dwell ∧ s.on F.HLM_STATUS_INDEX_SEEN = true ∧ Word.field (s.page 1 0) 1 0 ≠ 0 ∧ s.on F.HLM_STATUS_LOCK_FLAP = false) ∧ (s.facetAngle / 4 < ((if s.hlm.first = true ∧ s.on F.HLM_SWEEP_CFG_REF_SRC = false then 0 else s.rdS F.HLM_MEAS_PHASE_E_PH)).natAbs)) ∧
    (∃ (s : State), ¬(s.sp = hLOCKING ∧ s.rd F.HLM_LOCK_CFG_LOCK_DWELL ≤ s.hlm.dwell ∧ s.on F.HLM_STATUS_INDEX_SEEN = true ∧ Word.field (s.page 1 0) 1 0 ≠ 0 ∧ s.on F.HLM_STATUS_LOCK_FLAP = false)) ∧
    (∃ (s : State) (_u : Nat), s.mode ≠ mRESET ∧ s.sp = hLOCKED ∧ 16 ≤ s.hlm.unlockRun) ∧
    (∃ (s : State) (_u : Nat), (s.sp ≠ hLOCKED ∨ s.hlm.unlockRun < 16)) ∧
    (∃ (s : State), s.mode ≠ mRESET) ∧
    (∃ (s : State), s.mode ≠ mRESET ∧ ((s.sp = hBRAKING ∨ (s.sp = hCATCH ∧ s.hlm.catchBrake = true))) ∧ ((s.rdS F.HLM_MEAS_SPEED_OMEGA).natAbs : Int) < 256 * (s.rd F.HLM_BRAKE_LIM_STOP_SPD : Int) ∧ s.hlm.catchBrake = false) ∧
    (∃ (s : State), ((s.sp = hBRAKING ∨ (s.sp = hCATCH ∧ s.hlm.catchBrake = true))) ∧ ((s.rdS F.HLM_MEAS_SPEED_OMEGA).natAbs : Int) < 256 * (s.rd F.HLM_BRAKE_LIM_STOP_SPD : Int) ∧ s.hlm.catchBrake = true) ∧
    (∃ (s : State), (¬(s.sp = hBRAKING ∨ (s.sp = hCATCH ∧ s.hlm.catchBrake = true)) ∨ ¬((s.rdS F.HLM_MEAS_SPEED_OMEGA).natAbs : Int) < 256 * (s.rd F.HLM_BRAKE_LIM_STOP_SPD : Int))) ∧
    (∃ (s : State), s.mode ≠ mRESET ∧ ((s.sp = hBRAKING ∨ (s.sp = hCATCH ∧ s.hlm.catchBrake = true)))) ∧
    (∃ (s : State), (¬(s.sp = hBRAKING ∨ (s.sp = hCATCH ∧ s.hlm.catchBrake = true)))) :=
  ⟨⟨(fun (s : State) => ((({ s with hlm := { s.hlm with catchBrake := false } } : State).ready 4).wr F.HLM_STATUS_SP_STATE 5|>.put F.HLM_CTRL_EN false |>.put F.HLM_STATUS_PENDING_ENABLE false)) State.reset, by decide +kernel⟩,
    ⟨(fun (s : State) => ((({ s with hlm := { s.hlm with catchBrake := false } } : State).ready 4).wr F.HLM_STATUS_SP_STATE 0|>.put F.HLM_CTRL_EN false)) State.reset, by decide +kernel⟩,
    ⟨(fun (s : State) => ((({ s with hlm := { s.hlm with catchBrake := false } } : State).ready 4).wr F.HLM_STATUS_SP_STATE 2|>.put F.HLM_CTRL_EN false)) State.reset, by decide +kernel⟩,
    ⟨(fun (s : State) => s.ready 7) State.reset, by decide +kernel⟩,
    ⟨(fun (s : State) => (s.ready 4).put F.HLM_CTRL_EN true) State.reset, by decide +kernel⟩,
    ⟨(fun (s : State) => ((s.ready 4).wr F.HLM_STATUS_SP_STATE 4).put F.HLM_CTRL_EN true) State.reset, by decide +kernel⟩,
    ⟨(fun (s : State) => (s.ready 4).put F.HLM_CTRL_EN false) State.reset, by decide +kernel⟩,
    ⟨(fun (s : State) (w : Word) => ((s.ready 4).wr F.HLM_STATUS_SP_STATE 4).wr F.HLM_SP_LIM_MAX 0x7FFFFFF) State.reset 1000, 1000, by decide +kernel⟩,
    ⟨(fun (s : State) (w : Word) => s.ready 4) State.reset 0xFFFFFFFF, 0xFFFFFFFF, by decide +kernel⟩,
    ⟨(fun (s : State) => (((({ s with hlm := { s.hlm with law := none } } : State).ready 4).wr F.HLM_STATUS_SP_STATE 1).wr F.HLM_MEAS_SPEED_OMEGA 5000).wr F.HLM_BRAKE_LIM_STOP_SPD 4) State.reset, by decide +kernel⟩,
    ⟨(fun (s : State) => (s.ready 4).wr F.HLM_STATUS_SP_STATE 2) State.reset, by decide +kernel⟩,
    ⟨(fun (s : State) => ((({ s with hlm := { s.hlm with dwell := 0xFFFFFF, first := false, act := [(0x700140, 1)] } } : State).ready 4).wr F.HLM_STATUS_SP_STATE 3|>.put F.HLM_STATUS_INDEX_SEEN true |>.put F.HLM_STATUS_LOCK_FLAP false |>.wr F.HLM_MEAS_PHASE_E_PH 3)) State.reset, by decide +kernel⟩,
    ⟨(fun (s : State) => ((({ s with hlm := { s.hlm with dwell := 0xFFFFFF, first := false, act := [(0x700140, 1)] } } : State).ready 4).wr F.HLM_STATUS_SP_STATE 3|>.put F.HLM_STATUS_INDEX_SEEN true |>.put F.HLM_STATUS_LOCK_FLAP false |>.wr F.HLM_MEAS_PHASE_E_PH 0x60000000)) State.reset, by decide +kernel⟩,
    ⟨(fun (s : State) => (s.ready 4).wr F.HLM_STATUS_SP_STATE 2) State.reset, by decide +kernel⟩,
    ⟨(fun (s : State) (u : Nat) => ((({ s with hlm := { s.hlm with unlockRun := 16 } } : State).ready 4).wr F.HLM_STATUS_SP_STATE 4)) State.reset 1000, 1000, by decide +kernel⟩,
    ⟨(fun (s : State) (u : Nat) => ((({ s with hlm := { s.hlm with unlockRun := 15 } } : State).ready 4).wr F.HLM_STATUS_SP_STATE 4)) State.reset 1000, 1000, by decide +kernel⟩,
    ⟨(fun (s : State) => s.ready 2) State.reset, by decide +kernel⟩,
    ⟨(fun (s : State) => ((({ s with hlm := { s.hlm with catchBrake := false } } : State).ready 4).wr F.HLM_STATUS_SP_STATE 5|>.wr F.HLM_MEAS_SPEED_OMEGA 3 |>.wr F.HLM_BRAKE_LIM_STOP_SPD 4)) State.reset, by decide +kernel⟩,
    ⟨(fun (s : State) => ((({ s with hlm := { s.hlm with catchBrake := true } } : State).ready 4).wr F.HLM_STATUS_SP_STATE 1|>.wr F.HLM_MEAS_SPEED_OMEGA 3 |>.wr F.HLM_BRAKE_LIM_STOP_SPD 4)) State.reset, by decide +kernel⟩,
    ⟨(fun (s : State) => (s.ready 4).wr F.HLM_STATUS_SP_STATE 2) State.reset, by decide +kernel⟩,
    ⟨(fun (s : State) => ((({ s with hlm := { s.hlm with catchBrake := false } } : State).ready 4).wr F.HLM_STATUS_SP_STATE 5)) State.reset, by decide +kernel⟩,
    ⟨(fun (s : State) => (s.ready 4).wr F.HLM_STATUS_SP_STATE 2) State.reset, by decide +kernel⟩⟩

/-- States and operands that meet the hypotheses of each clause of HelmFaults. -/
theorem witness_HelmFaults :
    (∃ (s : State), s.mode ≠ mRESET ∧ (s.sp = hCATCH ∨ s.sp = hSPIN_UP) ∧ 2 ^ 29 ≤ s.hlm.uSp.natAbs) ∧
    (∃ (s : State), ((s.sp ≠ hCATCH ∧ s.sp ≠ hSPIN_UP) ∨ s.hlm.uSp.natAbs < 2 ^ 29)) ∧
    (∃ (s : State), s.mode ≠ mRESET) ∧
    (∃ (s : State), s.mode ≠ mRESET ∧ 2 ≤ s.hlm.hallBad) ∧
    (∃ (s : State), s.hlm.hallBad < 2) ∧
    (∃ (s : State), s.mode ≠ mRESET ∧ 4 ≤ s.hlm.tiltBad ∧ (s.rd F.HLM_FAULT_CAUSE_CAUSE).testBit 4 = false) ∧
    (∃ (s : State), s.mode ≠ mRESET ∧ s.rd F.HLM_TILT_MON_TRACK_DWELL ≤ s.hlm.trackRun) ∧
    (∃ (s : State), s.mode = mRESET) ∧
    (∃ (s : State), (s.hlm.tiltBad < 4 ∨ (s.rd F.HLM_FAULT_CAUSE_CAUSE).testBit 4 = true)) ∧
    (∃ (s : State), s.hlm.trackRun < s.rd F.HLM_TILT_MON_TRACK_DWELL) ∧
    (∃ (s : State), s.mode ≠ mRESET ∧ ((s.rd F.HLM_FAULT_CAUSE_CAUSE).testBit 0 = false ∨ s.hlm.faultLow = false)) ∧
    (∃ (s : State), s.mode ≠ mRESET ∧ (s.rd F.HLM_FAULT_CAUSE_CAUSE).testBit 0 = true ∧ s.hlm.faultLow = true) :=
  ⟨⟨(fun (s : State) => ((({ s with hlm := { s.hlm with uSp := 2 ^ 30 } } : State).ready 4).wr F.HLM_STATUS_SP_STATE 2)) State.reset, by decide +kernel⟩,
    ⟨State.reset, by decide +kernel⟩,
    ⟨(fun (s : State) => s.ready 4) State.reset, by decide +kernel⟩,
    ⟨(fun (s : State) => ((({ s with hlm := { s.hlm with hallBad := 2 } } : State).ready 4))) State.reset, by decide +kernel⟩,
    ⟨(fun (s : State) => ((({ s with hlm := { s.hlm with hallBad := 1 } } : State).ready 4))) State.reset, by decide +kernel⟩,
    ⟨(fun (s : State) => ((({ s with hlm := { s.hlm with tiltBad := 4 } } : State).ready 4).wr F.HLM_FAULT_CAUSE_CAUSE 1)) State.reset, by decide +kernel⟩,
    ⟨(fun (s : State) => ((({ s with hlm := { s.hlm with trackRun := 2 ^ 20 } } : State).ready 4))) State.reset, by decide +kernel⟩,
    ⟨(fun (s : State) => inMode 0) State.reset, by decide +kernel⟩,
    ⟨(fun (s : State) => ((({ s with hlm := { s.hlm with tiltBad := 3 } } : State).ready 4))) State.reset, by decide +kernel⟩,
    ⟨(fun (s : State) => ((({ s with hlm := { s.hlm with trackRun := 0 } } : State).ready 4).wr F.HLM_TILT_MON_TRACK_DWELL 5)) State.reset, by decide +kernel⟩,
    ⟨(fun (s : State) => ((({ s with hlm := { s.hlm with faultLow := false } } : State).ready 4))) State.reset, by decide +kernel⟩,
    ⟨(fun (s : State) => ((({ s with hlm := { s.hlm with faultLow := true } } : State).ready 4).wr F.HLM_FAULT_CAUSE_CAUSE 1)) State.reset, by decide +kernel⟩⟩

/-- States and operands that meet the hypotheses of each clause of HedgeMotion. -/
theorem witness_HedgeMotion :
    (∃ (s : State) (a : Bool) (b : Bool), quad s.hdg.encA s.hdg.encB a b = none) ∧
    (∃ (s : State) (a : Bool) (b : Bool) (k : Nat), quad s.hdg.encA s.hdg.encB a b = some k ∧ (k = 1 ∨ k = 2) ∧ ((k == 2) == s.on F.HDG_LIM_MISC_DIR) = true) ∧
    (∃ (s : State) (a : Bool) (b : Bool) (k : Nat), quad s.hdg.encA s.hdg.encB a b = some k ∧ (k = 1 ∨ k = 2) ∧ ((k == 2) == s.on F.HDG_LIM_MISC_DIR) = false ∧ (s.armed = false ∨ s.hdg.dirCount + 1 < s.rd F.HDG_LIM_MISC_DIR_LIMIT)) ∧
    (∃ (s : State) (a : Bool) (b : Bool) (k : Nat), quad s.hdg.encA s.hdg.encB a b = some k ∧ (k = 1 ∨ k = 2) ∧ ((k == 2) == s.on F.HDG_LIM_MISC_DIR) = false ∧ s.armed = true ∧ s.rd F.HDG_LIM_MISC_DIR_LIMIT ≤ s.hdg.dirCount + 1) ∧
    (∃ (s : State) (a : Bool) (b : Bool), quad s.hdg.encA s.hdg.encB a b = some 0) ∧
    (∃ (s : State) (_err : Int), s.sys.relock = false ∧ s.hdg.suspended = 0) ∧
    (∃ (s : State) (_err : Int), s.hdg.encBad = 2 ∧ (let d := (if s.on F.HDG_LIM_MISC_DIR then s.hdg.helmLast - s.hlm.travel else s.hlm.travel - s.hdg.helmLast); 2 + (clip (-32768) 32767 s.hdg.frame).natAbs / 64 < (clip (-32768) 32767 s.hdg.frame - d).natAbs)) ∧
    (∃ (s : State) (err : Int), s.armed = true ∧ 1 ≤ s.hdg.speedOut ∧ (s.sys.relock = true ∨ s.hdg.suspended ≠ 0 ∨ err.natAbs ≤ 500 ∨ s.hdg.rcBad = 0) ∧ s.hdg.encBad ≤ 1 ∧ (clip (-32768) 32767 s.hdg.frame < s.speedMin ∨ (s.speedMax : Int) < clip (-32768) 32767 s.hdg.frame)) ∧
    (∃ (s : State), s.mode ≠ mRESET ∧ s.gst = gARMING ∧ s.hdg.good = 50 ∧ s.hdg.dirCount = 0 ∧ s.hdg.spoiled = false ∧ s.presentMask = 0) ∧
    (∃ (s : State), ¬(s.gst = gARMING ∧ s.hdg.good = 50 ∧ s.hdg.dirCount = 0 ∧ s.hdg.spoiled = false ∧ s.presentMask = 0)) ∧
    (∃ (s : State), s.latched = false ∧ s.hedgeReq = true ∧ s.gst = gIDLE) ∧
    (∃ (s : State), s.hedgeReq = false ∧ (s.gst = gARMING ∨ s.gst = gRELEASED ∨ s.gst = gBLANKED)) ∧
    (∃ (s : State), ((s.hedgeReq = true ∧ (s.gst ≠ gIDLE ∨ s.latched = true)) ∨ (s.hedgeReq = false ∧ ¬(s.gst = gARMING ∨ s.gst = gRELEASED ∨ s.gst = gBLANKED)))) ∧
    (∃ (s : State) (code : Fin 1024), s.armed = true ∧ s.posInside code = false ∧ 1 ≤ s.hdg.posOut) ∧
    (∃ (s : State) (code : Fin 1024), s.mode ≠ mRESET ∧ s.gst = gRELEASED ∧ (s.posInside code = true ∨ s.hdg.posOut = 0) ∧ s.fovInside code = false) ∧
    (∃ (s : State) (code : Fin 1024), s.gst = gBLANKED ∧ (s.posInside code = true ∨ s.hdg.posOut = 0)) ∧
    (∃ (s : State) (code : Fin 1024), (s.armed = false ∨ (s.gst = gRELEASED ∧ s.fovInside code = true ∧ (s.posInside code = true ∨ s.hdg.posOut = 0)))) ∧
    (∃ (s : State), s.gst = gBLANKED) ∧
    (∃ (s : State), s.gst ≠ gBLANKED) :=
  ⟨⟨(fun (s : State) (a : Bool) (b : Bool) => ((((({ s with hdg := { s.hdg with encA := a, encB := b } } : State).ready 2).put F.HDG_STATUS_LATCH false).wr F.SYS_CLK_STATUS_MAIN_LOCK 1))) State.reset true false, true, false, by decide +kernel⟩,
    ⟨(fun (s : State) (a : Bool) (b : Bool) (k : Nat) => ((((({ s with hdg := { s.hdg with encA := false, encB := false } } : State).ready 2).put F.HDG_STATUS_LATCH false).wr F.SYS_CLK_STATUS_MAIN_LOCK 1).put F.HDG_LIM_MISC_DIR (k == 2))) State.reset true false 1, true, false, 1, by decide +kernel⟩,
    ⟨(fun (s : State) (a : Bool) (b : Bool) (k : Nat) => ((((({ s with hdg := { s.hdg with encA := false, encB := false } } : State).ready 2).put F.HDG_STATUS_LATCH false).wr F.SYS_CLK_STATUS_MAIN_LOCK 1).put F.HDG_LIM_MISC_DIR (k == 1))) State.reset true false 1, true, false, 1, by decide +kernel⟩,
    ⟨(fun (s : State) (a : Bool) (b : Bool) (k : Nat) => ((((({ s with hdg := { s.hdg with encA := false, encB := false, dirCount := 4, liBad := false } } : State).ready 2).put F.HDG_STATUS_LATCH false).wr F.SYS_CLK_STATUS_MAIN_LOCK 1).put F.HDG_LIM_MISC_DIR (k == 1) |>.wr F.HDG_STATUS_STATE 2 |>.wr F.HDG_LIM_MISC_DIR_LIMIT 5)) State.reset true false 1, true, false, 1, by decide +kernel⟩,
    ⟨(fun (s : State) (a : Bool) (b : Bool) => ((((({ s with hdg := { s.hdg with encA := false, encB := false, illegal := 3 } } : State).ready 2).put F.HDG_STATUS_LATCH false).wr F.SYS_CLK_STATUS_MAIN_LOCK 1))) State.reset true true, true, true, by decide +kernel⟩,
    ⟨(fun (s : State) (err : Int) => ((((({ s with hdg := { s.hdg with suspended := 0, rcBad := 1 } } : State).ready 2).put F.HDG_STATUS_LATCH false).wr F.SYS_CLK_STATUS_MAIN_LOCK 1))) State.reset 600, 600, by decide +kernel⟩,
    ⟨(fun (s : State) (err : Int) => ((((({ s with hdg := { s.hdg with encBad := 2, frame := 4000 } } : State).ready 2).put F.HDG_STATUS_LATCH false).wr F.SYS_CLK_STATUS_MAIN_LOCK 1))) State.reset 0, 0, by decide +kernel⟩,
    ⟨(fun (s : State) (err : Int) => ((((({ s with hdg := { s.hdg with frame := 3000, speedOut := 1, suspended := (if err % 2 = 0 then 1 else 0), rcBad := 0, encBad := 1 } } : State).ready 2).put F.HDG_STATUS_LATCH false).wr F.SYS_CLK_STATUS_MAIN_LOCK 1).wr F.HDG_LIM_SPEED_MIN 100 |>.wr F.HDG_LIM_SPEED_MAX 2000 |>.wr F.HDG_HOST_SPEED_MAX_H 2000 |>.wr F.HDG_HOST_SPEED_MIN_H 100 |>.wr F.HDG_STATUS_STATE 2)) State.reset 100, 100, by decide +kernel⟩,
    ⟨(fun (s : State) => ((((({ s with hdg := { s.hdg with good := 50, dirCount := 0, spoiled := false, rcBad := 0, strapBad := false, limitBad := false, liBad := false, timed := [] } } : State).ready 4).put F.HDG_STATUS_LATCH false).wr F.SYS_CLK_STATUS_MAIN_LOCK 1).wr F.HDG_STATUS_STATE 1)) State.reset, by decide +kernel⟩,
    ⟨(fun (s : State) => ((((({ s with hdg := { s.hdg with good := 49 } } : State).ready 4).put F.HDG_STATUS_LATCH false).wr F.SYS_CLK_STATUS_MAIN_LOCK 1).wr F.HDG_STATUS_STATE 1)) State.reset, by decide +kernel⟩,
    ⟨(fun (s : State) => (({ s with sys := { s.sys with testEn := false } } : State).ready 4).put F.HDG_STATUS_LATCH false|>.wr F.HDG_STATUS_STATE 0) State.reset, by decide +kernel⟩,
    ⟨(fun (s : State) => ((((({ s with hdg := { s.hdg with good := 5 } } : State).ready 2).put F.HDG_STATUS_LATCH false).wr F.SYS_CLK_STATUS_MAIN_LOCK 1).wr F.HDG_STATUS_STATE 2)) State.reset, by decide +kernel⟩,
    ⟨(fun (s : State) => ((((({ s with hdg := { s.hdg with good := 5 } } : State).ready 2).put F.HDG_STATUS_LATCH false).wr F.SYS_CLK_STATUS_MAIN_LOCK 1).wr F.HDG_STATUS_STATE 4)) State.reset, by decide +kernel⟩,
    ⟨(fun (s : State) (code : Fin 1024) => ((((({ s with hdg := { s.hdg with posOut := 1 } } : State).ready 4).put F.HDG_STATUS_LATCH false).wr F.SYS_CLK_STATUS_MAIN_LOCK 1).wr F.HDG_STATUS_STATE 2 |>.wr F.HDG_LIM_POS_MIN 600 |>.wr F.HDG_LIM_POS_MAX 500)) State.reset 100, 100, by decide +kernel⟩,
    ⟨(fun (s : State) (code : Fin 1024) => ((((({ s with hdg := { s.hdg with posOut := 0 } } : State).ready 4).put F.HDG_STATUS_LATCH false).wr F.SYS_CLK_STATUS_MAIN_LOCK 1).wr F.HDG_STATUS_STATE 2 |>.wr F.HDG_LIM_FOV_MIN 600 |>.wr F.HDG_LIM_FOV_MAX 500)) State.reset 100, 100, by decide +kernel⟩,
    ⟨(fun (s : State) (code : Fin 1024) => ((((({ s with hdg := { s.hdg with posOut := 0 } } : State).ready 4).put F.HDG_STATUS_LATCH false).wr F.SYS_CLK_STATUS_MAIN_LOCK 1).wr F.HDG_STATUS_STATE 3 |>.wr F.HDG_LIM_FOV_MIN 0 |>.wr F.HDG_LIM_FOV_MAX 1023)) State.reset 100, 100, by decide +kernel⟩,
    ⟨(fun (s : State) (code : Fin 1024) => ((((({ s with hdg := { s.hdg with posOut := 0 } } : State).ready 2).put F.HDG_STATUS_LATCH false).wr F.SYS_CLK_STATUS_MAIN_LOCK 1).wr F.HDG_STATUS_STATE 0)) State.reset 100, 100, by decide +kernel⟩,
    ⟨(fun (s : State) => ((((({ s with hdg := { s.hdg with posOut := 0 } } : State).ready 4).put F.HDG_STATUS_LATCH false).wr F.SYS_CLK_STATUS_MAIN_LOCK 1).wr F.HDG_STATUS_STATE 3)) State.reset, by decide +kernel⟩,
    ⟨(fun (s : State) => ((((({ s with hdg := { s.hdg with posOut := 0 } } : State).ready 4).put F.HDG_STATUS_LATCH false).wr F.SYS_CLK_STATUS_MAIN_LOCK 1).wr F.HDG_STATUS_STATE 2)) State.reset, by decide +kernel⟩⟩

/-- States and operands that meet the hypotheses of each clause of HedgeBudgetTripsAndReset. -/
theorem witness_HedgeBudgetTripsAndReset :
    (∃ (s : State) (id : Nat) (rows : Nat) (cols : Nat) (pw : Nat) (pu : Nat) (q : List PowerEntry), s.hdg.queue = .shot id rows cols pw pu :: q ∧ (s.armed = false ∨ ¬ (∃ z ∈ List.range 288, (cols.testBit (z / 18) && rows.testBit (z % 18)) = true ∧ s.budget < (s.hd fun h => { h with books := (if rows = 0 ∨ cols = 0 ∨ energyOf pw * pu = 0 then s.hdg.books else s.hdg.books ++ [{ id := id, rows := rows, cols := cols, energy := energyOf pw * pu }]) }).zoneSum z))) ∧
    (∃ (s : State) (id : Nat) (rows : Nat) (cols : Nat) (pw : Nat) (pu : Nat) (q : List PowerEntry), s.hdg.queue = .shot id rows cols pw pu :: q ∧ s.armed = true ∧ ((∃ z ∈ List.range 288, (cols.testBit (z / 18) && rows.testBit (z % 18)) = true ∧ s.budget < (s.hd fun h => { h with books := (if rows = 0 ∨ cols = 0 ∨ energyOf pw * pu = 0 then s.hdg.books else s.hdg.books ++ [{ id := id, rows := rows, cols := cols, energy := energyOf pw * pu }]) }).zoneSum z))) ∧
    (∃ (s : State), (match s.hdg.queue with | .shot _ _ _ _ _ :: _ => false | _ => true) = true) ∧
    (∃ (s : State), (match s.hdg.queue with | .correction _ :: _ => false | _ => true) = true) ∧
    (∃ (s : State) (id : Nat) (q : List PowerEntry), s.hdg.queue = .correction id :: q) ∧
    (∃ (s : State) (level : Bool), level ≠ (s.gst == gRELEASED && !s.jtagHold)) ∧
    (∃ (s : State) (level : Bool), level = (s.gst == gRELEASED && !s.jtagHold)) ∧
    (∃ (s : State) (m : Nat), s.latched = true ∧ s.hdg.tripMag = some m ∧ s.hdg.fell = false) ∧
    (∃ (s : State), (s.latched = false ∨ s.hdg.tripMag = none ∨ s.hdg.fell = true)) ∧
    (∃ (s : State) (straps : Fin 64) (floats : Fin 64), (floats ≠ 0 ∨ straps.val ≠ s.rd F.HDG_STRAPS_SEAL)) ∧
    (∃ (s : State) (straps : Fin 64) (floats : Fin 64), floats = 0 ∧ straps.val = s.rd F.HDG_STRAPS_SEAL) ∧
    (∃ (s : State) (upset : Bool), (upset = true ∨ s.hdg.rowsOk = false)) ∧
    (∃ (s : State), s.hdg.rowsOk = true) ∧
    (∃ (s : State), s.mode ≠ mRESET ∧ s.on F.HDG_STATUS_SEAL_LOCK = false) ∧
    (∃ (s : State), s.mode ≠ mRESET ∧ s.on F.HDG_STATUS_SEAL_LOCK = true) ∧
    (∃ (s : State) (_u : Nat), s.hdg.button = false) ∧
    (∃ (s : State) (_u : Nat), s.hdg.button = true) ∧
    (∃ (s : State) (_u : Nat), s.hdg.button = false ∧ (s.rd F.HDG_STATUS_RST_PHASE = 0 ∨ s.rd F.HDG_STATUS_RST_PHASE = 2)) ∧
    (∃ (s : State) (_u : Nat), s.hdg.button = true ∧ (s.latched = true ∧ (s.rd F.HDG_STATUS_RST_PHASE = 0 ∨ s.rd F.HDG_STATUS_RST_PHASE = 2))) ∧
    (∃ (s : State) (_u : Nat), s.hdg.button = true ∧ (s.latched = false ∨ (s.rd F.HDG_STATUS_RST_PHASE ≠ 0 ∧ s.rd F.HDG_STATUS_RST_PHASE ≠ 2))) ∧
    (∃ (s : State) (u : Nat), s.hdg.button = false ∧ s.rd F.HDG_STATUS_RST_PHASE = 1 ∧ 20000000000 ≤ u - s.hdg.edgeAt ∧ u - s.hdg.edgeAt ≤ 4000000000000) ∧
    (∃ (s : State) (u : Nat), s.hdg.button = false ∧ ((s.rd F.HDG_STATUS_RST_PHASE = 1 ∧ (u - s.hdg.edgeAt < 20000000000 ∨ 4000000000000 < u - s.hdg.edgeAt)) ∨ s.rd F.HDG_STATUS_RST_PHASE = 3)) ∧
    (∃ (s : State), s.mode ≠ mRESET ∧ s.rd F.HDG_STATUS_RST_PHASE = 1) ∧
    (∃ (s : State), s.rd F.HDG_STATUS_RST_PHASE ≠ 1) ∧
    (∃ (s : State), s.rd F.HDG_STATUS_RST_PHASE = 2 ∧ s.on F.HDG_STATUS_CLEAR = true) ∧
    (∃ (s : State), s.mode ≠ mRESET ∧ s.rd F.HDG_STATUS_RST_PHASE = 2 ∧ s.on F.HDG_STATUS_CLEAR = false) ∧
    (∃ (s : State), s.rd F.HDG_STATUS_RST_PHASE ≠ 2) :=
  ⟨⟨(fun (s : State) (id : Nat) (rows : Nat) (cols : Nat) (pw : Nat) (pu : Nat) (q : List PowerEntry) => ((((({ s with hdg := { s.hdg with queue := .shot id rows cols pw pu :: q } } : State).ready 4).put F.HDG_STATUS_LATCH false).wr F.SYS_CLK_STATUS_MAIN_LOCK 1).wr F.HDG_STATUS_STATE 0)) State.reset 5 1 1 200 2 [], 5, 1, 1, 200, 2, [], by decide +kernel⟩,
    ⟨(fun (s : State) (id : Nat) (rows : Nat) (cols : Nat) (pw : Nat) (pu : Nat) (q : List PowerEntry) => ((((({ s with hdg := { s.hdg with queue := .shot id rows cols pw pu :: q } } : State).ready 4).put F.HDG_STATUS_LATCH false).wr F.SYS_CLK_STATUS_MAIN_LOCK 1).wr F.HDG_STATUS_STATE 2 |>.wr F.HDG_LIM_BUDGET_BUDGET 100)) State.reset 5 1 1 255 2 [], 5, 1, 1, 255, 2, [], by decide +kernel⟩,
    ⟨(fun (s : State) => ((((({ s with hdg := { s.hdg with queue := [] } } : State).ready 2).put F.HDG_STATUS_LATCH false).wr F.SYS_CLK_STATUS_MAIN_LOCK 1))) State.reset, by decide +kernel⟩,
    ⟨(fun (s : State) => ((((({ s with hdg := { s.hdg with queue := [] } } : State).ready 2).put F.HDG_STATUS_LATCH false).wr F.SYS_CLK_STATUS_MAIN_LOCK 1))) State.reset, by decide +kernel⟩,
    ⟨(fun (s : State) (id : Nat) (q : List PowerEntry) => ((((({ s with hdg := { s.hdg with queue := .correction id :: q } } : State).ready 2).put F.HDG_STATUS_LATCH false).wr F.SYS_CLK_STATUS_MAIN_LOCK 1))) State.reset 5 [], 5, [], by decide +kernel⟩,
    ⟨(fun (s : State) (level : Bool) => ((((({ s with hdg := { s.hdg with liBad := false } } : State).ready 2).put F.HDG_STATUS_LATCH false).wr F.SYS_CLK_STATUS_MAIN_LOCK 1).wr F.HDG_STATUS_STATE 0)) State.reset true, true, by decide +kernel⟩,
    ⟨(fun (s : State) (level : Bool) => ((((({ s with hdg := { s.hdg with liBad := false } } : State).ready 2).put F.HDG_STATUS_LATCH false).wr F.SYS_CLK_STATUS_MAIN_LOCK 1).wr F.HDG_STATUS_STATE 0)) State.reset false, false, by decide +kernel⟩,
    ⟨(fun (s : State) (m : Nat) => ((((({ s with hdg := { s.hdg with tripMag := some m, fell := false } } : State).ready 7).put F.HDG_STATUS_LATCH false).wr F.SYS_CLK_STATUS_MAIN_LOCK 1).put F.HDG_STATUS_LATCH true)) State.reset 5, 5, by decide +kernel⟩,
    ⟨(fun (s : State) => ((((({ s with hdg := { s.hdg with fell := true } } : State).ready 2).put F.HDG_STATUS_LATCH false).wr F.SYS_CLK_STATUS_MAIN_LOCK 1))) State.reset, by decide +kernel⟩,
    ⟨(fun (s : State) (straps : Fin 64) (floats : Fin 64) => ((((({ s with hdg := { s.hdg with strapBad := false } } : State).ready 2).put F.HDG_STATUS_LATCH false).wr F.SYS_CLK_STATUS_MAIN_LOCK 1).wr F.HDG_STRAPS_SEAL 1)) State.reset 5 0, 5, 0, by decide +kernel⟩,
    ⟨(fun (s : State) (straps : Fin 64) (floats : Fin 64) => ((((({ s with hdg := { s.hdg with strapBad := true } } : State).ready 2).put F.HDG_STATUS_LATCH false).wr F.SYS_CLK_STATUS_MAIN_LOCK 1).wr F.HDG_STRAPS_SEAL straps)) State.reset 5 0, 5, 0, by decide +kernel⟩,
    ⟨(fun (s : State) (upset : Bool) => ((((({ s with hdg := { s.hdg with limitBad := false } } : State).ready 2).put F.HDG_STATUS_LATCH false).wr F.SYS_CLK_STATUS_MAIN_LOCK 1))) State.reset true, true, by decide +kernel⟩,
    ⟨(fun (s : State) => s.hd fun h => { h with speedRow := some (crc32c (bytesOf 8 0) * 2 ^ 64), tiltRow := some (2 ^ 40 + crc32c (bytesOf 6 (2 ^ 40)) * 2 ^ 48), commonRow := some (1 + crc32c (bytesOf 1 1) * 2 ^ 8) }) State.reset, by decide +kernel⟩,
    ⟨(fun (s : State) => ((((({ s with hdg := { s.hdg with liBad := false } } : State).ready 2).put F.HDG_STATUS_LATCH false).wr F.SYS_CLK_STATUS_MAIN_LOCK 1))|>.put F.HDG_STATUS_SEAL_LOCK false) State.reset, by decide +kernel⟩,
    ⟨(fun (s : State) => ((((({ s with hdg := { s.hdg with liBad := false } } : State).ready 2).put F.HDG_STATUS_LATCH false).wr F.SYS_CLK_STATUS_MAIN_LOCK 1))|>.put F.HDG_STATUS_SEAL_LOCK true) State.reset, by decide +kernel⟩,
    ⟨(fun (s : State) (u : Nat) => ((((({ s with hdg := { s.hdg with button := false } } : State).ready 7).put F.HDG_STATUS_LATCH false).wr F.SYS_CLK_STATUS_MAIN_LOCK 1))) State.reset 1000, 1000, by decide +kernel⟩,
    ⟨(fun (s : State) (u : Nat) => ((((({ s with hdg := { s.hdg with button := true } } : State).ready 7).put F.HDG_STATUS_LATCH false).wr F.SYS_CLK_STATUS_MAIN_LOCK 1))) State.reset 1000, 1000, by decide +kernel⟩,
    ⟨(fun (s : State) (u : Nat) => ((((({ s with hdg := { s.hdg with button := false } } : State).ready 7).put F.HDG_STATUS_LATCH false).wr F.SYS_CLK_STATUS_MAIN_LOCK 1).wr F.HDG_STATUS_RST_PHASE 0)) State.reset 1000, 1000, by decide +kernel⟩,
    ⟨(fun (s : State) (u : Nat) => ((((({ s with hdg := { s.hdg with button := true } } : State).ready 7).put F.HDG_STATUS_LATCH false).wr F.SYS_CLK_STATUS_MAIN_LOCK 1).wr F.HDG_STATUS_RST_PHASE 0|>.put F.HDG_STATUS_LATCH true)) State.reset 1000, 1000, by decide +kernel⟩,
    ⟨(fun (s : State) (u : Nat) => ((((({ s with hdg := { s.hdg with button := true } } : State).ready 2).put F.HDG_STATUS_LATCH false).wr F.SYS_CLK_STATUS_MAIN_LOCK 1).wr F.HDG_STATUS_RST_PHASE 0)) State.reset 1000, 1000, by decide +kernel⟩,
    ⟨(fun (s : State) (u : Nat) => ((((({ s with hdg := { s.hdg with button := false, edgeAt := 5 } } : State).ready 7).put F.HDG_STATUS_LATCH false).wr F.SYS_CLK_STATUS_MAIN_LOCK 1).wr F.HDG_STATUS_RST_PHASE 1)) State.reset 30000000000, 30000000000, by decide +kernel⟩,
    ⟨(fun (s : State) (u : Nat) => ((((({ s with hdg := { s.hdg with button := false, edgeAt := 5 } } : State).ready 7).put F.HDG_STATUS_LATCH false).wr F.SYS_CLK_STATUS_MAIN_LOCK 1).wr F.HDG_STATUS_RST_PHASE 1)) State.reset 3000, 3000, by decide +kernel⟩,
    ⟨(fun (s : State) => ((((({ s with hdg := { s.hdg with button := false } } : State).ready 7).put F.HDG_STATUS_LATCH false).wr F.SYS_CLK_STATUS_MAIN_LOCK 1).wr F.HDG_STATUS_RST_PHASE 1)) State.reset, by decide +kernel⟩,
    ⟨(fun (s : State) => ((((({ s with hdg := { s.hdg with button := false } } : State).ready 7).put F.HDG_STATUS_LATCH false).wr F.SYS_CLK_STATUS_MAIN_LOCK 1).wr F.HDG_STATUS_RST_PHASE 0)) State.reset, by decide +kernel⟩,
    ⟨(fun (s : State) => ((((({ s with hdg := { s.hdg with button := false } } : State).ready 7).put F.HDG_STATUS_LATCH false).wr F.SYS_CLK_STATUS_MAIN_LOCK 1).wr F.HDG_STATUS_RST_PHASE 2|>.put F.HDG_STATUS_LATCH true |>.put F.HDG_STATUS_CLEAR true |>.put F.BOOT_STATUS_IMAGE_VALID true |>.wr F.HDG_STATUS_STATE 4)) State.reset, by decide +kernel⟩,
    ⟨(fun (s : State) => ((((({ s with hdg := { s.hdg with button := false } } : State).ready 7).put F.HDG_STATUS_LATCH false).wr F.SYS_CLK_STATUS_MAIN_LOCK 1).wr F.HDG_STATUS_RST_PHASE 2|>.put F.HDG_STATUS_CLEAR false)) State.reset, by decide +kernel⟩,
    ⟨(fun (s : State) => ((((({ s with hdg := { s.hdg with button := false } } : State).ready 7).put F.HDG_STATUS_LATCH false).wr F.SYS_CLK_STATUS_MAIN_LOCK 1).wr F.HDG_STATUS_RST_PHASE 1)) State.reset, by decide +kernel⟩⟩

/-- States and operands that meet the hypotheses of each clause of MeridianMaster. -/
theorem witness_MeridianMaster :
    (∃ (s : State), s.reaches ∧ s.on F.MER_CTRL_EN = false) ∧
    (∃ (s : State), s.reaches ∧ s.on F.MER_CTRL_EN = true) ∧
    (∃ (s : State) (_u : Nat), s.listening = true ∧ s.on F.MER_STATUS_ID_CONFLICT = false) ∧
    (∃ (s : State) (_u : Nat), (s.listening = false ∨ s.on F.MER_STATUS_ID_CONFLICT = true)) ∧
    (∃ (s : State), s.reaches ∧ s.unit = 0 ∧ s.on F.MER_CTRL_EN = true) ∧
    (∃ (s : State), s.reaches ∧ (s.unit ≠ 0 ∨ s.on F.MER_CTRL_EN = false)) ∧
    (∃ (s : State), s.reaches ∧ s.bst = bMASTER) ∧
    (∃ (s : State), s.reaches ∧ s.bst ≠ bMASTER) ∧
    (∃ (s : State) (_u : Nat), s.bst = bMASTER ∧ s.on F.MER_EPOCH_CFG_SRC = false) ∧
    (∃ (s : State) (_u : Nat), s.bst = bMASTER ∧ s.on F.MER_EPOCH_CFG_SRC = true ∧ s.on F.LNK_PTP_STATUS_SYNCED = true) ∧
    (∃ (s : State) (_u : Nat), s.bst = bMASTER ∧ s.on F.MER_EPOCH_CFG_SRC = true ∧ s.on F.LNK_PTP_STATUS_SYNCED = false) ∧
    (∃ (s : State) (_u : Nat), s.bst ≠ bMASTER) ∧
    (∃ (s : State) (i : Fin 8), s.bst = bMASTER ∧ (s.mer.lastPing + 1 + i.val) % 8 ≠ 0 ∧ (s.rd F.MER_CFG_UNITS).testBit ((s.mer.lastPing + 1 + i.val) % 8) = true ∧ s.mer.conflicts.testBit ((s.mer.lastPing + 1 + i.val) % 8) = false ∧ (∀ j : Fin 8, j < i → ¬((s.mer.lastPing + 1 + j.val) % 8 ≠ 0 ∧ (s.rd F.MER_CFG_UNITS).testBit ((s.mer.lastPing + 1 + j.val) % 8) = true ∧ s.mer.conflicts.testBit ((s.mer.lastPing + 1 + j.val) % 8) = false))) ∧
    (∃ (s : State), (s.bst ≠ bMASTER ∨ ∀ v : Fin 8, ¬(v.val ≠ 0 ∧ (s.rd F.MER_CFG_UNITS).testBit (v.val) = true ∧ s.mer.conflicts.testBit (v.val) = false))) ∧
    (∃ (s : State) (_u : Nat) (_a : Nat) (d : MerDue) (rest : List MerDue), s.bst = bMASTER ∧ s.mer.ping = none ∧ takeFirst s.mer.due = some (d, rest) ∧ d.kind ≠ .ping) ∧
    (∃ (s : State) (_u : Nat) (_a : Nat) (d : MerDue) (rest : List MerDue), s.bst = bMASTER ∧ s.mer.ping = none ∧ takeFirst s.mer.due = some (d, rest) ∧ d.kind = .ping) ∧
    (∃ (s : State) (_u : Nat) (_a : Nat), (s.bst ≠ bMASTER ∨ s.mer.ping ≠ none ∨ s.mer.due = [])) ∧
    (∃ (s : State) (unit : Fin 8) (seed : BitVec 16) (_r : BitVec 16) (_d : Nat) (a : Nat), s.listening = false ∧ s.mer.ping = some (unit.val, a) ∧ (Tab.get (fun _ => 0) s.mer.seeds unit.val = 0 ∨ Tab.get (fun _ => 0) s.mer.seeds unit.val = seed.toNat + 1)) ∧
    (∃ (s : State) (unit : Fin 8) (seed : BitVec 16) (_r : BitVec 16) (_d : Nat) (a : Nat), s.listening = false ∧ s.mer.ping = some (unit.val, a) ∧ (Tab.get (fun _ => 0) s.mer.seeds unit.val ≠ 0 ∧ Tab.get (fun _ => 0) s.mer.seeds unit.val ≠ seed.toNat + 1)) ∧
    (∃ (s : State) (unit : Fin 8) (_seed : BitVec 16) (_r : BitVec 16) (_d : Nat), s.listening = false ∧ ((s.mer.ping.all fun p => p.1 != unit.val) = true)) ∧
    (∃ (s : State) (_unit : Fin 8) (_seed : BitVec 16) (_r : BitVec 16) (_d : Nat), s.listening = true) ∧
    (∃ (s : State) (u : Fin 8), s.bst = bMASTER ∧ (64 ≤ Tab.get (fun _ => 0) s.mer.pongs u.val ∧ ∀ v : Fin 8, v < u → Tab.get (fun _ => 0) s.mer.pongs v.val < 64)) ∧
    (∃ (s : State), (s.bst ≠ bMASTER ∨ ∀ v : Fin 8, Tab.get (fun _ => 0) s.mer.pongs v.val < 64)) ∧
    (∃ (s : State), s.bst ≠ bOFF ∧ s.mer.ping = none) ∧
    (∃ (s : State) (u : Nat) (a : Nat), s.bst ≠ bOFF ∧ s.mer.ping = some (u, a)) ∧
    (∃ (s : State), s.bst = bOFF) :=
  ⟨⟨(fun (s : State) => (((({ s with mer := { s.mer with due := [] } } : State).ready 2).wr F.MER_STATUS_STATE 0).wr F.MER_STATUS_ID 0 |>.put F.MER_CTRL_EN false)) State.reset, by decide +kernel⟩,
    ⟨(fun (s : State) => (((({ s with mer := { s.mer with due := [] } } : State).ready 2).wr F.MER_STATUS_STATE 0).wr F.MER_STATUS_ID 0 |>.put F.MER_CTRL_EN true)) State.reset, by decide +kernel⟩,
    ⟨(fun (s : State) (u : Nat) => (((({ s with mer := { s.mer with due := [] } } : State).ready 2).wr F.MER_STATUS_STATE 1).wr F.MER_STATUS_ID 0 |>.put F.MER_STATUS_ID_CONFLICT false)) State.reset 1000, 1000, by decide +kernel⟩,
    ⟨(fun (s : State) (u : Nat) => (((({ s with mer := { s.mer with due := [] } } : State).ready 2).wr F.MER_STATUS_STATE 1).wr F.MER_STATUS_ID 1)) State.reset 1000, 1000, by decide +kernel⟩,
    ⟨(fun (s : State) => (((({ s with mer := { s.mer with due := [] } } : State).ready 2).wr F.MER_STATUS_STATE 5).wr F.MER_STATUS_ID 0 |>.put F.MER_CTRL_EN true)) State.reset, by decide +kernel⟩,
    ⟨(fun (s : State) => (((({ s with mer := { s.mer with due := [] } } : State).ready 2).wr F.MER_STATUS_STATE 5).wr F.MER_STATUS_ID 3 |>.put F.MER_CTRL_EN true)) State.reset, by decide +kernel⟩,
    ⟨(fun (s : State) => (((({ s with mer := { s.mer with due := [] } } : State).ready 2).wr F.MER_STATUS_STATE 5).wr F.MER_STATUS_ID 0)) State.reset, by decide +kernel⟩,
    ⟨(fun (s : State) => (((({ s with mer := { s.mer with due := [] } } : State).ready 2).wr F.MER_STATUS_STATE 3).wr F.MER_STATUS_ID 1)) State.reset, by decide +kernel⟩,
    ⟨(fun (s : State) (u : Nat) => (((({ s with mer := { s.mer with lastEpoch := none } } : State).ready 2).wr F.MER_STATUS_STATE 5).wr F.MER_STATUS_ID 0 |>.put F.MER_EPOCH_CFG_SRC false)) State.reset 1000, 1000, by decide +kernel⟩,
    ⟨(fun (s : State) (u : Nat) => (((({ s with mer := { s.mer with lastEpoch := none } } : State).ready 2).wr F.MER_STATUS_STATE 5).wr F.MER_STATUS_ID 0 |>.put F.MER_EPOCH_CFG_SRC true |>.put F.LNK_PTP_STATUS_SYNCED true)) State.reset 1000, 1000, by decide +kernel⟩,
    ⟨(fun (s : State) (u : Nat) => (((({ s with mer := { s.mer with lastEpoch := some 4 } } : State).ready 2).wr F.MER_STATUS_STATE 5).wr F.MER_STATUS_ID 0 |>.put F.MER_EPOCH_CFG_SRC true |>.put F.LNK_PTP_STATUS_SYNCED false)) State.reset 1000, 1000, by decide +kernel⟩,
    ⟨(fun (s : State) (u : Nat) => (((({ s with mer := { s.mer with lastEpoch := some 4 } } : State).ready 2).wr F.MER_STATUS_STATE 3).wr F.MER_STATUS_ID 1)) State.reset 1000, 1000, by decide +kernel⟩,
    ⟨(fun (s : State) (i : Fin 8) => (((({ s with mer := { s.mer with lastPing := 2, conflicts := 0 } } : State).ready 2).wr F.MER_STATUS_STATE 5).wr F.MER_STATUS_ID 0 |>.wr F.MER_CFG_UNITS 0x3A)) State.reset 0, 0, by decide +kernel⟩,
    ⟨(fun (s : State) => (((({ s with mer := { s.mer with lastPing := 2, conflicts := 0 } } : State).ready 2).wr F.MER_STATUS_STATE 5).wr F.MER_STATUS_ID 0 |>.wr F.MER_CFG_UNITS 1)) State.reset, by decide +kernel⟩,
    ⟨(fun (s : State) (u : Nat) (a : Nat) (d : MerDue) (rest : List MerDue) => (((({ s with mer := { s.mer with due := [d, ⟨.ping, 2, 0⟩], ping := none } } : State).ready 2).wr F.MER_STATUS_STATE 5).wr F.MER_STATUS_ID 0)) State.reset 1000 5 (⟨.epoch, 0, 4⟩) ([⟨.ping, 2, 0⟩]), 1000, 5, ⟨.epoch, 0, 4⟩, [⟨.ping, 2, 0⟩], by decide +kernel⟩,
    ⟨(fun (s : State) (u : Nat) (a : Nat) (d : MerDue) (rest : List MerDue) => (((({ s with mer := { s.mer with due := [d], ping := none } } : State).ready 2).wr F.MER_STATUS_STATE 5).wr F.MER_STATUS_ID 0)) State.reset 1000 5 (⟨.ping, 3, 0⟩) [], 1000, 5, ⟨.ping, 3, 0⟩, [], by decide +kernel⟩,
    ⟨(fun (s : State) (u : Nat) (a : Nat) => (((({ s with mer := { s.mer with due := [] } } : State).ready 2).wr F.MER_STATUS_STATE 5).wr F.MER_STATUS_ID 0)) State.reset 1000 5, 1000, 5, by decide +kernel⟩,
    ⟨(fun (s : State) (unit : Fin 8) (seed : BitVec 16) (r : BitVec 16) (d : Nat) (a : Nat) => (((({ s with mer := { s.mer with ping := some (unit.val, a), seeds := [] } } : State).ready 2).wr F.MER_STATUS_STATE 5).wr F.MER_STATUS_ID 0)) State.reset 3 5 6 100 20, 3, 5, 6, 100, 20, by decide +kernel⟩,
    ⟨(fun (s : State) (unit : Fin 8) (seed : BitVec 16) (r : BitVec 16) (d : Nat) (a : Nat) => (((({ s with mer := { s.mer with ping := some (unit.val, a), seeds := [(unit.val, 70000)], conflicts := 0 } } : State).ready 2).wr F.MER_STATUS_STATE 5).wr F.MER_STATUS_ID 0)) State.reset 3 5 6 100 20, 3, 5, 6, 100, 20, by decide +kernel⟩,
    ⟨(fun (s : State) (unit : Fin 8) (seed : BitVec 16) (r : BitVec 16) (d : Nat) => (((({ s with mer := { s.mer with ping := none } } : State).ready 2).wr F.MER_STATUS_STATE 5).wr F.MER_STATUS_ID 0)) State.reset 3 5 6 100, 3, 5, 6, 100, by decide +kernel⟩,
    ⟨(fun (s : State) (unit : Fin 8) (seed : BitVec 16) (r : BitVec 16) (d : Nat) => (((({ s with mer := { s.mer with ping := none } } : State).ready 2).wr F.MER_STATUS_STATE 1).wr F.MER_STATUS_ID 0)) State.reset 3 5 6 100, 3, 5, 6, 100, by decide +kernel⟩,
    ⟨(fun (s : State) (u : Fin 8) => (((({ s with mer := { s.mer with pongs := [(u.val, 64)] } } : State).ready 2).wr F.MER_STATUS_STATE 5).wr F.MER_STATUS_ID 0)) State.reset 3, 3, by decide +kernel⟩,
    ⟨(fun (s : State) => (((({ s with mer := { s.mer with pongs := [(1, 3)] } } : State).ready 2).wr F.MER_STATUS_STATE 5).wr F.MER_STATUS_ID 0)) State.reset, by decide +kernel⟩,
    ⟨(fun (s : State) => (((({ s with mer := { s.mer with ping := none } } : State).ready 2).wr F.MER_STATUS_STATE 5).wr F.MER_STATUS_ID 0)) State.reset, by decide +kernel⟩,
    ⟨(fun (s : State) (u : Nat) (a : Nat) => (((({ s with mer := { s.mer with ping := some (u, a), badRun := [(u, 3)], conflicts := 0 } } : State).ready 2).wr F.MER_STATUS_STATE 5).wr F.MER_STATUS_ID 0)) State.reset 3 100, 3, 100, by decide +kernel⟩,
    ⟨(fun (s : State) => (((({ s with mer := { s.mer with ping := none } } : State).ready 2).wr F.MER_STATUS_STATE 0).wr F.MER_STATUS_ID 0)) State.reset, by decide +kernel⟩⟩

/-- States and operands that meet the hypotheses of each clause of MeridianSlave. -/
theorem witness_MeridianSlave :
    (∃ (s : State) (b : Nat), s.slave = true ∧ (b : Int) + 17920 ≤ (16 * ((16 * (b : Int) - s.rd F.MER_DELAY_D16 + 128) / 256 + s.rd F.MER_LAT_LAT))) ∧
    (∃ (s : State) (b : Nat), s.slave = true ∧ s.bst = bALIGNED ∧ (16 * ((16 * (b : Int) - s.rd F.MER_DELAY_D16 + 128) / 256 + s.rd F.MER_LAT_LAT)) < (b : Int) + 17920) ∧
    (∃ (s : State) (b : Nat), s.slave = true ∧ (16 * ((16 * (b : Int) - s.rd F.MER_DELAY_D16 + 128) / 256 + s.rd F.MER_LAT_LAT)) < (b : Int) + 17920) ∧
    (∃ (s : State) (b : Nat), s.slave = true ∧ s.bst ≠ bALIGNED ∧ (16 * ((16 * (b : Int) - s.rd F.MER_DELAY_D16 + 128) / 256 + s.rd F.MER_LAT_LAT)) < (b : Int) + 17920) ∧
    (∃ (s : State) (_b : Nat) (_unit : Fin 8) (_d16 : BitVec 24), s.listening = true ∧ s.on F.MER_STATUS_ID_CONFLICT = false) ∧
    (∃ (s : State) (_b : Nat) (_unit : Fin 8) (_d16 : BitVec 24), s.slave = false ∧ (s.listening = false ∨ s.on F.MER_STATUS_ID_CONFLICT = true)) ∧
    (∃ (s : State) (_unit : Fin 8) (_b : Nat), s.slave = true) ∧
    (∃ (s : State) (b : Nat), s.mer.pingAt = some b) ∧
    (∃ (s : State), s.mer.pingAt = none) ∧
    (∃ (s : State) (unit : Fin 8) (_d16 : BitVec 24) (_b : Nat), s.slave = true ∧ unit.val = s.unit) ∧
    (∃ (s : State) (unit : Fin 8) (_d16 : BitVec 24) (_b : Nat), s.slave = true ∧ unit.val ≠ s.unit) ∧
    (∃ (s : State) (_u : Nat) (v : Nat) (k : MerKind) (rest : List (MerKind × Nat)), s.mer.apply = (k, v) :: rest ∧ k = .sweep) ∧
    (∃ (s : State) (_u : Nat) (v : Nat) (k : MerKind) (rest : List (MerKind × Nat)), s.mer.apply = (k, v) :: rest ∧ k = .epoch ∧ (s.bst = bMASTER ∨ s.bst = bALIGNED)) ∧
    (∃ (s : State) (_u : Nat) (v : Nat) (k : MerKind) (rest : List (MerKind × Nat)), s.mer.apply = (k, v) :: rest ∧ k = .epoch ∧ (¬(s.bst = bMASTER ∨ s.bst = bALIGNED))) ∧
    (∃ (s : State) (_u : Nat) (v : Nat) (k : MerKind) (rest : List (MerKind × Nat)), s.mer.apply = (k, v) :: rest ∧ k = .trig) ∧
    (∃ (s : State) (_u : Nat), s.mer.apply = []) ∧
    (∃ (s : State), s.slave = true ∧ 16 ≤ s.mer.phiN) ∧
    (∃ (s : State), (s.slave = false ∨ s.mer.phiN < 16)) ∧
    (∃ (s : State), s.mer.steps ≠ 0 ∧ s.bst ≠ bLOST ∧ (s.running = false ∨ ((s.his.cur.any fun x => x.kind == .fallow) = true ∧ s.mer.stepped = false))) ∧
    (∃ (s : State), (s.mer.steps = 0 ∨ s.bst = bLOST ∨ (s.running = true ∧ ((s.his.cur.any fun x => x.kind == .fallow) = false ∨ s.mer.stepped = true)))) ∧
    (∃ (s : State), s.slave = true ∧ (s.bst = bALIGNED ∨ s.bst = bRANGING)) ∧
    (∃ (s : State), (s.slave = false ∨ (s.bst ≠ bALIGNED ∧ s.bst ≠ bRANGING))) :=
  ⟨⟨(fun (s : State) (b : Nat) => ((((({ s with mer := { s.mer with haveD16 := true, steps := 0, phiN := 3 } } : State).ready 2).wr F.MER_STATUS_STATE 3).wr F.MER_STATUS_ID 2)).wr F.MER_LAT_LAT 2000) State.reset 1000, 1000, by decide +kernel⟩,
    ⟨(fun (s : State) (b : Nat) => ((((({ s with mer := { s.mer with haveD16 := true, steps := 0, phiN := 3 } } : State).ready 2).wr F.MER_STATUS_STATE 3).wr F.MER_STATUS_ID 2)).wr F.MER_LAT_LAT 5) State.reset 1000, 1000, by decide +kernel⟩,
    ⟨(fun (s : State) (b : Nat) => ((((({ s with mer := { s.mer with haveD16 := true, steps := 0, phiN := 3 } } : State).ready 2).wr F.MER_STATUS_STATE 3).wr F.MER_STATUS_ID 2)).wr F.MER_LAT_LAT 5) State.reset 1000, 1000, by decide +kernel⟩,
    ⟨(fun (s : State) (b : Nat) => ((((({ s with mer := { s.mer with haveD16 := true, steps := 0, phiN := 3 } } : State).ready 2).wr F.MER_STATUS_STATE 2).wr F.MER_STATUS_ID 2)).wr F.MER_LAT_LAT 5) State.reset 1000, 1000, by decide +kernel⟩,
    ⟨(fun (s : State) (b : Nat) (unit : Fin 8) (d16 : BitVec 24) => (((({ s with mer := { s.mer with due := [] } } : State).ready 2).wr F.MER_STATUS_STATE 1).wr F.MER_STATUS_ID 0 |>.put F.MER_STATUS_ID_CONFLICT false)) State.reset 1000 3 7, 1000, 3, 7, by decide +kernel⟩,
    ⟨(fun (s : State) (b : Nat) (unit : Fin 8) (d16 : BitVec 24) => (((({ s with mer := { s.mer with due := [] } } : State).ready 2).wr F.MER_STATUS_STATE 5).wr F.MER_STATUS_ID 0)) State.reset 1000 3 7, 1000, 3, 7, by decide +kernel⟩,
    ⟨(fun (s : State) (unit : Fin 8) (b : Nat) => (((({ s with mer := { s.mer with haveD16 := true } } : State).ready 2).wr F.MER_STATUS_STATE 3).wr F.MER_STATUS_ID 2)) State.reset 2 1000, 2, 1000, by decide +kernel⟩,
    ⟨(fun (s : State) (b : Nat) => (((({ s with mer := { s.mer with pingAt := some b } } : State).ready 2).wr F.MER_STATUS_STATE 3).wr F.MER_STATUS_ID 2)) State.reset 1000, 1000, by decide +kernel⟩,
    ⟨(fun (s : State) => (((({ s with mer := { s.mer with pingAt := none } } : State).ready 2).wr F.MER_STATUS_STATE 3).wr F.MER_STATUS_ID 2)) State.reset, by decide +kernel⟩,
    ⟨(fun (s : State) (unit : Fin 8) (d16 : BitVec 24) (b : Nat) => (((({ s with mer := { s.mer with haveD16 := false } } : State).ready 2).wr F.MER_STATUS_STATE 1).wr F.MER_STATUS_ID 2)) State.reset 2 500 1000, 2, 500, 1000, by decide +kernel⟩,
    ⟨(fun (s : State) (unit : Fin 8) (d16 : BitVec 24) (b : Nat) => (((({ s with mer := { s.mer with haveD16 := false } } : State).ready 2).wr F.MER_STATUS_STATE 1).wr F.MER_STATUS_ID 2)) State.reset 3 500 1000, 3, 500, 1000, by decide +kernel⟩,
    ⟨(fun (s : State) (u : Nat) (v : Nat) (k : MerKind) (rest : List (MerKind × Nat)) => (((({ s with mer := { s.mer with apply := (k, v) :: rest } } : State).ready 2).wr F.MER_STATUS_STATE 3).wr F.MER_STATUS_ID 2)) State.reset 1000 5 .sweep [], 1000, 5, .sweep, [], by decide +kernel⟩,
    ⟨(fun (s : State) (u : Nat) (v : Nat) (k : MerKind) (rest : List (MerKind × Nat)) => (((({ s with mer := { s.mer with apply := (k, v) :: rest } } : State).ready 2).wr F.MER_STATUS_STATE 3).wr F.MER_STATUS_ID 2)) State.reset 1000 5 .epoch [], 1000, 5, .epoch, [], by decide +kernel⟩,
    ⟨(fun (s : State) (u : Nat) (v : Nat) (k : MerKind) (rest : List (MerKind × Nat)) => (((({ s with mer := { s.mer with apply := (k, v) :: rest } } : State).ready 2).wr F.MER_STATUS_STATE 2).wr F.MER_STATUS_ID 2)) State.reset 1000 5 .epoch [], 1000, 5, .epoch, [], by decide +kernel⟩,
    ⟨(fun (s : State) (u : Nat) (v : Nat) (k : MerKind) (rest : List (MerKind × Nat)) => (((({ s with mer := { s.mer with apply := (k, v) :: rest } } : State).ready 2).wr F.MER_STATUS_STATE 2).wr F.MER_STATUS_ID 2)) State.reset 1000 5 .trig [], 1000, 5, .trig, [], by decide +kernel⟩,
    ⟨(fun (s : State) (u : Nat) => (((({ s with mer := { s.mer with apply := [] } } : State).ready 2).wr F.MER_STATUS_STATE 2).wr F.MER_STATUS_ID 2)) State.reset 1000, 1000, by decide +kernel⟩,
    ⟨(fun (s : State) => (((({ s with mer := { s.mer with phiN := 16, phiSum := s.mer.phiSum % 2000 } } : State).ready 2).wr F.MER_STATUS_STATE 3).wr F.MER_STATUS_ID 2)) State.reset, by decide +kernel⟩,
    ⟨(fun (s : State) => (((({ s with mer := { s.mer with phiN := 3 } } : State).ready 2).wr F.MER_STATUS_STATE 3).wr F.MER_STATUS_ID 2)) State.reset, by decide +kernel⟩,
    ⟨(fun (s : State) => (((({ s with mer := { s.mer with steps := s.mer.steps + 5 - 2 * s.mer.steps % 3 } } : State).ready 2).wr F.MER_STATUS_STATE 3).wr F.MER_STATUS_ID 2)|>.put F.HIS_STATUS_RUNNING false) State.reset, by decide +kernel⟩,
    ⟨(fun (s : State) => (((({ s with mer := { s.mer with steps := 0 } } : State).ready 2).wr F.MER_STATUS_STATE 3).wr F.MER_STATUS_ID 2)) State.reset, by decide +kernel⟩,
    ⟨(fun (s : State) => (((({ s with mer := { s.mer with steps := 0 } } : State).ready 2).wr F.MER_STATUS_STATE 3).wr F.MER_STATUS_ID 2)) State.reset, by decide +kernel⟩,
    ⟨(fun (s : State) => (((({ s with mer := { s.mer with steps := 0 } } : State).ready 2).wr F.MER_STATUS_STATE 5).wr F.MER_STATUS_ID 2)) State.reset, by decide +kernel⟩⟩

/-- States and operands that meet the hypotheses of each clause of CaptureEngine. -/
theorem witness_CaptureEngine :
    (∃ (s : State), s.reaches ∧ s.tilHeld = true) ∧
    (∃ (s : State), s.reaches ∧ s.tilHeld = false ∧ s.cap.closing = false ∧ s.on F.MER_CAP_CTRL_EN = false) ∧
    (∃ (s : State), s.reaches ∧ s.tilHeld = false ∧ s.cap.closing = false ∧ s.on F.MER_CAP_CTRL_EN = true) ∧
    (∃ (s : State), s.reaches ∧ s.tilHeld = false ∧ s.cap.closing = true) ∧
    (∃ (s : State), s.reaches ∧ s.cap.closing = false ∧ s.on F.MER_CAP_CTRL_EN = true) ∧
    (∃ (s : State), s.reaches ∧ (s.cap.closing = true ∨ s.on F.MER_CAP_CTRL_EN = false)) ∧
    (∃ (s : State), s.capStopped = false ∧ s.cap.closing = true ∧ s.cap.queue = [] ∧ s.on F.MER_CAP_STATUS_PENDING_ENABLE = false) ∧
    (∃ (s : State), s.capStopped = false ∧ s.cap.closing = true ∧ s.cap.queue = [] ∧ s.on F.MER_CAP_STATUS_PENDING_ENABLE = true) ∧
    (∃ (s : State), (s.capStopped = true ∨ s.cap.closing = false ∨ s.cap.queue ≠ [])) ∧
    (∃ (s : State), s.reaches ∧ s.on F.MER_CAP_CTRL_EN = true ∧ s.on F.MER_CAP_STATUS_DONE = true ∧ s.cap.closing = false ∧ s.capStopped = false) ∧
    (∃ (s : State), s.reaches ∧ (s.on F.MER_CAP_CTRL_EN = false ∨ s.on F.MER_CAP_STATUS_DONE = false ∨ s.cap.closing = true ∨ s.capStopped = true)) ∧
    (∃ (s : State) (_u : Nat), s.reaches ∧ s.rd F.MER_CAP_TRIG_SRC = 0 ∧ s.capRuns = true ∧ s.on F.MER_CAP_STATUS_ARMED = true ∧ s.capGate = true ∧ s.cap.seg = none ∧ s.cap.cur = none ∧ (((s.cap.queue.map fun r => r.length).sum + s.capSize) ≤ 32768) ∧ (ringPlace s.capRing s.capAhead (s.rd F.MER_CAP_RPTR_OFS) 64 s.capSize).isSome = true) ∧
    (∃ (s : State) (_u : Nat), s.reaches ∧ s.rd F.MER_CAP_TRIG_SRC = 0 ∧ s.capRuns = true ∧ s.on F.MER_CAP_STATUS_ARMED = true ∧ s.capGate = true ∧ s.cap.seg = none ∧ s.cap.cur = none ∧ (32768 < ((s.cap.queue.map fun r => r.length).sum + s.capSize) ∨ (ringPlace s.capRing s.capAhead (s.rd F.MER_CAP_RPTR_OFS) 64 s.capSize).isNone = true)) ∧
    (∃ (s : State) (_u : Nat) (r : CapRec), s.reaches ∧ s.rd F.MER_CAP_TRIG_SRC = 0 ∧ s.capRuns = true ∧ s.on F.MER_CAP_STATUS_ARMED = true ∧ s.capGate = true ∧ s.cap.seg = none ∧ s.cap.cur = some r) ∧
    (∃ (s : State) (_u : Nat), s.reaches ∧ (s.rd F.MER_CAP_TRIG_SRC ≠ 0 ∨ ¬(s.capRuns = true ∧ s.on F.MER_CAP_STATUS_ARMED = true ∧ s.capGate = true) ∨ s.cap.seg.isSome = true)) ∧
    (∃ (s : State) (r : List Byte) (rest : List (List Byte)) (o : Nat) (a : Nat) (wrap : Bool), s.cap.queue = r :: rest ∧ ringPlace s.capRing (s.rd F.MER_CAP_WPTR_OFS) (s.rd F.MER_CAP_RPTR_OFS) 64 r.length = some (o, wrap) ∧ s.capStopped = false ∧ (s.place 3 (s.capBase + s.rd F.MER_CAP_WPTR_OFS) = .loc a → s.memBlocked = false ∧ s.engineTurn 3 = true)) ∧
    (∃ (s : State) (r : List Byte) (rest : List (List Byte)) (o : Nat) (a : Nat) (wrap : Bool), s.cap.queue = r :: rest ∧ ringPlace s.capRing (s.rd F.MER_CAP_WPTR_OFS) (s.rd F.MER_CAP_RPTR_OFS) 64 r.length = some (o, wrap) ∧ s.capStopped = false ∧ s.place 3 (s.capBase + s.rd F.MER_CAP_WPTR_OFS) = .loc a ∧ (s.memBlocked = true ∧ (s.memState ≠ 3 ∨ Tab.get (fun _ => 0) s.mem.drain 3 = 0))) ∧
    (∃ (s : State) (r : List Byte) (rest : List (List Byte)) (o : Nat) (a : Nat) (wrap : Bool), s.cap.queue = r :: rest ∧ ringPlace s.capRing (s.rd F.MER_CAP_WPTR_OFS) (s.rd F.MER_CAP_RPTR_OFS) 64 r.length = some (o, wrap) ∧ s.capStopped = false ∧ s.place 3 (s.capBase + s.rd F.MER_CAP_WPTR_OFS) = .loc a ∧ s.memBlocked = false ∧ s.engineTurn 3 = false) ∧
    (∃ (s : State) (r : List Byte) (rest : List (List Byte)) (o : Nat), s.cap.queue = r :: rest ∧ ringPlace s.capRing (s.rd F.MER_CAP_WPTR_OFS) (s.rd F.MER_CAP_RPTR_OFS) 64 r.length = some (o, false) ∧ s.capStopped = false ∧ r ≠ [] ∧ s.inHost 3 (s.capBase + o) r.length = true) ∧
    (∃ (s : State) (r : List Byte) (rest : List (List Byte)) (o : Nat) (c : Nat), s.cap.queue = r :: rest ∧ ringPlace s.capRing (s.rd F.MER_CAP_WPTR_OFS) (s.rd F.MER_CAP_RPTR_OFS) 64 r.length = some (o, false) ∧ s.capStopped = false ∧ r ≠ [] ∧ s.inHole 3 c (s.capBase + o) r.length = true) ∧
    (∃ (s : State), s.capStopped = true) ∧
    (∃ (s : State), (s.cap.queue.head?.all (fun r => (ringPlace s.capRing (s.rd F.MER_CAP_WPTR_OFS) (s.rd F.MER_CAP_RPTR_OFS) 64 r.length).isNone) = true)) :=
  ⟨⟨(fun (s : State) => s.ready 1) State.reset, by decide +kernel⟩,
    ⟨(fun (s : State) => ((({ s with cap := { s.cap with closing := false } } : State).ready 2)|>.put F.MER_CAP_CTRL_EN false)) State.reset, by decide +kernel⟩,
    ⟨(fun (s : State) => ((({ s with cap := { s.cap with closing := false } } : State).ready 2)|>.put F.MER_CAP_CTRL_EN true)) State.reset, by decide +kernel⟩,
    ⟨(fun (s : State) => ((({ s with cap := { s.cap with closing := true } } : State).ready 2)|>.put F.MER_CAP_STATUS_PENDING_ENABLE false)) State.reset, by decide +kernel⟩,
    ⟨(fun (s : State) => ((({ s with cap := { s.cap with closing := false } } : State).ready 2)|>.put F.MER_CAP_CTRL_EN true)) State.reset, by decide +kernel⟩,
    ⟨(fun (s : State) => ((({ s with cap := { s.cap with closing := true } } : State).ready 2)|>.put F.MER_CAP_CTRL_EN true)) State.reset, by decide +kernel⟩,
    ⟨(fun (s : State) => ((({ s with cap := { s.cap with closing := true, queue := [] } } : State).ready 2)|>.put F.MER_CAP_STATUS_PENDING_ENABLE false)) State.reset, by decide +kernel⟩,
    ⟨(fun (s : State) => ((({ s with cap := { s.cap with closing := true, queue := [] } } : State).ready 2)|>.put F.MER_CAP_STATUS_PENDING_ENABLE true)) State.reset, by decide +kernel⟩,
    ⟨(fun (s : State) => ((({ s with cap := { s.cap with closing := false } } : State).ready 2))) State.reset, by decide +kernel⟩,
    ⟨(fun (s : State) => ((({ s with cap := { s.cap with closing := false } } : State).ready 2)|>.put F.MER_CAP_CTRL_EN true |>.put F.MER_CAP_STATUS_DONE true)) State.reset, by decide +kernel⟩,
    ⟨(fun (s : State) => ((({ s with cap := { s.cap with closing := false } } : State).ready 2)|>.put F.MER_CAP_CTRL_EN false)) State.reset, by decide +kernel⟩,
    ⟨(fun (s : State) (u : Nat) => ((({ s with cap := { s.cap with closing := false, seg := none, cur := none, queue := [] } } : State).ready 2)|>.put F.MER_CAP_CTRL_EN true |>.put F.MER_CAP_STATUS_ARMED true |>.wr F.MER_CAP_TRIG_SRC 0 |>.wr F.MER_CAP_TRIG_GATE 0 |>.wr F.MER_CAP_SIZE_SIZE 1 |>.wr F.MER_CAP_WPTR_OFS 64 |>.wr F.MER_CAP_RPTR_OFS 64 |>.wr F.MER_CAP_SRC_KIND 1 |>.wr F.MER_CAP_SRC_LANES 1)) State.reset 1000, 1000, by decide +kernel⟩,
    ⟨(fun (s : State) (u : Nat) => ((({ s with cap := { s.cap with closing := false, seg := none, cur := none, queue := [] } } : State).ready 2)|>.put F.MER_CAP_CTRL_EN true |>.put F.MER_CAP_STATUS_ARMED true |>.wr F.MER_CAP_TRIG_SRC 0 |>.wr F.MER_CAP_TRIG_GATE 0 |>.wr F.MER_CAP_SIZE_SIZE 0 |>.wr F.MER_CAP_WPTR_OFS 64 |>.wr F.MER_CAP_RPTR_OFS 64 |>.wr F.MER_CAP_SRC_KIND 1 |>.wr F.MER_CAP_SRC_LANES 1)) State.reset 1000, 1000, by decide +kernel⟩,
    ⟨(fun (s : State) (u : Nat) (r : CapRec) => ((({ s with cap := { s.cap with closing := false, seg := none, cur := some r } } : State).ready 2)|>.put F.MER_CAP_CTRL_EN true |>.put F.MER_CAP_STATUS_ARMED true |>.wr F.MER_CAP_TRIG_SRC 0 |>.wr F.MER_CAP_TRIG_GATE 0 |>.wr F.MER_CAP_SIZE_SIZE 1 |>.wr F.MER_CAP_WPTR_OFS 64 |>.wr F.MER_CAP_RPTR_OFS 64 |>.wr F.MER_CAP_SRC_KIND 1 |>.wr F.MER_CAP_SRC_LANES 1)) State.reset 1000 (⟨1, 2, 0, false, 0, 0, false, false, false, 0, [], none, []⟩), 1000, ⟨1, 2, 0, false, 0, 0, false, false, false, 0, [], none, []⟩, by decide +kernel⟩,
    ⟨(fun (s : State) (u : Nat) => ((({ s with cap := { s.cap with closing := false, seg := none, cur := none, queue := [] } } : State).ready 2)|>.put F.MER_CAP_CTRL_EN false |>.put F.MER_CAP_STATUS_ARMED true |>.wr F.MER_CAP_TRIG_SRC 0 |>.wr F.MER_CAP_TRIG_GATE 0 |>.wr F.MER_CAP_SIZE_SIZE 1 |>.wr F.MER_CAP_WPTR_OFS 64 |>.wr F.MER_CAP_RPTR_OFS 64 |>.wr F.MER_CAP_SRC_KIND 1 |>.wr F.MER_CAP_SRC_LANES 1)) State.reset 1000, 1000, by decide +kernel⟩,
    ⟨(fun (s : State) (r : List Byte) (rest : List (List Byte)) (o : Nat) (a : Nat) (wrap : Bool) => let s : State := { s with sys := { s.sys with dramStopped := false } }; ((({ s with cap := { s.cap with queue := r :: rest } } : State).ready 2)|>.wr F.MEM_STATUS_STATE 2 |>.put F.MEM_STATUS_INIT_BUSY false |>.put F.MEM_TRN_CTRL_BUSY false |>.wr F.MEM_SIZE_MIB 2048 |>.wr F.MER_CAP_BASE_HI_BASE 0 |>.wr F.MER_CAP_BASE_LO_BASE 16 |>.wr F.MER_CAP_SIZE_SIZE 1 |>.wr F.MER_CAP_WPTR_OFS 64 |>.wr F.MER_CAP_RPTR_OFS 0)) State.reset (bytesOf 8 5) [] 64 0x100040 false, bytesOf 8 5, [], 64, 0x100040, false, by decide +kernel⟩,
    ⟨(fun (s : State) (r : List Byte) (rest : List (List Byte)) (o : Nat) (a : Nat) (wrap : Bool) => ((({ s with cap := { s.cap with queue := r :: rest } } : State).ready 2)|>.wr F.MEM_STATUS_STATE 4 |>.put F.MEM_STATUS_INIT_BUSY false |>.put F.MEM_TRN_CTRL_BUSY false |>.wr F.MEM_SIZE_MIB 2048 |>.wr F.MER_CAP_BASE_HI_BASE 0 |>.wr F.MER_CAP_BASE_LO_BASE 16 |>.wr F.MER_CAP_SIZE_SIZE 1 |>.wr F.MER_CAP_WPTR_OFS 64 |>.wr F.MER_CAP_RPTR_OFS 0)) State.reset (bytesOf 8 5) [] 64 0x100040 false, bytesOf 8 5, [], 64, 0x100040, false, by decide +kernel⟩,
    ⟨(fun (s : State) (r : List Byte) (rest : List (List Byte)) (o : Nat) (a : Nat) (wrap : Bool) => let s : State := { s with sys := { s.sys with dramStopped := false } }; (((({ s with cap := { s.cap with queue := r :: rest } } : State).ready 2)|>.wr F.MEM_STATUS_STATE 2 |>.put F.MEM_STATUS_INIT_BUSY false |>.put F.MEM_TRN_CTRL_BUSY false |>.wr F.MEM_SIZE_MIB 2048 |>.wr F.MER_CAP_BASE_HI_BASE 0 |>.wr F.MER_CAP_BASE_LO_BASE 16 |>.wr F.MER_CAP_SIZE_SIZE 1 |>.wr F.MER_CAP_WPTR_OFS 64 |>.wr F.MER_CAP_RPTR_OFS 0)).outranked 3 a) State.reset (bytesOf 8 5) [] 64 0x100040 false, bytesOf 8 5, [], 64, 0x100040, false, by decide +kernel⟩,
    ⟨(fun (s : State) (r : List Byte) (rest : List (List Byte)) (o : Nat) => ((({ s with cap := { s.cap with queue := r :: rest } } : State).ready 2)|>.wr F.MEM_SIZE_MIB 0 |>.wr F.MER_CAP_BASE_HI_BASE 256 |>.wr F.MER_CAP_BASE_LO_BASE 0 |>.wr F.MER_CAP_SIZE_SIZE 1 |>.wr F.MER_CAP_WPTR_OFS 64 |>.wr F.MER_CAP_RPTR_OFS 0 |>.put (F.MEM_WIN_CFG_EN 0) true |>.wr (F.MEM_WIN_CFG_SIZE 0) 30 |>.wr (F.MEM_WIN_BASE_BASE 0) 0x100000 |>.wr (F.MEM_WIN_HOST_HI_HOST 0) 0 |>.wr (F.MEM_WIN_HOST_LO_HOST 0) 0 |>.put F.LNK_STATUS_BME true |>.put F.LNK_STATUS_PCIE_UP true)) State.reset (bytesOf 8 5) [] 64, bytesOf 8 5, [], 64, by decide +kernel⟩,
    ⟨(fun (s : State) (r : List Byte) (rest : List (List Byte)) (o : Nat) (c : Nat) => ((({ s with cap := { s.cap with queue := r :: rest } } : State).ready 2)|>.wr F.MEM_SIZE_MIB 0 |>.wr F.MER_CAP_BASE_HI_BASE 256 |>.wr F.MER_CAP_BASE_LO_BASE 0 |>.wr F.MER_CAP_SIZE_SIZE 1 |>.wr F.MER_CAP_WPTR_OFS 64 |>.wr F.MER_CAP_RPTR_OFS 0 |>.put (F.MEM_WIN_CFG_EN 0) true |>.wr (F.MEM_WIN_CFG_SIZE 0) 30 |>.wr (F.MEM_WIN_BASE_BASE 0) 0x100000 |>.wr (F.MEM_WIN_HOST_HI_HOST 0) 0 |>.wr (F.MEM_WIN_HOST_LO_HOST 0) 0 |>.put F.LNK_STATUS_BME true |>.put F.LNK_STATUS_PCIE_UP false)) State.reset (bytesOf 8 5) [] 64 2, bytesOf 8 5, [], 64, 2, by decide +kernel⟩,
    ⟨(fun (s : State) => s.ready 1) State.reset, by decide +kernel⟩,
    ⟨(fun (s : State) => ((({ s with cap := { s.cap with queue := [] } } : State).ready 2)|>.wr F.MEM_STATUS_STATE 2 |>.put F.MEM_STATUS_INIT_BUSY false |>.put F.MEM_TRN_CTRL_BUSY false |>.wr F.MEM_SIZE_MIB 2048 |>.wr F.MER_CAP_BASE_HI_BASE 0 |>.wr F.MER_CAP_BASE_LO_BASE 16 |>.wr F.MER_CAP_SIZE_SIZE 1 |>.wr F.MER_CAP_WPTR_OFS 64 |>.wr F.MER_CAP_RPTR_OFS 0)) State.reset, by decide +kernel⟩⟩

/-- States and operands that meet the hypotheses of each clause of SextantMeasurements. -/
theorem witness_SextantMeasurements :
    (∃ (s : State), s.reaches ∧ s.tilHeld = false ∧ s.sxt.closing = false ∧ s.on F.SXT_CTRL_EN = false) ∧
    (∃ (s : State), s.reaches ∧ s.tilHeld = true ∧ s.sxt.closing = false ∧ s.on F.SXT_CTRL_EN = false) ∧
    (∃ (s : State), s.reaches ∧ s.sxt.closing = false ∧ s.on F.SXT_CTRL_EN = true) ∧
    (∃ (s : State), s.reaches ∧ s.sxt.closing = true) ∧
    (∃ (s : State), s.reaches ∧ s.sxt.closing = false ∧ s.on F.SXT_CTRL_EN = true) ∧
    (∃ (s : State), s.reaches ∧ (s.sxt.closing = true ∨ s.on F.SXT_CTRL_EN = false)) ∧
    (∃ (s : State), s.reaches ∧ s.sxtRuns = true ∧ s.on F.SXT_STATUS_ARMED = false) ∧
    (∃ (s : State), s.reaches ∧ (s.sxtRuns = false ∨ s.on F.SXT_STATUS_ARMED = true)) ∧
    (∃ (s : State) (_k : Nat) (_f : Fin 128) (u : Nat), s.sxtSeesStart = true ∧ (prescaled (s.sxt.preStart + 1) (if s.rd F.SXT_CFG_START_SRC = 0 then s.rd F.SXT_CFG_PRE_START else 0) = true) ∧ (s.sxt.start = none ∧ (s.sxt.endedAt.all fun e => decide (e + 50000 ≤ u)) = true ∧ s.sxt.n + s.sxt.miss < s.rd F.SXT_N_N) ∧ s.sxtGate = true) ∧
    (∃ (s : State) (_k : Nat) (_f : Fin 128) (u : Nat), s.sxtSeesStart = true ∧ (prescaled (s.sxt.preStart + 1) (if s.rd F.SXT_CFG_START_SRC = 0 then s.rd F.SXT_CFG_PRE_START else 0) = true) ∧ (s.sxt.start = none ∧ (s.sxt.endedAt.all fun e => decide (e + 50000 ≤ u)) = true ∧ s.sxt.n + s.sxt.miss < s.rd F.SXT_N_N) ∧ s.sxtGate = false) ∧
    (∃ (s : State) (_k : Nat) (_f : Fin 128) (u : Nat) (c0 : Nat) (f0 : Nat) (u0 : Nat), s.sxtSeesStart = true ∧ (prescaled (s.sxt.preStart + 1) (if s.rd F.SXT_CFG_START_SRC = 0 then s.rd F.SXT_CFG_PRE_START else 0) = true) ∧ s.sxt.start = some (c0, f0, u0) ∧ s.rd F.SXT_CFG_STOP_SRC = 2 ∧ u0 + 2500 ≤ u ∧ u ≤ u0 + 100000 * s.rd F.SXT_TIMEOUT_T) ∧
    (∃ (s : State) (_k : Nat) (_f : Fin 128) (u : Nat), s.sxtSeesStart = true ∧ (prescaled (s.sxt.preStart + 1) (if s.rd F.SXT_CFG_START_SRC = 0 then s.rd F.SXT_CFG_PRE_START else 0) = false ∨ (s.sxt.start.isSome = true ∧ s.rd F.SXT_CFG_STOP_SRC ≠ 2) ∨ (s.sxt.start = none ∧ ¬(s.sxt.start = none ∧ (s.sxt.endedAt.all fun e => decide (e + 50000 ≤ u)) = true ∧ s.sxt.n + s.sxt.miss < s.rd F.SXT_N_N)))) ∧
    (∃ (s : State) (_k : Nat) (_f : Fin 128) (u : Nat) (c0 : Nat) (f0 : Nat) (u0 : Nat), s.sxtSeesStart = true ∧ s.sxt.start = some (c0, f0, u0) ∧ ¬(u0 + 2500 ≤ u ∧ u ≤ u0 + 100000 * s.rd F.SXT_TIMEOUT_T)) ∧
    (∃ (s : State) (_k : Nat) (_f : Fin 128) (_u : Nat), s.sxtSeesStart = false) ∧
    (∃ (s : State) (_k : Nat) (_f : Fin 128) (u : Nat) (c0 : Nat) (f0 : Nat) (u0 : Nat), s.sxtRuns = true ∧ s.on F.SXT_STATUS_ARMED = true ∧ s.rd F.SXT_CFG_STOP_SRC ≠ 2 ∧ prescaled (s.sxt.preStop + 1) (s.rd F.SXT_CFG_PRE_STOP) = true ∧ s.sxt.start = some (c0, f0, u0) ∧ u0 + 2500 ≤ u ∧ u ≤ u0 + 100000 * s.rd F.SXT_TIMEOUT_T) ∧
    (∃ (s : State) (_k : Nat) (_f : Fin 128) (u : Nat), s.sxtRuns = true ∧ s.on F.SXT_STATUS_ARMED = true ∧ s.rd F.SXT_CFG_STOP_SRC ≠ 2 ∧ (prescaled (s.sxt.preStop + 1) (s.rd F.SXT_CFG_PRE_STOP) = false ∨ s.sxt.start.all (fun x => decide (u < x.2.2 + 2500) || decide (x.2.2 + 100000 * s.rd F.SXT_TIMEOUT_T < u)) = true)) ∧
    (∃ (s : State) (_k : Nat) (_f : Fin 128) (_u : Nat), (s.sxtRuns = false ∨ s.on F.SXT_STATUS_ARMED = false ∨ s.rd F.SXT_CFG_STOP_SRC = 2)) ∧
    (∃ (s : State) (c0 : Nat) (f0 : Nat) (u0 : Nat), s.sxtRuns = true ∧ s.sxt.start = some (c0, f0, u0)) ∧
    (∃ (s : State), (s.sxtRuns = false ∨ s.sxt.start = none)) ∧
    (∃ (s : State), s.sxtRuns = true ∧ s.on F.SXT_STATUS_ARMED = true ∧ s.sxt.start = none ∧ s.rd F.SXT_N_N ≤ s.sxt.n + s.sxt.miss ∧ (¬(s.mode = mSCAN ∨ s.mode = mDERATED)) ∧ (s.itemIs 3 = false ∨ s.cal.rzSet = false)) ∧
    (∃ (s : State), s.sxtRuns = true ∧ s.on F.SXT_STATUS_ARMED = true ∧ s.sxt.start = none ∧ s.rd F.SXT_N_N ≤ s.sxt.n + s.sxt.miss ∧ s.itemIs 3 = true ∧ s.cal.rzSet = true) ∧
    (∃ (s : State), s.sxtRuns = true ∧ s.on F.SXT_STATUS_ARMED = true ∧ s.sxt.start = none ∧ s.rd F.SXT_N_N ≤ s.sxt.n + s.sxt.miss ∧ (s.mode = mSCAN ∨ s.mode = mDERATED)) ∧
    (∃ (s : State), (s.sxtRuns = false ∨ s.on F.SXT_STATUS_ARMED = false ∨ s.sxt.start.isSome = true ∨ s.sxt.n + s.sxt.miss < s.rd F.SXT_N_N)) ∧
    (∃ (s : State) (level : Bool) (_u : Nat), s.sxtRuns = true ∧ s.rd F.SXT_CFG_GATE_SRC = 1 ∧ level = true ∧ s.sxt.gate = false ∧ ¬(s.on F.SXT_STATUS_ARMED = true ∧ s.sxt.edgeArmed = true)) ∧
    (∃ (s : State) (level : Bool) (_u : Nat), s.sxtRuns = true ∧ (¬(s.rd F.SXT_CFG_GATE_SRC = 1 ∧ level = true ∧ s.sxt.gate = false) ∨ (s.on F.SXT_STATUS_ARMED = true ∧ s.sxt.edgeArmed = true))) ∧
    (∃ (s : State) (_level : Bool) (_u : Nat), s.sxtRuns = false) ∧
    (∃ (s : State), s.reaches ∧ s.on F.SXT_STATUS_ARMED = false ∧ s.tilHeld = true) ∧
    (∃ (s : State), s.reaches ∧ s.on F.SXT_STATUS_ARMED = false ∧ s.tilHeld = false) ∧
    (∃ (s : State), s.reaches ∧ s.on F.SXT_STATUS_ARMED = true) ∧
    (∃ (s : State) (_a : List Nat) (_b : List Nat), s.mode ≠ mRESET ∧ s.on F.SXT_STATUS_CDT_BUSY = true ∧ s.itemIs 2 = false) ∧
    (∃ (s : State) (_a : List Nat) (_b : List Nat), s.on F.SXT_STATUS_CDT_BUSY = false) :=
  ⟨⟨(fun (s : State) => ((({ s with sxt := { s.sxt with closing := false } } : State).ready 2)|>.put F.SXT_CTRL_EN false)) State.reset, by decide +kernel⟩,
    ⟨(fun (s : State) => ({ s with sxt := { s.sxt with closing := false } } : State).ready 1 |>.put F.SXT_CTRL_EN false) State.reset, by decide +kernel⟩,
    ⟨(fun (s : State) => ((({ s with sxt := { s.sxt with closing := false } } : State).ready 2)|>.put F.SXT_CTRL_EN true)) State.reset, by decide +kernel⟩,
    ⟨(fun (s : State) => ((({ s with sxt := { s.sxt with closing := true } } : State).ready 2)|>.put F.SXT_STATUS_PENDING_ENABLE false)) State.reset, by decide +kernel⟩,
    ⟨(fun (s : State) => ((({ s with sxt := { s.sxt with closing := false } } : State).ready 2)|>.put F.SXT_CTRL_EN true)) State.reset, by decide +kernel⟩,
    ⟨(fun (s : State) => ((({ s with sxt := { s.sxt with closing := true } } : State).ready 2)|>.put F.SXT_CTRL_EN true)) State.reset, by decide +kernel⟩,
    ⟨(fun (s : State) => ((({ s with sxt := { s.sxt with closing := false } } : State).ready 2)|>.put F.SXT_CTRL_EN true|>.put F.SXT_STATUS_ARMED false)) State.reset, by decide +kernel⟩,
    ⟨(fun (s : State) => ((({ s with sxt := { s.sxt with closing := false } } : State).ready 2)|>.put F.SXT_CTRL_EN true|>.put F.SXT_STATUS_ARMED true)) State.reset, by decide +kernel⟩,
    ⟨(fun (s : State) (k : Nat) (f : Fin 128) (u : Nat) => ((({ s with sxt := { s.sxt with closing := false, preStart := 0, start := none, endedAt := none, n := 0, miss := 0 } } : State).ready 2)|>.put F.SXT_CTRL_EN true|>.put F.SXT_STATUS_ARMED true|>.wr F.SXT_CFG_START_SRC 0 |>.wr F.SXT_CFG_PRE_START 0 |>.wr F.SXT_CFG_GATE_SRC 2 |>.wr F.SXT_N_N 5 |>.wr F.SXT_TIMEOUT_T 50)) State.reset 5 6 1000, 5, 6, 1000, by decide +kernel⟩,
    ⟨(fun (s : State) (k : Nat) (f : Fin 128) (u : Nat) => ((({ s with sxt := { s.sxt with closing := false, preStart := 0, start := none, endedAt := none, n := 0, miss := 0, gate := false } } : State).ready 2)|>.put F.SXT_CTRL_EN true|>.put F.SXT_STATUS_ARMED true|>.wr F.SXT_CFG_START_SRC 0 |>.wr F.SXT_CFG_PRE_START 0 |>.wr F.SXT_CFG_GATE_SRC 0 |>.wr F.SXT_N_N 5 |>.wr F.SXT_TIMEOUT_T 50)) State.reset 5 6 1000, 5, 6, 1000, by decide +kernel⟩,
    ⟨(fun (s : State) (k : Nat) (f : Fin 128) (u : Nat) (c0 : Nat) (f0 : Nat) (u0 : Nat) => ((({ s with sxt := { s.sxt with closing := false, preStart := 0, start := some (c0, f0, u0) } } : State).ready 2)|>.put F.SXT_CTRL_EN true|>.put F.SXT_STATUS_ARMED true|>.wr F.SXT_CFG_START_SRC 0 |>.wr F.SXT_CFG_PRE_START 0 |>.wr F.SXT_CFG_GATE_SRC 2 |>.wr F.SXT_N_N 5 |>.wr F.SXT_TIMEOUT_T 50|>.wr F.SXT_CFG_STOP_SRC 2)) State.reset 5 6 10000 3 4 1000, 5, 6, 10000, 3, 4, 1000, by decide +kernel⟩,
    ⟨(fun (s : State) (k : Nat) (f : Fin 128) (u : Nat) => ((({ s with sxt := { s.sxt with closing := false, preStart := 0, start := none, n := 9 } } : State).ready 2)|>.put F.SXT_CTRL_EN true|>.put F.SXT_STATUS_ARMED true|>.wr F.SXT_CFG_START_SRC 0 |>.wr F.SXT_CFG_PRE_START 0 |>.wr F.SXT_CFG_GATE_SRC 2 |>.wr F.SXT_N_N 5 |>.wr F.SXT_TIMEOUT_T 50)) State.reset 5 6 1000, 5, 6, 1000, by decide +kernel⟩,
    ⟨(fun (s : State) (k : Nat) (f : Fin 128) (u : Nat) (c0 : Nat) (f0 : Nat) (u0 : Nat) => ((({ s with sxt := { s.sxt with closing := false, preStart := 0, start := some (c0, f0, u0) } } : State).ready 2)|>.put F.SXT_CTRL_EN true|>.put F.SXT_STATUS_ARMED true|>.wr F.SXT_CFG_START_SRC 0 |>.wr F.SXT_CFG_PRE_START 0 |>.wr F.SXT_CFG_GATE_SRC 2 |>.wr F.SXT_N_N 5 |>.wr F.SXT_TIMEOUT_T 50|>.wr F.SXT_CFG_STOP_SRC 2)) State.reset 5 6 100 3 4 1000, 5, 6, 100, 3, 4, 1000, by decide +kernel⟩,
    ⟨(fun (s : State) (k : Nat) (f : Fin 128) (u : Nat) => ((({ s with sxt := { s.sxt with closing := true } } : State).ready 2))) State.reset 5 6 1000, 5, 6, 1000, by decide +kernel⟩,
    ⟨(fun (s : State) (k : Nat) (f : Fin 128) (u : Nat) (c0 : Nat) (f0 : Nat) (u0 : Nat) => ((({ s with sxt := { s.sxt with closing := false, preStop := 0, start := some (c0, f0, u0) } } : State).ready 2)|>.put F.SXT_CTRL_EN true|>.put F.SXT_STATUS_ARMED true|>.wr F.SXT_CFG_STOP_SRC 0 |>.wr F.SXT_CFG_PRE_STOP 0 |>.wr F.SXT_TIMEOUT_T 50)) State.reset 5 6 10000 3 4 1000, 5, 6, 10000, 3, 4, 1000, by decide +kernel⟩,
    ⟨(fun (s : State) (k : Nat) (f : Fin 128) (u : Nat) => ((({ s with sxt := { s.sxt with closing := false, preStop := 0, start := some (3, 4, 1000) } } : State).ready 2)|>.put F.SXT_CTRL_EN true|>.put F.SXT_STATUS_ARMED true|>.wr F.SXT_CFG_STOP_SRC 0 |>.wr F.SXT_CFG_PRE_STOP 0 |>.wr F.SXT_TIMEOUT_T 50)) State.reset 5 6 100, 5, 6, 100, by decide +kernel⟩,
    ⟨(fun (s : State) (k : Nat) (f : Fin 128) (u : Nat) => ((({ s with sxt := { s.sxt with closing := true } } : State).ready 2))) State.reset 5 6 100, 5, 6, 100, by decide +kernel⟩,
    ⟨(fun (s : State) (c0 : Nat) (f0 : Nat) (u0 : Nat) => ((({ s with sxt := { s.sxt with closing := false, start := some (c0, f0, u0) } } : State).ready 2)|>.put F.SXT_CTRL_EN true)) State.reset 3 4 1000, 3, 4, 1000, by decide +kernel⟩,
    ⟨(fun (s : State) => ((({ s with sxt := { s.sxt with start := none } } : State).ready 2))) State.reset, by decide +kernel⟩,
    ⟨(fun (s : State) => ((({ s with sxt := { s.sxt with closing := false, start := none, n := 5 } } : State).ready 2)|>.put F.SXT_CTRL_EN true|>.put F.SXT_STATUS_ARMED true|>.wr F.SXT_N_N 5)) State.reset, by decide +kernel⟩,
    ⟨(fun (s : State) => let s : State := { s with cal := { s.cal with rzSet := true, items := [3], saved := [] } }; ((({ s with sxt := { s.sxt with closing := false, start := none, n := 5 } } : State).ready 5)|>.put F.SXT_CTRL_EN true|>.put F.SXT_STATUS_ARMED true|>.wr F.SXT_N_N 5 |>.put F.CAL_STATUS_BUSY true |>.wr F.CAL_STATUS_ITEM 3)) State.reset, by decide +kernel⟩,
    ⟨(fun (s : State) => ((({ s with sxt := { s.sxt with closing := false, start := none, n := 5 } } : State).ready 4)|>.put F.SXT_CTRL_EN true|>.put F.SXT_STATUS_ARMED true|>.wr F.SXT_N_N 5)) State.reset, by decide +kernel⟩,
    ⟨(fun (s : State) => ((({ s with sxt := { s.sxt with closing := true } } : State).ready 2))) State.reset, by decide +kernel⟩,
    ⟨(fun (s : State) (level : Bool) (u : Nat) => ((({ s with sxt := { s.sxt with closing := false, gate := false } } : State).ready 2)|>.put F.SXT_CTRL_EN true|>.put F.SXT_STATUS_ARMED false |>.wr F.SXT_CFG_GATE_SRC 1)) State.reset true 1000, true, 1000, by decide +kernel⟩,
    ⟨(fun (s : State) (level : Bool) (u : Nat) => ((({ s with sxt := { s.sxt with closing := false } } : State).ready 2)|>.put F.SXT_CTRL_EN true|>.put F.SXT_STATUS_ARMED true)) State.reset true 1000, true, 1000, by decide +kernel⟩,
    ⟨(fun (s : State) (level : Bool) (u : Nat) => ((({ s with sxt := { s.sxt with closing := true } } : State).ready 2))) State.reset true 1000, true, 1000, by decide +kernel⟩,
    ⟨(fun (s : State) => (s.ready 1).put F.SXT_STATUS_ARMED false) State.reset, by decide +kernel⟩,
    ⟨(fun (s : State) => ((({ s with sxt := { s.sxt with closing := false } } : State).ready 2)|>.put F.SXT_STATUS_ARMED false)) State.reset, by decide +kernel⟩,
    ⟨(fun (s : State) => ((({ s with sxt := { s.sxt with closing := false } } : State).ready 2)|>.put F.SXT_STATUS_ARMED true)) State.reset, by decide +kernel⟩,
    ⟨(fun (s : State) (a : List Nat) (b : List Nat) => ((({ s with sxt := { s.sxt with closing := false } } : State).ready 2)|>.put F.SXT_STATUS_CDT_BUSY true)) State.reset [] [], [], [], by decide +kernel⟩,
    ⟨(fun (s : State) (a : List Nat) (b : List Nat) => ((({ s with sxt := { s.sxt with closing := false } } : State).ready 2)|>.put F.SXT_STATUS_CDT_BUSY false)) State.reset [] [], [], [], by decide +kernel⟩⟩

/-- States and operands that meet the hypotheses of each clause of AnalogScan. -/
theorem witness_AnalogScan :
    (∃ (s : State), s.reaches ∧ s.on F.ADC_CTRL_EN = false) ∧
    (∃ (s : State), s.reaches ∧ s.on F.ADC_CTRL_EN = true) ∧
    (∃ (s : State), s.reaches) ∧
    (∃ (s : State) (_half : Int) (u : Nat) (n : Nat), s.adcRuns = true ∧ (s.windowsAt u).adc.entry = some n ∧ (s.windowsAt u).discards n u = false) ∧
    (∃ (s : State) (_half : Int) (u : Nat) (n : Nat), s.adcRuns = true ∧ (s.windowsAt u).adc.entry = some n ∧ (s.windowsAt u).discards n u = true) ∧
    (∃ (s : State) (half : Int) (u : Nat) (n : Nat), s.adcRuns = true ∧ (s.windowsAt u).adc.entry = some n ∧ 16 ≤ n ∧ n < 24 ∧ (((((s.windowsAt u).fe (n - 16)).changes.filter fun e => decide (u < e.1 + 60000000000000)).length < 8 ∨ (s.windowsAt u).on (F.ADC_FE_STATUS_RANGE_FLAP (n - 16)) = true) ∨ ¬((if (s.windowsAt u).on (F.ADC_FE_CFG_AUTO (n - 16)) = false ∨ (s.windowsAt u).switched n u = true then ((s.windowsAt u).fe (n - 16)).gain else if (s.windowsAt u).ovrOf n half = true ∧ (s.windowsAt u).codeOf n half = 0x3FFF then 0 else if (s.windowsAt u).ovrOf n half = true then ((s.windowsAt u).fe (n - 16)).gain else if 14746 ≤ (s.windowsAt u).codeOf n half ∧ 0 < ((s.windowsAt u).fe (n - 16)).gain then ((s.windowsAt u).fe (n - 16)).gain - 1 else if (s.windowsAt u).codeOf n half ≤ 3276 ∧ (s.windowsAt u).settling n = false ∧ ((s.windowsAt u).fe (n - 16)).gain < 3 ∧ ((s.windowsAt u).fe (n - 16)).down = 3 ∧ (s.windowsAt u).on (F.ADC_FE_STATUS_RANGE_FLAP (n - 16)) = false then ((s.windowsAt u).fe (n - 16)).gain + 1 else ((s.windowsAt u).fe (n - 16)).gain) ≠ ((s.windowsAt u).fe (n - 16)).gain))) ∧
    (∃ (s : State) (half : Int) (u : Nat) (n : Nat), s.adcRuns = true ∧ (s.windowsAt u).adc.entry = some n ∧ 16 ≤ n ∧ n < 24 ∧ (8 ≤ (((s.windowsAt u).fe (n - 16)).changes.filter fun e => decide (u < e.1 + 60000000000000)).length ∧ (s.windowsAt u).on (F.ADC_FE_STATUS_RANGE_FLAP (n - 16)) = false) ∧ ((if (s.windowsAt u).on (F.ADC_FE_CFG_AUTO (n - 16)) = false ∨ (s.windowsAt u).switched n u = true then ((s.windowsAt u).fe (n - 16)).gain else if (s.windowsAt u).ovrOf n half = true ∧ (s.windowsAt u).codeOf n half = 0x3FFF then 0 else if (s.windowsAt u).ovrOf n half = true then ((s.windowsAt u).fe (n - 16)).gain else if 14746 ≤ (s.windowsAt u).codeOf n half ∧ 0 < ((s.windowsAt u).fe (n - 16)).gain then ((s.windowsAt u).fe (n - 16)).gain - 1 else if (s.windowsAt u).codeOf n half ≤ 3276 ∧ (s.windowsAt u).settling n = false ∧ ((s.windowsAt u).fe (n - 16)).gain < 3 ∧ ((s.windowsAt u).fe (n - 16)).down = 3 ∧ (s.windowsAt u).on (F.ADC_FE_STATUS_RANGE_FLAP (n - 16)) = false then ((s.windowsAt u).fe (n - 16)).gain + 1 else ((s.windowsAt u).fe (n - 16)).gain) ≠ ((s.windowsAt u).fe (n - 16)).gain)) ∧
    (∃ (s : State) (_half : Int) (_u : Nat), s.adcRuns = false) ∧
    (∃ (s : State) (_half : Int) (u : Nat), s.adcRuns = true ∧ (s.windowsAt u).adc.entry = none) ∧
    (∃ (s : State) (input : Fin 32), s.reaches ∧ input.val < 24 ∧ s.on F.ADC_STATUS_HOST_URG_BUSY = false) ∧
    (∃ (s : State) (input : Fin 32), s.reaches ∧ (24 ≤ input.val ∨ s.on F.ADC_STATUS_HOST_URG_BUSY = true)) ∧
    (∃ (s : State) (_half : Int) (_u : Nat), s.adcRuns = true ∧ s.adc.helmUrgent = true ∧ s.adc.hostServed = false) ∧
    (∃ (s : State) (_half : Int) (_u : Nat), s.adcRuns = true ∧ (s.adc.helmUrgent = false ∨ s.adc.hostServed = true) ∧ s.on F.ADC_STATUS_HOST_URG_BUSY = true) ∧
    (∃ (s : State) (_half : Int) (_u : Nat), (s.adcRuns = false ∨ ((s.adc.helmUrgent = false ∨ s.adc.hostServed = true) ∧ s.on F.ADC_STATUS_HOST_URG_BUSY = false))) :=
  ⟨⟨(fun (s : State) => ((s.ready 2)|>.put F.ADC_CTRL_EN false)) State.reset, by decide +kernel⟩,
    ⟨(fun (s : State) => ((s.ready 2)|>.put F.ADC_CTRL_EN true)) State.reset, by decide +kernel⟩,
    ⟨(fun (s : State) => ((s.ready 2)|>.put F.ADC_CTRL_EN true)) State.reset, by decide +kernel⟩,
    ⟨(fun (s : State) (half : Int) (u : Nat) (n : Nat) => ((({ s with adc := { s.adc with round := 3, entry := some n, fe := s.adc.fe.map fun e => (e.1, { e.2 with gain := e.2.gain % 4 }) } } : State).ready 2)|>.put F.ADC_CTRL_EN true|>.wr F.ADC_SCAN_MASK_MASK (2 ^ n) |>.wr (F.ADC_IN_CFG_EVERY n) 0)) State.reset 40000 1000 5, 40000, 1000, 5, by decide +kernel⟩,
    ⟨(fun (s : State) (half : Int) (u : Nat) (n : Nat) => ((({ s with adc := { s.adc with round := 3, entry := some n, fe := s.adc.fe.map fun e => (e.1, { e.2 with gain := e.2.gain % 4 }) } } : State).ready 2)|>.put F.ADC_CTRL_EN true|>.wr F.ADC_SCAN_MASK_MASK (2 ^ 17) |>.wr (F.ADC_IN_CFG_EVERY 17) 0 |>.wr (F.ADC_FE_CFG_MODE 1) 1 |>.put (F.ADC_FE_STATUS_SETTLING 1) true |>.put F.ADC_CFG_KEEP_SETTLING false)) State.reset 40000 1000 17, 40000, 1000, 17, by decide +kernel⟩,
    ⟨(fun (s : State) (half : Int) (u : Nat) (n : Nat) => ((({ s with adc := { s.adc with round := 3, entry := some n, fe := [(n - 16, { gain := u % 3, down := 3 })] } } : State).ready 2)|>.put F.ADC_CTRL_EN true |>.wr (F.ADC_FE_CFG_MODE (n - 16)) 1 |>.put (F.ADC_FE_CFG_AUTO (n - 16)) true |>.put (F.ADC_FE_STATUS_SETTLING (n - 16)) false |>.put (F.ADC_FE_STATUS_RANGE_FLAP (n - 16)) false)) State.reset 300 1000 17, 300, 1000, 17, by decide +kernel⟩,
    ⟨(fun (s : State) (half : Int) (u : Nat) (n : Nat) => ((({ s with adc := { s.adc with round := 3, entry := some n, fe := [(n - 16, { gain := 2, changes := (List.range 8).map fun k => (k, 1 + k % 3) })] } } : State).ready 2)|>.put F.ADC_CTRL_EN true |>.wr (F.ADC_FE_CFG_MODE (n - 16)) 1 |>.put (F.ADC_FE_CFG_AUTO (n - 16)) true |>.put (F.ADC_FE_STATUS_SETTLING (n - 16)) false |>.put (F.ADC_FE_STATUS_RANGE_FLAP (n - 16)) false)) State.reset 4000000 1000 17, 4000000, 1000, 17, by decide +kernel⟩,
    ⟨(fun (s : State) (half : Int) (u : Nat) => ((s.ready 2)|>.put F.ADC_CTRL_EN false)) State.reset 5 1000, 5, 1000, by decide +kernel⟩,
    ⟨(fun (s : State) (half : Int) (u : Nat) => ((({ s with adc := { s.adc with entry := none, skipped := none } } : State).ready 2)|>.put F.ADC_CTRL_EN true|>.wr F.ADC_SCAN_MASK_MASK 0)) State.reset 5 1000, 5, 1000, by decide +kernel⟩,
    ⟨(fun (s : State) (input : Fin 32) => ((s.ready 2)|>.put F.ADC_STATUS_HOST_URG_BUSY false)) State.reset 5, 5, by decide +kernel⟩,
    ⟨(fun (s : State) (input : Fin 32) => ((s.ready 2))) State.reset 25, 25, by decide +kernel⟩,
    ⟨(fun (s : State) (half : Int) (u : Nat) => ((({ s with adc := { s.adc with helmUrgent := true, hostServed := false, fe := s.adc.fe.map fun e => (e.1, { e.2 with gain := e.2.gain % 4 }) } } : State).ready 2)|>.put F.ADC_CTRL_EN true|>.wr F.HLM_TILT_CFG_AIN 3)) State.reset 500 1000, 500, 1000, by decide +kernel⟩,
    ⟨(fun (s : State) (half : Int) (u : Nat) => ((({ s with adc := { s.adc with helmUrgent := false, hostInput := 5, fe := s.adc.fe.map fun e => (e.1, { e.2 with gain := e.2.gain % 4 }) } } : State).ready 2)|>.put F.ADC_CTRL_EN true|>.put F.ADC_STATUS_HOST_URG_BUSY true)) State.reset 500 1000, 500, 1000, by decide +kernel⟩,
    ⟨(fun (s : State) (half : Int) (u : Nat) => ((s.ready 2)|>.put F.ADC_CTRL_EN false)) State.reset 500 1000, 500, 1000, by decide +kernel⟩⟩

/-- States and operands that meet the hypotheses of each clause of AnalogFrontEnds. -/
theorem witness_AnalogFrontEnds :
    (∃ (s : State) (i : Fin 8) (w : Word) (_u : Nat), s.reaches ∧ s.feCfgBad i w = false) ∧
    (∃ (s : State) (i : Fin 8) (w : Word) (_u : Nat), s.reaches ∧ s.feCfgBad i w = true) ∧
    (∃ (s : State) (_i : Fin 8) (w : Word) (_u : Nat), s.reaches ∧ (Word.field w 31 16 = 0 ∨ (Word.field w 15 0 < Word.field w 31 16 ∧ Word.field w 15 0 ≠ 0))) ∧
    (∃ (s : State) (_i : Fin 8) (w : Word) (_u : Nat), s.reaches ∧ (Word.field w 31 16 ≠ 0 ∧ (Word.field w 31 16 ≤ Word.field w 15 0 ∨ Word.field w 15 0 = 0))) ∧
    (∃ (s : State) (_i : Fin 8) (w : Word) (_u : Nat), s.reaches ∧ Word.field w 7 0 ≠ 0) ∧
    (∃ (s : State) (_i : Fin 8) (w : Word) (_u : Nat), s.reaches ∧ Word.field w 7 0 = 0) ∧
    (∃ (s : State) (i : Fin 8), s.on (F.ADC_FE_STATUS_SETTLING i) = true) ∧
    (∃ (s : State) (i : Fin 8), s.on (F.ADC_FE_STATUS_SETTLING i) = false) ∧
    (∃ (s : State) (i : Fin 8), s.adcRuns = true ∧ excites (s.feMode i) = true ∧ s.rd (F.ADC_FE_PULSE_PERIOD i) ≠ 0) ∧
    (∃ (s : State) (i : Fin 8), (s.adcRuns = false ∨ excites (s.feMode i) = false) ∧ s.rd (F.ADC_FE_PULSE_PERIOD i) ≠ 0) ∧
    (∃ (s : State) (i : Fin 8), s.rd (F.ADC_FE_PULSE_PERIOD i) = 0) ∧
    (∃ (s : State) (i : Fin 8), s.rd (F.ADC_FE_PULSE_PERIOD i) ≠ 0) ∧
    (∃ (s : State) (i : Fin 8), s.rd (F.ADC_FE_PULSE_PERIOD i) = 0) ∧
    (∃ (s : State) (i : Fin 8), s.adcRuns = true ∧ s.on (F.ADC_FE_SWAP_SWAP_EN i) = true ∧ paired (s.feMode i) = true ∧ s.rd (F.ADC_FE_PULSE_PERIOD i) = 0) ∧
    (∃ (s : State) (i : Fin 8), (s.adcRuns = false ∨ s.on (F.ADC_FE_SWAP_SWAP_EN i) = false ∨ paired (s.feMode i) = false ∨ s.rd (F.ADC_FE_PULSE_PERIOD i) ≠ 0)) ∧
    (∃ (s : State) (_i : Fin 8), s.reaches) ∧
    (∃ (s : State) (i : Fin 8) (_u : Nat) (j : Nat), s.adcRuns = true ∧ s.excOwner i = j ∧ excites (s.feMode j) = true ∧ s.on (F.ADC_FE_STATUS_EXC_FAULT j) = false) ∧
    (∃ (s : State) (i : Fin 8) (_u : Nat) (j : Nat), s.adcRuns = true ∧ s.excOwner i = j ∧ excites (s.feMode j) = true ∧ s.on (F.ADC_FE_STATUS_EXC_FAULT j) = true) ∧
    (∃ (s : State) (i : Fin 8) (_u : Nat), (s.adcRuns = false ∨ excites (s.feMode (s.excOwner i)) = false)) ∧
    (∃ (s : State) (i : Fin 8) (j : Nat), (j = i.val ∨ (i.val % 2 = 1 ∧ j = i.val - 1)) ∧ s.on (F.ADC_FE_STATUS_EXC_FLAP j) = false) ∧
    (∃ (s : State) (i : Fin 8), (s.on (F.ADC_FE_STATUS_EXC_FLAP i) = true ∧ (i.val % 2 = 1 → s.on (F.ADC_FE_STATUS_EXC_FLAP (i - 1)) = true))) :=
  ⟨⟨(fun (s : State) (i : Fin 8) (w : Word) (u : Nat) => ((s.ready 2)|>.put F.ADC_CTRL_EN true)) State.reset 3 0x01000005 1000, 3, 0x01000005, 1000, by decide +kernel⟩,
    ⟨(fun (s : State) (i : Fin 8) (w : Word) (u : Nat) => ((s.ready 2))) State.reset 3 0 1000, 3, 0, 1000, by decide +kernel⟩,
    ⟨(fun (s : State) (i : Fin 8) (w : Word) (u : Nat) => ((s.ready 2)|>.put F.ADC_CTRL_EN true)) State.reset 3 0x00500005 1000, 3, 0x00500005, 1000, by decide +kernel⟩,
    ⟨(fun (s : State) (i : Fin 8) (w : Word) (u : Nat) => ((s.ready 2))) State.reset 3 0x00500000 1000, 3, 0x00500000, 1000, by decide +kernel⟩,
    ⟨(fun (s : State) (i : Fin 8) (w : Word) (u : Nat) => ((s.ready 2))) State.reset 3 0x00500005 1000, 3, 0x00500005, 1000, by decide +kernel⟩,
    ⟨(fun (s : State) (i : Fin 8) (w : Word) (u : Nat) => ((s.ready 2))) State.reset 3 0x00500000 1000, 3, 0x00500000, 1000, by decide +kernel⟩,
    ⟨(fun (s : State) (i : Fin 8) => ((s.ready 2)|>.put (F.ADC_FE_STATUS_SETTLING i) true)) State.reset 3, 3, by decide +kernel⟩,
    ⟨(fun (s : State) (i : Fin 8) => ((s.ready 2)|>.put (F.ADC_FE_STATUS_SETTLING i) false)) State.reset 3, 3, by decide +kernel⟩,
    ⟨(fun (s : State) (i : Fin 8) => ((s.ready 2)|>.put F.ADC_CTRL_EN true|>.wr (F.ADC_FE_CFG_MODE i) 3 |>.wr (F.ADC_FE_PULSE_PERIOD i) 9)) State.reset 2, 2, by decide +kernel⟩,
    ⟨(fun (s : State) (i : Fin 8) => ((s.ready 2)|>.put F.ADC_CTRL_EN false |>.wr (F.ADC_FE_PULSE_PERIOD i) 5)) State.reset 2, 2, by decide +kernel⟩,
    ⟨(fun (s : State) (i : Fin 8) => ((s.ready 2)|>.wr (F.ADC_FE_PULSE_PERIOD i) 0)) State.reset 2, 2, by decide +kernel⟩,
    ⟨(fun (s : State) (i : Fin 8) => ((s.ready 2)|>.wr (F.ADC_FE_PULSE_PERIOD i) 9)) State.reset 2, 2, by decide +kernel⟩,
    ⟨(fun (s : State) (i : Fin 8) => ((s.ready 2)|>.wr (F.ADC_FE_PULSE_PERIOD i) 0)) State.reset 2, 2, by decide +kernel⟩,
    ⟨(fun (s : State) (i : Fin 8) => ((s.ready 2)|>.put F.ADC_CTRL_EN true|>.wr (F.ADC_FE_CFG_MODE i) 3 |>.wr (F.ADC_FE_PULSE_PERIOD i) 0 |>.put (F.ADC_FE_SWAP_SWAP_EN i) true)) State.reset 2, 2, by decide +kernel⟩,
    ⟨(fun (s : State) (i : Fin 8) => ((s.ready 2)|>.put F.ADC_CTRL_EN false)) State.reset 2, 2, by decide +kernel⟩,
    ⟨(fun (s : State) (i : Fin 8) => ((s.ready 2))) State.reset 2, 2, by decide +kernel⟩,
    ⟨(fun (s : State) (i : Fin 8) (u : Nat) (j : Nat) => ((s.ready 2)|>.put F.ADC_CTRL_EN true|>.wr (F.ADC_FE_CFG_MODE (i / 2 * 2)) 3 |>.put (F.ADC_FE_STATUS_EXC_FAULT i) false |>.put (F.ADC_FE_STATUS_EXC_FAULT (i - 1)) false)) State.reset 2 1000 2, 2, 1000, 2, by decide +kernel⟩,
    ⟨(fun (s : State) (i : Fin 8) (u : Nat) (j : Nat) => ((s.ready 2)|>.put F.ADC_CTRL_EN true|>.wr (F.ADC_FE_CFG_MODE (i / 2 * 2)) 3 |>.put (F.ADC_FE_STATUS_EXC_FAULT i) true |>.put (F.ADC_FE_STATUS_EXC_FAULT (i - 1)) true)) State.reset 2 1000 2, 2, 1000, 2, by decide +kernel⟩,
    ⟨(fun (s : State) (i : Fin 8) (u : Nat) => ((s.ready 2)|>.put F.ADC_CTRL_EN false)) State.reset 2 1000, 2, 1000, by decide +kernel⟩,
    ⟨(fun (s : State) (i : Fin 8) (j : Nat) => ((s.ready 2)|>.put (F.ADC_FE_STATUS_EXC_FLAP i) false |>.put (F.ADC_FE_STATUS_EXC_FLAP (i - 1)) false)) State.reset 3 2, 3, 2, by decide +kernel⟩,
    ⟨(fun (s : State) (i : Fin 8) => ((s.ready 2)|>.put (F.ADC_FE_STATUS_EXC_FLAP i) true)) State.reset 2, 2, by decide +kernel⟩⟩

/-- States and operands that meet the hypotheses of each clause of CalibrationItems. -/
theorem witness_CalibrationItems :
    (∃ (s : State), s.itemIs 1 = true) ∧
    (∃ (s : State) (_a : List Nat) (_b : List Nat), s.on F.SXT_STATUS_CDT_BUSY = true ∧ s.itemIs 2 = true) ∧
    (∃ (s : State), s.itemIs 3 = true ∧ s.cal.rzSet = false ∧ 16 * s.rd F.CAL_RZ_CFG_CYCLES ≤ s.cal.rzCycles ∧ ((((List.range 1152).any fun c => (s.rzChannel c).any fun x => decide (0 ≤ x.1)) = true))) ∧
    (∃ (s : State), s.itemIs 3 = true ∧ s.cal.rzSet = false ∧ 16 * s.rd F.CAL_RZ_CFG_CYCLES ≤ s.cal.rzCycles ∧ ((((List.range 1152).any fun c => (s.rzChannel c).any fun x => decide (0 ≤ x.1)) = false))) ∧
    (∃ (s : State), s.itemIs 4 = true ∧ s.cal.surveyAt = some 18432) ∧
    (∃ (s : State), s.itemIs 1 = false) ∧
    (∃ (s : State), (s.itemIs 3 = false ∨ s.cal.rzSet = true ∨ s.cal.rzCycles < 16 * s.rd F.CAL_RZ_CFG_CYCLES)) ∧
    (∃ (s : State), (s.itemIs 4 = false ∨ s.cal.surveyAt ≠ some 18432)) ∧
    (∃ (s : State) (_u : Nat), s.on F.CAL_STATUS_BUSY = true ∧ ¬(s.cal.items ≠ [] ∧ s.mode = mCALIBRATE ∧ s.on F.SYS_MODE_STOPPING = false ∧ (s.rd F.THM_STATUS_IND).testBit 1 = false) ∧ (¬(s.on F.CAL_STATUS_RERUN_PENDING = true ∧ s.rd F.CAL_STATUS_PLAN ≠ 4 ∧ s.on F.SYS_MODE_CFG_AUTO_RECAL = true) ∨ ¬(s.mode = mCALIBRATE ∧ s.on F.SYS_MODE_STOPPING = false ∧ s.sys.calFrom = mSCAN))) ∧
    (∃ (s : State) (_u : Nat), s.on F.CAL_STATUS_BUSY = true ∧ ¬(s.cal.items ≠ [] ∧ s.mode = mCALIBRATE ∧ s.on F.SYS_MODE_STOPPING = false ∧ (s.rd F.THM_STATUS_IND).testBit 1 = false) ∧ s.mode = mCALIBRATE ∧ s.on F.SYS_MODE_STOPPING = false ∧ s.sys.calFrom = mSTANDBY ∧ (s.cal.internal = false ∨ s.boot.starting = false)) ∧
    (∃ (s : State) (_u : Nat), s.on F.CAL_STATUS_BUSY = true ∧ ¬(s.cal.items ≠ [] ∧ s.mode = mCALIBRATE ∧ s.on F.SYS_MODE_STOPPING = false ∧ (s.rd F.THM_STATUS_IND).testBit 1 = false) ∧ s.mode = mCALIBRATE ∧ s.on F.SYS_MODE_STOPPING = false ∧ s.sys.calFrom = mSCAN ∧ (s.cal.internal = false ∨ s.boot.starting = false)) ∧
    (∃ (s : State) (_u : Nat), s.on F.CAL_STATUS_BUSY = true ∧ ¬(s.cal.items ≠ [] ∧ s.mode = mCALIBRATE ∧ s.on F.SYS_MODE_STOPPING = false ∧ (s.rd F.THM_STATUS_IND).testBit 1 = false) ∧ ¬(s.mode = mCALIBRATE ∧ s.on F.SYS_MODE_STOPPING = false) ∧ (s.cal.internal = false ∨ s.boot.starting = false)) ∧
    (∃ (s : State) (_u : Nat), ¬(s.on F.CAL_STATUS_BUSY = true ∧ ¬(s.cal.items ≠ [] ∧ s.mode = mCALIBRATE ∧ s.on F.SYS_MODE_STOPPING = false ∧ (s.rd F.THM_STATUS_IND).testBit 1 = false))) ∧
    (∃ (s : State), s.mode = mSTANDBY) ∧
    (∃ (s : State), s.mode ≠ mSTANDBY ∧ s.mode ≠ mRESET) ∧
    (∃ (s : State), s.rd F.CAL_CFG_RECAL_DT < (s.tRz - s.rdS F.CAL_LAST_RZ_TEMP).natAbs ∧ s.tilHeld = false ∧ (s.on F.CAL_STATUS_RERUN_PENDING = false ∨ s.cal.rerunTemp = false)) ∧
    (∃ (s : State), ((s.tRz - s.rdS F.CAL_LAST_RZ_TEMP).natAbs ≤ s.rd F.CAL_CFG_RECAL_DT ∨ s.tilHeld = true ∨ (s.on F.CAL_STATUS_RERUN_PENDING = true ∧ s.cal.rerunTemp = true))) :=
  ⟨⟨(fun (s : State) => ((({ s with cal := { s.cal with cdPhase := [(0, 700), (1, 650), (16, 3), (80, 900), (81, 900), (82, 900)], cdGroup := [(0, 10), (320, 20)], items := [1, 2] } } : State).ready 5)|>.put F.CAL_STATUS_BUSY true |>.wr F.CAL_STATUS_ITEM 1|>.wr F.CAL_CD_CFG_MIN_HITS 1 |>.wr F.CAL_CD_CFG_CHI_MAX 50000)) State.reset, by decide +kernel⟩,
    ⟨(fun (s : State) (a : List Nat) (b : List Nat) => ((({ s with cal := { s.cal with items := [2, 3] } } : State).ready 5)|>.put F.CAL_STATUS_BUSY true |>.wr F.CAL_STATUS_ITEM 2|>.put F.SXT_STATUS_CDT_BUSY true)) State.reset [] [], [], [], by decide +kernel⟩,
    ⟨(fun (s : State) => let s : State := { s with sxt := { s.sxt with closing := false } }; ((({ s with cal := { s.cal with rzSet := false, items := [3], rzCycles := 16000000, bofs := [(7, 5), (9, 3)], tCal := [], rzBins := [(5 + 0, 4000), (192 * 7 + 60, 4000), (192 * 7 + 61, 5000), (192*8 + 20, 90)], rzExp := [(0, 1000), (7, 9000), (8, 8000)], rzAmb := [], rzBad := [(8, 1)] } } : State).ready 5)|>.put F.CAL_STATUS_BUSY true |>.wr F.CAL_STATUS_ITEM 3|>.wr (F.HIS_FIXWIN_START 0) 0 |>.wr F.CAL_RZ_CFG_REF_MM 356 |>.wr F.CAL_RZ_CFG_SNR_MIN 1)) State.reset, by decide +kernel⟩,
    ⟨(fun (s : State) => ((({ s with cal := { s.cal with rzSet := false, items := [3], rzCycles := 16000000, bofs := [(7, 5), (9, 3)], tCal := [], rzBins := [], rzExp := [], rzAmb := [], rzBad := [(8, 1)] } } : State).ready 5)|>.put F.CAL_STATUS_BUSY true |>.wr F.CAL_STATUS_ITEM 3|>.wr F.CAL_RZ_CFG_SNR_MIN 1)) State.reset, by decide +kernel⟩,
    ⟨(fun (s : State) => ((({ s with cal := { s.cal with items := [4], surveyAt := some 18432, field := s.cal.field.map fun e => (e.1 % 1152, e.2 % 65536), probes := [(3, 30000), (4, 30001), (5, 30001), (6, 2), (100, 40000)] } } : State).ready 5)|>.put F.CAL_STATUS_BUSY true |>.wr F.CAL_STATUS_ITEM 4|>.wr F.DET_PROBE_CFG_GATE 10 |>.wr F.CAL_SURVEY_CFG_DARK_MAX 10)) State.reset, by decide +kernel⟩,
    ⟨(fun (s : State) => ((s.ready 2))) State.reset, by decide +kernel⟩,
    ⟨(fun (s : State) => ((s.ready 2))) State.reset, by decide +kernel⟩,
    ⟨(fun (s : State) => ((s.ready 2))) State.reset, by decide +kernel⟩,
    ⟨(fun (s : State) (u : Nat) => let s : State := { s with sys := { s.sys with calFrom := 2 } }; ((({ s with cal := { s.cal with items := [], saved := [(R.TDC_TEST_CFG, 1), (R.HIS_FIND_CFG, 3)] } } : State).ready 5)|>.put F.CAL_STATUS_BUSY true |>.wr F.CAL_STATUS_ITEM 0)) State.reset 1000, 1000, by decide +kernel⟩,
    ⟨(fun (s : State) (u : Nat) => let s : State := { s with sys := { s.sys with calFrom := 2 } }; ((({ s with cal := { s.cal with items := [], internal := false, saved := [(R.TDC_TEST_CFG, 1), (R.HIS_FIND_CFG, 3)] } } : State).ready 5)|>.put F.CAL_STATUS_BUSY true |>.wr F.CAL_STATUS_ITEM 0)) State.reset 1000, 1000, by decide +kernel⟩,
    ⟨(fun (s : State) (u : Nat) => let s : State := { s with sys := { s.sys with calFrom := 4 } }; ((({ s with cal := { s.cal with items := [], internal := false, saved := [] } } : State).ready 5)|>.put F.CAL_STATUS_BUSY true |>.wr F.CAL_STATUS_ITEM 0)) State.reset 1000, 1000, by decide +kernel⟩,
    ⟨(fun (s : State) (u : Nat) => ((({ s with cal := { s.cal with items := [3], internal := false } } : State).ready 2)|>.put F.CAL_STATUS_BUSY true |>.wr F.CAL_STATUS_ITEM 3)) State.reset 1000, 1000, by decide +kernel⟩,
    ⟨(fun (s : State) (u : Nat) => ((s.ready 2)|>.put F.CAL_STATUS_BUSY false)) State.reset 1000, 1000, by decide +kernel⟩,
    ⟨(fun (s : State) => ((s.ready 2))) State.reset, by decide +kernel⟩,
    ⟨(fun (s : State) => ((s.ready 4))) State.reset, by decide +kernel⟩,
    ⟨(fun (s : State) => ((s.ready 4)|>.put F.CAL_STATUS_RERUN_PENDING false |>.put F.CAL_STATUS_BUSY false |>.put F.SYS_MODE_CFG_AUTO_RECAL true |>.wrS F.CAL_LAST_RZ_TEMP 300 |>.wrS F.THM_T_STAGE_T_RZ 900 |>.wr F.CAL_CFG_RECAL_DT 50)) State.reset, by decide +kernel⟩,
    ⟨(fun (s : State) => ((s.ready 2)|>.put F.CAL_STATUS_RERUN_PENDING true)) State.reset, by decide +kernel⟩⟩

/-- States and operands that meet the hypotheses of each clause of CalibrationStores. -/
theorem witness_CalibrationStores :
    (∃ (s : State) (_u : Nat), s.cal.drift = false ∧ s.tilHeld = false ∧ s.rd F.CAL_RZ_DRIFT_DRIFT_MAX < s.cal.dL.natAbs) ∧
    (∃ (s : State) (_u : Nat), (s.cal.drift = true ∨ s.tilHeld = true ∨ s.cal.dL.natAbs ≤ s.rd F.CAL_RZ_DRIFT_DRIFT_MAX)) ∧
    (∃ (s : State), 4 * s.cal.dL.natAbs < 3 * s.rd F.CAL_RZ_DRIFT_DRIFT_MAX ∧ s.on F.CAL_STATUS_RZ_FLAP = false) ∧
    (∃ (s : State), (3 * s.rd F.CAL_RZ_DRIFT_DRIFT_MAX ≤ 4 * s.cal.dL.natAbs ∨ s.on F.CAL_STATUS_RZ_FLAP = true)) ∧
    (∃ (s : State), s.mode ≠ mRESET) ∧
    (∃ (s : State) (k : Fin 4) (q : Fin 4) (_r : Fin 288), s.mode ≠ mRESET ∧ s.rd F.CAL_LEG_SEL_TEMP = k ∧ s.rd F.CAL_LEG_SEL_QUARTER = q) ∧
    (∃ (s : State), s.on F.CAL_CFG_LEG_EN = true ∧ s.rd F.CAL_LEG_STATUS_LOADED = 0xFFFF ∧ s.tilHeld = false) ∧
    (∃ (s : State), (s.on F.CAL_CFG_LEG_EN = false ∨ s.rd F.CAL_LEG_STATUS_LOADED ≠ 0xFFFF ∨ s.tilHeld = true)) ∧
    (∃ (s : State) (key : Fin 65536), s.mode ≠ mRESET ∧ ((key.val = 0xF05E ∧ s.mode = mSTANDBY ∧ s.sys.pfLow = false ∧ s.cal.burn = none ∧ 3124 ≤ s.rd F.CAL_FUSE_ROW_ROW ∧ s.rd F.CAL_FUSE_ROW_ROW ≤ 3199 ∧ s.fuseGet (s.rd F.CAL_FUSE_ROW_ROW) = none ∧ (3156 < s.rd F.CAL_FUSE_ROW_ROW ∨ s.on F.HDG_STATUS_SEAL_LOCK = false)))) ∧
    (∃ (s : State) (key : Fin 65536), s.mode ≠ mRESET ∧ (¬ (key.val = 0xF05E ∧ s.mode = mSTANDBY ∧ s.sys.pfLow = false ∧ s.cal.burn = none ∧ 3124 ≤ s.rd F.CAL_FUSE_ROW_ROW ∧ s.rd F.CAL_FUSE_ROW_ROW ≤ 3199 ∧ s.fuseGet (s.rd F.CAL_FUSE_ROW_ROW) = none ∧ (3156 < s.rd F.CAL_FUSE_ROW_ROW ∨ s.on F.HDG_STATUS_SEAL_LOCK = false)))) ∧
    (∃ (s : State) (_nb : Nat) (r : Nat) (data : Nat), s.cal.burn = some (r, data) ∧ s.cal.burnCut = true) ∧
    (∃ (s : State) (nb : Nat) (r : Nat) (data : Nat), s.cal.burn = some (r, data) ∧ s.cal.burnCut = false ∧ (((if fuseTorn (s.fuseRow r) then [] else [r]) ++ s.freeSpares).length ≤ nb)) ∧
    (∃ (s : State) (nb : Nat) (r : Nat) (data : Nat) (q : Nat), s.cal.burn = some (r, data) ∧ s.cal.burnCut = false ∧ (((if fuseTorn (s.fuseRow r) then [] else [r]) ++ s.freeSpares)[nb]? = some q) ∧ r < 4088) ∧
    (∃ (s : State) (_nb : Nat), s.cal.burn = none) ∧
    (∃ (s : State), s.mode ≠ mRESET ∧ s.on F.CAL_STATUS_JRN_BUSY = false ∧ s.sys.pfLow = false) ∧
    (∃ (s : State), s.mode ≠ mRESET ∧ s.on F.CAL_STATUS_JRN_BUSY = false ∧ s.sys.pfLow = true) ∧
    (∃ (s : State), s.mode ≠ mRESET ∧ s.on F.CAL_STATUS_JRN_BUSY = true) ∧
    (∃ (s : State) (_ok : Bool), s.on F.CAL_STATUS_JRN_BUSY = true ∧ (s.boot.heldReset = none ∨ s.boot.saving.isSome = true ∨ s.boot.writing.isSome = true)) ∧
    (∃ (s : State) (_ok : Bool), s.on F.CAL_STATUS_JRN_BUSY = false ∧ (s.boot.heldReset = none ∨ s.boot.saving.isSome = true ∨ s.boot.writing.isSome = true)) ∧
    (∃ (s : State) (_ok : Bool) (g : Nat) (w : Bool), s.on F.CAL_STATUS_JRN_BUSY = true ∧ s.mode ≠ mRESET ∧ s.boot.heldReset = some (g, w) ∧ s.boot.saving = none ∧ s.boot.writing = none) :=
  ⟨⟨(fun (s : State) (u : Nat) => ((({ s with cal := { s.cal with drift := false, dL := 70000 } } : State).ready 2))) State.reset 1000, 1000, by decide +kernel⟩,
    ⟨(fun (s : State) (u : Nat) => ((({ s with cal := { s.cal with drift := true } } : State).ready 2))) State.reset 1000, 1000, by decide +kernel⟩,
    ⟨(fun (s : State) => ((({ s with cal := { s.cal with dL := 0 } } : State).ready 2)|>.wr F.CAL_RZ_DRIFT_DRIFT_MAX 50 |>.put F.CAL_STATUS_RZ_FLAP false)) State.reset, by decide +kernel⟩,
    ⟨(fun (s : State) => ((({ s with cal := { s.cal with dL := 70000 } } : State).ready 2))) State.reset, by decide +kernel⟩,
    ⟨(fun (s : State) => ((s.ready 2))) State.reset, by decide +kernel⟩,
    ⟨(fun (s : State) (k : Fin 4) (q : Fin 4) (r : Fin 288) => ((s.ready 2)|>.wr F.CAL_LEG_SEL_TEMP k |>.wr F.CAL_LEG_SEL_QUARTER q |>.setReg (R.CAL_LEG_WIN 0) 0x4C580288 |>.setReg (R.CAL_LEG_WIN 580) 3930365979)) State.reset 1 2 5, 1, 2, 5, by decide +kernel⟩,
    ⟨(fun (s : State) => ((({ s with cal := { s.cal with legTemp := (List.range 16).map fun i => (i, 100 * (i / 4 : Nat)), legBofs := [(5, 3000), (1152 + 5, 4501), (2304 + 5, 7), (700, 9), (1152 + 700, 100)], legSkew := [], legRun := [] } } : State).ready 2)|>.put F.CAL_CFG_LEG_EN true |>.wr F.CAL_LEG_STATUS_LOADED 0xFFFF |>.wrS F.THM_T_STAGE_T_RZ 150)) State.reset, by decide +kernel⟩,
    ⟨(fun (s : State) => ((s.ready 2)|>.put F.CAL_CFG_LEG_EN false)) State.reset, by decide +kernel⟩,
    ⟨(fun (s : State) (key : Fin 65536) => let s : State := { s with sys := { s.sys with pfLow := false } }; ((({ s with cal := { s.cal with burn := none, fuse := [] } } : State).ready 2)|>.put F.HDG_STATUS_SEAL_LOCK false |>.wr F.CAL_FUSE_ROW_ROW 3130)) State.reset 0xF05E, 0xF05E, by decide +kernel⟩,
    ⟨(fun (s : State) (key : Fin 65536) => ((s.ready 2))) State.reset 5, 5, by decide +kernel⟩,
    ⟨(fun (s : State) (nb : Nat) (r : Nat) (data : Nat) => ((({ s with cal := { s.cal with burn := some (r, data), burnCut := true } } : State).ready 2))) State.reset 1 3130 77, 1, 3130, 77, by decide +kernel⟩,
    ⟨(fun (s : State) (nb : Nat) (r : Nat) (data : Nat) => ((({ s with cal := { s.cal with burn := some (r, data), burnCut := false, fuse := [] } } : State).ready 2))) State.reset 9 3130 77, 9, 3130, 77, by decide +kernel⟩,
    ⟨(fun (s : State) (nb : Nat) (r : Nat) (data : Nat) (q : Nat) => ((({ s with cal := { s.cal with burn := some (r, data), burnCut := false, fuse := [] } } : State).ready 2))) State.reset 0 3130 77 3130, 0, 3130, 77, 3130, by decide +kernel⟩,
    ⟨(fun (s : State) (nb : Nat) => ((({ s with cal := { s.cal with burn := none } } : State).ready 2))) State.reset 1, 1, by decide +kernel⟩,
    ⟨(fun (s : State) => let s : State := { s with sys := { s.sys with pfLow := false } }; ((s.ready 2)|>.put F.CAL_STATUS_JRN_BUSY false)) State.reset, by decide +kernel⟩,
    ⟨(fun (s : State) => let s : State := { s with sys := { s.sys with pfLow := true } }; ((s.ready 2)|>.put F.CAL_STATUS_JRN_BUSY false)) State.reset, by decide +kernel⟩,
    ⟨(fun (s : State) => ((s.ready 2)|>.put F.CAL_STATUS_JRN_BUSY true)) State.reset, by decide +kernel⟩,
    ⟨(fun (s : State) (ok : Bool) => let s : State := { s with boot := { s.boot with heldReset := none } }; ((s.ready 2)|>.put F.CAL_STATUS_JRN_BUSY true)) State.reset true, true, by decide +kernel⟩,
    ⟨(fun (s : State) (ok : Bool) => let s : State := { s with boot := { s.boot with heldReset := none } }; ((s.ready 2)|>.put F.CAL_STATUS_JRN_BUSY false)) State.reset true, true, by decide +kernel⟩,
    ⟨(fun (s : State) (ok : Bool) (g : Nat) (w : Bool) => let s : State := { s with boot := { s.boot with heldReset := some (g, w), saving := none, writing := none } }; ((s.ready 2)|>.put F.CAL_STATUS_JRN_BUSY true)) State.reset true 4 true, true, 4, true, by decide +kernel⟩⟩

/-- States and operands that meet the hypotheses of each clause of ThermalControl. -/
theorem witness_ThermalControl :
    (∃ (s : State) (k : Fin 24) (_v : Int), (Tab.get (fun _ => 0) s.thm.conv k ≠ 15) ∧ s.mode ≠ mRESET) ∧
    (∃ (s : State) (k : Fin 24) (_v : Int), (Tab.get (fun _ => 0) s.thm.conv k ≠ 15) ∧ s.mode = mRESET) ∧
    (∃ (s : State) (k : Fin 24) (_v : Int), (Tab.get (fun _ => 0) s.thm.conv k = 15)) ∧
    (∃ (s : State) (k : Fin 24) (cause : Fin 3), s.mode ≠ mRESET ∧ s.snsState k ≠ 2 ∧ s.failSeen k cause = true) ∧
    (∃ (s : State) (k : Fin 24) (cause : Fin 3), (s.mode = mRESET ∨ s.snsState k = 2 ∨ s.failSeen k cause = false)) ∧
    (∃ (s : State) (k : Fin 32), k.val < 24 ∧ ((s.mode = mSTANDBY ∨ s.mode = mSAFESTOP)) ∧ s.snsState k = 1) ∧
    (∃ (s : State) (k : Fin 32), k.val < 24 ∧ ((s.mode = mSTANDBY ∨ s.mode = mSAFESTOP)) ∧ s.snsState k ≠ 1) ∧
    (∃ (s : State) (k : Fin 32), k.val < 24 ∧ ((s.mode = mSTANDBY ∨ s.mode = mSAFESTOP)) ∧ 2 ≤ s.zoneLeft k) ∧
    (∃ (s : State) (k : Fin 32), (24 ≤ k.val ∨ (s.mode ≠ mSTANDBY ∧ s.mode ≠ mSAFESTOP)) ∧ s.mode ≠ mRESET) ∧
    (∃ (s : State) (k : Fin 32), s.zoneLeft k < 2 ∧ s.mode ≠ mRESET) ∧
    (∃ (s : State) (inds : Fin 8) (_u : Nat), s.mode ≠ mRESET ∧ ((inds.val.testBit 0 && !(s.rd F.THM_STATUS_IND).testBit 0 && decide (s.thrOf 0 ≤ s.rdS F.THM_T_STAGE_T_STAGE)) || (inds.val.testBit 1 && !(s.rd F.THM_STATUS_IND).testBit 1 && decide (s.thrOf 1 ≤ s.rdS F.THM_T_STAGE_T_STAGE)) || (inds.val.testBit 2 && !(s.rd F.THM_STATUS_IND).testBit 2 && decide (s.thrOf 2 ≤ s.rdS F.THM_T_STAGE_T_STAGE))) = true) ∧
    (∃ (s : State) (inds : Fin 8) (_u : Nat), (s.mode = mRESET ∨ ((inds.val.testBit 0 && !(s.rd F.THM_STATUS_IND).testBit 0 && decide (s.thrOf 0 ≤ s.rdS F.THM_T_STAGE_T_STAGE)) || (inds.val.testBit 1 && !(s.rd F.THM_STATUS_IND).testBit 1 && decide (s.thrOf 1 ≤ s.rdS F.THM_T_STAGE_T_STAGE)) || (inds.val.testBit 2 && !(s.rd F.THM_STATUS_IND).testBit 2 && decide (s.thrOf 2 ≤ s.rdS F.THM_T_STAGE_T_STAGE))) = false)) ∧
    (∃ (s : State) (inds : Fin 8), s.mode ≠ mRESET ∧ ((inds.val.testBit 0 && (s.rd F.THM_STATUS_IND).testBit 0 && !s.thm.latched.testBit 0 && decide (s.rdS F.THM_T_STAGE_T_STAGE < s.thrOf 0 - 10 * s.rd F.THM_HYST_HYST)) || (inds.val.testBit 1 && (s.rd F.THM_STATUS_IND).testBit 1 && !s.thm.latched.testBit 1 && decide (s.rdS F.THM_T_STAGE_T_STAGE < s.thrOf 1 - 10 * s.rd F.THM_HYST_HYST)) || (inds.val.testBit 2 && (s.rd F.THM_STATUS_IND).testBit 2 && !s.thm.latched.testBit 2 && decide (s.rdS F.THM_T_STAGE_T_STAGE < s.thrOf 2 - 10 * s.rd F.THM_HYST_HYST))) = true) ∧
    (∃ (s : State) (inds : Fin 8), (s.mode = mRESET ∨ ((inds.val.testBit 0 && (s.rd F.THM_STATUS_IND).testBit 0 && !s.thm.latched.testBit 0 && decide (s.rdS F.THM_T_STAGE_T_STAGE < s.thrOf 0 - 10 * s.rd F.THM_HYST_HYST)) || (inds.val.testBit 1 && (s.rd F.THM_STATUS_IND).testBit 1 && !s.thm.latched.testBit 1 && decide (s.rdS F.THM_T_STAGE_T_STAGE < s.thrOf 1 - 10 * s.rd F.THM_HYST_HYST)) || (inds.val.testBit 2 && (s.rd F.THM_STATUS_IND).testBit 2 && !s.thm.latched.testBit 2 && decide (s.rdS F.THM_T_STAGE_T_STAGE < s.thrOf 2 - 10 * s.rd F.THM_HYST_HYST))) = false)) ∧
    (∃ (s : State), s.mode ≠ mRESET) ∧
    (∃ (s : State) (_rings : List Nat) (_rails : List Nat), s.mode ≠ mRESET) ∧
    (∃ (s : State) (_rings : List Nat) (_rails : List Nat), s.mode = mRESET) ∧
    (∃ (s : State) (r : Fin 6) (mv : Nat) (_u : Nat), s.mode ≠ mRESET ∧ 105 * railNominal r < 100 * mv) ∧
    (∃ (s : State) (r : Fin 6) (mv : Nat) (_u : Nat), s.mode ≠ mRESET ∧ 100 * mv < 95 * railNominal r) ∧
    (∃ (s : State) (r : Fin 6) (mv : Nat) (_u : Nat), (s.mode = mRESET ∨ (95 * railNominal r ≤ 100 * mv ∧ 100 * mv ≤ 105 * railNominal r))) ∧
    (∃ (s : State) (r : Fin 6) (mv : Nat), s.mode ≠ mRESET ∧ 96 * railNominal r ≤ 100 * mv ∧ 100 * mv ≤ 104 * railNominal r) ∧
    (∃ (s : State) (r : Fin 6) (mv : Nat), (s.mode = mRESET ∨ 100 * mv < 96 * railNominal r ∨ 104 * railNominal r < 100 * mv)) :=
  ⟨⟨(fun (s : State) (k : Fin 24) (v : Int) => ((({ s with thm := { s.thm with conv := [] } } : State).ready 2))) State.reset 3 300, 3, 300, by decide +kernel⟩,
    ⟨(fun (s : State) (k : Fin 24) (v : Int) => ((({ s with thm := { s.thm with conv := [] } } : State).ready 0))) State.reset 3 300, 3, 300, by decide +kernel⟩,
    ⟨(fun (s : State) (k : Fin 24) (v : Int) => ((({ s with thm := { s.thm with conv := [(k.val, 15)] } } : State).ready 2))) State.reset 3 300, 3, 300, by decide +kernel⟩,
    ⟨(fun (s : State) (k : Fin 24) (cause : Fin 3) => ((({ s with thm := { s.thm with testRun := [(k.val, 5)] } } : State).ready 2)|>.wrS (F.THM_SNS_T_RAW k) 1700 |>.wr (F.THM_SNS_ST_STATE k) 0)) State.reset 3 1, 3, 1, by decide +kernel⟩,
    ⟨(fun (s : State) (k : Fin 24) (cause : Fin 3) => ((s.ready 0))) State.reset 3 1, 3, 1, by decide +kernel⟩,
    ⟨(fun (s : State) (k : Fin 32) => ((s.ready 2)|>.wr (F.THM_SNS_ST_STATE k) 1)) State.reset 3, 3, by decide +kernel⟩,
    ⟨(fun (s : State) (k : Fin 32) => ((s.ready 2)|>.wr (F.THM_SNS_ST_STATE k) 0)) State.reset 3, 3, by decide +kernel⟩,
    ⟨(fun (s : State) (k : Fin 32) => ((s.ready 2))) State.reset 3, 3, by decide +kernel⟩,
    ⟨(fun (s : State) (k : Fin 32) => ((s.ready 4))) State.reset 3, 3, by decide +kernel⟩,
    ⟨(fun (s : State) (k : Fin 32) => ((s.ready 2)|>.wr (F.THM_SNS_ST_STATE 8) 2 |>.wr (F.THM_SNS_ST_STATE 9) 2)) State.reset 10, 10, by decide +kernel⟩,
    ⟨(fun (s : State) (inds : Fin 8) (u : Nat) => ((s.ready 4)|>.wr F.THM_STATUS_IND 0 |>.wrS F.THM_T_STAGE_T_STAGE 1100 |>.wr F.THM_THR_WARM 85 |>.wr F.THM_THR_HOT 95 |>.wr F.THM_THR_CRITICAL (if u % 2 = 0 then 105 else 115))) State.reset 3 1000, 3, 1000, by decide +kernel⟩,
    ⟨(fun (s : State) (inds : Fin 8) (u : Nat) => ((s.ready 0))) State.reset 3 1000, 3, 1000, by decide +kernel⟩,
    ⟨(fun (s : State) (inds : Fin 8) => ((({ s with thm := { s.thm with latched := 0 } } : State).ready 6)|>.wr F.THM_STATUS_IND 7 |>.wrS F.THM_T_STAGE_T_STAGE 300 |>.wr F.THM_THR_WARM 85 |>.wr F.THM_THR_HOT 95 |>.wr F.THM_THR_CRITICAL 105 |>.wr F.THM_HYST_HYST 3)) State.reset 3, 3, by decide +kernel⟩,
    ⟨(fun (s : State) (inds : Fin 8) => ((s.ready 0))) State.reset 3, 3, by decide +kernel⟩,
    ⟨(fun (s : State) => ((s.ready 2))) State.reset, by decide +kernel⟩,
    ⟨(fun (s : State) (rings : List Nat) (rails : List Nat) => let s : State := { s with cal := { s.cal with beats := 99 } }; ((({ s with thm := { s.thm with dllRun := [(3, 9), (4, 12)] } } : State).ready 2)|>.put F.THM_COMP_CFG_DLL_EN true |>.wrS F.THM_COMP_CFG_DLL_SLOPE 30)) State.reset ([1, 2]) [750], [1, 2], [750], by decide +kernel⟩,
    ⟨(fun (s : State) (rings : List Nat) (rails : List Nat) => ((s.ready 0))) State.reset ([1, 2]) [750], [1, 2], [750], by decide +kernel⟩,
    ⟨(fun (s : State) (r : Fin 6) (mv : Nat) (u : Nat) => ((({ s with thm := { s.thm with latched := 0 } } : State).ready 2)|>.put (F.THM_RAIL_OV r) false)) State.reset 1 900 1000, 1, 900, 1000, by decide +kernel⟩,
    ⟨(fun (s : State) (r : Fin 6) (mv : Nat) (u : Nat) => ((({ s with thm := { s.thm with latched := 0 } } : State).ready 2)|>.put (F.THM_RAIL_UV r) false)) State.reset 1 700 1000, 1, 700, 1000, by decide +kernel⟩,
    ⟨(fun (s : State) (r : Fin 6) (mv : Nat) (u : Nat) => ((s.ready 0))) State.reset 1 700 1000, 1, 700, 1000, by decide +kernel⟩,
    ⟨(fun (s : State) (r : Fin 6) (mv : Nat) => ((s.ready 2))) State.reset 1 810, 1, 810, by decide +kernel⟩,
    ⟨(fun (s : State) (r : Fin 6) (mv : Nat) => ((s.ready 0))) State.reset 1 810, 1, 810, by decide +kernel⟩⟩

/-- States and operands that meet the hypotheses of each clause of MemoryController. -/
theorem witness_MemoryController :
    (∃ (s : State), s.mode ≠ mRESET ∧ s.sys.dramStopped = false ∧ s.on F.MEM_CTRL_EN = false) ∧
    (∃ (s : State), s.mode ≠ mRESET ∧ s.sys.dramStopped = false ∧ s.on F.MEM_CTRL_EN = true) ∧
    (∃ (s : State), s.mode ≠ mRESET ∧ s.sys.dramStopped = false ∧ s.memState = 2 ∧ s.on F.MEM_TRN_CTRL_BUSY = false) ∧
    (∃ (s : State), s.mode ≠ mRESET ∧ s.sys.dramStopped = false ∧ s.memState = 3) ∧
    (∃ (s : State), s.mode ≠ mRESET ∧ s.sys.dramStopped = false ∧ s.memState = 4) ∧
    (∃ (s : State), s.mode ≠ mRESET ∧ s.sys.dramStopped = false ∧ (s.memState = 0 ∨ s.memState = 4)) ∧
    (∃ (s : State), s.mode ≠ mRESET ∧ s.sys.dramStopped = false ∧ ((s.memState = 2 ∧ s.on F.MEM_TRN_CTRL_BUSY = true) ∨ s.memState = 1 ∨ 5 ≤ s.memState)) ∧
    (∃ (s : State), s.mode ≠ mRESET ∧ s.sys.dramStopped = false ∧ s.memState ≠ 3 ∧ s.memState ≠ 4) ∧
    (∃ (s : State), s.memState = 3) ∧
    (∃ (s : State) (a : Nat), s.memState = 3 ∧ s.rd F.MEM_CFG_ORDER = 2 ∧ a < s.localSize) ∧
    (∃ (s : State), s.memState ≠ 3) ∧
    (∃ (s : State), s.memState = 5) ∧
    (∃ (s : State), s.memState = 5 ∧ s.on F.MEM_STATUS_INIT_BUSY = false ∧ s.on F.MEM_TRN_CTRL_BUSY = false ∧ s.sys.dramStopped = false ∧ s.mem.initDue = true ∧ s.boot.memJobs = [] ∧ s.boot.tx = none) ∧
    (∃ (s : State), s.memState = 5 ∧ s.on F.MEM_STATUS_INIT_BUSY = false ∧ s.on F.MEM_TRN_CTRL_BUSY = false ∧ s.sys.dramStopped = false ∧ s.mem.initDue = false ∧ s.mem.srDue = true ∧ s.boot.memJobs = [] ∧ s.boot.tx = none) ∧
    (∃ (s : State), s.memState ≠ 5) ∧
    (∃ (s : State), s.mode ≠ mRESET ∧ s.sys.dramStopped = false ∧ ((s.mode = mSTANDBY ∨ s.mode = mRECOVERY) ∧ s.running = false ∧ s.on F.MER_CAP_CTRL_EN = false ∧ s.cap.closing = false) ∧ s.memReady = true) ∧
    (∃ (s : State), s.mode ≠ mRESET ∧ s.sys.dramStopped = false ∧ ((s.mode = mSTANDBY ∨ s.mode = mRECOVERY) ∧ s.running = false ∧ s.on F.MER_CAP_CTRL_EN = false ∧ s.cap.closing = false) ∧ s.memReady = false ∧ (s.memState = 0 ∨ s.on F.MEM_STATUS_INIT_BUSY = true)) ∧
    (∃ (s : State), s.mode ≠ mRESET ∧ s.sys.dramStopped = false ∧ ((s.mode = mSTANDBY ∨ s.mode = mRECOVERY) ∧ s.running = false ∧ s.on F.MER_CAP_CTRL_EN = false ∧ s.cap.closing = false) ∧ s.memReady = false ∧ s.memState ≠ 0 ∧ s.on F.MEM_STATUS_INIT_BUSY = false) ∧
    (∃ (s : State), s.mode ≠ mRESET ∧ s.sys.dramStopped = false ∧ (¬ ((s.mode = mSTANDBY ∨ s.mode = mRECOVERY) ∧ s.running = false ∧ s.on F.MER_CAP_CTRL_EN = false ∧ s.cap.closing = false))) ∧
    (∃ (s : State), s.on F.MEM_STATUS_INIT_BUSY = true) ∧
    (∃ (s : State), s.on F.MEM_STATUS_INIT_BUSY = false) ∧
    (∃ (s : State) (p : Fin 8) (idx : Nat) (r : Req) (a : Nat) (_j : Nat) (_w : Nat) (_link : Fin 4) (_found : Fin 3), (s.memReady = true ∨ s.memState = 0) ∧ (s.port p)[idx]? = some r ∧ s.mayServe p idx = true ∧ s.place p r.addr = .loc a ∧ s.boot.memJobs = [] ∧ s.boot.tx = none ∧ r.write = true) ∧
    (∃ (s : State) (p : Fin 8) (idx : Nat) (r : Req) (a : Nat) (_link : Fin 4) (_found : Fin 3), (s.memReady = true ∨ s.memState = 0) ∧ (s.port p)[idx]? = some r ∧ s.mayServe p idx = true ∧ s.place p r.addr = .loc a ∧ s.boot.memJobs = [] ∧ s.boot.tx = none ∧ r.write = false) ∧
    (∃ (s : State) (p : Fin 8) (idx : Nat) (r : Req) (h : Nat) (_link : Fin 4) (_found : Fin 3), (s.memReady = true ∨ s.memState = 0) ∧ (s.port p)[idx]? = some r ∧ s.mayServe p idx = true ∧ s.place p r.addr = .host h ∧ s.boot.memJobs = [] ∧ s.boot.tx = none ∧ (r.write = true ∨ s.lnk.reads.length < 64)) ∧
    (∃ (s : State) (p : Fin 8) (idx : Nat) (r : Req) (c : Nat) (_link : Fin 4) (_found : Fin 3), (s.memReady = true ∨ s.memState = 0) ∧ (s.port p)[idx]? = some r ∧ s.mayServe p idx = true ∧ s.place p r.addr = .bad c ∧ s.boot.memJobs = [] ∧ s.boot.tx = none) ∧
    (∃ (s : State) (p : Fin 8) (idx : Nat) (_link : Fin 4) (_found : Fin 3), (s.memReady = true ∨ s.memState = 0) ∧ ¬ (p = 4 ∧ s.port p = []) ∧ s.mayServe p idx = false) ∧
    (∃ (s : State) (_idx : Nat) (_link : Fin 4) (_found : Fin 3), (s.memReady = true ∨ s.memState = 0) ∧ s.port 4 = []) ∧
    (∃ (s : State) (p : Fin 8) (idx : Nat) (r : Req) (_link : Fin 4) (_found : Fin 3), (s.memReady = true ∨ s.memState = 0) ∧ (s.port p)[idx]? = some r ∧ s.mayServe p idx = true) ∧
    (∃ (s : State) (p : Fin 8) (_idx : Nat) (_link : Fin 4) (_found : Fin 3), s.memReady = false ∧ s.memState ≠ 0 ∧ s.port p = []) ∧
    (∃ (s : State) (p : Fin 8) (_idx : Nat) (_link : Fin 4) (_found : Fin 3), s.memReady = false ∧ s.memState ≠ 0 ∧ s.port p ≠ []) ∧
    (∃ (s : State) (p : Fin 8) (idx : Nat), idx < (s.port p).length) ∧
    (∃ (s : State) (p : Fin 8) (idx : Nat), (s.port p).length ≤ idx ∧ idx < (s.queued p).length) ∧
    (∃ (s : State) (p : Fin 8) (idx : Nat), (s.queued p).length ≤ idx ∧ (s.port p).length ≤ idx) ∧
    (∃ (s : State) (p : Fin 8) (_u : Nat), s.on (F.MEM_PORT_CFG_PANIC_EN p) = true ∧ s.on (F.MEM_PORT_STATUS_PANIC p) = false ∧ (s.rd (F.MEM_PORT_PANIC_PANIC_HI p) < (s.queued p).length ∨ s.oldestUrgent p = true)) ∧
    (∃ (s : State) (p : Fin 8) (_u : Nat), (s.on (F.MEM_PORT_CFG_PANIC_EN p) = false ∨ s.on (F.MEM_PORT_STATUS_PANIC p) = true ∨ ((s.queued p).length ≤ s.rd (F.MEM_PORT_PANIC_PANIC_HI p) ∧ s.oldestUrgent p = false))) ∧
    (∃ (s : State) (_p : Fin 8), s.mode ≠ mRESET ∧ s.sys.dramStopped = false) ∧
    (∃ (s : State) (ch : Fin 4) (bank : Fin 16), s.memState = 2 ∧ s.panicNeeds ch bank = true ∧ s.owed ch bank < s.rd F.MEM_REF_CFG_POSTPONE) ∧
    (∃ (s : State) (ch : Fin 4) (bank : Fin 16) (w : Bool), s.memState = 2 ∧ (w = false ∨ s.panicNeeds ch bank = false ∨ s.rd F.MEM_REF_CFG_POSTPONE ≤ s.owed ch bank)) ∧
    (∃ (s : State) (_ch : Fin 4) (_bank : Fin 16) (_w : Bool), s.memState ≠ 2) ∧
    (∃ (s : State) (ch : Fin 4) (_bank : Fin 16) (share : Nat) (_u : Nat), (Tab.get (fun _ => []) s.mem.windows ch = []) ∧ 16 ≤ share ∧ share ≤ 256) ∧
    (∃ (s : State) (ch : Fin 4) (_bank : Fin 16) (_share : Nat) (_u : Nat) (w : Nat) (rest : List Nat), (Tab.get (fun _ => []) s.mem.windows ch = w :: rest) ∧ 16 ≤ w % 1024 ∧ w % 1024 ≤ 256 ∧ w / 1024 < 16) ∧
    (∃ (s : State) (_found : Fin 3), s.on F.MEM_SCRUB_CFG_EN = true ∧ s.on F.MEM_CFG_INLINE = true ∧ s.localSize ≠ 0 ∧ s.memBlocked = false ∧ State.engineTurn { s with mem := { s.mem with scrubWaits := true } } 7 = true) ∧
    (∃ (s : State) (_found : Fin 3), s.on F.MEM_SCRUB_CFG_EN = true ∧ s.on F.MEM_CFG_INLINE = true ∧ s.localSize ≠ 0 ∧ s.memBlocked = false ∧ State.engineTurn { s with mem := { s.mem with scrubWaits := true } } 7 = false) ∧
    (∃ (s : State) (_found : Fin 3), s.on F.MEM_SCRUB_CFG_EN = true ∧ s.on F.MEM_CFG_INLINE = true ∧ s.localSize ≠ 0 ∧ (s.memBlocked = true ∧ (s.memState ≠ 3 ∨ Tab.get (fun _ => 0) s.mem.drain 7 = 0))) ∧
    (∃ (s : State) (_found : Fin 3), (s.on F.MEM_SCRUB_CFG_EN = false ∨ s.on F.MEM_CFG_INLINE = false ∨ s.localSize = 0)) ∧
    (∃ (s : State) (_read : Bool) (_ch : Fin 4) (rank : Bool) (_ma : Byte) (_op : Byte), s.mode ≠ mRESET ∧ s.sys.dramStopped = false ∧ (s.on F.MEM_MR_CMD_BUSY = false ∧ (rank = false ∨ s.on F.MEM_CFG_RANKS = true))) ∧
    (∃ (s : State) (_read : Bool) (_ch : Fin 4) (rank : Bool) (_ma : Byte) (_op : Byte), s.mode ≠ mRESET ∧ s.sys.dramStopped = false ∧ (s.on F.MEM_MR_CMD_BUSY = true ∨ (rank = true ∧ s.on F.MEM_CFG_RANKS = false))) ∧
    (∃ (s : State) (_data : Byte), s.on F.MEM_MR_CMD_BUSY = true) ∧
    (∃ (s : State) (_data : Byte), s.on F.MEM_MR_CMD_BUSY = false) ∧
    (∃ (s : State), s.mode ≠ mRESET ∧ s.sys.dramStopped = false ∧ s.on F.MEM_TRN_CTRL_BUSY = false) ∧
    (∃ (s : State), s.mode ≠ mRESET ∧ s.sys.dramStopped = false ∧ s.on F.MEM_TRN_CTRL_BUSY = true) ∧
    (∃ (s : State) (_masks : List (BitVec 16)), s.on F.MEM_TRN_CTRL_BUSY = true) ∧
    (∃ (s : State) (_masks : List (BitVec 16)), s.on F.MEM_TRN_CTRL_BUSY = false) :=
  ⟨⟨(fun (s : State) => let s : State := { s with boot := { s.boot with memJobs := [], tx := none }, mem := { s.mem with srDue := false, initDue := false } }; (let s : State := { s with sys := { s.sys with dramStopped := false } }; ((s.ready 2)|>.put F.MEM_CTRL_EN false))) State.reset, by decide +kernel⟩,
    ⟨(fun (s : State) => let s : State := { s with boot := { s.boot with memJobs := [], tx := none }, mem := { s.mem with srDue := false, initDue := false } }; (let s : State := { s with sys := { s.sys with dramStopped := false } }; ((s.ready 2)|>.put F.MEM_CTRL_EN true))) State.reset, by decide +kernel⟩,
    ⟨(fun (s : State) => (let s : State := { s with sys := { s.sys with dramStopped := false } }; ((({ s with mem := { s.mem with queues := s.mem.queues.map fun e => (e.1 % 8, (e.2.take 2).map fun r => { r with len := r.len % 64, data := r.data.take 8 }) } } : State).ready 2)|>.wr F.MEM_STATUS_STATE 2 |>.put F.MEM_STATUS_INIT_BUSY false |>.put F.MEM_TRN_CTRL_BUSY false))) State.reset, by decide +kernel⟩,
    ⟨(fun (s : State) => (let s : State := { s with sys := { s.sys with dramStopped := false } }; ((s.ready 2)|>.wr F.MEM_STATUS_STATE 3 |>.put F.MEM_STATUS_PENDING_ENABLE false))) State.reset, by decide +kernel⟩,
    ⟨(fun (s : State) => (let s : State := { s with sys := { s.sys with dramStopped := false } }; ((s.ready 2)|>.wr F.MEM_STATUS_STATE 4))) State.reset, by decide +kernel⟩,
    ⟨(fun (s : State) => (let s : State := { s with sys := { s.sys with dramStopped := false } }; ((s.ready 2)|>.wr F.MEM_STATUS_STATE 4))) State.reset, by decide +kernel⟩,
    ⟨(fun (s : State) => (let s : State := { s with sys := { s.sys with dramStopped := false } }; ((s.ready 2)|>.wr F.MEM_STATUS_STATE 5))) State.reset, by decide +kernel⟩,
    ⟨(fun (s : State) => (let s : State := { s with sys := { s.sys with dramStopped := false } }; ((s.ready 2)|>.wr F.MEM_STATUS_STATE 2))) State.reset, by decide +kernel⟩,
    ⟨(fun (s : State) => (let s : State := { s with sys := { s.sys with dramStopped := false } }; ((s.ready 2)|>.wr F.MEM_STATUS_STATE 3))) State.reset, by decide +kernel⟩,
    ⟨(fun (s : State) (a : Nat) => (let s : State := { s with sys := { s.sys with dramStopped := false } }; ((s.ready 2)|>.wr F.MEM_STATUS_STATE 3 |>.wr F.MEM_CFG_ORDER 2|>.wr F.MEM_SIZE_MIB 2048))) State.reset 4096, 4096, by decide +kernel⟩,
    ⟨(fun (s : State) => (let s : State := { s with sys := { s.sys with dramStopped := false } }; ((s.ready 2)|>.wr F.MEM_STATUS_STATE 2))) State.reset, by decide +kernel⟩,
    ⟨(fun (s : State) => let s : State := { s with boot := { s.boot with memJobs := [], tx := none }, mem := { s.mem with srDue := false, initDue := false } }; (let s : State := { s with sys := { s.sys with dramStopped := false } }; ((s.ready 2)|>.wr F.MEM_STATUS_STATE 5))) State.reset, by decide +kernel⟩,
    ⟨(fun (s : State) => let s : State := { s with boot := { s.boot with memJobs := [], tx := none }, mem := { s.mem with srDue := false, initDue := false } }; (let s : State := { s with sys := { s.sys with dramStopped := false } }; ((({ s with mem := { s.mem with initDue := true } } : State).ready 2)|>.wr F.MEM_STATUS_STATE 2 |>.put F.MEM_STATUS_INIT_BUSY false |>.put F.MEM_TRN_CTRL_BUSY false|>.wr F.MEM_STATUS_STATE 5))) State.reset, by decide +kernel⟩,
    ⟨(fun (s : State) => let s : State := { s with boot := { s.boot with memJobs := [], tx := none }, mem := { s.mem with srDue := false, initDue := false } }; (let s : State := { s with sys := { s.sys with dramStopped := false } }; ((({ s with mem := { s.mem with srDue := true, queues := s.mem.queues.map fun e => (e.1 % 8, (e.2.take 2).map fun r => { r with len := r.len % 64, data := r.data.take 8 }) } } : State).ready 2)|>.wr F.MEM_STATUS_STATE 2 |>.put F.MEM_STATUS_INIT_BUSY false |>.put F.MEM_TRN_CTRL_BUSY false|>.wr F.MEM_STATUS_STATE 5))) State.reset, by decide +kernel⟩,
    ⟨(fun (s : State) => (let s : State := { s with sys := { s.sys with dramStopped := false } }; ((s.ready 2)|>.wr F.MEM_STATUS_STATE 2))) State.reset, by decide +kernel⟩,
    ⟨(fun (s : State) => let s : State := { s with cap := { s.cap with closing := false } }; (let s : State := { s with sys := { s.sys with dramStopped := false } }; ((s.ready 2)|>.wr F.MEM_STATUS_STATE 2 |>.put F.MEM_STATUS_INIT_BUSY false |>.put F.MEM_TRN_CTRL_BUSY false|>.put F.MER_CAP_CTRL_EN false |>.put F.HIS_STATUS_RUNNING false))) State.reset, by decide +kernel⟩,
    ⟨(fun (s : State) => let s : State := { s with cap := { s.cap with closing := false } }; (let s : State := { s with sys := { s.sys with dramStopped := false } }; ((s.ready 2)|>.wr F.MEM_STATUS_STATE 0|>.put F.MER_CAP_CTRL_EN false |>.put F.HIS_STATUS_RUNNING false))) State.reset, by decide +kernel⟩,
    ⟨(fun (s : State) => let s : State := { s with cap := { s.cap with closing := false } }; (let s : State := { s with sys := { s.sys with dramStopped := false } }; ((s.ready 2)|>.wr F.MEM_STATUS_STATE 2 |>.put F.MEM_STATUS_INIT_BUSY false |>.put F.MEM_TRN_CTRL_BUSY false|>.wr F.MEM_STATUS_STATE (3 + s.rd F.MEM_CFG_DENSITY % 3)|>.put F.MER_CAP_CTRL_EN false |>.put F.HIS_STATUS_RUNNING false))) State.reset, by decide +kernel⟩,
    ⟨(fun (s : State) => (let s : State := { s with sys := { s.sys with dramStopped := false } }; ((s.ready 4)))) State.reset, by decide +kernel⟩,
    ⟨(fun (s : State) => let s : State := { s with boot := { s.boot with memJobs := [], tx := none }, mem := { s.mem with srDue := false, initDue := false } }; (let s : State := { s with sys := { s.sys with dramStopped := false } }; ((s.ready 2)|>.put F.MEM_STATUS_INIT_BUSY true))) State.reset, by decide +kernel⟩,
    ⟨(fun (s : State) => (let s : State := { s with sys := { s.sys with dramStopped := false } }; ((s.ready 2)|>.put F.MEM_STATUS_INIT_BUSY false))) State.reset, by decide +kernel⟩,
    ⟨(fun (s : State) (p : Fin 8) (idx : Nat) (r : Req) (a : Nat) (j : Nat) (w : Nat) (link : Fin 4) (found : Fin 3) => (let s : State := { s with sys := { s.sys with dramStopped := false } }; ((({ s with mem := { s.mem with queues := [(p.val, if idx = 0 then [r] else [Req.mk true 0x8000 4 [] false false, r])] } } : State).ready 2)|>.wr F.MEM_STATUS_STATE 2 |>.put F.MEM_STATUS_INIT_BUSY false |>.put F.MEM_TRN_CTRL_BUSY false|>.wr F.MEM_SIZE_MIB 2048|>.put (F.MEM_PORT_STATUS_PANIC p) false))) State.reset 3 0 (Req.mk true 4096 4 (bytesOf 4 7) false false) 4096 4097 512 0 0, 3, 0, Req.mk true 4096 4 (bytesOf 4 7) false false, 4096, 4097, 512, 0, 0, by decide +kernel⟩,
    ⟨(fun (s : State) (p : Fin 8) (idx : Nat) (r : Req) (a : Nat) (link : Fin 4) (found : Fin 3) => (let s : State := { s with sys := { s.sys with dramStopped := false } }; ((({ s with mem := { s.mem with queues := [(p.val, if idx = 0 then [r] else [Req.mk true 0x8000 4 [] false false, r])] } } : State).ready 2)|>.wr F.MEM_STATUS_STATE 2 |>.put F.MEM_STATUS_INIT_BUSY false |>.put F.MEM_TRN_CTRL_BUSY false|>.wr F.MEM_SIZE_MIB 2048|>.put (F.MEM_PORT_STATUS_PANIC p) false))) State.reset 3 0 (Req.mk false 4096 4 [] false false) 4096 0 0, 3, 0, Req.mk false 4096 4 [] false false, 4096, 0, 0, by decide +kernel⟩,
    ⟨(fun (s : State) (p : Fin 8) (idx : Nat) (r : Req) (h : Nat) (link : Fin 4) (found : Fin 3) => let s : State := { s with boot := { s.boot with memJobs := [], tx := none }, mem := { s.mem with srDue := false, initDue := false } }; (let s : State := { s with sys := { s.sys with dramStopped := false } }; ((({ s with mem := { s.mem with queues := [(p.val, if idx = 0 then [r] else [Req.mk true 0x8000 4 [] false false, r])] } } : State).ready 2)|>.wr F.MEM_STATUS_STATE 2 |>.put F.MEM_STATUS_INIT_BUSY false |>.put F.MEM_TRN_CTRL_BUSY false|>.wr F.MEM_SIZE_MIB 2048|>.put (F.MEM_PORT_STATUS_PANIC p) false |>.put (F.MEM_WIN_CFG_EN 0) true |>.wr (F.MEM_WIN_BASE_BASE 0) 0x100000 |>.wr (F.MEM_WIN_CFG_SIZE 0) 20 |>.wr (F.MEM_WIN_HOST_HI_HOST 0) 0 |>.wr (F.MEM_WIN_HOST_LO_HOST 0) 0x40 |>.put F.LNK_STATUS_PCIE_UP true |>.put F.LNK_STATUS_BME true))) State.reset 3 0 (Req.mk false 0x10000000000 4 [] false false) 0x4000000 0 0, 3, 0, Req.mk false 0x10000000000 4 [] false false, 0x4000000, 0, 0, by decide +kernel⟩,
    ⟨(fun (s : State) (p : Fin 8) (idx : Nat) (r : Req) (c : Nat) (link : Fin 4) (found : Fin 3) => let s : State := { s with boot := { s.boot with memJobs := [], tx := none }, mem := { s.mem with srDue := false, initDue := false } }; (let s : State := { s with sys := { s.sys with dramStopped := false } }; ((({ s with mem := { s.mem with queues := [(p.val, if idx = 0 then [r] else [Req.mk true 0x8000 4 [] false false, r])] } } : State).ready 2)|>.wr F.MEM_STATUS_STATE 2 |>.put F.MEM_STATUS_INIT_BUSY false |>.put F.MEM_TRN_CTRL_BUSY false|>.wr F.MEM_SIZE_MIB 2048|>.put (F.MEM_PORT_STATUS_PANIC p) false |>.wr F.MEM_ADDR_ERR_INFO_CAUSE (idx / 2 % 2)))) State.reset 3 0 (Req.mk false 0x8000000000 4 [] false false) 1 0 0, 3, 0, Req.mk false 0x8000000000 4 [] false false, 1, 0, 0, by decide +kernel⟩,
    ⟨(fun (s : State) (p : Fin 8) (idx : Nat) (link : Fin 4) (found : Fin 3) => (let s : State := { s with sys := { s.sys with dramStopped := false } }; ((({ s with mem := { s.mem with queues := [] } } : State).ready 2)|>.wr F.MEM_STATUS_STATE 2 |>.put F.MEM_STATUS_INIT_BUSY false |>.put F.MEM_TRN_CTRL_BUSY false))) State.reset 3 0 0 0, 3, 0, 0, 0, by decide +kernel⟩,
    ⟨(fun (s : State) (idx : Nat) (link : Fin 4) (found : Fin 3) => (let s : State := { s with sys := { s.sys with dramStopped := false } }; ((({ s with mem := { s.mem with queues := [] } } : State).ready 2)|>.wr F.MEM_STATUS_STATE 2 |>.put F.MEM_STATUS_INIT_BUSY false |>.put F.MEM_TRN_CTRL_BUSY false))) State.reset 0 0 0, 0, 0, 0, by decide +kernel⟩,
    ⟨(fun (s : State) (p : Fin 8) (idx : Nat) (r : Req) (link : Fin 4) (found : Fin 3) => (let s : State := { s with sys := { s.sys with dramStopped := false } }; ((({ s with mem := { s.mem with queues := [(p.val, if idx = 0 then [r] else [Req.mk true 0x8000 4 [] false false, r])] } } : State).ready 2)|>.wr F.MEM_STATUS_STATE 2 |>.put F.MEM_STATUS_INIT_BUSY false |>.put F.MEM_TRN_CTRL_BUSY false|>.wr F.MEM_SIZE_MIB 2048|>.put (F.MEM_PORT_STATUS_PANIC p) false))) State.reset 3 0 (Req.mk true 4096 4 (bytesOf 4 7) false false) 0 0, 3, 0, Req.mk true 4096 4 (bytesOf 4 7) false false, 0, 0, by decide +kernel⟩,
    ⟨(fun (s : State) (p : Fin 8) (idx : Nat) (link : Fin 4) (found : Fin 3) => (let s : State := { s with sys := { s.sys with dramStopped := false } }; ((({ s with mem := { s.mem with queues := [] } } : State).ready 2)|>.wr F.MEM_STATUS_STATE 4))) State.reset 3 0 0 0, 3, 0, 0, 0, by decide +kernel⟩,
    ⟨(fun (s : State) (p : Fin 8) (idx : Nat) (link : Fin 4) (found : Fin 3) => (let s : State := { s with sys := { s.sys with dramStopped := false } }; ((({ s with mem := { s.mem with queues := [(p.val, [Req.mk true 0 4 [] false false])] } } : State).ready 2)|>.wr F.MEM_STATUS_STATE (3 + link.val % 2)))) State.reset 3 0 0 0, 3, 0, 0, 0, by decide +kernel⟩,
    ⟨(fun (s : State) (p : Fin 8) (idx : Nat) => (let s : State := { s with sys := { s.sys with dramStopped := false } }; ((({ s with mem := { s.mem with queues := [(p.val, List.replicate (1 + idx) (Req.mk true 0 4 [] false false))] } } : State).ready 2)))) State.reset 3 0, 3, 0, by decide +kernel⟩,
    ⟨(fun (s : State) (p : Fin 8) (idx : Nat) => let s : State := { s with boot := { s.boot with memJobs := [MemJob.fin 0 0, MemJob.fin 0 0] } }; (let s : State := { s with sys := { s.sys with dramStopped := false } }; ((({ s with mem := { s.mem with queues := [] } } : State).ready 2)))) State.reset 4 0, 4, 0, by decide +kernel⟩,
    ⟨(fun (s : State) (p : Fin 8) (idx : Nat) => (let s : State := { s with sys := { s.sys with dramStopped := false } }; ((({ s with mem := { s.mem with queues := [] } } : State).ready 2)))) State.reset 7 0, 7, 0, by decide +kernel⟩,
    ⟨(fun (s : State) (p : Fin 8) (u : Nat) => (let s : State := { s with sys := { s.sys with dramStopped := false } }; ((({ s with mem := { s.mem with panicHist := [(p.val, List.replicate (u % 12) u)], queues := [(p.val, [Req.mk true 0 4 [] false true])] } } : State).ready 2)|>.put (F.MEM_PORT_CFG_PANIC_EN p) true |>.put (F.MEM_PORT_STATUS_PANIC p) false))) State.reset 3 1000, 3, 1000, by decide +kernel⟩,
    ⟨(fun (s : State) (p : Fin 8) (u : Nat) => (let s : State := { s with sys := { s.sys with dramStopped := false } }; ((({ s with mem := { s.mem with queues := [] } } : State).ready 2)|>.put (F.MEM_PORT_CFG_PANIC_EN p) (u % 2 == 0)))) State.reset 3 1001, 3, 1001, by decide +kernel⟩,
    ⟨(fun (s : State) (p : Fin 8) => (let s : State := { s with sys := { s.sys with dramStopped := false } }; ((s.ready 2)))) State.reset 3, 3, by decide +kernel⟩,
    ⟨(fun (s : State) (ch : Fin 4) (bank : Fin 16) => (let s : State := { s with sys := { s.sys with dramStopped := false } }; ((({ s with mem := { s.mem with postponed := [], queues := [(0, [Req.mk true ((((s.wr F.MEM_SIZE_MIB 2048).wr F.MEM_CFG_RANKS 0).wr F.MEM_CFG_ORDER 2).dramUnmap ch.val bank.val 0 0 1) 4 [] false false])] } } : State).ready 2)|>.wr F.MEM_STATUS_STATE 2 |>.put F.MEM_STATUS_INIT_BUSY false |>.put F.MEM_TRN_CTRL_BUSY false|>.wr F.MEM_SIZE_MIB 2048|>.wr F.MEM_REF_CFG_POSTPONE 5 |>.put (F.MEM_PORT_STATUS_PANIC 0) true |>.wr F.MEM_CFG_RANKS 0 |>.wr F.MEM_CFG_ORDER 2 |>.wr F.MEM_REF_CFG_PB 0))) State.reset 1 3, 1, 3, by decide +kernel⟩,
    ⟨(fun (s : State) (ch : Fin 4) (bank : Fin 16) (w : Bool) => (let s : State := { s with sys := { s.sys with dramStopped := false } }; ((({ s with mem := { s.mem with openRow := [(32 * ch.val + bank.val, 5), (3, 2), (40, 1)], postponed := [(16 * ch.val, 9), (16 * ch.val + bank.val, 9)], queues := [(0, [Req.mk true (0x80000 * bank.val) 4 [] false false])] } } : State).ready 2)|>.wr F.MEM_STATUS_STATE 2 |>.put F.MEM_STATUS_INIT_BUSY false |>.put F.MEM_TRN_CTRL_BUSY false|>.wr F.MEM_SIZE_MIB 2048|>.wr F.MEM_REF_CFG_POSTPONE 5 |>.put (F.MEM_PORT_STATUS_PANIC 0) true |>.wr F.MEM_CFG_RANKS 0 |>.wr F.MEM_REF_CFG_PB (bank % 2)))) State.reset 1 3 true, 1, 3, true, by decide +kernel⟩,
    ⟨(fun (s : State) (ch : Fin 4) (bank : Fin 16) (w : Bool) => (let s : State := { s with sys := { s.sys with dramStopped := false } }; ((s.ready 2)|>.wr F.MEM_STATUS_STATE 4))) State.reset 1 3 true, 1, 3, true, by decide +kernel⟩,
    ⟨(fun (s : State) (ch : Fin 4) (bank : Fin 16) (share : Nat) (u : Nat) => (let s : State := { s with sys := { s.sys with dramStopped := false } }; ((({ s with mem := { s.mem with hotRun := [(ch.val, 3)], coolRun := [(ch.val, 3)], windows := [] } } : State).ready 2)|>.wr F.MEM_HOT_CFG_HOT_SHARE 100 |>.wr F.MEM_HOT_CFG_DWELL 3))) State.reset 1 3 120 1000, 1, 3, 120, 1000, by decide +kernel⟩,
    ⟨(fun (s : State) (ch : Fin 4) (bank : Fin 16) (share : Nat) (u : Nat) (w : Nat) (rest : List Nat) => (let s : State := { s with sys := { s.sys with dramStopped := false } }; ((({ s with mem := { s.mem with hotRun := [(ch.val, 3)], coolRun := [(ch.val, 3)], windows := [(ch.val, w :: rest)] } } : State).ready 2)|>.wr F.MEM_HOT_CFG_HOT_SHARE 100 |>.wr F.MEM_HOT_CFG_DWELL 3))) State.reset 1 3 120 1000 3192 [], 1, 3, 120, 1000, 3192, [], by decide +kernel⟩,
    ⟨(fun (s : State) (found : Fin 3) => (let s : State := { s with sys := { s.sys with dramStopped := false } }; ((({ s with mem := { s.mem with scrub := 640 } } : State).ready 2)|>.wr F.MEM_STATUS_STATE 2 |>.put F.MEM_STATUS_INIT_BUSY false |>.put F.MEM_TRN_CTRL_BUSY false|>.wr F.MEM_SIZE_MIB 2048|>.put F.MEM_SCRUB_CFG_EN true |>.put F.MEM_CFG_INLINE true))) State.reset 1, 1, by decide +kernel⟩,
    ⟨(fun (s : State) (found : Fin 3) => ((let s : State := { s with sys := { s.sys with dramStopped := false } }; ((({ s with mem := { s.mem with scrub := 640 } } : State).ready 2)|>.wr F.MEM_STATUS_STATE 2 |>.put F.MEM_STATUS_INIT_BUSY false |>.put F.MEM_TRN_CTRL_BUSY false|>.wr F.MEM_SIZE_MIB 2048|>.put F.MEM_SCRUB_CFG_EN true |>.put F.MEM_CFG_INLINE true))).outranked 7 640) State.reset 1, 1, by decide +kernel⟩,
    ⟨(fun (s : State) (found : Fin 3) => (let s : State := { s with sys := { s.sys with dramStopped := false } }; ((({ s with mem := { s.mem with scrub := 640 } } : State).ready 2)|>.wr F.MEM_STATUS_STATE 2 |>.put F.MEM_STATUS_INIT_BUSY false |>.put F.MEM_TRN_CTRL_BUSY false|>.wr F.MEM_SIZE_MIB 2048|>.put F.MEM_SCRUB_CFG_EN true |>.put F.MEM_CFG_INLINE true |>.wr F.MEM_STATUS_STATE (3 + found % 3)))) State.reset 1, 1, by decide +kernel⟩,
    ⟨(fun (s : State) (found : Fin 3) => (let s : State := { s with sys := { s.sys with dramStopped := false } }; ((s.ready 2)|>.put F.MEM_SCRUB_CFG_EN false))) State.reset 1, 1, by decide +kernel⟩,
    ⟨(fun (s : State) (read : Bool) (ch : Fin 4) (rank : Bool) (ma : Byte) (op : Byte) => (let s : State := { s with sys := { s.sys with dramStopped := false } }; ((s.ready 2)|>.put F.MEM_MR_CMD_BUSY false |>.put F.MEM_CFG_RANKS true))) State.reset true 1 true 5 6, true, 1, true, 5, 6, by decide +kernel⟩,
    ⟨(fun (s : State) (read : Bool) (ch : Fin 4) (rank : Bool) (ma : Byte) (op : Byte) => (let s : State := { s with sys := { s.sys with dramStopped := false } }; ((s.ready 2)|>.put F.MEM_MR_CMD_BUSY true))) State.reset true 1 true 5 6, true, 1, true, 5, 6, by decide +kernel⟩,
    ⟨(fun (s : State) (data : Byte) => (let s : State := { s with sys := { s.sys with dramStopped := false } }; ((s.ready 2)|>.put F.MEM_MR_CMD_BUSY true))) State.reset 5, 5, by decide +kernel⟩,
    ⟨(fun (s : State) (data : Byte) => (let s : State := { s with sys := { s.sys with dramStopped := false } }; ((s.ready 2)|>.put F.MEM_MR_CMD_BUSY false))) State.reset 5, 5, by decide +kernel⟩,
    ⟨(fun (s : State) => (let s : State := { s with sys := { s.sys with dramStopped := false } }; ((s.ready 2)|>.wr F.MEM_STATUS_STATE 2 |>.put F.MEM_STATUS_INIT_BUSY false |>.put F.MEM_TRN_CTRL_BUSY false))) State.reset, by decide +kernel⟩,
    ⟨(fun (s : State) => (let s : State := { s with sys := { s.sys with dramStopped := false } }; ((s.ready 2)|>.put F.MEM_TRN_CTRL_BUSY true))) State.reset, by decide +kernel⟩,
    ⟨(fun (s : State) (masks : List (BitVec 16)) => let s : State := { s with boot := { s.boot with memJobs := [], tx := none }, mem := { s.mem with srDue := false, initDue := false } }; (let s : State := { s with sys := { s.sys with dramStopped := false } }; ((s.ready 2)|>.put F.MEM_TRN_CTRL_BUSY true))) State.reset ([1, 2]), [1, 2], by decide +kernel⟩,
    ⟨(fun (s : State) (masks : List (BitVec 16)) => (let s : State := { s with sys := { s.sys with dramStopped := false } }; ((s.ready 2)|>.put F.MEM_TRN_CTRL_BUSY false))) State.reset ([1, 2]), [1, 2], by decide +kernel⟩⟩

/-- States and operands that meet the hypotheses of each clause of LinkLanesAndClock. -/
theorem witness_LinkLanesAndClock :
    (∃ (s : State) (l : Fin 4) (_u : Nat), s.mode ≠ mRESET ∧ s.rd (F.LNK_LANE_ST_USE l) ≠ 0 ∧ (s.rd (F.LNK_LANE_ST_USE l) < 2 ∨ s.on (F.LNK_ETH_STATUS_RX_LPI (s.rd (F.LNK_LANE_ST_USE l) - 2)) = false) ∧ s.on (F.LNK_LANE_ST_LOS l) = false) ∧
    (∃ (s : State) (l : Fin 4) (idle : Bool) (_u : Nat), (s.rd (F.LNK_LANE_ST_USE l) = 0 ∨ idle = true ∨ s.mode = mRESET ∨ s.on (F.LNK_LANE_ST_LOS l) = true ∨ (2 ≤ s.rd (F.LNK_LANE_ST_USE l) ∧ s.on (F.LNK_ETH_STATUS_RX_LPI (s.rd (F.LNK_LANE_ST_USE l) - 2)) = true))) ∧
    (∃ (s : State) (l : Fin 4) (_u : Nat), s.mode ≠ mRESET ∧ s.rd (F.LNK_LANE_ST_USE l) ≠ 0 ∧ s.on (F.LNK_LANE_ST_LOS l) = false ∧ s.on (F.LNK_LANE_ST_LOL l) = false) ∧
    (∃ (s : State) (l : Fin 4) (_u : Nat), (s.rd (F.LNK_LANE_ST_USE l) = 0 ∨ s.on (F.LNK_LANE_ST_LOS l) = true ∨ s.mode = mRESET ∨ s.on (F.LNK_LANE_ST_LOL l) = true)) ∧
    (∃ (s : State) (l : Fin 4), (Tab.get (fun _ => 0) s.lnk.laneHeld (2 * l.val + 0) ≠ 1)) ∧
    (∃ (s : State) (l : Fin 4), (Tab.get (fun _ => 0) s.lnk.laneHeld (2 * l.val + 1) ≠ 1)) ∧
    (∃ (s : State) (l : Fin 4), (Tab.get (fun _ => 0) s.lnk.laneHeld (2 * l.val + 0) = 1)) ∧
    (∃ (s : State) (l : Fin 4), (Tab.get (fun _ => 0) s.lnk.laneHeld (2 * l.val + 1) = 1)) ∧
    (∃ (s : State) (_l : Fin 4), s.mode ≠ mRESET) ∧
    (∃ (s : State) (l : Fin 4) (loop : Fin 8) (prbs : Fin 4), s.mode ≠ mRESET ∧ loop.val ≤ 3 ∧ prbs.val ≠ 3 ∧ s.userOn (s.rd (F.LNK_LANE_ST_USE l)) = false) ∧
    (∃ (s : State) (l : Fin 4) (loop : Fin 8) (prbs : Fin 4), s.mode ≠ mRESET ∧ (3 < loop.val ∨ prbs.val = 3 ∨ s.userOn (s.rd (F.LNK_LANE_ST_USE l)) = true)) ∧
    (∃ (s : State) (e : Fin 2), s.mode ≠ mRESET ∧ s.lnk.closing.testBit (2 * e.val + 0) = false) ∧
    (∃ (s : State) (e : Fin 2), s.mode ≠ mRESET ∧ s.lnk.closing.testBit (2 * e.val + 0) = true ∧ s.on (F.LNK_ETH_STATUS_TX_PENDING e) = false) ∧
    (∃ (s : State) (e : Fin 2), s.mode ≠ mRESET ∧ s.lnk.closing.testBit (2 * e.val + 0) = true ∧ s.on (F.LNK_ETH_STATUS_TX_PENDING e) = true) ∧
    (∃ (s : State) (_e : Fin 2), s.mode ≠ mRESET) ∧
    (∃ (s : State) (e : Fin 2), s.mode ≠ mRESET ∧ s.lnk.closing.testBit (2 * e.val + 1) = false) ∧
    (∃ (s : State) (e : Fin 2), s.mode ≠ mRESET ∧ s.lnk.closing.testBit (2 * e.val + 1) = true ∧ s.on (F.LNK_ETH_STATUS_RX_PENDING e) = false) ∧
    (∃ (s : State) (e : Fin 2), s.mode ≠ mRESET ∧ s.lnk.closing.testBit (2 * e.val + 1) = true ∧ s.on (F.LNK_ETH_STATUS_RX_PENDING e) = true) ∧
    (∃ (s : State) (_e : Fin 2), s.mode ≠ mRESET) ∧
    (∃ (s : State) (e : Fin 2), s.lnk.closing.testBit (2 * e.val) = true) ∧
    (∃ (s : State) (e : Fin 2), s.lnk.closing.testBit (2 * e.val + 1) = true) ∧
    (∃ (s : State) (e : Fin 2) (k : Fin 2), s.lnk.closing.testBit (2 * e.val + k.val) = false) ∧
    (∃ (s : State) (e : Fin 2), s.on (F.LNK_ETH_CTRL_LPI_EN e) = true ∧ s.ethEn e = true) ∧
    (∃ (s : State) (e : Fin 2) (_k : Fin 2), (s.on (F.LNK_ETH_CTRL_LPI_EN e) = false ∨ s.ethEn e = false)) ∧
    (∃ (s : State) (_step : Word) (_u : Nat), s.mode ≠ mRESET ∧ (s.running = false ∨ s.on F.SYS_PB_CFG_TIME_SRC = false)) ∧
    (∃ (s : State) (_step : Word) (_u : Nat), s.mode ≠ mRESET ∧ s.running = true ∧ s.on F.SYS_PB_CFG_TIME_SRC = true) ∧
    (∃ (s : State) (_rate : Word) (_u : Nat), s.mode ≠ mRESET) ∧
    (∃ (s : State), s.mode ≠ mRESET) ∧
    (∃ (s : State) (x : Stamp) (y : Stamp) (rest : List Stamp), s.mode ≠ mRESET ∧ s.lnk.stamps = x :: y :: rest) ∧
    (∃ (s : State) (x : Stamp), s.mode ≠ mRESET ∧ (s.lnk.stamps = [] ∨ s.lnk.stamps = [x])) :=
  ⟨⟨(fun (s : State) (l : Fin 4) (u : Nat) => ((({ s with lnk := { s.lnk with laneHist := [(2 * l.val, List.replicate (u % 12) u)], laneHeld := [] } } : State).ready 2)|>.wr (F.LNK_LANE_ST_USE l) (1 + u % 3) |>.put (F.LNK_LANE_ST_LOS l) false |>.put (F.LNK_ETH_STATUS_RX_LPI 0) false |>.put (F.LNK_ETH_STATUS_RX_LPI 1) false)) State.reset 2 1000, 2, 1000, by decide +kernel⟩,
    ⟨(fun (s : State) (l : Fin 4) (idle : Bool) (u : Nat) => ((s.ready 0))) State.reset 2 true 1000, 2, true, 1000, by decide +kernel⟩,
    ⟨(fun (s : State) (l : Fin 4) (u : Nat) => ((({ s with lnk := { s.lnk with laneHist := [(2 * l.val + 1, List.replicate (u % 12) u)], laneHeld := [] } } : State).ready 2)|>.wr (F.LNK_LANE_ST_USE l) (1 + u % 3) |>.put (F.LNK_LANE_ST_LOS l) false |>.put (F.LNK_LANE_ST_LOL l) false)) State.reset 2 1000, 2, 1000, by decide +kernel⟩,
    ⟨(fun (s : State) (l : Fin 4) (u : Nat) => ((s.ready 0))) State.reset 2 1000, 2, 1000, by decide +kernel⟩,
    ⟨(fun (s : State) (l : Fin 4) => ((({ s with lnk := { s.lnk with laneHeld := [] } } : State).ready 2))) State.reset 2, 2, by decide +kernel⟩,
    ⟨(fun (s : State) (l : Fin 4) => ((({ s with lnk := { s.lnk with laneHeld := [] } } : State).ready 2))) State.reset 2, 2, by decide +kernel⟩,
    ⟨(fun (s : State) (l : Fin 4) => ((({ s with lnk := { s.lnk with laneHeld := [(2 * l.val, 1)] } } : State).ready 2))) State.reset 2, 2, by decide +kernel⟩,
    ⟨(fun (s : State) (l : Fin 4) => ((({ s with lnk := { s.lnk with laneHeld := [(2 * l.val + 1, 1)] } } : State).ready 2))) State.reset 2, 2, by decide +kernel⟩,
    ⟨(fun (s : State) (l : Fin 4) => ((({ s with lnk := { s.lnk with laneHeld := [(3, 1), (6, 1)], laneHist := [(0, [1]), (5, [2]), (7, [3])] } } : State).ready 2))) State.reset 2, 2, by decide +kernel⟩,
    ⟨(fun (s : State) (l : Fin 4) (loop : Fin 8) (prbs : Fin 4) => ((s.ready 2)|>.wr (F.LNK_LANE_ST_USE l) 0)) State.reset 2 1 1, 2, 1, 1, by decide +kernel⟩,
    ⟨(fun (s : State) (l : Fin 4) (loop : Fin 8) (prbs : Fin 4) => ((s.ready 2))) State.reset 2 5 1, 2, 5, 1, by decide +kernel⟩,
    ⟨(fun (s : State) (e : Fin 2) => ((({ s with lnk := { s.lnk with closing := 0 } } : State).ready 2))) State.reset 1, 1, by decide +kernel⟩,
    ⟨(fun (s : State) (e : Fin 2) => ((({ s with lnk := { s.lnk with closing := 15 } } : State).ready 2)|>.put (F.LNK_ETH_STATUS_TX_PENDING e) false)) State.reset 1, 1, by decide +kernel⟩,
    ⟨(fun (s : State) (e : Fin 2) => ((({ s with lnk := { s.lnk with closing := 15 } } : State).ready 2)|>.put (F.LNK_ETH_STATUS_TX_PENDING e) true)) State.reset 1, 1, by decide +kernel⟩,
    ⟨(fun (s : State) (e : Fin 2) => ((({ s with lnk := { s.lnk with closing := s.lnk.closing % 16 } } : State).ready 2))) State.reset 1, 1, by decide +kernel⟩,
    ⟨(fun (s : State) (e : Fin 2) => ((({ s with lnk := { s.lnk with closing := 0 } } : State).ready 2))) State.reset 1, 1, by decide +kernel⟩,
    ⟨(fun (s : State) (e : Fin 2) => ((({ s with lnk := { s.lnk with closing := 15 } } : State).ready 2)|>.put (F.LNK_ETH_STATUS_RX_PENDING e) false)) State.reset 1, 1, by decide +kernel⟩,
    ⟨(fun (s : State) (e : Fin 2) => ((({ s with lnk := { s.lnk with closing := 15 } } : State).ready 2)|>.put (F.LNK_ETH_STATUS_RX_PENDING e) true)) State.reset 1, 1, by decide +kernel⟩,
    ⟨(fun (s : State) (e : Fin 2) => ((({ s with lnk := { s.lnk with closing := s.lnk.closing % 16 } } : State).ready 2))) State.reset 1, 1, by decide +kernel⟩,
    ⟨(fun (s : State) (e : Fin 2) => ((({ s with lnk := { s.lnk with closing := 5 } } : State).ready 2))) State.reset 1, 1, by decide +kernel⟩,
    ⟨(fun (s : State) (e : Fin 2) => ((({ s with lnk := { s.lnk with closing := 10 } } : State).ready 2))) State.reset 1, 1, by decide +kernel⟩,
    ⟨(fun (s : State) (e : Fin 2) (k : Fin 2) => ((({ s with lnk := { s.lnk with closing := 0 } } : State).ready 2))) State.reset 1 0, 1, 0, by decide +kernel⟩,
    ⟨(fun (s : State) (e : Fin 2) => ((s.ready 2)|>.put (F.LNK_ETH_CTRL_LPI_EN e) true |>.put F.LNK_CTRL_ETH0_EN true |>.put F.LNK_CTRL_ETH1_EN true)) State.reset 1, 1, by decide +kernel⟩,
    ⟨(fun (s : State) (e : Fin 2) (k : Fin 2) => ((s.ready 2)|>.put (F.LNK_ETH_CTRL_LPI_EN e) false)) State.reset 1 0, 1, 0, by decide +kernel⟩,
    ⟨(fun (s : State) (step : Word) (u : Nat) => ((({ s with lnk := { s.lnk with ptpAt := s.lnk.ptpAt % 5000 } } : State).ready 2)|>.put F.SYS_PB_CFG_TIME_SRC false)) State.reset 5 1000, 5, 1000, by decide +kernel⟩,
    ⟨(fun (s : State) (step : Word) (u : Nat) => ((({ s with lnk := { s.lnk with ptpAt := s.lnk.ptpAt % 5000 } } : State).ready 4)|>.put F.SYS_PB_CFG_TIME_SRC true |>.put F.HIS_STATUS_RUNNING true)) State.reset 5 1000, 5, 1000, by decide +kernel⟩,
    ⟨(fun (s : State) (rate : Word) (u : Nat) => ((({ s with lnk := { s.lnk with ptpAt := s.lnk.ptpAt % 5000 } } : State).ready 2))) State.reset 5 1000, 5, 1000, by decide +kernel⟩,
    ⟨(fun (s : State) => ((s.ready 2))) State.reset, by decide +kernel⟩,
    ⟨(fun (s : State) (x : Stamp) (y : Stamp) (rest : List Stamp) => ((({ s with lnk := { s.lnk with stamps := x :: y :: rest } } : State).ready 2))) State.reset (Stamp.mk 5 true 1 7) (Stamp.mk 6 false 0 8) [], Stamp.mk 5 true 1 7, Stamp.mk 6 false 0 8, [], by decide +kernel⟩,
    ⟨(fun (s : State) (x : Stamp) => ((({ s with lnk := { s.lnk with stamps := [x] } } : State).ready 2))) State.reset (Stamp.mk 5 true 1 7), Stamp.mk 5 true 1 7, by decide +kernel⟩⟩

/-- States and operands that meet the hypotheses of each clause of LinkTraffic. -/
theorem witness_LinkTraffic :
    (∃ (s : State) (_r : CfgReg) (_w : Word), s.pcieOn = true) ∧
    (∃ (s : State) (_write : Bool) (_r : CfgReg) (_w : Word), s.pcieOn = false) ∧
    (∃ (s : State) (a : BitVec 26) (_v : Word) (_u : Nat), s.barOn = true ∧ a.toNat % 4 = 0) ∧
    (∃ (s : State) (a : BitVec 26) (n : Nat) (d : List Byte) (_u : Nat), s.barOn = true ∧ 0 < n ∧ a.toNat % 4 + n ≤ 8 ∧ 0 < d.length ∧ a.toNat % 4 + d.length ≤ 8) ∧
    (∃ (s : State) (_a : BitVec 26) (_n : Nat) (_ep : Bool) (_u : Nat), s.barOn = true) ∧
    (∃ (s : State) (k : Fin 192) (_j : Fin 0x4000) (_v : Word) (_u : Nat), s.barOn = true ∧ s.mode ≠ mRESET ∧ s.tilStopped = false ∧ (k ≠ 0 ∨ s.on F.TIL_LOAD_CFG_BCAST = false)) ∧
    (∃ (s : State) (a : BitVec 26) (n : Nat) (d : List Byte) (_u : Nat), s.barOn = true ∧ 8 < a.toNat % 4 + n ∧ 8 < a.toNat % 4 + d.length) ∧
    (∃ (s : State) (a : BitVec 26) (_v : Word) (_u : Nat), s.barOn = true ∧ a.toNat < 0x2000000) ∧
    (∃ (s : State) (_write : Bool) (_a : BitVec 26) (_n : Nat) (_d : List Byte) (_ep : Bool) (_u : Nat), s.barOn = false) ∧
    (∃ (s : State) (o : Nat) (n : Nat) (d : List Byte) (_ep : Bool), s.barOn = true ∧ s.rd F.LNK_PCIE_CFG_BAR2_SIZE ≠ 0 ∧ o < 2 ^ s.rd F.LNK_PCIE_CFG_BAR2_SIZE ∧ n ≤ 512 ∧ d.length ≤ 512) ∧
    (∃ (s : State) (o : Nat) (n : Nat), s.barOn = true ∧ s.rd F.LNK_PCIE_CFG_BAR2_SIZE ≠ 0 ∧ o < 2 ^ s.rd F.LNK_PCIE_CFG_BAR2_SIZE ∧ 512 < n) ∧
    (∃ (s : State) (o : Nat) (_n : Nat) (_write : Bool) (_d : List Byte) (_ep : Bool), (s.rd F.LNK_PCIE_CFG_BAR2_SIZE = 0 ∨ 2 ^ s.rd F.LNK_PCIE_CFG_BAR2_SIZE ≤ o)) ∧
    (∃ (s : State) (_down : Bool), s.mode ≠ mRESET) ∧
    (∃ (s : State) (_down : Bool), s.mode = mRESET) ∧
    (∃ (s : State) (width : Fin 8) (_speed : Fin 4), s.mode ≠ mRESET ∧ s.on F.LNK_CTRL_PCIE_EN = true ∧ (s.lanesOf 1 ≠ 0 ∧ (width = 1 ∨ width = 2 ∨ width = 4))) ∧
    (∃ (s : State) (width : Fin 8) (_speed : Fin 4), s.mode ≠ mRESET ∧ (s.on F.LNK_CTRL_PCIE_EN = false ∨ s.lanesOf 1 = 0 ∨ ¬ (width = 1 ∨ width = 2 ∨ width = 4))) ∧
    (∃ (s : State) (_width : Fin 8) (_speed : Fin 4), s.mode ≠ mRESET) ∧
    (∃ (s : State) (_e : Fin 2) (_up : Bool) (_width : Fin 8) (_speed : Fin 4), s.mode ≠ mRESET) ∧
    (∃ (s : State) (_who : Fin 3) (_up : Bool) (_width : Fin 8) (_speed : Fin 4), s.mode = mRESET) ∧
    (∃ (s : State) (e : Fin 2) (_f : List Byte) (_u : Nat), s.on (F.LNK_ETH_STATUS_UP e) = true ∧ s.on (F.LNK_ETH_CTRL_RX_EN e) = true ∧ s.lnk.closing.testBit (2 * e.val + 1) = false) ∧
    (∃ (s : State) (e : Fin 2) (f : List Byte) (_u : Nat), s.on (F.LNK_ETH_STATUS_UP e) = true ∧ s.on (F.LNK_ETH_CTRL_RX_EN e) = true ∧ s.lnk.closing.testBit (2 * e.val + 1) = false ∧ ((if s.on F.LNK_PKT_CFG_JUMBO then 9022 else 1522) < f.length + 4 ∨ s.macMatch e (f.take 6) = false ∨ s.frameTo e f = none)) ∧
    (∃ (s : State) (e : Fin 2) (f : List Byte) (d : List Byte) (_u : Nat), s.on (F.LNK_ETH_STATUS_UP e) = true ∧ s.on (F.LNK_ETH_CTRL_RX_EN e) = true ∧ s.lnk.closing.testBit (2 * e.val + 1) = false ∧ (f.length + 4 ≤ (if s.on F.LNK_PKT_CFG_JUMBO then 9022 else 1522) ∧ s.macMatch e (f.take 6) = true) ∧ s.frameTo e f = some d) ∧
    (∃ (s : State) (e : Fin 2) (_f : List Byte) (_b : Bool) (_u : Nat), (s.on (F.LNK_ETH_STATUS_UP e) = false ∨ s.on (F.LNK_ETH_CTRL_RX_EN e) = false ∨ s.lnk.closing.testBit (2 * e.val + 1) = true)) ∧
    (∃ (s : State) (_nb : Bool) (a : Nat), s.pbSize ≠ 0 ∧ s.engineTurn 1 = true ∧ s.on F.MEM_PB_CFG_CONSUMER = true ∧ s.pktOfs ≠ s.rd F.MEM_PB_WPTR_OFS ∧ s.tilHeld = false ∧ s.memReady = true ∧ s.on F.MEM_CFG_INLINE = false ∧ a = s.pbBase + s.pktOfs ∧ a + 20 + (bits (ofBytes (s.dramBytes a 4)) 15 0) ≤ s.localSize ∧ bits (ofBytes (s.dramBytes a 4)) 31 28 = 1) ∧
    (∃ (s : State) (_nb : Bool), s.on F.MEM_PB_CFG_CONSUMER = true ∧ s.pktOfs ≠ s.rd F.MEM_PB_WPTR_OFS ∧ s.tilHeld = false ∧ s.memBlocked = false ∧ s.engineTurn 1 = true ∧ (match s.place 1 (s.pbBase + s.pktOfs) with | .host _ => false | _ => true) = true) ∧
    (∃ (s : State) (_nb : Bool), s.on F.MEM_PB_CFG_CONSUMER = true ∧ s.pktOfs ≠ s.rd F.MEM_PB_WPTR_OFS ∧ s.tilHeld = false ∧ (s.memBlocked = true ∧ (s.memState ≠ 3 ∨ Tab.get (fun _ => 0) s.mem.drain 1 = 0)) ∧ (match s.place 1 (s.pbBase + s.pktOfs) with | .host _ => false | _ => true) = true) ∧
    (∃ (s : State) (_nb : Bool), s.on F.MEM_PB_CFG_CONSUMER = true ∧ s.pktOfs ≠ s.rd F.MEM_PB_WPTR_OFS ∧ s.tilHeld = false ∧ s.memBlocked = false ∧ s.engineTurn 1 = false ∧ (match s.place 1 (s.pbBase + s.pktOfs) with | .host _ => false | _ => true) = true) ∧
    (∃ (s : State) (_nb : Bool), (s.on F.MEM_PB_CFG_CONSUMER = false ∨ s.pktOfs = s.rd F.MEM_PB_WPTR_OFS ∨ s.tilHeld = true)) ∧
    (∃ (s : State) (_nb : Bool) (h : Nat), s.on F.MEM_PB_CFG_CONSUMER = true ∧ s.pktOfs ≠ s.rd F.MEM_PB_WPTR_OFS ∧ s.tilHeld = false ∧ s.place 1 (s.pbBase + s.pktOfs) = .host h) ∧
    (∃ (s : State) (e : Fin 2), (s.pkt e).entries ≠ []) ∧
    (∃ (s : State) (e : Fin 2), (s.pkt e).entries ≠ [] ∧ (s.pkt e).bad = true) ∧
    (∃ (s : State) (e : Fin 2) (a : Nat), (s.pkt e).entries ≠ [] ∧ (s.pkt e).bad = false ∧ s.pktOfs ≠ s.rd F.MEM_PB_WPTR_OFS ∧ s.place 1 (s.pbBase + s.pktOfs) = .loc a ∧ bits (ofBytes (s.dramBytes a 4)) 31 28 = 1 ∧ s.portOf (s.dramByte (a + 8)).toNat = e.val) ∧
    (∃ (s : State) (e : Fin 2), ((s.pkt e).entries = [] ∨ ((s.pkt e).bad = false ∧ (s.pktOfs = s.rd F.MEM_PB_WPTR_OFS ∨ (match s.place 1 (s.pbBase + s.pktOfs) with | .loc a => bits (ofBytes (s.dramBytes a 4)) 31 28 != 1 || s.portOf (s.dramByte (a + 8)).toNat != e.val | _ => true) = true)))) ∧
    (∃ (s : State) (e : Fin 2), (s.pkt e).entries = []) ∧
    (∃ (s : State) (e : Fin 2) (f : List Byte) (q : List Nat) (rest : List (List Byte × List Nat)) (_sq : BitVec 16) (_u : Nat), s.outOf e = (f, q) :: rest ∧ s.frameLeaves e = true) ∧
    (∃ (s : State) (e : Fin 2) (_sq : BitVec 16) (_u : Nat), s.frameLeaves e = true) ∧
    (∃ (s : State) (e : Fin 2) (_sq : BitVec 16) (_u : Nat), s.outOf e = [] ∧ s.frameLeaves e = true) ∧
    (∃ (s : State) (e : Fin 2) (_marked : Bool) (_sq : BitVec 16) (_u : Nat), s.frameLeaves e = false) ∧
    (∃ (s : State) (p : Nat) (a : Nat) (h : Nat) (n : Nat) (rest : List (Nat × Nat × Nat × Nat)) (_d : List Byte) (_ep : Bool), s.lnk.reads = (p, a, h, n) :: rest ∧ p ≠ 1) ∧
    (∃ (s : State) (a : Nat) (h : Nat) (n : Nat) (rest : List (Nat × Nat × Nat × Nat)) (d : List Byte) (_ep : Bool), s.lnk.reads = (1, a, h, n) :: rest ∧ d.length = n ∧ bits (ofBytes (d.take 4)) 31 28 = 1 ∧ bits (ofBytes (d.take 4)) 15 0 + 20 ≤ n) ∧
    (∃ (s : State) (a : Nat) (h : Nat) (n : Nat) (rest : List (Nat × Nat × Nat × Nat)) (d : List Byte) (_ep : Bool), s.lnk.reads = (1, a, h, n) :: rest ∧ d.length = n) ∧
    (∃ (s : State) (_d : List Byte) (_ep : Bool), s.lnk.reads = []) :=
  ⟨⟨(fun (s : State) (r : CfgReg) (w : Word) => ((({ s with lnk := { s.lnk with memEn := true } } : State).ready 2)|>.put F.LNK_CTRL_PCIE_EN true |>.put F.LNK_STATUS_PCIE_UP true)) State.reset .command 7, .command, 7, by decide +kernel⟩,
    ⟨(fun (s : State) (write : Bool) (r : CfgReg) (w : Word) => ((s.ready 2)|>.put F.LNK_CTRL_PCIE_EN false)) State.reset true .command 7, true, .command, 7, by decide +kernel⟩,
    ⟨(fun (s : State) (a : BitVec 26) (v : Word) (u : Nat) => ((({ s with lnk := { s.lnk with memEn := true } } : State).ready 2)|>.put F.LNK_CTRL_PCIE_EN true |>.put F.LNK_STATUS_PCIE_UP true)) State.reset 0x8000 7 1000, 0x8000, 7, 1000, by decide +kernel⟩,
    ⟨(fun (s : State) (a : BitVec 26) (n : Nat) (d : List Byte) (u : Nat) => ((({ s with lnk := { s.lnk with memEn := true } } : State).ready 2)|>.put F.LNK_CTRL_PCIE_EN true |>.put F.LNK_STATUS_PCIE_UP true)) State.reset 4 3 ([1, 2]) 1000, 4, 3, [1, 2], 1000, by decide +kernel⟩,
    ⟨(fun (s : State) (a : BitVec 26) (n : Nat) (ep : Bool) (u : Nat) => ((({ s with lnk := { s.lnk with memEn := true } } : State).ready 2)|>.put F.LNK_CTRL_PCIE_EN true |>.put F.LNK_STATUS_PCIE_UP true)) State.reset 4 3 true 1000, 4, 3, true, 1000, by decide +kernel⟩,
    ⟨(fun (s : State) (k : Fin 192) (j : Fin 0x4000) (v : Word) (u : Nat) => ((({ s with lnk := { s.lnk with memEn := true } } : State).ready 2)|>.put F.LNK_CTRL_PCIE_EN true |>.put F.LNK_STATUS_PCIE_UP true|>.put F.TIL_LOAD_CFG_BCAST false|>.put F.SYS_CLK_STATUS_MAIN_LOCK true |>.put F.SYS_CLK_STATUS_TIL_LOCK true)) State.reset 3 5 7 1000, 3, 5, 7, 1000, by decide +kernel⟩,
    ⟨(fun (s : State) (a : BitVec 26) (n : Nat) (d : List Byte) (u : Nat) => ((({ s with lnk := { s.lnk with memEn := true } } : State).ready 2)|>.put F.LNK_CTRL_PCIE_EN true |>.put F.LNK_STATUS_PCIE_UP true)) State.reset 4 9 ([1, 2, 3, 4, 5, 6, 7, 8, 9]) 1000, 4, 9, [1, 2, 3, 4, 5, 6, 7, 8, 9], 1000, by decide +kernel⟩,
    ⟨(fun (s : State) (a : BitVec 26) (v : Word) (u : Nat) => ((({ s with lnk := { s.lnk with memEn := true } } : State).ready 2)|>.put F.LNK_CTRL_PCIE_EN true |>.put F.LNK_STATUS_PCIE_UP true)) State.reset 0x8000 7 1000, 0x8000, 7, 1000, by decide +kernel⟩,
    ⟨(fun (s : State) (write : Bool) (a : BitVec 26) (n : Nat) (d : List Byte) (ep : Bool) (u : Nat) => ((({ s with lnk := { s.lnk with memEn := false } } : State).ready 2))) State.reset true 4 9 [1] false 1000, true, 4, 9, [1], false, 1000, by decide +kernel⟩,
    ⟨(fun (s : State) (o : Nat) (n : Nat) (d : List Byte) (ep : Bool) => ((({ s with lnk := { s.lnk with memEn := true } } : State).ready 2)|>.put F.LNK_CTRL_PCIE_EN true |>.put F.LNK_STATUS_PCIE_UP true|>.wr F.LNK_PCIE_CFG_BAR2_SIZE 33)) State.reset 60 9 ([1, 2, 3, 4, 5, 6, 7, 8, 9]) true, 60, 9, [1, 2, 3, 4, 5, 6, 7, 8, 9], true, by decide +kernel⟩,
    ⟨(fun (s : State) (o : Nat) (n : Nat) => ((({ s with lnk := { s.lnk with memEn := true } } : State).ready 2)|>.put F.LNK_CTRL_PCIE_EN true |>.put F.LNK_STATUS_PCIE_UP true|>.wr F.LNK_PCIE_CFG_BAR2_SIZE 33)) State.reset 60 600, 60, 600, by decide +kernel⟩,
    ⟨(fun (s : State) (o : Nat) (n : Nat) (write : Bool) (d : List Byte) (ep : Bool) => ((({ s with lnk := { s.lnk with memEn := true } } : State).ready 2)|>.put F.LNK_CTRL_PCIE_EN true |>.put F.LNK_STATUS_PCIE_UP true|>.wr F.LNK_PCIE_CFG_BAR2_SIZE 0)) State.reset 60 6 true [] true, 60, 6, true, [], true, by decide +kernel⟩,
    ⟨(fun (s : State) (down : Bool) => ((({ s with lnk := { s.lnk with memEn := true } } : State).ready 2)|>.put F.LNK_CTRL_PCIE_EN true |>.put F.LNK_STATUS_PCIE_UP true|>.wr F.LNK_MBOX_OWNER_OWNER 1)) State.reset true, true, by decide +kernel⟩,
    ⟨(fun (s : State) (down : Bool) => ((s.ready 0))) State.reset true, true, by decide +kernel⟩,
    ⟨(fun (s : State) (width : Fin 8) (speed : Fin 4) => ((s.ready 2)|>.put F.LNK_CTRL_PCIE_EN true |>.wr (F.LNK_LANE_ST_USE 0) 1 |>.put F.LNK_STATUS_PCIE_UP false)) State.reset 2 3, 2, 3, by decide +kernel⟩,
    ⟨(fun (s : State) (width : Fin 8) (speed : Fin 4) => ((s.ready 2))) State.reset 3 3, 3, 3, by decide +kernel⟩,
    ⟨(fun (s : State) (width : Fin 8) (speed : Fin 4) => ((({ s with lnk := { s.lnk with memEn := true } } : State).ready 2)|>.put F.LNK_CTRL_PCIE_EN true |>.put F.LNK_STATUS_PCIE_UP true)) State.reset 2 3, 2, 3, by decide +kernel⟩,
    ⟨(fun (s : State) (e : Fin 2) (up : Bool) (width : Fin 8) (speed : Fin 4) => ((({ s with lnk := { s.lnk with closing := 0 } } : State).ready 2)|>.put F.LNK_CTRL_ETH0_EN true |>.put F.LNK_CTRL_ETH1_EN true |>.put (F.LNK_ETH_CTRL_RX_EN e) true |>.wr (F.LNK_LANE_ST_USE 0) 1 |>.wr (F.LNK_LANE_ST_USE 1) 1 |>.wr (F.LNK_LANE_ST_USE 2) 2 |>.wr (F.LNK_LANE_ST_USE 3) 3)) State.reset 1 true 2 3, 1, true, 2, 3, by decide +kernel⟩,
    ⟨(fun (s : State) (who : Fin 3) (up : Bool) (width : Fin 8) (speed : Fin 4) => ((s.ready 0))) State.reset 1 true 2 3, 1, true, 2, 3, by decide +kernel⟩,
    ⟨(fun (s : State) (e : Fin 2) (f : List Byte) (u : Nat) => ((({ s with lnk := { s.lnk with closing := 0 } } : State).ready 2)|>.put (F.LNK_ETH_STATUS_UP e) true |>.put (F.LNK_ETH_CTRL_RX_EN e) true)) State.reset 1 [1] 1000, 1, [1], 1000, by decide +kernel⟩,
    ⟨(fun (s : State) (e : Fin 2) (f : List Byte) (u : Nat) => ((({ s with lnk := { s.lnk with closing := 0 } } : State).ready 2)|>.put (F.LNK_ETH_STATUS_UP e) true |>.put (F.LNK_ETH_CTRL_RX_EN e) true)) State.reset 1 [1] 1000, 1, [1], 1000, by decide +kernel⟩,
    ⟨(fun (s : State) (e : Fin 2) (f : List Byte) (d : List Byte) (u : Nat) => ((({ s with lnk := { s.lnk with closing := 0, stamps := [] } } : State).ready 2)|>.put (F.LNK_ETH_STATUS_UP e) true |>.put (F.LNK_ETH_CTRL_RX_EN e) true|>.wr (F.LNK_ETH_MBOX_MBOX_PORT e) 77)) State.reset 1 ((netBytes 6 0x0180C200000E ++ netBytes 6 1 ++ netBytes 2 0x88F7 ++ List.replicate 44 7)) (List.replicate 44 7) 1000, 1, (netBytes 6 0x0180C200000E ++ netBytes 6 1 ++ netBytes 2 0x88F7 ++ List.replicate 44 7), List.replicate 44 7, 1000, by decide +kernel⟩,
    ⟨(fun (s : State) (e : Fin 2) (f : List Byte) (b : Bool) (u : Nat) => ((({ s with lnk := { s.lnk with closing := 10 } } : State).ready 2))) State.reset 1 [1] true 1000, 1, [1], true, 1000, by decide +kernel⟩,
    ⟨(fun (s : State) (nb : Bool) (a : Nat) => let s : State := { s with sys := { s.sys with dramStopped := false } }; let s : State := { s with mem := { s.mem with lost := [], cond := [], dram := Mem.store 0 [] (0x10000 + 96) (stagingRecord 7 (a % 3) (bytesOf 20 (77 + a) ++ (if a % 2 = 0 then bytesOf 4 (crc32c (bytesOf 20 (77 + a))) else [1, 2, 3, 4]))) } }; ((({ s with lnk := { s.lnk with taken := [], pkt0 := { s.lnk.pkt0 with entries := s.lnk.pkt0.entries.map fun e => (e.1, e.2.take 50) }, closing := 0 } } : State).ready 4)|>.wr F.MEM_STATUS_STATE 2 |>.put F.MEM_STATUS_INIT_BUSY false |>.put F.MEM_TRN_CTRL_BUSY false|>.wr F.MEM_SIZE_MIB 64 |>.put F.MEM_CFG_INLINE false |>.put F.MEM_PB_CFG_CONSUMER true |>.wr F.MEM_PB_BASE_HI_BASE 0 |>.wr F.MEM_PB_BASE_LO_BASE 1 |>.wr F.MEM_PB_SIZE_SIZE 1 |>.wr F.MEM_PB_WPTR_OFS 4096 |>.wr F.MEM_PB_RPTR_OFS 96 |>.wr F.LNK_PKT_CFG_PORT_SEL 2 |>.put F.LNK_CTRL_ETH0_EN true |>.put (F.LNK_ETH_CTRL_TX_EN 0) true |>.put (F.LNK_ETH_CTRL_PKT_EN 0) true |>.put (F.LNK_ETH_STATUS_UP 0) true)) State.reset false 65632, false, 65632, by decide +kernel⟩,
    ⟨(fun (s : State) (nb : Bool) => let s : State := { s with sys := { s.sys with dramStopped := false } }; let s : State := { s with mem := { s.mem with lost := [], cond := [], dram := (if nb then Mem.store 0 (Mem.store 0 [] (0x10000 + 96) (bytesOf 4 0xF0000000)) 0x10000 (stagingRecord 7 0 (bytesOf 20 77)) else Mem.store 0 [] (0x10000 + 96) (stagingRecord 7 2 (bytesOf 20 77))) } }; ((({ s with lnk := { s.lnk with taken := [], closing := 0 } } : State).ready 4)|>.wr F.MEM_STATUS_STATE 2 |>.put F.MEM_STATUS_INIT_BUSY false |>.put F.MEM_TRN_CTRL_BUSY false|>.wr F.MEM_SIZE_MIB 64 |>.put F.MEM_CFG_INLINE false |>.put F.MEM_PB_CFG_CONSUMER true |>.wr F.MEM_PB_BASE_HI_BASE 0 |>.wr F.MEM_PB_BASE_LO_BASE 1 |>.wr F.MEM_PB_SIZE_SIZE 1 |>.wr F.MEM_PB_WPTR_OFS 4096 |>.wr F.MEM_PB_RPTR_OFS 96 |>.wr F.LNK_PKT_CFG_PORT_SEL 2 |>.put F.LNK_CTRL_ETH0_EN true |>.put (F.LNK_ETH_CTRL_TX_EN 0) true |>.put (F.LNK_ETH_CTRL_PKT_EN 0) true |>.put (F.LNK_ETH_STATUS_UP 0) true)) State.reset false, false, by decide +kernel⟩,
    ⟨(fun (s : State) (nb : Bool) => let s : State := { s with sys := { s.sys with dramStopped := false } }; let s : State := { s with mem := { s.mem with lost := [], cond := [], dram := Mem.store 0 [] (0x10000 + 96) (stagingRecord 7 (0) (bytesOf 20 (77) ++ (if 0 = 0 then bytesOf 4 (crc32c (bytesOf 20 (77))) else [1, 2, 3, 4]))) } }; ((({ s with lnk := { s.lnk with taken := [], closing := 0 } } : State).ready 4)|>.wr F.MEM_STATUS_STATE 2 |>.put F.MEM_STATUS_INIT_BUSY false |>.put F.MEM_TRN_CTRL_BUSY false|>.wr F.MEM_SIZE_MIB 64 |>.put F.MEM_CFG_INLINE false |>.put F.MEM_PB_CFG_CONSUMER true |>.wr F.MEM_PB_BASE_HI_BASE 0 |>.wr F.MEM_PB_BASE_LO_BASE 1 |>.wr F.MEM_PB_SIZE_SIZE 1 |>.wr F.MEM_PB_WPTR_OFS 4096 |>.wr F.MEM_PB_RPTR_OFS 96 |>.wr F.LNK_PKT_CFG_PORT_SEL 2 |>.put F.LNK_CTRL_ETH0_EN true |>.put (F.LNK_ETH_CTRL_TX_EN 0) true |>.put (F.LNK_ETH_CTRL_PKT_EN 0) true |>.put (F.LNK_ETH_STATUS_UP 0) true)|>.wr F.MEM_STATUS_STATE (if nb then 3 else 4)) State.reset false, false, by decide +kernel⟩,
    ⟨(fun (s : State) (nb : Bool) => (let s : State := { s with sys := { s.sys with dramStopped := false } }; let s : State := { s with mem := { s.mem with lost := [], cond := [], dram := Mem.store 0 [] (0x10000 + 96) (stagingRecord 7 (0) (bytesOf 20 (77) ++ (if 0 = 0 then bytesOf 4 (crc32c (bytesOf 20 (77))) else [1, 2, 3, 4]))) } }; ((({ s with lnk := { s.lnk with taken := [], closing := 0 } } : State).ready 4)|>.wr F.MEM_STATUS_STATE 2 |>.put F.MEM_STATUS_INIT_BUSY false |>.put F.MEM_TRN_CTRL_BUSY false|>.wr F.MEM_SIZE_MIB 64 |>.put F.MEM_CFG_INLINE false |>.put F.MEM_PB_CFG_CONSUMER true |>.wr F.MEM_PB_BASE_HI_BASE 0 |>.wr F.MEM_PB_BASE_LO_BASE 1 |>.wr F.MEM_PB_SIZE_SIZE 1 |>.wr F.MEM_PB_WPTR_OFS 4096 |>.wr F.MEM_PB_RPTR_OFS 96 |>.wr F.LNK_PKT_CFG_PORT_SEL 2 |>.put F.LNK_CTRL_ETH0_EN true |>.put (F.LNK_ETH_CTRL_TX_EN 0) true |>.put (F.LNK_ETH_CTRL_PKT_EN 0) true |>.put (F.LNK_ETH_STATUS_UP 0) true)).outranked 1 65632) State.reset false, false, by decide +kernel⟩,
    ⟨(fun (s : State) (nb : Bool) => ((s.ready 2)|>.put F.MEM_PB_CFG_CONSUMER false)) State.reset false, false, by decide +kernel⟩,
    ⟨(fun (s : State) (nb : Bool) (h : Nat) => ((({ s with lnk := { s.lnk with taken := [], reads := [] } } : State).ready 4)|>.put F.LNK_CTRL_PCIE_EN true |>.put F.LNK_STATUS_PCIE_UP true|>.put F.LNK_STATUS_BME true |>.put F.MEM_PB_CFG_CONSUMER true |>.wr F.MEM_SIZE_MIB 0 |>.wr F.MEM_PB_BASE_HI_BASE 256 |>.wr F.MEM_PB_BASE_LO_BASE 0 |>.wr F.MEM_PB_SIZE_SIZE 1 |>.wr F.MEM_PB_WPTR_OFS 4096 |>.wr F.MEM_PB_RPTR_OFS 64 |>.put (F.MEM_WIN_CFG_EN 0) true |>.wr (F.MEM_WIN_CFG_SIZE 0) 24 |>.wr (F.MEM_WIN_BASE_BASE 0) 0x100000 |>.wr (F.MEM_WIN_HOST_HI_HOST 0) 0 |>.wr (F.MEM_WIN_HOST_LO_HOST 0) 0x300)) State.reset false 0x30000040, false, 0x30000040, by decide +kernel⟩,
    ⟨(fun (s : State) (e : Fin 2) => ((({ s with lnk := { s.lnk with pkt0 := { entries := [(5, [1, 2, 3, 4, 5])], bad := s.lnk.pkt0.bad }, pkt1 := { entries := [(6, [1, 2, 3, 4, 5]), (7, [1, 2, 3, 4, 5, 6])], bad := false } } } : State).ready 2))) State.reset 1, 1, by decide +kernel⟩,
    ⟨(fun (s : State) (e : Fin 2) => ((({ s with lnk := { s.lnk with pkt0 := { entries := [(5, [1, 2, 3, 4, 5])], bad := true }, pkt1 := { entries := [(6, [1, 2, 3, 4, 5]), (7, [1, 2, 3, 4, 5, 6])], bad := true } } } : State).ready 2))) State.reset 1, 1, by decide +kernel⟩,
    ⟨(fun (s : State) (e : Fin 2) (a : Nat) => let s : State := { s with sys := { s.sys with dramStopped := false } }; let s : State := { s with mem := { s.mem with lost := [], cond := [], dram := Mem.store 0 [] (0x10000 + 96) (stagingRecord 7 (0) (bytesOf 20 (77 + a) ++ (if a % 2 = 0 then bytesOf 4 (crc32c (bytesOf 20 (77 + a))) else [1, 2, 3, 4]))) } }; ((({ s with lnk := { s.lnk with taken := [], closing := 0, pkt0 := { entries := if s.freeIx % 3 = 0 then List.replicate (46 + s.freeIx % 4) (5, [1]) else [(5, List.replicate (1390 + s.freeIx % 80) 1)], bad := false }, pkt1 := {} } } : State).ready 4)|>.wr F.MEM_STATUS_STATE 2 |>.put F.MEM_STATUS_INIT_BUSY false |>.put F.MEM_TRN_CTRL_BUSY false|>.wr F.MEM_SIZE_MIB 64 |>.put F.MEM_CFG_INLINE false |>.put F.MEM_PB_CFG_CONSUMER true |>.wr F.MEM_PB_BASE_HI_BASE 0 |>.wr F.MEM_PB_BASE_LO_BASE 1 |>.wr F.MEM_PB_SIZE_SIZE 1 |>.wr F.MEM_PB_WPTR_OFS 4096 |>.wr F.MEM_PB_RPTR_OFS 96 |>.wr F.LNK_PKT_CFG_PORT_SEL 2 |>.put F.LNK_CTRL_ETH0_EN true |>.put (F.LNK_ETH_CTRL_TX_EN 0) true |>.put (F.LNK_ETH_CTRL_PKT_EN 0) true |>.put (F.LNK_ETH_STATUS_UP 0) true)) State.reset 0 65632, 0, 65632, by decide +kernel⟩,
    ⟨(fun (s : State) (e : Fin 2) => let s : State := { s with sys := { s.sys with dramStopped := false } }; let s : State := { s with mem := { s.mem with lost := [], cond := [], dram := Mem.store 0 [] (0x10000 + 96) (stagingRecord 7 (s.freeIx) (bytesOf 20 (77) ++ (if 0 = 0 then bytesOf 4 (crc32c (bytesOf 20 (77))) else [1, 2, 3, 4]))) } }; ((({ s with lnk := { s.lnk with taken := [], closing := 0, pkt0 := { entries := [(5, [1])], bad := false }, pkt1 := { entries := [(5, [1])], bad := false } } } : State).ready 4)|>.wr F.MEM_STATUS_STATE 2 |>.put F.MEM_STATUS_INIT_BUSY false |>.put F.MEM_TRN_CTRL_BUSY false|>.wr F.MEM_SIZE_MIB 64 |>.put F.MEM_CFG_INLINE false |>.put F.MEM_PB_CFG_CONSUMER true |>.wr F.MEM_PB_BASE_HI_BASE 0 |>.wr F.MEM_PB_BASE_LO_BASE 1 |>.wr F.MEM_PB_SIZE_SIZE 1 |>.wr F.MEM_PB_WPTR_OFS 4096 |>.wr F.MEM_PB_RPTR_OFS 96 |>.wr F.LNK_PKT_CFG_PORT_SEL 1 |>.put F.LNK_CTRL_ETH0_EN true |>.put (F.LNK_ETH_CTRL_TX_EN 0) true |>.put (F.LNK_ETH_CTRL_PKT_EN 0) true |>.put (F.LNK_ETH_STATUS_UP 0) true)) State.reset 0, 0, by decide +kernel⟩,
    ⟨(fun (s : State) (e : Fin 2) => ((({ s with lnk := { s.lnk with pkt0 := {}, pkt1 := {} } } : State).ready 2))) State.reset 1, 1, by decide +kernel⟩,
    ⟨(fun (s : State) (e : Fin 2) (f : List Byte) (q : List Nat) (rest : List (List Byte × List Nat)) (sq : BitVec 16) (u : Nat) => ((({ s with lnk := { s.lnk with closing := s.lnk.closing % 16, out0 := (f, q) :: rest, out1 := (f, q) :: rest, taken := [(4, 64, false), (5, 128, false), (6, 256, false)] } } : State).ready 2)|>.put F.LNK_CTRL_ETH0_EN true |>.put F.LNK_CTRL_ETH1_EN true |>.put (F.LNK_ETH_STATUS_UP e) true |>.put (F.LNK_ETH_CTRL_TX_EN e) true)) State.reset 1 [1] ([4, 5]) ((List.nil : List (List Byte × List Nat))) 5 1000, 1, [1], [4, 5], (List.nil : List (List Byte × List Nat)), 5, 1000, by decide +kernel⟩,
    ⟨(fun (s : State) (e : Fin 2) (sq : BitVec 16) (u : Nat) => ((({ s with lnk := { s.lnk with closing := s.lnk.closing % 16, out0 := s.lnk.out0, out1 := [] } } : State).ready 2)|>.put F.LNK_CTRL_ETH0_EN true |>.put F.LNK_CTRL_ETH1_EN true |>.put (F.LNK_ETH_STATUS_UP e) true |>.put (F.LNK_ETH_CTRL_TX_EN e) true)) State.reset 1 5 1000, 1, 5, 1000, by decide +kernel⟩,
    ⟨(fun (s : State) (e : Fin 2) (sq : BitVec 16) (u : Nat) => ((({ s with lnk := { s.lnk with closing := s.lnk.closing % 16, out0 := [], out1 := [] } } : State).ready 2)|>.put F.LNK_CTRL_ETH0_EN true |>.put F.LNK_CTRL_ETH1_EN true |>.put (F.LNK_ETH_STATUS_UP e) true |>.put (F.LNK_ETH_CTRL_TX_EN e) true)) State.reset 1 5 1000, 1, 5, 1000, by decide +kernel⟩,
    ⟨(fun (s : State) (e : Fin 2) (marked : Bool) (sq : BitVec 16) (u : Nat) => ((({ s with lnk := { s.lnk with out0 := s.lnk.out0.take (u % 2), out1 := [], closing := 63 } } : State).ready 2))) State.reset 1 true 5 1000, 1, true, 5, 1000, by decide +kernel⟩,
    ⟨(fun (s : State) (p : Nat) (a : Nat) (h : Nat) (n : Nat) (rest : List (Nat × Nat × Nat × Nat)) (d : List Byte) (ep : Bool) => ((({ s with lnk := { s.lnk with reads := (p, a, h, n) :: rest } } : State).ready 2))) State.reset 2 64 64 4 [] ([1, 2, 3, 4]) true, 2, 64, 64, 4, [], [1, 2, 3, 4], true, by decide +kernel⟩,
    ⟨(fun (s : State) (a : Nat) (h : Nat) (n : Nat) (rest : List (Nat × Nat × Nat × Nat)) (d : List Byte) (ep : Bool) => ((({ s with lnk := { s.lnk with reads := (1, a, h, n) :: rest, closing := 0, pkt0 := { s.lnk.pkt0 with entries := s.lnk.pkt0.entries.map fun e => (e.1, e.2.take 50) }, pkt1 := { s.lnk.pkt1 with entries := s.lnk.pkt1.entries.map fun e => (e.1, e.2.take 50) } } } : State).ready 2)|>.put F.LNK_CTRL_ETH0_EN true |>.put (F.LNK_ETH_CTRL_TX_EN 0) true |>.put (F.LNK_ETH_CTRL_PKT_EN 0) true |>.put (F.LNK_ETH_STATUS_UP 0) true)) State.reset 64 64 64 [] (stagingRecord 7 2 (bytesOf 20 5 ++ [1, 2, 3, 4])) false, 64, 64, 64, [], stagingRecord 7 2 (bytesOf 20 5 ++ [1, 2, 3, 4]), false, by decide +kernel⟩,
    ⟨(fun (s : State) (a : Nat) (h : Nat) (n : Nat) (rest : List (Nat × Nat × Nat × Nat)) (d : List Byte) (ep : Bool) => ((({ s with lnk := { s.lnk with reads := (1, a, h, n) :: rest } } : State).ready 2)|>.put (F.MEM_WIN_CFG_EN 0) true |>.wr F.MEM_SIZE_MIB 0 |>.wr F.MEM_PB_BASE_HI_BASE 256 |>.wr F.MEM_PB_BASE_LO_BASE 0 |>.wr (F.MEM_WIN_CFG_SIZE 0) 24 |>.wr (F.MEM_WIN_BASE_BASE 0) 0x100000 |>.put F.LNK_STATUS_BME true|>.put F.LNK_CTRL_PCIE_EN true |>.put F.LNK_STATUS_PCIE_UP true)) State.reset 64 64 64 [] (stagingRecord 7 2 (bytesOf 20 5 ++ [1, 2, 3, 4])) false, 64, 64, 64, [], stagingRecord 7 2 (bytesOf 20 5 ++ [1, 2, 3, 4]), false, by decide +kernel⟩,
    ⟨(fun (s : State) (d : List Byte) (ep : Bool) => ((({ s with lnk := { s.lnk with reads := [] } } : State).ready 2))) State.reset [] true, [], true, by decide +kernel⟩⟩

/-- States and operands that meet the hypotheses of each clause of MailboxAndSpi. -/
theorem witness_MailboxAndSpi :
    (∃ (s : State) (m : Fin 4) (_tag : Byte), s.mode ≠ mRESET ∧ s.owns m = true ∧ s.rd F.SYS_MBOX_RESP_STATUS ≠ 1) ∧
    (∃ (s : State) (m : Fin 4) (_tag : Byte), s.mode ≠ mRESET ∧ s.owns m = true ∧ s.rd F.SYS_MBOX_RESP_STATUS ≠ 1 ∧ s.romRuns = false) ∧
    (∃ (s : State) (m : Fin 4) (_tag : Byte), s.mode ≠ mRESET ∧ s.owns m = true ∧ s.rd F.SYS_MBOX_RESP_STATUS ≠ 1 ∧ s.romRuns = true) ∧
    (∃ (s : State) (m : Fin 4) (_tag : Byte), s.mode ≠ mRESET ∧ s.owns m = true ∧ s.rd F.SYS_MBOX_RESP_STATUS ≠ 1 ∧ (s.romRuns = true ∨ s.mode < mSTANDBY)) ∧
    (∃ (s : State) (m : Fin 4) (_tag : Byte), s.mode ≠ mRESET ∧ s.owns m = true ∧ s.rd F.SYS_MBOX_RESP_STATUS ≠ 1 ∧ (s.rd F.SYS_MBOX_ARG_ARG) % 4096 = 0) ∧
    (∃ (s : State) (m : Fin 4) (_tag : Byte), s.mode ≠ mRESET ∧ s.owns m = true ∧ s.rd F.SYS_MBOX_RESP_STATUS ≠ 1 ∧ (s.rd F.SYS_MBOX_ARG_ARG) % 4096 ≠ 0) ∧
    (∃ (s : State) (m : Fin 4) (_tag : Byte), s.mode ≠ mRESET ∧ s.owns m = true ∧ s.rd F.SYS_MBOX_RESP_STATUS ≠ 1 ∧ s.updPermitted = true ∧ 272 ≤ (s.rd F.SYS_MBOX_ARG_ARG) ∧ (s.rd F.SYS_MBOX_ARG_ARG) ≤ 2 ^ 23 ∧ s.stageBase + 2 ^ 23 ≤ s.localSize) ∧
    (∃ (s : State) (m : Fin 4) (_tag : Byte), s.mode ≠ mRESET ∧ s.owns m = true ∧ s.rd F.SYS_MBOX_RESP_STATUS ≠ 1 ∧ s.updPermitted = true ∧ (¬ (272 ≤ (s.rd F.SYS_MBOX_ARG_ARG) ∧ (s.rd F.SYS_MBOX_ARG_ARG) ≤ 2 ^ 23) ∨ s.localSize < s.stageBase + 2 ^ 23)) ∧
    (∃ (s : State) (m : Fin 4) (_tag : Byte), s.mode ≠ mRESET ∧ s.owns m = true ∧ s.rd F.SYS_MBOX_RESP_STATUS ≠ 1 ∧ s.updPermitted = false) ∧
    (∃ (s : State) (m : Fin 4) (_tag : Byte) (n : Nat), s.mode ≠ mRESET ∧ s.owns m = true ∧ s.rd F.SYS_MBOX_RESP_STATUS ≠ 1 ∧ s.updPermitted = true ∧ s.on F.BOOT_STATUS_SESSION = true ∧ (s.rd F.SYS_MBOX_ARG_ARG) = s.boot.sessGot ∧ (s.rd F.SYS_MBOX_ARG_ARG) < s.boot.sessLen ∧ n = min 4096 (s.boot.sessLen - s.boot.sessGot) ∧ s.mgmtWaits (s.stageBase + (s.rd F.SYS_MBOX_ARG_ARG)) = false) ∧
    (∃ (s : State) (m : Fin 4) (_tag : Byte), s.mode ≠ mRESET ∧ s.owns m = true ∧ s.rd F.SYS_MBOX_RESP_STATUS ≠ 1 ∧ s.updPermitted = true ∧ s.on F.BOOT_STATUS_SESSION = true ∧ (s.rd F.SYS_MBOX_ARG_ARG) = s.boot.sessGot ∧ (s.rd F.SYS_MBOX_ARG_ARG) < s.boot.sessLen ∧ s.mgmtWaits (s.stageBase + (s.rd F.SYS_MBOX_ARG_ARG)) = true) ∧
    (∃ (s : State) (m : Fin 4) (_tag : Byte), s.mode ≠ mRESET ∧ s.owns m = true ∧ s.rd F.SYS_MBOX_RESP_STATUS ≠ 1 ∧ s.updPermitted = true ∧ (s.on F.BOOT_STATUS_SESSION = false ∨ (s.rd F.SYS_MBOX_ARG_ARG) ≠ s.boot.sessGot ∨ s.boot.sessLen ≤ (s.rd F.SYS_MBOX_ARG_ARG))) ∧
    (∃ (s : State) (m : Fin 4) (_tag : Byte) (_u : Nat), s.mode ≠ mRESET ∧ s.owns m = true ∧ s.rd F.SYS_MBOX_RESP_STATUS ≠ 1 ∧ s.updPermitted = true ∧ s.sys.pfLow = true) ∧
    (∃ (s : State) (m : Fin 4) (_tag : Byte) (_u : Nat), s.mode ≠ mRESET ∧ s.owns m = true ∧ s.rd F.SYS_MBOX_RESP_STATUS ≠ 1 ∧ s.updPermitted = true ∧ s.sys.pfLow = false ∧ (s.on F.BOOT_STATUS_SESSION = false ∨ s.boot.sessGot ≠ s.boot.sessLen)) ∧
    (∃ (s : State) (m : Fin 4) (_tag : Byte) (_u : Nat), s.mode ≠ mRESET ∧ s.owns m = true ∧ s.rd F.SYS_MBOX_RESP_STATUS ≠ 1 ∧ s.updPermitted = true ∧ s.sys.pfLow = false ∧ s.on F.BOOT_STATUS_SESSION = true ∧ s.boot.sessGot = s.boot.sessLen ∧ s.mgmtWaits s.stageBase = false) ∧
    (∃ (s : State) (m : Fin 4) (_tag : Byte) (_u : Nat), s.mode ≠ mRESET ∧ s.owns m = true ∧ s.rd F.SYS_MBOX_RESP_STATUS ≠ 1 ∧ s.updPermitted = true ∧ s.sys.pfLow = false ∧ s.on F.BOOT_STATUS_SESSION = true ∧ s.boot.sessGot = s.boot.sessLen ∧ s.mgmtWaits s.stageBase = true) ∧
    (∃ (s : State) (m : Fin 4) (_tag : Byte) (_u : Nat), s.mode ≠ mRESET ∧ s.owns m = true ∧ s.rd F.SYS_MBOX_RESP_STATUS ≠ 1 ∧ s.confirmPermitted = true) ∧
    (∃ (s : State) (m : Fin 4) (_tag : Byte) (_u : Nat), s.mode ≠ mRESET ∧ s.owns m = true ∧ s.rd F.SYS_MBOX_RESP_STATUS ≠ 1 ∧ s.confirmPermitted = false) ∧
    (∃ (s : State) (m : Fin 4) (_tag : Byte), s.mode ≠ mRESET ∧ s.owns m = true ∧ s.rd F.SYS_MBOX_RESP_STATUS ≠ 1 ∧ s.romRuns = false ∧ mSTANDBY ≤ s.mode ∧ bits (s.rd F.SYS_MBOX_ARG_ARG) 15 8 + bits (s.rd F.SYS_MBOX_ARG_ARG) 27 16 ≤ 4096) ∧
    (∃ (s : State) (m : Fin 4) (_tag : Byte), s.mode ≠ mRESET ∧ s.owns m = true ∧ s.rd F.SYS_MBOX_RESP_STATUS ≠ 1 ∧ s.romRuns = false ∧ mSTANDBY ≤ s.mode ∧ 4096 < bits (s.rd F.SYS_MBOX_ARG_ARG) 15 8 + bits (s.rd F.SYS_MBOX_ARG_ARG) 27 16) ∧
    (∃ (s : State) (m : Fin 4) (_tag : Byte), s.mode ≠ mRESET ∧ s.owns m = true ∧ s.rd F.SYS_MBOX_RESP_STATUS ≠ 1 ∧ s.romRuns = false ∧ s.mode = mSTANDBY ∧ s.boot.saving = none ∧ s.sys.pfLow = false) ∧
    (∃ (s : State) (m : Fin 4) (_tag : Byte), s.mode ≠ mRESET ∧ s.owns m = true ∧ s.rd F.SYS_MBOX_RESP_STATUS ≠ 1 ∧ s.romRuns = false ∧ s.mode = mSTANDBY ∧ s.boot.saving = none ∧ s.sys.pfLow = true) ∧
    (∃ (s : State) (m : Fin 4) (_tag : Byte), s.mode ≠ mRESET ∧ s.owns m = true ∧ s.rd F.SYS_MBOX_RESP_STATUS ≠ 1 ∧ s.romRuns = false ∧ s.mode = mSTANDBY ∧ s.boot.saving ≠ none) ∧
    (∃ (s : State) (m : Fin 4) (_tag : Byte), s.mode ≠ mRESET ∧ s.owns m = true ∧ s.rd F.SYS_MBOX_RESP_STATUS ≠ 1 ∧ s.mode ≠ mSTANDBY) ∧
    (∃ (s : State) (m : Fin 4) (_tag : Byte) (_u : Nat), s.mode ≠ mRESET ∧ (s.owns m = false ∨ s.rd F.SYS_MBOX_RESP_STATUS = 1)) ∧
    (∃ (s : State) (_r : Fin 5) (_ix : BitVec 16) (_d : List Byte) (x : I2c), s.lnk.i2c = some x) ∧
    (∃ (s : State) (_r : Fin 5) (_ix : BitVec 16) (_d : List Byte), s.lnk.i2c = none) ∧
    (∃ (s : State) (m : Fin 4) (v : Word), s.mode ≠ mRESET ∧ v.toNat % 4 ≠ 0 ∧ m ≠ 0 ∧ s.rd F.LNK_MBOX_OWNER_OWNER = 0) ∧
    (∃ (s : State) (m : Fin 4) (v : Word), s.mode ≠ mRESET ∧ v.toNat % 4 ≠ 0 ∧ (m = 0 ∨ (s.rd F.LNK_MBOX_OWNER_OWNER ≠ 0 ∧ s.rd F.LNK_MBOX_OWNER_OWNER ≠ m))) ∧
    (∃ (s : State) (m : Fin 4) (v : Word), s.mode ≠ mRESET ∧ v.toNat % 4 = 0 ∧ m ≠ 0 ∧ s.rd F.LNK_MBOX_OWNER_OWNER = m) ∧
    (∃ (s : State) (m : Fin 4) (v : Word), s.mode ≠ mRESET ∧ v.toNat % 4 ≠ 0 ∧ m ≠ 0 ∧ s.rd F.LNK_MBOX_OWNER_OWNER = m) ∧
    (∃ (s : State) (m : Fin 4) (v : Word), s.mode ≠ mRESET ∧ v.toNat % 4 = 0 ∧ (s.rd F.LNK_MBOX_OWNER_OWNER ≠ m ∨ m = 0)) ∧
    (∃ (s : State), s.rd F.LNK_MBOX_OWNER_OWNER ≠ 0) ∧
    (∃ (s : State), s.rd F.LNK_MBOX_OWNER_OWNER = 0) ∧
    (∃ (s : State) (e : Fin 2) (_cmd : Word) (_arg : Word) (_buf : List Byte) (_u : Nat), s.on (F.LNK_ETH_STATUS_UP e) = true ∧ s.rd (F.LNK_ETH_MBOX_MBOX_PORT e) ≠ 0 ∧ s.tilHeld = false ∧ s.sys.recovKept = false ∧ s.rd F.LNK_MBOX_OWNER_OWNER ≠ 0 ∧ s.rd F.LNK_MBOX_OWNER_OWNER ≠ 3) ∧
    (∃ (s : State) (e : Fin 2) (cmd : Word) (_arg : Word) (_buf : List Byte) (_u : Nat), s.on (F.LNK_ETH_STATUS_UP e) = true ∧ s.rd (F.LNK_ETH_MBOX_MBOX_PORT e) ≠ 0 ∧ s.tilHeld = false ∧ s.sys.recovKept = false ∧ (s.rd F.LNK_MBOX_OWNER_OWNER = 0 ∨ s.rd F.LNK_MBOX_OWNER_OWNER = 3) ∧ s.rd F.SYS_MBOX_RESP_STATUS ≠ 1 ∧ Word.field cmd 15 8 = 2 ∧ Word.field cmd 7 0 = 2) ∧
    (∃ (s : State) (e : Fin 2) (cmd : Word) (_arg : Word) (_buf : List Byte) (_u : Nat), s.on (F.LNK_ETH_STATUS_UP e) = true ∧ s.rd (F.LNK_ETH_MBOX_MBOX_PORT e) ≠ 0 ∧ s.tilHeld = false ∧ s.sys.recovKept = false ∧ (s.rd F.LNK_MBOX_OWNER_OWNER = 0 ∨ s.rd F.LNK_MBOX_OWNER_OWNER = 3) ∧ s.mboxStarts (Word.field cmd 15 8) (Word.field cmd 7 0) = false) ∧
    (∃ (s : State) (e : Fin 2) (cmd : Word) (_arg : Word) (_buf : List Byte) (_u : Nat), s.on (F.LNK_ETH_STATUS_UP e) = true ∧ s.rd (F.LNK_ETH_MBOX_MBOX_PORT e) ≠ 0 ∧ s.tilHeld = false ∧ s.sys.recovKept = false ∧ (s.rd F.LNK_MBOX_OWNER_OWNER = 0 ∨ s.rd F.LNK_MBOX_OWNER_OWNER = 3) ∧ s.mboxStarts (Word.field cmd 15 8) (Word.field cmd 7 0) = true) ∧
    (∃ (s : State) (e : Fin 2) (_cmd : Word) (_arg : Word) (_buf : List Byte) (_u : Nat), (s.on (F.LNK_ETH_STATUS_UP e) = false ∨ s.rd (F.LNK_ETH_MBOX_MBOX_PORT e) = 0 ∨ s.tilHeld = true ∨ s.sys.recovKept = true)) ∧
    (∃ (s : State) (ofs : BitVec 16) (d : Word) (crc : Byte) (_u : Nat), s.mode ≠ mRESET ∧ ofs.toNat % 4 = 0 ∧ crc.toNat = crc8Bytes ([0x02, BitVec.ofNat 8 (ofs.toNat / 256), BitVec.ofNat 8 ofs.toNat] ++ bytesOf 4 d.toNat)) ∧
    (∃ (s : State) (ofs : BitVec 16) (d : Word) (crc : Byte) (_u : Nat), s.mode ≠ mRESET ∧ (ofs.toNat % 4 ≠ 0 ∨ crc.toNat ≠ crc8Bytes ([0x02, BitVec.ofNat 8 (ofs.toNat / 256), BitVec.ofNat 8 ofs.toNat] ++ bytesOf 4 d.toNat))) ∧
    (∃ (s : State) (ofs : BitVec 16), s.mode ≠ mRESET ∧ ofs.toNat % 4 = 0) ∧
    (∃ (s : State) (ofs : BitVec 16), s.mode ≠ mRESET ∧ ofs.toNat % 4 ≠ 0) ∧
    (∃ (s : State) (_w : BitVec 16) (_crc : Byte), s.mode ≠ mRESET) ∧
    (∃ (s : State), s.mode ≠ mRESET) ∧
    (∃ (s : State) (_ofs : BitVec 16) (_d : Word) (_crc : Byte) (_u : Nat), s.mode = mRESET) :=
  ⟨⟨(fun (s : State) (m : Fin 4) (tag : Byte) => let s : State := { s with sys := { s.sys with recovKept := false, pfLow := false } }; ((s.ready 2)|>.wr F.LNK_MBOX_OWNER_OWNER m.val |>.wr F.SYS_MBOX_RESP_STATUS 2)) State.reset 2 5, 2, 5, by decide +kernel⟩,
    ⟨(fun (s : State) (m : Fin 4) (tag : Byte) => let s : State := { s with sys := { s.sys with recovKept := false, pfLow := false } }; ((s.ready 2)|>.wr F.LNK_MBOX_OWNER_OWNER m.val |>.wr F.SYS_MBOX_RESP_STATUS 2|>.wr F.SYS_MBOX_ARG_ARG (tag.toNat % 3))) State.reset 2 5, 2, 5, by decide +kernel⟩,
    ⟨(fun (s : State) (m : Fin 4) (tag : Byte) => let s : State := { s with sys := { s.sys with recovKept := false, pfLow := false } }; ((s.ready 1)|>.wr F.LNK_MBOX_OWNER_OWNER m.val |>.wr F.SYS_MBOX_RESP_STATUS 2)) State.reset 2 5, 2, 5, by decide +kernel⟩,
    ⟨(fun (s : State) (m : Fin 4) (tag : Byte) => let s : State := { s with sys := { s.sys with recovKept := false, pfLow := false } }; ((s.ready 1)|>.wr F.LNK_MBOX_OWNER_OWNER m.val |>.wr F.SYS_MBOX_RESP_STATUS 2)) State.reset 2 5, 2, 5, by decide +kernel⟩,
    ⟨(fun (s : State) (m : Fin 4) (tag : Byte) => let s : State := { s with sys := { s.sys with recovKept := false, pfLow := false } }; ((s.ready 2)|>.wr F.LNK_MBOX_OWNER_OWNER m.val |>.wr F.SYS_MBOX_RESP_STATUS 2|>.wr F.SYS_MBOX_ARG_ARG (4096 * (tag.toNat % 3)))) State.reset 2 5, 2, 5, by decide +kernel⟩,
    ⟨(fun (s : State) (m : Fin 4) (tag : Byte) => let s : State := { s with sys := { s.sys with recovKept := false, pfLow := false } }; ((s.ready 2)|>.wr F.LNK_MBOX_OWNER_OWNER m.val |>.wr F.SYS_MBOX_RESP_STATUS 2|>.wr F.SYS_MBOX_ARG_ARG 5)) State.reset 2 5, 2, 5, by decide +kernel⟩,
    ⟨(fun (s : State) (m : Fin 4) (tag : Byte) => let s : State := { s with sys := { s.sys with recovKept := false, pfLow := false } }; ((s.ready 2)|>.wr F.LNK_MBOX_OWNER_OWNER m.val |>.wr F.SYS_MBOX_RESP_STATUS 2|>.wr F.SYS_MBOX_ARG_ARG 300|>.put F.SYS_MODE_BOOT_DONE true|>.wr F.MEM_SIZE_MIB 64 |>.wr F.BOOT_STAGE_BASE_HI_BASE 0 |>.wr F.BOOT_STAGE_BASE_LO_BASE 1)) State.reset 2 5, 2, 5, by decide +kernel⟩,
    ⟨(fun (s : State) (m : Fin 4) (tag : Byte) => let s : State := { s with sys := { s.sys with recovKept := false, pfLow := false } }; ((s.ready 2)|>.wr F.LNK_MBOX_OWNER_OWNER m.val |>.wr F.SYS_MBOX_RESP_STATUS 2|>.wr F.SYS_MBOX_ARG_ARG (if tag.toNat % 2 = 0 then 3 else 300)|>.put F.SYS_MODE_BOOT_DONE true|>.wr F.MEM_SIZE_MIB 64 |>.wr F.BOOT_STAGE_BASE_HI_BASE 0 |>.wr F.BOOT_STAGE_BASE_LO_BASE 1|>.wr F.MEM_SIZE_MIB 1)) State.reset 2 5, 2, 5, by decide +kernel⟩,
    ⟨(fun (s : State) (m : Fin 4) (tag : Byte) => let s : State := { s with sys := { s.sys with recovKept := false, pfLow := false } }; ((s.ready 4)|>.wr F.LNK_MBOX_OWNER_OWNER m.val |>.wr F.SYS_MBOX_RESP_STATUS 2)) State.reset 2 5, 2, 5, by decide +kernel⟩,
    ⟨(fun (s : State) (m : Fin 4) (tag : Byte) (n : Nat) => let s : State := { s with boot := { s.boot with sessLen := 4096 * 7 + n, sessGot := 4096 * 7 } }; let s : State := { s with sys := { s.sys with recovKept := false, pfLow := false } }; ((s.ready 2)|>.wr F.LNK_MBOX_OWNER_OWNER m.val |>.wr F.SYS_MBOX_RESP_STATUS 2|>.wr F.SYS_MBOX_ARG_ARG (4096 * 7) |>.put F.BOOT_STATUS_SESSION true |>.wr F.MEM_STATUS_STATE 0|>.put F.SYS_MODE_BOOT_DONE true|>.wr F.MEM_SIZE_MIB 64 |>.wr F.BOOT_STAGE_BASE_HI_BASE 0 |>.wr F.BOOT_STAGE_BASE_LO_BASE 1)) State.reset 2 5 30, 2, 5, 30, by decide +kernel⟩,
    ⟨(fun (s : State) (m : Fin 4) (tag : Byte) => let s : State := { s with boot := { s.boot with sessLen := 4096 * 8, sessGot := 4096 * 7 } }; let s : State := { s with sys := { s.sys with recovKept := false, pfLow := false } }; ((s.ready 2)|>.wr F.LNK_MBOX_OWNER_OWNER m.val |>.wr F.SYS_MBOX_RESP_STATUS 2|>.wr F.SYS_MBOX_ARG_ARG (4096 * 7) |>.put F.BOOT_STATUS_SESSION true |>.wr F.MEM_STATUS_STATE (3 + tag.toNat % 2)|>.put F.SYS_MODE_BOOT_DONE true|>.wr F.MEM_SIZE_MIB 64 |>.wr F.BOOT_STAGE_BASE_HI_BASE 0 |>.wr F.BOOT_STAGE_BASE_LO_BASE 1)) State.reset 2 5, 2, 5, by decide +kernel⟩,
    ⟨(fun (s : State) (m : Fin 4) (tag : Byte) => let s : State := { s with boot := { s.boot with sessLen := 4096, sessGot := 4096 } }; let s : State := { s with sys := { s.sys with recovKept := false, pfLow := false } }; ((s.ready 2)|>.wr F.LNK_MBOX_OWNER_OWNER m.val |>.wr F.SYS_MBOX_RESP_STATUS 2|>.wr F.SYS_MBOX_ARG_ARG (4096 * (tag.toNat % 2)) |>.put F.BOOT_STATUS_SESSION (tag.getLsbD 2)|>.put F.SYS_MODE_BOOT_DONE true|>.wr F.MEM_SIZE_MIB 64 |>.wr F.BOOT_STAGE_BASE_HI_BASE 0 |>.wr F.BOOT_STAGE_BASE_LO_BASE 1)) State.reset 2 5, 2, 5, by decide +kernel⟩,
    ⟨(fun (s : State) (m : Fin 4) (tag : Byte) (u : Nat) => let s : State := { s with sys := { s.sys with recovKept := false, pfLow := true } }; ((s.ready 2)|>.wr F.LNK_MBOX_OWNER_OWNER m.val |>.wr F.SYS_MBOX_RESP_STATUS 2|>.put F.SYS_MODE_BOOT_DONE true)) State.reset 2 5 1000, 2, 5, 1000, by decide +kernel⟩,
    ⟨(fun (s : State) (m : Fin 4) (tag : Byte) (u : Nat) => let s : State := { s with boot := { s.boot with sessLen := 4096, sessGot := 96 } }; let s : State := { s with sys := { s.sys with recovKept := false, pfLow := false } }; ((s.ready 2)|>.wr F.LNK_MBOX_OWNER_OWNER m.val |>.wr F.SYS_MBOX_RESP_STATUS 2|>.put F.BOOT_STATUS_SESSION (tag.getLsbD 2)|>.put F.SYS_MODE_BOOT_DONE true|>.wr F.MEM_SIZE_MIB 64 |>.wr F.BOOT_STAGE_BASE_HI_BASE 0 |>.wr F.BOOT_STAGE_BASE_LO_BASE 1)) State.reset 2 5 1000, 2, 5, 1000, by decide +kernel⟩,
    ⟨(fun (s : State) (m : Fin 4) (tag : Byte) (u : Nat) => let s : State := { s with boot := { s.boot with sessLen := 272, sessGot := 272 } }; let s : State := { s with sys := { s.sys with recovKept := false, pfLow := false } }; ((s.ready 2)|>.wr F.LNK_MBOX_OWNER_OWNER m.val |>.wr F.SYS_MBOX_RESP_STATUS 2|>.put F.BOOT_STATUS_SESSION true |>.wr F.MEM_STATUS_STATE 0|>.put F.SYS_MODE_BOOT_DONE true|>.wr F.MEM_SIZE_MIB 64 |>.wr F.BOOT_STAGE_BASE_HI_BASE 0 |>.wr F.BOOT_STAGE_BASE_LO_BASE 1)) State.reset 2 5 1000, 2, 5, 1000, by decide +kernel⟩,
    ⟨(fun (s : State) (m : Fin 4) (tag : Byte) (u : Nat) => let s : State := { s with boot := { s.boot with sessLen := 272, sessGot := 272 } }; let s : State := { s with sys := { s.sys with recovKept := false, pfLow := false } }; ((s.ready 2)|>.wr F.LNK_MBOX_OWNER_OWNER m.val |>.wr F.SYS_MBOX_RESP_STATUS 2|>.put F.BOOT_STATUS_SESSION true |>.wr F.MEM_STATUS_STATE (3 + tag.toNat % 2)|>.put F.SYS_MODE_BOOT_DONE true|>.wr F.MEM_SIZE_MIB 64 |>.wr F.BOOT_STAGE_BASE_HI_BASE 0 |>.wr F.BOOT_STAGE_BASE_LO_BASE 1)) State.reset 2 5 1000, 2, 5, 1000, by decide +kernel⟩,
    ⟨(fun (s : State) (m : Fin 4) (tag : Byte) (u : Nat) => let s : State := { s with boot := { s.boot with upd := { s.boot.upd with state := if tag.getLsbD 0 then 2 else 1 } } }; let s : State := { s with sys := { s.sys with recovKept := false, pfLow := false } }; ((s.ready 2)|>.wr F.LNK_MBOX_OWNER_OWNER m.val |>.wr F.SYS_MBOX_RESP_STATUS 2|>.put F.SYS_MODE_BOOT_DONE true)) State.reset 2 5 1000, 2, 5, 1000, by decide +kernel⟩,
    ⟨(fun (s : State) (m : Fin 4) (tag : Byte) (u : Nat) => let s : State := { s with sys := { s.sys with recovKept := false, pfLow := false } }; ((s.ready 2)|>.wr F.LNK_MBOX_OWNER_OWNER m.val |>.wr F.SYS_MBOX_RESP_STATUS 2|>.put F.SYS_MODE_BOOT_DONE false)) State.reset 2 5 1000, 2, 5, 1000, by decide +kernel⟩,
    ⟨(fun (s : State) (m : Fin 4) (tag : Byte) => let s : State := { s with sys := { s.sys with recovKept := false, pfLow := false } }; ((s.ready 2)|>.wr F.LNK_MBOX_OWNER_OWNER m.val |>.wr F.SYS_MBOX_RESP_STATUS 2|>.wr F.SYS_MBOX_ARG_ARG 0x00050450)) State.reset 2 5, 2, 5, by decide +kernel⟩,
    ⟨(fun (s : State) (m : Fin 4) (tag : Byte) => let s : State := { s with sys := { s.sys with recovKept := false, pfLow := false } }; ((s.ready 2)|>.wr F.LNK_MBOX_OWNER_OWNER m.val |>.wr F.SYS_MBOX_RESP_STATUS 2|>.wr F.SYS_MBOX_ARG_ARG 0x0FFF0450)) State.reset 2 5, 2, 5, by decide +kernel⟩,
    ⟨(fun (s : State) (m : Fin 4) (tag : Byte) => let s : State := { s with boot := { s.boot with saving := none } }; let s : State := { s with sys := { s.sys with recovKept := false, pfLow := false } }; ((s.ready 2)|>.wr F.LNK_MBOX_OWNER_OWNER m.val |>.wr F.SYS_MBOX_RESP_STATUS 2)) State.reset 2 5, 2, 5, by decide +kernel⟩,
    ⟨(fun (s : State) (m : Fin 4) (tag : Byte) => let s : State := { s with boot := { s.boot with saving := none } }; let s : State := { s with sys := { s.sys with recovKept := false, pfLow := true } }; ((s.ready 2)|>.wr F.LNK_MBOX_OWNER_OWNER m.val |>.wr F.SYS_MBOX_RESP_STATUS 2)) State.reset 2 5, 2, 5, by decide +kernel⟩,
    ⟨(fun (s : State) (m : Fin 4) (tag : Byte) => let s : State := { s with boot := { s.boot with saving := some 1 } }; let s : State := { s with sys := { s.sys with recovKept := false, pfLow := false } }; ((s.ready 2)|>.wr F.LNK_MBOX_OWNER_OWNER m.val |>.wr F.SYS_MBOX_RESP_STATUS 2)) State.reset 2 5, 2, 5, by decide +kernel⟩,
    ⟨(fun (s : State) (m : Fin 4) (tag : Byte) => let s : State := { s with sys := { s.sys with recovKept := false, pfLow := false } }; ((s.ready 4)|>.wr F.LNK_MBOX_OWNER_OWNER m.val |>.wr F.SYS_MBOX_RESP_STATUS 2)) State.reset 2 5, 2, 5, by decide +kernel⟩,
    ⟨(fun (s : State) (m : Fin 4) (tag : Byte) (u : Nat) => ((s.ready 2)|>.wr F.LNK_MBOX_OWNER_OWNER 0)) State.reset 2 5 1000, 2, 5, 1000, by decide +kernel⟩,
    ⟨(fun (s : State) (r : Fin 5) (ix : BitVec 16) (d : List Byte) (x : I2c) => let s : State := { s with sys := { s.sys with cmd := if ix.getLsbD 0 then some ⟨5, 5, 1, 0⟩ else s.sys.cmd }, lnk := { s.lnk with i2c := some x } }; (s.ready 2)) State.reset 1 3 ([1, 2, 3, 4, 5]) (I2c.mk 5 80 4 5 [1, 2, 3, 4]), 1, 3, [1, 2, 3, 4, 5], I2c.mk 5 80 4 5 [1, 2, 3, 4], by decide +kernel⟩,
    ⟨(fun (s : State) (r : Fin 5) (ix : BitVec 16) (d : List Byte) => let s : State := { s with lnk := { s.lnk with i2c := none } }; (s.ready 2)) State.reset 1 3 ([1, 2, 3, 4, 5]), 1, 3, [1, 2, 3, 4, 5], by decide +kernel⟩,
    ⟨(fun (s : State) (m : Fin 4) (v : Word) => ((s.ready 2)|>.wr F.LNK_MBOX_OWNER_OWNER 0)) State.reset 2 1, 2, 1, by decide +kernel⟩,
    ⟨(fun (s : State) (m : Fin 4) (v : Word) => ((s.ready 2)|>.wr F.LNK_MBOX_OWNER_OWNER 3)) State.reset 2 1, 2, 1, by decide +kernel⟩,
    ⟨(fun (s : State) (m : Fin 4) (v : Word) => ((s.ready 2)|>.wr F.LNK_MBOX_OWNER_OWNER m.val)) State.reset 2 0, 2, 0, by decide +kernel⟩,
    ⟨(fun (s : State) (m : Fin 4) (v : Word) => ((s.ready 2)|>.wr F.LNK_MBOX_OWNER_OWNER m.val)) State.reset 2 1, 2, 1, by decide +kernel⟩,
    ⟨(fun (s : State) (m : Fin 4) (v : Word) => ((s.ready 2)|>.wr F.LNK_MBOX_OWNER_OWNER 3)) State.reset 2 0, 2, 0, by decide +kernel⟩,
    ⟨(fun (s : State) => ((s.ready 2)|>.wr F.LNK_MBOX_OWNER_OWNER 3)) State.reset, by decide +kernel⟩,
    ⟨(fun (s : State) => ((s.ready 2)|>.wr F.LNK_MBOX_OWNER_OWNER 0)) State.reset, by decide +kernel⟩,
    ⟨(fun (s : State) (e : Fin 2) (cmd : Word) (arg : Word) (buf : List Byte) (u : Nat) => let s : State := { s with sys := { s.sys with recovKept := false } }; ((s.ready 2)|>.put (F.LNK_ETH_STATUS_UP e) true |>.wr (F.LNK_ETH_MBOX_MBOX_PORT e) 77|>.wr F.LNK_MBOX_OWNER_OWNER 1)) State.reset 1 0x00050202 7 [1] 1000, 1, 0x00050202, 7, [1], 1000, by decide +kernel⟩,
    ⟨(fun (s : State) (e : Fin 2) (cmd : Word) (arg : Word) (buf : List Byte) (u : Nat) => let s : State := { s with sys := { s.sys with recovKept := false } }; ((s.ready 2)|>.put (F.LNK_ETH_STATUS_UP e) true |>.wr (F.LNK_ETH_MBOX_MBOX_PORT e) 77|>.wr F.LNK_MBOX_OWNER_OWNER 3 |>.wr F.SYS_MBOX_RESP_STATUS 2)) State.reset 1 0x00050202 7 ([1, 2, 3, 4]) 1000, 1, 0x00050202, 7, [1, 2, 3, 4], 1000, by decide +kernel⟩,
    ⟨(fun (s : State) (e : Fin 2) (cmd : Word) (arg : Word) (buf : List Byte) (u : Nat) => let s : State := { s with sys := { s.sys with recovKept := false } }; ((s.ready 2)|>.put (F.LNK_ETH_STATUS_UP e) true |>.wr (F.LNK_ETH_MBOX_MBOX_PORT e) 77|>.wr F.LNK_MBOX_OWNER_OWNER 3 |>.wr F.SYS_MBOX_RESP_STATUS 1)) State.reset 1 0x00050202 7 ([1, 2, 3, 4]) 1000, 1, 0x00050202, 7, [1, 2, 3, 4], 1000, by decide +kernel⟩,
    ⟨(fun (s : State) (e : Fin 2) (cmd : Word) (arg : Word) (buf : List Byte) (u : Nat) => let s : State := { s with sys := { s.sys with recovKept := false } }; ((s.ready 2)|>.put (F.LNK_ETH_STATUS_UP e) true |>.wr (F.LNK_ETH_MBOX_MBOX_PORT e) 77|>.wr F.LNK_MBOX_OWNER_OWNER 3 |>.wr F.SYS_MBOX_RESP_STATUS 2 |>.wr F.MEM_STATUS_STATE 4)) State.reset 1 0x00050202 7 ([1, 2, 3, 4]) 1000, 1, 0x00050202, 7, [1, 2, 3, 4], 1000, by decide +kernel⟩,
    ⟨(fun (s : State) (e : Fin 2) (cmd : Word) (arg : Word) (buf : List Byte) (u : Nat) => let s : State := { s with sys := { s.sys with recovKept := false } }; ((s.ready 2)|>.put (F.LNK_ETH_STATUS_UP e) true |>.wr (F.LNK_ETH_MBOX_MBOX_PORT e) 77|>.wr (F.LNK_ETH_MBOX_MBOX_PORT e) 0)) State.reset 1 0x00050202 7 [1] 1000, 1, 0x00050202, 7, [1], 1000, by decide +kernel⟩,
    ⟨(fun (s : State) (ofs : BitVec 16) (d : Word) (crc : Byte) (u : Nat) => (s.ready 2)) State.reset 0x0010 7 (BitVec.ofNat 8 (crc8Bytes ([0x02, 0, 0x10] ++ bytesOf 4 7))) 1000, 0x0010, 7, BitVec.ofNat 8 (crc8Bytes ([0x02, 0, 0x10] ++ bytesOf 4 7)), 1000, by decide +kernel⟩,
    ⟨(fun (s : State) (ofs : BitVec 16) (d : Word) (crc : Byte) (u : Nat) => (s.ready 2)) State.reset 0x0011 7 5 1000, 0x0011, 7, 5, 1000, by decide +kernel⟩,
    ⟨(fun (s : State) (ofs : BitVec 16) => (s.ready 2)) State.reset 0x0010, 0x0010, by decide +kernel⟩,
    ⟨(fun (s : State) (ofs : BitVec 16) => (s.ready 2)) State.reset 0x0011, 0x0011, by decide +kernel⟩,
    ⟨(fun (s : State) (w : BitVec 16) (crc : Byte) => (s.ready 2)) State.reset 0x0011 5, 0x0011, 5, by decide +kernel⟩,
    ⟨(fun (s : State) => (s.ready 2)) State.reset, by decide +kernel⟩,
    ⟨(fun (s : State) (ofs : BitVec 16) (d : Word) (crc : Byte) (u : Nat) => (s.ready 0)) State.reset 0x0011 7 5 1000, 0x0011, 7, 5, 1000, by decide +kernel⟩⟩

/-- States and operands that meet the hypotheses of each clause of StartAndFlashWork. -/
theorem witness_StartAndFlashWork :
    (∃ (s : State) (_ok : Bool) (_failing : BitVec 4) (_nominal : Bool) (_u : Nat), s.rd F.BOOT_STATUS_STEP = 1 ∧ s.boot.starting = true ∧ s.mode ≠ mRESET) ∧
    (∃ (s : State) (_ok : Bool) (_failing : BitVec 4) (_nominal : Bool) (_u : Nat), s.rd F.BOOT_STATUS_STEP = 2 ∧ s.boot.starting = true ∧ s.mode ≠ mRESET) ∧
    (∃ (s : State) (_ok : Bool) (_failing : BitVec 4) (_nominal : Bool) (_u : Nat), s.rd F.BOOT_STATUS_STEP = 3 ∧ s.boot.starting = true) ∧
    (∃ (s : State) (_ok : Bool) (_failing : BitVec 4) (_nominal : Bool) (_u : Nat), s.rd F.BOOT_STATUS_STEP = 4 ∧ s.boot.starting = true) ∧
    (∃ (s : State) (_ok : Bool) (_failing : BitVec 4) (_nominal : Bool) (_u : Nat), s.rd F.BOOT_STATUS_STEP = 3 ∧ s.boot.starting = true ∧ s.mode ≠ mRESET) ∧
    (∃ (s : State) (_ok : Bool) (_failing : BitVec 4) (_nominal : Bool) (_u : Nat), s.rd F.BOOT_STATUS_STEP = 4 ∧ s.boot.starting = true ∧ s.mode ≠ mRESET) ∧
    (∃ (s : State) (_ok : Bool) (_failing : BitVec 4) (_nominal : Bool) (_u : Nat), s.rd F.BOOT_STATUS_STEP = 5 ∧ s.boot.starting = true ∧ s.boot.warmStart = true ∧ s.mem.retained = true ∧ s.on F.MEM_TRN_STATE_VALID = true) ∧
    (∃ (s : State) (_ok : Bool) (_failing : BitVec 4) (nominal : Bool) (_u : Nat), s.rd F.BOOT_STATUS_STEP = 5 ∧ s.boot.starting = true ∧ (s.boot.warmStart = false ∨ s.mem.retained = false ∨ s.on F.MEM_TRN_STATE_VALID = false ∨ nominal = false)) ∧
    (∃ (s : State) (_ok : Bool) (failing : BitVec 4) (nominal : Bool) (_u : Nat), s.rd F.BOOT_STATUS_STEP = 5 ∧ s.boot.starting = true ∧ (s.boot.warmStart = false ∨ s.mem.retained = false ∨ s.on F.MEM_TRN_STATE_VALID = false ∨ nominal = false) ∧ failing ≠ 0 ∧ s.mode ≠ mRESET) ∧
    (∃ (s : State) (_ok : Bool) (_failing : BitVec 4) (_nominal : Bool) (_u : Nat), s.rd F.BOOT_STATUS_STEP = 6 ∧ s.boot.starting = true ∧ s.cal.jrnA = none ∧ s.cal.jrnB = none) ∧
    (∃ (s : State) (_ok : Bool) (_failing : BitVec 4) (_nominal : Bool) (_u : Nat), s.rd F.BOOT_STATUS_STEP = 7 ∧ s.boot.starting = true ∧ s.boot.setA = none ∧ s.boot.setB = none ∧ s.reg (R.BOOT_SET_ADDR 0) = 0xFFFFFFFF ∧ s.mode = mSTANDBY ∧ s.forcedCause = 0 ∧ s.cdSkip = false ∧ s.on F.CAL_STATUS_BUSY = false) ∧
    (∃ (s : State) (_ok : Bool) (_failing : BitVec 4) (_nominal : Bool) (_u : Nat), s.rd F.BOOT_STATUS_STEP = 7 ∧ s.boot.starting = true ∧ s.boot.setA = none ∧ s.boot.setB = none ∧ s.reg (R.BOOT_SET_ADDR 0) = 0xFFFFFFFF ∧ ((s.mode ≠ mSTANDBY ∨ s.forcedCause ≠ 0) ∧ s.cdSkip = false)) ∧
    (∃ (s : State) (_ok : Bool) (_failing : BitVec 4) (_nominal : Bool) (_u : Nat), s.boot.starting = true) ∧
    (∃ (s : State) (_ok : Bool) (_failing : BitVec 4) (_nominal : Bool) (_u : Nat) (k : Fin 2) (j : JrnRec), s.rd F.BOOT_STATUS_STEP = 6 ∧ s.boot.starting = true ∧ s.newestJrn = some k.val ∧ s.jrnOf k = some j) ∧
    (∃ (s : State) (_ok : Bool) (_failing : BitVec 4) (_nominal : Bool) (_u : Nat), s.rd F.BOOT_STATUS_STEP = 7 ∧ s.boot.starting = true ∧ s.boot.setA = none ∧ s.boot.setB = none ∧ s.reg (R.BOOT_SET_ADDR 0) = 0xFFFFFFFF ∧ s.cdSkip = true) ∧
    (∃ (s : State) (_ok : Bool) (_failing : BitVec 4) (_nominal : Bool) (_u : Nat), s.rd F.BOOT_STATUS_STEP = 9 ∧ s.boot.starting = true) ∧
    (∃ (s : State) (_ok : Bool) (_failing : BitVec 4) (_nominal : Bool) (_u : Nat) (n : Fin 192), s.rd F.BOOT_STATUS_STEP = 9 ∧ s.boot.starting = true ∧ s.tilStopped = false ∧ (s.tiller n).refRuns = true ∧ (s.tiller n).state = .halted ∧ (s.tiller n).refRedo = none) ∧
    (∃ (s : State) (_ok : Bool) (_failing : BitVec 4) (_nominal : Bool) (_u : Nat) (a : Word) (_v : Word), s.rd F.BOOT_STATUS_STEP = 7 ∧ s.boot.starting = true ∧ s.boot.setA = none ∧ s.boot.setB = none ∧ s.reg (R.BOOT_SET_ADDR 0) = a ∧ s.reg (R.BOOT_SET_ADDR 1) = 0xFFFFFFFF ∧ (a.toNat < 0x10000 ∨ (0xD00000 ≤ a.toNat ∧ a.toNat < 0xE00000) ∨ inWindow a.toNat = true)) ∧
    (∃ (s : State) (_ok : Bool) (_failing : BitVec 4) (_nominal : Bool) (_u : Nat), (s.boot.starting = false ∨ s.rd F.BOOT_STATUS_STEP = 0 ∨ s.rd F.BOOT_STATUS_STEP = 8 ∨ 10 ≤ s.rd F.BOOT_STATUS_STEP)) ∧
    (∃ (s : State), s.on F.BOOT_STATUS_CD_DUE = true ∧ s.mode = mSTANDBY ∧ s.forcedCause = 0 ∧ s.on F.CAL_STATUS_BUSY = false ∧ s.boot.starting = false) ∧
    (∃ (s : State), (s.on F.BOOT_STATUS_CD_DUE = false ∨ s.mode ≠ mSTANDBY ∨ s.forcedCause ≠ 0 ∨ s.on F.CAL_STATUS_BUSY = true ∨ s.boot.starting = true)) ∧
    (∃ (s : State) (img : List Byte) (hd : Bool) (_u : Nat) (_n : Nat), s.boot.writing = some (img, hd) ∧ (s.boot.heldReset = none ∨ s.boot.saving.isSome = true ∨ s.on F.CAL_STATUS_JRN_BUSY = true)) ∧
    (∃ (s : State) (img : List Byte) (hd : Bool) (_u : Nat), s.boot.writing = some (img, hd) ∧ (s.boot.heldReset = none ∨ s.boot.saving.isSome = true ∨ s.on F.CAL_STATUS_JRN_BUSY = true)) ∧
    (∃ (s : State) (img : List Byte) (hd : Bool) (_v : Bool) (_u : Nat) (g : Nat) (w : Bool), s.boot.writing = some (img, hd) ∧ s.mode ≠ mRESET ∧ s.boot.heldReset = some (g, w) ∧ s.boot.saving = none ∧ s.on F.CAL_STATUS_JRN_BUSY = false) ∧
    (∃ (s : State) (_ok : Bool) (k : Fin 2) (g : Nat) (w : Bool), s.boot.saving = some k.val ∧ s.mode ≠ mRESET ∧ s.boot.heldReset = some (g, w) ∧ s.boot.writing = none ∧ s.on F.CAL_STATUS_JRN_BUSY = false) ∧
    (∃ (s : State) (_v : Bool) (_u : Nat) (g : Nat) (w : Bool), s.boot.writing = none ∧ s.boot.heldReset = some (g, w) ∧ s.boot.saving = none ∧ s.on F.CAL_STATUS_JRN_BUSY = false) ∧
    (∃ (s : State) (_v : Bool) (_u : Nat), s.boot.writing = none ∧ (s.boot.heldReset = none ∨ s.boot.saving.isSome = true ∨ s.on F.CAL_STATUS_JRN_BUSY = true)) ∧
    (∃ (s : State) (_ok : Bool) (k : Fin 2), s.boot.saving = some k.val ∧ (s.boot.heldReset = none ∨ s.boot.writing.isSome = true ∨ s.on F.CAL_STATUS_JRN_BUSY = true)) ∧
    (∃ (s : State) (_ok : Bool), s.boot.saving = none) ∧
    (∃ (s : State) (e : LogEntry) (rest : List LogEntry), s.boot.log = e :: rest ∧ (s.tilHeld = false ∧ s.on F.SYS_MODE_BOOT_DONE = true ∧ (s.sys.pfLow = false ∨ (s.rd F.BOOT_LOG_INDEX_NEXT) % 1024 ≠ 0))) ∧
    (∃ (s : State), (s.boot.log = [] ∨ s.tilHeld = true ∨ s.on F.SYS_MODE_BOOT_DONE = false ∨ (s.sys.pfLow = true ∧ (s.rd F.BOOT_LOG_INDEX_NEXT) % 1024 = 0))) :=
  ⟨⟨(fun (s : State) (ok : Bool) (failing : BitVec 4) (nominal : Bool) (u : Nat) => let s : State := { s with sys := { s.sys with pfLow := false }, boot := { s.boot with starting := true, flash := Mem.store 0xFF (Mem.store 0xFF [] 0 (List.replicate 32 0)) 0x100000 (List.replicate 32 0) } }; ((s.ready 2)|>.wr F.BOOT_STATUS_STEP 1 |>.wr F.SYS_MODE_MODE (if nominal then 2 else 7))) State.reset true 0 true 1000, true, 0, true, 1000, by decide +kernel⟩,
    ⟨(fun (s : State) (ok : Bool) (failing : BitVec 4) (nominal : Bool) (u : Nat) => let s : State := { s with sys := { s.sys with pfLow := false }, boot := { s.boot with starting := true, flash := Mem.store 0xFF (Mem.store 0xFF [] 0 (List.replicate 32 0)) 0x100000 (List.replicate 32 0) } }; ((s.ready 2)|>.wr F.BOOT_STATUS_STEP 2 |>.wr F.SYS_MODE_MODE (if nominal then 2 else 7))) State.reset true 0 true 1000, true, 0, true, 1000, by decide +kernel⟩,
    ⟨(fun (s : State) (ok : Bool) (failing : BitVec 4) (nominal : Bool) (u : Nat) => let s : State := { s with sys := { s.sys with pfLow := false }, boot := { s.boot with starting := true } }; ((s.ready 2)|>.wr F.BOOT_STATUS_STEP 3)) State.reset true 0 true 1000, true, 0, true, 1000, by decide +kernel⟩,
    ⟨(fun (s : State) (ok : Bool) (failing : BitVec 4) (nominal : Bool) (u : Nat) => let s : State := { s with sys := { s.sys with pfLow := false }, boot := { s.boot with starting := true, flash := Mem.store 0xFF (Mem.store 0xFF [] 0 (List.replicate 32 0)) 0x100000 (List.replicate 32 0) } }; ((s.ready 2)|>.wr F.BOOT_STATUS_STEP 4)) State.reset true 0 true 1000, true, 0, true, 1000, by decide +kernel⟩,
    ⟨(fun (s : State) (ok : Bool) (failing : BitVec 4) (nominal : Bool) (u : Nat) => let s : State := { s with sys := { s.sys with pfLow := false }, boot := { s.boot with starting := true, fails := List.replicate (u % 4) u } }; ((s.ready 2)|>.wr F.BOOT_STATUS_STEP 3 |>.wr F.SYS_MODE_MODE (if nominal then 2 else 7))) State.reset true 0 true 1000, true, 0, true, 1000, by decide +kernel⟩,
    ⟨(fun (s : State) (ok : Bool) (failing : BitVec 4) (nominal : Bool) (u : Nat) => let s : State := { s with sys := { s.sys with pfLow := false }, boot := { s.boot with starting := true, fails := List.replicate (u % 4) u } }; ((s.ready 2)|>.wr F.BOOT_STATUS_STEP 4 |>.wr F.SYS_MODE_MODE (if nominal then 2 else 7))) State.reset true 0 true 1000, true, 0, true, 1000, by decide +kernel⟩,
    ⟨(fun (s : State) (ok : Bool) (failing : BitVec 4) (nominal : Bool) (u : Nat) => let s : State := { s with mem := { s.mem with retained := true } }; let s : State := { s with sys := { s.sys with pfLow := false }, boot := { s.boot with starting := true, warmStart := true } }; ((s.ready 2)|>.wr F.BOOT_STATUS_STEP 5 |>.put F.MEM_TRN_STATE_VALID true)) State.reset true 0 true 1000, true, 0, true, 1000, by decide +kernel⟩,
    ⟨(fun (s : State) (ok : Bool) (failing : BitVec 4) (nominal : Bool) (u : Nat) => let s : State := { s with sys := { s.sys with pfLow := false }, boot := { s.boot with starting := true, warmStart := false } }; ((s.ready 2)|>.wr F.BOOT_STATUS_STEP 5)) State.reset true 0 true 1000, true, 0, true, 1000, by decide +kernel⟩,
    ⟨(fun (s : State) (ok : Bool) (failing : BitVec 4) (nominal : Bool) (u : Nat) => let s : State := { s with sys := { s.sys with pfLow := false }, boot := { s.boot with starting := true, warmStart := false, fails := List.replicate (u % 4) u } }; ((s.ready 2)|>.wr F.BOOT_STATUS_STEP 5 |>.wr F.SYS_MODE_MODE (if nominal then 2 else 7))) State.reset true 2 true 1000, true, 2, true, 1000, by decide +kernel⟩,
    ⟨(fun (s : State) (ok : Bool) (failing : BitVec 4) (nominal : Bool) (u : Nat) => let s : State := { s with cal := { s.cal with jrnA := none, jrnB := none, tCal := [], bofs := [] } }; let s : State := { s with sys := { s.sys with pfLow := false }, boot := { s.boot with starting := true, warmStart := false } }; ((s.ready 2)|>.wr F.BOOT_STATUS_STEP 6)) State.reset true 2 true 1000, true, 2, true, 1000, by decide +kernel⟩,
    ⟨(fun (s : State) (ok : Bool) (failing : BitVec 4) (nominal : Bool) (u : Nat) => let s : State := { s with sys := { s.sys with pfLow := false }, boot := { s.boot with starting := true, warmStart := false, setA := none, setB := none, flash := Mem.store 0xFF (Mem.store 0xFF [] 0 (List.replicate 32 0)) 0x100000 (List.replicate 32 0) } }; ((s.ready 2)|>.wr F.BOOT_STATUS_STEP 7 |>.wr F.THM_STATUS_IND 0 |>.put F.CAL_STATUS_BUSY false|>.setReg (R.BOOT_SET_ADDR 0) 0xFFFFFFFF)) State.reset true 2 true 1000, true, 2, true, 1000, by decide +kernel⟩,
    ⟨(fun (s : State) (ok : Bool) (failing : BitVec 4) (nominal : Bool) (u : Nat) => let s : State := { s with sys := { s.sys with pfLow := false }, boot := { s.boot with starting := true, warmStart := false, setA := none, setB := none, flash := Mem.store 0xFF (Mem.store 0xFF [] 0 (List.replicate 32 0)) 0x100000 (List.replicate 32 0) } }; ((s.ready 7)|>.wr F.BOOT_STATUS_STEP 7|>.setReg (R.BOOT_SET_ADDR 0) 0xFFFFFFFF)) State.reset true 2 true 1000, true, 2, true, 1000, by decide +kernel⟩,
    ⟨(fun (s : State) (ok : Bool) (failing : BitVec 4) (nominal : Bool) (u : Nat) => let s : State := { s with sys := { s.sys with pfLow := false }, boot := { s.boot with starting := true, flash := Mem.store 0xFF (Mem.store 0xFF [] 0 (List.replicate 32 0)) 0x100000 (List.replicate 32 0) } }; ((s.ready 2)|>.wr F.BOOT_STATUS_STEP (u % 10)|>.setReg (R.BOOT_SET_ADDR 0) 0xFFFFFFFF)) State.reset true 2 true 1000, true, 2, true, 1000, by decide +kernel⟩,
    ⟨(fun (s : State) (ok : Bool) (failing : BitVec 4) (nominal : Bool) (u : Nat) (k : Fin 2) (j : JrnRec) => let s : State := { s with cal := { s.cal with jrnA := if k = 0 then some j else none, jrnB := if k = 1 then some j else none } }; let s : State := { s with sys := { s.sys with pfLow := false }, boot := { s.boot with starting := true, warmStart := false, setA := none, setB := none, flash := Mem.store 0xFF (Mem.store 0xFF [] 0 (List.replicate 32 0)) 0x100000 (List.replicate 32 0) } }; ((s.ready 7)|>.wr F.BOOT_STATUS_STEP 6|>.setReg (R.BOOT_SET_ADDR 0) 0xFFFFFFFF)) State.reset true 2 true 1000 1 (JrnRec.mk 1 [] [] [] [] [] [] [] [] [] [] 0 0 0), true, 2, true, 1000, 1, JrnRec.mk 1 [] [] [] [] [] [] [] [] [] [] 0 0 0, by decide +kernel⟩,
    ⟨(fun (s : State) (ok : Bool) (failing : BitVec 4) (nominal : Bool) (u : Nat) => let s : State := { s with sys := { s.sys with pfLow := false }, boot := { s.boot with starting := true, warmStart := true, setA := none, setB := none, flash := Mem.store 0xFF (Mem.store 0xFF [] 0 (List.replicate 32 0)) 0x100000 (List.replicate 32 0) } }; ((s.ready 2)|>.wr F.BOOT_STATUS_STEP 7 |>.wrS F.CAL_LAST_CD_TEMP s.tRz |>.wr F.CAL_LAST_CD_AGE 5 |>.put F.BOOT_STATUS_CD_DUE false |>.put F.BOOT_SET_OPT_AUTO_SCAN true|>.setReg (R.BOOT_SET_ADDR 0) 0xFFFFFFFF)) State.reset true 2 true 1000, true, 2, true, 1000, by decide +kernel⟩,
    ⟨(fun (s : State) (ok : Bool) (failing : BitVec 4) (nominal : Bool) (u : Nat) => let s : State := { s with sys := { s.sys with pfLow := false }, boot := { s.boot with starting := true } }; ((s.ready 2)|>.wr F.BOOT_STATUS_STEP 9 |>.put F.BOOT_STATUS_CD_DUE false |>.put F.BOOT_SET_OPT_AUTO_SCAN true |>.wr F.THM_STATUS_IND 0)) State.reset true 2 true 1000, true, 2, true, 1000, by decide +kernel⟩,
    ⟨(fun (s : State) (ok : Bool) (failing : BitVec 4) (nominal : Bool) (u : Nat) (n : Fin 192) => let s : State := s.onTiller n (fun x => { x with refRuns := true, state := .halted, refRedo := none }); let s : State := { s with sys := { s.sys with pfLow := false }, boot := { s.boot with starting := true } }; ((s.ready 2)|>.wr F.BOOT_STATUS_STEP 9)) State.reset true 2 true 1000 3, true, 2, true, 1000, 3, by decide +kernel⟩,
    ⟨(fun (s : State) (ok : Bool) (failing : BitVec 4) (nominal : Bool) (u : Nat) (a : Word) (v : Word) => let s : State := { s with sys := { s.sys with pfLow := false }, boot := { s.boot with starting := true, warmStart := false, setA := none, setB := none, flash := Mem.store 0xFF (Mem.store 0xFF [] 0 (List.replicate 32 0)) 0x100000 (List.replicate 32 0) } }; ((s.ready 7)|>.wr F.BOOT_STATUS_STEP 7 |>.setReg (R.BOOT_SET_ADDR 0) a |>.setReg (R.BOOT_SET_ADDR 1) 0xFFFFFFFF)) State.reset true 2 true 1000 16 7, true, 2, true, 1000, 16, 7, by decide +kernel⟩,
    ⟨(fun (s : State) (ok : Bool) (failing : BitVec 4) (nominal : Bool) (u : Nat) => let s : State := { s with sys := { s.sys with pfLow := false }, boot := { s.boot with starting := false } }; ((s.ready 2))) State.reset true 2 true 1000, true, 2, true, 1000, by decide +kernel⟩,
    ⟨(fun (s : State) => let s : State := { s with sys := { s.sys with pfLow := false }, boot := { s.boot with starting := false } }; ((s.ready 2)|>.put F.BOOT_STATUS_CD_DUE true |>.wr F.THM_STATUS_IND 0 |>.put F.CAL_STATUS_BUSY false)) State.reset, by decide +kernel⟩,
    ⟨(fun (s : State) => let s : State := { s with sys := { s.sys with pfLow := false }, boot := { s.boot with starting := true } }; ((s.ready 2))) State.reset, by decide +kernel⟩,
    ⟨(fun (s : State) (img : List Byte) (hd : Bool) (u : Nat) (n : Nat) => let s : State := { s with sys := { s.sys with pfLow := false, cmd := some ⟨7, 4, 3, 0⟩ }, boot := { s.boot with writing := some (img, hd), heldReset := none, saving := none } }; ((s.ready 2))) State.reset (List.replicate 40 0) true 1000 3, List.replicate 40 0, true, 1000, 3, by decide +kernel⟩,
    ⟨(fun (s : State) (img : List Byte) (hd : Bool) (u : Nat) => let s : State := { s with sys := { s.sys with pfLow := false, cmd := some ⟨7, 4, 3, 0⟩ }, boot := { s.boot with writing := some (img, hd), heldReset := none, saving := none } }; ((s.ready 2))) State.reset (List.replicate 40 0) true 1000, List.replicate 40 0, true, 1000, by decide +kernel⟩,
    ⟨(fun (s : State) (img : List Byte) (hd : Bool) (v : Bool) (u : Nat) (g : Nat) (w : Bool) => let s : State := { s with sys := { s.sys with pfLow := false }, boot := { s.boot with writing := some (img, hd), heldReset := some (g, w), saving := none } }; ((s.ready 2)|>.put F.CAL_STATUS_JRN_BUSY false)) State.reset (List.replicate 40 0) true true 1000 4 true, List.replicate 40 0, true, true, 1000, 4, true, by decide +kernel⟩,
    ⟨(fun (s : State) (ok : Bool) (k : Fin 2) (g : Nat) (w : Bool) => let s : State := { s with sys := { s.sys with pfLow := false }, boot := { s.boot with saving := some k.val, heldReset := some (g, w), writing := none } }; ((s.ready 2)|>.put F.CAL_STATUS_JRN_BUSY false)) State.reset true 1 4 true, true, 1, 4, true, by decide +kernel⟩,
    ⟨(fun (s : State) (v : Bool) (u : Nat) (g : Nat) (w : Bool) => let s : State := { s with sys := { s.sys with pfLow := false }, boot := { s.boot with writing := none, heldReset := some (g, w), saving := none } }; ((s.ready 2))|>.put F.CAL_STATUS_JRN_BUSY false) State.reset true 1000 5 true, true, 1000, 5, true, by decide +kernel⟩,
    ⟨(fun (s : State) (v : Bool) (u : Nat) => let s : State := { s with sys := { s.sys with pfLow := false }, boot := { s.boot with writing := none } }; ((s.ready 2))) State.reset true 1000, true, 1000, by decide +kernel⟩,
    ⟨(fun (s : State) (ok : Bool) (k : Fin 2) => let s : State := { s with cal := { s.cal with burn := none } }; let s : State := { s with sys := { s.sys with pfLow := false, cmd := some ⟨7, 7, 1, 0⟩ }, boot := { s.boot with saving := some k.val, heldReset := none, writing := none } }; ((s.ready 2))) State.reset true 1, true, 1, by decide +kernel⟩,
    ⟨(fun (s : State) (ok : Bool) => let s : State := { s with sys := { s.sys with pfLow := false }, boot := { s.boot with saving := none } }; ((s.ready 2))) State.reset true, true, by decide +kernel⟩,
    ⟨(fun (s : State) (e : LogEntry) (rest : List LogEntry) => let s : State := { s with sys := { s.sys with pfLow := false }, boot := { s.boot with log := e :: rest } }; ((s.ready 2)|>.put F.SYS_MODE_BOOT_DONE true)) State.reset (LogEntry.mk 1 2 3 4 []) [], LogEntry.mk 1 2 3 4 [], [], by decide +kernel⟩,
    ⟨(fun (s : State) => let s : State := { s with sys := { s.sys with pfLow := false }, boot := { s.boot with log := [] } }; ((s.ready 2))) State.reset, by decide +kernel⟩⟩

/-- States and operands that meet the hypotheses of each clause of HeadlandTransfers. -/
theorem witness_HeadlandTransfers :
    (∃ (s : State), s.mode ≠ mRESET ∧ s.boot.checked ≠ 0 ∧ s.on F.BOOT_STATUS_SESSION = true ∧ s.boot.tx = none) ∧
    (∃ (s : State), s.mode ≠ mRESET ∧ (s.boot.checked = 0 ∨ s.on F.BOOT_STATUS_SESSION = false ∨ s.boot.tx ≠ none)) ∧
    (∃ (s : State) (_u : Nat), s.mode ≠ mRESET) ∧
    (∃ (s : State) (_hops : Fin 8) (_u : Nat), s.mode ≠ mRESET) ∧
    (∃ (s : State) (_hops : Fin 8) (_total : Word), s.mode ≠ mRESET ∧ s.boot.rx = none) ∧
    (∃ (s : State) (x : HdlRx) (_good : Bool) (_hops : Fin 8) (_total : Word), s.mode ≠ mRESET ∧ s.boot.rx = some x ∧ s.hdlMay = true) ∧
    (∃ (s : State) (x : HdlRx) (_good : Bool) (_hops : Fin 8) (_total : Word), s.mode ≠ mRESET ∧ s.boot.rx = some x ∧ s.hdlMay = false) ∧
    (∃ (s : State) (_hops : Fin 8) (total : Word), s.mode ≠ mRESET ∧ s.boot.rx = none ∧ (s.hdlMay = false ∨ s.boot.writing ≠ none ∨ ¬ (272 ≤ total.toNat ∧ total.toNat ≤ 2 ^ 23) ∨ s.localSize < s.stageBase + 2 ^ 23)) ∧
    (∃ (s : State) (_hops : Fin 8) (total : Word), s.mode ≠ mRESET ∧ s.hdlMay = true ∧ s.boot.rx = none ∧ s.boot.writing = none ∧ (272 ≤ total.toNat ∧ total.toNat ≤ 2 ^ 23) ∧ s.stageBase + 2 ^ 23 ≤ s.localSize) ∧
    (∃ (s : State) (x : HdlRx) (q : BitVec 16) (ofs : Word) (payload : List Byte), s.boot.rx = some x ∧ s.hdlMay = true ∧ q.toNat = x.seq ∧ x.ended = false ∧ s.mgmtWaits s.stageBase = false ∧ ofs.toNat = x.got ∧ payload.length = min 4096 (x.total - x.got) ∧ payload.length ≠ 0) ∧
    (∃ (s : State) (x : HdlRx) (q : BitVec 16) (ofs : Word) (payload : List Byte) (y : HdlTx), s.boot.rx = some x ∧ s.hdlMay = true ∧ q.toNat = x.seq ∧ x.ended = false ∧ s.mgmtWaits s.stageBase = false ∧ ofs.toNat = x.got ∧ payload.length = min 4096 (x.total - x.got) ∧ payload.length ≠ 0 ∧ s.boot.tx = some y ∧ y.relay = true ∧ y.stage = x.stage ∧ y.total = x.total ∧ y.next = x.seq ∧ y.next < y.base + 4 ∧ x.got = 4096 * (x.seq - 1) ∧ 1 ≤ x.seq ∧ s.memState = 2 ∧ s.on F.MEM_STATUS_INIT_BUSY = false ∧ s.on F.MEM_TRN_CTRL_BUSY = false ∧ s.sys.dramStopped = false ∧ s.mem.cond = [] ∧ x.stage + x.total ≤ s.localSize ∧ s.localSize ≤ 2 ^ 36) ∧
    (∃ (s : State) (x : HdlRx) (q : BitVec 16) (ofs : Word) (payload : List Byte), s.boot.rx = some x ∧ s.hdlMay = true ∧ q.toNat = x.seq ∧ x.ended = false ∧ s.mgmtWaits s.stageBase = false ∧ (ofs.toNat ≠ x.got ∨ payload.length ≠ min 4096 (x.total - x.got) ∨ payload.length = 0)) ∧
    (∃ (s : State) (x : HdlRx) (q : BitVec 16) (_ofs : Word) (_payload : List Byte) (nb : Bool), s.boot.rx = some x ∧ s.hdlMay = true ∧ (nb = false ∨ (s.mgmtWaits s.stageBase = false ∧ (x.ended = true ∨ q.toNat ≠ x.seq)))) ∧
    (∃ (s : State) (x : HdlRx) (_q : BitVec 16) (_ofs : Word) (_payload : List Byte) (_nb : Bool), s.boot.rx = some x ∧ s.hdlMay = false) ∧
    (∃ (s : State) (x : HdlRx) (q : BitVec 16) (_u : Nat), s.boot.rx = some x ∧ s.hdlMay = true ∧ q.toNat = x.seq ∧ x.ended = false ∧ s.mgmtWaits s.stageBase = false ∧ x.got ≠ x.total) ∧
    (∃ (s : State) (x : HdlRx) (q : BitVec 16) (_u : Nat), s.boot.rx = some x ∧ s.hdlMay = true ∧ q.toNat = x.seq ∧ x.ended = false ∧ s.mgmtWaits s.stageBase = false ∧ x.got = x.total) ∧
    (∃ (s : State) (x : HdlRx) (_q : BitVec 16) (_ofs : Word) (_payload : List Byte) (_u : Nat), s.boot.rx = some x ∧ s.hdlMay = true ∧ s.mgmtWaits s.stageBase = true) ∧
    (∃ (s : State) (_nb : Bool) (_q : BitVec 16) (_ofs : Word) (_payload : List Byte), s.boot.rx = none) ∧
    (∃ (s : State) (x : HdlTx) (q : BitVec 16), s.boot.tx = some x ∧ x.base ≤ q.toNat ∧ q.toNat < x.next) ∧
    (∃ (s : State) (x : HdlTx) (q : BitVec 16), s.boot.tx = some x ∧ x.base ≤ q.toNat ∧ q.toNat = x.next) ∧
    (∃ (s : State) (x : HdlTx) (q : BitVec 16), s.boot.tx = some x ∧ (q.toNat < x.base ∨ x.next ≤ q.toNat)) ∧
    (∃ (s : State) (x : HdlTx) (q : BitVec 16), s.boot.tx = some x ∧ (q.toNat < x.base ∨ x.next < q.toNat)) ∧
    (∃ (s : State) (x : HdlTx), s.boot.tx = some x ∧ x.base < x.next) ∧
    (∃ (s : State) (x : HdlTx), s.boot.tx = some x) ∧
    (∃ (s : State) (_q : BitVec 16), s.boot.tx = none) ∧
    (∃ (s : State) (x : HdlRx), s.boot.rx = some x) ∧
    (∃ (s : State) (_h : Byte) (_result : Byte), s.mode ≠ mRESET) ∧
    (∃ (s : State), s.boot.autoStart = true ∧ s.boot.tx = none ∧ s.flashBusy = false ∧ s.mode ≠ mRESET) ∧
    (∃ (s : State), (s.boot.autoStart = false ∨ s.boot.tx ≠ none ∨ s.flashBusy = true ∨ s.mode = mRESET)) ∧
    (∃ (s : State) (_hops : Fin 8) (_total : Word) (_nb : Bool), s.mode = mRESET) :=
  ⟨⟨(fun (s : State) => let s : State := { s with sys := { s.sys with pfLow := false }, boot := { s.boot with tx := none, checked := 300 } }; ((s.ready 2)|>.put F.BOOT_STATUS_SESSION true)) State.reset, by decide +kernel⟩,
    ⟨(fun (s : State) => let s : State := { s with sys := { s.sys with pfLow := false }, boot := { s.boot with checked := 0 } }; ((s.ready 2))) State.reset, by decide +kernel⟩,
    ⟨(fun (s : State) (u : Nat) => let s : State := { s with sys := { s.sys with pfLow := false }, boot := { s.boot with upd := { s.boot.upd with state := u % 3 } } }; ((s.ready 2)|>.put F.SYS_MODE_BOOT_DONE true)) State.reset 5, 5, by decide +kernel⟩,
    ⟨(fun (s : State) (hops : Fin 8) (u : Nat) => let s : State := { s with sys := { s.sys with pfLow := false }, boot := { s.boot with upd := { s.boot.upd with state := u % 3 } } }; ((s.ready 2)|>.put F.SYS_MODE_BOOT_DONE true)) State.reset 3 5, 3, 5, by decide +kernel⟩,
    ⟨(fun (s : State) (hops : Fin 8) (total : Word) => let s : State := { s with sys := { s.sys with pfLow := false }, boot := { s.boot with rx := none } }; ((s.ready 2))) State.reset 3 5, 3, 5, by decide +kernel⟩,
    ⟨(fun (s : State) (x : HdlRx) (good : Bool) (hops : Fin 8) (total : Word) => let s : State := { s with mem := { s.mem with dram := [], cond := [], lost := [] } }; let s : State := { s with sys := { s.sys with pfLow := false }, boot := { s.boot with rx := some x, hdlUp := [], hdlDn := [] } }; ((s.ready 2)|>.put F.SYS_MODE_BOOT_DONE true |>.put F.BOOT_HDL_CFG_ACCEPT true |>.put F.BOOT_STATUS_SESSION false|>.wr F.MEM_SIZE_MIB 64 |>.wr F.BOOT_STAGE_BASE_HI_BASE 0 |>.wr F.BOOT_STAGE_BASE_LO_BASE 1)) State.reset (HdlRx.mk 0x800000 300 0 1 0 false) true 3 5, HdlRx.mk 0x800000 300 0 1 0 false, true, 3, 5, by decide +kernel⟩,
    ⟨(fun (s : State) (x : HdlRx) (good : Bool) (hops : Fin 8) (total : Word) => let s : State := { s with mem := { s.mem with dram := [], cond := [], lost := [] } }; let s : State := { s with sys := { s.sys with pfLow := false }, boot := { s.boot with rx := some x, hdlUp := [], hdlDn := [] } }; ((s.ready 2)|>.put F.SYS_MODE_BOOT_DONE true |>.put F.BOOT_HDL_CFG_ACCEPT true |>.put F.BOOT_STATUS_SESSION false|>.wr F.MEM_SIZE_MIB 64 |>.wr F.BOOT_STAGE_BASE_HI_BASE 0 |>.wr F.BOOT_STAGE_BASE_LO_BASE 1|>.put F.BOOT_HDL_CFG_ACCEPT false)) State.reset (HdlRx.mk 0x800000 300 0 1 0 false) true 3 5, HdlRx.mk 0x800000 300 0 1 0 false, true, 3, 5, by decide +kernel⟩,
    ⟨(fun (s : State) (hops : Fin 8) (total : Word) => let s : State := { s with sys := { s.sys with pfLow := false }, boot := { s.boot with rx := none, writing := none } }; ((s.ready 2)|>.put F.SYS_MODE_BOOT_DONE true |>.put F.BOOT_HDL_CFG_ACCEPT true |>.put F.BOOT_STATUS_SESSION false|>.wr F.MEM_SIZE_MIB 64 |>.wr F.BOOT_STAGE_BASE_HI_BASE 0 |>.wr F.BOOT_STAGE_BASE_LO_BASE 1|>.put F.BOOT_HDL_CFG_ACCEPT false)) State.reset 3 5, 3, 5, by decide +kernel⟩,
    ⟨(fun (s : State) (hops : Fin 8) (total : Word) => let s : State := { s with sys := { s.sys with pfLow := false }, boot := { s.boot with rx := none, writing := none, tx := if hops.val % 2 = 0 then none else s.boot.tx } }; ((s.ready 2)|>.put F.SYS_MODE_BOOT_DONE true |>.put F.BOOT_HDL_CFG_ACCEPT true |>.put F.BOOT_STATUS_SESSION false|>.wr F.MEM_SIZE_MIB 64 |>.wr F.BOOT_STAGE_BASE_HI_BASE 0 |>.wr F.BOOT_STAGE_BASE_LO_BASE 1|>.put F.BOOT_HDL_CFG_RELAY true)) State.reset 3 300, 3, 300, by decide +kernel⟩,
    ⟨(fun (s : State) (x : HdlRx) (q : BitVec 16) (ofs : Word) (payload : List Byte) => let s : State := { s with mem := { s.mem with dram := [], cond := [], lost := [] } }; let s : State := { s with sys := { s.sys with pfLow := false }, boot := { s.boot with rx := some x, hdlUp := [], hdlDn := [], tx := none } }; ((s.ready 2)|>.put F.SYS_MODE_BOOT_DONE true |>.put F.BOOT_HDL_CFG_ACCEPT true |>.put F.BOOT_STATUS_SESSION false|>.wr F.MEM_SIZE_MIB 64 |>.wr F.BOOT_STAGE_BASE_HI_BASE 0 |>.wr F.BOOT_STAGE_BASE_LO_BASE 1)) State.reset (HdlRx.mk 0x800000 300 0 1 0 false) 1 0 (List.replicate 300 7), HdlRx.mk 0x800000 300 0 1 0 false, 1, 0, List.replicate 300 7, by decide +kernel⟩,
    ⟨(fun (s : State) (x : HdlRx) (q : BitVec 16) (ofs : Word) (payload : List Byte) (y : HdlTx) => let s : State := { s with mem := { s.mem with dram := [], cond := [], lost := [] } }; let s : State := { s with sys := { s.sys with pfLow := false, dramStopped := false }, boot := { s.boot with rx := some x, hdlUp := [], hdlDn := [], tx := some y } }; ((s.ready 2)|>.put F.SYS_MODE_BOOT_DONE true |>.put F.BOOT_HDL_CFG_ACCEPT true |>.put F.BOOT_STATUS_SESSION false|>.wr F.MEM_SIZE_MIB 64 |>.wr F.BOOT_STAGE_BASE_HI_BASE 0 |>.wr F.BOOT_STAGE_BASE_LO_BASE 1|>.wr F.MEM_STATUS_STATE 2 |>.put F.MEM_STATUS_INIT_BUSY false |>.put F.MEM_TRN_CTRL_BUSY false)) State.reset (HdlRx.mk 0x800000 300 0 1 0 false) 1 0 (List.replicate 300 7) (HdlTx.mk 0x800000 300 0 1 0 true 1 []), HdlRx.mk 0x800000 300 0 1 0 false, 1, 0, List.replicate 300 7, HdlTx.mk 0x800000 300 0 1 0 true 1 [], by decide +kernel⟩,
    ⟨(fun (s : State) (x : HdlRx) (q : BitVec 16) (ofs : Word) (payload : List Byte) => let s : State := { s with mem := { s.mem with dram := [], cond := [], lost := [] } }; let s : State := { s with sys := { s.sys with pfLow := false }, boot := { s.boot with rx := some x, hdlUp := [], hdlDn := [] } }; ((s.ready 2)|>.put F.SYS_MODE_BOOT_DONE true |>.put F.BOOT_HDL_CFG_ACCEPT true |>.put F.BOOT_STATUS_SESSION false|>.wr F.MEM_SIZE_MIB 64 |>.wr F.BOOT_STAGE_BASE_HI_BASE 0 |>.wr F.BOOT_STAGE_BASE_LO_BASE 1)) State.reset (HdlRx.mk 0x800000 300 0 1 0 false) 1 0 (List.replicate 20 7), HdlRx.mk 0x800000 300 0 1 0 false, 1, 0, List.replicate 20 7, by decide +kernel⟩,
    ⟨(fun (s : State) (x : HdlRx) (q : BitVec 16) (ofs : Word) (payload : List Byte) (nb : Bool) => let s : State := { s with mem := { s.mem with dram := [], cond := [], lost := [] } }; let s : State := { s with sys := { s.sys with pfLow := false }, boot := { s.boot with rx := some x, hdlUp := [], hdlDn := [] } }; ((s.ready 2)|>.put F.SYS_MODE_BOOT_DONE true |>.put F.BOOT_HDL_CFG_ACCEPT true |>.put F.BOOT_STATUS_SESSION false|>.wr F.MEM_SIZE_MIB 64 |>.wr F.BOOT_STAGE_BASE_HI_BASE 0 |>.wr F.BOOT_STAGE_BASE_LO_BASE 1)) State.reset (HdlRx.mk 0x800000 300 0 1 0 false) 2 0 (List.replicate 20 7) true, HdlRx.mk 0x800000 300 0 1 0 false, 2, 0, List.replicate 20 7, true, by decide +kernel⟩,
    ⟨(fun (s : State) (x : HdlRx) (q : BitVec 16) (ofs : Word) (payload : List Byte) (nb : Bool) => let s : State := { s with mem := { s.mem with dram := [], cond := [], lost := [] } }; let s : State := { s with sys := { s.sys with pfLow := false }, boot := { s.boot with rx := some x, hdlUp := [], hdlDn := [] } }; ((s.ready 2)|>.put F.SYS_MODE_BOOT_DONE true |>.put F.BOOT_HDL_CFG_ACCEPT true |>.put F.BOOT_STATUS_SESSION false|>.wr F.MEM_SIZE_MIB 64 |>.wr F.BOOT_STAGE_BASE_HI_BASE 0 |>.wr F.BOOT_STAGE_BASE_LO_BASE 1|>.put F.BOOT_HDL_CFG_ACCEPT false)) State.reset (HdlRx.mk 0x800000 300 0 1 0 false) 2 0 (List.replicate 20 7) true, HdlRx.mk 0x800000 300 0 1 0 false, 2, 0, List.replicate 20 7, true, by decide +kernel⟩,
    ⟨(fun (s : State) (x : HdlRx) (q : BitVec 16) (u : Nat) => let s : State := { s with mem := { s.mem with dram := [], cond := [], lost := [] } }; let s : State := { s with sys := { s.sys with pfLow := false }, boot := { s.boot with rx := some x, hdlUp := [], hdlDn := [] } }; ((s.ready 2)|>.put F.SYS_MODE_BOOT_DONE true |>.put F.BOOT_HDL_CFG_ACCEPT true |>.put F.BOOT_STATUS_SESSION false|>.wr F.MEM_SIZE_MIB 64 |>.wr F.BOOT_STAGE_BASE_HI_BASE 0 |>.wr F.BOOT_STAGE_BASE_LO_BASE 1)) State.reset (HdlRx.mk 0x800000 300 0 1 0 false) 1 1000, HdlRx.mk 0x800000 300 0 1 0 false, 1, 1000, by decide +kernel⟩,
    ⟨(fun (s : State) (x : HdlRx) (q : BitVec 16) (u : Nat) => let s : State := { s with mem := { s.mem with dram := [], cond := [], lost := [] } }; let s : State := { s with sys := { s.sys with pfLow := false }, boot := { s.boot with rx := some x, hdlUp := [], hdlDn := [] } }; ((s.ready 2)|>.put F.SYS_MODE_BOOT_DONE true |>.put F.BOOT_HDL_CFG_ACCEPT true |>.put F.BOOT_STATUS_SESSION false|>.wr F.MEM_SIZE_MIB 64 |>.wr F.BOOT_STAGE_BASE_HI_BASE 0 |>.wr F.BOOT_STAGE_BASE_LO_BASE 1)) State.reset (HdlRx.mk 0x800000 0 0 1 0 false) 1 1000, HdlRx.mk 0x800000 0 0 1 0 false, 1, 1000, by decide +kernel⟩,
    ⟨(fun (s : State) (x : HdlRx) (q : BitVec 16) (ofs : Word) (payload : List Byte) (u : Nat) => let s : State := { s with mem := { s.mem with dram := [], cond := [], lost := [] } }; let s : State := { s with sys := { s.sys with pfLow := false }, boot := { s.boot with rx := some x, hdlUp := [], hdlDn := [] } }; ((s.ready 2)|>.put F.SYS_MODE_BOOT_DONE true |>.put F.BOOT_HDL_CFG_ACCEPT true |>.put F.BOOT_STATUS_SESSION false|>.wr F.MEM_SIZE_MIB 64 |>.wr F.BOOT_STAGE_BASE_HI_BASE 0 |>.wr F.BOOT_STAGE_BASE_LO_BASE 1|>.wr F.MEM_STATUS_STATE (3 + u % 3))) State.reset (HdlRx.mk 0x800000 300 0 1 0 false) 2 0 (List.replicate 20 7) 1000, HdlRx.mk 0x800000 300 0 1 0 false, 2, 0, List.replicate 20 7, 1000, by decide +kernel⟩,
    ⟨(fun (s : State) (nb : Bool) (q : BitVec 16) (ofs : Word) (payload : List Byte) => let s : State := { s with sys := { s.sys with pfLow := false }, boot := { s.boot with rx := none } }; ((s.ready 2))) State.reset true 3 4 [1], true, 3, 4, [1], by decide +kernel⟩,
    ⟨(fun (s : State) (x : HdlTx) (q : BitVec 16) => let s : State := { s with sys := { s.sys with pfLow := false }, boot := { s.boot with tx := some x } }; ((s.ready 2))) State.reset (HdlTx.mk 0x800000 9000 1 3 2 false 0 []) 1, HdlTx.mk 0x800000 9000 1 3 2 false 0 [], 1, by decide +kernel⟩,
    ⟨(fun (s : State) (x : HdlTx) (q : BitVec 16) => let s : State := { s with sys := { s.sys with pfLow := false }, boot := { s.boot with tx := some x } }; ((s.ready 2))) State.reset (HdlTx.mk 0x800000 9000 1 3 2 false 0 []) 3, HdlTx.mk 0x800000 9000 1 3 2 false 0 [], 3, by decide +kernel⟩,
    ⟨(fun (s : State) (x : HdlTx) (q : BitVec 16) => let s : State := { s with sys := { s.sys with pfLow := false }, boot := { s.boot with tx := some x } }; ((s.ready 2))) State.reset (HdlTx.mk 0x800000 9000 1 3 2 false 0 []) 9, HdlTx.mk 0x800000 9000 1 3 2 false 0 [], 9, by decide +kernel⟩,
    ⟨(fun (s : State) (x : HdlTx) (q : BitVec 16) => let s : State := { s with sys := { s.sys with pfLow := false }, boot := { s.boot with tx := some x } }; ((s.ready 2))) State.reset (HdlTx.mk 0x800000 9000 1 3 2 false 0 []) 9, HdlTx.mk 0x800000 9000 1 3 2 false 0 [], 9, by decide +kernel⟩,
    ⟨(fun (s : State) (x : HdlTx) => let s : State := { s with sys := { s.sys with pfLow := false }, boot := { s.boot with tx := some x } }; ((s.ready 2))) State.reset (HdlTx.mk 0x800000 9000 1 3 2 false 0 []), HdlTx.mk 0x800000 9000 1 3 2 false 0 [], by decide +kernel⟩,
    ⟨(fun (s : State) (x : HdlTx) => let s : State := { s with sys := { s.sys with pfLow := false }, boot := { s.boot with tx := some x } }; ((s.ready 2))) State.reset (HdlTx.mk 0x800000 9000 1 3 2 false 0 []), HdlTx.mk 0x800000 9000 1 3 2 false 0 [], by decide +kernel⟩,
    ⟨(fun (s : State) (q : BitVec 16) => let s : State := { s with sys := { s.sys with pfLow := false }, boot := { s.boot with tx := none } }; ((s.ready 2))) State.reset 3, 3, by decide +kernel⟩,
    ⟨(fun (s : State) (x : HdlRx) => let s : State := { s with mem := { s.mem with dram := [], cond := [], lost := [] } }; let s : State := { s with sys := { s.sys with pfLow := false }, boot := { s.boot with rx := some x, hdlUp := [], hdlDn := [] } }; ((s.ready 2)|>.put F.SYS_MODE_BOOT_DONE true |>.put F.BOOT_HDL_CFG_ACCEPT true |>.put F.BOOT_STATUS_SESSION false|>.wr F.MEM_SIZE_MIB 64 |>.wr F.BOOT_STAGE_BASE_HI_BASE 0 |>.wr F.BOOT_STAGE_BASE_LO_BASE 1)) State.reset (HdlRx.mk 0x800000 300 0 1 0 false), HdlRx.mk 0x800000 300 0 1 0 false, by decide +kernel⟩,
    ⟨(fun (s : State) (h : Byte) (result : Byte) => let s : State := { s with sys := { s.sys with pfLow := false }, boot := { s.boot with sent := true } }; ((s.ready 2))) State.reset 7 9, 7, 9, by decide +kernel⟩,
    ⟨(fun (s : State) => let s : State := { s with sys := { s.sys with pfLow := false }, boot := { s.boot with autoStart := true, tx := none, rx := none, writing := none, saving := none } }; ((s.ready 2)|>.put F.CAL_STATUS_JRN_BUSY false)) State.reset, by decide +kernel⟩,
    ⟨(fun (s : State) => let s : State := { s with sys := { s.sys with pfLow := false }, boot := { s.boot with autoStart := false } }; ((s.ready 2))) State.reset, by decide +kernel⟩,
    ⟨(fun (s : State) (hops : Fin 8) (total : Word) (nb : Bool) => (s.ready 0)) State.reset 3 5 true, 3, 5, true, by decide +kernel⟩⟩

/-- States and operands that meet the hypotheses of each clause of EventsCountersTraceAndJtag. -/
theorem witness_EventsCountersTraceAndJtag :
    (∃ (s : State) (e : Fin 512) (w : Word) (rest : List (Nat × Word)) (_u : Nat), s.raises = (e.val, w) :: rest) ∧
    (∃ (s : State) (e : Nat) (w : Word) (rest : List (Nat × Word)) (_u : Nat), s.raises = (e, w) :: rest) ∧
    (∃ (s : State) (_u : Nat), s.raises = []) ∧
    (∃ (s : State) (_i : Fin 16) (_w : Word), s.mode ≠ mRESET) ∧
    (∃ (s : State) (_e : Fin 512), s.mode ≠ mRESET) ∧
    (∃ (s : State) (_k : Fin 1024) (_w : Word), s.mode ≠ mRESET) ∧
    (∃ (s : State) (_k : Fin 1024), s.mode ≠ mRESET) ∧
    (∃ (s : State) (_u : Nat), s.mode ≠ mRESET) ∧
    (∃ (s : State) (_u : Nat), s.mode ≠ mRESET ∧ s.on F.OBS_STATUS_SNAP_BUSY = false) ∧
    (∃ (s : State) (_u : Nat), s.mode ≠ mRESET ∧ s.on F.OBS_STATUS_SNAP_BUSY = true) ∧
    (∃ (s : State) (_u : Nat), s.mode ≠ mRESET ∧ s.rd F.OBS_SNAP_CFG_TRIG = 1 ∧ s.on F.OBS_STATUS_SNAP_BUSY = false) ∧
    (∃ (s : State) (_u : Nat), s.mode ≠ mRESET ∧ s.rd F.OBS_SNAP_CFG_TRIG = 1 ∧ s.on F.OBS_STATUS_SNAP_BUSY = true) ∧
    (∃ (s : State) (_u : Nat), (s.mode = mRESET ∨ s.rd F.OBS_SNAP_CFG_TRIG ≠ 1)) ∧
    (∃ (s : State), s.on F.OBS_STATUS_SNAP_BUSY = true) ∧
    (∃ (s : State), s.on F.OBS_STATUS_SNAP_BUSY = false) ∧
    (∃ (s : State) (n : Fin 192) (_pc : BitVec 15) (_word : Word) (_cyc : Word) (_wait : Nat) (_lat : Nat), s.on (F.TIL_CFG_SAMPLE_EN n) = true ∧ (s.tiller n).sampleLeft = 0 ∧ s.tilHeld = false) ∧
    (∃ (s : State) (n : Fin 192) (_pc : BitVec 15) (_word : Word) (_cyc : Word) (_wait : Nat) (_lat : Nat), (s.on (F.TIL_CFG_SAMPLE_EN n) = false ∨ (s.tiller n).sampleLeft ≠ 0 ∨ s.tilHeld = true)) ∧
    (∃ (s : State) (b : List Byte) (x : Stream) (rest : List (Stream × List Byte)), s.obs.queue = (x, b) :: rest ∧ s.route x = 1 ∧ (s.on F.OBS_TRC_CFG_WRAP = false ∧ (s.on F.OBS_STATUS_FULL = true ∨ s.obs.atEnd = true ∨ 65536 < s.rd F.OBS_TRC_WPTR_OFS + b.length))) ∧
    (∃ (s : State) (b : List Byte) (x : Stream) (rest : List (Stream × List Byte)), s.obs.queue = (x, b) :: rest ∧ s.route x = 1 ∧ (¬ (s.on F.OBS_TRC_CFG_WRAP = false ∧ (s.on F.OBS_STATUS_FULL = true ∨ s.obs.atEnd = true ∨ 65536 < s.rd F.OBS_TRC_WPTR_OFS + b.length))) ∧ b.length ≤ 4096) ∧
    (∃ (s : State) (b : List Byte) (x : Stream) (rest : List (Stream × List Byte)), s.obs.queue = (x, b) :: rest ∧ s.route x = 2 ∧ (s.memReady = true ∨ s.memState = 0) ∧ s.engineTurn 5 = true ∧ ringPlace s.trcSize (s.rd F.OBS_TRC_RING_WPTR_OFS) (s.rd F.OBS_TRC_RING_RPTR_OFS) 16 b.length = none) ∧
    (∃ (s : State) (b : List Byte) (x : Stream) (rest : List (Stream × List Byte)) (o : Nat), s.obs.queue = (x, b) :: rest ∧ s.route x = 2 ∧ s.memReady = true ∧ s.engineTurn 5 = true ∧ ringPlace s.trcSize (s.rd F.OBS_TRC_RING_WPTR_OFS) (s.rd F.OBS_TRC_RING_RPTR_OFS) 16 b.length = some (o, false) ∧ b.length ≤ 64 ∧ s.trcBase + s.trcSize ≤ s.localSize ∧ s.localSize ≤ 2 ^ 36) ∧
    (∃ (s : State) (b : List Byte) (x : Stream) (rest : List (Stream × List Byte)), s.obs.queue = (x, b) :: rest) ∧
    (∃ (s : State) (b : List Byte) (x : Stream) (rest : List (Stream × List Byte)), s.obs.queue = (x, b) :: rest ∧ s.route x = 2 ∧ s.memReady = false ∧ s.memState ≠ 0 ∧ (s.memState ≠ 3 ∨ Tab.get (fun _ => 0) s.mem.drain 5 = 0)) ∧
    (∃ (s : State) (b : List Byte) (x : Stream) (rest : List (Stream × List Byte)), s.obs.queue = (x, b) :: rest ∧ s.route x ≠ 1 ∧ s.route x ≠ 2) ∧
    (∃ (s : State), s.obs.queue = []) :=
  ⟨⟨(fun (s : State) (e : Fin 512) (w : Word) (rest : List (Nat × Word)) (u : Nat) => let s : State := { s with raises := (e.val, w) :: rest }; s) State.reset 2 7 [] 1000, 2, 7, [], 1000, by decide +kernel⟩,
    ⟨(fun (s : State) (e : Nat) (w : Word) (rest : List (Nat × Word)) (u : Nat) => let s : State := { s with raises := (e, w) :: rest }; s) State.reset 2 7 [] 1000, 2, 7, [], 1000, by decide +kernel⟩,
    ⟨(fun (s : State) (u : Nat) => let s : State := { s with raises := [] }; s) State.reset 5, 5, by decide +kernel⟩,
    ⟨(fun (s : State) (i : Fin 16) (w : Word) => (s.ready 2)) State.reset 3 7, 3, 7, by decide +kernel⟩,
    ⟨(fun (s : State) (e : Fin 512) => (s.ready 2)) State.reset 3, 3, by decide +kernel⟩,
    ⟨(fun (s : State) (k : Fin 1024) (w : Word) => (s.ready 2)) State.reset 3 7, 3, 7, by decide +kernel⟩,
    ⟨(fun (s : State) (k : Fin 1024) => (s.ready 2)) State.reset 3, 3, by decide +kernel⟩,
    ⟨(fun (s : State) (u : Nat) => (s.ready 2)) State.reset 5, 5, by decide +kernel⟩,
    ⟨(fun (s : State) (u : Nat) => ((s.ready 2)|>.put F.OBS_STATUS_SNAP_BUSY false)) State.reset 5, 5, by decide +kernel⟩,
    ⟨(fun (s : State) (u : Nat) => ((s.ready 2)|>.put F.OBS_STATUS_SNAP_BUSY true)) State.reset 5, 5, by decide +kernel⟩,
    ⟨(fun (s : State) (u : Nat) => ((s.ready 2)|>.wr F.OBS_SNAP_CFG_TRIG 1 |>.put F.OBS_STATUS_SNAP_BUSY false)) State.reset 5, 5, by decide +kernel⟩,
    ⟨(fun (s : State) (u : Nat) => ((s.ready 2)|>.wr F.OBS_SNAP_CFG_TRIG 1 |>.put F.OBS_STATUS_SNAP_BUSY true)) State.reset 5, 5, by decide +kernel⟩,
    ⟨(fun (s : State) (u : Nat) => ((s.ready 2)|>.wr F.OBS_SNAP_CFG_TRIG 0)) State.reset 5, 5, by decide +kernel⟩,
    ⟨(fun (s : State) => let s : State := { s with obs := { s.obs with snapCnt := [(3, 7), (1024, 5), (3, s.freeIx), (9, 2 ^ 40 + 1)] } }; ((s.ready 2)|>.put F.OBS_STATUS_SNAP_BUSY true)) State.reset, by decide +kernel⟩,
    ⟨(fun (s : State) => ((s.ready 2)|>.put F.OBS_STATUS_SNAP_BUSY false)) State.reset, by decide +kernel⟩,
    ⟨(fun (s : State) (n : Fin 192) (pc : BitVec 15) (word : Word) (cyc : Word) (wait : Nat) (lat : Nat) => (((s.ready 2)|>.put (F.TIL_CFG_SAMPLE_EN n) true).onTiller n fun x => { x with sampleLeft := 0 })) State.reset 3 4 5 6 7 8, 3, 4, 5, 6, 7, 8, by decide +kernel⟩,
    ⟨(fun (s : State) (n : Fin 192) (pc : BitVec 15) (word : Word) (cyc : Word) (wait : Nat) (lat : Nat) => (s.ready 2)) State.reset 3 4 5 6 7 8, 3, 4, 5, 6, 7, 8, by decide +kernel⟩,
    ⟨(fun (s : State) (b : List Byte) (x : Stream) (rest : List (Stream × List Byte)) => let s : State := { s with obs := { s.obs with queue := (x, b) :: rest } }; let s : State := { s with sys := { s.sys with dramStopped := false } }; ((s.ready 2)|>.wr F.OBS_TRC_ROUTE_SMP 1 |>.wr F.OBS_TRC_ROUTE_EVT 1 |>.wr F.OBS_TRC_ROUTE_SNAP 1|>.put F.OBS_STATUS_FULL true |>.put F.OBS_TRC_CFG_WRAP false)) State.reset (bytesOf 4 7) Stream.evt [], bytesOf 4 7, Stream.evt, [], by decide +kernel⟩,
    ⟨(fun (s : State) (b : List Byte) (x : Stream) (rest : List (Stream × List Byte)) => let s : State := { s with obs := { s.obs with queue := (x, b) :: rest, atEnd := false } }; let s : State := { s with sys := { s.sys with dramStopped := false } }; ((s.ready 2)|>.wr F.OBS_TRC_ROUTE_SMP 1 |>.wr F.OBS_TRC_ROUTE_EVT 1 |>.wr F.OBS_TRC_ROUTE_SNAP 1|>.put F.OBS_STATUS_FULL false |>.wr F.OBS_TRC_WPTR_OFS (64 * b.length))) State.reset (bytesOf 4 7) Stream.evt [], bytesOf 4 7, Stream.evt, [], by decide +kernel⟩,
    ⟨(fun (s : State) (b : List Byte) (x : Stream) (rest : List (Stream × List Byte)) => let s : State := { s with obs := { s.obs with queue := (x, b) :: rest } }; let s : State := { s with sys := { s.sys with dramStopped := false } }; ((s.ready 2)|>.wr F.OBS_TRC_ROUTE_SMP 2 |>.wr F.OBS_TRC_ROUTE_EVT 2 |>.wr F.OBS_TRC_ROUTE_SNAP 2|>.wr F.MEM_STATUS_STATE 2 |>.put F.MEM_STATUS_INIT_BUSY false |>.put F.MEM_TRN_CTRL_BUSY false |>.wr F.MEM_SIZE_MIB 2048 |>.wr F.OBS_TRC_BASE_HI_BASE 0 |>.wr F.OBS_TRC_BASE_LO_BASE 16 |>.wr F.OBS_TRC_SIZE_SIZE 1|>.wr F.OBS_TRC_RING_WPTR_OFS 0 |>.wr F.OBS_TRC_RING_RPTR_OFS 16)) State.reset (bytesOf 4 7) Stream.evt [], bytesOf 4 7, Stream.evt, [], by decide +kernel⟩,
    ⟨(fun (s : State) (b : List Byte) (x : Stream) (rest : List (Stream × List Byte)) (o : Nat) => let s : State := { s with obs := { s.obs with queue := (x, b) :: rest } }; let s : State := { s with sys := { s.sys with dramStopped := false } }; ((s.ready 2)|>.wr F.OBS_TRC_ROUTE_SMP 2 |>.wr F.OBS_TRC_ROUTE_EVT 2 |>.wr F.OBS_TRC_ROUTE_SNAP 2|>.wr F.MEM_STATUS_STATE 2 |>.put F.MEM_STATUS_INIT_BUSY false |>.put F.MEM_TRN_CTRL_BUSY false |>.wr F.MEM_SIZE_MIB 2048 |>.wr F.OBS_TRC_BASE_HI_BASE 0 |>.wr F.OBS_TRC_BASE_LO_BASE 16 |>.wr F.OBS_TRC_SIZE_SIZE 1|>.wr F.OBS_TRC_RING_WPTR_OFS 0x40 |>.wr F.OBS_TRC_RING_RPTR_OFS 0x40)) State.reset (bytesOf 4 7) Stream.evt [] 0x40, bytesOf 4 7, Stream.evt, [], 0x40, by decide +kernel⟩,
    ⟨(fun (s : State) (b : List Byte) (x : Stream) (rest : List (Stream × List Byte)) => let s : State := { s with obs := { s.obs with queue := (x, b) :: rest } }; let s : State := { s with sys := { s.sys with dramStopped := false } }; ((s.ready 2)|>.wr F.OBS_TRC_ROUTE_SMP (1 + s.freeIx % 2) |>.wr F.OBS_TRC_ROUTE_EVT (1 + s.freeIx % 2) |>.wr F.OBS_TRC_ROUTE_SNAP (1 + s.freeIx % 2)|>.wr F.MEM_STATUS_STATE 2 |>.put F.MEM_STATUS_INIT_BUSY false |>.put F.MEM_TRN_CTRL_BUSY false |>.wr F.MEM_SIZE_MIB 2048 |>.wr F.OBS_TRC_BASE_HI_BASE 0 |>.wr F.OBS_TRC_BASE_LO_BASE 16 |>.wr F.OBS_TRC_SIZE_SIZE 1|>.wr F.OBS_TRC_RING_WPTR_OFS 0xFFFF0 |>.wr F.OBS_TRC_RING_RPTR_OFS 0x40)) State.reset (bytesOf 4 7) Stream.evt [], bytesOf 4 7, Stream.evt, [], by decide +kernel⟩,
    ⟨(fun (s : State) (b : List Byte) (x : Stream) (rest : List (Stream × List Byte)) => let s : State := { s with obs := { s.obs with queue := (x, b) :: rest } }; let s : State := { s with sys := { s.sys with dramStopped := false } }; ((s.ready 2)|>.wr F.OBS_TRC_ROUTE_SMP 2 |>.wr F.OBS_TRC_ROUTE_EVT 2 |>.wr F.OBS_TRC_ROUTE_SNAP 2|>.wr F.MEM_STATUS_STATE 4)) State.reset (bytesOf 4 7) Stream.evt [], bytesOf 4 7, Stream.evt, [], by decide +kernel⟩,
    ⟨(fun (s : State) (b : List Byte) (x : Stream) (rest : List (Stream × List Byte)) => let s : State := { s with obs := { s.obs with queue := (x, b) :: rest } }; let s : State := { s with sys := { s.sys with dramStopped := false } }; ((s.ready 2)|>.wr F.OBS_TRC_ROUTE_SMP 0 |>.wr F.OBS_TRC_ROUTE_EVT 0 |>.wr F.OBS_TRC_ROUTE_SNAP 0)) State.reset (bytesOf 4 7) Stream.evt [], bytesOf 4 7, Stream.evt, [], by decide +kernel⟩,
    ⟨(fun (s : State) => let s : State := { s with obs := { s.obs with queue := [] } }; s) State.reset, by decide +kernel⟩⟩

/-- States and operands that meet the hypotheses of each clause of ResetEndModesAndRegisters. -/
theorem witness_ResetEndModesAndRegisters :
    (∃ (s : State) (recov : Bool) (_merId : Fin 8) (_u : Nat), s.mode = mRESET ∧ s.thm.tripHold = false ∧ s.sys.testEn = false ∧ s.latched = false ∧ recov = false) ∧
    (∃ (s : State) (recov : Bool) (_merId : Fin 8) (_u : Nat), s.mode = mRESET ∧ s.thm.tripHold = false ∧ s.sys.testEn = false ∧ s.latched = true ∧ recov = false) ∧
    (∃ (s : State) (recov : Bool) (_merId : Fin 8) (_u : Nat), s.mode = mRESET ∧ s.thm.tripHold = false ∧ s.sys.testEn = false ∧ recov = true) ∧
    (∃ (s : State) (_recov : Bool) (_merId : Fin 8) (_u : Nat), (s.mode ≠ mRESET ∨ s.thm.tripHold = true ∨ s.sys.testEn = true)) ∧
    (∃ (s : State) (_straps : Fin 64) (floats : Fin 64), floats ≠ 0 ∧ (s.mode = mRESET ∨ s.present 8 = false)) ∧
    (∃ (s : State) (_straps : Fin 64) (_floats : Fin 64), s.mode ≠ mRESET ∧ s.present 8 = true) ∧
    (∃ (s : State) (_straps : Fin 64) (floats : Fin 64), floats = 0 ∧ (s.mode = mRESET ∨ s.present 8 = false)) ∧
    (∃ (s : State) (m : Fin 4) (_tag : Byte), s.mode ≠ mRESET ∧ s.owns m = true ∧ s.rd F.SYS_MBOX_RESP_STATUS ≠ 1) ∧
    (∃ (s : State) (m : Fin 4) (_tag : Byte), s.mode ≠ mRESET ∧ s.owns m = true ∧ s.flashBusy = false) ∧
    (∃ (s : State) (m : Fin 4) (_tag : Byte), s.mode ≠ mRESET ∧ s.owns m = true ∧ s.flashBusy = true) ∧
    (∃ (s : State) (m : Fin 4) (_tag : Byte), s.mode ≠ mRESET ∧ s.owns m = true ∧ s.rd F.SYS_MBOX_RESP_STATUS ≠ 1 ∧ (s.mode = mRECOVERY ∨ s.sys.recovKept = true ∨ s.on F.BOOT_STATUS_CD_DUE = true)) ∧
    (∃ (s : State) (m : Fin 4) (_tag : Byte), s.mode ≠ mRESET ∧ s.owns m = true ∧ s.rd F.SYS_MBOX_RESP_STATUS ≠ 1 ∧ s.on F.BOOT_STATUS_CD_DUE = true) ∧
    (∃ (s : State) (m : Fin 4) (_tag : Byte), s.mode ≠ mRESET ∧ s.owns m = true ∧ s.rd F.SYS_MBOX_RESP_STATUS ≠ 1 ∧ s.mode = mRECOVERY ∧ s.on F.BOOT_STATUS_CD_DUE = false ∧ s.on F.SYS_MODE_STOPPING = false ∧ s.on F.BOOT_STATUS_SLOT_WRITE = false) ∧
    (∃ (s : State) (m : Fin 4) (_tag : Byte), s.mode ≠ mRESET ∧ s.owns m = true ∧ s.rd F.SYS_MBOX_RESP_STATUS ≠ 1 ∧ s.mode = mSAFESTOP ∧ s.sys.recovKept = false ∧ s.on F.BOOT_STATUS_CD_DUE = false) ∧
    (∃ (s : State) (m : Fin 4) (_tag : Byte), s.mode ≠ mRESET ∧ s.owns m = true ∧ s.rd F.SYS_MBOX_RESP_STATUS ≠ 1 ∧ s.mode = mSAFESTOP ∧ s.on F.BOOT_STATUS_CD_DUE = false) ∧
    (∃ (s : State) (m : Fin 4) (_tag : Byte), s.mode ≠ mRESET ∧ s.owns m = true ∧ s.rd F.SYS_MBOX_RESP_STATUS ≠ 1 ∧ s.mode ≠ mRECOVERY ∧ s.sys.recovKept = false ∧ s.on F.BOOT_STATUS_CD_DUE = false ∧ s.mode ≠ mSAFESTOP ∧ s.forcedCause ≠ 0) ∧
    (∃ (s : State) (m : Fin 4) (_tag : Byte), s.mode ≠ mRESET ∧ s.owns m = true ∧ s.rd F.SYS_MBOX_RESP_STATUS ≠ 1 ∧ s.mode ≠ mRECOVERY ∧ s.sys.recovKept = false ∧ s.on F.BOOT_STATUS_CD_DUE = false ∧ s.mode ≠ mSAFESTOP ∧ s.on F.SYS_MODE_STOPPING = true ∧ s.mode ≠ mSTANDBY) ∧
    (∃ (s : State) (m : Fin 4) (_tag : Byte), s.mode ≠ mRESET ∧ s.owns m = true ∧ s.rd F.SYS_MBOX_RESP_STATUS ≠ 1 ∧ s.on F.BOOT_STATUS_CD_DUE = false ∧ s.mode ≠ mSAFESTOP ∧ s.on F.SYS_MODE_STOPPING = true) ∧
    (∃ (s : State) (m : Fin 4) (_tag : Byte), s.mode ≠ mRESET ∧ s.owns m = true ∧ s.rd F.SYS_MBOX_RESP_STATUS ≠ 1 ∧ s.mode ≠ mRECOVERY ∧ s.sys.recovKept = false ∧ s.on F.BOOT_STATUS_CD_DUE = false ∧ s.mode ≠ mSAFESTOP ∧ s.on F.SYS_MODE_STOPPING = true) ∧
    (∃ (s : State) (m : Fin 4) (_tag : Byte), s.mode ≠ mRESET ∧ s.owns m = true ∧ s.rd F.SYS_MBOX_RESP_STATUS ≠ 1 ∧ s.mode ≠ mRECOVERY ∧ s.sys.recovKept = false ∧ s.on F.BOOT_STATUS_CD_DUE = false ∧ s.mode ≠ mSAFESTOP ∧ s.on F.SYS_MODE_STOPPING = true ∧ s.forcedCause = 0) ∧
    (∃ (s : State) (m : Fin 4) (_tag : Byte), s.mode ≠ mRESET ∧ s.owns m = true ∧ s.rd F.SYS_MBOX_RESP_STATUS ≠ 1 ∧ s.mode ≠ mRECOVERY ∧ s.sys.recovKept = false ∧ s.on F.BOOT_STATUS_CD_DUE = false ∧ s.mode ≠ mSAFESTOP ∧ s.on F.SYS_MODE_STOPPING = false ∧ s.forcedCause = 0 ∧ ((s.mode ≠ mSTANDBY ∧ s.mode ≠ mSPINUP ∧ s.mode ≠ mSCAN ∧ s.mode ≠ mDERATED) ∨ (s.mode = mSTANDBY ∧ s.on F.SYS_MODE_BOOT_DONE = false) ∨ s.on F.BOOT_STATUS_SLOT_WRITE = true)) ∧
    (∃ (s : State) (m : Fin 4) (_tag : Byte), s.mode ≠ mRESET ∧ s.owns m = true ∧ s.rd F.SYS_MBOX_RESP_STATUS ≠ 1 ∧ s.mode ≠ mRECOVERY ∧ s.sys.recovKept = false ∧ s.on F.BOOT_STATUS_CD_DUE = false ∧ s.mode ≠ mSAFESTOP ∧ s.on F.SYS_MODE_STOPPING = false ∧ s.forcedCause = 0 ∧ (s.planPermitted ((s.rd F.SYS_MBOX_ARG_ARG) % 16) = false ∨ s.on F.BOOT_STATUS_SLOT_WRITE = true)) ∧
    (∃ (s : State) (m : Fin 4) (_tag : Byte), s.mode ≠ mRESET ∧ s.owns m = true ∧ s.rd F.SYS_MBOX_RESP_STATUS ≠ 1 ∧ s.mode ≠ mRECOVERY ∧ s.sys.recovKept = false ∧ s.on F.BOOT_STATUS_CD_DUE = false ∧ s.mode ≠ mSAFESTOP ∧ s.on F.SYS_MODE_STOPPING = false ∧ s.mode ≠ mSCAN ∧ s.mode ≠ mDERATED) ∧
    (∃ (s : State) (m : Fin 4) (_tag : Byte), s.mode ≠ mRESET ∧ s.owns m = true ∧ s.rd F.SYS_MBOX_RESP_STATUS ≠ 1 ∧ s.on F.BOOT_STATUS_CD_DUE = false ∧ s.mode ≠ mSAFESTOP ∧ s.on F.SYS_MODE_STOPPING = false ∧ ((s.mode ≠ mSTANDBY ∧ s.mode ≠ mRECOVERY) ∨ s.on F.BOOT_STATUS_SLOT_WRITE = true)) ∧
    (∃ (s : State) (m : Fin 4) (_tag : Byte), s.mode ≠ mRESET ∧ s.owns m = true ∧ s.rd F.SYS_MBOX_RESP_STATUS ≠ 1 ∧ s.mode ≠ mRECOVERY ∧ s.sys.recovKept = false ∧ s.on F.BOOT_STATUS_CD_DUE = false ∧ s.mode ≠ mSAFESTOP ∧ s.mode = mSTANDBY) ∧
    (∃ (s : State) (m : Fin 4) (_tag : Byte), s.mode ≠ mRESET ∧ s.owns m = true ∧ s.rd F.SYS_MBOX_RESP_STATUS ≠ 1 ∧ s.mode ≠ mRECOVERY ∧ s.sys.recovKept = false ∧ s.on F.BOOT_STATUS_CD_DUE = false ∧ s.mode ≠ mSAFESTOP ∧ s.on F.SYS_MODE_STOPPING = false ∧ (s.mode = mSPINUP ∨ s.mode = mSCAN ∨ s.mode = mCALIBRATE ∨ s.mode = mDERATED)) ∧
    (∃ (s : State) (m : Fin 4) (_tag : Byte), s.mode ≠ mRESET ∧ s.owns m = true ∧ s.rd F.SYS_MBOX_RESP_STATUS ≠ 1 ∧ s.mode ≠ mRECOVERY ∧ s.sys.recovKept = false ∧ s.on F.BOOT_STATUS_CD_DUE = false ∧ s.mode ≠ mSAFESTOP ∧ s.on F.SYS_MODE_STOPPING = false ∧ s.forcedCause = 0 ∧ s.on F.BOOT_STATUS_SLOT_WRITE = false ∧ (s.mode = mSCAN ∨ s.mode = mDERATED)) ∧
    (∃ (s : State) (m : Fin 4) (_tag : Byte), s.mode ≠ mRESET ∧ s.owns m = true ∧ s.rd F.SYS_MBOX_RESP_STATUS ≠ 1 ∧ s.mode ≠ mRECOVERY ∧ s.sys.recovKept = false ∧ s.on F.BOOT_STATUS_CD_DUE = false ∧ s.mode ≠ mSAFESTOP ∧ s.on F.SYS_MODE_STOPPING = false ∧ s.forcedCause = 0 ∧ s.on F.BOOT_STATUS_SLOT_WRITE = false ∧ s.mode = mSPINUP) ∧
    (∃ (s : State) (m : Fin 4) (_tag : Byte), s.mode ≠ mRESET ∧ s.owns m = true ∧ s.rd F.SYS_MBOX_RESP_STATUS ≠ 1 ∧ s.mode ≠ mRECOVERY ∧ s.sys.recovKept = false ∧ s.on F.BOOT_STATUS_CD_DUE = false ∧ s.mode ≠ mSAFESTOP ∧ s.on F.SYS_MODE_STOPPING = false ∧ s.forcedCause = 0 ∧ s.on F.BOOT_STATUS_SLOT_WRITE = false ∧ s.mode = mSTANDBY ∧ s.on F.SYS_MODE_BOOT_DONE = true) ∧
    (∃ (s : State) (m : Fin 4) (_tag : Byte), s.mode ≠ mRESET ∧ s.owns m = true ∧ s.rd F.SYS_MBOX_RESP_STATUS ≠ 1 ∧ s.mode ≠ mRECOVERY ∧ s.sys.recovKept = false ∧ s.on F.BOOT_STATUS_CD_DUE = false ∧ s.mode ≠ mSAFESTOP ∧ s.on F.SYS_MODE_STOPPING = false ∧ s.forcedCause = 0 ∧ s.on F.BOOT_STATUS_SLOT_WRITE = false ∧ s.planPermitted ((s.rd F.SYS_MBOX_ARG_ARG) % 16) = true) ∧
    (∃ (s : State) (m : Fin 4) (_tag : Byte), s.mode ≠ mRESET ∧ s.owns m = true ∧ s.rd F.SYS_MBOX_RESP_STATUS ≠ 1 ∧ s.mode ≠ mRECOVERY ∧ s.sys.recovKept = false ∧ s.on F.BOOT_STATUS_CD_DUE = false ∧ s.mode ≠ mSAFESTOP ∧ s.on F.SYS_MODE_STOPPING = false ∧ (s.mode = mSCAN ∨ s.mode = mDERATED)) ∧
    (∃ (s : State) (m : Fin 4) (_tag : Byte), s.mode ≠ mRESET ∧ s.owns m = true ∧ s.rd F.SYS_MBOX_RESP_STATUS ≠ 1 ∧ s.mode ≠ mRECOVERY ∧ s.sys.recovKept = false ∧ s.on F.BOOT_STATUS_CD_DUE = false ∧ s.mode ≠ mSAFESTOP ∧ s.on F.SYS_MODE_STOPPING = false ∧ (s.mode = mSCAN ∨ s.mode = mDERATED)) ∧
    (∃ (s : State) (m : Fin 4) (_tag : Byte), s.mode ≠ mRESET ∧ s.owns m = true ∧ s.rd F.SYS_MBOX_RESP_STATUS ≠ 1 ∧ s.on F.BOOT_STATUS_CD_DUE = false ∧ s.mode ≠ mSAFESTOP ∧ s.on F.SYS_MODE_STOPPING = false ∧ s.mode = mSTANDBY ∧ s.on F.BOOT_STATUS_SLOT_WRITE = false) ∧
    (∃ (s : State) (m : Fin 4) (_tag : Byte), s.mode ≠ mRESET ∧ (s.owns m = false ∨ s.rd F.SYS_MBOX_RESP_STATUS = 1)) ∧
    (∃ (s : State) (m : Fin 4) (_tag : Byte), s.mode ≠ mRESET ∧ s.owns m = false) ∧
    (∃ (s : State) (m : Fin 4) (a : BitVec 26) (w : Word) (_u : Nat) (r : RegSpec) (i : Nat) (j : Nat), s.mode ≠ mRESET ∧ s.stoppedAt a.toNat = false ∧ a.toNat % 4 = 0 ∧ findReg a.toNat = some (r, i, j) ∧ silentWrite a.toNat = false ∧ badEncoding r.fields w = false ∧ s.barred a.toNat i w = false ∧ s.ignored m a.toNat i w = false ∧ s.reservedIn a.toNat i w = false ∧ (ownWrite a.toNat = false ∨ (sampledWrite a.toNat = true ∧ s.running = true))) ∧
    (∃ (s : State) (m : Fin 4) (a : BitVec 26) (w : Word) (_u : Nat) (r : RegSpec) (i : Nat) (j : Nat), s.mode ≠ mRESET ∧ s.stoppedAt a.toNat = false ∧ a.toNat % 4 = 0 ∧ findReg a.toNat = some (r, i, j) ∧ silentWrite a.toNat = false ∧ badEncoding r.fields w = false ∧ s.barred a.toNat i w = false ∧ s.ignored m a.toNat i w = false ∧ s.reservedIn a.toNat i w = false ∧ (sampledWrite a.toNat = true ∨ hisSampled a.toNat = true)) ∧
    (∃ (s : State) (m : Fin 4) (a : BitVec 26) (w : Word) (_u : Nat) (r : RegSpec) (i : Nat) (j : Nat), s.mode ≠ mRESET ∧ s.stoppedAt a.toNat = false ∧ a.toNat % 4 = 0 ∧ findReg a.toNat = some (r, i, j) ∧ silentWrite a.toNat = false ∧ badEncoding r.fields w = false ∧ s.barred a.toNat i w = false ∧ s.ignored m a.toNat i w = false ∧ s.reservedIn a.toNat i w = false ∧ 0x101000 ≤ a.toNat ∧ a.toNat < 0x102200) ∧
    (∃ (s : State) (m : Fin 4) (a : BitVec 26) (w : Word) (_u : Nat) (r : RegSpec) (i : Nat) (j : Nat), s.mode ≠ mRESET ∧ s.stoppedAt a.toNat = false ∧ a.toNat % 4 = 0 ∧ findReg a.toNat = some (r, i, j) ∧ silentWrite a.toNat = false ∧ badEncoding r.fields w = false ∧ s.barred a.toNat i w = false ∧ s.ignored m a.toNat i w = false ∧ s.reservedIn a.toNat i w = false ∧ 0x10000 ≤ a.toNat ∧ a.toNat < 0x10800) ∧
    (∃ (s : State) (_m : Fin 4) (a : BitVec 26) (_w : Word) (_u : Nat), s.mode ≠ mRESET ∧ s.stoppedAt a.toNat = false ∧ a.toNat % 4 = 0) ∧
    (∃ (s : State) (_m : Fin 4) (a : BitVec 26) (_w : Word) (_u : Nat), s.mode ≠ mRESET ∧ a.toNat % 4 ≠ 0) ∧
    (∃ (s : State) (m : Fin 4) (a : BitVec 26) (w : Word) (_u : Nat) (r : RegSpec) (i : Nat) (j : Nat), s.mode ≠ mRESET ∧ s.stoppedAt a.toNat = false ∧ a.toNat % 4 = 0 ∧ findReg a.toNat = some (r, i, j) ∧ silentWrite a.toNat = false ∧ inWindow a.toNat = false ∧ inSeedMap a.toNat = false ∧ (badEncoding r.fields w = true ∨ s.barred a.toNat i w = true ∨ s.ignored m a.toNat i w = true)) ∧
    (∃ (s : State) (_m : Fin 4) (a : BitVec 26) (_w : Word) (_u : Nat), s.mode ≠ mRESET ∧ s.stoppedAt a.toNat = false ∧ inWindow a.toNat = false ∧ inSeedMap a.toNat = false ∧ a.toNat % 4 = 0 ∧ ¬ (0x380000 ≤ a.toNat ∧ a.toNat < 0x388000) ∧ findReg a.toNat = none) ∧
    (∃ (s : State) (_m : Fin 4) (a : BitVec 26) (_w : Word) (_u : Nat), s.mode ≠ mRESET ∧ s.stoppedAt a.toNat = false ∧ silentWrite a.toNat = true ∧ a.toNat % 4 = 0) ∧
    (∃ (s : State) (_m : Fin 4) (a : BitVec 26) (_w : Word) (_u : Nat), s.mode ≠ mRESET ∧ s.stoppedAt a.toNat = true) ∧
    (∃ (s : State) (_m : Fin 4) (a : BitVec 26) (_w : Word) (_u : Nat), s.mode ≠ mRESET ∧ s.stoppedAt (a.toNat / 4 * 4) = true) ∧
    (∃ (s : State) (_m : Fin 4) (_a : BitVec 26) (_w : Word) (_u : Nat) (_tag : Byte), s.mode = mRESET) ∧
    (∃ (s : State) (_m : Fin 4) (a : BitVec 26) (_w : Word) (_u : Nat), s.stoppedAt a.toNat = false) ∧
    (∃ (s : State) (a : BitVec 26) (r : RegSpec) (i : Nat) (j : Nat), s.mode ≠ mRESET ∧ s.stoppedAt a.toNat = false ∧ a.toNat % 4 = 0 ∧ findReg a.toNat = some (r, i, j) ∧ (¬ (inWindow a.toNat = true ∨ (0x380000 ≤ a.toNat ∧ a.toNat < 0x388000) ∨ (0xE02000 ≤ a.toNat ∧ a.toNat < 0xE04000 ∧ a.toNat % 8 = 0) ∨ a.toNat = R.LNK_PTP_TS_INFO ∨ a.toNat = R.LNK_PTP_STATUS ∨ (R.LNK_PRBS_ERR 0 ≤ a.toNat ∧ a.toNat ≤ R.LNK_PRBS_ERR 3)))) ∧
    (∃ (s : State) (c : Instr) (b : Bool), accessStopped s c = some b) :=
  ⟨⟨(fun (s : State) (recov : Bool) (merId : Fin 8) (u : Nat) => let s : State := { s with sys := { s.sys with testEn := false }, thm := { s.thm with tripHold := false } }; ((s.ready 0)|>.put F.HDG_STATUS_LATCH false)) State.reset false 3 7, false, 3, 7, by decide +kernel⟩,
    ⟨(fun (s : State) (recov : Bool) (merId : Fin 8) (u : Nat) => let s : State := { s with sys := { s.sys with testEn := false }, thm := { s.thm with tripHold := false } }; ((s.ready 0)|>.put F.HDG_STATUS_LATCH true)) State.reset false 3 7, false, 3, 7, by decide +kernel⟩,
    ⟨(fun (s : State) (recov : Bool) (merId : Fin 8) (u : Nat) => let s : State := { s with sys := { s.sys with testEn := false }, thm := { s.thm with tripHold := false } }; ((s.ready 0))) State.reset true 3 7, true, 3, 7, by decide +kernel⟩,
    ⟨(fun (s : State) (recov : Bool) (merId : Fin 8) (u : Nat) => (s.ready 2)) State.reset true 3 7, true, 3, 7, by decide +kernel⟩,
    ⟨(fun (s : State) (straps : Fin 64) (floats : Fin 64) => (((s.ready 2)|>.wr F.SYS_CLK_STATUS_MAIN_LOCK 1))) State.reset 0 7, 0, 7, by decide +kernel⟩,
    ⟨(fun (s : State) (straps : Fin 64) (floats : Fin 64) => (let s : State := { s with sys := { s.sys with relock := false } }; (s.ready 2)|>.wr F.SYS_CLK_STATUS_MAIN_LOCK 0)) State.reset 0 7, 0, 7, by decide +kernel⟩,
    ⟨(fun (s : State) (straps : Fin 64) (floats : Fin 64) => (((s.ready 2)|>.wr F.SYS_CLK_STATUS_MAIN_LOCK 1))) State.reset 5 0, 5, 0, by decide +kernel⟩,
    ⟨(fun (s : State) (m : Fin 4) (tag : Byte) => let s : State := { s with sys := { s.sys with recovKept := false, pfLow := false } }; ((s.ready 2)|>.wr F.LNK_MBOX_OWNER_OWNER m.val |>.wr F.SYS_MBOX_RESP_STATUS 2)) State.reset 2 5, 2, 5, by decide +kernel⟩,
    ⟨(fun (s : State) (m : Fin 4) (tag : Byte) => let s : State := { s with boot := { s.boot with saving := none, writing := none } }; let s : State := { s with sys := { s.sys with recovKept := false, pfLow := false } }; ((s.ready 2)|>.wr F.LNK_MBOX_OWNER_OWNER m.val |>.wr F.SYS_MBOX_RESP_STATUS 2|>.put F.CAL_STATUS_JRN_BUSY false)) State.reset 2 5, 2, 5, by decide +kernel⟩,
    ⟨(fun (s : State) (m : Fin 4) (tag : Byte) => let s : State := { s with boot := { s.boot with saving := some 1 } }; let s : State := { s with sys := { s.sys with recovKept := false, pfLow := false } }; ((s.ready 2)|>.wr F.LNK_MBOX_OWNER_OWNER m.val |>.wr F.SYS_MBOX_RESP_STATUS 2)) State.reset 2 5, 2, 5, by decide +kernel⟩,
    ⟨(fun (s : State) (m : Fin 4) (tag : Byte) => let s : State := { s with sys := { s.sys with recovKept := false, pfLow := false } }; ((s.ready 1)|>.wr F.LNK_MBOX_OWNER_OWNER m.val |>.wr F.SYS_MBOX_RESP_STATUS 2)) State.reset 2 5, 2, 5, by decide +kernel⟩,
    ⟨(fun (s : State) (m : Fin 4) (tag : Byte) => let s : State := { s with sys := { s.sys with recovKept := false, pfLow := false } }; ((s.ready 2)|>.wr F.LNK_MBOX_OWNER_OWNER m.val |>.wr F.SYS_MBOX_RESP_STATUS 2|>.put F.BOOT_STATUS_CD_DUE true)) State.reset 2 5, 2, 5, by decide +kernel⟩,
    ⟨(fun (s : State) (m : Fin 4) (tag : Byte) => let s : State := { s with sys := { s.sys with recovKept := false, pfLow := false } }; ((s.ready 1)|>.wr F.LNK_MBOX_OWNER_OWNER m.val |>.wr F.SYS_MBOX_RESP_STATUS 2 |>.put F.BOOT_STATUS_CD_DUE false |>.wr F.THM_STATUS_IND 0 |>.put F.SYS_MODE_STOPPING false |>.put F.BOOT_STATUS_SLOT_WRITE false)) State.reset 2 5, 2, 5, by decide +kernel⟩,
    ⟨(fun (s : State) (m : Fin 4) (tag : Byte) => let s : State := { s with sys := { s.sys with recovKept := false, pfLow := false } }; ((s.ready 7)|>.wr F.LNK_MBOX_OWNER_OWNER m.val |>.wr F.SYS_MBOX_RESP_STATUS 2 |>.put F.BOOT_STATUS_CD_DUE false |>.wr F.THM_STATUS_IND 0 |>.put F.SYS_MODE_STOPPING false |>.put F.BOOT_STATUS_SLOT_WRITE false)) State.reset 2 5, 2, 5, by decide +kernel⟩,
    ⟨(fun (s : State) (m : Fin 4) (tag : Byte) => let s : State := { s with sys := { s.sys with recovKept := true, pfLow := false } }; ((s.ready 7)|>.wr F.LNK_MBOX_OWNER_OWNER m.val |>.wr F.SYS_MBOX_RESP_STATUS 2 |>.put F.BOOT_STATUS_CD_DUE false |>.wr F.THM_STATUS_IND 0 |>.put F.SYS_MODE_STOPPING false |>.put F.BOOT_STATUS_SLOT_WRITE false)) State.reset 2 5, 2, 5, by decide +kernel⟩,
    ⟨(fun (s : State) (m : Fin 4) (tag : Byte) => let s : State := { s with sys := { s.sys with recovKept := false, pfLow := false } }; ((s.ready (2 + tag.toNat % 5))|>.wr F.LNK_MBOX_OWNER_OWNER m.val |>.wr F.SYS_MBOX_RESP_STATUS 2 |>.put F.BOOT_STATUS_CD_DUE false |>.wr F.THM_STATUS_IND 0 |>.put F.SYS_MODE_STOPPING false |>.put F.BOOT_STATUS_SLOT_WRITE false|>.wr F.THM_STATUS_IND 4)) State.reset 2 5, 2, 5, by decide +kernel⟩,
    ⟨(fun (s : State) (m : Fin 4) (tag : Byte) => let s : State := { s with sys := { s.sys with recovKept := false, pfLow := false } }; ((s.ready (3 + tag.toNat % 4))|>.wr F.LNK_MBOX_OWNER_OWNER m.val |>.wr F.SYS_MBOX_RESP_STATUS 2 |>.put F.BOOT_STATUS_CD_DUE false |>.wr F.THM_STATUS_IND 0 |>.put F.SYS_MODE_STOPPING false |>.put F.BOOT_STATUS_SLOT_WRITE false|>.put F.SYS_MODE_STOPPING true)) State.reset 2 5, 2, 5, by decide +kernel⟩,
    ⟨(fun (s : State) (m : Fin 4) (tag : Byte) => let s : State := { s with sys := { s.sys with recovKept := false, pfLow := false } }; ((s.ready (1 + tag.toNat % 6))|>.wr F.LNK_MBOX_OWNER_OWNER m.val |>.wr F.SYS_MBOX_RESP_STATUS 2 |>.put F.BOOT_STATUS_CD_DUE false |>.wr F.THM_STATUS_IND 0 |>.put F.SYS_MODE_STOPPING false |>.put F.BOOT_STATUS_SLOT_WRITE false|>.put F.SYS_MODE_STOPPING true)) State.reset 2 5, 2, 5, by decide +kernel⟩,
    ⟨(fun (s : State) (m : Fin 4) (tag : Byte) => let s : State := { s with sys := { s.sys with recovKept := false, pfLow := false } }; ((s.ready (2 + tag.toNat % 5))|>.wr F.LNK_MBOX_OWNER_OWNER m.val |>.wr F.SYS_MBOX_RESP_STATUS 2 |>.put F.BOOT_STATUS_CD_DUE false |>.wr F.THM_STATUS_IND 0 |>.put F.SYS_MODE_STOPPING false |>.put F.BOOT_STATUS_SLOT_WRITE false|>.put F.SYS_MODE_STOPPING true)) State.reset 2 5, 2, 5, by decide +kernel⟩,
    ⟨(fun (s : State) (m : Fin 4) (tag : Byte) => let s : State := { s with sys := { s.sys with recovKept := false, pfLow := false } }; ((s.ready (3 + tag.toNat % 4))|>.wr F.LNK_MBOX_OWNER_OWNER m.val |>.wr F.SYS_MBOX_RESP_STATUS 2 |>.put F.BOOT_STATUS_CD_DUE false |>.wr F.THM_STATUS_IND 0 |>.put F.SYS_MODE_STOPPING false |>.put F.BOOT_STATUS_SLOT_WRITE false|>.put F.SYS_MODE_STOPPING true)) State.reset 2 5, 2, 5, by decide +kernel⟩,
    ⟨(fun (s : State) (m : Fin 4) (tag : Byte) => let s : State := { s with sys := { s.sys with recovKept := false, pfLow := false } }; ((s.ready (tag.toNat % 10))|>.wr F.LNK_MBOX_OWNER_OWNER m.val |>.wr F.SYS_MBOX_RESP_STATUS 2 |>.put F.BOOT_STATUS_CD_DUE false |>.wr F.THM_STATUS_IND 0 |>.put F.SYS_MODE_STOPPING false |>.put F.BOOT_STATUS_SLOT_WRITE false)) State.reset 2 5, 2, 5, by decide +kernel⟩,
    ⟨(fun (s : State) (m : Fin 4) (tag : Byte) => let s : State := { s with sys := { s.sys with recovKept := false, pfLow := false } }; ((s.ready (2 + tag.toNat % 5))|>.wr F.LNK_MBOX_OWNER_OWNER m.val |>.wr F.SYS_MBOX_RESP_STATUS 2 |>.put F.BOOT_STATUS_CD_DUE false |>.wr F.THM_STATUS_IND 0 |>.put F.SYS_MODE_STOPPING false |>.put F.BOOT_STATUS_SLOT_WRITE false)) State.reset 2 5, 2, 5, by decide +kernel⟩,
    ⟨(fun (s : State) (m : Fin 4) (tag : Byte) => let s : State := { s with sys := { s.sys with recovKept := false, pfLow := false } }; ((s.ready (tag.toNat % 10))|>.wr F.LNK_MBOX_OWNER_OWNER m.val |>.wr F.SYS_MBOX_RESP_STATUS 2 |>.put F.BOOT_STATUS_CD_DUE false |>.wr F.THM_STATUS_IND 0 |>.put F.SYS_MODE_STOPPING false |>.put F.BOOT_STATUS_SLOT_WRITE false)) State.reset 2 5, 2, 5, by decide +kernel⟩,
    ⟨(fun (s : State) (m : Fin 4) (tag : Byte) => let s : State := { s with sys := { s.sys with recovKept := false, pfLow := false } }; ((s.ready (2 + tag.toNat % 5))|>.wr F.LNK_MBOX_OWNER_OWNER m.val |>.wr F.SYS_MBOX_RESP_STATUS 2 |>.put F.BOOT_STATUS_CD_DUE false |>.wr F.THM_STATUS_IND 0 |>.put F.SYS_MODE_STOPPING false |>.put F.BOOT_STATUS_SLOT_WRITE false|>.put F.BOOT_STATUS_SLOT_WRITE true)) State.reset 2 5, 2, 5, by decide +kernel⟩,
    ⟨(fun (s : State) (m : Fin 4) (tag : Byte) => let s : State := { s with sys := { s.sys with recovKept := false, pfLow := false } }; ((s.ready 2)|>.wr F.LNK_MBOX_OWNER_OWNER m.val |>.wr F.SYS_MBOX_RESP_STATUS 2 |>.put F.BOOT_STATUS_CD_DUE false |>.wr F.THM_STATUS_IND 0 |>.put F.SYS_MODE_STOPPING false |>.put F.BOOT_STATUS_SLOT_WRITE false|>.wr F.SYS_MBOX_ARG_ARG (tag.toNat % 2))) State.reset 2 5, 2, 5, by decide +kernel⟩,
    ⟨(fun (s : State) (m : Fin 4) (tag : Byte) => let s : State := { s with sys := { s.sys with recovKept := false, pfLow := false } }; ((s.ready (3 + tag.toNat % 4))|>.wr F.LNK_MBOX_OWNER_OWNER m.val |>.wr F.SYS_MBOX_RESP_STATUS 2 |>.put F.BOOT_STATUS_CD_DUE false |>.wr F.THM_STATUS_IND 0 |>.put F.SYS_MODE_STOPPING false |>.put F.BOOT_STATUS_SLOT_WRITE false)) State.reset 2 5, 2, 5, by decide +kernel⟩,
    ⟨(fun (s : State) (m : Fin 4) (tag : Byte) => let s : State := { s with sys := { s.sys with recovKept := false, pfLow := false } }; ((s.ready (4 + 2 * (tag.toNat % 2)))|>.wr F.LNK_MBOX_OWNER_OWNER m.val |>.wr F.SYS_MBOX_RESP_STATUS 2 |>.put F.BOOT_STATUS_CD_DUE false |>.wr F.THM_STATUS_IND 0 |>.put F.SYS_MODE_STOPPING false |>.put F.BOOT_STATUS_SLOT_WRITE false)) State.reset 2 5, 2, 5, by decide +kernel⟩,
    ⟨(fun (s : State) (m : Fin 4) (tag : Byte) => let s : State := { s with sys := { s.sys with recovKept := false, pfLow := false } }; ((s.ready 3)|>.wr F.LNK_MBOX_OWNER_OWNER m.val |>.wr F.SYS_MBOX_RESP_STATUS 2 |>.put F.BOOT_STATUS_CD_DUE false |>.wr F.THM_STATUS_IND 0 |>.put F.SYS_MODE_STOPPING false |>.put F.BOOT_STATUS_SLOT_WRITE false)) State.reset 2 5, 2, 5, by decide +kernel⟩,
    ⟨(fun (s : State) (m : Fin 4) (tag : Byte) => let s : State := { s with sys := { s.sys with recovKept := false, pfLow := false } }; ((s.ready 2)|>.wr F.LNK_MBOX_OWNER_OWNER m.val |>.wr F.SYS_MBOX_RESP_STATUS 2 |>.put F.BOOT_STATUS_CD_DUE false |>.wr F.THM_STATUS_IND 0 |>.put F.SYS_MODE_STOPPING false |>.put F.BOOT_STATUS_SLOT_WRITE false|>.put F.SYS_MODE_BOOT_DONE true)) State.reset 2 5, 2, 5, by decide +kernel⟩,
    ⟨(fun (s : State) (m : Fin 4) (tag : Byte) => let s : State := { s with sys := { s.sys with recovKept := false, pfLow := false } }; ((s.ready (2 + 2 * (tag.toNat % 2)))|>.wr F.LNK_MBOX_OWNER_OWNER m.val |>.wr F.SYS_MBOX_RESP_STATUS 2 |>.put F.BOOT_STATUS_CD_DUE false |>.wr F.THM_STATUS_IND 0 |>.put F.SYS_MODE_STOPPING false |>.put F.BOOT_STATUS_SLOT_WRITE false|>.wr F.SYS_MBOX_ARG_ARG 1)) State.reset 2 5, 2, 5, by decide +kernel⟩,
    ⟨(fun (s : State) (m : Fin 4) (tag : Byte) => let s : State := { s with sys := { s.sys with recovKept := false, pfLow := false } }; ((s.ready (4 + 2 * (tag.toNat % 2)))|>.wr F.LNK_MBOX_OWNER_OWNER m.val |>.wr F.SYS_MBOX_RESP_STATUS 2 |>.put F.BOOT_STATUS_CD_DUE false |>.wr F.THM_STATUS_IND 0 |>.put F.SYS_MODE_STOPPING false |>.put F.BOOT_STATUS_SLOT_WRITE false)) State.reset 2 5, 2, 5, by decide +kernel⟩,
    ⟨(fun (s : State) (m : Fin 4) (tag : Byte) => let s : State := { s with sys := { s.sys with recovKept := false, pfLow := false } }; ((s.ready (4 + 2 * (tag.toNat % 2)))|>.wr F.LNK_MBOX_OWNER_OWNER m.val |>.wr F.SYS_MBOX_RESP_STATUS 2 |>.put F.BOOT_STATUS_CD_DUE false |>.wr F.THM_STATUS_IND 0 |>.put F.SYS_MODE_STOPPING false |>.put F.BOOT_STATUS_SLOT_WRITE false)) State.reset 2 5, 2, 5, by decide +kernel⟩,
    ⟨(fun (s : State) (m : Fin 4) (tag : Byte) => let s : State := { s with sys := { s.sys with recovKept := false, pfLow := false } }; ((s.ready 2)|>.wr F.LNK_MBOX_OWNER_OWNER m.val |>.wr F.SYS_MBOX_RESP_STATUS 2 |>.put F.BOOT_STATUS_CD_DUE false |>.wr F.THM_STATUS_IND 0 |>.put F.SYS_MODE_STOPPING false |>.put F.BOOT_STATUS_SLOT_WRITE false)) State.reset 2 5, 2, 5, by decide +kernel⟩,
    ⟨(fun (s : State) (m : Fin 4) (tag : Byte) => ((s.ready 2)|>.wr F.LNK_MBOX_OWNER_OWNER 0)) State.reset 2 5, 2, 5, by decide +kernel⟩,
    ⟨(fun (s : State) (m : Fin 4) (tag : Byte) => ((s.ready 2)|>.wr F.LNK_MBOX_OWNER_OWNER 0)) State.reset 2 5, 2, 5, by decide +kernel⟩,
    ⟨(fun (s : State) (m : Fin 4) (a : BitVec 26) (w : Word) (u : Nat) (r : RegSpec) (i : Nat) (j : Nat) => let s : State := { s with sys := { s.sys with dramStopped := false, relock := false } }; ((s.ready 2)|>.wr F.SYS_CLK_STATUS_MAIN_LOCK 1 |>.wr F.SYS_CLK_STATUS_TIL_LOCK 1)) State.reset 1 (BitVec.ofNat 26 R.OBS_SNAP_CFG) (resetWord R.OBS_SNAP_CFG) 5 (((findReg R.OBS_SNAP_CFG).getD (⟨0, 0, 0, 0, 0, []⟩, 0, 0)).1) 0 0, 1, BitVec.ofNat 26 R.OBS_SNAP_CFG, resetWord R.OBS_SNAP_CFG, 5, ((findReg R.OBS_SNAP_CFG).getD (⟨0, 0, 0, 0, 0, []⟩, 0, 0)).1, 0, 0, by decide +kernel⟩,
    ⟨(fun (s : State) (m : Fin 4) (a : BitVec 26) (w : Word) (u : Nat) (r : RegSpec) (i : Nat) (j : Nat) => let s : State := { s with sys := { s.sys with dramStopped := false, relock := false } }; ((s.ready 2)|>.wr F.SYS_CLK_STATUS_MAIN_LOCK 1 |>.wr F.SYS_CLK_STATUS_TIL_LOCK 1)) State.reset 1 (BitVec.ofNat 26 R.DET_QUENCH_CFG) (resetWord R.DET_QUENCH_CFG) 5 (((findReg R.DET_QUENCH_CFG).getD (⟨0, 0, 0, 0, 0, []⟩, 0, 0)).1) 0 0, 1, BitVec.ofNat 26 R.DET_QUENCH_CFG, resetWord R.DET_QUENCH_CFG, 5, ((findReg R.DET_QUENCH_CFG).getD (⟨0, 0, 0, 0, 0, []⟩, 0, 0)).1, 0, 0, by decide +kernel⟩,
    ⟨(fun (s : State) (m : Fin 4) (a : BitVec 26) (w : Word) (u : Nat) (r : RegSpec) (i : Nat) (j : Nat) => let s : State := { s with sys := { s.sys with dramStopped := false, relock := false } }; ((s.ready 2)|>.wr F.SYS_CLK_STATUS_MAIN_LOCK 1 |>.wr F.SYS_CLK_STATUS_TIL_LOCK 1)) State.reset 1 (BitVec.ofNat 26 0x101000) (resetWord 0x101000) 5 (((findReg 0x101000).getD (⟨0, 0, 0, 0, 0, []⟩, 0, 0)).1) 0 0, 1, BitVec.ofNat 26 0x101000, resetWord 0x101000, 5, ((findReg 0x101000).getD (⟨0, 0, 0, 0, 0, []⟩, 0, 0)).1, 0, 0, by decide +kernel⟩,
    ⟨(fun (s : State) (m : Fin 4) (a : BitVec 26) (w : Word) (u : Nat) (r : RegSpec) (i : Nat) (j : Nat) => let s : State := { s with sys := { s.sys with dramStopped := false, relock := false } }; ((s.ready 2)|>.wr F.SYS_CLK_STATUS_MAIN_LOCK 1 |>.wr F.SYS_CLK_STATUS_TIL_LOCK 1)) State.reset 1 0x10000 0 5 (((findReg 0x10000).getD (⟨0, 0, 0, 0, 0, []⟩, 0, 0)).1) 0 0, 1, 0x10000, 0, 5, ((findReg 0x10000).getD (⟨0, 0, 0, 0, 0, []⟩, 0, 0)).1, 0, 0, by decide +kernel⟩,
    ⟨(fun (s : State) (m : Fin 4) (a : BitVec 26) (w : Word) (u : Nat) => let s : State := { s with sys := { s.sys with dramStopped := false, relock := false } }; ((s.ready 2)|>.wr F.SYS_CLK_STATUS_MAIN_LOCK 1 |>.wr F.SYS_CLK_STATUS_TIL_LOCK 1)) State.reset 1 0x10 3 5, 1, 0x10, 3, 5, by decide +kernel⟩,
    ⟨(fun (s : State) (m : Fin 4) (a : BitVec 26) (w : Word) (u : Nat) => let s : State := { s with sys := { s.sys with dramStopped := false, relock := false } }; ((s.ready 2)|>.wr F.SYS_CLK_STATUS_MAIN_LOCK 1 |>.wr F.SYS_CLK_STATUS_TIL_LOCK 1)) State.reset 1 0x11 3 5, 1, 0x11, 3, 5, by decide +kernel⟩,
    ⟨(fun (s : State) (m : Fin 4) (a : BitVec 26) (w : Word) (u : Nat) (r : RegSpec) (i : Nat) (j : Nat) => let s : State := { s with sys := { s.sys with dramStopped := false, relock := false } }; ((s.ready 2)|>.wr F.SYS_CLK_STATUS_MAIN_LOCK 1 |>.wr F.SYS_CLK_STATUS_TIL_LOCK 1|>.put F.BOOT_STATUS_SESSION true)) State.reset 1 (BitVec.ofNat 26 R.BOOT_STAGE_BASE_LO) (resetWord R.BOOT_STAGE_BASE_LO) 5 (((findReg R.BOOT_STAGE_BASE_LO).getD (⟨0, 0, 0, 0, 0, []⟩, 0, 0)).1) 0 0, 1, BitVec.ofNat 26 R.BOOT_STAGE_BASE_LO, resetWord R.BOOT_STAGE_BASE_LO, 5, ((findReg R.BOOT_STAGE_BASE_LO).getD (⟨0, 0, 0, 0, 0, []⟩, 0, 0)).1, 0, 0, by decide +kernel⟩,
    ⟨(fun (s : State) (m : Fin 4) (a : BitVec 26) (w : Word) (u : Nat) => let s : State := { s with sys := { s.sys with dramStopped := false, relock := false } }; ((s.ready 2)|>.wr F.SYS_CLK_STATUS_MAIN_LOCK 1 |>.wr F.SYS_CLK_STATUS_TIL_LOCK 1)) State.reset 1 0x1FFC 3 5, 1, 0x1FFC, 3, 5, by decide +kernel⟩,
    ⟨(fun (s : State) (m : Fin 4) (a : BitVec 26) (w : Word) (u : Nat) => let s : State := { s with sys := { s.sys with dramStopped := false, relock := false } }; ((s.ready 2)|>.wr F.SYS_CLK_STATUS_MAIN_LOCK 1 |>.wr F.SYS_CLK_STATUS_TIL_LOCK 1)) State.reset 1 0x10020 3 5, 1, 0x10020, 3, 5, by decide +kernel⟩,
    ⟨(fun (s : State) (m : Fin 4) (a : BitVec 26) (w : Word) (u : Nat) => ((s.ready 2)|>.wr F.SYS_CLK_STATUS_MAIN_LOCK 0)) State.reset 1 0x200000 3 5, 1, 0x200000, 3, 5, by decide +kernel⟩,
    ⟨(fun (s : State) (m : Fin 4) (a : BitVec 26) (w : Word) (u : Nat) => ((s.ready 2)|>.wr F.SYS_CLK_STATUS_MAIN_LOCK 0)) State.reset 1 0x200000 3 5, 1, 0x200000, 3, 5, by decide +kernel⟩,
    ⟨(fun (s : State) (m : Fin 4) (a : BitVec 26) (w : Word) (u : Nat) (tag : Byte) => (s.ready 0)) State.reset 1 0x200000 3 5 6, 1, 0x200000, 3, 5, 6, by decide +kernel⟩,
    ⟨(fun (s : State) (m : Fin 4) (a : BitVec 26) (w : Word) (u : Nat) => let s : State := { s with sys := { s.sys with dramStopped := false, relock := false } }; ((s.ready 2)|>.wr F.SYS_CLK_STATUS_MAIN_LOCK 1 |>.wr F.SYS_CLK_STATUS_TIL_LOCK 1)) State.reset 1 0x200000 3 5, 1, 0x200000, 3, 5, by decide +kernel⟩,
    ⟨(fun (s : State) (a : BitVec 26) (r : RegSpec) (i : Nat) (j : Nat) => let s : State := { s with sys := { s.sys with dramStopped := false, relock := false } }; ((s.ready 2)|>.wr F.SYS_CLK_STATUS_MAIN_LOCK 1 |>.wr F.SYS_CLK_STATUS_TIL_LOCK 1)) State.reset (BitVec.ofNat 26 R.BOOT_LOG_DROP) (((findReg R.BOOT_LOG_DROP).getD (⟨0, 0, 0, 0, 0, []⟩, 0, 0)).1) 0 0, BitVec.ofNat 26 R.BOOT_LOG_DROP, ((findReg R.BOOT_LOG_DROP).getD (⟨0, 0, 0, 0, 0, []⟩, 0, 0)).1, 0, 0, by decide +kernel⟩,
    ⟨(fun (s : State) (c : Instr) (b : Bool) => (({ s with sys := { s.sys with dramStopped := true } } : State).ready 2)) State.reset .init true, .init, true, by decide +kernel⟩⟩


end Sys2Proof.Machine
end

section
/-! The frame of every command by its lists of Machine/Changes.lean, and what follows of it for every step. -/

namespace Sys2Proof.Machine

/-- The number whose bits are those that `f` gives the members of the list. -/
def maskOf {α : Type} (f : α → Nat) (l : List α) : Nat := l.foldr (fun x w => 2 ^ f x ||| w) 0

theorem testBit_maskOf {α : Type} (f : α → Nat) (l : List α) (i : Nat) :
    (maskOf f l).testBit i = true ↔ ∃ x ∈ l, f x = i := by
  induction l with
  | nil => simp [maskOf]
  | cons x l ih =>
    rw [maskOf, List.foldr_cons, Nat.testBit_or, Bool.or_eq_true, Nat.testBit_two_pow, decide_eq_true_eq]
    simp only [List.mem_cons, exists_eq_or_imp]
    exact or_congr Iff.rfl ih

/-- The parts of the mask are on the list `l` and its areas on the list `k`, where that does not name every bit. -/
def maskFits (w : Nat) (l : List Part) (k : List Written) : Bool :=
  decide (w % 2 ^ 24 &&& maskOf Part.bit l = w % 2 ^ 24)
    && (k.contains .all || decide (w / 2 ^ 24 &&& maskOf Written.ctorIdx k = w / 2 ^ 24))

theorem Part.bit_eq_ctorIdx (p : Part) : p.bit = p.ctorIdx := by cases p <;> rfl

theorem Part.bit_injective : Function.Injective Part.bit := fun p q h =>
  Function.LeftInverse.injective Part.ofNat_ctorIdx (by rw [← p.bit_eq_ctorIdx, h, q.bit_eq_ctorIdx])

theorem Part.bit_lt (p : Part) : p.bit < 24 := by cases p <;> decide

/-- The outcome is a next state in which only the listed parts and register areas differ from `s`; the canonical form is kept. -/
def Bounded (l : List Part) (k : List Written) (s : State) (o : Host.Outcome State Fault Refusal) : Prop :=
  ∃ t, o = .next t ∧ (s.canonical → t.canonical) ∧ onlyChanges l s t ∧ regsWithin k s t

theorem Fr.onlyChanges_of_fits {w : Nat} {l : List Part} {k : List Written} {s t : State} (h : Fr w s t) (e : maskFits w l k = true) :
    onlyChanges l s t := by
  simp only [maskFits, Bool.and_eq_true, decide_eq_true_eq] at e
  refine h.only fun p => Decidable.or_iff_not_imp_right.2 fun hp => ?_
  have hw : (w % 2 ^ 24).testBit p.bit = true := by
    rw [Nat.testBit_mod_two_pow, decide_eq_true p.bit_lt, Bool.true_and]
    exact Bool.eq_true_of_not_eq_false hp
  obtain ⟨q, hq, hb⟩ := (testBit_maskOf Part.bit l p.bit).1 (testBit_sub e.1 hw)
  exact Part.bit_injective hb ▸ hq

theorem Fr.regsWithin_of_fits {w : Nat} {l : List Part} {k : List Written} {s t : State} (h : Fr w s t) (e : maskFits w l k = true) :
    regsWithin k s t := by
  simp only [maskFits, Bool.and_eq_true, Bool.or_eq_true, decide_eq_true_eq, List.contains_iff_mem] at e
  obtain ⟨-, hall | hfit⟩ := e
  · exact fun a j n => absurd trivial (n .all hall)
  · refine h.within fun x => Decidable.or_iff_not_imp_right.2 fun hx => ?_
    have hw : (w / 2 ^ 24).testBit x.ctorIdx = true := by
      rw [Nat.testBit_div_two_pow, Nat.add_comm]
      exact Bool.eq_true_of_not_eq_false hx
    obtain ⟨y, hy, hb⟩ := (testBit_maskOf Written.ctorIdx k x.ctorIdx).1 (testBit_sub hfit hw)
    exact Function.LeftInverse.injective Written.ofNat_ctorIdx hb ▸ hy

theorem Runs.bounded {w : Nat} {l : List Part} {k : List Written} {s : State} {o : Host.Outcome State Fault Refusal} (h : Runs w s o)
    (e : maskFits w l k = true) : Bounded l k s o := by
  obtain ⟨t, ho, ht⟩ := h
  exact ⟨t, ho, ht.canon, ht.onlyChanges_of_fits e, ht.regsWithin_of_fits e⟩

/-- Every command answers a next state within its own lists, and keeps the canonical form. -/
theorem exec_bounded (c : Instr) (s : State) : Bounded (parts c) (written c) s (exec c s) := by
  cases c with dsimp only [exec, parts, written]
  | resetNLow => exact (execResetNLow_fr ..).bounded (by decide +kernel)
  | resetEnd => exact (execResetEnd_fr ..).bounded (by decide +kernel)
  | coreReset => exact (execCoreReset_fr ..).bounded (by decide +kernel)
  | hedgePowerOn => exact (execHedgePowerOn_fr ..).bounded (by decide +kernel)
  | mainPllLockLoss => exact (execMainPllLockLoss_fr ..).bounded (by decide +kernel)
  | tillerPllLockLoss => exact (execTillerPllLockLoss_fr ..).bounded (by decide +kernel)
  | managementPllLockLoss => exact (execManagementPllLockLoss_fr ..).bounded (by decide +kernel)
  | lockstepMismatch => exact (execLockstepMismatch_fr ..).bounded (by decide +kernel)
  | refSelChange => exact (execRefSelChange_fr ..).bounded (by decide +kernel)
  | pllRelockComplete => exact (execPllRelockComplete_fr ..).bounded (by decide +kernel)
  | registerAccessTimeout => exact (execRegisterAccessTimeout_fr ..).bounded (by decide +kernel)
  | registerWrite => exact (execRegisterWrite_fr ..).bounded (by decide +kernel)
  | rcRead => exact (execRcRead_fr ..).bounded (by decide +kernel)
  | pfNFall => exact (execPfNFall_fr ..).bounded (by decide +kernel)
  | sysPf => exact (execSysPf_fr ..).bounded (by decide +kernel)
  | pfNRise => exact (execPfNRise_fr ..).bounded (by decide +kernel)
  | orderlyStopComplete => exact (execOrderlyStopComplete_fr ..).bounded (by decide +kernel)
  | spinTimeout => exact (execSpinTimeout_fr ..).bounded (by decide +kernel)
  | spinUpLockAchieved => exact (execSpinUpLockAchieved_fr ..).bounded (by decide +kernel)
  | modeStandby => exact (execModeStandby_fr ..).bounded (by decide +kernel)
  | modeScan => exact (execModeScan_fr ..).bounded (by decide +kernel)
  | modeCalibrate => exact (execModeCalibrate_fr ..).bounded (by decide +kernel)
  | derateEnter => exact (execDerateEnter_fr ..).bounded (by decide +kernel)
  | derateRelease => exact (execDerateRelease_fr ..).bounded (by decide +kernel)
  | resetWarm => exact (execResetWarm_fr ..).bounded (by decide +kernel)
  | resetCold => exact (execResetCold_fr ..).bounded (by decide +kernel)
  | enterRecovery => exact (execEnterRecovery_fr ..).bounded (by decide +kernel)
  | modeQuery => exact (execModeQuery_fr ..).bounded (by decide +kernel)
  | maskCommit => exact (execMaskCommit_fr ..).bounded (by decide +kernel)
  | maskCommitCopy => exact (execMaskCommitCopy_fr ..).bounded (by decide +kernel)
  | probeStart => exact (execProbeStart_fr ..).bounded (by decide +kernel)
  | probeGateEnd => exact (execProbeGateEnd_fr ..).bounded (by decide +kernel)
  | biasEnable => exact (execBiasEnable_fr ..).bounded (by decide +kernel)
  | biasDisable => exact (execBiasDisable_fr ..).bounded (by decide +kernel)
  | biasSettled => exact (execBiasSettled_fr ..).bounded (by decide +kernel)
  | biasLoopUpdate => exact (execBiasLoopUpdate_fr ..).bounded (by decide +kernel)
  | biasTargetRecompute => exact (execBiasTargetRecompute_fr ..).bounded (by decide +kernel)
  | tempStale => exact (execTempStale_fr ..).bounded (by decide +kernel)
  | biasMonitorEntry => exact (execBiasMonitorEntry_fr ..).bounded (by decide +kernel)
  | biasMonitorClear => exact (execBiasMonitorClear_fr ..).bounded (by decide +kernel)
  | biasFlapRelease => exact (execBiasFlapRelease_fr ..).bounded (by decide +kernel)
  | spadFiring => exact (execSpadFiring_fr ..).bounded (by decide +kernel)
  | tdcEdge => exact (execTdcEdge_fr ..).bounded (by decide +kernel)
  | dllUnlock => exact (execDllUnlock_fr ..).bounded (by decide +kernel)
  | dllRelock => exact (execDllRelock_fr ..).bounded (by decide +kernel)
  | dllRelockRetry => exact (execDllRelockRetry_fr ..).bounded (by decide +kernel)
  | dllTrimLimit col => exact (execDllTrimLimit_fr col s).bounded (by decide +kernel)
  | tdcCommit => exact (execTdcCommit_fr ..).bounded (by decide +kernel)
  | tdcCommitCopy => exact (execTdcCommitCopy_fr ..).bounded (by decide +kernel)
  | testSourceSelect => exact (execTestSourceSelect_fr ..).bounded (by decide +kernel)
  | snoopArm => exact (execSnoopArm_fr ..).bounded (by decide +kernel)
  | counterClearAll => exact (execCounterClearAll_fr ..).bounded (by decide +kernel)
  | counterClearSel => exact (execCounterClearSel_fr ..).bounded (by decide +kernel)
  | eventWord => exact (execEventWord_fr ..).bounded (by decide +kernel)
  | pointCyclesStart => exact (execPointCyclesStart_fr ..).bounded (by decide +kernel)
  | slotPrepare => exact (execSlotPrepare_fr ..).bounded (by decide +kernel)
  | shotSlotOpen => exact (execShotSlotOpen_fr ..).bounded (by decide +kernel)
  | fallowSlotOpen => exact (execFallowSlotOpen_fr ..).bounded (by decide +kernel)
  | lanePublication => exact (execLanePublication_fr ..).bounded (by decide +kernel)
  | harrowDeadline => exact (execHarrowDeadline_fr ..).bounded (by decide +kernel)
  | windowWrite => exact (execWindowWrite_fr ..).bounded (by decide +kernel)
  | depthWrite => exact (execDepthWrite_fr ..).bounded (by decide +kernel)
  | harrowBankSwap => exact (execHarrowBankSwap_fr ..).bounded (by decide +kernel)
  | bankFreeze => exact (execBankFreeze_fr ..).bounded (by decide +kernel)
  | bankClearComplete => exact (execBankClearComplete_fr ..).bounded (by decide +kernel)
  | run => exact (execRun_fr ..).bounded (by decide +kernel)
  | halt => exact (execHalt_fr ..).bounded (by decide +kernel)
  | haltAtBoundary => exact (execHaltAtBoundary_fr ..).bounded (by decide +kernel)
  | step => exact (execStep_fr ..).bounded (by decide +kernel)
  | memInit => exact (execMemInit_fr ..).bounded (by decide +kernel)
  | memInitComplete => exact (execMemInitComplete_fr ..).bounded (by decide +kernel)
  | groupRun => exact (execGroupRun_fr ..).bounded (by decide +kernel)
  | groupHalt => exact (execGroupHalt_fr ..).bounded (by decide +kernel)
  | tilPcWrite => exact (execTilPcWrite_fr ..).bounded (by decide +kernel)
  | breakpoint => exact (execBreakpoint_fr ..).bounded (by decide +kernel)
  | tillerMemoryWrite => exact (execTillerMemoryWrite_fr ..).bounded (by decide +kernel)
  | tillerMemoryRead => exact (execTillerMemoryRead_fr ..).bounded (by decide +kernel)
  | broadcastWrite => exact (execBroadcastWrite_fr ..).bounded (by decide +kernel)
  | scrubRead => exact (execScrubRead_fr ..).bounded (by decide +kernel)
  | attention => exact (execAttention_fr ..).bounded (by decide +kernel)
  | dlAlarm => exact (execDlAlarm_fr ..).bounded (by decide +kernel)
  | ownershipEnd => exact (execOwnershipEnd_fr ..).bounded (by decide +kernel)
  | emitAdmission => exact (execEmitAdmission_fr ..).bounded (by decide +kernel)
  | blockAccepted => exact (execBlockAccepted_fr ..).bounded (by decide +kernel)
  | stagingRecord => exact (execStagingRecord_fr ..).bounded (by decide +kernel)
  | illegalInstruction => exact (execIllegalInstruction_fr ..).bounded (by decide +kernel)
  | imemUeFetch => exact (execImemUeFetch_fr ..).bounded (by decide +kernel)
  | add => exact (execAdd_fr ..).bounded (by decide +kernel)
  | sub => exact (execSub_fr ..).bounded (by decide +kernel)
  | and => exact (execAnd_fr ..).bounded (by decide +kernel)
  | or => exact (execOr_fr ..).bounded (by decide +kernel)
  | xor => exact (execXor_fr ..).bounded (by decide +kernel)
  | sll => exact (execSll_fr ..).bounded (by decide +kernel)
  | srl => exact (execSrl_fr ..).bounded (by decide +kernel)
  | sra => exact (execSra_fr ..).bounded (by decide +kernel)
  | slt => exact (execSlt_fr ..).bounded (by decide +kernel)
  | sltu => exact (execSltu_fr ..).bounded (by decide +kernel)
  | min => exact (execMin_fr ..).bounded (by decide +kernel)
  | max => exact (execMax_fr ..).bounded (by decide +kernel)
  | minu => exact (execMinu_fr ..).bounded (by decide +kernel)
  | maxu => exact (execMaxu_fr ..).bounded (by decide +kernel)
  | mul => exact (execMul_fr ..).bounded (by decide +kernel)
  | mulh => exact (execMulh_fr ..).bounded (by decide +kernel)
  | mulhu => exact (execMulhu_fr ..).bounded (by decide +kernel)
  | divu => exact (execDivu_fr ..).bounded (by decide +kernel)
  | remu => exact (execRemu_fr ..).bounded (by decide +kernel)
  | cmp => exact (execCmp_fr ..).bounded (by decide +kernel)
  | tst => exact (execTst_fr ..).bounded (by decide +kernel)
  | slli => exact (execSlli_fr ..).bounded (by decide +kernel)
  | srli => exact (execSrli_fr ..).bounded (by decide +kernel)
  | srai => exact (execSrai_fr ..).bounded (by decide +kernel)
  | extu => exact (execExtu_fr ..).bounded (by decide +kernel)
  | clz => exact (execClz_fr ..).bounded (by decide +kernel)
  | popc => exact (execPopc_fr ..).bounded (by decide +kernel)
  | adds => exact (execAdds_fr ..).bounded (by decide +kernel)
  | subs => exact (execSubs_fr ..).bounded (by decide +kernel)
  | addi => exact (execAddi_fr ..).bounded (by decide +kernel)
  | andi => exact (execAndi_fr ..).bounded (by decide +kernel)
  | ori => exact (execOri_fr ..).bounded (by decide +kernel)
  | xori => exact (execXori_fr ..).bounded (by decide +kernel)
  | lui => exact (execLui_fr ..).bounded (by decide +kernel)
  | cmpi => exact (execCmpi_fr ..).bounded (by decide +kernel)
  | slti => exact (execSlti_fr ..).bounded (by decide +kernel)
  | lw => exact (execLw_fr ..).bounded (by decide +kernel)
  | sw => exact (execSw_fr ..).bounded (by decide +kernel)
  | vld => exact (execVld_fr ..).bounded (by decide +kernel)
  | vst => exact (execVst_fr ..).bounded (by decide +kernel)
  | vbwl => exact (execVbwl_fr ..).bounded (by decide +kernel)
  | bc => exact (execBc_fr ..).bounded (by decide +kernel)
  | jal => exact (execJal_fr ..).bounded (by decide +kernel)
  | jalr => exact (execJalr_fr ..).bounded (by decide +kernel)
  | vadd => exact (execVadd_fr ..).bounded (by decide +kernel)
  | vsub => exact (execVsub_fr ..).bounded (by decide +kernel)
  | vaddsu => exact (execVaddsu_fr ..).bounded (by decide +kernel)
  | vsubsu => exact (execVsubsu_fr ..).bounded (by decide +kernel)
  | vadds => exact (execVadds_fr ..).bounded (by decide +kernel)
  | vsubs => exact (execVsubs_fr ..).bounded (by decide +kernel)
  | vmul => exact (execVmul_fr ..).bounded (by decide +kernel)
  | vmin => exact (execVmin_fr ..).bounded (by decide +kernel)
  | vmax => exact (execVmax_fr ..).bounded (by decide +kernel)
  | vmins => exact (execVmins_fr ..).bounded (by decide +kernel)
  | vmaxs => exact (execVmaxs_fr ..).bounded (by decide +kernel)
  | vand => exact (execVand_fr ..).bounded (by decide +kernel)
  | vor => exact (execVor_fr ..).bounded (by decide +kernel)
  | vxor => exact (execVxor_fr ..).bounded (by decide +kernel)
  | vcmpeq => exact (execVcmpeq_fr ..).bounded (by decide +kernel)
  | vcmpgtu => exact (execVcmpgtu_fr ..).bounded (by decide +kernel)
  | vcmpgt => exact (execVcmpgt_fr ..).bounded (by decide +kernel)
  | vsel => exact (execVsel_fr ..).bounded (by decide +kernel)
  | vslli => exact (execVslli_fr ..).bounded (by decide +kernel)
  | vsrli => exact (execVsrli_fr ..).bounded (by decide +kernel)
  | vsrai => exact (execVsrai_fr ..).bounded (by decide +kernel)
  | vzxl => exact (execVzxl_fr ..).bounded (by decide +kernel)
  | vzxh => exact (execVzxh_fr ..).bounded (by decide +kernel)
  | vnars => exact (execVnars_fr ..).bounded (by decide +kernel)
  | vsplat => exact (execVsplat_fr ..).bounded (by decide +kernel)
  | vext => exact (execVext_fr ..).bounded (by decide +kernel)
  | vins => exact (execVins_fr ..).bounded (by decide +kernel)
  | vrsum => exact (execVrsum_fr ..).bounded (by decide +kernel)
  | vrmaxu => exact (execVrmaxu_fr ..).bounded (by decide +kernel)
  | vmacc => exact (execVmacc_fr ..).bounded (by decide +kernel)
  | vpidx => exact (execVpidx_fr ..).bounded (by decide +kernel)
  | vcent => exact (execVcent_fr ..).bounded (by decide +kernel)
  | vcoat => exact (execVcoat_fr ..).bounded (by decide +kernel)
  | fsend => exact (execFsend_fr ..).bounded (by decide +kernel)
  | fsendStallEnd => exact (execFsendStallEnd_fr ..).bounded (by decide +kernel)
  | frecvN => exact (execFrecvN_fr ..).bounded (by decide +kernel)
  | frecvW => exact (execFrecvW_fr ..).bounded (by decide +kernel)
  | frecvWComplete => exact (execFrecvWComplete_fr ..).bounded (by decide +kernel)
  | emit => exact (execEmit_fr ..).bounded (by decide +kernel)
  | nop => exact (execNop_fr ..).bounded (by decide +kernel)
  | trap => exact (execTrap_fr ..).bounded (by decide +kernel)
  | tret => exact (execTret_fr ..).bounded (by decide +kernel)
  | aret => exact (execAret_fr ..).bounded (by decide +kernel)
  | fence => exact (execFence_fr ..).bounded (by decide +kernel)
  | rdfl => exact (execRdfl_fr ..).bounded (by decide +kernel)
  | wrfl => exact (execWrfl_fr ..).bounded (by decide +kernel)
  | programBankProcess => exact (execProgramBankProcess_fr ..).bounded (by decide +kernel)
  | tNowUpdate => exact (execTNowUpdate_fr ..).bounded (by decide +kernel)
  | emitterEnable => exact (execEmitterEnable_fr ..).bounded (by decide +kernel)
  | emitterDisable => exact (execEmitterDisable_fr ..).bounded (by decide +kernel)
  | faultClr => exact (execFaultClr_fr ..).bounded (by decide +kernel)
  | shortTest => exact (execShortTest_fr ..).bounded (by decide +kernel)
  | lineTestStep => exact (execLineTestStep_fr ..).bounded (by decide +kernel)
  | lineTestPassEnd => exact (execLineTestPassEnd_fr ..).bounded (by decide +kernel)
  | curveCommit => exact (execCurveCommit_fr ..).bounded (by decide +kernel)
  | curveCommitCopy => exact (execCurveCommitCopy_fr ..).bounded (by decide +kernel)
  | seedMapWrite => exact (execSeedMapWrite_fr ..).bounded (by decide +kernel)
  | sweepSync => exact (execSweepSync_fr ..).bounded (by decide +kernel)
  | chargeCheck => exact (execChargeCheck_fr ..).bounded (by decide +kernel)
  | emFireEdge => exact (execEmFireEdge_fr ..).bounded (by decide +kernel)
  | dacUpdate => exact (execDacUpdate_fr ..).bounded (by decide +kernel)
  | monitorEdge => exact (execMonitorEdge_fr ..).bounded (by decide +kernel)
  | monitorWindowClose => exact (execMonitorWindowClose_fr ..).bounded (by decide +kernel)
  | dischargeComplete => exact (execDischargeComplete_fr ..).bounded (by decide +kernel)
  | disTimeout => exact (execDisTimeout_fr ..).bounded (by decide +kernel)
  | lbWatchEnable => exact (execLbWatchEnable_fr ..).bounded (by decide +kernel)
  | lbWatchDisable => exact (execLbWatchDisable_fr ..).bounded (by decide +kernel)
  | lbStageRise => exact (execLbStageRise_fr ..).bounded (by decide +kernel)
  | lbStageFall => exact (execLbStageFall_fr ..).bounded (by decide +kernel)
  | lbStale => exact (execLbStale_fr ..).bounded (by decide +kernel)
  | helmTick => exact (execHelmTick_fr ..).bounded (by decide +kernel)
  | encoderTransition => exact (execEncoderTransition_fr ..).bounded (by decide +kernel)
  | encoderIndex => exact (execEncoderIndex_fr ..).bounded (by decide +kernel)
  | facetCrossing => exact (execFacetCrossing_fr ..).bounded (by decide +kernel)
  | helmEnable => exact (execHelmEnable_fr ..).bounded (by decide +kernel)
  | helmDisable => exact (execHelmDisable_fr ..).bounded (by decide +kernel)
  | lawCommit => exact (execLawCommit_fr ..).bounded (by decide +kernel)
  | helmFaultClear => exact (execHelmFaultClear_fr ..).bounded (by decide +kernel)
  | traceArm => exact (execTraceArm_fr ..).bounded (by decide +kernel)
  | traceForce => exact (execTraceForce_fr ..).bounded (by decide +kernel)
  | speedRefWrite => exact (execSpeedRefWrite_fr ..).bounded (by decide +kernel)
  | catchMeasureEnd => exact (execCatchMeasureEnd_fr ..).bounded (by decide +kernel)
  | lockAttempt => exact (execLockAttempt_fr ..).bounded (by decide +kernel)
  | unlock => exact (execUnlock_fr ..).bounded (by decide +kernel)
  | lockFlapRelease => exact (execLockFlapRelease_fr ..).bounded (by decide +kernel)
  | handoverEnd => exact (execHandoverEnd_fr ..).bounded (by decide +kernel)
  | standstill => exact (execStandstill_fr ..).bounded (by decide +kernel)
  | brakeTimeout => exact (execBrakeTimeout_fr ..).bounded (by decide +kernel)
  | stall => exact (execStall_fr ..).bounded (by decide +kernel)
  | bridgeFault => exact (execBridgeFault_fr ..).bounded (by decide +kernel)
  | hallFault => exact (execHallFault_fr ..).bounded (by decide +kernel)
  | tiltSense => exact (execTiltSense_fr ..).bounded (by decide +kernel)
  | tiltTrack => exact (execTiltTrack_fr ..).bounded (by decide +kernel)
  | hedgeEncoderCount => exact (execHedgeEncoderCount_fr ..).bounded (by decide +kernel)
  | speedFrameEnd => exact (execSpeedFrameEnd_fr ..).bounded (by decide +kernel)
  | hedgeRelease => exact (execHedgeRelease_fr ..).bounded (by decide +kernel)
  | hedgeRequestChange => exact (execHedgeRequestChange_fr ..).bounded (by decide +kernel)
  | hedgeTiltConversion => exact (execHedgeTiltConversion_fr ..).bounded (by decide +kernel)
  | fovDwellExpiry => exact (execFovDwellExpiry_fr ..).bounded (by decide +kernel)
  | powerCodeEntry => exact (execPowerCodeEntry_fr ..).bounded (by decide +kernel)
  | correctionEntry => exact (execCorrectionEntry_fr ..).bounded (by decide +kernel)
  | energyBucketRoll => exact (execEnergyBucketRoll_fr ..).bounded (by decide +kernel)
  | liReadback => exact (execLiReadback_fr ..).bounded (by decide +kernel)
  | hedgeChannelMismatch => exact (execHedgeChannelMismatch_fr ..).bounded (by decide +kernel)
  | pwmGate => exact (execPwmGate_fr ..).bounded (by decide +kernel)
  | strapReread => exact (execStrapReread_fr ..).bounded (by decide +kernel)
  | limitRecheck => exact (execLimitRecheck_fr ..).bounded (by decide +kernel)
  | sealLock => exact (execSealLock_fr ..).bounded (by decide +kernel)
  | safeRstLowRegistered => exact (execSafeRstLowRegistered_fr ..).bounded (by decide +kernel)
  | safeRstHighRegistered => exact (execSafeRstHighRegistered_fr ..).bounded (by decide +kernel)
  | safeRstStuck => exact (execSafeRstStuck_fr ..).bounded (by decide +kernel)
  | resetPairComplete => exact (execResetPairComplete_fr ..).bounded (by decide +kernel)
  | meridianEnable => exact (execMeridianEnable_fr ..).bounded (by decide +kernel)
  | listenEnd => exact (execListenEnd_fr ..).bounded (by decide +kernel)
  | rtRestart => exact (execRtRestart_fr ..).bounded (by decide +kernel)
  | trigSend => exact (execTrigSend_fr ..).bounded (by decide +kernel)
  | epochDue => exact (execEpochDue_fr ..).bounded (by decide +kernel)
  | pingDue => exact (execPingDue_fr ..).bounded (by decide +kernel)
  | frameLaunch => exact (execFrameLaunch_fr ..).bounded (by decide +kernel)
  | sweepFrame => exact (execSweepFrame_fr ..).bounded (by decide +kernel)
  | epochFrame => exact (execEpochFrame_fr ..).bounded (by decide +kernel)
  | pingFrame => exact (execPingFrame_fr ..).bounded (by decide +kernel)
  | pongLaunch => exact (execPongLaunch_fr ..).bounded (by decide +kernel)
  | pongFrame => exact (execPongFrame_fr ..).bounded (by decide +kernel)
  | pongTimeout => exact (execPongTimeout_fr ..).bounded (by decide +kernel)
  | delayCompute => exact (execDelayCompute_fr ..).bounded (by decide +kernel)
  | delayFrame => exact (execDelayFrame_fr ..).bounded (by decide +kernel)
  | trigFrame => exact (execTrigFrame_fr ..).bounded (by decide +kernel)
  | badFrame => exact (execBadFrame_fr ..).bounded (by decide +kernel)
  | frameApplication => exact (execFrameApplication_fr ..).bounded (by decide +kernel)
  | alignmentAverage => exact (execAlignmentAverage_fr ..).bounded (by decide +kernel)
  | phaseStep => exact (execPhaseStep_fr ..).bounded (by decide +kernel)
  | meridianLost => exact (execMeridianLost_fr ..).bounded (by decide +kernel)
  | captureEnable => exact (execCaptureEnable_fr ..).bounded (by decide +kernel)
  | captureDisable => exact (execCaptureDisable_fr ..).bounded (by decide +kernel)
  | captureShutdownComplete => exact (execCaptureShutdownComplete_fr ..).bounded (by decide +kernel)
  | captureArm => exact (execCaptureArm_fr ..).bounded (by decide +kernel)
  | captureForce => exact (execCaptureForce_fr ..).bounded (by decide +kernel)
  | captureRecordComplete => exact (execCaptureRecordComplete_fr ..).bounded (by decide +kernel)
  | sextantEnable => exact (execSextantEnable_fr ..).bounded (by decide +kernel)
  | sextantDisable => exact (execSextantDisable_fr ..).bounded (by decide +kernel)
  | sextantArm => exact (execSextantArm_fr ..).bounded (by decide +kernel)
  | sextantStartEdge => exact (execSextantStartEdge_fr ..).bounded (by decide +kernel)
  | sextantStopEdge => exact (execSextantStopEdge_fr ..).bounded (by decide +kernel)
  | sextantMeasurementTimeout => exact (execSextantMeasurementTimeout_fr ..).bounded (by decide +kernel)
  | sextantSetComplete => exact (execSextantSetComplete_fr ..).bounded (by decide +kernel)
  | sxtGateEdge => exact (execSxtGateEdge_fr ..).bounded (by decide +kernel)
  | cdtRun => exact (execCdtRun_fr ..).bounded (by decide +kernel)
  | cdtRunComplete => exact (execCdtRunComplete_fr ..).bounded (by decide +kernel)
  | cdtCommit => exact (execCdtCommit_fr ..).bounded (by decide +kernel)
  | adcEnable => exact (execAdcEnable_fr ..).bounded (by decide +kernel)
  | adcDisable => exact (execAdcDisable_fr ..).bounded (by decide +kernel)
  | adcSample => exact (execAdcSample_fr ..).bounded (by decide +kernel)
  | hostUrgentRequest => exact (execHostUrgentRequest_fr ..).bounded (by decide +kernel)
  | urgentSample => exact (execUrgentSample_fr ..).bounded (by decide +kernel)
  | feConfigWrite => exact (execFeConfigWrite_fr ..).bounded (by decide +kernel)
  | settleEnd => exact (execSettleEnd_fr ..).bounded (by decide +kernel)
  | excitationPulseOn => exact (execExcitationPulseOn_fr ..).bounded (by decide +kernel)
  | excitationPulseOff => exact (execExcitationPulseOff_fr ..).bounded (by decide +kernel)
  | currentSwap => exact (execCurrentSwap_fr ..).bounded (by decide +kernel)
  | rangeFlapRelease => exact (execRangeFlapRelease_fr ..).bounded (by decide +kernel)
  | excitationFaultEntry => exact (execExcitationFaultEntry_fr ..).bounded (by decide +kernel)
  | excitationFaultClear => exact (execExcitationFaultClear_fr ..).bounded (by decide +kernel)
  | excFlapRelease => exact (execExcFlapRelease_fr ..).bounded (by decide +kernel)
  | codeDensityItem => exact (execCodeDensityItem_fr ..).bounded (by decide +kernel)
  | rangeZeroItem => exact (execRangeZeroItem_fr ..).bounded (by decide +kernel)
  | spadSurvey => exact (execSpadSurvey_fr ..).bounded (by decide +kernel)
  | planEnd t => exact (execPlanEnd_fr t s).bounded (by decide +kernel)
  | clrField => exact (execClrField_fr ..).bounded (by decide +kernel)
  | rzDriftEntry => exact (execRzDriftEntry_fr ..).bounded (by decide +kernel)
  | rzDriftClear => exact (execRzDriftClear_fr ..).bounded (by decide +kernel)
  | rzFlapRelease => exact (execRzFlapRelease_fr ..).bounded (by decide +kernel)
  | rerunDue => exact (execRerunDue_fr ..).bounded (by decide +kernel)
  | legacyCommit => exact (execLegacyCommit_fr ..).bounded (by decide +kernel)
  | legacyInterpolation => exact (execLegacyInterpolation_fr ..).bounded (by decide +kernel)
  | fuseBurn => exact (execFuseBurn_fr ..).bounded (by decide +kernel)
  | fuseBurnComplete => exact (execFuseBurnComplete_fr ..).bounded (by decide +kernel)
  | journalSave => exact (execJournalSave_fr ..).bounded (by decide +kernel)
  | journalSaveComplete => exact (execJournalSaveComplete_fr ..).bounded (by decide +kernel)
  | sensorConversion => exact (execSensorConversion_fr ..).bounded (by decide +kernel)
  | sensorFail => exact (execSensorFail_fr ..).bounded (by decide +kernel)
  | readmit => exact (execReadmit_fr ..).bounded (by decide +kernel)
  | retire => exact (execRetire_fr ..).bounded (by decide +kernel)
  | thermalIndicatorEntry => exact (execThermalIndicatorEntry_fr ..).bounded (by decide +kernel)
  | thermalIndicatorExit => exact (execThermalIndicatorExit_fr ..).bounded (by decide +kernel)
  | thmFlapRelease => exact (execThmFlapRelease_fr ..).bounded (by decide +kernel)
  | thermalTrip => exact (execThermalTrip_fr ..).bounded (by decide +kernel)
  | thermalTripRelease => exact (execThermalTripRelease_fr ..).bounded (by decide +kernel)
  | compensationUpdate => exact (execCompensationUpdate_fr ..).bounded (by decide +kernel)
  | railMonitorEntry => exact (execRailMonitorEntry_fr ..).bounded (by decide +kernel)
  | railMonitorClear => exact (execRailMonitorClear_fr ..).bounded (by decide +kernel)
  | shadowParityCheck => exact (execShadowParityCheck_fr ..).bounded (by decide +kernel)
  | memoryEnable => exact (execMemoryEnable_fr ..).bounded (by decide +kernel)
  | selfRefreshEntry => exact (execSelfRefreshEntry_fr ..).bounded (by decide +kernel)
  | selfRefreshExit => exact (execSelfRefreshExit_fr ..).bounded (by decide +kernel)
  | selfRefreshEntryComplete => exact (execSelfRefreshEntryComplete_fr ..).bounded (by decide +kernel)
  | selfRefreshExitComplete => exact (execSelfRefreshExitComplete_fr ..).bounded (by decide +kernel)
  | init => exact (execInit_fr ..).bounded (by decide +kernel)
  | initComplete => exact (execInitComplete_fr ..).bounded (by decide +kernel)
  | memoryRequestServed => exact (execMemoryRequestServed_fr ..).bounded (by decide +kernel)
  | requestUrgent => exact (execRequestUrgent_fr ..).bounded (by decide +kernel)
  | panicEntry => exact (execPanicEntry_fr ..).bounded (by decide +kernel)
  | panicExit => exact (execPanicExit_fr ..).bounded (by decide +kernel)
  | refresh => exact (execRefresh_fr ..).bounded (by decide +kernel)
  | refreshRatePoll => exact (execRefreshRatePoll_fr ..).bounded (by decide +kernel)
  | hotspotWindow => exact (execHotspotWindow_fr ..).bounded (by decide +kernel)
  | scrubPassRead => exact (execScrubPassRead_fr ..).bounded (by decide +kernel)
  | mrCommand => exact (execMrCommand_fr ..).bounded (by decide +kernel)
  | mrCommandComplete => exact (execMrCommandComplete_fr ..).bounded (by decide +kernel)
  | trainingSweep => exact (execTrainingSweep_fr ..).bounded (by decide +kernel)
  | trainingSweepComplete => exact (execTrainingSweepComplete_fr ..).bounded (by decide +kernel)
  | configRequest => exact (execConfigRequest_fr ..).bounded (by decide +kernel)
  | bar0Request => exact (execBar0Request_fr ..).bounded (by decide +kernel)
  | bar2Request => exact (execBar2Request_fr ..).bounded (by decide +kernel)
  | pcieReset => exact (execPcieReset_fr ..).bounded (by decide +kernel)
  | linkChange => exact (execLinkChange_fr ..).bounded (by decide +kernel)
  | ethFrameReceived => exact (execEthFrameReceived_fr ..).bounded (by decide +kernel)
  | packetiserRecord => exact (execPacketiserRecord_fr ..).bounded (by decide +kernel)
  | packetSend => exact (execPacketSend_fr ..).bounded (by decide +kernel)
  | flushTimer => exact (execFlushTimer_fr ..).bounded (by decide +kernel)
  | ptpStep => exact (execPtpStep_fr ..).bounded (by decide +kernel)
  | ptpRate => exact (execPtpRate_fr ..).bounded (by decide +kernel)
  | syncSet => exact (execSyncSet_fr ..).bounded (by decide +kernel)
  | syncHoldover => exact (execSyncHoldover_fr ..).bounded (by decide +kernel)
  | ptpSnap => exact (execPtpSnap_fr ..).bounded (by decide +kernel)
  | ptpTsRead => exact (execPtpTsRead_fr ..).bounded (by decide +kernel)
  | losEntry => exact (execLosEntry_fr ..).bounded (by decide +kernel)
  | losExit => exact (execLosExit_fr ..).bounded (by decide +kernel)
  | lolEntry => exact (execLolEntry_fr ..).bounded (by decide +kernel)
  | lolExit => exact (execLolExit_fr ..).bounded (by decide +kernel)
  | laneFlapRelease => exact (execLaneFlapRelease_fr ..).bounded (by decide +kernel)
  | loopbackSelect => exact (execLoopbackSelect_fr ..).bounded (by decide +kernel)
  | txEnable => exact (execTxEnable_fr ..).bounded (by decide +kernel)
  | txDisable => exact (execTxDisable_fr ..).bounded (by decide +kernel)
  | rxEnable => exact (execRxEnable_fr ..).bounded (by decide +kernel)
  | rxDisable => exact (execRxDisable_fr ..).bounded (by decide +kernel)
  | laneShutdownComplete => exact (execLaneShutdownComplete_fr ..).bounded (by decide +kernel)
  | lpiEntry => exact (execLpiEntry_fr ..).bounded (by decide +kernel)
  | lpiWake => exact (execLpiWake_fr ..).bounded (by decide +kernel)
  | mailboxClaim => exact (execMailboxClaim_fr ..).bounded (by decide +kernel)
  | mailboxOwnershipLapse => exact (execMailboxOwnershipLapse_fr ..).bounded (by decide +kernel)
  | mailboxDatagram => exact (execMailboxDatagram_fr ..).bounded (by decide +kernel)
  | fwVersion => exact (execFwVersion_fr ..).bounded (by decide +kernel)
  | serialLo => exact (execSerialLo_fr ..).bounded (by decide +kernel)
  | serialHi => exact (execSerialHi_fr ..).bounded (by decide +kernel)
  | flashRead => exact (execFlashRead_fr ..).bounded (by decide +kernel)
  | updateBegin => exact (execUpdateBegin_fr ..).bounded (by decide +kernel)
  | updateData => exact (execUpdateData_fr ..).bounded (by decide +kernel)
  | updateEnd => exact (execUpdateEnd_fr ..).bounded (by decide +kernel)
  | updateConfirm => exact (execUpdateConfirm_fr ..).bounded (by decide +kernel)
  | i2cXfer => exact (execI2cXfer_fr ..).bounded (by decide +kernel)
  | i2cTransferComplete => exact (execI2cTransferComplete_fr ..).bounded (by decide +kernel)
  | logRead => exact (execLogRead_fr ..).bounded (by decide +kernel)
  | settingsSave => exact (execSettingsSave_fr ..).bounded (by decide +kernel)
  | spiWrite => exact (execSpiWrite_fr ..).bounded (by decide +kernel)
  | spiRead => exact (execSpiRead_fr ..).bounded (by decide +kernel)
  | spiWindow => exact (execSpiWindow_fr ..).bounded (by decide +kernel)
  | spiStatus => exact (execSpiStatus_fr ..).bounded (by decide +kernel)
  | spiBadFrame => exact (execSpiBadFrame_fr ..).bounded (by decide +kernel)
  | startWatchdog => exact (execStartWatchdog_fr ..).bounded (by decide +kernel)
  | failCountExpiry => exact (execFailCountExpiry_fr ..).bounded (by decide +kernel)
  | cdDueRerun => exact (execCdDueRerun_fr ..).bounded (by decide +kernel)
  | slotWriteComplete => exact (execSlotWriteComplete_fr ..).bounded (by decide +kernel)
  | headlandSend => exact (execHeadlandSend_fr ..).bounded (by decide +kernel)
  | headlandConfirm => exact (execHeadlandConfirm_fr ..).bounded (by decide +kernel)
  | headlandOffer => exact (execHeadlandOffer_fr ..).bounded (by decide +kernel)
  | headlandData => exact (execHeadlandData_fr ..).bounded (by decide +kernel)
  | headlandEnd => exact (execHeadlandEnd_fr ..).bounded (by decide +kernel)
  | headlandAck => exact (execHeadlandAck_fr ..).bounded (by decide +kernel)
  | headlandNak => exact (execHeadlandNak_fr ..).bounded (by decide +kernel)
  | headlandAbort => exact (execHeadlandAbort_fr ..).bounded (by decide +kernel)
  | headlandResult => exact (execHeadlandResult_fr ..).bounded (by decide +kernel)
  | headlandConfirmPacket => exact (execHeadlandConfirmPacket_fr ..).bounded (by decide +kernel)
  | headlandResendTimeout => exact (execHeadlandResendTimeout_fr ..).bounded (by decide +kernel)
  | headlandAutoStart => exact (execHeadlandAutoStart_fr ..).bounded (by decide +kernel)
  | logbookEntryProgram => exact (execLogbookEntryProgram_fr ..).bounded (by decide +kernel)
  | eventRaise => exact (execEventRaise_fr ..).bounded (by decide +kernel)
  | pendingClear => exact (execPendingClear_fr ..).bounded (by decide +kernel)
  | eventForce => exact (execEventForce_fr ..).bounded (by decide +kernel)
  | counterConfigWrite => exact (execCounterConfigWrite_fr ..).bounded (by decide +kernel)
  | counterLiveRead => exact (execCounterLiveRead_fr ..).bounded (by decide +kernel)
  | clearAll => exact (execClearAll_fr ..).bounded (by decide +kernel)
  | snap => exact (execSnap_fr ..).bounded (by decide +kernel)
  | snapshotPeriod => exact (execSnapshotPeriod_fr ..).bounded (by decide +kernel)
  | snapshotCopy => exact (execSnapshotCopy_fr ..).bounded (by decide +kernel)
  | preciseSample => exact (execPreciseSample_fr ..).bounded (by decide +kernel)
  | traceRecord => exact (execTraceRecord_fr ..).bounded (by decide +kernel)
  | traceClr => exact (execTraceClr_fr ..).bounded (by decide +kernel)
  | testEnHigh => exact (execTestEnHigh_fr ..).bounded (by decide +kernel)
  | bypass => exact (execBypass_fr ..).bounded (by decide +kernel)
  | idcode => exact (execIdcode_fr ..).bounded (by decide +kernel)
  | samplePreload => exact (execSamplePreload_fr ..).bounded (by decide +kernel)
  | extest => exact (execExtest_fr ..).bounded (by decide +kernel)
  | extestPulse => exact (execExtestPulse_fr ..).bounded (by decide +kernel)
  | extestTrain => exact (execExtestTrain_fr ..).bounded (by decide +kernel)
  | clamp => exact (execClamp_fr ..).bounded (by decide +kernel)
  | highz => exact (execHighz_fr ..).bounded (by decide +kernel)
  | mainPllRelock => exact (execMainPllRelock_fr ..).bounded (by decide +kernel)
  | tillerPllRelock => exact (execTillerPllRelock_fr ..).bounded (by decide +kernel)
  | relockTimeout => exact (execRelockTimeout_fr ..).bounded (by decide +kernel)
  | lineFaultClear => exact (execLineFaultClear_fr ..).bounded (by decide +kernel)
  | lbFlapRelease => exact (execLbFlapRelease_fr ..).bounded (by decide +kernel)
  | panicFlapRelease => exact (execPanicFlapRelease_fr ..).bounded (by decide +kernel)
  | tempFlapRelease => exact (execTempFlapRelease_fr ..).bounded (by decide +kernel)
  | hotFlapRelease => exact (execHotFlapRelease_fr ..).bounded (by decide +kernel)
  | pwmPeriodStart => exact (execPwmPeriodStart_fr ..).bounded (by decide +kernel)
  | startStepComplete => exact (execStartStepComplete_fr ..).bounded (by decide +kernel)
  | frameLeftPort => exact (execFrameLeftPort_fr ..).bounded (by decide +kernel)
  | pcieCompletion => exact (execPcieCompletion_fr ..).bounded (by decide +kernel)
  | settingsSaveComplete => exact (execSettingsSaveComplete_fr ..).bounded (by decide +kernel)

/-- A change of the queue keeps the canonical form. -/
theorem State.canonical_pending (s : State) (l : List Instr) (h : s.canonical) : ({ s with pending := l } : State).canonical := h

theorem State.canonical_wr {s : State} (f : Fld) (v : Nat) (h : s.canonical) : (s.wr f v).canonical :=
  ⟨Tab.wf_set _ _ _ _ h.1, h.2⟩

theorem State.canonical_sxtClosed {s : State} (h : s.canonical) : s.sxtClosed.canonical := by
  unfold State.sxtClosed
  split
  · exact h
  · extract_lets opened dropped
    have hd : dropped.canonical := State.canonical_wr _ _ (State.canonical_wr _ _ h)
    split
    · split
      · exact hd
      · exact (State.sxtArm_fr ..).canon (State.canonical_wr _ _ hd)
    · exact h

theorem step_keeps_canonical {s t : State} (h : s.canonical) (e : step s = .next t) : t.canonical := by
  unfold step at e
  split at e
  · obtain rfl := Host.Outcome.next.inj e
    exact State.canonical_sxtClosed h
  · next c rest _ =>
    obtain ⟨u, hu, hcanon, -⟩ := exec_bounded c { s with pending := rest }
    obtain rfl := Host.Outcome.next.inj (hu.symm.trans e)
    exact hcanon (s.canonical_pending rest h)

/-- Settles O3: the register map and both byte memories of the reset state are empty tables. -/
theorem resetIsCanonical : Obligations.ResetIsCanonical := ⟨rfl, rfl⟩

/-- Settles O4: every command's frame keeps the canonical form, as the shutdown of the sextant on an empty queue does. -/
theorem stepKeepsCanonicalForm : Obligations.StepKeepsCanonicalForm := fun _ _ h e => step_keeps_canonical h e

/-- Settles O5, by the frame of each command. -/
theorem commandsChangeOnlyTheirBounds : Obligations.CommandsChangeOnlyTheirBounds := by
  intro c s t e
  obtain ⟨u, hu, -, hbounds⟩ := exec_bounded c s
  obtain rfl := Host.Outcome.next.inj (hu.symm.trans e)
  exact hbounds

/-- Settles O6: the outcome that the frame of a command describes is a next state. -/
theorem everyCommandAnswers : Obligations.EveryCommandAnswers := by
  intro c s
  obtain ⟨t, ht, -, hparts, -⟩ := exec_bounded c s
  exact ⟨t, ht, hparts.1⟩

end Sys2Proof.Machine
end

section
/-! Two statements that fail, each with a state that shows it: a start edge without an armed set, and a write of OBS_SAT whose own access
saturates a counter. -/

namespace Sys2Proof.Machine

/-- The sextant is enabled and sees every start of its pin, and no set is armed. -/
def unarmedSextant : State := (((State.reset.ready mSTANDBY).put F.SXT_CTRL_EN true).wr F.SXT_CFG_START_SRC 0).wr F.SXT_CFG_GATE_SRC 2

/-- Without an armed set a start that is seen only leaves its instant (R299). -/
theorem execSextantStartEdge_unarmed {s : State} (hs : s.sxtSeesStart = true) (ha : s.on F.SXT_STATUS_ARMED = false) (k : Nat)
    (f : Fin 128) (u : Nat) :
    execSextantStartEdge k f u s = .next (s.sx fun x => { x with decidedAt := u + 1 }) := by
  simp [execSextantStartEdge, hs, ha]

/-- Refutes O47: the clauses on a start edge do not ask for an armed set, and without one a start edge is neither counted by the
prescaler nor begins a measurement. -/
theorem not_sextantMeasurements : ¬ Obligations.SextantMeasurements := by
  rintro ⟨-, -, -, -, -, -, -, -, hstart, -⟩
  have hsees : unarmedSextant.sxtSeesStart = true := by decide +kernel
  have harmed : unarmedSextant.on F.SXT_STATUS_ARMED = false := by decide +kernel
  obtain ⟨t, ht, hsxt, -⟩ := hstart unarmedSextant 0 0 0 hsees (by decide +kernel) ⟨rfl, rfl, by decide +kernel⟩ (by decide +kernel)
  obtain rfl := Host.Outcome.next.inj ((execSextantStartEdge_unarmed hsees harmed 0 0 0).symm.trans ht)
  exact absurd (congrArg Sxt.preStart hsxt) (Nat.succ_ne_self _).symm

/-- Performance counter 0 counts register accesses (group 0, low byte 2) and stands one below its limit; OBS_SAT is clear. -/
def nearlySaturated : State :=
  { ((State.reset.ready mSTANDBY).put F.OBS_CTRL_RUN true).setReg (R.OBS_CNT_CFG 0) 0x80000002 with obs := { cnt := [(0, 2 ^ 48 - 2)] } }

/-- OBS_SAT, all of whose bits clear on a written 1 (R443). -/
def obsSatSpec : RegSpec := ⟨R.OBS_SAT 0, 32, 4, 1, 4, [⟨31, 0, .w1c, 0, []⟩]⟩

/-- A write of 0 to OBS_SAT leaves the bit that the count of this very access has set. -/
theorem reg_regWrite_nearlySaturated : (nearlySaturated.regWrite 0 (R.OBS_SAT 0) 0 0).reg (R.OBS_SAT 0) = 1 := by decide +kernel

theorem findReg_obsSat : findReg (R.OBS_SAT 0) = some (obsSatSpec, 0, 0) := rfl

/-- Refutes O60: the clause on placed fields counts a W1C field from the word before the access, but the access is itself counted, and
where that count saturates its counter the bit of OBS_SAT sets before the write of OBS_SAT takes place. -/
theorem not_resetEndModesAndRegisters : ¬ Obligations.ResetEndModesAndRegisters := by
  rintro ⟨-, -, -, -, -, -, -, -, -, -, -, -, -, -, -, -, -, -, -, -, -, -, -, -, -, -, -, -, -, -, -, -, -, -, -,
    hplaced, -⟩
  obtain ⟨t, ht, -, hfields⟩ := hplaced nearlySaturated 0 (BitVec.ofNat 26 (R.OBS_SAT 0)) 0 0 obsSatSpec 0 0 (by decide +kernel)
    (by decide +kernel) (by decide +kernel) findReg_obsSat (by decide +kernel) (by decide +kernel) (.inl (by decide +kernel))
  obtain rfl := Host.Outcome.next.inj ht
  have hword : Word.field 1 31 0 = Word.field (nearlySaturated.reg (R.OBS_SAT 0) &&& ~~~0) 31 0 :=
    reg_regWrite_nearlySaturated ▸ hfields _ (.head _)
  exact absurd hword (by decide +kernel)

end Sys2Proof.Machine
end

section
/-! What takes the device through RESET, and failed starts (R30, R349, R410, R417, R418, R459). -/

namespace Sys2Proof.Machine

/-! ### What an entry to RESET makes of single fields -/

/-- In RESET the output pads outside the boundary's reach are quiet (R465, Table EL-12). -/
theorem State.pads_quiet {t : State} (h : t.mode = mRESET) :
    t.pads.emCol = none ∧ t.pads.emRow = none ∧ t.pads.emDac = none ∧ t.pads.emFire = none ∧ t.pads.pwm = none
      ∧ t.pads.vhvSet = 0 ∧ t.pads.li = false ∧ t.pads.exc = none ∧ t.pads.tdo = none ∧ t.pads.eth = [] := by
  simp [State.pads, h]

/-- What the hedge shows is a matter of registers and of its own record; other units and the read-back of LI_N keep their state. -/
theorem State.hedgeShow_kept (s : State) :
    s.hedgeShow.boot = s.boot ∧ s.hedgeShow.mem = s.mem ∧ s.hedgeShow.hdg.liBad = s.hdg.liBad := by
  unfold State.hedgeShow
  extract_lets m s1 s2
  have h : s2.boot = s1.boot ∧ s2.mem = s1.mem ∧ s2.hdg.liBad = s1.hdg.liBad := by unfold s2; split <;> exact ⟨rfl, rfl, rfl⟩
  exact h

theorem State.memThrough_cold (s : State) : (s.memThrough false).1.retained = false := by
  simp [State.memThrough]

theorem State.resetBody_boot (s : State) (cause : Nat) (warm : Bool) :
    (s.resetBody cause warm).boot.starting = false ∧ (s.resetBody cause warm).boot.warmStart = warm := by
  simp only [State.resetBody, State.resetCore, (State.hedgeShow_kept _).1]
  exact ⟨rfl, rfl⟩

theorem State.resetBody_retained (s : State) (cause : Nat) : (s.resetBody cause false).mem.retained = false := by
  simp only [State.resetBody, State.resetCore, (State.hedgeShow_kept _).2.1]
  exact s.burnTorn.memThrough_cold

theorem State.resetBody_liBad (s : State) (cause : Nat) (warm : Bool) : (s.resetBody cause warm).hdg.liBad = s.hdg.liBad := by
  simp only [State.resetBody, State.resetCore, (State.hedgeShow_kept _).2.2]
  exact congrArg Hdg.liBad (s.burnTorn_fr.same .hdg (by decide))

theorem State.resetPin_failStep (s : State) : s.resetPin.rd F.BOOT_LAST_RESET_FAIL_STEP = 0 := by
  have hb := (s.resetBody_reset 1 false).2.2
  unfold State.resetPin
  generalize s.resetBody 1 false = x at hb ⊢
  rw [State.rd_wr_apart _ _ _ _ (by decide), State.rd, State.reg_resetRegs _ _ _ _ (by decide),
    State.reg_resetRegs _ _ _ _ (by decide), State.reg_setReg_ne _ _ (by decide)]
  exact hb

/-- After a cold RESET SYS_MODE.WARM reads 0. -/
theorem wasReset.cold_warm {s t : State} (h : wasReset true s t) : t.on F.SYS_MODE_WARM = false := by
  rw [State.on, State.rd, show F.SYS_MODE_WARM.addr = R.SYS_MODE from rfl, h.regs rfl R.SYS_MODE (by decide) (by decide)]
  decide +kernel

/-- RESET_N low and the core reset (R30, R457). -/
theorem State.resetPin_reset (s : State) :
    wasReset true s s.resetPin ∧ s.resetPin.rd F.BOOT_LAST_RESET_CAUSE = 1 ∧ s.resetPin.rd F.BOOT_LAST_RESET_FAIL_STEP = 0 ∧
      s.resetPin.sys.pinLow = true ∧ s.resetPin.on F.SYS_MODE_WARM = false ∧ s.resetPin.boot.warmStart = false ∧
      s.resetPin.reg R.THM_TRIP_REC = 0 ∧ s.resetPin.on F.HDG_STATUS_SEAL_LOCK = false ∧
      s.resetPin.reg R.HDG_HOST_SPEED = resetWord R.HDG_HOST_SPEED ∧ s.resetPin.reg R.HDG_HOST_BUDGET = resetWord R.HDG_HOST_BUDGET := by
  obtain ⟨hreset, hpin, -, hstart, htrip, hcause, hseal, hspeed, hbudget⟩ := s.resetPin_spec
  exact ⟨hreset, hcause, s.resetPin_failStep, hpin, hreset.cold_warm, hstart, htrip, by rw [State.on, hseal]; rfl, hspeed, hbudget⟩

/-! ### TEST_EN -/

theorem wasReset.put {c : Bool} {s t : State} (h : wasReset c s t) (f : Fld) (v : Bool) (k : keptReg f.addr = true)
    (p : Fld.apart f F.HDG_STATUS_LATCH = true) : wasReset c s (t.put f v) := h.wr f _ k p

theorem wasReset.hedgeShow {c : Bool} {s t : State} (h : wasReset c s t) : wasReset c s t.hedgeShow := by
  unfold State.hedgeShow
  extract_lets m s1 s2
  have h1 : wasReset c s s1 := (h.wr _ _ (by decide) (by decide)).hd _
  refine wasReset.put (?_ : wasReset c s s2) _ _ (by decide) (by decide)
  unfold s2
  split
  · exact h1
  · exact h1.hd _

theorem wasReset.setGst {c : Bool} {s t : State} (h : wasReset c s t) (v : Nat) : wasReset c s (t.setGst v) := by
  unfold State.setGst State.setLi
  extract_lets v' lvl
  have hw := h.wr F.HDG_STATUS_STATE v' (by decide) (by decide)
  split
  · exact (hw.hd _).hedgeShow
  · exact hw.put _ _ (by decide) (by decide)

/-- The hedge goes to IDLE, and LI_N low unless its pad disagrees with its drive already (R251, R459). -/
theorem State.setGst_idle (s : State) :
    (s.setGst gIDLE).gst = gIDLE ∧ (s.hdg.liBad = false → (s.setGst gIDLE).on F.HDG_STATUS_LI_LEVEL = false) := by
  refine ⟨by rw [s.setGst_gst gIDLE (by decide), ite_self], fun hb => ?_⟩
  have hv : (if s.sys.testEn then gIDLE else gIDLE) = gIDLE := ite_self _
  rw [State.setGst, hv, State.setLi, if_neg (by simpa using hb), State.on, State.rd_put_self _ _ _ (by decide) (by decide)]
  simp [gIDLE, gRELEASED]

/-- The state that TEST_EN high leaves of `x`, what RESET made of the state before. -/
def State.testHeld (x : State) : State := ((x.sy fun y => { y with testEn := true }).setGst gIDLE).hd fun h => { h with good := 0 }

theorem execTestEnHigh_eq (s : State) : execTestEnHigh s = .next (s.enterReset 1 false).testHeld := rfl

theorem State.testHeld_idle (x : State) :
    x.testHeld.gst = gIDLE ∧ x.testHeld.hdg.good = 0 ∧ (x.hdg.liBad = false → x.testHeld.on F.HDG_STATUS_LI_LEVEL = false) :=
  ⟨(x.sy _).setGst_idle.1, rfl, (x.sy _).setGst_idle.2⟩

theorem State.testHeld_sys (x : State) : x.testHeld.sys = { x.sys with testEn := true } :=
  ((x.sy _).setGst_fr gIDLE).same .sys (by decide)

theorem State.testHeld_reg (x : State) : x.testHeld.reg R.BOOT_LAST_RESET = x.reg R.BOOT_LAST_RESET :=
  ((x.sy _).setGst_fr gIDLE).reg R.BOOT_LAST_RESET (by decide +kernel)

theorem State.testHeld_mode (x : State) : x.testHeld.mode = x.mode :=
  ((x.sy _).setGst_fr gIDLE).rd F.SYS_MODE_MODE (by decide +kernel)

theorem wasReset.testHeld {c : Bool} {s t : State} (h : wasReset c s t) : wasReset c s t.testHeld :=
  ((h.sy _).setGst _).hd _

/-! ### The thermal trip -/

theorem State.foldl_tearFuse_cal (l : List Nat) {s t : State} (hc : t.cal = s.cal) (hf : t.freeIx = s.freeIx) :
    (l.foldl State.tearFuse t).cal = (l.foldl State.tearFuse s).cal := by
  induction l generalizing s t with
  | nil => exact hc
  | cons r l ih =>
    refine ih ?_ ?_
    · change { t.cal with fuse := Tab.set (fun _ => 0) t.cal.fuse r (2 ^ 62 + Config.freeValue t.freeIx % 2 ^ 60) } =
        { s.cal with fuse := Tab.set (fun _ => 0) s.cal.fuse r (2 ^ 62 + Config.freeValue s.freeIx % 2 ^ 60) }
      rw [hc, hf]
    · change t.freeIx + 1 = s.freeIx + 1
      rw [hf]

/-- Which rows a cut burn tears, and how, is a matter of the fuses and the stream of free values alone. -/
theorem State.burnTorn_cal {s t : State} (hc : t.cal = s.cal) (hf : t.freeIx = s.freeIx) : t.burnTorn.cal = s.burnTorn.cal := by
  have hrow (r : Nat) : t.fuseRow r = s.fuseRow r := by simp only [State.fuseRow, hc]
  have hspare : t.freeSpares = s.freeSpares := by simp only [State.freeSpares, hrow]
  unfold State.burnTorn
  rw [hc]
  split
  · exact hc
  · simp only [State.drawFree, hrow, hspare, hf]
    exact State.foldl_tearFuse_cal _ (by exact hc) rfl

/-- A RESET of `u` is one of `s`, where only registers other than the latch differ. -/
theorem wasReset.of_regs {c : Bool} {s u t : State} (h : wasReset c u t) (hc : u.cal = s.cal) (hf : u.freeIx = s.freeIx)
    (hb : u.boot = s.boot) (hl : u.on F.HDG_STATUS_LATCH = s.on F.HDG_STATUS_LATCH) : wasReset c s t :=
  ⟨h.mode, h.raised, h.units, h.fuse.trans (congrArg Cal.fuse (State.burnTorn_cal hc hf)), h.flash.trans (congrArg Boot.flash hb),
    h.latch.trans hl, h.regs⟩

/-- THM_TRIP_REC as a trip of sensor `k` at `v` records it. -/
def State.tripRecorded (s : State) (k : Nat) (v : Int) : State :=
  ((s.wr F.THM_TRIP_REC_VALID 1).wr F.THM_TRIP_REC_SENSOR k).wrS F.THM_TRIP_REC_TEMP v

theorem State.tripRecorded_rd (s : State) (k : Fin 24) (v : Int) :
    (s.tripRecorded k v).on F.THM_TRIP_REC_VALID = true ∧ (s.tripRecorded k v).rd F.THM_TRIP_REC_SENSOR = k.val ∧
      (s.tripRecorded k v).rd F.THM_TRIP_REC_TEMP = (v % 2 ^ 16).toNat := by
  have hlt : (v % 2 ^ 16).toNat < 2 ^ 16 := by omega
  refine ⟨?_, ?_, ?_⟩
  · rw [State.on, State.tripRecorded, State.rd_wrS_apart _ _ _ _ (by decide), State.rd_wr_apart _ _ _ _ (by decide),
      State.rd_wr_self _ _ _ (by decide)]
    rfl
  · rw [State.tripRecorded, State.rd_wrS_apart _ _ _ _ (by decide), State.rd_wr_self _ _ _ (by decide)]
    exact Nat.mod_eq_of_lt (lt_trans k.isLt (by decide))
  · rw [State.tripRecorded, State.wrS, State.rd_wr_self _ _ _ (by decide)]
    exact Nat.mod_eq_of_lt hlt

theorem execThermalTrip_third (s : State) (k : Fin 24) (h : 3 ≤ Tab.get (fun _ => 0) s.thm.tripRun k) :
    execThermalTrip k s =
      .next (((s.tripRecorded k (Tab.get (fun _ => 0) s.thm.last k)).coldReset 4).th fun x => { x with tripHold := true }) := by
  rw [execThermalTrip, if_neg (by omega)]; rfl

theorem execThermalTrip_early (s : State) (k : Fin 24) (h : Tab.get (fun _ => 0) s.thm.tripRun k < 3) :
    execThermalTrip k s = .next s := by
  rw [execThermalTrip, if_pos h]

/-- A cold RESET in any mode: the start that follows is cold, and the trip record stays (R349, R410). -/
theorem State.coldReset_reset (u : State) (cause : Nat) :
    wasReset true u (u.coldReset cause) ∧ (u.coldReset cause).rd F.BOOT_LAST_RESET_CAUSE = cause % 16 ∧
      (u.coldReset cause).rd F.BOOT_LAST_RESET_FAIL_STEP = 0 ∧ (u.coldReset cause).reg R.THM_TRIP_REC = u.reg R.THM_TRIP_REC ∧
      (u.coldReset cause).boot.warmStart = false ∧ (u.coldReset cause).mem.retained = false := by
  obtain ⟨hreset, hcause, hstep⟩ := u.resetBody_reset cause false
  have hrec := (u.resetBody_kept cause false).1
  have hwarm := (u.resetBody_boot cause false).2
  have hmem := u.resetBody_retained cause
  unfold State.coldReset
  generalize u.resetBody cause false = x at *
  exact ⟨hreset.sy _, hcause, hstep, hrec, hwarm, hmem⟩

/-- The third reading at TRIP in a row: a cold RESET in every mode, and the record of the sensor (R349). -/
theorem State.tripRecorded_coldReset (s : State) (k : Fin 24) (v : Int) :
    wasReset true s ((s.tripRecorded k v).coldReset 4) ∧
      ((s.tripRecorded k v).coldReset 4).on F.THM_TRIP_REC_VALID = true ∧
      ((s.tripRecorded k v).coldReset 4).rd F.THM_TRIP_REC_SENSOR = k.val ∧
      ((s.tripRecorded k v).coldReset 4).rd F.THM_TRIP_REC_TEMP = (v % 2 ^ 16).toNat := by
  obtain ⟨hreset, -, -, hrec, -, -⟩ := (s.tripRecorded k v).coldReset_reset 4
  obtain ⟨hvalid, hsensor, htemp⟩ := s.tripRecorded_rd k v
  have hlatch : (s.tripRecorded k v).on F.HDG_STATUS_LATCH = s.on F.HDG_STATUS_LATCH := by
    rw [State.on, State.tripRecorded, State.rd_wrS_apart _ _ _ _ (by decide), State.rd_wr_apart _ _ _ _ (by decide),
      State.rd_wr_apart _ _ _ _ (by decide)]
    rfl
  have hreset' : wasReset true s ((s.tripRecorded k v).coldReset 4) := hreset.of_regs rfl rfl rfl hlatch
  generalize (s.tripRecorded k v).coldReset 4 = x at *
  have hrd (f : Fld) (hf : f.addr = R.THM_TRIP_REC) : x.rd f = (s.tripRecorded k v).rd f := by
    rw [State.rd, State.rd, hf, hrec]
  refine ⟨hreset', ?_, (hrd _ rfl).trans hsensor, (hrd _ rfl).trans htemp⟩
  rw [State.on, hrd _ rfl]
  exact hvalid

/-- What the trip of sensor `k` at `v` leaves: the RESET, its record, and the hold. -/
theorem State.thermalTrip_reset (s : State) (k : Fin 24) (h : 3 ≤ Tab.get (fun _ => 0) s.thm.tripRun k) :
    answers (.thermalTrip k) s fun t =>
      (wasReset true s t ∧ t.rd F.BOOT_LAST_RESET_CAUSE = 4 ∧ t.rd F.BOOT_LAST_RESET_FAIL_STEP = 0) ∧
      (t.on F.THM_TRIP_REC_VALID = true ∧ t.rd F.THM_TRIP_REC_SENSOR = k.val ∧
        t.rd F.THM_TRIP_REC_TEMP = (Tab.get (fun _ => 0) s.thm.last k % 2 ^ 16).toNat ∧ t.thm.tripHold = true) ∧
      t.boot.warmStart = false ∧ t.mem.retained = false := by
  refine ⟨_, execThermalTrip_third s k h, ?_⟩
  obtain ⟨hreset, hvalid, hsensor, htemp⟩ := s.tripRecorded_coldReset k (Tab.get (fun _ => 0) s.thm.last k)
  obtain ⟨-, hcause, hstep, -, hwarm, hmem⟩ := (s.tripRecorded k (Tab.get (fun _ => 0) s.thm.last k)).coldReset_reset 4
  generalize (s.tripRecorded k (Tab.get (fun _ => 0) s.thm.last k)).coldReset 4 = x at *
  exact ⟨⟨hreset.th _, hcause, hstep⟩, ⟨hvalid, hsensor, htemp, rfl⟩, hwarm, hmem⟩

/-! ### Failed starts -/

/-- The failed starts on record, and whether a start runs: what of the boot unit a failed start decides by. -/
def State.startRecord (s : State) : List Nat × Bool := (s.boot.fails, s.boot.starting)

/-- A part of the machine that leaves the boot unit alone keeps the record. -/
theorem Fr.startRecord {m : Nat} {s t : State} (h : Fr m s t) (hm : m.testBit 20 = false) : t.startRecord = s.startRecord := by
  have e : t.boot.rest = s.boot.rest := h.same .boot hm
  have k : (t.boot.rest.fails, t.boot.rest.starting) = (s.boot.rest.fails, s.boot.rest.starting) := by rw [e]
  exact k

theorem State.transition_startRecord (s : State) (m cause : Nat) : (s.transition m cause).startRecord = s.startRecord := by
  unfold State.transition
  extract_lets old runs raised _ derate _ _ source _ _ _ session _ _ _ running awake
  have hraised : raised.startRecord = s.startRecord := (State.raise_fr _ _).startRecord (by decide)
  have hderate : derate.startRecord = raised.startRecord := by unfold derate; split <;> rfl
  have hsource : source.startRecord = derate.startRecord := by unfold source; split <;> rfl
  have hsession : session.startRecord = source.startRecord := by unfold session; split <;> rfl
  have hrunning : running.startRecord = session.startRecord := by
    unfold running
    split
    · split
      · rfl
      · exact (State.merWait_fr _).startRecord (by decide)
    · rfl
  have hawake : awake.startRecord = running.startRecord := by
    unfold awake
    split
    · exact running.memWake_fr.startRecord (by decide)
    · rfl
  calc (awake.showThrottle.waitDac.sxtKeep.settle m cause).startRecord
    _ = awake.showThrottle.waitDac.sxtKeep.startRecord := (State.settle_fr _ _ _).startRecord (by decide)
    _ = awake.showThrottle.waitDac.startRecord := (State.sxtKeep_fr _).startRecord (by decide)
    _ = awake.showThrottle.startRecord := (State.waitDac_fr _).startRecord (by decide)
    _ = awake.startRecord := (State.showThrottle_fr _).startRecord (by decide)
    _ = s.startRecord := by rw [hawake, hrunning, hsession, hsource, hderate, hraised]

theorem State.goMode_startRecord (s : State) (m cause : Nat) : (s.goMode m cause).startRecord = s.startRecord := by
  unfold State.goMode
  extract_lets t
  have ht : t.startRecord = s.startRecord :=
    ((State.helmSettle_fr _).startRecord (by decide)).trans
      (((State.emiSettle_fr _).startRecord (by decide)).trans (s.transition_startRecord m cause))
  split
  · exact (t.sealLock_fr.startRecord (by decide)).trans ht
  · exact ht

theorem State.hdlRelayCut_startRecord (s : State) : s.hdlRelayCut.startRecord = s.startRecord := by
  unfold State.hdlRelayCut
  split
  · split <;> rfl
  · rfl

theorem State.hdlRxCut_startRecord (s : State) : s.hdlRxCut.startRecord = s.startRecord := by
  unfold State.hdlRxCut
  split
  · exact (State.hdlRelayCut_startRecord _).trans ((State.raise_fr _ _).startRecord (by decide))
  · exact s.hdlRelayCut_startRecord

theorem State.hdlCut_startRecord (s : State) : s.hdlCut.startRecord = s.startRecord := by
  unfold State.hdlCut
  extract_lets t
  refine Eq.trans ?_ s.hdlRxCut_startRecord
  split
  · exact (State.raise_fr _ _).startRecord (by decide)
  · rfl

theorem State.enterRecovery_startRecord (s : State) (cause : Nat) : (s.enterRecovery cause).startRecord = (s.boot.fails, false) := by
  unfold State.enterRecovery
  extract_lets t
  have hheld : ((s.goMode mRECOVERY cause).biasHeld).startRecord = s.startRecord :=
    ((State.biasHeld_fr _).startRecord (by decide)).trans (s.goMode_startRecord _ _)
  calc ((t.ethOff 0).ethOff 1).hdlCut.romDram.startRecord
    _ = ((t.ethOff 0).ethOff 1).hdlCut.startRecord := (State.romDram_fr _).startRecord (by decide)
    _ = ((t.ethOff 0).ethOff 1).startRecord := State.hdlCut_startRecord _
    _ = (t.ethOff 0).startRecord := (State.ethOff_fr _ _).startRecord (by decide)
    _ = t.startRecord := (State.ethOff_fr _ _).startRecord (by decide)
    _ = (s.boot.fails, false) := congrArg (fun r : List Nat × Bool => (r.1, false)) hheld

/-- An entry to RECOVERY writes MODE and CAUSE (R31, R425). -/
theorem State.enterRecovery_to (s : State) (cause : Nat) (hc : cause < 32) :
    (s.enterRecovery cause).mode = mRECOVERY ∧ (s.enterRecovery cause).rd F.SYS_MODE_CAUSE = cause := by
  obtain ⟨hmode, -, hcause⟩ := s.goMode_to mRECOVERY cause (by decide) hc
  unfold State.enterRecovery
  extract_lets t
  have hfield (f : Fld) (hb : ∀ x : State, x.biasHeld.rd f = x.rd f)
      (he : ∀ (x : State) e, (x.ethOff e).rd f = x.rd f) (hh : ∀ x : State, x.hdlCut.rd f = x.rd f)
      (hr : ∀ x : State, x.romDram.rd f = x.rd f) :
      ((t.ethOff 0).ethOff 1).hdlCut.romDram.rd f = (s.goMode mRECOVERY cause).rd f := by
    rw [hr, hh, he, he]
    exact hb _
  exact ⟨(hfield F.SYS_MODE_MODE (fun x => x.biasHeld_fr.rd _ (by decide +kernel)) (fun x e => (x.ethOff_fr e).rd _ (by decide +kernel))
      (fun x => x.hdlCut_fr.rd _ (by decide +kernel)) (fun x => x.romDram_fr.rd _ (by decide +kernel))).trans hmode,
    (hfield F.SYS_MODE_CAUSE (fun x => x.biasHeld_fr.rd _ (by decide +kernel)) (fun x e => (x.ethOff_fr e).rd _ (by decide +kernel))
      (fun x => x.hdlCut_fr.rd _ (by decide +kernel)) (fun x => x.romDram_fr.rd _ (by decide +kernel))).trans hcause⟩

/-- The failed starts of the ten minutes before instant `u` (R418). -/
def State.recentFails (s : State) (u : Nat) : List Nat := s.boot.fails.filter fun v => decide (u < v + 600 * 10 ^ 12)

/-- `s` with the failed start of instant `u` on record. -/
def State.failNoted (s : State) (u : Nat) : State :=
  (s.bo fun b => { b with fails := s.recentFails u ++ [u] }).wr F.BOOT_FAIL_COUNT (min 3 (s.recentFails u ++ [u]).length)

/-- What the third failed start leaves before it enters RECOVERY: the start is over, and a plan is closed. -/
def State.startGivenUp (s : State) : State := (s.imageShow.bo fun b => { b with starting := false }).planClose true

theorem State.failStart_again (s : State) (cause u : Nat) (hc : cause ≠ 8) (h : (s.recentFails u).length < 2) :
    s.failStart cause 0 u = ((s.failNoted u).enterReset cause false).wr F.BOOT_LAST_RESET_FAIL_STEP 0 := by
  have hlen : ¬3 ≤ (s.recentFails u ++ [u]).length := by rw [List.length_append, List.length_singleton]; omega
  exact (if_neg hlen).trans (by rw [if_neg hc]; rfl)

theorem State.failStart_third (s : State) (cause u : Nat) (h : 2 ≤ (s.recentFails u).length) :
    s.failStart cause 0 u =
      let t := (s.failNoted u).startGivenUp
      if t.mode = mSAFESTOP then t
      else (if t.mode = mCALIBRATE then t.lastCycle.goMode mSTANDBY 0x0F else t).enterRecovery 0x05 := by
  have hlen : 3 ≤ (s.recentFails u ++ [u]).length := by rw [List.length_append, List.length_singleton]; omega
  exact if_pos hlen

theorem State.failNoted_mode (s : State) (u : Nat) : (s.failNoted u).mode = s.mode :=
  State.rd_wr_apart _ _ _ _ (by decide)

theorem State.failNoted_count (s : State) (u : Nat) :
    (s.failNoted u).rd F.BOOT_FAIL_COUNT = min 3 ((s.recentFails u).length + 1) := by
  rw [State.failNoted, State.rd_wr_self _ _ _ (by decide), List.length_append, List.length_singleton]
  exact Nat.mod_eq_of_lt (lt_of_le_of_lt (Nat.min_le_left _ _) (by decide))

theorem State.startGivenUp_startRecord (s : State) : s.startGivenUp.startRecord = (s.boot.fails, false) :=
  ((State.planClose_fr _ _).startRecord (by decide)).trans
    (congrArg (fun r : List Nat × Bool => (r.1, false)) (s.imageShow_fr.startRecord (by decide)))

theorem State.startGivenUp_rd (s : State) : s.startGivenUp.mode = s.mode ∧ s.startGivenUp.rd F.BOOT_FAIL_COUNT = s.rd F.BOOT_FAIL_COUNT :=
  ⟨((State.planClose_fr _ _).rd F.SYS_MODE_MODE (by decide +kernel)).trans (s.imageShow_fr.rd _ (by decide +kernel)),
    ((State.planClose_fr _ _).rd F.BOOT_FAIL_COUNT (by decide +kernel)).trans (s.imageShow_fr.rd _ (by decide +kernel))⟩

/-- CALIBRATE is left for STANDBY before the ROM takes over; the record of failed starts stays. -/
theorem State.calibrateLeft (t : State) :
    let x := if t.mode = mCALIBRATE then t.lastCycle.goMode mSTANDBY 0x0F else t
    x.startRecord = t.startRecord ∧ x.rd F.BOOT_FAIL_COUNT = t.rd F.BOOT_FAIL_COUNT := by
  split
  · exact ⟨(State.goMode_startRecord _ _ _).trans (t.lastCycle_fr.startRecord (by decide)),
      ((State.goMode_fr _ _ _).rd _ (by decide +kernel)).trans (t.lastCycle_fr.rd _ (by decide +kernel))⟩
  · exact ⟨rfl, rfl⟩

/-- What a failed start of instant `u` with `cause` makes of `s`: it is counted, and resets, or as the third of ten minutes ends in
RECOVERY or stays in SAFE-STOP (R418). -/
def failedStart (cause u : Nat) (s t : State) : Prop :=
  (t.boot.fails = s.recentFails u ++ [u] ∧ t.rd F.BOOT_FAIL_COUNT = min 3 ((s.recentFails u).length + 1)) ∧
    ((s.recentFails u).length < 2 →
      t.mode = mRESET ∧ t.rd F.BOOT_LAST_RESET_CAUSE = cause ∧ t.rd F.BOOT_LAST_RESET_FAIL_STEP = 0 ∧ t.boot.starting = false) ∧
    (2 ≤ (s.recentFails u).length →
      t.boot.starting = false ∧ if s.mode = mSAFESTOP then t.mode = mSAFESTOP else t.mode = mRECOVERY ∧ t.rd F.SYS_MODE_CAUSE = 5)

theorem State.failStart_resets (s : State) (cause u : Nat) (hm : s.mode ≠ mRESET) (hc : cause < 8) (h : (s.recentFails u).length < 2) :
    failedStart cause u s (s.failStart cause 0 u) := by
  rw [s.failStart_again cause u (by omega) h]
  have hm' : (s.failNoted u).mode ≠ mRESET := by rwa [s.failNoted_mode]
  obtain ⟨hreset, hcause, -⟩ := (s.failNoted u).enterReset_reset cause false hm'
  obtain ⟨-, hcount, hfails⟩ := (s.failNoted u).enterReset_kept cause false hm'
  have hstart : ((s.failNoted u).enterReset cause false).boot.starting = false := by
    rw [State.enterReset_eq _ _ _ hm']; exact (State.resetBody_boot _ _ _).1
  have hnoted := s.failNoted_count u
  rw [State.rd, show F.BOOT_FAIL_COUNT.addr = R.BOOT_FAIL from rfl, ← hcount] at hnoted
  generalize (s.failNoted u).enterReset cause false = x at *
  refine ⟨⟨hfails, ?_⟩, fun _ => ⟨?_, ?_, ?_, hstart⟩, fun h2 => absurd h (by omega)⟩
  · rw [State.rd_wr_apart _ _ _ _ (by decide)]; exact hnoted
  · exact (State.rd_wr_apart _ _ _ _ (by decide)).trans hreset.mode
  · rw [State.rd_wr_apart _ _ _ _ (by decide), hcause]; omega
  · rw [State.rd_wr_self _ _ _ (by decide)]; rfl

theorem State.failStart_givesUp (s : State) (cause u : Nat) (h : 2 ≤ (s.recentFails u).length) :
    failedStart cause u s (s.failStart cause 0 u) := by
  rw [s.failStart_third cause u h]
  have hrecord := (s.failNoted u).startGivenUp_startRecord
  obtain ⟨hmode, hcount⟩ := (s.failNoted u).startGivenUp_rd
  rw [s.failNoted_mode] at hmode
  rw [s.failNoted_count] at hcount
  have hfails : (s.failNoted u).boot.fails = s.recentFails u ++ [u] := rfl
  rw [hfails] at hrecord
  generalize (s.failNoted u).startGivenUp = t at *
  rw [State.startRecord, Prod.mk.injEq] at hrecord
  dsimp only
  split
  · next hs =>
    refine ⟨⟨hrecord.1, hcount⟩, fun h1 => absurd h (by omega), fun _ => ⟨hrecord.2, ?_⟩⟩
    rw [if_pos (hmode ▸ hs)]
    exact hs
  · next hs =>
    obtain ⟨hleft, hleftCount⟩ := t.calibrateLeft
    generalize (if t.mode = mCALIBRATE then t.lastCycle.goMode mSTANDBY 0x0F else t) = x at *
    have hrec := x.enterRecovery_startRecord 5
    have hto := x.enterRecovery_to 5 (by decide)
    have hkept : (x.enterRecovery 5).rd F.BOOT_FAIL_COUNT = x.rd F.BOOT_FAIL_COUNT := (x.enterRecovery_fr 5).rd _ (by decide +kernel)
    generalize x.enterRecovery 5 = y at *
    rw [State.startRecord, Prod.mk.injEq] at hrec
    rw [State.startRecord, State.startRecord, Prod.mk.injEq] at hleft
    refine ⟨⟨hrec.1.trans (hleft.1.trans hrecord.1), hkept.trans (hleftCount.trans hcount)⟩, fun h1 => absurd h (by omega),
      fun _ => ⟨hrec.2, ?_⟩⟩
    rw [if_neg (by rwa [← hmode])]
    exact hto

theorem State.failStart_failedStart (s : State) (cause u : Nat) (hm : s.mode ≠ mRESET) (hc : cause < 8) :
    failedStart cause u s (s.failStart cause 0 u) := by
  rcases Nat.lt_or_ge (s.recentFails u).length 2 with h | h
  · exact s.failStart_resets cause u hm hc h
  · exact s.failStart_givesUp cause u h

/-! ### The obligation -/

theorem testEnHigh_resets (s : State) (hm : s.mode ≠ mRESET) :
    answers .testEnHigh s fun t =>
      wasReset true s t ∧ t.rd F.BOOT_LAST_RESET_CAUSE = 1 ∧ t.sys.testEn = true ∧
        (t.gst = gIDLE ∧ t.hdg.good = 0 ∧ (s.hdg.liBad = false → t.on F.HDG_STATUS_LI_LEVEL = false)) := by
  refine ⟨_, execTestEnHigh_eq s, ?_⟩
  obtain ⟨hreset, hcause, -⟩ := s.enterReset_reset 1 false hm
  have hbad : (s.enterReset 1 false).hdg.liBad = s.hdg.liBad := by rw [s.enterReset_eq 1 false hm]; exact s.resetBody_liBad 1 false
  generalize s.enterReset 1 false = x at *
  obtain ⟨hidle, hgood, hlevel⟩ := x.testHeld_idle
  refine ⟨hreset.testHeld, ?_, by rw [x.testHeld_sys], hidle, hgood, fun hb => hlevel (hbad.trans hb)⟩
  rw [State.rd, show F.BOOT_LAST_RESET_CAUSE.addr = R.BOOT_LAST_RESET from rfl, x.testHeld_reg]
  exact hcause

theorem testEnHigh_inReset (s : State) (hm : s.mode = mRESET) :
    answers .testEnHigh s fun t =>
      t.mode = mRESET ∧ t.sys = { s.sys with testEn := true } ∧ t.reg R.BOOT_LAST_RESET = s.reg R.BOOT_LAST_RESET ∧
        t.gst = gIDLE ∧ t.hdg.good = 0 := by
  have hstay : s.enterReset 1 false = s := if_pos hm
  refine ⟨s.testHeld, by rw [exec, execTestEnHigh_eq, hstay], s.testHeld_mode.trans hm, s.testHeld_sys, s.testHeld_reg, ?_⟩
  exact ⟨s.testHeld_idle.1, s.testHeld_idle.2.1⟩

/-- Settles O7: a RESET of each cause is one of the three operations `resetPin`, `enterReset` and `coldReset`, a failed start is
`failStart`, and the rest changes nothing. -/
theorem resetCommandsReset : Obligations.ResetCommandsReset := by
  refine ⟨fun s => ?pads, fun s => ?pin, fun s hm => ?enter, fun s hm => ?stay, fun s k _ h => ?trip, fun s k _ h => ?tripInReset,
    fun s k h => ⟨s, execThermalTrip_early s k h, rfl⟩, fun s u hm hs => ?mismatch, fun s u hm hs => ?failed,
    fun s u hm => ⟨s, congrArg Host.Outcome.next (if_pos hm), rfl⟩, fun s u hs => ⟨s, ?done, rfl⟩⟩
  case pads =>
    have hpads := State.pads_quiet s.resetPin_reset.1.mode
    exact ⟨⟨_, rfl, hpads⟩, ⟨_, rfl, hpads⟩⟩
  case pin => exact ⟨⟨_, rfl, s.resetPin_reset⟩, ⟨_, rfl, s.resetPin_reset⟩⟩
  case enter => exact ⟨testEnHigh_resets s hm, _, rfl, s.enterReset_reset 5 false hm⟩
  case stay => exact ⟨testEnHigh_inReset s hm, s, congrArg Host.Outcome.next (if_pos hm), rfl⟩
  case trip =>
    obtain ⟨t, ht, ⟨hreset, hcause, hstep⟩, hrec, -, -⟩ := s.thermalTrip_reset k h
    exact ⟨t, ht, hreset, hcause, hstep, hrec⟩
  case tripInReset =>
    obtain ⟨t, ht, ⟨hreset, hcause, -⟩, hrec, hwarm, hmem⟩ := s.thermalTrip_reset k h
    exact ⟨t, ht, hrec, hreset.mode, hcause, hwarm, hmem, hreset.raised⟩
  case mismatch =>
    refine ⟨s.enterReset 6 false, ?_, s.enterReset_reset 6 false hm⟩
    rw [exec, execLockstepMismatch, if_neg hm, hs, if_neg Bool.false_ne_true]
  case failed =>
    refine ⟨⟨s.failStart 6 0 u, ?_, s.failStart_failedStart 6 u hm (by decide)⟩,
      ⟨s.failStart 7 0 u, ?_, s.failStart_failedStart 7 u hm (by decide)⟩⟩
    · rw [exec, execLockstepMismatch, if_neg hm, if_pos hs]
    · rw [exec, execStartWatchdog, if_pos hs]
  case done => rw [exec, execStartWatchdog, hs, if_neg Bool.false_ne_true]

end Sys2Proof.Machine
end

section
/-! The step's own equation, and four statements that fail, each with a state that shows it: a relock's end that sets waiting firmware
work going, an orderly stop that meets a training sweep, a speed frame in which a cause was present that ends without one, and a bank
whose header word is poisoned. -/

namespace Sys2Proof.Machine

/-- Settles O1: on a queue that starts with a command, the step is that command's execution on the rest. -/
theorem stepRunsFrontCommand : Obligations.StepRunsFrontCommand := by
  intro c rest s hqueue
  rw [step, hqueue]

/-- The state that an outcome answers; every command has one (O6). -/
def answered (o : Host.Outcome State Fault Refusal) : State :=
  match o with
  | .next t => t
  | _ => State.reset

/-- STANDBY during a relock; a RESET_COLD has waited for DRAM. -/
def resetColdWaits : State :=
  let s := State.reset.ready mSTANDBY
  { s with sys := { s.sys with relock := true }, boot := { s.boot with memJobs := [.cmd ⟨0, 1, 7, 0⟩ 0] } }

/-- SCAN at the end of an orderly stop that is to put DRAM into self-refresh, while a training sweep runs. -/
def stopDuringSweep : State :=
  let s := (((State.reset.ready mSCAN).put F.SYS_MODE_STOPPING true).wr F.MEM_STATUS_STATE 2).put F.MEM_TRN_CTRL_BUSY true
  { s with sys := { s.sys with stopSR := true } }

/-- STANDBY with no cause present at the hedge, in a speed frame in which one was. -/
def afterUnquietFrame : State :=
  let s := State.reset.ready mSTANDBY
  { s with hdg := { s.hdg with limitBad := false, unquiet := true } }

/-- Tiller 0 runs the reference program and has the bank-ready message of bank 1, whose fallow slot opened at instant 1; the header word
that holds the low half of that instant is poisoned. -/
def poisonedHeader : State :=
  let s := (State.reset.ready mSCAN).setBank 1 { State.reset.bank 1 with fallowTs := 1, hcond := [(18434, .poison)] }
  s.onTiller 0 fun x => { x with
    refRuns := true, state := .running, inTrap := false, haltReq := false, candQ := [1], own := some (1, (s.bank 1).pcIndex)
    emitted := false, refActive := 0, dmemCond := [], dmem := [] }

/-- What the model answers from these states: RESET; a controller that stays ACTIVE and serves nothing; no quiet frame, with no cause
present; a block whose first byte is 0. -/
theorem counterexamples_answered :
    (answered (exec (.relockTimeout false true) resetColdWaits)).mode = mRESET ∧
    ((answered (exec .orderlyStopComplete stopDuringSweep)).memState = 2 ∧
      (answered (exec .orderlyStopComplete stopDuringSweep)).memBlocked = true) ∧
    ((answered (exec (.speedFrameEnd 0) afterUnquietFrame)).hdg.quiet = 0 ∧
      (answered (exec (.speedFrameEnd 0) afterUnquietFrame)).presentMask = 0) ∧
    (answered (exec (.programBankProcess 0 0) poisonedHeader)).dbyte 0 0 = 0 := by decide +kernel

/-- Refutes O9: the clause on a relock that only the tiller PLL fails says that the mode stays STANDBY, but DRAM runs again then and
takes up the work that waits for it, and a waiting RESET_COLD enters RESET. -/
theorem not_clockCommandsRun : ¬ Obligations.ClockCommandsRun := by
  rintro ⟨-, -, -, -, -, -, -, -, -, -, -, -, htimeout, -⟩
  obtain ⟨t, ht, -, -, -, -, -, -, hdram, -⟩ := htimeout resetColdWaits false true rfl (by decide) (.inr rfl)
  obtain rfl : answered _ = t := congrArg answered ht
  obtain ⟨-, -, hstandby, -⟩ := hdram rfl
  obtain ⟨hreset, -⟩ := counterexamples_answered
  exact absurd (hreset.symm.trans hstandby) (by decide)

/-- Refutes O10: the clause on an orderly stop with self-refresh says that an ACTIVE controller that serves nothing enters SR_ENTRY, but
one that serves nothing because a training sweep runs stays ACTIVE until the sweep ends. -/
theorem not_powerFailAndStopsRun : ¬ Obligations.PowerFailAndStopsRun := by
  rintro ⟨-, -, -, -, -, hstop, -⟩
  obtain ⟨t, ht, -, -, -, -, -, -, hrefresh⟩ :=
    hstop stopDuringSweep ⟨by decide, by decide, by decide⟩ (by decide)
  obtain rfl : answered _ = t := congrArg answered ht
  obtain ⟨-, hentry⟩ := hrefresh rfl
  obtain ⟨-, ⟨hactive, hblocked⟩, -⟩ := counterexamples_answered
  exact absurd (hactive.symm.trans (hentry ⟨by decide, hblocked⟩)) (by decide)

/-- Refutes O42: the clause on a frame end counts a frame as quiet when no cause is present at its end, but a cause that was present
within the frame ends the count as well. -/
theorem not_hedgeMotion : ¬ Obligations.HedgeMotion := by
  rintro ⟨-, -, -, -, -, hframe, -⟩
  obtain ⟨t, ht, -, -, -, -, -, -, -, hcounted, -⟩ := hframe afterUnquietFrame 0
  obtain rfl : answered _ = t := congrArg answered ht
  obtain ⟨-, -, ⟨hquiet, hpresent⟩, -⟩ := counterexamples_answered
  rw [if_pos hpresent, hquiet] at hcounted
  exact absurd hcounted (by decide)

/-- Refutes O34: the clause on the block that the reference program builds asks for the bank's fallow instant in its first bytes whatever
the header's condition, but the program loads a poisoned header word as 0 (R112). -/
theorem not_fabricBanksAndBlocks : ¬ Obligations.FabricBanksAndBlocks := by
  rintro ⟨-, -, -, -, -, -, -, -, -, -, -, -, -, -, hblock, -⟩
  obtain ⟨t, ht, -, -, -, -, hinstant, -⟩ := hblock poisonedHeader 0 0 1 1 (by decide) (by decide) (by decide) (by decide) (by decide)
    (by decide)
  obtain rfl : answered _ = t := congrArg answered ht
  have hclaimed := List.head_eq_of_cons_eq hinstant
  obtain ⟨-, -, -, hzero⟩ := counterexamples_answered
  exact absurd (hzero.symm.trans hclaimed) (by decide)

end Sys2Proof.Machine
end

section
/-! A mailbox buffer written beyond its 1024 words, which refutes the statement on the mailbox. -/

namespace Sys2Proof.Machine

/-- Whatever was placed before it, the last word placed in the buffer reads back. -/
theorem State.reg_mboxPut_last (s : State) {d : List Byte} {ws : List Word} {w : Word} (hd : leWords d = ws ++ [w]) :
    (s.mboxPut d).reg (R.LNK_MBOX_BUF ws.length) = w := by
  simp [State.mboxPut, hd, List.zipIdx_append, List.foldl_append]

theorem leWords_replicate_append (n : Nat) (a b c d : Byte) :
    leWords (List.replicate (4 * n) 0 ++ [a, b, c, d]) = List.replicate n 0 ++ [BitVec.ofNat 32 (ofBytes [a, b, c, d])] := by
  induction n with
  | zero => rfl
  | succ n ih => simpa [Nat.mul_succ, List.replicate_succ, leWords, ofBytes] using ih

/-- No register outside the buffer's own 4 KiB is a word of it. -/
theorem mboxBuf_ne {a : Nat} (h : a < 0xc04000 ∨ 0xc05000 ≤ a) (i : Nat) : R.LNK_MBOX_BUF i ≠ a := by
  have := Nat.mod_lt i (show 0 < 1024 by decide)
  rw [R.LNK_MBOX_BUF]
  omega

/-- With no command running, the end of a transfer places the bytes read in the buffer, and touches no word of it afterwards. -/
theorem execI2cTransferComplete_buf {s t : State} {x : I2c} (hx : s.lnk.i2c = some x) (hcmd : s.sys.cmd = none) {ix : BitVec 16}
    {data : List Byte} (ht : execI2cTransferComplete 0 ix data s = .next t) (i : Nat) :
    t.reg (R.LNK_MBOX_BUF i) = ((s.i2cSeen x 0 ix.toNat data).mboxPut (data.take x.r)).reg (R.LNK_MBOX_BUF i) := by
  have hkeeps : ((s.i2cSeen x 0 ix.toNat data).mboxPut (data.take x.r)).sys.cmd = none := by
    rw [(State.mboxPut_fr _ _).same .sys (by decide)]
    exact hcmd
  simp only [execI2cTransferComplete, hx] at ht
  obtain rfl := Host.Outcome.next.inj ht
  have hdata : R.LNK_MBOX_BUF i ≠ R.SYS_MBOX_DATA := mboxBuf_ne (.inl (by decide)) i
  have hbusy : R.LNK_MBOX_BUF i ≠ F.LNK_I2C_STATUS_BUSY.addr := mboxBuf_ne (.inl (by decide)) i
  simpa [hkeeps, State.reg_setReg_ne _ _ hdata] using State.reg_wr_ne _ _ 0 _ hbusy

/-- An I2C transfer that reads 4100 bytes runs. -/
def longI2cRead : State := { State.reset with lnk := { State.reset.lnk with i2c := some ⟨0, 0, 0, 4100, []⟩ } }

/-- 4100 bytes that are 0 but for the first of the last word. -/
def longI2cData : List Byte := List.replicate (4 * 1024) 0 ++ [1, 0, 0, 0]

theorem length_longI2cData : longI2cData.length = 4100 := by
  rw [longI2cData, List.length_append, List.length_replicate]
  rfl

/-- The buffer's first word after the transfer is word 1024 of what was read. -/
theorem mboxPut_longI2cData (s : State) : (s.mboxPut longI2cData).reg (R.LNK_MBOX_BUF 0) = 1 := by
  have h := s.reg_mboxPut_last (leWords_replicate_append 1024 1 0 0 0)
  rw [List.length_replicate] at h
  exact h

/-- Refutes O56: the clause on the bytes that an I2C transfer read bounds neither their number nor the transfer's, and the word past the
buffer's 1024 falls on its first one. -/
theorem not_mailboxAndSpi : ¬ Obligations.MailboxAndSpi := by
  rintro ⟨-, -, -, -, -, -, -, -, -, -, -, -, -, -, -, -, -, -, -, -, -, -, -, -, -, hend, -⟩
  obtain ⟨t, ht, -, -, -, -, -, -, -, hbuf⟩ := hend longI2cRead 0 0 longI2cData ⟨0, 0, 0, 4100, []⟩ rfl
  have hclaimed : (t.reg (R.LNK_MBOX_BUF 0)).toNat = 0 := hbuf 0 (by rw [length_longI2cData]; decide)
  have hplaced : t.reg (R.LNK_MBOX_BUF 0) = 1 := by
    rw [execI2cTransferComplete_buf (s := longI2cRead) (ix := 0) (data := longI2cData) rfl rfl ht,
      List.take_of_length_le length_longI2cData.le]
    exact mboxPut_longI2cData _
  rw [hplaced] at hclaimed
  exact absurd hclaimed (by decide)

end Sys2Proof.Machine
end

section
/-! A full power queue at the hedge while a seed reload waits, which refutes the statement on the slots. -/

namespace Sys2Proof.Machine

/-- What does not write the emitter's part leaves it. -/
theorem Fr.emi {w : Nat} {s t : State} (h : Fr w s t) (e : w.testBit Part.emi.bit = false) : t.emi = s.emi := h.same .emi e

/-- Whatever state the emitter takes, its LFSR stays, and so does a seed reload that waits. -/
theorem State.emiSettle_emi (s : State) : s.emiSettle.emi.lfsr = s.emi.lfsr ∧ s.emiSettle.emi.seedReload = s.emi.seedReload := by
  have hidle (u : State) : u.emiIdle.emi.lfsr = u.emi.lfsr ∧ u.emiIdle.emi.seedReload = u.emi.seedReload := ⟨rfl, rfl⟩
  have hwait : s.emiWait.emi = s.emi := ((s.wr F.EMI_STATUS_STATE eWAIT).waitDac_fr).emi (by decide)
  dsimp only [State.emiSettle]
  split_ifs <;> simp [hidle, State.emiDischarge, hwait]

theorem State.goMode_lfsr (s : State) (m cause : Nat) : (s.goMode m cause).emi.lfsr = s.emi.lfsr := by
  have hsettled : (s.transition m cause).emiSettle.helmSettle.emi.lfsr = s.emi.lfsr := by
    rw [(State.helmSettle_fr _).emi (by decide), (State.emiSettle_emi _).1, (State.transition_fr ..).emi (by decide)]
  unfold State.goMode
  split_ifs
  · rw [(State.sealLock_fr _).emi (by decide), hsettled]
  · exact hsettled

theorem State.modeTrip_lfsr (s : State) : s.modeTrip.emi.lfsr = s.emi.lfsr := by
  have hdropped := Fr.ite (c := s.mode = mRECOVERY) s.dropDownload_fr (.refl ..)
  rw [State.modeTrip]
  generalize ite (s.mode = mRECOVERY) _ _ = u at hdropped ⊢
  split_ifs
  · rfl
  · rw [State.goMode_lfsr, (State.stopSuperseded_fr ..).emi (by decide), hdropped.emi (by decide)]

/-- Point cycles come to an end: the LFSR takes a seed for which a reload waits, as it stands after the other boundary samples (R198). -/
theorem State.cyclesStop_lfsr {s : State} (hreload : s.emi.seedReload = true) :
    ∃ u, Fr 0x2020002180000002001cf014000000000000273 s u ∧ s.cyclesStop.emi.lfsr = u.rd F.EMI_SIG_CFG_SEED := by
  have hsampled : s.hisSample.emiSample.emi.seedReload = true := by
    rw [State.emiSample, (State.waitDac_fr _).emi (by decide)]
    exact (congrArg Emi.seedReload (s.hisSample_fr.emi (by decide))).trans hreload
  have hcopied := Fr.ite (c := s.hisSample.emiSample.on F.EMI_STATUS_COMMIT_PENDING = true)
    (State.curveCopy_fr s.hisSample.emiSample) (.refl ..)
  dsimp only [State.cyclesStop]
  rw [(State.detBoundary_fr _).emi (by decide), (State.tdcBoundary_fr _).emi (by decide)]
  generalize ite (s.hisSample.emiSample.on F.EMI_STATUS_COMMIT_PENDING = true) _ _ = u at hcopied ⊢
  have hsame : u.emi.seedReload = true := (congrArg Emi.seedReload (hcopied.emi (by decide))).trans hsampled
  refine ⟨u, ?_, by rw [if_pos hsame]; rfl⟩
  exact .call hcopied (.call (State.emiSample_fr _) (.mono s.hisSample_fr (by decide)) (by decide)) (by decide)

/-- What abandons a point cycle that runs, up to what the end of point cycles does. -/
def State.cycleCut (s : State) : State :=
  let s := s.hs fun h => { h with due := false }
  let b := s.his.active
  let s := s.mapLanes b fun c l =>
    let l := s.finalLane c l
    { l with flags := withBit l.flags 10 true }
  let s := s.forN 192 fun n s => s.dropBlock n (s.bank b) true
  let s := (s.postReady b true false false).capFreeze b
  let s := (s.wr F.HIS_STATUS_RUNNING 0).hs fun h => { h with
    cur := none, prev := none, older := [], last := false, active := 1 - b, deadlinePassed := false }
  s.hisTake

theorem State.abandon_eq {s : State} (hrun : s.running = true) : s.abandon = s.cycleCut.cyclesStop.runEdgeTrip := by
  have hdue (f : His → His) : (s.hs f).running = true := hrun
  rw [State.abandon, hdue, Bool.not_true, if_neg Bool.false_ne_true, State.cycleCut]

theorem State.cycleCut_fr (s : State) :
    Fr 0x1000000000000000000000000000000000000000000000000000000000000c0000000000000000002020002180600006001cf0140000000002081f7 s
      s.cycleCut := by
  refine .call (State.hisTake_fr ..) (.call (State.hs_fr ..) (.wr ?_ (by decide) (.fld .HIS_STATUS_RUNNING rfl (by decide)))
    (by decide)) (by decide)
  refine .call (State.capFreeze_fr ..) (.call (State.postReady_fr ..) (.forN ?_ fun _ _ => ?_) (by decide)) (by decide)
  · exact .call (State.mapLanes_fr ..) (.mono (State.hs_fr ..) (by decide)) (by decide)
  · exact .mono (State.dropBlock_fr ..) (by decide)

theorem State.abandon_lfsr {s : State} (hrun : s.running = true) (hreload : s.emi.seedReload = true) :
    ∃ u, Fr 0x1000000000000000000000000000000000000000000000000000000000000c0000000000000000002020002180600006001cf0140000000002083f7 s u ∧
      s.abandon.emi.lfsr = u.rd F.EMI_SIG_CFG_SEED := by
  have hcut : s.cycleCut.emi = s.emi := s.cycleCut_fr.emi (by decide)
  obtain ⟨u, hu, hlfsr⟩ := State.cyclesStop_lfsr ((congrArg Emi.seedReload hcut).trans hreload)
  refine ⟨u, .call hu (s.cycleCut_fr.mono (by decide)) (by decide), ?_⟩
  rw [State.abandon_eq hrun, (State.runEdgeTrip_fr _).emi (by decide), hlfsr]

/-- What a first trip does before it ends the point cycles: latch, cause, LI_N, emitter and helm (R262). -/
def State.tripHead (s : State) (c : Nat) : State :=
  let s := ((s.wr F.HDG_STATUS_LATCH 1).wr F.HDG_TRIP_CAUSE_FIRST c).addCause c
  let s := (s.setGst gTRIPPED).hd fun h => { h with tripMag := none, fell := false, good := 0 }
  s.voidPair.emiTrip.helmTrip

theorem State.trip_eq {s : State} (c : Nat) (hlatch : s.latched = false) :
    s.trip c = (((s.tripHead c).abandon.modeTrip.bump F.HDG_CNT_TRIP_COUNT 1).raise 432).hedgeShow := by
  rw [State.trip, hlatch, if_neg Bool.false_ne_true, State.tripHead]

theorem State.tripHead_fr (s : State) (c : Nat) : Fr 0x3db78006c4020014040000000000000000000c0000003203 s (s.tripHead c) := by
  refine .call (State.helmTrip_fr ..) (.call (State.emiTrip_fr ..) (.call (State.voidPair_fr ..) ?_ (by decide)) (by decide)) (by decide)
  refine .call (State.hd_fr ..) (.call (State.setGst_fr ..) (.call (State.addCause_fr ..) ?_ (by decide)) (by decide)) (by decide)
  exact .wr (.wr (.refl ..) (by decide) (.fld .HDG_STATUS_LATCH rfl (by decide))) (by decide) (.fld .HDG_TRIP_CAUSE_FIRST rfl (by decide))

theorem State.tripHead_seedReload (s : State) (c : Nat) : (s.tripHead c).emi.seedReload = s.emi.seedReload := by
  rw [State.tripHead, (State.helmTrip_fr _).emi (by decide), State.emiTrip, (State.emiSettle_emi _).2]
  exact congrArg Emi.seedReload (((State.voidPair_fr _).emi (by decide)).trans ((State.setGst_fr _ _).emi (by decide)))

/-- A first trip while point cycles run ends them, and a seed reload that waits takes place. -/
theorem State.trip_lfsr {s : State} (c : Nat) (hlatch : s.latched = false) (hrun : s.running = true)
    (hreload : s.emi.seedReload = true) : (s.trip c).emi.lfsr = s.rd F.EMI_SIG_CFG_SEED := by
  have hruns : (s.tripHead c).running = true := ((s.tripHead_fr c).on _ (by decide +kernel)).trans hrun
  obtain ⟨u, hu, hlfsr⟩ := State.abandon_lfsr hruns ((s.tripHead_seedReload c).trans hreload)
  calc (s.trip c).emi.lfsr
    _ = (s.tripHead c).abandon.emi.lfsr := by
      rw [State.trip_eq c hlatch, (State.hedgeShow_fr _).emi (by decide), State.raise_emi, State.bump_emi, State.modeTrip_lfsr]
    _ = u.rd F.EMI_SIG_CFG_SEED := hlfsr
    _ = (s.tripHead c).rd F.EMI_SIG_CFG_SEED := hu.rd _ (by decide +kernel)
    _ = s.rd F.EMI_SIG_CFG_SEED := (s.tripHead_fr c).rd _ (by decide +kernel)

/-- The state in which a slot's preparation posts its entry to the hedge (R212). -/
def State.preparing (s : State) : State :=
  let s := s.em fun e => { e with lfsr := lfsr8 e.lfsr }
  let s := s.clampCount (bits (s.seedEntry (s.rd F.EMI_STATUS_ACTIVE_BUF) s.emi.ptr) 29 22)
  s.hd fun h => { h with nextId := s.hdg.nextId + 1 }

theorem State.em_lfsr (s : State) {f : Emi → Emi} (hf : ∀ e, (f e).lfsr = e.lfsr) : (s.em f).emi.lfsr = s.emi.lfsr := hf s.emi

theorem State.postPower_full {s : State} (hfull : ¬ s.hdg.queue.length < 8) (e : PowerEntry) : s.postPower e = s.tripTimed 10 2 :=
  if_neg hfull

theorem State.prepare_lfsr_posted (s : State) (kind : SlotKind) (index : Nat) :
    ∃ e, (s.prepare kind index).emi.lfsr = (s.preparing.postPower e).emi.lfsr := by
  rw [State.prepare]
  exact ⟨_, State.em_lfsr _ fun _ => rfl⟩

/-- With the hedge's queue full, the entry trips it instead, and the LFSR is what the trip leaves. -/
theorem State.prepare_lfsr {s : State} (hfull : ¬ s.preparing.hdg.queue.length < 8) (kind : SlotKind) (index : Nat) :
    (s.prepare kind index).emi.lfsr = (s.preparing.tripTimed 10 2).emi.lfsr := by
  obtain ⟨e, he⟩ := s.prepare_lfsr_posted kind index
  rw [he, State.postPower_full hfull]

theorem execSlotPrepare_plough {s : State} {i : Nat} (hrun : s.running = true) (hclock : s.mainStopped = false) (hnone : s.emi.prep = none)
    (hnext : s.nextSlot = some (.plough, i)) : execSlotPrepare s = .next (s.prepare .plough i) := by
  simp [execSlotPrepare, hrun, hclock, hnone, hnext]

/-- SCAN with point cycles running, a seed reload that waits for their end, and a full power queue at the hedge. -/
def fullPowerQueue : State :=
  let s := (State.reset.ready mSCAN).put F.HIS_STATUS_RUNNING true
  { s with emi := { s.emi with seedReload := true }, hdg := { s.hdg with queue := List.replicate 8 (.correction 0) } }

/-- Refutes O32: the clause on a slot's preparation says that the LFSR has taken eight steps, but the ninth entry in the hedge's queue
trips it, the trip ends the point cycles, and a seed reload that waits for their end puts the seed in the LFSR. -/
theorem not_fabricSlots : ¬ Obligations.FabricSlots := by
  rintro ⟨-, -, hprepare, -⟩
  have hrun : fullPowerQueue.running = true := by decide
  have hclock : fullPowerQueue.mainStopped = false := by decide
  have hnext : fullPowerQueue.nextSlot = some (.plough, 0) := by decide
  obtain ⟨t, ht, hsteps, -⟩ := hprepare fullPowerQueue .plough 0 hrun hclock rfl hnext nofun
  obtain rfl := Host.Outcome.next.inj ((execSlotPrepare_plough hrun hclock rfl hnext).symm.trans ht)
  rw [State.prepare_lfsr (by decide), State.tripTimed, State.trip_lfsr _ (by decide) (by decide) (by decide)] at hsteps
  exact absurd hsteps (by decide)

end Sys2Proof.Machine
end

section
/-! A source of edges that a plan has selected but that no boundary has put in force yet (R329), which refutes the statements on
coincidence and on time codes. -/

namespace Sys2Proof.Machine

/-- CALIBRATE with point cycles running, a slot open, the SPADs live, channel 0 at depth 1 and every DLL unlocked; a plan has just selected
the oscillator, so TDC_TEST_CFG.SRC reads 1 while the detector's edges stay in force until the boundary (R329). -/
def oscillatorAwaitsBoundary : State :=
  let s := ((State.reset.ready mCALIBRATE).put F.HIS_STATUS_RUNNING true).put F.TDC_CTRL_ENABLE true
  let s := ((s.put F.DET_STATUS_BIAS_SETTLED true).wr (F.DET_CH_CFG_K_EFF 0) 1).wr F.TDC_STATUS_DLL_LOCK 0
  State.testSrc { s with his := { s.his with cur := some {} } } 1

theorem oscillatorAwaitsBoundary_src : oscillatorAwaitsBoundary.rd F.TDC_TEST_CFG_SRC = 1 := by decide +kernel

/-- The first firing of SPAD 0 of channel 0 gives an edge, and an edge of channel 0 that no detector gave is not converted. -/
theorem oscillatorAwaitsBoundary_answered :
    (answered (exec (.spadFiring 0 0 0) oscillatorAwaitsBoundary)).det.edges = [(0, 1250)] ∧
    (answered (exec (.tdcEdge 0 0 0 0) oscillatorAwaitsBoundary)).tdc.lastEdge = [] := by decide +kernel

/-- Refutes O28: the clause on a firing lets the oscillator stand in the detector's place whenever TDC_TEST_CFG.SRC reads 1, but a plan's
write of SRC takes effect at a boundary only, and until then a firing of a full group gives its edge. -/
theorem not_detectorMasksAndEvents : ¬ Obligations.DetectorMasksAndEvents := by
  rintro ⟨-, -, -, -, -, -, -, -, hfiring, -⟩
  obtain ⟨t, ht, -, -, hedges, -⟩ := hfiring oscillatorAwaitsBoundary 0 0 0 (by decide +kernel) (by decide +kernel) (.inl rfl)
  obtain rfl : answered _ = t := congrArg answered ht
  rw [oscillatorAwaitsBoundary_answered.1, if_neg fun ⟨_, _, _, _, hsrc⟩ => hsrc oscillatorAwaitsBoundary_src] at hedges
  exact absurd hedges (List.cons_ne_nil _ _)

/-- Refutes O30: the clauses on an edge let the oscillator give it whenever TDC_TEST_CFG.SRC reads 1, but a plan's write of SRC takes
effect at a boundary only, and until then an edge that no detector gave does nothing; not even a dead time begins. -/
theorem not_timingEventsAndTables : ¬ Obligations.TimingEventsAndTables := by
  rintro ⟨-, -, -, -, hunlocked, -⟩
  obtain ⟨t, ht, htaken⟩ := hunlocked oscillatorAwaitsBoundary 0 0 0 0 (by decide +kernel) (.inl oscillatorAwaitsBoundary_src)
    (by decide +kernel) (.inl rfl) (by decide +kernel)
  obtain rfl : answered _ = t := congrArg answered ht
  have hdead := congrArg (fun u => u.tdc.lastEdge) htaken
  exact absurd (oscillatorAwaitsBoundary_answered.2.symm.trans hdead) (by decide +kernel)

end Sys2Proof.Machine
end

section
/-! What reads and raises see after a register access and after writes of other fields. -/

namespace Sys2Proof.Machine

/-! ### An access that reaches its block (R27) -/

theorem State.access_of_reaches {s : State} (h : s.reaches) (f : State → State) : s.access s.mainStopped f = f s.accessed := by
  obtain ⟨hmode, hclock⟩ := h
  rw [State.access, if_neg hmode, hclock]
  rfl

theorem State.accessed_det (s : State) : s.accessed.det = s.det := (s.count_fr 0 2 0 1).same .det (by decide)

theorem State.on_accessed (s : State) (f : Fld) (h : obsSat f.addr = false) : s.accessed.on f = s.on f := by
  rw [State.on, State.rd_count _ _ _ _ _ _ h, State.on]

/-! ### Fields -/

theorem State.on_wr_apart (s : State) (f g : Fld) (v : Nat) (h : Fld.apart f g = true) : (s.wr f v).on g = s.on g := by
  rw [State.on, s.rd_wr_apart f g v h, State.on]

theorem State.on_put_apart (s : State) (f g : Fld) (b : Bool) (h : Fld.apart f g = true) : (s.put f b).on g = s.on g :=
  s.on_wr_apart f g _ h

theorem State.on_put_self (s : State) (f : Fld) (b : Bool) (h : f.hi < 32) (h1 : f.lo ≤ f.hi) : (s.put f b).on f = b := by
  rw [State.on, s.rd_put_self f b h h1]
  cases b <;> rfl

theorem State.on_wr_one (s : State) (f : Fld) (h : f.hi < 32) (h1 : f.lo ≤ f.hi) : (s.wr f 1).on f = true := s.on_put_self f true h h1

theorem State.on_wr_zero (s : State) (f : Fld) (h : f.hi < 32) (h1 : f.lo ≤ f.hi) : (s.wr f 0).on f = false := s.on_put_self f false h h1

theorem State.mode_wr_apart (s : State) (f : Fld) (v : Nat) (h : Fld.apart f F.SYS_MODE_MODE = true) : (s.wr f v).mode = s.mode :=
  s.rd_wr_apart f _ v h

theorem State.mode_put_apart (s : State) (f : Fld) (b : Bool) (h : Fld.apart f F.SYS_MODE_MODE = true) : (s.put f b).mode = s.mode :=
  s.mode_wr_apart f _ h

theorem State.rdS_wr_apart (s : State) (f g : Fld) (v : Nat) (h : Fld.apart f g = true) : (s.wr f v).rdS g = s.rdS g := by
  rw [State.rdS, s.rd_wr_apart f g v h, State.rdS]

theorem State.tilHeld_wr_apart (s : State) (f : Fld) (v : Nat) (h : Fld.apart f F.SYS_MODE_MODE = true) :
    (s.wr f v).tilHeld = s.tilHeld := by
  rw [State.tilHeld, s.mode_wr_apart f v h, State.tilHeld]

theorem State.mode_of_not_tilHeld {s : State} (h : s.tilHeld = false) : s.mode ≠ mRESET := by
  rintro hm
  simp [State.tilHeld, hm] at h

/-! ### Raises -/

@[simp] theorem State.on_raiseIf (s : State) (b : Bool) (e : Nat) (f : Fld) : (s.raiseIf b e).on f = s.on f := by
  simp [State.on]

@[simp] theorem State.rdS_raiseIf (s : State) (b : Bool) (e : Nat) (f : Fld) : (s.raiseIf b e).rdS f = s.rdS f := by
  simp [State.rdS]

@[simp] theorem State.mode_raiseIf (s : State) (b : Bool) (e : Nat) : (s.raiseIf b e).mode = s.mode := s.rd_raiseIf b e _

/-- A raise under a condition, outside RESET, of an event that is not reserved. -/
theorem State.raised_raiseIf (s : State) (b : Bool) (e : Nat) (h : s.mode ≠ mRESET) (he : reservedEvent e = false) :
    (s.raiseIf b e).raised = s.raised ++ if b then [e] else [] := by
  cases b
  · exact (List.append_nil _).symm
  · exact s.raised_raise e h he

end Sys2Proof.Machine
end

section
/-! The bias loop, its target and its monitor (R54 to R59, R350). -/

namespace Sys2Proof.Machine

/-! ### Ramp and quenching (R57, R58) -/

theorem State.biasEnable_on {s : State} (h : s.on F.DET_CTRL_BIAS_EN = true) : s.biasEnable = s := if_pos h

/-- BIAS_EN set: the ramp starts from the measured VSPAD. -/
theorem State.biasEnable_ramp {s : State} (h : s.on F.DET_CTRL_BIAS_EN = false) :
    s.biasEnable.on F.DET_CTRL_BIAS_EN = true ∧ s.biasEnable.on F.DET_STATUS_BIAS_SETTLED = false ∧
      s.biasEnable.rd F.DET_BIAS_TARGET_TARGET = s.rd F.DET_BIAS_STATUS_VSPAD_MEAS ∧
      s.biasEnable.det = { s.det with ramping := true } := by
  have hmeas := Nat.mod_eq_of_lt (s.rd_lt F.DET_BIAS_STATUS_VSPAD_MEAS)
  rw [State.biasEnable, if_neg (by simp [h])]
  refine ⟨?_, ?_, ?_, rfl⟩
  · simp (disch := decide) [State.on_wr_apart, State.on_wr_one]
  · simp (disch := decide) [State.on_wr_apart, State.on_wr_zero]
  · rw [State.rd_mk, State.rd_wr_self _ _ _ (by decide)]
    exact hmeas

/-- Each monitor bit that the flapping latch does not hold is clear. -/
theorem State.clearMonitor_spec (s : State) :
    s.clearMonitor.on F.DET_STATUS_BIAS_LOW = (s.on F.DET_STATUS_BIAS_LOW && s.det.latched.testBit 0) ∧
      s.clearMonitor.on F.DET_STATUS_BIAS_HIGH = (s.on F.DET_STATUS_BIAS_HIGH && s.det.latched.testBit 1) := by
  simp (disch := decide) [State.clearMonitor, State.on_put_apart, State.on_put_self]

/-- The clearing of the monitor leaves every field apart from its two bits. -/
theorem State.rd_clearMonitor (s : State) (f : Fld) (hl : Fld.apart F.DET_STATUS_BIAS_LOW f = true)
    (hh : Fld.apart F.DET_STATUS_BIAS_HIGH f = true) : s.clearMonitor.rd f = s.rd f := by
  rw [State.clearMonitor, State.rd_put_apart _ _ _ _ hh, State.rd_put_apart _ _ _ _ hl]

theorem State.on_clearMonitor (s : State) (f : Fld) (hl : Fld.apart F.DET_STATUS_BIAS_LOW f = true)
    (hh : Fld.apart F.DET_STATUS_BIAS_HIGH f = true) : s.clearMonitor.on f = s.on f := by
  rw [State.on, s.rd_clearMonitor f hl hh, State.on]

theorem State.biasDisable_spec (s : State) :
    s.biasDisable.on F.DET_CTRL_BIAS_EN = false ∧ s.biasDisable.on F.DET_STATUS_BIAS_SETTLED = false ∧
      s.biasDisable.rd F.DET_BIAS_STATUS_VHV_SET_CODE = 0 ∧ s.biasDisable.det = { s.det with ramping := false } ∧
      s.biasDisable.on F.DET_STATUS_BIAS_LOW = (s.on F.DET_STATUS_BIAS_LOW && s.det.latched.testBit 0) ∧
      s.biasDisable.on F.DET_STATUS_BIAS_HIGH = (s.on F.DET_STATUS_BIAS_HIGH && s.det.latched.testBit 1) := by
  unfold State.biasDisable
  extract_lets x
  obtain ⟨hlow, hhigh⟩ := State.clearMonitor_spec { x with det := { x.det with ramping := false } }
  refine ⟨?_, ?_, ?_, rfl, hlow.trans ?_, hhigh.trans ?_⟩
  · simp (disch := decide) [x, State.on_clearMonitor, State.on_wr_apart, State.on_wr_zero]
  · simp (disch := decide) [x, State.on_clearMonitor, State.on_wr_zero]
  · simp (disch := decide) [x, State.rd_clearMonitor, State.rd_wr_apart, State.rd_wr_self]
  · simp (disch := decide) [x, State.on_wr_apart]
  · simp (disch := decide) [x, State.on_wr_apart]

/-- The latch is released and its history empty; the monitor bits stand as they stood. -/
def State.flapReleased (s : State) : State :=
  { s.wr F.DET_STATUS_BIAS_FLAP 0 with det := { s.det with latched := 0, entries := [] } }

theorem State.biasFlapRelease_eq (s : State) :
    s.biasFlapRelease = if s.flapReleased.on F.DET_STATUS_BIAS_SETTLED then s.flapReleased else s.flapReleased.clearMonitor := rfl

theorem State.on_flapReleased (s : State) (f : Fld) (h : Fld.apart F.DET_STATUS_BIAS_FLAP f = true) :
    s.flapReleased.on f = s.on f := s.on_wr_apart _ f 0 h

/-- After the release a monitor bit stands only while the monitor is active. -/
theorem State.biasFlapRelease_spec (s : State) :
    s.biasFlapRelease.on F.DET_STATUS_BIAS_FLAP = false ∧ s.biasFlapRelease.det = { s.det with latched := 0, entries := [] } ∧
      s.biasFlapRelease.on F.DET_STATUS_BIAS_HIGH = (s.on F.DET_STATUS_BIAS_HIGH && s.on F.DET_STATUS_BIAS_SETTLED) ∧
      s.biasFlapRelease.on F.DET_STATUS_BIAS_LOW = (s.on F.DET_STATUS_BIAS_LOW && s.on F.DET_STATUS_BIAS_SETTLED) := by
  have hflap : s.flapReleased.on F.DET_STATUS_BIAS_FLAP = false := s.on_wr_zero _ (by decide) (by decide)
  obtain ⟨hlow, hhigh⟩ := s.flapReleased.clearMonitor_spec
  rw [s.biasFlapRelease_eq, s.on_flapReleased _ (by decide)]
  split
  · next hsettled =>
    rw [hsettled, Bool.and_true, Bool.and_true]
    exact ⟨hflap, rfl, s.on_flapReleased _ (by decide), s.on_flapReleased _ (by decide)⟩
  · next hsettled =>
    rw [Bool.eq_false_of_not_eq_true hsettled, Bool.and_false, Bool.and_false, hlow, hhigh,
      State.on_clearMonitor _ _ (by decide) (by decide)]
    have hlatch (i : Nat) : s.flapReleased.det.latched.testBit i = false := Nat.zero_testBit i
    exact ⟨hflap, rfl, by rw [hlatch, Bool.and_false], by rw [hlatch, Bool.and_false]⟩

theorem execBiasSettled_unsettled {s : State}
    (h : s.on F.DET_CTRL_BIAS_EN = false ∨ s.det.ramping = false ∨ s.tilHeld = true ∨
      ¬((s.rd F.DET_BIAS_STATUS_VSPAD_MEAS : Int) - s.det.vTarget).natAbs ≤ 100) : execBiasSettled s = .next s := by
  rw [execBiasSettled, State.vspadOver, if_neg]
  rintro hall
  simp only [Bool.and_eq_true, Bool.not_eq_true', decide_eq_true_eq] at hall
  obtain ⟨⟨⟨hen, hramp⟩, hheld⟩, hnear⟩ := hall
  simp [hen, hramp, hheld, hnear] at h

theorem biasSettled_settles {s : State} (hen : s.on F.DET_CTRL_BIAS_EN = true) (hramp : s.det.ramping = true) (hheld : s.tilHeld = false)
    (hnear : ((s.rd F.DET_BIAS_STATUS_VSPAD_MEAS : Int) - s.det.vTarget).natAbs ≤ 100) :
    answers .biasSettled s fun t =>
      t.on F.DET_STATUS_BIAS_SETTLED = true ∧ t.det = { s.det with ramping := false } ∧ 71 ∈ t.raised := by
  refine ⟨_, congrArg Host.Outcome.next (if_pos ?_), ?_, ?_, ?_⟩
  · simp [hen, hramp, hheld, State.vspadOver, hnear]
  · simp (disch := decide) [State.on_wr_one]
  · simp
  · have hmode : (s.wr F.DET_STATUS_BIAS_SETTLED 1).mode ≠ mRESET := by
      rw [s.mode_wr_apart _ _ (by decide)]; exact State.mode_of_not_tilHeld hheld
    rw [State.raised_raise _ _ (by exact hmode) (by decide)]
    exact List.mem_append_right _ (List.mem_singleton_self _)

/-! ### The loop (R57) -/

theorem clip_nonneg {lo hi : Int} (hlo : 0 ≤ lo) (hhi : 0 ≤ hi) (v : Int) : 0 ≤ clip lo hi v := by
  unfold clip
  split_ifs <;> omega

theorem clip_le {lo hi : Int} (h : lo ≤ hi) (v : Int) : clip lo hi v ≤ hi := by
  unfold clip
  split_ifs <;> omega

/-- A step limited to `k` toward a goal ends between where it began and the goal. -/
theorem limitedStep_between {old goal k : Int} (hk : 0 ≤ k) :
    min old goal ≤ old + clip (-k) k (goal - old) ∧ old + clip (-k) k (goal - old) ≤ max old goal := by
  unfold clip
  split_ifs <;> omega

/-- A field reads what was written in two's complement, where it is a code of the field. -/
theorem State.rd_wrS_self (s : State) (f : Fld) (v : Int) (h : f.hi < 32) (h0 : 0 ≤ v) (h1 : v < (2 ^ (f.hi + 1 - f.lo) : Nat)) :
    ((s.wrS f v).rd f : Int) = v := by
  have hlt : v.toNat < 2 ^ (f.hi + 1 - f.lo) := (Int.toNat_lt h0).2 h1
  rw [State.wrS, s.rd_wr_self f _ h, unsigned, Int.emod_eq_of_lt h0 h1, Nat.mod_eq_of_lt hlt, Int.toNat_of_nonneg h0]

theorem execBiasLoopUpdate_idle {s : State} (meas : Nat) (h : s.on F.DET_CTRL_BIAS_EN = false ∨ s.tilHeld = true) :
    execBiasLoopUpdate meas s = .next (s.wr F.DET_BIAS_STATUS_VSPAD_MEAS meas) := by
  have hen := s.on_wr_apart F.DET_BIAS_STATUS_VSPAD_MEAS F.DET_CTRL_BIAS_EN meas (by decide)
  have hheld := s.tilHeld_wr_apart F.DET_BIAS_STATUS_VSPAD_MEAS meas (by decide)
  rw [execBiasLoopUpdate, if_neg]
  rw [hen, hheld]
  rcases h with h | h <;> simp [h]

/-- The target that a loop update makes of the present one. -/
def State.loopTarget (s : State) : Int :=
  s.rd F.DET_BIAS_TARGET_TARGET + clip (-(50 * s.rd F.DET_BIAS_CFG_SLEW)) (50 * s.rd F.DET_BIAS_CFG_SLEW)
    ((s.det.vTarget : Int) - s.rd F.DET_BIAS_TARGET_TARGET)

/-- The code of VHV_SET that a loop update makes of the present one. -/
def State.loopCode (s : State) : Int :=
  clip 0 4095 (s.rd F.DET_BIAS_STATUS_VHV_SET_CODE + divRound (s.loopTarget - s.rd F.DET_BIAS_STATUS_VSPAD_MEAS) 16)

theorem State.loopTarget_code {s : State} (h : s.det.vTarget < 65536) : 0 ≤ s.loopTarget ∧ s.loopTarget < 65536 := by
  have hold : s.rd F.DET_BIAS_TARGET_TARGET < 65536 := s.rd_lt F.DET_BIAS_TARGET_TARGET
  have hstep := limitedStep_between (old := s.rd F.DET_BIAS_TARGET_TARGET) (goal := s.det.vTarget)
    (k := 50 * s.rd F.DET_BIAS_CFG_SLEW) (by omega)
  rw [State.loopTarget]
  omega

theorem State.loopCode_code (s : State) : 0 ≤ s.loopCode ∧ s.loopCode < 4096 :=
  ⟨clip_nonneg (by decide) (by decide) _, Int.lt_of_le_of_lt (clip_le (by decide) _) (by decide)⟩

/-- What a loop update makes of `s`, once it has measured VSPAD. -/
def State.loopMoved (s : State) : State :=
  (s.wrS F.DET_BIAS_TARGET_TARGET s.loopTarget).wr F.DET_BIAS_STATUS_VHV_SET_CODE s.loopCode.toNat

theorem execBiasLoopUpdate_moves {s : State} (meas : Nat) (hen : s.on F.DET_CTRL_BIAS_EN = true) (hheld : s.tilHeld = false) :
    execBiasLoopUpdate meas s = .next (s.wr F.DET_BIAS_STATUS_VSPAD_MEAS meas).loopMoved := by
  rw [execBiasLoopUpdate, if_pos]
  · rfl
  · rw [s.on_wr_apart _ _ _ (by decide), s.tilHeld_wr_apart _ _ (by decide), hen, hheld]
    rfl

theorem State.loopMoved_spec {s : State} (h : s.det.vTarget < 65536) :
    (s.loopMoved.rd F.DET_BIAS_TARGET_TARGET : Int) = s.loopTarget ∧
      (s.loopMoved.rd F.DET_BIAS_STATUS_VHV_SET_CODE : Int) = s.loopCode ∧
      s.loopMoved.rd F.DET_BIAS_STATUS_VSPAD_MEAS = s.rd F.DET_BIAS_STATUS_VSPAD_MEAS := by
  obtain ⟨htarget, htarget'⟩ := s.loopTarget_code h
  obtain ⟨hcode, hcode'⟩ := s.loopCode_code
  refine ⟨?_, ?_, ?_⟩
  · rw [State.loopMoved, State.rd_wr_apart _ _ _ _ (by decide)]
    exact s.rd_wrS_self _ _ (by decide) htarget htarget'
  · rw [State.loopMoved, State.rd_wr_self _ _ _ (by decide)]
    change ((s.loopCode.toNat % 4096 : Nat) : Int) = s.loopCode
    omega
  · rw [State.loopMoved, State.rd_wr_apart _ _ _ _ (by decide), State.rd_wrS_apart _ _ _ _ (by decide)]

theorem biasLoopUpdate_moves {s : State} (meas : Nat) (hen : s.on F.DET_CTRL_BIAS_EN = true) (hheld : s.tilHeld = false)
    (hgoal : s.det.vTarget < 65536) :
    answers (.biasLoopUpdate meas) s fun t =>
      t.rd F.DET_BIAS_STATUS_VSPAD_MEAS = meas % 65536 ∧
      (t.rd F.DET_BIAS_TARGET_TARGET : Int) = s.rd F.DET_BIAS_TARGET_TARGET + clip (-50 * s.rd F.DET_BIAS_CFG_SLEW)
        (50 * s.rd F.DET_BIAS_CFG_SLEW) ((s.det.vTarget : Int) - s.rd F.DET_BIAS_TARGET_TARGET) ∧
      (t.rd F.DET_BIAS_STATUS_VHV_SET_CODE : Int) = clip 0 4095 (s.rd F.DET_BIAS_STATUS_VHV_SET_CODE +
        divRound ((t.rd F.DET_BIAS_TARGET_TARGET : Int) - t.rd F.DET_BIAS_STATUS_VSPAD_MEAS) 16) := by
  obtain ⟨htarget, hcode, hmeas⟩ := State.loopMoved_spec (s := s.wr F.DET_BIAS_STATUS_VSPAD_MEAS meas) hgoal
  refine ⟨_, execBiasLoopUpdate_moves meas hen hheld, ?_, ?_, ?_⟩
  · rw [hmeas, State.rd_wr_self _ _ _ (by decide)]; rfl
  · rw [htarget, State.loopTarget, State.rd_wr_apart _ _ _ _ (by decide), State.rd_wr_apart _ _ _ _ (by decide), neg_mul]; rfl
  · rw [hcode, hmeas, htarget, State.loopCode, State.rd_wr_apart _ _ F.DET_BIAS_STATUS_VHV_SET_CODE _ (by decide)]

/-! ### The target (R55, R56, R350) -/

/-- The field of a 16-bit code reads, in two's complement, what was written into it so. -/
theorem State.rdS_wrS_self (s : State) (f : Fld) (v : Int) (h : f.hi < 32) (hw : f.hi + 1 - f.lo = 16) :
    (s.wrS f v).rdS f = (BitVec.ofInt 16 v).toInt := by
  rw [State.rdS, State.wrS, s.rd_wr_self f _ h, hw, BitVec.toInt_ofInt]
  simp only [signed, unsigned, Int.bmod]
  split_ifs <;> omega

/-- V_target of R55 before it is clamped, with the detector at `tdet`. -/
def State.biasWish (s : State) (tdet : Int) : Int :=
  s.rd F.DET_BIAS_VBD_VBD0 + (if s.on F.DET_BIAS_CFG_TRACK_EN then divRound (s.rd F.DET_BIAS_TC_TC * (tdet - 250)) 100 else 0) +
    20 * s.rd F.DET_BIAS_CFG_VEX

/-- V_target of R55, with the detector at `tdet`. -/
def State.biasClamped (s : State) (tdet : Int) : Int :=
  clip (50 * s.rd F.DET_BIAS_LIM_VMIN) (50 * s.rd F.DET_BIAS_LIM_VMAX) (s.biasWish tdet)

theorem State.biasClamped_nonneg (s : State) (tdet : Int) : 0 ≤ s.biasClamped tdet := clip_nonneg (by omega) (by omega) _

/-- A recompute's first half: T_det follows the median of the valid sensors, unless it is stale. -/
def State.tdetTaken (s : State) : State :=
  let stale := decide ((s.okReadings 0 8).length < 3) || s.det.tempOld
  let x := (s.put F.DET_STATUS_TEMP_STALE stale).raiseIf (stale && !s.on F.DET_STATUS_TEMP_STALE) 68
  if stale then x else x.wrS F.DET_BIAS_TARGET_TDET (median (s.okReadings 0 8))

/-- A recompute's second half: V_target for T_det as it stands, and its clamp. -/
def State.targetTaken (s : State) : State :=
  let v := s.biasClamped (s.rdS F.DET_BIAS_TARGET_TDET)
  let lim := decide (v ≠ s.biasWish (s.rdS F.DET_BIAS_TARGET_TDET))
  let x := ((s.put F.DET_STATUS_BIAS_LIMIT lim).raiseIf (lim && !s.on F.DET_STATUS_BIAS_LIMIT) 66).trimClamped lim
  { x with det := { x.det with vTarget := v.toNat } }


theorem execBiasTargetRecompute_eq (s : State) : execBiasTargetRecompute s = .next s.tdetTaken.targetTaken := by
  unfold execBiasTargetRecompute
  extract_lets ok stale s1 s2 drift v c lim s3
  have hs2 : s2 = s.tdetTaken := by unfold State.tdetTaken; with_reducible rfl
  have hv : v = s2.biasWish (s2.rdS F.DET_BIAS_TARGET_TDET) := by unfold State.biasWish; with_reducible rfl
  have hc : c = s2.biasClamped (s2.rdS F.DET_BIAS_TARGET_TDET) := by unfold State.biasClamped; rw [← hv]
  unfold State.targetTaken
  rw [← hs2, ← hc, ← hv]

theorem State.tdetTaken_fresh {s : State} (hok : 3 ≤ (s.okReadings 0 8).length) (hnew : s.det.tempOld = false) :
    s.tdetTaken = (s.put F.DET_STATUS_TEMP_STALE false).wrS F.DET_BIAS_TARGET_TDET (median (s.okReadings 0 8)) := by
  have hstale : (decide ((s.okReadings 0 8).length < 3) || s.det.tempOld) = false := by simp [hnew, hok]
  simp only [State.tdetTaken, hstale, Bool.false_and, State.raiseIf, Bool.false_eq_true, if_false]

theorem State.tdetTaken_stale {s : State} (h : (s.okReadings 0 8).length < 3 ∨ s.det.tempOld = true) :
    s.tdetTaken = (s.put F.DET_STATUS_TEMP_STALE true).raiseIf (!s.on F.DET_STATUS_TEMP_STALE) 68 := by
  have hstale : (decide ((s.okReadings 0 8).length < 3) || s.det.tempOld) = true := by simpa using h
  simp only [State.tdetTaken, hstale, Bool.true_and, if_true]

/-- The first half writes TEMP_STALE and T_det alone. -/
theorem State.rd_tdetTaken (s : State) (f : Fld) (hs : Fld.apart F.DET_STATUS_TEMP_STALE f = true)
    (ht : Fld.apart F.DET_BIAS_TARGET_TDET f = true) : s.tdetTaken.rd f = s.rd f := by
  unfold State.tdetTaken
  extract_lets stale x
  have hx : x.rd f = s.rd f := (State.rd_raiseIf ..).trans (s.rd_put_apart _ f _ hs)
  split
  · exact hx
  · exact (State.rd_wrS_apart _ _ _ _ ht).trans hx

theorem State.on_tdetTaken (s : State) (f : Fld) (hs : Fld.apart F.DET_STATUS_TEMP_STALE f = true)
    (ht : Fld.apart F.DET_BIAS_TARGET_TDET f = true) : s.tdetTaken.on f = s.on f := by
  rw [State.on, s.rd_tdetTaken f hs ht, State.on]

theorem State.tdetTaken_thm (s : State) : s.tdetTaken.thm = s.thm := by
  unfold State.tdetTaken
  extract_lets stale x
  have hx : x.thm = s.thm := State.raiseIf_thm ..
  split <;> exact hx

/-- The settings that the target follows are no part of the first half. -/
theorem State.biasWish_tdetTaken (s : State) (tdet : Int) : s.tdetTaken.biasWish tdet = s.biasWish tdet := by
  rw [State.biasWish, s.on_tdetTaken _ (by decide) (by decide), s.rd_tdetTaken _ (by decide) (by decide),
    s.rd_tdetTaken _ (by decide) (by decide), s.rd_tdetTaken _ (by decide) (by decide), State.biasWish]

theorem State.biasClamped_tdetTaken (s : State) (tdet : Int) : s.tdetTaken.biasClamped tdet = s.biasClamped tdet := by
  simp (disch := decide) only [State.biasClamped, State.biasWish_tdetTaken, State.rd_tdetTaken]

@[simp] theorem State.rd_trimClamped (s : State) (c : Bool) (f : Fld) : (s.trimClamped c).rd f = s.rd f := by
  unfold State.trimClamped
  split
  · exact State.rd_raise ..
  · rfl

@[simp] theorem State.on_trimClamped (s : State) (c : Bool) (f : Fld) : (s.trimClamped c).on f = s.on f := by
  rw [State.on, s.rd_trimClamped, State.on]

theorem State.raised_trimClamped (s : State) (c : Bool) (h : s.mode ≠ mRESET) :
    (s.trimClamped c).raised = s.raised ++ if c && !s.thm.compRaised then [25] else [] := by
  unfold State.trimClamped
  split
  · exact State.raised_raise _ _ h (by decide)
  · exact (List.append_nil _).symm

/-- V_target and its clamp follow from T_det as `t` holds it and from the settings of `s`; what is new is told (R55, R350). -/
def targetFollows (s t : State) : Prop :=
  (t.det.vTarget : Int) = s.biasClamped (t.rdS F.DET_BIAS_TARGET_TDET) ∧
    t.on F.DET_STATUS_BIAS_LIMIT = decide ((t.det.vTarget : Int) ≠ s.biasWish (t.rdS F.DET_BIAS_TARGET_TDET)) ∧
    (t.on F.DET_STATUS_BIAS_LIMIT = true ∧ s.on F.DET_STATUS_BIAS_LIMIT = false → 66 ∈ t.raised) ∧
    (t.on F.DET_STATUS_BIAS_LIMIT = true ∧ s.thm.compRaised = false → 25 ∈ t.raised)

/-- The second half writes BIAS_LIMIT alone, keeps what was raised, and its target follows. -/
theorem State.targetTaken_spec (s : State) (hm : s.mode ≠ mRESET) :
    targetFollows s s.targetTaken ∧ s.targetTaken.on F.DET_STATUS_TEMP_STALE = s.on F.DET_STATUS_TEMP_STALE ∧
      s.targetTaken.rdS F.DET_BIAS_TARGET_TDET = s.rdS F.DET_BIAS_TARGET_TDET ∧ s.raised ⊆ s.targetTaken.raised := by
  unfold State.targetTaken
  extract_lets v lim x
  have hput : (s.put F.DET_STATUS_BIAS_LIMIT lim).mode ≠ mRESET := by rwa [s.mode_put_apart _ _ (by decide)]
  have hrd (f : Fld) (h : Fld.apart F.DET_STATUS_BIAS_LIMIT f = true) : x.rd f = s.rd f := by
    simp only [x, State.rd_trimClamped, State.rd_raiseIf, s.rd_put_apart _ f _ h]
  have hlim : x.on F.DET_STATUS_BIAS_LIMIT = lim := by
    simp only [x, State.on_trimClamped, State.on_raiseIf]
    exact s.on_put_self _ _ (by decide) (by decide)
  have hraised : x.raised = s.raised ++ (if lim && !s.on F.DET_STATUS_BIAS_LIMIT then [66] else []) ++
      if lim && !s.thm.compRaised then [25] else [] := by
    rw [State.raised_trimClamped _ _ (by rwa [State.mode_raiseIf]), State.raised_raiseIf _ _ _ hput (by decide),
      State.put_raised, State.raiseIf_thm, State.put_thm]
  have htdet : x.rdS F.DET_BIAS_TARGET_TDET = s.rdS F.DET_BIAS_TARGET_TDET := by rw [State.rdS, hrd _ (by decide), State.rdS]
  have hv : ((v.toNat : Nat) : Int) = v := Int.toNat_of_nonneg (s.biasClamped_nonneg _)
  refine ⟨⟨?_, ?_, ?_, ?_⟩, ?_, htdet, ?_⟩
  · rw [State.rdS_mk, htdet]; exact hv
  · rw [State.rdS_mk, State.on_mk, htdet, hv]; exact hlim
  · rintro ⟨hon, hoff⟩
    change 66 ∈ x.raised
    rw [hraised, ← hlim, hoff]
    simp [show x.on F.DET_STATUS_BIAS_LIMIT = true from hon]
  · rintro ⟨hon, hnew⟩
    change 25 ∈ x.raised
    rw [hraised, ← hlim, hnew]
    simp [show x.on F.DET_STATUS_BIAS_LIMIT = true from hon]
  · rw [State.on_mk, State.on, hrd _ (by decide), State.on]
  · change s.raised ⊆ x.raised
    rw [hraised, List.append_assoc]
    exact List.subset_append_left _ _

theorem State.mode_tdetTaken (s : State) : s.tdetTaken.mode = s.mode := s.rd_tdetTaken _ (by decide) (by decide)

/-- A recompute's target follows from the settings of the state before it. -/
theorem State.recompute_follows (s : State) (hm : s.mode ≠ mRESET) : targetFollows s s.tdetTaken.targetTaken := by
  obtain ⟨⟨htarget, hlim, h66, h25⟩, -⟩ := s.tdetTaken.targetTaken_spec (by rwa [s.mode_tdetTaken])
  rw [s.biasClamped_tdetTaken] at htarget
  rw [s.biasWish_tdetTaken] at hlim
  rw [s.on_tdetTaken _ (by decide) (by decide)] at h66
  rw [s.tdetTaken_thm] at h25
  exact ⟨htarget, hlim, h66, h25⟩

theorem biasTargetRecompute_tracks {s : State} (hm : s.mode ≠ mRESET) (hok : 3 ≤ (s.okReadings 0 8).length)
    (hnew : s.det.tempOld = false) :
    answers .biasTargetRecompute s fun t =>
      t.on F.DET_STATUS_TEMP_STALE = false ∧
        t.rdS F.DET_BIAS_TARGET_TDET = (BitVec.ofInt 16 (median (s.okReadings 0 8))).toInt ∧ targetFollows s t := by
  refine ⟨_, execBiasTargetRecompute_eq s, ?_⟩
  obtain ⟨-, hstale, htdet, -⟩ := s.tdetTaken.targetTaken_spec (by rwa [s.mode_tdetTaken])
  rw [hstale, htdet]
  refine ⟨?_, ?_, s.recompute_follows hm⟩
  · rw [State.tdetTaken_fresh hok hnew, State.wrS, State.on_wr_apart _ _ _ _ (by decide), State.on_put_self _ _ _ (by decide) (by decide)]
  · rw [State.tdetTaken_fresh hok hnew]
    exact State.rdS_wrS_self _ _ _ (by decide) rfl

theorem biasTargetRecompute_holds {s : State} (hm : s.mode ≠ mRESET)
    (hold : (s.okReadings 0 8).length < 3 ∨ s.det.tempOld = true) :
    answers .biasTargetRecompute s fun t =>
      t.on F.DET_STATUS_TEMP_STALE = true ∧ t.rdS F.DET_BIAS_TARGET_TDET = s.rdS F.DET_BIAS_TARGET_TDET ∧
        (s.on F.DET_STATUS_TEMP_STALE = false → 68 ∈ t.raised) ∧ targetFollows s t := by
  refine ⟨_, execBiasTargetRecompute_eq s, ?_⟩
  obtain ⟨-, hstale, htdet, hraised⟩ := s.tdetTaken.targetTaken_spec (by rwa [s.mode_tdetTaken])
  rw [hstale, htdet]
  refine ⟨?_, ?_, fun hfresh => hraised ?_, s.recompute_follows hm⟩
  · rw [State.tdetTaken_stale hold, State.on_raiseIf, State.on_put_self _ _ _ (by decide) (by decide)]
  · rw [State.tdetTaken_stale hold, State.rdS_raiseIf, State.put, State.rdS_wr_apart _ _ _ _ (by decide)]
  · rw [State.tdetTaken_stale hold, State.raised_raiseIf _ _ _ (by rwa [State.mode_put_apart _ _ _ (by decide)]) (by decide), hfresh]
    exact List.mem_append_right _ (List.mem_singleton_self _)

/-- With three valid sensors or more, it is for want of new readings that T_det is held. -/
def State.readingsAged (s : State) : State :=
  if (s.okReadings 0 8).length < 3 then s else { s with det := { s.det with tempOld := true } }

theorem State.readingsAged_regs (s : State) : s.readingsAged.regs = s.regs := by
  unfold State.readingsAged
  split <;> rfl

theorem State.readingsAged_tempOld {s : State} (h : 3 ≤ (s.okReadings 0 8).length) : s.readingsAged.det.tempOld = true := by
  rw [State.readingsAged, if_neg (by omega)]

theorem execTempStale_eq (s : State) :
    execTempStale s =
      .next ((s.readingsAged.wr F.DET_STATUS_TEMP_STALE 1).raiseIf (!s.readingsAged.on F.DET_STATUS_TEMP_STALE) 68) := rfl

theorem tempStale_holds {s : State} (hm : s.mode ≠ mRESET) :
    answers .tempStale s fun t =>
      t.on F.DET_STATUS_TEMP_STALE = true ∧ t.rd F.DET_BIAS_TARGET_TDET = s.rd F.DET_BIAS_TARGET_TDET ∧
        (s.on F.DET_STATUS_TEMP_STALE = false → 68 ∈ t.raised) ∧ (3 ≤ (s.okReadings 0 8).length → t.det.tempOld = true) := by
  have hrd := State.rd_congr s.readingsAged_regs
  have hmode : s.readingsAged.mode ≠ mRESET := (hrd _).trans_ne hm
  refine ⟨_, execTempStale_eq s, ?_, ?_, fun hfresh => ?_, fun hok => ?_⟩
  · rw [State.on_raiseIf, State.on_wr_one _ _ (by decide) (by decide)]
  · rw [State.rd_raiseIf, State.rd_wr_apart _ _ _ _ (by decide), hrd]
  · rw [State.raised_raiseIf _ _ _ (by rwa [State.mode_wr_apart _ _ _ (by decide)]) (by decide), State.on, hrd,
      show (s.rd F.DET_STATUS_TEMP_STALE != 0) = false from hfresh]
    exact List.mem_append_right _ (List.mem_singleton_self _)
  · rw [State.raiseIf_det]
    exact State.readingsAged_tempOld hok

/-! ### The monitor (R58, R59) -/

/-- The bit of the bias monitor that tells of a VSPAD too high, or too low. -/
def monitorBit (high : Bool) : Fld := if high then F.DET_STATUS_BIAS_HIGH else F.DET_STATUS_BIAS_LOW

/-- How far VSPAD lies on the side that the bit watches. -/
theorem State.biasError_eq (s : State) (high : Bool) :
    s.biasError high = if high then (s.rd F.DET_BIAS_STATUS_VSPAD_MEAS : Int) - s.rd F.DET_BIAS_TARGET_TARGET
      else (s.rd F.DET_BIAS_TARGET_TARGET : Int) - s.rd F.DET_BIAS_STATUS_VSPAD_MEAS := by
  cases high
  · exact Int.neg_sub _ _
  · rfl

/-- An entry of the monitor at `u`: its bit is set and told, and the history grows. -/
def State.monitorEntered (s : State) (high : Bool) (u : Nat) : State :=
  { (s.wr (monitorBit high) 1).raise (if high then 65 else 64) with
    det := { s.det with entries := recent u (s.det.entries ++ [u]), faultSeen := true } }

/-- The flapping latch takes hold of the bit. -/
def State.flapLatched (s : State) (high : Bool) : State :=
  { (s.wr F.DET_STATUS_BIAS_FLAP 1).raise 67 with det := { s.det with latched := if high then 2 else 1 } }

theorem execBiasMonitorEntry_enters {s : State} {high : Bool} {u : Nat} (hsettled : s.on F.DET_STATUS_BIAS_SETTLED = true)
    (hbit : s.on (monitorBit high) = false) (herr : 10 * (s.rd F.DET_BIAS_MON_CFG_TOL : Int) < s.biasError high) :
    execBiasMonitorEntry high u s = .next (
      if 8 < (recent u (s.det.entries ++ [u])).length ∧ (!(s.monitorEntered high u).on F.DET_STATUS_BIAS_FLAP) = true then
        (s.monitorEntered high u).flapLatched high
      else s.monitorEntered high u) := by
  rw [execBiasMonitorEntry, if_neg]
  · rfl
  · change ¬(!s.on F.DET_STATUS_BIAS_SETTLED || s.on (monitorBit high) || _) = true
    simp [hsettled, hbit, herr]

theorem execBiasMonitorEntry_ignored {s : State} {high : Bool} {u : Nat}
    (h : s.on F.DET_STATUS_BIAS_SETTLED = false ∨ s.on (monitorBit high) = true ∨
      s.biasError high ≤ 10 * (s.rd F.DET_BIAS_MON_CFG_TOL : Int)) : execBiasMonitorEntry high u s = .next s := by
  rw [execBiasMonitorEntry, if_pos]
  change (!s.on F.DET_STATUS_BIAS_SETTLED || s.on (monitorBit high) || _) = true
  rcases h with h | h | h <;> simp [h]

theorem execBiasMonitorClear_clears {s : State} {high : Bool} (hsettled : s.on F.DET_STATUS_BIAS_SETTLED = true)
    (hfree : s.det.latched.testBit high.toNat = false)
    (herr : s.biasError high < 10 * ((s.rd F.DET_BIAS_MON_CFG_TOL : Int) - s.rd F.DET_BIAS_MON_CFG_HYST)) :
    execBiasMonitorClear high s = .next (s.wr (monitorBit high) 0) := by
  rw [execBiasMonitorClear, if_neg]
  · rfl
  · simp [hsettled, hfree, herr]

theorem execBiasMonitorClear_ignored {s : State} {high : Bool}
    (h : s.on F.DET_STATUS_BIAS_SETTLED = false ∨ s.det.latched.testBit high.toNat = true ∨
      10 * ((s.rd F.DET_BIAS_MON_CFG_TOL : Int) - s.rd F.DET_BIAS_MON_CFG_HYST) ≤ s.biasError high) :
    execBiasMonitorClear high s = .next s := by
  rw [execBiasMonitorClear, if_pos]
  rcases h with h | h | h <;> simp [h]

theorem State.monitorEntered_spec {s : State} (high : Bool) (u : Nat) (hm : s.mode ≠ mRESET) :
    (s.monitorEntered high u).on (monitorBit high) = true ∧
      (s.monitorEntered high u).raised = s.raised ++ [if high then 65 else 64] ∧
      (s.monitorEntered high u).on F.DET_STATUS_BIAS_FLAP = s.on F.DET_STATUS_BIAS_FLAP ∧
      (s.monitorEntered high u).mode ≠ mRESET := by
  have hhi : (monitorBit high).hi < 32 := by cases high <;> decide
  have hlo : (monitorBit high).lo ≤ (monitorBit high).hi := by cases high <;> decide
  have hflap : Fld.apart (monitorBit high) F.DET_STATUS_BIAS_FLAP = true := by cases high <;> decide
  have hmode : (s.wr (monitorBit high) 1).mode = s.mode := s.mode_wr_apart _ _ (by cases high <;> decide)
  have hevent : reservedEvent (if high then 65 else 64) = false := by cases high <;> decide
  refine ⟨?_, State.raised_raise _ _ (by rwa [hmode]) hevent, ?_, ?_⟩
  · rw [State.monitorEntered, State.on_mk, State.on_raise, s.on_wr_one _ hhi hlo]
  · rw [State.monitorEntered, State.on_mk, State.on_raise, s.on_wr_apart _ _ _ hflap]
  · rwa [State.monitorEntered, State.mode_mk, State.mode_raise, hmode]

theorem State.flapLatched_spec {s : State} (high : Bool) (hm : s.mode ≠ mRESET) :
    (s.flapLatched high).on F.DET_STATUS_BIAS_FLAP = true ∧ (s.flapLatched high).raised = s.raised ++ [67] ∧
      (s.flapLatched high).on (monitorBit high) = s.on (monitorBit high) := by
  have hbit : Fld.apart F.DET_STATUS_BIAS_FLAP (monitorBit high) = true := by cases high <;> decide
  refine ⟨?_, State.raised_raise _ _ (by rwa [s.mode_wr_apart _ _ (by decide)]) (by decide), ?_⟩
  · rw [State.flapLatched, State.on_mk, State.on_raise, s.on_wr_one _ (by decide) (by decide)]
  · rw [State.flapLatched, State.on_mk, State.on_raise, s.on_wr_apart _ _ _ hbit]

/-- An entry of the monitor: its bit is told, and the ninth within 60 s latches it. -/
theorem biasMonitorEntry_enters {s : State} {high : Bool} (u : Nat) (hm : s.mode ≠ mRESET)
    (hsettled : s.on F.DET_STATUS_BIAS_SETTLED = true) (hbit : s.on (monitorBit high) = false)
    (herr : 10 * (s.rd F.DET_BIAS_MON_CFG_TOL : Int) < s.biasError high) :
    answers (.biasMonitorEntry high u) s fun t =>
      t.on (monitorBit high) = true ∧ (if high then 65 else 64) ∈ t.raised ∧ t.det.entries = recent u (s.det.entries ++ [u]) ∧
        t.det.faultSeen = true ∧
        t.on F.DET_STATUS_BIAS_FLAP = (s.on F.DET_STATUS_BIAS_FLAP || decide (8 < (recent u (s.det.entries ++ [u])).length)) ∧
        (t.on F.DET_STATUS_BIAS_FLAP = true ∧ s.on F.DET_STATUS_BIAS_FLAP = false → 67 ∈ t.raised) ∧
        (t.det.latched = if 8 < (recent u (s.det.entries ++ [u])).length ∧ s.on F.DET_STATUS_BIAS_FLAP = false
          then if high then 2 else 1 else s.det.latched) := by
  obtain ⟨hset, htold, hflap, hmode⟩ := State.monitorEntered_spec high u hm
  obtain ⟨hlatch, htold', hkept⟩ := State.flapLatched_spec high hmode
  have hfree : (!(s.monitorEntered high u).on F.DET_STATUS_BIAS_FLAP) = true ↔ s.on F.DET_STATUS_BIAS_FLAP = false := by
    rw [hflap, Bool.not_eq_true']
  refine ⟨_, execBiasMonitorEntry_enters hsettled hbit herr, ?_⟩
  split
  · next hninth =>
    obtain ⟨hmany, hunlatched⟩ := hninth
    refine ⟨hkept.trans hset, ?_, rfl, rfl, ?_, fun _ => ?_, (if_pos ⟨hmany, hfree.1 hunlatched⟩).symm⟩
    · simp [htold', htold]
    · rw [hlatch, decide_eq_true hmany, Bool.or_true]
    · simp [htold']
  · next hearlier =>
    have hstays : ¬(8 < (recent u (s.det.entries ++ [u])).length ∧ s.on F.DET_STATUS_BIAS_FLAP = false) := by rwa [← hfree]
    refine ⟨hset, ?_, rfl, rfl, ?_, fun ⟨hon, hoff⟩ => ?_, (if_neg hstays).symm⟩
    · simp [htold]
    · rw [hflap]
      cases hold : s.on F.DET_STATUS_BIAS_FLAP
      · exact (decide_eq_false fun hmany => hstays ⟨hmany, hold⟩).symm
      · rfl
    · exact absurd (hon.symm.trans (hflap.trans hoff)) (by decide)

/-! ### The obligation -/

/-- Settles O29: ramp, loop, target and monitor each by the lemma above that says what the command does where its conditions hold, and
what it leaves where they do not. -/
theorem detectorBias : Obligations.DetectorBias := by
  refine ⟨fun s hr hoff => ⟨_, congrArg Host.Outcome.next (State.access_of_reaches hr _), ?ramp⟩,
    fun s hr hon => ⟨_, congrArg Host.Outcome.next (State.access_of_reaches hr _), ?enabled⟩,
    fun s hr => ⟨⟨_, congrArg Host.Outcome.next (State.access_of_reaches hr _), ?disable⟩,
      ⟨_, congrArg Host.Outcome.next (State.access_of_reaches hr _), ?release⟩⟩,
    fun s => biasSettled_settles, fun s h => ⟨s, execBiasSettled_unsettled h, rfl⟩, fun s meas => biasLoopUpdate_moves meas,
    fun s meas h => ⟨_, execBiasLoopUpdate_idle meas h, rfl⟩, fun s hm h => biasTargetRecompute_tracks hm h.1 h.2,
    fun s => biasTargetRecompute_holds, fun s => tempStale_holds,
    fun s high u hm hs hb he => biasMonitorEntry_enters u hm hs hb (by rwa [s.biasError_eq]),
    fun s high u h => ⟨s, execBiasMonitorEntry_ignored (by rwa [s.biasError_eq]), rfl⟩,
    fun s high hs hf he => ⟨_, execBiasMonitorClear_clears hs hf (by rwa [s.biasError_eq]), rfl⟩,
    fun s high h => ⟨s, execBiasMonitorClear_ignored (by rwa [s.biasError_eq]), rfl⟩⟩
  case ramp =>
    have hmeas : s.accessed.rd F.DET_BIAS_STATUS_VSPAD_MEAS = s.rd F.DET_BIAS_STATUS_VSPAD_MEAS := State.rd_count _ _ _ _ _ _ (by decide)
    have hramp := State.biasEnable_ramp ((s.on_accessed _ (by decide)).trans hoff)
    rwa [hmeas, s.accessed_det] at hramp
  case enabled => exact State.biasEnable_on ((s.on_accessed _ (by decide)).trans hon)
  case disable =>
    have hdisable := s.accessed.biasDisable_spec
    rwa [s.accessed_det, s.on_accessed _ (by decide), s.on_accessed _ (by decide)] at hdisable
  case release =>
    have hrelease := s.accessed.biasFlapRelease_spec
    rwa [s.accessed_det, s.on_accessed _ (by decide), s.on_accessed _ (by decide), s.on_accessed _ (by decide)] at hrelease

end Sys2Proof.Machine
end

section
/-! Event words at the fabric (R79 to R84, R92, R95): counts in protected words, and the word taken from its queue. -/

namespace Sys2Proof.Machine

/-! ### Banks and lanes -/

@[simp] theorem State.bank_setBank (s : State) (b : Nat) (k : Bank) : (s.setBank b k).bank b = k := by
  unfold State.setBank State.bank
  split <;> rfl

/-- A bank put back leaves the plough bins and what their finders have not seen. -/
theorem State.setBank_plough (s : State) (b : Nat) (k : Bank) :
    (s.setBank b k).his.plough = s.his.plough ∧ (s.setBank b k).his.unseen = s.his.unseen := by
  unfold State.setBank
  split <;> exact ⟨rfl, rfl⟩

theorem State.bank_congr {s t : State} (h0 : t.his.bank0 = s.his.bank0) (h1 : t.his.bank1 = s.his.bank1) (b : Nat) :
    t.bank b = s.bank b := by rw [State.bank, h0, h1, State.bank]

theorem laneBecomes_refl (s : State) (b c : Nat) : laneBecomes b c ((s.bank b).lane c) s s := ⟨rfl, rfl, fun _ _ => rfl, rfl⟩

theorem State.setLane_laneBecomes (s : State) (b c : Nat) (l : Lane) :
    laneBecomes b c l s (s.setBank b ((s.bank b).setLane c l)) := by
  refine ⟨?_, ?_, fun k hk => ?_, (s.setBank_plough b _).1⟩ <;> rw [State.bank_setBank]
  · rfl
  · exact Tab.get_set_self ..
  · exact Tab.get_set_ne _ _ _ hk

/-- The claim on a lane speaks of the fabric's part alone. -/
theorem laneBecomes_of_his {b c : Nat} {l : Lane} {s t u : State} (h : laneBecomes b c l s t) (hu : u.his = t.his) :
    laneBecomes b c l s u := by
  unfold laneBecomes
  rwa [State.bank_congr (congrArg His.bank0 hu) (congrArg His.bank1 hu), hu]

@[simp] theorem State.count_his (s : State) (g lo inst n : Nat) : (s.count g lo inst n).his = s.his :=
  (s.count_fr g lo inst n).same .his (by decide)

/-! ### Errors of protected words (R95) -/

/-- The state once the condition `k` of a word that is to take a count has been met. -/
def State.errorMet (s : State) (b c : Nat) (k : Cond) (setCond : Cond → State → State) : State :=
  match k with
  | .ce => (setCond .ok s).hisCE
  | .ue => (setCond .poison s).hisUE b c
  | _ => s

/-- A bad word takes no count. -/
theorem State.increment_eq (s : State) (b c : Nat) (k : Cond) (setCond : Cond → State → State) (inc : State → State) :
    s.increment b c k setCond inc = if k.bad then s.errorMet b c k setCond else inc (s.errorMet b c k setCond) := by
  cases k <;> rfl

/-- Of the fabric's part a corrected word changes only whether HIS_ECC_CE has been raised. -/
theorem State.hisCE_his (s : State) : ∃ r, s.hisCE.his = { s.his with ceRaised := r } := by
  dsimp only [State.hisCE]
  split
  · exact ⟨true, State.raise_his ..⟩
  · exact ⟨_, rfl⟩

/-- An uncorrectable word tells of the channel and flags its lane. -/
theorem State.hisUE_his (s : State) (b c : Nat) : ∃ l, (s.hisUE b c).his = { (s.flagLane b c 6).his with integrity := l } := by
  have hflag : ((s.bump F.HIS_ECC_UE_CNT_COUNT 1).flagLane b c 6).his = (s.flagLane b c 6).his := by
    unfold State.flagLane State.setBank
    split <;> rfl
  dsimp only [State.hisUE]
  split
  · exact ⟨_, hflag⟩
  · rw [State.raise_his, hflag]
    exact ⟨_, rfl⟩

section
variable {s : State} {b c : Nat} {k : Cond} {setCond : Cond → State → State}

/-- Meeting an error leaves the plough bins, and what their finders have not seen, -/
theorem State.errorMet_plough (hset : ∀ x, (setCond x s).his.plough = s.his.plough ∧ (setCond x s).his.unseen = s.his.unseen) :
    (s.errorMet b c k setCond).his.plough = s.his.plough ∧ (s.errorMet b c k setCond).his.unseen = s.his.unseen := by
  cases k with
  | ok | poison => exact ⟨rfl, rfl⟩
  | ce =>
    obtain ⟨r, hr⟩ := (setCond .ok s).hisCE_his
    rw [State.errorMet, hr]
    exact hset .ok
  | ue =>
    obtain ⟨l, hl⟩ := (setCond .poison s).hisUE_his b c
    obtain ⟨hplough, hunseen⟩ := (setCond .poison s).setBank_plough b _
    rw [State.errorMet, hl]
    exact ⟨hplough.trans (hset .poison).1, hunseen.trans (hset .poison).2⟩

/-- and the bins of every bank. -/
theorem State.errorMet_bins (hset : ∀ x, ((setCond x s).bank b).bins = (s.bank b).bins) :
    ((s.errorMet b c k setCond).bank b).bins = (s.bank b).bins := by
  cases k with
  | ok | poison => rfl
  | ce =>
    obtain ⟨r, hr⟩ := (setCond .ok s).hisCE_his
    rw [State.errorMet, State.bank_congr (s := setCond .ok s) (by rw [hr]) (by rw [hr])]
    exact hset .ok
  | ue =>
    obtain ⟨l, hl⟩ := (setCond .poison s).hisUE_his b c
    rw [State.errorMet, State.bank_congr (s := (setCond .poison s).flagLane b c 6) (by rw [hl]) (by rw [hl]), State.flagLane,
      State.bank_setBank]
    exact hset .poison

end

/-! ### Counts -/

/-- The condition of header word `i` of the lane of channel `c`, once met. -/
def State.headMet (s : State) (b c i : Nat) : State :=
  s.errorMet b c ((s.bank b).headCond (16 * c + i)) fun x s => s.setHead b (16 * c + i) x

/-- The condition of plough bin `k` of channel `c`, once met; a count there flags the lane in bank `b`. -/
def State.ploughMet (s : State) (b c k : Nat) : State :=
  s.errorMet b c (Tab.get okCond s.his.ploughCond (c * 2048 + k)) fun x s =>
    s.hs fun h => { h with ploughCond := Tab.set okCond h.ploughCond (c * 2048 + k) x }

/-- The condition of harrow bin `i` of window `w` of channel `c`, once met. -/
def State.harrowMet (s : State) (b c w i : Nat) : State :=
  s.errorMet b c (Tab.get okCond (s.bank b).cond (binKey c w i)) fun x s =>
    s.setBank b { s.bank b with cond := Tab.set okCond (s.bank b).cond (binKey c w i) x }

theorem State.tally_lane (s : State) (b c i : Nat) (f : Lane → Lane) :
    laneBecomes b c
      (if ((s.bank b).headCond (16 * c + i)).bad then ((s.headMet b c i).bank b).lane c else f (((s.headMet b c i).bank b).lane c))
      (s.headMet b c i) (s.tally b c i f) := by
  rw [State.tally, State.increment_eq]
  split
  · exact laneBecomes_refl ..
  · exact State.setLane_laneBecomes ..

theorem State.addPlough_his (s : State) (b c k u : Nat) :
    (s.addPlough b c k u).his =
      if (Tab.get okCond s.his.ploughCond (c * 2048 + k)).bad then (s.ploughMet b c k).his
      else { (s.ploughMet b c k).his with
        plough := Tab.set (fun _ => 0) s.his.plough (c * 2048 + k) (satAdd 12 (s.ploughBin c k) 1)
        unseen := Tab.set (fun _ => 0) s.his.unseen (c * 2048 + k)
          (Tab.get (fun _ => 0) s.his.unseen (c * 2048 + k) + if s.finderPast c k u then 1 else 0) } := by
  obtain ⟨hplough, hunseen⟩ : (s.ploughMet b c k).his.plough = s.his.plough ∧ (s.ploughMet b c k).his.unseen = s.his.unseen :=
    State.errorMet_plough fun _ => ⟨rfl, rfl⟩
  rw [State.addPlough, State.increment_eq, ← State.ploughMet, State.ploughBin, apply_ite State.his, State.count_his, State.hs_his,
    hplough, hunseen]

/-- What a count in a plough bin does (R81, R85). -/
theorem State.addPlough_counts (s : State) (b c k u : Nat) :
    (s.addPlough b c k u).his =
        { (s.ploughMet b c k).his with plough := (s.addPlough b c k u).his.plough, unseen := (s.addPlough b c k u).his.unseen } ∧
      (s.addPlough b c k u).ploughBin c k =
        (if (Tab.get okCond s.his.ploughCond (c * 2048 + k)).bad then s.ploughBin c k else min (s.ploughBin c k + 1) 4095) ∧
      keysKeep (c * 2048 + k) s.his.plough (s.addPlough b c k u).his.plough ∧
      Tab.get (fun _ => 0) (s.addPlough b c k u).his.unseen (c * 2048 + k) = Tab.get (fun _ => 0) s.his.unseen (c * 2048 + k) +
        (if s.finderPast c k u = true ∧ (Tab.get okCond s.his.ploughCond (c * 2048 + k)).bad = false then 1 else 0) ∧
      keysKeep (c * 2048 + k) s.his.unseen (s.addPlough b c k u).his.unseen := by
  obtain ⟨hplough, hunseen⟩ : (s.ploughMet b c k).his.plough = s.his.plough ∧ (s.ploughMet b c k).his.unseen = s.his.unseen :=
    State.errorMet_plough fun _ => ⟨rfl, rfl⟩
  rw [State.ploughBin, State.addPlough_his]
  cases hbad : (Tab.get okCond s.his.ploughCond (c * 2048 + k)).bad with
  | true =>
    exact ⟨rfl, congrArg (Tab.get _ · _) hplough, fun j _ => congrArg (Tab.get _ · j) hplough,
      by simp [hunseen], fun j _ => congrArg (Tab.get _ · j) hunseen⟩
  | false =>
    exact ⟨rfl, by simp [satAdd], fun _ => Tab.get_set_ne _ _ _, by simp, fun _ => Tab.get_set_ne _ _ _⟩

/-- What a count in a harrow bin does (R92). -/
theorem State.addHarrow_counts (s : State) (b c w i : Nat) :
    (s.addHarrow b c w i).bank b = { (s.harrowMet b c w i).bank b with bins := ((s.addHarrow b c w i).bank b).bins } ∧
      (s.addHarrow b c w i).his.plough = s.his.plough ∧
      ((s.addHarrow b c w i).bank b).bin c w i =
        (if (Tab.get okCond (s.bank b).cond (binKey c w i)).bad then (s.bank b).bin c w i else min ((s.bank b).bin c w i + 1) 65535) ∧
      keysKeep (binKey c w i) (s.bank b).bins ((s.addHarrow b c w i).bank b).bins := by
  have hplough : (s.harrowMet b c w i).his.plough = s.his.plough := by
    refine (State.errorMet_plough fun x => ?_).1
    exact s.setBank_plough b _
  have hbins : ((s.harrowMet b c w i).bank b).bins = (s.bank b).bins :=
    State.errorMet_bins fun _ => by rw [State.bank_setBank]
  rw [State.addHarrow, State.increment_eq, ← State.harrowMet]
  cases hbad : (Tab.get okCond (s.bank b).cond (binKey c w i)).bad with
  | true =>
    exact ⟨rfl, hplough, congrArg (Tab.get _ · _) hbins, fun j _ => congrArg (Tab.get _ · j) hbins⟩
  | false =>
    have hbank (u : State) (k : Bank) : ((u.setBank b k).count 2 3 (chFurrow c) 1).bank b = k := by
      rw [State.bank_congr (s := u.setBank b k) (by simp) (by simp), State.bank_setBank]
    refine ⟨?_, ?_, ?_, fun j hj => ?_⟩
    · simp [hbank]
    · simp [State.setBank_plough, hplough]
    · simp [hbank, Bank.bin, hbins, satAdd]
    · simp [hbank, hbins, Tab.get_set_ne _ _ _ hj]

/-! ### The word leaves its queue -/

/-- The state with another timing front end. -/
def State.withTdc (s : State) (q : Tdc) : State := { s with tdc := q }

theorem State.raise_withTdc (s : State) (q : Tdc) (e : Nat) : (s.withTdc q).raise e = (s.raise e).withTdc q := by
  rw [State.raise, State.raise, apply_ite (State.withTdc · q)]
  rfl

theorem State.setBank_withTdc (s : State) (q : Tdc) (b : Nat) (k : Bank) : (s.withTdc q).setBank b k = (s.setBank b k).withTdc q := by
  rw [State.setBank, State.setBank, apply_ite (State.withTdc · q)]
  rfl

theorem State.hisCE_withTdc (s : State) (q : Tdc) : (s.withTdc q).hisCE = s.hisCE.withTdc q := by
  dsimp only [State.hisCE]
  rw [apply_ite (State.withTdc · q), ← State.raise_withTdc]
  rfl

theorem State.hisUE_withTdc (s : State) (q : Tdc) (b c : Nat) : (s.withTdc q).hisUE b c = (s.hisUE b c).withTdc q := by
  have hflag : ((s.withTdc q).bump F.HIS_ECC_UE_CNT_COUNT 1).flagLane b c 6 =
      ((s.bump F.HIS_ECC_UE_CNT_COUNT 1).flagLane b c 6).withTdc q := (s.bump F.HIS_ECC_UE_CNT_COUNT 1).setBank_withTdc q b _
  dsimp only [State.hisUE]
  rw [hflag, apply_ite (State.withTdc · q), ← State.raise_withTdc]
  rfl

/-- How an error of the fabric is met does not depend on the timing front end. -/
theorem State.errorMet_withTdc {s : State} {q : Tdc} (b c : Nat) (k : Cond) {setCond : Cond → State → State}
    (hset : ∀ x, setCond x (s.withTdc q) = (setCond x s).withTdc q) :
    (s.withTdc q).errorMet b c k setCond = (s.errorMet b c k setCond).withTdc q := by
  cases k with
  | ok | poison => rfl
  | ce => rw [State.errorMet, hset, State.hisCE_withTdc, State.errorMet]
  | ue => rw [State.errorMet, hset, State.hisUE_withTdc, State.errorMet]

theorem State.headMet_withTdc (s : State) (q : Tdc) (b c i : Nat) : (s.withTdc q).headMet b c i = (s.headMet b c i).withTdc q :=
  State.errorMet_withTdc _ _ _ fun _ => s.setBank_withTdc q b _

theorem State.ploughMet_withTdc (s : State) (q : Tdc) (b c k : Nat) : (s.withTdc q).ploughMet b c k = (s.ploughMet b c k).withTdc q :=
  State.errorMet_withTdc _ _ _ fun _ => rfl

theorem State.harrowMet_withTdc (s : State) (q : Tdc) (b c w i : Nat) :
    (s.withTdc q).harrowMet b c w i = (s.harrowMet b c w i).withTdc q :=
  State.errorMet_withTdc _ _ _ fun _ => s.setBank_withTdc q b _

/-- The state in which the oldest word of furrow `f` has left its queue. -/
def State.takeWord (s : State) (f : Nat) : State :=
  s.withTdc { s.tdc with queues := Tab.set (fun _ => []) s.tdc.queues f (Tab.get (fun _ => []) s.tdc.queues f).tail }

/-- A tally of the word taken, in the lane of the state before (R84, R95). -/
theorem State.takeWord_tallied (s : State) (f b c i : Nat) (g : Lane → Lane) : tallied b c i g s ((s.takeWord f).tally b c i g) := by
  have hlane := (s.takeWord f).tally_lane b c i g
  rw [State.takeWord, State.headMet_withTdc] at hlane
  exact hlane

/-- What the fabric does with word `w` of slot `x` that comes in time at instant `u` (R79 to R84, R92). -/
def State.applyWord (s : State) (x : Slot) (c : Nat) (w : Word) (u : Nat) : State :=
  match Word.field w 31 30 with
  | 0 => s.applyCode x c (Word.field w 15 0) u
  | 1 => s.tally x.bank c 4 fun l => { l with ovf := satAdd 16 l.ovf 1 }
  | 2 => s.tally x.bank c 4 fun l => { l with early := satAdd 16 l.early 1 }
  | _ => s.flagLane x.bank c 2

/-- What the fabric does with word `w` of channel `c` at instant `u`, once it has left its queue (R79). -/
def State.wordComes (s : State) (c : Nat) (w : Word) (u : Nat) : State :=
  match s.slotOfTag (Word.field w 26 25) with
  | none => if s.his.cur.isNone && s.his.prev.isNone then s else s.lateWord (s.olderOfTag (Word.field w 26 25)) c
  | some x => if x.closeAt + 60000 < u then s.lateWord (some x) c else s.applyWord x c w u

theorem execEventWord_of_head {s : State} {f : Fin 192} {w : Word} (u : Nat) (hclock : s.mainStopped = false)
    (hhead : (Tab.get (fun _ => []) s.tdc.queues f).head? = some w) :
    execEventWord f u s = .next ((s.takeWord f).wordComes (wordChannel f w) w u) := by
  obtain ⟨r, hqueue⟩ := List.head?_eq_some_iff.1 hhead
  rw [execEventWord, State.takeWord, hqueue]
  exact congrArg Host.Outcome.next (if_neg (by simp [hclock]))

theorem execEventWord_arrives {s : State} {f : Fin 192} {w : Word} {x : Slot} {u : Nat} (h : s.arrives f w x u) :
    execEventWord f u s = .next ((s.takeWord f).applyWord x (wordChannel f w) w u) := by
  obtain ⟨hclock, hhead, hslot, htime⟩ := h
  have hslot' : (s.takeWord f).slotOfTag (Word.field w 26 25) = some x := hslot
  simp only [execEventWord_of_head u hclock hhead, State.wordComes, hslot', if_neg (Nat.not_lt.2 htime)]

theorem State.applyWord_code (s : State) (x : Slot) (c : Nat) {w : Word} (u : Nat) (h : Word.field w 31 30 = 0) :
    s.applyWord x c w u = s.applyCode x c (Word.field w 15 0) u := by simp only [State.applyWord, h]

theorem State.applyWord_overflow (s : State) (x : Slot) (c : Nat) {w : Word} (u : Nat) (h : Word.field w 31 30 = 1) :
    s.applyWord x c w u = s.tally x.bank c 4 fun l => { l with ovf := satAdd 16 l.ovf 1 } := by simp only [State.applyWord, h]

theorem State.applyWord_early (s : State) (x : Slot) (c : Nat) {w : Word} (u : Nat) (h : Word.field w 31 30 = 2) :
    s.applyWord x c w u = s.tally x.bank c 4 fun l => { l with early := satAdd 16 l.early 1 } := by simp only [State.applyWord, h]

theorem State.applyWord_invalid (s : State) (x : Slot) (c : Nat) {w : Word} (u : Nat) (h : Word.field w 31 30 = 3) :
    s.applyWord x c w u = s.flagLane x.bank c 2 := by simp only [State.applyWord, h]

/-- Nothing done with a word in time touches the timing front end. -/
theorem State.applyWord_tdc (s : State) (x : Slot) (c : Nat) (w : Word) (u : Nat) : (s.applyWord x c w u).tdc = s.tdc := by
  unfold State.applyWord
  split
  · exact (State.applyCode_fr ..).same .tdc (by decide)
  · exact (State.tally_fr ..).same .tdc (by decide)
  · exact (State.tally_fr ..).same .tdc (by decide)
  · exact (State.flagLane_fr ..).same .tdc (by decide)

/-! ### What a code counts in (R80, R81, R83, R92) -/

section
variable {s : State} {x : Slot} {c code u : Nat}

theorem State.applyCode_deaf (h : s.on (F.DET_CH_CFG_SILENT c) = true ∨ s.isGated c = true) : s.applyCode x c code u = s :=
  if_pos (by simpa using h)

theorem State.applyCode_fallow (h : s.listens c) (hkind : x.kind = .fallow) :
    s.applyCode x c code u =
      (s.tally x.bank c 1 fun l => { l with fallowAmb := satAdd 16 l.fallowAmb 1 }).count 2 4 (chFurrow c) 1 := by
  simp [State.applyCode, h.1, h.2, hkind]

theorem State.applyCode_unlit (h : s.listens c) (hkind : x.kind ≠ .fallow) (hlit : s.litIn x.rect c = false) :
    s.applyCode x c code u = s.tally x.bank c 2 fun l => { l with unlitAmb := satAdd 24 l.unlitAmb 1 } := by
  simp [State.applyCode, h.1, h.2, hkind, hlit]

theorem State.applyCode_prefire (h : s.listens c) (hkind : x.kind ≠ .fallow) (hlit : s.litIn x.rect c = true)
    (hcode : code < 32 * x.d) :
    s.applyCode x c code u = s.tally x.bank c 5 fun l => { l with prefire := satAdd 16 l.prefire 1 } := by
  simp [State.applyCode, h.1, h.2, hkind, hlit, hcode]

theorem State.applyCode_plough (h : s.listens c) (hkind : x.kind = .plough) (hlit : s.litIn x.rect c = true)
    (hcode : 32 * x.d ≤ code) :
    s.applyCode x c code u = s.addPlough x.bank c ((code - 32 * x.d) / 32) u := by
  simp [State.applyCode, h.1, h.2, hkind, hlit, Nat.not_lt.2 hcode]

theorem State.applyCode_hit {i : Nat} (h : s.listens c) (hkind : x.kind = .harrow) (hlit : s.litIn x.rect c = true)
    (hcode : 32 * x.d ≤ code) (hhit : ((s.bank x.bank).lane c).hit x.d (code - 32 * x.d) = some i) :
    s.applyCode x c code u = s.addHarrow x.bank c i (code - 32 * x.d - (((s.bank x.bank).lane c).win i).start) := by
  simp [State.applyCode, h.1, h.2, hkind, hlit, Nat.not_lt.2 hcode, hhit]

theorem State.applyCode_out (h : s.listens c) (hkind : x.kind = .harrow) (hlit : s.litIn x.rect c = true)
    (hcode : 32 * x.d ≤ code) (hhit : ((s.bank x.bank).lane c).hit x.d (code - 32 * x.d) = none) :
    s.applyCode x c code u = s.tally x.bank c 3 fun l => { l with harrowOut := satAdd 16 l.harrowOut 1 } := by
  simp [State.applyCode, h.1, h.2, hkind, hlit, Nat.not_lt.2 hcode, hhit]

end

/-! ### Late words (R79) -/

/-- A late word is counted and told. -/
theorem State.lateWord_told {s : State} (x : Option Slot) (c : Nat) (hmode : s.mode ≠ mRESET) :
    (s.lateWord x c).rd F.HIS_LATE_WORD_CNT_COUNT = min (s.rd F.HIS_LATE_WORD_CNT_COUNT + 1) (2 ^ 32 - 1) ∧
      131 ∈ (s.lateWord x c).raised := by
  have hflagged : ∃ v : State, v.regs = s.regs ∧ s.lateWord x c = (v.bump F.HIS_LATE_WORD_CNT_COUNT 1).raise 131 := by
    cases x with
    | none => exact ⟨s, rfl, rfl⟩
    | some y => exact ⟨_, (State.flagLane_fr ..).same .regs (by decide), rfl⟩
  obtain ⟨v, hregs, hlate⟩ := hflagged
  have hcounted : (v.bump F.HIS_LATE_WORD_CNT_COUNT 1).mode ≠ mRESET := by
    rwa [State.mode, State.rd_bump_apart _ _ _ _ (by decide), State.rd_congr hregs]
  rw [hlate, State.rd_raise, State.rd_bump_self _ _ _ (by decide), State.rd_congr hregs,
    State.raised_raise _ _ hcounted (by decide)]
  exact ⟨rfl, by simp⟩

/-- A late word marks the lane of its channel in the point cycle of its slot. -/
theorem State.lateWord_lane (s : State) (y : Slot) (c : Nat) :
    laneBecomes y.bank c { (s.bank y.bank).lane c with flags := withBit ((s.bank y.bank).lane c).flags 9 true } s
      (s.lateWord (some y) c) :=
  laneBecomes_of_his (s.setLane_laneBecomes ..) (State.raise_his ..)

/-! ### Words in time, late words, and words of no slot -/

section
variable {s : State} {f : Fin 192} {w : Word} {x : Slot} {u : Nat}

/-- A word that comes in time and counts in a tally. -/
theorem eventWord_tallied (h : s.arrives f w x u) {i : Nat} {g : Lane → Lane}
    (htally : ((s.takeWord f).applyWord x (wordChannel f w) w u).his = ((s.takeWord f).tally x.bank (wordChannel f w) i g).his) :
    answers (.eventWord f u) s fun t => tallied x.bank (wordChannel f w) i g s t ∧ wordTaken f s t :=
  ⟨_, execEventWord_arrives h, laneBecomes_of_his (s.takeWord_tallied ..) htally, State.applyWord_tdc ..⟩

/-- A word that is late, for whatever slot or for none. -/
theorem eventWord_late {o : Option Slot} (hmode : s.mode ≠ mRESET)
    (hlate : execEventWord f u s = .next ((s.takeWord f).lateWord o (wordChannel f w))) :
    answers (.eventWord f u) s fun t => (o = none → t.his = s.his) ∧
      (∀ y ∈ o, laneBecomes y.bank (wordChannel f w)
        { (s.bank y.bank).lane (wordChannel f w) with flags := withBit ((s.bank y.bank).lane (wordChannel f w)).flags 9 true } s t) ∧
      wordTaken f s t ∧ t.rd F.HIS_LATE_WORD_CNT_COUNT = min (s.rd F.HIS_LATE_WORD_CNT_COUNT + 1) (2 ^ 32 - 1) ∧
      131 ∈ t.raised := by
  refine ⟨_, hlate, ?_, ?_, (State.lateWord_fr ..).same .tdc (by decide), State.lateWord_told (s := s.takeWord f) _ _ hmode⟩
  · rintro rfl
    exact State.raise_his ..
  · rintro y rfl
    exact State.lateWord_lane (s.takeWord f) ..

theorem execEventWord_past (hclock : s.mainStopped = false) (hhead : (Tab.get (fun _ => []) s.tdc.queues f).head? = some w)
    (hslot : s.slotOfTag (Word.field w 26 25) = some x) (htime : x.closeAt + 60000 < u) :
    execEventWord f u s = .next ((s.takeWord f).lateWord (some x) (wordChannel f w)) := by
  have hslot' : (s.takeWord f).slotOfTag (Word.field w 26 25) = some x := hslot
  simp only [execEventWord_of_head u hclock hhead, State.wordComes, hslot', if_pos htime]

/-- With a slot in progress or one before it, a word whose tag names neither is late for an older slot, or for none. -/
theorem execEventWord_older (u : Nat) (hclock : s.mainStopped = false) (hhead : (Tab.get (fun _ => []) s.tdc.queues f).head? = some w)
    (hslot : s.slotOfTag (Word.field w 26 25) = none) (hruns : s.his.cur ≠ none ∨ s.his.prev ≠ none) :
    execEventWord f u s = .next ((s.takeWord f).lateWord (s.olderOfTag (Word.field w 26 25)) (wordChannel f w)) := by
  have hslot' : (s.takeWord f).slotOfTag (Word.field w 26 25) = none := hslot
  have hany : ¬((s.takeWord f).his.cur.isNone && (s.takeWord f).his.prev.isNone) = true := by
    simpa [State.takeWord, State.withTdc, or_iff_not_imp_left] using hruns
  simp only [execEventWord_of_head u hclock hhead, State.wordComes, hslot', if_neg hany]
  rfl

theorem State.slotOfTag_idle (h : s.his.cur = none ∧ s.his.prev = none) (tag : Nat) : s.slotOfTag tag = none := by
  simp [State.slotOfTag, h.1, h.2]

theorem execEventWord_idle (u : Nat) (hclock : s.mainStopped = false) (hhead : (Tab.get (fun _ => []) s.tdc.queues f).head? = some w)
    (hidle : s.his.cur = none ∧ s.his.prev = none) : execEventWord f u s = .next (s.takeWord f) := by
  have hslot : (s.takeWord f).slotOfTag (Word.field w 26 25) = none := State.slotOfTag_idle hidle _
  have hnone : ((s.takeWord f).his.cur.isNone && (s.takeWord f).his.prev.isNone) = true := by
    simp [State.takeWord, State.withTdc, hidle.1, hidle.2]
  simp only [execEventWord_of_head u hclock hhead, State.wordComes, hslot, if_pos hnone]

theorem execEventWord_nothing (u : Nat) (h : s.mainStopped = true ∨ Tab.get (fun _ => []) s.tdc.queues f = []) :
    execEventWord f u s = .next s := by
  unfold execEventWord
  split
  · rfl
  next hqueue => rw [if_pos (h.resolve_right (by simp [hqueue]))]

end

/-! ### The obligation -/

/-- Settles O31: a word in time by what its kind, its slot and its code count in, every count by the lemma on its protected word; a late
word, and a word of no slot, by what each does to the state from which the word has been taken. -/
theorem fabricEventWords : Obligations.FabricEventWords := by
  refine ⟨?fallow, ?unlit, ?prefire, ?plough, ?hit, ?out, ?deaf, ?overflow, ?early, ?invalid, ?late, ?older, ?unknown, ?idle,
    ?nothing⟩
  case fallow =>
    intro s f w x u h hk hl _ hkind
    refine eventWord_tallied h ?_
    rw [State.applyWord_code _ _ _ _ hk, State.applyCode_fallow (s := s.takeWord f) hl hkind]
    exact State.count_his ..
  case unlit =>
    intro s f w x u h hk hl _ hkind hlit
    refine eventWord_tallied h ?_
    rw [State.applyWord_code _ _ _ _ hk, State.applyCode_unlit (s := s.takeWord f) hl hkind hlit]
    rfl
  case prefire =>
    intro s f w x u h hk hl _ hkind hlit hcode
    refine eventWord_tallied h ?_
    rw [State.applyWord_code _ _ _ _ hk, State.applyCode_prefire (s := s.takeWord f) hl hkind hlit hcode]
    rfl
  case plough =>
    intro s f w x u h hk hl _ hkind hlit hcode
    have hcounts := (s.takeWord f).addPlough_counts x.bank (wordChannel f w) ((Word.field w 15 0 - 32 * x.d) / 32) u
    rw [← State.applyCode_plough (s := s.takeWord f) hl hkind hlit hcode, ← State.applyWord_code _ _ _ _ hk] at hcounts
    rw [State.takeWord, State.ploughMet_withTdc, ← State.takeWord] at hcounts
    obtain ⟨hhis, hbin, hplough, hunseen⟩ := hcounts
    exact ⟨_, execEventWord_arrives h, hhis, hbin, hplough, hunseen, State.applyWord_tdc ..⟩
  case hit =>
    intro s f w x u i h hk hl _ hkind hlit hcode hhit
    have hcounts := (s.takeWord f).addHarrow_counts x.bank (wordChannel f w) i
      (Word.field w 15 0 - 32 * x.d - ((((s.takeWord f).bank x.bank).lane (wordChannel f w)).win i).start)
    rw [← State.applyCode_hit (s := s.takeWord f) hl hkind hlit hcode hhit, ← State.applyWord_code _ _ _ _ hk] at hcounts
    rw [State.takeWord, State.harrowMet_withTdc, ← State.takeWord] at hcounts
    obtain ⟨hbank, hplough, hbin, hbins⟩ := hcounts
    exact ⟨_, execEventWord_arrives h, ⟨hbank, hplough⟩, hbin, hbins, State.applyWord_tdc ..⟩
  case out =>
    intro s f w x u h hk hl _ hkind hlit hcode hhit
    refine eventWord_tallied h ?_
    rw [State.applyWord_code _ _ _ _ hk, State.applyCode_out (s := s.takeWord f) hl hkind hlit hcode hhit]
    rfl
  case deaf =>
    intro s f w x u h hk hdeaf
    refine ⟨_, execEventWord_arrives h, ?_, State.applyWord_tdc ..⟩
    rw [State.applyWord_code _ _ _ _ hk, State.applyCode_deaf (s := s.takeWord f) hdeaf]
    rfl
  case overflow => exact fun s f w x u h hk _ => eventWord_tallied h (congrArg State.his (State.applyWord_overflow _ _ _ _ hk))
  case early => exact fun s f w x u h hk _ => eventWord_tallied h (congrArg State.his (State.applyWord_early _ _ _ _ hk))
  case invalid =>
    intro s f w x u h hk _
    refine ⟨_, execEventWord_arrives h, ?_, State.applyWord_tdc ..⟩
    rw [State.applyWord_invalid _ _ _ _ hk]
    exact (s.takeWord f).setLane_laneBecomes ..
  case late =>
    intro s f w x u hmode hclock hhead hslot _ htime
    obtain ⟨t, ht, -, hlane, hrest⟩ := eventWord_late hmode (execEventWord_past hclock hhead hslot htime)
    exact ⟨t, ht, hlane x rfl, hrest⟩
  case older =>
    intro s f w x u hmode hclock hhead hslot _ hruns
    obtain ⟨t, ht, -, hlane, hrest⟩ := eventWord_late hmode (execEventWord_older u hclock hhead hslot.1 hruns)
    exact ⟨t, ht, hlane x hslot.2, hrest⟩
  case unknown =>
    intro s f w u hmode hclock hhead hslot hruns
    obtain ⟨t, ht, hnone, -, hrest⟩ := eventWord_late hmode (execEventWord_older u hclock hhead hslot.1 hruns)
    exact ⟨t, ht, hnone hslot.2, hrest⟩
  case idle =>
    intro s f u hclock hidle hqueue
    exact ⟨_, execEventWord_idle u hclock (List.head?_eq_some_head hqueue) hidle, rfl, rfl, rfl, rfl⟩
  case nothing => exact fun s f u h => ⟨s, execEventWord_nothing u h, rfl⟩

end Sys2Proof.Machine
end

section
/-! A plough word listed under two conditions, which refutes the statement on finders and tiller writes. -/

namespace Sys2Proof.Machine

theorem execLanePublication_publishes {s : State} {f : Fin 192} {l : Nat} (hrun : s.running = true) (hclock : s.mainStopped = false)
    (hopen : s.his.fallowOpen = true) (hdone : Tab.get (fun _ => 0) s.his.lanesDone f = l) (hl : l < 6) :
    execLanePublication f s = .next (s.publish f l) := by
  simp [execLanePublication, hrun, hclock, hopen, hdone, hl]

/-- SCAN in the fallow slot, with one count in plough bin 0 of channel 0, whose word the condition table lists first as uncorrectable
and then as correctable: it reads as uncorrectable, until a correction removes every entry of its key. -/
def twiceListedWord : State :=
  ((State.reset.ready mSCAN).put F.HIS_STATUS_RUNNING true).hs fun h =>
    { h with fallowOpen := true, plough := [(0, 1)], ploughCond := [(0, .ue), (0, .ce)] }

/-- Refutes O33: the clause on lane publication takes BLANK_SUM from the bins as the finder sees them before it meets the errors of the
plough words (R95). The statement ranges over every state, and where the table of conditions lists one word twice, uncorrectable
before correctable, meeting the errors turns a bin that reads 0 into one that reads its count. No command makes such a table of one that
lists each word once; the clause lacks that hypothesis. -/
theorem not_fabricPublicationAndWrites : ¬ Obligations.FabricPublicationAndWrites := by
  rintro ⟨hpublish, -⟩
  have hrun : twiceListedWord.running = true := by decide
  have hclock : twiceListedWord.mainStopped = false := by decide
  obtain ⟨t, ht, -, -, -, -, -, ⟨hblank, -⟩, -⟩ := hpublish twiceListedWord 0 0 hrun hclock rfl rfl (by decide)
  obtain rfl := Host.Outcome.next.inj ((execLanePublication_publishes hrun hclock rfl rfl (by decide)).symm.trans ht)
  have hpublished : (((twiceListedWord.publish 0 0).bank 0).lane 0).blankSum = 1 := by decide
  have hbefore : ((List.range 4).map fun i => twiceListedWord.seenBin 0 i).sum = 0 := by decide
  have hclaimed : (((twiceListedWord.publish 0 0).bank 0).lane 0).blankSum = 0 := hblank.trans (congrArg (min · 65535) hbefore)
  omega

end Sys2Proof.Machine
end

section
/-! Two statements on the tillers' commands that fail, each with a state that shows it: a halted tiller that is listed as stalled on an
EMIT, and a table of conditions whose words stand out of order. -/

namespace Sys2Proof.Machine

/-- STANDBY with tiller 0 halted before an uncorrectable word, loaded with the reference program and listed as stalled on an EMIT. -/
def haltedInEmit : State :=
  (State.reset.ready mSTANDBY).onTiller 0 fun x => { x with
    state := .halted, refRuns := true, stall := some (.emit 0 0x10000 32), imemCond := [(0, .ue)] }

/-- STANDBY with two uncorrectable IMEM words of tiller 0, the later one listed first, and its scrubber at the earlier one. -/
def listedOutOfOrder : State :=
  (State.reset.ready mSTANDBY).onTiller 0 fun x => { x with scrub := 3, imemCond := [(5, .ue), (3, .ue)] }

/-- What the model answers from these states: a halt that has an EMIT to issue again, and the same conditions listed in order. -/
theorem tillerCounterexamples_answered :
    ((answered (exec (.step 0 0) haltedInEmit)).tiller 0).refRedo = some 32 ∧
    ((answered (exec (.scrubRead 0 0) listedOutOfOrder)).tiller 0).imemCond = [(3, .ue), (5, .ue)] := by decide

/-- Refutes O25: the clause on a STEP that fetches an uncorrectable word says that the tiller halts with no EMIT to issue again, as one that
is stalled on nothing does; but of a halted tiller that is listed as stalled on an EMIT of the reference program, the halt abandons that
EMIT, which is then to be issued again (R126, R172). A halt leaves no tiller so; the clause lacks that hypothesis. -/
theorem not_tillerCommands : ¬ Obligations.TillerCommands := by
  rintro ⟨-, -, -, -, -, -, -, -, -, hfetch, -⟩
  obtain ⟨t, ht, hhalted, -⟩ := hfetch haltedInEmit 0 0 (by decide) rfl (by decide) (by decide) (by decide)
  obtain rfl : answered _ = t := congrArg answered ht
  obtain ⟨hredo, -⟩ := tillerCounterexamples_answered
  have hclaimed := congrArg Tiller.refRedo hhalted
  exact absurd (hredo.symm.trans hclaimed) (by decide)

/-- Refutes O26: the clause on a scrub read that finds a word uncorrectable says that the table of conditions stays the same table, but the
scrubber writes the word's condition back, which puts its entry in its place. Every condition reads as before; the tables differ where the
words were not listed in order, which the clause does not exclude. -/
theorem not_tillerMemoryWindow : ¬ Obligations.TillerMemoryWindow := by
  rintro ⟨-, -, -, -, -, -, -, -, -, -, -, -, -, -, hscrub, -⟩
  obtain ⟨t, ht, -, hkept, -⟩ := hscrub listedOutOfOrder 0 0 (by decide) (by decide)
  obtain rfl : answered _ = t := congrArg answered ht
  obtain ⟨-, hsorted⟩ := tillerCounterexamples_answered
  obtain ⟨-, himem⟩ := hkept
  exact absurd (hsorted.symm.trans himem) (by decide)

end Sys2Proof.Machine
end

section
/-! The rules of the tillers' state: what reads of one tiller, of its registers and of the output queue see after each of its operations. -/

namespace Sys2Proof.Machine

/-! ### One tiller among the others -/

theorem State.tiller_congr {s t : State} (h : t.til = s.til) (n : Nat) : t.tiller n = s.tiller n := congrArg (Tab.get _ · n) h

@[simp] theorem State.tiller_setTiller_self (s : State) (n : Nat) (x : Tiller) : (s.setTiller n x).tiller n = x :=
  Tab.get_set_self _ _ _ _

theorem State.tiller_setTiller_ne (s : State) {m n : Nat} (x : Tiller) (h : m ≠ n) : (s.setTiller n x).tiller m = s.tiller m :=
  Tab.get_set_ne _ _ _ h

@[simp] theorem State.tiller_onTiller_self (s : State) (n : Nat) (f : Tiller → Tiller) : (s.onTiller n f).tiller n = f (s.tiller n) :=
  s.tiller_setTiller_self n _

theorem State.tiller_onTiller_ne (s : State) {m n : Nat} (f : Tiller → Tiller) (h : m ≠ n) :
    (s.onTiller n f).tiller m = s.tiller m :=
  s.tiller_setTiller_ne _ h

@[simp] theorem State.rd_onTiller (s : State) (n : Nat) (f : Tiller → Tiller) (g : Fld) : (s.onTiller n f).rd g = s.rd g := rfl

@[simp] theorem State.oq_onTiller (s : State) (n : Nat) (f : Tiller → Tiller) : (s.onTiller n f).oq = s.oq := rfl

theorem othersKeep.of_til {n : Nat} {s t : State} (h : t.til = s.til) : othersKeep n s t := fun m _ => State.tiller_congr h m

theorem othersKeep.trans {n : Nat} {s t u : State} (h : othersKeep n s t) (k : othersKeep n t u) : othersKeep n s u :=
  fun m hm => (k m hm).trans (h m hm)

theorem State.setTiller_othersKeep (s : State) (n : Nat) (x : Tiller) : othersKeep n s (s.setTiller n x) :=
  fun _ hm => s.tiller_setTiller_ne x hm

theorem State.onTiller_othersKeep (s : State) (n : Nat) (f : Tiller → Tiller) : othersKeep n s (s.onTiller n f) :=
  s.setTiller_othersKeep n _

/-! ### Counters and causes -/

theorem Fld.apart_of_addr {f g : Fld} (h : g.addr ≠ f.addr) : Fld.apart f g = true := by simp [Fld.apart, h]

/-- The count of corrected errors and the causes of the tillers stand in words of their own. -/
theorem ceCount_apart_cause (m n : Nat) : Fld.apart (F.TIL_ECC_CE_CNT_COUNT m) (F.TIL_EVT_CAUSE_CAUSE n) = true :=
  Fld.apart_of_addr (by simp only [F.TIL_ECC_CE_CNT_COUNT, F.TIL_EVT_CAUSE_CAUSE, R.TIL_ECC_CE_CNT, R.TIL_EVT_CAUSE]; omega)

@[simp] theorem State.tilCause_til (s : State) (n b : Nat) : (s.tilCause n b).til = s.til := (s.tilCause_fr n b).same .til (by decide)

@[simp] theorem State.tilCE_til (s : State) (n : Nat) : (s.tilCE n).til = s.til := (s.tilCE_fr n).same .til (by decide)

@[simp] theorem State.tilUE_til (s : State) (n : Nat) : (s.tilUE n).til = s.til := rfl

@[simp] theorem State.count_til (s : State) (g lo inst k : Nat) : (s.count g lo inst k).til = s.til :=
  (s.count_fr g lo inst k).same .til (by decide)

@[simp] theorem State.countTil_til (s : State) (n lo k : Nat) : (s.countTil n lo k).til = s.til :=
  (s.countTil_fr n lo k).same .til (by decide)

@[simp] theorem State.derateCheck_til (s : State) : s.derateCheck.til = s.til := s.derateCheck_fr.same .til (by decide)

@[simp] theorem State.tilCause_oq (s : State) (n b : Nat) : (s.tilCause n b).oq = s.oq := (s.tilCause_fr n b).same .oq (by decide)

@[simp] theorem State.tilCE_oq (s : State) (n : Nat) : (s.tilCE n).oq = s.oq := (s.tilCE_fr n).same .oq (by decide)

@[simp] theorem State.count_oq (s : State) (g lo inst k : Nat) : (s.count g lo inst k).oq = s.oq :=
  (s.count_fr g lo inst k).same .oq (by decide)

@[simp] theorem State.countTil_oq (s : State) (n lo k : Nat) : (s.countTil n lo k).oq = s.oq :=
  (s.countTil_fr n lo k).same .oq (by decide)

/-- Among eight causes, to set one that is clear is to join it to those that stand. -/
theorem add_cause_eq_or {x b : Nat} (hx : x < 2 ^ 8) (hb : b < 8) (h : x.testBit b = false) :
    (x + 2 ^ b) % 2 ^ 8 = x ||| 2 ^ b := by
  have hclear : BitVec.ofNat 8 x &&& BitVec.twoPow 8 b = 0#8 := by
    rw [BitVec.and_twoPow, BitVec.getLsbD_ofNat, h, Bool.and_false, if_neg Bool.false_ne_true]
  have hsmall : 2 ^ b < 2 ^ 8 := Nat.pow_lt_pow_right (by decide) hb
  have hsum := congrArg BitVec.toNat (BitVec.add_eq_or_of_and_eq_zero _ _ hclear)
  rwa [BitVec.toNat_add, BitVec.toNat_or, BitVec.toNat_ofNat, BitVec.toNat_twoPow, Nat.mod_eq_of_lt hx, Nat.mod_eq_of_lt hsmall] at hsum

/-- A cause is set among those that stand (R134). -/
theorem State.testBit_tilCause_self (s : State) (n : Nat) {b : Nat} (c : Nat) (hb : b < 8) :
    ((s.tilCause n b).rd (F.TIL_EVT_CAUSE_CAUSE n)).testBit c =
      ((s.rd (F.TIL_EVT_CAUSE_CAUSE n)).testBit c || decide (b = c)) := by
  simp only [State.tilCause]
  split
  next hset =>
    by_cases hc : b = c
    · simp [← hc, hset]
    · simp [hc]
  next hclear =>
    have hjoin : (s.wr (F.TIL_EVT_CAUSE_CAUSE n) (s.rd (F.TIL_EVT_CAUSE_CAUSE n) + 2 ^ b)).rd (F.TIL_EVT_CAUSE_CAUSE n) =
        s.rd (F.TIL_EVT_CAUSE_CAUSE n) ||| 2 ^ b :=
      (s.rd_wr_self _ _ (show 7 < 32 by decide)).trans (add_cause_eq_or (s.rd_lt _) hb (Bool.eq_false_of_not_eq_true hclear))
    rw [State.rd_raiseIf, hjoin, Nat.testBit_or, Nat.testBit_two_pow]

theorem State.rd_tilCause_apart (s : State) (n b : Nat) (f : Fld) (h : Fld.apart (F.TIL_EVT_CAUSE_CAUSE n) f = true) :
    (s.tilCause n b).rd f = s.rd f := by
  simp only [State.tilCause]
  split
  · rfl
  · rw [State.rd_raiseIf, State.rd_wr_apart _ _ _ _ h]

/-- A corrected error is counted, and tells at most CE_LIMIT (R110). -/
theorem State.rd_tilCE_apart (s : State) (n : Nat) (f : Fld) (hcount : Fld.apart (F.TIL_ECC_CE_CNT_COUNT n) f = true)
    (hcause : Fld.apart (F.TIL_EVT_CAUSE_CAUSE n) f = true) : (s.tilCE n).rd f = s.rd f := by
  simp only [State.tilCE]
  split
  · rw [State.rd_tilCause_apart _ _ _ _ hcause, State.rd_bump_apart _ _ _ _ hcount]
  · exact State.rd_bump_apart _ _ _ _ hcount

theorem State.rd_tilCE_cause (s : State) (n : Nat) :
    (s.tilCE n).rd (F.TIL_EVT_CAUSE_CAUSE n) = s.rd (F.TIL_EVT_CAUSE_CAUSE n) ∨
      ((s.tilCE n).rd (F.TIL_EVT_CAUSE_CAUSE n)).testBit 7 = true := by
  simp only [State.tilCE]
  split
  · exact .inr (by simp [State.testBit_tilCause_self])
  · exact .inl (State.rd_bump_apart _ _ _ _ (ceCount_apart_cause n n))

theorem State.testBit_tilCE (s : State) (n c : Nat) (h : (s.rd (F.TIL_EVT_CAUSE_CAUSE n)).testBit c = true) :
    ((s.tilCE n).rd (F.TIL_EVT_CAUSE_CAUSE n)).testBit c = true := by
  have hbump := s.rd_bump_apart _ _ 1 (ceCount_apart_cause n n)
  simp only [State.tilCE]
  split
  · simp [State.testBit_tilCause_self, hbump, h]
  · rw [hbump, h]

end Sys2Proof.Machine
end

section
/-! Attention (R119, R120, R177): what the reference program's answers leave of its tiller, and the boundary that takes an attention. -/

namespace Sys2Proof.Machine

/-! ### What an answer leaves (R177, R180) -/

/-- What tiller `x` holds of an attention while its handler runs: where it returns to, its sources and its STATE. -/
def Tiller.attnView (x : Tiller) : Nat × Nat × Nat × Bool × Bool × TilState :=
  (x.attnPc, x.savedFlags, x.attnSrc, x.pendMsg, x.pendDl, x.state)

/-- From `s` to `t` tiller `n` keeps what it holds of an attention and its queue, and every other tiller stays. -/
abbrev inHandler (n : Nat) (s t : State) : Prop :=
  othersKeep n s t ∧ (t.tiller n).attnView = (s.tiller n).attnView ∧ (t.tiller n).candQ = (s.tiller n).candQ

theorem inHandler.trans {n : Nat} {s t u : State} (h : inHandler n s t) (k : inHandler n t u) : inHandler n s u :=
  let ⟨hothers, hview, hqueue⟩ := h
  let ⟨kothers, kview, kqueue⟩ := k
  ⟨hothers.trans kothers, kview.trans hview, kqueue.trans hqueue⟩

theorem inHandler.of_til {n : Nat} {s t : State} (h : t.til = s.til) : inHandler n s t :=
  ⟨.of_til h, by rw [State.tiller_congr h], by rw [State.tiller_congr h]⟩

theorem inHandler.refl (n : Nat) (s : State) : inHandler n s s := .of_til rfl

theorem inHandler.onTiller {n : Nat} {s t : State} (h : inHandler n s t) {f : Tiller → Tiller}
    (hf : ∀ x, (f x).attnView = x.attnView ∧ (f x).candQ = x.candQ) : inHandler n s (t.onTiller n f) :=
  h.trans ⟨t.onTiller_othersKeep n f, by rw [t.tiller_onTiller_self, (hf _).1], by rw [t.tiller_onTiller_self, (hf _).2]⟩

theorem State.readDmem_inHandler (s : State) (n i : Nat) : inHandler n s (s.readDmem n i).2.2 := by
  simp only [State.readDmem]
  split
  case h_1 => exact .refl n s
  case h_2 =>
    have hclean := (inHandler.refl n s).onTiller (f := fun x => { x with dmemCond := Tab.set (fun _ => .ok) x.dmemCond i .ok })
      fun _ => ⟨rfl, rfl⟩
    exact hclean.trans (.of_til (State.tilCE_til ..))
  case h_3 => exact .of_til (by simp)
  case h_4 => exact .refl n s

theorem State.readWord_inHandler (s : State) (n a : Nat) : inHandler n s (s.readWord n a).2.2 := by
  unfold State.readWord
  split
  case h_1 => exact s.readDmem_inHandler n _
  case h_2 => exact .of_til ((State.readView_fr ..).same .til (by decide))
  case h_3 => exact .refl n s

theorem State.readWords_inHandler (s : State) (n a k : Nat) : inHandler n s (s.readWords n a k).2 := by
  induction k generalizing s a with
  | zero => exact .refl n s
  | succ k ih => exact (s.readWord_inHandler n a).trans (ih _ _)

theorem State.refLoad_inHandler (s : State) (n a k : Nat) : inHandler n s (s.refLoad n a k).2.2 := by
  simp only [State.refLoad]
  split
  · exact (s.readWords_inHandler n a k).onTiller fun _ => ⟨rfl, rfl⟩
  · exact s.readWords_inHandler n a k

theorem State.refBins_inHandler (s : State) (n l kr : Nat) : inHandler n s (s.refBins n l kr).2.2 := by
  simp only [State.refBins]
  refine List.foldlRecOn (motive := fun (r : (List (Nat × Nat) × Bool) × State) => inHandler n s r.2) _ _ (.refl n s) fun r hr j _ => ?_
  split
  · exact hr
  · exact hr.trans (r.2.refLoad_inHandler n _ 1)

theorem State.localReg_dlRemain_til (s : State) (n t : Nat) : (s.localReg n 0x30008 t).2.til = s.til := by
  simp only [State.localReg, Nat.reduceEqDiff, if_false, if_true]
  split
  · exact (State.drawFree_fr s 8).same .til (by decide)
  · rfl

theorem State.refSend_inHandler (s : State) (n t w : Nat) : inHandler n s (s.refSend n t w).2 := by
  simp only [State.refSend]
  have hread : inHandler n s (s.localReg n 0x30008 t).2 := .of_til (s.localReg_dlRemain_til n t)
  split
  · dsimp only
    exact hread.onTiller fun _ => ⟨rfl, rfl⟩
  · exact hread

theorem State.refAnswer_inHandler (s : State) (n t m : Nat) : inHandler n s (s.refAnswer n t m) := by
  unfold State.refAnswer
  extract_lets l i head
  split
  next w s1 hp =>
    have hwindow : inHandler n s s1 := by
      obtain rfl := congrArg Prod.snd hp
      split
      · exact .refl n s
      · have hbins := s.refBins_inHandler n l (bits m 63 48 / 32)
        generalize s.refBins n l (bits m 63 48 / 32) = r at hbins ⊢
        obtain ⟨bins, bad, s'⟩ := r
        dsimp only at hbins ⊢
        exact hbins.onTiller fun _ => ⟨rfl, rfl⟩
    split
    next sent s2 hsend =>
      obtain rfl := congrArg Prod.snd hsend
      have hsent := hwindow.trans (s1.refSend_inHandler n t w)
      split
      · exact hsent
      · exact hsent.onTiller fun _ => ⟨rfl, rfl⟩

/-- Answering takes candidates from the front of the queue until none stands there, and leaves what else its tiller holds of the
attention. -/
theorem State.refAnswers_spec (s : State) (n t k : Nat) (hk : (s.tiller n).candQ.length ≤ k) :
    othersKeep n s (s.refAnswers n t k) ∧ ((s.refAnswers n t k).tiller n).attnView = (s.tiller n).attnView ∧
      (((s.refAnswers n t k).tiller n).candQ.head?.all fun m => !isCandidate m) = true := by
  induction k generalizing s with
  | zero =>
    rw [State.refAnswers, List.length_eq_zero_iff.1 (Nat.le_zero.1 hk)]
    exact ⟨fun _ _ => rfl, rfl, rfl⟩
  | succ k ih =>
    unfold State.refAnswers
    split
    case h_1 m q hq =>
      split
      next hcand =>
        have htaken := s.onTiller_othersKeep n fun x => { x with candQ := q }
        obtain ⟨hkept, hanswered, hqueue⟩ := State.refAnswer_inHandler (s.onTiller n fun x => { x with candQ := q }) n t m.toNat
        have hleft : (((s.onTiller n fun x => { x with candQ := q }).refAnswer n t m.toNat).tiller n).candQ = q := by
          rw [hqueue, s.tiller_onTiller_self]
        rw [hq, List.length_cons] at hk
        obtain ⟨hothers, hview, hfront⟩ := ih _ (by rw [hleft]; omega)
        refine ⟨(htaken.trans hkept).trans hothers, (hview.trans hanswered).trans ?_, hfront⟩
        rw [s.tiller_onTiller_self]
        rfl
      next hother =>
        rw [hq]
        exact ⟨fun _ _ => rfl, rfl, by simpa using hother⟩
    case h_2 hq =>
      rw [hq]
      exact ⟨fun _ _ => rfl, rfl, rfl⟩

theorem State.refScratch_inHandler (s : State) (n : Nat) : inHandler n s (s.refScratch n) := by
  have hdraw : inHandler n s (s.drawFree (32 * 32 + 32 * 128 + 32)).2 := .of_til rfl
  unfold State.refScratch
  dsimp only
  exact hdraw.onTiller fun _ => ⟨rfl, rfl⟩

/-! ### The boundary (R119) -/

/-- Tiller `x` as an attention takes it to the handler at `vec`. -/
def Tiller.diverted (x : Tiller) (vec : Nat) : Tiller :=
  { x with attnPc := x.pc, savedFlags := x.flags, inAttn := true, pc := vec, attnSrc := x.pendMsg.toNat + 2 * x.pendDl.toNat,
           pendMsg := false, pendDl := false }

theorem Tiller.attnSources (x : Tiller) :
    x.pendMsg.toNat + 2 * x.pendDl.toNat = (if x.pendMsg then 1 else 0) + (if x.pendDl then 2 else 0) := by
  cases x.pendMsg <;> cases x.pendDl <;> rfl

/-- The attention is due at the boundary (R119, R159). -/
theorem execAttention_due {s : State} {n : Fin 192} (t : Nat) (hclock : s.tilStopped = false) (hrun : (s.tiller n).state = .running)
    (hhalt : (s.tiller n).haltReq = false) (hattn : (s.tiller n).inAttn = false) (htrap : (s.tiller n).inTrap = false)
    (hen : s.on (F.TIL_CFG_MSG_ATTN n) = true) (hpend : (s.tiller n).pendMsg = true ∨ (s.tiller n).pendDl = true) :
    execAttention n t s = .next (s.attend n t) := by
  have hdue : s.attnDue n = true := by simp [State.attnDue, hen, hattn, htrap, hpend]
  simp [execAttention, hclock, hrun, hhalt, hdue]

theorem execAttention_not_due {s : State} {n : Fin 192} (t : Nat)
    (h : s.tilStopped = true ∨ (s.tiller n).state ≠ .running ∨ (s.tiller n).haltReq = true ∨ (s.tiller n).inAttn = true ∨
      (s.tiller n).inTrap = true ∨ s.on (F.TIL_CFG_MSG_ATTN n) = false ∨
      ((s.tiller n).pendMsg = false ∧ (s.tiller n).pendDl = false)) :
    execAttention n t s = .next s := by
  refine congrArg Host.Outcome.next (if_pos ?_)
  simp only [State.attnDue, Bool.or_eq_true, Bool.not_eq_true', bne_iff_ne, Bool.and_eq_false_iff, Bool.or_eq_false_iff,
    Bool.not_eq_false']
  tauto

theorem State.attend_handler {s : State} {n : Nat} (t : Nat) (href : (s.tiller n).refRuns = false) :
    s.attend n t = (s.onTiller n fun x => x.diverted (4 * s.rd (F.TIL_ATTN_VEC_WORD n))).countTil n 8 1 :=
  if_pos (by rw [href]; rfl)

/-- The reference program's handler answers, and comes back to where it was. -/
theorem State.attend_reference {s : State} {n : Nat} (t : Nat) (href : (s.tiller n).refRuns = true) :
    othersKeep n s (s.attend n t) ∧ ((s.attend n t).tiller n).pc = (s.tiller n).pc ∧
      ((s.attend n t).tiller n).flags = (s.tiller n).flags ∧ ((s.attend n t).tiller n).inAttn = false ∧
      ((s.attend n t).tiller n).pendMsg = false ∧ ((s.attend n t).tiller n).pendDl = false ∧
      ((s.attend n t).tiller n).attnSrc = (s.tiller n).pendMsg.toNat + 2 * (s.tiller n).pendDl.toNat ∧
      ((s.attend n t).tiller n).state = (s.tiller n).state ∧
      (((s.attend n t).tiller n).candQ.head?.all fun m => !isCandidate m) = true := by
  let d := (s.onTiller n fun x => x.diverted (4 * s.rd (F.TIL_ATTN_VEC_WORD n))).countTil n 8 1
  let a := d.refAnswers n t (s.tiller n).candQ.length
  have hattend : s.attend n t = (a.refScratch n).onTiller n fun y => { y with inAttn := false, pc := y.attnPc, flags := y.savedFlags } :=
    if_neg (by rw [href]; decide)
  have hd : d.tiller n = (s.tiller n).diverted (4 * s.rd (F.TIL_ATTN_VEC_WORD n)) :=
    (State.tiller_congr (State.countTil_til ..) n).trans (s.tiller_onTiller_self n _)
  obtain ⟨hothers, hview, hfront⟩ := d.refAnswers_spec n t (s.tiller n).candQ.length (by rw [hd]; exact le_rfl)
  obtain ⟨hkeep, hscratch, hqueue⟩ := a.refScratch_inHandler n
  have hback : ((a.refScratch n).tiller n).attnView = (d.tiller n).attnView := hscratch.trans hview
  simp only [Tiller.attnView, hd, Tiller.diverted, Prod.mk.injEq] at hback
  obtain ⟨hpc, hflags, hsrc, hmsg, hdl, hstate⟩ := hback
  rw [hattend, State.tiller_onTiller_self]
  refine ⟨?_, hpc, hflags, rfl, hmsg, hdl, hsrc, hstate, ?_⟩
  · have hdiverted : othersKeep n s d := (s.onTiller_othersKeep n _).trans (.of_til (State.countTil_til ..))
    exact ((hdiverted.trans hothers).trans hkeep).trans (State.onTiller_othersKeep _ n _)
  · rw [hqueue]
    exact hfront

/-! ### The deadline alarm (R119) -/

theorem execDlAlarm_fires {s : State} {n : Fin 192} (hrun : s.running = true) (hen : s.on (F.TIL_CFG_MSG_ATTN n) = true)
    (halarm : s.rd (F.TIL_ATTN_CFG_DL_ALARM n) ≠ 0) (hfresh : (s.tiller n).dlFired = false) :
    execDlAlarm n s = .next (s.setTiller n { s.tiller n with pendDl := true, dlFired := true }) := by
  simp [execDlAlarm, hrun, hen, halarm, hfresh, State.onTiller]

theorem execDlAlarm_silent {s : State} {n : Fin 192} (h : s.running = false ∨ s.on (F.TIL_CFG_MSG_ATTN n) = false ∨
    s.rd (F.TIL_ATTN_CFG_DL_ALARM n) = 0 ∨ (s.tiller n).dlFired = true) : execDlAlarm n s = .next s := by
  refine congrArg Host.Outcome.next (if_neg ?_)
  simp only [Bool.and_eq_true, bne_iff_ne, Bool.not_eq_true']
  rintro ⟨⟨⟨hrun, hen⟩, halarm⟩, hfired⟩
  simp [hrun, hen, halarm, hfired] at h

end Sys2Proof.Machine
end

section
/-! The end of an instruction (R128), of a stalled EMIT (R122, R124), and the fetch of a word that cannot be corrected (R110, R111). -/

namespace Sys2Proof.Machine

theorem obsSat_of_lt {a : Nat} (h : a < 0xe00040) : obsSat a = false :=
  Bool.and_eq_false_iff.2 (.inl (decide_eq_false (by simp only [R.OBS_SAT]; omega)))

@[simp] theorem obsSat_droppedCount (n : Nat) : obsSat (F.TIL_CNT_DROPPED_COUNT n).addr = false :=
  obsSat_of_lt (by simp only [F.TIL_CNT_DROPPED_COUNT, R.TIL_CNT_DROPPED]; omega)

@[simp] theorem obsSat_emitCount (n : Nat) : obsSat (F.TIL_CNT_EMIT_COUNT n).addr = false :=
  obsSat_of_lt (by simp only [F.TIL_CNT_EMIT_COUNT, R.TIL_CNT_EMIT]; omega)

@[simp] theorem obsSat_tilCause (n : Nat) : obsSat (F.TIL_EVT_CAUSE_CAUSE n).addr = false :=
  obsSat_of_lt (by simp only [F.TIL_EVT_CAUSE_CAUSE, R.TIL_EVT_CAUSE]; omega)

/-! ### The end of a STEP -/

/-- A halt that no memory error caused changes its tiller alone. -/
theorem State.tilHalt_breakpoint (s : State) (n : Nat) : s.tilHalt n 2 = s.onTiller n fun x => x.halted 2 := by
  refine if_neg ?_
  rw [State.tiller_onTiller_self]
  simp [Tiller.haltUE, Tiller.halted]

/-- Tiller `x` after an instruction: one that runs a STEP halts. -/
def Tiller.stepEnded (x : Tiller) : Tiller := if x.stepping && x.state == .running then x.halted 2 else x

theorem State.stepDone_cases (s : State) (n : Nat) :
    (s.stepDone n = s ∧ (s.tiller n).stepEnded = s.tiller n) ∨ s.stepDone n = s.onTiller n Tiller.stepEnded := by
  by_cases h : ((s.tiller n).stepping && (s.tiller n).state == .running) = true
  · refine .inr ((if_pos h).trans ((s.tilHalt_breakpoint n).trans (congrArg (s.setTiller n) (if_pos h).symm)))
  · exact .inl ⟨if_neg h, if_neg h⟩

theorem State.tiller_stepDone_self (s : State) (n : Nat) : (s.stepDone n).tiller n = (s.tiller n).stepEnded := by
  obtain ⟨h, hkept⟩ | h := s.stepDone_cases n
  · rw [h, hkept]
  · rw [h, State.tiller_onTiller_self]

theorem State.stepDone_othersKeep (s : State) (n : Nat) : othersKeep n s (s.stepDone n) := by
  obtain ⟨h, -⟩ | h := s.stepDone_cases n
  · rw [h]; exact fun _ _ => rfl
  · rw [h]; exact s.onTiller_othersKeep n _

@[simp] theorem State.rd_stepDone (s : State) (n : Nat) (f : Fld) : (s.stepDone n).rd f = s.rd f := by
  obtain ⟨h, -⟩ | h := s.stepDone_cases n <;> rw [h]
  rfl

@[simp] theorem State.oq_stepDone (s : State) (n : Nat) : (s.stepDone n).oq = s.oq := by
  obtain ⟨h, -⟩ | h := s.stepDone_cases n <;> rw [h]
  rfl

/-! ### The end of a stalled instruction -/

/-- Tiller `x`, whose stalled instruction had the effect `f`, runs on behind it. -/
def Tiller.resumed (x : Tiller) (f : Tiller → Tiller) : Tiller :=
  { f x with
    state := .running, stall := none, transferring := false, pc := (f x).pc + 4, sampleLeft := (f x).sampleLeft - 1
    retAttn := x.inAttn, retTrap := x.inTrap }

theorem State.resume_eq (s : State) (n : Nat) (f : Tiller → Tiller) :
    s.resume n f = ((s.onTiller n fun x => x.resumed f).countTil n 2 1).stepDone n := rfl

theorem State.tiller_resume_self (s : State) (n : Nat) (f : Tiller → Tiller) :
    (s.resume n f).tiller n = ((s.tiller n).resumed f).stepEnded := by
  rw [s.resume_eq, State.tiller_stepDone_self, State.tiller_congr (State.countTil_til ..), State.tiller_onTiller_self]

theorem State.resume_othersKeep (s : State) (n : Nat) (f : Tiller → Tiller) : othersKeep n s (s.resume n f) :=
  ((s.onTiller_othersKeep n _).trans (.of_til (State.countTil_til ..))).trans (State.stepDone_othersKeep _ n)

@[simp] theorem State.rd_resume (s : State) (n : Nat) (f : Tiller → Tiller) (g : Fld) (h : obsSat g.addr = false) :
    (s.resume n f).rd g = s.rd g := by
  rw [s.resume_eq, State.rd_stepDone, State.rd_countTil _ _ _ _ _ h, State.rd_onTiller]

@[simp] theorem State.oq_resume (s : State) (n : Nat) (f : Tiller → Tiller) : (s.resume n f).oq = s.oq := by
  rw [s.resume_eq, State.oq_stepDone, State.countTil_oq, State.oq_onTiller]

/-- The EMIT that tiller `n` is stalled on ends with `result` in its destination. -/
theorem State.emitEnds_emit {s : State} {n rd a len : Nat} (result : Nat) (hstall : (s.tiller n).stall = some (.emit rd a len))
    (hidle : s.oq.transfer = none) : s.emitEnds n result = s.resume n fun x => x.setS rd (BitVec.ofNat 32 result) := by
  simp [State.emitEnds, hstall, hidle]

/-- The end of an EMIT leaves the other tillers, who owns the bank, and the words outside performance counting. -/
theorem State.emitEnds_keeps (s : State) (n result : Nat) :
    othersKeep n s (s.emitEnds n result) ∧ ((s.emitEnds n result).tiller n).own = (s.tiller n).own ∧
      ∀ g : Fld, obsSat g.addr = false → (s.emitEnds n result).rd g = s.rd g := by
  have hresume : ∀ (u : State) (rd : Nat), u.til = s.til → u.regs = s.regs →
      othersKeep n s (u.resume n fun x => x.setS rd (BitVec.ofNat 32 result)) ∧
        ((u.resume n fun x => x.setS rd (BitVec.ofNat 32 result)).tiller n).own = (s.tiller n).own ∧
        ∀ g : Fld, obsSat g.addr = false → (u.resume n fun x => x.setS rd (BitVec.ofNat 32 result)).rd g = s.rd g := by
    intro u rd htil hregs
    refine ⟨(othersKeep.of_til htil).trans (u.resume_othersKeep n _), ?_, fun g hg => ?_⟩
    · rw [State.tiller_resume_self, State.tiller_congr htil]
      simp only [Tiller.stepEnded, Tiller.resumed, Tiller.halted, Tiller.setS]
      split <;> split <;> rfl
    · rw [State.rd_resume _ _ _ _ hg, State.rd_congr hregs]
  unfold State.emitEnds
  split
  · split
    · exact hresume _ _ rfl rfl
    · exact hresume _ _ rfl rfl
  · exact ⟨fun _ _ => rfl, rfl, fun _ _ => rfl⟩

/-! ### An instruction word that cannot be corrected -/

/-- Nothing stands between a tiller that issues and its fetch. -/
theorem State.issue_of_issues {s : State} {n : Nat} (h : issues n s) (f : State → State) :
    s.issue n f = (f (s.setTiller n { s.tiller n with fresh := false })).stepDone n := by
  obtain ⟨hclock, hrun, hdivert, hpc, hword, hbreak⟩ := h
  have hpast : (!(s.tiller n).fresh && s.on (F.TIL_BKPT_EN n) && (s.tiller n).pc == 4 * s.rd (F.TIL_BKPT_WORD n)) = false := by
    simp only [Bool.and_eq_false_iff, Bool.not_eq_false', beq_eq_false_iff_ne]
    tauto
  have hfetch : (s.setTiller n { s.tiller n with fresh := false }).fetched n f =
      f (s.setTiller n { s.tiller n with fresh := false }) := by
    simp only [State.fetched, State.tiller_setTiller_self, hword]
  have hfree : ¬(s.tilStopped || (s.tiller n).state != .running || s.diverts n) = true := by simp [hclock, hrun, hdivert]
  have hinside : ¬0x8000 ≤ (s.tiller n).pc := by omega
  exact (if_neg hfree).trans ((if_neg (by rw [hpast]; decide)).trans
    (congrArg (State.stepDone · n) ((if_neg hinside).trans hfetch)))

/-- No area of the mask `m` over `l` reaches into the words from `lo` to `hi`. -/
def outOfRange (lo hi : Nat) : Nat → List (Nat × Nat × Nat × Nat) → Bool
  | _, [] => true
  | m, e :: r => (m % 2 == 0 || decide (hi ≤ e.1) || decide (e.2.1 ≤ lo)) && outOfRange lo hi (m / 2) r

theorem clearOf.go_of_outOfRange {lo hi : Nat} {f : Fld} (hlo : lo ≤ f.addr) (hhi : f.addr < hi)
    (l : List (Nat × Nat × Nat × Nat)) (m : Nat) (h : outOfRange lo hi m l = true) : clearOf.go f m l = true := by
  induction l generalizing m with
  | nil => rfl
  | cons e r ih =>
    obtain ⟨hout, hrest⟩ := Bool.and_eq_true_iff.1 h
    simp only [Bool.or_eq_true, decide_eq_true_eq] at hout
    refine Bool.and_eq_true_iff.2 ⟨?_, ih _ hrest⟩
    simp only [Bool.or_eq_true, decide_eq_true_eq]
    obtain (hoff | habove) | hbelow := hout
    · exact .inl (.inl (.inl (.inl hoff)))
    · exact .inl (.inl (.inl (.inr (by omega))))
    · exact .inl (.inl (.inr (by omega)))

theorem clearOf_of_outOfRange {lo hi w : Nat} {f : Fld} (hlo : lo ≤ f.addr) (hhi : f.addr < hi) (hbits : f.hi ≤ 31)
    (hw : w.testBit Written.all.bit = false ∧ outOfRange lo hi (w / 2 ^ 24) Written.bounds = true) : clearOf w f = true := by
  obtain ⟨hsome, hout⟩ := hw
  rw [clearOf, decide_eq_true hbits, hsome, clearOf.go_of_outOfRange hlo hhi _ _ hout]
  rfl

set_option maxRecDepth 4000 in
/-- A change of mode writes no word of a tiller's stride. -/
theorem State.rd_derateCheck_tiller (s : State) (f : Fld) (hlo : 0x400000 ≤ f.addr) (hhi : f.addr < 0x4c0000) (hbits : f.hi ≤ 31) :
    s.derateCheck.rd f = s.rd f :=
  s.derateCheck_fr.rd f (clearOf_of_outOfRange hlo hhi hbits (by decide))

theorem State.rd_derateCheck_ueCount (s : State) (n : Nat) :
    s.derateCheck.rd (F.TIL_ECC_UE_CNT_COUNT n) = s.rd (F.TIL_ECC_UE_CNT_COUNT n) := by
  refine s.rd_derateCheck_tiller _ ?_ ?_ (Nat.le_refl _) <;> simp only [F.TIL_ECC_UE_CNT_COUNT, R.TIL_ECC_UE_CNT] <;> omega

theorem State.rd_derateCheck_cause (s : State) (n : Nat) :
    s.derateCheck.rd (F.TIL_EVT_CAUSE_CAUSE n) = s.rd (F.TIL_EVT_CAUSE_CAUSE n) := by
  refine s.rd_derateCheck_tiller _ ?_ ?_ (show 7 ≤ 31 by decide) <;> simp only [F.TIL_EVT_CAUSE_CAUSE, R.TIL_EVT_CAUSE] <;> omega

theorem cause_apart_ueCount (m n : Nat) : Fld.apart (F.TIL_EVT_CAUSE_CAUSE n) (F.TIL_ECC_UE_CNT_COUNT m) = true :=
  Fld.apart_of_addr (by simp only [F.TIL_ECC_UE_CNT_COUNT, F.TIL_EVT_CAUSE_CAUSE, R.TIL_ECC_UE_CNT, R.TIL_EVT_CAUSE]; omega)

/-- Tiller `x` halted by the word at its PC. -/
def Tiller.fetchFailed (x : Tiller) : Tiller := { x with trapCause := 2, epc := x.pc }.halted 4

/-- An uncorrectable fetch halts its tiller, is counted, and tells of the error (R110, R111). -/
theorem State.imemUE_eq (s : State) (n : Nat) :
    s.imemUE n = ((((s.onTiller n fun x => { x with trapCause := 2, epc := x.pc }).tilUE n).onTiller n fun x =>
      x.halted 4).tilCause n 2).derateCheck := by
  refine if_pos ?_
  rw [State.tiller_onTiller_self]
  simp [Tiller.haltUE, Tiller.halted]

theorem State.imemUE_spec (s : State) (n : Nat) :
    (s.imemUE n).tiller n = (s.tiller n).fetchFailed ∧ othersKeep n s (s.imemUE n) ∧
      (s.imemUE n).rd (F.TIL_ECC_UE_CNT_COUNT n) = min (s.rd (F.TIL_ECC_UE_CNT_COUNT n) + 1) (2 ^ 32 - 1) ∧
      ((s.imemUE n).rd (F.TIL_EVT_CAUSE_CAUSE n)).testBit 2 = true := by
  rw [s.imemUE_eq n]
  refine ⟨?_, ?_, ?_, ?_⟩
  · rw [State.tiller_congr (State.derateCheck_til _), State.tiller_congr (State.tilCause_til ..), State.tiller_onTiller_self,
      State.tiller_congr (State.tilUE_til ..), State.tiller_onTiller_self]
    rfl
  · refine .trans ?_ (.of_til ((State.derateCheck_til _).trans (State.tilCause_til ..)))
    exact ((s.onTiller_othersKeep n _).trans (.of_til (State.tilUE_til ..))).trans (State.onTiller_othersKeep _ n _)
  · rw [State.rd_derateCheck_ueCount, State.rd_tilCause_apart _ _ _ _ (cause_apart_ueCount n n), State.rd_onTiller]
    exact State.rd_bump_self _ _ 1 (show 31 < 32 by decide)
  · rw [State.rd_derateCheck_cause, State.testBit_tilCause_self _ _ _ (by decide)]
    simp

/-- What `imemUeFetch` answers of a tiller that issues: it halts before the word, the error counted and told. -/
theorem execImemUeFetch_issues {s : State} {n : Fin 192} (h : issues n s) : ∃ t : State, execImemUeFetch n s = .next t ∧
    t.tiller n = Tiller.fetchFailed { s.tiller n with
      fresh := false, imemCond := Tab.set (fun _ => .ok) (s.tiller n).imemCond ((s.tiller n).pc / 4) .ue } ∧
    t.rd (F.TIL_ECC_UE_CNT_COUNT n) = min (s.rd (F.TIL_ECC_UE_CNT_COUNT n) + 1) (2 ^ 32 - 1) ∧
    (t.rd (F.TIL_EVT_CAUSE_CAUSE n)).testBit 2 = true ∧ othersKeep n s t := by
  obtain ⟨htiller, hothers, hcount, hcause⟩ := State.imemUE_spec ((s.setTiller n { s.tiller n with fresh := false }).onTiller n fun x =>
    { x with imemCond := Tab.set (fun _ => .ok) x.imemCond (x.pc / 4) .ue }) n
  rw [State.tiller_onTiller_self, State.tiller_setTiller_self] at htiller
  refine ⟨_, congrArg Host.Outcome.next (State.issue_of_issues h _), ?_, ?_, ?_, ?_⟩
  · rw [State.tiller_stepDone_self, htiller]
    rfl
  · rw [State.rd_stepDone, hcount]
    rfl
  · rw [State.rd_stepDone, hcause]
  · have hmarked := (s.setTiller_othersKeep n { s.tiller n with fresh := false }).trans (State.onTiller_othersKeep _ n fun x =>
      { x with imemCond := Tab.set (fun _ => .ok) x.imemCond (x.pc / 4) .ue })
    exact (hmarked.trans hothers).trans (State.stepDone_othersKeep _ n)

end Sys2Proof.Machine
end

section
/-! The end of ownership (R115, R121): every owner gives its bank up, and a block that had not left is dropped. -/

namespace Sys2Proof.Machine

/-! ### One owner -/

theorem droppedCount_apart {m n : Nat} (hm : m < 192) (hn : n < 192) (h : m ≠ n) :
    Fld.apart (F.TIL_CNT_DROPPED_COUNT n) (F.TIL_CNT_DROPPED_COUNT m) = true :=
  Fld.apart_of_addr (by simp only [F.TIL_CNT_DROPPED_COUNT, R.TIL_CNT_DROPPED]; omega)

theorem droppedCount_apart_cause (m n : Nat) : Fld.apart (F.TIL_CNT_DROPPED_COUNT n) (F.TIL_EVT_CAUSE_CAUSE m) = true :=
  Fld.apart_of_addr (by simp only [F.TIL_CNT_DROPPED_COUNT, F.TIL_EVT_CAUSE_CAUSE, R.TIL_CNT_DROPPED, R.TIL_EVT_CAUSE]; omega)

theorem cause_apart_droppedCount (m n : Nat) : Fld.apart (F.TIL_EVT_CAUSE_CAUSE n) (F.TIL_CNT_DROPPED_COUNT m) = true :=
  Fld.apart_of_addr (by simp only [F.TIL_CNT_DROPPED_COUNT, F.TIL_EVT_CAUSE_CAUSE, R.TIL_CNT_DROPPED, R.TIL_EVT_CAUSE]; omega)

theorem cause_apart {m n : Nat} (hm : m < 192) (hn : n < 192) (h : m ≠ n) :
    Fld.apart (F.TIL_EVT_CAUSE_CAUSE n) (F.TIL_EVT_CAUSE_CAUSE m) = true :=
  Fld.apart_of_addr (by simp only [F.TIL_EVT_CAUSE_CAUSE, R.TIL_EVT_CAUSE]; omega)

/-- What `ownershipEnd` decides of tiller `m` and reads of it: the tiller, its count of dropped blocks and its causes. -/
def State.ownerView (s : State) (m : Nat) : Tiller × Nat × Nat :=
  (s.tiller m, s.rd (F.TIL_CNT_DROPPED_COUNT m), s.rd (F.TIL_EVT_CAUSE_CAUSE m))

@[simp] theorem State.dropBlock_til (s : State) (n : Nat) (k : Bank) (b : Bool) : (s.dropBlock n k b).til = s.til := by
  simp only [State.dropBlock, State.count_til, State.tilCause_til]
  rfl

/-- A dropped block is counted and told of by its own furrow (R121). -/
theorem State.dropBlock_self (s : State) (n : Nat) (k : Bank) (b : Bool) :
    (s.dropBlock n k b).rd (F.TIL_CNT_DROPPED_COUNT n) = min (s.rd (F.TIL_CNT_DROPPED_COUNT n) + 1) (2 ^ 32 - 1) ∧
      ((s.dropBlock n k b).rd (F.TIL_EVT_CAUSE_CAUSE n)).testBit 0 = true := by
  unfold State.dropBlock
  constructor
  · rw [State.rd_count _ _ _ _ _ _ (obsSat_droppedCount n), State.rd_tilCause_apart _ _ _ _ (cause_apart_droppedCount n n),
      State.rd_bump_self _ _ _ (show 31 < 32 by decide)]
    rfl
  · rw [State.rd_count _ _ _ _ _ _ (obsSat_tilCause n), State.testBit_tilCause_self _ _ _ (by decide)]
    simp

theorem State.dropBlock_ownerView (s : State) {m n : Nat} (k : Bank) (b : Bool) (hm : m < 192) (hn : n < 192) (h : m ≠ n) :
    (s.dropBlock n k b).ownerView m = s.ownerView m := by
  simp only [State.ownerView, Prod.mk.injEq]
  refine ⟨State.tiller_congr (s.dropBlock_til ..) m, ?_, ?_⟩
  · rw [State.dropBlock, State.rd_count _ _ _ _ _ _ (obsSat_droppedCount m), State.rd_tilCause_apart _ _ _ _
      (cause_apart_droppedCount m n), State.rd_bump_apart _ _ _ _ (droppedCount_apart hm hn h)]
    rfl
  · rw [State.dropBlock, State.rd_count _ _ _ _ _ _ (obsSat_tilCause m), State.rd_tilCause_apart _ _ _ _ (cause_apart hm hn h),
      State.rd_bump_apart _ _ _ _ (droppedCount_apart_cause m n)]
    rfl

/-- A missed furrow of the range-zero item changes the calibration alone. -/
theorem State.rzMissed_ownerView (s : State) (n b m : Nat) : (s.rzMissed n b).ownerView m = s.ownerView m := by
  unfold State.rzMissed
  split <;> rfl

/-- Tiller `n` gives its bank up. -/
def State.freed (s : State) (n : Nat) : State := s.onTiller n fun x => { x with own := none, emitted := false }

theorem State.endOwnership_unowned {s : State} {n : Nat} (h : (s.tiller n).own = none) : s.endOwnership n = s := by
  simp only [State.endOwnership, h]

theorem State.endOwnership_emitted {s : State} {n b x : Nat} (h : (s.tiller n).own = some (b, x)) (hleft : (s.tiller n).emitted = true) :
    s.endOwnership n = s.freed n := by
  simp only [State.endOwnership, h, hleft, Bool.not_true, Bool.false_eq_true, if_false]
  rfl

theorem State.endOwnership_missed {s : State} {n b x : Nat} (h : (s.tiller n).own = some (b, x)) (hleft : (s.tiller n).emitted = false) :
    s.endOwnership n = (((s.dropBlock n (s.bank b) false).rzMissed n b).freed n).emitEnds n 2 := by
  simp only [State.endOwnership, h, hleft, Bool.not_false, if_true]
  rfl

theorem State.freed_ownerView (s : State) {m n : Nat} (h : m ≠ n) : (s.freed n).ownerView m = s.ownerView m :=
  congrArg (·, s.rd (F.TIL_CNT_DROPPED_COUNT m), s.rd (F.TIL_EVT_CAUSE_CAUSE m)) (s.tiller_onTiller_ne _ h)

theorem State.emitEnds_ownerView (s : State) {n : Nat} (m : Fin 192) (result : Nat) (h : m.val ≠ n) :
    (s.emitEnds n result).ownerView m = s.ownerView m := by
  obtain ⟨hothers, -, hrd⟩ := s.emitEnds_keeps n result
  simp only [State.ownerView, hothers m h, hrd _ (obsSat_droppedCount m), hrd _ (obsSat_tilCause m)]

theorem State.endOwnership_ownerView (s : State) {m n : Nat} (hm : m < 192) (hn : n < 192) (h : m ≠ n) :
    (s.endOwnership n).ownerView m = s.ownerView m := by
  obtain hown | ⟨⟨b, x⟩, hown⟩ := Option.eq_none_or_eq_some (s.tiller n).own
  · rw [State.endOwnership_unowned hown]
  · obtain hleft | hleft := Bool.eq_false_or_eq_true (s.tiller n).emitted
    · rw [State.endOwnership_emitted hown hleft, State.freed_ownerView _ h]
    · rw [State.endOwnership_missed hown hleft, State.emitEnds_ownerView _ ⟨m, hm⟩ 2 h, State.freed_ownerView _ h,
        State.rzMissed_ownerView, State.dropBlock_ownerView _ _ _ hm hn h]

/-- What the end of ownership makes of tiller `m`. -/
abbrev ownershipEnded (m : Nat) (s t : State) : Prop :=
  (t.tiller m).own = none ∧ ((s.tiller m).own = none → t.tiller m = s.tiller m) ∧
    (t.rd (F.TIL_CNT_DROPPED_COUNT m) = if (s.tiller m).own.isSome ∧ (s.tiller m).emitted = false
      then min (s.rd (F.TIL_CNT_DROPPED_COUNT m) + 1) (2 ^ 32 - 1) else s.rd (F.TIL_CNT_DROPPED_COUNT m)) ∧
    ((s.tiller m).own.isSome ∧ (s.tiller m).emitted = false → (t.rd (F.TIL_EVT_CAUSE_CAUSE m)).testBit 0 = true)

/-- It is about what `ownerView` shows. -/
theorem ownershipEnded.congr {m : Nat} {s s' t t' : State} (h : ownershipEnded m s t) (hs : s'.ownerView m = s.ownerView m)
    (ht : t'.ownerView m = t.ownerView m) : ownershipEnded m s' t' := by
  simp only [State.ownerView, Prod.mk.injEq] at hs ht
  obtain ⟨hsx, hsd, -⟩ := hs
  obtain ⟨htx, htd, htc⟩ := ht
  rwa [ownershipEnded, htx, htd, htc, hsx, hsd]

theorem State.endOwnership_self (s : State) (n : Nat) : ownershipEnded n s (s.endOwnership n) := by
  obtain hown | ⟨⟨b, x⟩, hown⟩ := Option.eq_none_or_eq_some (s.tiller n).own
  · rw [State.endOwnership_unowned hown]
    exact ⟨hown, fun _ => rfl, by simp [hown], by simp [hown]⟩
  · obtain hleft | hleft := Bool.eq_false_or_eq_true (s.tiller n).emitted
    · rw [State.endOwnership_emitted hown hleft]
      refine ⟨?_, by simp [hown], ?_, by simp [hleft]⟩
      · rw [State.freed, State.tiller_onTiller_self]
      · rw [if_neg (by simp [hleft]), State.freed, State.rd_onTiller]
    · rw [State.endOwnership_missed hown hleft]
      obtain ⟨hcount, hcause⟩ := s.dropBlock_self n (s.bank b) false
      have hmissed := State.rzMissed_ownerView (s.dropBlock n (s.bank b) false) n b n
      simp only [State.ownerView, Prod.mk.injEq] at hmissed
      obtain ⟨-, hmissedCount, hmissedCause⟩ := hmissed
      obtain ⟨-, hends, hrd⟩ := State.emitEnds_keeps (((s.dropBlock n (s.bank b) false).rzMissed n b).freed n) n 2
      refine ⟨?_, by simp [hown], ?_, fun _ => ?_⟩
      · rw [hends, State.freed, State.tiller_onTiller_self]
      · rw [if_pos (by simp [hown, hleft]), hrd _ (obsSat_droppedCount n), State.freed, State.rd_onTiller, hmissedCount, hcount]
      · rw [hrd _ (obsSat_tilCause n), State.freed, State.rd_onTiller, hmissedCause, hcause]

/-! ### All owners -/

/-- A fold over indices, each of whose steps leaves what `view` shows of the others, does to `m` what its own step does. -/
theorem State.forN_own {V : Type} (view : State → Nat → V) (f : Nat → State → State) (k : Nat)
    (hf : ∀ m < k, ∀ n < k, m ≠ n → ∀ s, view (f n s) m = view s m) (s : State) :
    ∀ m < k, ∃ s' : State, view s' m = view s m ∧ view (s.forN k f) m = view (f m s') m := by
  have hsucc : ∀ j, s.forN (j + 1) f = f j (s.forN j f) := fun j => by
    simp only [State.forN, List.range_succ, List.foldl_append, List.foldl_cons, List.foldl_nil]
  intro m hm
  have hbefore : ∀ j ≤ m, view (s.forN j f) m = view s m := by
    intro j hj
    induction j with
    | zero => rfl
    | succ j ih => rw [hsucc, hf m hm j (by omega) (by omega), ih (by omega)]
  have hafter : ∀ j ≤ k, m < j → view (s.forN j f) m = view (f m (s.forN m f)) m := by
    intro j hj hmj
    induction j with
    | zero => omega
    | succ j ih =>
      obtain rfl | hlt := Nat.eq_or_lt_of_le (Nat.le_of_lt_succ hmj)
      · rw [hsucc]
      · rw [hsucc, hf m hm j (by omega) (by omega), ih (by omega) hlt]
  exact ⟨s.forN m f, hbefore m (Nat.le_refl m), hafter k (Nat.le_refl k) hm⟩

theorem execOwnershipEnd_ended {s : State} (h : s.running = false) :
    ∃ t : State, execOwnershipEnd s = .next t ∧ ∀ m < 192, ownershipEnded m s t := by
  refine ⟨_, congrArg Host.Outcome.next (if_neg (by simp [h])), fun m hm => ?_⟩
  obtain ⟨s', hbefore, hafter⟩ := State.forN_own State.ownerView (fun n s => s.endOwnership n) 192
    (fun _ hm _ hn hne s => s.endOwnership_ownerView hm hn hne) s m hm
  exact (s'.endOwnership_self m).congr hbefore.symm hafter

end Sys2Proof.Machine
end

section
/-! Admission to the output queue (R122, R123): who is next, and what an admission changes. -/

namespace Sys2Proof.Machine

/-! ### The next requester -/

/-- The next requester waits, and behind the last served nobody before it does (R123). -/
theorem State.nextEmit_first {s : State} {n : Nat} (h : s.nextEmit = some n) : (s.tiller n).waitsEmit.isSome = true ∧
    ∀ i < (n + 191 - s.oq.lastServed % 192) % 192, (s.tiller ((s.oq.lastServed + 1 + i) % 192)).waitsEmit = none := by
  obtain ⟨before, i, after, hrange, hfound, hnone⟩ := List.findSome?_eq_some_iff.1 h
  dsimp only at hfound hnone
  split at hfound
  case isFalse => cases hfound
  case isTrue hwaits =>
    obtain rfl := Option.some.inj hfound
    have hlength : 192 = before.length + (after.length + 1) := by simpa using congrArg List.length hrange
    have hbefore : List.range before.length = before := by
      simpa [List.take_range, show min before.length 192 = before.length by omega] using congrArg (List.take before.length) hrange
    have hi : before.length = i := by
      have hget := congrArg (·[before.length]?) hrange
      simpa [List.getElem?_range (show before.length < 192 by omega)] using hget
    refine ⟨hwaits, fun j hj => ?_⟩
    have hnot := hnone j (by rw [← hbefore, List.mem_range]; omega)
    simpa using hnot

/-! ### Admission -/

/-- The cycles that requesters waited are counted in either case (R123). -/
def State.stallCounted (s : State) (waited : Nat) : State := (s.bump F.TIL_OQ_STALL_CNT_COUNT waited).count 9 5 0 waited

@[simp] theorem State.stallCounted_til (s : State) (k : Nat) : (s.stallCounted k).til = s.til := State.count_til ..

@[simp] theorem State.stallCounted_oq (s : State) (k : Nat) : (s.stallCounted k).oq = s.oq := State.count_oq ..

theorem State.rd_stallCounted (s : State) (k : Nat) :
    (s.stallCounted k).rd F.TIL_OQ_STALL_CNT_COUNT = min (s.rd F.TIL_OQ_STALL_CNT_COUNT + k) (2 ^ 32 - 1) := by
  rw [State.stallCounted, State.rd_count _ _ _ _ _ _ (by decide), State.rd_bump_self _ _ _ (by decide)]
  rfl

theorem State.nextEmit_congr {s t : State} (htil : t.til = s.til) (hoq : t.oq = s.oq) : t.nextEmit = s.nextEmit := by
  simp only [State.nextEmit, State.tiller_congr htil, hoq]

theorem State.oqFree_congr {s t : State} (htil : t.til = s.til) (hoq : t.oq = s.oq) : t.oqFree = s.oqFree := by
  simp only [State.oqFree, State.oqUsed, State.tiller_congr htil, hoq]

/-- Tiller `x` with its block admitted: the transfer has its queue. -/
def Tiller.admitted (x : Tiller) : Tiller := { x with transferring := true }

/-- The admission itself: the next requester is served when nobody is and its block fits beside the reserve. -/
def State.admission (s : State) : State :=
  match s.oq.transfer, s.nextEmit with
  | none, some n =>
    match (s.tiller n).waitsEmit with
    | some l =>
      if l + 4 + 8192 ≤ s.oqFree then
        { s.onTiller n Tiller.admitted with oq := { s.oq with transfer := some n, lastServed := n } }
      else s
    | none => s
  | _, _ => s

theorem execEmitAdmission_eq {s : State} (waited : Nat) (hclock : s.tilStopped = false) :
    execEmitAdmission waited s = .next (s.stallCounted waited).admission :=
  congrArg Host.Outcome.next (if_neg (by rw [hclock]; decide))

theorem State.admission_fits {s : State} {n l : Nat} (hidle : s.oq.transfer = none) (hnext : s.nextEmit = some n)
    (hlen : (s.tiller n).waitsEmit = some l) (hroom : l + 4 + 8192 ≤ s.oqFree) :
    s.admission = { s.onTiller n Tiller.admitted with oq := { s.oq with transfer := some n, lastServed := n } } := by
  simp only [State.admission, hidle, hnext, hlen]
  exact if_pos hroom

theorem State.admission_busy {s : State} (h : s.oq.transfer.isSome = true ∨ s.nextEmit = none) : s.admission = s := by
  unfold State.admission
  split
  next hidle hnext => simp [hidle, hnext] at h
  next => rfl

theorem State.admission_full {s : State} {n l : Nat} (hnext : s.nextEmit = some n) (hlen : (s.tiller n).waitsEmit = some l)
    (hroom : s.oqFree < l + 4 + 8192) : s.admission = s := by
  obtain hidle | hbusy := Option.eq_none_or_eq_some s.oq.transfer
  · simp only [State.admission, hidle, hnext, hlen]
    exact if_neg (Nat.not_le.2 hroom)
  · exact State.admission_busy (.inl (Option.isSome_iff_exists.2 hbusy))

/-- The block that fits is admitted, and nothing of another tiller changes. -/
theorem execEmitAdmission_admits {s : State} {n l : Nat} (waited : Nat) (hclock : s.tilStopped = false) (hidle : s.oq.transfer = none)
    (hnext : s.nextEmit = some n) (hlen : (s.tiller n).waitsEmit = some l) (hroom : l + 4 + 8192 ≤ s.oqFree) :
    ∃ t : State, execEmitAdmission waited s = .next t ∧ t.oq = { s.oq with transfer := some n, lastServed := n } ∧
      t.tiller n = (s.tiller n).admitted ∧ othersKeep n s t ∧
      t.rd F.TIL_OQ_STALL_CNT_COUNT = min (s.rd F.TIL_OQ_STALL_CNT_COUNT + waited) (2 ^ 32 - 1) := by
  have htil := s.stallCounted_til waited
  have hoq := s.stallCounted_oq waited
  have hadmission : (s.stallCounted waited).admission = _ := State.admission_fits (hoq.symm ▸ hidle) ((State.nextEmit_congr htil hoq).trans hnext)
    ((congrArg Tiller.waitsEmit (State.tiller_congr htil n)).trans hlen) ((State.oqFree_congr htil hoq).symm ▸ hroom)
  refine ⟨_, (execEmitAdmission_eq waited hclock).trans (congrArg Host.Outcome.next hadmission), ?_, ?_, ?_, s.rd_stallCounted waited⟩
  · rw [hoq]
  · exact ((s.stallCounted waited).tiller_onTiller_self n _).trans (congrArg Tiller.admitted (State.tiller_congr htil n))
  · exact (othersKeep.of_til htil).trans ((s.stallCounted waited).onTiller_othersKeep n Tiller.admitted)

/-- Otherwise the cycles waited are counted and nothing else of the queue or the tillers changes. -/
theorem execEmitAdmission_waits {s : State} (waited : Nat) (hclock : s.tilStopped = false)
    (h : (s.oq.transfer.isSome = true ∨ s.nextEmit = none) ∨
      ∃ n l, s.nextEmit = some n ∧ (s.tiller n).waitsEmit = some l ∧ s.oqFree < l + 4 + 8192) :
    ∃ t : State, execEmitAdmission waited s = .next t ∧ t.oq = s.oq ∧ t.til = s.til ∧
      t.rd F.TIL_OQ_STALL_CNT_COUNT = min (s.rd F.TIL_OQ_STALL_CNT_COUNT + waited) (2 ^ 32 - 1) := by
  have htil := s.stallCounted_til waited
  have hoq := s.stallCounted_oq waited
  have hadmission : (s.stallCounted waited).admission = s.stallCounted waited := by
    obtain hbusy | ⟨n, l, hnext, hlen, hroom⟩ := h
    · exact State.admission_busy (by rwa [hoq, State.nextEmit_congr htil hoq])
    · exact State.admission_full ((State.nextEmit_congr htil hoq).trans hnext)
        ((congrArg Tiller.waitsEmit (State.tiller_congr htil n)).trans hlen) ((State.oqFree_congr htil hoq).symm ▸ hroom)
  exact ⟨_, (execEmitAdmission_eq waited hclock).trans (congrArg Host.Outcome.next hadmission), hoq, htil, s.rd_stallCounted waited⟩

/-- With the tillers stopped or held nothing is admitted and no block leaves. -/
theorem execEmitAdmission_stopped {s : State} (waited : Nat) (h : s.tilStopped = true) : execEmitAdmission waited s = .next s :=
  congrArg Host.Outcome.next (if_pos h)

theorem execBlockAccepted_stopped {s : State} (h : s.tilStopped = true) : execBlockAccepted s = .next s :=
  congrArg Host.Outcome.next (if_pos h)

end Sys2Proof.Machine
end

section
/-! The path of an emitted block (R110, R122, R124): its words are corrected as they are read, it enters the queue and its EMIT ends. -/

namespace Sys2Proof.Machine

/-! ### The words of the block (R110) -/

/-- Tiller `x` with DMEM word `j` rewritten as it should be. -/
def Tiller.wordCorrected (x : Tiller) (j : Nat) : Tiller := { x with dmemCond := Tab.set (fun _ => .ok) x.dmemCond j .ok }

/-- The condition of DMEM word `j`. -/
def Tiller.wordCond (x : Tiller) (j : Nat) : Cond := Tab.get (fun _ => .ok) x.dmemCond j

/-- From `s` to `t` only words of tiller `n`'s DMEM were corrected, and what that tells of is CE_LIMIT. -/
abbrev wordsCorrected (n : Nat) (s t : State) : Prop :=
  othersKeep n s t ∧ t.tiller n = { s.tiller n with dmemCond := (t.tiller n).dmemCond } ∧
    (∀ j, (t.tiller n).wordCond j = .ok ∨ (t.tiller n).wordCond j = (s.tiller n).wordCond j) ∧ t.oq = s.oq ∧
    t.rd (F.TIL_CNT_EMIT_COUNT n) = s.rd (F.TIL_CNT_EMIT_COUNT n) ∧
    (t.rd (F.TIL_EVT_CAUSE_CAUSE n) = s.rd (F.TIL_EVT_CAUSE_CAUSE n) ∨ (t.rd (F.TIL_EVT_CAUSE_CAUSE n)).testBit 7 = true) ∧
    ∀ b, (s.rd (F.TIL_EVT_CAUSE_CAUSE n)).testBit b = true → (t.rd (F.TIL_EVT_CAUSE_CAUSE n)).testBit b = true

theorem wordsCorrected.refl (n : Nat) (s : State) : wordsCorrected n s s :=
  ⟨fun _ _ => rfl, rfl, fun _ => .inr rfl, rfl, rfl, .inl rfl, fun _ h => h⟩

theorem wordsCorrected.trans {n : Nat} {s t u : State} (h : wordsCorrected n s t) (k : wordsCorrected n t u) : wordsCorrected n s u := by
  obtain ⟨hothers, htiller, hcond, hqueue, hemits, hcause, htold⟩ := h
  obtain ⟨kothers, ktiller, kcond, kqueue, kemits, kcause, ktold⟩ := k
  refine ⟨hothers.trans kothers, by rw [ktiller, htiller], fun j => ?_, kqueue.trans hqueue, kemits.trans hemits, ?_,
    fun b hb => ktold b (htold b hb)⟩
  · obtain hk | hk := kcond j
    · exact .inl hk
    · exact (hcond j).imp hk.trans hk.trans
  · obtain hk | hk := kcause
    · exact hcause.imp hk.trans (ktold 7)
    · exact .inr hk

theorem wordsCorrected.clean {n : Nat} {s t : State} (h : wordsCorrected n s t) {j : Nat} (hj : (s.tiller n).wordCond j = .ok) :
    (t.tiller n).wordCond j = .ok := by
  obtain ⟨-, -, hcond, -⟩ := h
  exact (hcond j).elim id fun hkept => hkept.trans hj

theorem emitCount_apart_ceCount (m n : Nat) : Fld.apart (F.TIL_ECC_CE_CNT_COUNT n) (F.TIL_CNT_EMIT_COUNT m) = true :=
  Fld.apart_of_addr (by simp only [F.TIL_ECC_CE_CNT_COUNT, F.TIL_CNT_EMIT_COUNT, R.TIL_ECC_CE_CNT, R.TIL_CNT_EMIT]; omega)

theorem emitCount_apart_cause (m n : Nat) : Fld.apart (F.TIL_EVT_CAUSE_CAUSE n) (F.TIL_CNT_EMIT_COUNT m) = true :=
  Fld.apart_of_addr (by simp only [F.TIL_EVT_CAUSE_CAUSE, F.TIL_CNT_EMIT_COUNT, R.TIL_EVT_CAUSE, R.TIL_CNT_EMIT]; omega)

theorem cause_apart_emitCount (m n : Nat) : Fld.apart (F.TIL_CNT_EMIT_COUNT n) (F.TIL_EVT_CAUSE_CAUSE m) = true :=
  Fld.apart_of_addr (by simp only [F.TIL_EVT_CAUSE_CAUSE, F.TIL_CNT_EMIT_COUNT, R.TIL_EVT_CAUSE, R.TIL_CNT_EMIT]; omega)

theorem Tiller.wordCond_wordCorrected (x : Tiller) (i j : Nat) :
    (x.wordCorrected i).wordCond j = if j = i then .ok else x.wordCond j :=
  Tab.get_set (fun _ => Cond.ok) x.dmemCond i j Cond.ok

theorem State.correctWord_spec (s : State) (n j : Nat) :
    wordsCorrected n s ((s.onTiller n fun x => x.wordCorrected j).tilCE n) := by
  have hself : ((s.onTiller n fun x => x.wordCorrected j).tilCE n).tiller n = (s.tiller n).wordCorrected j :=
    (State.tiller_congr (State.tilCE_til ..) n).trans (s.tiller_onTiller_self n _)
  refine ⟨(s.onTiller_othersKeep n _).trans (.of_til (State.tilCE_til ..)), by rw [hself]; rfl, fun i => ?_, State.tilCE_oq ..,
    State.rd_tilCE_apart _ _ _ (emitCount_apart_ceCount n n) (emitCount_apart_cause n n), State.rd_tilCE_cause _ n,
    fun b hb => State.testBit_tilCE _ n b hb⟩
  rw [hself, Tiller.wordCond_wordCorrected]
  split
  · exact .inl rfl
  · exact .inr rfl

/-- The first `k` words behind word `base` of tiller `n`'s DMEM, those of which `conds` says so corrected. -/
def State.correctBlock (s : State) (n base : Nat) (conds : List Cond) (k : Nat) : State :=
  (List.range k).foldl (fun s i =>
    if conds.getD i .ok = .ce then (s.onTiller n fun x => x.wordCorrected (base + i)).tilCE n else s) s

theorem State.correctBlock_succ (s : State) (n base : Nat) (conds : List Cond) (k : Nat) :
    s.correctBlock n base conds (k + 1) = if conds.getD k .ok = .ce
      then ((s.correctBlock n base conds k).onTiller n fun x => x.wordCorrected (base + k)).tilCE n
      else s.correctBlock n base conds k := by
  simp only [State.correctBlock, List.range_succ, List.foldl_append, List.foldl_cons, List.foldl_nil]

theorem State.correctBlock_spec (s : State) (n base : Nat) (conds : List Cond) (k : Nat) :
    wordsCorrected n s (s.correctBlock n base conds k) := by
  induction k with
  | zero => exact .refl n s
  | succ k ih =>
    rw [State.correctBlock_succ]
    split
    · exact ih.trans (State.correctWord_spec _ n (base + k))
    · exact ih

/-- Of a block whose words are clean or correctable, every word is clean afterwards. -/
theorem State.correctBlock_clean (s : State) (n base : Nat) (conds : List Cond) (k : Nat)
    (hconds : ∀ i < k, conds.getD i .ok = .ce ∨ (s.tiller n).wordCond (base + i) = .ok) :
    ∀ i < k, ((s.correctBlock n base conds k).tiller n).wordCond (base + i) = .ok := by
  induction k with
  | zero => exact fun i hi => absurd hi (Nat.not_lt_zero i)
  | succ k ih =>
    have hbefore := ih fun i hi => hconds i (Nat.lt_succ_of_lt hi)
    have hfixed := (s.correctBlock n base conds k).correctWord_spec n (base + k)
    intro i hi
    rw [State.correctBlock_succ]
    obtain rfl | hlt := Nat.eq_or_lt_of_le (Nat.le_of_lt_succ hi)
    · split
      · rw [State.tiller_congr (State.tilCE_til ..), State.tiller_onTiller_self, Tiller.wordCond_wordCorrected, if_pos rfl]
      next hnot => exact (s.correctBlock_spec n base conds i).clean ((hconds i (Nat.lt_succ_self i)).resolve_left hnot)
    · split
      · exact hfixed.clean (hbefore i hlt)
      · exact hbefore i hlt

theorem Tiller.mem_blockConds {x : Tiller} {a len : Nat} {c : Cond} :
    c ∈ x.blockConds a len ↔ ∃ i < len / 4, x.wordCond ((a - 0x10000) / 4 + i) = c := by
  simp only [Tiller.blockConds, List.mem_map, List.mem_range]
  rfl

theorem Tiller.blockConds_getD (x : Tiller) (a len : Nat) {i : Nat} (hi : i < len / 4) :
    (x.blockConds a len).getD i .ok = x.wordCond ((a - 0x10000) / 4 + i) := by
  simp [Tiller.blockConds, Tiller.wordCond, hi]

/-! ### The block and its EMIT (R122, R124) -/

/-- The queue takes block `b` of `len` bytes and a CRC from tiller `n`. -/
def State.blockQueued (s : State) (n len : Nat) (b : Block) : State :=
  ((({ s with oq := { s.oq with blocks := s.oq.blocks ++ [b], transfer := none } } : State).bump (F.TIL_CNT_EMIT_COUNT n) 1).count
    9 2 0 1).count 9 4 0 len

theorem State.blockQueued_til (s : State) (n len : Nat) (b : Block) : (s.blockQueued n len b).til = s.til := by
  simp only [State.blockQueued, State.count_til]
  rfl

theorem State.blockQueued_oq (s : State) (n len : Nat) (b : Block) :
    (s.blockQueued n len b).oq = { s.oq with blocks := s.oq.blocks ++ [b], transfer := none } := by
  simp only [State.blockQueued, State.count_oq]
  rfl

theorem State.rd_blockQueued_emitCount (s : State) (n len : Nat) (b : Block) :
    (s.blockQueued n len b).rd (F.TIL_CNT_EMIT_COUNT n) = min (s.rd (F.TIL_CNT_EMIT_COUNT n) + 1) (2 ^ 32 - 1) := by
  rw [State.blockQueued, State.rd_count _ _ _ _ _ _ (obsSat_emitCount n), State.rd_count _ _ _ _ _ _ (obsSat_emitCount n),
    State.rd_bump_self _ _ _ (show 31 < 32 by decide)]
  rfl

theorem State.rd_blockQueued_cause (s : State) (n len : Nat) (b : Block) :
    (s.blockQueued n len b).rd (F.TIL_EVT_CAUSE_CAUSE n) = s.rd (F.TIL_EVT_CAUSE_CAUSE n) := by
  rw [State.blockQueued, State.rd_count _ _ _ _ _ _ (obsSat_tilCause n), State.rd_count _ _ _ _ _ _ (obsSat_tilCause n),
    State.rd_bump_apart _ _ _ _ (cause_apart_emitCount n n)]
  rfl

/-- Tiller `x`, its block gone. -/
def Tiller.blockGone (x : Tiller) : Tiller := { x with emitted := true }

/-- Tiller `x` behind its EMIT with destination `rd`: ACCEPTED is 0. -/
def Tiller.emitAccepted (x : Tiller) (rd : Nat) : Tiller :=
  (x.blockGone.resumed fun y => y.setS rd (BitVec.ofNat 32 0)).stepEnded

/-- The queue takes block `b`, and the EMIT of tiller `n` ends. -/
def State.blockLeaves (s : State) (n len : Nat) (b : Block) : State :=
  ((s.blockQueued n len b).onTiller n Tiller.blockGone).emitEnds n 0

/-- An EMIT whose block is gone ends with ACCEPTED. -/
theorem State.emitAccepted_spec {s : State} {n rd a l : Nat} (hstall : (s.tiller n).stall = some (.emit rd a l))
    (hidle : s.oq.transfer = none) : ((s.onTiller n Tiller.blockGone).emitEnds n 0).oq = s.oq ∧
      ((s.onTiller n Tiller.blockGone).emitEnds n 0).tiller n = (s.tiller n).emitAccepted rd := by
  have hgone : ((s.onTiller n Tiller.blockGone).tiller n).stall = some (.emit rd a l) := by
    rw [State.tiller_onTiller_self]
    exact hstall
  rw [State.emitEnds_emit 0 hgone hidle, State.oq_resume, State.tiller_resume_self, State.tiller_onTiller_self]
  exact ⟨rfl, rfl⟩

theorem State.blockLeaves_spec {s : State} {n rd a l : Nat} (len : Nat) (b : Block)
    (hstall : (s.tiller n).stall = some (.emit rd a l)) :
    (s.blockLeaves n len b).oq = { s.oq with blocks := s.oq.blocks ++ [b], transfer := none } ∧
      (s.blockLeaves n len b).tiller n = (s.tiller n).emitAccepted rd ∧ othersKeep n s (s.blockLeaves n len b) ∧
      (s.blockLeaves n len b).rd (F.TIL_CNT_EMIT_COUNT n) = min (s.rd (F.TIL_CNT_EMIT_COUNT n) + 1) (2 ^ 32 - 1) ∧
      (s.blockLeaves n len b).rd (F.TIL_EVT_CAUSE_CAUSE n) = s.rd (F.TIL_EVT_CAUSE_CAUSE n) := by
  have htil := s.blockQueued_til n len b
  have hoq := s.blockQueued_oq n len b
  have hcount := s.rd_blockQueued_emitCount n len b
  have hcause := s.rd_blockQueued_cause n len b
  unfold State.blockLeaves
  generalize s.blockQueued n len b = u at *
  have htiller := State.tiller_congr htil n
  obtain ⟨hqueue, hself⟩ := State.emitAccepted_spec (s := u) (n := n) (by rw [htiller, hstall]) (by rw [hoq])
  obtain ⟨hothers, -, hrd⟩ := (u.onTiller n Tiller.blockGone).emitEnds_keeps n 0
  refine ⟨hqueue.trans hoq, by rw [hself, htiller], ?_, ?_, ?_⟩
  · exact ((othersKeep.of_til htil).trans (u.onTiller_othersKeep n _)).trans hothers
  · rw [hrd _ (obsSat_emitCount n), State.rd_onTiller, hcount]
  · rw [hrd _ (obsSat_tilCause n), State.rd_onTiller, hcause]

/-! ### What the EMIT leaves of its tiller -/

theorem Tiller.setS_eq (x : Tiller) (r : Nat) (w : Word) :
    x.setS r w = { x with sreg := (x.setS r w).sreg, badS := (x.setS r w).badS } := by
  unfold Tiller.setS
  split <;> rfl

theorem Tiller.s_setS (x : Tiller) (r k : Nat) (w : Word) : (x.setS r w).s k = if k = r ∧ k ≠ 0 then w else x.s k := by
  unfold Tiller.setS Tiller.s
  by_cases hk : k = 0
  · simp [hk]
  · by_cases hr : r = 0
    · simp [hk, hr]
    · simp [hk, hr, Tab.get_set]

/-- A STEP stands, and the tiller runs. -/
theorem Tiller.stepEnded_resumed (x : Tiller) (f : Tiller → Tiller) :
    (x.resumed f).stepEnded = if (f x).stepping then (x.resumed f).halted 2 else x.resumed f := by
  simp [Tiller.stepEnded, Tiller.resumed]

theorem Tiller.emitAccepted_spec (x : Tiller) (rd : Nat) : (x.emitAccepted rd).emitted = true ∧ (x.emitAccepted rd).stall = none ∧
    (x.emitAccepted rd).pc = x.pc + 4 ∧ (x.emitAccepted rd).state = (if x.stepping then .halted else .running) ∧
    (x.emitAccepted rd).dmemCond = x.dmemCond ∧ (x.emitAccepted rd).sreg = (x.setS rd (BitVec.ofNat 32 0)).sreg := by
  have hset := x.blockGone.setS_eq rd (BitVec.ofNat 32 0)
  have hsreg : (x.blockGone.setS rd (BitVec.ofNat 32 0)).sreg = (x.setS rd (BitVec.ofNat 32 0)).sreg := by
    unfold Tiller.setS
    split <;> rfl
  have hstepping : (x.blockGone.setS rd (BitVec.ofNat 32 0)).stepping = x.stepping := by rw [hset]; rfl
  rw [Tiller.emitAccepted, Tiller.stepEnded_resumed, hstepping, ← hsreg, Tiller.resumed]
  generalize (x.blockGone.setS rd (BitVec.ofNat 32 0)).badS = flags at hset
  generalize (x.blockGone.setS rd (BitVec.ofNat 32 0)).sreg = regs at hset ⊢
  rw [hset]
  by_cases hstep : x.stepping = true
  · rw [if_pos hstep, if_pos hstep]
    exact ⟨rfl, rfl, rfl, rfl, rfl, rfl⟩
  · rw [if_neg hstep, if_neg hstep]
    exact ⟨rfl, rfl, rfl, rfl, rfl, rfl⟩

theorem Tiller.s_emitAccepted (x : Tiller) (rd : Nat) (r : Fin 32) :
    (x.emitAccepted rd).s r = if r.val = rd ∧ r ≠ 0 then 0 else x.s r := by
  obtain ⟨-, -, -, -, -, hsreg⟩ := x.emitAccepted_spec rd
  have hread : (x.emitAccepted rd).s r = (x.setS rd (BitVec.ofNat 32 0)).s r := by
    unfold Tiller.s
    rw [hsreg]
  have hzero : r.val ≠ 0 ↔ r ≠ 0 := not_congr (Fin.ext_iff (b := (0 : Fin 32))).symm
  rw [hread, x.s_setS]
  exact if_congr (and_congr_right fun _ => hzero) rfl rfl

/-! ### The command -/

/-- The block of tiller `n` that `x` holds at `a`: its bytes and their CRC-32C, which is inverted when a word cannot be trusted. -/
def Tiller.blockOf (x : Tiller) (n a len : Nat) : Block :=
  let bytes := Mem.bytes 0 x.dmem (a - 0x10000) len
  let bad := (x.blockConds a len).any Cond.bad
  ⟨n, bytes ++ bytesOf 4 (if bad then 0xFFFFFFFF - crc32c bytes else crc32c bytes), bad⟩

theorem Tiller.blockOf_trusted {x : Tiller} {a len : Nat} (n : Nat) (h : ∀ c ∈ x.blockConds a len, c = .ok ∨ c = .ce) :
    x.blockOf n a len = ⟨n, Mem.bytes 0 x.dmem (a - 0x10000) len ++
      bytesOf 4 (crc32c (Mem.bytes 0 x.dmem (a - 0x10000) len)), false⟩ := by
  have hgood : (x.blockConds a len).any Cond.bad = false := by
    refine List.any_eq_false.2 fun c hc => ?_
    obtain rfl | rfl := h c hc <;> decide
  simp only [Tiller.blockOf, hgood, Bool.false_eq_true, if_false]

theorem Tiller.blockOf_untrusted {x : Tiller} {a len : Nat} (n : Nat) (h : ∃ c ∈ x.blockConds a len, c = .ue ∨ c = .poison) :
    x.blockOf n a len = ⟨n, Mem.bytes 0 x.dmem (a - 0x10000) len ++
      bytesOf 4 (0xFFFFFFFF - crc32c (Mem.bytes 0 x.dmem (a - 0x10000) len)), true⟩ := by
  have hbad : (x.blockConds a len).any Cond.bad = true := by
    obtain ⟨c, hc, rfl | rfl⟩ := h
    · exact List.any_eq_true.2 ⟨_, hc, by decide⟩
    · exact List.any_eq_true.2 ⟨_, hc, by decide⟩
  simp only [Tiller.blockOf, hbad, if_true]

/-- What the model makes of `s` when the last byte of the block at `a` of tiller `n`, which EMITs into `rd`, is taken. -/
abbrev blockTaken (n rd a len : Nat) (s t : State) : Prop :=
  t.oq = { s.oq with blocks := s.oq.blocks ++ [(s.tiller n).blockOf n a len], transfer := none } ∧
    t.tiller n = Tiller.emitAccepted { s.tiller n with dmemCond := (t.tiller n).dmemCond } rd ∧
    ((∀ c ∈ (s.tiller n).blockConds a len, c = .ok ∨ c = .ce) → ∀ c ∈ (t.tiller n).blockConds a len, c = .ok) ∧
    ((∃ c ∈ (s.tiller n).blockConds a len, c = .ue) → (t.rd (F.TIL_EVT_CAUSE_CAUSE n)).testBit 6 = true) ∧
    ((∀ c ∈ (s.tiller n).blockConds a len, c ≠ .ue) →
      t.rd (F.TIL_EVT_CAUSE_CAUSE n) = s.rd (F.TIL_EVT_CAUSE_CAUSE n) ∨ (t.rd (F.TIL_EVT_CAUSE_CAUSE n)).testBit 7 = true) ∧
    t.rd (F.TIL_CNT_EMIT_COUNT n) = min (s.rd (F.TIL_CNT_EMIT_COUNT n) + 1) (2 ^ 32 - 1) ∧ othersKeep n s t

theorem execBlockAccepted_idle {s : State} (hclock : s.tilStopped = false) (hidle : s.oq.transfer = none) :
    execBlockAccepted s = .next s := by
  simp [execBlockAccepted, hclock, hidle]

/-- Tiller `n`'s block at `a` holds an uncorrectable word, and that is told (R124). -/
def State.poisonTold (s : State) (n a len : Nat) : State :=
  if ((s.tiller n).blockConds a len).contains .ue then s.tilCause n 6 else s

theorem State.poisonTold_til (s : State) (n a len : Nat) : (s.poisonTold n a len).til = s.til := by
  unfold State.poisonTold
  split
  · exact s.tilCause_til n 6
  · rfl

theorem State.poisonTold_oq (s : State) (n a len : Nat) : (s.poisonTold n a len).oq = s.oq := by
  unfold State.poisonTold
  split
  · exact s.tilCause_oq n 6
  · rfl

theorem State.rd_poisonTold_emitCount (s : State) (n a len : Nat) :
    (s.poisonTold n a len).rd (F.TIL_CNT_EMIT_COUNT n) = s.rd (F.TIL_CNT_EMIT_COUNT n) := by
  unfold State.poisonTold
  split
  · exact s.rd_tilCause_apart n 6 _ (emitCount_apart_cause n n)
  · rfl

theorem State.poisonTold_ue {s : State} {n a len : Nat} (h : ∃ c ∈ (s.tiller n).blockConds a len, c = .ue) :
    ((s.poisonTold n a len).rd (F.TIL_EVT_CAUSE_CAUSE n)).testBit 6 = true := by
  obtain ⟨_, hmem, rfl⟩ := h
  rw [State.poisonTold, if_pos (List.contains_iff_mem.2 hmem), State.testBit_tilCause_self _ _ _ (by decide)]
  simp

theorem State.poisonTold_no_ue {s : State} {n a len : Nat} (h : ∀ c ∈ (s.tiller n).blockConds a len, c ≠ .ue) :
    s.poisonTold n a len = s :=
  if_neg fun hmem => h _ (List.contains_iff_mem.1 hmem) rfl

theorem execBlockAccepted_emit {s : State} {n rd a len : Nat} (hclock : s.tilStopped = false) (hbusy : s.oq.transfer = some n)
    (hstall : (s.tiller n).stall = some (.emit rd a len)) :
    execBlockAccepted s = .next (((s.poisonTold n a len).correctBlock n ((a - 0x10000) / 4) ((s.tiller n).blockConds a len)
      (len / 4)).blockLeaves n len ((s.tiller n).blockOf n a len)) := by
  simp only [execBlockAccepted, hclock, hbusy, hstall, Bool.false_eq_true, if_false]
  rfl

theorem execBlockAccepted_taken {s : State} {n rd a len : Nat} (hclock : s.tilStopped = false) (hbusy : s.oq.transfer = some n)
    (hstall : (s.tiller n).stall = some (.emit rd a len)) : ∃ t : State, execBlockAccepted s = .next t ∧ blockTaken n rd a len s t := by
  refine ⟨_, execBlockAccepted_emit hclock hbusy hstall, ?_⟩
  have htil := s.poisonTold_til n a len
  have hoq := s.poisonTold_oq n a len
  have hemits := s.rd_poisonTold_emitCount n a len
  have hself := State.tiller_congr htil n
  have hwords := (s.poisonTold n a len).correctBlock_spec n ((a - 0x10000) / 4) ((s.tiller n).blockConds a len) (len / 4)
  have hclean := (s.poisonTold n a len).correctBlock_clean n ((a - 0x10000) / 4) ((s.tiller n).blockConds a len) (len / 4)
  generalize (s.poisonTold n a len).correctBlock n ((a - 0x10000) / 4) ((s.tiller n).blockConds a len) (len / 4) = u at *
  obtain ⟨hkeep, hfixed, -, hfixedQueue, hfixedEmits, hfixedCause, htold⟩ := hwords
  have hkept : u.tiller n = { s.tiller n with dmemCond := (u.tiller n).dmemCond } := by rw [hfixed, hself]
  obtain ⟨hqueue, htiller, hothers, hcount, hcause⟩ := u.blockLeaves_spec len ((s.tiller n).blockOf n a len)
    ((congrArg Tiller.stall hkept).trans hstall)
  obtain ⟨-, -, -, -, hconds, -⟩ := (u.tiller n).emitAccepted_spec rd
  generalize u.blockLeaves n len ((s.tiller n).blockOf n a len) = t at *
  rw [← htiller] at hconds
  refine ⟨by rw [hqueue, hfixedQueue, hoq], by rw [hconds, htiller, ← hkept], fun h c hc => ?_, fun h => ?_, fun h => ?_,
    by rw [hcount, hfixedEmits, hemits], ((othersKeep.of_til htil).trans hkeep).trans hothers⟩
  · obtain ⟨i, hi, rfl⟩ := Tiller.mem_blockConds.1 hc
    have hword : (t.tiller n).wordCond ((a - 0x10000) / 4 + i) = (u.tiller n).wordCond ((a - 0x10000) / 4 + i) := by
      rw [Tiller.wordCond, hconds]
      rfl
    rw [hword]
    refine hclean (fun j hj => ?_) i hi
    rw [Tiller.blockConds_getD _ _ _ hj, hself]
    exact (h _ (Tiller.mem_blockConds.2 ⟨j, hj, rfl⟩)).symm
  · rw [hcause, htold 6 (State.poisonTold_ue h)]
  · rw [hcause, ← State.poisonTold_no_ue h]
    exact hfixedCause

end Sys2Proof.Machine
end

section
/-! The statement on attention, the end of ownership and emitted blocks, from the rules of its commands. -/

namespace Sys2Proof.Machine

/-- An attention taken to the handler leaves PC, FLAGS and its sources where R119 says. -/
theorem execAttention_handler {s : State} {n : Fin 192} (t : Nat) (hclock : s.tilStopped = false)
    (hready : (s.tiller n).state = .running ∧ (s.tiller n).haltReq = false ∧ (s.tiller n).inAttn = false ∧
      (s.tiller n).inTrap = false ∧ (s.tiller n).refRuns = false)
    (hen : s.on (F.TIL_CFG_MSG_ATTN n) = true) (hpend : (s.tiller n).pendMsg = true ∨ (s.tiller n).pendDl = true) :
    ∃ u : State, execAttention n t s = .next u ∧
      u.tiller n = (s.tiller n).diverted (4 * s.rd (F.TIL_ATTN_VEC_WORD n)) ∧ othersKeep n s u := by
  obtain ⟨hrun, hhalt, hattn, htrap, href⟩ := hready
  refine ⟨_, (execAttention_due t hclock hrun hhalt hattn htrap hen hpend).trans (congrArg _ (State.attend_handler t href)), ?_, ?_⟩
  · rw [State.tiller_congr (State.countTil_til ..), State.tiller_onTiller_self]
  · exact (s.onTiller_othersKeep n _).trans (.of_til (State.countTil_til ..))

/-- Settles O27, command by command, each clause from the rule of its command. The reference program's handler needs that an answer takes no
candidate but its own from the queue and keeps what the attention saved (`State.refAnswers_spec`); the end of ownership, that one tiller's
leaves what is read of every other (`State.endOwnership_ownerView`); a block, that a corrected word stays clean (`wordsCorrected`). -/
theorem attentionAndBlocks : Obligations.AttentionAndBlocks := by
  unfold Obligations.AttentionAndBlocks
  refine ⟨?handler, ?reference, ?noAttention, ?alarm, ?noAlarm, ?fetch, ?ownership, ?admitted, ?busy, ?full, ?stopped, ?first,
    ?idle, ?trusted, ?untrusted⟩
  case handler =>
    intro s n t0 hclock hready hen hpend
    obtain ⟨u, hu, hself, hothers⟩ := execAttention_handler t0 hclock hready hen hpend
    exact ⟨u, hu, by rw [hself, ← Tiller.attnSources]; rfl, hothers⟩
  case reference =>
    intro s n t0 hclock ⟨hrun, hhalt, hattn, htrap, href⟩ hen hpend
    obtain ⟨hothers, hpc, hflags, hleft, hmsg, hdl, hsrc, hstate, hfront⟩ := State.attend_reference t0 href
    exact ⟨_, execAttention_due t0 hclock hrun hhalt hattn htrap hen hpend,
      ⟨hpc, hflags, hleft, hmsg, hdl, hsrc.trans (Tiller.attnSources _)⟩, ⟨hstate.trans hrun, hfront⟩, hothers⟩
  case noAttention => exact fun s n t0 h => ⟨s, execAttention_not_due t0 h, rfl⟩
  case alarm => exact fun s n hrun hen halarm hfresh => ⟨_, execDlAlarm_fires hrun hen halarm hfresh, rfl⟩
  case noAlarm => exact fun s n h => ⟨s, execDlAlarm_silent h, rfl⟩
  case fetch =>
    intro s n h
    obtain ⟨t, ht, hself, hcount, hcause, hothers⟩ := execImemUeFetch_issues h
    refine ⟨t, ht, ?_⟩
    beta_reduce
    rw [hself]
    exact ⟨rfl, rfl, rfl, rfl, rfl, rfl, rfl, rfl, rfl, rfl, hcount, hcause, hothers⟩
  case ownership =>
    intro s h
    obtain ⟨t, ht, hended⟩ := execOwnershipEnd_ended h
    have hall : ∀ m : Fin 192, ownershipEnded m s t := fun m => hended m m.isLt
    simp only [ownershipEnded, forall_and] at hall
    exact ⟨t, ht, hall⟩
  case admitted => exact fun s waited n l hclock hidle hnext hlen hroom => execEmitAdmission_admits waited hclock hidle hnext hlen hroom
  case busy => exact fun s waited hclock h => execEmitAdmission_waits waited hclock (.inl h)
  case full =>
    exact fun s waited n l hclock ⟨hnext, hlen⟩ hroom => execEmitAdmission_waits waited hclock (.inr ⟨n, l, hnext, hlen, hroom⟩)
  case stopped =>
    exact fun s waited h => ⟨⟨s, execEmitAdmission_stopped waited h, rfl⟩, ⟨s, execBlockAccepted_stopped h, rfl⟩⟩
  case first =>
    intro s n h
    obtain ⟨hwaits, hbefore⟩ := State.nextEmit_first h
    exact ⟨hwaits, fun i hi => hbefore i hi⟩
  case idle => exact fun s hclock hidle => ⟨s, execBlockAccepted_idle hclock hidle, rfl⟩
  case trusted =>
    intro s n rd a len hclock hbusy hstall hconds
    obtain ⟨t, ht, hqueue, htiller, hclean, -, -, hemits, hothers⟩ := execBlockAccepted_taken hclock hbusy hstall
    obtain ⟨hemitted, hstalled, hpc, hstate, -⟩ := Tiller.emitAccepted_spec { s.tiller n with dmemCond := (t.tiller n).dmemCond } rd
    have hregs := Tiller.s_emitAccepted { s.tiller n with dmemCond := (t.tiller n).dmemCond } rd
    rw [← htiller] at hemitted hstalled hpc hstate hregs
    refine ⟨t, ht, ?_, ?_, ⟨hemitted, hstalled, hpc, hstate⟩, hclean hconds, hregs, hemits, hothers⟩
    · rw [hqueue]
    · rw [hqueue, Tiller.blockOf_trusted n hconds]
  case untrusted =>
    intro s n rd a len hclock hbusy hstall hconds
    obtain ⟨t, ht, hqueue, htiller, -, hpoisoned, huntold, hemits, hothers⟩ := execBlockAccepted_taken hclock hbusy hstall
    obtain ⟨hemitted, hstalled, hpc, -⟩ := Tiller.emitAccepted_spec { s.tiller n with dmemCond := (t.tiller n).dmemCond } rd
    rw [← htiller] at hemitted hstalled hpc
    refine ⟨t, ht, ?_, ?_, hemitted, hstalled, hpc, hpoisoned, huntold, hemits, hothers⟩
    · rw [hqueue]
    · rw [hqueue, Tiller.blockOf_untrusted n hconds]

end Sys2Proof.Machine
end

section
/-! Two statements of the emitter chapter that fail, each with a state that shows it: a laser-board stage that the watch never produces,
and a missed shot beyond the limit. -/

namespace Sys2Proof.Machine

/-- The laser-board watch runs with its stage at the code 0b11 that it never produces itself (Table EM-6), after eight stage entries within
the last 60 s. -/
def unproducedStage : State :=
  let s := ((State.reset.ready mSTANDBY).put F.EMI_LB_CFG_EN true).wr F.EMI_STATUS_LB_STAGE 3
  { s with emi := { s.emi with lbHist := List.replicate 8 0 } }

/-- The window of a first pulse is open when the run of misses has already reached MISS_LIMIT, which is 16 after reset. -/
def missBeyondLimit : State :=
  let s := State.reset.ready mSTANDBY
  { s with emi := { s.emi with windows := [(0, true, false)], missRun := 16 } }

/-- What the model answers from these states: the stage stands where it stood, since the ninth entry latches and counts as a fall; and the
miss is told as one that reaches the limit. -/
theorem emitterCounterexamples_answered :
    (answered (exec (.lbStale 0) unproducedStage)).rd F.EMI_STATUS_LB_STAGE = 3 ∧
    (answered (exec .monitorWindowClose missBeyondLimit)).raises ≠ missBeyondLimit.raises := by decide

/-- Refutes O36: the clause on stale samples says that the stage reads HOT afterwards from whatever stage, but for the watch an entry into
HOT from the code above it is a fall, and the ninth entry within 60 s latches and leaves the stage there. -/
theorem not_laserBoardWatch : ¬ Obligations.LaserBoardWatch := by
  rintro ⟨-, -, -, -, -, -, -, -, -, hstale, -⟩
  obtain ⟨t, ht, -, hstage, -⟩ := hstale unproducedStage 0 (by decide) (by decide)
  obtain rfl : answered _ = t := congrArg answered ht
  exact absurd (emitterCounterexamples_answered.1.symm.trans hstage) (by decide)

/-- Refutes O38: the clause on a window's close lets the emitter fault only on the miss that brings the run to MISS_LIMIT, but the model
faults, and tells event 387, on a further miss as well (R210, R220). -/
theorem not_emitterShots : ¬ Obligations.EmitterShots := by
  rintro ⟨-, -, -, -, -, -, -, -, -, -, -, -, -, -, hclose, -⟩
  obtain ⟨t, ht, -, -, -, hfault⟩ := hclose missBeyondLimit 0 true false [] (by decide) rfl
  obtain rfl : answered _ = t := congrArg answered ht
  rw [if_neg fun ⟨_, _, hlimit⟩ => absurd hlimit (by decide)] at hfault
  have hquiet := congrArg State.raises hfault
  exact emitterCounterexamples_answered.2 hquiet

end Sys2Proof.Machine
end

section
/-! What a change of mode keeps: events that wait for delivery still wait after it, and EM_DAC follows the first entry in WAIT and stands
otherwise (R31, R206, Table EM-5). -/

namespace Sys2Proof.Machine

-- A check of a frame's mask walks the list of all areas.
set_option maxRecDepth 4000

/-! ### Events that wait for delivery -/

/-- Every event that waits for delivery in `s` waits in `t` as well. -/
def Told (s t : State) : Prop := s.raised ⊆ t.raised

namespace Told

variable {s x y : State}

theorem mem (h : Told s x) {e : Nat} (he : e ∈ s.raised) : e ∈ x.raised := h he

theorem of_raises (h : x.raises = s.raises) : Told s x := by
  rw [Told, State.raised, State.raised, h]
  exact List.Subset.refl _

theorem trans (h : Told s x) (k : Told x y) : Told s y := List.Subset.trans h k

theorem ite {c : Prop} [Decidable c] (h : Told s x) (k : Told s y) : Told s (if c then x else y) := by
  split <;> assumption

theorem of_fr {w : Nat} (k : Fr w x y) (e : w.testBit Part.raised.bit = false) (h : Told s x) : Told s y :=
  h.trans (of_raises (k.same .raised e))

theorem upd (h : Told s x) (e : y.raises = x.raises) : Told s y := h.trans (of_raises e)

theorem raise {e : Nat} (h : Told s x) : Told s (x.raise e) := by
  refine h.trans ?_
  rw [State.raise]
  exact ite (of_raises rfl) (List.map_subset _ (List.subset_append_left ..))

theorem respond {tag status detail : Nat} (h : Told s x) : Told s (x.respond tag status detail) := by
  rw [State.respond]
  exact .of_fr (State.udpReply_fr ..) (by decide) (.raise (h.upd rfl))

theorem answer {status detail : Nat} (h : Told s x) : Told s (x.answer status detail) := by
  rw [State.answer]
  split
  · exact .respond (h.upd rfl)
  · exact h

theorem latchPend {own sys : Fld} (h : Told s x) : Told s (x.latchPend own sys) := by
  unfold State.latchPend
  exact .ite h (.raise (h.upd rfl))

theorem merWait (h : Told s x) : Told s x.merWait := by
  rw [State.merWait]
  exact .ite (.raise (h.upd rfl)) h

theorem memWake (h : Told s x) : Told s x.memWake := by
  rw [State.memWake]
  exact .ite (h.upd rfl) (.ite h.latchPend h)

theorem sxtEnable (h : Told s x) : Told s x.sxtEnable := by
  rw [State.sxtEnable]
  exact .ite (.latchPend (h.upd rfl)) (.ite h (.ite (h.upd rfl) (.ite (h.upd rfl) (h.upd rfl))))

theorem sxtKeep (h : Told s x) : Told s x.sxtKeep := by
  rw [State.sxtKeep]
  exact .ite h (.ite (h.upd rfl) (.sxtEnable (h.upd rfl)))

theorem settle {m cause : Nat} (h : Told s x) : Told s (x.settle m cause) := by
  unfold State.settle
  extract_lets _ x'
  have hx' : Told s x' := by
    unfold x'
    split
    · exact .ite (.respond (h.upd rfl)) (.ite (.respond (h.upd rfl)) h)
    · exact h
  clear_value x'
  split
  · exact .ite (.ite hx'.answer (.ite hx'.answer (.ite hx'.answer hx'))) hx'
  · exact hx'

theorem stopSuperseded {cause : Nat} (h : Told s x) : Told s (x.stopSuperseded cause) := by
  unfold State.stopSuperseded
  extract_lets _ _ x'
  have hx' : Told s x' := h.upd rfl
  clear_value x'
  split
  · exact .respond (hx'.upd rfl)
  · exact hx'

theorem stopGivenUp {cause : Nat} (h : Told s x) : Told s (x.stopGivenUp cause) := by
  rw [State.stopGivenUp]
  exact .ite h (.ite (h.stopSuperseded.upd rfl) (.merWait (h.stopSuperseded.upd rfl)))

end Told

/-! ### A transition, up to what EM_DAC makes of the new mode -/

/-- EM_DAC and EMI_STATUS.STATE. -/
def State.emission (s : State) : Nat × Nat := (s.rd F.EMI_CHG_STATUS_DAC_CODE, s.emiState)

theorem Fr.emission {w : Nat} {s t : State} (h : Fr w s t)
    (c : clearOf w F.EMI_CHG_STATUS_DAC_CODE = true ∧ clearOf w F.EMI_STATUS_STATE = true) : t.emission = s.emission :=
  Prod.ext (h.rd _ c.1) (h.rd _ c.2)

theorem State.emission_wr (s : State) (f : Fld) (v : Nat)
    (h : Fld.apart f F.EMI_CHG_STATUS_DAC_CODE = true ∧ Fld.apart f F.EMI_STATUS_STATE = true) : (s.wr f v).emission = s.emission :=
  Prod.ext (s.rd_wr_apart _ _ _ h.1) (s.rd_wr_apart _ _ _ h.2)

theorem State.emission_raise (s : State) (e : Nat) : (s.raise e).emission = s.emission := Prod.ext (s.rd_raise ..) (s.rd_raise ..)

/-- Until EM_DAC follows the new mode, a transition leaves it and the emitter's state alone. -/
theorem State.transition_eq (s : State) (m cause : Nat) :
    ∃ x, x.emission = s.emission ∧ Told s x ∧ s.transition m cause = x.waitDac.sxtKeep.settle m cause := by
  unfold State.transition
  extract_lets old runs raised _ derate tested _ source closed _ _ session _ halted _ running awake
  refine ⟨awake.showThrottle, ?emission, ?told, rfl⟩
  case emission =>
    have hraised : raised.emission = s.emission := by
      unfold raised
      simp (disch := decide) only [State.emission_raise, State.emission_wr]
    have hderate : derate.emission = s.emission := by
      unfold derate
      split <;> exact hraised
    have hsource : source.emission = s.emission := by
      have htested : tested.emission = s.emission := by
        unfold tested
        simp (disch := decide) only [State.emission_wr, hderate]
      unfold source
      split
      · exact htested
      · exact hderate
    have hsession : session.emission = s.emission := by
      have hclosed : closed.emission = s.emission := (source.emission_wr _ 0 (by decide)).trans hsource
      unfold session
      split
      · exact hclosed
      · exact hsource
    have hrunning : running.emission = s.emission := by
      have hhalted : halted.emission = s.emission := (session.emission_wr _ 0 (by decide)).trans hsession
      unfold running
      split_ifs
      · exact hsession
      · exact (State.merWait_fr _).emission (by decide) |>.trans hsession
      · exact hhalted
    have hawake : awake.emission = s.emission := by
      unfold awake
      split
      · exact running.memWake_fr.emission (by decide) |>.trans hrunning
      · exact hrunning
    exact awake.showThrottle_fr.emission (by decide) |>.trans hawake
  case told =>
    have hraised : Told s raised := .raise (.of_raises rfl)
    have hderate : Told s derate := .ite hraised (hraised.upd rfl)
    have hsource : Told s source := .ite (hderate.upd rfl) hderate
    have hsession : Told s session := .ite (hsource.upd rfl) hsource
    have hrunning : Told s running := .ite (.ite hsession (.merWait (hsession.upd rfl))) (hsession.upd rfl)
    have hawake : Told s awake := .ite hrunning.memWake hrunning
    exact hawake.upd rfl

theorem Told.transition {s x : State} {m cause : Nat} (h : Told s x) : Told s (x.transition m cause) := by
  obtain ⟨y, -, hy, heq⟩ := x.transition_eq m cause
  rw [heq]
  exact .settle (.sxtKeep (.of_fr y.waitDac_fr (by decide) (h.trans hy)))

theorem Told.derateCheck {s x : State} (h : Told s x) : Told s x.derateCheck := by
  unfold State.derateCheck
  exact .ite (.transition (.stopGivenUp h)) (.ite (.transition h) h)

end Sys2Proof.Machine
end

section
/-! The emitter's states (R217 to R220, Table EM-5): what EM_DAC holds in WAIT, the state that EN, the mode, the hedge and the causes give,
and an entry to FAULT. -/

namespace Sys2Proof.Machine

-- A check of a frame's mask walks the list of all areas.
set_option maxRecDepth 4000

/-! ### EM_DAC in WAIT -/

/-- The curve value of the first entry of the active buffer. -/
def State.firstDac (s : State) : Nat := s.dacOf (s.seedEntry (s.rd F.EMI_STATUS_ACTIVE_BUF) 0)

theorem State.firstDac_lt (s : State) : s.firstDac < 2 ^ 12 := s.rd_lt _

theorem State.dacOf_congr {s t : State} (hpower : t.emi.pwrCfg = s.emi.pwrCfg) (hmode : t.mode = s.mode)
    (hstage : t.rd F.EMI_STATUS_LB_STAGE = s.rd F.EMI_STATUS_LB_STAGE)
    (hcurve : ∀ p, t.reg (R.EMI_CURVE_ACT p) = s.reg (R.EMI_CURVE_ACT p)) (x : Nat) : t.dacOf x = s.dacOf x := by
  have hcode (p : Nat) : t.effCode p = s.effCode p := by
    simp only [State.effCode, State.clampCode, hpower, hmode, hstage]
  rw [State.dacOf, hcode, State.rd, show (F.EMI_CURVE_ACT_DAC _).addr = R.EMI_CURVE_ACT _ from rfl, hcurve]
  rfl

/-- What the first entry gives EM_DAC depends on the power settings, the mode, the laser-board stage, and on curve and seed map. -/
theorem State.firstDac_congr {s t : State} (hpower : t.emi.pwrCfg = s.emi.pwrCfg) (hmode : t.mode = s.mode)
    (hstage : t.rd F.EMI_STATUS_LB_STAGE = s.rd F.EMI_STATUS_LB_STAGE) (hbuf : t.rd F.EMI_STATUS_ACTIVE_BUF = s.rd F.EMI_STATUS_ACTIVE_BUF)
    (hmaps : ∀ a, 0x600800 ≤ a → a < 0x630000 → t.reg a = s.reg a) : t.firstDac = s.firstDac := by
  have hbuf' : s.rd F.EMI_STATUS_ACTIVE_BUF < 2 := s.rd_lt F.EMI_STATUS_ACTIVE_BUF
  have hentry : t.seedEntry (s.rd F.EMI_STATUS_ACTIVE_BUF) 0 = s.seedEntry (s.rd F.EMI_STATUS_ACTIVE_BUF) 0 := by
    rw [State.seedEntry, hmaps _ (by omega) (by omega), hmaps _ (by omega) (by omega), State.seedEntry]
  rw [State.firstDac, hbuf, hentry, State.dacOf_congr hpower hmode hstage (fun p => hmaps _ ?_ ?_), State.firstDac]
  all_goals
    rw [R.EMI_CURVE_ACT]
    omega

/-- The mask leaves alone what decides the first entry's curve value, and what EM_DAC and the emitter's state read. -/
def emissionClear (w : Nat) : Bool :=
  clearOf w F.EMI_CHG_STATUS_DAC_CODE && clearOf w F.EMI_STATUS_STATE && clearOf w F.SYS_MODE_MODE && clearOf w F.EMI_STATUS_LB_STAGE &&
    clearOf w F.EMI_STATUS_ACTIVE_BUF && !w.testBit Written.all.bit && outOfRange 0x600800 0x630000 (w / 2 ^ 24) Written.bounds

theorem Fr.firstDac {w : Nat} {s t : State} (h : Fr w s t) (hemi : t.emi = s.emi) (c : emissionClear w = true) :
    t.firstDac = s.firstDac := by
  simp only [emissionClear, Bool.and_eq_true, Bool.not_eq_true'] at c
  obtain ⟨⟨⟨⟨⟨-, hmode⟩, hstage⟩, hbuf⟩, hall⟩, hmaps⟩ := c
  exact State.firstDac_congr (congrArg Emi.pwrCfg hemi) (h.rd _ hmode) (h.rd _ hstage) (h.rd _ hbuf) fun a hlo hhi =>
    h.reg a (clearOf_of_outOfRange hlo hhi (Nat.le_refl 31) ⟨hall, hmaps⟩)

theorem State.firstDac_wr (s : State) (f : Fld) (v : Nat) (haddr : f.addr < 0x600800) (hmode : Fld.apart f F.SYS_MODE_MODE = true)
    (hstage : Fld.apart f F.EMI_STATUS_LB_STAGE = true) (hbuf : Fld.apart f F.EMI_STATUS_ACTIVE_BUF = true) :
    (s.wr f v).firstDac = s.firstDac :=
  State.firstDac_congr rfl (s.mode_wr_apart f v hmode) (s.rd_wr_apart _ _ _ hstage) (s.rd_wr_apart _ _ _ hbuf) fun a hlo _ =>
    s.reg_wr_ne f v a (by omega)

/-- EM_DAC follows the first entry in WAIT and stands otherwise. -/
theorem State.rd_waitDac_dac (s : State) :
    s.waitDac.rd F.EMI_CHG_STATUS_DAC_CODE = if s.emiState = eWAIT then s.firstDac else s.rd F.EMI_CHG_STATUS_DAC_CODE := by
  unfold State.waitDac
  split
  · rw [State.setDac, State.rd_wr_self _ _ _ (by decide)]
    exact Nat.mod_eq_of_lt s.firstDac_lt
  · rfl

theorem State.rd_waitDac (s : State) (f : Fld) (h : Fld.apart F.EMI_CHG_STATUS_DAC_CODE f = true) : s.waitDac.rd f = s.rd f := by
  unfold State.waitDac
  split
  · exact s.rd_wr_apart _ _ _ h
  · rfl

theorem State.firstDac_waitDac (s : State) : s.waitDac.firstDac = s.firstDac := by
  unfold State.waitDac
  split
  · exact s.firstDac_wr _ _ (by decide) (by decide) (by decide) (by decide)
  · rfl

/-! ### The state that the emitter takes -/

theorem State.emiState_wr (s : State) (f : Fld) (v : Nat) (h : Fld.apart f F.EMI_STATUS_STATE = true) :
    (s.wr f v).emiState = s.emiState := s.rd_wr_apart f _ v h

theorem emiAt.of_fr {n st w : Nat} {s t : State} (h : emiAt n st s) (k : Fr w s t) (hemi : t.emi = s.emi) (c : emissionClear w = true) :
    emiAt n st t := by
  have hfirst := k.firstDac hemi c
  simp only [emissionClear, Bool.and_eq_true] at c
  obtain ⟨⟨⟨⟨⟨⟨hdac, hstate⟩, -⟩, -⟩, -⟩, -⟩, -⟩ := c
  obtain ⟨hn, hwait, hidle⟩ := h
  refine ⟨(k.rd _ hstate).trans hn, fun hw => ?_, fun hw hf hs => ?_⟩
  · exact (k.rd _ hdac).trans ((hwait hw).trans hfirst.symm)
  · rw [k.rd _ hdac, hemi]
    exact hidle hw hf hs

/-- In whatever state the emitter is, a transition leaves it there: in WAIT EM_DAC follows, elsewhere it stands. -/
theorem emiAt.transition {n st m cause : Nat} {s : State} (h : emiAt n st s) : emiAt n st (s.transition m cause) := by
  obtain ⟨hn, -, hidle⟩ := h
  have hemi : (s.transition m cause).emi = s.emi := (s.transition_fr m cause).emi (by decide)
  obtain ⟨x, hx, -, heq⟩ := s.transition_eq m cause
  have hdac : x.rd F.EMI_CHG_STATUS_DAC_CODE = s.rd F.EMI_CHG_STATUS_DAC_CODE := congrArg Prod.fst hx
  have hstate : x.emiState = n := (congrArg Prod.snd hx).trans hn
  have hrest : Fr 0x1fe80000000000000000000000000000000000000000000000f00200001080b x.waitDac (s.transition m cause) := by
    rw [heq]
    exact .call (State.settle_fr ..) (.mono (State.sxtKeep_fr _) (by decide)) (by decide)
  have hemi' : (s.transition m cause).emi = x.waitDac.emi := hrest.emi (by decide)
  refine emiAt.of_fr ⟨?_, fun hw => ?_, fun hw hf hs => ?_⟩ hrest hemi' (by decide)
  · exact (x.rd_waitDac _ (by decide)).trans hstate
  · exact (x.rd_waitDac_dac.trans (if_pos (hstate.trans hw))).trans x.firstDac_waitDac.symm
  · rw [x.rd_waitDac_dac, if_neg (hstate.trans_ne hw), hdac, ← hemi', hemi]
    exact hidle hw hf hs

theorem emiAt.derateCheck {n st : Nat} {s : State} (h : emiAt n st s) : emiAt n st s.derateCheck := by
  unfold State.derateCheck
  split_ifs
  · refine emiAt.transition (h.of_fr (s.stopGivenUp_fr _) ((s.stopGivenUp_fr _).emi (by decide)) (by decide))
  · exact h.transition
  · exact h

theorem State.emiIdle_spec (s : State) :
    s.emiIdle.rd F.EMI_CHG_STATUS_DAC_CODE = 0 ∧ s.emiIdle.emi.rowsOut = 0 ∧ s.emiIdle.emi.colsOut = 0 ∧
      s.emiIdle.emi.shot.pulses = s.emi.shot.fired :=
  ⟨s.rd_wr_self F.EMI_CHG_STATUS_DAC_CODE 0 (by decide), rfl, rfl, rfl⟩

theorem State.emiIdle_emi_congr {s t : State} (h : t.emi = s.emi) : t.emiIdle.emi = s.emiIdle.emi := by
  simp only [State.emiIdle, State.setDac, State.wr_emi, h]

/-- The emitter enters a state in which nothing fires and EM_DAC is at 0 V. -/
theorem State.emiAt_idle (s : State) {n : Nat} (st : Nat) (hn : n < 8) (hw : n ≠ eWAIT) : emiAt n st (s.wr F.EMI_STATUS_STATE n).emiIdle := by
  have hstate : ((s.wr F.EMI_STATUS_STATE n).emiIdle).emiState = n % 8 :=
    ((s.wr F.EMI_STATUS_STATE n).rd_wr_apart _ F.EMI_STATUS_STATE 0 (by decide)).trans (s.rd_wr_self _ _ (by decide))
  obtain ⟨hdac, hrows, hcols, -⟩ := (s.wr F.EMI_STATUS_STATE n).emiIdle_spec
  exact ⟨hstate.trans (Nat.mod_eq_of_lt hn), fun h => absurd h hw, fun _ _ _ => ⟨hdac, hrows, hcols⟩⟩

theorem State.emiAt_wait (s : State) (st : Nat) : emiAt eWAIT st s.emiWait := by
  have hwait : (s.wr F.EMI_STATUS_STATE eWAIT).emiState = eWAIT := s.rd_wr_self _ _ (by decide)
  refine ⟨((s.wr F.EMI_STATUS_STATE eWAIT).rd_waitDac F.EMI_STATUS_STATE (by decide)).trans hwait, fun _ => ?_, fun h => absurd rfl h⟩
  exact (State.rd_waitDac_dac _).trans ((if_pos hwait).trans (State.firstDac_waitDac _).symm)

/-- A state but WAIT in which the emitter stays. -/
theorem State.emiAt_stays {s : State} {n : Nat} (h : s.emiState = n) (hw : n ≠ eWAIT) : emiAt n s.emiState s :=
  ⟨h, fun h => absurd h hw, fun _ _ hs => absurd h.symm hs⟩

/-- The emitter takes the state that Table EM-5 gives it. -/
theorem State.emiSettle_at (s : State) : emiAt (s.emiNext s.emiState) s.emiState s.emiSettle := by
  rw [State.emiNext, State.emiSettle]
  simp only [Bool.not_eq_true', Bool.or_eq_true, Bool.and_eq_true]
  split_ifs with hlatch hcause hdis hen hfire hblank hinh hfiring hmay
  · exact s.emiAt_idle _ (by decide) (by decide)
  · exact s.emiAt_idle _ (by decide) (by decide)
  · exact State.emiAt_stays hdis (by decide)
  · exact s.emiAt_idle _ (by decide) (by decide)
  · exact s.emiAt_idle _ (by decide) (by decide)
  · exact State.emiAt_stays hinh (by decide)
  · exact s.emiAt_idle _ (by decide) (by decide)
  · exact State.emiAt_stays hfiring (by decide)
  · exact s.emiAt_idle _ (by decide) (by decide)
  · exact s.emiAt_wait _

/-- Where the emitter enters discharge, it fires no further pulse of its shot. -/
theorem State.emiSettle_discharges (s : State) (h : s.emiSettle.emiState = eDISCHARGING) (hst : s.emiState ≠ eDISCHARGING) :
    s.emiSettle.emi.shot.pulses = s.emi.shot.fired := by
  rw [State.emiSettle] at h ⊢
  split_ifs at h ⊢
  · rfl
  · rfl
  · rfl
  · rfl
  · exact absurd h hst
  · rfl
  · exact absurd h hst
  · rfl
  · exact absurd ((s.emiAt_wait 0).1.symm.trans h) (by decide)

/-- Its choice of a state changes the emitter's own record only by making it idle. -/
theorem State.emiSettle_emi_cases (s : State) : s.emiSettle.emi = s.emi ∨ s.emiSettle.emi = s.emiIdle.emi := by
  have hwait : s.emiWait.emi = s.emi := ((s.wr F.EMI_STATUS_STATE eWAIT).waitDac_fr).emi (by decide)
  rw [State.emiSettle]
  split_ifs
  · exact .inr rfl
  · exact .inr rfl
  · exact .inl rfl
  · exact .inr rfl
  · exact .inr rfl
  · exact .inl rfl
  · exact .inr rfl
  · exact .inl rfl
  · exact .inr rfl
  · exact .inl hwait

/-- The registers that the emitter's next state depends on: the latch and the hedge's state, the causes, EN, the mode. -/
def emiInputs : List Nat := [R.HDG_STATUS, R.EMI_FAULT_CAUSE, R.EMI_CTRL, R.SYS_MODE]

theorem State.emiNext_congr {s t : State} (h : ∀ a ∈ emiInputs, t.reg a = s.reg a) (hrecipe : t.his.recipeCal = s.his.recipeCal)
    (st : Nat) : t.emiNext st = s.emiNext st := by
  have hrd (f : Fld) (hf : f.addr ∈ emiInputs) : t.rd f = s.rd f := congrArg (Word.field · f.hi f.lo) (h _ hf)
  have hlatch : t.latched = s.latched := congrArg (· != 0) (hrd F.HDG_STATUS_LATCH (by decide))
  have hen : t.on F.EMI_CTRL_EN = s.on F.EMI_CTRL_EN := congrArg (· != 0) (hrd _ (by decide))
  have hblanked : t.blanked = s.blanked := congrArg (· == 3) (hrd F.HDG_STATUS_STATE (by decide))
  have hreleased : t.released = s.released := congrArg (· == 2) (hrd F.HDG_STATUS_STATE (by decide))
  have hfire : t.mayFire = s.mayFire := by rw [State.mayFire, State.mode, hrd _ (by decide), hrecipe, State.mayFire, State.mode]
  rw [State.emiNext, hlatch, h _ (by decide), hen, hblanked, hreleased, hfire, State.emiNext]

/-! ### FAULT (R220) -/

/-- To set a bit is to join it to those that stand. -/
theorem withBit_true_eq_or (x b : Nat) : withBit x b true = x ||| 2 ^ b := by
  cases h : x.testBit b with
  | true =>
    rw [withBit, h]
    refine Nat.eq_of_testBit_eq fun i => ?_
    rw [Nat.testBit_or, Nat.testBit_two_pow]
    by_cases hi : b = i
    · subst hi
      simp [h]
    · simp [hi]
  | false =>
    have hx : x < 2 ^ (x + b + 1) := lt_of_lt_of_le Nat.lt_two_pow_self (Nat.pow_le_pow_right (by decide) (by omega))
    have hb : 2 ^ b < 2 ^ (x + b + 1) := Nat.pow_lt_pow_right (by decide) (by omega)
    have hclear : BitVec.ofNat (x + b + 2) x &&& BitVec.twoPow (x + b + 2) b = 0 := by
      rw [BitVec.and_twoPow, BitVec.getLsbD_ofNat, h, Bool.and_false, if_neg Bool.false_ne_true]
      rfl
    have hsum := congrArg BitVec.toNat (BitVec.add_eq_or_of_and_eq_zero _ _ hclear)
    have hpow : 2 ^ (x + b + 2) = 2 * 2 ^ (x + b + 1) := by rw [Nat.pow_succ']
    rw [BitVec.toNat_add, BitVec.toNat_or, BitVec.toNat_ofNat, BitVec.toNat_twoPow, Nat.mod_eq_of_lt (a := x) (by omega),
      Nat.mod_eq_of_lt (a := 2 ^ b) (by omega), Nat.mod_eq_of_lt (by omega)] at hsum
    rw [withBit, h]
    exact hsum

theorem withBit_true_lt {x b w : Nat} (hx : x < 2 ^ w) (hb : b < w) : withBit x b true < 2 ^ w := by
  rw [withBit_true_eq_or]
  exact Nat.or_lt_two_pow hx (Nat.pow_lt_pow_right (by decide) hb)

/-- A register word with a bit set. -/
theorem ofNat_withBit_true (w : Word) (b : Nat) : BitVec.ofNat 32 (withBit w.toNat b true) = w ||| BitVec.twoPow 32 b := by
  have hbit : BitVec.ofNat 32 (2 ^ b) = BitVec.twoPow 32 b := BitVec.eq_of_toNat_eq (by simp)
  rw [withBit_true_eq_or, BitVec.ofNat_or, BitVec.ofNat_toNat, BitVec.setWidth_eq, hbit]

/-- Both bits of a pending enable read 0 once it is dropped. -/
theorem State.dropPend_spec (s : State) (own sys : Fld)
    (h : Fld.apart sys own = true ∧ (own.hi < 32 ∧ own.lo ≤ own.hi) ∧ sys.hi < 32 ∧ sys.lo ≤ sys.hi) :
    (s.dropPend own sys).on own = false ∧ (s.dropPend own sys).on sys = false := by
  obtain ⟨hapart, ⟨hown, hown'⟩, hsys, hsys'⟩ := h
  unfold State.dropPend
  exact ⟨(State.on_wr_apart _ _ _ _ hapart).trans (s.on_wr_zero _ hown hown'), State.on_wr_zero _ _ hsys hsys'⟩

/-- EMI_FAULT_CAUSE with cause `b` recorded, a shutdown that ends so having dropped its pending enable (R41). -/
def State.faultRecorded (s : State) (b : Nat) : State :=
  let x := if s.emiState = eDISCHARGING then s.dropPend F.EMI_STATUS_PENDING_ENABLE F.SYS_PEND_STATUS_EMI else s
  x.setReg R.EMI_FAULT_CAUSE (BitVec.ofNat 32 (withBit (x.reg R.EMI_FAULT_CAUSE).toNat b true))

theorem State.emiFault_eq (s : State) (b : Nat) : s.emiFault b = (s.faultRecorded b).emiSettle.derateCheck := rfl

theorem State.reg_dropPend_cause (s : State) (c : Prop) [Decidable c] :
    (if c then s.dropPend F.EMI_STATUS_PENDING_ENABLE F.SYS_PEND_STATUS_EMI else s).reg R.EMI_FAULT_CAUSE = s.reg R.EMI_FAULT_CAUSE := by
  split
  · unfold State.dropPend
    rw [State.reg_wr_ne _ _ _ _ (by decide), State.reg_wr_ne _ _ _ _ (by decide)]
  · rfl

theorem State.faultRecorded_cause (s : State) (b : Nat) :
    (s.faultRecorded b).reg R.EMI_FAULT_CAUSE = s.reg R.EMI_FAULT_CAUSE ||| BitVec.twoPow 32 b := by
  unfold State.faultRecorded
  rw [State.reg_setReg_self, State.reg_dropPend_cause, ofNat_withBit_true]

/-- What the record of a cause leaves: every field outside EMI_FAULT_CAUSE and the two bits of a pending enable. -/
theorem State.rd_faultRecorded (s : State) (b : Nat) (f : Fld) (hcause : f.addr ≠ R.EMI_FAULT_CAUSE)
    (hpend : Fld.apart F.EMI_STATUS_PENDING_ENABLE f = true) (hsys : Fld.apart F.SYS_PEND_STATUS_EMI f = true) :
    (s.faultRecorded b).rd f = s.rd f := by
  unfold State.faultRecorded
  rw [State.rd_setReg_ne _ _ _ _ hcause]
  split
  · unfold State.dropPend
    rw [State.rd_wr_apart _ _ _ _ hsys, State.rd_wr_apart _ _ _ _ hpend]
  · rfl

theorem State.faultRecorded_emi (s : State) (b : Nat) : (s.faultRecorded b).emi = s.emi := by
  unfold State.faultRecorded
  rw [State.setReg_emi]
  split <;> rfl

theorem State.faultRecorded_raises (s : State) (b : Nat) : (s.faultRecorded b).raises = s.raises := by
  unfold State.faultRecorded
  rw [State.setReg_raises]
  split <;> rfl

theorem State.faultRecorded_pend {s : State} (b : Nat) (h : s.emiState = eDISCHARGING) :
    (s.faultRecorded b).on F.EMI_STATUS_PENDING_ENABLE = false ∧ (s.faultRecorded b).on F.SYS_PEND_STATUS_EMI = false := by
  have hdropped := s.dropPend_spec F.EMI_STATUS_PENDING_ENABLE F.SYS_PEND_STATUS_EMI (by decide)
  unfold State.faultRecorded
  rw [if_pos h, State.on, State.on, State.rd_setReg_ne _ _ _ _ (by decide), State.rd_setReg_ne _ _ _ _ (by decide)]
  exact hdropped

/-- An entry to FAULT with cause `b` (R220): the cause is recorded, the emitter idle, in INHIBITED under the latch; its record changes only
as that asks, and events that wait for delivery still wait. -/
theorem State.emiFault_spec (s : State) {b : Nat} (hb : b < 32) :
    (s.emiFault b).reg R.EMI_FAULT_CAUSE = s.reg R.EMI_FAULT_CAUSE ||| BitVec.twoPow 32 b ∧
      emiAt (if s.latched then eINHIBITED else eFAULT) s.emiState (s.emiFault b) ∧ Told s (s.emiFault b) ∧
      ((s.emiFault b).emi = s.emi ∨ (s.emiFault b).emi = s.emiIdle.emi) := by
  have hcause := s.faultRecorded_cause b
  have hemi := s.faultRecorded_emi b
  have hraises := s.faultRecorded_raises b
  have hstate : (s.faultRecorded b).emiState = s.emiState := s.rd_faultRecorded b _ (by decide) (by decide) (by decide)
  have hlatch : (s.faultRecorded b).latched = s.latched :=
    congrArg (· != 0) (s.rd_faultRecorded b F.HDG_STATUS_LATCH (by decide) (by decide) (by decide))
  have hnonzero : (s.faultRecorded b).reg R.EMI_FAULT_CAUSE ≠ 0 := by
    intro hzero
    have hbit := congrArg (BitVec.getLsbD · b) (hcause.symm.trans hzero)
    simp [hb] at hbit
  rw [s.emiFault_eq]
  generalize s.faultRecorded b = x at *
  have hat := x.emiSettle_at
  rw [hstate, State.emiNext, hlatch, if_pos hnonzero] at hat
  have hsettled := x.emiSettle_fr
  have hchecked := x.emiSettle.derateCheck_fr
  refine ⟨?_, hat.derateCheck, .derateCheck (.of_fr hsettled (by decide) (.of_raises hraises)), ?_⟩
  · rw [hchecked.reg _ (by decide), hsettled.reg _ (by decide), hcause]
  · rw [hchecked.emi (by decide)]
    exact x.emiSettle_emi_cases.imp (·.trans hemi) (·.trans (State.emiIdle_emi_congr hemi))

/-- A shutdown that ends in FAULT drops a pending enable (R41). -/
theorem State.emiFault_pend {s : State} (b : Nat) (h : s.emiState = eDISCHARGING) :
    (s.emiFault b).on F.EMI_STATUS_PENDING_ENABLE = false ∧ (s.emiFault b).on F.SYS_PEND_STATUS_EMI = false := by
  have hpend := State.faultRecorded_pend b h
  rw [s.emiFault_eq]
  generalize s.faultRecorded b = x at *
  have hsettled := x.emiSettle_fr
  have hchecked := x.emiSettle.derateCheck_fr
  rwa [hchecked.on _ (by decide), hsettled.on _ (by decide), hchecked.on _ (by decide),
    hsettled.on _ (by decide)]

end Sys2Proof.Machine
end

section
/-! Enable, disable, discharge and FAULT_CLR of the emitter (R217 to R220). -/

namespace Sys2Proof.Machine

-- A check of a frame's mask walks the list of all areas.
set_option maxRecDepth 4000

/-! ### What an access leaves to the emitter -/

theorem State.accessed_emi (s : State) : s.accessed.emi = s.emi := (s.count_fr 0 2 0 1).emi (by decide)

theorem State.accessed_his (s : State) : s.accessed.his = s.his := (s.count_fr 0 2 0 1).same .his (by decide)

theorem State.accessed_mode (s : State) : s.accessed.mode = s.mode := s.rd_count _ _ _ _ _ (by decide)

theorem State.accessed_latched (s : State) : s.accessed.latched = s.latched := s.on_accessed _ (by decide)

theorem State.accessed_emiState (s : State) : s.accessed.emiState = s.emiState := s.rd_count _ _ _ _ _ (by decide)

/-- A raise changes nothing but what waits for delivery. -/
theorem State.raise_eq (s : State) (e : Nat) : s.raise e = { s with raises := (s.raise e).raises } := by
  rw [State.raise]
  split <;> rfl

/-! ### Enable (R217, R41) -/

theorem State.emiEnable_rejects {s : State} (h : s.mode = mSAFESTOP ∨ s.latched = true) : s.emiEnable = s.raise 3 := if_pos h

theorem State.emiEnable_on {s : State} (hmode : s.mode ≠ mSAFESTOP) (hlatch : s.latched = false) (hen : s.on F.EMI_CTRL_EN = true) :
    s.emiEnable = s := by
  unfold State.emiEnable
  rw [if_neg (by simp [hmode, hlatch]), if_pos hen]

/-- An enable that is taken: pending during discharge, else the state follows. -/
theorem State.emiEnable_taken {s : State} (hmode : s.mode ≠ mSAFESTOP) (hlatch : s.latched = false) (hen : s.on F.EMI_CTRL_EN = false) :
    s.emiEnable = if s.emiState = eDISCHARGING then (s.wr F.EMI_CTRL_EN 1).latchPend F.EMI_STATUS_PENDING_ENABLE F.SYS_PEND_STATUS_EMI
      else (s.wr F.EMI_CTRL_EN 1).emiSettle := by
  have hstate := s.emiState_wr F.EMI_CTRL_EN 1 (by decide)
  unfold State.emiEnable
  rw [if_neg (by simp [hmode, hlatch]), if_neg (by simp [hen])]
  exact if_congr (by rw [hstate]) rfl rfl

/-- A pending enable is latched, told the first time, and nothing but registers and what waits for delivery changes. -/
theorem State.latchPend_emi_spec (s : State) (hmode : s.mode ≠ mRESET) :
    let t := s.latchPend F.EMI_STATUS_PENDING_ENABLE F.SYS_PEND_STATUS_EMI
    t.on F.EMI_STATUS_PENDING_ENABLE = true ∧ t.on F.EMI_CTRL_EN = s.on F.EMI_CTRL_EN ∧ t.emiState = s.emiState ∧
      (s.on F.EMI_STATUS_PENDING_ENABLE = false → t.on F.SYS_PEND_STATUS_EMI = true ∧ 6 ∈ t.raised) ∧
      t = { s with regs := t.regs, raises := t.raises } := by
  unfold State.latchPend
  split
  · next hpend => exact ⟨hpend, rfl, rfl, fun hfree => absurd (hpend.symm.trans hfree) (by decide), rfl⟩
  · refine ⟨?_, ?_, ?_, fun _ => ⟨?_, ?_⟩, ?_⟩
    · simp (disch := decide) [State.on_wr_apart, State.on_wr_one]
    · simp (disch := decide) [State.on_wr_apart]
    · exact (State.rd_raise _ _ _).trans ((State.emiState_wr _ _ _ (by decide)).trans (s.emiState_wr _ _ (by decide)))
    · simp (disch := decide) [State.on_wr_one]
    · rw [State.raised_raise _ _ ?_ (by decide)]
      · exact List.mem_append_right _ (List.mem_singleton_self _)
      · rwa [State.mode_wr_apart _ _ _ (by decide), State.mode_wr_apart _ _ _ (by decide)]
    · rw [State.raise_eq]
      rfl

theorem emitterEnable_pends {s : State} (hr : s.reaches) (hmode : s.mode ≠ mSAFESTOP) (hlatch : s.latched = false)
    (hen : s.on F.EMI_CTRL_EN = false) (hst : s.emiState = eDISCHARGING) :
    answers .emitterEnable s fun t =>
      t.on F.EMI_CTRL_EN = true ∧ t.emiState = eDISCHARGING ∧
      t.on F.EMI_STATUS_PENDING_ENABLE = true ∧
      (s.on F.EMI_STATUS_PENDING_ENABLE = false → t.on F.SYS_PEND_STATUS_EMI = true ∧ 6 ∈ t.raised) ∧
      t = { s.accessed with regs := t.regs, raises := t.raises } := by
  refine ⟨_, congrArg Host.Outcome.next (State.access_of_reaches hr _), ?_⟩
  rw [State.emiEnable_taken (s.accessed_mode.trans_ne hmode) (s.accessed_latched.trans hlatch)
    ((s.on_accessed _ (by decide)).trans hen), if_pos (s.accessed_emiState.trans hst)]
  obtain ⟨hpend, hen', hst', hfirst, hrest⟩ := (s.accessed.wr F.EMI_CTRL_EN 1).latchPend_emi_spec
    (by rw [State.mode_wr_apart _ _ _ (by decide), s.accessed_mode]; exact hr.1)
  have hfree : (s.accessed.wr F.EMI_CTRL_EN 1).on F.EMI_STATUS_PENDING_ENABLE = s.on F.EMI_STATUS_PENDING_ENABLE := by
    rw [State.on_wr_apart _ _ _ _ (by decide), s.on_accessed _ (by decide)]
  have hstate : (s.accessed.wr F.EMI_CTRL_EN 1).emiState = s.emiState :=
    (State.emiState_wr _ _ _ (by decide)).trans s.accessed_emiState
  rw [hfree] at hfirst
  exact ⟨hen'.trans (State.on_wr_one _ _ (by decide) (by decide)), hst'.trans (hstate.trans hst), hpend, hfirst, hrest⟩

theorem State.reg_setReg_congr {s t : State} {b : Nat} (a : Nat) {v w : Word} (h : t.reg b = s.reg b) (hw : b = a → v = w) :
    (t.setReg a v).reg b = (s.setReg a w).reg b := by
  by_cases hb : b = a
  · rw [hb, State.reg_setReg_self, State.reg_setReg_self, hw hb]
  · rw [State.reg_setReg_ne _ _ hb, State.reg_setReg_ne _ _ hb, h]

theorem State.reg_wr_congr {s t : State} {b : Nat} (f : Fld) (v : Nat) (h : t.reg b = s.reg b) : (t.wr f v).reg b = (s.wr f v).reg b :=
  State.reg_setReg_congr _ h fun hb => by rw [← hb, h]

theorem State.reg_accessed (s : State) {a : Nat} (h : a ∈ emiInputs) : s.accessed.reg a = s.reg a := by
  have hclear : ∀ a ∈ emiInputs, obsSat a = false := by decide
  exact s.reg_count _ _ _ _ _ (hclear a h)

/-- A write after an access gives the emitter the same next state as without it. -/
theorem State.emiNext_accessed_wr (s : State) (f : Fld) (v st : Nat) : (s.accessed.wr f v).emiNext st = (s.wr f v).emiNext st :=
  State.emiNext_congr (fun _ ha => State.reg_wr_congr f v (s.reg_accessed ha)) (congrArg His.recipeCal s.accessed_his) st

theorem emitterEnable_settles {s : State} (hr : s.reaches) (hmode : s.mode ≠ mSAFESTOP) (hlatch : s.latched = false)
    (hen : s.on F.EMI_CTRL_EN = false) (hst : s.emiState ≠ eDISCHARGING) :
    answers .emitterEnable s fun t =>
      t.on F.EMI_CTRL_EN = true ∧ emiAt (State.emiNext (s.wr F.EMI_CTRL_EN 1) s.emiState) s.emiState t := by
  refine ⟨_, congrArg Host.Outcome.next (State.access_of_reaches hr _), ?_⟩
  rw [State.emiEnable_taken (s.accessed_mode.trans_ne hmode) (s.accessed_latched.trans hlatch)
    ((s.on_accessed _ (by decide)).trans hen), if_neg (s.accessed_emiState.trans_ne hst)]
  have hat := (s.accessed.wr F.EMI_CTRL_EN 1).emiSettle_at
  rw [State.emiNext_accessed_wr, State.emiState_wr _ _ _ (by decide), s.accessed_emiState] at hat
  exact ⟨((State.emiSettle_fr _).on _ (by decide)).trans (State.on_wr_one _ _ (by decide) (by decide)), hat⟩

/-! ### Disable (R218) -/

/-- EN cleared and a pending enable dropped. -/
def State.enCleared (s : State) : State := (s.dropPend F.EMI_STATUS_PENDING_ENABLE F.SYS_PEND_STATUS_EMI).wr F.EMI_CTRL_EN 0

theorem State.enCleared_spec (s : State) :
    s.enCleared.on F.EMI_CTRL_EN = false ∧ s.enCleared.on F.EMI_STATUS_PENDING_ENABLE = false ∧
      s.enCleared.on F.SYS_PEND_STATUS_EMI = false ∧ s.enCleared.emiState = s.emiState := by
  obtain ⟨hown, hsys⟩ := s.dropPend_spec F.EMI_STATUS_PENDING_ENABLE F.SYS_PEND_STATUS_EMI (by decide)
  have hstate : (s.dropPend F.EMI_STATUS_PENDING_ENABLE F.SYS_PEND_STATUS_EMI).emiState = s.emiState :=
    (State.emiState_wr _ _ _ (by decide)).trans (s.emiState_wr _ _ (by decide))
  unfold State.enCleared
  generalize s.dropPend F.EMI_STATUS_PENDING_ENABLE F.SYS_PEND_STATUS_EMI = x at *
  exact ⟨x.on_wr_zero _ (by decide) (by decide), (x.on_wr_apart _ _ _ (by decide)).trans hown,
    (x.on_wr_apart _ _ _ (by decide)).trans hsys, (x.emiState_wr _ _ (by decide)).trans hstate⟩

theorem State.emiNext_enCleared (s : State) (st : Nat) : s.accessed.enCleared.emiNext st = (s.wr F.EMI_CTRL_EN 0).emiNext st := by
  unfold State.enCleared
  rw [State.dropPend]
  refine State.emiNext_congr (fun a ha => ?_) (by exact congrArg His.recipeCal s.accessed_his) st
  have hapart : ∀ a ∈ emiInputs, a ≠ F.SYS_PEND_STATUS_EMI.addr ∧ a ≠ F.EMI_STATUS_PENDING_ENABLE.addr := by decide
  refine State.reg_wr_congr _ _ ?_
  rw [State.reg_wr_ne _ _ _ _ (hapart a ha).1, State.reg_wr_ne _ _ _ _ (hapart a ha).2, s.reg_accessed ha]

/-- A clear of EN: an enabled emitter that the hedge inhibits discharges, any other takes the state that EN = 0 gives it. -/
theorem State.emiDisable_spec {s x : State} (hx : x = s.enCleared) :
    s.emiDisable = if s.on F.EMI_CTRL_EN = true ∧ s.emiState = eINHIBITED ∧ s.latched = false then x.emiDischarge else x.emiSettle := by
  subst hx
  rw [State.emiDisable]
  exact if_congr (by simp [and_assoc]) rfl rfl

theorem emitterDisable_follows {s : State} (hr : s.reaches) :
    answers .emitterDisable s fun t =>
      t.on F.EMI_CTRL_EN = false ∧ t.on F.EMI_STATUS_PENDING_ENABLE = false ∧ t.on F.SYS_PEND_STATUS_EMI = false ∧
      (emiAt (if s.on F.EMI_CTRL_EN = true ∧ s.emiState = eINHIBITED ∧ s.latched = false then eDISCHARGING
        else State.emiNext (s.wr F.EMI_CTRL_EN 0) s.emiState) s.emiState t) ∧
      (t.emiState = eDISCHARGING ∧ s.emiState ≠ eDISCHARGING → t.emi.shot.pulses = s.emi.shot.fired) := by
  refine ⟨_, congrArg Host.Outcome.next (State.access_of_reaches hr _), ?_⟩
  have hnext := s.emiNext_enCleared s.emiState
  have hemi : s.accessed.enCleared.emi = s.emi := s.accessed_emi
  obtain ⟨hen, hown, hsys, hstate⟩ := s.accessed.enCleared_spec
  rw [s.accessed_emiState] at hstate
  rw [State.emiDisable_spec rfl, s.on_accessed _ (by decide), s.accessed_emiState, s.accessed_latched]
  generalize s.accessed.enCleared = x at *
  split
  · next hwas =>
    have hfr := x.emiDischarge_fr
    refine ⟨(hfr.on _ (by decide)).trans hen, (hfr.on _ (by decide)).trans hown,
      (hfr.on _ (by decide)).trans hsys, x.emiAt_idle _ (by decide) (by decide), fun _ => ?_⟩
    exact congrArg (fun e : Emi => e.shot.fired) hemi
  · have hfr := x.emiSettle_fr
    have hat := x.emiSettle_at
    rw [hstate, hnext] at hat
    refine ⟨(hfr.on _ (by decide)).trans hen, (hfr.on _ (by decide)).trans hown,
      (hfr.on _ (by decide)).trans hsys, hat, fun ⟨hdis, hst⟩ => ?_⟩
    exact (x.emiSettle_discharges hdis (hstate.trans_ne hst)).trans (congrArg (fun e : Emi => e.shot.fired) hemi)

/-! ### Discharge (R218) -/

/-- A discharge that reached its level: what is pending is dropped, and the emitter is OFF until the state follows. -/
def State.discharged (s : State) : State :=
  (s.dropPend F.EMI_STATUS_PENDING_ENABLE F.SYS_PEND_STATUS_EMI).wr F.EMI_STATUS_STATE eOFF

theorem State.discharged_spec (s : State) :
    s.discharged.on F.EMI_STATUS_PENDING_ENABLE = false ∧ s.discharged.on F.SYS_PEND_STATUS_EMI = false ∧
      s.discharged.emiState = eOFF ∧ s.discharged.rd F.EMI_CHG_STATUS_FB_MEAS = s.rd F.EMI_CHG_STATUS_FB_MEAS := by
  obtain ⟨hown, hsys⟩ := s.dropPend_spec F.EMI_STATUS_PENDING_ENABLE F.SYS_PEND_STATUS_EMI (by decide)
  have hmeas : (s.dropPend F.EMI_STATUS_PENDING_ENABLE F.SYS_PEND_STATUS_EMI).rd F.EMI_CHG_STATUS_FB_MEAS = s.rd F.EMI_CHG_STATUS_FB_MEAS :=
    (State.rd_wr_apart _ _ _ _ (by decide)).trans (s.rd_wr_apart _ _ _ (by decide))
  unfold State.discharged
  generalize s.dropPend F.EMI_STATUS_PENDING_ENABLE F.SYS_PEND_STATUS_EMI = x at *
  exact ⟨(x.on_wr_apart _ _ _ (by decide)).trans hown, (x.on_wr_apart _ _ _ (by decide)).trans hsys, x.rd_wr_self _ _ (by decide),
    (x.rd_wr_apart _ _ _ (by decide)).trans hmeas⟩

/-- A reading of EM_FB and the end of a discharge are nothing to what the next state depends on. -/
theorem State.emiNext_discharged (s : State) (fb st : Nat) : (s.wr F.EMI_CHG_STATUS_FB_MEAS fb).discharged.emiNext st = s.emiNext st := by
  unfold State.discharged
  rw [State.dropPend]
  refine State.emiNext_congr (fun a ha => ?_) (by rfl) st
  have hapart : ∀ a ∈ emiInputs, a ≠ R.EMI_STATUS ∧ a ≠ R.SYS_PEND_STATUS ∧ a ≠ R.EMI_CHG_STATUS := by decide
  obtain ⟨hstatus, hsys, hmeas⟩ := hapart a ha
  rw [State.reg_wr_ne _ _ _ _ hstatus, State.reg_wr_ne _ _ _ _ hsys, State.reg_wr_ne _ _ _ _ hstatus, State.reg_wr_ne _ _ _ _ hmeas]

theorem execDischargeComplete_eq (fb : Fin 4096) (s : State) :
    execDischargeComplete fb s = .next (
      if s.emiState ≠ eDISCHARGING ∨ 16 * s.rd F.EMI_CHG_CFG_DIS_LEVEL < fb.val then s.wr F.EMI_CHG_STATUS_FB_MEAS fb
      else (s.wr F.EMI_CHG_STATUS_FB_MEAS fb).discharged.emiSettle) := by
  have hstate := s.emiState_wr F.EMI_CHG_STATUS_FB_MEAS fb (by decide)
  have hlevel := s.rd_wr_apart F.EMI_CHG_STATUS_FB_MEAS F.EMI_CHG_CFG_DIS_LEVEL fb (by decide)
  rw [execDischargeComplete]
  exact congrArg Host.Outcome.next (if_congr (by rw [hstate, hlevel]) rfl rfl)

theorem dischargeComplete_ends {s : State} (fb : Fin 4096) (hst : s.emiState = eDISCHARGING)
    (hlevel : fb.val ≤ 16 * s.rd F.EMI_CHG_CFG_DIS_LEVEL) :
    answers (.dischargeComplete fb) s fun t =>
      t.rd F.EMI_CHG_STATUS_FB_MEAS = fb.val ∧ emiAt (s.emiNext eOFF) eOFF t ∧
      t.on F.EMI_STATUS_PENDING_ENABLE = false ∧ t.on F.SYS_PEND_STATUS_EMI = false := by
  refine ⟨_, (execDischargeComplete_eq fb s).trans (congrArg Host.Outcome.next (if_neg (by simp [hst, hlevel]))), ?_⟩
  have hmeas : (s.wr F.EMI_CHG_STATUS_FB_MEAS fb).rd F.EMI_CHG_STATUS_FB_MEAS = fb.val :=
    (s.rd_wr_self _ _ (by decide)).trans (Nat.mod_eq_of_lt fb.isLt)
  have hnext := s.emiNext_discharged fb eOFF
  obtain ⟨hown, hsys, hoff, hmeas'⟩ := (s.wr F.EMI_CHG_STATUS_FB_MEAS fb).discharged_spec
  rw [hmeas] at hmeas'
  generalize (s.wr F.EMI_CHG_STATUS_FB_MEAS fb).discharged = x at *
  have hfr := x.emiSettle_fr
  have hat := x.emiSettle_at
  rw [hoff, hnext] at hat
  exact ⟨(hfr.rd _ (by decide)).trans hmeas', hat, (hfr.on _ (by decide)).trans hown,
    (hfr.on _ (by decide)).trans hsys⟩

theorem disTimeout_faults {s : State} (hmode : s.mode ≠ mRESET) (hst : s.emiState = eDISCHARGING) :
    answers .disTimeout s fun t =>
      t.reg R.EMI_FAULT_CAUSE = s.reg R.EMI_FAULT_CAUSE ||| (1 <<< 2) ∧
      (emiAt (if s.latched then eINHIBITED else eFAULT) s.emiState t) ∧ 389 ∈ t.raised ∧
      t.on F.EMI_STATUS_PENDING_ENABLE = false ∧ t.on F.SYS_PEND_STATUS_EMI = false := by
  refine ⟨_, congrArg Host.Outcome.next (if_pos hst), ?_⟩
  obtain ⟨hcause, hat, htold, -⟩ := (s.raise 389).emiFault_spec (b := 2) (by decide)
  have hstate : (s.raise 389).emiState = s.emiState := s.rd_raise _ _
  have hlatch : (s.raise 389).latched = s.latched := s.on_raise _ _
  rw [hstate, hlatch] at hat
  rw [State.reg_raise] at hcause
  refine ⟨hcause, hat, htold ?_, State.emiFault_pend 2 (hstate.trans hst)⟩
  rw [State.raised_raise _ _ hmode (by decide)]
  exact List.mem_append_right _ (List.mem_singleton_self _)

/-! ### FAULT_CLR (R220) -/

/-- What leaves the mode alone brings no rerun on. -/
theorem State.toScan_of_mode {s : State} {f : State → State} (h : (f s).mode = s.mode) : s.toScan f = f s := by
  unfold State.toScan
  split
  · rfl
  · next hmode =>
    rw [State.rerunCheck, if_neg]
    rw [h]
    simp [hmode]

/-- Outside SCAN and DERATED derate sources decide nothing. -/
theorem State.derateCheck_of_mode {s : State} (hscan : s.mode ≠ mSCAN) (hderated : s.mode ≠ mDERATED) : s.derateCheck = s := by
  unfold State.derateCheck
  rw [if_neg fun h => hscan h.1, if_neg fun h => hderated h.1]

/-- A laser-board cause stands while the watch shows HOT. -/
abbrev State.stillHot (s : State) : Prop :=
  s.on F.EMI_LB_CFG_EN = true ∧ s.rd F.EMI_STATUS_LB_STAGE = 2 ∧
    (s.on F.EMI_FAULT_CAUSE_LB_HOT = true ∨ s.on F.EMI_FAULT_CAUSE_LB_STALE = true)

theorem State.stillHot_accessed (s : State) : s.accessed.stillHot ↔ s.stillHot := by
  rw [State.stillHot, s.on_accessed _ (by decide), s.on_accessed _ (by decide), s.on_accessed _ (by decide),
    s.rd_count _ _ _ _ _ (by decide)]

theorem State.faultClr_eq (s : State) :
    s.faultClr = if s.stillHot then s.raise 3 else if s.reg R.EMI_FAULT_CAUSE = 0 then s
      else ((s.setReg R.EMI_FAULT_CAUSE 0).emiSettle).derateCheck := by
  rw [State.faultClr]
  refine if_congr ?_ rfl rfl
  simp only [Bool.and_eq_true, Bool.or_eq_true, beq_iff_eq]
  tauto

theorem State.not_stillHot {s : State} (h : s.reg R.EMI_FAULT_CAUSE = 0) : ¬s.stillHot := by
  have hoff (f : Fld) (hf : f.addr = R.EMI_FAULT_CAUSE) : s.on f = false := by
    simp [State.on, State.rd, hf, h, Word.field]
  rintro ⟨-, -, hcause⟩
  rw [hoff _ rfl, hoff _ rfl] at hcause
  simp at hcause

theorem execFaultClr_eq {s : State} (hr : s.reaches) : execFaultClr s = .next (s.accessed.toScan State.faultClr) :=
  congrArg Host.Outcome.next (State.access_of_reaches hr _)

theorem faultClr_rejects {s : State} (hr : s.reaches) (h : s.stillHot) : answers .faultClr s fun t => rejected s t := by
  have hclr : s.accessed.faultClr = s.accessed.raise 3 := by rw [State.faultClr_eq, if_pos (s.stillHot_accessed.2 h)]
  refine ⟨_, execFaultClr_eq hr, ?_⟩
  rw [State.toScan_of_mode (by rw [hclr, State.mode_raise]), hclr]

theorem faultClr_idle {s : State} (hr : s.reaches) (h : s.reg R.EMI_FAULT_CAUSE = 0) : answers .faultClr s fun t => t = s.accessed := by
  have hcause : s.accessed.reg R.EMI_FAULT_CAUSE = 0 := (s.reg_accessed (by decide)).trans h
  have hclr : s.accessed.faultClr = s.accessed := by rw [State.faultClr_eq, if_neg (State.not_stillHot hcause), if_pos hcause]
  refine ⟨_, execFaultClr_eq hr, ?_⟩
  rw [State.toScan_of_mode (by rw [hclr]), hclr]

theorem faultClr_clears {s : State} (hr : s.reaches) (hcold : ¬s.stillHot) (h : s.reg R.EMI_FAULT_CAUSE ≠ 0) :
    answers .faultClr s fun t =>
      t.reg R.EMI_FAULT_CAUSE = 0 ∧
      (s.mode ≠ mDERATED → emiAt (State.emiNext (s.setReg R.EMI_FAULT_CAUSE 0) s.emiState) s.emiState t) := by
  refine ⟨_, execFaultClr_eq hr, ?_⟩
  have hnext : (s.accessed.setReg R.EMI_FAULT_CAUSE 0).emiNext s.emiState = (s.setReg R.EMI_FAULT_CAUSE 0).emiNext s.emiState :=
    State.emiNext_congr (fun _ ha => State.reg_setReg_congr _ (s.reg_accessed ha) fun _ => rfl) (congrArg His.recipeCal s.accessed_his) _
  have hstate : (s.accessed.setReg R.EMI_FAULT_CAUSE 0).emiState = s.emiState :=
    (State.rd_setReg_ne _ _ _ _ (by decide)).trans s.accessed_emiState
  have hcause : (s.accessed.setReg R.EMI_FAULT_CAUSE 0).reg R.EMI_FAULT_CAUSE = 0 := State.reg_setReg_self ..
  have hmode : (s.accessed.setReg R.EMI_FAULT_CAUSE 0).mode = s.mode :=
    (State.rd_setReg_ne _ _ _ _ (by decide)).trans s.accessed_mode
  have hclr : s.accessed.faultClr = (s.accessed.setReg R.EMI_FAULT_CAUSE 0).emiSettle.derateCheck := by
    rw [State.faultClr_eq, if_neg (mt s.stillHot_accessed.1 hcold), if_neg ((s.reg_accessed (by decide)).trans_ne h)]
  generalize s.accessed.setReg R.EMI_FAULT_CAUSE 0 = x at *
  have hat := x.emiSettle_at
  rw [hstate, hnext] at hat
  have hsettled : x.emiSettle.mode = s.mode := (x.emiSettle_fr.mode (by decide)).trans hmode
  have hcleared : s.accessed.faultClr.reg R.EMI_FAULT_CAUSE = 0 := by
    rw [hclr, (State.derateCheck_fr _).reg _ (by decide), x.emiSettle_fr.reg _ (by decide), hcause]
  refine ⟨?_, fun hderated => ?_⟩
  · unfold State.toScan
    split
    · exact hcleared
    · exact ((State.rerunCheck_fr _).reg _ (by decide)).trans hcleared
  · by_cases hscan : s.mode = mSCAN
    · unfold State.toScan
      rw [if_pos (s.accessed_mode.trans hscan), hclr]
      exact hat.derateCheck
    · rw [State.derateCheck_of_mode (hsettled.trans_ne hscan) (hsettled.trans_ne hderated)] at hclr
      rw [State.toScan_of_mode (by rw [hclr, hsettled, s.accessed_mode]), hclr]
      exact hat

/-! ### The obligation -/

/-- Settles O35: each command by the lemma above that says what it does where its conditions hold; the state that follows is the one that
`emiSettle_at` gives. -/
theorem emitterStates : Obligations.EmitterStates := by
  refine ⟨fun s => emitterEnable_pends, fun s => emitterEnable_settles, fun s hr hmode hlatch hen => ?on, fun s hr h => ?refused,
    fun s => emitterDisable_follows, fun s => faultClr_clears, fun s => faultClr_idle, fun s => faultClr_rejects,
    fun s fb => dischargeComplete_ends fb, fun s fb h => ?charged, fun s => disTimeout_faults,
    fun s h => ⟨s, congrArg Host.Outcome.next (if_neg h), rfl⟩⟩
  case on =>
    refine ⟨_, congrArg Host.Outcome.next (State.access_of_reaches hr _), ?_⟩
    exact State.emiEnable_on (s.accessed_mode.trans_ne hmode) (s.accessed_latched.trans hlatch) ((s.on_accessed _ (by decide)).trans hen)
  case refused =>
    refine ⟨_, congrArg Host.Outcome.next (State.access_of_reaches hr _), ?_⟩
    exact State.emiEnable_rejects (h.imp s.accessed_mode.trans s.accessed_latched.trans)
  case charged => exact ⟨_, (execDischargeComplete_eq fb s).trans (congrArg Host.Outcome.next (if_pos h)), rfl⟩

end Sys2Proof.Machine
end

section
/-! The emitter's line test (R214, R215): which pass a step belongs to, what it finds, and what each step leaves. -/

namespace Sys2Proof.Machine

-- A check of a frame's mask walks the list of all areas.
set_option maxRecDepth 4000

/-! ### SHORT_TEST -/

theorem State.accessed_running (s : State) : s.accessed.running = s.running := s.on_accessed _ (by decide)

theorem execShortTest_eq {s : State} (hr : s.reaches) :
    execShortTest s = .next (
      if s.running = true ∨ s.emiState = eDISCHARGING then s.accessed.raise 3
      else if s.emi.testCmd = true then s.accessed
      else { s.accessed with emi := { s.emi with testCmd := true, testStep := 0 } }) := by
  refine congrArg Host.Outcome.next ((State.access_of_reaches hr _).trans ?_)
  rw [State.shortTest, s.accessed_running, s.accessed_emiState, s.accessed_emi]
  exact if_congr (by simp) rfl rfl

/-! ### Line faults -/

/-- The line-fault registers, in the order of LINE_FAULT_CLEAR. -/
abbrev lineReg (r : Nat) : Nat := [R.EMI_ROW_SHORT, R.EMI_ROW_OPEN, R.EMI_COL_FAULT].getD r 0

theorem State.reg_derateCheck_line (s : State) : ∀ r : Fin 3, s.derateCheck.reg (lineReg r) = s.reg (lineReg r)
  | 0 => s.derateCheck_fr.reg _ (by decide)
  | 1 => s.derateCheck_fr.reg _ (by decide)
  | 2 => s.derateCheck_fr.reg _ (by decide)

theorem State.reg_rerunCheck_line (s : State) : ∀ r : Fin 3, s.rerunCheck.reg (lineReg r) = s.reg (lineReg r)
  | 0 => s.rerunCheck_fr.reg _ (by decide)
  | 1 => s.rerunCheck_fr.reg _ (by decide)
  | 2 => s.rerunCheck_fr.reg _ (by decide)

/-- The line-fault fields. -/
def lineFlds : List Fld := [F.EMI_ROW_OPEN_OPEN, F.EMI_ROW_SHORT_SHORT, F.EMI_COL_FAULT_OPEN, F.EMI_COL_FAULT_SHORT]

theorem State.rd_derateCheck_line (s : State) {f : Fld} (hf : f ∈ lineFlds) : s.derateCheck.rd f = s.rd f := by
  have haddr : ∀ f ∈ lineFlds, ∃ r : Fin 3, f.addr = lineReg r := by decide
  obtain ⟨r, hr⟩ := haddr f hf
  rw [State.rd, State.rd, hr, s.reg_derateCheck_line]

/-- A line fault sets its bit and is told the first time; the other line-fault fields and the emitter's own record stand. -/
theorem State.lineFault_spec (s : State) {f : Fld} {b : Nat} (hf : f ∈ lineFlds) (hb : b < f.hi + 1 - f.lo) :
    (s.lineFault f b).rd f = withBit (s.rd f) b true ∧ (∀ g ∈ lineFlds, g ≠ f → (s.lineFault f b).rd g = s.rd g) ∧
      (s.lineFault f b).emi = s.emi ∧ (s.mode ≠ mRESET → (s.lineFault f b).rd f ≠ s.rd f → 384 ∈ (s.lineFault f b).raised) := by
  have hwidth : ∀ f ∈ lineFlds, f.hi < 32 ∧ Fld.apart f F.SYS_MODE_MODE = true := by decide
  have hapart : ∀ f ∈ lineFlds, ∀ g ∈ lineFlds, g ≠ f → Fld.apart f g = true := by decide
  obtain ⟨hhi, hmode⟩ := hwidth f hf
  rw [State.lineFault]
  split
  · next hset => exact ⟨by simp [withBit, hset], fun _ _ _ => rfl, rfl, fun _ hne => absurd rfl hne⟩
  · refine ⟨?_, fun g hg hne => ?_, ?_, fun hm _ => ?_⟩
    · rw [State.rd_derateCheck_line _ hf, State.rd_raise, State.rd_wr_self _ _ _ hhi]
      exact Nat.mod_eq_of_lt (withBit_true_lt (s.rd_lt f) hb)
    · rw [State.rd_derateCheck_line _ hg, State.rd_raise, State.rd_wr_apart _ _ _ _ (hapart f hf g hg hne)]
    · rw [(State.derateCheck_fr _).emi (by decide), (State.raise_fr _ _).emi (by decide), State.wr_emi]
    · refine Told.derateCheck (List.Subset.refl _) ?_
      rw [State.raised_raise _ _ ((s.mode_wr_apart f _ hmode).trans_ne hm) (by decide)]
      exact List.mem_append_right _ (List.mem_singleton_self _)

/-! ### Steps of a pass -/

/-- EM_SENSE lies below SENSE_LO. -/
abbrev State.senseLow (s : State) (sense : Nat) : Prop := sense < 10 * s.rd F.EMI_TEST_CFG_SENSE_LO

/-- EM_SENSE has reached SENSE_HI. -/
abbrev State.senseHigh (s : State) (sense : Nat) : Prop := 10 * s.rd F.EMI_TEST_CFG_SENSE_HI ≤ sense

/-- What the step of line `b` finds: OPEN in `fo` below SENSE_LO, SHORT in `fs` from SENSE_HI on. -/
def State.lineTested (s : State) (sense : Nat) (fo fs : Fld) (b : Nat) : State :=
  if s.senseLow sense then s.lineFault fo b else if s.senseHigh sense then s.lineFault fs b else s

/-- The pass goes on with step `j`; after its last line an automatic one begins anew. -/
def State.testNext (s : State) (j : Nat) : State :=
  { s with emi := { s.emi with testStep := if 35 ≤ j && !s.emi.testCmd then 0 else j } }

theorem State.lineTested_spec (s : State) (sense : Nat) {fo fs : Fld} {b : Nat} (ho : fo ∈ lineFlds) (hs : fs ∈ lineFlds)
    (hne : fo ≠ fs) (hbo : b < fo.hi + 1 - fo.lo) (hbs : b < fs.hi + 1 - fs.lo) :
    let t := s.lineTested sense fo fs b
    t.emi = s.emi ∧ t.rd fo = (if s.senseLow sense then withBit (s.rd fo) b true else s.rd fo) ∧
      t.rd fs = (if 10 * s.rd F.EMI_TEST_CFG_SENSE_LO ≤ sense ∧ s.senseHigh sense then withBit (s.rd fs) b true else s.rd fs) ∧
      (s.mode ≠ mRESET ∧ (t.rd fo ≠ s.rd fo ∨ t.rd fs ≠ s.rd fs) → 384 ∈ t.raised) := by
  unfold State.lineTested
  by_cases hlow : s.senseLow sense
  · obtain ⟨hset, hkept, hemi, htold⟩ := s.lineFault_spec ho hbo
    have hother := hkept fs hs hne.symm
    rw [if_pos hlow, if_pos hlow, if_neg fun h => Nat.not_le_of_lt hlow h.1]
    exact ⟨hemi, hset, hother, fun ⟨hm, hnew⟩ => htold hm (hnew.resolve_right fun h => h hother)⟩
  · rw [if_neg hlow, if_neg hlow]
    by_cases hhigh : s.senseHigh sense
    · obtain ⟨hset, hkept, hemi, htold⟩ := s.lineFault_spec hs hbs
      have hother := hkept fo ho hne
      rw [if_pos hhigh, if_pos ⟨Nat.le_of_not_lt hlow, hhigh⟩]
      exact ⟨hemi, hother, hset, fun ⟨hm, hnew⟩ => htold hm (hnew.resolve_left fun h => h hother)⟩
    · rw [if_neg hhigh, if_neg fun h => hhigh h.2]
      exact ⟨rfl, rfl, rfl, fun ⟨_, hnew⟩ => absurd hnew (by simp)⟩

/-- A step is due: of a commanded pass, or of the automatic one in a fallow slot. -/
abbrev State.testDue (s : State) : Prop :=
  s.emi.testCmd = true ∨ (s.running = true ∧ s.on F.EMI_TEST_CFG_AUTO = true ∧ (s.his.cur.any fun x => x.kind == .fallow) = true)

theorem execLineTestStep_eq (sense : Nat) (s : State) :
    execLineTestStep sense s = .next (
      if ¬s.testDue ∨ 35 ≤ s.emi.testStep then s
      else if s.emi.testStep = 0 then if s.senseLow sense then s.testNext 1 else (s.testNext 35).emiFault 5
      else if s.emi.testStep ≤ 18 then
        (s.lineTested sense F.EMI_ROW_OPEN_OPEN F.EMI_ROW_SHORT_SHORT (s.emi.testStep - 1)).testNext (s.emi.testStep + 1)
      else (s.lineTested sense F.EMI_COL_FAULT_OPEN F.EMI_COL_FAULT_SHORT (s.emi.testStep - 19)).testNext (s.emi.testStep + 1)) := by
  rw [execLineTestStep]
  simp only [State.lineTested, State.testNext, decide_eq_true_eq]
  exact congrArg Host.Outcome.next (if_congr (by simp [State.testDue, or_assoc, imp_iff_not_or]) rfl rfl)

theorem lineTestStep_first {s : State} (sense : Nat) (hdue : s.testDue) (hstep : s.emi.testStep = 0) :
    answers (.lineTestStep sense) s fun t =>
      (t.emi.testStep = if s.senseLow sense then 1 else if s.emi.testCmd then 35 else 0) ∧
      (if s.senseLow sense then t = { s with emi := t.emi } else
        t.reg R.EMI_FAULT_CAUSE = s.reg R.EMI_FAULT_CAUSE ||| (1 <<< 5) ∧
        emiAt (if s.latched then eINHIBITED else eFAULT) s.emiState t) := by
  have hexec : execLineTestStep sense s = .next (if s.senseLow sense then s.testNext 1 else (s.testNext 35).emiFault 5) := by
    rw [execLineTestStep_eq, if_neg (not_or.2 ⟨not_not.2 hdue, by omega⟩), if_pos hstep]
  by_cases hlow : s.senseLow sense
  · refine ⟨_, hexec.trans (congrArg Host.Outcome.next (if_pos hlow)), ?_⟩
    simp only [if_pos hlow]
    exact ⟨rfl, rfl⟩
  · refine ⟨_, hexec.trans (congrArg Host.Outcome.next (if_neg hlow)), ?_⟩
    obtain ⟨hcause, hat, -, hemi⟩ := (s.testNext 35).emiFault_spec (b := 5) (by decide)
    have hnext : (s.testNext 35).emi.testStep = if s.emi.testCmd then 35 else 0 := by
      cases h : s.emi.testCmd <;> simp [State.testNext, h]
    have hkept : ((s.testNext 35).emiFault 5).emi.testStep = (s.testNext 35).emi.testStep :=
      hemi.elim (congrArg Emi.testStep) (congrArg Emi.testStep)
    simp only [if_neg hlow]
    exact ⟨hkept.trans hnext, hcause, hat⟩

/-- The step after a line: the next one, or the first where an automatic pass has ended. -/
theorem State.testNext_step {s t : State} (h : t.emi = s.emi) {j k : Nat} (hj : j = k) (hk : k ≤ 35) :
    (t.testNext j).emi.testStep = if k = 35 ∧ s.emi.testCmd = false then 0 else k := by
  subst hj
  unfold State.testNext
  rw [h]
  refine if_congr ?_ rfl rfl
  rw [Bool.and_eq_true, decide_eq_true_iff, Bool.not_eq_true']
  exact and_congr_left' ⟨fun h => by omega, fun h => by omega⟩

/-- What a due step past the first shows of a line whose fields are `fo` and `fs`. -/
abbrev lineShown (s : State) (sense : Nat) (fo fs : Fld) (b k : Nat) (t : State) : Prop :=
  (t.emi.testStep = if k = 35 ∧ s.emi.testCmd = false then 0 else k) ∧
  (t.rd fo = if sense < 10 * s.rd F.EMI_TEST_CFG_SENSE_LO then withBit (s.rd fo) b true else s.rd fo) ∧
  (t.rd fs = if 10 * s.rd F.EMI_TEST_CFG_SENSE_LO ≤ sense ∧ 10 * s.rd F.EMI_TEST_CFG_SENSE_HI ≤ sense
    then withBit (s.rd fs) b true else s.rd fs) ∧
  (s.mode ≠ mRESET ∧ (t.rd fo ≠ s.rd fo ∨ t.rd fs ≠ s.rd fs) → 384 ∈ t.raised)

theorem lineTestStep_row {s : State} (sense : Nat) (k : Fin 18) (hdue : s.testDue) (hstep : s.emi.testStep = k.val + 1) :
    answers (.lineTestStep sense) s (lineShown s sense F.EMI_ROW_OPEN_OPEN F.EMI_ROW_SHORT_SHORT k (1 + k.val + 1)) := by
  have hk := k.isLt
  obtain ⟨hemi, hopen, hshort, htold⟩ := s.lineTested_spec sense (b := k) (fo := F.EMI_ROW_OPEN_OPEN) (fs := F.EMI_ROW_SHORT_SHORT)
    (by decide) (by decide) (by decide) hk hk
  refine ⟨_, execLineTestStep_eq sense s, ?_⟩
  rw [if_neg (not_or.2 ⟨not_not.2 hdue, by omega⟩), if_neg (by omega), if_pos (by omega), hstep, Nat.add_sub_cancel]
  exact ⟨State.testNext_step hemi (by omega) (by omega), hopen, hshort, htold⟩

theorem lineTestStep_column {s : State} (sense : Nat) (k : Fin 16) (hdue : s.testDue) (hstep : s.emi.testStep = k.val + 19) :
    answers (.lineTestStep sense) s (lineShown s sense F.EMI_COL_FAULT_OPEN F.EMI_COL_FAULT_SHORT k (19 + k.val + 1)) := by
  have hk := k.isLt
  obtain ⟨hemi, hopen, hshort, htold⟩ := s.lineTested_spec sense (b := k) (fo := F.EMI_COL_FAULT_OPEN) (fs := F.EMI_COL_FAULT_SHORT)
    (by decide) (by decide) (by decide) hk hk
  refine ⟨_, execLineTestStep_eq sense s, ?_⟩
  rw [if_neg (not_or.2 ⟨not_not.2 hdue, by omega⟩), if_neg (by omega), if_neg (by omega), hstep, Nat.add_sub_cancel]
  exact ⟨State.testNext_step hemi (by omega) (by omega), hopen, hshort, htold⟩

/-! ### The end of a pass, and the clearing of faults -/

theorem lineTestPassEnd_ends {s : State} (hmode : s.mode ≠ mRESET) (h : s.emi.testCmd = true ∧ s.emi.testStep = 35) :
    answers .lineTestPassEnd s fun t =>
      t = { s with emi := { s.emi with testCmd := false, testStep := 0 }, raises := s.raises ++ [(395, s.reg R.SYS_MODE)] } := by
  have htold : s.raise 395 = { s with raises := s.raises ++ [(395, s.reg R.SYS_MODE)] } :=
    if_neg (not_or.2 ⟨hmode, by decide⟩)
  refine ⟨_, congrArg Host.Outcome.next (if_pos (by simp [h])), ?_⟩
  rw [htold]

theorem State.lineClear_reg (s : State) (r : Fin 3) (w : Word) : (s.lineClear r w).reg (lineReg r) = s.reg (lineReg r) &&& ~~~w := by
  have haddr : (if r.val = 0 then R.EMI_ROW_SHORT else if r.val = 1 then R.EMI_ROW_OPEN else R.EMI_COL_FAULT) = lineReg r := by
    revert r
    decide
  rw [State.lineClear, haddr, State.reg_derateCheck_line, State.reg_setReg_self]

theorem lineFaultClear_clears {s : State} (r : Fin 3) (w : Word) (hr : s.reaches) :
    answers (.lineFaultClear r w) s fun t => t.reg (lineReg r) = s.reg (lineReg r) &&& ~~~w := by
  have hcount : ∀ r : Fin 3, obsSat (lineReg r) = false := by decide
  have hcleared : (s.accessed.lineClear r w).reg (lineReg r) = s.reg (lineReg r) &&& ~~~w := by
    rw [State.lineClear_reg, s.reg_count _ _ _ _ _ (hcount r)]
  refine ⟨_, congrArg Host.Outcome.next (State.access_of_reaches hr _), ?_⟩
  unfold State.toScan
  split
  · exact hcleared
  · exact (State.reg_rerunCheck_line _ r).trans hcleared

end Sys2Proof.Machine
end

section
/-! The power curve (R207), the seed map (R200, R201) and the sweep syncs (R22, R203). -/

namespace Sys2Proof.Machine

-- A check of a frame's mask walks the list of all areas.
set_option maxRecDepth 4000

/-! ### The copy of the curve -/

theorem State.waitDac_eq (s : State) : s.waitDac = { s with regs := s.waitDac.regs } := by
  unfold State.waitDac
  split <;> rfl

theorem State.reg_waitDac_ne (s : State) {a : Nat} (h : a ≠ R.EMI_CHG_STATUS) : s.waitDac.reg a = s.reg a := by
  unfold State.waitDac
  split
  · exact s.reg_wr_ne _ _ _ h
  · rfl

theorem State.on_waitDac (s : State) (f : Fld) (h : Fld.apart F.EMI_CHG_STATUS_DAC_CODE f = true) : s.waitDac.on f = s.on f :=
  congrArg (· != 0) (s.rd_waitDac f h)

/-- The first `n` entries of the curve copied to the active one. -/
def State.curveCopied (s : State) (n : Nat) : State :=
  s.forN n fun p s => s.wr (F.EMI_CURVE_ACT_DAC p) (s.rd (F.EMI_CURVE_DAC p))

theorem State.curveCopied_succ (s : State) (n : Nat) :
    s.curveCopied (n + 1) = (s.curveCopied n).wr (F.EMI_CURVE_ACT_DAC n) ((s.curveCopied n).rd (F.EMI_CURVE_DAC n)) := by
  simp only [State.curveCopied, State.forN, List.range_succ, List.foldl_append, List.foldl_cons, List.foldl_nil]

theorem State.curveCopied_eq (s : State) (n : Nat) : s.curveCopied n = { s with regs := (s.curveCopied n).regs } :=
  State.forN_keep (fun t => t = { s with regs := t.regs }) n _ s rfl fun _ _ _ ht => by
    rw [ht]
    rfl

theorem State.reg_curveCopied (s : State) (n : Nat) {a : Nat} (h : a < 0x600800) : (s.curveCopied n).reg a = s.reg a :=
  s.reg_forN n a _ fun p _ t => t.reg_wr_ne _ _ _ (by simp only [F.EMI_CURVE_ACT_DAC, R.EMI_CURVE_ACT]; omega)

theorem State.rd_curveCopied (s : State) {n p : Nat} (hn : n ≤ 256) (hp : p < n) :
    (s.curveCopied n).rd (F.EMI_CURVE_ACT_DAC p) = s.rd (F.EMI_CURVE_DAC p) := by
  induction n with
  | zero => omega
  | succ n ih =>
    have hsource : (s.curveCopied n).rd (F.EMI_CURVE_DAC n) = s.rd (F.EMI_CURVE_DAC n) :=
      congrArg (Word.field · 11 0) (s.reg_curveCopied n (by simp only [F.EMI_CURVE_DAC, R.EMI_CURVE]; omega))
    rw [State.curveCopied_succ, hsource]
    obtain rfl | hlt := Nat.eq_or_lt_of_le (Nat.le_of_lt_succ hp)
    · exact (State.rd_wr_self _ _ _ (by exact (by decide : 11 < 32))).trans (Nat.mod_eq_of_lt (s.rd_lt (F.EMI_CURVE_DAC p)))
    · rw [← ih (by omega) hlt]
      refine State.rd_setReg_ne _ _ _ _ ?_
      simp only [F.EMI_CURVE_ACT_DAC, R.EMI_CURVE_ACT]
      omega

/-- The curve falls after entry `p`. -/
def State.curveFalls (s : State) (p : Nat) : Bool := decide (s.rd (F.EMI_CURVE_DAC (p + 1)) < s.rd (F.EMI_CURVE_DAC p))

/-- The commit no longer pending, the curve and its active copy read as before. -/
theorem State.rd_commitTaken (s : State) (f : Fld) (h : f.addr ≠ R.EMI_STATUS) :
    (s.wr F.EMI_STATUS_COMMIT_PENDING 0).rd f = s.rd f := State.rd_setReg_ne _ _ _ _ h

theorem State.curveDac_addr (p : Nat) : (F.EMI_CURVE_DAC p).addr ≠ R.EMI_STATUS := by
  simp only [F.EMI_CURVE_DAC, R.EMI_CURVE, R.EMI_STATUS]
  omega

theorem State.curveActDac_addr (p : Nat) :
    (F.EMI_CURVE_ACT_DAC p).addr ≠ R.EMI_STATUS ∧ (F.EMI_CURVE_ACT_DAC p).addr ≠ R.EMI_CHG_STATUS := by
  simp only [F.EMI_CURVE_ACT_DAC, R.EMI_CURVE_ACT, R.EMI_STATUS, R.EMI_CHG_STATUS]
  omega

theorem State.curveCopy_eq (s : State) :
    s.curveCopy = match (List.range 255).find? s.curveFalls with
      | some p => (((s.wr F.EMI_STATUS_COMMIT_PENDING 0).wr F.EMI_STATUS_REJ_P p).wr F.EMI_STATUS_REJ_VALID 1).raise 394
      | none => (((s.wr F.EMI_STATUS_COMMIT_PENDING 0).curveCopied 256).wr F.EMI_STATUS_REJ_VALID 0).waitDac := by
  have hfalls : (fun p => decide ((s.wr F.EMI_STATUS_COMMIT_PENDING 0).rd (F.EMI_CURVE_DAC (p + 1)) <
      (s.wr F.EMI_STATUS_COMMIT_PENDING 0).rd (F.EMI_CURVE_DAC p))) = s.curveFalls := by
    funext p
    rw [s.rd_commitTaken _ (State.curveDac_addr _), s.rd_commitTaken _ (State.curveDac_addr _), State.curveFalls]
  rw [State.curveCopy, hfalls]
  rfl

theorem curveCommitCopy_copies {s : State} (hidle : s.running = false) (hpend : s.on F.EMI_STATUS_COMMIT_PENDING = true)
    (hmono : ∀ p : Fin 255, s.rd (F.EMI_CURVE_DAC p) ≤ s.rd (F.EMI_CURVE_DAC (p + 1))) :
    answers .curveCommitCopy s fun t =>
      t.on F.EMI_STATUS_COMMIT_PENDING = false ∧ t.on F.EMI_STATUS_REJ_VALID = false ∧
      (∀ p : Fin 256, t.rd (F.EMI_CURVE_ACT_DAC p) = s.rd (F.EMI_CURVE_DAC p)) ∧ t = { s with regs := t.regs } := by
  have hnone : (List.range 255).find? s.curveFalls = none :=
    List.find?_eq_none.2 fun p hp => by
      rw [State.curveFalls, decide_eq_true_iff, Nat.not_lt]
      exact hmono ⟨p, List.mem_range.1 hp⟩
  refine ⟨_, congrArg Host.Outcome.next (if_pos (by simp [hidle, hpend])), ?_⟩
  rw [State.curveCopy_eq, hnone]
  have htaken : (s.wr F.EMI_STATUS_COMMIT_PENDING 0).on F.EMI_STATUS_COMMIT_PENDING = false := s.on_wr_zero _ (by decide) (by decide)
  have hcopied (p : Fin 256) :
      ((s.wr F.EMI_STATUS_COMMIT_PENDING 0).curveCopied 256).rd (F.EMI_CURVE_ACT_DAC p) = s.rd (F.EMI_CURVE_DAC p) :=
    (State.rd_curveCopied _ (Nat.le_refl _) p.isLt).trans (s.rd_commitTaken _ (State.curveDac_addr _))
  have hstatus : ((s.wr F.EMI_STATUS_COMMIT_PENDING 0).curveCopied 256).on F.EMI_STATUS_COMMIT_PENDING = false := by
    refine (congrArg (fun w : Word => Word.field w 5 5 != 0) (State.reg_curveCopied _ 256 ?_)).trans htaken
    decide
  have hrest := (s.wr F.EMI_STATUS_COMMIT_PENDING 0).curveCopied_eq 256
  generalize (s.wr F.EMI_STATUS_COMMIT_PENDING 0).curveCopied 256 = x at *
  refine ⟨?_, ?_, fun p => ?_, ?_⟩
  · exact (State.on_waitDac _ _ (by decide)).trans ((x.on_wr_apart _ _ _ (by decide)).trans hstatus)
  · exact (State.on_waitDac _ _ (by decide)).trans (x.on_wr_zero _ (by decide) (by decide))
  · obtain ⟨hstat, hchg⟩ := State.curveActDac_addr p
    exact (congrArg (Word.field · 11 0) ((State.reg_waitDac_ne _ hchg).trans (x.reg_wr_ne _ _ _ hstat))).trans (hcopied p)
  · rw [State.waitDac_eq, hrest]
    rfl

theorem curveCommitCopy_rejects {s : State} {p : Fin 255} (hmode : s.mode ≠ mRESET) (hidle : s.running = false)
    (hpend : s.on F.EMI_STATUS_COMMIT_PENDING = true) (hfalls : s.rd (F.EMI_CURVE_DAC (p + 1)) < s.rd (F.EMI_CURVE_DAC p))
    (hmono : ∀ q : Fin 255, q < p → s.rd (F.EMI_CURVE_DAC q) ≤ s.rd (F.EMI_CURVE_DAC (q + 1))) :
    answers .curveCommitCopy s fun t =>
      t.on F.EMI_STATUS_COMMIT_PENDING = false ∧ t.on F.EMI_STATUS_REJ_VALID = true ∧ t.rd F.EMI_STATUS_REJ_P = p ∧
      (∀ q : Fin 256, t.rd (F.EMI_CURVE_ACT_DAC q) = s.rd (F.EMI_CURVE_ACT_DAC q)) ∧ 394 ∈ t.raised := by
  have hfirst : (List.range 255).find? s.curveFalls = some p.val := by
    refine List.find?_range_eq_some.2 ⟨decide_eq_true hfalls, List.mem_range.2 p.isLt, fun q hq => ?_⟩
    rw [State.curveFalls, Bool.not_eq_true', decide_eq_false_iff_not, Nat.not_lt]
    exact hmono ⟨q, hq.trans p.isLt⟩ hq
  refine ⟨_, congrArg Host.Outcome.next (if_pos (by simp [hidle, hpend])), ?_⟩
  rw [State.curveCopy_eq, hfirst]
  have htaken : (s.wr F.EMI_STATUS_COMMIT_PENDING 0).on F.EMI_STATUS_COMMIT_PENDING = false := s.on_wr_zero _ (by decide) (by decide)
  have hact (q : Nat) := s.rd_commitTaken _ (State.curveActDac_addr q).1
  have hmode' : (s.wr F.EMI_STATUS_COMMIT_PENDING 0).mode ≠ mRESET := (s.mode_wr_apart _ _ (by decide)).trans_ne hmode
  generalize s.wr F.EMI_STATUS_COMMIT_PENDING 0 = x at *
  refine ⟨?_, ?_, ?_, fun q => ?_, ?_⟩
  · rw [State.on_raise, State.on_wr_apart _ _ _ _ (by decide), State.on_wr_apart _ _ _ _ (by decide), htaken]
  · exact (State.on_raise ..).trans (State.on_wr_one _ _ (by decide) (by decide))
  · rw [State.rd_raise, State.rd_wr_apart _ _ _ _ (by decide), State.rd_wr_self _ _ _ (by decide)]
    exact Nat.mod_eq_of_lt (p.isLt.trans (by decide))
  · obtain ⟨hstat, -⟩ := State.curveActDac_addr q
    rw [State.rd_raise]
    exact (State.rd_setReg_ne _ _ _ _ hstat).trans ((State.rd_setReg_ne _ _ _ _ hstat).trans (hact q))
  · rw [State.raised_raise _ _ ?_ (by decide)]
    · exact List.mem_append_right _ (List.mem_singleton_self _)
    · rwa [State.mode_wr_apart _ _ _ (by decide), State.mode_wr_apart _ _ _ (by decide)]

/-! ### The seed map -/

theorem execSeedMapWrite_eq (b : Fin 2) (e : Fin 8192) (hi : Bool) (w : Word) {s : State} (hr : s.reaches) :
    execSeedMapWrite b e hi w s = .next (
      if (hi = false ∧ Word.field w 12 0 ≠ 0) ∨ (s.running = true ∧ s.rd F.EMI_STATUS_ACTIVE_BUF = b.val) then s.accessed.raise 3
      else (s.accessed.setReg (0x610000 + 0x10000 * b + 8 * e + 4 * hi.toNat) w).waitDac) := by
  refine congrArg Host.Outcome.next ((State.access_of_reaches hr _).trans ?_)
  rw [State.seedWrite, s.accessed_running, s.rd_count _ _ _ _ _ (by decide)]
  simp only [Bool.and_eq_true, Bool.not_eq_true', bne_iff_ne, beq_iff_eq, ite_or]
  rfl

/-- An entry with one of its words written; EM_DAC, which may follow, is no part of it. -/
theorem State.seedEntry_written (s : State) (b : Fin 2) (e : Fin 8192) (hi : Bool) (w : Word) :
    ((s.setReg (0x610000 + 0x10000 * b + 8 * e + 4 * hi.toNat) w).waitDac).seedEntry b e =
      if hi then s.seedEntry b e % 2 ^ 32 + w.toNat * 2 ^ 32 else s.seedEntry b e / 2 ^ 32 * 2 ^ 32 + w.toNat := by
  have hbase : 0x610000 ≤ 0x610000 + 0x10000 * b.val + 8 * e.val := by omega
  rw [State.seedEntry, State.seedEntry]
  generalize 0x610000 + 0x10000 * b.val + 8 * e.val = a at *
  have hlow := (s.reg a).isLt
  have hdac : a ≠ R.EMI_CHG_STATUS ∧ a + 4 ≠ R.EMI_CHG_STATUS := by
    rw [R.EMI_CHG_STATUS]
    omega
  rw [State.reg_waitDac_ne _ hdac.1, State.reg_waitDac_ne _ hdac.2]
  cases hi with
  | false =>
    simp only [Bool.toNat_false, Nat.mul_zero, Nat.add_zero, State.reg_setReg_self, Bool.false_eq_true, if_false]
    rw [State.reg_setReg_ne _ _ (by simp)]
    omega
  | true =>
    rw [State.reg_setReg_ne _ _ (by simp)]
    simp only [Bool.toNat_true, Nat.mul_one, State.reg_setReg_self, if_true]
    omega

/-! ### Sweep syncs -/

theorem sweepSync_takes {s : State} (u : Nat) (h : (s.helmNow u).hlm.syncs ≠ 0) :
    answers (.sweepSync u) s fun t =>
      let h := s.helmNow u
      t.hlm.syncs = h.hlm.syncs - 1 ∧
      t.hlm.step = (if h.tl = 2 then (h.hlm.step + 1) % s.rd F.HLM_TILT_CFG_STEPS else h.hlm.step) ∧
      t.emi.swapReq = (h.emi.swapReq || h.running) := by
  refine ⟨_, congrArg Host.Outcome.next (if_neg h), ?_⟩
  have hsteps : (s.helmNow u).rd F.HLM_TILT_CFG_STEPS = s.rd F.HLM_TILT_CFG_STEPS := (s.helmNow_fr u).rd _ (by decide)
  have hrest (x : State) : ((x.capEvent 4 u).snapOn 3 u).hlm = x.hlm ∧ ((x.capEvent 4 u).snapOn 3 u).emi = x.emi :=
    ⟨((State.snapOn_fr ..).same .hlm (by decide)).trans ((State.capEvent_fr ..).same .hlm (by decide)),
      ((State.snapOn_fr ..).emi (by decide)).trans ((State.capEvent_fr ..).emi (by decide))⟩
  simp only [hrest, hsteps]
  generalize s.helmNow u = x at *
  have hrunning (f : Hlm → Hlm) : (x.hl f).running = x.running := rfl
  rw [hrunning]
  cases x.running with
  | false => exact ⟨rfl, rfl, (Bool.or_false _).symm⟩
  | true => exact ⟨rfl, rfl, (Bool.or_true _).symm⟩

/-! ### The obligation -/

/-- Settles O37: each command by the lemma above that says what it does where its conditions hold; where they do not, it is refused or
changes nothing. -/
theorem emitterTestCurveAndMap : Obligations.EmitterTestCurveAndMap := by
  refine ⟨fun s hr hrun hst hcmd => ?starts, fun s hr hrun hst hcmd => ?joins,
    fun s hr h => ⟨_, (execShortTest_eq hr).trans (congrArg Host.Outcome.next (if_pos h)), rfl⟩,
    fun s => lineTestStep_first, fun s => lineTestStep_row, fun s => lineTestStep_column,
    fun s sense h => ⟨_, (execLineTestStep_eq sense s).trans (congrArg Host.Outcome.next (if_pos h)), rfl⟩,
    fun s => lineTestPassEnd_ends, fun s h => ?noPass, fun s r w => lineFaultClear_clears r w,
    fun s hr => ⟨_, congrArg Host.Outcome.next (State.access_of_reaches hr _), rfl⟩,
    fun s => curveCommitCopy_copies, fun s p => curveCommitCopy_rejects, fun s h => ?noCommit,
    fun s b e hi w hr hbits hbuf => ?writes,
    fun s b e hi w hr h => ⟨_, (execSeedMapWrite_eq b e hi w hr).trans (congrArg Host.Outcome.next (if_pos h)), rfl⟩,
    fun s u => sweepSync_takes u, fun s u h => ⟨_, congrArg Host.Outcome.next (if_pos h), rfl⟩⟩
  case starts =>
    refine ⟨_, execShortTest_eq hr, ?_⟩
    rw [if_neg (by simp [hrun, hst]), if_neg (by simp [hcmd])]
  case joins =>
    refine ⟨_, execShortTest_eq hr, ?_⟩
    rw [if_neg (by simp [hrun, hst]), if_pos hcmd]
  case noPass =>
    have hended : ¬(s.emi.testCmd && s.emi.testStep == 35) = true := by
      rw [Bool.and_eq_true, beq_iff_eq, not_and_or, Bool.not_eq_true]
      exact h
    exact ⟨s, congrArg Host.Outcome.next (if_neg hended), rfl⟩
  case noCommit =>
    refine ⟨s, congrArg Host.Outcome.next (if_neg ?_), rfl⟩
    obtain h | h := h <;> simp [h]
  case writes =>
    have hallowed : ¬((hi = false ∧ Word.field w 12 0 ≠ 0) ∨ (s.running = true ∧ s.rd F.EMI_STATUS_ACTIVE_BUF = b.val)) := by
      rw [not_or, not_and_or, not_and_or, not_not, Bool.not_eq_false, Bool.not_eq_true]
      exact ⟨hbits, hbuf⟩
    refine ⟨_, (execSeedMapWrite_eq b e hi w hr).trans (congrArg Host.Outcome.next (if_neg hallowed)), ?_⟩
    have hentry : s.accessed.seedEntry b e = s.seedEntry b e := by
      rw [State.seedEntry, s.reg_count _ _ _ _ _ (obsSat_of_lt (by omega)), s.reg_count _ _ _ _ _ (obsSat_of_lt (by omega)),
        State.seedEntry]
    exact ⟨hentry ▸ State.seedEntry_written s.accessed b e hi w, State.waitDac_eq _⟩

end Sys2Proof.Machine
end

section
/-! An encoder of more lines than its count has codes for (Table HL-8), which refutes the statement on the helm's tick and encoder. -/

namespace Sys2Proof.Machine

/-- STANDBY with 32,767 encoder lines, a reserved code of CPR, so that the count runs modulo 131,068; the 16 bits of COUNT read 65,535,
and both levels of the encoder are low. -/
def countAtFieldEnd : State :=
  ((State.reset.wr F.SYS_MODE_MODE mSTANDBY).wr F.HLM_ENC_CFG_CPR 32767).wr F.HLM_ENC_COUNT_COUNT 65535

theorem countAtFieldEnd_mode : countAtFieldEnd.mode = mSTANDBY :=
  (State.mode_wr_apart _ _ _ (by decide)).trans ((State.mode_wr_apart _ _ _ (by decide)).trans (State.rd_wr_self _ _ _ (by decide)))

theorem countAtFieldEnd_count : countAtFieldEnd.rd F.HLM_ENC_COUNT_COUNT = 65535 := State.rd_wr_self _ _ _ (by decide)

theorem countAtFieldEnd_counts : countAtFieldEnd.counts = 131068 :=
  congrArg (4 * ·) ((State.rd_wr_apart _ _ _ _ (by decide)).trans (State.rd_wr_self _ _ _ (by decide)))

/-- Refutes O39: the clause on a legal transition has COUNT one higher modulo 4 CPR for every CPR, but COUNT has 16 bits, and with a
reserved CPR the next count, 65,536, is beyond them. -/
theorem not_helmTickAndEncoder : ¬ Obligations.HelmTickAndEncoder := by
  rintro ⟨-, -, -, htransition, -⟩
  obtain ⟨t, -, -, -, -, -, -, -, -, hcount⟩ :=
    htransition countAtFieldEnd true false 0 1 (countAtFieldEnd_mode.trans_ne (by decide)) rfl (.inl rfl)
  rw [if_pos rfl, countAtFieldEnd_count, countAtFieldEnd_counts] at hcount
  exact absurd hcount (t.rd_lt F.HLM_ENC_COUNT_COUNT).ne

end Sys2Proof.Machine
end

section
/-! The rules of the helm's operations (chapter 08): what the tilt and the trace leave of the spindle, what SP_STATE and TL_STATE read, and how
the spindle is released, starts, faults, brakes and follows the run condition. -/

namespace Sys2Proof.Machine

-- A check of a frame's mask walks the list of all areas.
set_option maxRecDepth 4000

/-! ### What the tilt and the trace leave of the spindle -/

/-- The helm's record without the tilt's part, the trace's, and the pads. -/
def Hlm.drive (h : Hlm) : Hlm :=
  { h with step := 0, uTl := 0, trackRun := 0, shadow := [], pins := [], trLast := 0, trDec := 0, trN := 0, trLeft := none, trPrev := 0 }

/-- All six pins of the spindle are low. -/
abbrev Hlm.spLow (h : Hlm) : Prop := h.pins.take 6 = [0, 0, 0, 0, 0, 0]

/-- From `s` to `t` the helm's record changes in the tilt's part, the trace's and the pads alone, pins of the spindle that are low stay low,
and no event that waits is lost. -/
abbrev Trails (s t : State) : Prop :=
  t.hlm.drive = s.hlm.drive ∧ (s.hlm.spLow → t.hlm.spLow) ∧ Told s t

theorem Trails.drive {s t : State} (h : Trails s t) : t.hlm.drive = s.hlm.drive := h.left

theorem Trails.low {s t : State} (h : Trails s t) : s.hlm.spLow → t.hlm.spLow := h.right.left

theorem Trails.told {s t : State} (h : Trails s t) : Told s t := h.right.right

theorem Trails.refl (s : State) : Trails s s := ⟨rfl, id, .of_raises rfl⟩

theorem Trails.trans {s t u : State} (h : Trails s t) (k : Trails t u) : Trails s u :=
  ⟨k.drive.trans h.drive, k.low ∘ h.low, h.told.trans k.told⟩

/-- What does not look at those parts answers the same. -/
theorem Trails.same {α : Type} {s t : State} (h : Trails s t) (g : Hlm → α) (hg : ∀ x : Hlm, g x.drive = g x) : g t.hlm = g s.hlm :=
  (hg _).symm.trans ((congrArg g h.drive).trans (hg _))

theorem Trails.ite {s a b : State} {c : Prop} [Decidable c] (ha : Trails s a) (hb : Trails s b) : Trails s (if c then a else b) := by
  split <;> assumption

/-- A change of the helm's record in those parts, which leaves the pins. -/
theorem Trails.hl (s : State) (f : Hlm → Hlm) (hdrive : (f s.hlm).drive = s.hlm.drive) (hpins : (f s.hlm).pins = s.hlm.pins) :
    Trails s (s.hl f) := by
  refine ⟨hdrive, fun h => ?_, .of_raises rfl⟩
  rw [State.hl_hlm, Hlm.spLow, hpins]
  exact h

theorem Trails.wr (s : State) (f : Fld) (v : Nat) : Trails s (s.wr f v) := ⟨rfl, id, .of_raises rfl⟩

/-- An event raised outside RESET waits for delivery. -/
theorem State.mem_raised_raise {s : State} {e : Nat} (hmode : s.mode ≠ mRESET) (he : reservedEvent e = false) :
    e ∈ (s.raise e).raised := by
  rw [s.raised_raise e hmode he]
  exact List.mem_append_right _ (List.mem_singleton_self _)

theorem Trails.raise (s : State) (e : Nat) : Trails s (s.raise e) := by
  refine ⟨by rw [State.raise_hlm], fun h => ?_, .raise (.of_raises rfl)⟩
  rw [State.raise_hlm]
  exact h

theorem State.setTl_trails (s : State) (v : Nat) : Trails s (s.setTl v) := by
  have hstep : Trails s (if v = 2 ∧ s.tl ≠ 2 then s.hl fun h => { h with step := 0 } else s) := .ite (.hl _ _ rfl rfl) (.refl s)
  have hshown := hstep.trans (.wr _ F.HLM_STATUS_TL_STATE v)
  refine .ite (hshown.trans ⟨rfl, fun h => ?_, .of_raises rfl⟩) hshown
  rw [State.hl_hlm, Hlm.spLow, h]
  rfl

theorem State.tiltFollow_trails (s : State) : Trails s s.tiltFollow := .ite (.refl s) (s.setTl_trails _)

theorem State.setSp_trails (s : State) (v : Nat) : Trails s (s.setSp v) := (Trails.wr s _ v).trans (State.tiltFollow_trails _)

theorem State.traceTrigger_trails (s : State) : Trails s s.traceTrigger := .ite (.hl _ _ rfl rfl) (.refl s)

theorem State.traceRecord_trails (s : State) : Trails s s.traceRecord := by
  unfold State.traceRecord
  extract_lets i x y z
  have hbuf : Trails s x := State.forN_keep (Trails s) 8 _ s (.refl s) fun _ _ _ h => h.trans ⟨rfl, id, .of_raises rfl⟩
  have hcount : Trails s y := hbuf.trans (.hl _ _ rfl rfl)
  have holdest : Trails s z := hcount.trans (.wr ..)
  exact .ite (holdest.trans (((Trails.wr ..).trans (.wr ..)).trans (.raise ..))) holdest

theorem State.tickEnd_trails (s : State) : Trails s s.tickEnd := by
  unfold State.tickEnd
  extract_lets now last x trig y v p lv cross z
  have hlast : Trails s x := .hl _ _ rfl rfl
  have hstate : Trails s y := .ite (hlast.trans x.traceTrigger_trails) hlast
  have hcross : Trails s z := .ite (hstate.trans y.traceTrigger_trails) hstate
  exact .ite hlast (.ite (hstate.trans (.hl _ _ rfl rfl)) ((hcross.trans (.hl _ _ rfl rfl)).trans (State.traceRecord_trails _)))

theorem State.tickDone_trails (s : State) : Trails s s.tickDone := .ite (.refl s) s.tickEnd_trails

/-! ### SP_STATE and TL_STATE -/

/-- What TL_STATE follows SP_STATE to (R243). -/
def tiltOf (p : Nat) : Nat := if p = hSPIN_UP ∨ p = hLOCKING ∨ p = hLOCKED then 2 else if p = hCATCH ∨ p = hBRAKING then 1 else 0

theorem tiltOf_lt (p : Nat) : tiltOf p < 3 := by
  unfold tiltOf
  split_ifs <;> decide

theorem State.setTl_tl (s : State) {v : Nat} (h : v < 4) : (s.setTl v).tl = v := by
  unfold State.setTl
  extract_lets x y
  have hshown : y.tl = v := (x.rd_wr_self _ _ (by decide)).trans (Nat.mod_eq_of_lt h)
  split
  · exact hshown
  · exact hshown

theorem State.setTl_sp (s : State) (v : Nat) : (s.setTl v).sp = s.sp := (s.setTl_fr v).rd _ (by decide)

theorem State.tiltFollow_sp (s : State) : s.tiltFollow.sp = s.sp := s.tiltFollow_fr.rd _ (by decide)

theorem State.tiltFollow_tl (s : State) : s.tiltFollow.tl = if s.tl = 3 then 3 else tiltOf s.sp := by
  unfold State.tiltFollow
  split
  · next h => exact h
  · exact s.setTl_tl (Nat.lt_succ_of_lt (tiltOf_lt _))

theorem State.setSp_sp (s : State) {v : Nat} (h : v < 8) : (s.setSp v).sp = v :=
  (State.tiltFollow_sp _).trans ((s.rd_wr_self _ _ (by decide)).trans (Nat.mod_eq_of_lt h))

theorem State.setSp_tl (s : State) {v : Nat} (h : v < 8) : (s.setSp v).tl = if s.tl = 3 then 3 else tiltOf v := by
  have hsp : (s.wr F.HLM_STATUS_SP_STATE v).sp = v := (s.rd_wr_self _ _ (by decide)).trans (Nat.mod_eq_of_lt h)
  have htl : (s.wr F.HLM_STATUS_SP_STATE v).tl = s.tl := s.rd_wr_apart _ _ _ (by decide)
  rw [State.setSp, State.tiltFollow_tl, hsp, htl]

/-! ### Released outputs, SPIN_UP and CATCH -/

/-- The outputs of the spindle are released: no law drives, and no sample waits (R233). -/
def Hlm.released (h : Hlm) : Prop := h.law = none ∧ h.ySp = 0 ∧ h.uSp = 0 ∧ h.spLow ∧ h.waitSp = false

theorem Trails.released {s t : State} (h : Trails s t) (hs : s.hlm.released) : t.hlm.released := by
  obtain ⟨hlaw, hy, hu, hlow, hwait⟩ := hs
  exact ⟨(h.same Hlm.law fun _ => rfl).trans hlaw, (h.same Hlm.ySp fun _ => rfl).trans hy, (h.same Hlm.uSp fun _ => rfl).trans hu,
    h.low hlow,
    (h.same Hlm.waitSp fun _ => rfl).trans hwait⟩

theorem State.releaseSp_released (s : State) : s.releaseSp.hlm.released := ⟨rfl, rfl, rfl, rfl, rfl⟩

theorem State.enterCatch_sp (s : State) : s.enterCatch.sp = hCATCH := State.setSp_sp _ (by decide)

theorem State.enterCatch_released (s : State) : s.enterCatch.hlm.released := (State.setSp_trails _ _).released s.releaseSp_released

theorem State.spinUp_sp (s : State) : s.spinUp.sp = hSPIN_UP := State.setSp_sp _ (by decide)

/-- From rest L0 drives from 0. -/
theorem State.spinUp_hlm (s : State) :
    s.spinUp.hlm.law = some 0 ∧ s.spinUp.hlm.wRef = 0 ∧ s.spinUp.hlm.ySp = 0 ∧ s.spinUp.hlm.uSp = s.hlm.uSp ∧
      s.spinUp.hlm.catchBrake = false ∧ (s.hlm.spLow → s.spinUp.hlm.spLow) := by
  have h := (s.hl fun h => { h with wRef := 0, pull := 0, law := some 0, ySp := 0, catchBrake := false }).setSp_trails hSPIN_UP
  exact ⟨h.same Hlm.law fun _ => rfl, h.same Hlm.wRef fun _ => rfl, h.same Hlm.ySp fun _ => rfl, h.same Hlm.uSp fun _ => rfl,
    h.same Hlm.catchBrake fun _ => rfl, h.low⟩

/-! ### The end of a sample that waited -/

theorem State.endsTick_trails (s : State) (waited : Bool) : Trails s (if waited then s.tickDone else s) := .ite s.tickDone_trails (.refl s)

theorem State.endsTick_fr (s : State) (waited : Bool) :
    Fr 0x780000000000000000000000000000000000000001003 s (if waited then s.tickDone else s) := .ite s.tickDone_fr (.refl ..)

/-! ### Faults (R242) -/

/-- HLM_FAULT_CAUSE shows cause `b`, and its event waits for delivery. -/
theorem State.helmCause_spec (s : State) {b e : Nat} (hmode : s.mode ≠ mRESET) (hb : b < 6) (he : reservedEvent e = false) :
    ((s.helmCause b e).rd F.HLM_FAULT_CAUSE_CAUSE).testBit b = true ∧ e ∈ (s.helmCause b e).raised := by
  unfold State.helmCause
  have hset : (s.wr F.HLM_FAULT_CAUSE_CAUSE (withBit (s.rd F.HLM_FAULT_CAUSE_CAUSE) b true)).rd F.HLM_FAULT_CAUSE_CAUSE =
      withBit (s.rd F.HLM_FAULT_CAUSE_CAUSE) b true :=
    (s.rd_wr_self _ _ (by decide)).trans (Nat.mod_eq_of_lt (withBit_true_lt (s.rd_lt _) hb))
  constructor
  · rw [State.rd_raise, hset, withBit_true_eq_or, Nat.testBit_or, Nat.testBit_two_pow_self, Bool.or_true]
  · exact State.mem_raised_raise ((s.mode_wr_apart _ _ (by decide)).trans_ne hmode) he

theorem State.helmCause_trails (s : State) (b e : Nat) : Trails s (s.helmCause b e) := (Trails.wr ..).trans (.raise ..)

/-- The spindle has faulted with cause `b` and event `e`: in FAULT with its outputs released, and no enable pending (R241, R242). -/
def spindleFaulted (b e : Nat) (t : State) : Prop :=
  t.sp = hFAULT ∧ (t.rd F.HLM_FAULT_CAUSE_CAUSE).testBit b = true ∧ e ∈ t.raised ∧ t.hlm.released ∧
    t.on F.HLM_STATUS_PENDING_ENABLE = false ∧ t.on F.SYS_PEND_STATUS_HLM = false

theorem State.spindleFault_spec (s : State) {b e : Nat} (hmode : s.mode ≠ mRESET) (hb : b < 6) (he : reservedEvent e = false) :
    spindleFaulted b e (s.spindleFault b e) ∧ (s.spindleFault b e).hlm.faultLow = s.hlm.faultLow := by
  unfold State.spindleFault
  extract_lets waited x y
  have hrel : x.hlm.released := State.releaseSp_released _
  have hlow : x.hlm.faultLow = s.hlm.faultLow := rfl
  obtain ⟨hown, hsys⟩ := s.dropPend_spec F.HLM_STATUS_PENDING_ENABLE F.SYS_PEND_STATUS_HLM (by decide)
  have hrelfr := (s.dropPend F.HLM_STATUS_PENDING_ENABLE F.SYS_PEND_STATUS_HLM).releaseSp_fr
  have hxmode : x.mode = s.mode := (hrelfr.mode (by decide)).trans
    ((State.mode_wr_apart _ _ _ (by decide)).trans (s.mode_wr_apart _ _ (by decide)))
  have hxown := (hrelfr.on _ (by decide)).trans hown
  have hxsys := (hrelfr.on _ (by decide)).trans hsys
  have hfr := (x.setSp hFAULT).helmCause_fr b e
  have hspfr := x.setSp_fr hFAULT
  obtain ⟨hcause, htold⟩ := (x.setSp hFAULT).helmCause_spec ((hspfr.mode (by decide)).trans_ne (hxmode.trans_ne hmode)) hb he
  have htrails : Trails x y := (x.setSp_trails hFAULT).trans (State.helmCause_trails ..)
  have hend := y.endsTick_fr waited
  have hendt := htrails.trans (y.endsTick_trails waited)
  refine ⟨⟨?_, ?_, (y.endsTick_trails waited).told.mem htold, hendt.released hrel, ?_, ?_⟩,
    (hendt.same Hlm.faultLow fun _ => rfl).trans hlow⟩
  · exact (hend.rd _ (by decide)).trans ((hfr.rd _ (by decide)).trans (x.setSp_sp (by decide)))
  · rw [hend.rd _ (by decide)]
    exact hcause
  · exact (hend.on _ (by decide)).trans ((hfr.on _ (by decide)).trans ((hspfr.on _ (by decide)).trans hxown))
  · exact (hend.on _ (by decide)).trans ((hfr.on _ (by decide)).trans ((hspfr.on _ (by decide)).trans hxsys))

/-! ### What an access leaves to the helm -/

/-- The helm's registers are reached in every mode but RESET: the management PLL, from which its clock comes, runs (R26, R27). -/
theorem State.access_helm {s : State} (h : s.mode ≠ mRESET) (f : State → State) : s.access false f = f s.accessed := if_neg h

theorem State.accessed_hlm (s : State) : s.accessed.hlm = s.hlm := (s.count_fr 0 2 0 1).same .hlm (by decide)

theorem State.accessed_sys (s : State) : s.accessed.sys = s.sys := (s.count_fr 0 2 0 1).same .sys (by decide)

theorem State.accessed_sp (s : State) : s.accessed.sp = s.sp := s.rd_count _ _ _ _ _ (by decide)

theorem State.accessed_tl (s : State) : s.accessed.tl = s.tl := s.rd_count _ _ _ _ _ (by decide)

/-! ### The run condition (R235) -/

theorem State.helmRuns_congr {s t : State} (hen : t.on F.HLM_CTRL_EN = s.on F.HLM_CTRL_EN) (hmode : t.mode = s.mode)
    (hsys : t.sys = s.sys) : t.helmRuns = s.helmRuns := by
  rw [State.helmRuns, hen, hmode, hsys, State.helmRuns]

theorem State.helmRuns_of_disabled {s : State} (h : s.on F.HLM_CTRL_EN = false) : s.helmRuns = false := by
  rw [State.helmRuns, h, Bool.false_and]

theorem State.accessed_helmRuns (s : State) : s.accessed.helmRuns = s.helmRuns :=
  State.helmRuns_congr (s.on_accessed _ (by decide)) s.accessed_mode s.accessed_sys

/-- An edge was counted within the 50 ms before instant `t`. -/
abbrev State.edgeNear (s : State) (t : Nat) : Prop := s.hlm.lastEdge ≠ 0 ∧ t < s.hlm.lastEdge - 1 + 50000000000

/-! ### Braking (R235, R241) -/

/-- Braking leaves a spindle that is not driven, and one that brakes already; any other enters BRAKING. -/
theorem State.brake_cases (s : State) :
    ((s.sp = hOFF ∨ s.sp = hFAULT ∨ s.sp = hBRAKING) ∧ s.brake false = s) ∨
    (¬(s.sp = hOFF ∨ s.sp = hFAULT ∨ s.sp = hBRAKING) ∧ ∃ (x : State) (waited : Bool), x.tl = s.tl ∧
      s.brake false = if waited then (x.setSp hBRAKING).tickDone else x.setSp hBRAKING) := by
  unfold State.brake
  extract_lets p x waited y z w
  split
  · next h => exact .inl ⟨h.elim .inl (.inr ∘ .inl), rfl⟩
  · next hidle =>
    rw [show x = s from rfl]
    split
    · next h => exact .inl ⟨.inr (.inr h), rfl⟩
    · next hbraking =>
      refine .inr ⟨fun h => h.elim (hidle ∘ .inl) fun h => h.elim (hidle ∘ .inr) hbraking, _, waited, ?_, rfl⟩
      have hz : z.tl = s.tl := by
        unfold z
        split
        · exact (State.handover_fr ..).rd _ (by decide)
        · split
          · exact (State.handover_fr ..).rd _ (by decide)
          · rfl
      exact hz

theorem State.brake_sp (s : State) : (s.brake false).sp = if s.sp = hOFF ∨ s.sp = hFAULT then s.sp else hBRAKING := by
  obtain ⟨hstays, heq⟩ | ⟨hdriven, x, waited, -, heq⟩ := s.brake_cases
  · rw [heq]
    split
    · rfl
    · next hidle => exact (hstays.resolve_left (hidle ∘ .inl)).resolve_left (hidle ∘ .inr)
  · rw [if_neg (c := s.sp = hOFF ∨ s.sp = hFAULT) fun h => hdriven (h.imp_right .inl), heq]
    exact ((State.endsTick_fr _ waited).rd _ (by decide)).trans (x.setSp_sp (by decide))

/-! ### The tilt stands as the spindle has it stand -/

/-- TL_STATE is FAULT where `fault`, and as SP_STATE has it elsewhere (R243). -/
def State.tiltFits (s : State) (fault : Bool) : Prop := s.tl = if fault then 3 else tiltOf s.sp

theorem State.tiltFits.congr {s t : State} {fault : Bool} (h : s.tiltFits fault) (htl : t.tl = s.tl) (hsp : t.sp = s.sp) :
    t.tiltFits fault := by
  rw [State.tiltFits, htl, hsp]
  exact h

theorem State.tiltFits.setSp {s x : State} {fault : Bool} {v : Nat} (h : s.tiltFits fault) (htl : x.tl = s.tl) (hv : v < 8) :
    (x.setSp v).tiltFits fault := by
  rw [State.tiltFits] at h
  rw [State.tiltFits, x.setSp_tl hv, x.setSp_sp hv, htl, h]
  cases fault with
  | true => rfl
  | false => exact if_neg (tiltOf_lt _).ne

theorem State.tiltFits.brake {s : State} {fault : Bool} (h : s.tiltFits fault) : (s.brake false).tiltFits fault := by
  obtain ⟨-, heq⟩ | ⟨-, x, waited, htl, heq⟩ := s.brake_cases
  · rw [heq]
    exact h
  · rw [heq]
    have hfr := (x.setSp hBRAKING).endsTick_fr waited
    exact (h.setSp htl (by decide)).congr (hfr.rd _ (by decide)) (hfr.rd _ (by decide))

/-! ### The spindle follows the run condition (R235) -/

theorem State.helmStart_off {s : State} (hruns : s.helmRuns = true) (hoff : s.sp = hOFF) (t : Nat) :
    s.helmStart t = if s.edgeNear t then s.enterCatch else s.spinUp := if_pos ⟨hruns, hoff⟩

theorem State.helmSettle_off {s : State} (hruns : s.helmRuns = true) (hoff : s.sp = hOFF) :
    s.helmSettle = if s.edgeNear s.hlm.tickAt then s.enterCatch else s.spinUp := by
  rw [State.helmSettle, if_pos hruns, if_neg (hoff.trans_ne (by decide)), State.helmStart_off hruns hoff]

theorem State.latchPend_fr_helm (s : State) :
    Fr 0x4000000000000000000000000000040000000003 s (s.latchPend F.HLM_STATUS_PENDING_ENABLE F.SYS_PEND_STATUS_HLM) := by
  unfold State.latchPend
  refine .ite (.refl ..) (.call (State.raise_fr ..) ?_ (by decide))
  exact .wr (.wr (.refl ..) (by decide) (.fld .HLM_STATUS_PENDING_ENABLE rfl (by decide))) (by decide)
    (.fld .SYS_PEND_STATUS_HLM rfl (by decide))

theorem State.dropPend_fr_helm (s : State) :
    Fr 0x4000000000000000000000000000040000000001 s (s.dropPend F.HLM_STATUS_PENDING_ENABLE F.SYS_PEND_STATUS_HLM) := by
  unfold State.dropPend
  exact .wr (.wr (.refl ..) (by decide) (.fld .HLM_STATUS_PENDING_ENABLE rfl (by decide))) (by decide)
    (.fld .SYS_PEND_STATUS_HLM rfl (by decide))

/-- Where the run condition does not hold, the spindle is braked; without EN no request stays pending. -/
theorem State.helmSettle_stops {s : State} (h : s.helmRuns = false) :
    s.helmSettle = (((if s.on F.HLM_CTRL_EN then s
      else s.dropPend F.HLM_STATUS_PENDING_ENABLE F.SYS_PEND_STATUS_HLM).brake false).hl fun h => { h with catchBrake := false }) :=
  if_neg (by simp [h])

theorem State.helmSettle_sp (s : State) :
    s.helmSettle.sp = if s.helmRuns then (if s.sp = hOFF then (if s.edgeNear s.hlm.tickAt then hCATCH else hSPIN_UP) else s.sp)
      else if s.sp = hOFF ∨ s.sp = hFAULT then s.sp else hBRAKING := by
  cases hruns : s.helmRuns with
  | true =>
    rw [if_pos rfl]
    split
    · next hoff =>
      rw [State.helmSettle_off hruns hoff]
      split
      · exact s.enterCatch_sp
      · exact s.spinUp_sp
    · next hdriven =>
      rw [State.helmSettle, if_pos hruns]
      split
      · exact s.latchPend_fr_helm.rd _ (by decide)
      · rw [State.helmStart, if_neg fun h => hdriven h.2]
  | false =>
    rw [if_neg Bool.false_ne_true, State.helmSettle_stops hruns]
    have hsp (x : State) (h : x.sp = s.sp) : ((x.brake false).hl fun h => { h with catchBrake := false }).sp =
        if s.sp = hOFF ∨ s.sp = hFAULT then s.sp else hBRAKING := by
      rw [← h]
      exact x.brake_sp
    split
    · exact hsp s rfl
    · exact hsp _ (s.dropPend_fr_helm.rd _ (by decide))

theorem State.tiltFits.helmSettle {s : State} {fault : Bool} (h : s.tiltFits fault) : s.helmSettle.tiltFits fault := by
  cases hruns : s.helmRuns with
  | true =>
    rw [State.helmSettle, if_pos hruns]
    split
    · exact h.congr (s.latchPend_fr_helm.rd _ (by decide)) (s.latchPend_fr_helm.rd _ (by decide))
    · unfold State.helmStart
      split_ifs
      · exact h.setSp (s.releaseSp_fr.rd _ (by decide)) (by decide)
      · exact h.setSp rfl (by decide)
      · exact h
  | false =>
    rw [State.helmSettle_stops hruns]
    have hfits (x : State) (hx : x.tiltFits fault) : ((x.brake false).hl fun h => { h with catchBrake := false }).tiltFits fault := hx.brake
    split
    · exact hfits s h
    · exact hfits _ (h.congr (s.dropPend_fr_helm.rd _ (by decide)) (s.dropPend_fr_helm.rd _ (by decide)))

end Sys2Proof.Machine
end

section
/-! Faults of the spindle and the tilt, and FAULT_CLR (R237, R242, R243). -/

namespace Sys2Proof.Machine

-- A check of a frame's mask walks the list of all areas.
set_option maxRecDepth 4000

/-! ### Faults of the spindle -/

/-- A spindle fault as the statement lists it. -/
theorem State.spindleFault_lists (s : State) {b e : Nat} (hmode : s.mode ≠ mRESET) (hb : b < 6) (he : reservedEvent e = false) :
    let t := s.spindleFault b e
    t.sp = hFAULT ∧ (t.rd F.HLM_FAULT_CAUSE_CAUSE).testBit b = true ∧ e ∈ t.raised ∧
      t.hlm.law = none ∧ t.hlm.ySp = 0 ∧ t.hlm.uSp = 0 ∧ t.hlm.pins.take 6 = [0, 0, 0, 0, 0, 0] ∧ t.hlm.waitSp = false ∧
      t.on F.HLM_STATUS_PENDING_ENABLE = false ∧ t.on F.SYS_PEND_STATUS_HLM = false := by
  obtain ⟨⟨hsp, hcause, htold, ⟨hlaw, hy, hu, hlow, hwait⟩, hown, hsys⟩, -⟩ := s.spindleFault_spec hmode hb he
  exact ⟨hsp, hcause, htold, hlaw, hy, hu, hlow, hwait, hown, hsys⟩

theorem State.setTl_fault_uTl (s : State) : (s.setTl 3).hlm.uTl = 0 := by
  unfold State.setTl
  rw [if_pos (.inr rfl)]
  rfl

/-- The bridge faults the spindle and, with it, the tilt. -/
theorem bridgeFault_faults {s : State} (hmode : s.mode ≠ mRESET) :
    answers .bridgeFault s fun t =>
      t.sp = hFAULT ∧ (t.rd F.HLM_FAULT_CAUSE_CAUSE).testBit 0 = true ∧ 420 ∈ t.raised ∧
      t.hlm.law = none ∧ t.hlm.ySp = 0 ∧ t.hlm.uSp = 0 ∧ t.hlm.pins.take 6 = [0, 0, 0, 0, 0, 0] ∧ t.hlm.waitSp = false ∧
      t.on F.HLM_STATUS_PENDING_ENABLE = false ∧ t.on F.SYS_PEND_STATUS_HLM = false ∧
      t.hlm.faultLow = true ∧ t.tl = 3 ∧ t.hlm.uTl = 0 := by
  refine ⟨((s.hl fun h => { h with faultLow := true }).spindleFault 0 420).setTl 3, congrArg Host.Outcome.next (if_neg hmode), ?_⟩
  obtain ⟨⟨hsp, hcause, htold, hrel, hown, hsys⟩, hlow⟩ :=
    (s.hl fun h => { h with faultLow := true }).spindleFault_spec (b := 0) (e := 420) hmode (by decide) (by decide)
  generalize (s.hl fun h => { h with faultLow := true }).spindleFault 0 420 = x at *
  have hfr := x.setTl_fr 3
  have htr := x.setTl_trails 3
  obtain ⟨hlaw, hy, hu, hpins, hwait⟩ := htr.released hrel
  refine ⟨(x.setTl_sp 3).trans hsp, ?_, htr.told.mem htold, hlaw, hy, hu, hpins, hwait, (hfr.on _ (by decide)).trans hown,
    (hfr.on _ (by decide)).trans hsys, (htr.same Hlm.faultLow fun _ => rfl).trans hlow, x.setTl_tl (by decide), x.setTl_fault_uTl⟩
  rw [hfr.rd _ (by decide)]
  exact hcause

/-! ### Faults of the tilt (R243) -/

theorem State.tiltFault_spec (s : State) {b e : Nat} (hmode : s.mode ≠ mRESET) (hb : b < 6) (he : reservedEvent e = false) :
    let t := (s.setTl 3).helmCause b e
    t.tl = 3 ∧ t.hlm.uTl = 0 ∧ (t.rd F.HLM_FAULT_CAUSE_CAUSE).testBit b = true ∧ e ∈ t.raised ∧ t.sp = s.sp := by
  obtain ⟨hcause, htold⟩ := (s.setTl 3).helmCause_spec (((s.setTl_fr 3).mode (by decide)).trans_ne hmode) hb he
  have hfr := (s.setTl 3).helmCause_fr b e
  have huTl : ((s.setTl 3).helmCause b e).hlm = (s.setTl 3).hlm := by
    rw [State.helmCause, State.raise_hlm]
    rfl
  refine ⟨(hfr.rd _ (by decide)).trans (s.setTl_tl (by decide)), ?_, hcause, htold, (hfr.rd _ (by decide)).trans (s.setTl_sp 3)⟩
  rw [huTl]
  exact s.setTl_fault_uTl

/-! ### FAULT_CLR (R242) -/

/-- The cause that FAULT_CLR leaves: a tilt sense that still fails. -/
abbrev State.causeKept (s : State) : Nat := if (s.rd F.HLM_FAULT_CAUSE_CAUSE).testBit 4 ∧ 4 ≤ s.hlm.tiltBad then 16 else 0

theorem State.causeKept_eq (s : State) : s.causeKept = 16 ∨ s.causeKept = 0 := by
  unfold State.causeKept
  split
  · exact .inl rfl
  · exact .inr rfl

/-- FAULT_CLR with the spindle and the tilt taken out of FAULT, before they follow the run condition. -/
def State.faultsCleared (s : State) : State :=
  let x := s.wr F.HLM_FAULT_CAUSE_CAUSE s.causeKept
  let y := if x.sp = hFAULT then x.wr F.HLM_STATUS_SP_STATE hOFF else x
  (if y.tl = 3 ∧ s.causeKept = 0 then y.wr F.HLM_STATUS_TL_STATE 0 else y).tiltFollow

theorem State.helmFaultClear_eq (s : State) :
    s.helmFaultClear = if (s.rd F.HLM_FAULT_CAUSE_CAUSE).testBit 0 = true ∧ s.hlm.faultLow = true then s.raise 3
      else s.faultsCleared.helmSettle :=
  if_congr (by rw [Bool.and_eq_true]) rfl rfl

/-- The run condition reads no field that the clear of the causes writes. -/
theorem State.helmRuns_wr (s : State) (f : Fld) (v : Nat) (hen : Fld.apart f F.HLM_CTRL_EN = true)
    (hmode : Fld.apart f F.SYS_MODE_MODE = true) : (s.wr f v).helmRuns = s.helmRuns :=
  State.helmRuns_congr (s.on_wr_apart _ _ _ hen) (s.mode_wr_apart _ _ hmode) rfl

/-- What the clear of the causes leaves for the run condition to decide on. -/
theorem State.faultsCleared_spec (s : State) :
    s.faultsCleared.rd F.HLM_FAULT_CAUSE_CAUSE = s.causeKept ∧ s.faultsCleared.sp = (if s.sp = hFAULT then hOFF else s.sp) ∧
      s.faultsCleared.helmRuns = s.helmRuns ∧ Trails s s.faultsCleared ∧
      (s.tl = 3 → s.faultsCleared.tiltFits (s.causeKept == 16)) := by
  unfold State.faultsCleared
  extract_lets x y
  have hx : x.rd F.HLM_FAULT_CAUSE_CAUSE = s.causeKept ∧ x.sp = s.sp ∧ x.tl = s.tl ∧ x.helmRuns = s.helmRuns ∧ Trails s x := by
    refine ⟨(s.rd_wr_self _ _ (by decide)).trans (Nat.mod_eq_of_lt ?_), s.rd_wr_apart _ _ _ (by decide),
      s.rd_wr_apart _ _ _ (by decide), s.helmRuns_wr _ _ (by decide) (by decide), .wr ..⟩
    obtain h | h := s.causeKept_eq <;> rw [h] <;> decide
  clear_value x
  obtain ⟨hxcause, hxsp, hxtl, hxruns, hxtr⟩ := hx
  have hy : y.rd F.HLM_FAULT_CAUSE_CAUSE = s.causeKept ∧ y.sp = (if s.sp = hFAULT then hOFF else s.sp) ∧ y.tl = s.tl ∧
      y.helmRuns = s.helmRuns ∧ Trails s y := by
    unfold y
    rw [hxsp]
    split
    · exact ⟨(x.rd_wr_apart _ _ _ (by decide)).trans hxcause, x.rd_wr_self _ _ (by decide), (x.rd_wr_apart _ _ _ (by decide)).trans hxtl,
        (x.helmRuns_wr _ _ (by decide) (by decide)).trans hxruns, hxtr.trans (.wr ..)⟩
    · exact ⟨hxcause, hxsp, hxtl, hxruns, hxtr⟩
  clear_value y
  obtain ⟨hycause, hysp, hytl, hyruns, hytr⟩ := hy
  have hz : ∀ z, z = (if y.tl = 3 ∧ s.causeKept = 0 then y.wr F.HLM_STATUS_TL_STATE 0 else y) →
      z.rd F.HLM_FAULT_CAUSE_CAUSE = s.causeKept ∧ z.sp = (if s.sp = hFAULT then hOFF else s.sp) ∧
      z.helmRuns = s.helmRuns ∧ Trails s z ∧ (s.tl = 3 → z.tl = if s.causeKept = 0 then 0 else 3) := by
    rintro z rfl
    rw [hytl]
    split
    · next h =>
      refine ⟨(y.rd_wr_apart _ _ _ (by decide)).trans hycause, (y.rd_wr_apart _ _ _ (by decide)).trans hysp,
        (y.helmRuns_wr _ _ (by decide) (by decide)).trans hyruns, hytr.trans (.wr ..), fun _ => ?_⟩
      rw [if_pos h.2]
      exact y.rd_wr_self _ _ (by decide)
    · next h => exact ⟨hycause, hysp, hyruns, hytr, fun htl => by rw [if_neg fun hk => h ⟨htl, hk⟩, hytl, htl]⟩
  obtain ⟨hzcause, hzsp, hzruns, hztr, hztl⟩ := hz _ rfl
  generalize (if y.tl = 3 ∧ s.causeKept = 0 then y.wr F.HLM_STATUS_TL_STATE 0 else y) = z at *
  have hfr := z.tiltFollow_fr
  refine ⟨(hfr.rd _ (by decide)).trans hzcause, z.tiltFollow_sp.trans hzsp, ?_, hztr.trans z.tiltFollow_trails, fun htl => ?_⟩
  · exact (State.helmRuns_congr (hfr.on _ (by decide)) (hfr.mode (by decide)) (hfr.same .sys (by decide))).trans hzruns
  · rw [State.tiltFits, z.tiltFollow_tl, z.tiltFollow_sp, hztl htl]
    obtain h | h := s.causeKept_eq <;> rw [h] <;> rfl

theorem State.helmFaultClear_spec (s : State) (h : (s.rd F.HLM_FAULT_CAUSE_CAUSE).testBit 0 = false ∨ s.hlm.faultLow = false) :
    let t := s.helmFaultClear
    t.rd F.HLM_FAULT_CAUSE_CAUSE = s.causeKept ∧
      (let x := if s.sp = hFAULT then hOFF else s.sp
       t.sp = if s.helmRuns then (if x = hOFF then (if s.edgeNear s.hlm.tickAt then hCATCH else hSPIN_UP) else x)
         else if x = hOFF then hOFF else hBRAKING) ∧
      (s.tl = 3 → t.tl = if s.causeKept = 16 then 3 else tiltOf t.sp) := by
  intro t
  have ht : t = s.faultsCleared.helmSettle := by
    refine s.helmFaultClear_eq.trans (if_neg ?_)
    rintro ⟨hcause, hlow⟩
    simp [hcause, hlow] at h
  obtain ⟨hcause, hsp, hruns, htr, htl⟩ := s.faultsCleared_spec
  generalize s.faultsCleared = y at *
  have hnear : y.edgeNear y.hlm.tickAt ↔ s.edgeNear s.hlm.tickAt := by
    rw [State.edgeNear, htr.same Hlm.lastEdge fun _ => rfl, htr.same Hlm.tickAt fun _ => rfl]
  rw [ht]
  refine ⟨(y.helmSettle_fr.rd _ (by decide)).trans hcause, ?_, fun h3 => ?_⟩
  · rw [y.helmSettle_sp, hruns, hsp]
    have hx : (if s.sp = hFAULT then hOFF else s.sp) ≠ hFAULT := by
      split
      · decide
      · assumption
    generalize (if s.sp = hFAULT then hOFF else s.sp) = x at *
    simp only [hnear, hx, or_false]
    split_ifs with _ hoff <;> simp [*]
  · have hfits := (htl h3).helmSettle
    rw [State.tiltFits] at hfits
    rw [hfits]
    obtain h | h := s.causeKept_eq <;> rw [h] <;> rfl

theorem State.causeKept_accessed (s : State) : s.accessed.causeKept = s.causeKept := by
  rw [State.causeKept, s.rd_count _ _ _ _ _ (by decide), s.accessed_hlm]

theorem helmFaultClear_clears {s : State} (hmode : s.mode ≠ mRESET)
    (h : (s.rd F.HLM_FAULT_CAUSE_CAUSE).testBit 0 = false ∨ s.hlm.faultLow = false) :
    answers .helmFaultClear s fun t =>
      t.rd F.HLM_FAULT_CAUSE_CAUSE = s.causeKept ∧
      (let x := if s.sp = hFAULT then hOFF else s.sp
       t.sp = if s.helmRuns then (if x = hOFF then (if s.edgeNear s.hlm.tickAt then hCATCH else hSPIN_UP) else x)
         else if x = hOFF then hOFF else hBRAKING) ∧
      (s.tl = 3 → t.tl = if s.causeKept = 16 then 3 else tiltOf t.sp) := by
  refine ⟨s.accessed.helmFaultClear, congrArg Host.Outcome.next (State.access_helm hmode _), ?_⟩
  have hspec := s.accessed.helmFaultClear_spec (by rwa [s.rd_count _ _ _ _ _ (by decide), s.accessed_hlm])
  simp only [s.causeKept_accessed, s.accessed_sp, s.accessed_tl, s.accessed_helmRuns, State.edgeNear, s.accessed_hlm] at hspec
  exact hspec

theorem helmFaultClear_rejects {s : State} (hmode : s.mode ≠ mRESET)
    (h : (s.rd F.HLM_FAULT_CAUSE_CAUSE).testBit 0 = true ∧ s.hlm.faultLow = true) :
    answers .helmFaultClear s fun t => rejected s t := by
  refine ⟨s.accessed.helmFaultClear, congrArg Host.Outcome.next (State.access_helm hmode _), ?_⟩
  exact (State.helmFaultClear_eq _).trans (if_pos (by rwa [s.rd_count _ _ _ _ _ (by decide), s.accessed_hlm]))

/-! ### The obligation -/

/-- Settles O41: each fault by what `spindleFault` and `setTl 3` leave, FAULT_CLR by `helmFaultClear_spec`; a command that finds nothing
it awaits changes nothing. -/
theorem helmFaults : Obligations.HelmFaults := by
  refine ⟨fun s hmode hsp hu => ?stall, fun s h => ?noStall, fun s => bridgeFault_faults, fun s hmode h => ?hall,
    fun s h => ⟨s, congrArg Host.Outcome.next (if_pos h), rfl⟩, fun s hmode h hbit => ?sense, fun s hmode h => ?track,
    fun s h => ⟨s, congrArg Host.Outcome.next (if_pos h), rfl⟩, fun s h => ?noSense,
    fun s h => ⟨s, congrArg Host.Outcome.next (if_pos h), rfl⟩, fun s => helmFaultClear_clears, fun s => helmFaultClear_rejects⟩
  case stall =>
    exact ⟨_, congrArg Host.Outcome.next (if_pos ⟨hsp, hu⟩), s.spindleFault_lists hmode (by decide) (by decide)⟩
  case noStall =>
    refine ⟨s, congrArg Host.Outcome.next (if_neg ?_), rfl⟩
    rintro ⟨hsp, hu⟩
    exact h.elim (fun hno => hsp.elim hno.1 hno.2) fun hlow => absurd hu (Nat.not_le.2 hlow)
  case hall =>
    exact ⟨_, congrArg Host.Outcome.next (if_neg (Nat.not_lt.2 h)), s.spindleFault_lists hmode (by decide) (by decide)⟩
  case sense =>
    refine ⟨_, congrArg Host.Outcome.next (if_neg ?_), s.tiltFault_spec hmode (by decide) (by decide)⟩
    simp [Nat.not_lt.2 h, hbit]
  case track =>
    exact ⟨_, congrArg Host.Outcome.next (if_neg (Nat.not_lt.2 h)), s.tiltFault_spec hmode (by decide) (by decide)⟩
  case noSense =>
    refine ⟨s, congrArg Host.Outcome.next (if_pos (h.imp_right fun hbit => ?_)), rfl⟩
    have hon : s.on F.HLM_FAULT_CAUSE_CAUSE = true := by
      refine bne_iff_ne.2 fun hzero => ?_
      simp [hzero] at hbit
    rw [hon, hbit]
    rfl

end Sys2Proof.Machine
end

section
/-! The spindle's states (R235 to R241): samples of the drive, enable and disable, the speed reference, the catch, lock attempts, unlocks,
and the end of braking. -/

namespace Sys2Proof.Machine

-- A check of a frame's mask walks the list of all areas.
set_option maxRecDepth 4000

/-! ### Samples of the drive (R229, R232, R239) -/

/-- The helm's record without what a sample of the drive changes: the law's histories and outputs, the hand-over, the applied drive. -/
def Hlm.course (h : Hlm) : Hlm :=
  { h.drive with hist := [], skip := false, ho := 0, y0 := 0, y1 := 0, ySp := 0, cog := 0, uSp := 0 }

/-- From `s` to `t` the helm's record changes in what a sample, the tilt or the trace changes alone, and no event that waits is lost. -/
abbrev Samples (s t : State) : Prop := t.hlm.course = s.hlm.course ∧ Told s t

theorem Samples.course {s t : State} (h : Samples s t) : t.hlm.course = s.hlm.course := h.left

theorem Samples.told {s t : State} (h : Samples s t) : Told s t := h.right

theorem Samples.trans {s t u : State} (h : Samples s t) (k : Samples t u) : Samples s u :=
  ⟨k.course.trans h.course, h.told.trans k.told⟩

theorem Samples.ite {s a b : State} {c : Prop} [Decidable c] (ha : Samples s a) (hb : Samples s b) : Samples s (if c then a else b) := by
  split <;> assumption

theorem Trails.samples {s t : State} (h : Trails s t) : Samples s t := ⟨h.same Hlm.course fun _ => rfl, h.told⟩

/-- What does not look at those parts answers the same. -/
theorem Samples.same {α : Type} {s t : State} (h : Samples s t) (g : Hlm → α) (hg : ∀ x : Hlm, g x.course = g x) : g t.hlm = g s.hlm :=
  (hg _).symm.trans ((congrArg g h.course).trans (hg _))

theorem Samples.hl (s : State) (f : Hlm → Hlm) (h : (f s.hlm).course = s.hlm.course) : Samples s (s.hl f) := ⟨h, .of_raises rfl⟩

theorem Told.count {s : State} (g lo inst n : Nat) : Told s (s.count g lo inst n) := by
  have hone (x : State) (k : Nat) : Told x (x.addCounter k n) := .ite (.raise (.of_raises rfl)) (.of_raises rfl)
  have hall (l : List Nat) (x : State) : Told x (l.foldl (fun x k => x.addCounter k n) x) := by
    induction l generalizing x with
    | nil => exact .of_raises rfl
    | cons k r ih => exact (hone x k).trans (ih _)
  exact .ite (hall _ s) (.of_raises rfl)

theorem State.count_samples (s : State) (g lo inst n : Nat) : Samples s (s.count g lo inst n) :=
  ⟨congrArg Hlm.course ((s.count_fr g lo inst n).same .hlm (by decide)), .count ..⟩

theorem State.lawClip_samples (s : State) (l : Nat) (clipped : Bool) : Samples s (s.lawClip l clipped) :=
  .ite ((Trails.wr ..).trans (.raise ..)).samples (Trails.refl s).samples

theorem State.setHist_samples (s : State) (l : Nat) (h : LawHist) : Samples s (s.setHist l h) := .hl s _ rfl

theorem State.runLaw_samples (s : State) (l : Nat) (e off low : Int) (slew : Option (Int × Int)) :
    Samples s (s.runLaw l e off low slew).2 := by
  unfold State.runLaw
  extract_lets m acc y x z
  split
  · split
    · exact s.setHist_samples ..
    · exact (Trails.refl s).samples
  · exact ((s.lawClip_samples l _).trans (State.count_samples ..)).trans (z.setHist_samples ..)

theorem State.commutate_trails (s : State) : Trails s s.commutate := .ite (.refl s) (.hl _ _ rfl rfl)

theorem State.applySp_samples (s : State) (y : Int) : Samples s (s.applySp y) :=
  (Samples.hl s _ rfl).trans (State.commutate_trails _).samples

theorem State.driveSp_samples (s : State) (e low : Int) : Samples s (s.driveSp e low) := by
  unfold State.driveSp
  split
  · exact (Trails.refl s).samples
  · split
    · exact (Samples.hl s _ rfl).trans (State.applySp_samples ..)
    · exact ((s.runLaw_samples ..).trans (.hl _ _ rfl)).trans (State.applySp_samples ..)

/-- The output applied is the law's. -/
theorem State.applySp_ySp (s : State) (y : Int) : (s.applySp y).hlm.ySp = y :=
  (State.commutate_trails _).same Hlm.ySp fun _ => rfl

/-- A hand-over puts its law in force; its histories and the output in force are a sample's. -/
theorem State.handover_samples (s : State) (l : Nat) (u : Int) (skip : Bool) :
    Samples (s.hl fun h => { h with law := some l }) (s.handover l u skip) := ⟨rfl, .of_raises rfl⟩

theorem State.handover_active (s : State) (l : Nat) (u : Int) (skip : Bool) : (s.handover l u skip).on F.HLM_STATUS_HO_ACTIVE = true :=
  (s.setHist l { e := [0, 0, 0], y := [u, u, u] }).on_wr_one _ (by decide) (by decide)

/-- A law that takes over with the output in force. -/
def State.takeOver (s : State) (l : Nat) : State := (s.handover l s.hlm.ySp false).applySp s.hlm.ySp

theorem State.takeOver_fr (s : State) (l : Nat) : Fr 0x8000000000000000000000000000000000001001 s (s.takeOver l) :=
  .call (State.applySp_fr ..) (s.handover_fr ..) (by decide)

theorem State.takeOver_samples (s : State) (l : Nat) : Samples (s.hl fun h => { h with law := some l }) (s.takeOver l) :=
  (s.handover_samples ..).trans (State.applySp_samples ..)

theorem State.takeOver_ySp (s : State) (l : Nat) : (s.takeOver l).hlm.ySp = s.hlm.ySp := State.applySp_ySp ..

theorem State.takeOver_active (s : State) (l : Nat) : (s.takeOver l).on F.HLM_STATUS_HO_ACTIVE = true :=
  ((State.applySp_fr ..).on _ (by decide)).trans (s.handover_active ..)

/-! ### Enable and disable (R235, R241) -/

/-- An enable during braking is pending; the first latch shows and tells it (R41). -/
theorem State.latchPend_helm_spec (s : State) (hmode : s.mode ≠ mRESET) :
    let t := s.latchPend F.HLM_STATUS_PENDING_ENABLE F.SYS_PEND_STATUS_HLM
    t.on F.HLM_STATUS_PENDING_ENABLE = true ∧
      (s.on F.HLM_STATUS_PENDING_ENABLE = false → t.on F.SYS_PEND_STATUS_HLM = true ∧ 6 ∈ t.raised) ∧
      t = { s with regs := t.regs, raises := t.raises } := by
  unfold State.latchPend
  split
  · next hpend => exact ⟨hpend, fun hfree => absurd (hpend.symm.trans hfree) (by decide), rfl⟩
  · refine ⟨?_, fun _ => ⟨?_, ?_⟩, ?_⟩
    · rw [State.on_raise, State.on_wr_apart _ _ _ _ (by decide)]
      exact s.on_wr_one _ (by decide) (by decide)
    · rw [State.on_raise]
      exact State.on_wr_one _ _ (by decide) (by decide)
    · refine State.mem_raised_raise ?_ (by decide)
      rwa [State.mode_wr_apart _ _ _ (by decide), State.mode_wr_apart _ _ _ (by decide)]
    · rw [State.raise_eq]
      rfl

/-- The state in which a register access has set EN. -/
def State.enSet (s : State) : State := s.accessed.wr F.HLM_CTRL_EN 1

theorem State.enSet_spec (s : State) :
    s.enSet.on F.HLM_CTRL_EN = true ∧ s.enSet.sp = s.sp ∧ s.enSet.mode = s.mode ∧ s.enSet.hlm = s.hlm ∧
      s.enSet.on F.HLM_STATUS_PENDING_ENABLE = s.on F.HLM_STATUS_PENDING_ENABLE ∧
      s.enSet.helmRuns = (s.wr F.HLM_CTRL_EN 1).helmRuns := by
  have hen : s.enSet.on F.HLM_CTRL_EN = true := State.on_wr_one _ _ (by decide) (by decide)
  have hmode : s.enSet.mode = s.mode := (State.mode_wr_apart _ _ _ (by decide)).trans s.accessed_mode
  refine ⟨hen, (State.rd_wr_apart _ _ _ _ (by decide)).trans s.accessed_sp, hmode, s.accessed_hlm,
    (State.on_wr_apart _ _ _ _ (by decide)).trans (s.on_accessed _ (by decide)), State.helmRuns_congr ?_ ?_ s.accessed_sys⟩
  · exact hen.trans (s.on_wr_one _ (by decide) (by decide)).symm
  · exact hmode.trans (s.mode_wr_apart _ _ (by decide)).symm

/-- An enable that is taken: pending during braking, else the spindle follows the run condition. -/
theorem execHelmEnable_taken {s : State} (hreset : s.mode ≠ mRESET) (hstop : s.mode ≠ mSAFESTOP) (hen : s.on F.HLM_CTRL_EN = false) :
    execHelmEnable s = .next (if s.sp = hBRAKING then s.enSet.latchPend F.HLM_STATUS_PENDING_ENABLE F.SYS_PEND_STATUS_HLM
      else s.enSet.helmSettle) := by
  refine congrArg Host.Outcome.next ((State.access_helm hreset _).trans ?_)
  rw [State.helmEnable, if_neg (s.accessed_mode.trans_ne hstop), s.on_accessed _ (by decide), hen, if_neg Bool.false_ne_true]
  exact if_congr (by rw [show (s.accessed.wr F.HLM_CTRL_EN 1).sp = s.sp from s.enSet_spec.2.1]) rfl rfl

theorem helmEnable_pends {s : State} (hreset : s.mode ≠ mRESET) (hstop : s.mode ≠ mSAFESTOP) (hen : s.on F.HLM_CTRL_EN = false)
    (hsp : s.sp = hBRAKING) :
    answers .helmEnable s fun t =>
      t.on F.HLM_CTRL_EN = true ∧ t.sp = hBRAKING ∧ t.on F.HLM_STATUS_PENDING_ENABLE = true ∧
      (s.on F.HLM_STATUS_PENDING_ENABLE = false → t.on F.SYS_PEND_STATUS_HLM = true ∧ 6 ∈ t.raised) ∧
      t = { s.accessed with regs := t.regs, raises := t.raises } := by
  refine ⟨_, (execHelmEnable_taken hreset hstop hen).trans (congrArg Host.Outcome.next (if_pos hsp)), ?_⟩
  obtain ⟨hon, hsp', hmode, -, hfree, -⟩ := s.enSet_spec
  obtain ⟨hpend, hfirst, heq⟩ := s.enSet.latchPend_helm_spec (hmode.trans_ne hreset)
  have hfr := s.enSet.latchPend_fr_helm
  exact ⟨(hfr.on _ (by decide)).trans hon, (hfr.rd _ (by decide)).trans (hsp'.trans hsp), hpend, hfree ▸ hfirst, heq⟩

theorem helmEnable_starts {s : State} (hreset : s.mode ≠ mRESET) (hstop : s.mode ≠ mSAFESTOP) (hen : s.on F.HLM_CTRL_EN = false)
    (hsp : s.sp = hOFF) :
    answers .helmEnable s fun t =>
      t.on F.HLM_CTRL_EN = true ∧
      (t.sp = if (s.wr F.HLM_CTRL_EN 1).helmRuns then (if s.edgeNear s.hlm.tickAt then hCATCH else hSPIN_UP) else hOFF) ∧
      (t.sp = hSPIN_UP → t.hlm.law = some 0 ∧ t.hlm.wRef = 0 ∧ t.hlm.ySp = 0) ∧
      (t.sp = hCATCH → t.hlm.released) := by
  refine ⟨_, (execHelmEnable_taken hreset hstop hen).trans (congrArg Host.Outcome.next (if_neg (hsp.trans_ne (by decide)))), ?_⟩
  obtain ⟨hon, hsp', -, hhlm, -, hruns⟩ := s.enSet_spec
  have hnear : s.enSet.edgeNear s.enSet.hlm.tickAt ↔ s.edgeNear s.hlm.tickAt := by
    unfold State.edgeNear
    rw [hhlm]
  have hen' : s.enSet.helmSettle.on F.HLM_CTRL_EN = true := (s.enSet.helmSettle_fr.on _ (by decide)).trans hon
  have hoff : s.enSet.sp = hOFF := hsp'.trans hsp
  have hnext := s.enSet.helmSettle_sp
  simp only [hoff, true_or, if_true, hnear] at hnext
  refine ⟨hen', hruns ▸ hnext, ?_⟩
  generalize s.enSet = x at *
  cases hx : x.helmRuns with
  | true =>
    rw [State.helmSettle_off hx hoff]
    split
    · exact ⟨fun h => absurd (x.enterCatch_sp.symm.trans h) (by decide), fun _ => x.enterCatch_released⟩
    · obtain ⟨hlaw, hw, hy, -⟩ := x.spinUp_hlm
      exact ⟨fun _ => ⟨hlaw, hw, hy⟩, fun h => absurd (x.spinUp_sp.symm.trans h) (by decide)⟩
  | false =>
    rw [hx, if_neg Bool.false_ne_true] at hnext
    exact ⟨fun h => absurd (hnext.symm.trans h) (by decide), fun h => absurd (hnext.symm.trans h) (by decide)⟩

theorem helmEnable_driven {s : State} (hreset : s.mode ≠ mRESET) (hstop : s.mode ≠ mSAFESTOP) (hen : s.on F.HLM_CTRL_EN = false)
    (hsp : s.sp ≠ hOFF ∧ s.sp ≠ hBRAKING) :
    answers .helmEnable s fun t =>
      t.on F.HLM_CTRL_EN = true ∧
      (t.sp = if (s.wr F.HLM_CTRL_EN 1).helmRuns = true ∨ s.sp = hFAULT then s.sp else hBRAKING) := by
  refine ⟨_, (execHelmEnable_taken hreset hstop hen).trans (congrArg Host.Outcome.next (if_neg hsp.2)), ?_⟩
  obtain ⟨hon, hsp', -, -, -, hruns⟩ := s.enSet_spec
  refine ⟨(s.enSet.helmSettle_fr.on _ (by decide)).trans hon, ?_⟩
  rw [s.enSet.helmSettle_sp, hruns, hsp', if_neg hsp.1]
  simp only [hsp.1, false_or]
  cases (s.wr F.HLM_CTRL_EN 1).helmRuns <;> simp

theorem helmEnable_rejects {s : State} (h : s.mode = mSAFESTOP) : answers .helmEnable s fun t => rejected s t :=
  ⟨_, congrArg Host.Outcome.next (State.access_helm (h.trans_ne (by decide)) _), if_pos (s.accessed_mode.trans h)⟩

theorem helmEnable_on {s : State} (hreset : s.mode ≠ mRESET) (hstop : s.mode ≠ mSAFESTOP) (hen : s.on F.HLM_CTRL_EN = true) :
    answers .helmEnable s fun t => t = s.accessed := by
  refine ⟨_, congrArg Host.Outcome.next (State.access_helm hreset _), ?_⟩
  rw [State.helmEnable, if_neg (s.accessed_mode.trans_ne hstop), if_pos ((s.on_accessed _ (by decide)).trans hen)]

theorem helmDisable_brakes {s : State} (hreset : s.mode ≠ mRESET) (hen : s.on F.HLM_CTRL_EN = true) :
    answers .helmDisable s fun t =>
      t.on F.HLM_CTRL_EN = false ∧
      t.on F.HLM_STATUS_PENDING_ENABLE = false ∧ t.on F.SYS_PEND_STATUS_HLM = false ∧
      (t.sp = if s.sp = hOFF then hOFF else if s.sp = hFAULT then hFAULT else hBRAKING) ∧
      t.hlm.catchBrake = false := by
  refine ⟨(s.accessed.wr F.HLM_CTRL_EN 0).helmSettle, congrArg Host.Outcome.next ((State.access_helm hreset _).trans
    (if_pos ((s.on_accessed _ (by decide)).trans hen))), ?_⟩
  have hoff : (s.accessed.wr F.HLM_CTRL_EN 0).on F.HLM_CTRL_EN = false := State.on_wr_zero _ _ (by decide) (by decide)
  have hsp : (s.accessed.wr F.HLM_CTRL_EN 0).sp = s.sp := (State.rd_wr_apart _ _ _ _ (by decide)).trans s.accessed_sp
  generalize s.accessed.wr F.HLM_CTRL_EN 0 = x at *
  have hruns := State.helmRuns_of_disabled hoff
  have hnext := x.helmSettle_sp
  have hstops := State.helmSettle_stops hruns
  rw [hoff, if_neg Bool.false_ne_true] at hstops
  obtain ⟨hown, hsys⟩ := x.dropPend_spec F.HLM_STATUS_PENDING_ENABLE F.SYS_PEND_STATUS_HLM (by decide)
  have hfr := (x.dropPend F.HLM_STATUS_PENDING_ENABLE F.SYS_PEND_STATUS_HLM).brake_fr false
  refine ⟨(x.helmSettle_fr.on _ (by decide)).trans hoff, ?_, ?_, ?_, ?_⟩
  · rw [hstops]
    exact (hfr.on _ (by decide)).trans hown
  · rw [hstops]
    exact (hfr.on _ (by decide)).trans hsys
  · rw [hnext, hruns, hsp, if_neg Bool.false_ne_true]
    by_cases hoffState : s.sp = hOFF
    · rw [if_pos (.inl hoffState), if_pos hoffState, hoffState]
    · by_cases hfaultState : s.sp = hFAULT
      · rw [if_pos (.inr hfaultState), if_neg hoffState, if_pos hfaultState, hfaultState]
      · rw [if_neg (not_or.mpr ⟨hoffState, hfaultState⟩), if_neg hoffState, if_neg hfaultState]
  · rw [hstops]
    rfl

theorem helmDisable_off {s : State} (hreset : s.mode ≠ mRESET) (hen : s.on F.HLM_CTRL_EN = false) :
    answers .helmDisable s fun t => t = s.accessed :=
  ⟨_, congrArg Host.Outcome.next (State.access_helm hreset _), if_neg (by rw [s.on_accessed _ (by decide), hen]; decide)⟩

/-! ### The speed reference (R237) -/

theorem speedRefWrite_rejects {s : State} (w : Word) (hreset : s.mode ≠ mRESET) (h : s.rd F.HLM_SP_LIM_MAX < w.toNat) :
    answers (.speedRefWrite w) s fun t => rejected s t :=
  ⟨_, congrArg Host.Outcome.next (State.access_helm hreset _), if_pos (by rwa [s.rd_count _ _ _ _ _ (by decide)])⟩

theorem speedRefWrite_takes {s : State} (w : Word) (hreset : s.mode ≠ mRESET) (h : w.toNat ≤ s.rd F.HLM_SP_LIM_MAX) :
    answers (.speedRefWrite w) s fun t =>
      t.rd F.HLM_SPEED_REF_TARGET = w.toNat ∧
      (t.sp = if s.sp = hLOCKED then hSPIN_UP else s.sp) ∧
      (s.sp = hLOCKED → t.hlm.law = some 0 ∧ t.hlm.ySp = s.hlm.ySp ∧ t.on F.HLM_STATUS_HO_ACTIVE = true) ∧
      (s.sp ≠ hLOCKED → t = { s.accessed with regs := t.regs }) := by
  refine ⟨s.accessed.speedRef w.toNat, congrArg Host.Outcome.next (State.access_helm hreset _), ?_⟩
  have htaken : s.accessed.speedRef w.toNat = if (s.accessed.wr F.HLM_SPEED_REF_TARGET w.toNat).sp = hLOCKED
      then ((s.accessed.wr F.HLM_SPEED_REF_TARGET w.toNat).handover 0 s.accessed.hlm.ySp true).setSp hSPIN_UP
      else s.accessed.wr F.HLM_SPEED_REF_TARGET w.toNat :=
    if_neg (Nat.not_lt.2 (by rwa [s.rd_count _ _ _ _ _ (by decide)]))
  have htarget : (s.accessed.wr F.HLM_SPEED_REF_TARGET w.toNat).rd F.HLM_SPEED_REF_TARGET = w.toNat :=
    (State.rd_wr_self _ _ _ (by decide)).trans (Nat.mod_eq_of_lt w.isLt)
  have hsp : (s.accessed.wr F.HLM_SPEED_REF_TARGET w.toNat).sp = s.sp := (State.rd_wr_apart _ _ _ _ (by decide)).trans s.accessed_sp
  rw [htaken, hsp, s.accessed_hlm]
  split
  · next hlocked =>
    generalize s.accessed.wr F.HLM_SPEED_REF_TARGET w.toNat = x at *
    have hfr := (x.handover 0 s.hlm.ySp true).setSp_fr hSPIN_UP
    have htr := (x.handover 0 s.hlm.ySp true).setSp_trails hSPIN_UP
    exact ⟨(hfr.rd _ (by decide)).trans (((x.handover_fr ..).rd _ (by decide)).trans htarget), State.setSp_sp _ (by decide),
      fun _ => ⟨htr.same Hlm.law fun _ => rfl, htr.same Hlm.ySp fun _ => rfl, (hfr.on _ (by decide)).trans (x.handover_active ..)⟩,
        fun h => absurd hlocked h⟩
  · next hfree => exact ⟨htarget, hsp, fun h => absurd h hfree, fun _ => rfl⟩

/-! ### The catch (R236) -/

/-- Speed below which the spindle counts as standing, in the unit of HLM_MEAS_SPEED (R236, R241). -/
abbrev State.stopSpeed (s : State) : Int := 256 * (s.rd F.HLM_BRAKE_LIM_STOP_SPD : Int)

theorem catchMeasureEnd_drives {s : State} (hsp : s.sp = hCATCH) (hlaw : s.hlm.law = none) :
    answers .catchMeasureEnd s fun t =>
      (if s.stopSpeed ≤ s.rdS F.HLM_MEAS_SPEED_OMEGA then t.sp = hSPIN_UP ∧ t.hlm.wRef = s.rdS F.HLM_MEAS_SPEED_OMEGA
        else if s.rdS F.HLM_MEAS_SPEED_OMEGA ≤ -s.stopSpeed
        then t.sp = hCATCH ∧ t.hlm.wRef = s.rdS F.HLM_MEAS_SPEED_OMEGA ∧ t.hlm.catchBrake = true
        else t.sp = hSPIN_UP ∧ t.hlm.wRef = 0) ∧
      t.hlm.law = some 0 ∧ t.hlm.ySp = 0 ∧ t.on F.HLM_STATUS_HO_ACTIVE = true := by
  refine ⟨_, congrArg Host.Outcome.next (if_neg (by simp [hsp, hlaw])), ?_⟩
  dsimp only
  split
  · have htr := ((s.hl fun h => { h with wRef := s.rdS F.HLM_MEAS_SPEED_OMEGA, pull := 0 }).handover 0 0 false).setSp_trails hSPIN_UP
    exact ⟨⟨State.setSp_sp _ (by decide), htr.same Hlm.wRef fun _ => rfl⟩, htr.same Hlm.law fun _ => rfl, htr.same Hlm.ySp fun _ => rfl,
      ((State.setSp_fr ..).on _ (by decide)).trans (State.handover_active ..)⟩
  · split
    · exact ⟨⟨((State.handover_fr ..).rd _ (by decide)).trans hsp, rfl, rfl⟩, rfl, rfl, State.handover_active ..⟩
    · obtain ⟨-, hw, -⟩ := s.spinUp_hlm
      exact ⟨⟨((State.handover_fr ..).rd _ (by decide)).trans s.spinUp_sp, hw⟩, rfl, rfl, State.handover_active ..⟩

/-! ### Lock attempts (R238) -/

/-- The conditions of a lock attempt. -/
abbrev State.attempts (s : State) : Prop :=
  s.sp = hLOCKING ∧ s.rd F.HLM_LOCK_CFG_LOCK_DWELL ≤ s.hlm.dwell ∧ s.on F.HLM_STATUS_INDEX_SEEN = true ∧
    Word.field (s.page 1 0) 1 0 ≠ 0 ∧ s.on F.HLM_STATUS_LOCK_FLAP = false

theorem State.mayAttempt_iff (s : State) : s.mayAttempt = true ↔ s.attempts := by
  simp only [State.mayAttempt, Bool.and_eq_true, beq_iff_eq, decide_eq_true_eq, bne_iff_ne, Bool.not_eq_true', and_assoc]

/-- The first attempt of a stay in LOCKING, with a reference of the helm's own. -/
abbrev State.ownFirst (s : State) : Prop := s.hlm.first = true ∧ s.on F.HLM_SWEEP_CFG_REF_SRC = false

/-- The phase error that an attempt judges: none at the first of a stay, whose own reference takes the present angle. -/
abbrev State.attemptPhase (s : State) : Int := if s.ownFirst then 0 else s.rdS F.HLM_MEAS_PHASE_E_PH

/-- The state in which an attempt is judged: its sample waits no longer, and an own reference has taken the present angle. -/
def State.judged (s : State) : State :=
  if s.ownFirst then (s.hl fun h => { h with waitSp := false, first := false, thetaRef := h.theta }).wr F.HLM_MEAS_PHASE_E_PH 0
  else s.hl fun h => { h with waitSp := false, first := false }

/-- An attempt that is accepted: L1 takes over with the output in force. -/
def State.lockTaken (s : State) : State :=
  (((s.hl fun h => { h with pull := 0, unlockRun := 0 }).takeOver 1).setSp hLOCKED).raise 416

/-- An attempt that is refused: counted, told at the first of a stay, and pulled toward the reference; a sample that waited drives on. -/
def State.lockRefused (s : State) (waited : Bool) : State :=
  let x := (s.bump F.HLM_CNT_LOCK_REF_COUNT 1).raiseIf (!s.hlm.refused) 417
  let p : Int := x.rd F.HLM_SPEED_REF_TARGET / 2 ^ x.rd F.HLM_LOCK_CFG_PULL
  let y := x.hl fun h => { h with refused := true, dwell := 0, pull := if 0 < s.rdS F.HLM_MEAS_PHASE_E_PH then p else -p }
  if waited then y.driveSp y.speedError noLow else y

theorem execLockAttempt_taken {s : State} (h : s.attempts) :
    execLockAttempt s = .next (
      let x := if (s.judged.rdS F.HLM_MEAS_PHASE_E_PH).natAbs ≤ s.judged.facetAngle / 4 then s.judged.lockTaken
        else s.judged.lockRefused s.hlm.waitSp
      if s.hlm.waitSp then x.tickDone else x) := by
  have hfirst : (s.hlm.first && !s.on F.HLM_SWEEP_CFG_REF_SRC) = true ↔ s.ownFirst := by rw [Bool.and_eq_true, Bool.not_eq_true']
  have hjudged : s.judged = (if s.hlm.first && !s.on F.HLM_SWEEP_CFG_REF_SRC then
      ((s.hl fun h => { h with waitSp := false }).hl fun h => { h with thetaRef := h.theta }).wr F.HLM_MEAS_PHASE_E_PH 0
      else s.hl fun h => { h with waitSp := false }).hl fun h => { h with first := false } := by
    simp only [hfirst, State.judged]
    split <;> rfl
  rw [hjudged]
  exact congrArg Host.Outcome.next (if_neg (by simp [s.mayAttempt_iff.2 h]))

/-- What an attempt is judged on. -/
theorem State.judged_phase (s : State) : s.judged.rdS F.HLM_MEAS_PHASE_E_PH = s.attemptPhase := by
  unfold State.judged State.attemptPhase
  split
  · rw [State.rdS, State.rd_wr_self _ _ _ (by decide)]
    rfl
  · rfl

theorem State.judged_hlm (s : State) :
    s.judged.hlm = { s.hlm with
      waitSp := false, first := false, thetaRef := if s.ownFirst then s.hlm.theta else s.hlm.thetaRef } := by
  unfold State.judged
  split <;> rfl

theorem State.judged_rd (s : State) (f : Fld) (h : Fld.apart F.HLM_MEAS_PHASE_E_PH f = true) : s.judged.rd f = s.rd f := by
  unfold State.judged
  split
  · exact State.rd_wr_apart _ _ _ _ h
  · rfl

theorem State.lockTaken_spec (s : State) (hmode : s.mode ≠ mRESET) :
    let t := s.lockTaken
    t.sp = hLOCKED ∧ t.hlm.law = some 1 ∧ t.hlm.ySp = s.hlm.ySp ∧ t.hlm.unlockRun = 0 ∧ t.hlm.pull = 0 ∧
      t.on F.HLM_STATUS_HO_ACTIVE = true ∧ 416 ∈ t.raised ∧ t.hlm.first = s.hlm.first ∧ t.hlm.waitSp = s.hlm.waitSp ∧
      t.hlm.thetaRef = s.hlm.thetaRef := by
  unfold State.lockTaken
  have hfr := (s.hl fun h => { h with pull := 0, unlockRun := 0 }).takeOver_fr 1
  have hover := (s.hl fun h => { h with pull := 0, unlockRun := 0 }).takeOver_samples 1
  have hy := (s.hl fun h => { h with pull := 0, unlockRun := 0 }).takeOver_ySp 1
  have hactive := (s.hl fun h => { h with pull := 0, unlockRun := 0 }).takeOver_active 1
  generalize (s.hl fun h => { h with pull := 0, unlockRun := 0 }).takeOver 1 = x at *
  have hspfr := x.setSp_fr hLOCKED
  have htr := (x.setSp_trails hLOCKED).trans (.raise _ 416)
  have hall := hover.trans htr.samples
  refine ⟨(State.rd_raise ..).trans (x.setSp_sp (by decide)), hall.same Hlm.law fun _ => rfl, (htr.same Hlm.ySp fun _ => rfl).trans hy,
    hall.same Hlm.unlockRun fun _ => rfl,
    hall.same Hlm.pull fun _ => rfl, ?active, ?told, hall.same Hlm.first fun _ => rfl, hall.same Hlm.waitSp fun _ => rfl,
    hall.same Hlm.thetaRef fun _ => rfl⟩
  case active =>
    rw [State.on_raise, hspfr.on _ (by decide)]
    exact hactive
  case told =>
    refine State.mem_raised_raise ?_ (by decide)
    rwa [hspfr.mode (by decide), hfr.mode (by decide)]

theorem State.lockRefused_spec (s : State) (waited : Bool) (hmode : s.mode ≠ mRESET) :
    let t := s.lockRefused waited
    t.sp = s.sp ∧ t.hlm.dwell = 0 ∧ t.hlm.refused = true ∧ t.hlm.first = s.hlm.first ∧ t.hlm.waitSp = s.hlm.waitSp ∧
      t.rd F.HLM_CNT_LOCK_REF_COUNT = min (s.rd F.HLM_CNT_LOCK_REF_COUNT + 1) (2 ^ 32 - 1) ∧
      (s.hlm.refused = false → 417 ∈ t.raised) ∧
      t.hlm.pull = (if 0 < s.rdS F.HLM_MEAS_PHASE_E_PH then 1 else -1) *
        (s.rd F.HLM_SPEED_REF_TARGET / 2 ^ s.rd F.HLM_LOCK_CFG_PULL : Nat) := by
  unfold State.lockRefused
  extract_lets x p y
  have hp : p = (s.rd F.HLM_SPEED_REF_TARGET / 2 ^ s.rd F.HLM_LOCK_CFG_PULL : Nat) := by
    unfold p x
    rw [State.rd_raiseIf, State.rd_raiseIf, s.rd_bump_apart _ _ _ (by decide), s.rd_bump_apart _ _ _ (by decide)]
    norm_cast
  have hsp : y.sp = s.sp := (State.rd_raiseIf ..).trans (s.rd_bump_apart _ _ _ (by decide))
  have hcount : y.rd F.HLM_CNT_LOCK_REF_COUNT = min (s.rd F.HLM_CNT_LOCK_REF_COUNT + 1) (2 ^ 32 - 1) :=
    (State.rd_raiseIf ..).trans (s.rd_bump_self _ _ (by decide))
  have hlevel : x.hlm = s.hlm := State.raiseIf_hlm ..
  have hpull : y.hlm.pull = if 0 < s.rdS F.HLM_MEAS_PHASE_E_PH then p else -p := rfl
  obtain ⟨hdwell, hrefused, hfirst, hwait⟩ :
      y.hlm.dwell = 0 ∧ y.hlm.refused = true ∧ y.hlm.first = s.hlm.first ∧ y.hlm.waitSp = s.hlm.waitSp :=
    ⟨rfl, rfl, (congrArg Hlm.first hlevel :), (congrArg Hlm.waitSp hlevel :)⟩
  have htold : s.hlm.refused = false → 417 ∈ y.raised := by
    intro h
    unfold y x
    have hbump : (s.bump F.HLM_CNT_LOCK_REF_COUNT 1).mode ≠ mRESET := (s.mode_wr_apart _ _ (by decide)).trans_ne hmode
    rw [h]
    exact State.mem_raised_raise hbump (by decide)
  clear_value y
  have hsamples : Samples y (if waited then y.driveSp y.speedError noLow else y) := .ite (y.driveSp_samples ..) (Trails.refl y).samples
  have hfr : Fr _ y (if waited then y.driveSp y.speedError noLow else y) := .ite (y.driveSp_fr ..) (.refl ..)
  refine ⟨(hfr.rd _ (by decide)).trans hsp, (hsamples.same Hlm.dwell fun _ => rfl).trans hdwell,
    (hsamples.same Hlm.refused fun _ => rfl).trans hrefused,
    (hsamples.same Hlm.first fun _ => rfl).trans hfirst, (hsamples.same Hlm.waitSp fun _ => rfl).trans hwait,
    (hfr.rd _ (by decide)).trans hcount,
    fun h => hsamples.told.mem (htold h), (hsamples.same Hlm.pull fun _ => rfl).trans ?_⟩
  rw [hpull, hp]
  split <;> simp

theorem State.facetAngle_judged (s : State) : s.judged.facetAngle = s.facetAngle := by
  rw [State.facetAngle, s.judged_rd _ (by decide), State.facetAngle]

theorem lockAttempt_locks {s : State} (hmode : s.mode ≠ mRESET) (h : s.attempts) (hnear : s.attemptPhase.natAbs ≤ s.facetAngle / 4) :
    answers .lockAttempt s fun t =>
      t.sp = hLOCKED ∧ t.hlm.law = some 1 ∧ t.hlm.ySp = s.hlm.ySp ∧ t.hlm.unlockRun = 0 ∧ t.hlm.pull = 0 ∧
      t.on F.HLM_STATUS_HO_ACTIVE = true ∧ 416 ∈ t.raised ∧
      (t.hlm.first = false ∧ t.hlm.waitSp = false ∧ t.hlm.thetaRef = if s.ownFirst then s.hlm.theta else s.hlm.thetaRef) := by
  refine ⟨_, execLockAttempt_taken h, ?_⟩
  rw [s.judged_phase, s.facetAngle_judged, if_pos hnear]
  obtain ⟨hsp, hlaw, hy, hrun, hpull, hactive, htold, hfirst, hwait, href⟩ :=
    s.judged.lockTaken_spec ((s.judged_rd _ (by decide)).trans_ne hmode)
  rw [s.judged_hlm] at hy hfirst hwait href
  generalize s.judged.lockTaken = x at *
  have hfr := x.endsTick_fr s.hlm.waitSp
  have htr := x.endsTick_trails s.hlm.waitSp
  exact ⟨(hfr.rd _ (by decide)).trans hsp, (htr.same Hlm.law fun _ => rfl).trans hlaw, (htr.same Hlm.ySp fun _ => rfl).trans hy,
    (htr.same Hlm.unlockRun fun _ => rfl).trans hrun, (htr.same Hlm.pull fun _ => rfl).trans hpull, (hfr.on _ (by decide)).trans hactive,
    htr.told.mem htold,
    (htr.same Hlm.first fun _ => rfl).trans hfirst, (htr.same Hlm.waitSp fun _ => rfl).trans hwait,
    (htr.same Hlm.thetaRef fun _ => rfl).trans href⟩

theorem lockAttempt_refuses {s : State} (hmode : s.mode ≠ mRESET) (h : s.attempts) (hfar : s.facetAngle / 4 < s.attemptPhase.natAbs) :
    answers .lockAttempt s fun t =>
      t.sp = hLOCKING ∧ t.hlm.dwell = 0 ∧ t.hlm.refused = true ∧ t.hlm.first = false ∧ t.hlm.waitSp = false ∧
      t.rd F.HLM_CNT_LOCK_REF_COUNT = min (s.rd F.HLM_CNT_LOCK_REF_COUNT + 1) (2 ^ 32 - 1) ∧
      (s.hlm.refused = false → 417 ∈ t.raised) ∧
      (t.hlm.pull = (if 0 < s.attemptPhase then 1 else -1) *
        (s.rd F.HLM_SPEED_REF_TARGET / 2 ^ s.rd F.HLM_LOCK_CFG_PULL : Nat)) := by
  refine ⟨_, execLockAttempt_taken h, ?_⟩
  rw [s.judged_phase, s.facetAngle_judged, if_neg (Nat.not_le.2 hfar)]
  obtain ⟨hsp, hdwell, href, hfirst, hwait, hcount, htold, hpull⟩ :=
    s.judged.lockRefused_spec s.hlm.waitSp ((s.judged_rd _ (by decide)).trans_ne hmode)
  have hsp' : s.judged.sp = hLOCKING := (s.judged_rd _ (by decide)).trans h.1
  rw [s.judged_hlm] at hfirst hwait htold
  rw [s.judged_phase, s.judged_rd _ (by decide), s.judged_rd _ (by decide)] at hpull
  rw [s.judged_rd _ (by decide)] at hcount
  generalize s.judged.lockRefused s.hlm.waitSp = x at *
  have hfr := x.endsTick_fr s.hlm.waitSp
  have htr := x.endsTick_trails s.hlm.waitSp
  exact ⟨(hfr.rd _ (by decide)).trans (hsp.trans hsp'), (htr.same Hlm.dwell fun _ => rfl).trans hdwell,
    (htr.same Hlm.refused fun _ => rfl).trans href,
    (htr.same Hlm.first fun _ => rfl).trans hfirst, (htr.same Hlm.waitSp fun _ => rfl).trans hwait, (hfr.rd _ (by decide)).trans hcount,
    fun hno => htr.told.mem (htold hno), (htr.same Hlm.pull fun _ => rfl).trans hpull⟩

theorem lockAttempt_idle {s : State} (h : ¬s.attempts) : answers .lockAttempt s fun t => t = s :=
  ⟨s, congrArg Host.Outcome.next (if_pos (by simpa using mt s.mayAttempt_iff.1 h)), rfl⟩

/-! ### Unlock and its flapping (R240) -/

/-- The record of an unlock at instant `u`, whose sample waits no longer. -/
def State.unlockNoted (s : State) (u : Nat) : State :=
  s.hl fun h => { h with
    waitSp := false, wRef := s.rd F.HLM_SPEED_REF_TARGET, unlockRun := 0, unlockHist := recent u (s.hlm.unlockHist ++ [u]) }

/-- The lock is given up: L0 takes over with the output in force, a stay in LOCKING begins, and the unlock is counted and told. -/
def State.unlocked (s : State) (u : Nat) : State :=
  ((((s.unlockNoted u).takeOver 0).enterLocking).bump F.HLM_CNT_UNLOCK_COUNT 1).raise 418

/-- The ninth of `n` unlocks latches their flapping. -/
def State.flapJudged (s : State) (n : Nat) : State :=
  if 8 < n ∧ !s.on F.HLM_STATUS_LOCK_FLAP then (s.wr F.HLM_STATUS_LOCK_FLAP 1).raise 419 else s

theorem execUnlock_taken {s : State} (u : Nat) (hsp : s.sp = hLOCKED) (hrun : 16 ≤ s.hlm.unlockRun) :
    execUnlock u s = .next (
      let x := (s.unlocked u).flapJudged (recent u (s.hlm.unlockHist ++ [u])).length
      if s.hlm.waitSp then x.tickDone else x) :=
  congrArg Host.Outcome.next (if_neg (by simp [hsp, hrun]))

theorem State.unlocked_spec (s : State) (u : Nat) (hmode : s.mode ≠ mRESET) :
    let t := s.unlocked u
    t.sp = hLOCKING ∧ t.hlm.law = some 0 ∧ t.hlm.unlockRun = 0 ∧ t.hlm.wRef = s.rd F.HLM_SPEED_REF_TARGET ∧
      t.hlm.waitSp = false ∧
      t.rd F.HLM_CNT_UNLOCK_COUNT = min (s.rd F.HLM_CNT_UNLOCK_COUNT + 1) (2 ^ 32 - 1) ∧ 418 ∈ t.raised ∧
      t.hlm.unlockHist = recent u (s.hlm.unlockHist ++ [u]) ∧ t.on F.HLM_STATUS_LOCK_FLAP = s.on F.HLM_STATUS_LOCK_FLAP ∧
      t.mode = s.mode := by
  unfold State.unlocked
  have hover := (s.unlockNoted u).takeOver_samples 0
  have hfr : Fr 0x68000000000000000000000000000000000001001 s ((s.unlockNoted u).takeOver 0).enterLocking :=
    .call (State.enterLocking_fr _) (.call (State.takeOver_fr _ 0) (.mono (s.hl_fr _) (by decide)) (by decide)) (by decide)
  have hstay : Trails (((s.unlockNoted u).takeOver 0).hl fun h => { h with pull := 0, dwell := 0, first := true, refused := false })
      (((((s.unlockNoted u).takeOver 0).enterLocking).bump F.HLM_CNT_UNLOCK_COUNT 1).raise 418) :=
    (State.setSp_trails _ hLOCKING).trans ((Trails.wr ..).trans (.raise ..))
  have hsp : ((s.unlockNoted u).takeOver 0).enterLocking.sp = hLOCKING := State.setSp_sp _ (by decide)
  generalize ((s.unlockNoted u).takeOver 0).enterLocking = y at *
  have hbump : (y.bump F.HLM_CNT_UNLOCK_COUNT 1).mode = s.mode := (y.mode_wr_apart _ _ (by decide)).trans (hfr.mode (by decide))
  refine ⟨?locked, (hstay.same Hlm.law fun _ => rfl).trans (hover.same Hlm.law fun _ => rfl),
    (hstay.same Hlm.unlockRun fun _ => rfl).trans (hover.same Hlm.unlockRun fun _ => rfl),
    (hstay.same Hlm.wRef fun _ => rfl).trans (hover.same Hlm.wRef fun _ => rfl),
    (hstay.same Hlm.waitSp fun _ => rfl).trans (hover.same Hlm.waitSp fun _ => rfl), ?count, ?told,
    (hstay.same Hlm.unlockHist fun _ => rfl).trans (hover.same Hlm.unlockHist fun _ => rfl), ?flap, (State.mode_raise ..).trans hbump⟩
  case locked => exact (State.rd_raise ..).trans ((y.rd_bump_apart _ _ _ (by decide)).trans hsp)
  case count =>
    have hadd := y.rd_bump_self F.HLM_CNT_UNLOCK_COUNT 1 (by decide)
    rw [hfr.rd _ (by decide)] at hadd
    exact (State.rd_raise ..).trans hadd
  case told => exact State.mem_raised_raise (hbump.trans_ne hmode) (by decide)
  case flap => exact (State.on_raise ..).trans ((y.on_wr_apart _ _ _ (by decide)).trans (hfr.on _ (by decide)))

theorem State.flapJudged_trails (s : State) (n : Nat) : Trails s (s.flapJudged n) := .ite ((Trails.wr ..).trans (.raise ..)) (.refl s)

theorem State.flapJudged_rd (s : State) (n : Nat) (f : Fld) (h : Fld.apart F.HLM_STATUS_LOCK_FLAP f = true) :
    (s.flapJudged n).rd f = s.rd f := by
  unfold State.flapJudged
  split
  · exact (State.rd_raise ..).trans (s.rd_wr_apart _ _ _ h)
  · rfl

theorem State.flapJudged_spec (s : State) (n : Nat) (hmode : s.mode ≠ mRESET) :
    (s.flapJudged n).on F.HLM_STATUS_LOCK_FLAP = (s.on F.HLM_STATUS_LOCK_FLAP || decide (8 < n)) ∧
      (8 < n ∧ s.on F.HLM_STATUS_LOCK_FLAP = false → 419 ∈ (s.flapJudged n).raised) := by
  unfold State.flapJudged
  simp only [Bool.not_eq_true']
  split
  · next h =>
    refine ⟨?_, fun _ => ?_⟩
    · rw [State.on_raise, s.on_wr_one _ (by decide) (by decide), decide_eq_true h.1, Bool.or_true]
    · exact State.mem_raised_raise ((s.mode_wr_apart _ _ (by decide)).trans_ne hmode) (by decide)
  · next h =>
    refine ⟨?_, fun h' => absurd h' h⟩
    cases hflap : s.on F.HLM_STATUS_LOCK_FLAP with
    | true => rfl
    | false => rw [Bool.false_or, decide_eq_false fun hn => h ⟨hn, hflap⟩]

theorem unlock_unlocks {s : State} (u : Nat) (hmode : s.mode ≠ mRESET) (hsp : s.sp = hLOCKED) (hrun : 16 ≤ s.hlm.unlockRun) :
    answers (.unlock u) s fun t =>
      t.sp = hLOCKING ∧ t.hlm.law = some 0 ∧ t.hlm.unlockRun = 0 ∧ t.hlm.wRef = s.rd F.HLM_SPEED_REF_TARGET ∧ t.hlm.waitSp = false ∧
      t.rd F.HLM_CNT_UNLOCK_COUNT = min (s.rd F.HLM_CNT_UNLOCK_COUNT + 1) (2 ^ 32 - 1) ∧
      418 ∈ t.raised ∧
      t.hlm.unlockHist = (recent u (s.hlm.unlockHist ++ [u])) ∧
      t.on F.HLM_STATUS_LOCK_FLAP = (s.on F.HLM_STATUS_LOCK_FLAP || decide (8 < (recent u (s.hlm.unlockHist ++ [u])).length)) ∧
      (8 < (recent u (s.hlm.unlockHist ++ [u])).length ∧ s.on F.HLM_STATUS_LOCK_FLAP = false → 419 ∈ t.raised) := by
  refine ⟨_, execUnlock_taken u hsp hrun, ?_⟩
  obtain ⟨hlocking, hlaw, hrun, hw, hwait, hcount, htold, hhist, hflap, hmode'⟩ := s.unlocked_spec u hmode
  generalize s.unlocked u = x at *
  generalize (recent u (s.hlm.unlockHist ++ [u])).length = n
  have htr := (x.flapJudged_trails n).trans (State.endsTick_trails _ s.hlm.waitSp)
  have hfr := (x.flapJudged n).endsTick_fr s.hlm.waitSp
  have hend := (x.flapJudged n).endsTick_trails s.hlm.waitSp
  obtain ⟨hlatch, hninth⟩ := x.flapJudged_spec n (hmode'.trans_ne hmode)
  rw [hflap] at hlatch hninth
  exact ⟨(hfr.rd _ (by decide)).trans ((x.flapJudged_rd _ _ (by decide)).trans hlocking), (htr.same Hlm.law fun _ => rfl).trans hlaw,
    (htr.same Hlm.unlockRun fun _ => rfl).trans hrun, (htr.same Hlm.wRef fun _ => rfl).trans hw,
    (htr.same Hlm.waitSp fun _ => rfl).trans hwait,
    (hfr.rd _ (by decide)).trans ((x.flapJudged_rd _ _ (by decide)).trans hcount), htr.told.mem htold,
    (htr.same Hlm.unlockHist fun _ => rfl).trans hhist, (hfr.on _ (by decide)).trans hlatch, fun h => hend.told.mem (hninth h)⟩

/-! ### The end of braking (R241, R236) -/

/-- The spindle is being braked to standstill. -/
abbrev State.braked (s : State) : Prop := s.sp = hBRAKING ∨ (s.sp = hCATCH ∧ s.hlm.catchBrake = true)

theorem State.slowing_iff (s : State) : s.slowing = true ↔ s.braked := by
  rw [State.slowing, Bool.or_eq_true, Bool.and_eq_true, beq_iff_eq, beq_iff_eq]

/-- The spindle turns slower than HLM_BRAKE_LIM.STOP_SPD. -/
abbrev State.stands (s : State) : Prop := ((s.rdS F.HLM_MEAS_SPEED_OMEGA).natAbs : Int) < s.stopSpeed

theorem State.stands_iff (s : State) : ¬256 * s.rd F.HLM_BRAKE_LIM_STOP_SPD ≤ (s.rdS F.HLM_MEAS_SPEED_OMEGA).natAbs ↔ s.stands := by
  unfold State.stands State.stopSpeed
  omega

theorem State.brakeEnd_spec (s : State) :
    s.brakeEnd.sp = hOFF ∧ s.brakeEnd.hlm.released ∧ s.brakeEnd.on F.HLM_STATUS_PENDING_ENABLE = false ∧
      s.brakeEnd.on F.SYS_PEND_STATUS_HLM = false ∧ s.brakeEnd.on F.HLM_STATUS_HO_ACTIVE = false ∧
      s.brakeEnd.helmRuns = s.helmRuns ∧ s.brakeEnd.mode = s.mode := by
  unfold State.brakeEnd
  obtain ⟨hown, hsys⟩ := s.dropPend_spec F.HLM_STATUS_PENDING_ENABLE F.SYS_PEND_STATUS_HLM (by decide)
  have hdrop := s.dropPend_fr_helm
  generalize s.dropPend F.HLM_STATUS_PENDING_ENABLE F.SYS_PEND_STATUS_HLM = x at *
  have hfr : Fr 0x68000000000000000000000000000000000001001 x (x.releaseSp.setSp hOFF) :=
    .call (State.setSp_fr ..) (.mono x.releaseSp_fr (by decide)) (by decide)
  have hmode : (x.releaseSp.setSp hOFF).mode = s.mode := (hfr.mode (by decide)).trans (hdrop.mode (by decide))
  have hho : x.releaseSp.on F.HLM_STATUS_HO_ACTIVE = false := x.on_wr_zero _ (by decide) (by decide)
  refine ⟨State.setSp_sp _ (by decide), (State.setSp_trails ..).released x.releaseSp_released, (hfr.on _ (by decide)).trans hown,
    (hfr.on _ (by decide)).trans hsys, ((State.setSp_fr ..).on _ (by decide)).trans hho, State.helmRuns_congr ?_ hmode ?_, hmode⟩
  · exact (hfr.on _ (by decide)).trans (hdrop.on _ (by decide))
  · exact (hfr.same .sys (by decide)).trans (hdrop.same .sys (by decide))

theorem standstill_ends {s : State} (hmode : s.mode ≠ mRESET) (hbraked : s.braked) (hstands : s.stands)
    (hcatch : s.hlm.catchBrake = false) :
    answers .standstill s fun t =>
      (let go := s.on F.HLM_STATUS_PENDING_ENABLE && s.helmRuns
       t.sp = (if go then hSPIN_UP else hOFF) ∧ t.hlm.law = if go then some 0 else none) ∧
      t.on F.HLM_STATUS_PENDING_ENABLE = false ∧ t.on F.SYS_PEND_STATUS_HLM = false ∧
      428 ∈ t.raised ∧
      t.on F.HLM_STATUS_HO_ACTIVE = false ∧ t.hlm.uSp = 0 ∧ t.hlm.pins.take 6 = [0, 0, 0, 0, 0, 0] := by
  refine ⟨if s.on F.HLM_STATUS_PENDING_ENABLE && (s.brakeEnd.raise 428).helmRuns then (s.brakeEnd.raise 428).spinUp
    else s.brakeEnd.raise 428, congrArg Host.Outcome.next ((if_neg ?_).trans (if_neg (by simp [hcatch]))), ?_⟩
  · rw [s.slowing_iff.2 hbraked]
    simpa using s.stands_iff.2 hstands
  obtain ⟨hsp, hrel, hown, hsys, hho, hruns, hmode'⟩ := s.brakeEnd_spec
  have htold : 428 ∈ (s.brakeEnd.raise 428).raised := State.mem_raised_raise (hmode'.trans_ne hmode) (by decide)
  have hruns' : (s.brakeEnd.raise 428).helmRuns = s.helmRuns :=
    (State.helmRuns_congr (State.on_raise ..) (State.mode_raise ..) (State.raise_sys ..)).trans hruns
  obtain ⟨hlaw, hy, hu, hlow, hwait⟩ := (Trails.raise s.brakeEnd 428).released hrel
  have hfr := s.brakeEnd.raise_fr 428
  replace hsp := (hfr.rd F.HLM_STATUS_SP_STATE (by decide)).trans hsp
  replace hown := (hfr.on _ (by decide)).trans hown
  replace hsys := (hfr.on _ (by decide)).trans hsys
  replace hho := (hfr.on _ (by decide)).trans hho
  rw [hruns']
  generalize s.brakeEnd.raise 428 = x at *
  cases s.on F.HLM_STATUS_PENDING_ENABLE && s.helmRuns with
  | true =>
    obtain ⟨hlaw', -, -, hu', -, hlow'⟩ := x.spinUp_hlm
    have hup := x.spinUp_fr
    exact ⟨⟨x.spinUp_sp, hlaw'⟩, (hup.on _ (by decide)).trans hown, (hup.on _ (by decide)).trans hsys,
      (Told.of_fr hup (by decide) (.of_raises rfl)).mem htold, (hup.on _ (by decide)).trans hho, hu'.trans hu, hlow' hlow⟩
  | false => exact ⟨⟨hsp, hlaw⟩, hown, hsys, htold, hho, hu, hlow⟩

theorem standstill_caught {s : State} (hbraked : s.braked) (hstands : s.stands) (hcatch : s.hlm.catchBrake = true) :
    answers .standstill s fun t =>
      t.sp = hSPIN_UP ∧ t.hlm.law = some 0 ∧ t.hlm.wRef = 0 ∧ t.hlm.uSp = 0 ∧ t.hlm.catchBrake = false := by
  refine ⟨s.releaseSp.spinUp, congrArg Host.Outcome.next ((if_neg ?_).trans (if_pos hcatch)), ?_⟩
  · rw [s.slowing_iff.2 hbraked]
    simpa using s.stands_iff.2 hstands
  obtain ⟨hlaw, hw, -, hu, hbrake, -⟩ := s.releaseSp.spinUp_hlm
  exact ⟨State.spinUp_sp _, hlaw, hw, hu, hbrake⟩

theorem standstill_idle {s : State} (h : ¬s.braked ∨ ¬s.stands) : answers .standstill s fun t => t = s := by
  refine ⟨s, congrArg Host.Outcome.next (if_pos (h.imp (fun hb => ?_) fun hs => ?_)), rfl⟩
  · simpa using mt s.slowing_iff.1 hb
  · exact not_not.1 (mt s.stands_iff.1 hs)

/-- Braking that timed out, in BRAKING or within CATCH. -/
def State.brakeGivenUp (s : State) : State := s.brakeEnd.hl fun h => { h with catchBrake := false }

theorem brakeTimeout_ends {s : State} (hmode : s.mode ≠ mRESET) (hbraked : s.braked) :
    answers .brakeTimeout s fun t =>
      (t.sp = if (s.on F.HLM_STATUS_PENDING_ENABLE && s.helmRuns) || s.hlm.catchBrake then hCATCH else hOFF) ∧
      t.on F.HLM_STATUS_PENDING_ENABLE = false ∧ t.on F.SYS_PEND_STATUS_HLM = false ∧
      t.hlm.law = none ∧ t.hlm.ySp = 0 ∧ t.hlm.uSp = 0 ∧ t.hlm.pins.take 6 = [0, 0, 0, 0, 0, 0] ∧ t.hlm.waitSp = false ∧
      427 ∈ t.raised ∧ t.hlm.catchBrake = false := by
  refine ⟨if (s.on F.HLM_STATUS_PENDING_ENABLE && s.helmRuns) || s.hlm.catchBrake then (s.brakeGivenUp.raise 427).enterCatch
      else s.brakeGivenUp.raise 427,
    congrArg Host.Outcome.next (if_neg (by rw [s.slowing_iff.2 hbraked]; decide)), ?_⟩
  obtain ⟨hsp, hrel, hown, hsys, -, -, hmode'⟩ := s.brakeEnd_spec
  have htold : 427 ∈ (s.brakeGivenUp.raise 427).raised := State.mem_raised_raise (s := s.brakeGivenUp) (hmode'.trans_ne hmode) (by decide)
  have htr := Trails.raise s.brakeGivenUp 427
  have hbrake : (s.brakeGivenUp.raise 427).hlm.catchBrake = false := htr.same Hlm.catchBrake fun _ => rfl
  replace hrel := htr.released (s := s.brakeGivenUp) hrel
  replace hsp := (s.brakeGivenUp.rd_raise 427 F.HLM_STATUS_SP_STATE).trans hsp
  replace hown := (s.brakeGivenUp.on_raise 427 _).trans hown
  replace hsys := (s.brakeGivenUp.on_raise 427 _).trans hsys
  generalize s.brakeGivenUp.raise 427 = x at *
  cases (s.on F.HLM_STATUS_PENDING_ENABLE && s.helmRuns) || s.hlm.catchBrake with
  | true =>
    have hfr := x.enterCatch_fr
    obtain ⟨hlaw, hy, hu, hlow, hwait⟩ := x.enterCatch_released
    exact ⟨x.enterCatch_sp, (hfr.on _ (by decide)).trans hown, (hfr.on _ (by decide)).trans hsys, hlaw, hy, hu, hlow, hwait,
      (Told.of_fr hfr (by decide) (.of_raises rfl)).mem htold,
      ((x.releaseSp.setSp_trails hCATCH).same Hlm.catchBrake fun _ => rfl).trans hbrake⟩
  | false =>
    obtain ⟨hlaw, hy, hu, hlow, hwait⟩ := hrel
    exact ⟨hsp, hown, hsys, hlaw, hy, hu, hlow, hwait, htold, hbrake⟩

theorem brakeTimeout_idle {s : State} (h : ¬s.braked) : answers .brakeTimeout s fun t => t = s :=
  ⟨s, congrArg Host.Outcome.next (if_pos (by simpa using mt s.slowing_iff.1 h)), rfl⟩

/-! ### The obligation -/

/-- Settles O40: each command by the lemma above that says what it does where its conditions hold; where they do not, it changes
nothing. -/
theorem helmSpindleStates : Obligations.HelmSpindleStates := by
  refine ⟨fun s => helmEnable_pends, fun s hreset hstop hen hsp => ?starts, fun s => helmEnable_driven, fun s => helmEnable_rejects,
    fun s => helmEnable_on, fun s => helmDisable_brakes, fun s => helmDisable_off, fun s w => speedRefWrite_takes w,
    fun s w => speedRefWrite_rejects w, fun s => catchMeasureEnd_drives, fun s h => ?noCatch, fun s => lockAttempt_locks,
    fun s => lockAttempt_refuses, fun s => lockAttempt_idle, fun s u => unlock_unlocks u, fun s u h => ?noUnlock,
    fun s hreset => ⟨_, congrArg Host.Outcome.next (State.access_helm hreset _), rfl⟩, fun s => ⟨_, rfl, rfl⟩,
    fun s => standstill_ends, fun s => standstill_caught, fun s => standstill_idle, fun s => brakeTimeout_ends,
    fun s => brakeTimeout_idle⟩
  case starts => exact helmEnable_starts hreset hstop hen hsp
  case noCatch =>
    exact ⟨s, congrArg Host.Outcome.next (if_pos (h.imp_right Option.isSome_iff_ne_none.2)), rfl⟩
  case noUnlock => exact ⟨s, congrArg Host.Outcome.next (if_pos h), rfl⟩

end Sys2Proof.Machine
end
